-- ==== Sys2Proof/Word.lean ====
section
/-!
DEFINITION. Sys2Proof/Word.lean: the word types of the block and the two units its device times are counted in.
-/
namespace Sys2Proof

/-- A register of BAR0 is one 32-bit word (spec/15 R460). -/
abbrev Word := BitVec 32

/-- A byte of a frame, of host memory or of a memory bank. -/
abbrev Byte := BitVec 8

/-- Sparse data by key: pairs with rising keys; a key that is not listed holds the table's default. -/
abbrev Tab (α : Type) := List (Nat × α)

/-- A timestamp as one number, in units of 2^-16 ns from second 0 (spec/00 R12). -/
abbrev Stamp := Nat

end Sys2Proof
end

