-- ==== Sys2Proof/Syntax.lean ====
section
/-!
DEFINITION. Sys2Proof/Syntax.lean: the commands of the block (spec/opcode_table.json), one constructor per row, and the
data their operands carry from outside the device: frames, stamps, messages, descriptors, images.
-/
namespace Sys2Proof

/-- Where a command comes from: the host's command ring, or a mailbox slot of CORE6 or CORE7 (spec/16 R498, R499). -/
inductive Src where
  | host
  | mbox (core : Fin 2) (slot : Fin 8)
  deriving DecidableEq, Repr

/-- Who writes a register: the host through BAR0, or a core on the register bus (spec/18 R547). -/
inductive WrSrc where
  | host
  | core (c : Fin 8)
  deriving DecidableEq, Repr

/-- A command descriptor as CORE4 starts it (spec/15 R469): everything but the opcode, which the row of the table gives.
`resv` is the value of the descriptor's reserved bytes 3 and 8 to 15; byte 0 of the payload is bits 7:0. -/
structure Cmd where
  src : Src
  flags : BitVec 8
  resv : BitVec 72
  tag : BitVec 32
  payload : BitVec 896
  deriving DecidableEq, Repr

/-- A setting of a profile: the bits `mask` of the register at byte address `addr` take the bits of `value`. -/
structure Setting where
  addr : Nat
  mask : Word
  value : Word
  deriving DecidableEq, Repr

/-- A supply rail and the lowest value measured on it during a dip, in mV (spec/03 R107). -/
structure RailLow where
  rail : Fin 9
  mv : BitVec 16
  deriving DecidableEq, Repr

/-- An image as the bytes of a bundle or of a flash slot read (spec/17 R519): its header's fields, and the verdicts that need its bytes:
whether its reserved fields are 0, its key's hash is the fused one, its signature and its body's hash verify (R520), and, in
a KS0320-format bundle, whether its tag verifies (R522). -/
structure Image where
  magic : BitVec 32 := 0x4B53494D
  hdrFormat : BitVec 16 := 1
  component : BitVec 8
  keySlot : BitVec 8 := 0
  version : BitVec 32
  svn : BitVec 8 := 0
  revoke : BitVec 8 := 0
  bodyLen : BitVec 32 := 1
  setFmt : BitVec 16 := 0
  setFrom : BitVec 16 := 0
  stateFmt : BitVec 16 := 0
  stateFrom : BitVec 16 := 0
  /-- REQUIRES: component and minimum VERSION, unused entries left out. -/
  requires : List (BitVec 8 × BitVec 32) := []
  resvZero : Bool := true
  keyOk : Bool := true
  sigOk : Bool := true
  bodyOk : Bool := true
  tagOk : Bool := true
  deriving DecidableEq, Repr

/-- A directory copy of the boot flash whose CRC is good (spec/17 R524). -/
structure Directory where
  seq : BitVec 32
  slotB : Bool
  area : Bool
  deriving DecidableEq, Repr

/-- A bundle as its bytes read (spec/17 R522): its format, its entries, whether entries overlap or the header breaks its form. -/
structure Bundle where
  legacy : Bool := false
  magicOk : Bool := true
  overlap : Bool := false
  images : List Image
  deriving DecidableEq, Repr

/-- What an interval unit and a lane give for one stamp (spec/09 R295, R299): the raw code of the interval from the event to the tick edge,
which a linearisation table turns into 1/4,096 of a tick, and the variable part of the latency in unit intervals of the lane (spec/04 R117). -/
structure StampIn where
  code : BitVec 12 := 0
  var : BitVec 32 := 0
  deriving DecidableEq, Repr

/-- What the receiver of lane `lane` of a port has met since the command before (spec/04 R140, R150): on Ethernet, symbol errors, corrected
and uncorrectable codewords; and the bits that have come for its pattern checker. -/
structure LineErr where
  lane : Fin 8 := 0
  symbols : Nat := 0
  corrected : Nat := 0
  lost : Nat := 0
  pattern : List Bool := []
  deriving DecidableEq, Repr

/-- A frame as a lane delivers it (spec/05 R155, R156; spec/04 R124): preamble and SFD, its bytes from the destination address to the FCS,
the prefix that follows it on a KL port, whether a code error or a decoding error hit it, how many frames no command tells of that were
lost with the delineation before it, what the receivers have met, and its stamp. What stands on a KL port's line comes with its
superblocks; there the frame is the oldest that the receiver has found, and only the count, the receivers' bits and the stamp are
the command's. -/
structure RxFrame where
  lead : List (BitVec 8) := [0x55, 0x55, 0x55, 0x55, 0x55, 0x55, 0x55, 0xD5]
  bytes : List (BitVec 8)
  after : BitVec 32 := 0
  codeErr : Bool := false
  klLost : Nat := 0
  errs : List LineErr := []
  st : StampIn := {}
  deriving DecidableEq, Repr

/-- A received PAUSE frame (one value of quanta), or a PFC frame: enable vector and eight values (spec/05 R161). -/
structure PauseIn where
  pfc : Bool
  enable : BitVec 8 := 1
  quanta : List (BitVec 16)
  deriving DecidableEq, Repr

/-- A cell of a frame in the buffer (spec/08 R241, R268): cell `cell` of frame `frame`, or of the private copy that the frame's copy
`copy` has of it. -/
structure CellRef where
  frame : Nat
  copy : Option Nat := none
  cell : Nat
  deriving DecidableEq, Repr

/-- One node record of a parse program (spec/06 R185). -/
structure ParseNode where
  /-- 0 GENERIC, 1 ETHERNET, 2 VLAN, 3 MPLS, 4 IPV4, 5 IPV6, 6 IPV6_EXT, 7 UDP, 8 TCP, 9 GRE, 10 VXLAN, 11 GENEVE, 12 PTP. -/
  kind : BitVec 8
  inner : Bool := false
  lenBase : BitVec 9 := 0
  lenOff : BitVec 8 := 0
  lenMask : BitVec 8 := 0
  lenShift : BitVec 2 := 0
  selOff : BitVec 8 := 0
  selWidth : BitVec 5 := 0
  /-- TRANS: value, mask, next node. -/
  trans : List (BitVec 16 × BitVec 16 × BitVec 8) := []
  dflt : BitVec 8 := 0xFF
  /-- USER_EX: the byte offset, where enabled. -/
  userEx0 : Option (BitVec 8) := none
  userEx1 : Option (BitVec 8) := none
  deriving DecidableEq, Repr

/-- A parse program (spec/06 R185); its CRC's verdict comes with the command that loads it. -/
structure ParseProg where
  format : BitVec 16
  version : BitVec 32
  start : BitVec 8
  keyInner : Bool
  nodes : List ParseNode
  deriving DecidableEq, Repr

/-- A record of a TABLE_BULK load (spec/07 R233): INDEX, the flags byte, window data words 0 to 5 (word 0 lowest). -/
structure BulkRec where
  index : BitVec 32
  flags : BitVec 8
  words : BitVec 192
  deriving DecidableEq, Repr

/-- Verdict of the timing pair on the ICV of a message (spec/10 R350). -/
inductive Icv where
  | good
  | bad
  | unverified
  deriving DecidableEq, Repr

/-- What a KL receiver meets up to the end of a marker (spec/04 R119 to R123): the symbols on its line since the end of the marker before,
those of the payload of one superblock and of the marker after it, and the bits for its pattern checker. -/
structure KlMarker where
  symbols : List (Fin 4)
  errs : List LineErr := []
  deriving DecidableEq, Repr

/-- What a chunk of an interpolator calibration gives (spec/11 R364): the raw code span of a segment, or the oscillator edges that it took,
as raw codes with their numbers. -/
inductive ChunkRes where
  | segment (span : BitVec 12)
  | edges (l : List (BitVec 12 × Nat))
  deriving DecidableEq, Repr

/-- What a path run measures (spec/11 R356, R357): element codes, delays, and the remaining differences of the receive and
the transmit path from nominal, in units of 2^-16 ns. -/
structure PathRun where
  txElem : BitVec 6
  rxElem : BitVec 6
  txDelay : BitVec 32
  rxDelay : BitVec 32
  rxTrim : Int
  txTrim : Int
  deriving DecidableEq, Repr

/-- What doorbell fetch `fetch` returns (spec/15 R462, R464): the host indices of rings 0 to 68 and the user area. The fetches are
numbered from 0 in the order of their issue (R465). -/
structure DoorbellData where
  fetch : Nat := 0
  idx : List (BitVec 32)
  user : BitVec 24576 := 0
  deriving DecidableEq, Repr

/-- What a read of host memory serves (spec/15 R482): the command of a tag, or the descriptors of a ring (R489). -/
inductive ReadFor where
  | cmd (tag : BitVec 32)
  | ring (r : Fin 69)
  deriving DecidableEq, Repr

/-- A TX descriptor (spec/15 R467); `resv` is bytes 13 to 31. -/
structure TxDesc where
  addr : BitVec 64
  len : BitVec 16
  flags : BitVec 8
  tc : BitVec 8
  port : BitVec 8
  resv : BitVec 152 := 0
  deriving DecidableEq, Repr

/-- An error that the check bits of a memory word show (spec/16 R506): the word, counted from the one in which the access begins, and whether
it is uncorrectable. -/
structure EccErr where
  word : Nat
  bad : Bool
  deriving DecidableEq, Repr

/-- The errors in the words of an instruction's fetch and of its data access (spec/16 R506). -/
structure EccSeen where
  fetch : List EccErr := []
  data : List EccErr := []
  deriving DecidableEq, Repr

/-- How a long operation's own work ended (spec/15 R475): whether the hardware failed, the numbers that the operation
reports, the bytes it has written to its host buffer, and the errors in the words of the bank window that it has met (spec/16 R506). -/
structure LongResult where
  fault : Bool := false
  nums : List Nat := []
  bytes : List (BitVec 8) := []
  ecc : List EccErr := []
  deriving DecidableEq, Repr

/-- What a profile holds for the generation of a pipeline (spec/03 R90, spec/06 R199, R208, spec/07 R235): its parse program, where it has one,
its TCAM and pattern entries, each with its index and the 44 data words of the window (spec/06 R210), its default action, and the records
of its forwarding tables, each with its table, index and words (spec/07 R239). -/
structure ProfGen where
  prog : Option ParseProg := none
  tcam : List (Fin 8192 × BitVec 1408) := []
  pats : List (Fin 2048 × BitVec 1408) := []
  defAct : BitVec 64 := 0
  recs : List (Fin 6 × Nat × BitVec 192) := []
  deriving DecidableEq, Repr

/-- A stored profile (spec/03 R85 to R90, spec/17 R531): settings format, verdict of its CRC, its register settings, the generations of PIPE0
on, the parameters of sessions as SESSION_SET carries them (spec/10 R323), and its settings of the PCIe endpoint and of the QSPI
clock, which no register shows. -/
structure Profile where
  format : BitVec 16 := 0
  crcOk : Bool := true
  settings : List Setting := []
  gens : List ProfGen := []
  sessions : List (BitVec 768) := []
  mainOnly : List Word := []
  deriving DecidableEq, Repr

/-- What the boot of the main domain reads from outside (spec/03 R82, R85; spec/17 R524, R531): the PROFILE_SEL pins, the
directory copies (none where the CRC fails), the images of the two slots, the profiles of the current area, and, where that
area is sealed, the verdict of its HMAC. -/
structure BootInput where
  sel : Fin 4
  dir0 : Option Directory
  dir1 : Option Directory
  slotA : List (List (BitVec 8))
  slotB : List (List (BitVec 8))
  profiles : List Profile
  sealed : Bool := false
  sealOk : Bool := true
  deriving DecidableEq, Repr

/-- The commands: one constructor for each row of spec/opcode_table.json, each docstring the row's own summary. -/
inductive Instr where
  /-- VDD_AON rises through 1.71 V, which resets and restarts the always-on island and the main domain. (R80) -/
  | islandReset
  /-- VDD_AON falls below 1.62 V and the device enters VAULT-ONLY, with only the vault running. (R100) -/
  | vaultOnlyEntry
  /-- After OSC_IN becomes valid, the tick PLL locks and TCNT0 and the beat generator start at beat 0 of second 0. (R81) -/
  | tickPllLock
  /-- 2 ms after tick PLL lock, or after a retry wait, MAIN_PWR_EN is driven high so the board can raise the main rails. (R60) -/
  | mainPwrEnHigh
  /-- A rail of step k reaches 10 % before step k-1 is valid, and the step is recorded in GLOBAL_SEQ. (R61) -/
  | seqOrderViolation (step : Nat)
  /-- A main rail is not above its reset threshold 100 ms after MAIN_PWR_EN rose, so MAIN_PWR_EN goes low and a retry or give-up follows. (R61) -/
  | powerupTimeout (stuckStep : Nat)
  /-- 1 s after a failed power-up attempt, the device tries MAIN_PWR_EN again. (R61) -/
  | powerupRetry
  /-- The main rails reach their reset thresholds from off, which causes a main power-on reset. (R91) -/
  | mainPor
  /-- A main rail stays below its reset threshold for 500 ns, which causes a supply reset that records the rail. (R109) -/
  | supplyReset (rail : Nat)
  /-- RESET_N is accepted low for at least 1 µs, which causes a main reset, or a STANDBY exit while in STANDBY. (R91) -/
  | pinReset
  /-- RESET_N is held low for at least 1 ms, which clears ATTEMPTS, GIVEN_UP and the thermal-trip latch. (R61) -/
  | resetNLong (islandBelow100 : Bool)
  /-- A main-domain sensor reads above 115 °C, so THERMTRIP_N is latched, the main domain is held in reset and MAIN_PWR_EN goes low. (R76) -/
  | thermtrip
  /-- 2 ms after a main-reset trigger ends, the main domain leaves reset and CORE5 runs the boot stages. (R82) -/
  | mainResetRelease (boot : BootInput)
  /-- At the next boundary after boot completes, the main domain joins the beat (stage 6). (R82) -/
  | joinBeat
  /-- A supervised rail falls below its warning threshold, so the device enters DIP and raises DIP_ENTER. (R106) -/
  | dipEnter (rails : BitVec 9)
  /-- Every rail has stayed 10 mV above warning for 2 µs, so the device leaves DIP and raises DIP_EXIT. (R107) -/
  | dipExit (lows : List RailLow)
  /-- A dip outlasts MAX_MS, so DIP_LONG is raised and ALARM_N is asserted. (R108) -/
  | dipLong (lows : List RailLow)
  /-- Loss of OSC_IN is detected, so OSC_LOST is set and the tick PLL holds its control voltage. (R68) -/
  | oscLoss
  /-- OSC_IN returns, the tick PLL relocks, and DPLL0 pulls out the error by rate. (R68) -/
  | oscReturn
  /-- The STANDBY wake time is reached, so the device leaves STANDBY and boots with cause STANDBY_EXIT. (R103) -/
  | standbyWake
  /-- DRAIN_MS expires during entry to QUIET, so queued frames are flushed and the transition continues. (R102) -/
  | quietDrainEnd
  /-- 1 ms after the STANDBY completion with RAILS_OFF, MAIN_PWR_EN is driven low. (R103) -/
  | standbyRailsOff
  /-- TCNT0 reaches a beat boundary, and the boundary actions run in their fixed order. (R31) -/
  | beatBoundary
  /-- At the sample cut-off at tick 16, due slots compute their updates from their samples. (R336) -/
  | servoCompute
  /-- At tick 12,800, unfinished or unserved slot updates are late, discarded and counted. (R32) -/
  | servoDeadline
  /-- No sample has been accepted for TIMEOUT beats, so the slot enters HOLD or switches to its partner. (R345) -/
  | slotInputTimeout (slot : Fin 256)
  /-- An expected unit ends without an exchange, so the session counts a miss and may change state. (R334) -/
  | sessionUnitEnd (sess : Fin 4096)
  /-- A session sends its due Sync, Delay_Req or Pdelay_Req, with Follow_Up where two-step. (R329) -/
  | sessionTx (sess : Fin 4096) (mtype : Fin 3) (k : Nat)
  /-- A two-step Sync waits one interval without its Follow_Up, so it is discarded as FU_MISS. (R327) -/
  | fuTimeout (sess : Fin 4096)
  /-- A received PTP message is matched to a session, forwarded as data or passed to the timing pair, and completes exchanges. (R325) -/
  | ptpRx (frame : Nat) (icv : Icv)
  /-- A KL marker is received and stamped, and a complete time sequence yields a one-way result. (R126) -/
  | klMarkerRx (lane : Fin 128) (m : KlMarker) (st : StampIn)
  /-- A KL window ends, so a report frame is sent and the offset and path delay are formed. (R333) -/
  | klWindowEnd (sess : Fin 4096)
  /-- A KL report frame from the partner is consumed by the engine. (R332) -/
  | klReportRx (lane : Fin 128) (frame : Nat)
  /-- An ESMC PDU received on a port updates the quality rank of its lane candidate. (R386) -/
  | esmcRx (port : Fin 128) (rank : BitVec 8)
  /-- No ESMC PDU arrives for 5 s, so the port is treated as QL-FAILED. (R386) -/
  | esmcTimeout (port : Fin 128)
  /-- The holdover countdown reaches 0, so HO_SPEC_EXCEEDED is set and HOLDOVER KIND 1 is raised. (R397) -/
  | hoTtsExpire (d : Fin 4)
  /-- Every 100 s of LOCKED time, a sample of the mean increment is taken for the drift fit. (R398) -/
  | holdoverLearnSample (d : Fin 4)
  /-- A 1 ms counter gate of a synthesizer ends, which declares or loses lock. (R400) -/
  | synGate (y : Fin 2) (errPpb : Nat) (band : Fin 64)
  /-- A core's per-beat heartbeat message or wire toggle arrives at the arbiter. (R444) -/
  | heartbeat (core : Fin 2) (wire : Bool) (beatNo : Nat)
  /-- INTLK_IN has been low for BOARD_WAIT boundaries, so the device asserts INTLK_OUT to take the board interlock. (R453) -/
  | boardIntlkTake
  /-- 100 ns after asserting INTLK_OUT, INTLK_IN is sampled, and the device yields or keeps the interlock. (R453) -/
  | boardIntlkSample (level : Bool)
  /-- Signal is present on all lanes of a port in DETECT, so an attempt begins. (R128) -/
  | signalDetect (port : Fin 128)
  /-- Signal is lost during AN, TRAIN or ALIGN, so the attempt aborts to DETECT with preset coefficients. (R131) -/
  | signalLoss (port : Fin 128) (mask : BitVec 8)
  /-- Clause 73 auto-negotiation resolves and the port moves to TRAIN. (R128) -/
  | anDone (port : Fin 128)
  /-- Training completes, and the port moves to ALIGN or the attempt fails for a low figure of merit. (R129) -/
  | trainDone (port : Fin 128) (foms : List (BitVec 8)) (preset : BitVec 4)
  /-- Alignment or KL marker lock completes and the port becomes ACTIVE. (R128) -/
  | alignDone (port : Fin 128)
  /-- A training attempt times out, so the port returns to DETECT or enters NO_PARTNER. (R130) -/
  | attemptTimeout (port : Fin 128)
  /-- The NO_PARTNER back-off expires and the port returns to DETECT. (R130) -/
  | backoffDone (port : Fin 128)
  /-- An ACTIVE port loses lock, goes down and enters RELOCK or DETECT. (R133) -/
  | lockLost (port : Fin 128) (mask : BitVec 8)
  /-- A relock try succeeds or its INTERVAL_MS expires, and the port goes back to ACTIVE, tries again or goes to DETECT. (R133) -/
  | relockTryEnd (port : Fin 128) (ok : Bool) (mask : BitVec 8)
  /-- Re-adaptation after L2 completes and training begins. (R138) -/
  | l2ExitDone (port : Fin 128)
  /-- A periodic 1 ms adaptation burst adapts the DFE and offsets and refreshes the figure of merit. (R136) -/
  | adaptBurst (lane : Fin 128) (code : BitVec 8)
  /-- A lane group's microcode load completes or faults, and LANE_UCODE is raised. (R142) -/
  | ucodeLoadDone (group : Fin 32) (result : Fin 3)
  /-- A frame is received, stamped, filtered, checked, counted and passed into its pipeline. (R156) -/
  | frameRx (port : Fin 128) (f : RxFrame)
  /-- A valid PAUSE or PFC frame ends its FCS check, and the affected classes stop for the pause time. (R161) -/
  | pauseRx (port : Fin 128) (p : PauseIn)
  /-- A received pause timer runs out and the class may start frames again. (R161) -/
  | pauseExpire (port : Fin 128) (pri : Fin 8)
  /-- A class has been stopped by received pause for STORM.MS, so the storm is marked and PAUSE_STORM is raised. (R164) -/
  | pauseStorm (port : Fin 128) (pris : BitVec 8)
  /-- The XOFF refresh interval expires, so the PAUSE or PFC frame is repeated. (R162) -/
  | xoffRefresh (port : Fin 128)
  /-- The parser and classifier decision for a frame becomes available and the frame is linked to its VOQs. (R198) -/
  | pipeDecision (frame : Nat)
  /-- The ingress check completes, releasing the SFD of an early-granted frame or aborting its preamble. (R251) -/
  | fcsCheckDone (frame : Nat)
  /-- The learn unit serves a queued request: it learns, moves, refuses, pins a flap or finds the table full. (R226) -/
  | learnServe (pipe : Fin 4)
  /-- CORE3's periodic visit to a learned entry clears HIT or advances AGE, and raises old beat counts. (R230) -/
  | ageVisit (pipe : Fin 4) (index : Nat)
  /-- The learn unit conditionally removes an entry whose AGE reached 3. (R230) -/
  | ageRemove (pipe : Fin 4) (index : Nat)
  /-- A fragment record reaches TIMEOUT_US after its last use and is removed. (R203) -/
  | fragExpire (pipe : Fin 4) (index : Fin 1024)
  /-- The drain counter of the DRAINING generation reaches 0, its entries are freed and GEN_DRAINED is raised. (R202) -/
  | genDrained (pipe : Fin 4)
  /-- Each 16-tick epoch, Sorrel matches input slots to output slots and admits cells to egress queues. (R245) -/
  | sorrelEpoch
  /-- The egress MAC selects the next eligible queue, applies the age check and starts a frame. (R248) -/
  | egressSelect (port : Fin 128)
  /-- A frame is sent, stamped at egress, corrected as a transparent clock and written back or captured. (R294) -/
  | frameTx (port : Fin 128) (st : StampIn)
  /-- A partial deep-buffer unit is written after 1 µs. (R262) -/
  | spillPartialFlush (queue : Fin 2048) (headroom : Bool)
  /-- A refill read returns cells to die, and ECC errors are corrected or drop frames. (R264) -/
  | refillDone (queue : Fin 2048) (stack : Fin 4) (corrected : Nat) (bad : List (Fin 8))
  /-- A stack's evacuation ends and MAPOUT_DONE is raised. (R267) -/
  | mapoutDone (stack : Fin 4) (corrected : Nat) (lost : List CellRef)
  /-- A multicast copy waits MC_WAIT_US without admission and is abandoned. (R269) -/
  | mcAbandon (frame : Nat) (egress : Fin 128)
  /-- The port-down hold expires, so queued frames are flushed, later ones discarded and learned entries flushed. (R273) -/
  | portHoldExpired (port : Fin 128)
  /-- A statistics snapshot's transfer to host memory ends and its completion is written. (R167) -/
  | snapshotXferDone
  /-- An accepted EVIN edge is stamped and feeds measurements, or it is ignored under hold-off. (R302) -/
  | evinEdge (evin : Fin 16) (falling : Bool) (code : BitVec 12)
  /-- A REFIN edge is stamped and feeds its candidate and measurements. (R378) -/
  | refinEdge (refin : Fin 8) (falling : Bool) (code : BitVec 12)
  /-- A measurement window ends and an INTERVAL or ORPHAN_START record is produced. (R305) -/
  | measWindowEnd (im : Fin 32)
  /-- A pending stop is held for WINDOW without a start and becomes an orphan stop. (R305) -/
  | pendingStopExpire (im : Fin 32) (stop : Fin 8)
  /-- Completed results are written to the measurement ring within budget, or discarded and counted. (R421) -/
  | measPost
  /-- A frequency gate ends and the least-squares frequency record is produced. (R425) -/
  | fmGateEnd (fm : Fin 16)
  /-- A scheduled pulse edge of an EVOUT falls due and is emitted. (R429) -/
  | evoutPulse (evout : Fin 16) (trailing : Bool)
  /-- The 1 ms lane temperature read makes calibration due when it has moved more than TRIG. (R360) -/
  | calTempCheck (sensor : Fin 145) (temp : BitVec 16)
  /-- MAX_S seconds pass since the last path run and calibration becomes due. (R360) -/
  | calPeriodDue (lane : Fin 128)
  /-- At tick 16, up to eight calibration slots start in priority order. (R361) -/
  | calSlotStart
  /-- A path run completes, and new element codes and trim take effect at the next boundary. (R357) -/
  | pathRunDone (lane : Fin 128) (r : PathRun)
  /-- An interpolator calibration chunk completes, and the table takes effect once all chunks are done. (R364) -/
  | calChunkDone (iu : Fin 160) (path : Fin 4) (r : ChunkRes)
  /-- A due calibration is not done within MAX_WAIT_MS, so OVERDUE is set and CAL_OVERDUE is raised. (R363) -/
  | calOverdue (iu : Fin 160) (interp noGap : Bool) (dueTick : Nat)
  /-- A tamper source fires and the vault logs, alarms or erases keys as configured. (R536) -/
  | tamperDetect (src : Fin 8) (detail : BitVec 32)
  /-- The vault's per-second VBAT measurement sets VBAT_LOW and raises VBAT_LOW. (R534) -/
  | vbatCheck (mv : Nat)
  /-- The system watchdog reaches 75 % of its timeout and WDT_WARN is raised. (R98) -/
  | wdtWarn
  /-- The system watchdog expires and a watchdog reset follows. (R98) -/
  | wdtReset
  /-- A per-core watchdog reaches 75 % and WDT_WARN is raised to the core. (R508) -/
  | coreWdtWarn (core : Fin 8)
  /-- A per-core watchdog expires, restarting or holding the core and raising CORE_WDT. (R508) -/
  | coreWdt (core : Fin 8)
  /-- PERST_N low performs domain reset 4 of the host interface. (R97) -/
  | perstN
  /-- A PCIe Function Level Reset performs domain reset 4. (R97) -/
  | functionLevelReset
  /-- The PCIe link drops to DL_Down and domain reset 4 follows. (R483) -/
  | dlDown
  /-- The link enters or leaves Recovery, which sets or clears RECOVERING and raises PCIE_RECOVERY. (R483) -/
  | pcieLinkRecovery (entered : Bool)
  /-- A device read's completion times out and is reissued, or the retries are exhausted. (R461) -/
  | pcieCto (readId : Nat) (what : ReadFor)
  /-- Doorbell fetch data returns, host indices are checked and applied, and the user area is copied. (R464) -/
  | doorbellData (d : DoorbellData)
  /-- A doorbell fetch misses its 8,000-tick deadline, is abandoned and is counted. (R32) -/
  | doorbellDeadline
  /-- A write to the kick page starts or queues a kick fetch of the doorbell indices. (R465) -/
  | kick
  /-- A TX frame from its descriptors is admitted to a queue or to a pipeline, and its status is written back. (R467) -/
  | txDescriptor (q : Fin 32) (descs : List TxDesc) (data : List (BitVec 8))
  /-- A trapped or delivered frame is written whole to an RX ring, or dropped for lack of buffers. (R468) -/
  | rxWriteback (q : Fin 32)
  /-- A waiting completion is written once the completion ring is enabled and has space. (R471) -/
  | completionWrite
  /-- A slot frees while losses are unreported, so EVENT_LOST is written. (R478) -/
  | eventLost
  /-- After MOD_US, a ring's MSI-X vector is signalled for its new entries. (R466) -/
  | msixSignal (ring : Fin 69)
  /-- A command exceeds TIMEOUT_MS and completes with TIMEOUT. (R474) -/
  | cmdTimeout (cmd : Nat)
  /-- A command with a reserved or unassigned opcode completes with BAD_ARG and does nothing. (R20) -/
  | unassignedOpcode (c : Cmd) (opcode : BitVec 16)
  /-- A stored profile is validated and applied to the running device as a long operation. (R89) -/
  | profileApply (c : Cmd) (prof : Profile)
  /-- The device is moved between NORMAL, QUIET and STANDBY. (R101) -/
  | powerStateSet (c : Cmd)
  /-- With the right key, a soft chip reset is performed at the next boundary. (R93) -/
  | chipReset (c : Cmd)
  /-- One domain is reset to its profile and reset values. (R96) -/
  | domainReset (c : Cmd)
  /-- A port is restarted in DETECT with its back-off reset. (R144) -/
  | laneRetrain (c : Cmd)
  /-- A lane's port is placed in or released from QUARANTINE. (R141) -/
  | laneQuarantine (c : Cmd)
  /-- A port is moved between ACTIVE, L1 and L2. (R138) -/
  | lanePower (c : Cmd)
  /-- A lane group's microcode is replaced as a long operation. (R142) -/
  | laneUcodeLoad (c : Cmd)
  /-- A lane's eye is mapped into host memory as a long operation. (R143) -/
  | laneEyeScan (c : Cmd)
  /-- A statistics snapshot of the selected ports is scheduled at a boundary. (R167) -/
  | statsSnapshot (c : Cmd)
  /-- Module memory is read over I2C into a host buffer. (R171) -/
  | modRead (c : Cmd)
  /-- Up to 8 bytes of module memory are written over I2C. (R171) -/
  | modWrite (c : Cmd)
  /-- A module slot's sideband outputs are set. (R171) -/
  | modSideband (c : Cmd)
  /-- A NACKed module transfer is retried after RETRY_MS. (R170) -/
  | i2cRetry (bus : Fin 16)
  /-- An SGPIO chain scan applies outputs and reads presence and interrupt inputs. (R172) -/
  | sgpioScan (inputs : List (BitVec 4))
  /-- A presence change is stable for 10 ms and MOD_PRESENT is raised. (R172) -/
  | modPresent (slot : Fin 64) (present : Bool)
  /-- PENDING generations are scheduled for commit at a named boundary. (R201) -/
  | genCommit (c : Cmd)
  /-- PENDING is reset to a copy of ACTIVE. (R205) -/
  | genDiscard (c : Cmd)
  /-- A parse program is checked and loaded into the PENDING slot. (R186) -/
  | parseLoad (c : Cmd) (prog : ParseProg) (crcOk : Bool)
  /-- The fragment records of the named pipelines are removed. (R205) -/
  | fragFlush (c : Cmd)
  /-- Table records are loaded or dumped as a long operation. (R232) -/
  | tableBulk (c : Cmd) (records : List BulkRec)
  /-- Learned MAC entries are removed by port and/or BD. (R231) -/
  | macFlush (c : Cmd)
  /-- A DRAM stack is mapped out or back in. (R267) -/
  | deepbufMapout (c : Cmd)
  /-- Stacks are scrubbed or tested as a long operation. (R277) -/
  | deepbufScrub (c : Cmd)
  /-- A SET, ADJUST or INCR of a counter is scheduled at a named boundary. (R292) -/
  | tcntWrite (c : Cmd)
  /-- A partner session is configured, enabled or disabled at the next boundary. (R323) -/
  | sessionSet (c : Cmd)
  /-- Session records are written to host memory. (R351) -/
  | sessionRead (c : Cmd)
  /-- A slot held for a jump is released by step, pull or switch. (R348) -/
  | slotAccept (c : Cmd)
  /-- Calibration runs on named lanes and units are forced as a long operation. (R372) -/
  | calSweep (c : Cmd)
  /-- Self-calibration of named lanes and units is held or released. (R372) -/
  | calHold (c : Cmd)
  /-- A DPLL is forced to a candidate or to holdover, or returned to automatic mode. (R410) -/
  | refForce (c : Cmd)
  /-- The drift of a DPLL's locked increment is fitted as a long operation. (R398) -/
  | holdoverLearn (c : Cmd)
  /-- A DPLL's holdover history and HIST_VALID are cleared. (R410) -/
  | dpllHistReset (c : Cmd)
  /-- One long frequency gate is run as a long operation. (R428) -/
  | freqLong (c : Cmd)
  /-- An EVOUT schedule is loaded at a named boundary. (R434) -/
  | pulseLoad (c : Cmd)
  /-- A non-holder core is brought into STANDBY by copying the holder's state. (R449) -/
  | pairRejoin (c : Cmd)
  /-- The interlock is moved to the standby core at a named boundary. (R450) -/
  | pairSwap (c : Cmd)
  /-- A long operation is suspended, resumed or cancelled. (R476) -/
  | longCtrl (c : Cmd)
  /-- The state and progress of a long operation are returned. (R477) -/
  | longQuery (c : Cmd)
  /-- A long operation ends and its final completion is written. (R475) -/
  | longOpFinal (handle : BitVec 32) (r : LongResult)
  /-- The command completes with OK and a TIME value. (R477) -/
  | nop (c : Cmd)
  /-- Data is copied between host memory and banks owned by host DMA. (R513) -/
  | memCopy (c : Cmd) (data : List (BitVec 8)) (ecc : List EccErr)
  /-- A bundle is verified and written into the inactive slot. (R525) -/
  | updStage (c : Cmd) (bytes : List (BitVec 8))
  /-- A staged component is put into service. (R527) -/
  | updInstall (c : Cmd)
  /-- SVN fuses are burned and the staged set becomes the boot set. (R529) -/
  | updCommit (c : Cmd)
  /-- The background erase of the superseded profile area ends and MIG_PENDING clears. (R529) -/
  | profileEraseDone
  /-- The inactive slot is marked empty. (R540) -/
  | updDiscard (c : Cmd)
  /-- A key is written into the vault, or removed from it. (R540) -/
  | keyWrite (c : Cmd)
  /-- An HMAC-SHA384 is computed with a customer key. (R540) -/
  | keyHmac (c : Cmd) (data : List (BitVec 8))
  /-- Latched tamper sources whose conditions are absent are released, and the log is optionally cleared. (R537) -/
  | tamperClear (c : Cmd)
  /-- A customer key slot is programmed or revoked. (R540) -/
  | fuseCust (c : Cmd)
  /-- A write to MB_POST hands a user core's mailbox request slot to CORE4. (R498) -/
  | mbPost (core : Fin 8) (value : BitVec 32)
  /-- Writing CHIP with the key requests a soft chip reset at the next boundary. (R94) -/
  | resetCtrlChip (src : WrSrc) (value : BitVec 32)
  /-- A write to GLOBAL_WDT_KICK advances or completes the two-write kick sequence. (R98) -/
  | wdtKick (src : WrSrc) (value : BitVec 32)
  /-- A write to GLOBAL_WDT_CTRL is applied, or refused under the nesting rule with CFG_ERR set. (R98) -/
  | wdtCtrlWrite (src : WrSrc) (value : BitVec 32)
  /-- Writing GO latches all 32 counters and their increments on one tick. (R291) -/
  | snapGo (src : WrSrc) (value : BitVec 32)
  /-- Writing UPD moves a slot's shadow coefficients into use at the next boundary. (R339) -/
  | slotUpd (src : WrSrc) (slot : Fin 256) (value : BitVec 32)
  /-- Writing UPD moves a port's shadowed link figures into use at the next boundary. (R369) -/
  | linkUpd (src : WrSrc) (lane : Fin 128) (value : BitVec 32)
  /-- Writing UPD loads a synthesizer's feedback and dividers, or is refused. (R401) -/
  | synUpd (src : WrSrc) (y : Fin 2) (value : BitVec 32)
  /-- Writing LOAD applies an EVOUT's shadow schedule at the next boundary. (R431) -/
  | evoutLoad (src : WrSrc) (evout : Fin 16) (value : BitVec 32)
  /-- A write of the SWRATE high word commits a software rate word for the next boundary. (R394) -/
  | swrateCommit (src : WrSrc) (d : Fin 4) (value : BitVec 32)
  /-- Setting or clearing OPEN opens or closes a DPLL's loop. (R394) -/
  | dpllOpen (src : WrSrc) (d : Fin 4) (value : BitVec 32)
  /-- A write of PORT_SA ADDR_HI commits the station address, unless it is a group address. (R179) -/
  | saCommit (src : WrSrc) (port : Fin 128) (value : BitVec 32)
  /-- A change of candidate type or frequency restarts the candidate at the next boundary. (R381) -/
  | candCfgWrite (src : WrSrc) (cand : Fin 16) (word : Fin 3) (value : BitVec 32)
  /-- A write to a group's RATE or DPLL_SEL takes its ports down to retrain. (R114) -/
  | laneGrpWrite (src : WrSrc) (group : Fin 32) (value : BitVec 32)
  /-- A lane configuration write is checked and restarts the port's state machine. (R115) -/
  | laneCfgWrite (src : WrSrc) (lane : Fin 128) (word : Fin 3) (value : BitVec 32)
  /-- Setting or clearing LOOP.MODE puts the port in LOOP or returns it to DETECT. (R139) -/
  | loopSet (src : WrSrc) (lane : Fin 128) (value : BitVec 32)
  /-- A write to an interval measurement ends its open window at the next boundary. (R419) -/
  | imCfgWrite (src : WrSrc) (im : Fin 32) (word : Fin 4) (value : BitVec 32)
  /-- A write to a frequency measurement abandons its gate and starts a new one. (R423) -/
  | fmCfgWrite (src : WrSrc) (fm : Fin 16) (word : Fin 2) (value : BitVec 32)
  /-- A window READ of a TCAM entry, pattern, default action, hit counter or fragment record in a view. (R210) -/
  | winRead (pipe : Fin 4) (value : BitVec 32)
  /-- A window WRITE fills a free entry and adds it to PENDING. (R200) -/
  | winWrite (pipe : Fin 4) (value : BitVec 32)
  /-- A window REMOVE clears an entry's PENDING bit. (R200) -/
  | winRemove (pipe : Fin 4) (value : BitVec 32)
  /-- A table-window READ by index in a view. (R238) -/
  | twinRead (pipe : Fin 4) (value : BitVec 32)
  /-- A table-window WRITE into PENDING, with LPM placement by moves. (R239) -/
  | twinWrite (pipe : Fin 4) (value : BitVec 32)
  /-- A table-window REMOVE by index or key. (R239) -/
  | twinRemove (pipe : Fin 4) (value : BitVec 32)
  /-- A table-window LOOKUP by key returns the found index. (R238) -/
  | twinLookup (pipe : Fin 4) (value : BitVec 32)
  /-- A table-window INJECT passes a MAC learn request to the learn unit. (R238) -/
  | twinInject (pipe : Fin 4) (value : BitVec 32)
  /-- Writing a bank's NEXT starts a handover of its ownership. (R501) -/
  | bankHandover (src : WrSrc) (bank : Fin 32) (value : BitVec 32)
  /-- Writing a quad's NEXT hands over all four banks together. (R502) -/
  | quadHandover (src : WrSrc) (quad : Fin 8) (value : BitVec 32)
  /-- The old owner's accesses have drained, OWNER takes NEXT and PENDING clears. (R501) -/
  | bankHandoverDone (bank : Fin 32)
  /-- A write to POWER moves a bank between ON, RETENTION and OFF. (R504) -/
  | bankPower (src : WrSrc) (bank : Fin 32) (value : BitVec 32)
  /-- Writing POP releases the oldest tagged-instruction record. (R512) -/
  | tagPop (core : Fin 8)
  /-- Writing FETCH_NOW starts a kick fetch as if the kick page were written. (R487) -/
  | fetchNow
  /-- Setting DMA_OFF stops all new device memory requests within 1 µs. (R487) -/
  | dmaOff (on : Bool)
  /-- Setting TX_STOP stops the fetching of TX descriptors. (R487) -/
  | txStop (on : Bool)
  /-- Setting a ring's EN enables it, with its device index at 0. (R463) -/
  | ringEnable (ring : Fin 69) (value : BitVec 32)
  /-- Clearing a ring's EN disables it. (R463) -/
  | ringDisable (ring : Fin 69) (value : BitVec 32)
  /-- A write of the PCIe Completion Timeout Value selects the timeout, limited to meet the nesting rule. (R461) -/
  | ctoConfigWrite (encoding : BitVec 4)
  /-- A write to the tamper configuration or lock is applied or refused under the lock. (R539) -/
  | tamperCfgWrite (lock : Bool) (src : Fin 8) (value : BitVec 32)
  /-- A BAR0 access of the wrong size or alignment is not performed and is counted. (R460) -/
  | badAccess (write : Bool) (addr : Nat)
  /-- A read of a two-word counter's low word returns it, latches the high word and clears the counter where RC. (R166) -/
  | counterRead (addr : Nat)
  /-- A read of an RC register returns its value and clears it. (R16) -/
  | rcRead (addr : Nat)
  /-- Writing 1 to a W1C bit clears it. (R16) -/
  | w1cWrite (src : WrSrc) (addr : Nat) (value : BitVec 32)
  /-- A write to a register with no row of its own takes effect, at the next boundary where its chapter says so. (R546) -/
  | registerWrite (src : WrSrc) (addr : Nat) (value : BitVec 32)
  /-- A write of BEAT.ACK acknowledges the beat interrupt and clears SKIPPED. (R496) -/
  | beatAck (core : Fin 8) (value : BitVec 32)
  /-- A write to the local WDT_KICK restarts the core's watchdog. (R508) -/
  | coreWdtKick (core : Fin 8) (value : BitVec 32)
  /-- Writing bit 31 of EVT releases the oldest entry of the core's event FIFO. (R500) -/
  | evtRelease (core : Fin 8) (value : BitVec 32)
  /-- A core executes a standard RV32IMC instruction, including accesses at any alignment. (R492) -/
  | rv32imcInstruction (core : Fin 8) (ecc : EccSeen)
  /-- The named counter is latched into the core's holding registers. (R493) -/
  | ksTsnap (core : Fin 8) (rd rs1 : Fin 32)
  /-- A part of the latched time is returned. (R493) -/
  | ksTget (core : Fin 8) (rd rs1 : Fin 32)
  /-- The core sleeps until the beat interrupt is pending, then acknowledges it. (R493) -/
  | ksWfb (core : Fin 8) (rd : Fin 32)
  /-- The core sleeps until an enabled interrupt is pending. (R493) -/
  | ksWfe (core : Fin 8) (rd : Fin 32)
  /-- A sleeping core wakes when its awaited interrupt becomes pending. (R493) -/
  | coreWake (core : Fin 8)
  /-- A running CRC-32 is updated by 1, 2 or 4 bytes. (R493) -/
  | ksCrc (core : Fin 8) (width : Fin 3) (rd rs1 rs2 : Fin 32)
  /-- Half of one of the core's performance counters is read. (R493) -/
  | ksPcnt (core : Fin 8) (rd rs1 : Fin 32)
  /-- Return from a trap handler to TRAP_EPC. (R493) -/
  | ksTret (core : Fin 8)
  /-- A synchronous trap stores its cause and jumps to TRAP_VEC, or halts the core on a double trap. (R495) -/
  | trap (core : Fin 8) (cause : BitVec 8) (val : BitVec 32)
  /-- A pending enabled interrupt is taken when no trap is active. (R495) -/
  | interruptTaken (core : Fin 8)
  /-- A 48-bit performance counter wraps, which sets its sticky bit and raises PERF_WRAP. (R509) -/
  | perfWrap (core : Fin 8) (e : Fin 40)
  /-- The tag countdown expires and the next instruction is tagged, or the tag is dropped. (R512) -/
  | tagCountdown (core : Fin 8)
  /-- VBAT falls below 1.8 V while VDD_AON is absent, and class V state is lost. (R59) -/
  | vbatLoss
  /-- Within 2 µs of an L1 exit, the drivers and recovery loop resume and the port returns to ACTIVE. (R138) -/
  | l1ExitDone (port : Fin 128)
  /-- No pause frame for a storming priority has arrived for STORM.MS, so the port honours received pause for it again. (R164) -/
  | pauseStormEnd (port : Fin 128) (pri : Fin 8)
  /-- The KL framer sends a marker, stamps its first symbol, and inserts the TIME sequence or the L1 flag. (R126) -/
  | klMarkerTx (lane : Fin 128) (st : StampIn)
  /-- Millet's write of a deep-buffer unit completes, freeing the on-die or HR_STAGE cells it occupied and reducing pending spill writes. (R262) -/
  | spillWriteDone (queue : Fin 2048) (headroom : Bool)
  /-- The PCIe link trains to L0 and the data link layer comes up, setting LINK_UP, WIDTH and SPEED. (R486) -/
  | pcieLinkUp (width speed : Nat)
  /-- The completion of a device memory read request returns from the host, and the data is delivered to the command or ring it served, possibly setting RECOVERED. (R482) -/
  | hostReadCompletion (readId : Nat)
  /-- A module I2C transfer ends with ACK and data, which completes the command, or with NACK, which schedules a retry. (R170) -/
  | i2cTransferEnd (bus : Fin 16) (ack : Bool) (data : List (BitVec 8)) (stuck : Bool)
  /-- The last pipeline's learned-entry scan of a MAC_FLUSH ends and the command completes with the number of entries removed. (R231) -/
  | macFlushScanEnd
  /-- A bank's power transition completes after 100 ns to 42 µs, POWER_STATE takes the requested state, and accesses may proceed. (R504) -/
  | bankPowerReached (bank : Fin 32)
  /-- A long operation asked to suspend reaches its next safe point, enters SUSPENDED, raises LONG_STATE and completes the LONG_CTRL. (R476) -/
  | longOpSafePoint (handle : BitVec 32)
  deriving DecidableEq, Repr

end Sys2Proof
end

