-- ==== Sys2Proof/Config.lean ====
section
/-!
DEFINITION. Sys2Proof/Config.lean: what one part, one board or one implementation fixes, and the free values: constants
without a body, so that a statement which mentions one holds whatever its value is. notes/assumptions names each.
-/
namespace Sys2Proof

/-- GRADE of `GLOBAL_ID`: true for a KS1280-E (spec/00 R1, R2). (DESIGN CHOICE, log entry 5) -/
opaque Config.gradeE : Bool
/-- Fused map of the spare column groups of a bank (spec/16 R507, R516). (DESIGN CHOICE, log entry 5) -/
opaque Config.fuseBankMap : Nat → Word
/-- SVN fuses of a component as manufactured (spec/17 R544). (DESIGN CHOICE, log entry 5) -/
opaque Config.fuseSvn : Nat → Word
/-- Key fuses as manufactured (spec/17 R544). (DESIGN CHOICE, log entry 5) -/
opaque Config.fuseKeys : Word
/-- Running version of a component of the image in the boot flash (spec/17 R544). (DESIGN CHOICE, log entry 5) -/
opaque Config.bootRunVersion : Nat → Word
/-- Element codes of a lane held in fuses (spec/11 R362, R375). (DESIGN CHOICE, log entry 5) -/
opaque Config.fuseLaneCodes : Nat → Word
/-- Transmit delay of a lane held in fuses (spec/11 R362, R375). (DESIGN CHOICE, log entry 5) -/
opaque Config.fuseLaneTxDelay : Nat → Word
/-- Receive delay of a lane held in fuses (spec/11 R362, R375). (DESIGN CHOICE, log entry 5) -/
opaque Config.fuseLaneRxDelay : Nat → Word
/-- Microcode version of a lane group in the boot image (spec/04 R152). (DESIGN CHOICE, log entry 5) -/
opaque Config.bootUcodeVersion : Nat → Word
/-- First of the 128 station addresses fused at manufacture (spec/05 R179). (DESIGN CHOICE, log entry 5) -/
opaque Config.fuseStation : BitVec 48
/-- PROG_VERSION of the parse program in the boot image (spec/06 R208). (DESIGN CHOICE, log entry 5) -/
opaque Config.bootProgVersion : Word
/-- Calibration trim of a lane held in fuses, receive and transmit, in units of 2^-16 ns (spec/11 R357, R362). (DESIGN CHOICE, log entry 5) -/
opaque Config.fuseRxTrim : Nat → Int
/-- Transmit trim of a lane held in fuses (spec/11 R362). (DESIGN CHOICE, log entry 5) -/
opaque Config.fuseTxTrim : Nat → Int
/-- Delay from ball to die of a lane, receive and transmit, held in fuses, in units of 2^-16 ns (spec/02 R79, spec/09 R319). (DESIGN CHOICE, log entry 5) -/
opaque Config.fuseBallRx : Nat → BitVec 32
/-- Transmit delay from die to ball of a lane held in fuses (spec/02 R79). (DESIGN CHOICE, log entry 5) -/
opaque Config.fuseBallTx : Nat → BitVec 32
/-- Delay from the programmed device time to the edge at the ball of EVOUT `k`, held in fuses, in units of 2^-16 ns (spec/02 R72), and the
sensor value at which it was measured. (DESIGN CHOICE, log entry 5) -/
opaque Config.fuseEvoutDelay : Nat → BitVec 32
opaque Config.fuseEvoutTemp : Nat → BitVec 16
/-- Linearisation of the raw codes of capture path `p` of unit `u` before its first calibration (spec/09 R299, spec/11 R377). (DESIGN CHOICE, log entry 5) -/
opaque Config.factoryTable (u p : Nat) : BitVec 12 → BitVec 12
/-- Interpolator segments of a unit held in fuses (spec/11 R377). (DESIGN CHOICE, log entry 5) -/
opaque Config.fuseIuSeg : Nat → Nat → Word

/-- Hash of way `w` of the MAC table over BD and address (spec/07 R218). (DEDUCED, log entry 26) -/
opaque Config.macHash : Nat → BitVec 14 → BitVec 48 → BitVec 16

/-- Set of the fragment records that a datagram's key names (spec/06 R203). (DEDUCED, log entry 26) -/
opaque Config.fragSet : Nat → BitVec 8

/-- Word `i` of the `n`-th fragment record that a window READ shows: the spec gives no layout (spec/06 R210). (DESIGN CHOICE, log entry 8) -/
opaque Config.fragWord : Nat → Nat → Word

/-- Proportional coefficient of a DPLL's loop for a bandwidth in 0.1 mHz and a DAMP code, in 2^-32 increment units for 2^-16 ns of phase
(spec/12 R388). (DESIGN CHOICE, log entry 8; DEDUCED, log entry 33) -/
opaque Config.loopKp (bw damp : Nat) : BitVec 64
/-- Integral coefficient, each beat, in 2^-64 increment units for 2^-16 ns of phase. (DESIGN CHOICE, log entry 8; DEDUCED, log entry 33) -/
opaque Config.loopKi (bw damp : Nat) : BitVec 96
/-- What a lane's recovered clock gains on the tick clock in one beat, signed, in 2^-44 ns (spec/12 R378, R380). (DESIGN CHOICE, log entry 8; DEDUCED, log entry 33) -/
opaque Config.laneGain : Nat → BitVec 64

/-- Delay from the ball to interval unit 128 + `u`, held in fuses, in 2^-16 ns (spec/02 R71, spec/09 R293), and the sensor value at which it was
measured. (DEDUCED, log entry 50) -/
opaque Config.pinDelay : Nat → BitVec 32
opaque Config.pinTemp : Nat → BitVec 16

/-- The 8 bytes that the `n`-th read of host memory by the device returns at an address (spec/15 R468). (DESIGN CHOICE, log entry 8) -/
opaque Config.hostRead : Nat → Nat → BitVec 64

/-- Address at which the firmware of a core starts, and the boot ROM's bytes (spec/16 R491, R497). (DESIGN CHOICE, log entry 5) -/
opaque Config.entryPc : Nat → BitVec 32
/-- Bytes of CORE5's boot ROM (spec/16 R497). (DESIGN CHOICE, log entry 5) -/
opaque Config.bootRom : Nat → BitVec 8
/-- How the slots of a core divide by event (spec/16 R510, R511): a part is this number modulo what there is to divide plus 1. (DESIGN CHOICE, log entry 8; DESIGN CHOICE, log entry 42) -/
opaque Config.perfCycles : Nat → Nat → BitVec 48
/-- Whether a branch has been predicted wrongly (spec/16 R510). (DESIGN CHOICE, log entry 8; DESIGN CHOICE, log entry 42) -/
opaque Config.mispredicted : Nat → Bool
/-- The role of a core lets it read, or write, a device register: spec/16 R497 names the roles and lists no registers. (DESIGN CHOICE, log entry 8; DEDUCED, log entry 41) -/
opaque Config.roleReads : Nat → Nat → Bool
/-- The same for writes. (DESIGN CHOICE, log entry 8; DEDUCED, log entry 41) -/
opaque Config.roleWrites : Nat → Nat → Bool
/-- The `n`-th state of the tag LFSR of a core (spec/16 R512). (DESIGN CHOICE, log entry 8; DESIGN CHOICE, log entry 42) -/
opaque Config.lfsr : Nat → Nat → BitVec 24
/-- Cycles from F to D, X, M and W and the largest stall of a tagged instruction (spec/16 R512). (DESIGN CHOICE, log entry 8; DESIGN CHOICE, log entry 42) -/
opaque Config.tagCycles : Nat → BitVec 40
/-- TRAP_VAL of a trap for which spec/16 R494 states none. (DESIGN CHOICE, log entry 8) -/
opaque Config.trapVal : Nat → BitVec 32
/-- Level of INTLK_IN at a boundary, an input (spec/14 R453, R456). (DESIGN CHOICE, log entry 8; DEDUCED, log entry 47) -/
opaque Config.intlkIn : Nat → Bool

/-- SHA-384 of some bytes (FIPS 180-4, spec/17 R519). (DESIGN CHOICE, log entry 8; DEDUCED, log entry 35) -/
opaque Config.sha384 : List (BitVec 8) → BitVec 384
/-- The fused hash of the public key of a Ryholt key slot (spec/17 R520). (DESIGN CHOICE, log entry 8) -/
opaque Config.fuseKeyHash : Nat → BitVec 384
/-- An ECDSA P-384 signature (r then s) of a hash verifies under a public key (FIPS 186-5, spec/17 R519). (DESIGN CHOICE, log entry 8; DEDUCED, log entry 35) -/
opaque Config.ecdsaP384 : BitVec 776 → BitVec 768 → BitVec 384 → Bool
/-- AES-256-GCM decryption (SP 800-38D, spec/17 R522): key, associated data, IV, tag, ciphertext; none where the tag fails. (DESIGN CHOICE, log entry 8; DEDUCED, log entry 35) -/
opaque Config.gcmOpen : BitVec 256 → BitVec 128 → BitVec 96 → BitVec 128 → List (BitVec 8) → Option (List (BitVec 8))
/-- HMAC-SHA384 of a message under a key of the customer store (spec/17 R540). (DEDUCED, log entry 35) -/
opaque Config.hmac384 : BitVec 256 → List (BitVec 8) → BitVec 384
/-- Seconds that the vault has counted while no command told of them (spec/17 R533). (DESIGN CHOICE, log entry 8; DEDUCED, log entry 44) -/
opaque Config.vaultSecs : Nat → BitVec 32
/-- VSEC at the first count after a loss of class V state, as VAULT_LOST carries it (spec/17 R541). (DESIGN CHOICE, log entry 8; DEDUCED, log entry 19) -/
opaque Config.firstCount : Nat → BitVec 32
/-- The condition of a tamper source is absent when TAMPER_CLEAR looks, at the `n`-th free value (spec/17 R537). (DESIGN CHOICE, log entry 8; DEDUCED, log entry 44) -/
opaque Config.tamperAbsent : Nat → Nat → Bool

/-- Quality level that ESMC PDUs carry for a rank, SSM code in bits 11:8 and enhanced one in 7:0, as the firmware profile's option maps it
(spec/12 R386, R409). (PRESUMED, log entry 64) -/
opaque Config.qlOf : BitVec 8 → BitVec 12
/-- Quality level sent in HOLDOVER (spec/12 R409). (PRESUMED, log entry 64) -/
opaque Config.qlHoldover : BitVec 12
/-- Quality level sent in FREERUN (spec/12 R409). (PRESUMED, log entry 64) -/
opaque Config.qlFreerun : BitVec 12
/-- Flag and counts of cascaded clocks in the extended QL TLV (spec/12 R409). (PRESUMED, log entry 64) -/
opaque Config.esmcExt : BitVec 24

/-- Ticks for which a changed CLKOUT is held low, where they are at most 1 ms (spec/12 R402). (DESIGN CHOICE, log entry 8) -/
opaque Config.clkHold : Nat → BitVec 21

/-- clockIdentity of the device in PTP messages, byte 0 in bits 7:0: spec/10 gives none. (PRESUMED, log entry 63) -/
opaque Config.clockId : BitVec 64
/-- Type of service of the datagrams that sessions send: spec/10 gives none. (PRESUMED, log entry 63) -/
opaque Config.ptpTos : BitVec 8
/-- Time to live of these datagrams. (PRESUMED, log entry 63) -/
opaque Config.ptpTtl : BitVec 8
/-- Identification of these datagrams, by the core tick. (PRESUMED, log entry 63) -/
opaque Config.ptpIpId : Nat → BitVec 16
/-- Flags and fragment offset of these datagrams. (PRESUMED, log entry 63) -/
opaque Config.ptpIpFrag : BitVec 16
/-- Flow label of these datagrams over IPv6. (PRESUMED, log entry 63) -/
opaque Config.ptpFlow : BitVec 20

end Sys2Proof
end

