-- ==== Sys2Proof/Machine/RegMap.lean ====
section
/-!
DEFINITION. Sys2Proof/Machine/RegMap.lean: the register map of BAR0 (spec/18 R545, R549 and the register tables of
every chapter): one row per register with its address, its instances, which bits a write reaches and how (spec/00
R16), the persistence class of its bits (spec/00 R18) and its reset value; then the address of every register
(`Reg.*`) and the place of every field (`F.*`).
-/
namespace Sys2Proof.Machine

/-- One register, or one array of registers, of BAR0. Bit i of a mask speaks of bit i of the register. -/
structure RegRow where
  /-- BAR0 byte address of instance (0, 0). -/
  base : Nat
  /-- Instances of the outer index and their stride. -/
  n1 : Nat := 1
  s1 : Nat := 4
  /-- Instances of the inner index and their stride. -/
  n2 : Nat := 1
  s2 : Nat := 4
  /-- Bits of type RW. -/
  rw : Nat := 0
  /-- Bits of type W1C. -/
  w1c : Nat := 0
  /-- Bits of type RC. -/
  rc : Nat := 0
  /-- Bits of type WO. -/
  wo : Nat := 0
  /-- Bits of type RWS. -/
  rws : Nat := 0
  /-- Bits of class A. -/
  ca : Nat := 0
  /-- Bits of class A in outer instance 0 and of class B elsewhere. -/
  cab : Nat := 0
  /-- Bits of class A in outer instance 0 and of class L elsewhere. -/
  cal : Nat := 0
  /-- Bits of class B. -/
  cb : Nat := 0
  /-- Bits of class V. -/
  cv : Nat := 0
  /-- Bits of class F. -/
  cf : Nat := 0
  /-- Reset word of instance (i, j). -/
  reset : Nat → Nat → Word := fun _ _ => 0#32

/-- A register found in the map: its row and its two indices. -/
structure RegHit where
  row : RegRow
  i : Nat
  j : Nat

/-- The instance of row `r` at byte address `a`, if there is one. -/
def RegRow.hit (r : RegRow) (a : Nat) : Option RegHit :=
  if a < r.base then none
  else
    let d := a - r.base
    let i := if r.n1 = 1 then 0 else d / r.s1
    let e := d - i * r.s1
    let j := if r.n2 = 1 then 0 else e / r.s2
    if i < r.n1 ∧ j < r.n2 ∧ e = j * r.s2 then some ⟨r, i, j⟩ else none

/-- Owner of a bank after reset (spec/16 R490): 0 to 7 a core, 8 host DMA, 9 measurement. -/
def bankOwnerReset (b : Nat) : Nat :=
  if b < 4 then 0 else if b < 8 then 1 else if b < 10 then 2 else if b < 12 then 3 else if b < 16 then 4
  else if b < 20 then 5 else if b < 23 then 8 else if b < 24 then 9 else if b < 28 then 6 else 7

/-- Reset word of `MEMBANK_BANK[b]_CTRL` (spec/18, register index; spec/16 R516). -/
def bankCtrlReset (b : Nat) : Word :=
  let o := bankOwnerReset b
  BitVec.ofNat 32 (o * 2 ^ 28 + o * 2 ^ 24 + 0x280000 + (if b < 20 ∨ b = 23 then 0x400000 else 0))

/-- The registers of the Global block. -/
def RegMap.rowsGlobal : List RegRow :=
  [
    -- globalId (R2)
    { base := 0x0, cf := 0xFFFFFFF0,
      reset := fun _ _ => if Config.gradeE then 0x1280B010#32 else 0x1280B000#32 },
    -- globalBeat (R36)
    { base := 0x100, ca := 0xFFFFFFFF },
    -- globalBeatLen (R37)
    { base := 0x104, ca := 0xFFFF,
      reset := fun _ _ => 0x3E80#32 },
    -- globalLateFlags (R38)
    { base := 0x108, w1c := 0x1FF },
    -- globalLateCnt (R39)
    { base := 0x110, n1 := 9, s1 := 0x4, rc := 0xFFFFFFFF },
    -- globalLateEvmask (R40)
    { base := 0x140, rw := 0x1FF, cb := 0x1FF,
      reset := fun _ _ => 0x1FF#32 },
    -- globalSeq (R63)
    { base := 0x200, w1c := 0xB, ca := 0x3FCF },
    -- globalResetCause (R95)
    { base := 0x300, w1c := 0xFF0, ca := 0xF0000FFF,
      reset := fun _ _ => 0xF0000801#32 },
    -- globalResetCtrl (R94)
    { base := 0x304, wo := 0xFFFF0000, rws := 0x1 },
    -- globalWdtCtrl (R99)
    { base := 0x308, rw := 0x7FFFF, w1c := 0x80000000, cb := 0x7FFFF,
      reset := fun _ _ => 0x307D0#32 },
    -- globalWdtKick (R99)
    { base := 0x30C, wo := 0xFFFF },
    -- globalProfile (R112)
    { base := 0x310, rw := 0xE0, ca := 0xE0 },
    -- globalBoot (R112)
    { base := 0x314,
      reset := fun _ _ => 0x100000#32 },
    -- globalPwrState (R104)
    { base := 0x320 },
    -- globalDipCtrl (R110)
    { base := 0x340, rw := 0x3FFF, cb := 0x3FFF,
      reset := fun _ _ => 0x64#32 },
    -- globalDipStatus (R110)
    { base := 0x344 } ]

/-- The registers of the Hostif block. -/
def RegMap.rowsHostif : List RegRow :=
  [
    -- hostifCfg (R485)
    { base := 0x100000, rw := 0xE0000000 },
    -- hostifDbAddrLo (R485)
    { base := 0x100008, rw := 0xFFFFFFFF },
    -- hostifDbAddrHi (R485)
    { base := 0x10000C, rw := 0xFFFFFFFF },
    -- hostifStatAddrLo (R485)
    { base := 0x100010, rw := 0xFFFFFFFF },
    -- hostifStatAddrHi (R485)
    { base := 0x100014, rw := 0xFFFFFFFF },
    -- hostifCmd (R486)
    { base := 0x100020, rw := 0xFFFF, cb := 0xFFFF,
      reset := fun _ _ => 0x3E8#32 },
    -- hostifDma (R486)
    { base := 0x100024, rw := 0x3, cb := 0x3,
      reset := fun _ _ => 0x1#32 },
    -- hostifStatus (R486)
    { base := 0x100030, w1c := 0x20000000,
      reset := fun _ _ => 0x32#32 },
    -- hostifEmerg (R487)
    { base := 0x100040, rw := 0xC0000000, rws := 0x20000000 },
    -- hostifCnt (R488)
    { base := 0x100080, n1 := 8, s1 := 0x4, rc := 0xFFFFFFFF },
    -- ringBaseLo (R489)
    { base := 0x101000, n1 := 69, s1 := 0x20, rw := 0xFFFFFFFF },
    -- ringBaseHi (R489)
    { base := 0x101004, n1 := 69, s1 := 0x20, rw := 0xFFFFFFFF },
    -- ringCfg (R489)
    { base := 0x101008, n1 := 69, s1 := 0x20, rw := 0x8FFFFFFF,
      reset := fun _ _ => 0x6001C00#32 },
    -- ringStatus (R489)
    { base := 0x10100C, n1 := 69, s1 := 0x20, w1c := 0x80000000 },
    -- ringDevIdx (R489)
    { base := 0x101010, n1 := 69, s1 := 0x20 },
    -- ringHostIdx (R489)
    { base := 0x101014, n1 := 69, s1 := 0x20 } ] ++
  [
    -- ringLoss (R489)
    { base := 0x101018, n1 := 69, s1 := 0x20, rc := 0xFFFFFFFF },
    -- msixAddrLo (R459)
    { base := 0x108000, n1 := 256, s1 := 0x10, rw := 0xFFFFFFFF },
    -- msixAddrHi (R459)
    { base := 0x108004, n1 := 256, s1 := 0x10, rw := 0xFFFFFFFF },
    -- msixData (R459)
    { base := 0x108008, n1 := 256, s1 := 0x10, rw := 0xFFFFFFFF },
    -- msixCtrl (R459)
    { base := 0x10800C, n1 := 256, s1 := 0x10, rw := 0x1,
      reset := fun _ _ => 0x1#32 },
    -- msixPba (R459)
    { base := 0x109000, n1 := 8, s1 := 0x4 } ]

/-- The registers of the Cores block. -/
def RegMap.rowsCores : List RegRow :=
  [
    -- coreStatus (R515)
    { base := 0x200000, n1 := 8, s1 := 0x100 },
    -- coreWdt (R515)
    { base := 0x200004, n1 := 8, s1 := 0x100, rw := 0x8000FFFF, cb := 0x8000FFFF,
      reset := fun _ _ => 0x1F4#32 },
    -- coreMb (R515)
    { base := 0x200608, n1 := 2, s1 := 0x100, rw := 0xFFFFFFFF, cb := 0xFFFFFFFF },
    -- coreTrapPc (R515)
    { base := 0x20000C, n1 := 8, s1 := 0x100 },
    -- coreSkipped (R515)
    { base := 0x200010, n1 := 8, s1 := 0x100, rc := 0xFFFFFFFF },
    -- bankCtrl (R516)
    { base := 0x210000, n1 := 32, s1 := 0x10, rw := 0xF300000, cb := 0xFF300000, cf := 0x400000,
      reset := fun i _ => bankCtrlReset i },
    -- bankEcc (R516)
    { base := 0x210004, n1 := 32, s1 := 0x10, rc := 0xFFFFFFFF },
    -- bankFuse (R516)
    { base := 0x210008, n1 := 32, s1 := 0x10, cf := 0xFFFFFFFF,
      reset := fun i _ => Config.fuseBankMap i &&& 0xFFFFFFFF#32 },
    -- quad (R516)
    { base := 0x210400, n1 := 8, s1 := 0x4, rw := 0x8F000000, cb := 0x80000000,
      reset := fun i _ => if i = 2 ∨ i = 5 then 0x0F000000#32 else 0xCF000000#32 },
    -- membankStatus (R516)
    { base := 0x210440, w1c := 0x80000000 },
    -- perfCntLo (R517)
    { base := 0x220000, n1 := 8, s1 := 0x1000, n2 := 40, s2 := 0x8 },
    -- perfCntHi (R517)
    { base := 0x220004, n1 := 8, s1 := 0x1000, n2 := 40, s2 := 0x8 },
    -- perfWrapLo (R517)
    { base := 0x220200, n1 := 8, s1 := 0x1000, w1c := 0xFFFFFFFF },
    -- perfWrapHi (R517)
    { base := 0x220204, n1 := 8, s1 := 0x1000, w1c := 0xFF },
    -- perfTagCfg (R517)
    { base := 0x220210, n1 := 8, s1 := 0x1000, rw := 0x1F },
    -- perfTagStatus (R517)
    { base := 0x220214, n1 := 8, s1 := 0x1000, wo := 0x80000000 } ] ++
  [
    -- perfTagRec (R517)
    { base := 0x220400, n1 := 8, s1 := 0x1000, n2 := 512, s2 := 0x4 } ]

/-- The registers of the Sec block. -/
def RegMap.rowsSec : List RegRow :=
  [
    -- secStatus (R542)
    { base := 0x400000, w1c := 0xC8000000, cv := 0xC00000FF,
      reset := fun _ _ => 0x80000000#32 },
    -- secTamperCfg (R542)
    { base := 0x400100, n1 := 8, s1 := 0x4, rw := 0x7, cv := 0x7,
      reset := fun i _ => if i < 4 then 0#32 else if i = 6 then 1#32 else 2#32 },
    -- secTamperLock (R542)
    { base := 0x400120, rw := 0x1, cv := 0x1 },
    -- secVsec (R543)
    { base := 0x400124, cv := 0xFFFFFFFF },
    -- secLog (R543)
    { base := 0x400200, n1 := 128, s1 := 0x4, cv := 0xFFFFFFFF },
    -- updSvn (R544)
    { base := 0x401000, n1 := 16, s1 := 0x4, cf := 0x7F,
      reset := fun i _ => Config.fuseSvn i &&& 0x7F#32 },
    -- updKeys (R544)
    { base := 0x401040, cf := 0xFF,
      reset := fun _ _ => Config.fuseKeys &&& 0xFF#32 },
    -- updStatus (R544)
    { base := 0x401044 },
    -- updCompRun (R544)
    { base := 0x401100, n1 := 16, s1 := 0x8,
      reset := fun i _ => Config.bootRunVersion i },
    -- updCompStaged (R544)
    { base := 0x401104, n1 := 16, s1 := 0x8 } ]

/-- The registers of the Lane block. -/
def RegMap.rowsLane : List RegRow :=
  [
    -- laneCfg (R146)
    { base := 0x800000, n1 := 128, s1 := 0x2000, rw := 0xFFFC0000, cb := 0xFFFC0000,
      reset := fun _ _ => 0x100000#32 },
    -- laneTrain (R147)
    { base := 0x800010, n1 := 128, s1 := 0x2000, rw := 0xFFFFFFFF, cb := 0xFFFFFFFF,
      reset := fun _ _ => 0x3120#32 },
    -- laneRelock (R147)
    { base := 0x800014, n1 := 128, s1 := 0x2000, rw := 0xFFF, cb := 0xFFF,
      reset := fun _ _ => 0x308#32 },
    -- laneStatus (R148)
    { base := 0x800020, n1 := 128, s1 := 0x2000 },
    -- laneFom (R149)
    { base := 0x800024, n1 := 128, s1 := 0x2000, rw := 0xFFFFFF00, cb := 0xFFFFFF00,
      reset := fun _ _ => 0xA182000#32 },
    -- laneErrCnt (R150)
    { base := 0x800040, n1 := 128, s1 := 0x2000, n2 := 9, s2 := 0x4, rc := 0xFFFFFFFF },
    -- laneLoop (R151)
    { base := 0x800080, n1 := 128, s1 := 0x2000, rw := 0x3F3 },
    -- laneCalCfg (R374)
    { base := 0x800100, n1 := 128, s1 := 0x2000, rw := 0xA000FF00, cb := 0xA000FF00,
      reset := fun _ _ => 0x80002000#32 },
    -- laneCalPeriod (R374)
    { base := 0x800104, n1 := 128, s1 := 0x2000, rw := 0xFFFFFFFF, cb := 0xFFFFFFFF,
      reset := fun _ _ => 0x3E80E10#32 },
    -- laneCalStatus (R374)
    { base := 0x800108, n1 := 128, s1 := 0x2000,
      reset := fun _ _ => 0x2000000#32 },
    -- laneCalCount (R375)
    { base := 0x80010C, n1 := 128, s1 := 0x2000 },
    -- laneCalTimeFrac (R375)
    { base := 0x800110, n1 := 128, s1 := 0x2000 },
    -- laneCalTimeNs (R375)
    { base := 0x800114, n1 := 128, s1 := 0x2000 },
    -- laneCalTimeSecLo (R375)
    { base := 0x800118, n1 := 128, s1 := 0x2000 },
    -- laneCalTimeSecHi (R375)
    { base := 0x80011C, n1 := 128, s1 := 0x2000 },
    -- laneCalCodes (R375)
    { base := 0x800120, n1 := 128, s1 := 0x2000,
      reset := fun i _ => Config.fuseLaneCodes i &&& 0x3F3F0000#32 } ] ++
  [
    -- laneCalTxDelay (R375)
    { base := 0x800128, n1 := 128, s1 := 0x2000,
      reset := fun i _ => Config.fuseLaneTxDelay i },
    -- laneCalRxDelay (R375)
    { base := 0x80012C, n1 := 128, s1 := 0x2000,
      reset := fun i _ => Config.fuseLaneRxDelay i },
    -- linkCfg (R376)
    { base := 0x800140, n1 := 128, s1 := 0x2000, rw := 0xC0000000, w1c := 0x1, rws := 0x20000000, cb := 0xC0000000 },
    -- linkTxExt (R376)
    { base := 0x800144, n1 := 128, s1 := 0x2000, rw := 0xFFFFFF, cb := 0xFFFFFF },
    -- linkRxExt (R376)
    { base := 0x800148, n1 := 128, s1 := 0x2000, rw := 0xFFFFFF, cb := 0xFFFFFF },
    -- linkPtxExt (R376)
    { base := 0x80014C, n1 := 128, s1 := 0x2000, rw := 0xFFFFFF, cb := 0xFFFFFF },
    -- linkPrxExt (R376)
    { base := 0x800150, n1 := 128, s1 := 0x2000, rw := 0xFFFFFF, cb := 0xFFFFFF },
    -- linkCoef (R376)
    { base := 0x800154, n1 := 128, s1 := 0x2000, rw := 0xFFFFFFFF, cb := 0xFFFFFFFF },
    -- linkGdelay (R376)
    { base := 0x800158, n1 := 128, s1 := 0x2000, rw := 0xFFFFFF, cb := 0xFFFFFF,
      reset := fun _ _ => 0x4AA948#32 },
    -- linkRtF (R376)
    { base := 0x80015C, n1 := 128, s1 := 0x2000 },
    -- linkAsymEffLo (R376)
    { base := 0x800160, n1 := 128, s1 := 0x2000 },
    -- linkAsymEffHi (R376)
    { base := 0x800164, n1 := 128, s1 := 0x2000 },
    -- laneGrp (R152)
    { base := 0x801000, n1 := 32, s1 := 0x8000, rw := 0x730, cb := 0x730,
      reset := fun i _ => (Config.bootUcodeVersion i <<< 16) ||| 0x400#32 } ]

/-- The registers of the Port block. -/
def RegMap.rowsPort : List RegRow :=
  [
    -- portCfg (R174)
    { base := 0xC00000, n1 := 128, s1 := 0x1000, rw := 0xFFFFF000, cb := 0xFFFFF000,
      reset := fun _ _ => 0x90018000#32 },
    -- portPause (R175)
    { base := 0xC00010, n1 := 128, s1 := 0x1000, rw := 0xFFFFFFFF, cb := 0xFFFFFFFF,
      reset := fun _ _ => 0xFFFF8000#32 },
    -- portStorm (R175)
    { base := 0xC00014, n1 := 128, s1 := 0x1000, rw := 0x7FFF, cb := 0x7FFF },
    -- portTcPri (R176)
    { base := 0xC00020, n1 := 128, s1 := 0x1000, n2 := 2, s2 := 0x4, rw := 0xFFFFFF, cb := 0xFFFFFF,
      reset := fun _ j => if j = 0 then 0x006D2240#32 else 0x00FF6B64#32 },
    -- portMeas (R175)
    { base := 0xC00030, n1 := 128, s1 := 0x1000, rw := 0x1FFFFF, cb := 0x1FFFFF,
      reset := fun _ _ => 0x8000#32 },
    -- portPfcMap (R176)
    { base := 0xC00040, n1 := 128, s1 := 0x1000, n2 := 8, s2 := 0x4, rw := 0xFFFF, cb := 0xFFFF,
      reset := fun _ j => BitVec.ofNat 32 (3 <<< (2 * j)) },
    -- portPauseStatus (R177)
    { base := 0xC00060, n1 := 128, s1 := 0x1000 },
    -- portSaLo (R179)
    { base := 0xC00070, n1 := 128, s1 := 0x1000, rw := 0xFFFFFFFF, cb := 0xFFFFFFFF,
      reset := fun i _ => BitVec.ofNat 32 (Config.fuseStation.toNat + i) },
    -- portSaHi (R179)
    { base := 0xC00074, n1 := 128, s1 := 0x1000, rw := 0xFFFF, cb := 0xFFFF,
      reset := fun i _ => BitVec.ofNat 32 ((Config.fuseStation.toNat + i) / 2 ^ 32 % 2 ^ 16) },
    -- portDaLo (R178)
    { base := 0xC00100, n1 := 128, s1 := 0x1000, n2 := 16, s2 := 0x8, rw := 0xFFFFFFFF, cb := 0xFFFFFFFF,
      reset := fun _ j => if j = 0 then 0x19000000#32 else if j = 1 then 0xC200000E#32 else 0#32 },
    -- portDaHi (R178)
    { base := 0xC00104, n1 := 128, s1 := 0x1000, n2 := 16, s2 := 0x8, rw := 0x8000FFFF, cb := 0x8000FFFF,
      reset := fun _ j => if j = 0 then 0x8000011B#32 else if j = 1 then 0x80000180#32 else 0#32 },
    -- portCntLo (R180)
    { base := 0xC00400, n1 := 128, s1 := 0x1000, n2 := 64, s2 := 0x8, rc := 0xFFFFFFFF },
    -- portCntHi (R180)
    { base := 0xC00404, n1 := 128, s1 := 0x1000, n2 := 64, s2 := 0x8 },
    -- portMod (R181)
    { base := 0xC00800, n1 := 64, s1 := 0x1000, rw := 0x7, cb := 0x7,
      reset := fun _ _ => 0x3#32 },
    -- portI2c (R181)
    { base := 0xC00900, n1 := 16, s1 := 0x1000, rw := 0xFFF3, w1c := 0x10000, cb := 0xFFF3,
      reset := fun _ _ => 0xA31#32 },
    -- portSgpio (R181)
    { base := 0xC00A00, rw := 0xFFFF, cb := 0xFFFF,
      reset := fun _ _ => 0xF40#32 } ]

/-- The registers of the Pipe block. -/
def RegMap.rowsPipe : List RegRow :=
  [
    -- pipeParseCfg (R207)
    { base := 0x1000000, n1 := 4, s1 := 0x400000, rw := 0xDF800000, cb := 0xDF800000,
      reset := fun _ _ => 0x800000#32 },
    -- pipeTcDef (R207)
    { base := 0x1000004, n1 := 4, s1 := 0x400000, rw := 0xFF, cb := 0xFF,
      reset := fun _ _ => 0xF0#32 },
    -- pipePcpMap (R207)
    { base := 0x1000008, n1 := 4, s1 := 0x400000, rw := 0xFFFFFFFF, cb := 0xFFFFFFFF,
      reset := fun _ _ => 0xECA86420#32 },
    -- pipeGenStatus (R208)
    { base := 0x1000020, n1 := 4, s1 := 0x400000,
      reset := fun _ _ => 0x140#32 },
    -- pipeGenCtrl (R208)
    { base := 0x1000024, n1 := 4, s1 := 0x400000, rw := 0xFFFF, cb := 0xFFFF,
      reset := fun _ _ => 0x3E8#32 },
    -- pipeGenDrain (R208)
    { base := 0x1000028, n1 := 4, s1 := 0x400000 },
    -- pipeProgVer (R208)
    { base := 0x100002C, n1 := 4, s1 := 0x400000, cb := 0xFFFFFFFF,
      reset := fun _ _ => Config.bootProgVersion },
    -- pipeFragCfg (R209)
    { base := 0x1000030, n1 := 4, s1 := 0x400000, rw := 0xFF00FFFF, cb := 0xFF00FFFF,
      reset := fun _ _ => 0x800007D0#32 },
    -- pipeFragStatus (R209)
    { base := 0x1000034, n1 := 4, s1 := 0x400000 },
    -- pipeWinCtrl (R210)
    { base := 0x1000100, n1 := 4, s1 := 0x400000, rw := 0x7FC01FFF, rws := 0x80000000 },
    -- pipeWinStatus (R210)
    { base := 0x1000104, n1 := 4, s1 := 0x400000 },
    -- pipeWinData (R210)
    { base := 0x1000200, n1 := 4, s1 := 0x400000, n2 := 64, s2 := 0x4, rw := 0xFFFFFFFF },
    -- pipeParseCntLo (R211)
    { base := 0x1000400, n1 := 4, s1 := 0x400000, n2 := 16, s2 := 0x8, rc := 0xFFFFFFFF },
    -- pipeParseCntHi (R211)
    { base := 0x1000404, n1 := 4, s1 := 0x400000, n2 := 16, s2 := 0x8 },
    -- pipeFwdCfg (R235)
    { base := 0x1001000, n1 := 4, s1 := 0x400000, rw := 0xFFFFFFFC, cb := 0xFFFFFFFC,
      reset := fun _ _ => 0x12C028C#32 },
    -- pipeConfirm (R235)
    { base := 0x1001004, n1 := 4, s1 := 0x400000, rw := 0xFFFF, cb := 0xFFFF,
      reset := fun _ _ => 0x2710#32 } ] ++
  [
    -- pipeRouterMacLo (R236)
    { base := 0x1001008, n1 := 4, s1 := 0x400000, rw := 0xFFFFFFFF, cb := 0xFFFFFFFF },
    -- pipeRouterMacHi (R236)
    { base := 0x100100C, n1 := 4, s1 := 0x400000, rw := 0x8000FFFF, cb := 0x8000FFFF },
    -- pipeLearnStatus (R236)
    { base := 0x1001010, n1 := 4, s1 := 0x400000 },
    -- pipeMoveEpoch (R236)
    { base := 0x1001014, n1 := 4, s1 := 0x400000 },
    -- pipeMacUsed (R236)
    { base := 0x1001018, n1 := 4, s1 := 0x400000 },
    -- pipeLpmUsed (R236)
    { base := 0x100101C, n1 := 4, s1 := 0x400000 },
    -- pipePortL2 (R237)
    { base := 0x1001100, n1 := 4, s1 := 0x400000, n2 := 32, s2 := 0x4, rw := 0xEFFFFFFF, cb := 0xEFFFFFFF,
      reset := fun _ _ => 0xA0010000#32 },
    -- pipeLearnLimit (R237)
    { base := 0x1001180, n1 := 4, s1 := 0x400000, n2 := 32, s2 := 0x4, rw := 0xFFFF, cb := 0xFFFF,
      reset := fun _ _ => 0xFFFF#32 },
    -- pipeTwinCtrl (R238)
    { base := 0x1001200, n1 := 4, s1 := 0x400000, rw := 0x7FC7FFFF, rws := 0x80000000 },
    -- pipeTwinStatus (R238)
    { base := 0x1001204, n1 := 4, s1 := 0x400000 },
    -- pipeTwinData (R238)
    { base := 0x1001240, n1 := 4, s1 := 0x400000, n2 := 8, s2 := 0x4, rw := 0xFFFFFFFF },
    -- pipeFwdCntLo (R240)
    { base := 0x1001400, n1 := 4, s1 := 0x400000, n2 := 16, s2 := 0x8, rc := 0xFFFFFFFF },
    -- pipeFwdCntHi (R240)
    { base := 0x1001404, n1 := 4, s1 := 0x400000, n2 := 16, s2 := 0x8 } ]

/-- The registers of the Fabric block. -/
def RegMap.rowsFabric : List RegRow :=
  [
    -- fabricCfg (R279)
    { base := 0x2000000, rw := 0xFFFFFFFF, cb := 0xFFFFFFFF,
      reset := fun _ _ => 0x800000C0#32 },
    -- fabricPool (R279)
    { base := 0x2000004, rw := 0xFFFFF, cb := 0xFFFFF,
      reset := fun _ _ => 0x10000#32 },
    -- fabricMc (R279)
    { base := 0x2000008, rw := 0xFFFF, cb := 0xFFFF,
      reset := fun _ _ => 0x3E8#32 },
    -- fabricStatus (R279)
    { base := 0x2000010, w1c := 0xC0000000,
      reset := fun _ _ => 0x90000#32 },
    -- fabricPort (R280)
    { base := 0x2000800, n1 := 128, s1 := 0x4, rw := 0x8000FFFF, cb := 0x8000FFFF,
      reset := fun _ _ => 0x80000064#32 },
    -- fabricSp (R280)
    { base := 0x2000A00, n1 := 128, s1 := 0x4, rw := 0xFFFF, cb := 0xFFFF,
      reset := fun _ _ => 0x8000#32 },
    -- eqLim (R281)
    { base := 0x2010000, n1 := 2048, s1 := 0x20, rw := 0xFFFFFF, cb := 0xFFFFFF,
      reset := fun _ _ => 0x20000#32 },
    -- eqSpill (R281)
    { base := 0x2010004, n1 := 2048, s1 := 0x20, rw := 0xFFFFFFFF, cb := 0xFFFFFFFF,
      reset := fun _ _ => 0x86001000#32 },
    -- eqSched (R281)
    { base := 0x2010008, n1 := 2048, s1 := 0x20, rw := 0xFFFF00FF, cb := 0xFFFF00FF,
      reset := fun _ _ => 0x1#32 },
    -- eqDepth (R281)
    { base := 0x201000C, n1 := 2048, s1 := 0x20 },
    -- eqOndie (R281)
    { base := 0x2010010, n1 := 2048, s1 := 0x20 },
    -- eqHwm (R281)
    { base := 0x2010014, n1 := 2048, s1 := 0x20, rc := 0x1FFFFFF },
    -- iaTh (R282)
    { base := 0x2020000, n1 := 2048, s1 := 0x10, rw := 0xFFFFFFFF, cb := 0xFFFFFFFF,
      reset := fun _ _ => 0x3000400#32 },
    -- iaHr (R282)
    { base := 0x2020004, n1 := 2048, s1 := 0x10, rw := 0x3FFFF, cb := 0x3FFFF,
      reset := fun _ _ => 0x4C4B#32 },
    -- iaDrop (R282)
    { base := 0x2020008, n1 := 2048, s1 := 0x10, rw := 0xFFFF, cb := 0xFFFF,
      reset := fun _ _ => 0x2000#32 },
    -- iaDepth (R282)
    { base := 0x202000C, n1 := 2048, s1 := 0x10, w1c := 0x40000000 } ] ++
  [
    -- fabricPcntLo (R283)
    { base := 0x2030000, n1 := 2048, s1 := 0x8, rc := 0xFFFFFFFF },
    -- fabricPcntHi (R283)
    { base := 0x2030004, n1 := 2048, s1 := 0x8 },
    -- fabricSample (R284)
    { base := 0x2038000, n1 := 128, s1 := 0x4, rw := 0xFFFF, cb := 0xFFFF } ]

/-- The registers of the Deep block. -/
def RegMap.rowsDeep : List RegRow :=
  [
    -- deepCfg (R285)
    { base := 0x2800000, rw := 0xC007FFFF, cb := 0xC007FFFF,
      reset := fun _ _ => 0x80000010#32 },
    -- deepStatus (R285)
    { base := 0x2800004 },
    -- deepFree (R285)
    { base := 0x2800008 },
    -- deepBw (R285)
    { base := 0x2800030 },
    -- deepEccCorr (R285)
    { base := 0x2800010, n1 := 4, s1 := 0x8, rc := 0xFFFFFFFF },
    -- deepEccUncorr (R285)
    { base := 0x2800014, n1 := 4, s1 := 0x8, rc := 0xFFFFFFFF } ]

/-- The registers of the Tb block. -/
def RegMap.rowsTb : List RegRow :=
  [
    -- tbStatus (R315)
    { base := 0x3000000, ca := 0x1 },
    -- tbClamp (R315)
    { base := 0x3000004, w1c := 0xFFFFFFFF },
    -- tbSnapCtrl (R315)
    { base := 0x3000008, rw := 0x10000000, rws := 0x80000000 },
    -- tbStepFrac (R316)
    { base := 0x3000040, n1 := 4, s1 := 0x10, cal := 0xFFFF },
    -- tbStepNs (R316)
    { base := 0x3000044, n1 := 4, s1 := 0x10, cal := 0x3FFFFFFF },
    -- tbStepSecLo (R316)
    { base := 0x3000048, n1 := 4, s1 := 0x10, cal := 0xFFFFFFFF },
    -- tbStepSecHi (R316)
    { base := 0x300004C, n1 := 4, s1 := 0x10, cal := 0xC000FFFF },
    -- tbIncrLo (R317)
    { base := 0x3000100, n1 := 32, s1 := 0x8, cal := 0xFFFFFFFF },
    -- tbIncrHi (R317)
    { base := 0x3000104, n1 := 32, s1 := 0x8, cal := 0xFFFF,
      reset := fun _ _ => 0xA00#32 },
    -- tbSnapFrac (R318)
    { base := 0x3000400, n1 := 32, s1 := 0x10 },
    -- tbSnapNs (R318)
    { base := 0x3000404, n1 := 32, s1 := 0x10 },
    -- tbSnapSecLo (R318)
    { base := 0x3000408, n1 := 32, s1 := 0x10 },
    -- tbSnapSecHi (R318)
    { base := 0x300040C, n1 := 32, s1 := 0x10 },
    -- tbLcompRx (R319)
    { base := 0x3001000, n1 := 128, s1 := 0x8 },
    -- tbLcompTx (R319)
    { base := 0x3001004, n1 := 128, s1 := 0x8 },
    -- iuEdges (R320)
    { base := 0x3002000, n1 := 160, s1 := 0x10, rc := 0xFFFFFFFF } ] ++
  [
    -- iuMerged (R320)
    { base := 0x3002004, n1 := 160, s1 := 0x10, rc := 0xFFFFFFFF },
    -- iuOrphans (R320)
    { base := 0x3002008, n1 := 160, s1 := 0x10, rc := 0xFFFFFFFF },
    -- iuStatus (R320)
    { base := 0x300200C, n1 := 160, s1 := 0x10 },
    -- iucalCfg (R377)
    { base := 0x3002F00, rw := 0xA000FF00, cb := 0xA000FF00,
      reset := fun _ _ => 0x80002000#32 },
    -- iucalPeriod (R377)
    { base := 0x3002F04, rw := 0xFFFF0000, cb := 0xFFFF0000,
      reset := fun _ _ => 0xE100000#32 },
    -- iucalState (R377)
    { base := 0x3003000, n1 := 160, s1 := 0x20,
      reset := fun _ _ => 0x8000000#32 },
    -- iucalCount (R377)
    { base := 0x3003004, n1 := 160, s1 := 0x20 },
    -- iucalTimeFrac (R377)
    { base := 0x3003008, n1 := 160, s1 := 0x20 },
    -- iucalTimeNs (R377)
    { base := 0x300300C, n1 := 160, s1 := 0x20 },
    -- iucalTimeSecLo (R377)
    { base := 0x3003010, n1 := 160, s1 := 0x20 },
    -- iucalTimeSecHi (R377)
    { base := 0x3003014, n1 := 160, s1 := 0x20 },
    -- iucalSeg01 (R377)
    { base := 0x3003018, n1 := 160, s1 := 0x20,
      reset := fun i _ => Config.fuseIuSeg i 0 &&& 0x0FFF0FFF#32 },
    -- iucalSeg23 (R377)
    { base := 0x300301C, n1 := 160, s1 := 0x20,
      reset := fun i _ => if i < 128 then Config.fuseIuSeg i 1 &&& 0x0FFF0FFF#32 else 0#32 } ]

/-- The registers of the Servo block. -/
def RegMap.rowsServo : List RegRow :=
  [
    -- servoStatus (R353)
    { base := 0x3400000, w1c := 0x80000000 },
    -- servoTc (R353)
    { base := 0x3400800, n1 := 128, s1 := 0x4, rw := 0xC01F0FFF, cb := 0xC01F0FFF },
    -- slotCfg (R354)
    { base := 0x3410000, n1 := 256, s1 := 0x40, rw := 0xB8FFFC1F, rws := 0x40000000, cb := 0xB8FFFC1F,
      reset := fun i _ => BitVec.ofNat 32 (0x4000 + i * 2 ^ 16) },
    -- slotIvl (R354)
    { base := 0x3410004, n1 := 256, s1 := 0x40, rw := 0xFFFFFFFF, cb := 0xFFFFFFFF },
    -- slotTimeout (R354)
    { base := 0x3410008, n1 := 256, s1 := 0x40, rw := 0xFFFFFF, cb := 0xFFFFFF,
      reset := fun _ _ => 0x61A8#32 },
    -- slotKp (R354)
    { base := 0x341000C, n1 := 256, s1 := 0x40, rw := 0x3FFFFFFF, cb := 0x3FFFFFFF },
    -- slotKi (R354)
    { base := 0x3410010, n1 := 256, s1 := 0x40, rw := 0x3FFFFFFF, cb := 0x3FFFFFFF },
    -- slotKi2 (R354)
    { base := 0x3410014, n1 := 256, s1 := 0x40, rw := 0x3FFFFFFF, cb := 0x3FFFFFFF },
    -- slotKph (R354)
    { base := 0x3410018, n1 := 256, s1 := 0x40, rw := 0xFFFF, cb := 0xFFFF },
    -- slotJump (R354)
    { base := 0x341001C, n1 := 256, s1 := 0x40, rw := 0xFFFFFFFF, cb := 0xFFFFFFFF,
      reset := fun _ _ => 0x300003E8#32 },
    -- slotStep (R354)
    { base := 0x3410020, n1 := 256, s1 := 0x40, rw := 0xFFFFFFF, cb := 0xFFFFFFF,
      reset := fun _ _ => 0x3E8#32 },
    -- slotLock (R354)
    { base := 0x3410024, n1 := 256, s1 := 0x40, rw := 0xF0FFFFFF, cb := 0xF0FFFFFF,
      reset := fun _ _ => 0x40002710#32 },
    -- slotPull (R354)
    { base := 0x3410028, n1 := 256, s1 := 0x40, rw := 0xFFFFF, cb := 0xFFFFF,
      reset := fun _ _ => 0x3E8#32 },
    -- slotOutlier (R354)
    { base := 0x341002C, n1 := 256, s1 := 0x40, rc := 0xFFFFFFFF },
    -- slotStatus (R354)
    { base := 0x3410030, n1 := 256, s1 := 0x40 },
    -- slotLate (R354)
    { base := 0x3410034, n1 := 256, s1 := 0x40, rc := 0xFFFFFFFF } ] ++
  [
    -- slotOfsLo (R354)
    { base := 0x3410038, n1 := 256, s1 := 0x40 },
    -- slotOfsHi (R354)
    { base := 0x341003C, n1 := 256, s1 := 0x40 } ]

/-- The registers of the Refclk block. -/
def RegMap.rowsRefclk : List RegRow :=
  [
    -- candCfg (R412)
    { base := 0x3800000, n1 := 16, s1 := 0x20, rw := 0xFCFF007F, cb := 0xFCFF007F,
      reset := fun _ _ => 0x800000#32 },
    -- candNom (R412)
    { base := 0x3800004, n1 := 16, s1 := 0x20, rw := 0x3FFFFFFF, cb := 0x3FFFFFFF,
      reset := fun _ _ => 0x989680#32 },
    -- candNomf (R412)
    { base := 0x3800008, n1 := 16, s1 := 0x20, rw := 0xFFFF, cb := 0xFFFF },
    -- candQual (R412)
    { base := 0x380000C, n1 := 16, s1 := 0x20, rw := 0xFFFFFFFF, cb := 0xFFFFFFFF,
      reset := fun _ _ => 0xA012C#32 },
    -- candWindow (R412)
    { base := 0x3800010, n1 := 16, s1 := 0x20, rw := 0xFFFFF, cb := 0xFFFFF,
      reset := fun _ _ => 0x23F0#32 },
    -- candOffset (R412)
    { base := 0x3800014, n1 := 16, s1 := 0x20, rw := 0xFFFFFFFF, cb := 0xFFFFFFFF },
    -- candStatus (R412)
    { base := 0x3800018, n1 := 16, s1 := 0x20, w1c := 0x2000000 },
    -- candFreq (R412)
    { base := 0x380001C, n1 := 16, s1 := 0x20 },
    -- dpllCfg (R413)
    { base := 0x3801000, n1 := 4, s1 := 0x100, rw := 0xFE000000, cab := 0xFE000000,
      reset := fun i _ => if i = 0 then 0x90000000#32 else 0x10000000#32 },
    -- dpllBw (R413)
    { base := 0x3801004, n1 := 4, s1 := 0x100, rw := 0x3FFFFFF, cab := 0x3FFFFFF,
      reset := fun _ _ => 0x2710#32 },
    -- dpllSlope (R413)
    { base := 0x3801010, n1 := 4, s1 := 0x100, rw := 0xFFFFF, cab := 0xFFFFF,
      reset := fun _ _ => 0x3E8#32 },
    -- dpllDispute (R413)
    { base := 0x3801014, n1 := 4, s1 := 0x100, rw := 0xFFFFFFFF, cab := 0xFFFFFFFF,
      reset := fun _ _ => 0xA00C8#32 },
    -- dpllHist (R413)
    { base := 0x3801018, n1 := 4, s1 := 0x100, rw := 0xFFFFFF00, cab := 0xFFFFFF00,
      reset := fun _ _ => 0x12C0A00#32 },
    -- dpllAge (R413)
    { base := 0x380101C, n1 := 4, s1 := 0x100, rw := 0xFFFFFFFF, cab := 0xFFFFFFFF },
    -- dpllHoY0 (R413)
    { base := 0x3801020, n1 := 4, s1 := 0x100, rw := 0xFFFFFFFF, cab := 0xFFFFFFFF },
    -- dpllHoA (R413)
    { base := 0x3801024, n1 := 4, s1 := 0x100, rw := 0xFFFFFFFF, cab := 0xFFFFFFFF } ] ++
  [
    -- dpllHoSpec (R413)
    { base := 0x3801028, n1 := 4, s1 := 0x100, rw := 0xFFFFFFFF, cab := 0xFFFFFFFF },
    -- dpllStatus (R413)
    { base := 0x3801030, n1 := 4, s1 := 0x100, cal := 0xFFFFFFFF },
    -- dpllHoTts (R413)
    { base := 0x380103C, n1 := 4, s1 := 0x100, cal := 0xFFFFFFFF,
      reset := fun _ _ => 0xFFFFFFFF#32 },
    -- dpllSwMiss (R413)
    { base := 0x3801048, n1 := 4, s1 := 0x100, rc := 0xFFFFFFFF, cal := 0xFFFFFFFF },
    -- dpllPrioLo (R413)
    { base := 0x3801008, n1 := 4, s1 := 0x100, rw := 0xFFFFFFFF, cab := 0xFFFFFFFF },
    -- dpllPrioHi (R413)
    { base := 0x380100C, n1 := 4, s1 := 0x100, rw := 0xFFFFFFFF, cab := 0xFFFFFFFF },
    -- dpllPhaseLo (R413)
    { base := 0x3801034, n1 := 4, s1 := 0x100, cal := 0xFFFFFFFF },
    -- dpllPhaseHi (R413)
    { base := 0x3801038, n1 := 4, s1 := 0x100, cal := 0xFFFFFFFF },
    -- dpllSwrateLo (R413)
    { base := 0x3801040, n1 := 4, s1 := 0x100, rw := 0xFFFFFFFF, cab := 0xFFFFFFFF },
    -- dpllSwrateHi (R413)
    { base := 0x3801044, n1 := 4, s1 := 0x100, rw := 0xFFFF, cab := 0xFFFF,
      reset := fun _ _ => 0xA00#32 },
    -- dpllHistIncrLo (R413)
    { base := 0x3801050, n1 := 4, s1 := 0x100, cal := 0xFFFFFFFF },
    -- dpllHistIncrHi (R413)
    { base := 0x3801054, n1 := 4, s1 := 0x100, cal := 0xFFFF,
      reset := fun _ _ => 0xA00#32 },
    -- synCfg (R414)
    { base := 0x3802000, n1 := 2, s1 := 0x40, rw := 0xBFC00000, rws := 0x40000000, cb := 0xBFC00000,
      reset := fun i _ => if i = 0 then 0x88800000#32 else 0x08800000#32 },
    -- synFb (R414)
    { base := 0x3802004, n1 := 2, s1 := 0x40, rw := 0xFFFFFFFF, cb := 0xFFFFFFFF,
      reset := fun _ _ => 0x60000000#32 },
    -- synStatus (R414)
    { base := 0x3802008, n1 := 2, s1 := 0x40, w1c := 0x20000000 },
    -- clkout (R414)
    { base := 0x3803000, n1 := 12, s1 := 0x4, rw := 0xFEFFFFFF, cb := 0xFEFFFFFF,
      reset := fun _ _ => 0xA000058#32 } ]

/-- The registers of the Measure block. -/
def RegMap.rowsMeasure : List RegRow :=
  [
    -- evinCfg (R436)
    { base := 0x3C00000, n1 := 16, s1 := 0x10, rw := 0xF0FF1F00, cb := 0xF0FF1F00,
      reset := fun _ _ => 0x800200#32 },
    -- evinHoldoffCfg (R436)
    { base := 0x3C00004, n1 := 16, s1 := 0x10, rw := 0x3FFF, cb := 0x3FFF },
    -- evinHoldoff (R436)
    { base := 0x3C00008, n1 := 16, s1 := 0x10, rc := 0xFFFFFFFF },
    -- imCfg (R437)
    { base := 0x3C01000, n1 := 32, s1 := 0x20, rw := 0xFF1F0000, cb := 0xFF1F0000,
      reset := fun _ _ => 0x41000000#32 },
    -- imStopsLo (R437)
    { base := 0x3C01004, n1 := 32, s1 := 0x20, rw := 0x1F1F1F1F, cb := 0x1F1F1F1F },
    -- imStopsHi (R437)
    { base := 0x3C01008, n1 := 32, s1 := 0x20, rw := 0x1F1F1F1F, cb := 0x1F1F1F1F },
    -- imWindow (R437)
    { base := 0x3C0100C, n1 := 32, s1 := 0x20, rw := 0xFFFFFFFF, cb := 0xFFFFFFFF,
      reset := fun _ _ => 0x3B9ACA00#32 },
    -- fmCfg (R438)
    { base := 0x3C02000, n1 := 16, s1 := 0x20, rw := 0xFFF80000, cb := 0xFFF80000 },
    -- fmGate (R438)
    { base := 0x3C02004, n1 := 16, s1 := 0x20, rw := 0x7FF, cb := 0x7FF,
      reset := fun _ _ => 0x3E8#32 },
    -- fmStatus (R438)
    { base := 0x3C02008, n1 := 16, s1 := 0x20 },
    -- fmSkipped (R438)
    { base := 0x3C0200C, n1 := 16, s1 := 0x20, rc := 0xFFFFFFFF },
    -- fmAbandoned (R438)
    { base := 0x3C02010, n1 := 16, s1 := 0x20, rc := 0xFFFFFFFF },
    -- evoutCfg (R439)
    { base := 0x3C03000, n1 := 16, s1 := 0x40, rw := 0xFC000000, rws := 0x2000000, cab := 0xFC000000,
      reset := fun i _ => if i = 0 then 0x80000000#32 else 0#32 },
    -- evoutStartFrac (R439)
    { base := 0x3C03004, n1 := 16, s1 := 0x40, rw := 0xFFFF, cab := 0xFFFF },
    -- evoutStartNs (R439)
    { base := 0x3C03008, n1 := 16, s1 := 0x40, rw := 0x3FFFFFFF, cab := 0x3FFFFFFF },
    -- evoutStartSecLo (R439)
    { base := 0x3C0300C, n1 := 16, s1 := 0x40, rw := 0xFFFFFFFF, cab := 0xFFFFFFFF,
      reset := fun i _ => if i = 0 then 1#32 else 0#32 } ] ++
  [
    -- evoutStartSecHi (R439)
    { base := 0x3C03010, n1 := 16, s1 := 0x40, rw := 0xFFFF, cab := 0xFFFF },
    -- evoutPeriodNs (R439)
    { base := 0x3C03014, n1 := 16, s1 := 0x40, rw := 0xFFFFFFFF, cab := 0xFFFFFFFF,
      reset := fun i _ => if i = 0 then 0x3B9ACA00#32 else 0#32 },
    -- evoutPeriodFrac (R439)
    { base := 0x3C03018, n1 := 16, s1 := 0x40, rw := 0xFFFF, cab := 0xFFFF },
    -- evoutWidth (R439)
    { base := 0x3C0301C, n1 := 16, s1 := 0x40, rw := 0xFFFFFFFF, cab := 0xFFFFFFFF,
      reset := fun i _ => if i = 0 then 0x05F5E100#32 else 0#32 },
    -- evoutCount (R439)
    { base := 0x3C03020, n1 := 16, s1 := 0x40, rw := 0xFFFFFFFF, cab := 0xFFFFFFFF },
    -- evoutStatus (R439)
    { base := 0x3C03024, n1 := 16, s1 := 0x40, w1c := 0x40000000, cal := 0xC0000000,
      reset := fun i _ => if i = 0 then 0x80000000#32 else 0#32 },
    -- evoutSkipped (R439)
    { base := 0x3C03028, n1 := 16, s1 := 0x40, rc := 0xFFFFFFFF, cal := 0xFFFFFFFF },
    -- measLost (R440)
    { base := 0x3C04000, n1 := 32, s1 := 0x4, rc := 0xFFFFFFFF } ]

/-- The registers of the Redund block. -/
def RegMap.rowsRedund : List RegRow :=
  [
    -- redundCfg (R456)
    { base := 0x3E00000, rw := 0xFC0000FF, cb := 0xFC0000FF,
      reset := fun _ _ => 0x38000002#32 },
    -- redundStatus (R456)
    { base := 0x3E00004,
      reset := fun _ _ => 0x340000#32 },
    -- redundHb (R457)
    { base := 0x3E00008 },
    -- redundShared (R457)
    { base := 0x3E0000C, rw := 0x7FFFFFF, cb := 0x7FFFFFF },
    -- redundCnt (R458)
    { base := 0x3E00010, n1 := 5, s1 := 0x4, rc := 0xFFFFFFFF } ]

/-- Byte address where no register is: behind BAR0. (DEDUCED, log entry 9) -/
def RegMap.nowhere : Nat := 0x4000000

/-- Byte address of instance `i` of the `n` that stand `s` bytes apart from `b` on; a number that no instance has names no register. (DEDUCED, log entry 9) -/
def RegMap.at1 (b n s i : Nat) : Nat := if i < n then b + s * i else RegMap.nowhere

/-- Byte address of instance (i, j) of `n` by `m`, `s` and `r` bytes apart. (DEDUCED, log entry 9) -/
def RegMap.at2 (b n s m r i j : Nat) : Nat := if i < n ∧ j < m then b + s * i + r * j else RegMap.nowhere

/-- The rows of the block that byte address `a` lies in (spec/18 R545). -/
def RegMap.rowsAt (a : Nat) : List RegRow :=
  let m := a / 0x100000
  if m < 1 then RegMap.rowsGlobal
  else if m < 2 then RegMap.rowsHostif
  else if m < 4 then RegMap.rowsCores
  else if m < 8 then RegMap.rowsSec
  else if m < 12 then RegMap.rowsLane
  else if m < 16 then RegMap.rowsPort
  else if m < 32 then RegMap.rowsPipe
  else if m < 40 then RegMap.rowsFabric
  else if m < 48 then RegMap.rowsDeep
  else if m < 52 then RegMap.rowsTb
  else if m < 56 then RegMap.rowsServo
  else if m < 60 then RegMap.rowsRefclk
  else if m < 62 then RegMap.rowsMeasure
  else if m < 64 then RegMap.rowsRedund
  else []

/-- First row of `l` that holds byte address `a`. -/
def RegMap.search (a : Nat) : List RegRow → Option RegHit
  | [] => none
  | r :: l => match r.hit a with
    | some h => some h
    | none => RegMap.search a l

/-- The register at byte address `a`, if one is there. -/
def RegMap.find (a : Nat) : Option RegHit := RegMap.search a (RegMap.rowsAt a)

/-- Word read at byte address `a` after reset; 0 where no register is (spec/15 R460). (DESIGN CHOICE, log entry 5) -/
def RegMap.reset (a : Nat) : Word :=
  match RegMap.find a with
  | some h => h.row.reset h.i h.j
  | none => 0#32

/-- Bits of the register that are of class B (spec/00 R18). -/
def RegHit.maskB (h : RegHit) : Nat := h.row.cb ||| (if h.i = 0 then 0 else h.row.cab)

/-- Bits of the register that are of class A (spec/00 R18). -/
def RegHit.maskA (h : RegHit) : Nat := h.row.ca ||| (if h.i = 0 then h.row.cab ||| h.row.cal else 0)

/-- Bits of the register that outlive a main reset: classes A, V and F (spec/03 R113). -/
def RegHit.maskKept (h : RegHit) : Nat := h.maskA ||| h.row.cv ||| h.row.cf

/-- A field of a register: byte address, lowest bit, number of bits. -/
structure Fld where
  addr : Nat
  lo : Nat
  len : Nat
  deriving DecidableEq, Repr

/-- Address of the register (spec/00 R2). -/
def Reg.globalId : Nat := 0x0
def F.globalId_DEVICE : Fld := ⟨Reg.globalId, 16, 16⟩
def F.globalId_REV : Fld := ⟨Reg.globalId, 8, 8⟩
def F.globalId_GRADE : Fld := ⟨Reg.globalId, 4, 4⟩

/-- Address of the register (spec/01 R36). -/
def Reg.globalBeat : Nat := 0x100
def F.globalBeat_SEC_LO : Fld := ⟨Reg.globalBeat, 17, 15⟩
def F.globalBeat_BEAT : Fld := ⟨Reg.globalBeat, 0, 17⟩

/-- Address of the register (spec/01 R37). -/
def Reg.globalBeatLen : Nat := 0x104
def F.globalBeatLen_LAST_TICKS : Fld := ⟨Reg.globalBeatLen, 0, 16⟩

/-- Address of the register (spec/01 R38). -/
def Reg.globalLateFlags : Nat := 0x108
def F.globalLateFlags_STEP_SKIP : Fld := ⟨Reg.globalLateFlags, 8, 1⟩
def F.globalLateFlags_CORE_TASK : Fld := ⟨Reg.globalLateFlags, 7, 1⟩
def F.globalLateFlags_MEAS : Fld := ⟨Reg.globalLateFlags, 6, 1⟩
def F.globalLateFlags_CALIB : Fld := ⟨Reg.globalLateFlags, 5, 1⟩
def F.globalLateFlags_PULSE : Fld := ⟨Reg.globalLateFlags, 4, 1⟩
def F.globalLateFlags_DOORBELL : Fld := ⟨Reg.globalLateFlags, 3, 1⟩
def F.globalLateFlags_SNAPSHOT : Fld := ⟨Reg.globalLateFlags, 2, 1⟩
def F.globalLateFlags_COMMIT : Fld := ⟨Reg.globalLateFlags, 1, 1⟩
def F.globalLateFlags_SERVO : Fld := ⟨Reg.globalLateFlags, 0, 1⟩

/-- Address of the register (spec/01 R39). -/
def Reg.globalLateCnt (i : Nat) : Nat := RegMap.at1 0x110 9 0x4 i
def F.globalLateCnt_COUNT (i : Nat) : Fld := ⟨Reg.globalLateCnt i, 0, 32⟩

/-- Address of the register (spec/01 R40). -/
def Reg.globalLateEvmask : Nat := 0x140
def F.globalLateEvmask_ENABLE : Fld := ⟨Reg.globalLateEvmask, 0, 9⟩

/-- Address of the register (spec/02 R63). -/
def Reg.globalSeq : Nat := 0x200
def F.globalSeq_ATTEMPTS : Fld := ⟨Reg.globalSeq, 12, 2⟩
def F.globalSeq_EARLY_STEP : Fld := ⟨Reg.globalSeq, 9, 3⟩
def F.globalSeq_STUCK_STEP : Fld := ⟨Reg.globalSeq, 6, 3⟩
def F.globalSeq_OSC_LOST : Fld := ⟨Reg.globalSeq, 3, 1⟩
def F.globalSeq_GIVEN_UP : Fld := ⟨Reg.globalSeq, 2, 1⟩
def F.globalSeq_TIMEOUT : Fld := ⟨Reg.globalSeq, 1, 1⟩
def F.globalSeq_ORDER : Fld := ⟨Reg.globalSeq, 0, 1⟩

/-- Address of the register (spec/03 R95). -/
def Reg.globalResetCause : Nat := 0x300
def F.globalResetCause_RAIL : Fld := ⟨Reg.globalResetCause, 28, 4⟩
def F.globalResetCause_AON_POR : Fld := ⟨Reg.globalResetCause, 11, 1⟩
def F.globalResetCause_STANDBY_EXIT : Fld := ⟨Reg.globalResetCause, 10, 1⟩
def F.globalResetCause_THERMTRIP : Fld := ⟨Reg.globalResetCause, 9, 1⟩
def F.globalResetCause_SOFT : Fld := ⟨Reg.globalResetCause, 8, 1⟩
def F.globalResetCause_WDT : Fld := ⟨Reg.globalResetCause, 7, 1⟩
def F.globalResetCause_RESET_PIN : Fld := ⟨Reg.globalResetCause, 6, 1⟩
def F.globalResetCause_SUPPLY : Fld := ⟨Reg.globalResetCause, 5, 1⟩
def F.globalResetCause_MAIN_POR : Fld := ⟨Reg.globalResetCause, 4, 1⟩
def F.globalResetCause_LAST : Fld := ⟨Reg.globalResetCause, 0, 4⟩

/-- Address of the register (spec/03 R94). -/
def Reg.globalResetCtrl : Nat := 0x304
def F.globalResetCtrl_KEY : Fld := ⟨Reg.globalResetCtrl, 16, 16⟩
def F.globalResetCtrl_CHIP : Fld := ⟨Reg.globalResetCtrl, 0, 1⟩

/-- Address of the register (spec/03 R99). -/
def Reg.globalWdtCtrl : Nat := 0x308
def F.globalWdtCtrl_CFG_ERR : Fld := ⟨Reg.globalWdtCtrl, 31, 1⟩
def F.globalWdtCtrl_EN : Fld := ⟨Reg.globalWdtCtrl, 18, 1⟩
def F.globalWdtCtrl_SRC_CORE4 : Fld := ⟨Reg.globalWdtCtrl, 17, 1⟩
def F.globalWdtCtrl_SRC_HOST : Fld := ⟨Reg.globalWdtCtrl, 16, 1⟩
def F.globalWdtCtrl_TIMEOUT_MS : Fld := ⟨Reg.globalWdtCtrl, 0, 16⟩

/-- Address of the register (spec/03 R99). -/
def Reg.globalWdtKick : Nat := 0x30C
def F.globalWdtKick_KEY : Fld := ⟨Reg.globalWdtKick, 0, 16⟩

/-- Address of the register (spec/03 R112). -/
def Reg.globalProfile : Nat := 0x310
def F.globalProfile_OVR_EN : Fld := ⟨Reg.globalProfile, 7, 1⟩
def F.globalProfile_OVR_IDX : Fld := ⟨Reg.globalProfile, 5, 2⟩
def F.globalProfile_ACTIVE : Fld := ⟨Reg.globalProfile, 2, 2⟩
def F.globalProfile_PINS : Fld := ⟨Reg.globalProfile, 0, 2⟩

/-- Address of the register (spec/03 R112). -/
def Reg.globalBoot : Nat := 0x314
def F.globalBoot_STAGE : Fld := ⟨Reg.globalBoot, 20, 4⟩
def F.globalBoot_DONE : Fld := ⟨Reg.globalBoot, 19, 1⟩
def F.globalBoot_A_APPLIED : Fld := ⟨Reg.globalBoot, 18, 1⟩
def F.globalBoot_PROFILE_BAD : Fld := ⟨Reg.globalBoot, 17, 1⟩
def F.globalBoot_SLOT_FALLBACK : Fld := ⟨Reg.globalBoot, 16, 1⟩
def F.globalBoot_SLOT : Fld := ⟨Reg.globalBoot, 15, 1⟩
def F.globalBoot_BOOT_MS : Fld := ⟨Reg.globalBoot, 0, 15⟩

/-- Address of the register (spec/03 R104). -/
def Reg.globalPwrState : Nat := 0x320
def F.globalPwrState_BUSY : Fld := ⟨Reg.globalPwrState, 2, 1⟩
def F.globalPwrState_STATE : Fld := ⟨Reg.globalPwrState, 0, 2⟩

/-- Address of the register (spec/03 R110). -/
def Reg.globalDipCtrl : Nat := 0x340
def F.globalDipCtrl_MAX_MS : Fld := ⟨Reg.globalDipCtrl, 0, 14⟩

/-- Address of the register (spec/03 R110). -/
def Reg.globalDipStatus : Nat := 0x344
def F.globalDipStatus_COUNT : Fld := ⟨Reg.globalDipStatus, 16, 16⟩
def F.globalDipStatus_ACTIVE : Fld := ⟨Reg.globalDipStatus, 9, 1⟩
def F.globalDipStatus_RAILS : Fld := ⟨Reg.globalDipStatus, 0, 9⟩

/-- Address of the register (spec/15 R485). -/
def Reg.hostifCfg : Nat := 0x100000
def F.hostifCfg_DB_EN : Fld := ⟨Reg.hostifCfg, 31, 1⟩
def F.hostifCfg_STAT_EN : Fld := ⟨Reg.hostifCfg, 30, 1⟩
def F.hostifCfg_RO_EN : Fld := ⟨Reg.hostifCfg, 29, 1⟩

/-- Address of the register (spec/15 R485). -/
def Reg.hostifDbAddrLo : Nat := 0x100008
def F.hostifDbAddrLo_ADDR_LO : Fld := ⟨Reg.hostifDbAddrLo, 0, 32⟩

/-- Address of the register (spec/15 R485). -/
def Reg.hostifDbAddrHi : Nat := 0x10000C
def F.hostifDbAddrHi_ADDR_HI : Fld := ⟨Reg.hostifDbAddrHi, 0, 32⟩

/-- Address of the register (spec/15 R485). -/
def Reg.hostifStatAddrLo : Nat := 0x100010
def F.hostifStatAddrLo_ADDR_LO : Fld := ⟨Reg.hostifStatAddrLo, 0, 32⟩

/-- Address of the register (spec/15 R485). -/
def Reg.hostifStatAddrHi : Nat := 0x100014
def F.hostifStatAddrHi_ADDR_HI : Fld := ⟨Reg.hostifStatAddrHi, 0, 32⟩

/-- Address of the register (spec/15 R486). -/
def Reg.hostifCmd : Nat := 0x100020
def F.hostifCmd_TIMEOUT_MS : Fld := ⟨Reg.hostifCmd, 0, 16⟩

/-- Address of the register (spec/15 R486). -/
def Reg.hostifDma : Nat := 0x100024
def F.hostifDma_RETRIES : Fld := ⟨Reg.hostifDma, 0, 2⟩

/-- Address of the register (spec/15 R486). -/
def Reg.hostifStatus : Nat := 0x100030
def F.hostifStatus_RECOVERING : Fld := ⟨Reg.hostifStatus, 31, 1⟩
def F.hostifStatus_LINK_UP : Fld := ⟨Reg.hostifStatus, 30, 1⟩
def F.hostifStatus_CFG_ERR : Fld := ⟨Reg.hostifStatus, 29, 1⟩
def F.hostifStatus_WIDTH : Fld := ⟨Reg.hostifStatus, 20, 4⟩
def F.hostifStatus_SPEED : Fld := ⟨Reg.hostifStatus, 16, 4⟩
def F.hostifStatus_CTO_MS : Fld := ⟨Reg.hostifStatus, 0, 16⟩

/-- Address of the register (spec/15 R487). -/
def Reg.hostifEmerg : Nat := 0x100040
def F.hostifEmerg_DMA_OFF : Fld := ⟨Reg.hostifEmerg, 31, 1⟩
def F.hostifEmerg_TX_STOP : Fld := ⟨Reg.hostifEmerg, 30, 1⟩
def F.hostifEmerg_FETCH_NOW : Fld := ⟨Reg.hostifEmerg, 29, 1⟩

/-- Address of the register (spec/15 R488). -/
def Reg.hostifCnt (i : Nat) : Nat := RegMap.at1 0x100080 8 0x4 i
def F.hostifCnt_COUNT (i : Nat) : Fld := ⟨Reg.hostifCnt i, 0, 32⟩

/-- Address of the register (spec/15 R489). -/
def Reg.ringBaseLo (i : Nat) : Nat := RegMap.at1 0x101000 69 0x20 i
def F.ringBaseLo_ADDR_LO (i : Nat) : Fld := ⟨Reg.ringBaseLo i, 0, 32⟩

/-- Address of the register (spec/15 R489). -/
def Reg.ringBaseHi (i : Nat) : Nat := RegMap.at1 0x101004 69 0x20 i
def F.ringBaseHi_ADDR_HI (i : Nat) : Fld := ⟨Reg.ringBaseHi i, 0, 32⟩

/-- Address of the register (spec/15 R489). -/
def Reg.ringCfg (i : Nat) : Nat := RegMap.at1 0x101008 69 0x20 i
def F.ringCfg_EN (i : Nat) : Fld := ⟨Reg.ringCfg i, 31, 1⟩
def F.ringCfg_SIZE_LOG2 (i : Nat) : Fld := ⟨Reg.ringCfg i, 24, 4⟩
def F.ringCfg_VECTOR (i : Nat) : Fld := ⟨Reg.ringCfg i, 16, 8⟩
def F.ringCfg_BUF_SIZE (i : Nat) : Fld := ⟨Reg.ringCfg i, 10, 6⟩
def F.ringCfg_MOD_US (i : Nat) : Fld := ⟨Reg.ringCfg i, 0, 10⟩

/-- Address of the register (spec/15 R489). -/
def Reg.ringStatus (i : Nat) : Nat := RegMap.at1 0x10100C 69 0x20 i
def F.ringStatus_ERR (i : Nat) : Fld := ⟨Reg.ringStatus i, 31, 1⟩
def F.ringStatus_FULL (i : Nat) : Fld := ⟨Reg.ringStatus i, 30, 1⟩
def F.ringStatus_ERR_CODE (i : Nat) : Fld := ⟨Reg.ringStatus i, 0, 8⟩

/-- Address of the register (spec/15 R489). -/
def Reg.ringDevIdx (i : Nat) : Nat := RegMap.at1 0x101010 69 0x20 i
def F.ringDevIdx_INDEX (i : Nat) : Fld := ⟨Reg.ringDevIdx i, 0, 32⟩

/-- Address of the register (spec/15 R489). -/
def Reg.ringHostIdx (i : Nat) : Nat := RegMap.at1 0x101014 69 0x20 i
def F.ringHostIdx_INDEX (i : Nat) : Fld := ⟨Reg.ringHostIdx i, 0, 32⟩

/-- Address of the register (spec/15 R489). -/
def Reg.ringLoss (i : Nat) : Nat := RegMap.at1 0x101018 69 0x20 i
def F.ringLoss_COUNT (i : Nat) : Fld := ⟨Reg.ringLoss i, 0, 32⟩

/-- Address of the register (spec/16 R515). -/
def Reg.coreStatus (i : Nat) : Nat := RegMap.at1 0x200000 8 0x100 i
def F.coreStatus_STATE (i : Nat) : Fld := ⟨Reg.coreStatus i, 28, 4⟩
def F.coreStatus_CAUSE (i : Nat) : Fld := ⟨Reg.coreStatus i, 20, 8⟩

/-- Address of the register (spec/16 R515). -/
def Reg.coreWdt (i : Nat) : Nat := RegMap.at1 0x200004 8 0x100 i
def F.coreWdt_EN (i : Nat) : Fld := ⟨Reg.coreWdt i, 31, 1⟩
def F.coreWdt_TIMEOUT_MS (i : Nat) : Fld := ⟨Reg.coreWdt i, 0, 16⟩

/-- Address of the register (spec/16 R515). -/
def Reg.coreMb (i : Nat) : Nat := RegMap.at1 0x200608 2 0x100 i
def F.coreMb_EVT_MASK (i : Nat) : Fld := ⟨Reg.coreMb i, 16, 16⟩
def F.coreMb_ALLOW (i : Nat) : Fld := ⟨Reg.coreMb i, 0, 16⟩

/-- Address of the register (spec/16 R515). -/
def Reg.coreTrapPc (i : Nat) : Nat := RegMap.at1 0x20000C 8 0x100 i
def F.coreTrapPc_PC (i : Nat) : Fld := ⟨Reg.coreTrapPc i, 0, 32⟩

/-- Address of the register (spec/16 R515). -/
def Reg.coreSkipped (i : Nat) : Nat := RegMap.at1 0x200010 8 0x100 i
def F.coreSkipped_COUNT (i : Nat) : Fld := ⟨Reg.coreSkipped i, 0, 32⟩

/-- Address of the register (spec/16 R516). -/
def Reg.bankCtrl (i : Nat) : Nat := RegMap.at1 0x210000 32 0x10 i
def F.bankCtrl_OWNER (i : Nat) : Fld := ⟨Reg.bankCtrl i, 28, 4⟩
def F.bankCtrl_NEXT (i : Nat) : Fld := ⟨Reg.bankCtrl i, 24, 4⟩
def F.bankCtrl_PENDING (i : Nat) : Fld := ⟨Reg.bankCtrl i, 23, 1⟩
def F.bankCtrl_LOCK (i : Nat) : Fld := ⟨Reg.bankCtrl i, 22, 1⟩
def F.bankCtrl_POWER (i : Nat) : Fld := ⟨Reg.bankCtrl i, 20, 2⟩
def F.bankCtrl_POWER_STATE (i : Nat) : Fld := ⟨Reg.bankCtrl i, 18, 2⟩

/-- Address of the register (spec/16 R516). -/
def Reg.bankEcc (i : Nat) : Nat := RegMap.at1 0x210004 32 0x10 i
def F.bankEcc_UNCORR (i : Nat) : Fld := ⟨Reg.bankEcc i, 16, 16⟩
def F.bankEcc_CORR (i : Nat) : Fld := ⟨Reg.bankEcc i, 0, 16⟩

/-- Address of the register (spec/16 R516). -/
def Reg.bankFuse (i : Nat) : Nat := RegMap.at1 0x210008 32 0x10 i
def F.bankFuse_MAP (i : Nat) : Fld := ⟨Reg.bankFuse i, 0, 32⟩

/-- Address of the register (spec/16 R516). -/
def Reg.quad (i : Nat) : Nat := RegMap.at1 0x210400 8 0x4 i
def F.quad_ILV (i : Nat) : Fld := ⟨Reg.quad i, 31, 1⟩
def F.quad_ILV_ACTIVE (i : Nat) : Fld := ⟨Reg.quad i, 30, 1⟩
def F.quad_NEXT (i : Nat) : Fld := ⟨Reg.quad i, 24, 4⟩

/-- Address of the register (spec/16 R516). -/
def Reg.membankStatus : Nat := 0x210440
def F.membankStatus_CFG_ERR : Fld := ⟨Reg.membankStatus, 31, 1⟩

/-- Address of the register (spec/16 R517). -/
def Reg.perfCntLo (i : Nat) (j : Nat) : Nat := RegMap.at2 0x220000 8 0x1000 40 0x8 i j
def F.perfCntLo_LO (i : Nat) (j : Nat) : Fld := ⟨Reg.perfCntLo i j, 0, 32⟩

/-- Address of the register (spec/16 R517). -/
def Reg.perfCntHi (i : Nat) (j : Nat) : Nat := RegMap.at2 0x220004 8 0x1000 40 0x8 i j
def F.perfCntHi_HI (i : Nat) (j : Nat) : Fld := ⟨Reg.perfCntHi i j, 0, 16⟩

/-- Address of the register (spec/16 R517). -/
def Reg.perfWrapLo (i : Nat) : Nat := RegMap.at1 0x220200 8 0x1000 i
def F.perfWrapLo_WRAP_LO (i : Nat) : Fld := ⟨Reg.perfWrapLo i, 0, 32⟩

/-- Address of the register (spec/16 R517). -/
def Reg.perfWrapHi (i : Nat) : Nat := RegMap.at1 0x220204 8 0x1000 i
def F.perfWrapHi_WRAP_HI (i : Nat) : Fld := ⟨Reg.perfWrapHi i, 0, 8⟩

/-- Address of the register (spec/16 R517). -/
def Reg.perfTagCfg (i : Nat) : Nat := RegMap.at1 0x220210 8 0x1000 i
def F.perfTagCfg_K (i : Nat) : Fld := ⟨Reg.perfTagCfg i, 0, 5⟩

/-- Address of the register (spec/16 R517). -/
def Reg.perfTagStatus (i : Nat) : Nat := RegMap.at1 0x220214 8 0x1000 i
def F.perfTagStatus_POP (i : Nat) : Fld := ⟨Reg.perfTagStatus i, 31, 1⟩
def F.perfTagStatus_OLDEST (i : Nat) : Fld := ⟨Reg.perfTagStatus i, 8, 6⟩
def F.perfTagStatus_COUNT (i : Nat) : Fld := ⟨Reg.perfTagStatus i, 0, 7⟩

/-- Address of the register (spec/16 R517). -/
def Reg.perfTagRec (i : Nat) (j : Nat) : Nat := RegMap.at2 0x220400 8 0x1000 512 0x4 i j
def F.perfTagRec_WORD (i : Nat) (j : Nat) : Fld := ⟨Reg.perfTagRec i j, 0, 32⟩

/-- Address of the register (spec/17 R542). -/
def Reg.secStatus : Nat := 0x400000
def F.secStatus_VAULT_LOST : Fld := ⟨Reg.secStatus, 31, 1⟩
def F.secStatus_ERASED : Fld := ⟨Reg.secStatus, 30, 1⟩
def F.secStatus_VBAT_LOW : Fld := ⟨Reg.secStatus, 29, 1⟩
def F.secStatus_ON_VBAT : Fld := ⟨Reg.secStatus, 28, 1⟩
def F.secStatus_CFG_ERR : Fld := ⟨Reg.secStatus, 27, 1⟩
def F.secStatus_LATCHED : Fld := ⟨Reg.secStatus, 0, 8⟩

/-- Address of the register (spec/17 R542). -/
def Reg.secTamperCfg (i : Nat) : Nat := RegMap.at1 0x400100 8 0x4 i
def F.secTamperCfg_EXPECT (i : Nat) : Fld := ⟨Reg.secTamperCfg i, 2, 1⟩
def F.secTamperCfg_RESP (i : Nat) : Fld := ⟨Reg.secTamperCfg i, 0, 2⟩

/-- Address of the register (spec/17 R542). -/
def Reg.secTamperLock : Nat := 0x400120
def F.secTamperLock_LOCK : Fld := ⟨Reg.secTamperLock, 0, 1⟩

/-- Address of the register (spec/17 R543). -/
def Reg.secVsec : Nat := 0x400124
def F.secVsec_VSEC : Fld := ⟨Reg.secVsec, 0, 32⟩

/-- Address of the register (spec/17 R543). -/
def Reg.secLog (i : Nat) : Nat := RegMap.at1 0x400200 128 0x4 i
def F.secLog_WORD (i : Nat) : Fld := ⟨Reg.secLog i, 0, 32⟩

/-- Address of the register (spec/17 R544). -/
def Reg.updSvn (i : Nat) : Nat := RegMap.at1 0x401000 16 0x4 i
def F.updSvn_COUNT (i : Nat) : Fld := ⟨Reg.updSvn i, 0, 7⟩

/-- Address of the register (spec/17 R544). -/
def Reg.updKeys : Nat := 0x401040
def F.updKeys_CUST_REVOKED : Fld := ⟨Reg.updKeys, 6, 2⟩
def F.updKeys_CUST_PROG : Fld := ⟨Reg.updKeys, 4, 2⟩
def F.updKeys_REVOKED : Fld := ⟨Reg.updKeys, 0, 4⟩

/-- Address of the register (spec/17 R544). -/
def Reg.updStatus : Nat := 0x401044
def F.updStatus_SLOT : Fld := ⟨Reg.updStatus, 31, 1⟩
def F.updStatus_STAGE_VALID : Fld := ⟨Reg.updStatus, 30, 1⟩
def F.updStatus_MIG_PENDING : Fld := ⟨Reg.updStatus, 29, 1⟩
def F.updStatus_INSTALLED : Fld := ⟨Reg.updStatus, 0, 16⟩

/-- Address of the register (spec/17 R544). -/
def Reg.updCompRun (i : Nat) : Nat := RegMap.at1 0x401100 16 0x8 i
def F.updCompRun_RUN_VER (i : Nat) : Fld := ⟨Reg.updCompRun i, 0, 32⟩

/-- Address of the register (spec/17 R544). -/
def Reg.updCompStaged (i : Nat) : Nat := RegMap.at1 0x401104 16 0x8 i
def F.updCompStaged_STAGED_VER (i : Nat) : Fld := ⟨Reg.updCompStaged i, 0, 32⟩

/-- Address of the register (spec/04 R146). -/
def Reg.laneCfg (i : Nat) : Nat := RegMap.at1 0x800000 128 0x2000 i
def F.laneCfg_EN (i : Nat) : Fld := ⟨Reg.laneCfg i, 31, 1⟩
def F.laneCfg_MODE (i : Nat) : Fld := ⟨Reg.laneCfg i, 30, 1⟩
def F.laneCfg_WIDTH (i : Nat) : Fld := ⟨Reg.laneCfg i, 28, 2⟩
def F.laneCfg_FEC (i : Nat) : Fld := ⟨Reg.laneCfg i, 26, 2⟩
def F.laneCfg_AN_EN (i : Nat) : Fld := ⟨Reg.laneCfg i, 25, 1⟩
def F.laneCfg_C2M (i : Nat) : Fld := ⟨Reg.laneCfg i, 24, 1⟩
def F.laneCfg_PRESET (i : Nat) : Fld := ⟨Reg.laneCfg i, 20, 4⟩
def F.laneCfg_TX_INV (i : Nat) : Fld := ⟨Reg.laneCfg i, 19, 1⟩
def F.laneCfg_RX_INV (i : Nat) : Fld := ⟨Reg.laneCfg i, 18, 1⟩

/-- Address of the register (spec/04 R147). -/
def Reg.laneTrain (i : Nat) : Nat := RegMap.at1 0x800010 128 0x2000 i
def F.laneTrain_TIMEOUT_MS (i : Nat) : Fld := ⟨Reg.laneTrain i, 16, 16⟩
def F.laneTrain_ATTEMPTS (i : Nat) : Fld := ⟨Reg.laneTrain i, 12, 4⟩
def F.laneTrain_BACKOFF_MIN (i : Nat) : Fld := ⟨Reg.laneTrain i, 8, 4⟩
def F.laneTrain_BACKOFF_MAX (i : Nat) : Fld := ⟨Reg.laneTrain i, 0, 8⟩

/-- Address of the register (spec/04 R147). -/
def Reg.laneRelock (i : Nat) : Nat := RegMap.at1 0x800014 128 0x2000 i
def F.laneRelock_TRIES (i : Nat) : Fld := ⟨Reg.laneRelock i, 8, 4⟩
def F.laneRelock_INTERVAL_MS (i : Nat) : Fld := ⟨Reg.laneRelock i, 0, 8⟩

/-- Address of the register (spec/04 R148). -/
def Reg.laneStatus (i : Nat) : Nat := RegMap.at1 0x800020 128 0x2000 i
def F.laneStatus_STATE (i : Nat) : Fld := ⟨Reg.laneStatus i, 28, 4⟩
def F.laneStatus_LAST_CAUSE (i : Nat) : Fld := ⟨Reg.laneStatus i, 24, 4⟩
def F.laneStatus_ATTEMPT (i : Nat) : Fld := ⟨Reg.laneStatus i, 20, 4⟩
def F.laneStatus_RECOVERING (i : Nat) : Fld := ⟨Reg.laneStatus i, 19, 1⟩
def F.laneStatus_SIGNAL (i : Nat) : Fld := ⟨Reg.laneStatus i, 18, 1⟩
def F.laneStatus_CDR_LOCK (i : Nat) : Fld := ⟨Reg.laneStatus i, 17, 1⟩
def F.laneStatus_ALIGNED (i : Nat) : Fld := ⟨Reg.laneStatus i, 16, 1⟩
def F.laneStatus_CFG_ERR (i : Nat) : Fld := ⟨Reg.laneStatus i, 15, 1⟩
def F.laneStatus_QUAR (i : Nat) : Fld := ⟨Reg.laneStatus i, 14, 1⟩
def F.laneStatus_BACKOFF_S (i : Nat) : Fld := ⟨Reg.laneStatus i, 0, 8⟩

/-- Address of the register (spec/04 R149). -/
def Reg.laneFom (i : Nat) : Nat := RegMap.at1 0x800024 128 0x2000 i
def F.laneFom_ADAPT_PERIOD (i : Nat) : Fld := ⟨Reg.laneFom i, 24, 8⟩
def F.laneFom_MIN (i : Nat) : Fld := ⟨Reg.laneFom i, 16, 8⟩
def F.laneFom_WARN (i : Nat) : Fld := ⟨Reg.laneFom i, 8, 8⟩
def F.laneFom_CODE (i : Nat) : Fld := ⟨Reg.laneFom i, 0, 8⟩

/-- Address of the register (spec/04 R150). -/
def Reg.laneErrCnt (i : Nat) (j : Nat) : Nat := RegMap.at2 0x800040 128 0x2000 9 0x4 i j
def F.laneErrCnt_COUNT (i : Nat) (j : Nat) : Fld := ⟨Reg.laneErrCnt i j, 0, 32⟩

/-- Address of the register (spec/04 R151). -/
def Reg.laneLoop (i : Nat) : Nat := RegMap.at1 0x800080 128 0x2000 i
def F.laneLoop_CHK_EN (i : Nat) : Fld := ⟨Reg.laneLoop i, 9, 1⟩
def F.laneLoop_GEN_EN (i : Nat) : Fld := ⟨Reg.laneLoop i, 8, 1⟩
def F.laneLoop_PATTERN (i : Nat) : Fld := ⟨Reg.laneLoop i, 4, 4⟩
def F.laneLoop_MODE (i : Nat) : Fld := ⟨Reg.laneLoop i, 0, 2⟩

/-- Address of the register (spec/11 R374). -/
def Reg.laneCalCfg (i : Nat) : Nat := RegMap.at1 0x800100 128 0x2000 i
def F.laneCalCfg_AUTO (i : Nat) : Fld := ⟨Reg.laneCalCfg i, 31, 1⟩
def F.laneCalCfg_HOLD (i : Nat) : Fld := ⟨Reg.laneCalCfg i, 30, 1⟩
def F.laneCalCfg_EVT (i : Nat) : Fld := ⟨Reg.laneCalCfg i, 29, 1⟩
def F.laneCalCfg_TRIG (i : Nat) : Fld := ⟨Reg.laneCalCfg i, 8, 8⟩

/-- Address of the register (spec/11 R374). -/
def Reg.laneCalPeriod (i : Nat) : Nat := RegMap.at1 0x800104 128 0x2000 i
def F.laneCalPeriod_MAX_WAIT_MS (i : Nat) : Fld := ⟨Reg.laneCalPeriod i, 16, 16⟩
def F.laneCalPeriod_MAX_S (i : Nat) : Fld := ⟨Reg.laneCalPeriod i, 0, 16⟩

/-- Address of the register (spec/11 R374). -/
def Reg.laneCalStatus (i : Nat) : Nat := RegMap.at1 0x800108 128 0x2000 i
def F.laneCalStatus_STATE (i : Nat) : Fld := ⟨Reg.laneCalStatus i, 28, 4⟩
def F.laneCalStatus_POST_TRAIN (i : Nat) : Fld := ⟨Reg.laneCalStatus i, 27, 1⟩
def F.laneCalStatus_OVERDUE (i : Nat) : Fld := ⟨Reg.laneCalStatus i, 26, 1⟩
def F.laneCalStatus_FACTORY (i : Nat) : Fld := ⟨Reg.laneCalStatus i, 25, 1⟩
def F.laneCalStatus_TEMP_LAST (i : Nat) : Fld := ⟨Reg.laneCalStatus i, 0, 16⟩

/-- Address of the register (spec/11 R375). -/
def Reg.laneCalCount (i : Nat) : Nat := RegMap.at1 0x80010C 128 0x2000 i
def F.laneCalCount_COUNT (i : Nat) : Fld := ⟨Reg.laneCalCount i, 0, 32⟩

/-- Address of the register (spec/11 R375). -/
def Reg.laneCalTimeFrac (i : Nat) : Nat := RegMap.at1 0x800110 128 0x2000 i
def F.laneCalTimeFrac_FRAC (i : Nat) : Fld := ⟨Reg.laneCalTimeFrac i, 0, 16⟩

/-- Address of the register (spec/11 R375). -/
def Reg.laneCalTimeNs (i : Nat) : Nat := RegMap.at1 0x800114 128 0x2000 i
def F.laneCalTimeNs_NS (i : Nat) : Fld := ⟨Reg.laneCalTimeNs i, 0, 30⟩

/-- Address of the register (spec/11 R375). -/
def Reg.laneCalTimeSecLo (i : Nat) : Nat := RegMap.at1 0x800118 128 0x2000 i
def F.laneCalTimeSecLo_SEC_LO (i : Nat) : Fld := ⟨Reg.laneCalTimeSecLo i, 0, 32⟩

/-- Address of the register (spec/11 R375). -/
def Reg.laneCalTimeSecHi (i : Nat) : Nat := RegMap.at1 0x80011C 128 0x2000 i
def F.laneCalTimeSecHi_SEC_HI (i : Nat) : Fld := ⟨Reg.laneCalTimeSecHi i, 0, 16⟩

/-- Address of the register (spec/11 R375). -/
def Reg.laneCalCodes (i : Nat) : Nat := RegMap.at1 0x800120 128 0x2000 i
def F.laneCalCodes_TX_ELEM (i : Nat) : Fld := ⟨Reg.laneCalCodes i, 24, 6⟩
def F.laneCalCodes_RX_ELEM (i : Nat) : Fld := ⟨Reg.laneCalCodes i, 16, 6⟩

/-- Address of the register (spec/11 R375). -/
def Reg.laneCalTxDelay (i : Nat) : Nat := RegMap.at1 0x800128 128 0x2000 i
def F.laneCalTxDelay_TX_DELAY (i : Nat) : Fld := ⟨Reg.laneCalTxDelay i, 0, 32⟩

/-- Address of the register (spec/11 R375). -/
def Reg.laneCalRxDelay (i : Nat) : Nat := RegMap.at1 0x80012C 128 0x2000 i
def F.laneCalRxDelay_RX_DELAY (i : Nat) : Fld := ⟨Reg.laneCalRxDelay i, 0, 32⟩

/-- Address of the register (spec/11 R376). -/
def Reg.linkCfg (i : Nat) : Nat := RegMap.at1 0x800140 128 0x2000 i
def F.linkCfg_MODE (i : Nat) : Fld := ⟨Reg.linkCfg i, 30, 2⟩
def F.linkCfg_UPD (i : Nat) : Fld := ⟨Reg.linkCfg i, 29, 1⟩
def F.linkCfg_NEG_RT (i : Nat) : Fld := ⟨Reg.linkCfg i, 0, 1⟩

/-- Address of the register (spec/11 R376). -/
def Reg.linkTxExt (i : Nat) : Nat := RegMap.at1 0x800144 128 0x2000 i
def F.linkTxExt_PS (i : Nat) : Fld := ⟨Reg.linkTxExt i, 0, 24⟩

/-- Address of the register (spec/11 R376). -/
def Reg.linkRxExt (i : Nat) : Nat := RegMap.at1 0x800148 128 0x2000 i
def F.linkRxExt_PS (i : Nat) : Fld := ⟨Reg.linkRxExt i, 0, 24⟩

/-- Address of the register (spec/11 R376). -/
def Reg.linkPtxExt (i : Nat) : Nat := RegMap.at1 0x80014C 128 0x2000 i
def F.linkPtxExt_PS (i : Nat) : Fld := ⟨Reg.linkPtxExt i, 0, 24⟩

/-- Address of the register (spec/11 R376). -/
def Reg.linkPrxExt (i : Nat) : Nat := RegMap.at1 0x800150 128 0x2000 i
def F.linkPrxExt_PS (i : Nat) : Fld := ⟨Reg.linkPrxExt i, 0, 24⟩

/-- Address of the register (spec/11 R376). -/
def Reg.linkCoef (i : Nat) : Nat := RegMap.at1 0x800154 128 0x2000 i
def F.linkCoef_COEF (i : Nat) : Fld := ⟨Reg.linkCoef i, 0, 32⟩

/-- Address of the register (spec/11 R376). -/
def Reg.linkGdelay (i : Nat) : Nat := RegMap.at1 0x800158 128 0x2000 i
def F.linkGdelay_G (i : Nat) : Fld := ⟨Reg.linkGdelay i, 0, 24⟩

/-- Address of the register (spec/11 R376). -/
def Reg.linkRtF (i : Nat) : Nat := RegMap.at1 0x80015C 128 0x2000 i
def F.linkRtF_RT_F (i : Nat) : Fld := ⟨Reg.linkRtF i, 0, 32⟩

/-- Address of the register (spec/11 R376). -/
def Reg.linkAsymEffLo (i : Nat) : Nat := RegMap.at1 0x800160 128 0x2000 i
def F.linkAsymEffLo_LO (i : Nat) : Fld := ⟨Reg.linkAsymEffLo i, 0, 32⟩

/-- Address of the register (spec/11 R376). -/
def Reg.linkAsymEffHi (i : Nat) : Nat := RegMap.at1 0x800164 128 0x2000 i
def F.linkAsymEffHi_HI (i : Nat) : Fld := ⟨Reg.linkAsymEffHi i, 0, 32⟩

/-- Address of the register (spec/04 R152). -/
def Reg.laneGrp (i : Nat) : Nat := RegMap.at1 0x801000 32 0x8000 i
def F.laneGrp_UCODE_VER (i : Nat) : Fld := ⟨Reg.laneGrp i, 16, 16⟩
def F.laneGrp_RATE (i : Nat) : Fld := ⟨Reg.laneGrp i, 8, 3⟩
def F.laneGrp_DPLL_SEL (i : Nat) : Fld := ⟨Reg.laneGrp i, 4, 2⟩
def F.laneGrp_PLL_LOCK (i : Nat) : Fld := ⟨Reg.laneGrp i, 0, 1⟩

/-- Address of the register (spec/05 R174). -/
def Reg.portCfg (i : Nat) : Nat := RegMap.at1 0xC00000 128 0x1000 i
def F.portCfg_MAX_FRAME (i : Nat) : Fld := ⟨Reg.portCfg i, 18, 14⟩
def F.portCfg_DELIVER_BAD (i : Nat) : Fld := ⟨Reg.portCfg i, 17, 1⟩
def F.portCfg_PROMISC (i : Nat) : Fld := ⟨Reg.portCfg i, 16, 1⟩
def F.portCfg_PASS_ALL_GROUPS (i : Nat) : Fld := ⟨Reg.portCfg i, 15, 1⟩
def F.portCfg_LEN_CHECK (i : Nat) : Fld := ⟨Reg.portCfg i, 14, 1⟩
def F.portCfg_PAUSE_MODE (i : Nat) : Fld := ⟨Reg.portCfg i, 12, 2⟩

/-- Address of the register (spec/05 R175). -/
def Reg.portPause (i : Nat) : Nat := RegMap.at1 0xC00010 128 0x1000 i
def F.portPause_TX_QUANTA (i : Nat) : Fld := ⟨Reg.portPause i, 16, 16⟩
def F.portPause_REFRESH (i : Nat) : Fld := ⟨Reg.portPause i, 0, 16⟩

/-- Address of the register (spec/05 R175). -/
def Reg.portStorm (i : Nat) : Nat := RegMap.at1 0xC00014 128 0x1000 i
def F.portStorm_ACT (i : Nat) : Fld := ⟨Reg.portStorm i, 14, 1⟩
def F.portStorm_MS (i : Nat) : Fld := ⟨Reg.portStorm i, 0, 14⟩

/-- Address of the register (spec/05 R176). -/
def Reg.portTcPri (i : Nat) (j : Nat) : Nat := RegMap.at2 0xC00020 128 0x1000 2 0x4 i j
def F.portTcPri_PRI (i : Nat) (j : Nat) : Fld := ⟨Reg.portTcPri i j, 0, 24⟩

/-- Address of the register (spec/05 R175). -/
def Reg.portMeas (i : Nat) : Nat := RegMap.at1 0xC00030 128 0x1000 i
def F.portMeas_BAD_RING (i : Nat) : Fld := ⟨Reg.portMeas i, 16, 5⟩
def F.portMeas_CLASS_MASK (i : Nat) : Fld := ⟨Reg.portMeas i, 0, 16⟩

/-- Address of the register (spec/05 R176). -/
def Reg.portPfcMap (i : Nat) (j : Nat) : Nat := RegMap.at2 0xC00040 128 0x1000 8 0x4 i j
def F.portPfcMap_CLASSES (i : Nat) (j : Nat) : Fld := ⟨Reg.portPfcMap i j, 0, 16⟩

/-- Address of the register (spec/05 R177). -/
def Reg.portPauseStatus (i : Nat) : Nat := RegMap.at1 0xC00060 128 0x1000 i
def F.portPauseStatus_RX_PAUSED (i : Nat) : Fld := ⟨Reg.portPauseStatus i, 16, 16⟩
def F.portPauseStatus_TX_XOFF (i : Nat) : Fld := ⟨Reg.portPauseStatus i, 8, 8⟩
def F.portPauseStatus_STORM (i : Nat) : Fld := ⟨Reg.portPauseStatus i, 0, 8⟩

/-- Address of the register (spec/05 R179). -/
def Reg.portSaLo (i : Nat) : Nat := RegMap.at1 0xC00070 128 0x1000 i
def F.portSaLo_ADDR_LO (i : Nat) : Fld := ⟨Reg.portSaLo i, 0, 32⟩

/-- Address of the register (spec/05 R179). -/
def Reg.portSaHi (i : Nat) : Nat := RegMap.at1 0xC00074 128 0x1000 i
def F.portSaHi_ADDR_HI (i : Nat) : Fld := ⟨Reg.portSaHi i, 0, 16⟩

/-- Address of the register (spec/05 R178). -/
def Reg.portDaLo (i : Nat) (j : Nat) : Nat := RegMap.at2 0xC00100 128 0x1000 16 0x8 i j
def F.portDaLo_ADDR_LO (i : Nat) (j : Nat) : Fld := ⟨Reg.portDaLo i j, 0, 32⟩

/-- Address of the register (spec/05 R178). -/
def Reg.portDaHi (i : Nat) (j : Nat) : Nat := RegMap.at2 0xC00104 128 0x1000 16 0x8 i j
def F.portDaHi_VALID (i : Nat) (j : Nat) : Fld := ⟨Reg.portDaHi i j, 31, 1⟩
def F.portDaHi_ADDR_HI (i : Nat) (j : Nat) : Fld := ⟨Reg.portDaHi i j, 0, 16⟩

/-- Address of the register (spec/05 R180). -/
def Reg.portCntLo (i : Nat) (j : Nat) : Nat := RegMap.at2 0xC00400 128 0x1000 64 0x8 i j
def F.portCntLo_COUNT_LO (i : Nat) (j : Nat) : Fld := ⟨Reg.portCntLo i j, 0, 32⟩

/-- Address of the register (spec/05 R180). -/
def Reg.portCntHi (i : Nat) (j : Nat) : Nat := RegMap.at2 0xC00404 128 0x1000 64 0x8 i j
def F.portCntHi_COUNT_HI (i : Nat) (j : Nat) : Fld := ⟨Reg.portCntHi i j, 0, 32⟩

/-- Address of the register (spec/05 R181). -/
def Reg.portMod (i : Nat) : Nat := RegMap.at1 0xC00800 64 0x1000 i
def F.portMod_INT (i : Nat) : Fld := ⟨Reg.portMod i, 4, 1⟩
def F.portMod_PRESENT (i : Nat) : Fld := ⟨Reg.portMod i, 3, 1⟩
def F.portMod_GP_OUT (i : Nat) : Fld := ⟨Reg.portMod i, 2, 1⟩
def F.portMod_LPMODE (i : Nat) : Fld := ⟨Reg.portMod i, 1, 1⟩
def F.portMod_RESET_L (i : Nat) : Fld := ⟨Reg.portMod i, 0, 1⟩

/-- Address of the register (spec/05 R181). -/
def Reg.portI2c (i : Nat) : Nat := RegMap.at1 0xC00900 16 0x1000 i
def F.portI2c_STUCK (i : Nat) : Fld := ⟨Reg.portI2c i, 16, 1⟩
def F.portI2c_RETRY_MS (i : Nat) : Fld := ⟨Reg.portI2c i, 8, 8⟩
def F.portI2c_RETRIES (i : Nat) : Fld := ⟨Reg.portI2c i, 4, 4⟩
def F.portI2c_SPEED (i : Nat) : Fld := ⟨Reg.portI2c i, 0, 2⟩

/-- Address of the register (spec/05 R181). -/
def Reg.portSgpio : Nat := 0xC00A00
def F.portSgpio_DIV : Fld := ⟨Reg.portSgpio, 8, 8⟩
def F.portSgpio_SLOTS : Fld := ⟨Reg.portSgpio, 0, 8⟩

/-- Address of the register (spec/06 R207). -/
def Reg.pipeParseCfg (i : Nat) : Nat := RegMap.at1 0x1000000 4 0x400000 i
def F.pipeParseCfg_INCOMPLETE_ACT (i : Nat) : Fld := ⟨Reg.pipeParseCfg i, 30, 2⟩
def F.pipeParseCfg_INCOMPLETE_RING (i : Nat) : Fld := ⟨Reg.pipeParseCfg i, 24, 5⟩
def F.pipeParseCfg_CSUM_CHECK (i : Nat) : Fld := ⟨Reg.pipeParseCfg i, 23, 1⟩

/-- Address of the register (spec/06 R207). -/
def Reg.pipeTcDef (i : Nat) : Nat := RegMap.at1 0x1000004 4 0x400000 i
def F.pipeTcDef_PTP_TC (i : Nat) : Fld := ⟨Reg.pipeTcDef i, 4, 4⟩
def F.pipeTcDef_DEF_TC (i : Nat) : Fld := ⟨Reg.pipeTcDef i, 0, 4⟩

/-- Address of the register (spec/06 R207). -/
def Reg.pipePcpMap (i : Nat) : Nat := RegMap.at1 0x1000008 4 0x400000 i
def F.pipePcpMap_MAP (i : Nat) : Fld := ⟨Reg.pipePcpMap i, 0, 32⟩

/-- Address of the register (spec/06 R208). -/
def Reg.pipeGenStatus (i : Nat) : Nat := RegMap.at1 0x1000020 4 0x400000 i
def F.pipeGenStatus_ACTIVE (i : Nat) : Fld := ⟨Reg.pipeGenStatus i, 24, 8⟩
def F.pipeGenStatus_DRAINING (i : Nat) : Fld := ⟨Reg.pipeGenStatus i, 16, 8⟩
def F.pipeGenStatus_PENDING (i : Nat) : Fld := ⟨Reg.pipeGenStatus i, 8, 8⟩
def F.pipeGenStatus_DRN_VALID (i : Nat) : Fld := ⟨Reg.pipeGenStatus i, 7, 1⟩
def F.pipeGenStatus_PEND_OPEN (i : Nat) : Fld := ⟨Reg.pipeGenStatus i, 6, 1⟩
def F.pipeGenStatus_COMMIT_WAIT (i : Nat) : Fld := ⟨Reg.pipeGenStatus i, 5, 1⟩

/-- Address of the register (spec/06 R208). -/
def Reg.pipeGenCtrl (i : Nat) : Nat := RegMap.at1 0x1000024 4 0x400000 i
def F.pipeGenCtrl_MAX_DEFER (i : Nat) : Fld := ⟨Reg.pipeGenCtrl i, 0, 16⟩

/-- Address of the register (spec/06 R208). -/
def Reg.pipeGenDrain (i : Nat) : Nat := RegMap.at1 0x1000028 4 0x400000 i
def F.pipeGenDrain_COUNT (i : Nat) : Fld := ⟨Reg.pipeGenDrain i, 0, 16⟩

/-- Address of the register (spec/06 R208). -/
def Reg.pipeProgVer (i : Nat) : Nat := RegMap.at1 0x100002C 4 0x400000 i
def F.pipeProgVer_VERSION (i : Nat) : Fld := ⟨Reg.pipeProgVer i, 0, 32⟩

/-- Address of the register (spec/06 R209). -/
def Reg.pipeFragCfg (i : Nat) : Nat := RegMap.at1 0x1000030 4 0x400000 i
def F.pipeFragCfg_EN (i : Nat) : Fld := ⟨Reg.pipeFragCfg i, 31, 1⟩
def F.pipeFragCfg_ORPHAN_ACT (i : Nat) : Fld := ⟨Reg.pipeFragCfg i, 29, 2⟩
def F.pipeFragCfg_ORPHAN_RING (i : Nat) : Fld := ⟨Reg.pipeFragCfg i, 24, 5⟩
def F.pipeFragCfg_TIMEOUT_US (i : Nat) : Fld := ⟨Reg.pipeFragCfg i, 0, 16⟩

/-- Address of the register (spec/06 R209). -/
def Reg.pipeFragStatus (i : Nat) : Nat := RegMap.at1 0x1000034 4 0x400000 i
def F.pipeFragStatus_USED (i : Nat) : Fld := ⟨Reg.pipeFragStatus i, 0, 11⟩

/-- Address of the register (spec/06 R210). -/
def Reg.pipeWinCtrl (i : Nat) : Nat := RegMap.at1 0x1000100 4 0x400000 i
def F.pipeWinCtrl_GO (i : Nat) : Fld := ⟨Reg.pipeWinCtrl i, 31, 1⟩
def F.pipeWinCtrl_OP (i : Nat) : Fld := ⟨Reg.pipeWinCtrl i, 28, 3⟩
def F.pipeWinCtrl_TARGET (i : Nat) : Fld := ⟨Reg.pipeWinCtrl i, 24, 4⟩
def F.pipeWinCtrl_VIEW (i : Nat) : Fld := ⟨Reg.pipeWinCtrl i, 22, 2⟩
def F.pipeWinCtrl_INDEX (i : Nat) : Fld := ⟨Reg.pipeWinCtrl i, 0, 13⟩

/-- Address of the register (spec/06 R210). -/
def Reg.pipeWinStatus (i : Nat) : Nat := RegMap.at1 0x1000104 4 0x400000 i
def F.pipeWinStatus_ERR (i : Nat) : Fld := ⟨Reg.pipeWinStatus i, 1, 2⟩
def F.pipeWinStatus_BUSY (i : Nat) : Fld := ⟨Reg.pipeWinStatus i, 0, 1⟩

/-- Address of the register (spec/06 R210). -/
def Reg.pipeWinData (i : Nat) (j : Nat) : Nat := RegMap.at2 0x1000200 4 0x400000 64 0x4 i j
def F.pipeWinData_DATA (i : Nat) (j : Nat) : Fld := ⟨Reg.pipeWinData i j, 0, 32⟩

/-- Address of the register (spec/06 R211). -/
def Reg.pipeParseCntLo (i : Nat) (j : Nat) : Nat := RegMap.at2 0x1000400 4 0x400000 16 0x8 i j
def F.pipeParseCntLo_COUNT_LO (i : Nat) (j : Nat) : Fld := ⟨Reg.pipeParseCntLo i j, 0, 32⟩

/-- Address of the register (spec/06 R211). -/
def Reg.pipeParseCntHi (i : Nat) (j : Nat) : Nat := RegMap.at2 0x1000404 4 0x400000 16 0x8 i j
def F.pipeParseCntHi_COUNT_HI (i : Nat) (j : Nat) : Fld := ⟨Reg.pipeParseCntHi i j, 0, 32⟩

/-- Address of the register (spec/07 R235). -/
def Reg.pipeFwdCfg (i : Nat) : Nat := RegMap.at1 0x1001000 4 0x400000 i
def F.pipeFwdCfg_AGE_S (i : Nat) : Fld := ⟨Reg.pipeFwdCfg i, 16, 16⟩
def F.pipeFwdCfg_MOVE_DAMP (i : Nat) : Fld := ⟨Reg.pipeFwdCfg i, 8, 8⟩
def F.pipeFwdCfg_MAX_KICKS (i : Nat) : Fld := ⟨Reg.pipeFwdCfg i, 4, 4⟩
def F.pipeFwdCfg_REMOTE_LEARN (i : Nat) : Fld := ⟨Reg.pipeFwdCfg i, 3, 1⟩
def F.pipeFwdCfg_LEARN_EN (i : Nat) : Fld := ⟨Reg.pipeFwdCfg i, 2, 1⟩

/-- Address of the register (spec/07 R235). -/
def Reg.pipeConfirm (i : Nat) : Nat := RegMap.at1 0x1001004 4 0x400000 i
def F.pipeConfirm_CONFIRM_BEATS (i : Nat) : Fld := ⟨Reg.pipeConfirm i, 0, 16⟩

/-- Address of the register (spec/07 R236). -/
def Reg.pipeRouterMacLo (i : Nat) : Nat := RegMap.at1 0x1001008 4 0x400000 i
def F.pipeRouterMacLo_ADDR_LO (i : Nat) : Fld := ⟨Reg.pipeRouterMacLo i, 0, 32⟩

/-- Address of the register (spec/07 R236). -/
def Reg.pipeRouterMacHi (i : Nat) : Nat := RegMap.at1 0x100100C 4 0x400000 i
def F.pipeRouterMacHi_VALID (i : Nat) : Fld := ⟨Reg.pipeRouterMacHi i, 31, 1⟩
def F.pipeRouterMacHi_ADDR_HI (i : Nat) : Fld := ⟨Reg.pipeRouterMacHi i, 0, 16⟩

/-- Address of the register (spec/07 R236). -/
def Reg.pipeLearnStatus (i : Nat) : Nat := RegMap.at1 0x1001010 4 0x400000 i
def F.pipeLearnStatus_QUEUED (i : Nat) : Fld := ⟨Reg.pipeLearnStatus i, 0, 11⟩

/-- Address of the register (spec/07 R236). -/
def Reg.pipeMoveEpoch (i : Nat) : Nat := RegMap.at1 0x1001014 4 0x400000 i
def F.pipeMoveEpoch_EPOCH (i : Nat) : Fld := ⟨Reg.pipeMoveEpoch i, 0, 32⟩

/-- Address of the register (spec/07 R236). -/
def Reg.pipeMacUsed (i : Nat) : Nat := RegMap.at1 0x1001018 4 0x400000 i
def F.pipeMacUsed_STASH (i : Nat) : Fld := ⟨Reg.pipeMacUsed i, 19, 7⟩
def F.pipeMacUsed_USED (i : Nat) : Fld := ⟨Reg.pipeMacUsed i, 0, 19⟩

/-- Address of the register (spec/07 R236). -/
def Reg.pipeLpmUsed (i : Nat) : Nat := RegMap.at1 0x100101C 4 0x400000 i
def F.pipeLpmUsed_SLOTS (i : Nat) : Fld := ⟨Reg.pipeLpmUsed i, 0, 15⟩

/-- Address of the register (spec/07 R237). -/
def Reg.pipePortL2 (i : Nat) (j : Nat) : Nat := RegMap.at2 0x1001100 4 0x400000 32 0x4 i j
def F.pipePortL2_LEARN (i : Nat) (j : Nat) : Fld := ⟨Reg.pipePortL2 i j, 31, 1⟩
def F.pipePortL2_EXCESS_ACT (i : Nat) (j : Nat) : Fld := ⟨Reg.pipePortL2 i j, 30, 1⟩
def F.pipePortL2_FLUSH_ON_DOWN (i : Nat) (j : Nat) : Fld := ⟨Reg.pipePortL2 i j, 29, 1⟩
def F.pipePortL2_PVID (i : Nat) (j : Nat) : Fld := ⟨Reg.pipePortL2 i j, 16, 12⟩
def F.pipePortL2_BD_BASE (i : Nat) (j : Nat) : Fld := ⟨Reg.pipePortL2 i j, 0, 16⟩

/-- Address of the register (spec/07 R237). -/
def Reg.pipeLearnLimit (i : Nat) (j : Nat) : Nat := RegMap.at2 0x1001180 4 0x400000 32 0x4 i j
def F.pipeLearnLimit_COUNT (i : Nat) (j : Nat) : Fld := ⟨Reg.pipeLearnLimit i j, 16, 16⟩
def F.pipeLearnLimit_LIMIT (i : Nat) (j : Nat) : Fld := ⟨Reg.pipeLearnLimit i j, 0, 16⟩

/-- Address of the register (spec/07 R238). -/
def Reg.pipeTwinCtrl (i : Nat) : Nat := RegMap.at1 0x1001200 4 0x400000 i
def F.pipeTwinCtrl_GO (i : Nat) : Fld := ⟨Reg.pipeTwinCtrl i, 31, 1⟩
def F.pipeTwinCtrl_OP (i : Nat) : Fld := ⟨Reg.pipeTwinCtrl i, 28, 3⟩
def F.pipeTwinCtrl_TARGET (i : Nat) : Fld := ⟨Reg.pipeTwinCtrl i, 24, 4⟩
def F.pipeTwinCtrl_VIEW (i : Nat) : Fld := ⟨Reg.pipeTwinCtrl i, 22, 2⟩
def F.pipeTwinCtrl_INDEX (i : Nat) : Fld := ⟨Reg.pipeTwinCtrl i, 0, 19⟩

/-- Address of the register (spec/07 R238). -/
def Reg.pipeTwinStatus (i : Nat) : Nat := RegMap.at1 0x1001204 4 0x400000 i
def F.pipeTwinStatus_ERR (i : Nat) : Fld := ⟨Reg.pipeTwinStatus i, 1, 2⟩
def F.pipeTwinStatus_BUSY (i : Nat) : Fld := ⟨Reg.pipeTwinStatus i, 0, 1⟩

/-- Address of the register (spec/07 R238). -/
def Reg.pipeTwinData (i : Nat) (j : Nat) : Nat := RegMap.at2 0x1001240 4 0x400000 8 0x4 i j
def F.pipeTwinData_DATA (i : Nat) (j : Nat) : Fld := ⟨Reg.pipeTwinData i j, 0, 32⟩

/-- Address of the register (spec/07 R240). -/
def Reg.pipeFwdCntLo (i : Nat) (j : Nat) : Nat := RegMap.at2 0x1001400 4 0x400000 16 0x8 i j
def F.pipeFwdCntLo_COUNT_LO (i : Nat) (j : Nat) : Fld := ⟨Reg.pipeFwdCntLo i j, 0, 32⟩

/-- Address of the register (spec/07 R240). -/
def Reg.pipeFwdCntHi (i : Nat) (j : Nat) : Nat := RegMap.at2 0x1001404 4 0x400000 16 0x8 i j
def F.pipeFwdCntHi_COUNT_HI (i : Nat) (j : Nat) : Fld := ⟨Reg.pipeFwdCntHi i j, 0, 32⟩

/-- Address of the register (spec/08 R279). -/
def Reg.fabricCfg : Nat := 0x2000000
def F.fabricCfg_TIMING_MASK : Fld := ⟨Reg.fabricCfg, 16, 16⟩
def F.fabricCfg_LOSSLESS_MASK : Fld := ⟨Reg.fabricCfg, 0, 16⟩

/-- Address of the register (spec/08 R279). -/
def Reg.fabricPool : Nat := 0x2000004
def F.fabricPool_HR_STAGE : Fld := ⟨Reg.fabricPool, 0, 20⟩

/-- Address of the register (spec/08 R279). -/
def Reg.fabricMc : Nat := 0x2000008
def F.fabricMc_MC_WAIT_US : Fld := ⟨Reg.fabricMc, 0, 16⟩

/-- Address of the register (spec/08 R279). -/
def Reg.fabricStatus : Nat := 0x2000010
def F.fabricStatus_QUIET_ERR : Fld := ⟨Reg.fabricStatus, 31, 1⟩
def F.fabricStatus_CFG_ERR : Fld := ⟨Reg.fabricStatus, 30, 1⟩
def F.fabricStatus_FREE : Fld := ⟨Reg.fabricStatus, 0, 20⟩

/-- Address of the register (spec/08 R280). -/
def Reg.fabricPort (i : Nat) : Nat := RegMap.at1 0x2000800 128 0x4 i
def F.fabricPort_EARLY_GRANT (i : Nat) : Fld := ⟨Reg.fabricPort i, 31, 1⟩
def F.fabricPort_HOLD_STATE (i : Nat) : Fld := ⟨Reg.fabricPort i, 29, 2⟩
def F.fabricPort_PORT_DOWN_HOLD_MS (i : Nat) : Fld := ⟨Reg.fabricPort i, 0, 16⟩

/-- Address of the register (spec/08 R280). -/
def Reg.fabricSp (i : Nat) : Nat := RegMap.at1 0x2000A00 128 0x4 i
def F.fabricSp_SP_MASK (i : Nat) : Fld := ⟨Reg.fabricSp i, 0, 16⟩

/-- Address of the register (spec/08 R281). -/
def Reg.eqLim (i : Nat) : Nat := RegMap.at1 0x2010000 2048 0x20 i
def F.eqLim_E_LIMIT (i : Nat) : Fld := ⟨Reg.eqLim i, 0, 24⟩

/-- Address of the register (spec/08 R281). -/
def Reg.eqSpill (i : Nat) : Nat := RegMap.at1 0x2010004 2048 0x20 i
def F.eqSpill_SPILL_EN (i : Nat) : Fld := ⟨Reg.eqSpill i, 31, 1⟩
def F.eqSpill_REFILL (i : Nat) : Fld := ⟨Reg.eqSpill i, 20, 11⟩
def F.eqSpill_ODL (i : Nat) : Fld := ⟨Reg.eqSpill i, 0, 20⟩

/-- Address of the register (spec/08 R281). -/
def Reg.eqSched (i : Nat) : Nat := RegMap.at1 0x2010008 2048 0x20 i
def F.eqSched_MAX_AGE_MS (i : Nat) : Fld := ⟨Reg.eqSched i, 16, 16⟩
def F.eqSched_WEIGHT (i : Nat) : Fld := ⟨Reg.eqSched i, 0, 8⟩

/-- Address of the register (spec/08 R281). -/
def Reg.eqDepth (i : Nat) : Nat := RegMap.at1 0x201000C 2048 0x20 i
def F.eqDepth_SPILLING (i : Nat) : Fld := ⟨Reg.eqDepth i, 31, 1⟩
def F.eqDepth_TOTAL (i : Nat) : Fld := ⟨Reg.eqDepth i, 0, 25⟩

/-- Address of the register (spec/08 R281). -/
def Reg.eqOndie (i : Nat) : Nat := RegMap.at1 0x2010010 2048 0x20 i
def F.eqOndie_ONDIE (i : Nat) : Fld := ⟨Reg.eqOndie i, 0, 20⟩

/-- Address of the register (spec/08 R281). -/
def Reg.eqHwm (i : Nat) : Nat := RegMap.at1 0x2010014 2048 0x20 i
def F.eqHwm_HWM (i : Nat) : Fld := ⟨Reg.eqHwm i, 0, 25⟩

/-- Address of the register (spec/08 R282). -/
def Reg.iaTh (i : Nat) : Nat := RegMap.at1 0x2020000 2048 0x10 i
def F.iaTh_XON (i : Nat) : Fld := ⟨Reg.iaTh i, 16, 16⟩
def F.iaTh_XOFF (i : Nat) : Fld := ⟨Reg.iaTh i, 0, 16⟩

/-- Address of the register (spec/08 R282). -/
def Reg.iaHr (i : Nat) : Nat := RegMap.at1 0x2020004 2048 0x10 i
def F.iaHr_HEADROOM (i : Nat) : Fld := ⟨Reg.iaHr i, 0, 18⟩

/-- Address of the register (spec/08 R282). -/
def Reg.iaDrop (i : Nat) : Nat := RegMap.at1 0x2020008 2048 0x10 i
def F.iaDrop_I_DROP (i : Nat) : Fld := ⟨Reg.iaDrop i, 0, 16⟩

/-- Address of the register (spec/08 R282). -/
def Reg.iaDepth (i : Nat) : Nat := RegMap.at1 0x202000C 2048 0x10 i
def F.iaDepth_XOFF (i : Nat) : Fld := ⟨Reg.iaDepth i, 31, 1⟩
def F.iaDepth_OVERRUN (i : Nat) : Fld := ⟨Reg.iaDepth i, 30, 1⟩
def F.iaDepth_DEPTH (i : Nat) : Fld := ⟨Reg.iaDepth i, 0, 25⟩

/-- Address of the register (spec/08 R283). -/
def Reg.fabricPcntLo (i : Nat) : Nat := RegMap.at1 0x2030000 2048 0x8 i
def F.fabricPcntLo_COUNT_LO (i : Nat) : Fld := ⟨Reg.fabricPcntLo i, 0, 32⟩

/-- Address of the register (spec/08 R283). -/
def Reg.fabricPcntHi (i : Nat) : Nat := RegMap.at1 0x2030004 2048 0x8 i
def F.fabricPcntHi_COUNT_HI (i : Nat) : Fld := ⟨Reg.fabricPcntHi i, 0, 32⟩

/-- Address of the register (spec/08 R284). -/
def Reg.fabricSample (i : Nat) : Nat := RegMap.at1 0x2038000 128 0x4 i
def F.fabricSample_N (i : Nat) : Fld := ⟨Reg.fabricSample i, 0, 16⟩

/-- Address of the register (spec/08 R285). -/
def Reg.deepCfg : Nat := 0x2800000
def F.deepCfg_EN : Fld := ⟨Reg.deepCfg, 31, 1⟩
def F.deepCfg_AUTO_MAPOUT : Fld := ⟨Reg.deepCfg, 30, 1⟩
def F.deepCfg_BOOT_MAP : Fld := ⟨Reg.deepCfg, 16, 3⟩
def F.deepCfg_UNCORR_TH : Fld := ⟨Reg.deepCfg, 0, 16⟩

/-- Address of the register (spec/08 R285). -/
def Reg.deepStatus : Nat := 0x2800004
def F.deepStatus_EVAC : Fld := ⟨Reg.deepStatus, 8, 1⟩
def F.deepStatus_MAPPED : Fld := ⟨Reg.deepStatus, 4, 4⟩
def F.deepStatus_READY : Fld := ⟨Reg.deepStatus, 0, 4⟩

/-- Address of the register (spec/08 R285). -/
def Reg.deepFree : Nat := 0x2800008
def F.deepFree_FREE : Fld := ⟨Reg.deepFree, 0, 25⟩

/-- Address of the register (spec/08 R285). -/
def Reg.deepBw : Nat := 0x2800030
def F.deepBw_READ : Fld := ⟨Reg.deepBw, 16, 16⟩
def F.deepBw_WRITE : Fld := ⟨Reg.deepBw, 0, 16⟩

/-- Address of the register (spec/08 R285). -/
def Reg.deepEccCorr (i : Nat) : Nat := RegMap.at1 0x2800010 4 0x8 i
def F.deepEccCorr_COUNT (i : Nat) : Fld := ⟨Reg.deepEccCorr i, 0, 32⟩

/-- Address of the register (spec/08 R285). -/
def Reg.deepEccUncorr (i : Nat) : Nat := RegMap.at1 0x2800014 4 0x8 i
def F.deepEccUncorr_COUNT (i : Nat) : Fld := ⟨Reg.deepEccUncorr i, 0, 32⟩

/-- Address of the register (spec/09 R315). -/
def Reg.tbStatus : Nat := 0x3000000
def F.tbStatus_LOCKED_123 : Fld := ⟨Reg.tbStatus, 1, 3⟩
def F.tbStatus_LOCKED_0 : Fld := ⟨Reg.tbStatus, 0, 1⟩

/-- Address of the register (spec/09 R315). -/
def Reg.tbClamp : Nat := 0x3000004
def F.tbClamp_CLAMP : Fld := ⟨Reg.tbClamp, 0, 32⟩

/-- Address of the register (spec/09 R315). -/
def Reg.tbSnapCtrl : Nat := 0x3000008
def F.tbSnapCtrl_GO : Fld := ⟨Reg.tbSnapCtrl, 31, 1⟩
def F.tbSnapCtrl_MODE : Fld := ⟨Reg.tbSnapCtrl, 28, 1⟩
def F.tbSnapCtrl_BEAT : Fld := ⟨Reg.tbSnapCtrl, 0, 17⟩

/-- Address of the register (spec/09 R316). -/
def Reg.tbStepFrac (i : Nat) : Nat := RegMap.at1 0x3000040 4 0x10 i
def F.tbStepFrac_FRAC (i : Nat) : Fld := ⟨Reg.tbStepFrac i, 0, 16⟩

/-- Address of the register (spec/09 R316). -/
def Reg.tbStepNs (i : Nat) : Nat := RegMap.at1 0x3000044 4 0x10 i
def F.tbStepNs_NS (i : Nat) : Fld := ⟨Reg.tbStepNs i, 0, 30⟩

/-- Address of the register (spec/09 R316). -/
def Reg.tbStepSecLo (i : Nat) : Nat := RegMap.at1 0x3000048 4 0x10 i
def F.tbStepSecLo_SEC_LO (i : Nat) : Fld := ⟨Reg.tbStepSecLo i, 0, 32⟩

/-- Address of the register (spec/09 R316). -/
def Reg.tbStepSecHi (i : Nat) : Nat := RegMap.at1 0x300004C 4 0x10 i
def F.tbStepSecHi_VALID (i : Nat) : Fld := ⟨Reg.tbStepSecHi i, 31, 1⟩
def F.tbStepSecHi_KIND (i : Nat) : Fld := ⟨Reg.tbStepSecHi i, 30, 1⟩
def F.tbStepSecHi_SEC_HI (i : Nat) : Fld := ⟨Reg.tbStepSecHi i, 0, 16⟩

/-- Address of the register (spec/09 R317). -/
def Reg.tbIncrLo (i : Nat) : Nat := RegMap.at1 0x3000100 32 0x8 i
def F.tbIncrLo_INCR_LO (i : Nat) : Fld := ⟨Reg.tbIncrLo i, 0, 32⟩

/-- Address of the register (spec/09 R317). -/
def Reg.tbIncrHi (i : Nat) : Nat := RegMap.at1 0x3000104 32 0x8 i
def F.tbIncrHi_INCR_HI (i : Nat) : Fld := ⟨Reg.tbIncrHi i, 0, 16⟩

/-- Address of the register (spec/09 R318). -/
def Reg.tbSnapFrac (i : Nat) : Nat := RegMap.at1 0x3000400 32 0x10 i
def F.tbSnapFrac_FRAC (i : Nat) : Fld := ⟨Reg.tbSnapFrac i, 0, 32⟩

/-- Address of the register (spec/09 R318). -/
def Reg.tbSnapNs (i : Nat) : Nat := RegMap.at1 0x3000404 32 0x10 i
def F.tbSnapNs_NS (i : Nat) : Fld := ⟨Reg.tbSnapNs i, 0, 30⟩

/-- Address of the register (spec/09 R318). -/
def Reg.tbSnapSecLo (i : Nat) : Nat := RegMap.at1 0x3000408 32 0x10 i
def F.tbSnapSecLo_SEC_LO (i : Nat) : Fld := ⟨Reg.tbSnapSecLo i, 0, 32⟩

/-- Address of the register (spec/09 R318). -/
def Reg.tbSnapSecHi (i : Nat) : Nat := RegMap.at1 0x300040C 32 0x10 i
def F.tbSnapSecHi_SEC_HI (i : Nat) : Fld := ⟨Reg.tbSnapSecHi i, 0, 16⟩

/-- Address of the register (spec/09 R319). -/
def Reg.tbLcompRx (i : Nat) : Nat := RegMap.at1 0x3001000 128 0x8 i
def F.tbLcompRx_RX_COMP (i : Nat) : Fld := ⟨Reg.tbLcompRx i, 0, 32⟩

/-- Address of the register (spec/09 R319). -/
def Reg.tbLcompTx (i : Nat) : Nat := RegMap.at1 0x3001004 128 0x8 i
def F.tbLcompTx_TX_COMP (i : Nat) : Fld := ⟨Reg.tbLcompTx i, 0, 32⟩

/-- Address of the register (spec/09 R320). -/
def Reg.iuEdges (i : Nat) : Nat := RegMap.at1 0x3002000 160 0x10 i
def F.iuEdges_EDGES (i : Nat) : Fld := ⟨Reg.iuEdges i, 0, 32⟩

/-- Address of the register (spec/09 R320). -/
def Reg.iuMerged (i : Nat) : Nat := RegMap.at1 0x3002004 160 0x10 i
def F.iuMerged_MERGED (i : Nat) : Fld := ⟨Reg.iuMerged i, 0, 32⟩

/-- Address of the register (spec/09 R320). -/
def Reg.iuOrphans (i : Nat) : Nat := RegMap.at1 0x3002008 160 0x10 i
def F.iuOrphans_ORPHANS (i : Nat) : Fld := ⟨Reg.iuOrphans i, 0, 32⟩

/-- Address of the register (spec/09 R320). -/
def Reg.iuStatus (i : Nat) : Nat := RegMap.at1 0x300200C 160 0x10 i
def F.iuStatus_PENDING (i : Nat) : Fld := ⟨Reg.iuStatus i, 1, 1⟩
def F.iuStatus_WINDOW_OPEN (i : Nat) : Fld := ⟨Reg.iuStatus i, 0, 1⟩

/-- Address of the register (spec/11 R377). -/
def Reg.iucalCfg : Nat := 0x3002F00
def F.iucalCfg_AUTO : Fld := ⟨Reg.iucalCfg, 31, 1⟩
def F.iucalCfg_EVT : Fld := ⟨Reg.iucalCfg, 29, 1⟩
def F.iucalCfg_TRIG : Fld := ⟨Reg.iucalCfg, 8, 8⟩

/-- Address of the register (spec/11 R377). -/
def Reg.iucalPeriod : Nat := 0x3002F04
def F.iucalPeriod_MAX_S : Fld := ⟨Reg.iucalPeriod, 16, 16⟩

/-- Address of the register (spec/11 R377). -/
def Reg.iucalState (i : Nat) : Nat := RegMap.at1 0x3003000 160 0x20 i
def F.iucalState_STATE (i : Nat) : Fld := ⟨Reg.iucalState i, 28, 4⟩
def F.iucalState_FACTORY (i : Nat) : Fld := ⟨Reg.iucalState i, 27, 1⟩
def F.iucalState_CHUNKS (i : Nat) : Fld := ⟨Reg.iucalState i, 16, 8⟩
def F.iucalState_TEMP_LAST (i : Nat) : Fld := ⟨Reg.iucalState i, 0, 16⟩

/-- Address of the register (spec/11 R377). -/
def Reg.iucalCount (i : Nat) : Nat := RegMap.at1 0x3003004 160 0x20 i
def F.iucalCount_COUNT (i : Nat) : Fld := ⟨Reg.iucalCount i, 0, 32⟩

/-- Address of the register (spec/11 R377). -/
def Reg.iucalTimeFrac (i : Nat) : Nat := RegMap.at1 0x3003008 160 0x20 i
def F.iucalTimeFrac_FRAC (i : Nat) : Fld := ⟨Reg.iucalTimeFrac i, 0, 16⟩

/-- Address of the register (spec/11 R377). -/
def Reg.iucalTimeNs (i : Nat) : Nat := RegMap.at1 0x300300C 160 0x20 i
def F.iucalTimeNs_NS (i : Nat) : Fld := ⟨Reg.iucalTimeNs i, 0, 30⟩

/-- Address of the register (spec/11 R377). -/
def Reg.iucalTimeSecLo (i : Nat) : Nat := RegMap.at1 0x3003010 160 0x20 i
def F.iucalTimeSecLo_SEC_LO (i : Nat) : Fld := ⟨Reg.iucalTimeSecLo i, 0, 32⟩

/-- Address of the register (spec/11 R377). -/
def Reg.iucalTimeSecHi (i : Nat) : Nat := RegMap.at1 0x3003014 160 0x20 i
def F.iucalTimeSecHi_SEC_HI (i : Nat) : Fld := ⟨Reg.iucalTimeSecHi i, 0, 16⟩

/-- Address of the register (spec/11 R377). -/
def Reg.iucalSeg01 (i : Nat) : Nat := RegMap.at1 0x3003018 160 0x20 i
def F.iucalSeg01_SEG1 (i : Nat) : Fld := ⟨Reg.iucalSeg01 i, 16, 12⟩
def F.iucalSeg01_SEG0 (i : Nat) : Fld := ⟨Reg.iucalSeg01 i, 0, 12⟩

/-- Address of the register (spec/11 R377). -/
def Reg.iucalSeg23 (i : Nat) : Nat := RegMap.at1 0x300301C 160 0x20 i
def F.iucalSeg23_SEG3 (i : Nat) : Fld := ⟨Reg.iucalSeg23 i, 16, 12⟩
def F.iucalSeg23_SEG2 (i : Nat) : Fld := ⟨Reg.iucalSeg23 i, 0, 12⟩

/-- Address of the register (spec/10 R353). -/
def Reg.servoStatus : Nat := 0x3400000
def F.servoStatus_CFG_ERR : Fld := ⟨Reg.servoStatus, 31, 1⟩
def F.servoStatus_DUE : Fld := ⟨Reg.servoStatus, 16, 9⟩
def F.servoStatus_SERVED : Fld := ⟨Reg.servoStatus, 0, 7⟩

/-- Address of the register (spec/10 R353). -/
def Reg.servoTc (i : Nat) : Nat := RegMap.at1 0x3400800 128 0x4 i
def F.servoTc_EN (i : Nat) : Fld := ⟨Reg.servoTc i, 31, 1⟩
def F.servoTc_P2P_ADD (i : Nat) : Fld := ⟨Reg.servoTc i, 30, 1⟩
def F.servoTc_COUNTER (i : Nat) : Fld := ⟨Reg.servoTc i, 16, 5⟩
def F.servoTc_PDELAY_SESS (i : Nat) : Fld := ⟨Reg.servoTc i, 0, 12⟩

/-- Address of the register (spec/10 R354). -/
def Reg.slotCfg (i : Nat) : Nat := RegMap.at1 0x3410000 256 0x40 i
def F.slotCfg_EN (i : Nat) : Fld := ⟨Reg.slotCfg i, 31, 1⟩
def F.slotCfg_UPD (i : Nat) : Fld := ⟨Reg.slotCfg i, 30, 1⟩
def F.slotCfg_STANDBY (i : Nat) : Fld := ⟨Reg.slotCfg i, 29, 1⟩
def F.slotCfg_LOSS_ACT (i : Nat) : Fld := ⟨Reg.slotCfg i, 28, 1⟩
def F.slotCfg_KIND (i : Nat) : Fld := ⟨Reg.slotCfg i, 27, 1⟩
def F.slotCfg_PARTNER (i : Nat) : Fld := ⟨Reg.slotCfg i, 16, 8⟩
def F.slotCfg_PRIO (i : Nat) : Fld := ⟨Reg.slotCfg i, 14, 2⟩
def F.slotCfg_FILTER (i : Nat) : Fld := ⟨Reg.slotCfg i, 12, 2⟩
def F.slotCfg_SECOND_INT (i : Nat) : Fld := ⟨Reg.slotCfg i, 11, 1⟩
def F.slotCfg_PHASE_EN (i : Nat) : Fld := ⟨Reg.slotCfg i, 10, 1⟩
def F.slotCfg_TARGET (i : Nat) : Fld := ⟨Reg.slotCfg i, 0, 5⟩

/-- Address of the register (spec/10 R354). -/
def Reg.slotIvl (i : Nat) : Nat := RegMap.at1 0x3410004 256 0x40 i
def F.slotIvl_PHASE_OFS (i : Nat) : Fld := ⟨Reg.slotIvl i, 16, 16⟩
def F.slotIvl_INTERVAL (i : Nat) : Fld := ⟨Reg.slotIvl i, 0, 16⟩

/-- Address of the register (spec/10 R354). -/
def Reg.slotTimeout (i : Nat) : Nat := RegMap.at1 0x3410008 256 0x40 i
def F.slotTimeout_BEATS (i : Nat) : Fld := ⟨Reg.slotTimeout i, 0, 24⟩

/-- Address of the register (spec/10 R354). -/
def Reg.slotKp (i : Nat) : Nat := RegMap.at1 0x341000C 256 0x40 i
def F.slotKp_SHIFT (i : Nat) : Fld := ⟨Reg.slotKp i, 24, 6⟩
def F.slotKp_MANT (i : Nat) : Fld := ⟨Reg.slotKp i, 0, 24⟩

/-- Address of the register (spec/10 R354). -/
def Reg.slotKi (i : Nat) : Nat := RegMap.at1 0x3410010 256 0x40 i
def F.slotKi_SHIFT (i : Nat) : Fld := ⟨Reg.slotKi i, 24, 6⟩
def F.slotKi_MANT (i : Nat) : Fld := ⟨Reg.slotKi i, 0, 24⟩

/-- Address of the register (spec/10 R354). -/
def Reg.slotKi2 (i : Nat) : Nat := RegMap.at1 0x3410014 256 0x40 i
def F.slotKi2_SHIFT (i : Nat) : Fld := ⟨Reg.slotKi2 i, 24, 6⟩
def F.slotKi2_MANT (i : Nat) : Fld := ⟨Reg.slotKi2 i, 0, 24⟩

/-- Address of the register (spec/10 R354). -/
def Reg.slotKph (i : Nat) : Nat := RegMap.at1 0x3410018 256 0x40 i
def F.slotKph_KPH (i : Nat) : Fld := ⟨Reg.slotKph i, 0, 16⟩

/-- Address of the register (spec/10 R354). -/
def Reg.slotJump (i : Nat) : Nat := RegMap.at1 0x341001C 256 0x40 i
def F.slotJump_JUMP_COUNT (i : Nat) : Fld := ⟨Reg.slotJump i, 28, 4⟩
def F.slotJump_JUMP_NS (i : Nat) : Fld := ⟨Reg.slotJump i, 0, 28⟩

/-- Address of the register (spec/10 R354). -/
def Reg.slotStep (i : Nat) : Nat := RegMap.at1 0x3410020 256 0x40 i
def F.slotStep_STEP_NS (i : Nat) : Fld := ⟨Reg.slotStep i, 0, 28⟩

/-- Address of the register (spec/10 R354). -/
def Reg.slotLock (i : Nat) : Nat := RegMap.at1 0x3410024 256 0x40 i
def F.slotLock_LOCK_COUNT (i : Nat) : Fld := ⟨Reg.slotLock i, 28, 4⟩
def F.slotLock_LOCK_PS (i : Nat) : Fld := ⟨Reg.slotLock i, 0, 24⟩

/-- Address of the register (spec/10 R354). -/
def Reg.slotPull (i : Nat) : Nat := RegMap.at1 0x3410028 256 0x40 i
def F.slotPull_PULL_PS_S (i : Nat) : Fld := ⟨Reg.slotPull i, 0, 20⟩

/-- Address of the register (spec/10 R354). -/
def Reg.slotOutlier (i : Nat) : Nat := RegMap.at1 0x341002C 256 0x40 i
def F.slotOutlier_COUNT (i : Nat) : Fld := ⟨Reg.slotOutlier i, 0, 32⟩

/-- Address of the register (spec/10 R354). -/
def Reg.slotStatus (i : Nat) : Nat := RegMap.at1 0x3410030 256 0x40 i
def F.slotStatus_STATE (i : Nat) : Fld := ⟨Reg.slotStatus i, 28, 4⟩
def F.slotStatus_CAUSE (i : Nat) : Fld := ⟨Reg.slotStatus i, 24, 4⟩
def F.slotStatus_READY (i : Nat) : Fld := ⟨Reg.slotStatus i, 23, 1⟩
def F.slotStatus_CLAMPED (i : Nat) : Fld := ⟨Reg.slotStatus i, 22, 1⟩
def F.slotStatus_RECOVERING (i : Nat) : Fld := ⟨Reg.slotStatus i, 21, 1⟩
def F.slotStatus_MAY_STEP (i : Nat) : Fld := ⟨Reg.slotStatus i, 20, 1⟩
def F.slotStatus_SAMPLES (i : Nat) : Fld := ⟨Reg.slotStatus i, 0, 16⟩

/-- Address of the register (spec/10 R354). -/
def Reg.slotLate (i : Nat) : Nat := RegMap.at1 0x3410034 256 0x40 i
def F.slotLate_COUNT (i : Nat) : Fld := ⟨Reg.slotLate i, 0, 32⟩

/-- Address of the register (spec/10 R354). -/
def Reg.slotOfsLo (i : Nat) : Nat := RegMap.at1 0x3410038 256 0x40 i
def F.slotOfsLo_OFS_LO (i : Nat) : Fld := ⟨Reg.slotOfsLo i, 0, 32⟩

/-- Address of the register (spec/10 R354). -/
def Reg.slotOfsHi (i : Nat) : Nat := RegMap.at1 0x341003C 256 0x40 i
def F.slotOfsHi_OFS_HI (i : Nat) : Fld := ⟨Reg.slotOfsHi i, 0, 32⟩

/-- Address of the register (spec/12 R412). -/
def Reg.candCfg (i : Nat) : Nat := RegMap.at1 0x3800000 16 0x20 i
def F.candCfg_EN (i : Nat) : Fld := ⟨Reg.candCfg i, 31, 1⟩
def F.candCfg_TYPE (i : Nat) : Fld := ⟨Reg.candCfg i, 29, 2⟩
def F.candCfg_EDGE (i : Nat) : Fld := ⟨Reg.candCfg i, 28, 1⟩
def F.candCfg_TERM (i : Nat) : Fld := ⟨Reg.candCfg i, 27, 1⟩
def F.candCfg_FORCE_QL (i : Nat) : Fld := ⟨Reg.candCfg i, 26, 1⟩
def F.candCfg_RANK (i : Nat) : Fld := ⟨Reg.candCfg i, 16, 8⟩
def F.candCfg_LANE (i : Nat) : Fld := ⟨Reg.candCfg i, 0, 7⟩

/-- Address of the register (spec/12 R412). -/
def Reg.candNom (i : Nat) : Nat := RegMap.at1 0x3800004 16 0x20 i
def F.candNom_NOM_HZ (i : Nat) : Fld := ⟨Reg.candNom i, 0, 30⟩

/-- Address of the register (spec/12 R412). -/
def Reg.candNomf (i : Nat) : Nat := RegMap.at1 0x3800008 16 0x20 i
def F.candNomf_NOM_FRAC (i : Nat) : Fld := ⟨Reg.candNomf i, 0, 16⟩

/-- Address of the register (spec/12 R412). -/
def Reg.candQual (i : Nat) : Nat := RegMap.at1 0x380000C 16 0x20 i
def F.candQual_QUAL_S (i : Nat) : Fld := ⟨Reg.candQual i, 16, 16⟩
def F.candQual_WTR_S (i : Nat) : Fld := ⟨Reg.candQual i, 0, 16⟩

/-- Address of the register (spec/12 R412). -/
def Reg.candWindow (i : Nat) : Nat := RegMap.at1 0x3800010 16 0x20 i
def F.candWindow_WINDOW_PPB (i : Nat) : Fld := ⟨Reg.candWindow i, 0, 20⟩

/-- Address of the register (spec/12 R412). -/
def Reg.candOffset (i : Nat) : Nat := RegMap.at1 0x3800014 16 0x20 i
def F.candOffset_OFFSET_PS (i : Nat) : Fld := ⟨Reg.candOffset i, 0, 32⟩

/-- Address of the register (spec/12 R412). -/
def Reg.candStatus (i : Nat) : Nat := RegMap.at1 0x3800018 16 0x20 i
def F.candStatus_STATE (i : Nat) : Fld := ⟨Reg.candStatus i, 28, 4⟩
def F.candStatus_LOA (i : Nat) : Fld := ⟨Reg.candStatus i, 27, 1⟩
def F.candStatus_OUT_WINDOW (i : Nat) : Fld := ⟨Reg.candStatus i, 26, 1⟩
def F.candStatus_CFG_ERR (i : Nat) : Fld := ⟨Reg.candStatus i, 25, 1⟩
def F.candStatus_SELECTED (i : Nat) : Fld := ⟨Reg.candStatus i, 20, 4⟩
def F.candStatus_TIMER_S (i : Nat) : Fld := ⟨Reg.candStatus i, 0, 20⟩

/-- Address of the register (spec/12 R412). -/
def Reg.candFreq (i : Nat) : Nat := RegMap.at1 0x380001C 16 0x20 i
def F.candFreq_FREQ (i : Nat) : Fld := ⟨Reg.candFreq i, 0, 32⟩

/-- Address of the register (spec/12 R413). -/
def Reg.dpllCfg (i : Nat) : Nat := RegMap.at1 0x3801000 4 0x100 i
def F.dpllCfg_EN (i : Nat) : Fld := ⟨Reg.dpllCfg i, 31, 1⟩
def F.dpllCfg_OPEN (i : Nat) : Fld := ⟨Reg.dpllCfg i, 30, 1⟩
def F.dpllCfg_SW_SRC (i : Nat) : Fld := ⟨Reg.dpllCfg i, 29, 1⟩
def F.dpllCfg_REVERT (i : Nat) : Fld := ⟨Reg.dpllCfg i, 28, 1⟩
def F.dpllCfg_SEL_MODE (i : Nat) : Fld := ⟨Reg.dpllCfg i, 27, 1⟩
def F.dpllCfg_DAMP (i : Nat) : Fld := ⟨Reg.dpllCfg i, 25, 2⟩

/-- Address of the register (spec/12 R413). -/
def Reg.dpllBw (i : Nat) : Nat := RegMap.at1 0x3801004 4 0x100 i
def F.dpllBw_BW (i : Nat) : Fld := ⟨Reg.dpllBw i, 0, 26⟩

/-- Address of the register (spec/12 R413). -/
def Reg.dpllSlope (i : Nat) : Nat := RegMap.at1 0x3801010 4 0x100 i
def F.dpllSlope_SLOPE (i : Nat) : Fld := ⟨Reg.dpllSlope i, 0, 20⟩

/-- Address of the register (spec/12 R413). -/
def Reg.dpllDispute (i : Nat) : Nat := RegMap.at1 0x3801014 4 0x100 i
def F.dpllDispute_DISPUTE_S (i : Nat) : Fld := ⟨Reg.dpllDispute i, 16, 16⟩
def F.dpllDispute_DISPUTE_CPPB (i : Nat) : Fld := ⟨Reg.dpllDispute i, 0, 16⟩

/-- Address of the register (spec/12 R413). -/
def Reg.dpllHist (i : Nat) : Nat := RegMap.at1 0x3801018 4 0x100 i
def F.dpllHist_AVG_S (i : Nat) : Fld := ⟨Reg.dpllHist i, 16, 16⟩
def F.dpllHist_GUARD_S (i : Nat) : Fld := ⟨Reg.dpllHist i, 8, 8⟩

/-- Address of the register (spec/12 R413). -/
def Reg.dpllAge (i : Nat) : Nat := RegMap.at1 0x380101C 4 0x100 i
def F.dpllAge_AGE (i : Nat) : Fld := ⟨Reg.dpllAge i, 0, 32⟩

/-- Address of the register (spec/12 R413). -/
def Reg.dpllHoY0 (i : Nat) : Nat := RegMap.at1 0x3801020 4 0x100 i
def F.dpllHoY0_Y0 (i : Nat) : Fld := ⟨Reg.dpllHoY0 i, 0, 32⟩

/-- Address of the register (spec/12 R413). -/
def Reg.dpllHoA (i : Nat) : Nat := RegMap.at1 0x3801024 4 0x100 i
def F.dpllHoA_A (i : Nat) : Fld := ⟨Reg.dpllHoA i, 0, 32⟩

/-- Address of the register (spec/12 R413). -/
def Reg.dpllHoSpec (i : Nat) : Nat := RegMap.at1 0x3801028 4 0x100 i
def F.dpllHoSpec_SPEC_NS (i : Nat) : Fld := ⟨Reg.dpllHoSpec i, 0, 32⟩

/-- Address of the register (spec/12 R413). -/
def Reg.dpllStatus (i : Nat) : Nat := RegMap.at1 0x3801030 4 0x100 i
def F.dpllStatus_STATE (i : Nat) : Fld := ⟨Reg.dpllStatus i, 28, 4⟩
def F.dpllStatus_SEL_VALID (i : Nat) : Fld := ⟨Reg.dpllStatus i, 27, 1⟩
def F.dpllStatus_SELECTED (i : Nat) : Fld := ⟨Reg.dpllStatus i, 23, 4⟩
def F.dpllStatus_HIST_VALID (i : Nat) : Fld := ⟨Reg.dpllStatus i, 22, 1⟩
def F.dpllStatus_HO_SPEC_EXCEEDED (i : Nat) : Fld := ⟨Reg.dpllStatus i, 21, 1⟩
def F.dpllStatus_BW_LIMITED (i : Nat) : Fld := ⟨Reg.dpllStatus i, 20, 1⟩
def F.dpllStatus_CLAMPED (i : Nat) : Fld := ⟨Reg.dpllStatus i, 19, 1⟩
def F.dpllStatus_QUEUED (i : Nat) : Fld := ⟨Reg.dpllStatus i, 18, 1⟩
def F.dpllStatus_FORCE (i : Nat) : Fld := ⟨Reg.dpllStatus i, 16, 2⟩
def F.dpllStatus_DISPUTED (i : Nat) : Fld := ⟨Reg.dpllStatus i, 0, 16⟩

/-- Address of the register (spec/12 R413). -/
def Reg.dpllHoTts (i : Nat) : Nat := RegMap.at1 0x380103C 4 0x100 i
def F.dpllHoTts_TTS (i : Nat) : Fld := ⟨Reg.dpllHoTts i, 0, 32⟩

/-- Address of the register (spec/12 R413). -/
def Reg.dpllSwMiss (i : Nat) : Nat := RegMap.at1 0x3801048 4 0x100 i
def F.dpllSwMiss_COUNT (i : Nat) : Fld := ⟨Reg.dpllSwMiss i, 0, 32⟩

/-- Address of the register (spec/12 R413). -/
def Reg.dpllPrioLo (i : Nat) : Nat := RegMap.at1 0x3801008 4 0x100 i
def F.dpllPrioLo_PRIO (i : Nat) : Fld := ⟨Reg.dpllPrioLo i, 0, 32⟩

/-- Address of the register (spec/12 R413). -/
def Reg.dpllPrioHi (i : Nat) : Nat := RegMap.at1 0x380100C 4 0x100 i
def F.dpllPrioHi_PRIO (i : Nat) : Fld := ⟨Reg.dpllPrioHi i, 0, 32⟩

/-- Address of the register (spec/12 R413). -/
def Reg.dpllPhaseLo (i : Nat) : Nat := RegMap.at1 0x3801034 4 0x100 i
def F.dpllPhaseLo_LO (i : Nat) : Fld := ⟨Reg.dpllPhaseLo i, 0, 32⟩

/-- Address of the register (spec/12 R413). -/
def Reg.dpllPhaseHi (i : Nat) : Nat := RegMap.at1 0x3801038 4 0x100 i
def F.dpllPhaseHi_HI (i : Nat) : Fld := ⟨Reg.dpllPhaseHi i, 0, 32⟩

/-- Address of the register (spec/12 R413). -/
def Reg.dpllSwrateLo (i : Nat) : Nat := RegMap.at1 0x3801040 4 0x100 i
def F.dpllSwrateLo_LO (i : Nat) : Fld := ⟨Reg.dpllSwrateLo i, 0, 32⟩

/-- Address of the register (spec/12 R413). -/
def Reg.dpllSwrateHi (i : Nat) : Nat := RegMap.at1 0x3801044 4 0x100 i
def F.dpllSwrateHi_HI (i : Nat) : Fld := ⟨Reg.dpllSwrateHi i, 0, 16⟩

/-- Address of the register (spec/12 R413). -/
def Reg.dpllHistIncrLo (i : Nat) : Nat := RegMap.at1 0x3801050 4 0x100 i
def F.dpllHistIncrLo_LO (i : Nat) : Fld := ⟨Reg.dpllHistIncrLo i, 0, 32⟩

/-- Address of the register (spec/12 R413). -/
def Reg.dpllHistIncrHi (i : Nat) : Nat := RegMap.at1 0x3801054 4 0x100 i
def F.dpllHistIncrHi_HI (i : Nat) : Fld := ⟨Reg.dpllHistIncrHi i, 0, 16⟩

/-- Address of the register (spec/12 R414). -/
def Reg.synCfg (i : Nat) : Nat := RegMap.at1 0x3802000 2 0x40 i
def F.synCfg_EN (i : Nat) : Fld := ⟨Reg.synCfg i, 31, 1⟩
def F.synCfg_UPD (i : Nat) : Fld := ⟨Reg.synCfg i, 30, 1⟩
def F.synCfg_DPLL (i : Nat) : Fld := ⟨Reg.synCfg i, 28, 2⟩
def F.synCfg_FB_INT (i : Nat) : Fld := ⟨Reg.synCfg i, 22, 6⟩

/-- Address of the register (spec/12 R414). -/
def Reg.synFb (i : Nat) : Nat := RegMap.at1 0x3802004 2 0x40 i
def F.synFb_FB_FRAC (i : Nat) : Fld := ⟨Reg.synFb i, 0, 32⟩

/-- Address of the register (spec/12 R414). -/
def Reg.synStatus (i : Nat) : Nat := RegMap.at1 0x3802008 2 0x40 i
def F.synStatus_LOCK (i : Nat) : Fld := ⟨Reg.synStatus i, 31, 1⟩
def F.synStatus_SEARCH (i : Nat) : Fld := ⟨Reg.synStatus i, 30, 1⟩
def F.synStatus_CFG_ERR (i : Nat) : Fld := ⟨Reg.synStatus i, 29, 1⟩
def F.synStatus_HELD (i : Nat) : Fld := ⟨Reg.synStatus i, 28, 1⟩
def F.synStatus_BAND (i : Nat) : Fld := ⟨Reg.synStatus i, 22, 6⟩

/-- Address of the register (spec/12 R414). -/
def Reg.clkout (i : Nat) : Nat := RegMap.at1 0x3803000 12 0x4 i
def F.clkout_EN (i : Nat) : Fld := ⟨Reg.clkout i, 31, 1⟩
def F.clkout_FORMAT (i : Nat) : Fld := ⟨Reg.clkout i, 29, 2⟩
def F.clkout_SYN (i : Nat) : Fld := ⟨Reg.clkout i, 28, 1⟩
def F.clkout_COMP (i : Nat) : Fld := ⟨Reg.clkout i, 27, 1⟩
def F.clkout_SQUELCH (i : Nat) : Fld := ⟨Reg.clkout i, 25, 2⟩
def F.clkout_DIV (i : Nat) : Fld := ⟨Reg.clkout i, 0, 24⟩

/-- Address of the register (spec/13 R436). -/
def Reg.evinCfg (i : Nat) : Nat := RegMap.at1 0x3C00000 16 0x10 i
def F.evinCfg_EN (i : Nat) : Fld := ⟨Reg.evinCfg i, 31, 1⟩
def F.evinCfg_MODE (i : Nat) : Fld := ⟨Reg.evinCfg i, 30, 1⟩
def F.evinCfg_TERM (i : Nat) : Fld := ⟨Reg.evinCfg i, 29, 1⟩
def F.evinCfg_EDGE (i : Nat) : Fld := ⟨Reg.evinCfg i, 28, 1⟩
def F.evinCfg_THRESH (i : Nat) : Fld := ⟨Reg.evinCfg i, 16, 8⟩
def F.evinCfg_HYST (i : Nat) : Fld := ⟨Reg.evinCfg i, 8, 5⟩

/-- Address of the register (spec/13 R436). -/
def Reg.evinHoldoffCfg (i : Nat) : Nat := RegMap.at1 0x3C00004 16 0x10 i
def F.evinHoldoffCfg_HOLDOFF_NS (i : Nat) : Fld := ⟨Reg.evinHoldoffCfg i, 0, 14⟩

/-- Address of the register (spec/13 R436). -/
def Reg.evinHoldoff (i : Nat) : Nat := RegMap.at1 0x3C00008 16 0x10 i
def F.evinHoldoff_COUNT (i : Nat) : Fld := ⟨Reg.evinHoldoff i, 0, 32⟩

/-- Address of the register (spec/13 R437). -/
def Reg.imCfg (i : Nat) : Nat := RegMap.at1 0x3C01000 32 0x20 i
def F.imCfg_EN (i : Nat) : Fld := ⟨Reg.imCfg i, 31, 1⟩
def F.imCfg_PRE_STOP (i : Nat) : Fld := ⟨Reg.imCfg i, 30, 1⟩
def F.imCfg_TB (i : Nat) : Fld := ⟨Reg.imCfg i, 28, 2⟩
def F.imCfg_NSTOP (i : Nat) : Fld := ⟨Reg.imCfg i, 24, 4⟩
def F.imCfg_START (i : Nat) : Fld := ⟨Reg.imCfg i, 16, 5⟩

/-- Address of the register (spec/13 R437). -/
def Reg.imStopsLo (i : Nat) : Nat := RegMap.at1 0x3C01004 32 0x20 i
def F.imStopsLo_STOP3 (i : Nat) : Fld := ⟨Reg.imStopsLo i, 24, 5⟩
def F.imStopsLo_STOP2 (i : Nat) : Fld := ⟨Reg.imStopsLo i, 16, 5⟩
def F.imStopsLo_STOP1 (i : Nat) : Fld := ⟨Reg.imStopsLo i, 8, 5⟩
def F.imStopsLo_STOP0 (i : Nat) : Fld := ⟨Reg.imStopsLo i, 0, 5⟩

/-- Address of the register (spec/13 R437). -/
def Reg.imStopsHi (i : Nat) : Nat := RegMap.at1 0x3C01008 32 0x20 i
def F.imStopsHi_STOP7 (i : Nat) : Fld := ⟨Reg.imStopsHi i, 24, 5⟩
def F.imStopsHi_STOP6 (i : Nat) : Fld := ⟨Reg.imStopsHi i, 16, 5⟩
def F.imStopsHi_STOP5 (i : Nat) : Fld := ⟨Reg.imStopsHi i, 8, 5⟩
def F.imStopsHi_STOP4 (i : Nat) : Fld := ⟨Reg.imStopsHi i, 0, 5⟩

/-- Address of the register (spec/13 R437). -/
def Reg.imWindow (i : Nat) : Nat := RegMap.at1 0x3C0100C 32 0x20 i
def F.imWindow_WINDOW_NS (i : Nat) : Fld := ⟨Reg.imWindow i, 0, 32⟩

/-- Address of the register (spec/13 R438). -/
def Reg.fmCfg (i : Nat) : Nat := RegMap.at1 0x3C02000 16 0x20 i
def F.fmCfg_EN (i : Nat) : Fld := ⟨Reg.fmCfg i, 31, 1⟩
def F.fmCfg_TB (i : Nat) : Fld := ⟨Reg.fmCfg i, 29, 2⟩
def F.fmCfg_SRC (i : Nat) : Fld := ⟨Reg.fmCfg i, 24, 5⟩
def F.fmCfg_PRESCALE (i : Nat) : Fld := ⟨Reg.fmCfg i, 19, 5⟩

/-- Address of the register (spec/13 R438). -/
def Reg.fmGate (i : Nat) : Nat := RegMap.at1 0x3C02004 16 0x20 i
def F.fmGate_GATE_MS (i : Nat) : Fld := ⟨Reg.fmGate i, 0, 11⟩

/-- Address of the register (spec/13 R438). -/
def Reg.fmStatus (i : Nat) : Nat := RegMap.at1 0x3C02008 16 0x20 i
def F.fmStatus_RUNNING (i : Nat) : Fld := ⟨Reg.fmStatus i, 31, 1⟩
def F.fmStatus_LONG (i : Nat) : Fld := ⟨Reg.fmStatus i, 30, 1⟩

/-- Address of the register (spec/13 R438). -/
def Reg.fmSkipped (i : Nat) : Nat := RegMap.at1 0x3C0200C 16 0x20 i
def F.fmSkipped_COUNT (i : Nat) : Fld := ⟨Reg.fmSkipped i, 0, 32⟩

/-- Address of the register (spec/13 R438). -/
def Reg.fmAbandoned (i : Nat) : Nat := RegMap.at1 0x3C02010 16 0x20 i
def F.fmAbandoned_COUNT (i : Nat) : Fld := ⟨Reg.fmAbandoned i, 0, 32⟩

/-- Address of the register (spec/13 R439). -/
def Reg.evoutCfg (i : Nat) : Nat := RegMap.at1 0x3C03000 16 0x40 i
def F.evoutCfg_EN (i : Nat) : Fld := ⟨Reg.evoutCfg i, 31, 1⟩
def F.evoutCfg_POL (i : Nat) : Fld := ⟨Reg.evoutCfg i, 30, 1⟩
def F.evoutCfg_DRIVE (i : Nat) : Fld := ⟨Reg.evoutCfg i, 29, 1⟩
def F.evoutCfg_ADVANCE (i : Nat) : Fld := ⟨Reg.evoutCfg i, 28, 1⟩
def F.evoutCfg_TB (i : Nat) : Fld := ⟨Reg.evoutCfg i, 26, 2⟩
def F.evoutCfg_LOAD (i : Nat) : Fld := ⟨Reg.evoutCfg i, 25, 1⟩

/-- Address of the register (spec/13 R439). -/
def Reg.evoutStartFrac (i : Nat) : Nat := RegMap.at1 0x3C03004 16 0x40 i
def F.evoutStartFrac_FRAC (i : Nat) : Fld := ⟨Reg.evoutStartFrac i, 0, 16⟩

/-- Address of the register (spec/13 R439). -/
def Reg.evoutStartNs (i : Nat) : Nat := RegMap.at1 0x3C03008 16 0x40 i
def F.evoutStartNs_NS (i : Nat) : Fld := ⟨Reg.evoutStartNs i, 0, 30⟩

/-- Address of the register (spec/13 R439). -/
def Reg.evoutStartSecLo (i : Nat) : Nat := RegMap.at1 0x3C0300C 16 0x40 i
def F.evoutStartSecLo_SEC_LO (i : Nat) : Fld := ⟨Reg.evoutStartSecLo i, 0, 32⟩

/-- Address of the register (spec/13 R439). -/
def Reg.evoutStartSecHi (i : Nat) : Nat := RegMap.at1 0x3C03010 16 0x40 i
def F.evoutStartSecHi_SEC_HI (i : Nat) : Fld := ⟨Reg.evoutStartSecHi i, 0, 16⟩

/-- Address of the register (spec/13 R439). -/
def Reg.evoutPeriodNs (i : Nat) : Nat := RegMap.at1 0x3C03014 16 0x40 i
def F.evoutPeriodNs_NS (i : Nat) : Fld := ⟨Reg.evoutPeriodNs i, 0, 32⟩

/-- Address of the register (spec/13 R439). -/
def Reg.evoutPeriodFrac (i : Nat) : Nat := RegMap.at1 0x3C03018 16 0x40 i
def F.evoutPeriodFrac_FRAC (i : Nat) : Fld := ⟨Reg.evoutPeriodFrac i, 0, 16⟩

/-- Address of the register (spec/13 R439). -/
def Reg.evoutWidth (i : Nat) : Nat := RegMap.at1 0x3C0301C 16 0x40 i
def F.evoutWidth_WIDTH_NS (i : Nat) : Fld := ⟨Reg.evoutWidth i, 0, 32⟩

/-- Address of the register (spec/13 R439). -/
def Reg.evoutCount (i : Nat) : Nat := RegMap.at1 0x3C03020 16 0x40 i
def F.evoutCount_COUNT (i : Nat) : Fld := ⟨Reg.evoutCount i, 0, 32⟩

/-- Address of the register (spec/13 R439). -/
def Reg.evoutStatus (i : Nat) : Nat := RegMap.at1 0x3C03024 16 0x40 i
def F.evoutStatus_ACTIVE (i : Nat) : Fld := ⟨Reg.evoutStatus i, 31, 1⟩
def F.evoutStatus_CFG_ERR (i : Nat) : Fld := ⟨Reg.evoutStatus i, 30, 1⟩

/-- Address of the register (spec/13 R439). -/
def Reg.evoutSkipped (i : Nat) : Nat := RegMap.at1 0x3C03028 16 0x40 i
def F.evoutSkipped_COUNT (i : Nat) : Fld := ⟨Reg.evoutSkipped i, 0, 32⟩

/-- Address of the register (spec/13 R440). -/
def Reg.measLost (i : Nat) : Nat := RegMap.at1 0x3C04000 32 0x4 i
def F.measLost_COUNT (i : Nat) : Fld := ⟨Reg.measLost i, 0, 32⟩

/-- Address of the register (spec/14 R456). -/
def Reg.redundCfg : Nat := 0x3E00000
def F.redundCfg_BOARD_EN : Fld := ⟨Reg.redundCfg, 31, 1⟩
def F.redundCfg_BOARD_PRIMARY : Fld := ⟨Reg.redundCfg, 30, 1⟩
def F.redundCfg_AUTO_RESYNC : Fld := ⟨Reg.redundCfg, 29, 1⟩
def F.redundCfg_COMPARE : Fld := ⟨Reg.redundCfg, 28, 1⟩
def F.redundCfg_SINGLE_PATH : Fld := ⟨Reg.redundCfg, 27, 1⟩
def F.redundCfg_BOOT_HOLDER : Fld := ⟨Reg.redundCfg, 26, 1⟩
def F.redundCfg_BOARD_WAIT : Fld := ⟨Reg.redundCfg, 0, 8⟩

/-- Address of the register (spec/14 R456). -/
def Reg.redundStatus : Nat := 0x3E00004
def F.redundStatus_HOLDER : Fld := ⟨Reg.redundStatus, 31, 1⟩
def F.redundStatus_HOLD : Fld := ⟨Reg.redundStatus, 30, 1⟩
def F.redundStatus_UNATTENDED : Fld := ⟨Reg.redundStatus, 29, 1⟩
def F.redundStatus_ARB_FAULT : Fld := ⟨Reg.redundStatus, 28, 1⟩
def F.redundStatus_BOARD_HOLD : Fld := ⟨Reg.redundStatus, 27, 1⟩
def F.redundStatus_PEER : Fld := ⟨Reg.redundStatus, 26, 1⟩
def F.redundStatus_VER_MIXED : Fld := ⟨Reg.redundStatus, 25, 1⟩
def F.redundStatus_CORE1_STATE : Fld := ⟨Reg.redundStatus, 20, 4⟩
def F.redundStatus_CORE0_STATE : Fld := ⟨Reg.redundStatus, 16, 4⟩

/-- Address of the register (spec/14 R457). -/
def Reg.redundHb : Nat := 0x3E00008
def F.redundHb_FAULTED : Fld := ⟨Reg.redundHb, 4, 4⟩
def F.redundHb_MISSING : Fld := ⟨Reg.redundHb, 0, 4⟩

/-- Address of the register (spec/14 R457). -/
def Reg.redundShared : Nat := 0x3E0000C
def F.redundShared_EVOUT : Fld := ⟨Reg.redundShared, 12, 15⟩
def F.redundShared_CLKOUT : Fld := ⟨Reg.redundShared, 0, 12⟩

/-- Address of the register (spec/14 R458). -/
def Reg.redundCnt (i : Nat) : Nat := RegMap.at1 0x3E00010 5 0x4 i
def F.redundCnt_COUNT (i : Nat) : Fld := ⟨Reg.redundCnt i, 0, 32⟩

/-- Address of the register (spec/15 R459). -/
def Reg.msixAddrLo (i : Nat) : Nat := RegMap.at1 0x108000 256 0x10 i
def F.msixAddrLo_ADDR_LO (i : Nat) : Fld := ⟨Reg.msixAddrLo i, 0, 32⟩

/-- Address of the register (spec/15 R459). -/
def Reg.msixAddrHi (i : Nat) : Nat := RegMap.at1 0x108004 256 0x10 i
def F.msixAddrHi_ADDR_HI (i : Nat) : Fld := ⟨Reg.msixAddrHi i, 0, 32⟩

/-- Address of the register (spec/15 R459). -/
def Reg.msixData (i : Nat) : Nat := RegMap.at1 0x108008 256 0x10 i
def F.msixData_DATA (i : Nat) : Fld := ⟨Reg.msixData i, 0, 32⟩

/-- Address of the register (spec/15 R459). -/
def Reg.msixCtrl (i : Nat) : Nat := RegMap.at1 0x10800C 256 0x10 i
def F.msixCtrl_MASK (i : Nat) : Fld := ⟨Reg.msixCtrl i, 0, 1⟩

/-- Address of the register (spec/15 R459). -/
def Reg.msixPba (i : Nat) : Nat := RegMap.at1 0x109000 8 0x4 i
def F.msixPba_PENDING (i : Nat) : Fld := ⟨Reg.msixPba i, 0, 32⟩

end Sys2Proof.Machine
end

