-- ==== Sys2Proof/Machine/State.lean ====
section
/-!
DEFINITION. Sys2Proof/Machine/State.lean: everything the spec gives the block, as plain data: the BAR0 registers in one
sparse table (`regs`, keyed by byte address; an unlisted register holds its reset value), and, in one structure a
block of the device, the state that no register shows. Register names and reset values stand in Machine/RegMap.lean.
-/
namespace Sys2Proof.Machine

/-- Why the block stops. (DESIGN CHOICE, log entry 49) -/
inductive Fault where
  /-- Raised by the commands whose operand has a range that its type does not bound (`WellFormed`): the power-up steps
  and rails. Safe: a well-formed command never raises it. -/
  | illFormed
  deriving DecidableEq, Repr

/-- Why the model gives a command no meaning. -/
inductive Refusal where
  /-- Raised by an arm of `exec` whose command has no meaning in this model, by the command's name. Safe. -/
  | notModelled (mnemonic : String)
  deriving DecidableEq, Repr

/-- The power state the device is in (spec/03 R100); VAULT-ONLY is `aon = false`. -/
inductive PState where
  | normal
  | quiet
  | standby
  deriving DecidableEq, Repr

/-- How far a POWER_STATE_SET has come (spec/03 R101, R102): waiting for long operations, waiting for the boundary
it begins at, draining queued frames, or waiting for the boundary that resumes admission. -/
inductive TransPhase where
  | waitOps
  | begin
  | drain
  deriving DecidableEq, Repr

/-- A watchdog (R98, spec/16 R508): ticks it had counted at tick `since`, from which it counts on or is frozen. -/
structure Dog where
  ran : Nat := 0
  since : Nat := 0
  deriving DecidableEq, Repr

/-- A POWER_STATE_SET in progress (spec/03 R101). -/
structure Trans where
  /-- Tick at which its drain began (R102). -/
  since : Nat := 0
  cmd : Nat
  old : PState
  target : PState
  railsOff : Bool
  drainMs : Nat
  keep : BitVec 128
  wake : Option Stamp
  phase : TransPhase
  /-- Handles of the operations that are to end first. -/
  ops : List (BitVec 32) := []
  discarded : Nat := 0
  deriving DecidableEq, Repr

/-- A supply dip in progress (spec/03 R106, R107): rails below warning so far, rails below warning now (R110), lowest sample of each rail
in mV, TCNT0 and the tick at entry, beats it has touched, whether DIP_LONG has been raised. -/
structure Dip where
  rails : BitVec 9
  below : BitVec 9
  lows : List (Nat × Nat)
  start : Stamp
  /-- The start in the present time of TCNT0, which a step since has moved (R313). -/
  since : Stamp
  startTick : Nat
  beats : Nat := 1
  long : Bool := false
  deriving DecidableEq, Repr

/-- The generation of a PROFILE_APPLY that waits for its commit (spec/03 R90): the operation's handle, the pipeline, what the profile holds for
it, and the boundaries that have deferred it. -/
structure ProfCommit where
  handle : BitVec 32
  pipe : Nat
  gen : ProfGen
  defers : Nat := 0
  deriving DecidableEq, Repr

/-- Power, reset and boot state that no register shows (spec/02, spec/03). -/
structure PowerSt where
  /-- VDD_AON is present: the island runs (spec/03 R80). -/
  aon : Bool := true
  /-- The tick PLL has locked since the island reset (spec/03 R81). -/
  pllLocked : Bool := false
  /-- OSC_IN is lost and the tick PLL holds (spec/02 R68). -/
  oscHeld : Bool := false
  /-- Output MAIN_PWR_EN (spec/02 R60). -/
  mainPwrEn : Bool := false
  /-- A power-up attempt has failed, and the next one follows after 1 s (spec/02 R61). -/
  retryDue : Bool := false
  /-- The output THERMTRIP_N is latched (spec/02 R76). -/
  therm : Bool := false
  /-- The main domain is in reset (spec/03 R80), and its release is due 2 ms after the cause has ended (R91). -/
  mainReset : Bool := true
  armed : Bool := false
  /-- Tick at which the last main reset was released (spec/03 R84). -/
  releaseTick : Nat := 0
  /-- `GLOBAL_RESET_CAUSE` at stage 1 (spec/03 R84). -/
  causeAtBoot : Word := 0
  /-- The island has been reset and no profile's class A values have been applied since (spec/03 R87). -/
  firstBoot : Bool := true
  /-- Stage 6 reached: beat-scheduled work of the main domain runs (spec/03 R83). -/
  joined : Bool := false
  /-- The profile last applied; a domain reset restores its class B values (spec/03 R90). -/
  active : Profile := {}
  /-- Settings of the PCIe endpoint and of the QSPI clock, from the boot profile (spec/03 R90). -/
  mainSet : List Word := []
  /-- Profiles of the PROFILE_APPLY operations, by handle (spec/03 R89). -/
  applyProf : List (BitVec 32 × Profile) := []
  /-- Their generations that are yet to be committed (spec/03 R90). -/
  profGens : List ProfCommit := []
  /-- The recovery stage's and the bad profile's hold on ALARM_N, and the long dip's (spec/03 R82, R88, R108). -/
  alarmBoot : Bool := false
  alarmDip : Bool := false
  /-- A soft chip reset waits for the next boundary (spec/03 R93, R94). -/
  softPending : Bool := false
  /-- The power state, the ports kept in QUIET, the wake time of STANDBY and whether its rails go off. -/
  pstate : PState := .normal
  keep : BitVec 128 := 0
  wake : Option Stamp := none
  railsOff : Bool := false
  /-- The wake time had passed when the main domain was held in reset: STANDBY ends at the next boundary (R101). -/
  wakePassed : Bool := false
  /-- A POWER_STATE_SET in progress. -/
  trans : Option Trans := none
  /-- A supply dip in progress; start and end of the last one that has ended, in TCNT0 time; the present beat overlaps one. -/
  dip : Option Dip := none
  lastDip : Option (Nat × Nat) := none
  dipBeat : Bool := false
  /-- The source and the tick of a first kick write 0xA5C3 (spec/03 R98). -/
  kick : Option (WrSrc × Nat) := none
  /-- The last reading of the island's temperature sensor, in 0.0625 °C (spec/02 R75). -/
  islandTemp : BitVec 16 := 0
  /-- Tick of the last completed kick, or of the watchdog's enabling. -/
  wdtTick : Nat := 0
  dog : Dog := {}
  deriving DecidableEq, Repr

/-- Where the coefficients of a lane's transmitter and receiver stand (spec/04 R129, R131). -/
inductive Coef where
  | preset (p : BitVec 4)
  | adapted
  deriving DecidableEq, Repr

/-- A run of equal symbols on a line: its level and its length (spec/04 R121). -/
abbrev Run := Fin 4 × Nat

/-- What a KL transmitter holds (spec/04 R119 to R125): SBIDX of the next superblock, superframe number, stamp of superblock 0 of
this superframe and of the last marker sent, frames with their prefixes that wait, as bits, the first perhaps partly sent, message bits
of the codeword in progress, parity bits still to send, the run on the line. -/
structure KlTx where
  idx : Nat := 0
  number : BitVec 16 := 0
  first : Stamp := 0
  last : Stamp := 0
  queue : List (List Bool) := []
  part : Bool := false
  word : List Bool := []
  parity : List Bool := []
  run : Run := (0, 0)
  deriving DecidableEq, Repr

/-- A frame that a KL receiver has found (spec/04 R124): its prefix, its bytes, the prefix after it, and whether a codeword that carried a
part of it was uncorrectable. -/
structure KlFrame where
  lead : BitVec 32
  bytes : List Byte
  after : BitVec 32 := 0
  hit : Bool := false
  deriving DecidableEq, Repr

/-- What a KL receiver holds (spec/04 R119 to R126, R129, R133): SBIDX expected of the next marker, good and bad markers in a row, TIME
words of this superframe (bit k), whether a whole time sequence has come since the receiver lost lock, frame delineation, and the
stamp of the last good marker. -/
structure KlRx where
  idx : Option Nat := none
  good : Nat := 0
  bad : Nat := 0
  /-- Four good markers in a row have come, and not four bad ones since (R129, R133). -/
  lock : Bool := false
  words : BitVec 4 := 0
  timed : Bool := false
  delin : Bool := false
  last : Stamp := 0
  /-- The run on the line (R121). -/
  run : Run := (0, 0)
  /-- The bits of the codeword in progress, and the place of its first bit in the superframe's payload (R123). -/
  base : Option Nat := none
  word : List Bool := []
  /-- FPTR of superblocks whose data has not come yet; bits to pass over where the delineation begins. -/
  fptr : Tab Nat := []
  skip : Nat := 0
  /-- The delineation has begun anew and no prefix has been read since (R123). -/
  first : Bool := false
  /-- Descrambled bits not yet cut, each with the verdict on its codeword; a frame that waits for the prefix after it; frames that the port
  has still to take, oldest first (R124). -/
  bits : List (Bool × Bool) := []
  pend : Option KlFrame := none
  frames : List KlFrame := []
  deriving DecidableEq, Repr

/-- What the transmitter of a lane drives onto its balls (spec/04 R128, R138, R139, R141): nothing, electrical idle, the training pattern,
idle or idle fill, traffic, a test pattern (R151), or the partner's own data. -/
inductive Drive where
  | off
  | electricalIdle
  | training
  | fill
  | traffic
  | pattern (code : Nat)
  | far
  deriving DecidableEq, Repr

/-- A lane, and in a port's first lane its link state machine (spec/04); the state code stands in `LANE[n]_STATUS`. -/
structure LaneSt where
  /-- Last back-off begun, in seconds; 0 before the first (R130). -/
  backoff : Nat := 0
  /-- Relock tries that have failed (R133). -/
  tries : Nat := 0
  /-- Tick of the last transition (R145 DWELL_MS). -/
  enterTick : Nat := 0
  /-- Tick at which the port last left DETECT (R130). -/
  attemptTick : Nat := 0
  coef : Coef := .preset 1
  /-- Preset recorded at the lane's last successful KL training (R129). -/
  klPreset : Option (BitVec 4) := none
  /-- LANE_FOM_LOW has been raised and CODE has not risen to WARN + 4 since (R137). -/
  fomLow : Bool := false
  /-- The quarantined transmitter sends PRBS31 (R141). -/
  quarPrbs : Bool := false
  /-- Lanes that the port had when it was placed in QUARANTINE; 0 outside it (R141). -/
  quarWidth : Nat := 0
  /-- An exit from L1 or L2 is under way, or a microcode load has ended (R138, R142). -/
  exiting : Bool := false
  /-- A KL port announces L1 in its markers, and enters it at the end of the superframe (R138). -/
  l1Announce : Bool := false
  /-- A superframe with the L1 flag has begun (R138). -/
  l1Sent : Bool := false
  /-- The partner has announced L1 (R138). -/
  partnerL1 : Bool := false
  tx : KlTx := {}
  rx : KlRx := {}
  /-- Seconds of the back-off that the port waits in NO_PARTNER (R130, R148). -/
  wait : Nat := 0
  /-- Registers of the lane's pattern generator and checker, newest bit first (R140). -/
  gen : List Bool := []
  chk : List Bool := []
  /-- Symbols that a near-end loop takes from the transmitter to the receiver (R139): up to the end of each marker, the last list being that
  of a payload whose marker has not been sent. -/
  looped : List (List (Fin 4)) := []
  /-- Settings that the lane of a quarantined port keeps until its release, `LANE_CFG` and `LANE_GRP` (R141). -/
  quarCfg : Option (Word × Word) := none
  deriving DecidableEq, Repr

/-- What the engine needs when a message of its own leaves (spec/10 R328): the session, the boundary at which it was enabled, its
settings, messageType, sequenceId, the place of the PTP header, and for an answer the request's correctionField, receive stamp and
source. -/
structure PtpNote where
  sess : Nat
  start : Nat
  cfg : BitVec 768
  mtype : Nat
  seq : BitVec 16
  off : Nat
  corr : Int := 0
  recv : Int := 0
  who : List Byte := []
  deriving DecidableEq, Repr

/-- A frame that the port originates itself, without its FCS (spec/05 R179): a KL report, or a PTP message. -/
structure OwnMsg where
  bytes : List Byte
  note : Option PtpNote := none
  deriving DecidableEq, Repr

/-- Pause state of a port that no register shows (spec/05 R160 to R164). In PAUSE mode the port's one timer is that of
priority 0. -/
structure MacSt where
  /-- Tick at which the received pause of a priority runs out; 0 none. -/
  pauseEnd : Tab Nat := []
  /-- Tick from which a priority has been stopped without a break, and tick of the last pause frame for an ignored one (R164). -/
  stopTick : Tab Nat := []
  pauseTick : Tab Nat := []
  /-- Priorities whose received pause is ignored during a storm. -/
  ignore : BitVec 8 := 0
  /-- Classes whose ingress account requests XOFF (spec/08 R255). -/
  xoff : BitVec 16 := 0
  /-- Tick after that at which the first class was stopped; 0 while none is (counter 36). -/
  stopFrom : Nat := 0
  /-- Tick at which the last XOFF frame of a priority left (R162). -/
  xoffTick : Tab Nat := []
  /-- MAC control frames that wait for the end of the frame in progress (R162). -/
  ctrl : List (List Byte) := []
  /-- Frames of the port's own in TC15 that wait (R179, spec/10 R328, R332), and the one being sent. -/
  own : List OwnMsg := []
  sending : Option OwnMsg := none
  deriving DecidableEq, Repr

/-- A module access waiting for its bus or in progress (spec/05 R170): the command's id, and the NACKs it has met. -/
structure I2cXfer where
  id : Nat
  src : Src
  slot : Nat
  write : Bool
  bank : Nat
  page : Nat
  offset : Nat
  len : Nat
  addr : Nat
  data : Nat
  nacks : Nat := 0
  /-- Tick up to which it waits RETRY_MS after a NACK. -/
  retryAt : Option Nat := none
  deriving DecidableEq, Repr

/-- A transaction on a module bus (spec/05 R169): the slot selected, the bytes written, the first one the offset, and how many bytes
are then read. -/
structure I2cMsg where
  slot : Nat
  bytes : List Byte
  read : Nat := 0
  deriving DecidableEq, Repr

/-- One module bus: the slot whose ModSelL is asserted, its accesses, the one in progress first, and what has gone over it, newest
first. -/
structure BusSt where
  sel : Option Nat := none
  xfers : List I2cXfer := []
  msgs : List I2cMsg := []
  deriving DecidableEq, Repr

/-- One module slot: the bank and page last written to it, the outputs applied by the last chain scan, the inputs it
read, and how often IntL has read low in a row (spec/05 R169, R172). -/
structure SlotIo where
  bank : Option Nat := none
  page : Option Nat := none
  out : BitVec 4 := 0
  inp : BitVec 4 := 0xF
  intLow : Nat := 0
  /-- MOD_INT has been raised and IntL has not read high since. -/
  intHeld : Bool := false
  deriving DecidableEq, Repr

/-- A STATS_SNAPSHOT waiting for its boundary (spec/05 R167): the command's id, the ports, the boundary it names. -/
structure SnapWait where
  id : Nat
  ports : BitVec 128
  name : Option Nat
  addr : Nat
  deferred : Bool := false
  deriving DecidableEq, Repr

/-- A snapshot on its way to host memory: the command's id, the buffer address and the buffer's bytes as a number. -/
structure SnapXfer where
  id : Nat
  src : Src
  addr : Nat
  len : Nat
  data : Nat
  deriving DecidableEq, Repr

/-- Ports, modules and snapshots (spec/05). -/
structure PortsSt where
  mac : Tab MacSt := []
  /-- Committed station addresses of ports that no longer use the fused one (R179). -/
  sa : Tab Nat := []
  bus : Tab BusSt := []
  slot : Tab SlotIo := []
  snap : Option SnapWait := none
  xfer : Option SnapXfer := none
  deriving DecidableEq, Repr

/-- What a port puts on its line: a frame with what stands before it and the idle bytes after it (spec/05 R155), a KL superblock, what
a far-end loop sends back (spec/04 R139), the idle that ends a preamble without an SFD (spec/05 R159), bits of a lane's test pattern
(spec/04 R140). (DESIGN CHOICE, log entry 4) -/
inductive LineOut where
  | frame (port : Nat) (lead bytes : List Byte) (gap : Nat)
  | superblock (lane idx : Nat) (marker : BitVec 64) (time : Stamp) (symbols : List (Fin 4))
  | far (port : Nat) (bits : List Bool)
  | abort (port : Nat)
  | pattern (lane : Nat) (bits : List Bool)
  deriving DecidableEq, Repr

/-- A TCAM entry (spec/06 R193, R199). View bit 0 is PENDING, 1 ACTIVE, 2 DRAINING, in the order of VIEW (R210). -/
structure TcamEntry where
  value : BitVec 640 := 0
  mask : BitVec 640 := 0
  action : BitVec 64 := 0
  prio : BitVec 13 := 0
  view : BitVec 3 := 0
  hits : Nat := 0
  deriving DecidableEq, Repr

/-- A pattern entry (spec/06 R191, R199); byte 0 is bits 7:0. -/
structure PatEntry where
  bytes : BitVec 256 := 0
  mask : BitVec 256 := 0
  len : Nat := 0
  floating : Bool := false
  base : Nat := 0
  tag : Nat := 0
  start : Nat := 0
  stop : Nat := 0
  view : BitVec 3 := 0
  deriving DecidableEq, Repr

/-- A fragment record (spec/06 R203): its key, the decision of the first fragment, the tick of its last use. -/
structure FragRec where
  key : Nat
  action : BitVec 64
  cls : Nat
  meas : Bool
  used : Nat := 0
  deriving DecidableEq, Repr

/-- A GEN_COMMIT waiting for its boundary (spec/06 R201): the command's id, the pipelines still to commit, those that have
committed, the boundary it names, its deferrals. -/
structure CommitWait where
  id : Nat
  pipes : List Nat
  done : List Nat := []
  name : Option Nat
  allOrNone : Bool
  defers : Nat := 0
  beat : Nat := 0
  ids : Nat := 0
  deriving DecidableEq, Repr

/-- Parser and classifier of one pipeline (spec/06). -/
structure ParserSt where
  tcam : Tab TcamEntry := []
  pats : Tab PatEntry := []
  /-- Default action of the views PENDING, ACTIVE, DRAINING, and its hit counter. -/
  defPend : BitVec 64 := 0
  defAct : BitVec 64 := 0
  defDrain : BitVec 64 := 0
  defHits : Nat := 0
  /-- Parse program of each view; `none` is the default program of the firmware (R182). -/
  progPend : Option ParseProg := none
  progAct : Option ParseProg := none
  progDrain : Option ParseProg := none
  /-- Fragment records, keyed by set × 4 + way. -/
  frags : Tab FragRec := []
  /-- FRAG_FULL has been raised and USED has not fallen below 1,024 since (R204). -/
  fragFull : Bool := false
  /-- Tick of the boundary of the last commit (R206 DRAIN_NS). -/
  commitTick : Nat := 0
  deriving DecidableEq, Repr

/-- A record of a generational table (spec/07 R212): window words 0 to 5, word 0 lowest, and its view bits. -/
structure Rec where
  words : BitVec 192 := 0
  view : BitVec 3 := 0
  deriving DecidableEq, Repr

/-- A MAC entry (spec/07 R218, R223, R239); it is static when a view bit is set, learned otherwise. -/
structure MacEntry where
  mac : BitVec 48 := 0
  bd : BitVec 14 := 0
  mc : Bool := false
  dest : BitVec 14 := 0
  view : BitVec 3 := 0
  hit : Bool := false
  age : Nat := 0
  learnBeat : BitVec 32 := 0
  confBeat : BitVec 32 := 0
  deriving DecidableEq, Repr

/-- A request queued in a learn unit (spec/07 R225, R229, R232). -/
structure LearnReq where
  mac : BitVec 48
  bd : BitVec 14
  mc : Bool := false
  dest : BitVec 14
  /-- The tick at which it arrives, less 2 (R229). -/
  due : Nat := 0
  deriving DecidableEq, Repr

/-- The flaps of the present beat (spec/07 R228): the first one's pinned and other port, address and BD, and their number. -/
structure Flap where
  pinned : Nat
  other : Nat
  mac : BitVec 48
  bd : BitVec 14
  count : Nat
  deriving DecidableEq, Repr

/-- Forwarding tables and learn unit of one pipeline (spec/07). -/
structure FwdSt where
  /-- Exact match, next hop, group: keyed by index × 2 + slot; replication elements by index. -/
  em : Tab Rec := []
  nh : Tab Rec := []
  grp : Tab Rec := []
  rep : Tab Rec := []
  /-- LPM entries by their first slot; an IPv6 entry takes the next slot too (R215, R217). -/
  lpm : Tab Rec := []
  /-- MAC entries, keyed by window index (R218). -/
  mac : Tab MacEntry := []
  queue : List LearnReq := []
  /-- MAC_TABLE_FULL has been raised and no entry removed since (R226). -/
  fullRaised : Bool := false
  /-- Tick from which the learn unit may serve again (R226). -/
  busyTo : Nat := 0
  /-- LEARN_LIMIT has been raised for port i, and COUNT has not fallen below LIMIT since (R227). -/
  limitRaised : Tab Bool := []
  flap : Option Flap := none
  deriving DecidableEq, Repr

/-- One pipeline: its parser and its tables. -/
structure PipeSt where
  parser : ParserSt := {}
  fwd : FwdSt := {}
  deriving DecidableEq, Repr

/-- A TABLE_BULK (spec/07 R232): the records that are still to be loaded, or the first index that a dump has yet to read. -/
structure BulkJob where
  handle : BitVec 32
  records : List BulkRec
  next : Nat := 0
  deriving DecidableEq, Repr

/-- A MAC_FLUSH whose scans run (spec/07 R231): the command's id and the number of entries removed. -/
structure FlushJob where
  id : Nat
  removed : Nat
  deriving DecidableEq, Repr

/-- The four pipelines (spec/06, spec/07). -/
structure PipesSt where
  pipe : Tab PipeSt := []
  commits : List CommitWait := []
  bulk : List BulkJob := []
  flush : List FlushJob := []
  deriving DecidableEq, Repr

/-- The registers whose values at its parser entry decide a frame (spec/06 R197). -/
structure ParserCfg where
  parse : Word := 0
  tcDef : Word := 0
  pcpMap : Word := 0
  frag : Word := 0
  deriving DecidableEq, Repr

/-- Where a cell is: on die; on die until its write to a stack has been done; in stack `stack`. `hr` says that it is held in the headroom
region (spec/08 R260, R262). -/
inductive Loc where
  | die
  | wait (hr : Bool)
  | deep (stack : Nat) (hr : Bool)
  deriving DecidableEq, Repr

/-- A frame in the device (spec/08 R241): its descriptor and its bytes from the destination address, FCS included, cut at
MAX_FRAME. -/
structure Frame where
  id : Nat
  /-- Ingress port; for a host frame without VIA_PIPE the egress port. -/
  port : Nat
  bytes : List Byte
  /-- Length of the whole frame as received. -/
  len : Nat
  stamp : Stamp
  beat : BitVec 32
  gen : BitVec 8
  /-- ERR_FLAGS of R157 (spec/05). -/
  flags : BitVec 16
  /-- PARSE_CFG, TC_DEF, PCP_MAP and FRAG_CFG of the pipeline as the frame entered it (spec/06 R197). -/
  cfg : ParserCfg := {}
  cls : Nat := 0
  action : BitVec 64 := 0
  /-- A measurement frame (spec/05 R158, spec/06 R203). -/
  meas : Bool := false
  stepSpan : Bool := false
  /-- The FCS check has completed; the decision has been made. -/
  checked : Bool := false
  decided : Bool := false
  early : Bool := false
  /-- Marked for capture by sampling, by the classifier; copies sent. -/
  sampled : Bool := false
  triggered : Bool := false
  sent : Nat := 0
  /-- Copies outstanding. -/
  refs : Nat := 0
  /-- Where each of its cells is; none once they are freed. The copies of a multicast frame share them (R268). -/
  loc : List Loc := []
  hop : Option Rec := none
  /-- A frame of the host's TX ring: the ring, and whether its egress stamp is wanted (spec/15 R467). -/
  txRing : Option (Nat × Bool) := none
  /-- Kind and offset of each parsed header (spec/06 R185). -/
  hdrs : List (Nat × Nat) := []
  /-- Offset of the outermost tag (spec/07 R216). -/
  tag : Option Nat := none
  /-- It came in QUIET, for the time-message engine alone (spec/03 R102). -/
  timeOnly : Bool := false
  deriving DecidableEq, Repr

/-- One copy of a frame for an egress queue E(q, c) (spec/08 R242, R268). -/
structure Copy where
  frame : Nat
  /-- Which of the frame's copies it is. -/
  n : Nat := 0
  /-- Ingress port; 128 for a frame that the host admits straight to an egress queue (spec/15 R467). -/
  port : Nat
  q : Nat
  cls : Nat
  cells : Nat
  mc : Bool := false
  vid : Option Nat := none
  /-- Cells admitted, and the cells of a multicast copy that have been written, or are to be, as a private copy (R268). -/
  adm : Nat := 0
  own : Tab Loc := []
  /-- Tick at which its MC_WAIT timer has started (R269). -/
  since : Option Nat := none
  spilled : Bool := false
  /-- Total of the egress queue at admission. -/
  depth : Nat := 0
  deriving DecidableEq, Repr

/-- A frame for a packet ring (spec/15 R468), in the order the pipelines deliver them. -/
structure RxItem where
  ring : Nat
  bytes : List Byte
  len : Nat
  flags : BitVec 16
  port : Nat
  cls : Nat
  reason : Nat
  stamp : Stamp
  gen : BitVec 8
  deriving DecidableEq, Repr

/-- Frames, queues, Sorrel and Millet (spec/08). -/
structure FabricSt where
  frames : List Frame := []
  nextFrame : Nat := 0
  /-- Copies not yet wholly admitted, oldest first, and copies in the egress queues, in admission order. -/
  voq : List Copy := []
  eq : List Copy := []
  /-- The copy an egress MAC is sending, and the early-granted frame whose preamble it has staged (R251). -/
  tx : Tab (Option Copy) := []
  staged : Tab (Option Nat) := []
  rxq : List RxItem := []
  /-- Sorrel's grant and accept pointers and the last class named for (input port, egress port) (R245). -/
  grantPtr : Tab Nat := []
  acceptPtr : Tab Nat := []
  lastClass : Tab Nat := []
  /-- Deficit round robin: deficit of queue 16q + c in bytes, and the class whose turn it is at q (R248). -/
  deficit : Tab Nat := []
  turn : Tab Nat := []
  /-- Units of spill writes pending, per egress queue, and the cells of the open unit; the same for headroom writes, per ingress
  account (R262). -/
  spillUnits : Tab (List (List CellRef)) := []
  spillOpen : Tab (List CellRef) := []
  hrUnits : Tab (List (List CellRef)) := []
  hrOpen : Tab (List CellRef) := []
  /-- The stack that the last unit went to (R262); cells written and read in this beat (R265). -/
  stripe : Nat := 3
  written : Nat := 0
  read : Nat := 0
  /-- POOL_LOW has been raised and the pool has not recovered (R257). -/
  poolLow : Bool := false
  /-- HEADROOM_OVERRUN has been raised for account j and it has not reached XON since (R261). -/
  overrun : Tab Bool := []
  /-- STACK_FAULT raised for a stack in this beat; ticks of its uncorrectable errors in the last second (R266). -/
  faulted : Tab Bool := []
  uncorr : Tab (List Nat) := []
  /-- STACK_FAULT of an automatic map-out that the next beat raises: the stack and its errors of the last second. -/
  faultDue : Option (Nat × Nat) := none
  /-- A stack whose evacuation runs: its number, the tick it started, the cells read so far; and stacks tested since their map-out (R267). -/
  evac : Option (Nat × Nat × Nat) := none
  tested : BitVec 4 := 0
  /-- Frames of port p that passed the filter since its last sample (R275), and the capture sequence number. -/
  sampleCnt : Tab Nat := []
  capSeq : BitVec 32 := 0
  /-- STACK0 to STACK3 are in self-refresh (spec/03 R102). -/
  selfRefresh : Bool := false
  /-- The next port-down hold of the port does not start: QUIET has placed it in L2 (R270). -/
  noHold : BitVec 128 := 0
  /-- Tick at which a port's hold began (R270, R271). -/
  holdTick : Tab Nat := []
  deriving DecidableEq, Repr

/-- A time counter (spec/00 R13, spec/09 R286): its value from second 0 in units of 2^-44 ns, and the increment it adds at
each tick. -/
structure Counter where
  val : Nat := 0
  incr : BitVec 48 := 0xA0000000000#48
  deriving DecidableEq, Repr

/-- A TCNT_WRITE that waits for its boundary (spec/09 R292): the command's id, counter, operation, named boundary as second times
100,000 plus beat (none: the next), operand. -/
structure CntWrite where
  id : Nat
  counter : Nat
  op : Nat
  name : Option Nat
  value : Nat
  deriving DecidableEq, Repr

/-- Device time (spec/01 R27 to R29, spec/09): core ticks since the tick PLL locked, ticks of the present beat and the tick
count at which it ends, the 32 counters, the beat count, beat records (newest first, at most four), waiting counter
writes, a latch that GO has asked for, the tick of the last step of TCNT0. -/
structure TimeSt where
  tick : Nat := 0
  beatTicks : Nat := 0
  beatLen : Nat := 16000
  /-- Name of the present beat: its number plus 100,000 times its second (spec/00 R15). -/
  idx : Nat := 0
  cnt : List Counter := List.replicate 32 {}
  beatCount : BitVec 32 := 0
  /-- Boundaries since the tick PLL locked. -/
  bounds : Nat := 0
  recs : List (List Counter) := []
  writes : List CntWrite := []
  snap : Bool := false
  /-- A GO has been taken: TIMEBASE_INCR holds latched increments (R291). -/
  latched : Bool := false
  /-- Ticks of the last step of each anchor (R307, R241). -/
  stepTick : Tab Nat := []
  deriving DecidableEq, Repr

/-- A sample that a session hands to its slot (spec/10 R336, R550): the rounded offset, and t2 - t1 - c. -/
structure Sample where
  theta : Int
  key : Int
  deriving DecidableEq, Repr

/-- A Sync that waits for its Follow_Up, an answer of a peer that waits for its own, a request that waits for its answer (spec/10
R327): sequenceId, the message's time field, its local stamp in the session counter, correctionField, the tick of its receipt or
departure, and whether it was stamped in DIP. -/
structure MsgWait where
  seq : BitVec 16
  time : Int
  stamp : Int
  corr : Int
  tick : Nat := 0
  dip : Bool := false
  deriving DecidableEq, Repr

/-- A frame that the parser has handed to the time-message engine (spec/06 R184, spec/10 R325, R332): its number and ingress port, its
bytes, its ingress stamp, and the place and transport of its PTP header; none of them in a KL report. -/
structure EngineFrame where
  id : Nat
  port : Nat
  bytes : List Byte
  stamp : Stamp
  ptp : Option (Nat × Nat)
  deriving DecidableEq, Repr

/-- What a KL report frame carries (spec/10 R332). -/
structure KlReport where
  window : BitVec 16
  log2 : BitVec 8
  count : BitVec 32
  meanD : BitVec 64
  meanR : Stamp
  deriving DecidableEq, Repr

/-- A window of the partner's superframes that has ended: its first superframe, good superframes, sums of d_in and of R (spec/10 R331). -/
structure KlWin where
  window : BitVec 16
  good : Nat
  sumD : Int
  sumR : Nat
  deriving DecidableEq, Repr

/-- Reception of KL superframes (spec/10 R331; spec/04 R126): stamp of the partner's superblock 0 in TCNT0 time, the TIME
words of the present superframe (0 to 3), sums over the present window. -/
structure KlRxSt where
  first : Option Stamp := none
  /-- The present superframe has yielded nothing as yet. -/
  opened : Bool := false
  words : Tab (BitVec 32) := []
  good : Nat := 0
  sumD : Int := 0
  sumR : Nat := 0
  window : BitVec 16 := 0
  /-- Number of the partner's present superframe, once one has been received; windows that have ended and are not handled yet. -/
  num : Option (BitVec 16) := none
  closed : List KlWin := []
  /-- Expected units that have ended and are not counted yet; the tick at which the present one began (R334). -/
  units : Nat := 0
  unitTick : Nat := 0
  reports : List KlReport := []
  deriving DecidableEq, Repr

/-- A partner session (spec/10 R323 to R335): the SESSION_SET payload in force (bytes 0 to 95), state, counts, and the exchange in
progress. A SESSION_SET that waits for its boundary is a parked command. (DEDUCED, log entry 35) -/
structure SessSt where
  cfg : BitVec 768 := 0
  state : Nat := 0
  misses : Nat := 0
  delayStale : Bool := false
  offset : Int := 0
  /-- The last path delay, not rounded (R550): numerator, denominator. -/
  mpd : Option (Int × Nat) := none
  /-- Beat count of the last path delay. -/
  mpdBeat : BitVec 32 := 0
  exchanges : BitVec 32 := 0
  dup : Nat := 0
  fuMiss : Nat := 0
  respMiss : Nat := 0
  stale : Nat := 0
  sfBad : Nat := 0
  foreign : Nat := 0
  authFail : Nat := 0
  authLate : Nat := 0
  lastTs : Stamp := 0
  nrr : Int := 0
  /-- Last accepted sequenceId; Syncs awaiting their Follow_Up, and requests outstanding, newest first; a two-step answer awaiting its
  Follow_Up; remote and local times of the last Pdelay answers, newest first. -/
  lastSeq : Option (BitVec 16) := none
  sync : List MsgWait := []
  req : List MsgWait := []
  resp : Option MsgWait := none
  pdelays : List (Int × Int) := []
  /-- t2 - t1 - c of the last Sync. -/
  lastSync : Option Int := none
  /-- An exchange has completed in the present unit, or was discarded for DIP (R344); exchanges unverified as yet; exchanges that have been
  discarded for their ICV, newest first: kind (0 Sync, 1 Delay_Req, 2 Pdelay), sequenceId, tick (R350). -/
  hit : Bool := false
  unverified : Nat := 0
  denied : List (Nat × BitVec 16 × Nat) := []
  /-- Boundary at which the session was enabled; the next periodic Sync or Delay_Req, Pdelay_Req, and expected unit, counted from 0 there
  (R329). -/
  start : Nat := 0
  txNext : Nat := 0
  pdNext : Nat := 0
  unitNext : Nat := 0
  /-- sequenceId of the next Sync or Delay_Req, and of the next Pdelay_Req. -/
  txSeq : BitVec 16 := 0
  pdSeq : BitVec 16 := 0
  kl : KlRxSt := {}
  deriving DecidableEq, Repr

/-- How far a slot has come in the present beat (spec/10 R338): not due, due, its update computed, or not among those
served. -/
inductive Due where
  | no
  | due
  | done
  | unserved
  deriving DecidableEq, Repr

/-- A servo slot (spec/10 R336 to R348): coefficients in force, integrators, samples since the last cut-off (newest first),
countdown to the next update, last offset as a fraction, consecutive counts, and what waits for the next boundary. -/
structure SlotSt where
  kp : Word := 0
  ki : Word := 0
  ki2 : Word := 0
  kph : Word := 0
  i1 : Int := 0
  i2 : Int := 0
  samples : List Sample := []
  /-- Beats until the slot is due; none before it first becomes due. -/
  countdown : Option Nat := none
  num : Int := 0
  den : Nat := 1
  lockRun : Nat := 0
  farRun : Nat := 0
  jumpRun : Nat := 0
  /-- HOLD was entered for a jump, and SLOT_ACCEPT may release it (R346, R348). -/
  jumped : Bool := false
  /-- Offset computed in this beat, as a fraction, and the samples it used. -/
  upd : Option (Int × Nat × Nat) := none
  /-- The last eight offsets of a STANDBY slot, newest first: (boundary number, numerator, denominator). -/
  hist : List (Nat × Int × Nat) := []
  /-- Increment of the target less the added rate of PULL. -/
  base : Int := 0
  /-- A switch to the partner waits for a boundary that is neither held nor in DIP, with the cause of the loss. -/
  switch : Option Nat := none
  due : Due := .no
  /-- Beats that have ended without an accepted sample since the last one; none where this beat has accepted one (R345). -/
  idle : Option Nat := none
  deriving DecidableEq, Repr

/-- Sessions and slots (spec/10), and the link figures in force of each lane (spec/11 R369): LINK_CFG, TX_EXT, RX_EXT,
PTX_EXT, PRX_EXT, COEF, GDELAY. -/
structure ServoSt where
  sess : Tab SessSt := []
  slot : Tab SlotSt := []
  link : Tab (List Word) := []
  linkUpd : BitVec 128 := 0
  /-- Slots due and updates served in the present beat (R353). -/
  dueN : Nat := 0
  servedN : Nat := 0
  /-- TC_NO_PDELAY (R330). -/
  tcNoPdelay : Nat := 0
  /-- Frames that the engine has still to handle, oldest first (spec/06 R184). -/
  inbox : List EngineFrame := []
  /-- Messages passed to the timing pair, newest first (R322, R325). -/
  toPair : List EngineFrame := []
  deriving DecidableEq, Repr

/-- Why a calibration run is due (spec/11 R360, R361, R372). -/
inductive CalWhy where
  | postTrain
  | temp
  | joined
  | period
  | sweep
  deriving DecidableEq, Repr

/-- Path calibration of a lane (spec/11 R356 to R363): what makes a run due and the tick it became due, whether a run is in
progress, the last sensor value read and that at the run's start, trims in force, and a result waiting for the boundary. -/
structure PathCal where
  why : Option CalWhy := none
  dueTick : Nat := 0
  running : Bool := false
  temp : BitVec 16 := 0
  startTemp : BitVec 16 := 0
  rxTrim : Int := 0
  txTrim : Int := 0
  /-- Fuse trims have been replaced by a run since the last main reset. -/
  trimmed : Bool := false
  done : Option PathRun := none
  /-- A long CAL_SWEEP asked for the run. -/
  sweep : Bool := false
  lastTick : Nat := 0
  /-- CAL_OVERDUE has been raised for the run that is due (R363). -/
  overdue : Bool := false
  /-- The temperature trigger has fired since TEMP_LAST was taken, the period trigger since the last completed run (R360). -/
  tempFired : Bool := false
  periodFired : Bool := false
  /-- The last slot start found the run due and the lane without a gap (R361, R373). -/
  noGap : Bool := false
  deriving DecidableEq, Repr

/-- Interpolator calibration of an interval unit (spec/11 R364, R365): why it is due, the path in progress, chunks of its
segments and of its histogram collected, whether a chunk runs, segment masks and histograms of the paths completed, and a table set
waiting; the code spans of the segments measured and the edges at each code counted of the path in progress. -/
structure InterpCal where
  why : Option CalWhy := none
  dueTick : Nat := 0
  started : Bool := false
  path : Nat := 0
  segs : Nat := 0
  hist : Nat := 0
  running : Bool := false
  startTemp : BitVec 16 := 0
  masks : Tab (BitVec 12) := []
  spans : List (BitVec 12) := []
  edges : Tab Nat := []
  tables : Tab (Tab Nat) := []
  ready : Bool := false
  sweep : Bool := false
  lastTick : Nat := 0
  overdue : Bool := false
  tempFired : Bool := false
  periodFired : Bool := false
  deriving DecidableEq, Repr

structure CalSt where
  path : Tab PathCal := []
  interp : Tab InterpCal := []
  /-- Last readings of the 16 fabric sensors (spec/02 R75, spec/11 R365). -/
  temps : Tab (BitVec 16) := []
  /-- Tick at which the last adaptation burst of a lane ends (R361, spec/04 R136). -/
  burst : Tab Nat := []
  /-- Lanes held by an eye scan; runs completed and discarded of the CAL_SWEEP in progress. -/
  eye : BitVec 128 := 0
  /-- Units 128 to 159 held by CAL_HOLD (R372). -/
  hold : BitVec 32 := 0
  sweepDone : Nat := 0
  sweepDisc : Nat := 0
  /-- Linearisation tables in force, by 4 × unit + path: the edges at each code (R364); the path that takes the next stamp of lane n, by
  2n for received and 2n + 1 for sent ones (spec/09 R298). -/
  tables : Tab (Tab Nat) := []
  turn : Tab Nat := []
  /-- The sweep is suspended. -/
  sweepHold : Bool := false
  deriving DecidableEq, Repr

/-- A reference candidate (spec/12 R378 to R383). -/
structure CandSt where
  /-- Boundaries that the timer of QUALIFYING or WTR has run; it has been disqualified since the last main reset. -/
  timer : Nat := 0
  disq : Bool := false
  /-- Input edges since the last stamped one; stamped edges, or pulses, since the candidate started; tick of the last one. -/
  div : Nat := 0
  edges : Nat := 0
  last : Nat := 0
  /-- Boundaries in a row that ended a beat without a stamped edge. -/
  idleBeats : Nat := 0
  /-- Last phase sample against each of the four anchors, in 2^-16 ns, OFFSET included. -/
  phase : List Int := [0, 0, 0, 0]
  /-- Samples of the last second, newest first: time in 1/4,096 of a tick with the edges stamped by then, or with the offset that
  a KIND 1 slot passed; for a 1PPS the last eight pulses. -/
  samples : List (Nat × Int) := []
  /-- Tick of the first sample that the estimate rests on. -/
  since : Option Nat := none
  /-- A sample in the beat that ends; an early pulse in it. -/
  fresh : Bool := false
  early : Bool := false
  /-- Frequency in 2^-12 ppb, if there is an estimate; one estimate a second, newest first. -/
  est : Option Int := none
  ests : List Int := []
  /-- What a lane's recovered clock has gained on the tick clock since the candidate started, in 2^-44 ns. -/
  gain : Int := 0
  deriving DecidableEq, Repr

/-- A DPLL and its history (spec/12 R384 to R397). -/
structure DpllSt where
  /-- A selection decided at order 8, which takes effect at the next boundary: a candidate or none. -/
  next : Option (Option Nat) := none
  /-- A REF_FORCE or a write to EN asks for the next decision; has led to the decision that waits (R411). -/
  byCmd : Bool := false
  nextCmd : Bool := false
  /-- Integrator of the loop: the increment less the nominal one, in 2^-64 units; phase of the anchor against the lane selected,
  accumulated since the selection, in 2^-44 ns (R378, R388). -/
  integ : Int := 0
  lanePh : Int := 0
  /-- Candidate of REF_FORCE. -/
  forceCand : Nat := 0
  /-- A selection has been made since the DPLL's reset. -/
  selected : Bool := false
  /-- Boundaries (samples of a 1PPS) in a row that meet the criterion to lock; that are more than 10 ns off; within 1 ppb. -/
  goodRun : Nat := 0
  badRun : Nat := 0
  freqRun : Nat := 0
  /-- Remaining phase of a pull in 2^-16 ns times 10^8; the pull rate in the increment in force. -/
  remain : Int := 0
  pull : Int := 0
  /-- Boundary numbers at which a pull last got its rate, and at which one was last complete (R391, R393). -/
  ranAt : Nat := 0
  pulled : Option Nat := none
  /-- Last phase samples of a time-carrying candidate before the first-lock step, newest first; the step decided. -/
  firsts : List Int := []
  step : Option Int := none
  /-- Increments of included beats, newest first: (boundary number, increment); HOLDOVER_LEARN looks at them too. -/
  hist : List (Nat × Nat) := []
  /-- Boundary number at entry to HOLDOVER; beats in the frozen history, and the sum of their boundary numbers. -/
  holdFrom : Nat := 0
  histLen : Nat := 0
  histSum : Nat := 0
  /-- SWRATE committed for the next boundary. -/
  sw : Option Nat := none
  /-- State at the moment the main domain stopped, and whether the spec was exceeded since (R552). -/
  stopState : Option Nat := none
  stopSpec : Bool := false
  /-- OSC_RETURN asks for a pull (R392). -/
  pullDue : Bool := false
  deriving DecidableEq, Repr

/-- A synthesizer (spec/12 R399 to R401): feedback in force in 2^-32, gates in a row within 0.1 ppm and outside 1 ppm, the tick its
search began, the feedback at the last lock. -/
structure SynSt where
  fb : Nat := 34 * 2 ^ 32 + 0x60000000
  good : Nat := 0
  bad : Nat := 0
  searchTick : Nat := 0
  lockFb : Nat := 0
  deriving DecidableEq, Repr

/-- A clock output (spec/12 R402, R403): its divider in force, the tick after that of its last alignment, and an alignment due at the
next second. -/
structure ClkSt where
  div : Nat := 0x58
  aligned : Nat := 0
  alignDue : Bool := false
  /-- Tick at which the hold of a changed output ends (spec/12 R402). -/
  lowTill : Nat := 0
  deriving DecidableEq, Repr

structure RefSt where
  cand : Tab CandSt := []
  dpll : Tab DpllSt := []
  syn : Tab SynSt := []
  clk : Tab ClkSt := []
  /-- Increment of the anchor that scales the feedback of a synthesizer, and that a lane group's PLL follows, since the last boundary; none:
  the nominal one (R399, R406). -/
  synIncr : Tab Nat := []
  grpIncr : Tab Nat := []
  /-- Disputed pairs of a DPLL: keyed 256 d + 16 a + b, the last outcome. -/
  disputes : Tab Nat := []
  /-- Boundary number of the last ESMC PDU on a port. -/
  esmc : Tab Nat := []
  /-- Quality level that a port last sent (R409). -/
  qlSent : Tab (BitVec 12) := []
  deriving DecidableEq, Repr

/-- An edge that a slot has taken, or that waits as a pending stop (spec/09 R302 to R306): its stamp in the anchor's time, its tick,
merged edges, ORDER, SUPPLY_SUSPECT. -/
structure StopFill where
  stamp : Stamp
  tick : Nat
  /-- The tick up to which the anchor's time had run at the edge (R307). -/
  ran : Nat := 0
  merged : Nat := 1
  order : Bool := false
  suspect : Bool := false
  deriving DecidableEq, Repr

/-- An open window (spec/09 R302): the start's stamp in the anchor's time and its tick, merged edges, flags, slots filled. -/
structure Window where
  stamp : Stamp
  tick : Nat
  ran : Nat := 0
  merged : Nat := 1
  suspect : Bool := false
  overlap : Bool := false
  fills : Tab StopFill := []
  deriving DecidableEq, Repr

/-- Orphan stops of one source in a beat (spec/09 R305, R308): the first one's stamp, their number, SUPPLY_SUSPECT, COINCIDENT. -/
structure Orphans where
  stamp : Stamp
  count : Nat := 1
  suspect : Bool := false
  coincident : Bool := false
  deriving DecidableEq, Repr

/-- An interval measurement (spec/09 R302 to R308, spec/13 R418, R419): the open window, pending stops by slot, orphan stops of
this beat by source, record sequence, and the linearisation tables that have taken effect since its oldest open edge (unit, tick). -/
structure ImSt where
  win : Option Window := none
  pend : Tab StopFill := []
  orphans : Tab Orphans := []
  seq : BitVec 32 := 0
  tables : List (Nat × Nat) := []
  deriving DecidableEq, Repr

/-- A frequency gate (spec/13 R423 to R428): its source, anchor, prescale, its first boundary in the anchor's time and its tick, the tick
of its last boundary, active beats left and passed, stamps taken newest first (edge index, stamp in the anchor's time, time of the edge
in 1/4,096 of a tick), flags; a suspended gate takes no stamps. -/
structure Gate where
  src : Nat
  tb : Nat
  pre : Nat
  start : Stamp
  startTick : Nat
  endTick : Nat := 0
  left : Nat
  passed : Nat := 0
  xs : List (Nat × Stamp × Nat) := []
  skipped : Nat := 0
  suspect : Bool := false
  calSpan : Bool := false
  susp : Bool := false
  suspended : Bool := false
  deriving DecidableEq, Repr

/-- A frequency measurement: its gate, a gate that has reached its last boundary and has no record yet, record sequence, and the long
operation that owns it, with the boundary its gate begins at. -/
structure FmSt where
  gate : Option Gate := none
  ended : Option Gate := none
  seq : BitVec 32 := 0
  owner : Option (BitVec 32) := none
  begins : Option (Option Nat) := none
  deriving DecidableEq, Repr

/-- A result on its way to the measurement ring (spec/13 R421): its LOST counter, its record, where edges may still merge into it (byte
of the MERGED field, source, tick of the accepted edge), and what orders it: the tick it completed on, and its measurement (frequency
measurements from 64 on). -/
structure MeasRec where
  unit : Nat
  data : BitVec 1024
  marks : List (Nat × Nat × Nat) := []
  tick : Nat := 0
  key : Nat := 0
  deriving DecidableEq, Repr

/-- A pulse schedule (spec/13 R429): enabled, active low, ADVANCE, anchor, start and period in 2^-16 ns, width in ns, count. -/
structure Sched where
  en : Bool := false
  pol : Bool := false
  adv : Bool := false
  tb : Nat := 0
  start : Stamp := 0
  /-- START is a timestamp of R12: its nanoseconds are below 1,000,000,000. -/
  startOk : Bool := true
  period : Nat := 0
  width : Nat := 0
  count : Nat := 0
  deriving DecidableEq, Repr

/-- The schedule of EVOUT0 at reset: a 1PPS (spec/13 R433). -/
def Sched.pps : Sched :=
  { en := true, start := 1000000000 * 2 ^ 16, period := 1000000000 * 2 ^ 16, width := 100000000 }

/-- A pulse output (spec/13 R429 to R434): the schedule in force, number of the next pulse, whether a pulse is asserted, and loads that
wait: the command's id, the boundary named, the schedule. -/
structure EvoutSt where
  sched : Sched := {}
  next : Nat := 0
  high : Bool := false
  /-- Of the pulse that is asserted: its polarity, the anchor, the time of its trailing edge, ADVANCE (R431). -/
  pol : Bool := false
  tb : Nat := 0
  fall : Stamp := 0
  adv : Bool := false
  /-- 1 + the place of the last trailing edge, in 1/64 of a tick. -/
  trail : Nat := 0
  /-- The last edge: its fine delay in steps of 625/64 ps, and its crossing at the ball in the anchor's time (spec/02 R72, R430). -/
  fine : Nat := 0
  cross : Stamp := 0
  loads : List (Nat × Option Nat × Sched) := []
  deriving DecidableEq, Repr

/-- The measurement block (spec/13): units 128 to 159 by number less 128. -/
structure MeasSt where
  im : Tab ImSt := []
  fm : Tab FmSt := []
  evout : Tab EvoutSt := [(0, { sched := Sched.pps })]
  /-- Edges accepted by a unit (R417); 1 + the time of its last captured edge, and 1 + the time the hold-off of an input ends (R416), in
  1/4,096 of a tick (R303). -/
  edges : Tab Nat := []
  last : Tab Nat := []
  holdEnd : Tab Nat := []
  /-- Inputs that ignore edges for the present beat (R415). -/
  mute : BitVec 16 := 0
  /-- Results of this beat, and results of the beat before that wait for posting, oldest first. -/
  done : List MeasRec := []
  due : List MeasRec := []
  /-- Results posted in this beat (R421). -/
  posted : Nat := 0
  deriving DecidableEq, Repr

/-- The timing pair (spec/14): heartbeats of this beat (bit 0 CORE0 network, 1 CORE0 wire, 2 and 3 CORE1), those that missed at
the last boundary, boundaries in a row a faulted path has been present, gated actions of a core in this beat, held
boundaries of the present HOLD with its first beat and second, ticks of divergences, a PAIR_SWAP waiting, the board
interlock. -/
structure RedundSt where
  seen : BitVec 4 := 0
  missed : BitVec 4 := 0
  present : Tab Nat := []
  sig0 : List Byte := []
  sig1 : List Byte := []
  held : Nat := 0
  heldAt : Nat × Nat := (0, 0)
  diverged : List Nat := []
  swap : Option (Nat × Option Nat) := none
  /-- INTLK_OUT asserted and not sampled yet. -/
  taking : Bool := false
  /-- The core that is resynchronised after a divergence, and the tick at which that began (R443). -/
  rejoin : Option (Nat × Nat) := none
  /-- Boundaries in a row at which INTLK_IN has been low (R453). -/
  low : Nat := 0
  /-- Register reads that one core has had performed and the other has still to take, oldest first: that core, address, value (R441). -/
  reads : List (Nat × Nat × Word) := []
  /-- TIMING images that the cores run since a rejoining, where not the running one (R449). -/
  imgs : Tab Image := []
  /-- Held boundaries that the last takeover interrupt told its core of (R447). -/
  takeover : Nat := 0
  /-- The boundary just begun was held. -/
  nowHeld : Bool := false
  deriving DecidableEq, Repr

/-- What the device writes outside itself on the PCIe link (spec/15): `len` bytes of host memory at `addr` (the value is
little-endian), bytes of a received frame, with relaxed ordering or not (R459), or the signal of an MSI-X vector. (DESIGN CHOICE, log entry 4) -/
inductive Post where
  | mem (addr len data : Nat)
  | frame (addr len data : Nat) (relaxed : Bool)
  | msix (vector : Nat)
  deriving DecidableEq, Repr

/-- A completion on its way to the completion ring (spec/15 R471). -/
structure Cpl where
  record : BitVec 512
  noIrq : Bool
  final : Bool
  deriving DecidableEq, Repr

/-- Losses of the event ring not yet reported (spec/15 R478). -/
structure LossRec where
  count : Nat
  first : BitVec 16
  last : BitVec 16
  seq : BitVec 32
  deriving DecidableEq, Repr

/-- A command that has started and waits for a boundary, a resource or a hardware action (spec/15 R470). -/
structure Parked where
  id : Nat
  cmd : Cmd
  op : Nat
  /-- A hardware action of it has been issued and runs to its end (spec/15 R474). -/
  issued : Bool := false
  /-- Some effect has taken place. -/
  partly : Bool := false
  /-- LOWER_CAUSE of the lower mechanism that is recovering or has recovered for it, 0 none. -/
  lower : Nat := 0
  recovered : Bool := false
  /-- Domain reset 4 has come since it started: its completion is dropped (spec/15 R484). -/
  lost : Bool := false
  deriving DecidableEq, Repr

/-- State of a long operation (spec/15 R475). -/
inductive LongState where
  | queued
  | running
  | suspended
  | done
  | cancelled
  | failed
  deriving DecidableEq, Repr

/-- A long operation (spec/15 R475): its handle, the command that started it, its state, the resource it needs, its
progress and total in its own units, the tick it was accepted at, and the LONG_CTRL that waits for it. -/
structure LongOp where
  handle : BitVec 32
  cmd : Cmd
  op : Nat
  state : LongState
  res : Nat
  progress : Nat := 0
  total : Nat := 0
  tick : Nat
  /-- A SUSPEND waits for the next safe point (spec/15 R476). -/
  suspend : Option Nat := none
  /-- It has begun to run. -/
  started : Bool := false
  /-- Operands kept from the acceptance for the end of the operation. -/
  args : List Nat := []
  /-- LOWER_CAUSE of the lower mechanism that is recovering or has recovered for it, 0 none (spec/15 R482). -/
  lower : Nat := 0
  recovered : Bool := false
  deriving DecidableEq, Repr

/-- A doorbell fetch on its way (spec/15 R464, R465): whether a kick started it, the tick of its deadline, its number. -/
structure Fetch where
  kick : Bool
  due : Nat
  seq : Nat
  deriving DecidableEq, Repr

/-- An entry of ring `ring` that DMA_OFF keeps back (spec/15 R487), and whether it signals. -/
structure HeldEntry where
  ring : Nat
  data : Nat
  irq : Bool
  deriving DecidableEq, Repr

/-- PCIe power-management state of the function (spec/15 R459). (DEDUCED, log entry 38) -/
inductive PmState where
  | d0
  | d3hot
  deriving DecidableEq, Repr

/-- A device read whose completion timed out (spec/15 R461): how often it has been reissued, and what it serves. -/
structure CtoRead where
  tries : Nat
  what : ReadFor
  deriving DecidableEq, Repr

/-- A TX frame that has been fetched and not written back in order (spec/15 R467): its frame, the index of its first descriptor,
their number, and whether its status has been written. -/
structure TxSlot where
  frame : Nat
  start : Nat
  descs : Nat
  done : Bool := false
  deriving DecidableEq, Repr

/-- Host interface state that no register shows (spec/15). (DESIGN CHOICE, log entry 4) -/
structure HostSt where
  /-- SEQ of the next event (R478). -/
  evSeq : BitVec 32 := 0
  lost : Option LossRec := none
  /-- Everything written on the link so far, newest first. -/
  posts : List Post := []
  /-- Writes kept back while DMA_OFF is set, newest first (R487). -/
  held : List Post := []
  /-- Ring entries that DMA_OFF keeps back, oldest first: their rings have not advanced (R487). -/
  heldEntries : List HeldEntry := []
  /-- Base address of a ring as committed when it was enabled (R489, spec/18 R548). -/
  base : Tab Nat := []
  /-- Rings that a bad index has stopped (R463). -/
  stopped : Tab Bool := []
  /-- TX frames of each ring, in ring order, from the device index on (R467). -/
  txq : Tab (List TxSlot) := []
  /-- Tick after that of a ring's last signal, 0 never; rings with a signal due (R466). -/
  lastSignal : Tab Nat := []
  sigDue : Tab Bool := []
  /-- Completions that wait for the completion ring, oldest first (R471), and final completions that fell due while the
  command rings were disabled by domain reset 4 (R484). -/
  waitCpl : List Cpl := []
  keptFinal : List Cpl := []
  /-- Domain reset 4 has disabled the command rings and they have not both been enabled since (R484). -/
  ringsReset : Bool := false
  /-- Commands in progress that are not long operations, and the id of the next one. -/
  parked : List Parked := []
  nextId : Nat := 0
  longOps : List LongOp := []
  /-- Operations that have ended and whose final completion has not been written: their handles are still valid (R475). -/
  ended : List LongOp := []
  /-- The source that CORE4 serves next: 0 the command ring, 1 CORE6's mailbox, 2 CORE7's (spec/16 R499). -/
  turn : Nat := 0
  /-- For a source whose next command has FENCE and waits: the id that the commands earlier than it lie below (R470). -/
  fenceAt : Tab Nat := []
  /-- Sequence number of the last handle. -/
  longSeq : BitVec 16 := 0
  fetch : Option Fetch := none
  /-- Number of the next fetch. -/
  fetchSeq : Nat := 0
  kickQueued : Bool := false
  kicksThisBeat : Nat := 0
  /-- A beat fetch waits for the one outstanding: the tick of its deadline (R464). -/
  beatFetchOwed : Option Nat := none
  /-- Copy of doorbell bytes 0x400 to 0xFFF (R464, spec/16 R497) and USER_SEQ. -/
  userArea : BitVec 24576 := 0
  userSeq : BitVec 32 := 0
  pm : PmState := .d0
  /-- Completion Timeout Value of Device Control 2 as written (R461). -/
  cto : BitVec 4 := 0
  /-- The link is in Recovery, and the tick it entered it at (R483). -/
  recovery : Option Nat := none
  reads : Tab CtoRead := []
  /-- Tags of commands one of whose reads recovered, or gave up (R482). -/
  readOk : List (BitVec 32) := []
  readFail : List (BitVec 32) := []
  deriving DecidableEq, Repr

/-- What a sleeping core waits for, and the register the awaited value goes to (spec/16 R493). -/
inductive Sleep where
  | wfb (rd : Fin 32)
  | wfe (rd : Fin 32)
  deriving DecidableEq, Repr

/-- One control core (spec/16): its program state, its local block (R494, R498, R500), its time holding registers (R493),
its performance counters (R509) and its tag unit (R512). -/
structure CoreSt where
  /-- x1 to x31, keyed by number; x0 is never listed. -/
  x : Tab Word := []
  pc : Word := 0
  sleep : Option Sleep := none
  trapVec : Word := 0
  trapEpc : Word := 0
  trapCause : BitVec 8 := 0
  active : Bool := false
  trapVal : Word := 0
  intEn : BitVec 8 := 0
  intPend : BitVec 8 := 0
  /-- A beat interrupt has been raised and not acknowledged (R496). -/
  beatOpen : Bool := false
  beatSkipped : Nat := 0
  beatNumber : Nat := 0
  holdTime : Stamp := 0
  holdCount : BitVec 32 := 0
  holdBeat : Nat := 0
  /-- Request and completion slots of the mailbox, MB_STATUS, and slots whose completion is to be discarded (R491). -/
  mbReq : Tab (BitVec 1024) := []
  mbCpl : Tab (BitVec 512) := []
  mbDone : BitVec 8 := 0
  mbBusy : BitVec 8 := 0
  /-- Request slots whose command CORE4 has taken (R499). -/
  mbTaken : BitVec 8 := 0
  mbDrop : BitVec 8 := 0
  /-- Event FIFO: its 16 slots, COUNT, and the index of its oldest entry (R500). -/
  fifo : Tab (BitVec 512) := []
  fifoN : Nat := 0
  fifoHead : Nat := 0
  /-- The 40 counters, and the high half that KS.PCNT latched. -/
  cnt : Tab Nat := []
  cntHi : Nat := 0
  /-- Wraps of the counters that count time, by event (R509). -/
  wraps : Tab Nat := []
  /-- Issue slots that have been classified: INSTRET, SQUASHED, FE_STARVED and BE_STARVED together (R511). -/
  slotsUsed : Nat := 0
  /-- Tick that CYCLES counts from; cycles slept since, and CYCLES as the present sleep began (R510). -/
  cycFrom : Nat := 0
  slept : Nat := 0
  sleepAt : Option Nat := none
  /-- Tag unit: LFSR values taken, countdown, whether the next instruction to enter F is tagged, a tag in flight (its F_CYCLE and
  beat). -/
  lfsr : Nat := 0
  countdown : Nat := 0
  tagDue : Bool := false
  tagged : Option (Nat × Nat) := none
  /-- The core's watchdog (R508). -/
  dog : Dog := {}
  deriving DecidableEq, Repr

/-- The cores and the memory banks (spec/16). -/
structure CoresSt where
  core : Tab CoreSt := []
  /-- Bytes of the banks, keyed by bank × 131,072 + offset; an unlisted byte holds 0. -/
  mem : Tab Byte := []
  /-- A quad handover in progress keeps the interleave in force (R502). -/
  quadMove : Tab Bool := []
  deriving DecidableEq, Repr

/-- Vault, tamper response and field update (spec/17). -/

structure SecSt where
  /-- Keys of the vault: PTP keys by KEY_ID, 64 the legacy key, 65 + i customer key i (R533). -/
  keys : Tab (BitVec 256) := []
  /-- Key hashes of the customer slots 4 and 5 (R540). -/
  custHash : Tab (BitVec 384) := []
  /-- Entries written since vault reset, and entries that wait to be raised as events at BOOT_DONE. -/
  logSeq : BitVec 32 := 0
  /-- Entries in the log, oldest first. -/
  log : List (BitVec 256) := []
  owed : List (BitVec 256) := []
  /-- Class V state was lost (R59, R534). -/
  lostOwed : Bool := true
  vsec : BitVec 32 := 0
  /-- The running images, the images of the active slot, the staged set of the inactive slot. -/
  running : List Image := []
  active : List Image := []
  staged : List Image := []
  /-- Bundles of the UPD_STAGE operations, by handle (R525). -/
  stage : List (BitVec 32 × List (BitVec 8)) := []
  /-- Components of the staged set that came from the bundle. -/
  bundle : BitVec 16 := 0
  stageSeq : BitVec 24 := 0
  /-- Component mask of staged images only marked installed (R527 AT_RESET). -/
  atReset : BitVec 16 := 0
  slotB : Bool := false
  area : Bool := false
  dirSeq : BitVec 32 := 0
  /-- Profiles stored, in the current area and in the other one after a migration. -/
  profiles : List Profile := []
  migrated : List Profile := []
  /-- The erase of the superseded profile area runs (R529). -/
  erasing : Bool := false
  deriving DecidableEq, Repr

/-- A register write that waits for the next boundary: address, new word, and whether it is a gated write of the timing pair (spec/14
R446). -/
structure Waiting where
  addr : Nat
  word : Word
  pair : Bool := false
  deriving DecidableEq, Repr

/-- Register writes on one tick (spec/18 R547): the tick after theirs, 0 before any, and the registers written, each with the latest place of
its writers in the bus's order. -/
structure Wrote where
  tick : Nat := 0
  regs : Tab Nat := []
  deriving DecidableEq, Repr

/-- The block. (DESIGN CHOICE, log entry 4; DESIGN CHOICE, log entry 6) -/
structure State where
  /-- BAR0 registers that do not hold their reset value, keyed by byte address, addresses rising (spec/18). -/
  regs : Tab Word := []
  /-- 64-bit counters that are not 0, keyed by the address of their low word (spec/05 R165, R166). -/
  ctr : Tab Nat := []
  /-- The word that the last register read returned. -/
  rdata : Word := 0
  time : TimeSt := {}
  power : PowerSt := {}
  host : HostSt := {}
  cores : CoresSt := {}
  lanes : Tab LaneSt := []
  ports : PortsSt := {}
  pipes : PipesSt := {}
  fabric : FabricSt := {}
  servo : ServoSt := {}
  cal : CalSt := {}
  refs : RefSt := {}
  meas : MeasSt := {}
  redund : RedundSt := {}
  sec : SecSt := {}
  /-- Register writes that take effect at the next beat boundary (spec/18 R546), oldest first. -/
  waiting : List Waiting := []
  /-- The register writes of the last tick that had any (spec/18 R547). -/
  written : Wrote := {}
  /-- What the ports have put on their lines, newest first. -/
  line : List LineOut := []
  /-- Free values taken so far: the model's own field. -/
  freeCtr : Nat := 0
  /-- Commands waiting, first in, first out. -/
  pending : List Instr := []
  deriving DecidableEq, Repr

/-- The block right after reset: the island reset at VDD_AON (spec/03 R80, R81), every register at its reset value. (DESIGN CHOICE, log entry 6) -/
def State.reset : State := {}

end Sys2Proof.Machine
end

