-- ==== Sys2Proof/Machine/Tab.lean ====
section
/-!
DEFINITION. Sys2Proof/Machine/Tab.lean: reading and writing sparse tables (`Tab`), and little-endian packing of records
(spec/00 R21).
-/
namespace Sys2Proof.Machine

/-- The value listed under key `k`. -/
def Tab.find {α : Type} (k : Nat) : Tab α → Option α
  | [] => none
  | (a, v) :: t => if a = k then some v else Tab.find k t

/-- The value under key `k`; `d` where none is listed. -/
def Tab.get {α : Type} (t : Tab α) (d : α) (k : Nat) : α := (Tab.find k t).getD d

/-- List `v` under key `k`, in the place of an older value. -/
def Tab.ins {α : Type} (k : Nat) (v : α) : Tab α → Tab α
  | [] => [(k, v)]
  | (a, w) :: t => if a = k then (k, v) :: t else if k < a then (k, v) :: (a, w) :: t else (a, w) :: Tab.ins k v t

/-- Remove key `k`. -/
def Tab.del {α : Type} (k : Nat) (t : Tab α) : Tab α := t.filter (fun p => p.1 ≠ k)

/-- Write `v` under key `k` of a table whose unlisted keys hold `d`: a key that holds `d` is not listed. -/
def Tab.put {α : Type} [DecidableEq α] (t : Tab α) (d : α) (k : Nat) (v : α) : Tab α :=
  if v = d then Tab.del k t else Tab.ins k v t

/-- The canonical form: keys strictly rising, no entry equal to what an unlisted key reads as. -/
def Tab.canon {α : Type} [DecidableEq α] (d : Nat → α) : Tab α → Bool
  | [] => true
  | (a, v) :: t => decide (v ≠ d a) && (match t with | [] => true | (b, _) :: _ => decide (a < b)) && Tab.canon d t

/-- A record of `n` bits from its fields, each (first byte, bytes, value); a value is cut to its field. -/
def packLE (n : Nat) (fs : List (Nat × Nat × Nat)) : BitVec n :=
  BitVec.ofNat n (fs.foldl (fun a f => a ||| ((f.2.2 % 2 ^ (8 * f.2.1)) <<< (8 * f.1))) 0)

/-- The number in `len` bytes of a record from byte `off` on. -/
def byteField {n : Nat} (r : BitVec n) (off len : Nat) : Nat := (r.toNat >>> (8 * off)) % 2 ^ (8 * len)

/-- Bytes of a little-endian list as a number. -/
def bytesNat : List Byte → Nat
  | [] => 0
  | b :: t => b.toNat + 256 * bytesNat t

/-- The first `n` bytes of a number, lowest first. -/
def natBytes : Nat → Nat → List Byte
  | 0, _ => []
  | n + 1, v => BitVec.ofNat 8 v :: natBytes n (v / 256)

/-- A number cut to `cap`: what a saturating counter holds. -/
def sat (cap v : Nat) : Nat := if v ≤ cap then v else cap

/-- A signed number as `n` bits of two's complement. -/
def twos (n : Nat) (v : Int) : Nat := (v % (2 ^ n : Int)).toNat

/-- `n` bits of two's complement read as a signed number. -/
def sgn (n v : Nat) : Int := if v % 2 ^ n < 2 ^ (n - 1) then (v % 2 ^ n : Nat) else (v % 2 ^ n : Nat) - (2 ^ n : Int)

/-- Bit `k` of a number. -/
def bitAt (v k : Nat) : Bool := v.testBit k

/-- Indices below `n` whose bit of `m` is set, lowest first. -/
def maskIdx (n m : Nat) : List Nat := (List.range n).filter (fun k => bitAt m k)

/-- The mask with the bits of a list of indices set. -/
def idxMask (l : List Nat) : Nat := l.foldl (fun a k => a ||| 2 ^ k) 0

/-- A Bool as a bit. -/
def bit (b : Bool) : Nat := if b then 1 else 0

end Sys2Proof.Machine
end

