-- ==== Sys2Proof/Machine/Ops.lean ====
section
/-!
DEFINITION. Sys2Proof/Machine/Ops.lean: the operations that every family of commands shares: reading and writing
registers and their fields, device time, late work (spec/01 R33, R41), rings, events, completions and long operations
(spec/15), interrupts and counters of the cores (spec/16).
-/
namespace Sys2Proof.Machine
open Sys2Proof

/-! ### Registers (spec/00 R16, R17; spec/15 R460) -/

/-- The word held at byte address `a`. -/
def State.reg (s : State) (a : Nat) : Word := (Tab.find a s.regs).getD (RegMap.reset a)

/-- Store word `w` at byte address `a`. -/
def State.setReg (s : State) (a : Nat) (w : Word) : State :=
  { s with regs := if w = RegMap.reset a then Tab.del a s.regs else Tab.ins a w s.regs }

/-- The word that register `a` holds from the next boundary on (spec/18 R546). -/
def State.regW (s : State) (a : Nat) : Word := ((s.waiting.reverse.find? fun p => p.addr == a).map (·.word)).getD (s.reg a)

/-- Register `a` takes word `w` at the next boundary. -/
def State.wait (s : State) (a : Nat) (w : Word) : State := { s with waiting := s.waiting ++ [{ addr := a, word := w }] }

/-- Bits of a register that a write sets: type RW (spec/00 R16); TB of EVOUT0 is none (spec/13 R439). -/
def rwMask (a : Nat) : Word :=
  match RegMap.find a with
  | some h => if a = Reg.evoutCfg 0 then BitVec.ofNat 32 h.row.rw &&& 0xF3FFFFFF#32 else BitVec.ofNat 32 h.row.rw
  | none => 0#32

/-- Bits of a register that start an action: type RWS (spec/00 R16). -/
def rwsMask (a : Nat) : Word :=
  match RegMap.find a with
  | some h => BitVec.ofNat 32 h.row.rws
  | none => 0#32

/-- A write of word `w` to the RW bits of a register; the other bits keep their values. -/
def State.putRw (s : State) (a : Nat) (w : Word) : State := s.setReg a ((s.reg a &&& ~~~(rwMask a)) ||| (w &&& rwMask a))

/-- A write of word `w` to the W1C bits of a register: those written 1 clear (spec/00 R16). -/
def State.putW1c (s : State) (a : Nat) (w : Word) : State :=
  match RegMap.find a with
  | some h => s.setReg a (s.reg a &&& ~~~(w &&& BitVec.ofNat 32 h.row.w1c))
  | none => s

/-- The value of a field in a word. -/
def Fld.of (f : Fld) (w : Word) : Nat := (w.extractLsb' f.lo f.len).toNat

/-- The bits of a field. -/
def Fld.mask (f : Fld) : Word := BitVec.ofNat 32 ((2 ^ f.len - 1) * 2 ^ f.lo)

/-- A word with a field set to a value, cut to the field's width. -/
def Fld.upd (f : Fld) (w : Word) (v : Nat) : Word :=
  (w &&& ~~~f.mask) ||| (BitVec.ofNat 32 (v % 2 ^ f.len) <<< f.lo)

/-- The value of a register field. -/
def State.fld (s : State) (f : Fld) : Nat := f.of (s.reg f.addr)

/-- A one-bit field is set. -/
def State.flag (s : State) (f : Fld) : Bool := s.fld f != 0

/-- Set a register field. -/
def State.setF (s : State) (f : Fld) (v : Nat) : State := s.setReg f.addr (f.upd (s.reg f.addr) v)

/-- Add to a counting field, which stays at its largest value (`saturates`). -/
def State.bump (s : State) (f : Fld) (n : Nat := 1) : State := s.setF f (sat (2 ^ f.len - 1) (s.fld f + n))

/-- Apply `f` if `c`. -/
def State.when (s : State) (c : Bool) (f : State → State) : State := if c then f s else s

/-- Apply `f` for each element of a list, in order. -/
def State.each {α : Type} (s : State) (l : List α) (f : State → α → State) : State := l.foldl f s

/-! ### Device time (spec/00 R12, R13) -/

/-- Units of 2^-44 ns in a second. -/
def unitsPerSec : Nat := 1000000000 * 2 ^ 44

/-- The range of a counter: 2^48 seconds. -/
def counterRange : Nat := 2 ^ 48 * unitsPerSec

/-- Stamp units (2^-16 ns) in a second. -/
def stampSec : Nat := 1000000000 * 2 ^ 16

/-- A counter value read as a timestamp: the fraction is truncated (spec/00 R13). -/
def Counter.stamp (c : Counter) : Stamp := c.val / 2 ^ 28

/-- Seconds, nanoseconds and fraction of a timestamp. -/
def Stamp.sec (t : Stamp) : Nat := t / stampSec
def Stamp.ns (t : Stamp) : Nat := t % stampSec / 2 ^ 16
def Stamp.frac (t : Stamp) : Nat := t % 2 ^ 16

/-- The three fields of a timestamp at byte `off` of a record: 48-bit seconds, 32-bit nanoseconds, 16-bit fraction. -/
def Stamp.fields (t : Stamp) (off : Nat) : List (Nat × Nat × Nat) :=
  [(off, 6, Stamp.sec t), (off + 6, 4, Stamp.ns t), (off + 10, 2, Stamp.frac t)]

/-- The timestamp that 12 bytes of a record hold. -/
def stampAt {n : Nat} (r : BitVec n) (off : Nat) : Stamp :=
  byteField r off 6 * stampSec + byteField r (off + 6) 4 * 2 ^ 16 + byteField r (off + 10) 2

/-- One tick of a counter: it adds its increment (spec/00 R13). -/
def Counter.tick (n : Nat) (c : Counter) : Counter := { c with val := (c.val + n * c.incr.toNat) % counterRange }

/-- Counter `k`. -/
def State.cnt (s : State) (k : Nat) : Counter := s.time.cnt.getD k {}

/-- Change counter `k`. -/
def State.modCnt (s : State) (k : Nat) (f : Counter → Counter) : State :=
  { s with time := { s.time with cnt := s.time.cnt.modify k f } }

/-- TCNT0 as a timestamp, tick resolution (spec/09 R294). -/
def State.now (s : State) : Stamp := (s.cnt 0).stamp

/-- `n` core ticks pass: every counter adds its increment at each (spec/00 R13). -/
def State.ticks (s : State) (n : Nat) : State :=
  { s with time := { s.time with
      tick := s.time.tick + n, beatTicks := s.time.beatTicks + n, cnt := s.time.cnt.map (Counter.tick n) } }

/-- Milliseconds of a number of ticks: 1,600,000 ticks of 625 ps each (spec/01 R23). -/
def ticksMs (n : Nat) : Nat := n / 1600000

/-- Number of the present beat (spec/01 R36). -/
def State.beat (s : State) : Nat := s.fld F.globalBeat_BEAT

/-- A free value (a constant of Config applied to the number of values taken before), and the state after taking it. (DESIGN CHOICE, log entry 8) -/
def State.fresh (s : State) : State := { s with freeCtr := s.freeCtr + 1 }

/-! ### Cores: interrupts and performance counters (spec/16 R496, R509) -/

def State.core (s : State) (c : Nat) : CoreSt := Tab.get s.cores.core {} c

def State.setCore (s : State) (c : Nat) (x : CoreSt) : State :=
  { s with cores := { s.cores with core := Tab.put s.cores.core {} c x } }

def State.modCore (s : State) (c : Nat) (f : CoreSt → CoreSt) : State := s.setCore c (f (s.core c))

/-- Interrupt `i` becomes pending at core `c` (spec/16 R496). -/
def State.raiseInt (s : State) (c i : Nat) : State :=
  s.modCore c fun x => { x with intPend := x.intPend ||| BitVec.ofNat 8 (2 ^ i) }

/-- Count event `e` of core `c`; a counter that wraps sets its bit and raises PERF_WRAP (spec/16 R509). -/
def State.perf (s : State) (c e : Nat) (n : Nat := 1) : State :=
  let v := Tab.get (s.core c).cnt 0 e + n
  let s := s.modCore c fun x => { x with cnt := Tab.put x.cnt 0 e (v % 2 ^ 48) }
  if v < 2 ^ 48 then s
  else
    let a := if e < 32 then Reg.perfWrapLo c else Reg.perfWrapHi c
    (s.setReg a (s.reg a ||| BitVec.ofNat 32 (2 ^ (e % 32)))).raiseInt c 6

/-! ### Writing host memory and signalling (spec/15 R466, R487) -/

/-- The device's write `p` leaves on the link, or is kept while DMA_OFF is set (spec/15 R487). (DESIGN CHOICE, log entry 4) -/
def State.post (s : State) (p : Post) : State :=
  if s.flag F.hostifEmerg_DMA_OFF then { s with host := { s.host with held := p :: s.host.held } }
  else { s with host := { s.host with posts := p :: s.host.posts } }

/-- Bytes of an entry of ring `r` (spec/15 R462). -/
def ringEntry (r : Nat) : Nat :=
  if r < 64 then 32 else if r = 64 then 128 else if r < 67 then 64 else if r = 67 then 192 else 128

/-- Entries of ring `r` (spec/15 R489: SIZE_LOG2 below 6 acts as 6, above 16 as 16). -/
def State.ringSize (s : State) (r : Nat) : Nat := 2 ^ (max 6 (min 16 (s.fld (F.ringCfg_SIZE_LOG2 r))))

def State.devIdx (s : State) (r : Nat) : Nat := (s.reg (Reg.ringDevIdx r)).toNat
def State.hostIdx (s : State) (r : Nat) : Nat := (s.reg (Reg.ringHostIdx r)).toNat

/-- Entries of ring `r` between the two indices, modulo 2^32 (spec/15 R463). -/
def State.ringUsed (s : State) (r : Nat) : Nat := (s.devIdx r + 2 ^ 32 - s.hostIdx r) % 2 ^ 32

/-- Ring `r` is enabled and not stopped. -/
def State.ringOn (s : State) (r : Nat) : Bool := s.flag (F.ringCfg_EN r) && !(Tab.get s.host.stopped false r)

/-- Free slots of a device-filled ring; entries kept back have theirs (spec/15 R487). -/
def State.ringFree (s : State) (r : Nat) : Nat :=
  if s.ringOn r then s.ringSize r - s.ringUsed r - (s.host.heldEntries.filter (·.ring == r)).length else 0

/-- FULL of a device-filled ring follows its indices (spec/15 R463, R489). -/
def State.showFull (s : State) (r : Nat) : State :=
  s.setF (F.ringStatus_FULL r) (bit (65 ≤ r && s.ringUsed r == s.ringSize r))

/-- Address of the status block, if it is kept (spec/15 R466). -/
def State.statAddr (s : State) : Option Nat :=
  if s.flag F.hostifCfg_STAT_EN then
    some ((s.reg Reg.hostifStatAddrHi).toNat * 2 ^ 32 + (s.reg Reg.hostifStatAddrLo).toNat / 512 * 512)
  else none

/-- Signal the vector of ring `r`, or set its pending bit where the vector is masked (spec/15 R459, R466); with DMA_OFF set the signal
stays due (R487). -/
def State.signal (s : State) (r : Nat) : State :=
  let v := s.fld (F.ringCfg_VECTOR r)
  let masked := s.flag (F.msixCtrl_MASK v)
  if s.flag F.hostifEmerg_DMA_OFF && !masked then { s with host := { s.host with sigDue := Tab.put s.host.sigDue false r true } }
  else
  let s := { s with host := { s.host with
    lastSignal := Tab.put s.host.lastSignal 0 r (s.time.tick + 1), sigDue := Tab.put s.host.sigDue false r false } }
  if masked then
    s.setReg (Reg.msixPba (v / 32)) (s.reg (Reg.msixPba (v / 32)) ||| BitVec.ofNat 32 (2 ^ (v % 32)))
  else s.post (.msix v)

/-- The tick from which ring `r` may signal: MOD_US after its last signal (spec/15 R466). -/
def State.signalFrom (s : State) (r : Nat) : Nat :=
  let last := Tab.get s.host.lastSignal 0 r
  if last = 0 then 0 else last - 1 + 1600 * s.fld (F.ringCfg_MOD_US r)

/-- Ring `r` has new entries: its vector is signalled no earlier than MOD_US after its last signal (spec/15 R466). -/
def State.signalSoon (s : State) (r : Nat) : State :=
  if s.signalFrom r ≤ s.time.tick then s.signal r
  else { s with host := { s.host with sigDue := Tab.put s.host.sigDue false r true } }

/-- DEV_IDX of ring `r` advances and is written to the status block (spec/15 R466). -/
def State.advance (s : State) (r : Nat) (n : Nat := 1) : State :=
  let s := (s.setReg (Reg.ringDevIdx r) (BitVec.ofNat 32 (s.devIdx r + n))).showFull r
  match s.statAddr with
  | some a => s.post (.mem (a + 0x40 + 4 * r) 4 (s.devIdx r))
  | none => s

/-- Host address of the slot that index `i` of ring `r` names. -/
def State.slotAddr (s : State) (r i : Nat) : Nat :=
  Tab.get s.host.base 0 r + i % s.ringSize r * ringEntry r

/-- Write one entry of ring `r`: entry, device index, then the vector (spec/15 R466); with DMA_OFF set it is kept back (R487). -/
def State.writeEntry (s : State) (r data : Nat) (irq : Bool := true) : State :=
  if s.flag F.hostifEmerg_DMA_OFF then { s with host := { s.host with heldEntries := s.host.heldEntries ++ [⟨r, data, irq⟩] } }
  else
  let s := (s.post (.mem (s.slotAddr r (s.devIdx r)) (ringEntry r) data)).advance r
  if irq then s.signalSoon r else s

/-! ### Events (spec/15 R472, R478; spec/16 R500) -/

/-- An event record of 64 bytes (spec/15 R478). -/
def eventRec (code len : Nat) (seq : BitVec 32) (t : Stamp) (payload : BitVec 256) : BitVec 512 :=
  packLE 512 ([(0, 2, code), (2, 1, len), (4, 4, seq.toNat), (32, 32, payload.toNat)] ++ Stamp.fields t 8)

/-- Take the next SEQ (spec/15 R478: it counts every event raised, lost ones and EVENT_LOST too). -/
def State.nextSeq (s : State) : State := { s with host := { s.host with evSeq := s.host.evSeq + 1 } }

/-- Copy an event record into the FIFO of user core `c`, if its mask selects it (spec/16 R500). -/
def State.fifoCopy (s : State) (code : Nat) (rec : BitVec 512) (c : Nat) : State :=
  if bitAt (s.fld (F.coreMb_EVT_MASK (c - 6))) (code / 256) then
    if (s.core c).fifoN < 16 then
      ((s.modCore c fun x => { x with
        fifo := Tab.ins ((x.fifoHead + x.fifoN) % 16) rec x.fifo, fifoN := x.fifoN + 1 }).perf c 31).raiseInt c 4
    else s.perf c 32
  else s

/-- While losses are unreported and a slot is free, EVENT_LOST is written; it may take the last slot (spec/15 R478). -/
def State.reportLost (s : State) : State :=
  match s.host.lost with
  | none => s
  | some l =>
    if s.ringFree 66 = 0 then s
    else
      let p := packLE 256 [(0, 4, l.count), (4, 2, l.first.toNat), (6, 2, l.last.toNat), (8, 4, l.seq.toNat)]
      let r := eventRec 0x0C01 16 s.host.evSeq s.now p
      let s := { s with host := { s.host with lost := none } }
      (((s.nextSeq.writeEntry 66 r.toNat).fifoCopy 0x0C01 r 6).fifoCopy 0x0C01 r 7)

/-- An event is lost and counted (spec/15 R478; the ring's LOSS, R489). -/
def State.loseEvent (s : State) (code : Nat) (seq : BitVec 32) : State :=
  let l := match s.host.lost with
    | none => ⟨1, BitVec.ofNat 16 code, BitVec.ofNat 16 code, seq⟩
    | some l => { l with count := sat (2 ^ 32 - 1) (l.count + 1), last := BitVec.ofNat 16 code }
  { s with host := { s.host with lost := some l } }.bump (F.ringLoss_COUNT 66)

/-- Raise event `code` with a payload of `len` bytes (spec/15 R478). -/
def State.raise (s : State) (code len : Nat) (fields : List (Nat × Nat × Nat)) : State :=
  let s := s.reportLost
  let seq := s.host.evSeq
  let r := eventRec code len seq s.now (packLE 256 fields)
  let s := ((s.nextSeq.fifoCopy code r 6).fifoCopy code r 7)
  if s.host.lost.isNone && decide (2 ≤ s.ringFree 66) then s.writeEntry 66 r.toNat
  else (s.loseEvent code seq).reportLost

/-! ### Late work (spec/01 R33, R38 to R41) -/

/-- `n` late cases of category `k` (spec/01 R33): counted; the flag's 0 to 1 raises BEAT_LATE where enabled (R41). (DEDUCED, log entry 51) -/
def State.late (s : State) (k : Nat) (n : Nat := 1) : State :=
  if n = 0 then s
  else
    let f : Fld := ⟨Reg.globalLateFlags, k, 1⟩
    let first := !s.flag f
    let s := (s.bump (F.globalLateCnt_COUNT k) n).setF f 1
    if first && bitAt (s.fld F.globalLateEvmask_ENABLE) k then
      s.raise 0x0110 16 [(0, 1, k), (4, 4, s.beat), (8, 6, Stamp.sec s.now)]
    else s

/-! ### Commands and completions (spec/15 R469 to R474; spec/16 R499) -/

end Sys2Proof.Machine

namespace Sys2Proof
open Sys2Proof.Machine

/-- A number in the payload of a command. -/
def Cmd.fld (c : Cmd) (off len : Nat) : Nat := byteField c.payload off len

/-- The payload is zero outside the first `n` bytes and inside the listed reserved bytes, and so are the descriptor's
reserved bits (spec/15 R469). -/
def Cmd.ok (c : Cmd) (n : Nat) (resv : List (Nat × Nat) := []) : Bool :=
  c.resv == 0 && c.flags.toNat < 4 && c.payload.toNat < 2 ^ (8 * n) && resv.all (fun r => c.fld r.1 r.2 == 0)

/-- Number of the user core a mailbox command comes from. -/
def Cmd.user (c : Cmd) : Option (Nat × Nat) :=
  match c.src with
  | .host => none
  | .mbox k i => some (6 + k.val, i.val)

/-- The source of the command in CORE4's rotation: 0 the command ring, 1 and 2 the mailboxes of CORE6 and CORE7 (spec/16 R499). -/
def Cmd.source (c : Cmd) : Nat :=
  match c.user with
  | none => 0
  | some u => u.1 - 5

/-- The 128 bytes of the command as a descriptor of opcode `op` (spec/15 R469): the reserved bits are byte 3, then bytes 8 to 15. -/
def Cmd.descriptor (c : Cmd) (op : Nat) : BitVec 1024 :=
  packLE 1024 [(0, 2, op), (2, 1, c.flags.toNat), (3, 1, c.resv.toNat % 256), (4, 4, c.tag.toNat), (8, 8, c.resv.toNat / 256),
    (16, 112, c.payload.toNat)]

end Sys2Proof

namespace Sys2Proof.Machine
open Sys2Proof

/-- A completion record of 64 bytes (spec/15 R471). -/
def cplRec (c : Cmd) (op status flags handle lower : Nat) (t : Stamp) (data : BitVec 256) : BitVec 512 :=
  packLE 512 ([(0, 2, op), (2, 1, status), (3, 1, flags), (4, 4, c.tag.toNat), (8, 4, handle), (12, 1, lower),
    (32, 32, data.toNat)] ++ Stamp.fields t 16)

/-- The handle in the final completion `rec` is valid no longer: the completion has been written, or dropped (spec/15 R475). (DEDUCED, log entry 37) -/
def State.handleGone (s : State) (rec : BitVec 512) : State :=
  { s with host := { s.host with ended := s.host.ended.filter (·.handle ≠ rec.extractLsb' 64 32) } }

/-- Write waiting completions, in order, while the completion ring has space (spec/15 R471) and DMA_OFF is clear (R487). -/
def State.flushCpl (s : State) : Nat → State
  | 0 => s
  | n + 1 =>
    match s.host.waitCpl with
    | [] => s
    | c :: rest =>
      if s.ringFree 65 = 0 ∨ s.flag F.hostifEmerg_DMA_OFF then s
      else
        let s := { s with host := { s.host with waitCpl := rest } }
        ((s.writeEntry 65 c.record.toNat (!c.noIrq)).when c.final fun s => s.handleGone c.record).flushCpl n

/-- Hand a completion to its receiver (spec/15 R471, R484; spec/16 R499): the host's ring, in order; or the mailbox slot
of its request, with DONE and MAILBOX, unless the core has restarted since. -/
def State.deliver (s : State) (c : Cmd) (rec : BitVec 512) (flags : Nat) : State :=
  match c.user with
  | none =>
    let k : Cpl := ⟨rec, bitAt c.flags.toNat 1, bitAt flags 1⟩
    if s.host.ringsReset then
      if k.final && decide (s.host.keptFinal.length < 64) then
        { s with host := { s.host with keptFinal := s.host.keptFinal ++ [k] } }
      else (s.bump (F.hostifCnt_COUNT 6)).when k.final fun s => s.handleGone rec
    else
      let s := { s with host := { s.host with waitCpl := s.host.waitCpl ++ [k] } }
      s.flushCpl s.host.waitCpl.length
  | some (u, i) =>
    let m := BitVec.ofNat 8 (2 ^ i)
    let s := (if bitAt flags 0 then s else s.modCore u fun x => { x with mbBusy := x.mbBusy &&& ~~~m, mbTaken := x.mbTaken &&& ~~~m }).when
      (bitAt flags 1) fun s => s.handleGone rec
    if (s.core u).mbDrop &&& m ≠ 0 then
      if bitAt flags 0 then s else s.modCore u fun x => { x with mbDrop := x.mbDrop &&& ~~~m }
    else
      ((s.modCore u fun x => { x with mbCpl := Tab.ins i rec x.mbCpl, mbDone := x.mbDone ||| m }).perf u 30).raiseInt u 3

/-- Complete command `c` of opcode `op`. -/
def State.complete (s : State) (c : Cmd) (op status : Nat) (data : BitVec 256 := 0) (flags handle lower : Nat := 0) : State :=
  let rec' := c.user.isNone && s.host.readOk.contains c.tag
  let fl := flags ||| (if rec' then 8 else 0)
  let lo := if lower = 0 ∧ rec' then 2 else lower
  let s := { s with host := { s.host with readOk := s.host.readOk.filter (· ≠ c.tag) } }
  s.deliver c (cplRec c op status fl handle lo s.now data) fl

/-- Status codes (spec/15 R473). -/
def st.ok : Nat := 0
def st.busy : Nat := 1
def st.badArg : Nat := 2
def st.badState : Nat := 3
def st.version : Nat := 4
def st.noResource : Nat := 5
def st.cancelled : Nat := 6
def st.suspended : Nat := 7
def st.timeout : Nat := 8
def st.authFail : Nat := 9
def st.rollback : Nat := 10
def st.conflict : Nat := 11
def st.hwFault : Nat := 12

/-- Park command `c`: it waits for a boundary, a resource or a hardware action (spec/15 R470). -/
def State.park (s : State) (c : Cmd) (op : Nat) (issued : Bool := false) : State :=
  { s with host := { s.host with
      parked := s.host.parked ++ [{ id := s.host.nextId, cmd := c, op := op, issued := issued }],
      nextId := s.host.nextId + 1 } }

/-- The parked command of id `i`. -/
def State.parkedAt (s : State) (i : Nat) : Option Parked := s.host.parked.find? (·.id == i)

def State.unpark (s : State) (i : Nat) : State :=
  { s with host := { s.host with parked := s.host.parked.filter (·.id ≠ i) } }

def State.modParked (s : State) (i : Nat) (f : Parked → Parked) : State :=
  { s with host := { s.host with parked := s.host.parked.map fun p => if p.id = i then f p else p } }

/-- Park command `c`; the state and the id it waits under. -/
def State.parkId (s : State) (c : Cmd) (op : Nat) (issued : Bool := false) : State × Nat := (s.park c op issued, s.host.nextId)

/-- The parked command `p` ends: its completion, or one more dropped where domain reset 4 has come since it started (spec/15 R484). -/
def State.endParked (s : State) (p : Parked) (status : Nat) (data : BitVec 256) (flags lower : Nat) : State :=
  let s := s.unpark p.id
  if p.lost then s.bump (F.hostifCnt_COUNT 6)
  else s.complete p.cmd p.op status data (flags + (if p.recovered then 8 else 0)) 0 lower

/-- Complete the parked command of id `i`, if it still waits. -/
def State.finish (s : State) (i status : Nat) (data : BitVec 256 := 0) : State :=
  match s.parkedAt i with
  | none => s
  | some p => s.endParked p status data 0 p.lower

/-- The firmware of core `c` is being replaced: the service that it gives pauses (spec/01 R44, spec/16 R491). -/
def State.replaced (s : State) (c : Nat) : Bool := s.fld (F.coreStatus_STATE c) == 4

/-- CORE4 serves commands: it is running (boot stage 4 or later), or the recovery ROM serves uploads (spec/03 R82). (DEDUCED, log entry 3) -/
def State.serving (s : State) : Bool :=
  !s.power.mainReset && (s.fld (F.coreStatus_STATE 4) == 1 || s.fld (F.coreStatus_STATE 4) == 2 || s.fld F.globalBoot_STAGE == 15)

/-- A command waits at source `k` (spec/15 R462, R470, R487; spec/16 R498): the host's ring holds descriptors and may be read; a posted
request slot has not been taken. (DEDUCED, log entry 3) -/
def State.hasCmd (s : State) (k : Nat) : Bool :=
  if k = 0 then s.ringOn 64 && s.devIdx 64 != s.hostIdx 64 && !s.flag F.hostifEmerg_DMA_OFF && s.host.pm == .d0
  else (s.core (5 + k)).mbBusy &&& ~~~((s.core (5 + k)).mbTaken) != 0

/-- The source that CORE4 serves: the next one in rotation at which a command waits (spec/16 R499). (DEDUCED, log entry 3) -/
def State.turn (s : State) : Nat :=
  ((List.range 3).map fun i => (s.host.turn + i) % 3).find? s.hasCmd |>.getD 3

/-- Commands in progress, the completions that wait among them (spec/15 R470, R471). (DEDUCED, log entry 3) -/
def State.inProgress (s : State) : Nat := s.host.parked.length + s.host.waitCpl.length

/-- CORE4 comes to command `c` of opcode `op` (spec/15 R470, spec/16 R498, R499): it serves, the command's source has its turn, its request
slot holds the descriptor, and fewer than 256 commands are in progress. (DEDUCED, log entry 3) -/
def State.takesCmd (s : State) (c : Cmd) (op : Nat) : Bool :=
  s.serving && s.turn == c.source && decide (s.inProgress < 256) &&
    c.user.all fun u => (s.core u.1).mbBusy.getLsbD u.2 && !(s.core u.1).mbTaken.getLsbD u.2 &&
      Tab.get (s.core u.1).mbReq 0 u.2 == c.descriptor op

/-- Command `c` waits for the earlier commands: it has FENCE, and one of them has not completed (spec/15 R470). (DEDUCED, log entry 3) -/
def State.fenced (s : State) (c : Cmd) : Bool :=
  bitAt c.flags.toNat 0 && s.host.parked.any fun p => decide (p.id < (Tab.find c.source s.host.fenceAt).getD s.host.nextId)

/-- Command `c` of opcode `op` may not start yet: FENCE, or the firmware of CORE5, whose service the commands of UPDATE and SECURITY are, is
being replaced (spec/01 R44). (DEDUCED, log entry 3) -/
def State.cmdHeld (s : State) (c : Cmd) (op : Nat) : Bool := s.fenced c || (op / 256 == 0x0E && s.replaced 5)

/-- CORE4 starts command `c` of opcode `op` now. -/
def State.mayStart (s : State) (c : Cmd) (op : Nat) : Bool := s.takesCmd c op && !s.cmdHeld c op

/-- The turn of the source of command `c` passes. -/
def State.turnPasses (s : State) (c : Cmd) : State := { s with host := { s.host with turn := (c.source + 1) % 3 } }

/-- Command `c`, reached by CORE4, has to wait; the other sources go on (spec/15 R470, spec/16 R499). (DEDUCED, log entry 3) -/
def State.cmdWaits (s : State) (c : Cmd) : State :=
  let s := s.turnPasses c
  if s.fenced c then
    { s with host := { s.host with
      fenceAt := Tab.ins c.source ((Tab.find c.source s.host.fenceAt).getD s.host.nextId) s.host.fenceAt } }
  else s

/-- CORE4 fetches command `c`: the command index of the host's ring advances (spec/15 R462, R470), or the request slot is taken (spec/16
R498). (DEDUCED, log entry 3) -/
def State.fetched (s : State) (c : Cmd) : State :=
  let s := s.turnPasses c
  let s := { s with host := { s.host with fenceAt := Tab.del c.source s.host.fenceAt } }
  match c.user with
  | none => s.advance 64
  | some (u, i) => s.modCore u fun x => { x with mbTaken := x.mbTaken ||| BitVec.ofNat 8 (2 ^ i) }

/-- Start command `c` of opcode `op` (spec/15 R469, R470; spec/16 R499, spec/17 R540): nothing unless CORE4 comes to it, and it waits while
something holds it; BAD_ARG for reserved bits; BAD_STATE for an opcode the core may not use, or in recovery for one that is no image upload
(spec/17 R532); HW_FAULT where one of its reads gave up (R482); else its own effect `body`. (DEDUCED, log entry 3) -/
def State.start (s : State) (c : Cmd) (op : Nat) (okay : Bool) (body : State → State) : State :=
  if !s.takesCmd c op then s
  else if s.cmdHeld c op then s.cmdWaits c
  else
  let s := s.fetched c
  if c.user.any (fun u => (op ≠ 0x0C03 && !bitAt (s.fld (F.coreMb_ALLOW (u.1 - 6))) (op / 256)) || (op / 256 == 0x0E && op ≠ 0x0E06)) then
    s.complete c op st.badState
  else if s.fld F.globalBoot_STAGE == 15 && !(op == 0x0C03 || op == 0x0E01 || op == 0x0103 || (op == 0x0E03 && c.fld 0 1 == 1)) then
    s.complete c op st.badState
  else if !okay then s.complete c op st.badArg
  else if c.user.isNone && s.host.readFail.contains c.tag then
    { s with host := { s.host with readFail := s.host.readFail.filter (· ≠ c.tag) } }.complete c op st.hwFault 0 0 0 4
  else body s

/-! ### Long operations (spec/15 R475 to R477) -/

def longCode : LongState → Nat
  | .queued => 0
  | .running => 1
  | .suspended => 2
  | .done => 3
  | .cancelled => 4
  | .failed => 5

/-- The operation of a handle. -/
def State.longAt (s : State) (h : BitVec 32) : Option LongOp := s.host.longOps.find? (·.handle == h)

def State.modLong (s : State) (h : BitVec 32) (f : LongOp → LongOp) : State :=
  { s with host := { s.host with longOps := s.host.longOps.map fun o => if o.handle = h then f o else o } }

/-- The operation of opcode `op` that has begun to run. -/
def State.modOp (s : State) (op : Nat) (f : LongOp → LongOp) : State :=
  { s with host := { s.host with longOps := s.host.longOps.map fun o => if o.op = op ∧ o.started then f o else o } }

/-- An operation changes state into QUEUED, RUNNING or SUSPENDED: LONG_STATE is raised (spec/15 R475, R479). -/
def State.setLong (s : State) (h : BitVec 32) (st : LongState) : State :=
  match s.longAt h with
  | none => s
  | some o =>
    if o.state = st then s
    else (s.modLong h fun o => { o with state := st }).raise 0x0C03 16
      [(0, 4, h.toNat), (4, 2, o.op), (6, 1, longCode o.state), (7, 1, longCode st), (8, 4, o.progress)]

/-- The lowest free operation slot. -/
def State.freeLong (s : State) : Option Nat :=
  (List.range 64).find? fun k => s.host.longOps.all fun o => o.handle.toNat % 64 ≠ k

/-- A POWER_STATE_SET waits for long operations to end: new ones complete with BAD_STATE (spec/03 R101). -/
def State.longBarred (s : State) : Bool :=
  match s.power.trans with
  | some t => t.phase == .waitOps
  | none => false

/-- Accept a long operation that needs resource `res` (spec/15 R475): it starts at once, or waits while another operation
of the same resource runs. `hold` says that something else keeps it waiting; `onStart` is what starting it does. -/
def State.startLong (s : State) (c : Cmd) (op res total : Nat) (args : List Nat := [])
    (onStart : State → BitVec 32 → State := fun s _ => s) (hold : Bool := false) : State :=
  if s.longBarred then s.complete c op st.badState
  else match s.freeLong with
  | none => s.complete c op st.noResource
  | some k =>
    let q := if s.host.longSeq + 1 = 0 then 1#16 else s.host.longSeq + 1
    let h := BitVec.ofNat 32 (q.toNat * 2 ^ 16 + k)
    let busy := hold || s.host.longOps.any fun o => o.res == res && o.state != .suspended
    let o : LongOp := { handle := h, cmd := c, op := op, state := if busy then .queued else .running, res := res, total := total, tick := s.time.tick, args := args }
    let s := { s with host := { s.host with longSeq := q, longOps := s.host.longOps ++ [o] } }
    let s := s.complete c op st.ok 0 1 h.toNat
    if busy then s else onStart (s.modLong h fun o => { o with started := true }) h

/-- End an operation with its final completion; its handle stays valid until that has been written (spec/15 R475, R482). (DEDUCED, log entry 37) -/
def State.endLong (s : State) (h : BitVec 32) (status : Nat) (data : BitVec 256 := 0) : State :=
  match s.longAt h with
  | none => s
  | some o =>
    let e : LongState := if status = st.ok then .done else if status = st.cancelled then .cancelled else .failed
    let s := { s with host := { s.host with
      longOps := s.host.longOps.filter (·.handle ≠ h), ended := s.host.ended ++ [{ o with state := e }] } }
    let s := s.complete o.cmd o.op status data (2 + (if o.recovered then 8 else 0)) h.toNat o.lower
    match o.suspend with
    | some i => s.finish i st.badArg
    | none => s

/-! ### The main domain -/

/-- The main domain runs: it is out of reset and the cores have been released (spec/03 R82, stage 4 and later). -/
def State.up (s : State) : Bool := !s.power.mainReset

/-- The main domain has joined the beat (spec/03 R83). -/
def State.joinedBeat (s : State) : Bool := !s.power.mainReset && s.power.joined

/-- The device is in DIP (spec/03 R106). (DEDUCED, log entry 12) -/
def State.inDip (s : State) : Bool := s.power.dip.isSome

/-- A step of TCNT0 moves the dips with the time (spec/09 R313). -/
def State.dipMove (s : State) (d : Int) : State :=
  let f (t : Nat) : Nat := ((t : Int) + d).toNat
  { s with power := { s.power with
      dip := s.power.dip.map fun x => { x with since := f x.since }, lastDip := s.power.lastDip.map fun x => (f x.1, f x.2) } }

/-- The instant `t` lies in a dip: the one in progress, or the last one that has ended (spec/09 R313). -/
def State.dipAt (s : State) (t : Stamp) : Bool :=
  s.power.dip.any (fun d => decide (d.since ≤ t)) || s.power.lastDip.any fun d => decide (d.1 ≤ t) && decide (t ≤ d.2)

end Sys2Proof.Machine
end

