-- ==== Sys2Proof/Machine/Banks.lean ====
section
/-!
DEFINITION. Sys2Proof/Machine/Banks.lean: the memory banks of the cores (spec/16 R497, R501 to R506): the bank window and the interleave,
who may access a bank, reading and writing bytes, and the buffers of commands (R499).
-/
namespace Sys2Proof.Machine
open Sys2Proof

/-- Owner codes (spec/16 R515): 10 to 14 act as 15. -/
def ownerCode (n : Nat) : Nat := if 10 ≤ n then 15 else n
def State.bankOwner (s : State) (b : Nat) : Nat := ownerCode (s.fld (F.bankCtrl_OWNER b))

/-- Bank and offset of an address in the bank window (spec/16 R497, R503). -/
def State.bankAt (s : State) (a : Nat) : Option (Nat × Nat) :=
  if 0x10000000 ≤ a ∧ a < 0x10400000 then
    let q := (a - 0x10000000) / 0x80000
    let o := (a - 0x10000000) % 0x80000
    if s.flag (F.quad_ILV_ACTIVE q) then some (4 * q + o / 4 % 4, o / 16 * 4 + o % 4) else some (4 * q + o / 0x20000, o % 0x20000)
  else none

/-- Owner `m` may access bank `b` (spec/16 R501, R504): from the write that starts a handover the old owner no longer may. -/
def State.bankOpen (s : State) (m b : Nat) : Bool :=
  s.bankOwner b == m && !s.flag (F.bankCtrl_PENDING b) && s.fld (F.bankCtrl_POWER_STATE b) == 2

/-- Every byte of a range lies in banks that owner `m` may access. -/
def State.rangeOpen (s : State) (m a len : Nat) : Bool :=
  (List.range len).all fun i => (s.bankAt (a + i)).any fun p => s.bankOpen m p.1

/-- The canonical form of the banks' bytes: keys rising, no byte listed that is 0, which is what an unlisted byte reads as (DESIGN CHOICE, log entry 7) -/
def Memory.wf (m : List Host.Cell) : Bool := Tab.canon (fun _ => 0) m

/-- A byte of the banks, by bank and offset. (DESIGN CHOICE, log entry 7) -/
def State.bankByte (s : State) (p : Nat × Nat) : Byte := Tab.get s.cores.mem 0 (131072 * p.1 + p.2)

/-- The little-endian number in `len` bytes at address `a`. (DESIGN CHOICE, log entry 7) -/
def State.memRead (s : State) (a len : Nat) : Nat :=
  (List.range len).foldr (fun i n => 256 * n + ((s.bankAt (a + i)).map fun p => (s.bankByte p).toNat).getD 0) 0

/-- Write `len` bytes of a little-endian number at address `a`. (DESIGN CHOICE, log entry 7) -/
def State.memWrite (s : State) (a len v : Nat) : State :=
  s.each (List.range len) fun s i =>
    match s.bankAt (a + i) with
    | some p => { s with cores := { s.cores with
        mem := Tab.put s.cores.mem 0 (131072 * p.1 + p.2) (BitVec.ofNat 8 (v / 2 ^ (8 * i))) } }
    | none => s

/-- The buffer of a command may be used: any host address; from a mailbox, addresses in banks that its core owns (spec/16 R499). -/
def State.bufOk (s : State) (src : Src) (a len : Nat) : Bool :=
  match src with
  | .host => true
  | .mbox k _ => s.rangeOpen (6 + k.val) a len

/-- A command fills its buffer: in host memory, or in the banks of its core. -/
def State.bufWrite (s : State) (src : Src) (a len v : Nat) : State :=
  match src with
  | .host => s.post (.mem a len v)
  | .mbox _ _ => s.memWrite a len v

end Sys2Proof.Machine
end

