-- ==== Sys2Proof/Machine/KlLine.lean ====
section
/-!
DEFINITION. Sys2Proof/Machine/KlLine.lean: the bits of a Knaeno link and of a lane's test patterns (spec/04 R119 to R125, R140): length
prefixes and idle fill, scrambler, RS(544,514), markers, symbols and stuffing, in the transmitter's order and back; PRBS sequences.
A list of bits is in the order of transmission; a number goes most significant bit first.
-/
namespace Sys2Proof.Machine
open Sys2Proof

/-- The low `n` bits of a number, most significant first. -/
def msbBits (n v : Nat) : List Bool := (List.range n).map fun i => v.testBit (n - 1 - i)

/-- The number that bits make, the first one the most significant. -/
def bitsNat (l : List Bool) : Nat := l.foldl (fun a b => 2 * a + b.toNat) 0

/-- Bytes as bits. (PRESUMED, log entry 58) -/
def byteBits (l : List Byte) : List Bool := l.flatMap fun b => msbBits 8 b.toNat

/-! ### CRC-8 and length prefixes (spec/04 R122, R124) -/

/-- CRC-8 of x⁸ + x² + x + 1, most significant bit first. -/
def crc8Bit (c : BitVec 8) : BitVec 8 := if c.msb then (c <<< 1) ^^^ 0x07#8 else c <<< 1
def crc8Byte (c b : BitVec 8) : BitVec 8 :=
  crc8Bit (crc8Bit (crc8Bit (crc8Bit (crc8Bit (crc8Bit (crc8Bit (crc8Bit (c ^^^ b))))))))

/-- The prefix of a frame of `len` bytes, FCS included; 0 is idle fill. -/
def klPrefix (len : Nat) : BitVec 32 :=
  let h := BitVec.ofNat 14 len ++ 0#10
  h ++ ([16, 8, 0].map fun k => h.extractLsb' k 8).foldl crc8Byte 0

/-- The check of a prefix is good. -/
def prefixOk (w : BitVec 32) : Bool := w.extractLsb' 0 8 == ([24, 16, 8].map fun k => w.extractLsb' k 8).foldl crc8Byte 0

/-- Frame length in a prefix. -/
def prefixLen (w : BitVec 32) : Nat := (w.extractLsb' 18 14).toNat

/-- A frame with its prefix, and idle fill, as bits. -/
def klChunk (l : List Byte) : List Bool := msbBits 32 (klPrefix l.length).toNat ++ byteBits l
def klIdle : List Bool := msbBits 32 (klPrefix 0).toNat

/-- The first four bytes of a list as a prefix. -/
def leadWord (l : List Byte) : BitVec 32 := BitVec.ofNat 32 ((l.take 4).foldl (fun a b => 256 * a + b.toNat) 0)

/-! ### The scrambler (spec/04 R120) -/

/-- State of the scrambler at the first payload bit of superblock `i`. -/
def scrSeed (i : Nat) : BitVec 58 := 0x3FFFFFFFFFFFF00#58 ||| BitVec.ofNat 58 (i % 256)

/-- Its next bit, x⁵⁸ + x³⁹ + 1, and the state after it. (PRESUMED, log entry 58) -/
def scrBit (st : BitVec 58) : Bool := st.getLsbD 57 ^^ st.getLsbD 38
def scrNext (st : BitVec 58) : BitVec 58 := (st <<< 1) ||| BitVec.ofNat 58 (scrBit st).toNat

/-- Bits scrambled from a state on; the same function descrambles. -/
def scramble : BitVec 58 → List Bool → List Bool
  | _, [] => []
  | st, b :: l => (b ^^ scrBit st) :: scramble (scrNext st) l

/-! ### RS(544,514) (spec/04 R119, R123) -/

/-- Multiplication in GF(2^10) of x¹⁰ + x³ + 1. (PRESUMED, log entry 58) -/
def gfX (a : Nat) : Nat := if 512 ≤ a then (2 * a) ^^^ 0x409 else 2 * a
def gfMul (a b : Nat) : Nat :=
  ((List.range 10).foldl (fun (p : Nat × Nat) i => (if b.testBit i then p.1 ^^^ p.2 else p.1, gfX p.2)) (0, a)).1

/-- Product over j < 30 of (x + α^j), without its leading 1, highest degree first. (PRESUMED, log entry 58) -/
def rsGen : List Nat :=
  ((List.range 30).foldl (fun (p : List Nat × Nat) _ =>
    (List.zipWith (· ^^^ ·) (p.1 ++ [0]) (0 :: p.1.map (gfMul p.2)), gfX p.2)) ([1], 1)).1.drop 1

/-- The 30 parity symbols of 514 message symbols: the remainder of the message times x³⁰. -/
def rsParity (m : List Nat) : List Nat :=
  m.foldl (fun r s =>
    let f := s ^^^ r.headD 0
    List.zipWith (· ^^^ ·) (r.drop 1 ++ [0]) (rsGen.map (gfMul f))) (List.replicate 30 0)

/-- Symbols of ten bits, the first the least significant. (PRESUMED, log entry 58) -/
def rsSyms : Nat → List Bool → List Nat
  | 0, _ => []
  | n + 1, l => bitsNat (l.take 10).reverse :: rsSyms n (l.drop 10)
def rsBits (m : List Nat) : List Bool := m.flatMap fun v => (msbBits 10 v).reverse

/-- Parity bits of the 5,140 message bits of a codeword. -/
def fecParity (m : List Bool) : List Bool := rsBits (rsParity (rsSyms 514 m))

/-- Powers and inverses in GF(2^10). -/
def gfPow (a : Nat) : Nat → Nat
  | 0 => 1
  | n + 1 => gfMul a (gfPow a n)
def gfInv (a : Nat) : Nat := gfPow a 1022

/-- The value at `x` of a polynomial, lowest degree first, and of one with its highest degree first. -/
def gfEval (p : List Nat) (x : Nat) : Nat := p.foldr (fun c v => c ^^^ gfMul v x) 0
def gfHorner (p : List Nat) (x : Nat) : Nat := p.foldl (fun v c => gfMul v x ^^^ c) 0

/-- α^0 to α^(n-1). -/
def gfRoots (n : Nat) : List Nat := ((List.range n).foldl (fun (p : List Nat × Nat) _ => (p.2 :: p.1, gfX p.2)) ([], 1)).1.reverse

/-- Syndromes of a received word of 544 symbols. -/
def rsSyndromes (w : List Nat) : List Nat := (gfRoots 30).map (gfHorner w)

/-- What the search for the error locator holds (Berlekamp and Massey): the locator, lowest degree first, the one before its last change
of length, its length, the steps since, the discrepancy then. -/
structure RsSearch where
  loc : List Nat := [1]
  old : List Nat := [1]
  len : Nat := 0
  gap : Nat := 1
  disc : Nat := 1

/-- Sum of two polynomials, lowest degree first. -/
def gfAdd : List Nat → List Nat → List Nat
  | [], q => q
  | p, [] => p
  | a :: p, b :: q => (a ^^^ b) :: gfAdd p q

/-- Step `n` of the search, over the syndromes `l`. -/
def RsSearch.step (l : List Nat) (x : RsSearch) (n : Nat) : RsSearch :=
  let d := (List.range (x.len + 1)).foldl (fun v i => v ^^^ gfMul (x.loc.getD i 0) (l.getD (n - i) 0)) 0
  if d = 0 then { x with gap := x.gap + 1 }
  else
    let c := gfAdd x.loc (List.replicate x.gap 0 ++ x.old.map (gfMul (gfMul d (gfInv x.disc))))
    if 2 * x.len ≤ n then { loc := c, old := x.loc, len := n + 1 - x.len, gap := 1, disc := d }
    else { x with loc := c, gap := x.gap + 1 }

/-- The received word with the errors taken out that the locator and the syndromes give: symbol `i`, from the last one on, is in error where
the locator has the root α^(-i). -/
def rsCorrect (w l : List Nat) (x : RsSearch) : List Nat :=
  let om := (List.range 30).map fun n => (List.range (n + 1)).foldl (fun v i => v ^^^ gfMul (x.loc.getD i 0) (l.getD (n - i) 0)) 0
  let odd := x.loc.mapIdx fun i c => if i % 2 = 1 then c else 0
  (List.zipWith (fun y a =>
    let z := gfInv a
    if gfEval x.loc z = 0 then y ^^^ gfMul (gfEval om z) (gfInv (gfEval odd z)) else y) w.reverse (gfRoots 544)).reverse

/-- The decoder of RS(544,514): the symbols of the codeword within 15 symbols of a received word, if there is one, and in how many symbols
they differ. (PRESUMED, log entry 58) -/
def rsDecode (w : List Nat) : Option (List Nat × Nat) :=
  let l := rsSyndromes w
  if l.all (· == 0) then some (w, 0)
  else
    let x := (List.range 30).foldl (RsSearch.step l) {}
    let c := rsCorrect w l x
    let n := ((List.zip w c).filter fun p => p.1 != p.2).length
    if n ≤ 15 ∧ (rsSyndromes c).all (· == 0) then some (c, n) else none

/-- A received codeword of 5,440 bits: its message bits, and the symbols corrected; none where it is uncorrectable, and its bits then pass as
they came. -/
def fecDecode (word : List Bool) : List Bool × Option Nat :=
  match rsDecode (rsSyms 544 word) with
  | some (c, n) => ((rsBits c).take 5140, some n)
  | none => (word.take 5140, none)

/-! ### Markers (spec/04 R122, R123, R125) -/

/-- A marker: SYNC, TYPE, DATA, CHECK. -/
def markerWord (ty : BitVec 8) (data : BitVec 32) : BitVec 64 :=
  0xF4C2#16 ++ (ty ++ (data ++ (ty :: [24, 16, 8, 0].map fun k => data.extractLsb' k 8).foldl crc8Byte 0))

/-- SYNC and CHECK of a marker are good. -/
def markerOk (w : BitVec 64) : Bool :=
  w.extractLsb' 48 16 == 0xF4C2#16 &&
    w.extractLsb' 0 8 == ([40, 32, 24, 16, 8].map fun k => w.extractLsb' k 8).foldl crc8Byte 0

/-- DATA of a DATA marker. -/
def dataField (fptr : BitVec 9) (idx : BitVec 8) (rf l1 : Bool) : BitVec 32 :=
  fptr ++ (idx ++ (BitVec.ofBool rf ++ (BitVec.ofBool l1 ++ 0#13)))

/-- DATA of TIME0 to TIME3: the stamp of superblock 0 and the superframe number. -/
def timeField (t : Stamp) (number : BitVec 16) (k : Nat) : BitVec 32 :=
  let sec := t / (1000000000 * 2 ^ 16)
  let ns := t % (1000000000 * 2 ^ 16) / 2 ^ 16
  if k = 0 then BitVec.ofNat 32 (sec / 2 ^ 16)
  else if k = 1 then BitVec.ofNat 32 (sec % 2 ^ 16 * 2 ^ 16 + ns / 2 ^ 16)
  else if k = 2 then BitVec.ofNat 32 (ns % 2 ^ 16 * 2 ^ 16 + t % 2 ^ 16)
  else number ++ 0#16

/-- SBIDX of the superblock that a good marker begins: in a DATA marker, and by its type in the others; none for another type. -/
def markerIdx (w : BitVec 64) : Option Nat :=
  let ty := (w.extractLsb' 40 8).toNat
  if ty = 1 then some (w.extractLsb' 23 8).toNat
  else if 0x10 ≤ ty ∧ ty ≤ 0x13 then some (ty - 0x10 + 4)
  else if ty = 0x20 then some 255
  else none

/-! ### Symbols and stuffing (spec/04 R119, R121) -/

/-- PAM4 levels of a Gray coded pair of bits; NRZ has levels 0 and 3. -/
def gray (a b : Bool) : Fin 4 := if a then (if b then 2 else 3) else (if b then 1 else 0)

def mapBits (pam4 : Bool) : List Bool → List (Fin 4)
  | a :: b :: l => if pam4 then gray a b :: mapBits pam4 l else (if a then 3 else 0) :: (if b then 3 else 0) :: mapBits pam4 l
  | [a] => [if a then 3 else 0]
  | [] => []

def unmapSyms (pam4 : Bool) (l : List (Fin 4)) : List Bool :=
  l.flatMap fun x => if pam4 then [decide (2 ≤ x), x == 1 || x == 2] else [decide (2 ≤ x)]

/-- The stuff symbol after a run at level `x`: on NRZ, the complement. -/
def stuffLevel (x : Fin 4) : Fin 4 := if 2 ≤ x then 0 else 3

/-- The run after a symbol. -/
def Run.next (r : Run) (x : Fin 4) : Run := (x, if x = r.1 then r.2 + 1 else 1)

/-- Symbols with one stuff symbol after each 24 equal ones, and the run at the end. -/
def stuff : Run → List (Fin 4) → List (Fin 4) × Run
  | r, [] => ([], r)
  | r, x :: l =>
    let r := r.next x
    if r.2 = 24 then
      let t := stuff (stuffLevel x, 1) l
      (x :: stuffLevel x :: t.1, t.2)
    else
      let t := stuff r l
      (x :: t.1, t.2)

/-- The receiver deletes the symbol after each 24 equal ones; one that equals the run's level is a stuff violation. Symbols, the run at the
end, violations. -/
def unstuff : Run → List (Fin 4) → List (Fin 4) × Run × Nat
  | r, [] => ([], r, 0)
  | r, x :: l =>
    if r.2 = 24 then
      let t := unstuff (x, 1) l
      (t.1, t.2.1, t.2.2 + (x == r.1).toNat)
    else
      let t := unstuff (r.next x) l
      (x :: t.1, t.2)

/-! ### The transmitter of a superblock (spec/04 R119, R123, R124) -/

/-- Message bits among the first `n` bits of a superframe's codewords. -/
def codeData (n : Nat) : Nat := n / 5440 * 5140 + min (n % 5440) 5140

/-- Frame-data bits of superblock `i`: all 4,032, or on PAM4 those that are no parity; superblock 255 of PAM4 carries none. -/
def dataBits (pam4 : Bool) (i : Nat) : Nat :=
  if !pam4 then 4032 else if i = 255 then 0 else codeData (4032 * (i + 1)) - codeData (4032 * i)

/-- Bits of a list of chunks. -/
def chunkBits (q : List (List Bool)) : Nat := (q.map List.length).foldl (· + ·) 0

/-- The chunks without their first `n` bits, and whether the first is then partly sent. -/
def dropBits : Nat → List (List Bool) → List (List Bool) × Bool
  | _, [] => ([], false)
  | n, c :: q => if c.length ≤ n then dropBits (n - c.length) q else (c.drop n :: q, n != 0)

/-- `d` bits of frame data leave: the bits, idle fill where no frame waits, and where the first prefix that starts among them lies. -/
def KlTx.fill (x : KlTx) (d : Nat) : KlTx × List Bool × Option Nat :=
  if d = 0 then (x, [], none)
  else
    let q := x.queue ++ List.replicate ((d - chunkBits x.queue + 31) / 32) klIdle
    let start := if x.part then (q.headD []).length else 0
    let r := dropBits d q
    ({ x with queue := r.1, part := r.2 }, q.flatten.take d, if start < d then some start else none)

/-- `need` bits of the coded stream from position `pos` of a codeword on: message bits from `data`, then their parity. -/
def KlTx.code : Nat → KlTx → Nat → Nat → List Bool → KlTx × List Bool
  | 0, x, _, _, _ => (x, [])
  | k + 1, x, pos, need, data =>
    if need = 0 then (x, [])
    else if pos < 5140 then
      let n := min (5140 - pos) need
      let w := x.word ++ data.take n
      let x := if pos + n = 5140 then { x with word := [], parity := fecParity w } else { x with word := w }
      let r := x.code k (pos + n) (need - n) (data.drop n)
      (r.1, data.take n ++ r.2)
    else
      let n := min (5440 - pos) need
      let r := { x with parity := x.parity.drop n }.code k ((pos + n) % 5440) (need - n) data
      (r.1, x.parity.take n ++ r.2)

/-- The marker of the superblock `x.idx`, whose first prefix starts at bit `start` of its data. -/
def KlTx.marker (x : KlTx) (pam4 rf l1 : Bool) (start : Option Nat) : BitVec 64 :=
  if 4 ≤ x.idx ∧ x.idx ≤ 7 then markerWord (BitVec.ofNat 8 (0x10 + (x.idx - 4))) (timeField x.first x.number (x.idx - 4))
  else if pam4 ∧ x.idx = 255 then markerWord 0x20 0
  else markerWord 1 (dataField (match start with | some b => BitVec.ofNat 9 (b / 8) | none => 0x1FF) (BitVec.ofNat 8 x.idx) rf l1)

/-- The next superblock in the five steps of R119: its marker and its symbols on the line, and what the transmitter then holds. -/
def KlTx.superblock (x : KlTx) (pam4 rf l1 : Bool) : KlTx × BitVec 64 × List (Fin 4) :=
  let d := dataBits pam4 x.idx
  let f := x.fill d
  let data := scramble (scrSeed x.idx) (if d = 0 then List.replicate 4032 false else f.2.1)
  let c := if pam4 && d != 0 then f.1.code 4 (4032 * x.idx % 5440) 4032 data else (f.1, data)
  let word := x.marker pam4 rf l1 f.2.2
  let y := stuff x.run (mapBits pam4 (msbBits 64 word.toNat ++ c.2))
  ({ c.1 with idx := (x.idx + 1) % 256, number := if x.idx = 255 then x.number + 1 else x.number, run := y.2 }, word, y.1)

/-! ### The receiver (spec/04 R119 to R124) -/

/-- Bit errors of a MONITOR superblock: its payload against the scrambler's sequence over zeros (spec/04 R123). -/
def monitorErrors (payload : List Bool) : Nat :=
  ((List.zip payload (scramble (scrSeed 255) (List.replicate 4032 false))).filter fun p => p.1 != p.2).length

/-- The scrambler's state `n` bits on. -/
def scrAt (st : BitVec 58) : Nat → BitVec 58
  | 0 => st
  | n + 1 => scrAt (scrNext st) n

/-- Bits as `n` bytes. -/
def bitBytes : Nat → List Bool → List Byte
  | 0, _ => []
  | n + 1, l => BitVec.ofNat 8 (bitsNat (l.take 8)) :: bitBytes n (l.drop 8)

/-- The prefix `p` ends a frame that waits for it. -/
def KlRx.close (x : KlRx) (p : BitVec 32) : KlRx :=
  match x.pend with
  | none => x
  | some f => { x with pend := none, frames := x.frames ++ [{ f with after := p }] }

/-- The receiver cuts its bits at the prefixes: idle fill, frames, or the end of the delineation at a prefix whose check fails; what it
holds then, and whether it ended. On PAM4 a superblock may begin within a byte, so that the first prefix lies up to four bits after the
bytes that FPTR counts. -/
def KlRx.cut : Nat → KlRx → KlRx × Bool
  | 0, x => (x, false)
  | n + 1, x =>
    if x.bits.length < 32 then (x, false)
    else
      let p := BitVec.ofNat 32 (bitsNat ((x.bits.take 32).map (·.1)))
      if x.first && !prefixOk p then { x with first := false, bits := x.bits.drop 4 }.cut n
      else
      let x := { x with first := false }.close p
      let k := 8 * prefixLen p
      if !prefixOk p then ({ x with delin := false, bits := [] }, true)
      else if k = 0 then { x with bits := x.bits.drop 32 }.cut n
      else if x.bits.length < 32 + k then (x, false)
      else
        let b := (x.bits.drop 32).take k
        let f : KlFrame := { lead := p, bytes := bitBytes (prefixLen p) (b.map (·.1)), hit := b.any (·.2) }
        { x with pend := some f, bits := x.bits.drop (32 + k) }.cut n

/-- Message bits of superblock `i` from its bit `o` on, `hit` where their codeword is uncorrectable: descrambled, and cut into frames; a
delineation that was lost begins where the superblock's DATA marker points. What the receiver holds then, and whether the delineation
ended. -/
def KlRx.data (x : KlRx) (i o : Nat) (bits : List Bool) (hit : Bool) : KlRx × Bool :=
  let d := (scramble (scrAt (scrSeed i) o) bits).map fun b => (b, hit)
  let x := match (if o = 0 ∧ !x.delin then Tab.find i x.fptr else none) with
    | some k => { x with delin := true, first := true, skip := 8 * k, bits := [], pend := none }
    | none => x
  let x := if o = 0 then { x with fptr := Tab.del i x.fptr } else x
  if !x.delin then (x, false)
  else
    let y := { x with skip := x.skip - d.length, bits := x.bits ++ d.drop x.skip }
    y.cut (y.bits.length / 32 + 2)

/-- Message bits of a decoded codeword, the first of them number `j` of the superframe, in the superblocks that they belong to. -/
def KlRx.spread : Nat → KlRx → Nat → List Bool → Bool → KlRx × Bool
  | 0, x, _, _, _ => (x, false)
  | k + 1, x, j, bits, hit =>
    match bits, (List.range 255).find? fun i => decide (j < codeData (4032 * (i + 1))) with
    | [], _ => (x, false)
    | _, none => (x, false)
    | _, some i =>
      let n := codeData (4032 * (i + 1)) - j
      let r := x.data i (j - codeData (4032 * i)) (bits.take n) hit
      let t := r.1.spread k (j + n) (bits.drop n) hit
      (t.1, r.2 || t.2)

/-- The coded payload of superblock `i` of PAM4 joins the codeword in progress, which is decoded where it is whole; bits before the first
codeword that begins are not used. What the receiver holds then, whether the delineation ended, and the codeword's verdict. -/
def KlRx.code (x : KlRx) (i : Nat) (bits : List Bool) : KlRx × Bool × Option (Option Nat) :=
  let start := 4032 * i
  let x := if x.base.any fun b => b + x.word.length == start then { x with word := x.word ++ bits }
    else
      let k := (5440 - start % 5440) % 5440
      { x with base := some (start + k), word := bits.drop k }
  match x.base with
  | none => (x, false, none)
  | some b =>
    if x.word.length < 5440 then (x, false, none)
    else
      let r := fecDecode (x.word.take 5440)
      let y := { x with base := some (b + 5440), word := x.word.drop 5440 }.spread 3 (b / 5440 * 5140) r.1 r.2.isNone
      (y.1, y.2, some r.2)

/-- The payload of superblock `i` has come (spec/04 R119, R123): on PAM4, superblock 255 carries no data. -/
def KlRx.payload (x : KlRx) (pam4 : Bool) (i : Nat) (bits : List Bool) : KlRx × Bool × Option (Option Nat) :=
  if pam4 then (if i = 255 then ({ x with base := none, word := [] }, false, none) else x.code i bits)
  else
    let r := x.data i 0 bits false
    (r.1, r.2, none)

/-- What the symbols up to the end of a marker give: the run on the line, stuff violations, payload bits, and the marker in the last 64 of
them. -/
def klReceive (pam4 : Bool) (r : Run) (l : List (Fin 4)) : Run × Nat × List Bool × BitVec 64 :=
  let u := unstuff r l
  let b := unmapSyms pam4 u.1
  (u.2.1, u.2.2, b.take (b.length - 64), BitVec.ofNat 64 (bitsNat (b.drop (b.length - 64))))

/-! ### Test patterns (spec/04 R140, R151) -/

/-- A lane has the pattern of this code: PRBS7, 9, 13, 15, 23, 31; PRBS13Q and PRBS31Q on PAM4; none under the codes that R151 does not
name. -/
def prbsHas (pam4 : Bool) (pattern : Nat) : Bool := decide (pattern < 6) || (pam4 && decide (pattern < 8))

/-- Length of the register behind a pattern, and the places whose sum is its next bit: PRBS7, 9, 13, 15, 23, 31; PRBS13Q and
PRBS31Q are PRBS13 and PRBS31 in Gray coded pairs. (PRESUMED, log entry 58) -/
def prbsTaps (pattern : Nat) : Nat × List Nat :=
  if pattern = 0 then (7, [7, 6]) else if pattern = 1 then (9, [9, 5])
  else if pattern = 2 ∨ pattern = 6 then (13, [13, 12, 2, 1]) else if pattern = 3 then (15, [15, 14])
  else if pattern = 4 then (23, [23, 18]) else (31, [31, 28])

/-- The next bit after those of a register, newest first. -/
def prbsBit (pattern : Nat) (reg : List Bool) : Bool :=
  (prbsTaps pattern).2.foldl (fun a k => a ^^ reg.getD (k - 1) false) false

/-- `n` bits of a pattern from a register on, and the register after them. -/
def prbs (pattern : Nat) : Nat → List Bool → List Bool × List Bool
  | 0, reg => ([], reg)
  | n + 1, reg =>
    let b := prbsBit pattern reg
    let r := prbs pattern n ((b :: reg).take (prbsTaps pattern).1)
    (b :: r.1, r.2)

/-- The checker fills its register with the first bits received, then runs by itself and counts the bits that differ: errors, and the
register after the bits. (PRESUMED, log entry 58) -/
def prbsCheck (pattern : Nat) : List Bool → List Bool → Nat × List Bool
  | reg, [] => (0, reg)
  | reg, b :: l =>
    if reg.length < (prbsTaps pattern).1 then prbsCheck pattern (b :: reg) l
    else
      let p := prbsBit pattern reg
      let r := prbsCheck pattern ((p :: reg).take (prbsTaps pattern).1) l
      (r.1 + (b != p).toNat, r.2)

end Sys2Proof.Machine
end

