-- ==== Sys2Proof/Machine/Parser.lean ====
section
/-!
DEFINITION. Sys2Proof/Machine/Parser.lean: what the parser and the classifier compute from the bytes of a frame (spec/06):
the headers a program follows, the length checks, the payload patterns, the 640-bit key, the winning TCAM entry.
-/
namespace Sys2Proof.Machine
open Sys2Proof

/-! ### Bytes of a frame (destination address first, network order) -/

def fb (l : List Byte) (i : Nat) : Nat := (l.getD i 0).toNat
def fb2 (l : List Byte) (i : Nat) : Nat := fb l i * 256 + fb l (i + 1)
def fb4 (l : List Byte) (i : Nat) : Nat := fb2 l i * 65536 + fb2 l (i + 2)

/-- `n` bytes from `i` on as one number, most significant byte first. -/
def fbN (l : List Byte) (i n : Nat) : Nat := ((l.drop i).take n).foldl (fun a b => a * 256 + b.toNat) 0

/-- Bytes of a frame replaced from `off` on. -/
def putBytes (l : List Byte) (off : Nat) (b : List Byte) : List Byte := l.take off ++ b ++ l.drop (off + b.length)

/-- Bytes of the frame before its FCS. -/
def bodyLen (l : List Byte) : Nat := l.length - 4

/-! ### CRC-32 of IEEE 802.3, reflected (spec/16 R493, spec/05 R157) -/

def crcBit (c : Word) : Word := if c &&& 1 = 1 then (c >>> 1) ^^^ 0xEDB88320#32 else c >>> 1

/-- The running value `c` updated by one byte. -/
def crcByte (c : Word) (b : Byte) : Word :=
  let c := c ^^^ b.setWidth 32
  crcBit (crcBit (crcBit (crcBit (crcBit (crcBit (crcBit (crcBit c)))))))

/-- CRC-32 of a byte string with the pre- and post-inversion of IEEE 802.3. -/
def crc32 (l : List Byte) : Word := ~~~(l.foldl crcByte 0xFFFFFFFF#32)

/-- The frame's last four bytes are the FCS of the bytes before them. -/
def fcsGood (l : List Byte) : Bool := bytesNat (l.drop (l.length - 4)) == (crc32 (l.take (l.length - 4))).toNat

/-- The frame with its FCS appended. -/
def withFcs (l : List Byte) : List Byte := l ++ natBytes 4 (crc32 l).toNat

/-! ### The parse program (spec/06 R185) -/

/-- Node kinds (spec/06 R185). -/
def kind.generic : Nat := 0
def kind.ethernet : Nat := 1
def kind.vlan : Nat := 2
def kind.mpls : Nat := 3
def kind.ipv4 : Nat := 4
def kind.ipv6 : Nat := 5
def kind.ipv6Ext : Nat := 6
def kind.udp : Nat := 7
def kind.tcp : Nat := 8
def kind.gre : Nat := 9
def kind.vxlan : Nat := 10
def kind.geneve : Nat := 11
def kind.ptp : Nat := 12

/-- Transitions of the default program after a field that holds an EtherType: to the nodes listed below. -/
def etherTrans : List (BitVec 16 × BitVec 16 × BitVec 8) :=
  [(0x8100, 0xFFFF, 1), (0x88A8, 0xFFFF, 1), (0x9100, 0xFFFF, 1), (0x8847, 0xFFFF, 2), (0x8848, 0xFFFF, 2),
    (0x0800, 0xFFFF, 3), (0x86DD, 0xFFFF, 4), (0x88F7, 0xFFFF, 11)]

/-- Transitions of the default program after an IP protocol or next header. -/
def protoTrans : List (BitVec 16 × BitVec 16 × BitVec 8) :=
  [(17, 0xFFFF, 6), (6, 0xFFFF, 7), (47, 0xFFFF, 8)]

def extTrans : List (BitVec 16 × BitVec 16 × BitVec 8) :=
  [(0, 0xFFFF, 5), (43, 0xFFFF, 5), (44, 0xFFFF, 5), (51, 0xFFFF, 5), (60, 0xFFFF, 5)] ++ protoTrans

def greTrans : List (BitVec 16 × BitVec 16 × BitVec 8) :=
  [(0x0800, 0xFFFF, 13), (0x86DD, 0xFFFF, 14), (0x6558, 0xFFFF, 12), (0x8847, 0xFFFF, 15)]

/-- The select value of an MPLS label: the first nibble after the bottom of stack; 0x10 while labels follow. -/
def mplsTrans (self : BitVec 8) : List (BitVec 16 × BitVec 16 × BitVec 8) :=
  [(0x10, 0xFFFF, self), (4, 0xFFFF, if self = 2 then 3 else 13), (6, 0xFFFF, if self = 2 then 4 else 14)]

/-- The default program of the firmware, which implements R182 (spec/06 R182, R185). -/
def defaultProg : ParseProg where
  format := 1
  version := Config.bootProgVersion
  start := 0
  keyInner := false
  nodes := [
    { kind := 1, trans := etherTrans },
    { kind := 2, trans := etherTrans },
    { kind := 3, trans := mplsTrans 2 },
    { kind := 4, trans := protoTrans },
    { kind := 5, trans := extTrans },
    { kind := 6, trans := extTrans },
    { kind := 7, trans := [(4789, 0xFFFF, 9), (6081, 0xFFFF, 10), (319, 0xFFFF, 11), (320, 0xFFFF, 11)] },
    { kind := 8 },
    { kind := 9, trans := greTrans },
    { kind := 10, dflt := 12 },
    { kind := 11, trans := [(0x6558, 0xFFFF, 12), (0x0800, 0xFFFF, 13), (0x86DD, 0xFFFF, 14)] },
    { kind := 12 },
    { kind := 1, inner := true, trans := etherTrans },
    { kind := 4, inner := true, trans := protoTrans },
    { kind := 5, inner := true, trans := extTrans },
    { kind := 3, inner := true, trans := mplsTrans 15 } ]

/-- A next-node index of a transition names a node; DEFAULT may also end parsing with 0xFF (spec/06 R185). -/
def nextOk (n : Nat) (i : BitVec 8) : Bool := decide (i.toNat < n)

/-- Node `i` leads to one of the nodes `l` in one step. -/
def leadsTo (nodes : List ParseNode) (l : List Nat) (i : Nat) : Bool :=
  (nodes[i]?).any fun d => (d.dflt :: d.trans.map (·.2.2)).any fun j => l.contains j.toNat

/-- The nodes `l` and those that reach one of them in `n` steps or fewer. -/
def reaching (nodes : List ParseNode) : Nat → List Nat → List Nat
  | 0, l => l
  | n + 1, l => reaching nodes n ((List.range nodes.length).filter fun i => l.contains i || leadsTo nodes l i)

/-- Of the nodes `l`, those that remain after `n` rounds of dropping every node that leads to none of the others: what remains at the
end lies on, or leads to, a cycle. -/
def cycleCore (nodes : List ParseNode) : Nat → List Nat → List Nat
  | 0, l => l
  | n + 1, l => cycleCore nodes n (l.filter (leadsTo nodes l))

/-- The nodes on cycles that reach no built-in kind (spec/06 R186). -/
def genericCore (nodes : List ParseNode) : List Nat :=
  let all := List.range nodes.length
  let ok := reaching nodes nodes.length (all.filter fun i => (nodes[i]?).any (·.kind ≠ 0))
  cycleCore nodes nodes.length (all.filter fun i => !ok.contains i)

end Sys2Proof.Machine

namespace Sys2Proof
open Sys2Proof.Machine

/-- A program passes the checks of PARSE_LOAD (spec/06 R186). -/
def ParseProg.valid (p : ParseProg) (crcOk : Bool) : Bool :=
  let n := p.nodes.length
  crcOk && p.format == 1 && decide (1 ≤ n) && decide (n ≤ 128) && decide (p.start.toNat < n) &&
  p.nodes.all (fun d => (d.dflt == 0xFF || nextOk n d.dflt) && d.trans.all fun t => nextOk n t.2.2) &&
  (genericCore p.nodes).isEmpty

end Sys2Proof

namespace Sys2Proof.Machine
open Sys2Proof

/-! ### Following the headers (spec/06 R182, R187, R189) -/

/-- A header that has been parsed: its kind, place, length, whether it is an inner header, and its node. -/
structure Hdr where
  kind : Nat
  off : Nat
  len : Nat
  inner : Bool
  node : Nat
  deriving DecidableEq, Repr

/-- What parsing a frame gives. -/
structure Parsed where
  hdrs : List Hdr := []
  incomplete : Bool := false
  conflict : Bool := false
  /-- Offset of the IP or fragment header that makes the frame a first, or a later, fragment (R183). -/
  fragFirst : Option Nat := none
  fragLater : Option Nat := none
  deriving DecidableEq, Repr

/-- Length of the header of a node at `off`; `none` where the frame's body `l` ends before the length can be read. `nh` is the value
that led to this node (an IPv6 extension's own type). -/
def hdrLen (nd : ParseNode) (l : List Byte) (off nh : Nat) : Option Nat :=
  let k := nd.kind.toNat
  let n := l.length
  let need (m v : Nat) : Option Nat := if off + m ≤ n then some v else none
  if k = 0 then
    let b := nd.lenBase.toNat
    if nd.lenMask = 0 then some b
    else need (nd.lenOff.toNat + 1) (b + ((fb l (off + nd.lenOff.toNat) &&& nd.lenMask.toNat) <<< nd.lenShift.toNat))
  else if k = 1 then some 14
  else if k = 2 ∨ k = 3 then some 4
  else if k = 4 then need 1 (fb l off % 16 * 4)
  else if k = 5 then some 40
  else if k = 6 then
    if nh = 44 then some 8
    else if nh = 51 then need 2 ((fb l (off + 1) + 2) * 4)
    else need 2 ((fb l (off + 1) + 1) * 8)
  else if k = 7 ∨ k = 10 then some 8
  else if k = 8 then need 13 (fb l (off + 12) / 16 * 4)
  else if k = 9 then
    let f := fb l off
    need 1 (4 + (if bitAt f 7 then 4 else 0) + (if bitAt f 5 then 4 else 0) + (if bitAt f 4 then 4 else 0))
  else if k = 11 then need 1 (8 + fb l off % 64 * 4)
  else some 34

/-- The select value of a header (spec/06 R185): fixed for the built-in kinds; `none` where the frame ends before the field. A GENERIC field
narrower than 16 bits takes the top bits at its offset; width 0 acts as 1, above 16 as 16. (DESIGN CHOICE, log entry 61) -/
def hdrSel (nd : ParseNode) (l : List Byte) (off : Nat) : Option Nat :=
  let k := nd.kind.toNat
  if k = 0 then
    let w := max 1 (min 16 nd.selWidth.toNat)
    let o := off + nd.selOff.toNat
    if o + (w + 7) / 8 ≤ l.length then some (fb2 l o >>> (16 - w)) else none
  else if k = 1 then some (fb2 l (off + 12))
  else if k = 2 ∨ k = 7 ∨ k = 9 ∨ k = 11 then some (fb2 l (off + 2))
  else if k = 3 then
    if !bitAt (fb l (off + 2)) 0 then some 0x10 else if off + 4 < l.length then some (fb l (off + 4) / 16) else none
  else if k = 4 then some (fb l (off + 9))
  else if k = 5 then some (fb l (off + 6))
  else if k = 6 then some (fb l off)
  else some 0

/-- The first transition that matches, else the default. -/
def nextNode (nd : ParseNode) (v : Nat) : BitVec 8 :=
  match nd.trans.find? fun t => (BitVec.ofNat 16 v &&& t.2.1) == (t.1 &&& t.2.1) with
  | some t => t.2.2
  | none => nd.dflt

/-- Headers of kind `k` since the last Ethernet or IP header: the limits of 4 tags, 8 labels and 8 extensions hold for each of these
(spec/06 R182). (DESIGN CHOICE, log entry 61) -/
def trailing (k : Nat) (h : List Hdr) : Nat :=
  ((h.reverse.takeWhile fun x => !(x.kind == 1 || x.kind == 4 || x.kind == 5)).filter (·.kind = k)).length

/-- The length fields of a header conflict with the bytes present (spec/06 R189). `ipEnd` is the end of the innermost IP
payload, `n` the end of the frame's body. -/
def lenConflict (k : Nat) (l : List Byte) (off len n ipEnd : Nat) : Bool :=
  if k = 4 then n < off + 20 || len < 20 || fb2 l (off + 2) < len || n < off + fb2 l (off + 2)
  else if k = 5 then n < off + 40 || n < off + 40 + fb2 l (off + 4) || fb2 l (off + 4) == 0
  else if k = 6 then ipEnd < off + len
  else if k = 7 then n < off + 8 || fb2 l (off + 4) < 8 || ipEnd < off + fb2 l (off + 4)
  else if k = 8 then ipEnd < off + len
  else false

/-- A header of this kind cannot be followed, and parsing ends before it (spec/06 R182): GRE of version 1, a TCP offset below
5, PTP inside a tunnel or of another version. (DESIGN CHOICE, log entry 61: the TCP offset) (DESIGN CHOICE, log entry 61) -/
def unfollowed (k : Nat) (l : List Byte) (off : Nat) (tunnel : Bool) : Bool :=
  (k == 9 && fb l (off + 1) % 8 != 0) || (k == 8 && fb l (off + 12) / 16 < 5) ||
  (k == 12 && (tunnel || fb l (off + 1) % 16 != 2))

/-- Follow the program over a frame's body `l` from node `i` at offset `off` (spec/06 R182 to R189). `nh` is the select value that led here,
`ipEnd` the end of the innermost IP payload. A header that is cut short and passes a limit of R187 too is not parsed, but its conflict
counts. (DESIGN CHOICE, log entry 61) -/
def follow (p : ParseProg) (l : List Byte) : Nat → Nat → Nat → Nat → Nat → Bool → Parsed → Parsed
  | 0, _, _, _, _, _, r => { r with incomplete := true }
  | fuel + 1, i, off, nh, ipEnd, inner, r =>
    match p.nodes[i]? with
    | none => r
    | some nd =>
      let k := nd.kind.toNat
      let n := l.length
      let inner := inner || nd.inner
      if unfollowed k l off inner then r
      else if (k = 2 ∧ trailing 2 r.hdrs = 4) ∨ (k = 3 ∧ trailing 3 r.hdrs = 8) ∨ (k = 6 ∧ trailing 6 r.hdrs = 8) then
        { r with incomplete := true }
      else match hdrLen nd l off nh with
      | none => if k = 4 then { r with conflict := true } else r
      | some len =>
        let cut := decide (n < off + if k = 4 then max 20 len else len)
        let whole := decide (r.hdrs.length < 16) && decide (off + len ≤ 256)
        let ip := r.hdrs.any fun x => x.kind == 4 || x.kind == 5
        if cut && !(k == 4 || k == 5 || k == 7 || ip && (k == 6 || k == 8)) then r
        else if !cut && !whole then { r with incomplete := true }
        else if lenConflict k l off len n ipEnd then
          if !whole then { r with conflict := true } else
          let r := { r with hdrs := r.hdrs ++ [⟨k, off, if k = 4 ∧ len < 20 then 0 else len, inner, i⟩], conflict := true }
          if k = 7 ∧ !inner ∧ (fb2 l (off + 2) = 319 ∨ fb2 l (off + 2) = 320) ∧ off + 42 ≤ n ∧ fb l (off + 9) % 16 = 2 then
            if 16 ≤ r.hdrs.length ∨ 256 < off + 42 then { r with incomplete := true }
            else { r with hdrs := r.hdrs ++ [⟨12, off + 8, 34, false, i⟩] }
          else r
        else
          let r := { r with hdrs := r.hdrs ++ [⟨k, off, len, inner, i⟩] }
          let ipEnd := if k = 4 then off + fb2 l (off + 2) else if k = 5 then off + 40 + fb2 l (off + 4) else ipEnd
          let fo := fb2 l (off + 6)
          let eo := fb2 l (off + 2)
          let later := (k = 4 ∧ fo % 8192 ≠ 0) ∨ (k = 6 ∧ nh = 44 ∧ eo / 8 ≠ 0)
          let first := (k = 4 ∧ fo % 8192 = 0 ∧ bitAt fo 13) ∨ (k = 6 ∧ nh = 44 ∧ eo / 8 = 0 ∧ bitAt eo 0)
          if later then { r with fragLater := some off }
          else
            let r := if first then { r with fragFirst := some off } else r
            if k = 3 ∧ !bitAt (fb l (off + 2)) 0 ∧ trailing 3 r.hdrs = 8 then { r with incomplete := true }
            else
              match hdrSel nd l off with
              | none => r
              | some v =>
                let nx := nextNode nd v
                if nx = 0xFF then r else follow p l fuel nx.toNat (off + len) v ipEnd inner r

/-- Parse a frame from its destination address to the byte before its FCS. -/
def parseFrame (p : ParseProg) (l : List Byte) : Parsed :=
  follow p (l.take (bodyLen l)) 18 p.start.toNat 0 0 (bodyLen l) false {}

/-! ### The key (spec/06 R192) -/

/-- IPv4 header checksum fails. -/
def csumBad (l : List Byte) (h : Hdr) : Bool :=
  let s := ((List.range (h.len / 2)).map fun i => fb2 l (h.off + 2 * i)).foldl (· + ·) 0
  (s % 65536 + s / 65536) % 65535 != 0

/-- The header of one of the kinds `ks` that the key takes its fields from: the innermost, or the outermost. -/
def pick (inner : Bool) (h : List Hdr) (ks : List Nat) : Option Hdr :=
  let c := h.filter fun x => ks.contains x.kind
  if inner then c.getLast? else c.head?

/-- The IP header that the key takes its fields from; none where it is an IPv4 header with an IHL below 5 (spec/06 R189). -/
def pickIp (inner : Bool) (h : List Hdr) : Option Hdr := (pick inner h [4, 5]).filter (·.len ≠ 0)

/-- The outermost tag: a tag inside a tunnel is none. (DESIGN CHOICE, log entry 61) -/
def outerTag (h : List Hdr) : Option Hdr := h.find? fun x => x.kind == 2 && !x.inner

/-- The headers from the Ethernet header that the key takes its fields from, or from the first header where there is none. -/
def fromEth (inner : Bool) (h : List Hdr) : List Hdr :=
  match pick inner h [1] with
  | some a => (h.dropWhile (· ≠ a)).drop 1
  | none => h

/-- Tags of the key: those between that Ethernet header and the next Ethernet or IP header. -/
def keyTags (inner : Bool) (h : List Hdr) : List Hdr :=
  ((fromEth inner h).takeWhile fun x => !(x.kind == 1 || x.kind == 4 || x.kind == 5)).filter (·.kind = 2)

/-- Labels of the key: the first label stack after that Ethernet header and before another one; with KEY_INNER the last. (DESIGN CHOICE, log entry 61) -/
def keyLabels (inner : Bool) (h : List Hdr) : List Hdr :=
  let t := (fromEth inner h).takeWhile fun x => x.kind != 1
  if inner then ((t.reverse.dropWhile (·.kind ≠ 3)).takeWhile (·.kind = 3)).reverse
  else (t.dropWhile (·.kind ≠ 3)).takeWhile (·.kind = 3)

/-- The headers after `a` and up to the next header of kind 1, 4 or 5. -/
def segment (h : List Hdr) (a : Hdr) : List Hdr :=
  ((h.dropWhile (· ≠ a)).drop 1).takeWhile fun x => !(x.kind == 1 || x.kind == 4 || x.kind == 5)

/-- The last IPv6 next-header value before L4: that of the last extension, else of the header. -/
def lastProto (l : List Byte) (h : List Hdr) (ip : Hdr) : Nat :=
  if ip.kind = 4 then fb l (ip.off + 9)
  else match (segment h ip).filter (·.kind = 6) |>.getLast? with
    | some e => fb l e.off
    | none => fb l (ip.off + 6)

/-- The fields of the key as pairs (lowest bit, value), each value within its field (spec/06 R192). VNI is that of the first tunnel header, a
USER byte that of the first header whose node enables it; bytes that the frame lacks read 0. (DESIGN CHOICE, log entry 61) -/
def keyFields (p : ParseProg) (l : List Byte) (r : Parsed) (port : Nat) (rxErr orphan kl csum : Bool) (pat : Nat)
    (later : Bool) : List (Nat × Nat) :=
  let h := r.hdrs
  let l := l.take (bodyLen l)
  let eth := pick p.keyInner h [1]
  let ip := pickIp p.keyInner h
  let seg := match ip with | some a => segment h a | none => []
  let l4 := seg.find? fun x => x.kind == 7 || x.kind == 8
  let tags := keyTags p.keyInner h
  let labels := keyLabels p.keyInner h
  let ptp := h.find? (·.kind = 12)
  let vni := match h.find? fun x => x.kind == 10 || x.kind == 11 || x.kind == 9 && bitAt (fb l x.off) 5 with
    | some x => if x.kind = 9 then fb4 l (x.off + 4 + (if bitAt (fb l x.off) 7 then 4 else 0)) % 2 ^ 24
        else fbN l (x.off + 4) 3
    | none => 0
  let ptpT := match ptp with | some x => fb l x.off % 16 | none => 0
  let opts := match ip with
    | some a => (a.kind == 4 && decide (20 < a.len)) || (a.kind == 5 && seg.any (·.kind = 6))
    | none => false
  let flags := idxMask (((([(rxErr, 0), (r.incomplete, 1), (r.conflict, 2), (csum, 3), (r.fragFirst.isSome, 4), (later, 5),
    (orphan, 6), (ptp.isSome, 7), (ptp.isSome && decide (ptpT < 4), 8), (h.any (·.inner), 9), (opts, 10),
    (kl, 11)] : List (Bool × Nat)).filter (·.1)).map (·.2)))
  let nodes := h.filterMap fun x => (p.nodes[x.node]?).map fun n => (x, n)
  let user (f : ParseNode → Option (BitVec 8)) := match nodes.findSome? fun (x, n) => (f n).map fun o => fb l (x.off + o.toNat) with
    | some b => b
    | none => 0
  [(633, port), (621, flags)] ++
  (match eth with
    | some a => [(573, fbN l a.off 6), (525, fbN l (a.off + 6) 6)]
    | none => []) ++
  [(474, match tags.getLast?, eth with | some t, _ => fb2 l (t.off + 2) | none, some a => fb2 l (a.off + 12) | none, none => 0)] ++
  [(509, match tags[0]? with | some t => fb2 l t.off | none => 0), (493, match tags[1]? with | some t => fb2 l t.off | none => 0),
    (490, tags.length), (454, match labels[0]? with | some t => fb4 l t.off / 4096 | none => 0), (450, labels.length)] ++
  (match ip with
    | some a => if a.kind = 4 then
        [(448, 1), (320, fb4 l (a.off + 12)), (192, fb4 l (a.off + 16)), (186, fb l (a.off + 1) / 4), (184, fb l (a.off + 1) % 4),
          (176, fb l (a.off + 9))]
      else
        [(448, 2), (320, fbN l (a.off + 8) 16), (192, fbN l (a.off + 24) 16), (186, fb4 l a.off / 2 ^ 22 % 64),
          (184, fb4 l a.off / 2 ^ 20 % 4), (176, lastProto l h a), (156, fb4 l a.off % 2 ^ 20)]
    | none => []) ++
  (match l4 with
    | some a => [(140, fb2 l a.off), (124, fb2 l (a.off + 2)), (116, if a.kind = 8 then fb l (a.off + 13) else 0)]
    | none => []) ++
  [(92, vni), (88, ptpT), (80, match ptp with | some x => fb l (x.off + 4) | none => 0), (16, pat),
    (0, user (·.userEx0) + 256 * user (·.userEx1))]

def packKey (fs : List (Nat × Nat)) : BitVec 640 := BitVec.ofNat 640 (fs.foldl (fun a f => a + f.2 * 2 ^ f.1) 0)

/-! ### Patterns and TCAM (spec/06 R191, R193) -/

/-- Offset of a pattern's base: the destination address, the innermost L3 or L4 header, the byte after the last header. -/
def patBase (h : List Hdr) (b : Nat) : Option Nat :=
  if b = 0 then some 0
  else if b = 1 then (pickIp true h).map (·.off)
  else if b = 2 then (pick true h [7, 8]).map (·.off)
  else h.getLast?.map fun x => x.off + x.len

/-- The pattern's bytes occur at offset `o`, all of them examined bytes. -/
def patAt (e : PatEntry) (l : List Byte) (o : Nat) : Bool :=
  decide (o + e.len ≤ min 512 (bodyLen l)) &&
  (List.range e.len).all fun i =>
    let m := byteField e.mask i 1
    (fb l (o + i) &&& m) == (byteField e.bytes i 1 &&& m)

def patHit (e : PatEntry) (l : List Byte) (h : List Hdr) : Bool :=
  decide (1 ≤ e.len) && match patBase h e.base with
    | none => false
    | some b =>
      if e.floating then (List.range (e.stop + 1 - e.start)).any fun i => patAt e l (b + e.start + i)
      else patAt e l (b + e.start)

/-- PAT_HIT of the patterns of view `v` (spec/06 R191). -/
def patHits (pats : Tab PatEntry) (v : Nat) (l : List Byte) (h : List Hdr) : Nat :=
  idxMask ((pats.filter fun e => bitAt e.2.view.toNat v && patHit e.2 l h).map fun e => e.2.tag % 64)

/-- The winning entry of view `v`: the lowest PRIORITY, then the lowest index (spec/06 R193). -/
def tcamWin (t : Tab TcamEntry) (v : Nat) (key : BitVec 640) : Option (Nat × TcamEntry) :=
  (t.filter fun e => bitAt e.2.view.toNat v && (key &&& e.2.mask) == (e.2.value &&& e.2.mask)).foldl
    (fun best e => match best with
      | none => some e
      | some b => if e.2.prio < b.2.prio then some e else some b) none

/-! ### The action word (spec/06 R194) -/

def act.op (a : BitVec 64) : Nat := (a.toNat >>> 61)
def act.tcSet (a : BitVec 64) : Bool := bitAt a.toNat 60
def act.tc (a : BitVec 64) : Nat := (a.toNat >>> 56) % 16
def act.capture (a : BitVec 64) : Bool := bitAt a.toNat 54
def act.noLearn (a : BitVec 64) : Bool := bitAt a.toNat 53
def act.flowSet (a : BitVec 64) : Bool := bitAt a.toNat 52
def act.flowId (a : BitVec 64) : Nat := (a.toNat >>> 36) % 65536
def act.destMc (a : BitVec 64) : Bool := bitAt a.toNat 35
def act.dest (a : BitVec 64) : Nat := (a.toNat >>> 21) % 2 ^ 14
def act.ring (a : BitVec 64) : Nat := (a.toNat >>> 16) % 32

/-- What identifies the datagram of a fragment (spec/06 R203): version, addresses, identification, protocol. `o` is the offset
of the IPv4 header, or of the IPv6 fragment header. -/
def fragKey (l : List Byte) (h : List Hdr) (o : Nat) : Nat :=
  match h.find? fun x => x.off == o with
  | some x =>
    if x.kind = 4 then ((fbN l (o + 12) 8 * 65536 + fb2 l (o + 4)) * 256 + fb l (o + 9)) * 2
    else match (h.takeWhile fun y => y.off != o).filter (·.kind = 5) |>.getLast? with
      | some ip => (fbN l (ip.off + 8) 32 * 2 ^ 32 + fb4 l (o + 4)) * 2 + 1
      | none => 0
  | none => 0

end Sys2Proof.Machine
end

