-- ==== Sys2Proof/Machine/Port.lean ====
section
/-!
DEFINITION. Sys2Proof/Machine/Port.lean: which lanes make a port and at what rate (spec/04 R114, R115, spec/05 R153), the
station address (spec/05 R179), received and transmitted pause (spec/05 R160 to R164).
-/
namespace Sys2Proof.Machine
open Sys2Proof

/-! ### Lanes and ports (spec/04 R114, R115) -/

def State.lane (s : State) (n : Nat) : LaneSt := Tab.get s.lanes {} n
def State.modLane (s : State) (n : Nat) (f : LaneSt → LaneSt) : State :=
  { s with lanes := Tab.put s.lanes {} n (f (s.lane n)) }

def State.mac (s : State) (n : Nat) : MacSt := Tab.get s.ports.mac {} n
def State.modMac (s : State) (n : Nat) (f : MacSt → MacSt) : State :=
  { s with ports := { s.ports with mac := Tab.put s.ports.mac {} n (f (s.mac n)) } }

/-- `LANE_CFG` of lane `n`, and `LANE_GRP` of its group, in force: those of a quarantined port stand as they were until its release (spec/04
R141). -/
def State.cfgWord (s : State) (n : Nat) : Word :=
  match (s.lane n).quarCfg with
  | some w => w.1
  | none => s.reg (Reg.laneCfg n)
def State.grpWord (s : State) (n : Nat) : Word :=
  match (s.lane n).quarCfg with
  | some w => w.2
  | none => s.reg (Reg.laneGrp (n / 4))

/-- Lanes that the configuration of lane `n` gives to a port there. -/
def State.width (s : State) (n : Nat) : Nat := 2 ^ (F.laneCfg_WIDTH n).of (s.cfgWord n)

def State.laneEn (s : State) (n : Nat) : Bool := (F.laneCfg_EN n).of (s.cfgWord n) != 0
def State.isKl (s : State) (n : Nat) : Bool := (F.laneCfg_MODE n).of (s.cfgWord n) != 0
def State.fec (s : State) (n : Nat) : Nat := (F.laneCfg_FEC n).of (s.cfgWord n)

/-- A port stands at lane `n` by its own fields: enabled, and `n` a multiple of its width. -/
def State.heads (s : State) (n : Nat) : Bool := s.laneEn n && n % s.width n == 0

/-- First lane of the port that lane `m` belongs to (spec/04 R115): the widest port that covers it, in its eight lanes. -/
def State.portOf (s : State) (m : Nat) : Option Nat :=
  [m / 8 * 8, m / 4 * 4, m / 2 * 2, m].find? fun n => s.heads n && decide (m < n + s.width n)

/-- Port Pn exists (spec/04 R115). -/
def State.portExists (s : State) (n : Nat) : Bool := decide (n < 128) && s.portOf n == some n

/-- The lanes of the port at `n`. -/
def State.portLanes (s : State) (n : Nat) : List Nat := (List.range (s.width n)).map (n + ·)

def State.rateCode (s : State) (n : Nat) : Nat := (F.laneGrp_RATE (n / 4)).of (s.grpWord n)

/-- FEC, width and rate make a mode that R116 or R119 lists. -/
def State.modeOk (s : State) (n : Nat) : Bool :=
  let w := s.width n
  let r := s.rateCode n
  let f := s.fec n
  if s.isKl n then w == 1 && ((r == 2 && f == 0) || ((r == 3 || r == 4) && f == 2))
  else
    (r ≤ 1 && w == 1 && f == 0) || (r == 2 && w == 1 && f ≤ 1) || ((r == 3 || r == 4) && f == 2)

/-- The configuration of the port at `n` breaks no rule of R115. -/
def State.cfgOk (s : State) (n : Nat) : Bool :=
  (s.portLanes n).all (fun m => decide (m < 128) && s.laneEn m) && s.modeOk n &&
  (s.width n != 8 || (s.rateCode n == s.rateCode (n + 4) &&
    (F.laneGrp_DPLL_SEL (n / 4)).of (s.grpWord n) == (F.laneGrp_DPLL_SEL (n / 4 + 1)).of (s.grpWord (n + 4))))

/-- Link state code of the port (spec/04 R128). -/
def State.link (s : State) (n : Nat) : Nat := s.fld (F.laneStatus_STATE n)

/-- The port is up: ACTIVE (spec/08 R270). -/
def State.portUp (s : State) (n : Nat) : Bool := s.link n == 5

/-- MAC rate in Gb/s (spec/05 R153). -/
def State.macRate (s : State) (n : Nat) : Nat :=
  let r := s.rateCode n
  (if r = 0 then 1 else if r = 1 then 10 else if r = 2 then 25 else if r = 3 then 50 else 100) * s.width n

/-- MAX_FRAME in force (spec/05 R154). -/
def State.maxFrame (s : State) (n : Nat) : Nat := max 64 (min 16000 (s.fld (F.portCfg_MAX_FRAME n)))

/-- Station address of a port: the fused one until a write of ADDR_HI commits another (spec/05 R179). -/
def State.station (s : State) (n : Nat) : Nat :=
  match Tab.find n s.ports.sa with
  | some a => a
  | none => (F.portSaHi_ADDR_HI n).of (RegMap.reset (Reg.portSaHi n)) * 2 ^ 32 + (RegMap.reset (Reg.portSaLo n)).toNat

/-- A write of ADDR_HI commits both words, unless the address is a group address (spec/05 R179, spec/18 R548). -/
def State.saWrite (s : State) (n : Nat) (v : Word) : State :=
  if v.getLsbD 8 then s
  else
    let s := s.putRw (Reg.portSaHi n) v
    { s with ports := { s.ports with
        sa := Tab.ins n (s.fld (F.portSaHi_ADDR_HI n) * 2 ^ 32 + (s.reg (Reg.portSaLo n)).toNat) s.ports.sa } }

/-- A number as `n` bytes, most significant first. -/
def beBytes (n v : Nat) : List Byte := (natBytes n v).reverse

/-- Count a port counter (spec/05 R165). -/
def State.countPort (s : State) (n k : Nat) (d : Nat := 1) : State :=
  let a := Reg.portCntLo n k
  { s with ctr := Tab.put s.ctr 0 a ((Tab.get s.ctr 0 a + d) % 2 ^ 64) }

/-- Put something on a port's line. (DESIGN CHOICE, log entry 4) -/
def State.out (s : State) (x : LineOut) : State := { s with line := x :: s.line }

/-! ### Pause (spec/05 R160 to R164) -/

def State.pauseMode (s : State) (n : Nat) : Nat := s.fld (F.portCfg_PAUSE_MODE n) % 3

/-- QUIET or STANDBY: no port sends or honours pause (spec/03 R102). -/
def State.quiet (s : State) : Bool := s.power.pstate != .normal

/-- Ticks of `q` quanta of 512 bit times at `rate` Gb/s, rounded up (spec/05 R153). -/
def quantaTicks (q rate : Nat) : Nat := (q * 8192 + 10 * rate - 1) / (10 * rate)

/-- Classes that received pause of priority `p` stops. -/
def State.pauseClasses (s : State) (n p : Nat) : Nat :=
  if s.pauseMode n = 1 then 0xFFFF else s.fld (F.portPfcMap_CLASSES n p)

/-- RX_PAUSED follows the timers (spec/05 R161, R177); the ticks in which a class was stopped are counted (counter 36). -/
def State.showPause (s : State) (n : Nat) : State :=
  let m := s.mac n
  let act := (List.range 8).filter fun p => Tab.get m.pauseEnd 0 p != 0 && !bitAt m.ignore.toNat p
  let cls := act.foldl (fun a p => a ||| s.pauseClasses n p) 0
  let s := s.setF (F.portPauseStatus_RX_PAUSED n) cls
  if cls ≠ 0 ∧ m.stopFrom = 0 then s.modMac n fun m => { m with stopFrom := s.time.tick + 1 }
  else if cls = 0 ∧ m.stopFrom ≠ 0 then
    (s.countPort n 36 (s.time.tick + 1 - m.stopFrom)).modMac n fun m => { m with stopFrom := 0 }
  else s

/-- A class is stopped by received pause. -/
def State.stopped (s : State) (n c : Nat) : Bool := bitAt (s.fld (F.portPauseStatus_RX_PAUSED n)) c

/-- The stop of a priority ends; a storm that is not being ignored ends with it (spec/05 R161, R164). (DESIGN CHOICE, log entry 60) -/
def State.endPause (s : State) (n p : Nat) : State :=
  let s := s.modMac n fun m => { m with pauseEnd := Tab.put m.pauseEnd 0 p 0, stopTick := Tab.del p m.stopTick }
  if bitAt (s.mac n).ignore.toNat p then s
  else
    let v := s.fld (F.portPauseStatus_STORM n)
    s.setF (F.portPauseStatus_STORM n) (if bitAt v p then v - 2 ^ p else v)

/-- Start, replace or release (0 quanta) the received pause of a priority, unless it is ignored (spec/05 R161, R164). -/
def State.rxPause (s : State) (n p quanta : Nat) : State :=
  if bitAt (s.mac n).ignore.toNat p then s.modMac n fun m => { m with pauseTick := Tab.ins p s.time.tick m.pauseTick }
  else if quanta = 0 then s.endPause n p
  else s.modMac n fun m => { m with
    pauseEnd := Tab.put m.pauseEnd 0 p (s.time.tick + quantaTicks quanta (s.macRate n))
    stopTick := Tab.ins p (Tab.get m.stopTick s.time.tick p) m.stopTick }

/-- A port that goes down, or leaves QUIET, clears its received timers (spec/05 R163). -/
def State.clearPause (s : State) (n : Nat) : State :=
  ((s.modMac n fun m => { m with pauseEnd := [], stopTick := [], ignore := 0 }).setF (F.portPauseStatus_STORM n) 0).showPause n

/-- Bin of a frame length in RX_LEN_BIN and TX_LEN_BIN (spec/05 R165). -/
def lenBin (n : Nat) : Nat :=
  if n ≤ 64 then 0 else if n ≤ 127 then 1 else if n ≤ 255 then 2 else if n ≤ 511 then 3 else if n ≤ 1023 then 4
  else if n ≤ 1518 then 5 else if n ≤ 9216 then 6 else 7

/-- Type of a destination address: 0 unicast, 1 group, 2 broadcast. -/
def castOf (l : List Byte) : Nat := if fbN l 0 6 = 2 ^ 48 - 1 then 2 else if bitAt (fb l 0) 0 then 1 else 0

/-- Preamble and SFD of IEEE 802.3. -/
def preamble : List Byte := List.replicate 7 0x55#8 ++ [0xD5#8]

/-- The SFD has been found: preamble bytes, seven or fewer, stand before it (spec/05 R155). -/
def sfdOk (l : List Byte) : Bool := l.getLast? == some 0xD5#8 && decide (l.length ≤ 8) && l.dropLast.all (· == 0x55#8)

/-- What stands before a frame of port `n` on its line: preamble and SFD, or a length prefix (spec/05 R155, spec/04 R124). -/
def State.lead (s : State) (n : Nat) (l : List Byte) : List Byte :=
  if s.isKl n then beBytes 4 (klPrefix l.length).toNat else preamble

/-- A frame leaves port `n`: on its line, and into its counters (spec/05 R155, R165; spec/04 R119, R124). -/
def State.send (s : State) (n : Nat) (l : List Byte) : State :=
  let s := s.out (.frame n (s.lead n l) l (if s.isKl n then 0 else 12))
  let s := s.when (s.isKl n) fun s => s.modLane n fun x => { x with tx := { x.tx with queue := x.tx.queue ++ [klChunk l] } }
  (((s.countPort n 28 l.length).countPort n 29).countPort n (30 + castOf l)).countPort n (37 + lenBin l.length)

/-- Port `n` is sending a frame. -/
def State.sendingAt (s : State) (n : Nat) : Bool := (Tab.get s.fabric.tx none n).isSome || (s.mac n).sending.isSome

/-- A frame is in transmission at port `n`; one whose speculative preamble has begun is (spec/05 R161). -/
def State.txBusy (s : State) (n : Nat) : Bool := s.sendingAt n || (Tab.get s.fabric.staged none n).isSome

/-- A raw code of capture path `p` of unit `u` as its linearisation table gives it (spec/09 R299, spec/11 R364): that of the last calibration
that took effect, the cumulative sum of its histogram in steps of 256 edges; before the first, the one of manufacture. -/
def State.linear (s : State) (u p : Nat) (raw : BitVec 12) : BitVec 12 :=
  match Tab.find (4 * u + p) s.cal.tables with
  | none => Config.factoryTable u p raw
  | some h => BitVec.ofNat 12 (min 4095 (((h.filter fun e => decide (e.1 < raw.toNat)).map (·.2)).foldl (· + ·) 0 / 256))

/-- The capture at lane `n`, received (0) or sent (1), linearised; the two paths of a direction alternate (spec/09 R298). -/
def State.captured (s : State) (n dir : Nat) (st : StampIn) : StampIn :=
  { st with code := s.linear n (2 * dir + Tab.get s.cal.turn 0 (2 * n + dir)) st.code }

/-- A stamp of lane unit `n` is counted, and the direction's other path takes the next one (spec/09 R298, R320). -/
def State.countStamp (s : State) (n dir : Nat) : State :=
  { s.bump (F.iuEdges_EDGES n) with cal := { s.cal with
      turn := Tab.put s.cal.turn 0 (2 * n + dir) (1 - Tab.get s.cal.turn 0 (2 * n + dir)) } }

/-- A MAC control frame leaves port `n`, stamped: PAUSE, or PFC (spec/05 R162, R165; spec/09 R294). -/
def State.sendCtrl (s : State) (n : Nat) (l : List Byte) : State :=
  ((s.countStamp n 1).send n l).countPort n (if fb2 l 14 = 1 then 33 else 34)

/-- The frame in progress has ended: the MAC control frames that wait leave. -/
def State.flushCtrl (s : State) (n : Nat) : State :=
  let l := if s.quiet then [] else (s.mac n).ctrl
  (s.modMac n fun m => { m with ctrl := [] }).each l fun s f => s.sendCtrl n f

/-- A frame of the port's own joins TC15 (spec/05 R179, spec/10 R332). -/
def State.queueOwn (s : State) (n : Nat) (l : OwnMsg) : State := s.modMac n fun m => { m with own := m.own ++ [l] }

/-- The MAC control frame of a port (IEEE 802.3): PAUSE carries one quanta, PFC an enable vector and eight. -/
def State.pauseFrame (s : State) (n enable : Nat) (quanta : Nat → Nat) : List Byte :=
  let head := beBytes 6 0x0180C2000001 ++ beBytes 6 (s.station n) ++ beBytes 2 0x8808
  let body := if s.pauseMode n = 1 then beBytes 2 1 ++ beBytes 2 (quanta 0)
    else beBytes 2 0x0101 ++ beBytes 2 enable ++ ((List.range 8).map fun p => beBytes 2 (quanta p)).flatten
  let l := head ++ body
  withFcs (l ++ List.replicate (60 - l.length) 0)

/-- Send one pause frame for the priorities of `enable`, ahead of all queued frames, after the frame in progress (spec/05 R162). -/
def State.sendPause (s : State) (n enable : Nat) (quanta : Nat → Nat) : State :=
  if enable = 0 ∨ s.pauseMode n = 0 ∨ s.quiet ∨ !s.portUp n then s
  else
    let l := s.pauseFrame n enable quanta
    let s := s.modMac n fun m => { m with xoffTick := (maskIdx 8 enable).foldl (fun t p => Tab.put t 0 p s.time.tick) m.xoffTick }
    if s.txBusy n then s.modMac n fun m => { m with ctrl := m.ctrl ++ [l] } else s.sendCtrl n l

/-- Ticks between two XOFF frames of a priority: REFRESH of TX_QUANTA or more acts as half of TX_QUANTA (spec/05 R162). -/
def State.refreshTicks (s : State) (n : Nat) : Nat :=
  let q := s.fld (F.portPause_TX_QUANTA n)
  let r := s.fld (F.portPause_REFRESH n)
  quantaTicks (if q ≤ r then q / 2 else r) (s.macRate n)

/-- Priorities in XOFF whose frame is due again (spec/05 R162). -/
def State.refreshDue (s : State) (n : Nat) : Nat :=
  idxMask ((maskIdx 8 (s.fld (F.portPauseStatus_TX_XOFF n))).filter fun p =>
    decide (Tab.get (s.mac n).xoffTick 0 p + s.refreshTicks n ≤ s.time.tick))

/-- PFC priority of a class (spec/05 R176). -/
def State.classPri (s : State) (n c : Nat) : Nat :=
  (s.fld (F.portTcPri_PRI n (c / 8)) >>> (3 * (c % 8))) % 8

/-- Priorities in XOFF by the classes that request it (spec/05 R162); in PAUSE mode bit 0 stands for the port. -/
def State.xoffPris (s : State) (n : Nat) : Nat :=
  let req := (s.mac n).xoff.toNat
  if s.pauseMode n = 1 then bit (req != 0)
  else if s.pauseMode n = 2 then idxMask ((maskIdx 16 req).map (s.classPri n))
  else 0

/-- Entries to and exits from XOFF send one frame for the priorities that changed or whose refresh is due (spec/05 R162). (DESIGN CHOICE, log entry 60) -/
def State.showXoff (s : State) (n : Nat) : State :=
  let old := s.fld (F.portPauseStatus_TX_XOFF n)
  let new := if s.quiet then 0 else s.xoffPris n
  if old = new then s
  else
    let s := s.setF (F.portPauseStatus_TX_XOFF n) new
    let entered := maskIdx 8 (new &&& (old ^^^ new))
    let s := s.each entered fun s p => s.countPort n (56 + p)
    s.sendPause n ((old ^^^ new) ||| s.refreshDue n) fun p => if bitAt new p then s.fld (F.portPause_TX_QUANTA n) else 0

/-- A class of a port requests XOFF, or XON (spec/08 R255). -/
def State.askXoff (s : State) (n c : Nat) (on : Bool) : State :=
  let m := BitVec.ofNat 16 (2 ^ c)
  (s.modMac n fun x => { x with xoff := if on then x.xoff ||| m else x.xoff &&& ~~~m }).showXoff n

end Sys2Proof.Machine
end

