-- ==== Sys2Proof/Machine/Time.lean ====
section
/-!
DEFINITION. Sys2Proof/Machine/Time.lean: device time (spec/09): increments and their clamps, steps, beat records and the conversion
of stamps, the assembly of a stamp, latency compensation, latched counters, named boundaries (spec/00 R15).
-/
namespace Sys2Proof.Machine
open Sys2Proof

/-- A beat in units of 2^-44 ns (spec/00 R15). -/
def beatUnits : Nat := 10000 * 2 ^ 44

/-- The nominal increment (spec/09 R287). -/
def nominalIncr : Nat := 5 * 2 ^ 41

def State.modTime (s : State) (f : TimeSt → TimeSt) : State := { s with time := f s.time }

/-! ### Increments (spec/01 R25, spec/09 R287, R317) -/

/-- Largest departure of counter `k` from the nominal increment, in parts per ten thousand. -/
def clampPart (k : Nat) : Nat := if k < 4 then 1 else 10

def incrMin (k : Nat) : Nat := (nominalIncr * (10000 - clampPart k) + 9999) / 10000
def incrMax (k : Nat) : Nat := nominalIncr * (10000 + clampPart k) / 10000

/-- A requested increment within the range of counter `k`. (DEDUCED, log entry 33) -/
def clampIncr (k : Nat) (x : Int) : Nat := if x < incrMin k then incrMin k else if x > incrMax k then incrMax k else x.toNat

/-- TIMEBASE_INCR shows the increment in force until a GO has latched it (spec/09 R291, R317). -/
def State.showIncr (s : State) (k : Nat) : State :=
  if s.time.latched then s
  else
    let v := (s.cnt k).incr.toNat
    (s.setReg (Reg.tbIncrLo k) (BitVec.ofNat 32 v)).setReg (Reg.tbIncrHi k) (BitVec.ofNat 32 (v / 2 ^ 32))

/-- Counter `k` takes a requested increment, clamped; a clamp sets its bit and raises INCR_CLAMP on the bit's rise. `src` is 0 for
a servo slot, 1 for a DPLL (spec/09 R287, R314). -/
def State.setIncr (s : State) (k : Nat) (x : Int) (src : Nat) : State :=
  let v := clampIncr k x
  let s := (s.modCnt k fun c => { c with incr := BitVec.ofNat 48 v }).showIncr k
  if (v : Int) = x then s
  else
    let f : Fld := ⟨Reg.tbClamp, k, 1⟩
    if s.flag f then s
    else (s.setF f 1).raise 0x0601 16 [(0, 1, k), (1, 1, src), (4, 6, twos 48 x), (12, 4, s.beat)]

/-! ### Values, steps, latches -/

/-- Counter `k` takes the value of a timestamp; the bits below 2^-16 ns become 0 (spec/09 R292 SET). -/
def State.setVal (s : State) (k : Nat) (t : Stamp) : State :=
  s.modCnt k fun c => { c with val := t * 2 ^ 28 % counterRange }

/-- Counter `k` moves by a number of units of 2^-16 ns. -/
def State.addVal (s : State) (k : Nat) (d : Int) : State :=
  s.modCnt k fun c => { c with val := (((c.val : Int) + d * 2 ^ 28) % (counterRange : Int)).toNat }

/-- TIMEBASE_STEP[a] records a step of anchor `a` (spec/09 R316): a signed time; kind 0 first lock, 1 TCNT_WRITE SET. -/
def State.recordStep (s : State) (a : Nat) (d : Int) (kind : Nat) : State :=
  let sec := d / (stampSec : Int)
  let sub := (d % (stampSec : Int)).toNat
  let s := (s.setF (F.tbStepFrac_FRAC a) (sub % 2 ^ 16)).setF (F.tbStepNs_NS a) (sub / 2 ^ 16)
  let w := twos 48 sec
  let s := ((s.setF (F.tbStepSecLo_SEC_LO a) w).setF (F.tbStepSecHi_SEC_HI a) (w / 2 ^ 32)).setF (F.tbStepSecHi_KIND a) kind
  (s.setF (F.tbStepSecHi_VALID a) 1).modTime fun x => { x with stepTick := Tab.put x.stepTick 0 a (x.tick + 1) }

/-- The step that TIMEBASE_STEP[a] holds, in units of 2^-16 ns (spec/09 R307, R309). -/
def State.stepOf (s : State) (a : Nat) : Int :=
  if s.flag (F.tbStepSecHi_VALID a) then
    sgn 48 (s.fld (F.tbStepSecHi_SEC_HI a) * 2 ^ 32 + s.fld (F.tbStepSecLo_SEC_LO a)) * (stampSec : Int)
      + s.fld (F.tbStepNs_NS a) * 2 ^ 16 + s.fld (F.tbStepFrac_FRAC a)
  else 0

/-- Anchor `a` has stepped after the tick `t`. -/
def State.steppedSince (s : State) (a t : Nat) : Bool := decide (t < Tab.get s.time.stepTick 0 a)

/-- Anchor `a` has taken its first-lock step (spec/09 R315). -/
def State.locked (s : State) (a : Nat) : Bool :=
  if a = 0 then s.flag F.tbStatus_LOCKED_0 else bitAt (s.fld F.tbStatus_LOCKED_123) (a - 1)

def State.setLocked (s : State) (a : Nat) : State :=
  if a = 0 then s.setF F.tbStatus_LOCKED_0 1
  else s.setF F.tbStatus_LOCKED_123 (s.fld F.tbStatus_LOCKED_123 ||| 2 ^ (a - 1))

/-- All counters and their increments are latched on one tick, and GO clears (spec/09 R291, R317, R318). -/
def State.latchCounters (s : State) : State :=
  let s := s.each (List.range 32) fun s k =>
    let v := (s.cnt k).val
    let i := (s.cnt k).incr.toNat
    let s := ((s.setReg (Reg.tbSnapFrac k) (BitVec.ofNat 32 (v / 2 ^ 12))).setF (F.tbSnapNs_NS k) (v % unitsPerSec / 2 ^ 44))
    let s := (s.setReg (Reg.tbSnapSecLo k) (BitVec.ofNat 32 (v / unitsPerSec))).setF (F.tbSnapSecHi_SEC_HI k) (v / unitsPerSec / 2 ^ 32)
    (s.setReg (Reg.tbIncrLo k) (BitVec.ofNat 32 i)).setReg (Reg.tbIncrHi k) (BitVec.ofNat 32 (i / 2 ^ 32))
  ((s.modTime fun x => { x with snap := false, latched := true }).setF F.tbSnapCtrl_GO 0).setF F.tbSnapCtrl_BEAT s.beat

/-- `n` core ticks pass; a latch asked for with MODE 0 is taken on the first of them (spec/09 R291). (DESIGN CHOICE, log entry 1) -/
def State.pass (s : State) (n : Nat) : State :=
  if s.time.snap && !s.flag F.tbSnapCtrl_MODE && decide (0 < n) then ((s.ticks 1).latchCounters).ticks (n - 1) else s.ticks n

/-- What passes when no command waits: one core tick, while the tick PLL runs; the tick on which a beat boundary falls is left
to the command BEAT_BOUNDARY (DESIGN CHOICE, log entry 1) -/
def State.idle (s : State) : State :=
  if s.power.aon && s.power.pllLocked && decide (s.time.beatTicks + 1 < s.time.beatLen) then s.pass 1 else s

/-! ### Beat records and stamps (spec/09 R290, R295, R311) -/

/-- Fabric temperature sensor 12, between the clock and event blocks (spec/11 R365). (PRESUMED, log entry 65) -/
def State.fabricTemp (s : State) : BitVec 16 := Tab.get s.cal.temps 0 12

/-- The value of counter `k` in a beat record. -/
def recCnt (r : List Counter) (k : Nat) : Counter := r.getD k {}

/-- A stamp of TCNT0 in the time of counter `k`; none where it is older than the oldest record kept. -/
def State.toCounter (s : State) (k : Nat) (t : Stamp) : Option Stamp :=
  (s.time.recs.find? fun r => decide ((recCnt r 0).val ≤ t * 2 ^ 28)).map fun r =>
    let c0 := recCnt r 0
    let ck := recCnt r k
    (ck.val * c0.incr.toNat + (t * 2 ^ 28 - c0.val) * ck.incr.toNat) / c0.incr.toNat % counterRange / 2 ^ 28

/-- A residence in the time of counter `k`, by the record at the egress stamp, truncated (spec/09 R311). -/
def State.residIn (s : State) (k : Nat) (out : Stamp) (r : Int) : Int :=
  match s.time.recs.find? fun r => decide ((recCnt r 0).val ≤ out * 2 ^ 28) with
  | some x => (r * (recCnt x k).incr.toNat).tdiv (recCnt x 0).incr.toNat
  | none => r

/-- A stamp by R295: `num` / `den` is D_rx with a minus sign, or D_tx, in units of 2^-16 ns; only the result is truncated. -/
def State.stampBy (s : State) (st : StampIn) (num : Int) (den : Nat := 1) : Stamp :=
  let c := s.cnt 0
  let v : Int := (c.val * 4096 - st.code.toNat * c.incr.toNat : Int) * den + num * 2 ^ 28 * 4096
  ((v % ((counterRange * 4096 * den : Nat) : Int)).toNat) / (4096 * 2 ^ 28 * den)

/-! ### Latency compensation (spec/04 R116, R127; spec/09 R319) -/

/-- Transmit and receive latency of a port's mode, in tenths of a nanosecond: the frame latencies of R116 and R127. -/
def latencies (kl : Bool) (rate fec width : Nat) : Nat × Nat :=
  if kl then (if rate = 2 then (112, 176) else if rate = 3 then (176, 1088) else (160, 848))
  else if rate = 0 then (528, 1184)
  else if rate = 1 then (224, 384)
  else if rate = 2 then (if fec = 0 then (160, 256) else (192, 1184))
  else if rate = 3 then
    (if width = 1 then (224, 1360) else if width = 2 then (240, 1152) else if width = 4 then (272, 1088) else (304, 1056))
  else (if width = 1 then (192, 928) else if width = 2 then (224, 864) else if width = 4 then (256, 832) else (288, 784))

/-- Marker latencies of a KL rate (spec/04 R127). -/
def markerLatencies (rate : Nat) : Nat × Nat := if rate = 2 then (64, 96) else if rate = 3 then (64, 80) else (56, 72)

/-- Trims in force of lane `n`, receive and transmit: those in fuses until its first path run (spec/11 R357, R362). -/
def State.trims (s : State) (n : Nat) : Int × Int :=
  let p := Tab.get s.cal.path {} n
  if p.trimmed then (p.rxTrim, p.txTrim) else (Config.fuseRxTrim n, Config.fuseTxTrim n)

/-- Symbol rate of a lane rate, in units of 1/160 GBd: one unit interval is 160 ns divided by it (spec/04 R114, R119). -/
def symbolRate (rate : Nat) : Nat :=
  if rate = 0 then 200 else if rate = 1 then 1650 else if rate = 2 then 4125 else if rate = 3 then 4250 else 8500

/-- Trim and fused delay from ball to die of lane `n`, receive and transmit, in units of 2^-16 ns (spec/02 R79, spec/09 R319). -/
def State.pathDelays (s : State) (n : Nat) : Int × Int :=
  ((s.trims n).1 + (Config.fuseBallRx n).toNat, (s.trims n).2 + (Config.fuseBallTx n).toNat)

/-- D_rx and D_tx of the port at lane `n` for a frame whose variable latency is `ui` unit intervals, exactly: two numerators over one
denominator, in units of 2^-16 ns (spec/04 R116, R117; spec/09 R293, R295): on Ethernet less, or plus, the duration of the SFD,
8 bit times. -/
def State.comp (s : State) (n ui : Nat) : Int × Int × Nat :=
  let l := latencies (s.isKl n) (s.rateCode n) (s.fec n) (s.width n)
  let r := s.macRate n
  let b := symbolRate (s.rateCode n)
  let den := 10 * r * b
  let sfd : Int := if s.isKl n then 0 else 80 * b
  let var : Int := 1600 * r * ui
  let p := s.pathDelays n
  ((l.2 * r * b + var - sfd) * 65536 + p.1 * den, (l.1 * r * b + var + sfd) * 65536 + p.2 * den, den)

/-- TIMEBASE_LCOMP of lane `n` shows the fixed part of the compensation; 0 for lanes that head no port (spec/09 R319). -/
def State.showComp (s : State) (n : Nat) : State :=
  let c := if s.portExists n && s.cfgOk n then s.comp n 0 else (0, 0, 1)
  (s.setReg (Reg.tbLcompRx n) (BitVec.ofNat 32 (twos 32 (c.1 / (c.2.2 : Int))))).setReg (Reg.tbLcompTx n)
    (BitVec.ofNat 32 (twos 32 (c.2.1 / (c.2.2 : Int))))

/-- The stamp of a frame received, or sent, at port `n` (spec/09 R295). -/
def State.rxStamp (s : State) (n : Nat) (st : StampIn) : Stamp :=
  let c := s.comp n st.var.toNat
  s.stampBy st (-c.1) c.2.2
def State.txStamp (s : State) (n : Nat) (st : StampIn) : Stamp :=
  let c := s.comp n st.var.toNat
  s.stampBy st c.2.1 c.2.2

/-- The stamp of a KL marker (spec/04 R126, R127). -/
def State.markerStamp (s : State) (n : Nat) (st : StampIn) (rx : Bool) : Stamp :=
  let l := markerLatencies (s.rateCode n)
  let p := s.pathDelays n
  if rx then s.stampBy st (-(l.2 * 65536 + p.1 * 10 : Int)) 10 else s.stampBy st (l.1 * 65536 + p.2 * 10 : Int) 10


/-! ### Named boundaries (spec/00 R15, spec/01 R30) -/

/-- Second and beat of a command as a boundary's name: none for the next boundary (second 0, beat 0). -/
def boundaryName (sec beat : Nat) : Option Nat := if sec = 0 ∧ beat = 0 then none else some (sec * 100000 + beat)

/-- The boundary that a name means when a command names it: none is the next one. -/
def State.boundNo (s : State) (name : Option Nat) : Nat := name.getD (s.time.idx + 1)

/-- The name is a beat, and lies ahead of the present one. (DEDUCED, log entry 14) -/
def State.nameOk (s : State) (beat : Nat) (name : Option Nat) : Bool :=
  decide (beat < 100000) && name.all fun n => s.time.idx < n

/-- Work for this name is due at the present boundary. (DEDUCED, log entry 14) -/
def State.dueName (s : State) (name : Option Nat) : Bool := name.all fun n => n == s.time.idx

/-- The name has been skipped by a step (spec/01 R29). (DEDUCED, log entry 14) -/
def State.skippedName (s : State) (name : Option Nat) : Bool := name.any fun n => n < s.time.idx

/-- Beat and second of the present boundary, as completions carry them. -/
def State.boundaryData (s : State) : BitVec 256 := packLE 256 [(0, 4, s.time.idx % 100000), (4, 6, s.time.idx / 100000)]

/-- GLOBAL_BEAT shows the present beat (spec/01 R36). -/
def State.showBeat (s : State) : State :=
  (s.setF F.globalBeat_BEAT (s.time.idx % 100000)).setF F.globalBeat_SEC_LO (s.time.idx / 100000 % 2 ^ 15)

/-- Ticks until TCNT0 reaches `u` units past its present value. -/
def ticksFor (u incr : Nat) : Nat := (u + incr - 1) / incr

/-- The length of the beat that begins now (spec/01 R28, R29): to the next multiple of 10 µs, or to the one after it where a step
leaves fewer than 8,000 ticks. -/
def State.planBeat (s : State) (stepped : Bool) : State :=
  let c := s.cnt 0
  let left := (c.val / beatUnits + 1) * beatUnits - c.val
  let n := ticksFor left c.incr.toNat
  let n := if stepped && decide (n < 8000) then ticksFor (left + beatUnits) c.incr.toNat else n
  s.modTime fun x => { x with beatLen := max 1 n }

/-- Core ticks pass until tick `t` of the present beat, or the last one before the next boundary (spec/01 R29, R32). (DESIGN CHOICE, log entry 2) -/
def State.toTick (s : State) (t : Nat) : State :=
  if s.power.aon && s.power.pllLocked then s.pass (min t (s.time.beatLen - 1) - s.time.beatTicks) else s

/-- Core ticks pass until the absolute tick `t`, where it lies in the present beat; else none pass. (DESIGN CHOICE, log entry 2) -/
def State.reachTick (s : State) (t : Nat) : State :=
  let s' := s.toTick (s.time.beatTicks + (t - s.time.tick))
  if t ≤ s'.time.tick then s' else s

/-! ### Results rounded by R550 (spec/10) -/

/-- A quotient rounded to the nearest integer, ties to even (spec/10 R550). -/
def roundDiv (a : Int) (b : Nat) : Int :=
  if b = 0 then 0
  else
    let q := a / (b : Int)
    let r := a % (b : Int)
    if 2 * r < b then q else if 2 * r > b then q + 1 else if q % 2 = 0 then q else q + 1

end Sys2Proof.Machine
end

