-- ==== Sys2Proof/Machine/Redund.lean ====
section
/-!
DEFINITION. Sys2Proof/Machine/Redund.lean: the timing pair (spec/14): the gate on what CORE0 and CORE1 write, heartbeats, HOLD, switch-over,
divergence, PAIR_SWAP, the board interlock.
-/
namespace Sys2Proof.Machine
open Sys2Proof

def State.modRedund (s : State) (f : RedundSt → RedundSt) : State := { s with redund := f s.redund }

/-- Core that holds the interlock. -/
def State.holder (s : State) : Nat := s.fld F.redundStatus_HOLDER

/-- State field of CORE0 or CORE1. -/
def pairField (c : Nat) : Fld := if c = 0 then F.redundStatus_CORE0_STATE else F.redundStatus_CORE1_STATE
def State.pairState (s : State) (c : Nat) : Nat := s.fld (pairField c)
def State.setPair (s : State) (c v : Nat) : State := s.setF (pairField c) v

/-- Registers whose writes by CORE0 and CORE1 the interlock gates: TIMEBASE, SERVO, REFCLK, MEASURE_EVOUT (spec/14 R442). -/
def gatedReg (a : Nat) : Bool := (decide (0x3000000 ≤ a) && decide (a < 0x3C00000)) || (decide (0x3C03000 ≤ a) && decide (a < 0x3C04000))

/-- An action of core `c` enters its signature (spec/14 R443). (DEDUCED, log entry 46) -/
def State.sign (s : State) (c : Nat) (l : List Byte) : State :=
  s.modRedund fun x => if c = 0 then { x with sig0 := x.sig0 ++ l } else { x with sig1 := x.sig1 ++ l }

/-- A gated action `f` of core `c`, as its bytes `l` in the signature: that of a core without the interlock is discarded and counted (spec/14
R442). (DEDUCED, log entry 46) -/
def State.gated (s : State) (c : Nat) (l : List Byte) (f : State → State) : State :=
  let s := s.sign c l
  if s.holder = c ∧ !s.flag F.redundStatus_UNATTENDED then f s else (s.bump (F.redundCnt_COUNT 4)).perf c 28

/-- What `f` does as a gated write of the pair: a register word that it leaves waiting for the boundary is staged (spec/14 R446). -/
def State.staging (s : State) (f : State → State) : State :=
  let t := f s
  { t with waiting := t.waiting.take s.waiting.length ++ (t.waiting.drop s.waiting.length).map fun x => { x with pair := true } }

/-- A writer's place in the order of one tick: the host, then CORE0 to CORE7 (spec/18 R547). -/
def busPlace (src : WrSrc) : Nat :=
  match src with
  | .host => 0
  | .core c => c.val + 1

/-- Register `a` has been written on this tick by a writer that comes after `src` (spec/18 R547). (DEDUCED, log entry 9) -/
def State.beaten (s : State) (src : WrSrc) (a : Nat) : Bool :=
  s.written.tick == s.time.tick + 1 && (Tab.find a s.written.regs).any fun n => decide (busPlace src < n)

/-- `src` has written register `a` on this tick. (DEDUCED, log entry 9) -/
def State.took (s : State) (src : WrSrc) (a : Nat) : State :=
  let b := if s.written.tick = s.time.tick + 1 then s.written.regs else []
  { s with written := ⟨s.time.tick + 1, Tab.ins a (max (busPlace src) (Tab.get b 0 a)) b⟩ }

/-- Perform the register write `f` of `src` to register `a` (spec/14 R441 to R443): a gated write enters its core's
signature; that of a core without the interlock is discarded and counted. Nothing is written while the main domain is in reset. -/
def State.byWriter (s : State) (src : WrSrc) (a : Nat) (w : Word) (f : State → State) : State :=
  if !s.up then s
  else match src with
  | .host => f s
  | .core c =>
    if c.val < 2 ∧ gatedReg a then s.gated c.val (natBytes 4 a ++ natBytes 4 w.toNat) fun s => s.staging f else f s

/-- The firmware of the pair acts: each core that runs it does (spec/14 R441, R442). -/
def State.byPair (s : State) (l : List Byte) (f : State → State) : State :=
  let runs (c : Nat) : Bool := s.pairState c == 3 || s.pairState c == 4
  let s := s.when (runs 0) fun s => s.gated 0 l f
  s.when (runs 1) fun s => s.gated 1 l f

/-- The firmware of the pair writes a register word for the next boundary. -/
def State.pairWrite (s : State) (a : Nat) (w : Word) : State :=
  s.byPair (natBytes 4 a ++ natBytes 4 w.toNat) fun s => s.staging fun s => s.wait a w

/-- The firmware of the pair transmits a frame at port `n`. -/
def State.pairSend (s : State) (n : Nat) (m : OwnMsg) : State := s.byPair m.bytes fun s => s.queueOwn n m

/-- PAIR_FAULT (spec/14 R455). -/
def State.pairFault (s : State) (kind core paths : Nat) : State :=
  s.raise 0x0B02 16 [(0, 1, kind), (1, 1, core), (2, 1, paths), (4, 4, s.time.idx % 100000), (8, 6, s.time.idx / 100000)]

/-- HEARTBEAT (spec/14 R444): on the network path it must carry the number of the present beat. A core that is held in reset or has halted emits
none (spec/16 R491). -/
def execHeartbeat (core : Fin 2) (wire : Bool) (beatNo : Nat) (s : State) : Host.Outcome State Fault Refusal :=
  let st := s.fld (F.coreStatus_STATE core)
  .next (if !s.up || !(st == 1 || st == 2) then s
    else if wire then s.modRedund fun x => { x with seen := x.seen ||| BitVec.ofNat 4 (2 ^ (2 * core.val + 1)) }
    else if beatNo = s.beat then s.modRedund fun x => { x with seen := x.seen ||| BitVec.ofNat 4 (2 ^ (2 * core.val)) }
    else s)

/-- A core whose heartbeats are evaluated: STANDBY or ACTIVE. (DEDUCED, log entry 46) -/
def State.evaluated (s : State) (c : Nat) : Bool := s.pairState c == 3 || s.pairState c == 4

/-- The failure condition of R445 for core `c`, from the misses now (`m`) and at the last boundary (`old`). -/
def State.coreFailed (s : State) (c m old : Nat) : Bool :=
  let n := bitAt m (2 * c)
  let w := bitAt m (2 * c + 1)
  let n' := bitAt old (2 * c)
  let w' := bitAt old (2 * c + 1)
  let f := s.fld F.redundHb_FAULTED
  let fn := bitAt f (2 * c)
  let fw := bitAt f (2 * c + 1)
  s.evaluated c && ((n && w && (n' || w')) ||
    (s.flag F.redundCfg_SINGLE_PATH && ((fn && !fw && w && w') || (fw && !fn && n && n'))))

/-- A core is marked FAILED and held in reset (spec/14 R447, spec/16 R491). -/
def State.failCore (s : State) (c : Nat) : State :=
  ((s.setPair c 5).setF (F.coreStatus_STATE c) 0).modCore c fun x => { x with sleep := none, active := false }

/-- The boundary is held (spec/14 R446): counted once in HELD; the first one of a HOLD is remembered. (DEDUCED, log entry 13) -/
def State.markHeld (s : State) : State :=
  if s.redund.nowHeld then s
  else
    let s := (s.bump (F.redundCnt_COUNT 0)).setF F.redundStatus_HOLD 1
    s.modRedund fun x => { x with
      nowHeld := true, held := x.held + 1,
      heldAt := if x.held = 0 then (s.time.idx % 100000, s.time.idx / 100000) else x.heldAt }

/-- The interlock passes from core `a` to core `b` (spec/14 R447, R450, R455; spec/16 R496): the boundary is held; PAIR_SWITCH; the takeover
interrupt. -/
def State.passLock (s : State) (a b cause miss : Nat) : State :=
  let s := ((s.markHeld).setF F.redundStatus_HOLDER b).setPair b 4
  let s := (s.bump (F.redundCnt_COUNT 1)).raise 0x0B01 16
    [(0, 1, a), (1, 1, b), (2, 1, cause), (3, 1, s.redund.held), (4, 4, s.redund.heldAt.1), (8, 6, s.redund.heldAt.2), (14, 1, miss)]
  (s.raiseInt b 1).modRedund fun x => { x with takeover := x.held, held := 0 }

/-- The holder has failed (spec/14 R447, R448). -/
def State.holderFailed (s : State) (m : Nat) : State :=
  let a := s.holder
  let b := 1 - a
  let s := s.failCore a
  if s.pairState b = 3 then s.passLock a b 0 m
  else ((s.markHeld.setF F.redundStatus_UNATTENDED 1).pairFault 3 a m).modRedund fun x => { x with held := 0 }

/-- One path at a boundary (spec/14 R445): PATH_FAULT after two misses while the other path is present; cleared after 100
boundaries in a row with it present. (DEDUCED, log entry 46) -/
def State.pathStep (s : State) (p m old : Nat) : State :=
  let c := p / 2
  let other := if p % 2 = 0 then p + 1 else p - 1
  let f := s.fld F.redundHb_FAULTED
  if bitAt f p then
    if bitAt m p then s.modRedund fun x => { x with present := Tab.put x.present 0 p 0 }
    else if 99 ≤ Tab.get s.redund.present 0 p then
      ((s.modRedund fun x => { x with present := Tab.put x.present 0 p 0 }).setF F.redundHb_FAULTED (f - 2 ^ p)).pairFault 1 c (2 ^ p)
    else s.modRedund fun x => { x with present := Tab.put x.present 0 p (Tab.get x.present 0 p + 1) }
  else if s.evaluated c && bitAt m p && bitAt old p && !bitAt m other then
    ((s.setF F.redundHb_FAULTED (f ||| 2 ^ p)).bump (F.redundCnt_COUNT 2)).pairFault 0 c (2 ^ p)
  else s

/-- A divergence (spec/14 R443): the standby enters SYNCING; after three within 10 s it is FAILED; with AUTO_RESYNC it is resynchronised. -/
def State.diverge (s : State) : State :=
  let c := 1 - s.holder
  let d := s.time.tick :: s.redund.diverged.filter fun t => s.time.tick < t + 16000000000
  let s := (s.modRedund fun x => { x with diverged := d }).bump (F.redundCnt_COUNT 3)
  let s := (s.setPair c 2).pairFault 5 c 0
  if 3 ≤ d.length then s.failCore c
  else if s.flag F.redundCfg_AUTO_RESYNC then s.modRedund fun x => { x with rejoin := some (c, s.time.tick) }
  else s

/-- A divergence is looked for (spec/14 R443). -/
def State.compared (s : State) : Bool :=
  s.flag F.redundCfg_COMPARE && s.pairState (1 - s.holder) == 3 && !s.flag F.redundStatus_VER_MIXED && !s.flag F.redundStatus_UNATTENDED

/-- The program state of the holder is copied into core `c`, bank for bank (spec/14 R441, R449; spec/16 R490): quad 0 is CORE0's,
quad 1 CORE1's. -/
def State.copyHolder (s : State) (c : Nat) : State :=
  let h := 1 - c
  let x := s.core h
  let s := s.modCore c fun y => { x with mbReq := y.mbReq, mbTaken := y.mbTaken, mbCpl := y.mbCpl, cnt := y.cnt, cntHi := y.cntHi, lfsr := y.lfsr,
                                         countdown := y.countdown, tagDue := y.tagDue, tagged := y.tagged, dog := y.dog,
                                         cycFrom := y.cycFrom, wraps := y.wraps, slotsUsed := y.slotsUsed, slept := y.slept,
                                         sleepAt := y.sleepAt }
  let s := s.setF (F.coreStatus_STATE c) (s.fld (F.coreStatus_STATE h))
  let lo := 524288 * c
  let keep := s.cores.mem.filter fun e => !(decide (lo ≤ e.1) && decide (e.1 < lo + 524288))
  let new := (s.cores.mem.filter fun e => decide (524288 * h ≤ e.1) && decide (e.1 < 524288 * h + 524288)).map fun e =>
    (e.1 - 524288 * h + lo, e.2)
  let mem := new.foldl (fun t e => Tab.ins e.1 e.2 t) keep
  { s with cores := { s.cores with mem := mem } }

/-- TIMING image that core `c` runs: a staged one since its rejoining, else the running one. -/
def State.pairImage (s : State) (c : Nat) : Option Image :=
  match Tab.find c s.redund.imgs with
  | some i => some i
  | none => s.sec.running.find? fun i => i.component == 1

/-- The joining firmware accepts the holder's state-format version. (DEDUCED, log entry 46) -/
def State.stateAccepted (s : State) (c : Nat) (new : Option Image) : Bool :=
  match (match new with | some i => some i | none => s.pairImage c), s.pairImage (1 - c) with
  | some i, some h => decide (i.stateFrom.toNat ≤ h.stateFmt.toNat)
  | _, _ => true

/-- Bytes of program state that a rejoining copies: the banks of a core's quad; the first pass takes 32,768 ticks at 25.6 GB/s (spec/14 R449,
spec/16 R490). -/
def quadBytes : Nat := 524288
def copyTicks : Nat := quadBytes / 16

/-- The final copy of the holder's state: core `c` is in STANDBY and lockstep resumes (spec/14 R449). (DEDUCED, log entry 46) -/
def State.joinCopy (s : State) (c : Nat) : State := ((s.copyHolder c).setPair c 3).modRedund fun x => { x with reads := [] }

/-- An automatic resynchronisation ends at the first boundary after its background pass: the standby is in STANDBY again, or, where its
firmware does not accept the holder's state, stays in SYNCING (spec/14 R443, R449). -/
def State.resynced (s : State) : State :=
  match s.redund.rejoin with
  | some (c, t) =>
    if s.time.tick < t + copyTicks then s
    else (s.modRedund fun x => { x with rejoin := none }).when (s.pairState c == 2 && s.stateAccepted c none) fun s => s.joinCopy c
  | none => s

/-- BOARD_INTLK (spec/14 R455). -/
def State.boardEvent (s : State) (kind : Nat) (level : Bool) : State :=
  s.raise 0x0B03 16 [(0, 1, kind), (1, 1, bit level), (4, 4, s.time.idx % 100000), (8, 6, s.time.idx / 100000)]

/-- The device may hold the board interlock (spec/14 R452). (DEDUCED, log entry 47) -/
def State.boardOk (s : State) : Bool :=
  s.flag F.redundCfg_BOARD_EN && !s.flag F.redundStatus_UNATTENDED && !s.flag F.redundStatus_ARB_FAULT

/-- The board interlock is released where the device may not hold it. (DEDUCED, log entry 47) -/
def State.boardRelease (s : State) : State :=
  if s.flag F.redundStatus_BOARD_HOLD && !s.boardOk then
    ((s.setF F.redundStatus_BOARD_HOLD 0).modRedund fun x => { x with taking := false }).boardEvent 1 (s.flag F.redundStatus_PEER)
  else s

/-- A PAIR_SWAP whose boundary this is (spec/14 R450). (DEDUCED, log entry 47) -/
def State.swapStep (s : State) : State :=
  match s.redund.swap with
  | none => s
  | some (id, name) =>
    if s.skippedName name then ((s.modRedund fun x => { x with swap := none }).finish id st.badState).late 8
    else if !s.dueName name then s
    else
      let s := s.modRedund fun x => { x with swap := none }
      let a := s.holder
      if s.pairState (1 - a) ≠ 3 ∨ s.flag F.redundStatus_UNATTENDED then s.finish id st.badState
      else
        let s := if s.redund.nowHeld then s else s.modRedund fun x => { x with held := 0 }
        ((s.setPair a 3).passLock a (1 - a) 1 (s.fld F.redundHb_MISSING)).finish id st.ok s.boundaryData

/-- The heartbeats of the beat that ends are evaluated (spec/14 R445). -/
def State.hbStep (s : State) (m old : Nat) : State :=
  let h := s.holder
  let f0 := s.coreFailed 0 m old
  let f1 := s.coreFailed 1 m old
  let known := s.flag F.redundStatus_ARB_FAULT
  let s := s.each (List.range 4) fun s p => s.pathStep p m old
  if s.flag F.redundStatus_UNATTENDED then s
  else if f0 && f1 then
    ((s.setF F.redundStatus_ARB_FAULT 1).when (!known) fun s => s.pairFault 2 h m).modRedund fun x => { x with held := 0 }
  else if (if h = 0 then f0 else f1) then s.holderFailed m
  else
    let s := if (if h = 0 then f1 else f0) then (s.failCore (1 - h)).pairFault 4 (1 - h) m else s
    let live := (m &&& (15 - s.fld F.redundHb_FAULTED)) / 4 ^ h % 4
    if live = 0 then s.modRedund fun x => { x with held := 0 } else s.markHeld

/-- PEER shows the level of INTLK_IN at this boundary, an input; boundaries in a row at which it has been low are counted (spec/14 R453, R456). (DEDUCED, log entry 47) -/
def State.boardPin (s : State) : State :=
  let high := Config.intlkIn s.freeCtr
  (s.fresh.setF F.redundStatus_PEER (bit high)).modRedund fun x => { x with low := if high then 0 else x.low + 1 }

/-- Order 1 of a boundary (spec/01 R31; spec/14 R443 to R450, R452, R453): the heartbeats of a beat that overlaps DIP (`skip`) are not
evaluated; the signatures of two cores are compared in every beat. -/
def State.redundBoundary (s : State) (skip : Bool) : State :=
  let s := s.boardPin
  let m := 15 - s.redund.seen.toNat
  let old := s.redund.missed.toNat
  let div := s.compared && crc32 s.redund.sig0 != crc32 s.redund.sig1
  let s := s.resynced
  let s := (s.setF F.redundStatus_HOLD 0).modRedund fun x => { x with nowHeld := false }
  let s := if skip then (if s.redund.held = 0 then s else s.markHeld) else (s.setF F.redundHb_MISSING m).hbStep m old
  let s := s.when (div && s.compared) State.diverge
  let s := s.swapStep
  let s := s.boardRelease
  s.modRedund fun x => { x with
    seen := 0, missed := if skip then x.missed else BitVec.ofNat 4 m, sig0 := [], sig1 := [] }

/-- PAIR_SWAP (spec/14 R450, R454). -/
def execPairSwap (c : Cmd) (s : State) : Host.Outcome State Fault Refusal :=
  .next (s.start c 0x0B02 (c.ok 10 && s.nameOk (c.fld 6 4) (boundaryName (c.fld 0 6) (c.fld 6 4))) fun s =>
    if s.pairState (1 - s.holder) ≠ 3 ∨ s.flag F.redundStatus_UNATTENDED then s.complete c 0x0B02 st.badState
    else if s.redund.swap.isSome then s.complete c 0x0B02 st.busy
    else
      let (s, id) := s.parkId c 0x0B02
      s.modRedund fun x => { x with swap := some (id, boundaryName (c.fld 0 6) (c.fld 6 4)) })

/-- INTLK_IN has been low at BOARD_WAIT boundaries in a row (spec/14 R453, R456). -/
def State.boardFree (s : State) : Bool := decide (max 1 (s.fld F.redundCfg_BOARD_WAIT) ≤ s.redund.low)

/-- BOARD_INTLK_TAKE (spec/14 R453). (DEDUCED, log entry 47) -/
def execBoardIntlkTake (s : State) : Host.Outcome State Fault Refusal :=
  .next (if s.up && s.boardOk && s.boardFree && !s.flag F.redundStatus_BOARD_HOLD then
      ((s.setF F.redundStatus_PEER 0).setF F.redundStatus_BOARD_HOLD 1).modRedund fun x => { x with taking := true }
    else s)

/-- Output number `i` of a field of REDUND_SHARED is at high impedance: it is shared, and the device does not hold the board interlock
(spec/14 R452, R453). (DEDUCED, log entry 47) -/
def State.sharedOff (s : State) (f : Fld) (i : Nat) : Bool :=
  s.flag F.redundCfg_BOARD_EN && (!s.flag F.redundStatus_BOARD_HOLD || s.redund.taking) && bitAt (s.fld f) i

end Sys2Proof.Machine
end

