-- ==== Sys2Proof/Machine/Reset.lean ====
section
/-!
DEFINITION. Sys2Proof/Machine/Reset.lean: what every reset does to registers: class L fields take their reset values, class B fields
those of the profile in force, the other classes keep theirs (spec/00 R18, spec/03 R96, R113).
-/
namespace Sys2Proof.Machine
open Sys2Proof

/-- Registers that `sel` names lose what is not of class A, V or F (spec/03 R113). (DEDUCED, log entry 17) -/
def State.regsReset (s : State) (sel : Nat → Bool) : State :=
  let s := { s with waiting := s.waiting.filter fun p => !sel p.addr }
  s.each (s.regs.filter fun p => sel p.1) fun s p =>
    match RegMap.find p.1 with
    | none => s
    | some h =>
      let k := BitVec.ofNat 32 h.maskKept
      s.setReg p.1 ((p.2 &&& k) ||| (RegMap.reset p.1 &&& ~~~k))

end Sys2Proof.Machine

namespace Sys2Proof
open Sys2Proof.Machine

/-- Bits of a register that a setting of a profile reaches: those it names, of class B, or of class A where `a`. -/
def Setting.reach (t : Setting) (a b : Bool) : Word :=
  match RegMap.find t.addr with
  | none => 0
  | some h => t.mask &&& rwMask t.addr &&&
      BitVec.ofNat 32 ((if a then h.maskA else 0) ||| (if b then h.maskB else 0))

end Sys2Proof

namespace Sys2Proof.Machine
open Sys2Proof

/-- The word that a register takes from a setting. -/
def State.settingWord (s : State) (t : Setting) (a b : Bool) : Word :=
  (s.reg t.addr &&& ~~~(t.reach a b)) ||| (t.value &&& t.reach a b)

/-- Settings of a profile go into the registers that `sel` names (spec/03 R87, R90, R96). -/
def State.settle (s : State) (sel : Nat → Bool) (l : List Setting) (a b : Bool) : State :=
  s.each (l.filter fun t => sel t.addr) fun s t => s.setReg t.addr (s.settingWord t a b)

/-- A reset of the registers that `sel` names, with the profile in force (spec/03 R96). -/
def State.regsRestore (s : State) (sel : Nat → Bool) : State := (s.regsReset sel).settle sel s.power.active.settings false true

end Sys2Proof.Machine
end

