-- ==== Sys2Proof/Machine/Cores.lean ====
section
/-!
DEFINITION. Sys2Proof/Machine/Cores.lean: the operations of the control cores (spec/16): states, restarts, traps and interrupts,
the beat interrupt, performance counters and the tag unit, the local block, bank handover and bank power.
-/
namespace Sys2Proof.Machine
open Sys2Proof

/-! ### Core states (spec/16 R491) -/

def State.coreState (s : State) (c : Nat) : Nat := s.fld (F.coreStatus_STATE c)

/-- The system watchdog counts: frozen in DIP and while CORE4's firmware is being replaced (spec/03 R98). -/
def State.wdtRuns (s : State) : Bool := s.up && s.flag F.globalWdtCtrl_EN && !s.inDip && s.coreState 4 != 4

/-- The watchdog of core `c` counts: frozen in DIP and while the core is LOADING (spec/16 R508). -/
def State.coreWdtRuns (s : State) (c : Nat) : Bool :=
  s.up && s.flag (F.coreWdt_EN c) && !s.inDip && s.coreState c != 4 && s.coreState c != 0

/-- Ticks that a watchdog has counted. (DEDUCED, log entry 22) -/
def State.dogRan (s : State) (d : Dog) (runs : Bool) : Nat := d.ran + if runs then s.time.tick - d.since else 0

/-- Every watchdog keeps what it has counted: some are about to freeze, or go on. (DEDUCED, log entry 22) -/
def State.dogMark (s : State) : State :=
  let s' : State := { s with power := { s.power with dog := ⟨s.dogRan s.power.dog s.wdtRuns, s.time.tick⟩ } }
  s'.each (List.range 8) fun s' c => s'.modCore c fun x => { x with dog := ⟨s.dogRan x.dog (s.coreWdtRuns c), s.time.tick⟩ }

def State.setCoreState (s : State) (c v : Nat) : State := s.dogMark.setF (F.coreStatus_STATE c) v
def State.running (s : State) (c : Nat) : Bool := s.up && s.coreState c == 1

/-- Registers of the core's domain: `CORES_CORE[c]` and `PERF[c]` (spec/03 R96, spec/16 R509). -/
def inCore (c a : Nat) : Bool :=
  (decide (0x200000 + 0x100 * c ≤ a) && decide (a < 0x200100 + 0x100 * c)) ||
  (decide (0x220000 + 0x1000 * c ≤ a) && decide (a < 0x221000 + 0x1000 * c))

/-- The firmware that core `c` runs, by component (spec/17 R518); CORE0 and CORE1 run TIMING. -/
def componentOf (c : Nat) : Nat := if c ≤ 1 then 1 else if c ≤ 4 then c else if c = 5 then 0 else c + 2

/-- A core's program exists: only the user cores may have none (spec/17 R518). -/
def State.hasImage (s : State) (c : Nat) : Bool := decide (c < 6) || s.sec.running.any fun i => i.component.toNat == componentOf c

/-- Core `c` is reset (spec/16 R491, R509): commands that its mailbox left in progress run on, their completions are discarded. -/
def State.coreReset (s : State) (c : Nat) : State :=
  let s := s.regsRestore (inCore c)
  s.modCore c fun x => {
    mbReq := x.mbReq, mbBusy := x.mbBusy, mbTaken := x.mbTaken, mbDrop := x.mbDrop ||| x.mbBusy, cycFrom := s.time.tick,
    dog := ⟨0, s.time.tick⟩ }

/-- The counters of every core start with the main domain (spec/16 R509). -/
def State.coresFrom (s : State) : State := s.each (List.range 8) fun s c => s.modCore c fun x => { x with cycFrom := s.time.tick }

/-- Core `c` starts its firmware, if there is any. -/
def State.coreStart (s : State) (c : Nat) : State :=
  if s.hasImage c then (s.setCoreState c 1).modCore c fun x => { x with pc := Config.entryPc c, dog := ⟨0, s.time.tick⟩ }
  else s.setCoreState c 0

/-- The commands that CORE4 had fetched and not completed complete with HW_FAULT; long operations continue (spec/16 R508). (DEDUCED, log entry 43) -/
def State.failParked (s : State) : State :=
  s.each s.host.parked fun s p => s.endParked p st.hwFault 0 (if p.partly then 4 else 0) p.lower

/-- Core `c` restarts its firmware (spec/03 R96, spec/16 R491, R508). (DEDUCED, log entry 43) -/
def State.coreRestart (s : State) (c : Nat) : State :=
  let s := (s.coreReset c).coreStart c
  if c = 4 then s.failParked else s

/-- A core halts: CORE_HALT, then what the core's role asks (spec/16 R491, R514). (DEDUCED, log entry 43) -/
def State.coreHalt (s : State) (c cause : Nat) : State :=
  let x := s.core c
  let action := if c < 2 then 2 else if c < 6 then 0 else 1
  let s := (s.setCoreState c 3).raise 0x0D01 16
    [(0, 1, c), (1, 1, cause), (2, 1, action), (4, 4, x.trapEpc.toNat), (8, 4, x.trapVal.toNat), (12, 4, s.beat)]
  if action = 0 then s.coreRestart c else s.modCore c fun x => { x with mbDrop := x.mbDrop ||| x.mbBusy }

/-! ### Traps and interrupts (spec/16 R495, R496) -/

/-- TRAP_EPC, TRAP_CAUSE and TRAP_VAL are stored and shown (R515). (DEDUCED, log entry 40) -/
def State.storeTrap (s : State) (c cause : Nat) (val epc : Word) : State :=
  let s := s.modCore c fun x => { x with trapEpc := epc, trapCause := BitVec.ofNat 8 cause, trapVal := val }
  (s.setF (F.coreStatus_CAUSE c) cause).setReg (Reg.coreTrapPc c) epc

/-- A synchronous trap of the instruction at the pc; a second one while a handler runs halts the core. (DEDUCED, log entry 40) -/
def State.trap (s : State) (c cause : Nat) (val : Word) : State :=
  let x := s.core c
  let s := (s.storeTrap c cause val x.pc).perf c 34
  if x.active then s.coreHalt c cause
  else s.modCore c fun x => { x with active := true, pc := x.trapVec }

/-- A trap for which no TRAP_VAL is stated: a free value. (DEDUCED, log entry 40) -/
def State.trapFree (s : State) (c cause : Nat) : State := s.fresh.trap c cause (Config.trapVal s.freeCtr)

/-- An access fault (spec/16 R497). (DEDUCED, log entry 40) -/
def State.accessFault (s : State) (c cause : Nat) (a : Word) : State := (s.perf c 37).trap c cause a

/-- Interrupts of core `c` that are pending and enabled. -/
def State.intDue (s : State) (c : Nat) : BitVec 8 := (s.core c).intPend &&& (s.core c).intEn

/-- The lowest pending enabled interrupt is taken: the pc of the next instruction is saved. -/
def State.takeInt (s : State) (c i : Nat) : State :=
  let pc := (s.core c).pc
  let s := (s.fresh.storeTrap c (0x80 + i) (Config.trapVal s.freeCtr) pc).perf c 33
  s.modCore c fun x => { x with active := true, pc := x.trapVec }

/-- The beat interrupt of core `c` is acknowledged (spec/16 R496). -/
def State.beatAck (s : State) (c : Nat) : State :=
  s.modCore c fun x => { x with beatOpen := false, beatSkipped := 0, intPend := x.intPend &&& 0xFB#8 }

/-- Order 9 of a boundary at core `c` (spec/01 R31, spec/16 R496): the beat interrupt, or a skipped beat. -/
def State.beatInt (s : State) (c : Nat) : State :=
  if s.coreState c ≠ 1 ∧ s.coreState c ≠ 2 then s
  else if (s.core c).beatOpen && (s.core c).intEn.getLsbD 2 then
    let s := s.modCore c fun x => { x with beatSkipped := sat 0x3FFF (x.beatSkipped + 1) }
    ((s.bump (F.coreSkipped_COUNT c)).perf c 35).late 7
  else (s.modCore c fun x => { x with beatOpen := true, beatNumber := s.beat }).raiseInt c 2

/-! ### Performance counters and tags (spec/16 R509 to R512) -/

/-- Cycles of 1.25 ns (two ticks) since the counters were reset. (DESIGN CHOICE, log entry 42) -/
def State.cycles (s : State) (c : Nat) : Nat := (s.time.tick - (s.core c).cycFrom) / 2

/-- SLEEP_CYCLES of core `c` (spec/16 R510). (DESIGN CHOICE, log entry 42) -/
def State.sleepCycles (s : State) (c : Nat) : Nat :=
  (s.core c).slept + (match (s.core c).sleepAt with | some n => s.cycles c - n | none => 0)

/-- SLOTS of core `c` (spec/16 R511). -/
def State.issueSlots (s : State) (c : Nat) : Nat := s.cycles c - s.sleepCycles c

/-- Slots of core `c` that no instruction has taken and no event has been charged with. -/
def State.openSlots (s : State) (c : Nat) : Nat := s.issueSlots c - (s.core c).slotsUsed

/-- A free part of `n` slots, for event `e`. -/
def State.cut (s : State) (e n : Nat) : Nat := (Config.perfCycles s.freeCtr e).toNat % (n + 1)

/-- `n` slots in which no instruction retires, by event (spec/16 R511): SQUASHED, FE_STARVED and BE_STARVED together are all of them;
events 7 to 9 are FE_STARVED's, events 10 to 14 BE_STARVED's. (DESIGN CHOICE, log entry 42) -/
def State.slotParts (s : State) (n : Nat) : List (Nat × Nat) :=
  let sq := s.cut 4 n
  let fe := s.cut 5 (n - sq)
  let be := n - sq - fe
  let f7 := s.cut 7 fe
  let f8 := s.cut 8 (fe - f7)
  let b10 := s.cut 10 be
  let b11 := s.cut 11 (be - b10)
  let b12 := s.cut 12 (be - b10 - b11)
  let b13 := s.cut 13 (be - b10 - b11 - b12)
  [(4, sq), (5, fe), (6, be), (7, f7), (8, f8), (9, fe - f7 - f8), (10, b10), (11, b11), (12, b12), (13, b13),
    (14, be - b10 - b11 - b12 - b13)]

/-- The open slots of core `c` but for `keep` are charged to the events of R511. (DESIGN CHOICE, log entry 42) -/
def State.chargeSlots (s : State) (c keep : Nat) : State :=
  let n := s.openSlots c - keep
  if n = 0 then s
  else
    let s' := s.each (s.slotParts n) fun s p => s.perf c p.1 p.2
    (s'.modCore c fun x => { x with slotsUsed := x.slotsUsed + n }).fresh

/-- An instruction of core `c` takes an issue slot: INSTRET (`e` = 3) or SQUASHED (`e` = 4); the slots before it are charged. (DESIGN CHOICE, log entry 42) -/
def State.useSlot (s : State) (c e : Nat) : State :=
  ((s.chargeSlots c 1).perf c e).modCore c fun x => { x with slotsUsed := x.slotsUsed + 1 }

/-- An issue slot is open for core `c`, at the latest a cycle on, where that still lies in the beat (spec/16 R511). (DESIGN CHOICE, log entry 42) -/
def State.slotFor (s : State) (c : Nat) : State := if s.openSlots c = 0 then s.reachTick (s.time.tick + 2) else s

/-- Counter `e` of core `c` (spec/16 R509 to R511), once the open slots are charged. (DESIGN CHOICE, log entry 42) -/
def State.perfRead (s : State) (c e : Nat) : Nat :=
  if e = 0 then s.cycles c % 2 ^ 48
  else if e = 1 then s.sleepCycles c % 2 ^ 48
  else if e = 2 then s.issueSlots c % 2 ^ 48
  else Tab.get (s.core c).cnt 0 e

/-- A counter that counts time has wrapped since its sticky bit was last set (spec/16 R509); a counter of events wraps where it counts. -/
def State.timeWrap (s : State) (c e : Nat) : State :=
  let n := (if e = 0 then s.cycles c else if e = 1 then s.sleepCycles c else s.issueSlots c) / 2 ^ 48
  if 2 < e ∨ n ≤ Tab.get (s.core c).wraps 0 e then s
  else
    let s := s.modCore c fun x => { x with wraps := Tab.put x.wraps 0 e n }
    (s.setReg (Reg.perfWrapLo c) (s.reg (Reg.perfWrapLo c) ||| BitVec.ofNat 32 (2 ^ e))).raiseInt c 6

/-- Core `c` sleeps no longer: the cycles it slept count (spec/16 R510). -/
def State.awake (s : State) (c : Nat) : State :=
  let n := s.sleepCycles c
  s.modCore c fun x => { x with sleep := none, sleepAt := none, slept := n }

/-- The next countdown of the tag unit: the low K + 1 bits of the LFSR, taken again while they are 0. -/
def tagNext (c k : Nat) : Nat → Nat → Nat × Nat
  | 0, n => (n, 1)
  | f + 1, n =>
    let v := (Config.lfsr c n).toNat % 2 ^ (k + 1)
    if v = 0 then tagNext c k f (n + 1) else (n + 1, v)

/-- K in force; 0 is off. -/
def State.tagK (s : State) (c : Nat) : Nat :=
  let k := s.fld (F.perfTagCfg_K c)
  if k = 0 then 0 else max 4 (min 20 k)

/-- The countdown is loaded, unless tagging is off. -/
def State.tagLoad (s : State) (c : Nat) : State :=
  if s.tagK c = 0 then s
  else
    let r := tagNext c (s.tagK c) 25 (s.core c).lfsr
    s.modCore c fun x => { x with lfsr := r.1, countdown := r.2 }

/-- The countdown has reached 0: the next instruction to enter F is tagged, unless a tag is in flight or the buffer is full; the countdown
is loaded again. (DESIGN CHOICE, log entry 42) -/
def State.tagExpire (s : State) (c : Nat) : State :=
  let x := s.core c
  let s := if x.tagDue || x.tagged.isSome || s.fld (F.perfTagStatus_COUNT c) == 64 then s.perf c 39
    else (s.modCore c fun x => { x with tagDue := true }).perf c 38
  s.tagLoad c

/-- An instruction of core `c` enters F (spec/16 R512): it is tagged if a countdown has ended before it, and it counts in the countdown. (DESIGN CHOICE, log entry 42) -/
def State.tagEnter (s : State) (c : Nat) : State :=
  let s := if s.tagK c = 0 then s
    else (if (s.core c).countdown = 0 then s.tagExpire c else s).modCore c fun x => { x with countdown := x.countdown - 1 }
  if (s.core c).tagDue then
    s.modCore c fun x => { x with tagDue := false, tagged := some (s.cycles c % 2 ^ 32, s.time.beatCount.toNat) }
  else s

/-- The tagged instruction leaves the pipeline: its record goes into the buffer. -/
def State.tagDone (s : State) (c : Nat) (pc insn : Word) (outcome : Nat) (daddr : Word) : State :=
  match (s.core c).tagged with
  | none => s
  | some (cyc, beat) =>
    let n := s.fld (F.perfTagStatus_COUNT c)
    let i := (s.fld (F.perfTagStatus_OLDEST c) + n) % 64
    let v := (Config.tagCycles s.freeCtr).toNat
    let k := v / 2 ^ 32 % 9
    let ws := [pc, insn, BitVec.ofNat 32 cyc, BitVec.ofNat 32 v, BitVec.ofNat 32 (outcome + 256 * (if k = 0 then 0 else k + 6)), daddr,
      BitVec.ofNat 32 beat, 0#32]
    let s := s.fresh.modCore c fun x => { x with tagged := none }
    let s := s.each (List.range 8) fun s j => s.setReg (Reg.perfTagRec c (8 * i + j)) (ws.getD j 0)
    s.setF (F.perfTagStatus_COUNT c) (n + 1)

/-- The oldest record is released. -/
def State.tagPop (s : State) (c : Nat) : State :=
  let n := s.fld (F.perfTagStatus_COUNT c)
  if n = 0 then s
  else (s.setF (F.perfTagStatus_COUNT c) (n - 1)).setF (F.perfTagStatus_OLDEST c) ((s.fld (F.perfTagStatus_OLDEST c) + 1) % 64)

/-- The instruction at the pc is discarded, by a trap (`outcome` 2) or an interrupt (3): it has taken an issue slot (spec/16 R511, R512). -/
def State.squash (s : State) (c : Nat) (insn daddr : Word) (outcome : Nat) : State :=
  let pc := (s.core c).pc
  (s.useSlot c 4).tagDone c pc insn outcome daddr

/-- A running core gives an instruction its turn: its issue slot is open, and it enters F. Nothing happens where the beat ends first. -/
def State.issue (s : State) (c : Nat) (f : State → State) : State :=
  if !s.running c then s
  else
    let t := s.slotFor c
    if t.openSlots c = 0 then s else f (t.tagEnter c)

/-! ### The local block (spec/16 R494, R498, R500) -/

/-- A register of the local block, by word offset. -/
def CoreSt.localWord (x : CoreSt) (w : Nat) : Word :=
  if w = 0x00 then x.trapVec
  else if w = 0x04 then x.trapEpc
  else if w = 0x08 then BitVec.ofNat 32 (x.trapCause.toNat + 2 ^ 31 * bit x.active)
  else if w = 0x0C then x.trapVal
  else if w = 0x10 then BitVec.ofNat 32 x.intEn.toNat
  else if w = 0x14 then BitVec.ofNat 32 x.intPend.toNat
  else if w = 0x18 then BitVec.ofNat 32 (x.beatNumber + 2 ^ 17 * x.beatSkipped)
  else if w = 0x24 then BitVec.ofNat 32 (x.mbBusy.toNat + 256 * x.mbDone.toNat)
  else if w = 0x28 then BitVec.ofNat 32 (x.fifoN + 256 * x.fifoHead)
  else 0

/-- A byte of the local block; the mailbox and the event FIFO are those of the user cores. -/
def State.localByte (s : State) (c o : Nat) : Byte :=
  let x := s.core c
  if o < 0x1000 then BitVec.ofNat 8 ((x.localWord (o / 4 * 4)).toNat / 256 ^ (o % 4))
  else if c < 6 then 0
  else if o < 0x1400 then BitVec.ofNat 8 ((Tab.get x.mbReq 0 ((o - 0x1000) / 128)).toNat / 256 ^ (o % 128))
  else if o < 0x1600 then BitVec.ofNat 8 ((Tab.get x.mbCpl 0 ((o - 0x1400) / 64)).toNat / 256 ^ (o % 64))
  else if o < 0x1A00 then BitVec.ofNat 8 ((Tab.get x.fifo 0 ((o - 0x1600) / 64)).toNat / 256 ^ (o % 64))
  else 0

/-- Request slot `i` is handed to CORE4 (spec/16 R498). -/
def State.mbPost (s : State) (c i : Nat) : State :=
  if (s.core c).mbBusy.getLsbD i then s
  else (s.modCore c fun x => { x with mbBusy := x.mbBusy ||| BitVec.ofNat 8 (2 ^ i) }).perf c 29

/-- The oldest entry of the event FIFO is released (spec/16 R500). -/
def State.evtRelease (s : State) (c : Nat) : State :=
  if (s.core c).fifoN = 0 then s
  else s.modCore c fun x => { x with fifoN := x.fifoN - 1, fifoHead := (x.fifoHead + 1) % 16 }

/-- The core's watchdog restarts (spec/16 R508). -/
def State.coreKick (s : State) (c : Nat) : State := s.modCore c fun x => { x with dog := ⟨0, s.time.tick⟩ }

/-- A write to a register of the local block: the byte lanes `m` of word `w` take those of `v`. -/
def State.localWrite (s : State) (c w : Nat) (m v : Word) : State :=
  let set := fun (old : Word) => (old &&& ~~~m) ||| (v &&& m)
  let v := v &&& m
  if w = 0x00 then s.modCore c fun x => { x with trapVec := set x.trapVec &&& 0xFFFFFFFE#32 }
  else if w = 0x04 then s.modCore c fun x => { x with trapEpc := set x.trapEpc }
  else if w = 0x10 then s.modCore c fun x => { x with intEn := (set (BitVec.ofNat 32 x.intEn.toNat)).setWidth 8 }
  else if w = 0x14 then s.modCore c fun x => { x with intPend := x.intPend &&& ~~~(v.setWidth 8 &&& 0xFB#8) }
  else if w = 0x18 then if v.getLsbD 31 then s.beatAck c else s
  else if w = 0x1C then s.coreKick c
  else if w = 0x20 then if c < 6 ∨ m.toNat % 256 = 0 then s else s.mbPost c (v.toNat % 8)
  else if w = 0x24 then s.modCore c fun x => { x with mbDone := x.mbDone &&& ~~~((v >>> 8).setWidth 8) }
  else if w = 0x28 then if c ≥ 6 ∧ v.getLsbD 31 then s.evtRelease c else s
  else s

/-- A byte written into a mailbox request slot. -/
def State.mbByte (s : State) (c o : Nat) (b : Byte) : State :=
  let i := (o - 0x1000) / 128
  let k := 8 * (o % 128)
  s.modCore c fun x =>
    let r := Tab.get x.mbReq 0 i
    { x with mbReq := Tab.put x.mbReq 0 i ((r &&& ~~~(BitVec.ofNat 1024 (255 * 2 ^ k))) ||| BitVec.ofNat 1024 (b.toNat * 2 ^ k)) }

/-! ### Banks (spec/16 R501 to R504) -/

/-- The four banks of quad `q`. -/
def quadBanks (q : Nat) : List Nat := [4 * q, 4 * q + 1, 4 * q + 2, 4 * q + 3]

/-- ILV_ACTIVE follows ILV, the owners and the handovers in progress; a handover of the whole quad keeps it. -/
def State.showIlv (s : State) (q : Nat) : State :=
  if Tab.get s.cores.quadMove false q then s
  else
    let bs := quadBanks q
    let same := bs.all fun b => s.bankOwner b == s.bankOwner (4 * q) && !s.flag (F.bankCtrl_PENDING b)
    s.setF (F.quad_ILV_ACTIVE q) (bit (s.flag (F.quad_ILV q) && same))

/-- Writer `src` may hand bank `b` over to owner `n`. -/
def State.mayHand (s : State) (src : WrSrc) (b n : Nat) : Bool :=
  match src with
  | .host =>
    let ok := fun o => o == 6 || o == 7 || o == 8 || o == 15
    !s.flag (F.bankCtrl_LOCK b) && ok (s.bankOwner b) && ok n
  | .core _ => true

def State.memErr (s : State) : State := s.setF F.membankStatus_CFG_ERR 1

/-- A write of `MEMBANK_BANK[b]_CTRL` (spec/16 R501, R504): a handover, then a change of power; while a handover is pending, neither. (DEDUCED, log entry 43) -/
def State.bankCtrlWrite (s : State) (src : WrSrc) (b : Nat) (v : Word) : State :=
  let q := b / 4
  let n := ownerCode ((F.bankCtrl_NEXT b).of v)
  if s.flag (F.bankCtrl_PENDING b) || (n != s.bankOwner b && (!s.mayHand src b n || s.flag (F.quad_ILV_ACTIVE q))) then s.memErr
  else
    let s := if n = s.bankOwner b then s else ((s.setF (F.bankCtrl_NEXT b) n).setF (F.bankCtrl_PENDING b) 1).showIlv q
    let p := (F.bankCtrl_POWER b).of v
    if p = s.fld (F.bankCtrl_POWER b) then s
    else if s.flag (F.bankCtrl_PENDING b) then s.memErr
    else s.setF (F.bankCtrl_POWER b) p

/-- A write of `MEMBANK_QUAD[q]`: ILV, and a handover of the whole quad (spec/16 R502); NEXT 0xF, which reads back when idle, asks for
none. (DEDUCED, log entry 43) -/
def State.quadWrite (s : State) (src : WrSrc) (q : Nat) (v : Word) : State :=
  let n := ownerCode ((F.quad_NEXT q).of v)
  let bs := quadBanks q
  let asks := n != 15 && !(bs.all fun b => s.bankOwner b == n && !s.flag (F.bankCtrl_PENDING b))
  if asks && bs.any fun b => s.flag (F.bankCtrl_PENDING b) || !s.mayHand src b n then s.memErr
  else
  let s := (s.setF (F.quad_ILV q) ((F.quad_ILV q).of v)).showIlv q
  if !asks then s
  else
    let s := { s with cores := { s.cores with quadMove := Tab.put s.cores.quadMove false q true } }
    let s := s.setF (F.quad_NEXT q) n
    s.each bs fun s b => (s.setF (F.bankCtrl_NEXT b) n).setF (F.bankCtrl_PENDING b) 1

/-- The handover of bank `b` is complete. -/
def State.handed (s : State) (b : Nat) : State :=
  if !s.flag (F.bankCtrl_PENDING b) then s
  else
    let q := b / 4
    let s := (s.setF (F.bankCtrl_OWNER b) (s.fld (F.bankCtrl_NEXT b))).setF (F.bankCtrl_PENDING b) 0
    let s := if Tab.get s.cores.quadMove false q && (quadBanks q).all fun b => !s.flag (F.bankCtrl_PENDING b) then
        { s with cores := { s.cores with quadMove := Tab.put s.cores.quadMove false q false } }.setF (F.quad_NEXT q) 15
      else s
    s.showIlv q

/-- A bank reaches the power state asked for: off loses its contents, and on from off finds zeros (spec/16 R504). -/
def State.powered (s : State) (b : Nat) : State :=
  let p := min 2 (s.fld (F.bankCtrl_POWER b))
  let s := if p = 0 then { s with cores := { s.cores with
      mem := s.cores.mem.filter fun e => !(decide (131072 * b ≤ e.1) && decide (e.1 < 131072 * (b + 1))) } }
    else s
  s.setF (F.bankCtrl_POWER_STATE b) p

/-- An uncorrectable error at byte `o` of bank `b` in an access of owner `m` (spec/16 R506). -/
def State.uncorrected (s : State) (b m o : Nat) : State :=
  let s := s.bump (F.bankEcc_UNCORR b)
  s.raise 0x0D03 16 [(0, 1, b), (1, 1, m), (4, 4, o), (8, 4, s.fld (F.bankEcc_UNCORR b))]

/-- What the check bits report of an access of owner `m` to `n` bytes at `a` of the bank window, each error in the bank of its own word (spec/16
R506); and whether one is uncorrectable. (DEDUCED, log entry 41) -/
def State.eccBank (s : State) (m a n : Nat) (es : List EccErr) : State × Bool :=
  let es := es.filter fun e => decide (4 * e.word < a % 4 + n) && (s.bankAt (a / 4 * 4 + 4 * e.word)).isSome
  (s.each es fun s e =>
    match s.bankAt (a / 4 * 4 + 4 * e.word) with
    | some p => if e.bad then s.uncorrected p.1 m p.2 else (s.bump (F.bankEcc_CORR p.1)).when (decide (m < 8)) fun s => s.perf m 36
    | none => s, es.any (·.bad))

/-! ### Watchdogs (spec/03 R98, spec/16 R508) -/

def wdtMs (v : Nat) : Nat := max 1 (min 60000 v)

/-- A core watchdog of `EN` and `TIMEOUT_MS` is shorter than a system watchdog, where both are enabled. -/
def wdtNested (cEn : Bool) (cMs : Nat) (sEn : Bool) (sMs : Nat) : Bool := !cEn || !sEn || decide (wdtMs cMs < wdtMs sMs)

def State.coreWdtWrite (s : State) (c : Nat) (v : Word) : State :=
  if wdtNested ((F.coreWdt_EN c).of v != 0) ((F.coreWdt_TIMEOUT_MS c).of v) (s.flag F.globalWdtCtrl_EN) (s.fld F.globalWdtCtrl_TIMEOUT_MS) then
    let s := if s.flag (F.coreWdt_EN c) then s else s.coreKick c
    s.putRw (Reg.coreWdt c) v
  else s.memErr

end Sys2Proof.Machine
end

