-- ==== Sys2Proof/Machine/CoreRows.lean ====
section
/-!
DEFINITION. Sys2Proof/Machine/CoreRows.lean: commands of the control cores and the memory banks (spec/16), but for the RISC-V
instructions, which stand in Machine/Riscv.lean.
-/
namespace Sys2Proof.Machine
open Sys2Proof

/-! ### The local block (spec/16 R494, R498, R500, R508) -/

/-- MB_POST: bits 31:3 of the word are reserved. -/
def execMbPost (core : Fin 8) (value : BitVec 32) (s : State) : Host.Outcome State Fault Refusal :=
  .next (if s.up && decide (6 ≤ core.val) then s.mbPost core.val (value.toNat % 8) else s)

/-- BEAT_ACK. -/
def execBeatAck (core : Fin 8) (value : BitVec 32) (s : State) : Host.Outcome State Fault Refusal :=
  .next (if s.up && value.getLsbD 31 then s.beatAck core.val else s)

/-- CORE_WDT_KICK: any value. -/
def execCoreWdtKick (core : Fin 8) (_value : BitVec 32) (s : State) : Host.Outcome State Fault Refusal :=
  .next (if s.up then s.coreKick core.val else s)

/-- EVT_RELEASE. -/
def execEvtRelease (core : Fin 8) (value : BitVec 32) (s : State) : Host.Outcome State Fault Refusal :=
  .next (if s.up && value.getLsbD 31 then s.evtRelease core.val else s)

/-! ### Watchdogs (spec/16 R508) -/

/-- The watchdog of core `c` runs and has counted `k` quarters of its timeout (spec/16 R508). -/
def State.coreWdtAt (s : State) (c k : Nat) : Bool :=
  s.coreWdtRuns c && decide (400000 * k * wdtMs (s.fld (F.coreWdt_TIMEOUT_MS c)) ≤ s.dogRan (s.core c).dog true)

/-- CORE_WDT_WARN: at 75 % of the timeout. -/
def execCoreWdtWarn (core : Fin 8) (s : State) : Host.Outcome State Fault Refusal :=
  .next (if s.coreWdtAt core.val 3 then s.raiseInt core.val 5 else s)

/-- CORE_WDT: CORE0 and CORE1 are held in reset, the others restart. -/
def execCoreWdt (core : Fin 8) (s : State) : Host.Outcome State Fault Refusal :=
  let c := core.val
  .next (if s.coreWdtAt c 4 then
      let s := s.raise 0x0D02 16 [(0, 1, c), (4, 4, wdtMs (s.fld (F.coreWdt_TIMEOUT_MS c))), (8, 4, s.beat)]
      if c < 2 then ((s.setCoreState c 0).awake c).modCore c fun x => { x with active := false } else s.coreRestart c
    else s)

/-! ### Banks (spec/16 R501 to R506, R513) -/

/-- BANK_HANDOVER. -/
def execBankHandover (src : WrSrc) (bank : Fin 32) (value : BitVec 32) (s : State) : Host.Outcome State Fault Refusal :=
  .next (if s.up then s.bankCtrlWrite src bank.val value else s)

/-- BANK_POWER. -/
def execBankPower (src : WrSrc) (bank : Fin 32) (value : BitVec 32) (s : State) : Host.Outcome State Fault Refusal :=
  .next (if s.up then s.bankCtrlWrite src bank.val value else s)

/-- QUAD_HANDOVER. -/
def execQuadHandover (src : WrSrc) (quad : Fin 8) (value : BitVec 32) (s : State) : Host.Outcome State Fault Refusal :=
  .next (if s.up then s.quadWrite src quad.val value else s)

/-- BANK_HANDOVER_DONE. -/
def execBankHandoverDone (bank : Fin 32) (s : State) : Host.Outcome State Fault Refusal :=
  .next (if s.up then s.handed bank.val else s)

/-- BANK_POWER_REACHED. -/
def execBankPowerReached (bank : Fin 32) (s : State) : Host.Outcome State Fault Refusal :=
  .next (if s.up then s.powered bank.val else s)

/-- MEM_COPY (spec/16 R513): `data` are the bytes read from host memory (DIR 0), `ecc` the errors in the words read from banks (DIR 1). (DEDUCED, log entry 37) -/
def execMemCopy (c : Cmd) (data : List (BitVec 8)) (ecc : List EccErr) (s : State) : Host.Outcome State Fault Refusal :=
  let a := c.fld 0 4
  let dir := c.fld 4 1
  let len := c.fld 8 4
  let h := c.fld 16 8
  .next (s.start c 0x0D01 (c.ok 24 [(5, 3), (12, 4)] && decide (a % 4 = 0) && decide (dir < 2) && decide (4 ≤ len) &&
      decide (len ≤ 131072) && decide (len % 4 = 0) && decide (0x10000000 ≤ a) && decide (a + len ≤ 0x10400000) && s.bufOk c.src h len) fun s =>
    if !s.rangeOpen 8 a len then s.complete c 0x0D01 st.badState
    else if dir = 0 then
      let v := match c.src with
        | .host => bytesNat (data.take len)
        | .mbox _ _ => s.memRead h len
      (s.memWrite a len v).complete c 0x0D01 st.ok
    else
      let r := s.eccBank 8 a len ecc
      if r.2 then r.1.complete c 0x0D01 st.hwFault
      else (r.1.bufWrite c.src h len (r.1.memRead a len)).complete c 0x0D01 st.ok)

/-! ### Counters and tags (spec/16 R509, R512) -/

/-- PERF_WRAP. -/
def execPerfWrap (core : Fin 8) (e : Fin 40) (s : State) : Host.Outcome State Fault Refusal :=
  .next (if s.up then s.timeWrap core.val e.val else s)

/-- TAG_COUNTDOWN: the countdown of a running core stands at 0. -/
def execTagCountdown (core : Fin 8) (s : State) : Host.Outcome State Fault Refusal :=
  let c := core.val
  .next (if s.running c && s.tagK c != 0 && (s.core c).countdown == 0 then s.tagExpire c else s)

/-- TAG_POP. -/
def execTagPop (core : Fin 8) (s : State) : Host.Outcome State Fault Refusal := .next (if s.up then s.tagPop core.val else s)

end Sys2Proof.Machine
end

