-- ==== Sys2Proof/Machine/Ptp.lean ====
section
/-!
DEFINITION. Sys2Proof/Machine/Ptp.lean: the fields of a SESSION_SET payload (spec/10 R323), PTP messages as the engine reads them from
received frames (R325) and writes them into the frames that it sends (R322, R328), KL report frames (R332).
-/
namespace Sys2Proof.Machine
open Sys2Proof

/-! ### Fields of a SESSION_SET payload (spec/10 R323) -/

def ss.num (c : BitVec 768) : Nat := byteField c 0 2
def ss.port (c : BitVec 768) : Nat := byteField c 2 1
def ss.role (c : BitVec 768) : Nat := byteField c 3 1
def ss.delay (c : BitVec 768) : Nat := byteField c 4 1
def ss.flags (c : BitVec 768) : Nat := byteField c 5 1
def ss.transport (c : BitVec 768) : Nat := byteField c 6 1
def ss.domain (c : BitVec 768) : Nat := byteField c 7 1
def ss.sdo (c : BitVec 768) : Nat := byteField c 8 2
def ss.counter (c : BitVec 768) : Nat := byteField c 10 1 % 32
def ss.missMax (c : BitVec 768) : Nat := max 1 (byteField c 11 1)
def ss.logSync (c : BitVec 768) : Int := sgn 8 (byteField c 12 1)
def ss.logDelay (c : BitVec 768) : Int := sgn 8 (byteField c 13 1)
def ss.klLog2 (c : BitVec 768) : Nat := byteField c 14 1
def ss.slot (c : BitVec 768) : Nat := byteField c 16 2
def ss.localPn (c : BitVec 768) : Nat := byteField c 18 2
def ss.asym (c : BitVec 768) : Int := sgn 64 (byteField c 32 8)
def ss.vlan (c : BitVec 768) : Nat := byteField c 80 4
def ss.keyId (c : BitVec 768) : Nat := byteField c 84 1
def ss.twoStep (c : BitVec 768) : Bool := bitAt (ss.flags c) 0
def ss.auth (c : BitVec 768) : Bool := bitAt (ss.flags c) 1
def ss.unicast (c : BitVec 768) : Bool := bitAt (ss.flags c) 2
def ss.gptp (c : BitVec 768) : Bool := bitAt (ss.flags c) 3
def ss.trailer (c : BitVec 768) : Bool := ss.transport c == 2 && bitAt (ss.flags c) 5

/-- `n` bytes of the payload from `off` on, a byte string in wire order (spec/00 R21). -/
def ss.bytes (c : BitVec 768) (off n : Nat) : List Byte := natBytes n (byteField c off n)

/-- The partner's portIdentity. -/
def ss.remotePid (c : BitVec 768) : List Byte := ss.bytes c 20 10

/-- The session's own portIdentity. (PRESUMED, log entry 63) -/
def ss.localPid (c : BitVec 768) : List Byte := natBytes 8 Config.clockId.toNat ++ beBytes 2 (ss.localPn c)

/-! ### PTP messages (spec/10 R325 to R328; the layout is that of IEEE 1588-2019) -/

/-- A PTP message as the engine reads it: who sent it, the portIdentity it is addressed to, its time field and its correctionField in
units of 2^-16 ns, and whether it holds the whole of its layout. (PRESUMED, log entry 63) -/
structure PtpMsg where
  mtype : Nat
  transport : Nat
  domain : Nat
  sdoId : Nat
  source : List Byte
  target : Option (List Byte)
  seq : BitVec 16
  corr : Int
  twoStep : Bool
  time : Stamp
  stamp : Stamp
  whole : Bool
  deriving DecidableEq, Repr

/-- Length of a message of the engine, by messageType. (PRESUMED, log entry 63) -/
def ptpLen (mtype : Nat) : Nat := if mtype = 0 ∨ mtype = 1 ∨ mtype = 8 then 44 else 54

/-- Where a message of this type names the portIdentity it is addressed to. (PRESUMED, log entry 63) -/
def ptpTarget (mtype : Nat) : Option Nat :=
  if mtype = 3 ∨ mtype = 9 ∨ mtype = 10 then some 44 else if mtype = 12 ∨ mtype = 13 then some 34 else none

/-- The PTP message whose header stands at `o` in frame `l`. (PRESUMED, log entry 63) -/
def ptpMsg (l : List Byte) (o transport : Nat) (stamp : Stamp) : PtpMsg :=
  let t := fb l o % 16
  { mtype := t, transport := transport, domain := fb l (o + 4), sdoId := fb l o / 16 * 256 + fb l (o + 5),
    source := (l.drop (o + 20)).take 10, target := (ptpTarget t).map fun k => (l.drop (o + k)).take 10,
    seq := BitVec.ofNat 16 (fb2 l (o + 30)), corr := sgn 64 (fbN l (o + 8) 8), twoStep := bitAt (fb l (o + 6)) 1,
    time := fbN l (o + 34) 6 * stampSec + fb4 l (o + 40) * 65536, stamp := stamp, whole := decide (o + ptpLen t ≤ bodyLen l) }

/-- Place and transport of the PTP header among the headers that the parser has met (kind, offset): 0 over Ethernet, 1 over IPv4, 2 over
IPv6 (spec/10 R323, R325). -/
def ptpPlace (h : List (Nat × Nat)) : Option (Nat × Nat) :=
  (h.find? (·.1 == 12)).map fun p => (p.2,
    if !h.any (·.1 == 7) then 0 else match h.find? fun x => x.1 == 4 || x.1 == 5 with
      | some x => x.1 - 3
      | none => 0)

/-- A time in units of 2^-16 ns as a PTP timestamp, whose fraction below 1 ns it does not hold. -/
def ptpTime (v : Int) : List Byte :=
  let t := (v % ((2 ^ 48 * stampSec : Nat) : Int)).toNat
  beBytes 6 (t / stampSec) ++ beBytes 4 (t % stampSec / 65536)

/-- That fraction. -/
def ptpFrac (v : Int) : Int := v % 65536

/-- A message of a session, its source the session's own portIdentity (spec/10 R323, R328). (PRESUMED, log entry 63) -/
def ptpBody (c : BitVec 768) (mtype : Nat) (q : BitVec 16) (time corr : Int) (who : List Byte) : List Byte :=
  let two := ss.twoStep c && (mtype == 0 || mtype == 3)
  let ctl := if mtype = 0 then 0 else if mtype = 1 then 1 else if mtype = 8 then 2 else if mtype = 9 then 3 else 5
  let log := if mtype = 0 ∨ mtype = 8 then twos 8 (ss.logSync c) else if mtype = 9 ∧ !ss.unicast c then twos 8 (ss.logDelay c) else 0x7F
  let l := beBytes 1 (ss.sdo c / 256 % 16 * 16 + mtype) ++ beBytes 1 0x12 ++ beBytes 2 (ptpLen mtype) ++ beBytes 1 (ss.domain c) ++
    beBytes 1 (ss.sdo c % 256) ++ beBytes 2 (512 * bit two + 1024 * bit (ss.unicast c)) ++ beBytes 8 (twos 64 corr) ++ beBytes 4 0 ++
    ss.localPid c ++ beBytes 2 q.toNat ++ beBytes 1 ctl ++ beBytes 1 log ++ ptpTime time ++ who
  l ++ List.replicate (ptpLen mtype - l.length) 0

/-- The sum of 16-bit words, with the carries added back. -/
def onesSum (l : List Byte) : Nat :=
  let s := ((List.range ((l.length + 1) / 2)).map fun i => fb2 l (2 * i)).foldl (· + ·) 0
  let s := s % 65536 + s / 65536
  s % 65536 + s / 65536

/-- Place of the PTP header in a session's frames. -/
def ptpOff (c : BitVec 768) : Nat :=
  14 + (if bitAt (ss.vlan c) 16 then 4 else 0) + (if ss.transport c = 1 then 28 else if ss.transport c = 2 then 48 else 0)

/-- The frame of a message of a session, without its FCS: addresses, tag, IP and UDP as the session has them (spec/10 R323; spec/05 R179),
with two trailing bytes where TRAILER asks for them (R328). `tick` tells the datagrams apart. (PRESUMED, log entry 63) -/
def State.ptpFrame (s : State) (c : BitVec 768) (mtype : Nat) (body : List Byte) : List Byte :=
  let body := if ss.trailer c then body ++ [0, 0] else body
  let port := if mtype < 4 then 319 else 320
  let len := body.length + 8
  let udp (sum : Nat) : List Byte := beBytes 2 port ++ beBytes 2 port ++ beBytes 2 len ++ beBytes 2 sum ++ body
  let src4 := ss.bytes c 64 4 ++ ss.bytes c 48 4
  let ip4 (sum : Nat) : List Byte := beBytes 1 0x45 ++ beBytes 1 Config.ptpTos.toNat ++ beBytes 2 (len + 20) ++
    beBytes 2 (Config.ptpIpId s.time.tick).toNat ++ beBytes 2 Config.ptpIpFrag.toNat ++ beBytes 1 Config.ptpTtl.toNat ++ beBytes 1 17 ++
    beBytes 2 sum ++ src4
  let src6 := ss.bytes c 64 16 ++ ss.bytes c 48 16
  let sum6 := 65535 - onesSum (src6 ++ beBytes 4 len ++ beBytes 4 17 ++ udp 0)
  let l := ss.bytes c 40 6 ++ beBytes 6 (s.station (ss.port c)) ++
    (if bitAt (ss.vlan c) 16 then beBytes 2 0x8100 ++ beBytes 2 (ss.vlan c % 65536) else []) ++
    (if ss.transport c = 1 then beBytes 2 0x0800 ++ ip4 (65535 - onesSum (ip4 0)) ++ udp 0
    else if ss.transport c = 2 then beBytes 2 0x86DD ++ beBytes 4 (6 * 2 ^ 28 + Config.ptpTos.toNat * 2 ^ 20 + Config.ptpFlow.toNat) ++
      beBytes 2 len ++ beBytes 1 17 ++ beBytes 1 Config.ptpTtl.toNat ++ src6 ++ udp (if sum6 = 0 then 65535 else sum6)
    else beBytes 2 0x88F7 ++ body)
  l ++ List.replicate (60 - l.length) 0

/-- A message takes a time and a correctionField as it leaves; the trailing bytes keep the UDP checksum right (spec/10 R328). -/
def ptpWrite (c : BitVec 768) (l : List Byte) (off mtype : Nat) (time corr : Int) : List Byte :=
  let new := putBytes (putBytes l (off + 8) (beBytes 8 (twos 64 corr))) (off + 34) (ptpTime time)
  if !ss.trailer c then new
  else
    let sum (x : List Byte) := onesSum ((x.drop off).take (ptpLen mtype))
    putBytes new (off + ptpLen mtype) (beBytes 2 ((sum l + 65535 - sum new % 65535) % 65535))

/-! ### KL report frames (spec/10 R332) -/

/-- A KL report frame without its FCS. -/
def State.klReport (s : State) (c : BitVec 768) (window : BitVec 16) (count : Nat) (d : Int) (r : Stamp) : List Byte :=
  let head := beBytes 6 0x0180C200000E ++ beBytes 6 (s.station (ss.port c)) ++ beBytes 2 0x88B5
  let body := packLE 512 ([(14, 1, 1), (15, 1, 1), (16, 2, window.toNat), (18, 1, ss.klLog2 c), (20, 4, count),
    (24, 8, twos 64 d)] ++ Stamp.fields r 32)
  head ++ (natBytes 60 body.toNat).drop 14

/-- A frame with the destination address and EtherType of a KL report frame. -/
def isKlReport (l : List Byte) : Bool := fbN l 0 6 == 0x0180C200000E && fb2 l 12 == 0x88B5

/-- What a KL report frame carries; none where it is not whole, or TYPE or VERSION is another. -/
def klReportOf (l : List Byte) : Option KlReport :=
  let num (o n : Nat) : Nat := bytesNat ((l.drop o).take n)
  if bodyLen l < 60 ∨ fb l 14 ≠ 1 ∨ fb l 15 ≠ 1 then none
  else some {
    window := BitVec.ofNat 16 (num 16 2), log2 := BitVec.ofNat 8 (num 18 1), count := BitVec.ofNat 32 (num 20 4),
    meanD := BitVec.ofNat 64 (num 24 8), meanR := stampAt (BitVec.ofNat 352 (bytesNat (l.take 44))) 32 }

end Sys2Proof.Machine
end

