-- ==== Sys2Proof/Machine/Servo.lean ====
section
/-!
DEFINITION. Sys2Proof/Machine/Servo.lean: partner sessions and servo slots (spec/10): the checks of a session, its states and exchanges, the asymmetry of its link (spec/11 R368); the states of a slot, its filter, its update, its loop, switches between
partners, and the per-beat service of slots.
-/
namespace Sys2Proof.Machine
open Sys2Proof

/-- An interval of 2^L seconds in 1/128 of a second (spec/10 R329). -/
def logScaled (l : Int) : Nat := 2 ^ (l + 7).toNat

/-- The number of the message that is due `e` beats after the enabling beat, at intervals of 2^L seconds: message k in beat
⌊k × 100,000 × 2^L⌋ (spec/10 R329). -/
def dueIndex (e : Nat) (l : Int) : Option Nat :=
  let p := 100000 * logScaled l
  let k := (e * 128 + p - 1) / p
  if k * p / 128 = e then some k else none

def State.sess (s : State) (i : Nat) : SessSt := Tab.get s.servo.sess {} i
def State.modSess (s : State) (i : Nat) (f : SessSt → SessSt) : State :=
  { s with servo := { s.servo with sess := Tab.put s.servo.sess {} i (f (s.sess i)) } }

def State.slot (s : State) (k : Nat) : SlotSt := Tab.get s.servo.slot {} k
def State.modSlot (s : State) (k : Nat) (f : SlotSt → SlotSt) : State :=
  { s with servo := { s.servo with slot := Tab.put s.servo.slot {} k (f (s.slot k)) } }

/-- The slot that an enabled session feeds (spec/10 R323). -/
def SessSt.feeds (x : SessSt) : Option Nat :=
  if x.state ≠ 0 ∧ ss.role x.cfg = 1 ∧ ss.slot x.cfg ≠ 0xFFFF then some (ss.slot x.cfg) else none

/-- The session that feeds slot `k`. -/
def State.feeder (s : State) (k : Nat) : Option Nat := (s.servo.sess.find? fun p => p.2.feeds == some k).map (·.1)

/-- State of the session that feeds slot `k`, and its misses; (0, 0) where none does. -/
def State.feedState (s : State) (k : Nat) : Nat × Nat :=
  match s.feeder k with
  | some i => ((s.sess i).state, (s.sess i).misses)
  | none => (0, 0)

def State.slotState (s : State) (k : Nat) : Nat := s.fld (F.slotStatus_STATE k)
def State.slotKind (s : State) (k : Nat) : Nat := s.fld (F.slotCfg_KIND k)
def State.slotTarget (s : State) (k : Nat) : Nat := s.fld (F.slotCfg_TARGET k)

/-- ACQUIRE, LOCKED or PULL (spec/10 R345). -/
def runningSlot (st : Nat) : Bool := st == 1 || st == 2 || st == 4

/-! ### Checks of a session and of a slot (spec/10 R323, R340, R349) -/

/-- Denominator of a superframe's duration in ns over 256 × 4,096 × 100,000, by RATE (spec/04 R127). -/
def klDen (rate : Nat) : Nat := if rate = 2 then 2578125 else if rate = 3 then 5312500 else 10625000

/-- The loss budget is shorter than `t` beats (spec/10 R335, R349). -/
def State.budgetOk (s : State) (c : BitVec 768) (t : Nat) : Bool :=
  if ss.delay c = 2 then
    decide (ss.missMax c * 2 ^ ss.klLog2 c * 104857600000 < t * 10000 * klDen (s.rateCode (ss.port c)))
  else decide (ss.missMax c * 100000 * logScaled (ss.logSync c) < t * 128)

/-- A slot that is enabled from the next boundary on is, or starts, in STANDBY. -/
def State.standbyW (s : State) (j : Nat) : Bool :=
  let w := s.regW (Reg.slotCfg j)
  if s.slotState j ≠ 0 ∧ (F.slotCfg_KIND j).of w = s.slotKind j ∧ (F.slotCfg_TARGET j).of w = s.slotTarget j then
    s.slotState j == 5
  else (F.slotCfg_STANDBY j).of w == 1

/-- Words for `SLOT[k]_CFG` and `SLOT[k]_TIMEOUT` break no rule of R340, R349 and of spec/12 R379. -/
def State.slotOk (s : State) (k : Nat) (cfg tmo : Word) : Bool :=
  let kind := (F.slotCfg_KIND k).of cfg
  let tgt := (F.slotCfg_TARGET k).of cfg
  let t := max 1 ((F.slotTimeout_BEATS k).of tmo)
  let budget := match s.feeder k with
    | some i => s.budgetOk (s.sess i).cfg t
    | none => true
  let bind := match s.feeder k with
    | some i => if kind = 0 then ss.counter (s.sess i).cfg == tgt else decide (ss.counter (s.sess i).cfg < 4)
    | none => true
  let s' := s.wait (Reg.slotCfg k) cfg
  let alone := s'.standbyW k || (List.range 256).all fun j =>
    j == k || (F.slotCfg_EN j).of (s.regW (Reg.slotCfg j)) == 0 || (F.slotCfg_KIND j).of (s.regW (Reg.slotCfg j)) != kind ||
      (F.slotCfg_TARGET j).of (s.regW (Reg.slotCfg j)) != tgt || s.standbyW j
  budget && ((F.slotCfg_EN k).of cfg == 0 ||
    ((if kind = 0 then decide (4 ≤ tgt)
      else decide (8 ≤ tgt) && decide (tgt ≤ 15) && (F.candCfg_TYPE tgt).of (s.regW (Reg.candCfg tgt)) == 3) && bind && alone))

/-- The status a SESSION_SET payload completes with, 0 where it may be applied (spec/10 R323, R328, R340, R349). (DEDUCED, log entry 29) -/
def State.sessCheck (s : State) (c : BitVec 768) : Nat :=
  let role := ss.role c
  let delay := ss.delay c
  let kl := s.isKl (ss.port c)
  let z (o n : Nat) : Bool := byteField c o n == 0
  let sync := (role == 1 || role == 2 || role == 4) && delay != 2
  let dly := (role != 2 && delay == 0) || delay == 1 || role == 3
  if !(decide (ss.num c < 4096) && decide (role ≤ 4) && decide (ss.sdo c < 4096) && z 15 1 && z 30 2 && z 46 2 && z 85 11) then
    st.badArg
  else if role = 0 then st.ok
  else if !(s.portExists (ss.port c) && decide (delay ≤ 3) && (delay == 2) == kl && decide (ss.flags c < 64) &&
      (delay == 2 || decide (ss.transport c ≤ 2)) && decide (byteField c 10 1 < 32) &&
      (!sync || (decide (-7 ≤ ss.logSync c) && decide (ss.logSync c ≤ 4))) &&
      (!dly || delay == 2 || (decide (-7 ≤ ss.logDelay c) && decide (ss.logDelay c ≤ 5))) &&
      (delay != 2 || (decide (4 ≤ ss.klLog2 c) && decide (ss.klLog2 c ≤ 12))) &&
      (role != 1 || decide (ss.slot c < 256) || ss.slot c == 0xFFFF) && decide (ss.vlan c < 2 ^ 17) &&
      (!ss.auth c || decide (ss.keyId c < 64)) &&
      (delay == 2 || ss.transport c != 2 || ss.twoStep c || bitAt (ss.flags c) 5)) then st.badArg
  else if role = 1 ∧ ss.slot c ≠ 0xFFFF then
    let k := ss.slot c
    let w := s.regW (Reg.slotCfg k)
    let other := s.servo.sess.any fun p => p.1 != ss.num c && p.2.feeds == some k
    let bind := (F.slotCfg_EN k).of w == 0 || (if (F.slotCfg_KIND k).of w = 0 then (F.slotCfg_TARGET k).of w == ss.counter c
      else decide (ss.counter c < 4))
    let t := max 1 ((F.slotTimeout_BEATS k).of (s.regW (Reg.slotTimeout k)))
    if !other && bind && s.budgetOk c t then st.ok else st.conflict
  else st.ok

/-! ### States of a slot (spec/10 R345, R347) -/

/-- The last offset of a slot, rounded (spec/10 R550). -/
def SlotSt.theta (x : SlotSt) : Int := roundDiv x.num x.den

/-- A STANDBY slot is READY (spec/10 R347). -/
def State.slotReady (s : State) (k : Nat) : Bool :=
  s.slotState k == 5 && (s.slot k).hist.length == 8 && (s.feedState k).1 == 2

def State.showReady (s : State) (k : Nat) : State :=
  (s.setF (F.slotStatus_READY k) (bit (s.slotReady k))).setF (F.slotStatus_RECOVERING k) (bit ((s.feedState k).1 == 3))

/-- A slot enters a state; a change, or a new enable (`force`), raises SLOT_STATE (spec/10 R345, R352). -/
def State.goSlot (s : State) (k new cause : Nat) (force : Bool := false) : State :=
  let from' := s.slotState k
  let s := (s.setF (F.slotStatus_STATE k) new).setF (F.slotStatus_CAUSE k) cause
  let s := s.modSlot k fun x => { x with jumped := x.jumped && new == 3 }
  let s := (s.when (new != 1) fun s => s.setF (F.slotStatus_MAY_STEP k) 0).showReady k
  if new = from' ∧ !force then s
  else
    let f := s.feedState k
    s.raise 0x0702 32 [(0, 1, k), (1, 1, from'), (2, 1, new), (3, 1, cause), (4, 2, (s.feeder k).getD 0xFFFF), (6, 1, f.1),
      (7, 1, f.2), (8, 8, twos 64 (s.slot k).theta), (16, 4, s.time.idx % 100000), (20, 6, s.time.idx / 100000)]

/-- The partner of a slot, where a loss switches to it (spec/10 R347). -/
def State.readyPartner (s : State) (k : Nat) : Option Nat :=
  let p := s.fld (F.slotCfg_PARTNER k)
  if p ≠ k ∧ s.slotKind p = s.slotKind k ∧ s.slotTarget p = s.slotTarget k ∧ s.slotReady p then some p else none

/-- A slot loses its input: HOLD, or a switch to its READY partner at the next boundary (spec/10 R345, R347). -/
def State.loseSlot (s : State) (k cause : Nat) : State :=
  if (s.slot k).switch.isSome then s
  else if s.flag (F.slotCfg_LOSS_ACT k) then
    match s.readyPartner k with
    | some _ => s.modSlot k fun x => { x with switch := some cause }
    | none => s.goSlot k 3 6
  else s.goSlot k 3 cause

/-- The session of a slot no longer feeds it, or is LOST (spec/10 R324, R345). -/
def State.slotUnfed (s : State) (k : Nat) : State :=
  if runningSlot (s.slotState k) then s.loseSlot k 4 else s.showReady k

/-! ### The update of a slot (spec/10 R336, R337, R342, R346, R347, R550) -/

/-- A coefficient times 2^87 (spec/10 R337). -/
def coef87 (w : Word) : Nat := w.toNat % 2 ^ 24 * 2 ^ (63 - w.toNat / 2 ^ 24 % 64)

/-- The loop's results: i1 and i2 after the update, and the increment, exact, over the common denominator (spec/10 R336). -/
def loopSum (x : SlotSt) (ivl : Nat) (second : Bool) (num : Int) (den : Nat) : Int × Int × Int × Nat :=
  let l : Nat := den * 16000 * ivl * 2 ^ 59
  let i2 : Int := x.i2 * (l : Int) - (if second then (coef87 x.ki2 : Int) * num else 0)
  let i1 : Int := x.i1 * (l : Int) - (coef87 x.ki : Int) * num + i2
  (i1, i2, (nominalIncr : Int) * (l : Int) + i1 - (coef87 x.kp : Int) * num, l)

/-- Rate and phase term of one update (spec/10 R336): a clamped increment keeps the integrators. -/
def State.slotLoop (s : State) (k : Nat) (num : Int) (den : Nat) : State :=
  let r := loopSum (s.slot k) (s.fld (F.slotIvl_INTERVAL k) + 1) (s.flag (F.slotCfg_SECOND_INT k)) num den
  let want := roundDiv r.2.2.1 r.2.2.2
  let t := s.slotTarget k
  let clamped := decide ((clampIncr t want : Int) ≠ want)
  let s := (s.setIncr t want 0).setF (F.slotStatus_CLAMPED k) (bit clamped)
  let s := if clamped then s
    else s.modSlot k fun x => { x with i1 := roundDiv r.1 r.2.2.2, i2 := roundDiv r.2.1 r.2.2.2 }
  if s.flag (F.slotCfg_PHASE_EN k) then s.addVal t (roundDiv (-((s.slot k).kph.toNat % 65536 : Nat) * num) (65536 * den)) else s

/-- OFFSET of a candidate in 2^-16 ns (spec/12 R378). -/
def State.candOffset (s : State) (c : Nat) : Int := roundDiv (sgn 32 (s.reg (Reg.candOffset c)).toNat * 65536) 1000

/-- A phase sample for candidate `c`: the anchor's offset from the reference (spec/10 R341, spec/12 R378). -/
def State.candSample (s : State) (c : Nat) (theta : Int) : State :=
  let x := Tab.get s.refs.cand {} c
  let y : CandSt := { x with
    samples := (s.time.tick * 4096, theta) :: x.samples, phase := List.replicate 4 (theta + s.candOffset c), fresh := true,
    since := some (x.since.getD s.time.tick), last := s.time.tick }
  { s with refs := { s.refs with cand := Tab.put s.refs.cand {} c y } }

/-- The added rate of PULL in increment units (spec/10 R347). -/
def State.pullRate (s : State) (k : Nat) : Int :=
  roundDiv ((nominalIncr : Int) * max 1 (min 1000000 (s.fld (F.slotPull_PULL_PS_S k)))) 1000000000000

/-- PULL removes the phase at PULL_PS_S, against its sign (spec/10 R347). (DEDUCED, log entry 28) -/
def State.slotPull (s : State) (k : Nat) (num : Int) : State :=
  let b := (s.slot k).base
  s.setIncr (s.slotTarget k) (if num > 0 then b - s.pullRate k else b + s.pullRate k) 0

/-- `SLOT[k]_OFFSET` and SAMPLES show the offset of an update. (DEDUCED, log entry 28) -/
def State.showOffset (s : State) (k : Nat) (num : Int) (den n : Nat) : State :=
  let s := (s.modSlot k fun x => { x with num := num, den := den }).setF (F.slotStatus_SAMPLES k) (sat 0xFFFF n)
  let v := twos 64 (roundDiv num den)
  (s.setReg (Reg.slotOfsLo k) (BitVec.ofNat 32 v)).setReg (Reg.slotOfsHi k) (BitVec.ofNat 32 (v / 2 ^ 32))

/-- An offset is larger than a number of ns; at most a number of ps. -/
def farNs (num : Int) (den ns : Nat) : Bool := decide (num.natAbs > ns * 65536 * den)
def nearPs (num : Int) (den ps : Nat) : Bool := decide (num.natAbs * 1000 ≤ ps * 65536 * den)

/-- An update of a slot in ACQUIRE or LOCKED whose jump test has passed (spec/10 R336, R341, R342, R345). (DEDUCED, log entry 28) -/
def State.slotTrack (s : State) (k : Nat) (num : Int) (den : Nat) : State :=
  let t := s.slotTarget k
  let st := s.slotState k
  let x := s.slot k
  let near := nearPs num den (s.fld (F.slotLock_LOCK_PS k))
  let lim := max 1 (s.fld (F.slotLock_LOCK_COUNT k))
  if s.flag (F.slotStatus_MAY_STEP k) ∧ farNs num den (s.fld (F.slotStep_STEP_NS k)) then
    (s.addVal t (roundDiv (-num) den)).modSlot k fun x => { x with samples := [], lockRun := 0 }
  else
    let lockRun := if st = 1 ∧ near then x.lockRun + 1 else 0
    let farRun := if st = 2 ∧ !near then x.farRun + 1 else 0
    let s := (s.setF (F.slotStatus_MAY_STEP k) 0).modSlot k fun x => { x with lockRun := lockRun, farRun := farRun }
    let s := if s.slotKind k = 1 then s.candSample t (roundDiv num den) else s.slotLoop k num den
    if st = 1 ∧ lim ≤ lockRun then (s.modSlot k fun x => { x with lockRun := 0 }).goSlot k 2 1
    else if st = 2 ∧ lim ≤ farRun then (s.modSlot k fun x => { x with farRun := 0 }).goSlot k 1 2
    else s

/-- Apply the update of a slot (spec/10 R345 to R347). (DEDUCED, log entry 28) -/
def State.slotUpdate (s : State) (k : Nat) (num : Int) (den n : Nat) : State :=
  let s := s.showOffset k num den n
  let st := s.slotState k
  let jump := s.fld (F.slotJump_JUMP_NS k)
  let far := decide (jump ≠ 0) && farNs num den jump
  let x := s.slot k
  if st = 0 then s
  else if st = 5 then
    (s.modSlot k fun x => { x with hist := ((s.time.bounds, num, den) :: x.hist).take 8 }).showReady k
  else if st = 4 then
    let s := s.when (s.slotKind k == 1) fun s => s.candSample (s.slotTarget k) (roundDiv num den)
    if nearPs num den (s.fld (F.slotLock_LOCK_PS k)) then
      let s := s.when (s.slotKind k == 0) fun s =>
        (s.setIncr (s.slotTarget k) x.base 0).modSlot k fun x => { x with i1 := x.base - nominalIncr }
      s.goSlot k 2 8
    else if s.slotKind k = 0 then s.slotPull k num
    else s
  else if far && (st == 2 || st == 3) then
    if st = 3 ∧ x.jumped then s
    else if x.jumpRun + 1 < max 1 (s.fld (F.slotJump_JUMP_COUNT k)) then
      (s.modSlot k fun x => { x with jumpRun := x.jumpRun + 1, farRun := 0 }).bump (F.slotOutlier_COUNT k)
    else
      (s.loseSlot k 5).modSlot k fun x => { x with jumpRun := 0, farRun := 0, jumped := true }
  else
    let s := s.modSlot k fun x => { x with jumpRun := 0 }
    if st = 3 then
      ((s.modSlot k fun x => { x with lockRun := 0, farRun := 0 }).goSlot k 1 10).slotTrack k num den
    else s.slotTrack k num den

/-! ### Switches and configuration of slots -/

/-- The correction by the slope of the last offsets of a STANDBY slot, in increment units (spec/10 R347). -/
def nuOf (h : List (Nat × Int × Nat)) : Int :=
  let d := h.foldl (fun a p => a * p.2.2) 1
  let n := h.length
  let ys := h.map fun p => ((p.1 : Int), p.2.1 * ((d / p.2.2 : Nat) : Int))
  let sx := ys.foldl (fun a p => a + p.1) 0
  let sy := ys.foldl (fun a p => a + p.2) 0
  let sxx := ys.foldl (fun a p => a + p.1 * p.1) 0
  let sxy := ys.foldl (fun a p => a + p.1 * p.2) 0
  Int.neg (roundDiv ((nominalIncr : Int) * (n * sxy - sx * sy)) ((n * sxx - sx * sx).toNat * d * 65536 * 10000))

/-- A switch to the partner (spec/10 R347): the partner becomes active in PULL, the former slot STANDBY. -/
def State.slotSwitch (s : State) (k : Nat) : State :=
  let s := s.modSlot k fun x => { x with switch := none }
  match s.readyPartner k with
  | none => s.goSlot k 3 6
  | some p =>
    let y := s.slot p
    let t := s.slotTarget p
    let nu := nuOf y.hist
    let b : Int := (s.cnt t).incr.toNat + nu
    let s := (s.modSlot k fun x => { x with
      hist := [], lockRun := 0, farRun := 0, jumpRun := 0 }).goSlot k 5 7
    let s := s.modSlot p fun x => { x with base := clampIncr t b, lockRun := 0, farRun := 0, jumpRun := 0 }
    let s := s.when (s.slotKind p == 0) fun s =>
      if nearPs y.num y.den (s.fld (F.slotLock_LOCK_PS p)) then s.setIncr t b 0 else s.slotPull p y.num
    (s.goSlot p 4 7).raise 0x0703 32 [(0, 1, k), (1, 1, p), (2, 1, t), (3, 1, s.slotKind p), (4, 8, twos 64 y.theta),
      (12, 8, twos 64 nu), (20, 4, s.time.idx % 100000), (24, 6, s.time.idx / 100000)]

/-- A configuration of slot `k` takes effect (spec/10 R336, R338, R339, R345); `cfg` and `ivl` are the words in force before. -/
def State.slotConfig (s : State) (k : Nat) (cfg ivl : Word) : State :=
  let st := s.slotState k
  let en := s.flag (F.slotCfg_EN k)
  let moved := (F.slotCfg_KIND k).of cfg != s.slotKind k || (F.slotCfg_TARGET k).of cfg != s.slotTarget k
  let clear (x : SlotSt) : SlotSt := { x with
    samples := [], upd := none, switch := none, due := .no, countdown := none, hist := [],
    lockRun := 0, farRun := 0, jumpRun := 0, jumped := false, idle := none }
  if !en then
    if st = 0 then s else (s.modSlot k clear).goSlot k 0 0
  else if st = 0 ∨ moved then
    let sb := s.flag (F.slotCfg_STANDBY k)
    let c0 := s.slotKind k == 0
    let i1 : Int := if c0 then (s.cnt (s.slotTarget k)).incr.toNat - nominalIncr else 0
    let s := (s.modSlot k fun x => { clear x with i1 := i1, i2 := 0 }).goSlot k (if sb then 5 else 1) 0 true
    s.setF (F.slotStatus_MAY_STEP k) (bit (c0 && !sb))
  else if s.reg (Reg.slotIvl k) ≠ ivl then s.modSlot k fun x => { x with countdown := none }
  else s

/-- The shadow coefficients of slot `k` move into use (spec/10 R339). -/
def State.slotCoefs (s : State) (k : Nat) : State :=
  (s.modSlot k fun x => { x with
    kp := s.reg (Reg.slotKp k), ki := s.reg (Reg.slotKi k), ki2 := s.reg (Reg.slotKi2 k), kph := s.reg (Reg.slotKph k)
    }).setF (F.slotCfg_UPD k) 0

/-- A counter write reaches the slots that steer the counter (spec/10 R343, spec/01 R31 order 2). -/
def State.slotWritten (s : State) (c op : Nat) : State :=
  s.each (s.servo.slot.map (·.1)) fun s k =>
    if s.slotKind k = 0 ∧ s.slotTarget k = c ∧ s.slotState k ≠ 0 ∧ s.slotState k ≠ 5 then
      let s := s.modSlot k fun x => { x with upd := none }
      if op = 2 then
        let v : Int := (s.cnt c).incr.toNat
        s.modSlot k fun x => { x with i1 := v - nominalIncr, i2 := 0, base := v }
      else
        ((s.modSlot k fun x => { x with
          samples := [], lockRun := 0, farRun := 0, jumpRun := 0 }).goSlot k 1 9).setF (F.slotStatus_MAY_STEP k) 1
    else s

/-! ### Service of the slots in a beat (spec/01 R32, spec/10 R336, R338, R350) -/

/-- The offset that FILTER makes of a list of samples, newest first, as a fraction; minimum delay acts as the mean on a KL session. -/
def filterSamples (filter : Nat) (kl : Bool) (l : List Sample) : Int × Nat :=
  match l with
  | [] => (0, 1)
  | x :: t =>
    if filter = 1 then (x.theta, 1)
    else if filter = 2 ∧ !kl then ((t.foldl (fun a y => if y.key < a.key then y else a) x).theta, 1)
    else (l.foldl (fun a y => a + y.theta) 0, l.length)

/-- Slots that are due in this beat, by priority, then number. -/
def State.dueSlots (s : State) : List Nat :=
  let due := (s.servo.slot.filter fun p => p.2.due == .due).map (·.1)
  ([0, 1, 2, 3].map fun q => due.filter fun k => s.fld (F.slotCfg_PRIO k) == q).flatten

/-- The sample cut-off: up to 64 due slots with samples compute; the others are late at the deadline. In DIP nothing computes
(spec/03 R106). (DEDUCED, log entry 28) -/
def State.computeSlots (s : State) : State :=
  let due := s.dueSlots
  if s.inDip then s.each due fun s k => s.modSlot k fun x => { x with due := .done, samples := [] }
  else
    let some' := due.filter fun k => !(s.slot k).samples.isEmpty
    let served := some'.take 64
    let s := s.each due fun s k =>
      let kl := match s.feeder k with | some i => ss.delay (s.sess i).cfg == 2 | none => false
      s.modSlot k fun x =>
        if served.contains k then
          let f := filterSamples (s.fld (F.slotCfg_FILTER k)) kl x.samples
          { x with due := .done, samples := [], upd := some (f.1, f.2, x.samples.length) }
        else { x with due := if x.samples.isEmpty then .done else .unserved, samples := [] }
    { s with servo := { s.servo with servedN := served.length } }

/-- Tick 12,800: unserved updates are late (spec/01 R32, spec/10 R338), but for those of DIP (spec/01 R34); unverified exchanges
of the slots' sessions are discarded (spec/10 R350). (DEDUCED, log entry 28) -/
def State.slotDeadline (s : State) : State :=
  let l := (s.servo.slot.filter fun p => p.2.due != .no).map (·.1)
  let late := if s.inDip then []
    else l.filter fun k => (s.slot k).due == .unserved || ((s.slot k).due == .due && !(s.slot k).samples.isEmpty)
  let s := s.each late fun s k => s.bump (F.slotLate_COUNT k)
  let s := s.each l fun s k =>
    let s := match s.feeder k with
      | some i => s.modSess i fun x => { x with authLate := sat 0xFFFF (x.authLate + x.unverified), unverified := 0 }
      | none => s
    s.modSlot k fun x => { x with due := .no, samples := if x.due = .due then [] else x.samples }
  s.late 0 late.length

/-- The countdown of every enabled slot at a boundary (spec/10 R338), and its input timer, which pauses in DIP (R344, R345). -/
def State.slotCountdown (s : State) : State :=
  let s := { s with servo := { s.servo with dueN := 0, servedN := 0 } }
  s.each (s.servo.slot.map (·.1)) fun s k =>
    if s.slotState k = 0 then s
    else
      let s := s.when (!s.power.dipBeat) fun s => s.modSlot k fun x => { x with idle := some ((x.idle.map (· + 1)).getD 0) }
      let ivl := s.fld (F.slotIvl_INTERVAL k) + 1
      let due := match (s.slot k).countdown with
        | none => s.time.beatCount.toNat % ivl == s.fld (F.slotIvl_PHASE_OFS k) % ivl
        | some n => n ≤ 1
      if due then
        let s := s.modSlot k fun x => { x with due := .due, countdown := some ivl }
        { s with servo := { s.servo with dueN := s.servo.dueN + 1 } }
      else s.modSlot k fun x => { x with countdown := x.countdown.map (· - 1) }

/-- `SERVO_STATUS` shows the beat that ends (spec/10 R353). -/
def State.showServo (s : State) : State :=
  (s.setF F.servoStatus_DUE (min 256 s.servo.dueN)).setF F.servoStatus_SERVED s.servo.servedN

/-! ### States of a session (spec/10 R324, R334) -/

/-- A session enters a state; a change raises SESSION_STATE and reaches its slot. `fed` is the slot it feeds before. -/
def State.goSess (s : State) (i new cause : Nat) : State :=
  let x := s.sess i
  let fed := x.feeds
  if x.state = new then s
  else
    let s := s.modSess i fun x => { x with state := new }
    let s := s.raise 0x0701 16 [(0, 2, i), (2, 1, x.state), (3, 1, new), (4, 1, cause), (5, 1, x.misses),
      (6, 2, (fed.getD ((s.sess i).feeds.getD 0xFFFF))), (8, 4, s.time.idx % 100000)]
    match (if fed.isSome then fed else (s.sess i).feeds) with
    | some k => if new = 0 ∨ new = 4 then s.slotUnfed k else s.showReady k
    | none => s

/-- What a session keeps of its exchanges when its settings change, at boundary `b` and tick `t`: nothing but its counts and last
results. -/
def SessSt.restart (x : SessSt) (c : BitVec 768) (b t : Nat) : SessSt :=
  { cfg := c, state := x.state, offset := x.offset, lastTs := x.lastTs, dup := x.dup, fuMiss := x.fuMiss, respMiss := x.respMiss,
    stale := x.stale, sfBad := x.sfBad, foreign := x.foreign, authFail := x.authFail, authLate := x.authLate, txSeq := x.txSeq,
    pdSeq := x.pdSeq, start := b, kl := { unitTick := t } }

/-- The session's port is gone (spec/10 R324): it stops, and SESSION_READ still shows what it has measured (R351). -/
def SessSt.cease (x : SessSt) (b t : Nat) : SessSt :=
  { x.restart x.cfg b t with exchanges := x.exchanges, mpd := x.mpd, mpdBeat := x.mpdBeat, delayStale := x.delayStale, nrr := x.nrr }

/-- The samples that a session has given its slot are discarded (spec/10 R323). -/
def State.dropSamples (s : State) (k : Option Nat) : State :=
  match k with
  | some k => s.modSlot k fun x => { x with samples := [] }
  | none => s

/-- A SESSION_SET takes effect (spec/10 R323, R324). (DEDUCED, log entry 29) -/
def State.sessApply (s : State) (c : BitVec 768) : State :=
  let i := ss.num c
  let old := (s.sess i).feeds
  let s := s.dropSamples old
  if ss.role c = 0 then (s.modSess i fun x => x.restart x.cfg s.time.bounds s.time.tick).goSess i 0 0
  else
    let s := (s.modSess i fun x => x.restart c s.time.bounds s.time.tick).goSess i 1 0
    match old with
    | some k => if (s.sess i).feeds = some k then s.showReady k else s.slotUnfed k
    | none => s

/-- Sessions whose port no longer exists are disabled (spec/10 R324). -/
def State.sessGone (s : State) : State :=
  s.each ((s.servo.sess.filter fun p => p.2.state != 0 && !s.portExists (ss.port p.2.cfg)).map (·.1)) fun s i =>
    let s := s.dropSamples (s.sess i).feeds
    (s.modSess i fun x => x.cease s.time.bounds s.time.tick).goSess i 0 5

/-! ### Exchanges (spec/10 R326 to R333, R550; spec/11 R368) -/

/-- ASYM, or ASYM_eff where the port has link terms (spec/11 R368), for a path delay `n` / `d`; the port's registers show it. -/
def State.asymEff (s : State) (c : BitVec 768) (n : Int) (d : Nat) : State × Int :=
  let p := ss.port c
  let l := Tab.get s.servo.link [] p
  let w (i : Nat) : Int := (l.getD i 0).toNat % 2 ^ 24
  let mode := (l.getD 0 0).toNat / 2 ^ 30
  if ss.delay c = 3 ∨ mode = 0 ∨ mode = 3 then (s, ss.asym c)
  else
    let q := 65536 * d
    let raw := 2000 * n - (w 1 + w 2 + w 3 + w 4) * q
    let rt := if raw < 0 then 0 else raw
    let co := sgn 32 (l.getD 5 0).toNat
    let g : Nat := max 3000000 (w 6).toNat
    let fib : Int × Nat := if mode = 1 then (co * rt, 1024 * g * q) else (co * rt, 2 * (2 ^ 39 + co).toNat * q)
    let board := (w 3 - w 4) + (w 2 - w 1)
    let eff := roundDiv (ss.asym c * 2000 * fib.2 + (board * fib.2 + 2 * fib.1) * 65536) (2000 * fib.2)
    let v := twos 64 eff
    let s := s.when (raw < 0) fun s => s.setF (F.linkCfg_NEG_RT p) 1
    let s := s.setReg (Reg.linkRtF p) (BitVec.ofNat 32 (sat (2 ^ 32 - 1) (roundDiv rt q).toNat))
    ((s.setReg (Reg.linkAsymEffLo p) (BitVec.ofNat 32 v)).setReg (Reg.linkAsymEffHi p) (BitVec.ofNat 32 (v / 2 ^ 32)), eff)

/-- An exchange completes: `n` / `d` is the offset before the asymmetry is taken off it, with the path delay `mpd`; `key` is
t2 - t1 - c (spec/10 R326, R334). In DIP its sample is discarded (spec/03 R106). -/
def State.exchange (s : State) (i : Nat) (n : Int) (d : Nat) (mpd : Int × Nat) (key : Int) : State :=
  let c := (s.sess i).cfg
  let a := s.asymEff c mpd.1 mpd.2
  let s := a.1
  let theta := roundDiv (n - a.2 * d) d
  let s := s.modSess i fun x => { x with
    offset := theta, exchanges := x.exchanges + 1, hit := true, misses := 0,
    lastTs := (s.cnt (ss.counter c)).stamp }
  let s := s.goSess i 2 1
  match (s.sess i).feeds with
  | some k => if s.slotState k = 0 ∨ s.inDip then s
      else s.modSlot k fun x => { x with samples := ⟨theta, key⟩ :: x.samples, idle := none }
  | none => s

/-- The unit of session `i` counts as no miss: what it measured was stamped in DIP, and is discarded (spec/10 R344). -/
def State.excuse (s : State) (i : Nat) : State := s.modSess i fun x => { x with hit := true }

/-- The path delay of a session is older than MISS_MAX delay intervals (spec/10 R326). -/
def State.mpdOld (s : State) (x : SessSt) : Bool :=
  x.mpd.isSome && ss.delay x.cfg != 2 &&
    decide (ss.missMax x.cfg * 100000 * logScaled (ss.logDelay x.cfg) < (s.time.beatCount - x.mpdBeat).toNat * 128)

/-- DELAY_STALE of the sessions at a boundary (spec/10 R326). -/
def State.showStale (s : State) : State :=
  s.each ((s.servo.sess.filter fun p => s.mpdOld p.2).map (·.1)) fun s i => s.modSess i fun x => { x with delayStale := true }

/-- A path delay of a session. -/
def State.newMpd (s : State) (i : Nat) (n : Int) (d : Nat) : State :=
  let s := s.modSess i fun x => { x with mpd := some (n, d), mpdBeat := s.time.beatCount, delayStale := false }
  if ss.role (s.sess i).cfg = 3 then s.goSess i 2 1 else s

/-- A Sync is complete: `key` is t2 - t1 - c (spec/10 R326). -/
def State.syncDone (s : State) (i : Nat) (key : Int) : State :=
  let s := s.modSess i fun x => { x with lastSync := some key }
  let x := s.sess i
  if ss.delay x.cfg = 3 then s.exchange i key 1 (0, 1) key
  else
    match x.mpd with
    | none => s
    | some (n, d) => s.exchange i (key * d - n) d (n, d) key

/-- A key of the vault is held (spec/17 R533). -/
def State.hasKey (s : State) (k : Nat) : Bool := (Tab.find k s.sec.keys).isSome

/-- The exchange that message `m` belongs to is discarded. -/
def SessSt.forget (x : SessSt) (m : PtpMsg) : SessSt :=
  { x with sync := x.sync.filter (·.seq ≠ m.seq), resp := x.resp.filter (·.seq ≠ m.seq) }

/-- Kind of exchange that a message belongs to: a Sync with its Follow_Up, a Delay_Req, a Pdelay_Req with its answers. -/
def PtpMsg.kind (m : PtpMsg) : Nat := if m.mtype = 0 ∨ m.mtype = 8 then 0 else if m.mtype = 1 ∨ m.mtype = 9 then 1 else 2

/-- The exchange of message `m` has been discarded for its ICV, within its interval (spec/10 R350). -/
def State.isDenied (s : State) (x : SessSt) (m : PtpMsg) : Bool :=
  x.denied.any fun d => d.1 == m.kind && d.2.1 == m.seq &&
    decide ((s.time.tick - d.2.2) * 128 ≤ 1600000000 * logScaled (if m.kind = 0 then ss.logSync x.cfg else ss.logDelay x.cfg))

/-- The timing pair has verified the message, where the session asks for it (spec/10 R350): the state, and whether it may be used. An
exchange that fails is discarded whole, and counted once. (DEDUCED, log entry 35) -/
def State.verified (s : State) (i : Nat) (m : PtpMsg) (icv : Icv) (attended : Bool) : State × Bool :=
  let c := (s.sess i).cfg
  if !ss.auth c then (s, true)
  else
    let bad := decide (icv = .bad) || !s.hasKey (ss.keyId c)
    let late := decide (icv = .unverified) || !attended
    if s.isDenied (s.sess i) m then (s, false)
    else if bad || late then
      (s.modSess i fun x => { x.forget m with
        denied := ((m.kind, m.seq, s.time.tick) :: x.denied).take 16,
        authFail := if bad then sat 0xFFFF (x.authFail + 1) else x.authFail,
        unverified := if bad then x.unverified else x.unverified + 1 }, false)
    else (s, true)

/-- A local stamp in the session's counter; a stamp that can no longer be converted is counted (spec/10 R327). -/
def State.localStamp (s : State) (i : Nat) (t : Stamp) : State × Option Int :=
  match s.toCounter (ss.counter (s.sess i).cfg) t with
  | some v => (s, some (v : Int))
  | none => (s.modSess i fun x => { x with stale := sat 0xFFFF (x.stale + 1) }, none)

/-- A message or request is not older than one interval of 2^L seconds (spec/10 R327). -/
def State.within (s : State) (w : MsgWait) (l : Int) : Bool := decide ((s.time.tick - w.tick) * 128 ≤ 1600000000 * logScaled l)

/-- The Syncs that have waited one interval for their Follow_Up are discarded and counted (spec/10 R327). -/
def State.countFu (s : State) (i : Nat) : State :=
  s.modSess i fun x =>
    let keep := x.sync.filter fun w => decide ((s.time.tick - w.tick) * 128 < 1600000000 * logScaled (ss.logSync x.cfg))
    { x with fuMiss := sat 0xFFFF (x.fuMiss + (x.sync.length - keep.length)), sync := keep }

def State.countResp (s : State) (i : Nat) : State :=
  s.modSess i fun x => { x with respMiss := sat 0xFFFF (x.respMiss + 1) }

/-- A Sync of session `i` (spec/10 R327). -/
def State.rxSync (s : State) (i : Nat) (m : PtpMsg) : State :=
  let old := (s.sess i).lastSeq
  let newer := match old with
    | some q => decide (0 < sgn 16 (m.seq - q).toNat)
    | none => true
  if !newer then s.modSess i fun x => { x with dup := sat 0xFFFF (x.dup + 1) }
  else
    let s := s.modSess i fun x => { x with lastSeq := some m.seq }
    if s.dipAt m.stamp then s.excuse i
    else match s.localStamp i m.stamp with
    | (s, none) => s
    | (s, some t2) =>
      if m.twoStep then
        s.modSess i fun x => { x with sync := { seq := m.seq, time := 0, stamp := t2, corr := m.corr, tick := s.time.tick } :: x.sync }
      else s.syncDone i (t2 - m.time - m.corr)

/-- A Follow_Up of session `i`. -/
def State.rxFollowUp (s : State) (i : Nat) (m : PtpMsg) : State :=
  match (s.sess i).sync.find? fun w => w.seq == m.seq && s.within w (ss.logSync (s.sess i).cfg) with
  | some w => (s.modSess i fun x => { x with sync := x.sync.erase w }).syncDone i (w.stamp - m.time - (w.corr + m.corr))
  | none => s

/-- The outstanding request that an answer belongs to: of its sequenceId, from the portIdentity that the answer names, and no older than
one delay interval (spec/10 R327). -/
def State.openReq (s : State) (i : Nat) (m : PtpMsg) : Option MsgWait :=
  let c := (s.sess i).cfg
  if m.target = some (ss.localPid c) then (s.sess i).req.find? fun w => w.seq == m.seq && s.within w (ss.logDelay c) else none

/-- Request `w` has been answered. -/
def State.closeReq (s : State) (i : Nat) (w : MsgWait) : State := s.modSess i fun x => { x with req := x.req.erase w }

/-- A Delay_Resp of session `i`: with the latest Sync it gives a path delay (spec/10 R326). -/
def State.rxDelayResp (s : State) (i : Nat) (m : PtpMsg) : State :=
  match s.openReq i m with
  | none => s.countResp i
  | some w =>
    let s := s.closeReq i w
    match (s.sess i).lastSync with
    | some key => if w.dip then s else s.newMpd i (key + (m.time - w.time - m.corr)) 2
    | none => s

/-- A complete answer to a Pdelay_Req: t2, t3, t4 and the sum of the correctionFields (spec/10 R326). -/
def State.pdelayDone (s : State) (i : Nat) (t1 t2 t3 t4 c remote : Int) : State :=
  let s := s.modSess i fun x => { x with resp := none, pdelays := ((remote, t4) :: x.pdelays).take 8 }
  let x := s.sess i
  let first := x.pdelays.getLast?.getD (remote, t4)
  let a := remote - first.1
  let b := t4 - first.2
  let ratio : Int × Nat := if ss.gptp x.cfg ∧ 0 < b ∧ x.pdelays.length > 1 then (a, b.toNat) else (1, 1)
  let s := s.modSess i fun x => { x with
    nrr := if ss.gptp x.cfg then roundDiv ((ratio.1 - ratio.2) * 2 ^ 62) ratio.2 else 0 }
  s.newMpd i ((t4 - t1) * ratio.1 - ((t3 - t2) + c) * ratio.2) (2 * ratio.2)

/-- A Pdelay_Resp of session `i`. -/
def State.rxPdelayResp (s : State) (i : Nat) (m : PtpMsg) : State :=
  match s.openReq i m with
  | none => s.countResp i
  | some w =>
    if w.dip ∨ s.dipAt m.stamp then s.closeReq i w
    else match s.localStamp i m.stamp with
    | (s, none) => s.closeReq i w
    | (s, some t4) =>
      if m.twoStep then
        s.modSess i fun x => { x with resp := some { seq := m.seq, time := m.time, stamp := t4, corr := m.corr, tick := s.time.tick } }
      else (s.closeReq i w).pdelayDone i w.time m.time m.time t4 m.corr (m.time + m.corr)

/-- A Pdelay_Resp_Follow_Up of session `i`. -/
def State.rxPdelayFu (s : State) (i : Nat) (m : PtpMsg) : State :=
  match (s.sess i).resp, s.openReq i m with
  | some r, some w =>
    if r.seq = m.seq then
      (s.closeReq i w).pdelayDone i w.time r.time m.time r.stamp (r.corr + m.corr) (m.time + m.corr)
    else s
  | _, _ => s

/-- The engine queues a message of session `i`, with a time in its time field and a correctionField; the fraction of the time below 1 ns
goes into the correctionField, with sign `sg`. `n` is what the answer to a request needs. (spec/10 R322, R328) (DEDUCED, log entry 28) -/
def State.queuePtp (s : State) (i mtype : Nat) (q : BitVec 16) (time corr sg : Int) (who : List Byte) (n : Int × Int := (0, 0)) : State :=
  let x := s.sess i
  s.queueOwn (ss.port x.cfg) {
    bytes := s.ptpFrame x.cfg mtype (ptpBody x.cfg mtype q time (corr + sg * ptpFrac time) who),
    note := some { sess := i, start := x.start, cfg := x.cfg, mtype := mtype, seq := q, off := ptpOff x.cfg, corr := n.1, recv := n.2, who := who } }

/-- The answer to a request (spec/10 R328, R329): a Delay_Resp carries the receive stamp; a Pdelay_Resp too, if two-step. -/
def State.rxRequest (s : State) (i : Nat) (m : PtpMsg) : State :=
  let c := (s.sess i).cfg
  if !s.portUp (ss.port c) then s
  else
    match s.localStamp i m.stamp with
    | (s, none) => s
    | (s, some t2) =>
      if m.mtype = 1 then if ss.role c = 2 then s.queuePtp i 9 m.seq t2 m.corr (-1) m.source else s
      else if ss.delay c = 1 ∨ ss.role c = 3 then
        s.queuePtp i 3 m.seq (if ss.twoStep c then t2 else 0) 0 (-1) m.source (m.corr, t2)
      else s

/-- The engine handles the message's type itself (spec/10 R325); one that is cut short it leaves to the timing pair. -/
def enginePtp (m : PtpMsg) : Bool := m.whole && [0, 1, 2, 3, 8, 9, 10].contains m.mtype

/-- The message matches the session on port, transport, domain and sdoId (spec/10 R325). -/
def SessSt.matches (x : SessSt) (port : Nat) (m : PtpMsg) : Bool :=
  x.state != 0 && ss.port x.cfg == port && ss.transport x.cfg == m.transport && ss.domain x.cfg == m.domain &&
    ss.sdo x.cfg % 4096 == m.sdoId

/-- It belongs to the session (spec/10 R325). (DEDUCED, log entry 29) -/
def SessSt.owns (x : SessSt) (m : PtpMsg) : Bool :=
  let any := ss.role x.cfg == 2 && !ss.unicast x.cfg
  m.target.any (fun t => t.drop 8 == beBytes 2 (ss.localPn x.cfg)) ||
    (if any then m.mtype == 1 || (m.mtype == 2 && ss.delay x.cfg == 1) else ss.remotePid x.cfg == m.source)

/-- The session that a message at `port` belongs to; else one that it matches (spec/10 R325). -/
def State.sessOf (s : State) (port : Nat) (m : PtpMsg) : Option Nat :=
  (s.servo.sess.find? fun p => p.2.matches port m && p.2.owns m).map (·.1)
def State.matching (s : State) (port : Nat) (m : PtpMsg) : Option Nat := (s.servo.sess.find? fun p => p.2.matches port m).map (·.1)

/-- A message goes to the timing pair (spec/10 R322, R325). -/
def State.toPair (s : State) (f : EngineFrame) : State := { s with servo := { s.servo with toPair := f :: s.servo.toPair } }

/-- A message that belongs to session `i` (spec/10 R326, R327). A session with DELAY SPECIAL takes its exchanges from markers (R331): what
belongs to it is terminated, and used for nothing. -/
def State.sessRx (s : State) (i : Nat) (m : PtpMsg) (icv : Icv) (attended : Bool) : State :=
  if ss.delay (s.sess i).cfg = 2 then s
  else match s.verified i m icv attended with
  | (s, false) => s
  | (s, true) =>
    let c := (s.sess i).cfg
    let slave := ss.role c = 1 ∨ ss.role c = 4
    let peer := ss.delay c = 1 ∨ ss.role c = 3
    match m.mtype with
    | 0 => if slave then s.rxSync i m else s
    | 8 => if slave then s.rxFollowUp i m else s
    | 9 => if slave ∧ ss.delay c = 0 then s.rxDelayResp i m else s.countResp i
    | 3 => if peer then s.rxPdelayResp i m else s.countResp i
    | 10 => if peer then s.rxPdelayFu i m else s
    | _ => s.rxRequest i m

/-- The timing pair takes the rank of a virtual candidate from the clockClass of its session's master, from an Announce that is not rejected
(spec/12 R386): a gated write of both cores (spec/14 R442). (PRESUMED, log entry 64) -/
def State.masterRank (s : State) (i : Nat) (f : EngineFrame) (icv : Icv) : State :=
  let x := s.sess i
  match x.feeds, f.ptp with
  | some k, some p =>
    let c := s.slotTarget k
    let w := s.regW (Reg.candCfg c)
    if fb f.bytes p.1 % 16 = 11 ∧ p.1 + 64 ≤ bodyLen f.bytes ∧ s.slotKind k = 1 ∧ (F.candCfg_TYPE c).of w = 3 ∧ (F.candCfg_FORCE_QL c).of w = 0 ∧
        (ss.auth x.cfg = false ∨ icv = .good) then
      s.pairWrite (Reg.candCfg c) ((F.candCfg_RANK c).upd w (fb f.bytes (p.1 + 48)))
    else s
  | _, _ => s

/-- A received PTP message (spec/10 R325): its session handles it, or the timing pair gets it; one that matches no session, and is of the
engine's types, is data, which PIPE_DECISION has forwarded. -/
def State.ptpRx (s : State) (f : EngineFrame) (m : PtpMsg) (icv : Icv) (attended : Bool) : State :=
  match s.sessOf f.port m, s.matching f.port m with
  | some i, _ => if enginePtp m then s.sessRx i m icv attended else (s.when attended fun s => s.masterRank i f icv).toPair f
  | none, some i => (s.modSess i fun x => { x with foreign := sat 0xFFFF (x.foreign + 1) }).toPair f
  | none, none => if enginePtp m then s else s.toPair f

/-- The frame's PTP message, if the parser has found one (spec/06 R184). -/
def Frame.ptpMsg (f : Frame) : Option PtpMsg := (ptpPlace f.hdrs).map fun p => Machine.ptpMsg f.bytes p.1 p.2 f.stamp

/-- A decided frame that the engine ends: a KL report, or a PTP message that matches a session (spec/10 R325, R332). -/
def State.ends (s : State) (f : Frame) : Bool := isKlReport f.bytes || f.ptpMsg.any fun m => (s.matching f.port m).isSome

/-- The engine gets a decided frame that is a PTP message or a KL report (spec/06 R184, spec/10 R325, R332). -/
def State.toEngine (s : State) (f : Frame) : State :=
  let p := if isKlReport f.bytes then none else ptpPlace f.hdrs
  if isKlReport f.bytes ∨ p.isSome then
    { s with servo := { s.servo with inbox := s.servo.inbox ++ [{ id := f.id, port := f.port, bytes := f.bytes, stamp := f.stamp, ptp := p }] } }
  else s

/-- A frame that the engine takes up leaves its inbox. -/
def State.takeUp (s : State) (f : EngineFrame) : State := { s with servo := { s.servo with inbox := s.servo.inbox.erase f } }

/-! ### Messages of the engine as they leave (spec/10 R328, R334) -/

/-- A stamp of a message that leaves, in the counter of the session's settings as it was queued; one that cannot be converted is counted. -/
def State.noteStamp (s : State) (n : PtpNote) (out : Stamp) : State × Option Int :=
  match s.toCounter (ss.counter n.cfg) out with
  | some v => (s, some (v : Int))
  | none => (s.modSess n.sess fun x => { x with stale := sat 0xFFFF (x.stale + 1) }, none)

/-- The message's bytes with what its egress stamp `t` puts into them: the time of a one-step Sync or request, the correctionField of a
one-step Pdelay_Resp. -/
def PtpNote.write (n : PtpNote) (l : List Byte) (t : Int) : List Byte :=
  if ss.twoStep n.cfg ∨ 3 < n.mtype then l
  else if n.mtype = 3 then ptpWrite n.cfg l n.off 3 0 (n.corr + t - n.recv)
  else ptpWrite n.cfg l n.off n.mtype t (if n.mtype = 0 then ptpFrac t else 0)

/-- A message of a session has left, stamped `out`: a two-step one has its Follow_Up queued, a request is outstanding, a MASTER has sent
its first Sync. -/
def State.ptpLeft (s : State) (n : PtpNote) (out : Stamp) (t : Int) : State :=
  let two := ss.twoStep n.cfg
  if (s.sess n.sess).start ≠ n.start ∨ (s.sess n.sess).state = 0 then s
  else if n.mtype = 1 ∨ n.mtype = 2 then
    let w : MsgWait := { seq := n.seq, time := t, stamp := t, corr := 0, tick := s.time.tick, dip := s.dipAt out }
    s.modSess n.sess fun x => { x with req := (w :: x.req).take 2, resp := none }
  else if n.mtype = 0 ∧ two then s.queuePtp n.sess 8 n.seq t 0 1 []
  else if n.mtype = 3 ∧ two then s.queuePtp n.sess 10 n.seq t n.corr 1 n.who
  else if (n.mtype = 0 ∨ n.mtype = 8) ∧ (s.sess n.sess).state = 1 then s.goSess n.sess 2 1
  else s

/-- A frame that the port originates itself has left port `q`, stamped `out` (spec/05 R165, R179; spec/10 R328). -/
def State.ownSent (s : State) (q : Nat) (m : OwnMsg) (out : Stamp) : State :=
  match m.note with
  | none => s.send q (withFcs m.bytes)
  | some n =>
    let s := s.when (n.mtype < 4) fun s => s.countPort q 46
    match s.noteStamp n out with
    | (s, none) => s.send q (withFcs m.bytes)
    | (s, some t) => (s.send q (withFcs (n.write m.bytes t))).ptpLeft n out t

/-! ### KL sessions (spec/10 R331 to R333) -/

/-- The enabled session on the KL link of a lane. -/
def State.klSess (s : State) (lane : Nat) : Option Nat :=
  (s.servo.sess.find? fun p => p.2.state != 0 && ss.port p.2.cfg == lane && ss.delay p.2.cfg == 2).map (·.1)

def State.modKl (s : State) (i : Nat) (f : KlRxSt → KlRxSt) : State := s.modSess i fun x => { x with kl := f x.kl }

def State.countSf (s : State) (i : Nat) : State := s.modSess i fun x => { x with sfBad := sat 0xFFFF (x.sfBad + 1) }

/-- Ticks of a KL window (spec/04 R127, spec/10 R335). (DEDUCED, log entry 28) -/
def State.klTicks (s : State) (c : BitVec 768) : Nat := 2 ^ ss.klLog2 c * 167772160000 / klDen (s.rateCode (ss.port c))

/-- The partner's present superframe has number `n`: where it lies in another window than the one before, that one has ended (spec/10
R331), and with it an expected unit, unless the unit began less than half a window ago (R334). -/
def State.klNumber (s : State) (i : Nat) (n : BitVec 16) : State :=
  let c := (s.sess i).cfg
  let win := BitVec.ofNat 16 (n.toNat / 2 ^ ss.klLog2 c * 2 ^ ss.klLog2 c)
  s.modKl i fun k =>
    if k.num.isNone then { k with num := some n, window := win }
    else if k.window = win then { k with num := some n }
    else { k with
      num := some n, window := win, good := 0, sumD := 0, sumR := 0,
      closed := if k.good = 0 then k.closed else k.closed ++ [⟨k.window, k.good, k.sumD, k.sumR⟩],
      units := if s.klTicks c ≤ 2 * (s.time.tick - k.unitTick) then k.units + 1 else k.units, unitTick := s.time.tick }

/-- A superframe of the partner begins; its superblock 0 was stamped `t`, or lost. One that has not given its time sequence is
incomplete; one that was stamped, or lost, in DIP yields nothing and counts as nothing (spec/04 R126, spec/10 R331, R344). -/
def State.klStart (s : State) (i : Nat) (t : Option Stamp) : State :=
  let s := match (s.sess i).kl.num with
    | some n => s.klNumber i (n + 1)
    | none => s
  let s := if (s.sess i).kl.opened then s.countSf i else s
  let dip := match t with
    | some t => s.dipAt t
    | none => s.inDip
  (s.modKl i fun k => { k with first := t, words := [], opened := !dip }).when dip fun s => s.excuse i

/-- The partner's transmit stamp of TIME0 to TIME3, and the superframe number (spec/04 R125). -/
def klTime (w : Nat → Nat) : Stamp × BitVec 16 :=
  let sec := w 0 * 2 ^ 16 + w 1 / 2 ^ 16
  let ns := w 1 % 2 ^ 16 * 2 ^ 16 + w 2 / 2 ^ 16
  (sec * stampSec + ns * 2 ^ 16 + w 2 % 2 ^ 16, BitVec.ofNat 16 (w 3 / 2 ^ 16))

/-- TIME word `n` of a superframe; TIME3 ends the sequence: a complete one gives a one-way result (spec/10 R331). -/
def State.klWord (s : State) (i n : Nat) (w : BitVec 32) : State :=
  let s := s.modKl i fun k => { k with words := Tab.ins n w k.words }
  let k := (s.sess i).kl
  if n ≠ 3 ∨ !k.opened then s
  else
    let s := s.modKl i fun k => { k with first := none, words := [], opened := false }
    let x := klTime fun j => (Tab.get k.words 0 j).toNat
    let s := s.klNumber i x.2
    match k.first with
    | none => s.countSf i
    | some t =>
      if k.words.length ≠ 4 then s.countSf i
      else
        match s.localStamp i t with
        | (s, none) => s
        | (s, some r) => s.modKl i fun k => { k with good := k.good + 1, sumD := k.sumD + (r - x.1), sumR := k.sumR + r.toNat }

/-- The partner's MEAN_D at the mean receive time `sumR` / `good`, from its two latest reports that are not too old, as a fraction
(spec/10 R333). -/
def klOut (reports : List KlReport) (sumR good : Nat) (win : Nat) : Option (Int × Nat) :=
  match reports.filter fun r => decide (sumR ≤ (r.meanR + 2 * win) * good) with
  | [] => none
  | [r] => some (sgn 64 r.meanD.toNat, 1)
  | r :: q :: _ =>
    let dr : Int := (r.meanR : Int) - q.meanR
    if dr = 0 then some (sgn 64 r.meanD.toNat, 1)
    else
      let d1 := sgn 64 q.meanD.toNat
      let n := d1 * dr * good + (sgn 64 r.meanD.toNat - d1) * ((sumR : Int) - q.meanR * good)
      some (if dr < 0 then (-n, (-dr * good).toNat) else (n, (dr * good).toNat))


/-- The oldest local window that has ended (spec/10 R331, R333): the means go to the partner, and with its reports they form an exchange. (DEDUCED, log entry 28) -/
def State.klWindow (s : State) (i : Nat) : State :=
  let c := (s.sess i).cfg
  match (s.sess i).kl.closed with
  | [] => s
  | k :: rest =>
    let s := s.modKl i fun x => { x with closed := rest }
    let s := if s.portUp (ss.port c) then
      s.queueOwn (ss.port c) { bytes := s.klReport c k.window k.good (roundDiv k.sumD k.good) (k.sumR / k.good) } else s
    let win := 2 ^ ss.klLog2 c * 104857600000 * 65536 / klDen (s.rateCode (ss.port c))
    match klOut (s.sess i).kl.reports k.sumR k.good win with
    | none => s
    | some (dn, dd) =>
      let n := k.sumD * dd - dn * k.good
      let m := k.sumD * dd + dn * k.good
      let d := 2 * k.good * dd
      (s.modSess i fun x => { x with mpd := some (m, d), mpdBeat := s.time.beatCount }).exchange i n d (m, d) 0

/-- A report of the partner (spec/10 R332, R333). -/
def State.klReportRx (s : State) (i : Nat) (r : KlReport) : State :=
  if r.log2.toNat ≠ ss.klLog2 (s.sess i).cfg then s.countSf i
  else s.modKl i fun k => { k with reports := (r :: k.reports).take 2 }

/-! ### The peer delay of a port for transparent clocks (spec/10 R330) -/

/-- What P2P_ADD adds for a frame that came in at `port`: the named session's mpd plus its asymmetry; none without an mpd. -/
def State.peerDelay (s : State) (port : Nat) : State × Option Int :=
  let x := s.sess (s.fld (F.servoTc_PDELAY_SESS port))
  match x.mpd with
  | none => (s, none)
  | some (n, d) =>
    let a := s.asymEff x.cfg n d
    (a.1, some (roundDiv (n + a.2 * d) d))

end Sys2Proof.Machine
end

