-- ==== Sys2Proof/Machine/Refs.lean ====
section
/-!
DEFINITION. Sys2Proof/Machine/Refs.lean: reference candidates, DPLLs, synthesizers and clock outputs (spec/12): edges and phase
samples, frequency estimates, qualification, selection, disputes, the states of a DPLL, first lock, pulls, holdover, lock of a
synthesizer, alignment of outputs. A phase is the anchor's offset from the reference (log entry 30).
-/
namespace Sys2Proof.Machine
open Sys2Proof

def State.cand (s : State) (c : Nat) : CandSt := Tab.get s.refs.cand {} c
def State.modCand (s : State) (c : Nat) (f : CandSt → CandSt) : State :=
  { s with refs := { s.refs with cand := Tab.put s.refs.cand {} c (f (s.cand c)) } }

def State.dpll (s : State) (d : Nat) : DpllSt := Tab.get s.refs.dpll {} d
def State.modDpll (s : State) (d : Nat) (f : DpllSt → DpllSt) : State :=
  { s with refs := { s.refs with dpll := Tab.put s.refs.dpll {} d (f (s.dpll d)) } }

/-- No result is applied at this boundary: it is held, or the device is in DIP (spec/03 R106, spec/14 R446). -/
def State.frozen (s : State) : Bool := s.inDip || s.redund.nowHeld

/-! ### Candidates (spec/12 R378 to R383) -/

def State.candState (s : State) (c : Nat) : Nat := s.fld (F.candStatus_STATE c)
def State.candType (s : State) (c : Nat) : Nat := s.fld (F.candCfg_TYPE c)

/-- Nominal frequency in 2^-16 Hz: that of a 1PPS is 1 Hz. -/
def State.candNom (s : State) (c : Nat) : Nat :=
  if s.candType c = 1 then 65536 else s.fld (F.candNom_NOM_HZ c) * 65536 + s.fld (F.candNomf_NOM_FRAC c)

def State.candWindow (s : State) (c : Nat) : Nat := max 1 (min 1000000 (s.fld (F.candWindow_WINDOW_PPB c)))

/-- The candidate can take its type (spec/12 R378). -/
def State.candValid (s : State) (c : Nat) : Bool :=
  let t := s.candType c
  if c < 8 then t == 1 || (t == 0 && decide (1000 * 65536 ≤ s.candNom c) && decide (s.candNom c ≤ 800000000 * 65536))
  else t == 2 || t == 3

/-- One edge in so many is stamped (spec/12 R378). -/
def stampEvery (nom : Nat) : Nat := ((List.range 11).map (2 ^ ·)).find? (fun k => decide (nom ≤ k * 1000000 * 65536)) |>.getD 1024

/-- A remainder within half a period on either side of 0. -/
def centred (r m : Nat) : Int := if 2 * r > m then (r : Int) - m else r

/-- A phase modulo one period of a pin candidate, or modulo one second of a 1PPS (spec/12 R378, R390, R391). -/
def State.pinWrap (s : State) (c : Nat) (v : Int) : Int :=
  if s.candType c = 1 then centred (v % (stampSec : Int)).toNat stampSec
  else
    let n := s.candNom c
    let m : Nat := 1000000000 * 2 ^ 32
    roundDiv (centred (v * n % (m : Int)).toNat m) n

/-- Phase of a pin candidate whose edge reads `t` on an anchor, OFFSET included. -/
def State.pinPhase (s : State) (c : Nat) (t : Stamp) : Int := s.pinWrap c ((t : Int) + s.candOffset c)

/-- The stamped edge `st`, at `pos` in 1/4,096 of a tick, is the candidate's latest sample; one sample a beat is kept of a clock. -/
def State.candStamp (s : State) (c : Nat) (st : Stamp) (pos : Nat) : State :=
  let ph := (List.range 4).map fun a =>
    match s.toCounter a st with
    | some t => s.pinPhase c t
    | none => (s.cand c).phase.getD a 0
  s.modCand c fun x =>
    let n := x.edges + 1
    let old := if x.fresh && s.candType c == 0 then x.samples.tail else x.samples
    { x with
      div := 0, edges := n, last := s.time.tick, phase := ph, fresh := true, since := some (x.since.getD s.time.tick),
      samples := if s.candType c = 1 then ((pos, (n : Int)) :: old).take 8 else (pos, (n : Int)) :: old }

/-- An edge at a pin candidate (spec/12 R378, R382). -/
def State.candEdge (s : State) (c : Nat) (st : Stamp) (pos : Nat) : State :=
  if s.candState c = 0 then s
  else if s.candType c = 0 then
    if (s.cand c).div + 1 < stampEvery (s.candNom c) then s.modCand c fun x => { x with div := x.div + 1 }
    else s.candStamp c st pos
  else
    let x := s.cand c
    if x.edges ≠ 0 ∧ (s.time.tick - x.last) * 5 < 8 * (1000000000 - s.candWindow c - 1000) then
      s.modCand c fun x => { x with early := true, last := s.time.tick, samples := [], since := none, est := none }
    else s.candStamp c st pos

/-- The KIND 1 slot in ACQUIRE, LOCKED or PULL that feeds candidate `c` (spec/10 R341, spec/12 R382). -/
def State.candSlot (s : State) (c : Nat) : Option Nat :=
  (s.servo.slot.map (·.1)).find? fun k => s.slotKind k == 1 && s.slotTarget k == c && runningSlot (s.slotState k)

/-- The anchor of the session behind a type 3 candidate (spec/12 R384). -/
def State.candAnchor (s : State) (c : Nat) : Option Nat :=
  (s.candSlot c).bind fun k => (s.feeder k).map fun i => ss.counter (s.sess i).cfg

/-- Slope of a least-squares line as a fraction (spec/12 R380). -/
def lsq (l : List (Nat × Int)) : Option (Int × Nat) :=
  let x0 : Int := (l.map fun p => (p.1 : Int)).headD 0
  let m : Int := l.length
  let sx := l.foldl (fun a p => a + ((p.1 : Int) - x0)) 0
  let sy := l.foldl (fun a p => a + p.2) 0
  let sxx := l.foldl (fun a p => a + ((p.1 : Int) - x0) * ((p.1 : Int) - x0)) 0
  let sxy := l.foldl (fun a p => a + ((p.1 : Int) - x0) * p.2) 0
  let den := (m * sxx - sx * sx).toNat
  if den = 0 then none else some (m * sxy - sx * sy, den)

/-- Frequency of an anchor's increment against the tick clock, in 2^-12 ppb over the nominal increment. -/
def State.anchorRate (s : State) (a : Nat) : Int := ((s.cnt a).incr.toNat : Int) - nominalIncr

/-- The estimate of a candidate, in 2^-12 ppb (spec/12 R380, R382): none before one second of samples, or eight pulses. -/
def State.candEstimate (s : State) (c : Nat) : Option Int :=
  let x := s.cand c
  let t := s.candType c
  let full := if t = 1 then x.samples.length == 8 else x.since.any fun n => decide (n + 1600000000 ≤ s.time.tick)
  if !full then none
  else
    match lsq x.samples with
    | none => x.est
    | some (num, den) =>
      if t = 2 then some (roundDiv (num * (4096 * 1000000000 * 4096)) (nominalIncr * den))
      else if t = 3 then
        match s.candAnchor c with
        | none => none
        | some a => some (roundDiv ((s.anchorRate a * 10 * den - num * nominalIncr) * (1000000000 * 4096)) (nominalIncr * 10 * den))
      else
        let k := if t = 1 then 1 else stampEvery (s.candNom c)
        let q := den * 5 * s.candNom c
        some (roundDiv ((num * (k * 1000000000 * 65536 * 32768 : Nat) - q) * (1000000000 * 4096)) q)

/-- Loss of activity (spec/12 R382). -/
def State.candLoa (s : State) (c : Nat) : Bool :=
  let x := s.cand c
  let gap := s.time.tick - x.last
  match s.candType c with
  | 0 => decide (2 ≤ x.idleBeats) &&
      decide (gap * 5 * s.candNom c > 16 * stampEvery (s.candNom c) * 1000000000 * 65536)
  | 1 => decide (gap * 5 > 8 * (1000000000 + s.candWindow c + 1000))
  | 2 =>
    let l := s.fld (F.candCfg_LANE c)
    !((s.portOf l).any s.portUp && s.flag (F.laneStatus_CDR_LOCK l))
  | _ => (s.candSlot c).isNone

/-- A beat of the recovered clocks (spec/12 R378, R380): what each lane candidate has gained on the tick clock is its sample, and the phase of
the DPLLs that have selected it accumulates: the anchor's advance less the lane's, over a beat of `n` ticks. (DEDUCED, log entry 33) -/
def State.laneBeat (s : State) (n : Nat) : State :=
  s.each ((List.range 16).filter fun c => s.candType c == 2 && s.candState c != 0) fun s c =>
    let g := (Config.laneGain s.freeCtr).toInt
    let s := s.fresh.modCand c fun x => { x with gain := x.gain + g, samples := (s.time.tick * 4096, x.gain + g) :: x.samples }
    s.each ((List.range 4).filter fun d => s.flag (F.dpllStatus_SEL_VALID d) && s.fld (F.dpllStatus_SELECTED d) == c) fun s d =>
      s.modDpll d fun x => { x with lanePh := x.lanePh + n * s.anchorRate d - g }

/-- A candidate enters a state (spec/12 R381, R411). -/
def State.goCand (s : State) (c new cause : Nat) : State :=
  let from' := s.candState c
  if from' = new then s
  else
    let s := (s.setF (F.candStatus_STATE c) new).modCand c fun x => { x with timer := 0 }
    s.raise 0x0901 16 [(0, 1, c), (1, 1, from'), (2, 1, new), (3, 1, cause), (4, 4, (s.reg (Reg.candFreq c)).toNat),
      (8, 4, s.time.idx % 100000)]

/-- The state after the faults and timers of one beat (spec/12 R381): `fault` is none, or its cause. -/
def State.candNext (s : State) (c : Nat) (fault : Option Nat) : State :=
  let x := s.cand c
  let qual := max 1 (s.fld (F.candQual_QUAL_S c)) * 100000
  let wtr := min 7200 (s.fld (F.candQual_WTR_S c)) * 100000
  let run (s : State) (n : Nat) : State := (s.modCand c fun x => { x with timer := x.timer + 1 }).setF (F.candStatus_TIMER_S c)
    ((n - (x.timer + 1) + 99999) / 100000)
  match s.candState c, fault with
  | 4, some q => (s.modCand c fun x => { x with disq := true }).goCand c 1 q
  | 1, none => if x.est.isSome then (s.goCand c 2 5).setF (F.candStatus_TIMER_S c) (qual / 100000) else s
  | 1, some _ => s
  | _, some q => (s.setF (F.candStatus_TIMER_S c) 0).goCand c 1 q
  | 2, none =>
    if x.est.isNone then s
    else if qual ≤ x.timer + 1 then
      if x.disq ∧ wtr ≠ 0 then (s.setF (F.candStatus_TIMER_S c) (wtr / 100000)).goCand c 3 3
      else (s.setF (F.candStatus_TIMER_S c) 0).goCand c 4 3
    else run s qual
  | 3, none => if wtr ≤ x.timer + 1 then (s.setF (F.candStatus_TIMER_S c) 0).goCand c 4 4 else run s wtr
  | _, none => s

/-- A candidate starts, or restarts (spec/12 R381). -/
def State.candStart (s : State) (c cause : Nat) : State :=
  let s := s.modCand c fun _ => { last := s.time.tick }
  let s := s.setF (F.candStatus_TIMER_S c) (max 1 (s.fld (F.candQual_QUAL_S c)))
  (((s.setF (F.candStatus_LOA c) 0).setF (F.candStatus_OUT_WINDOW c) 0).setReg (Reg.candFreq c) 0).goCand c 2 cause

/-- A candidate is disabled, or cannot take its type (spec/12 R381). -/
def State.candStop (s : State) (c : Nat) : State :=
  ((s.modCand c fun _ => {}).setF (F.candStatus_TIMER_S c) 0).goCand c 0 0

/-- Order 8: one candidate is evaluated from the beat just ended (spec/12 R381, R382). -/
def State.candEval (s : State) (c : Nat) : State :=
  if !s.flag (F.candCfg_EN c) then
    if s.candState c = 0 then s else s.candStop c
  else if !s.candValid c then
    (s.setF (F.candStatus_CFG_ERR c) 1).when (s.candState c != 0) fun s => s.candStop c
  else if s.candState c = 0 then s.candStart c 0
  else
    let t := s.candType c
    let s := s.modCand c fun x => { x with
      idleBeats := if x.fresh then 0 else x.idleBeats + 1,
      samples := if t = 1 then x.samples
        else x.samples.filter fun p => decide (s.time.tick * 4096 < p.1 + 1600000000 * 4096 + 4096) }
    let loa := s.candLoa c
    let s := s.modCand c fun x =>
      if t = 2 then (if loa then { x with samples := [], since := none } else { x with since := some (x.since.getD s.time.tick) })
      else if (loa && t == 1) || (x.samples.isEmpty && t != 1) then { x with samples := [], since := none } else x
    let est := if loa && t != 3 then none else s.candEstimate c
    let out := est.any fun e => decide (e.natAbs > s.candWindow c * 4096)
    let early := (s.cand c).early
    let s := s.modCand c fun x => { x with
      est := est, early := false, fresh := false,
      ests := match est with
        | some e => if s.time.bounds % 100000 = 0 then (e :: x.ests).take 3600 else x.ests
        | none => [] }
    let s := match est with
      | some e => s.setReg (Reg.candFreq c) (BitVec.ofNat 32 (twos 32 e))
      | none => s
    let s := (s.setF (F.candStatus_LOA c) (bit loa)).setF (F.candStatus_OUT_WINDOW c) (bit (out || early))
    s.candNext c (if loa then some 1 else if out || early then some 2 else none)

/-! ### Selection (spec/12 R384 to R387) -/

def State.candPrio (s : State) (d c : Nat) : Nat :=
  ((s.reg (if c < 8 then Reg.dpllPrioLo d else Reg.dpllPrioHi d)).toNat >>> (4 * (c % 8))) % 16

def State.candRank (s : State) (c : Nat) : Nat := s.fld (F.candCfg_RANK c)
def State.disputed (s : State) (d c : Nat) : Bool := bitAt (s.fld (F.dpllStatus_DISPUTED d)) c

/-- DPLL `d` sees the candidate as QUALIFIED: a virtual one only the DPLL of its session's anchor (spec/10 R340, spec/12 R384). -/
def State.qualified (s : State) (d c : Nat) : Bool :=
  s.candState c == 4 && (s.candType c != 3 || s.candAnchor c == some d)

/-- Eligible but for a dispute (spec/12 R384). (DEDUCED, log entry 32) -/
def State.fit (s : State) (d c : Nat) : Bool :=
  s.qualified d c && s.candPrio d c != 0 && s.candRank c != 255

def State.eligible (s : State) (d c : Nat) : Bool := s.fit d c && !s.disputed d c

/-- An arbiter has found candidate `c` at fault for DPLL `d` (spec/12 R387). -/
def State.atFault (s : State) (d c : Nat) : Bool :=
  s.refs.disputes.any fun p => p.1 / 256 == d &&
    ((p.1 % 16 == c && (p.2 == 1 || p.2 == 3)) || (p.1 / 16 % 16 == c && (p.2 == 2 || p.2 == 4)))

/-- Candidate `a` is better than `b` (spec/12 R384). -/
def State.better (s : State) (d a b : Nat) : Bool :=
  let k (c : Nat) : Nat := if s.flag (F.dpllCfg_SEL_MODE d) then (s.candRank c * 16 + s.candPrio d c) * 16 + c
    else (s.candPrio d c * 256 + s.candRank c) * 16 + c
  decide (k a < k b)

/-- The best eligible candidate. -/
def State.bestCand (s : State) (d : Nat) : Option Nat :=
  ((List.range 16).filter (s.eligible d)).foldl (fun a c => match a with
    | none => some c
    | some b => if s.better d c b then some c else some b) none

/-- The candidate selected by DPLL `d`. -/
def State.selCand (s : State) (d : Nat) : Option Nat :=
  if s.flag (F.dpllStatus_SEL_VALID d) then some (s.fld (F.dpllStatus_SELECTED d)) else none

def State.dpllState (s : State) (d : Nat) : Nat := s.fld (F.dpllStatus_STATE d)

/-! ### States of a DPLL (spec/12 R389 to R397) -/

/-- PHASE shows a phase error or the remaining phase of a pull. (DEDUCED, log entry 30) -/
def State.showPhase (s : State) (d : Nat) (v : Int) : State :=
  let w := twos 64 v
  (s.setReg (Reg.dpllPhaseLo d) (BitVec.ofNat 32 w)).setReg (Reg.dpllPhaseHi d) (BitVec.ofNat 32 (w / 2 ^ 32))

/-- Phase of DPLL `d` against its candidate, in 2^-16 ns (spec/12 R388). (DEDUCED, log entry 30) -/
def State.phaseOf (s : State) (d : Nat) : Int :=
  sgn 64 ((s.reg (Reg.dpllPhaseHi d)).toNat * 2 ^ 32 + (s.reg (Reg.dpllPhaseLo d)).toNat)

/-- The whole number of seconds before the phase error reaches HO_SPEC, from |PHASE| at entry; none while the timer is off or the
error never reaches it (spec/12 R397). (DEDUCED, log entry 31) -/
def holdSeconds (e0 y0 a spec : Nat) : Option Nat :=
  if spec = 0 then none
  else
    let c : Int := (spec * 65536 * 2000000000 : Nat) - (e0 * 2000000000 : Nat)
    let b := 131072000 * y0
    let q := 65536 * a
    if c < 0 then some 0
    else if q ≠ 0 then some ((Nat.sqrt (b * b + 4 * q * c.toNat) - b) / (2 * q))
    else if b ≠ 0 then some (c.toNat / b)
    else none

/-- The beats that the history covers (spec/12 R395): their number, the sum of their increments and of their boundary numbers. (DEDUCED, log entry 31) -/
def State.histOf (s : State) (d : Nat) : Nat × Nat × Nat :=
  let l := ((s.dpll d).hist.dropWhile fun p => decide (s.time.bounds < p.1 + s.fld (F.dpllHist_GUARD_S d) * 100000)).take
    (max 1 (s.fld (F.dpllHist_AVG_S d)) * 100000)
  (l.length, l.foldl (fun a p => a + p.2) 0, l.foldl (fun a p => a + p.1) 0)

/-- HIST_VALID and HIST_INCR follow the history while it is kept (spec/12 R395). (DEDUCED, log entry 31) -/
def State.showHist (s : State) (d : Nat) : State :=
  let h := s.histOf d
  let s := s.setF (F.dpllStatus_HIST_VALID d)
    (bit (decide (max 1 (s.fld (F.dpllHist_AVG_S d)) * 100000 ≤ (s.dpll d).hist.length) && h.1 != 0))
  if h.1 = 0 then s
  else
    let v := (roundDiv h.2.1 h.1).toNat
    ((s.setReg (Reg.dpllHistIncrLo d) (BitVec.ofNat 32 v)).setReg (Reg.dpllHistIncrHi d) (BitVec.ofNat 32 (v / 2 ^ 32 % 65536))).modDpll d
      fun x => { x with histLen := h.1, histSum := h.2.2 }

/-- A HOLDOVER event (spec/12 R411). -/
def State.holdEvent (s : State) (d kind : Nat) : State :=
  s.raise 0x0904 16 [(0, 1, d), (1, 1, kind), (2, 1, s.fld (F.dpllStatus_HIST_VALID d)), (4, 4, s.fld (F.dpllHoTts_TTS d)),
    (8, 4, (s.time.bounds - (s.dpll d).holdFrom) / 100000)]

/-- DPLL `d` enters a state, at a change of its candidate from `old` (spec/12 R389, R397, R411). No event leaves before the main
domain has joined the beat, or where it stops (`quiet`, R552). The history is frozen at entry to HOLDOVER (R395). -/
def State.goDpll (s : State) (d new cause : Nat) (old : Option Nat) (force : Bool := false) (quiet : Bool := false) : State :=
  let from' := s.dpllState d
  let ev := s.joinedBeat && !quiet
  let s := s.when (new == 3 && from' != 3) fun s => s.showHist d
  let s := (s.setF (F.dpllStatus_STATE d) new).modDpll d fun x => { x with goodRun := 0, badRun := 0, pull := 0 }
  let s := s.when (ev && (from' != new || force)) fun s =>
    s.raise 0x0902 32 [(0, 1, d), (1, 1, from'), (2, 1, new), (3, 1, cause), (4, 1, old.getD 0xFF), (5, 1, (s.selCand d).getD 0xFF),
      (8, 8, twos 64 (s.phaseOf d)), (16, 4, s.time.idx % 100000), (20, 6, s.time.idx / 100000)]
  if from' = 3 ∧ new ≠ 3 then
    let s := s.when ev fun s => s.holdEvent d 2
    (s.setReg (Reg.dpllHoTts d) 0xFFFFFFFF#32).setF (F.dpllStatus_HO_SPEC_EXCEEDED d) 0
  else if from' ≠ 3 ∧ new = 3 then
    let t := holdSeconds (s.phaseOf d).natAbs (s.fld (F.dpllHoY0_Y0 d)) (s.fld (F.dpllHoA_A d)) (s.fld (F.dpllHoSpec_SPEC_NS d))
    let s := (s.modDpll d fun x => { x with holdFrom := s.time.bounds }).setReg (Reg.dpllHoTts d)
      (match t with | some n => BitVec.ofNat 32 (min n 0xFFFFFFFE) | none => 0xFFFFFFFF#32)
    s.when ev fun s => s.holdEvent d 0
  else s

/-- Latest phase of the selected candidate against anchor `d`, OFFSET included; a lane's is that accumulated since its selection (spec/12
R378). -/
def State.selPhase (s : State) (d : Nat) : Int :=
  match s.selCand d with
  | none => 0
  | some c => if s.candType c = 2 then roundDiv (s.dpll d).lanePh (2 ^ 28) + s.candOffset c else (s.cand c).phase.getD d 0

/-- A loop closes onto the selected candidate, its integrator loaded with the increment in force: a pull after the anchor's first-lock step,
else ACQUIRE (spec/12 R389, R391, R394). -/
def State.dpllClose (s : State) (d cause : Nat) (old : Option Nat) : State :=
  let s := s.modDpll d fun x => { x with integ := s.anchorRate d * 2 ^ 64 }
  if s.locked d then
    let ph := s.selPhase d
    ((s.showPhase d ph).goDpll d 4 cause old).modDpll d fun x => { x with remain := ph * 100000000 }
  else s.goDpll d 1 cause old

/-- SELECTED of a candidate for DPLL `d`. -/
def State.markSel (s : State) (d : Nat) (c : Option Nat) (on : Bool) : State :=
  match c with
  | none => s
  | some c =>
    let v := s.fld (F.candStatus_SELECTED c)
    s.setF (F.candStatus_SELECTED c) (if on then v ||| 2 ^ d else v - (if bitAt v d then 2 ^ d else 0))

/-- The selection of DPLL `d` becomes `sel` (spec/12 R389, R391, R393). -/
def State.dpllSelect (s : State) (d : Nat) (sel : Option Nat) (cause : Nat) : State :=
  let old := s.selCand d
  if old = sel then s
  else
    let s := (s.markSel d old false).markSel d sel true
    let s := (s.setF (F.dpllStatus_SEL_VALID d) (bit sel.isSome)).setF (F.dpllStatus_SELECTED d) (sel.getD 0)
    let s := s.modDpll d fun x => { x with
      selected := x.selected || sel.isSome, goodRun := 0, badRun := 0, freqRun := 0, firsts := [], step := none, lanePh := 0 }
    let st := s.dpllState d
    match sel with
    | none => if st = 1 ∨ st = 2 then s.goDpll d 3 cause old
        else if st = 4 then s.goDpll d 3 (if cause = 2 then 6 else cause) old
        else s
    | some _ => if st = 5 then s
        else if st = 0 then (s.modDpll d fun x => { x with integ := 0 }).goDpll d 1 cause old
        else s.dpllClose d cause old

/-- The selection decided for a DPLL at the last order 8 (spec/12 R384); with it a REF_FORCE that has set automatic mode completes (R410). -/
def State.dpllTake (s : State) (d : Nat) : State :=
  let x := s.dpll d
  let s := s.modDpll d fun x => { x with next := none, nextCmd := false }
  let s := match x.next with
    | none => s
    | some sel => s.dpllSelect d sel (if x.nextCmd then 0 else if sel.isNone then 2 else 1)
  if x.nextCmd then
    s.each (s.host.parked.filter fun p => p.op == 0x0901 && p.partly && p.cmd.fld 0 1 == d) fun s p => s.finish p.id st.ok
  else s

/-- Order 8: DPLL `d` decides its selection for the next boundary; the boundary at which a pull is complete still belongs to the pull
(spec/12 R384, R385, R393). -/
def State.dpllDecide (s : State) (d : Nat) : State :=
  let cur := s.selCand d
  let best := if s.flag (F.dpllCfg_EN d) then s.bestCand d else none
  let keep := cur.any fun c => s.fit d c && !s.atFault d c
  let mode := s.fld (F.dpllStatus_FORCE d)
  let want : Option Nat :=
    if !s.flag (F.dpllCfg_EN d) ∨ mode = 2 then none
    else if mode = 1 then
      let c := (s.dpll d).forceCand
      (if s.eligible d c || (keep && cur == some c) then some c else none)
    else
      match cur, best with
      | some c, some b => if !keep || (s.flag (F.dpllCfg_REVERT d) && s.better d b c && b != c) then some b else some c
      | some c, none => if keep then some c else none
      | none, b => b
  let pulling := s.dpllState d == 4 || (s.dpll d).pulled == some s.time.bounds
  let s := s.setF (F.dpllStatus_QUEUED d) (bit (pulling && ((keep && want != cur) ||
    s.host.parked.any fun p => p.op == 0x0901 && p.cmd.fld 0 1 == d)))
  let s := s.modDpll d fun x => { x with byCmd := false, nextCmd := x.byCmd }
  if want = cur ∨ (pulling ∧ keep) then s.modDpll d fun x => { x with next := none }
  else s.modDpll d fun x => { x with next := some (if pulling then none else want) }

/-! ### The loop (spec/12 R388, R390, R391, R394 to R396) -/

/-- Samples a second that the criteria count: pulses of a 1PPS, else boundaries. -/
def State.lockNeed (s : State) (c : Nat) : Nat := if s.candType c = 1 then 8 else 100000

/-- The anchor's rate without the pull is within 1 ppb of the candidate's. -/
def State.freqNear (s : State) (d c : Nat) : Bool :=
  match (s.cand c).est with
  | none => false
  | some e =>
    decide (((s.anchorRate d - (s.dpll d).pull) * (1000000000 * 4096) - e * nominalIncr).natAbs ≤ 4096 * nominalIncr)

/-- A twentieth of the candidate's sample rate, in 0.1 mHz (spec/12 R388). -/
def State.bwLimit (s : State) (c : Nat) : Nat :=
  match s.candType c with
  | 0 => if s.candNom c < 100000 * 65536 then 500 * s.candNom c / 65536 else 50000000
  | 1 => 500
  | 3 => match s.candSlot c with
    | some k => 50000000 / (s.fld (F.slotIvl_INTERVAL k) + 1)
    | none => 50000000
  | _ => 50000000

/-- BW in 0.1 mHz (spec/12 R413). -/
def State.dpllBw (s : State) (d : Nat) : Nat := max 1 (s.fld (F.dpllBw_BW d))

/-- BW_LIMITED (spec/12 R388). -/
def State.bwLimited (s : State) (d c : Nat) : Bool := decide (s.bwLimit c < s.dpllBw d)

/-- DAMP: code 3 acts as 0 (spec/12 R388). -/
def State.dpllDamp (s : State) (d : Nat) : Nat := s.fld (F.dpllCfg_DAMP d) % 3

/-- Integrator and rate word of the type-2 loop in one beat, from phase error `ph` (spec/12 R388): the integral part, and with the proportional
part the increment. (DEDUCED, log entry 33) -/
def State.loopStep (s : State) (d c : Nat) (ph : Int) : Int × Int :=
  let bw := min (s.dpllBw d) (s.bwLimit c)
  let i := (s.dpll d).integ - (Config.loopKi bw (s.dpllDamp d)).toNat * ph
  (i, nominalIncr + roundDiv (i - (Config.loopKp bw (s.dpllDamp d)).toNat * ph * 2 ^ 32) (2 ^ 64))

/-- Integrator and rate word of a loop that is locked to the frequency of candidate `c`, as estimated (spec/12 R391). (DEDUCED, log entry 33) -/
def State.freqStep (s : State) (d c : Nat) : Int × Int :=
  let i := match (s.cand c).est with
    | some e => roundDiv (e * nominalIncr * 2 ^ 64) (1000000000 * 4096)
    | none => (s.dpll d).integ
  (i, nominalIncr + roundDiv i (2 ^ 64))

/-- The increment of HOLDOVER at this boundary (spec/12 R396). -/
def State.holdIncr (s : State) (d : Nat) : Int :=
  let x := s.dpll d
  if s.flag (F.dpllStatus_HIST_VALID d) then
    let i : Int := s.fld (F.dpllHistIncrHi_HI d) * 2 ^ 32 + (s.reg (Reg.dpllHistIncrLo d)).toNat
    let age := sgn 32 (s.reg (Reg.dpllAge d)).toNat
    roundDiv (i * ((10 ^ 23 * x.histLen : Nat) - age * ((s.time.bounds * x.histLen : Nat) - (x.histSum : Int)))) (10 ^ 23 * x.histLen)
  else (s.cnt d).incr.toNat

/-- SLOPE as an added rate in increment units, and as the phase it removes in one beat (spec/12 R391). -/
def State.slopeRate (s : State) (d : Nat) : Int :=
  roundDiv ((nominalIncr : Int) * max 1 (min 1000000 (s.fld (F.dpllSlope_SLOPE d)))) 1000000000000
def State.slopeBeat (s : State) (d : Nat) : Int := max 1 (min 1000000 (s.fld (F.dpllSlope_SLOPE d))) * 65536

/-- A median of three. -/
def median3 (a b c : Int) : Int := max (min a b) (min (max a b) c)

/-- Three samples of a time-carrying candidate in a row decide the first-lock step (spec/12 R390). (DEDUCED, log entry 30) -/
def State.firstLock (s : State) (d c : Nat) : State :=
  let x := s.cand c
  if s.locked d ∨ !x.fresh ∨ !(s.candType c = 1 ∨ s.candType c = 3) then s
  else
    let l := (x.phase.getD d 0 :: (s.dpll d).firsts).take 3
    s.modDpll d fun y => { y with
      firsts := l,
      step := match l with
        | [p, q, r] => if max p (max q r) - min p (min q r) ≤ 65536000 then some (-(median3 p q r)) else none
        | _ => none }

/-- DPLL `d` sets its anchor's increment, held within 100 ppm; CLAMPED reports a clamp (spec/01 R25). -/
def State.dpllIncr (s : State) (d : Nat) (x : Int) : State :=
  (s.setIncr d x 1).setF (F.dpllStatus_CLAMPED d) (bit (decide ((clampIncr d x : Int) ≠ x)))

/-- What is left of a pull at a boundary (spec/12 R391): the pull rate in force since the last rate word has removed SLOPE a beat; in the last
beat no more than was left. Beats in which no rate word was applied count too. -/
def State.pullLeft (s : State) (d : Nat) : Int :=
  let x := s.dpll d
  let n := s.time.bounds - x.ranAt
  let step : Int := n * s.slopeBeat d
  if x.pull = 0 then x.remain
  else if x.pull < 0 then (if n = 1 then max 0 (x.remain - step) else x.remain - step)
  else if n = 1 then min 0 (x.remain + step) else x.remain + step

/-- A beat of LOCKED is included in the history (spec/12 R395). -/
def State.keepHist (s : State) (d : Nat) : State :=
  (s.modDpll d fun y => { y with hist := (s.time.bounds, (s.cnt d).incr.toNat) :: y.hist }).showHist d

/-- A closed loop in one beat: rate word, phase, criteria to lock and to lose lock, progress of a pull (spec/12 R388 to R391). (DEDUCED, log entry 33) -/
def State.dpllLoop (s : State) (d c : Nat) : State :=
  let st := s.dpllState d
  let x := s.dpll d
  let left := if st = 4 then s.pullLeft d else 0
  let pull : Int := if left > 0 then -(s.slopeRate d) else if left < 0 then s.slopeRate d else 0
  let counts := s.candType c != 1 || (s.cand c).fresh
  let need := s.lockNeed c
  let near := s.freqNear d c
  let freqRun := if !near then 0 else if counts then x.freqRun + 1 else x.freqRun
  let ph := s.selPhase d
  let r := if st = 4 then s.freqStep d c else s.loopStep d c ph
  let want : Int := r.2 + pull
  let integ := if (clampIncr d want : Int) = want then r.1 else x.integ
  let s := s.dpllIncr d want
  let s := (s.setF (F.dpllStatus_BW_LIMITED d) (bit (s.bwLimited d c))).modDpll d fun y => { y with
    freqRun := freqRun, pull := pull, integ := integ }
  if st = 4 then
    let s := (s.modDpll d fun y => { y with remain := left, ranAt := s.time.bounds }).showPhase d (roundDiv left 100000000)
    if left = 0 then (s.goDpll d (if need ≤ freqRun then 2 else 1) 5 (some c)).modDpll d fun y => { y with pulled := some s.time.bounds }
    else s
  else
    let s := (s.showPhase d ph).firstLock d c
    let good := decide (ph.natAbs ≤ 65536) && near
    let goodRun := if !good then 0 else if counts then x.goodRun + 1 else x.goodRun
    let badRun := if ph.natAbs > 655360 then x.badRun + 1 else 0
    let s := s.modDpll d fun y => { y with goodRun := goodRun, badRun := badRun }
    if st = 1 ∧ need ≤ goodRun then s.goDpll d 2 3 (some c)
    else if st = 2 then
      if 100000 ≤ badRun then s.goDpll d 1 4 (some c)
      else s.keepHist d
    else s

/-- HO_TTS counts down each second of HOLDOVER (spec/12 R397). -/
def State.countTts (s : State) (d : Nat) : State :=
  let t := s.fld (F.dpllHoTts_TTS d)
  if t = 0xFFFFFFFF ∨ t = 0 ∨ s.time.bounds = (s.dpll d).holdFrom ∨ (s.time.bounds - (s.dpll d).holdFrom) % 100000 ≠ 0 then s
  else s.setReg (Reg.dpllHoTts d) (BitVec.ofNat 32 (t - 1))

/-- Order 3: the rate word of DPLL `d` (spec/12 R389). -/
def State.dpllRun (s : State) (d : Nat) : State :=
  match s.dpllState d with
  | 0 => s.dpllIncr d nominalIncr
  | 3 => (s.dpllIncr d (s.holdIncr d)).countTts d
  | 5 =>
    let s := match (s.dpll d).sw with
      | some v => (s.dpllIncr d v).modDpll d fun x => { x with sw := none }
      | none => s.bump (F.dpllSwMiss_COUNT d)
    s.showPhase d (s.selPhase d)
  | st =>
    match s.selCand d with
    | none => s
    | some c =>
      let s := if (s.dpll d).pullDue ∧ s.locked d ∧ st ≠ 4 then s.dpllClose d 9 (some c) else s
      ((s.modDpll d fun x => { x with pullDue := x.pullDue && s.locked d && st == 4 }).dpllLoop d c)

/-- A boundary at which the rate word of DPLL `d` is held (spec/03 R106, spec/14 R446): a beat of LOCKED still belongs to the history, and
HO_TTS counts on (spec/12 R395, R397). -/
def State.dpllHold (s : State) (d : Nat) : State :=
  match s.dpllState d with
  | 2 => s.keepHist d
  | 3 => s.countTts d
  | _ => s

/-- The phase of a candidate moves with anchor `a`. -/
def State.candMove (s : State) (a : Nat) (v : Int) (c : Nat) : State :=
  if (Tab.find c s.refs.cand).isNone then s
  else
    s.modCand c fun x => { x with phase := x.phase.modify a fun p => s.pinWrap c (p + v) }

/-- Samples that a KIND 1 slot has taken against anchor `a` move with it. -/
def State.slotMove (s : State) (a : Nat) (v : Int) (k : Nat) : State :=
  let own := (s.feeder k).any fun i => ss.counter (s.sess i).cfg == a
  if s.slotKind k == 1 && own then
    let s := s.modSlot k fun x => { x with
      samples := x.samples.map fun y => { y with theta := y.theta + v },
      upd := x.upd.map fun u => (u.1 + v * u.2.1, u.2.1, u.2.2) }
    s.modCand (s.slotTarget k) fun x => { x with
      phase := x.phase.map (· + v), samples := x.samples.map fun p => (p.1, p.2 + v) }
  else s

/-- Anchor `a` has moved by `v`: phases measured against it move with it (spec/12 R390). -/
def State.phasesMove (s : State) (a : Nat) (v : Int) : State :=
  let s := s.each (List.range 8) fun s c => s.candMove a v c
  s.each (s.servo.slot.map (·.1)) fun s k => s.slotMove a v k

/-- The main domain stops: the DPLL goes on without a reference (spec/01 R43, spec/12 R552). -/
def State.dpllStop (s : State) (d : Nat) : State :=
  let st := s.dpllState d
  let s := s.modDpll d fun x => { x with
    next := none, byCmd := false, nextCmd := false, forceCand := 0, firsts := [], step := none, pullDue := false,
    stopState := some (x.stopState.getD st) }
  let s := ((s.setF (F.dpllStatus_FORCE d) 0).setF (F.dpllStatus_SEL_VALID d) 0).setF (F.dpllStatus_SELECTED d) 0
  let s := (s.setF (F.dpllStatus_QUEUED d) 0).setF (F.dpllStatus_DISPUTED d) 0
  if st = 0 ∨ st = 3 then s else s.goDpll d 3 11 none (quiet := true)

/-- At the first boundary after BOOT_DONE, what became of the DPLL meanwhile is reported (spec/12 R552). (DEDUCED, log entry 32) -/
def State.dpllReport (s : State) (d : Nat) : State :=
  match (s.dpll d).stopState with
  | none => s
  | some st =>
    let now := s.dpllState d
    let s := s.when (st != now) fun s =>
      s.raise 0x0902 32 [(0, 1, d), (1, 1, st), (2, 1, now), (3, 1, 11), (4, 1, 0xFF), (5, 1, 0xFF),
        (8, 8, twos 64 (s.phaseOf d)), (16, 4, s.time.idx % 100000), (20, 6, s.time.idx / 100000)]
    let s := s.when (now == 3 && st != 3) fun s => s.holdEvent d 0
    let s := s.when (s.dpll d).stopSpec fun s => s.holdEvent d 1
    s.modDpll d fun x => { x with stopState := none, stopSpec := false }

/-! ### Disputes (spec/12 R387) -/

/-- Sum of the estimates of the last `n` seconds, if there are so many. -/
def State.estSum (s : State) (c n : Nat) : Option Int :=
  let l := (s.cand c).ests
  if l.length < n then none else some ((l.take n).foldl (· + ·) 0)

/-- Threshold of DPLL `d` in 2^-12 ppb, times 100, over `n` estimates. -/
def State.disputeLimit (s : State) (d n : Nat) : Nat := s.fld (F.dpllDispute_DISPUTE_CPPB d) * 4096 * n

def far100 (a b : Int) (lim : Nat) : Bool := decide ((a - b).natAbs * 100 > lim)

/-- Outcome of an arbiter of mean `e` for a pair: it agrees with exactly one. -/
def arbiter (e a b : Int) (lim base : Nat) : Option Nat :=
  match far100 e a lim, far100 e b lim with
  | false, true => some base
  | true, false => some (base + 1)
  | _, _ => none

/-- The outcome for the pair (a, b) of DPLL `d` (spec/12 R387). -/
def State.disputeOutcome (s : State) (d a b n : Nat) (ea eb : Int) : Nat :=
  let lim := s.disputeLimit d n
  let third := ((List.range 16).filter fun c => c != a && c != b && s.eligible d c).findSome? fun c =>
    (s.estSum c n).bind fun e => arbiter e ea eb lim 1
  let i : Int := s.fld (F.dpllHistIncrHi_HI d) * 2 ^ 32 + (s.reg (Reg.dpllHistIncrLo d)).toNat
  let h : Int := roundDiv ((i - nominalIncr) * (1000000000 * 4096 * n : Nat)) nominalIncr
  match third with
  | some o => o
  | none =>
    match (if s.flag (F.dpllStatus_HIST_VALID d) then arbiter h ea eb lim 3 else none) with
    | some o => o
    | none => if (s.selCand d).isSome then 5 else 6

/-- DISPUTED of DPLL `d` follows its pairs: the candidate that an arbiter kept is cleared. -/
def State.showDisputed (s : State) (d : Nat) : State :=
  let ps := s.refs.disputes.filter fun p => p.1 / 256 == d
  let a := (ps.filter fun p => p.2 != 1 && p.2 != 3).map fun p => p.1 / 16 % 16
  let b := (ps.filter fun p => p.2 != 2 && p.2 != 4).map fun p => p.1 % 16
  s.setF (F.dpllStatus_DISPUTED d) (idxMask (a ++ b))

/-- REF_DISPUTE (spec/12 R411). -/
def State.disputeEvent (s : State) (d a b outcome n : Nat) (diff : Int) : State :=
  s.raise 0x0903 16 [(0, 1, d), (1, 1, a), (2, 1, b), (3, 1, outcome), (4, 4, diff.natAbs * 100 / (4096 * max 1 n)),
    (8, 4, s.time.idx % 100000)]

/-- One pair of equal rank is compared, once a second. (DEDUCED, log entry 32) -/
def State.disputePair (s : State) (d a b : Nat) : State :=
  let n := max 1 (min 3600 (s.fld (F.dpllDispute_DISPUTE_S d)))
  let key := 256 * d + 16 * a + b
  let equal := s.qualified d a && s.qualified d b && s.candPrio d a == s.candPrio d b && s.candRank a == s.candRank b
  let lim := s.disputeLimit d n
  match s.estSum a n, s.estSum b n with
  | some ea, some eb =>
    let put (s : State) (o : Nat) : State :=
      { s with refs := { s.refs with disputes := Tab.ins key o s.refs.disputes } }.showDisputed d
    match Tab.find key s.refs.disputes with
    | none =>
      if equal && far100 ea eb lim then
        let s := put s 0
        let o := s.disputeOutcome d a b n ea eb
        (put s o).disputeEvent d a b o n (ea - eb)
      else s
    | some old =>
      if decide ((ea - eb).natAbs * 200 ≤ lim) then
        ({ s with refs := { s.refs with disputes := Tab.del key s.refs.disputes } }.showDisputed d).disputeEvent d a b 7 n (ea - eb)
      else
        let o := s.disputeOutcome d a b n ea eb
        if o = old then s else (put s o).disputeEvent d a b o n (ea - eb)
  | _, _ => s

/-- Disputes of every DPLL are judged (spec/12 R387). (DEDUCED, log entry 32) -/
def State.disputes (s : State) (d : Nat) : State :=
  if s.time.bounds % 100000 ≠ 0 then s
  else s.each (List.range 16) fun s a => s.each (List.range 16) fun s b => if a < b then s.disputePair d a b else s

/-! ### Synthesizers and outputs (spec/12 R399 to R404) -/

def State.syn (s : State) (y : Nat) : SynSt := Tab.get s.refs.syn {} y
def State.modSyn (s : State) (y : Nat) (f : SynSt → SynSt) : State :=
  { s with refs := { s.refs with syn := Tab.put s.refs.syn {} y (f (s.syn y)) } }
def State.clk (s : State) (k : Nat) : ClkSt := Tab.get s.refs.clk {} k
def State.modClk (s : State) (k : Nat) (f : ClkSt → ClkSt) : State :=
  { s with refs := { s.refs with clk := Tab.put s.refs.clk {} k (f (s.clk k)) } }

def State.clkSyn (s : State) (k : Nat) : Nat := s.fld (F.clkout_SYN k)

/-- Feedback in the shadow set, in 2^-32. -/
def State.synShadow (s : State) (y : Nat) : Nat := s.fld (F.synCfg_FB_INT y) * 2 ^ 32 + (s.reg (Reg.synFb y)).toNat

/-- The VCO's frequency in Hz times 2^32. -/
def vco (fb : Nat) : Nat := fb * 400000000

/-- Increment of the anchor that synthesizer `y` follows, as its feedback is scaled since the last boundary. -/
def State.synRate (s : State) (y : Nat) : Nat := Tab.get s.refs.synIncr nominalIncr y

/-- The VCO's frequency, by the tick clock, in Hz, as a fraction: the feedback scaled by the anchor's increment over the nominal one
(spec/12 R399). -/
def State.vcoHz (s : State) (y : Nat) : Nat × Nat := (vco (s.syn y).fb * s.synRate y, 2 ^ 32 * nominalIncr)

/-- The frequency of CLKOUT `k`, by the tick clock, in Hz, as a fraction (spec/12 R402, R405). -/
def State.clkHz (s : State) (k : Nat) : Nat × Nat :=
  let v := s.vcoHz (s.clkSyn k)
  (v.1, v.2 * (s.clk k).div)

/-- What the transmit frequency of the lanes of group `g` is multiplied by, as a fraction: their PLL follows the anchor of DPLL_SEL (spec/12
R406). -/
def State.laneScale (s : State) (g : Nat) : Nat × Nat := (Tab.get s.refs.grpIncr nominalIncr g, nominalIncr)

/-- At a boundary the synthesizers' feedback and the lane-group PLLs take the increments of the anchors that they follow (spec/12 R399, R406);
where the boundary is held they keep theirs (R405, spec/14 R446). -/
def State.scaleRates (s : State) : State :=
  if s.redund.nowHeld then s
  else
    let put (t : Tab Nat) (k d : Nat) : Tab Nat := Tab.put t nominalIncr k (s.cnt d).incr.toNat
    { s with refs := { s.refs with
      synIncr := (List.range 2).foldl (fun t y => put t y (s.fld (F.synCfg_DPLL y))) s.refs.synIncr
      grpIncr := (List.range 32).foldl (fun t g => put t g (s.fld (F.laneGrp_DPLL_SEL g))) s.refs.grpIncr } }

/-- Highest frequency of a format in Hz (spec/02 R70). -/
def formatMax (f : Nat) : Nat := if f ≤ 1 then 1600000000 else if f = 2 then 400000000 else 250000000

/-- A divider keeps an output in its format's range. -/
def clkRangeOk (fb div format : Nat) : Bool :=
  decide (1000 * (div * 2 ^ 32) ≤ vco fb) && decide (vco fb ≤ formatMax format * (div * 2 ^ 32))

/-- DIV in the shadow set (spec/12 R402). -/
def State.clkShadow (s : State) (k : Nat) : Nat := max 8 (s.fld (F.clkout_DIV k))

/-- Align an output whose period divides one second (spec/12 R403). -/
def State.clkAlign (s : State) (k : Nat) : State :=
  let q := vco (s.syn (s.clkSyn k)).fb
  if s.flag (F.clkout_EN k) ∧ q % ((s.clk k).div * 2 ^ 32) = 0 then
    s.modClk k fun x => { x with aligned := s.time.tick + 1, alignDue := false }
  else s.modClk k fun x => { x with alignDue := false }

def State.clksOf (s : State) (y : Nat) : List Nat := (List.range 12).filter fun k => s.clkSyn k == y

/-- SYN_LOCK (spec/12 R411). -/
def State.synEvent (s : State) (y lock us : Nat) : State :=
  s.raise 0x0905 16 [(0, 1, y), (1, 1, lock), (2, 1, s.fld (F.synStatus_BAND y)), (4, 4, us)]

/-- A search for the band begins; a lock held until then is lost (spec/12 R400). -/
def State.synSearch (s : State) (y : Nat) : State :=
  let was := s.flag (F.synStatus_LOCK y)
  let s := s.modSyn y fun x => { x with good := 0, bad := 0, searchTick := s.time.tick }
  let s := ((s.setF (F.synStatus_LOCK y) 0).setF (F.synStatus_SEARCH y) 1).setF (F.synStatus_HELD y) 1
  s.when was fun s => s.synEvent y 0 0

/-- A 1 ms gate of synthesizer `y` ends, `err` ppb off the programmed frequency (spec/12 R400). -/
def State.synGate (s : State) (y err band : Nat) : State :=
  if !s.flag (F.synCfg_EN y) then s
  else if s.flag (F.synStatus_SEARCH y) then
    let good := if err ≤ 100 then (s.syn y).good + 1 else 0
    let s := s.modSyn y fun x => { x with good := good }
    if good < 4 then s
    else
      let us := (s.time.tick - (s.syn y).searchTick) / 1600
      let s := ((s.setF (F.synStatus_SEARCH y) 0).setF (F.synStatus_LOCK y) 1).setF (F.synStatus_HELD y) 0
      let s := (s.setF (F.synStatus_BAND y) band).modSyn y fun x => { x with lockFb := x.fb, bad := 0 }
      (s.each (s.clksOf y) State.clkAlign).synEvent y 1 us
  else if s.flag (F.synStatus_LOCK y) then
    let bad := if err > 1000 then (s.syn y).bad + 1 else 0
    let s := s.modSyn y fun x => { x with bad := bad }
    if bad < 2 then s else (s.setF (F.synStatus_LOCK y) 0).synEvent y 0 0
  else s.synSearch y

/-- UPD: feedback and dividers are loaded, or the set is refused (spec/12 R401). -/
def State.synLoad (s : State) (y : Nat) : State :=
  let fb := s.synShadow y
  let ks := s.clksOf y
  if !(decide (32 * 2 ^ 32 ≤ fb) && decide (fb ≤ 36 * 2 ^ 32) &&
      ks.all fun k => clkRangeOk fb (s.clkShadow k) (s.fld (F.clkout_FORMAT k))) then
    s.setF (F.synStatus_CFG_ERR y) 1
  else
    let moved := fb != (s.syn y).fb
    let near := decide (((vco fb : Int) - vco (s.syn y).lockFb).natAbs ≤ 20000000 * 2 ^ 32)
    let s := s.modSyn y fun x => { x with fb := fb }
    let s := s.each ks fun s k => s.modClk k fun x => { x with div := s.clkShadow k, alignDue := true }
    if s.flag (F.synCfg_EN y) && moved && !near then s.synSearch y else s

/-- A changed output is held low from the present tick on, for at most 1 ms (spec/12 R402). -/
def State.clkHold (s : State) (k : Nat) : State :=
  s.modClk k fun x => { x with lowTill := s.time.tick + min 1600000 (Config.clkHold k).toNat }

/-- Output `k` is held low (spec/12 R400, R402, R404). -/
def State.clkLow (s : State) (k : Nat) : Bool :=
  let y := s.clkSyn k
  let q := s.fld (F.clkout_SQUELCH k)
  let d := s.fld (F.synCfg_DPLL y)
  decide (s.time.tick < (s.clk k).lowTill) || s.flag (F.synStatus_SEARCH y) || (q != 0 && !s.flag (F.synStatus_LOCK y)) ||
    (q == 2 && (s.dpllState d == 0 || s.flag (F.dpllStatus_HO_SPEC_EXCEEDED d)))

/-- What CLKOUT `k` does: `none` at high impedance, `some true` where its clock runs (spec/12 R402; spec/14 R452). -/
def State.clkoutPin (s : State) (k : Nat) : Option Bool :=
  if s.sharedOff F.redundShared_CLKOUT k then none else some (s.up && s.flag (F.clkout_EN k) && !s.clkLow k)

/-- At a second of anchor `d`, the outputs that follow it and wait for an alignment take it (spec/12 R403). (DEDUCED, log entry 15) -/
def State.clkSecond (s : State) (d : Nat) : State :=
  s.each (List.range 12) fun s k =>
    if (s.clk k).alignDue && s.fld (F.synCfg_DPLL (s.clkSyn k)) == d then s.clkAlign k else s

/-- The outputs that follow anchor `d`. -/
def State.clksOfAnchor (s : State) (d : Nat) : List Nat :=
  (List.range 12).filter fun k => s.fld (F.synCfg_DPLL (s.clkSyn k)) == d

end Sys2Proof.Machine
end

