-- ==== Sys2Proof/Machine/Meas.lean ====
section
/-!
DEFINITION. Sys2Proof/Machine/Meas.lean: the measurement block (spec/13; spec/09 R298 to R308): edges at the units 128 to 159 (numbered
here less 128), interval measurements and their records, frequency gates and their fits, posting, scheduled pulses.
-/
namespace Sys2Proof.Machine
open Sys2Proof

def State.modMeas (s : State) (f : MeasSt → MeasSt) : State := { s with meas := f s.meas }
def State.im (s : State) (m : Nat) : ImSt := Tab.get s.meas.im {} m
def State.modIm (s : State) (m : Nat) (f : ImSt → ImSt) : State :=
  s.modMeas fun x => { x with im := Tab.put x.im {} m (f (s.im m)) }
def State.fm (s : State) (f : Nat) : FmSt := Tab.get s.meas.fm {} f
def State.modFm (s : State) (f : Nat) (g : FmSt → FmSt) : State :=
  s.modMeas fun x => { x with fm := Tab.put x.fm {} f (g (s.fm f)) }
def State.evout (s : State) (k : Nat) : EvoutSt := Tab.get s.meas.evout {} k
def State.modEvout (s : State) (k : Nat) (f : EvoutSt → EvoutSt) : State :=
  s.modMeas fun x => { x with evout := Tab.put x.evout {} k (f (s.evout k)) }

/-- A record with the number in `len` bytes from `off` on replaced. -/
def putField {n : Nat} (r : BitVec n) (off len v : Nat) : BitVec n :=
  (r &&& ~~~(BitVec.ofNat n ((2 ^ (8 * len) - 1) * 2 ^ (8 * off)))) ||| BitVec.ofNat n (v % 2 ^ (8 * len) * 2 ^ (8 * off))

/-! ### Interval measurements (spec/13 R418, R419; spec/09 R302 to R308) -/

def State.imStops (s : State) (m : Nat) : Nat := max 1 (min 8 (s.fld (F.imCfg_NSTOP m)))
def State.imStop (s : State) (m i : Nat) : Nat :=
  ((s.reg (if i < 4 then Reg.imStopsLo m else Reg.imStopsHi m)).toNat >>> (8 * (i % 4))) % 32

/-- PENDING and WINDOW_OPEN of the measurement's unit (spec/09 R320). -/
def State.showIm (s : State) (m : Nat) : State :=
  let x := s.im m
  (s.setF (F.iuStatus_PENDING (128 + m)) (bit (!x.pend.isEmpty))).setF (F.iuStatus_WINDOW_OPEN (128 + m)) (bit x.win.isSome)

/-- The tick up to which anchor `tb`'s time of an edge has run, measured on the present tick: TCNT0 itself is read there; for the other
anchors the edge's own time is converted, which lies before it where its code is not 0 (spec/09 R290, R307). -/
def State.edgeTick (s : State) (tb : Nat) (code : BitVec 12) : Nat := s.time.tick - if tb ≠ 0 ∧ code ≠ 0 then 1 else 0

/-- The step of anchor `a` was taken after tick `t0` and not after `t1`. -/
def State.stepIn (s : State) (a t0 t1 : Nat) : Bool :=
  let t := Tab.get s.time.stepTick 0 a
  decide (t0 + 1 < t) && decide (t ≤ t1 + 1)

/-- The interval from a start to a stop, without a step between them (spec/09 R307). -/
def State.intervalOf (s : State) (tb : Nat) (w : Window) (f : StopFill) : Int :=
  (f.stamp : Int) - w.stamp - (if s.stepIn tb w.ran f.ran then s.stepOf tb else 0)
    + (if s.stepIn tb f.ran w.ran then s.stepOf tb else 0)

/-- A linearisation table of unit `u` took effect after tick `t0` and not after `t1` (spec/09 R301). -/
def ImSt.tableIn (x : ImSt) (u t0 t1 : Nat) : Bool := x.tables.any fun p => p.1 == u && decide (t0 < p.2) && decide (p.2 ≤ t1)

/-- The record of a window that ends, as it stands (spec/09 R305, R308). -/
def State.imRecord (s : State) (m : Nat) (w : Window) : MeasRec :=
  let ns := s.imStops m
  let tb := s.fld (F.imCfg_TB m)
  let src := s.fld (F.imCfg_START m)
  let orphan := w.fills.isEmpty
  let fs := w.fills.map (·.2)
  let t0 := fs.foldl (fun a f => min a f.tick) w.tick
  let t1 := fs.foldl (fun a f => max a f.tick) w.tick
  let cal := !orphan && ((s.im m).tableIn src t0 t1 || w.fills.any fun p => (s.im m).tableIn (s.imStop m p.1) t0 t1)
  let missing := !orphan && (List.range ns).any fun i => (Tab.find i w.fills).isNone
  let flags := bit (w.suspect || fs.any (·.suspect)) + 2 * bit (fs.any fun f => s.stepIn tb w.ran f.ran || s.stepIn tb f.ran w.ran)
    + 4 * bit cal + 8 * bit w.overlap + 16 * bit (w.merged > 1 || fs.any (·.merged > 1)) + 32 * bit (fs.any (·.order)) + 64 * bit missing
  let entry (i : Nat) : List (Nat × Nat × Nat) :=
    match Tab.find i w.fills with
    | none => [(32 + 12 * i + 8, 1, 128 + s.imStop m i), (32 + 12 * i + 9, 1, 4)]
    | some f => [(32 + 12 * i, 8, twos 64 (s.intervalOf tb w f)), (32 + 12 * i + 8, 1, 128 + s.imStop m i),
        (32 + 12 * i + 9, 1, bit (f.merged > 1) + 2 * bit f.order + 8 * bit f.suspect), (32 + 12 * i + 10, 2, sat 0xFFFF f.merged)]
  { unit := m, key := m,
    data := packLE 1024 ([(0, 1, m), (1, 1, bit orphan), (2, 1, if orphan then 0 else ns), (3, 1, tb), (4, 2, flags),
      (6, 2, sat 0xFFFF w.merged), (8, 1, 128 + src), (24, 4, (s.im m).seq.toNat)] ++ Stamp.fields w.stamp 12 ++
      (if orphan then [] else ((List.range ns).map entry).flatten)),
    marks := (6, src, w.tick) :: w.fills.map fun p => (32 + 12 * p.1 + 10, s.imStop m p.1, p.2.tick) }

/-- One result is posted before another: by the tick it completed on, then by measurement, interval before frequency (spec/13 R421). -/
def MeasRec.first (r q : MeasRec) : Bool := decide (r.tick < q.tick) || (r.tick == q.tick && decide (r.key < q.key))

/-- A result takes its place among results in the order of posting. -/
def MeasRec.place (r : MeasRec) : List MeasRec → List MeasRec
  | [] => [r]
  | q :: l => if r.first q then r :: q :: l else q :: r.place l

/-- A result completes (spec/13 R421, R422). -/
def State.measDone (s : State) (r : MeasRec) : State :=
  s.modMeas fun x => { x with done := { r with tick := s.time.tick }.place x.done }

/-- The window of measurement `m` ends. (DEDUCED, log entry 50) -/
def State.imEnd (s : State) (m : Nat) : State :=
  match (s.im m).win with
  | none => s
  | some w =>
    let s := s.measDone (s.imRecord m w)
    let s := (s.modIm m fun x => { x with win := none, seq := x.seq + 1, tables := if x.pend.isEmpty then [] else x.tables }).showIm m
    if w.fills.isEmpty then s.bump (F.iuOrphans_ORPHANS (128 + m)) else s

/-- An edge of source `u` that was held becomes an orphan stop (spec/09 R304, R305). -/
def State.imOrphan (s : State) (m u : Nat) (p : StopFill) : State :=
  (s.modIm m fun x => { x with
    orphans := match Tab.find u x.orphans with
      | none => Tab.ins u { stamp := p.stamp, suspect := p.suspect, coincident := decide (1 < p.merged) } x.orphans
      | some o => Tab.ins u { o with count := o.count + 1, suspect := o.suspect || p.suspect, coincident := o.coincident || decide (1 < p.merged) }
        x.orphans }).bump (F.iuOrphans_ORPHANS (128 + m))

/-- Every slot of the window is filled. -/
def State.imFull (s : State) (m : Nat) (w : Window) : Bool :=
  (List.range (s.imStops m)).all fun i => (Tab.find i w.fills).isSome

/-- An edge of unit `u` stamped `st`, its code linearised, reaches measurement `m` (spec/09 R302 to R306); with WINDOW_NS 0 no stop is held:
it is an orphan at once (spec/13 R420). (DEDUCED, log entry 50) -/
def State.imEdge (s : State) (m u : Nat) (st : Stamp) (code : BitVec 12) : State :=
  if !s.flag (F.imCfg_EN m) then s
  else
    let x := s.im m
    let tb := s.fld (F.imCfg_TB m)
    let t := (s.toCounter tb st).getD st
    let f : StopFill := { stamp := t, tick := s.time.tick, ran := s.edgeTick tb code, suspect := s.dipAt st }
    let starts := s.fld (F.imCfg_START m) == u
    let slots := (List.range (s.imStops m)).filter fun i => s.imStop m i == u
    match x.win with
    | some w =>
      match slots.find? fun i => (Tab.find i w.fills).isNone with
      | some i =>
        let w := { w with fills := Tab.ins i f w.fills }
        let s := s.modIm m fun x => { x with win := some w }
        if s.imFull m w then s.imEnd m else s
      | none => if starts then s.modIm m fun x => { x with win := some { w with overlap := true } } else s
    | none =>
      if starts then
        let w : Window := { stamp := t, tick := s.time.tick, ran := s.edgeTick tb code, suspect := s.dipAt st, fills := x.pend.map fun p => (p.1, { p.2 with order := true }) }
        let s := (s.modIm m fun x => { x with win := some w, pend := [] }).showIm m
        if s.fld (F.imWindow_WINDOW_NS m) = 0 ∨ s.imFull m w then s.imEnd m else s
      else if s.flag (F.imCfg_PRE_STOP m) then
        match slots with
        | [] => s
        | i :: _ =>
          if s.fld (F.imWindow_WINDOW_NS m) = 0 then s.imOrphan m u f
          else
            let s := match Tab.find i x.pend with
              | some p => s.imOrphan m u p
              | none => s
            (s.modIm m fun x => { x with pend := Tab.ins i f x.pend }).showIm m
      else s

/-- A pending stop reaches the end of its hold (spec/09 R305). -/
def State.imExpire (s : State) (m i : Nat) : State :=
  match Tab.find i (s.im m).pend with
  | none => s
  | some p => ((s.imOrphan m (s.imStop m i) p).modIm m fun x => { x with pend := Tab.del i x.pend }).showIm m

/-- The configuration of measurement `m` has changed at a boundary: an open window ends, pending stops are discarded (spec/13 R419).
Called before the new words are in force. -/
def State.imConfig (s : State) (m : Nat) : State :=
  ((s.imEnd m).modIm m fun x => { x with pend := [], tables := [] }).showIm m

/-- A new linearisation table of unit `u` takes effect in measurements that hold an edge (spec/09 R301). -/
def State.imTable (s : State) (u : Nat) : State :=
  s.each (s.meas.im.map (·.1)) fun s m => s.modIm m fun x =>
    if x.win.isNone && x.pend.isEmpty then x else { x with tables := (u, s.time.tick) :: x.tables }

/-- The orphan stops of the beat that ends, one record a source (spec/09 R305). -/
def State.imOrphans (s : State) (m : Nat) : State :=
  let s := s.each (s.im m).orphans fun s p =>
    (s.measDone { unit := m, key := m, data := packLE 1024 ([(0, 1, m), (1, 1, 2), (3, 1, s.fld (F.imCfg_TB m)),
      (4, 2, bit p.2.suspect + 16 * bit p.2.coincident), (6, 2, sat 0xFFFF p.2.count), (8, 1, 128 + p.1), (24, 4, (s.im m).seq.toNat)] ++
      Stamp.fields p.2.stamp 12) }).modIm m fun x => { x with seq := x.seq + 1 }
  s.modIm m fun x => { x with orphans := [] }

/-! ### Merged edges (spec/09 R303) -/

/-- An edge merges into the edge of unit `u` accepted at tick `t`. -/
def StopFill.merge (f : StopFill) (own : Bool) (t : Nat) : StopFill := if own && f.tick == t then { f with merged := f.merged + 1 } else f

def MeasRec.merge (r : MeasRec) (u t : Nat) : MeasRec :=
  { r with data := r.marks.foldl (fun d k =>
      if k.2.1 = u ∧ k.2.2 = t then
        let d := putField d k.1 2 (sat 0xFFFF (byteField d k.1 2 + 1))
        let d := if k.1 = 6 then d else putField d (k.1 - 1) 1 (byteField d (k.1 - 1) 1 ||| 1)
        putField d 4 2 (byteField d 4 2 ||| 16)
      else d) r.data }

def State.imMerge (s : State) (m u t : Nat) : State :=
  if (Tab.find m s.meas.im).isNone then s
  else
    let own (i : Nat) : Bool := s.imStop m i == u
    let fill (p : Nat × StopFill) : Nat × StopFill := (p.1, p.2.merge (own p.1) t)
    s.modIm m fun x => { x with
      pend := x.pend.map fill,
      win := x.win.map fun w => { w with
        merged := if s.fld (F.imCfg_START m) = u ∧ w.tick = t then w.merged + 1 else w.merged, fills := w.fills.map fill } }

/-! ### Frequency measurements (spec/13 R423 to R427) -/

/-- RUNNING and LONG. -/
def State.showFm (s : State) (f : Nat) : State :=
  (s.setF (F.fmStatus_RUNNING f) (bit (s.fm f).gate.isSome)).setF (F.fmStatus_LONG f) (bit (s.fm f).owner.isSome)

/-- A gate of `n` beats begins at the present boundary. -/
def State.fmOpen (s : State) (f src tb pre n : Nat) : State :=
  (s.modFm f fun x => { x with
    gate := some { src := src, tb := tb, pre := pre, start := (s.cnt tb).stamp, startTick := s.time.tick, left := n, suspect := s.inDip } }).showFm f

/-- A gate of the FM's own configuration begins, where it is enabled (spec/13 R423). -/
def State.fmStart (s : State) (f : Nat) : State :=
  if s.flag (F.fmCfg_EN f) ∧ (s.fm f).owner.isNone ∧ (s.fm f).gate.isNone then
    s.fmOpen f (s.fld (F.fmCfg_SRC f)) (s.fld (F.fmCfg_TB f)) (min 24 (s.fld (F.fmCfg_PRESCALE f)))
      (100 * max 1 (min 1000 (s.fld (F.fmGate_GATE_MS f))))
  else s

/-- A stamped edge, the `n`-th of unit `u` and at time `at'`, reaches FM `f`: less than 1 µs, 1,600 ticks, after the last stamp taken it
is skipped (spec/13 R424). -/
def State.fmEdge (s : State) (f u n : Nat) (st : Stamp) (at' : Nat) : State :=
  match (s.fm f).gate with
  | none => s
  | some g =>
    if g.src ≠ u ∨ g.susp ∨ n % 2 ^ g.pre ≠ 0 then s
    else if (g.xs.head?).any (fun p => decide (at' < p.2.2 + 1600 * 4096)) then
      (s.modFm f fun x => { x with gate := some { g with skipped := g.skipped + 1 } }).bump (F.fmSkipped_COUNT f)
    else
      let t := (s.toCounter g.tb st).getD st
      s.modFm f fun x => { x with gate := some { g with xs := (n, t, at') :: g.xs } }

/-- The fit of a gate's stamps (spec/13 R425): FREQ, RESID and T_FIRST; zeros with fewer than three. Stamps oldest first, in 2^-16 ns. -/
def fmFit (l : List (Nat × Int)) : Nat × Nat × Int :=
  match l with
  | [] => (0, 0, 0)
  | (x0, y0) :: _ =>
    let n : Int := l.length
    let p := l.map fun q => ((q.1 : Int) - x0, q.2 - y0)
    let sx := p.foldl (fun a q => a + q.1) 0
    let sy := p.foldl (fun a q => a + q.2) 0
    let sxx := n * p.foldl (fun a q => a + q.1 * q.1) 0 - sx * sx
    let sxy := n * p.foldl (fun a q => a + q.1 * q.2) 0 - sx * sy
    let syy := n * p.foldl (fun a q => a + q.2 * q.2) 0 - sy * sy
    if n < 3 ∨ sxx ≤ 0 ∨ sxy ≤ 0 then (0, 0, 0)
    else (((1000000000 * 65536 * 2 ^ 32 : Int) * sxx / sxy).toNat,
      Nat.sqrt ((syy * sxx - sxy * sxy) * 10 ^ 12 / (n * sxx * (n - 2) * 2 ^ 32)).toNat,
      y0 + (sy * sxx - sxy * sx) / (n * sxx))

/-- The record of FM `f` (spec/13 R427); a step at the gate's first or last boundary is not in the gate. -/
def State.fmRecord (s : State) (f : Nat) (g : Gate) : BitVec 1024 :=
  let stepped := s.stepIn g.tb g.startTick (g.endTick - 1)
  let at' := Tab.get s.time.stepTick 0 g.tb
  let ran (p : Nat) : Nat := if g.tb = 0 then (p + 4095) / 4096 else p / 4096
  let xs := g.xs.reverse.map fun p =>
    (p.1, (p.2.1 : Int) - (if stepped && decide (at' ≤ ran p.2.2 + 1) then s.stepOf g.tb else 0))
  let r := fmFit xs
  let few := decide (xs.length < 3)
  let long := (s.fm f).owner.isSome
  let first := (xs.head?.map (·.1)).getD 0
  let last := (g.xs.head?.map (·.1)).getD 0
  packLE 1024 ([(0, 1, f), (1, 1, 3), (2, 1, g.pre), (3, 1, g.tb),
    (4, 2, bit g.suspect + 2 * bit stepped + 4 * bit g.calSpan + 8 * bit few + 16 * bit long + 32 * bit g.suspended),
    (8, 1, 128 + g.src), (24, 4, (s.fm f).seq.toNat), (28, 4, g.passed / 100), (32, 8, r.1), (40, 8, xs.length), (48, 8, last - first),
    (56, 4, sat (2 ^ 32 - 1) r.2.1), (60, 4, sat (2 ^ 32 - 1) g.skipped)] ++ Stamp.fields g.start 12 ++ Stamp.fields r.2.2.toNat 64)

/-- A beat of the gate ends at the present boundary: it counts unless the gate was suspended in it; from here on the gate is suspended
while its operation is (spec/13 R423, R428). -/
def Gate.pass (g : Gate) (suspended : Bool) (tick : Nat) : Gate :=
  let g := if g.susp then g else { g with left := g.left - 1, passed := g.passed + 1 }
  if g.left = 0 then { g with endTick := tick } else { g with susp := suspended, suspended := g.suspended || suspended }

/-- The long operation that owns FM `f` is suspended. -/
def State.fmHeld (s : State) (f : Nat) : Bool := ((s.fm f).owner.bind s.longAt).any (·.state == .suspended)

/-- The gate of FM `f` at the boundary that ends a beat; at its last one it is closed, and its record is due at once (spec/13 R423). (DEDUCED, log entry 50) -/
def State.fmPass (s : State) (f : Nat) : State :=
  match (s.fm f).gate with
  | none => s
  | some g =>
    let g := g.pass (s.fmHeld f) s.time.tick
    (s.modFm f fun x => if g.left = 0 then { x with gate := none, ended := some g } else { x with gate := some g }).showFm f

/-- FM `f` is free of the long operation that owned it; no record is written (spec/13 R428). -/
def State.fmRelease (s : State) (f : Nat) : State :=
  (s.modFm f fun x => { x with gate := none, ended := none, owner := none, begins := none }).showFm f

/-- A change of the FM's configuration abandons the gate (spec/13 R423), and the boundary starts another; while a long operation owns the
FM, none. -/
def State.fmConfig (s : State) (f : Nat) : State :=
  if (s.fm f).owner.isSome then s
  else
    let s := s.when (s.fm f).gate.isSome fun s => s.bump (F.fmAbandoned_COUNT f)
    (s.modFm f fun x => { x with gate := none }).showFm f

/-- A new linearisation table of unit `u` takes effect in gates that stamp it (spec/13 R426). -/
def State.fmTable (s : State) (u : Nat) : State :=
  s.each (s.meas.fm.map (·.1)) fun s f => s.modFm f fun x => { x with
    gate := x.gate.map fun g => if g.src = u then { g with calSpan := true } else g }

/-- DIP begins: open gates are flagged (spec/13 R426). -/
def State.fmDip (s : State) : State :=
  s.each (s.meas.fm.map (·.1)) fun s f => s.modFm f fun x => { x with gate := x.gate.map fun g => { g with suspect := true } }

/-! ### Edges (spec/13 R415 to R417; spec/09 R302, R303) -/

/-- The stamp of an edge at a pin's unit (spec/09 R293, R295): the fused delay, corrected for the measured temperature at 0.10 ps/°C (R297),
4,096/10,000 of 2^-16 ns per 0.0625 °C. (DEDUCED, log entry 50) -/
def State.pinStamp (s : State) (u : Nat) (code : BitVec 12) : Stamp :=
  s.stampBy { code := code } (-((Config.pinDelay u).toNat * 10000 +
    (sgn 16 s.fabricTemp.toNat - sgn 16 (Config.pinTemp u).toNat) * 4096)) 10000

/-- Time of an edge whose measurement ends on the present tick, in 1/4,096 of a tick. -/
def State.edgeTime (s : State) (code : BitVec 12) : Nat := 4096 * s.time.tick - code.toNat

/-- An edge at unit `u` merges into the one captured last: it comes within two ticks of it (spec/09 R303). -/
def State.merges (s : State) (u : Nat) (code : BitVec 12) : Bool :=
  let last := Tab.get s.meas.last 0 u
  last != 0 && decide (s.edgeTime code ≤ last - 1 + 8192)

/-- An accepted edge at unit `u`: it is counted; within two ticks of a captured edge it merges; else it is captured and every consumer
receives its stamp. (DEDUCED, log entry 50) -/
def State.unitEdge (s : State) (u : Nat) (code : BitVec 12) : State :=
  let n := (Tab.get s.meas.edges 0 u + 1) % 2 ^ 64
  let t := (Tab.get s.meas.last 0 u - 1 + 4095) / 4096
  let s := s.modMeas fun x => { x with edges := Tab.put x.edges 0 u n }
  if s.merges u code then
    let s := (s.bump (F.iuMerged_MERGED (128 + u))).each (List.range 32) fun s m => s.imMerge m u t
    s.modMeas fun x => { x with done := x.done.map fun r => r.merge u t, due := x.due.map fun r => r.merge u t }
  else
    let st := s.pinStamp u code
    let s := (s.modMeas fun x => { x with last := Tab.put x.last 0 u (s.edgeTime code + 1) }).bump (F.iuEdges_EDGES (128 + u))
    let s := s.each (List.range 32) fun s m => s.imEdge m u st code
    s.each (List.range 16) fun s f => s.fmEdge f u n st (s.edgeTime code)

/-! ### Posting (spec/13 R421) -/

/-- A result is discarded. -/
def State.measLose (s : State) (r : MeasRec) : State := (s.bump (F.measLost_COUNT r.unit)).late 6

/-- The boundary that ends a beat: results still unposted are discarded, those of the beat become due. (DEDUCED, log entry 50) -/
def State.measBoundary (s : State) : State :=
  let s := s.each s.meas.due State.measLose
  s.modMeas fun x => { x with due := x.done, done := [], posted := 0 }

/-- The results due are written to the measurement ring, 128 of them in a beat at most, while it has room. (DEDUCED, log entry 50) -/
def State.measPost (s : State) : State :=
  let l := s.meas.due
  let n := 128 - s.meas.posted
  let s := s.modMeas fun x => { x with due := [], posted := x.posted + min n l.length }
  let s := s.each (l.take n) fun s r =>
    if s.ringFree 68 = 0 then (s.bump (F.ringLoss_COUNT 68)).measLose r else s.writeEntry 68 r.data.toNat
  s.each (l.drop n) State.measLose

/-- The record of a gate of FM `f` that has reached its last boundary: it is posted in the beat that boundary begins, a long operation's
is first written to its host buffer, and the operation completes (spec/13 R421, R425, R428). -/
def State.fmEnd (s : State) (f : Nat) : State :=
  match (s.fm f).ended with
  | none => s
  | some g =>
    let r := s.fmRecord f g
    let seq := (s.fm f).seq
    let own := (s.fm f).owner
    let s := match own.bind s.longAt with
      | some o => s.bufWrite o.cmd.src (o.args.getD 5 0) 128 r.toNat
      | none => s
    let s := s.modMeas fun x => { x with due := ({ unit := g.src, data := r, tick := g.endTick, key := 64 + f } : MeasRec).place x.due }
    let s := (s.modFm f fun x => { x with ended := none, seq := x.seq + 1, owner := none }).showFm f
    match own with
    | some h => s.endLong h st.ok (packLE 256 [(0, 4, seq.toNat), (4, 4, g.passed / 100)])
    | none => s

/-- A beat of the measurement block ends: inputs take edges again, the beat's orphan stops and a record that is still to be made are made
with the configuration that they were measured under, gates count the beat (spec/09 R305, spec/13 R415, R419, R423). (DEDUCED, log entry 50) -/
def State.measBegin (s : State) : State :=
  let s := s.modMeas fun x => { x with mute := 0 }
  let s := s.each (s.meas.im.map (·.1)) State.imOrphans
  (s.each (List.range 16) State.fmEnd).each (List.range 16) State.fmPass

/-! ### Scheduled pulses (spec/13 R429 to R434) -/

/-- Pulses that the schedule has: one, COUNT, or no limit. -/
def Sched.limit (x : Sched) : Option Nat := if x.period = 0 then some 1 else if x.count = 0 then none else some x.count

/-- The schedule keeps the limits of R429: its START is a timestamp. -/
def Sched.ok (x : Sched) : Bool :=
  decide (2 ≤ x.width) && (x.period == 0 || decide ((x.width + 2) * 65536 ≤ x.period)) && x.startOk

/-- Number of pulses whose leading edge falls before time `t`. -/
def Sched.before (x : Sched) (t : Stamp) : Nat :=
  let n := if t ≤ x.start then 0 else if x.period = 0 then 1 else (t - x.start + x.period - 1) / x.period
  match x.limit with
  | some m => min n m
  | none => n

/-- A pulse numbered `n` is still to come. -/
def Sched.has (x : Sched) (n : Nat) : Bool := x.en && (match x.limit with | some m => decide (n < m) | none => true)

/-- The shadow set of EVOUT `k` (spec/13 R439). -/
def State.evoutShadow (s : State) (k : Nat) : Sched :=
  { en := s.flag (F.evoutCfg_EN k), pol := s.flag (F.evoutCfg_POL k), adv := s.flag (F.evoutCfg_ADVANCE k),
    tb := if k = 0 then 0 else s.fld (F.evoutCfg_TB k),
    start := (s.fld (F.evoutStartSecHi_SEC_HI k) * 2 ^ 32 + (s.reg (Reg.evoutStartSecLo k)).toNat) * stampSec
      + s.fld (F.evoutStartNs_NS k) * 65536 + s.fld (F.evoutStartFrac_FRAC k),
    startOk := decide (s.fld (F.evoutStartNs_NS k) < 1000000000),
    period := (s.reg (Reg.evoutPeriodNs k)).toNat * 65536 + s.fld (F.evoutPeriodFrac_FRAC k),
    width := (s.reg (Reg.evoutWidth k)).toNat, count := (s.reg (Reg.evoutCount k)).toNat }

/-- ACTIVE: pulses are to come, or one is asserted. -/
def State.showEvout (s : State) (k : Nat) : State :=
  let x := s.evout k
  s.setF (F.evoutStatus_ACTIVE k) (bit (x.high || x.sched.has x.next))

/-- The level of EVOUT `k`, `none` at high impedance: asserted or inactive under its polarity; EVOUT1 to EVOUT15 are low while the main
domain is in reset (spec/13 R429, R433; spec/14 R452). -/
def State.evoutPin (s : State) (k : Nat) : Option Bool :=
  if k ≠ 0 ∧ s.sharedOff F.redundShared_EVOUT (k - 1) then none
  else if k ≠ 0 ∧ !s.up then some false
  else let x := s.evout k
    some (if x.high then !x.pol else x.sched.pol)

/-- Pulses not emitted are counted, and raise EVOUT_SKIP (spec/13 R431, R432, R435). -/
def State.evoutSkip (s : State) (k cause n : Nat) : State :=
  if n = 0 then s
  else (s.bump (F.evoutSkipped_COUNT k) n).raise 0x0A01 16 [(0, 1, k), (1, 1, cause), (4, 4, n), (8, 4, s.time.idx % 100000)]

/-- A schedule replaces that of EVOUT `k` at the present boundary (spec/13 R431, spec/01 R32); `late` is false for a periodic schedule restored
at boot (R433). -/
def State.evoutApply (s : State) (k : Nat) (x : Sched) (late : Bool := true) : State :=
  if !x.ok then s.setF (F.evoutStatus_CFG_ERR k) 1
  else
    let n := if x.en then x.before (s.cnt x.tb).stamp else 0
    let s := (s.modEvout k fun y => { y with sched := x, next := n }).showEvout k
    if late && n != 0 then (s.evoutSkip k 1 n).late 4 else s

/-- Delay from a programmed time to the crossing at the ball of EVOUT `k` (spec/02 R72): the fused one, corrected by 0.2 ps/°C, 8,192/10,000 of
2^-16 ns per 0.0625 °C, for what the temperature differs from that of the fused measurement (spec/13 R430). (PRESUMED, log entry 65) -/
def State.evoutDelay (s : State) (k : Nat) : Int :=
  (Config.fuseEvoutDelay k).toNat + roundDiv ((sgn 16 s.fabricTemp.toNat - sgn 16 (Config.fuseEvoutTemp k).toNat) * 8192) 10000

/-- When an edge of EVOUT `k` programmed for time `t` is launched: early by the fused delay with ADVANCE (spec/13 R430). -/
def State.evoutLaunch (s : State) (k : Nat) (adv : Bool) (t : Stamp) : Int := (t : Int) - (if adv then s.evoutDelay k else 0)

/-- The tick on which an edge launched at `l` in the time of anchor `a` is placed, the one at or before it, has come. -/
def State.evoutDue (s : State) (a : Nat) (l : Int) : Bool :=
  let c := s.cnt a
  decide (l * 2 ^ 28 < (c.val : Int) + c.incr.toNat)

/-- The fine delay of an edge placed on the present tick, in steps of 625/64 ps, 640 units (spec/13 R430). -/
def State.evoutFine (s : State) (a : Nat) (l : Int) : Nat := (roundDiv (l * 2 ^ 28 - (s.cnt a).val) (640 * 2 ^ 28)).toNat

/-- Where an edge placed on the present tick falls, in 1/64 of a tick. -/
def State.evoutPos (s : State) (a : Nat) (l : Int) : Nat := 64 * s.time.tick + s.evoutFine a l

/-- The edge is placed on the present tick with its fine delay. -/
def State.evoutPlace (s : State) (k a : Nat) (l : Int) : State :=
  let v := (s.cnt a).val
  let n := s.evoutFine a l
  s.modEvout k fun y => { y with fine := n, cross := (((v + n * 640 * 2 ^ 28) / 2 ^ 28 : Nat) + s.evoutDelay k).toNat }

/-- The leading edge of the next pulse, or the trailing edge of the one asserted, falls due (spec/13 R429 to R431); before its tick nothing
happens. -/
def State.evoutEdge (s : State) (k : Nat) (trailing : Bool) : State :=
  let x := s.evout k
  let t := if trailing then x.fall else x.sched.start + x.next * x.sched.period
  let a := if trailing then x.tb else x.sched.tb
  let l := s.evoutLaunch k (if trailing then x.adv else x.sched.adv) t
  if !s.evoutDue a l then s
  else if trailing then
    if x.high then ((s.evoutPlace k a l).modEvout k fun y => { y with high := false, trail := s.evoutPos a l + 1 }).showEvout k else s
  else if !x.sched.has x.next then s
  else if x.high ∨ (x.trail ≠ 0 ∧ s.evoutPos a l + 1 < x.trail + 128) then
    ((s.modEvout k fun y => { y with next := y.next + 1 }).showEvout k).evoutSkip k 2 1
  else
    ((s.evoutPlace k a l).modEvout k fun y => { y with
      high := true, next := y.next + 1, pol := x.sched.pol, tb := a, fall := t + x.sched.width * 65536, adv := x.sched.adv }).showEvout k

/-- Anchor `a` has stepped: no pulse is repeated or bunched, and one that is asserted keeps its width (spec/13 R431, R432). -/
def State.evoutStep (s : State) (a : Nat) : State :=
  s.each (s.meas.evout.map (·.1)) fun s k =>
    let s := s.when ((s.evout k).high && (s.evout k).tb == a) fun s =>
      s.modEvout k fun y => { y with fall := (y.fall + s.stepOf a).toNat }
    let x := s.evout k
    if x.sched.tb ≠ a ∨ !x.sched.en then s
    else
      let n := x.sched.before ((s.cnt a).stamp + 1)
      if n ≤ x.next then s else ((s.modEvout k fun y => { y with next := n }).showEvout k).evoutSkip k 0 (n - x.next)

/-- Order 7: loads that are due take effect (spec/13 R431, R434); a name skipped by a step completes with BAD_STATE. -/
def State.evoutLoads (s : State) (k : Nat) : State :=
  let x := s.evout k
  let due := x.loads.filter fun l => s.dueName l.2.1
  let gone := x.loads.filter fun l => s.skippedName l.2.1
  let s := s.when (!x.loads.isEmpty) fun s => s.modEvout k fun y => { y with
    loads := y.loads.filter fun l => !(s.dueName l.2.1) && !(s.skippedName l.2.1) }
  let s := s.each gone fun s l => (s.finish l.1 st.badState).late 8
  let s := s.each due fun s l => (s.evoutApply k l.2.2).finish l.1 st.ok s.boundaryData
  if s.flag (F.evoutCfg_LOAD k) then (s.setF (F.evoutCfg_LOAD k) 0).evoutApply k (s.evoutShadow k) else s

/-- A held boundary defers the loads it would have made (spec/14 R446). -/
def State.evoutDefer (s : State) (k : Nat) : State :=
  if (s.evout k).loads.isEmpty then s
  else s.modEvout k fun y => { y with loads := y.loads.map fun l => if s.dueName l.2.1 then (l.1, none, l.2.2) else l }

/-- EVOUT1 to EVOUT15 start their restored schedules at boot (spec/13 R433); a single pulse whose time has passed is late. -/
def State.evoutBoot (s : State) : State :=
  s.each ((List.range 16).drop 1) fun s k =>
    if s.flag (F.evoutCfg_EN k) then s.evoutApply k (s.evoutShadow k) ((s.evoutShadow k).period == 0) else s

end Sys2Proof.Machine
end

