-- ==== Sys2Proof/Machine/Cal.lean ====
section
/-!
DEFINITION. Sys2Proof/Machine/Cal.lean: self-calibration (spec/11): what makes runs due, the slots of a beat, path runs and chunks,
results taking effect, the link figures of a port; and the commands and events of that chapter.
-/
namespace Sys2Proof.Machine
open Sys2Proof

def State.modCal (s : State) (f : CalSt → CalSt) : State := { s with cal := f s.cal }
def State.pathCal (s : State) (n : Nat) : PathCal := Tab.get s.cal.path {} n
def State.modPath (s : State) (n : Nat) (f : PathCal → PathCal) : State :=
  s.modCal fun x => { x with path := Tab.put x.path {} n (f (s.pathCal n)) }
def State.interpCal (s : State) (u : Nat) : InterpCal := Tab.get s.cal.interp {} u
def State.modInterp (s : State) (u : Nat) (f : InterpCal → InterpCal) : State :=
  s.modCal fun x => { x with interp := Tab.put x.interp {} u (f (s.interpCal u)) }

/-- Capture paths of a unit (spec/11 R364). -/
def iuPaths (u : Nat) : Nat := if u < 128 then 4 else 1

/-- A lane's runs, or a unit's, are held (spec/11 R372). -/
def State.calHeld (s : State) (u : Nat) : Bool :=
  if u < 128 then s.flag (F.laneCalCfg_HOLD u) else bitAt s.cal.hold.toNat (u - 128)

/-- State code of a calibration: IDLE, DUE, RUNNING, HELD (spec/11 R374). -/
def calCode (why : Option CalWhy) (running held : Bool) : Nat :=
  if running then 2 else if held then 3 else if why.isSome then 1 else 0

/-- The status registers of lane `n` and of interval unit `n` follow the state. -/
def State.showCal (s : State) (n : Nat) : State :=
  let p := s.pathCal n
  let i := s.interpCal n
  let s := if n < 128 then
      ((s.setF (F.laneCalStatus_STATE n) (calCode p.why (p.running || p.done.isSome) (s.calHeld n))).setF
        (F.laneCalStatus_POST_TRAIN n) (bit (p.why == some .postTrain))).setF (F.laneCalStatus_OVERDUE n) (bit (p.overdue || i.overdue))
    else s
  (s.setF (F.iucalState_STATE n) (calCode i.why i.started (s.calHeld n))).setF (F.iucalState_CHUNKS n) (min 255 i.hist)

/-- Order of the reasons (spec/11 R361). (DEDUCED, log entry 34) -/
def whyRank : CalWhy → Nat
  | .postTrain => 0
  | .temp => 1
  | .joined => 2
  | .period => 3
  | .sweep => 4

/-- With AUTO clear, only POST_TRAIN, main-reset and sweep runs are made (spec/11 R360, R377). -/
def State.whyOff (s : State) (u : Nat) (w : CalWhy) : Bool :=
  (w == .temp || w == .period) && !(if u < 128 then s.flag (F.laneCalCfg_AUTO u) else s.flag F.iucalCfg_AUTO)

/-- The stronger of a reason that stands and a new one. -/
def strongWhy (old : Option CalWhy) (new : CalWhy) : CalWhy :=
  match old with
  | none => new
  | some o => if whyRank o ≤ whyRank new then o else new

/-- A path run of lane `n` becomes due; the triggers of R360 fire once each until what they measure from is taken anew. -/
def State.pathDue (s : State) (n : Nat) (w : CalWhy) : State :=
  (s.modPath n fun x => { x with
    why := some (strongWhy x.why w), dueTick := if x.why.isSome then x.dueTick else s.time.tick,
    sweep := x.sweep || w == .sweep, tempFired := x.tempFired || w == .temp, periodFired := x.periodFired || w == .period }).showCal n

/-- A calibration with nothing collected. -/
def InterpCal.anew (x : InterpCal) : InterpCal :=
  { x with started := false, path := 0, segs := 0, hist := 0, running := false, masks := [], spans := [], edges := [], tables := [], ready := false }

/-- An interpolator calibration of unit `u` becomes due; one in progress starts again where `again` (spec/11 R365). -/
def State.interpDue (s : State) (u : Nat) (w : CalWhy) (again : Bool) : State :=
  (s.modInterp u fun x =>
    let y : InterpCal := { x with
      why := some (strongWhy x.why w), dueTick := if x.why.isSome then x.dueTick else s.time.tick,
      sweep := x.sweep || w == .sweep, tempFired := x.tempFired || w == .temp, periodFired := x.periodFired || w == .period }
    if again then y.anew else y).showCal u

/-- A trigger of lane `n` fires (spec/11 R360, R365). -/
def State.laneDue (s : State) (n : Nat) (w : CalWhy) : State := (s.pathDue n w).interpDue n w (s.interpCal n).started

/-- The port of lane `n` has entered ACTIVE from TRAIN (spec/11 R360). -/
def State.calTrained (s : State) (n : Nat) : State := s.laneDue n .postTrain

/-- The main domain joins the beat: every lane and unit is due (spec/11 R360). -/
def State.calJoin (s : State) : State :=
  let s := s.each (List.range 128) fun s n => s.laneDue n .joined
  s.each (List.range 32) fun s k => s.interpDue (128 + k) .joined false

/-- A path run of lane `n` is discarded, and stays due (spec/11 R359). -/
def State.pathDrop (s : State) (n : Nat) : State :=
  let x := s.pathCal n
  if x.running then
    let s := s.when x.sweep fun s => s.modCal fun c => { c with sweepDisc := c.sweepDisc + 1 }
    (s.modPath n fun x => { x with running := false }).showCal n
  else s

/-- A chunk of unit `u` is discarded; those collected are kept (spec/11 R365). (DEDUCED, log entry 34) -/
def State.chunkDrop (s : State) (u : Nat) : State :=
  if (s.interpCal u).running then (s.modInterp u fun x => { x with running := false }).showCal u else s

/-- DIP begins: runs in progress are discarded (spec/03 R106). -/
def State.calDip (s : State) : State :=
  let s := s.each (s.cal.path.map (·.1)) State.pathDrop
  s.each (s.cal.interp.map (·.1)) State.chunkDrop

/-- The boundary finds runs unfinished: late, discarded (spec/01 R32, spec/11 R359, R365). -/
def State.calLate (s : State) : State :=
  let ps := (s.cal.path.filter (·.2.running)).map (·.1)
  let us := (s.cal.interp.filter (·.2.running)).map (·.1)
  ((s.each ps State.pathDrop).each us State.chunkDrop).late 5 (ps.length + us.length)

/-- Link states in which a run may start: ACTIVE, and QUARANTINE or LOOP for a sweep (spec/11 R359, R372). -/
def State.calPortOk (s : State) (n : Nat) (w : CalWhy) : Bool :=
  let st := s.link n
  st == 5 || (w == .sweep && (st == 8 || st == 9))

/-- An adaptation burst of lane `n` is in progress (spec/04 R136). -/
def State.inBurst (s : State) (n : Nat) : Bool := decide (s.time.tick < Tab.get s.cal.burst 0 n)

/-- The sensor of interval unit `u` (spec/11 R360, R365). -/
def State.unitTemp (s : State) (u : Nat) : BitVec 16 := if u < 128 then (s.pathCal u).temp else s.fabricTemp

/-- A beat without a gap for a path run of lane `n`: an adaptation burst or an eye scan takes the shadow sampler (spec/11 R361). -/
def State.noGap (s : State) (n : Nat) : Bool := bitAt s.cal.eye.toNat n || s.inBurst n

/-- What a run due for `w` may start for: that, where its port and AUTO let it; else the sweep that asks for it too, unless it is suspended
(spec/11 R359, R360, R372). -/
def State.runWhy (s : State) (u : Nat) (w : CalWhy) (path sweep : Bool) : Option CalWhy :=
  let at' (w : CalWhy) : Bool := !path || s.calPortOk u w
  if w != .sweep && at' w && !s.whyOff u w then some w
  else if (sweep || w == .sweep) && at' .sweep && !s.cal.sweepHold then some .sweep
  else none

/-- Work that may start in a slot of this beat (spec/11 R361): the order's entry, the order within it, unit, path run or chunk. (DEDUCED, log entry 34) -/
def State.calWork (s : State) : List (Nat × Nat × Nat × Bool) :=
  let paths := s.cal.path.filterMap fun p =>
    match p.2.why.bind fun w => s.runWhy p.1 w true p.2.sweep with
    | none => none
    | some w =>
      if p.2.running || p.2.done.isSome || s.calHeld p.1 || s.noGap p.1 then none
      else
        let moved := (sgn 16 p.2.temp.toNat - sgn 16 (s.fld (F.laneCalStatus_TEMP_LAST p.1))).natAbs
        match w with
        | .postTrain => some (1, 0, p.1, true)
        | .temp => some (2, 65536 - moved, p.1, true)
        | .joined | .period => some (5, 0, p.1, true)
        | .sweep => some (6, 0, p.1, true)
  let chunks := s.cal.interp.filterMap fun p =>
    match p.2.why with
    | none => none
    | some w =>
      if p.2.running || p.2.ready || s.calHeld p.1 then none
      else if p.2.started then some (3, 0, p.1, false)
      else (s.runWhy p.1 w false p.2.sweep).map fun w => (if w == .sweep then 6 else 4, 0, p.1, false)
  paths ++ chunks

/-- Each lane with a path run due remembers whether this beat has a gap for it (spec/11 R373). -/
def State.markGaps (s : State) : State :=
  s.modCal fun x => { x with path := x.path.map fun p => (p.1, if p.2.why.isSome then { p.2 with noGap := s.noGap p.1 } else p.2) }

/-- Keep the elements in order of `key`, by insertion. -/
def insertBy {α : Type} (key : α → Nat) (x : α) : List α → List α
  | [] => [x]
  | y :: t => if key x < key y then x :: y :: t else y :: insertBy key x t

def sortBy {α : Type} (key : α → Nat) (l : List α) : List α := l.foldl (fun a x => insertBy key x a) []

/-- Tick 16: up to eight slots start; none in DIP or while CORE2's firmware is replaced (spec/11 R361, spec/03 R106, spec/01 R44). (DEDUCED, log entry 34) -/
def State.calSlots (s : State) : State :=
  if s.inDip || s.replaced 2 then s
  else
    let go := (sortBy (fun w => (w.1 * 131072 + w.2.1) * 256 + w.2.2.1) s.calWork).take 8
    s.markGaps.each go fun s w =>
      let u := w.2.2.1
      if w.2.2.2 then
        ((s.modPath u fun x => { x with running := true, startTemp := x.temp, tempFired := false }).setF (F.laneCalStatus_TEMP_LAST u)
          (s.pathCal u).temp.toNat).showCal u
      else
        let first := !(s.interpCal u).started
        let t := s.unitTemp u
        let s := if first then (s.modInterp u fun x => { x with startTemp := t, tempFired := false }).setF (F.iucalState_TEMP_LAST u) t.toNat else s
        (s.modInterp u fun x => { x with started := true, running := true }).showCal u

/-- Words of the time a result took effect: fraction, nanoseconds, seconds. -/
def State.showTime (s : State) (frac ns lo hi : Fld) (t : Stamp) : State :=
  (((s.setF frac (Stamp.frac t)).setF ns (Stamp.ns t)).setF lo (Stamp.sec t % 2 ^ 32)).setF hi (Stamp.sec t / 2 ^ 32)

/-- CAL_DONE (spec/11 R373). -/
def State.calEvent (s : State) (evt : Bool) (u kind count : Nat) (temp : BitVec 16) (codes : List Nat) : State :=
  if evt then
    s.raise 0x0801 32 ([(0, 2, u), (2, 1, kind), (4, 4, count), (20, 2, temp.toNat)] ++ Stamp.fields s.now 8 ++
      [(22, 2, codes.getD 0 0), (24, 2, codes.getD 1 0), (26, 2, codes.getD 2 0), (28, 2, codes.getD 3 0)])
  else s

/-- A run of the sweep has been completed (spec/11 R372, spec/15 R477). -/
def State.sweepRun (s : State) : State :=
  (s.modCal fun c => { c with sweepDone := c.sweepDone + 1 }).modOp 0x0801 fun o => { o with progress := o.progress + 1 }

/-- A completed path run takes effect at the boundary (spec/11 R357, R358, R366). -/
def State.pathApply (s : State) (n : Nat) : State :=
  let x := s.pathCal n
  match x.done with
  | none => s
  | some r =>
    let s := s.modPath n fun x => { x with
      done := none, why := none, sweep := false, overdue := false, rxTrim := r.rxTrim, txTrim := r.txTrim, trimmed := true,
      lastTick := s.time.tick, periodFired := false, noGap := false }
    let s := s.when x.sweep State.sweepRun
    let s := (s.setF (F.laneCalCodes_TX_ELEM n) r.txElem.toNat).setF (F.laneCalCodes_RX_ELEM n) r.rxElem.toNat
    let s := (s.setReg (Reg.laneCalTxDelay n) r.txDelay).setReg (Reg.laneCalRxDelay n) r.rxDelay
    let s := (s.setF (F.laneCalStatus_FACTORY n) 0).setReg (Reg.laneCalCount n) (s.reg (Reg.laneCalCount n) + 1)
    let s := s.showTime (F.laneCalTimeFrac_FRAC n) (F.laneCalTimeNs_NS n) (F.laneCalTimeSecLo_SEC_LO n) (F.laneCalTimeSecHi_SEC_HI n) s.now
    ((s.showCal n).showComp n).calEvent (s.flag (F.laneCalCfg_EVT n)) n 0 (s.reg (Reg.laneCalCount n)).toNat x.startTemp
      [r.txElem.toNat, r.rxElem.toNat]

/-- A completed table set takes effect at the boundary (spec/11 R364, R366). -/
def State.interpApply (s : State) (u : Nat) : State :=
  let x := s.interpCal u
  if !x.ready then s
  else
    let m (i : Nat) : Nat := (Tab.get x.masks 0 i).toNat
    let s := s.modInterp u fun x => { x.anew with why := none, sweep := false, overdue := false, lastTick := s.time.tick, periodFired := false }
    let s := s.modCal fun c => { c with tables := x.tables.foldl (fun t p => Tab.ins (4 * u + p.1) p.2 t) c.tables }
    let s := s.when x.sweep State.sweepRun
    let s := ((s.setF (F.iucalSeg01_SEG0 u) (m 0)).setF (F.iucalSeg01_SEG1 u) (m 1))
    let s := ((s.setF (F.iucalSeg23_SEG2 u) (m 2)).setF (F.iucalSeg23_SEG3 u) (m 3))
    let s := (s.setF (F.iucalState_FACTORY u) 0).setReg (Reg.iucalCount u) (s.reg (Reg.iucalCount u) + 1)
    let s := s.showTime (F.iucalTimeFrac_FRAC u) (F.iucalTimeNs_NS u) (F.iucalTimeSecLo_SEC_LO u) (F.iucalTimeSecHi_SEC_HI u) s.now
    let evt := if u < 128 then s.flag (F.laneCalCfg_EVT u) else s.flag F.iucalCfg_EVT
    let s := s.when (128 ≤ u) fun s => (s.fmTable (u - 128)).imTable (u - 128)
    (s.showCal u).calEvent evt u 1 (s.reg (Reg.iucalCount u)).toNat x.startTemp [m 0, m 1, m 2, m 3]

/-- A CAL_SWEEP ends with its last run (spec/11 R372). -/
def State.sweepEnd (s : State) : State :=
  if (s.cal.path.any fun p => p.2.sweep) || (s.cal.interp.any fun p => p.2.sweep) then s
  else
    match s.host.longOps.find? fun o => o.op == 0x0801 && o.state == .running with
    | none => s
    | some o => s.endLong o.handle st.ok (packLE 256 [(0, 4, s.cal.sweepDone), (4, 4, s.cal.sweepDisc)])

/-- What the boundary does for calibration: late runs, results, and once a second the period of units 128 to 159 (spec/11 R365). -/
def State.calBoundary (s : State) : State :=
  let s := s.calLate
  let s := s.each (s.cal.path.map (·.1)) State.pathApply
  let s := s.each (s.cal.interp.map (·.1)) State.interpApply
  let s := s.sweepEnd
  let max' := s.fld F.iucalPeriod_MAX_S
  if s.time.bounds % 100000 = 0 ∧ s.flag F.iucalCfg_AUTO ∧ max' ≠ 0 then
    s.each (List.range 32) fun s k =>
      let x := s.interpCal (128 + k)
      if !x.periodFired && decide (x.lastTick + max' * 1600000000 ≤ s.time.tick) then s.interpDue (128 + k) .period x.started else s
  else s

/-- Runs of a CAL_SWEEP. -/
def sweepRuns (args : List Nat) : Nat :=
  let l := (maskIdx 128 (args.getD 0 0)).length
  (if bitAt (args.getD 2 0) 0 then l else 0) + if bitAt (args.getD 2 0) 1 then l + (maskIdx 32 (args.getD 1 0)).length else 0

/-- CAL_SWEEP starts: the named runs become due (spec/11 R372). `args` are LANES, UNITS, KINDS. -/
def State.sweepStart (s : State) (args : List Nat) : State :=
  let lanes := maskIdx 128 (args.getD 0 0)
  let kinds := args.getD 2 0
  let s := s.modCal fun c => { c with sweepDone := 0, sweepDisc := 0, sweepHold := false }
  let s := s.when (bitAt kinds 0) fun s => s.each lanes fun s n => s.pathDue n .sweep
  s.when (bitAt kinds 1) fun s =>
    (s.each lanes fun s n => s.interpDue n .sweep false).each (maskIdx 32 (args.getD 1 0)) fun s k => s.interpDue (128 + k) .sweep false

/-- A sweep is cancelled: what it alone has made due is no longer. -/
def State.sweepCancel (s : State) : State :=
  let s := s.each (s.cal.path.map (·.1)) fun s n =>
    (s.modPath n fun x => if x.sweep && !x.running then { x with why := if x.why == some .sweep then none else x.why, sweep := false }
      else { x with sweep := false }).showCal n
  s.each (s.cal.interp.map (·.1)) fun s u =>
    (s.modInterp u fun x => if x.sweep && !x.started then { x with why := if x.why == some .sweep then none else x.why, sweep := false }
      else { x with sweep := false }).showCal u

/-! ### Commands and events -/

/-- How far a temperature is from a TEMP_LAST, in 0.0625 °C. -/
def tempMoved (temp : BitVec 16) (last : Nat) : Int := sgn 16 temp.toNat - sgn 16 last

/-- The temperature trigger of lane `n`, once until its path run starts (spec/11 R360). -/
def State.laneTrigger (s : State) (n : Nat) : State :=
  let moved := (tempMoved (s.pathCal n).temp (s.fld (F.laneCalStatus_TEMP_LAST n))).natAbs
  if s.flag (F.laneCalCfg_AUTO n) && decide (max 1 (s.fld (F.laneCalCfg_TRIG n)) < moved) && s.joinedBeat &&
      !(s.pathCal n).tempFired then s.laneDue n .temp
  else s

/-- The temperature trigger of units 128 to 159, once until their calibration starts (spec/11 R365). -/
def State.unitTrigger (s : State) (u : Nat) : State :=
  let moved := (tempMoved s.fabricTemp (s.fld (F.iucalState_TEMP_LAST u))).natAbs
  let x := s.interpCal u
  if s.flag F.iucalCfg_AUTO && decide (max 1 (s.fld F.iucalCfg_TRIG) < moved) && s.joinedBeat && !x.tempFired then
    s.interpDue u .temp x.started
  else s

/-- CAL_TEMP_CHECK (spec/11 R360; spec/02 R75): the 1 ms read of a temperature sensor: 0 to 127 of the lanes, 128 to 143 of the fabric,
144 of the island. (DESIGN CHOICE, log entry 52) -/
def execCalTempCheck (sensor : Fin 145) (temp : BitVec 16) (s : State) : Host.Outcome State Fault Refusal :=
  let n := sensor.val
  .next (if n = 144 then { s with power := { s.power with islandTemp := temp } }
    else if !s.up then s
    else if n < 128 then (s.modPath n fun x => { x with temp := temp }).laneTrigger n
    else
      let s := s.modCal fun x => { x with temps := Tab.put x.temps 0 (n - 128) temp }
      if n = 140 then s.each ((List.range 32).map (128 + ·)) State.unitTrigger else s)

/-- MAX_S seconds have passed since the last completed path run of lane `n` (spec/11 R360). -/
def State.periodOver (s : State) (n : Nat) : Bool :=
  let m := s.fld (F.laneCalPeriod_MAX_S n)
  m != 0 && decide ((s.pathCal n).lastTick + m * 1600000000 ≤ s.time.tick)

/-- CAL_PERIOD_DUE (spec/11 R360, R365). -/
def execCalPeriodDue (lane : Fin 128) (s : State) : Host.Outcome State Fault Refusal :=
  .next (if s.joinedBeat && s.flag (F.laneCalCfg_AUTO lane.val) && s.periodOver lane.val && !(s.pathCal lane.val).periodFired then
      s.laneDue lane.val .period else s)

/-- CAL_SLOT_START (spec/11 R361, spec/01 R32): tick 16 of the beat. -/
def execCalSlotStart (s : State) : Host.Outcome State Fault Refusal :=
  .next (if s.joinedBeat then (s.toTick 16).calSlots else s)

/-- PATH_RUN_DONE (spec/11 R356, R357): the result waits for the boundary. (DEDUCED, log entry 34) -/
def execPathRunDone (lane : Fin 128) (r : PathRun) (s : State) : Host.Outcome State Fault Refusal :=
  .next (if (s.pathCal lane.val).running then
      (s.modPath lane.val fun x => { x with running := false, done := some r }).showCal lane.val
    else s)

/-- The masks of `k` segments among the lowest `n`. -/
def segMasks : Nat → Nat → List Nat
  | 0, _ => [0]
  | _ + 1, 0 => []
  | k + 1, n + 1 => segMasks (k + 1) n ++ (segMasks k n).map (· + 2 ^ n)

/-- The eight segments selected (spec/11 R364): their spans' sum is nearest 4,095 without exceeding it, and of those with the same sum they
match best, by their largest less their smallest span. Where every sum exceeds 4,095 it is the least. -/
def segSelect (spans : List (BitVec 12)) : BitVec 12 :=
  let span (i : Nat) : Nat := (spans.getD i 0).toNat
  let rank (m : Nat) : Nat :=
    let l := (maskIdx 12 m).map span
    let sum := l.foldl (· + ·) 0
    (if sum ≤ 4095 then 4095 - sum else sum) * 4096 + (l.foldl max 0 - l.foldl min 4095)
  BitVec.ofNat 12 (match segMasks 8 12 with
    | [] => 0
    | m :: l => l.foldl (fun a b => if rank b < rank a then b else a) m)

/-- A chunk of a calibration has given its result: twelve chunks measure a segment each, then 256 collect 4,096 edges each; the next capture
path follows, and after the last one the table set is ready (spec/11 R364). -/
def InterpCal.chunk (x : InterpCal) (paths : Nat) (r : ChunkRes) : InterpCal :=
  match r with
  | .segment span =>
    if x.segs < 12 then
      let spans := x.spans ++ [span]
      { x with
        running := false, segs := x.segs + 1, spans := spans
        masks := if x.segs = 11 then Tab.ins x.path (segSelect spans) x.masks else x.masks }
    else x
  | .edges l =>
    if x.segs < 12 ∨ (l.map (·.2)).foldl (· + ·) 0 ≠ 4096 then x
    else
      let e := l.foldl (fun t p => Tab.put t 0 p.1.toNat (Tab.get t 0 p.1.toNat + p.2)) x.edges
      if x.hist < 255 then { x with running := false, hist := x.hist + 1, edges := e }
      else
        let y := { x with running := false, edges := [], spans := [], tables := Tab.ins x.path e x.tables }
        if x.path + 1 < paths then { y with path := x.path + 1, segs := 0, hist := 0 } else { y with hist := 256, ready := true }

/-- CAL_CHUNK_DONE: the chunk that runs, of the capture path in progress, has ended. (DEDUCED, log entry 34) -/
def execCalChunkDone (iu : Fin 160) (path : Fin 4) (r : ChunkRes) (s : State) : Host.Outcome State Fault Refusal :=
  .next (if (s.interpCal iu.val).running && (s.interpCal iu.val).path == path.val then
      (s.modInterp iu.val fun x => x.chunk (iuPaths iu.val) r).showCal iu.val
    else s)

/-- Why a run that is due has not completed (spec/11 R373): held, its port not ACTIVE, no gap, else the slot budget. (DEDUCED, log entry 34) -/
def State.overdueWhy (s : State) (u : Nat) (interp : Bool) : Nat :=
  if s.calHeld u then 1 else if interp then 2
  else if !s.calPortOk u (if (s.pathCal u).sweep then .sweep else .period) then 3
  else if s.noGap u || (s.pathCal u).noGap then 0 else 2

/-- Ticks after which a run that is due is overdue (spec/11 R363): MAX_WAIT_MS of the lane; its default for units 128 to 159, which have no
such field. (DEDUCED, log entry 34) -/
def State.maxWait (s : State) (u : Nat) : Nat := 1600000 * if u < 128 then max 1 (s.fld (F.laneCalPeriod_MAX_WAIT_MS u)) else 1000

/-- CAL_OVERDUE (spec/11 R363, R373), once for a run that has been due since a tick, for MAX_WAIT_MS; the reason is the state's. -/
def execCalOverdue (iu : Fin 160) (interp _noGap : Bool) (dueTick : Nat) (s : State) : Host.Outcome State Fault Refusal :=
  let u := iu.val
  let last := s.fld (if interp then F.iucalState_TEMP_LAST u else F.laneCalStatus_TEMP_LAST u)
  let due := if interp then (s.interpCal u).why.isSome && !(s.interpCal u).overdue
    else decide (u < 128) && (s.pathCal u).why.isSome && !(s.pathCal u).overdue
  let since := if interp then (s.interpCal u).dueTick else (s.pathCal u).dueTick
  .next (if due && since == dueTick && decide (since + s.maxWait u ≤ s.time.tick) then
      let s := if interp then s.modInterp u fun x => { x with overdue := true } else s.modPath u fun x => { x with overdue := true }
      (s.showCal u).raise 0x0802 16 [(0, 2, u), (2, 1, bit interp), (3, 1, s.overdueWhy u interp),
        (4, 4, ticksMs (s.time.tick - since)), (8, 2, twos 16 (tempMoved (s.unitTemp u) last))]
    else s)

/-- CAL_SWEEP (spec/11 R372): a long operation; BAD_STATE where a named lane or unit is held. -/
def execCalSweep (c : Cmd) (s : State) : Host.Outcome State Fault Refusal :=
  .next (s.start c 0x0801 (c.ok 24 [(21, 3)] && decide (c.fld 20 1 < 4)) fun s =>
    let lanes := c.fld 0 16
    let units := c.fld 16 4
    if (maskIdx 128 lanes).any s.calHeld || (maskIdx 32 units).any fun k => s.calHeld (128 + k) then
      s.complete c 0x0801 st.badState
    else
      let args := [lanes, units, c.fld 20 1]
      s.startLong c 0x0801 0x0801 (sweepRuns args) args fun s _ => s.sweepStart args)

/-- CAL_HOLD (spec/11 R372). -/
def execCalHold (c : Cmd) (s : State) : Host.Outcome State Fault Refusal :=
  .next (s.start c 0x0802 (c.ok 24 [(21, 3)] && decide (c.fld 20 1 < 2)) fun s =>
    let a := c.fld 20 1
    let s := s.each (maskIdx 128 (c.fld 0 16)) fun s n => (s.setF (F.laneCalCfg_HOLD n) a).showCal n
    let u := BitVec.ofNat 32 (c.fld 16 4)
    let s := s.modCal fun x => { x with hold := if a = 1 then x.hold ||| u else x.hold &&& ~~~u }
    (s.each (maskIdx 32 (c.fld 16 4)) fun s k => s.showCal (128 + k)).complete c 0x0802 st.ok)

/-- The link registers of a lane read 0 and are not written unless it is the first lane of a port (spec/11 R376). -/
def State.linkHere (s : State) (n : Nat) : Bool := s.portExists n

/-- A write of LINK_CFG (spec/11 R369, R376): MODE is shadowed; UPD asks for the transfer at the next boundary; NEG_RT clears by 1. -/
def State.linkWrite (s : State) (n : Nat) (v : Word) : State :=
  if !s.linkHere n then s
  else
    let s := s.setF (F.linkCfg_MODE n) ((F.linkCfg_MODE n).of v)
    let s := s.when ((F.linkCfg_NEG_RT n).of v == 1) fun s => s.setF (F.linkCfg_NEG_RT n) 0
    if (F.linkCfg_UPD n).of v = 1 then
      { s.setF (F.linkCfg_UPD n) 1 with servo := { s.servo with linkUpd := s.servo.linkUpd ||| BitVec.ofNat 128 (2 ^ n) } }
    else s

/-- The shadow set of lane `n`: LINK_CFG, TX_EXT, RX_EXT, PTX_EXT, PRX_EXT, COEF, GDELAY. -/
def State.linkShadow (s : State) (n : Nat) : List Word :=
  [s.reg (Reg.linkCfg n), s.reg (Reg.linkTxExt n), s.reg (Reg.linkRxExt n), s.reg (Reg.linkPtxExt n), s.reg (Reg.linkPrxExt n),
    s.reg (Reg.linkCoef n), s.reg (Reg.linkGdelay n)]

/-- The shadow set of lane `n` comes into use. -/
def State.linkLoad (s : State) (n : Nat) : State :=
  { s.setF (F.linkCfg_UPD n) 0 with servo := { s.servo with link := Tab.ins n (s.linkShadow n) s.servo.link } }

/-- Order 4: the transfers asked for; in DIP they wait (spec/11 R369). -/
def State.linkBoundary (s : State) : State :=
  if s.inDip then s
  else
    let go := maskIdx 128 s.servo.linkUpd.toNat
    let s := s.each go State.linkLoad
    { s with servo := { s.servo with linkUpd := 0 } }

/-- LINK_UPD (spec/11 R369). -/
def execLinkUpd (_src : WrSrc) (lane : Fin 128) (value : BitVec 32) (s : State) : Host.Outcome State Fault Refusal :=
  .next (if s.up then s.linkWrite lane.val value else s)

end Sys2Proof.Machine
end

