-- ==== Sys2Proof/Machine/Tables.lean ====
section
/-!
DEFINITION. Sys2Proof/Machine/Tables.lean: the forwarding tables of a pipeline and its learn unit (spec/07): records and
their views, lookups, the forwarding decision of a frame, learning, ageing, flushing, and the writes of the table window.
-/
namespace Sys2Proof.Machine
open Sys2Proof

def State.pipe (s : State) (p : Nat) : PipeSt := Tab.get s.pipes.pipe {} p

def State.modPipe (s : State) (p : Nat) (f : PipeSt → PipeSt) : State :=
  { s with pipes := { s.pipes with pipe := Tab.put s.pipes.pipe {} p (f (s.pipe p)) } }

def State.modFwd (s : State) (p : Nat) (f : FwdSt → FwdSt) : State := s.modPipe p fun x => { x with fwd := f x.fwd }
def State.modParser (s : State) (p : Nat) (f : ParserSt → ParserSt) : State :=
  s.modPipe p fun x => { x with parser := f x.parser }

/-- Add to the 64-bit counter whose low word is at `a` (spec/05 R165, R166). -/
def State.count (s : State) (a : Nat) (n : Nat := 1) : State :=
  { s with ctr := Tab.put s.ctr 0 a ((Tab.get s.ctr 0 a + n) % 2 ^ 64) }

def State.countParse (s : State) (p k : Nat) (n : Nat := 1) : State := s.count (Reg.pipeParseCntLo p k) n
def State.countFwd (s : State) (p k : Nat) (n : Nat := 1) : State := s.count (Reg.pipeFwdCntLo p k) n

/-! ### Views (spec/06 R199, R201, R202, R205) -/

def view.pending : Nat := 0
def view.active : Nat := 1
def view.draining : Nat := 2

def inView (b : BitVec 3) (v : Nat) : Bool := bitAt b.toNat v

/-- A commit: PENDING becomes ACTIVE, ACTIVE becomes DRAINING. -/
def commitView (b : BitVec 3) : BitVec 3 := b <<< 1
/-- DRAINING is cleared and PENDING opens as a copy of ACTIVE. -/
def drainView (b : BitVec 3) : BitVec 3 := (b &&& 2) ||| ((b >>> 1) &&& 1)
/-- PENDING is reset to a copy of ACTIVE. -/
def discardView (b : BitVec 3) : BitVec 3 := (b &&& 6) ||| ((b >>> 1) &&& 1)

/-- Change the views of the records of a table; records left with none are free. -/
def reviewTab {α : Type} (view : α → BitVec 3) (set : α → BitVec 3 → α) (f : BitVec 3 → BitVec 3) (t : Tab α) : Tab α :=
  (t.map fun e => (e.1, set e.2 (f (view e.2)))).filter fun e => view e.2 ≠ 0

/-- The same for MAC entries, where learned entries have no view bits and stay (spec/07 R223). -/
def reviewMac (f : BitVec 3 → BitVec 3) (t : Tab MacEntry) : Tab MacEntry :=
  (t.map fun e => (e.1, if e.2.view = 0 then (e.2, true) else ({ e.2 with view := f e.2.view }, f e.2.view ≠ 0))).filterMap
    fun e => if e.2.2 then some (e.1, e.2.1) else none

/-- Change the views of everything in a pipeline that belongs to generations. -/
def PipeSt.review (x : PipeSt) (f : BitVec 3 → BitVec 3) : PipeSt :=
  let r := reviewTab Rec.view (fun a v => { a with view := v }) f
  { x with
    parser := { x.parser with
      tcam := reviewTab TcamEntry.view (fun a v => { a with view := v }) f x.parser.tcam
      pats := reviewTab PatEntry.view (fun a v => { a with view := v }) f x.parser.pats }
    fwd := { x.fwd with
      em := r x.fwd.em, nh := r x.fwd.nh, grp := r x.fwd.grp, rep := r x.fwd.rep
      lpm := r x.fwd.lpm, mac := reviewMac f x.fwd.mac
      fullRaised := x.fwd.fullRaised && (reviewMac f x.fwd.mac).length == x.fwd.mac.length } }

/-! ### Records (spec/07 R239) -/

/-- Bits `hi` to `lo` of word `w` of a record. -/
def Rec.bits (r : Rec) (w hi lo : Nat) : Nat := (r.words.toNat >>> (32 * w + lo)) % 2 ^ (hi - lo + 1)

/-- The record of index `i` in view `v` of a table with two slots an index. -/
def slotRec (t : Tab Rec) (v i : Nat) : Option Rec :=
  (([0, 1].filterMap fun k => Tab.find (2 * i + k) t).find? fun r => inView r.view v)

/-! ### MAC entries (spec/07 R218) -/

/-- The entry of a key in view `v`: a static entry of the view, else a learned one; with its window index. (DEDUCED, log entry 26) -/
def macLookup (t : Tab MacEntry) (v : Nat) (bd : BitVec 14) (mac : BitVec 48) : Option (Nat × MacEntry) :=
  match t.find? fun e => e.2.bd == bd && e.2.mac == mac && inView e.2.view v with
  | some e => some e
  | none => t.find? fun e => e.2.bd == bd && e.2.mac == mac && e.2.view == 0

/-- The learned entry of a key. -/
def macLearned (t : Tab MacEntry) (bd : BitVec 14) (mac : BitVec 48) : Option (Nat × MacEntry) :=
  t.find? fun e => e.2.bd == bd && e.2.mac == mac && e.2.view == 0

/-- A static entry of a key stands in ACTIVE or PENDING (spec/07 R224). -/
def macStatic (t : Tab MacEntry) (bd : BitVec 14) (mac : BitVec 48) : Bool :=
  t.any fun e => e.2.bd == bd && e.2.mac == mac && (inView e.2.view 0 || inView e.2.view 1)

/-- Window index of the bucket of way `w` for a key. -/
def macBucket (w : Nat) (bd : BitVec 14) (mac : BitVec 48) : Nat := 65536 * w + (Config.macHash w bd mac).toNat

/-- A chain of at most `n` relocations, each of an occupant to another of its ways, that frees bucket `b` and ends in a free bucket off
`path` (spec/07 R219): its moves (from, to), from the end of the chain. Nothing is written by the search. -/
def macChain (t : Tab MacEntry) : Nat → List Nat → Nat → Option (List (Nat × Nat))
  | 0, _, b => if (Tab.find b t).isNone then some [] else none
  | n + 1, path, b =>
    match Tab.find b t with
    | none => some []
    | some e =>
      (([0, 1, 2, 3].map fun w => macBucket w e.bd e.mac).filter fun b' => !(b :: path).contains b').findSome? fun b' =>
        (macChain t n (b :: path) b').map fun ms => ms ++ [(b, b')]

/-- One relocation: the entry is copied to its new place, and the old copy invalidated (spec/07 R220). -/
def relocate {α : Type} (t : Tab α) (m : Nat × Nat) : Tab α :=
  match Tab.find m.1 t with
  | some e => Tab.del m.1 (Tab.ins m.2 e t)
  | none => t

/-- Insert an entry (spec/07 R219): a free candidate bucket, else a chain of at most `kicks` relocations, else the stash;
`none` where the insertion fails. With the table, the number of relocations. (DEDUCED, log entry 26) -/
def macInsert (kicks : Nat) (t : Tab MacEntry) (e : MacEntry) : Option (Tab MacEntry × Nat) :=
  match [0, 1, 2, 3].find? fun w => (Tab.find (macBucket w e.bd e.mac) t).isNone with
  | some w => some (Tab.ins (macBucket w e.bd e.mac) e t, 0)
  | none =>
    match [0, 1, 2, 3].findSome? fun w => (macChain t kicks [] (macBucket w e.bd e.mac)).map fun ms => (w, ms) with
    | some (w, ms) => some (Tab.ins (macBucket w e.bd e.mac) e (ms.foldl relocate t), ms.length)
    | none =>
      match (List.range 64).find? fun i => (Tab.find (262144 + i) t).isNone with
      | some i => some (Tab.ins (262144 + i) e t, 0)
      | none => none

/-- USED and STASH follow the table (spec/07 R236). -/
def State.showMac (s : State) (p : Nat) : State :=
  let t := (s.pipe p).fwd.mac
  (s.setF (F.pipeMacUsed_USED p) t.length).setF (F.pipeMacUsed_STASH p) (t.filter fun e => decide (262144 ≤ e.1)).length

/-- LEARN_LIMIT may be raised again for port 32p + i once COUNT is below LIMIT (spec/07 R227). -/
def State.limitArm (s : State) (p i : Nat) : State :=
  s.when (decide (s.fld (F.pipeLearnLimit_COUNT p i) < s.fld (F.pipeLearnLimit_LIMIT p i))) fun s =>
    s.modFwd p fun x => { x with limitRaised := Tab.put x.limitRaised false i false }

/-- COUNT of a port in its own pipeline (spec/07 R227, R237) changes by one. -/
def State.portCount (s : State) (p port : Nat) (up : Bool) : State :=
  if port / 32 ≠ p ∨ 128 ≤ port then s
  else
    let f := F.pipeLearnLimit_COUNT p (port % 32)
    (s.setF f (if up then s.fld f + 1 else s.fld f - 1)).limitArm p (port % 32)

/-- The port is not below its learning limit in this pipeline (spec/07 R226). (DESIGN CHOICE, log entry 62) -/
def State.atLimit (s : State) (p port : Nat) : Bool :=
  port / 32 == p && decide (s.fld (F.pipeLearnLimit_LIMIT p (port % 32)) ≤ s.fld (F.pipeLearnLimit_COUNT p (port % 32)))

/-- COUNT of the port equals its LIMIT (spec/07 R227). -/
def State.meetsLimit (s : State) (p port : Nat) : Bool :=
  port / 32 == p && s.fld (F.pipeLearnLimit_LIMIT p (port % 32)) == s.fld (F.pipeLearnLimit_COUNT p (port % 32))

/-- A learned entry joins port `port`: LEARN_LIMIT is raised when COUNT reaches LIMIT, and again only after COUNT has been below
LIMIT, by a removal or by a greater LIMIT (spec/07 R227, R234). -/
def State.portJoin (s : State) (p port : Nat) : State :=
  let s := s.portCount p port true
  let lim := s.fld (F.pipeLearnLimit_LIMIT p (port % 32))
  if s.meetsLimit p port && !Tab.get (s.pipe p).fwd.limitRaised false (port % 32) then
    (s.modFwd p fun x => { x with limitRaised := Tab.put x.limitRaised false (port % 32) true }).raise 0x0405 16
      ([(0, 1, p), (1, 1, port), (2, 2, lim)] ++ Stamp.fields s.now 4)
  else s

/-- Remove the MAC entry at a window index. -/
def State.macRemove (s : State) (p i : Nat) : State :=
  match Tab.find i (s.pipe p).fwd.mac with
  | none => s
  | some e =>
    let s := s.modFwd p fun x => { x with mac := Tab.del i x.mac, fullRaised := false }
    let s := if e.view = 0 ∧ !e.mc then s.portCount p e.dest.toNat false else s
    s.showMac p

/-- MOVE_EPOCH counts the relocations, moves of LPM entries among them (spec/07 R217, R220). (DESIGN CHOICE, log entry 62) -/
def State.moved (s : State) (p n : Nat) : State :=
  s.setReg (Reg.pipeMoveEpoch p) (s.reg (Reg.pipeMoveEpoch p) + BitVec.ofNat 32 n)

/-- Insert a MAC entry; relocations advance MOVE_EPOCH (spec/07 R220). Answers whether it went in. -/
def State.macAdd (s : State) (p : Nat) (e : MacEntry) : State × Bool :=
  match macInsert (max 1 (s.fld (F.pipeFwdCfg_MAX_KICKS p))) (s.pipe p).fwd.mac e with
  | none => (s, false)
  | some (t, n) =>
    (((s.modFwd p fun x => { x with mac := t }).moved p n).showMac p, true)

/-- Change the MAC entry at a window index. -/
def State.macMod (s : State) (p i : Nat) (f : MacEntry → MacEntry) : State :=
  s.modFwd p fun x => match Tab.find i x.mac with
    | some e => { x with mac := Tab.ins i (f e) x.mac }
    | none => x

/-- Difference of two beat counts, modulo 2^32; none where it reads negative (spec/01 R35). -/
def beatDiff (a b : BitVec 32) : Option Nat :=
  let d := (a - b).toNat
  if d < 2 ^ 31 then some d else none

/-! ### The learn unit (spec/07 R224 to R229) -/

/-- Queue a request, in order of arrival; a full queue discards it (spec/07 R226). -/
def State.learnQueue (s : State) (p : Nat) (q : LearnReq) : State :=
  if (s.pipe p).fwd.queue.length < 1024 then
    let s := s.modFwd p fun x => { x with
      queue := (x.queue.filter fun y => decide (y.due ≤ q.due)) ++ [q] ++ (x.queue.filter fun y => decide (q.due < y.due)) }
    s.setF (F.pipeLearnStatus_QUEUED p) (s.pipe p).fwd.queue.length
  else s.countFwd p 14

/-- A flap: the entry stays pinned; the first one of the beat gives the event its details (spec/07 R228). -/
def State.flap (s : State) (p : Nat) (e : MacEntry) (q : LearnReq) : State :=
  (s.modFwd p fun x => { x with flap := match x.flap with
    | none => some ⟨e.dest.toNat, q.dest.toNat, q.mac, q.bd, 1⟩
    | some f => some { f with count := f.count + 1 } }).countFwd p 10

/-- Serve one request (spec/07 R226). (DESIGN CHOICE, log entry 62) -/
def State.learn (s : State) (p : Nat) (q : LearnReq) : State :=
  let t := (s.pipe p).fwd.mac
  let now := s.time.beatCount
  let port := q.dest.toNat
  if macStatic t q.bd q.mac then s.countFwd p 15
  else match macLearned t q.bd q.mac with
  | some (i, e) =>
    if e.dest = q.dest ∧ e.mc = q.mc then s.macMod p i fun e => { e with hit := true }
    else
      let damp := s.fld (F.pipeFwdCfg_MOVE_DAMP p)
      let inside := match beatDiff now e.learnBeat with | some d => decide (d < damp) | none => false
      if inside then s.flap p e q
      else if !q.mc && s.atLimit p port then s
      else
        let s := s.macMod p i fun e => { e with dest := q.dest, mc := q.mc, learnBeat := now, hit := true, age := 0 }
        let s := if e.mc then s else s.portCount p e.dest.toNat false
        (if q.mc then s else s.portJoin p port).countFwd p 9
  | none =>
    if !q.mc && s.atLimit p port then s
    else
      let (s, ok) := s.macAdd p { mac := q.mac, bd := q.bd, mc := q.mc, dest := q.dest, hit := true, learnBeat := now, confBeat := now }
      if ok then
        (if q.mc then s else s.portJoin p port).countFwd p 8
      else
        let s := s.countFwd p 13
        if (s.pipe p).fwd.fullRaised then s
        else (s.modFwd p fun x => { x with fullRaised := true }).raise 0x0406 16 ([(0, 1, p)] ++ Stamp.fields s.now 4)

/-- The learn unit serves the oldest request of its queue; 32 ticks and 6 a relocation later it may serve the next (spec/07 R219, R226). -/
def State.serve (s : State) (p : Nat) : State :=
  match (s.pipe p).fwd.queue with
  | q :: rest =>
    let s := s.modFwd p fun x => { x with queue := rest }
    let t := (s.setF (F.pipeLearnStatus_QUEUED p) rest.length).learn p q
    let n := (t.reg (Reg.pipeMoveEpoch p) - s.reg (Reg.pipeMoveEpoch p)).toNat
    t.modFwd p fun x => { x with busyTo := s.time.tick + 32 + 6 * n }
  | [] => s

/-! ### The forwarding decision (spec/07 R214 to R216) -/

/-- Where a frame goes. `trap` names the ring and the REASON of R468 (spec/15). -/
inductive Out where
  | drop
  | trap (ring reason : Nat)
  | send (mc : Bool) (dest : Nat)
  deriving DecidableEq, Repr

/-- A forwarding decision: where to, the counters of R240 it counts, the next-hop rewrite, the record's BD where the frame is
bridged or routed, whether its source is learned, and the ring of the record. -/
structure FwdRes where
  out : Out
  cnts : List Nat := []
  hop : Option Rec := none
  bd : Option (BitVec 14) := none
  learn : Bool := false
  deriving DecidableEq, Repr

/-- The LPM entry matches a VRF and destination (spec/07 R215, R239). -/
def lpmMatch (r : Rec) (v vrf : Nat) (v6 : Bool) (dst : Nat) : Bool :=
  let len := r.bits 4 7 0
  let w := if v6 then 128 else 32
  let pre := if v6 then r.words.toNat % 2 ^ 128 else r.bits 0 31 0
  inView r.view v && (r.bits 4 8 8 == bit v6) && (r.bits 4 23 16 == vrf) && (pre >>> (w - len) == dst >>> (w - len))

/-- Slots an LPM entry takes: 1 for IPv4, 2 for IPv6. -/
def lpmSlots (r : Rec) : Nat := 1 + r.bits 4 8 8

/-- The forwarding lookups of a frame in view `v`, always on its outermost headers (spec/07 R213, R214). `port` is the
ingress port, `flow` the FLOW_ID of the winning action. (DESIGN CHOICE, log entry 62) -/
def forward (x : FwdSt) (v : Nat) (l : List Byte) (r : Parsed) (port : Nat) (bdBase pvid : Nat) (flow : Option Nat)
    (router : Option (BitVec 48)) : FwdRes :=
  let da := BitVec.ofNat 48 (fbN l 0 6)
  let vid := match outerTag r.hdrs with
    | some t => if fb2 l t.off % 4096 ≠ 0 then fb2 l t.off % 4096 else pvid
    | none => pvid
  let id := match flow with | some f => f | none => (bdBase + vid) % 65536
  match slotRec x.em v id with
  | none => { out := .drop, cnts := [6] }
  | some e =>
    let ty := e.bits 0 1 0
    if ty = 2 then { out := .send (bitAt (e.bits 1 14 14) 0) (e.bits 1 28 15) }
    else if ty ≠ 1 then { out := .drop, cnts := [6] }
    else
      let bd := BitVec.ofNat 14 (e.bits 0 15 2)
      let ring := e.bits 0 31 27
      let learn := e.bits 0 25 25 == 1
      let base : FwdRes := { out := .drop, bd := some bd, learn := learn }
      let ip := pickIp false r.hdrs
      let routed := e.bits 0 24 24 == 1 && router == some da && ip.isSome && !r.incomplete
      if routed then
        let v6 := ip.any (·.kind = 5)
        let dst := match ip with
          | some h => if h.kind = 4 then fb4 l (h.off + 16) else fbN l (h.off + 24) 16
          | none => 0
        match (x.lpm.map (·.2)).find? fun r => lpmMatch r v (e.bits 0 23 16) v6 dst with
        | none => { base with out := if e.bits 0 26 26 = 1 then .trap ring 6 else .drop, cnts := [4] }
        | some m =>
          let op := m.bits 5 1 0
          if op = 2 then { base with out := .trap ring 6, cnts := [3] }
          else if op ≠ 0 then { base with out := .drop, cnts := [3] }
          else
            let hop := if m.bits 5 29 29 = 1 then slotRec x.nh v (m.bits 5 28 17) else none
            let sent := Out.send (m.bits 5 2 2 == 1) (m.bits 5 16 3)
            let ttl := match ip with
              | some h => if h.kind = 4 then fb l (h.off + 8) else fb l (h.off + 7)
              | none => 0
            match hop with
            | some n =>
              if n.bits 4 13 13 = 1 ∧ ttl ≤ 1 then { base with out := .trap ring 5, cnts := [3, 5] }
              else { base with out := sent, cnts := [3], hop := some n }
            | none => { base with out := sent, cnts := [3] }
      else
        match macLookup x.mac v bd da with
        | some (_, m) =>
          if !m.mc && m.dest.toNat == port then { base with out := .drop, cnts := [0, 7] }
          else { base with out := .send m.mc m.dest.toNat, cnts := [0] }
        | none => { base with out := .send true (e.bits 1 13 0), cnts := [if bitAt (fb l 0) 0 then 2 else 1] }

/-! ### The table window (spec/07 R238, R239) and bulk records (R232) -/

/-- Indices of a window target: exact match, LPM, MAC, group, replication element, next hop. -/
def twinRange (target : Nat) : Nat :=
  if target = 0 then 65536 else if target = 1 then 16384 else if target = 2 then 262208 else if target = 3 then 16384
  else if target = 4 then 32768 else if target = 5 then 4096 else 0

/-- The MAC entry that window words describe. -/
def macOfWords (w : Rec) : MacEntry :=
  { mac := BitVec.ofNat 48 (w.bits 1 15 0 * 2 ^ 32 + w.bits 0 31 0), bd := BitVec.ofNat 14 (w.bits 1 29 16),
    mc := w.bits 2 0 0 == 1, dest := BitVec.ofNat 14 (w.bits 2 14 1) }

/-- Window words of a MAC entry (spec/07 R239). -/
def wordsOfMac (e : MacEntry) : BitVec 192 :=
  packLE 192 [(0, 4, e.mac.toNat % 2 ^ 32), (4, 4, e.mac.toNat / 2 ^ 32 + e.bd.toNat * 2 ^ 16),
    (8, 4, bit e.mc + e.dest.toNat * 2 + bit (e.view ≠ 0) * 2 ^ 15 + bit e.hit * 2 ^ 16 + e.age % 4 * 2 ^ 17 + 2 ^ 19),
    (12, 4, e.learnBeat.toNat), (16, 4, e.confBeat.toNat)]

/-- The key of an LPM record: prefix cut to its length, length, family, VRF. -/
def lpmKey (r : Rec) : Nat × Nat × Nat × Nat :=
  let w := if r.bits 4 8 8 = 1 then 128 else 32
  let len := min (r.bits 4 7 0) w
  ((if r.bits 4 8 8 = 1 then r.words.toNat % 2 ^ 128 else r.bits 0 31 0) >>> (w - len), len, r.bits 4 8 8, r.bits 4 23 16)

/-- LPM slots in use. -/
def lpmUsed (t : Tab Rec) : Nat := (t.map fun e => lpmSlots e.2).foldl (· + ·) 0

/-- LPM_USED follows the table. -/
def State.showLpm (s : State) (p : Nat) : State := s.setF (F.pipeLpmUsed_SLOTS p) (lpmUsed (s.pipe p).fwd.lpm)

/-- Gaps of at least `w` free slots between the entries of a table from slot `at'` on: (first slot, slot after the last). -/
def lpmGaps (w : Nat) : Nat → Tab Rec → List (Nat × Nat)
  | a, [] => if a + w ≤ 16384 then [(a, 16384)] else []
  | a, (i, r) :: t => (if a + w ≤ i then [(a, i)] else []) ++ lpmGaps w (i + lpmSlots r) t

/-- The first slots of the first entries of each run of equal prefix lengths: the one entry of each length that moves. -/
def lpmEdges : Tab Rec → List Nat
  | [] => []
  | (i, r) :: t => match lpmEdges t, t with
    | l, (_, r') :: _ => if r.bits 4 7 0 = r'.bits 4 7 0 then i :: l.drop 1 else i :: l
    | l, [] => i :: l

/-- The places of a chain of moves: the entry at each place goes to the next one. The moves (from, to), the last one first. -/
def chainMoves : List Nat → List (Nat × Nat)
  | a :: b :: l => chainMoves (b :: l) ++ [(a, b)]
  | _ => []

/-- Where an LPM entry of `w` slots and prefix length `len` goes, and the moves that make room for it (spec/07 R215, R217). `same` are the
entries of its family: longer prefixes lie below it and shorter ones above. A gap between them takes it; else one entry of each length
between it and the nearest gap, above or below, crosses to the next. (DESIGN CHOICE, log entry 62) -/
def lpmPlan (t same : Tab Rec) (w len : Nat) : Option (Nat × List (Nat × Nat)) :=
  let gaps := lpmGaps w 0 t
  let lo := match (same.filter fun e => decide (len < e.2.bits 4 7 0)).getLast? with | some e => e.1 + w | none => 0
  let hi := match same.find? fun e => decide (e.2.bits 4 7 0 < len) with | some e => e.1 | none => 16384
  match gaps.find? fun g => decide (max lo g.1 + w ≤ min hi g.2) with
  | some g => some (max lo g.1, [])
  | none =>
    let up := (gaps.find? fun g => decide (hi < g.2)).map (·.1)
    let dn := (gaps.reverse.find? fun g => decide (g.1 < lo)).map fun g => g.2 - w
    let upBy := fun f => let l := lpmEdges (same.filter fun e => decide (hi ≤ e.1) && decide (e.1 < f)) ++ [f]; (l.headD f, chainMoves l)
    let dnBy := fun f => let l := lpmEdges (same.filter fun e => decide (e.1 < lo) && decide (f < e.1)).reverse ++ [f]; (l.headD f, chainMoves l)
    match up, dn with
    | some u, some d => some (if u - hi ≤ lo - d then upBy u else dnBy d)
    | some u, none => some (upBy u)
    | none, some d => some (dnBy d)
    | none, none => none

/-- Insert an LPM entry; the table and the number of moves, none where the table is full (spec/07 R217). -/
def lpmInsert (t : Tab Rec) (r : Rec) : Option (Tab Rec × Nat) :=
  (lpmPlan t (t.filter fun e => e.2.bits 4 8 8 == r.bits 4 8 8) (lpmSlots r) (r.bits 4 7 0)).map fun m =>
    (Tab.ins m.1 r (m.2.foldl relocate t), m.2.length)


def genTab (x : FwdSt) (target : Nat) : Tab Rec :=
  if target = 0 then x.em else if target = 3 then x.grp else if target = 5 then x.nh else x.rep

def setGenTab (x : FwdSt) (target : Nat) (t : Tab Rec) : FwdSt :=
  if target = 0 then { x with em := t } else if target = 3 then { x with grp := t }
  else if target = 5 then { x with nh := t } else { x with rep := t }

/-- The slots of index `i` in a table: two, or one for replication elements. -/
def genSlots (target i : Nat) : List Nat := if target = 4 then [i] else [2 * i, 2 * i + 1]

/-- WRITE a record into PENDING (spec/07 R239, spec/06 R200): the state and ERR. -/
def State.twinWrite (s : State) (p target i : Nat) (w : BitVec 192) : State × Nat :=
  let x := (s.pipe p).fwd
  if twinRange target ≤ i ∧ target ≠ 1 ∧ target ≠ 2 then (s, 2)
  else if target = 1 then
    let r : Rec := ⟨w, 1⟩
    if x.lpm.any fun y => lpmKey y.2 == lpmKey r && inView y.2.view 0 then (s, 1)
    else match lpmInsert x.lpm r with
      | none => (s, 2)
      | some (t, n) => (((s.modFwd p fun x => { x with lpm := t }).moved p n).showLpm p, 0)
  else if target = 2 then
    let e := { macOfWords ⟨w, 0⟩ with view := 1 }
    if x.mac.any fun y => y.2.bd == e.bd && y.2.mac == e.mac && inView y.2.view 0 then (s, 1)
    else
      let (s, ok) := s.macAdd p e
      (s, if ok then 0 else 2)
  else
    let t := genTab x target
    let ks := genSlots target i
    if ks.any fun k => (Tab.find k t).any fun r => inView r.view 0 then (s, 1)
    else match ks.find? fun k => (Tab.find k t).isNone with
      | none => (s, 1)
      | some k => (s.modFwd p fun x => setGenTab x target (Tab.ins k ⟨w, 1⟩ (genTab x target)), 0)

/-- Clear the PENDING bit of a record; a record left with no view bit is free. -/
def clearPending (t : Tab Rec) (k : Nat) : Tab Rec :=
  match Tab.find k t with
  | none => t
  | some r => if r.view &&& 6 = 0 then Tab.del k t else Tab.ins k { r with view := r.view &&& 6 } t

/-- REMOVE a record from PENDING, by index or by the key in the words (spec/07 R238, R239): the state and ERR. -/
def State.twinRemove (s : State) (p target i : Nat) (w : BitVec 192) : State × Nat :=
  let x := (s.pipe p).fwd
  if target = 1 then
    let key := lpmKey ⟨w, 0⟩
    match x.lpm.find? fun y => lpmKey y.2 == key && inView y.2.view 0 with
    | none => (s, 3)
    | some (k, _) => ((s.modFwd p fun x => { x with lpm := clearPending x.lpm k }).showLpm p, 0)
  else if target = 2 then
    let e := macOfWords ⟨w, 0⟩
    match x.mac.find? fun y => y.2.bd == e.bd && y.2.mac == e.mac && inView y.2.view 0 with
    | none => (s, 3)
    | some (k, y) =>
      if y.view &&& 6 = 0 then (s.macRemove p k, 0)
      else (s.macMod p k fun y => { y with view := y.view &&& 6 }, 0)
  else if twinRange target ≤ i then (s, 2)
  else match (genSlots target i).find? fun k => (Tab.find k (genTab x target)).any fun r => inView r.view 0 with
    | none => (s, 3)
    | some k => (s.modFwd p fun x => setGenTab x target (clearPending (genTab x target) k), 0)

/-- The words and view bits of the record at index `i` in view `v`. -/
def twinRead (x : FwdSt) (target v i : Nat) : Option (BitVec 192 × BitVec 3) :=
  if target = 1 then
    ((Tab.find i x.lpm).filter fun r => inView r.view v).map fun r => (r.words, r.view)
  else if target = 2 then
    match Tab.find i x.mac with
    | some e => if e.view = 0 ∨ inView e.view v then some (wordsOfMac e, e.view) else none
    | none => none
  else ((genSlots target i).filterMap fun k => Tab.find k (genTab x target)).find? (fun r => inView r.view v)
    |>.map fun r => (r.words, r.view)

/-- Index found by key in view `v` (spec/07 R238: LOOKUP, targets LPM and MAC). -/
def twinFind (x : FwdSt) (target v : Nat) (w : BitVec 192) : Option Nat :=
  if target = 1 then
    (x.lpm.find? fun y => lpmKey y.2 == lpmKey ⟨w, 0⟩ && inView y.2.view v).map (·.1)
  else if target = 2 then
    let e := macOfWords ⟨w, 0⟩
    (macLookup x.mac v e.bd e.mac).map (·.1)
  else none

end Sys2Proof.Machine
end

