-- ==== Sys2Proof/Machine/Fabric.lean ====
section
/-!
DEFINITION. Sys2Proof/Machine/Fabric.lean: the operations of the switch fabric (spec/08): frames, cells and accounts,
flushing, the port-down hold, capture records, Sorrel's epoch, Millet's units, the choice of the next egress queue.
-/
namespace Sys2Proof.Machine
open Sys2Proof

def State.modFabric (s : State) (f : FabricSt → FabricSt) : State := { s with fabric := f s.fabric }

def State.frame (s : State) (id : Nat) : Option Frame := s.fabric.frames.find? (·.id == id)

def State.modFrame (s : State) (id : Nat) (f : Frame → Frame) : State :=
  s.modFabric fun x => { x with frames := x.frames.map fun y => if y.id = id then f y else y }

/-- Cells of 256 bytes that a frame occupies (spec/08 R241). -/
def Frame.cells (f : Frame) : Nat := (f.bytes.length + 255) / 256

/-- Count a counter of R283. -/
def State.countFab (s : State) (q k : Nat) (n : Nat := 1) : State := s.count (Reg.fabricPcntLo (16 * q + k)) n

def State.hrStage (s : State) : Nat := max 16384 (s.fld F.fabricPool_HR_STAGE)
def State.freeCells (s : State) : Nat := s.fld F.fabricStatus_FREE
def State.lossless (s : State) (c : Nat) : Bool := bitAt (s.fld F.fabricCfg_LOSSLESS_MASK) c
def State.timingClass (s : State) (c : Nat) : Bool := bitAt (s.fld F.fabricCfg_TIMING_MASK) c

/-! ### Cells (spec/08 R241, R243, R260, R262, R268) -/

def Loc.isDeep : Loc → Bool
  | .deep _ _ => true
  | _ => false

/-- The copies that exist: in the egress queues, in the VOQs, and those being sent. -/
def State.copies (s : State) : List Copy := s.fabric.eq ++ s.fabric.voq ++ s.fabric.tx.filterMap (·.2)

def State.modCopy (s : State) (id n : Nat) (f : Copy → Copy) : State :=
  let g := fun c : Copy => if c.frame = id ∧ c.n = n then f c else c
  s.modFabric fun x => { x with eq := x.eq.map g, voq := x.voq.map g, tx := x.tx.map fun p => (p.1, p.2.map g) }

/-- The cell that holds the data of cell `i` of copy `c` of frame `f`, and its place: a private copy, else the frame's own cell, from which
a private copy that is still to be written is made (spec/08 R268). -/
def Copy.place (c : Copy) (f : Frame) (i : Nat) : CellRef × Loc :=
  let l := f.loc.getD i .die
  match Tab.find i c.own with
  | none => (⟨c.frame, none, i⟩, l)
  | some (.wait b) => if l.isDeep then (⟨c.frame, none, i⟩, l) else (⟨c.frame, some c.n, i⟩, .wait b)
  | some x => (⟨c.frame, some c.n, i⟩, x)

/-- Where a cell is, if it still exists. -/
def State.cellAt (s : State) (r : CellRef) : Option Loc :=
  match r.copy with
  | none => (s.frame r.frame).bind fun f => f.loc[r.cell]?
  | some n => (s.copies.find? fun c => c.frame == r.frame && c.n == n).bind fun c => Tab.find r.cell c.own

def State.setCell (s : State) (r : CellRef) (l : Loc) : State :=
  match r.copy with
  | none => s.modFrame r.frame fun f => { f with loc := f.loc.set r.cell l }
  | some n => s.modCopy r.frame n fun c => { c with own := Tab.ins r.cell l c.own }

/-- Copy `c` needs the frame's own cell `i`: it has no private copy of it yet. -/
def Copy.uses (c : Copy) (i : Nat) : Bool :=
  match Tab.find i c.own with
  | none | some (.wait _) => true
  | some _ => false

/-- The cells of a frame that are not free: a cell is freed when no copy refers to it (spec/08 R268). -/
def State.liveCells (s : State) (f : Frame) : List (Nat × Loc) :=
  let cs := s.copies.filter fun c => c.frame == f.id
  ((List.range f.loc.length).filter fun i => f.refs == 0 || cs.any fun c => c.uses i).map fun i => (i, f.loc.getD i .die)

/-- The cells that are not free, each with its place: those of the frames, and private ones that stand on their own. -/
def State.allCells (s : State) : List (CellRef × Loc) :=
  (s.fabric.frames.map fun f => (s.liveCells f).map fun p => (⟨f.id, none, p.1⟩, p.2)).flatten ++
  (s.copies.map fun c => (c.own.filter fun p => !(match p.2 with | .wait _ => true | _ => false)).map fun p => (⟨c.frame, some c.n, p.1⟩, p.2)).flatten

/-- Cells on die: 589,824 less those are free. -/
def State.usedCells (s : State) : Nat := (s.allCells.filter fun p => !p.2.isDeep).length

/-- Cells of the stacks that the general pool holds. -/
def State.deepUsed (s : State) : Nat := (s.allCells.filter fun p => match p.2 with | .deep _ false => true | _ => false).length

/-! ### Ingress accounts and XOFF (spec/08 R243, R255, R257, R261) -/

/-- XOFF of an ingress account follows its depth and the pool; at XON an overrun may be reported again. -/
def State.acctXoff (s : State) (p c : Nat) : State :=
  let j := 16 * p + c
  let d := s.fld (F.iaDepth_DEPTH j)
  let on := s.flag (F.iaDepth_XOFF j)
  if !s.lossless c then s
  else
    let s := if d ≤ s.fld (F.iaTh_XON j) then s.modFabric fun x => { x with overrun := Tab.put x.overrun false j false } else s
    if !on && (decide (s.fld (F.iaTh_XOFF j) ≤ d) || s.fabric.poolLow) then
      (s.setF (F.iaDepth_XOFF j) 1).askXoff p c true
    else if on && decide (d ≤ s.fld (F.iaTh_XON j)) && !s.fabric.poolLow then
      (s.setF (F.iaDepth_XOFF j) 0).askXoff p c false
    else s

/-- Cells of I(p, c): those of its unicast frames that are not admitted, and all of a multicast frame while a copy of it waits in a VOQ. -/
def State.acctCells (s : State) (p c : Nat) : Nat :=
  let v := s.fabric.voq.filter fun x => x.port == p && x.cls == c
  ((v.filter (!·.mc)).map fun x => x.cells - x.adm).foldl (· + ·) 0 +
    (((v.filter (·.mc)).map fun x => (x.frame, x.cells)).eraseDups.map (·.2)).foldl (· + ·) 0

/-- DEPTH follows the account. -/
def State.showIa (s : State) (p c : Nat) : State :=
  if 128 ≤ p then s else (s.setF (F.iaDepth_DEPTH (16 * p + c)) (s.acctCells p c)).acctXoff p c

/-- The ports whose lanes are enabled, as far as the registers list them. -/
def State.ports' (s : State) : List Nat := (List.range 128).filter s.portExists

/-- Every lossless account follows the pool's state. -/
def State.poolXoff (s : State) : State :=
  s.each s.ports' fun s p => s.each (List.range 16) fun s c => s.acctXoff p c

/-! ### Deep buffer pool (spec/08 R260, R263, R267) -/

/-- Cells of the headroom region: HEADROOM over the lossless classes of the ports that exist. -/
def State.headroomSum (s : State) : Nat :=
  (s.ports'.map fun p => (((List.range 16).filter s.lossless).map fun c => s.fld (F.iaHr_HEADROOM (16 * p + c))).foldl (· + ·) 0).foldl
    (· + ·) 0

/-- The headroom region of the next boundary on keeps its limit (spec/08 R260): 5,000,000 cells, or HR_STAGE without a deep buffer. -/
def State.headroomOk (s : State) : Bool :=
  let sum := (s.ports'.map fun p => (((List.range 16).filter s.lossless).map fun c =>
    (F.iaHr_HEADROOM 0).of (s.regW (Reg.iaHr (16 * p + c)))).foldl (· + ·) 0).foldl (· + ·) 0
  decide (sum ≤ if s.flag F.deepCfg_EN then 5000000 else max 16384 (F.fabricPool_HR_STAGE.of (s.regW Reg.fabricPool)))

/-- A write of the headroom region's settings: not applied, with CFG_ERR, where it breaks the limit (spec/08 R260). -/
def State.headroomCheck (s : State) (s' : State) : State :=
  if s'.headroomOk then s' else s.setF F.fabricStatus_CFG_ERR 1

/-- Cells of the stacks in use: 4,194,304 each (spec/08 R267). -/
def State.deepCells (s : State) : Nat := 4194304 * (maskIdx 4 (s.fld F.deepStatus_READY)).length

def State.deepFree (s : State) : Nat := s.deepCells - s.headroomSum - s.deepUsed

def State.showDeep (s : State) : State := s.setF F.deepFree_FREE s.deepFree

/-! ### Egress queues -/

/-- The copies of E(q, c), in order: those wholly admitted, then the one partly admitted. -/
def State.eqCopies (s : State) (q c : Nat) : List Copy :=
  (s.fabric.eq.filter fun x => x.q == q && x.cls == c) ++
  (s.fabric.voq.filter fun x => x.q == q && x.cls == c && decide (0 < x.adm))

/-- The cells of the copies of a list that have been admitted, in order, with their places. -/
def State.cellsOf (s : State) (l : List Copy) : List (CellRef × Loc) :=
  (l.map fun c => match s.frame c.frame with
    | some f => (List.range c.adm).map fun i => c.place f i
    | none => []).flatten

/-- The admitted cells of E(q, c), in order. -/
def State.eqCells (s : State) (q c : Nat) : List (CellRef × Loc) := s.cellsOf (s.eqCopies q c)

/-- E(q, c) is to spill (spec/08 R263): it exceeds its on-die limit, or the pool presses and it holds more than REFILL cells on die. -/
def State.mustSpill (s : State) (q c : Nat) : Bool :=
  let i := 16 * q + c
  let on := s.fld (F.eqOndie_ONDIE i)
  s.flag (F.eqSpill_SPILL_EN i) && s.flag F.deepCfg_EN && !s.quiet &&
    (decide (s.fld (F.eqSpill_ODL i) < on) ||
      (decide (s.freeCells < 2 * s.hrStage) && decide (s.fld (F.eqSpill_REFILL i) < on)))

/-- A queue enters SPILLING, and leaves it with no cell in the stacks or on its way there (spec/08 R263). (DEDUCED, log entry 25) -/
def State.spillState (s : State) (q c : Nat) : State :=
  let f := F.eqDepth_SPILLING (16 * q + c)
  if s.mustSpill q c then s.setF f 1
  else if s.flag f && (s.eqCells q c).all (·.2 == .die) then s.setF f 0
  else s

/-- TOTAL, ONDIE and HWM follow E(q, c), the copy being sent counted with it (spec/08 R243, R281). -/
def State.showEq (s : State) (q c : Nat) : State :=
  let i := 16 * q + c
  let l := s.cellsOf (s.copies.filter fun x => x.q == q && x.cls == c)
  let s := (s.setF (F.eqDepth_TOTAL i) l.length).setF (F.eqOndie_ONDIE i) (l.filter fun p => !p.2.isDeep).length
  let s := if s.fld (F.eqHwm_HWM i) < s.fld (F.eqDepth_TOTAL i) then s.setF (F.eqHwm_HWM i) (s.fld (F.eqDepth_TOTAL i)) else s
  s.spillState q c

/-- Pool pressure reaches every queue that holds something (spec/08 R263). -/
def State.pressure (s : State) : State :=
  s.each ((s.copies.map fun c => (c.q, c.cls)).eraseDups) fun s p => s.spillState p.1 p.2

/-- FREE follows the cells on die; POOL_LOW and its recovery, pool pressure (spec/08 R257, R263). -/
def State.showFree (s : State) : State :=
  let s := (s.setF F.fabricStatus_FREE (589824 - s.usedCells)).showDeep
  let s := if s.freeCells < 2 * s.hrStage then s.pressure else s
  if !s.fabric.poolLow && decide (s.freeCells ≤ s.hrStage) then
    ((s.modFabric fun x => { x with poolLow := true }).poolXoff).raise 0x0505 16 (Stamp.fields s.now 4)
  else if s.fabric.poolLow && decide (s.hrStage + 16384 < s.freeCells) then
    (s.modFabric fun x => { x with poolLow := false }).poolXoff
  else s

/-- The queues of every copy of some frames follow their cells. -/
def State.showFrames (s : State) (ids : List Nat) : State :=
  s.each (((s.copies.filter fun c => ids.contains c.frame).map fun c => (c.q, c.cls)).eraseDups) fun s p => s.showEq p.1 p.2

/-- Millet holds the queue back (spec/08 R263, R266). -/
def State.heldBack (s : State) (q c : Nat) : Bool :=
  let i := 16 * q + c
  decide (64 < (Tab.get s.fabric.spillUnits [] i).length) ||
  (s.flag (F.eqDepth_SPILLING i) && (s.deepFree == 0 || s.inDip))

/-! ### Capture records (spec/08 R275, R276) -/

/-- The registers that decide a frame which enters the parser of pipeline `p` now (spec/06 R197). -/
def State.parserCfg (s : State) (p : Nat) : ParserCfg :=
  ⟨s.reg (Reg.pipeParseCfg p), s.reg (Reg.pipeTcDef p), s.reg (Reg.pipePcpMap p), s.reg (Reg.pipeFragCfg p)⟩

/-- Write a record into a device-filled ring, or discard and count it (spec/15 R480). -/
def State.ringRecord (s : State) (r data : Nat) : State :=
  if s.ringFree r = 0 then s.bump (F.ringLoss_COUNT r) else s.writeEntry r data

def Frame.marked (f : Frame) : Bool := f.sampled || f.triggered

/-- One capture record of a marked frame: sent as copy `c` with egress stamp `out`, or dropped with a fate. (DEDUCED, log entry 24) -/
def State.capture (s : State) (f : Frame) (c : Option Copy) (out : Option Stamp) (fate : Nat) : State :=
  if !f.marked then s
  else
    let data := f.bytes.take 128
    let seq := s.fabric.capSeq
    let r : BitVec 1536 := packLE 1536 (Stamp.fields f.stamp 0 ++ (match out with | some t => Stamp.fields t 12 | none => []) ++
      [(24, 2, f.port), (26, 2, match c with | some c => c.q | none => 0xFFFF), (28, 1, f.cls), (29, 1, f.gen.toNat),
        (30, 2, f.flags.toNat), (32, 2, f.len), (34, 1, if f.sampled && f.triggered then 2 else bit f.triggered), (35, 1, fate),
        (36, 4, match c with | some c => c.depth | none => 0), (40, 4, seq.toNat),
        (44, 1, (match c with | some c => bit c.spilled + 2 * bit c.mc | none => 0) + 4 * bit f.early + 8 * bit f.stepSpan),
        (45, 1, data.length), (64, 128, bytesNat data)])
    ((s.modFabric fun x => { x with capSeq := seq + 1 }).ringRecord 67 r.toNat).countFab f.port 15

/-- Descriptors of the TX frames at the head of a ring that have been written back, and the frames after them. -/
def txDoneHead : List TxSlot → Nat × List TxSlot
  | [] => (0, [])
  | e :: l => if e.done then (e.descs + (txDoneHead l).1, (txDoneHead l).2) else (0, e :: l)

/-- The device index of TX ring `r` passes the frames written back, in ring order (spec/15 R467); not while DMA_OFF is set (R487). -/
def State.txPop (s : State) (r : Nat) : State :=
  let h := txDoneHead (Tab.get s.host.txq [] r)
  if h.1 = 0 ∨ s.flag F.hostifEmerg_DMA_OFF then s
  else (({ s with host := { s.host with txq := Tab.put s.host.txq [] r h.2 } }).advance r h.1).signalSoon r

/-- The STATUS that the host's TX descriptor receives once the frame's fate is known, in the frame's last descriptor (spec/15 R467). -/
def State.txDone (s : State) (f : Frame) (status : Nat) (out : Option Stamp) : State :=
  match f.txRing with
  | none => s
  | some (r, ts) =>
    let l := Tab.get s.host.txq [] r
    match l.find? fun e => e.frame == f.id && !e.done with
    | none => s
    | some e =>
      let st := packLE 128 ([(0, 1, status)] ++ (match out with | some t => if ts then Stamp.fields t 4 else [] | none => []))
      let s := { s with host := { s.host with
        txq := Tab.put s.host.txq [] r (l.map fun x => if x = e then { x with done := true } else x) } }
      (s.post (.mem (s.slotAddr r (e.start + e.descs - 1) + 16) 16 st.toNat)).txPop r

/-! ### Ending copies and frames -/

/-- A frame leaves the device: its cells are free. -/
def State.endFrame (s : State) (id : Nat) : State :=
  (s.modFabric fun x => { x with frames := x.frames.filter (·.id ≠ id) }).showFree

/-- Release copy `c` (already taken from its list): its cells leave their accounts, and the frame ends with its last copy; one whose check
is still to fail stays, without cells, until that. `fate` is none for a copy that was sent. A preamble that was begun for it ends. (DEDUCED, log entry 24) -/
def State.release (s : State) (c : Copy) (fate : Option Nat) : State :=
  match s.frame c.frame with
  | none => s
  | some f =>
    let f := { f with refs := f.refs - 1, sent := if fate.isNone then f.sent + 1 else f.sent }
    let s := s.modFrame f.id fun _ => f
    let s := s.when (Tab.get s.fabric.staged none c.q == some f.id) fun s =>
      (s.modFabric fun x => { x with staged := Tab.put x.staged none c.q none }).flushCtrl c.q
    let s := if f.refs = 0 then
        let s := match fate with
          | some k => if f.sent = 0 then ((s.capture f (some c) none k).txDone f 4 none) else s
          | none => s
        if f.checked || f.flags.toNat % 256 == 0 then s.endFrame f.id else (s.modFrame f.id fun f => { f with loc := [] }).showFree
      else s.showFree
    (s.showEq c.q c.cls).showIa c.port c.cls

/-- Drop every queued copy that `sel` names, each with `fate`, counting counter `k` of its egress port; the state and the
frames and cells dropped. -/
def State.flush (s : State) (sel : Copy → Bool) (fate k : Nat) : State × Nat × Nat :=
  let go := s.fabric.eq.filter sel ++ s.fabric.voq.filter sel
  let s := s.modFabric fun x => { x with eq := x.eq.filter (!sel ·), voq := x.voq.filter (!sel ·) }
  (s.each go fun s c => (s.countFab c.q k).release c (some fate), go.length, (go.map (·.cells)).foldl (· + ·) 0)

/-- The copy of a unicast frame that was decided for port `q`, as its capture record shows it. -/
def Frame.copyTo (f : Frame) (q : Nat) : Copy := { frame := f.id, n := 0, port := f.port, q := q, cls := f.cls, cells := f.cells, mc := false }

/-- A decided frame is discarded before any account is charged: one capture record, with the egress port where it was decided for one
(spec/08 R276), the host's status, its cells freed. -/
def State.discard (s : State) (f : Frame) (fate status : Nat) (q : Option Nat := none) : State :=
  ((s.capture f (q.map f.copyTo) none fate).txDone f status none).endFrame f.id

/-! ### Ports going down and coming back (spec/08 R270 to R273) -/

/-- The frame that port `q` was sending is at the head of its queue again: it has not been sent (spec/08 R259, R271). (DEDUCED, log entry 24) -/
def State.unsend (s : State) (q : Nat) : State :=
  match Tab.get s.fabric.tx none q with
  | none => s
  | some c => s.modFabric fun x => { x with tx := Tab.put x.tx none q none, eq := c :: x.eq }

/-- Port `q` has left ACTIVE: pause timers cleared, its transmission broken off, timing-class frames flushed, the hold starts (spec/08 R270, R271). -/
def State.portDown (s : State) (q : Nat) : State :=
  let s := ((s.clearPause q).modMac q fun m => { m with ctrl := [], own := [], sending := none }).unsend q
  let s := s.modFabric fun x => { x with staged := Tab.put x.staged none q none }
  let s := (s.flush (fun c => c.q == q && s.timingClass c.cls) 6 0).1
  if bitAt s.fabric.noHold.toNat q then s
  else ((s.setF (F.fabricPort_HOLD_STATE q) 1).modFabric fun x => { x with holdTick := Tab.ins q s.time.tick x.holdTick }).countFab q 13

/-- Port `q` has become ACTIVE: a return within the hold is counted. -/
def State.portBack (s : State) (q : Nat) : State :=
  let s := if s.fld (F.fabricPort_HOLD_STATE q) = 1 then s.countFab q 14 else s
  let s := s.modFabric fun x => { x with noHold := x.noHold &&& ~~~(BitVec.ofNat 128 (2 ^ q)) }
  (s.setF (F.fabricPort_HOLD_STATE q) 0).clearPause q

/-- Remove the learned entries of port `port` in pipeline `p`; the state and the number removed. -/
def State.flushMac (s : State) (p : Nat) (sel : MacEntry → Bool) : State × Nat :=
  let go := (s.pipe p).fwd.mac.filter fun e => e.2.view == 0 && sel e.2
  (s.each go fun s e => s.macRemove p e.1, go.length)

/-! ### Sorrel (spec/08 R244 to R247) -/

/-- Cells of copy `c` that may be requested now: none before its check, except the early cells of an early grant, whose last
cell waits for the check (spec/08 R250, R251). -/
def State.requestable (s : State) (c : Copy) : Nat :=
  match s.frame c.frame with
  | none => 0
  | some f => if f.checked then c.cells - c.adm else if f.early then c.cells - 1 - c.adm else 0

/-- The head copy of VOQ(p, q, c). -/
def State.voqHead (s : State) (p q c : Nat) : Option Copy :=
  s.fabric.voq.find? fun x => x.port == p && x.q == q && x.cls == c

/-- The copy that is partly admitted to E(q, c) (spec/08 R246). -/
def State.partial' (s : State) (q c : Nat) : Option Copy :=
  s.fabric.voq.find? fun x => x.q == q && x.cls == c && decide (0 < x.adm)

/-- VOQ(p, q, c) has a cell that may be admitted (spec/08 R245, R246, R254). -/
def State.eligibleVoq (s : State) (p q c : Nat) : Bool :=
  match s.voqHead p q c with
  | none => false
  | some x =>
    decide (0 < s.requestable x) && decide (s.fld (F.eqDepth_TOTAL (16 * q + c)) < s.fld (F.eqLim_E_LIMIT (16 * q + c))) &&
    !s.heldBack q c && (s.partial' q c).all fun y => y.port == p

/-- The class that input port `p` names for egress port `q`: one it has begun; else the highest eligible strict one; else the
next eligible one in rotation (spec/08 R245, R246). (DEDUCED, log entry 24) -/
def State.nameClass (s : State) (p q : Nat) : Option Nat :=
  let el := (List.range 16).filter fun c => s.eligibleVoq p q c
  match el.find? fun c => (s.partial' q c).isSome with
  | some c => some c
  | none =>
    match (el.filter fun c => bitAt (s.fld (F.fabricSp_SP_MASK q)) c).getLast? with
    | some c => some c
    | none =>
      let last := Tab.get s.fabric.lastClass 15 (128 * p + q)
      match el.find? fun c => last < c with
      | some c => some c
      | none => el.head?

/-- A cell joins the open unit of the spill writes of queue `i`, which is whole with 8 (spec/08 R262). -/
def State.spillCell (s : State) (i : Nat) (r : CellRef) : State :=
  s.modFabric fun z =>
    let o := Tab.get z.spillOpen [] i ++ [r]
    if o.length < 8 then { z with spillOpen := Tab.put z.spillOpen [] i o }
    else { z with
      spillOpen := Tab.put z.spillOpen [] i []
      spillUnits := Tab.put z.spillUnits [] i (Tab.get z.spillUnits [] i ++ [o]) }

/-- Admit one cell of VOQ(p, q, c) into E(q, c); to a SPILLING queue it is written to the stacks, a multicast copy's as a private copy,
wherever the frame's own cell is (spec/08 R243, R263, R268). (DEDUCED, log entry 24) -/
def State.admitCell (s : State) (p q c : Nat) : State :=
  match s.voqHead p q c with
  | none => s
  | some x =>
    match s.frame x.frame with
    | none => s
    | some f =>
      let k := 16 * q + c
      let l := f.loc.getD x.adm .die
      let spill := (l == .die || x.mc) && s.flag (F.eqDepth_SPILLING k)
      let y := { x with
        adm := x.adm + 1, own := if spill && x.mc then Tab.ins x.adm (.wait false) x.own else x.own
        spilled := x.spilled || spill || l != .die, depth := if x.adm = 0 then s.fld (F.eqDepth_TOTAL k) + 1 else x.depth }
      let s := s.modFabric fun z => if y.adm = y.cells then { z with voq := z.voq.erase x, eq := z.eq ++ [y] }
        else { z with voq := z.voq.map fun w => if w = x then y else w }
      let s := s.when spill fun s => (s.when (!x.mc) fun s => s.setCell ⟨f.id, none, x.adm⟩ (.wait false)).spillCell k
        ⟨f.id, if x.mc then some x.n else none, x.adm⟩
      ((s.showEq q c).showIa p c).showFree

/-- The input slots and output slots of the ports that exist. -/
def State.slots (s : State) : List (Nat × Nat) := (s.ports'.map fun p => (s.portLanes p).map fun m => (m, p)).flatten

/-- The first element at or after `ptr`, in a circle of 128. -/
def firstFrom (ptr : Nat) (l : List Nat) : Option Nat :=
  match l.find? fun x => ptr ≤ x with
  | some x => some x
  | none => l.head?

/-- One iteration of an epoch: request, grant, accept (spec/08 R245); `ins` and `outs` are the unmatched slots. (DEDUCED, log entry 25) -/
def State.sorrelIter (s : State) (first : Bool) (ins outs : List (Nat × Nat)) : State × List (Nat × Nat) × List (Nat × Nat) :=
  let eports := s.ports'.filter fun q => outs.any fun o => o.2 == q
  let req := (ins.map fun i => eports.filterMap fun q => (s.nameClass i.2 q).map fun c => (i, q, c)).flatten
  let s := s.modFabric fun x => { x with lastClass := req.foldl (fun t r => Tab.put t 15 (128 * r.1.2 + r.2.1) r.2.2) x.lastClass }
  let grants := outs.filterMap fun o =>
    (firstFrom (Tab.get s.fabric.grantPtr 0 o.1) ((req.filter fun r => r.2.1 == o.2).map fun r => r.1.1)).map fun i => (o, i)
  let acc := ins.filterMap fun i =>
    (firstFrom (Tab.get s.fabric.acceptPtr 0 i.1) ((grants.filter fun g => g.2 == i.1).map fun g => g.1.1)).bind fun o =>
      (outs.find? fun x => x.1 == o).bind fun ox =>
        (req.find? fun r => r.1 == i && r.2.1 == ox.2).map fun r => (i, ox, r.2.2)
  let s := s.each acc fun s a =>
    let s := if s.eligibleVoq a.1.2 a.2.1.2 a.2.2 then s.admitCell a.1.2 a.2.1.2 a.2.2 else s
    if first then s.modFabric fun x => { x with
      grantPtr := Tab.put x.grantPtr 0 a.2.1.1 ((a.1.1 + 1) % 128), acceptPtr := Tab.put x.acceptPtr 0 a.1.1 ((a.2.1.1 + 1) % 128) }
    else s
  (s, ins.filter fun i => !(acc.any fun a => a.1 == i), outs.filter fun o => !(acc.any fun a => a.2.1 == o))

/-- The MC_WAIT timer of a multicast copy starts when it stands at the head of its VOQ and its queue takes nothing (spec/08 R269). -/
def State.mcBlocked (s : State) (x : Copy) : Bool :=
  x.mc && s.voqHead x.port x.q x.cls == some x &&
  (decide (s.fld (F.eqLim_E_LIMIT (16 * x.q + x.cls)) ≤ s.fld (F.eqDepth_TOTAL (16 * x.q + x.cls))) || s.stopped x.q x.cls)

/-- The MC_WAIT timers of the copies that are blocked now run (spec/08 R269). (DEDUCED, log entry 24) -/
def State.mcTimers (s : State) : State :=
  s.modFabric fun z => { z with voq := z.voq.map fun x => if s.mcBlocked x then { x with since := some (x.since.getD s.time.tick) } else x }

/-- The last cell of an early-granted frame, checked since, is admitted ahead of the arbitration, and takes a slot of either port
(spec/08 R251). -/
def State.lastCells (s : State) (ins outs : List (Nat × Nat)) : State × List (Nat × Nat) × List (Nat × Nat) :=
  (s.fabric.voq.filter fun x => x.adm + 1 == x.cells && (s.frame x.frame).any fun f => f.early && f.checked).foldl (fun a x =>
    match a.2.1.find? fun i => i.2 == x.port, a.2.2.find? fun o => o.2 == x.q with
    | some i, some o => if a.1.eligibleVoq x.port x.q x.cls && a.1.voqHead x.port x.q x.cls == some x then
        (a.1.admitCell x.port x.q x.cls, a.2.1.erase i, a.2.2.erase o) else a
    | _, _ => a) (s, ins, outs)

/-- A cell of each frame that the host admits straight to an egress queue, while the queue is below its limit (spec/15 R467, spec/08
R254). (DEDUCED, log entry 38) -/
def State.hostCells (s : State) : State :=
  s.each (s.fabric.voq.filter fun x => x.port == 128) fun s x =>
    if s.eligibleVoq 128 x.q x.cls then s.admitCell 128 x.q x.cls else s

/-- One epoch: three iterations (spec/08 R245). (DEDUCED, log entry 25) -/
def State.sorrel (s : State) : State :=
  let l := s.slots
  let (s, i, o) := s.mcTimers.hostCells.lastCells l l
  let (s, i, o) := s.sorrelIter true i o
  let (s, i, o) := s.sorrelIter false i o
  (s.sorrelIter false i o).1

/-! ### Millet (spec/08 R262 to R266) -/

/-- The stack that the next unit goes to: units are striped across the stacks in use (spec/08 R262). -/
def State.nextStack (s : State) : Option Nat :=
  let l := maskIdx 4 (s.fld F.deepStatus_READY)
  match l.find? fun k => decide (s.fabric.stripe < k) with
  | some k => some k
  | none => l.head?

/-- On-die cells of E(q, c) ahead of its first cell in the stacks (spec/08 R264). -/
def State.onDieHead (s : State) (q c : Nat) : Nat := ((s.eqCells q c).takeWhile fun p => !p.2.isDeep).length

/-- The oldest cells of E(q, c) in the stacks, at most a unit of them and in one stack: what one refill reads (spec/08 R262, R264). -/
def State.refillRun (s : State) (q c : Nat) : List (CellRef × Loc) :=
  let l := (s.eqCells q c).filter (·.2.isDeep)
  match l with
  | (_, .deep k _) :: _ => (l.takeWhile fun p => match p.2 with | .deep j _ => j == k | _ => false).take (min 8 s.freeCells)
  | _ => []

/-- Cells that wait in the units of a table. -/
def unitCells (t : Tab (List (List CellRef))) : Nat := (t.map fun p => p.2.flatten.length).foldl (· + ·) 0

/-- Cells that the queues ask for whose on-die head is below REFILL / 2 (spec/08 R265). -/
def State.urgentCells (s : State) : Nat :=
  (((s.copies.map fun c => (c.q, c.cls)).eraseDups.map fun p =>
    let r := s.fld (F.eqSpill_REFILL (16 * p.1 + p.2))
    if s.onDieHead p.1 p.2 < r / 2 then min (r - s.onDieHead p.1 p.2) ((s.eqCells p.1 p.2).filter (·.2.isDeep)).length else 0)).foldl (· + ·) 0

/-- Millet's budget of a beat in cells: 650 GB/s for each stack in use (spec/08 R265, R267). -/
def State.milletBudget (s : State) : Nat := (maskIdx 4 (s.fld F.deepStatus_READY)).length * 25390625 / 1000

/-- `n` cells of traffic of order `o` find room in the beat, beside what has been moved and what waits in the orders before it
(spec/08 R265). (DEDUCED, log entry 25) -/
def State.milletRoom (s : State) (o n : Nat) : Bool :=
  let ahead := (if 1 < o then unitCells s.fabric.hrUnits else 0) + (if 2 < o then s.urgentCells else 0) +
    (if 3 < o then unitCells s.fabric.spillUnits else 0)
  decide (s.fabric.written + s.fabric.read + ahead + n ≤ s.milletBudget * (if s.fabric.evac.isSome then 9 else 10) / 10)

/-! ### The choice of the next queue (spec/08 R248) -/

/-- The first copy of E(q, c). -/
def State.eqHead (s : State) (q c : Nat) : Option Copy := s.fabric.eq.find? fun x => x.q == q && x.cls == c

/-- The head frame of E(q, c) may start now, apart from its age: all cells on die, class not stopped. -/
def State.eligibleEq (s : State) (q c : Nat) : Bool :=
  match s.eqHead q c with
  | none => false
  | some x => (s.cellsOf [x]).all (!·.2.isDeep) && !s.stopped q c

/-- Drop the aged frames at the head of every queue of `q` (spec/08 R274): checked at dequeue. -/
def State.dropAged (s : State) (q : Nat) : Nat → State
  | 0 => s
  | n + 1 =>
    match (List.range 16).findSome? fun c =>
        if s.eligibleEq q c then (s.eqHead q c).bind fun x => (s.frame x.frame).bind fun f =>
          let age := s.fld (F.eqSched_MAX_AGE_MS (16 * q + c))
          if age != 0 && (beatDiff s.time.beatCount f.beat).all (age * 100 ≤ ·) then some x else none
        else none with
    | none => s
    | some x =>
      ((s.modFabric fun y => { y with eq := y.eq.erase x }).countFab q 3 |>.release x (some 2)).dropAged q n

/-- Deficit round robin over the classes outside SP_MASK (spec/08 R248): the class chosen, and the state with its deficits. The turn goes round
the classes in rising order; a class that may not start now gets no quantum. `fuel` bounds the turns. (DEDUCED, log entry 24) -/
def State.drr (s : State) (q : Nat) : Nat → State × Option Nat
  | 0 => (s, none)
  | n + 1 =>
    let c := Tab.get s.fabric.turn 0 q
    let i := 16 * q + c
    let len := match s.eqHead q c with | some x => (match s.frame x.frame with | some f => f.bytes.length | none => 0) | none => 0
    if s.eligibleEq q c && !bitAt (s.fld (F.fabricSp_SP_MASK q)) c && decide (len ≤ Tab.get s.fabric.deficit 0 i) then
      (s.modFabric fun x => { x with deficit := Tab.put x.deficit 0 i (Tab.get x.deficit 0 i - len) }, some c)
    else
      let c' := (c + 1) % 16
      let i' := 16 * q + c'
      let s := s.modFabric fun x => { x with
        turn := Tab.put x.turn 0 q c'
        deficit := Tab.put (if (s.eqHead q c).isNone then Tab.put x.deficit 0 i 0 else x.deficit) 0 i'
          (if s.eligibleEq q c' && !bitAt (s.fld (F.fabricSp_SP_MASK q)) c' then
              Tab.get x.deficit 0 i' + max 1 (s.fld (F.eqSched_WEIGHT i')) * 4096
            else if (s.eqHead q c').isSome then Tab.get x.deficit 0 i' else 0) }
      s.drr q n

/-- The queue the egress MAC of port `q` takes its next frame from (spec/08 R248). -/
def State.selectQueue (s : State) (q : Nat) : State × Option Nat :=
  match ((List.range 16).filter fun c => bitAt (s.fld (F.fabricSp_SP_MASK q)) c && s.eligibleEq q c).getLast? with
  | some c => (s, some c)
  | none => if (List.range 16).any fun c => s.eligibleEq q c then s.drr q 96 else (s, none)

end Sys2Proof.Machine
end

