-- ==== Sys2Proof/Machine/Lane.lean ====
section
/-!
DEFINITION. Sys2Proof/Machine/Lane.lean: the link state machine of a port (spec/04): transitions, attempts and back-off, relock,
low-power states, configuration writes, microcode loads, KL markers; and the commands and events of that chapter.
-/
namespace Sys2Proof.Machine
open Sys2Proof

/-! ### Link states (spec/04 R128) -/

/-- A port stands at lane `n` and its configuration is in order. -/
def State.validPort (s : State) (n : Nat) : Bool := s.portExists n && s.cfgOk n

/-- The valid port that lane `m` belongs to. -/
def State.owner (s : State) (m : Nat) : Option Nat := (s.portOf m).bind fun n => if s.cfgOk n then some n else none

/-- The preset of lane `n`'s transmitter at the start of an attempt (spec/04 R129). -/
def State.startCoef (s : State) (n m : Nat) : Coef :=
  let p := BitVec.ofNat 4 (s.fld (F.laneCfg_PRESET m))
  .preset (if s.isKl n then (s.lane m).klPreset.getD p else p)

def State.backoffMin (s : State) (n : Nat) : Nat := max 1 (s.fld (F.laneTrain_BACKOFF_MIN n))
def State.backoffMax (s : State) (n : Nat) : Nat := max (s.backoffMin n) (s.fld (F.laneTrain_BACKOFF_MAX n))

/-- Current back-off of a port in seconds (spec/04 R130). -/
def State.backoff (s : State) (n : Nat) : Nat := if (s.lane n).backoff = 0 then s.backoffMin n else (s.lane n).backoff

/-- The back-off that begins at an entry to NO_PARTNER. -/
def State.nextBackoff (s : State) (n : Nat) : Nat :=
  if (s.lane n).backoff = 0 then s.backoffMin n else min (2 * (s.lane n).backoff) (s.backoffMax n)

/-- Attempt count 0, back-off at BACKOFF_MIN (spec/04 R130). -/
def State.linkFresh (s : State) (n : Nat) : State :=
  (s.setF (F.laneStatus_ATTEMPT n) 0).modLane n fun x => { x with backoff := 0 }

/-- The receiver of a KL port holds its markers while it looks for them, is up, or runs in a loop (spec/04 R129, R139). -/
def State.klRuns (s : State) (n : Nat) : Bool := s.validPort n && s.isKl n && [4, 5, 9].contains (s.link n)

/-- PAM4 symbols on the port's lanes (spec/04 R119). -/
def State.pam4 (s : State) (n : Nat) : Bool := decide (3 ≤ s.rateCode n)

/-- PLL_LOCK of a group: some port with a lane in it has its loops on. (DEDUCED, log entry 23) -/
def State.showPll (s : State) (g : Nat) : State :=
  s.setF (F.laneGrp_PLL_LOCK g) (bit ((List.range 4).any fun i =>
    let st := s.fld (F.laneStatus_STATE (4 * g + i))
    st != 0 && st != 11 && st != 12))

/-- CDR_LOCK and ALIGNED of lane `m` of a port that enters state `new`; `hit` lanes have lost lock; a KL port's marker lock shows as the
markers come. (DEDUCED, log entry 23) -/
def State.showLock (s : State) (m new : Nat) (hit : Bool) : State :=
  let s := s.setF (F.laneStatus_ALIGNED m) (bit (new == 5))
  if new = 4 ∨ new = 5 then s.setF (F.laneStatus_CDR_LOCK m) 1
  else if new = 9 ∨ new = 10 ∨ (new = 6 ∧ !hit) then s
  else s.setF (F.laneStatus_CDR_LOCK m) 0

/-- The port at `n` enters a state: its lanes mirror it, LANE_STATE is raised, the fabric and calibration follow (spec/04 R128,
R130, R145; spec/08 R270; spec/11 R359). (DEDUCED, log entry 23) -/
def State.goLink (s : State) (n new cause : Nat) (mask : Nat := 0) : State :=
  let from' := s.link n
  let ls := s.portLanes n
  let b := if new = 7 then s.nextBackoff n else 0
  let s := (s.modLane n fun x => { x with backoff := if new = 7 then b else x.backoff, wait := b }).setF (F.laneStatus_BACKOFF_S n) b
  let s := s.raise 0x0201 16 [(0, 2, n), (2, 1, from'), (3, 1, new), (4, 1, cause), (5, 1, s.fld (F.laneStatus_ATTEMPT n)),
    (6, 2, s.backoff n), (8, 1, s.fld (F.laneFom_CODE n)), (9, 1, mask),
    (12, 4, sat (2 ^ 32 - 1) (ticksMs (s.time.tick - (s.lane n).enterTick)))]
  let s := s.each ls fun s m => (s.setF (F.laneStatus_STATE m) new).showLock m new (bitAt mask (m - n))
  let s := s.setF (F.laneStatus_LAST_CAUSE n) cause
  let s := s.modLane n fun x => { x with
    enterTick := s.time.tick, attemptTick := if from' = 1 then s.time.tick else x.attemptTick, tries := 0, exiting := false, l1Announce := false, l1Sent := false, partnerL1 := false
    rx := if new = 5 then x.rx else {}, tx := if new = 5 then x.tx else { number := x.tx.number }, gen := [], chk := [], looped := [] }
  let s := s.when (new == 5 || new == 7) fun s => s.setF (F.laneStatus_ATTEMPT n) 0
  let s := s.when (new == 5 || cause == 0 || cause == 12) fun s => s.setF (F.laneStatus_RECOVERING n) 0
  let s := s.when (new == 5) fun s => (s.linkFresh n).portBack n
  let s := s.when (from' == 5 && new != 5) fun s => s.portDown n
  let s := s.each ls State.pathDrop
  s.each ((List.range 32).filter fun g => ls.any fun m => m / 4 == g) State.showPll

/-- An attempt fails (spec/04 R129 to R131): DETECT, or NO_PARTNER once ATTEMPTS have failed in a row. (DEDUCED, log entry 23) -/
def State.failAttempt (s : State) (n cause mask : Nat) : State :=
  if max 1 (s.fld (F.laneTrain_ATTEMPTS n)) ≤ s.fld (F.laneStatus_ATTEMPT n) then s.goLink n 7 10 else s.goLink n 1 cause mask

/-- The port is in AN, TRAIN or ALIGN. -/
def State.attempting (s : State) (n : Nat) : Bool := [2, 3, 4].contains (s.link n)

/-- Count an error of the lanes of a port (spec/04 R150). -/
def State.countLanes (s : State) (ls : List Nat) (k : Nat) : State := s.each ls fun s m => s.bump (F.laneErrCnt_COUNT m k)

/-- The port restarts in DETECT with a fresh count; QUARANTINE, LOOP and UCODE stay (spec/04 R114, R130, R141, R144). (DEDUCED, log entry 23) -/
def State.linkRestart (s : State) (n cause : Nat) (endQuar : Bool := false) : State :=
  let s := (s.linkFresh n).setF (F.laneStatus_RECOVERING n) 0
  let st := s.link n
  if (st = 8 ∧ !endQuar) ∨ st = 9 ∨ st = 12 ∨ st = 1 then s
  else
    let s := s.each (s.portLanes n) fun s m => s.setF (F.laneStatus_QUAR m) 0
    (s.modLane n fun x => { x with quarWidth := 0 }).goLink n 1 cause

/-- The port begins in DETECT, once its lanes are DISABLED (spec/04 R128). -/
def State.linkStart (s : State) (n : Nat) : State :=
  if s.validPort n && (s.portLanes n).all fun m => s.fld (F.laneStatus_STATE m) == 0 then (s.linkFresh n).goLink n 1 12 else s

/-- CFG_ERR of a lane (spec/04 R115, R148). -/
def State.showCfgErr (s : State) (m : Nat) : State :=
  s.setF (F.laneStatus_CFG_ERR m) (bit (match s.portOf m with
    | some n => !s.cfgOk n
    | none => s.laneEn m))

/-- A lane that belongs to no valid port shows nothing of one. -/
def State.clearLane (s : State) (m : Nat) : State :=
  let s := (s.setF (F.laneStatus_STATE m) 0).setF (F.laneStatus_ATTEMPT m) 0
  ((s.setF (F.laneStatus_RECOVERING m) 0).setF (F.laneStatus_CDR_LOCK m) 0).setF (F.laneStatus_ALIGNED m) 0

/-- STATE of the port's other lanes mirrors that of its first lane (spec/04 R128). -/
def State.mirror (s : State) (n : Nat) : State := s.each ((s.portLanes n).drop 1) fun s m => s.setF (F.laneStatus_STATE m) (s.link n)

/-- `write` changes the configuration of lanes of the eight from `b` on; ports in `again` restart (spec/04 R114, R115, R128, R141). -/
def State.lanesChange (s : State) (b : Nat) (write : State → State) (again : Nat → Bool) : State :=
  let old := s
  let new := write s
  let ns := (List.range 8).map (b + ·)
  let s := s.each (ns.filter fun n => old.validPort n && !new.validPort n && old.link n != 8) fun s n => s.goLink n 0 12
  let s := write s
  let s := s.each (ns.filter fun m => old.owner m != new.owner m && old.fld (F.laneStatus_STATE m) != 8) State.clearLane
  let s := s.each (ns.filter fun n => old.validPort n && new.validPort n && (again n || old.width n != new.width n)) fun s n =>
    s.linkRestart n 12
  let s := s.each (ns.filter fun n => !old.validPort n) State.linkStart
  let s := s.each (ns.filter s.validPort) State.mirror
  s.each ns fun s m => (s.showCfgErr m).showComp m

/-- After a boot the ports that the profile enables begin in DETECT. -/
def State.lanesBoot (s : State) : State :=
  let s := s.each (List.range 128) State.linkStart
  s.each (List.range 128) fun s m => (s.showCfgErr m).showComp m

/-- BACKOFF_S counts down once a second (spec/04 R148). -/
def State.showBackoff (s : State) : State :=
  s.each ((s.lanes.filter fun p => p.2.wait != 0).map (·.1)) fun s n =>
    s.setF (F.laneStatus_BACKOFF_S n) (((s.lane n).wait * 1600000000 - (s.time.tick - (s.lane n).enterTick) + 1599999999) / 1600000000)

/-- The lanes of a port keep their settings while it is in QUARANTINE, or take those written (spec/04 R141). -/
def State.freeze (s : State) (n w : Nat) (on : Bool) : State :=
  s.each ((List.range w).map (n + ·)) fun s m => s.modLane m fun x => { x with
    quarCfg := if on then some (s.reg (Reg.laneCfg m), s.reg (Reg.laneGrp (m / 4))) else none }

/-- A released port takes the settings written meanwhile, which may end or start its neighbours, and leaves QUARANTINE for DETECT, or for
DISABLED where its configuration has become wrong (spec/04 R141). -/
def State.quarRelease (s : State) (n cause : Nat) : State :=
  let w := (s.lane n).quarWidth
  let b := n / 8 * 8
  let s := s.lanesChange b (fun s => s.freeze n w false) fun _ => false
  let s := s.each ((List.range w).map (n + ·)) fun s m => (s.setF (F.laneStatus_QUAR m) 0).when (m != n) fun s => s.clearLane m
  let s := s.modLane n fun x => { x with quarWidth := 0 }
  let s := (s.linkFresh n).goLink n (if s.validPort n then 1 else 0) cause
  let s := s.each ((List.range 8).map (b + ·)) State.linkStart
  s.each ((List.range 8).map (b + ·)) State.showCfgErr

/-- The first lane of the quarantined port that lane `m` was part of. -/
def State.quarHead (s : State) (m : Nat) : Option Nat :=
  (s.lanes.find? fun p => decide (p.1 ≤ m) && decide (m < p.1 + p.2.quarWidth)).map (·.1)

/-! ### Relock nesting (spec/04 R134) -/

/-- TRIES × INTERVAL_MS is shorter than the port-down hold. -/
def relockOk (relock : Word) (holdMs : Nat) : Bool :=
  decide ((F.laneRelock_TRIES 0).of relock * max 1 ((F.laneRelock_INTERVAL_MS 0).of relock) < max 1 holdMs)

/-- A write of FABRIC_PORT's hold, or of RELOCK, that breaks the nesting is not applied and sets CFG_ERR. -/
def State.nestErr (s : State) (n : Nat) : State := s.setF (F.laneStatus_CFG_ERR n) 1

/-! ### Events of the link -/

/-- SIGNAL_DETECT (spec/04 R128, R129): an attempt begins. -/
def execSignalDetect (port : Fin 128) (s : State) : Host.Outcome State Fault Refusal :=
  let n := port.val
  .next (if s.up && s.validPort n && s.link n == 1 then
      let ls := s.portLanes n
      let s := s.each ls fun s m => (s.setF (F.laneStatus_SIGNAL m) 1).modLane m fun x => { x with coef := s.startCoef n m }
      let s := (s.countLanes ls 7).bump (F.laneStatus_ATTEMPT n)
      let new := if s.flag (F.laneCfg_C2M n) then 4 else if !s.isKl n && s.flag (F.laneCfg_AN_EN n) then 2 else 3
      s.goLink n new 1 (2 ^ ls.length - 1)
    else s)

/-- Lanes of the port at `n` named by a mask. -/
def State.maskLanes (s : State) (n mask : Nat) : List Nat := (s.portLanes n).filter fun m => bitAt mask (m - n)

/-- The port loses lock (spec/04 R133): RELOCK, or DETECT where TRIES is 0. -/
def State.loseLock (s : State) (n cause mask : Nat) : State :=
  let go := decide (0 < s.fld (F.laneRelock_TRIES n))
  let s := s.goLink n (if go then 6 else 1) cause mask
  let s := s.setF (F.laneStatus_RECOVERING n) 1
  if go then (s.countLanes (s.portLanes n) 6).modLane n fun x => { x with tries := 1 } else s

/-- The receiver of an ACTIVE port is held in L1, because the partner has announced it (spec/04 R138). -/
def State.heldL1 (s : State) (n : Nat) : Bool := s.link n == 5 && (s.lane n).partnerL1

/-- SIGNAL_LOSS (spec/04 R131, R133, R138): an attempt aborts and coefficients return to the preset; an ACTIVE port loses lock, unless its
receiver is held in L1. -/
def execSignalLoss (port : Fin 128) (mask : BitVec 8) (s : State) : Host.Outcome State Fault Refusal :=
  let n := port.val
  .next (if s.up && s.validPort n && !s.heldL1 n then
      let hit := s.maskLanes n mask.toNat
      let s := (s.each hit fun s m => s.setF (F.laneStatus_SIGNAL m) 0).countLanes hit 5
      if s.attempting n then
        (s.each (s.portLanes n) fun s m => s.modLane m fun x => { x with coef := s.startCoef n m }).failAttempt n 2 mask.toNat
      else if s.link n = 5 then s.loseLock n 2 mask.toNat
      else s
    else s)

/-- AN_DONE (spec/04 R128). -/
def execAnDone (port : Fin 128) (s : State) : Host.Outcome State Fault Refusal :=
  .next (if s.up && s.validPort port.val && s.link port.val == 2 then s.goLink port.val 3 4 else s)

/-- CODE of a lane is refreshed (spec/04 R135 to R137). -/
def State.setFom (s : State) (m code : Nat) : State :=
  let s := s.setF (F.laneFom_CODE m) code
  if s.fld (F.laneFom_WARN m) + 4 ≤ code then s.modLane m fun x => { x with fomLow := false } else s

/-- TRAIN_DONE (spec/04 R129): ALIGN, or a failed attempt where a lane's figure of merit is below MIN. -/
def execTrainDone (port : Fin 128) (foms : List (BitVec 8)) (preset : BitVec 4) (s : State) : Host.Outcome State Fault Refusal :=
  let n := port.val
  .next (if s.up && s.validPort n && s.link n == 3 then
      let s := s.each (s.portLanes n) fun s m => s.setFom m (foms.getD (m - n) 0).toNat
      let low := (s.portLanes n).filter fun m => decide (s.fld (F.laneFom_CODE m) < s.fld (F.laneFom_MIN m))
      if low.isEmpty then
        (s.each (s.portLanes n) fun s m => s.modLane m fun x => { x with
          coef := .adapted, klPreset := if s.isKl n then some preset else x.klPreset }).goLink n 4 5
      else s.failAttempt n 14 (idxMask (low.map (· - n)))
    else s)

/-- ALIGN ends (spec/04 R128, R129): on KL, with four good markers in a row and one good time sequence. -/
def State.aligned (s : State) (n : Nat) : Bool := !s.isKl n || (decide (4 ≤ (s.lane n).rx.good) && (s.lane n).rx.timed)

/-- ALIGN_DONE (spec/04 R128, R129); a port that has trained makes its lanes' calibrations due (spec/11 R360). -/
def execAlignDone (port : Fin 128) (s : State) : Host.Outcome State Fault Refusal :=
  let n := port.val
  .next (if s.up && s.validPort n && s.link n == 4 && s.aligned n then
      let s := s.goLink n 5 6
      s.each ((s.portLanes n).filter fun m => (s.lane m).coef == .adapted) State.calTrained
    else s)

/-- The timeout of an attempt in ms (spec/04 R130, R147): 500 in Ethernet mode; in KL mode TIMEOUT_MS, 50 to 5,000, and 300 for 0. -/
def State.attemptMs (s : State) (n : Nat) : Nat :=
  let t := s.fld (F.laneTrain_TIMEOUT_MS n)
  if !s.isKl n then 500 else if t = 0 then 300 else min 5000 (max 50 t)

/-- ATTEMPT_TIMEOUT (spec/04 R130): the attempt's time has passed since the port left DETECT. -/
def execAttemptTimeout (port : Fin 128) (s : State) : Host.Outcome State Fault Refusal :=
  let n := port.val
  .next (if s.up && s.validPort n && s.attempting n && decide ((s.lane n).attemptTick + 1600000 * s.attemptMs n ≤ s.time.tick) then
      s.failAttempt n 3 0
    else s)

/-- BACKOFF_DONE (spec/04 R130): the back-off has passed since the port entered NO_PARTNER. -/
def execBackoffDone (port : Fin 128) (s : State) : Host.Outcome State Fault Refusal :=
  let n := port.val
  .next (if s.up && s.validPort n && s.link n == 7 && decide ((s.lane n).enterTick + 1600000000 * (s.lane n).wait ≤ s.time.tick) then
      s.goLink n 1 11
    else s)

/-- LOCK_LOST (spec/04 R133); a receiver held for the partner's L1 loses nothing (R138). -/
def execLockLost (port : Fin 128) (mask : BitVec 8) (s : State) : Host.Outcome State Fault Refusal :=
  let n := port.val
  .next (if s.up && s.validPort n && s.link n == 5 && !(s.lane n).partnerL1 then s.loseLock n 7 mask.toNat else s)

/-- RELOCK_TRY_END (spec/04 R133). -/
def execRelockTryEnd (port : Fin 128) (ok : Bool) (mask : BitVec 8) (s : State) : Host.Outcome State Fault Refusal :=
  let n := port.val
  .next (if s.up && s.validPort n && s.link n == 6 then
      if ok then (s.each (s.portLanes n) fun s m => s.setF (F.laneStatus_SIGNAL m) 1).goLink n 5 8
      else if s.fld (F.laneRelock_TRIES n) ≤ (s.lane n).tries then s.goLink n 1 9 mask.toNat
      else (s.countLanes (s.portLanes n) 6).modLane n fun x => { x with tries := x.tries + 1 }
    else s)

/-- L2_EXIT_DONE (spec/04 R138, R142): DETECT, then training. -/
def execL2ExitDone (port : Fin 128) (s : State) : Host.Outcome State Fault Refusal :=
  let n := port.val
  .next (if s.up && s.validPort n && (s.lane n).exiting && (s.link n == 11 || s.link n == 12) then
      s.goLink n 1 (if s.link n = 11 then 15 else 13)
    else s)

/-- L1_EXIT_DONE (spec/04 R138). -/
def execL1ExitDone (port : Fin 128) (s : State) : Host.Outcome State Fault Refusal :=
  let n := port.val
  .next (if s.up && s.validPort n && (s.lane n).exiting && s.link n == 10 then s.goLink n 5 15 else s)

/-- ADAPT_PERIOD times 10 ms have passed since lane `m` last began a burst (spec/04 R136, R149). -/
def State.burstDue (s : State) (m : Nat) : Bool :=
  match Tab.find m s.cal.burst with
  | none => true
  | some t => decide (t + 16000000 * max 1 (s.fld (F.laneFom_ADAPT_PERIOD m)) ≤ s.time.tick + 1600000)

/-- ADAPT_BURST (spec/04 R136, R137; spec/11 R359): held while the lane's eye is scanned. -/
def execAdaptBurst (lane : Fin 128) (code : BitVec 8) (s : State) : Host.Outcome State Fault Refusal :=
  let m := lane.val
  .next (if s.up && (s.owner m).any s.portUp && !bitAt s.cal.eye.toNat m && s.burstDue m then
      let s := (s.pathDrop m).modCal fun x => { x with burst := Tab.put x.burst 0 m (s.time.tick + 1600000) }
      let s := s.setFom m code.toNat
      if decide (code.toNat < s.fld (F.laneFom_WARN m)) && !(s.lane m).fomLow then
        (s.modLane m fun x => { x with fomLow := true }).raise 0x0202 16 [(0, 2, m), (2, 1, code.toNat)]
      else s
    else s)

/-! ### Configuration writes -/

/-- `LANE_CFG[n]` takes the value `v` (spec/04 R115, R130). -/
def State.laneCfgSet (s : State) (n : Nat) (v : Word) : State :=
  let a := Reg.laneCfg n
  let new := v &&& rwMask a
  let diff := s.reg a ^^^ new
  let s' := s.lanesChange (n / 8 * 8) (fun s => s.setReg a new) fun p =>
    s.owner n == some p && (if p = n then diff != 0 else diff &&& 0x80FC0000#32 != 0)
  match s'.owner n with
  | some p => s'.linkFresh p
  | none => s'

/-- LANE_CFG_WRITE (spec/04 R115, R130, R134): word 0 `CFG`, 1 `TRAIN`, 2 `RELOCK`; a new port adds to the headroom region (spec/08 R260). (DEDUCED, log entry 23) -/
def State.laneWrite (s : State) (n word : Nat) (v : Word) : State :=
  let f (a : Nat) : Word := v &&& rwMask a
  match word with
  | 0 =>
    let s' := s.laneCfgSet n v
    s.headroomCheck s'.showDeep
  | 1 =>
    let s := (s.setReg (Reg.laneTrain n) (f (Reg.laneTrain n))).showCfgErr n
    match s.owner n with
    | some p => s.linkFresh p
    | none => s
  | _ =>
    let new := f (Reg.laneRelock n)
    if relockOk new (s.fld (F.fabricPort_PORT_DOWN_HOLD_MS n)) then
      let s := (s.setReg (Reg.laneRelock n) new).showCfgErr n
      match s.owner n with
      | some p => s.linkFresh p
      | none => s
    else s.nestErr n

def execLaneCfgWrite (_src : WrSrc) (lane : Fin 128) (word : Fin 3) (value : BitVec 32) (s : State) :
    Host.Outcome State Fault Refusal :=
  .next (if s.up then s.laneWrite lane.val word.val value else s)

/-- LANE_GRP_WRITE (spec/04 R114, R141): every port with a lane in the group retrains. -/
def State.grpWrite (s : State) (g : Nat) (v : Word) : State :=
  let a := Reg.laneGrp g
  let new := (s.reg a &&& ~~~(rwMask a)) ||| (v &&& rwMask a)
  s.lanesChange (g / 2 * 8) (fun s => s.setReg a new) fun p => (s.portLanes p).any fun m => m / 4 == g

def execLaneGrpWrite (_src : WrSrc) (group : Fin 32) (value : BitVec 32) (s : State) : Host.Outcome State Fault Refusal :=
  .next (if s.up then s.grpWrite group.val value else s)

/-- LOOP_SET (spec/04 R139, R140): MODE puts the lane's port in LOOP, or returns it to DETECT; the checker looks for its pattern anew. (DESIGN CHOICE, log entry 59) -/
def State.loopWrite (s : State) (m : Nat) (v : Word) : State :=
  let s := (s.setReg (Reg.laneLoop m) (v &&& rwMask (Reg.laneLoop m))).modLane m fun x => { x with chk := [] }
  match s.owner m with
  | none => s
  | some n =>
    let on := (s.portLanes n).any fun k => s.fld (F.laneLoop_MODE k) != 0
    let st := s.link n
    if on && st != 8 && st != 9 && st != 12 then s.goLink n 9 12
    else if !on && st == 9 then (s.linkFresh n).goLink n 1 12
    else s

def execLoopSet (_src : WrSrc) (lane : Fin 128) (value : BitVec 32) (s : State) : Host.Outcome State Fault Refusal :=
  .next (if s.up then s.loopWrite lane.val value else s)

/-! ### Commands (spec/04 R144) -/

/-- LANE_RETRAIN (spec/04 R130, R144). (DESIGN CHOICE, log entry 59) -/
def execLaneRetrain (c : Cmd) (s : State) : Host.Outcome State Fault Refusal :=
  .next (s.start c 0x0201 (c.ok 2) fun s =>
    let n := c.fld 0 2
    if !s.portExists n then s.complete c 0x0201 st.badArg
    else if [0, 8, 9, 12].contains (s.link n) then s.complete c 0x0201 st.badState
    else (s.linkRestart n 0).complete c 0x0201 st.ok)

/-- LANE_QUARANTINE (spec/04 R141, R144). (DESIGN CHOICE, log entry 59) -/
def execLaneQuarantine (c : Cmd) (s : State) : Host.Outcome State Fault Refusal :=
  .next (s.start c 0x0202 (c.ok 4 && decide (c.fld 2 1 < 2) && decide (c.fld 3 1 < 2)) fun s =>
    let m := c.fld 0 2
    let prbs := c.fld 3 1 == 1
    match s.quarHead m with
    | some n =>
      if c.fld 2 1 = 0 then (s.quarRelease n 0).complete c 0x0202 st.ok
      else
        ((s.modLane n fun x => { x with quarPrbs := prbs }).setF (F.laneStatus_QUAR m) 1).complete c 0x0202 st.ok
    | none =>
      match s.portOf m with
      | none => s.complete c 0x0202 st.badArg
      | some n =>
        if c.fld 2 1 = 0 then s.complete c 0x0202 st.ok
        else if [0, 9, 12].contains (s.link n) then s.complete c 0x0202 st.badState
        else
          let w := s.width n
          let s := ((s.goLink n 8 0).modLane n fun x => { x with quarPrbs := prbs, quarWidth := w }).freeze n w true
          (s.setF (F.laneStatus_QUAR m) 1).complete c 0x0202 st.ok)

/-- LANE_POWER (spec/04 R138): a KL port announces L1 for one superframe before it enters it. (DESIGN CHOICE, log entry 59) -/
def execLanePower (c : Cmd) (s : State) : Host.Outcome State Fault Refusal :=
  .next (s.start c 0x0203 (c.ok 3 && decide (c.fld 2 1 < 3)) fun s =>
    let n := c.fld 0 2
    let t := c.fld 2 1
    let l := s.link n
    if !s.portExists n then s.complete c 0x0203 st.badArg
    else if t = 0 ∧ (l = 10 ∨ l = 11) then (s.modLane n fun x => { x with exiting := true }).complete c 0x0203 st.ok
    else if t = 0 ∧ l = 5 then (s.modLane n fun x => { x with l1Announce := false }).complete c 0x0203 st.ok
    else if t = 1 ∧ l = 5 then
      (if s.isKl n then s.modLane n fun x => { x with l1Announce := true } else s.goLink n 10 15).complete c 0x0203 st.ok
    else if t = 2 ∧ (l = 5 ∨ l = 10) then (s.goLink n 11 15).complete c 0x0203 st.ok
    else if (t = 1 ∧ l = 10) ∨ (t = 2 ∧ l = 11) then (s.modLane n fun x => { x with exiting := false }).complete c 0x0203 st.ok
    else s.complete c 0x0203 st.badState)

/-! ### Microcode (spec/04 R142) -/

/-- The staged image that a staging identifier names (spec/17 R525). -/
def State.stagedImage (s : State) (id : Nat) : Option Image :=
  if id % 2 ^ 24 = s.sec.stageSeq.toNat then s.sec.staged.find? fun i => i.component.toNat == id / 2 ^ 24 else none

/-- Ports with a lane in group `g`. -/
def State.grpPorts (s : State) (g : Nat) : List Nat :=
  s.ports'.filter fun n => s.cfgOk n && (s.portLanes n).any fun m => m / 4 == g

/-- A load of group `g` begins: its ports enter UCODE; a quarantined port stays. (DESIGN CHOICE, log entry 59) -/
def State.ucodeBegin (s : State) (g : Nat) : State :=
  s.each ((s.grpPorts g).filter fun n => s.link n != 8 && s.link n != 12) fun s n => s.goLink n 12 13

/-- The operation replaces microcode: LANE_UCODE_LOAD, or an UPD_INSTALL of LANE_UCODE. -/
def LongOp.ucodeOp (o : LongOp) : Bool := o.op == 0x0204 || (o.op == 0x0E02 && o.args.getD 0 0 == 5)

/-- A microcode load of some group runs. -/
def LongOp.loadsUcode (o : LongOp) : Bool := o.state == .running && o.ucodeOp

/-- The group that the operation loads now. -/
def LongOp.ucodeGroup (o : LongOp) : Nat := if o.op = 0x0204 then o.args.getD 0 0 else o.progress

/-- LANE_UCODE_LOAD (spec/04 R142, R144; spec/01 R45): an unverified image gives AUTH_FAIL, another identifier BAD_ARG. -/
def execLaneUcodeLoad (c : Cmd) (s : State) : Host.Outcome State Fault Refusal :=
  .next (s.start c 0x0204 (c.ok 8 [(1, 3)] && decide (c.fld 0 1 < 32)) fun s =>
    match s.stagedImage (c.fld 4 4) with
    | none => s.complete c 0x0204 st.badArg
    | some i =>
      if i.component ≠ 5 then s.complete c 0x0204 st.badArg
      else if s.host.longOps.any LongOp.loadsUcode then s.complete c 0x0204 st.badState
      else s.startLong c 0x0204 0x0204 1 [c.fld 0 1, i.version.toNat] fun s _ => s.ucodeBegin (c.fld 0 1))

/-- UCODE_LOAD_DONE (spec/04 R142): result 0 OK, 1 image refused, 2 load fault; the lanes exit L2 and train. -/
def execUcodeLoadDone (group : Fin 32) (result : Fin 3) (s : State) : Host.Outcome State Fault Refusal :=
  let g := group.val
  .next (match s.host.longOps.find? fun o => o.loadsUcode && o.ucodeGroup == g with
    | none => s
    | some o =>
      let v := o.args.getD 1 0
      let s := s.when (result == 0) fun s => s.setF (F.laneGrp_UCODE_VER g) v
      let s := s.each ((s.grpPorts g).filter fun n => s.link n == 12) fun s n => s.modLane n fun x => { x with exiting := true }
      let s := s.raise 0x0203 16 [(0, 1, g), (2, 2, v), (4, 1, result.val)]
      if result ≠ 0 then s.endLong o.handle (if result = 1 then st.authFail else st.hwFault)
      else if o.op = 0x0204 then s.endLong o.handle st.ok
      else
        let s := s.modLong o.handle fun o => { o with progress := o.progress + 1 }
        if o.progress + 1 = 32 then
          match s.sec.staged.find? fun i => i.component == 5 with
          | some i =>
            let s := { s with sec := { s.sec with running := i :: s.sec.running.filter (·.component ≠ 5) } }
            let s := s.setF F.updStatus_INSTALLED (s.fld F.updStatus_INSTALLED ||| 2 ^ 5)
            (s.setReg (Reg.updCompRun 5) i.version).endLong o.handle st.ok
          | none => s.endLong o.handle st.ok
        else if o.suspend.isSome then s
        else s.ucodeBegin (o.progress + 1))

/-! ### Eye scan (spec/04 R143) -/

/-- LANE_EYE_SCAN. -/
def execLaneEyeScan (c : Cmd) (s : State) : Host.Outcome State Fault Refusal :=
  let p := c.fld 2 1
  let v := c.fld 3 1
  .next (s.start c 0x0205 (c.ok 16 [(4, 4)] && decide (1 ≤ p) && decide (p ≤ 128) && decide (1 ≤ v) && decide (v ≤ 128) &&
      c.fld 8 8 % 4 == 0 && s.bufOk c.src (c.fld 8 8) (4 * p * v)) fun s =>
    let n := c.fld 0 2
    if !s.portExists n then s.complete c 0x0205 st.badArg
    else
      s.startLong c 0x0205 (0x20000 + n) (p * v) [n, c.fld 8 8] fun s _ =>
        (s.pathDrop n).modCal fun x => { x with eye := x.eye ||| BitVec.ofNat 128 (2 ^ n) })

/-- A scan of lane `n` no longer runs. -/
def State.eyeOff (s : State) (n : Nat) : State := s.modCal fun x => { x with eye := x.eye &&& ~~~(BitVec.ofNat 128 (2 ^ n)) }

/-! ### Lines and patterns (spec/04 R121, R139, R140, R150) -/

/-- The state code of lane `m`'s port, whose settings may have become wrong in QUARANTINE. -/
def State.laneState (s : State) (m : Nat) : Nat := s.fld (F.laneStatus_STATE m)

/-- The pattern generator and checker of lane `m` may run: its port is in LOOP or QUARANTINE (spec/04 R140). -/
def State.patternOn (s : State) (m : Nat) : Bool := s.laneState m == 8 || s.laneState m == 9

/-- The loop that the port at `n` runs: that of its first lane with one set (spec/04 R139). -/
def State.loopMode (s : State) (n : Nat) : Nat := (((s.portLanes n).map fun m => s.fld (F.laneLoop_MODE m)).find? (· ≠ 0)).getD 0

/-- The generator of lane `m` runs (spec/04 R140). -/
def State.genRuns (s : State) (m : Nat) : Bool :=
  s.patternOn m && s.flag (F.laneLoop_GEN_EN m) && prbsHas (s.pam4 m) (s.fld (F.laneLoop_PATTERN m))

/-- What lane `m` drives onto its balls. (PRESUMED, log entry 58) -/
def State.drive (s : State) (m : Nat) : Drive :=
  let st := s.laneState m
  let loop := s.loopMode ((s.portOf m).getD m)
  if st = 0 ∨ st = 11 ∨ st = 12 ∨ (st = 9 ∧ loop = 1) then .off
  else if s.genRuns m then .pattern (s.fld (F.laneLoop_PATTERN m))
  else if st = 8 then (if (s.quarHead m).any fun n => (s.lane n).quarPrbs then .pattern 5 else .electricalIdle)
  else if st = 9 then (if loop = 3 then .far else .fill)
  else if st = 10 then .electricalIdle
  else if st = 5 then .traffic
  else if st = 4 ∨ st = 6 then .fill
  else .training

/-- Bits of lane `m` whose polarity is inverted where `inv` says so (spec/04 R115, R150). (DESIGN CHOICE, log entry 59) -/
def State.polar (s : State) (m : Nat) (inv : Bool) (l : List Bool) : List Bool :=
  if inv then (unmapSyms (s.pam4 m) ((mapBits (s.pam4 m) l).map Fin.rev)).take l.length else l

/-- The generator's next `k` bits and its register after them (spec/04 R140); it begins with all ones. -/
def State.patternBits (s : State) (m k : Nat) : List Bool × List Bool :=
  let p := s.fld (F.laneLoop_PATTERN m)
  prbs p k (if (s.lane m).gen.isEmpty then List.replicate (prbsTaps p).1 true else (s.lane m).gen)

/-- The checker of lane `m` has received bits (spec/04 R140). -/
def State.checkPattern (s : State) (m : Nat) (bits : List Bool) : State :=
  if s.patternOn m && s.flag (F.laneLoop_CHK_EN m) && prbsHas (s.pam4 m) (s.fld (F.laneLoop_PATTERN m)) then
    let r := prbsCheck (s.fld (F.laneLoop_PATTERN m)) (s.lane m).chk bits
    (s.modLane m fun x => { x with chk := r.2 }).bump (F.laneErrCnt_COUNT m 8) r.1
  else s

/-- While lane `m` has received `bits`, its generator has sent as many: onto its balls, or in a near-end serial loop to its own checker
(spec/04 R139, R140). -/
def State.patterns (s : State) (m : Nat) (bits : List Bool) : State :=
  if s.genRuns m then
    let g := s.patternBits m bits.length
    let s := s.modLane m fun x => { x with gen := g.2 }
    if s.drive m = .off then s.checkPattern m g.1
    else (s.out (.pattern m (s.polar m (s.flag (F.laneCfg_TX_INV m)) g.1))).checkPattern m (s.polar m (s.flag (F.laneCfg_RX_INV m)) bits)
  else s.checkPattern m (s.polar m (s.flag (F.laneCfg_RX_INV m)) bits)

/-- What the receivers of the port at `n` have met is counted (spec/04 R140, R150); a KL receiver finds its errors itself. -/
def State.lineErrs (s : State) (n : Nat) (l : List LineErr) : State :=
  s.each (l.filter fun e => (s.portLanes n).contains (n + e.lane.val)) fun s e =>
    let m := n + e.lane.val
    let s := s.when (!s.isKl n) fun s =>
      ((s.bump (F.laneErrCnt_COUNT m 0) e.symbols).bump (F.laneErrCnt_COUNT m 1) e.corrected).bump (F.laneErrCnt_COUNT m 2) e.lost
    s.patterns m e.pattern

/-- The port at `n` retransmits what it recovers; or its receiver has its own transmitter's output (spec/04 R139). -/
def State.farLoop (s : State) (n : Nat) : Bool := s.link n == 9 && s.loopMode n == 3
def State.nearLoop (s : State) (n : Nat) : Bool := s.link n == 9 && (s.loopMode n == 1 || s.loopMode n == 2)

/-! ### KL markers (spec/04 R122 to R126) -/

/-- Superblock that a marker command is for: by a good marker's own words, else the one expected. -/
def KlRx.place (x : KlRx) (w : BitVec 64) : Option Nat := if markerOk w then (markerIdx w).or x.idx else x.idx

/-- A superframe begins at or before this marker, and after the one before it. -/
def KlRx.wraps (x : KlRx) (w : BitVec 64) : Bool :=
  match x.place w, x.idx with
  | some p, some e => p == 0 || e == 0 || decide (p < e)
  | some p, none => p == 0
  | none, _ => false

/-- The receiver takes a marker stamped `t` (spec/04 R123, R129, R133). (PRESUMED, log entry 58) -/
def KlRx.take (x : KlRx) (w : BitVec 64) (t : Stamp) : KlRx :=
  let p := x.place w
  let words := if x.wraps w then 0 else x.words
  let next := p.map fun i => (i + 1) % 256
  if markerOk w then
    let ty := (w.extractLsb' 40 8).toNat
    let words := if 0x10 ≤ ty ∧ ty ≤ 0x13 then words ||| BitVec.ofNat 4 (2 ^ (ty - 0x10)) else words
    let f := (w.extractLsb' 31 9).toNat
    { x with idx := next, good := x.good + 1, bad := 0, words := words, timed := x.timed || words == 0xF, last := t
             lock := x.lock || decide (4 ≤ x.good + 1)
             fptr := if ty = 1 ∧ f ≠ 0x1FF then Tab.ins (p.getD 0) f x.fptr else x.fptr }
  else { x with idx := next, good := 0, bad := x.bad + 1, words := words, lock := x.lock && decide (x.bad + 1 < 4) }

/-- The time-message engine follows the partner's superframes (spec/04 R126, spec/10 R331). -/
def State.klEngine (s : State) (n : Nat) (x : KlRx) (w : BitVec 64) (t : Stamp) : State :=
  match s.klSess n with
  | none => s
  | some i =>
    let ty := (w.extractLsb' 40 8).toNat
    let s := s.when (x.wraps w) fun s => s.klStart i (if markerOk w && x.place w == some 0 then some t else none)
    s.when (markerOk w && decide (0x10 ≤ ty) && decide (ty ≤ 0x13)) fun s => s.klWord i (ty - 0x10) (w.extractLsb' 8 32)

/-- The payload before a marker that receiver `x` awaits has come (spec/04 R119 to R124, R150): its codeword and the end of the delineation
are counted; frames count while the port is up. -/
def State.klPayload (s : State) (n : Nat) (bits : List Bool) : State :=
  let x := (s.lane n).rx
  match x.idx with
  | none => s
  | some e =>
    let s := s.when (s.pam4 n && e == 0) fun s => s.bump (F.laneErrCnt_COUNT n 0) (monitorErrors bits)
    let r := x.payload (s.pam4 n) ((e + 255) % 256) bits
    let s := s.modLane n fun y => { y with rx := if s.portUp n then r.1 else { r.1 with frames := [] } }
    let s := match r.2.2 with
      | none => s
      | some none => s.bump (F.laneErrCnt_COUNT n 2)
      | some (some k) => s.when (k != 0) fun s => s.bump (F.laneErrCnt_COUNT n 1)
    s.when (r.2.1 && s.portUp n) fun s => s.countPort n 16

/-- A marker `w` stamped `t` has come (spec/04 R123, R126, R129, R133, R138, R148, R150; spec/10 R331). -/
def State.klMark (s : State) (n : Nat) (w : BitVec 64) (t : Stamp) : State :=
  let x := (s.lane n).rx
  let s := s.modLane n fun y => { y with rx := x.take w t }
  let s := s.setF (F.laneStatus_ALIGNED n) (bit (s.lane n).rx.lock)
  let s := if markerOk w then s.countStamp n 0 else s.bump (F.laneErrCnt_COUNT n 4)
  let s := s.when (markerOk w && w.extractLsb' 40 8 == 1) fun s => s.modLane n fun y => { y with partnerL1 := w.getLsbD 21 }
  let s := s.klEngine n x w t
  if s.portUp n && !(s.lane n).partnerL1 && decide (4 ≤ (s.lane n).rx.bad) then s.loseLock n 7 1 else s

/-- The symbols that reach the receiver of the port at `n`: those of its line, or in a near-end loop those that its own transmitter has
sent up to the end of a marker (spec/04 R139). (DESIGN CHOICE, log entry 59) -/
def State.klSymbols (s : State) (n : Nat) (l : List (Fin 4)) : Option (List (Fin 4)) :=
  if s.nearLoop n then (match (s.lane n).looped with | a :: _ :: _ => some a | _ => none)
  else some (if s.flag (F.laneCfg_RX_INV n) then l.map Fin.rev else l)

/-- KL_MARKER_RX (spec/04 R119 to R126, R139): the receiver undoes stuffing and mapping, then takes the payload and the marker after it. -/
def execKlMarkerRx (lane : Fin 128) (m : KlMarker) (st : StampIn) (s : State) : Host.Outcome State Fault Refusal :=
  let n := lane.val
  .next (if !(s.up && s.klRuns n) then s
    else
      let s := s.lineErrs n m.errs
      match s.klSymbols n m.symbols with
      | none => s
      | some l =>
        let r := klReceive (s.pam4 n) (s.lane n).rx.run l
        let s := s.modLane n fun y => { y with rx := { y.rx with run := r.1 }, looped := y.looped.drop 1 }
        let s := s.bump (F.laneErrCnt_COUNT n 3) r.2.1
        let s := s.when (s.farLoop n) fun s => s.out (.far n (r.2.2.1 ++ msbBits 64 r.2.2.2.toNat))
        (s.klPayload n r.2.2.1).klMark n r.2.2.2 (s.markerStamp n (s.captured n 0 st) true))

/-- A superframe that announced L1 has ended (spec/04 R138). -/
def LaneSt.l1Due (x : LaneSt) : Bool := x.tx.idx == 0 && x.l1Announce && x.l1Sent

/-- The L1 flag of the next marker: a superframe announces L1 from its first marker on, or not at all. -/
def LaneSt.l1Says (x : LaneSt) : Bool := if x.tx.idx = 0 then x.l1Announce else x.l1Announce && x.l1Sent

/-- The superblock that port `n` sends next, its marker stamped `t`: what its transmitter then holds, the marker and the symbols; L1 is
announced for whole superframes (spec/04 R119 to R126, R138). -/
def State.klNext (s : State) (n : Nat) (t : Stamp) : KlTx × BitVec 64 × List (Fin 4) :=
  let x := s.lane n
  { x.tx with first := if x.tx.idx = 0 then t else x.tx.first, last := t }.superblock (s.pam4 n) (!s.portUp n) x.l1Says

/-- Symbols on the line that the marker `w` takes, after a run. -/
def klMarkLen (pam4 : Bool) (r : Run) (w : BitVec 64) : Nat := (stuff r (mapBits pam4 (msbBits 64 w.toNat))).1.length

/-- A superblock of `l` joins what a near-end loop holds: its first `k` symbols are those of its marker. -/
def loopIn (q : List (List (Fin 4))) (k : Nat) (l : List (Fin 4)) : List (List (Fin 4)) :=
  q.dropLast ++ [q.getLastD [] ++ l.take k, l.drop k]

/-- KL_MARKER_TX (spec/04 R119 to R126, R138, R139): the next superblock leaves; or, the superframe that announced L1 having ended, the
port enters L1. (DESIGN CHOICE, log entry 59) -/
def execKlMarkerTx (lane : Fin 128) (st : StampIn) (s : State) : Host.Outcome State Fault Refusal :=
  let n := lane.val
  .next (if !(s.up && s.klRuns n) then s
    else if (s.lane n).l1Due then s.goLink n 10 15
    else
      let x := s.lane n
      let t := s.markerStamp n (s.captured n 1 st) false
      let y := s.klNext n t
      let s := (s.modLane n fun x => { x with tx := y.1, l1Sent := x.l1Says }).countStamp n 1
      let s := s.when (s.nearLoop n) fun s => s.modLane n fun z => { z with looped := loopIn z.looped (klMarkLen (s.pam4 n) x.tx.run y.2.1) y.2.2 }
      if s.drive n = .traffic ∨ s.drive n = .fill then
        s.out (.superblock n x.tx.idx y.2.1 t (if s.flag (F.laneCfg_TX_INV n) then y.2.2.map Fin.rev else y.2.2))
      else s)

end Sys2Proof.Machine
end

