-- ==== Sys2Proof/Machine/PortRows.lean ====
section
/-!
DEFINITION. Sys2Proof/Machine/PortRows.lean: the commands and events of ports and modules (spec/05): received and transmitted pause,
pause storms, station address, statistics snapshots, module accesses over I2C, the SGPIO chain.
-/
namespace Sys2Proof.Machine
open Sys2Proof

/-! ### Pause (spec/05 R160 to R164) -/

/-- A good frame of `len` bytes has been received; its address is unicast (0), group (1) or broadcast (2) (spec/05 R165). -/
def State.countGood (s : State) (n len cast : Nat) : State :=
  ((((s.countPort n 19 len).countPort n 0 len).countPort n 1).countPort n (2 + cast)).countPort n (20 + lenBin len)

/-- A valid PAUSE or PFC frame has ended its FCS check (spec/05 R160, R161, R165). -/
def State.pauseIn (s : State) (n : Nat) (p : PauseIn) : State :=
  let s := s.countPort n (if p.pfc then 6 else 5)
  let q (i : Nat) : Nat := (p.quanta.getD i 0).toNat
  let en := maskIdx 8 p.enable.toNat
  let s := s.when p.pfc fun s => s.each (en.filter fun i => q i != 0) fun s i => s.countPort n (48 + i)
  let s := if s.quiet then s
    else if p.pfc then (if s.pauseMode n = 2 then s.each en fun s i => s.rxPause n i (q i) else s)
    else if s.pauseMode n = 1 then s.rxPause n 0 (q 0) else s
  s.showPause n

/-- PAUSE_RX: a frame of 64 bytes to the group address of MAC control; its stamp counts (spec/09 R294, R320). -/
def execPauseRx (port : Fin 128) (p : PauseIn) (s : State) : Host.Outcome State Fault Refusal :=
  .next (if s.up && s.portUp port.val then ((s.countStamp port.val 0).countGood port.val 64 1).pauseIn port.val p else s)

/-- PAUSE_EXPIRE (spec/05 R161). -/
def execPauseExpire (port : Fin 128) (pri : Fin 8) (s : State) : Host.Outcome State Fault Refusal :=
  let t := Tab.get (s.mac port.val).pauseEnd 0 pri.val
  .next (if t = 0 ∨ s.time.tick < t then s else (s.endPause port.val pri.val).showPause port.val)

/-- The storm time of a port in ticks (spec/05 R164, R179). -/
def State.stormTicks (s : State) (n : Nat) : Nat := 1600000 * min 10000 (s.fld (F.portStorm_MS n))

/-- PAUSE_STORM (spec/05 R164, R173): the priorities that have been stopped for the storm time are marked; with ACT they are ignored. The event names those of this
case. (DESIGN CHOICE, log entry 66) -/
def execPauseStorm (port : Fin 128) (pris : BitVec 8) (s : State) : Host.Outcome State Fault Refusal :=
  let n := port.val
  let hit := (maskIdx 8 pris.toNat).filter fun p => !bitAt (s.fld (F.portPauseStatus_STORM n)) p &&
    (Tab.find p (s.mac n).stopTick).any fun t => decide (t + s.stormTicks n ≤ s.time.tick)
  .next (if !s.up || s.fld (F.portStorm_MS n) == 0 || hit.isEmpty then s
    else
      let m := idxMask hit
      let s := (s.setF (F.portPauseStatus_STORM n) (s.fld (F.portPauseStatus_STORM n) ||| m)).countPort n 47
      let s := s.raise 0x0303 16 ([(0, 2, n), (2, 1, m)] ++ Stamp.fields s.now 4)
      if s.flag (F.portStorm_ACT n) then
        (s.modMac n fun x => { x with
          ignore := x.ignore ||| BitVec.ofNat 8 m
          pauseEnd := hit.foldl (fun t p => Tab.put t 0 p 0) x.pauseEnd
          stopTick := hit.foldl (fun t p => Tab.del p t) x.stopTick
          pauseTick := hit.foldl (fun t p => Tab.ins p s.time.tick t) x.pauseTick }).showPause n
      else s)

/-- PAUSE_STORM_END (spec/05 R164). -/
def execPauseStormEnd (port : Fin 128) (pri : Fin 8) (s : State) : Host.Outcome State Fault Refusal :=
  let n := port.val
  .next (if bitAt (s.mac n).ignore.toNat pri.val && decide (Tab.get (s.mac n).pauseTick 0 pri.val + s.stormTicks n ≤ s.time.tick) then
      (s.modMac n fun x => { x with ignore := x.ignore &&& ~~~(BitVec.ofNat 8 (2 ^ pri.val)) }).endPause n pri.val
    else s)

/-- XOFF_REFRESH (spec/05 R162). -/
def execXoffRefresh (port : Fin 128) (s : State) : Host.Outcome State Fault Refusal :=
  .next (s.sendPause port.val (s.refreshDue port.val) fun p =>
    if bitAt (s.refreshDue port.val) p then s.fld (F.portPause_TX_QUANTA port.val) else 0)

/-- SA_COMMIT (spec/05 R179). -/
def execSaCommit (_src : WrSrc) (port : Fin 128) (value : BitVec 32) (s : State) : Host.Outcome State Fault Refusal :=
  .next (if s.up then s.saWrite port.val value else s)

/-! ### Snapshots (spec/05 R167, R168) -/

/-- TX_PAUSED_TICKS of a stop in progress is brought up to date. -/
def State.flushPaused (s : State) (n : Nat) : State :=
  if (s.mac n).stopFrom = 0 then s
  else (s.countPort n 36 (s.time.tick + 1 - (s.mac n).stopFrom)).modMac n fun m => { m with stopFrom := s.time.tick + 1 }

/-- STATS_SNAPSHOT (spec/05 R167): one at a time waits for its boundary. -/
def execStatsSnapshot (c : Cmd) (s : State) : Host.Outcome State Fault Refusal :=
  .next (s.start c 0x0301 (c.ok 40 [(26, 6)] && c.fld 32 8 % 64 == 0 &&
      s.bufOk c.src (c.fld 32 8) (64 + 576 * (s.ports'.filter (bitAt (c.fld 0 16))).length) && decide (c.fld 22 4 < 100000)) fun s =>
    if s.ports.snap.isSome then s.complete c 0x0301 st.busy
    else if !s.nameOk (c.fld 22 4) (boundaryName (c.fld 16 6) (c.fld 22 4)) then s.complete c 0x0301 st.badArg
    else
      let (s, id) := s.parkId c 0x0301
      { s with ports := { s.ports with snap := some { id := id, ports := BitVec.ofNat 128 (c.fld 0 16), name := boundaryName (c.fld 16 6) (c.fld 22 4), addr := c.fld 32 8 } } })

/-- The block of one port in the buffer. -/
def State.snapBlock (s : State) (n off : Nat) : List (Nat × Nat × Nat) :=
  [(off, 2, n), (off + 2, 1, s.link n)] ++ (List.range 64).map fun k => (off + 16 + 8 * k, 8, Tab.get s.ctr 0 (Reg.portCntLo n k))

/-- Order 6 (spec/01 R31, R32): the snapshot that is due latches and clears its counters, or is deferred while the previous transfer
runs; one whose name a step has skipped ends with BAD_STATE. -/
def State.snapBoundary (s : State) : State :=
  match s.ports.snap with
  | none => s
  | some w =>
    if s.skippedName w.name then
      ({ s with ports := { s.ports with snap := none } }.finish w.id st.badState).late 8
    else if !s.dueName w.name then s
    else if s.ports.xfer.isSome then
      { s with ports := { s.ports with snap := some { w with name := none, deferred := true } } }.late 2
    else
      let ps := s.ports'.filter fun p => bitAt w.ports.toNat p
      let s := s.each ps State.flushPaused
      let len := 64 + 576 * ps.length
      let blocks := (List.range ps.length).map fun i => s.snapBlock (ps.getD i 0) (64 + 576 * i)
      let data := (packLE (8 * len) (Stamp.fields s.now 0 ++ [(12, 4, s.time.idx % 100000), (16, 2, ps.length)] ++ blocks.flatten)).toNat
      let ctr := s.ctr.filter fun e => !(ps.any fun p => decide (Reg.portCntLo p 0 ≤ e.1) && decide (e.1 ≤ Reg.portCntLo p 63))
      let s := s.modParked w.id fun p => { p with issued := true, partly := true }
      { s with ctr := ctr, ports := { s.ports with snap := none, xfer := some { id := w.id, src := ((s.parkedAt w.id).map (·.cmd.src)).getD .host, addr := w.addr, len := len, data := data } } }

/-- SNAPSHOT_XFER_DONE: the buffer is in host memory, then the completion follows. -/
def execSnapshotXferDone (s : State) : Host.Outcome State Fault Refusal :=
  .next (match s.ports.xfer with
    | none => s
    | some x => ({ s with ports := { s.ports with xfer := none } }.bufWrite x.src x.addr x.len x.data).finish x.id st.ok)

/-! ### Modules (spec/05 R169 to R173) -/

def State.bus (s : State) (b : Nat) : BusSt := Tab.get s.ports.bus {} b
def State.modBus (s : State) (b : Nat) (f : BusSt → BusSt) : State :=
  { s with ports := { s.ports with bus := Tab.put s.ports.bus {} b (f (s.bus b)) } }
def State.modSlotIo (s : State) (m : Nat) (f : SlotIo → SlotIo) : State :=
  { s with ports := { s.ports with slot := Tab.put s.ports.slot {} m (f (Tab.get s.ports.slot {} m)) } }

/-- What an access puts on its bus (spec/05 R169, R171): for upper memory, a bank or page select that differs from the last one written
to the slot, then the access. -/
def State.i2cMsgs (s : State) (x : I2cXfer) : List I2cMsg :=
  let y := Tab.get s.ports.slot {} x.slot
  let sel (k v : Nat) (was : Option Nat) : List I2cMsg :=
    if 128 ≤ x.offset ∧ was ≠ some v then [{ slot := x.slot, bytes := [BitVec.ofNat 8 k, BitVec.ofNat 8 v] }] else []
  let off := BitVec.ofNat 8 x.offset
  sel 126 x.bank y.bank ++ sel 127 x.page y.page ++
    [{ slot := x.slot, bytes := off :: (if x.write then natBytes x.len x.data else []), read := if x.write then 0 else x.len }]

/-- What an access writes to byte `k` (126 the bank, 127 the page) of its module, if it does: a select, or data in lower memory. (DESIGN CHOICE, log entry 66) -/
def I2cXfer.selects (x : I2cXfer) (k : Nat) (was : Option Nat) : Option Nat :=
  if 128 ≤ x.offset then some (if k = 126 then x.bank else x.page)
  else if x.write && decide (x.offset ≤ k) && decide (k < x.offset + x.len) then some (x.data / 256 ^ (k - x.offset) % 256)
  else was

/-- The first access of the bus begins: its slot's ModSelL is asserted, those of the bus's other slots are not; what it writes to the
bank and page selects is the last value written to the slot (spec/05 R169, R170). (DESIGN CHOICE, log entry 66) -/
def State.busStart (s : State) (b : Nat) : State :=
  match (s.bus b).xfers with
  | x :: _ => (s.modBus b fun y => { y with sel := some x.slot, msgs := (s.i2cMsgs x).reverse ++ y.msgs }).modSlotIo x.slot fun y =>
      { y with bank := x.selects 126 y.bank, page := x.selects 127 y.page }
  | [] => s

/-- After a NACK no select counts as written: the next access of upper memory repeats both. (DESIGN CHOICE, log entry 66) -/
def State.unselect (s : State) (m : Nat) : State := s.modSlotIo m fun y => { y with bank := none, page := none }

/-- An access to module memory joins its bus. -/
def State.modAccess (s : State) (c : Cmd) (op : Nat) (write : Bool) : State :=
  let m := c.fld 0 1
  if s.flag (F.portMod_PRESENT m) then
    let (s, id) := s.parkId c op true
    let x : I2cXfer := { id := id, src := c.src, slot := m, write := write, bank := c.fld 1 1, page := c.fld 2 1, offset := c.fld 3 1, len := c.fld 4 1, addr := if write then 0 else c.fld 8 8, data := if write then c.fld 8 8 else 0 }
    let idle := (s.bus (m % 16)).xfers.isEmpty
    let s := s.modBus (m % 16) fun y => { y with xfers := y.xfers ++ [x] }
    if idle then s.busStart (m % 16) else s
  else s.complete c op st.badState

/-- The bytes stay on one side of offset 128 and below 256 (spec/05 R171). -/
def modRangeOk (off len most : Nat) : Bool :=
  decide (1 ≤ len) && decide (len ≤ most) && decide (off + len ≤ if off < 128 then 128 else 256)

/-- MOD_READ. -/
def execModRead (c : Cmd) (s : State) : Host.Outcome State Fault Refusal :=
  .next (s.start c 0x0302 (c.ok 16 [(5, 3)] && decide (c.fld 0 1 < 64) && modRangeOk (c.fld 3 1) (c.fld 4 1) 128 &&
      s.bufOk c.src (c.fld 8 8) (c.fld 4 1)) fun s =>
    s.modAccess c 0x0302 false)

/-- MOD_WRITE. -/
def execModWrite (c : Cmd) (s : State) : Host.Outcome State Fault Refusal :=
  .next (s.start c 0x0303 (c.ok 16 [(5, 3)] && decide (c.fld 0 1 < 64) && modRangeOk (c.fld 3 1) (c.fld 4 1) 8) fun s =>
    s.modAccess c 0x0303 true)

/-- MOD_SIDEBAND (spec/05 R171, R181): it writes the slot's bits, with or without a module in it. (DESIGN CHOICE, log entry 66) -/
def execModSideband (c : Cmd) (s : State) : Host.Outcome State Fault Refusal :=
  .next (s.start c 0x0304 (c.ok 2 && decide (c.fld 0 1 < 64) && decide (c.fld 1 1 < 8)) fun s =>
    let m := c.fld 0 1
    let v := c.fld 1 1
    let s := (s.setF (F.portMod_RESET_L m) (v % 2)).setF (F.portMod_LPMODE m) (v / 2 % 2)
    (s.setF (F.portMod_GP_OUT m) (v / 4)).complete c 0x0304 st.ok)

/-- I2C_TRANSFER_END (spec/05 R170, R171): with ACK the access completes; a NACK is retried RETRY_MS later, up to RETRIES times. -/
def execI2cTransferEnd (bus : Fin 16) (ack : Bool) (data : List (BitVec 8)) (stuck : Bool) (s : State) :
    Host.Outcome State Fault Refusal :=
  let b := bus.val
  .next (
    let s := s.when (s.up && stuck) fun s => s.setF (F.portI2c_STUCK b) 1
    match (s.bus b).xfers with
    | [] => s
    | x :: rest =>
      if x.retryAt.isSome then s
      else if ack then
        let s := (s.modBus b fun y => { y with xfers := rest }).busStart b
        let s := s.when (!x.write && (s.parkedAt x.id).isSome) fun s =>
          s.bufWrite x.src x.addr x.len (bytesNat (data.take x.len))
        let s := s.modParked x.id fun p => if x.nacks = 0 then p else { p with lower := 3, recovered := true }
        s.finish x.id st.ok
      else if s.fld (F.portI2c_RETRIES b) ≤ x.nacks then
        (((s.unselect x.slot).modBus b fun y => { y with xfers := rest }).busStart b).finish x.id st.timeout
      else
        let t := s.time.tick + 1600000 * max 1 (s.fld (F.portI2c_RETRY_MS b))
        ((s.unselect x.slot).modBus b fun y => { y with xfers := { x with nacks := x.nacks + 1, retryAt := some t } :: rest }).modParked
          x.id fun p => { p with lower := 3 })

/-- I2C_RETRY (spec/05 R170). -/
def execI2cRetry (bus : Fin 16) (s : State) : Host.Outcome State Fault Refusal :=
  let b := bus.val
  .next (match (s.bus b).xfers with
    | x :: rest =>
      if x.retryAt.any fun t => decide (t ≤ s.time.tick) then
        (s.modBus b fun y => { y with xfers := { x with retryAt := none } :: rest }).busStart b
      else s
    | [] => s)

/-- Slots in the chain (spec/05 R181). -/
def State.chainSlots (s : State) : Nat :=
  let v := s.fld F.portSgpio_SLOTS
  if v = 0 ∨ 64 < v then 64 else v

/-- One slot in a scan of the chain (spec/05 R172): outputs applied, inputs read; IntL is accepted low at the second scan in a row. -/
def State.scanSlot (s : State) (m : Nat) (inp : BitVec 4) : State :=
  let sel := (s.bus (m % 16)).sel == some m
  let out := BitVec.ofNat 4 (s.fld (F.portMod_RESET_L m) + 2 * s.fld (F.portMod_LPMODE m) + 4 * bit (!sel) + 8 * s.fld (F.portMod_GP_OUT m))
  let y := Tab.get s.ports.slot {} m
  let low := !inp.getLsbD 1
  let n := if low then min 2 (y.intLow + 1) else 0
  let s := s.modSlotIo m fun y => { y with out := out, inp := inp, intLow := n, intHeld := low && (y.intHeld || n == 2) }
  let s := s.when (!low) fun s => s.setF (F.portMod_INT m) 0
  if low && n == 2 && !y.intHeld then
    (s.setF (F.portMod_INT m) 1).raise 0x0302 16 ([(0, 2, m), (2, 1, inp.toNat)] ++ Stamp.fields s.now 4)
  else s

/-- SGPIO_SCAN. -/
def execSgpioScan (inputs : List (BitVec 4)) (s : State) : Host.Outcome State Fault Refusal :=
  .next (if s.up then s.each (List.range s.chainSlots) fun s m => s.scanSlot m (inputs.getD m 0xF#4) else s)

/-- MOD_PRESENT (spec/05 R172): a stable change; the slot's ModSelL goes high. -/
def execModPresent (slot : Fin 64) (present : Bool) (s : State) : Host.Outcome State Fault Refusal :=
  let m := slot.val
  .next (if s.up && s.flag (F.portMod_PRESENT m) != present then
      let s := s.setF (F.portMod_PRESENT m) (bit present)
      let s := s.modBus (m % 16) fun y => if y.sel = some m then { y with sel := none } else y
      s.raise 0x0301 16 ([(0, 2, m), (2, 1, bit present)] ++ Stamp.fields s.now 4)
    else s)

end Sys2Proof.Machine
end

