-- ==== Sys2Proof/Machine/ParserRows.lean ====
section
/-!
DEFINITION. Sys2Proof/Machine/ParserRows.lean: the commands and events of the parser and classifier (spec/06): generations, parse
programs, fragment records, the access window.
-/
namespace Sys2Proof.Machine
open Sys2Proof

/-! ### Generations (spec/06 R199 to R202, R205, R206) -/

def State.drnValid (s : State) (p : Nat) : Bool := s.flag (F.pipeGenStatus_DRN_VALID p)
def State.pendOpen (s : State) (p : Nat) : Bool := s.flag (F.pipeGenStatus_PEND_OPEN p)

/-- The windows are BUSY while PENDING is not open; PROG_VERSION is that of the ACTIVE program. -/
def State.showGen (s : State) (p : Nat) : State :=
  let b := bit (!s.pendOpen p)
  let s := (s.setF (F.pipeWinStatus_BUSY p) b).setF (F.pipeTwinStatus_BUSY p) b
  (s.setReg (Reg.pipeProgVer p) (match (s.pipe p).parser.progAct with
    | some g => g.version
    | none => Config.bootProgVersion)).showMac p

/-- Pipeline `p` commits at the present boundary, after `defers` deferrals: PENDING becomes ACTIVE, ACTIVE becomes DRAINING. -/
def State.commitPipe (s : State) (p defers : Nat) : State :=
  let old := s.fld (F.pipeGenStatus_ACTIVE p)
  let new := s.fld (F.pipeGenStatus_PENDING p)
  let s := s.modPipe p fun x => x.review commitView
  let s := s.modParser p fun x => { x with
    defDrain := x.defAct, defAct := x.defPend, progDrain := x.progAct, progAct := x.progPend, commitTick := s.time.tick }
  let s := ((s.setF (F.pipeGenStatus_DRAINING p) old).setF (F.pipeGenStatus_DRN_VALID p) 1).setF (F.pipeGenStatus_ACTIVE p) new
  let s := ((s.setF (F.pipeGenStatus_PENDING p) ((new + 1) % 256)).setF (F.pipeGenStatus_PEND_OPEN p) 0).setF
    (F.pipeGenStatus_COMMIT_WAIT p) 0
  let n := (s.fabric.frames.filter fun f => !f.decided && f.port / 32 == p && f.gen.toNat == old).length
  let s := (s.setF (F.pipeGenDrain_COUNT p) n).countParse p 13
  (s.showGen p).raise 0x0401 16 [(0, 1, p), (1, 1, new), (2, 2, defers), (4, 4, s.time.idx % 100000), (8, 6, s.time.idx / 100000)]

/-- GEN_COMMIT: one commit waits for a pipeline at a time. (DESIGN CHOICE, log entry 61) -/
def execGenCommit (c : Cmd) (s : State) : Host.Outcome State Fault Refusal :=
  .next (s.start c 0x0401 (c.ok 16 [(2, 2), (14, 2)] && decide (c.fld 0 1 < 16) && decide (c.fld 1 1 < 2) &&
      s.nameOk (c.fld 10 4) (boundaryName (c.fld 4 6) (c.fld 10 4))) fun s =>
    let ps := maskIdx 4 (c.fld 0 1)
    if ps.any fun p => s.flag (F.pipeGenStatus_COMMIT_WAIT p) then s.complete c 0x0401 st.busy
    else
      let (s, id) := s.parkId c 0x0401
      let w : CommitWait := { id := id, pipes := ps, name := boundaryName (c.fld 4 6) (c.fld 10 4), allOrNone := c.fld 1 1 == 1 }
      let s := s.each ps fun s p => s.setF (F.pipeGenStatus_COMMIT_WAIT p) 1
      { s with pipes := { s.pipes with commits := s.pipes.commits ++ [w] } })

/-- The completion's data: committed IDs, mask, beat of the last commit. -/
def CommitWait.data (w : CommitWait) : BitVec 256 := packLE 256 [(0, 4, w.ids), (4, 1, idxMask w.done), (8, 4, w.beat)]

/-- A commit no longer waits: the pipelines still named are free for another. -/
def State.commitOver (s : State) (w : CommitWait) (status : Nat) : State :=
  (s.each w.pipes fun s p => s.setF (F.pipeGenStatus_COMMIT_WAIT p) 0).finish w.id status w.data

/-- One waiting commit at a boundary: the state and what still waits. `quiet` boundaries (DIP, held) defer without counting. (DESIGN CHOICE, log entry 61) -/
def State.commitStep (s : State) (w : CommitWait) (quiet : Bool) : State × List CommitWait :=
  if s.skippedName w.name then ((s.commitOver w st.badState).late 8, [])
  else if !s.dueName w.name then (s, [w])
  else if quiet then (s, [{ w with name := none }])
  else
    let ready := w.pipes.filter fun p => !s.drnValid p
    let go := if w.allOrNone ∧ ready.length ≠ w.pipes.length then [] else ready
    let shut := w.pipes.filter fun p => s.drnValid p
    let rest := w.pipes.filter fun p => !go.contains p
    let s := s.each go fun s p => s.commitPipe p w.defers
    let w := { w with
      name := none, pipes := rest, done := w.done ++ go, beat := if go.isEmpty then w.beat else s.time.idx % 100000,
      ids := w.ids + (go.map fun p => s.fld (F.pipeGenStatus_ACTIVE p) * 256 ^ p).foldl (· + ·) 0 }
    let s := s.when (!go.isEmpty) fun s => s.modParked w.id fun p => { p with partly := true }
    if rest.isEmpty then (s.commitOver w st.ok, [])
    else
      let s := (s.each shut fun s p => s.countParse p 14).late 1 shut.length
      let w := { w with defers := w.defers + 1 }
      if rest.any fun p => s.fld (F.pipeGenCtrl_MAX_DEFER p) != 0 && decide (s.fld (F.pipeGenCtrl_MAX_DEFER p) ≤ w.defers) then
        (s.commitOver w st.timeout, [])
      else (s, [w])

/-- Order 5 (spec/01 R31): the commits that wait. -/
def State.commitBoundary (s : State) (quiet : Bool) : State :=
  let r := s.pipes.commits.foldl (fun a w => let b := a.1.commitStep w quiet; (b.1, a.2 ++ b.2)) (s, [])
  { r.1 with pipes := { r.1.pipes with commits := r.2 } }

/-- Every learned entry whose key has a static entry in ACTIVE is removed (spec/07 R224). -/
def State.dropShadowed (s : State) (p : Nat) : State :=
  let t := (s.pipe p).fwd.mac
  let go := t.filter fun e => e.2.view == 0 && t.any fun y => y.2.bd == e.2.bd && y.2.mac == e.2.mac && inView y.2.view 1
  s.each go fun s e => s.macRemove p e.1

/-- GEN_DRAINED (spec/06 R202): the last frame of DRAINING has left; its view is cleared and PENDING opens as a copy of ACTIVE. -/
def execGenDrained (pipe : Fin 4) (s : State) : Host.Outcome State Fault Refusal :=
  let p := pipe.val
  .next (if s.drnValid p && s.fld (F.pipeGenDrain_COUNT p) == 0 then
      let s := s.modPipe p fun x => x.review drainView
      let s := s.modParser p fun x => { x with defPend := x.defAct, progPend := x.progAct, defDrain := 0, progDrain := none }
      let s := ((s.setF (F.pipeGenStatus_DRN_VALID p) 0).setF (F.pipeGenStatus_PEND_OPEN p) 1).showGen p
      let s := (s.dropShadowed p).showLpm p
      s.raise 0x0402 16 [(0, 1, p), (1, 1, s.fld (F.pipeGenStatus_DRAINING p)),
        (4, 4, (s.time.tick - (s.pipe p).parser.commitTick) * 5 / 8)]
    else s)

/-- PENDING of pipeline `p` becomes a copy of ACTIVE. -/
def State.discardPipe (s : State) (p : Nat) : State :=
  let s := s.modPipe p fun x => x.review discardView
  ((s.modParser p fun x => { x with defPend := x.defAct, progPend := x.progAct }).showGen p).showLpm p

/-- GEN_DISCARD (spec/06 R205); BAD_STATE while PENDING is not open. (DESIGN CHOICE, log entry 61) -/
def execGenDiscard (c : Cmd) (s : State) : Host.Outcome State Fault Refusal :=
  .next (s.start c 0x0402 (c.ok 1 && decide (c.fld 0 1 < 16)) fun s =>
    let ps := maskIdx 4 (c.fld 0 1)
    if ps.all s.pendOpen then (s.each ps State.discardPipe).complete c 0x0402 st.ok else s.complete c 0x0402 st.badState)

/-- PARSE_LOAD (spec/06 R186, R205). (DESIGN CHOICE, log entry 61) -/
def execParseLoad (c : Cmd) (prog : ParseProg) (crcOk : Bool) (s : State) : Host.Outcome State Fault Refusal :=
  .next (s.start c 0x0403 (c.ok 16 [(1, 3)] && decide (c.fld 0 1 < 16) && decide (64 ≤ c.fld 4 4) && decide (c.fld 4 4 ≤ 16448) &&
      s.bufOk c.src (c.fld 8 8) (c.fld 4 4) && prog.valid crcOk) fun s =>
    let ps := maskIdx 4 (c.fld 0 1)
    if ps.all s.pendOpen then
      (s.each ps fun s p => s.modParser p fun x => { x with progPend := some prog }).complete c 0x0403 st.ok
    else s.complete c 0x0403 st.badState)

/-! ### Fragment records (spec/06 R203 to R205, R209) -/

/-- USED follows the records; a fall below 1,024 arms FRAG_FULL again (spec/06 R204). -/
def State.showFrag (s : State) (p : Nat) : State :=
  let n := (s.pipe p).parser.frags.length
  let fell := decide (n < 1024) && decide (n < s.fld (F.pipeFragStatus_USED p))
  let s := s.setF (F.pipeFragStatus_USED p) n
  if fell then s.modParser p fun x => { x with fragFull := false } else s

/-- FRAG_FLUSH. -/
def execFragFlush (c : Cmd) (s : State) : Host.Outcome State Fault Refusal :=
  .next (s.start c 0x0404 (c.ok 1 && decide (c.fld 0 1 < 16)) fun s =>
    (s.each (maskIdx 4 (c.fld 0 1)) fun s p => (s.modParser p fun x => { x with frags := [] }).showFrag p).complete c 0x0404 st.ok)

/-- TIMEOUT_US, at least 100, has passed since the last use of a fragment record (spec/06 R203, R209). -/
def State.fragOver (s : State) (p : Nat) (r : FragRec) : Bool :=
  decide (r.used + 1600 * max 100 (s.fld (F.pipeFragCfg_TIMEOUT_US p)) ≤ s.time.tick)

/-- FRAG_EXPIRE. -/
def execFragExpire (pipe : Fin 4) (index : Fin 1024) (s : State) : Host.Outcome State Fault Refusal :=
  let p := pipe.val
  .next (if (Tab.find index.val (s.pipe p).parser.frags).any (s.fragOver p) then
      ((s.modParser p fun x => { x with frags := Tab.del index.val x.frags }).showFrag p).countParse p 12
    else s)

/-! ### The window (spec/06 R200, R210) -/

/-- The data words as one number, word 0 lowest. -/
def State.winWords (s : State) (p : Nat) : Nat :=
  (List.range 44).foldl (fun a i => a + (s.reg (Reg.pipeWinData p i)).toNat * 2 ^ (32 * i)) 0

/-- The first `n` data words take the value of a number. -/
def State.setWin (s : State) (p n v : Nat) : State :=
  s.each (List.range n) fun s i => s.setReg (Reg.pipeWinData p i) (BitVec.ofNat 32 (v / 2 ^ (32 * i)))

/-- The result of an operation. -/
def State.winErr (s : State) (p e : Nat) : State := s.setF (F.pipeWinStatus_ERR p) e

/-- The entry that the data words describe (spec/06 R210). -/
def tcamOfWords (w : Nat) : TcamEntry :=
  { value := BitVec.ofNat 640 w, mask := BitVec.ofNat 640 (w / 2 ^ 640), action := BitVec.ofNat 64 (w / 2 ^ 1280),
    prio := BitVec.ofNat 13 (w / 2 ^ 1344), view := 1 }

def wordsOfTcam (e : TcamEntry) : Nat :=
  e.value.toNat + e.mask.toNat * 2 ^ 640 + e.action.toNat * 2 ^ 1280 + (e.prio.toNat + e.view.toNat * 2 ^ 16) * 2 ^ 1344

def patOfWords (w : Nat) : PatEntry :=
  let a := w / 2 ^ 512 % 2 ^ 32
  let b := w / 2 ^ 544 % 2 ^ 32
  { bytes := BitVec.ofNat 256 w, mask := BitVec.ofNat 256 (w / 2 ^ 256), len := min 32 (a % 64), floating := bitAt a 8,
    base := a / 2 ^ 9 % 4, tag := a / 2 ^ 16 % 64, start := b % 512, stop := b / 2 ^ 16 % 512, view := 1 }

def wordsOfPat (e : PatEntry) : Nat :=
  e.bytes.toNat + e.mask.toNat * 2 ^ 256 + (e.len + bit e.floating * 2 ^ 8 + e.base * 2 ^ 9 + e.tag * 2 ^ 16) * 2 ^ 512
    + (e.start + e.stop * 2 ^ 16) * 2 ^ 544

/-- READ. -/
def State.winRead (s : State) (p target v i : Nat) : State :=
  let x := (s.pipe p).parser
  match target with
  | 0 =>
    match Tab.find i x.tcam with
    | some e => if inView e.view v then (s.setWin p 43 (wordsOfTcam e)).winErr p 0 else s.winErr p 3
    | none => s.winErr p 3
  | 1 =>
    if 2048 ≤ i then s.winErr p 2
    else match Tab.find i x.pats with
      | some e => if inView e.view v then (s.setWin p 18 (wordsOfPat e)).winErr p 0 else s.winErr p 3
      | none => s.winErr p 3
  | 2 =>
    if (v = 0 ∧ !s.pendOpen p) ∨ (v = 2 ∧ !s.drnValid p) ∨ v = 3 then s.winErr p 3
    else (s.setWin p 2 (if v = 0 then x.defPend else if v = 1 then x.defAct else x.defDrain).toNat).winErr p 0
  | 3 =>
    match Tab.find i x.tcam with
    | some e =>
      if inView e.view v then
        ((s.setWin p 2 e.hits).modParser p fun x => { x with tcam := Tab.ins i { e with hits := 0 } x.tcam }).winErr p 0
      else s.winErr p 3
    | none => s.winErr p 3
  | 4 => ((s.setWin p 2 x.defHits).modParser p fun x => { x with defHits := 0 }).winErr p 0
  | 5 =>
    if 1024 ≤ i then s.winErr p 2
    else if (Tab.find i x.frags).isNone then s.winErr p 3
    else (s.each (List.range 64) fun s k => s.setReg (Reg.pipeWinData p k) (Config.fragWord s.freeCtr k)).fresh.winErr p 0
  | _ => s.winErr p 0

/-- WRITE into PENDING. (DESIGN CHOICE, log entry 61) -/
def State.winWrite (s : State) (p target i : Nat) : State :=
  let x := (s.pipe p).parser
  let w := s.winWords p
  if !s.pendOpen p then s
  else match target with
  | 0 =>
    if (Tab.find i x.tcam).isSome then s.winErr p 1
    else (s.modParser p fun x => { x with tcam := Tab.ins i (tcamOfWords w) x.tcam }).winErr p 0
  | 1 =>
    if 2048 ≤ i then s.winErr p 2
    else if (Tab.find i x.pats).isSome then s.winErr p 1
    else (s.modParser p fun x => { x with pats := Tab.ins i (patOfWords w) x.pats }).winErr p 0
  | 2 => (s.modParser p fun x => { x with defPend := BitVec.ofNat 64 w }).winErr p 0
  | _ => s.winErr p 0

/-- REMOVE from PENDING. -/
def State.winRemove (s : State) (p target i : Nat) : State :=
  let x := (s.pipe p).parser
  if !s.pendOpen p then s
  else match target with
  | 0 =>
    match Tab.find i x.tcam with
    | some e =>
      if inView e.view 0 then
        let t := if e.view &&& 6 = 0 then Tab.del i x.tcam else Tab.ins i { e with view := e.view &&& 6 } x.tcam
        (s.modParser p fun x => { x with tcam := t }).winErr p 0
      else s.winErr p 3
    | none => s.winErr p 3
  | 1 =>
    if 2048 ≤ i then s.winErr p 2
    else match Tab.find i x.pats with
      | some e =>
        if inView e.view 0 then
          let t := if e.view &&& 6 = 0 then Tab.del i x.pats else Tab.ins i { e with view := e.view &&& 6 } x.pats
          (s.modParser p fun x => { x with pats := t }).winErr p 0
        else s.winErr p 3
      | none => s.winErr p 3
  | _ => s.winErr p 0

/-- A write of WIN_CTRL: its fields are stored, and with GO the operation `op` is performed. -/
def State.winCtrl (s : State) (p : Nat) (w : Word) (op : Nat) : State :=
  let s := s.putRw (Reg.pipeWinCtrl p) w
  let t := (F.pipeWinCtrl_TARGET p).of w
  let i := (F.pipeWinCtrl_INDEX p).of w
  if (F.pipeWinCtrl_GO p).of w = 0 then s
  else match op with
  | 0 => s.winRead p t ((F.pipeWinCtrl_VIEW p).of w) i
  | 1 => s.winWrite p t i
  | 2 => s.winRemove p t i
  | _ => s

/-- WIN_READ. -/
def execWinRead (pipe : Fin 4) (value : BitVec 32) (s : State) : Host.Outcome State Fault Refusal :=
  .next (if s.up then s.winCtrl pipe.val value 0 else s)

/-- WIN_WRITE. -/
def execWinWrite (pipe : Fin 4) (value : BitVec 32) (s : State) : Host.Outcome State Fault Refusal :=
  .next (if s.up then s.winCtrl pipe.val value 1 else s)

/-- WIN_REMOVE. -/
def execWinRemove (pipe : Fin 4) (value : BitVec 32) (s : State) : Host.Outcome State Fault Refusal :=
  .next (if s.up then s.winCtrl pipe.val value 2 else s)

end Sys2Proof.Machine
end

