-- ==== Sys2Proof/Machine/TableRows.lean ====
section
/-!
DEFINITION. Sys2Proof/Machine/TableRows.lean: the commands and events of the forwarding tables and the learn units (spec/07).
-/
namespace Sys2Proof.Machine
open Sys2Proof

/-! ### The learn unit (spec/07 R226, R228) -/

/-- LEARN_SERVE: the oldest request of the queue, unless the unit is busy. -/
def execLearnServe (pipe : Fin 4) (s : State) : Host.Outcome State Fault Refusal :=
  let p := pipe.val
  .next (if s.up && decide ((s.pipe p).fwd.busyTo ≤ s.time.tick) then s.serve p else s)

/-- At a boundary: at most one MAC_FLAP a pipeline (spec/07 R228, R234). -/
def State.flapBoundary (s : State) : State :=
  s.each (List.range 4) fun s p =>
    match (s.pipe p).fwd.flap with
    | none => s
    | some f =>
      (s.modFwd p fun x => { x with flap := none }).raise 0x0404 16
        [(0, 1, p), (1, 1, f.pinned), (2, 1, f.other), (4, 6, bytesNat (beBytes 6 f.mac.toNat)), (10, 2, f.bd.toNat), (12, 4, f.count)]

/-! ### Ageing and flushing (spec/07 R230, R231) -/

/-- Ageing runs in pipeline `p`: not in QUIET, not during DIP, not while the firmware of CORE3 is replaced (spec/01 R44), not with AGE_S 0. -/
def State.ageing (s : State) (p : Nat) : Bool := s.up && !s.quiet && !s.inDip && !s.replaced 3 && s.fld (F.pipeFwdCfg_AGE_S p) != 0

/-- A beat count of an entry older than 2^30 beats is raised to the beat count less 2^30. -/
def raiseBeat (now b : BitVec 32) : BitVec 32 :=
  if (beatDiff now b).all (2 ^ 30 < ·) then now - BitVec.ofNat 32 (2 ^ 30) else b

/-- AGE_VISIT. (DESIGN CHOICE, log entry 2; DEDUCED, log entry 27) -/
def execAgeVisit (pipe : Fin 4) (index : Nat) (s : State) : Host.Outcome State Fault Refusal :=
  let p := pipe.val
  .next (match Tab.find index (s.pipe p).fwd.mac with
    | none => s
    | some e =>
      if e.view ≠ 0 ∨ !s.up ∨ s.inDip ∨ s.replaced 3 then s
      else
        let now := s.time.beatCount
        let e := { e with learnBeat := raiseBeat now e.learnBeat, confBeat := raiseBeat now e.confBeat }
        let e := if !s.ageing p then e else if e.hit then { e with hit := false, age := 0 } else { e with age := min 3 (e.age + 1) }
        s.macMod p index fun _ => e)

/-- AGE_REMOVE: it fails where HIT has been set since the visit. -/
def execAgeRemove (pipe : Fin 4) (index : Nat) (s : State) : Host.Outcome State Fault Refusal :=
  let p := pipe.val
  .next (match Tab.find index (s.pipe p).fwd.mac with
    | none => s
    | some e =>
      if e.view = 0 ∧ e.age = 3 ∧ !e.hit ∧ s.ageing p then (s.macRemove p index).countFwd p 12 else s)

/-- MAC_FLUSH: the scans remove what it selects; it completes when the last one ends. (DEDUCED, log entry 27) -/
def execMacFlush (c : Cmd) (s : State) : Host.Outcome State Fault Refusal :=
  let byPort := bitAt (c.fld 1 1) 0
  let byBd := bitAt (c.fld 1 1) 1
  .next (s.start c 0x0406 (c.ok 6 [(3, 1)] && decide (c.fld 0 1 < 16) && decide (c.fld 1 1 < 4) &&
      (!byPort || decide (c.fld 2 1 < 128)) && (!byBd || decide (c.fld 4 2 < 16384))) fun s =>
    let sel := fun e : MacEntry => (!byPort || (!e.mc && e.dest.toNat == c.fld 2 1)) && (!byBd || e.bd.toNat == c.fld 4 2)
    let r := (maskIdx 4 (c.fld 0 1)).foldl (fun a p => let b := a.1.flushMac p sel; (b.1, a.2 + b.2)) (s, 0)
    let (s, id) := r.1.parkId c 0x0406 true
    let s := s.when (r.2 != 0) fun s => s.modParked id fun p => { p with partly := true }
    { s with pipes := { s.pipes with flush := s.pipes.flush ++ [⟨id, r.2⟩] } })

/-- MAC_FLUSH_SCAN_END. (DEDUCED, log entry 27) -/
def execMacFlushScanEnd (s : State) : Host.Outcome State Fault Refusal :=
  .next (match s.pipes.flush with
    | [] => s
    | j :: rest =>
      { s with pipes := { s.pipes with flush := rest } }.finish j.id st.ok (packLE 256 [(0, 4, j.removed)]))

/-! ### The table window (spec/07 R238, R239) -/

/-- Data words 0 to 5 as one number, word 0 lowest. -/
def State.twinWords (s : State) (p : Nat) : BitVec 192 :=
  BitVec.ofNat 192 ((List.range 6).foldl (fun a i => a + (s.reg (Reg.pipeTwinData p i)).toNat * 2 ^ (32 * i)) 0)

/-- The result of an operation. -/
def State.twinErr (s : State) (p e : Nat) : State := s.setF (F.pipeTwinStatus_ERR p) e

/-- The words and the view bits of a record are shown in the data words. -/
def State.showRec (s : State) (p : Nat) (r : BitVec 192 × BitVec 3) : State :=
  (s.each (List.range 6) fun s i => s.setReg (Reg.pipeTwinData p i) (BitVec.ofNat 32 (r.1.toNat / 2 ^ (32 * i)))).setF
    ⟨Reg.pipeTwinData p 7, 16, 3⟩ r.2.toNat

/-- Write TWIN_CTRL, and with GO perform `f` on its target, view and index. -/
def State.twinCtrl (s : State) (p : Nat) (w : Word) (f : State → Nat → Nat → Nat → State) : State :=
  if !s.up then s
  else
    let s := s.putRw (Reg.pipeTwinCtrl p) w
    if (F.pipeTwinCtrl_GO p).of w = 0 then s
    else f s ((F.pipeTwinCtrl_TARGET p).of w) ((F.pipeTwinCtrl_VIEW p).of w) ((F.pipeTwinCtrl_INDEX p).of w)

/-- The operation READ of the table window. -/
def State.twinReadOp (s : State) (p : Nat) (w : Word) : State :=
  s.twinCtrl p w fun s t v i =>
    if twinRange t ≤ i then s.twinErr p 2
    else match twinRead (s.pipe p).fwd t v i with
      | some r => (s.showRec p r).twinErr p 0
      | none => s.twinErr p 3

/-- The operation WRITE; nothing while PENDING is not open. (DESIGN CHOICE, log entry 61) -/
def State.twinWriteOp (s : State) (p : Nat) (w : Word) : State :=
  s.twinCtrl p w fun s t _ i =>
    if !s.pendOpen p then s else let r := s.twinWrite p t i (s.twinWords p); r.1.twinErr p r.2

/-- The operation REMOVE; nothing while PENDING is not open. -/
def State.twinRemoveOp (s : State) (p : Nat) (w : Word) : State :=
  s.twinCtrl p w fun s t _ i =>
    if !s.pendOpen p then s else let r := s.twinRemove p t i (s.twinWords p); r.1.twinErr p r.2

/-- The operation LOOKUP: the index found goes to word 6. -/
def State.twinLookupOp (s : State) (p : Nat) (w : Word) : State :=
  s.twinCtrl p w fun s t v _ =>
    match twinFind (s.pipe p).fwd t v (s.twinWords p) with
    | some i => (s.setReg (Reg.pipeTwinData p 6) (BitVec.ofNat 32 i)).twinErr p 0
    | none => s.twinErr p 3

/-- TWIN_READ. -/
def execTwinRead (pipe : Fin 4) (value : BitVec 32) (s : State) : Host.Outcome State Fault Refusal :=
  .next (s.twinReadOp pipe.val value)

/-- TWIN_WRITE. -/
def execTwinWrite (pipe : Fin 4) (value : BitVec 32) (s : State) : Host.Outcome State Fault Refusal :=
  .next (s.twinWriteOp pipe.val value)

/-- TWIN_REMOVE. -/
def execTwinRemove (pipe : Fin 4) (value : BitVec 32) (s : State) : Host.Outcome State Fault Refusal :=
  .next (s.twinRemoveOp pipe.val value)

/-- TWIN_LOOKUP. -/
def execTwinLookup (pipe : Fin 4) (value : BitVec 32) (s : State) : Host.Outcome State Fault Refusal :=
  .next (s.twinLookupOp pipe.val value)

/-- The learn request that window words describe, made now. -/
def State.reqOfWords (s : State) (w : BitVec 192) : LearnReq :=
  let e := macOfWords ⟨w, 0⟩
  { mac := e.mac, bd := e.bd, mc := e.mc, dest := e.dest, due := s.time.tick }

/-- The operation INJECT: target 2 only. (DESIGN CHOICE, log entry 62) -/
def State.twinInjectOp (s : State) (p : Nat) (w : Word) : State :=
  s.twinCtrl p w fun s t _ _ => if t = 2 then (s.learnQueue p (s.reqOfWords (s.twinWords p))).twinErr p 0 else s

/-- TWIN_INJECT. -/
def execTwinInject (pipe : Fin 4) (value : BitVec 32) (s : State) : Host.Outcome State Fault Refusal :=
  .next (s.twinInjectOp pipe.val value)

/-- A write of TWIN_CTRL: its OP names the operation (spec/07 R238). -/
def State.twinOp (s : State) (p : Nat) (w : Word) : State :=
  match (F.pipeTwinCtrl_OP p).of w with
  | 0 => s.twinReadOp p w
  | 1 => s.twinWriteOp p w
  | 2 => s.twinRemoveOp p w
  | 3 => s.twinLookupOp p w
  | 4 => s.twinInjectOp p w
  | _ => s.twinCtrl p w fun s _ _ _ => s

/-! ### Bulk load and dump (spec/07 R221, R232, R233) -/

/-- One record of a load in pipeline `p`: the state, and whether it was refused. (DESIGN CHOICE, log entry 61) -/
def State.bulkOne (s : State) (p table : Nat) (r : BulkRec) : State × Bool :=
  if table = 6 then (s.learnQueue p (s.reqOfWords r.words), false)
  else if !s.pendOpen p then (s, true)
  else
    let x := if bitAt r.flags.toNat 0 then s.twinRemove p table r.index.toNat r.words else s.twinWrite p table r.index.toNat r.words
    (x.1, x.2 != 0)

/-- A record in every named pipeline. (DESIGN CHOICE, log entry 62) -/
def State.bulkRecord (s : State) (ps : List Nat) (table : Nat) (r : BulkRec) : State × Bool :=
  ps.foldl (fun a p => let b := a.1.bulkOne p table r; (b.1, a.2 || b.2)) (s, false)


/-- The records that a dump reads: index, view bits, words, in index order. -/
def dumpRecs (x : FwdSt) (table : Nat) : List (Nat × BitVec 3 × BitVec 192) :=
  if table = 2 then (x.mac.filter fun e => inView e.2.view 1).map fun e => (e.1, e.2.view, wordsOfMac e.2)
  else if table = 7 then x.mac.map fun e => (e.1, e.2.view, wordsOfMac e.2)
  else ((if table = 1 then x.lpm else genTab x table).filter fun e => inView e.2.view 1).map fun e =>
    ((if table = 1 ∨ table = 4 then e.1 else e.1 / 2), e.2.view, e.2.words)

/-- A bulk record of 32 bytes. -/
def bulkBytes (r : Nat × BitVec 3 × BitVec 192) : Nat :=
  (packLE 256 [(0, 4, r.1), (4, 1, r.2.1.toNat * 2), (8, 24, r.2.2.toNat)]).toNat

/-- The job of a TABLE_BULK. -/
def State.bulkJob (s : State) (h : BitVec 32) : Option BulkJob := s.pipes.bulk.find? (·.handle == h)

def State.modBulk (s : State) (f : List BulkJob → List BulkJob) : State := { s with pipes := { s.pipes with bulk := f s.pipes.bulk } }

def State.setBulk (s : State) (j : BulkJob) : State := s.modBulk fun l => l.map fun x => if x.handle = j.handle then j else x

/-- A TABLE_BULK begins to run: `args` of its operation are records done, rejected, first rejected, the epoch at the start, the
pipeline dumped plus 1. -/
def State.bulkBegin (s : State) (o : LongOp) : State :=
  let p := (maskIdx 4 (o.cmd.fld 0 1)).headD 0
  let args := if o.cmd.fld 2 1 = 0 then [0, 0, 0xFFFFFFFF, 0, 0] else [0, 0, 0xFFFFFFFF, (s.reg (Reg.pipeMoveEpoch p)).toNat, p + 1]
  s.modLong o.handle fun x => { x with args := args }

/-- One record has been handled; `bad` where it was refused. -/
def State.bulkCount (s : State) (h : BitVec 32) (bad : Bool) : State :=
  s.modLong h fun o =>
    let a := fun i => o.args.getD i 0
    { o with
      progress := o.progress + 1
      args := if bad then [a 0, a 1 + 1, if a 1 = 0 then o.progress else a 2, a 3, a 4] else [a 0 + 1, a 1, a 2, a 3, a 4] }

/-- The records that a dump has yet to read. -/
def State.bulkRest (s : State) (o : LongOp) (j : BulkJob) : List (Nat × BitVec 3 × BitVec 192) :=
  ((dumpRecs (s.pipe ((maskIdx 4 (o.cmd.fld 0 1)).headD 0)).fwd (o.cmd.fld 1 1)).filter fun r => decide (j.next ≤ r.1)).take
    (o.cmd.fld 4 4 - o.progress)

/-- The next record of a TABLE_BULK (spec/07 R232): it acts between records. (DEDUCED, log entry 27) -/
def State.bulkStep (s : State) (h : BitVec 32) : State :=
  match s.longAt h, s.bulkJob h with
  | some o, some j =>
    if o.cmd.fld 2 1 = 0 then
      match j.records with
      | [] => s
      | r :: rest =>
        let b := (s.setBulk { j with records := rest }).bulkRecord (maskIdx 4 (o.cmd.fld 0 1)) (o.cmd.fld 1 1) r
        b.1.bulkCount h b.2
    else
      match s.bulkRest o j with
      | [] => s
      | r :: _ =>
        ((s.setBulk { j with next := r.1 + 1 }).bufWrite o.cmd.src (o.cmd.fld 8 8 + 32 * o.progress) 32 (bulkBytes r)).bulkCount h false
  | _, _ => s

/-- The records left, one after the other; meanwhile the learn unit makes room in its queue for a request. (DEDUCED, log entry 27) -/
def State.bulkAll (s : State) (h : BitVec 32) (table : Nat) : Nat → State
  | 0 => s
  | n + 1 =>
    let s := if table = 6 then s.each (List.range 4) fun s p => if (s.pipe p).fwd.queue.length < 1024 then s else s.serve p else s
    (s.bulkStep h).bulkAll h table n

/-- A TABLE_BULK ends: no record is left. -/
def State.bulkEnd (s : State) (o : LongOp) : State :=
  let n := match s.bulkJob o.handle with
    | some j => if o.cmd.fld 2 1 = 0 then j.records.length else (s.bulkRest o j).length
    | none => 0
  (s.bulkAll o.handle (o.cmd.fld 1 1) n).modBulk fun l => l.filter (·.handle != o.handle)

/-- The completion's data of a TABLE_BULK. (DESIGN CHOICE, log entry 62) -/
def State.bulkData (s : State) (o : LongOp) : BitVec 256 :=
  let a := fun i => o.args.getD i 0
  let stop := if a 4 = 0 then 0 else (s.reg (Reg.pipeMoveEpoch (a 4 - 1))).toNat
  packLE 256 [(0, 4, a 0), (4, 4, a 1), (8, 4, a 2), (12, 1, bit (a 3 != stop)), (16, 4, a 3), (20, 4, stop)]


/-- TABLE_BULK. (DEDUCED, log entry 27) -/
def execTableBulk (c : Cmd) (records : List BulkRec) (s : State) : Host.Outcome State Fault Refusal :=
  let table := c.fld 1 1
  let load := c.fld 2 1 == 0
  .next (s.start c 0x0405 (c.ok 16 [(3, 1)] && decide (c.fld 0 1 < 16) && decide (table < 8) && decide (c.fld 2 1 < 2) &&
      c.fld 8 8 % 64 == 0 && !(load && table == 7) && !(!load && table == 6) && (load || (maskIdx 4 (c.fld 0 1)).length == 1) &&
      s.bufOk c.src (c.fld 8 8) (32 * c.fld 4 4)) fun s =>
    let n := s.host.longOps.length
    let s := s.startLong c 0x0405 0x0405 (if load then min (c.fld 4 4) records.length else c.fld 4 4) [0, 0, 0xFFFFFFFF, 0, 0]
      fun s h => match s.longAt h with | some o => s.bulkBegin o | none => s
    match s.host.longOps[n]? with
    | some o => s.modBulk fun l => l ++ [{ handle := o.handle, records := if load then records.take (c.fld 4 4) else [] }]
    | none => s)

end Sys2Proof.Machine
end

