-- ==== Sys2Proof/Machine/FrameRows.lean ====
section
/-!
DEFINITION. Sys2Proof/Machine/FrameRows.lean: a frame on its way in (spec/05 R154 to R159, spec/06 R182 to R204, spec/07 R213 to R229,
spec/08 R241 to R261, R268, R269): reception, the decision of the pipeline, learning, links to VOQs, the ingress check.
-/
namespace Sys2Proof.Machine
open Sys2Proof

/-! ### Reception (spec/05 R156 to R158, R165) -/


/-- Flags 0 to 7 of R157. -/
def State.macFlags (s : State) (n : Nat) (f : RxFrame) : Nat :=
  let len := f.bytes.length
  let bad := !fcsGood f.bytes
  let lt := fb2 f.bytes 12
  let data := len - 18
  idxMask ((([(bad, 0), (decide (len < 64) && !bad, 1), (decide (len < 64) && bad, 2), (decide (s.maxFrame n < len) && !bad, 3),
    (decide (s.maxFrame n < len) && bad, 4), (f.codeErr, 5),
    (s.flag (F.portCfg_LEN_CHECK n) && decide (lt < 0x600) && lt != data && !(decide (lt < 46) && decide (data ≤ 46) && decide (lt ≤ data)), 6),
    (s.isKl n && !prefixOk f.after, 7)] : List (Bool × Nat)).filter (·.1)).map (·.2))

/-- The destination filter passes address `da` (spec/05 R156). -/
def State.passes (s : State) (n da : Nat) (group : Bool) : Bool :=
  s.flag (F.portCfg_PROMISC n) ||
  ((List.range 16).any fun k => s.flag (F.portDaHi_VALID n k) &&
    s.fld (F.portDaHi_ADDR_HI n k) * 2 ^ 32 + (s.reg (Reg.portDaLo n k)).toNat == da) ||
  (group && s.flag (F.portCfg_PASS_ALL_GROUPS n))

/-- Frames that QUIET discards are counted for the POWER_STATE event (spec/03 R101, R102). -/
def State.countDiscarded (s : State) (n : Nat) : State :=
  { s with power := { s.power with trans := s.power.trans.map fun t => { t with discarded := t.discarded + n } } }

/-- The sampling of R275 (spec/08): whether this frame is the Nth since the last sample. -/
def State.sample (s : State) (p : Nat) : State × Bool :=
  let n := s.fld (F.fabricSample_N p)
  if n = 0 then (s, false)
  else
    let k := Tab.get s.fabric.sampleCnt 0 p + 1
    (s.modFabric fun x => { x with sampleCnt := Tab.put x.sampleCnt 0 p (if n ≤ k then 0 else k) }, decide (n ≤ k))

/-- A frame enters the buffer and its pipeline, its cells on die (spec/08 R241); what may be dropped for want of cells is settled at its
decision (R257, R259). (DEDUCED, log entry 24) -/
def State.frameIn (s : State) (f : Frame) : State :=
  let id := s.fabric.nextFrame
  (s.modFabric fun x => { x with
    frames := x.frames ++ [{ f with id := id, loc := List.replicate f.cells .die }], nextFrame := id + 1 }).showFree

/-- Counters of a frame that was not filtered (spec/05 R165). (DEDUCED, log entry 24) -/
def State.countRx (s : State) (n : Nat) (l : List Byte) (flags : Nat) : State :=
  if flags = 0 then s.countGood n l.length (castOf l)
  else (s.countPort n 19 l.length).each (maskIdx 8 flags) fun s k => s.countPort n (9 + k)

/-- A MAC control frame is counted and consumed (spec/05 R160, R161, R165); one whose FCS or code is bad does nothing more. (DEDUCED, log entry 24) -/
def State.macControl (s : State) (n : Nat) (l : List Byte) (flags : Nat) : State :=
  let op := fb2 l 14
  let s := s.countRx n l flags
  if flags &&& 0x25 ≠ 0 then s
  else if op = 1 then s.pauseIn n { pfc := false, quanta := [BitVec.ofNat 16 (fb2 l 16)] }
  else if op = 0x0101 then
    s.pauseIn n { pfc := true, enable := BitVec.ofNat 8 (fb l 17), quanta := (List.range 8).map fun i => BitVec.ofNat 16 (fb2 l (18 + 2 * i)) }
  else s.countPort n 7

/-- The frame that reaches the MAC of the port at `n`: behind its SFD (spec/05 R155), or the oldest one that a KL receiver has found, and
nothing of the line else (spec/04 R124). -/
def State.framed (s : State) (n : Nat) (f : RxFrame) : Option RxFrame :=
  if s.isKl n then
    (s.lane n).rx.frames.head?.map fun k => { f with bytes := k.bytes, after := k.after, codeErr := k.hit }
  else if sfdOk f.lead then some f else none

/-- A KL receiver's oldest frame has been taken. -/
def State.frameTaken (s : State) (n : Nat) : State :=
  s.when (s.isKl n) fun s => s.modLane n fun x => { x with rx := { x.rx with frames := x.rx.frames.drop 1 } }
/-- The descriptor of a received frame (spec/08 R241; spec/05 R157; spec/09 R294, R313). -/
def State.rxFrame (s : State) (n : Nat) (l : List Byte) (flags : Nat) (st : StampIn) (hit : Bool) : Frame :=
  let t := s.rxStamp n st
  { id := 0, port := n, bytes := l.take (s.maxFrame n), len := l.length, stamp := t, beat := s.time.beatCount,
    gen := BitVec.ofNat 8 (s.fld (F.pipeGenStatus_ACTIVE (n / 32))), cfg := s.parserCfg (n / 32),
    flags := BitVec.ofNat 16 (flags + 2 ^ 10 * bit (decide (s.maxFrame n < l.length)) + 2 ^ 11 * bit (s.dipAt t)), sampled := hit }

/-- The frame is for the time-message engine: a PTP message, or a KL report (spec/03 R102). -/
def State.timing (s : State) (f : Frame) : Bool :=
  isKlReport f.bytes || (parseFrame (((s.pipe (f.port / 32)).parser.progAct).getD defaultProg) f.bytes).hdrs.any (·.kind = 12)

/-- A received frame passes the MAC: control frames, the filter, counters, sampling, the least length, QUIET (spec/05 R156 to R158;
spec/08 R275; spec/03 R102). (DEDUCED, log entry 24) -/
def State.macRx (s : State) (n : Nat) (l : List Byte) (flags : Nat) (st : StampIn) : State :=
  let len := l.length
  if 14 ≤ len ∧ fb2 l 12 = 0x8808 then s.macControl n l flags
  else if 14 ≤ len ∧ !s.passes n (fbN l 0 6) (bitAt (fb l 0) 0) then (s.countPort n 8).countPort n 19 len
  else
    let s := s.countRx n l flags
    let (s, hit) := if 14 ≤ len then s.sample n else (s, false)
    let f := s.rxFrame n l flags st hit
    if len < 18 then s.capture f none none 11
    else if !s.quiet then s.frameIn f
    else if s.timing f then s.frameIn { f with timeOnly := true }
    else (s.countDiscarded 1).capture f none none 11

/-- FRAME_RX (spec/05 R155 to R158; spec/04 R124, R139, R150; spec/09 R294): in LOOP only its stamp counts, and a far-end loop sends it back. -/
def execFrameRx (port : Fin 128) (f : RxFrame) (s : State) : Host.Outcome State Fault Refusal :=
  let n := port.val
  .next (if !s.up then s
    else
      let s := s.lineErrs n f.errs
      if s.link n = 9 then
        (s.countStamp n 0).when (s.farLoop n && !s.isKl n) fun s => s.out (.far n (byteBits (f.lead ++ f.bytes)))
      else if !s.portUp n then s
      else
        let s := s.countPort n 16 f.klLost
        match s.framed n f with
        | none => s
        | some f => ((s.frameTaken n).countStamp n 0).macRx n f.bytes (s.macFlags n f) (s.captured n 0 f.st))

/-! ### Classification (spec/06 R182 to R195, R203, R204) -/

/-- What the parser and classifier find: the view of the frame's generation, the parse, flags, the winning TCAM entry, the action,
class and measurement status, and the fragment record used. -/
structure Verdict where
  view : Nat
  parsed : Parsed
  csum : Bool
  ptp : Bool
  orphan : Bool
  record : Option (Nat × FragRec)
  win : Option (Nat × TcamEntry)
  action : BitVec 64
  cls : Nat
  meas : Bool

/-- The fragment record of a key, with its index (spec/06 R203). (DEDUCED, log entry 26) -/
def fragFind (t : Tab FragRec) (key : Nat) : Option (Nat × FragRec) :=
  [0, 1, 2, 3].findSome? fun w =>
    let i := 4 * (Config.fragSet key).toNat + w
    (Tab.find i t).bind fun r => if r.key = key then some (i, r) else none

/-- The first free way of a key's set. -/
def fragFree (t : Tab FragRec) (key : Nat) : Option Nat :=
  ([0, 1, 2, 3].map fun w => 4 * (Config.fragSet key).toNat + w).find? fun i => (Tab.find i t).isNone

/-- Class of a frame (spec/06 R195). -/
def Frame.classOf (f : Frame) (h : List Hdr) (action : BitVec 64) (ptp : Bool) : Nat :=
  if act.tcSet action then act.tc action
  else if ptp then (F.pipeTcDef_PTP_TC 0).of f.cfg.tcDef
  else match outerTag h with
    | some t => f.cfg.pcpMap.toNat / 16 ^ (fb f.bytes t.off / 32) % 16
    | none => (F.pipeTcDef_DEF_TC 0).of f.cfg.tcDef

/-- Fragment records are in use for frame `f` (spec/06 R197, R209). -/
def Frame.fragOn (f : Frame) : Bool := (F.pipeFragCfg_EN 0).of f.cfg.frag != 0

/-- Parse and classify frame `f`. -/
def State.classify (s : State) (f : Frame) : Verdict :=
  let p := f.port / 32
  let x := (s.pipe p).parser
  let old := s.drnValid p && f.gen.toNat == s.fld (F.pipeGenStatus_DRAINING p) && f.gen.toNat != s.fld (F.pipeGenStatus_ACTIVE p)
  let view := if old then 2 else 1
  let prog := ((if old then x.progDrain else x.progAct)).getD defaultProg
  let r := parseFrame prog f.bytes
  let csum := (F.pipeParseCfg_CSUM_CHECK 0).of f.cfg.parse != 0 && r.hdrs.any fun h => h.kind == 4 && h.len != 0 && csumBad f.bytes h
  let ptp := match r.hdrs.find? (·.kind = 12) with | some h => decide (fb f.bytes h.off % 16 < 4) | none => false
  let record := match r.fragLater with
    | some o => if f.fragOn then fragFind x.frags (fragKey f.bytes r.hdrs o) else none
    | none => none
  let orphan := r.fragLater.isSome && record.isNone
  let bad := f.flags.toNat % 256 != 0
  let key := packKey (keyFields prog f.bytes r f.port bad orphan (s.isKl f.port) csum (patHits x.pats view f.bytes r.hdrs) record.isSome)
  let win := if record.isSome then none else tcamWin x.tcam view key
  let action := match record, win with
    | some q, _ => q.2.action
    | none, some e => e.2.action
    | none, none => if old then x.defDrain else x.defAct
  let cls := match record with | some q => q.2.cls | none => f.classOf r.hdrs action ptp
  let meas := ptp || act.capture action || record.any (·.2.meas) || bitAt (s.fld (F.portMeas_CLASS_MASK f.port)) cls
  ⟨view, r, csum, ptp, orphan, record, win, action, cls, meas⟩

/-- Counters and hit counters of a classification, the fragment record that a first fragment leaves (spec/06 R193, R203, R204,
R211; spec/05 R165). -/
def State.classified (s : State) (f : Frame) (c : Verdict) : State :=
  let p := f.port / 32
  let s := s.countParse p 0
  let s := s.when c.parsed.incomplete fun s => s.countParse p 1
  let s := s.when c.csum fun s => s.countParse p 6
  let s := s.when c.ptp fun s => (s.countParse p 15).countPort f.port 45
  let s := match c.record with
    | some q => (s.modParser p fun x => { x with frags := Tab.ins q.1 { q.2 with used := s.time.tick } x.frags }).countParse p 9
    | none => s
  let s := s.when c.orphan fun s => s.countParse p 10
  let s := match c.record, c.win with
    | some _, _ => s
    | none, some e => s.modParser p fun x => { x with tcam := Tab.ins e.1 { e.2 with hits := (e.2.hits + 1) % 2 ^ 64 } x.tcam }
    | none, none => (s.modParser p fun x => { x with defHits := (x.defHits + 1) % 2 ^ 64 }).countParse p 7
  match c.parsed.fragFirst with
  | none => s
  | some o =>
    if !f.fragOn then s
    else
      let key := fragKey f.bytes c.parsed.hdrs o
      let q : FragRec := { key := key, action := c.action, cls := c.cls, meas := c.meas, used := s.time.tick }
      let t := (s.pipe p).parser.frags
      match ((fragFind t key).map (·.1)).or (fragFree t key) with
      | some i => ((s.modParser p fun x => { x with frags := Tab.ins i q x.frags }).showFrag p).countParse p 8
      | none =>
        let s := s.countParse p 11
        if (s.pipe p).parser.fragFull then s
        else (s.modParser p fun x => { x with fragFull := true }).raise 0x0403 16 ([(0, 1, p)] ++ Stamp.fields s.now 4)

/-! ### Learning (spec/07 R225, R227, R229) -/

/-- A request reaches the unit of pipeline `p`, and 6 ticks later than that those of the pipelines with REMOTE_LEARN; a confirm only the
others (spec/07 R225, R229). (DEDUCED, log entry 27) -/
def State.request (s : State) (p : Nat) (own : Bool) (q : LearnReq) : State :=
  let q := { q with due := s.time.tick }
  let s := if own then s.learnQueue p q else s
  s.each ((List.range 4).filter fun k => k != p && s.flag (F.pipeFwdCfg_REMOTE_LEARN k)) fun s k => s.learnQueue k { q with due := q.due + 6 }

/-- The source of a frame that the forwarding tables decided: HIT, a confirm, or a learn request. -/
def State.source (s : State) (f : Frame) (view : Nat) (bd : BitVec 14) (learn noLearn : Bool) : State :=
  let p := f.port / 32
  let sa := BitVec.ofNat 48 (fbN f.bytes 6 6)
  let q : LearnReq := { mac := sa, bd := bd, dest := BitVec.ofNat 14 f.port }
  let ask := learn && !noLearn && s.flag (F.pipeFwdCfg_LEARN_EN p) && s.flag (F.pipePortL2_LEARN p (f.port % 32)) &&
    sa != 0 && !bitAt (fb f.bytes 6) 0
  match macLookup (s.pipe p).fwd.mac view bd sa with
  | some (i, e) =>
    if !e.mc && e.dest.toNat == f.port then
      if e.view ≠ 0 then s
      else
        let s := s.macMod p i fun e => { e with hit := true }
        let n := (s.reg (Reg.pipeConfirm p)).toNat % 65536
        let due := match beatDiff s.time.beatCount e.confBeat with | some d => decide (n ≤ d) | none => true
        if n != 0 && due then (s.macMod p i fun e => { e with confBeat := s.time.beatCount }).request p false q else s
    else if ask then s.request p true q else s
  | none => if ask then s.request p true q else s

/-- An excess frame (spec/07 R227): its source misses while COUNT of the port equals LIMIT. -/
def State.excess (s : State) (f : Frame) (view : Nat) (bd : BitVec 14) : Bool :=
  (macLookup (s.pipe (f.port / 32)).fwd.mac view bd (BitVec.ofNat 48 (fbN f.bytes 6 6))).isNone && s.meetsLimit (f.port / 32) f.port

/-! ### Admission to the fabric (spec/08 R250, R256, R257, R260, R261, R268 to R273) -/

/-- A copy of a frame goes to a packet ring (spec/15 R468). -/
def State.toRing (s : State) (f : Frame) (ring reason : Nat) : State :=
  s.modFabric fun x => { x with rxq := x.rxq ++ [{
    ring := ring, bytes := f.bytes, len := f.len, flags := f.flags, port := f.port, cls := f.cls, reason := reason, stamp := f.stamp,
    gen := f.gen }] }

/-- Why a frame may not be charged to its ingress account: the counter of R283 and the fate of R276. -/
def State.refuses (s : State) (f : Frame) : Option (Nat × Nat) :=
  let j := 16 * f.port + f.cls
  let d := s.fld (F.iaDepth_DEPTH j) + f.cells
  if !s.lossless f.cls then
    if s.fabric.poolLow then some (7, 8) else if s.fld (F.iaDrop_I_DROP j) < d then some (6, 1) else none
  else if s.fld (F.iaTh_XOFF j) + s.fld (F.iaHr_HEADROOM j) < d then some (8, 7)
  else none

/-- Account `j` has overrun its headroom: the bit, and the event once until XON. -/
def State.overrunAt (s : State) (p c : Nat) : State :=
  let j := 16 * p + c
  let s := s.setF (F.iaDepth_OVERRUN j) 1
  if Tab.get s.fabric.overrun false j then s
  else (s.modFabric fun x => { x with overrun := Tab.put x.overrun false j true }).raise 0x0502 16
    ([(0, 2, p), (2, 1, c)] ++ Stamp.fields s.now 4)

/-- Headroom cells of a frame just charged (spec/08 R260): those above XOFF go to the reserved region, in units of 8. (DEDUCED, log entry 24) -/
def State.headroomIn (s : State) (f : Frame) : State :=
  let j := 16 * f.port + f.cls
  let n := min f.cells (s.fld (F.iaDepth_DEPTH j) - s.fld (F.iaTh_XOFF j))
  if n = 0 ∨ !s.lossless f.cls ∨ !s.flag F.deepCfg_EN then s
  else
    let own := (List.range n).map fun i => f.cells - n + i
    let s := s.modFrame f.id fun y => { y with loc := own.foldl (fun l i => l.set i (.wait true)) y.loc }
    s.modFabric fun x => own.foldl (fun x i =>
      let o := Tab.get x.hrOpen [] j ++ [⟨f.id, none, i⟩]
      if o.length < 8 then { x with hrOpen := Tab.put x.hrOpen [] j o }
      else { x with hrOpen := Tab.put x.hrOpen [] j [], hrUnits := Tab.put x.hrUnits [] j (Tab.get x.hrUnits [] j ++ [o]) }) x

/-- Classes that would be chosen before `c` at port `q` (spec/08 R248, R250). (DEDUCED, log entry 24) -/
def State.before (s : State) (q c : Nat) : List Nat :=
  let m := s.fld (F.fabricSp_SP_MASK q)
  (List.range 16).filter fun k => k != c && (if bitAt m c then bitAt m k && decide (c < k) else true)

/-- The conditions of an early grant to port `q` (spec/08 R250). -/
def State.earlyOk (s : State) (f : Frame) (q : Nat) : Bool :=
  !f.checked && s.flag (F.fabricPort_EARLY_GRANT q) && !s.sendingAt q && (Tab.get s.fabric.staged none q).isNone && !s.stopped q f.cls &&
  decide (s.macRate q ≤ s.macRate f.port) && (f.cls :: s.before q f.cls).all fun c => s.fld (F.eqDepth_TOTAL (16 * q + c)) == 0

/-- Charge a frame to its ingress account and link its copies. -/
def State.link' (s : State) (f : Frame) (mc : Bool) (qs : List (Nat × Option Nat)) (early : Bool) : State :=
  let s := s.modFrame f.id fun y => { y with refs := qs.length, early := early }
  let s := s.modFabric fun x => { x with voq := x.voq ++ qs.mapIdx fun n q =>
    { frame := f.id, n := n, port := f.port, q := q.1, cls := f.cls, cells := f.cells, mc := mc, vid := q.2 } }
  let s := (s.showIa f.port f.cls).headroomIn f
  let q := (qs.headD (0, none)).1
  s.when early fun s => (s.countFab q 12).when (s.portUp q) fun s =>
    s.modFabric fun x => { x with staged := Tab.put x.staged none q (some f.id) }

/-- A frame that may not be charged: counted on its ingress port, and gone; `q` is the port a unicast frame was decided for. -/
def State.refuse (s : State) (f : Frame) (k fate : Nat) (q : Option Nat) : State :=
  let s := s.countFab f.port k
  let s := if fate = 7 then s.overrunAt f.port f.cls else s
  s.discard f fate 4 q

/-- A unicast frame for port `q`. (DEDUCED, log entry 24) -/
def State.linkUnicast (s : State) (f : Frame) (q : Nat) : State :=
  if 128 ≤ q ∨ !s.portExists q then s.discard f 11 4
  else if !s.portUp q && s.timingClass f.cls then (s.countFab q 0).discard f 6 4 (some q)
  else if !s.portUp q && s.fld (F.fabricPort_HOLD_STATE q) == 2 then (s.countFab q 2).discard f 4 4 (some q)
  else match s.refuses f with
    | some r => s.refuse f r.1 r.2 (some q)
    | none => s.link' f false [(q, none)] (s.earlyOk f q)

/-- The copies of a group (spec/07 R222): port and VID. -/
def groupCopies (x : FwdSt) (view g port : Nat) : List (Nat × Option Nat) :=
  match slotRec x.grp view g with
  | none => []
  | some r =>
    let mask := (maskIdx 128 (r.words.toNat % 2 ^ 128)).map fun q => (q, none)
    let el := (List.range (min 256 (r.bits 4 24 16))).filterMap fun i =>
      (Tab.find (r.bits 4 14 0 + i) x.rep).bind fun e => if inView e.view view then
        some (e.bits 0 6 0, if e.bits 0 20 20 = 1 then some (e.bits 0 19 8) else none) else none
    (mask ++ el).filter fun c => r.bits 4 31 31 == 1 || c.1 != port

/-- A multicast or flood frame (spec/08 R268, R269): copies for ports that are down are skipped. (DEDUCED, log entry 24) -/
def State.linkGroup (s : State) (f : Frame) (view g : Nat) : State :=
  let all := groupCopies (s.pipe (f.port / 32)).fwd view g f.port
  let s := s.each (all.filter fun c => !s.portUp c.1) fun s c => s.countFab c.1 4
  match all.filter fun c => s.portUp c.1 with
  | [] => s.discard f 11 4
  | go => match s.refuses f with
    | some r => s.refuse f r.1 r.2 none
    | none => s.link' f true go false

/-- A frame with MAC error flags or LENGTH_CONFLICT (spec/05 R158, spec/06 R190): delivered, or dropped. -/
def State.badFrame (s : State) (f : Frame) (meas conflict : Bool) : State :=
  let p := f.port / 32
  let deliver := meas && s.flag (F.portCfg_DELIVER_BAD f.port)
  let s := s.when conflict fun s => s.countParse p (if deliver then 5 else 4)
  let s := s.when (f.flags.toNat % 256 != 0) fun s => s.countPort f.port (if deliver then 18 else 17)
  s.when deliver fun s => s.toRing f (s.fld (F.portMeas_BAD_RING f.port)) 2

/-- Send an outcome on its way. (DEDUCED, log entry 24) -/
def State.outcome (s : State) (f : Frame) (view : Nat) (o : Out) : State :=
  match o with
  | .drop => s.discard f 11 4
  | .trap ring reason => (s.toRing f ring reason).discard f 11 4
  | .send true g => s.linkGroup f view g
  | .send false q => s.linkUnicast f q

/-- The forwarding tables' decision for frame `f` (spec/07 R214). -/
def State.lookups (s : State) (f : Frame) (c : Verdict) : FwdRes :=
  let p := f.port / 32
  let i := f.port % 32
  forward (s.pipe p).fwd c.view f.bytes c.parsed f.port (s.fld (F.pipePortL2_BD_BASE p i)) (s.fld (F.pipePortL2_PVID p i))
    (if act.flowSet c.action then some (act.flowId c.action) else none)
    (if s.flag (F.pipeRouterMacHi_VALID p) then
      some (BitVec.ofNat 48 (s.fld (F.pipeRouterMacHi_ADDR_HI p) * 2 ^ 32 + (s.reg (Reg.pipeRouterMacLo p)).toNat)) else none)

/-- Rules 2 and 3 of R196 (spec/06 R188, R204), for a frame without errors: an outcome, and the counter it counts. -/
def Frame.early' (f : Frame) (c : Verdict) : Option (Out × Option Nat) :=
  let act := (F.pipeParseCfg_INCOMPLETE_ACT 0).of f.cfg.parse
  let orph := (F.pipeFragCfg_ORPHAN_ACT 0).of f.cfg.frag
  if c.parsed.incomplete && act == 1 then some (.trap ((F.pipeParseCfg_INCOMPLETE_RING 0).of f.cfg.parse) 3, some 2)
  else if c.parsed.incomplete && act == 2 then some (.drop, some 3)
  else if c.orphan && orph == 1 then some (.drop, none)
  else if c.orphan && orph == 2 then some (.trap ((F.pipeFragCfg_ORPHAN_RING 0).of f.cfg.frag) 4, none)
  else none

/-- The forwarding tables decide (rule 5): counters, excess, learning, the outcome. -/
def State.byTables (s : State) (f : Frame) (c : Verdict) : State :=
  let p := f.port / 32
  let r := s.lookups f c
  let s := s.each r.cnts fun s k => s.countFwd p k
  let overdue := r.bd.any fun bd => s.excess f c.view bd
  let s := s.when overdue fun s => s.countFwd p 11
  let s := match r.bd with | some bd => s.source f c.view bd r.learn (act.noLearn c.action) | none => s
  let f := { f with hop := r.hop }
  let s := s.modFrame f.id fun _ => f
  if overdue && !s.flag (F.pipePortL2_EXCESS_ACT p (f.port % 32)) then s.discard f 11 4 else s.outcome f c.view r.out

/-- Rules 4 and 5 of R196 (spec/06 R194). -/
def State.byAction (s : State) (f : Frame) (c : Verdict) : State :=
  let op := act.op c.action
  if op = 1 then s.discard f 11 4
  else if op = 2 then s.outcome f c.view (.trap (act.ring c.action) 0)
  else if op = 4 then s.outcome f c.view (.send (act.destMc c.action) (act.dest c.action))
  else
    let s := s.when (op == 3) fun s => s.toRing f (act.ring c.action) 1
    s.byTables f c

/-- The egress port of a frame that would be sent to one port. -/
def State.wouldSend (s : State) (f : Frame) (c : Verdict) : Option Nat :=
  let op := act.op c.action
  let o := if s.ends f ∨ f.timeOnly ∨ (f.early' c).isSome ∨ op = 1 ∨ op = 2 then Out.drop
    else if op = 4 then .send (act.destMc c.action) (act.dest c.action) else (s.lookups f c).out
  match o with
  | .send false q => if q < 128 ∧ s.portExists q then some q else none
  | _ => none

/-- A frame whose check will fail: an early grant it receives is aborted by the check (spec/08 R251); else R158 applies. -/
def State.decideBad (s : State) (f : Frame) (c : Verdict) : State :=
  match s.wouldSend f c with
  | some q =>
    if !c.parsed.conflict && s.earlyOk f q && (s.refuses f).isNone then s.link' f false [(q, none)] true
    else (s.badFrame f c.meas c.parsed.conflict).discard f 11 4
  | none => (s.badFrame f c.meas c.parsed.conflict).discard f 11 4

/-- The copy that a trap or a mirror of the classifier makes of a frame that the engine ends (spec/06 R194). (DEDUCED, log entry 29) -/
def State.copyOut (s : State) (f : Frame) : State :=
  let op := act.op f.action
  if op = 2 then s.toRing f (act.ring f.action) 0 else if op = 3 then s.toRing f (act.ring f.action) 1 else s

/-- The decision of a frame (spec/06 R196; spec/10 R325, R332): a message of a session, or a KL report, is not forwarded. A frame with MAC
error flags or LENGTH_CONFLICT does not reach the engine. -/
def State.decide' (s : State) (f : Frame) : State :=
  let p := f.port / 32
  let c := s.classify f
  let s := s.classified f c
  let s := if c.view = 2 then s.setF (F.pipeGenDrain_COUNT p) (s.fld (F.pipeGenDrain_COUNT p) - 1) else s
  let f := { f with
    decided := true, cls := c.cls, action := c.action, triggered := act.capture c.action, meas := c.meas,
    flags := f.flags ||| BitVec.ofNat 16 (2 ^ 8 * bit c.parsed.incomplete + 2 ^ 9 * bit c.parsed.conflict),
    hdrs := c.parsed.hdrs.map fun h => (h.kind, h.off), tag := (outerTag c.parsed.hdrs).map (·.off) }
  let s := s.modFrame f.id fun _ => f
  if f.flags.toNat % 256 ≠ 0 ∨ c.parsed.conflict then s.decideBad f c
  else if s.ends f then ((s.toEngine f).copyOut f).discard f 11 4
  else
    let s := s.toEngine f
    if f.timeOnly then (s.countDiscarded 1).discard f 11 4
    else match f.early' c with
    | some o => (match o.2 with | some k => s.countParse p k | none => s).outcome f c.view o.1
    | none => s.byAction f c

/-- PIPE_DECISION. -/
def execPipeDecision (frame : Nat) (s : State) : Host.Outcome State Fault Refusal :=
  .next (match s.frame frame with
    | some f => if f.decided then s else s.decide' f
    | none => s)


/-- FCS_CHECK_DONE (spec/08 R249, R251; spec/05 R159): a good early frame's last cell may follow; a bad one's cells are freed, and its preamble
ends in idle if it has begun. (DEDUCED, log entry 24) -/
def execFcsCheckDone (frame : Nat) (s : State) : Host.Outcome State Fault Refusal :=
  .next (match s.frame frame with
    | none => s
    | some f =>
      if f.checked then s
      else
        let s := s.modFrame frame fun f => { f with checked := true }
        if !f.early || f.flags.toNat % 256 == 0 then s
        else match s.fabric.voq.find? fun c => c.frame == frame with
          | none => (s.badFrame f f.meas false).endFrame f.id
          | some c =>
            let s := (s.badFrame f f.meas false).modFabric fun x => { x with voq := x.voq.erase c }
            if Tab.get s.fabric.staged none c.q = some frame then ((s.countPort c.q 35).out (.abort c.q)).release c (some 10)
            else s.release c (some 11))

end Sys2Proof.Machine
end

