-- ==== Sys2Proof/Machine/EgressRows.lean ====
section
/-!
DEFINITION. Sys2Proof/Machine/EgressRows.lean: a frame on its way out (spec/08 R244 to R248, R262 to R278; spec/07 R216; spec/10 R330): Sorrel's
epochs, the egress MAC, transmission and its rewrites, Millet's transfers, ports that stay down, stack map-out and scrub.
-/
namespace Sys2Proof.Machine
open Sys2Proof

/-- SORREL_EPOCH (spec/08 R244 to R246). -/
def execSorrelEpoch (s : State) : Host.Outcome State Fault Refusal := .next (if s.up then s.sorrel else s)

/-- A write that has not been done is not needed any more. -/
def Loc.settle : Loc → Loc
  | .wait _ => .die
  | l => l

/-- The egress MAC of port `q` begins copy `x`; writes to the stacks that its cells wait for fall away. (DEDUCED, log entry 25) -/
def State.beginTx (s : State) (q : Nat) (x : Copy) : State :=
  let y := { x with own := x.own.filter fun p => p.2.settle == p.2 }
  let s := s.modFabric fun z => { z with eq := z.eq.erase x, tx := Tab.put z.tx none q (some y), staged := Tab.put z.staged none q none }
  s.when (!x.mc) fun s => s.modFrame x.frame fun f => { f with loc := f.loc.map Loc.settle }

/-- The first frame of the port's own begins (spec/05 R179). -/
def State.beginOwn (s : State) (q : Nat) : State := s.modMac q fun m => { m with own := m.own.drop 1, sending := m.own.head? }

/-- The port's own frames, all in TC15, come before other frames of that class. -/
def State.ownReady (s : State) (q : Nat) : Bool := !(s.mac q).own.isEmpty && !s.stopped q 15

/-- EGRESS_SELECT (spec/08 R248, R251, R274): the next frame of a port that sends nothing begins; one whose preamble is staged goes on
when it is whole, whatever has been paused since (spec/05 R161). -/
def execEgressSelect (port : Fin 128) (s : State) : Host.Outcome State Fault Refusal :=
  let q := port.val
  .next (if !s.up || !s.portUp q || s.sendingAt q then s
    else match Tab.get s.fabric.staged none q with
      | some id => match s.fabric.eq.find? fun x => x.frame == id && x.q == q with
        | some x => s.beginTx q x
        | none => s
      | none =>
        let s := s.dropAged q (s.fabric.eq.length + 1)
        if s.ownReady q && s.flag ⟨Reg.fabricSp q, 15, 1⟩ then s.beginOwn q
        else
          let r := s.selectQueue q
          if s.ownReady q && (r.2.isNone || r.2 == some 15) then s.beginOwn q
          else match r.2.bind (r.1.eqHead q) with
            | none => r.1
            | some x => r.1.beginTx q x)

/-! ### Rewrites of a frame as it is sent (spec/07 R216, R222; spec/10 R330) -/


/-- An internet checksum after 16-bit words have changed: pairs (old, new). -/
def csumUpd (hc : Nat) (w : List (Nat × Nat)) : Nat :=
  let t := w.foldl (fun a p => a + (65535 - p.1) + p.2) (65535 - hc)
  let t := t % 65536 + t / 65536
  65535 - (t % 65536 + t / 65536)

/-- The first header of kind `k` of a decided frame. -/
def Frame.hdr (f : Frame) (ks : List Nat) : Option (Nat × Nat) := f.hdrs.find? fun h => ks.contains h.1

/-- The VID of the outermost tag is replaced (spec/07 R216). -/
def Frame.putVid (f : Frame) (l : List Byte) (vid : Nat) : List Byte :=
  match f.tag with
  | some o => putBytes l o (beBytes 2 (fb2 l o / 4096 * 4096 + vid % 4096))
  | none => l

/-- The frame carries VID `vid` (spec/07 R222): in its outermost tag, else in a tag that is added. (DESIGN CHOICE, log entry 62) -/
def Frame.carryVid (f : Frame) (l : List Byte) (vid : Nat) : List Byte :=
  if f.tag.isSome then f.putVid l vid else l.take 12 ++ beBytes 2 0x8100 ++ beBytes 2 (vid % 4096) ++ l.drop 12

/-- The TTL or hop limit of the outermost IP header is decremented, the IPv4 header checksum updated. -/
def Frame.decTtl (f : Frame) (l : List Byte) : List Byte :=
  match f.hdr [4, 5] with
  | none => l
  | some h =>
    if h.1 = 4 then
      let old := fb2 l (h.2 + 8)
      let new := old - 256
      putBytes (putBytes l (h.2 + 8) (beBytes 2 new)) (h.2 + 10) (beBytes 2 (csumUpd (fb2 l (h.2 + 10)) [(old, new)]))
    else putBytes l (h.2 + 7) (beBytes 1 (fb l (h.2 + 7) - 1))

/-- The rewrite of a next-hop entry (spec/07 R216, R239). -/
def Frame.nextHop (f : Frame) (l : List Byte) (n : Rec) : List Byte :=
  let l := putBytes l 0 (beBytes 6 (n.bits 1 15 0 * 2 ^ 32 + n.bits 0 31 0) ++ beBytes 6 (n.bits 3 15 0 * 2 ^ 32 + n.bits 2 31 0))
  let l := if n.bits 4 12 12 = 1 then f.putVid l (n.bits 4 11 0) else l
  if n.bits 4 13 13 = 1 then f.decTtl l else l

/-- The PTP header of a PTP event message. -/
def Frame.ptpEvent (f : Frame) : Option Nat :=
  (f.hdr [12]).bind fun h => if fb f.bytes h.2 % 16 < 4 then some h.2 else none

/-- The correctionField of the PTP header at `o` takes `v`; the UDP checksum is updated, over IPv4 set to 0 (spec/10 R330). -/
def Frame.putCorr (f : Frame) (l : List Byte) (o : Nat) (v : Nat) : List Byte :=
  let new := putBytes l (o + 8) (beBytes 8 v)
  match f.hdr [7], f.hdr [4, 5] with
  | some u, some ip =>
    if ip.1 = 4 then putBytes new (u.2 + 6) (beBytes 2 0)
    else
      let w := [8, 10, 12, 14].map fun i => (fb2 l (o + i), fb2 new (o + i))
      let c := csumUpd (fb2 l (u.2 + 6)) w
      putBytes new (u.2 + 6) (beBytes 2 (if c = 0 then 65535 else c))
  | _, _ => new

/-- Residence of a frame copy, without a step of TCNT0 in it (spec/09 R309). -/
def State.residence (s : State) (f : Frame) (out : Stamp) : Int :=
  (out : Int) - f.stamp - (if f.stepSpan then s.stepOf 0 else 0)

/-- What the transparent clock adds at egress port `q` (spec/10 R330, spec/09 R311). -/
def State.tcAdd (s : State) (f : Frame) (q : Nat) (out : Stamp) : State × Int :=
  let r := s.residIn (s.fld (F.servoTc_COUNTER q)) out (s.residence f out)
  if !s.flag (F.servoTc_P2P_ADD q) then (s, r)
  else match s.peerDelay f.port with
    | (s, some d) => (s, r + d)
    | (s, none) => ({ s with servo := { s.servo with tcNoPdelay := s.servo.tcNoPdelay + 1 } }, r)

/-- The frame's bytes as copy `c` of it leaves port `q` with egress stamp `out`. -/
def State.egressBytes (s : State) (f : Frame) (c : Copy) (out : Stamp) : State × List Byte :=
  let l := f.bytes
  let l := match f.hop with | some n => f.nextHop l n | none => l
  let (s, l) := match f.ptpEvent with
    | some o =>
      if s.flag (F.servoTc_EN c.q) then
        let (s, d) := s.tcAdd f c.q out
        (s, f.putCorr l o (twos 64 (sgn 64 (fbN l (o + 8) 8) + d)))
      else (s, l)
    | none => (s, l)
  let l := match c.vid with | some v => f.carryVid l v | none => l
  (s, withFcs (l.take (l.length - 4)))

/-- Copy `c` of a frame has left port `q`, stamped `out` (spec/09 R294, R313; spec/05 R165; spec/08 R275; spec/15 R467). -/
def State.sent (s : State) (q : Nat) (f : Frame) (c : Copy) (out : Stamp) : State :=
  let f := if s.dipAt out then { f with flags := f.flags ||| 0x800 } else f
  let r := s.egressBytes f c out
  let s := ((r.1.countStamp q 1).send q r.2).when f.ptpEvent.isSome fun s => s.countPort q 46
  let s := (s.capture f (some c) (some out) 0).txDone f 0 (some out)
  (s.modFabric fun x => { x with tx := Tab.put x.tx none q none }).release c none

/-- FRAME_TX (spec/09 R294, R295; spec/05 R162, R165): the frame in progress has left, and the MAC control frames that waited follow. -/
def execFrameTx (port : Fin 128) (st : StampIn) (s : State) : Host.Outcome State Fault Refusal :=
  let q := port.val
  .next (match Tab.get s.fabric.tx none q with
    | none => match (s.mac q).sending with
      | none => s
      | some m => (((s.modMac q fun m => { m with sending := none }).countStamp q 1).ownSent q m (s.txStamp q (s.captured q 1 st))).flushCtrl q
    | some c =>
      match s.frame c.frame with
      | none => (s.modFabric fun x => { x with tx := Tab.put x.tx none q none }).flushCtrl q
      | some f => (s.sent q f c (s.txStamp q (s.captured q 1 st))).flushCtrl q)

/-! ### Millet (spec/08 R260, R262 to R266) -/

/-- SPILL_PARTIAL_FLUSH: the open unit is closed. -/
def execSpillPartialFlush (queue : Fin 2048) (headroom : Bool) (s : State) : Host.Outcome State Fault Refusal :=
  let i := queue.val
  .next (s.modFabric fun x =>
    if headroom then
      let u := Tab.get x.hrOpen [] i
      if u.isEmpty then x
      else { x with hrOpen := Tab.put x.hrOpen [] i [], hrUnits := Tab.put x.hrUnits [] i (Tab.get x.hrUnits [] i ++ [u]) }
    else
      let u := Tab.get x.spillOpen [] i
      if u.isEmpty then x
      else { x with spillOpen := Tab.put x.spillOpen [] i [], spillUnits := Tab.put x.spillUnits [] i (Tab.get x.spillUnits [] i ++ [u]) })

/-- A unit has been written to the next stack in turn: those of its cells that still wait are there now (spec/08 R262). The number of
them. -/
def State.writeUnit (s : State) (hr : Bool) (u : List CellRef) : State × Nat :=
  match s.nextStack with
  | none => (s, 0)
  | some k =>
    let go := u.filter fun r => s.cellAt r == some (.wait hr)
    let s := s.each go fun s r => s.setCell r (.deep k hr)
    let s := s.modFabric fun x => { x with stripe := k, written := x.written + go.length }
    ((s.showFrames (u.map (·.frame))).showFree, go.length)

/-- SPILL_WRITE_DONE: headroom writes come first, spill writes after them and after urgent refills; these pause during DIP, and while the
general pool has no room for the unit (spec/08 R263, R265, R266). (DEDUCED, log entry 25) -/
def execSpillWriteDone (queue : Fin 2048) (headroom : Bool) (s : State) : Host.Outcome State Fault Refusal :=
  let i := queue.val
  .next (if headroom then
      match Tab.get s.fabric.hrUnits [] i with
      | [] => s
      | u :: rest => if !s.milletRoom 1 u.length then s
        else ((s.modFabric fun x => { x with hrUnits := Tab.put x.hrUnits [] i rest }).writeUnit true u).1
    else match Tab.get s.fabric.spillUnits [] i with
      | [] => s
      | u :: rest => if s.inDip || !s.milletRoom 3 u.length || decide (s.deepFree < u.length) then s
        else
          let r := (s.modFabric fun x => { x with spillUnits := Tab.put x.spillUnits [] i rest }).writeUnit false u
          r.1.countFab (i / 16) 10 r.2)

/-- The cells that stack `k` holds, with their places. -/
def State.stackCells (s : State) (k : Nat) : List (CellRef × Loc) :=
  s.allCells.filter fun p => match p.2 with | .deep j _ => j == k | _ => false

/-- Stack `k` goes out of use and its evacuation begins (spec/08 R267); the map-out counts its cells (spec/15 R477). -/
def State.mapOut (s : State) (k : Nat) : State :=
  let s := s.modOp 0x0501 fun o => { o with total := (s.stackCells k).length }
  let s := s.setF F.deepStatus_MAPPED (s.fld F.deepStatus_MAPPED ||| 2 ^ k)
  let s := s.setF F.deepStatus_READY (s.fld F.deepStatus_READY &&& (15 - 2 ^ k))
  let s := s.modFabric fun x => { x with evac := some (k, s.time.tick, 0), tested := x.tested &&& ~~~(BitVec.ofNat 4 (2 ^ k)) }
  (s.setF F.deepStatus_EVAC 1).showDeep

/-- A copy is dropped for cells that the stacks have lost (spec/08 R266, R267). -/
def State.dropCopy (s : State) (x : Copy) : State :=
  ((s.modFabric fun y => { y with eq := y.eq.erase x, voq := y.voq.erase x }).countFab x.q 9).release x (some 9)

/-- Copy `x` holds cell `r`. -/
def Copy.holds (x : Copy) (r : CellRef) : Bool :=
  x.frame == r.frame && decide (r.cell < x.cells) && (match r.copy with | some n => x.n == n | none => x.uses r.cell)

/-- Every queued copy that holds one of some cells is dropped; the number of their frames. -/
def State.dropCells (s : State) (l : List CellRef) : State × Nat :=
  let go := (s.fabric.eq ++ s.fabric.voq).filter fun x => l.any x.holds
  (s.each go State.dropCopy, (go.map (·.frame)).eraseDups.length)

/-- STACK_FAULT of stack `k`, once a beat (spec/08 R266, R278). -/
def State.stackFault (s : State) (k kind n : Nat) : State :=
  (s.modFabric fun x => { x with faulted := Tab.put x.faulted false k true }).raise 0x0503 16 [(0, 1, k), (1, 1, kind), (4, 4, n)]

/-- `n` uncorrectable errors of stack `k` (spec/08 R266): counted; STACK_FAULT at most once a beat; automatic map-out, whose STACK_FAULT
takes the place of the other one, or comes in the next beat. (DEDUCED, log entry 25; DEDUCED, log entry 25) -/
def State.stackError (s : State) (k n : Nat) : State :=
  if n = 0 then s
  else
    let l := List.replicate n s.time.tick ++ (Tab.get s.fabric.uncorr [] k).filter fun t => s.time.tick < t + 1600000000
    let s := (s.bump (F.deepEccUncorr_COUNT k) n).modFabric fun x => { x with uncorr := Tab.put x.uncorr [] k l }
    let go := s.flag F.deepCfg_AUTO_MAPOUT && decide (s.fld F.deepCfg_UNCORR_TH < l.length) && s.fld F.deepStatus_MAPPED == 0 &&
      bitAt (s.fld F.deepStatus_READY) k
    let told := Tab.get s.fabric.faulted false k
    let s := if told then s.when go fun s => s.modFabric fun x => { x with faultDue := some (k, l.length) }
      else s.stackFault k (bit go) l.length
    s.when go fun s => s.mapOut k

/-- REFILL_DONE: the oldest cells of the queue in the stacks, at most a unit of one stack, come back on die while its on-die head is below
REFILL (spec/08 R264, R265); a cell in error, `bad` its place among them, drops its frame, every copy that the cell serves (R266). (DEDUCED, log entry 25) -/
def execRefillDone (queue : Fin 2048) (stack : Fin 4) (corrected : Nat) (bad : List (Fin 8)) (s : State) :
    Host.Outcome State Fault Refusal :=
  let q := queue.val / 16
  let c := queue.val % 16
  let run := s.refillRun q c
  let head := s.onDieHead q c
  let min' := s.fld (F.eqSpill_REFILL queue.val)
  .next (if !(run.any fun p => p.2 == .deep stack.val false || p.2 == .deep stack.val true) || decide (min' ≤ head) ||
      !s.milletRoom (if head < min' / 2 then 2 else 4) run.length then s
    else
      let s := (s.bump (F.deepEccCorr_COUNT stack.val) corrected).modFabric fun x => { x with read := x.read + run.length }
      let r := s.dropCells ((bad.filterMap fun j => run[j.val]?).map (·.1))
      let s := r.1.stackError stack.val r.2
      let go := run.filter fun p => s.cellAt p.1 == some p.2
      let s := (s.each go fun s p => s.setCell p.1 .die).countFab q 11 go.length
      ((s.showFrames (go.map (·.1.frame))).showEq q c).showFree)

/-- Evacuation reads what is left of its stack with the remainder of the beat's budget (spec/08 R265). -/
def State.evacReads (s : State) : State :=
  match s.fabric.evac with
  | none => s
  | some e =>
    let n := min ((s.stackCells e.1).length - e.2.2) (s.milletBudget - s.fabric.written - s.fabric.read)
    (s.modFabric fun x => { x with evac := some (e.1, e.2.1, e.2.2 + n), read := x.read + n }).modOp 0x0501 fun o =>
      { o with progress := min o.total (e.2.2 + n) }

/-- At a boundary: DEEPBUF_BW shows the beat that ended, in units of 10 Gb/s (spec/08 R265, R285), and queues follow their limits (R263). (DEDUCED, log entry 25) -/
def State.milletBoundary (s : State) : State :=
  let rate := fun n => min 65535 (n * 2048 / 100000)
  let s := s.evacReads
  let s := (s.setF F.deepBw_READ (rate s.fabric.read)).setF F.deepBw_WRITE (rate s.fabric.written)
  let due := s.fabric.faultDue
  let s := (s.modFabric fun x => { x with read := 0, written := 0, faulted := [], faultDue := none }).showFree.pressure
  match due with
  | some (k, n) => s.stackFault k 1 n
  | none => s

/-! ### Stack map-out and scrub (spec/08 R267, R277) -/

/-- DEEPBUF_MAPOUT: map-out is a long operation; map-in completes at once, after a test of the stack. -/
def execDeepbufMapout (c : Cmd) (s : State) : Host.Outcome State Fault Refusal :=
  let k := c.fld 0 1
  .next (s.start c 0x0501 (c.ok 2 && decide (k < 4) && decide (c.fld 1 1 < 2)) fun s =>
    if c.fld 1 1 = 1 then
      if s.fld F.deepStatus_MAPPED ≠ 0 ∨ !bitAt (s.fld F.deepStatus_READY) k then s.complete c 0x0501 st.badState
      else s.startLong c 0x0501 0x0501 0 [k] fun s _ => s.mapOut k
    else if !bitAt (s.fld F.deepStatus_MAPPED) k || s.fabric.evac.isSome || !bitAt s.fabric.tested.toNat k then
      s.complete c 0x0501 st.badState
    else
      let s := s.setF F.deepStatus_MAPPED (s.fld F.deepStatus_MAPPED &&& (15 - 2 ^ k))
      let s := s.setF F.deepStatus_READY (s.fld F.deepStatus_READY ||| 2 ^ k)
      let s := s.modFabric fun x => { x with tested := x.tested &&& ~~~(BitVec.ofNat 4 (2 ^ k)) }
      s.showDeep.complete c 0x0501 st.ok)

/-- Frames whose cells the other stacks have no free cell for are dropped, the newest copies first. (DESIGN CHOICE, log entry 25) -/
def State.evacDrop (s : State) (k : Nat) : Nat → State
  | 0 => s
  | n + 1 =>
    if s.headroomSum + s.deepUsed ≤ s.deepCells then s
    else
      let l := (s.stackCells k).map (·.1)
      match (s.fabric.eq ++ s.fabric.voq).reverse.find? fun x => l.any x.holds with
      | none => s
      | some x => (s.dropCopy x).evacDrop k n

/-- The cells of stack `k` go to the other stacks, in units (spec/08 R262, R267). -/
def State.evacuate (s : State) (k : Nat) : State :=
  let l := s.stackCells k
  s.each (List.range ((l.length + 7) / 8)) fun s i =>
    match s.nextStack with
    | none => s
    | some j =>
      let s := s.each ((l.drop (8 * i)).take 8) fun s p => s.setCell p.1 (match p.2 with | .deep _ hr => .deep j hr | x => x)
      s.modFabric fun x => { x with stripe := j }

/-- MAPOUT_DONE (spec/08 R266, R267): frames with cells that could not be read, or that find no room, are dropped; the others' cells are in
the other stacks; the reads that no boundary has counted yet count in this beat (R285). (DEDUCED, log entry 25) -/
def execMapoutDone (stack : Fin 4) (corrected : Nat) (lost : List CellRef) (s : State) : Host.Outcome State Fault Refusal :=
  .next (match s.fabric.evac with
    | none => s
    | some (k, t, done) => if k ≠ stack.val then s else
      let all := (s.stackCells k).length
      let s := s.bump (F.deepEccCorr_COUNT k) corrected
      let r := s.dropCells (lost.filter fun r => (s.stackCells k).any fun p => p.1 == r)
      let s := r.1.evacDrop k (s.fabric.eq.length + s.fabric.voq.length)
      let moved := (s.stackCells k).length
      let s := s.evacuate k
      let s := (s.modFabric fun x => { x with evac := none, read := x.read + (all - done) }).setF F.deepStatus_EVAC 0
      let s := s.raise 0x0504 16 [(0, 1, k), (4, 4, moved), (8, 4, all - moved), (12, 4, (s.time.tick - t) / 1600)]
      match s.host.longOps.find? fun o => o.op == 0x0501 && o.state == .running with
      | some o => s.endLong o.handle st.ok (packLE 256 [(0, 4, moved), (4, 4, all - moved)])
      | none => s)

/-- DEEPBUF_SCRUB. -/
def execDeepbufScrub (c : Cmd) (s : State) : Host.Outcome State Fault Refusal :=
  .next (s.start c 0x0502 (c.ok 2 && decide (c.fld 0 1 < 16) && decide (c.fld 1 1 < 2)) fun s =>
    if c.fld 1 1 = 1 ∧ c.fld 0 1 &&& s.fld F.deepStatus_MAPPED ≠ c.fld 0 1 then s.complete c 0x0502 st.badState
    else s.startLong c 0x0502 0x0501 (maskIdx 4 (c.fld 0 1)).length [c.fld 0 1, c.fld 1 1])

/-! ### Copies that cannot be delivered, ports that stay down (spec/08 R269, R273) -/

/-- The MC_WAIT timer of a copy has run out: MC_WAIT_US, 0 acting as 1 (spec/08 R269, R280). -/
def State.waitOver (s : State) (x : Copy) : Bool :=
  x.since.any fun t => decide (t + 1600 * max 1 (s.fld F.fabricMc_MC_WAIT_US) ≤ s.time.tick)

/-- MC_ABANDON (spec/08 R269): the MC_WAIT timer of a copy in its VOQ has run out; the copy has not been admitted whole. -/
def execMcAbandon (frame : Nat) (egress : Fin 128) (s : State) : Host.Outcome State Fault Refusal :=
  let q := egress.val
  .next (match s.fabric.voq.find? fun x => x.frame == frame && x.q == q && x.mc with
    | none => s
    | some x =>
      if s.waitOver x then ((s.modFabric fun y => { y with voq := y.voq.erase x }).countFab q 5).release x (some 5) else s)

/-- PORT_HOLD_EXPIRED (spec/08 R271, R272): PORT_DOWN_HOLD_MS has passed. -/
def execPortHoldExpired (port : Fin 128) (s : State) : Host.Outcome State Fault Refusal :=
  let q := port.val
  .next (if s.fld (F.fabricPort_HOLD_STATE q) ≠ 1 ∨ s.portUp q ∨
      s.time.tick < Tab.get s.fabric.holdTick 0 q + 1600000 * max 1 (s.fld (F.fabricPort_PORT_DOWN_HOLD_MS q)) then s
    else
      let (s, n, cells) := s.flush (fun c => c.q == q) 3 1
      let s := (s.setF (F.fabricPort_HOLD_STATE q) 2).raise 0x0501 16
        [(0, 2, q), (2, 1, s.link q), (3, 1, s.fld (F.laneStatus_LAST_CAUSE q)), (4, 1, s.fld (F.laneStatus_RECOVERING q)), (8, 4, n), (12, 4, cells)]
      if s.flag (F.pipePortL2_FLUSH_ON_DOWN (q / 32) (q % 32)) then
        s.each (List.range 4) fun s p => (s.flushMac p fun e => !e.mc && e.dest.toNat == q).1
      else s)

end Sys2Proof.Machine
end

