-- ==== Sys2Proof/Machine/MeasRows.lean ====
section
/-!
DEFINITION. Sys2Proof/Machine/MeasRows.lean: the commands and events of the measurement block (spec/13): edges, ends of windows and gates,
posting, FREQ_LONG, pulse schedules, and the writes to its registers.
-/
namespace Sys2Proof.Machine
open Sys2Proof

/-! ### Edges (spec/13 R415 to R417) -/

/-- When the hold-off that an edge of EVIN `n` starts is over: HOLDOFF_NS in whole ticks, rounded up (spec/13 R416). -/
def State.holdTill (s : State) (n : Nat) (code : BitVec 12) : Nat :=
  let hold := (8 * min 10000 (s.fld (F.evinHoldoffCfg_HOLDOFF_NS n)) + 4) / 5
  if hold = 0 then 0 else s.edgeTime code + 4096 * hold + 1

/-- An edge of EVIN `n` (spec/13 R415, R416): any crossing within the hold-off is ignored and counted; the times compared are the edges'
own, and a crossing at the very end of the hold-off is ignored, so that with 2 ticks of it no edge merges. -/
def State.evinEdge (s : State) (n : Nat) (falling : Bool) (code : BitVec 12) : State :=
  if !s.flag (F.evinCfg_EN n) || bitAt s.meas.mute.toNat n then s
  else if s.edgeTime code < Tab.get s.meas.holdEnd 0 n then s.bump (F.evinHoldoff_COUNT n)
  else if falling ≠ s.flag (F.evinCfg_EDGE n) then s
  else
    (s.modMeas fun x => { x with holdEnd := Tab.put x.holdEnd 0 n (s.holdTill n code) }).unitEdge n code

/-- EVIN_EDGE: the unit's raw code is linearised first (spec/09 R299). -/
def execEvinEdge (evin : Fin 16) (falling : Bool) (code : BitVec 12) (s : State) : Host.Outcome State Fault Refusal :=
  .next (if s.up then s.evinEdge evin falling (s.linear (128 + evin.val) 0 code) else s)

/-- An edge of REFIN `m`: unit 144 + 2m for a rising edge, 145 + 2m for a falling one (spec/09 R298); one that is not merged is a stamp
of its candidate where EDGE selects it (spec/12 R378). -/
def State.refinEdge (s : State) (m : Nat) (falling : Bool) (code : BitVec 12) : State :=
  let u := 16 + 2 * m + bit falling
  let merged := s.merges u code
  let st := s.pinStamp u code
  let s := s.unitEdge u code
  if merged ∨ falling ≠ s.flag (F.candCfg_EDGE m) ∨ 2 ≤ s.candType m then s
  else s.candEdge m st (s.time.tick * 4096 - code.toNat)

/-- REFIN_EDGE: the unit's raw code is linearised first (spec/09 R299). -/
def execRefinEdge (refin : Fin 8) (falling : Bool) (code : BitVec 12) (s : State) : Host.Outcome State Fault Refusal :=
  .next (if s.up then s.refinEdge refin falling (s.linear (144 + 2 * refin.val + bit falling) 0 code) else s)

/-- MEAS_WINDOW_END (spec/09 R305). -/
def execMeasWindowEnd (im : Fin 32) (s : State) : Host.Outcome State Fault Refusal := .next (if s.up then s.imEnd im else s)

/-- PENDING_STOP_EXPIRE (spec/09 R304, R305). -/
def execPendingStopExpire (im : Fin 32) (stop : Fin 8) (s : State) : Host.Outcome State Fault Refusal :=
  .next (if s.up then s.imExpire im stop else s)

/-- MEAS_POST (spec/13 R421). -/
def execMeasPost (s : State) : Host.Outcome State Fault Refusal := .next (if s.up then s.measPost else s)

/-! ### Frequency gates -/

/-- FM_GATE_END: the gate's last boundary has come (spec/13 R423, R425); with no gate that has reached it, nothing happens. -/
def execFmGateEnd (fm : Fin 16) (s : State) : Host.Outcome State Fault Refusal := .next (if s.up then s.fmEnd fm else s)

/-- FREQ_LONG (spec/13 R428). -/
def execFreqLong (c : Cmd) (s : State) : Host.Outcome State Fault Refusal :=
  let f := c.fld 0 1
  let src := c.fld 1 1
  let ms := c.fld 4 4
  let name := boundaryName (c.fld 8 6) (c.fld 14 4)
  .next (s.start c 0x0A01 (c.ok 32 [(18, 6)] && decide (f < 16) && decide (128 ≤ src) && decide (src < 160) && decide (c.fld 2 1 < 4) &&
      decide (c.fld 3 1 ≤ 24) && decide (1000 ≤ ms) && decide (ms ≤ 1000000) && s.nameOk (c.fld 14 4) name && c.fld 24 8 % 64 == 0 && s.bufOk c.src (c.fld 24 8) 128)
    fun s =>
      if s.flag (F.fmCfg_EN f) ∨ (s.fm f).owner.isSome then s.complete c 0x0A01 st.badState
      else s.startLong c 0x0A01 (0xA0100 + f) ms [f, src - 128, c.fld 2 1, c.fld 3 1, ms, c.fld 24 8] fun s h =>
        (s.modFm f fun x => { x with owner := some h, begins := some name }).showFm f)

/-- A boundary: the next gate of an enabled FM begins, and the gate of a FREQ_LONG whose name has come; one that a step has skipped fails
(spec/13 R423, R428; spec/01 R29). -/
def State.fmBoundary (s : State) (f : Nat) : State :=
  let s := s.fmStart f
  let x := s.fm f
  match x.begins, x.owner.bind s.longAt with
  | some name, some o =>
    if s.skippedName name then ((s.fmRelease f).endLong o.handle st.badState).late 8
    else if s.dueName name then
      let a (i : Nat) : Nat := o.args.getD i 0
      let held := s.fmHeld f
      ((s.modFm f fun x => { x with begins := none }).fmOpen f (a 1) (a 2) (a 3) (100 * a 4)).modFm f fun x => { x with
        gate := x.gate.map fun g => { g with susp := held, suspended := held } }
    else s
  | _, _ => s

/-! ### Pulses (spec/13 R429 to R434) -/

/-- EVOUT_PULSE: EVOUT0 runs in the always-on island (spec/13 R433). -/
def execEvoutPulse (evout : Fin 16) (trailing : Bool) (s : State) : Host.Outcome State Fault Refusal :=
  .next (if (if evout.val = 0 then s.power.aon && s.power.pllLocked else s.up) then s.evoutEdge evout trailing else s)

/-- The schedule that a PULSE_LOAD carries. -/
def pulseSched (c : Cmd) : Sched :=
  { en := bitAt (c.fld 1 1) 0, pol := bitAt (c.fld 1 1) 1, adv := bitAt (c.fld 1 1) 2, tb := c.fld 2 1,
    start := stampAt c.payload 4, period := c.fld 16 4 * 65536 + c.fld 20 2, width := c.fld 24 4, count := c.fld 28 4 }

/-- PULSE_LOAD (spec/13 R434). -/
def execPulseLoad (c : Cmd) (s : State) : Host.Outcome State Fault Refusal :=
  let k := c.fld 0 1
  let tb := c.fld 2 1
  let name := boundaryName (c.fld 32 6) (c.fld 38 4)
  .next (s.start c 0x0A02 (c.ok 48 [(3, 1), (22, 2), (42, 6)] && decide (k < 16) && decide (c.fld 1 1 < 8) && decide (tb < 4) &&
      (k != 0 || tb == 0) && decide (c.fld 10 4 < 1000000000) && s.nameOk (c.fld 38 4) name && (pulseSched c).ok) fun s =>
    if ((s.evout k).loads.any fun l => s.boundNo l.2.1 == s.boundNo name) ||
        s.flag (F.evoutCfg_LOAD k) && s.boundNo name == s.boundNo none then s.complete c 0x0A02 st.busy
    else
      let (s, id) := s.parkId c 0x0A02
      s.modEvout k fun x => { x with loads := x.loads ++ [(id, name, pulseSched c)] })

/-- A write of word `w` of `MEASURE_EVOUT[k]` (spec/13 R431, R439): the host's, or the interlock holder's; LOAD asks for the shadow set at
the next boundary; TB of EVOUT0 stays 0. -/
def State.evoutWrite (s : State) (src : WrSrc) (k word : Nat) (w : Word) : State :=
  let a := Reg.evoutCfg k + 4 * word
  s.byWriter src a w fun s =>
    let other := match src with
      | .host => false
      | .core c => decide (2 ≤ c.val)
    if other then s
    else
      let s := s.putRw a w
      if word = 0 ∧ (F.evoutCfg_LOAD k).of w = 1 then s.setF (F.evoutCfg_LOAD k) 1 else s

/-- EVOUT_LOAD: a write of `MEASURE_EVOUT[k]_CFG`. -/
def execEvoutLoad (src : WrSrc) (evout : Fin 16) (value : BitVec 32) (s : State) : Host.Outcome State Fault Refusal :=
  .next (s.evoutWrite src evout 0 value)

/-! ### Shared outputs -/

/-- The shared clock outputs come on with the board interlock, as after any change of EN (spec/14 R453; spec/12 R402, R403). -/
def State.sharedOn (s : State) : State :=
  s.each ((List.range 12).filter fun k => bitAt (s.fld F.redundShared_CLKOUT) k && s.flag (F.clkout_EN k)) fun s k =>
    (s.clkHold k).clkAlign k

/-- BOARD_INTLK_SAMPLE (spec/14 R453): the device yields to a peer that asserts, unless it is primary; else its shared outputs come on. (DEDUCED, log entry 47) -/
def execBoardIntlkSample (level : Bool) (s : State) : Host.Outcome State Fault Refusal :=
  .next (if !s.redund.taking then s
    else
      let s := (s.modRedund fun x => { x with taking := false }).setF F.redundStatus_PEER (bit level)
      if level && !s.flag F.redundCfg_BOARD_PRIMARY then (s.setF F.redundStatus_BOARD_HOLD 0).boardEvent 2 true
      else (s.boardEvent 0 level).sharedOn)

/-! ### Configuration -/

/-- A register word that takes effect at the next boundary (spec/18 R546), unless a later writer of this tick has written it (R547). (DEDUCED, log entry 9) -/
def State.later (s : State) (src : WrSrc) (a : Nat) (w : Word) : State :=
  s.byWriter src a w fun s =>
    if s.beaten src a then s else (s.wait a ((s.regW a &&& ~~~(rwMask a)) ||| (w &&& rwMask a))).took src a

/-- IM_CFG_WRITE (spec/13 R419): word 0 CFG, 1 and 2 the stops, 3 the window. -/
def execImCfgWrite (src : WrSrc) (im : Fin 32) (word : Fin 4) (value : BitVec 32) (s : State) : Host.Outcome State Fault Refusal :=
  .next (s.later src (Reg.imCfg im + 4 * word) value)

/-- A write of CFG or GATE of an FM (spec/13 R423, R428): none has an effect while a long operation owns it. -/
def State.fmWrite (s : State) (src : WrSrc) (f word : Nat) (w : Word) : State :=
  if (s.fm f).owner.isSome then s else s.later src (Reg.fmCfg f + 4 * word) w

/-- FM_CFG_WRITE. -/
def execFmCfgWrite (src : WrSrc) (fm : Fin 16) (word : Fin 2) (value : BitVec 32) (s : State) : Host.Outcome State Fault Refusal :=
  .next (s.fmWrite src fm word value)

/-- The conditioning of EVIN `n` has changed at a boundary: it ignores edges for this beat (spec/13 R415). -/
def State.evinConfig (s : State) (n : Nat) (old : Word) : State :=
  if (s.reg (Reg.evinCfg n)) <<< 1 = old <<< 1 then s
  else s.modMeas fun x => { x with mute := x.mute ||| BitVec.ofNat 16 (2 ^ n) }

end Sys2Proof.Machine
end

