-- ==== Sys2Proof/Machine/HostIf.lean ====
section
/-!
DEFINITION. Sys2Proof/Machine/HostIf.lean: the operations of the host interface (spec/15): doorbell fetches, host indices, ring
configuration, the nesting rules of R481, the completion timeout, link recovery, domain reset 4.
-/
namespace Sys2Proof.Machine
open Sys2Proof

def State.modHost (s : State) (f : HostSt → HostSt) : State := { s with host := f s.host }

/-! ### Rings (spec/15 R462, R463, R489) -/

/-- Rings that the host fills: TX, RX posts and commands. -/
def hostFills (r : Nat) : Bool := decide (r < 65)

/-- A bad index stops ring `r`: ERR, ERR_CODE and RING_ERROR (spec/15 R463, R479). -/
def State.ringFail (s : State) (r code idx : Nat) : State :=
  let s := s.modHost fun h => { h with stopped := Tab.put h.stopped false r true }
  let s := (s.setF (F.ringStatus_ERR r) 1).setF (F.ringStatus_ERR_CODE r) code
  s.raise 0x0C02 16 [(0, 1, r), (1, 1, code), (4, 4, idx), (8, 4, s.devIdx r)]

/-- A fetched host index of ring `r` is checked and applied (spec/15 R463). -/
def State.ringIndex (s : State) (r : Nat) (idx : Word) : State :=
  if !s.ringOn r then s
  else
    let d := BitVec.ofNat 32 (s.devIdx r)
    let n := if hostFills r then (idx - d).toNat else (d - idx).toNat
    if n ≤ s.ringSize r then (s.setReg (Reg.ringHostIdx r) idx).showFull r else s.ringFail r 1 idx.toNat

/-- The entries that DMA_OFF keeps back for ring `r`, now disabled, are lost; a device-filled ring counts them (spec/15 R478, R480, R487). (DEDUCED, log entry 38) -/
def State.dropHeld (s : State) (r : Nat) : State :=
  let n := (s.host.heldEntries.filter (·.ring == r)).length
  (s.bump (F.ringLoss_COUNT r) n).modHost fun h => { h with heldEntries := h.heldEntries.filter (·.ring ≠ r) }

/-- Ring `r` becomes enabled: indices 0, its base in force; once both command rings are enabled after domain reset 4, the final
completions kept are due (spec/15 R463, R484, spec/18 R548). -/
def State.ringOpen (s : State) (r : Nat) : State :=
  let b := ((s.reg (Reg.ringBaseHi r)).toNat * 2 ^ 32 + (s.reg (Reg.ringBaseLo r)).toNat) / 4096 * 4096
  let s := s.modHost fun h => { h with
    base := Tab.put h.base 0 r b, stopped := Tab.put h.stopped false r false, txq := Tab.put h.txq [] r [],
    sigDue := Tab.put h.sigDue false r false }
  let s := (((s.setReg (Reg.ringDevIdx r) 0).setReg (Reg.ringHostIdx r) 0).setF (F.ringStatus_ERR r) 0).setF (F.ringStatus_ERR_CODE r) 0
  let s := (s.dropHeld r).showFull r
  let s := if s.host.ringsReset ∧ s.flag (F.ringCfg_EN 64) ∧ s.flag (F.ringCfg_EN 65) then
      s.modHost fun h => { h with ringsReset := false, waitCpl := h.keptFinal ++ h.waitCpl, keptFinal := [] }
    else s
  if r = 66 then s.reportLost else if r = 65 ∨ r = 64 then s.flushCpl s.host.waitCpl.length else s

/-- A write of `HOSTIF_RING[r]_CFG`: fields other than EN only while EN is 0 (spec/15 R489). (DEDUCED, log entry 38) -/
def State.ringCfgWrite (s : State) (r : Nat) (v : Word) : State :=
  if s.flag (F.ringCfg_EN r) then
    if (F.ringCfg_EN r).of v = 1 then s
    else ((s.setF (F.ringCfg_EN r) 0).dropHeld r).modHost fun h => { h with txq := Tab.put h.txq [] r [] }
  else
    let s := s.putRw (Reg.ringCfg r) v
    if s.flag (F.ringCfg_EN r) then s.ringOpen r else s

/-! ### Doorbell fetches (spec/15 R464, R465) -/

/-- Fetches may be issued. -/
def State.dbOn (s : State) : Bool := s.up && s.flag F.hostifCfg_DB_EN && s.host.pm == .d0

/-- Issue a fetch, with its deadline (spec/01 R32). -/
def State.issueFetch (s : State) (kick : Bool) (due : Nat) : State :=
  s.modHost fun h => { h with fetch := some ⟨kick, due, h.fetchSeq⟩, fetchSeq := h.fetchSeq + 1 }

/-- A kick fetch is issued, unless 32 have been in this beat. -/
def State.issueKick (s : State) : State :=
  if s.host.kicksThisBeat < 32 then
    ((s.issueFetch true (s.time.tick + 8000)).modHost fun h => { h with kicksThisBeat := h.kicksThisBeat + 1 }).bump (F.hostifCnt_COUNT 0)
  else s.bump (F.hostifCnt_COUNT 1)

/-- A kick: a fetch at once, or after the one outstanding. -/
def State.kicked (s : State) : State :=
  if !s.dbOn then s
  else if s.host.fetch.isSome || s.flag F.hostifEmerg_DMA_OFF then s.modHost fun h => { h with kickQueued := true }
  else s.issueKick

/-- No fetch is outstanding: the beat fetch that is owed goes first and takes the place of a queued kick fetch. -/
def State.nextFetch (s : State) : State :=
  if !s.dbOn || s.flag F.hostifEmerg_DMA_OFF || s.host.fetch.isSome then s
  else match s.host.beatFetchOwed with
    | some due => (s.issueFetch false due).modHost fun h => { h with beatFetchOwed := none, kickQueued := false }
    | none => if s.host.kickQueued then (s.modHost fun h => { h with kickQueued := false }).issueKick else s

/-- HOSTIF_EMERG.FETCH_NOW reads 1 until the kick fetch has ended: no kick fetch is outstanding or queued (spec/00 R16, spec/15 R487). -/
def State.showFetchNow (s : State) : State :=
  if s.flag F.hostifEmerg_FETCH_NOW && !s.host.kickQueued && !s.host.fetch.any (·.kick) then s.setF F.hostifEmerg_FETCH_NOW 0 else s

/-- Writing FETCH_NOW: a kick fetch as if the kick page were written; ignored while DB_EN is 0 (spec/15 R465, R487). -/
def State.fetchNow (s : State) : State :=
  if s.dbOn then (s.setF F.hostifEmerg_FETCH_NOW 1).kicked.showFetchNow else s

/-- The outstanding fetch misses its deadline (spec/01 R32, spec/15 R465): it is abandoned and counted; before the main domain has joined
the beat nothing in it is late (spec/03 R83). -/
def State.fetchLate (s : State) : State :=
  let s := s.modHost fun h => { h with fetch := none }
  (s.when s.joinedBeat fun s => s.late 3).nextFetch.showFetchNow

/-- The status block (spec/15 R466), which DMA_OFF holds (R487). -/
def State.statBlock (s : State) : State :=
  match s.statAddr with
  | none => s
  | some a =>
    if s.flag F.hostifEmerg_DMA_OFF then s
    else
    let f := Stamp.fields (recCnt (s.time.recs.headD []) 0).stamp 0 ++ [(0xC, 4, s.beat)] ++
      (List.range 69).map fun r => (0x40 + 4 * r, 4, s.devIdx r)
    s.post (.mem a 512 (packLE 4096 f).toNat)

/-- Order 9 of a boundary: the beat's fetch, and the status block (spec/01 R31, spec/15 R464, R466). -/
def State.beatFetch (s : State) : State :=
  let s := s.modHost fun h => { h with kicksThisBeat := 0 }
  let s := if !s.dbOn then s
    else if s.host.fetch.isSome || s.flag F.hostifEmerg_DMA_OFF then s.modHost fun h => { h with beatFetchOwed := some (s.time.tick + 8000) }
    else (s.issueFetch false (s.time.tick + 8000)).modHost fun h => { h with kickQueued := false }
  s.showFetchNow.statBlock

/-- The user area of a beat fetch is copied for the cores; a change raises USER_AREA (spec/15 R464, spec/16 R496, R497). -/
def State.userCopy (s : State) (u : BitVec 24576) : State :=
  let s := s.modHost fun h => { h with userSeq := h.userSeq + 2 }
  if u = s.host.userArea then s
  else (s.modHost fun h => { h with userArea := u }).each (List.range 8) fun s c => s.raiseInt c 7

/-! ### Retries below, timeouts above (spec/15 R461, R481) -/

/-- Completion timeout that an encoding of Device Control 2 selects, in µs; encodings the table does not list act as the default. (DEDUCED, log entry 38) -/
def ctoUs (e : Nat) : Nat :=
  if e = 1 then 100 else if e = 2 then 10000 else if e = 6 then 200000 else if e = 9 then 900000 else if e = 10 then 3500000 else 50000

/-- TIMEOUT_MS in force. -/
def cmdMs (v : Nat) : Nat := max 10 (min 60000 v)

/-- The PCIe budget in µs is shorter than the command timeout. -/
def pcieNested (cto retries timeout : Nat) : Bool := decide (cto * (retries + 1) + 48000 < cmdMs timeout * 1000)

/-- Completion timeout in use, µs (spec/15 R486). (DEDUCED, log entry 38) -/
def State.ctoUse (s : State) : Nat := if s.fld F.hostifStatus_CTO_MS = 0 then 100 else s.fld F.hostifStatus_CTO_MS * 1000

/-- The I²C budget of every module bus is shorter than the command timeout (spec/15 R481). -/
def State.i2cNested (s : State) (timeout : Nat) : Bool :=
  (List.range 16).all fun k => decide (s.fld (F.portI2c_RETRIES k) * max 1 (s.fld (F.portI2c_RETRY_MS k)) < cmdMs timeout)

/-- A command timeout and a number of retries break no pair. -/
def State.hostNested (s : State) (timeout retries : Nat) : Bool := pcieNested s.ctoUse retries timeout && s.i2cNested timeout

/-- A write of `HOSTIF_CMD` or `HOSTIF_DMA` that breaks a pair is not applied and sets CFG_ERR. -/
def State.hostCmdWrite (s : State) (v : Word) : State :=
  if s.hostNested (F.hostifCmd_TIMEOUT_MS.of v) (s.fld F.hostifDma_RETRIES) then s.putRw Reg.hostifCmd v
  else s.setF F.hostifStatus_CFG_ERR 1
def State.hostDmaWrite (s : State) (v : Word) : State :=
  if s.hostNested (s.fld F.hostifCmd_TIMEOUT_MS) (F.hostifDma_RETRIES.of v) then s.putRw Reg.hostifDma v
  else s.setF F.hostifStatus_CFG_ERR 1

/-- The completion timeout that an encoding gives: the largest of the table that keeps the pair, if its own does not. -/
def State.useCto (s : State) (e : Nat) : State :=
  let ok := fun u => pcieNested u (s.fld F.hostifDma_RETRIES) (s.fld F.hostifCmd_TIMEOUT_MS)
  if ok (ctoUs e) then s.setF F.hostifStatus_CTO_MS (ctoUs e / 1000)
  else
    let u := (([3500000, 900000, 200000, 50000, 10000] : List Nat).find? ok).getD 100
    (s.setF F.hostifStatus_CTO_MS (u / 1000)).setF F.hostifStatus_CFG_ERR 1

/-! ### The link (spec/15 R482, R483) -/

/-- RECOVERING follows the link and the reads that await a reissued completion. -/
def State.showRecovering (s : State) : State :=
  s.setF F.hostifStatus_RECOVERING (bit (s.host.recovery.isSome || !s.host.reads.isEmpty))

def State.pcieEvent (s : State) (kind us : Nat) : State := s.raise 0x0C04 16 [(0, 1, kind), (4, 4, us)]

/-! ### Domain reset 4 (spec/03 R96, R97; spec/15 R484) -/

def inHostif (a : Nat) : Bool := decide (0x100000 ≤ a) && decide (a < 0x110000)

/-- The host interface is reset; `link` says that the link itself stays up. What completes later of the host's short commands is dropped and
counted; final completions are kept, up to 64 (R484). (DEDUCED, log entry 21; DEDUCED, log entry 38) -/
def State.hostReset (s : State) (link : Bool) : State :=
  let st := s.reg Reg.hostifStatus &&& (F.hostifStatus_LINK_UP.mask ||| F.hostifStatus_WIDTH.mask ||| F.hostifStatus_SPEED.mask)
  let fin := s.host.keptFinal ++ s.host.waitCpl.filter (·.final)
  let lost := s.host.waitCpl.length + s.host.keptFinal.length - (fin.take 64).length
  let s := s.each (fin.drop 64) fun s k => s.handleGone k.record
  let s := (s.regsRestore inHostif).modHost fun h => { h with
    base := [], stopped := [], txq := [], lastSignal := [], sigDue := [], held := [], heldEntries := [], fetch := none,
    kickQueued := false, beatFetchOwed := none, kicksThisBeat := 0, pm := .d0, cto := 0, reads := [], readOk := [], readFail := [],
    recovery := none, ringsReset := true, waitCpl := [], keptFinal := fin.take 64
    parked := h.parked.map fun p => if p.cmd.user.isNone then { p with lost := true } else p }
  let s := (s.bump (F.hostifCnt_COUNT 6) lost).useCto 0
  if link then s.setReg Reg.hostifStatus (s.reg Reg.hostifStatus ||| st) else s

end Sys2Proof.Machine
end

