-- ==== Sys2Proof/Machine/HostRows.lean ====
section
/-!
DEFINITION. Sys2Proof/Machine/HostRows.lean: commands of the host interface (spec/15): the link, doorbell fetches, rings, packet
rings, completions and events that wait, the command timeout.
-/
namespace Sys2Proof.Machine
open Sys2Proof

/-! ### The link (spec/15 R459, R461, R482 to R484) -/

/-- PCIE_LINK_UP (spec/15 R486). -/
def execPcieLinkUp (width speed : Nat) (s : State) : Host.Outcome State Fault Refusal :=
  .next (if s.up && [1, 2, 4, 8].contains width && decide (1 ≤ speed) && decide (speed ≤ 5) then
      ((s.setF F.hostifStatus_LINK_UP 1).setF F.hostifStatus_WIDTH width).setF F.hostifStatus_SPEED speed
    else s)

/-- PCIE_LINK_RECOVERY (spec/15 R482, R483). (DEDUCED, log entry 38) -/
def execPcieLinkRecovery (entered : Bool) (s : State) : Host.Outcome State Fault Refusal :=
  .next (match entered, s.host.recovery with
    | true, none =>
      if s.up && s.flag F.hostifStatus_LINK_UP then
        let s := s.modHost fun h => { h with
          recovery := some s.time.tick
          parked := h.parked.map fun p => if p.lower = 0 then { p with lower := 1 } else p
          longOps := h.longOps.map fun o => if o.lower = 0 then { o with lower := 1 } else o }
        (s.showRecovering.bump (F.hostifCnt_COUNT 4)).pcieEvent 0 0
      else s
    | false, some t =>
      let s := s.modHost fun h => { h with
        recovery := none
        parked := h.parked.map fun p => if p.lower = 1 then { p with recovered := true } else p
        longOps := h.longOps.map fun o => if o.lower = 1 then { o with recovered := true } else o }
      s.showRecovering.pcieEvent 1 ((s.time.tick - t) / 1600)
    | _, _ => s)

/-- The host's command of tag `tag` that is parked. -/
def State.parkedTag (s : State) (tag : BitVec 32) : Option Parked :=
  s.host.parked.find? fun p => p.cmd.tag == tag && p.cmd.user.isNone

/-- The long operation of tag `tag` that is reading host memory: a profile, a list of records, a bundle. -/
def State.longTag (s : State) (tag : BitVec 32) : Option LongOp :=
  s.host.longOps.find? fun o => o.cmd.tag == tag && o.cmd.user.isNone && [0x0101, 0x0405, 0x0E01].contains o.op && o.state != .queued

/-- A reissued read completes: what it served has recovered (spec/15 R482). -/
def State.readRecovered (s : State) (w : ReadFor) : State :=
  match w with
  | .ring _ => s
  | .cmd tag =>
    match s.parkedTag tag, s.longTag tag with
    | some p, _ => s.modParked p.id fun p => { p with lower := 2, recovered := true }
    | none, some o => s.modLong o.handle fun o => { o with lower := 2, recovered := true }
    | none, none => s.modHost fun h => { h with readOk := tag :: h.readOk }

/-- HOST_READ_COMPLETION: a reissued read completes (spec/15 R482). -/
def execHostReadCompletion (readId : Nat) (s : State) : Host.Outcome State Fault Refusal :=
  .next (match Tab.find readId s.host.reads with
    | none => s
    | some r =>
      let s := ((s.modHost fun h => { h with reads := Tab.del readId h.reads }).showRecovering).bump (F.hostifCnt_COUNT 3)
      (s.pcieEvent 3 0).readRecovered r.what)

/-- PERST_N (spec/03 R97). -/
def execPerstN (s : State) : Host.Outcome State Fault Refusal := .next (if s.up then s.hostReset false else s)

/-- FUNCTION_LEVEL_RESET (spec/03 R97). -/
def execFunctionLevelReset (s : State) : Host.Outcome State Fault Refusal := .next (if s.up then s.hostReset true else s)

/-- DL_DOWN (spec/15 R483). -/
def execDlDown (s : State) : Host.Outcome State Fault Refusal := .next (if s.up then s.hostReset false else s)

/-- CTO_CONFIG_WRITE (spec/15 R461). -/
def execCtoConfigWrite (encoding : BitVec 4) (s : State) : Host.Outcome State Fault Refusal :=
  .next (if s.up then (s.modHost fun h => { h with cto := encoding }).useCto encoding.toNat else s)

/-! ### Doorbell fetches (spec/15 R463 to R465) -/

/-- DOORBELL_DATA: the data of the fetch outstanding; what comes for another, or after the deadline, is discarded. -/
def execDoorbellData (d : DoorbellData) (s : State) : Host.Outcome State Fault Refusal :=
  .next (match s.host.fetch with
    | none => s
    | some f =>
      if d.fetch ≠ f.seq then s
      else if f.due < s.time.tick then s.fetchLate
      else
      let s := s.modHost fun h => { h with fetch := none }
      let s := s.each (List.range 69) fun s r => s.ringIndex r (d.idx.getD r 0#32)
      let s := if f.kick then s else s.userCopy d.user
      s.nextFetch.showFetchNow)

/-- DOORBELL_DEADLINE (spec/01 R32, spec/15 R465): the tick of the outstanding fetch's deadline comes, where it lies in this beat. (DESIGN CHOICE, log entry 2) -/
def execDoorbellDeadline (s : State) : Host.Outcome State Fault Refusal :=
  .next (match s.host.fetch with
    | none => s
    | some f =>
      let t := s.reachTick f.due
      if f.due ≤ t.time.tick then t.fetchLate else s)

/-- KICK (spec/15 R465). -/
def execKick (s : State) : Host.Outcome State Fault Refusal := .next s.kicked

/-- FETCH_NOW (spec/15 R465, R487; spec/00 R16): a kick fetch; the bit reads 1 until that fetch has ended. -/
def execFetchNow (s : State) : Host.Outcome State Fault Refusal := .next s.fetchNow

/-- A write of the bit DMA_OFF: once it clears, what was kept back leaves: data, then entries, statuses of sent frames, completions
(spec/15 R487). (DEDUCED, log entry 38) -/
def State.dmaOffWrite (s : State) (on : Bool) : State :=
  let s := s.setF F.hostifEmerg_DMA_OFF (bit on)
  if on then s
  else
    let l := s.host.heldEntries
    let s := s.modHost fun h => { h with posts := h.held ++ h.posts, held := [], heldEntries := [] }
    let s := s.each l fun s e => s.writeEntry e.ring e.data e.irq
    let s := s.each (List.range 32) State.txPop
    (s.flushCpl s.host.waitCpl.length).nextFetch

/-- DMA_OFF. -/
def execDmaOff (on : Bool) (s : State) : Host.Outcome State Fault Refusal := .next (if s.up then s.dmaOffWrite on else s)

/-- TX_STOP (spec/15 R487). -/
def execTxStop (on : Bool) (s : State) : Host.Outcome State Fault Refusal :=
  .next (if s.up then s.setF F.hostifEmerg_TX_STOP (bit on) else s)

/-- RING_ENABLE (spec/15 R463). -/
def execRingEnable (ring : Fin 69) (value : BitVec 32) (s : State) : Host.Outcome State Fault Refusal :=
  .next (if s.up then s.ringCfgWrite ring.val value else s)

/-- RING_DISABLE (spec/15 R463, R489). -/
def execRingDisable (ring : Fin 69) (value : BitVec 32) (s : State) : Host.Outcome State Fault Refusal :=
  .next (if s.up then s.ringCfgWrite ring.val value else s)

/-! ### Packet rings (spec/15 R467, R468) -/

/-- Descriptors of TX ring `q` that the host has posted and the device has not fetched. -/
def State.txAvail (s : State) (q : Nat) : Nat :=
  (BitVec.ofNat 32 (s.hostIdx q) - BitVec.ofNat 32 (s.devIdx q)).toNat - ((Tab.get s.host.txq [] q).map (·.descs)).foldl (· + ·) 0

/-- Cells of the host's frame for E(q, c) are admitted while the queue is below its limit (spec/08 R254). -/
def State.admitHost (s : State) (q c : Nat) : Nat → State
  | 0 => s
  | n + 1 => if s.eligibleVoq 128 q c then (s.admitCell 128 q c).admitHost q c n else s

/-- A frame goes straight to E(q, c): it bypasses the pipeline; cells that the limit stops follow with the epochs (spec/15 R467, spec/08
R254, R263). (DEDUCED, log entry 38) -/
def State.txAdmit (s : State) (f : Frame) (q c : Nat) : State :=
  let id := s.fabric.nextFrame
  let s := s.frameIn { f with checked := true, decided := true, cls := c, refs := 1 }
  (s.modFabric fun z => { z with voq := z.voq ++ [{ frame := id, port := 128, q := q, cls := c, cells := f.cells }] }).admitHost q c f.cells

/-- A frame of TX ring `r` is not wholly in its egress queue: the ring does not advance (spec/15 R467). -/
def State.txHeld (s : State) (r : Nat) : Bool :=
  s.fabric.voq.any fun x => x.port == 128 && (s.frame x.frame).any fun f => f.txRing.any fun t => t.1 == r

/-- A descriptor that makes its frame a BAD_DESCRIPTOR. (DEDUCED, log entry 38) -/
def TxDesc.bad (d : TxDesc) : Bool :=
  decide (d.len.toNat < 1) || decide (16000 < d.len.toNat) || decide (16 ≤ d.flags.toNat) || decide (16 ≤ d.tc.toNat) || d.resv != 0

/-- The descriptors of the frame at the head of a list: up to the first one whose MORE is clear; none if the list ends before one. (DEDUCED, log entry 38) -/
def txFrame : List TxDesc → List TxDesc
  | [] => []
  | d :: l => if !d.flags.getLsbD 0 then [d] else if (txFrame l).isEmpty then [] else d :: txFrame l

/-- TX_DESCRIPTOR: `avail` are descriptors of the ring from the next one on, of which the frame takes those up to the first without MORE. The
first descriptor's FLAGS, TC and PORT speak for the frame; data shorter than the descriptors' lengths says that a read of it gave up. (DEDUCED, log entry 38) -/
def execTxDescriptor (q : Fin 32) (avail : List TxDesc) (data : List (BitVec 8)) (s : State) : Host.Outcome State Fault Refusal :=
  let r := q.val
  let descs := txFrame avail
  .next (match descs with
    | [] => s
    | d :: _ =>
      if !s.up || !s.ringOn r || s.flag F.hostifEmerg_TX_STOP || s.flag F.hostifEmerg_DMA_OFF || decide (s.txAvail r < descs.length) || s.txHeld r then s
      else
        let p := d.port.toNat
        let c := d.tc.toNat
        let i := 16 * p + c
        let total := (descs.map (·.len.toNat)).foldl (· + ·) 0
        let raw := data.take total
        let bytes := if d.flags.getLsbD 3 then raw else withFcs (raw ++ List.replicate (60 - raw.length) 0)
        let bad := decide (8 < descs.length) || descs.any TxDesc.bad
        let via := d.flags.getLsbD 2
        let direct := !via && !bad && s.portExists p && s.portUp p
        if direct && (decide (s.fld (F.eqLim_E_LIMIT i) ≤ s.fld (F.eqDepth_TOTAL i)) || s.heldBack p c || (s.partial' p c).isSome) then s
        else
          let l := Tab.get s.host.txq [] r
          let start := s.devIdx r + (l.map (·.descs)).foldl (· + ·) 0
          let f : Frame := { id := s.fabric.nextFrame, port := p, bytes := bytes, len := bytes.length, stamp := s.now,
                             beat := s.time.beatCount, gen := BitVec.ofNat 8 (s.fld (F.pipeGenStatus_ACTIVE (p / 32))), cfg := s.parserCfg (p / 32), flags := 0,
                             txRing := some (r, d.flags.getLsbD 1) }
          let s := s.modHost fun h => { h with
            txq := Tab.put h.txq [] r (l ++ [{ frame := f.id, start := start, descs := descs.length }]) }
          if bad then s.txDone f 2 none
          else if data.length < total then s.txDone f 3 none
          else if !s.portExists p || (!via && !s.portUp p) then s.txDone f 1 none
          else if s.maxFrame p < bytes.length then s.txDone f 2 none
          else if s.quiet then (s.countDiscarded 1).txDone f 4 none
          else if via then
              let (s, hit) := s.sample p
              s.frameIn { f with checked := true, sampled := hit, flags := BitVec.ofNat 16 (s.macFlags p { bytes := bytes } + 2 ^ 11 * bit s.inDip) }
          else s.txAdmit f p c)

/-- The buffers of an RX frame are filled and their descriptors written back, from the device index on (spec/15 R468): `n` buffers
of `size` bytes, for a frame's bytes from `off` on. -/
def State.rxFill (s : State) (r size : Nat) (x : RxItem) : Nat → Nat → State
  | 0, _ => s
  | n + 1, k =>
    let a := s.slotAddr r (s.devIdx r + k)
    let buf := (Config.hostRead s.freeCtr a).toNat
    let part := (x.bytes.drop (k * size)).take size
    let rec' := packLE 256 ([(0, 2, part.length), (2, 2, x.flags.toNat), (4, 1, x.port), (5, 1, x.cls), (6, 1, x.reason),
      (7, 1, bit (n != 0)), (20, 2, x.len), (22, 1, x.gen.toNat)] ++ Stamp.fields x.stamp 8)
    (((s.fresh.post (.frame buf part.length (bytesNat part) (s.flag F.hostifCfg_RO_EN))).post (.mem a 32 rec'.toNat)).rxFill r size x n
      (k + 1))

/-- RX_WRITEBACK: the oldest frame for the ring; not while DMA_OFF is set (spec/15 R487). -/
def execRxWriteback (q : Fin 32) (s : State) : Host.Outcome State Fault Refusal :=
  let r := 32 + q.val
  .next (match s.fabric.rxq.find? fun x => x.ring == q.val with
    | none => s
    | some x =>
      if s.flag F.hostifEmerg_DMA_OFF then s
      else
      let s := s.modFabric fun y => { y with rxq := y.rxq.erase x }
      let size := 256 * (s.fld (F.ringCfg_BUF_SIZE r) + 1)
      let n := max 1 ((x.bytes.length + size - 1) / size)
      let posted := (BitVec.ofNat 32 (s.hostIdx r) - BitVec.ofNat 32 (s.devIdx r)).toNat
      if !s.ringOn r || decide (posted < n) then s.bump (F.ringLoss_COUNT r)
      else ((s.rxFill r size x n 0).advance r n).signalSoon r)

/-! ### What waits for a ring (spec/15 R466, R471, R478) -/

/-- COMPLETION_WRITE. -/
def execCompletionWrite (s : State) : Host.Outcome State Fault Refusal := .next (s.flushCpl 1)

/-- EVENT_LOST. -/
def execEventLost (s : State) : Host.Outcome State Fault Refusal := .next s.reportLost

/-- MSIX_SIGNAL: the tick comes from which the ring may signal again, where it lies in this beat. (DESIGN CHOICE, log entry 2) -/
def execMsixSignal (ring : Fin 69) (s : State) : Host.Outcome State Fault Refusal :=
  .next (if Tab.get s.host.sigDue false ring.val then
      let t := s.reachTick (s.signalFrom ring.val)
      if s.signalFrom ring.val ≤ t.time.tick then t.signal ring.val else s
    else s)

/-! ### Commands (spec/15 R470, R474, R477; spec/00 R20) -/

/-- NOP. -/
def execNop (c : Cmd) (s : State) : Host.Outcome State Fault Refusal :=
  .next (s.start c 0x0C03 (c.ok 0) fun s => s.complete c 0x0C03 st.ok)

/-- The opcodes that are assigned. -/
def opcodes : List Nat :=
  [0x0101, 0x0102, 0x0103, 0x0104, 0x0201, 0x0202, 0x0203, 0x0204, 0x0205, 0x0301, 0x0302, 0x0303, 0x0304, 0x0401, 0x0402, 0x0403,
    0x0404, 0x0405, 0x0406, 0x0501, 0x0502, 0x0601, 0x0701, 0x0702, 0x0703, 0x0801, 0x0802, 0x0901, 0x0902, 0x0903, 0x0A01, 0x0A02,
    0x0B01, 0x0B02, 0x0C01, 0x0C02, 0x0C03, 0x0D01, 0x0E01, 0x0E02, 0x0E03, 0x0E04, 0x0E05, 0x0E06, 0x0E07, 0x0E08]

/-- UNASSIGNED_OPCODE (spec/00 R20): BAD_ARG, before anything else is looked at; a command whose opcode is assigned is another row of the
table. -/
def execUnassignedOpcode (c : Cmd) (opcode : BitVec 16) (s : State) : Host.Outcome State Fault Refusal :=
  .next (if opcodes.contains opcode.toNat || !s.takesCmd c opcode.toNat then s
    else if s.cmdHeld c opcode.toNat then s.cmdWaits c
    else (s.fetched c).complete c opcode.toNat st.badArg)

/-- What of the parked command `i` has not started is not started any more (spec/15 R474). -/
def State.dropWait (s : State) (i : Nat) : State :=
  let s := s.each (s.pipes.commits.filter (·.id = i)) fun s w =>
    s.each w.pipes fun s p => s.setF (F.pipeGenStatus_COMMIT_WAIT p) 0
  let s := { s with
    pipes := { s.pipes with commits := s.pipes.commits.filter (·.id ≠ i) }
    time := { s.time with writes := s.time.writes.filter (·.id ≠ i) } }
  let s := s.modHost fun h => { h with longOps := h.longOps.map fun o => if o.suspend = some i then { o with suspend := none } else o }
  let s := s.modRedund fun x => { x with swap := x.swap.filter (·.1 ≠ i) }
  let s := { s with ports := { s.ports with snap := s.ports.snap.filter (·.id ≠ i) } }
  let s := s.each (List.range 16) fun s k =>
    s.modEvout k fun x => { x with loads := x.loads.filter (·.1 ≠ i) }
  let s := s.each (List.range 16) fun s b =>
    match (s.bus b).xfers with
    | [] => s
    | x :: rest =>
      if x.id = i then if x.retryAt.isSome then (s.modBus b fun y => { y with xfers := rest }).busStart b else s
      else s.modBus b fun y => { y with xfers := x :: rest.filter (·.id ≠ i) }
  match s.power.trans with
  | some t =>
    if t.cmd = i ∧ t.phase ≠ .drain then
      { s with power := { s.power with trans := none } }.setF F.globalPwrState_BUSY 0
    else s
  | none => s

/-- CMD_TIMEOUT: the parked command `cmd` completes with TIMEOUT; LOWER_CAUSE names a lower mechanism that is recovering. (DESIGN CHOICE, log entry 2) -/
def execCmdTimeout (cmd : Nat) (s : State) : Host.Outcome State Fault Refusal :=
  .next (match s.parkedAt cmd with
    | none => s
    | some p =>
      let lower := if s.host.reads.any (fun r => r.2.what == .cmd p.cmd.tag) && p.cmd.user.isNone then 2
        else if p.lower ≠ 0 ∧ !p.recovered then p.lower else if s.host.recovery.isSome then 1 else 0
      ((s.dropWait cmd).bump (F.hostifCnt_COUNT 5)).endParked p st.timeout 0 (if p.partly then 4 else 0) lower)

end Sys2Proof.Machine
end

