-- ==== Sys2Proof/Machine/TimeRows.lean ====
section
/-!
DEFINITION. Sys2Proof/Machine/TimeRows.lean: the commands of device time (spec/09 R291, R292), counter writes at a boundary, and what a step
of an anchor carries with it (spec/01 R29, R551).
-/
namespace Sys2Proof.Machine
open Sys2Proof

/-- A write of TIMEBASE_SNAP_CTRL (spec/09 R291): with GO a latch is asked for. -/
def State.snapCtrlWrite (s : State) (src : WrSrc) (value : Word) : State :=
  s.byWriter src Reg.tbSnapCtrl value fun s =>
    let s := s.putRw Reg.tbSnapCtrl value
    if F.tbSnapCtrl_GO.of value = 0 then s else (s.setF F.tbSnapCtrl_GO 1).modTime fun x => { x with snap := true }

/-- SNAP_GO. -/
def execSnapGo (src : WrSrc) (value : BitVec 32) (s : State) : Host.Outcome State Fault Refusal :=
  .next (s.snapCtrlWrite src value)

/-- The operation is allowed by R288: of an anchor, SET before its first lock. -/
def State.cntAllowed (s : State) (k op : Nat) : Bool := if k < 4 then op == 0 && !s.locked k else true

/-- TCNT_WRITE (spec/09 R292). VALUE is 12 bytes: a timestamp, a signed offset, or an increment. -/
def execTcntWrite (c : Cmd) (s : State) : Host.Outcome State Fault Refusal :=
  let k := c.fld 0 1
  let op := c.fld 1 1
  let name := boundaryName (c.fld 4 6) (c.fld 10 4)
  let form := if op = 0 then decide (c.fld 22 4 < 1000000000) else if op = 1 then c.fld 24 4 == 0
    else c.fld 22 6 == 0 && decide (incrMin k ≤ c.fld 16 6) && decide (c.fld 16 6 ≤ incrMax k)
  .next (s.start c 0x0601 (c.ok 28 [(2, 2), (14, 2)] && decide (k < 32) && decide (op < 3) && form && s.nameOk (c.fld 10 4) name) fun s =>
    if !s.cntAllowed k op then s.complete c 0x0601 st.badState
    else if s.time.writes.any fun w => w.counter == k && s.boundNo w.name == s.boundNo name then s.complete c 0x0601 st.busy
    else
      let (s, id) := s.parkId c 0x0601
      let v := if op = 0 then stampAt c.payload 16 else if op = 1 then c.fld 16 8 else c.fld 16 6
      s.modTime fun x => { x with writes := x.writes ++ [{ id := id, counter := k, op := op, name := name, value := v }] })

/-- Beats are renumbered by a step of TCNT0 (spec/01 R29, R36, R41): the boundary carries the beat that contains the new value; frames
in the device carry STEP_SPAN (spec/08 R241), and the dips move with the time (spec/09 R313). -/
def State.tcnt0Stepped (s : State) (kind : Nat) : State :=
  let t := (s.cnt 0).stamp
  let s := (s.dipMove (s.stepOf 0)).modTime fun x => { x with idx := Stamp.sec t * 100000 + Stamp.ns t / 10000 }
  let s := s.showBeat.modFabric fun x => { x with frames := x.frames.map fun f => { f with stepSpan := true } }
  s.raise 0x0111 16 [(0, 1, 0xFF), (1, 1, kind), (4, 4, s.time.idx % 100000), (8, 6, s.time.idx / 100000)]

/-- One counter write at order 2: the state, and whether TCNT0 has stepped. `held` boundaries and DIP refuse it (spec/03 R106, spec/14
R446). -/
def State.cntWrite (s : State) (w : CntWrite) (refuse : Bool) : State × Bool :=
  if refuse || !s.cntAllowed w.counter w.op then (s.finish w.id st.badState, false)
  else
    let k := w.counter
    let old := s.cnt k
    let anchor := decide (k < 4)
    if w.op = 2 then ((((s.modCnt k fun c => { c with incr := BitVec.ofNat 48 w.value }).showIncr k).slotWritten k 2).finish w.id st.ok s.boundaryData, false)
    else if w.op = 1 then
      let v := (old.val : Int) + sgn 64 w.value * 2 ^ 28
      if v < 0 ∨ (counterRange : Int) ≤ v then (s.finish w.id st.badArg, false)
      else (((s.addVal k (sgn 64 w.value)).slotWritten k 1).finish w.id st.ok s.boundaryData, false)
    else
      let s := s.setVal k w.value
      if !anchor then ((s.slotWritten k 0).finish w.id st.ok s.boundaryData, false)
      else
        let d := ((w.value : Int) * 2 ^ 28 - old.val) / 2 ^ 28
        let s := s.recordStep k d 1
        let s := if k = 0 then s.tcnt0Stepped 1 else s
        ((s.evoutStep k).finish w.id st.ok s.boundaryData, k == 0)

/-- Names that a step of TCNT0 has skipped: dropped under STEP_SKIP (spec/09 R292, spec/01 R29). (DEDUCED, log entry 14) -/
def State.dropSkipped (s : State) : State :=
  s.each (s.time.writes.filter fun w => s.skippedName w.name) fun s w =>
    ((s.modTime fun x => { x with writes := x.writes.filter (· != w) }).finish w.id st.badState).late 8

end Sys2Proof.Machine
end

