-- ==== Sys2Proof/Machine/RefRows.lean ====
section
/-!
DEFINITION. Sys2Proof/Machine/RefRows.lean: the commands and events of references, DPLLs, synthesizers and clock outputs (spec/12), the
first-lock steps at order 2, REF_FORCE at a boundary, and the configuration of candidates at order 4.
-/
namespace Sys2Proof.Machine
open Sys2Proof

/-! ### Ranks (spec/12 R386) -/

/-- The timing pair writes the rank of the lane candidates of a port: a gated write of both cores (spec/14 R442). -/
def State.laneRank (s : State) (port rank : Nat) : State :=
  s.each (List.range 16) fun s c =>
    let w := s.regW (Reg.candCfg c)
    if (F.candCfg_TYPE c).of w = 2 ∧ s.portOf ((F.candCfg_LANE c).of w) = some port ∧ (F.candCfg_FORCE_QL c).of w = 0 then
      s.pairWrite (Reg.candCfg c) ((F.candCfg_RANK c).upd w rank)
    else s

/-- The timing pair serves its protocols. -/
def State.attended (s : State) : Bool := s.up && !s.flag F.redundStatus_UNATTENDED

/-- ESMC_RX (spec/12 R386). -/
def execEsmcRx (port : Fin 128) (rank : BitVec 8) (s : State) : Host.Outcome State Fault Refusal :=
  .next (if s.attended && s.portUp port then
      { s with refs := { s.refs with esmc := Tab.ins port (s.time.bounds + 1) s.refs.esmc } }.laneRank port rank.toNat
    else s)

/-- No ESMC PDU has come for 5 s: since the last one, or since the port entered its present state (spec/12 R386). (DESIGN CHOICE, log entry 2) -/
def State.esmcSilent (s : State) (n : Nat) : Bool :=
  match Tab.find n s.refs.esmc with
  | some b => decide (b + 500000 ≤ s.time.bounds + 1)
  | none => decide ((s.lane n).enterTick + 8000000000 ≤ s.time.tick)

/-- ESMC_TIMEOUT (spec/12 R386): QL-FAILED is rank 255. -/
def execEsmcTimeout (port : Fin 128) (s : State) : Host.Outcome State Fault Refusal :=
  .next (if s.attended && s.esmcSilent port then { s with refs := { s.refs with esmc := Tab.del port s.refs.esmc } }.laneRank port 255 else s)

/-! ### Quality levels that ports send (spec/12 R409) -/

/-- Quality level that a port sends, SSM code in bits 11:8 and enhanced one in 7:0: that of the DPLL its lane group follows, by the rank of its
candidate; QL-DNU where that candidate is the port's own recovered clock. (PRESUMED, log entry 64) -/
def State.portQl (s : State) (n : Nat) : BitVec 12 :=
  let d := s.fld (F.laneGrp_DPLL_SEL (n / 4))
  match s.selCand d with
  | some c =>
    if s.dpllState d = 3 then Config.qlHoldover
    else if s.candType c = 2 ∧ s.portOf (s.fld (F.candCfg_LANE c)) = some n then 0xFFF
    else Config.qlOf (BitVec.ofNat 8 (s.candRank c))
  | none => if s.dpllState d = 0 then Config.qlFreerun else Config.qlHoldover

/-- An ESMC PDU without its FCS, with its extended QL TLV. (PRESUMED, log entry 64) -/
def State.esmcFrame (s : State) (n : Nat) (event : Bool) (ql : BitVec 12) : List Byte :=
  let l := beBytes 6 0x0180C2000002 ++ beBytes 6 (s.station n) ++ beBytes 2 0x8809 ++ beBytes 4 0x0A0019A7 ++ beBytes 2 1 ++
    beBytes 4 (0x10000000 + bit event * 0x8000000) ++ beBytes 4 (0x01000400 + ql.toNat / 256) ++ beBytes 4 (0x02001400 + ql.toNat % 256) ++
    natBytes 8 Config.clockId.toNat ++ beBytes 3 Config.esmcExt.toNat
  l ++ List.replicate (60 - l.length) 0

/-- The timing pair sends an ESMC PDU at a port: a frame that its cores transmit (spec/12 R409, spec/14 R442). -/
def State.esmcSend (s : State) (n : Nat) (event : Bool) (ql : BitVec 12) : State :=
  let s : State := { s with refs := { s.refs with qlSent := Tab.ins n ql s.refs.qlSent } }
  s.pairSend n { bytes := s.esmcFrame n event ql }

/-- At a boundary: every second each ACTIVE port sends an ESMC PDU, and an event PDU where its quality level has changed (spec/12 R409). (PRESUMED, log entry 64) -/
def State.esmcBoundary (s : State) : State :=
  if !s.attended then s
  else s.each (s.ports'.filter s.portUp) fun s n =>
    let ql := s.portQl n
    match Tab.find n s.refs.qlSent with
    | some old => if old ≠ ql then s.esmcSend n true ql else if s.time.bounds % 100000 = 0 then s.esmcSend n false ql else s
    | none => if s.time.bounds % 100000 = 0 then s.esmcSend n false ql else s

/-! ### Holdover (spec/12 R395 to R398) -/

/-- HO_TTS_EXPIRE (spec/12 R397, R552): while the main domain is in reset the event waits for the report after BOOT_DONE. -/
def execHoTtsExpire (d : Fin 4) (s : State) : Host.Outcome State Fault Refusal :=
  .next (if s.dpllState d = 3 ∧ s.fld (F.dpllHoTts_TTS d) = 0 ∧ !s.flag (F.dpllStatus_HO_SPEC_EXCEEDED d) then
      let s := s.setF (F.dpllStatus_HO_SPEC_EXCEEDED d) 1
      if s.joinedBeat then s.holdEvent d 1 else s.modDpll d fun x => { x with stopSpec := true }
    else s)

/-- HOLDOVER_LEARN (spec/12 R398, R410). -/
def execHoldoverLearn (c : Cmd) (s : State) : Host.Outcome State Fault Refusal :=
  let n := c.fld 4 4
  .next (s.start c 0x0902 (c.ok 8 [(2, 2)] && decide (c.fld 0 1 < 4) && decide (c.fld 1 1 < 2) && decide (3600 ≤ n) &&
      decide (n ≤ 2592000)) fun s => s.startLong c 0x0902 (0x90200 + c.fld 0 1) n)

/-- HOLDOVER_LEARN_SAMPLE: the mean increment over the last 100 s of LOCKED beats, and their mean time (spec/12 R398). -/
def execHoldoverLearnSample (d : Fin 4) (s : State) : Host.Outcome State Fault Refusal :=
  .next (match s.host.longOps.find? fun o => o.op == 0x0902 && o.cmd.fld 0 1 == d.val && o.state == .running with
    | some o =>
      let l := (s.dpll d).hist.take 10000000
      if s.dpllState d ≠ 2 ∨ l.isEmpty then s
      else
        let t := l.foldl (fun a p => a + p.1) 0 / l.length
        let v := l.foldl (fun a p => a + p.2) 0 * 65536 / l.length
        s.modLong o.handle fun o => { o with args := o.args ++ [t, v], progress := o.progress + 100 }
    | none => s)

/-- The samples of a HOLDOVER_LEARN: boundary number and increment in 2^-60 ns. -/
def learnPoints : List Nat → List (Nat × Int)
  | t :: v :: l => (t, (v : Int)) :: learnPoints l
  | _ => []

/-- AGE of 10^-18 per second, and the residual RMS of 10^-15, of a fit (spec/12 R398, R410): the increment falls as OSC_IN rises. (DEDUCED, log entry 31) -/
def learnFit (l : List (Nat × Int)) : Int × Nat :=
  match lsq l with
  | none => (0, 0)
  | some (sxy, sxx) =>
    let m := l.length
    let y0 : Int := (l.map (·.2)).headD 0
    let sy := l.foldl (fun a p => a + (p.2 - y0)) 0
    let syy := l.foldl (fun a p => a + (p.2 - y0) * (p.2 - y0)) 0 * (m : Int) - sy * sy
    let unit := nominalIncr * 65536
    (roundDiv (-(sxy * (100000 * 10 ^ 18 : Nat))) (sxx * unit),
      Nat.sqrt ((syy * sxx - sxy * sxy).toNat * 10 ^ 30 / (sxx * (m * m) * (unit * unit))))

/-- A HOLDOVER_LEARN ends (spec/12 R398): AGE takes effect at the next boundary where APPLY is set. (DEDUCED, log entry 31) -/
def State.learnFinal (s : State) (o : LongOp) (fault : Bool) : State :=
  let l := learnPoints o.args
  if fault then s.endLong o.handle st.hwFault
  else if 2 * (l.length * 100) < o.total then s.endLong o.handle st.badState
  else
    let r := learnFit l
    let d := o.cmd.fld 0 1
    let a := twos 32 r.1
    let s := if o.cmd.fld 1 1 = 1 then s.wait (Reg.dpllAge d) (BitVec.ofNat 32 a) else s
    s.endLong o.handle st.ok (packLE 256 [(0, 4, a), (4, 4, r.2), (8, 4, l.length)])

/-- DPLL_HIST_RESET (spec/12 R410). (DEDUCED, log entry 31) -/
def execDpllHistReset (c : Cmd) (s : State) : Host.Outcome State Fault Refusal :=
  let d := c.fld 0 1
  .next (s.start c 0x0903 (c.ok 1 && decide (d < 4)) fun s =>
    if s.dpllState d = 3 then s.complete c 0x0903 st.badState
    else
      let s := (s.modDpll d fun x => { x with hist := [], histLen := 0, histSum := 0 }).setF (F.dpllStatus_HIST_VALID d) 0
      let s := (s.setReg (Reg.dpllHistIncrLo d) (RegMap.reset (Reg.dpllHistIncrLo d))).setReg (Reg.dpllHistIncrHi d)
        (RegMap.reset (Reg.dpllHistIncrHi d))
      s.complete c 0x0903 st.ok)

/-! ### Forced selection (spec/12 R385, R393, R410) -/

/-- REF_FORCE: it takes effect at the next boundary, or when a pull in progress is complete. (DEDUCED, log entry 32) -/
def execRefForce (c : Cmd) (s : State) : Host.Outcome State Fault Refusal :=
  let m := c.fld 1 1
  .next (s.start c 0x0901 (c.ok 3 && decide (c.fld 0 1 < 4) && decide (m < 3) && (m != 1 || decide (c.fld 2 1 < 16))) fun s =>
    if m = 1 ∧ !s.qualified (c.fld 0 1) (c.fld 2 1) then s.complete c 0x0901 st.badState else s.park c 0x0901)

/-- A REF_FORCE takes effect. The selection of automatic mode is decided at order 8 of this boundary, and the command completes when it
takes effect; a candidate that is not eligible is not selected (spec/12 R384, R385, R387). (DEDUCED, log entry 32) -/
def State.forceTake (s : State) (p : Parked) : State :=
  let d := p.cmd.fld 0 1
  let m := p.cmd.fld 1 1
  let cand := p.cmd.fld 2 1
  if s.dpllState d = 4 then s
  else if m = 1 ∧ !s.qualified d cand then s.finish p.id st.badState
  else
    let s := (s.setF (F.dpllStatus_FORCE d) m).modDpll d fun x => { x with
      next := none, nextCmd := false, byCmd := m = 0, forceCand := if m = 1 then cand else 0 }
    if m = 0 then s.modParked p.id fun x => { x with partly := true }
    else
      let s := if m = 2 then s.dpllSelect d none 0
        else if !s.flag (F.dpllCfg_EN d) then s
        else s.dpllSelect d (if s.eligible d cand || s.selCand d == some cand then some cand else none) 0
      s.finish p.id st.ok

def State.forceBoundary (s : State) : State := s.each (s.host.parked.filter fun p => p.op == 0x0901 && !p.partly) State.forceTake

/-! ### First lock (spec/12 R390, spec/01 R29) -/

/-- The first-lock step of anchor `d` at order 2. (DEDUCED, log entry 30) -/
def State.firstStep (s : State) (d : Nat) : State :=
  match (s.dpll d).step with
  | none => s
  | some v =>
    let s := s.modDpll d fun x => { x with step := none, firsts := [] }
    if s.locked d then s
    else
      let s := (((s.addVal d v).recordStep d v 0).setLocked d).phasesMove d v
      let s := if d = 0 then s.tcnt0Stepped 0 else s
      let s := (s.goDpll d (s.dpllState d) 10 (s.selCand d) true).evoutStep d
      s.each (s.clksOfAnchor d) State.clkAlign

/-! ### Configuration -/

/-- A write of word `w` to CFG, NOM or NOMF of a candidate (spec/12 R378, R379, R381): it takes effect at the next boundary. One that
leaves an enabled KIND 1 slot naming a candidate of another type than 3 is refused with CFG_ERR. (DEDUCED, log entry 9) -/
def State.candWrite (s : State) (src : WrSrc) (c word : Nat) (w : Word) : State :=
  let a := Reg.candCfg c + 4 * word
  s.byWriter src a w fun s =>
    if s.beaten src a then s
    else
    let new := (s.regW a &&& ~~~(rwMask a)) ||| (w &&& rwMask a)
    let named := (List.range 256).any fun k =>
      let x := s.regW (Reg.slotCfg k)
      (F.slotCfg_EN k).of x == 1 && (F.slotCfg_KIND k).of x == 1 && (F.slotCfg_TARGET k).of x == c
    if word = 0 ∧ (F.candCfg_TYPE c).of new ≠ 3 ∧ named then s.setF (F.candStatus_CFG_ERR c) 1
    else (s.wait a new).took src a

/-- CAND_CFG_WRITE. -/
def execCandCfgWrite (src : WrSrc) (cand : Fin 16) (word : Fin 3) (value : BitVec 32) (s : State) : Host.Outcome State Fault Refusal :=
  .next (s.candWrite src cand word value)

/-- Words CFG, NOM and NOMF of a candidate. -/
def State.candWords (s : State) (c : Nat) : List Word := [s.reg (Reg.candCfg c), s.reg (Reg.candNom c), s.reg (Reg.candNomf c)]

/-- The settings of a candidate whose change restarts it (spec/12 R381). -/
def candKey (c : Nat) (l : List Word) : List Nat :=
  [(F.candCfg_TYPE c).of (l.headD 0), (F.candCfg_EDGE c).of (l.headD 0), (F.candCfg_LANE c).of (l.headD 0), (l.getD 1 0).toNat,
    (l.getD 2 0).toNat]

/-- Order 4: an enabled candidate whose key has changed restarts, unless it cannot take its type (spec/12 R378), and DPLLs that had selected it
lose it (spec/12 R381). -/
def State.candConfig (s : State) (c : Nat) (old : List Word) : State :=
  if candKey c (s.candWords c) = candKey c old ∨ s.candState c = 0 then s
  else
    let s := s.when (s.candValid c) fun s => s.candStart c 0
    s.each (List.range 4) fun s d => if s.selCand d = some c then s.dpllSelect d none 2 else s

/-- The loop of DPLL `d` opens: SWRATE is loaded with its current increment (spec/12 R394). -/
def State.dpllOpened (s : State) (d : Nat) (cause : Nat := 7) : State :=
  let v := (s.cnt d).incr.toNat
  let s := (s.setReg (Reg.dpllSwrateLo d) (BitVec.ofNat 32 v)).setF (F.dpllSwrateHi_HI d) (v / 2 ^ 32)
  (s.modDpll d fun x => { x with sw := none }).goDpll d 5 cause (s.selCand d)

/-- The loop of DPLL `d` is open: with EN clear it is in FREERUN or HOLDOVER whatever OPEN says (spec/12 R389). -/
def State.dpllOpen (s : State) (d : Nat) : Bool := s.flag (F.dpllCfg_EN d) && s.flag (F.dpllCfg_OPEN d)

/-- A write of `REFCLK_DPLL[d]_CFG` (spec/12 R389, R394, R411): OPEN opens or closes the loop; EN clear ends the selection, EN set lets the DPLL
select. -/
def State.dpllCfgWrite (s : State) (src : WrSrc) (d : Nat) (w : Word) : State :=
  s.byWriter src (Reg.dpllCfg d) w fun s =>
    let was := s.dpllOpen d
    let wasEn := s.flag (F.dpllCfg_EN d)
    let old := s.selCand d
    let s := s.putRw (Reg.dpllCfg d) w
    let now := s.dpllOpen d
    let en := s.flag (F.dpllCfg_EN d)
    let s := if !en && old.isSome then (s.modDpll d fun x => { x with next := none }).dpllSelect d none 0
      else if en && !wasEn then s.modDpll d fun x => { x with byCmd := true }
      else s
    if now && !was then s.dpllOpened d (if wasEn then 7 else 0)
    else if was && !now then
      if !en then s.goDpll d (if (s.dpll d).selected then 3 else 0) 0 old
      else match old with
        | some c => s.dpllClose d 8 (some c)
        | none => s.goDpll d 3 8 none
    else s

/-- DPLL_OPEN. -/
def execDpllOpen (src : WrSrc) (d : Fin 4) (value : BitVec 32) (s : State) : Host.Outcome State Fault Refusal :=
  .next (s.dpllCfgWrite src d value)

/-- The writer may write SWRATE (spec/12 R394); the interlock itself is checked by `byWriter`. -/
def State.swWriter (s : State) (src : WrSrc) (d : Nat) : Bool :=
  match src with
  | .host => s.flag (F.dpllCfg_SW_SRC d)
  | .core c => !s.flag (F.dpllCfg_SW_SRC d) && decide (c.val < 2)

/-- A write of the low or the high word of SWRATE; the high word commits both (spec/12 R394). -/
def State.swrateWrite (s : State) (src : WrSrc) (d : Nat) (high : Bool) (w : Word) : State :=
  let a := if high then Reg.dpllSwrateHi d else Reg.dpllSwrateLo d
  s.byWriter src a w fun s =>
    if !s.swWriter src d then s
    else
      let s := s.putRw a w
      if high && s.dpllState d == 5 then
        let v := s.fld (F.dpllSwrateHi_HI d) * 2 ^ 32 + (s.reg (Reg.dpllSwrateLo d)).toNat
        s.modDpll d fun x => { x with sw := some v }
      else s

/-- SWRATE_COMMIT. -/
def execSwrateCommit (src : WrSrc) (d : Fin 4) (value : BitVec 32) (s : State) : Host.Outcome State Fault Refusal :=
  .next (s.swrateWrite src d true value)

/-! ### Synthesizers and outputs (spec/12 R399 to R404) -/

/-- SYN_GATE (spec/12 R400). -/
def execSynGate (y : Fin 2) (errPpb : Nat) (band : Fin 64) (s : State) : Host.Outcome State Fault Refusal :=
  .next (if s.up then s.synGate y errPpb band else s)

/-- Synthesizers that are enabled search for their band: at an enable, and when the main domain starts (spec/12 R400). -/
def State.synEnable (s : State) (y : Nat) (was : Bool) : State :=
  let now := s.flag (F.synCfg_EN y)
  if now && !was then s.synSearch y
  else if was && !now then
    let lock := s.flag (F.synStatus_LOCK y)
    (((s.setF (F.synStatus_LOCK y) 0).setF (F.synStatus_SEARCH y) 0).setF (F.synStatus_HELD y) 0).when lock fun s => s.synEvent y 0 0
  else s

/-- A write of `REFCLK_SYN[y]_CFG` (spec/12 R401). -/
def State.synCfgWrite (s : State) (src : WrSrc) (y : Nat) (w : Word) : State :=
  s.byWriter src (Reg.synCfg y) w fun s =>
    let was := s.flag (F.synCfg_EN y)
    let s := s.putRw (Reg.synCfg y) w
    (if (F.synCfg_UPD y).of w = 1 then s.synLoad y else s).synEnable y was

/-- SYN_UPD. -/
def execSynUpd (src : WrSrc) (y : Fin 2) (value : BitVec 32) (s : State) : Host.Outcome State Fault Refusal :=
  .next (s.synCfgWrite src y value)

/-- The fields EN, FORMAT, SYN and COMP of an output. -/
def State.clkForm (s : State) (k : Nat) : List Nat :=
  [s.fld (F.clkout_EN k), s.fld (F.clkout_FORMAT k), s.fld (F.clkout_SYN k), s.fld (F.clkout_COMP k)]


/-- A write of `REFCLK_CLKOUT[k]` (spec/12 R402, R403): its DIV waits for UPD; an output whose EN, FORMAT, SYN or COMP changes is held low, and
one that is enabled is aligned. -/
def State.clkoutWrite (s : State) (src : WrSrc) (k : Nat) (w : Word) : State :=
  s.byWriter src (Reg.clkout k) w fun s =>
    let old := s.clkForm k
    let was := s.flag (F.clkout_EN k)
    let s := s.putRw (Reg.clkout k) w
    let s := s.when (s.clkForm k != old) fun s => s.clkHold k
    if s.flag (F.clkout_EN k) && !was then s.clkAlign k else s

end Sys2Proof.Machine
end

