-- ==== Sys2Proof/Machine/Sec.lean ====
section
/-!
DEFINITION. Sys2Proof/Machine/Sec.lean: vault, tamper response, keys and fuses (spec/17 R533 to R544), the checks of images and bundles
(R519 to R526).
-/
namespace Sys2Proof.Machine
open Sys2Proof

def State.modSec (s : State) (f : SecSt → SecSt) : State := { s with sec := f s.sec }

/-! ### The vault (spec/17 R533 to R539) -/

def State.resp (s : State) (k : Nat) : Nat := s.fld (F.secTamperCfg_RESP k)
def State.latched (s : State) (k : Nat) : Bool := bitAt (s.fld F.secStatus_LATCHED) k

/-- VSEC is shown. -/
def State.showVsec (s : State) : State := s.setReg Reg.secVsec s.sec.vsec

/-- Seconds pass in the vault while the island is off: a free value. (DEDUCED, log entry 44) -/
def State.vaultTime (s : State) : State :=
  if s.power.aon then s
  else (s.fresh.modSec fun x => { x with vsec := x.vsec + Config.vaultSecs s.freeCtr }).showVsec

/-- Every key of the vault is erased (spec/17 R536, R537). (DEDUCED, log entry 44) -/
def State.eraseKeys (s : State) : State := (s.modSec fun x => { x with keys := [] }).setF F.secStatus_ERASED 1

/-- A log entry of source `k` (spec/17 R538). -/
def State.tamperEntry (s : State) (k resp : Nat) (detail : Word) : BitVec 256 :=
  packLE 256 ([(0, 1, k), (1, 1, resp), (2, 1, bit (resp == 3) + 2 * bit (!s.power.aon)), (4, 4, s.sec.vsec.toNat),
    (20, 4, s.sec.logSeq.toNat), (24, 4, detail.toNat)] ++ (if s.power.aon then Stamp.fields s.now 8 else []))

/-- The words of the log registers (spec/17 R543): entry 0 the oldest. -/
def State.logWord (s : State) (i : Nat) : Word := BitVec.ofNat 32 (byteField (s.sec.log.getD (i / 8) 0) (4 * (i % 8)) 4)

/-- TAMPER of an entry (spec/17 R541). -/
def State.tamperEvent (s : State) (e : BitVec 256) : State := s.raise 0x0E01 32 [(0, 32, e.toNat)]

/-- The response to a detection (spec/17 R536, R538): keys first, then the log entry. (DEDUCED, log entry 44) -/
def State.tamper (s : State) (k : Nat) (detail : Word) : State :=
  let resp := s.resp k
  let s := s.vaultTime
  if resp = 0 then s
  else
    let s := if resp = 3 then s.eraseKeys else s
    let e := s.tamperEntry k resp detail
    let s := s.modSec fun x => { x with
      logSeq := x.logSeq + 1, log := (x.log ++ [e]).drop (x.log.length - 15) }
    let s := s.setF F.secStatus_LATCHED (s.fld F.secStatus_LATCHED ||| 2 ^ k)
    if resp = 1 then s
    else if s.up then s.tamperEvent e
    else s.modSec fun x => { x with owed := x.owed ++ [e] }

/-- The condition of source `k` holds, as the detail of its detection shows (spec/17 R535, R538): a pin's level differs from EXPECT; a
temperature in 0.0625 °C lies outside -60 to 135 °C; a glitch needs VDD_AON. (DEDUCED, log entry 44) -/
def State.tamperCond (s : State) (k : Nat) (detail : Word) : Bool :=
  if k < 4 then bitAt detail.toNat k != s.flag (F.secTamperCfg_EXPECT k)
  else if k < 6 then s.power.aon
  else if k = 6 then decide (detail.toInt < -960) || decide (2160 < detail.toInt)
  else true

/-- A write of `SEC_TAMPER_CFG[k]` (spec/17 R539). -/
def State.tamperCfgWrite (s : State) (k : Nat) (v : Word) : State :=
  let ok := !s.flag F.secTamperLock_LOCK ||
    (decide (s.resp k ≤ (F.secTamperCfg_RESP k).of v) && s.fld (F.secTamperCfg_EXPECT k) == (F.secTamperCfg_EXPECT k).of v)
  if ok then s.putRw (Reg.secTamperCfg k) v else s.setF F.secStatus_CFG_ERR 1

/-- A write of `SEC_TAMPER_LOCK`: writing 0 has no effect (spec/17 R542). -/
def State.tamperLockWrite (s : State) (v : Word) : State :=
  if (F.secTamperLock_LOCK).of v = 1 then s.setF F.secTamperLock_LOCK 1 else s

/-- Class V state is lost (spec/02 R59, spec/17 R534): the vault's registers and content start at their reset values. -/
def State.vaultLoss (s : State) : State :=
  let s := { s with regs := s.regs.filter fun p => !(decide (0x400000 ≤ p.1) && decide (p.1 < 0x401000)) }
  s.modSec fun x => { x with keys := [], logSeq := 0, log := [], owed := [], vsec := 0, lostOwed := true }

/-- Some latched source has RESP 3. -/
def State.eraseLatched (s : State) : Bool := (List.range 8).any fun k => s.latched k && s.resp k == 3

/-! ### Images (spec/17 R519 to R521) -/

end Sys2Proof.Machine

namespace Sys2Proof
open Sys2Proof.Machine

/-- The component, as a number. -/
def Image.comp (i : Image) : Nat := i.component.toNat

/-- Fields out of range give BAD_ARG. -/
def Image.formOk (i : Image) : Bool :=
  i.magic == 0x4B53494D && i.hdrFormat == 1 && decide (i.comp < 10) && decide (1 ≤ i.bodyLen.toNat) && decide (i.bodyLen.toNat ≤ 12582912) &&
  decide (i.svn.toNat ≤ 64) && i.resvZero && decide (i.requires.length ≤ 8) && (i.comp == 0 || i.revoke == 0) &&
  (i.comp == 0 || i.comp == 7 || i.setFmt == 0) && (i.comp == 0 || i.setFrom == 0) &&
  (i.comp == 1 || (i.stateFmt == 0 && i.stateFrom == 0)) && !(i.comp == 0 && i.revoke.getLsbD i.keySlot.toNat)

end Sys2Proof

namespace Sys2Proof.Machine
open Sys2Proof

/-- Bytes `off` to `off + n - 1` of a list, as a little-endian number. -/
def fieldOf (b : List Byte) (off n : Nat) : Nat := bytesNat ((b.drop off).take n)

/-- The hash of a public key that a key slot's fuses hold (spec/17 R520, R540). -/
def State.keyHash (s : State) (slot : Nat) : BitVec 384 :=
  if slot < 4 then Config.fuseKeyHash slot else Tab.get s.sec.custHash 0 slot

/-- The image that plain bytes hold, a header of 512 bytes and the body, with the outcome of each check of R520 (spec/17 R519). (DEDUCED, log entry 35) -/
def State.imageRead (s : State) (b : List Byte) : Image :=
  let f := fieldOf b
  let key := f 144 97
  { magic := BitVec.ofNat 32 (f 0 4), hdrFormat := BitVec.ofNat 16 (f 4 2), component := BitVec.ofNat 8 (f 6 1),
    keySlot := BitVec.ofNat 8 (f 7 1), version := BitVec.ofNat 32 (f 8 4), svn := BitVec.ofNat 8 (f 12 1), revoke := BitVec.ofNat 8 (f 13 1),
    bodyLen := BitVec.ofNat 32 (f 16 4), setFmt := BitVec.ofNat 16 (f 20 2), setFrom := BitVec.ofNat 16 (f 22 2),
    stateFmt := BitVec.ofNat 16 (f 24 2), stateFrom := BitVec.ofNat 16 (f 26 2),
    requires := ((List.range 8).filter fun j => f (32 + 8 * j) 1 != 0xFF).map fun j =>
      (BitVec.ofNat 8 (f (32 + 8 * j) 1), BitVec.ofNat 32 (f (36 + 8 * j) 4)),
    resvZero := f 14 2 == 0 && f 28 4 == 0 && (List.range 8).all (fun j => f (33 + 8 * j) 3 == 0) && f 241 15 == 0 && f 352 160 == 0,
    keyOk := Config.sha384 ((b.drop 144).take 97) == s.keyHash (f 7 1),
    sigOk := Config.ecdsaP384 (BitVec.ofNat 776 key) (BitVec.ofNat 768 (f 256 96)) (Config.sha384 (b.take 256)),
    bodyOk := Config.sha384 ((b.drop 512).take (f 16 4)) == BitVec.ofNat 384 (f 96 48) }

/-- Two of some ranges (offset, length) have a byte in common. -/
def overlaps : List (Nat × Nat) → Bool
  | [] => false
  | r :: l => l.any (fun q => decide (r.1 < q.1 + q.2) && decide (q.1 < r.1 + r.2)) || overlaps l

/-- The entries of a KS0320-format bundle from byte `off` on: 16 bytes of associated data, an IV, a tag, the ciphertext; an entry whose tag
fails holds no image (spec/17 R522). -/
def State.legacyEntries (s : State) (b : List Byte) : Nat → Nat → List Image
  | 0, _ => []
  | n + 1, off =>
    let f := fieldOf b
    let len := f (off + 4) 4
    let plain := (Tab.find 64 s.sec.keys).bind fun k =>
      Config.gcmOpen k (BitVec.ofNat 128 (f off 16)) (BitVec.ofNat 96 (f (off + 16) 12)) (BitVec.ofNat 128 (f (off + 28) 16))
        ((b.drop (off + 44)).take len)
    { s.imageRead (plain.getD []) with tagOk := plain.isSome } :: s.legacyEntries b n (off + 44 + len)

/-- The bundle that the bytes at UPD_STAGE's address hold (spec/17 R522): what its operand stands for. (DEDUCED, log entry 35) -/
def State.bundleRead (s : State) (b : List Byte) : Bundle :=
  let f := fieldOf b
  let n := f 4 1
  if f 0 4 = 0x4B303332 then { legacy := true, magicOk := true, images := s.legacyEntries b n 64 }
  else
    let at' := (List.range n).map fun j => (f (64 + 16 * j + 4) 4, f (64 + 16 * j + 8) 4)
    { magicOk := f 0 4 == 0x4B534255, overlap := overlaps at' || at'.any fun r => r.1 % 4096 != 0 || decide (f 8 4 < r.1 + r.2),
      images := at'.map fun r => s.imageRead ((b.drop r.1).take r.2) }

/-- The boot flash (spec/17 R524): offset and bytes of directory copies 0 and 1, slots A and B, profile areas 0 and 1, and the user's part. -/
def flashMap : List (Nat × Nat) :=
  [(0x0000000, 0x10000), (0x0010000, 0x10000), (0x0020000, 0x1800000), (0x1820000, 0x1800000), (0x3020000, 0x400000),
    (0x3420000, 0x400000), (0x3820000, 0x7E0000)]

/-- The image is authentic. (DEDUCED, log entry 35) -/
def State.authentic (s : State) (i : Image) : Bool :=
  let k := i.keySlot.toNat
  let slot := if i.comp < 7 then decide (k < 4) && !bitAt (s.fld F.updKeys_REVOKED) k
    else decide (4 ≤ k) && decide (k ≤ 5) && bitAt (s.fld F.updKeys_CUST_PROG) (k - 4) && !bitAt (s.fld F.updKeys_CUST_REVOKED) (k - 4)
  slot && i.keyOk && i.sigOk && i.bodyOk

/-- The image of component `k` in a set. -/
def imageOf (l : List Image) (k : Nat) : Option Image := l.find? fun i => i.comp == k

/-- A set meets a requirement. -/
def meets (l : List Image) (r : BitVec 8 × BitVec 32) : Bool := (imageOf l r.1.toNat).any fun i => decide (r.2.toNat ≤ i.version.toNat)

/-- The image's version goes down. -/
def State.rollback (s : State) (i : Image) : Bool :=
  decide (i.svn.toNat < s.fld (F.updSvn_COUNT i.comp)) ||
  (imageOf s.sec.running i.comp).any fun r => decide (i.version.toNat < r.version.toNat)

/-- Status of one image of a bundle. -/
def State.imageStatus (s : State) (legacy : Bool) (i : Image) : Nat :=
  if legacy && !i.tagOk then st.authFail
  else if !i.formOk then st.badArg
  else if !s.authentic i then st.authFail
  else if s.rollback i then st.rollback
  else st.ok

/-! ### Bundles (spec/17 R522, R526) -/

/-- `j` can be reached from `i` along edges. (DEDUCED, log entry 45) -/
def reaches (es : List (Nat × Nat)) : Nat → Nat → Nat → Bool
  | 0, _, _ => false
  | n + 1, i, j => i == j || es.any fun e => e.1 == i && reaches es n e.2 j

/-- The set that staging a bundle makes: its images, and the active slot's for the others (spec/17 R525). (DEDUCED, log entry 45) -/
def State.stagedSet (s : State) (b : Bundle) : List Image :=
  b.images ++ s.sec.active.filter fun i => !(b.images.any fun j => j.comp == i.comp)

/-- Compatibility at staging (spec/17 R526). -/
def State.compatible (s : State) (b : Bundle) : Bool :=
  let set := s.stagedSet b
  let changed := b.images.filter fun i => !(s.sec.running.contains i)
  let es := (changed.map fun i => (i.requires.filter fun r => changed.any fun j => j.comp == r.1.toNat && j.comp != i.comp).map
    fun r => (i.comp, r.1.toNat)).flatten
  (set.all fun i => i.requires.all fun r => meets set r || meets s.sec.running r) &&
  !(es.any fun e => reaches es 10 e.2 e.1) &&
  (b.images.all fun i =>
    (i.comp != 0 || s.sec.profiles.all fun p => decide (i.setFrom.toNat ≤ p.format.toNat)) &&
    (i.comp != 1 || (imageOf s.sec.running 1).all fun r => decide (i.stateFrom.toNat ≤ r.stateFmt.toNat)))

/-- Status of a staging. -/
def State.bundleStatus (s : State) (b : Bundle) : Nat :=
  let ks := b.images.map Image.comp
  if !b.magicOk || b.overlap || decide (b.images.length < 1) || decide (10 < b.images.length) || decide (¬ ks.Nodup) then st.badArg
  else if b.legacy && (Tab.find 64 s.sec.keys).isNone then st.authFail
  else match (b.images.map (s.imageStatus b.legacy)).find? (· ≠ 0) with
    | some e => e
    | none => if s.compatible b then st.ok else st.version

/-- The inactive slot is marked empty. (DEDUCED, log entry 45) -/
def State.stageEmpty (s : State) : State :=
  let s := s.each (List.range 16) fun s k => s.setReg (Reg.updCompStaged k) 0
  (s.modSec fun x => { x with staged := [], bundle := 0, atReset := 0 }).setF F.updStatus_STAGE_VALID 0

/-- A staging has been written (spec/17 R525). -/
def State.stageDone (s : State) (b : Bundle) : State :=
  let set := s.stagedSet b
  let s := s.modSec fun x => { x with
    staged := set, bundle := BitVec.ofNat 16 (idxMask (b.images.map Image.comp)), stageSeq := x.stageSeq + 1 }
  let s := s.each set fun s i => s.setReg (Reg.updCompStaged i.comp) i.version
  s.setF F.updStatus_STAGE_VALID 1

/-! ### In service (spec/17 R527 to R531) -/

/-- Component `k` runs image `i`. -/
def State.runImage (s : State) (i : Image) : State :=
  (s.modSec fun x => { x with running := i :: x.running.filter fun j => j.comp != i.comp }).setReg (Reg.updCompRun i.comp) i.version

/-- Component `k` is installed and not committed. -/
def State.markInstalled (s : State) (k : Nat) : State := s.setF F.updStatus_INSTALLED (s.fld F.updStatus_INSTALLED ||| 2 ^ k)

/-- The first start of CORE5 on a SEC image migrates profiles of an older format (spec/17 R531). -/
def State.migrate (s : State) : State :=
  match imageOf s.sec.running 0, s.sec.profiles with
  | some i, p :: _ =>
    if p.format.toNat < i.setFmt.toNat ∧ s.sec.migrated.isEmpty then
      let s := s.modSec fun x => { x with migrated := x.profiles.map fun p => { p with format := i.setFmt } }
      (s.setF F.updStatus_MIG_PENDING 1).raise 0x0E03 16
        [(0, 2, p.format.toNat), (2, 2, i.setFmt.toNat), (4, 1, s.sec.profiles.length)]
    else s
  | _, _ => s

/-- UPD_COMMIT acts (spec/17 R529): fuses, directory, then the erase of the superseded profile area begins; its status. -/
def State.commitRun (s : State) (force : Bool) : State × Nat :=
  let open' := s.sec.staged.any fun i => !(s.sec.running.contains i) && !bitAt (s.fld F.updStatus_INSTALLED) i.comp
  if !s.flag F.updStatus_STAGE_VALID || (!force && open') then (s, st.badState)
  else
    let s := s.each s.sec.staged fun s i =>
      let s := s.setF (F.updSvn_COUNT i.comp) (max (s.fld (F.updSvn_COUNT i.comp)) i.svn.toNat)
      if i.comp = 0 then s.setF F.updKeys_REVOKED (s.fld F.updKeys_REVOKED ||| i.revoke.toNat % 16) else s
    let slot := if s.fld F.globalBoot_STAGE = 15 then false else !s.sec.slotB
    let mig := s.flag F.updStatus_MIG_PENDING && !s.sec.migrated.isEmpty
    let set := s.sec.staged
    let s := s.modSec fun x => { x with
      active := set, slotB := slot, dirSeq := x.dirSeq + 1, area := if mig then !x.area else x.area,
      profiles := if mig then x.migrated else x.profiles, migrated := if mig then [] else x.migrated, erasing := x.erasing || mig }
    (((s.stageEmpty).setF F.updStatus_INSTALLED 0).setF F.updStatus_SLOT (bit slot), st.ok)

/-- FUSE_CUST acts (spec/17 R540); its status. -/
def State.fuseRun (s : State) (slot action : Nat) (hash : BitVec 384) : State × Nat :=
  let k := slot - 4
  let prog := bitAt (s.fld F.updKeys_CUST_PROG) k
  if (action = 0 ∧ prog) ∨ (action = 1 ∧ !prog) then (s, st.badState)
  else if action = 0 then
    ((s.setF F.updKeys_CUST_PROG (s.fld F.updKeys_CUST_PROG ||| 2 ^ k)).modSec fun x => { x with
      custHash := Tab.ins slot hash x.custHash }, st.ok)
  else (s.setF F.updKeys_CUST_REVOKED (s.fld F.updKeys_CUST_REVOKED ||| 2 ^ k), st.ok)

/-- UPD_DISCARD acts: not while a staging runs (spec/17 R540); its status. -/
def State.discardRun (s : State) : State × Nat :=
  if s.fld F.updStatus_INSTALLED ≠ 0 || s.host.longOps.any fun o => o.op == 0x0E01 then (s, st.badState) else (s.stageEmpty, st.ok)

/-- What a command that writes fuses or flash does, after the dip that held it where there was one (spec/03 R106, spec/17 R540). -/
def State.fuseCmd (s : State) (c : Cmd) (op : Nat) : State × Nat :=
  if op = 0x0E03 then s.commitRun (c.fld 0 1 = 1)
  else if op = 0x0E04 then s.discardRun
  else s.fuseRun (c.fld 0 1) (c.fld 1 1) (BitVec.ofNat 384 (c.fld 8 48))

/-- DIP ends: the commands on fuses and flash that it held act, in order (spec/03 R106). -/
def State.fuseResume (s : State) : State :=
  s.each (s.host.parked.filter fun p => p.op == 0x0E03 || p.op == 0x0E04 || p.op == 0x0E08) fun s p =>
    let r := s.fuseCmd p.cmd p.op
    r.1.finish p.id r.2

end Sys2Proof.Machine
end

