-- ==== Sys2Proof/Machine/Power.lean ====
section
/-!
DEFINITION. Sys2Proof/Machine/Power.lean: the operations of power and reset (spec/02 R58 to R76, spec/03 R80 to R111): what a main
reset and an island reset leave, the dip, the system watchdog, the outputs ALARM_N and THERMTRIP_N.
-/
namespace Sys2Proof.Machine
open Sys2Proof

def State.modPower (s : State) (f : PowerSt → PowerSt) : State := { s with power := f s.power }

/-- The main rails are up, and with them VDD_IO and the signals it supplies (spec/02 R55, R60): after MAIN_POR, and in STANDBY with the rails
left on. -/
def State.mainPower (s : State) : Bool :=
  s.power.aon && s.power.mainPwrEn && (s.up || s.power.armed || s.power.pstate == .standby)

/-- Output ALARM_N, of VDD_IO (spec/02 R55), is asserted: recovery, a bad profile (spec/03 R82, R88), a long dip (R108), a disputed pair
(spec/12 R387), the faults of the timing pair (spec/14 R445, R448), a latched tamper source of response ALARM or ERASE (spec/17 R536). -/
def State.alarm (s : State) : Bool :=
  s.mainPower && (s.power.alarmBoot || s.power.alarmDip || !s.refs.disputes.isEmpty || s.fld F.redundHb_FAULTED != 0 ||
    s.flag F.redundStatus_ARB_FAULT || s.flag F.redundStatus_UNATTENDED ||
    (List.range 8).any fun k => s.latched k && decide (2 ≤ s.resp k))

/-! ### Main resets (spec/03 R91 to R95, R113) -/

/-- GLOBAL_DIP_STATUS shows the dip. -/
def State.showDip (s : State) : State :=
  match s.power.dip with
  | some d => (s.setF F.globalDipStatus_ACTIVE 1).setF F.globalDipStatus_RAILS d.below.toNat
  | none => (s.setF F.globalDipStatus_ACTIVE 0).setF F.globalDipStatus_RAILS 0

/-- What the island keeps of device time: TCNT0 and the beat generator (spec/01 R42). (DEDUCED, log entry 17) -/
def TimeSt.island (x : TimeSt) : TimeSt :=
  { tick := x.tick, beatTicks := x.beatTicks, beatLen := x.beatLen, idx := x.idx, bounds := x.bounds,
    cnt := x.cnt.headD {} :: List.replicate 31 {}, stepTick := x.stepTick.filter fun p => p.1 == 0 }

/-- What vault, fuses and boot flash keep (spec/17 R524, R533). (DEDUCED, log entry 17) -/
def SecSt.kept (x : SecSt) : SecSt :=
  { x with running := [], staged := [], stage := [], bundle := 0, atReset := 0 }

/-- The main domain goes into reset and loses its state; the island runs on, DPLL0 in holdover (spec/01 R42, R43; spec/03 R92, R113). (DEDUCED, log entry 16; DEDUCED, log entry 17) -/
def State.mainStop (s : State) : State :=
  let s := (s.dpllStop 0).regsReset fun _ => true
  let s : State := {
    regs := s.regs, rdata := s.rdata, line := s.line, freeCtr := s.freeCtr, pending := s.pending
    host := { posts := s.host.posts }
    time := s.time.island
    refs := { dpll := s.refs.dpll.filter fun p => p.1 == 0 }
    meas := { evout := s.meas.evout.filter fun p => p.1 == 0 }
    sec := s.sec.kept
    power := { s.power with
      mainReset := true, joined := false, active := {}, mainSet := [], applyProf := [], profGens := []
      alarmBoot := false, softPending := false, pstate := .normal
      keep := 0, wake := none, railsOff := false, wakePassed := false, trans := none, kick := none } }
  (s.showDip.showIncr 0).showBeat

/-- Bit of GLOBAL_RESET_CAUSE that cause `n` of LAST sets (spec/03 R95). -/
def causeBit (n : Nat) : Nat := ([11, 4, 5, 6, 7, 8, 9, 10] : List Nat).getD (n - 1) 11

/-- A cause is recorded. -/
def State.showCause (s : State) (n : Nat) : State := (s.setF ⟨Reg.globalResetCause, causeBit n, 1⟩ 1).setF F.globalResetCause_LAST n

/-- A main reset of cause `n`; `arm` says that its release is due: one that finds the main domain running always is. (DEDUCED, log entry 16) -/
def State.mainReset (s : State) (n : Nat) (arm : Bool) : State :=
  let on := arm || s.power.armed || !s.power.mainReset
  ((s.showCause n).mainStop).modPower fun x => { x with armed := on }

/-- The device leaves STANDBY (spec/03 R103). (DEDUCED, log entry 16) -/
def State.standbyExit (s : State) : State := (s.mainReset 8 true).modPower fun x => { x with mainPwrEn := true }

/-! ### The island (spec/03 R80, R81, R113) -/

/-- Class V and class F bits of a register. -/
def RegHit.maskVault (h : RegHit) : Word := BitVec.ofNat 32 h.maskKept &&& ~~~(BitVec.ofNat 32 h.maskA)

/-- VDD_AON goes or comes: only vault, fuses, flash, and what has left the device, keep their state. -/
def State.islandStop (s : State) : State :=
  let t : State := {
    rdata := s.rdata, line := s.line, freeCtr := s.freeCtr, pending := s.pending
    host := { posts := s.host.posts }
    sec := s.sec.kept }
  t.each s.regs fun t p =>
    match RegMap.find p.1 with
    | none => t
    | some h => t.setReg p.1 ((p.2 &&& h.maskVault) ||| (RegMap.reset p.1 &&& ~~~h.maskVault))

/-! ### Supply dips (spec/03 R106 to R111) -/

/-- Reset threshold of a rail in mV. -/
def railReset (k : Nat) : Nat := ([675, 720, 765, 1080, 810, 1620, 990, 1620, 1620] : List Nat).getD k 1620

/-- The lowest samples of a dip, with new ones of rails that are in it. -/
def Dip.sampled (d : Dip) (l : List RailLow) : Dip :=
  { d with lows := (l.filter fun r => d.rails.getLsbD r.rail.val).foldl (fun t r =>
      Tab.ins r.rail.val (min r.mv.toNat (Tab.get t 65535 r.rail.val)) t) d.lows }

/-- A dip in which the rails `m` are below warning now: those not in it before join it (R106, R110). -/
def Dip.now (d : Dip) (m : BitVec 9) : Dip := { d with rails := d.rails ||| m, below := m }

/-- The worst rail of a dip and its lowest sample: closest to its reset threshold, as a fraction of it. -/
def Dip.worst (d : Dip) : Option (Nat × Nat) :=
  d.lows.foldl (fun b r => match b with
    | none => some r
    | some w => if r.2 * railReset w.1 < w.2 * railReset r.1 then some r else some w) none

/-- A DIP interrupt at every core (spec/16 R496). -/
def State.dipInts (s : State) : State := s.each (List.range 8) fun s c => s.raiseInt c 0

/-- The device enters DIP; in a dip, `rails` are the rails that are below warning now. -/
def State.dipBegin (s : State) (rails : BitVec 9) : State :=
  match s.power.dip with
  | some d => (s.modPower fun x => { x with dip := some (d.now rails) }).showDip
  | none =>
    let s := s.dogMark.modPower fun x => { x with
      dip := some { rails := rails, below := rails, lows := [], start := s.now, since := s.now, startTick := s.time.tick }, dipBeat := true }
    let s := (s.bump F.globalDipStatus_COUNT).showDip
    if !s.up then s
    else ((s.calDip.fmDip).dipInts).raise 0x0120 16 ((0, 2, rails.toNat) :: Stamp.fields s.now 4)

/-- The device leaves DIP. -/
def State.dipEnd (s : State) (d : Dip) (w : Nat × Nat) : State :=
  let s := (s.dogMark.modPower fun x => { x with dip := none, lastDip := some (d.since, s.now), alarmDip := false }).showDip
  if !s.up then s
  else
    let s := { s with servo := { s.servo with slot := s.servo.slot.map fun (p : Nat × SlotSt) => (p.1, { p.2 with samples := [] }) } }
    let s := s.dipInts.raise 0x0121 32 ([(0, 2, d.rails.toNat), (2, 1, w.1), (4, 2, w.2),
      (20, 4, sat (2 ^ 32 - 1) ((s.time.tick - d.startTick) * 5 / 8)), (24, 4, d.beats)] ++ Stamp.fields d.start 8)
    s.fuseResume

/-- MAX_MS in force. -/
def State.dipMax (s : State) : Nat := max 1 (min 10000 (s.fld F.globalDipCtrl_MAX_MS))

/-! ### The system watchdog (spec/03 R98, R99) -/


/-- A kick of the watchdog from this source is accepted. (DEDUCED, log entry 22) -/
def State.wdtSource (s : State) (src : WrSrc) : Bool :=
  match src with
  | .host => s.flag F.globalWdtCtrl_SRC_HOST
  | .core c => c.val == 4 && s.flag F.globalWdtCtrl_SRC_CORE4

/-- A write of GLOBAL_WDT_KICK. (DEDUCED, log entry 22) -/
def State.wdtKickWrite (s : State) (src : WrSrc) (v : Word) : State :=
  let key := F.globalWdtKick_KEY.of v
  if key = 0xA5C3 then s.modPower fun x => { x with kick := some (src, s.time.tick) }
  else
    let ok := s.power.kick.any fun k => key == 0x5A3C && k.1 == src && s.wdtSource src && decide (s.time.tick ≤ k.2 + 1600000)
    s.modPower fun x => { x with
      kick := none, wdtTick := if ok then s.time.tick else x.wdtTick, dog := if ok then ⟨0, s.time.tick⟩ else x.dog }

/-- A system watchdog of `EN` and `TIMEOUT_MS` is longer than every core watchdog that is enabled. -/
def State.wdtOver (s : State) (en : Bool) (ms : Nat) : Bool :=
  (List.range 8).all fun c => wdtNested (s.flag (F.coreWdt_EN c)) (s.fld (F.coreWdt_TIMEOUT_MS c)) en ms

/-- A write of GLOBAL_WDT_CTRL: refused with CFG_ERR where it breaks the nesting. -/
def State.wdtCtrlWrite (s : State) (v : Word) : State :=
  if s.wdtOver (F.globalWdtCtrl_EN.of v == 1) (F.globalWdtCtrl_TIMEOUT_MS.of v) then
    let start := !s.flag F.globalWdtCtrl_EN && F.globalWdtCtrl_EN.of v == 1
    let s := (s.putRw Reg.globalWdtCtrl v).putW1c Reg.globalWdtCtrl v
    if start then s.modPower fun x => { x with wdtTick := s.time.tick, dog := ⟨0, s.time.tick⟩ } else s
  else s.setF F.globalWdtCtrl_CFG_ERR 1

/-- A write of GLOBAL_RESET_CTRL: CHIP with the key asks for a soft reset at the next boundary (spec/03 R94). -/
def State.resetCtrlWrite (s : State) (v : Word) : State :=
  if F.globalResetCtrl_CHIP.of v = 1 ∧ F.globalResetCtrl_KEY.of v = 0xC4A7 then
    (s.setF F.globalResetCtrl_CHIP 1).modPower fun x => { x with softPending := true }
  else s

end Sys2Proof.Machine
end

