-- ==== Sys2Proof/Machine/ProfGen.lean ====
section
/-!
DEFINITION. Sys2Proof/Machine/ProfGen.lean: the generations that a profile holds (spec/03 R90; spec/06 R199, R208; spec/07 R235): what they differ in
from ACTIVE, their writing into PENDING, their commits, and their loading as generation 0.
-/
namespace Sys2Proof.Machine
open Sys2Proof

/-- The entry of a TCAM record of a profile, in no view. -/
def profTcam (w : BitVec 1408) : TcamEntry := { tcamOfWords w.toNat with view := 0 }

/-- The pattern of a record of a profile, in no view. -/
def profPat (w : BitVec 1408) : PatEntry := { patOfWords w.toNat with view := 0 }

/-- The static MAC entry of a record of a profile, in no view. -/
def profMac (w : BitVec 192) : MacEntry := { macOfWords ⟨w, 0⟩ with view := 0 }

/-- What a static entry says: key and destination. -/
def MacEntry.says (e : MacEntry) : BitVec 14 × BitVec 48 × Bool × BitVec 14 := (e.bd, e.mac, e.mc, e.dest)

/-- Records of a profile for one table: index and words. -/
def profRecs (g : ProfGen) (t : Nat) : List (Nat × BitVec 192) := (g.recs.filter fun r => r.1.val == t).map (·.2)

/-- The profile holds TCAM entry `e`. -/
def profHasTcam (g : ProfGen) (e : TcamEntry) : Bool := g.tcam.any fun r => profTcam r.2 == { e with view := 0, hits := 0 }

/-- The profile holds pattern `e`. -/
def profHasPat (g : ProfGen) (e : PatEntry) : Bool := g.pats.any fun r => profPat r.2 == { e with view := 0 }

/-- The profile holds static MAC entry `e`. -/
def profHasMac (g : ProfGen) (e : MacEntry) : Bool := (profRecs g 2).any fun r => (profMac r.2).says == e.says

/-- The profile holds record `r` of table `t` in slot `k`. -/
def profHasRec (g : ProfGen) (t k : Nat) (r : Rec) : Bool :=
  (profRecs g t).any fun x => x.2 == r.words && (t == 1 || (genSlots t x.1).contains k)

/-- PENDING takes over of ACTIVE what `keep` names, and nothing else. -/
def pendOnly (v : BitVec 3) (keep : Bool) : BitVec 3 := if keep && inView v 1 then v ||| 1 else v &&& 6

/-- PENDING of a pipeline cut down to what ACTIVE and the profile have in common; learned MAC entries stay. A MAC entry that goes arms
MAC_TABLE_FULL again (spec/07 R226). -/
def PipeSt.common (x : PipeSt) (g : ProfGen) : PipeSt :=
  let r := fun t (l : Tab Rec) => (l.map fun e => (e.1, { e.2 with view := pendOnly e.2.view (profHasRec g t e.1 e.2) })).filter fun e => e.2.view ≠ 0
  { x with
    parser := { x.parser with
      tcam := (x.parser.tcam.map fun e => (e.1, { e.2 with view := pendOnly e.2.view (profHasTcam g e.2) })).filter fun e => e.2.view ≠ 0
      pats := (x.parser.pats.map fun e => (e.1, { e.2 with view := pendOnly e.2.view (profHasPat g e.2) })).filter fun e => e.2.view ≠ 0
      defPend := g.defAct, progPend := g.prog }
    fwd := { x.fwd with
      em := r 0 x.fwd.em, lpm := r 1 x.fwd.lpm, grp := r 3 x.fwd.grp, rep := r 4 x.fwd.rep, nh := r 5 x.fwd.nh
      fullRaised := x.fwd.fullRaised && x.fwd.mac.all fun e => e.2.view == 0 || pendOnly e.2.view (profHasMac g e.2) != 0
      mac := (x.fwd.mac.map fun e => if e.2.view = 0 then (e.1, e.2, true)
          else (e.1, { e.2 with view := pendOnly e.2.view (profHasMac g e.2) }, pendOnly e.2.view (profHasMac g e.2) ≠ 0)).filterMap fun e =>
        if e.2.2 then some (e.1, e.2.1) else none } }

/-- The entry's own index where it is free, else the lowest free one. (DESIGN CHOICE, log entry 36) -/
def freeAt {α : Type} (t : Tab α) (n i : Nat) : Option Nat := (i :: List.range n).find? fun k => (Tab.find k t).isNone

/-- A TCAM entry joins PENDING, unless it stands there; whether no entry was free. -/
def State.genTcam (s : State) (p : Nat) (r : Fin 8192 × BitVec 1408) : State × Bool :=
  let t := (s.pipe p).parser.tcam
  let e := profTcam r.2
  if t.any fun x => inView x.2.view 0 && { x.2 with view := 0, hits := 0 } == e then (s, false)
  else match freeAt t 8192 r.1.val with
    | some i => (s.modParser p fun x => { x with tcam := Tab.ins i { e with view := 1 } x.tcam }, false)
    | none => (s, true)

/-- A pattern joins PENDING, unless it stands there; whether no entry was free. -/
def State.genPat (s : State) (p : Nat) (r : Fin 2048 × BitVec 1408) : State × Bool :=
  let t := (s.pipe p).parser.pats
  let e := profPat r.2
  if t.any fun x => inView x.2.view 0 && { x.2 with view := 0 } == e then (s, false)
  else match freeAt t 2048 r.1.val with
    | some i => (s.modParser p fun x => { x with pats := Tab.ins i { e with view := 1 } x.pats }, false)
    | none => (s, true)

/-- Record `w` of table `t` and index `i` stands in view `v`. -/
def FwdSt.holds (x : FwdSt) (v t i : Nat) (w : BitVec 192) : Bool :=
  if t = 2 then x.mac.any fun e => inView e.2.view v && e.2.says == (profMac w).says
  else if t = 1 then x.lpm.any fun e => inView e.2.view v && e.2.words == w
  else (genSlots t i).any fun k => (Tab.find k (genTab x t)).any fun r => inView r.view v && r.words == w

/-- A record of a forwarding table joins PENDING, unless it stands there; whether the window would refuse it (spec/07 R239). -/
def State.genRec (s : State) (p : Nat) (r : Fin 6 × Nat × BitVec 192) : State × Bool :=
  if (s.pipe p).fwd.holds 0 r.1.val r.2.1 r.2.2 then (s, false)
  else let x := s.twinWrite p r.1.val r.2.1 r.2.2; (x.1, x.2 != 0)

/-- PENDING of a pipeline becomes what the profile holds for it; whether something found no room. (DESIGN CHOICE, log entry 36) -/
def State.genWrite (s : State) (p : Nat) (g : ProfGen) : State × Bool :=
  let s := ((s.modPipe p fun x => x.common g).showLpm p).showMac p
  let a := g.tcam.foldl (fun a r => let b := a.1.genTcam p r; (b.1, a.2 || b.2)) (s, false)
  let a := g.pats.foldl (fun a r => let b := a.1.genPat p r; (b.1, a.2 || b.2)) a
  g.recs.foldl (fun a r => let b := a.1.genRec p r; (b.1, a.2 || b.2)) a

/-- What a profile holds for a pipeline differs from its ACTIVE generation. -/
def State.genDiffers (s : State) (p : Nat) (g : ProfGen) : Bool :=
  let x := s.pipe p
  let old := fun t (l : Tab Rec) => l.any fun e => inView e.2.view 1 && !profHasRec g t e.1 e.2
  x.parser.progAct != g.prog || x.parser.defAct != g.defAct ||
    (x.parser.tcam.any fun e => inView e.2.view 1 && !profHasTcam g e.2) ||
    (g.tcam.any fun r => !x.parser.tcam.any fun e => inView e.2.view 1 && { e.2 with view := 0, hits := 0 } == profTcam r.2) ||
    (x.parser.pats.any fun e => inView e.2.view 1 && !profHasPat g e.2) ||
    (g.pats.any fun r => !x.parser.pats.any fun e => inView e.2.view 1 && { e.2 with view := 0 } == profPat r.2) ||
    (x.fwd.mac.any fun e => inView e.2.view 1 && !profHasMac g e.2) ||
    old 0 x.fwd.em || old 1 x.fwd.lpm || old 3 x.fwd.grp || old 4 x.fwd.rep || old 5 x.fwd.nh ||
    g.recs.any fun r => !x.fwd.holds 1 r.1.val r.2.1 r.2.2

/-- The pipelines whose generation a profile changes. -/
def State.gensOf (s : State) (l : List ProfGen) : List (Nat × ProfGen) :=
  ((List.range 4).zip l).filter fun g => s.genDiffers g.1 g.2

/-- The generations of a profile can be written: their programs are valid, and PENDING, opened as a copy of ACTIVE, has room for them. -/
def State.gensFit (s : State) (l : List (Nat × ProfGen)) : Bool :=
  l.all fun g =>
    let t := if s.pendOpen g.1 then s else s.modPipe g.1 fun x => x.review drainView
    !(t.genWrite g.1 g.2).2

/-- Every program of a profile would be accepted by PARSE_LOAD (spec/06 R186). -/
def progsOk (l : List ProfGen) : Bool := l.all fun g => g.prog.all fun p => p.valid true

/-- One generation of a PROFILE_APPLY at a boundary: it is written into PENDING and committed, or deferred while DRAINING has not drained
(spec/03 R90, spec/06 R201). `quiet` boundaries defer without counting. -/
def State.genStep (s : State) (j : ProfCommit) (quiet : Bool) : State × List ProfCommit :=
  if quiet then (s, [j])
  else if s.drnValid j.pipe || !s.pendOpen j.pipe then ((s.countParse j.pipe 14).late 1, [{ j with defers := j.defers + 1 }])
  else ((s.genWrite j.pipe j.gen).1.commitPipe j.pipe j.defers, [])

/-- Order 5: the generations of PROFILE_APPLY operations (spec/01 R31, spec/03 R90). -/
def State.genBoundary (s : State) (quiet : Bool) : State :=
  let r := s.power.profGens.foldl (fun a j => let b := a.1.genStep j quiet; (b.1, a.2 ++ b.2)) (s, [])
  r.1.modPower fun x => { x with profGens := r.2 }

/-- The generation that a profile holds for a pipeline is ACTIVE generation 0, and PENDING a copy of it (spec/06 R208, spec/07 R235). -/
def State.genBoot (s : State) (p : Nat) (l : List ProfGen) : State :=
  match l[p]? with
  | none => s
  | some g =>
    let s := (s.genWrite p g).1
    let s := s.modPipe p fun x => x.review fun v => v ||| (v <<< 1)
    ((s.modParser p fun x => { x with defAct := x.defPend, progAct := x.progPend }).showGen p).showLpm p

end Sys2Proof.Machine
end

