-- ==== Sys2Proof/Machine/PowerRows.lean ====
section
/-!
DEFINITION. Sys2Proof/Machine/PowerRows.lean: events of supplies, resets and the oscillator (spec/02, spec/03), the dip, the system
watchdog and the soft chip reset.
-/
namespace Sys2Proof.Machine
open Sys2Proof

/-! ### The island (spec/03 R80, R81, R100) -/

/-- ISLAND_RESET. -/
def execIslandReset (s : State) : Host.Outcome State Fault Refusal := .next s.vaultTime.islandStop

/-- VAULT_ONLY_ENTRY. -/
def execVaultOnlyEntry (s : State) : Host.Outcome State Fault Refusal :=
  .next (if s.power.aon then
      (s.islandStop.modPower fun x => { x with aon := false }).setF F.secStatus_ON_VBAT 1
    else s)

/-- TICK_PLL_LOCK: TCNT0 and the beat generator start at beat 0 of second 0. -/
def execTickPllLock (s : State) : Host.Outcome State Fault Refusal :=
  .next (if s.power.aon && !s.power.pllLocked then
      ((({ s with time := {} }.modPower fun x => { x with pllLocked := true }).planBeat false).showIncr 0).showBeat
    else s)

/-! ### Power-up (spec/02 R60, R61) -/

/-- The main rails may be raised: nothing holds MAIN_PWR_EN low. -/
def State.mayRaise (s : State) : Bool :=
  s.power.aon && s.power.pllLocked && !s.power.therm && !s.flag F.globalSeq_GIVEN_UP && s.power.pstate != .standby

/-- MAIN_PWR_EN goes high; no attempt is owed any more. -/
def State.powerUp (s : State) : State := s.modPower fun x => { x with mainPwrEn := true, retryDue := false }

/-- MAIN_PWR_EN_HIGH. -/
def execMainPwrEnHigh (s : State) : Host.Outcome State Fault Refusal :=
  .next (if s.mayRaise then s.powerUp else s)

/-- SEQ_ORDER_VIOLATION: EARLY_STEP keeps the first. (DESIGN CHOICE, log entry 49) -/
def execSeqOrderViolation (step : Nat) (s : State) : Host.Outcome State Fault Refusal :=
  if 2 ≤ step ∧ step ≤ 7 then
    .next (if !s.power.aon then s
      else
        let s := if s.fld F.globalSeq_EARLY_STEP = 0 then s.setF F.globalSeq_EARLY_STEP step else s
        s.setF F.globalSeq_ORDER 1)
  else .fault .illFormed

/-- POWERUP_TIMEOUT. (DESIGN CHOICE, log entry 49) -/
def execPowerupTimeout (stuckStep : Nat) (s : State) : Host.Outcome State Fault Refusal :=
  if 2 ≤ stuckStep ∧ stuckStep ≤ 7 then
    .next (if s.power.aon && s.power.mainPwrEn && s.power.mainReset then
        let n := min 3 (s.fld F.globalSeq_ATTEMPTS + 1)
        let s := s.modPower fun x => { x with mainPwrEn := false, armed := false, retryDue := decide (n < 3) }
        let s := ((s.setF F.globalSeq_TIMEOUT 1).setF F.globalSeq_STUCK_STEP stuckStep).setF F.globalSeq_ATTEMPTS n
        if n = 3 then s.setF F.globalSeq_GIVEN_UP 1 else s
      else s)
  else .fault .illFormed

/-- POWERUP_RETRY: the attempt that follows a failed one, also where RESET_N has cleared ATTEMPTS in the meantime. -/
def execPowerupRetry (s : State) : Host.Outcome State Fault Refusal :=
  .next (if s.mayRaise && s.power.retryDue then s.powerUp else s)

/-! ### Main resets (spec/02 R61, R76; spec/03 R91, R103, R109) -/

/-- MAIN_POR: outside STANDBY, from off. (DEDUCED, log entry 16) -/
def execMainPor (s : State) : Host.Outcome State Fault Refusal :=
  .next (if s.power.aon && s.power.mainPwrEn && s.power.mainReset && !s.power.armed && s.power.pstate != .standby then s.mainReset 2 true
    else s)

/-- SUPPLY_RESET: the first rail to cross its threshold is named; rails that are off by design cause none. In STANDBY, where the main domain
is held in reset, a rail that falls with the rails left on is ignored too. (DEDUCED, log entry 16; DESIGN CHOICE, log entries 49 and 55) (DEDUCED, log entry 16; DESIGN CHOICE, log entry 49; DESIGN CHOICE, log entry 55) -/
def execSupplyReset (rail : Nat) (s : State) : Host.Outcome State Fault Refusal :=
  if rail ≤ 7 then
    .next (if s.power.aon && s.power.mainPwrEn && s.power.pstate != .standby &&
          !(s.power.mainReset && s.fld F.globalResetCause_LAST == 3) then
        let s := (s.setF F.globalResetCause_RAIL rail).modPower fun x => { x with dip := none, alarmDip := false }
        s.mainReset 3 true
      else s)
  else .fault .illFormed

/-- PIN_RESET: in STANDBY it is the way out. (DEDUCED, log entry 16) -/
def execPinReset (s : State) : Host.Outcome State Fault Refusal :=
  .next (if !s.power.aon then s
    else if s.power.pstate == .standby then s.standbyExit
    else s.mainReset 4 false)

/-- RESET_N_LONG: with the latch cleared, or after the third attempt, the power-up starts again at MAIN_PWR_EN. -/
def execResetNLong (islandBelow100 : Bool) (s : State) : Host.Outcome State Fault Refusal :=
  .next (if !s.power.aon then s
    else
      let again := (s.power.therm && islandBelow100) || s.flag F.globalSeq_GIVEN_UP
      let s := (s.setF F.globalSeq_ATTEMPTS 0).setF F.globalSeq_GIVEN_UP 0
      let s := s.modPower fun x => { x with therm := x.therm && !islandBelow100 }
      if again && s.mayRaise then s.powerUp else s)

/-- THERMTRIP: the latch holds the main domain in reset. (DEDUCED, log entry 16) -/
def execThermtrip (s : State) : Host.Outcome State Fault Refusal :=
  .next (if s.power.aon && s.power.mainPwrEn then
      (s.mainReset 7 false).modPower fun x => { x with therm := true, mainPwrEn := false, armed := false }
    else s)

/-- STANDBY_WAKE: a wake time that had passed at the entry ends STANDBY at a boundary (R101). -/
def execStandbyWake (s : State) : Host.Outcome State Fault Refusal :=
  .next (if s.power.aon && s.power.pstate == .standby && !s.power.wakePassed && s.power.wake.any (fun t => decide (t ≤ s.now)) then
      s.standbyExit
    else s)

/-- STANDBY_RAILS_OFF. -/
def execStandbyRailsOff (s : State) : Host.Outcome State Fault Refusal :=
  .next (if s.power.pstate == .standby && s.power.railsOff then s.modPower fun x => { x with mainPwrEn := false } else s)

/-! ### The oscillator (spec/02 R68) -/

/-- OSC_LOSS. -/
def execOscLoss (s : State) : Host.Outcome State Fault Refusal :=
  .next (if s.power.aon && s.power.pllLocked then (s.setF F.globalSeq_OSC_LOST 1).modPower fun x => { x with oscHeld := true } else s)

/-- OSC_RETURN: DPLL0 pulls the error out by rate (spec/12 R392). -/
def execOscReturn (s : State) : Host.Outcome State Fault Refusal :=
  .next (if s.power.oscHeld then (s.modPower fun x => { x with oscHeld := false }).modDpll 0 fun x => { x with pullDue := true } else s)

/-! ### Dips (spec/03 R106 to R111) -/

/-- DIP_ENTER: `rails` are the rails below warning; during a dip, a change of them. (DESIGN CHOICE, log entry 56) -/
def execDipEnter (rails : BitVec 9) (s : State) : Host.Outcome State Fault Refusal :=
  .next (if s.power.aon && s.power.mainPwrEn && (rails != 0 || s.inDip) then s.dipBegin rails else s)

/-- DIP_EXIT: `lows` are the lowest samples; a dip without a sample has not lasted long enough to end. -/
def execDipExit (lows : List RailLow) (s : State) : Host.Outcome State Fault Refusal :=
  .next (match s.power.dip with
    | none => s
    | some d =>
      let d := d.sampled lows
      match d.worst with
      | none => s
      | some w => s.dipEnd d w)

/-- DIP_LONG: the dip has lasted longer than MAX_MS. -/
def execDipLong (lows : List RailLow) (s : State) : Host.Outcome State Fault Refusal :=
  .next (match s.power.dip with
    | none => s
    | some d =>
      let d := d.sampled lows
      match d.worst with
      | none => s
      | some w =>
        if d.long || decide (s.time.tick ≤ d.startTick + 1600000 * s.dipMax) then s
        else
          let s := s.modPower fun x => { x with dip := some { d with long := true }, alarmDip := true }
          if !s.up then s
          else s.raise 0x0122 16 [(0, 2, d.below.toNat), (2, 1, w.1), (4, 2, w.2), (8, 4, s.dipMax),
            (12, 4, ticksMs (s.time.tick - d.startTick))])

/-! ### The watchdog and the soft reset (spec/03 R93, R94, R98, R111) -/

/-- WDT_WARN: at 75 % of the timeout. -/
def execWdtWarn (s : State) : Host.Outcome State Fault Refusal :=
  .next (if s.wdtRuns && decide (1200000 * wdtMs (s.fld F.globalWdtCtrl_TIMEOUT_MS) ≤ s.dogRan s.power.dog true) then
      s.raise 0x0104 16 [(0, 4, wdtMs (s.fld F.globalWdtCtrl_TIMEOUT_MS)), (4, 4, ticksMs (s.time.tick - s.power.wdtTick)),
        (8, 1, s.fld F.globalWdtCtrl_SRC_CORE4 + 2 * s.fld F.globalWdtCtrl_SRC_HOST), (12, 4, s.beat)]
    else s)

/-- WDT_RESET. -/
def execWdtReset (s : State) : Host.Outcome State Fault Refusal :=
  .next (if s.wdtRuns && decide (1600000 * wdtMs (s.fld F.globalWdtCtrl_TIMEOUT_MS) ≤ s.dogRan s.power.dog true) then s.mainReset 5 false
    else s)

/-- WDT_KICK. -/
def execWdtKick (src : WrSrc) (value : BitVec 32) (s : State) : Host.Outcome State Fault Refusal :=
  .next (if s.up then s.wdtKickWrite src value else s)

/-- WDT_CTRL_WRITE. -/
def execWdtCtrlWrite (_src : WrSrc) (value : BitVec 32) (s : State) : Host.Outcome State Fault Refusal :=
  .next (if s.up then s.wdtCtrlWrite value else s)

/-- RESET_CTRL_CHIP. -/
def execResetCtrlChip (_src : WrSrc) (value : BitVec 32) (s : State) : Host.Outcome State Fault Refusal :=
  .next (if s.up then s.resetCtrlWrite value else s)

/-- CHIP_RESET: the completion is written before the reset. -/
def execChipReset (c : Cmd) (s : State) : Host.Outcome State Fault Refusal :=
  .next (s.start c 0x0103 (c.ok 2 && c.fld 0 2 == 0xC4A7) fun s =>
    (s.complete c 0x0103 st.ok).modPower fun x => { x with softPending := true })

end Sys2Proof.Machine
end

