-- ==== Sys2Proof/Machine/SecRows.lean ====
section
/-!
DEFINITION. Sys2Proof/Machine/SecRows.lean: commands of the vault and of field update (spec/17).
-/
namespace Sys2Proof.Machine
open Sys2Proof

/-! ### Vault and tamper (spec/02 R59, spec/17 R533 to R540) -/

/-- TAMPER_DETECT (spec/17 R535). -/
def execTamperDetect (src : Fin 8) (detail : BitVec 32) (s : State) : Host.Outcome State Fault Refusal :=
  .next (if s.tamperCond src.val detail then s.tamper src.val detail else s)

/-- VBAT_CHECK (spec/17 R534): once a second, which VSEC counts. -/
def execVbatCheck (mv : Nat) (s : State) : Host.Outcome State Fault Refusal :=
  .next (if !s.power.aon then s
    else
      let s := (s.modSec fun x => { x with vsec := x.vsec + 1 }).showVsec
      if mv < 2200 ∧ !s.flag F.secStatus_VBAT_LOW then
        let s := s.setF F.secStatus_VBAT_LOW 1
        if s.up then s.raise 0x0E04 16 [(0, 2, mv)] else s
      else if 2300 < mv then s.setF F.secStatus_VBAT_LOW 0
      else s)

/-- VBAT_LOSS (spec/02 R59). -/
def execVbatLoss (s : State) : Host.Outcome State Fault Refusal := .next (if s.power.aon then s else s.vaultLoss)

/-- TAMPER_CFG_WRITE. -/
def execTamperCfgWrite (lock : Bool) (src : Fin 8) (value : BitVec 32) (s : State) : Host.Outcome State Fault Refusal :=
  .next (if !s.up then s else if lock then s.tamperLockWrite value else s.tamperCfgWrite src.val value)

/-- TAMPER_CLEAR. (DEDUCED, log entry 44) -/
def execTamperClear (c : Cmd) (s : State) : Host.Outcome State Fault Refusal :=
  .next (s.start c 0x0E07 (c.ok 4 [(2, 2)] && decide (c.fld 1 1 < 2)) fun s =>
    let n := s.freeCtr
    let keep := (List.range 8).filter fun k => s.latched k && !(bitAt (c.fld 0 1) k && Config.tamperAbsent n k)
    let s := s.fresh.setF F.secStatus_LATCHED (idxMask keep)
    let s := if c.fld 1 1 = 1 then s.modSec fun x => { x with log := [] } else s
    s.complete c 0x0E07 st.ok (packLE 256 [(0, 1, idxMask keep)]))

/-- KEY_WRITE: a key of zeros removes the key. -/
def execKeyWrite (c : Cmd) (s : State) : Host.Outcome State Fault Refusal :=
  let cl := c.fld 0 1
  let i := c.fld 1 1
  let k := c.fld 8 32
  .next (s.start c 0x0E05 (c.ok 40 [(2, 6)] && ((cl == 0 && decide (i < 64)) || (cl == 1 && i == 0) || (cl == 2 && decide (i < 16)))) fun s =>
    if s.eraseLatched then s.complete c 0x0E05 st.badState
    else
      let n := if cl = 0 then i else if cl = 1 then 64 else 65 + i
      (s.modSec fun x => { x with keys := Tab.put x.keys 0 n (BitVec.ofNat 256 k) }).complete c 0x0E05 st.ok)

/-- KEY_HMAC: `data` are the bytes read from the data address. (DEDUCED, log entry 44) -/
def execKeyHmac (c : Cmd) (data : List (BitVec 8)) (s : State) : Host.Outcome State Fault Refusal :=
  let len := c.fld 4 4
  .next (s.start c 0x0E06 (c.ok 24 [(1, 3)] && decide (c.fld 0 1 < 16) && decide (1 ≤ len) && decide (len ≤ 65536) &&
      s.bufOk c.src (c.fld 8 8) len && s.bufOk c.src (c.fld 16 8) 48) fun s =>
    match Tab.find (65 + c.fld 0 1) s.sec.keys with
    | none => s.complete c 0x0E06 st.badState
    | some k =>
      let msg := match c.src with
        | .host => data.take len
        | .mbox _ _ => natBytes len (s.memRead (c.fld 8 8) len)
      (s.bufWrite c.src (c.fld 16 8) 48 (Config.hmac384 k msg).toNat).complete c 0x0E06 st.ok)

/-- FUSE_CUST: held during DIP. -/
def execFuseCust (c : Cmd) (s : State) : Host.Outcome State Fault Refusal :=
  .next (s.start c 0x0E08 (c.ok 56 [(2, 6)] && (c.fld 0 1 == 4 || c.fld 0 1 == 5) && decide (c.fld 1 1 < 2)) fun s =>
    if s.inDip then s.park c 0x0E08
    else
      let r := s.fuseCmd c 0x0E08
      r.1.complete c 0x0E08 r.2)

/-! ### Update (spec/17 R525 to R531) -/

/-- UPD_STAGE: `bytes` are what the host's buffer holds; the verdict on them falls with the operation's end. -/
def execUpdStage (c : Cmd) (bytes : List (BitVec 8)) (s : State) : Host.Outcome State Fault Refusal :=
  let len := c.fld 8 4
  .next (s.start c 0x0E01 (c.ok 16 [(12, 4)] && decide (64 ≤ len) && decide (len ≤ 25165824)) fun s =>
    if s.fld F.updStatus_INSTALLED ≠ 0 then s.complete c 0x0E01 st.badState
    else
      let n := s.host.longOps.length
      let s := s.startLong c 0x0E01 0x0E01 len [] (fun s _ => s.stageEmpty) s.sec.erasing
      match s.host.longOps[n]? with
      | some o => s.modSec fun x => { x with stage := x.stage ++ [(o.handle, bytes.take len)] }
      | none => s)

/-- Core that installs component `k` by a restart (spec/17 R518). -/
def restarts (k : Nat) : Option Nat :=
  if k = 0 then some 5 else if 2 ≤ k ∧ k ≤ 4 then some k else if k = 8 then some 6 else if k = 9 then some 7 else none

/-- An installation begins to run (spec/17 R518, R527, R528). -/
def State.installBegin (s : State) (k : Nat) : State :=
  match restarts k with
  | some c => (s.setCoreState c 4).awake c
  | none =>
    if k = 1 then
      let b := 1 - s.holder
      (s.setPair b 1).setCoreState b 4
    else if k = 5 then s.ucodeBegin 0
    else s

/-- UPD_INSTALL: a component that already runs the staged image, or AT_RESET, completes at once. -/
def execUpdInstall (c : Cmd) (s : State) : Host.Outcome State Fault Refusal :=
  let k := c.fld 0 1
  .next (s.start c 0x0E02 (c.ok 4 [(2, 2)] && decide (k < 10) && decide (c.fld 1 1 < 2)) fun s =>
    match (if s.flag F.updStatus_STAGE_VALID then imageOf s.sec.staged k else none) with
    | none => s.complete c 0x0E02 st.badState
    | some i =>
      if s.sec.running.contains i then s.complete c 0x0E02 st.ok
      else if !(i.requires.all fun r => meets s.sec.running r) then s.complete c 0x0E02 st.version
      else if c.fld 1 1 = 1 then
        ((s.markInstalled k).modSec fun x => { x with atReset := x.atReset ||| BitVec.ofNat 16 (2 ^ k) }).complete c 0x0E02 st.ok
      else if k = 1 ∧ s.pairState (1 - s.holder) ≠ 3 then s.complete c 0x0E02 st.badState
      else if k = 5 ∧ s.host.longOps.any LongOp.loadsUcode then s.complete c 0x0E02 st.badState
      else s.startLong c 0x0E02 0x0E02 (if k = 5 then 32 else if k = 1 then 4 else 1) [k, i.version.toNat] fun s _ => s.installBegin k)

/-- UPD_COMMIT: held during DIP. -/
def execUpdCommit (c : Cmd) (s : State) : Host.Outcome State Fault Refusal :=
  .next (s.start c 0x0E03 (c.ok 4 [(1, 3)] && decide (c.fld 0 1 < 2)) fun s =>
    if s.inDip then s.park c 0x0E03
    else
      let r := s.fuseCmd c 0x0E03
      r.1.complete c 0x0E03 r.2)

/-- UPD_DISCARD (spec/17 R530, R540): held during DIP. -/
def execUpdDiscard (c : Cmd) (s : State) : Host.Outcome State Fault Refusal :=
  .next (s.start c 0x0E04 (c.ok 0) fun s =>
    if s.inDip then s.park c 0x0E04
    else
      let r := s.fuseCmd c 0x0E04
      r.1.complete c 0x0E04 r.2)

end Sys2Proof.Machine
end

