-- ==== Sys2Proof/Machine/ServoRows.lean ====
section
/-!
DEFINITION. Sys2Proof/Machine/ServoRows.lean: the commands and events of sessions and servo slots (spec/10), and what the slots do at
order 3 of a boundary.
-/
namespace Sys2Proof.Machine
open Sys2Proof

/-! ### The servo in a beat -/

/-- SERVO_COMPUTE: core ticks pass until tick 16; due slots compute (spec/10 R336, R338). -/
def execServoCompute (s : State) : Host.Outcome State Fault Refusal :=
  .next (if s.joinedBeat then (s.toTick 16).computeSlots else s)

/-- SERVO_DEADLINE: core ticks pass until tick 12,800 (spec/01 R32, spec/10 R338, R350). -/
def execServoDeadline (s : State) : Host.Outcome State Fault Refusal :=
  .next (if s.joinedBeat then (s.toTick 12800).slotDeadline else s)

/-- The slot has accepted no sample for TIMEOUT beats (spec/10 R345, R349). -/
def State.slotIdle (s : State) (k : Nat) : Bool :=
  (s.slot k).idle.any fun n => decide (max 1 (s.fld (F.slotTimeout_BEATS k)) ≤ n)

/-- SLOT_INPUT_TIMEOUT (spec/10 R345, R347). Input timers pause in DIP (R344). -/
def execSlotInputTimeout (slot : Fin 256) (s : State) : Host.Outcome State Fault Refusal :=
  .next (if s.up && runningSlot (s.slotState slot) && s.slotIdle slot && !s.inDip then s.loseSlot slot 3 else s)

/-- The step of a SLOT_ACCEPT with ACTION STEP (spec/10 R348): at a boundary that is neither held nor in DIP. -/
def State.acceptStep (s : State) (p : Parked) : State :=
  let k := p.cmd.fld 0 1
  if s.slotState k = 3 ∧ (s.slot k).jumped then
    let s := s.addVal (s.slotTarget k) (Int.neg (s.slot k).theta)
    let s := s.modSlot k fun x => { x with samples := [], lockRun := 0, farRun := 0, upd := none }
    ((s.goSlot k 1 11).setF (F.slotStatus_MAY_STEP k) 1).finish p.id st.ok
  else s.finish p.id st.badState

/-- The slots at order 3 (spec/01 R31; spec/10 R336, R347, R348): switches, accepted steps, results. At a held boundary and in DIP the
results are discarded and the others wait (spec/03 R106, spec/14 R446). -/
def State.slotResults (s : State) (held : Bool) : State :=
  let ks := s.servo.slot.map (·.1)
  if held then s.each ks fun s k => s.modSlot k fun x => { x with upd := none }
  else
    let s := s.each ks fun s k => if (s.slot k).switch.isSome then s.slotSwitch k else s
    let s := s.each (s.host.parked.filter (·.op == 0x0703)) State.acceptStep
    s.each ks fun s k =>
      match (s.slot k).upd with
      | some u => (s.modSlot k fun x => { x with upd := none }).slotUpdate k u.1 u.2.1 u.2.2
      | none => s

/-! ### Sessions -/

/-- SESSION_UNIT_END (spec/10 R334): a unit without an exchange is a miss. -/
def State.unitEnd (s : State) (i : Nat) : State :=
  let x := s.sess i
  let timed := ss.role x.cfg == 1 || ss.role x.cfg == 4
  if x.state = 0 ∨ !timed then s
  else if x.hit then s.modSess i fun x => { x with hit := false }
  else
    let n := sat 255 (x.misses + 1)
    let s := s.modSess i fun x => { x with misses := n }
    if x.state = 2 ∨ x.state = 3 then
      let down := !s.portUp (ss.port x.cfg)
      if ss.missMax x.cfg ≤ n then s.goSess i 4 (if down then 4 else 3)
      else s.goSess i 3 (if down then 4 else 2)
    else s

/-- The number of what falls due in this beat, at intervals of 2^L seconds from the enabling beat (spec/10 R329). -/
def State.dueNow (s : State) (x : SessSt) (l : Int) : Option Nat := dueIndex (s.time.bounds - x.start) l

/-- A unit of a KL session ends: with a window whose end KL_WINDOW_END has handled, or, where no superframe tells, when a window and a
superframe have passed since the last one ended (spec/10 R334, R335). (DEDUCED, log entry 28) -/
def State.klUnitEnd (s : State) (i : Nat) : State :=
  let x := s.sess i
  let w := s.klTicks x.cfg
  if !x.kl.closed.isEmpty then s
  else if 0 < x.kl.units then (s.modKl i fun k => { k with units := k.units - 1 }).unitEnd i
  else if x.kl.unitTick + w + w / 2 ^ ss.klLog2 x.cfg ≤ s.time.tick then
    (s.modKl i fun k => { k with unitTick := k.unitTick + w }).unitEnd i
  else s

/-- SESSION_UNIT_END: on Ethernet, unit k ends in the beat in which message k + 1 is due, once (spec/10 R329, R334). -/
def execSessionUnitEnd (sess : Fin 4096) (s : State) : Host.Outcome State Fault Refusal :=
  let x := s.sess sess
  .next (if !s.up then s
    else if ss.delay x.cfg = 2 then (if x.state = 0 then s else s.klUnitEnd sess)
    else match s.dueNow x (ss.logSync x.cfg) with
      | some k => if x.unitNext < k then (s.modSess sess fun x => { x with unitNext := k }).unitEnd sess else s
      | none => s)

/-- A session's due message joins TC15 of its port (spec/10 R328, R329): mtype 0 Sync, 1 Delay_Req, 2 Pdelay_Req; `k` is its number. -/
def State.sessSend (s : State) (i mtype k : Nat) : State :=
  let x := s.sess i
  let q := if mtype = 2 then x.pdSeq else x.txSeq
  let s := s.modSess i fun x =>
    if mtype = 2 then { x with pdSeq := q + 1, pdNext := k + 1 } else { x with txSeq := q + 1, txNext := k + 1 }
  s.queuePtp i mtype q 0 0 0 []

/-- The session sends messages of this type (spec/10 R329). (DEDUCED, log entry 28) -/
def sends (c : BitVec 768) (mtype : Nat) : Bool :=
  ss.delay c != 2 &&
    (if mtype = 0 then ss.role c == 2
    else if mtype = 1 then (ss.role c == 1 || ss.role c == 4) && ss.delay c == 0
    else ss.delay c == 1 || ss.role c == 3)

/-- SESSION_TX (spec/10 R329): message `k` of its kind since the session was enabled, in the beat in which it is due, once. -/
def execSessionTx (sess : Fin 4096) (mtype : Fin 3) (k : Nat) (s : State) : Host.Outcome State Fault Refusal :=
  let x := s.sess sess
  .next (if s.up && x.state != 0 && sends x.cfg mtype && s.portUp (ss.port x.cfg) &&
      s.dueNow x (if mtype = 0 then ss.logSync x.cfg else ss.logDelay x.cfg) == some k &&
      decide ((if mtype = 2 then x.pdNext else x.txNext) ≤ k) then s.sessSend sess mtype k
    else s)

/-- FU_TIMEOUT (spec/10 R327). -/
def execFuTimeout (sess : Fin 4096) (s : State) : Host.Outcome State Fault Refusal :=
  .next (if s.up then s.countFu sess else s)

/-- PTP_RX (spec/10 R325 to R327): the engine takes up the PTP message of a received frame, with the verdict of the timing pair on its
ICV. -/
def execPtpRx (frame : Nat) (icv : Icv) (s : State) : Host.Outcome State Fault Refusal :=
  .next (match s.servo.inbox.find? (·.id = frame) with
    | none => s
    | some f => match f.ptp with
      | none => s
      | some p => (s.takeUp f).ptpRx f (ptpMsg f.bytes p.1 p.2 f.stamp) icv (!s.flag F.redundStatus_UNATTENDED))

/-- KL_WINDOW_END (spec/10 R331, R333): nothing, where no window of the session has ended. -/
def execKlWindowEnd (sess : Fin 4096) (s : State) : Host.Outcome State Fault Refusal :=
  .next (if s.up && (s.sess sess).state != 0 && ss.delay (s.sess sess).cfg == 2 then s.klWindow sess else s)

/-- KL_REPORT_RX (spec/10 R332): the engine consumes a KL report frame. -/
def execKlReportRx (lane : Fin 128) (frame : Nat) (s : State) : Host.Outcome State Fault Refusal :=
  .next (match s.servo.inbox.find? (·.id = frame) with
    | none => s
    | some f =>
      if f.ptp.isSome || f.port != lane.val then s
      else match s.klSess f.port, klReportOf f.bytes with
        | some i, some r => (s.takeUp f).klReportRx i r
        | _, _ => s.takeUp f)

/-- Payload of a SESSION_SET. -/
def sessPayload (c : Cmd) : BitVec 768 := c.payload.setWidth 768

/-- SESSION_SET (spec/10 R323): checked as it starts; it takes effect at the next boundary. (DEDUCED, log entry 29) -/
def execSessionSet (c : Cmd) (s : State) : Host.Outcome State Fault Refusal :=
  .next (s.start c 0x0701 (c.ok 96) fun s =>
    let r := s.sessCheck (sessPayload c)
    if r = st.ok then s.park c 0x0701 else s.complete c 0x0701 r)

/-- SESSION_SETs at order 4 of a boundary, in the order they were started: each is checked against what then holds. (DEDUCED, log entry 29) -/
def State.sessBoundary (s : State) : State :=
  s.each (s.host.parked.filter (·.op == 0x0701)) fun s p =>
    let r := s.sessCheck (sessPayload p.cmd)
    (if r = st.ok then s.sessApply (sessPayload p.cmd) else s).finish p.id r

/-- Record of a session (spec/10 R351). -/
def State.sessRec (s : State) (i : Nat) : BitVec 512 :=
  let x := s.sess i
  let mpd : Int := match x.mpd with
    | some (n, d) => roundDiv n d
    | none => 0
  packLE 512 ([(0, 2, i), (2, 1, x.state), (3, 1, x.misses), (4, 1, bit x.delayStale), (8, 8, twos 64 x.offset), (16, 8, twos 64 mpd),
    (24, 4, x.exchanges.toNat), (28, 2, x.dup), (30, 2, x.fuMiss), (32, 2, x.respMiss), (34, 2, x.stale), (36, 2, x.sfBad),
    (38, 2, x.foreign), (40, 2, x.authFail), (42, 2, x.authLate), (56, 8, twos 64 x.nrr)] ++ Stamp.fields x.lastTs 44)

/-- SESSION_READ (spec/10 R351): the counts of the sessions read begin again at 0. -/
def execSessionRead (c : Cmd) (s : State) : Host.Outcome State Fault Refusal :=
  let first := c.fld 0 2
  let n := c.fld 2 2
  let a := c.fld 8 8
  .next (s.start c 0x0702 (c.ok 16 [(4, 4)] && decide (0 < n) && decide (first + n ≤ 4096) && a % 64 == 0 &&
      s.bufOk c.src a (64 * n)) fun s =>
    let s := s.each (List.range n) fun s j =>
      let i := first + j
      (s.bufWrite c.src (a + 64 * j) 64 (s.sessRec i).toNat).modSess i fun x =>
        { x with dup := 0, fuMiss := 0, respMiss := 0, stale := 0, sfBad := 0, foreign := 0, authFail := 0, authLate := 0 }
    s.complete c 0x0702 st.ok)

/-! ### Slots -/

/-- SLOT_ACCEPT (spec/10 R348, R351). -/
def execSlotAccept (c : Cmd) (s : State) : Host.Outcome State Fault Refusal :=
  let k := c.fld 0 1
  let a := c.fld 1 1
  .next (s.start c 0x0703 (c.ok 2 && decide (a < 3)) fun s =>
    if s.slotState k ≠ 3 ∨ !(s.slot k).jumped ∨ (s.slot k).switch.isSome then s.complete c 0x0703 st.badState
    else if a = 0 then (if s.slotKind k = 1 then s.complete c 0x0703 st.badState else s.park c 0x0703)
    else if a = 1 then
      let s := s.modSlot k fun x => { x with base := (s.cnt (s.slotTarget k)).incr.toNat, lockRun := 0, farRun := 0 }
      (s.goSlot k 4 11).complete c 0x0703 st.ok
    else
      match s.readyPartner k with
      | none => s.complete c 0x0703 st.badState
      | some _ => (s.modSlot k fun x => { x with switch := some 5 }).complete c 0x0703 st.ok)

/-- A write of word `w` to `SLOT[k]_CFG`, `_IVL` or `_TIMEOUT` (spec/10 R339, R340, R349): refused with CFG_ERR where it breaks a rule;
otherwise its fields take effect at the next boundary. UPD asks for the shadow coefficients. (DEDUCED, log entry 9) -/
def State.slotWrite (s : State) (src : WrSrc) (k word : Nat) (w : Word) : State :=
  let a := Reg.slotCfg k + 4 * word
  s.byWriter src a w fun s =>
    if s.beaten src a then s
    else
    let new := (s.regW a &&& ~~~(rwMask a)) ||| (w &&& rwMask a)
    let cfg := if word = 0 then new else s.regW (Reg.slotCfg k)
    let tmo := if word = 2 then new else s.regW (Reg.slotTimeout k)
    if word ≠ 1 ∧ !s.slotOk k cfg tmo then s.setF F.servoStatus_CFG_ERR 1
    else
      let s := (s.wait a new).took src a
      if word = 0 ∧ (F.slotCfg_UPD k).of w = 1 then s.setF (F.slotCfg_UPD k) 1 else s

/-- SLOT_UPD: a write of `SLOT[k]_CFG`. -/
def execSlotUpd (src : WrSrc) (slot : Fin 256) (value : BitVec 32) (s : State) : Host.Outcome State Fault Refusal :=
  .next (s.slotWrite src slot 0 value)

/-- Shadow coefficients at order 4, where UPD asks for them and the boundary is not held (spec/10 R339, spec/14 R446). -/
def State.coefBoundary (s : State) : State :=
  s.each (List.range 256) fun s k => if s.flag (F.slotCfg_UPD k) then s.slotCoefs k else s

end Sys2Proof.Machine
end

