-- ==== Sys2Proof/Machine/Regs.lean ====
section
/-!
DEFINITION. Sys2Proof/Machine/Regs.lean: reads and writes of BAR0 by address (spec/15 R460, spec/18 R545 to R549): what a write of each
register does, by the register's row of the map; the effects of reads (spec/00 R16, spec/05 R166); and the commands of that kind.
-/
namespace Sys2Proof.Machine
open Sys2Proof

/-! ### Writes that are not plain -/

/-- A write of a register of no special kind: its RW bits take the word, unless a later writer of this tick has written it (spec/18 R547); its
W1C bits clear by 1 (spec/00 R16). (DEDUCED, log entry 9) -/
def State.plainWrite (s : State) (src : WrSrc) (a : Nat) (v : Word) : State :=
  s.byWriter src a v fun s => ((if s.beaten src a then s else s.putRw a v).putW1c a v).took src a

/-- A word of a link register other than LINK_CFG: not written for a lane that heads no port (spec/11 R376). -/
def State.linkWordWrite (s : State) (n a : Nat) (v : Word) : State := if s.linkHere n then s.putRw a v else s

/-- GLOBAL_SEQ: clearing ORDER clears EARLY_STEP (spec/02 R63). -/
def State.seqWrite (s : State) (v : Word) : State :=
  let s := s.putW1c Reg.globalSeq v
  if F.globalSeq_ORDER.of v = 1 then s.setF F.globalSeq_EARLY_STEP 0 else s

/-- HOSTIF_EMERG (spec/15 R487). -/
def State.emergWrite (s : State) (v : Word) : State :=
  let s := if (F.hostifEmerg_DMA_OFF.of v == 1) = s.flag F.hostifEmerg_DMA_OFF then s else s.dmaOffWrite (F.hostifEmerg_DMA_OFF.of v == 1)
  let s := s.setF F.hostifEmerg_TX_STOP (F.hostifEmerg_TX_STOP.of v)
  if F.hostifEmerg_FETCH_NOW.of v = 1 then s.fetchNow else s

/-- The control word of an MSI-X vector: one that is unmasked while pending is signalled (spec/15 R459). (DEDUCED, log entry 38) -/
def State.msixWrite (s : State) (k : Nat) (v : Word) : State :=
  let s := s.putRw (Reg.msixCtrl k) v
  let w := s.reg (Reg.msixPba (k / 32))
  if !s.flag (F.msixCtrl_MASK k) && bitAt w.toNat (k % 32) then
    (s.setReg (Reg.msixPba (k / 32)) (w &&& ~~~(BitVec.ofNat 32 (2 ^ (k % 32))))).post (.msix k)
  else s

/-- PORT_CFG: a change of PAUSE_MODE ends the pause received so far (spec/05 R160 to R163). -/
def State.portCfgWrite (s : State) (n : Nat) (v : Word) : State :=
  let was := s.pauseMode n
  let s := s.putRw (Reg.portCfg n) v
  if s.pauseMode n = was then s else (s.clearPause n).showXoff n

/-- PORT_I2C: a setting that breaks its pair is not applied (spec/05 R170, spec/15 R481). (DEDUCED, log entry 48) -/
def State.i2cWrite (s : State) (b : Nat) (v : Word) : State :=
  let s := s.putW1c (Reg.portI2c b) v
  let t := s.putRw (Reg.portI2c b) v
  if t.i2cNested (s.fld F.hostifCmd_TIMEOUT_MS) then t else s

/-- A data word of a window: the view bits are read only (spec/06 R210, spec/07 R239). -/
def State.winDataWrite (s : State) (a : Nat) (viewed : Bool) (v : Word) : State :=
  let m : Word := if viewed then 0x00070000#32 else 0
  s.setReg a ((s.reg a &&& m) ||| (v &&& ~~~m))

/-- FABRIC_CFG: QUIET only; a write outside it sets QUIET_ERR (spec/08 R258). -/
def State.fabricCfgWrite (s : State) (v : Word) : State :=
  if s.power.pstate == .quiet then s.headroomCheck (s.putRw Reg.fabricCfg v).showDeep else s.setF F.fabricStatus_QUIET_ERR 1

/-- DEEPBUF_CFG: EN changes only in QUIET (spec/08 R258, R260). -/
def State.deepCfgWrite (s : State) (v : Word) : State :=
  if s.power.pstate == .quiet then s.headroomCheck (s.putRw Reg.deepCfg v)
  else
    let t := s.putRw Reg.deepCfg (F.deepCfg_EN.upd v (s.fld F.deepCfg_EN))
    if F.deepCfg_EN.of v = s.fld F.deepCfg_EN then t else t.setF F.fabricStatus_QUIET_ERR 1

/-- FABRIC_PORT: a hold that is not longer than the lane's relock is not applied (spec/04 R134, spec/15 R481). (DEDUCED, log entry 48) -/
def State.fabricPortWrite (s : State) (n : Nat) (v : Word) : State :=
  if relockOk (s.reg (Reg.laneRelock n)) ((F.fabricPort_PORT_DOWN_HOLD_MS n).of v) then s.putRw (Reg.fabricPort n) v
  else s.setF F.fabricStatus_CFG_ERR 1

/-- FABRIC_IA_TH: XON stays below XOFF (spec/08 R282). -/
def State.iaThWrite (s : State) (src : WrSrc) (j : Nat) (v : Word) : State :=
  if (F.iaTh_XON j).of v < (F.iaTh_XOFF j).of v then s.later src (Reg.iaTh j) v else s.setF F.fabricStatus_CFG_ERR 1

/-- A write of LANE_FOM restarts the attempts of the lane's port (spec/04 R130). -/
def State.fomWrite (s : State) (m : Nat) (v : Word) : State :=
  let s := s.putRw (Reg.laneFom m) v
  match s.owner m with
  | some n => s.linkFresh n
  | none => s

/-! ### The map of writes -/

/-- What a write does: state, writer, byte address, the two indices of the instance, the word. -/
abbrev WriteOp := State → WrSrc → Nat → Nat → Nat → Word → State

/-- Registers of GLOBAL, HOSTIF, CORES, MEMBANK, PERF and SECURITY whose writes are not plain. -/
def writeOps1 : List (Nat × WriteOp) :=
  [(Reg.globalSeq, fun s _ _ _ _ v => s.seqWrite v),
   (Reg.globalResetCtrl, fun s _ _ _ _ v => s.resetCtrlWrite v),
   (Reg.globalWdtCtrl, fun s _ _ _ _ v => s.wdtCtrlWrite v),
   (Reg.globalWdtKick, fun s src _ _ _ v => s.wdtKickWrite src v),
   (Reg.hostifCmd, fun s _ _ _ _ v => s.hostCmdWrite v),
   (Reg.hostifDma, fun s _ _ _ _ v => s.hostDmaWrite v),
   (Reg.hostifEmerg, fun s _ _ _ _ v => s.emergWrite v),
   (Reg.ringCfg 0, fun s _ _ r _ v => s.ringCfgWrite r v),
   (Reg.msixCtrl 0, fun s _ _ k _ v => s.msixWrite k v),
   (Reg.coreWdt 0, fun s _ _ c _ v => s.coreWdtWrite c v),
   (Reg.bankCtrl 0, fun s src _ b _ v => s.bankCtrlWrite src b v),
   (Reg.quad 0, fun s src _ q _ v => s.quadWrite src q v),
   (Reg.perfTagCfg 0, fun s _ a c _ v => (s.putRw a v).tagLoad c),
   (Reg.perfTagStatus 0, fun s _ _ c _ v => if (F.perfTagStatus_POP c).of v = 1 then s.tagPop c else s),
   (Reg.secTamperCfg 0, fun s _ _ k _ v => s.tamperCfgWrite k v),
   (Reg.secTamperLock, fun s _ _ _ _ v => s.tamperLockWrite v)]

/-- Registers of LANE and PORT whose writes are not plain. -/
def writeOps2 : List (Nat × WriteOp) :=
  [(Reg.laneCfg 0, fun s _ _ n _ v => s.laneWrite n 0 v),
   (Reg.laneTrain 0, fun s _ _ n _ v => s.laneWrite n 1 v),
   (Reg.laneRelock 0, fun s _ _ n _ v => s.laneWrite n 2 v),
   (Reg.laneFom 0, fun s _ _ n _ v => s.fomWrite n v),
   (Reg.laneLoop 0, fun s _ _ n _ v => s.loopWrite n v),
   (Reg.laneGrp 0, fun s _ _ g _ v => s.grpWrite g v),
   (Reg.linkCfg 0, fun s _ _ n _ v => s.linkWrite n v),
   (Reg.linkTxExt 0, fun s _ a n _ v => s.linkWordWrite n a v),
   (Reg.linkRxExt 0, fun s _ a n _ v => s.linkWordWrite n a v),
   (Reg.linkPtxExt 0, fun s _ a n _ v => s.linkWordWrite n a v),
   (Reg.linkPrxExt 0, fun s _ a n _ v => s.linkWordWrite n a v),
   (Reg.linkCoef 0, fun s _ a n _ v => s.linkWordWrite n a v),
   (Reg.linkGdelay 0, fun s _ a n _ v => s.linkWordWrite n a v),
   (Reg.portCfg 0, fun s _ _ n _ v => s.portCfgWrite n v),
   (Reg.portPfcMap 0 0, fun s _ a n _ v => (s.putRw a v).showPause n),
   (Reg.portTcPri 0 0, fun s _ a n _ v => (s.putRw a v).showXoff n),
   (Reg.portSaHi 0, fun s _ _ n _ v => s.saWrite n v),
   (Reg.portI2c 0, fun s _ _ b _ v => s.i2cWrite b v)]

/-- Registers of PIPE, FABRIC and DEEPBUF whose writes are not plain: windows, QUIET only, or taken at the next boundary (spec/06 R197,
spec/08 R258). -/
def writeOps3 : List (Nat × WriteOp) :=
  [(Reg.pipeWinCtrl 0, fun s _ _ p _ v => s.winCtrl p v ((F.pipeWinCtrl_OP p).of v)),
   (Reg.pipeTwinCtrl 0, fun s _ _ p _ v => s.twinOp p v),
   (Reg.pipeWinData 0 0, fun s _ a p i v => s.winDataWrite a (i == 42 && s.fld (F.pipeWinCtrl_TARGET p) == 0) v),
   (Reg.pipeTwinData 0 0, fun s _ a _ i v => s.winDataWrite a (i == 7) v),
   (Reg.pipeParseCfg 0, fun s src a _ _ v => s.later src a v),
   (Reg.pipeTcDef 0, fun s src a _ _ v => s.later src a v),
   (Reg.pipePcpMap 0, fun s src a _ _ v => s.later src a v),
   (Reg.pipeLearnLimit 0 0, fun s _ a p i v => (s.putRw a v).limitArm p i),
   (Reg.pipeFragCfg 0, fun s src a _ _ v => s.later src a v),
   (Reg.fabricCfg, fun s _ _ _ _ v => s.fabricCfgWrite v),
   (Reg.fabricPool, fun s src a _ _ v => s.headroomCheck (s.later src a v)),
   (Reg.fabricPort 0, fun s _ _ n _ v => s.fabricPortWrite n v),
   (Reg.eqLim 0, fun s src a _ _ v => s.later src a v),
   (Reg.eqSpill 0, fun s src a _ _ v => s.later src a v),
   (Reg.iaTh 0, fun s src _ j _ v => s.iaThWrite src j v),
   (Reg.iaHr 0, fun s src a _ _ v => s.headroomCheck (s.later src a v)),
   (Reg.iaDrop 0, fun s src a _ _ v => s.later src a v),
   (Reg.deepCfg, fun s _ _ _ _ v => s.deepCfgWrite v)]

/-- Registers of TIMEBASE, SERVO, REFCLK and MEASURE whose writes are not plain. -/
def writeOps4 : List (Nat × WriteOp) :=
  [(Reg.tbSnapCtrl, fun s src _ _ _ v => s.snapCtrlWrite src v),
   (Reg.slotCfg 0, fun s src _ k _ v => s.slotWrite src k 0 v),
   (Reg.slotIvl 0, fun s src _ k _ v => s.slotWrite src k 1 v),
   (Reg.slotTimeout 0, fun s src _ k _ v => s.slotWrite src k 2 v),
   (Reg.candCfg 0, fun s src _ c _ v => s.candWrite src c 0 v),
   (Reg.candNom 0, fun s src _ c _ v => s.candWrite src c 1 v),
   (Reg.candNomf 0, fun s src _ c _ v => s.candWrite src c 2 v),
   (Reg.candQual 0, fun s src a _ _ v => s.later src a v),
   (Reg.candWindow 0, fun s src a _ _ v => s.later src a v),
   (Reg.candOffset 0, fun s src a _ _ v => s.later src a v),
   (Reg.dpllCfg 0, fun s src _ d _ v => s.dpllCfgWrite src d v),
   (Reg.dpllSwrateLo 0, fun s src _ d _ v => s.swrateWrite src d false v),
   (Reg.dpllSwrateHi 0, fun s src _ d _ v => s.swrateWrite src d true v),
   (Reg.synCfg 0, fun s src _ y _ v => s.synCfgWrite src y v),
   (Reg.clkout 0, fun s src _ k _ v => s.clkoutWrite src k v),
   (Reg.evinCfg 0, fun s src a _ _ v => s.later src a v),
   (Reg.imCfg 0, fun s src a _ _ v => s.later src a v),
   (Reg.imStopsLo 0, fun s src a _ _ v => s.later src a v),
   (Reg.imStopsHi 0, fun s src a _ _ v => s.later src a v),
   (Reg.imWindow 0, fun s src a _ _ v => s.later src a v),
   (Reg.fmCfg 0, fun s src _ f _ v => s.fmWrite src f 0 v),
   (Reg.fmGate 0, fun s src _ f _ v => s.fmWrite src f 1 v),
   (Reg.evoutCfg 0, fun s src _ k _ v => s.evoutWrite src k 0 v),
   (Reg.evoutStartFrac 0, fun s src _ k _ v => s.evoutWrite src k 1 v),
   (Reg.evoutStartNs 0, fun s src _ k _ v => s.evoutWrite src k 2 v),
   (Reg.evoutStartSecLo 0, fun s src _ k _ v => s.evoutWrite src k 3 v),
   (Reg.evoutStartSecHi 0, fun s src _ k _ v => s.evoutWrite src k 4 v),
   (Reg.evoutPeriodNs 0, fun s src _ k _ v => s.evoutWrite src k 5 v),
   (Reg.evoutPeriodFrac 0, fun s src _ k _ v => s.evoutWrite src k 6 v),
   (Reg.evoutWidth 0, fun s src _ k _ v => s.evoutWrite src k 7 v),
   (Reg.evoutCount 0, fun s src _ k _ v => s.evoutWrite src k 8 v)]

/-- The write operation of the register row at `base`. -/
def writeOp (base : Nat) : Option WriteOp :=
  let l := if base < 0x800000 ∨ (0x108000 ≤ base ∧ base < 0x10A000) then writeOps1
    else if base < 0x1000000 then writeOps2
    else if base < 0x3000000 then writeOps3
    else writeOps4
  (l.find? fun p => p.1 == base).map (·.2)

/-- A write of a 32-bit word at byte address `a` (spec/15 R460, spec/18 R545 to R548). (DEDUCED, log entry 9) -/
def State.regWrite (s : State) (src : WrSrc) (a : Nat) (v : Word) : State :=
  if !s.up then s
  else match RegMap.find a with
  | none => s
  | some h =>
    match writeOp h.row.base with
    | some f => f s src a h.i h.j v
    | none => s.plainWrite src a v

/-! ### Reads -/

/-- Low words of 64-bit counters that clear on read (spec/05 R166; spec/06 R211, spec/07 R240, spec/08 R283). -/
def counterRows : List Nat := [Reg.portCntLo 0 0, Reg.pipeParseCntLo 0 0, Reg.pipeFwdCntLo 0 0, Reg.fabricPcntLo 0]

/-- Link registers, which read 0 for lanes that head no port (spec/11 R376). -/
def linkRows : List Nat :=
  [Reg.linkCfg 0, Reg.linkTxExt 0, Reg.linkRxExt 0, Reg.linkPtxExt 0, Reg.linkPrxExt 0, Reg.linkCoef 0, Reg.linkGdelay 0, Reg.linkRtF 0,
    Reg.linkAsymEffLo 0, Reg.linkAsymEffHi 0]

/-- A read of the word at byte address `a`: the word, and the state after it. (DESIGN CHOICE, log entry 5) -/
def State.regValue (s : State) (a : Nat) : State × Word :=
  match RegMap.find a with
  | none => (s, 0)
  | some h =>
    if counterRows.contains h.row.base then
      let s := if h.row.base == Reg.portCntLo 0 0 && h.j == 36 then s.flushPaused h.i else s
      let v := Tab.get s.ctr 0 a
      ({ s with ctr := Tab.del a s.ctr }.setReg (a + 4) (BitVec.ofNat 32 (v / 2 ^ 32)), BitVec.ofNat 32 v)
    else if h.row.base == Reg.perfCntLo 0 0 then
      let s := s.chargeSlots h.i 0
      let v := s.perfRead h.i h.j
      (s.setF (F.perfCntHi_HI h.i h.j) (v / 2 ^ 32), BitVec.ofNat 32 v)
    else if h.row.base == Reg.secLog 0 then (s, s.logWord h.i)
    else if linkRows.contains h.row.base && !s.linkHere h.i then (s, 0)
    else
      let w := s.reg a
      if h.row.base == Reg.eqHwm 0 then (s.setF (F.eqHwm_HWM h.i) (s.fld (F.eqDepth_TOTAL h.i)), w)
      else if h.row.rc = 0 then (s, w) else (s.setReg a (w &&& ~~~(BitVec.ofNat 32 h.row.rc)), w)

/-- An access that is not performed is counted (spec/15 R460, R488). (DEDUCED, log entry 10) -/
def State.badAccess (s : State) : State := s.bump (F.hostifCnt_COUNT 7)

/-- A host read of the 32-bit word at byte address `a`; `rdata` holds what it returns. (DEDUCED, log entry 9; DEDUCED, log entry 10; DEDUCED, log entry 48) -/
def State.regRead (s : State) (a : Nat) : State :=
  if !s.up then s
  else if a % 4 ≠ 0 then { s.badAccess with rdata := 0xFFFFFFFF#32 }
  else
    let r := s.regValue a
    { r.1 with rdata := r.2 }

/-! ### Commands -/

/-- BAD_ACCESS: a read returns all ones. (DEDUCED, log entry 10) -/
def execBadAccess (write : Bool) (_addr : Nat) (s : State) : Host.Outcome State Fault Refusal :=
  .next (if !s.up then s else if write then s.badAccess else { s.badAccess with rdata := 0xFFFFFFFF#32 })

/-- COUNTER_READ. -/
def execCounterRead (addr : Nat) (s : State) : Host.Outcome State Fault Refusal := .next (s.regRead addr)

/-- RC_READ. -/
def execRcRead (addr : Nat) (s : State) : Host.Outcome State Fault Refusal := .next (s.regRead addr)

/-- W1C_WRITE. -/
def execW1cWrite (src : WrSrc) (addr : Nat) (value : BitVec 32) (s : State) : Host.Outcome State Fault Refusal :=
  .next (if s.up && addr % 4 != 0 then s.badAccess else s.regWrite src addr value)

/-- REGISTER_WRITE. -/
def execRegisterWrite (src : WrSrc) (addr : Nat) (value : BitVec 32) (s : State) : Host.Outcome State Fault Refusal :=
  .next (if s.up && addr % 4 != 0 then s.badAccess else s.regWrite src addr value)

end Sys2Proof.Machine
end

