-- ==== Sys2Proof/Machine/Profile.lean ====
section
/-!
DEFINITION. Sys2Proof/Machine/Profile.lean: PROFILE_APPLY (spec/03 R89, R90): validation of a profile against the rules that its settings
must keep, and its settings taking effect at one beat boundary, its generations each at its commit.
-/
namespace Sys2Proof.Machine
open Sys2Proof

/-- The format of a profile is one that the running SEC image accepts (spec/03 R88, spec/17 R519). -/
def State.formatOk (s : State) (p : Profile) : Bool :=
  match imageOf s.sec.running 0 with
  | some i => decide (i.setFrom.toNat ≤ p.format.toNat) && decide (p.format.toNat ≤ i.setFmt.toNat)
  | none => true

/-- The word that register `t.addr` gets from a setting, over what is in force or waits for the boundary. -/
def State.profWord (s : State) (t : Setting) (a : Bool) : Word :=
  ((s.regW t.addr &&& ~~~(t.reach a true)) ||| (t.value &&& t.reach a true)) &&& rwMask t.addr

/-- The setting differs from the running value (R90); one of class A differs too where it is not to be applied. (DEDUCED, log entry 36) -/
def State.differs (s : State) (t : Setting) : Bool := (s.regW t.addr ^^^ t.value) &&& t.reach true true != 0

/-- The register has not taken the setting, in the classes that are reached. -/
def State.leaves (s : State) (t : Setting) (a : Bool) : Bool := (s.regW t.addr ^^^ t.value) &&& t.reach a true != 0

/-- A field that changes only in QUIET differs (R90). (DEDUCED, log entry 36) -/
def State.quietOnly (s : State) (t : Setting) : Bool :=
  let d := (s.regW t.addr ^^^ t.value) &&& t.reach false true
  match RegMap.find t.addr with
  | none => false
  | some h =>
    (h.row.base == Reg.fabricCfg && d != 0) || (h.row.base == Reg.iaHr 0 && d != 0) ||
      (h.row.base == Reg.deepCfg && d &&& F.deepCfg_EN.mask != 0)

/-- The setting is applied: it differs, its class is reached, and it may change in this state. -/
def State.applies (s : State) (a : Bool) (t : Setting) : Bool :=
  s.differs t && (t.reach a true != 0) && (s.power.pstate == .quiet || !s.quietOnly t)

/-- The registers as the settings leave them, for the checks. -/
def State.afterSettings (s : State) (l : List Setting) (a : Bool) : State :=
  { s.each l fun s t => s.setReg t.addr ((s.regW t.addr &&& ~~~(t.reach a true)) ||| (t.value &&& t.reach a true)) with waiting := [] }

/-- A session's parameters differ from the running ones (R90). -/
def State.sessDiffers (s : State) (c : BitVec 768) : Bool :=
  let x := s.sess (ss.num c)
  if ss.role c = 0 then x.state != 0 else x.state == 0 || x.cfg != c

/-- The sessions as the profile's parameters leave them, for the checks. -/
def State.afterSessions (s : State) (l : List (BitVec 768)) : State :=
  s.each l fun s c => s.modSess (ss.num c) fun x => if ss.role c = 0 then { x with state := 0 } else { x with cfg := c, state := max 1 x.state }

/-- The configuration that the settings and the sessions give keeps every nesting and consistency rule (spec/15 R481; spec/04 R134, spec/08
R260, R282, spec/10 R340, R349, spec/16 R508). -/
def State.configOk (s : State) (l : List Setting) (ses : List (BitVec 768)) (a : Bool) : Bool :=
  let t := (s.afterSettings l a).afterSessions ses
  t.hostNested (t.fld F.hostifCmd_TIMEOUT_MS) (t.fld F.hostifDma_RETRIES) &&
    t.wdtOver (t.flag F.globalWdtCtrl_EN) (t.fld F.globalWdtCtrl_TIMEOUT_MS) && t.headroomOk &&
    (List.range 128).all (fun n => relockOk (t.reg (Reg.laneRelock n)) (t.fld (F.fabricPort_PORT_DOWN_HOLD_MS n))) &&
    (List.range 256).all (fun k => t.slotOk k (t.reg (Reg.slotCfg k)) (t.reg (Reg.slotTimeout k))) &&
    ses.all (fun c => t.sessCheck c == st.ok) &&
    l.all fun x => match RegMap.find x.addr with
      | none => true
      | some h => h.row.base != Reg.iaTh 0 || decide (t.fld (F.iaTh_XON h.i) < t.fld (F.iaTh_XOFF h.i))

/-- What the checks of R90 refuse as an argument: a register that is not there, a program, a field of a session. -/
def State.profArgs (s : State) (p : Profile) (a : Bool) : Bool :=
  p.settings.all (fun t => (RegMap.find t.addr).isSome) && progsOk p.gens &&
    let t := s.afterSettings (p.settings.filter (s.applies a)) a
    p.sessions.all fun c => decide (ss.num c < 4096) && (!s.sessDiffers c || t.sessCheck c != st.badArg)

/-- The status that validation gives. -/
def State.profStatus (s : State) (p : Profile) (live a : Bool) : Nat :=
  if !p.crcOk || !s.profArgs p a then st.badArg
  else if !s.formatOk p then st.version
  else if !live && s.power.pstate != .quiet && p.settings.any s.quietOnly then st.badState
  else if !s.configOk (p.settings.filter (s.applies a)) (p.sessions.filter s.sessDiffers) a || !s.gensFit (s.gensOf p.gens) then st.conflict
  else st.ok

/-- Who writes a setting: CORE5 hands banks over, everything else is written as the host would. (DEDUCED, log entry 36) -/
def settingSrc (a : Nat) : WrSrc := if 0x210000 ≤ a ∧ a < 0x210440 then .core 5 else .host

/-- A setting is written; a write that is refused, because its pair has not moved yet, leaves no trace: PROFILE_APPLY keeps class L (spec/03
R113). -/
def State.profWrite (s : State) (a : Bool) (t : Setting) : State :=
  let w := s.regWrite (settingSrc t.addr) t.addr (s.profWord t a)
  if s.differs t && !w.leaves t a then w else s

/-- The settings are written. -/
def State.profWrites (s : State) (l : List Setting) (a : Bool) : State := s.each l fun s t => s.profWrite a t

/-- Shadow sets that the settings touched come into use (R90): coefficients, link figures, dividers, schedules, station addresses. -/
def State.profLoads (s : State) (l : List Setting) : State :=
  s.each l fun s t =>
    match RegMap.find t.addr with
    | none => s
    | some h =>
      let b := h.row.base
      if b == Reg.slotKp 0 || b == Reg.slotKi 0 || b == Reg.slotKi2 0 || b == Reg.slotKph 0 then s.setF (F.slotCfg_UPD h.i) 1
      else if linkRows.contains b && s.linkHere h.i then
        { s.setF (F.linkCfg_UPD h.i) 1 with servo := { s.servo with linkUpd := s.servo.linkUpd ||| BitVec.ofNat 128 (2 ^ h.i) } }
      else if b == Reg.synCfg 0 || b == Reg.synFb 0 then s.synLoad h.i
      else if b == Reg.clkout 0 then s.synLoad (s.clkSyn h.i)
      else if Reg.evoutCfg 0 ≤ t.addr ∧ t.addr < Reg.evoutStatus 0 + 0x400 then s.setF (F.evoutCfg_LOAD h.i) 1
      else if b == Reg.portSaLo 0 then s.saWrite h.i (s.reg (Reg.portSaHi h.i))
      else s

/-- Settings that are skipped: those that may not change now, and those of the PCIe endpoint and the QSPI clock, always (R90). -/
def State.profSkips (s : State) (p : Profile) (a : Bool) : Nat :=
  (p.settings.filter fun t => s.differs t && !s.applies a t).length +
    ((List.range (max p.mainOnly.length s.power.mainSet.length)).filter fun i => p.mainOnly[i]? != s.power.mainSet[i]?).length

/-- A PROFILE_APPLY has no generation left to commit: ACTIVE names the profile, and the operation is DONE (R90). -/
def State.profDone (s : State) (o : LongOp) (p : Profile) : State :=
  let s := s.setF F.globalProfile_ACTIVE (o.args.getD 0 0)
  let s := s.modPower fun x => { x with active := p, applyProf := x.applyProf.filter (·.1 ≠ o.handle) }
  s.endLong o.handle st.ok (packLE 256 [(0, 4, o.args.getD 3 0), (4, 4, o.args.getD 4 0)])

/-- The PROFILES image in force is the installed one of the staged set, else the committed one (spec/17 R518). (DEDUCED, log entry 45) -/
def State.runProfiles (s : State) : State :=
  let l := if bitAt (s.fld F.updStatus_INSTALLED) 7 then s.sec.staged else s.sec.active
  match imageOf l 7 with
  | some i => if s.sec.running.contains i then s else s.runImage i
  | none => s

/-- A PROFILE_APPLY takes effect, at order 4 of a boundary; those settings that a pair's order delayed are written again. Its generations
wait for their commits. A setting, a session and a generation count one each. (DEDUCED, log entry 36) -/
def State.profApply (s : State) (o : LongOp) (p : Profile) : State :=
  let a := bitAt (o.args.getD 1 0) 1
  let e := s.profStatus p (bitAt (o.args.getD 1 0) 0) a
  if e ≠ 0 then (s.modPower fun x => { x with applyProf := x.applyProf.filter (·.1 ≠ o.handle) }).endLong o.handle e
  else
    let l := p.settings.filter (s.applies a)
    let ses := p.sessions.filter s.sessDiffers
    let gens := s.gensOf p.gens
    let skips := s.profSkips p a
    let s := ((s.runProfiles.profWrites l a).profWrites l a).profLoads l
    let s := s.each ses State.sessApply
    let s := s.modPower fun x => { x with profGens := x.profGens ++ gens.map fun g => { handle := o.handle, pipe := g.1, gen := g.2 } }
    s.modLong o.handle fun o => { o with args := o.args.take 2 ++ [2, l.length + ses.length + gens.length, skips] }

/-- Order 4: the PROFILE_APPLY whose preparation has ended (spec/03 R90). (DEDUCED, log entry 36) -/
def State.profBoundary (s : State) : State :=
  s.each (s.host.longOps.filter fun o => o.op == 0x0101 && o.state == .running && o.args.getD 2 0 == 1) fun s o =>
    match s.power.applyProf.find? (·.1 == o.handle) with
    | none => s
    | some p => s.profApply o p.2

/-- Order 5: the generations' commits, and the PROFILE_APPLY that they complete (spec/03 R90). -/
def State.profCommits (s : State) (quiet : Bool) : State :=
  let s := s.genBoundary quiet
  s.each (s.host.longOps.filter fun o => o.op == 0x0101 && o.state == .running && o.args.getD 2 0 == 2) fun s o =>
    match s.power.applyProf.find? (·.1 == o.handle) with
    | none => s
    | some p => if s.power.profGens.any (·.handle == o.handle) then s else s.profDone o p.2

/-- The preparation of a PROFILE_APPLY ends: it takes effect at the next boundary. (DEDUCED, log entry 36) -/
def State.profFinal (s : State) (o : LongOp) (fault : Bool) : State :=
  if o.args.getD 2 0 ≠ 0 then s
  else if fault then
    (s.modPower fun x => { x with applyProf := x.applyProf.filter (·.1 ≠ o.handle) }).endLong o.handle st.hwFault
  else s.modLong o.handle fun o => { o with args := o.args.take 2 ++ [1] }

/-- PROFILE_APPLY: validated when it is accepted, and again when it takes effect. (DEDUCED, log entry 36) -/
def execProfileApply (c : Cmd) (prof : Profile) (s : State) : Host.Outcome State Fault Refusal :=
  let flags := c.fld 1 1
  .next (s.start c 0x0101 (c.ok 2 && decide (c.fld 0 1 < 4) && decide (flags < 4)) fun s =>
    let e := s.profStatus prof (bitAt flags 0) (bitAt flags 1)
    if e ≠ 0 then s.complete c 0x0101 e
    else
      let n := s.host.longOps.length
      let s := s.startLong c 0x0101 0x0101 prof.settings.length [c.fld 0 1, flags]
      match s.host.longOps[n]? with
      | some o => s.modPower fun x => { x with applyProf := x.applyProf ++ [(o.handle, prof)] }
      | none => s)

end Sys2Proof.Machine
end

