-- ==== Sys2Proof/Machine/Long.lean ====
section
/-!
DEFINITION. Sys2Proof/Machine/Long.lean: the control of long operations (spec/15 R475 to R477), how queued ones start, how each ends; the
rejoining of a core of the timing pair (spec/14 R449) and the installation of firmware (spec/17 R527, R528).
-/
namespace Sys2Proof.Machine
open Sys2Proof

/-! ### Rejoining a core of the timing pair (spec/14 R449) -/


/-- The joining core is reset for a restart, to be loaded where a new image is given; else it keeps running in SYNCING. -/
def State.rejoinStart (s : State) (c : Nat) (restart new : Bool) : State :=
  if !restart then s.setPair c 2
  else
    let s := (s.setPair c 1).coreReset c
    if new then s.setCoreState c 4 else (s.coreStart c).setPair c 2

/-- VER_MIXED: the versions that the two cores run differ (spec/14 R449). -/
def State.showMixed (s : State) : State :=
  s.setF F.redundStatus_VER_MIXED (bit ((s.pairImage 0).map (·.version) != (s.pairImage 1).map (·.version)))

/-- Core `c` runs image `i` from its rejoining on; once both cores run one image, it is the running one and installed. -/
def State.pairRuns (s : State) (c : Nat) (i : Option Image) : State :=
  match i with
  | none => s
  | some i =>
    let s := s.modRedund fun x => { x with imgs := Tab.ins c i x.imgs }
    let s := if s.pairImage (1 - c) = some i then ((s.runImage i).markInstalled 1).modRedund fun x => { x with imgs := [] } else s
    s.showMixed

/-- With the pair UNATTENDED, the joined core takes the interlock; it starts, where it was held in reset (R448). (DEDUCED, log entry 46) -/
def State.rejoinTake (s : State) (c : Nat) : State :=
  if s.flag F.redundStatus_UNATTENDED then
    let s := s.when (s.coreState c == 0) fun s => s.coreStart c
    (((s.setF F.redundStatus_UNATTENDED 0).setF F.redundStatus_HOLDER c).setPair c 4).raiseInt c 1
  else s

/-- PAIR_REJOIN. -/
def execPairRejoin (c : Cmd) (s : State) : Host.Outcome State Fault Refusal :=
  let k := c.fld 0 1
  let restart := bitAt (c.fld 1 1) 0
  let new := bitAt (c.fld 1 1) 1
  .next (s.start c 0x0B01 (c.ok 8 [(2, 2)] && decide (k < 2) && decide (c.fld 1 1 < 4) &&
      (!(restart && new) || (s.stagedImage (c.fld 4 4)).any fun i => i.component == 1)) fun s =>
    if k = s.holder ∧ !s.flag F.redundStatus_UNATTENDED then s.complete c 0x0B01 st.badState
    else s.startLong c 0x0B01 0x0B01 quadBytes [k, c.fld 1 1, c.fld 4 4] fun s _ => s.rejoinStart k restart new)

/-- A PAIR_REJOIN ends (R449, R454). -/
def State.rejoinFinal (s : State) (o : LongOp) (r : LongResult) : State :=
  let c := o.args.getD 0 0
  let fl := o.args.getD 1 0
  let new := if bitAt fl 0 && bitAt fl 1 then s.stagedImage (o.args.getD 2 0) else none
  if r.fault then (s.when (bitAt fl 0 && bitAt fl 1) fun s => (s.coreStart c).setPair c 2).endLong o.handle st.hwFault
  else
    let s := s.when (bitAt fl 0 && bitAt fl 1) fun s => ((s.coreStart c).setPair c 2).pairRuns c new
    if s.flag F.redundStatus_UNATTENDED then (s.rejoinTake c).endLong o.handle st.ok (packLE 256 [(4, 4, s.beat)])
    else if !s.stateAccepted c new then s.endLong o.handle st.version
    else (s.joinCopy c).endLong o.handle st.ok (packLE 256 [(0, 4, r.nums.headD 0), (4, 4, s.beat)])

/-! ### Installation (spec/17 R518, R527, R528) -/

/-- The installation of component `k` by a restart ends, or of one that nothing restarts; new profiles wait for a PROFILE_APPLY (R518). -/
def State.installed (s : State) (o : LongOp) (k : Nat) (fault : Bool) : State :=
  let s := match restarts k with
    | some c => s.coreReset c
    | none => s
  let img := if fault then none else imageOf s.sec.staged k
  let s := match img with
    | some i => (s.when (k != 7) fun s => s.runImage i).markInstalled k
    | none => s
  let s := match restarts k with
    | some c => s.coreStart c
    | none => s
  let s := if k = 0 ∧ img.isSome then s.migrate else s
  s.endLong o.handle (if fault then st.hwFault else st.ok)

/-- A swap is asked for at the next boundary, unless one is waiting. -/
def State.swapSoon (s : State) : State :=
  if s.redund.swap.isSome then s
  else (s.modRedund fun x => { x with swap := some (s.host.nextId, none) }).modHost fun h => { h with nextId := h.nextId + 1 }

/-- A joining of the TIMING sequence ends: the core runs the staged image in STANDBY, and a swap follows. `args` keeps the core that is to
hold the interlock after it. -/
def State.pairInstalled (s : State) (o : LongOp) (fault : Bool) : State :=
  let c := 1 - s.holder
  let i := imageOf s.sec.staged 1
  if fault then ((s.coreStart c).setPair c 2).endLong o.handle st.hwFault
  else if !s.stateAccepted c i then (((s.coreStart c).setPair c 2).pairRuns c i).endLong o.handle st.version
  else
    ((((s.coreStart c).joinCopy c).pairRuns c i).modLong o.handle fun o => { o with
      progress := o.progress + 1, args := o.args.take 2 ++ [c] }).swapSoon

/-- The final of an UPD_INSTALL: of TIMING, the end of a joining. (DEDUCED, log entry 45) -/
def State.installFinal (s : State) (o : LongOp) (fault : Bool) : State :=
  let k := o.args.getD 0 0
  if k = 5 then (if fault then s.endLong o.handle st.hwFault else s)
  else if k ≠ 1 then s.installed o k fault
  else if o.progress % 2 = 0 then s.pairInstalled o fault
  else s

/-- After order 1 of a boundary: the TIMING sequence goes on where its swap has taken place. (DEDUCED, log entry 45) -/
def State.installStep (s : State) : State :=
  match s.host.longOps.find? fun o => o.op == 0x0E02 && o.args.getD 0 0 == 1 && o.state == .running && o.progress % 2 == 1 with
  | none => s
  | some o =>
    if s.holder = o.args.getD 2 2 then
      if o.progress = 1 then
        let s := s.modLong o.handle fun o => { o with progress := 2 }
        s.rejoinStart (1 - s.holder) true true
      else s.endLong o.handle st.ok
    else if s.redund.swap.isSome then s
    else s.endLong o.handle st.badState

/-! ### Starting and stopping (spec/15 R475, R476) -/

/-- What an operation does when it begins to run, or runs on after a suspension. (DEDUCED, log entry 37) -/
def State.longBegin (s : State) (o : LongOp) : State :=
  let a := fun i => o.args.getD i 0
  match o.op with
  | 0x0204 => s.ucodeBegin (a 0)
  | 0x0205 => (s.pathDrop (a 0)).modCal fun x => { x with eye := x.eye ||| BitVec.ofNat 128 (2 ^ a 0) }
  | 0x0405 => if o.started then s else s.bulkBegin o
  | 0x0501 => s.mapOut (a 0)
  | 0x0801 => if o.started then s.modCal fun x => { x with sweepHold := false } else s.sweepStart o.args
  | 0x0A01 =>
    if o.started then s
    else
      (s.modFm (a 0) fun x => { x with owner := some o.handle, begins := some (boundaryName (o.cmd.fld 8 6) (o.cmd.fld 14 4)) }).showFm (a 0)
  | 0x0B01 => s.rejoinStart (a 0) (bitAt (a 1) 0) (bitAt (a 1) 1)
  | 0x0E01 => s.stageEmpty
  | 0x0E02 => if o.started then s.ucodeBegin o.progress else s.installBegin (a 0)
  | _ => s

/-- The resource of an operation is held by another that runs; only one load of microcode runs at a time, whichever command it belongs to
(spec/01 R45). -/
def State.longBusy (s : State) (o : LongOp) : Bool :=
  (o.op == 0x0E01 && s.sec.erasing) ||
    s.host.longOps.any fun x => x.handle != o.handle && x.state == .running && (x.res == o.res || (o.ucodeOp && x.ucodeOp))

/-- What an operation was accepted under no longer holds when its turn comes: another stack has been mapped out, or a stack to be tested
mapped back in (spec/01 R45, spec/08 R267, R277); a core to be joined has come to hold the interlock
(spec/14 R449), or the other core of the pair is not in STANDBY for an installation of TIMING (spec/17 R528). -/
def State.longRefused (s : State) (o : LongOp) : Bool :=
  match o.op with
  | 0x0501 => s.fld F.deepStatus_MAPPED != 0 || !bitAt (s.fld F.deepStatus_READY) (o.args.getD 0 0)
  | 0x0502 => o.args.getD 1 0 == 1 && o.args.getD 0 0 &&& s.fld F.deepStatus_MAPPED != o.args.getD 0 0
  | 0x0B01 => o.args.getD 0 0 == s.holder && !s.flag F.redundStatus_UNATTENDED
  | 0x0E02 => o.args.getD 0 0 == 1 && !o.started && s.pairState (1 - s.holder) != 3
  | _ => false

/-- The operation runs, or ends with BAD_STATE. (DEDUCED, log entry 37) -/
def State.longRun (s : State) (o : LongOp) : State :=
  if s.longRefused o then s.endLong o.handle st.badState
  else ((s.setLong o.handle .running).modLong o.handle fun o => { o with started := true }).longBegin o

/-- Queued operations whose resource is free start, in order of acceptance (spec/15 R475). (DEDUCED, log entry 37) -/
def State.startQueued (s : State) : State :=
  s.each (s.host.longOps.filter fun o => o.state == .queued) fun s o => if s.longBusy o then s else s.longRun o

/-- Operations that may be suspended (spec/15 R477, spec/17 R527). (DEDUCED, log entry 37) -/
def LongOp.suspendable (o : LongOp) : Bool :=
  [0x0205, 0x0405, 0x0502, 0x0801, 0x0902, 0x0A01].contains o.op || (o.op == 0x0E02 && o.args.getD 0 0 == 5)

/-- Operations that may be cancelled in their present state (spec/15 R477, spec/17 R525, R527). (DEDUCED, log entry 37) -/
def LongOp.cancelable (o : LongOp) : Bool :=
  [0x0205, 0x0405, 0x0502, 0x0801, 0x0902, 0x0A01, 0x0B01, 0x0E01].contains o.op || o.state == .queued

/-- What an operation leaves when it is cancelled. -/
def State.longUndo (s : State) (o : LongOp) : State :=
  let a := fun i => o.args.getD i 0
  match o.op with
  | 0x0101 => s.modPower fun x => { x with applyProf := x.applyProf.filter (·.1 ≠ o.handle) }
  | 0x0205 => s.eyeOff (a 0)
  | 0x0405 => s.modBulk fun l => l.filter (·.handle != o.handle)
  | 0x0801 => if o.started then s.sweepCancel.modCal fun x => { x with sweepHold := false } else s
  | 0x0A01 => if o.started then s.fmRelease (a 0) else s
  | 0x0B01 => if o.started && bitAt (a 1) 0 && bitAt (a 1) 1 then (s.coreStart (a 0)).setPair (a 0) 2 else s
  | 0x0E01 => (if o.started then s.stageEmpty else s).modSec fun x => { x with stage := x.stage.filter (·.1 ≠ o.handle) }
  | _ => s

/-- An operation is cancelled. -/
def State.cancelLong (s : State) (o : LongOp) : State :=
  (s.longUndo o).endLong o.handle st.cancelled (if o.op = 0x0405 then s.bulkData o else 0)

/-- An operation reaches a safe point and is suspended. (DEDUCED, log entry 37) -/
def State.longSuspend (s : State) (o : LongOp) : State :=
  let s := (s.setLong o.handle .suspended).modLong o.handle fun o => { o with suspend := none }
  let s := if !o.started then s else match o.op with
    | 0x0205 => s.eyeOff (o.args.getD 0 0)
    | 0x0801 => s.modCal fun x => { x with sweepHold := true }
    | _ => s
  match o.suspend with
  | some i => s.finish i st.suspended
  | none => s

/-- A sender may name the handle: the host any, a user core those it started (spec/16 R499). -/
def mayName (c : Cmd) (o : LongOp) : Bool :=
  match c.user with
  | none => true
  | some u => o.cmd.user.any fun v => v.1 == u.1

/-- LONG_CTRL. (DEDUCED, log entry 37) -/
def execLongCtrl (c : Cmd) (s : State) : Host.Outcome State Fault Refusal :=
  let act := c.fld 4 1
  .next (s.start c 0x0C01 (c.ok 5 && decide (act < 3)) fun s =>
    match (s.longAt (BitVec.ofNat 32 (c.fld 0 4))).filter (mayName c) with
    | none => s.complete c 0x0C01 st.badArg
    | some o =>
      match act with
      | 0 =>
        if o.state = .suspended then s.complete c 0x0C01 st.suspended
        else if !o.suspendable then s.complete c 0x0C01 st.badState
        else if o.suspend.isSome then s.complete c 0x0C01 st.busy
        else
          let (s, id) := s.parkId c 0x0C01
          s.modLong o.handle fun o => { o with suspend := some id }
      | 1 =>
        if o.state ≠ .suspended then s.complete c 0x0C01 st.badState
        else
          let s := if s.longBusy o then s.setLong o.handle .queued else s.longRun o
          s.complete c 0x0C01 st.ok
      | _ =>
        if !o.cancelable then s.complete c 0x0C01 st.badState
        else ((s.cancelLong o).complete c 0x0C01 st.ok).startQueued)

/-- The operation of a valid handle: one that has ended too, until its final completion has been written (spec/15 R475). (DEDUCED, log entry 37) -/
def State.longHandle (s : State) (h : BitVec 32) : Option LongOp :=
  match s.longAt h with
  | some o => some o
  | none => s.host.ended.find? (·.handle == h)

/-- LONG_QUERY. -/
def execLongQuery (c : Cmd) (s : State) : Host.Outcome State Fault Refusal :=
  .next (s.start c 0x0C02 (c.ok 4) fun s =>
    match (s.longHandle (BitVec.ofNat 32 (c.fld 0 4))).filter (mayName c) with
    | none => s.complete c 0x0C02 st.badArg
    | some o => s.complete c 0x0C02 st.ok (packLE 256 [(0, 1, longCode o.state), (2, 2, o.op), (4, 4, o.progress), (8, 4, o.total),
        (12, 4, ticksMs (s.time.tick - o.tick))]))

/-- The operation waits for host memory that DMA_OFF keeps it from (spec/15 R487). -/
def State.dmaHeld (s : State) (o : LongOp) : Bool := s.flag F.hostifEmerg_DMA_OFF && o.op == 0x0405 && o.cmd.user.isNone

/-- A running operation goes on by one unit of its progress (spec/15 R477): a record of a bulk, a point of an eye scan, a stack of a
scrub. (DEDUCED, log entry 37) -/
def State.longStep (s : State) (o : LongOp) : State :=
  if o.op = 0x0405 then s.bulkStep o.handle
  else if [0x0205, 0x0502].contains o.op then s.modLong o.handle fun o => { o with progress := min o.total (o.progress + 1) }
  else s

/-- LONG_OP_SAFE_POINT: an operation asked to suspend does; else a running one goes on. (DEDUCED, log entry 27) -/
def execLongOpSafePoint (handle : BitVec 32) (s : State) : Host.Outcome State Fault Refusal :=
  .next (match s.longAt handle with
    | none => s
    | some o => if o.suspend.isSome then (s.longSuspend o).startQueued
      else if o.state = .running && !s.dmaHeld o then s.longStep o else s)

/-! ### Ends (spec/15 R475) -/

/-- An eye scan ends: its error counts are in the buffer (spec/04 R143). -/
def State.eyeFinal (s : State) (o : LongOp) (r : LongResult) : State :=
  let s := s.eyeOff (o.args.getD 0 0)
  if r.fault then s.endLong o.handle st.hwFault
  else (s.bufWrite o.cmd.src (o.args.getD 1 0) (4 * o.total) (bytesNat (r.bytes.take (4 * o.total)))).endLong o.handle st.ok

/-- A TABLE_BULK ends with its last record, or in a fault (spec/07 R232, R233). -/
def State.bulkFinal (s : State) (o : LongOp) (fault : Bool) : State :=
  let s := if fault then s.modBulk fun l => l.filter (·.handle != o.handle) else s.bulkEnd o
  s.endLong o.handle (if fault then st.hwFault else st.ok) (match s.longAt o.handle with | some o => s.bulkData o | none => 0)

/-- A scrub or a test of stacks ends (spec/08 R266, R267, R277): the errors corrected in each stack, and the uncorrectable ones of all. -/
def State.scrubFinal (s : State) (o : LongOp) (r : LongResult) : State :=
  let s := s.each (maskIdx 4 (o.args.getD 0 0)) fun s k => s.bump (F.deepEccCorr_COUNT k) (r.nums.getD k 0)
  if r.fault then s.endLong o.handle st.hwFault
  else
    let s := if o.args.getD 1 0 = 1 then
        s.modFabric fun x => { x with tested := x.tested ||| BitVec.ofNat 4 (o.args.getD 0 0) } else s
    s.endLong o.handle st.ok (packLE 256 [(0, 4, ((maskIdx 4 (o.args.getD 0 0)).map fun k => r.nums.getD k 0).foldl (· + ·) 0),
      (4, 4, r.nums.getD 4 0)])

/-- A sweep ends where no run of it is left, or fails (spec/11 R372). -/
def State.sweepFinal (s : State) (o : LongOp) (fault : Bool) : State :=
  if fault then s.sweepCancel.endLong o.handle st.hwFault else s.sweepEnd

/-- A staging ends with the verdict on its bundle (spec/17 R520 to R526). (DEDUCED, log entry 45) -/
def State.stageFinal (s : State) (o : LongOp) (fault : Bool) : State :=
  match s.sec.stage.find? (·.1 == o.handle) with
  | none => s.stageEmpty.endLong o.handle st.hwFault
  | some (_, b) =>
    let b := s.bundleRead b
    let e := if fault then st.hwFault else s.bundleStatus b
    let s := s.modSec fun x => { x with stage := x.stage.filter (·.1 ≠ o.handle) }
    if e ≠ 0 then s.stageEmpty.endLong o.handle e
    else
      let s := s.stageDone b
      s.endLong o.handle st.ok (packLE 256 [(0, 2, s.sec.bundle.toNat), (4, 4, s.sec.stageSeq.toNat)])

/-- A long gate fails in the measurement engine: an uncorrectable error in a bank that the engine owns, or another fault (spec/16 R506);
its end is a command of its own. (DEDUCED, log entry 41) -/
def State.gateFault (s : State) (o : LongOp) (r : LongResult) : State :=
  let own := r.ecc.filter fun e => (s.bankAt (0x10000000 + 4 * e.word)).any fun p => s.bankOwner p.1 == 9
  let e := s.eccBank 9 0x10000000 0x400000 own
  if e.2 || r.fault then (e.1.fmRelease (o.args.getD 0 0)).endLong o.handle st.hwFault else e.1

/-- The end of an operation by what runs it; loads of microcode, map-outs and gates end by commands of their own. -/
def State.longFinal (s : State) (o : LongOp) (r : LongResult) : State :=
  match o.op with
  | 0x0101 => s.profFinal o r.fault
  | 0x0205 => s.eyeFinal o r
  | 0x0405 => s.bulkFinal o r.fault
  | 0x0502 => s.scrubFinal o r
  | 0x0801 => s.sweepFinal o r.fault
  | 0x0902 => s.learnFinal o r.fault
  | 0x0A01 => s.gateFault o r
  | 0x0B01 => s.rejoinFinal o r
  | 0x0E01 => s.stageFinal o r.fault
  | 0x0E02 => s.installFinal o r.fault
  | _ => s

/-- The operation programs or erases the boot flash, which DIP holds: it goes on, and ends, after the dip (spec/03 R106, spec/17 R525); the
installation of SEC writes the migrated profiles (R531). -/
def State.flashHeld (s : State) (o : LongOp) : Bool := s.inDip && (o.op == 0x0E01 || (o.op == 0x0E02 && o.args.getD 0 0 == 0))

/-- LONG_OP_FINAL: an operation one of whose reads gave up fails (spec/15 R482). -/
def execLongOpFinal (handle : BitVec 32) (r : LongResult) (s : State) : Host.Outcome State Fault Refusal :=
  .next (match s.longAt handle with
    | none => s
    | some o => if o.state = .running && !s.flashHeld o && !s.dmaHeld o then
        (s.longFinal o { r with fault := r.fault || o.lower == 4 }).startQueued
      else s)

/-- PROFILE_ERASE_DONE (spec/17 R529): stagings that waited start; the erase is held during DIP (spec/03 R106). -/
def execProfileEraseDone (s : State) : Host.Outcome State Fault Refusal :=
  .next (if s.sec.erasing && !s.inDip then
      (((s.modSec fun x => { x with erasing := false }).setF F.updStatus_MIG_PENDING 0)).startQueued
    else s)

/-! ### Host reads that fail (spec/15 R461, R482) -/

/-- A read gave up, and what it served fails: a command or a long operation with HW_FAULT and LOWER_CAUSE 4, a ring that the host fills with
ERR_CODE 2 (spec/15 R482, R489). (DEDUCED, log entry 38) -/
def State.readGaveUp (s : State) (w : ReadFor) : State :=
  match w with
  | .ring r => if hostFills r.val && s.ringOn r.val then s.ringFail r.val 2 (s.hostIdx r.val) else s
  | .cmd tag =>
    match s.parkedTag tag, s.longTag tag with
    | some p, _ => s.endParked p st.hwFault 0 0 4
    | none, some o =>
      let s := s.modLong o.handle fun o => { o with lower := 4 }
      if s.flashHeld o then s else (s.longFinal o { fault := true }).startQueued
    | none, none => s.modHost fun h => { h with readFail := tag :: h.readFail }

/-- PCIE_CTO: a read is reissued, or its retries are exhausted and what it served fails (spec/15 R461, R482). -/
def execPcieCto (readId : Nat) (what : ReadFor) (s : State) : Host.Outcome State Fault Refusal :=
  .next (if !s.up then s
    else
      let s := (s.bump (F.hostifCnt_COUNT 2)).pcieEvent 2 0
      let r := (Tab.find readId s.host.reads).getD ⟨0, what⟩
      if r.tries < s.fld F.hostifDma_RETRIES then
        (s.modHost fun h => { h with reads := Tab.ins readId { r with tries := r.tries + 1 } h.reads }).showRecovering
      else
        (((s.modHost fun h => { h with reads := Tab.del readId h.reads }).showRecovering).pcieEvent 4 0).readGaveUp r.what)

end Sys2Proof.Machine
end

