-- ==== Sys2Proof/Machine/PowerSet.lean ====
section
/-!
DEFINITION. Sys2Proof/Machine/PowerSet.lean: POWER_STATE_SET and what it does at boundaries (spec/03 R100 to R104), and domain resets (R96).
-/
namespace Sys2Proof.Machine
open Sys2Proof

/-! ### Discarding what is queued -/

/-- Frames that the copies named by `sel` belong to. -/
def State.framesOf (s : State) (sel : Copy → Bool) : Nat :=
  (((s.fabric.eq ++ s.fabric.voq).filter sel).map (·.frame)).eraseDups.length

/-- Queued copies named by `sel` are discarded; no counter of R283 (spec/08) is theirs. (DEDUCED, log entry 20) -/
def State.flushAll (s : State) (sel : Copy → Bool) : State :=
  let go := s.fabric.eq.filter sel ++ s.fabric.voq.filter sel
  let s := s.modFabric fun x => { x with eq := x.eq.filter (!sel ·), voq := x.voq.filter (!sel ·) }
  s.each go fun s c => s.release c (some 11)

/-- No frame waits for a port or is being sent. -/
def State.drained (s : State) : Bool :=
  s.fabric.eq.isEmpty && s.fabric.voq.isEmpty && s.fabric.tx.all fun p => p.2.isNone

/-! ### POWER_STATE_SET (spec/03 R101 to R104) -/

/-- Code of a power state. -/
def PState.code : PState → Nat
  | .normal => 0
  | .quiet => 1
  | .standby => 2

/-- The power state that TARGET codes. -/
def pstateOf (n : Nat) : PState := if n = 0 then .normal else if n = 1 then .quiet else .standby

/-- DRAIN_MS in force. -/
def drainOf (v : Nat) : Nat := if v = 0xFFFF then 10 else min v 100

/-- The transition has reached its target: BUSY and STATE, the completion, POWER_STATE. (DEDUCED, log entry 20) -/
def State.powerDone (s : State) (t : Trans) : State :=
  let s := (s.modPower fun x => { x with trans := none }).setF F.globalPwrState_BUSY 0
  let s := s.setF F.globalPwrState_STATE (if t.target = .normal then 0 else 1)
  (s.finish t.cmd st.ok).raise 0x0103 16 [(0, 1, t.old.code), (1, 1, t.target.code), (4, 4, sat (2 ^ 32 - 1) t.discarded)]

/-- Ports not in `keep` put their lanes in L2, and their hold does not start (spec/03 R102, spec/08 R270); lanes that are disabled, in
quarantine, in a loop or loading stay. (DEDUCED, log entry 20) -/
def State.portsToL2 (s : State) (keep : BitVec 128) : State :=
  s.each (s.ports'.filter fun n => !bitAt keep.toNat n && !([0, 8, 9, 11, 12].contains (s.link n))) fun s n =>
    (s.modFabric fun x => { x with noHold := x.noHold ||| BitVec.ofNat 128 (2 ^ n) }).goLink n 11 15

/-- The main domain goes into STANDBY (spec/03 R103). (DEDUCED, log entry 20) -/
def State.standbyEnter (s : State) (t : Trans) : State :=
  s.mainStop.modPower fun x => { x with
    pstate := .standby, wake := t.wake, railsOff := t.railsOff, armed := false, wakePassed := t.wake.any fun w => decide (w ≤ s.now) }

/-- The drain of a transition ends: what is still queued is flushed, the stacks enter self-refresh, lanes go into L2, and the state is
reached. -/
def State.drainEnd (s : State) (t : Trans) : State :=
  let n := s.framesOf fun _ => true
  let s := ((s.flushAll fun _ => true).modFabric fun x => { x with selfRefresh := true }).portsToL2 t.keep
  let s := s.powerDone { t with discarded := t.discarded + n }
  if t.target = .standby then s.standbyEnter t else s

/-- A transition begins at a boundary: QUIET stops admission and pause; NORMAL ends at once, and the lanes that QUIET put in L2 leave it. (DEDUCED, log entry 20) -/
def State.powerBegin (s : State) (t : Trans) : State :=
  if t.target = .normal then
    let s := (s.modPower fun x => { x with pstate := .normal, keep := 0 }).modFabric fun x => { x with selfRefresh := false }
    let s := s.each ((maskIdx 128 s.fabric.noHold.toNat).filter fun n => s.link n == 11) fun s n =>
      s.modLane n fun x => { x with exiting := true }
    (s.each s.ports' fun s n => (s.clearPause n).showXoff n).powerDone t
  else
    let s := s.modPower fun x => { x with pstate := .quiet, keep := t.keep, trans := some { t with phase := .drain, since := s.time.tick } }
    let s := (s.each s.ports' fun s n => (s.clearPause n).showXoff n).modParked t.cmd fun p => { p with partly := true }
    if s.drained then s.drainEnd t else s

/-- A transition at a boundary (spec/03 R101, R102). (DEDUCED, log entry 20) -/
def State.powerBoundary (s : State) : State :=
  match s.power.trans with
  | none => s
  | some t =>
    match t.phase with
    | .waitOps => if t.ops.all fun h => (s.longAt h).isNone then s.powerBegin t else s
    | .begin => s.powerBegin t
    | .drain => if s.drained then s.drainEnd t else s

/-- POWER_STATE_SET. (DEDUCED, log entry 20) -/
def execPowerStateSet (c : Cmd) (s : State) : Host.Outcome State Fault Refusal :=
  let target := pstateOf (c.fld 0 1)
  let flags := c.fld 1 1
  let sec := c.fld 20 6
  let wake : Option Stamp := if sec = 0 then none else some (sec * stampSec + c.fld 26 4 * 2 ^ 16)
  .next (s.start c 0x0102 (c.ok 30 && decide (c.fld 0 1 < 3) && decide (flags < 4) && decide (c.fld 26 4 < 1000000000)) fun s =>
    let live := s.host.longOps.filter fun o => o.state != .queued
    if s.power.trans.isSome then s.complete c 0x0102 st.busy
    else if target = s.power.pstate then s.complete c 0x0102 st.ok
    else if target = .standby ∧ wake.any (fun t => decide (t ≤ s.now)) then s.complete c 0x0102 st.badArg
    else if target ≠ .normal ∧ !live.isEmpty ∧ !bitAt flags 0 then s.complete c 0x0102 st.badState
    else
      let ops := if target = .normal then [] else live
      let s := s.each (ops.filter (·.cancelable)) State.cancelLong
      let rest := (ops.filter (!·.cancelable)).map (·.handle)
      let (s, id) := s.parkId c 0x0102
      let t : Trans := {
        cmd := id, old := s.power.pstate, target := target, railsOff := bitAt flags 1, drainMs := drainOf (c.fld 2 2)
        keep := if target = .standby then 0 else BitVec.ofNat 128 (c.fld 4 16), wake := wake
        phase := if rest.isEmpty then .begin else .waitOps, ops := rest }
      ((s.modPower fun x => { x with trans := some t }).setF F.globalPwrState_BUSY 1).startQueued)

/-- QUIET_DRAIN_END: DRAIN_MS has passed since the boundary at which the drain began. -/
def execQuietDrainEnd (s : State) : Host.Outcome State Fault Refusal :=
  .next (match s.power.trans with
    | some t => if s.up && t.phase == .drain && decide (t.since + 1600000 * t.drainMs ≤ s.time.tick) then s.drainEnd t else s
    | none => s)

/-! ### Domain resets (spec/03 R96) -/

/-- Registers of lane group `g` but for what shows its lanes' state. (DEDUCED, log entry 21) -/
def inGroup (g a : Nat) : Bool :=
  decide (0x800000 + 0x8000 * g ≤ a) && decide (a < 0x800000 + 0x8000 * (g + 1)) && a % 0x2000 != 0x20

/-- The registers of a lane group; the microcode it runs and its PLL are shown as before. -/
def State.groupRegs (s : State) (g : Nat) : State :=
  let v := s.fld (F.laneGrp_UCODE_VER g)
  ((s.regsRestore (inGroup g)).setF (F.laneGrp_UCODE_VER g) v).showPll g

/-- A port ends its quarantine or its loop and is in DETECT; a load of its microcode runs on. -/
def State.portFresh (s : State) (n : Nat) : State :=
  if s.link n = 8 then s.quarRelease n 0
  else if s.link n = 9 then
    ((s.each (s.portLanes n) fun s m => s.setReg (Reg.laneLoop m) 0).linkFresh n).goLink n 1 0
  else s.linkRestart n 0 true

/-- Domain 0: the group's ports go down and retrain, by the settings of the profile. (DEDUCED, log entry 21) -/
def State.groupReset (s : State) (g : Nat) : State :=
  let s := s.each (s.grpPorts g) State.portFresh
  let s := s.each (((List.range 4).filterMap fun i => s.quarHead (4 * g + i)).eraseDups) fun s n => s.quarRelease n 0
  let s := s.lanesChange (g / 2 * 8) (fun s => s.groupRegs g) fun _ => false
  s.each ((List.range 4).map (4 * g + ·)) fun s m =>
    (s.setF (F.laneStatus_SIGNAL m) 0).modLane m fun x => { x with fomLow := false, klPreset := none, coef := s.startCoef m m }

/-- Registers of port `n`. (DEDUCED, log entry 21) -/
def inPort (n a : Nat) : Bool := decide (0xC00000 + 0x1000 * n ≤ a) && decide (a < 0xC00000 + 0x1000 * n + 0x900)

/-- Counters whose low word lies in a range are 0. -/
def State.countersClear (s : State) (lo hi : Nat) : State :=
  { s with ctr := s.ctr.filter fun e => !(decide (lo ≤ e.1) && decide (e.1 < hi)) }

/-- The station address that a profile gives a port is committed. -/
def State.saRestore (s : State) (n : Nat) : State :=
  let s := { s with ports := { s.ports with sa := Tab.del n s.ports.sa } }
  if s.power.active.settings.any fun t => t.addr == Reg.portSaLo n || t.addr == Reg.portSaHi n then s.saWrite n (s.reg (Reg.portSaHi n)) else s

/-- Domain 1: the port goes down and trains again; its registers and queues. (DEDUCED, log entry 21) -/
def State.portReset (s : State) (n : Nat) : State :=
  let s := (s.portFresh n).flushAll fun c => c.q == n
  let s := (s.regsRestore (inPort n)).countersClear (0xC00000 + 0x1000 * n) (0xC00000 + 0x1000 * n + 0x900)
  ((s.modMac n fun m => { xoff := m.xoff }).saRestore n).showPause n |>.showXoff n

/-- Registers of pipeline `p`. (DEDUCED, log entry 21) -/
def inPipe (p a : Nat) : Bool := decide (0x1000000 + 0x400000 * p ≤ a) && decide (a < 0x1000000 + 0x400000 * (p + 1))

/-- Domain 2: the pipeline's tables and generations are cleared; generation 0 is again that of the active profile, for its contents are of
class B (spec/06 R208). (DEDUCED, log entry 21) -/
def State.pipeReset (s : State) (p : Nat) : State :=
  let s := (s.regsRestore (inPipe p)).countersClear (0x1000000 + 0x400000 * p) (0x1000000 + 0x400000 * (p + 1))
  (s.modPipe p fun _ => {}).genBoot p s.power.active.gens

/-- The stacks are ready, but for the one that BOOT_MAP leaves out (spec/08 R267, R285). -/
def State.deepInit (s : State) : State :=
  let m := s.fld F.deepCfg_BOOT_MAP
  let out := if 1 ≤ m ∧ m ≤ 4 then 2 ^ (m - 1) else 0
  let s := (s.setF F.deepStatus_MAPPED out).setF F.deepStatus_READY (15 - out)
  s.showDeep

/-- Registers of FABRIC and DEEPBUF. (DEDUCED, log entry 21) -/
def inFabric (a : Nat) : Bool := decide (0x2000000 ≤ a) && decide (a < 0x3000000)

/-- Domain 5: the buffers are emptied; no frame of DRAINING is left undecided (spec/06 R202). (DEDUCED, log entry 21) -/
def State.fabricReset (s : State) : State :=
  let s := s.flushAll fun _ => true
  let s := ((s.regsRestore inFabric).countersClear 0x2000000 0x3000000).modFabric fun x => { nextFrame := x.nextFrame, noHold := x.noHold }
  let s := s.each (List.range 4) fun s p => s.setF (F.pipeGenDrain_COUNT p) 0
  s.deepInit

/-- DOMAIN_RESET. Domain 4 takes the rings that its own completion would use; a restart of CORE4 fails the commands it had fetched before. (DEDUCED, log entry 21) -/
def execDomainReset (c : Cmd) (s : State) : Host.Outcome State Fault Refusal :=
  let d := c.fld 0 1
  let i := c.fld 2 2
  let inRange := match d with
    | 0 => decide (i < 32)
    | 2 => decide (i < 4)
    | 3 => decide (2 ≤ i) && decide (i < 8)
    | 4 | 5 => i == 0
    | 1 => s.portExists i
    | _ => false
  .next (s.start c 0x0104 (c.ok 4 [(1, 1)] && inRange) fun s =>
    if (d = 2 ∨ d = 5) ∧ s.power.pstate ≠ .quiet then s.complete c 0x0104 st.badState
    else
      let s := match d with
        | 0 => s.groupReset i
        | 1 => s.portReset i
        | 2 => s.pipeReset i
        | 3 => s.coreRestart i
        | 4 => s.hostReset true
        | _ => s.fabricReset
      s.complete c 0x0104 st.ok)

end Sys2Proof.Machine
end

