-- ==== Sys2Proof/Machine/Boot.lean ====
section
/-!
DEFINITION. Sys2Proof/Machine/Boot.lean: the boot of the main domain (spec/03 R82 to R88; spec/17 R520, R521, R524, R530 to R532; spec/14 R451)
and its joining of the beat.
-/
namespace Sys2Proof.Machine
open Sys2Proof

/-! ### Stages 1 to 3 (spec/03 R82, R85, R86; spec/17 R524) -/

/-- The valid directory copy with the higher sequence number. -/
def bootDir (b : BootInput) : Option Directory :=
  match b.dir0, b.dir1 with
  | some x, some y => if x.seq.toNat < y.seq.toNat then some y else some x
  | some x, none => some x
  | none, d => d

/-- A slot passes stage 3. -/
def State.slotOk' (s : State) (l : List Image) : Bool :=
  (l.all fun i => i.formOk && s.authentic i && !s.rollback i) && ((List.range 7).all fun k => (imageOf l k).isSome) &&
  l.all fun i => i.requires.all (meets l)

/-- The images that the bytes of slot B, or of slot A, hold (spec/17 R519). (DEDUCED, log entry 35) -/
def State.slotImages (s : State) (b : BootInput) (slotB : Bool) : List Image := (if slotB then b.slotB else b.slotA).map s.imageRead

/-- The slot that boots: the directory's, else the other. (DEDUCED, log entry 18) -/
def State.bootSlot (s : State) (d : Directory) (b : BootInput) : Option Bool :=
  if s.slotOk' (s.slotImages b d.slotB) then some d.slotB
  else if s.slotOk' (s.slotImages b !d.slotB) then some !d.slotB
  else none

/-- The profile that the pins, or the override, select, where it is valid (R88); one of an older format is migrated (spec/17 R531). One whose
settings break a nesting rule changes nothing (R98, spec/15 R481). (DEDUCED, log entry 18; DESIGN CHOICE, log entry 57) -/
def State.bootProfile (s : State) (b : BootInput) (idx : Nat) : Option Profile :=
  match imageOf s.sec.running 7, b.profiles[idx]? with
  | some _, some p =>
    if p.crcOk && (!b.sealed || b.sealOk) && s.formatOk p && s.profArgs p s.power.firstBoot &&
        s.configOk p.settings p.sessions s.power.firstBoot && s.gensFit ((List.range 4).zip p.gens) then some p else none
  | _, _ => none

/-! ### Stages 4 and 5 -/

/-- The images of the slot run; the staged set of the other slot is not installed (spec/17 R530). (DEDUCED, log entry 18) -/
def State.bootImages (s : State) (d : Directory) (slotB : Bool) (l : List Image) (ps : List Profile) : State :=
  let s := s.modSec fun x => { x with
    running := l, active := l, slotB := slotB, area := d.area, dirSeq := d.seq, profiles := ps }
  let s := s.each l fun s i => s.setReg (Reg.updCompRun i.comp) i.version
  let s := match imageOf l 5 with
    | some i => s.each (List.range 32) fun s g => s.setF (F.laneGrp_UCODE_VER g) i.version.toNat
    | none => s
  let s := (s.setF F.globalBoot_SLOT (bit slotB)).setF F.updStatus_SLOT (bit slotB)
  s.setF F.updStatus_MIG_PENDING (bit (s.sec.erasing || !s.sec.migrated.isEmpty))

/-- Stage 5: the profile's class B values, its generations, and its class A values at the first boot after an island reset (R87, R88, spec/06
R208). A_APPLIED is set at that
boot whether or not the profile holds a class A value. (DESIGN CHOICE, log entry 57) -/
def State.bootSettings (s : State) (idx : Nat) (p : Option Profile) : State :=
  match p with
  | none => (s.setF F.globalBoot_PROFILE_BAD 1).modPower fun x => { x with alarmBoot := true, firstBoot := false }
  | some p =>
    let a := s.power.firstBoot
    let s := s.settle (fun _ => true) p.settings a true
    let s := s.each (List.range 4) fun s k => s.genBoot k p.gens
    let s := (s.modPower fun x => { x with active := p, mainSet := p.mainOnly, firstBoot := false }).setF F.globalProfile_ACTIVE idx
    let s := s.when a fun s => s.setF F.globalBoot_A_APPLIED 1
    let e := p.settings.any fun t => decide (Reg.evoutCfg 0 ≤ t.addr) && decide (t.addr < Reg.evoutCfg 1)
    let s := s.when (a && e) fun s => s.setF (F.evoutCfg_LOAD 0) 1
    s.each (List.range 128) State.saRestore

/-- Banks after a main reset: each has its owner and its power state (spec/16 R490, R502, R504). (DEDUCED, log entry 18) -/
def State.bootBanks (s : State) : State :=
  let s := s.each (List.range 32) fun s b =>
    (s.setF (F.bankCtrl_OWNER b) (ownerCode (s.fld (F.bankCtrl_NEXT b)))).setF (F.bankCtrl_POWER_STATE b) (min 2 (s.fld (F.bankCtrl_POWER b)))
  s.each (List.range 8) State.showIlv

/-- The pair starts: the core named by BOOT_HOLDER holds the interlock (spec/14 R451). -/
def State.bootPair (s : State) : State :=
  let h := s.fld F.redundCfg_BOOT_HOLDER
  ((s.setF F.redundStatus_HOLDER h).setPair h 4).setPair (1 - h) 3

/-- Stage 15: the ROM of CORE5 serves uploads (spec/03 R82, spec/17 R532). -/
def State.recover (s : State) : State :=
  ((s.setF F.globalBoot_STAGE 15).coreStart 5).modPower fun x => { x with alarmBoot := true }

/-- Stages 3 to 5 with the slot that boots. (DEDUCED, log entry 18) -/
def State.bootRun (s : State) (b : BootInput) (d : Directory) (slotB : Bool) (idx : Nat) : State :=
  let s := s.bootImages d slotB (s.slotImages b slotB) b.profiles
  let p := s.bootProfile b idx
  let s := s.when p.isSome State.migrate
  let s := (s.bootSettings idx p).modPower fun x => { x with wdtTick := s.time.tick, dog := ⟨0, s.time.tick⟩ }
  let s := (s.bootBanks.bootPair).each (List.range 8) State.coreStart
  s.setF F.globalBoot_STAGE 5

/-- MAIN_RESET_RELEASE: the stages up to 5, for which the boot flash gives `boot`. (DEDUCED, log entry 18) -/
def execMainResetRelease (boot : BootInput) (s : State) : Host.Outcome State Fault Refusal :=
  .next (if s.power.aon && s.power.pllLocked && s.power.mainReset && s.power.armed && s.power.mainPwrEn && !s.power.therm then
      let s := s.modPower fun x => { x with
        mainReset := false, armed := false, releaseTick := s.time.tick, causeAtBoot := s.reg Reg.globalResetCause }
      let s := s.coresFrom.setF F.globalProfile_PINS boot.sel.val
      let idx := if s.flag F.globalProfile_OVR_EN then s.fld F.globalProfile_OVR_IDX else boot.sel.val
      let s := s.setF F.globalProfile_OVR_EN 0
      match bootDir boot with
      | none => s.recover
      | some d =>
        match s.bootSlot d boot with
        | none => (s.setF F.globalBoot_SLOT_FALLBACK 1).recover
        | some slotB => (s.setF F.globalBoot_SLOT_FALLBACK (bit (slotB != d.slotB))).bootRun boot d slotB idx
    else s)

/-! ### Stage 6 (spec/03 R82 to R84) -/

/-- The blocks take up the configuration that the boot left, the profile's sessions first (spec/03 R90, spec/04 R128, spec/11 R360, R369,
spec/12 R383, R401, spec/13 R433). -/
def State.joinBlocks (s : State) : State :=
  let s := s.each (s.power.active.sessions.filter fun c => ss.role c != 0) State.sessApply
  let s := s.each ((List.range 256).filter fun k => s.flag (F.slotCfg_EN k)) fun s k => (s.slotCoefs k).slotConfig k 0 0
  let s := s.evoutBoot
  let s := s.each (List.range 2) fun s y => (s.synLoad y).synEnable y false
  let s := s.each ((List.range 4).filter fun d => s.dpllOpen d && s.dpllState d != 5) fun s d => s.dpllOpened d
  let s := s.each ((List.range 16).filter fun c => s.flag (F.candCfg_EN c) && s.candValid c) fun s c => s.candStart c 6
  let s := (s.calJoin.lanesBoot).deepInit
  s.each (s.ports') State.linkLoad

/-- What BOOT_DONE brings with it: the loss of class V state and the detections made meanwhile (spec/17 R534, R536). (DEDUCED, log entry 19) -/
def State.owedEvents (s : State) : State :=
  let s := if s.sec.lostOwed then
      ((s.fresh.modSec fun x => { x with lostOwed := false })).raise 0x0E02 16 [(0, 4, (Config.firstCount s.freeCtr).toNat)]
    else s
  let l := s.sec.owed
  (s.modSec fun x => { x with owed := [] }).each l State.tamperEvent

/-- BOOT_DONE (R84). (DEDUCED, log entry 18) -/
def State.bootDone (s : State) : State :=
  let t := s.time.tick - s.power.releaseTick
  let bad := s.flag F.globalBoot_PROFILE_BAD
  let s := ((s.setF F.globalBoot_STAGE 6).setF F.globalBoot_DONE 1).setF F.globalBoot_BOOT_MS (sat 32767 (ticksMs t))
  s.raise 0x0101 16 [(0, 1, if bad then 0xFF else s.fld F.globalProfile_ACTIVE), (1, 1, s.fld F.globalBoot_SLOT),
    (2, 1, bit bad + 2 * s.fld F.globalBoot_SLOT_FALLBACK + 4 * s.fld F.globalBoot_A_APPLIED),
    (4, 4, s.power.causeAtBoot.toNat), (8, 4, sat (2 ^ 32 - 1) (t / 1600))]

/-- JOIN_BEAT: beat-scheduled work of the main domain begins at this boundary. (DEDUCED, log entry 18) -/
def execJoinBeat (s : State) : Host.Outcome State Fault Refusal :=
  .next (if s.up && !s.power.joined && s.fld F.globalBoot_STAGE == 5 then
      let s := (s.modPower fun x => { x with joined := true }).modTime fun x => { x with beatCount := 0 }
      let s := s.joinBlocks.bootDone.owedEvents
      s.beatFetch.each (List.range 8) State.beatInt
    else s)

end Sys2Proof.Machine
end

