-- ==== Sys2Proof/Machine/Boundary.lean ====
section
/-!
DEFINITION. Sys2Proof/Machine/Boundary.lean: a beat boundary and its actions in their order (spec/01 R27 to R37, R551).
-/
namespace Sys2Proof.Machine
open Sys2Proof

/-! ### Order 2 (spec/01 R29, R31; spec/09 R292) -/

/-- Counter writes due at the present boundary; the state, and whether TCNT0 has stepped. -/
def State.counterWrites (s : State) (refuse : Bool) : State × Bool :=
  let due := s.time.writes.filter fun w => s.dueName w.name
  let s := s.modTime fun x => { x with writes := x.writes.filter fun w => !due.contains w }
  due.foldl (fun a w => let b := a.1.cntWrite w refuse; (b.1, a.2 || b.2)) (s, false)

/-- Order 2: counter writes, then first-lock steps; writes whose boundary a step of TCNT0 has taken run at it, those it has skipped are
dropped. R31 gives the two no order between them. (DESIGN CHOICE, log entry 54) -/
def State.order2 (s : State) : State × Bool :=
  let held := s.frozen
  let (s, st1) := s.counterWrites held
  let st2 := !held && (s.dpll 0).step.isSome && !s.locked 0
  let s := if held then s else s.each (List.range 4) State.firstStep
  if st1 || st2 then
    let (s, st3) := s.counterWrites held
    (s.dropSkipped, st1 || st2 || st3)
  else (s.dropSkipped, false)

/-! ### Order 3 -/

/-- Order 3: selections decided at the last boundary, servo results, rate words (spec/01 R31, spec/14 R446, spec/03 R106). -/
def State.order3 (s : State) : State :=
  let held := s.frozen
  let s := s.forceBoundary
  let s := if held then s else s.each (List.range 4) State.dpllTake
  let s := s.slotResults held
  if held then
    s.each (List.range 4) fun s d =>
      let s := s.dpllHold d
      if s.redund.nowHeld && !s.flag (F.dpllCfg_SW_SRC d) && (s.dpll d).sw.isSome then s.modDpll d fun x => { x with sw := none } else s
  else s.each (List.range 4) State.dpllRun

/-! ### Order 4 -/

/-- First indices of the registers of some rows that a list of writes names. -/
def touched (l : List Waiting) (bases : List Nat) : List Nat :=
  (l.filterMap fun p => (RegMap.find p.addr).bind fun h => if bases.contains h.row.base then some h.i else none).eraseDups

/-- The word waits with the coefficients of its slot, whose UPD is set, for a boundary that is not held (spec/10 R339, spec/14 R446). (DEDUCED, log entry 13) -/
def State.withCoefs (s : State) (x : Waiting) : Bool :=
  match RegMap.find x.addr with
  | some h => (h.row.base == Reg.slotCfg 0 || h.row.base == Reg.slotIvl 0) && s.flag (F.slotCfg_UPD h.i)
  | none => false

/-- The register writes that wait for the boundary take effect, and what they configure follows (spec/18 R546); a bit of type RWS stands as
it is, for its own action clears it (spec/00 R16). At a held boundary what waits with deferred coefficients waits on. (DEDUCED, log entry 11) -/
def State.applyWaiting (s : State) : State :=
  let l := s.waiting.filter fun x => !(s.redund.nowHeld && s.withCoefs x)
  if l.isEmpty then s
  else
    let old := s
    let s : State := { s with waiting := s.waiting.filter fun x => s.redund.nowHeld && s.withCoefs x }
    let s := s.each (touched l [Reg.imCfg 0, Reg.imStopsLo 0, Reg.imStopsHi 0, Reg.imWindow 0]) State.imConfig
    let s := s.each l fun s p => s.setReg p.addr ((p.word &&& ~~~(rwsMask p.addr)) ||| (s.reg p.addr &&& rwsMask p.addr))
    let s := s.each (touched l [Reg.slotCfg 0, Reg.slotIvl 0]) fun s k => s.slotConfig k (old.reg (Reg.slotCfg k)) (old.reg (Reg.slotIvl k))
    let s := s.each (touched l [Reg.candCfg 0, Reg.candNom 0, Reg.candNomf 0]) fun s c => s.candConfig c (old.candWords c)
    let s := s.each (touched l [Reg.evinCfg 0]) fun s n => s.evinConfig n (old.reg (Reg.evinCfg n))
    let s := s.each (touched l [Reg.fmCfg 0, Reg.fmGate 0]) State.fmConfig
    let s := s.each (touched l [Reg.iaTh 0, Reg.iaHr 0]) fun s j => s.acctXoff (j / 16) (j % 16)
    let s := s.each (touched l [Reg.eqSpill 0]) fun s j => s.spillState (j / 16) (j % 16)
    if (touched l [Reg.iaHr 0, Reg.fabricPool]).isEmpty then s else s.showDeep

/-- Order 4: settings (spec/03 R90), coefficients (spec/10 R339), sessions (R323, R324), calibration results (spec/11 R357, R364), link
figures (R369). (DEDUCED, log entry 11) -/
def State.order4 (s : State) : State :=
  let s := s.profBoundary.applyWaiting
  let s := if s.redund.nowHeld then s else s.coefBoundary
  s.sessBoundary.sessGone.calBoundary.linkBoundary

/-! ### Orders 7 and 8 -/

/-- Order 7: pulse schedules (spec/13 R431, spec/14 R446). -/
def State.order7 (s : State) : State :=
  s.each (List.range 16) fun s k => if s.redund.nowHeld then s.evoutDefer k else s.evoutLoads k

/-- Order 8: candidates, disputes, selections; a beat with a part in DIP is not evaluated (spec/12 R381, R384, R387; spec/03 R106). (DEDUCED, log entry 11) -/
def State.order8 (s : State) (skip : Bool) : State :=
  if skip then s
  else
    let s := s.each (List.range 16) State.candEval
    let s := s.each (List.range 4) State.disputes
    s.each (List.range 4) State.dpllDecide

/-! ### The boundary -/

/-- Ticks pass to the boundary tick: the beat gets its name, and the length of the one that ends is shown (spec/01 R28, R36, R37); a latch
with MODE 0 that falls on it belongs to the new beat (spec/09 R315). -/
def State.toBoundary (s : State) : State :=
  let k := s.time.beatLen - s.time.beatTicks
  let here := s.time.snap && !s.flag F.tbSnapCtrl_MODE && k == 1
  let s := if here then s.ticks k else s.pass k
  let n := s.time.beatTicks
  let s := s.modTime fun x => { x with beatTicks := 0, bounds := x.bounds + 1, idx := (s.cnt 0).val / beatUnits }
  let s := (s.setF F.globalBeatLen_LAST_TICKS (min 65535 n)).showBeat
  if here then s.latchCounters else s

/-- The beat record (spec/09 R290). (DEDUCED, log entry 15) -/
def State.record (s : State) : State := s.modTime fun x => { x with recs := (x.cnt :: x.recs).take 4 }

/-- What the island does at a boundary while the main domain has not joined the beat (spec/01 R42, R43). (DEDUCED, log entry 15) -/
def State.islandBoundary (s : State) : State := ((if s.inDip then s.dpllHold 0 else s.dpllRun 0).evoutLoads 0).record

/-- The cores run and the main domain has not joined the beat: what the pair did in the beat that ends is not judged (spec/14 R444); another
32 kick fetches may be issued (spec/15 R465). -/
def State.pairBoundary (s : State) : State :=
  (s.boardPin.modRedund fun x => { x with seen := 0, sig0 := [], sig1 := [] }).modHost fun h => { h with kicksThisBeat := 0 }

/-- At a held boundary the pair's staged writes are discarded, but for what belongs to deferred coefficients (spec/14 R446). (DEDUCED, log entry 13) -/
def State.dropStaged (s : State) : State :=
  if s.redund.nowHeld then { s with waiting := s.waiting.filter fun x => !x.pair || s.withCoefs x } else s

/-- Order 1: heartbeats and the interlock. -/
def State.order1 (s : State) (skip : Bool) : State := (s.redundBoundary skip).dropStaged.installStep

/-- After order 2: where TCNT0 has stepped, a PAIR_SWAP named for the beat whose name the boundary has taken runs here, and one named
for a beat that the step has skipped is dropped (spec/00 R15, spec/01 R29). -/
def State.swapStepped (s : State) (stepped : Bool) : State :=
  if stepped then s.swapStep.dropStaged.installStep else s

/-- Seconds of anchor `d` have advanced since the last beat record. -/
def State.newSecond (s : State) (d : Nat) : Bool :=
  (s.cnt d).val / unitsPerSec != (recCnt (s.time.recs.headD []) d).val / unitsPerSec

/-- Work of every boundary that R31 gives no place: measurement results, gates, flaps, bandwidth, back-off, quality levels, slots due. (DEDUCED, log entry 15) -/
def State.boundaryEnd (s : State) : State :=
  let s := s.each ((List.range 4).filter s.newSecond) State.clkSecond
  let s := (s.each (List.range 16) State.fmBoundary).measBoundary
  let s := s.flapBoundary.milletBoundary.showBackoff.showStale.esmcBoundary
  (s.showServo.slotCountdown).record

/-- Order 9: the doorbell fetch and the beat interrupts (spec/01 R31). -/
def State.order9 (s : State) : State := s.beatFetch.each (List.range 8) State.beatInt

/-- The actions of a boundary in their order, and whether TCNT0 has stepped. (DEDUCED, log entry 12; DEDUCED, log entry 13; DEDUCED, log entry 15) -/
def State.mainBoundary (s : State) : State × Bool :=
  let skip := s.power.dipBeat
  let s := (s.measBegin.laneBeat (s.fld F.globalBeatLen_LAST_TICKS)).dpllReport 0
  let s := s.modTime fun x => { x with beatCount := x.beatCount + 1 }
  let s := s.order1 skip
  let (s, stepped) := s.order2
  let s := (s.swapStepped stepped).order3.scaleRates.order4
  let s := s.commitBoundary (s.frozen || s.replaced 3)
  let s := s.profCommits (s.frozen || s.replaced 3)
  let s := (s.snapBoundary.order7.order8 skip).boundaryEnd
  (s.order9.startQueued.powerBoundary, stepped)

/-- What happens at a boundary, and whether TCNT0 has stepped: a soft reset that waits for it comes first (spec/03 R93, R94). (DEDUCED, log entry 13) -/
def State.boundary (s : State) : State × Bool :=
  let s := if s.up && s.power.softPending then s.mainReset 6 false else s
  if s.joinedBeat then s.mainBoundary
  else (if s.up then s.pairBoundary.measBegin.applyWaiting.islandBoundary else s.islandBoundary, false)

/-- The dip at a boundary: the beat that begins has a part in it. (DEDUCED, log entry 12) -/
def State.dipBoundary (s : State) : State :=
  s.modPower fun x => { x with dipBeat := x.dip.isSome, dip := x.dip.map fun d => { d with beats := d.beats + 1 } }

/-- A latch asked for with MODE 1 (spec/09 R291). -/
def State.snapLatch (s : State) : State :=
  if s.up && s.time.snap && s.flag F.tbSnapCtrl_MODE then s.latchCounters else s

/-- The main domain has been held in reset since before this boundary, and the wake time had passed then (spec/03 R101). -/
def State.wakeDue (s : State) : Bool := s.power.pstate == .standby && s.power.wakePassed

/-- STANDBY ends at the first boundary after the main domain has been held in reset, where the wake time had passed by then (spec/03
R101). (DEDUCED, log entry 20) -/
def State.wakeBoundary (s : State) (due : Bool) : State := s.when due State.standbyExit

/-- BEAT_BOUNDARY. -/
def execBeatBoundary (s : State) : Host.Outcome State Fault Refusal :=
  .next (if s.power.aon && s.power.pllLocked then
      let due := s.wakeDue
      let (s, stepped) := s.toBoundary.boundary
      (s.dipBoundary.snapLatch.wakeBoundary due).planBeat stepped
    else s)

end Sys2Proof.Machine
end

