-- ==== Sys2Proof/Machine/Riscv.lean ====
section
/-!
DEFINITION. Sys2Proof/Machine/Riscv.lean: the instructions of the control cores (spec/16 R492, R493, R497, R505, R506): RV32I, M and C as
the RISC-V unprivileged specification encodes them, the custom-0 instructions, the core's address map, one instruction's execution; and
the commands of that kind.
-/
namespace Sys2Proof.Machine
open Sys2Proof

/-! ### Instructions -/

inductive AluOp where
  | add | sub | sll | slt | sltu | xor | srl | sra | or | and
  | mul | mulh | mulhsu | mulhu | div | divu | rem | remu
  deriving DecidableEq, Repr

inductive BrCond where
  | eq | ne | lt | ge | ltu | geu
  deriving DecidableEq, Repr

/-- The custom instructions of spec/16 R493; the width of KS.CRC in bytes. -/
inductive KsOp where
  | tsnap | tget | wfb | wfe | pcnt | tret
  | crc (bytes : Nat)
  deriving DecidableEq, Repr

inductive Rv where
  | lui (rd : Nat) (imm : Word)
  | auipc (rd : Nat) (imm : Word)
  | jal (rd : Nat) (off : Word)
  | jalr (rd rs1 : Nat) (off : Word)
  | branch (c : BrCond) (rs1 rs2 : Nat) (off : Word)
  | load (bytes : Nat) (signed : Bool) (rd rs1 : Nat) (off : Word)
  | store (bytes : Nat) (rs1 rs2 : Nat) (off : Word)
  | aluImm (op : AluOp) (rd rs1 : Nat) (imm : Word)
  | alu (op : AluOp) (rd rs1 rs2 : Nat)
  | fence
  | ecall
  | ebreak
  | ks (op : KsOp) (rd rs1 rs2 : Nat)
  deriving DecidableEq, Repr

/-! ### Decoding of 32-bit instructions -/

/-- Bits `hi` to `lo` of an instruction. -/
def bitsOf (w : Word) (hi lo : Nat) : Nat := (w.toNat >>> lo) % 2 ^ (hi - lo + 1)

/-- A number of `n` bits, sign extended to a word. -/
def sext (n v : Nat) : Word := BitVec.ofInt 32 (sgn n v)

def immI (w : Word) : Word := sext 12 (bitsOf w 31 20)
def immS (w : Word) : Word := sext 12 (bitsOf w 31 25 * 32 + bitsOf w 11 7)
def immB (w : Word) : Word :=
  sext 13 (bitsOf w 31 31 * 4096 + bitsOf w 7 7 * 2048 + bitsOf w 30 25 * 32 + bitsOf w 11 8 * 2)
def immU (w : Word) : Word := w &&& 0xFFFFF000#32
def immJ (w : Word) : Word :=
  sext 21 (bitsOf w 31 31 * 1048576 + bitsOf w 19 12 * 4096 + bitsOf w 20 20 * 2048 + bitsOf w 30 21 * 2)

def brCond (f3 : Nat) : Option BrCond :=
  match f3 with
  | 0 => some .eq
  | 1 => some .ne
  | 4 => some .lt
  | 5 => some .ge
  | 6 => some .ltu
  | 7 => some .geu
  | _ => none

/-- The operation of OP with funct7 `f7` and funct3 `f3`. -/
def aluOf (f7 f3 : Nat) : Option AluOp :=
  if f7 = 0 then ([.add, .sll, .slt, .sltu, .xor, .srl, .or, .and] : List AluOp)[f3]?
  else if f7 = 1 then ([.mul, .mulh, .mulhsu, .mulhu, .div, .divu, .rem, .remu] : List AluOp)[f3]?
  else if f7 = 0x20 ∧ f3 = 0 then some .sub
  else if f7 = 0x20 ∧ f3 = 5 then some .sra
  else none

/-- The custom-0 instruction of funct7 `f7` and funct3 `f3` (spec/16 R493). (PRESUMED, log entry 39) -/
def ksOf (f7 f3 : Nat) : Option KsOp :=
  match f7, f3 with
  | 0, 0 => some .tsnap
  | 0, 1 => some .tget
  | 0, 2 => some .wfb
  | 0, 3 => some .wfe
  | 0, 4 => some (.crc 1)
  | 1, 4 => some (.crc 2)
  | 2, 4 => some (.crc 4)
  | 0, 5 => some .pcnt
  | 0, 6 => some .tret
  | _, _ => none

/-- The 32-bit instruction that a word encodes (spec/16 R492, R493). (PRESUMED, log entry 39) -/
def decode32 (w : Word) : Option Rv :=
  let rd := bitsOf w 11 7
  let rs1 := bitsOf w 19 15
  let rs2 := bitsOf w 24 20
  let f3 := bitsOf w 14 12
  let f7 := bitsOf w 31 25
  match bitsOf w 6 0 with
  | 0x37 => some (.lui rd (immU w))
  | 0x17 => some (.auipc rd (immU w))
  | 0x6F => some (.jal rd (immJ w))
  | 0x67 => if f3 = 0 then some (.jalr rd rs1 (immI w)) else none
  | 0x63 => (brCond f3).map fun c => .branch c rs1 rs2 (immB w)
  | 0x03 =>
    match f3 with
    | 0 => some (.load 1 true rd rs1 (immI w))
    | 1 => some (.load 2 true rd rs1 (immI w))
    | 2 => some (.load 4 true rd rs1 (immI w))
    | 4 => some (.load 1 false rd rs1 (immI w))
    | 5 => some (.load 2 false rd rs1 (immI w))
    | _ => none
  | 0x23 =>
    match f3 with
    | 0 => some (.store 1 rs1 rs2 (immS w))
    | 1 => some (.store 2 rs1 rs2 (immS w))
    | 2 => some (.store 4 rs1 rs2 (immS w))
    | _ => none
  | 0x13 =>
    if f3 = 1 ∨ f3 = 5 then
      (if f7 = 1 then none else aluOf f7 f3).map fun op => .aluImm op rd rs1 (BitVec.ofNat 32 rs2)
    else (aluOf 0 f3).map fun op => .aluImm op rd rs1 (immI w)
  | 0x33 => (aluOf f7 f3).map fun op => .alu op rd rs1 rs2
  | 0x0F => if f3 < 2 then some .fence else none
  | 0x73 => if w = 0x00000073#32 then some .ecall else if w = 0x00100073#32 then some .ebreak else none
  | 0x0B => (ksOf f7 f3).map fun op => .ks op rd rs1 rs2
  | _ => none

/-! ### Decoding of compressed instructions -/

/-- Quadrant 0: `r` and `p` are the registers of bits 4:2 and 9:7. -/
def decodeC0 (w : Word) (r p : Nat) : Option Rv :=
  let lw := BitVec.ofNat 32 (bitsOf w 12 10 * 8 + bitsOf w 6 6 * 4 + bitsOf w 5 5 * 64)
  match bitsOf w 15 13 with
  | 0 =>
    let n := bitsOf w 12 11 * 16 + bitsOf w 10 7 * 64 + bitsOf w 6 6 * 4 + bitsOf w 5 5 * 8
    if n = 0 then none else some (.aluImm .add r 2 (BitVec.ofNat 32 n))
  | 2 => some (.load 4 true r p lw)
  | 6 => some (.store 4 p r lw)
  | _ => none

/-- The offset of C.J and C.JAL, and of C.BEQZ and C.BNEZ. -/
def immCJ (w : Word) : Word :=
  sext 12 (bitsOf w 12 12 * 2048 + bitsOf w 11 11 * 16 + bitsOf w 10 9 * 256 + bitsOf w 8 8 * 1024 + bitsOf w 7 7 * 64 +
    bitsOf w 6 6 * 128 + bitsOf w 5 3 * 2 + bitsOf w 2 2 * 32)
def immCB (w : Word) : Word :=
  sext 9 (bitsOf w 12 12 * 256 + bitsOf w 11 10 * 8 + bitsOf w 6 5 * 64 + bitsOf w 4 3 * 2 + bitsOf w 2 2 * 32)

/-- Quadrant 1; `d` is the register of bits 11:7. -/
def decodeC1 (w : Word) (r p d : Nat) : Option Rv :=
  let n := bitsOf w 12 12 * 32 + bitsOf w 6 2
  match bitsOf w 15 13 with
  | 0 => some (.aluImm .add d d (sext 6 n))
  | 1 => some (.jal 1 (immCJ w))
  | 2 => some (.aluImm .add d 0 (sext 6 n))
  | 3 =>
    if n = 0 then none
    else if d = 2 then
      some (.aluImm .add 2 2 (sext 10 (bitsOf w 12 12 * 512 + bitsOf w 6 6 * 16 + bitsOf w 5 5 * 64 + bitsOf w 4 3 * 128 + bitsOf w 2 2 * 32)))
    else some (.lui d (sext 18 (n * 4096)))
  | 4 =>
    match bitsOf w 11 10 with
    | 0 => if n < 32 then some (.aluImm .srl p p (BitVec.ofNat 32 n)) else none
    | 1 => if n < 32 then some (.aluImm .sra p p (BitVec.ofNat 32 n)) else none
    | 2 => some (.aluImm .and p p (sext 6 n))
    | _ =>
      if 32 ≤ n then none
      else (([.sub, .xor, .or, .and] : List AluOp)[bitsOf w 6 5]?).map fun op => .alu op p p r
  | 5 => some (.jal 0 (immCJ w))
  | 6 => some (.branch .eq p 0 (immCB w))
  | _ => some (.branch .ne p 0 (immCB w))

/-- Quadrant 2; `t` is the register of bits 6:2. -/
def decodeC2 (w : Word) (d t : Nat) : Option Rv :=
  match bitsOf w 15 13 with
  | 0 => if bitsOf w 12 12 = 0 then some (.aluImm .sll d d (BitVec.ofNat 32 (bitsOf w 6 2))) else none
  | 2 =>
    if d = 0 then none
    else some (.load 4 true d 2 (BitVec.ofNat 32 (bitsOf w 12 12 * 32 + bitsOf w 6 4 * 4 + bitsOf w 3 2 * 64)))
  | 4 =>
    if bitsOf w 12 12 = 0 then
      if t ≠ 0 then some (.alu .add d 0 t) else if d = 0 then none else some (.jalr 0 d 0)
    else if t ≠ 0 then some (.alu .add d d t)
    else if d = 0 then some .ebreak
    else some (.jalr 1 d 0)
  | 6 => some (.store 4 2 t (BitVec.ofNat 32 (bitsOf w 12 9 * 4 + bitsOf w 8 7 * 64)))
  | _ => none

/-- The 16-bit instruction that a halfword encodes (spec/16 R492). (PRESUMED, log entry 39) -/
def decode16 (w : Word) : Option Rv :=
  let r := 8 + bitsOf w 4 2
  let p := 8 + bitsOf w 9 7
  let d := bitsOf w 11 7
  match bitsOf w 1 0 with
  | 0 => decodeC0 w r p
  | 1 => decodeC1 w r p d
  | 2 => decodeC2 w d (bitsOf w 6 2)
  | _ => none

/-! ### Arithmetic -/

/-- The result of an operation; a quotient by 0 is all ones and its remainder the dividend, and the most negative number by -1 is itself
with remainder 0 (RISC-V M). (PRESUMED, log entry 39) -/
def AluOp.run (op : AluOp) (a b : Word) : Word :=
  match op with
  | .add => a + b
  | .sub => a - b
  | .sll => a <<< (b.toNat % 32)
  | .slt => if a.slt b then 1 else 0
  | .sltu => if a.ult b then 1 else 0
  | .xor => a ^^^ b
  | .srl => a >>> (b.toNat % 32)
  | .sra => a.sshiftRight (b.toNat % 32)
  | .or => a ||| b
  | .and => a &&& b
  | .mul => a * b
  | .mulh => BitVec.ofInt 32 (a.toInt * b.toInt / 2 ^ 32)
  | .mulhsu => BitVec.ofInt 32 (a.toInt * (b.toNat : Int) / 2 ^ 32)
  | .mulhu => BitVec.ofNat 32 (a.toNat * b.toNat / 2 ^ 32)
  | .div => if b = 0 then 0xFFFFFFFF#32 else BitVec.ofInt 32 (a.toInt.tdiv b.toInt)
  | .divu => if b = 0 then 0xFFFFFFFF#32 else BitVec.ofNat 32 (a.toNat / b.toNat)
  | .rem => if b = 0 then a else BitVec.ofInt 32 (a.toInt.tmod b.toInt)
  | .remu => if b = 0 then a else BitVec.ofNat 32 (a.toNat % b.toNat)

/-- Whether a branch is taken (spec/16 R492). (PRESUMED, log entry 39) -/
def BrCond.holds (c : BrCond) (a b : Word) : Bool :=
  match c with
  | .eq => a == b
  | .ne => a != b
  | .lt => a.slt b
  | .ge => !a.slt b
  | .ltu => a.ult b
  | .geu => !a.ult b

/-- Event of R510 that an operation counts. -/
def AluOp.event (op : AluOp) : Option Nat :=
  match op with
  | .mul | .mulh | .mulhsu | .mulhu => some 23
  | .div | .divu | .rem | .remu => some 24
  | _ => none

/-! ### Registers of a core -/

def State.getX (s : State) (c r : Nat) : Word := if r = 0 then 0 else Tab.get (s.core c).x 0 r

/-- x0 discards writes. -/
def State.setX (s : State) (c r : Nat) (v : Word) : State :=
  if r = 0 then s else s.modCore c fun x => { x with x := Tab.put x.x 0 r v }

def State.setPc (s : State) (c : Nat) (v : Word) : State := s.modCore c fun x => { x with pc := v }

/-! ### The address map (spec/16 R497, R505, R506) -/

/-- `n` bytes at address `a` lie in the region of `size` bytes at `base`. -/
def inRegion (a n base size : Nat) : Bool := decide (base ≤ a) && decide (a + n ≤ base + size)

/-- An access to a linear bank that spans two words is counted (spec/16 R505, R510). (DEDUCED, log entry 41) -/
def State.splitBank (s : State) (c a n : Nat) : State :=
  if 4 < a % 4 + n ∧ !s.flag (F.quad_ILV_ACTIVE ((a - 0x10000000) / 0x80000)) then s.perf c 18 else s

/-- What the check bits report of core `c`'s access to `n` bytes at `a` (spec/16 R506): the state, and the cause of a trap. (DEDUCED, log entry 41) -/
def State.eccCheck (s : State) (c a n : Nat) (es : List EccErr) : State × Option Nat :=
  let r := s.eccBank c a n es
  (r.1, if r.2 then some 7 else none)

/-- A register read of a core. One of the pair in lockstep is performed once, by the core that comes to it first, and its value waits for the
other (spec/14 R441); where the holder reads another register than the one that waits, lockstep is lost, and its own read is performed.
A core of the pair that is not in lockstep reads without effect. (DEDUCED, log entry 41; DEDUCED, log entry 46) -/
def State.coreRegRead (s : State) (c a : Nat) : State × Word :=
  let r := s.regValue a
  if 2 ≤ c then r
  else if c ≠ s.holder ∧ s.pairState c ≠ 3 then (s, r.2)
  else
    match s.redund.reads.find? fun p => p.1 == c with
    | some p =>
      if c ≠ s.holder ∨ p.2.1 = a then (s.modRedund fun x => { x with reads := x.reads.erase p }, p.2.2)
      else (r.1.modRedund fun x => { x with reads := [(1 - c, a, r.2)] }, r.2)
    | none => if s.pairState (1 - s.holder) = 3 then (r.1.modRedund fun x => { x with reads := x.reads ++ [(1 - c, a, r.2)] }, r.2) else r

/-- A load of `n` bytes by core `c`: the state, the cause of a trap, the value. (DEDUCED, log entry 41) -/
def State.coreLoad (s : State) (c a n : Nat) (ecc : List EccErr) : State × Option Nat × Nat :=
  if c = 5 ∧ inRegion a n 0 0x10000 then (s, none, bytesNat ((List.range n).map fun i => Config.bootRom (a + i)))
  else if s.rangeOpen c a n then
    let r := (s.splitBank c a n).eccCheck c a n ecc
    (r.1, r.2, s.memRead a n)
  else if inRegion a n 0x20000000 0x2000 then (s, none, bytesNat ((List.range n).map fun i => s.localByte c (a - 0x20000000 + i)))
  else if c < 6 ∧ inRegion a 1 0x30000000 0x4000000 ∧ Config.roleReads c (a - 0x30000000) then
    if n = 4 ∧ a % 4 = 0 then
      let r := s.coreRegRead c (a - 0x30000000)
      (r.1.perf c 26, none, r.2.toNat)
    else (s.badAccess, none, 2 ^ (8 * n) - 1)
  else if inRegion a n 0x40000000 0xC04 then
    (s, none, (s.host.userArea.toNat + 2 ^ 24576 * s.host.userSeq.toNat) / 2 ^ (8 * (a - 0x40000000)) % 2 ^ (8 * n))
  else (s, some 4, 0)

/-- A store into the local block, by byte lanes of its words; mailbox slots by bytes. (DEDUCED, log entry 41) -/
def State.localStore (s : State) (c o n v : Nat) : State :=
  if o < 0x1000 then
    let sh := 8 * (o % 4)
    let m := (2 ^ (8 * n) - 1) * 2 ^ sh
    let x := v * 2 ^ sh
    let s := s.localWrite c (o / 4 * 4) (BitVec.ofNat 32 m) (BitVec.ofNat 32 x)
    if m < 2 ^ 32 then s else s.localWrite c (o / 4 * 4 + 4) (BitVec.ofNat 32 (m / 2 ^ 32)) (BitVec.ofNat 32 (x / 2 ^ 32))
  else
    s.each (List.range n) fun s i => if 6 ≤ c ∧ o + i < 0x1400 then s.mbByte c (o + i) (BitVec.ofNat 8 (v / 2 ^ (8 * i))) else s

/-- A store of `n` bytes by core `c`: the state, and the cause of a trap. A store to part of a word of a bank reads the word, whose check
bits may show an error (spec/16 R506); no part is then written (R505). (DEDUCED, log entry 41) -/
def State.coreStore (s : State) (c : Fin 8) (a n : Nat) (v : Word) (ecc : List EccErr) : State × Option Nat :=
  if s.rangeOpen c a n then
    let r := (s.splitBank c a n).eccCheck c a n (if n = 4 ∧ a % 4 = 0 then [] else ecc)
    (if r.2.isSome then r.1 else r.1.memWrite a n v.toNat, r.2)
  else if inRegion a n 0x20000000 0x2000 then (s.localStore c (a - 0x20000000) n (v.toNat % 2 ^ (8 * n)), none)
  else if c.val < 6 ∧ inRegion a 1 0x30000000 0x4000000 ∧ Config.roleWrites c (a - 0x30000000) then
    if n = 4 ∧ a % 4 = 0 then ((s.perf c 27).regWrite (.core c) (a - 0x30000000) v, none) else (s.badAccess, none)
  else (s, some 5)

/-! ### Execution -/

/-- An instruction of `len` bytes retires; `next` is where the core goes on (spec/16 R510, R512). -/
def State.retire (s : State) (c len : Nat) (insn daddr next : Word) : State :=
  let pc := (s.core c).pc
  let s := s.useSlot c 3
  let s := if len = 2 then s.perf c 15 else s
  (s.tagDone c pc insn 0 daddr).setPc c next

/-- An instruction traps instead of retiring. (DEDUCED, log entry 40) -/
def State.rvTrap (s : State) (c cause : Nat) (insn daddr val : Word) : State :=
  let s := s.squash c insn daddr 2
  if cause = 4 ∨ cause = 5 ∨ cause = 1 then s.accessFault c cause val else s.trap c cause val

/-- The interrupt that a sleeping instruction waits for is pending (spec/16 R493). -/
def State.awaited (s : State) (c : Nat) (w : Sleep) : Bool :=
  match w with
  | .wfb _ => (s.core c).intPend.getLsbD 2
  | .wfe _ => s.intDue c != 0

/-- KS.WFB and KS.WFE end: the beat interrupt is acknowledged, or INT_PEND read. -/
def State.sleepEnd (s : State) (c : Nat) (w : Sleep) : State :=
  match w with
  | .wfb rd =>
    let v := (s.core c).beatSkipped
    (s.beatAck c).setX c rd (BitVec.ofNat 32 v)
  | .wfe rd => s.setX c rd ((s.core c).intPend.setWidth 32)

/-- The core falls asleep: its slots are classified (spec/16 R511). -/
def State.sleepStart (s : State) (c : Nat) (w : Sleep) : State :=
  ((s.chargeSlots c 0).setCoreState c 2).modCore c fun x => { x with sleep := some w, sleepAt := some (s.cycles c) }

/-- The custom instruction word, for a tag record. -/
def ksWord (op : KsOp) (rd rs1 rs2 : Nat) : Word :=
  let f := match op with
    | .tsnap => (0, 0)
    | .tget => (0, 1)
    | .wfb => (0, 2)
    | .wfe => (0, 3)
    | .crc n => (n / 2, 4)
    | .pcnt => (0, 5)
    | .tret => (0, 6)
  BitVec.ofNat 32 (f.1 * 2 ^ 25 + rs2 % 32 * 2 ^ 20 + rs1 % 32 * 2 ^ 15 + f.2 * 2 ^ 12 + rd % 32 * 2 ^ 7 + 0x0B)

/-- Part `k` of the time a core holds (spec/16 R493). -/
def CoreSt.heldPart (x : CoreSt) (k : Word) : Word :=
  if k = 0 then BitVec.ofNat 32 (Stamp.sec x.holdTime)
  else if k = 1 then BitVec.ofNat 32 (Stamp.sec x.holdTime / 2 ^ 32)
  else if k = 2 then BitVec.ofNat 32 (Stamp.frac x.holdTime)
  else if k = 3 then x.holdCount
  else if k = 4 then BitVec.ofNat 32 x.holdBeat
  else 0

/-- KS.TSNAP: counter `k` is latched. -/
def State.tsnap (s : State) (c rd : Nat) (v : Word) : State :=
  let t := (s.cnt (v.toNat % 32)).stamp
  let s := s.modCore c fun x => { x with holdTime := t, holdCount := s.time.beatCount, holdBeat := s.beat }
  s.setX c rd (BitVec.ofNat 32 (Stamp.ns t))

/-- KS.PCNT: reading the low half latches the high half. -/
def State.pcnt (s : State) (c rd : Nat) (v : Word) : State :=
  let e := v.toNat % 64
  if 39 < e then s.setX c rd 0
  else if bitAt v.toNat 6 then s.setX c rd (BitVec.ofNat 32 (s.core c).cntHi)
  else
    let s := s.chargeSlots c 1
    let v := s.perfRead c e
    (s.modCore c fun x => { x with cntHi := v / 2 ^ 32 }).setX c rd (BitVec.ofNat 32 v)

/-- A custom instruction of core `c` (spec/16 R493). -/
def State.ksExec (s : State) (c : Nat) (op : KsOp) (rd rs1 rs2 : Nat) (insn : Word) : State :=
  let s := s.perf c 25
  let next := (s.core c).pc + 4
  let done := fun (s : State) => s.retire c 4 insn 0 next
  let wait := fun (w : Sleep) => if s.awaited c w then done (s.sleepEnd c w) else s.sleepStart c w
  match op with
  | .tsnap => done (s.tsnap c rd (s.getX c rs1))
  | .tget => done (s.setX c rd ((s.core c).heldPart (s.getX c rs1)))
  | .wfb => wait (.wfb (Fin.ofNat 32 rd))
  | .wfe => wait (.wfe (Fin.ofNat 32 rd))
  | .crc n => done (s.setX c rd ((natBytes n (s.getX c rs2).toNat).foldl crcByte (s.getX c rs1)))
  | .pcnt => done (s.pcnt c rd (s.getX c rs1))
  | .tret =>
    let epc := (s.core c).trapEpc
    (s.modCore c fun x => { x with active := false }).retire c 4 insn 0 epc

/-- A halfword of an instruction, if core `c` may execute there (spec/16 R497). (DEDUCED, log entry 41) -/
def State.fetchHalf (s : State) (c a : Nat) : Option Nat :=
  if c = 5 ∧ inRegion a 2 0 0x10000 then some (bytesNat [Config.bootRom a, Config.bootRom (a + 1)])
  else if s.rangeOpen c a 2 then some (s.memRead a 2)
  else none

/-- The instruction at address `pc`, as a tag record of core `c` shows it; 0 where none can be fetched. -/
def State.insnAt (s : State) (c : Nat) (pc : Word) : Word :=
  match s.fetchHalf c pc.toNat, s.fetchHalf c (pc + 2).toNat with
  | none, _ => 0
  | some lo, hi => BitVec.ofNat 32 (if lo % 4 = 3 then lo + 65536 * hi.getD 0 else lo)

/-- Whether a branch was predicted wrongly is free; if it was, the instruction at `a` has entered F and is squashed (spec/16 R510 to
R512). (DESIGN CHOICE, log entry 42) -/
def State.mispredict (s : State) (c : Nat) (a : Word) : State :=
  if Config.mispredicted s.freeCtr then
    let own := (s.core c).tagged.isSome
    let s := (s.fresh.perf c 21).tagEnter c
    if own then s else s.tagDone c a (s.insnAt c a) 1 0
  else s.fresh

/-- One instruction of `len` bytes; `ecc` is what the words of a data access report. (PRESUMED, log entry 39) -/
def State.rvExec (s : State) (c : Fin 8) (i : Rv) (len : Nat) (insn : Word) (ecc : List EccErr) : State :=
  let pc := (s.core c).pc
  let next := pc + BitVec.ofNat 32 len
  let x := s.getX c
  let done := fun (s : State) => s.retire c len insn 0 next
  match i with
  | .lui rd v => done (s.setX c rd v)
  | .auipc rd v => done (s.setX c rd (pc + v))
  | .jal rd off => ((s.perf c 22).setX c rd next).retire c len insn 0 (pc + off)
  | .jalr rd rs1 off => ((s.perf c 22).setX c rd next).retire c len insn 0 ((x rs1 + off) &&& 0xFFFFFFFE#32)
  | .branch k rs1 rs2 off =>
    if k.holds (x rs1) (x rs2) then (((s.perf c 19).perf c 20).mispredict c next).retire c len insn 0 (pc + off)
    else done ((s.perf c 19).mispredict c (pc + off))
  | .load n signed rd rs1 off =>
    let a := x rs1 + off
    match s.coreLoad c a.toNat n ecc with
    | (s, none, v) => ((s.perf c 16).setX c rd (if signed then sext (8 * n) v else BitVec.ofNat 32 v)).retire c len insn a next
    | (s, some cause, _) => s.rvTrap c cause insn a a
  | .store n rs1 rs2 off =>
    let a := x rs1 + off
    match s.coreStore c a.toNat n (x rs2) ecc with
    | (s, none) => (s.perf c 17).retire c len insn a next
    | (s, some cause) => s.rvTrap c cause insn a a
  | .aluImm op rd rs1 v => done (s.setX c rd (op.run (x rs1) v))
  | .alu op rd rs1 rs2 =>
    let s := match op.event with
      | some e => s.perf c e
      | none => s
    done (s.setX c rd (op.run (x rs1) (x rs2)))
  | .fence => done s
  | .ecall => (s.squash c insn 0 2).trapFree c 6
  | .ebreak => (s.squash c insn 0 2).trapFree c 3
  | .ks op rd rs1 rs2 => s.ksExec c op rd rs1 rs2 insn

/-- Core `c` runs the instruction at its pc (spec/16 R492); `ecc` are the errors in the words it fetches and accesses (R506). (DEDUCED, log entry 41) -/
def State.rvStep (s : State) (c : Fin 8) (ecc : EccSeen) : State :=
  let pc := (s.core c).pc
  match s.fetchHalf c pc.toNat with
  | none => s.rvTrap c 1 0 0 pc
  | some lo =>
    let wide := decide (lo % 4 = 3)
    match (if wide then s.fetchHalf c (pc + 2).toNat else some 0) with
    | none => s.rvTrap c 1 0 0 (pc + 2)
    | some hi =>
      let w := BitVec.ofNat 32 (lo + 65536 * hi)
      let len := if wide then 4 else 2
      let e := s.eccCheck c pc.toNat len ecc.fetch
      match e.2, (if wide then decode32 w else decode16 w) with
      | some cause, _ => e.1.rvTrap c cause w 0 pc
      | none, none => e.1.rvTrap c 2 w 0 w
      | none, some i => e.1.rvExec c i len w ecc.data

/-! ### Commands -/


/-- TRAP: a synchronous trap of core `core` (spec/16 R495); an uncorrectable memory error is counted and raises MEM_ERROR (R506). -/
def execTrap (core : Fin 8) (cause : BitVec 8) (val : BitVec 32) (s : State) : Host.Outcome State Fault Refusal :=
  let c := core.val
  .next (if decide (1 ≤ cause.toNat) && decide (cause.toNat ≤ 7) then
      s.issue c fun s =>
        let s := match cause == 7, s.bankAt val.toNat with
          | true, some p => s.uncorrected p.1 c p.2
          | _, _ => s
        s.rvTrap c cause.toNat (s.insnAt c (s.core c).pc) (if cause == 4 || cause == 5 then val else 0) val
    else s)

/-- INTERRUPT_TAKEN (spec/16 R495): a tagged instruction in flight is squashed (R512). -/
def execInterruptTaken (core : Fin 8) (s : State) : Host.Outcome State Fault Refusal :=
  let c := core.val
  .next (match (maskIdx 8 (s.intDue c).toNat).head? with
    | none => s
    | some i =>
      if (s.core c).active then s
      else s.issue c fun s => (s.squash c (s.insnAt c (s.core c).pc) 0 3).takeInt c i)

/-- A custom instruction that a command names. -/
def State.ksRow (s : State) (c : Fin 8) (op : KsOp) (rd rs1 rs2 : Nat) : State :=
  s.issue c fun s => s.ksExec c op rd rs1 rs2 (ksWord op rd rs1 rs2)

/-- RV32IMC_INSTRUCTION. -/
def execRv32imcInstruction (core : Fin 8) (ecc : EccSeen) (s : State) : Host.Outcome State Fault Refusal :=
  .next (s.issue core fun s => s.rvStep core ecc)

/-- KS_TSNAP. -/
def execKsTsnap (core : Fin 8) (rd rs1 : Fin 32) (s : State) : Host.Outcome State Fault Refusal :=
  .next (s.ksRow core .tsnap rd.val rs1.val 0)

/-- KS_TGET. -/
def execKsTget (core : Fin 8) (rd rs1 : Fin 32) (s : State) : Host.Outcome State Fault Refusal :=
  .next (s.ksRow core .tget rd.val rs1.val 0)

/-- KS_WFB. -/
def execKsWfb (core : Fin 8) (rd : Fin 32) (s : State) : Host.Outcome State Fault Refusal := .next (s.ksRow core .wfb rd.val 0 0)

/-- KS_WFE. -/
def execKsWfe (core : Fin 8) (rd : Fin 32) (s : State) : Host.Outcome State Fault Refusal := .next (s.ksRow core .wfe rd.val 0 0)

/-- KS_CRC: `width` 0, 1, 2 stand for 1, 2, 4 bytes. -/
def execKsCrc (core : Fin 8) (width : Fin 3) (rd rs1 rs2 : Fin 32) (s : State) : Host.Outcome State Fault Refusal :=
  .next (s.ksRow core (.crc (2 ^ width.val)) rd.val rs1.val rs2.val)

/-- KS_PCNT. -/
def execKsPcnt (core : Fin 8) (rd rs1 : Fin 32) (s : State) : Host.Outcome State Fault Refusal :=
  .next (s.ksRow core .pcnt rd.val rs1.val 0)

/-- KS_TRET. (DEDUCED, log entry 40) -/
def execKsTret (core : Fin 8) (s : State) : Host.Outcome State Fault Refusal := .next (s.ksRow core .tret 0 0 0)

/-- CORE_WAKE: the instruction that slept completes. -/
def execCoreWake (core : Fin 8) (s : State) : Host.Outcome State Fault Refusal :=
  let c := core.val
  .next (match (s.core c).sleep with
    | none => s
    | some w =>
      if s.up && s.coreState c == 2 && s.awaited c w then
        let t := ((s.setCoreState c 1).awake c).slotFor c
        let insn := match w with
          | .wfb rd => ksWord .wfb rd.val 0 0
          | .wfe rd => ksWord .wfe rd.val 0 0
        if t.openSlots c = 0 then s else (t.sleepEnd c w).retire c 4 insn 0 ((t.core c).pc + 4)
      else s)

end Sys2Proof.Machine
end

