-- ==== Sys2Proof/Machine/Dispatch.lean ====
section
/-!
DEFINITION. Sys2Proof/Machine/Dispatch.lean: the meaning of every command, one arm a row of spec/opcode_table.json.
-/
namespace Sys2Proof.Machine
open Sys2Proof

def exec (i : Instr) (s : State) : Host.Outcome State Fault Refusal :=
  match i with
  | .islandReset => Sys2Proof.Machine.execIslandReset s
  | .vaultOnlyEntry => Sys2Proof.Machine.execVaultOnlyEntry s
  | .tickPllLock => Sys2Proof.Machine.execTickPllLock s
  | .mainPwrEnHigh => Sys2Proof.Machine.execMainPwrEnHigh s
  | .seqOrderViolation step => Sys2Proof.Machine.execSeqOrderViolation step s
  | .powerupTimeout stuckStep => Sys2Proof.Machine.execPowerupTimeout stuckStep s
  | .powerupRetry => Sys2Proof.Machine.execPowerupRetry s
  | .mainPor => Sys2Proof.Machine.execMainPor s
  | .supplyReset rail => Sys2Proof.Machine.execSupplyReset rail s
  | .pinReset => Sys2Proof.Machine.execPinReset s
  | .resetNLong islandBelow100 => Sys2Proof.Machine.execResetNLong islandBelow100 s
  | .thermtrip => Sys2Proof.Machine.execThermtrip s
  | .mainResetRelease boot => Sys2Proof.Machine.execMainResetRelease boot s
  | .joinBeat => Sys2Proof.Machine.execJoinBeat s
  | .dipEnter rails => Sys2Proof.Machine.execDipEnter rails s
  | .dipExit lows => Sys2Proof.Machine.execDipExit lows s
  | .dipLong lows => Sys2Proof.Machine.execDipLong lows s
  | .oscLoss => Sys2Proof.Machine.execOscLoss s
  | .oscReturn => Sys2Proof.Machine.execOscReturn s
  | .standbyWake => Sys2Proof.Machine.execStandbyWake s
  | .quietDrainEnd => Sys2Proof.Machine.execQuietDrainEnd s
  | .standbyRailsOff => Sys2Proof.Machine.execStandbyRailsOff s
  | .beatBoundary => Sys2Proof.Machine.execBeatBoundary s
  | .servoCompute => Sys2Proof.Machine.execServoCompute s
  | .servoDeadline => Sys2Proof.Machine.execServoDeadline s
  | .slotInputTimeout slot => Sys2Proof.Machine.execSlotInputTimeout slot s
  | .sessionUnitEnd sess => Sys2Proof.Machine.execSessionUnitEnd sess s
  | .sessionTx sess mtype k => Sys2Proof.Machine.execSessionTx sess mtype k s
  | .fuTimeout sess => Sys2Proof.Machine.execFuTimeout sess s
  | .ptpRx frame icv => Sys2Proof.Machine.execPtpRx frame icv s
  | .klMarkerRx lane m st => Sys2Proof.Machine.execKlMarkerRx lane m st s
  | .klWindowEnd sess => Sys2Proof.Machine.execKlWindowEnd sess s
  | .klReportRx lane frame => Sys2Proof.Machine.execKlReportRx lane frame s
  | .esmcRx port rank => Sys2Proof.Machine.execEsmcRx port rank s
  | .esmcTimeout port => Sys2Proof.Machine.execEsmcTimeout port s
  | .hoTtsExpire d => Sys2Proof.Machine.execHoTtsExpire d s
  | .holdoverLearnSample d => Sys2Proof.Machine.execHoldoverLearnSample d s
  | .synGate y errPpb band => Sys2Proof.Machine.execSynGate y errPpb band s
  | .heartbeat core wire beatNo => Sys2Proof.Machine.execHeartbeat core wire beatNo s
  | .boardIntlkTake => Sys2Proof.Machine.execBoardIntlkTake s
  | .boardIntlkSample level => Sys2Proof.Machine.execBoardIntlkSample level s
  | .signalDetect port => Sys2Proof.Machine.execSignalDetect port s
  | .signalLoss port mask => Sys2Proof.Machine.execSignalLoss port mask s
  | .anDone port => Sys2Proof.Machine.execAnDone port s
  | .trainDone port foms preset => Sys2Proof.Machine.execTrainDone port foms preset s
  | .alignDone port => Sys2Proof.Machine.execAlignDone port s
  | .attemptTimeout port => Sys2Proof.Machine.execAttemptTimeout port s
  | .backoffDone port => Sys2Proof.Machine.execBackoffDone port s
  | .lockLost port mask => Sys2Proof.Machine.execLockLost port mask s
  | .relockTryEnd port ok mask => Sys2Proof.Machine.execRelockTryEnd port ok mask s
  | .l2ExitDone port => Sys2Proof.Machine.execL2ExitDone port s
  | .adaptBurst lane code => Sys2Proof.Machine.execAdaptBurst lane code s
  | .ucodeLoadDone group result => Sys2Proof.Machine.execUcodeLoadDone group result s
  | .frameRx port f => Sys2Proof.Machine.execFrameRx port f s
  | .pauseRx port p => Sys2Proof.Machine.execPauseRx port p s
  | .pauseExpire port pri => Sys2Proof.Machine.execPauseExpire port pri s
  | .pauseStorm port pris => Sys2Proof.Machine.execPauseStorm port pris s
  | .xoffRefresh port => Sys2Proof.Machine.execXoffRefresh port s
  | .pipeDecision frame => Sys2Proof.Machine.execPipeDecision frame s
  | .fcsCheckDone frame => Sys2Proof.Machine.execFcsCheckDone frame s
  | .learnServe pipe => Sys2Proof.Machine.execLearnServe pipe s
  | .ageVisit pipe index => Sys2Proof.Machine.execAgeVisit pipe index s
  | .ageRemove pipe index => Sys2Proof.Machine.execAgeRemove pipe index s
  | .fragExpire pipe index => Sys2Proof.Machine.execFragExpire pipe index s
  | .genDrained pipe => Sys2Proof.Machine.execGenDrained pipe s
  | .sorrelEpoch => Sys2Proof.Machine.execSorrelEpoch s
  | .egressSelect port => Sys2Proof.Machine.execEgressSelect port s
  | .frameTx port st => Sys2Proof.Machine.execFrameTx port st s
  | .spillPartialFlush queue headroom => Sys2Proof.Machine.execSpillPartialFlush queue headroom s
  | .refillDone queue stack corrected bad => Sys2Proof.Machine.execRefillDone queue stack corrected bad s
  | .mapoutDone stack corrected lost => Sys2Proof.Machine.execMapoutDone stack corrected lost s
  | .mcAbandon frame egress => Sys2Proof.Machine.execMcAbandon frame egress s
  | .portHoldExpired port => Sys2Proof.Machine.execPortHoldExpired port s
  | .snapshotXferDone => Sys2Proof.Machine.execSnapshotXferDone s
  | .evinEdge evin falling code => Sys2Proof.Machine.execEvinEdge evin falling code s
  | .refinEdge refin falling code => Sys2Proof.Machine.execRefinEdge refin falling code s
  | .measWindowEnd im => Sys2Proof.Machine.execMeasWindowEnd im s
  | .pendingStopExpire im stop => Sys2Proof.Machine.execPendingStopExpire im stop s
  | .measPost => Sys2Proof.Machine.execMeasPost s
  | .fmGateEnd fm => Sys2Proof.Machine.execFmGateEnd fm s
  | .evoutPulse evout trailing => Sys2Proof.Machine.execEvoutPulse evout trailing s
  | .calTempCheck sensor temp => Sys2Proof.Machine.execCalTempCheck sensor temp s
  | .calPeriodDue lane => Sys2Proof.Machine.execCalPeriodDue lane s
  | .calSlotStart => Sys2Proof.Machine.execCalSlotStart s
  | .pathRunDone lane r => Sys2Proof.Machine.execPathRunDone lane r s
  | .calChunkDone iu path r => Sys2Proof.Machine.execCalChunkDone iu path r s
  | .calOverdue iu interp noGap dueTick => Sys2Proof.Machine.execCalOverdue iu interp noGap dueTick s
  | .tamperDetect src detail => Sys2Proof.Machine.execTamperDetect src detail s
  | .vbatCheck mv => Sys2Proof.Machine.execVbatCheck mv s
  | .wdtWarn => Sys2Proof.Machine.execWdtWarn s
  | .wdtReset => Sys2Proof.Machine.execWdtReset s
  | .coreWdtWarn core => Sys2Proof.Machine.execCoreWdtWarn core s
  | .coreWdt core => Sys2Proof.Machine.execCoreWdt core s
  | .perstN => Sys2Proof.Machine.execPerstN s
  | .functionLevelReset => Sys2Proof.Machine.execFunctionLevelReset s
  | .dlDown => Sys2Proof.Machine.execDlDown s
  | .pcieLinkRecovery entered => Sys2Proof.Machine.execPcieLinkRecovery entered s
  | .pcieCto readId what => Sys2Proof.Machine.execPcieCto readId what s
  | .doorbellData d => Sys2Proof.Machine.execDoorbellData d s
  | .doorbellDeadline => Sys2Proof.Machine.execDoorbellDeadline s
  | .kick => Sys2Proof.Machine.execKick s
  | .txDescriptor q descs data => Sys2Proof.Machine.execTxDescriptor q descs data s
  | .rxWriteback q => Sys2Proof.Machine.execRxWriteback q s
  | .completionWrite => Sys2Proof.Machine.execCompletionWrite s
  | .eventLost => Sys2Proof.Machine.execEventLost s
  | .msixSignal ring => Sys2Proof.Machine.execMsixSignal ring s
  | .cmdTimeout cmd => Sys2Proof.Machine.execCmdTimeout cmd s
  | .unassignedOpcode c opcode => Sys2Proof.Machine.execUnassignedOpcode c opcode s
  | .profileApply c prof => Sys2Proof.Machine.execProfileApply c prof s
  | .powerStateSet c => Sys2Proof.Machine.execPowerStateSet c s
  | .chipReset c => Sys2Proof.Machine.execChipReset c s
  | .domainReset c => Sys2Proof.Machine.execDomainReset c s
  | .laneRetrain c => Sys2Proof.Machine.execLaneRetrain c s
  | .laneQuarantine c => Sys2Proof.Machine.execLaneQuarantine c s
  | .lanePower c => Sys2Proof.Machine.execLanePower c s
  | .laneUcodeLoad c => Sys2Proof.Machine.execLaneUcodeLoad c s
  | .laneEyeScan c => Sys2Proof.Machine.execLaneEyeScan c s
  | .statsSnapshot c => Sys2Proof.Machine.execStatsSnapshot c s
  | .modRead c => Sys2Proof.Machine.execModRead c s
  | .modWrite c => Sys2Proof.Machine.execModWrite c s
  | .modSideband c => Sys2Proof.Machine.execModSideband c s
  | .i2cRetry bus => Sys2Proof.Machine.execI2cRetry bus s
  | .sgpioScan inputs => Sys2Proof.Machine.execSgpioScan inputs s
  | .modPresent slot present => Sys2Proof.Machine.execModPresent slot present s
  | .genCommit c => Sys2Proof.Machine.execGenCommit c s
  | .genDiscard c => Sys2Proof.Machine.execGenDiscard c s
  | .parseLoad c prog crcOk => Sys2Proof.Machine.execParseLoad c prog crcOk s
  | .fragFlush c => Sys2Proof.Machine.execFragFlush c s
  | .tableBulk c records => Sys2Proof.Machine.execTableBulk c records s
  | .macFlush c => Sys2Proof.Machine.execMacFlush c s
  | .deepbufMapout c => Sys2Proof.Machine.execDeepbufMapout c s
  | .deepbufScrub c => Sys2Proof.Machine.execDeepbufScrub c s
  | .tcntWrite c => Sys2Proof.Machine.execTcntWrite c s
  | .sessionSet c => Sys2Proof.Machine.execSessionSet c s
  | .sessionRead c => Sys2Proof.Machine.execSessionRead c s
  | .slotAccept c => Sys2Proof.Machine.execSlotAccept c s
  | .calSweep c => Sys2Proof.Machine.execCalSweep c s
  | .calHold c => Sys2Proof.Machine.execCalHold c s
  | .refForce c => Sys2Proof.Machine.execRefForce c s
  | .holdoverLearn c => Sys2Proof.Machine.execHoldoverLearn c s
  | .dpllHistReset c => Sys2Proof.Machine.execDpllHistReset c s
  | .freqLong c => Sys2Proof.Machine.execFreqLong c s
  | .pulseLoad c => Sys2Proof.Machine.execPulseLoad c s
  | .pairRejoin c => Sys2Proof.Machine.execPairRejoin c s
  | .pairSwap c => Sys2Proof.Machine.execPairSwap c s
  | .longCtrl c => Sys2Proof.Machine.execLongCtrl c s
  | .longQuery c => Sys2Proof.Machine.execLongQuery c s
  | .longOpFinal handle r => Sys2Proof.Machine.execLongOpFinal handle r s
  | .nop c => Sys2Proof.Machine.execNop c s
  | .memCopy c data ecc => Sys2Proof.Machine.execMemCopy c data ecc s
  | .updStage c bytes => Sys2Proof.Machine.execUpdStage c bytes s
  | .updInstall c => Sys2Proof.Machine.execUpdInstall c s
  | .updCommit c => Sys2Proof.Machine.execUpdCommit c s
  | .profileEraseDone => Sys2Proof.Machine.execProfileEraseDone s
  | .updDiscard c => Sys2Proof.Machine.execUpdDiscard c s
  | .keyWrite c => Sys2Proof.Machine.execKeyWrite c s
  | .keyHmac c data => Sys2Proof.Machine.execKeyHmac c data s
  | .tamperClear c => Sys2Proof.Machine.execTamperClear c s
  | .fuseCust c => Sys2Proof.Machine.execFuseCust c s
  | .mbPost core value => Sys2Proof.Machine.execMbPost core value s
  | .resetCtrlChip src value => Sys2Proof.Machine.execResetCtrlChip src value s
  | .wdtKick src value => Sys2Proof.Machine.execWdtKick src value s
  | .wdtCtrlWrite src value => Sys2Proof.Machine.execWdtCtrlWrite src value s
  | .snapGo src value => Sys2Proof.Machine.execSnapGo src value s
  | .slotUpd src slot value => Sys2Proof.Machine.execSlotUpd src slot value s
  | .linkUpd src lane value => Sys2Proof.Machine.execLinkUpd src lane value s
  | .synUpd src y value => Sys2Proof.Machine.execSynUpd src y value s
  | .evoutLoad src evout value => Sys2Proof.Machine.execEvoutLoad src evout value s
  | .swrateCommit src d value => Sys2Proof.Machine.execSwrateCommit src d value s
  | .dpllOpen src d value => Sys2Proof.Machine.execDpllOpen src d value s
  | .saCommit src port value => Sys2Proof.Machine.execSaCommit src port value s
  | .candCfgWrite src cand word value => Sys2Proof.Machine.execCandCfgWrite src cand word value s
  | .laneGrpWrite src group value => Sys2Proof.Machine.execLaneGrpWrite src group value s
  | .laneCfgWrite src lane word value => Sys2Proof.Machine.execLaneCfgWrite src lane word value s
  | .loopSet src lane value => Sys2Proof.Machine.execLoopSet src lane value s
  | .imCfgWrite src im word value => Sys2Proof.Machine.execImCfgWrite src im word value s
  | .fmCfgWrite src fm word value => Sys2Proof.Machine.execFmCfgWrite src fm word value s
  | .winRead pipe value => Sys2Proof.Machine.execWinRead pipe value s
  | .winWrite pipe value => Sys2Proof.Machine.execWinWrite pipe value s
  | .winRemove pipe value => Sys2Proof.Machine.execWinRemove pipe value s
  | .twinRead pipe value => Sys2Proof.Machine.execTwinRead pipe value s
  | .twinWrite pipe value => Sys2Proof.Machine.execTwinWrite pipe value s
  | .twinRemove pipe value => Sys2Proof.Machine.execTwinRemove pipe value s
  | .twinLookup pipe value => Sys2Proof.Machine.execTwinLookup pipe value s
  | .twinInject pipe value => Sys2Proof.Machine.execTwinInject pipe value s
  | .bankHandover src bank value => Sys2Proof.Machine.execBankHandover src bank value s
  | .quadHandover src quad value => Sys2Proof.Machine.execQuadHandover src quad value s
  | .bankHandoverDone bank => Sys2Proof.Machine.execBankHandoverDone bank s
  | .bankPower src bank value => Sys2Proof.Machine.execBankPower src bank value s
  | .tagPop core => Sys2Proof.Machine.execTagPop core s
  | .fetchNow => Sys2Proof.Machine.execFetchNow s
  | .dmaOff on => Sys2Proof.Machine.execDmaOff on s
  | .txStop on => Sys2Proof.Machine.execTxStop on s
  | .ringEnable ring value => Sys2Proof.Machine.execRingEnable ring value s
  | .ringDisable ring value => Sys2Proof.Machine.execRingDisable ring value s
  | .ctoConfigWrite encoding => Sys2Proof.Machine.execCtoConfigWrite encoding s
  | .tamperCfgWrite lock src value => Sys2Proof.Machine.execTamperCfgWrite lock src value s
  | .badAccess write addr => Sys2Proof.Machine.execBadAccess write addr s
  | .counterRead addr => Sys2Proof.Machine.execCounterRead addr s
  | .rcRead addr => Sys2Proof.Machine.execRcRead addr s
  | .w1cWrite src addr value => Sys2Proof.Machine.execW1cWrite src addr value s
  | .registerWrite src addr value => Sys2Proof.Machine.execRegisterWrite src addr value s
  | .beatAck core value => Sys2Proof.Machine.execBeatAck core value s
  | .coreWdtKick core value => Sys2Proof.Machine.execCoreWdtKick core value s
  | .evtRelease core value => Sys2Proof.Machine.execEvtRelease core value s
  | .rv32imcInstruction core ecc => Sys2Proof.Machine.execRv32imcInstruction core ecc s
  | .ksTsnap core rd rs1 => Sys2Proof.Machine.execKsTsnap core rd rs1 s
  | .ksTget core rd rs1 => Sys2Proof.Machine.execKsTget core rd rs1 s
  | .ksWfb core rd => Sys2Proof.Machine.execKsWfb core rd s
  | .ksWfe core rd => Sys2Proof.Machine.execKsWfe core rd s
  | .coreWake core => Sys2Proof.Machine.execCoreWake core s
  | .ksCrc core width rd rs1 rs2 => Sys2Proof.Machine.execKsCrc core width rd rs1 rs2 s
  | .ksPcnt core rd rs1 => Sys2Proof.Machine.execKsPcnt core rd rs1 s
  | .ksTret core => Sys2Proof.Machine.execKsTret core s
  | .trap core cause val => Sys2Proof.Machine.execTrap core cause val s
  | .interruptTaken core => Sys2Proof.Machine.execInterruptTaken core s
  | .perfWrap core e => Sys2Proof.Machine.execPerfWrap core e s
  | .tagCountdown core => Sys2Proof.Machine.execTagCountdown core s
  | .vbatLoss => Sys2Proof.Machine.execVbatLoss s
  | .l1ExitDone port => Sys2Proof.Machine.execL1ExitDone port s
  | .pauseStormEnd port pri => Sys2Proof.Machine.execPauseStormEnd port pri s
  | .klMarkerTx lane st => Sys2Proof.Machine.execKlMarkerTx lane st s
  | .spillWriteDone queue headroom => Sys2Proof.Machine.execSpillWriteDone queue headroom s
  | .pcieLinkUp width speed => Sys2Proof.Machine.execPcieLinkUp width speed s
  | .hostReadCompletion readId => Sys2Proof.Machine.execHostReadCompletion readId s
  | .i2cTransferEnd bus ack data stuck => Sys2Proof.Machine.execI2cTransferEnd bus ack data stuck s
  | .macFlushScanEnd => Sys2Proof.Machine.execMacFlushScanEnd s
  | .bankPowerReached bank => Sys2Proof.Machine.execBankPowerReached bank s
  | .longOpSafePoint handle => Sys2Proof.Machine.execLongOpSafePoint handle s

end Sys2Proof.Machine
end

