-- ==== Sys2Proof/Safety.lean ====
section
/-!
DEFINITION. Sys2Proof/Safety.lean: what a safe run is, in the terms statements use: sparse tables in their canonical form, and what an
operation may change: the parts of the state (`Kept`) and, of the registers, the rows of the register map (`Writes`); which commands are turned
away, and which rows find nothing to act on.
-/
namespace Sys2Proof
open Sys2Proof.Machine

/-- The register table is canonical: addresses rise, and no register listed holds its reset value. -/
def regsCanon (s : Machine.State) : Bool := Tab.canon RegMap.reset s.regs

namespace Machine

/-- The parts of the state that the frames tell apart: the fields of `State`, and of these the counters, the banks' bytes and the vault's keys
on their own. -/
inductive Part where
  | regs | ctr | rdata | cnt | time | power | host | cores | mem | lanes | ports | pipes | fabric | servo | cal | refs | meas | redund
  | keys | sec | waiting | written | line | freeCtr | pending
  deriving DecidableEq, Repr

/-- The two states agree in a part. -/
def Same : Part → State → State → Prop
  | .regs, s, t => t.regs = s.regs
  | .ctr, s, t => t.ctr = s.ctr
  | .rdata, s, t => t.rdata = s.rdata
  | .cnt, s, t => t.time.cnt = s.time.cnt
  | .time, s, t => { t.time with cnt := [] } = { s.time with cnt := [] }
  | .power, s, t => t.power = s.power
  | .host, s, t => t.host = s.host
  | .cores, s, t => { t.cores with mem := [] } = { s.cores with mem := [] }
  | .mem, s, t => t.cores.mem = s.cores.mem
  | .lanes, s, t => t.lanes = s.lanes
  | .ports, s, t => t.ports = s.ports
  | .pipes, s, t => t.pipes = s.pipes
  | .fabric, s, t => t.fabric = s.fabric
  | .servo, s, t => t.servo = s.servo
  | .cal, s, t => t.cal = s.cal
  | .refs, s, t => t.refs = s.refs
  | .meas, s, t => t.meas = s.meas
  | .redund, s, t => t.redund = s.redund
  | .keys, s, t => t.sec.keys = s.sec.keys
  | .sec, s, t => { t.sec with keys := [] } = { s.sec with keys := [] }
  | .waiting, s, t => t.waiting = s.waiting
  | .written, s, t => t.written = s.written
  | .line, s, t => t.line = s.line
  | .freeCtr, s, t => t.freeCtr = s.freeCtr
  | .pending, s, t => t.pending = s.pending

/-- Some of the parts of `l` are not in `m`. -/
def subParts (l m : List Part) : Bool := l.all fun p => m.contains p

/-- `t` differs from `s` at most in the parts of `L`; canonical forms carry over. -/
structure Kept (L : List Part) (s t : State) : Prop where
  same : ∀ p, L.contains p = false → Same p s t
  regs : regsCanon s = true → regsCanon t = true
  mem : Memory.wf s.cores.mem = true → Memory.wf t.cores.mem = true

/-- Byte address of instance (i, j) of the register row at `b`; `RegMap.nowhere` where the row has no such instance. -/
def RegMap.addr (b i j : Nat) : Nat :=
  match (RegMap.rowsAt b).find? fun r => r.base == b with
  | some r => if r.n2 = 1 then RegMap.at1 b r.n1 r.s1 i else RegMap.at2 b r.n1 r.s1 r.n2 r.s2 i j
  | none => RegMap.nowhere

/-- Address `a` is an instance of one of the register rows `R` (each named by the address of its first instance). -/
def AtReg (R : List Nat) (a : Nat) : Prop := ∃ b ∈ R, ∃ i j, a = RegMap.addr b i j

/-- Every register but those of the rows `R` holds in `t` what it held in `s`. -/
structure Writes (R : List Nat) (s t : State) : Prop where
  same : ∀ a, ¬AtReg R a → t.reg a = s.reg a

/-- Registers in which the device's reports show: ring status, indices and losses, pending MSI-X signals, wraps of the cores' counters, the
interface's own counters (spec/15 R459, R463, R471, R488; spec/16 R509). -/
def reportRegs : List Nat :=
  [Reg.ringStatus 0, Reg.ringDevIdx 0, Reg.ringLoss 0, Reg.msixPba 0, Reg.perfWrapLo 0, Reg.perfWrapHi 0, Reg.hostifCnt 0]

/-- Command `c` runs: it answers a next state, and `P` holds of it. -/
def Runs (c : Instr) (s : State) (P : State → Prop) : Prop := ∃ t, exec c s = .next t ∧ P t

/-- Event `code` has been raised, last of all, with this payload (spec/15 R478). -/
def Raised (code len : Nat) (fields : List (Nat × Nat × Nat)) (t : State) : Prop := ∃ u : State, t = u.raise code len fields

/-- Command `c` of opcode `op` has completed with `status`, last of all (spec/15 R471), in a state of which `P` holds. -/
def Completed (c : Cmd) (op status : Nat) (P : State → Prop) (t : State) : Prop :=
  ∃ u data flags handle lower, t = State.complete u c op status data flags handle lower ∧ P u

/-- CORE4 starts command `c` of opcode `op` and none of the general refusals applies (spec/01 R44; spec/15 R469, R470, R482; spec/16 R499;
spec/17 R532, R540). -/
def State.takes (s : State) (c : Cmd) (op : Nat) : Bool :=
  let t := s.fetched c
  s.mayStart c op &&
  !(c.user.any fun u => (op ≠ 0x0C03 && !bitAt (t.fld (F.coreMb_ALLOW (u.1 - 6))) (op / 256)) || (op / 256 == 0x0E && op ≠ 0x0E06)) &&
  !(t.fld F.globalBoot_STAGE == 15 && !(op == 0x0C03 || op == 0x0E01 || op == 0x0103 || (op == 0x0E03 && c.fld 0 1 == 1))) &&
  !(c.user.isNone && t.host.readFail.contains c.tag)

/-- `t` is `s` after a main reset whose cause is `n` of `GLOBAL_RESET_CAUSE.LAST` (spec/03 R91, R95, R113; spec/01 R42): the main domain holds nothing of what it held,
the island's TCNT0, and the vault's keys, are as they were. -/
def MainReset (n : Nat) (s t : State) : Prop :=
  t.power.mainReset = true ∧ t.power.joined = false ∧ t.fld F.globalResetCause_LAST = n ∧ t.fld ⟨Reg.globalResetCause, causeBit n, 1⟩ = 1 ∧
  t.cnt 0 = s.cnt 0 ∧ t.time.idx = s.time.idx ∧ t.sec.keys = s.sec.keys ∧ t.host.parked = [] ∧ t.host.longOps = [] ∧ t.waiting = [] ∧
  t.cores = {} ∧ t.lanes = [] ∧ t.pipes = {} ∧ t.fabric = {} ∧ t.servo = {} ∧ t.cal = {}

/-- Counter `k` of port `n` (spec/05 R165). -/
def State.portCnt (s : State) (n k : Nat) : Nat := Tab.get s.ctr 0 (Reg.portCntLo n k)

/-- The module slot's state. -/
def State.slotIo (s : State) (m : Nat) : SlotIo := Tab.get s.ports.slot {} m

/-- The access to module memory that command `c` asks for, under id `i` (spec/05 R169). -/
def modAccessOf (c : Cmd) (i : Nat) (write : Bool) : I2cXfer :=
  { id := i, src := c.src, slot := c.fld 0 1, write := write, bank := c.fld 1 1, page := c.fld 2 1, offset := c.fld 3 1, len := c.fld 4 1,
    addr := if write then 0 else c.fld 8 8, data := if write then c.fld 8 8 else 0 }

/-- Command `c` of opcode `op` has started a long operation with these arguments (spec/15 R475). -/
def StartsLong (c : Cmd) (op : Nat) (args : List Nat) (t : State) : Prop :=
  ∃ o ∈ t.host.longOps, o.cmd = c ∧ o.op = op ∧ o.args = args ∧ o.suspend = none

/-- A long operation of resource `res` would run at once (spec/15 R475). -/
def State.longReady (s : State) (res : Nat) : Bool :=
  !s.longBarred && s.freeLong.isSome && !(s.host.longOps.any fun o => o.res == res && o.state != .suspended)

/-- The instruction at the pc of core `c` has `len` bytes and is `i`, and the core may execute there (spec/16 R492, R497). -/
def State.atPc (s : State) (c : Nat) (i : Rv) (len : Nat) : Prop :=
  (len = 4 ∧ ∃ lo hi, s.fetchHalf c (s.core c).pc.toNat = some lo ∧ lo % 4 = 3 ∧ s.fetchHalf c ((s.core c).pc + 2).toNat = some hi ∧
    decode32 (BitVec.ofNat 32 (lo + 65536 * hi)) = some i) ∨
  (len = 2 ∧ ∃ lo, s.fetchHalf c (s.core c).pc.toNat = some lo ∧ lo % 4 ≠ 3 ∧ decode16 (BitVec.ofNat 32 lo) = some i)

/-- The core may fetch at its pc, and what stands there encodes no instruction; `w` is that word (spec/16 R495). -/
def State.noInsn (s : State) (c : Nat) (w : Word) : Prop :=
  (∃ lo hi, s.fetchHalf c (s.core c).pc.toNat = some lo ∧ lo % 4 = 3 ∧ s.fetchHalf c ((s.core c).pc + 2).toNat = some hi ∧
    w = BitVec.ofNat 32 (lo + 65536 * hi) ∧ decode32 w = none) ∨
  (∃ lo, s.fetchHalf c (s.core c).pc.toNat = some lo ∧ lo % 4 ≠ 3 ∧ w = BitVec.ofNat 32 lo ∧ decode16 w = none)

/-- Core `c` may not load the `n` bytes at `a`: they lie in no region of spec/16 R497, and in no bank that is open to it. -/
def State.noAccess (s : State) (c a n : Nat) : Prop :=
  s.rangeOpen c a n = false ∧ ¬(c = 5 ∧ inRegion a n 0 0x10000 = true) ∧ inRegion a n 0x20000000 0x2000 = false ∧
    inRegion a 1 0x30000000 0x4000000 = false ∧ inRegion a n 0x40000000 0xC04 = false

/-- Core `c` runs and an issue slot is open to it in the present cycle or the next (spec/16 R491, R511). -/
def State.mayIssue (s : State) (c : Nat) : Bool := s.running c && (s.slotFor c).openSlots c != 0

/-- Core `c` has completed an instruction: its pc is `pc`, and register `rd` holds `v`; register 0 holds 0 always (spec/16 R492, R493). -/
def State.wrote (t : State) (c rd : Nat) (v pc : Word) : Prop := (t.core c).pc = pc ∧ t.getX c rd = if rd = 0 then 0 else v

/-- Core `c` of `t` has trapped from `epc` with this cause and value: it is at its trap vector (spec/16 R495). -/
def State.trapped (s t : State) (c : Nat) (cause : Nat) (epc : Word) : Prop :=
  (t.core c).active = true ∧ (t.core c).pc = (s.core c).trapVec ∧ (t.core c).trapEpc = epc ∧ (t.core c).trapCause.toNat = cause ∧
    t.fld (F.coreStatus_CAUSE c) = cause ∧ t.reg (Reg.coreTrapPc c) = epc

/-- No bank byte of `t` differs from that of `s`, but for those that the `n` bytes from address `a` on of the banks' window are (spec/16 R501). -/
def Untouched (a n : Nat) (s t : State) : Prop := ∀ p : Nat × Nat, p.2 < 131072 → (∀ i < n, s.bankAt (a + i) ≠ some p) → t.bankByte p = s.bankByte p

/-- Command `c`, where it answers a next state, changes of the state's parts none but those of `L`, and of the registers none but those of the rows `R`. -/
def Framed (R : List Nat) (L : List Part) (c : Instr) : Prop :=
  ∀ s t : State, exec c s = .next t → (∀ p, L.contains p = false → Same p s t) ∧ ∀ a, ¬AtReg R a → t.reg a = s.reg a

/-- Command `c`, where it answers a next state, changes of the state's parts none but those of `L`. -/
def Spares (L : List Part) (c : Instr) : Prop := ∀ s t : State, exec c s = .next t → ∀ p, L.contains p = false → Same p s t

end Machine

/-! ### What commands and rows do not act on (spec/15 R469, R470) -/

/-- Command or row `c` finds nothing to act on in `s`: the block that it concerns is off, what it ends is not in progress, its time has not come, or
CORE4 does not come to the command (spec/15 R470; spec/16 R499; spec/18 R545; log entries 2, 3). -/
def Instr.idle (c : Instr) (s : State) : Bool :=
  match c with
  -- the parts of the device that are off
  | .joinBeat => !s.up || s.power.joined || s.fld F.globalBoot_STAGE != 5
  | .beatBoundary | .oscLoss => !(s.power.aon && s.power.pllLocked)
  | .tickPllLock => !s.power.aon || s.power.pllLocked
  | .vaultOnlyEntry | .pinReset | .resetNLong _ | .vbatCheck _ => !s.power.aon
  | .vbatLoss => s.power.aon
  | .mainPwrEnHigh => !s.mayRaise
  | .powerupRetry => !(s.mayRaise && s.power.retryDue)
  | .thermtrip => !(s.power.aon && s.power.mainPwrEn)
  | .mainPor => !(s.power.aon && s.power.mainPwrEn && s.power.mainReset) || s.power.armed || s.power.pstate == .standby
  | .mainResetRelease _ =>
    !(s.power.aon && s.power.pllLocked && s.power.mainReset && s.power.armed && s.power.mainPwrEn) || s.power.therm
  | .standbyWake => !(s.power.aon && s.power.pstate == .standby) || s.power.wakePassed || !s.power.wake.any (fun t => decide (t ≤ s.now))
  | .standbyRailsOff => !(s.power.pstate == .standby && s.power.railsOff)
  | .oscReturn => !s.power.oscHeld
  | .dipEnter rails => !(s.power.aon && s.power.mainPwrEn && (rails != 0 || s.inDip))
  | .dipExit _ | .dipLong _ => s.power.dip.isNone
  | .quietDrainEnd => !(s.up && s.power.trans.any fun t => t.phase == .drain && decide (t.since + 1600000 * t.drainMs ≤ s.time.tick))
  | .wdtWarn => !(s.wdtRuns && decide (1200000 * wdtMs (s.fld F.globalWdtCtrl_TIMEOUT_MS) ≤ s.dogRan s.power.dog true))
  | .wdtReset => !(s.wdtRuns && decide (1600000 * wdtMs (s.fld F.globalWdtCtrl_TIMEOUT_MS) ≤ s.dogRan s.power.dog true))
  | .evinEdge _ _ _ | .refinEdge _ _ _ | .measWindowEnd _ | .pendingStopExpire _ _ | .measPost | .fmGateEnd _ | .synGate _ _ _ | .sorrelEpoch
  | .frameRx _ _ | .sgpioScan _ | .perstN | .functionLevelReset | .dlDown | .pcieCto _ _ | .dmaOff _ | .txStop _ | .ringEnable _ _
  | .ringDisable _ _ | .ctoConfigWrite _ | .resetCtrlChip _ _ | .wdtKick _ _ | .wdtCtrlWrite _ _ | .saCommit _ _ _ | .linkUpd _ _ _
  | .laneCfgWrite _ _ _ _ | .laneGrpWrite _ _ _ | .loopSet _ _ _ | .winRead _ _ | .winWrite _ _ | .winRemove _ _ | .bankHandover _ _ _
  | .quadHandover _ _ _ | .bankHandoverDone _ | .bankPower _ _ _ | .bankPowerReached _ | .tagPop _ | .tamperCfgWrite _ _ _ | .badAccess _ _
  | .counterRead _ | .rcRead _ | .w1cWrite _ _ _ | .registerWrite _ _ _ | .coreWdtKick _ _ | .perfWrap _ _ | .fuTimeout _ => !s.up
  | .beatAck _ value | .evtRelease _ value => !(s.up && value.getLsbD 31)
  | .mbPost core _ => !(s.up && decide (6 ≤ core.val))
  -- what stands still before the beat has been joined
  | .servoCompute | .servoDeadline | .calSlotStart => !s.joinedBeat
  | .kick | .fetchNow => !s.dbOn
  -- lanes and ports
  | .signalDetect p => !(s.up && s.validPort p && s.link p == 1)
  | .signalLoss p _ => !(s.up && s.validPort p) || s.heldL1 p
  | .anDone p => !(s.up && s.validPort p && s.link p == 2)
  | .trainDone p _ _ => !(s.up && s.validPort p && s.link p == 3)
  | .alignDone p => !(s.up && s.validPort p && s.link p == 4 && s.aligned p)
  | .attemptTimeout p =>
    !(s.up && s.validPort p && s.attempting p && decide ((s.lane p).attemptTick + 1600000 * s.attemptMs p ≤ s.time.tick))
  | .backoffDone p =>
    !(s.up && s.validPort p && s.link p == 7 && decide ((s.lane p).enterTick + 1600000000 * (s.lane p).wait ≤ s.time.tick))
  | .lockLost p _ => !(s.up && s.validPort p && s.link p == 5) || (s.lane p).partnerL1
  | .relockTryEnd p _ _ => !(s.up && s.validPort p && s.link p == 6)
  | .l1ExitDone p => !(s.up && s.validPort p && (s.lane p).exiting && s.link p == 10)
  | .l2ExitDone p => !(s.up && s.validPort p && (s.lane p).exiting && (s.link p == 11 || s.link p == 12))
  | .adaptBurst m _ => !(s.up && (s.owner m).any s.portUp && s.burstDue m) || bitAt s.cal.eye.toNat m
  | .ucodeLoadDone g _ => (s.host.longOps.find? fun o => o.loadsUcode && o.ucodeGroup == g.val).isNone
  | .klMarkerRx n _ _ | .klMarkerTx n _ => !(s.up && s.klRuns n)
  | .pauseRx n _ => !(s.up && s.portUp n)
  | .pauseExpire n p => Tab.get (s.mac n).pauseEnd 0 p == 0 || decide (s.time.tick < Tab.get (s.mac n).pauseEnd 0 p)
  | .pauseStorm n _ => !s.up || s.fld (F.portStorm_MS n) == 0
  | .pauseStormEnd n p =>
    !(bitAt (s.mac n).ignore.toNat p && decide (Tab.get (s.mac n).pauseTick 0 p + s.stormTicks n ≤ s.time.tick))
  | .xoffRefresh n => s.refreshDue n == 0 || s.pauseMode n == 0 || s.quiet || !s.portUp n
  | .snapshotXferDone => s.ports.xfer.isNone
  | .i2cTransferEnd b _ _ stuck => (s.bus b).xfers.isEmpty && !stuck
  | .i2cRetry b => !(s.bus b).xfers.head?.any fun x => x.retryAt.any fun t => decide (t ≤ s.time.tick)
  | .modPresent m present => !(s.up && s.flag (F.portMod_PRESENT m) != present)
  -- pipelines and fabric
  | .pipeDecision f => (s.frame f).all (·.decided)
  | .fcsCheckDone f => (s.frame f).all (·.checked)
  | .genDrained p => !(s.drnValid p && s.fld (F.pipeGenDrain_COUNT p) == 0)
  | .fragExpire p i => !(Tab.find i (s.pipe p).parser.frags).any (s.fragOver p)
  | .learnServe p => !(s.up && decide ((s.pipe p).fwd.busyTo ≤ s.time.tick))
  | .ageVisit p i => (Tab.find i (s.pipe p).fwd.mac).all fun e => e.view != 0 || !s.up || s.inDip || s.replaced 3
  | .ageRemove p i => (Tab.find i (s.pipe p).fwd.mac).all fun e => !(e.view == 0 && e.age == 3 && !e.hit && s.ageing p)
  | .macFlushScanEnd => s.pipes.flush.isEmpty
  | .egressSelect q => !s.up || !s.portUp q || s.sendingAt q
  | .frameTx q _ => (Tab.get s.fabric.tx none q).isNone && (s.mac q).sending.isNone
  | .spillPartialFlush i hr => (if hr then Tab.get s.fabric.hrOpen [] i else Tab.get s.fabric.spillOpen [] i).isEmpty
  | .spillWriteDone i hr => (if hr then Tab.get s.fabric.hrUnits [] i else Tab.get s.fabric.spillUnits [] i).isEmpty || (s.inDip && !hr)
  | .refillDone i _ _ _ => (s.refillRun (i.val / 16) (i.val % 16)).isEmpty ||
    decide (s.fld (F.eqSpill_REFILL i) ≤ s.onDieHead (i.val / 16) (i.val % 16))
  | .mapoutDone k _ _ => s.fabric.evac.all fun e => e.1 != k.val
  | .mcAbandon f q => (s.fabric.voq.find? fun x => x.frame == f && x.q == q.val && x.mc).all fun x => !s.waitOver x
  | .portHoldExpired q => s.fld (F.fabricPort_HOLD_STATE q) != 1 || s.portUp q ||
    decide (s.time.tick < Tab.get s.fabric.holdTick 0 q + 1600000 * max 1 (s.fld (F.fabricPort_PORT_DOWN_HOLD_MS q)))
  -- time messages, servos, references, measurement
  | .slotInputTimeout k => !(s.up && runningSlot (s.slotState k) && s.slotIdle k) || s.inDip
  | .sessionUnitEnd i => !s.up || ss.delay (s.sess i).cfg == 2 && (s.sess i).state == 0
  | .sessionTx i _ _ => !s.up || (s.sess i).state == 0 || !s.portUp (ss.port (s.sess i).cfg)
  | .ptpRx f _ => (s.servo.inbox.find? (·.id = f)).all (·.ptp.isNone)
  | .klReportRx n f => (s.servo.inbox.find? (·.id = f)).all fun x => x.ptp.isSome || x.port != n.val
  | .klWindowEnd i => !s.up || (s.sess i).state == 0 || ss.delay (s.sess i).cfg != 2
  | .esmcRx p _ => !(s.attended && s.portUp p)
  | .esmcTimeout p => !(s.attended && s.esmcSilent p)
  | .hoTtsExpire d => s.dpllState d != 3 || s.fld (F.dpllHoTts_TTS d) != 0 || s.flag (F.dpllStatus_HO_SPEC_EXCEEDED d)
  | .holdoverLearnSample d => (s.host.longOps.find? fun o => o.op == 0x0902 && o.cmd.fld 0 1 == d.val && o.state == .running).isNone ||
    s.dpllState d != 2
  | .evoutPulse k _ => if k.val = 0 then !(s.power.aon && s.power.pllLocked) else !s.up
  | .calTempCheck n _ => n.val != 144 && !s.up
  | .calPeriodDue n => !(s.joinedBeat && s.flag (F.laneCalCfg_AUTO n) && s.periodOver n) || (s.pathCal n).periodFired
  | .pathRunDone n _ => !(s.pathCal n).running
  | .calChunkDone u p _ => !(s.interpCal u).running || (s.interpCal u).path != p.val
  | .calOverdue u interp _ _ => if interp then (s.interpCal u).why.isNone || (s.interpCal u).overdue
    else decide (128 ≤ u.val) || (s.pathCal u).why.isNone || (s.pathCal u).overdue
  -- timing pair
  | .heartbeat k wire n => !s.up || !(s.fld (F.coreStatus_STATE k) == 1 || s.fld (F.coreStatus_STATE k) == 2) || (!wire && n != s.beat)
  | .boardIntlkTake => !(s.up && s.boardOk && s.boardFree) || s.flag F.redundStatus_BOARD_HOLD
  | .boardIntlkSample _ => !s.redund.taking
  -- host interface
  | .pcieLinkUp w g => !(s.up && [1, 2, 4, 8].contains w && decide (1 ≤ g) && decide (g ≤ 5))
  | .pcieLinkRecovery entered => if entered then s.host.recovery.isSome || !s.up || !s.flag F.hostifStatus_LINK_UP else s.host.recovery.isNone
  | .hostReadCompletion i => (Tab.find i s.host.reads).isNone
  | .doorbellData d => s.host.fetch.all fun f => d.fetch != f.seq
  | .doorbellDeadline => s.host.fetch.isNone
  | .txDescriptor q l _ => (txFrame l).isEmpty || !s.up || !s.ringOn q || s.flag F.hostifEmerg_TX_STOP || s.flag F.hostifEmerg_DMA_OFF
  | .rxWriteback q => (s.fabric.rxq.find? fun x => x.ring == q.val).isNone || s.flag F.hostifEmerg_DMA_OFF
  | .completionWrite => s.host.waitCpl.isEmpty || s.ringFree 65 == 0 || s.flag F.hostifEmerg_DMA_OFF
  | .eventLost => s.host.lost.isNone || s.ringFree 66 == 0
  | .msixSignal r => !Tab.get s.host.sigDue false r
  | .cmdTimeout i => (s.parkedAt i).isNone
  | .longOpSafePoint h => (s.longAt h).all fun o => o.suspend.isNone && (o.state != .running || s.dmaHeld o)
  | .longOpFinal h _ => (s.longAt h).all fun o => o.state != .running || s.flashHeld o || s.dmaHeld o
  | .profileEraseDone => !s.sec.erasing || s.inDip
  -- cores, vault
  | .coreWdtWarn k => !s.coreWdtAt k 3
  | .coreWdt k => !s.coreWdtAt k 4
  | .rv32imcInstruction k _ | .ksTsnap k _ _ | .ksTget k _ _ | .ksWfb k _ | .ksWfe k _ | .ksCrc k _ _ _ _ | .ksPcnt k _ _ | .ksTret k =>
    !s.mayIssue k
  | .trap k cause _ => cause == 0 || decide (7 < cause.toNat) || !s.mayIssue k
  | .interruptTaken k => (maskIdx 8 (s.intDue k).toNat).isEmpty || (s.core k).active || !s.mayIssue k
  | .coreWake k => (s.core k).sleep.all fun w => !(s.up && s.coreState k == 2 && s.awaited k w)
  | .tagCountdown k => !s.running k || s.tagK k == 0 || (s.core k).countdown != 0
  | .tamperDetect k detail => !s.tamperCond k detail
  -- commands that CORE4 does not come to
  | .unassignedOpcode c op => !s.takesCmd c op.toNat
  | .profileApply c _ => !s.takesCmd c 0x0101
  | .powerStateSet c => !s.takesCmd c 0x0102
  | .chipReset c => !s.takesCmd c 0x0103
  | .domainReset c => !s.takesCmd c 0x0104
  | .laneRetrain c => !s.takesCmd c 0x0201
  | .laneQuarantine c => !s.takesCmd c 0x0202
  | .lanePower c => !s.takesCmd c 0x0203
  | .laneUcodeLoad c => !s.takesCmd c 0x0204
  | .laneEyeScan c => !s.takesCmd c 0x0205
  | .statsSnapshot c => !s.takesCmd c 0x0301
  | .modRead c => !s.takesCmd c 0x0302
  | .modWrite c => !s.takesCmd c 0x0303
  | .modSideband c => !s.takesCmd c 0x0304
  | .genCommit c => !s.takesCmd c 0x0401
  | .genDiscard c => !s.takesCmd c 0x0402
  | .parseLoad c _ _ => !s.takesCmd c 0x0403
  | .fragFlush c => !s.takesCmd c 0x0404
  | .tableBulk c _ => !s.takesCmd c 0x0405
  | .macFlush c => !s.takesCmd c 0x0406
  | .deepbufMapout c => !s.takesCmd c 0x0501
  | .deepbufScrub c => !s.takesCmd c 0x0502
  | .tcntWrite c => !s.takesCmd c 0x0601
  | .sessionSet c => !s.takesCmd c 0x0701
  | .sessionRead c => !s.takesCmd c 0x0702
  | .slotAccept c => !s.takesCmd c 0x0703
  | .calSweep c => !s.takesCmd c 0x0801
  | .calHold c => !s.takesCmd c 0x0802
  | .refForce c => !s.takesCmd c 0x0901
  | .holdoverLearn c => !s.takesCmd c 0x0902
  | .dpllHistReset c => !s.takesCmd c 0x0903
  | .freqLong c => !s.takesCmd c 0x0A01
  | .pulseLoad c => !s.takesCmd c 0x0A02
  | .pairRejoin c => !s.takesCmd c 0x0B01
  | .pairSwap c => !s.takesCmd c 0x0B02
  | .longCtrl c => !s.takesCmd c 0x0C01
  | .longQuery c => !s.takesCmd c 0x0C02
  | .nop c => !s.takesCmd c 0x0C03
  | .memCopy c _ _ => !s.takesCmd c 0x0D01
  | .updStage c _ => !s.takesCmd c 0x0E01
  | .updInstall c => !s.takesCmd c 0x0E02
  | .updCommit c => !s.takesCmd c 0x0E03
  | .updDiscard c => !s.takesCmd c 0x0E04
  | .keyWrite c => !s.takesCmd c 0x0E05
  | .keyHmac c _ => !s.takesCmd c 0x0E06
  | .tamperClear c => !s.takesCmd c 0x0E07
  | .fuseCust c => !s.takesCmd c 0x0E08
  -- rows that never find nothing, or whose operands decide
  | .islandReset | .seqOrderViolation _ | .powerupTimeout _ | .supplyReset _ | .snapGo _ _ | .slotUpd _ _ _ | .synUpd _ _ _ | .evoutLoad _ _ _
  | .swrateCommit _ _ _ | .dpllOpen _ _ _ | .candCfgWrite _ _ _ _ | .imCfgWrite _ _ _ _ | .fmCfgWrite _ _ _ _ | .twinRead _ _
  | .twinWrite _ _ | .twinRemove _ _ | .twinLookup _ _ | .twinInject _ _ => false

/-- The descriptor and the opcode of a command that CORE4 serves (spec/00 R20); none for the rows that are no commands. -/
def Instr.cmd : Instr → Option (Cmd × Nat)
  | .profileApply c _ => some (c, 0x0101)
  | .powerStateSet c => some (c, 0x0102)
  | .chipReset c => some (c, 0x0103)
  | .domainReset c => some (c, 0x0104)
  | .laneRetrain c => some (c, 0x0201)
  | .laneQuarantine c => some (c, 0x0202)
  | .lanePower c => some (c, 0x0203)
  | .laneUcodeLoad c => some (c, 0x0204)
  | .laneEyeScan c => some (c, 0x0205)
  | .statsSnapshot c => some (c, 0x0301)
  | .modRead c => some (c, 0x0302)
  | .modWrite c => some (c, 0x0303)
  | .modSideband c => some (c, 0x0304)
  | .genCommit c => some (c, 0x0401)
  | .genDiscard c => some (c, 0x0402)
  | .parseLoad c _ _ => some (c, 0x0403)
  | .fragFlush c => some (c, 0x0404)
  | .tableBulk c _ => some (c, 0x0405)
  | .macFlush c => some (c, 0x0406)
  | .deepbufMapout c => some (c, 0x0501)
  | .deepbufScrub c => some (c, 0x0502)
  | .tcntWrite c => some (c, 0x0601)
  | .sessionSet c => some (c, 0x0701)
  | .sessionRead c => some (c, 0x0702)
  | .slotAccept c => some (c, 0x0703)
  | .calSweep c => some (c, 0x0801)
  | .calHold c => some (c, 0x0802)
  | .refForce c => some (c, 0x0901)
  | .holdoverLearn c => some (c, 0x0902)
  | .dpllHistReset c => some (c, 0x0903)
  | .freqLong c => some (c, 0x0A01)
  | .pulseLoad c => some (c, 0x0A02)
  | .pairRejoin c => some (c, 0x0B01)
  | .pairSwap c => some (c, 0x0B02)
  | .longCtrl c => some (c, 0x0C01)
  | .longQuery c => some (c, 0x0C02)
  | .nop c => some (c, 0x0C03)
  | .memCopy c _ _ => some (c, 0x0D01)
  | .updStage c _ => some (c, 0x0E01)
  | .updInstall c => some (c, 0x0E02)
  | .updCommit c => some (c, 0x0E03)
  | .updDiscard c => some (c, 0x0E04)
  | .keyWrite c => some (c, 0x0E05)
  | .keyHmac c _ => some (c, 0x0E06)
  | .tamperClear c => some (c, 0x0E07)
  | .fuseCust c => some (c, 0x0E08)
  | _ => none

/-- The arguments of a command are of the form that its rule gives: reserved bytes zero, fields in range, buffers in host memory or the core's
own banks (spec/15 R469). -/
def Instr.argsOk (i : Instr) (s : State) : Bool :=
  match i with
  | .profileApply c _ => c.ok 2 && decide (c.fld 0 1 < 4) && decide (c.fld 1 1 < 4)
  | .powerStateSet c => c.ok 30 && decide (c.fld 0 1 < 3) && decide (c.fld 1 1 < 4) && decide (c.fld 26 4 < 1000000000)
  | .chipReset c => c.ok 2 && c.fld 0 2 == 0xC4A7
  | .domainReset c => c.ok 4 [(1, 1)] && (c.fld 0 1 == 0 && decide (c.fld 2 2 < 32) || c.fld 0 1 == 1 && s.portExists (c.fld 2 2) ||
      c.fld 0 1 == 2 && decide (c.fld 2 2 < 4) || c.fld 0 1 == 3 && decide (2 ≤ c.fld 2 2) && decide (c.fld 2 2 < 8) ||
      (c.fld 0 1 == 4 || c.fld 0 1 == 5) && c.fld 2 2 == 0)
  | .laneRetrain c => c.ok 2
  | .laneQuarantine c => c.ok 4 && decide (c.fld 2 1 < 2) && decide (c.fld 3 1 < 2)
  | .lanePower c => c.ok 3 && decide (c.fld 2 1 < 3)
  | .laneUcodeLoad c => c.ok 8 [(1, 3)] && decide (c.fld 0 1 < 32)
  | .laneEyeScan c => c.ok 16 [(4, 4)] && decide (1 ≤ c.fld 2 1) && decide (c.fld 2 1 ≤ 128) && decide (1 ≤ c.fld 3 1) &&
      decide (c.fld 3 1 ≤ 128) && c.fld 8 8 % 4 == 0 && s.bufOk c.src (c.fld 8 8) (4 * c.fld 2 1 * c.fld 3 1)
  | .statsSnapshot c => c.ok 40 [(26, 6)] && c.fld 32 8 % 64 == 0 &&
      s.bufOk c.src (c.fld 32 8) (64 + 576 * (s.ports'.filter (bitAt (c.fld 0 16))).length) && decide (c.fld 22 4 < 100000)
  | .modRead c => c.ok 16 [(5, 3)] && decide (c.fld 0 1 < 64) && modRangeOk (c.fld 3 1) (c.fld 4 1) 128 && s.bufOk c.src (c.fld 8 8) (c.fld 4 1)
  | .modWrite c => c.ok 16 [(5, 3)] && decide (c.fld 0 1 < 64) && modRangeOk (c.fld 3 1) (c.fld 4 1) 8
  | .modSideband c => c.ok 2 && decide (c.fld 0 1 < 64) && decide (c.fld 1 1 < 8)
  | .genCommit c => c.ok 16 [(2, 2), (14, 2)] && decide (c.fld 0 1 < 16) && decide (c.fld 1 1 < 2) &&
      s.nameOk (c.fld 10 4) (boundaryName (c.fld 4 6) (c.fld 10 4))
  | .genDiscard c | .fragFlush c => c.ok 1 && decide (c.fld 0 1 < 16)
  | .parseLoad c prog crcOk => c.ok 16 [(1, 3)] && decide (c.fld 0 1 < 16) && decide (64 ≤ c.fld 4 4) && decide (c.fld 4 4 ≤ 16448) &&
      s.bufOk c.src (c.fld 8 8) (c.fld 4 4) && prog.valid crcOk
  | .tableBulk c _ => c.ok 16 [(3, 1)] && decide (c.fld 0 1 < 16) && c.fld 8 8 % 64 == 0 && s.bufOk c.src (c.fld 8 8) (32 * c.fld 4 4) &&
      (c.fld 2 1 == 0 && decide (c.fld 1 1 < 7) ||
        c.fld 2 1 == 1 && (decide (c.fld 1 1 < 6) || c.fld 1 1 == 7) && (maskIdx 4 (c.fld 0 1)).length == 1)
  | .macFlush c => c.ok 6 [(3, 1)] && decide (c.fld 0 1 < 16) && decide (c.fld 1 1 < 4) &&
      (!bitAt (c.fld 1 1) 0 || decide (c.fld 2 1 < 128)) && (!bitAt (c.fld 1 1) 1 || decide (c.fld 4 2 < 16384))
  | .deepbufMapout c => c.ok 2 && decide (c.fld 0 1 < 4) && decide (c.fld 1 1 < 2)
  | .deepbufScrub c => c.ok 2 && decide (c.fld 0 1 < 16) && decide (c.fld 1 1 < 2)
  | .tcntWrite c => c.ok 28 [(2, 2), (14, 2)] && decide (c.fld 0 1 < 32) && s.nameOk (c.fld 10 4) (boundaryName (c.fld 4 6) (c.fld 10 4)) &&
      (c.fld 1 1 == 0 && decide (c.fld 22 4 < 1000000000) || c.fld 1 1 == 1 && c.fld 24 4 == 0 ||
        c.fld 1 1 == 2 && c.fld 22 6 == 0 && decide (incrMin (c.fld 0 1) ≤ c.fld 16 6) && decide (c.fld 16 6 ≤ incrMax (c.fld 0 1)))
  | .sessionSet c => c.ok 96
  | .sessionRead c => c.ok 16 [(4, 4)] && decide (0 < c.fld 2 2) && decide (c.fld 0 2 + c.fld 2 2 ≤ 4096) && c.fld 8 8 % 64 == 0 &&
      s.bufOk c.src (c.fld 8 8) (64 * c.fld 2 2)
  | .slotAccept c => c.ok 2 && decide (c.fld 1 1 < 3)
  | .calSweep c => c.ok 24 [(21, 3)] && decide (c.fld 20 1 < 4)
  | .calHold c => c.ok 24 [(21, 3)] && decide (c.fld 20 1 < 2)
  | .refForce c => c.ok 3 && decide (c.fld 0 1 < 4) && decide (c.fld 1 1 < 3) && (c.fld 1 1 != 1 || decide (c.fld 2 1 < 16))
  | .holdoverLearn c => c.ok 8 [(2, 2)] && decide (c.fld 0 1 < 4) && decide (c.fld 1 1 < 2) && decide (3600 ≤ c.fld 4 4) &&
      decide (c.fld 4 4 ≤ 2592000)
  | .dpllHistReset c => c.ok 1 && decide (c.fld 0 1 < 4)
  | .freqLong c => c.ok 32 [(18, 6)] && decide (c.fld 0 1 < 16) && decide (128 ≤ c.fld 1 1) && decide (c.fld 1 1 < 160) &&
      decide (c.fld 2 1 < 4) && decide (c.fld 3 1 ≤ 24) && decide (1000 ≤ c.fld 4 4) && decide (c.fld 4 4 ≤ 1000000) &&
      s.nameOk (c.fld 14 4) (boundaryName (c.fld 8 6) (c.fld 14 4)) && c.fld 24 8 % 64 == 0 && s.bufOk c.src (c.fld 24 8) 128
  | .pulseLoad c => c.ok 48 [(3, 1), (22, 2), (42, 6)] && decide (c.fld 0 1 < 16) && decide (c.fld 1 1 < 8) && decide (c.fld 2 1 < 4) &&
      (c.fld 0 1 != 0 || c.fld 2 1 == 0) && decide (c.fld 10 4 < 1000000000) &&
      s.nameOk (c.fld 38 4) (boundaryName (c.fld 32 6) (c.fld 38 4)) && (pulseSched c).ok
  | .pairRejoin c => c.ok 8 [(2, 2)] && decide (c.fld 0 1 < 2) && decide (c.fld 1 1 < 4) &&
      (c.fld 1 1 != 3 || (s.stagedImage (c.fld 4 4)).any fun i => i.component == 1)
  | .pairSwap c => c.ok 10 && s.nameOk (c.fld 6 4) (boundaryName (c.fld 0 6) (c.fld 6 4))
  | .longCtrl c => c.ok 5 && decide (c.fld 4 1 < 3)
  | .longQuery c => c.ok 4
  | .nop c | .updDiscard c => c.ok 0
  | .memCopy c _ _ => c.ok 24 [(5, 3), (12, 4)] && c.fld 0 4 % 4 == 0 && decide (c.fld 4 1 < 2) && decide (4 ≤ c.fld 8 4) &&
      decide (c.fld 8 4 ≤ 131072) && c.fld 8 4 % 4 == 0 && decide (0x10000000 ≤ c.fld 0 4) && decide (c.fld 0 4 + c.fld 8 4 ≤ 0x10400000) &&
      s.bufOk c.src (c.fld 16 8) (c.fld 8 4)
  | .updStage c _ => c.ok 16 [(12, 4)] && decide (64 ≤ c.fld 8 4) && decide (c.fld 8 4 ≤ 25165824)
  | .updInstall c => c.ok 4 [(2, 2)] && decide (c.fld 0 1 < 10) && decide (c.fld 1 1 < 2)
  | .updCommit c => c.ok 4 [(1, 3)] && decide (c.fld 0 1 < 2)
  | .keyWrite c => c.ok 40 [(2, 6)] && (c.fld 0 1 == 0 && decide (c.fld 1 1 < 64) || c.fld 0 1 == 1 && c.fld 1 1 == 0 ||
      c.fld 0 1 == 2 && decide (c.fld 1 1 < 16))
  | .keyHmac c _ => c.ok 24 [(1, 3)] && decide (c.fld 0 1 < 16) && decide (1 ≤ c.fld 4 4) && decide (c.fld 4 4 ≤ 65536) &&
      s.bufOk c.src (c.fld 8 8) (c.fld 4 4) && s.bufOk c.src (c.fld 16 8) 48
  | .tamperClear c => c.ok 4 [(2, 2)] && decide (c.fld 1 1 < 2)
  | .fuseCust c => c.ok 56 [(2, 6)] && (c.fld 0 1 == 4 || c.fld 0 1 == 5) && decide (c.fld 1 1 < 2)
  | _ => true

/-- The status with which a command whose arguments have their form is turned away in state `s`, with none of its effect: what it names does not
exist, is busy, or is in a state that its rule excludes. -/
def Instr.turnedAway (i : Instr) (s : State) : Option Nat :=
  match i with
  | .powerStateSet _ => if s.power.trans.isSome then some st.busy else none
  | .domainReset c => if (c.fld 0 1 = 2 ∨ c.fld 0 1 = 5) ∧ s.power.pstate ≠ .quiet then some st.badState else none
  | .laneRetrain c => if !s.portExists (c.fld 0 2) then some st.badArg else if [0, 8, 9, 12].contains (s.link (c.fld 0 2)) then some st.badState else none
  | .laneQuarantine c => match s.quarHead (c.fld 0 2), s.portOf (c.fld 0 2) with
    | some _, _ => none
    | none, none => some st.badArg
    | none, some n => if c.fld 2 1 = 1 ∧ [0, 9, 12].contains (s.link n) then some st.badState else none
  | .lanePower c => if !s.portExists (c.fld 0 2) then some st.badArg else if [5, 10, 11].contains (s.link (c.fld 0 2)) then
      (if c.fld 2 1 = 1 ∧ s.link (c.fld 0 2) = 11 then some st.badState else none) else some st.badState
  | .laneUcodeLoad c => match s.stagedImage (c.fld 4 4) with
    | none => some st.badArg
    | some i => if i.component ≠ 5 then some st.badArg else if s.host.longOps.any LongOp.loadsUcode then some st.badState else none
  | .laneEyeScan c => if !s.portExists (c.fld 0 2) then some st.badArg else none
  | .statsSnapshot c => if s.ports.snap.isSome then some st.busy
    else if !s.nameOk (c.fld 22 4) (boundaryName (c.fld 16 6) (c.fld 22 4)) then some st.badArg else none
  | .modRead c | .modWrite c => if !s.flag (F.portMod_PRESENT (c.fld 0 1)) then some st.badState else none
  | .genCommit c => if (maskIdx 4 (c.fld 0 1)).any fun p => s.flag (F.pipeGenStatus_COMMIT_WAIT p) then some st.busy else none
  | .genDiscard c | .parseLoad c _ _ => if (maskIdx 4 (c.fld 0 1)).all s.pendOpen then none else some st.badState
  | .deepbufMapout c => if c.fld 1 1 = 1 then
      (if s.fld F.deepStatus_MAPPED ≠ 0 ∨ !bitAt (s.fld F.deepStatus_READY) (c.fld 0 1) then some st.badState else none)
    else if !bitAt (s.fld F.deepStatus_MAPPED) (c.fld 0 1) || s.fabric.evac.isSome || !bitAt s.fabric.tested.toNat (c.fld 0 1) then some st.badState
    else none
  | .deepbufScrub c => if c.fld 1 1 = 1 ∧ c.fld 0 1 &&& s.fld F.deepStatus_MAPPED ≠ c.fld 0 1 then some st.badState else none
  | .tcntWrite c => if !s.cntAllowed (c.fld 0 1) (c.fld 1 1) then some st.badState
    else if s.time.writes.any fun w => w.counter == c.fld 0 1 && s.boundNo w.name == s.boundNo (boundaryName (c.fld 4 6) (c.fld 10 4)) then some st.busy
    else none
  | .sessionSet c => if s.sessCheck (sessPayload c) = st.ok then none else some (s.sessCheck (sessPayload c))
  | .slotAccept c => if s.slotState (c.fld 0 1) ≠ 3 ∨ !(s.slot (c.fld 0 1)).jumped ∨ (s.slot (c.fld 0 1)).switch.isSome ∨
      (c.fld 1 1 = 0 ∧ s.slotKind (c.fld 0 1) = 1) ∨ (c.fld 1 1 = 2 ∧ s.readyPartner (c.fld 0 1) = none) then some st.badState else none
  | .calSweep c => if (maskIdx 128 (c.fld 0 16)).any s.calHeld || (maskIdx 32 (c.fld 16 4)).any fun k => s.calHeld (128 + k) then
      some st.badState else none
  | .refForce c => if c.fld 1 1 = 1 ∧ !s.qualified (c.fld 0 1) (c.fld 2 1) then some st.badState else none
  | .dpllHistReset c => if s.dpllState (c.fld 0 1) = 3 then some st.badState else none
  | .freqLong c => if s.flag (F.fmCfg_EN (c.fld 0 1)) ∨ (s.fm (c.fld 0 1)).owner.isSome then some st.badState else none
  | .pulseLoad c => if ((s.evout (c.fld 0 1)).loads.any fun l => s.boundNo l.2.1 == s.boundNo (boundaryName (c.fld 32 6) (c.fld 38 4))) ||
      s.flag (F.evoutCfg_LOAD (c.fld 0 1)) && s.boundNo (boundaryName (c.fld 32 6) (c.fld 38 4)) == s.boundNo none then some st.busy else none
  | .pairRejoin c => if c.fld 0 1 = s.holder ∧ !s.flag F.redundStatus_UNATTENDED then some st.badState else none
  | .pairSwap _ => if s.pairState (1 - s.holder) ≠ 3 ∨ s.flag F.redundStatus_UNATTENDED then some st.badState
    else if s.redund.swap.isSome then some st.busy else none
  | .longCtrl c => match (s.longAt (BitVec.ofNat 32 (c.fld 0 4))).filter (mayName c) with
    | none => some st.badArg
    | some o => if c.fld 4 1 = 0 then
        (if o.state = .suspended then some st.suspended else if !o.suspendable then some st.badState else if o.suspend.isSome then some st.busy else none)
      else if c.fld 4 1 = 1 then (if o.state ≠ .suspended then some st.badState else none)
      else if !o.cancelable then some st.badState else none
  | .longQuery c => if ((s.longHandle (BitVec.ofNat 32 (c.fld 0 4))).filter (mayName c)).isNone then some st.badArg else none
  | .memCopy c _ _ => if !s.rangeOpen 8 (c.fld 0 4) (c.fld 8 4) then some st.badState else none
  | .updStage _ _ => if s.fld F.updStatus_INSTALLED ≠ 0 then some st.badState else none
  | .updInstall c => if !s.flag F.updStatus_STAGE_VALID || (imageOf s.sec.staged (c.fld 0 1)).isNone then some st.badState else none
  | .keyWrite _ => if s.eraseLatched then some st.badState else none
  | .keyHmac c _ => if (Tab.find (65 + c.fld 0 1) s.sec.keys).isNone then some st.badState else none
  | _ => none

end Sys2Proof
end

