-- ==== Sys2Proof/WellFormed.lean ====
section
/-!
DEFINITION. Sys2Proof/WellFormed.lean: the ranges of operands that their types do not bound.
-/
namespace Sys2Proof

/-- A power-up step is 2 to 7 (spec/02 R60, R61), a main rail's index at most 7 (spec/03 R105). (DESIGN CHOICE, log entry 49) -/
def Instr.wf : Instr → Bool
  | .seqOrderViolation k => decide (2 ≤ k) && decide (k ≤ 7)
  | .powerupTimeout k => decide (2 ≤ k) && decide (k ≤ 7)
  | .supplyReset r => decide (r ≤ 7)
  | _ => true

end Sys2Proof
end

