-- ==== Sys2Proof/Certificates/Slice0/Obligations.lean ====
section
/-!
DEFINITION. Sys2Proof/Certificates/Slice0/Obligations.lean: the statements for the provers.
-/
open Sys2Proof Sys2Proof.Machine

/-- The power-up sequence (spec/02 R61 to R63, R76; spec/03 R81): the lock of the tick PLL starts TCNT0 and the beats at second 0; MAIN_PWR_EN rises where
nothing holds it low; a step out of order, an attempt that times out, and RESET_N held low for 10 s or more leave in GLOBAL_SEQ what the rules say. -/
def Obligations.PowerUp : Prop :=
  (∀ s : State, s.power.aon = true → s.power.pllLocked = false →
    Runs .tickPllLock s fun t => t.power = { s.power with pllLocked := true } ∧ t.time.tick = 0 ∧ t.time.idx = 0 ∧
      t.cnt 0 = { val := 0, incr := 0xA0000000000#48 } ∧ t.time.beatLen = 16000 ∧ t.fld F.globalBeat_BEAT = 0) ∧
  (∀ s : State, s.mayRaise = true → Runs .mainPwrEnHigh s fun t => t.power = { s.power with mainPwrEn := true, retryDue := false }) ∧
  (∀ (s : State) (n : Nat), 2 ≤ n → n ≤ 7 → s.power.aon = true →
    Runs (.seqOrderViolation n) s fun t => t.fld F.globalSeq_ORDER = 1 ∧
      t.fld F.globalSeq_EARLY_STEP = if s.fld F.globalSeq_EARLY_STEP = 0 then n else s.fld F.globalSeq_EARLY_STEP) ∧
  (∀ (s : State) (n : Nat), 2 ≤ n → n ≤ 7 → s.power.aon = true → s.power.mainPwrEn = true → s.power.mainReset = true →
    Runs (.powerupTimeout n) s fun t => t.power = { s.power with mainPwrEn := false, armed := false, retryDue := decide (s.fld F.globalSeq_ATTEMPTS < 2) } ∧
      t.fld F.globalSeq_TIMEOUT = 1 ∧ t.fld F.globalSeq_STUCK_STEP = n ∧ t.fld F.globalSeq_ATTEMPTS = min 3 (s.fld F.globalSeq_ATTEMPTS + 1) ∧
      (2 ≤ s.fld F.globalSeq_ATTEMPTS → t.fld F.globalSeq_GIVEN_UP = 1)) ∧
  (∀ s : State, s.mayRaise = true → s.power.retryDue = true →
    Runs .powerupRetry s fun t => t.power = { s.power with mainPwrEn := true, retryDue := false }) ∧
  (∀ (s : State) (below : Bool), s.power.aon = true →
    Runs (.resetNLong below) s fun t => t.fld F.globalSeq_ATTEMPTS = 0 ∧ t.fld F.globalSeq_GIVEN_UP = 0 ∧
      t.power.therm = (s.power.therm && !below))

/-- Each cause of a main reset resets the main domain and is recorded (spec/03 R91, R92, R95, R98, R103; spec/02 R76): MAIN_POR, a supply below reset, RESET_N,
the system watchdog, a thermal trip, the end of STANDBY. In STANDBY the rails go off where RAILS_OFF was set. -/
def Obligations.MainResets : Prop :=
  (∀ s : State, regsCanon s = true → s.power.aon = true → s.power.mainPwrEn = true → s.power.mainReset = true → s.power.armed = false →
    s.power.pstate ≠ .standby → Runs .mainPor s fun t => MainReset 2 s t ∧ t.power.armed = true) ∧
  (∀ (s : State) (rail : Nat), regsCanon s = true → rail ≤ 7 → s.power.aon = true → s.power.mainPwrEn = true → s.power.mainReset = false →
    s.power.pstate ≠ .standby → Runs (.supplyReset rail) s fun t => MainReset 3 s t ∧ t.fld F.globalResetCause_RAIL = rail ∧ t.power.dip = none ∧
      t.power.armed = true) ∧
  (∀ s : State, regsCanon s = true → s.power.aon = true → s.power.mainReset = false → s.power.pstate ≠ .standby →
    Runs .pinReset s fun t => MainReset 4 s t ∧ t.power.armed = true) ∧
  (∀ s : State, regsCanon s = true → s.power.aon = true → s.power.pstate = .standby →
    Runs .pinReset s fun t => MainReset 8 s t ∧ t.power.mainPwrEn = true ∧ t.power.armed = true) ∧
  (∀ s : State, regsCanon s = true → s.wdtRuns = true →
    1600000 * wdtMs (s.fld F.globalWdtCtrl_TIMEOUT_MS) ≤ s.dogRan s.power.dog true → Runs .wdtReset s fun t => MainReset 5 s t) ∧
  (∀ s : State, regsCanon s = true → s.power.aon = true → s.power.mainPwrEn = true →
    Runs .thermtrip s fun t => MainReset 7 s t ∧ t.power.therm = true ∧ t.power.mainPwrEn = false ∧ t.power.armed = false) ∧
  (∀ s : State, regsCanon s = true → s.power.aon = true → s.power.pstate = .standby → s.power.wakePassed = false → (∃ w, s.power.wake = some w ∧ w ≤ s.now) →
    Runs .standbyWake s fun t => MainReset 8 s t ∧ t.power.mainPwrEn = true ∧ t.power.armed = true) ∧
  (∀ s : State, s.power.pstate = .standby → s.power.railsOff = true →
    Runs .standbyRailsOff s fun t => t.power = { s.power with mainPwrEn := false })

/-- What a main reset leaves of the registers (spec/03 R113): the bits of classes A, V and F of a register keep their values, all others take their reset values;
registers that show the island's own state apart. -/
def Obligations.MainResetRegisters : Prop :=
  ∀ (s : State) (n : Nat) (arm : Bool) (a : Nat) (h : RegHit), regsCanon s = true → RegMap.find a = some h →
    ¬AtReg [Reg.globalResetCause, Reg.globalBeat, Reg.globalDipStatus, Reg.tbIncrLo 0, Reg.tbIncrHi 0, Reg.dpllStatus 0, Reg.dpllHoTts 0,
      Reg.dpllHistIncrLo 0, Reg.dpllHistIncrHi 0] a →
    ¬AtReg reportRegs a →
    (s.mainReset n arm).reg a = (s.reg a &&& BitVec.ofNat 32 h.maskKept) ||| (RegMap.reset a &&& ~~~BitVec.ofNat 32 h.maskKept)

/-- The island's own reset and the loss of its supply (spec/03 R80, R113; spec/02 R59): every register keeps its bits of classes V and F and takes its reset value in all
others; the vault's keys stay; time starts anew. In VAULT-ONLY the device says that it runs on VBAT. -/
def Obligations.IslandReset : Prop :=
  (∀ s : State, regsCanon s = true → s.power.aon = true → Runs .islandReset s fun t =>
    (∀ a h, RegMap.find a = some h → t.reg a = (s.reg a &&& h.maskVault) ||| (RegMap.reset a &&& ~~~h.maskVault)) ∧
    t.sec.keys = s.sec.keys ∧ t.sec.log = s.sec.log ∧ t.time = {} ∧ t.power = {} ∧ t.cores = {} ∧ t.pipes = {} ∧ t.fabric = {} ∧ t.refs = {} ∧
    t.waiting = []) ∧
  (∀ s : State, regsCanon s = true → s.power.aon = true → Runs .vaultOnlyEntry s fun t =>
    t.power = { aon := false } ∧ t.fld F.secStatus_ON_VBAT = 1 ∧ t.sec.keys = s.sec.keys ∧ t.sec.log = s.sec.log ∧ t.time = {} ∧ t.cores = {} ∧
    t.pipes = {} ∧ t.fabric = {})

/-- Supply dips and the oscillator (spec/03 R106 to R108; spec/02 R68, spec/12 R392): entry and exit of DIP show in GLOBAL_DIP_STATUS and raise their events, a long dip raises its
own and asserts ALARM_N; a loss of OSC_IN is recorded and its return makes DPLL0 pull. -/
def Obligations.DipAndOscillator : Prop :=
  (∀ (s : State) (rails : BitVec 9), s.power.aon = true → s.power.mainPwrEn = true → rails ≠ 0 → s.power.dip = none →
    Runs (.dipEnter rails) s fun t =>
      t.power.dip = some { rails := rails, below := rails, lows := [], start := s.now, since := s.now, startTick := s.time.tick } ∧
      t.fld F.globalDipStatus_ACTIVE = 1 ∧ t.fld F.globalDipStatus_RAILS = rails.toNat ∧
      t.fld F.globalDipStatus_COUNT = min 65535 (s.fld F.globalDipStatus_COUNT + 1) ∧
      (s.up = true → Raised 0x0120 16 ((0, 2, rails.toNat) :: Stamp.fields s.now 4) t)) ∧
  (∀ (s : State) (lows : List RailLow) (d : Dip) (w : Nat × Nat), s.power.dip = some d → (d.sampled lows).worst = some w →
    Runs (.dipExit lows) s fun t => t.power = { s.dogMark.power with dip := none, lastDip := some (d.since, s.now), alarmDip := false } ∧
      t.fld F.globalDipStatus_ACTIVE = 0 ∧ t.fld F.globalDipStatus_RAILS = 0) ∧
  (∀ (s : State) (lows : List RailLow) (d : Dip) (w : Nat × Nat), s.power.dip = some d → (d.sampled lows).worst = some w → d.long = false →
    d.startTick + 1600000 * s.dipMax < s.time.tick → Runs (.dipLong lows) s fun t => t.power.dip = some { d.sampled lows with long := true } ∧ t.power.alarmDip = true ∧ t.alarm = true ∧
      (s.up = true → Raised 0x0122 16 [(0, 2, d.below.toNat), (2, 1, w.1), (4, 2, w.2), (8, 4, s.dipMax),
        (12, 4, ticksMs (s.time.tick - d.startTick))] t)) ∧
  (∀ s : State, s.power.aon = true → s.power.pllLocked = true →
    Runs .oscLoss s fun t => t.fld F.globalSeq_OSC_LOST = 1 ∧ t.power = { s.power with oscHeld := true }) ∧
  (∀ s : State, s.power.oscHeld = true →
    Runs .oscReturn s fun t => t.power = { s.power with oscHeld := false } ∧ t.dpll 0 = { s.dpll 0 with pullDue := true })

/-- The system watchdog and the soft chip reset (spec/03 R93, R94, R98, R99, R111): the warning, the two writes of a kick by one allowed source within 1 ms, a setting that keeps the
nesting, one that breaks it, the key of a chip reset and the command CHIP_RESET. -/
def Obligations.WatchdogAndChipReset : Prop :=
  (∀ s : State, s.wdtRuns = true → 1200000 * wdtMs (s.fld F.globalWdtCtrl_TIMEOUT_MS) ≤ s.dogRan s.power.dog true → Runs .wdtWarn s fun t =>
    Raised 0x0104 16 [(0, 4, wdtMs (s.fld F.globalWdtCtrl_TIMEOUT_MS)), (4, 4, ticksMs (s.time.tick - s.power.wdtTick)),
      (8, 1, s.fld F.globalWdtCtrl_SRC_CORE4 + 2 * s.fld F.globalWdtCtrl_SRC_HOST), (12, 4, s.beat)] t) ∧
  (∀ (s : State) (src : WrSrc), s.up = true → Runs (.wdtKick src 0xA5C3#32) s fun t =>
    t.power = { s.power with kick := some (src, s.time.tick) }) ∧
  (∀ (s : State) (src : WrSrc) (n : Nat), s.up = true → s.power.kick = some (src, n) → s.wdtSource src = true → s.time.tick ≤ n + 1600000 →
    Runs (.wdtKick src 0x5A3C#32) s fun t => t.power = { s.power with kick := none, wdtTick := s.time.tick, dog := ⟨0, s.time.tick⟩ }) ∧
  (∀ (s : State) (src : WrSrc) (v : Word), s.up = true → s.wdtOver (F.globalWdtCtrl_EN.of v == 1) (F.globalWdtCtrl_TIMEOUT_MS.of v) = true →
    Runs (.wdtCtrlWrite src v) s fun t => t.fld F.globalWdtCtrl_EN = F.globalWdtCtrl_EN.of v ∧
      t.fld F.globalWdtCtrl_TIMEOUT_MS = F.globalWdtCtrl_TIMEOUT_MS.of v ∧ t.fld F.globalWdtCtrl_SRC_HOST = F.globalWdtCtrl_SRC_HOST.of v ∧
      t.fld F.globalWdtCtrl_SRC_CORE4 = F.globalWdtCtrl_SRC_CORE4.of v) ∧
  (∀ (s : State) (src : WrSrc) (v : Word), s.up = true → s.wdtOver (F.globalWdtCtrl_EN.of v == 1) (F.globalWdtCtrl_TIMEOUT_MS.of v) = false →
    Runs (.wdtCtrlWrite src v) s fun t => t.fld F.globalWdtCtrl_CFG_ERR = 1 ∧ t.fld F.globalWdtCtrl_EN = s.fld F.globalWdtCtrl_EN ∧
      t.fld F.globalWdtCtrl_TIMEOUT_MS = s.fld F.globalWdtCtrl_TIMEOUT_MS) ∧
  (∀ (s : State) (src : WrSrc) (v : Word), s.up = true → F.globalResetCtrl_CHIP.of v = 1 → F.globalResetCtrl_KEY.of v = 0xC4A7 →
    Runs (.resetCtrlChip src v) s fun t => t.fld F.globalResetCtrl_CHIP = 1 ∧ t.power = { s.power with softPending := true }) ∧
  (∀ (s : State) (c : Cmd), s.takes c 0x0103 = true → c.ok 2 = true → c.fld 0 2 = 0xC4A7 →
    Runs (.chipReset c) s fun t => t.power.softPending = true ∧
      ∃ u, Completed c 0x0103 st.ok (fun _ => True) u ∧ t = { u with power := { u.power with softPending := true } })

/-- A port comes up (spec/04 R128 to R130): a signal begins an attempt in the state its mode starts in; auto-negotiation, training that reaches the lanes' least figure of merit, and
alignment each lead on; the end of a back-off leads back to DETECT. -/
def Obligations.LinkComesUp : Prop :=
  (∀ (s : State) (p : Fin 128), s.up = true → s.validPort p = true → s.link p = 1 → Runs (.signalDetect p) s fun t =>
    t.link p = (if s.flag (F.laneCfg_C2M p) then 4 else if !s.isKl p && s.flag (F.laneCfg_AN_EN p) then 2 else 3) ∧
    t.fld (F.laneStatus_ATTEMPT p) = min 15 (s.fld (F.laneStatus_ATTEMPT p) + 1) ∧ t.fld (F.laneStatus_LAST_CAUSE p) = 1) ∧
  (∀ (s : State) (p : Fin 128), s.up = true → s.validPort p = true → s.link p = 2 →
    Runs (.anDone p) s fun t => t.link p = 3 ∧ t.fld (F.laneStatus_LAST_CAUSE p) = 4) ∧
  (∀ (s : State) (p : Fin 128) (foms : List (BitVec 8)) (preset : BitVec 4), s.up = true → s.validPort p = true → s.link p = 3 →
    (∀ m ∈ s.portLanes p, s.fld (F.laneFom_MIN m) ≤ (foms.getD (m - p) 0).toNat) → (∀ m ∈ s.portLanes p, m < 128) →
    Runs (.trainDone p foms preset) s fun t => t.link p = 4 ∧ t.fld (F.laneStatus_LAST_CAUSE p) = 5) ∧
  (∀ (s : State) (p : Fin 128), s.up = true → s.validPort p = true → s.link p = 4 → s.aligned p = true →
    Runs (.alignDone p) s fun t => t.link p = 5 ∧ t.fld (F.laneStatus_ATTEMPT p) = 0 ∧ t.fld (F.laneStatus_LAST_CAUSE p) = 6) ∧
  (∀ (s : State) (p : Fin 128), s.up = true → s.validPort p = true → s.link p = 7 →
    (s.lane p).enterTick + 1600000000 * (s.lane p).wait ≤ s.time.tick → Runs (.backoffDone p) s fun t => t.link p = 1 ∧ t.fld (F.laneStatus_BACKOFF_S p) = 0)

/-- A link fails and recovers (spec/04 R130 to R133, R138): a failed attempt leads to DETECT, or to NO_PARTNER once ATTEMPTS have failed in a row; lost lock leads to
RELOCK, or to DETECT where TRIES is 0; a try that succeeds leads to ACTIVE, the last that fails to DETECT; the exits from L1 and L2 end in ACTIVE and in DETECT. -/
def Obligations.LinkFailsAndRecovers : Prop :=
  (∀ (s : State) (p : Fin 128), s.up = true → s.validPort p = true → s.attempting p = true →
    (s.lane p).attemptTick + 1600000 * s.attemptMs p ≤ s.time.tick → Runs (.attemptTimeout p) s fun t =>
    t.link p = if max 1 (s.fld (F.laneTrain_ATTEMPTS p)) ≤ s.fld (F.laneStatus_ATTEMPT p) then 7 else 1) ∧
  (∀ (s : State) (p : Fin 128) (mask : BitVec 8), s.up = true → s.validPort p = true → s.attempting p = true →
    Runs (.signalLoss p mask) s fun t =>
      t.link p = if max 1 (s.fld (F.laneTrain_ATTEMPTS p)) ≤ s.fld (F.laneStatus_ATTEMPT p) then 7 else 1) ∧
  (∀ (s : State) (p : Fin 128) (mask : BitVec 8) (c : Instr), c ∈ [Instr.lockLost p mask, .signalLoss p mask] → s.up = true → s.validPort p = true → s.link p = 5 →
    (s.lane p).partnerL1 = false → Runs c s fun t =>
      t.link p = (if 0 < s.fld (F.laneRelock_TRIES p) then 6 else 1) ∧ t.fld (F.laneStatus_RECOVERING p) = 1) ∧
  (∀ (s : State) (p : Fin 128) (mask : BitVec 8) (c : Instr), c ∈ [Instr.lockLost p mask, .signalLoss p mask] → s.up = true → s.validPort p = true → s.link p = 5 →
    (s.lane p).partnerL1 = true → Runs c s fun t => t = s) ∧
  (∀ (s : State) (p : Fin 128) (mask : BitVec 8), s.up = true → s.validPort p = true → s.link p = 6 →
    Runs (.relockTryEnd p true mask) s fun t => t.link p = 5 ∧ t.fld (F.laneStatus_RECOVERING p) = 0) ∧
  (∀ (s : State) (p : Fin 128) (mask : BitVec 8), s.up = true → s.validPort p = true → s.link p = 6 →
    s.fld (F.laneRelock_TRIES p) ≤ (s.lane p).tries → Runs (.relockTryEnd p false mask) s fun t => t.link p = 1) ∧
  (∀ (s : State) (p : Fin 128), s.up = true → s.validPort p = true → (s.lane p).exiting = true → s.link p = 11 ∨ s.link p = 12 →
    Runs (.l2ExitDone p) s fun t => t.link p = 1) ∧
  (∀ (s : State) (p : Fin 128), s.up = true → s.validPort p = true → (s.lane p).exiting = true → s.link p = 10 →
    Runs (.l1ExitDone p) s fun t => t.link p = 5) ∧
  (∀ (s : State) (m : Fin 128) (code : BitVec 8), s.up = true → (s.owner m).any s.portUp = true → bitAt s.cal.eye.toNat m = false → s.burstDue m = true →
    Runs (.adaptBurst m code) s fun t => t.fld (F.laneFom_CODE m) = code.toNat)

/-- Writes of lane and group registers, and of a test loop (spec/04 R115, R134, R139, R147; spec/08 R260): the register holds the bits written, at once, where the relock time nests
in the port-down hold and the headroom of the ports fits; one that does not nest or fit is refused and sets CFG_ERR. -/
def Obligations.LaneWrites : Prop :=
  (∀ (s : State) (src : WrSrc) (n : Fin 128) (v : Word), s.up = true → (s.laneCfgSet n v).headroomOk = true → Runs (.laneCfgWrite src n 0 v) s fun t =>
    t.reg (Reg.laneCfg n) = v &&& rwMask (Reg.laneCfg n)) ∧
  (∀ (s : State) (src : WrSrc) (n : Fin 128) (v : Word), s.up = true → (s.laneCfgSet n v).headroomOk = false → Runs (.laneCfgWrite src n 0 v) s fun t =>
    t.reg (Reg.laneCfg n) = s.reg (Reg.laneCfg n) ∧ t.fld F.fabricStatus_CFG_ERR = 1) ∧
  (∀ (s : State) (src : WrSrc) (n : Fin 128) (v : Word), s.up = true → Runs (.laneCfgWrite src n 1 v) s fun t =>
    t.reg (Reg.laneTrain n) = v &&& rwMask (Reg.laneTrain n)) ∧
  (∀ (s : State) (src : WrSrc) (n : Fin 128) (v : Word), s.up = true →
    relockOk (v &&& rwMask (Reg.laneRelock n)) (s.fld (F.fabricPort_PORT_DOWN_HOLD_MS n)) = true →
    Runs (.laneCfgWrite src n 2 v) s fun t => t.reg (Reg.laneRelock n) = v &&& rwMask (Reg.laneRelock n)) ∧
  (∀ (s : State) (src : WrSrc) (n : Fin 128) (v : Word), s.up = true →
    relockOk (v &&& rwMask (Reg.laneRelock n)) (s.fld (F.fabricPort_PORT_DOWN_HOLD_MS n)) = false →
    Runs (.laneCfgWrite src n 2 v) s fun t => t.reg (Reg.laneRelock n) = s.reg (Reg.laneRelock n) ∧ t.fld (F.laneStatus_CFG_ERR n) = 1) ∧
  (∀ (s : State) (src : WrSrc) (g : Fin 32) (v : Word), s.up = true → Runs (.laneGrpWrite src g v) s fun t =>
    t.fld (F.laneGrp_RATE g) = (F.laneGrp_RATE g).of v ∧ t.fld (F.laneGrp_DPLL_SEL g) = (F.laneGrp_DPLL_SEL g).of v) ∧
  (∀ (s : State) (src : WrSrc) (m : Fin 128) (v : Word), s.up = true → Runs (.loopSet src m v) s fun t =>
    t.reg (Reg.laneLoop m) = v &&& rwMask (Reg.laneLoop m))

/-- Lane commands (spec/04 R130, R138, R141 to R144): a port retrains from DETECT; a lane puts its port in QUARANTINE; a port enters L2; a microcode load and an eye scan are accepted as
long operations, whose port in the loaded group enters UCODE. -/
def Obligations.LaneCommands : Prop :=
  (∀ (s : State) (c : Cmd), s.takes c 0x0201 = true → c.ok 2 = true → s.portExists (c.fld 0 2) = true →
    ¬(s.fetched c).link (c.fld 0 2) ∈ [0, 8, 9, 12] → Runs (.laneRetrain c) s fun t =>
      Completed c 0x0201 st.ok (fun u => u.link (c.fld 0 2) = 1 ∧ u.fld (F.laneStatus_ATTEMPT (c.fld 0 2)) = 0) t) ∧
  (∀ (s : State) (c : Cmd) (n : Nat), s.takes c 0x0202 = true → c.ok 4 = true → c.fld 2 1 = 1 → c.fld 3 1 < 2 →
    (s.fetched c).quarHead (c.fld 0 2) = none → (s.fetched c).portOf (c.fld 0 2) = some n → n < 128 →
    ¬(s.fetched c).link n ∈ [0, 9, 12] → Runs (.laneQuarantine c) s fun t =>
      Completed c 0x0202 st.ok (fun u => u.link n = 8 ∧ u.fld (F.laneStatus_QUAR (c.fld 0 2)) = 1 ∧ (u.lane n).quarPrbs = (c.fld 3 1 == 1)) t) ∧
  (∀ (s : State) (c : Cmd), s.takes c 0x0203 = true → c.ok 3 = true → c.fld 2 1 = 2 → s.portExists (c.fld 0 2) = true →
    (s.fetched c).link (c.fld 0 2) = 5 ∨ (s.fetched c).link (c.fld 0 2) = 10 → Runs (.lanePower c) s fun t =>
      Completed c 0x0203 st.ok (fun u => u.link (c.fld 0 2) = 11) t) ∧
  (∀ (s : State) (c : Cmd) (i : Image), s.takes c 0x0204 = true → c.ok 8 [(1, 3)] = true → c.fld 0 1 < 32 →
    (s.fetched c).stagedImage (c.fld 4 4) = some i → i.component = 5 → (s.fetched c).host.longOps.any LongOp.loadsUcode = false →
    Runs (.laneUcodeLoad c) s fun t =>
      t = (s.fetched c).startLong c 0x0204 0x0204 1 [c.fld 0 1, i.version.toNat] (fun u _ => u.ucodeBegin (c.fld 0 1))) ∧
  (∀ (s : State) (g : Fin 32) (o : LongOp), s.host.longOps.find? (fun o => o.loadsUcode && o.ucodeGroup == g.val) = some o → o.op = 0x0204 →
    Runs (.ucodeLoadDone g 0) s fun t => t.fld (F.laneGrp_UCODE_VER g) = o.args.getD 1 0 % 65536) ∧
  (∀ (s : State) (c : Cmd), s.takes c 0x0205 = true → c.ok 16 [(4, 4)] = true → 1 ≤ c.fld 2 1 → c.fld 2 1 ≤ 128 → 1 ≤ c.fld 3 1 → c.fld 3 1 ≤ 128 →
    c.fld 8 8 % 4 = 0 → s.bufOk c.src (c.fld 8 8) (4 * c.fld 2 1 * c.fld 3 1) = true → (s.fetched c).portExists (c.fld 0 2) = true →
    Runs (.laneEyeScan c) s fun t =>
      t = (s.fetched c).startLong c 0x0205 (0x20000 + c.fld 0 2) (c.fld 2 1 * c.fld 3 1) [c.fld 0 2, c.fld 8 8]
        fun u _ => (u.pathDrop (c.fld 0 2)).modCal fun x => { x with eye := x.eye ||| BitVec.ofNat 128 (2 ^ c.fld 0 2) })

/-- Knaeno-link markers (spec/04 R119 to R126, R133, R138, R150): a bad marker is counted, and the fourth in a row loses lock of an ACTIVE port; a good DATA marker shows the partner's L1
flag. The next superblock leaves with its marker; a port that has announced L1 for a whole superframe enters it. Every marker sent has a good SYNC and CHECK and tells its SBIDX; stuffing,
Gray mapping and scrambling are undone on the way back. -/
def Obligations.KlMarkers : Prop :=
  (∀ (s : State) (p : Fin 128) (m : KlMarker) (st : StampIn) (l : List (Fin 4)) (r : Run × Nat × List Bool × BitVec 64), s.up = true → s.klRuns p = true →
    s.klSymbols p m.symbols = some l → klReceive (s.pam4 p) (s.lane p).rx.run l = r → markerOk r.2.2.2 = false →
    s.portUp p = false ∨ (s.lane p).partnerL1 = true ∨ (s.lane p).rx.bad < 3 → Runs (.klMarkerRx p m st) s fun t =>
      t.fld (F.laneErrCnt_COUNT p 4) = min (2 ^ 32 - 1) (s.fld (F.laneErrCnt_COUNT p 4) + 1) ∧ (t.lane p).rx.bad = (s.lane p).rx.bad + 1 ∧ (t.lane p).rx.good = 0) ∧
  (∀ (s : State) (p : Fin 128) (m : KlMarker) (st : StampIn) (l : List (Fin 4)) (r : Run × Nat × List Bool × BitVec 64), s.up = true → s.klRuns p = true →
    s.klSymbols p m.symbols = some l → klReceive (s.pam4 p) (s.lane p).rx.run l = r → markerOk r.2.2.2 = false →
    s.portUp p = true → (s.lane p).partnerL1 = false → 3 ≤ (s.lane p).rx.bad → Runs (.klMarkerRx p m st) s fun t =>
      t.link p = (if 0 < s.fld (F.laneRelock_TRIES p) then 6 else 1) ∧ t.fld (F.laneStatus_RECOVERING p) = 1) ∧
  (∀ (s : State) (p : Fin 128) (m : KlMarker) (st : StampIn) (l : List (Fin 4)) (r : Run × Nat × List Bool × BitVec 64), s.up = true → s.klRuns p = true →
    s.klSymbols p m.symbols = some l → klReceive (s.pam4 p) (s.lane p).rx.run l = r → markerOk r.2.2.2 = true →
    r.2.2.2.extractLsb' 40 8 = 1 → Runs (.klMarkerRx p m st) s fun t =>
      (t.lane p).partnerL1 = r.2.2.2.getLsbD 21 ∧ (t.lane p).rx.good = (s.lane p).rx.good + 1 ∧ (t.lane p).rx.bad = 0 ∧ (t.lane p).rx.run = r.1 ∧
      (t.lane p).rx.last = s.markerStamp p (s.captured p 0 st) true) ∧
  (∀ (s : State) (p : Fin 128) (m : KlMarker) (st : StampIn), s.up = true → s.klRuns p = true → s.klSymbols p m.symbols = none →
    Runs (.klMarkerRx p m st) s fun t => t = s.lineErrs p m.errs) ∧
  (∀ (s : State) (p : Fin 128) (st : StampIn) (t0 : Stamp) (y : KlTx × BitVec 64 × List (Fin 4)), s.up = true → s.klRuns p = true → (s.lane p).l1Due = false →
    s.markerStamp p (s.captured p 1 st) false = t0 → s.klNext p t0 = y → Runs (.klMarkerTx p st) s fun t =>
      t.lane p = { s.lane p with
        tx := y.1, l1Sent := (s.lane p).l1Says
        looped := if s.nearLoop p then loopIn (s.lane p).looped (klMarkLen (s.pam4 p) (s.lane p).tx.run y.2.1) y.2.2 else (s.lane p).looped } ∧
      (s.drive p = .traffic ∨ s.drive p = .fill →
        t.line = .superblock p (s.lane p).tx.idx y.2.1 t0 (if s.flag (F.laneCfg_TX_INV p) then y.2.2.map Fin.rev else y.2.2) :: s.line)) ∧
  (∀ (s : State) (p : Fin 128) (st : StampIn), s.up = true → s.klRuns p = true → (s.lane p).l1Due = true → Runs (.klMarkerTx p st) s fun t => t.link p = 10) ∧
  (∀ (x : KlTx) (pam4 rf l1 : Bool) (start : Option Nat), x.idx < 256 → markerOk (x.marker pam4 rf l1 start) = true ∧ markerIdx (x.marker pam4 rf l1 start) = some x.idx) ∧
  (∀ (r : Run) (l : List (Fin 4)), r.2 < 24 → unstuff r (stuff r l).1 = (l, (stuff r l).2, 0)) ∧
  (∀ (pam4 : Bool) (l : List Bool), l.length % 2 = 0 → unmapSyms pam4 (mapBits pam4 l) = l) ∧
  (∀ (i : Nat) (l : List Bool), scramble (scrSeed i) (scramble (scrSeed i) l) = l)


/-- Received and sent pause (spec/05 R160 to R164): a PAUSE frame stops the port for its quanta and is counted, the end of the time lets it go, a storm is marked, counted and, with
ACT, ignored until its end; an XOFF in force is refreshed. -/
def Obligations.PauseRules : Prop :=
  (∀ (s : State) (n : Fin 128) (p : PauseIn), s.up = true → s.portUp n = true → p.pfc = false → s.quiet = false → s.pauseMode n = 1 →
    bitAt (s.mac n).ignore.toNat 0 = false → (p.quanta.getD 0 0).toNat ≠ 0 → Runs (.pauseRx n p) s fun t =>
      Tab.get (t.mac n).pauseEnd 0 0 = s.time.tick + quantaTicks (p.quanta.getD 0 0).toNat (s.macRate n) ∧
      t.portCnt n 5 = (s.portCnt n 5 + 1) % 2 ^ 64 ∧ t.portCnt n 1 = (s.portCnt n 1 + 1) % 2 ^ 64 ∧ t.portCnt n 19 = (s.portCnt n 19 + 64) % 2 ^ 64) ∧
  (∀ (s : State) (n : Fin 128) (p : Fin 8), Tab.get (s.mac n).pauseEnd 0 p ≠ 0 → Tab.get (s.mac n).pauseEnd 0 p ≤ s.time.tick →
    Runs (.pauseExpire n p) s fun t =>
    Tab.get (t.mac n).pauseEnd 0 p = 0) ∧
  (∀ (s : State) (n : Fin 128) (pris : BitVec 8) (m : Nat), s.up = true → s.fld (F.portStorm_MS n) ≠ 0 →
    m = idxMask ((maskIdx 8 pris.toNat).filter fun p => !bitAt (s.fld (F.portPauseStatus_STORM n)) p &&
      (Tab.find p (s.mac n).stopTick).any fun t => decide (t + s.stormTicks n ≤ s.time.tick)) → m ≠ 0 → Runs (.pauseStorm n pris) s fun t =>
      t.fld (F.portPauseStatus_STORM n) = s.fld (F.portPauseStatus_STORM n) ||| m ∧
      (s.flag (F.portStorm_ACT n) = false → t.portCnt n 47 = (s.portCnt n 47 + 1) % 2 ^ 64 ∧
        Raised 0x0303 16 ([(0, 2, n.val), (2, 1, m)] ++ Stamp.fields s.now 4) t) ∧
      (s.flag (F.portStorm_ACT n) = true → (t.mac n).ignore = (s.mac n).ignore ||| BitVec.ofNat 8 m)) ∧
  (∀ (s : State) (n : Fin 128) (p : Fin 8), bitAt (s.mac n).ignore.toNat p = true →
    Tab.get (s.mac n).pauseTick 0 p + s.stormTicks n ≤ s.time.tick → Runs (.pauseStormEnd n p) s fun t =>
    bitAt (t.mac n).ignore.toNat p = false ∧ Tab.get (t.mac n).pauseEnd 0 p = 0) ∧
  (∀ (s : State) (n : Fin 128) (l : List (BitVec 8)), s.refreshDue n ≠ 0 → s.pauseMode n ≠ 0 → s.quiet = false → s.portUp n = true →
    l = s.pauseFrame n (s.refreshDue n) (fun p => if bitAt (s.refreshDue n) p then s.fld (F.portPause_TX_QUANTA n) else 0) → Runs (.xoffRefresh n) s fun t =>
      (s.txBusy n = false → t.line = .frame n (s.lead n l) l (if s.isKl n then 0 else 12) :: s.line ∧ t.portCnt n 29 = (s.portCnt n 29 + 1) % 2 ^ 64) ∧
      (s.txBusy n = true → t.line = s.line ∧ (t.mac n).ctrl = (s.mac n).ctrl ++ [l])) ∧
  (∀ (s : State) (src : WrSrc) (n : Fin 128) (v : Word), s.up = true → v.getLsbD 8 = false → Runs (.saCommit src n v) s fun t =>
    t.station n = (F.portSaHi_ADDR_HI n).of v * 2 ^ 32 + (s.reg (Reg.portSaLo n)).toNat)

/-- Snapshots and modules (spec/05 R167 to R172): a snapshot waits for its boundary and its transfer's end completes it; an access to a present module joins its bus, an absent one's ends with
BAD_STATE; the outputs of a slot are set; an acknowledged transfer completes, a NACK is tried again; a scan reads every slot of the chain; presence is accepted and reported. -/
def Obligations.SnapshotsAndModules : Prop :=
  (∀ (s : State) (c : Cmd), s.takes c 0x0301 = true → c.ok 40 [(26, 6)] = true → c.fld 22 4 < 100000 → c.fld 32 8 % 64 = 0 →
    s.bufOk c.src (c.fld 32 8) (64 + 576 * (s.ports'.filter (bitAt (c.fld 0 16))).length) = true →
    s.nameOk (c.fld 22 4) (boundaryName (c.fld 16 6) (c.fld 22 4)) = true → (s.fetched c).ports.snap = none → Runs (.statsSnapshot c) s fun t =>
      t.ports.snap = some { id := (s.fetched c).host.nextId, ports := BitVec.ofNat 128 (c.fld 0 16), name := boundaryName (c.fld 16 6) (c.fld 22 4), addr := c.fld 32 8 } ∧
      t.host = ((s.fetched c).park c 0x0301).host) ∧
  (∀ (s : State) (x : SnapXfer) (p : Parked), s.ports.xfer = some x → x.src = .host → s.parkedAt x.id = some p → p.lost = false → Runs .snapshotXferDone s fun t =>
    Completed p.cmd p.op st.ok (fun u => u.ports.xfer = none ∧ u.parkedAt x.id = none) t) ∧
  (∀ (s : State) (c : Cmd), s.takes c 0x0302 = true → c.ok 16 [(5, 3)] = true → c.fld 0 1 < 64 → modRangeOk (c.fld 3 1) (c.fld 4 1) 128 = true →
    s.bufOk c.src (c.fld 8 8) (c.fld 4 1) = true →
    Runs (.modRead c) s fun t =>
      (s.flag (F.portMod_PRESENT (c.fld 0 1)) = true →
        (t.bus (c.fld 0 1 % 16)).xfers = ((s.fetched c).bus (c.fld 0 1 % 16)).xfers ++ [modAccessOf c (s.fetched c).host.nextId false]) ∧
      (s.flag (F.portMod_PRESENT (c.fld 0 1)) = false → Completed c 0x0302 st.badState (fun _ => True) t)) ∧
  (∀ (s : State) (c : Cmd), s.takes c 0x0303 = true → c.ok 16 [(5, 3)] = true → c.fld 0 1 < 64 → modRangeOk (c.fld 3 1) (c.fld 4 1) 8 = true →
    Runs (.modWrite c) s fun t =>
      (s.flag (F.portMod_PRESENT (c.fld 0 1)) = true →
        (t.bus (c.fld 0 1 % 16)).xfers = ((s.fetched c).bus (c.fld 0 1 % 16)).xfers ++ [modAccessOf c (s.fetched c).host.nextId true]) ∧
      (s.flag (F.portMod_PRESENT (c.fld 0 1)) = false → Completed c 0x0303 st.badState (fun _ => True) t)) ∧
  (∀ (s : State) (c : Cmd), s.takes c 0x0304 = true → c.ok 2 = true → c.fld 0 1 < 64 → c.fld 1 1 < 8 → Runs (.modSideband c) s fun t =>
    Completed c 0x0304 st.ok (fun u => u.fld (F.portMod_RESET_L (c.fld 0 1)) = c.fld 1 1 % 2 ∧
      u.fld (F.portMod_LPMODE (c.fld 0 1)) = c.fld 1 1 / 2 % 2 ∧ u.fld (F.portMod_GP_OUT (c.fld 0 1)) = c.fld 1 1 / 4) t) ∧
  (∀ (s : State) (b : Fin 16) (data : List (BitVec 8)) (x : I2cXfer) (rest : List I2cXfer) (p : Parked), (s.bus b).xfers = x :: rest →
    x.retryAt = none → x.src = .host → x.nacks = 0 → s.parkedAt x.id = some p → p.lost = false → Runs (.i2cTransferEnd b true data false) s fun t =>
      Completed p.cmd p.op st.ok (fun u => (u.bus b).xfers = rest ∧ u.parkedAt x.id = none) t) ∧
  (∀ (s : State) (b : Fin 16) (data : List (BitVec 8)) (x : I2cXfer) (rest : List I2cXfer), (s.bus b).xfers = x :: rest →
    x.retryAt = none → x.nacks < s.fld (F.portI2c_RETRIES b) → Runs (.i2cTransferEnd b false data false) s fun t =>
      (t.bus b).xfers = { x with nacks := x.nacks + 1, retryAt := some (s.time.tick + 1600000 * max 1 (s.fld (F.portI2c_RETRY_MS b))) } :: rest) ∧
  (∀ (s : State) (b : Fin 16) (x : I2cXfer) (rest : List I2cXfer) (w : Nat), (s.bus b).xfers = x :: rest → x.retryAt = some w → w ≤ s.time.tick →
    Runs (.i2cRetry b) s fun t => (t.bus b).xfers = { x with retryAt := none } :: rest ∧ (t.bus b).sel = some x.slot) ∧
  (∀ (s : State) (inputs : List (BitVec 4)), s.up = true → Runs (.sgpioScan inputs) s fun t =>
    ∀ m < s.chainSlots, (t.slotIo m).inp = inputs.getD m 0xF#4) ∧
  (∀ (s : State) (m : Fin 64) (present : Bool), s.up = true → s.flag (F.portMod_PRESENT m) ≠ present → Runs (.modPresent m present) s fun t =>
    t.flag (F.portMod_PRESENT m) = present ∧ Raised 0x0301 16 ([(0, 2, m.val), (2, 1, bit present)] ++ Stamp.fields s.now 4) t)

/-- Generations and fragments (spec/06 R186, R201 to R205): a GEN_COMMIT waits for its boundary in every pipeline it names; when the last frame of DRAINING has left, PENDING opens as a
copy of ACTIVE; GEN_DISCARD makes that copy too; a valid program goes into PENDING; fragment records are flushed and expire. -/
def Obligations.Generations : Prop :=
  (∀ (s : State) (c : Cmd), s.takes c 0x0401 = true → c.ok 16 [(2, 2), (14, 2)] = true → c.fld 0 1 < 16 → c.fld 1 1 < 2 →
    s.nameOk (c.fld 10 4) (boundaryName (c.fld 4 6) (c.fld 10 4)) = true →
    (∀ p ∈ maskIdx 4 (c.fld 0 1), (s.fetched c).flag (F.pipeGenStatus_COMMIT_WAIT p) = false) → Runs (.genCommit c) s fun t =>
      t.pipes.commits = (s.fetched c).pipes.commits ++ [{ id := (s.fetched c).host.nextId, pipes := maskIdx 4 (c.fld 0 1), name := boundaryName (c.fld 4 6) (c.fld 10 4), allOrNone := c.fld 1 1 == 1 }] ∧
      ∀ p ∈ maskIdx 4 (c.fld 0 1), t.flag (F.pipeGenStatus_COMMIT_WAIT p) = true) ∧
  (∀ (s : State) (p : Fin 4), s.drnValid p = true → s.fld (F.pipeGenDrain_COUNT p) = 0 → Runs (.genDrained p) s fun t =>
    t.drnValid p = false ∧ t.pendOpen p = true ∧ (t.pipe p).parser.defPend = (s.pipe p).parser.defAct ∧
    (t.pipe p).parser.progPend = (s.pipe p).parser.progAct ∧ (t.pipe p).parser.progDrain = none) ∧
  (∀ (s : State) (c : Cmd), s.takes c 0x0402 = true → c.ok 1 = true → c.fld 0 1 < 16 →
    (∀ p ∈ maskIdx 4 (c.fld 0 1), (s.fetched c).pendOpen p = true) → Runs (.genDiscard c) s fun t =>
      Completed c 0x0402 st.ok (fun u => ∀ p ∈ maskIdx 4 (c.fld 0 1), (u.pipe p).parser.defPend = (s.pipe p).parser.defAct ∧
        (u.pipe p).parser.progPend = (s.pipe p).parser.progAct) t) ∧
  (∀ (s : State) (c : Cmd) (prog : ParseProg) (crcOk : Bool), s.takes c 0x0403 = true → c.ok 16 [(1, 3)] = true → c.fld 0 1 < 16 →
    64 ≤ c.fld 4 4 → c.fld 4 4 ≤ 16448 → s.bufOk c.src (c.fld 8 8) (c.fld 4 4) = true → prog.valid crcOk = true →
    (∀ p ∈ maskIdx 4 (c.fld 0 1), (s.fetched c).pendOpen p = true) → Runs (.parseLoad c prog crcOk) s fun t =>
      Completed c 0x0403 st.ok (fun u => ∀ p ∈ maskIdx 4 (c.fld 0 1), (u.pipe p).parser.progPend = some prog) t) ∧
  (∀ (s : State) (c : Cmd), s.takes c 0x0404 = true → c.ok 1 = true → c.fld 0 1 < 16 → Runs (.fragFlush c) s fun t =>
    Completed c 0x0404 st.ok (fun u => ∀ p ∈ maskIdx 4 (c.fld 0 1), (u.pipe p).parser.frags = [] ∧ u.fld (F.pipeFragStatus_USED p) = 0) t) ∧
  (∀ (s : State) (p : Fin 4) (i : Fin 1024), (Tab.find i (s.pipe p).parser.frags).any (s.fragOver p) = true → Runs (.fragExpire p i) s fun t =>
    (t.pipe p).parser.frags = Tab.del i (s.pipe p).parser.frags)

/-- The parser's window on the TCAM (spec/06 R200, R210): READ shows the entry's words or says that there is none in the view, WRITE puts the words into a free place of PENDING,
REMOVE takes an entry that only PENDING holds away; each with ERR as the rule says. -/
def Obligations.ParserWindow : Prop :=
  (∀ (s : State) (p : Fin 4) (w : Word) (e : TcamEntry), s.up = true → (F.pipeWinCtrl_GO p).of w = 1 → (F.pipeWinCtrl_TARGET p).of w = 0 →
    Tab.find ((F.pipeWinCtrl_INDEX p).of w) (s.pipe p).parser.tcam = some e → inView e.view ((F.pipeWinCtrl_VIEW p).of w) = true →
    Runs (.winRead p w) s fun t => t.fld (F.pipeWinStatus_ERR p) = 0 ∧
      ∀ i < 43, t.reg (Reg.pipeWinData p i) = BitVec.ofNat 32 (wordsOfTcam e / 2 ^ (32 * i))) ∧
  (∀ (s : State) (p : Fin 4) (w : Word), s.up = true → (F.pipeWinCtrl_GO p).of w = 1 → (F.pipeWinCtrl_TARGET p).of w = 0 →
    Tab.find ((F.pipeWinCtrl_INDEX p).of w) (s.pipe p).parser.tcam = none → Runs (.winRead p w) s fun t => t.fld (F.pipeWinStatus_ERR p) = 3) ∧
  (∀ (s : State) (p : Fin 4) (w : Word), s.up = true → (F.pipeWinCtrl_GO p).of w = 1 → (F.pipeWinCtrl_TARGET p).of w = 0 → s.pendOpen p = true →
    Tab.find ((F.pipeWinCtrl_INDEX p).of w) (s.pipe p).parser.tcam = none → Runs (.winWrite p w) s fun t =>
      (t.pipe p).parser.tcam = Tab.ins ((F.pipeWinCtrl_INDEX p).of w) (tcamOfWords (s.winWords p)) (s.pipe p).parser.tcam ∧
      t.fld (F.pipeWinStatus_ERR p) = 0) ∧
  (∀ (s : State) (p : Fin 4) (w : Word) (e : TcamEntry), s.up = true → (F.pipeWinCtrl_GO p).of w = 1 → (F.pipeWinCtrl_TARGET p).of w = 0 →
    s.pendOpen p = true → Tab.find ((F.pipeWinCtrl_INDEX p).of w) (s.pipe p).parser.tcam = some e → e.view = 1 → Runs (.winRemove p w) s fun t =>
      (t.pipe p).parser.tcam = Tab.del ((F.pipeWinCtrl_INDEX p).of w) (s.pipe p).parser.tcam ∧ t.fld (F.pipeWinStatus_ERR p) = 0)

/-- The table window (spec/07 R238, R239): READ shows the record of the view, WRITE puts it into a free slot of the exact-match table in PENDING, REMOVE clears its PENDING view,
LOOKUP gives the index of a key, INJECT queues a learn request. -/
def Obligations.TableWindow : Prop :=
  (∀ (s : State) (p : Fin 4) (w : Word) (r : BitVec 192 × BitVec 3), s.up = true → (F.pipeTwinCtrl_GO p).of w = 1 →
    (F.pipeTwinCtrl_INDEX p).of w < twinRange ((F.pipeTwinCtrl_TARGET p).of w) →
    twinRead (s.pipe p).fwd ((F.pipeTwinCtrl_TARGET p).of w) ((F.pipeTwinCtrl_VIEW p).of w) ((F.pipeTwinCtrl_INDEX p).of w) = some r →
    Runs (.twinRead p w) s fun t => t.fld (F.pipeTwinStatus_ERR p) = 0 ∧
      ∀ i < 6, t.reg (Reg.pipeTwinData p i) = BitVec.ofNat 32 (r.1.toNat / 2 ^ (32 * i))) ∧
  (∀ (s : State) (p : Fin 4) (w : Word) (k : Nat), s.up = true → (F.pipeTwinCtrl_GO p).of w = 1 → (F.pipeTwinCtrl_TARGET p).of w = 0 →
    s.pendOpen p = true → (F.pipeTwinCtrl_INDEX p).of w < 65536 →
    ((genSlots 0 ((F.pipeTwinCtrl_INDEX p).of w)).any fun k => (Tab.find k (s.pipe p).fwd.em).any fun r => inView r.view 0) = false →
    ((genSlots 0 ((F.pipeTwinCtrl_INDEX p).of w)).find? fun k => (Tab.find k (s.pipe p).fwd.em).isNone) = some k →
    Runs (.twinWrite p w) s fun t => (t.pipe p).fwd.em = Tab.ins k ⟨s.twinWords p, 1⟩ (s.pipe p).fwd.em ∧ t.fld (F.pipeTwinStatus_ERR p) = 0) ∧
  (∀ (s : State) (p : Fin 4) (w : Word) (k : Nat), s.up = true → (F.pipeTwinCtrl_GO p).of w = 1 → (F.pipeTwinCtrl_TARGET p).of w = 0 →
    s.pendOpen p = true → (F.pipeTwinCtrl_INDEX p).of w < 65536 →
    ((genSlots 0 ((F.pipeTwinCtrl_INDEX p).of w)).find? fun k => (Tab.find k (s.pipe p).fwd.em).any fun r => inView r.view 0) = some k →
    Runs (.twinRemove p w) s fun t => (t.pipe p).fwd.em = clearPending (s.pipe p).fwd.em k ∧ t.fld (F.pipeTwinStatus_ERR p) = 0) ∧
  (∀ (s : State) (p : Fin 4) (w : Word) (i : Nat), s.up = true → (F.pipeTwinCtrl_GO p).of w = 1 →
    twinFind (s.pipe p).fwd ((F.pipeTwinCtrl_TARGET p).of w) ((F.pipeTwinCtrl_VIEW p).of w) (s.twinWords p) = some i →
    Runs (.twinLookup p w) s fun t => t.reg (Reg.pipeTwinData p 6) = BitVec.ofNat 32 i ∧ t.fld (F.pipeTwinStatus_ERR p) = 0) ∧
  (∀ (s : State) (p : Fin 4) (w : Word), s.up = true → (F.pipeTwinCtrl_GO p).of w = 1 → (F.pipeTwinCtrl_TARGET p).of w = 2 →
    (s.pipe p).fwd.queue.length < 1024 → Runs (.twinInject p w) s fun t =>
      (t.pipe p).fwd.queue = ((s.pipe p).fwd.queue.filter fun y => decide (y.due ≤ s.time.tick)) ++ [s.reqOfWords (s.twinWords p)] ++
        ((s.pipe p).fwd.queue.filter fun y => decide (s.time.tick < y.due)) ∧
      t.fld (F.pipeLearnStatus_QUEUED p) = (s.pipe p).fwd.queue.length + 1)

/-- Learning, ageing, flushing and bulk access (spec/07 R226, R230 to R232): the oldest request is served; a visit counts an entry that was not hit one age up and clears HIT of one that
was; an entry of age 3 is removed; a flush removes what it selects and completes at the end of its scans; a TABLE_BULK is a long operation. -/
def Obligations.LearningAndAgeing : Prop :=
  (∀ (s : State) (p : Fin 4) (q : LearnReq) (rest : List LearnReq), s.up = true → (s.pipe p).fwd.queue = q :: rest →
    (s.pipe p).fwd.busyTo ≤ s.time.tick → Runs (.learnServe p) s fun t =>
    (t.pipe p).fwd.queue = rest) ∧
  (∀ (s : State) (p : Fin 4) (i : Nat) (e : MacEntry), Tab.find i (s.pipe p).fwd.mac = some e → e.view = 0 → s.inDip = false →
    s.fld (F.coreStatus_STATE 3) = 1 → s.ageing p = true → Runs (.ageVisit p i) s fun t =>
      ∃ e', Tab.find i (t.pipe p).fwd.mac = some e' ∧ e'.hit = false ∧ e'.age = (if e.hit then 0 else min 3 (e.age + 1)) ∧ e'.mac = e.mac ∧ e'.bd = e.bd ∧
        e'.dest = e.dest ∧ e'.view = 0) ∧
  (∀ (s : State) (p : Fin 4) (i : Nat) (e : MacEntry), Tab.find i (s.pipe p).fwd.mac = some e → e.view = 0 → e.age = 3 → e.hit = false →
    s.ageing p = true → Runs (.ageRemove p i) s fun t => (t.pipe p).fwd.mac = Tab.del i (s.pipe p).fwd.mac) ∧
  (∀ (s : State) (c : Cmd), s.takes c 0x0406 = true → c.ok 6 [(3, 1)] = true → c.fld 0 1 < 16 → c.fld 1 1 = 1 → c.fld 2 1 < 128 → Runs (.macFlush c) s fun t =>
    (∃ n, t.pipes.flush = (s.fetched c).pipes.flush ++ [⟨(s.fetched c).host.nextId, n⟩]) ∧
    ∀ p ∈ maskIdx 4 (c.fld 0 1), ∀ e ∈ (t.pipe p).fwd.mac, ¬(e.2.view = 0 ∧ e.2.mc = false ∧ e.2.dest.toNat = c.fld 2 1)) ∧
  (∀ (s : State) (j : FlushJob) (rest : List FlushJob) (q : Parked), s.pipes.flush = j :: rest → s.parkedAt j.id = some q → q.lost = false → Runs .macFlushScanEnd s fun t =>
    Completed q.cmd q.op st.ok (fun u => u.pipes.flush = rest) t) ∧
  (∀ (s : State) (c : Cmd) (records : List BulkRec), s.takes c 0x0405 = true → c.ok 16 [(3, 1)] = true → c.fld 0 1 < 16 → c.fld 1 1 < 7 → c.fld 2 1 = 0 →
    c.fld 8 8 % 64 = 0 → s.bufOk c.src (c.fld 8 8) (32 * c.fld 4 4) = true → (s.fetched c).longBarred = false → (s.fetched c).freeLong.isSome = true →
    Runs (.tableBulk c records) s fun t => ∃ o ∈ t.host.longOps, o.cmd = c ∧ o.op = 0x0405 ∧ o.total = min (c.fld 4 4) records.length)

/-- A frame comes in (spec/05 R156 to R158, R165; spec/08 R241, R249, R251; spec/06 R196): a good frame that passes the filter is counted and stored with its ingress stamp, one that does not
pass, or that nothing delimits, is only counted; the decision leaves the frame decided or gone; the check leaves it checked or gone. -/
def Obligations.FrameIngress : Prop :=
  (∀ (s : State) (n : Fin 128) (f g : RxFrame) (l : List Byte), s.up = true → s.portUp n = true → s.framed n f = some g → l = g.bytes →
    s.macFlags n g = 0 → 64 ≤ l.length → l.length ≤ s.maxFrame n → fb2 l 12 ≠ 0x8808 →
    s.passes n (fbN l 0 6) (bitAt (fb l 0) 0) = true → s.quiet = false → s.fld (F.fabricSample_N n) = 0 → Runs (.frameRx n f) s fun t =>
      (∃ x, t.fabric.frames = s.fabric.frames ++ [x] ∧ x.id = s.fabric.nextFrame ∧ x.port = n.val ∧ x.bytes = l ∧ x.stamp = s.rxStamp n (s.captured n 0 g.st) ∧
        x.decided = false ∧ x.checked = false) ∧
      t.portCnt n 0 = (s.portCnt n 0 + l.length) % 2 ^ 64 ∧ t.portCnt n 1 = (s.portCnt n 1 + 1) % 2 ^ 64) ∧
  (∀ (s : State) (n : Fin 128) (f : RxFrame), s.up = true → s.portUp n = true → s.framed n f = none → Runs (.frameRx n f) s fun t =>
    t = (s.lineErrs n f.errs).countPort n 16 f.klLost) ∧
  (∀ (s : State) (n : Fin 128) (f g : RxFrame) (l : List Byte), s.up = true → s.portUp n = true → s.framed n f = some g → l = g.bytes →
    14 ≤ l.length → fb2 l 12 ≠ 0x8808 → s.passes n (fbN l 0 6) (bitAt (fb l 0) 0) = false → Runs (.frameRx n f) s fun t =>
      t.fabric = s.fabric ∧ t.portCnt n 8 = (s.portCnt n 8 + 1) % 2 ^ 64) ∧
  (∀ (s : State) (i : Nat) (f : Frame), s.frame i = some f → f.decided = false → Runs (.pipeDecision i) s fun t => ∀ x, t.frame i = some x → x.decided = true) ∧
  (∀ (s : State) (i : Nat) (f : Frame), s.frame i = some f → f.checked = false → Runs (.fcsCheckDone i) s fun t => ∀ x, t.frame i = some x → x.checked = true)

/-- Sorrel and the egress MAC (spec/08 R244 to R248, R269, R271 to R273; spec/05 R165; spec/09 R295): an epoch moves copies on and loses and adds none; of the classes under strict priority the highest whose
head may start is served; the frame sent is the head of its queue, with its rewrites, and is counted. A multicast copy
at the head of its VOQ whose queue takes nothing is abandoned; when a port's hold ends, HOLD_STATE is 2 and no copy for the port is queued. -/
def Obligations.FrameEgress : Prop :=
  (∀ s : State, s.up = true → Runs .sorrelEpoch s fun t => ∀ i q : Nat,
    (t.fabric.voq ++ t.fabric.eq).countP (fun c => c.frame == i && c.q == q) = (s.fabric.voq ++ s.fabric.eq).countP fun c => c.frame == i && c.q == q) ∧
  (∀ (s : State) (q : Fin 128) (k : Nat) (x : Copy), s.up = true → s.portUp q = true → s.sendingAt q = false → Tab.get s.fabric.staged none q = none →
    s.ownReady q = false → (∀ j < 16, s.fld (F.eqSched_MAX_AGE_MS (16 * q.val + j)) = 0) → k < 16 → bitAt (s.fld (F.fabricSp_SP_MASK q)) k = true → s.eligibleEq q k = true →
    (∀ j < 16, k < j → bitAt (s.fld (F.fabricSp_SP_MASK q)) j = true → s.eligibleEq q j = false) → s.eqHead q k = some x →
    Runs (.egressSelect q) s fun t => Tab.get t.fabric.tx none q = some { x with own := x.own.filter fun p => p.2.settle == p.2 } ∧
      t.fabric.eq = s.fabric.eq.erase x) ∧
  (∀ (s : State) (q : Fin 128) (st : StampIn) (c : Copy) (f g : Frame), Tab.get s.fabric.tx none q = some c → s.frame c.frame = some f →
    g = (if s.dipAt (s.txStamp q (s.captured q 1 st)) then { f with flags := f.flags ||| 0x800 } else f) →
    Runs (.frameTx q st) s fun t => Tab.get t.fabric.tx none q = none ∧ ∃ control lead gap,
      t.line = control ++ .frame q lead (s.egressBytes g c (s.txStamp q (s.captured q 1 st))).2 gap :: s.line) ∧
  (∀ (s : State) (q : Nat) (l : List Byte), (s.send q l).line = .frame q (s.lead q l) l (if s.isKl q then 0 else 12) :: s.line ∧
    (s.send q l).portCnt q 28 = (s.portCnt q 28 + l.length) % 2 ^ 64 ∧ (s.send q l).portCnt q 29 = (s.portCnt q 29 + 1) % 2 ^ 64) ∧
  (∀ (s : State) (i : Nat) (q : Fin 128) (x : Copy), (s.fabric.voq.find? fun x => x.frame == i && x.q == q.val && x.mc) = some x →
    s.waitOver x = true → Runs (.mcAbandon i q) s fun t =>
      t.fabric.voq = s.fabric.voq.erase x ∧ Tab.get t.ctr 0 (Reg.fabricPcntLo (16 * q.val + 5)) = (Tab.get s.ctr 0 (Reg.fabricPcntLo (16 * q.val + 5)) + 1) % 2 ^ 64) ∧
  (∀ (s : State) (q : Fin 128), s.fld (F.fabricPort_HOLD_STATE q) = 1 → s.portUp q = false →
    Tab.get s.fabric.holdTick 0 q + 1600000 * max 1 (s.fld (F.fabricPort_PORT_DOWN_HOLD_MS q)) ≤ s.time.tick → Runs (.portHoldExpired q) s fun t =>
    t.fld (F.fabricPort_HOLD_STATE q) = 2 ∧ (∀ c ∈ t.fabric.eq ++ t.fabric.voq, c.q ≠ q.val))

/-- Millet (spec/08 R262 to R267, R277; spec/15 R475): an open unit is closed, a unit written leaves its queue, a read brings cells back and counts the errors corrected; a map-out takes the stack
out of use and its end clears EVAC; a map-in returns it; a scrub is a long operation. -/
def Obligations.DeepBuffer : Prop :=
  (∀ (s : State) (i : Fin 2048), Tab.get s.fabric.spillOpen [] i ≠ [] → Runs (.spillPartialFlush i false) s fun t =>
    Tab.get t.fabric.spillUnits [] i = Tab.get s.fabric.spillUnits [] i ++ [Tab.get s.fabric.spillOpen [] i] ∧ Tab.get t.fabric.spillOpen [] i = [] ∧
    t.fabric.hrUnits = s.fabric.hrUnits ∧ t.fabric.hrOpen = s.fabric.hrOpen) ∧
  (∀ (s : State) (i : Fin 2048), Tab.get s.fabric.hrOpen [] i ≠ [] → Runs (.spillPartialFlush i true) s fun t =>
    Tab.get t.fabric.hrUnits [] i = Tab.get s.fabric.hrUnits [] i ++ [Tab.get s.fabric.hrOpen [] i] ∧ Tab.get t.fabric.hrOpen [] i = [] ∧
    t.fabric.spillUnits = s.fabric.spillUnits ∧ t.fabric.spillOpen = s.fabric.spillOpen) ∧
  (∀ (s : State) (i : Fin 2048) (hr : Bool), Tab.get (if hr then s.fabric.hrOpen else s.fabric.spillOpen) [] i = [] →
    Runs (.spillPartialFlush i hr) s fun t => t = s) ∧
  (∀ (s : State) (i : Fin 2048) (k : Nat) (u : List CellRef) (rest : List (List CellRef)), Tab.get s.fabric.hrUnits [] i = u :: rest →
    s.milletRoom 1 u.length = true → s.nextStack = some k → Runs (.spillWriteDone i true) s fun t =>
      Tab.get t.fabric.hrUnits [] i = rest ∧ t.fabric.stripe = k ∧
      t.fabric.written = s.fabric.written + (u.filter fun r => s.cellAt r == some (.wait true)).length ∧
      ∀ r ∈ u, s.cellAt r = some (.wait true) → t.cellAt r = some (.deep k true)) ∧
  (∀ (s : State) (i : Fin 2048) (k : Nat) (u : List CellRef) (rest : List (List CellRef)), s.inDip = false → Tab.get s.fabric.spillUnits [] i = u :: rest →
    s.milletRoom 3 u.length = true → u.length ≤ s.deepFree → s.nextStack = some k → Runs (.spillWriteDone i false) s fun t =>
      Tab.get t.fabric.spillUnits [] i = rest ∧ t.fabric.stripe = k ∧
      t.fabric.written = s.fabric.written + (u.filter fun r => s.cellAt r == some (.wait false)).length ∧
      ∀ r ∈ u, s.cellAt r = some (.wait false) → t.cellAt r = some (.deep k false)) ∧
  (∀ (s : State) (i : Fin 2048) (k : Fin 4) (n : Nat) (bad : List (Fin 8)) (run : List (CellRef × Loc)), run = s.refillRun (i.val / 16) (i.val % 16) →
    (∃ p ∈ run, p.2 = .deep k false ∨ p.2 = .deep k true) → s.onDieHead (i.val / 16) (i.val % 16) < s.fld (F.eqSpill_REFILL i) →
    s.milletRoom (if s.onDieHead (i.val / 16) (i.val % 16) < s.fld (F.eqSpill_REFILL i) / 2 then 2 else 4) run.length = true →
    Runs (.refillDone i k n bad) s fun t => t.fabric.read = s.fabric.read + run.length ∧
      t.fld (F.deepEccCorr_COUNT k) = min (2 ^ 32 - 1) (s.fld (F.deepEccCorr_COUNT k) + n) ∧
      t.fld (F.deepEccUncorr_COUNT k) = min (2 ^ 32 - 1) (s.fld (F.deepEccUncorr_COUNT k) + (((s.fabric.eq ++ s.fabric.voq).filter fun x =>
        ((bad.filterMap fun j => run[j.val]?).map (·.1)).any x.holds).map (·.frame)).eraseDups.length) ∧
      (bad = [] → ∀ p ∈ run, s.cellAt p.1 = some p.2 → t.cellAt p.1 = some .die)) ∧
  (∀ (s : State) (c : Cmd), s.takes c 0x0501 = true → c.ok 2 = true → c.fld 0 1 < 4 → c.fld 1 1 = 1 → (s.fetched c).fld F.deepStatus_MAPPED = 0 →
    bitAt ((s.fetched c).fld F.deepStatus_READY) (c.fld 0 1) = true → (s.fetched c).longReady 0x0501 = true → Runs (.deepbufMapout c) s fun t =>
      StartsLong c 0x0501 [c.fld 0 1] t ∧ t.fabric.evac = some (c.fld 0 1, s.time.tick, 0) ∧ t.fld F.deepStatus_MAPPED = 2 ^ c.fld 0 1 ∧
      bitAt (t.fld F.deepStatus_READY) (c.fld 0 1) = false ∧ t.fld F.deepStatus_EVAC = 1) ∧
  (∀ (s : State) (c : Cmd), s.takes c 0x0501 = true → c.ok 2 = true → c.fld 0 1 < 4 → c.fld 1 1 = 0 → bitAt ((s.fetched c).fld F.deepStatus_MAPPED) (c.fld 0 1) = true →
    (s.fetched c).fabric.evac = none → bitAt (s.fetched c).fabric.tested.toNat (c.fld 0 1) = true → Runs (.deepbufMapout c) s fun t =>
      Completed c 0x0501 st.ok (fun u => bitAt (u.fld F.deepStatus_MAPPED) (c.fld 0 1) = false ∧ bitAt (u.fld F.deepStatus_READY) (c.fld 0 1) = true) t) ∧
  (∀ (s : State) (k : Fin 4) (t0 done n : Nat) (lost : List CellRef), s.fabric.evac = some (k.val, t0, done) → Runs (.mapoutDone k n lost) s fun t =>
    t.fabric.evac = none ∧ t.fld F.deepStatus_EVAC = 0 ∧ t.fabric.written = s.fabric.written ∧
    t.fld (F.deepEccCorr_COUNT k) = min (2 ^ 32 - 1) (s.fld (F.deepEccCorr_COUNT k) + n)) ∧
  (∀ (s : State) (c : Cmd), s.takes c 0x0502 = true → c.ok 2 = true → c.fld 0 1 < 16 → c.fld 1 1 = 0 → (s.fetched c).longBarred = false →
    (s.fetched c).freeLong.isSome = true → Runs (.deepbufScrub c) s fun t => StartsLong c 0x0502 [c.fld 0 1, 0] t)

/-- The PCIe link and its retries (spec/15 R461, R481 to R486; spec/03 R97): the link's state shows; a recovery is counted and ends with its event; a completion timeout reissues the read while
RETRIES allow it, then fails what the read served with HW_FAULT; a reissued read's completion is counted; each link reset empties the host interface. -/
def Obligations.PcieLink : Prop :=
  (∀ (s : State) (w g : Nat), s.up = true → w ∈ [1, 2, 4, 8] → 1 ≤ g → g ≤ 5 → Runs (.pcieLinkUp w g) s fun t =>
    t.fld F.hostifStatus_LINK_UP = 1 ∧ t.fld F.hostifStatus_WIDTH = w ∧ t.fld F.hostifStatus_SPEED = g) ∧
  (∀ s : State, s.up = true → s.flag F.hostifStatus_LINK_UP = true → s.host.recovery = none → Runs (.pcieLinkRecovery true) s fun t =>
    t.host.recovery = some s.time.tick ∧ t.flag F.hostifStatus_RECOVERING = true ∧ Raised 0x0C04 16 [(0, 1, 0), (4, 4, 0)] t) ∧
  (∀ (s : State) (t0 : Nat), s.host.recovery = some t0 → s.host.reads = [] → Runs (.pcieLinkRecovery false) s fun t =>
    t.host.recovery = none ∧ t.flag F.hostifStatus_RECOVERING = false ∧ Raised 0x0C04 16 [(0, 1, 1), (4, 4, (s.time.tick - t0) / 1600)] t) ∧
  (∀ (s : State) (i : Nat) (w : ReadFor), s.up = true → Tab.find i s.host.reads = none → s.fld F.hostifDma_RETRIES ≠ 0 → Runs (.pcieCto i w) s fun t =>
    Tab.find i t.host.reads = some ⟨1, w⟩ ∧ t.flag F.hostifStatus_RECOVERING = true) ∧
  (∀ (s : State) (i : Nat) (r : CtoRead) (p : Parked), s.up = true → Tab.find i s.host.reads = some r → s.fld F.hostifDma_RETRIES ≤ r.tries →
    ∀ (tag : BitVec 32) (w : ReadFor), r.what = .cmd tag → s.parkedTag tag = some p → p.lost = false → Runs (.pcieCto i w) s fun t =>
      Completed p.cmd p.op st.hwFault (fun u => u.parkedAt p.id = none ∧ u.host.reads = Tab.del i s.host.reads) t) ∧
  (∀ (s : State) (i : Nat) (r : CtoRead) (k : Fin 69) (w : ReadFor), s.up = true → Tab.find i s.host.reads = some r → s.fld F.hostifDma_RETRIES ≤ r.tries →
    r.what = .ring k → hostFills k = true → s.ringOn k = true → Runs (.pcieCto i w) s fun t =>
      t.flag (F.ringStatus_ERR k) = true ∧ t.fld (F.ringStatus_ERR_CODE k) = 2) ∧
  (∀ (s : State) (i : Nat) (r : CtoRead), Tab.find i s.host.reads = some r → Runs (.hostReadCompletion i) s fun t =>
    t.host.reads = Tab.del i s.host.reads) ∧
  (∀ (s : State) (c : Instr), c ∈ [Instr.perstN, .functionLevelReset, .dlDown] → s.up = true → regsCanon s = true → Runs c s fun t =>
    t.host.fetch = none ∧ t.host.recovery = none ∧ t.host.reads = [] ∧ t.host.waitCpl = [] ∧ t.host.ringsReset = true ∧
    t.host.parked = (s.host.parked.map fun p => if p.cmd.user.isNone then { p with lost := true } else p) ∧ t.host.pm = .d0 ∧
    t.host.longOps = s.host.longOps ∧ (∀ r : Fin 69, t.flag (F.ringCfg_EN r) = false)) ∧
  (∀ (s : State) (e : BitVec 4), s.up = true → pcieNested (ctoUs e.toNat) (s.fld F.hostifDma_RETRIES) (s.fld F.hostifCmd_TIMEOUT_MS) = true → Runs (.ctoConfigWrite e) s fun t =>
    t.host.cto = e ∧ t.fld F.hostifStatus_CTO_MS = ctoUs e.toNat / 1000)

/-- Doorbells, rings and emergency controls (spec/15 R463 to R466, R471, R478, R487, R489): a fetch's data moves the host indices that are in range; an overdue one is abandoned and counted; a kick
issues a fetch; DMA_OFF and TX_STOP show; a ring is enabled with indices 0 and disabled; waiting completions, losses and signals are delivered. -/
def Obligations.DoorbellsAndRings : Prop :=
  (∀ (s : State) (d : DoorbellData) (f : Fetch), s.host.fetch = some f → d.fetch = f.seq → s.time.tick ≤ f.due → (∀ r < 69, s.ringOn r = false) →
    s.host.kickQueued = false → s.host.beatFetchOwed = none → Runs (.doorbellData d) s fun t => t.host.fetch = none ∧ (f.kick = false → t.host.userArea = d.user)) ∧
  (∀ (s : State) (d : DoorbellData) (f : Fetch) (r : Fin 69), s.host.fetch = some f → d.fetch = f.seq → s.time.tick ≤ f.due → s.ringOn r = true → (∀ k < 69, k ≠ r.val → s.ringOn k = false) →
    (if hostFills r then (d.idx.getD r 0 - BitVec.ofNat 32 (s.devIdx r)).toNat else (BitVec.ofNat 32 (s.devIdx r) - d.idx.getD r 0).toNat) ≤ s.ringSize r →
    Runs (.doorbellData d) s fun t => t.reg (Reg.ringHostIdx r) = d.idx.getD r 0) ∧
  (∀ (s : State) (d : DoorbellData) (f : Fetch), s.host.fetch = some f → d.fetch ≠ f.seq → Runs (.doorbellData d) s fun t => t = s) ∧
  (∀ (s : State) (f : Fetch), s.joinedBeat = true → s.host.fetch = some f → s.host.kickQueued = false → s.host.beatFetchOwed = none →
    f.due ≤ (s.reachTick f.due).time.tick → Runs .doorbellDeadline s fun t =>
    t.host.fetch = none ∧ t.fld (F.globalLateCnt_COUNT 3) = min (2 ^ 32 - 1) (s.fld (F.globalLateCnt_COUNT 3) + 1)) ∧
  (∀ (s : State) (c : Instr), c ∈ [Instr.kick, .fetchNow] → s.dbOn = true → s.host.fetch = none → s.flag F.hostifEmerg_DMA_OFF = false → s.host.kicksThisBeat < 32 →
    Runs c s fun t => t.host.fetch = some ⟨true, s.time.tick + 8000, s.host.fetchSeq⟩ ∧ t.host.kicksThisBeat = s.host.kicksThisBeat + 1) ∧
  (∀ (s : State) (c : Instr) (f : Fetch), c ∈ [Instr.kick, .fetchNow] → s.dbOn = true → s.host.fetch = some f → Runs c s fun t =>
    t.host.fetch = some f ∧ t.host.kickQueued = true) ∧
  (∀ (s : State) (on : Bool), s.up = true → Runs (.dmaOff on) s fun t => t.flag F.hostifEmerg_DMA_OFF = on ∧
    (on = false → (∃ l, t.host.posts = l ++ (s.host.held ++ s.host.posts)) ∧ t.host.held = [] ∧ t.host.heldEntries = [])) ∧
  (∀ (s : State) (on : Bool), s.up = true → Runs (.txStop on) s fun t => t.flag F.hostifEmerg_TX_STOP = on) ∧
  (∀ (s : State) (r : Fin 69) (v : Word), s.up = true → s.flag (F.ringCfg_EN r) = false → (F.ringCfg_EN r).of v = 1 → Runs (.ringEnable r v) s fun t =>
    t.flag (F.ringCfg_EN r) = true ∧ t.flag (F.ringStatus_ERR r) = false ∧ t.reg (Reg.ringHostIdx r) = 0) ∧
  (∀ (s : State) (r : Fin 69) (v : Word), s.up = true → s.flag (F.ringCfg_EN r) = true → (F.ringCfg_EN r).of v = 0 → Runs (.ringDisable r v) s fun t =>
    t.flag (F.ringCfg_EN r) = false ∧ Tab.get t.host.txq [] r = []) ∧
  (∀ (s : State) (w : Cpl) (rest : List Cpl), s.host.waitCpl = w :: rest → s.ringFree 65 ≠ 0 →
    s.flag F.hostifEmerg_DMA_OFF = false → Runs .completionWrite s fun t => t.host.waitCpl = rest) ∧
  (∀ (s : State) (l : LossRec), s.host.lost = some l → s.ringFree 66 ≠ 0 → Runs .eventLost s fun t => t.host.lost = none) ∧
  (∀ (s : State) (r : Fin 69), Tab.get s.host.sigDue false r = true → s.signalFrom r ≤ (s.reachTick (s.signalFrom r)).time.tick →
    s.flag F.hostifEmerg_DMA_OFF = false ∨ s.flag (F.msixCtrl_MASK (s.fld (F.ringCfg_VECTOR r))) = true → Runs (.msixSignal r) s fun t => Tab.get t.host.sigDue false r = false)

/-- Packet rings and the commands of the host interface (spec/15 R467, R468, R470, R474, R477): a frame injected into the pipeline enters it; the oldest frame for an RX ring is taken, and lost with a
count where it has no buffer; NOP completes OK, an unassigned opcode BAD_ARG, an overdue command TIMEOUT. -/
def Obligations.PacketRings : Prop :=
  (∀ (s : State) (q : Fin 32) (d : TxDesc) (rest : List TxDesc) (data : List (BitVec 8)), s.up = true → s.ringOn q = true → s.flag F.hostifEmerg_TX_STOP = false →
    s.flag F.hostifEmerg_DMA_OFF = false → 1 ≤ s.txAvail q → TxDesc.bad d = false → d.flags = 0x0C → data.length = d.len.toNat → d.len.toNat ≤ s.maxFrame d.port.toNat →
    s.portExists d.port.toNat = true → s.quiet = false → s.fld (F.fabricSample_N d.port.toNat) = 0 → s.txHeld q = false →
    Runs (.txDescriptor q (d :: rest) data) s fun t => ∃ x, t.fabric.frames = s.fabric.frames ++ [x] ∧ x.id = s.fabric.nextFrame ∧ x.port = d.port.toNat ∧ x.bytes = data ∧
      x.checked = true ∧ x.decided = false) ∧
  (∀ (s : State) (q : Fin 32) (x : RxItem), (s.fabric.rxq.find? fun x => x.ring == q.val) = some x → s.flag F.hostifEmerg_DMA_OFF = false → s.ringOn (32 + q.val) = false → Runs (.rxWriteback q) s fun t =>
    t.fabric.rxq = s.fabric.rxq.erase x ∧ t.fld (F.ringLoss_COUNT (32 + q.val)) = min (2 ^ 32 - 1) (s.fld (F.ringLoss_COUNT (32 + q.val)) + 1)) ∧
  (∀ (s : State) (q : Fin 32) (x : RxItem), (s.fabric.rxq.find? fun x => x.ring == q.val) = some x → s.flag F.hostifEmerg_DMA_OFF = false → s.ringOn (32 + q.val) = true →
    x.bytes.length ≤ 256 * (s.fld (F.ringCfg_BUF_SIZE (32 + q.val)) + 1) → s.hostIdx (32 + q.val) = s.devIdx (32 + q.val) + 1 → Runs (.rxWriteback q) s fun t =>
      t.fabric.rxq = s.fabric.rxq.erase x ∧ t.devIdx (32 + q.val) = s.hostIdx (32 + q.val)) ∧
  (∀ (s : State) (c : Cmd), s.takes c 0x0C03 = true → c.ok 0 = true → Runs (.nop c) s fun t => Completed c 0x0C03 st.ok (fun _ => True) t) ∧
  (∀ (s : State) (c : Cmd) (op : BitVec 16), s.mayStart c op.toNat = true → op.toNat ∉ opcodes → Runs (.unassignedOpcode c op) s fun t =>
    Completed c op.toNat st.badArg (fun _ => True) t) ∧
  (∀ (s : State) (i : Nat) (p : Parked), s.parkedAt i = some p → p.lost = false → Runs (.cmdTimeout i) s fun t =>
    Completed p.cmd p.op st.timeout (fun u => u.parkedAt i = none) t)

/-- Device time (spec/01 R28, R36, R37; spec/09 R291, R292): a latch that is asked for is pending with GO set; a counter write waits for the boundary it names; a beat boundary starts a new beat
and shows how long the one before it was. -/
def Obligations.TimeCommands : Prop :=
  (∀ (s : State) (v : Word), s.up = true → F.tbSnapCtrl_GO.of v = 1 → Runs (.snapGo .host v) s fun t => t.time.snap = true ∧ t.fld F.tbSnapCtrl_GO = 1) ∧
  (∀ (s : State) (c : Cmd), s.takes c 0x0601 = true → c.ok 28 [(2, 2), (14, 2)] = true → 4 ≤ c.fld 0 1 → c.fld 0 1 < 32 → c.fld 1 1 = 0 → c.fld 22 4 < 1000000000 →
    s.nameOk (c.fld 10 4) (boundaryName (c.fld 4 6) (c.fld 10 4)) = true →
    (s.time.writes.any fun w => w.counter == c.fld 0 1 && s.boundNo w.name == s.boundNo (boundaryName (c.fld 4 6) (c.fld 10 4))) = false → Runs (.tcntWrite c) s fun t =>
      t.time.writes = s.time.writes ++ [{ id := s.host.nextId, counter := c.fld 0 1, op := 0, name := boundaryName (c.fld 4 6) (c.fld 10 4), value := stampAt c.payload 16 }] ∧
      t.host.nextId = s.host.nextId + 1) ∧
  (∀ s : State, s.power.aon = true → s.power.pllLocked = true → s.up = false → s.power.pstate ≠ .standby → s.time.beatTicks ≤ s.time.beatLen → Runs .beatBoundary s fun t =>
    t.time.bounds = s.time.bounds + 1 ∧ t.time.beatTicks = 0 ∧ t.fld F.globalBeatLen_LAST_TICKS = min 65535 s.time.beatLen ∧ t.time.recs.head? = some t.time.cnt)

/-- Every beat boundary of a device whose tick runs, in whatever state, starts a new beat and counts it (spec/01 R27, R28, R36). -/
def Obligations.BeatBoundaries : Prop :=
  ∀ s : State, s.power.aon = true → s.power.pllLocked = true → Runs .beatBoundary s fun t => t.time.bounds = s.time.bounds + 1 ∧ t.time.beatTicks = 0

/-- The boot of the main domain (spec/03 R82 to R84): without a directory the ROM waits at stage 15; with an image set that passes, the stages run up to 5 and its slot shows; at stage 5 the
domain joins the beat, and stage 6 and DONE show. -/
def Obligations.Boot : Prop :=
  (∀ (s : State) (b : BootInput), s.power.aon = true → s.power.pllLocked = true → s.power.mainReset = true → s.power.armed = true → s.power.mainPwrEn = true →
    s.power.therm = false → Runs (.mainResetRelease b) s fun t => t.power.mainReset = false ∧ t.power.releaseTick = s.time.tick ∧
      (bootDir b = none → t.fld F.globalBoot_STAGE = 15) ∧
      (∀ d, bootDir b = some d → match s.bootSlot d b with
        | some x => t.fld F.globalBoot_STAGE = 5 ∧ t.sec.running = s.slotImages b x ∧ t.sec.slotB = x ∧ t.fld F.globalBoot_SLOT_FALLBACK = bit (x != d.slotB)
        | none => t.fld F.globalBoot_STAGE = 15 ∧ t.fld F.globalBoot_SLOT_FALLBACK = 1)) ∧
  (∀ s : State, s.up = true → s.power.joined = false → s.fld F.globalBoot_STAGE = 5 → Runs .joinBeat s fun t =>
    t.power.joined = true ∧ t.fld F.globalBoot_STAGE = 6 ∧ t.fld F.globalBoot_DONE = 1 ∧
    t.fld F.globalBoot_BOOT_MS = min 32767 (ticksMs (s.time.tick - s.power.releaseTick)))

/-- Power states, domain resets and profiles (spec/03 R89, R90, R96, R100 to R104): a transition begins with BUSY and the end of its drain empties the queues and shows the state; a reset of one domain leaves
nothing of it; a valid profile is applied by a long operation. -/
def Obligations.PowerStatesAndDomains : Prop :=
  (∀ (s : State) (c : Cmd), s.takes c 0x0102 = true → c.ok 30 = true → c.fld 0 1 = 1 → c.fld 1 1 < 4 → c.fld 26 4 < 1000000000 → s.power.trans = none →
    s.power.pstate = .normal → s.host.longOps = [] → Runs (.powerStateSet c) s fun t =>
      (∃ x, t.power.trans = some x ∧ x.cmd = s.host.nextId ∧ x.old = .normal ∧ x.target = .quiet ∧ x.keep = BitVec.ofNat 128 (c.fld 4 16)) ∧
      t.fld F.globalPwrState_BUSY = 1 ∧ t.power.pstate = .normal) ∧
  (∀ (s : State) (x : Trans), s.up = true → s.power.trans = some x → x.phase = .drain → x.target = .quiet →
    x.since + 1600000 * x.drainMs ≤ s.time.tick → Runs .quietDrainEnd s fun t =>
    t.power.trans = none ∧ t.fabric.eq = [] ∧ t.fabric.voq = [] ∧ t.fld F.globalPwrState_BUSY = 0 ∧ t.fld F.globalPwrState_STATE = 1) ∧
  (∀ (s : State) (c : Cmd), s.takes c 0x0104 = true → c.ok 4 [(1, 1)] = true → c.fld 0 1 = 2 → c.fld 2 2 < 4 → s.power.pstate = .quiet → Runs (.domainReset c) s fun t =>
    Completed c 0x0104 st.ok (fun u => (∃ v : State, v.pipe (c.fld 2 2) = {} ∧ u = v.genBoot (c.fld 2 2) s.power.active.gens) ∧
      (s.power.active.gens[c.fld 2 2]? = none → u.pipe (c.fld 2 2) = {})) t) ∧
  (∀ (s : State) (c : Cmd), s.takes c 0x0104 = true → c.ok 4 [(1, 1)] = true → c.fld 0 1 = 4 → c.fld 2 2 = 0 → Runs (.domainReset c) s fun t =>
    Completed c 0x0104 st.ok (fun u => u.host.ringsReset = true ∧ u.host.fetch = none ∧ u.host.waitCpl = []) t) ∧
  (∀ (s : State) (c : Cmd), s.takes c 0x0104 = true → c.ok 4 [(1, 1)] = true → c.fld 0 1 = 5 → c.fld 2 2 = 0 → s.power.pstate = .quiet → Runs (.domainReset c) s fun t =>
    Completed c 0x0104 st.ok (fun u => u.fabric.eq = [] ∧ u.fabric.voq = [] ∧ u.fabric.frames = []) t) ∧
  (∀ (s : State) (c : Cmd), s.takes c 0x0104 = true → c.ok 4 [(1, 1)] = true → (c.fld 0 1 = 2 ∨ c.fld 0 1 = 5) → (if c.fld 0 1 = 2 then c.fld 2 2 < 4 else c.fld 2 2 = 0) →
    s.power.pstate ≠ .quiet → Runs (.domainReset c) s fun t => Completed c 0x0104 st.badState (fun _ => True) t) ∧
  (∀ (s : State) (c : Cmd) (p : Profile), s.takes c 0x0101 = true → c.ok 2 = true → c.fld 0 1 < 4 → c.fld 1 1 < 4 →
    (s.fetched c).profStatus p (bitAt (c.fld 1 1) 0) (bitAt (c.fld 1 1) 1) = 0 → (s.fetched c).longBarred = false → (s.fetched c).freeLong.isSome = true →
    Runs (.profileApply c p) s fun t => StartsLong c 0x0101 [c.fld 0 1, c.fld 1 1] t ∧ ∃ h, t.power.applyProf = s.power.applyProf ++ [(h, p)])

/-- Servo slots (spec/10 R336 to R350; spec/01 R32, R34; spec/03 R106): a due slot computes its result from the samples of its session at tick 16, in a dip none; a slot not served by tick 12,800 is counted
late and is due no more; a running slot without input holds, or hands over to a ready partner; SLOT_ACCEPT of a jump steps at the boundary, or pulls; a write of SLOT_CFG waits for the boundary, and UPD asks
for the coefficients; a write that fails a check is refused. -/
def Obligations.ServoSlots : Prop :=
  (∀ (s : State) (k : Nat) (kl : Bool), s.joinedBeat = true → s.inDip = false → s.dueSlots = [k] → (s.slot k).samples ≠ [] →
    kl = ((s.feeder k).any fun i => ss.delay (s.sess i).cfg == 2) → Runs .servoCompute s fun t =>
    (t.slot k).upd = some ((filterSamples (s.fld (F.slotCfg_FILTER k)) kl (s.slot k).samples).1, (filterSamples (s.fld (F.slotCfg_FILTER k)) kl (s.slot k).samples).2, (s.slot k).samples.length) ∧
    (t.slot k).samples = [] ∧ (t.slot k).due = .done) ∧
  (∀ (s : State) (k : Nat), s.joinedBeat = true → s.inDip = true → s.dueSlots = [k] → Runs .servoCompute s fun t =>
    (t.slot k).upd = (s.slot k).upd ∧ (t.slot k).samples = [] ∧ (t.slot k).due = .done) ∧
  (∀ s : State, s.joinedBeat = true → Runs .servoDeadline s fun t => ∀ k, (t.slot k).due = .no) ∧
  (∀ (s : State) (k : Nat) (x : SlotSt), s.joinedBeat = true → s.inDip = false → s.servo.slot = [(k, x)] → k < 256 → x.due = .unserved → Runs .servoDeadline s fun t =>
    t.fld (F.slotLate_COUNT k) = min (2 ^ 32 - 1) (s.fld (F.slotLate_COUNT k) + 1) ∧ t.fld (F.globalLateCnt_COUNT 0) = min (2 ^ 32 - 1) (s.fld (F.globalLateCnt_COUNT 0) + 1)) ∧
  (∀ (s : State) (k : Fin 256), s.up = true → runningSlot (s.slotState k) = true → s.slotIdle k = true → s.inDip = false → (s.slot k).switch = none → s.flag (F.slotCfg_LOSS_ACT k) = false →
    Runs (.slotInputTimeout k) s fun t => t.slotState k = 3 ∧ t.fld (F.slotStatus_CAUSE k) = 3) ∧
  (∀ (s : State) (k : Fin 256) (p : Nat), s.up = true → runningSlot (s.slotState k) = true → s.slotIdle k = true → s.inDip = false → (s.slot k).switch = none → s.flag (F.slotCfg_LOSS_ACT k) = true →
    s.readyPartner k = some p → Runs (.slotInputTimeout k) s fun t => (t.slot k).switch = some 3 ∧ t.slotState k = s.slotState k) ∧
  (∀ (s : State) (c : Cmd), s.takes c 0x0703 = true → c.ok 2 = true → c.fld 1 1 = 0 → s.slotState (c.fld 0 1) = 3 → (s.slot (c.fld 0 1)).jumped = true →
    (s.slot (c.fld 0 1)).switch = none → s.slotKind (c.fld 0 1) = 0 → Runs (.slotAccept c) s fun t =>
      t.host.parked = s.host.parked ++ [{ id := s.host.nextId, cmd := c, op := 0x0703, issued := false }]) ∧
  (∀ (s : State) (c : Cmd), s.takes c 0x0703 = true → c.ok 2 = true → c.fld 1 1 = 1 → s.slotState (c.fld 0 1) = 3 → (s.slot (c.fld 0 1)).jumped = true →
    (s.slot (c.fld 0 1)).switch = none → Runs (.slotAccept c) s fun t =>
      Completed c 0x0703 st.ok (fun u => u.slotState (c.fld 0 1) = 4 ∧ (u.slot (c.fld 0 1)).base = (s.cnt (s.slotTarget (c.fld 0 1))).incr.toNat) t) ∧
  (∀ (s : State) (k : Fin 256) (v : Word), s.up = true → s.beaten .host (Reg.slotCfg k) = false → (F.slotCfg_UPD k).of v = 1 →
    s.slotOk k ((s.regW (Reg.slotCfg k) &&& ~~~(rwMask (Reg.slotCfg k))) ||| (v &&& rwMask (Reg.slotCfg k))) (s.regW (Reg.slotTimeout k)) = true → Runs (.slotUpd .host k v) s fun t =>
      t.waiting = s.waiting ++ [{ addr := Reg.slotCfg k, word := (s.regW (Reg.slotCfg k) &&& ~~~(rwMask (Reg.slotCfg k))) ||| (v &&& rwMask (Reg.slotCfg k)) }] ∧ t.fld (F.slotCfg_UPD k) = 1) ∧
  (∀ (s : State) (k : Fin 256) (v : Word), s.up = true → s.beaten .host (Reg.slotCfg k) = false →
    s.slotOk k ((s.regW (Reg.slotCfg k) &&& ~~~(rwMask (Reg.slotCfg k))) ||| (v &&& rwMask (Reg.slotCfg k))) (s.regW (Reg.slotTimeout k)) = false → Runs (.slotUpd .host k v) s fun t =>
      t.waiting = s.waiting ∧ t.fld F.servoStatus_CFG_ERR = 1)

/-- Sessions (spec/10 R323 to R334, R351): a SESSION_SET that may be applied waits for its boundary, SESSION_READ begins the counts again; a message that is due joins its port's queue with its number, and the next
number is one more; a two-step Sync waits for its Follow_Up, whose absence is counted; a message that no session owns is counted and goes to the timing pair; units without an exchange are misses; KL reports
and windows. -/
def Obligations.Sessions : Prop :=
  (∀ (s : State) (c : Cmd), s.takes c 0x0701 = true → c.ok 96 = true → (s.fetched c).sessCheck (sessPayload c) = st.ok → Runs (.sessionSet c) s fun t =>
    t.host.parked = s.host.parked ++ [{ id := s.host.nextId, cmd := c, op := 0x0701, issued := false }]) ∧
  (∀ (s : State) (c : Cmd), s.takes c 0x0702 = true → c.ok 16 [(4, 4)] = true → 0 < c.fld 2 2 → c.fld 0 2 + c.fld 2 2 ≤ 4096 → c.fld 8 8 % 64 = 0 →
    s.bufOk c.src (c.fld 8 8) (64 * c.fld 2 2) = true → Runs (.sessionRead c) s fun t => Completed c 0x0702 st.ok (fun u => ∀ j < c.fld 2 2,
      (u.sess (c.fld 0 2 + j)).fuMiss = 0 ∧ (u.sess (c.fld 0 2 + j)).respMiss = 0 ∧ (u.sess (c.fld 0 2 + j)).dup = 0 ∧ (u.sess (c.fld 0 2 + j)).state = (s.sess (c.fld 0 2 + j)).state) t) ∧
  (∀ (s : State) (i : Fin 4096) (y : Fin 3) (k : Nat), s.up = true → (s.sess i).state ≠ 0 → sends (s.sess i).cfg y = true → s.portUp (ss.port (s.sess i).cfg) = true →
    s.dueNow (s.sess i) (if y = 0 then ss.logSync (s.sess i).cfg else ss.logDelay (s.sess i).cfg) = some k →
    (if y = 2 then (s.sess i).pdNext else (s.sess i).txNext) ≤ k → Runs (.sessionTx i y k) s fun t =>
      (∃ m n, (t.mac (ss.port (s.sess i).cfg)).own = (s.mac (ss.port (s.sess i).cfg)).own ++ [m] ∧ m.note = some n ∧ n.sess = i.val ∧ n.mtype = y.val ∧
        n.seq = (if y = 2 then (s.sess i).pdSeq else (s.sess i).txSeq)) ∧
      (y ≠ 2 → (t.sess i).txSeq = (s.sess i).txSeq + 1 ∧ (t.sess i).txNext = k + 1) ∧ (y = 2 → (t.sess i).pdSeq = (s.sess i).pdSeq + 1 ∧ (t.sess i).pdNext = k + 1)) ∧
  (∀ (s : State) (i : Fin 4096) (keep : List MsgWait), s.up = true →
    keep = ((s.sess i).sync.filter fun w => decide ((s.time.tick - w.tick) * 128 < 1600000000 * logScaled (ss.logSync (s.sess i).cfg))) → Runs (.fuTimeout i) s fun t =>
    (t.sess i).sync = keep ∧ (t.sess i).fuMiss = min 0xFFFF ((s.sess i).fuMiss + ((s.sess i).sync.length - keep.length))) ∧
  (∀ (s : State) (id : Nat) (f : EngineFrame) (p : Nat × Nat) (m : PtpMsg) (i v : Nat), (s.servo.inbox.find? fun x => x.id = id) = some f → f.ptp = some p →
    m = ptpMsg f.bytes p.1 p.2 f.stamp → m.whole = true → m.mtype = 0 → m.twoStep = true → s.sessOf f.port m = some i → ss.auth (s.sess i).cfg = false →
    ss.delay (s.sess i).cfg ≠ 2 → ss.role (s.sess i).cfg = 1 → (s.sess i).lastSeq = none → s.dipAt m.stamp = false → s.toCounter (ss.counter (s.sess i).cfg) m.stamp = some v → ∀ icv, Runs (.ptpRx id icv) s fun t =>
      (t.sess i).sync = { seq := m.seq, time := 0, stamp := v, corr := m.corr, tick := s.time.tick } :: (s.sess i).sync ∧ (t.sess i).lastSeq = some m.seq ∧
      t.servo.inbox = s.servo.inbox.erase f) ∧
  (∀ (s : State) (id : Nat) (f : EngineFrame) (p : Nat × Nat) (m : PtpMsg) (i : Nat), (s.servo.inbox.find? fun x => x.id = id) = some f → f.ptp = some p →
    m = ptpMsg f.bytes p.1 p.2 f.stamp → s.sessOf f.port m = none → s.matching f.port m = some i → ∀ icv, Runs (.ptpRx id icv) s fun t =>
      (t.sess i).foreign = min 0xFFFF ((s.sess i).foreign + 1) ∧ t.servo.toPair = f :: s.servo.toPair) ∧
  (∀ (s : State) (i : Fin 4096) (k : Nat), s.up = true → ss.delay (s.sess i).cfg ≠ 2 → s.dueNow (s.sess i) (ss.logSync (s.sess i).cfg) = some k → (s.sess i).unitNext < k →
    (s.sess i).state = 2 → ss.role (s.sess i).cfg = 1 → (s.sess i).hit = false →
    s.portUp (ss.port (s.sess i).cfg) = true → (s.sess i).misses + 1 < ss.missMax (s.sess i).cfg → (s.sess i).misses < 255 → Runs (.sessionUnitEnd i) s fun t =>
      (t.sess i).misses = (s.sess i).misses + 1 ∧ (t.sess i).state = 3 ∧ (t.sess i).unitNext = k) ∧
  (∀ (s : State) (i : Fin 4096) (k : Nat), s.up = true → ss.delay (s.sess i).cfg ≠ 2 → s.dueNow (s.sess i) (ss.logSync (s.sess i).cfg) = some k → (s.sess i).unitNext < k →
    (s.sess i).state ≠ 0 → ss.role (s.sess i).cfg = 1 → (s.sess i).hit = true → Runs (.sessionUnitEnd i) s fun t =>
    t.sess i = { s.sess i with hit := false, unitNext := k }) ∧
  (∀ (s : State) (i : Fin 4096), s.up = true → (s.sess i).state ≠ 0 → ss.delay (s.sess i).cfg = 2 → ss.role (s.sess i).cfg ∈ [1, 4] →
    (s.sess i).kl.closed = [] → 0 < (s.sess i).kl.units →
    (s.sess i).hit = true → Runs (.sessionUnitEnd i) s fun t =>
    t.sess i = { s.sess i with hit := false, kl := { (s.sess i).kl with units := (s.sess i).kl.units - 1 } }) ∧
  (∀ (s : State) (i : Fin 4096) (w : Nat), s.up = true → (s.sess i).state ≠ 0 → ss.delay (s.sess i).cfg = 2 → ss.role (s.sess i).cfg ∈ [1, 4] →
    (s.sess i).kl.closed = [] → (s.sess i).kl.units = 0 →
    w = s.klTicks (s.sess i).cfg → (s.sess i).hit = true → Runs (.sessionUnitEnd i) s fun t => t.sess i =
      (if (s.sess i).kl.unitTick + w + w / 2 ^ ss.klLog2 (s.sess i).cfg ≤ s.time.tick then
        { s.sess i with hit := false, kl := { (s.sess i).kl with unitTick := (s.sess i).kl.unitTick + w } } else s.sess i)) ∧
  (∀ (s : State) (i : Fin 4096) (w : KlWin) (rest : List KlWin), s.up = true → (s.sess i).state ≠ 0 → ss.delay (s.sess i).cfg = 2 →
    (s.sess i).kl.closed = w :: rest → Runs (.klWindowEnd i) s fun t => (t.sess i).kl.closed = rest) ∧
  (∀ (s : State) (i : Fin 4096), (s.sess i).kl.closed = [] → Runs (.klWindowEnd i) s fun t => t = s) ∧
  (∀ (s : State) (n : Fin 128) (id : Nat) (f : EngineFrame) (r : KlReport) (i : Nat), (s.servo.inbox.find? fun x => x.id = id) = some f → f.ptp = none →
    s.klSess f.port = some i → klReportOf f.bytes = some r → r.log2.toNat = ss.klLog2 (s.sess i).cfg → f.port = n.val →
    Runs (.klReportRx n id) s fun t => (t.sess i).kl.reports = (r :: (s.sess i).kl.reports).take 2 ∧ t.servo.inbox = s.servo.inbox.erase f)

/-- References, DPLLs and synthesizers (spec/12 R378 to R401, R410): ranks from ESMC wait for the boundary; holdover beyond its specification is reported once; a learn is a long operation and takes its samples; the history
is cleared; a forced selection waits; OPEN opens the loop with the present increment in SWRATE, and a commit of SWRATE waits for the boundary. Four
good gates in a search lock a synthesizer at its band; UPD loads a feedback that is in range. -/
def Obligations.References : Prop :=
  (∀ (s : State) (n : Fin 128) (r : BitVec 8) (k : Fin 16), s.attended = true → s.pairState s.holder ∈ [3, 4] → s.portUp n = true → (F.candCfg_TYPE k).of (s.regW (Reg.candCfg k)) = 2 →
    s.portOf ((F.candCfg_LANE k).of (s.regW (Reg.candCfg k))) = some n.val → (F.candCfg_FORCE_QL k).of (s.regW (Reg.candCfg k)) = 0 → Runs (.esmcRx n r) s fun t =>
      (F.candCfg_RANK k).of (t.regW (Reg.candCfg k)) = r.toNat ∧ Tab.find n t.refs.esmc = some (s.time.bounds + 1)) ∧
  (∀ (s : State) (n : Fin 128) (k : Fin 16), s.attended = true → s.pairState s.holder ∈ [3, 4] → s.esmcSilent n = true → (F.candCfg_TYPE k).of (s.regW (Reg.candCfg k)) = 2 →
    s.portOf ((F.candCfg_LANE k).of (s.regW (Reg.candCfg k))) = some n.val → (F.candCfg_FORCE_QL k).of (s.regW (Reg.candCfg k)) = 0 → Runs (.esmcTimeout n) s fun t =>
      (F.candCfg_RANK k).of (t.regW (Reg.candCfg k)) = 255 ∧ Tab.find n t.refs.esmc = none) ∧
  (∀ (s : State) (d : Fin 4), s.dpllState d = 3 → s.fld (F.dpllHoTts_TTS d) = 0 → s.flag (F.dpllStatus_HO_SPEC_EXCEEDED d) = false → s.joinedBeat = true → Runs (.hoTtsExpire d) s fun t =>
    t.flag (F.dpllStatus_HO_SPEC_EXCEEDED d) = true ∧
    Raised 0x0904 16 [(0, 1, d.val), (1, 1, 1), (2, 1, s.fld (F.dpllStatus_HIST_VALID d)), (4, 4, 0), (8, 4, (s.time.bounds - (s.dpll d).holdFrom) / 100000)] t) ∧
  (∀ (s : State) (c : Cmd), s.takes c 0x0902 = true → c.ok 8 [(2, 2)] = true → c.fld 0 1 < 4 → c.fld 1 1 < 2 → 3600 ≤ c.fld 4 4 → c.fld 4 4 ≤ 2592000 →
    (s.fetched c).longBarred = false → (s.fetched c).freeLong.isSome = true → Runs (.holdoverLearn c) s fun t => StartsLong c 0x0902 [] t) ∧
  (∀ (s : State) (d : Fin 4) (o : LongOp), (s.host.longOps.find? fun o => o.op == 0x0902 && o.cmd.fld 0 1 == d.val && o.state == .running) = some o → s.dpllState d = 2 →
    (s.dpll d).hist ≠ [] → Runs (.holdoverLearnSample d) s fun t => ∃ o' ∈ t.host.longOps, o'.handle = o.handle ∧ o'.progress = o.progress + 100 ∧
      o'.args = o.args ++ [((s.dpll d).hist.take 10000000).foldl (fun a p => a + p.1) 0 / ((s.dpll d).hist.take 10000000).length, ((s.dpll d).hist.take 10000000).foldl (fun a p => a + p.2) 0 * 65536 / ((s.dpll d).hist.take 10000000).length]) ∧
  (∀ (s : State) (c : Cmd), s.takes c 0x0903 = true → c.ok 1 = true → c.fld 0 1 < 4 → s.dpllState (c.fld 0 1) ≠ 3 → Runs (.dpllHistReset c) s fun t =>
    Completed c 0x0903 st.ok (fun u => (u.dpll (c.fld 0 1)).hist = [] ∧ u.fld (F.dpllStatus_HIST_VALID (c.fld 0 1)) = 0 ∧
      u.reg (Reg.dpllHistIncrLo (c.fld 0 1)) = RegMap.reset (Reg.dpllHistIncrLo (c.fld 0 1))) t) ∧
  (∀ (s : State) (c : Cmd), s.takes c 0x0901 = true → c.ok 3 = true → c.fld 0 1 < 4 → c.fld 1 1 = 1 → c.fld 2 1 < 16 → Runs (.refForce c) s fun t =>
    (s.qualified (c.fld 0 1) (c.fld 2 1) = true → t.host.parked = s.host.parked ++ [{ id := s.host.nextId, cmd := c, op := 0x0901, issued := false }]) ∧
    (s.qualified (c.fld 0 1) (c.fld 2 1) = false → Completed c 0x0901 st.badState (fun _ => True) t)) ∧
  (∀ (s : State) (k : Fin 16) (w : Fin 3) (v : Word), s.up = true → s.beaten .host (Reg.candCfg k + 4 * w.val) = false → w ≠ 0 → Runs (.candCfgWrite .host k w v) s fun t =>
    t.waiting = s.waiting ++ [{ addr := Reg.candCfg k + 4 * w.val, word := (s.regW (Reg.candCfg k + 4 * w.val) &&& ~~~(rwMask (Reg.candCfg k + 4 * w.val))) ||| (v &&& rwMask (Reg.candCfg k + 4 * w.val)) }]) ∧
  (∀ (s : State) (d : Fin 4) (v : Word), s.up = true → s.flag (F.dpllCfg_OPEN d) = false → (F.dpllCfg_OPEN d).of v = 1 → (F.dpllCfg_EN d).of v = 1 → Runs (.dpllOpen .host d v) s fun t =>
    t.dpllState d = 5 ∧ t.reg (Reg.dpllSwrateLo d) = BitVec.ofNat 32 (s.cnt d).incr.toNat ∧ t.fld (F.dpllSwrateHi_HI d) = (s.cnt d).incr.toNat / 2 ^ 32 ∧ (t.dpll d).sw = none) ∧
  (∀ (s : State) (d : Fin 4) (v : Word), s.up = true → s.flag (F.dpllCfg_SW_SRC d) = true → s.dpllState d = 5 → Runs (.swrateCommit .host d v) s fun t =>
    (t.dpll d).sw = some ((F.dpllSwrateHi_HI d).of v * 2 ^ 32 + (s.reg (Reg.dpllSwrateLo d)).toNat)) ∧
  (∀ (s : State) (y : Fin 2) (err : Nat) (band : Fin 64), s.up = true → s.flag (F.synCfg_EN y) = true → s.flag (F.synStatus_SEARCH y) = true → err ≤ 100 → 3 ≤ (s.syn y).good →
    Runs (.synGate y err band) s fun t => t.flag (F.synStatus_LOCK y) = true ∧ t.flag (F.synStatus_SEARCH y) = false ∧ t.fld (F.synStatus_BAND y) = band.val) ∧
  (∀ (s : State) (y : Fin 2) (err : Nat) (band : Fin 64), s.up = true → s.flag (F.synCfg_EN y) = true → s.flag (F.synStatus_SEARCH y) = true → 100 < err →
    Runs (.synGate y err band) s fun t => (t.syn y).good = 0 ∧ t.flag (F.synStatus_SEARCH y) = true) ∧
  (∀ (s : State) (y : Fin 2) (v : Word), s.up = true → (F.synCfg_UPD y).of v = 1 → (F.synCfg_EN y).of v = 0 → s.flag (F.synCfg_EN y) = false →
    32 * 2 ^ 32 ≤ (s.putRw (Reg.synCfg y) v).synShadow y → (s.putRw (Reg.synCfg y) v).synShadow y ≤ 36 * 2 ^ 32 → (s.putRw (Reg.synCfg y) v).clksOf y = [] →
    Runs (.synUpd .host y v) s fun t => (t.syn y).fb = (s.putRw (Reg.synCfg y) v).synShadow y)

/-- Measurement (spec/13 R415 to R434; spec/09 R298, R304, R305): edges are counted, those in the hold-off ignored; a window's end gives its record; a stop that finds no start is dropped; records that are due are posted;
a gate's end gives its record; a FREQ_LONG takes its meter; pulses rise and fall; schedules and settings wait for their boundary. -/
def Obligations.Measurement : Prop :=
  (∀ (s : State) (n : Fin 16) (e : Bool) (raw code : BitVec 12), s.up = true → s.linear (128 + n.val) 0 raw = code → s.flag (F.evinCfg_EN n) = true →
    bitAt s.meas.mute.toNat n = false → Tab.get s.meas.holdEnd 0 n ≤ s.edgeTime code →
    e = s.flag (F.evinCfg_EDGE n) → Runs (.evinEdge n e raw) s fun t => Tab.get t.meas.edges 0 n = (Tab.get s.meas.edges 0 n + 1) % 2 ^ 64 ∧
      Tab.get t.meas.holdEnd 0 n = s.holdTill n code) ∧
  (∀ (s : State) (n : Fin 16) (e : Bool) (raw : BitVec 12), s.up = true → s.flag (F.evinCfg_EN n) = true → bitAt s.meas.mute.toNat n = false →
    s.edgeTime (s.linear (128 + n.val) 0 raw) < Tab.get s.meas.holdEnd 0 n → Runs (.evinEdge n e raw) s fun t => t.fld (F.evinHoldoff_COUNT n) = min (2 ^ 32 - 1) (s.fld (F.evinHoldoff_COUNT n) + 1) ∧ t.meas = s.meas) ∧
  (∀ (s : State) (m : Fin 8) (e : Bool) (code : BitVec 12), s.up = true → Runs (.refinEdge m e code) s fun t =>
    Tab.get t.meas.edges 0 (16 + 2 * m.val + bit e) = (Tab.get s.meas.edges 0 (16 + 2 * m.val + bit e) + 1) % 2 ^ 64) ∧
  (∀ (s : State) (m : Fin 32) (w : Window), s.up = true → (s.im m).win = some w → Runs (.measWindowEnd m) s fun t =>
    (t.im m).win = none ∧ (t.im m).seq = (s.im m).seq + 1 ∧ t.meas.done = MeasRec.place { s.imRecord m w with tick := s.time.tick } s.meas.done) ∧
  (∀ (s : State) (m : Fin 32) (i : Fin 8), s.up = true → (Tab.find i (s.im m).pend).isSome = true → Runs (.pendingStopExpire m i) s fun t => Tab.find i (t.im m).pend = none) ∧
  (∀ s : State, s.up = true → Runs .measPost s fun t => t.meas.due = []) ∧
  (∀ (s : State) (f : Fin 16) (g : Gate), s.up = true → (s.fm f).ended = some g → (s.fm f).owner = none → Runs (.fmGateEnd f) s fun t =>
    (t.fm f).ended = none ∧ (t.fm f).seq = (s.fm f).seq + 1 ∧
    t.meas.due = MeasRec.place { unit := g.src, data := s.fmRecord f g, tick := g.endTick, key := 64 + f.val } s.meas.due) ∧
  (∀ (s : State) (c : Cmd), s.takes c 0x0A01 = true → c.ok 32 [(18, 6)] = true → c.fld 0 1 < 16 → 128 ≤ c.fld 1 1 → c.fld 1 1 < 160 → c.fld 2 1 < 4 → c.fld 3 1 ≤ 24 →
    1000 ≤ c.fld 4 4 → c.fld 4 4 ≤ 1000000 → s.nameOk (c.fld 14 4) (boundaryName (c.fld 8 6) (c.fld 14 4)) = true → c.fld 24 8 % 64 = 0 → s.bufOk c.src (c.fld 24 8) 128 = true →
    s.flag (F.fmCfg_EN (c.fld 0 1)) = false → (s.fm (c.fld 0 1)).owner = none → (s.fetched c).longReady (0xA0100 + c.fld 0 1) = true → Runs (.freqLong c) s fun t =>
      StartsLong c 0x0A01 [c.fld 0 1, c.fld 1 1 - 128, c.fld 2 1, c.fld 3 1, c.fld 4 4, c.fld 24 8] t ∧ (t.fm (c.fld 0 1)).owner.isSome = true ∧
      (t.fm (c.fld 0 1)).begins = some (boundaryName (c.fld 8 6) (c.fld 14 4))) ∧
  (∀ (s : State) (k : Fin 16), (if k = 0 then s.power.aon && s.power.pllLocked else s.up) = true → (s.evout k).high = true →
    s.evoutDue (s.evout k).tb (s.evoutLaunch k (s.evout k).adv (s.evout k).fall) = true → Runs (.evoutPulse k true) s fun t =>
      (t.evout k).high = false ∧ (t.evout k).trail = s.evoutPos (s.evout k).tb (s.evoutLaunch k (s.evout k).adv (s.evout k).fall) + 1) ∧
  (∀ (s : State) (k : Fin 16) (at' : Stamp), (if k = 0 then s.power.aon && s.power.pllLocked else s.up) = true → (s.evout k).sched.has (s.evout k).next = true →
    (s.evout k).high = false →
    ((s.evout k).trail = 0 ∨ (s.evout k).trail + 128 ≤ s.evoutPos (s.evout k).sched.tb (s.evoutLaunch k (s.evout k).sched.adv at') + 1) →
    at' = (s.evout k).sched.start + (s.evout k).next * (s.evout k).sched.period →
    s.evoutDue (s.evout k).sched.tb (s.evoutLaunch k (s.evout k).sched.adv at') = true → Runs (.evoutPulse k false) s fun t =>
      (t.evout k).high = true ∧ (t.evout k).next = (s.evout k).next + 1 ∧ (t.evout k).fall = at' + (s.evout k).sched.width * 65536) ∧
  (∀ (s : State) (c : Cmd), s.takes c 0x0A02 = true → c.ok 48 [(3, 1), (22, 2), (42, 6)] = true → (c.fld 0 1 ≠ 0 ∨ c.fld 2 1 = 0) → c.fld 0 1 < 16 → c.fld 1 1 < 8 → c.fld 2 1 < 4 → c.fld 10 4 < 1000000000 →
    s.nameOk (c.fld 38 4) (boundaryName (c.fld 32 6) (c.fld 38 4)) = true → (pulseSched c).ok = true → (s.evout (c.fld 0 1)).loads = [] →
    (s.flag (F.evoutCfg_LOAD (c.fld 0 1)) && s.boundNo (boundaryName (c.fld 32 6) (c.fld 38 4)) == s.boundNo none) = false → Runs (.pulseLoad c) s fun t =>
      (t.evout (c.fld 0 1)).loads = [(s.host.nextId, boundaryName (c.fld 32 6) (c.fld 38 4), pulseSched c)]) ∧
  (∀ (s : State) (k : Fin 16) (v : Word), s.up = true → (F.evoutCfg_LOAD k).of v = 1 → Runs (.evoutLoad .host k v) s fun t => t.fld (F.evoutCfg_LOAD k) = 1) ∧
  (∀ (s : State) (m : Fin 32) (w : Fin 4) (v : Word), s.up = true → s.beaten .host (Reg.imCfg m + 4 * w.val) = false → Runs (.imCfgWrite .host m w v) s fun t =>
    t.waiting = s.waiting ++ [{ addr := Reg.imCfg m + 4 * w.val, word := (s.regW (Reg.imCfg m + 4 * w.val) &&& ~~~(rwMask (Reg.imCfg m + 4 * w.val))) ||| (v &&& rwMask (Reg.imCfg m + 4 * w.val)) }]) ∧
  (∀ (s : State) (m : Fin 32) (w : Fin 4) (v : Word), s.beaten .host (Reg.imCfg m + 4 * w.val) = true → Runs (.imCfgWrite .host m w v) s fun t => t = s) ∧
  (∀ (s : State) (f : Fin 16) (w : Fin 2) (v : Word), s.up = true → s.beaten .host (Reg.fmCfg f + 4 * w.val) = false → (s.fm f).owner = none → Runs (.fmCfgWrite .host f w v) s fun t =>
    t.waiting = s.waiting ++ [{ addr := Reg.fmCfg f + 4 * w.val, word := (s.regW (Reg.fmCfg f + 4 * w.val) &&& ~~~(rwMask (Reg.fmCfg f + 4 * w.val))) ||| (v &&& rwMask (Reg.fmCfg f + 4 * w.val)) }])

/-- Calibration (spec/11 R355 to R373; spec/02 R75): each sensor keeps its reading; a temperature that has moved, and the end of a period, make runs due; a run that ends waits for the boundary; chunks are counted; an overdue run is reported once; a sweep is a long
operation; a hold shows in its lanes; UPD of a link asks for its figures at the boundary. -/
def Obligations.Calibration : Prop :=
  (∀ (s : State) (n : Fin 145) (temp : BitVec 16), s.up = true → n.val < 128 → Runs (.calTempCheck n temp) s fun t => (t.pathCal n).temp = temp ∧
    (s.flag (F.laneCalCfg_AUTO n) = true → s.joinedBeat = true → (s.pathCal n).tempFired = false → (s.pathCal n).why = none → (s.interpCal n).why = none →
      max 1 (s.fld (F.laneCalCfg_TRIG n)) < (sgn 16 temp.toNat - sgn 16 (s.fld (F.laneCalStatus_TEMP_LAST n))).natAbs →
      (t.pathCal n).why = some .temp ∧ (t.interpCal n).why = some .temp)) ∧
  (∀ (s : State) (n : Fin 145) (temp : BitVec 16), s.up = true → 128 ≤ n.val → n.val < 144 → Runs (.calTempCheck n temp) s fun t =>
    Tab.get t.cal.temps 0 (n.val - 128) = temp) ∧
  (∀ (s : State) (temp : BitVec 16), Runs (.calTempCheck 144 temp) s fun t => t.power.islandTemp = temp) ∧
  (∀ (s : State) (n : Fin 128), s.joinedBeat = true → s.flag (F.laneCalCfg_AUTO n) = true → s.periodOver n = true → (s.pathCal n).periodFired = false →
    (s.pathCal n).why = none → (s.interpCal n).why = none → Runs (.calPeriodDue n) s fun t => (t.pathCal n).why = some .period ∧ (t.interpCal n).why = some .period) ∧
  (∀ (s : State) (a b u : Nat), s.joinedBeat = true → s.inDip = false → s.replaced 2 = false → (s.toTick 16).calWork = [(a, b, u, true)] → Runs .calSlotStart s fun t => (t.pathCal u).running = true ∧
    (t.pathCal u).startTemp = (s.pathCal u).temp) ∧
  (∀ (s : State) (n : Fin 128) (r : PathRun), (s.pathCal n).running = true → Runs (.pathRunDone n r) s fun t => t.pathCal n = { s.pathCal n with running := false, done := some r }) ∧
  (∀ (s : State) (u : Fin 160) (p : Fin 4) (r : ChunkRes), (s.interpCal u).running = true → (s.interpCal u).path = p.val → Runs (.calChunkDone u p r) s fun t =>
    t.interpCal u = (s.interpCal u).chunk (iuPaths u) r) ∧
  (∀ (s : State) (u : Fin 160) (p : Fin 4) (r : ChunkRes), (s.interpCal u).path ≠ p.val → Runs (.calChunkDone u p r) s fun t => t = s) ∧
  (∀ (x : InterpCal) (n : Nat) (span : BitVec 12), x.segs < 12 → (x.chunk n (.segment span)).segs = x.segs + 1 ∧ (x.chunk n (.segment span)).running = false ∧
    (x.segs = 11 → Tab.find x.path (x.chunk n (.segment span)).masks = some (segSelect (x.spans ++ [span])))) ∧
  (∀ (x : InterpCal) (n : Nat) (l : List (BitVec 12 × Nat)), 12 ≤ x.segs → (l.map (·.2)).foldl (· + ·) 0 = 4096 → (x.chunk n (.edges l)).running = false ∧
    (x.hist < 255 → (x.chunk n (.edges l)).hist = x.hist + 1) ∧
    (255 ≤ x.hist → x.path + 1 < n → (x.chunk n (.edges l)).path = x.path + 1 ∧ (x.chunk n (.edges l)).segs = 0) ∧
    (255 ≤ x.hist → n ≤ x.path + 1 → (x.chunk n (.edges l)).ready = true)) ∧
  (∀ (s : State) (u : Fin 160) (noGap : Bool), (s.interpCal u).why.isSome = true → (s.interpCal u).overdue = false →
    (s.interpCal u).dueTick + s.maxWait u ≤ s.time.tick → Runs (.calOverdue u true noGap (s.interpCal u).dueTick) s fun t => (t.interpCal u).overdue = true ∧
    Raised 0x0802 16 [(0, 2, u.val), (2, 1, 1), (3, 1, s.overdueWhy u true), (4, 4, ticksMs (s.time.tick - (s.interpCal u).dueTick)),
      (8, 2, twos 16 (tempMoved (s.unitTemp u) (s.fld (F.iucalState_TEMP_LAST u))))] t) ∧
  (∀ (s : State) (u : Fin 160) (noGap : Bool), u.val < 128 → (s.pathCal u).why.isSome = true → (s.pathCal u).overdue = false →
    (s.pathCal u).dueTick + s.maxWait u ≤ s.time.tick → Runs (.calOverdue u false noGap (s.pathCal u).dueTick) s fun t => (t.pathCal u).overdue = true ∧
    Raised 0x0802 16 [(0, 2, u.val), (2, 1, 0), (3, 1, s.overdueWhy u false), (4, 4, ticksMs (s.time.tick - (s.pathCal u).dueTick)),
      (8, 2, twos 16 (tempMoved (s.unitTemp u) (s.fld (F.laneCalStatus_TEMP_LAST u))))] t) ∧
  (∀ (s : State) (c : Cmd), s.takes c 0x0801 = true → c.ok 24 [(21, 3)] = true → c.fld 20 1 < 4 → ((maskIdx 128 (c.fld 0 16)).any (s.fetched c).calHeld) = false →
    ((maskIdx 32 (c.fld 16 4)).any fun k => (s.fetched c).calHeld (128 + k)) = false → (s.fetched c).longReady 0x0801 = true → Runs (.calSweep c) s fun t =>
      StartsLong c 0x0801 [c.fld 0 16, c.fld 16 4, c.fld 20 1] t ∧ (bitAt (c.fld 20 1) 0 = true → ∀ n ∈ maskIdx 128 (c.fld 0 16), (t.pathCal n).sweep = true)) ∧
  (∀ (s : State) (c : Cmd), s.takes c 0x0802 = true → c.ok 24 [(21, 3)] = true → c.fld 20 1 < 2 → Runs (.calHold c) s fun t =>
    Completed c 0x0802 st.ok (fun u => ∀ n ∈ maskIdx 128 (c.fld 0 16), u.fld (F.laneCalCfg_HOLD n) = c.fld 20 1) t) ∧
  (∀ (s : State) (src : WrSrc) (n : Fin 128) (v : Word), s.up = true → s.portExists n = true → (F.linkCfg_UPD n).of v = 1 → Runs (.linkUpd src n v) s fun t =>
    t.fld (F.linkCfg_MODE n) = (F.linkCfg_MODE n).of v ∧ t.fld (F.linkCfg_UPD n) = 1)

/-- RV32IMC instructions of a core (spec/16 R492, R495, R497): each kind of instruction of 2 or 4 bytes, from the words at the pc, where the core runs and an issue slot is open; what encodes no instruction, a fetch, load or store where the core has no access, and an uncorrectable error in the word fetched trap; the meaning of each instruction follows the
RISC-V base standard, which the spec takes over by name (the model's choice, log entry 39). -/
def Obligations.CoreInstructions : Prop :=
  (∀ (s : State) (c : Fin 8) (len : Nat) (op : AluOp) (rd rs1 : Nat) (v : Word) (e : EccSeen), e.fetch.any (·.bad) = false → s.mayIssue c = true → s.atPc c (.aluImm op rd rs1 v) len → Runs (.rv32imcInstruction c e) s fun t =>
    t.wrote c rd (op.run (s.getX c rs1) v) ((s.core c).pc + BitVec.ofNat 32 len)) ∧
  (∀ (s : State) (c : Fin 8) (len : Nat) (op : AluOp) (rd rs1 rs2 : Nat) (e : EccSeen), e.fetch.any (·.bad) = false → s.mayIssue c = true → s.atPc c (.alu op rd rs1 rs2) len → Runs (.rv32imcInstruction c e) s fun t =>
    t.wrote c rd (op.run (s.getX c rs1) (s.getX c rs2)) ((s.core c).pc + BitVec.ofNat 32 len)) ∧
  (∀ (s : State) (c : Fin 8) (len : Nat) (rd : Nat) (off : Word) (e : EccSeen), e.fetch.any (·.bad) = false → s.mayIssue c = true → s.atPc c (.jal rd off) len → Runs (.rv32imcInstruction c e) s fun t =>
    t.wrote c rd ((s.core c).pc + BitVec.ofNat 32 len) ((s.core c).pc + off)) ∧
  (∀ (s : State) (c : Fin 8) (len : Nat) (k : BrCond) (rs1 rs2 : Nat) (off : Word) (e : EccSeen), e.fetch.any (·.bad) = false → s.mayIssue c = true → s.atPc c (.branch k rs1 rs2 off) len → Runs (.rv32imcInstruction c e) s fun t =>
    (t.core c).pc = (s.core c).pc + if k.holds (s.getX c rs1) (s.getX c rs2) then off else BitVec.ofNat 32 len) ∧
  (∀ (s : State) (c : Fin 8) (len : Nat) (n rd rs1 : Nat) (signed : Bool) (off : Word) (e : EccSeen), e.fetch.any (·.bad) = false → s.mayIssue c = true → ¬(c = 5 ∧ inRegion (s.getX c rs1 + off).toNat n 0 0x10000 = true) → s.atPc c (.load n signed rd rs1 off) len →
    s.rangeOpen c (s.getX c rs1 + off).toNat n = true → e.data.any (·.bad) = false → Runs (.rv32imcInstruction c e) s fun t =>
      t.wrote c rd (if signed then sext (8 * n) (s.memRead (s.getX c rs1 + off).toNat n) else BitVec.ofNat 32 (s.memRead (s.getX c rs1 + off).toNat n)) ((s.core c).pc + BitVec.ofNat 32 len)) ∧
  (∀ (s : State) (c : Fin 8) (len : Nat) (n rs1 rs2 : Nat) (off : Word) (e : EccSeen), e.fetch.any (·.bad) = false → s.mayIssue c = true → s.atPc c (.store n rs1 rs2 off) len → s.rangeOpen c (s.getX c rs1 + off).toNat n = true → e.data.any (·.bad) = false →
    Runs (.rv32imcInstruction c e) s fun t =>
      (t.core c).pc = (s.core c).pc + BitVec.ofNat 32 len ∧ t.cores.mem = (s.memWrite (s.getX c rs1 + off).toNat n (s.getX c rs2).toNat).cores.mem) ∧
  (∀ (s : State) (c : Fin 8) (len : Nat) (e : EccSeen), e.fetch.any (·.bad) = false → s.mayIssue c = true → s.atPc c .ecall len → (s.core c).active = false → Runs (.rv32imcInstruction c e) s fun t => s.trapped t c 6 (s.core c).pc) ∧
  (∀ (s : State) (c : Fin 8) (e : EccSeen) (lo : Nat), s.mayIssue c = true → s.fetchHalf c (s.core c).pc.toNat = some lo → lo % 4 ≠ 3 →
    (e.fetch.any fun x => x.bad && x.word == 0) = true → (s.bankAt ((s.core c).pc.toNat / 4 * 4)).isSome = true → (s.core c).active = false →
    Runs (.rv32imcInstruction c e) s fun t => s.trapped t c 7 (s.core c).pc) ∧
  (∀ (s : State) (c : Fin 8) (e : EccSeen), s.mayIssue c = false → Runs (.rv32imcInstruction c e) s fun t => t = s) ∧
  (∀ (s : State) (c : Fin 8) (len : Nat) (rd : Nat) (v : Word) (e : EccSeen), e.fetch.any (·.bad) = false → s.mayIssue c = true → s.atPc c (.lui rd v) len → Runs (.rv32imcInstruction c e) s fun t => t.wrote c rd v ((s.core c).pc + BitVec.ofNat 32 len)) ∧
  (∀ (s : State) (c : Fin 8) (len : Nat) (rd : Nat) (v : Word) (e : EccSeen), e.fetch.any (·.bad) = false → s.mayIssue c = true → s.atPc c (.auipc rd v) len → Runs (.rv32imcInstruction c e) s fun t => t.wrote c rd ((s.core c).pc + v) ((s.core c).pc + BitVec.ofNat 32 len)) ∧
  (∀ (s : State) (c : Fin 8) (len : Nat) (rd rs1 : Nat) (off : Word) (e : EccSeen), e.fetch.any (·.bad) = false → s.mayIssue c = true → s.atPc c (.jalr rd rs1 off) len → Runs (.rv32imcInstruction c e) s fun t =>
    t.wrote c rd ((s.core c).pc + BitVec.ofNat 32 len) ((s.getX c rs1 + off) &&& 0xFFFFFFFE#32)) ∧
  (∀ (s : State) (c : Fin 8) (len : Nat) (e : EccSeen), e.fetch.any (·.bad) = false → s.mayIssue c = true → s.atPc c .fence len → Runs (.rv32imcInstruction c e) s fun t => (t.core c).pc = (s.core c).pc + BitVec.ofNat 32 len ∧ t.cores.mem = s.cores.mem) ∧
  (∀ (s : State) (c : Fin 8) (len : Nat) (e : EccSeen), e.fetch.any (·.bad) = false → s.mayIssue c = true → s.atPc c .ebreak len → (s.core c).active = false → Runs (.rv32imcInstruction c e) s fun t => s.trapped t c 3 (s.core c).pc) ∧
  (∀ (s : State) (c : Fin 8) (w : Word) (e : EccSeen), e.fetch.any (·.bad) = false → s.mayIssue c = true → s.noInsn c w → (s.core c).active = false → Runs (.rv32imcInstruction c e) s fun t =>
    s.trapped t c 2 (s.core c).pc ∧ (t.core c).trapVal = w) ∧
  (∀ (s : State) (c : Fin 8) (e : EccSeen), s.mayIssue c = true → s.fetchHalf c (s.core c).pc.toNat = none → (s.core c).active = false → Runs (.rv32imcInstruction c e) s fun t =>
    s.trapped t c 1 (s.core c).pc ∧ (t.core c).trapVal = (s.core c).pc) ∧
  (∀ (s : State) (c : Fin 8) (len : Nat) (n rd rs1 : Nat) (signed : Bool) (off : Word) (e : EccSeen), e.fetch.any (·.bad) = false → s.mayIssue c = true → s.atPc c (.load n signed rd rs1 off) len →
    s.noAccess c (s.getX c rs1 + off).toNat n → (s.core c).active = false → Runs (.rv32imcInstruction c e) s fun t =>
    s.trapped t c 4 (s.core c).pc ∧ (t.core c).trapVal = s.getX c rs1 + off) ∧
  (∀ (s : State) (c : Fin 8) (len : Nat) (n rs1 rs2 : Nat) (off : Word) (e : EccSeen), e.fetch.any (·.bad) = false → s.mayIssue c = true → s.atPc c (.store n rs1 rs2 off) len →
    s.rangeOpen c (s.getX c rs1 + off).toNat n = false → inRegion (s.getX c rs1 + off).toNat n 0x20000000 0x2000 = false →
    inRegion (s.getX c rs1 + off).toNat 1 0x30000000 0x4000000 = false → (s.core c).active = false → Runs (.rv32imcInstruction c e) s fun t =>
    s.trapped t c 5 (s.core c).pc ∧ (t.core c).trapVal = s.getX c rs1 + off ∧ t.cores.mem = s.cores.mem)

/-- The custom instructions (spec/16 R493): each writes its register and moves on, KS.WFB and KS.WFE sleep where what they wait for has not come, and the awaited interrupt wakes the core; a counter is read in halves, an event above 39 as 0; KS.TRET
returns to where the trap or interrupt left off. -/
def Obligations.CustomInstructions : Prop :=
  (∀ (s : State) (c : Fin 8) (rd rs1 : Fin 32), s.mayIssue c = true → Runs (.ksTsnap c rd rs1) s fun t =>
    t.wrote c rd (BitVec.ofNat 32 (Stamp.ns ((s.slotFor c).cnt ((s.getX c rs1).toNat % 32)).stamp)) ((s.core c).pc + 4) ∧ (t.core c).holdTime = ((s.slotFor c).cnt ((s.getX c rs1).toNat % 32)).stamp ∧
    (t.core c).holdBeat = s.beat) ∧
  (∀ (s : State) (c : Fin 8) (rd rs1 : Fin 32), s.mayIssue c = true → Runs (.ksTget c rd rs1) s fun t => t.wrote c rd ((s.core c).heldPart (s.getX c rs1)) ((s.core c).pc + 4)) ∧
  (∀ (s : State) (c : Fin 8) (w : Fin 3) (rd rs1 rs2 : Fin 32), s.mayIssue c = true → Runs (.ksCrc c w rd rs1 rs2) s fun t =>
    t.wrote c rd ((natBytes (2 ^ w.val) (s.getX c rs2).toNat).foldl crcByte (s.getX c rs1)) ((s.core c).pc + 4)) ∧
  (∀ (s : State) (c : Fin 8) (rd rs1 : Fin 32), s.mayIssue c = true → (s.getX c rs1).toNat < 40 → 15 < (s.getX c rs1).toNat → (s.getX c rs1).toNat ∉ [25, 38, 39] →
    Runs (.ksPcnt c rd rs1) s fun t => t.wrote c rd (BitVec.ofNat 32 (Tab.get (s.core c).cnt 0 (s.getX c rs1).toNat)) ((s.core c).pc + 4) ∧
      (t.core c).cntHi = Tab.get (s.core c).cnt 0 (s.getX c rs1).toNat / 2 ^ 32) ∧
  (∀ (s : State) (c : Fin 8) (rd : Fin 32), s.mayIssue c = true → (s.core c).intPend.getLsbD 2 = true → Runs (.ksWfb c rd) s fun t =>
    t.wrote c rd (BitVec.ofNat 32 (s.core c).beatSkipped) ((s.core c).pc + 4) ∧ (t.core c).beatOpen = false ∧ (t.core c).intPend.getLsbD 2 = false) ∧
  (∀ (s : State) (c : Fin 8) (rd : Fin 32), s.mayIssue c = true → (s.core c).intPend.getLsbD 2 = false → Runs (.ksWfb c rd) s fun t =>
    t.coreState c = 2 ∧ (t.core c).sleep = some (.wfb rd) ∧ (t.core c).pc = (s.core c).pc) ∧
  (∀ (s : State) (c : Fin 8) (rd : Fin 32), s.mayIssue c = true → s.intDue c ≠ 0 → (∀ e < 40, Tab.get (s.core c).cnt 0 e + 1 < 2 ^ 48) → Runs (.ksWfe c rd) s fun t =>
    t.wrote c rd ((s.core c).intPend.setWidth 32) ((s.core c).pc + 4)) ∧
  (∀ (s : State) (c : Fin 8) (rd : Fin 32), s.mayIssue c = true → s.intDue c = 0 → (∀ e < 40, Tab.get (s.core c).cnt 0 e + 1 < 2 ^ 48) → Runs (.ksWfe c rd) s fun t =>
    t.coreState c = 2 ∧ (t.core c).sleep = some (.wfe rd)) ∧
  (∀ (s : State) (c : Fin 8), s.mayIssue c = true → Runs (.ksTret c) s fun t => (t.core c).active = false ∧ (t.core c).pc = (s.core c).trapEpc) ∧
  (∀ (s : State) (c : Fin 8) (rd : Fin 32), s.up = true → s.coreState c = 2 → (s.core c).sleep = some (.wfb rd) → (s.core c).intPend.getLsbD 2 = true →
    (((s.setCoreState c 1).awake c).slotFor c).openSlots c ≠ 0 → Runs (.coreWake c) s fun t =>
    t.coreState c = 1 ∧ (t.core c).sleep = none ∧ t.wrote c rd (BitVec.ofNat 32 (s.core c).beatSkipped) ((s.core c).pc + 4)) ∧
  (∀ (s : State) (c : Fin 8) (rd rs1 : Fin 32), s.mayIssue c = true → 39 < (s.getX c rs1).toNat % 64 → Runs (.ksPcnt c rd rs1) s fun t => t.wrote c rd 0 ((s.core c).pc + 4)) ∧
  (∀ (s : State) (c : Fin 8) (rd rs1 : Fin 32), s.mayIssue c = true → (s.getX c rs1).toNat % 64 < 40 → bitAt (s.getX c rs1).toNat 6 = true → Runs (.ksPcnt c rd rs1) s fun t =>
    t.wrote c rd (BitVec.ofNat 32 (s.core c).cntHi) ((s.core c).pc + 4)) ∧
  (∀ (s : State) (c : Fin 8) (rd rs1 : Fin 32), s.mayIssue c = true → (s.getX c rs1).toNat % 64 < 40 → bitAt (s.getX c rs1).toNat 6 = false → Runs (.ksPcnt c rd rs1) s fun t =>
    ∃ v, t.wrote c rd (BitVec.ofNat 32 v) ((s.core c).pc + 4) ∧ (t.core c).cntHi = v / 2 ^ 32) ∧
  (∀ (s u : State) (c : Fin 8) (rd : Fin 32), s.up = true → s.coreState c = 2 → (s.core c).sleep = some (.wfe rd) → s.intDue c ≠ 0 →
    u = ((s.setCoreState c 1).awake c).slotFor c → u.openSlots c ≠ 0 → Runs (.coreWake c) s fun t =>
    t.coreState c = 1 ∧ (t.core c).sleep = none ∧ t.wrote c rd ((u.core c).intPend.setWidth 32) ((s.core c).pc + 4))

/-- Traps, interrupts, the local block and counters of a core (spec/16 R494 to R500, R508 to R512): a trap and an interrupt save the pc and the cause and go to the vector; a
second trap in a handler halts the core or restarts it; the words of the local block act; the watchdog warns, then restarts the core, one of the timing pair being held in reset; wraps and tags are noted. -/
def Obligations.CoreEvents : Prop :=
  (∀ (s : State) (c : Fin 8) (cause : BitVec 8) (val : Word), s.mayIssue c = true → 1 ≤ cause.toNat → cause.toNat ≤ 7 → (s.core c).active = false → Runs (.trap c cause val) s fun t =>
    s.trapped t c cause.toNat (s.core c).pc ∧ (t.core c).trapVal = val) ∧
  (∀ (s : State) (c : Fin 8) (cause : BitVec 8) (val : Word), s.mayIssue c = true → 1 ≤ cause.toNat → cause.toNat ≤ 7 → (s.core c).active = true → (c.val < 2 ∨ 6 ≤ c.val) → Runs (.trap c cause val) s fun t =>
    t.coreState c = 3 ∧ (t.core c).trapVal = val) ∧
  (∀ (s : State) (c : Fin 8) (cause : BitVec 8) (val : Word), s.mayIssue c = true → 1 ≤ cause.toNat → cause.toNat ≤ 7 → (s.core c).active = true → 2 ≤ c.val → c.val < 6 →
    Runs (.trap c cause val) s fun t => t.coreState c = 1 ∧ (t.core c).pc = Config.entryPc c ∧ (t.core c).active = false) ∧
  (∀ (s : State) (c : Fin 8) (i : Nat), s.mayIssue c = true → (s.core c).active = false → (maskIdx 8 (s.intDue c).toNat).head? = some i → Runs (.interruptTaken c) s fun t =>
    s.trapped t c (0x80 + i) (s.core c).pc) ∧
  (∀ (s : State) (c : Fin 8) (v : Word), s.up = true → 6 ≤ c.val → (s.core c).mbBusy.getLsbD (v.toNat % 8) = false → Runs (.mbPost c v) s fun t =>
    (t.core c).mbBusy.getLsbD (v.toNat % 8) = true) ∧
  (∀ (s : State) (c : Fin 8) (v : Word), s.up = true → v.getLsbD 31 = true → Runs (.beatAck c v) s fun t =>
    (t.core c).beatOpen = false ∧ (t.core c).beatSkipped = 0 ∧ (t.core c).intPend.getLsbD 2 = false) ∧
  (∀ (s : State) (c : Fin 8) (v : Word), s.up = true → Runs (.coreWdtKick c v) s fun t => (t.core c).dog = ⟨0, s.time.tick⟩) ∧
  (∀ (s : State) (c : Fin 8) (v : Word), s.up = true → v.getLsbD 31 = true → (s.core c).fifoN ≠ 0 → Runs (.evtRelease c v) s fun t =>
    (t.core c).fifoN = (s.core c).fifoN - 1 ∧ (t.core c).fifoHead = ((s.core c).fifoHead + 1) % 16) ∧
  (∀ (s : State) (c : Fin 8), s.coreWdtAt c 3 = true → Runs (.coreWdtWarn c) s fun t => (t.core c).intPend.getLsbD 5 = true) ∧
  (∀ (s : State) (c : Fin 8), s.coreWdtAt c 4 = true → c.val < 2 → Runs (.coreWdt c) s fun t => t.coreState c = 0 ∧ (t.core c).sleep = none) ∧
  (∀ (s : State) (c : Fin 8), s.coreWdtAt c 4 = true → 2 ≤ c.val → s.hasImage c = true → Runs (.coreWdt c) s fun t => t.coreState c = 1 ∧ (t.core c).pc = Config.entryPc c) ∧
  (∀ (s : State) (c : Fin 8) (e : Fin 40), s.up = true → e.val ≤ 2 →
    Tab.get (s.core c).wraps 0 e < (if e.val = 0 then s.cycles c else if e.val = 1 then s.sleepCycles c else s.issueSlots c) / 2 ^ 48 → Runs (.perfWrap c e) s fun t => (t.core c).intPend.getLsbD 6 = true ∧
    bitAt (t.reg (if e.val < 32 then Reg.perfWrapLo c else Reg.perfWrapHi c)).toNat (e.val % 32) = true) ∧
  (∀ (s : State) (c : Fin 8) (e : Fin 40), 2 < e.val → Runs (.perfWrap c e) s fun t => t = s) ∧
  (∀ (s : State) (c : Fin 8), s.running c = true → s.tagK c ≠ 0 → (s.core c).countdown = 0 → (s.core c).tagDue = false → (s.core c).tagged = none →
    s.fld (F.perfTagStatus_COUNT c) ≠ 64 → Runs (.tagCountdown c) s fun t => (t.core c).tagDue = true ∧ (t.core c).countdown = (tagNext c (s.tagK c) 25 (s.core c).lfsr).2) ∧
  (∀ (s : State) (c : Fin 8), s.running c = true → s.tagK c ≠ 0 → (s.core c).countdown = 0 → s.fld (F.perfTagStatus_COUNT c) = 64 → Runs (.tagCountdown c) s fun t =>
    Tab.get (t.core c).cnt 0 39 = (Tab.get (s.core c).cnt 0 39 + 1) % 2 ^ 48 ∧ (t.core c).tagDue = (s.core c).tagDue) ∧
  (∀ (s : State) (c : Fin 8), s.up = true → s.fld (F.perfTagStatus_COUNT c) ≠ 0 → Runs (.tagPop c) s fun t =>
    t.fld (F.perfTagStatus_COUNT c) = s.fld (F.perfTagStatus_COUNT c) - 1 ∧ t.fld (F.perfTagStatus_OLDEST c) = (s.fld (F.perfTagStatus_OLDEST c) + 1) % 64)

/-- Memory banks (spec/16 R501 to R504, R513): a handover is pending until it is done, then the bank has its owner; a bank's power state follows POWER, and OFF loses its contents; a quad is handed over as a
whole; MEM_COPY writes what it read; a word reads back as it was written, whether its quad is interleaved or not. -/
def Obligations.Banks : Prop :=
  (∀ (s : State) (b : Fin 32) (v : Word), s.up = true → s.flag (F.bankCtrl_PENDING b) = false → ownerCode ((F.bankCtrl_NEXT b).of v) ≠ s.bankOwner b →
    s.mayHand .host b (ownerCode ((F.bankCtrl_NEXT b).of v)) = true → s.flag (F.quad_ILV_ACTIVE (b.val / 4)) = false → (F.bankCtrl_POWER b).of v = s.fld (F.bankCtrl_POWER b) →
    Runs (.bankHandover .host b v) s fun t => t.flag (F.bankCtrl_PENDING b) = true ∧ t.fld (F.bankCtrl_NEXT b) = ownerCode ((F.bankCtrl_NEXT b).of v)) ∧
  (∀ (s : State) (src : WrSrc) (b : Fin 32) (v : Word), s.up = true → s.flag (F.bankCtrl_PENDING b) = false → ownerCode ((F.bankCtrl_NEXT b).of v) = s.bankOwner b →
    Runs (.bankPower src b v) s fun t => t.fld (F.bankCtrl_POWER b) = (F.bankCtrl_POWER b).of v ∧ t.fld (F.bankCtrl_OWNER b) = s.fld (F.bankCtrl_OWNER b)) ∧
  (∀ (s : State) (src : WrSrc) (q : Fin 8) (v : Word), s.up = true → ownerCode ((F.quad_NEXT q).of v) ≠ 15 → s.bankOwner (4 * q.val) ≠ ownerCode ((F.quad_NEXT q).of v) →
    (∀ b ∈ quadBanks q, s.flag (F.bankCtrl_PENDING b) = false ∧ s.mayHand src b (ownerCode ((F.quad_NEXT q).of v)) = true) → Runs (.quadHandover src q v) s fun t =>
      ∀ b ∈ quadBanks q, t.flag (F.bankCtrl_PENDING b) = true ∧ t.fld (F.bankCtrl_NEXT b) = ownerCode ((F.quad_NEXT q).of v)) ∧
  (∀ (s : State) (b : Fin 32), s.up = true → s.flag (F.bankCtrl_PENDING b) = true → Runs (.bankHandoverDone b) s fun t =>
    t.flag (F.bankCtrl_PENDING b) = false ∧ t.fld (F.bankCtrl_OWNER b) = s.fld (F.bankCtrl_NEXT b)) ∧
  (∀ (s : State) (b : Fin 32), s.up = true → Runs (.bankPowerReached b) s fun t => t.fld (F.bankCtrl_POWER_STATE b) = min 2 (s.fld (F.bankCtrl_POWER b)) ∧
    (s.fld (F.bankCtrl_POWER b) = 0 → ∀ o < 131072, Tab.get t.cores.mem 0 (131072 * b.val + o) = 0) ∧ (s.fld (F.bankCtrl_POWER b) ≠ 0 → t.cores.mem = s.cores.mem)) ∧
  (∀ (s : State) (c : Cmd) (data : List (BitVec 8)) (ecc : List EccErr), s.takes c 0x0D01 = true → c.ok 24 [(5, 3), (12, 4)] = true → c.fld 0 4 % 4 = 0 → c.fld 4 1 = 0 → 4 ≤ c.fld 8 4 →
    c.fld 8 4 ≤ 131072 → c.fld 8 4 % 4 = 0 → 0x10000000 ≤ c.fld 0 4 → c.fld 0 4 + c.fld 8 4 ≤ 0x10400000 → s.bufOk c.src (c.fld 16 8) (c.fld 8 4) = true → c.src = .host →
    s.rangeOpen 8 (c.fld 0 4) (c.fld 8 4) = true → Runs (.memCopy c data ecc) s fun t =>
      Completed c 0x0D01 st.ok (fun u => u.cores.mem = (s.memWrite (c.fld 0 4) (c.fld 8 4) (bytesNat (data.take (c.fld 8 4)))).cores.mem) t) ∧
  (∀ (s : State) (a v : Nat), 0x10000000 ≤ a → a < 0x10400000 → a % 4 = 0 → (s.memWrite a 4 v).memRead a 4 = v % 2 ^ 32)

/-- The vault (spec/17 R533 to R540; spec/02 R59): a tamper source acts by its RESP, is latched and logged; VSEC counts and VBAT_LOW follows the cell; the loss of VBAT leaves no key; a LOCKed source is
not weakened; keys are written, used and removed by commands. -/
def Obligations.Vault : Prop :=
  (∀ (s : State) (k : Fin 8) (d : Word), s.power.aon = true → s.tamperCond k d = true → s.resp k = 3 → Runs (.tamperDetect k d) s fun t =>
    t.sec.keys = [] ∧ t.fld F.secStatus_ERASED = 1 ∧ t.latched k = true ∧ t.sec.logSeq = s.sec.logSeq + 1) ∧
  (∀ (s : State) (k : Fin 8) (d : Word), s.power.aon = true → s.tamperCond k d = true → s.resp k = 1 → Runs (.tamperDetect k d) s fun t =>
    t.sec.keys = s.sec.keys ∧ t.latched k = true ∧ t.sec.logSeq = s.sec.logSeq + 1) ∧
  (∀ (s : State) (mv : Nat), s.power.aon = true → Runs (.vbatCheck mv) s fun t => t.sec.vsec = s.sec.vsec + 1 ∧ t.reg Reg.secVsec = s.sec.vsec + 1 ∧
    (mv < 2200 → t.flag F.secStatus_VBAT_LOW = true) ∧ (2300 < mv → t.flag F.secStatus_VBAT_LOW = false)) ∧
  (∀ s : State, s.power.aon = false → Runs .vbatLoss s fun t => t.sec.keys = [] ∧ t.sec.log = [] ∧ t.sec.vsec = 0) ∧
  (∀ (s : State) (k : Fin 8) (v : Word), s.up = true → (F.secTamperLock_LOCK).of v = 1 → Runs (.tamperCfgWrite true k v) s fun t => t.fld F.secTamperLock_LOCK = 1) ∧
  (∀ (s : State) (k : Fin 8) (v : Word), s.up = true → s.flag F.secTamperLock_LOCK = false → Runs (.tamperCfgWrite false k v) s fun t => t.resp k = (F.secTamperCfg_RESP k).of v) ∧
  (∀ (s : State) (k : Fin 8) (v : Word), s.up = true → s.flag F.secTamperLock_LOCK = true → (F.secTamperCfg_RESP k).of v < s.resp k → Runs (.tamperCfgWrite false k v) s fun t =>
    t.resp k = s.resp k ∧ t.fld F.secStatus_CFG_ERR = 1) ∧
  (∀ (s : State) (c : Cmd), s.takes c 0x0E07 = true → c.ok 4 [(2, 2)] = true → c.fld 1 1 < 2 → Runs (.tamperClear c) s fun t =>
    Completed c 0x0E07 st.ok (fun u => (c.fld 1 1 = 1 → u.sec.log = []) ∧ ∀ k < 8, (u.latched k = true → s.latched k = true) ∧
      (s.latched k = true → bitAt (c.fld 0 1) k = false → u.latched k = true)) t) ∧
  (∀ (s : State) (c : Cmd), s.takes c 0x0E05 = true → c.ok 40 [(2, 6)] = true →
    ((c.fld 0 1 = 0 ∧ c.fld 1 1 < 64) ∨ (c.fld 0 1 = 1 ∧ c.fld 1 1 = 0) ∨ (c.fld 0 1 = 2 ∧ c.fld 1 1 < 16)) → s.eraseLatched = false → Runs (.keyWrite c) s fun t =>
    Completed c 0x0E05 st.ok (fun u => Tab.get u.sec.keys 0 (if c.fld 0 1 = 0 then c.fld 1 1 else if c.fld 0 1 = 1 then 64 else 65 + c.fld 1 1) = BitVec.ofNat 256 (c.fld 8 32)) t) ∧
  (∀ (s : State) (c : Cmd) (data : List (BitVec 8)) (k : BitVec 256), s.takes c 0x0E06 = true → c.ok 24 [(1, 3)] = true → c.fld 0 1 < 16 → 1 ≤ c.fld 4 4 → c.fld 4 4 ≤ 65536 →
    s.bufOk c.src (c.fld 8 8) (c.fld 4 4) = true → s.bufOk c.src (c.fld 16 8) 48 = true → c.src = .host → Tab.find (65 + c.fld 0 1) s.sec.keys = some k → Runs (.keyHmac c data) s fun t =>
      Completed c 0x0E06 st.ok (fun u => ∃ v : State, u = v.bufWrite .host (c.fld 16 8) 48 (Config.hmac384 k (data.take (c.fld 4 4))).toNat) t)

/-- Fuses and updates (spec/17 R521, R525 to R531): a customer key is programmed once; staging, and an installation that a restart needs, are long operations; a commit advances the boot; a discard empties the stage;
during DIP what burns a fuse is kept back. -/
def Obligations.Updates : Prop :=
  (∀ (s : State) (c : Cmd), s.takes c 0x0E08 = true → c.ok 56 [(2, 6)] = true → c.fld 0 1 = 4 → c.fld 1 1 = 0 → s.inDip = false → bitAt (s.fld F.updKeys_CUST_PROG) 0 = false →
    Runs (.fuseCust c) s fun t => Completed c 0x0E08 st.ok (fun u => bitAt (u.fld F.updKeys_CUST_PROG) 0 = true ∧ Tab.find 4 u.sec.custHash = some (BitVec.ofNat 384 (c.fld 8 48))) t) ∧
  (∀ (s : State) (c : Cmd), s.takes c 0x0E08 = true → c.ok 56 [(2, 6)] = true → c.fld 0 1 = 4 → c.fld 1 1 < 2 → s.inDip = true → Runs (.fuseCust c) s fun t =>
    t.host.parked = s.host.parked ++ [{ id := s.host.nextId, cmd := c, op := 0x0E08, issued := false }] ∧ t.sec.custHash = s.sec.custHash) ∧
  (∀ (s : State) (c : Cmd) (b : List (BitVec 8)), s.takes c 0x0E01 = true → c.ok 16 [(12, 4)] = true → 64 ≤ c.fld 8 4 → c.fld 8 4 ≤ 25165824 → s.fld F.updStatus_INSTALLED = 0 →
    (s.fetched c).longBarred = false → (s.fetched c).freeLong.isSome = true → Runs (.updStage c b) s fun t => StartsLong c 0x0E01 [] t ∧ ∃ h, t.sec.stage = s.sec.stage ++ [(h, b.take (c.fld 8 4))]) ∧
  (∀ (s : State) (c : Cmd) (i : Image), s.takes c 0x0E02 = true → c.ok 4 [(2, 2)] = true → 2 ≤ c.fld 0 1 → c.fld 0 1 ≤ 4 → c.fld 1 1 = 0 → s.flag F.updStatus_STAGE_VALID = true →
    imageOf s.sec.staged (c.fld 0 1) = some i → s.sec.running.contains i = false → (i.requires.all fun r => meets s.sec.running r) = true → (s.fetched c).longReady 0x0E02 = true →
    Runs (.updInstall c) s fun t => StartsLong c 0x0E02 [c.fld 0 1, i.version.toNat] t ∧ t.coreState (c.fld 0 1) = 4) ∧
  (∀ (s : State) (c : Cmd) (i : Image), s.takes c 0x0E02 = true → c.ok 4 [(2, 2)] = true → c.fld 0 1 < 10 → c.fld 1 1 = 1 → s.flag F.updStatus_STAGE_VALID = true →
    imageOf s.sec.staged (c.fld 0 1) = some i → s.sec.running.contains i = false → (i.requires.all fun r => meets s.sec.running r) = true → Runs (.updInstall c) s fun t =>
      Completed c 0x0E02 st.ok (fun u => bitAt (u.fld F.updStatus_INSTALLED) (c.fld 0 1) = true) t) ∧
  (∀ (s : State) (c : Cmd), s.takes c 0x0E03 = true → c.ok 4 [(1, 3)] = true → c.fld 0 1 = 1 → s.inDip = false → s.flag F.updStatus_STAGE_VALID = true → Runs (.updCommit c) s fun t =>
    Completed c 0x0E03 st.ok (fun u => u.sec.active = s.sec.staged ∧ u.sec.dirSeq = s.sec.dirSeq + 1 ∧ u.sec.staged = [] ∧ u.fld F.updStatus_STAGE_VALID = 0) t) ∧
  (∀ (s : State) (c : Cmd), s.takes c 0x0E04 = true → c.ok 0 = true → s.inDip = false → s.fld F.updStatus_INSTALLED = 0 → (s.host.longOps.any fun o => o.op == 0x0E01) = false → Runs (.updDiscard c) s fun t =>
    Completed c 0x0E04 st.ok (fun u => u.sec.staged = [] ∧ u.fld F.updStatus_STAGE_VALID = 0) t) ∧
  (∀ (s : State) (c : Cmd), s.takes c 0x0E04 = true → c.ok 0 = true → s.inDip = false → s.fld F.updStatus_INSTALLED ≠ 0 → Runs (.updDiscard c) s fun t =>
    Completed c 0x0E04 st.badState (fun u => u.sec.staged = s.sec.staged) t) ∧
  (∀ (s : State) (c : Cmd), s.takes c 0x0E04 = true → c.ok 0 = true → s.inDip = true → Runs (.updDiscard c) s fun t =>
    t.host.parked = s.host.parked ++ [{ id := s.host.nextId, cmd := c, op := 0x0E04, issued := false }] ∧ t.sec.staged = s.sec.staged) ∧
  (∀ s : State, s.sec.erasing = true → s.inDip = false → s.host.longOps = [] → Runs .profileEraseDone s fun t => t.sec.erasing = false ∧ t.fld F.updStatus_MIG_PENDING = 0)

/-- The timing pair and the board interlock (spec/14 R444, R449, R450, R453; spec/16 R491): a heartbeat of the present beat is seen, of a core that runs or sleeps; a swap waits for its boundary; a rejoin is a long
operation that starts the resynchronisation; the device takes the board interlock once INTLK_IN has been low for BOARD_WAIT boundaries, and yields to a peer that asserts unless it is primary. -/
def Obligations.TimingPair : Prop :=
  (∀ (s : State) (c : Fin 2) (n : Nat), s.up = true → s.fld (F.coreStatus_STATE c) ∈ [1, 2] → Runs (.heartbeat c true n) s fun t => t.redund.seen = s.redund.seen ||| BitVec.ofNat 4 (2 ^ (2 * c.val + 1))) ∧
  (∀ (s : State) (c : Fin 2), s.up = true → s.fld (F.coreStatus_STATE c) ∈ [1, 2] → Runs (.heartbeat c false s.beat) s fun t => t.redund.seen = s.redund.seen ||| BitVec.ofNat 4 (2 ^ (2 * c.val))) ∧
  (∀ (s : State) (c : Fin 2) (n : Nat), s.up = true → n ≠ s.beat → Runs (.heartbeat c false n) s fun t => t = s) ∧
  (∀ (s : State) (c : Fin 2) (wire : Bool) (n : Nat), s.fld (F.coreStatus_STATE c) ∉ [1, 2] → Runs (.heartbeat c wire n) s fun t => t = s) ∧
  (∀ (s : State) (c : Cmd), s.takes c 0x0B02 = true → c.ok 10 = true → s.nameOk (c.fld 6 4) (boundaryName (c.fld 0 6) (c.fld 6 4)) = true → s.pairState (1 - s.holder) = 3 →
    s.flag F.redundStatus_UNATTENDED = false → s.redund.swap = none → Runs (.pairSwap c) s fun t => t.redund.swap = some (s.host.nextId, boundaryName (c.fld 0 6) (c.fld 6 4))) ∧
  (∀ (s : State) (c : Cmd), s.takes c 0x0B01 = true → c.ok 8 [(2, 2)] = true → c.fld 0 1 < 2 → c.fld 1 1 = 0 → c.fld 0 1 ≠ s.holder → (s.fetched c).longReady 0x0B01 = true →
    Runs (.pairRejoin c) s fun t => StartsLong c 0x0B01 [c.fld 0 1, 0, c.fld 4 4] t ∧ t.pairState (c.fld 0 1) = 2) ∧
  (∀ s : State, s.up = true → s.boardOk = true → max 1 (s.fld F.redundCfg_BOARD_WAIT) ≤ s.redund.low → s.flag F.redundStatus_BOARD_HOLD = false → Runs .boardIntlkTake s fun t =>
    t.flag F.redundStatus_BOARD_HOLD = true ∧ t.flag F.redundStatus_PEER = false) ∧
  (∀ s : State, s.redund.low < max 1 (s.fld F.redundCfg_BOARD_WAIT) → Runs .boardIntlkTake s fun t => t = s) ∧
  (∀ (s : State) (level : Bool), s.redund.taking = true → Runs (.boardIntlkSample level) s fun t => t.flag F.redundStatus_PEER = level ∧ t.redund.taking = false ∧
    t.flag F.redundStatus_BOARD_HOLD = if level && !s.flag F.redundCfg_BOARD_PRIMARY then false else s.flag F.redundStatus_BOARD_HOLD)

/-- Long operations (spec/15 R475, R476): control suspends at a safe point, resumes and cancels; a query tells state, progress and total; an operation's end gives its final completion, and its
handle stays valid until that is written; one of whose reads gave up fails (R482). -/
def Obligations.LongOperations : Prop :=
  (∀ (s : State) (c : Cmd) (o : LongOp), s.takes c 0x0C01 = true → c.ok 5 = true → c.fld 4 1 = 0 → s.longAt (BitVec.ofNat 32 (c.fld 0 4)) = some o → c.user = none → o.state ≠ .suspended →
    o.suspendable = true → o.suspend = none → Runs (.longCtrl c) s fun t => ∃ o' ∈ t.host.longOps, o' = { o with suspend := some s.host.nextId }) ∧
  (∀ (s : State) (c : Cmd) (o : LongOp), s.takes c 0x0C01 = true → c.ok 5 = true → c.fld 4 1 = 2 → s.longAt (BitVec.ofNat 32 (c.fld 0 4)) = some o → c.user = none → o.op = 0x0902 →
    s.host.longOps = [o] → Runs (.longCtrl c) s fun t => Completed c 0x0C01 st.ok (fun u => u.host.longOps = []) t) ∧
  (∀ (s : State) (c : Cmd), s.takes c 0x0C01 = true → c.ok 5 = true → c.fld 4 1 < 3 → s.longAt (BitVec.ofNat 32 (c.fld 0 4)) = none → Runs (.longCtrl c) s fun t =>
    Completed c 0x0C01 st.badArg (fun _ => True) t) ∧
  (∀ (s : State) (c : Cmd) (o : LongOp), s.takes c 0x0C02 = true → c.ok 4 = true → s.longHandle (BitVec.ofNat 32 (c.fld 0 4)) = some o → c.user = none → Runs (.longQuery c) s fun t =>
    t = (s.fetched c).complete c 0x0C02 st.ok (packLE 256 [(0, 1, longCode o.state), (2, 2, o.op), (4, 4, o.progress), (8, 4, o.total), (12, 4, ticksMs (s.time.tick - o.tick))])) ∧
  (∀ (s : State) (c : Cmd), s.takes c 0x0C02 = true → c.ok 4 = true → s.longHandle (BitVec.ofNat 32 (c.fld 0 4)) = none → Runs (.longQuery c) s fun t => t = (s.fetched c).complete c 0x0C02 st.badArg) ∧
  (∀ (s : State) (h : BitVec 32) (o : LongOp) (i : Nat), s.longAt h = some o → s.host.longOps = [o] → o.suspend = some i → Runs (.longOpSafePoint h) s fun t =>
    ∃ o', t.host.longOps = [o'] ∧ o'.handle = o.handle ∧ o'.state = .suspended ∧ o'.suspend = none) ∧
  (∀ (s : State) (h : BitVec 32) (o : LongOp), s.longAt h = some o → s.host.longOps = [o] → o.suspend = none → o.state = .running → o.op = 0x0205 ∨ o.op = 0x0502 → Runs (.longOpSafePoint h) s fun t =>
    t.host.longOps = [{ o with progress := min o.total (o.progress + 1) }]) ∧
  (∀ (s : State) (h : BitVec 32) (o : LongOp) (r : LongResult), s.longAt h = some o → o.state = .running → o.op = 0x0502 → o.suspend = none → s.host.longOps = [o] →
    Runs (.longOpFinal h r) s fun t => Completed o.cmd 0x0502 (if r.fault || o.lower == 4 then st.hwFault else st.ok) (fun u => u.host.longOps = [] ∧
      u.host.ended = s.host.ended ++ [{ o with state := if r.fault || o.lower == 4 then .failed else .done }]) t)

/-- Registers (spec/15 R460; spec/18 R545 to R548; spec/05 R166): an access that is not of an aligned 32-bit word is counted and changes no register; a read of a counter clears it and leaves its high word in the
second address; bits that clear on read, and by writing 1, clear; a plain register takes what its read-write bits take, unless a writer that comes later in
the tick's order has written it on this tick. -/
def Obligations.Registers : Prop :=
  (∀ (s : State) (w : Bool) (a : Nat), s.up = true → Runs (.badAccess w a) s fun t => t.fld (F.hostifCnt_COUNT 7) = min (2 ^ 32 - 1) (s.fld (F.hostifCnt_COUNT 7) + 1) ∧
    (w = false → t.rdata = 0xFFFFFFFF#32) ∧ ∀ b, b ≠ Reg.hostifCnt 7 → t.reg b = s.reg b) ∧
  (∀ (s : State) (n : Fin 128) (k : Nat), s.up = true → k < 48 → k ≠ 36 → Runs (.counterRead (Reg.portCntLo n k)) s fun t =>
    t.rdata = BitVec.ofNat 32 (s.portCnt n k) ∧ t.portCnt n k = 0 ∧ t.reg (Reg.portCntLo n k + 4) = BitVec.ofNat 32 (s.portCnt n k / 2 ^ 32)) ∧
  (∀ (s : State) (k : Fin 256), s.up = true → Runs (.rcRead (Reg.slotLate k)) s fun t => t.rdata = s.reg (Reg.slotLate k) ∧ ∀ b, b ≠ Reg.slotLate k → t.reg b = s.reg b) ∧
  (∀ (s : State) (a : Nat) (h : RegHit), s.up = true → a % 4 = 0 → RegMap.find a = some h → counterRows.contains h.row.base = false → h.row.base ≠ Reg.perfCntLo 0 0 → h.row.base ≠ Reg.secLog 0 →
    linkRows.contains h.row.base = false → h.row.base ≠ Reg.eqHwm 0 → Runs (.rcRead a) s fun t => t.rdata = s.reg a ∧ t.reg a = s.reg a &&& ~~~(BitVec.ofNat 32 h.row.rc)) ∧
  (∀ (s : State) (i : Fin 2048), s.up = true → Runs (.rcRead (Reg.eqHwm i)) s fun t => t.rdata = s.reg (Reg.eqHwm i) ∧ t.fld (F.eqHwm_HWM i) = s.fld (F.eqDepth_TOTAL i)) ∧
  (∀ (s : State) (src : WrSrc) (a : Nat) (v : Word) (h : RegHit), s.up = true → a % 4 = 0 → RegMap.find a = some h → writeOp h.row.base = none → (∀ c, src = .core c → c.val < 2 → gatedReg a = false) →
    Runs (.w1cWrite src a v) s fun t =>
    t.reg a = (if s.beaten src a then s.reg a else (s.reg a &&& ~~~(rwMask a)) ||| (v &&& rwMask a)) &&& ~~~(v &&& BitVec.ofNat 32 h.row.w1c)) ∧
  (∀ (s : State) (src : WrSrc) (a : Nat) (v : Word) (h : RegHit), s.up = true → a % 4 = 0 → RegMap.find a = some h → writeOp h.row.base = none → (∀ c, src = .core c → c.val < 2 → gatedReg a = false) →
    Runs (.registerWrite src a v) s fun t =>
    t.reg a = (if s.beaten src a then s.reg a else (s.reg a &&& ~~~(rwMask a)) ||| (v &&& rwMask a)) &&& ~~~(v &&& BitVec.ofNat 32 h.row.w1c) ∧ (∀ b, b ≠ a → t.reg b = s.reg b) ∧
    ∀ w, busPlace w < busPlace src → t.beaten w a = true)

/-- A step runs the command at the front of the queue, on the state with the queue's rest. -/
def Obligations.StepRunsFront : Prop :=
  ∀ (c : Instr) (s : State) (l : List Instr), step { s with pending := c :: l } = exec c { s with pending := l }

/-- With an empty queue one tick passes while the tick PLL is locked and the beat has ticks left, and each counter advances by its increment; else nothing changes (spec/00 R13, spec/09 R287 for
the counters; that an idle step is a tick is the model's choice, log entry 1). -/
def Obligations.IdleTick : Prop :=
  ∀ s : State, s.pending = [] → ∃ t, step s = .next t ∧
    ((s.power.aon && s.power.pllLocked && decide (s.time.beatTicks + 1 < s.time.beatLen)) = false → t = s) ∧
    ((s.power.aon && s.power.pllLocked && decide (s.time.beatTicks + 1 < s.time.beatLen)) = true → t.time.tick = s.time.tick + 1 ∧ t.time.beatTicks = s.time.beatTicks + 1 ∧
      ∀ k < s.time.cnt.length, (t.cnt k).val = ((s.cnt k).val + (s.cnt k).incr.toNat) % counterRange ∧ (t.cnt k).incr = (s.cnt k).incr)

/-- The state after reset: nothing is queued, every register holds its reset value, no key and no byte of a bank is set, the main domain is in reset; its tables are canonical (spec/18 R545; the values of
registers and state without a stated reset value, and of bank bytes, are the model's, log entries 6 and 7). -/
def Obligations.ResetState : Prop :=
  State.reset.pending = [] ∧ (∀ a, State.reset.reg a = RegMap.reset a) ∧ regsCanon State.reset = true ∧ Memory.wf State.reset.cores.mem = true ∧
    State.reset.sec.keys = [] ∧ State.reset.power.mainReset = true ∧ State.reset.power.joined = false ∧ State.reset.power.pllLocked = false ∧
    State.reset.fabric.frames = [] ∧ State.reset.host.longOps = [] ∧ (∀ k < 32, (State.reset.cnt k).val = 0)

/-- Every step keeps the canonical form of the register table and of the banks' bytes. -/
def Obligations.EveryStepKeepsCanonicalForm : Prop :=
  ∀ s t : State, regsCanon s = true → Memory.wf s.cores.mem = true → step s = .next t → regsCanon t = true ∧ Memory.wf t.cores.mem = true

/-- A step takes a well-formed command from the queue, always answers a next state, and queues nothing: a queue of well-formed commands is worked off to its end. -/
def Obligations.QueueIsWorkedOff : Prop :=
  ∀ (s : State) (c : Instr) (l : List Instr), s.pending = c :: l → c.wf = true → ∃ t, step s = .next t ∧ t.pending = l

/-- No command is refused; one whose operands are ill-formed faults, and only such a one (the model's choice, log entry 49). -/
def Obligations.StopsOnlyOnIllFormedOperands : Prop :=
  ∀ (c : Instr) (s : State), (c.wf = false → exec c s = .fault .illFormed) ∧ (∀ r, exec c s ≠ .refused r) ∧ (∀ f, exec c s = .fault f → c.wf = false)

/-- Keys leave or enter the vault only by KEY_WRITE, a tamper response and the loss of VBAT. Device time goes on only at beat boundaries and at the ticks that pass for the servo's and the calibration's times in the beat, for a doorbell's
and a vector's time, and for the issue of the cores' instructions; else the counters change only by a reset of the island or of the main domain, or by the lock of the tick PLL (spec/17 R533 to R536; spec/01 R27 to R32, spec/09 R287, R288). -/
def Obligations.WhoChangesKeysAndCounters : Prop :=
  ∀ (c : Instr) (s t : State), exec c s = .next t →
    (t.sec.keys ≠ s.sec.keys → (∃ k d, c = .tamperDetect k d) ∨ c = .vbatLoss ∨ ∃ k, c = .keyWrite k) ∧
    (t.time.cnt ≠ s.time.cnt →
      c ∈ [Instr.beatBoundary, .servoCompute, .servoDeadline, .calSlotStart, .tickPllLock, .islandReset, .vaultOnlyEntry, .mainPor, .pinReset, .wdtReset, .thermtrip, .standbyWake, .quietDrainEnd] ∨
        (∃ r, c = .supplyReset r) ∨ c = .doorbellDeadline ∨ (∃ v, c = .msixSignal v) ∨ (∃ k e, c = .rv32imcInstruction k e) ∨ (∃ k e v, c = .trap k e v) ∨ (∃ k, c = .interruptTaken k) ∨
        (∃ k, c = .coreWake k) ∨ (∃ k d a, c = .ksTsnap k d a ∨ c = .ksTget k d a ∨ c = .ksPcnt k d a) ∨ (∃ k d, c = .ksWfb k d ∨ c = .ksWfe k d) ∨ (∃ k d a b x, c = .ksCrc k d a b x) ∨ ∃ k, c = .ksTret k)

/-- How every command starts (spec/15 R469, R470, R475, R482; spec/16 R499): CORE4 comes to none whose source has not its turn, and to none while 256 are in progress; one it comes to that has FENCE waits for
the commands before it, the other sources going on; one with a bad argument completes with BAD_ARG; a user core that may not name the group gets BAD_STATE; at stage 15 only the recovery's
commands run; a long operation is accepted with a handle, RUNNING where its resource is free and else QUEUED, and without a free place it completes with NO_RESOURCE. Of the commands of the table,
each whose arguments have not the form of its rule (`argsOk`) completes with BAD_ARG, and each that its rule turns away in the present state (`turnedAway`) with that status, and neither has another
effect. A command that CORE4 does not come to, or a row that finds nothing to act on (`idle`; that a row whose time has not come does nothing is the model's choice, log entry 2), leaves the state
as it was. -/
def Obligations.CommandAcceptance : Prop :=
  (∀ (s : State) (c : Cmd) (op : Nat) (body : State → State), s.takes c op = true → s.start c op false body = (s.fetched c).complete c op st.badArg) ∧
  (∀ (s : State) (c : Cmd) (op k i : Nat) (ok : Bool) (body : State → State), s.mayStart c op = true → c.user = some (k, i) → op ≠ 0x0C03 →
    bitAt ((s.fetched c).fld (F.coreMb_ALLOW (k - 6))) (op / 256) = false → s.start c op ok body = (s.fetched c).complete c op st.badState) ∧
  (∀ (s : State) (c : Cmd) (op : Nat) (ok : Bool) (body : State → State), s.mayStart c op = true → c.user = none →
    s.fld F.globalBoot_STAGE = 15 → op ∉ [0x0C03, 0x0E01, 0x0103, 0x0E03] → s.start c op ok body = (s.fetched c).complete c op st.badState) ∧
  (∀ (s : State) (c : Cmd) (op : Nat) (ok : Bool) (body : State → State), (s.serving = false ∨ s.turn ≠ c.source ∨ 256 ≤ s.host.parked.length + s.host.waitCpl.length) →
    s.start c op ok body = s) ∧
  (∀ (s : State) (c : Cmd) (op : Nat) (ok : Bool) (body : State → State), s.takesCmd c op = true → op / 256 = 0x0E → s.replaced 5 = true →
    (s.start c op ok body).host.turn = (c.source + 1) % 3 ∧ (s.start c op ok body).host.parked = s.host.parked ∧ (s.start c op ok body).host.waitCpl = s.host.waitCpl) ∧
  (∀ (s : State) (c : Cmd) (op : Nat) (ok : Bool) (body : State → State), s.takesCmd c op = true → bitAt c.flags.toNat 0 = true → Tab.find c.source s.host.fenceAt = none →
    (∃ p ∈ s.host.parked, p.id < s.host.nextId) → (s.start c op ok body).host.turn = (c.source + 1) % 3 ∧ Tab.find c.source (s.start c op ok body).host.fenceAt = some s.host.nextId ∧
      (s.start c op ok body).host.parked = s.host.parked ∧ (s.start c op ok body).regs = s.regs) ∧
  (∀ (s : State) (c : Cmd) (op res total : Nat) (args : List Nat), s.longBarred = false → s.freeLong.isSome = true → ∃ o, (s.startLong c op res total args).host.longOps = s.host.longOps ++ [o] ∧
    o.cmd = c ∧ o.op = op ∧ o.res = res ∧ o.total = total ∧ o.args = args ∧
    o.state = if (s.host.longOps.any fun x => x.res == res && x.state != .suspended) then .queued else .running) ∧
  (∀ (s : State) (c : Cmd) (op res total : Nat) (args : List Nat), s.longBarred = false → s.freeLong = none → s.startLong c op res total args = s.complete c op st.noResource) ∧
  (∀ (i : Instr) (s : State) (c : Cmd) (op : Nat), i.cmd = some (c, op) → s.takes c op = true → i.argsOk s = false →
    Runs i s fun t => t = (s.fetched c).complete c op st.badArg) ∧
  (∀ (i : Instr) (s : State) (c : Cmd) (op e : Nat), i.cmd = some (c, op) → s.takes c op = true → i.argsOk s = true → i.turnedAway (s.fetched c) = some e →
    Runs i s fun t => t = (s.fetched c).complete c op e) ∧
  (∀ (i : Instr) (s : State), i.idle s = true → Runs i s fun t => t = s)

/-- Events (spec/15 R478): with room in the event ring an event is written into its next entry with the next SEQ; without room for two entries it is lost, and remembered with the first SEQ lost. -/
def Obligations.EventRecords : Prop :=
  (∀ (s : State) (code len : Nat) (fields : List (Nat × Nat × Nat)), s.host.lost = none → 2 ≤ s.ringFree 66 → s.flag F.hostifEmerg_DMA_OFF = false →
    (s.raise code len fields).host.evSeq = s.host.evSeq + 1 ∧ (s.raise code len fields).devIdx 66 = (s.devIdx 66 + 1) % 2 ^ 32 ∧
    .mem (s.slotAddr 66 (s.devIdx 66)) 64 (eventRec code len s.host.evSeq s.now (packLE 256 fields)).toNat ∈ (s.raise code len fields).host.posts) ∧
  (∀ (s : State) (code len : Nat) (fields : List (Nat × Nat × Nat)), s.host.lost = none → s.ringFree 66 = 0 →
    (s.raise code len fields).host.posts = s.host.posts ∧ ∃ l, (s.raise code len fields).host.lost = some l ∧ l.count = 1 ∧ l.first = BitVec.ofNat 16 code)

/-- Stores into a bank through the buffer of a command or of a long operation (spec/16 R499, R501, R513; spec/07 R232): no byte of a bank changes but those of the buffer, whose address the command gives; a bank
that reaches its power state changes no other bank. -/
def Obligations.BankStores : Prop :=
  (∀ (s : State) (a n v : Nat), Untouched a n s (s.memWrite a n v)) ∧
  (∀ (s t : State) (c : Cmd) (data : List (BitVec 8)) (ecc : List EccErr), exec (.memCopy c data ecc) s = .next t → Untouched (if c.fld 4 1 = 0 then c.fld 0 4 else c.fld 16 8) (c.fld 8 4) s t) ∧
  (∀ (s t : State) (c : Cmd) (data : List (BitVec 8)), exec (.keyHmac c data) s = .next t → Untouched (c.fld 16 8) 48 s t) ∧
  (∀ (s t : State) (c : Cmd), exec (.sessionRead c) s = .next t → Untouched (c.fld 8 8) (64 * c.fld 2 2) s t) ∧
  (∀ (s t : State) (c : Cmd) (l : List BulkRec), exec (.tableBulk c l) s = .next t → Untouched (c.fld 8 8) (32 * c.fld 4 4) s t) ∧
  (∀ (s t : State) (h : BitVec 32) (o : LongOp), s.longAt h = some o → exec (.longOpSafePoint h) s = .next t → Untouched (o.cmd.fld 8 8 + 32 * o.progress) 32 s t) ∧
  (∀ (s t : State) (h : BitVec 32) (r : LongResult) (o : LongOp), s.longAt h = some o → o.op = 0x0205 → exec (.longOpFinal h r) s = .next t →
    Untouched (o.args.getD 1 0) (4 * o.total) s t) ∧
  (∀ (s t : State) (h : BitVec 32) (r : LongResult) (o : LongOp), s.longAt h = some o → o.op = 0x0405 → exec (.longOpFinal h r) s = .next t →
    Untouched (o.cmd.fld 8 8) (32 * o.cmd.fld 4 4) s t) ∧
  (∀ (s t : State) (i : Nat) (w : ReadFor), exec (.pcieCto i w) s = .next t → t.cores.mem = s.cores.mem) ∧
  (∀ (s t : State) (b : Fin 16) (ack stuck : Bool) (data : List (BitVec 8)) (x : I2cXfer) (rest : List I2cXfer), (s.bus b).xfers = x :: rest →
    exec (.i2cTransferEnd b ack data stuck) s = .next t → Untouched x.addr x.len s t) ∧
  (∀ (s t : State) (x : SnapXfer), s.ports.xfer = some x → exec .snapshotXferDone s = .next t → Untouched x.addr x.len s t) ∧
  (∀ (s t : State) (f : Fin 16) (o : LongOp), (s.fm f).owner.bind s.longAt = some o → exec (.fmGateEnd f) s = .next t → Untouched (o.args.getD 5 0) 128 s t) ∧
  (∀ (s t : State) (b : Fin 32), exec (.bankPowerReached b) s = .next t → ∀ p : Nat × Nat, p.2 < 131072 → p.1 ≠ b.val → t.bankByte p = s.bankByte p)

/-- Lanes, ports and modules (spec/04, spec/05): each command, where it answers a next state, leaves every part of the state but those named for it, and every register but those of the rows named for it, as they were;
where the banks' bytes (part `mem`) are not named, no byte of a bank changes. -/
def Obligations.LaneAndPortFrames : Prop :=
  (∀ x0 x1 x2, Framed (reportRegs ++ [Reg.laneStatus 0, Reg.laneErrCnt 0 0, Reg.laneCalStatus 0, Reg.laneGrp 0, Reg.portPauseStatus 0, Reg.fabricStatus, Reg.fabricPort 0, Reg.eqDepth 0, Reg.eqOndie 0, Reg.eqHwm 0, Reg.iaDepth 0, Reg.deepFree, Reg.iuEdges 0, Reg.iucalState 0]) [.regs, .ctr, .host, .cores, .lanes, .ports, .fabric, .servo, .cal, .line] (.klMarkerRx x0 x1 x2)) ∧
  (∀ x0, Framed (reportRegs ++ [Reg.laneStatus 0, Reg.laneErrCnt 0 0, Reg.laneCalStatus 0, Reg.laneGrp 0, Reg.portPauseStatus 0, Reg.fabricStatus, Reg.fabricPort 0, Reg.eqDepth 0, Reg.eqOndie 0, Reg.eqHwm 0, Reg.iaDepth 0, Reg.deepFree, Reg.iuEdges 0, Reg.iucalState 0]) [.regs, .ctr, .host, .cores, .lanes, .ports, .fabric, .cal, .line] (.signalDetect x0)) ∧
  (∀ x0 x1, Framed (reportRegs ++ [Reg.laneStatus 0, Reg.laneErrCnt 0 0, Reg.laneCalStatus 0, Reg.laneGrp 0, Reg.portPauseStatus 0, Reg.fabricStatus, Reg.fabricPort 0, Reg.eqDepth 0, Reg.eqOndie 0, Reg.eqHwm 0, Reg.iaDepth 0, Reg.deepFree, Reg.iuEdges 0, Reg.iucalState 0]) [.regs, .ctr, .host, .cores, .lanes, .ports, .fabric, .cal, .line] (.signalLoss x0 x1)) ∧
  (∀ x0, Framed (reportRegs ++ [Reg.laneStatus 0, Reg.laneCalStatus 0, Reg.laneGrp 0, Reg.portPauseStatus 0, Reg.fabricStatus, Reg.fabricPort 0, Reg.eqDepth 0, Reg.eqOndie 0, Reg.eqHwm 0, Reg.iaDepth 0, Reg.deepFree, Reg.iuEdges 0, Reg.iucalState 0]) [.regs, .ctr, .host, .cores, .lanes, .ports, .fabric, .cal, .line] (.anDone x0)) ∧
  (∀ x0 x1 x2, Framed (reportRegs ++ [Reg.laneStatus 0, Reg.laneFom 0, Reg.laneCalStatus 0, Reg.laneGrp 0, Reg.portPauseStatus 0, Reg.fabricStatus, Reg.fabricPort 0, Reg.eqDepth 0, Reg.eqOndie 0, Reg.eqHwm 0, Reg.iaDepth 0, Reg.deepFree, Reg.iuEdges 0, Reg.iucalState 0]) [.regs, .ctr, .host, .cores, .lanes, .ports, .fabric, .cal, .line] (.trainDone x0 x1 x2)) ∧
  (∀ x0, Framed (reportRegs ++ [Reg.laneStatus 0, Reg.laneCalStatus 0, Reg.laneGrp 0, Reg.portPauseStatus 0, Reg.fabricStatus, Reg.fabricPort 0, Reg.eqDepth 0, Reg.eqOndie 0, Reg.eqHwm 0, Reg.iaDepth 0, Reg.deepFree, Reg.iuEdges 0, Reg.iucalState 0]) [.regs, .ctr, .host, .cores, .lanes, .ports, .fabric, .cal, .line] (.alignDone x0)) ∧
  (∀ x0, Framed (reportRegs ++ [Reg.laneStatus 0, Reg.laneCalStatus 0, Reg.laneGrp 0, Reg.portPauseStatus 0, Reg.fabricStatus, Reg.fabricPort 0, Reg.eqDepth 0, Reg.eqOndie 0, Reg.eqHwm 0, Reg.iaDepth 0, Reg.deepFree, Reg.iuEdges 0, Reg.iucalState 0]) [.regs, .ctr, .host, .cores, .lanes, .ports, .fabric, .cal, .line] (.attemptTimeout x0)) ∧
  (∀ x0, Framed (reportRegs ++ [Reg.laneStatus 0, Reg.laneCalStatus 0, Reg.laneGrp 0, Reg.portPauseStatus 0, Reg.fabricStatus, Reg.fabricPort 0, Reg.eqDepth 0, Reg.eqOndie 0, Reg.eqHwm 0, Reg.iaDepth 0, Reg.deepFree, Reg.iuEdges 0, Reg.iucalState 0]) [.regs, .ctr, .host, .cores, .lanes, .ports, .fabric, .cal, .line] (.backoffDone x0)) ∧
  (∀ x0 x1, Framed (reportRegs ++ [Reg.laneStatus 0, Reg.laneErrCnt 0 0, Reg.laneCalStatus 0, Reg.laneGrp 0, Reg.portPauseStatus 0, Reg.fabricStatus, Reg.fabricPort 0, Reg.eqDepth 0, Reg.eqOndie 0, Reg.eqHwm 0, Reg.iaDepth 0, Reg.deepFree, Reg.iuEdges 0, Reg.iucalState 0]) [.regs, .ctr, .host, .cores, .lanes, .ports, .fabric, .cal, .line] (.lockLost x0 x1)) ∧
  (∀ x0 x1 x2, Framed (reportRegs ++ [Reg.laneStatus 0, Reg.laneErrCnt 0 0, Reg.laneCalStatus 0, Reg.laneGrp 0, Reg.portPauseStatus 0, Reg.fabricStatus, Reg.fabricPort 0, Reg.eqDepth 0, Reg.eqOndie 0, Reg.eqHwm 0, Reg.iaDepth 0, Reg.deepFree, Reg.iuEdges 0, Reg.iucalState 0]) [.regs, .ctr, .host, .cores, .lanes, .ports, .fabric, .cal, .line] (.relockTryEnd x0 x1 x2)) ∧
  (∀ x0, Framed (reportRegs ++ [Reg.laneStatus 0, Reg.laneCalStatus 0, Reg.laneGrp 0, Reg.portPauseStatus 0, Reg.fabricStatus, Reg.fabricPort 0, Reg.eqDepth 0, Reg.eqOndie 0, Reg.eqHwm 0, Reg.iaDepth 0, Reg.deepFree, Reg.iuEdges 0, Reg.iucalState 0]) [.regs, .ctr, .host, .cores, .lanes, .ports, .fabric, .cal, .line] (.l2ExitDone x0)) ∧
  (∀ x0 x1, Framed (reportRegs ++ [Reg.laneFom 0, Reg.laneCalStatus 0, Reg.iucalState 0]) [.regs, .host, .cores, .lanes, .cal] (.adaptBurst x0 x1)) ∧
  (∀ x0 x1, Framed (reportRegs ++ [Reg.updStatus, Reg.updCompRun 0, Reg.laneStatus 0, Reg.laneCalStatus 0, Reg.laneGrp 0, Reg.portPauseStatus 0, Reg.fabricStatus, Reg.fabricPort 0, Reg.eqDepth 0, Reg.eqOndie 0, Reg.eqHwm 0, Reg.iaDepth 0, Reg.deepFree, Reg.iuEdges 0, Reg.iucalState 0]) [.regs, .ctr, .host, .cores, .lanes, .ports, .fabric, .cal, .sec, .line] (.ucodeLoadDone x0 x1)) ∧
  (∀ x0 x1, Framed [Reg.portPauseStatus 0, Reg.iuEdges 0] [.regs, .ctr, .ports, .cal] (.pauseRx x0 x1)) ∧
  (∀ x0 x1, Framed [Reg.portPauseStatus 0] [.regs, .ctr, .ports] (.pauseExpire x0 x1)) ∧
  (∀ x0 x1, Framed (reportRegs ++ [Reg.portPauseStatus 0]) [.regs, .ctr, .host, .cores, .ports] (.pauseStorm x0 x1)) ∧
  (∀ x0, Framed [Reg.iuEdges 0] [.regs, .ctr, .lanes, .ports, .cal, .line] (.xoffRefresh x0)) ∧
  (Framed reportRegs [.regs, .host, .cores, .mem, .ports] .snapshotXferDone) ∧
  (∀ x0, Framed (reportRegs ++ [Reg.laneStatus 0, Reg.laneCalStatus 0, Reg.laneGrp 0, Reg.portPauseStatus 0, Reg.fabricStatus, Reg.fabricPort 0, Reg.eqDepth 0, Reg.eqOndie 0, Reg.eqHwm 0, Reg.iaDepth 0, Reg.deepFree, Reg.iuEdges 0, Reg.iucalState 0]) [.regs, .ctr, .host, .cores, .lanes, .ports, .fabric, .cal, .line] (.laneRetrain x0)) ∧
  (∀ x0, Framed (reportRegs ++ [Reg.laneStatus 0, Reg.laneCalStatus 0, Reg.laneGrp 0, Reg.portPauseStatus 0, Reg.fabricStatus, Reg.fabricPort 0, Reg.eqDepth 0, Reg.eqOndie 0, Reg.eqHwm 0, Reg.iaDepth 0, Reg.deepFree, Reg.tbLcompRx 0, Reg.tbLcompTx 0, Reg.iuEdges 0, Reg.iucalState 0]) [.regs, .ctr, .host, .cores, .lanes, .ports, .fabric, .cal, .line] (.laneQuarantine x0)) ∧
  (∀ x0, Framed (reportRegs ++ [Reg.laneStatus 0, Reg.laneCalStatus 0, Reg.laneGrp 0, Reg.portPauseStatus 0, Reg.fabricStatus, Reg.fabricPort 0, Reg.eqDepth 0, Reg.eqOndie 0, Reg.eqHwm 0, Reg.iaDepth 0, Reg.deepFree, Reg.iuEdges 0, Reg.iucalState 0]) [.regs, .ctr, .host, .cores, .lanes, .ports, .fabric, .cal, .line] (.lanePower x0)) ∧
  (∀ x0, Framed (reportRegs ++ [Reg.laneStatus 0, Reg.laneCalStatus 0, Reg.laneGrp 0, Reg.portPauseStatus 0, Reg.fabricStatus, Reg.fabricPort 0, Reg.eqDepth 0, Reg.eqOndie 0, Reg.eqHwm 0, Reg.iaDepth 0, Reg.deepFree, Reg.iuEdges 0, Reg.iucalState 0]) [.regs, .ctr, .host, .cores, .lanes, .ports, .fabric, .cal, .line] (.laneUcodeLoad x0)) ∧
  (∀ x0, Framed (reportRegs ++ [Reg.laneCalStatus 0, Reg.iucalState 0]) [.regs, .host, .cores, .cal] (.laneEyeScan x0)) ∧
  (∀ x0, Framed reportRegs [.regs, .host, .cores, .ports] (.statsSnapshot x0)) ∧
  (∀ x0, Framed reportRegs [.regs, .host, .cores, .ports] (.modRead x0)) ∧
  (∀ x0, Framed reportRegs [.regs, .host, .cores, .ports] (.modWrite x0)) ∧
  (∀ x0, Framed (reportRegs ++ [Reg.portMod 0]) [.regs, .host, .cores] (.modSideband x0)) ∧
  (∀ x0, Framed [] [.ports] (.i2cRetry x0)) ∧
  (∀ x0, Framed (reportRegs ++ [Reg.portMod 0]) [.regs, .host, .cores, .ports] (.sgpioScan x0)) ∧
  (∀ x0 x1, Framed (reportRegs ++ [Reg.portMod 0]) [.regs, .host, .cores, .ports] (.modPresent x0 x1)) ∧
  (∀ x0 x1 x2, Framed [Reg.portSaHi 0] [.regs, .ports] (.saCommit x0 x1 x2)) ∧
  (∀ x0 x1 x2, Framed (reportRegs ++ [Reg.laneStatus 0, Reg.laneCalStatus 0, Reg.laneGrp 0, Reg.portPauseStatus 0, Reg.fabricStatus, Reg.fabricPort 0, Reg.eqDepth 0, Reg.eqOndie 0, Reg.eqHwm 0, Reg.iaDepth 0, Reg.deepFree, Reg.tbLcompRx 0, Reg.tbLcompTx 0, Reg.iuEdges 0, Reg.iucalState 0]) [.regs, .ctr, .host, .cores, .lanes, .ports, .fabric, .cal, .line] (.laneGrpWrite x0 x1 x2)) ∧
  (∀ x0 x1 x2 x3, Framed (reportRegs ++ [Reg.laneCfg 0, Reg.laneTrain 0, Reg.laneRelock 0, Reg.laneStatus 0, Reg.laneCalStatus 0, Reg.laneGrp 0, Reg.portPauseStatus 0, Reg.fabricStatus, Reg.fabricPort 0, Reg.eqDepth 0, Reg.eqOndie 0, Reg.eqHwm 0, Reg.iaDepth 0, Reg.deepFree, Reg.tbLcompRx 0, Reg.tbLcompTx 0, Reg.iuEdges 0, Reg.iucalState 0]) [.regs, .ctr, .host, .cores, .lanes, .ports, .fabric, .cal, .line] (.laneCfgWrite x0 x1 x2 x3)) ∧
  (∀ x0 x1 x2, Framed (reportRegs ++ [Reg.laneStatus 0, Reg.laneLoop 0, Reg.laneCalStatus 0, Reg.laneGrp 0, Reg.portPauseStatus 0, Reg.fabricStatus, Reg.fabricPort 0, Reg.eqDepth 0, Reg.eqOndie 0, Reg.eqHwm 0, Reg.iaDepth 0, Reg.deepFree, Reg.iuEdges 0, Reg.iucalState 0]) [.regs, .ctr, .host, .cores, .lanes, .ports, .fabric, .cal, .line] (.loopSet x0 x1 x2)) ∧
  (∀ x0, Framed (reportRegs ++ [Reg.laneStatus 0, Reg.laneCalStatus 0, Reg.laneGrp 0, Reg.portPauseStatus 0, Reg.fabricStatus, Reg.fabricPort 0, Reg.eqDepth 0, Reg.eqOndie 0, Reg.eqHwm 0, Reg.iaDepth 0, Reg.deepFree, Reg.iuEdges 0, Reg.iucalState 0]) [.regs, .ctr, .host, .cores, .lanes, .ports, .fabric, .cal, .line] (.l1ExitDone x0)) ∧
  (∀ x0 x1, Framed [Reg.portPauseStatus 0] [.regs, .ports] (.pauseStormEnd x0 x1)) ∧
  (∀ x0 x1, Framed (reportRegs ++ [Reg.laneStatus 0, Reg.laneCalStatus 0, Reg.laneGrp 0, Reg.portPauseStatus 0, Reg.fabricStatus, Reg.fabricPort 0, Reg.eqDepth 0, Reg.eqOndie 0, Reg.eqHwm 0, Reg.iaDepth 0, Reg.deepFree, Reg.iuEdges 0, Reg.iucalState 0]) [.regs, .ctr, .host, .cores, .lanes, .ports, .fabric, .cal, .line] (.klMarkerTx x0 x1)) ∧
  (∀ x0 x1 x2 x3, Framed (reportRegs ++ [Reg.portI2c 0]) [.regs, .host, .cores, .mem, .ports] (.i2cTransferEnd x0 x1 x2 x3))

/-- Pipelines, tables, frames and the fabric (spec/06 to spec/08): each command, where it answers a next state, leaves every part of the state but those named for it, and every register but those of the rows named for it, as they were;
where the banks' bytes (part `mem`) are not named, no byte of a bank changes. -/
def Obligations.PipelineAndFabricFrames : Prop :=
  (∀ x0 x1, Framed (reportRegs ++ [Reg.laneErrCnt 0 0, Reg.portPauseStatus 0, Reg.fabricStatus, Reg.eqDepth 0, Reg.iaDepth 0, Reg.deepFree, Reg.iuEdges 0]) [.regs, .ctr, .power, .host, .cores, .lanes, .ports, .fabric, .cal, .line] (.frameRx x0 x1)) ∧
  (∀ x0, Framed (reportRegs ++ [Reg.portPauseStatus 0, Reg.pipeGenDrain 0, Reg.pipeFragStatus 0, Reg.pipeLearnStatus 0, Reg.fabricStatus, Reg.eqDepth 0, Reg.iaDepth 0, Reg.deepFree, Reg.iuEdges 0]) [.regs, .ctr, .power, .host, .cores, .lanes, .ports, .pipes, .fabric, .servo, .cal, .line] (.pipeDecision x0)) ∧
  (∀ x0, Framed (reportRegs ++ [Reg.portPauseStatus 0, Reg.fabricStatus, Reg.eqDepth 0, Reg.eqOndie 0, Reg.eqHwm 0, Reg.iaDepth 0, Reg.deepFree, Reg.iuEdges 0]) [.regs, .ctr, .host, .cores, .lanes, .ports, .fabric, .cal, .line] (.fcsCheckDone x0)) ∧
  (∀ x0, Framed (reportRegs ++ [Reg.pipeLearnStatus 0, Reg.pipeMoveEpoch 0, Reg.pipeMacUsed 0, Reg.pipeLearnLimit 0 0]) [.regs, .ctr, .host, .cores, .pipes] (.learnServe x0)) ∧
  (∀ x0 x1, Framed [] [.pipes] (.ageVisit x0 x1)) ∧
  (∀ x0 x1, Framed [Reg.pipeMacUsed 0, Reg.pipeLearnLimit 0 0] [.regs, .ctr, .pipes] (.ageRemove x0 x1)) ∧
  (∀ x0 x1, Framed [Reg.pipeFragStatus 0] [.regs, .ctr, .pipes] (.fragExpire x0 x1)) ∧
  (∀ x0, Framed (reportRegs ++ [Reg.pipeGenStatus 0, Reg.pipeProgVer 0, Reg.pipeWinStatus 0, Reg.pipeMacUsed 0, Reg.pipeLpmUsed 0, Reg.pipeLearnLimit 0 0, Reg.pipeTwinStatus 0]) [.regs, .host, .cores, .pipes] (.genDrained x0)) ∧
  (Framed (reportRegs ++ [Reg.portPauseStatus 0, Reg.fabricStatus, Reg.eqDepth 0, Reg.eqOndie 0, Reg.eqHwm 0, Reg.iaDepth 0, Reg.deepFree, Reg.iuEdges 0]) [.regs, .ctr, .host, .cores, .lanes, .ports, .fabric, .cal, .line] .sorrelEpoch) ∧
  (∀ x0, Framed (reportRegs ++ [Reg.portPauseStatus 0, Reg.fabricStatus, Reg.eqDepth 0, Reg.eqOndie 0, Reg.eqHwm 0, Reg.iaDepth 0, Reg.deepFree, Reg.iuEdges 0]) [.regs, .ctr, .host, .cores, .lanes, .ports, .fabric, .cal, .line] (.egressSelect x0)) ∧
  (∀ x0 x1, Framed (reportRegs ++ [Reg.linkCfg 0, Reg.linkRtF 0, Reg.linkAsymEffLo 0, Reg.linkAsymEffHi 0, Reg.portPauseStatus 0, Reg.fabricStatus, Reg.eqDepth 0, Reg.eqOndie 0, Reg.eqHwm 0, Reg.iaDepth 0, Reg.deepFree, Reg.iuEdges 0, Reg.slotStatus 0]) [.regs, .ctr, .host, .cores, .lanes, .ports, .fabric, .servo, .cal, .line] (.frameTx x0 x1)) ∧
  (∀ x0 x1, Framed [] [.fabric] (.spillPartialFlush x0 x1)) ∧
  (∀ x0 x1 x2 x3, Framed (reportRegs ++ [Reg.portPauseStatus 0, Reg.fabricStatus, Reg.eqDepth 0, Reg.eqOndie 0, Reg.eqHwm 0, Reg.iaDepth 0, Reg.deepStatus, Reg.deepFree, Reg.deepEccCorr 0, Reg.deepEccUncorr 0, Reg.iuEdges 0]) [.regs, .ctr, .host, .cores, .lanes, .ports, .fabric, .cal, .line] (.refillDone x0 x1 x2 x3)) ∧
  (∀ x0 x1 x2, Framed (reportRegs ++ [Reg.portPauseStatus 0, Reg.fabricStatus, Reg.eqDepth 0, Reg.eqOndie 0, Reg.eqHwm 0, Reg.iaDepth 0, Reg.deepStatus, Reg.deepFree, Reg.deepEccCorr 0, Reg.iuEdges 0]) [.regs, .ctr, .host, .cores, .lanes, .ports, .fabric, .cal, .line] (.mapoutDone x0 x1 x2)) ∧
  (∀ x0 x1, Framed (reportRegs ++ [Reg.portPauseStatus 0, Reg.fabricStatus, Reg.eqDepth 0, Reg.eqOndie 0, Reg.eqHwm 0, Reg.iaDepth 0, Reg.deepFree, Reg.iuEdges 0]) [.regs, .ctr, .host, .cores, .lanes, .ports, .fabric, .cal, .line] (.mcAbandon x0 x1)) ∧
  (∀ x0, Framed (reportRegs ++ [Reg.portPauseStatus 0, Reg.pipeMacUsed 0, Reg.pipeLearnLimit 0 0, Reg.fabricStatus, Reg.fabricPort 0, Reg.eqDepth 0, Reg.eqOndie 0, Reg.eqHwm 0, Reg.iaDepth 0, Reg.deepFree, Reg.iuEdges 0]) [.regs, .ctr, .host, .cores, .lanes, .ports, .pipes, .fabric, .cal, .line] (.portHoldExpired x0)) ∧
  (∀ x0, Framed (reportRegs ++ [Reg.pipeGenStatus 0]) [.regs, .host, .cores, .pipes] (.genCommit x0)) ∧
  (∀ x0, Framed (reportRegs ++ [Reg.pipeProgVer 0, Reg.pipeWinStatus 0, Reg.pipeMacUsed 0, Reg.pipeLpmUsed 0, Reg.pipeTwinStatus 0]) [.regs, .host, .cores, .pipes] (.genDiscard x0)) ∧
  (∀ x0 x1 x2, Framed reportRegs [.regs, .host, .cores, .pipes] (.parseLoad x0 x1 x2)) ∧
  (∀ x0, Framed (reportRegs ++ [Reg.pipeFragStatus 0]) [.regs, .host, .cores, .pipes] (.fragFlush x0)) ∧
  (∀ x0 x1, Framed reportRegs [.regs, .host, .cores, .pipes] (.tableBulk x0 x1)) ∧
  (∀ x0, Framed (reportRegs ++ [Reg.pipeMacUsed 0, Reg.pipeLearnLimit 0 0]) [.regs, .host, .cores, .pipes] (.macFlush x0)) ∧
  (∀ x0, Framed (reportRegs ++ [Reg.deepStatus, Reg.deepFree]) [.regs, .host, .cores, .fabric] (.deepbufMapout x0)) ∧
  (∀ x0, Framed reportRegs [.regs, .host, .cores] (.deepbufScrub x0)) ∧
  (∀ x0 x1, Framed [Reg.pipeWinCtrl 0, Reg.pipeWinStatus 0, Reg.pipeWinData 0 0] [.regs, .pipes, .freeCtr] (.winRead x0 x1)) ∧
  (∀ x0 x1, Framed [Reg.pipeWinCtrl 0, Reg.pipeWinStatus 0, Reg.pipeWinData 0 0] [.regs, .pipes, .freeCtr] (.winWrite x0 x1)) ∧
  (∀ x0 x1, Framed [Reg.pipeWinCtrl 0, Reg.pipeWinStatus 0, Reg.pipeWinData 0 0] [.regs, .pipes, .freeCtr] (.winRemove x0 x1)) ∧
  (∀ x0 x1, Framed [Reg.pipeTwinCtrl 0, Reg.pipeTwinStatus 0, Reg.pipeTwinData 0 0] [.regs] (.twinRead x0 x1)) ∧
  (∀ x0 x1, Framed [Reg.pipeMoveEpoch 0, Reg.pipeMacUsed 0, Reg.pipeLpmUsed 0, Reg.pipeTwinCtrl 0, Reg.pipeTwinStatus 0] [.regs, .pipes] (.twinWrite x0 x1)) ∧
  (∀ x0 x1, Framed [Reg.pipeMacUsed 0, Reg.pipeLpmUsed 0, Reg.pipeLearnLimit 0 0, Reg.pipeTwinCtrl 0, Reg.pipeTwinStatus 0] [.regs, .pipes] (.twinRemove x0 x1)) ∧
  (∀ x0 x1, Framed [Reg.pipeTwinCtrl 0, Reg.pipeTwinStatus 0, Reg.pipeTwinData 0 0] [.regs] (.twinLookup x0 x1)) ∧
  (∀ x0 x1, Framed [Reg.pipeLearnStatus 0, Reg.pipeTwinCtrl 0, Reg.pipeTwinStatus 0] [.regs, .ctr, .pipes] (.twinInject x0 x1)) ∧
  (∀ x0 x1, Framed (reportRegs ++ [Reg.portPauseStatus 0, Reg.fabricStatus, Reg.eqDepth 0, Reg.eqOndie 0, Reg.eqHwm 0, Reg.iaDepth 0, Reg.deepFree, Reg.iuEdges 0]) [.regs, .ctr, .host, .cores, .lanes, .ports, .fabric, .cal, .line] (.spillWriteDone x0 x1)) ∧
  (Framed reportRegs [.regs, .host, .cores, .pipes] .macFlushScanEnd)

/-- Time, servo, references, measurement and calibration (spec/09 to spec/13): each command, where it answers a next state, leaves every part of the state but those named for it, and every register but those of the rows named for it, as they were;
where the banks' bytes (part `mem`) are not named, no byte of a bank changes. -/
def Obligations.TimeAndMeasurementFrames : Prop :=
  (Framed [Reg.tbSnapCtrl, Reg.tbIncrLo 0, Reg.tbIncrHi 0, Reg.tbSnapFrac 0, Reg.tbSnapNs 0, Reg.tbSnapSecLo 0, Reg.tbSnapSecHi 0] [.regs, .cnt, .time, .servo] .servoCompute) ∧
  (Framed (reportRegs ++ [Reg.globalLateFlags, Reg.globalLateCnt 0, Reg.tbSnapCtrl, Reg.tbIncrLo 0, Reg.tbIncrHi 0, Reg.tbSnapFrac 0, Reg.tbSnapNs 0, Reg.tbSnapSecLo 0, Reg.tbSnapSecHi 0, Reg.slotLate 0]) [.regs, .cnt, .time, .host, .cores, .servo] .servoDeadline) ∧
  (∀ x0, Framed (reportRegs ++ [Reg.slotStatus 0]) [.regs, .host, .cores, .servo] (.slotInputTimeout x0)) ∧
  (∀ x0, Framed (reportRegs ++ [Reg.slotStatus 0]) [.regs, .host, .cores, .servo] (.sessionUnitEnd x0)) ∧
  (∀ x0 x1 x2, Framed [] [.ports, .servo] (.sessionTx x0 x1 x2)) ∧
  (∀ x0, Framed [] [.servo] (.fuTimeout x0)) ∧
  (∀ x0 x1, Framed (reportRegs ++ [Reg.linkCfg 0, Reg.linkRtF 0, Reg.linkAsymEffLo 0, Reg.linkAsymEffHi 0, Reg.slotStatus 0, Reg.redundCnt 0]) [.regs, .host, .cores, .ports, .servo, .redund, .waiting] (.ptpRx x0 x1)) ∧
  (∀ x0, Framed (reportRegs ++ [Reg.linkCfg 0, Reg.linkRtF 0, Reg.linkAsymEffLo 0, Reg.linkAsymEffHi 0, Reg.slotStatus 0]) [.regs, .host, .cores, .ports, .servo] (.klWindowEnd x0)) ∧
  (∀ x0 x1, Framed [] [.servo] (.klReportRx x0 x1)) ∧
  (∀ x0 x1, Framed (reportRegs ++ [Reg.redundCnt 0]) [.regs, .cores, .refs, .redund, .waiting] (.esmcRx x0 x1)) ∧
  (∀ x0, Framed (reportRegs ++ [Reg.redundCnt 0]) [.regs, .cores, .refs, .redund, .waiting] (.esmcTimeout x0)) ∧
  (∀ x0, Framed (reportRegs ++ [Reg.dpllStatus 0]) [.regs, .host, .cores, .refs] (.hoTtsExpire x0)) ∧
  (∀ x0, Framed [] [.host] (.holdoverLearnSample x0)) ∧
  (∀ x0 x1 x2, Framed (reportRegs ++ [Reg.synStatus 0]) [.regs, .host, .cores, .refs] (.synGate x0 x1 x2)) ∧
  (∀ x0 x1 x2, Framed [Reg.iuEdges 0, Reg.iuMerged 0, Reg.iuOrphans 0, Reg.iuStatus 0, Reg.evinHoldoff 0, Reg.fmSkipped 0] [.regs, .meas] (.evinEdge x0 x1 x2)) ∧
  (∀ x0 x1 x2, Framed [Reg.iuEdges 0, Reg.iuMerged 0, Reg.iuOrphans 0, Reg.iuStatus 0, Reg.fmSkipped 0] [.regs, .refs, .meas] (.refinEdge x0 x1 x2)) ∧
  (∀ x0, Framed [Reg.iuOrphans 0, Reg.iuStatus 0] [.regs, .meas] (.measWindowEnd x0)) ∧
  (∀ x0 x1, Framed [Reg.iuOrphans 0, Reg.iuStatus 0] [.regs, .meas] (.pendingStopExpire x0 x1)) ∧
  (Framed (reportRegs ++ [Reg.globalLateFlags, Reg.globalLateCnt 0, Reg.measLost 0]) [.regs, .host, .cores, .meas] .measPost) ∧
  (∀ x0, Framed (reportRegs ++ [Reg.fmStatus 0]) [.regs, .host, .cores, .mem, .meas] (.fmGateEnd x0)) ∧
  (∀ x0 x1, Framed (reportRegs ++ [Reg.evoutStatus 0, Reg.evoutSkipped 0]) [.regs, .host, .cores, .meas] (.evoutPulse x0 x1)) ∧
  (∀ x0 x1, Framed [Reg.laneCalStatus 0, Reg.iucalState 0] [.regs, .power, .cal] (.calTempCheck x0 x1)) ∧
  (∀ x0, Framed [Reg.laneCalStatus 0, Reg.iucalState 0] [.regs, .cal] (.calPeriodDue x0)) ∧
  (Framed [Reg.laneCalStatus 0, Reg.tbSnapCtrl, Reg.tbIncrLo 0, Reg.tbIncrHi 0, Reg.tbSnapFrac 0, Reg.tbSnapNs 0, Reg.tbSnapSecLo 0, Reg.tbSnapSecHi 0, Reg.iucalState 0] [.regs, .cnt, .time, .cal] .calSlotStart) ∧
  (∀ x0 x1, Framed [Reg.laneCalStatus 0, Reg.iucalState 0] [.regs, .cal] (.pathRunDone x0 x1)) ∧
  (∀ x0 x1 x2, Framed [Reg.laneCalStatus 0, Reg.iucalState 0] [.regs, .cal] (.calChunkDone x0 x1 x2)) ∧
  (∀ x0 x1 x2 x3, Framed (reportRegs ++ [Reg.laneCalStatus 0, Reg.iucalState 0]) [.regs, .host, .cores, .cal] (.calOverdue x0 x1 x2 x3)) ∧
  (∀ x0, Framed reportRegs [.regs, .time, .host, .cores] (.tcntWrite x0)) ∧
  (∀ x0, Framed reportRegs [.regs, .host, .cores] (.sessionSet x0)) ∧
  (∀ x0, Framed reportRegs [.regs, .host, .cores, .mem, .servo] (.sessionRead x0)) ∧
  (∀ x0, Framed (reportRegs ++ [Reg.slotStatus 0]) [.regs, .host, .cores, .servo] (.slotAccept x0)) ∧
  (∀ x0, Framed (reportRegs ++ [Reg.laneCalStatus 0, Reg.iucalState 0]) [.regs, .host, .cores, .cal] (.calSweep x0)) ∧
  (∀ x0, Framed (reportRegs ++ [Reg.laneCalCfg 0, Reg.laneCalStatus 0, Reg.iucalState 0]) [.regs, .host, .cores, .cal] (.calHold x0)) ∧
  (∀ x0, Framed reportRegs [.regs, .host, .cores] (.refForce x0)) ∧
  (∀ x0, Framed reportRegs [.regs, .host, .cores] (.holdoverLearn x0)) ∧
  (∀ x0, Framed (reportRegs ++ [Reg.dpllStatus 0, Reg.dpllHistIncrLo 0, Reg.dpllHistIncrHi 0]) [.regs, .host, .cores, .refs] (.dpllHistReset x0)) ∧
  (∀ x0, Framed (reportRegs ++ [Reg.fmStatus 0]) [.regs, .host, .cores, .meas] (.freqLong x0)) ∧
  (∀ x0, Framed reportRegs [.regs, .host, .cores, .meas] (.pulseLoad x0)) ∧
  (∀ x0 x1, Framed (reportRegs ++ [Reg.tbSnapCtrl, Reg.redundCnt 0]) [.regs, .time, .cores, .redund, .waiting] (.snapGo x0 x1)) ∧
  (∀ x0 x1 x2, Framed (reportRegs ++ [Reg.servoStatus, Reg.slotCfg 0, Reg.redundCnt 0]) [.regs, .cores, .redund, .waiting, .written] (.slotUpd x0 x1 x2)) ∧
  (∀ x0 x1 x2, Framed [Reg.linkCfg 0] [.regs, .servo] (.linkUpd x0 x1 x2)) ∧
  (∀ x0 x1 x2, Framed (reportRegs ++ [Reg.synCfg 0, Reg.synStatus 0, Reg.redundCnt 0]) [.regs, .host, .cores, .refs, .redund, .waiting] (.synUpd x0 x1 x2)) ∧
  (∀ x0 x1 x2, Spares [.regs, .cores, .redund, .waiting] (.evoutLoad x0 x1 x2)) ∧
  (∀ x0 x1 x2, Framed (reportRegs ++ [Reg.dpllSwrateLo 0, Reg.dpllSwrateHi 0, Reg.redundCnt 0]) [.regs, .cores, .refs, .redund, .waiting] (.swrateCommit x0 x1 x2)) ∧
  (∀ x0 x1 x2, Framed (reportRegs ++ [Reg.candStatus 0, Reg.dpllCfg 0, Reg.dpllStatus 0, Reg.dpllPhaseLo 0, Reg.dpllPhaseHi 0, Reg.dpllHoTts 0, Reg.dpllSwrateLo 0, Reg.dpllSwrateHi 0, Reg.dpllHistIncrLo 0, Reg.dpllHistIncrHi 0, Reg.redundCnt 0]) [.regs, .host, .cores, .refs, .redund, .waiting] (.dpllOpen x0 x1 x2)) ∧
  (∀ x0 x1 x2 x3, Framed (reportRegs ++ [Reg.candStatus 0, Reg.redundCnt 0]) [.regs, .cores, .redund, .waiting, .written] (.candCfgWrite x0 x1 x2 x3)) ∧
  (∀ x0 x1 x2 x3, Framed (reportRegs ++ [Reg.redundCnt 0]) [.regs, .cores, .redund, .waiting, .written] (.imCfgWrite x0 x1 x2 x3)) ∧
  (∀ x0 x1 x2 x3, Framed (reportRegs ++ [Reg.redundCnt 0]) [.regs, .cores, .redund, .waiting, .written] (.fmCfgWrite x0 x1 x2 x3))

/-- Host interface, cores, timing pair and registers (spec/14 to spec/16, spec/18): each command, where it answers a next state, leaves every part of the state but those named for it, and every register but those of the rows named for it, as they were;
where the banks' bytes (part `mem`) are not named, no byte of a bank changes. -/
def Obligations.HostAndCoreFrames : Prop :=
  (∀ x0 x1 x2, Framed [] [.redund] (.heartbeat x0 x1 x2)) ∧
  (Framed [Reg.redundStatus] [.regs, .redund] .boardIntlkTake) ∧
  (∀ x0, Framed (reportRegs ++ [Reg.redundStatus]) [.regs, .host, .cores, .refs, .redund] (.boardIntlkSample x0)) ∧
  (∀ x0, Framed [] [.cores] (.coreWdtWarn x0)) ∧
  (∀ x0, Spares [.regs, .power, .host, .cores, .waiting] (.coreWdt x0)) ∧
  (Spares [.regs, .host, .waiting] .perstN) ∧
  (Spares [.regs, .host, .waiting] .functionLevelReset) ∧
  (Spares [.regs, .host, .waiting] .dlDown) ∧
  (∀ x0, Framed (reportRegs ++ [Reg.hostifStatus]) [.regs, .host, .cores] (.pcieLinkRecovery x0)) ∧
  (∀ x0 x1, Spares [.regs, .ctr, .power, .host, .cores, .mem, .lanes, .ports, .pipes, .fabric, .cal, .meas, .redund, .sec, .waiting, .line] (.pcieCto x0 x1)) ∧
  (∀ x0, Framed (reportRegs ++ [Reg.globalLateFlags, Reg.globalLateCnt 0, Reg.hostifEmerg, Reg.ringHostIdx 0]) [.regs, .host, .cores] (.doorbellData x0)) ∧
  (Framed (reportRegs ++ [Reg.globalLateFlags, Reg.globalLateCnt 0, Reg.hostifEmerg, Reg.tbSnapCtrl, Reg.tbIncrLo 0, Reg.tbIncrHi 0, Reg.tbSnapFrac 0, Reg.tbSnapNs 0, Reg.tbSnapSecLo 0, Reg.tbSnapSecHi 0]) [.regs, .cnt, .time, .host, .cores] .doorbellDeadline) ∧
  (Framed reportRegs [.regs, .host] .kick) ∧
  (∀ x0 x1 x2, Framed (reportRegs ++ [Reg.portPauseStatus 0, Reg.fabricStatus, Reg.eqDepth 0, Reg.eqOndie 0, Reg.eqHwm 0, Reg.iaDepth 0, Reg.deepFree, Reg.iuEdges 0]) [.regs, .ctr, .power, .host, .cores, .lanes, .ports, .fabric, .cal, .line] (.txDescriptor x0 x1 x2)) ∧
  (∀ x0, Framed reportRegs [.regs, .host, .fabric, .freeCtr] (.rxWriteback x0)) ∧
  (Framed reportRegs [.regs, .host] .completionWrite) ∧
  (Framed reportRegs [.regs, .host, .cores] .eventLost) ∧
  (∀ x0, Framed (reportRegs ++ [Reg.tbSnapCtrl, Reg.tbIncrLo 0, Reg.tbIncrHi 0, Reg.tbSnapFrac 0, Reg.tbSnapNs 0, Reg.tbSnapSecLo 0, Reg.tbSnapSecHi 0]) [.regs, .cnt, .time, .host] (.msixSignal x0)) ∧
  (∀ x0, Framed (reportRegs ++ [Reg.globalPwrState, Reg.pipeGenStatus 0]) [.regs, .time, .power, .host, .cores, .ports, .pipes, .meas, .redund] (.cmdTimeout x0)) ∧
  (∀ x0 x1, Framed reportRegs [.regs, .host, .cores] (.unassignedOpcode x0 x1)) ∧
  (∀ x0, Spares [.regs, .power, .host, .cores, .waiting] (.pairRejoin x0)) ∧
  (∀ x0, Framed reportRegs [.regs, .host, .cores, .redund] (.pairSwap x0)) ∧
  (∀ x0, Spares [.regs, .ctr, .power, .host, .cores, .lanes, .ports, .pipes, .fabric, .cal, .meas, .sec, .waiting, .line] (.longCtrl x0)) ∧
  (∀ x0, Framed reportRegs [.regs, .host, .cores] (.longQuery x0)) ∧
  (∀ x0 x1, Spares [.regs, .ctr, .power, .host, .cores, .mem, .lanes, .ports, .pipes, .fabric, .cal, .meas, .redund, .sec, .waiting, .line] (.longOpFinal x0 x1)) ∧
  (∀ x0, Framed reportRegs [.regs, .host, .cores] (.nop x0)) ∧
  (∀ x0 x1 x2, Framed (reportRegs ++ [Reg.bankEcc 0]) [.regs, .host, .cores, .mem] (.memCopy x0 x1 x2)) ∧
  (Spares [.regs, .ctr, .power, .host, .cores, .lanes, .ports, .fabric, .cal, .meas, .sec, .waiting, .line] .profileEraseDone) ∧
  (∀ x0 x1, Framed reportRegs [.regs, .cores] (.mbPost x0 x1)) ∧
  (∀ x0 x1 x2, Framed [Reg.bankCtrl 0, Reg.quad 0, Reg.membankStatus] [.regs] (.bankHandover x0 x1 x2)) ∧
  (∀ x0 x1 x2, Framed [Reg.bankCtrl 0, Reg.quad 0, Reg.membankStatus] [.regs, .cores] (.quadHandover x0 x1 x2)) ∧
  (∀ x0, Framed [Reg.bankCtrl 0, Reg.quad 0] [.regs, .cores] (.bankHandoverDone x0)) ∧
  (∀ x0 x1 x2, Framed [Reg.bankCtrl 0, Reg.quad 0, Reg.membankStatus] [.regs] (.bankPower x0 x1 x2)) ∧
  (∀ x0, Framed [Reg.perfTagStatus 0] [.regs] (.tagPop x0)) ∧
  (Framed (reportRegs ++ [Reg.hostifEmerg]) [.regs, .host] .fetchNow) ∧
  (∀ x0, Framed (reportRegs ++ [Reg.hostifEmerg]) [.regs, .host] (.dmaOff x0)) ∧
  (∀ x0, Framed [Reg.hostifEmerg] [.regs] (.txStop x0)) ∧
  (∀ x0 x1, Framed (reportRegs ++ [Reg.ringCfg 0, Reg.ringHostIdx 0]) [.regs, .host, .cores] (.ringEnable x0 x1)) ∧
  (∀ x0 x1, Framed (reportRegs ++ [Reg.ringCfg 0, Reg.ringHostIdx 0]) [.regs, .host, .cores] (.ringDisable x0 x1)) ∧
  (∀ x0, Framed [Reg.hostifStatus] [.regs, .host] (.ctoConfigWrite x0)) ∧
  (∀ x0 x1, Framed reportRegs [.regs, .rdata] (.badAccess x0 x1)) ∧
  (∀ x0, Spares [.regs, .ctr, .rdata, .cores, .ports, .freeCtr] (.counterRead x0)) ∧
  (∀ x0, Spares [.regs, .ctr, .rdata, .cores, .ports, .freeCtr] (.rcRead x0)) ∧
  (∀ x0 x1 x2, Spares [.regs, .ctr, .time, .power, .host, .cores, .lanes, .ports, .pipes, .fabric, .servo, .cal, .refs, .redund, .waiting, .written, .line, .freeCtr] (.w1cWrite x0 x1 x2)) ∧
  (∀ x0 x1 x2, Spares [.regs, .ctr, .time, .power, .host, .cores, .lanes, .ports, .pipes, .fabric, .servo, .cal, .refs, .redund, .waiting, .written, .line, .freeCtr] (.registerWrite x0 x1 x2)) ∧
  (∀ x0 x1, Framed [] [.cores] (.beatAck x0 x1)) ∧
  (∀ x0 x1, Framed [] [.cores] (.coreWdtKick x0 x1)) ∧
  (∀ x0 x1, Framed [] [.cores] (.evtRelease x0 x1)) ∧
  (∀ x0 x1, Spares [.regs, .ctr, .cnt, .time, .power, .host, .cores, .mem, .lanes, .ports, .pipes, .fabric, .servo, .cal, .refs, .redund, .waiting, .written, .line, .freeCtr] (.rv32imcInstruction x0 x1)) ∧
  (∀ x0 x1 x2, Framed (reportRegs ++ [Reg.coreStatus 0, Reg.perfTagStatus 0, Reg.perfTagRec 0 0, Reg.tbSnapCtrl, Reg.tbIncrLo 0, Reg.tbIncrHi 0, Reg.tbSnapFrac 0, Reg.tbSnapNs 0, Reg.tbSnapSecLo 0, Reg.tbSnapSecHi 0]) [.regs, .cnt, .time, .power, .cores, .freeCtr] (.ksTsnap x0 x1 x2)) ∧
  (∀ x0 x1 x2, Framed (reportRegs ++ [Reg.coreStatus 0, Reg.perfTagStatus 0, Reg.perfTagRec 0 0, Reg.tbSnapCtrl, Reg.tbIncrLo 0, Reg.tbIncrHi 0, Reg.tbSnapFrac 0, Reg.tbSnapNs 0, Reg.tbSnapSecLo 0, Reg.tbSnapSecHi 0]) [.regs, .cnt, .time, .power, .cores, .freeCtr] (.ksTget x0 x1 x2)) ∧
  (∀ x0 x1, Framed (reportRegs ++ [Reg.coreStatus 0, Reg.perfTagStatus 0, Reg.perfTagRec 0 0, Reg.tbSnapCtrl, Reg.tbIncrLo 0, Reg.tbIncrHi 0, Reg.tbSnapFrac 0, Reg.tbSnapNs 0, Reg.tbSnapSecLo 0, Reg.tbSnapSecHi 0]) [.regs, .cnt, .time, .power, .cores, .freeCtr] (.ksWfb x0 x1)) ∧
  (∀ x0 x1, Framed (reportRegs ++ [Reg.coreStatus 0, Reg.perfTagStatus 0, Reg.perfTagRec 0 0, Reg.tbSnapCtrl, Reg.tbIncrLo 0, Reg.tbIncrHi 0, Reg.tbSnapFrac 0, Reg.tbSnapNs 0, Reg.tbSnapSecLo 0, Reg.tbSnapSecHi 0]) [.regs, .cnt, .time, .power, .cores, .freeCtr] (.ksWfe x0 x1)) ∧
  (∀ x0, Framed (reportRegs ++ [Reg.coreStatus 0, Reg.perfTagStatus 0, Reg.perfTagRec 0 0, Reg.tbSnapCtrl, Reg.tbIncrLo 0, Reg.tbIncrHi 0, Reg.tbSnapFrac 0, Reg.tbSnapNs 0, Reg.tbSnapSecLo 0, Reg.tbSnapSecHi 0]) [.regs, .cnt, .time, .power, .cores, .freeCtr] (.coreWake x0)) ∧
  (∀ x0 x1 x2 x3 x4, Framed (reportRegs ++ [Reg.coreStatus 0, Reg.perfTagStatus 0, Reg.perfTagRec 0 0, Reg.tbSnapCtrl, Reg.tbIncrLo 0, Reg.tbIncrHi 0, Reg.tbSnapFrac 0, Reg.tbSnapNs 0, Reg.tbSnapSecLo 0, Reg.tbSnapSecHi 0]) [.regs, .cnt, .time, .power, .cores, .freeCtr] (.ksCrc x0 x1 x2 x3 x4)) ∧
  (∀ x0 x1 x2, Framed (reportRegs ++ [Reg.coreStatus 0, Reg.perfTagStatus 0, Reg.perfTagRec 0 0, Reg.tbSnapCtrl, Reg.tbIncrLo 0, Reg.tbIncrHi 0, Reg.tbSnapFrac 0, Reg.tbSnapNs 0, Reg.tbSnapSecLo 0, Reg.tbSnapSecHi 0]) [.regs, .cnt, .time, .power, .cores, .freeCtr] (.ksPcnt x0 x1 x2)) ∧
  (∀ x0, Framed (reportRegs ++ [Reg.coreStatus 0, Reg.perfTagStatus 0, Reg.perfTagRec 0 0, Reg.tbSnapCtrl, Reg.tbIncrLo 0, Reg.tbIncrHi 0, Reg.tbSnapFrac 0, Reg.tbSnapNs 0, Reg.tbSnapSecLo 0, Reg.tbSnapSecHi 0]) [.regs, .cnt, .time, .power, .cores, .freeCtr] (.ksTret x0)) ∧
  (∀ x0 x1 x2, Spares [.regs, .cnt, .time, .power, .host, .cores, .waiting, .freeCtr] (.trap x0 x1 x2)) ∧
  (∀ x0, Framed (reportRegs ++ [Reg.coreStatus 0, Reg.coreTrapPc 0, Reg.perfTagStatus 0, Reg.perfTagRec 0 0, Reg.tbSnapCtrl, Reg.tbIncrLo 0, Reg.tbIncrHi 0, Reg.tbSnapFrac 0, Reg.tbSnapNs 0, Reg.tbSnapSecLo 0, Reg.tbSnapSecHi 0]) [.regs, .cnt, .time, .cores, .freeCtr] (.interruptTaken x0)) ∧
  (∀ x0 x1, Framed reportRegs [.regs, .cores] (.perfWrap x0 x1)) ∧
  (∀ x0, Framed reportRegs [.regs, .cores] (.tagCountdown x0)) ∧
  (∀ x0 x1, Framed [Reg.hostifStatus] [.regs] (.pcieLinkUp x0 x1)) ∧
  (∀ x0, Framed (reportRegs ++ [Reg.hostifStatus]) [.regs, .host, .cores] (.hostReadCompletion x0)) ∧
  (∀ x0, Framed [Reg.bankCtrl 0] [.regs, .mem] (.bankPowerReached x0)) ∧
  (∀ x0, Spares [.regs, .ctr, .power, .host, .cores, .mem, .lanes, .ports, .pipes, .fabric, .cal, .meas, .sec, .waiting, .line] (.longOpSafePoint x0))

/-- Power, boot, profiles, vault and update (spec/02, spec/03, spec/17): each command, where it answers a next state, leaves every part of the state but those named for it, and every register but those of the rows named for it, as they were;
where the banks' bytes (part `mem`) are not named, no byte of a bank changes. -/
def Obligations.PowerAndSecurityFrames : Prop :=
  (Spares [.regs, .ctr, .cnt, .time, .power, .host, .cores, .mem, .lanes, .ports, .pipes, .fabric, .servo, .cal, .refs, .meas, .redund, .sec, .waiting, .written, .freeCtr] .islandReset) ∧
  (Spares [.regs, .ctr, .cnt, .time, .power, .host, .cores, .mem, .lanes, .ports, .pipes, .fabric, .servo, .cal, .refs, .meas, .redund, .sec, .waiting, .written] .vaultOnlyEntry) ∧
  (Framed [Reg.globalBeat, Reg.tbIncrLo 0, Reg.tbIncrHi 0] [.regs, .cnt, .time, .power] .tickPllLock) ∧
  (Framed [] [.power] .mainPwrEnHigh) ∧
  (∀ x0, Framed [Reg.globalSeq] [.regs] (.seqOrderViolation x0)) ∧
  (∀ x0, Framed [Reg.globalSeq] [.regs, .power] (.powerupTimeout x0)) ∧
  (Framed [] [.power] .powerupRetry) ∧
  (Spares [.regs, .ctr, .cnt, .time, .power, .host, .cores, .mem, .lanes, .ports, .pipes, .fabric, .servo, .cal, .refs, .meas, .redund, .sec, .waiting, .written] .mainPor) ∧
  (∀ x0, Spares [.regs, .ctr, .cnt, .time, .power, .host, .cores, .mem, .lanes, .ports, .pipes, .fabric, .servo, .cal, .refs, .meas, .redund, .sec, .waiting, .written] (.supplyReset x0)) ∧
  (Spares [.regs, .ctr, .cnt, .time, .power, .host, .cores, .mem, .lanes, .ports, .pipes, .fabric, .servo, .cal, .refs, .meas, .redund, .sec, .waiting, .written] .pinReset) ∧
  (∀ x0, Framed [Reg.globalSeq] [.regs, .power] (.resetNLong x0)) ∧
  (Spares [.regs, .ctr, .cnt, .time, .power, .host, .cores, .mem, .lanes, .ports, .pipes, .fabric, .servo, .cal, .refs, .meas, .redund, .sec, .waiting, .written] .thermtrip) ∧
  (∀ x0, Spares [.regs, .power, .host, .cores, .ports, .pipes, .sec] (.mainResetRelease x0)) ∧
  (Framed (reportRegs ++ [Reg.globalLateFlags, Reg.globalLateCnt 0, Reg.globalBoot, Reg.hostifEmerg, Reg.coreSkipped 0, Reg.laneStatus 0, Reg.laneCalStatus 0, Reg.linkCfg 0, Reg.laneGrp 0, Reg.portPauseStatus 0, Reg.fabricStatus, Reg.fabricPort 0, Reg.eqDepth 0, Reg.eqOndie 0, Reg.eqHwm 0, Reg.iaDepth 0, Reg.deepStatus, Reg.deepFree, Reg.tbLcompRx 0, Reg.tbLcompTx 0, Reg.iuEdges 0, Reg.iucalState 0, Reg.slotCfg 0, Reg.slotStatus 0, Reg.candStatus 0, Reg.candFreq 0, Reg.dpllStatus 0, Reg.dpllHoTts 0, Reg.dpllSwrateLo 0, Reg.dpllSwrateHi 0, Reg.dpllHistIncrLo 0, Reg.dpllHistIncrHi 0, Reg.synStatus 0, Reg.evoutStatus 0, Reg.evoutSkipped 0]) [.regs, .ctr, .time, .power, .host, .cores, .lanes, .ports, .fabric, .servo, .cal, .refs, .meas, .sec, .line, .freeCtr] .joinBeat) ∧
  (∀ x0, Framed (reportRegs ++ [Reg.globalDipStatus, Reg.laneCalStatus 0, Reg.iucalState 0]) [.regs, .power, .host, .cores, .cal, .meas] (.dipEnter x0)) ∧
  (∀ x0, Framed (reportRegs ++ [Reg.globalDipStatus, Reg.updSvn 0, Reg.updKeys, Reg.updStatus, Reg.updCompStaged 0]) [.regs, .power, .host, .cores, .servo, .sec] (.dipExit x0)) ∧
  (∀ x0, Framed reportRegs [.regs, .power, .host, .cores] (.dipLong x0)) ∧
  (Framed [Reg.globalSeq] [.regs, .power] .oscLoss) ∧
  (Framed [] [.power, .refs] .oscReturn) ∧
  (Spares [.regs, .ctr, .cnt, .time, .power, .host, .cores, .mem, .lanes, .ports, .pipes, .fabric, .servo, .cal, .refs, .meas, .redund, .sec, .waiting, .written] .standbyWake) ∧
  (Spares [.regs, .ctr, .cnt, .time, .power, .host, .cores, .mem, .lanes, .ports, .pipes, .fabric, .servo, .cal, .refs, .meas, .redund, .sec, .waiting, .written, .line] .quietDrainEnd) ∧
  (Framed [] [.power] .standbyRailsOff) ∧
  (Spares [.regs, .ctr, .cnt, .time, .power, .host, .cores, .mem, .lanes, .ports, .pipes, .fabric, .servo, .cal, .refs, .meas, .redund, .sec, .waiting, .written, .line, .freeCtr] .beatBoundary) ∧
  (∀ x0 x1, Framed (reportRegs ++ [Reg.secStatus, Reg.secVsec]) [.regs, .host, .cores, .keys, .sec, .freeCtr] (.tamperDetect x0 x1)) ∧
  (∀ x0, Framed (reportRegs ++ [Reg.secStatus, Reg.secVsec]) [.regs, .host, .cores, .sec] (.vbatCheck x0)) ∧
  (Framed reportRegs [.regs, .host, .cores] .wdtWarn) ∧
  (Spares [.regs, .ctr, .cnt, .time, .power, .host, .cores, .mem, .lanes, .ports, .pipes, .fabric, .servo, .cal, .refs, .meas, .redund, .sec, .waiting, .written] .wdtReset) ∧
  (∀ x0 x1, Framed reportRegs [.regs, .power, .host, .cores] (.profileApply x0 x1)) ∧
  (∀ x0, Spares [.regs, .ctr, .power, .host, .cores, .lanes, .ports, .pipes, .fabric, .cal, .meas, .sec, .waiting, .line] (.powerStateSet x0)) ∧
  (∀ x0, Framed reportRegs [.regs, .power, .host, .cores] (.chipReset x0)) ∧
  (∀ x0, Spares [.regs, .ctr, .power, .host, .cores, .lanes, .ports, .pipes, .fabric, .cal, .waiting, .line] (.domainReset x0)) ∧
  (∀ x0 x1, Framed (reportRegs ++ [Reg.updStatus, Reg.updCompStaged 0]) [.regs, .host, .cores, .sec] (.updStage x0 x1)) ∧
  (∀ x0, Framed (reportRegs ++ [Reg.coreStatus 0, Reg.updStatus, Reg.laneStatus 0, Reg.laneCalStatus 0, Reg.laneGrp 0, Reg.portPauseStatus 0, Reg.fabricStatus, Reg.fabricPort 0, Reg.eqDepth 0, Reg.eqOndie 0, Reg.eqHwm 0, Reg.iaDepth 0, Reg.deepFree, Reg.iuEdges 0, Reg.iucalState 0, Reg.redundStatus]) [.regs, .ctr, .power, .host, .cores, .lanes, .ports, .fabric, .cal, .sec, .line] (.updInstall x0)) ∧
  (∀ x0, Framed (reportRegs ++ [Reg.updSvn 0, Reg.updKeys, Reg.updStatus, Reg.updCompStaged 0]) [.regs, .host, .cores, .sec] (.updCommit x0)) ∧
  (∀ x0, Framed (reportRegs ++ [Reg.updSvn 0, Reg.updKeys, Reg.updStatus, Reg.updCompStaged 0]) [.regs, .host, .cores, .sec] (.updDiscard x0)) ∧
  (∀ x0, Framed reportRegs [.regs, .host, .cores, .keys, .sec] (.keyWrite x0)) ∧
  (∀ x0 x1, Framed reportRegs [.regs, .host, .cores, .mem] (.keyHmac x0 x1)) ∧
  (∀ x0, Framed (reportRegs ++ [Reg.secStatus]) [.regs, .host, .cores, .sec, .freeCtr] (.tamperClear x0)) ∧
  (∀ x0, Framed (reportRegs ++ [Reg.updSvn 0, Reg.updKeys, Reg.updStatus, Reg.updCompStaged 0]) [.regs, .host, .cores, .sec] (.fuseCust x0)) ∧
  (∀ x0 x1, Framed [Reg.globalResetCtrl] [.regs, .power] (.resetCtrlChip x0 x1)) ∧
  (∀ x0 x1, Framed [] [.power] (.wdtKick x0 x1)) ∧
  (∀ x0 x1, Framed [Reg.globalWdtCtrl] [.regs, .power] (.wdtCtrlWrite x0 x1)) ∧
  (∀ x0 x1 x2, Framed [Reg.secStatus, Reg.secTamperCfg 0, Reg.secTamperLock] [.regs] (.tamperCfgWrite x0 x1 x2)) ∧
  (Spares [.regs, .keys, .sec] .vbatLoss)

/-- A command that names one instance of a unit leaves the others alone: register by register, core by core, session by session, pipeline by pipeline (spec/18 R545). -/
def Obligations.InstanceFrames : Prop :=
  (∀ (s t : State) (on : Bool), exec (.txStop on) s = .next t → ∀ a, a ≠ Reg.hostifEmerg → t.reg a = s.reg a) ∧
  (∀ (s t : State) (c : Fin 8), exec (.tagPop c) s = .next t → ∀ a, a ≠ Reg.perfTagStatus c → t.reg a = s.reg a) ∧
  (∀ (s t : State) (b : Fin 32), exec (.bankHandoverDone b) s = .next t → ∀ a, a ≠ Reg.bankCtrl b → a ≠ Reg.quad (b.val / 4) → t.reg a = s.reg a) ∧
  (∀ (s t : State) (b : Fin 32), exec (.bankPowerReached b) s = .next t → ∀ a, a ≠ Reg.bankCtrl b → t.reg a = s.reg a) ∧
  (∀ (s t : State) (k : Fin 8) (v : Word), exec (.tamperCfgWrite false k v) s = .next t → ∀ a, a ≠ Reg.secTamperCfg k → a ≠ Reg.secStatus → t.reg a = s.reg a) ∧
  (∀ (s t : State) (src : WrSrc) (n : Fin 128) (v : Word), exec (.linkUpd src n v) s = .next t → ∀ a, a ≠ Reg.linkCfg n → t.reg a = s.reg a) ∧
  (∀ (s t : State) (n : Fin 128) (r : PathRun), exec (.pathRunDone n r) s = .next t → ∀ a, a ≠ Reg.laneCalStatus n → a ≠ Reg.iucalState n → t.reg a = s.reg a) ∧
  (∀ (s t : State) (c d : Fin 8) (rd rs1 : Fin 32), exec (.ksTsnap c rd rs1) s = .next t ∨ exec (.ksTget c rd rs1) s = .next t ∨ exec (.ksPcnt c rd rs1) s = .next t ∨
    exec (.ksWfb c rd) s = .next t ∨ exec (.ksWfe c rd) s = .next t ∨ exec (.ksTret c) s = .next t → d ≠ c → t.core d = s.core d) ∧
  (∀ (s t : State) (c d : Fin 8) (v : Word), exec (.beatAck c v) s = .next t ∨ exec (.evtRelease c v) s = .next t ∨ exec (.coreWdtKick c v) s = .next t ∨ exec (.mbPost c v) s = .next t →
    d ≠ c → t.core d = s.core d) ∧
  (∀ (s t : State) (i j : Fin 4096), exec (.fuTimeout i) s = .next t → j ≠ i → t.sess j = s.sess j) ∧
  (∀ (s t : State) (p q : Fin 4) (v : Word), exec (.winWrite p v) s = .next t ∨ exec (.winRemove p v) s = .next t ∨ exec (.twinWrite p v) s = .next t ∨ exec (.twinRemove p v) s = .next t ∨
    exec (.twinInject p v) s = .next t → q ≠ p → t.pipe q = s.pipe q)

/-- An opcode with a reserved high byte (0x00, 0x0F to 0xFF) or an unassigned low byte completes with BAD_ARG, and nothing else is done (spec/00 R20). -/
def Obligations.UnassignedOpcodes : Prop :=
  (∀ (s : State) (c : Cmd) (op : BitVec 16), op.toNat ∉ opcodes → s.mayStart c op.toNat = true → Runs (.unassignedOpcode c op) s fun t =>
    t = (s.fetched c).complete c op.toNat st.badArg) ∧
  (∀ op : BitVec 16, op.toNat / 256 = 0 ∨ 0x0F ≤ op.toNat / 256 → op.toNat ∉ opcodes)

/-- `GLOBAL_LATE_CNT[k]` counts the late cases of category `k`, saturating, from 0; a read returns the count and clears it; it is of class L: a main reset clears it (spec/01 R39). -/
def Obligations.LateCounters : Prop :=
  (∀ k : Fin 9, Reg.globalLateCnt k = 0x110 + 4 * k.val ∧ State.reset.reg (Reg.globalLateCnt k) = 0) ∧
  (∀ (s : State) (k : Fin 9) (n : Nat), (s.late k n).fld (F.globalLateCnt_COUNT k) = min 0xFFFFFFFF (s.fld (F.globalLateCnt_COUNT k) + n)) ∧
  (∀ (s : State) (k j : Fin 9) (n : Nat), j ≠ k → (s.late k n).fld (F.globalLateCnt_COUNT j) = s.fld (F.globalLateCnt_COUNT j)) ∧
  (∀ (s : State) (k : Fin 9), s.up = true → Runs (.rcRead (Reg.globalLateCnt k)) s fun t =>
    t.rdata = s.reg (Reg.globalLateCnt k) ∧ t.fld (F.globalLateCnt_COUNT k) = 0) ∧
  (∀ (s : State) (n : Nat) (arm : Bool) (k : Fin 9), regsCanon s = true → (s.mainReset n arm).fld (F.globalLateCnt_COUNT k) = 0)

/-- With the tamper lock set, a write that would lower RESP or change EXPECT is not applied and sets CFG_ERR, one that raises RESP is applied, and no write clears LOCK. A reset of the main domain or of the island
keeps LOCK, RESP and EXPECT; the loss of class V clears LOCK (spec/17 R539). -/
def Obligations.TamperLock : Prop :=
  (∀ (s : State) (k : Fin 8) (v : Word), s.up = true → s.flag F.secTamperLock_LOCK = true →
    (F.secTamperCfg_RESP k).of v < s.resp k ∨ (F.secTamperCfg_EXPECT k).of v ≠ s.fld (F.secTamperCfg_EXPECT k) →
    Runs (.tamperCfgWrite false k v) s fun t => (∀ j < 8, t.reg (Reg.secTamperCfg j) = s.reg (Reg.secTamperCfg j)) ∧ t.flag F.secTamperLock_LOCK = true ∧ t.fld F.secStatus_CFG_ERR = 1) ∧
  (∀ (s : State) (k : Fin 8) (v : Word), s.up = true → s.flag F.secTamperLock_LOCK = true → s.resp k ≤ (F.secTamperCfg_RESP k).of v → (F.secTamperCfg_EXPECT k).of v = s.fld (F.secTamperCfg_EXPECT k) →
    Runs (.tamperCfgWrite false k v) s fun t => t.resp k = (F.secTamperCfg_RESP k).of v ∧ t.fld (F.secTamperCfg_EXPECT k) = s.fld (F.secTamperCfg_EXPECT k) ∧ t.flag F.secTamperLock_LOCK = true) ∧
  (∀ (s : State) (k : Fin 8) (v : Word), s.up = true → s.flag F.secTamperLock_LOCK = true → Runs (.tamperCfgWrite true k v) s fun t => t.flag F.secTamperLock_LOCK = true) ∧
  (∀ (s : State) (src : WrSrc) (k : Fin 8) (v : Word), exec (.registerWrite src (Reg.secTamperCfg k) v) s = exec (.tamperCfgWrite false k v) s ∧
    exec (.registerWrite src Reg.secTamperLock v) s = exec (.tamperCfgWrite true k v) s) ∧
  (∀ (s : State) (n : Nat) (arm : Bool) (k : Fin 8), regsCanon s = true → s.flag F.secTamperLock_LOCK = true → (s.mainReset n arm).flag F.secTamperLock_LOCK = true ∧
    (s.mainReset n arm).resp k = s.resp k ∧ (s.mainReset n arm).fld (F.secTamperCfg_EXPECT k) = s.fld (F.secTamperCfg_EXPECT k)) ∧
  (∀ (s : State) (k : Fin 8), regsCanon s = true → s.flag F.secTamperLock_LOCK = true → Runs .islandReset s fun t => t.flag F.secTamperLock_LOCK = true ∧
    t.resp k = s.resp k ∧ t.fld (F.secTamperCfg_EXPECT k) = s.fld (F.secTamperCfg_EXPECT k)) ∧
  (∀ s : State, s.power.aon = false → Runs .vbatLoss s fun t => t.flag F.secTamperLock_LOCK = false)
end

