-- ==== Sys2Proof/Laws/Tab.lean ====
section
/-!
SUPPORT. Sys2Proof/Laws/Tab.lean: the laws of sparse tables: reading after writing and removing, and the canonical form, which every operation
on a table keeps.
-/
namespace Sys2Proof.Machine

variable {α : Type}

@[simp] theorem Tab.find_ins_same (k : Nat) (v : α) (t : Tab α) : Tab.find k (Tab.ins k v t) = some v := by
  induction t with
  | nil => simp [Tab.ins, Tab.find]
  | cons p t ih =>
    obtain ⟨a, w⟩ := p
    unfold Tab.ins
    split
    · simp [Tab.find]
    · split
      · simp [Tab.find]
      · simp [Tab.find, *]

theorem Tab.find_ins_other {j k : Nat} (h : j ≠ k) (v : α) (t : Tab α) : Tab.find j (Tab.ins k v t) = Tab.find j t := by
  induction t with
  | nil => simp [Tab.ins, Tab.find, h.symm]
  | cons p t ih =>
    obtain ⟨a, w⟩ := p
    unfold Tab.ins
    split
    · subst_vars; simp [Tab.find, h.symm]
    · split
      · simp [Tab.find, h.symm]
      · simp [Tab.find, ih]

@[simp] theorem Tab.find_del_same (k : Nat) (t : Tab α) : Tab.find k (Tab.del k t) = none := by
  induction t with
  | nil => rfl
  | cons p t ih =>
    obtain ⟨a, w⟩ := p
    unfold Tab.del at *
    by_cases h : a = k
    · simp [h]; simpa using ih
    · simp [h, Tab.find]; simpa using ih

theorem Tab.find_del_other {j k : Nat} (h : j ≠ k) (t : Tab α) : Tab.find j (Tab.del k t) = Tab.find j t := by
  induction t with
  | nil => rfl
  | cons p t ih =>
    obtain ⟨a, w⟩ := p
    unfold Tab.del at *
    by_cases e : a = k
    · subst e; simp [Tab.find, h.symm]; simpa using ih
    · simp [e, Tab.find]; split
      · rfl
      · simpa using ih

/-- A read after a write to the same key. -/
@[simp] theorem Tab.get_put_same [DecidableEq α] (t : Tab α) (d v : α) (k : Nat) : Tab.get (Tab.put t d k v) d k = v := by
  unfold Tab.get Tab.put
  split <;> simp_all

/-- A write leaves every other key alone. -/
theorem Tab.get_put_other [DecidableEq α] (t : Tab α) (d v : α) {j k : Nat} (h : j ≠ k) :
    Tab.get (Tab.put t d k v) d j = Tab.get t d j := by
  unfold Tab.get Tab.put
  split
  · rw [Tab.find_del_other h]
  · rw [Tab.find_ins_other h]

/-- Keys of a table, in its order. -/
def Tab.keys (t : Tab α) : List Nat := t.map (·.1)

/-- The canonical form in terms of its keys and values. -/
theorem Tab.canon_iff [DecidableEq α] (d : Nat → α) (t : Tab α) :
    Tab.canon d t = true ↔ t.Pairwise (fun p q => p.1 < q.1) ∧ ∀ p ∈ t, p.2 ≠ d p.1 := by
  induction t with
  | nil => simp [Tab.canon]
  | cons p t ih =>
    obtain ⟨a, v⟩ := p
    simp only [Tab.canon, Bool.and_eq_true, decide_eq_true_eq, ih, List.pairwise_cons, List.mem_cons, forall_eq_or_imp]
    constructor
    · rintro ⟨⟨hv, ho⟩, hp, hd⟩
      refine ⟨⟨?_, hp⟩, hv, hd⟩
      cases t with
      | nil => simp
      | cons q t =>
        intro r hr
        simp only [decide_eq_true_eq] at ho
        rcases List.mem_cons.1 hr with rfl | hr
        · exact ho
        · exact Nat.lt_trans ho ((List.pairwise_cons.1 hp).1 r hr)
    · rintro ⟨⟨ho, hp⟩, hv, hd⟩
      refine ⟨⟨hv, ?_⟩, hp, hd⟩
      cases t with
      | nil => rfl
      | cons q t => simpa using ho q (by simp)

/-- Removing entries keeps the canonical form. -/
theorem Tab.canon_filter [DecidableEq α] {d : Nat → α} {t : Tab α} (f : Nat × α → Bool) (h : Tab.canon d t = true) :
    Tab.canon d (t.filter f) = true := by
  rw [Tab.canon_iff] at *
  exact ⟨h.1.filter f, fun p hp => h.2 p (List.mem_filter.1 hp).1⟩

theorem Tab.canon_del [DecidableEq α] {d : Nat → α} {t : Tab α} (k : Nat) (h : Tab.canon d t = true) :
    Tab.canon d (Tab.del k t) = true := Tab.canon_filter _ h

theorem Tab.mem_ins {k : Nat} {v : α} {t : Tab α} {p : Nat × α} (h : p ∈ Tab.ins k v t) : p = (k, v) ∨ p ∈ t := by
  induction t with
  | nil => simpa [Tab.ins] using h
  | cons q t ih =>
    obtain ⟨a, w⟩ := q
    unfold Tab.ins at h
    split at h
    · rcases List.mem_cons.1 h with h | h
      · exact .inl h
      · exact .inr (List.mem_cons_of_mem _ h)
    · split at h
      · rcases List.mem_cons.1 h with h | h
        · exact .inl h
        · exact .inr h
      · rcases List.mem_cons.1 h with h | h
        · exact .inr (h ▸ List.mem_cons_self)
        · exact (ih h).imp_right (List.mem_cons_of_mem _)

theorem Tab.ins_rising {k : Nat} {v : α} {t : Tab α} (h : t.Pairwise (fun p q => p.1 < q.1)) :
    (Tab.ins k v t).Pairwise (fun p q => p.1 < q.1) := by
  induction t with
  | nil => simp [Tab.ins]
  | cons q t ih =>
    obtain ⟨a, w⟩ := q
    have ⟨ho, hp⟩ := List.pairwise_cons.1 h
    unfold Tab.ins
    split
    · subst_vars; exact List.pairwise_cons.2 ⟨ho, hp⟩
    · split
      · refine List.pairwise_cons.2 ⟨fun r hr => ?_, h⟩
        rcases List.mem_cons.1 hr with rfl | hr
        · assumption
        · exact Nat.lt_trans ‹k < a› (ho r hr)
      · refine List.pairwise_cons.2 ⟨fun r hr => ?_, ih hp⟩
        rcases Tab.mem_ins hr with rfl | hr
        · show a < k; omega
        · exact ho r hr

/-- Listing a value that an unlisted key does not hold keeps the canonical form. -/
theorem Tab.canon_ins [DecidableEq α] {d : Nat → α} {t : Tab α} {k : Nat} {v : α} (hv : v ≠ d k) (h : Tab.canon d t = true) :
    Tab.canon d (Tab.ins k v t) = true := by
  rw [Tab.canon_iff] at *
  refine ⟨Tab.ins_rising h.1, fun p hp => ?_⟩
  rcases Tab.mem_ins hp with rfl | hp
  · exact hv
  · exact h.2 p hp

theorem Tab.canon_put [DecidableEq α] {t : Tab α} {e : α} {k : Nat} {v : α} (h : Tab.canon (fun _ => e) t = true) :
    Tab.canon (fun _ => e) (Tab.put t e k v) = true := by
  unfold Tab.put
  split
  · exact Tab.canon_del k h
  · exact Tab.canon_ins (by assumption) h

end Sys2Proof.Machine
end

