-- ==== Sys2Proof/Laws/Kept.lean ====
section
/-!
SUPPORT. Sys2Proof/Laws/Kept.lean: what an operation may change. the laws of `Kept`. The files Laws/Frame*.lean give
one such lemma for every shared operation and for the meaning of every command.
-/
namespace Sys2Proof.Machine
open Sys2Proof

theorem Same.refl (p : Part) (s : State) : Same p s s := by cases p <;> rfl

theorem Same.trans {p : Part} {s t u : State} (h : Same p s t) (k : Same p t u) : Same p s u := by
  cases p <;> exact Eq.trans k h

theorem subParts.trans {l m n : List Part} (h : subParts l m = true) (k : subParts m n = true) : subParts l n = true := by
  simp only [subParts, List.all_eq_true] at *
  exact fun p hp => k p (by simpa using h p hp)

theorem subParts.mem {l m : List Part} {p : Part} (h : subParts l m = true) (k : l.contains p = true) : m.contains p = true := by
  simp only [subParts, List.all_eq_true] at h
  exact h p (by simpa using k)

variable {L M : List Part} {s t u : State}

theorem Kept.refl : Kept L s s := ⟨fun p _ => Same.refl p s, id, id⟩

theorem Kept.trans (h : Kept L s t) (k : Kept L t u) : Kept L s u :=
  ⟨fun p hp => (h.same p hp).trans (k.same p hp), k.regs ∘ h.regs, k.mem ∘ h.mem⟩

theorem Kept.mono (hs : subParts M L = true) (h : Kept M s t) : Kept L s t :=
  ⟨fun p hp => h.same p (by
    cases hq : M.contains p with
    | false => rfl
    | true =>
      simp only [subParts, List.all_eq_true] at hs
      have hm : p ∈ M := by simpa using hq
      rw [hs p hm] at hp
      cases hp), h.regs, h.mem⟩

/-- One operation after another. -/
theorem Kept.step (k : Kept M t u) (hs : subParts M L = true) (h : Kept L s t) : Kept L s u := h.trans (k.mono hs)

/-- An update of the state's record that leaves the registers and the banks' bytes alone. -/
theorem Kept.upd (hr : u.regs = t.regs) (hm : u.cores.mem = t.cores.mem) (hs : ∀ p, L.contains p = false → Same p t u) (h : Kept L s t) :
    Kept L s u :=
  h.trans ⟨hs, fun k => by simpa [regsCanon, hr] using k, fun k => by simpa [hm] using k⟩

theorem Kept.ite {c : Prop} [Decidable c] {a b : State} (h : Kept L s a) (k : Kept L s b) : Kept L s (if c then a else b) := by
  split <;> assumption

theorem Kept.fst {α : Type} {p : State × α} {a : α} (e : p = (u, a)) (h : Kept L s p.1) : Kept L s u := by subst e; exact h

/-- Through an intermediate state. -/
theorem Kept.gen {v : State} (h : Kept L s v) (g : Kept L s v → Kept L s t) : Kept L s t := g h

theorem Kept.foldl {α : Type} {f : State → α → State} (xs : List α) (g : ∀ v a, Kept L s v → Kept L s (f v a)) (h : Kept L s t) :
    Kept L s (xs.foldl f t) := by
  induction xs generalizing t with
  | nil => exact h
  | cons a xs ih => exact ih (g _ _ h)

theorem Kept.foldlFst {α β : Type} {f : State × β → α → State × β} {p : State × β} (xs : List α)
    (g : ∀ a x, Kept L s a.1 → Kept L s (f a x).1) (h : Kept L s p.1) : Kept L s (xs.foldl f p).1 := by
  induction xs generalizing p with
  | nil => exact h
  | cons a xs ih => exact ih (g _ _ h)

theorem State.each_kept {α : Type} {f : State → α → State} {xs : List α} (g : ∀ v a, Kept L s v → Kept L s (f v a)) (h : Kept L s t) :
    Kept L s (t.each xs f) := Kept.foldl xs g h

theorem State.when_kept {c : Bool} {f : State → State} (g : Kept L s t → Kept L s (f t)) (h : Kept L s t) : Kept L s (t.when c f) := by
  unfold State.when
  split
  · exact g h
  · exact h

/-! ### Updates of one field -/

theorem Kept.put_ctr {x} (h : Kept L s t) (m : L.contains .ctr = true) : Kept L s { t with ctr := x } :=
  Kept.upd (t := t) rfl rfl (fun p hp => by cases p <;> first | rfl | (rw [m] at hp; cases hp)) h

theorem Kept.put_rdata {x} (h : Kept L s t) (m : L.contains .rdata = true) : Kept L s { t with rdata := x } :=
  Kept.upd (t := t) rfl rfl (fun p hp => by cases p <;> first | rfl | (rw [m] at hp; cases hp)) h

theorem Kept.put_power {x} (h : Kept L s t) (m : L.contains .power = true) : Kept L s { t with power := x } :=
  Kept.upd (t := t) rfl rfl (fun p hp => by cases p <;> first | rfl | (rw [m] at hp; cases hp)) h

theorem Kept.put_host {x} (h : Kept L s t) (m : L.contains .host = true) : Kept L s { t with host := x } :=
  Kept.upd (t := t) rfl rfl (fun p hp => by cases p <;> first | rfl | (rw [m] at hp; cases hp)) h

theorem Kept.put_lanes {x} (h : Kept L s t) (m : L.contains .lanes = true) : Kept L s { t with lanes := x } :=
  Kept.upd (t := t) rfl rfl (fun p hp => by cases p <;> first | rfl | (rw [m] at hp; cases hp)) h

theorem Kept.put_ports {x} (h : Kept L s t) (m : L.contains .ports = true) : Kept L s { t with ports := x } :=
  Kept.upd (t := t) rfl rfl (fun p hp => by cases p <;> first | rfl | (rw [m] at hp; cases hp)) h

theorem Kept.put_pipes {x} (h : Kept L s t) (m : L.contains .pipes = true) : Kept L s { t with pipes := x } :=
  Kept.upd (t := t) rfl rfl (fun p hp => by cases p <;> first | rfl | (rw [m] at hp; cases hp)) h

theorem Kept.put_fabric {x} (h : Kept L s t) (m : L.contains .fabric = true) : Kept L s { t with fabric := x } :=
  Kept.upd (t := t) rfl rfl (fun p hp => by cases p <;> first | rfl | (rw [m] at hp; cases hp)) h

theorem Kept.put_servo {x} (h : Kept L s t) (m : L.contains .servo = true) : Kept L s { t with servo := x } :=
  Kept.upd (t := t) rfl rfl (fun p hp => by cases p <;> first | rfl | (rw [m] at hp; cases hp)) h

theorem Kept.put_cal {x} (h : Kept L s t) (m : L.contains .cal = true) : Kept L s { t with cal := x } :=
  Kept.upd (t := t) rfl rfl (fun p hp => by cases p <;> first | rfl | (rw [m] at hp; cases hp)) h

theorem Kept.put_refs {x} (h : Kept L s t) (m : L.contains .refs = true) : Kept L s { t with refs := x } :=
  Kept.upd (t := t) rfl rfl (fun p hp => by cases p <;> first | rfl | (rw [m] at hp; cases hp)) h

theorem Kept.put_meas {x} (h : Kept L s t) (m : L.contains .meas = true) : Kept L s { t with meas := x } :=
  Kept.upd (t := t) rfl rfl (fun p hp => by cases p <;> first | rfl | (rw [m] at hp; cases hp)) h

theorem Kept.put_redund {x} (h : Kept L s t) (m : L.contains .redund = true) : Kept L s { t with redund := x } :=
  Kept.upd (t := t) rfl rfl (fun p hp => by cases p <;> first | rfl | (rw [m] at hp; cases hp)) h

theorem Kept.put_waiting {x} (h : Kept L s t) (m : L.contains .waiting = true) : Kept L s { t with waiting := x } :=
  Kept.upd (t := t) rfl rfl (fun p hp => by cases p <;> first | rfl | (rw [m] at hp; cases hp)) h

theorem Kept.put_written {x} (h : Kept L s t) (m : L.contains .written = true) : Kept L s { t with written := x } :=
  Kept.upd (t := t) rfl rfl (fun p hp => by cases p <;> first | rfl | (rw [m] at hp; cases hp)) h

theorem Kept.put_line {x} (h : Kept L s t) (m : L.contains .line = true) : Kept L s { t with line := x } :=
  Kept.upd (t := t) rfl rfl (fun p hp => by cases p <;> first | rfl | (rw [m] at hp; cases hp)) h

theorem Kept.put_freeCtr {x} (h : Kept L s t) (m : L.contains .freeCtr = true) : Kept L s { t with freeCtr := x } :=
  Kept.upd (t := t) rfl rfl (fun p hp => by cases p <;> first | rfl | (rw [m] at hp; cases hp)) h

theorem Kept.put_pending {x} (h : Kept L s t) (m : L.contains .pending = true) : Kept L s { t with pending := x } :=
  Kept.upd (t := t) rfl rfl (fun p hp => by cases p <;> first | rfl | (rw [m] at hp; cases hp)) h

theorem Kept.put_time {x : TimeSt} (h : Kept L s t) (m : L.contains .time = true) (n : x.cnt = t.time.cnt) : Kept L s { t with time := x } :=
  Kept.upd (t := t) rfl rfl (fun p hp => by cases p <;> first | rfl | exact n | (rw [m] at hp; cases hp)) h

theorem Kept.put_timeCnt {x : TimeSt} (h : Kept L s t) (m : L.contains .time = true) (n : L.contains .cnt = true) :
    Kept L s { t with time := x } :=
  Kept.upd (t := t) rfl rfl (fun p hp => by cases p <;> first | rfl | (rw [m] at hp; cases hp) | (rw [n] at hp; cases hp)) h

theorem Kept.put_cnt {x : List Counter} (h : Kept L s t) (m : L.contains .cnt = true) :
    Kept L s { t with time := { t.time with cnt := x } } :=
  Kept.upd (t := t) rfl rfl (fun p hp => by cases p <;> first | rfl | (rw [m] at hp; cases hp)) h

theorem Kept.put_sec {x : SecSt} (h : Kept L s t) (m : L.contains .sec = true) (n : x.keys = t.sec.keys) : Kept L s { t with sec := x } :=
  Kept.upd (t := t) rfl rfl (fun p hp => by cases p <;> first | rfl | exact n | (rw [m] at hp; cases hp)) h

theorem Kept.put_secKeys {x : SecSt} (h : Kept L s t) (m : L.contains .sec = true) (n : L.contains .keys = true) :
    Kept L s { t with sec := x } :=
  Kept.upd (t := t) rfl rfl (fun p hp => by cases p <;> first | rfl | (rw [m] at hp; cases hp) | (rw [n] at hp; cases hp)) h

theorem Kept.put_cores {x : CoresSt} (h : Kept L s t) (m : L.contains .cores = true) (n : x.mem = t.cores.mem) :
    Kept L s { t with cores := x } :=
  Kept.upd (t := t) rfl n (fun p hp => by cases p <;> first | rfl | exact n | (rw [m] at hp; cases hp)) h

/-- A write of the banks' bytes that keeps their canonical form. -/
theorem Kept.put_mem {x : List Host.Cell} (h : Kept L s t) (m : L.contains .mem = true)
    (w : Memory.wf t.cores.mem = true → Memory.wf x = true) : Kept L s { t with cores := { t.cores with mem := x } } :=
  h.trans ⟨fun p hp => by cases p <;> first | rfl | (rw [m] at hp; cases hp), id, w⟩

/-- A write of the register table that keeps its canonical form. -/
theorem Kept.put_regs {x : Tab Word} (h : Kept L s t) (m : L.contains .regs = true)
    (w : Tab.canon RegMap.reset t.regs = true → Tab.canon RegMap.reset x = true) : Kept L s { t with regs := x } :=
  h.trans ⟨fun p hp => by cases p <;> first | rfl | (rw [m] at hp; cases hp), w, id⟩

end Sys2Proof.Machine
end

