-- ==== Sys2Proof/Laws/RegAt.lean ====
section
/-!
SUPPORT. Sys2Proof/Laws/RegAt.lean: the address of every register is the address its row of the register map gives its instance.
-/
namespace Sys2Proof.Machine

theorem AtReg.mk {R : List Nat} {b a : Nat} (h : R.contains b = true) (i j : Nat) (e : a = RegMap.addr b i j) : AtReg R a :=
  ⟨b, by simpa using h, i, j, e⟩

theorem Reg.globalId_at {R : List Nat} (h : R.contains Reg.globalId = true) : AtReg R Reg.globalId := AtReg.mk h 0 0 rfl

theorem Reg.globalBeat_at {R : List Nat} (h : R.contains Reg.globalBeat = true) : AtReg R Reg.globalBeat := AtReg.mk h 0 0 rfl

theorem Reg.globalBeatLen_at {R : List Nat} (h : R.contains Reg.globalBeatLen = true) : AtReg R Reg.globalBeatLen := AtReg.mk h 0 0 rfl

theorem Reg.globalLateFlags_at {R : List Nat} (h : R.contains Reg.globalLateFlags = true) : AtReg R Reg.globalLateFlags := AtReg.mk h 0 0 rfl

theorem Reg.globalLateCnt_at {R : List Nat} {i} (h : R.contains (Reg.globalLateCnt 0) = true) : AtReg R (Reg.globalLateCnt i) := AtReg.mk h i 0 rfl

theorem Reg.globalLateEvmask_at {R : List Nat} (h : R.contains Reg.globalLateEvmask = true) : AtReg R Reg.globalLateEvmask := AtReg.mk h 0 0 rfl

theorem Reg.globalSeq_at {R : List Nat} (h : R.contains Reg.globalSeq = true) : AtReg R Reg.globalSeq := AtReg.mk h 0 0 rfl

theorem Reg.globalResetCause_at {R : List Nat} (h : R.contains Reg.globalResetCause = true) : AtReg R Reg.globalResetCause := AtReg.mk h 0 0 rfl

theorem Reg.globalResetCtrl_at {R : List Nat} (h : R.contains Reg.globalResetCtrl = true) : AtReg R Reg.globalResetCtrl := AtReg.mk h 0 0 rfl

theorem Reg.globalWdtCtrl_at {R : List Nat} (h : R.contains Reg.globalWdtCtrl = true) : AtReg R Reg.globalWdtCtrl := AtReg.mk h 0 0 rfl

theorem Reg.globalWdtKick_at {R : List Nat} (h : R.contains Reg.globalWdtKick = true) : AtReg R Reg.globalWdtKick := AtReg.mk h 0 0 rfl

theorem Reg.globalProfile_at {R : List Nat} (h : R.contains Reg.globalProfile = true) : AtReg R Reg.globalProfile := AtReg.mk h 0 0 rfl

theorem Reg.globalBoot_at {R : List Nat} (h : R.contains Reg.globalBoot = true) : AtReg R Reg.globalBoot := AtReg.mk h 0 0 rfl

theorem Reg.globalPwrState_at {R : List Nat} (h : R.contains Reg.globalPwrState = true) : AtReg R Reg.globalPwrState := AtReg.mk h 0 0 rfl

theorem Reg.globalDipCtrl_at {R : List Nat} (h : R.contains Reg.globalDipCtrl = true) : AtReg R Reg.globalDipCtrl := AtReg.mk h 0 0 rfl

theorem Reg.globalDipStatus_at {R : List Nat} (h : R.contains Reg.globalDipStatus = true) : AtReg R Reg.globalDipStatus := AtReg.mk h 0 0 rfl

theorem Reg.hostifCfg_at {R : List Nat} (h : R.contains Reg.hostifCfg = true) : AtReg R Reg.hostifCfg := AtReg.mk h 0 0 rfl

theorem Reg.hostifDbAddrLo_at {R : List Nat} (h : R.contains Reg.hostifDbAddrLo = true) : AtReg R Reg.hostifDbAddrLo := AtReg.mk h 0 0 rfl

theorem Reg.hostifDbAddrHi_at {R : List Nat} (h : R.contains Reg.hostifDbAddrHi = true) : AtReg R Reg.hostifDbAddrHi := AtReg.mk h 0 0 rfl

theorem Reg.hostifStatAddrLo_at {R : List Nat} (h : R.contains Reg.hostifStatAddrLo = true) : AtReg R Reg.hostifStatAddrLo := AtReg.mk h 0 0 rfl

theorem Reg.hostifStatAddrHi_at {R : List Nat} (h : R.contains Reg.hostifStatAddrHi = true) : AtReg R Reg.hostifStatAddrHi := AtReg.mk h 0 0 rfl

theorem Reg.hostifCmd_at {R : List Nat} (h : R.contains Reg.hostifCmd = true) : AtReg R Reg.hostifCmd := AtReg.mk h 0 0 rfl

theorem Reg.hostifDma_at {R : List Nat} (h : R.contains Reg.hostifDma = true) : AtReg R Reg.hostifDma := AtReg.mk h 0 0 rfl

theorem Reg.hostifStatus_at {R : List Nat} (h : R.contains Reg.hostifStatus = true) : AtReg R Reg.hostifStatus := AtReg.mk h 0 0 rfl

theorem Reg.hostifEmerg_at {R : List Nat} (h : R.contains Reg.hostifEmerg = true) : AtReg R Reg.hostifEmerg := AtReg.mk h 0 0 rfl

theorem Reg.hostifCnt_at {R : List Nat} {i} (h : R.contains (Reg.hostifCnt 0) = true) : AtReg R (Reg.hostifCnt i) := AtReg.mk h i 0 rfl

theorem Reg.ringBaseLo_at {R : List Nat} {i} (h : R.contains (Reg.ringBaseLo 0) = true) : AtReg R (Reg.ringBaseLo i) := AtReg.mk h i 0 rfl

theorem Reg.ringBaseHi_at {R : List Nat} {i} (h : R.contains (Reg.ringBaseHi 0) = true) : AtReg R (Reg.ringBaseHi i) := AtReg.mk h i 0 rfl

theorem Reg.ringCfg_at {R : List Nat} {i} (h : R.contains (Reg.ringCfg 0) = true) : AtReg R (Reg.ringCfg i) := AtReg.mk h i 0 rfl

theorem Reg.ringStatus_at {R : List Nat} {i} (h : R.contains (Reg.ringStatus 0) = true) : AtReg R (Reg.ringStatus i) := AtReg.mk h i 0 rfl

theorem Reg.ringDevIdx_at {R : List Nat} {i} (h : R.contains (Reg.ringDevIdx 0) = true) : AtReg R (Reg.ringDevIdx i) := AtReg.mk h i 0 rfl

theorem Reg.ringHostIdx_at {R : List Nat} {i} (h : R.contains (Reg.ringHostIdx 0) = true) : AtReg R (Reg.ringHostIdx i) := AtReg.mk h i 0 rfl

theorem Reg.ringLoss_at {R : List Nat} {i} (h : R.contains (Reg.ringLoss 0) = true) : AtReg R (Reg.ringLoss i) := AtReg.mk h i 0 rfl

theorem Reg.coreStatus_at {R : List Nat} {i} (h : R.contains (Reg.coreStatus 0) = true) : AtReg R (Reg.coreStatus i) := AtReg.mk h i 0 rfl

theorem Reg.coreWdt_at {R : List Nat} {i} (h : R.contains (Reg.coreWdt 0) = true) : AtReg R (Reg.coreWdt i) := AtReg.mk h i 0 rfl

theorem Reg.coreMb_at {R : List Nat} {i} (h : R.contains (Reg.coreMb 0) = true) : AtReg R (Reg.coreMb i) := AtReg.mk h i 0 rfl

theorem Reg.coreTrapPc_at {R : List Nat} {i} (h : R.contains (Reg.coreTrapPc 0) = true) : AtReg R (Reg.coreTrapPc i) := AtReg.mk h i 0 rfl

theorem Reg.coreSkipped_at {R : List Nat} {i} (h : R.contains (Reg.coreSkipped 0) = true) : AtReg R (Reg.coreSkipped i) := AtReg.mk h i 0 rfl

theorem Reg.bankCtrl_at {R : List Nat} {i} (h : R.contains (Reg.bankCtrl 0) = true) : AtReg R (Reg.bankCtrl i) := AtReg.mk h i 0 rfl

theorem Reg.bankEcc_at {R : List Nat} {i} (h : R.contains (Reg.bankEcc 0) = true) : AtReg R (Reg.bankEcc i) := AtReg.mk h i 0 rfl

theorem Reg.bankFuse_at {R : List Nat} {i} (h : R.contains (Reg.bankFuse 0) = true) : AtReg R (Reg.bankFuse i) := AtReg.mk h i 0 rfl

theorem Reg.quad_at {R : List Nat} {i} (h : R.contains (Reg.quad 0) = true) : AtReg R (Reg.quad i) := AtReg.mk h i 0 rfl

theorem Reg.membankStatus_at {R : List Nat} (h : R.contains Reg.membankStatus = true) : AtReg R Reg.membankStatus := AtReg.mk h 0 0 rfl

theorem Reg.perfCntLo_at {R : List Nat} {i} {j} (h : R.contains (Reg.perfCntLo 0 0) = true) : AtReg R (Reg.perfCntLo i j) := AtReg.mk h i j rfl

theorem Reg.perfCntHi_at {R : List Nat} {i} {j} (h : R.contains (Reg.perfCntHi 0 0) = true) : AtReg R (Reg.perfCntHi i j) := AtReg.mk h i j rfl

theorem Reg.perfWrapLo_at {R : List Nat} {i} (h : R.contains (Reg.perfWrapLo 0) = true) : AtReg R (Reg.perfWrapLo i) := AtReg.mk h i 0 rfl

theorem Reg.perfWrapHi_at {R : List Nat} {i} (h : R.contains (Reg.perfWrapHi 0) = true) : AtReg R (Reg.perfWrapHi i) := AtReg.mk h i 0 rfl

theorem Reg.perfTagCfg_at {R : List Nat} {i} (h : R.contains (Reg.perfTagCfg 0) = true) : AtReg R (Reg.perfTagCfg i) := AtReg.mk h i 0 rfl

theorem Reg.perfTagStatus_at {R : List Nat} {i} (h : R.contains (Reg.perfTagStatus 0) = true) : AtReg R (Reg.perfTagStatus i) := AtReg.mk h i 0 rfl

theorem Reg.perfTagRec_at {R : List Nat} {i} {j} (h : R.contains (Reg.perfTagRec 0 0) = true) : AtReg R (Reg.perfTagRec i j) := AtReg.mk h i j rfl

theorem Reg.secStatus_at {R : List Nat} (h : R.contains Reg.secStatus = true) : AtReg R Reg.secStatus := AtReg.mk h 0 0 rfl

theorem Reg.secTamperCfg_at {R : List Nat} {i} (h : R.contains (Reg.secTamperCfg 0) = true) : AtReg R (Reg.secTamperCfg i) := AtReg.mk h i 0 rfl

theorem Reg.secTamperLock_at {R : List Nat} (h : R.contains Reg.secTamperLock = true) : AtReg R Reg.secTamperLock := AtReg.mk h 0 0 rfl

theorem Reg.secVsec_at {R : List Nat} (h : R.contains Reg.secVsec = true) : AtReg R Reg.secVsec := AtReg.mk h 0 0 rfl

theorem Reg.secLog_at {R : List Nat} {i} (h : R.contains (Reg.secLog 0) = true) : AtReg R (Reg.secLog i) := AtReg.mk h i 0 rfl

theorem Reg.updSvn_at {R : List Nat} {i} (h : R.contains (Reg.updSvn 0) = true) : AtReg R (Reg.updSvn i) := AtReg.mk h i 0 rfl

theorem Reg.updKeys_at {R : List Nat} (h : R.contains Reg.updKeys = true) : AtReg R Reg.updKeys := AtReg.mk h 0 0 rfl

theorem Reg.updStatus_at {R : List Nat} (h : R.contains Reg.updStatus = true) : AtReg R Reg.updStatus := AtReg.mk h 0 0 rfl

theorem Reg.updCompRun_at {R : List Nat} {i} (h : R.contains (Reg.updCompRun 0) = true) : AtReg R (Reg.updCompRun i) := AtReg.mk h i 0 rfl

theorem Reg.updCompStaged_at {R : List Nat} {i} (h : R.contains (Reg.updCompStaged 0) = true) : AtReg R (Reg.updCompStaged i) := AtReg.mk h i 0 rfl

theorem Reg.laneCfg_at {R : List Nat} {i} (h : R.contains (Reg.laneCfg 0) = true) : AtReg R (Reg.laneCfg i) := AtReg.mk h i 0 rfl

theorem Reg.laneTrain_at {R : List Nat} {i} (h : R.contains (Reg.laneTrain 0) = true) : AtReg R (Reg.laneTrain i) := AtReg.mk h i 0 rfl

theorem Reg.laneRelock_at {R : List Nat} {i} (h : R.contains (Reg.laneRelock 0) = true) : AtReg R (Reg.laneRelock i) := AtReg.mk h i 0 rfl

theorem Reg.laneStatus_at {R : List Nat} {i} (h : R.contains (Reg.laneStatus 0) = true) : AtReg R (Reg.laneStatus i) := AtReg.mk h i 0 rfl

theorem Reg.laneFom_at {R : List Nat} {i} (h : R.contains (Reg.laneFom 0) = true) : AtReg R (Reg.laneFom i) := AtReg.mk h i 0 rfl

theorem Reg.laneErrCnt_at {R : List Nat} {i} {j} (h : R.contains (Reg.laneErrCnt 0 0) = true) : AtReg R (Reg.laneErrCnt i j) := AtReg.mk h i j rfl

theorem Reg.laneLoop_at {R : List Nat} {i} (h : R.contains (Reg.laneLoop 0) = true) : AtReg R (Reg.laneLoop i) := AtReg.mk h i 0 rfl

theorem Reg.laneCalCfg_at {R : List Nat} {i} (h : R.contains (Reg.laneCalCfg 0) = true) : AtReg R (Reg.laneCalCfg i) := AtReg.mk h i 0 rfl

theorem Reg.laneCalPeriod_at {R : List Nat} {i} (h : R.contains (Reg.laneCalPeriod 0) = true) : AtReg R (Reg.laneCalPeriod i) := AtReg.mk h i 0 rfl

theorem Reg.laneCalStatus_at {R : List Nat} {i} (h : R.contains (Reg.laneCalStatus 0) = true) : AtReg R (Reg.laneCalStatus i) := AtReg.mk h i 0 rfl

theorem Reg.laneCalCount_at {R : List Nat} {i} (h : R.contains (Reg.laneCalCount 0) = true) : AtReg R (Reg.laneCalCount i) := AtReg.mk h i 0 rfl

theorem Reg.laneCalTimeFrac_at {R : List Nat} {i} (h : R.contains (Reg.laneCalTimeFrac 0) = true) : AtReg R (Reg.laneCalTimeFrac i) := AtReg.mk h i 0 rfl

theorem Reg.laneCalTimeNs_at {R : List Nat} {i} (h : R.contains (Reg.laneCalTimeNs 0) = true) : AtReg R (Reg.laneCalTimeNs i) := AtReg.mk h i 0 rfl

theorem Reg.laneCalTimeSecLo_at {R : List Nat} {i} (h : R.contains (Reg.laneCalTimeSecLo 0) = true) : AtReg R (Reg.laneCalTimeSecLo i) := AtReg.mk h i 0 rfl

theorem Reg.laneCalTimeSecHi_at {R : List Nat} {i} (h : R.contains (Reg.laneCalTimeSecHi 0) = true) : AtReg R (Reg.laneCalTimeSecHi i) := AtReg.mk h i 0 rfl

theorem Reg.laneCalCodes_at {R : List Nat} {i} (h : R.contains (Reg.laneCalCodes 0) = true) : AtReg R (Reg.laneCalCodes i) := AtReg.mk h i 0 rfl

theorem Reg.laneCalTxDelay_at {R : List Nat} {i} (h : R.contains (Reg.laneCalTxDelay 0) = true) : AtReg R (Reg.laneCalTxDelay i) := AtReg.mk h i 0 rfl

theorem Reg.laneCalRxDelay_at {R : List Nat} {i} (h : R.contains (Reg.laneCalRxDelay 0) = true) : AtReg R (Reg.laneCalRxDelay i) := AtReg.mk h i 0 rfl

theorem Reg.linkCfg_at {R : List Nat} {i} (h : R.contains (Reg.linkCfg 0) = true) : AtReg R (Reg.linkCfg i) := AtReg.mk h i 0 rfl

theorem Reg.linkTxExt_at {R : List Nat} {i} (h : R.contains (Reg.linkTxExt 0) = true) : AtReg R (Reg.linkTxExt i) := AtReg.mk h i 0 rfl

theorem Reg.linkRxExt_at {R : List Nat} {i} (h : R.contains (Reg.linkRxExt 0) = true) : AtReg R (Reg.linkRxExt i) := AtReg.mk h i 0 rfl

theorem Reg.linkPtxExt_at {R : List Nat} {i} (h : R.contains (Reg.linkPtxExt 0) = true) : AtReg R (Reg.linkPtxExt i) := AtReg.mk h i 0 rfl

theorem Reg.linkPrxExt_at {R : List Nat} {i} (h : R.contains (Reg.linkPrxExt 0) = true) : AtReg R (Reg.linkPrxExt i) := AtReg.mk h i 0 rfl

theorem Reg.linkCoef_at {R : List Nat} {i} (h : R.contains (Reg.linkCoef 0) = true) : AtReg R (Reg.linkCoef i) := AtReg.mk h i 0 rfl

theorem Reg.linkGdelay_at {R : List Nat} {i} (h : R.contains (Reg.linkGdelay 0) = true) : AtReg R (Reg.linkGdelay i) := AtReg.mk h i 0 rfl

theorem Reg.linkRtF_at {R : List Nat} {i} (h : R.contains (Reg.linkRtF 0) = true) : AtReg R (Reg.linkRtF i) := AtReg.mk h i 0 rfl

theorem Reg.linkAsymEffLo_at {R : List Nat} {i} (h : R.contains (Reg.linkAsymEffLo 0) = true) : AtReg R (Reg.linkAsymEffLo i) := AtReg.mk h i 0 rfl

theorem Reg.linkAsymEffHi_at {R : List Nat} {i} (h : R.contains (Reg.linkAsymEffHi 0) = true) : AtReg R (Reg.linkAsymEffHi i) := AtReg.mk h i 0 rfl

theorem Reg.laneGrp_at {R : List Nat} {i} (h : R.contains (Reg.laneGrp 0) = true) : AtReg R (Reg.laneGrp i) := AtReg.mk h i 0 rfl

theorem Reg.portCfg_at {R : List Nat} {i} (h : R.contains (Reg.portCfg 0) = true) : AtReg R (Reg.portCfg i) := AtReg.mk h i 0 rfl

theorem Reg.portPause_at {R : List Nat} {i} (h : R.contains (Reg.portPause 0) = true) : AtReg R (Reg.portPause i) := AtReg.mk h i 0 rfl

theorem Reg.portStorm_at {R : List Nat} {i} (h : R.contains (Reg.portStorm 0) = true) : AtReg R (Reg.portStorm i) := AtReg.mk h i 0 rfl

theorem Reg.portTcPri_at {R : List Nat} {i} {j} (h : R.contains (Reg.portTcPri 0 0) = true) : AtReg R (Reg.portTcPri i j) := AtReg.mk h i j rfl

theorem Reg.portMeas_at {R : List Nat} {i} (h : R.contains (Reg.portMeas 0) = true) : AtReg R (Reg.portMeas i) := AtReg.mk h i 0 rfl

theorem Reg.portPfcMap_at {R : List Nat} {i} {j} (h : R.contains (Reg.portPfcMap 0 0) = true) : AtReg R (Reg.portPfcMap i j) := AtReg.mk h i j rfl

theorem Reg.portPauseStatus_at {R : List Nat} {i} (h : R.contains (Reg.portPauseStatus 0) = true) : AtReg R (Reg.portPauseStatus i) := AtReg.mk h i 0 rfl

theorem Reg.portSaLo_at {R : List Nat} {i} (h : R.contains (Reg.portSaLo 0) = true) : AtReg R (Reg.portSaLo i) := AtReg.mk h i 0 rfl

theorem Reg.portSaHi_at {R : List Nat} {i} (h : R.contains (Reg.portSaHi 0) = true) : AtReg R (Reg.portSaHi i) := AtReg.mk h i 0 rfl

theorem Reg.portDaLo_at {R : List Nat} {i} {j} (h : R.contains (Reg.portDaLo 0 0) = true) : AtReg R (Reg.portDaLo i j) := AtReg.mk h i j rfl

theorem Reg.portDaHi_at {R : List Nat} {i} {j} (h : R.contains (Reg.portDaHi 0 0) = true) : AtReg R (Reg.portDaHi i j) := AtReg.mk h i j rfl

theorem Reg.portCntLo_at {R : List Nat} {i} {j} (h : R.contains (Reg.portCntLo 0 0) = true) : AtReg R (Reg.portCntLo i j) := AtReg.mk h i j rfl

theorem Reg.portCntHi_at {R : List Nat} {i} {j} (h : R.contains (Reg.portCntHi 0 0) = true) : AtReg R (Reg.portCntHi i j) := AtReg.mk h i j rfl

theorem Reg.portMod_at {R : List Nat} {i} (h : R.contains (Reg.portMod 0) = true) : AtReg R (Reg.portMod i) := AtReg.mk h i 0 rfl

theorem Reg.portI2c_at {R : List Nat} {i} (h : R.contains (Reg.portI2c 0) = true) : AtReg R (Reg.portI2c i) := AtReg.mk h i 0 rfl

theorem Reg.portSgpio_at {R : List Nat} (h : R.contains Reg.portSgpio = true) : AtReg R Reg.portSgpio := AtReg.mk h 0 0 rfl

theorem Reg.pipeParseCfg_at {R : List Nat} {i} (h : R.contains (Reg.pipeParseCfg 0) = true) : AtReg R (Reg.pipeParseCfg i) := AtReg.mk h i 0 rfl

theorem Reg.pipeTcDef_at {R : List Nat} {i} (h : R.contains (Reg.pipeTcDef 0) = true) : AtReg R (Reg.pipeTcDef i) := AtReg.mk h i 0 rfl

theorem Reg.pipePcpMap_at {R : List Nat} {i} (h : R.contains (Reg.pipePcpMap 0) = true) : AtReg R (Reg.pipePcpMap i) := AtReg.mk h i 0 rfl

theorem Reg.pipeGenStatus_at {R : List Nat} {i} (h : R.contains (Reg.pipeGenStatus 0) = true) : AtReg R (Reg.pipeGenStatus i) := AtReg.mk h i 0 rfl

theorem Reg.pipeGenCtrl_at {R : List Nat} {i} (h : R.contains (Reg.pipeGenCtrl 0) = true) : AtReg R (Reg.pipeGenCtrl i) := AtReg.mk h i 0 rfl

theorem Reg.pipeGenDrain_at {R : List Nat} {i} (h : R.contains (Reg.pipeGenDrain 0) = true) : AtReg R (Reg.pipeGenDrain i) := AtReg.mk h i 0 rfl

theorem Reg.pipeProgVer_at {R : List Nat} {i} (h : R.contains (Reg.pipeProgVer 0) = true) : AtReg R (Reg.pipeProgVer i) := AtReg.mk h i 0 rfl

theorem Reg.pipeFragCfg_at {R : List Nat} {i} (h : R.contains (Reg.pipeFragCfg 0) = true) : AtReg R (Reg.pipeFragCfg i) := AtReg.mk h i 0 rfl

theorem Reg.pipeFragStatus_at {R : List Nat} {i} (h : R.contains (Reg.pipeFragStatus 0) = true) : AtReg R (Reg.pipeFragStatus i) := AtReg.mk h i 0 rfl

theorem Reg.pipeWinCtrl_at {R : List Nat} {i} (h : R.contains (Reg.pipeWinCtrl 0) = true) : AtReg R (Reg.pipeWinCtrl i) := AtReg.mk h i 0 rfl

theorem Reg.pipeWinStatus_at {R : List Nat} {i} (h : R.contains (Reg.pipeWinStatus 0) = true) : AtReg R (Reg.pipeWinStatus i) := AtReg.mk h i 0 rfl

theorem Reg.pipeWinData_at {R : List Nat} {i} {j} (h : R.contains (Reg.pipeWinData 0 0) = true) : AtReg R (Reg.pipeWinData i j) := AtReg.mk h i j rfl

theorem Reg.pipeParseCntLo_at {R : List Nat} {i} {j} (h : R.contains (Reg.pipeParseCntLo 0 0) = true) : AtReg R (Reg.pipeParseCntLo i j) := AtReg.mk h i j rfl

theorem Reg.pipeParseCntHi_at {R : List Nat} {i} {j} (h : R.contains (Reg.pipeParseCntHi 0 0) = true) : AtReg R (Reg.pipeParseCntHi i j) := AtReg.mk h i j rfl

theorem Reg.pipeFwdCfg_at {R : List Nat} {i} (h : R.contains (Reg.pipeFwdCfg 0) = true) : AtReg R (Reg.pipeFwdCfg i) := AtReg.mk h i 0 rfl

theorem Reg.pipeConfirm_at {R : List Nat} {i} (h : R.contains (Reg.pipeConfirm 0) = true) : AtReg R (Reg.pipeConfirm i) := AtReg.mk h i 0 rfl

theorem Reg.pipeRouterMacLo_at {R : List Nat} {i} (h : R.contains (Reg.pipeRouterMacLo 0) = true) : AtReg R (Reg.pipeRouterMacLo i) := AtReg.mk h i 0 rfl

theorem Reg.pipeRouterMacHi_at {R : List Nat} {i} (h : R.contains (Reg.pipeRouterMacHi 0) = true) : AtReg R (Reg.pipeRouterMacHi i) := AtReg.mk h i 0 rfl

theorem Reg.pipeLearnStatus_at {R : List Nat} {i} (h : R.contains (Reg.pipeLearnStatus 0) = true) : AtReg R (Reg.pipeLearnStatus i) := AtReg.mk h i 0 rfl

theorem Reg.pipeMoveEpoch_at {R : List Nat} {i} (h : R.contains (Reg.pipeMoveEpoch 0) = true) : AtReg R (Reg.pipeMoveEpoch i) := AtReg.mk h i 0 rfl

theorem Reg.pipeMacUsed_at {R : List Nat} {i} (h : R.contains (Reg.pipeMacUsed 0) = true) : AtReg R (Reg.pipeMacUsed i) := AtReg.mk h i 0 rfl

theorem Reg.pipeLpmUsed_at {R : List Nat} {i} (h : R.contains (Reg.pipeLpmUsed 0) = true) : AtReg R (Reg.pipeLpmUsed i) := AtReg.mk h i 0 rfl

theorem Reg.pipePortL2_at {R : List Nat} {i} {j} (h : R.contains (Reg.pipePortL2 0 0) = true) : AtReg R (Reg.pipePortL2 i j) := AtReg.mk h i j rfl

theorem Reg.pipeLearnLimit_at {R : List Nat} {i} {j} (h : R.contains (Reg.pipeLearnLimit 0 0) = true) : AtReg R (Reg.pipeLearnLimit i j) := AtReg.mk h i j rfl

theorem Reg.pipeTwinCtrl_at {R : List Nat} {i} (h : R.contains (Reg.pipeTwinCtrl 0) = true) : AtReg R (Reg.pipeTwinCtrl i) := AtReg.mk h i 0 rfl

theorem Reg.pipeTwinStatus_at {R : List Nat} {i} (h : R.contains (Reg.pipeTwinStatus 0) = true) : AtReg R (Reg.pipeTwinStatus i) := AtReg.mk h i 0 rfl

theorem Reg.pipeTwinData_at {R : List Nat} {i} {j} (h : R.contains (Reg.pipeTwinData 0 0) = true) : AtReg R (Reg.pipeTwinData i j) := AtReg.mk h i j rfl

theorem Reg.pipeFwdCntLo_at {R : List Nat} {i} {j} (h : R.contains (Reg.pipeFwdCntLo 0 0) = true) : AtReg R (Reg.pipeFwdCntLo i j) := AtReg.mk h i j rfl

theorem Reg.pipeFwdCntHi_at {R : List Nat} {i} {j} (h : R.contains (Reg.pipeFwdCntHi 0 0) = true) : AtReg R (Reg.pipeFwdCntHi i j) := AtReg.mk h i j rfl

theorem Reg.fabricCfg_at {R : List Nat} (h : R.contains Reg.fabricCfg = true) : AtReg R Reg.fabricCfg := AtReg.mk h 0 0 rfl

theorem Reg.fabricPool_at {R : List Nat} (h : R.contains Reg.fabricPool = true) : AtReg R Reg.fabricPool := AtReg.mk h 0 0 rfl

theorem Reg.fabricMc_at {R : List Nat} (h : R.contains Reg.fabricMc = true) : AtReg R Reg.fabricMc := AtReg.mk h 0 0 rfl

theorem Reg.fabricStatus_at {R : List Nat} (h : R.contains Reg.fabricStatus = true) : AtReg R Reg.fabricStatus := AtReg.mk h 0 0 rfl

theorem Reg.fabricPort_at {R : List Nat} {i} (h : R.contains (Reg.fabricPort 0) = true) : AtReg R (Reg.fabricPort i) := AtReg.mk h i 0 rfl

theorem Reg.fabricSp_at {R : List Nat} {i} (h : R.contains (Reg.fabricSp 0) = true) : AtReg R (Reg.fabricSp i) := AtReg.mk h i 0 rfl

theorem Reg.eqLim_at {R : List Nat} {i} (h : R.contains (Reg.eqLim 0) = true) : AtReg R (Reg.eqLim i) := AtReg.mk h i 0 rfl

theorem Reg.eqSpill_at {R : List Nat} {i} (h : R.contains (Reg.eqSpill 0) = true) : AtReg R (Reg.eqSpill i) := AtReg.mk h i 0 rfl

theorem Reg.eqSched_at {R : List Nat} {i} (h : R.contains (Reg.eqSched 0) = true) : AtReg R (Reg.eqSched i) := AtReg.mk h i 0 rfl

theorem Reg.eqDepth_at {R : List Nat} {i} (h : R.contains (Reg.eqDepth 0) = true) : AtReg R (Reg.eqDepth i) := AtReg.mk h i 0 rfl

theorem Reg.eqOndie_at {R : List Nat} {i} (h : R.contains (Reg.eqOndie 0) = true) : AtReg R (Reg.eqOndie i) := AtReg.mk h i 0 rfl

theorem Reg.eqHwm_at {R : List Nat} {i} (h : R.contains (Reg.eqHwm 0) = true) : AtReg R (Reg.eqHwm i) := AtReg.mk h i 0 rfl

theorem Reg.iaTh_at {R : List Nat} {i} (h : R.contains (Reg.iaTh 0) = true) : AtReg R (Reg.iaTh i) := AtReg.mk h i 0 rfl

theorem Reg.iaHr_at {R : List Nat} {i} (h : R.contains (Reg.iaHr 0) = true) : AtReg R (Reg.iaHr i) := AtReg.mk h i 0 rfl

theorem Reg.iaDrop_at {R : List Nat} {i} (h : R.contains (Reg.iaDrop 0) = true) : AtReg R (Reg.iaDrop i) := AtReg.mk h i 0 rfl

theorem Reg.iaDepth_at {R : List Nat} {i} (h : R.contains (Reg.iaDepth 0) = true) : AtReg R (Reg.iaDepth i) := AtReg.mk h i 0 rfl

theorem Reg.fabricPcntLo_at {R : List Nat} {i} (h : R.contains (Reg.fabricPcntLo 0) = true) : AtReg R (Reg.fabricPcntLo i) := AtReg.mk h i 0 rfl

theorem Reg.fabricPcntHi_at {R : List Nat} {i} (h : R.contains (Reg.fabricPcntHi 0) = true) : AtReg R (Reg.fabricPcntHi i) := AtReg.mk h i 0 rfl

theorem Reg.fabricSample_at {R : List Nat} {i} (h : R.contains (Reg.fabricSample 0) = true) : AtReg R (Reg.fabricSample i) := AtReg.mk h i 0 rfl

theorem Reg.deepCfg_at {R : List Nat} (h : R.contains Reg.deepCfg = true) : AtReg R Reg.deepCfg := AtReg.mk h 0 0 rfl

theorem Reg.deepStatus_at {R : List Nat} (h : R.contains Reg.deepStatus = true) : AtReg R Reg.deepStatus := AtReg.mk h 0 0 rfl

theorem Reg.deepFree_at {R : List Nat} (h : R.contains Reg.deepFree = true) : AtReg R Reg.deepFree := AtReg.mk h 0 0 rfl

theorem Reg.deepBw_at {R : List Nat} (h : R.contains Reg.deepBw = true) : AtReg R Reg.deepBw := AtReg.mk h 0 0 rfl

theorem Reg.deepEccCorr_at {R : List Nat} {i} (h : R.contains (Reg.deepEccCorr 0) = true) : AtReg R (Reg.deepEccCorr i) := AtReg.mk h i 0 rfl

theorem Reg.deepEccUncorr_at {R : List Nat} {i} (h : R.contains (Reg.deepEccUncorr 0) = true) : AtReg R (Reg.deepEccUncorr i) := AtReg.mk h i 0 rfl

theorem Reg.tbStatus_at {R : List Nat} (h : R.contains Reg.tbStatus = true) : AtReg R Reg.tbStatus := AtReg.mk h 0 0 rfl

theorem Reg.tbClamp_at {R : List Nat} (h : R.contains Reg.tbClamp = true) : AtReg R Reg.tbClamp := AtReg.mk h 0 0 rfl

theorem Reg.tbSnapCtrl_at {R : List Nat} (h : R.contains Reg.tbSnapCtrl = true) : AtReg R Reg.tbSnapCtrl := AtReg.mk h 0 0 rfl

theorem Reg.tbStepFrac_at {R : List Nat} {i} (h : R.contains (Reg.tbStepFrac 0) = true) : AtReg R (Reg.tbStepFrac i) := AtReg.mk h i 0 rfl

theorem Reg.tbStepNs_at {R : List Nat} {i} (h : R.contains (Reg.tbStepNs 0) = true) : AtReg R (Reg.tbStepNs i) := AtReg.mk h i 0 rfl

theorem Reg.tbStepSecLo_at {R : List Nat} {i} (h : R.contains (Reg.tbStepSecLo 0) = true) : AtReg R (Reg.tbStepSecLo i) := AtReg.mk h i 0 rfl

theorem Reg.tbStepSecHi_at {R : List Nat} {i} (h : R.contains (Reg.tbStepSecHi 0) = true) : AtReg R (Reg.tbStepSecHi i) := AtReg.mk h i 0 rfl

theorem Reg.tbIncrLo_at {R : List Nat} {i} (h : R.contains (Reg.tbIncrLo 0) = true) : AtReg R (Reg.tbIncrLo i) := AtReg.mk h i 0 rfl

theorem Reg.tbIncrHi_at {R : List Nat} {i} (h : R.contains (Reg.tbIncrHi 0) = true) : AtReg R (Reg.tbIncrHi i) := AtReg.mk h i 0 rfl

theorem Reg.tbSnapFrac_at {R : List Nat} {i} (h : R.contains (Reg.tbSnapFrac 0) = true) : AtReg R (Reg.tbSnapFrac i) := AtReg.mk h i 0 rfl

theorem Reg.tbSnapNs_at {R : List Nat} {i} (h : R.contains (Reg.tbSnapNs 0) = true) : AtReg R (Reg.tbSnapNs i) := AtReg.mk h i 0 rfl

theorem Reg.tbSnapSecLo_at {R : List Nat} {i} (h : R.contains (Reg.tbSnapSecLo 0) = true) : AtReg R (Reg.tbSnapSecLo i) := AtReg.mk h i 0 rfl

theorem Reg.tbSnapSecHi_at {R : List Nat} {i} (h : R.contains (Reg.tbSnapSecHi 0) = true) : AtReg R (Reg.tbSnapSecHi i) := AtReg.mk h i 0 rfl

theorem Reg.tbLcompRx_at {R : List Nat} {i} (h : R.contains (Reg.tbLcompRx 0) = true) : AtReg R (Reg.tbLcompRx i) := AtReg.mk h i 0 rfl

theorem Reg.tbLcompTx_at {R : List Nat} {i} (h : R.contains (Reg.tbLcompTx 0) = true) : AtReg R (Reg.tbLcompTx i) := AtReg.mk h i 0 rfl

theorem Reg.iuEdges_at {R : List Nat} {i} (h : R.contains (Reg.iuEdges 0) = true) : AtReg R (Reg.iuEdges i) := AtReg.mk h i 0 rfl

theorem Reg.iuMerged_at {R : List Nat} {i} (h : R.contains (Reg.iuMerged 0) = true) : AtReg R (Reg.iuMerged i) := AtReg.mk h i 0 rfl

theorem Reg.iuOrphans_at {R : List Nat} {i} (h : R.contains (Reg.iuOrphans 0) = true) : AtReg R (Reg.iuOrphans i) := AtReg.mk h i 0 rfl

theorem Reg.iuStatus_at {R : List Nat} {i} (h : R.contains (Reg.iuStatus 0) = true) : AtReg R (Reg.iuStatus i) := AtReg.mk h i 0 rfl

theorem Reg.iucalCfg_at {R : List Nat} (h : R.contains Reg.iucalCfg = true) : AtReg R Reg.iucalCfg := AtReg.mk h 0 0 rfl

theorem Reg.iucalPeriod_at {R : List Nat} (h : R.contains Reg.iucalPeriod = true) : AtReg R Reg.iucalPeriod := AtReg.mk h 0 0 rfl

theorem Reg.iucalState_at {R : List Nat} {i} (h : R.contains (Reg.iucalState 0) = true) : AtReg R (Reg.iucalState i) := AtReg.mk h i 0 rfl

theorem Reg.iucalCount_at {R : List Nat} {i} (h : R.contains (Reg.iucalCount 0) = true) : AtReg R (Reg.iucalCount i) := AtReg.mk h i 0 rfl

theorem Reg.iucalTimeFrac_at {R : List Nat} {i} (h : R.contains (Reg.iucalTimeFrac 0) = true) : AtReg R (Reg.iucalTimeFrac i) := AtReg.mk h i 0 rfl

theorem Reg.iucalTimeNs_at {R : List Nat} {i} (h : R.contains (Reg.iucalTimeNs 0) = true) : AtReg R (Reg.iucalTimeNs i) := AtReg.mk h i 0 rfl

theorem Reg.iucalTimeSecLo_at {R : List Nat} {i} (h : R.contains (Reg.iucalTimeSecLo 0) = true) : AtReg R (Reg.iucalTimeSecLo i) := AtReg.mk h i 0 rfl

theorem Reg.iucalTimeSecHi_at {R : List Nat} {i} (h : R.contains (Reg.iucalTimeSecHi 0) = true) : AtReg R (Reg.iucalTimeSecHi i) := AtReg.mk h i 0 rfl

theorem Reg.iucalSeg01_at {R : List Nat} {i} (h : R.contains (Reg.iucalSeg01 0) = true) : AtReg R (Reg.iucalSeg01 i) := AtReg.mk h i 0 rfl

theorem Reg.iucalSeg23_at {R : List Nat} {i} (h : R.contains (Reg.iucalSeg23 0) = true) : AtReg R (Reg.iucalSeg23 i) := AtReg.mk h i 0 rfl

theorem Reg.servoStatus_at {R : List Nat} (h : R.contains Reg.servoStatus = true) : AtReg R Reg.servoStatus := AtReg.mk h 0 0 rfl

theorem Reg.servoTc_at {R : List Nat} {i} (h : R.contains (Reg.servoTc 0) = true) : AtReg R (Reg.servoTc i) := AtReg.mk h i 0 rfl

theorem Reg.slotCfg_at {R : List Nat} {i} (h : R.contains (Reg.slotCfg 0) = true) : AtReg R (Reg.slotCfg i) := AtReg.mk h i 0 rfl

theorem Reg.slotIvl_at {R : List Nat} {i} (h : R.contains (Reg.slotIvl 0) = true) : AtReg R (Reg.slotIvl i) := AtReg.mk h i 0 rfl

theorem Reg.slotTimeout_at {R : List Nat} {i} (h : R.contains (Reg.slotTimeout 0) = true) : AtReg R (Reg.slotTimeout i) := AtReg.mk h i 0 rfl

theorem Reg.slotKp_at {R : List Nat} {i} (h : R.contains (Reg.slotKp 0) = true) : AtReg R (Reg.slotKp i) := AtReg.mk h i 0 rfl

theorem Reg.slotKi_at {R : List Nat} {i} (h : R.contains (Reg.slotKi 0) = true) : AtReg R (Reg.slotKi i) := AtReg.mk h i 0 rfl

theorem Reg.slotKi2_at {R : List Nat} {i} (h : R.contains (Reg.slotKi2 0) = true) : AtReg R (Reg.slotKi2 i) := AtReg.mk h i 0 rfl

theorem Reg.slotKph_at {R : List Nat} {i} (h : R.contains (Reg.slotKph 0) = true) : AtReg R (Reg.slotKph i) := AtReg.mk h i 0 rfl

theorem Reg.slotJump_at {R : List Nat} {i} (h : R.contains (Reg.slotJump 0) = true) : AtReg R (Reg.slotJump i) := AtReg.mk h i 0 rfl

theorem Reg.slotStep_at {R : List Nat} {i} (h : R.contains (Reg.slotStep 0) = true) : AtReg R (Reg.slotStep i) := AtReg.mk h i 0 rfl

theorem Reg.slotLock_at {R : List Nat} {i} (h : R.contains (Reg.slotLock 0) = true) : AtReg R (Reg.slotLock i) := AtReg.mk h i 0 rfl

theorem Reg.slotPull_at {R : List Nat} {i} (h : R.contains (Reg.slotPull 0) = true) : AtReg R (Reg.slotPull i) := AtReg.mk h i 0 rfl

theorem Reg.slotOutlier_at {R : List Nat} {i} (h : R.contains (Reg.slotOutlier 0) = true) : AtReg R (Reg.slotOutlier i) := AtReg.mk h i 0 rfl

theorem Reg.slotStatus_at {R : List Nat} {i} (h : R.contains (Reg.slotStatus 0) = true) : AtReg R (Reg.slotStatus i) := AtReg.mk h i 0 rfl

theorem Reg.slotLate_at {R : List Nat} {i} (h : R.contains (Reg.slotLate 0) = true) : AtReg R (Reg.slotLate i) := AtReg.mk h i 0 rfl

theorem Reg.slotOfsLo_at {R : List Nat} {i} (h : R.contains (Reg.slotOfsLo 0) = true) : AtReg R (Reg.slotOfsLo i) := AtReg.mk h i 0 rfl

theorem Reg.slotOfsHi_at {R : List Nat} {i} (h : R.contains (Reg.slotOfsHi 0) = true) : AtReg R (Reg.slotOfsHi i) := AtReg.mk h i 0 rfl

theorem Reg.candCfg_at {R : List Nat} {i} (h : R.contains (Reg.candCfg 0) = true) : AtReg R (Reg.candCfg i) := AtReg.mk h i 0 rfl

theorem Reg.candNom_at {R : List Nat} {i} (h : R.contains (Reg.candNom 0) = true) : AtReg R (Reg.candNom i) := AtReg.mk h i 0 rfl

theorem Reg.candNomf_at {R : List Nat} {i} (h : R.contains (Reg.candNomf 0) = true) : AtReg R (Reg.candNomf i) := AtReg.mk h i 0 rfl

theorem Reg.candQual_at {R : List Nat} {i} (h : R.contains (Reg.candQual 0) = true) : AtReg R (Reg.candQual i) := AtReg.mk h i 0 rfl

theorem Reg.candWindow_at {R : List Nat} {i} (h : R.contains (Reg.candWindow 0) = true) : AtReg R (Reg.candWindow i) := AtReg.mk h i 0 rfl

theorem Reg.candOffset_at {R : List Nat} {i} (h : R.contains (Reg.candOffset 0) = true) : AtReg R (Reg.candOffset i) := AtReg.mk h i 0 rfl

theorem Reg.candStatus_at {R : List Nat} {i} (h : R.contains (Reg.candStatus 0) = true) : AtReg R (Reg.candStatus i) := AtReg.mk h i 0 rfl

theorem Reg.candFreq_at {R : List Nat} {i} (h : R.contains (Reg.candFreq 0) = true) : AtReg R (Reg.candFreq i) := AtReg.mk h i 0 rfl

theorem Reg.dpllCfg_at {R : List Nat} {i} (h : R.contains (Reg.dpllCfg 0) = true) : AtReg R (Reg.dpllCfg i) := AtReg.mk h i 0 rfl

theorem Reg.dpllBw_at {R : List Nat} {i} (h : R.contains (Reg.dpllBw 0) = true) : AtReg R (Reg.dpllBw i) := AtReg.mk h i 0 rfl

theorem Reg.dpllSlope_at {R : List Nat} {i} (h : R.contains (Reg.dpllSlope 0) = true) : AtReg R (Reg.dpllSlope i) := AtReg.mk h i 0 rfl

theorem Reg.dpllDispute_at {R : List Nat} {i} (h : R.contains (Reg.dpllDispute 0) = true) : AtReg R (Reg.dpllDispute i) := AtReg.mk h i 0 rfl

theorem Reg.dpllHist_at {R : List Nat} {i} (h : R.contains (Reg.dpllHist 0) = true) : AtReg R (Reg.dpllHist i) := AtReg.mk h i 0 rfl

theorem Reg.dpllAge_at {R : List Nat} {i} (h : R.contains (Reg.dpllAge 0) = true) : AtReg R (Reg.dpllAge i) := AtReg.mk h i 0 rfl

theorem Reg.dpllHoY0_at {R : List Nat} {i} (h : R.contains (Reg.dpllHoY0 0) = true) : AtReg R (Reg.dpllHoY0 i) := AtReg.mk h i 0 rfl

theorem Reg.dpllHoA_at {R : List Nat} {i} (h : R.contains (Reg.dpllHoA 0) = true) : AtReg R (Reg.dpllHoA i) := AtReg.mk h i 0 rfl

theorem Reg.dpllHoSpec_at {R : List Nat} {i} (h : R.contains (Reg.dpllHoSpec 0) = true) : AtReg R (Reg.dpllHoSpec i) := AtReg.mk h i 0 rfl

theorem Reg.dpllStatus_at {R : List Nat} {i} (h : R.contains (Reg.dpllStatus 0) = true) : AtReg R (Reg.dpllStatus i) := AtReg.mk h i 0 rfl

theorem Reg.dpllHoTts_at {R : List Nat} {i} (h : R.contains (Reg.dpllHoTts 0) = true) : AtReg R (Reg.dpllHoTts i) := AtReg.mk h i 0 rfl

theorem Reg.dpllSwMiss_at {R : List Nat} {i} (h : R.contains (Reg.dpllSwMiss 0) = true) : AtReg R (Reg.dpllSwMiss i) := AtReg.mk h i 0 rfl

theorem Reg.dpllPrioLo_at {R : List Nat} {i} (h : R.contains (Reg.dpllPrioLo 0) = true) : AtReg R (Reg.dpllPrioLo i) := AtReg.mk h i 0 rfl

theorem Reg.dpllPrioHi_at {R : List Nat} {i} (h : R.contains (Reg.dpllPrioHi 0) = true) : AtReg R (Reg.dpllPrioHi i) := AtReg.mk h i 0 rfl

theorem Reg.dpllPhaseLo_at {R : List Nat} {i} (h : R.contains (Reg.dpllPhaseLo 0) = true) : AtReg R (Reg.dpllPhaseLo i) := AtReg.mk h i 0 rfl

theorem Reg.dpllPhaseHi_at {R : List Nat} {i} (h : R.contains (Reg.dpllPhaseHi 0) = true) : AtReg R (Reg.dpllPhaseHi i) := AtReg.mk h i 0 rfl

theorem Reg.dpllSwrateLo_at {R : List Nat} {i} (h : R.contains (Reg.dpllSwrateLo 0) = true) : AtReg R (Reg.dpllSwrateLo i) := AtReg.mk h i 0 rfl

theorem Reg.dpllSwrateHi_at {R : List Nat} {i} (h : R.contains (Reg.dpllSwrateHi 0) = true) : AtReg R (Reg.dpllSwrateHi i) := AtReg.mk h i 0 rfl

theorem Reg.dpllHistIncrLo_at {R : List Nat} {i} (h : R.contains (Reg.dpllHistIncrLo 0) = true) : AtReg R (Reg.dpllHistIncrLo i) := AtReg.mk h i 0 rfl

theorem Reg.dpllHistIncrHi_at {R : List Nat} {i} (h : R.contains (Reg.dpllHistIncrHi 0) = true) : AtReg R (Reg.dpllHistIncrHi i) := AtReg.mk h i 0 rfl

theorem Reg.synCfg_at {R : List Nat} {i} (h : R.contains (Reg.synCfg 0) = true) : AtReg R (Reg.synCfg i) := AtReg.mk h i 0 rfl

theorem Reg.synFb_at {R : List Nat} {i} (h : R.contains (Reg.synFb 0) = true) : AtReg R (Reg.synFb i) := AtReg.mk h i 0 rfl

theorem Reg.synStatus_at {R : List Nat} {i} (h : R.contains (Reg.synStatus 0) = true) : AtReg R (Reg.synStatus i) := AtReg.mk h i 0 rfl

theorem Reg.clkout_at {R : List Nat} {i} (h : R.contains (Reg.clkout 0) = true) : AtReg R (Reg.clkout i) := AtReg.mk h i 0 rfl

theorem Reg.evinCfg_at {R : List Nat} {i} (h : R.contains (Reg.evinCfg 0) = true) : AtReg R (Reg.evinCfg i) := AtReg.mk h i 0 rfl

theorem Reg.evinHoldoffCfg_at {R : List Nat} {i} (h : R.contains (Reg.evinHoldoffCfg 0) = true) : AtReg R (Reg.evinHoldoffCfg i) := AtReg.mk h i 0 rfl

theorem Reg.evinHoldoff_at {R : List Nat} {i} (h : R.contains (Reg.evinHoldoff 0) = true) : AtReg R (Reg.evinHoldoff i) := AtReg.mk h i 0 rfl

theorem Reg.imCfg_at {R : List Nat} {i} (h : R.contains (Reg.imCfg 0) = true) : AtReg R (Reg.imCfg i) := AtReg.mk h i 0 rfl

theorem Reg.imStopsLo_at {R : List Nat} {i} (h : R.contains (Reg.imStopsLo 0) = true) : AtReg R (Reg.imStopsLo i) := AtReg.mk h i 0 rfl

theorem Reg.imStopsHi_at {R : List Nat} {i} (h : R.contains (Reg.imStopsHi 0) = true) : AtReg R (Reg.imStopsHi i) := AtReg.mk h i 0 rfl

theorem Reg.imWindow_at {R : List Nat} {i} (h : R.contains (Reg.imWindow 0) = true) : AtReg R (Reg.imWindow i) := AtReg.mk h i 0 rfl

theorem Reg.fmCfg_at {R : List Nat} {i} (h : R.contains (Reg.fmCfg 0) = true) : AtReg R (Reg.fmCfg i) := AtReg.mk h i 0 rfl

theorem Reg.fmGate_at {R : List Nat} {i} (h : R.contains (Reg.fmGate 0) = true) : AtReg R (Reg.fmGate i) := AtReg.mk h i 0 rfl

theorem Reg.fmStatus_at {R : List Nat} {i} (h : R.contains (Reg.fmStatus 0) = true) : AtReg R (Reg.fmStatus i) := AtReg.mk h i 0 rfl

theorem Reg.fmSkipped_at {R : List Nat} {i} (h : R.contains (Reg.fmSkipped 0) = true) : AtReg R (Reg.fmSkipped i) := AtReg.mk h i 0 rfl

theorem Reg.fmAbandoned_at {R : List Nat} {i} (h : R.contains (Reg.fmAbandoned 0) = true) : AtReg R (Reg.fmAbandoned i) := AtReg.mk h i 0 rfl

theorem Reg.evoutCfg_at {R : List Nat} {i} (h : R.contains (Reg.evoutCfg 0) = true) : AtReg R (Reg.evoutCfg i) := AtReg.mk h i 0 rfl

theorem Reg.evoutStartFrac_at {R : List Nat} {i} (h : R.contains (Reg.evoutStartFrac 0) = true) : AtReg R (Reg.evoutStartFrac i) := AtReg.mk h i 0 rfl

theorem Reg.evoutStartNs_at {R : List Nat} {i} (h : R.contains (Reg.evoutStartNs 0) = true) : AtReg R (Reg.evoutStartNs i) := AtReg.mk h i 0 rfl

theorem Reg.evoutStartSecLo_at {R : List Nat} {i} (h : R.contains (Reg.evoutStartSecLo 0) = true) : AtReg R (Reg.evoutStartSecLo i) := AtReg.mk h i 0 rfl

theorem Reg.evoutStartSecHi_at {R : List Nat} {i} (h : R.contains (Reg.evoutStartSecHi 0) = true) : AtReg R (Reg.evoutStartSecHi i) := AtReg.mk h i 0 rfl

theorem Reg.evoutPeriodNs_at {R : List Nat} {i} (h : R.contains (Reg.evoutPeriodNs 0) = true) : AtReg R (Reg.evoutPeriodNs i) := AtReg.mk h i 0 rfl

theorem Reg.evoutPeriodFrac_at {R : List Nat} {i} (h : R.contains (Reg.evoutPeriodFrac 0) = true) : AtReg R (Reg.evoutPeriodFrac i) := AtReg.mk h i 0 rfl

theorem Reg.evoutWidth_at {R : List Nat} {i} (h : R.contains (Reg.evoutWidth 0) = true) : AtReg R (Reg.evoutWidth i) := AtReg.mk h i 0 rfl

theorem Reg.evoutCount_at {R : List Nat} {i} (h : R.contains (Reg.evoutCount 0) = true) : AtReg R (Reg.evoutCount i) := AtReg.mk h i 0 rfl

theorem Reg.evoutStatus_at {R : List Nat} {i} (h : R.contains (Reg.evoutStatus 0) = true) : AtReg R (Reg.evoutStatus i) := AtReg.mk h i 0 rfl

theorem Reg.evoutSkipped_at {R : List Nat} {i} (h : R.contains (Reg.evoutSkipped 0) = true) : AtReg R (Reg.evoutSkipped i) := AtReg.mk h i 0 rfl

theorem Reg.measLost_at {R : List Nat} {i} (h : R.contains (Reg.measLost 0) = true) : AtReg R (Reg.measLost i) := AtReg.mk h i 0 rfl

theorem Reg.redundCfg_at {R : List Nat} (h : R.contains Reg.redundCfg = true) : AtReg R Reg.redundCfg := AtReg.mk h 0 0 rfl

theorem Reg.redundStatus_at {R : List Nat} (h : R.contains Reg.redundStatus = true) : AtReg R Reg.redundStatus := AtReg.mk h 0 0 rfl

theorem Reg.redundHb_at {R : List Nat} (h : R.contains Reg.redundHb = true) : AtReg R Reg.redundHb := AtReg.mk h 0 0 rfl

theorem Reg.redundShared_at {R : List Nat} (h : R.contains Reg.redundShared = true) : AtReg R Reg.redundShared := AtReg.mk h 0 0 rfl

theorem Reg.redundCnt_at {R : List Nat} {i} (h : R.contains (Reg.redundCnt 0) = true) : AtReg R (Reg.redundCnt i) := AtReg.mk h i 0 rfl

theorem Reg.msixAddrLo_at {R : List Nat} {i} (h : R.contains (Reg.msixAddrLo 0) = true) : AtReg R (Reg.msixAddrLo i) := AtReg.mk h i 0 rfl

theorem Reg.msixAddrHi_at {R : List Nat} {i} (h : R.contains (Reg.msixAddrHi 0) = true) : AtReg R (Reg.msixAddrHi i) := AtReg.mk h i 0 rfl

theorem Reg.msixData_at {R : List Nat} {i} (h : R.contains (Reg.msixData 0) = true) : AtReg R (Reg.msixData i) := AtReg.mk h i 0 rfl

theorem Reg.msixCtrl_at {R : List Nat} {i} (h : R.contains (Reg.msixCtrl 0) = true) : AtReg R (Reg.msixCtrl i) := AtReg.mk h i 0 rfl

theorem Reg.msixPba_at {R : List Nat} {i} (h : R.contains (Reg.msixPba 0) = true) : AtReg R (Reg.msixPba i) := AtReg.mk h i 0 rfl

end Sys2Proof.Machine
end

