-- ==== Sys2Proof/Laws/Reg.lean ====
section
/-!
SUPPORT. Sys2Proof/Laws/Reg.lean: reading a register or a field of one after writing one; the laws of `Writes`, which says which register rows
an operation may change. The files Laws/Writes*.lean give one such lemma for every shared operation.
-/
namespace Sys2Proof.Machine
open Sys2Proof

/-! ### Reading after writing -/

theorem State.reg_setReg (s : State) (a b : Nat) (w : Word) : (s.setReg a w).reg b = if b = a then w else s.reg b := by
  unfold State.reg State.setReg
  dsimp only
  by_cases e : b = a
  · subst e
    by_cases h : w = RegMap.reset b <;> simp [h]
  · by_cases h : w = RegMap.reset a <;> simp [e, h, Tab.find_del_other e, Tab.find_ins_other e]

@[simp] theorem State.reg_setReg_same (s : State) (a : Nat) (w : Word) : (s.setReg a w).reg a = w := by simp [State.reg_setReg]

theorem State.reg_setReg_other (s : State) {a b : Nat} (w : Word) (h : b ≠ a) : (s.setReg a w).reg b = s.reg b := by
  simp [State.reg_setReg, h]

/-- A field reads what was set in it, cut to its width. -/
theorem Fld.of_upd (f : Fld) (w : Word) (v : Nat) (h : f.lo + f.len ≤ 32) : f.of (f.upd w v) = v % 2 ^ f.len := by
  obtain ⟨a, lo, len⟩ := f
  simp only [Fld.of, Fld.upd, Fld.mask] at *
  apply Nat.eq_of_testBit_eq
  intro i
  simp only [BitVec.testBit_toNat, BitVec.getLsbD_extractLsb', BitVec.getLsbD_or, BitVec.getLsbD_and, BitVec.getLsbD_not, BitVec.getLsbD_shiftLeft,
    BitVec.getLsbD_ofNat, Nat.testBit_mod_two_pow, Nat.testBit_mul_two_pow, Nat.testBit_two_pow_sub_one]
  by_cases hi : i < len
  · have h1 : lo + i < 32 := by omega
    have h2 : i < 32 := by omega
    simp [hi, h1, h2]
  · simp [hi]

/-- Setting one field leaves another of the same register alone where they share no bit. -/
theorem Fld.of_upd_other (f g : Fld) (w : Word) (v : Nat) (h : f.lo + f.len ≤ g.lo ∨ g.lo + g.len ≤ f.lo) : g.of (f.upd w v) = g.of w := by
  obtain ⟨a, lo, len⟩ := f
  obtain ⟨b, lo', len'⟩ := g
  simp only [Fld.of, Fld.upd, Fld.mask] at *
  apply Nat.eq_of_testBit_eq
  intro i
  simp only [BitVec.testBit_toNat, BitVec.getLsbD_extractLsb', BitVec.getLsbD_or, BitVec.getLsbD_and, BitVec.getLsbD_not, BitVec.getLsbD_shiftLeft,
    BitVec.getLsbD_ofNat, Nat.testBit_mod_two_pow, Nat.testBit_mul_two_pow, Nat.testBit_two_pow_sub_one]
  by_cases hi : i < len'
  · by_cases h1 : lo' + i < 32
    · rcases h with h | h
      · have : ¬(lo' + i - lo < len) := by omega
        simp [hi, h1, this]
      · have : lo' + i < lo := by omega
        have h3 : ¬(lo ≤ lo' + i) := by omega
        simp [hi, h1, this, h3]
    · simp [hi, h1, BitVec.getLsbD_of_ge w (lo' + i) (by omega)]
  · simp [hi]

theorem State.fld_setF (s : State) (f : Fld) (v : Nat) (h : f.lo + f.len ≤ 32) : (s.setF f v).fld f = v % 2 ^ f.len := by
  simp [State.fld, State.setF, Fld.of_upd f _ v h]

theorem State.fld_setF_reg (s : State) {f g : Fld} (v : Nat) (h : g.addr ≠ f.addr) : (s.setF f v).fld g = s.fld g := by
  simp [State.fld, State.setF, State.reg_setReg, h]

theorem State.fld_setF_other (s : State) {f g : Fld} (v : Nat) (h : f.lo + f.len ≤ g.lo ∨ g.lo + g.len ≤ f.lo) :
    (s.setF f v).fld g = s.fld g := by
  by_cases e : g.addr = f.addr
  · simp [State.fld, State.setF, e, Fld.of_upd_other f g _ v h]
  · exact State.fld_setF_reg s v e

/-! ### The laws of `Writes` -/

variable {R Q : List Nat} {s t u : State}

theorem AtReg.mono {a : Nat} (h : Q.all R.contains = true) (k : AtReg Q a) : AtReg R a := by
  obtain ⟨b, hb, i, j, e⟩ := k
  exact ⟨b, by simpa using List.all_eq_true.1 h b hb, i, j, e⟩

theorem List.all_trans {a b c : List Nat} (h : a.all b.contains = true) (k : b.all c.contains = true) : a.all c.contains = true := by
  simp only [List.all_eq_true] at *
  exact fun x hx => k x (by simpa using h x hx)

theorem AtReg.of_all {b : Nat} (h : Q.all R.contains = true) (k : Q.contains b = true) : R.contains b = true :=
  List.all_eq_true.1 h b (by simpa using k)

theorem Writes.refl : Writes R s s := ⟨fun _ _ => rfl⟩

theorem Writes.trans (h : Writes R s t) (k : Writes R t u) : Writes R s u :=
  ⟨fun a ha => (k.same a ha).trans (h.same a ha)⟩

/-- One operation after another. -/
theorem Writes.step (k : Writes Q t u) (hs : Q.all R.contains = true) (h : Writes R s t) : Writes R s u :=
  h.trans ⟨fun a ha => k.same a fun c => ha (c.mono hs)⟩

/-- An operation that leaves the registers alone. -/
theorem Writes.kept {L : List Part} (k : Kept L t u) (n : L.contains .regs = false) (h : Writes R s t) : Writes R s u :=
  h.trans ⟨fun a _ => by
    have e : u.regs = t.regs := k.same .regs n
    simp only [State.reg, e]⟩

theorem Writes.setReg {a : Nat} {w : Word} (m : AtReg R a) (h : Writes R s t) : Writes R s (t.setReg a w) :=
  h.trans ⟨fun _ hb => State.reg_setReg_other t w fun e => hb (e ▸ m)⟩

theorem Writes.setF {f : Fld} {v : Nat} (m : AtReg R f.addr) (h : Writes R s t) : Writes R s (t.setF f v) := Writes.setReg m h

theorem Writes.bump {f : Fld} {n : Nat} (m : AtReg R f.addr) (h : Writes R s t) : Writes R s (t.bump f n) := Writes.setReg m h

theorem Writes.putRw {a : Nat} {w : Word} (m : AtReg R a) (h : Writes R s t) : Writes R s (t.putRw a w) := Writes.setReg m h

theorem Writes.putW1c {a : Nat} {w : Word} (m : AtReg R a) (h : Writes R s t) : Writes R s (t.putW1c a w) := by
  unfold State.putW1c
  split
  · exact Writes.setReg m h
  · exact h

theorem Writes.ite {c : Prop} [Decidable c] {a b : State} (h : Writes R s a) (k : Writes R s b) : Writes R s (if c then a else b) := by
  split <;> assumption

theorem Writes.fst {α : Type} {p : State × α} {a : α} (e : p = (u, a)) (h : Writes R s p.1) : Writes R s u := by subst e; exact h

/-- Through an intermediate state. -/
theorem Writes.gen {v : State} (h : Writes R s v) (g : Writes R s v → Writes R s t) : Writes R s t := g h

theorem Writes.foldl {α : Type} {f : State → α → State} (xs : List α) (g : ∀ v a, Writes R s v → Writes R s (f v a)) (h : Writes R s t) :
    Writes R s (xs.foldl f t) := by
  induction xs generalizing t with
  | nil => exact h
  | cons a xs ih => exact ih (g _ _ h)

theorem Writes.foldlFst {α β : Type} {f : State × β → α → State × β} {p : State × β} (xs : List α)
    (g : ∀ a x, Writes R s a.1 → Writes R s (f a x).1) (h : Writes R s p.1) : Writes R s (xs.foldl f p).1 := by
  induction xs generalizing p with
  | nil => exact h
  | cons a xs ih => exact ih (g _ _ h)

theorem State.each_writes {α : Type} {f : State → α → State} {xs : List α} (g : ∀ v a, Writes R s v → Writes R s (f v a)) (h : Writes R s t) :
    Writes R s (t.each xs f) := Writes.foldl xs g h

theorem State.when_writes {c : Bool} {f : State → State} (g : Writes R s t → Writes R s (f t)) (h : Writes R s t) :
    Writes R s (t.when c f) := by
  unfold State.when
  split
  · exact g h
  · exact h

theorem Writes.put_ctr {x} (h : Writes R s t) : Writes R s { t with ctr := x } := ⟨h.same⟩

theorem Writes.put_rdata {x} (h : Writes R s t) : Writes R s { t with rdata := x } := ⟨h.same⟩

theorem Writes.put_time {x} (h : Writes R s t) : Writes R s { t with time := x } := ⟨h.same⟩

theorem Writes.put_power {x} (h : Writes R s t) : Writes R s { t with power := x } := ⟨h.same⟩

theorem Writes.put_host {x} (h : Writes R s t) : Writes R s { t with host := x } := ⟨h.same⟩

theorem Writes.put_cores {x} (h : Writes R s t) : Writes R s { t with cores := x } := ⟨h.same⟩

theorem Writes.put_lanes {x} (h : Writes R s t) : Writes R s { t with lanes := x } := ⟨h.same⟩

theorem Writes.put_ports {x} (h : Writes R s t) : Writes R s { t with ports := x } := ⟨h.same⟩

theorem Writes.put_pipes {x} (h : Writes R s t) : Writes R s { t with pipes := x } := ⟨h.same⟩

theorem Writes.put_fabric {x} (h : Writes R s t) : Writes R s { t with fabric := x } := ⟨h.same⟩

theorem Writes.put_servo {x} (h : Writes R s t) : Writes R s { t with servo := x } := ⟨h.same⟩

theorem Writes.put_cal {x} (h : Writes R s t) : Writes R s { t with cal := x } := ⟨h.same⟩

theorem Writes.put_refs {x} (h : Writes R s t) : Writes R s { t with refs := x } := ⟨h.same⟩

theorem Writes.put_meas {x} (h : Writes R s t) : Writes R s { t with meas := x } := ⟨h.same⟩

theorem Writes.put_redund {x} (h : Writes R s t) : Writes R s { t with redund := x } := ⟨h.same⟩

theorem Writes.put_sec {x} (h : Writes R s t) : Writes R s { t with sec := x } := ⟨h.same⟩

theorem Writes.put_waiting {x} (h : Writes R s t) : Writes R s { t with waiting := x } := ⟨h.same⟩

theorem Writes.put_written {x} (h : Writes R s t) : Writes R s { t with written := x } := ⟨h.same⟩

theorem Writes.put_line {x} (h : Writes R s t) : Writes R s { t with line := x } := ⟨h.same⟩

theorem Writes.put_freeCtr {x} (h : Writes R s t) : Writes R s { t with freeCtr := x } := ⟨h.same⟩

theorem Writes.put_ctrPorts {x y} (h : Writes R s t) : Writes R s { t with ctr := x, ports := y } := ⟨h.same⟩

theorem Writes.put_pipesTime {x y} (h : Writes R s t) : Writes R s { t with pipes := x, time := y } := ⟨h.same⟩

end Sys2Proof.Machine
end

