-- ==== Sys2Proof/Laws/Fields.lean ====
section
/-!
SUPPORT. Sys2Proof/Laws/Fields.lean: reading a field after writing its register or another field; addresses that are apart from the rows of a `Writes`, so that a register reads as before.
-/
namespace Sys2Proof.Machine
open Sys2Proof

/-- Two fields that share no bit. -/
def Fld.sep (f g : Fld) : Bool := decide (f.lo + f.len ≤ g.lo) || decide (g.lo + g.len ≤ f.lo) || f.addr != g.addr

theorem State.fld_setF_sep (s : State) {f g : Fld} (v : Nat) (h : f.sep g = true) : (s.setF f v).fld g = s.fld g := by
  simp only [Fld.sep, Bool.or_eq_true, decide_eq_true_eq, bne_iff_ne] at h
  rcases h with (h | h) | h
  · exact State.fld_setF_other s v (.inl h)
  · exact State.fld_setF_other s v (.inr h)
  · exact State.fld_setF_reg s v (Ne.symm h)

theorem Fld.mask_bit (f : Fld) (k : f.lo + f.len ≤ 32) {i : Nat} (hi : i < f.len) : f.mask.getLsbD (f.lo + i) = true := by
  simp only [Fld.mask, BitVec.getLsbD_ofNat, Nat.testBit_mul_two_pow, Nat.testBit_two_pow_sub_one]
  simp; omega

theorem Fld.of_mix (f : Fld) (k : f.lo + f.len ≤ 32) (a b m : Word) (h : f.mask &&& m = f.mask) : f.of ((a &&& ~~~m) ||| (b &&& m)) = f.of b := by
  simp only [Fld.of]; congr 1; ext i hi
  have := congrArg (fun z => z.getLsbD (f.lo + i)) h
  simp only [BitVec.getLsbD_and, Fld.mask_bit f k hi, Bool.true_and] at this
  simp [this]

theorem Fld.of_mix0 (f : Fld) (k : f.lo + f.len ≤ 32) (a b m : Word) (h : f.mask &&& m = 0) : f.of ((a &&& ~~~m) ||| (b &&& m)) = f.of a := by
  simp only [Fld.of]; congr 1; ext i hi
  have := congrArg (fun z => z.getLsbD (f.lo + i)) h
  simp only [BitVec.getLsbD_and, Fld.mask_bit f k hi, Bool.true_and] at this
  have q : f.lo + i < 32 := by omega
  simp at this
  rw [BitVec.getLsbD_eq_getElem q] at this
  simp [this, q]

theorem Fld.of_and0 (f : Fld) (k : f.lo + f.len ≤ 32) (a m : Word) (h : f.mask &&& m = 0) : f.of (a &&& ~~~m) = f.of a := by
  simp only [Fld.of]; congr 1; ext i hi
  have := congrArg (fun z => z.getLsbD (f.lo + i)) h
  simp only [BitVec.getLsbD_and, Fld.mask_bit f k hi, Bool.true_and] at this
  have q : f.lo + i < 32 := by omega
  simp at this
  rw [BitVec.getLsbD_eq_getElem q] at this
  simp [this, q]

theorem State.fld_putRw (s : State) (f : Fld) (w : Word) (h : f.mask &&& rwMask f.addr = f.mask) (k : f.lo + f.len ≤ 32) : (s.putRw f.addr w).fld f = f.of w := by
  simp only [State.fld, State.putRw, State.reg_setReg_same]; exact Fld.of_mix f k _ _ _ h

theorem State.fld_putRw0 (s : State) (f : Fld) (w : Word) (h : f.mask &&& rwMask f.addr = 0) (k : f.lo + f.len ≤ 32) : (s.putRw f.addr w).fld f = s.fld f := by
  simp only [State.fld, State.putRw, State.reg_setReg_same]; exact Fld.of_mix0 f k _ _ _ h

theorem State.fld_putRw_other (s : State) (f : Fld) {a : Nat} (w : Word) (h : f.addr ≠ a) : (s.putRw a w).fld f = s.fld f := by
  simp only [State.fld, State.putRw, State.reg_setReg_other _ _ h]

theorem State.fld_putW1c (s : State) (f : Fld) (w : Word) (h : (RegMap.find f.addr).all (fun h => f.mask &&& BitVec.ofNat 32 h.row.w1c == 0) = true) (k : f.lo + f.len ≤ 32) : (s.putW1c f.addr w).fld f = s.fld f := by
  simp only [State.fld, State.putW1c]
  cases hh : RegMap.find f.addr
  · rfl
  · rename_i x
    simp only [hh, Option.all_some, beq_iff_eq] at h
    simp only [State.reg_setReg_same]
    refine Fld.of_and0 f k _ _ ?_
    ext i hi
    have := congrArg (fun z => z.getLsbD i) h
    simp only [BitVec.getLsbD_and, BitVec.getLsbD_zero] at this
    simp only [BitVec.getElem_and, BitVec.getElem_zero, ← BitVec.getLsbD_eq_getElem]
    cases h1 : f.mask.getLsbD i <;> simp_all

theorem State.reg_setF_other (s : State) {a : Nat} {f : Fld} (v : Nat) (h : a ≠ f.addr) : (s.setF f v).reg a = s.reg a := State.reg_setReg_other s _ h

/-- Address `a` may be an instance of the row at `b`. -/
def mayBeAt (b a : Nat) : Bool :=
  a == RegMap.nowhere || match (RegMap.rowsAt b).find? fun r => r.base == b with
  | some r => if r.n2 = 1 then decide (b ≤ a) && decide (a ≤ b + r.s1 * r.n1)
      else (List.range r.n1).any fun i => decide (b + r.s1 * i ≤ a) && decide (a ≤ b + r.s1 * i + r.s2 * r.n2)
  | none => false

theorem mayBeAt_ne {b a : Nat} (h : mayBeAt b a = false) (i j : Nat) : a ≠ RegMap.addr b i j := by
  rintro rfl
  unfold mayBeAt RegMap.addr at h
  split at h
  · rename_i e
    try simp only [e] at h
    split at h
    · rename_i e1
      try simp only [e1, if_true] at h
      unfold RegMap.at1 at h
      split at h
      · have := Nat.mul_le_mul_left (‹RegRow›.s1) (Nat.le_of_lt ‹i < _›)
        simp at h; omega
      · simp at h
    · rename_i e1
      try simp only [e1, if_false] at h
      unfold RegMap.at2 at h
      split at h
      · rename_i hh
        have := Nat.mul_le_mul_left (‹RegRow›.s2) (Nat.le_of_lt hh.2)
        simp at h
        have := h.2 i hh.1
        omega
      · simp at h
  · rename_i e
    try simp only [e] at h
    simp at h

def isApart (R : List Nat) (a : Nat) : Bool := R.all fun b => !mayBeAt b a

theorem isApart_at {R : List Nat} {a : Nat} (h : isApart R a = true) : ¬AtReg R a := by
  rintro ⟨b, hb, i, j, e⟩
  simp only [isApart, List.all_eq_true, Bool.not_eq_true'] at h
  exact mayBeAt_ne (h b hb) i j e

theorem Writes.fld {R s t} (h : Writes R s t) {f : Fld} (k : ¬AtReg R f.addr) : t.fld f = s.fld f := by simp only [State.fld, h.same _ k]

theorem Writes.flag {R s t} (h : Writes R s t) {f : Fld} (k : ¬AtReg R f.addr) : t.flag f = s.flag f := by simp only [State.flag, h.fld k]

/-- No instance of the row at `b` lies among the addresses of `n` instances `s` bytes apart from `a` on. -/
def rowApart (a n s b : Nat) : Bool :=
  match (RegMap.rowsAt b).find? fun r => r.base == b with
  | some r =>
    let hi := b + r.s1 * (r.n1 - 1) + (if r.n2 = 1 then 0 else r.s2 * (r.n2 - 1))
    decide (hi < a) || decide (a + s * (n - 1) < b) ||
      (r.s1 % s == 0 && (decide (b % s + (if r.n2 = 1 then 0 else r.s2 * (r.n2 - 1)) < a % s) ||
        (decide (b % s + (if r.n2 = 1 then 0 else r.s2 * (r.n2 - 1)) < s) && decide (a % s < b % s))))
  | none => true

theorem rowApart_ne {a n s b i k j : Nat} (hi : i < n) (hs : 0 < s) (ha : a + s * n ≤ RegMap.nowhere) (h : rowApart a n s b = true) : RegMap.at1 a n s i ≠ RegMap.addr b k j := by
  unfold RegMap.at1
  rw [if_pos hi]
  have e1 : s * i ≤ s * (n - 1) := Nat.mul_le_mul_left _ (by omega)
  have e2 : s * (i + 1) ≤ s * n := Nat.mul_le_mul_left _ hi
  rw [Nat.mul_add] at e2
  have em : (a + s * i) % s = a % s := by simp
  intro e
  unfold RegMap.addr at e
  unfold rowApart at h
  cases hr : (RegMap.rowsAt b).find? fun r => r.base == b with
  | none => simp only [hr] at e; omega
  | some r =>
    simp only [hr] at e h
    by_cases e3 : r.n2 = 1
    · simp only [e3, if_true, Nat.add_zero] at e h
      unfold RegMap.at1 at e
      split at e
      · rename_i hk
        have f1 : r.s1 * k ≤ r.s1 * (r.n1 - 1) := Nat.mul_le_mul_left _ (by omega)
        simp only [Bool.or_eq_true, Bool.and_eq_true, decide_eq_true_eq, beq_iff_eq] at h
        rcases h with (h | h) | ⟨h, h'⟩
        · omega
        · omega
        · have : (b + r.s1 * k) % s = b % s := by
            obtain ⟨q, hq⟩ := Nat.dvd_of_mod_eq_zero h
            rw [hq, Nat.mul_assoc]; simp
          rw [← e, em] at this
          omega
      · omega
    · simp only [e3, if_false] at e h
      unfold RegMap.at2 at e
      split at e
      · rename_i hk
        have f1 : r.s1 * k ≤ r.s1 * (r.n1 - 1) := Nat.mul_le_mul_left _ (by omega)
        have f2 : r.s2 * j ≤ r.s2 * (r.n2 - 1) := Nat.mul_le_mul_left _ (by omega)
        simp only [Bool.or_eq_true, Bool.and_eq_true, decide_eq_true_eq, beq_iff_eq] at h
        rcases h with (h | h) | ⟨h, h'⟩
        · omega
        · omega
        · obtain ⟨q, hq⟩ := Nat.dvd_of_mod_eq_zero h
          have : (b + r.s1 * k + r.s2 * j) % s = (b % s + r.s2 * j) % s := by
            rw [hq, Nat.mul_assoc, show b + s * (q * k) + r.s2 * j = b + r.s2 * j + s * (q * k) by omega, Nat.add_mul_mod_self_left]; simp
          rw [← e, em] at this
          have hl := Nat.mod_lt a hs
          have e4 := Nat.mod_eq_of_lt (a := b % s + r.s2 * j) (b := s) (by omega)
          omega
      · omega

/-- None of the rows `R` touches the `n` registers `s` bytes apart from `a` on. -/
def rowsApart (R : List Nat) (a n s : Nat) : Bool := R.all (rowApart a n s)

theorem rowsApart_at {R : List Nat} {a n s i : Nat} (h : rowsApart R a n s = true) (hi : i < n) (hs : (decide (0 < s) && decide (a + s * n ≤ RegMap.nowhere)) = true) : ¬AtReg R (RegMap.at1 a n s i) := by
  simp only [Bool.and_eq_true, decide_eq_true_eq] at hs
  rintro ⟨b, hb, k, j, e⟩
  simp only [rowsApart, List.all_eq_true] at h
  exact rowApart_ne hi hs.1 hs.2 (h b hb) e

theorem State.each_fld {α} {g : Fld} {f : State → α → State} (h : ∀ s a, (f s a).fld g = s.fld g) : ∀ (l : List α) (s : State), (s.each l f).fld g = s.fld g
  | [], _ => rfl
  | a :: l, s => by
    have := State.each_fld h l (f s a)
    simp only [State.each, List.foldl_cons] at this ⊢
    rw [this, h]

theorem quiet {a : Nat} (h : a < 0x4000000) (h1 : ¬ (0x0100080 ≤ a ∧ a < 0x01000a0)) (h2 : ¬ (0x010100C ≤ a ∧ a < 0x010100C + 69 * 32 ∧ (a % 32 = 0xC ∨ a % 32 = 0x10 ∨ a % 32 = 0x18)))
   (h3 : ¬ (0x109000 ≤ a ∧ a < 0x109020)) (h4 : ¬ (0x220200 ≤ a ∧ a < 0x228208)) : ¬AtReg reportRegs a := by
  rintro ⟨b, hb, i, j, rfl⟩
  simp only [reportRegs, List.mem_cons, List.not_mem_nil, or_false] at hb
  rcases hb with rfl | rfl | rfl | rfl | rfl | rfl | rfl
  · rw [show RegMap.addr (Reg.ringStatus 0) i j = RegMap.at1 0x10100C 69 0x20 i from rfl] at *
    unfold RegMap.at1 RegMap.nowhere at *; split at h <;> split at h2 <;> omega
  · rw [show RegMap.addr (Reg.ringDevIdx 0) i j = RegMap.at1 0x101010 69 0x20 i from rfl] at *
    unfold RegMap.at1 RegMap.nowhere at *; split at h <;> split at h2 <;> omega
  · rw [show RegMap.addr (Reg.ringLoss 0) i j = RegMap.at1 0x101018 69 0x20 i from rfl] at *
    unfold RegMap.at1 RegMap.nowhere at *; split at h <;> split at h2 <;> omega
  · rw [show RegMap.addr (Reg.msixPba 0) i j = RegMap.at1 0x109000 8 0x4 i from rfl] at *
    unfold RegMap.at1 RegMap.nowhere at *; split at h <;> split at h3 <;> omega
  · rw [show RegMap.addr (Reg.perfWrapLo 0) i j = RegMap.at1 0x220200 8 0x1000 i from rfl] at *
    unfold RegMap.at1 RegMap.nowhere at *; split at h <;> split at h4 <;> omega
  · rw [show RegMap.addr (Reg.perfWrapHi 0) i j = RegMap.at1 0x220204 8 0x1000 i from rfl] at *
    unfold RegMap.at1 RegMap.nowhere at *; split at h <;> split at h4 <;> omega
  · rw [show RegMap.addr (Reg.hostifCnt 0) i j = RegMap.at1 0x0100080 8 0x4 i from rfl] at *
    unfold RegMap.at1 RegMap.nowhere at *; split at h <;> split at h1 <;> omega

def quietAddr (a : Nat) : Bool := decide (a < 0x4000000) && !(decide (0x0100080 ≤ a) && decide (a < 0x01000a0)) && !(decide (0x010100C ≤ a) && decide (a < 0x010100C + 69 * 32) && (a % 32 == 0xC || a % 32 == 0x10 || a % 32 == 0x18)) && !(decide (0x109000 ≤ a) && decide (a < 0x109020)) && !(decide (0x220200 ≤ a) && decide (a < 0x228208))

theorem quietAddr_at {a} (h : quietAddr a = true) : ¬AtReg reportRegs a := by
  simp [quietAddr] at h; apply quiet <;> omega

end Sys2Proof.Machine
end

