-- ==== Sys2Proof/Laws/Frame0.lean ====
section
/-!
SUPPORT. Sys2Proof/Laws/Frame0.lean: what the operations on which all others rest may change: writes of registers, counters, bytes and of whole
fields of the state.
-/
namespace Sys2Proof.Machine
open Sys2Proof

theorem regsCanon_set {r : Tab Word} {a : Nat} {w : Word} (h : Tab.canon RegMap.reset r = true) :
    Tab.canon RegMap.reset (if w = RegMap.reset a then Tab.del a r else Tab.ins a w r) = true := by
  split
  · exact Tab.canon_del a h
  · exact Tab.canon_ins (by assumption) h

theorem State.setReg_kept {s : State} {a w} : Kept [.regs] s (s.setReg a w) := Kept.put_regs Kept.refl rfl regsCanon_set

theorem State.modCnt_kept {s : State} {k f} : Kept [.cnt] s (s.modCnt k f) := Kept.put_cnt Kept.refl rfl

theorem State.ticks_kept {s : State} {n} : Kept [.cnt, .time] s (s.ticks n) := Kept.put_timeCnt Kept.refl rfl rfl

theorem State.modSecKeys_kept {s : State} {f : SecSt → SecSt} : Kept [.keys, .sec] s (s.modSec f) := Kept.put_secKeys Kept.refl rfl rfl

theorem State.modTimeAny_kept {s : State} {f : TimeSt → TimeSt} : Kept [.time, .cnt] s (s.modTime f) := Kept.put_timeCnt Kept.refl rfl rfl

theorem Kept.modTime {L : List Part} {s t : State} {f : TimeSt → TimeSt} (h : Kept L s t) (m : L.contains .time = true)
    (n : (f t.time).cnt = t.time.cnt) : Kept L s (t.modTime f) := Kept.put_time h m n

theorem Kept.modSec {L : List Part} {s t : State} {f : SecSt → SecSt} (h : Kept L s t) (m : L.contains .sec = true)
    (n : (f t.sec).keys = t.sec.keys) : Kept L s (t.modSec f) := Kept.put_sec h m n

/-- A replacement of the keys alone. -/
theorem State.putKeys_kept {s : State} {k : Tab (BitVec 256)} : Kept [.keys] s (s.modSec fun x => { x with keys := k }) :=
  Kept.refl.trans ⟨fun p hp => by cases p <;> first | rfl | (cases hp), id, id⟩

theorem Kept.put_ctrPorts {L : List Part} {s t : State} {x y} (h : Kept L s t) (m : L.contains .ctr = true) (n : L.contains .ports = true) :
    Kept L s { t with ctr := x, ports := y } := Kept.put_ports (t := { t with ctr := x }) (Kept.put_ctr h m) n

theorem Kept.put_pipesTime {L : List Part} {s t : State} {x y} (h : Kept L s t) (m : L.contains .pipes = true) (n : L.contains .time = true)
    (e : y.cnt = t.time.cnt) : Kept L s { t with pipes := x, time := y } := Kept.put_time (t := { t with pipes := x }) (Kept.put_pipes h m) n e

theorem State.memWrite_kept {s : State} {a n v} : Kept [.mem] s (s.memWrite a n v) := by
  unfold State.memWrite
  refine State.each_kept (fun u i h => ?_) Kept.refl
  split
  · exact Kept.put_mem h rfl Tab.canon_put
  · exact h

/-- Removing some of the registers' entries (they read as at reset then). -/
theorem Kept.filterRegs {L : List Part} {s t : State} {f : Nat × Word → Bool} (h : Kept L s t) (m : L.contains .regs = true) :
    Kept L s { t with regs := t.regs.filter f } := Kept.put_regs h m (Tab.canon_filter f)

/-- Removing some of the banks' bytes (they read 0 then). -/
theorem Kept.filterMem {L : List Part} {s t : State} {f : Nat × BitVec 8 → Bool} (h : Kept L s t) (m : L.contains .mem = true) :
    Kept L s { t with cores := { t.cores with mem := t.cores.mem.filter f } } := Kept.put_mem h m (Tab.canon_filter f)

/-- Listing entries of one canonical table in another. -/
theorem Tab.canon_copy {α : Type} [DecidableEq α] {e : α} {l t : List (Nat × α)} (hl : ∀ p ∈ l, p.2 ≠ e) (h : Tab.canon (fun _ => e) t = true) :
    Tab.canon (fun _ => e) (l.foldl (fun t p => Tab.ins p.1 p.2 t) t) = true := by
  induction l generalizing t with
  | nil => exact h
  | cons p l ih => exact ih (fun q hq => hl q (.tail _ hq)) (Tab.canon_ins (hl p List.mem_cons_self) h)

end Sys2Proof.Machine
end

