-- ==== Sys2Proof/Laws/FrameOps.lean ====
section
/-!
SUPPORT. Sys2Proof/Laws/FrameOps.lean: what each operation of Machine/Ops.lean may change, and that it keeps the canonical forms.
-/
namespace Sys2Proof.Machine
open Sys2Proof

theorem State.setF_kept {s : State} {x1 x2} : Kept [.regs] s (State.setF s x1 x2) := by
  unfold State.setF; repeat' first | with_reducible exact Kept.refl | with_reducible apply Kept.step State.setReg_kept | (show _ = _; rfl)

theorem State.bump_kept {s : State} {x1 x2} : Kept [.regs] s (State.bump s x1 x2) := by
  unfold State.bump; repeat' first | with_reducible exact Kept.refl | with_reducible apply Kept.step State.setF_kept | (show _ = _; rfl)

theorem State.setCore_kept {s : State} {x1 x2} : Kept [.cores] s (State.setCore s x1 x2) := by
  unfold State.setCore; repeat' first
      | (extract_lets +onlyGivenNames v; have q : CoresSt := v; clear q; subst v) | with_reducible exact Kept.refl | (show _ = _; rfl)
      | with_reducible apply Kept.put_cores

theorem State.modCore_kept {s : State} {x1 x2} : Kept [.cores] s (State.modCore s x1 x2) := by
  unfold State.modCore; repeat' first | with_reducible exact Kept.refl | with_reducible apply Kept.step State.setCore_kept | (show _ = _; rfl)

theorem State.raiseInt_kept {s : State} {x1 x2} : Kept [.cores] s (State.raiseInt s x1 x2) := by
  unfold State.raiseInt; repeat' first | with_reducible exact Kept.refl | with_reducible apply Kept.step State.modCore_kept | (show _ = _; rfl)

theorem State.perf_kept {s : State} {x1 x2 x3} : Kept [.regs, .cores] s (State.perf s x1 x2 x3) := by
  unfold State.perf; repeat' first
      | (extract_lets +onlyGivenNames v; apply Kept.gen (v := v); subst v; rotate_left; clear_value v; intro h; rotate_right)
      | with_reducible assumption | with_reducible exact Kept.refl | with_reducible apply Kept.ite
      | with_reducible apply Kept.step State.setReg_kept | with_reducible apply Kept.step State.modCore_kept
      | with_reducible apply Kept.step State.raiseInt_kept | (show _ = _; rfl)

theorem State.fifoCopy_kept {s : State} {x1 x2 x3} : Kept [.regs, .cores] s (State.fifoCopy s x1 x2 x3) := by
  unfold State.fifoCopy; repeat' first
      | with_reducible exact Kept.refl | with_reducible apply Kept.step State.modCore_kept | with_reducible apply Kept.step State.raiseInt_kept
      | with_reducible apply Kept.step State.perf_kept | (show _ = _; rfl) | split

theorem State.loseEvent_kept {s : State} {x1 x2} : Kept [.regs, .host] s (State.loseEvent s x1 x2) := by
  unfold State.loseEvent; repeat' first
      | with_reducible exact Kept.refl | with_reducible apply Kept.step State.bump_kept | (show _ = _; rfl) | with_reducible apply Kept.put_host

theorem State.post_kept {s : State} {x1} : Kept [.host] s (State.post s x1) := by
  unfold State.post; repeat' first | with_reducible exact Kept.refl | (show _ = _; rfl) | split | with_reducible apply Kept.put_host

theorem State.signal_kept {s : State} {x1} : Kept [.regs, .host] s (State.signal s x1) := by
  unfold State.signal; repeat' first
      | (extract_lets +onlyGivenNames v; apply Kept.gen (v := v); subst v; rotate_left; clear_value v; intro h; rotate_right)
      | with_reducible assumption | with_reducible exact Kept.refl | with_reducible apply Kept.step State.post_kept
      | with_reducible apply Kept.step State.setReg_kept | (show _ = _; rfl) | split | with_reducible apply Kept.put_host

theorem State.signalSoon_kept {s : State} {x1} : Kept [.regs, .host] s (State.signalSoon s x1) := by
  unfold State.signalSoon; repeat' first
      | with_reducible exact Kept.refl | with_reducible apply Kept.step State.signal_kept | (show _ = _; rfl) | split
      | with_reducible apply Kept.put_host

theorem State.showFull_kept {s : State} {x1} : Kept [.regs] s (State.showFull s x1) := by
  unfold State.showFull; repeat' first | with_reducible exact Kept.refl | with_reducible apply Kept.step State.setF_kept | (show _ = _; rfl)

theorem State.advance_kept {s : State} {x1 x2} : Kept [.regs, .host] s (State.advance s x1 x2) := by
  unfold State.advance; repeat' first
      | (extract_lets +onlyGivenNames v; apply Kept.gen (v := v); subst v; rotate_left; clear_value v; intro h; rotate_right)
      | with_reducible assumption | with_reducible exact Kept.refl | with_reducible apply Kept.step State.post_kept
      | with_reducible apply Kept.step State.showFull_kept | with_reducible apply Kept.step State.setReg_kept | (show _ = _; rfl) | split

theorem State.writeEntry_kept {s : State} {x1 x2 x3} : Kept [.regs, .host] s (State.writeEntry s x1 x2 x3) := by
  unfold State.writeEntry; repeat' first
      | (extract_lets +onlyGivenNames v; apply Kept.gen (v := v); subst v; rotate_left; clear_value v; intro h; rotate_right)
      | with_reducible assumption | with_reducible exact Kept.refl | with_reducible apply Kept.step State.post_kept
      | with_reducible apply Kept.step State.signalSoon_kept | with_reducible apply Kept.step State.advance_kept | (show _ = _; rfl) | split
      | with_reducible apply Kept.put_host

theorem State.nextSeq_kept {s : State} : Kept [.host] s (State.nextSeq s) := by
  unfold State.nextSeq; repeat' first | with_reducible exact Kept.refl | (show _ = _; rfl) | with_reducible apply Kept.put_host

theorem State.reportLost_kept {s : State} : Kept [.regs, .host, .cores] s (State.reportLost s) := by
  unfold State.reportLost; repeat' first
      | (extract_lets +onlyGivenNames v; apply Kept.gen (v := v); subst v; rotate_left; clear_value v; intro h; rotate_right)
      | with_reducible assumption | with_reducible exact Kept.refl | with_reducible apply Kept.step State.fifoCopy_kept
      | with_reducible apply Kept.step State.writeEntry_kept | with_reducible apply Kept.step State.nextSeq_kept | (show _ = _; rfl) | split
      | with_reducible apply Kept.put_host

theorem State.raise_kept {s : State} {x1 x2 x3} : Kept [.regs, .host, .cores] s (State.raise s x1 x2 x3) := by
  unfold State.raise; repeat' first
      | (extract_lets +onlyGivenNames v; apply Kept.gen (v := v); subst v; rotate_left; clear_value v; intro h; rotate_right)
      | with_reducible assumption | with_reducible exact Kept.refl | with_reducible apply Kept.ite
      | with_reducible apply Kept.step State.fifoCopy_kept | with_reducible apply Kept.step State.loseEvent_kept
      | with_reducible apply Kept.step State.writeEntry_kept | with_reducible apply Kept.step State.nextSeq_kept
      | with_reducible apply Kept.step State.reportLost_kept | (show _ = _; rfl)

theorem State.late_kept {s : State} {x1 x2} : Kept [.regs, .host, .cores] s (State.late s x1 x2) := by
  unfold State.late; repeat' first
      | (extract_lets +onlyGivenNames v; apply Kept.gen (v := v); subst v; rotate_left; clear_value v; intro h; rotate_right)
      | with_reducible assumption | with_reducible exact Kept.refl | with_reducible apply Kept.ite
      | with_reducible apply Kept.step State.bump_kept | with_reducible apply Kept.step State.setF_kept
      | with_reducible apply Kept.step State.raise_kept | (show _ = _; rfl)

theorem State.handleGone_kept {s : State} {x1} : Kept [.host] s (State.handleGone s x1) := by
  unfold State.handleGone; repeat' first | with_reducible exact Kept.refl | (show _ = _; rfl) | with_reducible apply Kept.put_host

theorem State.flushCpl_kept {s : State} {x1} : Kept [.regs, .host] s (State.flushCpl s x1) := by
  induction x1 generalizing s with
  | zero => exact Kept.refl
  | succ n ih => unfold State.flushCpl; repeat' first
      | with_reducible apply Kept.step ih
      | (extract_lets +onlyGivenNames v; apply Kept.gen (v := v); subst v; rotate_left; clear_value v; intro h; rotate_right)
      | with_reducible assumption | with_reducible exact Kept.refl | with_reducible apply Kept.step State.handleGone_kept
      | with_reducible apply Kept.step State.writeEntry_kept | with_reducible apply State.when_kept | (show _ = _; rfl) | split
      | with_reducible apply Kept.put_host

theorem State.deliver_kept {s : State} {x1 x2 x3} : Kept [.regs, .host, .cores] s (State.deliver s x1 x2 x3) := by
  unfold State.deliver; repeat' first
      | (extract_lets +onlyGivenNames v; apply Kept.gen (v := v); subst v; rotate_left; clear_value v; intro h; rotate_right)
      | with_reducible assumption | with_reducible exact Kept.refl | with_reducible apply Kept.step State.bump_kept
      | with_reducible apply Kept.step State.modCore_kept | with_reducible apply Kept.step State.handleGone_kept
      | with_reducible apply Kept.step State.raiseInt_kept | with_reducible apply Kept.step State.perf_kept
      | with_reducible apply Kept.step State.flushCpl_kept | with_reducible apply State.when_kept | (show _ = _; rfl) | split
      | with_reducible apply Kept.put_host

theorem State.complete_kept {s : State} {x1 x2 x3 x4 x5 x6 x7} : Kept [.regs, .host, .cores] s (State.complete s x1 x2 x3 x4 x5 x6 x7) := by
  unfold State.complete; repeat' first
      | (extract_lets +onlyGivenNames v; apply Kept.gen (v := v); subst v; rotate_left; clear_value v; intro h; rotate_right)
      | with_reducible assumption | with_reducible exact Kept.refl | with_reducible apply Kept.step State.deliver_kept | (show _ = _; rfl)
      | with_reducible apply Kept.put_host

theorem State.unpark_kept {s : State} {x1} : Kept [.host] s (State.unpark s x1) := by
  unfold State.unpark; repeat' first | with_reducible exact Kept.refl | (show _ = _; rfl) | with_reducible apply Kept.put_host

theorem State.endParked_kept {s : State} {x1 x2 x3 x4 x5} : Kept [.regs, .host, .cores] s (State.endParked s x1 x2 x3 x4 x5) := by
  unfold State.endParked; repeat' first
      | (extract_lets +onlyGivenNames v; apply Kept.gen (v := v); subst v; rotate_left; clear_value v; intro h; rotate_right)
      | with_reducible assumption | with_reducible exact Kept.refl | with_reducible apply Kept.step State.bump_kept
      | with_reducible apply Kept.step State.complete_kept | with_reducible apply Kept.step State.unpark_kept | (show _ = _; rfl) | split

theorem State.finish_kept {s : State} {x1 x2 x3} : Kept [.regs, .host, .cores] s (State.finish s x1 x2 x3) := by
  unfold State.finish; repeat' first
      | with_reducible exact Kept.refl | with_reducible apply Kept.step State.endParked_kept | (show _ = _; rfl) | split

theorem State.endLong_kept {s : State} {x1 x2 x3} : Kept [.regs, .host, .cores] s (State.endLong s x1 x2 x3) := by
  unfold State.endLong; repeat' first
      | (extract_lets +onlyGivenNames v; apply Kept.gen (v := v); subst v; rotate_left; clear_value v; intro h; rotate_right)
      | with_reducible assumption | with_reducible exact Kept.refl | with_reducible apply Kept.step State.complete_kept
      | with_reducible apply Kept.step State.finish_kept | (show _ = _; rfl) | split | with_reducible apply Kept.put_host

theorem State.putRw_kept {s : State} {x1 x2} : Kept [.regs] s (State.putRw s x1 x2) := by
  unfold State.putRw; repeat' first | with_reducible exact Kept.refl | with_reducible apply Kept.step State.setReg_kept | (show _ = _; rfl)

theorem State.modParked_kept {s : State} {x1 x2} : Kept [.host] s (State.modParked s x1 x2) := by
  unfold State.modParked; repeat' first | with_reducible exact Kept.refl | (show _ = _; rfl) | with_reducible apply Kept.put_host

theorem State.putW1c_kept {s : State} {x1 x2} : Kept [.regs] s (State.putW1c s x1 x2) := by
  unfold State.putW1c; repeat' first | with_reducible exact Kept.refl | with_reducible apply Kept.step State.setReg_kept | (show _ = _; rfl) | split

theorem State.wait_kept {s : State} {x1 x2} : Kept [.waiting] s (State.wait s x1 x2) := by
  unfold State.wait; repeat' first | with_reducible exact Kept.refl | (show _ = _; rfl) | with_reducible apply Kept.put_waiting

theorem State.fresh_kept {s : State} : Kept [.freeCtr] s (State.fresh s) := by
  unfold State.fresh; repeat' first | with_reducible exact Kept.refl | (show _ = _; rfl) | with_reducible apply Kept.put_freeCtr

theorem State.modLong_kept {s : State} {x1 x2} : Kept [.host] s (State.modLong s x1 x2) := by
  unfold State.modLong; repeat' first | with_reducible exact Kept.refl | (show _ = _; rfl) | with_reducible apply Kept.put_host

theorem State.park_kept {s : State} {x1 x2 x3} : Kept [.host] s (State.park s x1 x2 x3) := by
  unfold State.park; repeat' first | with_reducible exact Kept.refl | (show _ = _; rfl) | with_reducible apply Kept.put_host

theorem State.turnPasses_kept {s : State} {x1} : Kept [.host] s (State.turnPasses s x1) := by
  unfold State.turnPasses; repeat' first | with_reducible exact Kept.refl | (show _ = _; rfl) | with_reducible apply Kept.put_host

theorem State.fetched_kept {s : State} {x1} : Kept [.regs, .host, .cores] s (State.fetched s x1) := by
  unfold State.fetched; repeat' first
      | (extract_lets +onlyGivenNames v; apply Kept.gen (v := v); subst v; rotate_left; clear_value v; intro h; rotate_right)
      | with_reducible assumption | with_reducible exact Kept.refl | with_reducible apply Kept.step State.modCore_kept
      | with_reducible apply Kept.step State.turnPasses_kept | with_reducible apply Kept.step State.advance_kept | (show _ = _; rfl) | split
      | with_reducible apply Kept.put_host

theorem State.cmdWaits_kept {s : State} {x1} : Kept [.host] s (State.cmdWaits s x1) := by
  unfold State.cmdWaits; repeat' first
      | (extract_lets +onlyGivenNames v; apply Kept.gen (v := v); subst v; rotate_left; clear_value v; intro h; rotate_right)
      | with_reducible assumption | with_reducible exact Kept.refl | with_reducible apply Kept.step State.turnPasses_kept | (show _ = _; rfl)
      | split | with_reducible apply Kept.put_host

theorem State.start_kept {L : List Part} {s t : State} {x1 x2 x3 x4} (g : ∀ v, Kept L s v → Kept L s (x4 v)) (hs :
    subParts [.regs, .host, .cores] L = true) (h : Kept L s t) :
    Kept L s (State.start t x1 x2 x3 x4) := by
  unfold State.start; repeat' first
      | (extract_lets +onlyGivenNames v; apply Kept.gen (v := v); subst v; rotate_left; clear_value v; intro h; rotate_right)
      | with_reducible assumption | with_reducible apply Kept.step State.fetched_kept | with_reducible apply Kept.step State.complete_kept
      | with_reducible apply Kept.step State.cmdWaits_kept | exact subParts.trans (by decide) hs | exact subParts.mem hs rfl
      | with_reducible apply g | split | with_reducible apply Kept.put_host

theorem State.startLong_kept {L : List Part} {s t : State} {x1 x2 x3 x4 x5 x6 x7} (g : ∀ v a0, Kept L s v → Kept L s (x6 v a0)) (hs :
    subParts [.regs, .host, .cores] L = true) (h : Kept L s t) :
    Kept L s (State.startLong t x1 x2 x3 x4 x5 x6 x7) := by
  unfold State.startLong; repeat' first
      | (extract_lets +onlyGivenNames v; apply Kept.gen (v := v); subst v; rotate_left; clear_value v; intro h; rotate_right)
      | with_reducible assumption | with_reducible apply Kept.step State.complete_kept | with_reducible apply Kept.step State.modLong_kept
      | exact subParts.trans (by decide) hs | exact subParts.mem hs rfl | with_reducible apply g | split | with_reducible apply Kept.put_host

theorem State.modOp_kept {s : State} {x1 x2} : Kept [.host] s (State.modOp s x1 x2) := by
  unfold State.modOp; repeat' first | with_reducible exact Kept.refl | (show _ = _; rfl) | with_reducible apply Kept.put_host

theorem State.dipMove_kept {s : State} {x1} : Kept [.power] s (State.dipMove s x1) := by
  unfold State.dipMove; repeat' first | with_reducible exact Kept.refl | (show _ = _; rfl) | with_reducible apply Kept.put_power

theorem State.setLong_kept {s : State} {x1 x2} : Kept [.regs, .host, .cores] s (State.setLong s x1 x2) := by
  unfold State.setLong; repeat' first
      | with_reducible exact Kept.refl | with_reducible apply Kept.step State.raise_kept | with_reducible apply Kept.step State.modLong_kept
      | (show _ = _; rfl) | split

theorem State.parkId_kept {s : State} {x1 x2 x3} : Kept [.host] s (State.parkId s x1 x2 x3).1 := by
  unfold State.parkId; repeat' first | with_reducible exact Kept.refl | with_reducible apply Kept.step State.park_kept | (show _ = _; rfl)

end Sys2Proof.Machine
end

