-- ==== Sys2Proof/Laws/FrameBanks.lean ====
section
/-!
SUPPORT. Sys2Proof/Laws/FrameBanks.lean: what each operation of Machine/Banks.lean may change, and that it keeps the canonical forms.
-/
namespace Sys2Proof.Machine
open Sys2Proof

theorem State.bufWrite_kept {s : State} {x1 x2 x3 x4} : Kept [.host, .mem] s (State.bufWrite s x1 x2 x3 x4) := by
  unfold State.bufWrite; repeat' first
      | with_reducible exact Kept.refl | with_reducible apply Kept.step State.post_kept | with_reducible apply Kept.step State.memWrite_kept
      | (show _ = _; rfl) | split

end Sys2Proof.Machine
end

