-- ==== Sys2Proof/Laws/FramePort.lean ====
section
/-!
SUPPORT. Sys2Proof/Laws/FramePort.lean: what each operation of Machine/Port.lean may change, and that it keeps the canonical forms.
-/
namespace Sys2Proof.Machine
open Sys2Proof

theorem State.countPort_kept {s : State} {x1 x2 x3} : Kept [.ctr] s (State.countPort s x1 x2 x3) := by
  unfold State.countPort; repeat' first | with_reducible exact Kept.refl | (show _ = _; rfl) | with_reducible apply Kept.put_ctr

theorem State.countStamp_kept {s : State} {x1 x2} : Kept [.regs, .cal] s (State.countStamp s x1 x2) := by
  unfold State.countStamp; repeat' first
      | (extract_lets +onlyGivenNames v; apply Kept.gen (v := v); subst v; rotate_left; clear_value v; intro h; rotate_right)
      | with_reducible assumption | with_reducible exact Kept.refl | with_reducible apply Kept.step State.bump_kept | (show _ = _; rfl)
      | with_reducible apply Kept.put_cal

theorem State.modLane_kept {s : State} {x1 x2} : Kept [.lanes] s (State.modLane s x1 x2) := by
  unfold State.modLane; repeat' first | with_reducible exact Kept.refl | (show _ = _; rfl) | with_reducible apply Kept.put_lanes

theorem State.out_kept {s : State} {x1} : Kept [.line] s (State.out s x1) := by
  unfold State.out; repeat' first | with_reducible exact Kept.refl | (show _ = _; rfl) | with_reducible apply Kept.put_line

theorem State.send_kept {s : State} {x1 x2} : Kept [.ctr, .lanes, .line] s (State.send s x1 x2) := by
  unfold State.send; repeat' first
      | (extract_lets +onlyGivenNames v; apply Kept.gen (v := v); subst v; rotate_left; clear_value v; intro h; rotate_right)
      | with_reducible assumption | with_reducible exact Kept.refl | with_reducible apply Kept.step State.modLane_kept
      | with_reducible apply Kept.step State.out_kept | with_reducible apply Kept.step State.countPort_kept
      | with_reducible apply State.when_kept | (show _ = _; rfl)

theorem State.sendCtrl_kept {s : State} {x1 x2} : Kept [.regs, .ctr, .lanes, .cal, .line] s (State.sendCtrl s x1 x2) := by
  unfold State.sendCtrl; repeat' first
      | with_reducible exact Kept.refl | with_reducible apply Kept.step State.countPort_kept
      | with_reducible apply Kept.step State.countStamp_kept | with_reducible apply Kept.step State.send_kept | (show _ = _; rfl)

theorem State.modMac_kept {s : State} {x1 x2} : Kept [.ports] s (State.modMac s x1 x2) := by
  unfold State.modMac; repeat' first | with_reducible exact Kept.refl | (show _ = _; rfl) | with_reducible apply Kept.put_ports

theorem State.sendPause_kept {s : State} {x1 x2 x3} : Kept [.regs, .ctr, .lanes, .ports, .cal, .line] s (State.sendPause s x1 x2 x3) := by
  unfold State.sendPause; repeat' first
      | (extract_lets +onlyGivenNames v; apply Kept.gen (v := v); subst v; rotate_left; clear_value v; intro h; rotate_right)
      | with_reducible assumption | with_reducible exact Kept.refl | with_reducible apply Kept.ite
      | with_reducible apply Kept.step State.sendCtrl_kept | with_reducible apply Kept.step State.modMac_kept | (show _ = _; rfl)

theorem State.showXoff_kept {s : State} {x1} : Kept [.regs, .ctr, .lanes, .ports, .cal, .line] s (State.showXoff s x1) := by
  unfold State.showXoff; repeat' first
      | intro _ | (extract_lets +onlyGivenNames v; apply Kept.gen (v := v); subst v; rotate_left; clear_value v; intro h; rotate_right)
      | with_reducible assumption | with_reducible exact Kept.refl | with_reducible apply Kept.ite
      | with_reducible apply Kept.step State.setF_kept | with_reducible apply Kept.step State.sendPause_kept
      | with_reducible apply Kept.step State.countPort_kept | with_reducible apply State.each_kept | (show _ = _; rfl)

theorem State.showPause_kept {s : State} {x1} : Kept [.regs, .ctr, .ports] s (State.showPause s x1) := by
  unfold State.showPause; repeat' first
      | (extract_lets +onlyGivenNames v; apply Kept.gen (v := v); subst v; rotate_left; clear_value v; intro h; rotate_right)
      | with_reducible assumption | with_reducible exact Kept.refl | with_reducible apply Kept.ite
      | with_reducible apply Kept.step State.setF_kept | with_reducible apply Kept.step State.countPort_kept
      | with_reducible apply Kept.step State.modMac_kept | (show _ = _; rfl)

theorem State.clearPause_kept {s : State} {x1} : Kept [.regs, .ctr, .ports] s (State.clearPause s x1) := by
  unfold State.clearPause; repeat' first
      | with_reducible exact Kept.refl | with_reducible apply Kept.step State.showPause_kept | with_reducible apply Kept.step State.setF_kept
      | with_reducible apply Kept.step State.modMac_kept | (show _ = _; rfl)

theorem State.flushCtrl_kept {s : State} {x1} : Kept [.regs, .ctr, .lanes, .ports, .cal, .line] s (State.flushCtrl s x1) := by
  unfold State.flushCtrl; repeat' first
      | intro _ | with_reducible assumption | with_reducible exact Kept.refl | with_reducible apply Kept.step State.sendCtrl_kept
      | with_reducible apply State.each_kept | with_reducible apply Kept.step State.modMac_kept | (show _ = _; rfl)

theorem State.askXoff_kept {s : State} {x1 x2 x3} : Kept [.regs, .ctr, .lanes, .ports, .cal, .line] s (State.askXoff s x1 x2 x3) := by
  unfold State.askXoff; repeat' first
      | with_reducible exact Kept.refl | with_reducible apply Kept.step State.showXoff_kept | with_reducible apply Kept.step State.modMac_kept
      | (show _ = _; rfl)

theorem State.saWrite_kept {s : State} {x1 x2} : Kept [.regs, .ports] s (State.saWrite s x1 x2) := by
  unfold State.saWrite; repeat' first
      | (extract_lets +onlyGivenNames v; apply Kept.gen (v := v); subst v; rotate_left; clear_value v; intro h; rotate_right)
      | with_reducible assumption | with_reducible exact Kept.refl | with_reducible apply Kept.step State.putRw_kept | (show _ = _; rfl)
      | split | with_reducible apply Kept.put_ports

theorem State.queueOwn_kept {s : State} {x1 x2} : Kept [.ports] s (State.queueOwn s x1 x2) := by
  unfold State.queueOwn; repeat' first | with_reducible exact Kept.refl | with_reducible apply Kept.step State.modMac_kept | (show _ = _; rfl)

theorem State.endPause_kept {s : State} {x1 x2} : Kept [.regs, .ports] s (State.endPause s x1 x2) := by
  unfold State.endPause; repeat' first
      | (extract_lets +onlyGivenNames v; apply Kept.gen (v := v); subst v; rotate_left; clear_value v; intro h; rotate_right)
      | with_reducible assumption | with_reducible exact Kept.refl | with_reducible apply Kept.step State.setF_kept
      | with_reducible apply Kept.step State.modMac_kept | (show _ = _; rfl) | split

theorem State.rxPause_kept {s : State} {x1 x2 x3} : Kept [.regs, .ports] s (State.rxPause s x1 x2 x3) := by
  unfold State.rxPause; repeat' first
      | with_reducible exact Kept.refl | with_reducible apply Kept.step State.endPause_kept | with_reducible apply Kept.step State.modMac_kept
      | (show _ = _; rfl) | split

end Sys2Proof.Machine
end

