-- ==== Sys2Proof/Laws/FrameTime.lean ====
section
/-!
SUPPORT. Sys2Proof/Laws/FrameTime.lean: what each operation of Machine/Time.lean may change, and that it keeps the canonical forms.
-/
namespace Sys2Proof.Machine
open Sys2Proof

theorem State.showBeat_kept {s : State} : Kept [.regs] s (State.showBeat s) := by
  unfold State.showBeat; repeat' first | with_reducible exact Kept.refl | with_reducible apply Kept.step State.setF_kept | (show _ = _; rfl)

theorem State.showIncr_kept {s : State} {x1} : Kept [.regs] s (State.showIncr s x1) := by
  unfold State.showIncr; repeat' first
      | with_reducible exact Kept.refl | with_reducible apply Kept.step State.setReg_kept | (show _ = _; rfl) | split

theorem State.showComp_kept {s : State} {x1} : Kept [.regs] s (State.showComp s x1) := by
  unfold State.showComp; repeat' first | with_reducible exact Kept.refl | with_reducible apply Kept.step State.setReg_kept | (show _ = _; rfl)

theorem State.setVal_kept {s : State} {x1 x2} : Kept [.cnt] s (State.setVal s x1 x2) := by
  unfold State.setVal; repeat' first | with_reducible exact Kept.refl | with_reducible apply Kept.step State.modCnt_kept | (show _ = _; rfl)

theorem State.setIncr_kept {s : State} {x1 x2 x3} : Kept [.regs, .cnt, .host, .cores] s (State.setIncr s x1 x2 x3) := by
  unfold State.setIncr; repeat' first
      | (extract_lets +onlyGivenNames v; apply Kept.gen (v := v); subst v; rotate_left; clear_value v; intro h; rotate_right)
      | with_reducible assumption | with_reducible exact Kept.refl | with_reducible apply Kept.ite
      | with_reducible apply Kept.step State.setF_kept | with_reducible apply Kept.step State.raise_kept
      | with_reducible apply Kept.step State.modCnt_kept | with_reducible apply Kept.step State.showIncr_kept | (show _ = _; rfl)

theorem State.addVal_kept {s : State} {x1 x2} : Kept [.cnt] s (State.addVal s x1 x2) := by
  unfold State.addVal; repeat' first | with_reducible exact Kept.refl | with_reducible apply Kept.step State.modCnt_kept | (show _ = _; rfl)

theorem State.recordStep_kept {s : State} {x1 x2 x3} : Kept [.regs, .time] s (State.recordStep s x1 x2 x3) := by
  unfold State.recordStep; repeat' first
      | (extract_lets +onlyGivenNames v; apply Kept.gen (v := v); subst v; rotate_left; clear_value v; intro h; rotate_right)
      | with_reducible assumption | with_reducible exact Kept.refl | with_reducible apply Kept.step State.setF_kept
      | with_reducible apply Kept.modTime | (show _ = _; rfl)

theorem State.setLocked_kept {s : State} {x1} : Kept [.regs] s (State.setLocked s x1) := by
  unfold State.setLocked; repeat' first
      | with_reducible exact Kept.refl | with_reducible apply Kept.step State.setF_kept | (show _ = _; rfl) | split

theorem State.latchCounters_kept {s : State} : Kept [.regs, .time] s (State.latchCounters s) := by
  unfold State.latchCounters; repeat' first
      | intro _ | (extract_lets +onlyGivenNames v; apply Kept.gen (v := v); subst v; rotate_left; clear_value v; intro h; rotate_right)
      | with_reducible assumption | with_reducible exact Kept.refl | with_reducible apply Kept.step State.setReg_kept
      | with_reducible apply Kept.step State.setF_kept | with_reducible apply State.each_kept | with_reducible apply Kept.modTime
      | (show _ = _; rfl)

theorem State.pass_kept {s : State} {x1} : Kept [.regs, .cnt, .time] s (State.pass s x1) := by
  unfold State.pass; repeat' first
      | with_reducible exact Kept.refl | with_reducible apply Kept.step State.ticks_kept
      | with_reducible apply Kept.step State.latchCounters_kept | (show _ = _; rfl) | split

theorem State.toTick_kept {s : State} {x1} : Kept [.regs, .cnt, .time] s (State.toTick s x1) := by
  unfold State.toTick; repeat' first | with_reducible exact Kept.refl | with_reducible apply Kept.step State.pass_kept | (show _ = _; rfl) | split

theorem State.reachTick_kept {s : State} {x1} : Kept [.regs, .cnt, .time] s (State.reachTick s x1) := by
  unfold State.reachTick; repeat' first
      | (extract_lets +onlyGivenNames v; apply Kept.gen (v := v); subst v; rotate_left; clear_value v; intro h; rotate_right)
      | with_reducible assumption | with_reducible exact Kept.refl | with_reducible apply Kept.step State.toTick_kept | (show _ = _; rfl) | split

theorem State.planBeat_kept {s : State} {x1} : Kept [.time] s (State.planBeat s x1) := by
  unfold State.planBeat; repeat' first | with_reducible exact Kept.refl | with_reducible apply Kept.modTime | (show _ = _; rfl)

theorem State.idle_kept {s : State} : Kept [.regs, .cnt, .time] s (State.idle s) := by
  unfold State.idle; repeat' first | with_reducible exact Kept.refl | with_reducible apply Kept.step State.pass_kept | (show _ = _; rfl) | split

end Sys2Proof.Machine
end

