-- ==== Sys2Proof/Laws/FrameRedund.lean ====
section
/-!
SUPPORT. Sys2Proof/Laws/FrameRedund.lean: what each operation of Machine/Redund.lean may change, and that it keeps the canonical forms.
-/
namespace Sys2Proof.Machine
open Sys2Proof

theorem State.modRedund_kept {s : State} {x1} : Kept [.redund] s (State.modRedund s x1) := by
  unfold State.modRedund; repeat' first | with_reducible exact Kept.refl | (show _ = _; rfl) | with_reducible apply Kept.put_redund

theorem State.sign_kept {s : State} {x1 x2} : Kept [.redund] s (State.sign s x1 x2) := by
  unfold State.sign; repeat' first | with_reducible exact Kept.refl | with_reducible apply Kept.step State.modRedund_kept | (show _ = _; rfl)

theorem State.gated_kept {L : List Part} {s t : State} {x1 x2 x3} (g : ∀ v, Kept L s v → Kept L s (x3 v)) (hs :
    subParts [.regs, .cores, .redund] L = true) (h : Kept L s t) :
    Kept L s (State.gated t x1 x2 x3) := by
  unfold State.gated; repeat' first
      | (extract_lets +onlyGivenNames v; apply Kept.gen (v := v); subst v; rotate_left; clear_value v; intro h; rotate_right)
      | with_reducible assumption | with_reducible apply Kept.step State.sign_kept | with_reducible apply Kept.step State.bump_kept
      | with_reducible apply Kept.step State.perf_kept | exact subParts.trans (by decide) hs | with_reducible apply g | split

theorem State.staging_kept {L : List Part} {s t : State} {x1} (g : ∀ v, Kept L s v → Kept L s (x1 v)) (hs : subParts [.waiting] L = true) (h :
    Kept L s t) :
    Kept L s (State.staging t x1) := by
  unfold State.staging; repeat' first
      | (extract_lets +onlyGivenNames v; apply Kept.gen (v := v); subst v; rotate_left; clear_value v; intro h; rotate_right)
      | with_reducible assumption | exact subParts.mem hs rfl | with_reducible apply g | with_reducible apply Kept.put_waiting

theorem State.byWriter_kept {L : List Part} {s t : State} {x1 x2 x3 x4} (g : ∀ v, Kept L s v → Kept L s (x4 v)) (hs :
    subParts [.regs, .cores, .redund, .waiting] L = true) (h : Kept L s t) :
    Kept L s (State.byWriter t x1 x2 x3 x4) := by
  unfold State.byWriter; repeat' first
      | intro _ | with_reducible assumption | with_reducible apply State.gated_kept | with_reducible apply State.staging_kept
      | exact subParts.trans (by decide) hs | with_reducible apply g | split

theorem State.took_kept {s : State} {x1 x2} : Kept [.written] s (State.took s x1 x2) := by
  unfold State.took; repeat' first | with_reducible exact Kept.refl | (show _ = _; rfl) | with_reducible apply Kept.put_written

theorem State.setPair_kept {s : State} {x1 x2} : Kept [.regs] s (State.setPair s x1 x2) := by
  unfold State.setPair; repeat' first | with_reducible exact Kept.refl | with_reducible apply Kept.step State.setF_kept | (show _ = _; rfl)

theorem State.markHeld_kept {s : State} : Kept [.regs, .redund] s (State.markHeld s) := by
  unfold State.markHeld; repeat' first
      | (extract_lets +onlyGivenNames v; apply Kept.gen (v := v); subst v; rotate_left; clear_value v; intro h; rotate_right)
      | with_reducible assumption | with_reducible exact Kept.refl | with_reducible apply Kept.step State.bump_kept
      | with_reducible apply Kept.step State.setF_kept | with_reducible apply Kept.step State.modRedund_kept | (show _ = _; rfl) | split

theorem State.passLock_kept {s : State} {x1 x2 x3 x4} : Kept [.regs, .host, .cores, .redund] s (State.passLock s x1 x2 x3 x4) := by
  unfold State.passLock; repeat' first
      | (extract_lets +onlyGivenNames v; apply Kept.gen (v := v); subst v; rotate_left; clear_value v; intro h; rotate_right)
      | with_reducible assumption | with_reducible exact Kept.refl | with_reducible apply Kept.step State.bump_kept
      | with_reducible apply Kept.step State.setF_kept | with_reducible apply Kept.step State.raiseInt_kept
      | with_reducible apply Kept.step State.raise_kept | with_reducible apply Kept.step State.modRedund_kept
      | with_reducible apply Kept.step State.markHeld_kept | with_reducible apply Kept.step State.setPair_kept | (show _ = _; rfl)

theorem State.swapStep_kept {s : State} : Kept [.regs, .host, .cores, .redund] s (State.swapStep s) := by
  unfold State.swapStep; repeat' first
      | (extract_lets +onlyGivenNames v; apply Kept.gen (v := v); subst v; rotate_left; clear_value v; intro h; rotate_right)
      | with_reducible assumption | with_reducible exact Kept.refl | with_reducible apply Kept.ite
      | with_reducible apply Kept.step State.late_kept | with_reducible apply Kept.step State.finish_kept
      | with_reducible apply Kept.step State.passLock_kept | with_reducible apply Kept.step State.modRedund_kept
      | with_reducible apply Kept.step State.setPair_kept | (show _ = _; rfl) | split

theorem State.boardPin_kept {s : State} : Kept [.regs, .redund, .freeCtr] s (State.boardPin s) := by
  unfold State.boardPin; repeat' first
      | with_reducible exact Kept.refl | with_reducible apply Kept.step State.fresh_kept | with_reducible apply Kept.step State.setF_kept
      | with_reducible apply Kept.step State.modRedund_kept | (show _ = _; rfl)

theorem State.failCore_kept {s : State} {x1} : Kept [.regs, .cores] s (State.failCore s x1) := by
  unfold State.failCore; repeat' first
      | with_reducible exact Kept.refl | with_reducible apply Kept.step State.setF_kept | with_reducible apply Kept.step State.modCore_kept
      | with_reducible apply Kept.step State.setPair_kept | (show _ = _; rfl)

theorem State.pairFault_kept {s : State} {x1 x2 x3} : Kept [.regs, .host, .cores] s (State.pairFault s x1 x2 x3) := by
  unfold State.pairFault; repeat' first | with_reducible exact Kept.refl | with_reducible apply Kept.step State.raise_kept | (show _ = _; rfl)

theorem State.diverge_kept {s : State} : Kept [.regs, .host, .cores, .redund] s (State.diverge s) := by
  unfold State.diverge; repeat' first
      | (extract_lets +onlyGivenNames v; apply Kept.gen (v := v); subst v; rotate_left; clear_value v; intro h; rotate_right)
      | with_reducible assumption | with_reducible exact Kept.refl | with_reducible apply Kept.ite
      | with_reducible apply Kept.step State.bump_kept | with_reducible apply Kept.step State.failCore_kept
      | with_reducible apply Kept.step State.modRedund_kept | with_reducible apply Kept.step State.setPair_kept
      | with_reducible apply Kept.step State.pairFault_kept | (show _ = _; rfl)

theorem State.holderFailed_kept {s : State} {x1} : Kept [.regs, .host, .cores, .redund] s (State.holderFailed s x1) := by
  unfold State.holderFailed; repeat' first
      | (extract_lets +onlyGivenNames v; apply Kept.gen (v := v); subst v; rotate_left; clear_value v; intro h; rotate_right)
      | with_reducible assumption | with_reducible exact Kept.refl | with_reducible apply Kept.ite
      | with_reducible apply Kept.step State.setF_kept | with_reducible apply Kept.step State.failCore_kept
      | with_reducible apply Kept.step State.passLock_kept | with_reducible apply Kept.step State.modRedund_kept
      | with_reducible apply Kept.step State.markHeld_kept | with_reducible apply Kept.step State.pairFault_kept | (show _ = _; rfl)

theorem State.pathStep_kept {s : State} {x1 x2 x3} : Kept [.regs, .host, .cores, .redund] s (State.pathStep s x1 x2 x3) := by
  unfold State.pathStep; repeat' first
      | with_reducible exact Kept.refl | with_reducible apply Kept.ite | with_reducible apply Kept.step State.bump_kept
      | with_reducible apply Kept.step State.setF_kept | with_reducible apply Kept.step State.modRedund_kept
      | with_reducible apply Kept.step State.pairFault_kept | (show _ = _; rfl)

theorem State.hbStep_kept {s : State} {x1 x2} : Kept [.regs, .host, .cores, .redund] s (State.hbStep s x1 x2) := by
  unfold State.hbStep; repeat' first
      | intro _ | (extract_lets +onlyGivenNames v; apply Kept.gen (v := v); subst v; rotate_left; clear_value v; intro h; rotate_right)
      | with_reducible assumption | with_reducible exact Kept.refl | with_reducible apply Kept.ite
      | with_reducible apply Kept.step State.holderFailed_kept | with_reducible apply Kept.step State.setF_kept
      | with_reducible apply Kept.step State.failCore_kept | with_reducible apply State.each_kept
      | with_reducible apply Kept.step State.modRedund_kept | with_reducible apply Kept.step State.markHeld_kept
      | with_reducible apply Kept.step State.pathStep_kept | with_reducible apply State.when_kept
      | with_reducible apply Kept.step State.pairFault_kept | (show _ = _; rfl)

theorem State.boardEvent_kept {s : State} {x1 x2} : Kept [.regs, .host, .cores] s (State.boardEvent s x1 x2) := by
  unfold State.boardEvent; repeat' first | with_reducible exact Kept.refl | with_reducible apply Kept.step State.raise_kept | (show _ = _; rfl)

theorem State.boardRelease_kept {s : State} : Kept [.regs, .host, .cores, .redund] s (State.boardRelease s) := by
  unfold State.boardRelease; repeat' first
      | with_reducible exact Kept.refl | with_reducible apply Kept.step State.boardEvent_kept | with_reducible apply Kept.step State.setF_kept
      | with_reducible apply Kept.step State.modRedund_kept | (show _ = _; rfl) | split

theorem State.copyHolder_kept {s : State} {x1} : Kept [.regs, .cores, .mem] s (State.copyHolder s x1) := by
  unfold State.copyHolder
  extract_lets h x s1 s2 lo keep new mem
  have k : Kept [.regs, .cores, .mem] s s2 := Kept.step State.setF_kept (by decide) (Kept.step State.modCore_kept (by decide) Kept.refl)
  refine Kept.put_mem k rfl fun w => Tab.canon_copy (fun p hp => ?_) (Tab.canon_filter _ w)
  obtain ⟨q, hq, rfl⟩ := List.mem_map.1 hp
  exact ((Tab.canon_iff _ _).1 w).2 q (List.mem_filter.1 hq).1

theorem State.joinCopy_kept {s : State} {x1} : Kept [.regs, .cores, .mem, .redund] s (State.joinCopy s x1) := by
  unfold State.joinCopy; repeat' first
      | with_reducible exact Kept.refl | with_reducible apply Kept.step State.modRedund_kept
      | with_reducible apply Kept.step State.copyHolder_kept | with_reducible apply Kept.step State.setPair_kept | (show _ = _; rfl)

theorem State.resynced_kept {s : State} : Kept [.regs, .cores, .mem, .redund] s (State.resynced s) := by
  unfold State.resynced; repeat' first
      | with_reducible exact Kept.refl | with_reducible apply Kept.step State.modRedund_kept | with_reducible apply State.when_kept
      | with_reducible apply Kept.step State.joinCopy_kept | (show _ = _; rfl) | split

theorem State.redundBoundary_kept {s : State} {x1} : Kept [.regs, .host, .cores, .mem, .redund, .freeCtr] s (State.redundBoundary s x1) := by
  unfold State.redundBoundary; repeat' first
      | (extract_lets +onlyGivenNames v; apply Kept.gen (v := v); subst v; rotate_left; clear_value v; intro h; rotate_right)
      | with_reducible assumption | with_reducible exact Kept.refl | with_reducible apply Kept.step State.swapStep_kept
      | with_reducible apply Kept.step State.setF_kept | with_reducible apply Kept.step State.boardPin_kept
      | with_reducible apply Kept.step State.diverge_kept | with_reducible apply Kept.step State.hbStep_kept
      | with_reducible apply Kept.step State.boardRelease_kept | with_reducible apply Kept.step State.modRedund_kept
      | with_reducible apply Kept.step State.markHeld_kept | with_reducible apply State.when_kept
      | with_reducible apply Kept.step State.resynced_kept | (show _ = _; rfl) | split

theorem State.byPair_kept {L : List Part} {s t : State} {x1 x2} (g : ∀ v, Kept L s v → Kept L s (x2 v)) (hs :
    subParts [.regs, .cores, .redund] L = true) (h : Kept L s t) :
    Kept L s (State.byPair t x1 x2) := by
  unfold State.byPair; repeat' first
      | (extract_lets +onlyGivenNames v; apply Kept.gen (v := v); subst v; rotate_left; clear_value v; intro h; rotate_right)
      | with_reducible assumption | with_reducible apply State.gated_kept | with_reducible apply State.when_kept | with_reducible apply g

theorem State.pairSend_kept {s : State} {x1 x2} : Kept [.regs, .cores, .ports, .redund] s (State.pairSend s x1 x2) := by
  unfold State.pairSend; repeat' first
      | intro _ | with_reducible assumption | with_reducible exact Kept.refl | with_reducible apply State.byPair_kept
      | with_reducible apply Kept.step State.queueOwn_kept | (show _ = _; rfl)

theorem State.pairWrite_kept {s : State} {x1 x2} : Kept [.regs, .cores, .redund, .waiting] s (State.pairWrite s x1 x2) := by
  unfold State.pairWrite; repeat' first
      | intro _ | with_reducible assumption | with_reducible exact Kept.refl | with_reducible apply State.byPair_kept
      | with_reducible apply State.staging_kept | with_reducible apply Kept.step State.wait_kept | (show _ = _; rfl)

theorem execPairSwap_next {s : State} {x0} : ∃ t, execPairSwap x0 s = .next t ∧ Kept [.regs, .host, .cores, .redund] s t := by
  refine ⟨_, rfl, ?_⟩; repeat' first
      | intro _ | with_reducible assumption | with_reducible exact Kept.refl | with_reducible apply Kept.step State.parkId_kept
      | with_reducible apply State.start_kept | with_reducible apply Kept.step State.complete_kept
      | with_reducible apply Kept.step State.modRedund_kept | (show _ = _; rfl) | split

theorem execHeartbeat_next {s : State} {x0 x1 x2} : ∃ t, execHeartbeat x0 x1 x2 s = .next t ∧ Kept [.redund] s t := by
  refine ⟨_, rfl, ?_⟩; repeat' first
      | with_reducible exact Kept.refl | with_reducible apply Kept.step State.modRedund_kept | (show _ = _; rfl) | split

theorem execBoardIntlkTake_next {s : State} : ∃ t, execBoardIntlkTake s = .next t ∧ Kept [.regs, .redund] s t := by
  refine ⟨_, rfl, ?_⟩; repeat' first
      | with_reducible exact Kept.refl | with_reducible apply Kept.step State.setF_kept | with_reducible apply Kept.step State.modRedund_kept
      | (show _ = _; rfl) | split

end Sys2Proof.Machine
end

