-- ==== Sys2Proof/Laws/FrameReset.lean ====
section
/-!
SUPPORT. Sys2Proof/Laws/FrameReset.lean: what each operation of Machine/Reset.lean may change, and that it keeps the canonical forms.
-/
namespace Sys2Proof.Machine
open Sys2Proof

theorem State.regsReset_kept {s : State} {x1} : Kept [.regs, .waiting] s (State.regsReset s x1) := by
  unfold State.regsReset; repeat' first
      | intro _ | (extract_lets +onlyGivenNames v; apply Kept.gen (v := v); subst v; rotate_left; clear_value v; intro h; rotate_right)
      | with_reducible assumption | with_reducible exact Kept.refl | with_reducible apply Kept.step State.setReg_kept
      | with_reducible apply State.each_kept | (show _ = _; rfl) | split | with_reducible apply Kept.put_waiting

theorem State.settle_kept {s : State} {x1 x2 x3 x4} : Kept [.regs] s (State.settle s x1 x2 x3 x4) := by
  unfold State.settle; repeat' first
      | intro _ | with_reducible assumption | with_reducible exact Kept.refl | with_reducible apply Kept.step State.setReg_kept
      | with_reducible apply State.each_kept | (show _ = _; rfl)

theorem State.regsRestore_kept {s : State} {x1} : Kept [.regs, .waiting] s (State.regsRestore s x1) := by
  unfold State.regsRestore; repeat' first
      | with_reducible exact Kept.refl | with_reducible apply Kept.step State.settle_kept | with_reducible apply Kept.step State.regsReset_kept
      | (show _ = _; rfl)

end Sys2Proof.Machine
end

