-- ==== Sys2Proof/Laws/FrameCores.lean ====
section
/-!
SUPPORT. Sys2Proof/Laws/FrameCores.lean: what each operation of Machine/Cores.lean may change, and that it keeps the canonical forms.
-/
namespace Sys2Proof.Machine
open Sys2Proof

theorem State.beatInt_kept {s : State} {x1} : Kept [.regs, .host, .cores] s (State.beatInt s x1) := by
  unfold State.beatInt; repeat' first
      | (extract_lets +onlyGivenNames v; apply Kept.gen (v := v); subst v; rotate_left; clear_value v; intro h; rotate_right)
      | with_reducible assumption | with_reducible exact Kept.refl | with_reducible apply Kept.step State.bump_kept
      | with_reducible apply Kept.step State.modCore_kept | with_reducible apply Kept.step State.late_kept
      | with_reducible apply Kept.step State.raiseInt_kept | with_reducible apply Kept.step State.perf_kept | (show _ = _; rfl) | split

theorem State.uncorrected_kept {s : State} {x1 x2 x3} : Kept [.regs, .host, .cores] s (State.uncorrected s x1 x2 x3) := by
  unfold State.uncorrected; repeat' first
      | (extract_lets +onlyGivenNames v; apply Kept.gen (v := v); subst v; rotate_left; clear_value v; intro h; rotate_right)
      | with_reducible assumption | with_reducible exact Kept.refl | with_reducible apply Kept.step State.bump_kept
      | with_reducible apply Kept.step State.raise_kept | (show _ = _; rfl)

theorem State.eccBank_kept {s : State} {x1 x2 x3 x4} : Kept [.regs, .host, .cores] s (State.eccBank s x1 x2 x3 x4).1 := by
  unfold State.eccBank; repeat' first
      | intro _ | with_reducible assumption | with_reducible exact Kept.refl | with_reducible apply Kept.step State.bump_kept
      | with_reducible apply Kept.step State.uncorrected_kept | with_reducible apply State.each_kept
      | with_reducible apply Kept.step State.perf_kept | with_reducible apply State.when_kept | (show _ = _; rfl) | split

theorem State.memErr_kept {s : State} : Kept [.regs] s (State.memErr s) := by
  unfold State.memErr; repeat' first | with_reducible exact Kept.refl | with_reducible apply Kept.step State.setF_kept | (show _ = _; rfl)

theorem State.showIlv_kept {s : State} {x1} : Kept [.regs] s (State.showIlv s x1) := by
  unfold State.showIlv; repeat' first | with_reducible exact Kept.refl | with_reducible apply Kept.step State.setF_kept | (show _ = _; rfl) | split

theorem State.bankCtrlWrite_kept {s : State} {x1 x2 x3} : Kept [.regs] s (State.bankCtrlWrite s x1 x2 x3) := by
  unfold State.bankCtrlWrite; repeat' first
      | (extract_lets +onlyGivenNames v; apply Kept.gen (v := v); subst v; rotate_left; clear_value v; intro h; rotate_right)
      | with_reducible assumption | with_reducible exact Kept.refl | with_reducible apply Kept.ite
      | with_reducible apply Kept.step State.setF_kept | with_reducible apply Kept.step State.memErr_kept
      | with_reducible apply Kept.step State.showIlv_kept | (show _ = _; rfl)

theorem State.coreKick_kept {s : State} {x1} : Kept [.cores] s (State.coreKick s x1) := by
  unfold State.coreKick; repeat' first | with_reducible exact Kept.refl | with_reducible apply Kept.step State.modCore_kept | (show _ = _; rfl)

theorem State.coreWdtWrite_kept {s : State} {x1 x2} : Kept [.regs, .cores] s (State.coreWdtWrite s x1 x2) := by
  unfold State.coreWdtWrite; repeat' first
      | (extract_lets +onlyGivenNames v; apply Kept.gen (v := v); subst v; rotate_left; clear_value v; intro h; rotate_right)
      | with_reducible assumption | with_reducible exact Kept.refl | with_reducible apply Kept.step State.memErr_kept
      | with_reducible apply Kept.step State.coreKick_kept | with_reducible apply Kept.step State.putRw_kept | (show _ = _; rfl) | split

theorem State.quadWrite_kept {s : State} {x1 x2 x3} : Kept [.regs, .cores] s (State.quadWrite s x1 x2 x3) := by
  unfold State.quadWrite; repeat' first
      | intro _ | (extract_lets +onlyGivenNames v; apply Kept.gen (v := v); subst v; rotate_left; clear_value v; intro h; rotate_right)
      | (extract_lets +onlyGivenNames v; have q : CoresSt := v; clear q; subst v) | with_reducible assumption | with_reducible exact Kept.refl
      | with_reducible apply Kept.step State.setF_kept | with_reducible apply Kept.step State.memErr_kept
      | with_reducible apply State.each_kept | with_reducible apply Kept.step State.showIlv_kept | (show _ = _; rfl) | split
      | with_reducible apply Kept.put_cores

theorem State.tagLoad_kept {s : State} {x1} : Kept [.cores] s (State.tagLoad s x1) := by
  unfold State.tagLoad; repeat' first
      | with_reducible exact Kept.refl | with_reducible apply Kept.step State.modCore_kept | (show _ = _; rfl) | split

theorem State.tagPop_kept {s : State} {x1} : Kept [.regs] s (State.tagPop s x1) := by
  unfold State.tagPop; repeat' first
      | with_reducible exact Kept.refl | with_reducible apply Kept.ite | with_reducible apply Kept.step State.setF_kept | (show _ = _; rfl)

theorem State.mbByte_kept {s : State} {x1 x2 x3} : Kept [.cores] s (State.mbByte s x1 x2 x3) := by
  unfold State.mbByte; repeat' first | with_reducible exact Kept.refl | with_reducible apply Kept.step State.modCore_kept | (show _ = _; rfl)

theorem State.evtRelease_kept {s : State} {x1} : Kept [.cores] s (State.evtRelease s x1) := by
  unfold State.evtRelease; repeat' first
      | with_reducible exact Kept.refl | with_reducible apply Kept.step State.modCore_kept | (show _ = _; rfl) | split

theorem State.mbPost_kept {s : State} {x1 x2} : Kept [.regs, .cores] s (State.mbPost s x1 x2) := by
  unfold State.mbPost; repeat' first
      | with_reducible exact Kept.refl | with_reducible apply Kept.step State.modCore_kept | with_reducible apply Kept.step State.perf_kept
      | (show _ = _; rfl) | split

theorem State.beatAck_kept {s : State} {x1} : Kept [.cores] s (State.beatAck s x1) := by
  unfold State.beatAck; repeat' first | with_reducible exact Kept.refl | with_reducible apply Kept.step State.modCore_kept | (show _ = _; rfl)

theorem State.localWrite_kept {s : State} {x1 x2 x3 x4} : Kept [.regs, .cores] s (State.localWrite s x1 x2 x3 x4) := by
  unfold State.localWrite; repeat' first
      | with_reducible exact Kept.refl | with_reducible apply Kept.ite | with_reducible apply Kept.step State.evtRelease_kept
      | with_reducible apply Kept.step State.modCore_kept | with_reducible apply Kept.step State.coreKick_kept
      | with_reducible apply Kept.step State.mbPost_kept | with_reducible apply Kept.step State.beatAck_kept | (show _ = _; rfl)

theorem State.coreReset_kept {s : State} {x1} : Kept [.regs, .cores, .waiting] s (State.coreReset s x1) := by
  unfold State.coreReset; repeat' first
      | (extract_lets +onlyGivenNames v; apply Kept.gen (v := v); subst v; rotate_left; clear_value v; intro h; rotate_right)
      | with_reducible assumption | with_reducible exact Kept.refl | with_reducible apply Kept.step State.modCore_kept
      | with_reducible apply Kept.step State.regsRestore_kept | (show _ = _; rfl)

theorem State.dogMark_kept {s : State} : Kept [.power, .cores] s (State.dogMark s) := by
  unfold State.dogMark; repeat' first
      | intro _ | (extract_lets +onlyGivenNames v; apply Kept.gen (v := v); subst v; rotate_left; clear_value v; intro h; rotate_right)
      | with_reducible assumption | with_reducible exact Kept.refl | with_reducible apply Kept.step State.modCore_kept
      | with_reducible apply State.each_kept | (show _ = _; rfl) | with_reducible apply Kept.put_power

theorem State.setCoreState_kept {s : State} {x1 x2} : Kept [.regs, .power, .cores] s (State.setCoreState s x1 x2) := by
  unfold State.setCoreState; repeat' first
      | with_reducible exact Kept.refl | with_reducible apply Kept.step State.setF_kept | with_reducible apply Kept.step State.dogMark_kept
      | (show _ = _; rfl)

theorem State.coreStart_kept {s : State} {x1} : Kept [.regs, .power, .cores] s (State.coreStart s x1) := by
  unfold State.coreStart; repeat' first
      | with_reducible exact Kept.refl | with_reducible apply Kept.step State.setCoreState_kept
      | with_reducible apply Kept.step State.modCore_kept | (show _ = _; rfl) | split

theorem State.failParked_kept {s : State} : Kept [.regs, .host, .cores] s (State.failParked s) := by
  unfold State.failParked; repeat' first
      | intro _ | with_reducible assumption | with_reducible exact Kept.refl | with_reducible apply State.each_kept
      | with_reducible apply Kept.step State.endParked_kept | (show _ = _; rfl)

theorem State.coreRestart_kept {s : State} {x1} : Kept [.regs, .power, .host, .cores, .waiting] s (State.coreRestart s x1) := by
  unfold State.coreRestart; repeat' first
      | (extract_lets +onlyGivenNames v; apply Kept.gen (v := v); subst v; rotate_left; clear_value v; intro h; rotate_right)
      | with_reducible assumption | with_reducible exact Kept.refl | with_reducible apply Kept.step State.coreReset_kept
      | with_reducible apply Kept.step State.failParked_kept | with_reducible apply Kept.step State.coreStart_kept | (show _ = _; rfl) | split

theorem State.coreHalt_kept {s : State} {x1 x2} : Kept [.regs, .power, .host, .cores, .waiting] s (State.coreHalt s x1 x2) := by
  unfold State.coreHalt; repeat' first
      | (extract_lets +onlyGivenNames v; apply Kept.gen (v := v); subst v; rotate_left; clear_value v; intro h; rotate_right)
      | with_reducible assumption | with_reducible exact Kept.refl | with_reducible apply Kept.ite
      | with_reducible apply Kept.step State.setCoreState_kept | with_reducible apply Kept.step State.modCore_kept
      | with_reducible apply Kept.step State.coreRestart_kept | with_reducible apply Kept.step State.raise_kept | (show _ = _; rfl)

theorem State.storeTrap_kept {s : State} {x1 x2 x3 x4} : Kept [.regs, .cores] s (State.storeTrap s x1 x2 x3 x4) := by
  unfold State.storeTrap; repeat' first
      | (extract_lets +onlyGivenNames v; apply Kept.gen (v := v); subst v; rotate_left; clear_value v; intro h; rotate_right)
      | with_reducible assumption | with_reducible exact Kept.refl | with_reducible apply Kept.step State.setReg_kept
      | with_reducible apply Kept.step State.setF_kept | with_reducible apply Kept.step State.modCore_kept | (show _ = _; rfl)

theorem State.trap_kept {s : State} {x1 x2 x3} : Kept [.regs, .power, .host, .cores, .waiting] s (State.trap s x1 x2 x3) := by
  unfold State.trap; repeat' first
      | (extract_lets +onlyGivenNames v; apply Kept.gen (v := v); subst v; rotate_left; clear_value v; intro h; rotate_right)
      | with_reducible assumption | with_reducible exact Kept.refl | with_reducible apply Kept.ite
      | with_reducible apply Kept.step State.modCore_kept | with_reducible apply Kept.step State.coreHalt_kept
      | with_reducible apply Kept.step State.perf_kept | with_reducible apply Kept.step State.storeTrap_kept | (show _ = _; rfl)

theorem State.accessFault_kept {s : State} {x1 x2 x3} : Kept [.regs, .power, .host, .cores, .waiting] s (State.accessFault s x1 x2 x3) := by
  unfold State.accessFault; repeat' first
      | with_reducible exact Kept.refl | with_reducible apply Kept.step State.perf_kept | with_reducible apply Kept.step State.trap_kept
      | (show _ = _; rfl)

theorem State.chargeSlots_kept {s : State} {x1 x2} : Kept [.regs, .cores, .freeCtr] s (State.chargeSlots s x1 x2) := by
  unfold State.chargeSlots; repeat' first
      | intro _ | (extract_lets +onlyGivenNames v; apply Kept.gen (v := v); subst v; rotate_left; clear_value v; intro h; rotate_right)
      | with_reducible assumption | with_reducible exact Kept.refl | with_reducible apply Kept.ite
      | with_reducible apply Kept.step State.fresh_kept | with_reducible apply Kept.step State.modCore_kept
      | with_reducible apply State.each_kept | with_reducible apply Kept.step State.perf_kept | (show _ = _; rfl)

theorem State.useSlot_kept {s : State} {x1 x2} : Kept [.regs, .cores, .freeCtr] s (State.useSlot s x1 x2) := by
  unfold State.useSlot; repeat' first
      | with_reducible exact Kept.refl | with_reducible apply Kept.step State.modCore_kept | with_reducible apply Kept.step State.perf_kept
      | with_reducible apply Kept.step State.chargeSlots_kept | (show _ = _; rfl)

theorem State.tagDone_kept {s : State} {x1 x2 x3 x4 x5} : Kept [.regs, .cores, .freeCtr] s (State.tagDone s x1 x2 x3 x4 x5) := by
  unfold State.tagDone; repeat' first
      | intro _ | (extract_lets +onlyGivenNames v; apply Kept.gen (v := v); subst v; rotate_left; clear_value v; intro h; rotate_right)
      | with_reducible assumption | with_reducible exact Kept.refl | with_reducible apply Kept.step State.setReg_kept
      | with_reducible apply Kept.step State.fresh_kept | with_reducible apply Kept.step State.setF_kept
      | with_reducible apply Kept.step State.modCore_kept | with_reducible apply State.each_kept | (show _ = _; rfl) | split

theorem State.squash_kept {s : State} {x1 x2 x3 x4} : Kept [.regs, .cores, .freeCtr] s (State.squash s x1 x2 x3 x4) := by
  unfold State.squash; repeat' first
      | with_reducible exact Kept.refl | with_reducible apply Kept.step State.useSlot_kept | with_reducible apply Kept.step State.tagDone_kept
      | (show _ = _; rfl)

theorem State.trapFree_kept {s : State} {x1 x2} : Kept [.regs, .power, .host, .cores, .waiting, .freeCtr] s (State.trapFree s x1 x2) := by
  unfold State.trapFree; repeat' first
      | with_reducible exact Kept.refl | with_reducible apply Kept.step State.fresh_kept | with_reducible apply Kept.step State.trap_kept
      | (show _ = _; rfl)

theorem State.tagExpire_kept {s : State} {x1} : Kept [.regs, .cores] s (State.tagExpire s x1) := by
  unfold State.tagExpire; repeat' first
      | (extract_lets +onlyGivenNames v; apply Kept.gen (v := v); subst v; rotate_left; clear_value v; intro h; rotate_right)
      | with_reducible assumption | with_reducible exact Kept.refl | with_reducible apply Kept.step State.modCore_kept
      | with_reducible apply Kept.step State.perf_kept | with_reducible apply Kept.step State.tagLoad_kept | (show _ = _; rfl) | split

theorem State.tagEnter_kept {s : State} {x1} : Kept [.regs, .cores] s (State.tagEnter s x1) := by
  unfold State.tagEnter; repeat' first
      | (extract_lets +onlyGivenNames v; apply Kept.gen (v := v); subst v; rotate_left; clear_value v; intro h; rotate_right)
      | with_reducible assumption | with_reducible exact Kept.refl | with_reducible apply Kept.step State.modCore_kept
      | with_reducible apply Kept.step State.tagExpire_kept | (show _ = _; rfl) | split

theorem State.awake_kept {s : State} {x1} : Kept [.cores] s (State.awake s x1) := by
  unfold State.awake; repeat' first | with_reducible exact Kept.refl | with_reducible apply Kept.step State.modCore_kept | (show _ = _; rfl)

theorem State.slotFor_kept {s : State} {x1} : Kept [.regs, .cnt, .time] s (State.slotFor s x1) := by
  unfold State.slotFor; repeat' first
      | with_reducible exact Kept.refl | with_reducible apply Kept.step State.reachTick_kept | (show _ = _; rfl) | split

theorem State.issue_kept {L : List Part} {s t : State} {x1 x2} (g : ∀ v, Kept L s v → Kept L s (x2 v)) (hs :
    subParts [.regs, .cnt, .time, .cores] L = true) (h : Kept L s t) :
    Kept L s (State.issue t x1 x2) := by
  unfold State.issue; repeat' first
      | (extract_lets +onlyGivenNames v; apply Kept.gen (v := v); subst v; rotate_left; clear_value v; intro h; rotate_right)
      | with_reducible assumption | with_reducible apply Kept.step State.tagEnter_kept | with_reducible apply Kept.step State.slotFor_kept
      | exact subParts.trans (by decide) hs | with_reducible apply g | split

theorem State.powered_kept {s : State} {x1} : Kept [.regs, .mem] s (State.powered s x1) := by
  unfold State.powered; repeat' first
      | (extract_lets +onlyGivenNames v; apply Kept.gen (v := v); subst v; rotate_left; clear_value v; intro h; rotate_right)
      | (extract_lets +onlyGivenNames v; have q : CoresSt := v; clear q; subst v) | with_reducible assumption | with_reducible exact Kept.refl
      | with_reducible apply Kept.filterMem | with_reducible apply Kept.step State.setF_kept | (show _ = _; rfl) | split

theorem State.handed_kept {s : State} {x1} : Kept [.regs, .cores] s (State.handed s x1) := by
  unfold State.handed; repeat' first
      | (extract_lets +onlyGivenNames v; apply Kept.gen (v := v); subst v; rotate_left; clear_value v; intro h; rotate_right)
      | (extract_lets +onlyGivenNames v; have q : CoresSt := v; clear q; subst v) | with_reducible assumption | with_reducible exact Kept.refl
      | with_reducible apply Kept.step State.setF_kept | with_reducible apply Kept.step State.showIlv_kept | (show _ = _; rfl) | split
      | with_reducible apply Kept.put_cores

theorem State.coresFrom_kept {s : State} : Kept [.cores] s (State.coresFrom s) := by
  unfold State.coresFrom; repeat' first
      | intro _ | with_reducible assumption | with_reducible exact Kept.refl | with_reducible apply Kept.step State.modCore_kept
      | with_reducible apply State.each_kept | (show _ = _; rfl)

theorem State.takeInt_kept {s : State} {x1 x2} : Kept [.regs, .cores, .freeCtr] s (State.takeInt s x1 x2) := by
  unfold State.takeInt; repeat' first
      | (extract_lets +onlyGivenNames v; apply Kept.gen (v := v); subst v; rotate_left; clear_value v; intro h; rotate_right)
      | with_reducible assumption | with_reducible exact Kept.refl | with_reducible apply Kept.step State.fresh_kept
      | with_reducible apply Kept.step State.modCore_kept | with_reducible apply Kept.step State.perf_kept
      | with_reducible apply Kept.step State.storeTrap_kept | (show _ = _; rfl) | split

theorem State.timeWrap_kept {s : State} {x1 x2} : Kept [.regs, .cores] s (State.timeWrap s x1 x2) := by
  unfold State.timeWrap; repeat' first
      | (extract_lets +onlyGivenNames v; apply Kept.gen (v := v); subst v; rotate_left; clear_value v; intro h; rotate_right)
      | with_reducible assumption | with_reducible exact Kept.refl | with_reducible apply Kept.ite
      | with_reducible apply Kept.step State.setReg_kept | with_reducible apply Kept.step State.modCore_kept
      | with_reducible apply Kept.step State.raiseInt_kept | (show _ = _; rfl)

end Sys2Proof.Machine
end

