-- ==== Sys2Proof/Laws/FrameCoreRows.lean ====
section
/-!
SUPPORT. Sys2Proof/Laws/FrameCoreRows.lean: what each operation of Machine/CoreRows.lean may change, and that it keeps the canonical forms.
-/
namespace Sys2Proof.Machine
open Sys2Proof

theorem execQuadHandover_next {s : State} {x0 x1 x2} : ∃ t, execQuadHandover x0 x1 x2 s = .next t ∧ Kept [.regs, .cores] s t := by
  refine ⟨_, rfl, ?_⟩; repeat' first
      | with_reducible exact Kept.refl | with_reducible apply Kept.step State.quadWrite_kept | (show _ = _; rfl) | split

theorem execBankHandoverDone_next {s : State} {x0} : ∃ t, execBankHandoverDone x0 s = .next t ∧ Kept [.regs, .cores] s t := by
  refine ⟨_, rfl, ?_⟩; repeat' first | with_reducible exact Kept.refl | with_reducible apply Kept.step State.handed_kept | (show _ = _; rfl) | split

theorem execBankHandover_next {s : State} {x0 x1 x2} : ∃ t, execBankHandover x0 x1 x2 s = .next t ∧ Kept [.regs] s t := by
  refine ⟨_, rfl, ?_⟩; repeat' first
      | with_reducible exact Kept.refl | with_reducible apply Kept.step State.bankCtrlWrite_kept | (show _ = _; rfl) | split

theorem execCoreWdtKick_next {s : State} {x0 x1} : ∃ t, execCoreWdtKick x0 x1 s = .next t ∧ Kept [.cores] s t := by
  refine ⟨_, rfl, ?_⟩; repeat' first
      | with_reducible exact Kept.refl | with_reducible apply Kept.step State.coreKick_kept | (show _ = _; rfl) | split

theorem execTagCountdown_next {s : State} {x0} : ∃ t, execTagCountdown x0 s = .next t ∧ Kept [.regs, .cores] s t := by
  refine ⟨_, rfl, ?_⟩; repeat' first
      | with_reducible exact Kept.refl | with_reducible apply Kept.step State.tagExpire_kept | (show _ = _; rfl) | split

theorem execEvtRelease_next {s : State} {x0 x1} : ∃ t, execEvtRelease x0 x1 s = .next t ∧ Kept [.cores] s t := by
  refine ⟨_, rfl, ?_⟩; repeat' first
      | with_reducible exact Kept.refl | with_reducible apply Kept.step State.evtRelease_kept | (show _ = _; rfl) | split

theorem execBankPowerReached_next {s : State} {x0} : ∃ t, execBankPowerReached x0 s = .next t ∧ Kept [.regs, .mem] s t := by
  refine ⟨_, rfl, ?_⟩; repeat' first
      | with_reducible exact Kept.refl | with_reducible apply Kept.step State.powered_kept | (show _ = _; rfl) | split

theorem execBeatAck_next {s : State} {x0 x1} : ∃ t, execBeatAck x0 x1 s = .next t ∧ Kept [.cores] s t := by
  refine ⟨_, rfl, ?_⟩; repeat' first
      | with_reducible exact Kept.refl | with_reducible apply Kept.step State.beatAck_kept | (show _ = _; rfl) | split

theorem execMbPost_next {s : State} {x0 x1} : ∃ t, execMbPost x0 x1 s = .next t ∧ Kept [.regs, .cores] s t := by
  refine ⟨_, rfl, ?_⟩; repeat' first | with_reducible exact Kept.refl | with_reducible apply Kept.step State.mbPost_kept | (show _ = _; rfl) | split

theorem execCoreWdtWarn_next {s : State} {x0} : ∃ t, execCoreWdtWarn x0 s = .next t ∧ Kept [.cores] s t := by
  refine ⟨_, rfl, ?_⟩; repeat' first
      | with_reducible exact Kept.refl | with_reducible apply Kept.step State.raiseInt_kept | (show _ = _; rfl) | split

theorem execCoreWdt_next {s : State} {x0} : ∃ t, execCoreWdt x0 s = .next t ∧ Kept [.regs, .power, .host, .cores, .waiting] s t := by
  refine ⟨_, rfl, ?_⟩; repeat' first
      | (extract_lets +onlyGivenNames v; apply Kept.gen (v := v); subst v; rotate_left; clear_value v; intro h; rotate_right)
      | with_reducible assumption | with_reducible exact Kept.refl | with_reducible apply Kept.step State.setCoreState_kept
      | with_reducible apply Kept.step State.modCore_kept | with_reducible apply Kept.step State.awake_kept
      | with_reducible apply Kept.step State.coreRestart_kept | with_reducible apply Kept.step State.raise_kept | (show _ = _; rfl) | split

theorem execMemCopy_next {s : State} {x0 x1 x2} : ∃ t, execMemCopy x0 x1 x2 s = .next t ∧ Kept [.regs, .host, .cores, .mem] s t := by
  refine ⟨_, rfl, ?_⟩; repeat' first
      | intro _ | (extract_lets +onlyGivenNames v; apply Kept.gen (v := v.1); subst v; rotate_left; clear_value v; intro h; rotate_right)
      | with_reducible assumption | with_reducible exact Kept.refl | with_reducible apply State.start_kept
      | with_reducible apply Kept.step State.bufWrite_kept | with_reducible apply Kept.step State.complete_kept
      | with_reducible apply Kept.step State.eccBank_kept | with_reducible apply Kept.step State.memWrite_kept | (show _ = _; rfl) | split

theorem execTagPop_next {s : State} {x0} : ∃ t, execTagPop x0 s = .next t ∧ Kept [.regs] s t := by
  refine ⟨_, rfl, ?_⟩; repeat' first | with_reducible exact Kept.refl | with_reducible apply Kept.step State.tagPop_kept | (show _ = _; rfl) | split

theorem execPerfWrap_next {s : State} {x0 x1} : ∃ t, execPerfWrap x0 x1 s = .next t ∧ Kept [.regs, .cores] s t := by
  refine ⟨_, rfl, ?_⟩; repeat' first
      | with_reducible exact Kept.refl | with_reducible apply Kept.step State.timeWrap_kept | (show _ = _; rfl) | split

theorem execBankPower_next {s : State} {x0 x1 x2} : ∃ t, execBankPower x0 x1 x2 s = .next t ∧ Kept [.regs] s t := by
  refine ⟨_, rfl, ?_⟩; repeat' first
      | with_reducible exact Kept.refl | with_reducible apply Kept.step State.bankCtrlWrite_kept | (show _ = _; rfl) | split

end Sys2Proof.Machine
end

