-- ==== Sys2Proof/Laws/FrameServo.lean ====
section
/-!
SUPPORT. Sys2Proof/Laws/FrameServo.lean: what each operation of Machine/Servo.lean may change, and that it keeps the canonical forms.
-/
namespace Sys2Proof.Machine
open Sys2Proof

theorem State.modSess_kept {s : State} {x1 x2} : Kept [.servo] s (State.modSess s x1 x2) := by
  unfold State.modSess; repeat' first | with_reducible exact Kept.refl | (show _ = _; rfl) | with_reducible apply Kept.put_servo

theorem State.countFu_kept {s : State} {x1} : Kept [.servo] s (State.countFu s x1) := by
  unfold State.countFu; repeat' first | with_reducible exact Kept.refl | with_reducible apply Kept.step State.modSess_kept | (show _ = _; rfl)

theorem State.modSlot_kept {s : State} {x1 x2} : Kept [.servo] s (State.modSlot s x1 x2) := by
  unfold State.modSlot; repeat' first | with_reducible exact Kept.refl | (show _ = _; rfl) | with_reducible apply Kept.put_servo

theorem State.showReady_kept {s : State} {x1} : Kept [.regs] s (State.showReady s x1) := by
  unfold State.showReady; repeat' first | with_reducible exact Kept.refl | with_reducible apply Kept.step State.setF_kept | (show _ = _; rfl)

theorem State.goSlot_kept {s : State} {x1 x2 x3 x4} : Kept [.regs, .host, .cores, .servo] s (State.goSlot s x1 x2 x3 x4) := by
  unfold State.goSlot; repeat' first
      | (extract_lets +onlyGivenNames v; apply Kept.gen (v := v); subst v; rotate_left; clear_value v; intro h; rotate_right)
      | with_reducible assumption | with_reducible exact Kept.refl | with_reducible apply Kept.ite
      | with_reducible apply Kept.step State.setF_kept | with_reducible apply Kept.step State.modSlot_kept
      | with_reducible apply Kept.step State.raise_kept | with_reducible apply Kept.step State.showReady_kept
      | with_reducible apply State.when_kept | (show _ = _; rfl)

theorem State.loseSlot_kept {s : State} {x1 x2} : Kept [.regs, .host, .cores, .servo] s (State.loseSlot s x1 x2) := by
  unfold State.loseSlot; repeat' first
      | with_reducible exact Kept.refl | with_reducible apply Kept.step State.modSlot_kept | with_reducible apply Kept.step State.goSlot_kept
      | (show _ = _; rfl) | split

theorem State.slotUnfed_kept {s : State} {x1} : Kept [.regs, .host, .cores, .servo] s (State.slotUnfed s x1) := by
  unfold State.slotUnfed; repeat' first
      | with_reducible exact Kept.refl | with_reducible apply Kept.step State.loseSlot_kept
      | with_reducible apply Kept.step State.showReady_kept | (show _ = _; rfl) | split

theorem State.goSess_kept {s : State} {x1 x2 x3} : Kept [.regs, .host, .cores, .servo] s (State.goSess s x1 x2 x3) := by
  unfold State.goSess; repeat' first
      | (extract_lets +onlyGivenNames v; apply Kept.gen (v := v); subst v; rotate_left; clear_value v; intro h; rotate_right)
      | with_reducible assumption | with_reducible exact Kept.refl | with_reducible apply Kept.ite
      | with_reducible apply Kept.step State.modSess_kept | with_reducible apply Kept.step State.slotUnfed_kept
      | with_reducible apply Kept.step State.raise_kept | with_reducible apply Kept.step State.showReady_kept | (show _ = _; rfl) | split

theorem State.asymEff_kept {s : State} {x1 x2 x3} : Kept [.regs] s (State.asymEff s x1 x2 x3).1 := by
  unfold State.asymEff
  dsimp only
  split
  · exact Kept.refl
  · exact Kept.step State.setReg_kept rfl (Kept.step State.setReg_kept rfl (Kept.step State.setReg_kept rfl
      (State.when_kept (Kept.step State.setF_kept rfl) Kept.refl)))

theorem State.exchange_kept {s : State} {x1 x2 x3 x4 x5} : Kept [.regs, .host, .cores, .servo] s (State.exchange s x1 x2 x3 x4 x5) := by
  unfold State.exchange; repeat' first
      | (extract_lets +onlyGivenNames v; apply Kept.gen (v := v); subst v; rotate_left; clear_value v; intro h; rotate_right)
      | (extract_lets +onlyGivenNames v; apply Kept.gen (v := v.1); subst v; rotate_left; clear_value v; intro h; rotate_right)
      | (extract_lets +onlyGivenNames v; clear_value v) | with_reducible assumption | with_reducible exact Kept.refl
      | with_reducible apply Kept.step State.goSess_kept | with_reducible apply Kept.step State.modSess_kept
      | with_reducible apply Kept.step State.modSlot_kept | with_reducible apply Kept.step State.asymEff_kept | (show _ = _; rfl) | split

theorem State.modKl_kept {s : State} {x1 x2} : Kept [.servo] s (State.modKl s x1 x2) := by
  unfold State.modKl; repeat' first | with_reducible exact Kept.refl | with_reducible apply Kept.step State.modSess_kept | (show _ = _; rfl)

theorem State.klWindow_kept {s : State} {x1} : Kept [.regs, .host, .cores, .ports, .servo] s (State.klWindow s x1) := by
  unfold State.klWindow; repeat' first
      | (extract_lets +onlyGivenNames v; apply Kept.gen (v := v); subst v; rotate_left; clear_value v; intro h; rotate_right)
      | (extract_lets +onlyGivenNames v; clear_value v) | with_reducible assumption | with_reducible exact Kept.refl
      | with_reducible apply Kept.step State.modSess_kept | with_reducible apply Kept.step State.exchange_kept
      | with_reducible apply Kept.step State.queueOwn_kept | with_reducible apply Kept.step State.modKl_kept | (show _ = _; rfl) | split

theorem State.queuePtp_kept {s : State} {x1 x2 x3 x4 x5 x6 x7 x8} : Kept [.ports] s (State.queuePtp s x1 x2 x3 x4 x5 x6 x7 x8) := by
  unfold State.queuePtp; repeat' first | with_reducible exact Kept.refl | with_reducible apply Kept.step State.queueOwn_kept | (show _ = _; rfl)

theorem State.slotLoop_kept {s : State} {x1 x2 x3} : Kept [.regs, .cnt, .host, .cores, .servo] s (State.slotLoop s x1 x2 x3) := by
  unfold State.slotLoop; repeat' first
      | (extract_lets +onlyGivenNames v; apply Kept.gen (v := v); subst v; rotate_left; clear_value v; intro h; rotate_right)
      | with_reducible assumption | with_reducible exact Kept.refl | with_reducible apply Kept.ite
      | with_reducible apply Kept.step State.setF_kept | with_reducible apply Kept.step State.setIncr_kept
      | with_reducible apply Kept.step State.addVal_kept | with_reducible apply Kept.step State.modSlot_kept | (show _ = _; rfl)

theorem State.peerDelay_kept {s : State} {x1} : Kept [.regs] s (State.peerDelay s x1).1 := by
  unfold State.peerDelay; repeat' first
      | (extract_lets +onlyGivenNames v; apply Kept.gen (v := v.1); subst v; rotate_left; clear_value v; intro h; rotate_right)
      | (extract_lets +onlyGivenNames v; clear_value v) | with_reducible assumption | with_reducible exact Kept.refl
      | with_reducible apply Kept.step State.asymEff_kept | (show _ = _; rfl) | split

theorem State.noteStamp_kept {s : State} {x1 x2} : Kept [.servo] s (State.noteStamp s x1 x2).1 := by
  unfold State.noteStamp; repeat' first
      | with_reducible exact Kept.refl | with_reducible apply Kept.step State.modSess_kept | (show _ = _; rfl) | split

theorem State.ptpLeft_kept {s : State} {x1 x2 x3} : Kept [.regs, .host, .cores, .ports, .servo] s (State.ptpLeft s x1 x2 x3) := by
  unfold State.ptpLeft; repeat' first
      | with_reducible exact Kept.refl | with_reducible apply Kept.ite | with_reducible apply Kept.step State.goSess_kept
      | with_reducible apply Kept.step State.modSess_kept | with_reducible apply Kept.step State.queuePtp_kept | (show _ = _; rfl)

theorem State.ownSent_kept {s : State} {x1 x2 x3} :
    Kept [.regs, .ctr, .host, .cores, .lanes, .ports, .servo, .line] s (State.ownSent s x1 x2 x3) := by
  unfold State.ownSent; repeat' first
      | (extract_lets +onlyGivenNames v; apply Kept.gen (v := v); subst v; rotate_left; clear_value v; intro h; rotate_right)
      | with_reducible assumption | with_reducible exact Kept.refl | with_reducible apply Kept.step State.noteStamp_kept
      | with_reducible apply Kept.step State.countPort_kept | with_reducible apply Kept.step State.ptpLeft_kept
      | with_reducible apply State.when_kept | with_reducible apply Kept.step State.send_kept | (show _ = _; rfl)
      | (with_reducible apply Kept.fst (by assumption)) | split

theorem State.klNumber_kept {s : State} {x1 x2} : Kept [.servo] s (State.klNumber s x1 x2) := by
  unfold State.klNumber; repeat' first | with_reducible exact Kept.refl | with_reducible apply Kept.step State.modKl_kept | (show _ = _; rfl)

theorem State.syncDone_kept {s : State} {x1 x2} : Kept [.regs, .host, .cores, .servo] s (State.syncDone s x1 x2) := by
  unfold State.syncDone; repeat' first
      | (extract_lets +onlyGivenNames v; apply Kept.gen (v := v); subst v; rotate_left; clear_value v; intro h; rotate_right)
      | with_reducible assumption | with_reducible exact Kept.refl | with_reducible apply Kept.ite
      | with_reducible apply Kept.step State.modSess_kept | with_reducible apply Kept.step State.exchange_kept | (show _ = _; rfl) | split

theorem State.rxFollowUp_kept {s : State} {x1 x2} : Kept [.regs, .host, .cores, .servo] s (State.rxFollowUp s x1 x2) := by
  unfold State.rxFollowUp; repeat' first
      | with_reducible exact Kept.refl | with_reducible apply Kept.step State.modSess_kept | with_reducible apply Kept.step State.syncDone_kept
      | (show _ = _; rfl) | split

theorem State.dropSamples_kept {s : State} {x1} : Kept [.servo] s (State.dropSamples s x1) := by
  unfold State.dropSamples; repeat' first
      | with_reducible exact Kept.refl | with_reducible apply Kept.step State.modSlot_kept | (show _ = _; rfl) | split

theorem State.sessApply_kept {s : State} {x1} : Kept [.regs, .host, .cores, .servo] s (State.sessApply s x1) := by
  unfold State.sessApply; repeat' first
      | (extract_lets +onlyGivenNames v; apply Kept.gen (v := v); subst v; rotate_left; clear_value v; intro h; rotate_right)
      | with_reducible assumption | with_reducible exact Kept.refl | with_reducible apply Kept.ite
      | with_reducible apply Kept.step State.goSess_kept | with_reducible apply Kept.step State.modSess_kept
      | with_reducible apply Kept.step State.slotUnfed_kept | with_reducible apply Kept.step State.dropSamples_kept
      | with_reducible apply Kept.step State.showReady_kept | (show _ = _; rfl) | split

theorem State.sessGone_kept {s : State} : Kept [.regs, .host, .cores, .servo] s (State.sessGone s) := by
  unfold State.sessGone; repeat' first
      | intro _ | (extract_lets +onlyGivenNames v; apply Kept.gen (v := v); subst v; rotate_left; clear_value v; intro h; rotate_right)
      | with_reducible assumption | with_reducible exact Kept.refl | with_reducible apply Kept.step State.goSess_kept
      | with_reducible apply Kept.step State.modSess_kept | with_reducible apply Kept.step State.dropSamples_kept
      | with_reducible apply State.each_kept | (show _ = _; rfl)

theorem State.slotConfig_kept {s : State} {x1 x2 x3} : Kept [.regs, .host, .cores, .servo] s (State.slotConfig s x1 x2 x3) := by
  unfold State.slotConfig; repeat' first
      | (extract_lets +onlyGivenNames v; apply Kept.gen (v := v); subst v; rotate_left; clear_value v; intro h; rotate_right)
      | with_reducible assumption | with_reducible exact Kept.refl | with_reducible apply Kept.ite
      | with_reducible apply Kept.step State.setF_kept | with_reducible apply Kept.step State.modSlot_kept
      | with_reducible apply Kept.step State.goSlot_kept | (show _ = _; rfl)

theorem State.slotCoefs_kept {s : State} {x1} : Kept [.regs, .servo] s (State.slotCoefs s x1) := by
  unfold State.slotCoefs; repeat' first
      | with_reducible exact Kept.refl | with_reducible apply Kept.step State.setF_kept | with_reducible apply Kept.step State.modSlot_kept
      | (show _ = _; rfl)

theorem State.slotWritten_kept {s : State} {x1 x2} : Kept [.regs, .host, .cores, .servo] s (State.slotWritten s x1 x2) := by
  unfold State.slotWritten; repeat' first
      | intro _ | (extract_lets +onlyGivenNames v; apply Kept.gen (v := v); subst v; rotate_left; clear_value v; intro h; rotate_right)
      | with_reducible assumption | with_reducible exact Kept.refl | with_reducible apply Kept.step State.setF_kept
      | with_reducible apply Kept.step State.modSlot_kept | with_reducible apply State.each_kept
      | with_reducible apply Kept.step State.goSlot_kept | (show _ = _; rfl) | split

theorem State.candSample_kept {s : State} {x1 x2} : Kept [.refs] s (State.candSample s x1 x2) := by
  unfold State.candSample; repeat' first | with_reducible exact Kept.refl | (show _ = _; rfl) | with_reducible apply Kept.put_refs

theorem State.slotTrack_kept {s : State} {x1 x2 x3} : Kept [.regs, .cnt, .host, .cores, .servo, .refs] s (State.slotTrack s x1 x2 x3) := by
  unfold State.slotTrack; repeat' first
      | (extract_lets +onlyGivenNames v; apply Kept.gen (v := v); subst v; rotate_left; clear_value v; intro h; rotate_right)
      | with_reducible assumption | with_reducible exact Kept.refl | with_reducible apply Kept.ite
      | with_reducible apply Kept.step State.candSample_kept | with_reducible apply Kept.step State.setF_kept
      | with_reducible apply Kept.step State.addVal_kept | with_reducible apply Kept.step State.modSlot_kept
      | with_reducible apply Kept.step State.slotLoop_kept | with_reducible apply Kept.step State.goSlot_kept | (show _ = _; rfl)

theorem State.showOffset_kept {s : State} {x1 x2 x3 x4} : Kept [.regs, .servo] s (State.showOffset s x1 x2 x3 x4) := by
  unfold State.showOffset; repeat' first
      | (extract_lets +onlyGivenNames v; apply Kept.gen (v := v); subst v; rotate_left; clear_value v; intro h; rotate_right)
      | with_reducible assumption | with_reducible exact Kept.refl | with_reducible apply Kept.step State.setReg_kept
      | with_reducible apply Kept.step State.setF_kept | with_reducible apply Kept.step State.modSlot_kept | (show _ = _; rfl)

theorem State.slotPull_kept {s : State} {x1 x2} : Kept [.regs, .cnt, .host, .cores] s (State.slotPull s x1 x2) := by
  unfold State.slotPull; repeat' first | with_reducible exact Kept.refl | with_reducible apply Kept.step State.setIncr_kept | (show _ = _; rfl)

theorem State.slotUpdate_kept {s : State} {x1 x2 x3 x4} : Kept [.regs, .cnt, .host, .cores, .servo, .refs] s (State.slotUpdate s x1 x2 x3 x4) := by
  unfold State.slotUpdate; repeat' first
      | intro _ | (extract_lets +onlyGivenNames v; apply Kept.gen (v := v); subst v; rotate_left; clear_value v; intro h; rotate_right)
      | with_reducible assumption | with_reducible exact Kept.refl | with_reducible apply Kept.ite
      | with_reducible apply Kept.step State.slotTrack_kept | with_reducible apply Kept.step State.showOffset_kept
      | with_reducible apply Kept.step State.candSample_kept | with_reducible apply Kept.step State.bump_kept
      | with_reducible apply Kept.step State.loseSlot_kept | with_reducible apply Kept.step State.setIncr_kept
      | with_reducible apply Kept.step State.modSlot_kept | with_reducible apply Kept.step State.slotPull_kept
      | with_reducible apply Kept.step State.showReady_kept | with_reducible apply Kept.step State.goSlot_kept
      | with_reducible apply State.when_kept | (show _ = _; rfl)

theorem State.slotSwitch_kept {s : State} {x1} : Kept [.regs, .cnt, .host, .cores, .servo] s (State.slotSwitch s x1) := by
  unfold State.slotSwitch; repeat' first
      | (extract_lets +onlyGivenNames v; apply Kept.gen (v := v); subst v; rotate_left; clear_value v; intro h; rotate_right)
      | with_reducible assumption | with_reducible exact Kept.refl | with_reducible apply Kept.step State.setIncr_kept
      | with_reducible apply Kept.step State.modSlot_kept | with_reducible apply Kept.step State.raise_kept
      | with_reducible apply Kept.step State.slotPull_kept | with_reducible apply Kept.step State.goSlot_kept
      | with_reducible apply State.when_kept | (show _ = _; rfl) | split

theorem State.slotCountdown_kept {s : State} : Kept [.servo] s (State.slotCountdown s) := by
  unfold State.slotCountdown; repeat' first
      | intro _ | (extract_lets +onlyGivenNames v; apply Kept.gen (v := v); subst v; rotate_left; clear_value v; intro h; rotate_right)
      | with_reducible assumption | with_reducible exact Kept.refl | with_reducible apply Kept.step State.modSlot_kept
      | with_reducible apply State.each_kept | with_reducible apply State.when_kept | (show _ = _; rfl) | split
      | with_reducible apply Kept.put_servo

theorem State.showServo_kept {s : State} : Kept [.regs] s (State.showServo s) := by
  unfold State.showServo; repeat' first | with_reducible exact Kept.refl | with_reducible apply Kept.step State.setF_kept | (show _ = _; rfl)

theorem State.showStale_kept {s : State} : Kept [.servo] s (State.showStale s) := by
  unfold State.showStale; repeat' first
      | intro _ | with_reducible assumption | with_reducible exact Kept.refl | with_reducible apply Kept.step State.modSess_kept
      | with_reducible apply State.each_kept | (show _ = _; rfl)

theorem State.countSf_kept {s : State} {x1} : Kept [.servo] s (State.countSf s x1) := by
  unfold State.countSf; repeat' first | with_reducible exact Kept.refl | with_reducible apply Kept.step State.modSess_kept | (show _ = _; rfl)

theorem State.localStamp_kept {s : State} {x1 x2} : Kept [.servo] s (State.localStamp s x1 x2).1 := by
  unfold State.localStamp; repeat' first
      | with_reducible exact Kept.refl | with_reducible apply Kept.step State.modSess_kept | (show _ = _; rfl) | split

theorem State.klWord_kept {s : State} {x1 x2 x3} : Kept [.servo] s (State.klWord s x1 x2 x3) := by
  unfold State.klWord; repeat' first
      | (extract_lets +onlyGivenNames v; apply Kept.gen (v := v); subst v; rotate_left; clear_value v; intro h; rotate_right)
      | with_reducible assumption | with_reducible exact Kept.refl | with_reducible apply Kept.ite
      | with_reducible apply Kept.step State.countSf_kept | with_reducible apply Kept.step State.klNumber_kept
      | with_reducible apply Kept.step State.localStamp_kept | with_reducible apply Kept.step State.modKl_kept | (show _ = _; rfl)
      | (with_reducible apply Kept.fst (by assumption)) | split

theorem State.excuse_kept {s : State} {x1} : Kept [.servo] s (State.excuse s x1) := by
  unfold State.excuse; repeat' first | with_reducible exact Kept.refl | with_reducible apply Kept.step State.modSess_kept | (show _ = _; rfl)

theorem State.klStart_kept {s : State} {x1 x2} : Kept [.servo] s (State.klStart s x1 x2) := by
  unfold State.klStart; repeat' first
      | (extract_lets +onlyGivenNames v; apply Kept.gen (v := v); subst v; rotate_left; clear_value v; intro h; rotate_right)
      | with_reducible assumption | with_reducible exact Kept.refl | with_reducible apply Kept.step State.countSf_kept
      | with_reducible apply Kept.step State.klNumber_kept | with_reducible apply Kept.step State.modKl_kept
      | with_reducible apply State.when_kept | with_reducible apply Kept.step State.excuse_kept | (show _ = _; rfl) | split

theorem State.rxSync_kept {s : State} {x1 x2} : Kept [.regs, .host, .cores, .servo] s (State.rxSync s x1 x2) := by
  unfold State.rxSync; repeat' first
      | (extract_lets +onlyGivenNames v; apply Kept.gen (v := v); subst v; rotate_left; clear_value v; intro h; rotate_right)
      | with_reducible assumption | with_reducible exact Kept.refl | with_reducible apply Kept.ite
      | with_reducible apply Kept.step State.modSess_kept | with_reducible apply Kept.step State.syncDone_kept
      | with_reducible apply Kept.step State.localStamp_kept | with_reducible apply Kept.step State.excuse_kept | (show _ = _; rfl)
      | (with_reducible apply Kept.fst (by assumption)) | split

theorem State.newMpd_kept {s : State} {x1 x2 x3} : Kept [.regs, .host, .cores, .servo] s (State.newMpd s x1 x2 x3) := by
  unfold State.newMpd; repeat' first
      | (extract_lets +onlyGivenNames v; apply Kept.gen (v := v); subst v; rotate_left; clear_value v; intro h; rotate_right)
      | with_reducible assumption | with_reducible exact Kept.refl | with_reducible apply Kept.step State.goSess_kept
      | with_reducible apply Kept.step State.modSess_kept | (show _ = _; rfl) | split

theorem State.closeReq_kept {s : State} {x1 x2} : Kept [.servo] s (State.closeReq s x1 x2) := by
  unfold State.closeReq; repeat' first | with_reducible exact Kept.refl | with_reducible apply Kept.step State.modSess_kept | (show _ = _; rfl)

theorem State.countResp_kept {s : State} {x1} : Kept [.servo] s (State.countResp s x1) := by
  unfold State.countResp; repeat' first | with_reducible exact Kept.refl | with_reducible apply Kept.step State.modSess_kept | (show _ = _; rfl)

theorem State.rxDelayResp_kept {s : State} {x1 x2} : Kept [.regs, .host, .cores, .servo] s (State.rxDelayResp s x1 x2) := by
  unfold State.rxDelayResp; repeat' first
      | (extract_lets +onlyGivenNames v; apply Kept.gen (v := v); subst v; rotate_left; clear_value v; intro h; rotate_right)
      | with_reducible assumption | with_reducible exact Kept.refl | with_reducible apply Kept.step State.newMpd_kept
      | with_reducible apply Kept.step State.closeReq_kept | with_reducible apply Kept.step State.countResp_kept | (show _ = _; rfl) | split

theorem State.slotDeadline_kept {s : State} : Kept [.regs, .host, .cores, .servo] s (State.slotDeadline s) := by
  unfold State.slotDeadline; repeat' first
      | intro _ | (extract_lets +onlyGivenNames v; apply Kept.gen (v := v); subst v; rotate_left; clear_value v; intro h; rotate_right)
      | with_reducible assumption | with_reducible exact Kept.refl | with_reducible apply Kept.step State.bump_kept
      | with_reducible apply Kept.step State.modSess_kept | with_reducible apply Kept.step State.late_kept
      | with_reducible apply Kept.step State.modSlot_kept | with_reducible apply State.each_kept | (show _ = _; rfl) | split

theorem State.computeSlots_kept {s : State} : Kept [.servo] s (State.computeSlots s) := by
  unfold State.computeSlots; repeat' first
      | intro _ | (extract_lets +onlyGivenNames v; apply Kept.gen (v := v); subst v; rotate_left; clear_value v; intro h; rotate_right)
      | with_reducible assumption | with_reducible exact Kept.refl | with_reducible apply Kept.step State.modSlot_kept
      | with_reducible apply State.each_kept | (show _ = _; rfl) | split | with_reducible apply Kept.put_servo

theorem State.pdelayDone_kept {s : State} {x1 x2 x3 x4 x5 x6 x7} :
    Kept [.regs, .host, .cores, .servo] s (State.pdelayDone s x1 x2 x3 x4 x5 x6 x7) := by
  unfold State.pdelayDone; repeat' first
      | (extract_lets +onlyGivenNames v; apply Kept.gen (v := v); subst v; rotate_left; clear_value v; intro h; rotate_right)
      | with_reducible assumption | with_reducible exact Kept.refl | with_reducible apply Kept.step State.newMpd_kept
      | with_reducible apply Kept.step State.modSess_kept | (show _ = _; rfl)

theorem State.rxPdelayResp_kept {s : State} {x1 x2} : Kept [.regs, .host, .cores, .servo] s (State.rxPdelayResp s x1 x2) := by
  unfold State.rxPdelayResp; repeat' first
      | with_reducible exact Kept.refl | with_reducible apply Kept.step State.pdelayDone_kept
      | with_reducible apply Kept.step State.modSess_kept | with_reducible apply Kept.step State.closeReq_kept
      | with_reducible apply Kept.step State.localStamp_kept | with_reducible apply Kept.step State.countResp_kept | (show _ = _; rfl)
      | (with_reducible apply Kept.fst (by assumption)) | split

theorem State.masterRank_kept {s : State} {x1 x2 x3} : Kept [.regs, .cores, .redund, .waiting] s (State.masterRank s x1 x2 x3) := by
  unfold State.masterRank; repeat' first
      | (extract_lets +onlyGivenNames v; clear_value v) | with_reducible exact Kept.refl | with_reducible apply Kept.step State.pairWrite_kept
      | (show _ = _; rfl) | split

theorem State.toEngine_kept {s : State} {x1} : Kept [.servo] s (State.toEngine s x1) := by
  unfold State.toEngine; repeat' first | with_reducible exact Kept.refl | (show _ = _; rfl) | split | with_reducible apply Kept.put_servo

theorem State.rxRequest_kept {s : State} {x1 x2} : Kept [.ports, .servo] s (State.rxRequest s x1 x2) := by
  unfold State.rxRequest; repeat' first
      | with_reducible exact Kept.refl | with_reducible apply Kept.ite | with_reducible apply Kept.step State.queuePtp_kept
      | with_reducible apply Kept.step State.localStamp_kept | (show _ = _; rfl) | (with_reducible apply Kept.fst (by assumption)) | split

theorem State.rxPdelayFu_kept {s : State} {x1 x2} : Kept [.regs, .host, .cores, .servo] s (State.rxPdelayFu s x1 x2) := by
  unfold State.rxPdelayFu; repeat' first
      | with_reducible exact Kept.refl | with_reducible apply Kept.step State.pdelayDone_kept
      | with_reducible apply Kept.step State.closeReq_kept | (show _ = _; rfl) | split

theorem State.verified_kept {s : State} {x1 x2 x3 x4} : Kept [.servo] s (State.verified s x1 x2 x3 x4).1 := by
  unfold State.verified; repeat' first
      | (extract_lets +onlyGivenNames v; clear_value v) | with_reducible exact Kept.refl | with_reducible apply Kept.step State.modSess_kept
      | (show _ = _; rfl) | split

theorem State.sessRx_kept {s : State} {x1 x2 x3 x4} : Kept [.regs, .host, .cores, .ports, .servo] s (State.sessRx s x1 x2 x3 x4) := by
  unfold State.sessRx
  refine Kept.ite Kept.refl ?_
  have h : Kept [.regs, .host, .cores, .ports, .servo] s (s.verified x1 x2 x3 x4).1 := Kept.step State.verified_kept (by decide) Kept.refl
  revert h
  generalize s.verified x1 x2 x3 x4 = p
  obtain ⟨u, b⟩ := p
  intro h
  cases b
  · exact h
  · dsimp only
    split
    · exact Kept.ite (Kept.step State.rxSync_kept (by decide) h) h
    · exact Kept.ite (Kept.step State.rxFollowUp_kept (by decide) h) h
    · exact Kept.ite (Kept.step State.rxDelayResp_kept (by decide) h) (Kept.step State.countResp_kept (by decide) h)
    · exact Kept.ite (Kept.step State.rxPdelayResp_kept (by decide) h) (Kept.step State.countResp_kept (by decide) h)
    · exact Kept.ite (Kept.step State.rxPdelayFu_kept (by decide) h) h
    · exact Kept.step State.rxRequest_kept (by decide) h

theorem State.toPair_kept {s : State} {x1} : Kept [.servo] s (State.toPair s x1) := by
  unfold State.toPair; repeat' first | with_reducible exact Kept.refl | (show _ = _; rfl) | with_reducible apply Kept.put_servo

theorem State.ptpRx_kept {s : State} {x1 x2 x3 x4} :
    Kept [.regs, .host, .cores, .ports, .servo, .redund, .waiting] s (State.ptpRx s x1 x2 x3 x4) := by
  unfold State.ptpRx; repeat' first
      | with_reducible exact Kept.refl | with_reducible apply Kept.step State.modSess_kept | with_reducible apply Kept.step State.sessRx_kept
      | with_reducible apply Kept.step State.toPair_kept | with_reducible apply Kept.step State.masterRank_kept
      | with_reducible apply State.when_kept | (show _ = _; rfl) | split

theorem State.takeUp_kept {s : State} {x1} : Kept [.servo] s (State.takeUp s x1) := by
  unfold State.takeUp; repeat' first | with_reducible exact Kept.refl | (show _ = _; rfl) | with_reducible apply Kept.put_servo

theorem State.klReportRx_kept {s : State} {x1 x2} : Kept [.servo] s (State.klReportRx s x1 x2) := by
  unfold State.klReportRx; repeat' first
      | with_reducible exact Kept.refl | with_reducible apply Kept.step State.countSf_kept | with_reducible apply Kept.step State.modKl_kept
      | (show _ = _; rfl) | split

end Sys2Proof.Machine
end

