-- ==== Sys2Proof/Laws/FrameRefs.lean ====
section
/-!
SUPPORT. Sys2Proof/Laws/FrameRefs.lean: what each operation of Machine/Refs.lean may change, and that it keeps the canonical forms.
-/
namespace Sys2Proof.Machine
open Sys2Proof

theorem State.modDpll_kept {s : State} {x1 x2} : Kept [.refs] s (State.modDpll s x1 x2) := by
  unfold State.modDpll; repeat' first | with_reducible exact Kept.refl | (show _ = _; rfl) | with_reducible apply Kept.put_refs

theorem State.showHist_kept {s : State} {x1} : Kept [.regs, .refs] s (State.showHist s x1) := by
  unfold State.showHist; repeat' first
      | (extract_lets +onlyGivenNames v; apply Kept.gen (v := v); subst v; rotate_left; clear_value v; intro h; rotate_right)
      | with_reducible assumption | with_reducible exact Kept.refl | with_reducible apply Kept.ite
      | with_reducible apply Kept.step State.setReg_kept | with_reducible apply Kept.step State.setF_kept
      | with_reducible apply Kept.step State.modDpll_kept | (show _ = _; rfl)

theorem State.holdEvent_kept {s : State} {x1 x2} : Kept [.regs, .host, .cores] s (State.holdEvent s x1 x2) := by
  unfold State.holdEvent; repeat' first | with_reducible exact Kept.refl | with_reducible apply Kept.step State.raise_kept | (show _ = _; rfl)

theorem State.goDpll_kept {s : State} {x1 x2 x3 x4 x5 x6} : Kept [.regs, .host, .cores, .refs] s (State.goDpll s x1 x2 x3 x4 x5 x6) := by
  unfold State.goDpll; repeat' first
      | (extract_lets +onlyGivenNames v; apply Kept.gen (v := v); subst v; rotate_left; clear_value v; intro h; rotate_right)
      | with_reducible assumption | with_reducible exact Kept.refl | with_reducible apply Kept.ite
      | with_reducible apply Kept.step State.showHist_kept | with_reducible apply Kept.step State.setReg_kept
      | with_reducible apply Kept.step State.setF_kept | with_reducible apply Kept.step State.holdEvent_kept
      | with_reducible apply Kept.step State.raise_kept | with_reducible apply State.when_kept
      | with_reducible apply Kept.step State.modDpll_kept | (show _ = _; rfl)

theorem State.dpllStop_kept {s : State} {x1} : Kept [.regs, .host, .cores, .refs] s (State.dpllStop s x1) := by
  unfold State.dpllStop; repeat' first
      | (extract_lets +onlyGivenNames v; apply Kept.gen (v := v); subst v; rotate_left; clear_value v; intro h; rotate_right)
      | with_reducible assumption | with_reducible exact Kept.refl | with_reducible apply Kept.ite
      | with_reducible apply Kept.step State.goDpll_kept | with_reducible apply Kept.step State.setF_kept
      | with_reducible apply Kept.step State.modDpll_kept | (show _ = _; rfl)

theorem State.modClk_kept {s : State} {x1 x2} : Kept [.refs] s (State.modClk s x1 x2) := by
  unfold State.modClk; repeat' first | with_reducible exact Kept.refl | (show _ = _; rfl) | with_reducible apply Kept.put_refs

theorem State.clkHold_kept {s : State} {x1} : Kept [.refs] s (State.clkHold s x1) := by
  unfold State.clkHold; repeat' first | with_reducible exact Kept.refl | with_reducible apply Kept.step State.modClk_kept | (show _ = _; rfl)

theorem State.clkAlign_kept {s : State} {x1} : Kept [.refs] s (State.clkAlign s x1) := by
  unfold State.clkAlign; repeat' first
      | with_reducible exact Kept.refl | with_reducible apply Kept.ite | with_reducible apply Kept.step State.modClk_kept | (show _ = _; rfl)

theorem State.showPhase_kept {s : State} {x1 x2} : Kept [.regs] s (State.showPhase s x1 x2) := by
  unfold State.showPhase; repeat' first | with_reducible exact Kept.refl | with_reducible apply Kept.step State.setReg_kept | (show _ = _; rfl)

theorem State.dpllClose_kept {s : State} {x1 x2 x3} : Kept [.regs, .host, .cores, .refs] s (State.dpllClose s x1 x2 x3) := by
  unfold State.dpllClose; repeat' first
      | (extract_lets +onlyGivenNames v; apply Kept.gen (v := v); subst v; rotate_left; clear_value v; intro h; rotate_right)
      | with_reducible assumption | with_reducible exact Kept.refl | with_reducible apply Kept.step State.goDpll_kept
      | with_reducible apply Kept.step State.showPhase_kept | with_reducible apply Kept.step State.modDpll_kept | (show _ = _; rfl) | split

theorem State.markSel_kept {s : State} {x1 x2 x3} : Kept [.regs] s (State.markSel s x1 x2 x3) := by
  unfold State.markSel; repeat' first | with_reducible exact Kept.refl | with_reducible apply Kept.step State.setF_kept | (show _ = _; rfl) | split

theorem State.dpllSelect_kept {s : State} {x1 x2 x3} : Kept [.regs, .host, .cores, .refs] s (State.dpllSelect s x1 x2 x3) := by
  unfold State.dpllSelect; repeat' first
      | (extract_lets +onlyGivenNames v; apply Kept.gen (v := v); subst v; rotate_left; clear_value v; intro h; rotate_right)
      | with_reducible assumption | with_reducible exact Kept.refl | with_reducible apply Kept.ite
      | with_reducible apply Kept.step State.goDpll_kept | with_reducible apply Kept.step State.setF_kept
      | with_reducible apply Kept.step State.dpllClose_kept | with_reducible apply Kept.step State.markSel_kept
      | with_reducible apply Kept.step State.modDpll_kept | (show _ = _; rfl) | split

theorem State.synEvent_kept {s : State} {x1 x2 x3} : Kept [.regs, .host, .cores] s (State.synEvent s x1 x2 x3) := by
  unfold State.synEvent; repeat' first | with_reducible exact Kept.refl | with_reducible apply Kept.step State.raise_kept | (show _ = _; rfl)

theorem State.modSyn_kept {s : State} {x1 x2} : Kept [.refs] s (State.modSyn s x1 x2) := by
  unfold State.modSyn; repeat' first | with_reducible exact Kept.refl | (show _ = _; rfl) | with_reducible apply Kept.put_refs

theorem State.synSearch_kept {s : State} {x1} : Kept [.regs, .host, .cores, .refs] s (State.synSearch s x1) := by
  unfold State.synSearch; repeat' first
      | (extract_lets +onlyGivenNames v; apply Kept.gen (v := v); subst v; rotate_left; clear_value v; intro h; rotate_right)
      | with_reducible assumption | with_reducible exact Kept.refl | with_reducible apply Kept.step State.setF_kept
      | with_reducible apply Kept.step State.synEvent_kept | with_reducible apply Kept.step State.modSyn_kept
      | with_reducible apply State.when_kept | (show _ = _; rfl)

theorem State.synLoad_kept {s : State} {x1} : Kept [.regs, .host, .cores, .refs] s (State.synLoad s x1) := by
  unfold State.synLoad; repeat' first
      | intro _ | (extract_lets +onlyGivenNames v; apply Kept.gen (v := v); subst v; rotate_left; clear_value v; intro h; rotate_right)
      | with_reducible assumption | with_reducible exact Kept.refl | with_reducible apply Kept.ite
      | with_reducible apply Kept.step State.setF_kept | with_reducible apply Kept.step State.modClk_kept
      | with_reducible apply Kept.step State.synSearch_kept | with_reducible apply State.each_kept
      | with_reducible apply Kept.step State.modSyn_kept | (show _ = _; rfl)

theorem State.dpllTake_kept {s : State} {x1} : Kept [.regs, .host, .cores, .refs] s (State.dpllTake s x1) := by
  unfold State.dpllTake; repeat' first
      | intro _ | (extract_lets +onlyGivenNames v; apply Kept.gen (v := v); subst v; rotate_left; clear_value v; intro h; rotate_right)
      | with_reducible assumption | with_reducible exact Kept.refl | with_reducible apply Kept.ite
      | with_reducible apply Kept.step State.dpllSelect_kept | with_reducible apply State.each_kept
      | with_reducible apply Kept.step State.finish_kept | with_reducible apply Kept.step State.modDpll_kept | (show _ = _; rfl) | split

theorem State.modCand_kept {s : State} {x1 x2} : Kept [.refs] s (State.modCand s x1 x2) := by
  unfold State.modCand; repeat' first | with_reducible exact Kept.refl | (show _ = _; rfl) | with_reducible apply Kept.put_refs

theorem State.goCand_kept {s : State} {x1 x2 x3} : Kept [.regs, .host, .cores, .refs] s (State.goCand s x1 x2 x3) := by
  unfold State.goCand; repeat' first
      | (extract_lets +onlyGivenNames v; apply Kept.gen (v := v); subst v; rotate_left; clear_value v; intro h; rotate_right)
      | with_reducible assumption | with_reducible exact Kept.refl | with_reducible apply Kept.ite
      | with_reducible apply Kept.step State.modCand_kept | with_reducible apply Kept.step State.setF_kept
      | with_reducible apply Kept.step State.raise_kept | (show _ = _; rfl)

theorem State.candStart_kept {s : State} {x1 x2} : Kept [.regs, .host, .cores, .refs] s (State.candStart s x1 x2) := by
  unfold State.candStart; repeat' first
      | (extract_lets +onlyGivenNames v; apply Kept.gen (v := v); subst v; rotate_left; clear_value v; intro h; rotate_right)
      | with_reducible assumption | with_reducible exact Kept.refl | with_reducible apply Kept.step State.setReg_kept
      | with_reducible apply Kept.step State.modCand_kept | with_reducible apply Kept.step State.setF_kept
      | with_reducible apply Kept.step State.goCand_kept | (show _ = _; rfl)

theorem State.slotMove_kept {s : State} {x1 x2 x3} : Kept [.servo, .refs] s (State.slotMove s x1 x2 x3) := by
  unfold State.slotMove; repeat' first
      | (extract_lets +onlyGivenNames v; apply Kept.gen (v := v); subst v; rotate_left; clear_value v; intro h; rotate_right)
      | with_reducible assumption | with_reducible exact Kept.refl | with_reducible apply Kept.ite
      | with_reducible apply Kept.step State.modCand_kept | with_reducible apply Kept.step State.modSlot_kept | (show _ = _; rfl)

theorem State.candMove_kept {s : State} {x1 x2 x3} : Kept [.refs] s (State.candMove s x1 x2 x3) := by
  unfold State.candMove; repeat' first
      | with_reducible exact Kept.refl | with_reducible apply Kept.step State.modCand_kept | (show _ = _; rfl) | split

theorem State.phasesMove_kept {s : State} {x1 x2} : Kept [.servo, .refs] s (State.phasesMove s x1 x2) := by
  unfold State.phasesMove; repeat' first
      | intro _ | (extract_lets +onlyGivenNames v; apply Kept.gen (v := v); subst v; rotate_left; clear_value v; intro h; rotate_right)
      | with_reducible assumption | with_reducible exact Kept.refl | with_reducible apply Kept.step State.slotMove_kept
      | with_reducible apply State.each_kept | with_reducible apply Kept.step State.candMove_kept | (show _ = _; rfl)

theorem State.dpllDecide_kept {s : State} {x1} : Kept [.regs, .refs] s (State.dpllDecide s x1) := by
  unfold State.dpllDecide; repeat' first
      | (extract_lets +onlyGivenNames v; apply Kept.gen (v := v); subst v; rotate_left; clear_value v; intro h; rotate_right)
      | with_reducible assumption | with_reducible exact Kept.refl | with_reducible apply Kept.ite
      | with_reducible apply Kept.step State.setF_kept | with_reducible apply Kept.step State.modDpll_kept | (show _ = _; rfl)

theorem State.candNext_kept {s : State} {x1 x2} : Kept [.regs, .host, .cores, .refs] s (State.candNext s x1 x2) := by
  unfold State.candNext; repeat' first
      | (extract_lets +onlyGivenNames v; have q : State → _ → State := v; clear q; subst v) | with_reducible exact Kept.refl
      | with_reducible apply Kept.ite | with_reducible apply Kept.step State.modCand_kept | with_reducible apply Kept.step State.setF_kept
      | with_reducible apply Kept.step State.goCand_kept | (show _ = _; rfl) | split

theorem State.candStop_kept {s : State} {x1} : Kept [.regs, .host, .cores, .refs] s (State.candStop s x1) := by
  unfold State.candStop; repeat' first
      | with_reducible exact Kept.refl | with_reducible apply Kept.step State.modCand_kept | with_reducible apply Kept.step State.setF_kept
      | with_reducible apply Kept.step State.goCand_kept | (show _ = _; rfl)

theorem State.candEval_kept {s : State} {x1} : Kept [.regs, .host, .cores, .refs] s (State.candEval s x1) := by
  unfold State.candEval; repeat' first
      | (extract_lets +onlyGivenNames v; apply Kept.gen (v := v); subst v; rotate_left; clear_value v; intro h; rotate_right)
      | with_reducible assumption | with_reducible exact Kept.refl | with_reducible apply Kept.step State.setReg_kept
      | with_reducible apply Kept.step State.modCand_kept | with_reducible apply Kept.step State.setF_kept
      | with_reducible apply Kept.step State.candStart_kept | with_reducible apply State.when_kept
      | with_reducible apply Kept.step State.candNext_kept | with_reducible apply Kept.step State.candStop_kept | (show _ = _; rfl) | split

theorem State.showDisputed_kept {s : State} {x1} : Kept [.regs] s (State.showDisputed s x1) := by
  unfold State.showDisputed; repeat' first | with_reducible exact Kept.refl | with_reducible apply Kept.step State.setF_kept | (show _ = _; rfl)

theorem State.disputeEvent_kept {s : State} {x1 x2 x3 x4 x5 x6} : Kept [.regs, .host, .cores] s (State.disputeEvent s x1 x2 x3 x4 x5 x6) := by
  unfold State.disputeEvent; repeat' first | with_reducible exact Kept.refl | with_reducible apply Kept.step State.raise_kept | (show _ = _; rfl)

theorem State.disputePair_kept {s : State} {x1 x2 x3} : Kept [.regs, .host, .cores, .refs] s (State.disputePair s x1 x2 x3) := by
  unfold State.disputePair; repeat' first
      | (extract_lets +onlyGivenNames v; apply Kept.gen (v := v); subst v; rotate_left; clear_value v; intro h; rotate_right)
      | (extract_lets +onlyGivenNames v; have q : State → _ → State := v; clear q; subst v) | with_reducible assumption
      | with_reducible exact Kept.refl | with_reducible apply Kept.step State.showDisputed_kept
      | with_reducible apply Kept.step State.disputeEvent_kept | (show _ = _; rfl) | split | with_reducible apply Kept.put_refs

theorem State.disputes_kept {s : State} {x1} : Kept [.regs, .host, .cores, .refs] s (State.disputes s x1) := by
  unfold State.disputes; repeat' first
      | intro _ | with_reducible assumption | with_reducible exact Kept.refl | with_reducible apply Kept.step State.disputePair_kept
      | with_reducible apply State.each_kept | (show _ = _; rfl) | split

theorem State.scaleRates_kept {s : State} : Kept [.refs] s (State.scaleRates s) := by
  unfold State.scaleRates; repeat' first | with_reducible exact Kept.refl | (show _ = _; rfl) | split | with_reducible apply Kept.put_refs

theorem State.countTts_kept {s : State} {x1} : Kept [.regs] s (State.countTts s x1) := by
  unfold State.countTts; repeat' first
      | with_reducible exact Kept.refl | with_reducible apply Kept.ite | with_reducible apply Kept.step State.setReg_kept | (show _ = _; rfl)

theorem State.keepHist_kept {s : State} {x1} : Kept [.regs, .refs] s (State.keepHist s x1) := by
  unfold State.keepHist; repeat' first
      | with_reducible exact Kept.refl | with_reducible apply Kept.step State.showHist_kept | with_reducible apply Kept.step State.modDpll_kept
      | (show _ = _; rfl)

theorem State.dpllHold_kept {s : State} {x1} : Kept [.regs, .refs] s (State.dpllHold s x1) := by
  unfold State.dpllHold; repeat' first
      | with_reducible exact Kept.refl | with_reducible apply Kept.step State.countTts_kept
      | with_reducible apply Kept.step State.keepHist_kept | (show _ = _; rfl) | split

theorem State.dpllIncr_kept {s : State} {x1 x2} : Kept [.regs, .cnt, .host, .cores] s (State.dpllIncr s x1 x2) := by
  unfold State.dpllIncr; repeat' first
      | with_reducible exact Kept.refl | with_reducible apply Kept.step State.setF_kept | with_reducible apply Kept.step State.setIncr_kept
      | (show _ = _; rfl)

theorem State.firstLock_kept {s : State} {x1 x2} : Kept [.refs] s (State.firstLock s x1 x2) := by
  unfold State.firstLock; repeat' first
      | with_reducible exact Kept.refl | with_reducible apply Kept.ite | with_reducible apply Kept.step State.modDpll_kept | (show _ = _; rfl)

theorem State.dpllLoop_kept {s : State} {x1 x2} : Kept [.regs, .cnt, .host, .cores, .refs] s (State.dpllLoop s x1 x2) := by
  unfold State.dpllLoop; repeat' first
      | (extract_lets +onlyGivenNames v; apply Kept.gen (v := v); subst v; rotate_left; clear_value v; intro h; rotate_right)
      | with_reducible assumption | with_reducible exact Kept.refl | with_reducible apply Kept.ite
      | with_reducible apply Kept.step State.goDpll_kept | with_reducible apply Kept.step State.setF_kept
      | with_reducible apply Kept.step State.showPhase_kept | with_reducible apply Kept.step State.dpllIncr_kept
      | with_reducible apply Kept.step State.keepHist_kept | with_reducible apply Kept.step State.modDpll_kept
      | with_reducible apply Kept.step State.firstLock_kept | (show _ = _; rfl)

theorem State.dpllRun_kept {s : State} {x1} : Kept [.regs, .cnt, .host, .cores, .refs] s (State.dpllRun s x1) := by
  unfold State.dpllRun; repeat' first
      | (extract_lets +onlyGivenNames v; apply Kept.gen (v := v); subst v; rotate_left; clear_value v; intro h; rotate_right)
      | with_reducible assumption | with_reducible exact Kept.refl | with_reducible apply Kept.step State.bump_kept
      | with_reducible apply Kept.step State.countTts_kept | with_reducible apply Kept.step State.showPhase_kept
      | with_reducible apply Kept.step State.dpllLoop_kept | with_reducible apply Kept.step State.dpllIncr_kept
      | with_reducible apply Kept.step State.dpllClose_kept | with_reducible apply Kept.step State.modDpll_kept | (show _ = _; rfl) | split

theorem State.clkSecond_kept {s : State} {x1} : Kept [.refs] s (State.clkSecond s x1) := by
  unfold State.clkSecond; repeat' first
      | intro _ | with_reducible assumption | with_reducible exact Kept.refl | with_reducible apply State.each_kept
      | with_reducible apply Kept.step State.clkAlign_kept | (show _ = _; rfl) | split

theorem State.laneBeat_kept {s : State} {x1} : Kept [.refs, .freeCtr] s (State.laneBeat s x1) := by
  unfold State.laneBeat; repeat' first
      | intro _ | (extract_lets +onlyGivenNames v; apply Kept.gen (v := v); subst v; rotate_left; clear_value v; intro h; rotate_right)
      | with_reducible assumption | with_reducible exact Kept.refl | with_reducible apply Kept.step State.modCand_kept
      | with_reducible apply Kept.step State.fresh_kept | with_reducible apply State.each_kept
      | with_reducible apply Kept.step State.modDpll_kept | (show _ = _; rfl)

theorem State.dpllReport_kept {s : State} {x1} : Kept [.regs, .host, .cores, .refs] s (State.dpllReport s x1) := by
  unfold State.dpllReport; repeat' first
      | (extract_lets +onlyGivenNames v; apply Kept.gen (v := v); subst v; rotate_left; clear_value v; intro h; rotate_right)
      | with_reducible assumption | with_reducible exact Kept.refl | with_reducible apply Kept.step State.holdEvent_kept
      | with_reducible apply Kept.step State.raise_kept | with_reducible apply State.when_kept
      | with_reducible apply Kept.step State.modDpll_kept | (show _ = _; rfl) | split

theorem State.candStamp_kept {s : State} {x1 x2 x3} : Kept [.refs] s (State.candStamp s x1 x2 x3) := by
  unfold State.candStamp; repeat' first | with_reducible exact Kept.refl | with_reducible apply Kept.step State.modCand_kept | (show _ = _; rfl)

theorem State.candEdge_kept {s : State} {x1 x2 x3} : Kept [.refs] s (State.candEdge s x1 x2 x3) := by
  unfold State.candEdge; repeat' first
      | with_reducible exact Kept.refl | with_reducible apply Kept.ite | with_reducible apply Kept.step State.modCand_kept
      | with_reducible apply Kept.step State.candStamp_kept | (show _ = _; rfl)

theorem State.synGate_kept {s : State} {x1 x2 x3} : Kept [.regs, .host, .cores, .refs] s (State.synGate s x1 x2 x3) := by
  unfold State.synGate; repeat' first
      | intro _ | (extract_lets +onlyGivenNames v; apply Kept.gen (v := v); subst v; rotate_left; clear_value v; intro h; rotate_right)
      | with_reducible assumption | with_reducible exact Kept.refl | with_reducible apply Kept.ite
      | with_reducible apply Kept.step State.setF_kept | with_reducible apply Kept.step State.synEvent_kept
      | with_reducible apply Kept.step State.synSearch_kept | with_reducible apply State.each_kept
      | with_reducible apply Kept.step State.clkAlign_kept | with_reducible apply Kept.step State.modSyn_kept | (show _ = _; rfl)

end Sys2Proof.Machine
end

