-- ==== Sys2Proof/Laws/FrameMeas.lean ====
section
/-!
SUPPORT. Sys2Proof/Laws/FrameMeas.lean: what each operation of Machine/Meas.lean may change, and that it keeps the canonical forms.
-/
namespace Sys2Proof.Machine
open Sys2Proof

theorem State.showFm_kept {s : State} {x1} : Kept [.regs] s (State.showFm s x1) := by
  unfold State.showFm; repeat' first | with_reducible exact Kept.refl | with_reducible apply Kept.step State.setF_kept | (show _ = _; rfl)

theorem State.modMeas_kept {s : State} {x1} : Kept [.meas] s (State.modMeas s x1) := by
  unfold State.modMeas; repeat' first | with_reducible exact Kept.refl | (show _ = _; rfl) | with_reducible apply Kept.put_meas

theorem State.modFm_kept {s : State} {x1 x2} : Kept [.meas] s (State.modFm s x1 x2) := by
  unfold State.modFm; repeat' first | with_reducible exact Kept.refl | with_reducible apply Kept.step State.modMeas_kept | (show _ = _; rfl)

theorem State.fmRelease_kept {s : State} {x1} : Kept [.regs, .meas] s (State.fmRelease s x1) := by
  unfold State.fmRelease; repeat' first
      | with_reducible exact Kept.refl | with_reducible apply Kept.step State.showFm_kept | with_reducible apply Kept.step State.modFm_kept
      | (show _ = _; rfl)

theorem State.modIm_kept {s : State} {x1 x2} : Kept [.meas] s (State.modIm s x1 x2) := by
  unfold State.modIm; repeat' first | with_reducible exact Kept.refl | with_reducible apply Kept.step State.modMeas_kept | (show _ = _; rfl)

theorem State.showIm_kept {s : State} {x1} : Kept [.regs] s (State.showIm s x1) := by
  unfold State.showIm; repeat' first | with_reducible exact Kept.refl | with_reducible apply Kept.step State.setF_kept | (show _ = _; rfl)

theorem State.measDone_kept {s : State} {x1} : Kept [.meas] s (State.measDone s x1) := by
  unfold State.measDone; repeat' first | with_reducible exact Kept.refl | with_reducible apply Kept.step State.modMeas_kept | (show _ = _; rfl)

theorem State.imEnd_kept {s : State} {x1} : Kept [.regs, .meas] s (State.imEnd s x1) := by
  unfold State.imEnd; repeat' first
      | (extract_lets +onlyGivenNames v; apply Kept.gen (v := v); subst v; rotate_left; clear_value v; intro h; rotate_right)
      | with_reducible assumption | with_reducible exact Kept.refl | with_reducible apply Kept.step State.bump_kept
      | with_reducible apply Kept.step State.modIm_kept | with_reducible apply Kept.step State.showIm_kept
      | with_reducible apply Kept.step State.measDone_kept | (show _ = _; rfl) | split

theorem State.fmDip_kept {s : State} : Kept [.meas] s (State.fmDip s) := by
  unfold State.fmDip; repeat' first
      | intro _ | with_reducible assumption | with_reducible exact Kept.refl | with_reducible apply State.each_kept
      | with_reducible apply Kept.step State.modFm_kept | (show _ = _; rfl)

theorem State.imConfig_kept {s : State} {x1} : Kept [.regs, .meas] s (State.imConfig s x1) := by
  unfold State.imConfig; repeat' first
      | with_reducible exact Kept.refl | with_reducible apply Kept.step State.modIm_kept | with_reducible apply Kept.step State.imEnd_kept
      | with_reducible apply Kept.step State.showIm_kept | (show _ = _; rfl)

theorem State.fmConfig_kept {s : State} {x1} : Kept [.regs, .meas] s (State.fmConfig s x1) := by
  unfold State.fmConfig; repeat' first
      | (extract_lets +onlyGivenNames v; apply Kept.gen (v := v); subst v; rotate_left; clear_value v; intro h; rotate_right)
      | with_reducible assumption | with_reducible exact Kept.refl | with_reducible apply Kept.step State.fmStart_kept
      | with_reducible apply Kept.step State.bump_kept | with_reducible apply Kept.step State.showFm_kept
      | with_reducible apply Kept.step State.modFm_kept | with_reducible apply State.when_kept | (show _ = _; rfl) | split

theorem State.fmTable_kept {s : State} {x1} : Kept [.meas] s (State.fmTable s x1) := by
  unfold State.fmTable; repeat' first
      | intro _ | with_reducible assumption | with_reducible exact Kept.refl | with_reducible apply State.each_kept
      | with_reducible apply Kept.step State.modFm_kept | (show _ = _; rfl)

theorem State.imTable_kept {s : State} {x1} : Kept [.meas] s (State.imTable s x1) := by
  unfold State.imTable; repeat' first
      | intro _ | with_reducible assumption | with_reducible exact Kept.refl | with_reducible apply Kept.step State.modIm_kept
      | with_reducible apply State.each_kept | (show _ = _; rfl)

theorem State.evoutSkip_kept {s : State} {x1 x2 x3} : Kept [.regs, .host, .cores] s (State.evoutSkip s x1 x2 x3) := by
  unfold State.evoutSkip; repeat' first
      | with_reducible exact Kept.refl | with_reducible apply Kept.step State.bump_kept | with_reducible apply Kept.step State.raise_kept
      | (show _ = _; rfl) | split

theorem State.modEvout_kept {s : State} {x1 x2} : Kept [.meas] s (State.modEvout s x1 x2) := by
  unfold State.modEvout; repeat' first | with_reducible exact Kept.refl | with_reducible apply Kept.step State.modMeas_kept | (show _ = _; rfl)

theorem State.showEvout_kept {s : State} {x1} : Kept [.regs] s (State.showEvout s x1) := by
  unfold State.showEvout; repeat' first | with_reducible exact Kept.refl | with_reducible apply Kept.step State.setF_kept | (show _ = _; rfl)

theorem State.evoutStep_kept {s : State} {x1} : Kept [.regs, .host, .cores, .meas] s (State.evoutStep s x1) := by
  unfold State.evoutStep; repeat' first
      | intro _ | (extract_lets +onlyGivenNames v; apply Kept.gen (v := v); subst v; rotate_left; clear_value v; intro h; rotate_right)
      | with_reducible assumption | with_reducible exact Kept.refl | with_reducible apply Kept.ite
      | with_reducible apply Kept.step State.evoutSkip_kept | with_reducible apply Kept.step State.modEvout_kept
      | with_reducible apply State.each_kept | with_reducible apply Kept.step State.showEvout_kept | with_reducible apply State.when_kept
      | (show _ = _; rfl)

theorem State.fmEnd_kept {s : State} {x1} : Kept [.regs, .host, .cores, .mem, .meas] s (State.fmEnd s x1) := by
  unfold State.fmEnd; repeat' first
      | (extract_lets +onlyGivenNames v; apply Kept.gen (v := v); subst v; rotate_left; clear_value v; intro h; rotate_right)
      | (extract_lets +onlyGivenNames v; clear_value v) | with_reducible assumption | with_reducible exact Kept.refl
      | with_reducible apply Kept.step State.modMeas_kept | with_reducible apply Kept.step State.bufWrite_kept
      | with_reducible apply Kept.step State.showFm_kept | with_reducible apply Kept.step State.modFm_kept
      | with_reducible apply Kept.step State.endLong_kept | (show _ = _; rfl) | split

theorem State.imOrphans_kept {s : State} {x1} : Kept [.meas] s (State.imOrphans s x1) := by
  unfold State.imOrphans; repeat' first
      | intro _ | (extract_lets +onlyGivenNames v; apply Kept.gen (v := v); subst v; rotate_left; clear_value v; intro h; rotate_right)
      | with_reducible assumption | with_reducible exact Kept.refl | with_reducible apply Kept.step State.modIm_kept
      | with_reducible apply State.each_kept | with_reducible apply Kept.step State.measDone_kept | (show _ = _; rfl)

theorem State.fmPass_kept {s : State} {x1} : Kept [.regs, .meas] s (State.fmPass s x1) := by
  unfold State.fmPass; repeat' first
      | with_reducible exact Kept.refl | with_reducible apply Kept.step State.showFm_kept | with_reducible apply Kept.step State.modFm_kept
      | (show _ = _; rfl) | split

theorem State.measBegin_kept {s : State} : Kept [.regs, .host, .cores, .mem, .meas] s (State.measBegin s) := by
  unfold State.measBegin; repeat' first
      | intro _ | (extract_lets +onlyGivenNames v; apply Kept.gen (v := v); subst v; rotate_left; clear_value v; intro h; rotate_right)
      | with_reducible assumption | with_reducible exact Kept.refl | with_reducible apply Kept.step State.fmEnd_kept
      | with_reducible apply Kept.step State.modMeas_kept | with_reducible apply State.each_kept
      | with_reducible apply Kept.step State.imOrphans_kept | with_reducible apply Kept.step State.fmPass_kept | (show _ = _; rfl)

theorem State.evoutDefer_kept {s : State} {x1} : Kept [.meas] s (State.evoutDefer s x1) := by
  unfold State.evoutDefer; repeat' first
      | with_reducible exact Kept.refl | with_reducible apply Kept.step State.modEvout_kept | (show _ = _; rfl) | split

theorem State.evoutApply_kept {s : State} {x1 x2 x3} : Kept [.regs, .host, .cores, .meas] s (State.evoutApply s x1 x2 x3) := by
  unfold State.evoutApply; repeat' first
      | (extract_lets +onlyGivenNames v; apply Kept.gen (v := v); subst v; rotate_left; clear_value v; intro h; rotate_right)
      | with_reducible assumption | with_reducible exact Kept.refl | with_reducible apply Kept.ite
      | with_reducible apply Kept.step State.evoutSkip_kept | with_reducible apply Kept.step State.setF_kept
      | with_reducible apply Kept.step State.modEvout_kept | with_reducible apply Kept.step State.late_kept
      | with_reducible apply Kept.step State.showEvout_kept | (show _ = _; rfl)

theorem State.evoutLoads_kept {s : State} {x1} : Kept [.regs, .host, .cores, .meas] s (State.evoutLoads s x1) := by
  unfold State.evoutLoads; repeat' first
      | intro _ | (extract_lets +onlyGivenNames v; apply Kept.gen (v := v); subst v; rotate_left; clear_value v; intro h; rotate_right)
      | with_reducible assumption | with_reducible exact Kept.refl | with_reducible apply Kept.ite
      | with_reducible apply Kept.step State.evoutApply_kept | with_reducible apply Kept.step State.setF_kept
      | with_reducible apply Kept.step State.modEvout_kept | with_reducible apply Kept.step State.late_kept
      | with_reducible apply State.each_kept | with_reducible apply Kept.step State.finish_kept | with_reducible apply State.when_kept
      | (show _ = _; rfl)

theorem State.measLose_kept {s : State} {x1} : Kept [.regs, .host, .cores] s (State.measLose s x1) := by
  unfold State.measLose; repeat' first
      | with_reducible exact Kept.refl | with_reducible apply Kept.step State.bump_kept | with_reducible apply Kept.step State.late_kept
      | (show _ = _; rfl)

theorem State.measBoundary_kept {s : State} : Kept [.regs, .host, .cores, .meas] s (State.measBoundary s) := by
  unfold State.measBoundary; repeat' first
      | intro _ | (extract_lets +onlyGivenNames v; apply Kept.gen (v := v); subst v; rotate_left; clear_value v; intro h; rotate_right)
      | with_reducible assumption | with_reducible exact Kept.refl | with_reducible apply Kept.step State.modMeas_kept
      | with_reducible apply State.each_kept | with_reducible apply Kept.step State.imOrphans_kept
      | with_reducible apply Kept.step State.measLose_kept | (show _ = _; rfl)

theorem State.fmOpen_kept {s : State} {x1 x2 x3 x4 x5} : Kept [.regs, .meas] s (State.fmOpen s x1 x2 x3 x4 x5) := by
  unfold State.fmOpen; repeat' first
      | with_reducible exact Kept.refl | with_reducible apply Kept.step State.showFm_kept | with_reducible apply Kept.step State.modFm_kept
      | (show _ = _; rfl)

theorem State.fmStart_kept {s : State} {x1} : Kept [.regs, .meas] s (State.fmStart s x1) := by
  unfold State.fmStart; repeat' first
      | with_reducible exact Kept.refl | with_reducible apply Kept.step State.fmOpen_kept | (show _ = _; rfl) | split

theorem State.fmEdge_kept {s : State} {x1 x2 x3 x4 x5} : Kept [.regs, .meas] s (State.fmEdge s x1 x2 x3 x4 x5) := by
  unfold State.fmEdge; repeat' first
      | with_reducible exact Kept.refl | with_reducible apply Kept.step State.bump_kept | with_reducible apply Kept.step State.modFm_kept
      | (show _ = _; rfl) | split

theorem State.imOrphan_kept {s : State} {x1 x2 x3} : Kept [.regs, .meas] s (State.imOrphan s x1 x2 x3) := by
  unfold State.imOrphan; repeat' first
      | with_reducible exact Kept.refl | with_reducible apply Kept.step State.bump_kept | with_reducible apply Kept.step State.modIm_kept
      | (show _ = _; rfl)

theorem State.imEdge_kept {s : State} {x1 x2 x3 x4} : Kept [.regs, .meas] s (State.imEdge s x1 x2 x3 x4) := by
  unfold State.imEdge; repeat' first
      | (extract_lets +onlyGivenNames v; apply Kept.gen (v := v); subst v; rotate_left; clear_value v; intro h; rotate_right)
      | (extract_lets +onlyGivenNames v; clear_value v) | with_reducible assumption | with_reducible exact Kept.refl
      | with_reducible apply Kept.step State.modIm_kept | with_reducible apply Kept.step State.imEnd_kept
      | with_reducible apply Kept.step State.showIm_kept | with_reducible apply Kept.step State.imOrphan_kept | (show _ = _; rfl) | split

theorem State.imMerge_kept {s : State} {x1 x2 x3} : Kept [.meas] s (State.imMerge s x1 x2 x3) := by
  unfold State.imMerge; repeat' first | with_reducible exact Kept.refl | with_reducible apply Kept.step State.modIm_kept | (show _ = _; rfl) | split

theorem State.unitEdge_kept {s : State} {x1 x2} : Kept [.regs, .meas] s (State.unitEdge s x1 x2) := by
  unfold State.unitEdge; repeat' first
      | intro _ | (extract_lets +onlyGivenNames v; apply Kept.gen (v := v); subst v; rotate_left; clear_value v; intro h; rotate_right)
      | with_reducible assumption | with_reducible exact Kept.refl | with_reducible apply Kept.ite
      | with_reducible apply Kept.step State.bump_kept | with_reducible apply Kept.step State.fmEdge_kept
      | with_reducible apply Kept.step State.modMeas_kept | with_reducible apply State.each_kept
      | with_reducible apply Kept.step State.imEdge_kept | with_reducible apply Kept.step State.imMerge_kept | (show _ = _; rfl)

theorem State.evoutPlace_kept {s : State} {x1 x2 x3} : Kept [.meas] s (State.evoutPlace s x1 x2 x3) := by
  unfold State.evoutPlace; repeat' first | with_reducible exact Kept.refl | with_reducible apply Kept.step State.modEvout_kept | (show _ = _; rfl)

theorem State.evoutEdge_kept {s : State} {x1 x2} : Kept [.regs, .host, .cores, .meas] s (State.evoutEdge s x1 x2) := by
  unfold State.evoutEdge; repeat' first
      | with_reducible exact Kept.refl | with_reducible apply Kept.ite | with_reducible apply Kept.step State.evoutSkip_kept
      | with_reducible apply Kept.step State.modEvout_kept | with_reducible apply Kept.step State.showEvout_kept
      | with_reducible apply Kept.step State.evoutPlace_kept | (show _ = _; rfl)

theorem State.imExpire_kept {s : State} {x1 x2} : Kept [.regs, .meas] s (State.imExpire s x1 x2) := by
  unfold State.imExpire; repeat' first
      | with_reducible exact Kept.refl | with_reducible apply Kept.step State.modIm_kept | with_reducible apply Kept.step State.showIm_kept
      | with_reducible apply Kept.step State.imOrphan_kept | (show _ = _; rfl) | split

theorem State.measPost_kept {s : State} : Kept [.regs, .host, .cores, .meas] s (State.measPost s) := by
  unfold State.measPost; repeat' first
      | intro _ | (extract_lets +onlyGivenNames v; apply Kept.gen (v := v); subst v; rotate_left; clear_value v; intro h; rotate_right)
      | with_reducible assumption | with_reducible exact Kept.refl | with_reducible apply Kept.step State.bump_kept
      | with_reducible apply Kept.step State.modMeas_kept | with_reducible apply State.each_kept
      | with_reducible apply Kept.step State.writeEntry_kept | with_reducible apply Kept.step State.measLose_kept | (show _ = _; rfl) | split

theorem State.evoutBoot_kept {s : State} : Kept [.regs, .host, .cores, .meas] s (State.evoutBoot s) := by
  unfold State.evoutBoot; repeat' first
      | intro _ | with_reducible assumption | with_reducible exact Kept.refl | with_reducible apply Kept.step State.evoutApply_kept
      | with_reducible apply State.each_kept | (show _ = _; rfl) | split

end Sys2Proof.Machine
end

