-- ==== Sys2Proof/Laws/FrameCal.lean ====
section
/-!
SUPPORT. Sys2Proof/Laws/FrameCal.lean: what each operation of Machine/Cal.lean may change, and that it keeps the canonical forms.
-/
namespace Sys2Proof.Machine
open Sys2Proof

theorem State.showCal_kept {s : State} {x1} : Kept [.regs] s (State.showCal s x1) := by
  unfold State.showCal; repeat' first
      | (extract_lets +onlyGivenNames v; apply Kept.gen (v := v); subst v; rotate_left; clear_value v; intro h; rotate_right)
      | with_reducible assumption | with_reducible exact Kept.refl | with_reducible apply Kept.step State.setF_kept | (show _ = _; rfl) | split

theorem State.modCal_kept {s : State} {x1} : Kept [.cal] s (State.modCal s x1) := by
  unfold State.modCal; repeat' first | with_reducible exact Kept.refl | (show _ = _; rfl) | with_reducible apply Kept.put_cal

theorem State.modInterp_kept {s : State} {x1 x2} : Kept [.cal] s (State.modInterp s x1 x2) := by
  unfold State.modInterp; repeat' first | with_reducible exact Kept.refl | with_reducible apply Kept.step State.modCal_kept | (show _ = _; rfl)

theorem State.chunkDrop_kept {s : State} {x1} : Kept [.regs, .cal] s (State.chunkDrop s x1) := by
  unfold State.chunkDrop; repeat' first
      | with_reducible exact Kept.refl | with_reducible apply Kept.step State.showCal_kept
      | with_reducible apply Kept.step State.modInterp_kept | (show _ = _; rfl) | split

theorem State.modPath_kept {s : State} {x1 x2} : Kept [.cal] s (State.modPath s x1 x2) := by
  unfold State.modPath; repeat' first | with_reducible exact Kept.refl | with_reducible apply Kept.step State.modCal_kept | (show _ = _; rfl)

theorem State.pathDrop_kept {s : State} {x1} : Kept [.regs, .cal] s (State.pathDrop s x1) := by
  unfold State.pathDrop; repeat' first
      | (extract_lets +onlyGivenNames v; apply Kept.gen (v := v); subst v; rotate_left; clear_value v; intro h; rotate_right)
      | with_reducible assumption | with_reducible exact Kept.refl | with_reducible apply Kept.ite
      | with_reducible apply Kept.step State.showCal_kept | with_reducible apply Kept.step State.modCal_kept
      | with_reducible apply Kept.step State.modPath_kept | with_reducible apply State.when_kept | (show _ = _; rfl)

theorem State.calLate_kept {s : State} : Kept [.regs, .host, .cores, .cal] s (State.calLate s) := by
  unfold State.calLate; repeat' first
      | intro _ | with_reducible assumption | with_reducible exact Kept.refl | with_reducible apply Kept.step State.chunkDrop_kept
      | with_reducible apply Kept.step State.late_kept | with_reducible apply State.each_kept
      | with_reducible apply Kept.step State.pathDrop_kept | (show _ = _; rfl)

theorem State.linkWrite_kept {s : State} {x1 x2} : Kept [.regs, .servo] s (State.linkWrite s x1 x2) := by
  unfold State.linkWrite; repeat' first
      | (extract_lets +onlyGivenNames v; apply Kept.gen (v := v); subst v; rotate_left; clear_value v; intro h; rotate_right)
      | with_reducible assumption | with_reducible exact Kept.refl | with_reducible apply Kept.step State.setF_kept
      | with_reducible apply State.when_kept | (show _ = _; rfl) | split | with_reducible apply Kept.put_servo

theorem State.sweepCancel_kept {s : State} : Kept [.regs, .cal] s (State.sweepCancel s) := by
  unfold State.sweepCancel; repeat' first
      | intro _ | (extract_lets +onlyGivenNames v; apply Kept.gen (v := v); subst v; rotate_left; clear_value v; intro h; rotate_right)
      | with_reducible assumption | with_reducible exact Kept.refl | with_reducible apply Kept.step State.showCal_kept
      | with_reducible apply Kept.step State.modInterp_kept | with_reducible apply State.each_kept
      | with_reducible apply Kept.step State.modPath_kept | (show _ = _; rfl)

theorem State.sweepEnd_kept {s : State} : Kept [.regs, .host, .cores] s (State.sweepEnd s) := by
  unfold State.sweepEnd; repeat' first
      | with_reducible exact Kept.refl | with_reducible apply Kept.step State.endLong_kept | (show _ = _; rfl) | split

theorem State.calDip_kept {s : State} : Kept [.regs, .cal] s (State.calDip s) := by
  unfold State.calDip; repeat' first
      | intro _ | (extract_lets +onlyGivenNames v; apply Kept.gen (v := v); subst v; rotate_left; clear_value v; intro h; rotate_right)
      | with_reducible assumption | with_reducible exact Kept.refl | with_reducible apply Kept.step State.chunkDrop_kept
      | with_reducible apply State.each_kept | with_reducible apply Kept.step State.pathDrop_kept | (show _ = _; rfl)

theorem State.sweepRun_kept {s : State} : Kept [.host, .cal] s (State.sweepRun s) := by
  unfold State.sweepRun; repeat' first
      | with_reducible exact Kept.refl | with_reducible apply Kept.step State.modOp_kept | with_reducible apply Kept.step State.modCal_kept
      | (show _ = _; rfl)

theorem State.showTime_kept {s : State} {x1 x2 x3 x4 x5} : Kept [.regs] s (State.showTime s x1 x2 x3 x4 x5) := by
  unfold State.showTime; repeat' first | with_reducible exact Kept.refl | with_reducible apply Kept.step State.setF_kept | (show _ = _; rfl)

theorem State.calEvent_kept {s : State} {x1 x2 x3 x4 x5 x6} : Kept [.regs, .host, .cores] s (State.calEvent s x1 x2 x3 x4 x5 x6) := by
  unfold State.calEvent; repeat' first
      | with_reducible exact Kept.refl | with_reducible apply Kept.step State.raise_kept | (show _ = _; rfl) | split

theorem State.interpApply_kept {s : State} {x1} : Kept [.regs, .host, .cores, .cal, .meas] s (State.interpApply s x1) := by
  unfold State.interpApply; repeat' first
      | intro _ | (extract_lets +onlyGivenNames v; apply Kept.gen (v := v); subst v; rotate_left; clear_value v; intro h; rotate_right)
      | with_reducible assumption | with_reducible exact Kept.refl | with_reducible apply Kept.ite
      | with_reducible apply Kept.step State.sweepRun_kept | with_reducible apply Kept.step State.setReg_kept
      | with_reducible apply Kept.step State.showCal_kept | with_reducible apply Kept.step State.modInterp_kept
      | with_reducible apply Kept.step State.setF_kept | with_reducible apply Kept.step State.showTime_kept
      | with_reducible apply Kept.step State.fmTable_kept | with_reducible apply Kept.step State.modCal_kept
      | with_reducible apply Kept.step State.imTable_kept | with_reducible apply State.when_kept
      | with_reducible apply Kept.step State.calEvent_kept | (show _ = _; rfl)

theorem State.interpDue_kept {s : State} {x1 x2 x3} : Kept [.regs, .cal] s (State.interpDue s x1 x2 x3) := by
  unfold State.interpDue; repeat' first
      | with_reducible exact Kept.refl | with_reducible apply Kept.step State.showCal_kept
      | with_reducible apply Kept.step State.modInterp_kept | (show _ = _; rfl)

theorem State.pathApply_kept {s : State} {x1} : Kept [.regs, .host, .cores, .cal] s (State.pathApply s x1) := by
  unfold State.pathApply; repeat' first
      | (extract_lets +onlyGivenNames v; apply Kept.gen (v := v); subst v; rotate_left; clear_value v; intro h; rotate_right)
      | (extract_lets +onlyGivenNames v; clear_value v) | with_reducible assumption | with_reducible exact Kept.refl
      | with_reducible apply Kept.step State.sweepRun_kept | with_reducible apply Kept.step State.setReg_kept
      | with_reducible apply Kept.step State.showCal_kept | with_reducible apply Kept.step State.setF_kept
      | with_reducible apply Kept.step State.showComp_kept | with_reducible apply Kept.step State.showTime_kept
      | with_reducible apply Kept.step State.modPath_kept | with_reducible apply State.when_kept
      | with_reducible apply Kept.step State.calEvent_kept | (show _ = _; rfl) | split

theorem State.calBoundary_kept {s : State} : Kept [.regs, .host, .cores, .cal, .meas] s (State.calBoundary s) := by
  unfold State.calBoundary; repeat' first
      | intro _ | (extract_lets +onlyGivenNames v; apply Kept.gen (v := v); subst v; rotate_left; clear_value v; intro h; rotate_right)
      | with_reducible assumption | with_reducible exact Kept.refl | with_reducible apply Kept.ite
      | with_reducible apply Kept.step State.interpApply_kept | with_reducible apply State.each_kept
      | with_reducible apply Kept.step State.interpDue_kept | with_reducible apply Kept.step State.pathApply_kept
      | with_reducible apply Kept.step State.sweepEnd_kept | with_reducible apply Kept.step State.calLate_kept | (show _ = _; rfl)

theorem State.linkLoad_kept {s : State} {x1} : Kept [.regs, .servo] s (State.linkLoad s x1) := by
  unfold State.linkLoad; repeat' first
      | (extract_lets +onlyGivenNames v; apply Kept.gen (v := v); subst v; rotate_left; clear_value v; intro h; rotate_right)
      | with_reducible assumption | with_reducible exact Kept.refl | with_reducible apply Kept.step State.setF_kept | (show _ = _; rfl)
      | with_reducible apply Kept.put_servo

theorem State.linkBoundary_kept {s : State} : Kept [.regs, .servo] s (State.linkBoundary s) := by
  unfold State.linkBoundary; repeat' first
      | intro _ | (extract_lets +onlyGivenNames v; apply Kept.gen (v := v); subst v; rotate_left; clear_value v; intro h; rotate_right)
      | with_reducible assumption | with_reducible exact Kept.refl | with_reducible apply State.each_kept
      | with_reducible apply Kept.step State.linkLoad_kept | (show _ = _; rfl) | split | with_reducible apply Kept.put_servo

theorem State.pathDue_kept {s : State} {x1 x2} : Kept [.regs, .cal] s (State.pathDue s x1 x2) := by
  unfold State.pathDue; repeat' first
      | with_reducible exact Kept.refl | with_reducible apply Kept.step State.showCal_kept | with_reducible apply Kept.step State.modPath_kept
      | (show _ = _; rfl)

theorem State.sweepStart_kept {s : State} {x1} : Kept [.regs, .cal] s (State.sweepStart s x1) := by
  unfold State.sweepStart; repeat' first
      | intro _ | (extract_lets +onlyGivenNames v; apply Kept.gen (v := v); subst v; rotate_left; clear_value v; intro h; rotate_right)
      | with_reducible assumption | with_reducible exact Kept.refl | with_reducible apply Kept.step State.pathDue_kept
      | with_reducible apply State.each_kept | with_reducible apply Kept.step State.interpDue_kept
      | with_reducible apply Kept.step State.modCal_kept | with_reducible apply State.when_kept | (show _ = _; rfl)

theorem State.markGaps_kept {s : State} : Kept [.cal] s (State.markGaps s) := by
  unfold State.markGaps; repeat' first | with_reducible exact Kept.refl | with_reducible apply Kept.step State.modCal_kept | (show _ = _; rfl)

theorem State.laneDue_kept {s : State} {x1 x2} : Kept [.regs, .cal] s (State.laneDue s x1 x2) := by
  unfold State.laneDue; repeat' first
      | with_reducible exact Kept.refl | with_reducible apply Kept.step State.pathDue_kept
      | with_reducible apply Kept.step State.interpDue_kept | (show _ = _; rfl)

theorem State.laneTrigger_kept {s : State} {x1} : Kept [.regs, .cal] s (State.laneTrigger s x1) := by
  unfold State.laneTrigger; repeat' first
      | with_reducible exact Kept.refl | with_reducible apply Kept.ite | with_reducible apply Kept.step State.laneDue_kept | (show _ = _; rfl)

theorem State.unitTrigger_kept {s : State} {x1} : Kept [.regs, .cal] s (State.unitTrigger s x1) := by
  unfold State.unitTrigger; repeat' first
      | with_reducible exact Kept.refl | with_reducible apply Kept.ite | with_reducible apply Kept.step State.interpDue_kept | (show _ = _; rfl)

theorem State.calJoin_kept {s : State} : Kept [.regs, .cal] s (State.calJoin s) := by
  unfold State.calJoin; repeat' first
      | intro _ | (extract_lets +onlyGivenNames v; apply Kept.gen (v := v); subst v; rotate_left; clear_value v; intro h; rotate_right)
      | with_reducible assumption | with_reducible exact Kept.refl | with_reducible apply State.each_kept
      | with_reducible apply Kept.step State.interpDue_kept | with_reducible apply Kept.step State.laneDue_kept | (show _ = _; rfl)

theorem State.calSlots_kept {s : State} : Kept [.regs, .cal] s (State.calSlots s) := by
  unfold State.calSlots; repeat' first
      | intro _ | (extract_lets +onlyGivenNames v; apply Kept.gen (v := v); subst v; rotate_left; clear_value v; intro h; rotate_right)
      | with_reducible assumption | with_reducible exact Kept.refl | with_reducible apply Kept.step State.showCal_kept
      | with_reducible apply Kept.step State.modInterp_kept | with_reducible apply Kept.step State.setF_kept
      | with_reducible apply State.each_kept | with_reducible apply Kept.step State.modPath_kept
      | with_reducible apply Kept.step State.markGaps_kept | (show _ = _; rfl) | split

theorem State.calTrained_kept {s : State} {x1} : Kept [.regs, .cal] s (State.calTrained s x1) := by
  unfold State.calTrained; repeat' first | with_reducible exact Kept.refl | with_reducible apply Kept.step State.laneDue_kept | (show _ = _; rfl)

theorem execCalTempCheck_next {s : State} {x0 x1} : ∃ t, execCalTempCheck x0 x1 s = .next t ∧ Kept [.regs, .power, .cal] s t := by
  refine ⟨_, rfl, ?_⟩; repeat' first
      | intro _ | (extract_lets +onlyGivenNames v; apply Kept.gen (v := v); subst v; rotate_left; clear_value v; intro h; rotate_right)
      | with_reducible assumption | with_reducible exact Kept.refl | with_reducible apply Kept.step State.laneTrigger_kept
      | with_reducible apply Kept.step State.unitTrigger_kept | with_reducible apply State.each_kept
      | with_reducible apply Kept.step State.modCal_kept | with_reducible apply Kept.step State.modPath_kept | (show _ = _; rfl) | split
      | with_reducible apply Kept.put_power

theorem execCalChunkDone_next {s : State} {x0 x1 x2} : ∃ t, execCalChunkDone x0 x1 x2 s = .next t ∧ Kept [.regs, .cal] s t := by
  refine ⟨_, rfl, ?_⟩; repeat' first
      | with_reducible exact Kept.refl | with_reducible apply Kept.step State.showCal_kept
      | with_reducible apply Kept.step State.modInterp_kept | (show _ = _; rfl) | split

theorem execCalPeriodDue_next {s : State} {x0} : ∃ t, execCalPeriodDue x0 s = .next t ∧ Kept [.regs, .cal] s t := by
  refine ⟨_, rfl, ?_⟩; repeat' first
      | with_reducible exact Kept.refl | with_reducible apply Kept.step State.laneDue_kept | (show _ = _; rfl) | split

theorem execCalOverdue_next {s : State} {x0 x1 x2 x3} : ∃ t, execCalOverdue x0 x1 x2 x3 s = .next t ∧ Kept [.regs, .host, .cores, .cal] s t := by
  refine ⟨_, rfl, ?_⟩; repeat' first
      | (extract_lets +onlyGivenNames v; apply Kept.gen (v := v); subst v; rotate_left; clear_value v; intro h; rotate_right)
      | with_reducible assumption | with_reducible exact Kept.refl | with_reducible apply Kept.step State.showCal_kept
      | with_reducible apply Kept.step State.modInterp_kept | with_reducible apply Kept.step State.raise_kept
      | with_reducible apply Kept.step State.modPath_kept | (show _ = _; rfl) | split

theorem execPathRunDone_next {s : State} {x0 x1} : ∃ t, execPathRunDone x0 x1 s = .next t ∧ Kept [.regs, .cal] s t := by
  refine ⟨_, rfl, ?_⟩; repeat' first
      | with_reducible exact Kept.refl | with_reducible apply Kept.step State.showCal_kept | with_reducible apply Kept.step State.modPath_kept
      | (show _ = _; rfl) | split

theorem execCalHold_next {s : State} {x0} : ∃ t, execCalHold x0 s = .next t ∧ Kept [.regs, .host, .cores, .cal] s t := by
  refine ⟨_, rfl, ?_⟩; repeat' first
      | intro _ | (extract_lets +onlyGivenNames v; apply Kept.gen (v := v); subst v; rotate_left; clear_value v; intro h; rotate_right)
      | with_reducible assumption | with_reducible exact Kept.refl | with_reducible apply Kept.step State.showCal_kept
      | with_reducible apply State.start_kept | with_reducible apply Kept.step State.setF_kept
      | with_reducible apply Kept.step State.complete_kept | with_reducible apply State.each_kept
      | with_reducible apply Kept.step State.modCal_kept | (show _ = _; rfl)

theorem execLinkUpd_next {s : State} {x0 x1 x2} : ∃ t, execLinkUpd x0 x1 x2 s = .next t ∧ Kept [.regs, .servo] s t := by
  refine ⟨_, rfl, ?_⟩; repeat' first
      | with_reducible exact Kept.refl | with_reducible apply Kept.step State.linkWrite_kept | (show _ = _; rfl) | split

theorem execCalSlotStart_next {s : State} : ∃ t, execCalSlotStart s = .next t ∧ Kept [.regs, .cnt, .time, .cal] s t := by
  refine ⟨_, rfl, ?_⟩; repeat' first
      | with_reducible exact Kept.refl | with_reducible apply Kept.step State.calSlots_kept | with_reducible apply Kept.step State.toTick_kept
      | (show _ = _; rfl) | split

theorem execCalSweep_next {s : State} {x0} : ∃ t, execCalSweep x0 s = .next t ∧ Kept [.regs, .host, .cores, .cal] s t := by
  refine ⟨_, rfl, ?_⟩; repeat' first
      | intro _ | with_reducible assumption | with_reducible exact Kept.refl | with_reducible apply Kept.ite
      | with_reducible apply State.start_kept | with_reducible apply Kept.step State.sweepStart_kept
      | with_reducible apply Kept.step State.complete_kept | with_reducible apply State.startLong_kept | (show _ = _; rfl)

end Sys2Proof.Machine
end

