-- ==== Sys2Proof/Laws/FrameTables.lean ====
section
/-!
SUPPORT. Sys2Proof/Laws/FrameTables.lean: what each operation of Machine/Tables.lean may change, and that it keeps the canonical forms.
-/
namespace Sys2Proof.Machine
open Sys2Proof

theorem State.count_kept {s : State} {x1 x2} : Kept [.ctr] s (State.count s x1 x2) := by
  unfold State.count; repeat' first | with_reducible exact Kept.refl | (show _ = _; rfl) | with_reducible apply Kept.put_ctr

theorem State.modPipe_kept {s : State} {x1 x2} : Kept [.pipes] s (State.modPipe s x1 x2) := by
  unfold State.modPipe; repeat' first | with_reducible exact Kept.refl | (show _ = _; rfl) | with_reducible apply Kept.put_pipes

theorem State.modFwd_kept {s : State} {x1 x2} : Kept [.pipes] s (State.modFwd s x1 x2) := by
  unfold State.modFwd; repeat' first | with_reducible exact Kept.refl | with_reducible apply Kept.step State.modPipe_kept | (show _ = _; rfl)

theorem State.macMod_kept {s : State} {x1 x2 x3} : Kept [.pipes] s (State.macMod s x1 x2 x3) := by
  unfold State.macMod; repeat' first | with_reducible exact Kept.refl | with_reducible apply Kept.step State.modFwd_kept | (show _ = _; rfl)

theorem State.showMac_kept {s : State} {x1} : Kept [.regs] s (State.showMac s x1) := by
  unfold State.showMac; repeat' first | with_reducible exact Kept.refl | with_reducible apply Kept.step State.setF_kept | (show _ = _; rfl)

theorem State.limitArm_kept {s : State} {x1 x2} : Kept [.pipes] s (State.limitArm s x1 x2) := by
  unfold State.limitArm; repeat' first
      | with_reducible exact Kept.refl | with_reducible apply Kept.step State.modFwd_kept | with_reducible apply State.when_kept | (show _ = _; rfl)

theorem State.countFwd_kept {s : State} {x1 x2 x3} : Kept [.ctr] s (State.countFwd s x1 x2 x3) := by
  unfold State.countFwd; repeat' first | with_reducible exact Kept.refl | with_reducible apply Kept.step State.count_kept | (show _ = _; rfl)

theorem State.learnQueue_kept {s : State} {x1 x2} : Kept [.regs, .ctr, .pipes] s (State.learnQueue s x1 x2) := by
  unfold State.learnQueue; repeat' first
      | (extract_lets +onlyGivenNames v; apply Kept.gen (v := v); subst v; rotate_left; clear_value v; intro h; rotate_right)
      | with_reducible assumption | with_reducible exact Kept.refl | with_reducible apply Kept.step State.modFwd_kept
      | with_reducible apply Kept.step State.setF_kept | with_reducible apply Kept.step State.countFwd_kept | (show _ = _; rfl) | split

theorem State.moved_kept {s : State} {x1 x2} : Kept [.regs] s (State.moved s x1 x2) := by
  unfold State.moved; repeat' first | with_reducible exact Kept.refl | with_reducible apply Kept.step State.setReg_kept | (show _ = _; rfl)

theorem State.showLpm_kept {s : State} {x1} : Kept [.regs] s (State.showLpm s x1) := by
  unfold State.showLpm; repeat' first | with_reducible exact Kept.refl | with_reducible apply Kept.step State.setF_kept | (show _ = _; rfl)

theorem State.macAdd_kept {s : State} {x1 x2} : Kept [.regs, .pipes] s (State.macAdd s x1 x2).1 := by
  unfold State.macAdd; repeat' first
      | with_reducible exact Kept.refl | with_reducible apply Kept.step State.modFwd_kept | with_reducible apply Kept.step State.showMac_kept
      | with_reducible apply Kept.step State.moved_kept | (show _ = _; rfl) | split

theorem State.twinWrite_kept {s : State} {x1 x2 x3 x4} : Kept [.regs, .pipes] s (State.twinWrite s x1 x2 x3 x4).1 := by
  unfold State.twinWrite; repeat' first
      | (extract_lets +onlyGivenNames v; clear_value v) | with_reducible exact Kept.refl | with_reducible apply Kept.step State.modFwd_kept
      | with_reducible apply Kept.step State.moved_kept | with_reducible apply Kept.step State.showLpm_kept
      | with_reducible apply Kept.step State.macAdd_kept | (show _ = _; rfl) | split

theorem State.portCount_kept {s : State} {x1 x2 x3} : Kept [.regs, .pipes] s (State.portCount s x1 x2 x3) := by
  unfold State.portCount; repeat' first
      | with_reducible exact Kept.refl | with_reducible apply Kept.step State.limitArm_kept | with_reducible apply Kept.step State.setF_kept
      | (show _ = _; rfl) | split

theorem State.macRemove_kept {s : State} {x1 x2} : Kept [.regs, .pipes] s (State.macRemove s x1 x2) := by
  unfold State.macRemove; repeat' first
      | (extract_lets +onlyGivenNames v; apply Kept.gen (v := v); subst v; rotate_left; clear_value v; intro h; rotate_right)
      | with_reducible assumption | with_reducible exact Kept.refl | with_reducible apply Kept.step State.modFwd_kept
      | with_reducible apply Kept.step State.portCount_kept | with_reducible apply Kept.step State.showMac_kept | (show _ = _; rfl) | split

theorem State.twinRemove_kept {s : State} {x1 x2 x3 x4} : Kept [.regs, .pipes] s (State.twinRemove s x1 x2 x3 x4).1 := by
  unfold State.twinRemove; repeat' first
      | (extract_lets +onlyGivenNames v; clear_value v) | with_reducible exact Kept.refl | with_reducible apply Kept.step State.modFwd_kept
      | with_reducible apply Kept.step State.macMod_kept | with_reducible apply Kept.step State.showLpm_kept
      | with_reducible apply Kept.step State.macRemove_kept | (show _ = _; rfl) | split

theorem State.modParser_kept {s : State} {x1 x2} : Kept [.pipes] s (State.modParser s x1 x2) := by
  unfold State.modParser; repeat' first | with_reducible exact Kept.refl | with_reducible apply Kept.step State.modPipe_kept | (show _ = _; rfl)

theorem State.countParse_kept {s : State} {x1 x2 x3} : Kept [.ctr] s (State.countParse s x1 x2 x3) := by
  unfold State.countParse; repeat' first | with_reducible exact Kept.refl | with_reducible apply Kept.step State.count_kept | (show _ = _; rfl)

theorem State.flap_kept {s : State} {x1 x2 x3} : Kept [.ctr, .pipes] s (State.flap s x1 x2 x3) := by
  unfold State.flap; repeat' first
      | with_reducible exact Kept.refl | with_reducible apply Kept.step State.modFwd_kept | with_reducible apply Kept.step State.countFwd_kept
      | (show _ = _; rfl)

theorem State.portJoin_kept {s : State} {x1 x2} : Kept [.regs, .host, .cores, .pipes] s (State.portJoin s x1 x2) := by
  unfold State.portJoin; repeat' first
      | (extract_lets +onlyGivenNames v; apply Kept.gen (v := v); subst v; rotate_left; clear_value v; intro h; rotate_right)
      | with_reducible assumption | with_reducible exact Kept.refl | with_reducible apply Kept.ite
      | with_reducible apply Kept.step State.modFwd_kept | with_reducible apply Kept.step State.portCount_kept
      | with_reducible apply Kept.step State.raise_kept | (show _ = _; rfl)

theorem State.learn_kept {s : State} {x1 x2} : Kept [.regs, .ctr, .host, .cores, .pipes] s (State.learn s x1 x2) := by
  unfold State.learn; repeat' first
      | (extract_lets +onlyGivenNames v; apply Kept.gen (v := v); subst v; rotate_left; clear_value v; intro h; rotate_right)
      | with_reducible assumption | with_reducible exact Kept.refl | with_reducible apply Kept.ite
      | with_reducible apply Kept.step State.modFwd_kept | with_reducible apply Kept.step State.flap_kept
      | with_reducible apply Kept.step State.portJoin_kept | with_reducible apply Kept.step State.portCount_kept
      | with_reducible apply Kept.step State.raise_kept | with_reducible apply Kept.step State.macMod_kept
      | with_reducible apply Kept.step State.countFwd_kept | with_reducible apply Kept.step State.macAdd_kept | (show _ = _; rfl) | split

theorem State.serve_kept {s : State} {x1} : Kept [.regs, .ctr, .host, .cores, .pipes] s (State.serve s x1) := by
  unfold State.serve; repeat' first
      | (extract_lets +onlyGivenNames v; apply Kept.gen (v := v); subst v; rotate_left; clear_value v; intro h; rotate_right)
      | with_reducible assumption | with_reducible exact Kept.refl | with_reducible apply Kept.step State.modFwd_kept
      | with_reducible apply Kept.step State.setF_kept | with_reducible apply Kept.step State.learn_kept | (show _ = _; rfl) | split

end Sys2Proof.Machine
end

