-- ==== Sys2Proof/Laws/FrameFabric.lean ====
section
/-!
SUPPORT. Sys2Proof/Laws/FrameFabric.lean: what each operation of Machine/Fabric.lean may change, and that it keeps the canonical forms.
-/
namespace Sys2Proof.Machine
open Sys2Proof

theorem State.modFabric_kept {s : State} {x1} : Kept [.fabric] s (State.modFabric s x1) := by
  unfold State.modFabric; repeat' first | with_reducible exact Kept.refl | (show _ = _; rfl) | with_reducible apply Kept.put_fabric

theorem State.showDeep_kept {s : State} : Kept [.regs] s (State.showDeep s) := by
  unfold State.showDeep; repeat' first | with_reducible exact Kept.refl | with_reducible apply Kept.step State.setF_kept | (show _ = _; rfl)

theorem State.headroomCheck_kept {L : List Part} {s t u : State} (k : Kept L s u) (h : Kept L s t) (m : L.contains .regs = true) :
    Kept L s (State.headroomCheck u t) := by
  unfold State.headroomCheck; split
  · exact h
  · exact Kept.step State.setF_kept (by simpa [subParts] using m) k

theorem State.spillState_kept {s : State} {x1 x2} : Kept [.regs] s (State.spillState s x1 x2) := by
  unfold State.spillState; repeat' first
      | with_reducible exact Kept.refl | with_reducible apply Kept.ite | with_reducible apply Kept.step State.setF_kept | (show _ = _; rfl)

theorem State.pressure_kept {s : State} : Kept [.regs] s (State.pressure s) := by
  unfold State.pressure; repeat' first
      | intro _ | with_reducible assumption | with_reducible exact Kept.refl | with_reducible apply Kept.step State.spillState_kept
      | with_reducible apply State.each_kept | (show _ = _; rfl)

theorem State.acctXoff_kept {s : State} {x1 x2} : Kept [.regs, .ctr, .lanes, .ports, .fabric, .cal, .line] s (State.acctXoff s x1 x2) := by
  unfold State.acctXoff; repeat' first
      | (extract_lets +onlyGivenNames v; apply Kept.gen (v := v); subst v; rotate_left; clear_value v; intro h; rotate_right)
      | with_reducible assumption | with_reducible exact Kept.refl | with_reducible apply Kept.ite
      | with_reducible apply Kept.step State.setF_kept | with_reducible apply Kept.step State.askXoff_kept
      | with_reducible apply Kept.step State.modFabric_kept | (show _ = _; rfl)

theorem State.poolXoff_kept {s : State} : Kept [.regs, .ctr, .lanes, .ports, .fabric, .cal, .line] s (State.poolXoff s) := by
  unfold State.poolXoff; repeat' first
      | intro _ | with_reducible assumption | with_reducible exact Kept.refl | with_reducible apply Kept.step State.acctXoff_kept
      | with_reducible apply State.each_kept | (show _ = _; rfl)

theorem State.showFree_kept {s : State} : Kept [.regs, .ctr, .host, .cores, .lanes, .ports, .fabric, .cal, .line] s (State.showFree s) := by
  unfold State.showFree; repeat' first
      | (extract_lets +onlyGivenNames v; apply Kept.gen (v := v); subst v; rotate_left; clear_value v; intro h; rotate_right)
      | with_reducible assumption | with_reducible exact Kept.refl | with_reducible apply Kept.step State.setF_kept
      | with_reducible apply Kept.step State.showDeep_kept | with_reducible apply Kept.step State.raise_kept
      | with_reducible apply Kept.step State.modFabric_kept | with_reducible apply Kept.step State.pressure_kept
      | with_reducible apply Kept.step State.poolXoff_kept | (show _ = _; rfl) | split

theorem State.modFrame_kept {s : State} {x1 x2} : Kept [.fabric] s (State.modFrame s x1 x2) := by
  unfold State.modFrame; repeat' first | with_reducible exact Kept.refl | with_reducible apply Kept.step State.modFabric_kept | (show _ = _; rfl)

theorem State.showIa_kept {s : State} {x1 x2} : Kept [.regs, .ctr, .lanes, .ports, .fabric, .cal, .line] s (State.showIa s x1 x2) := by
  unfold State.showIa; repeat' first
      | with_reducible exact Kept.refl | with_reducible apply Kept.step State.setF_kept | with_reducible apply Kept.step State.acctXoff_kept
      | (show _ = _; rfl) | split

theorem State.showEq_kept {s : State} {x1 x2} : Kept [.regs] s (State.showEq s x1 x2) := by
  unfold State.showEq; repeat' first
      | (extract_lets +onlyGivenNames v; apply Kept.gen (v := v); subst v; rotate_left; clear_value v; intro h; rotate_right)
      | with_reducible assumption | with_reducible exact Kept.refl | with_reducible apply Kept.step State.setF_kept
      | with_reducible apply Kept.step State.spillState_kept | (show _ = _; rfl) | split

theorem State.txPop_kept {s : State} {x1} : Kept [.regs, .host] s (State.txPop s x1) := by
  unfold State.txPop; repeat' first
      | with_reducible exact Kept.refl | with_reducible apply Kept.step State.signalSoon_kept
      | with_reducible apply Kept.step State.advance_kept | (show _ = _; rfl) | split | with_reducible apply Kept.put_host

theorem State.txDone_kept {s : State} {x1 x2 x3} : Kept [.regs, .host] s (State.txDone s x1 x2 x3) := by
  unfold State.txDone; repeat' first
      | (extract_lets +onlyGivenNames v; apply Kept.gen (v := v); subst v; rotate_left; clear_value v; intro h; rotate_right)
      | with_reducible assumption | with_reducible exact Kept.refl | with_reducible apply Kept.step State.post_kept
      | with_reducible apply Kept.step State.txPop_kept | (show _ = _; rfl) | split | with_reducible apply Kept.put_host

theorem State.endFrame_kept {s : State} {x1} : Kept [.regs, .ctr, .host, .cores, .lanes, .ports, .fabric, .cal, .line] s (State.endFrame s x1) := by
  unfold State.endFrame; repeat' first
      | with_reducible exact Kept.refl | with_reducible apply Kept.step State.showFree_kept
      | with_reducible apply Kept.step State.modFabric_kept | (show _ = _; rfl)

theorem State.countFab_kept {s : State} {x1 x2 x3} : Kept [.ctr] s (State.countFab s x1 x2 x3) := by
  unfold State.countFab; repeat' first | with_reducible exact Kept.refl | with_reducible apply Kept.step State.count_kept | (show _ = _; rfl)

theorem State.ringRecord_kept {s : State} {x1 x2} : Kept [.regs, .host] s (State.ringRecord s x1 x2) := by
  unfold State.ringRecord; repeat' first
      | with_reducible exact Kept.refl | with_reducible apply Kept.step State.bump_kept | with_reducible apply Kept.step State.writeEntry_kept
      | (show _ = _; rfl) | split

theorem State.capture_kept {s : State} {x1 x2 x3 x4} : Kept [.regs, .ctr, .host, .fabric] s (State.capture s x1 x2 x3 x4) := by
  unfold State.capture; repeat' first
      | with_reducible exact Kept.refl | with_reducible apply Kept.step State.countFab_kept
      | with_reducible apply Kept.step State.ringRecord_kept | with_reducible apply Kept.step State.modFabric_kept | (show _ = _; rfl) | split

theorem State.release_kept {s : State} {x1 x2} :
    Kept [.regs, .ctr, .host, .cores, .lanes, .ports, .fabric, .cal, .line] s (State.release s x1 x2) := by
  unfold State.release; repeat' first
      | intro _ | (extract_lets +onlyGivenNames v; apply Kept.gen (v := v); subst v; rotate_left; clear_value v; intro h; rotate_right)
      | with_reducible assumption | with_reducible exact Kept.refl | with_reducible apply Kept.step State.flushCtrl_kept
      | with_reducible apply Kept.step State.showFree_kept | with_reducible apply Kept.step State.modFrame_kept
      | with_reducible apply Kept.step State.showIa_kept | with_reducible apply Kept.step State.showEq_kept
      | with_reducible apply Kept.step State.modFabric_kept | with_reducible apply Kept.step State.txDone_kept
      | with_reducible apply Kept.step State.endFrame_kept | with_reducible apply State.when_kept
      | with_reducible apply Kept.step State.capture_kept | (show _ = _; rfl) | split

theorem State.unsend_kept {s : State} {x1} : Kept [.fabric] s (State.unsend s x1) := by
  unfold State.unsend; repeat' first
      | with_reducible exact Kept.refl | with_reducible apply Kept.step State.modFabric_kept | (show _ = _; rfl) | split

theorem State.flush_kept {s : State} {x1 x2 x3} :
    Kept [.regs, .ctr, .host, .cores, .lanes, .ports, .fabric, .cal, .line] s (State.flush s x1 x2 x3).1 := by
  unfold State.flush; repeat' first
      | intro _ | (extract_lets +onlyGivenNames v; apply Kept.gen (v := v); subst v; rotate_left; clear_value v; intro h; rotate_right)
      | with_reducible assumption | with_reducible exact Kept.refl | with_reducible apply Kept.step State.countFab_kept
      | with_reducible apply State.each_kept | with_reducible apply Kept.step State.modFabric_kept
      | with_reducible apply Kept.step State.release_kept | (show _ = _; rfl)

theorem State.portDown_kept {s : State} {x1} : Kept [.regs, .ctr, .host, .cores, .lanes, .ports, .fabric, .cal, .line] s (State.portDown s x1) := by
  unfold State.portDown; repeat' first
      | (extract_lets +onlyGivenNames v; apply Kept.gen (v := v); subst v; rotate_left; clear_value v; intro h; rotate_right)
      | with_reducible assumption | with_reducible exact Kept.refl | with_reducible apply Kept.step State.setF_kept
      | with_reducible apply Kept.step State.countFab_kept | with_reducible apply Kept.step State.clearPause_kept
      | with_reducible apply Kept.step State.unsend_kept | with_reducible apply Kept.step State.modFabric_kept
      | with_reducible apply Kept.step State.flush_kept | with_reducible apply Kept.step State.modMac_kept | (show _ = _; rfl) | split

theorem State.portBack_kept {s : State} {x1} : Kept [.regs, .ctr, .ports, .fabric] s (State.portBack s x1) := by
  unfold State.portBack; repeat' first
      | (extract_lets +onlyGivenNames v; apply Kept.gen (v := v); subst v; rotate_left; clear_value v; intro h; rotate_right)
      | with_reducible assumption | with_reducible exact Kept.refl | with_reducible apply Kept.step State.setF_kept
      | with_reducible apply Kept.step State.countFab_kept | with_reducible apply Kept.step State.clearPause_kept
      | with_reducible apply Kept.step State.modFabric_kept | (show _ = _; rfl) | split

theorem State.modCopy_kept {s : State} {x1 x2 x3} : Kept [.fabric] s (State.modCopy s x1 x2 x3) := by
  unfold State.modCopy; repeat' first | with_reducible exact Kept.refl | with_reducible apply Kept.step State.modFabric_kept | (show _ = _; rfl)

theorem State.setCell_kept {s : State} {x1 x2} : Kept [.fabric] s (State.setCell s x1 x2) := by
  unfold State.setCell; repeat' first
      | with_reducible exact Kept.refl | with_reducible apply Kept.step State.modFrame_kept | with_reducible apply Kept.step State.modCopy_kept
      | (show _ = _; rfl) | split

theorem State.spillCell_kept {s : State} {x1 x2} : Kept [.fabric] s (State.spillCell s x1 x2) := by
  unfold State.spillCell; repeat' first | with_reducible exact Kept.refl | with_reducible apply Kept.step State.modFabric_kept | (show _ = _; rfl)

theorem State.admitCell_kept {s : State} {x1 x2 x3} :
    Kept [.regs, .ctr, .host, .cores, .lanes, .ports, .fabric, .cal, .line] s (State.admitCell s x1 x2 x3) := by
  unfold State.admitCell; repeat' first
      | intro _ | with_reducible exact Kept.refl | with_reducible apply Kept.step State.setCell_kept
      | with_reducible apply Kept.step State.showFree_kept | with_reducible apply Kept.step State.showIa_kept
      | with_reducible apply Kept.step State.showEq_kept | with_reducible apply Kept.step State.modFabric_kept
      | with_reducible apply Kept.step State.spillCell_kept | with_reducible apply State.when_kept | (show _ = _; rfl) | split

theorem State.hostCells_kept {s : State} : Kept [.regs, .ctr, .host, .cores, .lanes, .ports, .fabric, .cal, .line] s (State.hostCells s) := by
  unfold State.hostCells; repeat' first
      | intro _ | with_reducible assumption | with_reducible exact Kept.refl | with_reducible apply State.each_kept
      | with_reducible apply Kept.step State.admitCell_kept | (show _ = _; rfl) | split

theorem State.discard_kept {s : State} {x1 x2 x3 x4} :
    Kept [.regs, .ctr, .host, .cores, .lanes, .ports, .fabric, .cal, .line] s (State.discard s x1 x2 x3 x4) := by
  unfold State.discard; repeat' first
      | with_reducible exact Kept.refl | with_reducible apply Kept.step State.txDone_kept | with_reducible apply Kept.step State.endFrame_kept
      | with_reducible apply Kept.step State.capture_kept | (show _ = _; rfl)

theorem State.dropAged_kept {s : State} {x1 x2} :
    Kept [.regs, .ctr, .host, .cores, .lanes, .ports, .fabric, .cal, .line] s (State.dropAged s x1 x2) := by
  induction x2 generalizing s with
  | zero => exact Kept.refl
  | succ n ih => unfold State.dropAged; repeat' first
      | with_reducible apply Kept.step ih | with_reducible exact Kept.refl | with_reducible apply Kept.step State.modFabric_kept
      | with_reducible apply Kept.step State.countFab_kept | with_reducible apply Kept.step State.release_kept | (show _ = _; rfl) | split

theorem State.showFrames_kept {s : State} {x1} : Kept [.regs] s (State.showFrames s x1) := by
  unfold State.showFrames; repeat' first
      | intro _ | with_reducible assumption | with_reducible exact Kept.refl | with_reducible apply State.each_kept
      | with_reducible apply Kept.step State.showEq_kept | (show _ = _; rfl)

theorem State.lastCells_kept {s : State} {x1 x2} :
    Kept [.regs, .ctr, .host, .cores, .lanes, .ports, .fabric, .cal, .line] s (State.lastCells s x1 x2).1 := by
  unfold State.lastCells; repeat' first
      | intro _ | with_reducible assumption | with_reducible exact Kept.refl | with_reducible apply Kept.foldlFst
      | with_reducible apply Kept.step State.admitCell_kept | (show _ = _; rfl) | split

theorem State.sorrelIter_kept {s : State} {x1 x2 x3} :
    Kept [.regs, .ctr, .host, .cores, .lanes, .ports, .fabric, .cal, .line] s (State.sorrelIter s x1 x2 x3).1 := by
  unfold State.sorrelIter; repeat' first
      | intro _ | (extract_lets +onlyGivenNames v; apply Kept.gen (v := v); subst v; rotate_left; clear_value v; intro h; rotate_right)
      | with_reducible assumption | with_reducible exact Kept.refl | with_reducible apply State.each_kept
      | with_reducible apply Kept.step State.modFabric_kept | with_reducible apply Kept.step State.admitCell_kept | (show _ = _; rfl) | split

theorem State.mcTimers_kept {s : State} : Kept [.fabric] s (State.mcTimers s) := by
  unfold State.mcTimers; repeat' first | with_reducible exact Kept.refl | with_reducible apply Kept.step State.modFabric_kept | (show _ = _; rfl)

theorem State.sorrel_kept {s : State} : Kept [.regs, .ctr, .host, .cores, .lanes, .ports, .fabric, .cal, .line] s (State.sorrel s) := by
  unfold State.sorrel; repeat' first
      | with_reducible exact Kept.refl | with_reducible apply Kept.step State.hostCells_kept
      | with_reducible apply Kept.step State.lastCells_kept | with_reducible apply Kept.step State.sorrelIter_kept
      | with_reducible apply Kept.step State.mcTimers_kept | (show _ = _; rfl)

theorem State.flushMac_kept {s : State} {x1 x2} : Kept [.regs, .pipes] s (State.flushMac s x1 x2).1 := by
  unfold State.flushMac; repeat' first
      | intro _ | with_reducible assumption | with_reducible exact Kept.refl | with_reducible apply State.each_kept
      | with_reducible apply Kept.step State.macRemove_kept | (show _ = _; rfl)

theorem State.drr_kept {s : State} {x1 x2} : Kept [.fabric] s (State.drr s x1 x2).1 := by
  induction x2 generalizing s with
  | zero => exact Kept.refl
  | succ n ih => unfold State.drr; repeat' first
      | with_reducible apply Kept.step ih
      | (extract_lets +onlyGivenNames v; apply Kept.gen (v := v); subst v; rotate_left; clear_value v; intro h; rotate_right)
      | (extract_lets +onlyGivenNames v; clear_value v) | with_reducible assumption | with_reducible exact Kept.refl
      | with_reducible apply Kept.step State.modFabric_kept | (show _ = _; rfl) | split

theorem State.selectQueue_kept {s : State} {x1} : Kept [.fabric] s (State.selectQueue s x1).1 := by
  unfold State.selectQueue; repeat' first
      | with_reducible exact Kept.refl | with_reducible apply Kept.step State.drr_kept | (show _ = _; rfl) | split

end Sys2Proof.Machine
end

