-- ==== Sys2Proof/Laws/FrameLane.lean ====
section
/-!
SUPPORT. Sys2Proof/Laws/FrameLane.lean: what each operation of Machine/Lane.lean may change, and that it keeps the canonical forms.
-/
namespace Sys2Proof.Machine
open Sys2Proof

theorem State.showPll_kept {s : State} {x1} : Kept [.regs] s (State.showPll s x1) := by
  unfold State.showPll; repeat' first | with_reducible exact Kept.refl | with_reducible apply Kept.step State.setF_kept | (show _ = _; rfl)

theorem State.linkFresh_kept {s : State} {x1} : Kept [.regs, .lanes] s (State.linkFresh s x1) := by
  unfold State.linkFresh; repeat' first
      | with_reducible exact Kept.refl | with_reducible apply Kept.step State.setF_kept | with_reducible apply Kept.step State.modLane_kept
      | (show _ = _; rfl)

theorem State.showLock_kept {s : State} {x1 x2 x3} : Kept [.regs] s (State.showLock s x1 x2 x3) := by
  unfold State.showLock; repeat' first
      | (extract_lets +onlyGivenNames v; apply Kept.gen (v := v); subst v; rotate_left; clear_value v; intro h; rotate_right)
      | with_reducible assumption | with_reducible exact Kept.refl | with_reducible apply Kept.step State.setF_kept | (show _ = _; rfl) | split

theorem State.goLink_kept {s : State} {x1 x2 x3 x4} :
    Kept [.regs, .ctr, .host, .cores, .lanes, .ports, .fabric, .cal, .line] s (State.goLink s x1 x2 x3 x4) := by
  unfold State.goLink; repeat' first
      | intro _ | (extract_lets +onlyGivenNames v; apply Kept.gen (v := v); subst v; rotate_left; clear_value v; intro h; rotate_right)
      | with_reducible assumption | with_reducible exact Kept.refl | with_reducible apply Kept.step State.setF_kept
      | with_reducible apply Kept.step State.portDown_kept | with_reducible apply Kept.step State.modLane_kept
      | with_reducible apply Kept.step State.showPll_kept | with_reducible apply State.each_kept
      | with_reducible apply Kept.step State.pathDrop_kept | with_reducible apply Kept.step State.raise_kept
      | with_reducible apply Kept.step State.linkFresh_kept | with_reducible apply State.when_kept
      | with_reducible apply Kept.step State.showLock_kept | with_reducible apply Kept.step State.portBack_kept | (show _ = _; rfl) | split

theorem State.clearLane_kept {s : State} {x1} : Kept [.regs] s (State.clearLane s x1) := by
  unfold State.clearLane; repeat' first
      | (extract_lets +onlyGivenNames v; apply Kept.gen (v := v); subst v; rotate_left; clear_value v; intro h; rotate_right)
      | with_reducible assumption | with_reducible exact Kept.refl | with_reducible apply Kept.step State.setF_kept | (show _ = _; rfl)

theorem State.linkRestart_kept {s : State} {x1 x2 x3} :
    Kept [.regs, .ctr, .host, .cores, .lanes, .ports, .fabric, .cal, .line] s (State.linkRestart s x1 x2 x3) := by
  unfold State.linkRestart; repeat' first
      | intro _ | (extract_lets +onlyGivenNames v; apply Kept.gen (v := v); subst v; rotate_left; clear_value v; intro h; rotate_right)
      | with_reducible assumption | with_reducible exact Kept.refl | with_reducible apply Kept.ite
      | with_reducible apply Kept.step State.goLink_kept | with_reducible apply Kept.step State.setF_kept
      | with_reducible apply Kept.step State.modLane_kept | with_reducible apply State.each_kept
      | with_reducible apply Kept.step State.linkFresh_kept | (show _ = _; rfl)

theorem State.showCfgErr_kept {s : State} {x1} : Kept [.regs] s (State.showCfgErr s x1) := by
  unfold State.showCfgErr; repeat' first | with_reducible exact Kept.refl | with_reducible apply Kept.step State.setF_kept | (show _ = _; rfl)

theorem State.linkStart_kept {s : State} {x1} :
    Kept [.regs, .ctr, .host, .cores, .lanes, .ports, .fabric, .cal, .line] s (State.linkStart s x1) := by
  unfold State.linkStart; repeat' first
      | with_reducible exact Kept.refl | with_reducible apply Kept.step State.goLink_kept | with_reducible apply Kept.step State.linkFresh_kept
      | (show _ = _; rfl) | split

theorem State.mirror_kept {s : State} {x1} : Kept [.regs] s (State.mirror s x1) := by
  unfold State.mirror; repeat' first
      | intro _ | with_reducible assumption | with_reducible exact Kept.refl | with_reducible apply Kept.step State.setF_kept
      | with_reducible apply State.each_kept | (show _ = _; rfl)

theorem State.lanesChange_kept {L : List Part} {s t : State} {x1 x2 x3} (g : ∀ v, Kept L s v → Kept L s (x2 v)) (hs :
    subParts [.regs, .ctr, .host, .cores, .lanes, .ports, .fabric, .cal, .line] L = true) (h : Kept L s t) :
    Kept L s (State.lanesChange t x1 x2 x3) := by
  unfold State.lanesChange; repeat' first
      | intro _ | (extract_lets +onlyGivenNames v; apply Kept.gen (v := v); subst v; rotate_left; clear_value v; intro h; rotate_right)
      | with_reducible assumption | with_reducible apply Kept.step State.clearLane_kept | with_reducible apply Kept.step State.goLink_kept
      | with_reducible apply Kept.step State.showComp_kept | with_reducible apply Kept.step State.linkRestart_kept
      | with_reducible apply State.each_kept | with_reducible apply Kept.step State.showCfgErr_kept
      | with_reducible apply Kept.step State.linkStart_kept | with_reducible apply Kept.step State.mirror_kept
      | exact subParts.trans (by decide) hs | with_reducible apply g

theorem State.grpWrite_kept {s : State} {x1 x2} :
    Kept [.regs, .ctr, .host, .cores, .lanes, .ports, .fabric, .cal, .line] s (State.grpWrite s x1 x2) := by
  unfold State.grpWrite; repeat' first
      | intro _ | with_reducible assumption | with_reducible exact Kept.refl | with_reducible apply Kept.step State.setReg_kept
      | with_reducible apply State.lanesChange_kept | (show _ = _; rfl)

theorem State.nestErr_kept {s : State} {x1} : Kept [.regs] s (State.nestErr s x1) := by
  unfold State.nestErr; repeat' first | with_reducible exact Kept.refl | with_reducible apply Kept.step State.setF_kept | (show _ = _; rfl)

theorem State.laneCfgSet_kept {s : State} {x1 x2} :
    Kept [.regs, .ctr, .host, .cores, .lanes, .ports, .fabric, .cal, .line] s (State.laneCfgSet s x1 x2) := by
  unfold State.laneCfgSet; repeat' first
      | intro _ | (extract_lets +onlyGivenNames v; apply Kept.gen (v := v); subst v; rotate_left; clear_value v; intro h; rotate_right)
      | (extract_lets +onlyGivenNames v; clear_value v) | with_reducible assumption | with_reducible exact Kept.refl
      | with_reducible apply Kept.step State.setReg_kept | with_reducible apply State.lanesChange_kept
      | with_reducible apply Kept.step State.linkFresh_kept | (show _ = _; rfl) | split

theorem State.laneWrite_kept {s : State} {x1 x2 x3} :
    Kept [.regs, .ctr, .host, .cores, .lanes, .ports, .fabric, .cal, .line] s (State.laneWrite s x1 x2 x3) := by
  unfold State.laneWrite; repeat' first
      | (extract_lets +onlyGivenNames v; apply Kept.gen (v := v); subst v; rotate_left; clear_value v; intro h; rotate_right)
      | (extract_lets +onlyGivenNames v; clear_value v) | with_reducible assumption | with_reducible exact Kept.refl
      | with_reducible apply Kept.step State.setReg_kept | with_reducible apply Kept.step State.showDeep_kept
      | with_reducible apply State.headroomCheck_kept | with_reducible apply Kept.step State.showCfgErr_kept
      | with_reducible apply Kept.step State.linkFresh_kept | with_reducible apply Kept.step State.nestErr_kept
      | with_reducible apply Kept.step State.laneCfgSet_kept | (show _ = _; rfl) | split

theorem State.loopWrite_kept {s : State} {x1 x2} :
    Kept [.regs, .ctr, .host, .cores, .lanes, .ports, .fabric, .cal, .line] s (State.loopWrite s x1 x2) := by
  unfold State.loopWrite; repeat' first
      | (extract_lets +onlyGivenNames v; apply Kept.gen (v := v); subst v; rotate_left; clear_value v; intro h; rotate_right)
      | with_reducible assumption | with_reducible exact Kept.refl | with_reducible apply Kept.ite
      | with_reducible apply Kept.step State.setReg_kept | with_reducible apply Kept.step State.goLink_kept
      | with_reducible apply Kept.step State.modLane_kept | with_reducible apply Kept.step State.linkFresh_kept | (show _ = _; rfl) | split

theorem State.eyeOff_kept {s : State} {x1} : Kept [.cal] s (State.eyeOff s x1) := by
  unfold State.eyeOff; repeat' first | with_reducible exact Kept.refl | with_reducible apply Kept.step State.modCal_kept | (show _ = _; rfl)

theorem State.checkPattern_kept {s : State} {x1 x2} : Kept [.regs, .lanes] s (State.checkPattern s x1 x2) := by
  unfold State.checkPattern; repeat' first
      | with_reducible exact Kept.refl | with_reducible apply Kept.step State.bump_kept | with_reducible apply Kept.step State.modLane_kept
      | (show _ = _; rfl) | split

theorem State.patterns_kept {s : State} {x1 x2} : Kept [.regs, .lanes, .line] s (State.patterns s x1 x2) := by
  unfold State.patterns; repeat' first
      | (extract_lets +onlyGivenNames v; apply Kept.gen (v := v); subst v; rotate_left; clear_value v; intro h; rotate_right)
      | with_reducible assumption | with_reducible exact Kept.refl | with_reducible apply Kept.ite
      | with_reducible apply Kept.step State.modLane_kept | with_reducible apply Kept.step State.out_kept
      | with_reducible apply Kept.step State.checkPattern_kept | (show _ = _; rfl)

theorem State.lineErrs_kept {s : State} {x1 x2} : Kept [.regs, .lanes, .line] s (State.lineErrs s x1 x2) := by
  unfold State.lineErrs; repeat' first
      | intro _ | (extract_lets +onlyGivenNames v; apply Kept.gen (v := v); subst v; rotate_left; clear_value v; intro h; rotate_right)
      | with_reducible assumption | with_reducible exact Kept.refl | with_reducible apply Kept.step State.bump_kept
      | with_reducible apply State.each_kept | with_reducible apply Kept.step State.patterns_kept | with_reducible apply State.when_kept
      | (show _ = _; rfl)

theorem State.ucodeBegin_kept {s : State} {x1} :
    Kept [.regs, .ctr, .host, .cores, .lanes, .ports, .fabric, .cal, .line] s (State.ucodeBegin s x1) := by
  unfold State.ucodeBegin; repeat' first
      | intro _ | with_reducible assumption | with_reducible exact Kept.refl | with_reducible apply Kept.step State.goLink_kept
      | with_reducible apply State.each_kept | (show _ = _; rfl)

theorem State.showBackoff_kept {s : State} : Kept [.regs] s (State.showBackoff s) := by
  unfold State.showBackoff; repeat' first
      | intro _ | with_reducible assumption | with_reducible exact Kept.refl | with_reducible apply Kept.step State.setF_kept
      | with_reducible apply State.each_kept | (show _ = _; rfl) | split

theorem State.freeze_kept {s : State} {x1 x2 x3} : Kept [.lanes] s (State.freeze s x1 x2 x3) := by
  unfold State.freeze; repeat' first
      | intro _ | with_reducible assumption | with_reducible exact Kept.refl | with_reducible apply Kept.step State.modLane_kept
      | with_reducible apply State.each_kept | (show _ = _; rfl)

theorem State.quarRelease_kept {s : State} {x1 x2} :
    Kept [.regs, .ctr, .host, .cores, .lanes, .ports, .fabric, .cal, .line] s (State.quarRelease s x1 x2) := by
  unfold State.quarRelease; repeat' first
      | intro _ | (extract_lets +onlyGivenNames v; apply Kept.gen (v := v); subst v; rotate_left; clear_value v; intro h; rotate_right)
      | with_reducible assumption | with_reducible exact Kept.refl | with_reducible apply Kept.step State.freeze_kept
      | with_reducible apply Kept.step State.clearLane_kept | with_reducible apply Kept.step State.goLink_kept
      | with_reducible apply State.lanesChange_kept | with_reducible apply Kept.step State.setF_kept
      | with_reducible apply Kept.step State.modLane_kept | with_reducible apply State.each_kept
      | with_reducible apply Kept.step State.showCfgErr_kept | with_reducible apply Kept.step State.linkFresh_kept
      | with_reducible apply State.when_kept | with_reducible apply Kept.step State.linkStart_kept | (show _ = _; rfl)

theorem State.countLanes_kept {s : State} {x1 x2} : Kept [.regs] s (State.countLanes s x1 x2) := by
  unfold State.countLanes; repeat' first
      | intro _ | with_reducible assumption | with_reducible exact Kept.refl | with_reducible apply Kept.step State.bump_kept
      | with_reducible apply State.each_kept | (show _ = _; rfl)

theorem State.loseLock_kept {s : State} {x1 x2 x3} :
    Kept [.regs, .ctr, .host, .cores, .lanes, .ports, .fabric, .cal, .line] s (State.loseLock s x1 x2 x3) := by
  unfold State.loseLock; repeat' first
      | (extract_lets +onlyGivenNames v; apply Kept.gen (v := v); subst v; rotate_left; clear_value v; intro h; rotate_right)
      | with_reducible assumption | with_reducible exact Kept.refl | with_reducible apply Kept.ite
      | with_reducible apply Kept.step State.goLink_kept | with_reducible apply Kept.step State.setF_kept
      | with_reducible apply Kept.step State.countLanes_kept | with_reducible apply Kept.step State.modLane_kept | (show _ = _; rfl)

theorem State.setFom_kept {s : State} {x1 x2} : Kept [.regs, .lanes] s (State.setFom s x1 x2) := by
  unfold State.setFom; repeat' first
      | (extract_lets +onlyGivenNames v; apply Kept.gen (v := v); subst v; rotate_left; clear_value v; intro h; rotate_right)
      | with_reducible assumption | with_reducible exact Kept.refl | with_reducible apply Kept.step State.setF_kept
      | with_reducible apply Kept.step State.modLane_kept | (show _ = _; rfl) | split

theorem State.klEngine_kept {s : State} {x1 x2 x3 x4} : Kept [.servo] s (State.klEngine s x1 x2 x3 x4) := by
  unfold State.klEngine; repeat' first
      | (extract_lets +onlyGivenNames v; apply Kept.gen (v := v); subst v; rotate_left; clear_value v; intro h; rotate_right)
      | with_reducible assumption | with_reducible exact Kept.refl | with_reducible apply Kept.step State.klWord_kept
      | with_reducible apply State.when_kept | with_reducible apply Kept.step State.klStart_kept | (show _ = _; rfl) | split

theorem State.klMark_kept {s : State} {x1 x2 x3} :
    Kept [.regs, .ctr, .host, .cores, .lanes, .ports, .fabric, .servo, .cal, .line] s (State.klMark s x1 x2 x3) := by
  unfold State.klMark; repeat' first
      | (extract_lets +onlyGivenNames v; apply Kept.gen (v := v); subst v; rotate_left; clear_value v; intro h; rotate_right)
      | with_reducible assumption | with_reducible exact Kept.refl | with_reducible apply Kept.ite
      | with_reducible apply Kept.step State.bump_kept | with_reducible apply Kept.step State.setF_kept
      | with_reducible apply Kept.step State.modLane_kept | with_reducible apply Kept.step State.klEngine_kept
      | with_reducible apply Kept.step State.countStamp_kept | with_reducible apply State.when_kept
      | with_reducible apply Kept.step State.loseLock_kept | (show _ = _; rfl)

theorem State.lanesBoot_kept {s : State} : Kept [.regs, .ctr, .host, .cores, .lanes, .ports, .fabric, .cal, .line] s (State.lanesBoot s) := by
  unfold State.lanesBoot; repeat' first
      | intro _ | (extract_lets +onlyGivenNames v; apply Kept.gen (v := v); subst v; rotate_left; clear_value v; intro h; rotate_right)
      | with_reducible assumption | with_reducible exact Kept.refl | with_reducible apply Kept.step State.showComp_kept
      | with_reducible apply State.each_kept | with_reducible apply Kept.step State.showCfgErr_kept
      | with_reducible apply Kept.step State.linkStart_kept | (show _ = _; rfl)

theorem State.failAttempt_kept {s : State} {x1 x2 x3} :
    Kept [.regs, .ctr, .host, .cores, .lanes, .ports, .fabric, .cal, .line] s (State.failAttempt s x1 x2 x3) := by
  unfold State.failAttempt; repeat' first
      | with_reducible exact Kept.refl | with_reducible apply Kept.step State.goLink_kept | (show _ = _; rfl) | split

theorem State.klPayload_kept {s : State} {x1 x2} : Kept [.regs, .ctr, .lanes] s (State.klPayload s x1 x2) := by
  unfold State.klPayload; repeat' first
      | (extract_lets +onlyGivenNames v; apply Kept.gen (v := v); subst v; rotate_left; clear_value v; intro h; rotate_right)
      | (extract_lets +onlyGivenNames v; clear_value v) | with_reducible assumption | with_reducible exact Kept.refl
      | with_reducible apply Kept.step State.bump_kept | with_reducible apply Kept.step State.modLane_kept
      | with_reducible apply Kept.step State.countPort_kept | with_reducible apply State.when_kept | (show _ = _; rfl) | split

theorem execAdaptBurst_next {s : State} {x0 x1} : ∃ t, execAdaptBurst x0 x1 s = .next t ∧ Kept [.regs, .host, .cores, .lanes, .cal] s t := by
  refine ⟨_, rfl, ?_⟩; repeat' first
      | (extract_lets +onlyGivenNames v; apply Kept.gen (v := v); subst v; rotate_left; clear_value v; intro h; rotate_right)
      | with_reducible assumption | with_reducible exact Kept.refl | with_reducible apply Kept.step State.modLane_kept
      | with_reducible apply Kept.step State.pathDrop_kept | with_reducible apply Kept.step State.raise_kept
      | with_reducible apply Kept.step State.setFom_kept | with_reducible apply Kept.step State.modCal_kept | (show _ = _; rfl) | split

theorem execLanePower_next {s : State} {x0} :
    ∃ t, execLanePower x0 s = .next t ∧ Kept [.regs, .ctr, .host, .cores, .lanes, .ports, .fabric, .cal, .line] s t := by
  refine ⟨_, rfl, ?_⟩; repeat' first
      | intro _ | with_reducible assumption | with_reducible exact Kept.refl | with_reducible apply Kept.ite
      | with_reducible apply Kept.step State.goLink_kept | with_reducible apply State.start_kept
      | with_reducible apply Kept.step State.complete_kept | with_reducible apply Kept.step State.modLane_kept | (show _ = _; rfl)

theorem execSignalDetect_next {s : State} {x0} :
    ∃ t, execSignalDetect x0 s = .next t ∧ Kept [.regs, .ctr, .host, .cores, .lanes, .ports, .fabric, .cal, .line] s t := by
  refine ⟨_, rfl, ?_⟩; repeat' first
      | intro _ | (extract_lets +onlyGivenNames v; apply Kept.gen (v := v); subst v; rotate_left; clear_value v; intro h; rotate_right)
      | with_reducible assumption | with_reducible exact Kept.refl | with_reducible apply Kept.step State.bump_kept
      | with_reducible apply Kept.step State.goLink_kept | with_reducible apply Kept.step State.setF_kept
      | with_reducible apply Kept.step State.countLanes_kept | with_reducible apply Kept.step State.modLane_kept
      | with_reducible apply State.each_kept | (show _ = _; rfl) | split

theorem execLaneEyeScan_next {s : State} {x0} : ∃ t, execLaneEyeScan x0 s = .next t ∧ Kept [.regs, .host, .cores, .cal] s t := by
  refine ⟨_, rfl, ?_⟩; repeat' first
      | intro _ | with_reducible assumption | with_reducible exact Kept.refl | with_reducible apply Kept.ite
      | with_reducible apply State.start_kept | with_reducible apply Kept.step State.complete_kept
      | with_reducible apply Kept.step State.pathDrop_kept | with_reducible apply State.startLong_kept
      | with_reducible apply Kept.step State.modCal_kept | (show _ = _; rfl)

theorem execLaneQuarantine_next {s : State} {x0} :
    ∃ t, execLaneQuarantine x0 s = .next t ∧ Kept [.regs, .ctr, .host, .cores, .lanes, .ports, .fabric, .cal, .line] s t := by
  refine ⟨_, rfl, ?_⟩; repeat' first
      | intro _ | (extract_lets +onlyGivenNames v; apply Kept.gen (v := v); subst v; rotate_left; clear_value v; intro h; rotate_right)
      | (extract_lets +onlyGivenNames v; clear_value v) | with_reducible assumption | with_reducible exact Kept.refl
      | with_reducible apply Kept.step State.freeze_kept | with_reducible apply Kept.step State.goLink_kept
      | with_reducible apply State.start_kept | with_reducible apply Kept.step State.setF_kept
      | with_reducible apply Kept.step State.complete_kept | with_reducible apply Kept.step State.modLane_kept
      | with_reducible apply Kept.step State.quarRelease_kept | (show _ = _; rfl) | split

theorem execLockLost_next {s : State} {x0 x1} :
    ∃ t, execLockLost x0 x1 s = .next t ∧ Kept [.regs, .ctr, .host, .cores, .lanes, .ports, .fabric, .cal, .line] s t := by
  refine ⟨_, rfl, ?_⟩; repeat' first
      | with_reducible exact Kept.refl | with_reducible apply Kept.step State.loseLock_kept | (show _ = _; rfl) | split

theorem execAnDone_next {s : State} {x0} :
    ∃ t, execAnDone x0 s = .next t ∧ Kept [.regs, .ctr, .host, .cores, .lanes, .ports, .fabric, .cal, .line] s t := by
  refine ⟨_, rfl, ?_⟩; repeat' first | with_reducible exact Kept.refl | with_reducible apply Kept.step State.goLink_kept | (show _ = _; rfl) | split

theorem execBackoffDone_next {s : State} {x0} :
    ∃ t, execBackoffDone x0 s = .next t ∧ Kept [.regs, .ctr, .host, .cores, .lanes, .ports, .fabric, .cal, .line] s t := by
  refine ⟨_, rfl, ?_⟩; repeat' first | with_reducible exact Kept.refl | with_reducible apply Kept.step State.goLink_kept | (show _ = _; rfl) | split

theorem execUcodeLoadDone_next {s : State} {x0 x1} :
    ∃ t, execUcodeLoadDone x0 x1 s = .next t ∧ Kept [.regs, .ctr, .host, .cores, .lanes, .ports, .fabric, .cal, .sec, .line] s t := by
  refine ⟨_, rfl, ?_⟩; repeat' first
      | intro _ | (extract_lets +onlyGivenNames v; apply Kept.gen (v := v); subst v; rotate_left; clear_value v; intro h; rotate_right)
      | (extract_lets +onlyGivenNames v; have q : SecSt := v; clear q; subst v) | with_reducible assumption | with_reducible exact Kept.refl
      | with_reducible apply Kept.step State.setReg_kept | with_reducible apply Kept.step State.ucodeBegin_kept
      | with_reducible apply Kept.step State.setF_kept | with_reducible apply Kept.step State.modLane_kept
      | with_reducible apply State.each_kept | with_reducible apply Kept.step State.raise_kept | with_reducible apply State.when_kept
      | with_reducible apply Kept.step State.modLong_kept | with_reducible apply Kept.step State.endLong_kept | (show _ = _; rfl) | split
      | with_reducible apply Kept.put_sec

theorem execSignalLoss_next {s : State} {x0 x1} :
    ∃ t, execSignalLoss x0 x1 s = .next t ∧ Kept [.regs, .ctr, .host, .cores, .lanes, .ports, .fabric, .cal, .line] s t := by
  refine ⟨_, rfl, ?_⟩; repeat' first
      | intro _ | (extract_lets +onlyGivenNames v; apply Kept.gen (v := v); subst v; rotate_left; clear_value v; intro h; rotate_right)
      | with_reducible assumption | with_reducible exact Kept.refl | with_reducible apply Kept.ite
      | with_reducible apply Kept.step State.setF_kept | with_reducible apply Kept.step State.countLanes_kept
      | with_reducible apply Kept.step State.failAttempt_kept | with_reducible apply Kept.step State.modLane_kept
      | with_reducible apply State.each_kept | with_reducible apply Kept.step State.loseLock_kept | (show _ = _; rfl)

theorem execL2ExitDone_next {s : State} {x0} :
    ∃ t, execL2ExitDone x0 s = .next t ∧ Kept [.regs, .ctr, .host, .cores, .lanes, .ports, .fabric, .cal, .line] s t := by
  refine ⟨_, rfl, ?_⟩; repeat' first | with_reducible exact Kept.refl | with_reducible apply Kept.step State.goLink_kept | (show _ = _; rfl) | split

theorem execLaneRetrain_next {s : State} {x0} :
    ∃ t, execLaneRetrain x0 s = .next t ∧ Kept [.regs, .ctr, .host, .cores, .lanes, .ports, .fabric, .cal, .line] s t := by
  refine ⟨_, rfl, ?_⟩; repeat' first
      | intro _ | with_reducible assumption | with_reducible exact Kept.refl | with_reducible apply Kept.ite
      | with_reducible apply State.start_kept | with_reducible apply Kept.step State.linkRestart_kept
      | with_reducible apply Kept.step State.complete_kept | (show _ = _; rfl)

theorem execL1ExitDone_next {s : State} {x0} :
    ∃ t, execL1ExitDone x0 s = .next t ∧ Kept [.regs, .ctr, .host, .cores, .lanes, .ports, .fabric, .cal, .line] s t := by
  refine ⟨_, rfl, ?_⟩; repeat' first | with_reducible exact Kept.refl | with_reducible apply Kept.step State.goLink_kept | (show _ = _; rfl) | split

theorem execAlignDone_next {s : State} {x0} :
    ∃ t, execAlignDone x0 s = .next t ∧ Kept [.regs, .ctr, .host, .cores, .lanes, .ports, .fabric, .cal, .line] s t := by
  refine ⟨_, rfl, ?_⟩; repeat' first
      | intro _ | (extract_lets +onlyGivenNames v; apply Kept.gen (v := v); subst v; rotate_left; clear_value v; intro h; rotate_right)
      | with_reducible assumption | with_reducible exact Kept.refl | with_reducible apply Kept.step State.goLink_kept
      | with_reducible apply State.each_kept | with_reducible apply Kept.step State.calTrained_kept | (show _ = _; rfl) | split

theorem execLoopSet_next {s : State} {x0 x1 x2} :
    ∃ t, execLoopSet x0 x1 x2 s = .next t ∧ Kept [.regs, .ctr, .host, .cores, .lanes, .ports, .fabric, .cal, .line] s t := by
  refine ⟨_, rfl, ?_⟩; repeat' first
      | with_reducible exact Kept.refl | with_reducible apply Kept.step State.loopWrite_kept | (show _ = _; rfl) | split

theorem execRelockTryEnd_next {s : State} {x0 x1 x2} :
    ∃ t, execRelockTryEnd x0 x1 x2 s = .next t ∧ Kept [.regs, .ctr, .host, .cores, .lanes, .ports, .fabric, .cal, .line] s t := by
  refine ⟨_, rfl, ?_⟩; repeat' first
      | intro _ | with_reducible assumption | with_reducible exact Kept.refl | with_reducible apply Kept.step State.goLink_kept
      | with_reducible apply Kept.step State.setF_kept | with_reducible apply Kept.step State.countLanes_kept
      | with_reducible apply Kept.step State.modLane_kept | with_reducible apply State.each_kept | (show _ = _; rfl) | split

theorem execLaneUcodeLoad_next {s : State} {x0} :
    ∃ t, execLaneUcodeLoad x0 s = .next t ∧ Kept [.regs, .ctr, .host, .cores, .lanes, .ports, .fabric, .cal, .line] s t := by
  refine ⟨_, rfl, ?_⟩; repeat' first
      | intro _ | with_reducible assumption | with_reducible exact Kept.refl | with_reducible apply Kept.step State.ucodeBegin_kept
      | with_reducible apply State.start_kept | with_reducible apply Kept.step State.complete_kept | with_reducible apply State.startLong_kept
      | (show _ = _; rfl) | split

theorem execAttemptTimeout_next {s : State} {x0} :
    ∃ t, execAttemptTimeout x0 s = .next t ∧ Kept [.regs, .ctr, .host, .cores, .lanes, .ports, .fabric, .cal, .line] s t := by
  refine ⟨_, rfl, ?_⟩; repeat' first
      | with_reducible exact Kept.refl | with_reducible apply Kept.step State.failAttempt_kept | (show _ = _; rfl) | split

theorem execLaneGrpWrite_next {s : State} {x0 x1 x2} :
    ∃ t, execLaneGrpWrite x0 x1 x2 s = .next t ∧ Kept [.regs, .ctr, .host, .cores, .lanes, .ports, .fabric, .cal, .line] s t := by
  refine ⟨_, rfl, ?_⟩; repeat' first
      | with_reducible exact Kept.refl | with_reducible apply Kept.step State.grpWrite_kept | (show _ = _; rfl) | split

theorem execTrainDone_next {s : State} {x0 x1 x2} :
    ∃ t, execTrainDone x0 x1 x2 s = .next t ∧ Kept [.regs, .ctr, .host, .cores, .lanes, .ports, .fabric, .cal, .line] s t := by
  refine ⟨_, rfl, ?_⟩; repeat' first
      | intro _ | (extract_lets +onlyGivenNames v; apply Kept.gen (v := v); subst v; rotate_left; clear_value v; intro h; rotate_right)
      | with_reducible assumption | with_reducible exact Kept.refl | with_reducible apply Kept.ite
      | with_reducible apply Kept.step State.goLink_kept | with_reducible apply Kept.step State.failAttempt_kept
      | with_reducible apply Kept.step State.modLane_kept | with_reducible apply State.each_kept
      | with_reducible apply Kept.step State.setFom_kept | (show _ = _; rfl)

theorem execKlMarkerRx_next {s : State} {x0 x1 x2} :
    ∃ t, execKlMarkerRx x0 x1 x2 s = .next t ∧ Kept [.regs, .ctr, .host, .cores, .lanes, .ports, .fabric, .servo, .cal, .line] s t := by
  refine ⟨_, rfl, ?_⟩; repeat' first
      | (extract_lets +onlyGivenNames v; apply Kept.gen (v := v); subst v; rotate_left; clear_value v; intro h; rotate_right)
      | with_reducible assumption | with_reducible exact Kept.refl | with_reducible apply Kept.step State.bump_kept
      | with_reducible apply Kept.step State.modLane_kept | with_reducible apply Kept.step State.lineErrs_kept
      | with_reducible apply Kept.step State.out_kept | with_reducible apply Kept.step State.klMark_kept
      | with_reducible apply Kept.step State.klPayload_kept | with_reducible apply State.when_kept | (show _ = _; rfl) | split

theorem execKlMarkerTx_next {s : State} {x0 x1} :
    ∃ t, execKlMarkerTx x0 x1 s = .next t ∧ Kept [.regs, .ctr, .host, .cores, .lanes, .ports, .fabric, .cal, .line] s t := by
  refine ⟨_, rfl, ?_⟩; repeat' first
      | (extract_lets +onlyGivenNames v; apply Kept.gen (v := v); subst v; rotate_left; clear_value v; intro h; rotate_right)
      | with_reducible assumption | with_reducible exact Kept.refl | with_reducible apply Kept.ite
      | with_reducible apply Kept.step State.goLink_kept | with_reducible apply Kept.step State.modLane_kept
      | with_reducible apply Kept.step State.out_kept | with_reducible apply Kept.step State.countStamp_kept
      | with_reducible apply State.when_kept | (show _ = _; rfl)

theorem execLaneCfgWrite_next {s : State} {x0 x1 x2 x3} :
    ∃ t, execLaneCfgWrite x0 x1 x2 x3 s = .next t ∧ Kept [.regs, .ctr, .host, .cores, .lanes, .ports, .fabric, .cal, .line] s t := by
  refine ⟨_, rfl, ?_⟩; repeat' first
      | with_reducible exact Kept.refl | with_reducible apply Kept.step State.laneWrite_kept | (show _ = _; rfl) | split

end Sys2Proof.Machine
end

