-- ==== Sys2Proof/Laws/FramePortRows.lean ====
section
/-!
SUPPORT. Sys2Proof/Laws/FramePortRows.lean: what each operation of Machine/PortRows.lean may change, and that it keeps the canonical forms.
-/
namespace Sys2Proof.Machine
open Sys2Proof

theorem State.flushPaused_kept {s : State} {x1} : Kept [.ctr, .ports] s (State.flushPaused s x1) := by
  unfold State.flushPaused; repeat' first
      | with_reducible exact Kept.refl | with_reducible apply Kept.step State.countPort_kept | with_reducible apply Kept.step State.modMac_kept
      | (show _ = _; rfl) | split

theorem State.snapBoundary_kept {s : State} : Kept [.regs, .ctr, .host, .cores, .ports] s (State.snapBoundary s) := by
  unfold State.snapBoundary; repeat' first
      | intro _ | (extract_lets +onlyGivenNames v; apply Kept.gen (v := v); subst v; rotate_left; clear_value v; intro h; rotate_right)
      | with_reducible assumption | with_reducible exact Kept.refl | with_reducible apply Kept.step State.modParked_kept
      | with_reducible apply Kept.step State.late_kept | with_reducible apply State.each_kept
      | with_reducible apply Kept.step State.finish_kept | with_reducible apply Kept.step State.flushPaused_kept | (show _ = _; rfl) | split
      | with_reducible apply Kept.put_ctrPorts

theorem State.modSlotIo_kept {s : State} {x1 x2} : Kept [.ports] s (State.modSlotIo s x1 x2) := by
  unfold State.modSlotIo; repeat' first | with_reducible exact Kept.refl | (show _ = _; rfl) | with_reducible apply Kept.put_ports

theorem State.modBus_kept {s : State} {x1 x2} : Kept [.ports] s (State.modBus s x1 x2) := by
  unfold State.modBus; repeat' first | with_reducible exact Kept.refl | (show _ = _; rfl) | with_reducible apply Kept.put_ports

theorem State.busStart_kept {s : State} {x1} : Kept [.ports] s (State.busStart s x1) := by
  unfold State.busStart; repeat' first
      | with_reducible exact Kept.refl | with_reducible apply Kept.step State.modSlotIo_kept | with_reducible apply Kept.step State.modBus_kept
      | (show _ = _; rfl) | split

theorem State.modAccess_kept {s : State} {x1 x2 x3} : Kept [.regs, .host, .cores, .ports] s (State.modAccess s x1 x2 x3) := by
  unfold State.modAccess; repeat' first
      | with_reducible exact Kept.refl | with_reducible apply Kept.ite | with_reducible apply Kept.step State.parkId_kept
      | with_reducible apply Kept.step State.complete_kept | with_reducible apply Kept.step State.busStart_kept
      | with_reducible apply Kept.step State.modBus_kept | (show _ = _; rfl)

theorem State.pauseIn_kept {s : State} {x1 x2} : Kept [.regs, .ctr, .ports] s (State.pauseIn s x1 x2) := by
  unfold State.pauseIn; repeat' first
      | intro _ | (extract_lets +onlyGivenNames v; apply Kept.gen (v := v); subst v; rotate_left; clear_value v; intro h; rotate_right)
      | with_reducible assumption | with_reducible exact Kept.refl | with_reducible apply Kept.step State.showPause_kept
      | with_reducible apply Kept.step State.rxPause_kept | with_reducible apply Kept.step State.countPort_kept
      | with_reducible apply State.each_kept | with_reducible apply State.when_kept | (show _ = _; rfl) | split

theorem State.countGood_kept {s : State} {x1 x2 x3} : Kept [.ctr] s (State.countGood s x1 x2 x3) := by
  unfold State.countGood; repeat' first | with_reducible exact Kept.refl | with_reducible apply Kept.step State.countPort_kept | (show _ = _; rfl)

theorem State.scanSlot_kept {s : State} {x1 x2} : Kept [.regs, .host, .cores, .ports] s (State.scanSlot s x1 x2) := by
  unfold State.scanSlot; repeat' first
      | (extract_lets +onlyGivenNames v; apply Kept.gen (v := v); subst v; rotate_left; clear_value v; intro h; rotate_right)
      | with_reducible assumption | with_reducible exact Kept.refl | with_reducible apply Kept.ite
      | with_reducible apply Kept.step State.modSlotIo_kept | with_reducible apply Kept.step State.setF_kept
      | with_reducible apply Kept.step State.raise_kept | with_reducible apply State.when_kept | (show _ = _; rfl)

theorem State.unselect_kept {s : State} {x1} : Kept [.ports] s (State.unselect s x1) := by
  unfold State.unselect; repeat' first | with_reducible exact Kept.refl | with_reducible apply Kept.step State.modSlotIo_kept | (show _ = _; rfl)

theorem execModRead_next {s : State} {x0} : ∃ t, execModRead x0 s = .next t ∧ Kept [.regs, .host, .cores, .ports] s t := by
  refine ⟨_, rfl, ?_⟩; repeat' first
      | intro _ | with_reducible assumption | with_reducible exact Kept.refl | with_reducible apply State.start_kept
      | with_reducible apply Kept.step State.modAccess_kept | (show _ = _; rfl)

theorem execPauseExpire_next {s : State} {x0 x1} : ∃ t, execPauseExpire x0 x1 s = .next t ∧ Kept [.regs, .ctr, .ports] s t := by
  refine ⟨_, rfl, ?_⟩; repeat' first
      | with_reducible exact Kept.refl | with_reducible apply Kept.step State.showPause_kept
      | with_reducible apply Kept.step State.endPause_kept | (show _ = _; rfl) | split

theorem execModSideband_next {s : State} {x0} : ∃ t, execModSideband x0 s = .next t ∧ Kept [.regs, .host, .cores] s t := by
  refine ⟨_, rfl, ?_⟩; repeat' first
      | intro _ | (extract_lets +onlyGivenNames v; apply Kept.gen (v := v); subst v; rotate_left; clear_value v; intro h; rotate_right)
      | with_reducible assumption | with_reducible exact Kept.refl | with_reducible apply State.start_kept
      | with_reducible apply Kept.step State.setF_kept | with_reducible apply Kept.step State.complete_kept | (show _ = _; rfl)

theorem execPauseStorm_next {s : State} {x0 x1} : ∃ t, execPauseStorm x0 x1 s = .next t ∧ Kept [.regs, .ctr, .host, .cores, .ports] s t := by
  refine ⟨_, rfl, ?_⟩; repeat' first
      | (extract_lets +onlyGivenNames v; apply Kept.gen (v := v); subst v; rotate_left; clear_value v; intro h; rotate_right)
      | with_reducible assumption | with_reducible exact Kept.refl | with_reducible apply Kept.ite
      | with_reducible apply Kept.step State.showPause_kept | with_reducible apply Kept.step State.setF_kept
      | with_reducible apply Kept.step State.countPort_kept | with_reducible apply Kept.step State.raise_kept
      | with_reducible apply Kept.step State.modMac_kept | (show _ = _; rfl)

theorem execStatsSnapshot_next {s : State} {x0} : ∃ t, execStatsSnapshot x0 s = .next t ∧ Kept [.regs, .host, .cores, .ports] s t := by
  refine ⟨_, rfl, ?_⟩; repeat' first
      | intro _ | with_reducible assumption | with_reducible exact Kept.refl | with_reducible apply Kept.step State.parkId_kept
      | with_reducible apply State.start_kept | with_reducible apply Kept.step State.complete_kept | (show _ = _; rfl)
      | (with_reducible apply Kept.fst (by assumption)) | split | with_reducible apply Kept.put_ports

theorem execI2cRetry_next {s : State} {x0} : ∃ t, execI2cRetry x0 s = .next t ∧ Kept [.ports] s t := by
  refine ⟨_, rfl, ?_⟩; repeat' first
      | with_reducible exact Kept.refl | with_reducible apply Kept.step State.busStart_kept | with_reducible apply Kept.step State.modBus_kept
      | (show _ = _; rfl) | split

theorem execSaCommit_next {s : State} {x0 x1 x2} : ∃ t, execSaCommit x0 x1 x2 s = .next t ∧ Kept [.regs, .ports] s t := by
  refine ⟨_, rfl, ?_⟩; repeat' first
      | with_reducible exact Kept.refl | with_reducible apply Kept.step State.saWrite_kept | (show _ = _; rfl) | split

theorem execModPresent_next {s : State} {x0 x1} : ∃ t, execModPresent x0 x1 s = .next t ∧ Kept [.regs, .host, .cores, .ports] s t := by
  refine ⟨_, rfl, ?_⟩; repeat' first
      | (extract_lets +onlyGivenNames v; apply Kept.gen (v := v); subst v; rotate_left; clear_value v; intro h; rotate_right)
      | with_reducible assumption | with_reducible exact Kept.refl | with_reducible apply Kept.step State.setF_kept
      | with_reducible apply Kept.step State.raise_kept | with_reducible apply Kept.step State.modBus_kept | (show _ = _; rfl) | split

theorem execPauseStormEnd_next {s : State} {x0 x1} : ∃ t, execPauseStormEnd x0 x1 s = .next t ∧ Kept [.regs, .ports] s t := by
  refine ⟨_, rfl, ?_⟩; repeat' first
      | with_reducible exact Kept.refl | with_reducible apply Kept.step State.endPause_kept | with_reducible apply Kept.step State.modMac_kept
      | (show _ = _; rfl) | split

theorem execXoffRefresh_next {s : State} {x0} : ∃ t, execXoffRefresh x0 s = .next t ∧ Kept [.regs, .ctr, .lanes, .ports, .cal, .line] s t := by
  refine ⟨_, rfl, ?_⟩; repeat' first | with_reducible exact Kept.refl | with_reducible apply Kept.step State.sendPause_kept | (show _ = _; rfl)

theorem execSgpioScan_next {s : State} {x0} : ∃ t, execSgpioScan x0 s = .next t ∧ Kept [.regs, .host, .cores, .ports] s t := by
  refine ⟨_, rfl, ?_⟩; repeat' first
      | intro _ | with_reducible assumption | with_reducible exact Kept.refl | with_reducible apply Kept.step State.scanSlot_kept
      | with_reducible apply State.each_kept | (show _ = _; rfl) | split

theorem execI2cTransferEnd_next {s : State} {x0 x1 x2 x3} :
    ∃ t, execI2cTransferEnd x0 x1 x2 x3 s = .next t ∧ Kept [.regs, .host, .cores, .mem, .ports] s t := by
  refine ⟨_, rfl, ?_⟩; repeat' first
      | (extract_lets +onlyGivenNames v; apply Kept.gen (v := v); subst v; rotate_left; clear_value v; intro h; rotate_right)
      | with_reducible assumption | with_reducible exact Kept.refl | with_reducible apply Kept.step State.modParked_kept
      | with_reducible apply Kept.step State.bufWrite_kept | with_reducible apply Kept.step State.setF_kept
      | with_reducible apply Kept.step State.unselect_kept | with_reducible apply Kept.step State.finish_kept
      | with_reducible apply Kept.step State.busStart_kept | with_reducible apply Kept.step State.modBus_kept
      | with_reducible apply State.when_kept | (show _ = _; rfl) | split

theorem execSnapshotXferDone_next {s : State} : ∃ t, execSnapshotXferDone s = .next t ∧ Kept [.regs, .host, .cores, .mem, .ports] s t := by
  refine ⟨_, rfl, ?_⟩; repeat' first
      | with_reducible exact Kept.refl | with_reducible apply Kept.step State.bufWrite_kept | with_reducible apply Kept.step State.finish_kept
      | (show _ = _; rfl) | split | with_reducible apply Kept.put_ports

theorem execPauseRx_next {s : State} {x0 x1} : ∃ t, execPauseRx x0 x1 s = .next t ∧ Kept [.regs, .ctr, .ports, .cal] s t := by
  refine ⟨_, rfl, ?_⟩; repeat' first
      | with_reducible exact Kept.refl | with_reducible apply Kept.step State.pauseIn_kept
      | with_reducible apply Kept.step State.countStamp_kept | with_reducible apply Kept.step State.countGood_kept | (show _ = _; rfl) | split

theorem execModWrite_next {s : State} {x0} : ∃ t, execModWrite x0 s = .next t ∧ Kept [.regs, .host, .cores, .ports] s t := by
  refine ⟨_, rfl, ?_⟩; repeat' first
      | intro _ | with_reducible assumption | with_reducible exact Kept.refl | with_reducible apply State.start_kept
      | with_reducible apply Kept.step State.modAccess_kept | (show _ = _; rfl)

end Sys2Proof.Machine
end

