-- ==== Sys2Proof/Laws/FrameParserRows.lean ====
section
/-!
SUPPORT. Sys2Proof/Laws/FrameParserRows.lean: what each operation of Machine/ParserRows.lean may change, and that it keeps the canonical forms.
-/
namespace Sys2Proof.Machine
open Sys2Proof

theorem State.showGen_kept {s : State} {x1} : Kept [.regs] s (State.showGen s x1) := by
  unfold State.showGen; repeat' first
      | (extract_lets +onlyGivenNames v; apply Kept.gen (v := v); subst v; rotate_left; clear_value v; intro h; rotate_right)
      | with_reducible assumption | with_reducible exact Kept.refl | with_reducible apply Kept.step State.setReg_kept
      | with_reducible apply Kept.step State.setF_kept | with_reducible apply Kept.step State.showMac_kept | (show _ = _; rfl)

theorem State.setWin_kept {s : State} {x1 x2 x3} : Kept [.regs] s (State.setWin s x1 x2 x3) := by
  unfold State.setWin; repeat' first
      | intro _ | with_reducible assumption | with_reducible exact Kept.refl | with_reducible apply Kept.step State.setReg_kept
      | with_reducible apply State.each_kept | (show _ = _; rfl)

theorem State.winErr_kept {s : State} {x1 x2} : Kept [.regs] s (State.winErr s x1 x2) := by
  unfold State.winErr; repeat' first | with_reducible exact Kept.refl | with_reducible apply Kept.step State.setF_kept | (show _ = _; rfl)

theorem State.winRead_kept {s : State} {x1 x2 x3 x4} : Kept [.regs, .pipes, .freeCtr] s (State.winRead s x1 x2 x3 x4) := by
  unfold State.winRead; repeat' first
      | intro _ | (extract_lets +onlyGivenNames v; clear_value v) | with_reducible assumption | with_reducible exact Kept.refl
      | with_reducible apply Kept.step State.setReg_kept | with_reducible apply Kept.step State.setWin_kept
      | with_reducible apply Kept.step State.fresh_kept | with_reducible apply Kept.step State.modParser_kept
      | with_reducible apply Kept.step State.winErr_kept | with_reducible apply State.each_kept | (show _ = _; rfl) | split

theorem State.winWrite_kept {s : State} {x1 x2 x3} : Kept [.regs, .pipes] s (State.winWrite s x1 x2 x3) := by
  unfold State.winWrite; repeat' first
      | with_reducible exact Kept.refl | with_reducible apply Kept.ite | with_reducible apply Kept.step State.modParser_kept
      | with_reducible apply Kept.step State.winErr_kept | (show _ = _; rfl) | split

theorem State.winRemove_kept {s : State} {x1 x2 x3} : Kept [.regs, .pipes] s (State.winRemove s x1 x2 x3) := by
  unfold State.winRemove; repeat' first
      | with_reducible exact Kept.refl | with_reducible apply Kept.ite | with_reducible apply Kept.step State.modParser_kept
      | with_reducible apply Kept.step State.winErr_kept | (show _ = _; rfl) | split

theorem State.winCtrl_kept {s : State} {x1 x2 x3} : Kept [.regs, .pipes, .freeCtr] s (State.winCtrl s x1 x2 x3) := by
  unfold State.winCtrl; repeat' first
      | (extract_lets +onlyGivenNames v; apply Kept.gen (v := v); subst v; rotate_left; clear_value v; intro h; rotate_right)
      | with_reducible assumption | with_reducible exact Kept.refl | with_reducible apply Kept.step State.winRead_kept
      | with_reducible apply Kept.step State.winWrite_kept | with_reducible apply Kept.step State.putRw_kept
      | with_reducible apply Kept.step State.winRemove_kept | (show _ = _; rfl) | split

theorem State.showFrag_kept {s : State} {x1} : Kept [.regs, .pipes] s (State.showFrag s x1) := by
  unfold State.showFrag; repeat' first
      | (extract_lets +onlyGivenNames v; apply Kept.gen (v := v); subst v; rotate_left; clear_value v; intro h; rotate_right)
      | with_reducible assumption | with_reducible exact Kept.refl | with_reducible apply Kept.ite
      | with_reducible apply Kept.step State.setF_kept | with_reducible apply Kept.step State.modParser_kept | (show _ = _; rfl)

theorem State.commitPipe_kept {s : State} {x1 x2} : Kept [.regs, .ctr, .host, .cores, .pipes] s (State.commitPipe s x1 x2) := by
  unfold State.commitPipe; repeat' first
      | (extract_lets +onlyGivenNames v; apply Kept.gen (v := v); subst v; rotate_left; clear_value v; intro h; rotate_right)
      | with_reducible assumption | with_reducible exact Kept.refl | with_reducible apply Kept.step State.modPipe_kept
      | with_reducible apply Kept.step State.setF_kept | with_reducible apply Kept.step State.countParse_kept
      | with_reducible apply Kept.step State.showGen_kept | with_reducible apply Kept.step State.modParser_kept
      | with_reducible apply Kept.step State.raise_kept | (show _ = _; rfl)

theorem State.commitOver_kept {s : State} {x1 x2} : Kept [.regs, .host, .cores] s (State.commitOver s x1 x2) := by
  unfold State.commitOver; repeat' first
      | intro _ | with_reducible assumption | with_reducible exact Kept.refl | with_reducible apply Kept.step State.setF_kept
      | with_reducible apply State.each_kept | with_reducible apply Kept.step State.finish_kept | (show _ = _; rfl)

theorem State.commitStep_kept {s : State} {x1 x2} : Kept [.regs, .ctr, .host, .cores, .pipes] s (State.commitStep s x1 x2).1 := by
  unfold State.commitStep; repeat' first
      | intro _ | (extract_lets +onlyGivenNames v; apply Kept.gen (v := v); subst v; rotate_left; clear_value v; intro h; rotate_right)
      | (extract_lets +onlyGivenNames v; clear_value v) | with_reducible assumption | with_reducible exact Kept.refl
      | with_reducible apply Kept.step State.modParked_kept | with_reducible apply Kept.step State.countParse_kept
      | with_reducible apply Kept.step State.commitPipe_kept | with_reducible apply Kept.step State.late_kept
      | with_reducible apply State.each_kept | with_reducible apply State.when_kept | with_reducible apply Kept.step State.commitOver_kept
      | (show _ = _; rfl) | split

theorem State.commitBoundary_kept {s : State} {x1} : Kept [.regs, .ctr, .host, .cores, .pipes] s (State.commitBoundary s x1) := by
  unfold State.commitBoundary; repeat' first
      | intro _ | (extract_lets +onlyGivenNames v; apply Kept.gen (v := v); subst v; rotate_left; clear_value v; intro h; rotate_right)
      | (extract_lets +onlyGivenNames v; apply Kept.gen (v := v.1); subst v; rotate_left; clear_value v; intro h; rotate_right)
      | with_reducible assumption | with_reducible exact Kept.refl | with_reducible apply Kept.foldlFst
      | with_reducible apply Kept.step State.commitStep_kept | (show _ = _; rfl) | with_reducible apply Kept.put_pipes

theorem State.discardPipe_kept {s : State} {x1} : Kept [.regs, .pipes] s (State.discardPipe s x1) := by
  unfold State.discardPipe; repeat' first
      | (extract_lets +onlyGivenNames v; apply Kept.gen (v := v); subst v; rotate_left; clear_value v; intro h; rotate_right)
      | with_reducible assumption | with_reducible exact Kept.refl | with_reducible apply Kept.step State.modPipe_kept
      | with_reducible apply Kept.step State.showGen_kept | with_reducible apply Kept.step State.modParser_kept
      | with_reducible apply Kept.step State.showLpm_kept | (show _ = _; rfl)

theorem State.dropShadowed_kept {s : State} {x1} : Kept [.regs, .pipes] s (State.dropShadowed s x1) := by
  unfold State.dropShadowed; repeat' first
      | intro _ | with_reducible assumption | with_reducible exact Kept.refl | with_reducible apply State.each_kept
      | with_reducible apply Kept.step State.macRemove_kept | (show _ = _; rfl)

theorem execWinRead_next {s : State} {x0 x1} : ∃ t, execWinRead x0 x1 s = .next t ∧ Kept [.regs, .pipes, .freeCtr] s t := by
  refine ⟨_, rfl, ?_⟩; repeat' first
      | with_reducible exact Kept.refl | with_reducible apply Kept.step State.winCtrl_kept | (show _ = _; rfl) | split

theorem execGenCommit_next {s : State} {x0} : ∃ t, execGenCommit x0 s = .next t ∧ Kept [.regs, .host, .cores, .pipes] s t := by
  refine ⟨_, rfl, ?_⟩; repeat' first
      | intro _ | (extract_lets +onlyGivenNames v; apply Kept.gen (v := v); subst v; rotate_left; clear_value v; intro h; rotate_right)
      | with_reducible assumption | with_reducible exact Kept.refl | with_reducible apply Kept.step State.parkId_kept
      | with_reducible apply State.start_kept | with_reducible apply Kept.step State.setF_kept
      | with_reducible apply Kept.step State.complete_kept | with_reducible apply State.each_kept | (show _ = _; rfl)
      | (with_reducible apply Kept.fst (by assumption)) | split | with_reducible apply Kept.put_pipes

theorem execFragExpire_next {s : State} {x0 x1} : ∃ t, execFragExpire x0 x1 s = .next t ∧ Kept [.regs, .ctr, .pipes] s t := by
  refine ⟨_, rfl, ?_⟩; repeat' first
      | with_reducible exact Kept.refl | with_reducible apply Kept.step State.showFrag_kept
      | with_reducible apply Kept.step State.countParse_kept | with_reducible apply Kept.step State.modParser_kept | (show _ = _; rfl) | split

theorem execFragFlush_next {s : State} {x0} : ∃ t, execFragFlush x0 s = .next t ∧ Kept [.regs, .host, .cores, .pipes] s t := by
  refine ⟨_, rfl, ?_⟩; repeat' first
      | intro _ | with_reducible assumption | with_reducible exact Kept.refl | with_reducible apply Kept.step State.showFrag_kept
      | with_reducible apply State.start_kept | with_reducible apply Kept.step State.modParser_kept
      | with_reducible apply Kept.step State.complete_kept | with_reducible apply State.each_kept | (show _ = _; rfl)

theorem execWinRemove_next {s : State} {x0 x1} : ∃ t, execWinRemove x0 x1 s = .next t ∧ Kept [.regs, .pipes, .freeCtr] s t := by
  refine ⟨_, rfl, ?_⟩; repeat' first
      | with_reducible exact Kept.refl | with_reducible apply Kept.step State.winCtrl_kept | (show _ = _; rfl) | split

theorem execGenDiscard_next {s : State} {x0} : ∃ t, execGenDiscard x0 s = .next t ∧ Kept [.regs, .host, .cores, .pipes] s t := by
  refine ⟨_, rfl, ?_⟩; repeat' first
      | intro _ | with_reducible assumption | with_reducible exact Kept.refl | with_reducible apply Kept.ite
      | with_reducible apply State.start_kept | with_reducible apply Kept.step State.complete_kept
      | with_reducible apply Kept.step State.discardPipe_kept | with_reducible apply State.each_kept | (show _ = _; rfl)

theorem execParseLoad_next {s : State} {x0 x1 x2} : ∃ t, execParseLoad x0 x1 x2 s = .next t ∧ Kept [.regs, .host, .cores, .pipes] s t := by
  refine ⟨_, rfl, ?_⟩; repeat' first
      | intro _ | with_reducible assumption | with_reducible exact Kept.refl | with_reducible apply Kept.ite
      | with_reducible apply State.start_kept | with_reducible apply Kept.step State.modParser_kept
      | with_reducible apply Kept.step State.complete_kept | with_reducible apply State.each_kept | (show _ = _; rfl)

theorem execGenDrained_next {s : State} {x0} : ∃ t, execGenDrained x0 s = .next t ∧ Kept [.regs, .host, .cores, .pipes] s t := by
  refine ⟨_, rfl, ?_⟩; repeat' first
      | (extract_lets +onlyGivenNames v; apply Kept.gen (v := v); subst v; rotate_left; clear_value v; intro h; rotate_right)
      | with_reducible assumption | with_reducible exact Kept.refl | with_reducible apply Kept.step State.modPipe_kept
      | with_reducible apply Kept.step State.setF_kept | with_reducible apply Kept.step State.showGen_kept
      | with_reducible apply Kept.step State.modParser_kept | with_reducible apply Kept.step State.dropShadowed_kept
      | with_reducible apply Kept.step State.raise_kept | with_reducible apply Kept.step State.showLpm_kept | (show _ = _; rfl) | split

theorem execWinWrite_next {s : State} {x0 x1} : ∃ t, execWinWrite x0 x1 s = .next t ∧ Kept [.regs, .pipes, .freeCtr] s t := by
  refine ⟨_, rfl, ?_⟩; repeat' first
      | with_reducible exact Kept.refl | with_reducible apply Kept.step State.winCtrl_kept | (show _ = _; rfl) | split

end Sys2Proof.Machine
end

