-- ==== Sys2Proof/Laws/FrameTableRows.lean ====
section
/-!
SUPPORT. Sys2Proof/Laws/FrameTableRows.lean: what each operation of Machine/TableRows.lean may change, and that it keeps the canonical forms.
-/
namespace Sys2Proof.Machine
open Sys2Proof

theorem State.twinCtrl_kept {L : List Part} {s t : State} {x1 x2 x3} (g : ∀ v a0 a1 a2, Kept L s v → Kept L s (x3 v a0 a1 a2)) (hs :
    subParts [.regs] L = true) (h : Kept L s t) :
    Kept L s (State.twinCtrl t x1 x2 x3) := by
  unfold State.twinCtrl; repeat' first
      | (extract_lets +onlyGivenNames v; apply Kept.gen (v := v); subst v; rotate_left; clear_value v; intro h; rotate_right)
      | with_reducible assumption | with_reducible apply Kept.step State.putRw_kept | with_reducible apply g | split

theorem State.twinErr_kept {s : State} {x1 x2} : Kept [.regs] s (State.twinErr s x1 x2) := by
  unfold State.twinErr; repeat' first | with_reducible exact Kept.refl | with_reducible apply Kept.step State.setF_kept | (show _ = _; rfl)

theorem State.twinInjectOp_kept {s : State} {x1 x2} : Kept [.regs, .ctr, .pipes] s (State.twinInjectOp s x1 x2) := by
  unfold State.twinInjectOp; repeat' first
      | intro _ | with_reducible assumption | with_reducible exact Kept.refl | with_reducible apply State.twinCtrl_kept
      | with_reducible apply Kept.step State.twinErr_kept | with_reducible apply Kept.step State.learnQueue_kept | (show _ = _; rfl) | split

theorem State.twinLookupOp_kept {s : State} {x1 x2} : Kept [.regs] s (State.twinLookupOp s x1 x2) := by
  unfold State.twinLookupOp; repeat' first
      | intro _ | with_reducible assumption | with_reducible exact Kept.refl | with_reducible apply Kept.step State.setReg_kept
      | with_reducible apply State.twinCtrl_kept | with_reducible apply Kept.step State.twinErr_kept | (show _ = _; rfl) | split

theorem State.twinWriteOp_kept {s : State} {x1 x2} : Kept [.regs, .pipes] s (State.twinWriteOp s x1 x2) := by
  unfold State.twinWriteOp; repeat' first
      | intro _ | (extract_lets +onlyGivenNames v; apply Kept.gen (v := v.1); subst v; rotate_left; clear_value v; intro h; rotate_right)
      | with_reducible assumption | with_reducible exact Kept.refl | with_reducible apply Kept.step State.twinWrite_kept
      | with_reducible apply State.twinCtrl_kept | with_reducible apply Kept.step State.twinErr_kept | (show _ = _; rfl) | split

theorem State.showRec_kept {s : State} {x1 x2} : Kept [.regs] s (State.showRec s x1 x2) := by
  unfold State.showRec; repeat' first
      | intro _ | with_reducible assumption | with_reducible exact Kept.refl | with_reducible apply Kept.step State.setReg_kept
      | with_reducible apply Kept.step State.setF_kept | with_reducible apply State.each_kept | (show _ = _; rfl)

theorem State.twinReadOp_kept {s : State} {x1 x2} : Kept [.regs] s (State.twinReadOp s x1 x2) := by
  unfold State.twinReadOp; repeat' first
      | intro _ | with_reducible assumption | with_reducible exact Kept.refl | with_reducible apply Kept.step State.showRec_kept
      | with_reducible apply State.twinCtrl_kept | with_reducible apply Kept.step State.twinErr_kept | (show _ = _; rfl) | split

theorem State.twinRemoveOp_kept {s : State} {x1 x2} : Kept [.regs, .pipes] s (State.twinRemoveOp s x1 x2) := by
  unfold State.twinRemoveOp; repeat' first
      | intro _ | (extract_lets +onlyGivenNames v; apply Kept.gen (v := v.1); subst v; rotate_left; clear_value v; intro h; rotate_right)
      | with_reducible assumption | with_reducible exact Kept.refl | with_reducible apply State.twinCtrl_kept
      | with_reducible apply Kept.step State.twinErr_kept | with_reducible apply Kept.step State.twinRemove_kept | (show _ = _; rfl) | split

theorem State.twinOp_kept {s : State} {x1 x2} : Kept [.regs, .ctr, .pipes] s (State.twinOp s x1 x2) := by
  unfold State.twinOp; repeat' first
      | intro _ | with_reducible assumption | with_reducible exact Kept.refl | with_reducible apply Kept.step State.twinInjectOp_kept
      | with_reducible apply Kept.step State.twinLookupOp_kept | with_reducible apply Kept.step State.twinWriteOp_kept
      | with_reducible apply State.twinCtrl_kept | with_reducible apply Kept.step State.twinReadOp_kept
      | with_reducible apply Kept.step State.twinRemoveOp_kept | (show _ = _; rfl) | split

theorem State.modBulk_kept {s : State} {x1} : Kept [.pipes] s (State.modBulk s x1) := by
  unfold State.modBulk; repeat' first | with_reducible exact Kept.refl | (show _ = _; rfl) | with_reducible apply Kept.put_pipes

theorem State.setBulk_kept {s : State} {x1} : Kept [.pipes] s (State.setBulk s x1) := by
  unfold State.setBulk; repeat' first | with_reducible exact Kept.refl | with_reducible apply Kept.step State.modBulk_kept | (show _ = _; rfl)

theorem State.bulkOne_kept {s : State} {x1 x2 x3} : Kept [.regs, .ctr, .pipes] s (State.bulkOne s x1 x2 x3).1 := by
  unfold State.bulkOne; repeat' first
      | (extract_lets +onlyGivenNames v; apply Kept.gen (v := v.1); subst v; rotate_left; clear_value v; intro h; rotate_right)
      | with_reducible assumption | with_reducible exact Kept.refl | with_reducible apply Kept.step State.twinWrite_kept
      | with_reducible apply Kept.step State.twinRemove_kept | with_reducible apply Kept.step State.learnQueue_kept | (show _ = _; rfl) | split

theorem State.bulkRecord_kept {s : State} {x1 x2 x3} : Kept [.regs, .ctr, .pipes] s (State.bulkRecord s x1 x2 x3).1 := by
  unfold State.bulkRecord; repeat' first
      | intro _ | (extract_lets +onlyGivenNames v; apply Kept.gen (v := v.1); subst v; rotate_left; clear_value v; intro h; rotate_right)
      | with_reducible assumption | with_reducible exact Kept.refl | with_reducible apply Kept.foldlFst
      | with_reducible apply Kept.step State.bulkOne_kept | (show _ = _; rfl)

theorem State.bulkCount_kept {s : State} {x1 x2} : Kept [.host] s (State.bulkCount s x1 x2) := by
  unfold State.bulkCount; repeat' first | with_reducible exact Kept.refl | with_reducible apply Kept.step State.modLong_kept | (show _ = _; rfl)

theorem State.bulkStep_kept {s : State} {x1} : Kept [.regs, .ctr, .host, .mem, .pipes] s (State.bulkStep s x1) := by
  unfold State.bulkStep; repeat' first
      | (extract_lets +onlyGivenNames v; apply Kept.gen (v := v.1); subst v; rotate_left; clear_value v; intro h; rotate_right)
      | with_reducible assumption | with_reducible exact Kept.refl | with_reducible apply Kept.step State.bufWrite_kept
      | with_reducible apply Kept.step State.bulkRecord_kept | with_reducible apply Kept.step State.bulkCount_kept
      | with_reducible apply Kept.step State.setBulk_kept | (show _ = _; rfl) | split

theorem State.bulkBegin_kept {s : State} {x1} : Kept [.host] s (State.bulkBegin s x1) := by
  unfold State.bulkBegin; repeat' first | with_reducible exact Kept.refl | with_reducible apply Kept.step State.modLong_kept | (show _ = _; rfl)

theorem State.flapBoundary_kept {s : State} : Kept [.regs, .host, .cores, .pipes] s (State.flapBoundary s) := by
  unfold State.flapBoundary; repeat' first
      | intro _ | with_reducible assumption | with_reducible exact Kept.refl | with_reducible apply Kept.step State.modFwd_kept
      | with_reducible apply State.each_kept | with_reducible apply Kept.step State.raise_kept | (show _ = _; rfl) | split

theorem State.bulkAll_kept {s : State} {x1 x2 x3} : Kept [.regs, .ctr, .host, .cores, .mem, .pipes] s (State.bulkAll s x1 x2 x3) := by
  induction x3 generalizing s with
  | zero => exact Kept.refl
  | succ n ih => unfold State.bulkAll; repeat' first
      | intro _ | with_reducible apply Kept.step ih | with_reducible assumption | with_reducible exact Kept.refl
      | with_reducible apply Kept.step State.serve_kept | with_reducible apply State.each_kept
      | with_reducible apply Kept.step State.bulkStep_kept | (show _ = _; rfl) | split

theorem State.bulkEnd_kept {s : State} {x1} : Kept [.regs, .ctr, .host, .cores, .mem, .pipes] s (State.bulkEnd s x1) := by
  unfold State.bulkEnd; repeat' first
      | with_reducible exact Kept.refl | with_reducible apply Kept.step State.bulkAll_kept | with_reducible apply Kept.step State.modBulk_kept
      | (show _ = _; rfl)

theorem execTwinWrite_next {s : State} {x0 x1} : ∃ t, execTwinWrite x0 x1 s = .next t ∧ Kept [.regs, .pipes] s t := by
  refine ⟨_, rfl, ?_⟩; repeat' first | with_reducible exact Kept.refl | with_reducible apply Kept.step State.twinWriteOp_kept | (show _ = _; rfl)

theorem execTwinRead_next {s : State} {x0 x1} : ∃ t, execTwinRead x0 x1 s = .next t ∧ Kept [.regs] s t := by
  refine ⟨_, rfl, ?_⟩; repeat' first | with_reducible exact Kept.refl | with_reducible apply Kept.step State.twinReadOp_kept | (show _ = _; rfl)

theorem execTwinLookup_next {s : State} {x0 x1} : ∃ t, execTwinLookup x0 x1 s = .next t ∧ Kept [.regs] s t := by
  refine ⟨_, rfl, ?_⟩; repeat' first | with_reducible exact Kept.refl | with_reducible apply Kept.step State.twinLookupOp_kept | (show _ = _; rfl)

theorem execTableBulk_next {s : State} {x0 x1} : ∃ t, execTableBulk x0 x1 s = .next t ∧ Kept [.regs, .host, .cores, .pipes] s t := by
  refine ⟨_, rfl, ?_⟩; repeat' first
      | intro _ | (extract_lets +onlyGivenNames v; apply Kept.gen (v := v); subst v; rotate_left; clear_value v; intro h; rotate_right)
      | (extract_lets +onlyGivenNames v; clear_value v) | with_reducible assumption | with_reducible exact Kept.refl
      | with_reducible apply State.start_kept | with_reducible apply State.startLong_kept | with_reducible apply Kept.step State.bulkBegin_kept
      | with_reducible apply Kept.step State.modBulk_kept | (show _ = _; rfl) | split

theorem execMacFlushScanEnd_next {s : State} : ∃ t, execMacFlushScanEnd s = .next t ∧ Kept [.regs, .host, .cores, .pipes] s t := by
  refine ⟨_, rfl, ?_⟩; repeat' first
      | with_reducible exact Kept.refl | with_reducible apply Kept.step State.finish_kept | (show _ = _; rfl) | split
      | with_reducible apply Kept.put_pipes

theorem execAgeVisit_next {s : State} {x0 x1} : ∃ t, execAgeVisit x0 x1 s = .next t ∧ Kept [.pipes] s t := by
  refine ⟨_, rfl, ?_⟩; repeat' first | with_reducible exact Kept.refl | with_reducible apply Kept.step State.macMod_kept | (show _ = _; rfl) | split

theorem execAgeRemove_next {s : State} {x0 x1} : ∃ t, execAgeRemove x0 x1 s = .next t ∧ Kept [.regs, .ctr, .pipes] s t := by
  refine ⟨_, rfl, ?_⟩; repeat' first
      | with_reducible exact Kept.refl | with_reducible apply Kept.step State.countFwd_kept
      | with_reducible apply Kept.step State.macRemove_kept | (show _ = _; rfl) | split

theorem execMacFlush_next {s : State} {x0} : ∃ t, execMacFlush x0 s = .next t ∧ Kept [.regs, .host, .cores, .pipes] s t := by
  refine ⟨_, rfl, ?_⟩; repeat' first
      | intro _ | (extract_lets +onlyGivenNames v; apply Kept.gen (v := v); subst v; rotate_left; clear_value v; intro h; rotate_right)
      | (extract_lets +onlyGivenNames v; apply Kept.gen (v := v.1); subst v; rotate_left; clear_value v; intro h; rotate_right)
      | with_reducible assumption | with_reducible exact Kept.refl | with_reducible apply Kept.foldlFst
      | with_reducible apply Kept.step State.modParked_kept | with_reducible apply Kept.step State.parkId_kept
      | with_reducible apply State.start_kept | with_reducible apply Kept.step State.flushMac_kept | with_reducible apply State.when_kept
      | (show _ = _; rfl) | (with_reducible apply Kept.fst (by assumption)) | with_reducible apply Kept.put_pipes

theorem execLearnServe_next {s : State} {x0} : ∃ t, execLearnServe x0 s = .next t ∧ Kept [.regs, .ctr, .host, .cores, .pipes] s t := by
  refine ⟨_, rfl, ?_⟩; repeat' first | with_reducible exact Kept.refl | with_reducible apply Kept.step State.serve_kept | (show _ = _; rfl) | split

theorem execTwinRemove_next {s : State} {x0 x1} : ∃ t, execTwinRemove x0 x1 s = .next t ∧ Kept [.regs, .pipes] s t := by
  refine ⟨_, rfl, ?_⟩; repeat' first | with_reducible exact Kept.refl | with_reducible apply Kept.step State.twinRemoveOp_kept | (show _ = _; rfl)

theorem execTwinInject_next {s : State} {x0 x1} : ∃ t, execTwinInject x0 x1 s = .next t ∧ Kept [.regs, .ctr, .pipes] s t := by
  refine ⟨_, rfl, ?_⟩; repeat' first | with_reducible exact Kept.refl | with_reducible apply Kept.step State.twinInjectOp_kept | (show _ = _; rfl)

end Sys2Proof.Machine
end

