-- ==== Sys2Proof/Laws/FrameFrameRows.lean ====
section
/-!
SUPPORT. Sys2Proof/Laws/FrameFrameRows.lean: what each operation of Machine/FrameRows.lean may change, and that it keeps the canonical forms.
-/
namespace Sys2Proof.Machine
open Sys2Proof

theorem State.request_kept {s : State} {x1 x2 x3} : Kept [.regs, .ctr, .pipes] s (State.request s x1 x2 x3) := by
  unfold State.request; repeat' first
      | intro _ | (extract_lets +onlyGivenNames v; apply Kept.gen (v := v); subst v; rotate_left; clear_value v; intro h; rotate_right)
      | with_reducible assumption | with_reducible exact Kept.refl | with_reducible apply State.each_kept
      | with_reducible apply Kept.step State.learnQueue_kept | (show _ = _; rfl) | split

theorem State.source_kept {s : State} {x1 x2 x3 x4 x5} : Kept [.regs, .ctr, .pipes] s (State.source s x1 x2 x3 x4 x5) := by
  unfold State.source; repeat' first
      | (extract_lets +onlyGivenNames v; apply Kept.gen (v := v); subst v; rotate_left; clear_value v; intro h; rotate_right)
      | (extract_lets +onlyGivenNames v; clear_value v) | with_reducible assumption | with_reducible exact Kept.refl
      | with_reducible apply Kept.step State.macMod_kept | with_reducible apply Kept.step State.request_kept | (show _ = _; rfl) | split

theorem State.sample_kept {s : State} {x1} : Kept [.fabric] s (State.sample s x1).1 := by
  unfold State.sample; repeat' first
      | (extract_lets +onlyGivenNames v; clear_value v) | with_reducible exact Kept.refl | with_reducible apply Kept.step State.modFabric_kept
      | (show _ = _; rfl) | split

theorem State.headroomIn_kept {s : State} {x1} : Kept [.fabric] s (State.headroomIn s x1) := by
  unfold State.headroomIn; repeat' first
      | (extract_lets +onlyGivenNames v; apply Kept.gen (v := v); subst v; rotate_left; clear_value v; intro h; rotate_right)
      | with_reducible assumption | with_reducible exact Kept.refl | with_reducible apply Kept.ite
      | with_reducible apply Kept.step State.modFrame_kept | with_reducible apply Kept.step State.modFabric_kept | (show _ = _; rfl)

theorem State.toRing_kept {s : State} {x1 x2 x3} : Kept [.fabric] s (State.toRing s x1 x2 x3) := by
  unfold State.toRing; repeat' first | with_reducible exact Kept.refl | with_reducible apply Kept.step State.modFabric_kept | (show _ = _; rfl)

theorem State.overrunAt_kept {s : State} {x1 x2} : Kept [.regs, .host, .cores, .fabric] s (State.overrunAt s x1 x2) := by
  unfold State.overrunAt; repeat' first
      | (extract_lets +onlyGivenNames v; apply Kept.gen (v := v); subst v; rotate_left; clear_value v; intro h; rotate_right)
      | with_reducible assumption | with_reducible exact Kept.refl | with_reducible apply Kept.ite
      | with_reducible apply Kept.step State.setF_kept | with_reducible apply Kept.step State.raise_kept
      | with_reducible apply Kept.step State.modFabric_kept | (show _ = _; rfl)

theorem State.refuse_kept {s : State} {x1 x2 x3 x4} :
    Kept [.regs, .ctr, .host, .cores, .lanes, .ports, .fabric, .cal, .line] s (State.refuse s x1 x2 x3 x4) := by
  unfold State.refuse; repeat' first
      | (extract_lets +onlyGivenNames v; apply Kept.gen (v := v); subst v; rotate_left; clear_value v; intro h; rotate_right)
      | with_reducible assumption | with_reducible exact Kept.refl | with_reducible apply Kept.step State.countFab_kept
      | with_reducible apply Kept.step State.discard_kept | with_reducible apply Kept.step State.overrunAt_kept | (show _ = _; rfl) | split

theorem State.link'_kept {s : State} {x1 x2 x3 x4} : Kept [.regs, .ctr, .lanes, .ports, .fabric, .cal, .line] s (State.link' s x1 x2 x3 x4) := by
  unfold State.link'; repeat' first
      | intro _ | (extract_lets +onlyGivenNames v; apply Kept.gen (v := v); subst v; rotate_left; clear_value v; intro h; rotate_right)
      | with_reducible assumption | with_reducible exact Kept.refl | with_reducible apply Kept.step State.countFab_kept
      | with_reducible apply Kept.step State.modFrame_kept | with_reducible apply Kept.step State.showIa_kept
      | with_reducible apply Kept.step State.headroomIn_kept | with_reducible apply Kept.step State.modFabric_kept
      | with_reducible apply State.when_kept | (show _ = _; rfl)

theorem State.linkGroup_kept {s : State} {x1 x2 x3} :
    Kept [.regs, .ctr, .host, .cores, .lanes, .ports, .fabric, .cal, .line] s (State.linkGroup s x1 x2 x3) := by
  unfold State.linkGroup; repeat' first
      | intro _ | (extract_lets +onlyGivenNames v; apply Kept.gen (v := v); subst v; rotate_left; clear_value v; intro h; rotate_right)
      | (extract_lets +onlyGivenNames v; clear_value v) | with_reducible assumption | with_reducible exact Kept.refl
      | with_reducible apply Kept.step State.countFab_kept | with_reducible apply Kept.step State.refuse_kept
      | with_reducible apply State.each_kept | with_reducible apply Kept.step State.discard_kept
      | with_reducible apply Kept.step State.link'_kept | (show _ = _; rfl) | split

theorem State.linkUnicast_kept {s : State} {x1 x2} :
    Kept [.regs, .ctr, .host, .cores, .lanes, .ports, .fabric, .cal, .line] s (State.linkUnicast s x1 x2) := by
  unfold State.linkUnicast; repeat' first
      | with_reducible exact Kept.refl | with_reducible apply Kept.step State.countFab_kept | with_reducible apply Kept.step State.refuse_kept
      | with_reducible apply Kept.step State.discard_kept | with_reducible apply Kept.step State.link'_kept | (show _ = _; rfl) | split

theorem State.outcome_kept {s : State} {x1 x2 x3} :
    Kept [.regs, .ctr, .host, .cores, .lanes, .ports, .fabric, .cal, .line] s (State.outcome s x1 x2 x3) := by
  unfold State.outcome; repeat' first
      | with_reducible exact Kept.refl | with_reducible apply Kept.step State.linkGroup_kept | with_reducible apply Kept.step State.toRing_kept
      | with_reducible apply Kept.step State.discard_kept | with_reducible apply Kept.step State.linkUnicast_kept | (show _ = _; rfl) | split

theorem State.byTables_kept {s : State} {x1 x2} :
    Kept [.regs, .ctr, .host, .cores, .lanes, .ports, .pipes, .fabric, .cal, .line] s (State.byTables s x1 x2) := by
  unfold State.byTables; repeat' first
      | intro _ | (extract_lets +onlyGivenNames v; apply Kept.gen (v := v); subst v; rotate_left; clear_value v; intro h; rotate_right)
      | with_reducible assumption | with_reducible exact Kept.refl | with_reducible apply Kept.ite
      | with_reducible apply Kept.step State.modFrame_kept | with_reducible apply State.each_kept
      | with_reducible apply Kept.step State.discard_kept | with_reducible apply Kept.step State.outcome_kept
      | with_reducible apply Kept.step State.countFwd_kept | with_reducible apply Kept.step State.source_kept
      | with_reducible apply State.when_kept | (show _ = _; rfl) | split

theorem State.byAction_kept {s : State} {x1 x2} :
    Kept [.regs, .ctr, .host, .cores, .lanes, .ports, .pipes, .fabric, .cal, .line] s (State.byAction s x1 x2) := by
  unfold State.byAction; repeat' first
      | (extract_lets +onlyGivenNames v; apply Kept.gen (v := v); subst v; rotate_left; clear_value v; intro h; rotate_right)
      | with_reducible assumption | with_reducible exact Kept.refl | with_reducible apply Kept.ite
      | with_reducible apply Kept.step State.toRing_kept | with_reducible apply Kept.step State.discard_kept
      | with_reducible apply Kept.step State.outcome_kept | with_reducible apply State.when_kept
      | with_reducible apply Kept.step State.byTables_kept | (show _ = _; rfl)

theorem State.frameIn_kept {s : State} {x1} : Kept [.regs, .ctr, .host, .cores, .lanes, .ports, .fabric, .cal, .line] s (State.frameIn s x1) := by
  unfold State.frameIn; repeat' first
      | with_reducible exact Kept.refl | with_reducible apply Kept.step State.showFree_kept
      | with_reducible apply Kept.step State.modFabric_kept | (show _ = _; rfl)

theorem State.badFrame_kept {s : State} {x1 x2 x3} : Kept [.ctr, .fabric] s (State.badFrame s x1 x2 x3) := by
  unfold State.badFrame; repeat' first
      | (extract_lets +onlyGivenNames v; apply Kept.gen (v := v); subst v; rotate_left; clear_value v; intro h; rotate_right)
      | with_reducible assumption | with_reducible exact Kept.refl | with_reducible apply Kept.step State.countParse_kept
      | with_reducible apply Kept.step State.countPort_kept | with_reducible apply Kept.step State.toRing_kept
      | with_reducible apply State.when_kept | (show _ = _; rfl)

theorem State.decideBad_kept {s : State} {x1 x2} :
    Kept [.regs, .ctr, .host, .cores, .lanes, .ports, .fabric, .cal, .line] s (State.decideBad s x1 x2) := by
  unfold State.decideBad; repeat' first
      | with_reducible exact Kept.refl | with_reducible apply Kept.step State.badFrame_kept | with_reducible apply Kept.step State.discard_kept
      | with_reducible apply Kept.step State.link'_kept | (show _ = _; rfl) | split

theorem State.frameTaken_kept {s : State} {x1} : Kept [.lanes] s (State.frameTaken s x1) := by
  unfold State.frameTaken; repeat' first
      | with_reducible exact Kept.refl | with_reducible apply Kept.step State.modLane_kept | with_reducible apply State.when_kept
      | (show _ = _; rfl)

theorem State.countRx_kept {s : State} {x1 x2 x3} : Kept [.ctr] s (State.countRx s x1 x2 x3) := by
  unfold State.countRx; repeat' first
      | intro _ | with_reducible assumption | with_reducible exact Kept.refl | with_reducible apply Kept.step State.countPort_kept
      | with_reducible apply State.each_kept | with_reducible apply Kept.step State.countGood_kept | (show _ = _; rfl) | split

theorem State.macControl_kept {s : State} {x1 x2 x3} : Kept [.regs, .ctr, .ports] s (State.macControl s x1 x2 x3) := by
  unfold State.macControl; repeat' first
      | (extract_lets +onlyGivenNames v; apply Kept.gen (v := v); subst v; rotate_left; clear_value v; intro h; rotate_right)
      | with_reducible assumption | with_reducible exact Kept.refl | with_reducible apply Kept.ite
      | with_reducible apply Kept.step State.countRx_kept | with_reducible apply Kept.step State.pauseIn_kept
      | with_reducible apply Kept.step State.countPort_kept | (show _ = _; rfl)

theorem State.countDiscarded_kept {s : State} {x1} : Kept [.power] s (State.countDiscarded s x1) := by
  unfold State.countDiscarded; repeat' first | with_reducible exact Kept.refl | (show _ = _; rfl) | with_reducible apply Kept.put_power

theorem State.macRx_kept {s : State} {x1 x2 x3 x4} :
    Kept [.regs, .ctr, .power, .host, .cores, .lanes, .ports, .fabric, .cal, .line] s (State.macRx s x1 x2 x3 x4) := by
  unfold State.macRx; repeat' first
      | (extract_lets +onlyGivenNames v; apply Kept.gen (v := v); subst v; rotate_left; clear_value v; intro h; rotate_right)
      | with_reducible assumption | with_reducible exact Kept.refl | with_reducible apply Kept.ite
      | with_reducible apply Kept.step State.countRx_kept | with_reducible apply Kept.step State.sample_kept
      | with_reducible apply Kept.step State.frameIn_kept | with_reducible apply Kept.step State.countPort_kept
      | with_reducible apply Kept.step State.macControl_kept | with_reducible apply Kept.step State.countDiscarded_kept
      | with_reducible apply Kept.step State.capture_kept | (show _ = _; rfl) | split

theorem State.classified_kept {s : State} {x1 x2} : Kept [.regs, .ctr, .host, .cores, .pipes] s (State.classified s x1 x2) := by
  unfold State.classified; repeat' first
      | intro _ | (extract_lets +onlyGivenNames v; apply Kept.gen (v := v); subst v; rotate_left; clear_value v; intro h; rotate_right)
      | (extract_lets +onlyGivenNames v; clear_value v) | with_reducible assumption | with_reducible exact Kept.refl
      | with_reducible apply Kept.step State.showFrag_kept | with_reducible apply Kept.step State.countParse_kept
      | with_reducible apply Kept.step State.modParser_kept | with_reducible apply Kept.step State.countPort_kept
      | with_reducible apply Kept.step State.raise_kept | with_reducible apply State.when_kept | (show _ = _; rfl) | split

theorem State.copyOut_kept {s : State} {x1} : Kept [.fabric] s (State.copyOut s x1) := by
  unfold State.copyOut; repeat' first
      | with_reducible exact Kept.refl | with_reducible apply Kept.ite | with_reducible apply Kept.step State.toRing_kept | (show _ = _; rfl)

theorem State.decide'_kept {s : State} {x1} :
    Kept [.regs, .ctr, .power, .host, .cores, .lanes, .ports, .pipes, .fabric, .servo, .cal, .line] s (State.decide' s x1) := by
  unfold State.decide'; repeat' first
      | (extract_lets +onlyGivenNames v; apply Kept.gen (v := v); subst v; rotate_left; clear_value v; intro h; rotate_right)
      | with_reducible assumption | with_reducible exact Kept.refl | with_reducible apply Kept.ite
      | with_reducible apply Kept.step State.decideBad_kept | with_reducible apply Kept.step State.setF_kept
      | with_reducible apply Kept.step State.countParse_kept | with_reducible apply Kept.step State.modFrame_kept
      | with_reducible apply Kept.step State.toEngine_kept | with_reducible apply Kept.step State.classified_kept
      | with_reducible apply Kept.step State.discard_kept | with_reducible apply Kept.step State.copyOut_kept
      | with_reducible apply Kept.step State.outcome_kept | with_reducible apply Kept.step State.byAction_kept
      | with_reducible apply Kept.step State.countDiscarded_kept | (show _ = _; rfl) | split

theorem execFrameRx_next {s : State} {x0 x1} :
    ∃ t, execFrameRx x0 x1 s = .next t ∧ Kept [.regs, .ctr, .power, .host, .cores, .lanes, .ports, .fabric, .cal, .line] s t := by
  refine ⟨_, rfl, ?_⟩; repeat' first
      | (extract_lets +onlyGivenNames v; apply Kept.gen (v := v); subst v; rotate_left; clear_value v; intro h; rotate_right)
      | with_reducible assumption | with_reducible exact Kept.refl | with_reducible apply Kept.step State.lineErrs_kept
      | with_reducible apply Kept.step State.frameTaken_kept | with_reducible apply Kept.step State.out_kept
      | with_reducible apply Kept.step State.countPort_kept | with_reducible apply Kept.step State.countStamp_kept
      | with_reducible apply State.when_kept | with_reducible apply Kept.step State.macRx_kept | (show _ = _; rfl) | split

theorem execPipeDecision_next {s : State} {x0} :
    ∃ t, execPipeDecision x0 s = .next t ∧ Kept [.regs, .ctr, .power, .host, .cores, .lanes, .ports, .pipes, .fabric, .servo, .cal, .line] s t := by
  refine ⟨_, rfl, ?_⟩; repeat' first
      | with_reducible exact Kept.refl | with_reducible apply Kept.step State.decide'_kept | (show _ = _; rfl) | split

theorem execFcsCheckDone_next {s : State} {x0} :
    ∃ t, execFcsCheckDone x0 s = .next t ∧ Kept [.regs, .ctr, .host, .cores, .lanes, .ports, .fabric, .cal, .line] s t := by
  refine ⟨_, rfl, ?_⟩; repeat' first
      | (extract_lets +onlyGivenNames v; apply Kept.gen (v := v); subst v; rotate_left; clear_value v; intro h; rotate_right)
      | with_reducible assumption | with_reducible exact Kept.refl | with_reducible apply Kept.step State.badFrame_kept
      | with_reducible apply Kept.step State.modFrame_kept | with_reducible apply Kept.step State.out_kept
      | with_reducible apply Kept.step State.countPort_kept | with_reducible apply Kept.step State.modFabric_kept
      | with_reducible apply Kept.step State.endFrame_kept | with_reducible apply Kept.step State.release_kept | (show _ = _; rfl) | split

end Sys2Proof.Machine
end

