-- ==== Sys2Proof/Laws/FrameEgressRows.lean ====
section
/-!
SUPPORT. Sys2Proof/Laws/FrameEgressRows.lean: what each operation of Machine/EgressRows.lean may change, and that it keeps the canonical forms.
-/
namespace Sys2Proof.Machine
open Sys2Proof

theorem State.tcAdd_kept {s : State} {x1 x2 x3} : Kept [.regs, .servo] s (State.tcAdd s x1 x2 x3).1 := by
  unfold State.tcAdd; repeat' first
      | with_reducible exact Kept.refl | with_reducible apply Kept.step State.peerDelay_kept | (show _ = _; rfl)
      | (with_reducible apply Kept.fst (by assumption)) | split | with_reducible apply Kept.put_servo

theorem State.egressBytes_kept {s : State} {x1 x2 x3} : Kept [.regs, .servo] s (State.egressBytes s x1 x2 x3).1 := by
  unfold State.egressBytes; repeat' first
      | with_reducible exact Kept.refl | with_reducible apply Kept.step State.tcAdd_kept | (show _ = _; rfl)
      | (with_reducible apply Kept.fst (by assumption)) | split

theorem State.sent_kept {s : State} {x1 x2 x3 x4} :
    Kept [.regs, .ctr, .host, .cores, .lanes, .ports, .fabric, .servo, .cal, .line] s (State.sent s x1 x2 x3 x4) := by
  unfold State.sent; repeat' first
      | (extract_lets +onlyGivenNames v; apply Kept.gen (v := v); subst v; rotate_left; clear_value v; intro h; rotate_right)
      | (extract_lets +onlyGivenNames v; apply Kept.gen (v := v.1); subst v; rotate_left; clear_value v; intro h; rotate_right)
      | with_reducible assumption | with_reducible exact Kept.refl | with_reducible apply Kept.step State.egressBytes_kept
      | with_reducible apply Kept.step State.countPort_kept | with_reducible apply Kept.step State.countStamp_kept
      | with_reducible apply Kept.step State.modFabric_kept | with_reducible apply Kept.step State.txDone_kept
      | with_reducible apply State.when_kept | with_reducible apply Kept.step State.send_kept
      | with_reducible apply Kept.step State.release_kept | with_reducible apply Kept.step State.capture_kept | (show _ = _; rfl)

theorem State.mapOut_kept {s : State} {x1} : Kept [.regs, .host, .fabric] s (State.mapOut s x1) := by
  unfold State.mapOut; repeat' first
      | (extract_lets +onlyGivenNames v; apply Kept.gen (v := v); subst v; rotate_left; clear_value v; intro h; rotate_right)
      | with_reducible assumption | with_reducible exact Kept.refl | with_reducible apply Kept.step State.setF_kept
      | with_reducible apply Kept.step State.showDeep_kept | with_reducible apply Kept.step State.modOp_kept
      | with_reducible apply Kept.step State.modFabric_kept | (show _ = _; rfl)

theorem State.stackFault_kept {s : State} {x1 x2 x3} : Kept [.regs, .host, .cores, .fabric] s (State.stackFault s x1 x2 x3) := by
  unfold State.stackFault; repeat' first
      | with_reducible exact Kept.refl | with_reducible apply Kept.step State.raise_kept | with_reducible apply Kept.step State.modFabric_kept
      | (show _ = _; rfl)

theorem State.evacReads_kept {s : State} : Kept [.host, .fabric] s (State.evacReads s) := by
  unfold State.evacReads; repeat' first
      | with_reducible exact Kept.refl | with_reducible apply Kept.step State.modOp_kept | with_reducible apply Kept.step State.modFabric_kept
      | (show _ = _; rfl) | split

theorem State.milletBoundary_kept {s : State} :
    Kept [.regs, .ctr, .host, .cores, .lanes, .ports, .fabric, .cal, .line] s (State.milletBoundary s) := by
  unfold State.milletBoundary; repeat' first
      | (extract_lets +onlyGivenNames v; apply Kept.gen (v := v); subst v; rotate_left; clear_value v; intro h; rotate_right)
      | (extract_lets +onlyGivenNames v; clear_value v) | with_reducible assumption | with_reducible exact Kept.refl
      | with_reducible apply Kept.step State.stackFault_kept | with_reducible apply Kept.step State.showFree_kept
      | with_reducible apply Kept.step State.setF_kept | with_reducible apply Kept.step State.modFabric_kept
      | with_reducible apply Kept.step State.evacReads_kept | with_reducible apply Kept.step State.pressure_kept | (show _ = _; rfl) | split

theorem State.beginTx_kept {s : State} {x1 x2} : Kept [.fabric] s (State.beginTx s x1 x2) := by
  unfold State.beginTx; repeat' first
      | (extract_lets +onlyGivenNames v; apply Kept.gen (v := v); subst v; rotate_left; clear_value v; intro h; rotate_right)
      | with_reducible assumption | with_reducible exact Kept.refl | with_reducible apply Kept.step State.modFrame_kept
      | with_reducible apply Kept.step State.modFabric_kept | with_reducible apply State.when_kept | (show _ = _; rfl)

theorem State.dropCopy_kept {s : State} {x1} : Kept [.regs, .ctr, .host, .cores, .lanes, .ports, .fabric, .cal, .line] s (State.dropCopy s x1) := by
  unfold State.dropCopy; repeat' first
      | with_reducible exact Kept.refl | with_reducible apply Kept.step State.countFab_kept
      | with_reducible apply Kept.step State.modFabric_kept | with_reducible apply Kept.step State.release_kept | (show _ = _; rfl)

theorem State.dropCells_kept {s : State} {x1} :
    Kept [.regs, .ctr, .host, .cores, .lanes, .ports, .fabric, .cal, .line] s (State.dropCells s x1).1 := by
  unfold State.dropCells; repeat' first
      | intro _ | with_reducible assumption | with_reducible exact Kept.refl | with_reducible apply State.each_kept
      | with_reducible apply Kept.step State.dropCopy_kept | (show _ = _; rfl)

theorem State.evacDrop_kept {s : State} {x1 x2} :
    Kept [.regs, .ctr, .host, .cores, .lanes, .ports, .fabric, .cal, .line] s (State.evacDrop s x1 x2) := by
  induction x2 generalizing s with
  | zero => exact Kept.refl
  | succ n ih => unfold State.evacDrop; repeat' first
      | with_reducible apply Kept.step ih | (extract_lets +onlyGivenNames v; clear_value v) | with_reducible exact Kept.refl
      | with_reducible apply Kept.step State.dropCopy_kept | (show _ = _; rfl) | split

theorem State.evacuate_kept {s : State} {x1} : Kept [.fabric] s (State.evacuate s x1) := by
  unfold State.evacuate; repeat' first
      | intro _ | (extract_lets +onlyGivenNames v; apply Kept.gen (v := v); subst v; rotate_left; clear_value v; intro h; rotate_right)
      | with_reducible assumption | with_reducible exact Kept.refl | with_reducible apply Kept.step State.setCell_kept
      | with_reducible apply State.each_kept | with_reducible apply Kept.step State.modFabric_kept | (show _ = _; rfl) | split

theorem State.stackError_kept {s : State} {x1 x2} : Kept [.regs, .host, .cores, .fabric] s (State.stackError s x1 x2) := by
  unfold State.stackError; repeat' first
      | (extract_lets +onlyGivenNames v; apply Kept.gen (v := v); subst v; rotate_left; clear_value v; intro h; rotate_right)
      | with_reducible assumption | with_reducible exact Kept.refl | with_reducible apply Kept.step State.stackFault_kept
      | with_reducible apply Kept.step State.bump_kept | with_reducible apply Kept.step State.mapOut_kept
      | with_reducible apply Kept.step State.modFabric_kept | with_reducible apply State.when_kept | (show _ = _; rfl) | split

theorem State.writeUnit_kept {s : State} {x1 x2} :
    Kept [.regs, .ctr, .host, .cores, .lanes, .ports, .fabric, .cal, .line] s (State.writeUnit s x1 x2).1 := by
  unfold State.writeUnit; repeat' first
      | intro _ | (extract_lets +onlyGivenNames v; apply Kept.gen (v := v); subst v; rotate_left; clear_value v; intro h; rotate_right)
      | with_reducible assumption | with_reducible exact Kept.refl | with_reducible apply Kept.step State.setCell_kept
      | with_reducible apply Kept.step State.showFree_kept | with_reducible apply Kept.step State.showFrames_kept
      | with_reducible apply State.each_kept | with_reducible apply Kept.step State.modFabric_kept | (show _ = _; rfl) | split

theorem State.beginOwn_kept {s : State} {x1} : Kept [.ports] s (State.beginOwn s x1) := by
  unfold State.beginOwn; repeat' first | with_reducible exact Kept.refl | with_reducible apply Kept.step State.modMac_kept | (show _ = _; rfl)

theorem execFrameTx_next {s : State} {x0 x1} :
    ∃ t, execFrameTx x0 x1 s = .next t ∧ Kept [.regs, .ctr, .host, .cores, .lanes, .ports, .fabric, .servo, .cal, .line] s t := by
  refine ⟨_, rfl, ?_⟩; repeat' first
      | with_reducible exact Kept.refl | with_reducible apply Kept.step State.flushCtrl_kept | with_reducible apply Kept.step State.sent_kept
      | with_reducible apply Kept.step State.countStamp_kept | with_reducible apply Kept.step State.modFabric_kept
      | with_reducible apply Kept.step State.ownSent_kept | with_reducible apply Kept.step State.modMac_kept | (show _ = _; rfl) | split

theorem execDeepbufMapout_next {s : State} {x0} : ∃ t, execDeepbufMapout x0 s = .next t ∧ Kept [.regs, .host, .cores, .fabric] s t := by
  refine ⟨_, rfl, ?_⟩; repeat' first
      | intro _ | (extract_lets +onlyGivenNames v; apply Kept.gen (v := v); subst v; rotate_left; clear_value v; intro h; rotate_right)
      | with_reducible assumption | with_reducible exact Kept.refl | with_reducible apply Kept.step State.mapOut_kept
      | with_reducible apply State.start_kept | with_reducible apply Kept.step State.setF_kept
      | with_reducible apply Kept.step State.showDeep_kept | with_reducible apply Kept.step State.complete_kept
      | with_reducible apply State.startLong_kept | with_reducible apply Kept.step State.modFabric_kept | (show _ = _; rfl) | split

theorem execSpillPartialFlush_next {s : State} {x0 x1} : ∃ t, execSpillPartialFlush x0 x1 s = .next t ∧ Kept [.fabric] s t := by
  refine ⟨_, rfl, ?_⟩; repeat' first | with_reducible exact Kept.refl | with_reducible apply Kept.step State.modFabric_kept | (show _ = _; rfl)

theorem execMapoutDone_next {s : State} {x0 x1 x2} :
    ∃ t, execMapoutDone x0 x1 x2 s = .next t ∧ Kept [.regs, .ctr, .host, .cores, .lanes, .ports, .fabric, .cal, .line] s t := by
  refine ⟨_, rfl, ?_⟩; repeat' first
      | (extract_lets +onlyGivenNames v; apply Kept.gen (v := v); subst v; rotate_left; clear_value v; intro h; rotate_right)
      | (extract_lets +onlyGivenNames v; apply Kept.gen (v := v.1); subst v; rotate_left; clear_value v; intro h; rotate_right)
      | (extract_lets +onlyGivenNames v; clear_value v) | with_reducible assumption | with_reducible exact Kept.refl
      | with_reducible apply Kept.step State.bump_kept | with_reducible apply Kept.step State.dropCells_kept
      | with_reducible apply Kept.step State.setF_kept | with_reducible apply Kept.step State.raise_kept
      | with_reducible apply Kept.step State.modFabric_kept | with_reducible apply Kept.step State.evacDrop_kept
      | with_reducible apply Kept.step State.evacuate_kept | with_reducible apply Kept.step State.endLong_kept | (show _ = _; rfl) | split

theorem execMcAbandon_next {s : State} {x0 x1} :
    ∃ t, execMcAbandon x0 x1 s = .next t ∧ Kept [.regs, .ctr, .host, .cores, .lanes, .ports, .fabric, .cal, .line] s t := by
  refine ⟨_, rfl, ?_⟩; repeat' first
      | with_reducible exact Kept.refl | with_reducible apply Kept.step State.countFab_kept
      | with_reducible apply Kept.step State.modFabric_kept | with_reducible apply Kept.step State.release_kept | (show _ = _; rfl) | split

theorem execSorrelEpoch_next {s : State} :
    ∃ t, execSorrelEpoch s = .next t ∧ Kept [.regs, .ctr, .host, .cores, .lanes, .ports, .fabric, .cal, .line] s t := by
  refine ⟨_, rfl, ?_⟩; repeat' first | with_reducible exact Kept.refl | with_reducible apply Kept.step State.sorrel_kept | (show _ = _; rfl) | split

theorem execRefillDone_next {s : State} {x0 x1 x2 x3} :
    ∃ t, execRefillDone x0 x1 x2 x3 s = .next t ∧ Kept [.regs, .ctr, .host, .cores, .lanes, .ports, .fabric, .cal, .line] s t := by
  refine ⟨_, rfl, ?_⟩; repeat' first
      | intro _ | (extract_lets +onlyGivenNames v; apply Kept.gen (v := v); subst v; rotate_left; clear_value v; intro h; rotate_right)
      | (extract_lets +onlyGivenNames v; apply Kept.gen (v := v.1); subst v; rotate_left; clear_value v; intro h; rotate_right)
      | with_reducible assumption | with_reducible exact Kept.refl | with_reducible apply Kept.step State.setCell_kept
      | with_reducible apply Kept.step State.bump_kept | with_reducible apply Kept.step State.showFree_kept
      | with_reducible apply Kept.step State.dropCells_kept | with_reducible apply Kept.step State.showFrames_kept
      | with_reducible apply Kept.step State.countFab_kept | with_reducible apply Kept.step State.stackError_kept
      | with_reducible apply State.each_kept | with_reducible apply Kept.step State.showEq_kept
      | with_reducible apply Kept.step State.modFabric_kept | (show _ = _; rfl) | split

theorem execPortHoldExpired_next {s : State} {x0} :
    ∃ t, execPortHoldExpired x0 s = .next t ∧ Kept [.regs, .ctr, .host, .cores, .lanes, .ports, .pipes, .fabric, .cal, .line] s t := by
  refine ⟨_, rfl, ?_⟩; repeat' first
      | intro _ | with_reducible assumption | with_reducible exact Kept.refl | with_reducible apply Kept.ite
      | with_reducible apply Kept.step State.setF_kept | with_reducible apply Kept.step State.flushMac_kept
      | with_reducible apply State.each_kept | with_reducible apply Kept.step State.raise_kept
      | with_reducible apply Kept.step State.flush_kept | (show _ = _; rfl)

theorem execSpillWriteDone_next {s : State} {x0 x1} :
    ∃ t, execSpillWriteDone x0 x1 s = .next t ∧ Kept [.regs, .ctr, .host, .cores, .lanes, .ports, .fabric, .cal, .line] s t := by
  refine ⟨_, rfl, ?_⟩; repeat' first
      | (extract_lets +onlyGivenNames v; apply Kept.gen (v := v.1); subst v; rotate_left; clear_value v; intro h; rotate_right)
      | with_reducible assumption | with_reducible exact Kept.refl | with_reducible apply Kept.step State.writeUnit_kept
      | with_reducible apply Kept.step State.countFab_kept | with_reducible apply Kept.step State.modFabric_kept | (show _ = _; rfl) | split

theorem execDeepbufScrub_next {s : State} {x0} : ∃ t, execDeepbufScrub x0 s = .next t ∧ Kept [.regs, .host, .cores] s t := by
  refine ⟨_, rfl, ?_⟩; repeat' first
      | intro _ | with_reducible assumption | with_reducible exact Kept.refl | with_reducible apply State.start_kept
      | with_reducible apply Kept.step State.complete_kept | with_reducible apply State.startLong_kept | (show _ = _; rfl) | split

theorem execEgressSelect_next {s : State} {x0} :
    ∃ t, execEgressSelect x0 s = .next t ∧ Kept [.regs, .ctr, .host, .cores, .lanes, .ports, .fabric, .cal, .line] s t := by
  refine ⟨_, rfl, ?_⟩; repeat' first
      | (extract_lets +onlyGivenNames v; apply Kept.gen (v := v); subst v; rotate_left; clear_value v; intro h; rotate_right)
      | (extract_lets +onlyGivenNames v; apply Kept.gen (v := v.1); subst v; rotate_left; clear_value v; intro h; rotate_right)
      | with_reducible assumption | with_reducible exact Kept.refl | with_reducible apply Kept.step State.dropAged_kept
      | with_reducible apply Kept.step State.selectQueue_kept | with_reducible apply Kept.step State.beginOwn_kept
      | with_reducible apply Kept.step State.beginTx_kept | (show _ = _; rfl) | split

end Sys2Proof.Machine
end

