-- ==== Sys2Proof/Laws/FrameMeasRows.lean ====
section
/-!
SUPPORT. Sys2Proof/Laws/FrameMeasRows.lean: what each operation of Machine/MeasRows.lean may change, and that it keeps the canonical forms.
-/
namespace Sys2Proof.Machine
open Sys2Proof

theorem State.evoutWrite_kept {s : State} {x1 x2 x3 x4} : Kept [.regs, .cores, .redund, .waiting] s (State.evoutWrite s x1 x2 x3 x4) := by
  unfold State.evoutWrite; repeat' first
      | intro _ | (extract_lets +onlyGivenNames v; apply Kept.gen (v := v); subst v; rotate_left; clear_value v; intro h; rotate_right)
      | with_reducible assumption | with_reducible exact Kept.refl | with_reducible apply Kept.ite
      | with_reducible apply Kept.step State.setF_kept | with_reducible apply State.byWriter_kept
      | with_reducible apply Kept.step State.putRw_kept | (show _ = _; rfl)

theorem State.later_kept {s : State} {x1 x2 x3} : Kept [.regs, .cores, .redund, .waiting, .written] s (State.later s x1 x2 x3) := by
  unfold State.later; repeat' first
      | intro _ | with_reducible assumption | with_reducible exact Kept.refl | with_reducible apply State.byWriter_kept
      | with_reducible apply Kept.step State.wait_kept | with_reducible apply Kept.step State.took_kept | (show _ = _; rfl) | split

theorem State.fmWrite_kept {s : State} {x1 x2 x3 x4} : Kept [.regs, .cores, .redund, .waiting, .written] s (State.fmWrite s x1 x2 x3 x4) := by
  unfold State.fmWrite; repeat' first | with_reducible exact Kept.refl | with_reducible apply Kept.step State.later_kept | (show _ = _; rfl) | split

theorem State.evinConfig_kept {s : State} {x1 x2} : Kept [.meas] s (State.evinConfig s x1 x2) := by
  unfold State.evinConfig; repeat' first
      | with_reducible exact Kept.refl | with_reducible apply Kept.step State.modMeas_kept | (show _ = _; rfl) | split

theorem State.fmBoundary_kept {s : State} {x1} : Kept [.regs, .host, .cores, .meas] s (State.fmBoundary s x1) := by
  unfold State.fmBoundary; repeat' first
      | (extract_lets +onlyGivenNames v; apply Kept.gen (v := v); subst v; rotate_left; clear_value v; intro h; rotate_right)
      | (extract_lets +onlyGivenNames v; clear_value v) | with_reducible assumption | with_reducible exact Kept.refl
      | with_reducible apply Kept.step State.fmStart_kept | with_reducible apply Kept.step State.late_kept
      | with_reducible apply Kept.step State.modFm_kept | with_reducible apply Kept.step State.fmOpen_kept
      | with_reducible apply Kept.step State.fmRelease_kept | with_reducible apply Kept.step State.endLong_kept | (show _ = _; rfl) | split

theorem State.refinEdge_kept {s : State} {x1 x2 x3} : Kept [.regs, .refs, .meas] s (State.refinEdge s x1 x2 x3) := by
  unfold State.refinEdge; repeat' first
      | (extract_lets +onlyGivenNames v; apply Kept.gen (v := v); subst v; rotate_left; clear_value v; intro h; rotate_right)
      | with_reducible assumption | with_reducible exact Kept.refl | with_reducible apply Kept.ite
      | with_reducible apply Kept.step State.unitEdge_kept | with_reducible apply Kept.step State.candEdge_kept | (show _ = _; rfl)

theorem State.evinEdge_kept {s : State} {x1 x2 x3} : Kept [.regs, .meas] s (State.evinEdge s x1 x2 x3) := by
  unfold State.evinEdge; repeat' first
      | with_reducible exact Kept.refl | with_reducible apply Kept.step State.unitEdge_kept | with_reducible apply Kept.step State.bump_kept
      | with_reducible apply Kept.step State.modMeas_kept | (show _ = _; rfl) | split

theorem State.sharedOn_kept {s : State} : Kept [.refs] s (State.sharedOn s) := by
  unfold State.sharedOn; repeat' first
      | intro _ | with_reducible assumption | with_reducible exact Kept.refl | with_reducible apply Kept.step State.clkHold_kept
      | with_reducible apply State.each_kept | with_reducible apply Kept.step State.clkAlign_kept | (show _ = _; rfl)

theorem execFreqLong_next {s : State} {x0} : ∃ t, execFreqLong x0 s = .next t ∧ Kept [.regs, .host, .cores, .meas] s t := by
  refine ⟨_, rfl, ?_⟩; repeat' first
      | intro _ | with_reducible assumption | with_reducible exact Kept.refl | with_reducible apply State.start_kept
      | with_reducible apply Kept.step State.complete_kept | with_reducible apply State.startLong_kept
      | with_reducible apply Kept.step State.showFm_kept | with_reducible apply Kept.step State.modFm_kept | (show _ = _; rfl) | split

theorem execFmCfgWrite_next {s : State} {x0 x1 x2 x3} :
    ∃ t, execFmCfgWrite x0 x1 x2 x3 s = .next t ∧ Kept [.regs, .cores, .redund, .waiting, .written] s t := by
  refine ⟨_, rfl, ?_⟩; repeat' first | with_reducible exact Kept.refl | with_reducible apply Kept.step State.fmWrite_kept | (show _ = _; rfl)

theorem execRefinEdge_next {s : State} {x0 x1 x2} : ∃ t, execRefinEdge x0 x1 x2 s = .next t ∧ Kept [.regs, .refs, .meas] s t := by
  refine ⟨_, rfl, ?_⟩; repeat' first
      | with_reducible exact Kept.refl | with_reducible apply Kept.step State.refinEdge_kept | (show _ = _; rfl) | split

theorem execEvinEdge_next {s : State} {x0 x1 x2} : ∃ t, execEvinEdge x0 x1 x2 s = .next t ∧ Kept [.regs, .meas] s t := by
  refine ⟨_, rfl, ?_⟩; repeat' first
      | with_reducible exact Kept.refl | with_reducible apply Kept.step State.evinEdge_kept | (show _ = _; rfl) | split

theorem execPulseLoad_next {s : State} {x0} : ∃ t, execPulseLoad x0 s = .next t ∧ Kept [.regs, .host, .cores, .meas] s t := by
  refine ⟨_, rfl, ?_⟩; repeat' first
      | intro _ | with_reducible assumption | with_reducible exact Kept.refl | with_reducible apply Kept.step State.parkId_kept
      | with_reducible apply State.start_kept | with_reducible apply Kept.step State.modEvout_kept
      | with_reducible apply Kept.step State.complete_kept | (show _ = _; rfl) | split

theorem execImCfgWrite_next {s : State} {x0 x1 x2 x3} :
    ∃ t, execImCfgWrite x0 x1 x2 x3 s = .next t ∧ Kept [.regs, .cores, .redund, .waiting, .written] s t := by
  refine ⟨_, rfl, ?_⟩; repeat' first | with_reducible exact Kept.refl | with_reducible apply Kept.step State.later_kept | (show _ = _; rfl)

theorem execEvoutPulse_next {s : State} {x0 x1} : ∃ t, execEvoutPulse x0 x1 s = .next t ∧ Kept [.regs, .host, .cores, .meas] s t := by
  refine ⟨_, rfl, ?_⟩; repeat' first
      | with_reducible exact Kept.refl | with_reducible apply Kept.step State.evoutEdge_kept | (show _ = _; rfl) | split

theorem execEvoutLoad_next {s : State} {x0 x1 x2} : ∃ t, execEvoutLoad x0 x1 x2 s = .next t ∧ Kept [.regs, .cores, .redund, .waiting] s t := by
  refine ⟨_, rfl, ?_⟩; repeat' first | with_reducible exact Kept.refl | with_reducible apply Kept.step State.evoutWrite_kept | (show _ = _; rfl)

theorem execMeasPost_next {s : State} : ∃ t, execMeasPost s = .next t ∧ Kept [.regs, .host, .cores, .meas] s t := by
  refine ⟨_, rfl, ?_⟩; repeat' first
      | with_reducible exact Kept.refl | with_reducible apply Kept.step State.measPost_kept | (show _ = _; rfl) | split

theorem execPendingStopExpire_next {s : State} {x0 x1} : ∃ t, execPendingStopExpire x0 x1 s = .next t ∧ Kept [.regs, .meas] s t := by
  refine ⟨_, rfl, ?_⟩; repeat' first
      | with_reducible exact Kept.refl | with_reducible apply Kept.step State.imExpire_kept | (show _ = _; rfl) | split

theorem execFmGateEnd_next {s : State} {x0} : ∃ t, execFmGateEnd x0 s = .next t ∧ Kept [.regs, .host, .cores, .mem, .meas] s t := by
  refine ⟨_, rfl, ?_⟩; repeat' first | with_reducible exact Kept.refl | with_reducible apply Kept.step State.fmEnd_kept | (show _ = _; rfl) | split

theorem execBoardIntlkSample_next {s : State} {x0} :
    ∃ t, execBoardIntlkSample x0 s = .next t ∧ Kept [.regs, .host, .cores, .refs, .redund] s t := by
  refine ⟨_, rfl, ?_⟩; repeat' first
      | (extract_lets +onlyGivenNames v; apply Kept.gen (v := v); subst v; rotate_left; clear_value v; intro h; rotate_right)
      | with_reducible assumption | with_reducible exact Kept.refl | with_reducible apply Kept.step State.boardEvent_kept
      | with_reducible apply Kept.step State.setF_kept | with_reducible apply Kept.step State.modRedund_kept
      | with_reducible apply Kept.step State.sharedOn_kept | (show _ = _; rfl) | split

theorem execMeasWindowEnd_next {s : State} {x0} : ∃ t, execMeasWindowEnd x0 s = .next t ∧ Kept [.regs, .meas] s t := by
  refine ⟨_, rfl, ?_⟩; repeat' first | with_reducible exact Kept.refl | with_reducible apply Kept.step State.imEnd_kept | (show _ = _; rfl) | split

end Sys2Proof.Machine
end

