-- ==== Sys2Proof/Laws/FrameHostIf.lean ====
section
/-!
SUPPORT. Sys2Proof/Laws/FrameHostIf.lean: what each operation of Machine/HostIf.lean may change, and that it keeps the canonical forms.
-/
namespace Sys2Proof.Machine
open Sys2Proof

theorem State.modHost_kept {s : State} {x1} : Kept [.host] s (State.modHost s x1) := by
  unfold State.modHost; repeat' first | with_reducible exact Kept.refl | (show _ = _; rfl) | with_reducible apply Kept.put_host

theorem State.issueFetch_kept {s : State} {x1 x2} : Kept [.host] s (State.issueFetch s x1 x2) := by
  unfold State.issueFetch; repeat' first | with_reducible exact Kept.refl | with_reducible apply Kept.step State.modHost_kept | (show _ = _; rfl)

theorem State.issueKick_kept {s : State} : Kept [.regs, .host] s (State.issueKick s) := by
  unfold State.issueKick; repeat' first
      | with_reducible exact Kept.refl | with_reducible apply Kept.step State.bump_kept | with_reducible apply Kept.step State.issueFetch_kept
      | with_reducible apply Kept.step State.modHost_kept | (show _ = _; rfl) | split

theorem State.kicked_kept {s : State} : Kept [.regs, .host] s (State.kicked s) := by
  unfold State.kicked; repeat' first
      | with_reducible exact Kept.refl | with_reducible apply Kept.step State.issueKick_kept
      | with_reducible apply Kept.step State.modHost_kept | (show _ = _; rfl) | split

theorem State.showFetchNow_kept {s : State} : Kept [.regs] s (State.showFetchNow s) := by
  unfold State.showFetchNow; repeat' first
      | with_reducible exact Kept.refl | with_reducible apply Kept.step State.setF_kept | (show _ = _; rfl) | split

theorem State.fetchNow_kept {s : State} : Kept [.regs, .host] s (State.fetchNow s) := by
  unfold State.fetchNow; repeat' first
      | with_reducible exact Kept.refl | with_reducible apply Kept.step State.setF_kept | with_reducible apply Kept.step State.kicked_kept
      | with_reducible apply Kept.step State.showFetchNow_kept | (show _ = _; rfl) | split

theorem State.nextFetch_kept {s : State} : Kept [.regs, .host] s (State.nextFetch s) := by
  unfold State.nextFetch; repeat' first
      | with_reducible exact Kept.refl | with_reducible apply Kept.step State.issueKick_kept
      | with_reducible apply Kept.step State.issueFetch_kept | with_reducible apply Kept.step State.modHost_kept | (show _ = _; rfl) | split

theorem State.hostCmdWrite_kept {s : State} {x1} : Kept [.regs] s (State.hostCmdWrite s x1) := by
  unfold State.hostCmdWrite; repeat' first
      | with_reducible exact Kept.refl | with_reducible apply Kept.step State.setF_kept | with_reducible apply Kept.step State.putRw_kept
      | (show _ = _; rfl) | split

theorem State.hostDmaWrite_kept {s : State} {x1} : Kept [.regs] s (State.hostDmaWrite s x1) := by
  unfold State.hostDmaWrite; repeat' first
      | with_reducible exact Kept.refl | with_reducible apply Kept.step State.setF_kept | with_reducible apply Kept.step State.putRw_kept
      | (show _ = _; rfl) | split

theorem State.dropHeld_kept {s : State} {x1} : Kept [.regs, .host] s (State.dropHeld s x1) := by
  unfold State.dropHeld; repeat' first
      | with_reducible exact Kept.refl | with_reducible apply Kept.step State.bump_kept | with_reducible apply Kept.step State.modHost_kept
      | (show _ = _; rfl)

theorem State.ringOpen_kept {s : State} {x1} : Kept [.regs, .host, .cores] s (State.ringOpen s x1) := by
  unfold State.ringOpen; repeat' first
      | (extract_lets +onlyGivenNames v; apply Kept.gen (v := v); subst v; rotate_left; clear_value v; intro h; rotate_right)
      | with_reducible assumption | with_reducible exact Kept.refl | with_reducible apply Kept.ite
      | with_reducible apply Kept.step State.showFull_kept | with_reducible apply Kept.step State.setReg_kept
      | with_reducible apply Kept.step State.setF_kept | with_reducible apply Kept.step State.dropHeld_kept
      | with_reducible apply Kept.step State.flushCpl_kept | with_reducible apply Kept.step State.modHost_kept
      | with_reducible apply Kept.step State.reportLost_kept | (show _ = _; rfl)

theorem State.ringCfgWrite_kept {s : State} {x1 x2} : Kept [.regs, .host, .cores] s (State.ringCfgWrite s x1 x2) := by
  unfold State.ringCfgWrite; repeat' first
      | (extract_lets +onlyGivenNames v; apply Kept.gen (v := v); subst v; rotate_left; clear_value v; intro h; rotate_right)
      | with_reducible assumption | with_reducible exact Kept.refl | with_reducible apply Kept.step State.ringOpen_kept
      | with_reducible apply Kept.step State.setF_kept | with_reducible apply Kept.step State.dropHeld_kept
      | with_reducible apply Kept.step State.putRw_kept | with_reducible apply Kept.step State.modHost_kept | (show _ = _; rfl) | split

theorem State.useCto_kept {s : State} {x1} : Kept [.regs] s (State.useCto s x1) := by
  unfold State.useCto; repeat' first
      | with_reducible exact Kept.refl | with_reducible apply Kept.ite | with_reducible apply Kept.step State.setF_kept | (show _ = _; rfl)

theorem State.hostReset_kept {s : State} {x1} : Kept [.regs, .host, .waiting] s (State.hostReset s x1) := by
  unfold State.hostReset; repeat' first
      | intro _ | (extract_lets +onlyGivenNames v; apply Kept.gen (v := v); subst v; rotate_left; clear_value v; intro h; rotate_right)
      | with_reducible assumption | with_reducible exact Kept.refl | with_reducible apply Kept.step State.setReg_kept
      | with_reducible apply Kept.step State.bump_kept | with_reducible apply Kept.step State.useCto_kept
      | with_reducible apply Kept.step State.handleGone_kept | with_reducible apply Kept.step State.regsRestore_kept
      | with_reducible apply State.each_kept | with_reducible apply Kept.step State.modHost_kept | (show _ = _; rfl) | split

theorem State.statBlock_kept {s : State} : Kept [.host] s (State.statBlock s) := by
  unfold State.statBlock; repeat' first
      | with_reducible exact Kept.refl | with_reducible apply Kept.step State.post_kept | (show _ = _; rfl) | split

theorem State.beatFetch_kept {s : State} : Kept [.regs, .host] s (State.beatFetch s) := by
  unfold State.beatFetch; repeat' first
      | (extract_lets +onlyGivenNames v; apply Kept.gen (v := v); subst v; rotate_left; clear_value v; intro h; rotate_right)
      | with_reducible assumption | with_reducible exact Kept.refl | with_reducible apply Kept.step State.statBlock_kept
      | with_reducible apply Kept.step State.issueFetch_kept | with_reducible apply Kept.step State.modHost_kept
      | with_reducible apply Kept.step State.showFetchNow_kept | (show _ = _; rfl) | split

theorem State.ringFail_kept {s : State} {x1 x2 x3} : Kept [.regs, .host, .cores] s (State.ringFail s x1 x2 x3) := by
  unfold State.ringFail; repeat' first
      | (extract_lets +onlyGivenNames v; apply Kept.gen (v := v); subst v; rotate_left; clear_value v; intro h; rotate_right)
      | with_reducible assumption | with_reducible exact Kept.refl | with_reducible apply Kept.step State.setF_kept
      | with_reducible apply Kept.step State.raise_kept | with_reducible apply Kept.step State.modHost_kept | (show _ = _; rfl)

theorem State.ringIndex_kept {s : State} {x1 x2} : Kept [.regs, .host, .cores] s (State.ringIndex s x1 x2) := by
  unfold State.ringIndex; repeat' first
      | with_reducible exact Kept.refl | with_reducible apply Kept.ite | with_reducible apply Kept.step State.showFull_kept
      | with_reducible apply Kept.step State.setReg_kept | with_reducible apply Kept.step State.ringFail_kept | (show _ = _; rfl)

theorem State.fetchLate_kept {s : State} : Kept [.regs, .host, .cores] s (State.fetchLate s) := by
  unfold State.fetchLate; repeat' first
      | (extract_lets +onlyGivenNames v; apply Kept.gen (v := v); subst v; rotate_left; clear_value v; intro h; rotate_right)
      | with_reducible assumption | with_reducible exact Kept.refl | with_reducible apply Kept.step State.late_kept
      | with_reducible apply Kept.step State.nextFetch_kept | with_reducible apply State.when_kept
      | with_reducible apply Kept.step State.modHost_kept | with_reducible apply Kept.step State.showFetchNow_kept | (show _ = _; rfl)

theorem State.userCopy_kept {s : State} {x1} : Kept [.host, .cores] s (State.userCopy s x1) := by
  unfold State.userCopy; repeat' first
      | intro _ | (extract_lets +onlyGivenNames v; apply Kept.gen (v := v); subst v; rotate_left; clear_value v; intro h; rotate_right)
      | with_reducible assumption | with_reducible exact Kept.refl | with_reducible apply State.each_kept
      | with_reducible apply Kept.step State.raiseInt_kept | with_reducible apply Kept.step State.modHost_kept | (show _ = _; rfl) | split

theorem State.pcieEvent_kept {s : State} {x1 x2} : Kept [.regs, .host, .cores] s (State.pcieEvent s x1 x2) := by
  unfold State.pcieEvent; repeat' first | with_reducible exact Kept.refl | with_reducible apply Kept.step State.raise_kept | (show _ = _; rfl)

theorem State.showRecovering_kept {s : State} : Kept [.regs] s (State.showRecovering s) := by
  unfold State.showRecovering; repeat' first | with_reducible exact Kept.refl | with_reducible apply Kept.step State.setF_kept | (show _ = _; rfl)

end Sys2Proof.Machine
end

