-- ==== Sys2Proof/Laws/FrameHostRows.lean ====
section
/-!
SUPPORT. Sys2Proof/Laws/FrameHostRows.lean: what each operation of Machine/HostRows.lean may change, and that it keeps the canonical forms.
-/
namespace Sys2Proof.Machine
open Sys2Proof

theorem State.dmaOffWrite_kept {s : State} {x1} : Kept [.regs, .host] s (State.dmaOffWrite s x1) := by
  unfold State.dmaOffWrite; repeat' first
      | intro _ | (extract_lets +onlyGivenNames v; apply Kept.gen (v := v); subst v; rotate_left; clear_value v; intro h; rotate_right)
      | with_reducible assumption | with_reducible exact Kept.refl | with_reducible apply Kept.step State.txPop_kept
      | with_reducible apply Kept.step State.setF_kept | with_reducible apply State.each_kept
      | with_reducible apply Kept.step State.nextFetch_kept | with_reducible apply Kept.step State.writeEntry_kept
      | with_reducible apply Kept.step State.flushCpl_kept | with_reducible apply Kept.step State.modHost_kept | (show _ = _; rfl) | split

theorem State.admitHost_kept {s : State} {x1 x2 x3} :
    Kept [.regs, .ctr, .host, .cores, .lanes, .ports, .fabric, .cal, .line] s (State.admitHost s x1 x2 x3) := by
  induction x3 generalizing s with
  | zero => exact Kept.refl
  | succ n ih => unfold State.admitHost; repeat' first
      | with_reducible apply Kept.step ih | with_reducible exact Kept.refl | with_reducible apply Kept.step State.admitCell_kept
      | (show _ = _; rfl) | split

theorem State.txAdmit_kept {s : State} {x1 x2 x3} :
    Kept [.regs, .ctr, .host, .cores, .lanes, .ports, .fabric, .cal, .line] s (State.txAdmit s x1 x2 x3) := by
  unfold State.txAdmit; repeat' first
      | (extract_lets +onlyGivenNames v; apply Kept.gen (v := v); subst v; rotate_left; clear_value v; intro h; rotate_right)
      | with_reducible assumption | with_reducible exact Kept.refl | with_reducible apply Kept.step State.admitHost_kept
      | with_reducible apply Kept.step State.frameIn_kept | with_reducible apply Kept.step State.modFabric_kept | (show _ = _; rfl)

theorem State.rxFill_kept {s : State} {x1 x2 x3 x4 x5} : Kept [.host, .freeCtr] s (State.rxFill s x1 x2 x3 x4 x5) := by
  induction x4 generalizing s x5 with
  | zero => exact Kept.refl
  | succ n ih => unfold State.rxFill; repeat' first
      | with_reducible apply Kept.step ih | with_reducible exact Kept.refl | with_reducible apply Kept.step State.fresh_kept
      | with_reducible apply Kept.step State.post_kept | (show _ = _; rfl)

theorem State.readRecovered_kept {s : State} {x1} : Kept [.host] s (State.readRecovered s x1) := by
  unfold State.readRecovered; repeat' first
      | with_reducible exact Kept.refl | with_reducible apply Kept.step State.modParked_kept
      | with_reducible apply Kept.step State.modLong_kept | with_reducible apply Kept.step State.modHost_kept | (show _ = _; rfl) | split

theorem State.dropWait_kept {s : State} {x1} : Kept [.regs, .time, .power, .host, .ports, .pipes, .meas, .redund] s (State.dropWait s x1) := by
  unfold State.dropWait; repeat' first
      | intro _ | (extract_lets +onlyGivenNames v; apply Kept.gen (v := v); subst v; rotate_left; clear_value v; intro h; rotate_right)
      | (extract_lets +onlyGivenNames v; have q : TimeSt := v; clear q; subst v) | (extract_lets +onlyGivenNames v; clear_value v)
      | with_reducible assumption | with_reducible exact Kept.refl | with_reducible apply Kept.step State.setF_kept
      | with_reducible apply Kept.step State.modEvout_kept | with_reducible apply State.each_kept
      | with_reducible apply Kept.step State.busStart_kept | with_reducible apply Kept.step State.modRedund_kept
      | with_reducible apply Kept.step State.modBus_kept | with_reducible apply Kept.step State.modHost_kept | (show _ = _; rfl) | split
      | with_reducible apply Kept.put_pipesTime | with_reducible apply Kept.put_ports | with_reducible apply Kept.put_power

theorem execPerstN_next {s : State} : ∃ t, execPerstN s = .next t ∧ Kept [.regs, .host, .waiting] s t := by
  refine ⟨_, rfl, ?_⟩; repeat' first
      | with_reducible exact Kept.refl | with_reducible apply Kept.step State.hostReset_kept | (show _ = _; rfl) | split

theorem execKick_next {s : State} : ∃ t, execKick s = .next t ∧ Kept [.regs, .host] s t := by
  refine ⟨_, rfl, ?_⟩; repeat' first | with_reducible exact Kept.refl | with_reducible apply Kept.step State.kicked_kept | (show _ = _; rfl)

theorem execFetchNow_next {s : State} : ∃ t, execFetchNow s = .next t ∧ Kept [.regs, .host] s t := by
  refine ⟨_, rfl, ?_⟩; repeat' first | with_reducible exact Kept.refl | with_reducible apply Kept.step State.fetchNow_kept | (show _ = _; rfl)

theorem execMsixSignal_next {s : State} {x0} : ∃ t, execMsixSignal x0 s = .next t ∧ Kept [.regs, .cnt, .time, .host] s t := by
  refine ⟨_, rfl, ?_⟩; repeat' first
      | (extract_lets +onlyGivenNames v; apply Kept.gen (v := v); subst v; rotate_left; clear_value v; intro h; rotate_right)
      | with_reducible assumption | with_reducible exact Kept.refl | with_reducible apply Kept.step State.reachTick_kept
      | with_reducible apply Kept.step State.signal_kept | (show _ = _; rfl) | split

theorem execDlDown_next {s : State} : ∃ t, execDlDown s = .next t ∧ Kept [.regs, .host, .waiting] s t := by
  refine ⟨_, rfl, ?_⟩; repeat' first
      | with_reducible exact Kept.refl | with_reducible apply Kept.step State.hostReset_kept | (show _ = _; rfl) | split

theorem execUnassignedOpcode_next {s : State} {x0 x1} : ∃ t, execUnassignedOpcode x0 x1 s = .next t ∧ Kept [.regs, .host, .cores] s t := by
  refine ⟨_, rfl, ?_⟩; repeat' first
      | with_reducible exact Kept.refl | with_reducible apply Kept.step State.fetched_kept | with_reducible apply Kept.step State.complete_kept
      | with_reducible apply Kept.step State.cmdWaits_kept | (show _ = _; rfl) | split

theorem execDoorbellData_next {s : State} {x0} : ∃ t, execDoorbellData x0 s = .next t ∧ Kept [.regs, .host, .cores] s t := by
  refine ⟨_, rfl, ?_⟩; repeat' first
      | intro _ | (extract_lets +onlyGivenNames v; apply Kept.gen (v := v); subst v; rotate_left; clear_value v; intro h; rotate_right)
      | with_reducible assumption | with_reducible exact Kept.refl | with_reducible apply Kept.step State.ringIndex_kept
      | with_reducible apply State.each_kept | with_reducible apply Kept.step State.nextFetch_kept
      | with_reducible apply Kept.step State.fetchLate_kept | with_reducible apply Kept.step State.userCopy_kept
      | with_reducible apply Kept.step State.modHost_kept | with_reducible apply Kept.step State.showFetchNow_kept | (show _ = _; rfl) | split

theorem execRxWriteback_next {s : State} {x0} : ∃ t, execRxWriteback x0 s = .next t ∧ Kept [.regs, .host, .fabric, .freeCtr] s t := by
  refine ⟨_, rfl, ?_⟩; repeat' first
      | (extract_lets +onlyGivenNames v; apply Kept.gen (v := v); subst v; rotate_left; clear_value v; intro h; rotate_right)
      | with_reducible assumption | with_reducible exact Kept.refl | with_reducible apply Kept.ite
      | with_reducible apply Kept.step State.bump_kept | with_reducible apply Kept.step State.rxFill_kept
      | with_reducible apply Kept.step State.signalSoon_kept | with_reducible apply Kept.step State.modFabric_kept
      | with_reducible apply Kept.step State.advance_kept | (show _ = _; rfl) | split

theorem execCmdTimeout_next {s : State} {x0} :
    ∃ t, execCmdTimeout x0 s = .next t ∧ Kept [.regs, .time, .power, .host, .cores, .ports, .pipes, .meas, .redund] s t := by
  refine ⟨_, rfl, ?_⟩; repeat' first
      | with_reducible exact Kept.refl | with_reducible apply Kept.step State.bump_kept | with_reducible apply Kept.step State.dropWait_kept
      | with_reducible apply Kept.step State.endParked_kept | (show _ = _; rfl) | split

theorem execCtoConfigWrite_next {s : State} {x0} : ∃ t, execCtoConfigWrite x0 s = .next t ∧ Kept [.regs, .host] s t := by
  refine ⟨_, rfl, ?_⟩; repeat' first
      | with_reducible exact Kept.refl | with_reducible apply Kept.step State.useCto_kept | with_reducible apply Kept.step State.modHost_kept
      | (show _ = _; rfl) | split

theorem execPcieLinkRecovery_next {s : State} {x0} : ∃ t, execPcieLinkRecovery x0 s = .next t ∧ Kept [.regs, .host, .cores] s t := by
  refine ⟨_, rfl, ?_⟩; repeat' first
      | (extract_lets +onlyGivenNames v; apply Kept.gen (v := v); subst v; rotate_left; clear_value v; intro h; rotate_right)
      | with_reducible assumption | with_reducible exact Kept.refl | with_reducible apply Kept.step State.bump_kept
      | with_reducible apply Kept.step State.pcieEvent_kept | with_reducible apply Kept.step State.showRecovering_kept
      | with_reducible apply Kept.step State.modHost_kept | (show _ = _; rfl) | split

theorem execTxDescriptor_next {s : State} {x0 x1 x2} :
    ∃ t, execTxDescriptor x0 x1 x2 s = .next t ∧ Kept [.regs, .ctr, .power, .host, .cores, .lanes, .ports, .fabric, .cal, .line] s t := by
  refine ⟨_, rfl, ?_⟩; repeat' first
      | (extract_lets +onlyGivenNames v; apply Kept.gen (v := v); subst v; rotate_left; clear_value v; intro h; rotate_right)
      | with_reducible assumption | with_reducible exact Kept.refl | with_reducible apply Kept.ite
      | with_reducible apply Kept.step State.txAdmit_kept | with_reducible apply Kept.step State.sample_kept
      | with_reducible apply Kept.step State.frameIn_kept | with_reducible apply Kept.step State.countDiscarded_kept
      | with_reducible apply Kept.step State.txDone_kept | with_reducible apply Kept.step State.modHost_kept | (show _ = _; rfl) | split

theorem execNop_next {s : State} {x0} : ∃ t, execNop x0 s = .next t ∧ Kept [.regs, .host, .cores] s t := by
  refine ⟨_, rfl, ?_⟩; repeat' first
      | intro _ | with_reducible assumption | with_reducible exact Kept.refl | with_reducible apply State.start_kept
      | with_reducible apply Kept.step State.complete_kept | (show _ = _; rfl)

theorem execFunctionLevelReset_next {s : State} : ∃ t, execFunctionLevelReset s = .next t ∧ Kept [.regs, .host, .waiting] s t := by
  refine ⟨_, rfl, ?_⟩; repeat' first
      | with_reducible exact Kept.refl | with_reducible apply Kept.step State.hostReset_kept | (show _ = _; rfl) | split

theorem execRingEnable_next {s : State} {x0 x1} : ∃ t, execRingEnable x0 x1 s = .next t ∧ Kept [.regs, .host, .cores] s t := by
  refine ⟨_, rfl, ?_⟩; repeat' first
      | with_reducible exact Kept.refl | with_reducible apply Kept.step State.ringCfgWrite_kept | (show _ = _; rfl) | split

theorem execTxStop_next {s : State} {x0} : ∃ t, execTxStop x0 s = .next t ∧ Kept [.regs] s t := by
  refine ⟨_, rfl, ?_⟩; repeat' first | with_reducible exact Kept.refl | with_reducible apply Kept.step State.setF_kept | (show _ = _; rfl) | split

theorem execCompletionWrite_next {s : State} : ∃ t, execCompletionWrite s = .next t ∧ Kept [.regs, .host] s t := by
  refine ⟨_, rfl, ?_⟩; repeat' first | with_reducible exact Kept.refl | with_reducible apply Kept.step State.flushCpl_kept | (show _ = _; rfl)

theorem execEventLost_next {s : State} : ∃ t, execEventLost s = .next t ∧ Kept [.regs, .host, .cores] s t := by
  refine ⟨_, rfl, ?_⟩; repeat' first | with_reducible exact Kept.refl | with_reducible apply Kept.step State.reportLost_kept | (show _ = _; rfl)

theorem execRingDisable_next {s : State} {x0 x1} : ∃ t, execRingDisable x0 x1 s = .next t ∧ Kept [.regs, .host, .cores] s t := by
  refine ⟨_, rfl, ?_⟩; repeat' first
      | with_reducible exact Kept.refl | with_reducible apply Kept.step State.ringCfgWrite_kept | (show _ = _; rfl) | split

theorem execPcieLinkUp_next {s : State} {x0 x1} : ∃ t, execPcieLinkUp x0 x1 s = .next t ∧ Kept [.regs] s t := by
  refine ⟨_, rfl, ?_⟩; repeat' first | with_reducible exact Kept.refl | with_reducible apply Kept.step State.setF_kept | (show _ = _; rfl) | split

theorem execDmaOff_next {s : State} {x0} : ∃ t, execDmaOff x0 s = .next t ∧ Kept [.regs, .host] s t := by
  refine ⟨_, rfl, ?_⟩; repeat' first
      | with_reducible exact Kept.refl | with_reducible apply Kept.step State.dmaOffWrite_kept | (show _ = _; rfl) | split

theorem execDoorbellDeadline_next {s : State} : ∃ t, execDoorbellDeadline s = .next t ∧ Kept [.regs, .cnt, .time, .host, .cores] s t := by
  refine ⟨_, rfl, ?_⟩; repeat' first
      | (extract_lets +onlyGivenNames v; apply Kept.gen (v := v); subst v; rotate_left; clear_value v; intro h; rotate_right)
      | with_reducible assumption | with_reducible exact Kept.refl | with_reducible apply Kept.step State.reachTick_kept
      | with_reducible apply Kept.step State.fetchLate_kept | (show _ = _; rfl) | split

theorem execHostReadCompletion_next {s : State} {x0} : ∃ t, execHostReadCompletion x0 s = .next t ∧ Kept [.regs, .host, .cores] s t := by
  refine ⟨_, rfl, ?_⟩; repeat' first
      | (extract_lets +onlyGivenNames v; apply Kept.gen (v := v); subst v; rotate_left; clear_value v; intro h; rotate_right)
      | with_reducible assumption | with_reducible exact Kept.refl | with_reducible apply Kept.step State.bump_kept
      | with_reducible apply Kept.step State.pcieEvent_kept | with_reducible apply Kept.step State.readRecovered_kept
      | with_reducible apply Kept.step State.showRecovering_kept | with_reducible apply Kept.step State.modHost_kept | (show _ = _; rfl) | split

end Sys2Proof.Machine
end

