-- ==== Sys2Proof/Laws/FrameTimeRows.lean ====
section
/-!
SUPPORT. Sys2Proof/Laws/FrameTimeRows.lean: what each operation of Machine/TimeRows.lean may change, and that it keeps the canonical forms.
-/
namespace Sys2Proof.Machine
open Sys2Proof

theorem State.snapCtrlWrite_kept {s : State} {x1 x2} : Kept [.regs, .time, .cores, .redund, .waiting] s (State.snapCtrlWrite s x1 x2) := by
  unfold State.snapCtrlWrite; repeat' first
      | intro _ | (extract_lets +onlyGivenNames v; apply Kept.gen (v := v); subst v; rotate_left; clear_value v; intro h; rotate_right)
      | with_reducible assumption | with_reducible exact Kept.refl | with_reducible apply Kept.step State.setF_kept
      | with_reducible apply State.byWriter_kept | with_reducible apply Kept.step State.putRw_kept | with_reducible apply Kept.modTime
      | (show _ = _; rfl) | split

theorem State.tcnt0Stepped_kept {s : State} {x1} : Kept [.regs, .time, .power, .host, .cores, .fabric] s (State.tcnt0Stepped s x1) := by
  unfold State.tcnt0Stepped; repeat' first
      | (extract_lets +onlyGivenNames v; apply Kept.gen (v := v); subst v; rotate_left; clear_value v; intro h; rotate_right)
      | with_reducible assumption | with_reducible exact Kept.refl | with_reducible apply Kept.step State.dipMove_kept
      | with_reducible apply Kept.step State.showBeat_kept | with_reducible apply Kept.step State.raise_kept
      | with_reducible apply Kept.step State.modFabric_kept | with_reducible apply Kept.modTime | (show _ = _; rfl)

theorem State.cntWrite_kept {s : State} {x1 x2} :
    Kept [.regs, .cnt, .time, .power, .host, .cores, .fabric, .servo, .meas] s (State.cntWrite s x1 x2).1 := by
  unfold State.cntWrite; repeat' first
      | (extract_lets +onlyGivenNames v; apply Kept.gen (v := v); subst v; rotate_left; clear_value v; intro h; rotate_right)
      | (extract_lets +onlyGivenNames v; clear_value v) | with_reducible assumption | with_reducible exact Kept.refl
      | with_reducible apply Kept.step State.recordStep_kept | with_reducible apply Kept.step State.addVal_kept
      | with_reducible apply Kept.step State.tcnt0Stepped_kept | with_reducible apply Kept.step State.slotWritten_kept
      | with_reducible apply Kept.step State.setVal_kept | with_reducible apply Kept.step State.finish_kept
      | with_reducible apply Kept.step State.modCnt_kept | with_reducible apply Kept.step State.evoutStep_kept
      | with_reducible apply Kept.step State.showIncr_kept | (show _ = _; rfl) | split

theorem State.dropSkipped_kept {s : State} : Kept [.regs, .time, .host, .cores] s (State.dropSkipped s) := by
  unfold State.dropSkipped; repeat' first
      | intro _ | with_reducible assumption | with_reducible exact Kept.refl | with_reducible apply Kept.step State.late_kept
      | with_reducible apply State.each_kept | with_reducible apply Kept.step State.finish_kept | with_reducible apply Kept.modTime
      | (show _ = _; rfl)

theorem execSnapGo_next {s : State} {x0 x1} : ∃ t, execSnapGo x0 x1 s = .next t ∧ Kept [.regs, .time, .cores, .redund, .waiting] s t := by
  refine ⟨_, rfl, ?_⟩; repeat' first | with_reducible exact Kept.refl | with_reducible apply Kept.step State.snapCtrlWrite_kept | (show _ = _; rfl)

theorem execTcntWrite_next {s : State} {x0} : ∃ t, execTcntWrite x0 s = .next t ∧ Kept [.regs, .time, .host, .cores] s t := by
  refine ⟨_, rfl, ?_⟩; repeat' first
      | intro _ | with_reducible assumption | with_reducible exact Kept.refl | with_reducible apply Kept.step State.parkId_kept
      | with_reducible apply State.start_kept | with_reducible apply Kept.step State.complete_kept | with_reducible apply Kept.modTime
      | (show _ = _; rfl) | split

end Sys2Proof.Machine
end

