-- ==== Sys2Proof/Laws/FrameRefRows.lean ====
section
/-!
SUPPORT. Sys2Proof/Laws/FrameRefRows.lean: what each operation of Machine/RefRows.lean may change, and that it keeps the canonical forms.
-/
namespace Sys2Proof.Machine
open Sys2Proof

theorem State.candWrite_kept {s : State} {x1 x2 x3 x4} : Kept [.regs, .cores, .redund, .waiting, .written] s (State.candWrite s x1 x2 x3 x4) := by
  unfold State.candWrite; repeat' first
      | intro _ | with_reducible assumption | with_reducible exact Kept.refl | with_reducible apply Kept.ite
      | with_reducible apply Kept.step State.setF_kept | with_reducible apply State.byWriter_kept
      | with_reducible apply Kept.step State.wait_kept | with_reducible apply Kept.step State.took_kept | (show _ = _; rfl)

theorem State.clkoutWrite_kept {s : State} {x1 x2 x3} : Kept [.regs, .cores, .refs, .redund, .waiting] s (State.clkoutWrite s x1 x2 x3) := by
  unfold State.clkoutWrite; repeat' first
      | intro _ | (extract_lets +onlyGivenNames v; apply Kept.gen (v := v); subst v; rotate_left; clear_value v; intro h; rotate_right)
      | with_reducible assumption | with_reducible exact Kept.refl | with_reducible apply Kept.ite | with_reducible apply State.byWriter_kept
      | with_reducible apply Kept.step State.clkHold_kept | with_reducible apply Kept.step State.clkAlign_kept
      | with_reducible apply Kept.step State.putRw_kept | with_reducible apply State.when_kept | (show _ = _; rfl)

theorem State.dpllOpened_kept {s : State} {x1 x2} : Kept [.regs, .host, .cores, .refs] s (State.dpllOpened s x1 x2) := by
  unfold State.dpllOpened; repeat' first
      | (extract_lets +onlyGivenNames v; apply Kept.gen (v := v); subst v; rotate_left; clear_value v; intro h; rotate_right)
      | with_reducible assumption | with_reducible exact Kept.refl | with_reducible apply Kept.step State.goDpll_kept
      | with_reducible apply Kept.step State.setReg_kept | with_reducible apply Kept.step State.setF_kept
      | with_reducible apply Kept.step State.modDpll_kept | (show _ = _; rfl)

theorem State.dpllCfgWrite_kept {s : State} {x1 x2 x3} :
    Kept [.regs, .host, .cores, .refs, .redund, .waiting] s (State.dpllCfgWrite s x1 x2 x3) := by
  unfold State.dpllCfgWrite; repeat' first
      | intro _ | (extract_lets +onlyGivenNames v; apply Kept.gen (v := v); subst v; rotate_left; clear_value v; intro h; rotate_right)
      | with_reducible assumption | with_reducible exact Kept.refl | with_reducible apply Kept.ite
      | with_reducible apply Kept.step State.goDpll_kept | with_reducible apply State.byWriter_kept
      | with_reducible apply Kept.step State.dpllSelect_kept | with_reducible apply Kept.step State.putRw_kept
      | with_reducible apply Kept.step State.dpllClose_kept | with_reducible apply Kept.step State.dpllOpened_kept
      | with_reducible apply Kept.step State.modDpll_kept | (show _ = _; rfl) | split

theorem State.swrateWrite_kept {s : State} {x1 x2 x3 x4} : Kept [.regs, .cores, .refs, .redund, .waiting] s (State.swrateWrite s x1 x2 x3 x4) := by
  unfold State.swrateWrite; repeat' first
      | intro _ | (extract_lets +onlyGivenNames v; apply Kept.gen (v := v); subst v; rotate_left; clear_value v; intro h; rotate_right)
      | with_reducible assumption | with_reducible exact Kept.refl | with_reducible apply State.byWriter_kept
      | with_reducible apply Kept.step State.putRw_kept | with_reducible apply Kept.step State.modDpll_kept | (show _ = _; rfl) | split

theorem State.synEnable_kept {s : State} {x1 x2} : Kept [.regs, .host, .cores, .refs] s (State.synEnable s x1 x2) := by
  unfold State.synEnable; repeat' first
      | with_reducible exact Kept.refl | with_reducible apply Kept.ite | with_reducible apply Kept.step State.setF_kept
      | with_reducible apply Kept.step State.synEvent_kept | with_reducible apply Kept.step State.synSearch_kept
      | with_reducible apply State.when_kept | (show _ = _; rfl)

theorem State.synCfgWrite_kept {s : State} {x1 x2 x3} : Kept [.regs, .host, .cores, .refs, .redund, .waiting] s (State.synCfgWrite s x1 x2 x3) := by
  unfold State.synCfgWrite; repeat' first
      | intro _ | (extract_lets +onlyGivenNames v; apply Kept.gen (v := v); subst v; rotate_left; clear_value v; intro h; rotate_right)
      | with_reducible assumption | with_reducible exact Kept.refl | with_reducible apply State.byWriter_kept
      | with_reducible apply Kept.step State.synLoad_kept | with_reducible apply Kept.step State.putRw_kept
      | with_reducible apply Kept.step State.synEnable_kept | (show _ = _; rfl) | split

theorem State.forceTake_kept {s : State} {x1} : Kept [.regs, .host, .cores, .refs] s (State.forceTake s x1) := by
  unfold State.forceTake; repeat' first
      | (extract_lets +onlyGivenNames v; apply Kept.gen (v := v); subst v; rotate_left; clear_value v; intro h; rotate_right)
      | with_reducible assumption | with_reducible exact Kept.refl | with_reducible apply Kept.ite
      | with_reducible apply Kept.step State.modParked_kept | with_reducible apply Kept.step State.setF_kept
      | with_reducible apply Kept.step State.dpllSelect_kept | with_reducible apply Kept.step State.finish_kept
      | with_reducible apply Kept.step State.modDpll_kept | (show _ = _; rfl)

theorem State.candConfig_kept {s : State} {x1 x2} : Kept [.regs, .host, .cores, .refs] s (State.candConfig s x1 x2) := by
  unfold State.candConfig; repeat' first
      | intro _ | (extract_lets +onlyGivenNames v; apply Kept.gen (v := v); subst v; rotate_left; clear_value v; intro h; rotate_right)
      | with_reducible assumption | with_reducible exact Kept.refl | with_reducible apply Kept.step State.dpllSelect_kept
      | with_reducible apply Kept.step State.candStart_kept | with_reducible apply State.each_kept | with_reducible apply State.when_kept
      | (show _ = _; rfl) | split

theorem State.firstStep_kept {s : State} {x1} :
    Kept [.regs, .cnt, .time, .power, .host, .cores, .fabric, .servo, .refs, .meas] s (State.firstStep s x1) := by
  unfold State.firstStep; repeat' first
      | intro _ | (extract_lets +onlyGivenNames v; apply Kept.gen (v := v); subst v; rotate_left; clear_value v; intro h; rotate_right)
      | with_reducible assumption | with_reducible exact Kept.refl | with_reducible apply Kept.step State.goDpll_kept
      | with_reducible apply Kept.step State.recordStep_kept | with_reducible apply Kept.step State.addVal_kept
      | with_reducible apply Kept.step State.tcnt0Stepped_kept | with_reducible apply Kept.step State.setLocked_kept
      | with_reducible apply State.each_kept | with_reducible apply Kept.step State.phasesMove_kept
      | with_reducible apply Kept.step State.clkAlign_kept | with_reducible apply Kept.step State.evoutStep_kept
      | with_reducible apply Kept.step State.modDpll_kept | (show _ = _; rfl) | split

theorem State.forceBoundary_kept {s : State} : Kept [.regs, .host, .cores, .refs] s (State.forceBoundary s) := by
  unfold State.forceBoundary; repeat' first
      | intro _ | with_reducible assumption | with_reducible exact Kept.refl | with_reducible apply Kept.step State.forceTake_kept
      | with_reducible apply State.each_kept | (show _ = _; rfl)

theorem State.esmcSend_kept {s : State} {x1 x2 x3} : Kept [.regs, .cores, .ports, .refs, .redund] s (State.esmcSend s x1 x2 x3) := by
  unfold State.esmcSend; repeat' first
      | (extract_lets +onlyGivenNames v; apply Kept.gen (v := v); subst v; rotate_left; clear_value v; intro h; rotate_right)
      | with_reducible assumption | with_reducible exact Kept.refl | with_reducible apply Kept.step State.pairSend_kept | (show _ = _; rfl)
      | with_reducible apply Kept.put_refs

theorem State.esmcBoundary_kept {s : State} : Kept [.regs, .cores, .ports, .refs, .redund] s (State.esmcBoundary s) := by
  unfold State.esmcBoundary; repeat' first
      | intro _ | with_reducible assumption | with_reducible exact Kept.refl | with_reducible apply Kept.ite
      | with_reducible apply State.each_kept | with_reducible apply Kept.step State.esmcSend_kept | (show _ = _; rfl) | split

theorem State.learnFinal_kept {s : State} {x1 x2} : Kept [.regs, .host, .cores, .waiting] s (State.learnFinal s x1 x2) := by
  unfold State.learnFinal; repeat' first
      | (extract_lets +onlyGivenNames v; apply Kept.gen (v := v); subst v; rotate_left; clear_value v; intro h; rotate_right)
      | with_reducible assumption | with_reducible exact Kept.refl | with_reducible apply Kept.ite
      | with_reducible apply Kept.step State.wait_kept | with_reducible apply Kept.step State.endLong_kept | (show _ = _; rfl)

theorem State.laneRank_kept {s : State} {x1 x2} : Kept [.regs, .cores, .redund, .waiting] s (State.laneRank s x1 x2) := by
  unfold State.laneRank; repeat' first
      | intro _ | with_reducible assumption | with_reducible exact Kept.refl | with_reducible apply Kept.ite
      | with_reducible apply Kept.step State.pairWrite_kept | with_reducible apply State.each_kept | (show _ = _; rfl)

theorem execDpllOpen_next {s : State} {x0 x1 x2} :
    ∃ t, execDpllOpen x0 x1 x2 s = .next t ∧ Kept [.regs, .host, .cores, .refs, .redund, .waiting] s t := by
  refine ⟨_, rfl, ?_⟩; repeat' first | with_reducible exact Kept.refl | with_reducible apply Kept.step State.dpllCfgWrite_kept | (show _ = _; rfl)

theorem execSwrateCommit_next {s : State} {x0 x1 x2} :
    ∃ t, execSwrateCommit x0 x1 x2 s = .next t ∧ Kept [.regs, .cores, .refs, .redund, .waiting] s t := by
  refine ⟨_, rfl, ?_⟩; repeat' first | with_reducible exact Kept.refl | with_reducible apply Kept.step State.swrateWrite_kept | (show _ = _; rfl)

theorem execSynGate_next {s : State} {x0 x1 x2} : ∃ t, execSynGate x0 x1 x2 s = .next t ∧ Kept [.regs, .host, .cores, .refs] s t := by
  refine ⟨_, rfl, ?_⟩; repeat' first
      | with_reducible exact Kept.refl | with_reducible apply Kept.step State.synGate_kept | (show _ = _; rfl) | split

theorem execEsmcRx_next {s : State} {x0 x1} : ∃ t, execEsmcRx x0 x1 s = .next t ∧ Kept [.regs, .cores, .refs, .redund, .waiting] s t := by
  refine ⟨_, rfl, ?_⟩; repeat' first
      | with_reducible exact Kept.refl | with_reducible apply Kept.step State.laneRank_kept | (show _ = _; rfl) | split
      | with_reducible apply Kept.put_refs

theorem execEsmcTimeout_next {s : State} {x0} : ∃ t, execEsmcTimeout x0 s = .next t ∧ Kept [.regs, .cores, .refs, .redund, .waiting] s t := by
  refine ⟨_, rfl, ?_⟩; repeat' first
      | with_reducible exact Kept.refl | with_reducible apply Kept.step State.laneRank_kept | (show _ = _; rfl) | split
      | with_reducible apply Kept.put_refs

theorem execHoTtsExpire_next {s : State} {x0} : ∃ t, execHoTtsExpire x0 s = .next t ∧ Kept [.regs, .host, .cores, .refs] s t := by
  refine ⟨_, rfl, ?_⟩; repeat' first
      | (extract_lets +onlyGivenNames v; apply Kept.gen (v := v); subst v; rotate_left; clear_value v; intro h; rotate_right)
      | with_reducible assumption | with_reducible exact Kept.refl | with_reducible apply Kept.step State.setF_kept
      | with_reducible apply Kept.step State.holdEvent_kept | with_reducible apply Kept.step State.modDpll_kept | (show _ = _; rfl) | split

theorem execCandCfgWrite_next {s : State} {x0 x1 x2 x3} :
    ∃ t, execCandCfgWrite x0 x1 x2 x3 s = .next t ∧ Kept [.regs, .cores, .redund, .waiting, .written] s t := by
  refine ⟨_, rfl, ?_⟩; repeat' first | with_reducible exact Kept.refl | with_reducible apply Kept.step State.candWrite_kept | (show _ = _; rfl)

theorem execHoldoverLearn_next {s : State} {x0} : ∃ t, execHoldoverLearn x0 s = .next t ∧ Kept [.regs, .host, .cores] s t := by
  refine ⟨_, rfl, ?_⟩; repeat' first
      | intro _ | with_reducible assumption | with_reducible exact Kept.refl | with_reducible apply State.start_kept
      | with_reducible apply State.startLong_kept | (show _ = _; rfl)

theorem execSynUpd_next {s : State} {x0 x1 x2} :
    ∃ t, execSynUpd x0 x1 x2 s = .next t ∧ Kept [.regs, .host, .cores, .refs, .redund, .waiting] s t := by
  refine ⟨_, rfl, ?_⟩; repeat' first | with_reducible exact Kept.refl | with_reducible apply Kept.step State.synCfgWrite_kept | (show _ = _; rfl)

theorem execHoldoverLearnSample_next {s : State} {x0} : ∃ t, execHoldoverLearnSample x0 s = .next t ∧ Kept [.host] s t := by
  refine ⟨_, rfl, ?_⟩; repeat' first
      | with_reducible exact Kept.refl | with_reducible apply Kept.ite | with_reducible apply Kept.step State.modLong_kept | (show _ = _; rfl)
      | split

theorem execDpllHistReset_next {s : State} {x0} : ∃ t, execDpllHistReset x0 s = .next t ∧ Kept [.regs, .host, .cores, .refs] s t := by
  refine ⟨_, rfl, ?_⟩; repeat' first
      | intro _ | (extract_lets +onlyGivenNames v; apply Kept.gen (v := v); subst v; rotate_left; clear_value v; intro h; rotate_right)
      | with_reducible assumption | with_reducible exact Kept.refl | with_reducible apply Kept.step State.setReg_kept
      | with_reducible apply State.start_kept | with_reducible apply Kept.step State.setF_kept
      | with_reducible apply Kept.step State.complete_kept | with_reducible apply Kept.step State.modDpll_kept | (show _ = _; rfl) | split

theorem execRefForce_next {s : State} {x0} : ∃ t, execRefForce x0 s = .next t ∧ Kept [.regs, .host, .cores] s t := by
  refine ⟨_, rfl, ?_⟩; repeat' first
      | intro _ | with_reducible assumption | with_reducible exact Kept.refl | with_reducible apply State.start_kept
      | with_reducible apply Kept.step State.complete_kept | with_reducible apply Kept.step State.park_kept | (show _ = _; rfl) | split

end Sys2Proof.Machine
end

