-- ==== Sys2Proof/Laws/FrameSec.lean ====
section
/-!
SUPPORT. Sys2Proof/Laws/FrameSec.lean: what each operation of Machine/Sec.lean may change, and that it keeps the canonical forms.
-/
namespace Sys2Proof.Machine
open Sys2Proof

theorem State.tamperCfgWrite_kept {s : State} {x1 x2} : Kept [.regs] s (State.tamperCfgWrite s x1 x2) := by
  unfold State.tamperCfgWrite; repeat' first
      | with_reducible exact Kept.refl | with_reducible apply Kept.ite | with_reducible apply Kept.step State.setF_kept
      | with_reducible apply Kept.step State.putRw_kept | (show _ = _; rfl)

theorem State.tamperLockWrite_kept {s : State} {x1} : Kept [.regs] s (State.tamperLockWrite s x1) := by
  unfold State.tamperLockWrite; repeat' first
      | with_reducible exact Kept.refl | with_reducible apply Kept.step State.setF_kept | (show _ = _; rfl) | split

theorem State.stageEmpty_kept {s : State} : Kept [.regs, .sec] s (State.stageEmpty s) := by
  unfold State.stageEmpty; repeat' first
      | intro _ | (extract_lets +onlyGivenNames v; apply Kept.gen (v := v); subst v; rotate_left; clear_value v; intro h; rotate_right)
      | with_reducible assumption | with_reducible exact Kept.refl | with_reducible apply Kept.step State.setReg_kept
      | with_reducible apply Kept.step State.setF_kept | with_reducible apply Kept.modSec | with_reducible apply State.each_kept | (show _ = _; rfl)

theorem State.stageDone_kept {s : State} {x1} : Kept [.regs, .sec] s (State.stageDone s x1) := by
  unfold State.stageDone; repeat' first
      | intro _ | (extract_lets +onlyGivenNames v; apply Kept.gen (v := v); subst v; rotate_left; clear_value v; intro h; rotate_right)
      | with_reducible assumption | with_reducible exact Kept.refl | with_reducible apply Kept.step State.setReg_kept
      | with_reducible apply Kept.step State.setF_kept | with_reducible apply Kept.modSec | with_reducible apply State.each_kept | (show _ = _; rfl)

theorem State.fuseRun_kept {s : State} {x1 x2 x3} : Kept [.regs, .sec] s (State.fuseRun s x1 x2 x3).1 := by
  unfold State.fuseRun; repeat' first
      | (extract_lets +onlyGivenNames v; clear_value v) | with_reducible exact Kept.refl | with_reducible apply Kept.step State.setF_kept
      | with_reducible apply Kept.modSec | (show _ = _; rfl) | split

theorem State.runImage_kept {s : State} {x1} : Kept [.regs, .sec] s (State.runImage s x1) := by
  unfold State.runImage; repeat' first
      | with_reducible exact Kept.refl | with_reducible apply Kept.step State.setReg_kept | with_reducible apply Kept.modSec | (show _ = _; rfl)

theorem State.showVsec_kept {s : State} : Kept [.regs] s (State.showVsec s) := by
  unfold State.showVsec; repeat' first | with_reducible exact Kept.refl | with_reducible apply Kept.step State.setReg_kept | (show _ = _; rfl)

theorem State.migrate_kept {s : State} : Kept [.regs, .host, .cores, .sec] s (State.migrate s) := by
  unfold State.migrate; repeat' first
      | (extract_lets +onlyGivenNames v; apply Kept.gen (v := v); subst v; rotate_left; clear_value v; intro h; rotate_right)
      | with_reducible assumption | with_reducible exact Kept.refl | with_reducible apply Kept.step State.setF_kept
      | with_reducible apply Kept.modSec | with_reducible apply Kept.step State.raise_kept | (show _ = _; rfl) | split

theorem State.commitRun_kept {s : State} {x1} : Kept [.regs, .sec] s (State.commitRun s x1).1 := by
  unfold State.commitRun; repeat' first
      | intro _ | (extract_lets +onlyGivenNames v; apply Kept.gen (v := v); subst v; rotate_left; clear_value v; intro h; rotate_right)
      | (extract_lets +onlyGivenNames v; clear_value v) | with_reducible assumption | with_reducible exact Kept.refl
      | with_reducible apply Kept.step State.setF_kept | with_reducible apply Kept.modSec
      | with_reducible apply Kept.step State.stageEmpty_kept | with_reducible apply State.each_kept | (show _ = _; rfl) | split

theorem State.discardRun_kept {s : State} : Kept [.regs, .sec] s (State.discardRun s).1 := by
  unfold State.discardRun; repeat' first
      | with_reducible exact Kept.refl | with_reducible apply Kept.step State.stageEmpty_kept | (show _ = _; rfl) | split

theorem State.fuseCmd_kept {s : State} {x1 x2} : Kept [.regs, .sec] s (State.fuseCmd s x1 x2).1 := by
  unfold State.fuseCmd; repeat' first
      | with_reducible exact Kept.refl | with_reducible apply Kept.step State.fuseRun_kept
      | with_reducible apply Kept.step State.commitRun_kept | with_reducible apply Kept.step State.discardRun_kept | (show _ = _; rfl) | split

theorem State.fuseResume_kept {s : State} : Kept [.regs, .host, .cores, .sec] s (State.fuseResume s) := by
  unfold State.fuseResume; repeat' first
      | intro _ | (extract_lets +onlyGivenNames v; apply Kept.gen (v := v.1); subst v; rotate_left; clear_value v; intro h; rotate_right)
      | with_reducible assumption | with_reducible exact Kept.refl | with_reducible apply State.each_kept
      | with_reducible apply Kept.step State.finish_kept | with_reducible apply Kept.step State.fuseCmd_kept | (show _ = _; rfl)

theorem State.vaultLoss_kept {s : State} : Kept [.regs, .keys, .sec] s (State.vaultLoss s) := by
  unfold State.vaultLoss; repeat' first
      | (extract_lets +onlyGivenNames v; apply Kept.gen (v := v); subst v; rotate_left; clear_value v; intro h; rotate_right)
      | with_reducible assumption | with_reducible exact Kept.refl | with_reducible apply Kept.filterRegs
      | with_reducible apply Kept.step State.modSecKeys_kept | (show _ = _; rfl)

theorem State.markInstalled_kept {s : State} {x1} : Kept [.regs] s (State.markInstalled s x1) := by
  unfold State.markInstalled; repeat' first | with_reducible exact Kept.refl | with_reducible apply Kept.step State.setF_kept | (show _ = _; rfl)

theorem State.tamperEvent_kept {s : State} {x1} : Kept [.regs, .host, .cores] s (State.tamperEvent s x1) := by
  unfold State.tamperEvent; repeat' first | with_reducible exact Kept.refl | with_reducible apply Kept.step State.raise_kept | (show _ = _; rfl)

theorem State.eraseKeys_kept {s : State} : Kept [.regs, .keys] s (State.eraseKeys s) := by
  unfold State.eraseKeys; repeat' first
      | with_reducible exact Kept.refl | with_reducible apply Kept.step State.putKeys_kept | with_reducible apply Kept.step State.setF_kept
      | (show _ = _; rfl)

theorem State.vaultTime_kept {s : State} : Kept [.regs, .sec, .freeCtr] s (State.vaultTime s) := by
  unfold State.vaultTime; repeat' first
      | with_reducible exact Kept.refl | with_reducible apply Kept.step State.fresh_kept | with_reducible apply Kept.modSec
      | with_reducible apply Kept.step State.showVsec_kept | (show _ = _; rfl) | split

theorem State.tamper_kept {s : State} {x1 x2} : Kept [.regs, .host, .cores, .keys, .sec, .freeCtr] s (State.tamper s x1 x2) := by
  unfold State.tamper; repeat' first
      | (extract_lets +onlyGivenNames v; apply Kept.gen (v := v); subst v; rotate_left; clear_value v; intro h; rotate_right)
      | with_reducible assumption | with_reducible exact Kept.refl | with_reducible apply Kept.ite
      | with_reducible apply Kept.step State.setF_kept | with_reducible apply Kept.modSec | with_reducible apply Kept.step State.vaultTime_kept
      | with_reducible apply Kept.step State.tamperEvent_kept | with_reducible apply Kept.step State.eraseKeys_kept | (show _ = _; rfl)

end Sys2Proof.Machine
end

