-- ==== Sys2Proof/Laws/FramePower.lean ====
section
/-!
SUPPORT. Sys2Proof/Laws/FramePower.lean: what each operation of Machine/Power.lean may change, and that it keeps the canonical forms.
-/
namespace Sys2Proof.Machine
open Sys2Proof

theorem State.modPower_kept {s : State} {x1} : Kept [.power] s (State.modPower s x1) := by
  unfold State.modPower; repeat' first | with_reducible exact Kept.refl | (show _ = _; rfl) | with_reducible apply Kept.put_power

theorem State.showDip_kept {s : State} : Kept [.regs] s (State.showDip s) := by
  unfold State.showDip; repeat' first | with_reducible exact Kept.refl | with_reducible apply Kept.step State.setF_kept | (show _ = _; rfl) | split

theorem State.mainStop_kept {s : State} :
    Kept [.regs, .ctr, .cnt, .time, .power, .host, .cores, .mem, .lanes, .ports, .pipes, .fabric, .servo, .cal, .refs, .meas, .redund, .sec, .waiting, .written] s (State.mainStop s) := by
  unfold State.mainStop
  have h : Kept [.regs, .ctr, .cnt, .time, .power, .host, .cores, .mem, .lanes, .ports, .pipes, .fabric, .servo, .cal, .refs, .meas, .redund, .sec, .waiting, .written] s ((s.dpllStop 0).regsReset fun _ => true) :=
    Kept.step State.regsReset_kept (by decide) (Kept.step State.dpllStop_kept (by decide) Kept.refl)
  revert h
  generalize (s.dpllStop 0).regsReset (fun _ => true) = u
  intro h
  refine Kept.step State.showBeat_kept (by decide) (Kept.step State.showIncr_kept (by decide) (Kept.step State.showDip_kept (by decide) ?_))
  refine h.trans ⟨fun p hp => ?_, id, fun _ => rfl⟩
  cases p <;> first | rfl | cases hp

theorem State.resetCtrlWrite_kept {s : State} {x1} : Kept [.regs, .power] s (State.resetCtrlWrite s x1) := by
  unfold State.resetCtrlWrite; repeat' first
      | with_reducible exact Kept.refl | with_reducible apply Kept.step State.setF_kept | with_reducible apply Kept.step State.modPower_kept
      | (show _ = _; rfl) | split

theorem State.wdtCtrlWrite_kept {s : State} {x1} : Kept [.regs, .power] s (State.wdtCtrlWrite s x1) := by
  unfold State.wdtCtrlWrite; repeat' first
      | (extract_lets +onlyGivenNames v; apply Kept.gen (v := v); subst v; rotate_left; clear_value v; intro h; rotate_right)
      | with_reducible assumption | with_reducible exact Kept.refl | with_reducible apply Kept.ite
      | with_reducible apply Kept.step State.putW1c_kept | with_reducible apply Kept.step State.setF_kept
      | with_reducible apply Kept.step State.putRw_kept | with_reducible apply Kept.step State.modPower_kept | (show _ = _; rfl)

theorem State.wdtKickWrite_kept {s : State} {x1 x2} : Kept [.power] s (State.wdtKickWrite s x1 x2) := by
  unfold State.wdtKickWrite; repeat' first
      | with_reducible exact Kept.refl | with_reducible apply Kept.ite | with_reducible apply Kept.step State.modPower_kept | (show _ = _; rfl)

theorem State.dipInts_kept {s : State} : Kept [.cores] s (State.dipInts s) := by
  unfold State.dipInts; repeat' first
      | intro _ | with_reducible assumption | with_reducible exact Kept.refl | with_reducible apply State.each_kept
      | with_reducible apply Kept.step State.raiseInt_kept | (show _ = _; rfl)

theorem State.dipBegin_kept {s : State} {x1} : Kept [.regs, .power, .host, .cores, .cal, .meas] s (State.dipBegin s x1) := by
  unfold State.dipBegin; repeat' first
      | (extract_lets +onlyGivenNames v; apply Kept.gen (v := v); subst v; rotate_left; clear_value v; intro h; rotate_right)
      | with_reducible assumption | with_reducible exact Kept.refl | with_reducible apply Kept.step State.bump_kept
      | with_reducible apply Kept.step State.fmDip_kept | with_reducible apply Kept.step State.calDip_kept
      | with_reducible apply Kept.step State.raise_kept | with_reducible apply Kept.step State.dogMark_kept
      | with_reducible apply Kept.step State.showDip_kept | with_reducible apply Kept.step State.modPower_kept
      | with_reducible apply Kept.step State.dipInts_kept | (show _ = _; rfl) | split

theorem State.showCause_kept {s : State} {x1} : Kept [.regs] s (State.showCause s x1) := by
  unfold State.showCause; repeat' first | with_reducible exact Kept.refl | with_reducible apply Kept.step State.setF_kept | (show _ = _; rfl)

theorem State.mainReset_kept {s : State} {x1 x2} :
    Kept [.regs, .ctr, .cnt, .time, .power, .host, .cores, .mem, .lanes, .ports, .pipes, .fabric, .servo, .cal, .refs, .meas, .redund, .sec, .waiting, .written] s (State.mainReset s x1 x2) := by
  unfold State.mainReset; repeat' first
      | with_reducible exact Kept.refl | with_reducible apply Kept.step State.showCause_kept
      | with_reducible apply Kept.step State.mainStop_kept | with_reducible apply Kept.step State.modPower_kept | (show _ = _; rfl)

theorem State.standbyExit_kept {s : State} :
    Kept [.regs, .ctr, .cnt, .time, .power, .host, .cores, .mem, .lanes, .ports, .pipes, .fabric, .servo, .cal, .refs, .meas, .redund, .sec, .waiting, .written] s (State.standbyExit s) := by
  unfold State.standbyExit; repeat' first
      | with_reducible exact Kept.refl | with_reducible apply Kept.step State.mainReset_kept
      | with_reducible apply Kept.step State.modPower_kept | (show _ = _; rfl)

theorem State.dipEnd_kept {s : State} {x1 x2} : Kept [.regs, .power, .host, .cores, .servo, .sec] s (State.dipEnd s x1 x2) := by
  unfold State.dipEnd; repeat' first
      | (extract_lets +onlyGivenNames v; apply Kept.gen (v := v); subst v; rotate_left; clear_value v; intro h; rotate_right)
      | with_reducible assumption | with_reducible exact Kept.refl | with_reducible apply Kept.step State.raise_kept
      | with_reducible apply Kept.step State.dogMark_kept | with_reducible apply Kept.step State.showDip_kept
      | with_reducible apply Kept.step State.fuseResume_kept | with_reducible apply Kept.step State.modPower_kept
      | with_reducible apply Kept.step State.dipInts_kept | (show _ = _; rfl) | split | with_reducible apply Kept.put_servo

theorem State.islandStop_kept {s : State} :
    Kept [.regs, .ctr, .cnt, .time, .power, .host, .cores, .mem, .lanes, .ports, .pipes, .fabric, .servo, .cal, .refs, .meas, .redund, .sec, .waiting, .written] s (State.islandStop s) := by
  unfold State.islandStop
  have h : Kept [.regs, .ctr, .cnt, .time, .power, .host, .cores, .mem, .lanes, .ports, .pipes, .fabric, .servo, .cal, .refs, .meas, .redund, .sec, .waiting, .written] s { rdata := s.rdata, line := s.line, freeCtr := s.freeCtr, pending := s.pending, host := { posts := s.host.posts }, sec := s.sec.kept } :=
    ⟨fun p hp => by (cases p <;> first | rfl | cases hp), fun _ => rfl, fun _ => rfl⟩
  refine State.each_kept (fun u q k => ?_) h
  split
  · exact k
  · exact Kept.step State.setReg_kept (by decide) k

end Sys2Proof.Machine
end

