-- ==== Sys2Proof/Laws/FrameProfGen.lean ====
section
/-!
SUPPORT. Sys2Proof/Laws/FrameProfGen.lean: what each operation of Machine/ProfGen.lean may change, and that it keeps the canonical forms.
-/
namespace Sys2Proof.Machine
open Sys2Proof

theorem State.genPat_kept {s : State} {x1 x2} : Kept [.pipes] s (State.genPat s x1 x2).1 := by
  unfold State.genPat; repeat' first
      | (extract_lets +onlyGivenNames v; clear_value v) | with_reducible exact Kept.refl | with_reducible apply Kept.step State.modParser_kept
      | (show _ = _; rfl) | split

theorem State.genRec_kept {s : State} {x1 x2} : Kept [.regs, .pipes] s (State.genRec s x1 x2).1 := by
  unfold State.genRec; repeat' first
      | (extract_lets +onlyGivenNames v; apply Kept.gen (v := v.1); subst v; rotate_left; clear_value v; intro h; rotate_right)
      | with_reducible assumption | with_reducible exact Kept.refl | with_reducible apply Kept.step State.twinWrite_kept | (show _ = _; rfl) | split

theorem State.genTcam_kept {s : State} {x1 x2} : Kept [.pipes] s (State.genTcam s x1 x2).1 := by
  unfold State.genTcam; repeat' first
      | (extract_lets +onlyGivenNames v; clear_value v) | with_reducible exact Kept.refl | with_reducible apply Kept.step State.modParser_kept
      | (show _ = _; rfl) | split

theorem State.genWrite_kept {s : State} {x1 x2} : Kept [.regs, .pipes] s (State.genWrite s x1 x2).1 := by
  unfold State.genWrite; repeat' first
      | intro _ | (extract_lets +onlyGivenNames v; apply Kept.gen (v := v); subst v; rotate_left; clear_value v; intro h; rotate_right)
      | (extract_lets +onlyGivenNames v; apply Kept.gen (v := v.1); subst v; rotate_left; clear_value v; intro h; rotate_right)
      | with_reducible assumption | with_reducible exact Kept.refl | with_reducible apply Kept.foldlFst
      | with_reducible apply Kept.step State.genPat_kept | with_reducible apply Kept.step State.modPipe_kept
      | with_reducible apply Kept.step State.showMac_kept | with_reducible apply Kept.step State.showLpm_kept
      | with_reducible apply Kept.step State.genRec_kept | with_reducible apply Kept.step State.genTcam_kept | (show _ = _; rfl)

theorem State.genBoot_kept {s : State} {x1 x2} : Kept [.regs, .pipes] s (State.genBoot s x1 x2) := by
  unfold State.genBoot; repeat' first
      | (extract_lets +onlyGivenNames v; apply Kept.gen (v := v); subst v; rotate_left; clear_value v; intro h; rotate_right)
      | with_reducible assumption | with_reducible exact Kept.refl | with_reducible apply Kept.step State.modPipe_kept
      | with_reducible apply Kept.step State.showGen_kept | with_reducible apply Kept.step State.modParser_kept
      | with_reducible apply Kept.step State.genWrite_kept | with_reducible apply Kept.step State.showLpm_kept | (show _ = _; rfl) | split

theorem State.genStep_kept {s : State} {x1 x2} : Kept [.regs, .ctr, .host, .cores, .pipes] s (State.genStep s x1 x2).1 := by
  unfold State.genStep; repeat' first
      | with_reducible exact Kept.refl | with_reducible apply Kept.step State.countParse_kept
      | with_reducible apply Kept.step State.commitPipe_kept | with_reducible apply Kept.step State.late_kept
      | with_reducible apply Kept.step State.genWrite_kept | (show _ = _; rfl) | split

theorem State.genBoundary_kept {s : State} {x1} : Kept [.regs, .ctr, .power, .host, .cores, .pipes] s (State.genBoundary s x1) := by
  unfold State.genBoundary; repeat' first
      | intro _ | (extract_lets +onlyGivenNames v; apply Kept.gen (v := v.1); subst v; rotate_left; clear_value v; intro h; rotate_right)
      | with_reducible assumption | with_reducible exact Kept.refl | with_reducible apply Kept.foldlFst
      | with_reducible apply Kept.step State.genStep_kept | with_reducible apply Kept.step State.modPower_kept | (show _ = _; rfl)

end Sys2Proof.Machine
end

