-- ==== Sys2Proof/Laws/FramePowerRows.lean ====
section
/-!
SUPPORT. Sys2Proof/Laws/FramePowerRows.lean: what each operation of Machine/PowerRows.lean may change, and that it keeps the canonical forms.
-/
namespace Sys2Proof.Machine
open Sys2Proof

theorem State.powerUp_kept {s : State} : Kept [.power] s (State.powerUp s) := by
  unfold State.powerUp; repeat' first | with_reducible exact Kept.refl | with_reducible apply Kept.step State.modPower_kept | (show _ = _; rfl)

theorem execOscLoss_next {s : State} : ∃ t, execOscLoss s = .next t ∧ Kept [.regs, .power] s t := by
  refine ⟨_, rfl, ?_⟩; repeat' first
      | with_reducible exact Kept.refl | with_reducible apply Kept.step State.setF_kept | with_reducible apply Kept.step State.modPower_kept
      | (show _ = _; rfl) | split

theorem execPowerupRetry_next {s : State} : ∃ t, execPowerupRetry s = .next t ∧ Kept [.power] s t := by
  refine ⟨_, rfl, ?_⟩; repeat' first
      | with_reducible exact Kept.refl | with_reducible apply Kept.step State.powerUp_kept | (show _ = _; rfl) | split

theorem execResetCtrlChip_next {s : State} {x0 x1} : ∃ t, execResetCtrlChip x0 x1 s = .next t ∧ Kept [.regs, .power] s t := by
  refine ⟨_, rfl, ?_⟩; repeat' first
      | with_reducible exact Kept.refl | with_reducible apply Kept.step State.resetCtrlWrite_kept | (show _ = _; rfl) | split

theorem execDipLong_next {s : State} {x0} : ∃ t, execDipLong x0 s = .next t ∧ Kept [.regs, .power, .host, .cores] s t := by
  refine ⟨_, rfl, ?_⟩; repeat' first
      | (extract_lets +onlyGivenNames v; apply Kept.gen (v := v); subst v; rotate_left; clear_value v; intro h; rotate_right)
      | (extract_lets +onlyGivenNames v; clear_value v) | with_reducible assumption | with_reducible exact Kept.refl
      | with_reducible apply Kept.step State.raise_kept | with_reducible apply Kept.step State.modPower_kept | (show _ = _; rfl) | split

theorem execPinReset_next {s : State} :
    ∃ t, execPinReset s = .next t ∧ Kept [.regs, .ctr, .cnt, .time, .power, .host, .cores, .mem, .lanes, .ports, .pipes, .fabric, .servo, .cal, .refs, .meas, .redund, .sec, .waiting, .written] s t := by
  refine ⟨_, rfl, ?_⟩; repeat' first
      | with_reducible exact Kept.refl | with_reducible apply Kept.step State.standbyExit_kept
      | with_reducible apply Kept.step State.mainReset_kept | (show _ = _; rfl) | split

theorem execWdtCtrlWrite_next {s : State} {x0 x1} : ∃ t, execWdtCtrlWrite x0 x1 s = .next t ∧ Kept [.regs, .power] s t := by
  refine ⟨_, rfl, ?_⟩; repeat' first
      | with_reducible exact Kept.refl | with_reducible apply Kept.step State.wdtCtrlWrite_kept | (show _ = _; rfl) | split

theorem execSeqOrderViolation_next {s : State} {x0} (h : 2 ≤ x0 ∧ x0 ≤ 7) : ∃ t, execSeqOrderViolation x0 s = .next t ∧ Kept [.regs] s t := by
  refine ⟨_, if_pos h, ?_⟩; repeat' first
      | (extract_lets +onlyGivenNames v; apply Kept.gen (v := v); subst v; rotate_left; clear_value v; intro h; rotate_right)
      | with_reducible assumption | with_reducible exact Kept.refl | with_reducible apply Kept.step State.setF_kept | (show _ = _; rfl) | split

theorem execThermtrip_next {s : State} :
    ∃ t, execThermtrip s = .next t ∧ Kept [.regs, .ctr, .cnt, .time, .power, .host, .cores, .mem, .lanes, .ports, .pipes, .fabric, .servo, .cal, .refs, .meas, .redund, .sec, .waiting, .written] s t := by
  refine ⟨_, rfl, ?_⟩; repeat' first
      | with_reducible exact Kept.refl | with_reducible apply Kept.step State.mainReset_kept
      | with_reducible apply Kept.step State.modPower_kept | (show _ = _; rfl) | split

theorem execTickPllLock_next {s : State} : ∃ t, execTickPllLock s = .next t ∧ Kept [.regs, .cnt, .time, .power] s t := by
  refine ⟨_, rfl, ?_⟩; repeat' first
      | with_reducible exact Kept.refl | with_reducible apply Kept.step State.planBeat_kept
      | with_reducible apply Kept.step State.showBeat_kept | with_reducible apply Kept.step State.showIncr_kept
      | with_reducible apply Kept.step State.modPower_kept | (show _ = _; rfl) | split | with_reducible apply Kept.put_timeCnt

theorem execPowerupTimeout_next {s : State} {x0} (h : 2 ≤ x0 ∧ x0 ≤ 7) : ∃ t, execPowerupTimeout x0 s = .next t ∧ Kept [.regs, .power] s t := by
  refine ⟨_, if_pos h, ?_⟩; repeat' first
      | (extract_lets +onlyGivenNames v; apply Kept.gen (v := v); subst v; rotate_left; clear_value v; intro h; rotate_right)
      | with_reducible assumption | with_reducible exact Kept.refl | with_reducible apply Kept.ite
      | with_reducible apply Kept.step State.setF_kept | with_reducible apply Kept.step State.modPower_kept | (show _ = _; rfl)

theorem execDipEnter_next {s : State} {x0} : ∃ t, execDipEnter x0 s = .next t ∧ Kept [.regs, .power, .host, .cores, .cal, .meas] s t := by
  refine ⟨_, rfl, ?_⟩; repeat' first
      | with_reducible exact Kept.refl | with_reducible apply Kept.step State.dipBegin_kept | (show _ = _; rfl) | split

theorem execStandbyRailsOff_next {s : State} : ∃ t, execStandbyRailsOff s = .next t ∧ Kept [.power] s t := by
  refine ⟨_, rfl, ?_⟩; repeat' first
      | with_reducible exact Kept.refl | with_reducible apply Kept.step State.modPower_kept | (show _ = _; rfl) | split

theorem execOscReturn_next {s : State} : ∃ t, execOscReturn s = .next t ∧ Kept [.power, .refs] s t := by
  refine ⟨_, rfl, ?_⟩; repeat' first
      | with_reducible exact Kept.refl | with_reducible apply Kept.step State.modPower_kept | with_reducible apply Kept.step State.modDpll_kept
      | (show _ = _; rfl) | split

theorem execWdtKick_next {s : State} {x0 x1} : ∃ t, execWdtKick x0 x1 s = .next t ∧ Kept [.power] s t := by
  refine ⟨_, rfl, ?_⟩; repeat' first
      | with_reducible exact Kept.refl | with_reducible apply Kept.step State.wdtKickWrite_kept | (show _ = _; rfl) | split

theorem execChipReset_next {s : State} {x0} : ∃ t, execChipReset x0 s = .next t ∧ Kept [.regs, .power, .host, .cores] s t := by
  refine ⟨_, rfl, ?_⟩; repeat' first
      | intro _ | with_reducible assumption | with_reducible exact Kept.refl | with_reducible apply State.start_kept
      | with_reducible apply Kept.step State.complete_kept | with_reducible apply Kept.step State.modPower_kept | (show _ = _; rfl)

theorem execVaultOnlyEntry_next {s : State} :
    ∃ t, execVaultOnlyEntry s = .next t ∧ Kept [.regs, .ctr, .cnt, .time, .power, .host, .cores, .mem, .lanes, .ports, .pipes, .fabric, .servo, .cal, .refs, .meas, .redund, .sec, .waiting, .written] s t := by
  refine ⟨_, rfl, ?_⟩; repeat' first
      | with_reducible exact Kept.refl | with_reducible apply Kept.step State.islandStop_kept | with_reducible apply Kept.step State.setF_kept
      | with_reducible apply Kept.step State.modPower_kept | (show _ = _; rfl) | split

theorem execDipExit_next {s : State} {x0} : ∃ t, execDipExit x0 s = .next t ∧ Kept [.regs, .power, .host, .cores, .servo, .sec] s t := by
  refine ⟨_, rfl, ?_⟩; repeat' first
      | (extract_lets +onlyGivenNames v; clear_value v) | with_reducible exact Kept.refl | with_reducible apply Kept.step State.dipEnd_kept
      | (show _ = _; rfl) | split

theorem execMainPor_next {s : State} :
    ∃ t, execMainPor s = .next t ∧ Kept [.regs, .ctr, .cnt, .time, .power, .host, .cores, .mem, .lanes, .ports, .pipes, .fabric, .servo, .cal, .refs, .meas, .redund, .sec, .waiting, .written] s t := by
  refine ⟨_, rfl, ?_⟩; repeat' first
      | with_reducible exact Kept.refl | with_reducible apply Kept.step State.mainReset_kept | (show _ = _; rfl) | split

theorem execMainPwrEnHigh_next {s : State} : ∃ t, execMainPwrEnHigh s = .next t ∧ Kept [.power] s t := by
  refine ⟨_, rfl, ?_⟩; repeat' first
      | with_reducible exact Kept.refl | with_reducible apply Kept.step State.powerUp_kept | (show _ = _; rfl) | split

theorem execSupplyReset_next {s : State} {x0} (h : x0 ≤ 7) :
    ∃ t, execSupplyReset x0 s = .next t ∧ Kept [.regs, .ctr, .cnt, .time, .power, .host, .cores, .mem, .lanes, .ports, .pipes, .fabric, .servo, .cal, .refs, .meas, .redund, .sec, .waiting, .written] s t := by
  refine ⟨_, if_pos h, ?_⟩; repeat' first
      | (extract_lets +onlyGivenNames v; apply Kept.gen (v := v); subst v; rotate_left; clear_value v; intro h; rotate_right)
      | with_reducible assumption | with_reducible exact Kept.refl | with_reducible apply Kept.step State.setF_kept
      | with_reducible apply Kept.step State.mainReset_kept | with_reducible apply Kept.step State.modPower_kept | (show _ = _; rfl) | split

theorem execWdtWarn_next {s : State} : ∃ t, execWdtWarn s = .next t ∧ Kept [.regs, .host, .cores] s t := by
  refine ⟨_, rfl, ?_⟩; repeat' first | with_reducible exact Kept.refl | with_reducible apply Kept.step State.raise_kept | (show _ = _; rfl) | split

theorem execResetNLong_next {s : State} {x0} : ∃ t, execResetNLong x0 s = .next t ∧ Kept [.regs, .power] s t := by
  refine ⟨_, rfl, ?_⟩; repeat' first
      | (extract_lets +onlyGivenNames v; apply Kept.gen (v := v); subst v; rotate_left; clear_value v; intro h; rotate_right)
      | with_reducible assumption | with_reducible exact Kept.refl | with_reducible apply Kept.ite
      | with_reducible apply Kept.step State.setF_kept | with_reducible apply Kept.step State.modPower_kept
      | with_reducible apply Kept.step State.powerUp_kept | (show _ = _; rfl)

theorem execWdtReset_next {s : State} :
    ∃ t, execWdtReset s = .next t ∧ Kept [.regs, .ctr, .cnt, .time, .power, .host, .cores, .mem, .lanes, .ports, .pipes, .fabric, .servo, .cal, .refs, .meas, .redund, .sec, .waiting, .written] s t := by
  refine ⟨_, rfl, ?_⟩; repeat' first
      | with_reducible exact Kept.refl | with_reducible apply Kept.step State.mainReset_kept | (show _ = _; rfl) | split

theorem execIslandReset_next {s : State} :
    ∃ t, execIslandReset s = .next t ∧ Kept [.regs, .ctr, .cnt, .time, .power, .host, .cores, .mem, .lanes, .ports, .pipes, .fabric, .servo, .cal, .refs, .meas, .redund, .sec, .waiting, .written, .freeCtr] s t := by
  refine ⟨_, rfl, ?_⟩; repeat' first
      | with_reducible exact Kept.refl | with_reducible apply Kept.step State.islandStop_kept
      | with_reducible apply Kept.step State.vaultTime_kept | (show _ = _; rfl)

theorem execStandbyWake_next {s : State} :
    ∃ t, execStandbyWake s = .next t ∧ Kept [.regs, .ctr, .cnt, .time, .power, .host, .cores, .mem, .lanes, .ports, .pipes, .fabric, .servo, .cal, .refs, .meas, .redund, .sec, .waiting, .written] s t := by
  refine ⟨_, rfl, ?_⟩; repeat' first
      | with_reducible exact Kept.refl | with_reducible apply Kept.step State.standbyExit_kept | (show _ = _; rfl) | split

end Sys2Proof.Machine
end

