-- ==== Sys2Proof/Laws/FrameSecRows.lean ====
section
/-!
SUPPORT. Sys2Proof/Laws/FrameSecRows.lean: what each operation of Machine/SecRows.lean may change, and that it keeps the canonical forms.
-/
namespace Sys2Proof.Machine
open Sys2Proof

theorem State.installBegin_kept {s : State} {x1} :
    Kept [.regs, .ctr, .power, .host, .cores, .lanes, .ports, .fabric, .cal, .line] s (State.installBegin s x1) := by
  unfold State.installBegin; repeat' first
      | with_reducible exact Kept.refl | with_reducible apply Kept.step State.ucodeBegin_kept
      | with_reducible apply Kept.step State.setCoreState_kept | with_reducible apply Kept.step State.awake_kept
      | with_reducible apply Kept.step State.setPair_kept | (show _ = _; rfl) | split

theorem execVbatLoss_next {s : State} : ∃ t, execVbatLoss s = .next t ∧ Kept [.regs, .keys, .sec] s t := by
  refine ⟨_, rfl, ?_⟩; repeat' first
      | with_reducible exact Kept.refl | with_reducible apply Kept.step State.vaultLoss_kept | (show _ = _; rfl) | split

theorem execVbatCheck_next {s : State} {x0} : ∃ t, execVbatCheck x0 s = .next t ∧ Kept [.regs, .host, .cores, .sec] s t := by
  refine ⟨_, rfl, ?_⟩; repeat' first
      | (extract_lets +onlyGivenNames v; apply Kept.gen (v := v); subst v; rotate_left; clear_value v; intro h; rotate_right)
      | with_reducible assumption | with_reducible exact Kept.refl | with_reducible apply Kept.step State.setF_kept
      | with_reducible apply Kept.modSec | with_reducible apply Kept.step State.showVsec_kept | with_reducible apply Kept.step State.raise_kept
      | (show _ = _; rfl) | split

theorem execTamperCfgWrite_next {s : State} {x0 x1 x2} : ∃ t, execTamperCfgWrite x0 x1 x2 s = .next t ∧ Kept [.regs] s t := by
  refine ⟨_, rfl, ?_⟩; repeat' first
      | with_reducible exact Kept.refl | with_reducible apply Kept.step State.tamperLockWrite_kept
      | with_reducible apply Kept.step State.tamperCfgWrite_kept | (show _ = _; rfl) | split

theorem execUpdInstall_next {s : State} {x0} :
    ∃ t, execUpdInstall x0 s = .next t ∧ Kept [.regs, .ctr, .power, .host, .cores, .lanes, .ports, .fabric, .cal, .sec, .line] s t := by
  refine ⟨_, rfl, ?_⟩; repeat' first
      | intro _ | with_reducible assumption | with_reducible exact Kept.refl | with_reducible apply Kept.step State.markInstalled_kept
      | with_reducible apply State.start_kept | with_reducible apply Kept.modSec | with_reducible apply Kept.step State.complete_kept
      | with_reducible apply State.startLong_kept | with_reducible apply Kept.step State.installBegin_kept | (show _ = _; rfl) | split

theorem execKeyHmac_next {s : State} {x0 x1} : ∃ t, execKeyHmac x0 x1 s = .next t ∧ Kept [.regs, .host, .cores, .mem] s t := by
  refine ⟨_, rfl, ?_⟩; repeat' first
      | intro _ | with_reducible assumption | with_reducible exact Kept.refl | with_reducible apply State.start_kept
      | with_reducible apply Kept.step State.bufWrite_kept | with_reducible apply Kept.step State.complete_kept | (show _ = _; rfl) | split

theorem execFuseCust_next {s : State} {x0} : ∃ t, execFuseCust x0 s = .next t ∧ Kept [.regs, .host, .cores, .sec] s t := by
  refine ⟨_, rfl, ?_⟩; repeat' first
      | intro _ | (extract_lets +onlyGivenNames v; apply Kept.gen (v := v.1); subst v; rotate_left; clear_value v; intro h; rotate_right)
      | with_reducible assumption | with_reducible exact Kept.refl | with_reducible apply State.start_kept
      | with_reducible apply Kept.step State.complete_kept | with_reducible apply Kept.step State.fuseCmd_kept
      | with_reducible apply Kept.step State.park_kept | (show _ = _; rfl) | split

theorem execTamperDetect_next {s : State} {x0 x1} :
    ∃ t, execTamperDetect x0 x1 s = .next t ∧ Kept [.regs, .host, .cores, .keys, .sec, .freeCtr] s t := by
  refine ⟨_, rfl, ?_⟩; repeat' first | with_reducible exact Kept.refl | with_reducible apply Kept.step State.tamper_kept | (show _ = _; rfl) | split

theorem execUpdCommit_next {s : State} {x0} : ∃ t, execUpdCommit x0 s = .next t ∧ Kept [.regs, .host, .cores, .sec] s t := by
  refine ⟨_, rfl, ?_⟩; repeat' first
      | intro _ | (extract_lets +onlyGivenNames v; apply Kept.gen (v := v.1); subst v; rotate_left; clear_value v; intro h; rotate_right)
      | with_reducible assumption | with_reducible exact Kept.refl | with_reducible apply State.start_kept
      | with_reducible apply Kept.step State.complete_kept | with_reducible apply Kept.step State.fuseCmd_kept
      | with_reducible apply Kept.step State.park_kept | (show _ = _; rfl) | split

theorem execKeyWrite_next {s : State} {x0} : ∃ t, execKeyWrite x0 s = .next t ∧ Kept [.regs, .host, .cores, .keys, .sec] s t := by
  refine ⟨_, rfl, ?_⟩; repeat' first
      | intro _ | with_reducible assumption | with_reducible exact Kept.refl | with_reducible apply Kept.step State.modSecKeys_kept
      | with_reducible apply State.start_kept | with_reducible apply Kept.step State.complete_kept | (show _ = _; rfl) | split

theorem execUpdDiscard_next {s : State} {x0} : ∃ t, execUpdDiscard x0 s = .next t ∧ Kept [.regs, .host, .cores, .sec] s t := by
  refine ⟨_, rfl, ?_⟩; repeat' first
      | intro _ | (extract_lets +onlyGivenNames v; apply Kept.gen (v := v.1); subst v; rotate_left; clear_value v; intro h; rotate_right)
      | with_reducible assumption | with_reducible exact Kept.refl | with_reducible apply State.start_kept
      | with_reducible apply Kept.step State.complete_kept | with_reducible apply Kept.step State.fuseCmd_kept
      | with_reducible apply Kept.step State.park_kept | (show _ = _; rfl) | split

theorem execUpdStage_next {s : State} {x0 x1} : ∃ t, execUpdStage x0 x1 s = .next t ∧ Kept [.regs, .host, .cores, .sec] s t := by
  refine ⟨_, rfl, ?_⟩; repeat' first
      | intro _ | (extract_lets +onlyGivenNames v; apply Kept.gen (v := v); subst v; rotate_left; clear_value v; intro h; rotate_right)
      | (extract_lets +onlyGivenNames v; clear_value v) | with_reducible assumption | with_reducible exact Kept.refl
      | with_reducible apply State.start_kept | with_reducible apply Kept.modSec | with_reducible apply Kept.step State.complete_kept
      | with_reducible apply Kept.step State.stageEmpty_kept | with_reducible apply State.startLong_kept | (show _ = _; rfl) | split

theorem execTamperClear_next {s : State} {x0} : ∃ t, execTamperClear x0 s = .next t ∧ Kept [.regs, .host, .cores, .sec, .freeCtr] s t := by
  refine ⟨_, rfl, ?_⟩; repeat' first
      | intro _ | (extract_lets +onlyGivenNames v; apply Kept.gen (v := v); subst v; rotate_left; clear_value v; intro h; rotate_right)
      | with_reducible assumption | with_reducible exact Kept.refl | with_reducible apply Kept.step State.fresh_kept
      | with_reducible apply State.start_kept | with_reducible apply Kept.step State.setF_kept | with_reducible apply Kept.modSec
      | with_reducible apply Kept.step State.complete_kept | (show _ = _; rfl) | split

end Sys2Proof.Machine
end

