-- ==== Sys2Proof/Laws/FrameServoRows.lean ====
section
/-!
SUPPORT. Sys2Proof/Laws/FrameServoRows.lean: what each operation of Machine/ServoRows.lean may change, and that it keeps the canonical forms.
-/
namespace Sys2Proof.Machine
open Sys2Proof

theorem State.slotWrite_kept {s : State} {x1 x2 x3 x4} : Kept [.regs, .cores, .redund, .waiting, .written] s (State.slotWrite s x1 x2 x3 x4) := by
  unfold State.slotWrite; repeat' first
      | intro _ | (extract_lets +onlyGivenNames v; apply Kept.gen (v := v); subst v; rotate_left; clear_value v; intro h; rotate_right)
      | with_reducible assumption | with_reducible exact Kept.refl | with_reducible apply Kept.ite
      | with_reducible apply Kept.step State.setF_kept | with_reducible apply State.byWriter_kept
      | with_reducible apply Kept.step State.wait_kept | with_reducible apply Kept.step State.took_kept | (show _ = _; rfl)

theorem State.sessSend_kept {s : State} {x1 x2 x3} : Kept [.ports, .servo] s (State.sessSend s x1 x2 x3) := by
  unfold State.sessSend; repeat' first
      | (extract_lets +onlyGivenNames v; apply Kept.gen (v := v); subst v; rotate_left; clear_value v; intro h; rotate_right)
      | with_reducible assumption | with_reducible exact Kept.refl | with_reducible apply Kept.step State.modSess_kept
      | with_reducible apply Kept.step State.queuePtp_kept | (show _ = _; rfl)

theorem State.sessBoundary_kept {s : State} : Kept [.regs, .host, .cores, .servo] s (State.sessBoundary s) := by
  unfold State.sessBoundary; repeat' first
      | intro _ | with_reducible assumption | with_reducible exact Kept.refl | with_reducible apply Kept.step State.sessApply_kept
      | with_reducible apply State.each_kept | with_reducible apply Kept.step State.finish_kept | (show _ = _; rfl) | split

theorem State.coefBoundary_kept {s : State} : Kept [.regs, .servo] s (State.coefBoundary s) := by
  unfold State.coefBoundary; repeat' first
      | intro _ | with_reducible assumption | with_reducible exact Kept.refl | with_reducible apply State.each_kept
      | with_reducible apply Kept.step State.slotCoefs_kept | (show _ = _; rfl) | split

theorem State.acceptStep_kept {s : State} {x1} : Kept [.regs, .cnt, .host, .cores, .servo] s (State.acceptStep s x1) := by
  unfold State.acceptStep; repeat' first
      | (extract_lets +onlyGivenNames v; apply Kept.gen (v := v); subst v; rotate_left; clear_value v; intro h; rotate_right)
      | with_reducible assumption | with_reducible exact Kept.refl | with_reducible apply Kept.ite
      | with_reducible apply Kept.step State.setF_kept | with_reducible apply Kept.step State.addVal_kept
      | with_reducible apply Kept.step State.modSlot_kept | with_reducible apply Kept.step State.finish_kept
      | with_reducible apply Kept.step State.goSlot_kept | (show _ = _; rfl)

theorem State.slotResults_kept {s : State} {x1} : Kept [.regs, .cnt, .host, .cores, .servo, .refs] s (State.slotResults s x1) := by
  unfold State.slotResults; repeat' first
      | intro _ | (extract_lets +onlyGivenNames v; apply Kept.gen (v := v); subst v; rotate_left; clear_value v; intro h; rotate_right)
      | with_reducible assumption | with_reducible exact Kept.refl | with_reducible apply Kept.step State.slotUpdate_kept
      | with_reducible apply Kept.step State.modSlot_kept | with_reducible apply Kept.step State.slotSwitch_kept
      | with_reducible apply State.each_kept | with_reducible apply Kept.step State.acceptStep_kept | (show _ = _; rfl) | split

theorem State.unitEnd_kept {s : State} {x1} : Kept [.regs, .host, .cores, .servo] s (State.unitEnd s x1) := by
  unfold State.unitEnd; repeat' first
      | (extract_lets +onlyGivenNames v; apply Kept.gen (v := v); subst v; rotate_left; clear_value v; intro h; rotate_right)
      | with_reducible assumption | with_reducible exact Kept.refl | with_reducible apply Kept.ite
      | with_reducible apply Kept.step State.goSess_kept | with_reducible apply Kept.step State.modSess_kept | (show _ = _; rfl)

theorem State.klUnitEnd_kept {s : State} {x1} : Kept [.regs, .host, .cores, .servo] s (State.klUnitEnd s x1) := by
  unfold State.klUnitEnd; repeat' first
      | with_reducible exact Kept.refl | with_reducible apply Kept.ite | with_reducible apply Kept.step State.unitEnd_kept
      | with_reducible apply Kept.step State.modKl_kept | (show _ = _; rfl)

theorem execSessionTx_next {s : State} {x0 x1 x2} : ∃ t, execSessionTx x0 x1 x2 s = .next t ∧ Kept [.ports, .servo] s t := by
  refine ⟨_, rfl, ?_⟩; repeat' first
      | with_reducible exact Kept.refl | with_reducible apply Kept.step State.sessSend_kept | (show _ = _; rfl) | split

theorem execSessionRead_next {s : State} {x0} : ∃ t, execSessionRead x0 s = .next t ∧ Kept [.regs, .host, .cores, .mem, .servo] s t := by
  refine ⟨_, rfl, ?_⟩; repeat' first
      | intro _ | (extract_lets +onlyGivenNames v; apply Kept.gen (v := v); subst v; rotate_left; clear_value v; intro h; rotate_right)
      | with_reducible assumption | with_reducible exact Kept.refl | with_reducible apply Kept.step State.modSess_kept
      | with_reducible apply State.start_kept | with_reducible apply Kept.step State.bufWrite_kept
      | with_reducible apply Kept.step State.complete_kept | with_reducible apply State.each_kept | (show _ = _; rfl)

theorem execServoCompute_next {s : State} : ∃ t, execServoCompute s = .next t ∧ Kept [.regs, .cnt, .time, .servo] s t := by
  refine ⟨_, rfl, ?_⟩; repeat' first
      | with_reducible exact Kept.refl | with_reducible apply Kept.step State.toTick_kept
      | with_reducible apply Kept.step State.computeSlots_kept | (show _ = _; rfl) | split

theorem execSlotUpd_next {s : State} {x0 x1 x2} :
    ∃ t, execSlotUpd x0 x1 x2 s = .next t ∧ Kept [.regs, .cores, .redund, .waiting, .written] s t := by
  refine ⟨_, rfl, ?_⟩; repeat' first | with_reducible exact Kept.refl | with_reducible apply Kept.step State.slotWrite_kept | (show _ = _; rfl)

theorem execKlWindowEnd_next {s : State} {x0} : ∃ t, execKlWindowEnd x0 s = .next t ∧ Kept [.regs, .host, .cores, .ports, .servo] s t := by
  refine ⟨_, rfl, ?_⟩; repeat' first
      | with_reducible exact Kept.refl | with_reducible apply Kept.step State.klWindow_kept | (show _ = _; rfl) | split

theorem execSlotInputTimeout_next {s : State} {x0} : ∃ t, execSlotInputTimeout x0 s = .next t ∧ Kept [.regs, .host, .cores, .servo] s t := by
  refine ⟨_, rfl, ?_⟩; repeat' first
      | with_reducible exact Kept.refl | with_reducible apply Kept.step State.loseSlot_kept | (show _ = _; rfl) | split

theorem execSessionUnitEnd_next {s : State} {x0} : ∃ t, execSessionUnitEnd x0 s = .next t ∧ Kept [.regs, .host, .cores, .servo] s t := by
  refine ⟨_, rfl, ?_⟩; repeat' first
      | with_reducible exact Kept.refl | with_reducible apply Kept.step State.modSess_kept
      | with_reducible apply Kept.step State.klUnitEnd_kept | with_reducible apply Kept.step State.unitEnd_kept | (show _ = _; rfl) | split

theorem execKlReportRx_next {s : State} {x0 x1} : ∃ t, execKlReportRx x0 x1 s = .next t ∧ Kept [.servo] s t := by
  refine ⟨_, rfl, ?_⟩; repeat' first
      | with_reducible exact Kept.refl | with_reducible apply Kept.step State.takeUp_kept
      | with_reducible apply Kept.step State.klReportRx_kept | (show _ = _; rfl) | split

theorem execServoDeadline_next {s : State} : ∃ t, execServoDeadline s = .next t ∧ Kept [.regs, .cnt, .time, .host, .cores, .servo] s t := by
  refine ⟨_, rfl, ?_⟩; repeat' first
      | with_reducible exact Kept.refl | with_reducible apply Kept.step State.toTick_kept
      | with_reducible apply Kept.step State.slotDeadline_kept | (show _ = _; rfl) | split

theorem execPtpRx_next {s : State} {x0 x1} :
    ∃ t, execPtpRx x0 x1 s = .next t ∧ Kept [.regs, .host, .cores, .ports, .servo, .redund, .waiting] s t := by
  refine ⟨_, rfl, ?_⟩; repeat' first
      | with_reducible exact Kept.refl | with_reducible apply Kept.step State.takeUp_kept | with_reducible apply Kept.step State.ptpRx_kept
      | (show _ = _; rfl) | split

theorem execSessionSet_next {s : State} {x0} : ∃ t, execSessionSet x0 s = .next t ∧ Kept [.regs, .host, .cores] s t := by
  refine ⟨_, rfl, ?_⟩; repeat' first
      | intro _ | with_reducible assumption | with_reducible exact Kept.refl | with_reducible apply Kept.ite
      | with_reducible apply State.start_kept | with_reducible apply Kept.step State.complete_kept
      | with_reducible apply Kept.step State.park_kept | (show _ = _; rfl)

theorem execSlotAccept_next {s : State} {x0} : ∃ t, execSlotAccept x0 s = .next t ∧ Kept [.regs, .host, .cores, .servo] s t := by
  refine ⟨_, rfl, ?_⟩; repeat' first
      | intro _ | (extract_lets +onlyGivenNames v; apply Kept.gen (v := v); subst v; rotate_left; clear_value v; intro h; rotate_right)
      | with_reducible assumption | with_reducible exact Kept.refl | with_reducible apply State.start_kept
      | with_reducible apply Kept.step State.complete_kept | with_reducible apply Kept.step State.modSlot_kept
      | with_reducible apply Kept.step State.goSlot_kept | with_reducible apply Kept.step State.park_kept | (show _ = _; rfl) | split

theorem execFuTimeout_next {s : State} {x0} : ∃ t, execFuTimeout x0 s = .next t ∧ Kept [.servo] s t := by
  refine ⟨_, rfl, ?_⟩; repeat' first
      | with_reducible exact Kept.refl | with_reducible apply Kept.step State.countFu_kept | (show _ = _; rfl) | split

end Sys2Proof.Machine
end

