-- ==== Sys2Proof/Laws/FrameRegs.lean ====
section
/-!
SUPPORT. Sys2Proof/Laws/FrameRegs.lean: what each operation of Machine/Regs.lean may change, and that it keeps the canonical forms.
-/
namespace Sys2Proof.Machine
open Sys2Proof

theorem State.fabricCfgWrite_kept {s : State} {x1} : Kept [.regs] s (State.fabricCfgWrite s x1) := by
  unfold State.fabricCfgWrite; repeat' first
      | with_reducible exact Kept.refl | with_reducible apply Kept.step State.setF_kept | with_reducible apply Kept.step State.showDeep_kept
      | with_reducible apply State.headroomCheck_kept | with_reducible apply Kept.step State.putRw_kept | (show _ = _; rfl) | split

theorem State.badAccess_kept {s : State} : Kept [.regs] s (State.badAccess s) := by
  unfold State.badAccess; repeat' first | with_reducible exact Kept.refl | with_reducible apply Kept.step State.bump_kept | (show _ = _; rfl)

theorem State.plainWrite_kept {s : State} {x1 x2 x3} : Kept [.regs, .cores, .redund, .waiting, .written] s (State.plainWrite s x1 x2 x3) := by
  unfold State.plainWrite; repeat' first
      | intro _ | with_reducible assumption | with_reducible exact Kept.refl | with_reducible apply Kept.step State.putW1c_kept
      | with_reducible apply State.byWriter_kept | with_reducible apply Kept.step State.took_kept
      | with_reducible apply Kept.step State.putRw_kept | (show _ = _; rfl) | split

theorem State.deepCfgWrite_kept {s : State} {x1} : Kept [.regs] s (State.deepCfgWrite s x1) := by
  unfold State.deepCfgWrite; repeat' first
      | (extract_lets +onlyGivenNames v; apply Kept.gen (v := v); subst v; rotate_left; clear_value v; intro h; rotate_right)
      | with_reducible assumption | with_reducible exact Kept.refl | with_reducible apply Kept.step State.setF_kept
      | with_reducible apply State.headroomCheck_kept | with_reducible apply Kept.step State.putRw_kept | (show _ = _; rfl) | split

theorem State.emergWrite_kept {s : State} {x1} : Kept [.regs, .host] s (State.emergWrite s x1) := by
  unfold State.emergWrite; repeat' first
      | (extract_lets +onlyGivenNames v; apply Kept.gen (v := v); subst v; rotate_left; clear_value v; intro h; rotate_right)
      | with_reducible assumption | with_reducible exact Kept.refl | with_reducible apply Kept.step State.setF_kept
      | with_reducible apply Kept.step State.fetchNow_kept | with_reducible apply Kept.step State.dmaOffWrite_kept | (show _ = _; rfl) | split

theorem State.fabricPortWrite_kept {s : State} {x1 x2} : Kept [.regs] s (State.fabricPortWrite s x1 x2) := by
  unfold State.fabricPortWrite; repeat' first
      | with_reducible exact Kept.refl | with_reducible apply Kept.step State.setF_kept | with_reducible apply Kept.step State.putRw_kept
      | (show _ = _; rfl) | split

theorem State.fomWrite_kept {s : State} {x1 x2} : Kept [.regs, .lanes] s (State.fomWrite s x1 x2) := by
  unfold State.fomWrite; repeat' first
      | (extract_lets +onlyGivenNames v; apply Kept.gen (v := v); subst v; rotate_left; clear_value v; intro h; rotate_right)
      | with_reducible assumption | with_reducible exact Kept.refl | with_reducible apply Kept.step State.putRw_kept
      | with_reducible apply Kept.step State.linkFresh_kept | (show _ = _; rfl) | split

theorem State.i2cWrite_kept {s : State} {x1 x2} : Kept [.regs] s (State.i2cWrite s x1 x2) := by
  unfold State.i2cWrite; repeat' first
      | (extract_lets +onlyGivenNames v; apply Kept.gen (v := v); subst v; rotate_left; clear_value v; intro h; rotate_right)
      | with_reducible assumption | with_reducible exact Kept.refl | with_reducible apply Kept.step State.putW1c_kept
      | with_reducible apply Kept.step State.putRw_kept | (show _ = _; rfl) | split

theorem State.iaThWrite_kept {s : State} {x1 x2 x3} : Kept [.regs, .cores, .redund, .waiting, .written] s (State.iaThWrite s x1 x2 x3) := by
  unfold State.iaThWrite; repeat' first
      | with_reducible exact Kept.refl | with_reducible apply Kept.step State.setF_kept | with_reducible apply Kept.step State.later_kept
      | (show _ = _; rfl) | split

theorem State.linkWordWrite_kept {s : State} {x1 x2 x3} : Kept [.regs] s (State.linkWordWrite s x1 x2 x3) := by
  unfold State.linkWordWrite; repeat' first
      | with_reducible exact Kept.refl | with_reducible apply Kept.step State.putRw_kept | (show _ = _; rfl) | split

theorem State.msixWrite_kept {s : State} {x1 x2} : Kept [.regs, .host] s (State.msixWrite s x1 x2) := by
  unfold State.msixWrite; repeat' first
      | (extract_lets +onlyGivenNames v; apply Kept.gen (v := v); subst v; rotate_left; clear_value v; intro h; rotate_right)
      | with_reducible assumption | with_reducible exact Kept.refl | with_reducible apply Kept.ite
      | with_reducible apply Kept.step State.post_kept | with_reducible apply Kept.step State.setReg_kept
      | with_reducible apply Kept.step State.putRw_kept | (show _ = _; rfl)

theorem State.portCfgWrite_kept {s : State} {x1 x2} : Kept [.regs, .ctr, .lanes, .ports, .cal, .line] s (State.portCfgWrite s x1 x2) := by
  unfold State.portCfgWrite; repeat' first
      | (extract_lets +onlyGivenNames v; apply Kept.gen (v := v); subst v; rotate_left; clear_value v; intro h; rotate_right)
      | with_reducible assumption | with_reducible exact Kept.refl | with_reducible apply Kept.ite
      | with_reducible apply Kept.step State.showXoff_kept | with_reducible apply Kept.step State.clearPause_kept
      | with_reducible apply Kept.step State.putRw_kept | (show _ = _; rfl)

theorem State.seqWrite_kept {s : State} {x1} : Kept [.regs] s (State.seqWrite s x1) := by
  unfold State.seqWrite; repeat' first
      | (extract_lets +onlyGivenNames v; apply Kept.gen (v := v); subst v; rotate_left; clear_value v; intro h; rotate_right)
      | with_reducible assumption | with_reducible exact Kept.refl | with_reducible apply Kept.step State.putW1c_kept
      | with_reducible apply Kept.step State.setF_kept | (show _ = _; rfl) | split

theorem State.winDataWrite_kept {s : State} {x1 x2 x3} : Kept [.regs] s (State.winDataWrite s x1 x2 x3) := by
  unfold State.winDataWrite; repeat' first | with_reducible exact Kept.refl | with_reducible apply Kept.step State.setReg_kept | (show _ = _; rfl)

theorem writeOps1_kept :
    ∀ p ∈ writeOps1, ∀ s src a i j v, Kept [.regs, .ctr, .time, .power, .host, .cores, .lanes, .ports, .pipes, .fabric, .servo, .cal, .refs, .redund, .waiting, .written, .line, .freeCtr] s (p.2 s src a i j v) := by
  unfold writeOps1; repeat' first
      | with_reducible refine List.forall_mem_cons.2 ⟨?_, ?_⟩ | with_reducible exact List.forall_mem_nil _ | intro _
      | with_reducible assumption | with_reducible exact Kept.refl | with_reducible apply Kept.ite
      | with_reducible apply Kept.step State.bankCtrlWrite_kept | with_reducible apply Kept.step State.coreWdtWrite_kept
      | with_reducible apply Kept.step State.emergWrite_kept | with_reducible apply State.headroomCheck_kept
      | with_reducible apply Kept.step State.hostCmdWrite_kept | with_reducible apply Kept.step State.hostDmaWrite_kept
      | with_reducible apply Kept.step State.msixWrite_kept | with_reducible apply Kept.step State.putRw_kept
      | with_reducible apply Kept.step State.quadWrite_kept | with_reducible apply Kept.step State.resetCtrlWrite_kept
      | with_reducible apply Kept.step State.ringCfgWrite_kept | with_reducible apply Kept.step State.seqWrite_kept
      | with_reducible apply Kept.step State.tagLoad_kept | with_reducible apply Kept.step State.tagPop_kept
      | with_reducible apply Kept.step State.tamperCfgWrite_kept | with_reducible apply Kept.step State.tamperLockWrite_kept
      | with_reducible apply Kept.step State.wdtCtrlWrite_kept | with_reducible apply Kept.step State.wdtKickWrite_kept
      | (show subParts _ _ = true; decide) | (show List.contains _ _ = true; decide) | (show _ = _; rfl) | split

theorem writeOps2_kept :
    ∀ p ∈ writeOps2, ∀ s src a i j v, Kept [.regs, .ctr, .time, .power, .host, .cores, .lanes, .ports, .pipes, .fabric, .servo, .cal, .refs, .redund, .waiting, .written, .line, .freeCtr] s (p.2 s src a i j v) := by
  unfold writeOps2; repeat' first
      | with_reducible refine List.forall_mem_cons.2 ⟨?_, ?_⟩ | with_reducible exact List.forall_mem_nil _ | intro _
      | with_reducible assumption | with_reducible exact Kept.refl | with_reducible apply Kept.ite
      | with_reducible apply Kept.step State.fomWrite_kept | with_reducible apply Kept.step State.grpWrite_kept
      | with_reducible apply State.headroomCheck_kept | with_reducible apply Kept.step State.i2cWrite_kept
      | with_reducible apply Kept.step State.laneWrite_kept | with_reducible apply Kept.step State.linkWordWrite_kept
      | with_reducible apply Kept.step State.linkWrite_kept | with_reducible apply Kept.step State.loopWrite_kept
      | with_reducible apply Kept.step State.portCfgWrite_kept | with_reducible apply Kept.step State.putRw_kept
      | with_reducible apply Kept.step State.saWrite_kept | with_reducible apply Kept.step State.showPause_kept
      | with_reducible apply Kept.step State.showXoff_kept | (show subParts _ _ = true; decide) | (show List.contains _ _ = true; decide)
      | (show _ = _; rfl) | split

theorem writeOps3_kept :
    ∀ p ∈ writeOps3, ∀ s src a i j v, Kept [.regs, .ctr, .time, .power, .host, .cores, .lanes, .ports, .pipes, .fabric, .servo, .cal, .refs, .redund, .waiting, .written, .line, .freeCtr] s (p.2 s src a i j v) := by
  unfold writeOps3; repeat' first
      | with_reducible refine List.forall_mem_cons.2 ⟨?_, ?_⟩ | with_reducible exact List.forall_mem_nil _ | intro _
      | with_reducible assumption | with_reducible exact Kept.refl | with_reducible apply Kept.ite
      | with_reducible apply Kept.step State.deepCfgWrite_kept | with_reducible apply Kept.step State.fabricCfgWrite_kept
      | with_reducible apply Kept.step State.fabricPortWrite_kept | with_reducible apply State.headroomCheck_kept
      | with_reducible apply Kept.step State.iaThWrite_kept | with_reducible apply Kept.step State.later_kept
      | with_reducible apply Kept.step State.limitArm_kept | with_reducible apply Kept.step State.putRw_kept
      | with_reducible apply Kept.step State.twinOp_kept | with_reducible apply Kept.step State.winCtrl_kept
      | with_reducible apply Kept.step State.winDataWrite_kept | (show subParts _ _ = true; decide) | (show List.contains _ _ = true; decide)
      | (show _ = _; rfl) | split

theorem writeOps4_kept :
    ∀ p ∈ writeOps4, ∀ s src a i j v, Kept [.regs, .ctr, .time, .power, .host, .cores, .lanes, .ports, .pipes, .fabric, .servo, .cal, .refs, .redund, .waiting, .written, .line, .freeCtr] s (p.2 s src a i j v) := by
  unfold writeOps4; repeat' first
      | with_reducible refine List.forall_mem_cons.2 ⟨?_, ?_⟩ | with_reducible exact List.forall_mem_nil _ | intro _
      | with_reducible assumption | with_reducible exact Kept.refl | with_reducible apply Kept.ite
      | with_reducible apply Kept.step State.candWrite_kept | with_reducible apply Kept.step State.clkoutWrite_kept
      | with_reducible apply Kept.step State.dpllCfgWrite_kept | with_reducible apply Kept.step State.evoutWrite_kept
      | with_reducible apply Kept.step State.fmWrite_kept | with_reducible apply State.headroomCheck_kept
      | with_reducible apply Kept.step State.later_kept | with_reducible apply Kept.step State.slotWrite_kept
      | with_reducible apply Kept.step State.snapCtrlWrite_kept | with_reducible apply Kept.step State.swrateWrite_kept
      | with_reducible apply Kept.step State.synCfgWrite_kept | (show subParts _ _ = true; decide) | (show List.contains _ _ = true; decide)
      | (show _ = _; rfl) | split

theorem writeOp_kept {b : Nat} {f : WriteOp} (h : writeOp b = some f) {s : State} {src a i j v} :
    Kept [.regs, .ctr, .time, .power, .host, .cores, .lanes, .ports, .pipes, .fabric, .servo, .cal, .refs, .redund, .waiting, .written, .line, .freeCtr] s (f s src a i j v) := by
  unfold writeOp at h
  obtain ⟨p, hp, rfl⟩ := Option.map_eq_some_iff.1 h
  have hm := List.mem_of_find?_eq_some hp
  split at hm
  · exact writeOps1_kept p hm ..
  · split at hm
    · exact writeOps2_kept p hm ..
    · split at hm
      · exact writeOps3_kept p hm ..
      · exact writeOps4_kept p hm ..

theorem State.regWrite_kept {s : State} {x1 x2 x3} :
    Kept [.regs, .ctr, .time, .power, .host, .cores, .lanes, .ports, .pipes, .fabric, .servo, .cal, .refs, .redund, .waiting, .written, .line, .freeCtr] s (State.regWrite s x1 x2 x3) := by
  unfold State.regWrite; repeat' first
      | exact writeOp_kept (by assumption) | intro _ | with_reducible assumption | with_reducible exact Kept.refl
      | with_reducible apply Kept.ite | with_reducible apply Kept.step State.plainWrite_kept
      | with_reducible apply Kept.step State.bankCtrlWrite_kept | with_reducible apply Kept.step State.candWrite_kept
      | with_reducible apply Kept.step State.clkoutWrite_kept | with_reducible apply Kept.step State.coreWdtWrite_kept
      | with_reducible apply Kept.step State.deepCfgWrite_kept | with_reducible apply Kept.step State.dpllCfgWrite_kept
      | with_reducible apply Kept.step State.emergWrite_kept | with_reducible apply Kept.step State.evoutWrite_kept
      | with_reducible apply Kept.step State.fabricCfgWrite_kept | with_reducible apply Kept.step State.fabricPortWrite_kept
      | with_reducible apply Kept.step State.fmWrite_kept | with_reducible apply Kept.step State.fomWrite_kept
      | with_reducible apply Kept.step State.grpWrite_kept | with_reducible apply State.headroomCheck_kept
      | with_reducible apply Kept.step State.hostCmdWrite_kept | with_reducible apply Kept.step State.hostDmaWrite_kept
      | with_reducible apply Kept.step State.i2cWrite_kept | with_reducible apply Kept.step State.iaThWrite_kept
      | with_reducible apply Kept.step State.laneWrite_kept | with_reducible apply Kept.step State.later_kept
      | with_reducible apply Kept.step State.limitArm_kept | with_reducible apply Kept.step State.linkWordWrite_kept
      | with_reducible apply Kept.step State.linkWrite_kept | with_reducible apply Kept.step State.loopWrite_kept
      | with_reducible apply Kept.step State.msixWrite_kept | with_reducible apply Kept.step State.portCfgWrite_kept
      | with_reducible apply Kept.step State.putRw_kept | with_reducible apply Kept.step State.quadWrite_kept
      | with_reducible apply Kept.step State.resetCtrlWrite_kept | with_reducible apply Kept.step State.ringCfgWrite_kept
      | with_reducible apply Kept.step State.saWrite_kept | with_reducible apply Kept.step State.seqWrite_kept
      | with_reducible apply Kept.step State.showPause_kept | with_reducible apply Kept.step State.showXoff_kept
      | with_reducible apply Kept.step State.slotWrite_kept | with_reducible apply Kept.step State.snapCtrlWrite_kept
      | with_reducible apply Kept.step State.swrateWrite_kept | with_reducible apply Kept.step State.synCfgWrite_kept
      | with_reducible apply Kept.step State.tagLoad_kept | with_reducible apply Kept.step State.tagPop_kept
      | with_reducible apply Kept.step State.tamperCfgWrite_kept | with_reducible apply Kept.step State.tamperLockWrite_kept
      | with_reducible apply Kept.step State.twinOp_kept | with_reducible apply Kept.step State.wdtCtrlWrite_kept
      | with_reducible apply Kept.step State.wdtKickWrite_kept | with_reducible apply Kept.step State.winCtrl_kept
      | with_reducible apply Kept.step State.winDataWrite_kept | (show subParts _ _ = true; decide) | (show List.contains _ _ = true; decide)
      | (show _ = _; rfl) | split

theorem State.regValue_kept {s : State} {x1} : Kept [.regs, .ctr, .cores, .ports, .freeCtr] s (State.regValue s x1).1 := by
  unfold State.regValue; repeat' first
      | (extract_lets +onlyGivenNames v; apply Kept.gen (v := v); subst v; rotate_left; clear_value v; intro h; rotate_right)
      | with_reducible assumption | with_reducible exact Kept.refl | with_reducible apply Kept.step State.setReg_kept
      | with_reducible apply Kept.step State.setF_kept | with_reducible apply Kept.step State.chargeSlots_kept
      | with_reducible apply Kept.step State.flushPaused_kept | (show _ = _; rfl) | split | with_reducible apply Kept.put_ctr

theorem State.regRead_kept {s : State} {x1} : Kept [.regs, .ctr, .rdata, .cores, .ports, .freeCtr] s (State.regRead s x1) := by
  unfold State.regRead; repeat' first
      | (extract_lets +onlyGivenNames v; apply Kept.gen (v := v); subst v; rotate_left; clear_value v; intro h; rotate_right)
      | (extract_lets +onlyGivenNames v; apply Kept.gen (v := v.1); subst v; rotate_left; clear_value v; intro h; rotate_right)
      | with_reducible assumption | with_reducible exact Kept.refl | with_reducible apply Kept.step State.badAccess_kept
      | with_reducible apply Kept.step State.regValue_kept | (show _ = _; rfl) | split | with_reducible apply Kept.put_rdata

theorem execBadAccess_next {s : State} {x0 x1} : ∃ t, execBadAccess x0 x1 s = .next t ∧ Kept [.regs, .rdata] s t := by
  refine ⟨_, rfl, ?_⟩; repeat' first
      | (extract_lets +onlyGivenNames v; apply Kept.gen (v := v); subst v; rotate_left; clear_value v; intro h; rotate_right)
      | with_reducible assumption | with_reducible exact Kept.refl | with_reducible apply Kept.step State.badAccess_kept | (show _ = _; rfl)
      | split | with_reducible apply Kept.put_rdata

theorem execCounterRead_next {s : State} {x0} : ∃ t, execCounterRead x0 s = .next t ∧ Kept [.regs, .ctr, .rdata, .cores, .ports, .freeCtr] s t := by
  refine ⟨_, rfl, ?_⟩; repeat' first | with_reducible exact Kept.refl | with_reducible apply Kept.step State.regRead_kept | (show _ = _; rfl)

theorem execRegisterWrite_next {s : State} {x0 x1 x2} :
    ∃ t, execRegisterWrite x0 x1 x2 s = .next t ∧ Kept [.regs, .ctr, .time, .power, .host, .cores, .lanes, .ports, .pipes, .fabric, .servo, .cal, .refs, .redund, .waiting, .written, .line, .freeCtr] s t := by
  refine ⟨_, rfl, ?_⟩; repeat' first
      | with_reducible exact Kept.refl | with_reducible apply Kept.step State.badAccess_kept
      | with_reducible apply Kept.step State.regWrite_kept | (show _ = _; rfl) | split

theorem execW1cWrite_next {s : State} {x0 x1 x2} :
    ∃ t, execW1cWrite x0 x1 x2 s = .next t ∧ Kept [.regs, .ctr, .time, .power, .host, .cores, .lanes, .ports, .pipes, .fabric, .servo, .cal, .refs, .redund, .waiting, .written, .line, .freeCtr] s t := by
  refine ⟨_, rfl, ?_⟩; repeat' first
      | with_reducible exact Kept.refl | with_reducible apply Kept.step State.badAccess_kept
      | with_reducible apply Kept.step State.regWrite_kept | (show _ = _; rfl) | split

theorem execRcRead_next {s : State} {x0} : ∃ t, execRcRead x0 s = .next t ∧ Kept [.regs, .ctr, .rdata, .cores, .ports, .freeCtr] s t := by
  refine ⟨_, rfl, ?_⟩; repeat' first | with_reducible exact Kept.refl | with_reducible apply Kept.step State.regRead_kept | (show _ = _; rfl)

end Sys2Proof.Machine
end

