-- ==== Sys2Proof/Laws/FrameProfile.lean ====
section
/-!
SUPPORT. Sys2Proof/Laws/FrameProfile.lean: what each operation of Machine/Profile.lean may change, and that it keeps the canonical forms.
-/
namespace Sys2Proof.Machine
open Sys2Proof

theorem State.profDone_kept {s : State} {x1 x2} : Kept [.regs, .power, .host, .cores] s (State.profDone s x1 x2) := by
  unfold State.profDone; repeat' first
      | (extract_lets +onlyGivenNames v; apply Kept.gen (v := v); subst v; rotate_left; clear_value v; intro h; rotate_right)
      | with_reducible assumption | with_reducible exact Kept.refl | with_reducible apply Kept.step State.setF_kept
      | with_reducible apply Kept.step State.modPower_kept | with_reducible apply Kept.step State.endLong_kept | (show _ = _; rfl)

theorem State.runProfiles_kept {s : State} : Kept [.regs, .sec] s (State.runProfiles s) := by
  unfold State.runProfiles; repeat' first
      | (extract_lets +onlyGivenNames v; clear_value v) | with_reducible exact Kept.refl | with_reducible apply Kept.step State.runImage_kept
      | (show _ = _; rfl) | split

theorem State.profWrite_kept {s : State} {x1 x2} :
    Kept [.regs, .ctr, .time, .power, .host, .cores, .lanes, .ports, .pipes, .fabric, .servo, .cal, .refs, .redund, .waiting, .written, .line, .freeCtr] s (State.profWrite s x1 x2) := by
  unfold State.profWrite; repeat' first
      | (extract_lets +onlyGivenNames v; apply Kept.gen (v := v); subst v; rotate_left; clear_value v; intro h; rotate_right)
      | with_reducible assumption | with_reducible exact Kept.refl | with_reducible apply Kept.step State.regWrite_kept | (show _ = _; rfl) | split

theorem State.profWrites_kept {s : State} {x1 x2} :
    Kept [.regs, .ctr, .time, .power, .host, .cores, .lanes, .ports, .pipes, .fabric, .servo, .cal, .refs, .redund, .waiting, .written, .line, .freeCtr] s (State.profWrites s x1 x2) := by
  unfold State.profWrites; repeat' first
      | intro _ | with_reducible assumption | with_reducible exact Kept.refl | with_reducible apply State.each_kept
      | with_reducible apply Kept.step State.profWrite_kept | (show _ = _; rfl)

theorem State.profLoads_kept {s : State} {x1} : Kept [.regs, .host, .cores, .ports, .servo, .refs] s (State.profLoads s x1) := by
  unfold State.profLoads; repeat' first
      | intro _ | (extract_lets +onlyGivenNames v; apply Kept.gen (v := v); subst v; rotate_left; clear_value v; intro h; rotate_right)
      | with_reducible assumption | with_reducible exact Kept.refl | with_reducible apply Kept.step State.setF_kept
      | with_reducible apply State.each_kept | with_reducible apply Kept.step State.synLoad_kept
      | with_reducible apply Kept.step State.saWrite_kept | (show _ = _; rfl) | split | with_reducible apply Kept.put_servo

theorem State.profApply_kept {s : State} {x1 x2} :
    Kept [.regs, .ctr, .time, .power, .host, .cores, .lanes, .ports, .pipes, .fabric, .servo, .cal, .refs, .redund, .sec, .waiting, .written, .line, .freeCtr] s (State.profApply s x1 x2) := by
  unfold State.profApply; repeat' first
      | intro _ | (extract_lets +onlyGivenNames v; apply Kept.gen (v := v); subst v; rotate_left; clear_value v; intro h; rotate_right)
      | with_reducible assumption | with_reducible exact Kept.refl | with_reducible apply Kept.ite
      | with_reducible apply Kept.step State.runProfiles_kept | with_reducible apply Kept.step State.profWrites_kept
      | with_reducible apply Kept.step State.sessApply_kept | with_reducible apply State.each_kept
      | with_reducible apply Kept.step State.profLoads_kept | with_reducible apply Kept.step State.modLong_kept
      | with_reducible apply Kept.step State.modPower_kept | with_reducible apply Kept.step State.endLong_kept | (show _ = _; rfl)

theorem State.profBoundary_kept {s : State} :
    Kept [.regs, .ctr, .time, .power, .host, .cores, .lanes, .ports, .pipes, .fabric, .servo, .cal, .refs, .redund, .sec, .waiting, .written, .line, .freeCtr] s (State.profBoundary s) := by
  unfold State.profBoundary; repeat' first
      | intro _ | with_reducible assumption | with_reducible exact Kept.refl | with_reducible apply State.each_kept
      | with_reducible apply Kept.step State.profApply_kept | (show _ = _; rfl) | split

theorem State.profCommits_kept {s : State} {x1} : Kept [.regs, .ctr, .power, .host, .cores, .pipes] s (State.profCommits s x1) := by
  unfold State.profCommits; repeat' first
      | intro _ | (extract_lets +onlyGivenNames v; apply Kept.gen (v := v); subst v; rotate_left; clear_value v; intro h; rotate_right)
      | with_reducible assumption | with_reducible exact Kept.refl | with_reducible apply Kept.step State.genBoundary_kept
      | with_reducible apply Kept.step State.profDone_kept | with_reducible apply State.each_kept | (show _ = _; rfl) | split

theorem State.profFinal_kept {s : State} {x1 x2} : Kept [.regs, .power, .host, .cores] s (State.profFinal s x1 x2) := by
  unfold State.profFinal; repeat' first
      | with_reducible exact Kept.refl | with_reducible apply Kept.step State.modLong_kept | with_reducible apply Kept.step State.modPower_kept
      | with_reducible apply Kept.step State.endLong_kept | (show _ = _; rfl) | split

theorem State.afterSessions_kept {s : State} {x1} : Kept [.servo] s (State.afterSessions s x1) := by
  unfold State.afterSessions; repeat' first
      | intro _ | with_reducible assumption | with_reducible exact Kept.refl | with_reducible apply Kept.step State.modSess_kept
      | with_reducible apply State.each_kept | (show _ = _; rfl)

theorem State.afterSettings_kept {s : State} {x1 x2} : Kept [.regs, .waiting] s (State.afterSettings s x1 x2) := by
  unfold State.afterSettings; repeat' first
      | intro _ | (extract_lets +onlyGivenNames v; apply Kept.gen (v := v); subst v; rotate_left; clear_value v; intro h; rotate_right)
      | with_reducible assumption | with_reducible exact Kept.refl | with_reducible apply Kept.step State.setReg_kept
      | with_reducible apply State.each_kept | (show _ = _; rfl) | with_reducible apply Kept.put_waiting

theorem execProfileApply_next {s : State} {x0 x1} : ∃ t, execProfileApply x0 x1 s = .next t ∧ Kept [.regs, .power, .host, .cores] s t := by
  refine ⟨_, rfl, ?_⟩; repeat' first
      | intro _ | (extract_lets +onlyGivenNames v; apply Kept.gen (v := v); subst v; rotate_left; clear_value v; intro h; rotate_right)
      | (extract_lets +onlyGivenNames v; clear_value v) | with_reducible assumption | with_reducible exact Kept.refl
      | with_reducible apply State.start_kept | with_reducible apply Kept.step State.complete_kept | with_reducible apply State.startLong_kept
      | with_reducible apply Kept.step State.modPower_kept | (show _ = _; rfl) | split

end Sys2Proof.Machine
end

