-- ==== Sys2Proof/Laws/FrameLong.lean ====
section
/-!
SUPPORT. Sys2Proof/Laws/FrameLong.lean: what each operation of Machine/Long.lean may change, and that it keeps the canonical forms.
-/
namespace Sys2Proof.Machine
open Sys2Proof

theorem State.scrubFinal_kept {s : State} {x1 x2} : Kept [.regs, .host, .cores, .fabric] s (State.scrubFinal s x1 x2) := by
  unfold State.scrubFinal; repeat' first
      | intro _ | (extract_lets +onlyGivenNames v; apply Kept.gen (v := v); subst v; rotate_left; clear_value v; intro h; rotate_right)
      | with_reducible assumption | with_reducible exact Kept.refl | with_reducible apply Kept.step State.bump_kept
      | with_reducible apply State.each_kept | with_reducible apply Kept.step State.modFabric_kept
      | with_reducible apply Kept.step State.endLong_kept | (show _ = _; rfl) | split

theorem State.rejoinStart_kept {s : State} {x1 x2 x3} : Kept [.regs, .power, .cores, .waiting] s (State.rejoinStart s x1 x2 x3) := by
  unfold State.rejoinStart; repeat' first
      | (extract_lets +onlyGivenNames v; apply Kept.gen (v := v); subst v; rotate_left; clear_value v; intro h; rotate_right)
      | with_reducible assumption | with_reducible exact Kept.refl | with_reducible apply Kept.step State.coreReset_kept
      | with_reducible apply Kept.step State.setCoreState_kept | with_reducible apply Kept.step State.coreStart_kept
      | with_reducible apply Kept.step State.setPair_kept | (show _ = _; rfl) | split

theorem State.installStep_kept {s : State} : Kept [.regs, .power, .host, .cores, .waiting] s (State.installStep s) := by
  unfold State.installStep; repeat' first
      | (extract_lets +onlyGivenNames v; apply Kept.gen (v := v); subst v; rotate_left; clear_value v; intro h; rotate_right)
      | with_reducible assumption | with_reducible exact Kept.refl | with_reducible apply Kept.step State.rejoinStart_kept
      | with_reducible apply Kept.step State.modLong_kept | with_reducible apply Kept.step State.endLong_kept | (show _ = _; rfl) | split

theorem State.longUndo_kept {s : State} {x1} : Kept [.regs, .power, .cores, .pipes, .cal, .meas, .sec] s (State.longUndo s x1) := by
  unfold State.longUndo; repeat' first
      | with_reducible exact Kept.refl | with_reducible apply Kept.ite | with_reducible apply Kept.step State.sweepCancel_kept
      | with_reducible apply Kept.modSec | with_reducible apply Kept.step State.stageEmpty_kept
      | with_reducible apply Kept.step State.coreStart_kept | with_reducible apply Kept.step State.modCal_kept
      | with_reducible apply Kept.step State.eyeOff_kept | with_reducible apply Kept.step State.modBulk_kept
      | with_reducible apply Kept.step State.setPair_kept | with_reducible apply Kept.step State.modPower_kept
      | with_reducible apply Kept.step State.fmRelease_kept | (show _ = _; rfl) | split

theorem State.cancelLong_kept {s : State} {x1} : Kept [.regs, .power, .host, .cores, .pipes, .cal, .meas, .sec] s (State.cancelLong s x1) := by
  unfold State.cancelLong; repeat' first
      | with_reducible exact Kept.refl | with_reducible apply Kept.step State.longUndo_kept | with_reducible apply Kept.step State.endLong_kept
      | (show _ = _; rfl)

theorem State.sweepFinal_kept {s : State} {x1 x2} : Kept [.regs, .host, .cores, .cal] s (State.sweepFinal s x1 x2) := by
  unfold State.sweepFinal; repeat' first
      | with_reducible exact Kept.refl | with_reducible apply Kept.step State.sweepCancel_kept
      | with_reducible apply Kept.step State.sweepEnd_kept | with_reducible apply Kept.step State.endLong_kept | (show _ = _; rfl) | split

theorem State.longBegin_kept {s : State} {x1} :
    Kept [.regs, .ctr, .power, .host, .cores, .lanes, .ports, .fabric, .cal, .meas, .sec, .waiting, .line] s (State.longBegin s x1) := by
  unfold State.longBegin; repeat' first
      | with_reducible exact Kept.refl | with_reducible apply Kept.step State.mapOut_kept
      | with_reducible apply Kept.step State.ucodeBegin_kept | with_reducible apply Kept.step State.sweepStart_kept
      | with_reducible apply Kept.step State.stageEmpty_kept | with_reducible apply Kept.step State.pathDrop_kept
      | with_reducible apply Kept.step State.showFm_kept | with_reducible apply Kept.step State.modFm_kept
      | with_reducible apply Kept.step State.bulkBegin_kept | with_reducible apply Kept.step State.modCal_kept
      | with_reducible apply Kept.step State.rejoinStart_kept | with_reducible apply Kept.step State.installBegin_kept | (show _ = _; rfl) | split

theorem State.longRun_kept {s : State} {x1} :
    Kept [.regs, .ctr, .power, .host, .cores, .lanes, .ports, .fabric, .cal, .meas, .sec, .waiting, .line] s (State.longRun s x1) := by
  unfold State.longRun; repeat' first
      | with_reducible exact Kept.refl | with_reducible apply Kept.step State.longBegin_kept
      | with_reducible apply Kept.step State.setLong_kept | with_reducible apply Kept.step State.modLong_kept
      | with_reducible apply Kept.step State.endLong_kept | (show _ = _; rfl) | split

theorem State.startQueued_kept {s : State} :
    Kept [.regs, .ctr, .power, .host, .cores, .lanes, .ports, .fabric, .cal, .meas, .sec, .waiting, .line] s (State.startQueued s) := by
  unfold State.startQueued; repeat' first
      | intro _ | with_reducible assumption | with_reducible exact Kept.refl | with_reducible apply Kept.step State.longRun_kept
      | with_reducible apply State.each_kept | (show _ = _; rfl) | split

theorem State.longSuspend_kept {s : State} {x1} : Kept [.regs, .host, .cores, .cal] s (State.longSuspend s x1) := by
  unfold State.longSuspend; repeat' first
      | (extract_lets +onlyGivenNames v; apply Kept.gen (v := v); subst v; rotate_left; clear_value v; intro h; rotate_right)
      | with_reducible assumption | with_reducible exact Kept.refl | with_reducible apply Kept.step State.fmSuspend_kept
      | with_reducible apply Kept.step State.finish_kept | with_reducible apply Kept.step State.setLong_kept
      | with_reducible apply Kept.step State.modCal_kept | with_reducible apply Kept.step State.eyeOff_kept
      | with_reducible apply Kept.step State.modLong_kept | (show _ = _; rfl) | split

theorem State.installed_kept {s : State} {x1 x2 x3} : Kept [.regs, .power, .host, .cores, .sec, .waiting] s (State.installed s x1 x2 x3) := by
  unfold State.installed; repeat' first
      | (extract_lets +onlyGivenNames v; apply Kept.gen (v := v); subst v; rotate_left; clear_value v; intro h; rotate_right)
      | with_reducible assumption | with_reducible exact Kept.refl | with_reducible apply Kept.step State.markInstalled_kept
      | with_reducible apply Kept.step State.coreReset_kept | with_reducible apply Kept.step State.coreStart_kept
      | with_reducible apply Kept.step State.migrate_kept | with_reducible apply State.when_kept
      | with_reducible apply Kept.step State.endLong_kept | with_reducible apply Kept.step State.runImage_kept | (show _ = _; rfl) | split

theorem State.showMixed_kept {s : State} : Kept [.regs] s (State.showMixed s) := by
  unfold State.showMixed; repeat' first | with_reducible exact Kept.refl | with_reducible apply Kept.step State.setF_kept | (show _ = _; rfl)

theorem State.pairRuns_kept {s : State} {x1 x2} : Kept [.regs, .redund, .sec] s (State.pairRuns s x1 x2) := by
  unfold State.pairRuns; repeat' first
      | (extract_lets +onlyGivenNames v; apply Kept.gen (v := v); subst v; rotate_left; clear_value v; intro h; rotate_right)
      | with_reducible assumption | with_reducible exact Kept.refl | with_reducible apply Kept.step State.markInstalled_kept
      | with_reducible apply Kept.step State.modRedund_kept | with_reducible apply Kept.step State.showMixed_kept
      | with_reducible apply Kept.step State.runImage_kept | (show _ = _; rfl) | split

theorem State.swapSoon_kept {s : State} : Kept [.host, .redund] s (State.swapSoon s) := by
  unfold State.swapSoon; repeat' first
      | with_reducible exact Kept.refl | with_reducible apply Kept.step State.modRedund_kept
      | with_reducible apply Kept.step State.modHost_kept | (show _ = _; rfl) | split

theorem State.pairInstalled_kept {s : State} {x1 x2} :
    Kept [.regs, .power, .host, .cores, .mem, .redund, .sec] s (State.pairInstalled s x1 x2) := by
  unfold State.pairInstalled; repeat' first
      | with_reducible exact Kept.refl | with_reducible apply Kept.ite | with_reducible apply Kept.step State.pairRuns_kept
      | with_reducible apply Kept.step State.swapSoon_kept | with_reducible apply Kept.step State.coreStart_kept
      | with_reducible apply Kept.step State.setPair_kept | with_reducible apply Kept.step State.modLong_kept
      | with_reducible apply Kept.step State.endLong_kept | with_reducible apply Kept.step State.joinCopy_kept | (show _ = _; rfl)

theorem State.installFinal_kept {s : State} {x1 x2} :
    Kept [.regs, .power, .host, .cores, .mem, .redund, .sec, .waiting] s (State.installFinal s x1 x2) := by
  unfold State.installFinal; repeat' first
      | with_reducible exact Kept.refl | with_reducible apply Kept.ite | with_reducible apply Kept.step State.installed_kept
      | with_reducible apply Kept.step State.pairInstalled_kept | with_reducible apply Kept.step State.endLong_kept | (show _ = _; rfl)

theorem State.stageFinal_kept {s : State} {x1 x2} : Kept [.regs, .host, .cores, .sec] s (State.stageFinal s x1 x2) := by
  unfold State.stageFinal; repeat' first
      | (extract_lets +onlyGivenNames v; apply Kept.gen (v := v); subst v; rotate_left; clear_value v; intro h; rotate_right)
      | with_reducible assumption | with_reducible exact Kept.refl | with_reducible apply Kept.ite
      | with_reducible apply Kept.step State.stageDone_kept | with_reducible apply Kept.modSec
      | with_reducible apply Kept.step State.stageEmpty_kept | with_reducible apply Kept.step State.endLong_kept | (show _ = _; rfl) | split

theorem State.gateFault_kept {s : State} {x1 x2} : Kept [.regs, .host, .cores, .meas] s (State.gateFault s x1 x2) := by
  unfold State.gateFault; repeat' first
      | (extract_lets +onlyGivenNames v; apply Kept.gen (v := v.1); subst v; rotate_left; clear_value v; intro h; rotate_right)
      | with_reducible assumption | with_reducible exact Kept.refl | with_reducible apply Kept.ite
      | with_reducible apply Kept.step State.eccBank_kept | with_reducible apply Kept.step State.fmRelease_kept
      | with_reducible apply Kept.step State.endLong_kept | (show _ = _; rfl)

theorem State.eyeFinal_kept {s : State} {x1 x2} : Kept [.regs, .host, .cores, .mem, .cal] s (State.eyeFinal s x1 x2) := by
  unfold State.eyeFinal; repeat' first
      | (extract_lets +onlyGivenNames v; apply Kept.gen (v := v); subst v; rotate_left; clear_value v; intro h; rotate_right)
      | with_reducible assumption | with_reducible exact Kept.refl | with_reducible apply Kept.step State.bufWrite_kept
      | with_reducible apply Kept.step State.eyeOff_kept | with_reducible apply Kept.step State.endLong_kept | (show _ = _; rfl) | split

theorem State.bulkFinal_kept {s : State} {x1 x2} : Kept [.regs, .ctr, .host, .cores, .mem, .pipes] s (State.bulkFinal s x1 x2) := by
  unfold State.bulkFinal; repeat' first
      | (extract_lets +onlyGivenNames v; apply Kept.gen (v := v); subst v; rotate_left; clear_value v; intro h; rotate_right)
      | with_reducible assumption | with_reducible exact Kept.refl | with_reducible apply Kept.step State.bulkEnd_kept
      | with_reducible apply Kept.step State.modBulk_kept | with_reducible apply Kept.step State.endLong_kept | (show _ = _; rfl) | split

theorem State.rejoinTake_kept {s : State} {x1} : Kept [.regs, .power, .cores] s (State.rejoinTake s x1) := by
  unfold State.rejoinTake; repeat' first
      | (extract_lets +onlyGivenNames v; apply Kept.gen (v := v); subst v; rotate_left; clear_value v; intro h; rotate_right)
      | with_reducible assumption | with_reducible exact Kept.refl | with_reducible apply Kept.step State.setF_kept
      | with_reducible apply Kept.step State.raiseInt_kept | with_reducible apply Kept.step State.coreStart_kept
      | with_reducible apply State.when_kept | with_reducible apply Kept.step State.setPair_kept | (show _ = _; rfl) | split

theorem State.rejoinFinal_kept {s : State} {x1 x2} : Kept [.regs, .power, .host, .cores, .mem, .redund, .sec] s (State.rejoinFinal s x1 x2) := by
  unfold State.rejoinFinal; repeat' first
      | intro _ | (extract_lets +onlyGivenNames v; apply Kept.gen (v := v); subst v; rotate_left; clear_value v; intro h; rotate_right)
      | with_reducible assumption | with_reducible exact Kept.refl | with_reducible apply Kept.ite
      | with_reducible apply Kept.step State.pairRuns_kept | with_reducible apply Kept.step State.coreStart_kept
      | with_reducible apply State.when_kept | with_reducible apply Kept.step State.setPair_kept
      | with_reducible apply Kept.step State.rejoinTake_kept | with_reducible apply Kept.step State.endLong_kept
      | with_reducible apply Kept.step State.joinCopy_kept | (show _ = _; rfl)

theorem State.longFinal_kept {s : State} {x1 x2} :
    Kept [.regs, .ctr, .power, .host, .cores, .mem, .pipes, .fabric, .cal, .meas, .redund, .sec, .waiting] s (State.longFinal s x1 x2) := by
  unfold State.longFinal; repeat' first
      | with_reducible exact Kept.refl | with_reducible apply Kept.step State.installFinal_kept
      | with_reducible apply Kept.step State.learnFinal_kept | with_reducible apply Kept.step State.stageFinal_kept
      | with_reducible apply Kept.step State.scrubFinal_kept | with_reducible apply Kept.step State.gateFault_kept
      | with_reducible apply Kept.step State.eyeFinal_kept | with_reducible apply Kept.step State.profFinal_kept
      | with_reducible apply Kept.step State.bulkFinal_kept | with_reducible apply Kept.step State.rejoinFinal_kept
      | with_reducible apply Kept.step State.sweepFinal_kept | (show _ = _; rfl) | split

theorem State.longStep_kept {s : State} {x1} : Kept [.regs, .ctr, .host, .mem, .pipes] s (State.longStep s x1) := by
  unfold State.longStep; repeat' first
      | with_reducible exact Kept.refl | with_reducible apply Kept.step State.bulkStep_kept | with_reducible apply Kept.step State.modLong_kept
      | (show _ = _; rfl) | split

theorem State.readGaveUp_kept {s : State} {x1} :
    Kept [.regs, .ctr, .power, .host, .cores, .mem, .lanes, .ports, .pipes, .fabric, .cal, .meas, .redund, .sec, .waiting, .line] s (State.readGaveUp s x1) := by
  unfold State.readGaveUp; repeat' first
      | (extract_lets +onlyGivenNames v; apply Kept.gen (v := v); subst v; rotate_left; clear_value v; intro h; rotate_right)
      | with_reducible assumption | with_reducible exact Kept.refl | with_reducible apply Kept.step State.startQueued_kept
      | with_reducible apply Kept.step State.ringFail_kept | with_reducible apply Kept.step State.longFinal_kept
      | with_reducible apply Kept.step State.endParked_kept | with_reducible apply Kept.step State.modLong_kept
      | with_reducible apply Kept.step State.modHost_kept | (show _ = _; rfl) | split

theorem execLongOpFinal_next {s : State} {x0 x1} :
    ∃ t, execLongOpFinal x0 x1 s = .next t ∧ Kept [.regs, .ctr, .power, .host, .cores, .mem, .lanes, .ports, .pipes, .fabric, .cal, .meas, .redund, .sec, .waiting, .line] s t := by
  refine ⟨_, rfl, ?_⟩; repeat' first
      | with_reducible exact Kept.refl | with_reducible apply Kept.step State.startQueued_kept
      | with_reducible apply Kept.step State.longFinal_kept | (show _ = _; rfl) | split

theorem execLongOpSafePoint_next {s : State} {x0} :
    ∃ t, execLongOpSafePoint x0 s = .next t ∧ Kept [.regs, .ctr, .power, .host, .cores, .mem, .lanes, .ports, .pipes, .fabric, .cal, .meas, .sec, .waiting, .line] s t := by
  refine ⟨_, rfl, ?_⟩; repeat' first
      | with_reducible exact Kept.refl | with_reducible apply Kept.step State.startQueued_kept
      | with_reducible apply Kept.step State.longSuspend_kept | with_reducible apply Kept.step State.longStep_kept | (show _ = _; rfl) | split

theorem execLongCtrl_next {s : State} {x0} :
    ∃ t, execLongCtrl x0 s = .next t ∧ Kept [.regs, .ctr, .power, .host, .cores, .lanes, .ports, .pipes, .fabric, .cal, .meas, .sec, .waiting, .line] s t := by
  refine ⟨_, rfl, ?_⟩; repeat' first
      | intro _ | (extract_lets +onlyGivenNames v; apply Kept.gen (v := v); subst v; rotate_left; clear_value v; intro h; rotate_right)
      | with_reducible assumption | with_reducible exact Kept.refl | with_reducible apply Kept.step State.parkId_kept
      | with_reducible apply State.start_kept | with_reducible apply Kept.step State.complete_kept
      | with_reducible apply Kept.step State.longRun_kept | with_reducible apply Kept.step State.startQueued_kept
      | with_reducible apply Kept.step State.cancelLong_kept | with_reducible apply Kept.step State.setLong_kept
      | with_reducible apply Kept.step State.modLong_kept | (show _ = _; rfl) | split

theorem execPairRejoin_next {s : State} {x0} : ∃ t, execPairRejoin x0 s = .next t ∧ Kept [.regs, .power, .host, .cores, .waiting] s t := by
  refine ⟨_, rfl, ?_⟩; repeat' first
      | intro _ | with_reducible assumption | with_reducible exact Kept.refl | with_reducible apply State.start_kept
      | with_reducible apply Kept.step State.complete_kept | with_reducible apply State.startLong_kept
      | with_reducible apply Kept.step State.rejoinStart_kept | (show _ = _; rfl) | split

theorem execProfileEraseDone_next {s : State} :
    ∃ t, execProfileEraseDone s = .next t ∧ Kept [.regs, .ctr, .power, .host, .cores, .lanes, .ports, .fabric, .cal, .meas, .sec, .waiting, .line] s t := by
  refine ⟨_, rfl, ?_⟩; repeat' first
      | with_reducible exact Kept.refl | with_reducible apply Kept.step State.setF_kept | with_reducible apply Kept.modSec
      | with_reducible apply Kept.step State.startQueued_kept | (show _ = _; rfl) | split

theorem execLongQuery_next {s : State} {x0} : ∃ t, execLongQuery x0 s = .next t ∧ Kept [.regs, .host, .cores] s t := by
  refine ⟨_, rfl, ?_⟩; repeat' first
      | intro _ | with_reducible assumption | with_reducible exact Kept.refl | with_reducible apply State.start_kept
      | with_reducible apply Kept.step State.complete_kept | (show _ = _; rfl) | split

theorem execPcieCto_next {s : State} {x0 x1} :
    ∃ t, execPcieCto x0 x1 s = .next t ∧ Kept [.regs, .ctr, .power, .host, .cores, .mem, .lanes, .ports, .pipes, .fabric, .cal, .meas, .redund, .sec, .waiting, .line] s t := by
  refine ⟨_, rfl, ?_⟩; repeat' first
      | (extract_lets +onlyGivenNames v; apply Kept.gen (v := v); subst v; rotate_left; clear_value v; intro h; rotate_right)
      | with_reducible assumption | with_reducible exact Kept.refl | with_reducible apply Kept.ite
      | with_reducible apply Kept.step State.bump_kept | with_reducible apply Kept.step State.pcieEvent_kept
      | with_reducible apply Kept.step State.readGaveUp_kept | with_reducible apply Kept.step State.showRecovering_kept
      | with_reducible apply Kept.step State.modHost_kept | (show _ = _; rfl)

end Sys2Proof.Machine
end

