-- ==== Sys2Proof/Laws/FramePowerSet.lean ====
section
/-!
SUPPORT. Sys2Proof/Laws/FramePowerSet.lean: what each operation of Machine/PowerSet.lean may change, and that it keeps the canonical forms.
-/
namespace Sys2Proof.Machine
open Sys2Proof

theorem State.powerDone_kept {s : State} {x1} : Kept [.regs, .power, .host, .cores] s (State.powerDone s x1) := by
  unfold State.powerDone; repeat' first
      | (extract_lets +onlyGivenNames v; apply Kept.gen (v := v); subst v; rotate_left; clear_value v; intro h; rotate_right)
      | with_reducible assumption | with_reducible exact Kept.refl | with_reducible apply Kept.step State.setF_kept
      | with_reducible apply Kept.step State.finish_kept | with_reducible apply Kept.step State.raise_kept
      | with_reducible apply Kept.step State.modPower_kept | (show _ = _; rfl)

theorem State.standbyEnter_kept {s : State} {x1} :
    Kept [.regs, .ctr, .cnt, .time, .power, .host, .cores, .mem, .lanes, .ports, .pipes, .fabric, .servo, .cal, .refs, .meas, .redund, .sec, .waiting, .written] s (State.standbyEnter s x1) := by
  unfold State.standbyEnter; repeat' first
      | with_reducible exact Kept.refl | with_reducible apply Kept.step State.mainStop_kept
      | with_reducible apply Kept.step State.modPower_kept | (show _ = _; rfl)

theorem State.flushAll_kept {s : State} {x1} : Kept [.regs, .ctr, .host, .cores, .lanes, .ports, .fabric, .cal, .line] s (State.flushAll s x1) := by
  unfold State.flushAll; repeat' first
      | intro _ | (extract_lets +onlyGivenNames v; apply Kept.gen (v := v); subst v; rotate_left; clear_value v; intro h; rotate_right)
      | with_reducible assumption | with_reducible exact Kept.refl | with_reducible apply State.each_kept
      | with_reducible apply Kept.step State.modFabric_kept | with_reducible apply Kept.step State.release_kept | (show _ = _; rfl)

theorem State.portsToL2_kept {s : State} {x1} :
    Kept [.regs, .ctr, .host, .cores, .lanes, .ports, .fabric, .cal, .line] s (State.portsToL2 s x1) := by
  unfold State.portsToL2; repeat' first
      | intro _ | with_reducible assumption | with_reducible exact Kept.refl | with_reducible apply Kept.step State.goLink_kept
      | with_reducible apply State.each_kept | with_reducible apply Kept.step State.modFabric_kept | (show _ = _; rfl)

theorem State.drainEnd_kept {s : State} {x1} :
    Kept [.regs, .ctr, .cnt, .time, .power, .host, .cores, .mem, .lanes, .ports, .pipes, .fabric, .servo, .cal, .refs, .meas, .redund, .sec, .waiting, .written, .line] s (State.drainEnd s x1) := by
  unfold State.drainEnd; repeat' first
      | (extract_lets +onlyGivenNames v; apply Kept.gen (v := v); subst v; rotate_left; clear_value v; intro h; rotate_right)
      | with_reducible assumption | with_reducible exact Kept.refl | with_reducible apply Kept.step State.standbyEnter_kept
      | with_reducible apply Kept.step State.powerDone_kept | with_reducible apply Kept.step State.flushAll_kept
      | with_reducible apply Kept.step State.modFabric_kept | with_reducible apply Kept.step State.portsToL2_kept | (show _ = _; rfl) | split

theorem State.powerBegin_kept {s : State} {x1} :
    Kept [.regs, .ctr, .cnt, .time, .power, .host, .cores, .mem, .lanes, .ports, .pipes, .fabric, .servo, .cal, .refs, .meas, .redund, .sec, .waiting, .written, .line] s (State.powerBegin s x1) := by
  unfold State.powerBegin; repeat' first
      | intro _ | (extract_lets +onlyGivenNames v; apply Kept.gen (v := v); subst v; rotate_left; clear_value v; intro h; rotate_right)
      | with_reducible assumption | with_reducible exact Kept.refl | with_reducible apply Kept.step State.showXoff_kept
      | with_reducible apply Kept.step State.modParked_kept | with_reducible apply Kept.step State.modLane_kept
      | with_reducible apply State.each_kept | with_reducible apply Kept.step State.clearPause_kept
      | with_reducible apply Kept.step State.powerDone_kept | with_reducible apply Kept.step State.modFabric_kept
      | with_reducible apply Kept.step State.drainEnd_kept | with_reducible apply Kept.step State.modPower_kept | (show _ = _; rfl) | split

theorem State.saRestore_kept {s : State} {x1} : Kept [.regs, .ports] s (State.saRestore s x1) := by
  unfold State.saRestore; repeat' first
      | (extract_lets +onlyGivenNames v; apply Kept.gen (v := v); subst v; rotate_left; clear_value v; intro h; rotate_right)
      | with_reducible assumption | with_reducible exact Kept.refl | with_reducible apply Kept.step State.saWrite_kept | (show _ = _; rfl)
      | split | with_reducible apply Kept.put_ports

theorem State.powerBoundary_kept {s : State} :
    Kept [.regs, .ctr, .cnt, .time, .power, .host, .cores, .mem, .lanes, .ports, .pipes, .fabric, .servo, .cal, .refs, .meas, .redund, .sec, .waiting, .written, .line] s (State.powerBoundary s) := by
  unfold State.powerBoundary; repeat' first
      | with_reducible exact Kept.refl | with_reducible apply Kept.step State.drainEnd_kept
      | with_reducible apply Kept.step State.powerBegin_kept | (show _ = _; rfl) | split

theorem State.countersClear_kept {s : State} {x1 x2} : Kept [.ctr] s (State.countersClear s x1 x2) := by
  unfold State.countersClear; repeat' first | with_reducible exact Kept.refl | (show _ = _; rfl) | with_reducible apply Kept.put_ctr

theorem State.portFresh_kept {s : State} {x1} :
    Kept [.regs, .ctr, .host, .cores, .lanes, .ports, .fabric, .cal, .line] s (State.portFresh s x1) := by
  unfold State.portFresh; repeat' first
      | intro _ | with_reducible assumption | with_reducible exact Kept.refl | with_reducible apply Kept.step State.setReg_kept
      | with_reducible apply Kept.step State.goLink_kept | with_reducible apply Kept.step State.linkRestart_kept
      | with_reducible apply State.each_kept | with_reducible apply Kept.step State.quarRelease_kept
      | with_reducible apply Kept.step State.linkFresh_kept | (show _ = _; rfl) | split

theorem State.portReset_kept {s : State} {x1} :
    Kept [.regs, .ctr, .host, .cores, .lanes, .ports, .fabric, .cal, .waiting, .line] s (State.portReset s x1) := by
  unfold State.portReset; repeat' first
      | (extract_lets +onlyGivenNames v; apply Kept.gen (v := v); subst v; rotate_left; clear_value v; intro h; rotate_right)
      | with_reducible assumption | with_reducible exact Kept.refl | with_reducible apply Kept.step State.showXoff_kept
      | with_reducible apply Kept.step State.showPause_kept | with_reducible apply Kept.step State.regsRestore_kept
      | with_reducible apply Kept.step State.flushAll_kept | with_reducible apply Kept.step State.saRestore_kept
      | with_reducible apply Kept.step State.countersClear_kept | with_reducible apply Kept.step State.modMac_kept
      | with_reducible apply Kept.step State.portFresh_kept | (show _ = _; rfl)

theorem State.deepInit_kept {s : State} : Kept [.regs] s (State.deepInit s) := by
  unfold State.deepInit; repeat' first
      | (extract_lets +onlyGivenNames v; apply Kept.gen (v := v); subst v; rotate_left; clear_value v; intro h; rotate_right)
      | with_reducible assumption | with_reducible exact Kept.refl | with_reducible apply Kept.step State.setF_kept
      | with_reducible apply Kept.step State.showDeep_kept | (show _ = _; rfl)

theorem State.fabricReset_kept {s : State} :
    Kept [.regs, .ctr, .host, .cores, .lanes, .ports, .fabric, .cal, .waiting, .line] s (State.fabricReset s) := by
  unfold State.fabricReset; repeat' first
      | intro _ | (extract_lets +onlyGivenNames v; apply Kept.gen (v := v); subst v; rotate_left; clear_value v; intro h; rotate_right)
      | with_reducible assumption | with_reducible exact Kept.refl | with_reducible apply Kept.step State.setF_kept
      | with_reducible apply Kept.step State.deepInit_kept | with_reducible apply Kept.step State.regsRestore_kept
      | with_reducible apply State.each_kept | with_reducible apply Kept.step State.flushAll_kept
      | with_reducible apply Kept.step State.modFabric_kept | with_reducible apply Kept.step State.countersClear_kept | (show _ = _; rfl)

theorem State.groupRegs_kept {s : State} {x1} : Kept [.regs, .waiting] s (State.groupRegs s x1) := by
  unfold State.groupRegs; repeat' first
      | with_reducible exact Kept.refl | with_reducible apply Kept.step State.setF_kept | with_reducible apply Kept.step State.showPll_kept
      | with_reducible apply Kept.step State.regsRestore_kept | (show _ = _; rfl)

theorem State.groupReset_kept {s : State} {x1} :
    Kept [.regs, .ctr, .host, .cores, .lanes, .ports, .fabric, .cal, .waiting, .line] s (State.groupReset s x1) := by
  unfold State.groupReset; repeat' first
      | intro _ | (extract_lets +onlyGivenNames v; apply Kept.gen (v := v); subst v; rotate_left; clear_value v; intro h; rotate_right)
      | with_reducible assumption | with_reducible exact Kept.refl | with_reducible apply State.lanesChange_kept
      | with_reducible apply Kept.step State.setF_kept | with_reducible apply Kept.step State.modLane_kept
      | with_reducible apply State.each_kept | with_reducible apply Kept.step State.quarRelease_kept
      | with_reducible apply Kept.step State.groupRegs_kept | with_reducible apply Kept.step State.portFresh_kept | (show _ = _; rfl)

theorem State.pipeReset_kept {s : State} {x1} : Kept [.regs, .ctr, .pipes, .waiting] s (State.pipeReset s x1) := by
  unfold State.pipeReset; repeat' first
      | (extract_lets +onlyGivenNames v; apply Kept.gen (v := v); subst v; rotate_left; clear_value v; intro h; rotate_right)
      | with_reducible assumption | with_reducible exact Kept.refl | with_reducible apply Kept.step State.modPipe_kept
      | with_reducible apply Kept.step State.regsRestore_kept | with_reducible apply Kept.step State.countersClear_kept
      | with_reducible apply Kept.step State.genBoot_kept | (show _ = _; rfl)

theorem execPowerStateSet_next {s : State} {x0} :
    ∃ t, execPowerStateSet x0 s = .next t ∧ Kept [.regs, .ctr, .power, .host, .cores, .lanes, .ports, .pipes, .fabric, .cal, .meas, .sec, .waiting, .line] s t := by
  refine ⟨_, rfl, ?_⟩; repeat' first
      | intro _ | (extract_lets +onlyGivenNames v; apply Kept.gen (v := v); subst v; rotate_left; clear_value v; intro h; rotate_right)
      | with_reducible assumption | with_reducible exact Kept.refl | with_reducible apply Kept.ite
      | with_reducible apply Kept.step State.parkId_kept | with_reducible apply State.start_kept
      | with_reducible apply Kept.step State.setF_kept | with_reducible apply Kept.step State.complete_kept
      | with_reducible apply Kept.step State.startQueued_kept | with_reducible apply Kept.step State.cancelLong_kept
      | with_reducible apply State.each_kept | with_reducible apply Kept.step State.modPower_kept | (show _ = _; rfl)

theorem execQuietDrainEnd_next {s : State} :
    ∃ t, execQuietDrainEnd s = .next t ∧ Kept [.regs, .ctr, .cnt, .time, .power, .host, .cores, .mem, .lanes, .ports, .pipes, .fabric, .servo, .cal, .refs, .meas, .redund, .sec, .waiting, .written, .line] s t := by
  refine ⟨_, rfl, ?_⟩; repeat' first
      | with_reducible exact Kept.refl | with_reducible apply Kept.step State.drainEnd_kept | (show _ = _; rfl) | split

theorem execDomainReset_next {s : State} {x0} :
    ∃ t, execDomainReset x0 s = .next t ∧ Kept [.regs, .ctr, .power, .host, .cores, .lanes, .ports, .pipes, .fabric, .cal, .waiting, .line] s t := by
  refine ⟨_, rfl, ?_⟩; repeat' first
      | intro _ | (extract_lets +onlyGivenNames v; apply Kept.gen (v := v); subst v; rotate_left; clear_value v; intro h; rotate_right)
      | with_reducible assumption | with_reducible exact Kept.refl | with_reducible apply Kept.step State.portReset_kept
      | with_reducible apply State.start_kept | with_reducible apply Kept.step State.pipeReset_kept
      | with_reducible apply Kept.step State.complete_kept | with_reducible apply Kept.step State.coreRestart_kept
      | with_reducible apply Kept.step State.hostReset_kept | with_reducible apply Kept.step State.fabricReset_kept
      | with_reducible apply Kept.step State.groupReset_kept | (show _ = _; rfl) | split

end Sys2Proof.Machine
end

