-- ==== Sys2Proof/Laws/FrameBoot.lean ====
section
/-!
SUPPORT. Sys2Proof/Laws/FrameBoot.lean: what each operation of Machine/Boot.lean may change, and that it keeps the canonical forms.
-/
namespace Sys2Proof.Machine
open Sys2Proof

theorem State.bootSettings_kept {s : State} {x1 x2} : Kept [.regs, .power, .ports, .pipes] s (State.bootSettings s x1 x2) := by
  unfold State.bootSettings; repeat' first
      | intro _ | (extract_lets +onlyGivenNames v; apply Kept.gen (v := v); subst v; rotate_left; clear_value v; intro h; rotate_right)
      | with_reducible assumption | with_reducible exact Kept.refl | with_reducible apply Kept.step State.setF_kept
      | with_reducible apply Kept.step State.settle_kept | with_reducible apply State.each_kept
      | with_reducible apply Kept.step State.saRestore_kept | with_reducible apply State.when_kept
      | with_reducible apply Kept.step State.genBoot_kept | with_reducible apply Kept.step State.modPower_kept | (show _ = _; rfl) | split

theorem State.bootImages_kept {s : State} {x1 x2 x3 x4} : Kept [.regs, .sec] s (State.bootImages s x1 x2 x3 x4) := by
  unfold State.bootImages; repeat' first
      | intro _ | (extract_lets +onlyGivenNames v; apply Kept.gen (v := v); subst v; rotate_left; clear_value v; intro h; rotate_right)
      | with_reducible assumption | with_reducible exact Kept.refl | with_reducible apply Kept.step State.setReg_kept
      | with_reducible apply Kept.step State.setF_kept | with_reducible apply Kept.modSec | with_reducible apply State.each_kept
      | (show _ = _; rfl) | split

theorem State.bootPair_kept {s : State} : Kept [.regs] s (State.bootPair s) := by
  unfold State.bootPair; repeat' first
      | with_reducible exact Kept.refl | with_reducible apply Kept.step State.setF_kept | with_reducible apply Kept.step State.setPair_kept
      | (show _ = _; rfl)

theorem State.bootBanks_kept {s : State} : Kept [.regs] s (State.bootBanks s) := by
  unfold State.bootBanks; repeat' first
      | intro _ | (extract_lets +onlyGivenNames v; apply Kept.gen (v := v); subst v; rotate_left; clear_value v; intro h; rotate_right)
      | with_reducible assumption | with_reducible exact Kept.refl | with_reducible apply Kept.step State.setF_kept
      | with_reducible apply State.each_kept | with_reducible apply Kept.step State.showIlv_kept | (show _ = _; rfl)

theorem State.bootRun_kept {s : State} {x1 x2 x3 x4} :
    Kept [.regs, .power, .host, .cores, .ports, .pipes, .sec] s (State.bootRun s x1 x2 x3 x4) := by
  unfold State.bootRun; repeat' first
      | intro _ | (extract_lets +onlyGivenNames v; apply Kept.gen (v := v); subst v; rotate_left; clear_value v; intro h; rotate_right)
      | with_reducible assumption | with_reducible exact Kept.refl | with_reducible apply Kept.step State.bootSettings_kept
      | with_reducible apply Kept.step State.setF_kept | with_reducible apply Kept.step State.bootImages_kept
      | with_reducible apply State.each_kept | with_reducible apply Kept.step State.bootPair_kept
      | with_reducible apply Kept.step State.coreStart_kept | with_reducible apply Kept.step State.migrate_kept
      | with_reducible apply Kept.step State.bootBanks_kept | with_reducible apply State.when_kept
      | with_reducible apply Kept.step State.modPower_kept | (show _ = _; rfl)

theorem State.bootDone_kept {s : State} : Kept [.regs, .host, .cores] s (State.bootDone s) := by
  unfold State.bootDone; repeat' first
      | (extract_lets +onlyGivenNames v; apply Kept.gen (v := v); subst v; rotate_left; clear_value v; intro h; rotate_right)
      | with_reducible assumption | with_reducible exact Kept.refl | with_reducible apply Kept.step State.setF_kept
      | with_reducible apply Kept.step State.raise_kept | (show _ = _; rfl)

theorem State.recover_kept {s : State} : Kept [.regs, .power, .cores] s (State.recover s) := by
  unfold State.recover; repeat' first
      | with_reducible exact Kept.refl | with_reducible apply Kept.step State.setF_kept | with_reducible apply Kept.step State.coreStart_kept
      | with_reducible apply Kept.step State.modPower_kept | (show _ = _; rfl)

theorem State.owedEvents_kept {s : State} : Kept [.regs, .host, .cores, .sec, .freeCtr] s (State.owedEvents s) := by
  unfold State.owedEvents; repeat' first
      | intro _ | (extract_lets +onlyGivenNames v; apply Kept.gen (v := v); subst v; rotate_left; clear_value v; intro h; rotate_right)
      | with_reducible assumption | with_reducible exact Kept.refl | with_reducible apply Kept.step State.fresh_kept
      | with_reducible apply Kept.modSec | with_reducible apply State.each_kept | with_reducible apply Kept.step State.raise_kept
      | with_reducible apply Kept.step State.tamperEvent_kept | (show _ = _; rfl) | split

theorem State.joinBlocks_kept {s : State} :
    Kept [.regs, .ctr, .host, .cores, .lanes, .ports, .fabric, .servo, .cal, .refs, .meas, .line] s (State.joinBlocks s) := by
  unfold State.joinBlocks; repeat' first
      | intro _ | (extract_lets +onlyGivenNames v; apply Kept.gen (v := v); subst v; rotate_left; clear_value v; intro h; rotate_right)
      | with_reducible assumption | with_reducible exact Kept.refl | with_reducible apply Kept.step State.slotConfig_kept
      | with_reducible apply Kept.step State.deepInit_kept | with_reducible apply Kept.step State.sessApply_kept
      | with_reducible apply Kept.step State.candStart_kept | with_reducible apply State.each_kept
      | with_reducible apply Kept.step State.lanesBoot_kept | with_reducible apply Kept.step State.linkLoad_kept
      | with_reducible apply Kept.step State.evoutBoot_kept | with_reducible apply Kept.step State.synLoad_kept
      | with_reducible apply Kept.step State.calJoin_kept | with_reducible apply Kept.step State.slotCoefs_kept
      | with_reducible apply Kept.step State.synEnable_kept | with_reducible apply Kept.step State.dpllOpened_kept | (show _ = _; rfl)

theorem execMainResetRelease_next {s : State} {x0} :
    ∃ t, execMainResetRelease x0 s = .next t ∧ Kept [.regs, .power, .host, .cores, .ports, .pipes, .sec] s t := by
  refine ⟨_, rfl, ?_⟩; repeat' first
      | (extract_lets +onlyGivenNames v; apply Kept.gen (v := v); subst v; rotate_left; clear_value v; intro h; rotate_right)
      | (extract_lets +onlyGivenNames v; clear_value v) | with_reducible assumption | with_reducible exact Kept.refl
      | with_reducible apply Kept.step State.bootRun_kept | with_reducible apply Kept.step State.setF_kept
      | with_reducible apply Kept.step State.coresFrom_kept | with_reducible apply Kept.step State.modPower_kept
      | with_reducible apply Kept.step State.recover_kept | (show _ = _; rfl) | split

theorem execJoinBeat_next {s : State} :
    ∃ t, execJoinBeat s = .next t ∧ Kept [.regs, .ctr, .time, .power, .host, .cores, .lanes, .ports, .fabric, .servo, .cal, .refs, .meas, .sec, .line, .freeCtr] s t := by
  refine ⟨_, rfl, ?_⟩; repeat' first
      | intro _ | (extract_lets +onlyGivenNames v; apply Kept.gen (v := v); subst v; rotate_left; clear_value v; intro h; rotate_right)
      | with_reducible assumption | with_reducible exact Kept.refl | with_reducible apply Kept.step State.owedEvents_kept
      | with_reducible apply State.each_kept | with_reducible apply Kept.step State.beatFetch_kept
      | with_reducible apply Kept.step State.joinBlocks_kept | with_reducible apply Kept.modTime
      | with_reducible apply Kept.step State.modPower_kept | with_reducible apply Kept.step State.bootDone_kept
      | with_reducible apply Kept.step State.beatInt_kept | (show _ = _; rfl) | split

end Sys2Proof.Machine
end

