-- ==== Sys2Proof/Laws/FrameBoundary.lean ====
section
/-!
SUPPORT. Sys2Proof/Laws/FrameBoundary.lean: what each operation of Machine/Boundary.lean may change, and that it keeps the canonical forms.
-/
namespace Sys2Proof.Machine
open Sys2Proof

theorem State.dropStaged_kept {s : State} : Kept [.waiting] s (State.dropStaged s) := by
  unfold State.dropStaged; repeat' first | with_reducible exact Kept.refl | (show _ = _; rfl) | split | with_reducible apply Kept.put_waiting

theorem State.order1_kept {s : State} {x1} : Kept [.regs, .power, .host, .cores, .mem, .redund, .waiting, .freeCtr] s (State.order1 s x1) := by
  unfold State.order1; repeat' first
      | with_reducible exact Kept.refl | with_reducible apply Kept.step State.installStep_kept
      | with_reducible apply Kept.step State.redundBoundary_kept | with_reducible apply Kept.step State.dropStaged_kept | (show _ = _; rfl)

theorem State.pairBoundary_kept {s : State} : Kept [.regs, .host, .redund, .freeCtr] s (State.pairBoundary s) := by
  unfold State.pairBoundary; repeat' first
      | with_reducible exact Kept.refl | with_reducible apply Kept.step State.boardPin_kept
      | with_reducible apply Kept.step State.modRedund_kept | with_reducible apply Kept.step State.modHost_kept | (show _ = _; rfl)

theorem State.applyWaiting_kept {s : State} :
    Kept [.regs, .ctr, .host, .cores, .lanes, .ports, .fabric, .servo, .cal, .refs, .meas, .waiting, .line] s (State.applyWaiting s) := by
  unfold State.applyWaiting; repeat' first
      | intro _ | (extract_lets +onlyGivenNames v; apply Kept.gen (v := v); subst v; rotate_left; clear_value v; intro h; rotate_right)
      | with_reducible assumption | with_reducible exact Kept.refl | with_reducible apply Kept.step State.slotConfig_kept
      | with_reducible apply Kept.step State.setReg_kept | with_reducible apply Kept.step State.spillState_kept
      | with_reducible apply Kept.step State.acctXoff_kept | with_reducible apply Kept.step State.showDeep_kept
      | with_reducible apply State.each_kept | with_reducible apply Kept.step State.evinConfig_kept
      | with_reducible apply Kept.step State.imConfig_kept | with_reducible apply Kept.step State.candConfig_kept
      | with_reducible apply Kept.step State.fmConfig_kept | (show _ = _; rfl) | split | with_reducible apply Kept.put_waiting

theorem State.order4_kept {s : State} :
    Kept [.regs, .ctr, .time, .power, .host, .cores, .lanes, .ports, .pipes, .fabric, .servo, .cal, .refs, .meas, .redund, .sec, .waiting, .written, .line, .freeCtr] s (State.order4 s) := by
  unfold State.order4; repeat' first
      | (extract_lets +onlyGivenNames v; apply Kept.gen (v := v); subst v; rotate_left; clear_value v; intro h; rotate_right)
      | with_reducible assumption | with_reducible exact Kept.refl | with_reducible apply Kept.step State.sessBoundary_kept
      | with_reducible apply Kept.step State.profBoundary_kept | with_reducible apply Kept.step State.sessGone_kept
      | with_reducible apply Kept.step State.applyWaiting_kept | with_reducible apply Kept.step State.calBoundary_kept
      | with_reducible apply Kept.step State.linkBoundary_kept | with_reducible apply Kept.step State.coefBoundary_kept | (show _ = _; rfl) | split

theorem State.counterWrites_kept {s : State} {x1} :
    Kept [.regs, .cnt, .time, .power, .host, .cores, .fabric, .servo, .meas] s (State.counterWrites s x1).1 := by
  unfold State.counterWrites; repeat' first
      | intro _ | (extract_lets +onlyGivenNames v; apply Kept.gen (v := v); subst v; rotate_left; clear_value v; intro h; rotate_right)
      | (extract_lets +onlyGivenNames v; apply Kept.gen (v := v.1); subst v; rotate_left; clear_value v; intro h; rotate_right)
      | with_reducible assumption | with_reducible exact Kept.refl | with_reducible apply Kept.foldlFst
      | with_reducible apply Kept.step State.cntWrite_kept | with_reducible apply Kept.modTime | (show _ = _; rfl)

theorem State.order2_kept {s : State} : Kept [.regs, .cnt, .time, .power, .host, .cores, .fabric, .servo, .refs, .meas] s (State.order2 s).1 := by
  unfold State.order2; repeat' first
      | intro _ | (extract_lets +onlyGivenNames v; apply Kept.gen (v := v); subst v; rotate_left; clear_value v; intro h; rotate_right)
      | (extract_lets +onlyGivenNames v; clear_value v) | with_reducible assumption | with_reducible exact Kept.refl
      | with_reducible apply State.each_kept | with_reducible apply Kept.step State.firstStep_kept
      | with_reducible apply Kept.step State.counterWrites_kept | with_reducible apply Kept.step State.dropSkipped_kept | (show _ = _; rfl)
      | (with_reducible apply Kept.fst (by assumption)) | split

theorem State.order8_kept {s : State} {x1} : Kept [.regs, .host, .cores, .refs] s (State.order8 s x1) := by
  unfold State.order8; repeat' first
      | intro _ | (extract_lets +onlyGivenNames v; apply Kept.gen (v := v); subst v; rotate_left; clear_value v; intro h; rotate_right)
      | with_reducible assumption | with_reducible exact Kept.refl | with_reducible apply Kept.step State.dpllDecide_kept
      | with_reducible apply Kept.step State.candEval_kept | with_reducible apply State.each_kept
      | with_reducible apply Kept.step State.disputes_kept | (show _ = _; rfl) | split

theorem State.order7_kept {s : State} : Kept [.regs, .host, .cores, .meas] s (State.order7 s) := by
  unfold State.order7; repeat' first
      | intro _ | with_reducible assumption | with_reducible exact Kept.refl | with_reducible apply Kept.step State.evoutDefer_kept
      | with_reducible apply State.each_kept | with_reducible apply Kept.step State.evoutLoads_kept | (show _ = _; rfl) | split

theorem State.order3_kept {s : State} : Kept [.regs, .cnt, .host, .cores, .servo, .refs] s (State.order3 s) := by
  unfold State.order3; repeat' first
      | intro _ | (extract_lets +onlyGivenNames v; apply Kept.gen (v := v); subst v; rotate_left; clear_value v; intro h; rotate_right)
      | with_reducible assumption | with_reducible exact Kept.refl | with_reducible apply Kept.ite
      | with_reducible apply Kept.step State.slotResults_kept | with_reducible apply Kept.step State.dpllHold_kept
      | with_reducible apply Kept.step State.dpllRun_kept | with_reducible apply State.each_kept
      | with_reducible apply Kept.step State.forceBoundary_kept | with_reducible apply Kept.step State.dpllTake_kept
      | with_reducible apply Kept.step State.modDpll_kept | (show _ = _; rfl)

theorem State.record_kept {s : State} : Kept [.time] s (State.record s) := by
  unfold State.record; repeat' first | with_reducible exact Kept.refl | with_reducible apply Kept.modTime | (show _ = _; rfl)

theorem State.boundaryEnd_kept {s : State} :
    Kept [.regs, .ctr, .time, .host, .cores, .lanes, .ports, .pipes, .fabric, .servo, .cal, .refs, .meas, .redund, .line] s (State.boundaryEnd s) := by
  unfold State.boundaryEnd; repeat' first
      | intro _ | (extract_lets +onlyGivenNames v; apply Kept.gen (v := v); subst v; rotate_left; clear_value v; intro h; rotate_right)
      | with_reducible assumption | with_reducible exact Kept.refl | with_reducible apply Kept.step State.measBoundary_kept
      | with_reducible apply Kept.step State.esmcBoundary_kept | with_reducible apply Kept.step State.fmBoundary_kept
      | with_reducible apply Kept.step State.clkSecond_kept | with_reducible apply Kept.step State.milletBoundary_kept
      | with_reducible apply Kept.step State.record_kept | with_reducible apply State.each_kept
      | with_reducible apply Kept.step State.slotCountdown_kept | with_reducible apply Kept.step State.showBackoff_kept
      | with_reducible apply Kept.step State.showServo_kept | with_reducible apply Kept.step State.flapBoundary_kept
      | with_reducible apply Kept.step State.showStale_kept | (show _ = _; rfl)

theorem State.swapStepped_kept {s : State} {x1} : Kept [.regs, .power, .host, .cores, .redund, .waiting] s (State.swapStepped s x1) := by
  unfold State.swapStepped; repeat' first
      | with_reducible exact Kept.refl | with_reducible apply Kept.step State.swapStep_kept
      | with_reducible apply Kept.step State.installStep_kept | with_reducible apply Kept.step State.dropStaged_kept | (show _ = _; rfl) | split

theorem State.order9_kept {s : State} : Kept [.regs, .host, .cores] s (State.order9 s) := by
  unfold State.order9; repeat' first
      | intro _ | with_reducible assumption | with_reducible exact Kept.refl | with_reducible apply State.each_kept
      | with_reducible apply Kept.step State.beatFetch_kept | with_reducible apply Kept.step State.beatInt_kept | (show _ = _; rfl)

theorem State.mainBoundary_kept {s : State} :
    Kept [.regs, .ctr, .cnt, .time, .power, .host, .cores, .mem, .lanes, .ports, .pipes, .fabric, .servo, .cal, .refs, .meas, .redund, .sec, .waiting, .written, .line, .freeCtr] s (State.mainBoundary s).1 := by
  unfold State.mainBoundary; repeat' first
      | (extract_lets +onlyGivenNames v; apply Kept.gen (v := v); subst v; rotate_left; clear_value v; intro h; rotate_right)
      | with_reducible assumption | with_reducible exact Kept.refl | with_reducible apply Kept.step State.order4_kept
      | with_reducible apply Kept.step State.order2_kept | with_reducible apply Kept.step State.order1_kept
      | with_reducible apply Kept.step State.profCommits_kept | with_reducible apply Kept.step State.measBegin_kept
      | with_reducible apply Kept.step State.snapBoundary_kept | with_reducible apply Kept.step State.order8_kept
      | with_reducible apply Kept.step State.startQueued_kept | with_reducible apply Kept.step State.order7_kept
      | with_reducible apply Kept.step State.scaleRates_kept | with_reducible apply Kept.step State.order3_kept
      | with_reducible apply Kept.step State.boundaryEnd_kept | with_reducible apply Kept.step State.swapStepped_kept
      | with_reducible apply Kept.step State.order9_kept | with_reducible apply Kept.step State.laneBeat_kept
      | with_reducible apply Kept.step State.commitBoundary_kept | with_reducible apply Kept.step State.powerBoundary_kept
      | with_reducible apply Kept.modTime | with_reducible apply Kept.step State.dpllReport_kept | (show _ = _; rfl)

theorem State.snapLatch_kept {s : State} : Kept [.regs, .time] s (State.snapLatch s) := by
  unfold State.snapLatch; repeat' first
      | with_reducible exact Kept.refl | with_reducible apply Kept.step State.latchCounters_kept | (show _ = _; rfl) | split

theorem State.toBoundary_kept {s : State} : Kept [.regs, .cnt, .time] s (State.toBoundary s) := by
  unfold State.toBoundary; repeat' first
      | (extract_lets +onlyGivenNames v; apply Kept.gen (v := v); subst v; rotate_left; clear_value v; intro h; rotate_right)
      | with_reducible assumption | with_reducible exact Kept.refl | with_reducible apply Kept.ite
      | with_reducible apply Kept.step State.setF_kept | with_reducible apply Kept.step State.pass_kept
      | with_reducible apply Kept.step State.ticks_kept | with_reducible apply Kept.step State.latchCounters_kept
      | with_reducible apply Kept.step State.showBeat_kept | with_reducible apply Kept.modTime | (show _ = _; rfl)

theorem State.islandBoundary_kept {s : State} : Kept [.regs, .cnt, .time, .host, .cores, .refs, .meas] s (State.islandBoundary s) := by
  unfold State.islandBoundary; repeat' first
      | with_reducible exact Kept.refl | with_reducible apply Kept.step State.dpllHold_kept | with_reducible apply Kept.step State.dpllRun_kept
      | with_reducible apply Kept.step State.record_kept | with_reducible apply Kept.step State.evoutLoads_kept | (show _ = _; rfl) | split

theorem State.boundary_kept {s : State} :
    Kept [.regs, .ctr, .cnt, .time, .power, .host, .cores, .mem, .lanes, .ports, .pipes, .fabric, .servo, .cal, .refs, .meas, .redund, .sec, .waiting, .written, .line, .freeCtr] s (State.boundary s).1 := by
  unfold State.boundary; repeat' first
      | (extract_lets +onlyGivenNames v; apply Kept.gen (v := v); subst v; rotate_left; clear_value v; intro h; rotate_right)
      | with_reducible assumption | with_reducible exact Kept.refl | with_reducible apply Kept.step State.islandBoundary_kept
      | with_reducible apply Kept.step State.pairBoundary_kept | with_reducible apply Kept.step State.measBegin_kept
      | with_reducible apply Kept.step State.applyWaiting_kept | with_reducible apply Kept.step State.mainReset_kept
      | with_reducible apply Kept.step State.mainBoundary_kept | (show _ = _; rfl) | split

theorem State.dipBoundary_kept {s : State} : Kept [.power] s (State.dipBoundary s) := by
  unfold State.dipBoundary; repeat' first | with_reducible exact Kept.refl | with_reducible apply Kept.step State.modPower_kept | (show _ = _; rfl)

theorem State.wakeBoundary_kept {s : State} {x1} :
    Kept [.regs, .ctr, .cnt, .time, .power, .host, .cores, .mem, .lanes, .ports, .pipes, .fabric, .servo, .cal, .refs, .meas, .redund, .sec, .waiting, .written] s (State.wakeBoundary s x1) := by
  unfold State.wakeBoundary; repeat' first
      | with_reducible exact Kept.refl | with_reducible apply Kept.step State.standbyExit_kept | with_reducible apply State.when_kept
      | (show _ = _; rfl)

theorem execBeatBoundary_next {s : State} :
    ∃ t, execBeatBoundary s = .next t ∧ Kept [.regs, .ctr, .cnt, .time, .power, .host, .cores, .mem, .lanes, .ports, .pipes, .fabric, .servo, .cal, .refs, .meas, .redund, .sec, .waiting, .written, .line, .freeCtr] s t := by
  refine ⟨_, rfl, ?_⟩; repeat' first
      | with_reducible exact Kept.refl | with_reducible apply Kept.step State.planBeat_kept
      | with_reducible apply Kept.step State.boundary_kept | with_reducible apply Kept.step State.toBoundary_kept
      | with_reducible apply Kept.step State.dipBoundary_kept | with_reducible apply Kept.step State.wakeBoundary_kept
      | with_reducible apply Kept.step State.snapLatch_kept | (show _ = _; rfl) | split

end Sys2Proof.Machine
end

