-- ==== Sys2Proof/Laws/FrameRiscv.lean ====
section
/-!
SUPPORT. Sys2Proof/Laws/FrameRiscv.lean: what each operation of Machine/Riscv.lean may change, and that it keeps the canonical forms.
-/
namespace Sys2Proof.Machine
open Sys2Proof

theorem State.eccCheck_kept {s : State} {x1 x2 x3 x4} : Kept [.regs, .host, .cores] s (State.eccCheck s x1 x2 x3 x4).1 := by
  unfold State.eccCheck; repeat' first
      | (extract_lets +onlyGivenNames v; apply Kept.gen (v := v.1); subst v; rotate_left; clear_value v; intro h; rotate_right)
      | with_reducible assumption | with_reducible exact Kept.refl | with_reducible apply Kept.step State.eccBank_kept | (show _ = _; rfl)

theorem State.localStore_kept {s : State} {x1 x2 x3 x4} : Kept [.regs, .cores] s (State.localStore s x1 x2 x3 x4) := by
  unfold State.localStore; repeat' first
      | intro _ | (extract_lets +onlyGivenNames v; apply Kept.gen (v := v); subst v; rotate_left; clear_value v; intro h; rotate_right)
      | with_reducible assumption | with_reducible exact Kept.refl | with_reducible apply Kept.ite
      | with_reducible apply Kept.step State.mbByte_kept | with_reducible apply State.each_kept
      | with_reducible apply Kept.step State.localWrite_kept | (show _ = _; rfl)

theorem State.splitBank_kept {s : State} {x1 x2 x3} : Kept [.regs, .cores] s (State.splitBank s x1 x2 x3) := by
  unfold State.splitBank; repeat' first
      | with_reducible exact Kept.refl | with_reducible apply Kept.step State.perf_kept | (show _ = _; rfl) | split

theorem State.coreStore_kept {s : State} {x1 x2 x3 x4 x5} :
    Kept [.regs, .ctr, .time, .power, .host, .cores, .mem, .lanes, .ports, .pipes, .fabric, .servo, .cal, .refs, .redund, .waiting, .written, .line, .freeCtr] s (State.coreStore s x1 x2 x3 x4 x5).1 := by
  unfold State.coreStore; repeat' first
      | (extract_lets +onlyGivenNames v; apply Kept.gen (v := v.1); subst v; rotate_left; clear_value v; intro h; rotate_right)
      | with_reducible assumption | with_reducible exact Kept.refl | with_reducible apply Kept.step State.badAccess_kept
      | with_reducible apply Kept.step State.eccCheck_kept | with_reducible apply Kept.step State.regWrite_kept
      | with_reducible apply Kept.step State.localStore_kept | with_reducible apply Kept.step State.perf_kept
      | with_reducible apply Kept.step State.memWrite_kept | with_reducible apply Kept.step State.splitBank_kept | (show _ = _; rfl) | split

theorem State.rvTrap_kept {s : State} {x1 x2 x3 x4 x5} :
    Kept [.regs, .power, .host, .cores, .waiting, .freeCtr] s (State.rvTrap s x1 x2 x3 x4 x5) := by
  unfold State.rvTrap; repeat' first
      | (extract_lets +onlyGivenNames v; apply Kept.gen (v := v); subst v; rotate_left; clear_value v; intro h; rotate_right)
      | with_reducible assumption | with_reducible exact Kept.refl | with_reducible apply Kept.step State.accessFault_kept
      | with_reducible apply Kept.step State.squash_kept | with_reducible apply Kept.step State.trap_kept | (show _ = _; rfl) | split

theorem State.setPc_kept {s : State} {x1 x2} : Kept [.cores] s (State.setPc s x1 x2) := by
  unfold State.setPc; repeat' first | with_reducible exact Kept.refl | with_reducible apply Kept.step State.modCore_kept | (show _ = _; rfl)

theorem State.retire_kept {s : State} {x1 x2 x3 x4 x5} : Kept [.regs, .cores, .freeCtr] s (State.retire s x1 x2 x3 x4 x5) := by
  unfold State.retire; repeat' first
      | (extract_lets +onlyGivenNames v; apply Kept.gen (v := v); subst v; rotate_left; clear_value v; intro h; rotate_right)
      | with_reducible assumption | with_reducible exact Kept.refl | with_reducible apply Kept.step State.useSlot_kept
      | with_reducible apply Kept.step State.perf_kept | with_reducible apply Kept.step State.setPc_kept
      | with_reducible apply Kept.step State.tagDone_kept | (show _ = _; rfl) | split

theorem State.setX_kept {s : State} {x1 x2 x3} : Kept [.cores] s (State.setX s x1 x2 x3) := by
  unfold State.setX; repeat' first | with_reducible exact Kept.refl | with_reducible apply Kept.step State.modCore_kept | (show _ = _; rfl) | split

theorem State.mispredict_kept {s : State} {x1 x2} : Kept [.regs, .cores, .freeCtr] s (State.mispredict s x1 x2) := by
  unfold State.mispredict; repeat' first
      | (extract_lets +onlyGivenNames v; apply Kept.gen (v := v); subst v; rotate_left; clear_value v; intro h; rotate_right)
      | with_reducible assumption | with_reducible exact Kept.refl | with_reducible apply Kept.ite
      | with_reducible apply Kept.step State.tagEnter_kept | with_reducible apply Kept.step State.fresh_kept
      | with_reducible apply Kept.step State.perf_kept | with_reducible apply Kept.step State.tagDone_kept | (show _ = _; rfl)

theorem State.tsnap_kept {s : State} {x1 x2 x3} : Kept [.cores] s (State.tsnap s x1 x2 x3) := by
  unfold State.tsnap; repeat' first
      | (extract_lets +onlyGivenNames v; apply Kept.gen (v := v); subst v; rotate_left; clear_value v; intro h; rotate_right)
      | with_reducible assumption | with_reducible exact Kept.refl | with_reducible apply Kept.step State.setX_kept
      | with_reducible apply Kept.step State.modCore_kept | (show _ = _; rfl)

theorem State.pcnt_kept {s : State} {x1 x2 x3} : Kept [.regs, .cores, .freeCtr] s (State.pcnt s x1 x2 x3) := by
  unfold State.pcnt; repeat' first
      | (extract_lets +onlyGivenNames v; apply Kept.gen (v := v); subst v; rotate_left; clear_value v; intro h; rotate_right)
      | with_reducible assumption | with_reducible exact Kept.refl | with_reducible apply Kept.ite
      | with_reducible apply Kept.step State.setX_kept | with_reducible apply Kept.step State.modCore_kept
      | with_reducible apply Kept.step State.chargeSlots_kept | (show _ = _; rfl)

theorem State.sleepStart_kept {s : State} {x1 x2} : Kept [.regs, .power, .cores, .freeCtr] s (State.sleepStart s x1 x2) := by
  unfold State.sleepStart; repeat' first
      | with_reducible exact Kept.refl | with_reducible apply Kept.step State.setCoreState_kept
      | with_reducible apply Kept.step State.modCore_kept | with_reducible apply Kept.step State.chargeSlots_kept | (show _ = _; rfl)

theorem State.sleepEnd_kept {s : State} {x1 x2} : Kept [.cores] s (State.sleepEnd s x1 x2) := by
  unfold State.sleepEnd; repeat' first
      | with_reducible exact Kept.refl | with_reducible apply Kept.step State.setX_kept | with_reducible apply Kept.step State.beatAck_kept
      | (show _ = _; rfl) | split

theorem State.ksExec_kept {s : State} {x1 x2 x3 x4 x5 x6} : Kept [.regs, .power, .cores, .freeCtr] s (State.ksExec s x1 x2 x3 x4 x5 x6) := by
  unfold State.ksExec; repeat' first
      | (extract_lets +onlyGivenNames v; apply Kept.gen (v := v); subst v; rotate_left; clear_value v; intro h; rotate_right)
      | (extract_lets +onlyGivenNames v; have q : _ → State := v; clear q; subst v) | with_reducible assumption
      | with_reducible exact Kept.refl | with_reducible apply Kept.ite | with_reducible apply Kept.step State.tsnap_kept
      | with_reducible apply Kept.step State.retire_kept | with_reducible apply Kept.step State.setX_kept
      | with_reducible apply Kept.step State.modCore_kept | with_reducible apply Kept.step State.pcnt_kept
      | with_reducible apply Kept.step State.perf_kept | with_reducible apply Kept.step State.sleepStart_kept
      | with_reducible apply Kept.step State.sleepEnd_kept | (show _ = _; rfl) | split

theorem State.coreRegRead_kept {s : State} {x1 x2} : Kept [.regs, .ctr, .cores, .ports, .redund, .freeCtr] s (State.coreRegRead s x1 x2).1 := by
  unfold State.coreRegRead; repeat' first
      | (extract_lets +onlyGivenNames v; apply Kept.gen (v := v.1); subst v; rotate_left; clear_value v; intro h; rotate_right)
      | with_reducible assumption | with_reducible exact Kept.refl | with_reducible apply Kept.step State.fresh_kept
      | with_reducible apply Kept.step State.modRedund_kept | with_reducible apply Kept.step State.regValue_kept | (show _ = _; rfl) | split

theorem State.coreLoad_kept {s : State} {x1 x2 x3 x4} :
    Kept [.regs, .ctr, .host, .cores, .ports, .redund, .freeCtr] s (State.coreLoad s x1 x2 x3 x4).1 := by
  unfold State.coreLoad; repeat' first
      | (extract_lets +onlyGivenNames v; apply Kept.gen (v := v.1); subst v; rotate_left; clear_value v; intro h; rotate_right)
      | with_reducible assumption | with_reducible exact Kept.refl | with_reducible apply Kept.step State.badAccess_kept
      | with_reducible apply Kept.step State.eccCheck_kept | with_reducible apply Kept.step State.perf_kept
      | with_reducible apply Kept.step State.coreRegRead_kept | with_reducible apply Kept.step State.splitBank_kept | (show _ = _; rfl) | split

theorem State.rvExec_kept {s : State} {x1 x2 x3 x4 x5} :
    Kept [.regs, .ctr, .time, .power, .host, .cores, .mem, .lanes, .ports, .pipes, .fabric, .servo, .cal, .refs, .redund, .waiting, .written, .line, .freeCtr] s (State.rvExec s x1 x2 x3 x4 x5) := by
  unfold State.rvExec; repeat' first
      | (extract_lets +onlyGivenNames v; apply Kept.gen (v := v); subst v; rotate_left; clear_value v; intro h; rotate_right)
      | (extract_lets +onlyGivenNames v; have q : _ → State := v; clear q; subst v) | (extract_lets +onlyGivenNames v; clear_value v)
      | with_reducible assumption | with_reducible exact Kept.refl | with_reducible apply Kept.step State.retire_kept
      | with_reducible apply Kept.step State.rvTrap_kept | with_reducible apply Kept.step State.setX_kept
      | with_reducible apply Kept.step State.coreStore_kept | with_reducible apply Kept.step State.trapFree_kept
      | with_reducible apply Kept.step State.perf_kept | with_reducible apply Kept.step State.squash_kept
      | with_reducible apply Kept.step State.mispredict_kept | with_reducible apply Kept.step State.ksExec_kept
      | with_reducible apply Kept.step State.coreLoad_kept | (show _ = _; rfl) | (with_reducible apply Kept.fst (by assumption)) | split

theorem State.rvStep_kept {s : State} {x1 x2} :
    Kept [.regs, .ctr, .time, .power, .host, .cores, .mem, .lanes, .ports, .pipes, .fabric, .servo, .cal, .refs, .redund, .waiting, .written, .line, .freeCtr] s (State.rvStep s x1 x2) := by
  unfold State.rvStep; repeat' first
      | (extract_lets +onlyGivenNames v; apply Kept.gen (v := v.1); subst v; rotate_left; clear_value v; intro h; rotate_right)
      | (extract_lets +onlyGivenNames v; clear_value v) | with_reducible assumption | with_reducible exact Kept.refl
      | with_reducible apply Kept.step State.rvTrap_kept | with_reducible apply Kept.step State.eccCheck_kept
      | with_reducible apply Kept.step State.rvExec_kept | (show _ = _; rfl) | split

theorem State.ksRow_kept {s : State} {x1 x2 x3 x4 x5} : Kept [.regs, .cnt, .time, .power, .cores, .freeCtr] s (State.ksRow s x1 x2 x3 x4 x5) := by
  unfold State.ksRow; repeat' first
      | intro _ | with_reducible assumption | with_reducible exact Kept.refl | with_reducible apply State.issue_kept
      | with_reducible apply Kept.step State.ksExec_kept | (show _ = _; rfl)

theorem execKsWfb_next {s : State} {x0 x1} : ∃ t, execKsWfb x0 x1 s = .next t ∧ Kept [.regs, .cnt, .time, .power, .cores, .freeCtr] s t := by
  refine ⟨_, rfl, ?_⟩; repeat' first | with_reducible exact Kept.refl | with_reducible apply Kept.step State.ksRow_kept | (show _ = _; rfl)

theorem execCoreWake_next {s : State} {x0} : ∃ t, execCoreWake x0 s = .next t ∧ Kept [.regs, .cnt, .time, .power, .cores, .freeCtr] s t := by
  refine ⟨_, rfl, ?_⟩; repeat' first
      | (extract_lets +onlyGivenNames v; apply Kept.gen (v := v); subst v; rotate_left; clear_value v; intro h; rotate_right)
      | with_reducible assumption | with_reducible exact Kept.refl | with_reducible apply Kept.step State.retire_kept
      | with_reducible apply Kept.step State.setCoreState_kept | with_reducible apply Kept.step State.slotFor_kept
      | with_reducible apply Kept.step State.awake_kept | with_reducible apply Kept.step State.sleepEnd_kept | (show _ = _; rfl) | split

theorem execKsTret_next {s : State} {x0} : ∃ t, execKsTret x0 s = .next t ∧ Kept [.regs, .cnt, .time, .power, .cores, .freeCtr] s t := by
  refine ⟨_, rfl, ?_⟩; repeat' first | with_reducible exact Kept.refl | with_reducible apply Kept.step State.ksRow_kept | (show _ = _; rfl)

theorem execKsTsnap_next {s : State} {x0 x1 x2} :
    ∃ t, execKsTsnap x0 x1 x2 s = .next t ∧ Kept [.regs, .cnt, .time, .power, .cores, .freeCtr] s t := by
  refine ⟨_, rfl, ?_⟩; repeat' first | with_reducible exact Kept.refl | with_reducible apply Kept.step State.ksRow_kept | (show _ = _; rfl)

theorem execInterruptTaken_next {s : State} {x0} : ∃ t, execInterruptTaken x0 s = .next t ∧ Kept [.regs, .cnt, .time, .cores, .freeCtr] s t := by
  refine ⟨_, rfl, ?_⟩; repeat' first
      | intro _ | with_reducible assumption | with_reducible exact Kept.refl | with_reducible apply Kept.step State.takeInt_kept
      | with_reducible apply State.issue_kept | with_reducible apply Kept.step State.squash_kept | (show _ = _; rfl) | split

theorem execRv32imcInstruction_next {s : State} {x0 x1} :
    ∃ t, execRv32imcInstruction x0 x1 s = .next t ∧ Kept [.regs, .ctr, .cnt, .time, .power, .host, .cores, .mem, .lanes, .ports, .pipes, .fabric, .servo, .cal, .refs, .redund, .waiting, .written, .line, .freeCtr] s t := by
  refine ⟨_, rfl, ?_⟩; repeat' first
      | intro _ | with_reducible assumption | with_reducible exact Kept.refl | with_reducible apply State.issue_kept
      | with_reducible apply Kept.step State.rvStep_kept | (show _ = _; rfl)

theorem execKsWfe_next {s : State} {x0 x1} : ∃ t, execKsWfe x0 x1 s = .next t ∧ Kept [.regs, .cnt, .time, .power, .cores, .freeCtr] s t := by
  refine ⟨_, rfl, ?_⟩; repeat' first | with_reducible exact Kept.refl | with_reducible apply Kept.step State.ksRow_kept | (show _ = _; rfl)

theorem execKsCrc_next {s : State} {x0 x1 x2 x3 x4} :
    ∃ t, execKsCrc x0 x1 x2 x3 x4 s = .next t ∧ Kept [.regs, .cnt, .time, .power, .cores, .freeCtr] s t := by
  refine ⟨_, rfl, ?_⟩; repeat' first | with_reducible exact Kept.refl | with_reducible apply Kept.step State.ksRow_kept | (show _ = _; rfl)

theorem execTrap_next {s : State} {x0 x1 x2} :
    ∃ t, execTrap x0 x1 x2 s = .next t ∧ Kept [.regs, .cnt, .time, .power, .host, .cores, .waiting, .freeCtr] s t := by
  refine ⟨_, rfl, ?_⟩; repeat' first
      | intro _ | (extract_lets +onlyGivenNames v; apply Kept.gen (v := v); subst v; rotate_left; clear_value v; intro h; rotate_right)
      | with_reducible assumption | with_reducible exact Kept.refl | with_reducible apply Kept.step State.rvTrap_kept
      | with_reducible apply Kept.step State.uncorrected_kept | with_reducible apply State.issue_kept | (show _ = _; rfl) | split

theorem execKsPcnt_next {s : State} {x0 x1 x2} :
    ∃ t, execKsPcnt x0 x1 x2 s = .next t ∧ Kept [.regs, .cnt, .time, .power, .cores, .freeCtr] s t := by
  refine ⟨_, rfl, ?_⟩; repeat' first | with_reducible exact Kept.refl | with_reducible apply Kept.step State.ksRow_kept | (show _ = _; rfl)

theorem execKsTget_next {s : State} {x0 x1 x2} :
    ∃ t, execKsTget x0 x1 x2 s = .next t ∧ Kept [.regs, .cnt, .time, .power, .cores, .freeCtr] s t := by
  refine ⟨_, rfl, ?_⟩; repeat' first | with_reducible exact Kept.refl | with_reducible apply Kept.step State.ksRow_kept | (show _ = _; rfl)

end Sys2Proof.Machine
end

