-- ==== Sys2Proof/Machine/Pins.lean ====
section
/-!
DEFINITION. Sys2Proof/Machine/Pins.lean: the interfaces of spec/02 R73 that no command of the table drives: the identification that JTAG
shifts out, and the characters of the UART.
-/
namespace Sys2Proof.Machine
open Sys2Proof

/-- The word that the instruction IDCODE of the JTAG port shifts out, bit 0 first (spec/02 R73). -/
def jtagIdcode : BitVec 32 := 0xB12805AB#32

/-- The bits that TDO gives for IDCODE, in order. -/
def jtagIdBits : List Bool := (List.range 32).map fun k => jtagIdcode.getLsbD k

/-- Identity of the PCI Express function, bytes 0 to 11 of configuration space (spec/15 R459): vendor, device, revision, class code. -/
def pcieIdentity : List (Nat × Nat × Nat) := [(0, 2, 0x1F4A), (2, 2, 0x1280), (8, 1, 0xB0), (9, 3, 0x028000)]

/-- Its base address registers: index, bytes, prefetchable; each of 64 bits. -/
def pcieBars : List (Nat × Nat × Bool) := [(0, 64 * 2 ^ 20, false), (2, 4096, false)]

/-- Where BAR0 holds the MSI-X table and the pending bits, and the number of vectors. -/
def msixTable : Nat × Nat × Nat := (0x108000, 0x109000, 256)

/-- Baud rate of the UART, and a bit time in 2^-16 ns. -/
def uartBaud : Nat := 115200
def uartBitTime : Nat := 1000000000 * 2 ^ 16 / uartBaud

/-- A character on UART_TX or UART_RX: start bit low, 8 data bits from the least significant one, no parity, one stop bit high. (PRESUMED, log entry 65) -/
def uartChar (b : Byte) : List Bool := false :: (List.range 8).map (fun k => b.getLsbD k) ++ [true]

/-- The data of a character whose start and stop bits are right. -/
def uartRead (l : List Bool) : Option Byte :=
  match l with
  | [s, d0, d1, d2, d3, d4, d5, d6, d7, t] =>
    if !s && t then
      some (BitVec.ofNat 8 (bit d0 + 2 * bit d1 + 4 * bit d2 + 8 * bit d3 + 16 * bit d4 + 32 * bit d5 + 64 * bit d6 + 128 * bit d7))
    else none
  | _ => none

end Sys2Proof.Machine
end

