-- ==== Sys2Proof/Laws/Pins.lean ====
section
/-!
SUPPORT. Sys2Proof/Laws/Pins.lean: the UART gives back every character (spec/02 R73).
-/
namespace Sys2Proof.Machine
open Sys2Proof

theorem uartRead_uartChar (b : Byte) : uartRead (uartChar b) = some b := by
  revert b; decide +kernel

theorem jtagIdBits_length : jtagIdBits.length = 32 := by decide

end Sys2Proof.Machine
end

