-- ==== Sys2Proof/Laws/ResetRegs.lean ====
section
/-!
SUPPORT. Sys2Proof/Laws/ResetRegs.lean: what a reset of registers leaves in each register.
-/
namespace Sys2Proof.Machine
open Sys2Proof

theorem Tab.find_none_of_lt {α} {a : Nat} : ∀ {t : Tab α}, (∀ p ∈ t, p.1 ≠ a) → Tab.find a t = none
  | [], _ => rfl
  | (b, v) :: t, h => by
    have := h (b, v) (by simp)
    simp only [Tab.find, if_neg this]
    exact Tab.find_none_of_lt fun p hp => h p (by simp [hp])

/-- An operation that treats each listed register on its own. -/
theorem State.each_regs (f : Nat → Word → Option Word) (a : Nat) :
    ∀ (l : Tab Word) (s : State), l.Pairwise (fun p q => p.1 < q.1) →
      (s.each l fun s p => match f p.1 p.2 with | none => s | some w => s.setReg p.1 w).reg a =
        match (Tab.find a l).bind (f a) with | none => s.reg a | some w => w
  | [], s, _ => by simp [State.each, Tab.find]
  | (b, v) :: l, s, h => by
    rw [List.pairwise_cons] at h
    have ih := State.each_regs f a l
    simp only [State.each, List.foldl_cons] at ih ⊢
    rw [ih _ h.2]
    by_cases e : b = a
    · subst e
      have : Tab.find b l = none := Tab.find_none_of_lt fun p hp => Nat.ne_of_gt (h.1 p hp)
      simp only [this, Option.bind_none, Tab.find, if_true, Option.bind_some]
      cases f b v <;> simp
    · simp only [Tab.find, if_neg e]
      cases hh : (Tab.find a l).bind (f a)
      · cases f b v
        · rfl
        · simp [State.reg_setReg_other _ _ (Ne.symm e)]
      · rfl

theorem Tab.find_filter {α} (sel : Nat → Bool) (a : Nat) : ∀ (l : Tab α), Tab.find a (l.filter fun p => sel p.1) = if sel a then Tab.find a l else none
  | [] => by simp [Tab.find]
  | (b, v) :: l => by
    rw [List.filter_cons]
    have ih := Tab.find_filter sel a l
    by_cases e : b = a
    · subst e
      cases h : sel b <;> simp [Tab.find, h, ih]
    · cases h : sel b <;> simp [Tab.find, e, ih]

theorem State.regsReset_reg (s : State) (sel : Nat → Bool) (a : Nat) (hc : regsCanon s = true) :
    (s.regsReset sel).reg a = if sel a then
      match RegMap.find a with
      | none => s.reg a
      | some h => (s.reg a &&& BitVec.ofNat 32 h.maskKept) ||| (RegMap.reset a &&& ~~~BitVec.ofNat 32 h.maskKept)
    else s.reg a := by
  have hp : (s.regs.filter fun p => sel p.1).Pairwise (fun p q => p.1 < q.1) := by
    have := (Tab.canon_iff _ _).1 hc
    exact List.Pairwise.sublist List.filter_sublist this.1
  have := State.each_regs (fun b v => (RegMap.find b).map fun h => (v &&& BitVec.ofNat 32 h.maskKept) ||| (RegMap.reset b &&& ~~~BitVec.ofNat 32 h.maskKept)) a
    (s.regs.filter fun p => sel p.1) { s with waiting := s.waiting.filter fun p => !sel p.1 } hp
  unfold State.regsReset
  simp only
  refine Eq.trans (Eq.trans ?_ this) ?_
  · congr 1
    simp only [State.each]
    congr 1
    funext s p
    cases RegMap.find p.1 <;> rfl
  rw [Tab.find_filter]
  simp only [State.reg]
  cases sel a
  · simp
  · cases hf : RegMap.find a
    · cases Tab.find a s.regs <;> simp
    · cases Tab.find a s.regs
      · simp; generalize RegMap.reset a = w; generalize BitVec.ofNat 32 _ = m; ext i hi; simp; cases w[i] <;> cases m[i] <;> rfl
      · simp

theorem regsReset_keep (s : State) (hc : regsCanon s = true) (f : Fld) (h : (RegMap.find f.addr).any (fun h => f.mask &&& BitVec.ofNat 32 h.maskKept == f.mask) = true) (k : f.lo + f.len ≤ 32) :
   (s.regsReset fun _ => true).fld f = s.fld f := by
  simp only [State.fld]
  rw [State.regsReset_reg s _ _ hc]
  simp only [if_true]
  cases hh : RegMap.find f.addr
  · simp [hh] at h
  · rename_i x
    simp only [hh, Option.any_some, beq_iff_eq] at h
    obtain ⟨m, hm⟩ : ∃ m, BitVec.ofNat 32 x.maskKept = m := ⟨_, rfl⟩
    rw [hm] at h
    simp only [Fld.of]
    congr 1
    ext i hi
    have := congrArg (fun z => z.getLsbD (f.lo + i)) h
    have hb : f.mask.getLsbD (f.lo + i) = true := by
      simp only [Fld.mask, BitVec.getLsbD_ofNat, Nat.testBit_mul_two_pow, Nat.testBit_two_pow_sub_one]
      simp; omega
    simp only [BitVec.getLsbD_and, hb, Bool.true_and] at this
    simp [hm, this]

end Sys2Proof.Machine
end

