-- ==== Sys2Proof/Laws/Start.lean ====
section
/-!
SUPPORT. Sys2Proof/Laws/Start.lean: a command that CORE4 takes runs its own effect, or completes with BAD_ARG.
-/
namespace Sys2Proof.Machine
open Sys2Proof

theorem start_takes {s : State} {c : Cmd} {op : Nat} {ok : Bool} {body : State → State} (h : s.takes c op = true) (k : ok = true) :
    s.start c op ok body = body (s.fetched c) := by
  simp only [State.takes, State.mayStart, Bool.and_eq_true, Bool.not_eq_true'] at h
  obtain ⟨⟨⟨⟨h0, h1⟩, h2⟩, h3⟩, h4⟩ := h
  simp only [State.start, h0, h1, h2, h3, h4, k, Bool.not_true, Bool.false_eq_true, if_false]

theorem start_bad {s : State} {c : Cmd} {op : Nat} {body : State → State} (h : s.takes c op = true) :
    s.start c op false body = (s.fetched c).complete c op st.badArg := by
  simp only [State.takes, State.mayStart, Bool.and_eq_true, Bool.not_eq_true'] at h
  obtain ⟨⟨⟨⟨h0, h1⟩, h2⟩, h3⟩, -⟩ := h
  simp only [State.start, h0, h1, h2, h3, Bool.not_true, Bool.not_false, Bool.false_eq_true, if_false, if_true]

end Sys2Proof.Machine
end

