-- ==== Sys2Proof/Laws/State.lean ====
section
/-!
SUPPORT. Sys2Proof/Laws/State.lean: what each update of the state leaves as it was, one lemma a field, so that no proof unfolds a record
update.
-/
namespace Sys2Proof.Machine
open Sys2Proof

/-! ### State.setReg -/
@[simp] theorem State.setReg_ctr (s : State) (a : Nat) (w : Word) : (s.setReg a w).ctr = s.ctr := rfl
@[simp] theorem State.setReg_rdata (s : State) (a : Nat) (w : Word) : (s.setReg a w).rdata = s.rdata := rfl
@[simp] theorem State.setReg_time (s : State) (a : Nat) (w : Word) : (s.setReg a w).time = s.time := rfl
@[simp] theorem State.setReg_power (s : State) (a : Nat) (w : Word) : (s.setReg a w).power = s.power := rfl
@[simp] theorem State.setReg_host (s : State) (a : Nat) (w : Word) : (s.setReg a w).host = s.host := rfl
@[simp] theorem State.setReg_cores (s : State) (a : Nat) (w : Word) : (s.setReg a w).cores = s.cores := rfl
@[simp] theorem State.setReg_lanes (s : State) (a : Nat) (w : Word) : (s.setReg a w).lanes = s.lanes := rfl
@[simp] theorem State.setReg_ports (s : State) (a : Nat) (w : Word) : (s.setReg a w).ports = s.ports := rfl
@[simp] theorem State.setReg_pipes (s : State) (a : Nat) (w : Word) : (s.setReg a w).pipes = s.pipes := rfl
@[simp] theorem State.setReg_fabric (s : State) (a : Nat) (w : Word) : (s.setReg a w).fabric = s.fabric := rfl
@[simp] theorem State.setReg_servo (s : State) (a : Nat) (w : Word) : (s.setReg a w).servo = s.servo := rfl
@[simp] theorem State.setReg_cal (s : State) (a : Nat) (w : Word) : (s.setReg a w).cal = s.cal := rfl
@[simp] theorem State.setReg_refs (s : State) (a : Nat) (w : Word) : (s.setReg a w).refs = s.refs := rfl
@[simp] theorem State.setReg_meas (s : State) (a : Nat) (w : Word) : (s.setReg a w).meas = s.meas := rfl
@[simp] theorem State.setReg_redund (s : State) (a : Nat) (w : Word) : (s.setReg a w).redund = s.redund := rfl
@[simp] theorem State.setReg_sec (s : State) (a : Nat) (w : Word) : (s.setReg a w).sec = s.sec := rfl
@[simp] theorem State.setReg_waiting (s : State) (a : Nat) (w : Word) : (s.setReg a w).waiting = s.waiting := rfl
@[simp] theorem State.setReg_written (s : State) (a : Nat) (w : Word) : (s.setReg a w).written = s.written := rfl
@[simp] theorem State.setReg_line (s : State) (a : Nat) (w : Word) : (s.setReg a w).line = s.line := rfl
@[simp] theorem State.setReg_freeCtr (s : State) (a : Nat) (w : Word) : (s.setReg a w).freeCtr = s.freeCtr := rfl
@[simp] theorem State.setReg_pending (s : State) (a : Nat) (w : Word) : (s.setReg a w).pending = s.pending := rfl

/-! ### State.setF -/
@[simp] theorem State.setF_ctr (s : State) (f : Fld) (v : Nat) : (s.setF f v).ctr = s.ctr := rfl
@[simp] theorem State.setF_rdata (s : State) (f : Fld) (v : Nat) : (s.setF f v).rdata = s.rdata := rfl
@[simp] theorem State.setF_time (s : State) (f : Fld) (v : Nat) : (s.setF f v).time = s.time := rfl
@[simp] theorem State.setF_power (s : State) (f : Fld) (v : Nat) : (s.setF f v).power = s.power := rfl
@[simp] theorem State.setF_host (s : State) (f : Fld) (v : Nat) : (s.setF f v).host = s.host := rfl
@[simp] theorem State.setF_cores (s : State) (f : Fld) (v : Nat) : (s.setF f v).cores = s.cores := rfl
@[simp] theorem State.setF_lanes (s : State) (f : Fld) (v : Nat) : (s.setF f v).lanes = s.lanes := rfl
@[simp] theorem State.setF_ports (s : State) (f : Fld) (v : Nat) : (s.setF f v).ports = s.ports := rfl
@[simp] theorem State.setF_pipes (s : State) (f : Fld) (v : Nat) : (s.setF f v).pipes = s.pipes := rfl
@[simp] theorem State.setF_fabric (s : State) (f : Fld) (v : Nat) : (s.setF f v).fabric = s.fabric := rfl
@[simp] theorem State.setF_servo (s : State) (f : Fld) (v : Nat) : (s.setF f v).servo = s.servo := rfl
@[simp] theorem State.setF_cal (s : State) (f : Fld) (v : Nat) : (s.setF f v).cal = s.cal := rfl
@[simp] theorem State.setF_refs (s : State) (f : Fld) (v : Nat) : (s.setF f v).refs = s.refs := rfl
@[simp] theorem State.setF_meas (s : State) (f : Fld) (v : Nat) : (s.setF f v).meas = s.meas := rfl
@[simp] theorem State.setF_redund (s : State) (f : Fld) (v : Nat) : (s.setF f v).redund = s.redund := rfl
@[simp] theorem State.setF_sec (s : State) (f : Fld) (v : Nat) : (s.setF f v).sec = s.sec := rfl
@[simp] theorem State.setF_waiting (s : State) (f : Fld) (v : Nat) : (s.setF f v).waiting = s.waiting := rfl
@[simp] theorem State.setF_written (s : State) (f : Fld) (v : Nat) : (s.setF f v).written = s.written := rfl
@[simp] theorem State.setF_line (s : State) (f : Fld) (v : Nat) : (s.setF f v).line = s.line := rfl
@[simp] theorem State.setF_freeCtr (s : State) (f : Fld) (v : Nat) : (s.setF f v).freeCtr = s.freeCtr := rfl
@[simp] theorem State.setF_pending (s : State) (f : Fld) (v : Nat) : (s.setF f v).pending = s.pending := rfl

/-! ### State.bump -/
@[simp] theorem State.bump_ctr (s : State) (f : Fld) (n : Nat) : (s.bump f n).ctr = s.ctr := rfl
@[simp] theorem State.bump_rdata (s : State) (f : Fld) (n : Nat) : (s.bump f n).rdata = s.rdata := rfl
@[simp] theorem State.bump_time (s : State) (f : Fld) (n : Nat) : (s.bump f n).time = s.time := rfl
@[simp] theorem State.bump_power (s : State) (f : Fld) (n : Nat) : (s.bump f n).power = s.power := rfl
@[simp] theorem State.bump_host (s : State) (f : Fld) (n : Nat) : (s.bump f n).host = s.host := rfl
@[simp] theorem State.bump_cores (s : State) (f : Fld) (n : Nat) : (s.bump f n).cores = s.cores := rfl
@[simp] theorem State.bump_lanes (s : State) (f : Fld) (n : Nat) : (s.bump f n).lanes = s.lanes := rfl
@[simp] theorem State.bump_ports (s : State) (f : Fld) (n : Nat) : (s.bump f n).ports = s.ports := rfl
@[simp] theorem State.bump_pipes (s : State) (f : Fld) (n : Nat) : (s.bump f n).pipes = s.pipes := rfl
@[simp] theorem State.bump_fabric (s : State) (f : Fld) (n : Nat) : (s.bump f n).fabric = s.fabric := rfl
@[simp] theorem State.bump_servo (s : State) (f : Fld) (n : Nat) : (s.bump f n).servo = s.servo := rfl
@[simp] theorem State.bump_cal (s : State) (f : Fld) (n : Nat) : (s.bump f n).cal = s.cal := rfl
@[simp] theorem State.bump_refs (s : State) (f : Fld) (n : Nat) : (s.bump f n).refs = s.refs := rfl
@[simp] theorem State.bump_meas (s : State) (f : Fld) (n : Nat) : (s.bump f n).meas = s.meas := rfl
@[simp] theorem State.bump_redund (s : State) (f : Fld) (n : Nat) : (s.bump f n).redund = s.redund := rfl
@[simp] theorem State.bump_sec (s : State) (f : Fld) (n : Nat) : (s.bump f n).sec = s.sec := rfl
@[simp] theorem State.bump_waiting (s : State) (f : Fld) (n : Nat) : (s.bump f n).waiting = s.waiting := rfl
@[simp] theorem State.bump_written (s : State) (f : Fld) (n : Nat) : (s.bump f n).written = s.written := rfl
@[simp] theorem State.bump_line (s : State) (f : Fld) (n : Nat) : (s.bump f n).line = s.line := rfl
@[simp] theorem State.bump_freeCtr (s : State) (f : Fld) (n : Nat) : (s.bump f n).freeCtr = s.freeCtr := rfl
@[simp] theorem State.bump_pending (s : State) (f : Fld) (n : Nat) : (s.bump f n).pending = s.pending := rfl

/-! ### State.putRw -/
@[simp] theorem State.putRw_ctr (s : State) (a : Nat) (w : Word) : (s.putRw a w).ctr = s.ctr := rfl
@[simp] theorem State.putRw_rdata (s : State) (a : Nat) (w : Word) : (s.putRw a w).rdata = s.rdata := rfl
@[simp] theorem State.putRw_time (s : State) (a : Nat) (w : Word) : (s.putRw a w).time = s.time := rfl
@[simp] theorem State.putRw_power (s : State) (a : Nat) (w : Word) : (s.putRw a w).power = s.power := rfl
@[simp] theorem State.putRw_host (s : State) (a : Nat) (w : Word) : (s.putRw a w).host = s.host := rfl
@[simp] theorem State.putRw_cores (s : State) (a : Nat) (w : Word) : (s.putRw a w).cores = s.cores := rfl
@[simp] theorem State.putRw_lanes (s : State) (a : Nat) (w : Word) : (s.putRw a w).lanes = s.lanes := rfl
@[simp] theorem State.putRw_ports (s : State) (a : Nat) (w : Word) : (s.putRw a w).ports = s.ports := rfl
@[simp] theorem State.putRw_pipes (s : State) (a : Nat) (w : Word) : (s.putRw a w).pipes = s.pipes := rfl
@[simp] theorem State.putRw_fabric (s : State) (a : Nat) (w : Word) : (s.putRw a w).fabric = s.fabric := rfl
@[simp] theorem State.putRw_servo (s : State) (a : Nat) (w : Word) : (s.putRw a w).servo = s.servo := rfl
@[simp] theorem State.putRw_cal (s : State) (a : Nat) (w : Word) : (s.putRw a w).cal = s.cal := rfl
@[simp] theorem State.putRw_refs (s : State) (a : Nat) (w : Word) : (s.putRw a w).refs = s.refs := rfl
@[simp] theorem State.putRw_meas (s : State) (a : Nat) (w : Word) : (s.putRw a w).meas = s.meas := rfl
@[simp] theorem State.putRw_redund (s : State) (a : Nat) (w : Word) : (s.putRw a w).redund = s.redund := rfl
@[simp] theorem State.putRw_sec (s : State) (a : Nat) (w : Word) : (s.putRw a w).sec = s.sec := rfl
@[simp] theorem State.putRw_waiting (s : State) (a : Nat) (w : Word) : (s.putRw a w).waiting = s.waiting := rfl
@[simp] theorem State.putRw_written (s : State) (a : Nat) (w : Word) : (s.putRw a w).written = s.written := rfl
@[simp] theorem State.putRw_line (s : State) (a : Nat) (w : Word) : (s.putRw a w).line = s.line := rfl
@[simp] theorem State.putRw_freeCtr (s : State) (a : Nat) (w : Word) : (s.putRw a w).freeCtr = s.freeCtr := rfl
@[simp] theorem State.putRw_pending (s : State) (a : Nat) (w : Word) : (s.putRw a w).pending = s.pending := rfl

/-! ### State.modHost -/
@[simp] theorem State.modHost_regs (s : State) (f : HostSt → HostSt) : (s.modHost f).regs = s.regs := rfl
@[simp] theorem State.modHost_ctr (s : State) (f : HostSt → HostSt) : (s.modHost f).ctr = s.ctr := rfl
@[simp] theorem State.modHost_rdata (s : State) (f : HostSt → HostSt) : (s.modHost f).rdata = s.rdata := rfl
@[simp] theorem State.modHost_time (s : State) (f : HostSt → HostSt) : (s.modHost f).time = s.time := rfl
@[simp] theorem State.modHost_power (s : State) (f : HostSt → HostSt) : (s.modHost f).power = s.power := rfl
@[simp] theorem State.modHost_cores (s : State) (f : HostSt → HostSt) : (s.modHost f).cores = s.cores := rfl
@[simp] theorem State.modHost_lanes (s : State) (f : HostSt → HostSt) : (s.modHost f).lanes = s.lanes := rfl
@[simp] theorem State.modHost_ports (s : State) (f : HostSt → HostSt) : (s.modHost f).ports = s.ports := rfl
@[simp] theorem State.modHost_pipes (s : State) (f : HostSt → HostSt) : (s.modHost f).pipes = s.pipes := rfl
@[simp] theorem State.modHost_fabric (s : State) (f : HostSt → HostSt) : (s.modHost f).fabric = s.fabric := rfl
@[simp] theorem State.modHost_servo (s : State) (f : HostSt → HostSt) : (s.modHost f).servo = s.servo := rfl
@[simp] theorem State.modHost_cal (s : State) (f : HostSt → HostSt) : (s.modHost f).cal = s.cal := rfl
@[simp] theorem State.modHost_refs (s : State) (f : HostSt → HostSt) : (s.modHost f).refs = s.refs := rfl
@[simp] theorem State.modHost_meas (s : State) (f : HostSt → HostSt) : (s.modHost f).meas = s.meas := rfl
@[simp] theorem State.modHost_redund (s : State) (f : HostSt → HostSt) : (s.modHost f).redund = s.redund := rfl
@[simp] theorem State.modHost_sec (s : State) (f : HostSt → HostSt) : (s.modHost f).sec = s.sec := rfl
@[simp] theorem State.modHost_waiting (s : State) (f : HostSt → HostSt) : (s.modHost f).waiting = s.waiting := rfl
@[simp] theorem State.modHost_written (s : State) (f : HostSt → HostSt) : (s.modHost f).written = s.written := rfl
@[simp] theorem State.modHost_line (s : State) (f : HostSt → HostSt) : (s.modHost f).line = s.line := rfl
@[simp] theorem State.modHost_freeCtr (s : State) (f : HostSt → HostSt) : (s.modHost f).freeCtr = s.freeCtr := rfl
@[simp] theorem State.modHost_pending (s : State) (f : HostSt → HostSt) : (s.modHost f).pending = s.pending := rfl
@[simp] theorem State.modHost_reg (s : State) (f : HostSt → HostSt) (g : Nat) : (s.modHost f).reg g = s.reg g := rfl
@[simp] theorem State.modHost_fld (s : State) (f : HostSt → HostSt) (g : Fld) : (s.modHost f).fld g = s.fld g := rfl
@[simp] theorem State.modHost_flag (s : State) (f : HostSt → HostSt) (g : Fld) : (s.modHost f).flag g = s.flag g := rfl

/-! ### State.modPower -/
@[simp] theorem State.modPower_regs (s : State) (f : PowerSt → PowerSt) : (s.modPower f).regs = s.regs := rfl
@[simp] theorem State.modPower_ctr (s : State) (f : PowerSt → PowerSt) : (s.modPower f).ctr = s.ctr := rfl
@[simp] theorem State.modPower_rdata (s : State) (f : PowerSt → PowerSt) : (s.modPower f).rdata = s.rdata := rfl
@[simp] theorem State.modPower_time (s : State) (f : PowerSt → PowerSt) : (s.modPower f).time = s.time := rfl
@[simp] theorem State.modPower_host (s : State) (f : PowerSt → PowerSt) : (s.modPower f).host = s.host := rfl
@[simp] theorem State.modPower_cores (s : State) (f : PowerSt → PowerSt) : (s.modPower f).cores = s.cores := rfl
@[simp] theorem State.modPower_lanes (s : State) (f : PowerSt → PowerSt) : (s.modPower f).lanes = s.lanes := rfl
@[simp] theorem State.modPower_ports (s : State) (f : PowerSt → PowerSt) : (s.modPower f).ports = s.ports := rfl
@[simp] theorem State.modPower_pipes (s : State) (f : PowerSt → PowerSt) : (s.modPower f).pipes = s.pipes := rfl
@[simp] theorem State.modPower_fabric (s : State) (f : PowerSt → PowerSt) : (s.modPower f).fabric = s.fabric := rfl
@[simp] theorem State.modPower_servo (s : State) (f : PowerSt → PowerSt) : (s.modPower f).servo = s.servo := rfl
@[simp] theorem State.modPower_cal (s : State) (f : PowerSt → PowerSt) : (s.modPower f).cal = s.cal := rfl
@[simp] theorem State.modPower_refs (s : State) (f : PowerSt → PowerSt) : (s.modPower f).refs = s.refs := rfl
@[simp] theorem State.modPower_meas (s : State) (f : PowerSt → PowerSt) : (s.modPower f).meas = s.meas := rfl
@[simp] theorem State.modPower_redund (s : State) (f : PowerSt → PowerSt) : (s.modPower f).redund = s.redund := rfl
@[simp] theorem State.modPower_sec (s : State) (f : PowerSt → PowerSt) : (s.modPower f).sec = s.sec := rfl
@[simp] theorem State.modPower_waiting (s : State) (f : PowerSt → PowerSt) : (s.modPower f).waiting = s.waiting := rfl
@[simp] theorem State.modPower_written (s : State) (f : PowerSt → PowerSt) : (s.modPower f).written = s.written := rfl
@[simp] theorem State.modPower_line (s : State) (f : PowerSt → PowerSt) : (s.modPower f).line = s.line := rfl
@[simp] theorem State.modPower_freeCtr (s : State) (f : PowerSt → PowerSt) : (s.modPower f).freeCtr = s.freeCtr := rfl
@[simp] theorem State.modPower_pending (s : State) (f : PowerSt → PowerSt) : (s.modPower f).pending = s.pending := rfl
@[simp] theorem State.modPower_reg (s : State) (f : PowerSt → PowerSt) (g : Nat) : (s.modPower f).reg g = s.reg g := rfl
@[simp] theorem State.modPower_fld (s : State) (f : PowerSt → PowerSt) (g : Fld) : (s.modPower f).fld g = s.fld g := rfl
@[simp] theorem State.modPower_flag (s : State) (f : PowerSt → PowerSt) (g : Fld) : (s.modPower f).flag g = s.flag g := rfl

/-! ### State.modTime -/
@[simp] theorem State.modTime_regs (s : State) (f : TimeSt → TimeSt) : (s.modTime f).regs = s.regs := rfl
@[simp] theorem State.modTime_ctr (s : State) (f : TimeSt → TimeSt) : (s.modTime f).ctr = s.ctr := rfl
@[simp] theorem State.modTime_rdata (s : State) (f : TimeSt → TimeSt) : (s.modTime f).rdata = s.rdata := rfl
@[simp] theorem State.modTime_power (s : State) (f : TimeSt → TimeSt) : (s.modTime f).power = s.power := rfl
@[simp] theorem State.modTime_host (s : State) (f : TimeSt → TimeSt) : (s.modTime f).host = s.host := rfl
@[simp] theorem State.modTime_cores (s : State) (f : TimeSt → TimeSt) : (s.modTime f).cores = s.cores := rfl
@[simp] theorem State.modTime_lanes (s : State) (f : TimeSt → TimeSt) : (s.modTime f).lanes = s.lanes := rfl
@[simp] theorem State.modTime_ports (s : State) (f : TimeSt → TimeSt) : (s.modTime f).ports = s.ports := rfl
@[simp] theorem State.modTime_pipes (s : State) (f : TimeSt → TimeSt) : (s.modTime f).pipes = s.pipes := rfl
@[simp] theorem State.modTime_fabric (s : State) (f : TimeSt → TimeSt) : (s.modTime f).fabric = s.fabric := rfl
@[simp] theorem State.modTime_servo (s : State) (f : TimeSt → TimeSt) : (s.modTime f).servo = s.servo := rfl
@[simp] theorem State.modTime_cal (s : State) (f : TimeSt → TimeSt) : (s.modTime f).cal = s.cal := rfl
@[simp] theorem State.modTime_refs (s : State) (f : TimeSt → TimeSt) : (s.modTime f).refs = s.refs := rfl
@[simp] theorem State.modTime_meas (s : State) (f : TimeSt → TimeSt) : (s.modTime f).meas = s.meas := rfl
@[simp] theorem State.modTime_redund (s : State) (f : TimeSt → TimeSt) : (s.modTime f).redund = s.redund := rfl
@[simp] theorem State.modTime_sec (s : State) (f : TimeSt → TimeSt) : (s.modTime f).sec = s.sec := rfl
@[simp] theorem State.modTime_waiting (s : State) (f : TimeSt → TimeSt) : (s.modTime f).waiting = s.waiting := rfl
@[simp] theorem State.modTime_written (s : State) (f : TimeSt → TimeSt) : (s.modTime f).written = s.written := rfl
@[simp] theorem State.modTime_line (s : State) (f : TimeSt → TimeSt) : (s.modTime f).line = s.line := rfl
@[simp] theorem State.modTime_freeCtr (s : State) (f : TimeSt → TimeSt) : (s.modTime f).freeCtr = s.freeCtr := rfl
@[simp] theorem State.modTime_pending (s : State) (f : TimeSt → TimeSt) : (s.modTime f).pending = s.pending := rfl
@[simp] theorem State.modTime_reg (s : State) (f : TimeSt → TimeSt) (g : Nat) : (s.modTime f).reg g = s.reg g := rfl
@[simp] theorem State.modTime_fld (s : State) (f : TimeSt → TimeSt) (g : Fld) : (s.modTime f).fld g = s.fld g := rfl
@[simp] theorem State.modTime_flag (s : State) (f : TimeSt → TimeSt) (g : Fld) : (s.modTime f).flag g = s.flag g := rfl

/-! ### State.modCnt -/
@[simp] theorem State.modCnt_regs (s : State) (k : Nat) (f : Counter → Counter) : (s.modCnt k f).regs = s.regs := rfl
@[simp] theorem State.modCnt_ctr (s : State) (k : Nat) (f : Counter → Counter) : (s.modCnt k f).ctr = s.ctr := rfl
@[simp] theorem State.modCnt_rdata (s : State) (k : Nat) (f : Counter → Counter) : (s.modCnt k f).rdata = s.rdata := rfl
@[simp] theorem State.modCnt_power (s : State) (k : Nat) (f : Counter → Counter) : (s.modCnt k f).power = s.power := rfl
@[simp] theorem State.modCnt_host (s : State) (k : Nat) (f : Counter → Counter) : (s.modCnt k f).host = s.host := rfl
@[simp] theorem State.modCnt_cores (s : State) (k : Nat) (f : Counter → Counter) : (s.modCnt k f).cores = s.cores := rfl
@[simp] theorem State.modCnt_lanes (s : State) (k : Nat) (f : Counter → Counter) : (s.modCnt k f).lanes = s.lanes := rfl
@[simp] theorem State.modCnt_ports (s : State) (k : Nat) (f : Counter → Counter) : (s.modCnt k f).ports = s.ports := rfl
@[simp] theorem State.modCnt_pipes (s : State) (k : Nat) (f : Counter → Counter) : (s.modCnt k f).pipes = s.pipes := rfl
@[simp] theorem State.modCnt_fabric (s : State) (k : Nat) (f : Counter → Counter) : (s.modCnt k f).fabric = s.fabric := rfl
@[simp] theorem State.modCnt_servo (s : State) (k : Nat) (f : Counter → Counter) : (s.modCnt k f).servo = s.servo := rfl
@[simp] theorem State.modCnt_cal (s : State) (k : Nat) (f : Counter → Counter) : (s.modCnt k f).cal = s.cal := rfl
@[simp] theorem State.modCnt_refs (s : State) (k : Nat) (f : Counter → Counter) : (s.modCnt k f).refs = s.refs := rfl
@[simp] theorem State.modCnt_meas (s : State) (k : Nat) (f : Counter → Counter) : (s.modCnt k f).meas = s.meas := rfl
@[simp] theorem State.modCnt_redund (s : State) (k : Nat) (f : Counter → Counter) : (s.modCnt k f).redund = s.redund := rfl
@[simp] theorem State.modCnt_sec (s : State) (k : Nat) (f : Counter → Counter) : (s.modCnt k f).sec = s.sec := rfl
@[simp] theorem State.modCnt_waiting (s : State) (k : Nat) (f : Counter → Counter) : (s.modCnt k f).waiting = s.waiting := rfl
@[simp] theorem State.modCnt_written (s : State) (k : Nat) (f : Counter → Counter) : (s.modCnt k f).written = s.written := rfl
@[simp] theorem State.modCnt_line (s : State) (k : Nat) (f : Counter → Counter) : (s.modCnt k f).line = s.line := rfl
@[simp] theorem State.modCnt_freeCtr (s : State) (k : Nat) (f : Counter → Counter) : (s.modCnt k f).freeCtr = s.freeCtr := rfl
@[simp] theorem State.modCnt_pending (s : State) (k : Nat) (f : Counter → Counter) : (s.modCnt k f).pending = s.pending := rfl
@[simp] theorem State.modCnt_reg (s : State) (k : Nat) (f : Counter → Counter) (g : Nat) : (s.modCnt k f).reg g = s.reg g := rfl
@[simp] theorem State.modCnt_fld (s : State) (k : Nat) (f : Counter → Counter) (g : Fld) : (s.modCnt k f).fld g = s.fld g := rfl
@[simp] theorem State.modCnt_flag (s : State) (k : Nat) (f : Counter → Counter) (g : Fld) : (s.modCnt k f).flag g = s.flag g := rfl

/-! ### State.setVal -/
@[simp] theorem State.setVal_regs (s : State) (k : Nat) (t : Stamp) : (s.setVal k t).regs = s.regs := rfl
@[simp] theorem State.setVal_ctr (s : State) (k : Nat) (t : Stamp) : (s.setVal k t).ctr = s.ctr := rfl
@[simp] theorem State.setVal_rdata (s : State) (k : Nat) (t : Stamp) : (s.setVal k t).rdata = s.rdata := rfl
@[simp] theorem State.setVal_power (s : State) (k : Nat) (t : Stamp) : (s.setVal k t).power = s.power := rfl
@[simp] theorem State.setVal_host (s : State) (k : Nat) (t : Stamp) : (s.setVal k t).host = s.host := rfl
@[simp] theorem State.setVal_cores (s : State) (k : Nat) (t : Stamp) : (s.setVal k t).cores = s.cores := rfl
@[simp] theorem State.setVal_lanes (s : State) (k : Nat) (t : Stamp) : (s.setVal k t).lanes = s.lanes := rfl
@[simp] theorem State.setVal_ports (s : State) (k : Nat) (t : Stamp) : (s.setVal k t).ports = s.ports := rfl
@[simp] theorem State.setVal_pipes (s : State) (k : Nat) (t : Stamp) : (s.setVal k t).pipes = s.pipes := rfl
@[simp] theorem State.setVal_fabric (s : State) (k : Nat) (t : Stamp) : (s.setVal k t).fabric = s.fabric := rfl
@[simp] theorem State.setVal_servo (s : State) (k : Nat) (t : Stamp) : (s.setVal k t).servo = s.servo := rfl
@[simp] theorem State.setVal_cal (s : State) (k : Nat) (t : Stamp) : (s.setVal k t).cal = s.cal := rfl
@[simp] theorem State.setVal_refs (s : State) (k : Nat) (t : Stamp) : (s.setVal k t).refs = s.refs := rfl
@[simp] theorem State.setVal_meas (s : State) (k : Nat) (t : Stamp) : (s.setVal k t).meas = s.meas := rfl
@[simp] theorem State.setVal_redund (s : State) (k : Nat) (t : Stamp) : (s.setVal k t).redund = s.redund := rfl
@[simp] theorem State.setVal_sec (s : State) (k : Nat) (t : Stamp) : (s.setVal k t).sec = s.sec := rfl
@[simp] theorem State.setVal_waiting (s : State) (k : Nat) (t : Stamp) : (s.setVal k t).waiting = s.waiting := rfl
@[simp] theorem State.setVal_written (s : State) (k : Nat) (t : Stamp) : (s.setVal k t).written = s.written := rfl
@[simp] theorem State.setVal_line (s : State) (k : Nat) (t : Stamp) : (s.setVal k t).line = s.line := rfl
@[simp] theorem State.setVal_freeCtr (s : State) (k : Nat) (t : Stamp) : (s.setVal k t).freeCtr = s.freeCtr := rfl
@[simp] theorem State.setVal_pending (s : State) (k : Nat) (t : Stamp) : (s.setVal k t).pending = s.pending := rfl
@[simp] theorem State.setVal_reg (s : State) (k : Nat) (t : Stamp) (g : Nat) : (s.setVal k t).reg g = s.reg g := rfl
@[simp] theorem State.setVal_fld (s : State) (k : Nat) (t : Stamp) (g : Fld) : (s.setVal k t).fld g = s.fld g := rfl
@[simp] theorem State.setVal_flag (s : State) (k : Nat) (t : Stamp) (g : Fld) : (s.setVal k t).flag g = s.flag g := rfl

/-! ### State.addVal -/
@[simp] theorem State.addVal_regs (s : State) (k : Nat) (d : Int) : (s.addVal k d).regs = s.regs := rfl
@[simp] theorem State.addVal_ctr (s : State) (k : Nat) (d : Int) : (s.addVal k d).ctr = s.ctr := rfl
@[simp] theorem State.addVal_rdata (s : State) (k : Nat) (d : Int) : (s.addVal k d).rdata = s.rdata := rfl
@[simp] theorem State.addVal_power (s : State) (k : Nat) (d : Int) : (s.addVal k d).power = s.power := rfl
@[simp] theorem State.addVal_host (s : State) (k : Nat) (d : Int) : (s.addVal k d).host = s.host := rfl
@[simp] theorem State.addVal_cores (s : State) (k : Nat) (d : Int) : (s.addVal k d).cores = s.cores := rfl
@[simp] theorem State.addVal_lanes (s : State) (k : Nat) (d : Int) : (s.addVal k d).lanes = s.lanes := rfl
@[simp] theorem State.addVal_ports (s : State) (k : Nat) (d : Int) : (s.addVal k d).ports = s.ports := rfl
@[simp] theorem State.addVal_pipes (s : State) (k : Nat) (d : Int) : (s.addVal k d).pipes = s.pipes := rfl
@[simp] theorem State.addVal_fabric (s : State) (k : Nat) (d : Int) : (s.addVal k d).fabric = s.fabric := rfl
@[simp] theorem State.addVal_servo (s : State) (k : Nat) (d : Int) : (s.addVal k d).servo = s.servo := rfl
@[simp] theorem State.addVal_cal (s : State) (k : Nat) (d : Int) : (s.addVal k d).cal = s.cal := rfl
@[simp] theorem State.addVal_refs (s : State) (k : Nat) (d : Int) : (s.addVal k d).refs = s.refs := rfl
@[simp] theorem State.addVal_meas (s : State) (k : Nat) (d : Int) : (s.addVal k d).meas = s.meas := rfl
@[simp] theorem State.addVal_redund (s : State) (k : Nat) (d : Int) : (s.addVal k d).redund = s.redund := rfl
@[simp] theorem State.addVal_sec (s : State) (k : Nat) (d : Int) : (s.addVal k d).sec = s.sec := rfl
@[simp] theorem State.addVal_waiting (s : State) (k : Nat) (d : Int) : (s.addVal k d).waiting = s.waiting := rfl
@[simp] theorem State.addVal_written (s : State) (k : Nat) (d : Int) : (s.addVal k d).written = s.written := rfl
@[simp] theorem State.addVal_line (s : State) (k : Nat) (d : Int) : (s.addVal k d).line = s.line := rfl
@[simp] theorem State.addVal_freeCtr (s : State) (k : Nat) (d : Int) : (s.addVal k d).freeCtr = s.freeCtr := rfl
@[simp] theorem State.addVal_pending (s : State) (k : Nat) (d : Int) : (s.addVal k d).pending = s.pending := rfl
@[simp] theorem State.addVal_reg (s : State) (k : Nat) (d : Int) (g : Nat) : (s.addVal k d).reg g = s.reg g := rfl
@[simp] theorem State.addVal_fld (s : State) (k : Nat) (d : Int) (g : Fld) : (s.addVal k d).fld g = s.fld g := rfl
@[simp] theorem State.addVal_flag (s : State) (k : Nat) (d : Int) (g : Fld) : (s.addVal k d).flag g = s.flag g := rfl

/-! ### State.ticks -/
@[simp] theorem State.ticks_regs (s : State) (n : Nat) : (s.ticks n).regs = s.regs := rfl
@[simp] theorem State.ticks_ctr (s : State) (n : Nat) : (s.ticks n).ctr = s.ctr := rfl
@[simp] theorem State.ticks_rdata (s : State) (n : Nat) : (s.ticks n).rdata = s.rdata := rfl
@[simp] theorem State.ticks_power (s : State) (n : Nat) : (s.ticks n).power = s.power := rfl
@[simp] theorem State.ticks_host (s : State) (n : Nat) : (s.ticks n).host = s.host := rfl
@[simp] theorem State.ticks_cores (s : State) (n : Nat) : (s.ticks n).cores = s.cores := rfl
@[simp] theorem State.ticks_lanes (s : State) (n : Nat) : (s.ticks n).lanes = s.lanes := rfl
@[simp] theorem State.ticks_ports (s : State) (n : Nat) : (s.ticks n).ports = s.ports := rfl
@[simp] theorem State.ticks_pipes (s : State) (n : Nat) : (s.ticks n).pipes = s.pipes := rfl
@[simp] theorem State.ticks_fabric (s : State) (n : Nat) : (s.ticks n).fabric = s.fabric := rfl
@[simp] theorem State.ticks_servo (s : State) (n : Nat) : (s.ticks n).servo = s.servo := rfl
@[simp] theorem State.ticks_cal (s : State) (n : Nat) : (s.ticks n).cal = s.cal := rfl
@[simp] theorem State.ticks_refs (s : State) (n : Nat) : (s.ticks n).refs = s.refs := rfl
@[simp] theorem State.ticks_meas (s : State) (n : Nat) : (s.ticks n).meas = s.meas := rfl
@[simp] theorem State.ticks_redund (s : State) (n : Nat) : (s.ticks n).redund = s.redund := rfl
@[simp] theorem State.ticks_sec (s : State) (n : Nat) : (s.ticks n).sec = s.sec := rfl
@[simp] theorem State.ticks_waiting (s : State) (n : Nat) : (s.ticks n).waiting = s.waiting := rfl
@[simp] theorem State.ticks_written (s : State) (n : Nat) : (s.ticks n).written = s.written := rfl
@[simp] theorem State.ticks_line (s : State) (n : Nat) : (s.ticks n).line = s.line := rfl
@[simp] theorem State.ticks_freeCtr (s : State) (n : Nat) : (s.ticks n).freeCtr = s.freeCtr := rfl
@[simp] theorem State.ticks_pending (s : State) (n : Nat) : (s.ticks n).pending = s.pending := rfl
@[simp] theorem State.ticks_reg (s : State) (n : Nat) (g : Nat) : (s.ticks n).reg g = s.reg g := rfl
@[simp] theorem State.ticks_fld (s : State) (n : Nat) (g : Fld) : (s.ticks n).fld g = s.fld g := rfl
@[simp] theorem State.ticks_flag (s : State) (n : Nat) (g : Fld) : (s.ticks n).flag g = s.flag g := rfl

/-! ### State.modSec -/
@[simp] theorem State.modSec_regs (s : State) (f : SecSt → SecSt) : (s.modSec f).regs = s.regs := rfl
@[simp] theorem State.modSec_ctr (s : State) (f : SecSt → SecSt) : (s.modSec f).ctr = s.ctr := rfl
@[simp] theorem State.modSec_rdata (s : State) (f : SecSt → SecSt) : (s.modSec f).rdata = s.rdata := rfl
@[simp] theorem State.modSec_time (s : State) (f : SecSt → SecSt) : (s.modSec f).time = s.time := rfl
@[simp] theorem State.modSec_power (s : State) (f : SecSt → SecSt) : (s.modSec f).power = s.power := rfl
@[simp] theorem State.modSec_host (s : State) (f : SecSt → SecSt) : (s.modSec f).host = s.host := rfl
@[simp] theorem State.modSec_cores (s : State) (f : SecSt → SecSt) : (s.modSec f).cores = s.cores := rfl
@[simp] theorem State.modSec_lanes (s : State) (f : SecSt → SecSt) : (s.modSec f).lanes = s.lanes := rfl
@[simp] theorem State.modSec_ports (s : State) (f : SecSt → SecSt) : (s.modSec f).ports = s.ports := rfl
@[simp] theorem State.modSec_pipes (s : State) (f : SecSt → SecSt) : (s.modSec f).pipes = s.pipes := rfl
@[simp] theorem State.modSec_fabric (s : State) (f : SecSt → SecSt) : (s.modSec f).fabric = s.fabric := rfl
@[simp] theorem State.modSec_servo (s : State) (f : SecSt → SecSt) : (s.modSec f).servo = s.servo := rfl
@[simp] theorem State.modSec_cal (s : State) (f : SecSt → SecSt) : (s.modSec f).cal = s.cal := rfl
@[simp] theorem State.modSec_refs (s : State) (f : SecSt → SecSt) : (s.modSec f).refs = s.refs := rfl
@[simp] theorem State.modSec_meas (s : State) (f : SecSt → SecSt) : (s.modSec f).meas = s.meas := rfl
@[simp] theorem State.modSec_redund (s : State) (f : SecSt → SecSt) : (s.modSec f).redund = s.redund := rfl
@[simp] theorem State.modSec_waiting (s : State) (f : SecSt → SecSt) : (s.modSec f).waiting = s.waiting := rfl
@[simp] theorem State.modSec_written (s : State) (f : SecSt → SecSt) : (s.modSec f).written = s.written := rfl
@[simp] theorem State.modSec_line (s : State) (f : SecSt → SecSt) : (s.modSec f).line = s.line := rfl
@[simp] theorem State.modSec_freeCtr (s : State) (f : SecSt → SecSt) : (s.modSec f).freeCtr = s.freeCtr := rfl
@[simp] theorem State.modSec_pending (s : State) (f : SecSt → SecSt) : (s.modSec f).pending = s.pending := rfl
@[simp] theorem State.modSec_reg (s : State) (f : SecSt → SecSt) (g : Nat) : (s.modSec f).reg g = s.reg g := rfl
@[simp] theorem State.modSec_fld (s : State) (f : SecSt → SecSt) (g : Fld) : (s.modSec f).fld g = s.fld g := rfl
@[simp] theorem State.modSec_flag (s : State) (f : SecSt → SecSt) (g : Fld) : (s.modSec f).flag g = s.flag g := rfl

/-! ### State.modRedund -/
@[simp] theorem State.modRedund_regs (s : State) (f : RedundSt → RedundSt) : (s.modRedund f).regs = s.regs := rfl
@[simp] theorem State.modRedund_ctr (s : State) (f : RedundSt → RedundSt) : (s.modRedund f).ctr = s.ctr := rfl
@[simp] theorem State.modRedund_rdata (s : State) (f : RedundSt → RedundSt) : (s.modRedund f).rdata = s.rdata := rfl
@[simp] theorem State.modRedund_time (s : State) (f : RedundSt → RedundSt) : (s.modRedund f).time = s.time := rfl
@[simp] theorem State.modRedund_power (s : State) (f : RedundSt → RedundSt) : (s.modRedund f).power = s.power := rfl
@[simp] theorem State.modRedund_host (s : State) (f : RedundSt → RedundSt) : (s.modRedund f).host = s.host := rfl
@[simp] theorem State.modRedund_cores (s : State) (f : RedundSt → RedundSt) : (s.modRedund f).cores = s.cores := rfl
@[simp] theorem State.modRedund_lanes (s : State) (f : RedundSt → RedundSt) : (s.modRedund f).lanes = s.lanes := rfl
@[simp] theorem State.modRedund_ports (s : State) (f : RedundSt → RedundSt) : (s.modRedund f).ports = s.ports := rfl
@[simp] theorem State.modRedund_pipes (s : State) (f : RedundSt → RedundSt) : (s.modRedund f).pipes = s.pipes := rfl
@[simp] theorem State.modRedund_fabric (s : State) (f : RedundSt → RedundSt) : (s.modRedund f).fabric = s.fabric := rfl
@[simp] theorem State.modRedund_servo (s : State) (f : RedundSt → RedundSt) : (s.modRedund f).servo = s.servo := rfl
@[simp] theorem State.modRedund_cal (s : State) (f : RedundSt → RedundSt) : (s.modRedund f).cal = s.cal := rfl
@[simp] theorem State.modRedund_refs (s : State) (f : RedundSt → RedundSt) : (s.modRedund f).refs = s.refs := rfl
@[simp] theorem State.modRedund_meas (s : State) (f : RedundSt → RedundSt) : (s.modRedund f).meas = s.meas := rfl
@[simp] theorem State.modRedund_sec (s : State) (f : RedundSt → RedundSt) : (s.modRedund f).sec = s.sec := rfl
@[simp] theorem State.modRedund_waiting (s : State) (f : RedundSt → RedundSt) : (s.modRedund f).waiting = s.waiting := rfl
@[simp] theorem State.modRedund_written (s : State) (f : RedundSt → RedundSt) : (s.modRedund f).written = s.written := rfl
@[simp] theorem State.modRedund_line (s : State) (f : RedundSt → RedundSt) : (s.modRedund f).line = s.line := rfl
@[simp] theorem State.modRedund_freeCtr (s : State) (f : RedundSt → RedundSt) : (s.modRedund f).freeCtr = s.freeCtr := rfl
@[simp] theorem State.modRedund_pending (s : State) (f : RedundSt → RedundSt) : (s.modRedund f).pending = s.pending := rfl
@[simp] theorem State.modRedund_reg (s : State) (f : RedundSt → RedundSt) (g : Nat) : (s.modRedund f).reg g = s.reg g := rfl
@[simp] theorem State.modRedund_fld (s : State) (f : RedundSt → RedundSt) (g : Fld) : (s.modRedund f).fld g = s.fld g := rfl
@[simp] theorem State.modRedund_flag (s : State) (f : RedundSt → RedundSt) (g : Fld) : (s.modRedund f).flag g = s.flag g := rfl

/-! ### State.modCal -/
@[simp] theorem State.modCal_regs (s : State) (f : CalSt → CalSt) : (s.modCal f).regs = s.regs := rfl
@[simp] theorem State.modCal_ctr (s : State) (f : CalSt → CalSt) : (s.modCal f).ctr = s.ctr := rfl
@[simp] theorem State.modCal_rdata (s : State) (f : CalSt → CalSt) : (s.modCal f).rdata = s.rdata := rfl
@[simp] theorem State.modCal_time (s : State) (f : CalSt → CalSt) : (s.modCal f).time = s.time := rfl
@[simp] theorem State.modCal_power (s : State) (f : CalSt → CalSt) : (s.modCal f).power = s.power := rfl
@[simp] theorem State.modCal_host (s : State) (f : CalSt → CalSt) : (s.modCal f).host = s.host := rfl
@[simp] theorem State.modCal_cores (s : State) (f : CalSt → CalSt) : (s.modCal f).cores = s.cores := rfl
@[simp] theorem State.modCal_lanes (s : State) (f : CalSt → CalSt) : (s.modCal f).lanes = s.lanes := rfl
@[simp] theorem State.modCal_ports (s : State) (f : CalSt → CalSt) : (s.modCal f).ports = s.ports := rfl
@[simp] theorem State.modCal_pipes (s : State) (f : CalSt → CalSt) : (s.modCal f).pipes = s.pipes := rfl
@[simp] theorem State.modCal_fabric (s : State) (f : CalSt → CalSt) : (s.modCal f).fabric = s.fabric := rfl
@[simp] theorem State.modCal_servo (s : State) (f : CalSt → CalSt) : (s.modCal f).servo = s.servo := rfl
@[simp] theorem State.modCal_refs (s : State) (f : CalSt → CalSt) : (s.modCal f).refs = s.refs := rfl
@[simp] theorem State.modCal_meas (s : State) (f : CalSt → CalSt) : (s.modCal f).meas = s.meas := rfl
@[simp] theorem State.modCal_redund (s : State) (f : CalSt → CalSt) : (s.modCal f).redund = s.redund := rfl
@[simp] theorem State.modCal_sec (s : State) (f : CalSt → CalSt) : (s.modCal f).sec = s.sec := rfl
@[simp] theorem State.modCal_waiting (s : State) (f : CalSt → CalSt) : (s.modCal f).waiting = s.waiting := rfl
@[simp] theorem State.modCal_written (s : State) (f : CalSt → CalSt) : (s.modCal f).written = s.written := rfl
@[simp] theorem State.modCal_line (s : State) (f : CalSt → CalSt) : (s.modCal f).line = s.line := rfl
@[simp] theorem State.modCal_freeCtr (s : State) (f : CalSt → CalSt) : (s.modCal f).freeCtr = s.freeCtr := rfl
@[simp] theorem State.modCal_pending (s : State) (f : CalSt → CalSt) : (s.modCal f).pending = s.pending := rfl
@[simp] theorem State.modCal_reg (s : State) (f : CalSt → CalSt) (g : Nat) : (s.modCal f).reg g = s.reg g := rfl
@[simp] theorem State.modCal_fld (s : State) (f : CalSt → CalSt) (g : Fld) : (s.modCal f).fld g = s.fld g := rfl
@[simp] theorem State.modCal_flag (s : State) (f : CalSt → CalSt) (g : Fld) : (s.modCal f).flag g = s.flag g := rfl

/-! ### State.modPath -/
@[simp] theorem State.modPath_regs (s : State) (n : Nat) (f : PathCal → PathCal) : (s.modPath n f).regs = s.regs := rfl
@[simp] theorem State.modPath_ctr (s : State) (n : Nat) (f : PathCal → PathCal) : (s.modPath n f).ctr = s.ctr := rfl
@[simp] theorem State.modPath_rdata (s : State) (n : Nat) (f : PathCal → PathCal) : (s.modPath n f).rdata = s.rdata := rfl
@[simp] theorem State.modPath_time (s : State) (n : Nat) (f : PathCal → PathCal) : (s.modPath n f).time = s.time := rfl
@[simp] theorem State.modPath_power (s : State) (n : Nat) (f : PathCal → PathCal) : (s.modPath n f).power = s.power := rfl
@[simp] theorem State.modPath_host (s : State) (n : Nat) (f : PathCal → PathCal) : (s.modPath n f).host = s.host := rfl
@[simp] theorem State.modPath_cores (s : State) (n : Nat) (f : PathCal → PathCal) : (s.modPath n f).cores = s.cores := rfl
@[simp] theorem State.modPath_lanes (s : State) (n : Nat) (f : PathCal → PathCal) : (s.modPath n f).lanes = s.lanes := rfl
@[simp] theorem State.modPath_ports (s : State) (n : Nat) (f : PathCal → PathCal) : (s.modPath n f).ports = s.ports := rfl
@[simp] theorem State.modPath_pipes (s : State) (n : Nat) (f : PathCal → PathCal) : (s.modPath n f).pipes = s.pipes := rfl
@[simp] theorem State.modPath_fabric (s : State) (n : Nat) (f : PathCal → PathCal) : (s.modPath n f).fabric = s.fabric := rfl
@[simp] theorem State.modPath_servo (s : State) (n : Nat) (f : PathCal → PathCal) : (s.modPath n f).servo = s.servo := rfl
@[simp] theorem State.modPath_refs (s : State) (n : Nat) (f : PathCal → PathCal) : (s.modPath n f).refs = s.refs := rfl
@[simp] theorem State.modPath_meas (s : State) (n : Nat) (f : PathCal → PathCal) : (s.modPath n f).meas = s.meas := rfl
@[simp] theorem State.modPath_redund (s : State) (n : Nat) (f : PathCal → PathCal) : (s.modPath n f).redund = s.redund := rfl
@[simp] theorem State.modPath_sec (s : State) (n : Nat) (f : PathCal → PathCal) : (s.modPath n f).sec = s.sec := rfl
@[simp] theorem State.modPath_waiting (s : State) (n : Nat) (f : PathCal → PathCal) : (s.modPath n f).waiting = s.waiting := rfl
@[simp] theorem State.modPath_written (s : State) (n : Nat) (f : PathCal → PathCal) : (s.modPath n f).written = s.written := rfl
@[simp] theorem State.modPath_line (s : State) (n : Nat) (f : PathCal → PathCal) : (s.modPath n f).line = s.line := rfl
@[simp] theorem State.modPath_freeCtr (s : State) (n : Nat) (f : PathCal → PathCal) : (s.modPath n f).freeCtr = s.freeCtr := rfl
@[simp] theorem State.modPath_pending (s : State) (n : Nat) (f : PathCal → PathCal) : (s.modPath n f).pending = s.pending := rfl
@[simp] theorem State.modPath_reg (s : State) (n : Nat) (f : PathCal → PathCal) (g : Nat) : (s.modPath n f).reg g = s.reg g := rfl
@[simp] theorem State.modPath_fld (s : State) (n : Nat) (f : PathCal → PathCal) (g : Fld) : (s.modPath n f).fld g = s.fld g := rfl
@[simp] theorem State.modPath_flag (s : State) (n : Nat) (f : PathCal → PathCal) (g : Fld) : (s.modPath n f).flag g = s.flag g := rfl

/-! ### State.modInterp -/
@[simp] theorem State.modInterp_regs (s : State) (u : Nat) (f : InterpCal → InterpCal) : (s.modInterp u f).regs = s.regs := rfl
@[simp] theorem State.modInterp_ctr (s : State) (u : Nat) (f : InterpCal → InterpCal) : (s.modInterp u f).ctr = s.ctr := rfl
@[simp] theorem State.modInterp_rdata (s : State) (u : Nat) (f : InterpCal → InterpCal) : (s.modInterp u f).rdata = s.rdata := rfl
@[simp] theorem State.modInterp_time (s : State) (u : Nat) (f : InterpCal → InterpCal) : (s.modInterp u f).time = s.time := rfl
@[simp] theorem State.modInterp_power (s : State) (u : Nat) (f : InterpCal → InterpCal) : (s.modInterp u f).power = s.power := rfl
@[simp] theorem State.modInterp_host (s : State) (u : Nat) (f : InterpCal → InterpCal) : (s.modInterp u f).host = s.host := rfl
@[simp] theorem State.modInterp_cores (s : State) (u : Nat) (f : InterpCal → InterpCal) : (s.modInterp u f).cores = s.cores := rfl
@[simp] theorem State.modInterp_lanes (s : State) (u : Nat) (f : InterpCal → InterpCal) : (s.modInterp u f).lanes = s.lanes := rfl
@[simp] theorem State.modInterp_ports (s : State) (u : Nat) (f : InterpCal → InterpCal) : (s.modInterp u f).ports = s.ports := rfl
@[simp] theorem State.modInterp_pipes (s : State) (u : Nat) (f : InterpCal → InterpCal) : (s.modInterp u f).pipes = s.pipes := rfl
@[simp] theorem State.modInterp_fabric (s : State) (u : Nat) (f : InterpCal → InterpCal) : (s.modInterp u f).fabric = s.fabric := rfl
@[simp] theorem State.modInterp_servo (s : State) (u : Nat) (f : InterpCal → InterpCal) : (s.modInterp u f).servo = s.servo := rfl
@[simp] theorem State.modInterp_refs (s : State) (u : Nat) (f : InterpCal → InterpCal) : (s.modInterp u f).refs = s.refs := rfl
@[simp] theorem State.modInterp_meas (s : State) (u : Nat) (f : InterpCal → InterpCal) : (s.modInterp u f).meas = s.meas := rfl
@[simp] theorem State.modInterp_redund (s : State) (u : Nat) (f : InterpCal → InterpCal) : (s.modInterp u f).redund = s.redund := rfl
@[simp] theorem State.modInterp_sec (s : State) (u : Nat) (f : InterpCal → InterpCal) : (s.modInterp u f).sec = s.sec := rfl
@[simp] theorem State.modInterp_waiting (s : State) (u : Nat) (f : InterpCal → InterpCal) : (s.modInterp u f).waiting = s.waiting := rfl
@[simp] theorem State.modInterp_written (s : State) (u : Nat) (f : InterpCal → InterpCal) : (s.modInterp u f).written = s.written := rfl
@[simp] theorem State.modInterp_line (s : State) (u : Nat) (f : InterpCal → InterpCal) : (s.modInterp u f).line = s.line := rfl
@[simp] theorem State.modInterp_freeCtr (s : State) (u : Nat) (f : InterpCal → InterpCal) : (s.modInterp u f).freeCtr = s.freeCtr := rfl
@[simp] theorem State.modInterp_pending (s : State) (u : Nat) (f : InterpCal → InterpCal) : (s.modInterp u f).pending = s.pending := rfl
@[simp] theorem State.modInterp_reg (s : State) (u : Nat) (f : InterpCal → InterpCal) (g : Nat) : (s.modInterp u f).reg g = s.reg g := rfl
@[simp] theorem State.modInterp_fld (s : State) (u : Nat) (f : InterpCal → InterpCal) (g : Fld) : (s.modInterp u f).fld g = s.fld g := rfl
@[simp] theorem State.modInterp_flag (s : State) (u : Nat) (f : InterpCal → InterpCal) (g : Fld) : (s.modInterp u f).flag g = s.flag g := rfl

/-! ### State.modFabric -/
@[simp] theorem State.modFabric_regs (s : State) (f : FabricSt → FabricSt) : (s.modFabric f).regs = s.regs := rfl
@[simp] theorem State.modFabric_ctr (s : State) (f : FabricSt → FabricSt) : (s.modFabric f).ctr = s.ctr := rfl
@[simp] theorem State.modFabric_rdata (s : State) (f : FabricSt → FabricSt) : (s.modFabric f).rdata = s.rdata := rfl
@[simp] theorem State.modFabric_time (s : State) (f : FabricSt → FabricSt) : (s.modFabric f).time = s.time := rfl
@[simp] theorem State.modFabric_power (s : State) (f : FabricSt → FabricSt) : (s.modFabric f).power = s.power := rfl
@[simp] theorem State.modFabric_host (s : State) (f : FabricSt → FabricSt) : (s.modFabric f).host = s.host := rfl
@[simp] theorem State.modFabric_cores (s : State) (f : FabricSt → FabricSt) : (s.modFabric f).cores = s.cores := rfl
@[simp] theorem State.modFabric_lanes (s : State) (f : FabricSt → FabricSt) : (s.modFabric f).lanes = s.lanes := rfl
@[simp] theorem State.modFabric_ports (s : State) (f : FabricSt → FabricSt) : (s.modFabric f).ports = s.ports := rfl
@[simp] theorem State.modFabric_pipes (s : State) (f : FabricSt → FabricSt) : (s.modFabric f).pipes = s.pipes := rfl
@[simp] theorem State.modFabric_servo (s : State) (f : FabricSt → FabricSt) : (s.modFabric f).servo = s.servo := rfl
@[simp] theorem State.modFabric_cal (s : State) (f : FabricSt → FabricSt) : (s.modFabric f).cal = s.cal := rfl
@[simp] theorem State.modFabric_refs (s : State) (f : FabricSt → FabricSt) : (s.modFabric f).refs = s.refs := rfl
@[simp] theorem State.modFabric_meas (s : State) (f : FabricSt → FabricSt) : (s.modFabric f).meas = s.meas := rfl
@[simp] theorem State.modFabric_redund (s : State) (f : FabricSt → FabricSt) : (s.modFabric f).redund = s.redund := rfl
@[simp] theorem State.modFabric_sec (s : State) (f : FabricSt → FabricSt) : (s.modFabric f).sec = s.sec := rfl
@[simp] theorem State.modFabric_waiting (s : State) (f : FabricSt → FabricSt) : (s.modFabric f).waiting = s.waiting := rfl
@[simp] theorem State.modFabric_written (s : State) (f : FabricSt → FabricSt) : (s.modFabric f).written = s.written := rfl
@[simp] theorem State.modFabric_line (s : State) (f : FabricSt → FabricSt) : (s.modFabric f).line = s.line := rfl
@[simp] theorem State.modFabric_freeCtr (s : State) (f : FabricSt → FabricSt) : (s.modFabric f).freeCtr = s.freeCtr := rfl
@[simp] theorem State.modFabric_pending (s : State) (f : FabricSt → FabricSt) : (s.modFabric f).pending = s.pending := rfl
@[simp] theorem State.modFabric_reg (s : State) (f : FabricSt → FabricSt) (g : Nat) : (s.modFabric f).reg g = s.reg g := rfl
@[simp] theorem State.modFabric_fld (s : State) (f : FabricSt → FabricSt) (g : Fld) : (s.modFabric f).fld g = s.fld g := rfl
@[simp] theorem State.modFabric_flag (s : State) (f : FabricSt → FabricSt) (g : Fld) : (s.modFabric f).flag g = s.flag g := rfl

/-! ### State.modFrame -/
@[simp] theorem State.modFrame_regs (s : State) (i : Nat) (f : Frame → Frame) : (s.modFrame i f).regs = s.regs := rfl
@[simp] theorem State.modFrame_ctr (s : State) (i : Nat) (f : Frame → Frame) : (s.modFrame i f).ctr = s.ctr := rfl
@[simp] theorem State.modFrame_rdata (s : State) (i : Nat) (f : Frame → Frame) : (s.modFrame i f).rdata = s.rdata := rfl
@[simp] theorem State.modFrame_time (s : State) (i : Nat) (f : Frame → Frame) : (s.modFrame i f).time = s.time := rfl
@[simp] theorem State.modFrame_power (s : State) (i : Nat) (f : Frame → Frame) : (s.modFrame i f).power = s.power := rfl
@[simp] theorem State.modFrame_host (s : State) (i : Nat) (f : Frame → Frame) : (s.modFrame i f).host = s.host := rfl
@[simp] theorem State.modFrame_cores (s : State) (i : Nat) (f : Frame → Frame) : (s.modFrame i f).cores = s.cores := rfl
@[simp] theorem State.modFrame_lanes (s : State) (i : Nat) (f : Frame → Frame) : (s.modFrame i f).lanes = s.lanes := rfl
@[simp] theorem State.modFrame_ports (s : State) (i : Nat) (f : Frame → Frame) : (s.modFrame i f).ports = s.ports := rfl
@[simp] theorem State.modFrame_pipes (s : State) (i : Nat) (f : Frame → Frame) : (s.modFrame i f).pipes = s.pipes := rfl
@[simp] theorem State.modFrame_servo (s : State) (i : Nat) (f : Frame → Frame) : (s.modFrame i f).servo = s.servo := rfl
@[simp] theorem State.modFrame_cal (s : State) (i : Nat) (f : Frame → Frame) : (s.modFrame i f).cal = s.cal := rfl
@[simp] theorem State.modFrame_refs (s : State) (i : Nat) (f : Frame → Frame) : (s.modFrame i f).refs = s.refs := rfl
@[simp] theorem State.modFrame_meas (s : State) (i : Nat) (f : Frame → Frame) : (s.modFrame i f).meas = s.meas := rfl
@[simp] theorem State.modFrame_redund (s : State) (i : Nat) (f : Frame → Frame) : (s.modFrame i f).redund = s.redund := rfl
@[simp] theorem State.modFrame_sec (s : State) (i : Nat) (f : Frame → Frame) : (s.modFrame i f).sec = s.sec := rfl
@[simp] theorem State.modFrame_waiting (s : State) (i : Nat) (f : Frame → Frame) : (s.modFrame i f).waiting = s.waiting := rfl
@[simp] theorem State.modFrame_written (s : State) (i : Nat) (f : Frame → Frame) : (s.modFrame i f).written = s.written := rfl
@[simp] theorem State.modFrame_line (s : State) (i : Nat) (f : Frame → Frame) : (s.modFrame i f).line = s.line := rfl
@[simp] theorem State.modFrame_freeCtr (s : State) (i : Nat) (f : Frame → Frame) : (s.modFrame i f).freeCtr = s.freeCtr := rfl
@[simp] theorem State.modFrame_pending (s : State) (i : Nat) (f : Frame → Frame) : (s.modFrame i f).pending = s.pending := rfl
@[simp] theorem State.modFrame_reg (s : State) (i : Nat) (f : Frame → Frame) (g : Nat) : (s.modFrame i f).reg g = s.reg g := rfl
@[simp] theorem State.modFrame_fld (s : State) (i : Nat) (f : Frame → Frame) (g : Fld) : (s.modFrame i f).fld g = s.fld g := rfl
@[simp] theorem State.modFrame_flag (s : State) (i : Nat) (f : Frame → Frame) (g : Fld) : (s.modFrame i f).flag g = s.flag g := rfl

/-! ### State.modMeas -/
@[simp] theorem State.modMeas_regs (s : State) (f : MeasSt → MeasSt) : (s.modMeas f).regs = s.regs := rfl
@[simp] theorem State.modMeas_ctr (s : State) (f : MeasSt → MeasSt) : (s.modMeas f).ctr = s.ctr := rfl
@[simp] theorem State.modMeas_rdata (s : State) (f : MeasSt → MeasSt) : (s.modMeas f).rdata = s.rdata := rfl
@[simp] theorem State.modMeas_time (s : State) (f : MeasSt → MeasSt) : (s.modMeas f).time = s.time := rfl
@[simp] theorem State.modMeas_power (s : State) (f : MeasSt → MeasSt) : (s.modMeas f).power = s.power := rfl
@[simp] theorem State.modMeas_host (s : State) (f : MeasSt → MeasSt) : (s.modMeas f).host = s.host := rfl
@[simp] theorem State.modMeas_cores (s : State) (f : MeasSt → MeasSt) : (s.modMeas f).cores = s.cores := rfl
@[simp] theorem State.modMeas_lanes (s : State) (f : MeasSt → MeasSt) : (s.modMeas f).lanes = s.lanes := rfl
@[simp] theorem State.modMeas_ports (s : State) (f : MeasSt → MeasSt) : (s.modMeas f).ports = s.ports := rfl
@[simp] theorem State.modMeas_pipes (s : State) (f : MeasSt → MeasSt) : (s.modMeas f).pipes = s.pipes := rfl
@[simp] theorem State.modMeas_fabric (s : State) (f : MeasSt → MeasSt) : (s.modMeas f).fabric = s.fabric := rfl
@[simp] theorem State.modMeas_servo (s : State) (f : MeasSt → MeasSt) : (s.modMeas f).servo = s.servo := rfl
@[simp] theorem State.modMeas_cal (s : State) (f : MeasSt → MeasSt) : (s.modMeas f).cal = s.cal := rfl
@[simp] theorem State.modMeas_refs (s : State) (f : MeasSt → MeasSt) : (s.modMeas f).refs = s.refs := rfl
@[simp] theorem State.modMeas_redund (s : State) (f : MeasSt → MeasSt) : (s.modMeas f).redund = s.redund := rfl
@[simp] theorem State.modMeas_sec (s : State) (f : MeasSt → MeasSt) : (s.modMeas f).sec = s.sec := rfl
@[simp] theorem State.modMeas_waiting (s : State) (f : MeasSt → MeasSt) : (s.modMeas f).waiting = s.waiting := rfl
@[simp] theorem State.modMeas_written (s : State) (f : MeasSt → MeasSt) : (s.modMeas f).written = s.written := rfl
@[simp] theorem State.modMeas_line (s : State) (f : MeasSt → MeasSt) : (s.modMeas f).line = s.line := rfl
@[simp] theorem State.modMeas_freeCtr (s : State) (f : MeasSt → MeasSt) : (s.modMeas f).freeCtr = s.freeCtr := rfl
@[simp] theorem State.modMeas_pending (s : State) (f : MeasSt → MeasSt) : (s.modMeas f).pending = s.pending := rfl
@[simp] theorem State.modMeas_reg (s : State) (f : MeasSt → MeasSt) (g : Nat) : (s.modMeas f).reg g = s.reg g := rfl
@[simp] theorem State.modMeas_fld (s : State) (f : MeasSt → MeasSt) (g : Fld) : (s.modMeas f).fld g = s.fld g := rfl
@[simp] theorem State.modMeas_flag (s : State) (f : MeasSt → MeasSt) (g : Fld) : (s.modMeas f).flag g = s.flag g := rfl

/-! ### State.modIm -/
@[simp] theorem State.modIm_regs (s : State) (m : Nat) (f : ImSt → ImSt) : (s.modIm m f).regs = s.regs := rfl
@[simp] theorem State.modIm_ctr (s : State) (m : Nat) (f : ImSt → ImSt) : (s.modIm m f).ctr = s.ctr := rfl
@[simp] theorem State.modIm_rdata (s : State) (m : Nat) (f : ImSt → ImSt) : (s.modIm m f).rdata = s.rdata := rfl
@[simp] theorem State.modIm_time (s : State) (m : Nat) (f : ImSt → ImSt) : (s.modIm m f).time = s.time := rfl
@[simp] theorem State.modIm_power (s : State) (m : Nat) (f : ImSt → ImSt) : (s.modIm m f).power = s.power := rfl
@[simp] theorem State.modIm_host (s : State) (m : Nat) (f : ImSt → ImSt) : (s.modIm m f).host = s.host := rfl
@[simp] theorem State.modIm_cores (s : State) (m : Nat) (f : ImSt → ImSt) : (s.modIm m f).cores = s.cores := rfl
@[simp] theorem State.modIm_lanes (s : State) (m : Nat) (f : ImSt → ImSt) : (s.modIm m f).lanes = s.lanes := rfl
@[simp] theorem State.modIm_ports (s : State) (m : Nat) (f : ImSt → ImSt) : (s.modIm m f).ports = s.ports := rfl
@[simp] theorem State.modIm_pipes (s : State) (m : Nat) (f : ImSt → ImSt) : (s.modIm m f).pipes = s.pipes := rfl
@[simp] theorem State.modIm_fabric (s : State) (m : Nat) (f : ImSt → ImSt) : (s.modIm m f).fabric = s.fabric := rfl
@[simp] theorem State.modIm_servo (s : State) (m : Nat) (f : ImSt → ImSt) : (s.modIm m f).servo = s.servo := rfl
@[simp] theorem State.modIm_cal (s : State) (m : Nat) (f : ImSt → ImSt) : (s.modIm m f).cal = s.cal := rfl
@[simp] theorem State.modIm_refs (s : State) (m : Nat) (f : ImSt → ImSt) : (s.modIm m f).refs = s.refs := rfl
@[simp] theorem State.modIm_redund (s : State) (m : Nat) (f : ImSt → ImSt) : (s.modIm m f).redund = s.redund := rfl
@[simp] theorem State.modIm_sec (s : State) (m : Nat) (f : ImSt → ImSt) : (s.modIm m f).sec = s.sec := rfl
@[simp] theorem State.modIm_waiting (s : State) (m : Nat) (f : ImSt → ImSt) : (s.modIm m f).waiting = s.waiting := rfl
@[simp] theorem State.modIm_written (s : State) (m : Nat) (f : ImSt → ImSt) : (s.modIm m f).written = s.written := rfl
@[simp] theorem State.modIm_line (s : State) (m : Nat) (f : ImSt → ImSt) : (s.modIm m f).line = s.line := rfl
@[simp] theorem State.modIm_freeCtr (s : State) (m : Nat) (f : ImSt → ImSt) : (s.modIm m f).freeCtr = s.freeCtr := rfl
@[simp] theorem State.modIm_pending (s : State) (m : Nat) (f : ImSt → ImSt) : (s.modIm m f).pending = s.pending := rfl
@[simp] theorem State.modIm_reg (s : State) (m : Nat) (f : ImSt → ImSt) (g : Nat) : (s.modIm m f).reg g = s.reg g := rfl
@[simp] theorem State.modIm_fld (s : State) (m : Nat) (f : ImSt → ImSt) (g : Fld) : (s.modIm m f).fld g = s.fld g := rfl
@[simp] theorem State.modIm_flag (s : State) (m : Nat) (f : ImSt → ImSt) (g : Fld) : (s.modIm m f).flag g = s.flag g := rfl

/-! ### State.modFm -/
@[simp] theorem State.modFm_regs (s : State) (m : Nat) (f : FmSt → FmSt) : (s.modFm m f).regs = s.regs := rfl
@[simp] theorem State.modFm_ctr (s : State) (m : Nat) (f : FmSt → FmSt) : (s.modFm m f).ctr = s.ctr := rfl
@[simp] theorem State.modFm_rdata (s : State) (m : Nat) (f : FmSt → FmSt) : (s.modFm m f).rdata = s.rdata := rfl
@[simp] theorem State.modFm_time (s : State) (m : Nat) (f : FmSt → FmSt) : (s.modFm m f).time = s.time := rfl
@[simp] theorem State.modFm_power (s : State) (m : Nat) (f : FmSt → FmSt) : (s.modFm m f).power = s.power := rfl
@[simp] theorem State.modFm_host (s : State) (m : Nat) (f : FmSt → FmSt) : (s.modFm m f).host = s.host := rfl
@[simp] theorem State.modFm_cores (s : State) (m : Nat) (f : FmSt → FmSt) : (s.modFm m f).cores = s.cores := rfl
@[simp] theorem State.modFm_lanes (s : State) (m : Nat) (f : FmSt → FmSt) : (s.modFm m f).lanes = s.lanes := rfl
@[simp] theorem State.modFm_ports (s : State) (m : Nat) (f : FmSt → FmSt) : (s.modFm m f).ports = s.ports := rfl
@[simp] theorem State.modFm_pipes (s : State) (m : Nat) (f : FmSt → FmSt) : (s.modFm m f).pipes = s.pipes := rfl
@[simp] theorem State.modFm_fabric (s : State) (m : Nat) (f : FmSt → FmSt) : (s.modFm m f).fabric = s.fabric := rfl
@[simp] theorem State.modFm_servo (s : State) (m : Nat) (f : FmSt → FmSt) : (s.modFm m f).servo = s.servo := rfl
@[simp] theorem State.modFm_cal (s : State) (m : Nat) (f : FmSt → FmSt) : (s.modFm m f).cal = s.cal := rfl
@[simp] theorem State.modFm_refs (s : State) (m : Nat) (f : FmSt → FmSt) : (s.modFm m f).refs = s.refs := rfl
@[simp] theorem State.modFm_redund (s : State) (m : Nat) (f : FmSt → FmSt) : (s.modFm m f).redund = s.redund := rfl
@[simp] theorem State.modFm_sec (s : State) (m : Nat) (f : FmSt → FmSt) : (s.modFm m f).sec = s.sec := rfl
@[simp] theorem State.modFm_waiting (s : State) (m : Nat) (f : FmSt → FmSt) : (s.modFm m f).waiting = s.waiting := rfl
@[simp] theorem State.modFm_written (s : State) (m : Nat) (f : FmSt → FmSt) : (s.modFm m f).written = s.written := rfl
@[simp] theorem State.modFm_line (s : State) (m : Nat) (f : FmSt → FmSt) : (s.modFm m f).line = s.line := rfl
@[simp] theorem State.modFm_freeCtr (s : State) (m : Nat) (f : FmSt → FmSt) : (s.modFm m f).freeCtr = s.freeCtr := rfl
@[simp] theorem State.modFm_pending (s : State) (m : Nat) (f : FmSt → FmSt) : (s.modFm m f).pending = s.pending := rfl
@[simp] theorem State.modFm_reg (s : State) (m : Nat) (f : FmSt → FmSt) (g : Nat) : (s.modFm m f).reg g = s.reg g := rfl
@[simp] theorem State.modFm_fld (s : State) (m : Nat) (f : FmSt → FmSt) (g : Fld) : (s.modFm m f).fld g = s.fld g := rfl
@[simp] theorem State.modFm_flag (s : State) (m : Nat) (f : FmSt → FmSt) (g : Fld) : (s.modFm m f).flag g = s.flag g := rfl

/-! ### State.modEvout -/
@[simp] theorem State.modEvout_regs (s : State) (k : Nat) (f : EvoutSt → EvoutSt) : (s.modEvout k f).regs = s.regs := rfl
@[simp] theorem State.modEvout_ctr (s : State) (k : Nat) (f : EvoutSt → EvoutSt) : (s.modEvout k f).ctr = s.ctr := rfl
@[simp] theorem State.modEvout_rdata (s : State) (k : Nat) (f : EvoutSt → EvoutSt) : (s.modEvout k f).rdata = s.rdata := rfl
@[simp] theorem State.modEvout_time (s : State) (k : Nat) (f : EvoutSt → EvoutSt) : (s.modEvout k f).time = s.time := rfl
@[simp] theorem State.modEvout_power (s : State) (k : Nat) (f : EvoutSt → EvoutSt) : (s.modEvout k f).power = s.power := rfl
@[simp] theorem State.modEvout_host (s : State) (k : Nat) (f : EvoutSt → EvoutSt) : (s.modEvout k f).host = s.host := rfl
@[simp] theorem State.modEvout_cores (s : State) (k : Nat) (f : EvoutSt → EvoutSt) : (s.modEvout k f).cores = s.cores := rfl
@[simp] theorem State.modEvout_lanes (s : State) (k : Nat) (f : EvoutSt → EvoutSt) : (s.modEvout k f).lanes = s.lanes := rfl
@[simp] theorem State.modEvout_ports (s : State) (k : Nat) (f : EvoutSt → EvoutSt) : (s.modEvout k f).ports = s.ports := rfl
@[simp] theorem State.modEvout_pipes (s : State) (k : Nat) (f : EvoutSt → EvoutSt) : (s.modEvout k f).pipes = s.pipes := rfl
@[simp] theorem State.modEvout_fabric (s : State) (k : Nat) (f : EvoutSt → EvoutSt) : (s.modEvout k f).fabric = s.fabric := rfl
@[simp] theorem State.modEvout_servo (s : State) (k : Nat) (f : EvoutSt → EvoutSt) : (s.modEvout k f).servo = s.servo := rfl
@[simp] theorem State.modEvout_cal (s : State) (k : Nat) (f : EvoutSt → EvoutSt) : (s.modEvout k f).cal = s.cal := rfl
@[simp] theorem State.modEvout_refs (s : State) (k : Nat) (f : EvoutSt → EvoutSt) : (s.modEvout k f).refs = s.refs := rfl
@[simp] theorem State.modEvout_redund (s : State) (k : Nat) (f : EvoutSt → EvoutSt) : (s.modEvout k f).redund = s.redund := rfl
@[simp] theorem State.modEvout_sec (s : State) (k : Nat) (f : EvoutSt → EvoutSt) : (s.modEvout k f).sec = s.sec := rfl
@[simp] theorem State.modEvout_waiting (s : State) (k : Nat) (f : EvoutSt → EvoutSt) : (s.modEvout k f).waiting = s.waiting := rfl
@[simp] theorem State.modEvout_written (s : State) (k : Nat) (f : EvoutSt → EvoutSt) : (s.modEvout k f).written = s.written := rfl
@[simp] theorem State.modEvout_line (s : State) (k : Nat) (f : EvoutSt → EvoutSt) : (s.modEvout k f).line = s.line := rfl
@[simp] theorem State.modEvout_freeCtr (s : State) (k : Nat) (f : EvoutSt → EvoutSt) : (s.modEvout k f).freeCtr = s.freeCtr := rfl
@[simp] theorem State.modEvout_pending (s : State) (k : Nat) (f : EvoutSt → EvoutSt) : (s.modEvout k f).pending = s.pending := rfl
@[simp] theorem State.modEvout_reg (s : State) (k : Nat) (f : EvoutSt → EvoutSt) (g : Nat) : (s.modEvout k f).reg g = s.reg g := rfl
@[simp] theorem State.modEvout_fld (s : State) (k : Nat) (f : EvoutSt → EvoutSt) (g : Fld) : (s.modEvout k f).fld g = s.fld g := rfl
@[simp] theorem State.modEvout_flag (s : State) (k : Nat) (f : EvoutSt → EvoutSt) (g : Fld) : (s.modEvout k f).flag g = s.flag g := rfl

/-! ### State.fresh -/
@[simp] theorem State.fresh_regs (s : State) : (s.fresh).regs = s.regs := rfl
@[simp] theorem State.fresh_ctr (s : State) : (s.fresh).ctr = s.ctr := rfl
@[simp] theorem State.fresh_rdata (s : State) : (s.fresh).rdata = s.rdata := rfl
@[simp] theorem State.fresh_time (s : State) : (s.fresh).time = s.time := rfl
@[simp] theorem State.fresh_power (s : State) : (s.fresh).power = s.power := rfl
@[simp] theorem State.fresh_host (s : State) : (s.fresh).host = s.host := rfl
@[simp] theorem State.fresh_cores (s : State) : (s.fresh).cores = s.cores := rfl
@[simp] theorem State.fresh_lanes (s : State) : (s.fresh).lanes = s.lanes := rfl
@[simp] theorem State.fresh_ports (s : State) : (s.fresh).ports = s.ports := rfl
@[simp] theorem State.fresh_pipes (s : State) : (s.fresh).pipes = s.pipes := rfl
@[simp] theorem State.fresh_fabric (s : State) : (s.fresh).fabric = s.fabric := rfl
@[simp] theorem State.fresh_servo (s : State) : (s.fresh).servo = s.servo := rfl
@[simp] theorem State.fresh_cal (s : State) : (s.fresh).cal = s.cal := rfl
@[simp] theorem State.fresh_refs (s : State) : (s.fresh).refs = s.refs := rfl
@[simp] theorem State.fresh_meas (s : State) : (s.fresh).meas = s.meas := rfl
@[simp] theorem State.fresh_redund (s : State) : (s.fresh).redund = s.redund := rfl
@[simp] theorem State.fresh_sec (s : State) : (s.fresh).sec = s.sec := rfl
@[simp] theorem State.fresh_waiting (s : State) : (s.fresh).waiting = s.waiting := rfl
@[simp] theorem State.fresh_written (s : State) : (s.fresh).written = s.written := rfl
@[simp] theorem State.fresh_line (s : State) : (s.fresh).line = s.line := rfl
@[simp] theorem State.fresh_pending (s : State) : (s.fresh).pending = s.pending := rfl
@[simp] theorem State.fresh_reg (s : State) (g : Nat) : (s.fresh).reg g = s.reg g := rfl
@[simp] theorem State.fresh_fld (s : State) (g : Fld) : (s.fresh).fld g = s.fld g := rfl
@[simp] theorem State.fresh_flag (s : State) (g : Fld) : (s.fresh).flag g = s.flag g := rfl

/-! ### State.out -/
@[simp] theorem State.out_regs (s : State) (x : LineOut) : (s.out x).regs = s.regs := rfl
@[simp] theorem State.out_ctr (s : State) (x : LineOut) : (s.out x).ctr = s.ctr := rfl
@[simp] theorem State.out_rdata (s : State) (x : LineOut) : (s.out x).rdata = s.rdata := rfl
@[simp] theorem State.out_time (s : State) (x : LineOut) : (s.out x).time = s.time := rfl
@[simp] theorem State.out_power (s : State) (x : LineOut) : (s.out x).power = s.power := rfl
@[simp] theorem State.out_host (s : State) (x : LineOut) : (s.out x).host = s.host := rfl
@[simp] theorem State.out_cores (s : State) (x : LineOut) : (s.out x).cores = s.cores := rfl
@[simp] theorem State.out_lanes (s : State) (x : LineOut) : (s.out x).lanes = s.lanes := rfl
@[simp] theorem State.out_ports (s : State) (x : LineOut) : (s.out x).ports = s.ports := rfl
@[simp] theorem State.out_pipes (s : State) (x : LineOut) : (s.out x).pipes = s.pipes := rfl
@[simp] theorem State.out_fabric (s : State) (x : LineOut) : (s.out x).fabric = s.fabric := rfl
@[simp] theorem State.out_servo (s : State) (x : LineOut) : (s.out x).servo = s.servo := rfl
@[simp] theorem State.out_cal (s : State) (x : LineOut) : (s.out x).cal = s.cal := rfl
@[simp] theorem State.out_refs (s : State) (x : LineOut) : (s.out x).refs = s.refs := rfl
@[simp] theorem State.out_meas (s : State) (x : LineOut) : (s.out x).meas = s.meas := rfl
@[simp] theorem State.out_redund (s : State) (x : LineOut) : (s.out x).redund = s.redund := rfl
@[simp] theorem State.out_sec (s : State) (x : LineOut) : (s.out x).sec = s.sec := rfl
@[simp] theorem State.out_waiting (s : State) (x : LineOut) : (s.out x).waiting = s.waiting := rfl
@[simp] theorem State.out_written (s : State) (x : LineOut) : (s.out x).written = s.written := rfl
@[simp] theorem State.out_freeCtr (s : State) (x : LineOut) : (s.out x).freeCtr = s.freeCtr := rfl
@[simp] theorem State.out_pending (s : State) (x : LineOut) : (s.out x).pending = s.pending := rfl
@[simp] theorem State.out_reg (s : State) (x : LineOut) (g : Nat) : (s.out x).reg g = s.reg g := rfl
@[simp] theorem State.out_fld (s : State) (x : LineOut) (g : Fld) : (s.out x).fld g = s.fld g := rfl
@[simp] theorem State.out_flag (s : State) (x : LineOut) (g : Fld) : (s.out x).flag g = s.flag g := rfl

/-! ### State.nextSeq -/
@[simp] theorem State.nextSeq_regs (s : State) : (s.nextSeq).regs = s.regs := rfl
@[simp] theorem State.nextSeq_ctr (s : State) : (s.nextSeq).ctr = s.ctr := rfl
@[simp] theorem State.nextSeq_rdata (s : State) : (s.nextSeq).rdata = s.rdata := rfl
@[simp] theorem State.nextSeq_time (s : State) : (s.nextSeq).time = s.time := rfl
@[simp] theorem State.nextSeq_power (s : State) : (s.nextSeq).power = s.power := rfl
@[simp] theorem State.nextSeq_cores (s : State) : (s.nextSeq).cores = s.cores := rfl
@[simp] theorem State.nextSeq_lanes (s : State) : (s.nextSeq).lanes = s.lanes := rfl
@[simp] theorem State.nextSeq_ports (s : State) : (s.nextSeq).ports = s.ports := rfl
@[simp] theorem State.nextSeq_pipes (s : State) : (s.nextSeq).pipes = s.pipes := rfl
@[simp] theorem State.nextSeq_fabric (s : State) : (s.nextSeq).fabric = s.fabric := rfl
@[simp] theorem State.nextSeq_servo (s : State) : (s.nextSeq).servo = s.servo := rfl
@[simp] theorem State.nextSeq_cal (s : State) : (s.nextSeq).cal = s.cal := rfl
@[simp] theorem State.nextSeq_refs (s : State) : (s.nextSeq).refs = s.refs := rfl
@[simp] theorem State.nextSeq_meas (s : State) : (s.nextSeq).meas = s.meas := rfl
@[simp] theorem State.nextSeq_redund (s : State) : (s.nextSeq).redund = s.redund := rfl
@[simp] theorem State.nextSeq_sec (s : State) : (s.nextSeq).sec = s.sec := rfl
@[simp] theorem State.nextSeq_waiting (s : State) : (s.nextSeq).waiting = s.waiting := rfl
@[simp] theorem State.nextSeq_written (s : State) : (s.nextSeq).written = s.written := rfl
@[simp] theorem State.nextSeq_line (s : State) : (s.nextSeq).line = s.line := rfl
@[simp] theorem State.nextSeq_freeCtr (s : State) : (s.nextSeq).freeCtr = s.freeCtr := rfl
@[simp] theorem State.nextSeq_pending (s : State) : (s.nextSeq).pending = s.pending := rfl
@[simp] theorem State.nextSeq_reg (s : State) (g : Nat) : (s.nextSeq).reg g = s.reg g := rfl
@[simp] theorem State.nextSeq_fld (s : State) (g : Fld) : (s.nextSeq).fld g = s.fld g := rfl
@[simp] theorem State.nextSeq_flag (s : State) (g : Fld) : (s.nextSeq).flag g = s.flag g := rfl

/-! ### State.post -/
@[simp] theorem State.post_regs (s : State) (p : Post) : (s.post p).regs = s.regs := by unfold State.post; split <;> rfl
@[simp] theorem State.post_ctr (s : State) (p : Post) : (s.post p).ctr = s.ctr := by unfold State.post; split <;> rfl
@[simp] theorem State.post_rdata (s : State) (p : Post) : (s.post p).rdata = s.rdata := by unfold State.post; split <;> rfl
@[simp] theorem State.post_time (s : State) (p : Post) : (s.post p).time = s.time := by unfold State.post; split <;> rfl
@[simp] theorem State.post_power (s : State) (p : Post) : (s.post p).power = s.power := by unfold State.post; split <;> rfl
@[simp] theorem State.post_cores (s : State) (p : Post) : (s.post p).cores = s.cores := by unfold State.post; split <;> rfl
@[simp] theorem State.post_lanes (s : State) (p : Post) : (s.post p).lanes = s.lanes := by unfold State.post; split <;> rfl
@[simp] theorem State.post_ports (s : State) (p : Post) : (s.post p).ports = s.ports := by unfold State.post; split <;> rfl
@[simp] theorem State.post_pipes (s : State) (p : Post) : (s.post p).pipes = s.pipes := by unfold State.post; split <;> rfl
@[simp] theorem State.post_fabric (s : State) (p : Post) : (s.post p).fabric = s.fabric := by unfold State.post; split <;> rfl
@[simp] theorem State.post_servo (s : State) (p : Post) : (s.post p).servo = s.servo := by unfold State.post; split <;> rfl
@[simp] theorem State.post_cal (s : State) (p : Post) : (s.post p).cal = s.cal := by unfold State.post; split <;> rfl
@[simp] theorem State.post_refs (s : State) (p : Post) : (s.post p).refs = s.refs := by unfold State.post; split <;> rfl
@[simp] theorem State.post_meas (s : State) (p : Post) : (s.post p).meas = s.meas := by unfold State.post; split <;> rfl
@[simp] theorem State.post_redund (s : State) (p : Post) : (s.post p).redund = s.redund := by unfold State.post; split <;> rfl
@[simp] theorem State.post_sec (s : State) (p : Post) : (s.post p).sec = s.sec := by unfold State.post; split <;> rfl
@[simp] theorem State.post_waiting (s : State) (p : Post) : (s.post p).waiting = s.waiting := by unfold State.post; split <;> rfl
@[simp] theorem State.post_written (s : State) (p : Post) : (s.post p).written = s.written := by unfold State.post; split <;> rfl
@[simp] theorem State.post_line (s : State) (p : Post) : (s.post p).line = s.line := by unfold State.post; split <;> rfl
@[simp] theorem State.post_freeCtr (s : State) (p : Post) : (s.post p).freeCtr = s.freeCtr := by unfold State.post; split <;> rfl
@[simp] theorem State.post_pending (s : State) (p : Post) : (s.post p).pending = s.pending := by unfold State.post; split <;> rfl
@[simp] theorem State.post_reg (s : State) (p : Post) (g : Nat) : (s.post p).reg g = s.reg g := by unfold State.post; split <;> rfl
@[simp] theorem State.post_fld (s : State) (p : Post) (g : Fld) : (s.post p).fld g = s.fld g := by unfold State.post; split <;> rfl
@[simp] theorem State.post_flag (s : State) (p : Post) (g : Fld) : (s.post p).flag g = s.flag g := by unfold State.post; split <;> rfl

/-! ### State.park -/
@[simp] theorem State.park_regs (s : State) (c : Cmd) (o : Nat) (b : Bool) : (s.park c o b).regs = s.regs := rfl
@[simp] theorem State.park_ctr (s : State) (c : Cmd) (o : Nat) (b : Bool) : (s.park c o b).ctr = s.ctr := rfl
@[simp] theorem State.park_rdata (s : State) (c : Cmd) (o : Nat) (b : Bool) : (s.park c o b).rdata = s.rdata := rfl
@[simp] theorem State.park_time (s : State) (c : Cmd) (o : Nat) (b : Bool) : (s.park c o b).time = s.time := rfl
@[simp] theorem State.park_power (s : State) (c : Cmd) (o : Nat) (b : Bool) : (s.park c o b).power = s.power := rfl
@[simp] theorem State.park_cores (s : State) (c : Cmd) (o : Nat) (b : Bool) : (s.park c o b).cores = s.cores := rfl
@[simp] theorem State.park_lanes (s : State) (c : Cmd) (o : Nat) (b : Bool) : (s.park c o b).lanes = s.lanes := rfl
@[simp] theorem State.park_ports (s : State) (c : Cmd) (o : Nat) (b : Bool) : (s.park c o b).ports = s.ports := rfl
@[simp] theorem State.park_pipes (s : State) (c : Cmd) (o : Nat) (b : Bool) : (s.park c o b).pipes = s.pipes := rfl
@[simp] theorem State.park_fabric (s : State) (c : Cmd) (o : Nat) (b : Bool) : (s.park c o b).fabric = s.fabric := rfl
@[simp] theorem State.park_servo (s : State) (c : Cmd) (o : Nat) (b : Bool) : (s.park c o b).servo = s.servo := rfl
@[simp] theorem State.park_cal (s : State) (c : Cmd) (o : Nat) (b : Bool) : (s.park c o b).cal = s.cal := rfl
@[simp] theorem State.park_refs (s : State) (c : Cmd) (o : Nat) (b : Bool) : (s.park c o b).refs = s.refs := rfl
@[simp] theorem State.park_meas (s : State) (c : Cmd) (o : Nat) (b : Bool) : (s.park c o b).meas = s.meas := rfl
@[simp] theorem State.park_redund (s : State) (c : Cmd) (o : Nat) (b : Bool) : (s.park c o b).redund = s.redund := rfl
@[simp] theorem State.park_sec (s : State) (c : Cmd) (o : Nat) (b : Bool) : (s.park c o b).sec = s.sec := rfl
@[simp] theorem State.park_waiting (s : State) (c : Cmd) (o : Nat) (b : Bool) : (s.park c o b).waiting = s.waiting := rfl
@[simp] theorem State.park_written (s : State) (c : Cmd) (o : Nat) (b : Bool) : (s.park c o b).written = s.written := rfl
@[simp] theorem State.park_line (s : State) (c : Cmd) (o : Nat) (b : Bool) : (s.park c o b).line = s.line := rfl
@[simp] theorem State.park_freeCtr (s : State) (c : Cmd) (o : Nat) (b : Bool) : (s.park c o b).freeCtr = s.freeCtr := rfl
@[simp] theorem State.park_pending (s : State) (c : Cmd) (o : Nat) (b : Bool) : (s.park c o b).pending = s.pending := rfl
@[simp] theorem State.park_reg (s : State) (c : Cmd) (o : Nat) (b : Bool) (g : Nat) : (s.park c o b).reg g = s.reg g := rfl
@[simp] theorem State.park_fld (s : State) (c : Cmd) (o : Nat) (b : Bool) (g : Fld) : (s.park c o b).fld g = s.fld g := rfl
@[simp] theorem State.park_flag (s : State) (c : Cmd) (o : Nat) (b : Bool) (g : Fld) : (s.park c o b).flag g = s.flag g := rfl

/-! ### State.modParked -/
@[simp] theorem State.modParked_regs (s : State) (i : Nat) (f : Parked → Parked) : (s.modParked i f).regs = s.regs := rfl
@[simp] theorem State.modParked_ctr (s : State) (i : Nat) (f : Parked → Parked) : (s.modParked i f).ctr = s.ctr := rfl
@[simp] theorem State.modParked_rdata (s : State) (i : Nat) (f : Parked → Parked) : (s.modParked i f).rdata = s.rdata := rfl
@[simp] theorem State.modParked_time (s : State) (i : Nat) (f : Parked → Parked) : (s.modParked i f).time = s.time := rfl
@[simp] theorem State.modParked_power (s : State) (i : Nat) (f : Parked → Parked) : (s.modParked i f).power = s.power := rfl
@[simp] theorem State.modParked_cores (s : State) (i : Nat) (f : Parked → Parked) : (s.modParked i f).cores = s.cores := rfl
@[simp] theorem State.modParked_lanes (s : State) (i : Nat) (f : Parked → Parked) : (s.modParked i f).lanes = s.lanes := rfl
@[simp] theorem State.modParked_ports (s : State) (i : Nat) (f : Parked → Parked) : (s.modParked i f).ports = s.ports := rfl
@[simp] theorem State.modParked_pipes (s : State) (i : Nat) (f : Parked → Parked) : (s.modParked i f).pipes = s.pipes := rfl
@[simp] theorem State.modParked_fabric (s : State) (i : Nat) (f : Parked → Parked) : (s.modParked i f).fabric = s.fabric := rfl
@[simp] theorem State.modParked_servo (s : State) (i : Nat) (f : Parked → Parked) : (s.modParked i f).servo = s.servo := rfl
@[simp] theorem State.modParked_cal (s : State) (i : Nat) (f : Parked → Parked) : (s.modParked i f).cal = s.cal := rfl
@[simp] theorem State.modParked_refs (s : State) (i : Nat) (f : Parked → Parked) : (s.modParked i f).refs = s.refs := rfl
@[simp] theorem State.modParked_meas (s : State) (i : Nat) (f : Parked → Parked) : (s.modParked i f).meas = s.meas := rfl
@[simp] theorem State.modParked_redund (s : State) (i : Nat) (f : Parked → Parked) : (s.modParked i f).redund = s.redund := rfl
@[simp] theorem State.modParked_sec (s : State) (i : Nat) (f : Parked → Parked) : (s.modParked i f).sec = s.sec := rfl
@[simp] theorem State.modParked_waiting (s : State) (i : Nat) (f : Parked → Parked) : (s.modParked i f).waiting = s.waiting := rfl
@[simp] theorem State.modParked_written (s : State) (i : Nat) (f : Parked → Parked) : (s.modParked i f).written = s.written := rfl
@[simp] theorem State.modParked_line (s : State) (i : Nat) (f : Parked → Parked) : (s.modParked i f).line = s.line := rfl
@[simp] theorem State.modParked_freeCtr (s : State) (i : Nat) (f : Parked → Parked) : (s.modParked i f).freeCtr = s.freeCtr := rfl
@[simp] theorem State.modParked_pending (s : State) (i : Nat) (f : Parked → Parked) : (s.modParked i f).pending = s.pending := rfl
@[simp] theorem State.modParked_reg (s : State) (i : Nat) (f : Parked → Parked) (g : Nat) : (s.modParked i f).reg g = s.reg g := rfl
@[simp] theorem State.modParked_fld (s : State) (i : Nat) (f : Parked → Parked) (g : Fld) : (s.modParked i f).fld g = s.fld g := rfl
@[simp] theorem State.modParked_flag (s : State) (i : Nat) (f : Parked → Parked) (g : Fld) : (s.modParked i f).flag g = s.flag g := rfl

/-! ### State.unpark -/
@[simp] theorem State.unpark_regs (s : State) (i : Nat) : (s.unpark i).regs = s.regs := rfl
@[simp] theorem State.unpark_ctr (s : State) (i : Nat) : (s.unpark i).ctr = s.ctr := rfl
@[simp] theorem State.unpark_rdata (s : State) (i : Nat) : (s.unpark i).rdata = s.rdata := rfl
@[simp] theorem State.unpark_time (s : State) (i : Nat) : (s.unpark i).time = s.time := rfl
@[simp] theorem State.unpark_power (s : State) (i : Nat) : (s.unpark i).power = s.power := rfl
@[simp] theorem State.unpark_cores (s : State) (i : Nat) : (s.unpark i).cores = s.cores := rfl
@[simp] theorem State.unpark_lanes (s : State) (i : Nat) : (s.unpark i).lanes = s.lanes := rfl
@[simp] theorem State.unpark_ports (s : State) (i : Nat) : (s.unpark i).ports = s.ports := rfl
@[simp] theorem State.unpark_pipes (s : State) (i : Nat) : (s.unpark i).pipes = s.pipes := rfl
@[simp] theorem State.unpark_fabric (s : State) (i : Nat) : (s.unpark i).fabric = s.fabric := rfl
@[simp] theorem State.unpark_servo (s : State) (i : Nat) : (s.unpark i).servo = s.servo := rfl
@[simp] theorem State.unpark_cal (s : State) (i : Nat) : (s.unpark i).cal = s.cal := rfl
@[simp] theorem State.unpark_refs (s : State) (i : Nat) : (s.unpark i).refs = s.refs := rfl
@[simp] theorem State.unpark_meas (s : State) (i : Nat) : (s.unpark i).meas = s.meas := rfl
@[simp] theorem State.unpark_redund (s : State) (i : Nat) : (s.unpark i).redund = s.redund := rfl
@[simp] theorem State.unpark_sec (s : State) (i : Nat) : (s.unpark i).sec = s.sec := rfl
@[simp] theorem State.unpark_waiting (s : State) (i : Nat) : (s.unpark i).waiting = s.waiting := rfl
@[simp] theorem State.unpark_written (s : State) (i : Nat) : (s.unpark i).written = s.written := rfl
@[simp] theorem State.unpark_line (s : State) (i : Nat) : (s.unpark i).line = s.line := rfl
@[simp] theorem State.unpark_freeCtr (s : State) (i : Nat) : (s.unpark i).freeCtr = s.freeCtr := rfl
@[simp] theorem State.unpark_pending (s : State) (i : Nat) : (s.unpark i).pending = s.pending := rfl
@[simp] theorem State.unpark_reg (s : State) (i : Nat) (g : Nat) : (s.unpark i).reg g = s.reg g := rfl
@[simp] theorem State.unpark_fld (s : State) (i : Nat) (g : Fld) : (s.unpark i).fld g = s.fld g := rfl
@[simp] theorem State.unpark_flag (s : State) (i : Nat) (g : Fld) : (s.unpark i).flag g = s.flag g := rfl

/-! ### State.modLong -/
@[simp] theorem State.modLong_regs (s : State) (h : BitVec 32) (f : LongOp → LongOp) : (s.modLong h f).regs = s.regs := rfl
@[simp] theorem State.modLong_ctr (s : State) (h : BitVec 32) (f : LongOp → LongOp) : (s.modLong h f).ctr = s.ctr := rfl
@[simp] theorem State.modLong_rdata (s : State) (h : BitVec 32) (f : LongOp → LongOp) : (s.modLong h f).rdata = s.rdata := rfl
@[simp] theorem State.modLong_time (s : State) (h : BitVec 32) (f : LongOp → LongOp) : (s.modLong h f).time = s.time := rfl
@[simp] theorem State.modLong_power (s : State) (h : BitVec 32) (f : LongOp → LongOp) : (s.modLong h f).power = s.power := rfl
@[simp] theorem State.modLong_cores (s : State) (h : BitVec 32) (f : LongOp → LongOp) : (s.modLong h f).cores = s.cores := rfl
@[simp] theorem State.modLong_lanes (s : State) (h : BitVec 32) (f : LongOp → LongOp) : (s.modLong h f).lanes = s.lanes := rfl
@[simp] theorem State.modLong_ports (s : State) (h : BitVec 32) (f : LongOp → LongOp) : (s.modLong h f).ports = s.ports := rfl
@[simp] theorem State.modLong_pipes (s : State) (h : BitVec 32) (f : LongOp → LongOp) : (s.modLong h f).pipes = s.pipes := rfl
@[simp] theorem State.modLong_fabric (s : State) (h : BitVec 32) (f : LongOp → LongOp) : (s.modLong h f).fabric = s.fabric := rfl
@[simp] theorem State.modLong_servo (s : State) (h : BitVec 32) (f : LongOp → LongOp) : (s.modLong h f).servo = s.servo := rfl
@[simp] theorem State.modLong_cal (s : State) (h : BitVec 32) (f : LongOp → LongOp) : (s.modLong h f).cal = s.cal := rfl
@[simp] theorem State.modLong_refs (s : State) (h : BitVec 32) (f : LongOp → LongOp) : (s.modLong h f).refs = s.refs := rfl
@[simp] theorem State.modLong_meas (s : State) (h : BitVec 32) (f : LongOp → LongOp) : (s.modLong h f).meas = s.meas := rfl
@[simp] theorem State.modLong_redund (s : State) (h : BitVec 32) (f : LongOp → LongOp) : (s.modLong h f).redund = s.redund := rfl
@[simp] theorem State.modLong_sec (s : State) (h : BitVec 32) (f : LongOp → LongOp) : (s.modLong h f).sec = s.sec := rfl
@[simp] theorem State.modLong_waiting (s : State) (h : BitVec 32) (f : LongOp → LongOp) : (s.modLong h f).waiting = s.waiting := rfl
@[simp] theorem State.modLong_written (s : State) (h : BitVec 32) (f : LongOp → LongOp) : (s.modLong h f).written = s.written := rfl
@[simp] theorem State.modLong_line (s : State) (h : BitVec 32) (f : LongOp → LongOp) : (s.modLong h f).line = s.line := rfl
@[simp] theorem State.modLong_freeCtr (s : State) (h : BitVec 32) (f : LongOp → LongOp) : (s.modLong h f).freeCtr = s.freeCtr := rfl
@[simp] theorem State.modLong_pending (s : State) (h : BitVec 32) (f : LongOp → LongOp) : (s.modLong h f).pending = s.pending := rfl
@[simp] theorem State.modLong_reg (s : State) (h : BitVec 32) (f : LongOp → LongOp) (g : Nat) : (s.modLong h f).reg g = s.reg g := rfl
@[simp] theorem State.modLong_fld (s : State) (h : BitVec 32) (f : LongOp → LongOp) (g : Fld) : (s.modLong h f).fld g = s.fld g := rfl
@[simp] theorem State.modLong_flag (s : State) (h : BitVec 32) (f : LongOp → LongOp) (g : Fld) : (s.modLong h f).flag g = s.flag g := rfl

/-! ### State.setCore -/
@[simp] theorem State.setCore_regs (s : State) (c : Nat) (x : CoreSt) : (s.setCore c x).regs = s.regs := rfl
@[simp] theorem State.setCore_ctr (s : State) (c : Nat) (x : CoreSt) : (s.setCore c x).ctr = s.ctr := rfl
@[simp] theorem State.setCore_rdata (s : State) (c : Nat) (x : CoreSt) : (s.setCore c x).rdata = s.rdata := rfl
@[simp] theorem State.setCore_time (s : State) (c : Nat) (x : CoreSt) : (s.setCore c x).time = s.time := rfl
@[simp] theorem State.setCore_power (s : State) (c : Nat) (x : CoreSt) : (s.setCore c x).power = s.power := rfl
@[simp] theorem State.setCore_host (s : State) (c : Nat) (x : CoreSt) : (s.setCore c x).host = s.host := rfl
@[simp] theorem State.setCore_lanes (s : State) (c : Nat) (x : CoreSt) : (s.setCore c x).lanes = s.lanes := rfl
@[simp] theorem State.setCore_ports (s : State) (c : Nat) (x : CoreSt) : (s.setCore c x).ports = s.ports := rfl
@[simp] theorem State.setCore_pipes (s : State) (c : Nat) (x : CoreSt) : (s.setCore c x).pipes = s.pipes := rfl
@[simp] theorem State.setCore_fabric (s : State) (c : Nat) (x : CoreSt) : (s.setCore c x).fabric = s.fabric := rfl
@[simp] theorem State.setCore_servo (s : State) (c : Nat) (x : CoreSt) : (s.setCore c x).servo = s.servo := rfl
@[simp] theorem State.setCore_cal (s : State) (c : Nat) (x : CoreSt) : (s.setCore c x).cal = s.cal := rfl
@[simp] theorem State.setCore_refs (s : State) (c : Nat) (x : CoreSt) : (s.setCore c x).refs = s.refs := rfl
@[simp] theorem State.setCore_meas (s : State) (c : Nat) (x : CoreSt) : (s.setCore c x).meas = s.meas := rfl
@[simp] theorem State.setCore_redund (s : State) (c : Nat) (x : CoreSt) : (s.setCore c x).redund = s.redund := rfl
@[simp] theorem State.setCore_sec (s : State) (c : Nat) (x : CoreSt) : (s.setCore c x).sec = s.sec := rfl
@[simp] theorem State.setCore_waiting (s : State) (c : Nat) (x : CoreSt) : (s.setCore c x).waiting = s.waiting := rfl
@[simp] theorem State.setCore_written (s : State) (c : Nat) (x : CoreSt) : (s.setCore c x).written = s.written := rfl
@[simp] theorem State.setCore_line (s : State) (c : Nat) (x : CoreSt) : (s.setCore c x).line = s.line := rfl
@[simp] theorem State.setCore_freeCtr (s : State) (c : Nat) (x : CoreSt) : (s.setCore c x).freeCtr = s.freeCtr := rfl
@[simp] theorem State.setCore_pending (s : State) (c : Nat) (x : CoreSt) : (s.setCore c x).pending = s.pending := rfl
@[simp] theorem State.setCore_reg (s : State) (c : Nat) (x : CoreSt) (g : Nat) : (s.setCore c x).reg g = s.reg g := rfl
@[simp] theorem State.setCore_fld (s : State) (c : Nat) (x : CoreSt) (g : Fld) : (s.setCore c x).fld g = s.fld g := rfl
@[simp] theorem State.setCore_flag (s : State) (c : Nat) (x : CoreSt) (g : Fld) : (s.setCore c x).flag g = s.flag g := rfl

/-! ### State.modCore -/
@[simp] theorem State.modCore_regs (s : State) (c : Nat) (f : CoreSt → CoreSt) : (s.modCore c f).regs = s.regs := rfl
@[simp] theorem State.modCore_ctr (s : State) (c : Nat) (f : CoreSt → CoreSt) : (s.modCore c f).ctr = s.ctr := rfl
@[simp] theorem State.modCore_rdata (s : State) (c : Nat) (f : CoreSt → CoreSt) : (s.modCore c f).rdata = s.rdata := rfl
@[simp] theorem State.modCore_time (s : State) (c : Nat) (f : CoreSt → CoreSt) : (s.modCore c f).time = s.time := rfl
@[simp] theorem State.modCore_power (s : State) (c : Nat) (f : CoreSt → CoreSt) : (s.modCore c f).power = s.power := rfl
@[simp] theorem State.modCore_host (s : State) (c : Nat) (f : CoreSt → CoreSt) : (s.modCore c f).host = s.host := rfl
@[simp] theorem State.modCore_lanes (s : State) (c : Nat) (f : CoreSt → CoreSt) : (s.modCore c f).lanes = s.lanes := rfl
@[simp] theorem State.modCore_ports (s : State) (c : Nat) (f : CoreSt → CoreSt) : (s.modCore c f).ports = s.ports := rfl
@[simp] theorem State.modCore_pipes (s : State) (c : Nat) (f : CoreSt → CoreSt) : (s.modCore c f).pipes = s.pipes := rfl
@[simp] theorem State.modCore_fabric (s : State) (c : Nat) (f : CoreSt → CoreSt) : (s.modCore c f).fabric = s.fabric := rfl
@[simp] theorem State.modCore_servo (s : State) (c : Nat) (f : CoreSt → CoreSt) : (s.modCore c f).servo = s.servo := rfl
@[simp] theorem State.modCore_cal (s : State) (c : Nat) (f : CoreSt → CoreSt) : (s.modCore c f).cal = s.cal := rfl
@[simp] theorem State.modCore_refs (s : State) (c : Nat) (f : CoreSt → CoreSt) : (s.modCore c f).refs = s.refs := rfl
@[simp] theorem State.modCore_meas (s : State) (c : Nat) (f : CoreSt → CoreSt) : (s.modCore c f).meas = s.meas := rfl
@[simp] theorem State.modCore_redund (s : State) (c : Nat) (f : CoreSt → CoreSt) : (s.modCore c f).redund = s.redund := rfl
@[simp] theorem State.modCore_sec (s : State) (c : Nat) (f : CoreSt → CoreSt) : (s.modCore c f).sec = s.sec := rfl
@[simp] theorem State.modCore_waiting (s : State) (c : Nat) (f : CoreSt → CoreSt) : (s.modCore c f).waiting = s.waiting := rfl
@[simp] theorem State.modCore_written (s : State) (c : Nat) (f : CoreSt → CoreSt) : (s.modCore c f).written = s.written := rfl
@[simp] theorem State.modCore_line (s : State) (c : Nat) (f : CoreSt → CoreSt) : (s.modCore c f).line = s.line := rfl
@[simp] theorem State.modCore_freeCtr (s : State) (c : Nat) (f : CoreSt → CoreSt) : (s.modCore c f).freeCtr = s.freeCtr := rfl
@[simp] theorem State.modCore_pending (s : State) (c : Nat) (f : CoreSt → CoreSt) : (s.modCore c f).pending = s.pending := rfl
@[simp] theorem State.modCore_reg (s : State) (c : Nat) (f : CoreSt → CoreSt) (g : Nat) : (s.modCore c f).reg g = s.reg g := rfl
@[simp] theorem State.modCore_fld (s : State) (c : Nat) (f : CoreSt → CoreSt) (g : Fld) : (s.modCore c f).fld g = s.fld g := rfl
@[simp] theorem State.modCore_flag (s : State) (c : Nat) (f : CoreSt → CoreSt) (g : Fld) : (s.modCore c f).flag g = s.flag g := rfl

/-! ### State.raiseInt -/
@[simp] theorem State.raiseInt_regs (s : State) (c i : Nat) : (s.raiseInt c i).regs = s.regs := rfl
@[simp] theorem State.raiseInt_ctr (s : State) (c i : Nat) : (s.raiseInt c i).ctr = s.ctr := rfl
@[simp] theorem State.raiseInt_rdata (s : State) (c i : Nat) : (s.raiseInt c i).rdata = s.rdata := rfl
@[simp] theorem State.raiseInt_time (s : State) (c i : Nat) : (s.raiseInt c i).time = s.time := rfl
@[simp] theorem State.raiseInt_power (s : State) (c i : Nat) : (s.raiseInt c i).power = s.power := rfl
@[simp] theorem State.raiseInt_host (s : State) (c i : Nat) : (s.raiseInt c i).host = s.host := rfl
@[simp] theorem State.raiseInt_lanes (s : State) (c i : Nat) : (s.raiseInt c i).lanes = s.lanes := rfl
@[simp] theorem State.raiseInt_ports (s : State) (c i : Nat) : (s.raiseInt c i).ports = s.ports := rfl
@[simp] theorem State.raiseInt_pipes (s : State) (c i : Nat) : (s.raiseInt c i).pipes = s.pipes := rfl
@[simp] theorem State.raiseInt_fabric (s : State) (c i : Nat) : (s.raiseInt c i).fabric = s.fabric := rfl
@[simp] theorem State.raiseInt_servo (s : State) (c i : Nat) : (s.raiseInt c i).servo = s.servo := rfl
@[simp] theorem State.raiseInt_cal (s : State) (c i : Nat) : (s.raiseInt c i).cal = s.cal := rfl
@[simp] theorem State.raiseInt_refs (s : State) (c i : Nat) : (s.raiseInt c i).refs = s.refs := rfl
@[simp] theorem State.raiseInt_meas (s : State) (c i : Nat) : (s.raiseInt c i).meas = s.meas := rfl
@[simp] theorem State.raiseInt_redund (s : State) (c i : Nat) : (s.raiseInt c i).redund = s.redund := rfl
@[simp] theorem State.raiseInt_sec (s : State) (c i : Nat) : (s.raiseInt c i).sec = s.sec := rfl
@[simp] theorem State.raiseInt_waiting (s : State) (c i : Nat) : (s.raiseInt c i).waiting = s.waiting := rfl
@[simp] theorem State.raiseInt_written (s : State) (c i : Nat) : (s.raiseInt c i).written = s.written := rfl
@[simp] theorem State.raiseInt_line (s : State) (c i : Nat) : (s.raiseInt c i).line = s.line := rfl
@[simp] theorem State.raiseInt_freeCtr (s : State) (c i : Nat) : (s.raiseInt c i).freeCtr = s.freeCtr := rfl
@[simp] theorem State.raiseInt_pending (s : State) (c i : Nat) : (s.raiseInt c i).pending = s.pending := rfl
@[simp] theorem State.raiseInt_reg (s : State) (c i : Nat) (g : Nat) : (s.raiseInt c i).reg g = s.reg g := rfl
@[simp] theorem State.raiseInt_fld (s : State) (c i : Nat) (g : Fld) : (s.raiseInt c i).fld g = s.fld g := rfl
@[simp] theorem State.raiseInt_flag (s : State) (c i : Nat) (g : Fld) : (s.raiseInt c i).flag g = s.flag g := rfl

/-! ### State.modLane -/
@[simp] theorem State.modLane_regs (s : State) (n : Nat) (f : LaneSt → LaneSt) : (s.modLane n f).regs = s.regs := rfl
@[simp] theorem State.modLane_ctr (s : State) (n : Nat) (f : LaneSt → LaneSt) : (s.modLane n f).ctr = s.ctr := rfl
@[simp] theorem State.modLane_rdata (s : State) (n : Nat) (f : LaneSt → LaneSt) : (s.modLane n f).rdata = s.rdata := rfl
@[simp] theorem State.modLane_time (s : State) (n : Nat) (f : LaneSt → LaneSt) : (s.modLane n f).time = s.time := rfl
@[simp] theorem State.modLane_power (s : State) (n : Nat) (f : LaneSt → LaneSt) : (s.modLane n f).power = s.power := rfl
@[simp] theorem State.modLane_host (s : State) (n : Nat) (f : LaneSt → LaneSt) : (s.modLane n f).host = s.host := rfl
@[simp] theorem State.modLane_cores (s : State) (n : Nat) (f : LaneSt → LaneSt) : (s.modLane n f).cores = s.cores := rfl
@[simp] theorem State.modLane_ports (s : State) (n : Nat) (f : LaneSt → LaneSt) : (s.modLane n f).ports = s.ports := rfl
@[simp] theorem State.modLane_pipes (s : State) (n : Nat) (f : LaneSt → LaneSt) : (s.modLane n f).pipes = s.pipes := rfl
@[simp] theorem State.modLane_fabric (s : State) (n : Nat) (f : LaneSt → LaneSt) : (s.modLane n f).fabric = s.fabric := rfl
@[simp] theorem State.modLane_servo (s : State) (n : Nat) (f : LaneSt → LaneSt) : (s.modLane n f).servo = s.servo := rfl
@[simp] theorem State.modLane_cal (s : State) (n : Nat) (f : LaneSt → LaneSt) : (s.modLane n f).cal = s.cal := rfl
@[simp] theorem State.modLane_refs (s : State) (n : Nat) (f : LaneSt → LaneSt) : (s.modLane n f).refs = s.refs := rfl
@[simp] theorem State.modLane_meas (s : State) (n : Nat) (f : LaneSt → LaneSt) : (s.modLane n f).meas = s.meas := rfl
@[simp] theorem State.modLane_redund (s : State) (n : Nat) (f : LaneSt → LaneSt) : (s.modLane n f).redund = s.redund := rfl
@[simp] theorem State.modLane_sec (s : State) (n : Nat) (f : LaneSt → LaneSt) : (s.modLane n f).sec = s.sec := rfl
@[simp] theorem State.modLane_waiting (s : State) (n : Nat) (f : LaneSt → LaneSt) : (s.modLane n f).waiting = s.waiting := rfl
@[simp] theorem State.modLane_written (s : State) (n : Nat) (f : LaneSt → LaneSt) : (s.modLane n f).written = s.written := rfl
@[simp] theorem State.modLane_line (s : State) (n : Nat) (f : LaneSt → LaneSt) : (s.modLane n f).line = s.line := rfl
@[simp] theorem State.modLane_freeCtr (s : State) (n : Nat) (f : LaneSt → LaneSt) : (s.modLane n f).freeCtr = s.freeCtr := rfl
@[simp] theorem State.modLane_pending (s : State) (n : Nat) (f : LaneSt → LaneSt) : (s.modLane n f).pending = s.pending := rfl
@[simp] theorem State.modLane_reg (s : State) (n : Nat) (f : LaneSt → LaneSt) (g : Nat) : (s.modLane n f).reg g = s.reg g := rfl
@[simp] theorem State.modLane_fld (s : State) (n : Nat) (f : LaneSt → LaneSt) (g : Fld) : (s.modLane n f).fld g = s.fld g := rfl
@[simp] theorem State.modLane_flag (s : State) (n : Nat) (f : LaneSt → LaneSt) (g : Fld) : (s.modLane n f).flag g = s.flag g := rfl

/-! ### State.modMac -/
@[simp] theorem State.modMac_regs (s : State) (n : Nat) (f : MacSt → MacSt) : (s.modMac n f).regs = s.regs := rfl
@[simp] theorem State.modMac_ctr (s : State) (n : Nat) (f : MacSt → MacSt) : (s.modMac n f).ctr = s.ctr := rfl
@[simp] theorem State.modMac_rdata (s : State) (n : Nat) (f : MacSt → MacSt) : (s.modMac n f).rdata = s.rdata := rfl
@[simp] theorem State.modMac_time (s : State) (n : Nat) (f : MacSt → MacSt) : (s.modMac n f).time = s.time := rfl
@[simp] theorem State.modMac_power (s : State) (n : Nat) (f : MacSt → MacSt) : (s.modMac n f).power = s.power := rfl
@[simp] theorem State.modMac_host (s : State) (n : Nat) (f : MacSt → MacSt) : (s.modMac n f).host = s.host := rfl
@[simp] theorem State.modMac_cores (s : State) (n : Nat) (f : MacSt → MacSt) : (s.modMac n f).cores = s.cores := rfl
@[simp] theorem State.modMac_lanes (s : State) (n : Nat) (f : MacSt → MacSt) : (s.modMac n f).lanes = s.lanes := rfl
@[simp] theorem State.modMac_pipes (s : State) (n : Nat) (f : MacSt → MacSt) : (s.modMac n f).pipes = s.pipes := rfl
@[simp] theorem State.modMac_fabric (s : State) (n : Nat) (f : MacSt → MacSt) : (s.modMac n f).fabric = s.fabric := rfl
@[simp] theorem State.modMac_servo (s : State) (n : Nat) (f : MacSt → MacSt) : (s.modMac n f).servo = s.servo := rfl
@[simp] theorem State.modMac_cal (s : State) (n : Nat) (f : MacSt → MacSt) : (s.modMac n f).cal = s.cal := rfl
@[simp] theorem State.modMac_refs (s : State) (n : Nat) (f : MacSt → MacSt) : (s.modMac n f).refs = s.refs := rfl
@[simp] theorem State.modMac_meas (s : State) (n : Nat) (f : MacSt → MacSt) : (s.modMac n f).meas = s.meas := rfl
@[simp] theorem State.modMac_redund (s : State) (n : Nat) (f : MacSt → MacSt) : (s.modMac n f).redund = s.redund := rfl
@[simp] theorem State.modMac_sec (s : State) (n : Nat) (f : MacSt → MacSt) : (s.modMac n f).sec = s.sec := rfl
@[simp] theorem State.modMac_waiting (s : State) (n : Nat) (f : MacSt → MacSt) : (s.modMac n f).waiting = s.waiting := rfl
@[simp] theorem State.modMac_written (s : State) (n : Nat) (f : MacSt → MacSt) : (s.modMac n f).written = s.written := rfl
@[simp] theorem State.modMac_line (s : State) (n : Nat) (f : MacSt → MacSt) : (s.modMac n f).line = s.line := rfl
@[simp] theorem State.modMac_freeCtr (s : State) (n : Nat) (f : MacSt → MacSt) : (s.modMac n f).freeCtr = s.freeCtr := rfl
@[simp] theorem State.modMac_pending (s : State) (n : Nat) (f : MacSt → MacSt) : (s.modMac n f).pending = s.pending := rfl
@[simp] theorem State.modMac_reg (s : State) (n : Nat) (f : MacSt → MacSt) (g : Nat) : (s.modMac n f).reg g = s.reg g := rfl
@[simp] theorem State.modMac_fld (s : State) (n : Nat) (f : MacSt → MacSt) (g : Fld) : (s.modMac n f).fld g = s.fld g := rfl
@[simp] theorem State.modMac_flag (s : State) (n : Nat) (f : MacSt → MacSt) (g : Fld) : (s.modMac n f).flag g = s.flag g := rfl

/-! ### State.modBus -/
@[simp] theorem State.modBus_regs (s : State) (b : Nat) (f : BusSt → BusSt) : (s.modBus b f).regs = s.regs := rfl
@[simp] theorem State.modBus_ctr (s : State) (b : Nat) (f : BusSt → BusSt) : (s.modBus b f).ctr = s.ctr := rfl
@[simp] theorem State.modBus_rdata (s : State) (b : Nat) (f : BusSt → BusSt) : (s.modBus b f).rdata = s.rdata := rfl
@[simp] theorem State.modBus_time (s : State) (b : Nat) (f : BusSt → BusSt) : (s.modBus b f).time = s.time := rfl
@[simp] theorem State.modBus_power (s : State) (b : Nat) (f : BusSt → BusSt) : (s.modBus b f).power = s.power := rfl
@[simp] theorem State.modBus_host (s : State) (b : Nat) (f : BusSt → BusSt) : (s.modBus b f).host = s.host := rfl
@[simp] theorem State.modBus_cores (s : State) (b : Nat) (f : BusSt → BusSt) : (s.modBus b f).cores = s.cores := rfl
@[simp] theorem State.modBus_lanes (s : State) (b : Nat) (f : BusSt → BusSt) : (s.modBus b f).lanes = s.lanes := rfl
@[simp] theorem State.modBus_pipes (s : State) (b : Nat) (f : BusSt → BusSt) : (s.modBus b f).pipes = s.pipes := rfl
@[simp] theorem State.modBus_fabric (s : State) (b : Nat) (f : BusSt → BusSt) : (s.modBus b f).fabric = s.fabric := rfl
@[simp] theorem State.modBus_servo (s : State) (b : Nat) (f : BusSt → BusSt) : (s.modBus b f).servo = s.servo := rfl
@[simp] theorem State.modBus_cal (s : State) (b : Nat) (f : BusSt → BusSt) : (s.modBus b f).cal = s.cal := rfl
@[simp] theorem State.modBus_refs (s : State) (b : Nat) (f : BusSt → BusSt) : (s.modBus b f).refs = s.refs := rfl
@[simp] theorem State.modBus_meas (s : State) (b : Nat) (f : BusSt → BusSt) : (s.modBus b f).meas = s.meas := rfl
@[simp] theorem State.modBus_redund (s : State) (b : Nat) (f : BusSt → BusSt) : (s.modBus b f).redund = s.redund := rfl
@[simp] theorem State.modBus_sec (s : State) (b : Nat) (f : BusSt → BusSt) : (s.modBus b f).sec = s.sec := rfl
@[simp] theorem State.modBus_waiting (s : State) (b : Nat) (f : BusSt → BusSt) : (s.modBus b f).waiting = s.waiting := rfl
@[simp] theorem State.modBus_written (s : State) (b : Nat) (f : BusSt → BusSt) : (s.modBus b f).written = s.written := rfl
@[simp] theorem State.modBus_line (s : State) (b : Nat) (f : BusSt → BusSt) : (s.modBus b f).line = s.line := rfl
@[simp] theorem State.modBus_freeCtr (s : State) (b : Nat) (f : BusSt → BusSt) : (s.modBus b f).freeCtr = s.freeCtr := rfl
@[simp] theorem State.modBus_pending (s : State) (b : Nat) (f : BusSt → BusSt) : (s.modBus b f).pending = s.pending := rfl
@[simp] theorem State.modBus_reg (s : State) (b : Nat) (f : BusSt → BusSt) (g : Nat) : (s.modBus b f).reg g = s.reg g := rfl
@[simp] theorem State.modBus_fld (s : State) (b : Nat) (f : BusSt → BusSt) (g : Fld) : (s.modBus b f).fld g = s.fld g := rfl
@[simp] theorem State.modBus_flag (s : State) (b : Nat) (f : BusSt → BusSt) (g : Fld) : (s.modBus b f).flag g = s.flag g := rfl

/-! ### State.modSlotIo -/
@[simp] theorem State.modSlotIo_regs (s : State) (m : Nat) (f : SlotIo → SlotIo) : (s.modSlotIo m f).regs = s.regs := rfl
@[simp] theorem State.modSlotIo_ctr (s : State) (m : Nat) (f : SlotIo → SlotIo) : (s.modSlotIo m f).ctr = s.ctr := rfl
@[simp] theorem State.modSlotIo_rdata (s : State) (m : Nat) (f : SlotIo → SlotIo) : (s.modSlotIo m f).rdata = s.rdata := rfl
@[simp] theorem State.modSlotIo_time (s : State) (m : Nat) (f : SlotIo → SlotIo) : (s.modSlotIo m f).time = s.time := rfl
@[simp] theorem State.modSlotIo_power (s : State) (m : Nat) (f : SlotIo → SlotIo) : (s.modSlotIo m f).power = s.power := rfl
@[simp] theorem State.modSlotIo_host (s : State) (m : Nat) (f : SlotIo → SlotIo) : (s.modSlotIo m f).host = s.host := rfl
@[simp] theorem State.modSlotIo_cores (s : State) (m : Nat) (f : SlotIo → SlotIo) : (s.modSlotIo m f).cores = s.cores := rfl
@[simp] theorem State.modSlotIo_lanes (s : State) (m : Nat) (f : SlotIo → SlotIo) : (s.modSlotIo m f).lanes = s.lanes := rfl
@[simp] theorem State.modSlotIo_pipes (s : State) (m : Nat) (f : SlotIo → SlotIo) : (s.modSlotIo m f).pipes = s.pipes := rfl
@[simp] theorem State.modSlotIo_fabric (s : State) (m : Nat) (f : SlotIo → SlotIo) : (s.modSlotIo m f).fabric = s.fabric := rfl
@[simp] theorem State.modSlotIo_servo (s : State) (m : Nat) (f : SlotIo → SlotIo) : (s.modSlotIo m f).servo = s.servo := rfl
@[simp] theorem State.modSlotIo_cal (s : State) (m : Nat) (f : SlotIo → SlotIo) : (s.modSlotIo m f).cal = s.cal := rfl
@[simp] theorem State.modSlotIo_refs (s : State) (m : Nat) (f : SlotIo → SlotIo) : (s.modSlotIo m f).refs = s.refs := rfl
@[simp] theorem State.modSlotIo_meas (s : State) (m : Nat) (f : SlotIo → SlotIo) : (s.modSlotIo m f).meas = s.meas := rfl
@[simp] theorem State.modSlotIo_redund (s : State) (m : Nat) (f : SlotIo → SlotIo) : (s.modSlotIo m f).redund = s.redund := rfl
@[simp] theorem State.modSlotIo_sec (s : State) (m : Nat) (f : SlotIo → SlotIo) : (s.modSlotIo m f).sec = s.sec := rfl
@[simp] theorem State.modSlotIo_waiting (s : State) (m : Nat) (f : SlotIo → SlotIo) : (s.modSlotIo m f).waiting = s.waiting := rfl
@[simp] theorem State.modSlotIo_written (s : State) (m : Nat) (f : SlotIo → SlotIo) : (s.modSlotIo m f).written = s.written := rfl
@[simp] theorem State.modSlotIo_line (s : State) (m : Nat) (f : SlotIo → SlotIo) : (s.modSlotIo m f).line = s.line := rfl
@[simp] theorem State.modSlotIo_freeCtr (s : State) (m : Nat) (f : SlotIo → SlotIo) : (s.modSlotIo m f).freeCtr = s.freeCtr := rfl
@[simp] theorem State.modSlotIo_pending (s : State) (m : Nat) (f : SlotIo → SlotIo) : (s.modSlotIo m f).pending = s.pending := rfl
@[simp] theorem State.modSlotIo_reg (s : State) (m : Nat) (f : SlotIo → SlotIo) (g : Nat) : (s.modSlotIo m f).reg g = s.reg g := rfl
@[simp] theorem State.modSlotIo_fld (s : State) (m : Nat) (f : SlotIo → SlotIo) (g : Fld) : (s.modSlotIo m f).fld g = s.fld g := rfl
@[simp] theorem State.modSlotIo_flag (s : State) (m : Nat) (f : SlotIo → SlotIo) (g : Fld) : (s.modSlotIo m f).flag g = s.flag g := rfl

/-! ### State.modPipe -/
@[simp] theorem State.modPipe_regs (s : State) (p : Nat) (f : PipeSt → PipeSt) : (s.modPipe p f).regs = s.regs := rfl
@[simp] theorem State.modPipe_ctr (s : State) (p : Nat) (f : PipeSt → PipeSt) : (s.modPipe p f).ctr = s.ctr := rfl
@[simp] theorem State.modPipe_rdata (s : State) (p : Nat) (f : PipeSt → PipeSt) : (s.modPipe p f).rdata = s.rdata := rfl
@[simp] theorem State.modPipe_time (s : State) (p : Nat) (f : PipeSt → PipeSt) : (s.modPipe p f).time = s.time := rfl
@[simp] theorem State.modPipe_power (s : State) (p : Nat) (f : PipeSt → PipeSt) : (s.modPipe p f).power = s.power := rfl
@[simp] theorem State.modPipe_host (s : State) (p : Nat) (f : PipeSt → PipeSt) : (s.modPipe p f).host = s.host := rfl
@[simp] theorem State.modPipe_cores (s : State) (p : Nat) (f : PipeSt → PipeSt) : (s.modPipe p f).cores = s.cores := rfl
@[simp] theorem State.modPipe_lanes (s : State) (p : Nat) (f : PipeSt → PipeSt) : (s.modPipe p f).lanes = s.lanes := rfl
@[simp] theorem State.modPipe_ports (s : State) (p : Nat) (f : PipeSt → PipeSt) : (s.modPipe p f).ports = s.ports := rfl
@[simp] theorem State.modPipe_fabric (s : State) (p : Nat) (f : PipeSt → PipeSt) : (s.modPipe p f).fabric = s.fabric := rfl
@[simp] theorem State.modPipe_servo (s : State) (p : Nat) (f : PipeSt → PipeSt) : (s.modPipe p f).servo = s.servo := rfl
@[simp] theorem State.modPipe_cal (s : State) (p : Nat) (f : PipeSt → PipeSt) : (s.modPipe p f).cal = s.cal := rfl
@[simp] theorem State.modPipe_refs (s : State) (p : Nat) (f : PipeSt → PipeSt) : (s.modPipe p f).refs = s.refs := rfl
@[simp] theorem State.modPipe_meas (s : State) (p : Nat) (f : PipeSt → PipeSt) : (s.modPipe p f).meas = s.meas := rfl
@[simp] theorem State.modPipe_redund (s : State) (p : Nat) (f : PipeSt → PipeSt) : (s.modPipe p f).redund = s.redund := rfl
@[simp] theorem State.modPipe_sec (s : State) (p : Nat) (f : PipeSt → PipeSt) : (s.modPipe p f).sec = s.sec := rfl
@[simp] theorem State.modPipe_waiting (s : State) (p : Nat) (f : PipeSt → PipeSt) : (s.modPipe p f).waiting = s.waiting := rfl
@[simp] theorem State.modPipe_written (s : State) (p : Nat) (f : PipeSt → PipeSt) : (s.modPipe p f).written = s.written := rfl
@[simp] theorem State.modPipe_line (s : State) (p : Nat) (f : PipeSt → PipeSt) : (s.modPipe p f).line = s.line := rfl
@[simp] theorem State.modPipe_freeCtr (s : State) (p : Nat) (f : PipeSt → PipeSt) : (s.modPipe p f).freeCtr = s.freeCtr := rfl
@[simp] theorem State.modPipe_pending (s : State) (p : Nat) (f : PipeSt → PipeSt) : (s.modPipe p f).pending = s.pending := rfl
@[simp] theorem State.modPipe_reg (s : State) (p : Nat) (f : PipeSt → PipeSt) (g : Nat) : (s.modPipe p f).reg g = s.reg g := rfl
@[simp] theorem State.modPipe_fld (s : State) (p : Nat) (f : PipeSt → PipeSt) (g : Fld) : (s.modPipe p f).fld g = s.fld g := rfl
@[simp] theorem State.modPipe_flag (s : State) (p : Nat) (f : PipeSt → PipeSt) (g : Fld) : (s.modPipe p f).flag g = s.flag g := rfl

/-! ### State.modFwd -/
@[simp] theorem State.modFwd_regs (s : State) (p : Nat) (f : FwdSt → FwdSt) : (s.modFwd p f).regs = s.regs := rfl
@[simp] theorem State.modFwd_ctr (s : State) (p : Nat) (f : FwdSt → FwdSt) : (s.modFwd p f).ctr = s.ctr := rfl
@[simp] theorem State.modFwd_rdata (s : State) (p : Nat) (f : FwdSt → FwdSt) : (s.modFwd p f).rdata = s.rdata := rfl
@[simp] theorem State.modFwd_time (s : State) (p : Nat) (f : FwdSt → FwdSt) : (s.modFwd p f).time = s.time := rfl
@[simp] theorem State.modFwd_power (s : State) (p : Nat) (f : FwdSt → FwdSt) : (s.modFwd p f).power = s.power := rfl
@[simp] theorem State.modFwd_host (s : State) (p : Nat) (f : FwdSt → FwdSt) : (s.modFwd p f).host = s.host := rfl
@[simp] theorem State.modFwd_cores (s : State) (p : Nat) (f : FwdSt → FwdSt) : (s.modFwd p f).cores = s.cores := rfl
@[simp] theorem State.modFwd_lanes (s : State) (p : Nat) (f : FwdSt → FwdSt) : (s.modFwd p f).lanes = s.lanes := rfl
@[simp] theorem State.modFwd_ports (s : State) (p : Nat) (f : FwdSt → FwdSt) : (s.modFwd p f).ports = s.ports := rfl
@[simp] theorem State.modFwd_fabric (s : State) (p : Nat) (f : FwdSt → FwdSt) : (s.modFwd p f).fabric = s.fabric := rfl
@[simp] theorem State.modFwd_servo (s : State) (p : Nat) (f : FwdSt → FwdSt) : (s.modFwd p f).servo = s.servo := rfl
@[simp] theorem State.modFwd_cal (s : State) (p : Nat) (f : FwdSt → FwdSt) : (s.modFwd p f).cal = s.cal := rfl
@[simp] theorem State.modFwd_refs (s : State) (p : Nat) (f : FwdSt → FwdSt) : (s.modFwd p f).refs = s.refs := rfl
@[simp] theorem State.modFwd_meas (s : State) (p : Nat) (f : FwdSt → FwdSt) : (s.modFwd p f).meas = s.meas := rfl
@[simp] theorem State.modFwd_redund (s : State) (p : Nat) (f : FwdSt → FwdSt) : (s.modFwd p f).redund = s.redund := rfl
@[simp] theorem State.modFwd_sec (s : State) (p : Nat) (f : FwdSt → FwdSt) : (s.modFwd p f).sec = s.sec := rfl
@[simp] theorem State.modFwd_waiting (s : State) (p : Nat) (f : FwdSt → FwdSt) : (s.modFwd p f).waiting = s.waiting := rfl
@[simp] theorem State.modFwd_written (s : State) (p : Nat) (f : FwdSt → FwdSt) : (s.modFwd p f).written = s.written := rfl
@[simp] theorem State.modFwd_line (s : State) (p : Nat) (f : FwdSt → FwdSt) : (s.modFwd p f).line = s.line := rfl
@[simp] theorem State.modFwd_freeCtr (s : State) (p : Nat) (f : FwdSt → FwdSt) : (s.modFwd p f).freeCtr = s.freeCtr := rfl
@[simp] theorem State.modFwd_pending (s : State) (p : Nat) (f : FwdSt → FwdSt) : (s.modFwd p f).pending = s.pending := rfl
@[simp] theorem State.modFwd_reg (s : State) (p : Nat) (f : FwdSt → FwdSt) (g : Nat) : (s.modFwd p f).reg g = s.reg g := rfl
@[simp] theorem State.modFwd_fld (s : State) (p : Nat) (f : FwdSt → FwdSt) (g : Fld) : (s.modFwd p f).fld g = s.fld g := rfl
@[simp] theorem State.modFwd_flag (s : State) (p : Nat) (f : FwdSt → FwdSt) (g : Fld) : (s.modFwd p f).flag g = s.flag g := rfl

/-! ### State.modParser -/
@[simp] theorem State.modParser_regs (s : State) (p : Nat) (f : ParserSt → ParserSt) : (s.modParser p f).regs = s.regs := rfl
@[simp] theorem State.modParser_ctr (s : State) (p : Nat) (f : ParserSt → ParserSt) : (s.modParser p f).ctr = s.ctr := rfl
@[simp] theorem State.modParser_rdata (s : State) (p : Nat) (f : ParserSt → ParserSt) : (s.modParser p f).rdata = s.rdata := rfl
@[simp] theorem State.modParser_time (s : State) (p : Nat) (f : ParserSt → ParserSt) : (s.modParser p f).time = s.time := rfl
@[simp] theorem State.modParser_power (s : State) (p : Nat) (f : ParserSt → ParserSt) : (s.modParser p f).power = s.power := rfl
@[simp] theorem State.modParser_host (s : State) (p : Nat) (f : ParserSt → ParserSt) : (s.modParser p f).host = s.host := rfl
@[simp] theorem State.modParser_cores (s : State) (p : Nat) (f : ParserSt → ParserSt) : (s.modParser p f).cores = s.cores := rfl
@[simp] theorem State.modParser_lanes (s : State) (p : Nat) (f : ParserSt → ParserSt) : (s.modParser p f).lanes = s.lanes := rfl
@[simp] theorem State.modParser_ports (s : State) (p : Nat) (f : ParserSt → ParserSt) : (s.modParser p f).ports = s.ports := rfl
@[simp] theorem State.modParser_fabric (s : State) (p : Nat) (f : ParserSt → ParserSt) : (s.modParser p f).fabric = s.fabric := rfl
@[simp] theorem State.modParser_servo (s : State) (p : Nat) (f : ParserSt → ParserSt) : (s.modParser p f).servo = s.servo := rfl
@[simp] theorem State.modParser_cal (s : State) (p : Nat) (f : ParserSt → ParserSt) : (s.modParser p f).cal = s.cal := rfl
@[simp] theorem State.modParser_refs (s : State) (p : Nat) (f : ParserSt → ParserSt) : (s.modParser p f).refs = s.refs := rfl
@[simp] theorem State.modParser_meas (s : State) (p : Nat) (f : ParserSt → ParserSt) : (s.modParser p f).meas = s.meas := rfl
@[simp] theorem State.modParser_redund (s : State) (p : Nat) (f : ParserSt → ParserSt) : (s.modParser p f).redund = s.redund := rfl
@[simp] theorem State.modParser_sec (s : State) (p : Nat) (f : ParserSt → ParserSt) : (s.modParser p f).sec = s.sec := rfl
@[simp] theorem State.modParser_waiting (s : State) (p : Nat) (f : ParserSt → ParserSt) : (s.modParser p f).waiting = s.waiting := rfl
@[simp] theorem State.modParser_written (s : State) (p : Nat) (f : ParserSt → ParserSt) : (s.modParser p f).written = s.written := rfl
@[simp] theorem State.modParser_line (s : State) (p : Nat) (f : ParserSt → ParserSt) : (s.modParser p f).line = s.line := rfl
@[simp] theorem State.modParser_freeCtr (s : State) (p : Nat) (f : ParserSt → ParserSt) : (s.modParser p f).freeCtr = s.freeCtr := rfl
@[simp] theorem State.modParser_pending (s : State) (p : Nat) (f : ParserSt → ParserSt) : (s.modParser p f).pending = s.pending := rfl
@[simp] theorem State.modParser_reg (s : State) (p : Nat) (f : ParserSt → ParserSt) (g : Nat) : (s.modParser p f).reg g = s.reg g := rfl
@[simp] theorem State.modParser_fld (s : State) (p : Nat) (f : ParserSt → ParserSt) (g : Fld) : (s.modParser p f).fld g = s.fld g := rfl
@[simp] theorem State.modParser_flag (s : State) (p : Nat) (f : ParserSt → ParserSt) (g : Fld) : (s.modParser p f).flag g = s.flag g := rfl

/-! ### State.count -/
@[simp] theorem State.count_regs (s : State) (a n : Nat) : (s.count a n).regs = s.regs := rfl
@[simp] theorem State.count_rdata (s : State) (a n : Nat) : (s.count a n).rdata = s.rdata := rfl
@[simp] theorem State.count_time (s : State) (a n : Nat) : (s.count a n).time = s.time := rfl
@[simp] theorem State.count_power (s : State) (a n : Nat) : (s.count a n).power = s.power := rfl
@[simp] theorem State.count_host (s : State) (a n : Nat) : (s.count a n).host = s.host := rfl
@[simp] theorem State.count_cores (s : State) (a n : Nat) : (s.count a n).cores = s.cores := rfl
@[simp] theorem State.count_lanes (s : State) (a n : Nat) : (s.count a n).lanes = s.lanes := rfl
@[simp] theorem State.count_ports (s : State) (a n : Nat) : (s.count a n).ports = s.ports := rfl
@[simp] theorem State.count_pipes (s : State) (a n : Nat) : (s.count a n).pipes = s.pipes := rfl
@[simp] theorem State.count_fabric (s : State) (a n : Nat) : (s.count a n).fabric = s.fabric := rfl
@[simp] theorem State.count_servo (s : State) (a n : Nat) : (s.count a n).servo = s.servo := rfl
@[simp] theorem State.count_cal (s : State) (a n : Nat) : (s.count a n).cal = s.cal := rfl
@[simp] theorem State.count_refs (s : State) (a n : Nat) : (s.count a n).refs = s.refs := rfl
@[simp] theorem State.count_meas (s : State) (a n : Nat) : (s.count a n).meas = s.meas := rfl
@[simp] theorem State.count_redund (s : State) (a n : Nat) : (s.count a n).redund = s.redund := rfl
@[simp] theorem State.count_sec (s : State) (a n : Nat) : (s.count a n).sec = s.sec := rfl
@[simp] theorem State.count_waiting (s : State) (a n : Nat) : (s.count a n).waiting = s.waiting := rfl
@[simp] theorem State.count_written (s : State) (a n : Nat) : (s.count a n).written = s.written := rfl
@[simp] theorem State.count_line (s : State) (a n : Nat) : (s.count a n).line = s.line := rfl
@[simp] theorem State.count_freeCtr (s : State) (a n : Nat) : (s.count a n).freeCtr = s.freeCtr := rfl
@[simp] theorem State.count_pending (s : State) (a n : Nat) : (s.count a n).pending = s.pending := rfl
@[simp] theorem State.count_reg (s : State) (a n : Nat) (g : Nat) : (s.count a n).reg g = s.reg g := rfl
@[simp] theorem State.count_fld (s : State) (a n : Nat) (g : Fld) : (s.count a n).fld g = s.fld g := rfl
@[simp] theorem State.count_flag (s : State) (a n : Nat) (g : Fld) : (s.count a n).flag g = s.flag g := rfl

/-! ### State.modCand -/
@[simp] theorem State.modCand_regs (s : State) (c : Nat) (f : CandSt → CandSt) : (s.modCand c f).regs = s.regs := rfl
@[simp] theorem State.modCand_ctr (s : State) (c : Nat) (f : CandSt → CandSt) : (s.modCand c f).ctr = s.ctr := rfl
@[simp] theorem State.modCand_rdata (s : State) (c : Nat) (f : CandSt → CandSt) : (s.modCand c f).rdata = s.rdata := rfl
@[simp] theorem State.modCand_time (s : State) (c : Nat) (f : CandSt → CandSt) : (s.modCand c f).time = s.time := rfl
@[simp] theorem State.modCand_power (s : State) (c : Nat) (f : CandSt → CandSt) : (s.modCand c f).power = s.power := rfl
@[simp] theorem State.modCand_host (s : State) (c : Nat) (f : CandSt → CandSt) : (s.modCand c f).host = s.host := rfl
@[simp] theorem State.modCand_cores (s : State) (c : Nat) (f : CandSt → CandSt) : (s.modCand c f).cores = s.cores := rfl
@[simp] theorem State.modCand_lanes (s : State) (c : Nat) (f : CandSt → CandSt) : (s.modCand c f).lanes = s.lanes := rfl
@[simp] theorem State.modCand_ports (s : State) (c : Nat) (f : CandSt → CandSt) : (s.modCand c f).ports = s.ports := rfl
@[simp] theorem State.modCand_pipes (s : State) (c : Nat) (f : CandSt → CandSt) : (s.modCand c f).pipes = s.pipes := rfl
@[simp] theorem State.modCand_fabric (s : State) (c : Nat) (f : CandSt → CandSt) : (s.modCand c f).fabric = s.fabric := rfl
@[simp] theorem State.modCand_servo (s : State) (c : Nat) (f : CandSt → CandSt) : (s.modCand c f).servo = s.servo := rfl
@[simp] theorem State.modCand_cal (s : State) (c : Nat) (f : CandSt → CandSt) : (s.modCand c f).cal = s.cal := rfl
@[simp] theorem State.modCand_meas (s : State) (c : Nat) (f : CandSt → CandSt) : (s.modCand c f).meas = s.meas := rfl
@[simp] theorem State.modCand_redund (s : State) (c : Nat) (f : CandSt → CandSt) : (s.modCand c f).redund = s.redund := rfl
@[simp] theorem State.modCand_sec (s : State) (c : Nat) (f : CandSt → CandSt) : (s.modCand c f).sec = s.sec := rfl
@[simp] theorem State.modCand_waiting (s : State) (c : Nat) (f : CandSt → CandSt) : (s.modCand c f).waiting = s.waiting := rfl
@[simp] theorem State.modCand_written (s : State) (c : Nat) (f : CandSt → CandSt) : (s.modCand c f).written = s.written := rfl
@[simp] theorem State.modCand_line (s : State) (c : Nat) (f : CandSt → CandSt) : (s.modCand c f).line = s.line := rfl
@[simp] theorem State.modCand_freeCtr (s : State) (c : Nat) (f : CandSt → CandSt) : (s.modCand c f).freeCtr = s.freeCtr := rfl
@[simp] theorem State.modCand_pending (s : State) (c : Nat) (f : CandSt → CandSt) : (s.modCand c f).pending = s.pending := rfl
@[simp] theorem State.modCand_reg (s : State) (c : Nat) (f : CandSt → CandSt) (g : Nat) : (s.modCand c f).reg g = s.reg g := rfl
@[simp] theorem State.modCand_fld (s : State) (c : Nat) (f : CandSt → CandSt) (g : Fld) : (s.modCand c f).fld g = s.fld g := rfl
@[simp] theorem State.modCand_flag (s : State) (c : Nat) (f : CandSt → CandSt) (g : Fld) : (s.modCand c f).flag g = s.flag g := rfl

/-! ### State.modDpll -/
@[simp] theorem State.modDpll_regs (s : State) (d : Nat) (f : DpllSt → DpllSt) : (s.modDpll d f).regs = s.regs := rfl
@[simp] theorem State.modDpll_ctr (s : State) (d : Nat) (f : DpllSt → DpllSt) : (s.modDpll d f).ctr = s.ctr := rfl
@[simp] theorem State.modDpll_rdata (s : State) (d : Nat) (f : DpllSt → DpllSt) : (s.modDpll d f).rdata = s.rdata := rfl
@[simp] theorem State.modDpll_time (s : State) (d : Nat) (f : DpllSt → DpllSt) : (s.modDpll d f).time = s.time := rfl
@[simp] theorem State.modDpll_power (s : State) (d : Nat) (f : DpllSt → DpllSt) : (s.modDpll d f).power = s.power := rfl
@[simp] theorem State.modDpll_host (s : State) (d : Nat) (f : DpllSt → DpllSt) : (s.modDpll d f).host = s.host := rfl
@[simp] theorem State.modDpll_cores (s : State) (d : Nat) (f : DpllSt → DpllSt) : (s.modDpll d f).cores = s.cores := rfl
@[simp] theorem State.modDpll_lanes (s : State) (d : Nat) (f : DpllSt → DpllSt) : (s.modDpll d f).lanes = s.lanes := rfl
@[simp] theorem State.modDpll_ports (s : State) (d : Nat) (f : DpllSt → DpllSt) : (s.modDpll d f).ports = s.ports := rfl
@[simp] theorem State.modDpll_pipes (s : State) (d : Nat) (f : DpllSt → DpllSt) : (s.modDpll d f).pipes = s.pipes := rfl
@[simp] theorem State.modDpll_fabric (s : State) (d : Nat) (f : DpllSt → DpllSt) : (s.modDpll d f).fabric = s.fabric := rfl
@[simp] theorem State.modDpll_servo (s : State) (d : Nat) (f : DpllSt → DpllSt) : (s.modDpll d f).servo = s.servo := rfl
@[simp] theorem State.modDpll_cal (s : State) (d : Nat) (f : DpllSt → DpllSt) : (s.modDpll d f).cal = s.cal := rfl
@[simp] theorem State.modDpll_meas (s : State) (d : Nat) (f : DpllSt → DpllSt) : (s.modDpll d f).meas = s.meas := rfl
@[simp] theorem State.modDpll_redund (s : State) (d : Nat) (f : DpllSt → DpllSt) : (s.modDpll d f).redund = s.redund := rfl
@[simp] theorem State.modDpll_sec (s : State) (d : Nat) (f : DpllSt → DpllSt) : (s.modDpll d f).sec = s.sec := rfl
@[simp] theorem State.modDpll_waiting (s : State) (d : Nat) (f : DpllSt → DpllSt) : (s.modDpll d f).waiting = s.waiting := rfl
@[simp] theorem State.modDpll_written (s : State) (d : Nat) (f : DpllSt → DpllSt) : (s.modDpll d f).written = s.written := rfl
@[simp] theorem State.modDpll_line (s : State) (d : Nat) (f : DpllSt → DpllSt) : (s.modDpll d f).line = s.line := rfl
@[simp] theorem State.modDpll_freeCtr (s : State) (d : Nat) (f : DpllSt → DpllSt) : (s.modDpll d f).freeCtr = s.freeCtr := rfl
@[simp] theorem State.modDpll_pending (s : State) (d : Nat) (f : DpllSt → DpllSt) : (s.modDpll d f).pending = s.pending := rfl
@[simp] theorem State.modDpll_reg (s : State) (d : Nat) (f : DpllSt → DpllSt) (g : Nat) : (s.modDpll d f).reg g = s.reg g := rfl
@[simp] theorem State.modDpll_fld (s : State) (d : Nat) (f : DpllSt → DpllSt) (g : Fld) : (s.modDpll d f).fld g = s.fld g := rfl
@[simp] theorem State.modDpll_flag (s : State) (d : Nat) (f : DpllSt → DpllSt) (g : Fld) : (s.modDpll d f).flag g = s.flag g := rfl

/-! ### State.modSyn -/
@[simp] theorem State.modSyn_regs (s : State) (y : Nat) (f : SynSt → SynSt) : (s.modSyn y f).regs = s.regs := rfl
@[simp] theorem State.modSyn_ctr (s : State) (y : Nat) (f : SynSt → SynSt) : (s.modSyn y f).ctr = s.ctr := rfl
@[simp] theorem State.modSyn_rdata (s : State) (y : Nat) (f : SynSt → SynSt) : (s.modSyn y f).rdata = s.rdata := rfl
@[simp] theorem State.modSyn_time (s : State) (y : Nat) (f : SynSt → SynSt) : (s.modSyn y f).time = s.time := rfl
@[simp] theorem State.modSyn_power (s : State) (y : Nat) (f : SynSt → SynSt) : (s.modSyn y f).power = s.power := rfl
@[simp] theorem State.modSyn_host (s : State) (y : Nat) (f : SynSt → SynSt) : (s.modSyn y f).host = s.host := rfl
@[simp] theorem State.modSyn_cores (s : State) (y : Nat) (f : SynSt → SynSt) : (s.modSyn y f).cores = s.cores := rfl
@[simp] theorem State.modSyn_lanes (s : State) (y : Nat) (f : SynSt → SynSt) : (s.modSyn y f).lanes = s.lanes := rfl
@[simp] theorem State.modSyn_ports (s : State) (y : Nat) (f : SynSt → SynSt) : (s.modSyn y f).ports = s.ports := rfl
@[simp] theorem State.modSyn_pipes (s : State) (y : Nat) (f : SynSt → SynSt) : (s.modSyn y f).pipes = s.pipes := rfl
@[simp] theorem State.modSyn_fabric (s : State) (y : Nat) (f : SynSt → SynSt) : (s.modSyn y f).fabric = s.fabric := rfl
@[simp] theorem State.modSyn_servo (s : State) (y : Nat) (f : SynSt → SynSt) : (s.modSyn y f).servo = s.servo := rfl
@[simp] theorem State.modSyn_cal (s : State) (y : Nat) (f : SynSt → SynSt) : (s.modSyn y f).cal = s.cal := rfl
@[simp] theorem State.modSyn_meas (s : State) (y : Nat) (f : SynSt → SynSt) : (s.modSyn y f).meas = s.meas := rfl
@[simp] theorem State.modSyn_redund (s : State) (y : Nat) (f : SynSt → SynSt) : (s.modSyn y f).redund = s.redund := rfl
@[simp] theorem State.modSyn_sec (s : State) (y : Nat) (f : SynSt → SynSt) : (s.modSyn y f).sec = s.sec := rfl
@[simp] theorem State.modSyn_waiting (s : State) (y : Nat) (f : SynSt → SynSt) : (s.modSyn y f).waiting = s.waiting := rfl
@[simp] theorem State.modSyn_written (s : State) (y : Nat) (f : SynSt → SynSt) : (s.modSyn y f).written = s.written := rfl
@[simp] theorem State.modSyn_line (s : State) (y : Nat) (f : SynSt → SynSt) : (s.modSyn y f).line = s.line := rfl
@[simp] theorem State.modSyn_freeCtr (s : State) (y : Nat) (f : SynSt → SynSt) : (s.modSyn y f).freeCtr = s.freeCtr := rfl
@[simp] theorem State.modSyn_pending (s : State) (y : Nat) (f : SynSt → SynSt) : (s.modSyn y f).pending = s.pending := rfl
@[simp] theorem State.modSyn_reg (s : State) (y : Nat) (f : SynSt → SynSt) (g : Nat) : (s.modSyn y f).reg g = s.reg g := rfl
@[simp] theorem State.modSyn_fld (s : State) (y : Nat) (f : SynSt → SynSt) (g : Fld) : (s.modSyn y f).fld g = s.fld g := rfl
@[simp] theorem State.modSyn_flag (s : State) (y : Nat) (f : SynSt → SynSt) (g : Fld) : (s.modSyn y f).flag g = s.flag g := rfl

/-! ### State.modClk -/
@[simp] theorem State.modClk_regs (s : State) (k : Nat) (f : ClkSt → ClkSt) : (s.modClk k f).regs = s.regs := rfl
@[simp] theorem State.modClk_ctr (s : State) (k : Nat) (f : ClkSt → ClkSt) : (s.modClk k f).ctr = s.ctr := rfl
@[simp] theorem State.modClk_rdata (s : State) (k : Nat) (f : ClkSt → ClkSt) : (s.modClk k f).rdata = s.rdata := rfl
@[simp] theorem State.modClk_time (s : State) (k : Nat) (f : ClkSt → ClkSt) : (s.modClk k f).time = s.time := rfl
@[simp] theorem State.modClk_power (s : State) (k : Nat) (f : ClkSt → ClkSt) : (s.modClk k f).power = s.power := rfl
@[simp] theorem State.modClk_host (s : State) (k : Nat) (f : ClkSt → ClkSt) : (s.modClk k f).host = s.host := rfl
@[simp] theorem State.modClk_cores (s : State) (k : Nat) (f : ClkSt → ClkSt) : (s.modClk k f).cores = s.cores := rfl
@[simp] theorem State.modClk_lanes (s : State) (k : Nat) (f : ClkSt → ClkSt) : (s.modClk k f).lanes = s.lanes := rfl
@[simp] theorem State.modClk_ports (s : State) (k : Nat) (f : ClkSt → ClkSt) : (s.modClk k f).ports = s.ports := rfl
@[simp] theorem State.modClk_pipes (s : State) (k : Nat) (f : ClkSt → ClkSt) : (s.modClk k f).pipes = s.pipes := rfl
@[simp] theorem State.modClk_fabric (s : State) (k : Nat) (f : ClkSt → ClkSt) : (s.modClk k f).fabric = s.fabric := rfl
@[simp] theorem State.modClk_servo (s : State) (k : Nat) (f : ClkSt → ClkSt) : (s.modClk k f).servo = s.servo := rfl
@[simp] theorem State.modClk_cal (s : State) (k : Nat) (f : ClkSt → ClkSt) : (s.modClk k f).cal = s.cal := rfl
@[simp] theorem State.modClk_meas (s : State) (k : Nat) (f : ClkSt → ClkSt) : (s.modClk k f).meas = s.meas := rfl
@[simp] theorem State.modClk_redund (s : State) (k : Nat) (f : ClkSt → ClkSt) : (s.modClk k f).redund = s.redund := rfl
@[simp] theorem State.modClk_sec (s : State) (k : Nat) (f : ClkSt → ClkSt) : (s.modClk k f).sec = s.sec := rfl
@[simp] theorem State.modClk_waiting (s : State) (k : Nat) (f : ClkSt → ClkSt) : (s.modClk k f).waiting = s.waiting := rfl
@[simp] theorem State.modClk_written (s : State) (k : Nat) (f : ClkSt → ClkSt) : (s.modClk k f).written = s.written := rfl
@[simp] theorem State.modClk_line (s : State) (k : Nat) (f : ClkSt → ClkSt) : (s.modClk k f).line = s.line := rfl
@[simp] theorem State.modClk_freeCtr (s : State) (k : Nat) (f : ClkSt → ClkSt) : (s.modClk k f).freeCtr = s.freeCtr := rfl
@[simp] theorem State.modClk_pending (s : State) (k : Nat) (f : ClkSt → ClkSt) : (s.modClk k f).pending = s.pending := rfl
@[simp] theorem State.modClk_reg (s : State) (k : Nat) (f : ClkSt → ClkSt) (g : Nat) : (s.modClk k f).reg g = s.reg g := rfl
@[simp] theorem State.modClk_fld (s : State) (k : Nat) (f : ClkSt → ClkSt) (g : Fld) : (s.modClk k f).fld g = s.fld g := rfl
@[simp] theorem State.modClk_flag (s : State) (k : Nat) (f : ClkSt → ClkSt) (g : Fld) : (s.modClk k f).flag g = s.flag g := rfl

/-! ### State.modSess -/
@[simp] theorem State.modSess_regs (s : State) (i : Nat) (f : SessSt → SessSt) : (s.modSess i f).regs = s.regs := rfl
@[simp] theorem State.modSess_ctr (s : State) (i : Nat) (f : SessSt → SessSt) : (s.modSess i f).ctr = s.ctr := rfl
@[simp] theorem State.modSess_rdata (s : State) (i : Nat) (f : SessSt → SessSt) : (s.modSess i f).rdata = s.rdata := rfl
@[simp] theorem State.modSess_time (s : State) (i : Nat) (f : SessSt → SessSt) : (s.modSess i f).time = s.time := rfl
@[simp] theorem State.modSess_power (s : State) (i : Nat) (f : SessSt → SessSt) : (s.modSess i f).power = s.power := rfl
@[simp] theorem State.modSess_host (s : State) (i : Nat) (f : SessSt → SessSt) : (s.modSess i f).host = s.host := rfl
@[simp] theorem State.modSess_cores (s : State) (i : Nat) (f : SessSt → SessSt) : (s.modSess i f).cores = s.cores := rfl
@[simp] theorem State.modSess_lanes (s : State) (i : Nat) (f : SessSt → SessSt) : (s.modSess i f).lanes = s.lanes := rfl
@[simp] theorem State.modSess_ports (s : State) (i : Nat) (f : SessSt → SessSt) : (s.modSess i f).ports = s.ports := rfl
@[simp] theorem State.modSess_pipes (s : State) (i : Nat) (f : SessSt → SessSt) : (s.modSess i f).pipes = s.pipes := rfl
@[simp] theorem State.modSess_fabric (s : State) (i : Nat) (f : SessSt → SessSt) : (s.modSess i f).fabric = s.fabric := rfl
@[simp] theorem State.modSess_cal (s : State) (i : Nat) (f : SessSt → SessSt) : (s.modSess i f).cal = s.cal := rfl
@[simp] theorem State.modSess_refs (s : State) (i : Nat) (f : SessSt → SessSt) : (s.modSess i f).refs = s.refs := rfl
@[simp] theorem State.modSess_meas (s : State) (i : Nat) (f : SessSt → SessSt) : (s.modSess i f).meas = s.meas := rfl
@[simp] theorem State.modSess_redund (s : State) (i : Nat) (f : SessSt → SessSt) : (s.modSess i f).redund = s.redund := rfl
@[simp] theorem State.modSess_sec (s : State) (i : Nat) (f : SessSt → SessSt) : (s.modSess i f).sec = s.sec := rfl
@[simp] theorem State.modSess_waiting (s : State) (i : Nat) (f : SessSt → SessSt) : (s.modSess i f).waiting = s.waiting := rfl
@[simp] theorem State.modSess_written (s : State) (i : Nat) (f : SessSt → SessSt) : (s.modSess i f).written = s.written := rfl
@[simp] theorem State.modSess_line (s : State) (i : Nat) (f : SessSt → SessSt) : (s.modSess i f).line = s.line := rfl
@[simp] theorem State.modSess_freeCtr (s : State) (i : Nat) (f : SessSt → SessSt) : (s.modSess i f).freeCtr = s.freeCtr := rfl
@[simp] theorem State.modSess_pending (s : State) (i : Nat) (f : SessSt → SessSt) : (s.modSess i f).pending = s.pending := rfl
@[simp] theorem State.modSess_reg (s : State) (i : Nat) (f : SessSt → SessSt) (g : Nat) : (s.modSess i f).reg g = s.reg g := rfl
@[simp] theorem State.modSess_fld (s : State) (i : Nat) (f : SessSt → SessSt) (g : Fld) : (s.modSess i f).fld g = s.fld g := rfl
@[simp] theorem State.modSess_flag (s : State) (i : Nat) (f : SessSt → SessSt) (g : Fld) : (s.modSess i f).flag g = s.flag g := rfl

/-! ### State.modSlot -/
@[simp] theorem State.modSlot_regs (s : State) (k : Nat) (f : SlotSt → SlotSt) : (s.modSlot k f).regs = s.regs := rfl
@[simp] theorem State.modSlot_ctr (s : State) (k : Nat) (f : SlotSt → SlotSt) : (s.modSlot k f).ctr = s.ctr := rfl
@[simp] theorem State.modSlot_rdata (s : State) (k : Nat) (f : SlotSt → SlotSt) : (s.modSlot k f).rdata = s.rdata := rfl
@[simp] theorem State.modSlot_time (s : State) (k : Nat) (f : SlotSt → SlotSt) : (s.modSlot k f).time = s.time := rfl
@[simp] theorem State.modSlot_power (s : State) (k : Nat) (f : SlotSt → SlotSt) : (s.modSlot k f).power = s.power := rfl
@[simp] theorem State.modSlot_host (s : State) (k : Nat) (f : SlotSt → SlotSt) : (s.modSlot k f).host = s.host := rfl
@[simp] theorem State.modSlot_cores (s : State) (k : Nat) (f : SlotSt → SlotSt) : (s.modSlot k f).cores = s.cores := rfl
@[simp] theorem State.modSlot_lanes (s : State) (k : Nat) (f : SlotSt → SlotSt) : (s.modSlot k f).lanes = s.lanes := rfl
@[simp] theorem State.modSlot_ports (s : State) (k : Nat) (f : SlotSt → SlotSt) : (s.modSlot k f).ports = s.ports := rfl
@[simp] theorem State.modSlot_pipes (s : State) (k : Nat) (f : SlotSt → SlotSt) : (s.modSlot k f).pipes = s.pipes := rfl
@[simp] theorem State.modSlot_fabric (s : State) (k : Nat) (f : SlotSt → SlotSt) : (s.modSlot k f).fabric = s.fabric := rfl
@[simp] theorem State.modSlot_cal (s : State) (k : Nat) (f : SlotSt → SlotSt) : (s.modSlot k f).cal = s.cal := rfl
@[simp] theorem State.modSlot_refs (s : State) (k : Nat) (f : SlotSt → SlotSt) : (s.modSlot k f).refs = s.refs := rfl
@[simp] theorem State.modSlot_meas (s : State) (k : Nat) (f : SlotSt → SlotSt) : (s.modSlot k f).meas = s.meas := rfl
@[simp] theorem State.modSlot_redund (s : State) (k : Nat) (f : SlotSt → SlotSt) : (s.modSlot k f).redund = s.redund := rfl
@[simp] theorem State.modSlot_sec (s : State) (k : Nat) (f : SlotSt → SlotSt) : (s.modSlot k f).sec = s.sec := rfl
@[simp] theorem State.modSlot_waiting (s : State) (k : Nat) (f : SlotSt → SlotSt) : (s.modSlot k f).waiting = s.waiting := rfl
@[simp] theorem State.modSlot_written (s : State) (k : Nat) (f : SlotSt → SlotSt) : (s.modSlot k f).written = s.written := rfl
@[simp] theorem State.modSlot_line (s : State) (k : Nat) (f : SlotSt → SlotSt) : (s.modSlot k f).line = s.line := rfl
@[simp] theorem State.modSlot_freeCtr (s : State) (k : Nat) (f : SlotSt → SlotSt) : (s.modSlot k f).freeCtr = s.freeCtr := rfl
@[simp] theorem State.modSlot_pending (s : State) (k : Nat) (f : SlotSt → SlotSt) : (s.modSlot k f).pending = s.pending := rfl
@[simp] theorem State.modSlot_reg (s : State) (k : Nat) (f : SlotSt → SlotSt) (g : Nat) : (s.modSlot k f).reg g = s.reg g := rfl
@[simp] theorem State.modSlot_fld (s : State) (k : Nat) (f : SlotSt → SlotSt) (g : Fld) : (s.modSlot k f).fld g = s.fld g := rfl
@[simp] theorem State.modSlot_flag (s : State) (k : Nat) (f : SlotSt → SlotSt) (g : Fld) : (s.modSlot k f).flag g = s.flag g := rfl

/-! ### State.modKl -/
@[simp] theorem State.modKl_regs (s : State) (i : Nat) (f : KlRxSt → KlRxSt) : (s.modKl i f).regs = s.regs := rfl
@[simp] theorem State.modKl_ctr (s : State) (i : Nat) (f : KlRxSt → KlRxSt) : (s.modKl i f).ctr = s.ctr := rfl
@[simp] theorem State.modKl_rdata (s : State) (i : Nat) (f : KlRxSt → KlRxSt) : (s.modKl i f).rdata = s.rdata := rfl
@[simp] theorem State.modKl_time (s : State) (i : Nat) (f : KlRxSt → KlRxSt) : (s.modKl i f).time = s.time := rfl
@[simp] theorem State.modKl_power (s : State) (i : Nat) (f : KlRxSt → KlRxSt) : (s.modKl i f).power = s.power := rfl
@[simp] theorem State.modKl_host (s : State) (i : Nat) (f : KlRxSt → KlRxSt) : (s.modKl i f).host = s.host := rfl
@[simp] theorem State.modKl_cores (s : State) (i : Nat) (f : KlRxSt → KlRxSt) : (s.modKl i f).cores = s.cores := rfl
@[simp] theorem State.modKl_lanes (s : State) (i : Nat) (f : KlRxSt → KlRxSt) : (s.modKl i f).lanes = s.lanes := rfl
@[simp] theorem State.modKl_ports (s : State) (i : Nat) (f : KlRxSt → KlRxSt) : (s.modKl i f).ports = s.ports := rfl
@[simp] theorem State.modKl_pipes (s : State) (i : Nat) (f : KlRxSt → KlRxSt) : (s.modKl i f).pipes = s.pipes := rfl
@[simp] theorem State.modKl_fabric (s : State) (i : Nat) (f : KlRxSt → KlRxSt) : (s.modKl i f).fabric = s.fabric := rfl
@[simp] theorem State.modKl_cal (s : State) (i : Nat) (f : KlRxSt → KlRxSt) : (s.modKl i f).cal = s.cal := rfl
@[simp] theorem State.modKl_refs (s : State) (i : Nat) (f : KlRxSt → KlRxSt) : (s.modKl i f).refs = s.refs := rfl
@[simp] theorem State.modKl_meas (s : State) (i : Nat) (f : KlRxSt → KlRxSt) : (s.modKl i f).meas = s.meas := rfl
@[simp] theorem State.modKl_redund (s : State) (i : Nat) (f : KlRxSt → KlRxSt) : (s.modKl i f).redund = s.redund := rfl
@[simp] theorem State.modKl_sec (s : State) (i : Nat) (f : KlRxSt → KlRxSt) : (s.modKl i f).sec = s.sec := rfl
@[simp] theorem State.modKl_waiting (s : State) (i : Nat) (f : KlRxSt → KlRxSt) : (s.modKl i f).waiting = s.waiting := rfl
@[simp] theorem State.modKl_written (s : State) (i : Nat) (f : KlRxSt → KlRxSt) : (s.modKl i f).written = s.written := rfl
@[simp] theorem State.modKl_line (s : State) (i : Nat) (f : KlRxSt → KlRxSt) : (s.modKl i f).line = s.line := rfl
@[simp] theorem State.modKl_freeCtr (s : State) (i : Nat) (f : KlRxSt → KlRxSt) : (s.modKl i f).freeCtr = s.freeCtr := rfl
@[simp] theorem State.modKl_pending (s : State) (i : Nat) (f : KlRxSt → KlRxSt) : (s.modKl i f).pending = s.pending := rfl
@[simp] theorem State.modKl_reg (s : State) (i : Nat) (f : KlRxSt → KlRxSt) (g : Nat) : (s.modKl i f).reg g = s.reg g := rfl
@[simp] theorem State.modKl_fld (s : State) (i : Nat) (f : KlRxSt → KlRxSt) (g : Fld) : (s.modKl i f).fld g = s.fld g := rfl
@[simp] theorem State.modKl_flag (s : State) (i : Nat) (f : KlRxSt → KlRxSt) (g : Fld) : (s.modKl i f).flag g = s.flag g := rfl

/-! ### What an update puts -/

@[simp] theorem State.modHost_host (s : State) (f : HostSt → HostSt) : (s.modHost f).host = f s.host := rfl
@[simp] theorem State.modPower_power (s : State) (f : PowerSt → PowerSt) : (s.modPower f).power = f s.power := rfl
@[simp] theorem State.modTime_time (s : State) (f : TimeSt → TimeSt) : (s.modTime f).time = f s.time := rfl
@[simp] theorem State.modSec_sec (s : State) (f : SecSt → SecSt) : (s.modSec f).sec = f s.sec := rfl
@[simp] theorem State.modRedund_redund (s : State) (f : RedundSt → RedundSt) : (s.modRedund f).redund = f s.redund := rfl
@[simp] theorem State.modCal_cal (s : State) (f : CalSt → CalSt) : (s.modCal f).cal = f s.cal := rfl
@[simp] theorem State.modFabric_fabric (s : State) (f : FabricSt → FabricSt) : (s.modFabric f).fabric = f s.fabric := rfl
@[simp] theorem State.modMeas_meas (s : State) (f : MeasSt → MeasSt) : (s.modMeas f).meas = f s.meas := rfl
@[simp] theorem State.lane_modLane (s : State) (n : Nat) (f : LaneSt → LaneSt) : (s.modLane n f).lane n = f (s.lane n) := Tab.get_put_same ..
theorem State.lane_modLane_other (s : State) {n m : Nat} (f : LaneSt → LaneSt) (h : m ≠ n) : (s.modLane n f).lane m = s.lane m :=
  Tab.get_put_other _ _ _ h
@[simp] theorem State.mac_modMac (s : State) (n : Nat) (f : MacSt → MacSt) : (s.modMac n f).mac n = f (s.mac n) := Tab.get_put_same ..
theorem State.mac_modMac_other (s : State) {n m : Nat} (f : MacSt → MacSt) (h : m ≠ n) : (s.modMac n f).mac m = s.mac m :=
  Tab.get_put_other _ _ _ h
@[simp] theorem State.bus_modBus (s : State) (n : Nat) (f : BusSt → BusSt) : (s.modBus n f).bus n = f (s.bus n) := Tab.get_put_same ..
theorem State.bus_modBus_other (s : State) {n m : Nat} (f : BusSt → BusSt) (h : m ≠ n) : (s.modBus n f).bus m = s.bus m :=
  Tab.get_put_other _ _ _ h
@[simp] theorem State.pipe_modPipe (s : State) (n : Nat) (f : PipeSt → PipeSt) : (s.modPipe n f).pipe n = f (s.pipe n) := Tab.get_put_same ..
theorem State.pipe_modPipe_other (s : State) {n m : Nat} (f : PipeSt → PipeSt) (h : m ≠ n) : (s.modPipe n f).pipe m = s.pipe m :=
  Tab.get_put_other _ _ _ h
@[simp] theorem State.cand_modCand (s : State) (n : Nat) (f : CandSt → CandSt) : (s.modCand n f).cand n = f (s.cand n) := Tab.get_put_same ..
theorem State.cand_modCand_other (s : State) {n m : Nat} (f : CandSt → CandSt) (h : m ≠ n) : (s.modCand n f).cand m = s.cand m :=
  Tab.get_put_other _ _ _ h
@[simp] theorem State.dpll_modDpll (s : State) (n : Nat) (f : DpllSt → DpllSt) : (s.modDpll n f).dpll n = f (s.dpll n) := Tab.get_put_same ..
theorem State.dpll_modDpll_other (s : State) {n m : Nat} (f : DpllSt → DpllSt) (h : m ≠ n) : (s.modDpll n f).dpll m = s.dpll m :=
  Tab.get_put_other _ _ _ h
@[simp] theorem State.syn_modSyn (s : State) (n : Nat) (f : SynSt → SynSt) : (s.modSyn n f).syn n = f (s.syn n) := Tab.get_put_same ..
theorem State.syn_modSyn_other (s : State) {n m : Nat} (f : SynSt → SynSt) (h : m ≠ n) : (s.modSyn n f).syn m = s.syn m :=
  Tab.get_put_other _ _ _ h
@[simp] theorem State.clk_modClk (s : State) (n : Nat) (f : ClkSt → ClkSt) : (s.modClk n f).clk n = f (s.clk n) := Tab.get_put_same ..
theorem State.clk_modClk_other (s : State) {n m : Nat} (f : ClkSt → ClkSt) (h : m ≠ n) : (s.modClk n f).clk m = s.clk m :=
  Tab.get_put_other _ _ _ h
@[simp] theorem State.sess_modSess (s : State) (n : Nat) (f : SessSt → SessSt) : (s.modSess n f).sess n = f (s.sess n) := Tab.get_put_same ..
theorem State.sess_modSess_other (s : State) {n m : Nat} (f : SessSt → SessSt) (h : m ≠ n) : (s.modSess n f).sess m = s.sess m :=
  Tab.get_put_other _ _ _ h
@[simp] theorem State.slot_modSlot (s : State) (n : Nat) (f : SlotSt → SlotSt) : (s.modSlot n f).slot n = f (s.slot n) := Tab.get_put_same ..
theorem State.slot_modSlot_other (s : State) {n m : Nat} (f : SlotSt → SlotSt) (h : m ≠ n) : (s.modSlot n f).slot m = s.slot m :=
  Tab.get_put_other _ _ _ h
@[simp] theorem State.im_modIm (s : State) (n : Nat) (f : ImSt → ImSt) : (s.modIm n f).im n = f (s.im n) := Tab.get_put_same ..
theorem State.im_modIm_other (s : State) {n m : Nat} (f : ImSt → ImSt) (h : m ≠ n) : (s.modIm n f).im m = s.im m :=
  Tab.get_put_other _ _ _ h
@[simp] theorem State.fm_modFm (s : State) (n : Nat) (f : FmSt → FmSt) : (s.modFm n f).fm n = f (s.fm n) := Tab.get_put_same ..
theorem State.fm_modFm_other (s : State) {n m : Nat} (f : FmSt → FmSt) (h : m ≠ n) : (s.modFm n f).fm m = s.fm m :=
  Tab.get_put_other _ _ _ h
@[simp] theorem State.evout_modEvout (s : State) (n : Nat) (f : EvoutSt → EvoutSt) : (s.modEvout n f).evout n = f (s.evout n) := Tab.get_put_same ..
theorem State.evout_modEvout_other (s : State) {n m : Nat} (f : EvoutSt → EvoutSt) (h : m ≠ n) : (s.modEvout n f).evout m = s.evout m :=
  Tab.get_put_other _ _ _ h
@[simp] theorem State.core_modCore (s : State) (n : Nat) (f : CoreSt → CoreSt) : (s.modCore n f).core n = f (s.core n) := Tab.get_put_same ..
theorem State.core_modCore_other (s : State) {n m : Nat} (f : CoreSt → CoreSt) (h : m ≠ n) : (s.modCore n f).core m = s.core m :=
  Tab.get_put_other _ _ _ h
@[simp] theorem State.pathCal_modPath (s : State) (n : Nat) (f : PathCal → PathCal) : (s.modPath n f).pathCal n = f (s.pathCal n) := Tab.get_put_same ..
theorem State.pathCal_modPath_other (s : State) {n m : Nat} (f : PathCal → PathCal) (h : m ≠ n) : (s.modPath n f).pathCal m = s.pathCal m :=
  Tab.get_put_other _ _ _ h
@[simp] theorem State.interpCal_modInterp (s : State) (n : Nat) (f : InterpCal → InterpCal) : (s.modInterp n f).interpCal n = f (s.interpCal n) := Tab.get_put_same ..
theorem State.interpCal_modInterp_other (s : State) {n m : Nat} (f : InterpCal → InterpCal) (h : m ≠ n) : (s.modInterp n f).interpCal m = s.interpCal m :=
  Tab.get_put_other _ _ _ h

end Sys2Proof.Machine
end

