-- ==== Sys2Proof/Laws/WritesOps.lean ====
section
/-!
SUPPORT. Sys2Proof/Laws/WritesOps.lean: which registers each operation of Machine/Ops.lean may change.
-/
namespace Sys2Proof.Machine
open Sys2Proof

theorem State.perf_writes {s : State} {x1 x2 x3} : Writes [Reg.perfWrapLo 0, Reg.perfWrapHi 0] s (State.perf s x1 x2 x3) := by
  unfold State.perf; repeat' first
      | (extract_lets +onlyGivenNames v; apply Writes.gen (v := v); subst v; rotate_left; clear_value v; intro h; rotate_right)
      | (extract_lets +onlyGivenNames v; have q : Nat := v; clear q; subst v) | with_reducible assumption | with_reducible exact Writes.refl
      | with_reducible apply Writes.setReg | with_reducible apply Writes.kept State.modCore_kept
      | with_reducible apply Writes.kept State.raiseInt_kept | with_reducible apply Reg.perfWrapHi_at | with_reducible apply Reg.perfWrapLo_at
      | (show _ = _; rfl) | split

theorem State.fifoCopy_writes {s : State} {x1 x2 x3} : Writes [Reg.perfWrapLo 0, Reg.perfWrapHi 0] s (State.fifoCopy s x1 x2 x3) := by
  unfold State.fifoCopy; repeat' first
      | with_reducible exact Writes.refl | with_reducible apply Writes.kept State.modCore_kept
      | with_reducible apply Writes.kept State.raiseInt_kept | with_reducible apply Writes.step State.perf_writes | (show _ = _; rfl) | split

theorem State.loseEvent_writes {s : State} {x1 x2} : Writes [Reg.ringLoss 0] s (State.loseEvent s x1 x2) := by
  unfold State.loseEvent; repeat' first
      | with_reducible exact Writes.refl | with_reducible apply Writes.bump | with_reducible apply Reg.ringLoss_at
      | dsimp only [F.ringLoss_COUNT] | (show _ = _; rfl) | with_reducible apply Writes.put_host

theorem State.signal_writes {s : State} {x1} : Writes [Reg.msixPba 0] s (State.signal s x1) := by
  unfold State.signal; repeat' first
      | (extract_lets +onlyGivenNames v; apply Writes.gen (v := v); subst v; rotate_left; clear_value v; intro h; rotate_right)
      | with_reducible assumption | with_reducible exact Writes.refl | with_reducible apply Writes.kept State.post_kept
      | with_reducible apply Writes.setReg | with_reducible apply Reg.msixPba_at | (show _ = _; rfl) | split | with_reducible apply Writes.put_host

theorem State.signalSoon_writes {s : State} {x1} : Writes [Reg.msixPba 0] s (State.signalSoon s x1) := by
  unfold State.signalSoon; repeat' first
      | with_reducible exact Writes.refl | with_reducible apply Writes.step State.signal_writes | (show _ = _; rfl) | split
      | with_reducible apply Writes.put_host

theorem State.showFull_writes {s : State} {x1} : Writes [Reg.ringStatus 0] s (State.showFull s x1) := by
  unfold State.showFull; repeat' first
      | with_reducible exact Writes.refl | with_reducible apply Writes.setF | with_reducible apply Reg.ringStatus_at
      | dsimp only [F.ringStatus_FULL] | (show _ = _; rfl)

theorem State.advance_writes {s : State} {x1 x2} : Writes [Reg.ringStatus 0, Reg.ringDevIdx 0] s (State.advance s x1 x2) := by
  unfold State.advance; repeat' first
      | (extract_lets +onlyGivenNames v; apply Writes.gen (v := v); subst v; rotate_left; clear_value v; intro h; rotate_right)
      | with_reducible assumption | with_reducible exact Writes.refl | with_reducible apply Writes.kept State.post_kept
      | with_reducible apply Writes.step State.showFull_writes | with_reducible apply Writes.setReg | with_reducible apply Reg.ringDevIdx_at
      | (show _ = _; rfl) | split

theorem State.writeEntry_writes {s : State} {x1 x2 x3} :
    Writes [Reg.ringStatus 0, Reg.ringDevIdx 0, Reg.msixPba 0] s (State.writeEntry s x1 x2 x3) := by
  unfold State.writeEntry; repeat' first
      | (extract_lets +onlyGivenNames v; apply Writes.gen (v := v); subst v; rotate_left; clear_value v; intro h; rotate_right)
      | with_reducible assumption | with_reducible exact Writes.refl | with_reducible apply Writes.kept State.post_kept
      | with_reducible apply Writes.step State.signalSoon_writes | with_reducible apply Writes.step State.advance_writes | (show _ = _; rfl)
      | split | with_reducible apply Writes.put_host

theorem State.reportLost_writes {s : State} :
    Writes [Reg.ringStatus 0, Reg.ringDevIdx 0, Reg.msixPba 0, Reg.perfWrapLo 0, Reg.perfWrapHi 0] s (State.reportLost s) := by
  unfold State.reportLost; repeat' first
      | (extract_lets +onlyGivenNames v; apply Writes.gen (v := v); subst v; rotate_left; clear_value v; intro h; rotate_right)
      | with_reducible assumption | with_reducible exact Writes.refl | with_reducible apply Writes.step State.fifoCopy_writes
      | with_reducible apply Writes.step State.writeEntry_writes | with_reducible apply Writes.kept State.nextSeq_kept | (show _ = _; rfl)
      | split | with_reducible apply Writes.put_host

theorem State.raise_writes {s : State} {x1 x2 x3} :
    Writes [Reg.ringStatus 0, Reg.ringDevIdx 0, Reg.ringLoss 0, Reg.msixPba 0, Reg.perfWrapLo 0, Reg.perfWrapHi 0] s (State.raise s x1 x2 x3) := by
  unfold State.raise; repeat' first
      | (extract_lets +onlyGivenNames v; apply Writes.gen (v := v); subst v; rotate_left; clear_value v; intro h; rotate_right)
      | with_reducible assumption | with_reducible exact Writes.refl | with_reducible apply Writes.ite
      | with_reducible apply Writes.step State.fifoCopy_writes | with_reducible apply Writes.step State.loseEvent_writes
      | with_reducible apply Writes.step State.writeEntry_writes | with_reducible apply Writes.kept State.nextSeq_kept
      | with_reducible apply Writes.step State.reportLost_writes | (show _ = _; rfl)

theorem State.late_writes {s : State} {x1 x2} :
    Writes [Reg.globalLateFlags, Reg.globalLateCnt 0, Reg.ringStatus 0, Reg.ringDevIdx 0, Reg.ringLoss 0, Reg.msixPba 0, Reg.perfWrapLo 0,
    Reg.perfWrapHi 0] s (State.late s x1 x2) := by
  unfold State.late; repeat' first
      | (extract_lets +onlyGivenNames v; apply Writes.gen (v := v); subst v; rotate_left; clear_value v; intro h; rotate_right)
      | (extract_lets +onlyGivenNames v; have q : Fld := v; clear q; subst v) | with_reducible assumption | with_reducible exact Writes.refl
      | with_reducible apply Writes.bump | with_reducible apply Writes.setF | with_reducible apply Writes.step State.raise_writes
      | with_reducible apply Reg.globalLateCnt_at | with_reducible apply Reg.globalLateFlags_at | dsimp only [F.globalLateCnt_COUNT]
      | (show _ = _; rfl) | split

theorem State.flushCpl_writes {s : State} {x1} : Writes [Reg.ringStatus 0, Reg.ringDevIdx 0, Reg.msixPba 0] s (State.flushCpl s x1) := by
  induction x1 generalizing s with
  | zero => exact Writes.refl
  | succ n ih => unfold State.flushCpl; repeat' first
      | with_reducible apply Writes.step ih
      | (extract_lets +onlyGivenNames v; apply Writes.gen (v := v); subst v; rotate_left; clear_value v; intro h; rotate_right)
      | with_reducible assumption | with_reducible exact Writes.refl | with_reducible apply Writes.kept State.handleGone_kept
      | with_reducible apply Writes.step State.writeEntry_writes | with_reducible apply State.when_writes | (show _ = _; rfl) | split
      | with_reducible apply Writes.put_host

theorem State.deliver_writes {s : State} {x1 x2 x3} :
    Writes [Reg.hostifCnt 0, Reg.ringStatus 0, Reg.ringDevIdx 0, Reg.msixPba 0, Reg.perfWrapLo 0,
    Reg.perfWrapHi 0] s (State.deliver s x1 x2 x3) := by
  unfold State.deliver; repeat' first
      | (extract_lets +onlyGivenNames v; apply Writes.gen (v := v); subst v; rotate_left; clear_value v; intro h; rotate_right)
      | with_reducible assumption | with_reducible exact Writes.refl | with_reducible apply Writes.bump
      | with_reducible apply Writes.kept State.modCore_kept | with_reducible apply Writes.kept State.handleGone_kept
      | with_reducible apply Writes.kept State.raiseInt_kept | with_reducible apply Writes.step State.perf_writes
      | with_reducible apply Writes.step State.flushCpl_writes | with_reducible apply State.when_writes | with_reducible apply Reg.hostifCnt_at
      | dsimp only [F.hostifCnt_COUNT] | (show _ = _; rfl) | split | with_reducible apply Writes.put_host

theorem State.complete_writes {s : State} {x1 x2 x3 x4 x5 x6 x7} :
    Writes [Reg.hostifCnt 0, Reg.ringStatus 0, Reg.ringDevIdx 0, Reg.msixPba 0, Reg.perfWrapLo 0,
    Reg.perfWrapHi 0] s (State.complete s x1 x2 x3 x4 x5 x6 x7) := by
  unfold State.complete; repeat' first
      | (extract_lets +onlyGivenNames v; apply Writes.gen (v := v); subst v; rotate_left; clear_value v; intro h; rotate_right)
      | with_reducible assumption | with_reducible exact Writes.refl | with_reducible apply Writes.step State.deliver_writes
      | (show _ = _; rfl) | with_reducible apply Writes.put_host

theorem State.endParked_writes {s : State} {x1 x2 x3 x4 x5} :
    Writes [Reg.hostifCnt 0, Reg.ringStatus 0, Reg.ringDevIdx 0, Reg.msixPba 0, Reg.perfWrapLo 0,
    Reg.perfWrapHi 0] s (State.endParked s x1 x2 x3 x4 x5) := by
  unfold State.endParked; repeat' first
      | (extract_lets +onlyGivenNames v; apply Writes.gen (v := v); subst v; rotate_left; clear_value v; intro h; rotate_right)
      | with_reducible assumption | with_reducible exact Writes.refl | with_reducible apply Writes.bump
      | with_reducible apply Writes.step State.complete_writes | with_reducible apply Writes.kept State.unpark_kept
      | with_reducible apply Reg.hostifCnt_at | dsimp only [F.hostifCnt_COUNT] | (show _ = _; rfl) | split

theorem State.finish_writes {s : State} {x1 x2 x3} :
    Writes [Reg.hostifCnt 0, Reg.ringStatus 0, Reg.ringDevIdx 0, Reg.msixPba 0, Reg.perfWrapLo 0,
    Reg.perfWrapHi 0] s (State.finish s x1 x2 x3) := by
  unfold State.finish; repeat' first
      | with_reducible exact Writes.refl | with_reducible apply Writes.step State.endParked_writes | (show _ = _; rfl) | split

theorem State.endLong_writes {s : State} {x1 x2 x3} :
    Writes [Reg.hostifCnt 0, Reg.ringStatus 0, Reg.ringDevIdx 0, Reg.msixPba 0, Reg.perfWrapLo 0,
    Reg.perfWrapHi 0] s (State.endLong s x1 x2 x3) := by
  unfold State.endLong; repeat' first
      | (extract_lets +onlyGivenNames v; apply Writes.gen (v := v); subst v; rotate_left; clear_value v; intro h; rotate_right)
      | with_reducible assumption | with_reducible exact Writes.refl | with_reducible apply Writes.step State.complete_writes
      | with_reducible apply Writes.step State.finish_writes | (show _ = _; rfl) | split | with_reducible apply Writes.put_host

theorem State.fetched_writes {s : State} {x1} : Writes [Reg.ringStatus 0, Reg.ringDevIdx 0] s (State.fetched s x1) := by
  unfold State.fetched; repeat' first
      | (extract_lets +onlyGivenNames v; apply Writes.gen (v := v); subst v; rotate_left; clear_value v; intro h; rotate_right)
      | with_reducible assumption | with_reducible exact Writes.refl | with_reducible apply Writes.kept State.modCore_kept
      | with_reducible apply Writes.kept State.turnPasses_kept | with_reducible apply Writes.step State.advance_writes | (show _ = _; rfl)
      | split | with_reducible apply Writes.put_host

theorem State.start_writes {R : List Nat} {s t : State} {x1 x2 x3 x4} (g : ∀ v, Writes R s v → Writes R s (x4 v)) (hs : [Reg.hostifCnt 0, Reg.ringStatus 0, Reg.ringDevIdx 0, Reg.msixPba 0, Reg.perfWrapLo 0, Reg.perfWrapHi 0].all R.contains = true) (h :
    Writes R s t) :
    Writes R s (State.start t x1 x2 x3 x4) := by
  unfold State.start; repeat' first
      | (extract_lets +onlyGivenNames v; apply Writes.gen (v := v); subst v; rotate_left; clear_value v; intro h; rotate_right)
      | with_reducible apply Writes.step State.fetched_writes | with_reducible apply Writes.step State.complete_writes
      | with_reducible apply Writes.kept State.cmdWaits_kept | with_reducible assumption | exact List.all_trans (by decide) hs
      | with_reducible apply g | (show _ = _; rfl) | split | with_reducible apply Writes.put_host

theorem State.startLong_writes {R : List Nat} {s t : State} {x1 x2 x3 x4 x5 x6 x7} (g : ∀ v a0, Writes R s v → Writes R s (x6 v a0)) (hs : [Reg.hostifCnt 0, Reg.ringStatus 0, Reg.ringDevIdx 0, Reg.msixPba 0, Reg.perfWrapLo 0, Reg.perfWrapHi 0].all R.contains = true) (h :
    Writes R s t) :
    Writes R s (State.startLong t x1 x2 x3 x4 x5 x6 x7) := by
  unfold State.startLong; repeat' first
      | (extract_lets +onlyGivenNames v; apply Writes.gen (v := v); subst v; rotate_left; clear_value v; intro h; rotate_right)
      | with_reducible apply Writes.step State.complete_writes | with_reducible apply Writes.kept State.modLong_kept
      | with_reducible assumption | with_reducible apply g | (show _ = _; rfl) | split | with_reducible apply Writes.put_host

theorem State.setLong_writes {s : State} {x1 x2} :
    Writes [Reg.ringStatus 0, Reg.ringDevIdx 0, Reg.ringLoss 0, Reg.msixPba 0, Reg.perfWrapLo 0, Reg.perfWrapHi 0] s (State.setLong s x1 x2) := by
  unfold State.setLong; repeat' first
      | with_reducible exact Writes.refl | with_reducible apply Writes.step State.raise_writes
      | with_reducible apply Writes.kept State.modLong_kept | (show _ = _; rfl) | split

end Sys2Proof.Machine
end

