-- ==== Sys2Proof/Laws/WritesPort.lean ====
section
/-!
SUPPORT. Sys2Proof/Laws/WritesPort.lean: which registers each operation of Machine/Port.lean may change.
-/
namespace Sys2Proof.Machine
open Sys2Proof

theorem State.countStamp_writes {s : State} {x1 x2} : Writes [Reg.iuEdges 0] s (State.countStamp s x1 x2) := by
  unfold State.countStamp; repeat' first
      | (extract_lets +onlyGivenNames v; apply Writes.gen (v := v); subst v; rotate_left; clear_value v; intro h; rotate_right)
      | with_reducible assumption | with_reducible exact Writes.refl | with_reducible apply Writes.bump | with_reducible apply Reg.iuEdges_at
      | dsimp only [F.iuEdges_EDGES] | (show _ = _; rfl) | with_reducible apply Writes.put_cal

theorem State.sendCtrl_writes {s : State} {x1 x2} : Writes [Reg.iuEdges 0] s (State.sendCtrl s x1 x2) := by
  unfold State.sendCtrl; repeat' first
      | with_reducible exact Writes.refl | with_reducible apply Writes.kept State.countPort_kept
      | with_reducible apply Writes.step State.countStamp_writes | with_reducible apply Writes.kept State.send_kept | (show _ = _; rfl)

theorem State.sendPause_writes {s : State} {x1 x2 x3} : Writes [Reg.iuEdges 0] s (State.sendPause s x1 x2 x3) := by
  unfold State.sendPause; repeat' first
      | (extract_lets +onlyGivenNames v; apply Writes.gen (v := v); subst v; rotate_left; clear_value v; intro h; rotate_right)
      | with_reducible assumption | with_reducible exact Writes.refl | with_reducible apply Writes.ite
      | with_reducible apply Writes.step State.sendCtrl_writes | with_reducible apply Writes.kept State.modMac_kept | (show _ = _; rfl)

theorem State.showXoff_writes {s : State} {x1} : Writes [Reg.portPauseStatus 0, Reg.iuEdges 0] s (State.showXoff s x1) := by
  unfold State.showXoff; repeat' first
      | intro _ | (extract_lets +onlyGivenNames v; apply Writes.gen (v := v); subst v; rotate_left; clear_value v; intro h; rotate_right)
      | with_reducible assumption | with_reducible exact Writes.refl | with_reducible apply Writes.setF
      | with_reducible apply Writes.step State.sendPause_writes | with_reducible apply Writes.kept State.countPort_kept
      | with_reducible apply State.each_writes | with_reducible apply Reg.portPauseStatus_at | dsimp only [F.portPauseStatus_TX_XOFF]
      | (show _ = _; rfl) | split

theorem State.showPause_writes {s : State} {x1} : Writes [Reg.portPauseStatus 0] s (State.showPause s x1) := by
  unfold State.showPause; repeat' first
      | (extract_lets +onlyGivenNames v; apply Writes.gen (v := v); subst v; rotate_left; clear_value v; intro h; rotate_right)
      | with_reducible assumption | with_reducible exact Writes.refl | with_reducible apply Writes.setF
      | with_reducible apply Writes.kept State.countPort_kept | with_reducible apply Writes.kept State.modMac_kept
      | with_reducible apply Reg.portPauseStatus_at | dsimp only [F.portPauseStatus_RX_PAUSED] | (show _ = _; rfl) | split

theorem State.clearPause_writes {s : State} {x1} : Writes [Reg.portPauseStatus 0] s (State.clearPause s x1) := by
  unfold State.clearPause; repeat' first
      | with_reducible exact Writes.refl | with_reducible apply Writes.step State.showPause_writes | with_reducible apply Writes.setF
      | with_reducible apply Writes.kept State.modMac_kept | with_reducible apply Reg.portPauseStatus_at | dsimp only [F.portPauseStatus_STORM]
      | (show _ = _; rfl)

theorem State.flushCtrl_writes {s : State} {x1} : Writes [Reg.iuEdges 0] s (State.flushCtrl s x1) := by
  unfold State.flushCtrl; repeat' first
      | intro _ | with_reducible assumption | with_reducible exact Writes.refl | with_reducible apply Writes.step State.sendCtrl_writes
      | with_reducible apply State.each_writes | with_reducible apply Writes.kept State.modMac_kept | (show _ = _; rfl)

theorem State.askXoff_writes {s : State} {x1 x2 x3} : Writes [Reg.portPauseStatus 0, Reg.iuEdges 0] s (State.askXoff s x1 x2 x3) := by
  unfold State.askXoff; repeat' first
      | with_reducible exact Writes.refl | with_reducible apply Writes.step State.showXoff_writes
      | with_reducible apply Writes.kept State.modMac_kept | (show _ = _; rfl)

theorem State.saWrite_writes {s : State} {x1 x2} : Writes [Reg.portSaHi 0] s (State.saWrite s x1 x2) := by
  unfold State.saWrite; repeat' first
      | (extract_lets +onlyGivenNames v; apply Writes.gen (v := v); subst v; rotate_left; clear_value v; intro h; rotate_right)
      | with_reducible assumption | with_reducible exact Writes.refl | with_reducible apply Writes.putRw | with_reducible apply Reg.portSaHi_at
      | (show _ = _; rfl) | split | with_reducible apply Writes.put_ports

theorem State.endPause_writes {s : State} {x1 x2} : Writes [Reg.portPauseStatus 0] s (State.endPause s x1 x2) := by
  unfold State.endPause; repeat' first
      | (extract_lets +onlyGivenNames v; apply Writes.gen (v := v); subst v; rotate_left; clear_value v; intro h; rotate_right)
      | with_reducible assumption | with_reducible exact Writes.refl | with_reducible apply Writes.setF
      | with_reducible apply Writes.kept State.modMac_kept | with_reducible apply Reg.portPauseStatus_at | dsimp only [F.portPauseStatus_STORM]
      | (show _ = _; rfl) | split

theorem State.rxPause_writes {s : State} {x1 x2 x3} : Writes [Reg.portPauseStatus 0] s (State.rxPause s x1 x2 x3) := by
  unfold State.rxPause; repeat' first
      | with_reducible exact Writes.refl | with_reducible apply Writes.step State.endPause_writes
      | with_reducible apply Writes.kept State.modMac_kept | (show _ = _; rfl) | split

end Sys2Proof.Machine
end

