-- ==== Sys2Proof/Laws/WritesTime.lean ====
section
/-!
SUPPORT. Sys2Proof/Laws/WritesTime.lean: which registers each operation of Machine/Time.lean may change.
-/
namespace Sys2Proof.Machine
open Sys2Proof

theorem State.showBeat_writes {s : State} : Writes [Reg.globalBeat] s (State.showBeat s) := by
  unfold State.showBeat; repeat' first
      | with_reducible exact Writes.refl | with_reducible apply Writes.setF | with_reducible apply Reg.globalBeat_at
      | dsimp only [F.globalBeat_BEAT, F.globalBeat_SEC_LO] | (show _ = _; rfl)

theorem State.showIncr_writes {s : State} {x1} : Writes [Reg.tbIncrLo 0, Reg.tbIncrHi 0] s (State.showIncr s x1) := by
  unfold State.showIncr; repeat' first
      | with_reducible exact Writes.refl | with_reducible apply Writes.setReg | with_reducible apply Reg.tbIncrHi_at
      | with_reducible apply Reg.tbIncrLo_at | (show _ = _; rfl) | split

theorem State.showComp_writes {s : State} {x1} : Writes [Reg.tbLcompRx 0, Reg.tbLcompTx 0] s (State.showComp s x1) := by
  unfold State.showComp; repeat' first
      | with_reducible exact Writes.refl | with_reducible apply Writes.setReg | with_reducible apply Reg.tbLcompRx_at
      | with_reducible apply Reg.tbLcompTx_at | (show _ = _; rfl)

theorem State.setIncr_writes {s : State} {x1 x2 x3} :
    Writes [Reg.ringStatus 0, Reg.ringDevIdx 0, Reg.ringLoss 0, Reg.msixPba 0, Reg.perfWrapLo 0, Reg.perfWrapHi 0, Reg.tbClamp, Reg.tbIncrLo 0,
    Reg.tbIncrHi 0] s (State.setIncr s x1 x2 x3) := by
  unfold State.setIncr; repeat' first
      | (extract_lets +onlyGivenNames v; apply Writes.gen (v := v); subst v; rotate_left; clear_value v; intro h; rotate_right)
      | (extract_lets +onlyGivenNames v; have q : Fld := v; clear q; subst v) | with_reducible assumption | with_reducible exact Writes.refl
      | with_reducible apply Writes.ite | with_reducible apply Writes.setF | with_reducible apply Writes.step State.raise_writes
      | with_reducible apply Writes.kept State.modCnt_kept | with_reducible apply Writes.step State.showIncr_writes
      | with_reducible apply Reg.tbClamp_at | (show _ = _; rfl)

theorem State.recordStep_writes {s : State} {x1 x2 x3} :
    Writes [Reg.tbStepFrac 0, Reg.tbStepNs 0, Reg.tbStepSecLo 0, Reg.tbStepSecHi 0] s (State.recordStep s x1 x2 x3) := by
  unfold State.recordStep; repeat' first
      | (extract_lets +onlyGivenNames v; apply Writes.gen (v := v); subst v; rotate_left; clear_value v; intro h; rotate_right)
      | with_reducible assumption | with_reducible exact Writes.refl | with_reducible apply Writes.setF
      | with_reducible apply Writes.kept State.modTimeAny_kept | with_reducible apply Reg.tbStepFrac_at | with_reducible apply Reg.tbStepNs_at
      | with_reducible apply Reg.tbStepSecHi_at | with_reducible apply Reg.tbStepSecLo_at
      | dsimp only [F.tbStepFrac_FRAC, F.tbStepNs_NS, F.tbStepSecHi_KIND, F.tbStepSecHi_SEC_HI, F.tbStepSecHi_VALID, F.tbStepSecLo_SEC_LO]
      | (show _ = _; rfl)

theorem State.setLocked_writes {s : State} {x1} : Writes [Reg.tbStatus] s (State.setLocked s x1) := by
  unfold State.setLocked; repeat' first
      | with_reducible exact Writes.refl | with_reducible apply Writes.setF | with_reducible apply Reg.tbStatus_at
      | dsimp only [F.tbStatus_LOCKED_0, F.tbStatus_LOCKED_123] | (show _ = _; rfl) | split

theorem State.latchCounters_writes {s : State} :
    Writes [Reg.tbSnapCtrl, Reg.tbIncrLo 0, Reg.tbIncrHi 0, Reg.tbSnapFrac 0, Reg.tbSnapNs 0, Reg.tbSnapSecLo 0,
    Reg.tbSnapSecHi 0] s (State.latchCounters s) := by
  unfold State.latchCounters; repeat' first
      | intro _ | (extract_lets +onlyGivenNames v; apply Writes.gen (v := v); subst v; rotate_left; clear_value v; intro h; rotate_right)
      | with_reducible assumption | with_reducible exact Writes.refl | with_reducible apply Writes.setReg | with_reducible apply Writes.setF
      | with_reducible apply State.each_writes | with_reducible apply Writes.kept State.modTimeAny_kept | with_reducible apply Reg.tbIncrHi_at
      | with_reducible apply Reg.tbIncrLo_at | with_reducible apply Reg.tbSnapCtrl_at | with_reducible apply Reg.tbSnapFrac_at
      | with_reducible apply Reg.tbSnapNs_at | with_reducible apply Reg.tbSnapSecHi_at | with_reducible apply Reg.tbSnapSecLo_at
      | dsimp only [F.tbSnapCtrl_BEAT, F.tbSnapCtrl_GO, F.tbSnapNs_NS, F.tbSnapSecHi_SEC_HI] | (show _ = _; rfl)

theorem State.pass_writes {s : State} {x1} :
    Writes [Reg.tbSnapCtrl, Reg.tbIncrLo 0, Reg.tbIncrHi 0, Reg.tbSnapFrac 0, Reg.tbSnapNs 0, Reg.tbSnapSecLo 0,
    Reg.tbSnapSecHi 0] s (State.pass s x1) := by
  unfold State.pass; repeat' first
      | with_reducible exact Writes.refl | with_reducible apply Writes.kept State.ticks_kept
      | with_reducible apply Writes.step State.latchCounters_writes | (show _ = _; rfl) | split

theorem State.toTick_writes {s : State} {x1} :
    Writes [Reg.tbSnapCtrl, Reg.tbIncrLo 0, Reg.tbIncrHi 0, Reg.tbSnapFrac 0, Reg.tbSnapNs 0, Reg.tbSnapSecLo 0,
    Reg.tbSnapSecHi 0] s (State.toTick s x1) := by
  unfold State.toTick; repeat' first
      | with_reducible exact Writes.refl | with_reducible apply Writes.step State.pass_writes | (show _ = _; rfl) | split

theorem State.reachTick_writes {s : State} {x1} :
    Writes [Reg.tbSnapCtrl, Reg.tbIncrLo 0, Reg.tbIncrHi 0, Reg.tbSnapFrac 0, Reg.tbSnapNs 0, Reg.tbSnapSecLo 0,
    Reg.tbSnapSecHi 0] s (State.reachTick s x1) := by
  unfold State.reachTick; repeat' first
      | (extract_lets +onlyGivenNames v; apply Writes.gen (v := v); subst v; rotate_left; clear_value v; intro h; rotate_right)
      | with_reducible assumption | with_reducible exact Writes.refl | with_reducible apply Writes.step State.toTick_writes | (show _ = _; rfl)
      | split

theorem State.idle_writes {s : State} :
    Writes [Reg.tbSnapCtrl, Reg.tbIncrLo 0, Reg.tbIncrHi 0, Reg.tbSnapFrac 0, Reg.tbSnapNs 0, Reg.tbSnapSecLo 0,
    Reg.tbSnapSecHi 0] s (State.idle s) := by
  unfold State.idle; repeat' first
      | with_reducible exact Writes.refl | with_reducible apply Writes.step State.pass_writes | (show _ = _; rfl) | split

end Sys2Proof.Machine
end

