-- ==== Sys2Proof/Laws/WritesRedund.lean ====
section
/-!
SUPPORT. Sys2Proof/Laws/WritesRedund.lean: which registers each operation of Machine/Redund.lean may change.
-/
namespace Sys2Proof.Machine
open Sys2Proof

theorem State.gated_writes {R : List Nat} {s t : State} {x1 x2 x3} (g : ∀ v, Writes R s v → Writes R s (x3 v)) (hs : [Reg.perfWrapLo 0, Reg.perfWrapHi 0, Reg.redundCnt 0].all R.contains = true) (h :
    Writes R s t) :
    Writes R s (State.gated t x1 x2 x3) := by
  unfold State.gated; repeat' first
      | (extract_lets +onlyGivenNames v; apply Writes.gen (v := v); subst v; rotate_left; clear_value v; intro h; rotate_right)
      | with_reducible apply Writes.kept State.sign_kept | with_reducible apply Writes.bump
      | with_reducible apply Writes.step State.perf_writes | with_reducible apply Reg.redundCnt_at | dsimp only [F.redundCnt_COUNT]
      | with_reducible assumption | exact List.all_trans (by decide) hs | exact AtReg.of_all hs rfl | with_reducible apply g
      | (show _ = _; rfl) | split

theorem State.staging_writes {R : List Nat} {s t : State} {x1} (g : ∀ v, Writes R s v → Writes R s (x1 v)) (hs : [].all R.contains = true) (h :
    Writes R s t) :
    Writes R s (State.staging t x1) := by
  unfold State.staging; repeat' first
      | (extract_lets +onlyGivenNames v; apply Writes.gen (v := v); subst v; rotate_left; clear_value v; intro h; rotate_right)
      | with_reducible assumption | with_reducible apply g | with_reducible apply Writes.put_waiting

theorem State.byWriter_writes {R : List Nat} {s t : State} {x1 x2 x3 x4} (g : ∀ v, Writes R s v → Writes R s (x4 v)) (hs : [Reg.perfWrapLo 0, Reg.perfWrapHi 0, Reg.redundCnt 0].all R.contains = true) (h :
    Writes R s t) :
    Writes R s (State.byWriter t x1 x2 x3 x4) := by
  unfold State.byWriter; repeat' first
      | intro _ | with_reducible apply State.gated_writes | with_reducible apply State.staging_writes | with_reducible assumption
      | with_reducible apply g | (show _ = _; rfl) | split

theorem State.setPair_writes {s : State} {x1 x2} : Writes [Reg.redundStatus] s (State.setPair s x1 x2) := by
  unfold State.setPair; repeat' first
      | with_reducible exact Writes.refl | with_reducible apply Writes.setF | with_reducible apply Reg.redundStatus_at
      | dsimp only [F.redundStatus_CORE0_STATE, F.redundStatus_CORE1_STATE] | unfold pairField | (show _ = _; rfl) | split

theorem State.markHeld_writes {s : State} : Writes [Reg.redundStatus, Reg.redundCnt 0] s (State.markHeld s) := by
  unfold State.markHeld; repeat' first
      | (extract_lets +onlyGivenNames v; apply Writes.gen (v := v); subst v; rotate_left; clear_value v; intro h; rotate_right)
      | with_reducible assumption | with_reducible exact Writes.refl | with_reducible apply Writes.bump | with_reducible apply Writes.setF
      | with_reducible apply Writes.kept State.modRedund_kept | with_reducible apply Reg.redundCnt_at
      | with_reducible apply Reg.redundStatus_at | dsimp only [F.redundCnt_COUNT, F.redundStatus_HOLD] | (show _ = _; rfl) | split

theorem State.passLock_writes {s : State} {x1 x2 x3 x4} :
    Writes [Reg.ringStatus 0, Reg.ringDevIdx 0, Reg.ringLoss 0, Reg.msixPba 0, Reg.perfWrapLo 0, Reg.perfWrapHi 0, Reg.redundStatus,
    Reg.redundCnt 0] s (State.passLock s x1 x2 x3 x4) := by
  unfold State.passLock; repeat' first
      | (extract_lets +onlyGivenNames v; apply Writes.gen (v := v); subst v; rotate_left; clear_value v; intro h; rotate_right)
      | with_reducible assumption | with_reducible exact Writes.refl | with_reducible apply Writes.bump | with_reducible apply Writes.setF
      | with_reducible apply Writes.kept State.raiseInt_kept | with_reducible apply Writes.step State.raise_writes
      | with_reducible apply Writes.kept State.modRedund_kept | with_reducible apply Writes.step State.markHeld_writes
      | with_reducible apply Writes.step State.setPair_writes | with_reducible apply Reg.redundCnt_at
      | with_reducible apply Reg.redundStatus_at | dsimp only [F.redundCnt_COUNT, F.redundStatus_HOLDER] | (show _ = _; rfl)

theorem State.swapStep_writes {s : State} :
    Writes [Reg.globalLateFlags, Reg.globalLateCnt 0, Reg.hostifCnt 0, Reg.ringStatus 0, Reg.ringDevIdx 0, Reg.ringLoss 0, Reg.msixPba 0,
    Reg.perfWrapLo 0, Reg.perfWrapHi 0, Reg.redundStatus, Reg.redundCnt 0] s (State.swapStep s) := by
  unfold State.swapStep; repeat' first
      | (extract_lets +onlyGivenNames v; apply Writes.gen (v := v); subst v; rotate_left; clear_value v; intro h; rotate_right)
      | with_reducible assumption | with_reducible exact Writes.refl | with_reducible apply Writes.ite
      | with_reducible apply Writes.step State.late_writes | with_reducible apply Writes.step State.finish_writes
      | with_reducible apply Writes.step State.passLock_writes | with_reducible apply Writes.kept State.modRedund_kept
      | with_reducible apply Writes.step State.setPair_writes | (show _ = _; rfl) | split

theorem State.boardPin_writes {s : State} : Writes [Reg.redundStatus] s (State.boardPin s) := by
  unfold State.boardPin; repeat' first
      | with_reducible exact Writes.refl | with_reducible apply Writes.kept State.fresh_kept | with_reducible apply Writes.setF
      | with_reducible apply Writes.kept State.modRedund_kept | with_reducible apply Reg.redundStatus_at | dsimp only [F.redundStatus_PEER]
      | (show _ = _; rfl)

theorem State.failCore_writes {s : State} {x1} : Writes [Reg.coreStatus 0, Reg.redundStatus] s (State.failCore s x1) := by
  unfold State.failCore; repeat' first
      | with_reducible exact Writes.refl | with_reducible apply Writes.setF | with_reducible apply Writes.kept State.modCore_kept
      | with_reducible apply Writes.step State.setPair_writes | with_reducible apply Reg.coreStatus_at | dsimp only [F.coreStatus_STATE]
      | (show _ = _; rfl)

theorem State.pairFault_writes {s : State} {x1 x2 x3} :
    Writes [Reg.ringStatus 0, Reg.ringDevIdx 0, Reg.ringLoss 0, Reg.msixPba 0, Reg.perfWrapLo 0,
    Reg.perfWrapHi 0] s (State.pairFault s x1 x2 x3) := by
  unfold State.pairFault; repeat' first | with_reducible exact Writes.refl | with_reducible apply Writes.step State.raise_writes | (show _ = _; rfl)

theorem State.diverge_writes {s : State} :
    Writes [Reg.ringStatus 0, Reg.ringDevIdx 0, Reg.ringLoss 0, Reg.msixPba 0, Reg.coreStatus 0, Reg.perfWrapLo 0, Reg.perfWrapHi 0,
    Reg.redundStatus, Reg.redundCnt 0] s (State.diverge s) := by
  unfold State.diverge; repeat' first
      | (extract_lets +onlyGivenNames v; apply Writes.gen (v := v); subst v; rotate_left; clear_value v; intro h; rotate_right)
      | with_reducible assumption | with_reducible exact Writes.refl | with_reducible apply Writes.bump
      | with_reducible apply Writes.step State.failCore_writes | with_reducible apply Writes.kept State.modRedund_kept
      | with_reducible apply Writes.step State.setPair_writes | with_reducible apply Writes.step State.pairFault_writes
      | with_reducible apply Reg.redundCnt_at | dsimp only [F.redundCnt_COUNT] | (show _ = _; rfl) | split

theorem State.holderFailed_writes {s : State} {x1} :
    Writes [Reg.ringStatus 0, Reg.ringDevIdx 0, Reg.ringLoss 0, Reg.msixPba 0, Reg.coreStatus 0, Reg.perfWrapLo 0, Reg.perfWrapHi 0,
    Reg.redundStatus, Reg.redundCnt 0] s (State.holderFailed s x1) := by
  unfold State.holderFailed; repeat' first
      | (extract_lets +onlyGivenNames v; apply Writes.gen (v := v); subst v; rotate_left; clear_value v; intro h; rotate_right)
      | with_reducible assumption | with_reducible exact Writes.refl | with_reducible apply Writes.setF
      | with_reducible apply Writes.step State.failCore_writes | with_reducible apply Writes.step State.passLock_writes
      | with_reducible apply Writes.kept State.modRedund_kept | with_reducible apply Writes.step State.markHeld_writes
      | with_reducible apply Writes.step State.pairFault_writes | with_reducible apply Reg.redundStatus_at
      | dsimp only [F.redundStatus_UNATTENDED] | (show _ = _; rfl) | split

theorem State.pathStep_writes {s : State} {x1 x2 x3} :
    Writes [Reg.ringStatus 0, Reg.ringDevIdx 0, Reg.ringLoss 0, Reg.msixPba 0, Reg.perfWrapLo 0, Reg.perfWrapHi 0, Reg.redundHb,
    Reg.redundCnt 0] s (State.pathStep s x1 x2 x3) := by
  unfold State.pathStep; repeat' first
      | with_reducible exact Writes.refl | with_reducible apply Writes.ite | with_reducible apply Writes.bump
      | with_reducible apply Writes.setF | with_reducible apply Writes.kept State.modRedund_kept
      | with_reducible apply Writes.step State.pairFault_writes | with_reducible apply Reg.redundCnt_at | with_reducible apply Reg.redundHb_at
      | dsimp only [F.redundCnt_COUNT, F.redundHb_FAULTED] | (show _ = _; rfl)

theorem State.hbStep_writes {s : State} {x1 x2} :
    Writes [Reg.ringStatus 0, Reg.ringDevIdx 0, Reg.ringLoss 0, Reg.msixPba 0, Reg.coreStatus 0, Reg.perfWrapLo 0, Reg.perfWrapHi 0,
    Reg.redundStatus, Reg.redundHb, Reg.redundCnt 0] s (State.hbStep s x1 x2) := by
  unfold State.hbStep; repeat' first
      | intro _ | (extract_lets +onlyGivenNames v; apply Writes.gen (v := v); subst v; rotate_left; clear_value v; intro h; rotate_right)
      | with_reducible assumption | with_reducible exact Writes.refl | with_reducible apply Writes.step State.holderFailed_writes
      | with_reducible apply Writes.setF | with_reducible apply Writes.step State.failCore_writes | with_reducible apply State.each_writes
      | with_reducible apply Writes.kept State.modRedund_kept | with_reducible apply Writes.step State.markHeld_writes
      | with_reducible apply Writes.step State.pathStep_writes | with_reducible apply State.when_writes
      | with_reducible apply Writes.step State.pairFault_writes | with_reducible apply Reg.redundStatus_at
      | dsimp only [F.redundStatus_ARB_FAULT] | (show _ = _; rfl) | split

theorem State.boardEvent_writes {s : State} {x1 x2} :
    Writes [Reg.ringStatus 0, Reg.ringDevIdx 0, Reg.ringLoss 0, Reg.msixPba 0, Reg.perfWrapLo 0,
    Reg.perfWrapHi 0] s (State.boardEvent s x1 x2) := by
  unfold State.boardEvent; repeat' first
      | with_reducible exact Writes.refl | with_reducible apply Writes.step State.raise_writes | (show _ = _; rfl)

theorem State.boardRelease_writes {s : State} :
    Writes [Reg.ringStatus 0, Reg.ringDevIdx 0, Reg.ringLoss 0, Reg.msixPba 0, Reg.perfWrapLo 0, Reg.perfWrapHi 0,
    Reg.redundStatus] s (State.boardRelease s) := by
  unfold State.boardRelease; repeat' first
      | with_reducible exact Writes.refl | with_reducible apply Writes.ite | with_reducible apply Writes.step State.boardEvent_writes
      | with_reducible apply Writes.setF | with_reducible apply Writes.kept State.modRedund_kept | with_reducible apply Reg.redundStatus_at
      | dsimp only [F.redundStatus_BOARD_HOLD] | (show _ = _; rfl)

theorem State.copyHolder_writes {s : State} {x1} : Writes [Reg.coreStatus 0] s (State.copyHolder s x1) := by
  unfold State.copyHolder; repeat' first
      | (extract_lets +onlyGivenNames v; apply Writes.gen (v := v); subst v; rotate_left; clear_value v; intro h; rotate_right)
      | with_reducible assumption | with_reducible exact Writes.refl | with_reducible apply Writes.setF
      | with_reducible apply Writes.kept State.modCore_kept | with_reducible apply Reg.coreStatus_at | dsimp only [F.coreStatus_STATE]
      | (show _ = _; rfl) | with_reducible apply Writes.put_cores

theorem State.joinCopy_writes {s : State} {x1} : Writes [Reg.coreStatus 0, Reg.redundStatus] s (State.joinCopy s x1) := by
  unfold State.joinCopy; repeat' first
      | with_reducible exact Writes.refl | with_reducible apply Writes.kept State.modRedund_kept
      | with_reducible apply Writes.step State.copyHolder_writes | with_reducible apply Writes.step State.setPair_writes | (show _ = _; rfl)

theorem State.resynced_writes {s : State} : Writes [Reg.coreStatus 0, Reg.redundStatus] s (State.resynced s) := by
  unfold State.resynced; repeat' first
      | with_reducible exact Writes.refl | with_reducible apply Writes.kept State.modRedund_kept | with_reducible apply State.when_writes
      | with_reducible apply Writes.step State.joinCopy_writes | (show _ = _; rfl) | split

theorem State.redundBoundary_writes {s : State} {x1} :
    Writes [Reg.globalLateFlags, Reg.globalLateCnt 0, Reg.hostifCnt 0, Reg.ringStatus 0, Reg.ringDevIdx 0, Reg.ringLoss 0, Reg.msixPba 0,
    Reg.coreStatus 0, Reg.perfWrapLo 0, Reg.perfWrapHi 0, Reg.redundStatus, Reg.redundHb, Reg.redundCnt 0] s (State.redundBoundary s x1) := by
  unfold State.redundBoundary; repeat' first
      | (extract_lets +onlyGivenNames v; apply Writes.gen (v := v); subst v; rotate_left; clear_value v; intro h; rotate_right)
      | with_reducible assumption | with_reducible exact Writes.refl | with_reducible apply Writes.ite
      | with_reducible apply Writes.step State.swapStep_writes | with_reducible apply Writes.setF
      | with_reducible apply Writes.step State.boardPin_writes | with_reducible apply Writes.step State.diverge_writes
      | with_reducible apply Writes.step State.hbStep_writes | with_reducible apply Writes.step State.boardRelease_writes
      | with_reducible apply Writes.kept State.modRedund_kept | with_reducible apply Writes.step State.markHeld_writes
      | with_reducible apply State.when_writes | with_reducible apply Writes.step State.resynced_writes | with_reducible apply Reg.redundHb_at
      | with_reducible apply Reg.redundStatus_at | dsimp only [F.redundHb_MISSING, F.redundStatus_HOLD] | (show _ = _; rfl)

theorem State.byPair_writes {R : List Nat} {s t : State} {x1 x2} (g : ∀ v, Writes R s v → Writes R s (x2 v)) (hs : [Reg.perfWrapLo 0, Reg.perfWrapHi 0, Reg.redundCnt 0].all R.contains = true) (h :
    Writes R s t) :
    Writes R s (State.byPair t x1 x2) := by
  unfold State.byPair; repeat' first
      | (extract_lets +onlyGivenNames v; apply Writes.gen (v := v); subst v; rotate_left; clear_value v; intro h; rotate_right)
      | with_reducible apply State.gated_writes | with_reducible apply State.when_writes | with_reducible assumption | with_reducible apply g

theorem State.pairSend_writes {s : State} {x1 x2} : Writes [Reg.perfWrapLo 0, Reg.perfWrapHi 0, Reg.redundCnt 0] s (State.pairSend s x1 x2) := by
  unfold State.pairSend; repeat' first
      | intro _ | with_reducible assumption | with_reducible exact Writes.refl | with_reducible apply State.byPair_writes
      | with_reducible apply Writes.kept State.queueOwn_kept | (show _ = _; rfl)

theorem State.pairWrite_writes {s : State} {x1 x2} : Writes [Reg.perfWrapLo 0, Reg.perfWrapHi 0, Reg.redundCnt 0] s (State.pairWrite s x1 x2) := by
  unfold State.pairWrite; repeat' first
      | intro _ | with_reducible assumption | with_reducible exact Writes.refl | with_reducible apply State.byPair_writes
      | with_reducible apply State.staging_writes | with_reducible apply Writes.kept State.wait_kept | (show _ = _; rfl)

theorem execPairSwap_writes {s : State} {x0} {t} (h : execPairSwap x0 s = .next t) :
    Writes [Reg.hostifCnt 0, Reg.ringStatus 0, Reg.ringDevIdx 0, Reg.msixPba 0, Reg.perfWrapLo 0, Reg.perfWrapHi 0] s t := by
  unfold execPairSwap at h; injection h with h; subst h; repeat' first
      | intro _ | with_reducible assumption | with_reducible exact Writes.refl | with_reducible apply Writes.kept State.parkId_kept
      | with_reducible apply State.start_writes | with_reducible apply Writes.step State.complete_writes
      | with_reducible apply Writes.kept State.modRedund_kept | (show _ = _; rfl) | split

theorem execBoardIntlkTake_writes {s : State} {t} (h : execBoardIntlkTake s = .next t) : Writes [Reg.redundStatus] s t := by
  unfold execBoardIntlkTake at h; injection h with h; subst h; repeat' first
      | with_reducible exact Writes.refl | with_reducible apply Writes.ite | with_reducible apply Writes.setF
      | with_reducible apply Writes.kept State.modRedund_kept | with_reducible apply Reg.redundStatus_at
      | dsimp only [F.redundStatus_BOARD_HOLD, F.redundStatus_PEER] | (show _ = _; rfl)

end Sys2Proof.Machine
end

