-- ==== Sys2Proof/Laws/WritesCores.lean ====
section
/-!
SUPPORT. Sys2Proof/Laws/WritesCores.lean: which registers each operation of Machine/Cores.lean may change.
-/
namespace Sys2Proof.Machine
open Sys2Proof

theorem State.beatInt_writes {s : State} {x1} :
    Writes [Reg.globalLateFlags, Reg.globalLateCnt 0, Reg.ringStatus 0, Reg.ringDevIdx 0, Reg.ringLoss 0, Reg.msixPba 0, Reg.coreSkipped 0,
    Reg.perfWrapLo 0, Reg.perfWrapHi 0] s (State.beatInt s x1) := by
  unfold State.beatInt; repeat' first
      | (extract_lets +onlyGivenNames v; apply Writes.gen (v := v); subst v; rotate_left; clear_value v; intro h; rotate_right)
      | with_reducible assumption | with_reducible exact Writes.refl | with_reducible apply Writes.bump
      | with_reducible apply Writes.kept State.modCore_kept | with_reducible apply Writes.step State.late_writes
      | with_reducible apply Writes.kept State.raiseInt_kept | with_reducible apply Writes.step State.perf_writes
      | with_reducible apply Reg.coreSkipped_at | dsimp only [F.coreSkipped_COUNT] | (show _ = _; rfl) | split

theorem State.uncorrected_writes {s : State} {x1 x2 x3} :
    Writes [Reg.ringStatus 0, Reg.ringDevIdx 0, Reg.ringLoss 0, Reg.msixPba 0, Reg.bankEcc 0, Reg.perfWrapLo 0,
    Reg.perfWrapHi 0] s (State.uncorrected s x1 x2 x3) := by
  unfold State.uncorrected; repeat' first
      | (extract_lets +onlyGivenNames v; apply Writes.gen (v := v); subst v; rotate_left; clear_value v; intro h; rotate_right)
      | with_reducible assumption | with_reducible exact Writes.refl | with_reducible apply Writes.bump
      | with_reducible apply Writes.step State.raise_writes | with_reducible apply Reg.bankEcc_at | dsimp only [F.bankEcc_UNCORR]
      | (show _ = _; rfl)

theorem State.eccBank_writes {s : State} {x1 x2 x3 x4} :
    Writes [Reg.ringStatus 0, Reg.ringDevIdx 0, Reg.ringLoss 0, Reg.msixPba 0, Reg.bankEcc 0, Reg.perfWrapLo 0,
    Reg.perfWrapHi 0] s (State.eccBank s x1 x2 x3 x4).1 := by
  unfold State.eccBank; repeat' first
      | intro _ | with_reducible assumption | with_reducible exact Writes.refl | with_reducible apply Writes.bump
      | with_reducible apply Writes.step State.uncorrected_writes | with_reducible apply State.each_writes
      | with_reducible apply Writes.step State.perf_writes | with_reducible apply State.when_writes | with_reducible apply Reg.bankEcc_at
      | dsimp only [F.bankEcc_CORR] | (show _ = _; rfl) | split

theorem State.memErr_writes {s : State} : Writes [Reg.membankStatus] s (State.memErr s) := by
  unfold State.memErr; repeat' first
      | with_reducible exact Writes.refl | with_reducible apply Writes.setF | with_reducible apply Reg.membankStatus_at
      | dsimp only [F.membankStatus_CFG_ERR] | (show _ = _; rfl)

theorem State.showIlv_writes {s : State} {x1} : Writes [Reg.quad 0] s (State.showIlv s x1) := by
  unfold State.showIlv; repeat' first
      | with_reducible exact Writes.refl | with_reducible apply Writes.setF | with_reducible apply Reg.quad_at | dsimp only [F.quad_ILV_ACTIVE]
      | (show _ = _; rfl) | split

theorem State.bankCtrlWrite_writes {s : State} {x1 x2 x3} :
    Writes [Reg.bankCtrl 0, Reg.quad 0, Reg.membankStatus] s (State.bankCtrlWrite s x1 x2 x3) := by
  unfold State.bankCtrlWrite; repeat' first
      | (extract_lets +onlyGivenNames v; apply Writes.gen (v := v); subst v; rotate_left; clear_value v; intro h; rotate_right)
      | with_reducible assumption | with_reducible exact Writes.refl | with_reducible apply Writes.ite | with_reducible apply Writes.setF
      | with_reducible apply Writes.step State.memErr_writes | with_reducible apply Writes.step State.showIlv_writes
      | with_reducible apply Reg.bankCtrl_at | dsimp only [F.bankCtrl_NEXT, F.bankCtrl_PENDING, F.bankCtrl_POWER] | (show _ = _; rfl)

theorem State.coreWdtWrite_writes {s : State} {x1 x2} : Writes [Reg.coreWdt 0, Reg.membankStatus] s (State.coreWdtWrite s x1 x2) := by
  unfold State.coreWdtWrite; repeat' first
      | (extract_lets +onlyGivenNames v; apply Writes.gen (v := v); subst v; rotate_left; clear_value v; intro h; rotate_right)
      | with_reducible assumption | with_reducible exact Writes.refl | with_reducible apply Writes.step State.memErr_writes
      | with_reducible apply Writes.kept State.coreKick_kept | with_reducible apply Writes.putRw | with_reducible apply Reg.coreWdt_at
      | (show _ = _; rfl) | split

theorem State.quadWrite_writes {s : State} {x1 x2 x3} : Writes [Reg.bankCtrl 0, Reg.quad 0, Reg.membankStatus] s (State.quadWrite s x1 x2 x3) := by
  unfold State.quadWrite; repeat' first
      | intro _ | (extract_lets +onlyGivenNames v; apply Writes.gen (v := v); subst v; rotate_left; clear_value v; intro h; rotate_right)
      | with_reducible assumption | with_reducible exact Writes.refl | with_reducible apply Writes.ite | with_reducible apply Writes.setF
      | with_reducible apply Writes.step State.memErr_writes | with_reducible apply State.each_writes
      | with_reducible apply Writes.step State.showIlv_writes | with_reducible apply Reg.bankCtrl_at | with_reducible apply Reg.quad_at
      | dsimp only [F.bankCtrl_NEXT, F.bankCtrl_PENDING, F.quad_ILV, F.quad_NEXT] | (show _ = _; rfl) | with_reducible apply Writes.put_cores

theorem State.tagPop_writes {s : State} {x1} : Writes [Reg.perfTagStatus 0] s (State.tagPop s x1) := by
  unfold State.tagPop; repeat' first
      | with_reducible exact Writes.refl | with_reducible apply Writes.ite | with_reducible apply Writes.setF
      | with_reducible apply Reg.perfTagStatus_at | dsimp only [F.perfTagStatus_COUNT, F.perfTagStatus_OLDEST] | (show _ = _; rfl)

theorem State.mbPost_writes {s : State} {x1 x2} : Writes [Reg.perfWrapLo 0, Reg.perfWrapHi 0] s (State.mbPost s x1 x2) := by
  unfold State.mbPost; repeat' first
      | with_reducible exact Writes.refl | with_reducible apply Writes.kept State.modCore_kept
      | with_reducible apply Writes.step State.perf_writes | (show _ = _; rfl) | split

theorem State.localWrite_writes {s : State} {x1 x2 x3 x4} : Writes [Reg.perfWrapLo 0, Reg.perfWrapHi 0] s (State.localWrite s x1 x2 x3 x4) := by
  unfold State.localWrite; repeat' first
      | with_reducible exact Writes.refl | with_reducible apply Writes.ite | with_reducible apply Writes.kept State.evtRelease_kept
      | with_reducible apply Writes.kept State.modCore_kept | with_reducible apply Writes.kept State.coreKick_kept
      | with_reducible apply Writes.step State.mbPost_writes | with_reducible apply Writes.kept State.beatAck_kept | (show _ = _; rfl)

theorem State.setCoreState_writes {s : State} {x1 x2} : Writes [Reg.coreStatus 0] s (State.setCoreState s x1 x2) := by
  unfold State.setCoreState; repeat' first
      | with_reducible exact Writes.refl | with_reducible apply Writes.setF | with_reducible apply Writes.kept State.dogMark_kept
      | with_reducible apply Reg.coreStatus_at | dsimp only [F.coreStatus_STATE] | (show _ = _; rfl)

theorem State.coreStart_writes {s : State} {x1} : Writes [Reg.coreStatus 0] s (State.coreStart s x1) := by
  unfold State.coreStart; repeat' first
      | with_reducible exact Writes.refl | with_reducible apply Writes.step State.setCoreState_writes
      | with_reducible apply Writes.kept State.modCore_kept | (show _ = _; rfl) | split

theorem State.failParked_writes {s : State} :
    Writes [Reg.hostifCnt 0, Reg.ringStatus 0, Reg.ringDevIdx 0, Reg.msixPba 0, Reg.perfWrapLo 0, Reg.perfWrapHi 0] s (State.failParked s) := by
  unfold State.failParked; repeat' first
      | intro _ | with_reducible assumption | with_reducible exact Writes.refl | with_reducible apply State.each_writes
      | with_reducible apply Writes.step State.endParked_writes | (show _ = _; rfl)

theorem State.storeTrap_writes {s : State} {x1 x2 x3 x4} : Writes [Reg.coreStatus 0, Reg.coreTrapPc 0] s (State.storeTrap s x1 x2 x3 x4) := by
  unfold State.storeTrap; repeat' first
      | (extract_lets +onlyGivenNames v; apply Writes.gen (v := v); subst v; rotate_left; clear_value v; intro h; rotate_right)
      | with_reducible assumption | with_reducible exact Writes.refl | with_reducible apply Writes.setReg | with_reducible apply Writes.setF
      | with_reducible apply Writes.kept State.modCore_kept | with_reducible apply Reg.coreStatus_at | with_reducible apply Reg.coreTrapPc_at
      | dsimp only [F.coreStatus_CAUSE] | (show _ = _; rfl)

theorem State.chargeSlots_writes {s : State} {x1 x2} : Writes [Reg.perfWrapLo 0, Reg.perfWrapHi 0] s (State.chargeSlots s x1 x2) := by
  unfold State.chargeSlots; repeat' first
      | intro _ | (extract_lets +onlyGivenNames v; apply Writes.gen (v := v); subst v; rotate_left; clear_value v; intro h; rotate_right)
      | with_reducible assumption | with_reducible exact Writes.refl | with_reducible apply Writes.ite
      | with_reducible apply Writes.kept State.fresh_kept | with_reducible apply Writes.kept State.modCore_kept
      | with_reducible apply State.each_writes | with_reducible apply Writes.step State.perf_writes | (show _ = _; rfl)

theorem State.useSlot_writes {s : State} {x1 x2} : Writes [Reg.perfWrapLo 0, Reg.perfWrapHi 0] s (State.useSlot s x1 x2) := by
  unfold State.useSlot; repeat' first
      | with_reducible exact Writes.refl | with_reducible apply Writes.kept State.modCore_kept
      | with_reducible apply Writes.step State.perf_writes | with_reducible apply Writes.step State.chargeSlots_writes | (show _ = _; rfl)

theorem State.tagDone_writes {s : State} {x1 x2 x3 x4 x5} :
    Writes [Reg.perfTagStatus 0, Reg.perfTagRec 0 0] s (State.tagDone s x1 x2 x3 x4 x5) := by
  unfold State.tagDone; repeat' first
      | intro _ | (extract_lets +onlyGivenNames v; apply Writes.gen (v := v); subst v; rotate_left; clear_value v; intro h; rotate_right)
      | with_reducible assumption | with_reducible exact Writes.refl | with_reducible apply Writes.setReg
      | with_reducible apply Writes.kept State.fresh_kept | with_reducible apply Writes.setF
      | with_reducible apply Writes.kept State.modCore_kept | with_reducible apply State.each_writes | with_reducible apply Reg.perfTagRec_at
      | with_reducible apply Reg.perfTagStatus_at | dsimp only [F.perfTagStatus_COUNT] | (show _ = _; rfl) | split

theorem State.squash_writes {s : State} {x1 x2 x3 x4} :
    Writes [Reg.perfWrapLo 0, Reg.perfWrapHi 0, Reg.perfTagStatus 0, Reg.perfTagRec 0 0] s (State.squash s x1 x2 x3 x4) := by
  unfold State.squash; repeat' first
      | with_reducible exact Writes.refl | with_reducible apply Writes.step State.useSlot_writes
      | with_reducible apply Writes.step State.tagDone_writes | (show _ = _; rfl)

theorem State.tagExpire_writes {s : State} {x1} : Writes [Reg.perfWrapLo 0, Reg.perfWrapHi 0] s (State.tagExpire s x1) := by
  unfold State.tagExpire; repeat' first
      | (extract_lets +onlyGivenNames v; apply Writes.gen (v := v); subst v; rotate_left; clear_value v; intro h; rotate_right)
      | with_reducible assumption | with_reducible exact Writes.refl | with_reducible apply Writes.kept State.modCore_kept
      | with_reducible apply Writes.step State.perf_writes | with_reducible apply Writes.kept State.tagLoad_kept | (show _ = _; rfl) | split

theorem State.tagEnter_writes {s : State} {x1} : Writes [Reg.perfWrapLo 0, Reg.perfWrapHi 0] s (State.tagEnter s x1) := by
  unfold State.tagEnter; repeat' first
      | (extract_lets +onlyGivenNames v; apply Writes.gen (v := v); subst v; rotate_left; clear_value v; intro h; rotate_right)
      | with_reducible assumption | with_reducible exact Writes.refl | with_reducible apply Writes.kept State.modCore_kept
      | with_reducible apply Writes.step State.tagExpire_writes | (show _ = _; rfl) | split

theorem State.slotFor_writes {s : State} {x1} :
    Writes [Reg.tbSnapCtrl, Reg.tbIncrLo 0, Reg.tbIncrHi 0, Reg.tbSnapFrac 0, Reg.tbSnapNs 0, Reg.tbSnapSecLo 0,
    Reg.tbSnapSecHi 0] s (State.slotFor s x1) := by
  unfold State.slotFor; repeat' first
      | with_reducible exact Writes.refl | with_reducible apply Writes.step State.reachTick_writes | (show _ = _; rfl) | split

theorem State.issue_writes {R : List Nat} {s t : State} {x1 x2} (g : ∀ v, Writes R s v → Writes R s (x2 v)) (hs : [Reg.perfWrapLo 0, Reg.perfWrapHi 0, Reg.tbSnapCtrl, Reg.tbIncrLo 0, Reg.tbIncrHi 0, Reg.tbSnapFrac 0, Reg.tbSnapNs 0, Reg.tbSnapSecLo 0, Reg.tbSnapSecHi 0].all R.contains = true) (h :
    Writes R s t) :
    Writes R s (State.issue t x1 x2) := by
  unfold State.issue; repeat' first
      | (extract_lets +onlyGivenNames v; apply Writes.gen (v := v); subst v; rotate_left; clear_value v; intro h; rotate_right)
      | with_reducible apply Writes.step State.tagEnter_writes | with_reducible apply Writes.step State.slotFor_writes
      | with_reducible assumption | exact List.all_trans (by decide) hs | with_reducible apply g | split

theorem State.powered_writes {s : State} {x1} : Writes [Reg.bankCtrl 0] s (State.powered s x1) := by
  unfold State.powered; repeat' first
      | (extract_lets +onlyGivenNames v; apply Writes.gen (v := v); subst v; rotate_left; clear_value v; intro h; rotate_right)
      | with_reducible assumption | with_reducible exact Writes.refl | with_reducible apply Writes.setF | with_reducible apply Reg.bankCtrl_at
      | dsimp only [F.bankCtrl_POWER_STATE] | (show _ = _; rfl) | split | with_reducible apply Writes.put_cores

theorem State.handed_writes {s : State} {x1} : Writes [Reg.bankCtrl 0, Reg.quad 0] s (State.handed s x1) := by
  unfold State.handed; repeat' first
      | (extract_lets +onlyGivenNames v; apply Writes.gen (v := v); subst v; rotate_left; clear_value v; intro h; rotate_right)
      | with_reducible assumption | with_reducible exact Writes.refl | with_reducible apply Writes.ite | with_reducible apply Writes.setF
      | with_reducible apply Writes.step State.showIlv_writes | with_reducible apply Reg.bankCtrl_at | with_reducible apply Reg.quad_at
      | dsimp only [F.bankCtrl_OWNER, F.bankCtrl_PENDING, F.quad_NEXT] | (show _ = _; rfl) | with_reducible apply Writes.put_cores

theorem State.takeInt_writes {s : State} {x1 x2} :
    Writes [Reg.coreStatus 0, Reg.coreTrapPc 0, Reg.perfWrapLo 0, Reg.perfWrapHi 0] s (State.takeInt s x1 x2) := by
  unfold State.takeInt; repeat' first
      | intro _ | (extract_lets +onlyGivenNames v; apply Writes.gen (v := v); subst v; rotate_left; clear_value v; intro h; rotate_right)
      | (extract_lets +onlyGivenNames v; apply Writes.gen (v := v.1); subst v; rotate_left; clear_value v; intro h; rotate_right)
      | (extract_lets +onlyGivenNames v; have q : _ → State := v; clear q; subst v)
      | (extract_lets +onlyGivenNames v; have q : State → _ → State := v; clear q; subst v)
      | (extract_lets +onlyGivenNames v; have q : Nat := v; clear q; subst v)
      | (extract_lets +onlyGivenNames v; have q : Fld := v; clear q; subst v) | (extract_lets +onlyGivenNames v; clear_value v)
      | with_reducible assumption | with_reducible exact Writes.refl | with_reducible apply Writes.ite | with_reducible apply Writes.foldlFst
      | with_reducible apply Writes.kept State.fresh_kept | with_reducible apply Writes.kept State.modCore_kept
      | with_reducible apply Writes.step State.perf_writes | with_reducible apply Writes.step State.storeTrap_writes | (show _ = _; rfl)
      | (with_reducible apply Writes.fst (by assumption)) | split

theorem State.timeWrap_writes {s : State} {x1 x2} : Writes [Reg.perfWrapLo 0] s (State.timeWrap s x1 x2) := by
  unfold State.timeWrap; repeat' first
      | (extract_lets +onlyGivenNames v; apply Writes.gen (v := v); subst v; rotate_left; clear_value v; intro h; rotate_right)
      | with_reducible assumption | with_reducible exact Writes.refl | with_reducible apply Writes.ite | with_reducible apply Writes.setReg
      | with_reducible apply Writes.kept State.modCore_kept | with_reducible apply Writes.kept State.raiseInt_kept
      | with_reducible apply Reg.perfWrapLo_at | (show _ = _; rfl)

end Sys2Proof.Machine
end

