-- ==== Sys2Proof/Laws/WritesCoreRows.lean ====
section
/-!
SUPPORT. Sys2Proof/Laws/WritesCoreRows.lean: which registers each operation of Machine/CoreRows.lean may change.
-/
namespace Sys2Proof.Machine
open Sys2Proof

theorem execQuadHandover_writes {s : State} {x0 x1 x2} {t} (h : execQuadHandover x0 x1 x2 s = .next t) :
    Writes [Reg.bankCtrl 0, Reg.quad 0, Reg.membankStatus] s t := by
  unfold execQuadHandover at h; injection h with h; subst h; repeat' first
      | with_reducible exact Writes.refl | with_reducible apply Writes.step State.quadWrite_writes | (show _ = _; rfl) | split

theorem execBankHandoverDone_writes {s : State} {x0} {t} (h : execBankHandoverDone x0 s = .next t) : Writes [Reg.bankCtrl 0, Reg.quad 0] s t := by
  unfold execBankHandoverDone at h; injection h with h; subst h; repeat' first
      | with_reducible exact Writes.refl | with_reducible apply Writes.step State.handed_writes | (show _ = _; rfl) | split

theorem execBankHandover_writes {s : State} {x0 x1 x2} {t} (h : execBankHandover x0 x1 x2 s = .next t) :
    Writes [Reg.bankCtrl 0, Reg.quad 0, Reg.membankStatus] s t := by
  unfold execBankHandover at h; injection h with h; subst h; repeat' first
      | with_reducible exact Writes.refl | with_reducible apply Writes.step State.bankCtrlWrite_writes | (show _ = _; rfl) | split

theorem execTagCountdown_writes {s : State} {x0} {t} (h : execTagCountdown x0 s = .next t) : Writes [Reg.perfWrapLo 0, Reg.perfWrapHi 0] s t := by
  unfold execTagCountdown at h; injection h with h; subst h; repeat' first
      | with_reducible exact Writes.refl | with_reducible apply Writes.step State.tagExpire_writes | (show _ = _; rfl) | split

theorem execBankPowerReached_writes {s : State} {x0} {t} (h : execBankPowerReached x0 s = .next t) : Writes [Reg.bankCtrl 0] s t := by
  unfold execBankPowerReached at h; injection h with h; subst h; repeat' first
      | with_reducible exact Writes.refl | with_reducible apply Writes.step State.powered_writes | (show _ = _; rfl) | split

theorem execMbPost_writes {s : State} {x0 x1} {t} (h : execMbPost x0 x1 s = .next t) : Writes [Reg.perfWrapLo 0, Reg.perfWrapHi 0] s t := by
  unfold execMbPost at h; injection h with h; subst h; repeat' first
      | with_reducible exact Writes.refl | with_reducible apply Writes.step State.mbPost_writes | (show _ = _; rfl) | split

theorem execMemCopy_writes {s : State} {x0 x1 x2} {t} (h : execMemCopy x0 x1 x2 s = .next t) :
    Writes [Reg.hostifCnt 0, Reg.ringStatus 0, Reg.ringDevIdx 0, Reg.ringLoss 0, Reg.msixPba 0, Reg.bankEcc 0, Reg.perfWrapLo 0,
    Reg.perfWrapHi 0] s t := by
  unfold execMemCopy at h; injection h with h; subst h; repeat' first
      | intro _ | (extract_lets +onlyGivenNames v; apply Writes.gen (v := v.1); subst v; rotate_left; clear_value v; intro h; rotate_right)
      | with_reducible assumption | with_reducible exact Writes.refl | with_reducible apply State.start_writes
      | with_reducible apply Writes.kept State.bufWrite_kept | with_reducible apply Writes.step State.complete_writes
      | with_reducible apply Writes.step State.eccBank_writes | with_reducible apply Writes.kept State.memWrite_kept | (show _ = _; rfl) | split

theorem execTagPop_writes {s : State} {x0} {t} (h : execTagPop x0 s = .next t) : Writes [Reg.perfTagStatus 0] s t := by
  unfold execTagPop at h; injection h with h; subst h; repeat' first
      | with_reducible exact Writes.refl | with_reducible apply Writes.step State.tagPop_writes | (show _ = _; rfl) | split

theorem execPerfWrap_writes {s : State} {x0 x1} {t} (h : execPerfWrap x0 x1 s = .next t) : Writes [Reg.perfWrapLo 0, Reg.perfWrapHi 0] s t := by
  unfold execPerfWrap at h; injection h with h; subst h; repeat' first
      | with_reducible exact Writes.refl | with_reducible apply Writes.step State.timeWrap_writes | (show _ = _; rfl) | split

theorem execBankPower_writes {s : State} {x0 x1 x2} {t} (h : execBankPower x0 x1 x2 s = .next t) :
    Writes [Reg.bankCtrl 0, Reg.quad 0, Reg.membankStatus] s t := by
  unfold execBankPower at h; injection h with h; subst h; repeat' first
      | with_reducible exact Writes.refl | with_reducible apply Writes.step State.bankCtrlWrite_writes | (show _ = _; rfl) | split

end Sys2Proof.Machine
end

