-- ==== Sys2Proof/Laws/WritesServo.lean ====
section
/-!
SUPPORT. Sys2Proof/Laws/WritesServo.lean: which registers each operation of Machine/Servo.lean may change.
-/
namespace Sys2Proof.Machine
open Sys2Proof

theorem State.showReady_writes {s : State} {x1} : Writes [Reg.slotStatus 0] s (State.showReady s x1) := by
  unfold State.showReady; repeat' first
      | with_reducible exact Writes.refl | with_reducible apply Writes.setF | with_reducible apply Reg.slotStatus_at
      | dsimp only [F.slotStatus_READY, F.slotStatus_RECOVERING] | (show _ = _; rfl)

theorem State.goSlot_writes {s : State} {x1 x2 x3 x4} :
    Writes [Reg.ringStatus 0, Reg.ringDevIdx 0, Reg.ringLoss 0, Reg.msixPba 0, Reg.perfWrapLo 0, Reg.perfWrapHi 0,
    Reg.slotStatus 0] s (State.goSlot s x1 x2 x3 x4) := by
  unfold State.goSlot; repeat' first
      | (extract_lets +onlyGivenNames v; apply Writes.gen (v := v); subst v; rotate_left; clear_value v; intro h; rotate_right)
      | with_reducible assumption | with_reducible exact Writes.refl | with_reducible apply Writes.setF
      | with_reducible apply Writes.kept State.modSlot_kept | with_reducible apply Writes.step State.raise_writes
      | with_reducible apply Writes.step State.showReady_writes | with_reducible apply State.when_writes
      | with_reducible apply Reg.slotStatus_at | dsimp only [F.slotStatus_CAUSE, F.slotStatus_MAY_STEP, F.slotStatus_STATE] | (show _ = _; rfl)
      | split

theorem State.loseSlot_writes {s : State} {x1 x2} :
    Writes [Reg.ringStatus 0, Reg.ringDevIdx 0, Reg.ringLoss 0, Reg.msixPba 0, Reg.perfWrapLo 0, Reg.perfWrapHi 0,
    Reg.slotStatus 0] s (State.loseSlot s x1 x2) := by
  unfold State.loseSlot; repeat' first
      | with_reducible exact Writes.refl | with_reducible apply Writes.kept State.modSlot_kept
      | with_reducible apply Writes.step State.goSlot_writes | (show _ = _; rfl) | split

theorem State.slotUnfed_writes {s : State} {x1} :
    Writes [Reg.ringStatus 0, Reg.ringDevIdx 0, Reg.ringLoss 0, Reg.msixPba 0, Reg.perfWrapLo 0, Reg.perfWrapHi 0,
    Reg.slotStatus 0] s (State.slotUnfed s x1) := by
  unfold State.slotUnfed; repeat' first
      | with_reducible exact Writes.refl | with_reducible apply Writes.step State.loseSlot_writes
      | with_reducible apply Writes.step State.showReady_writes | (show _ = _; rfl) | split

theorem State.goSess_writes {s : State} {x1 x2 x3} :
    Writes [Reg.ringStatus 0, Reg.ringDevIdx 0, Reg.ringLoss 0, Reg.msixPba 0, Reg.perfWrapLo 0, Reg.perfWrapHi 0,
    Reg.slotStatus 0] s (State.goSess s x1 x2 x3) := by
  unfold State.goSess; repeat' first
      | (extract_lets +onlyGivenNames v; apply Writes.gen (v := v); subst v; rotate_left; clear_value v; intro h; rotate_right)
      | with_reducible assumption | with_reducible exact Writes.refl | with_reducible apply Writes.ite
      | with_reducible apply Writes.kept State.modSess_kept | with_reducible apply Writes.step State.slotUnfed_writes
      | with_reducible apply Writes.step State.raise_writes | with_reducible apply Writes.step State.showReady_writes | (show _ = _; rfl) | split

theorem State.asymEff_writes {s : State} {x1 x2 x3} :
    Writes [Reg.linkCfg 0, Reg.linkRtF 0, Reg.linkAsymEffLo 0, Reg.linkAsymEffHi 0] s (State.asymEff s x1 x2 x3).1 := by
  unfold State.asymEff; repeat' first
      | (extract_lets +onlyGivenNames v; have q : Nat := v; clear q; subst v) | with_reducible exact Writes.refl
      | with_reducible apply Writes.setReg | with_reducible apply Writes.setF | with_reducible apply State.when_writes
      | with_reducible apply Reg.linkAsymEffHi_at | with_reducible apply Reg.linkAsymEffLo_at | with_reducible apply Reg.linkCfg_at
      | with_reducible apply Reg.linkRtF_at | dsimp only [F.linkCfg_NEG_RT] | (show _ = _; rfl) | split

theorem State.exchange_writes {s : State} {x1 x2 x3 x4 x5} :
    Writes [Reg.ringStatus 0, Reg.ringDevIdx 0, Reg.ringLoss 0, Reg.msixPba 0, Reg.perfWrapLo 0, Reg.perfWrapHi 0, Reg.linkCfg 0, Reg.linkRtF 0,
    Reg.linkAsymEffLo 0, Reg.linkAsymEffHi 0, Reg.slotStatus 0] s (State.exchange s x1 x2 x3 x4 x5) := by
  unfold State.exchange; repeat' first
      | (extract_lets +onlyGivenNames v; apply Writes.gen (v := v); subst v; rotate_left; clear_value v; intro h; rotate_right)
      | (extract_lets +onlyGivenNames v; apply Writes.gen (v := v.1); subst v; rotate_left; clear_value v; intro h; rotate_right)
      | (extract_lets +onlyGivenNames v; clear_value v) | with_reducible assumption | with_reducible exact Writes.refl
      | with_reducible apply Writes.step State.goSess_writes | with_reducible apply Writes.kept State.modSess_kept
      | with_reducible apply Writes.kept State.modSlot_kept | with_reducible apply Writes.step State.asymEff_writes | (show _ = _; rfl) | split

theorem State.klWindow_writes {s : State} {x1} :
    Writes [Reg.ringStatus 0, Reg.ringDevIdx 0, Reg.ringLoss 0, Reg.msixPba 0, Reg.perfWrapLo 0, Reg.perfWrapHi 0, Reg.linkCfg 0, Reg.linkRtF 0,
    Reg.linkAsymEffLo 0, Reg.linkAsymEffHi 0, Reg.slotStatus 0] s (State.klWindow s x1) := by
  unfold State.klWindow; repeat' first
      | (extract_lets +onlyGivenNames v; apply Writes.gen (v := v); subst v; rotate_left; clear_value v; intro h; rotate_right)
      | (extract_lets +onlyGivenNames v; clear_value v) | with_reducible assumption | with_reducible exact Writes.refl
      | with_reducible apply Writes.kept State.modSess_kept | with_reducible apply Writes.step State.exchange_writes
      | with_reducible apply Writes.kept State.queueOwn_kept | with_reducible apply Writes.kept State.modKl_kept | (show _ = _; rfl) | split

theorem State.slotLoop_writes {s : State} {x1 x2 x3} :
    Writes [Reg.ringStatus 0, Reg.ringDevIdx 0, Reg.ringLoss 0, Reg.msixPba 0, Reg.perfWrapLo 0, Reg.perfWrapHi 0, Reg.tbClamp, Reg.tbIncrLo 0,
    Reg.tbIncrHi 0, Reg.slotStatus 0] s (State.slotLoop s x1 x2 x3) := by
  unfold State.slotLoop; repeat' first
      | (extract_lets +onlyGivenNames v; apply Writes.gen (v := v); subst v; rotate_left; clear_value v; intro h; rotate_right)
      | with_reducible assumption | with_reducible exact Writes.refl | with_reducible apply Writes.setF
      | with_reducible apply Writes.step State.setIncr_writes | with_reducible apply Writes.kept State.addVal_kept
      | with_reducible apply Writes.kept State.modSlot_kept | with_reducible apply Reg.slotStatus_at | dsimp only [F.slotStatus_CLAMPED]
      | (show _ = _; rfl) | split

theorem State.peerDelay_writes {s : State} {x1} :
    Writes [Reg.linkCfg 0, Reg.linkRtF 0, Reg.linkAsymEffLo 0, Reg.linkAsymEffHi 0] s (State.peerDelay s x1).1 := by
  unfold State.peerDelay; repeat' first
      | (extract_lets +onlyGivenNames v; apply Writes.gen (v := v.1); subst v; rotate_left; clear_value v; intro h; rotate_right)
      | (extract_lets +onlyGivenNames v; clear_value v) | with_reducible assumption | with_reducible exact Writes.refl
      | with_reducible apply Writes.step State.asymEff_writes | (show _ = _; rfl) | split

theorem State.ptpLeft_writes {s : State} {x1 x2 x3} :
    Writes [Reg.ringStatus 0, Reg.ringDevIdx 0, Reg.ringLoss 0, Reg.msixPba 0, Reg.perfWrapLo 0, Reg.perfWrapHi 0,
    Reg.slotStatus 0] s (State.ptpLeft s x1 x2 x3) := by
  unfold State.ptpLeft; repeat' first
      | with_reducible exact Writes.refl | with_reducible apply Writes.ite | with_reducible apply Writes.step State.goSess_writes
      | with_reducible apply Writes.kept State.modSess_kept | with_reducible apply Writes.kept State.queuePtp_kept | (show _ = _; rfl)

theorem State.ownSent_writes {s : State} {x1 x2 x3} :
    Writes [Reg.ringStatus 0, Reg.ringDevIdx 0, Reg.ringLoss 0, Reg.msixPba 0, Reg.perfWrapLo 0, Reg.perfWrapHi 0,
    Reg.slotStatus 0] s (State.ownSent s x1 x2 x3) := by
  unfold State.ownSent; repeat' first
      | (extract_lets +onlyGivenNames v; apply Writes.gen (v := v); subst v; rotate_left; clear_value v; intro h; rotate_right)
      | with_reducible assumption | with_reducible exact Writes.refl | with_reducible apply Writes.kept State.noteStamp_kept
      | with_reducible apply Writes.kept State.countPort_kept | with_reducible apply Writes.step State.ptpLeft_writes
      | with_reducible apply State.when_writes | with_reducible apply Writes.kept State.send_kept | (show _ = _; rfl)
      | (with_reducible apply Writes.fst (by assumption)) | split

theorem State.syncDone_writes {s : State} {x1 x2} :
    Writes [Reg.ringStatus 0, Reg.ringDevIdx 0, Reg.ringLoss 0, Reg.msixPba 0, Reg.perfWrapLo 0, Reg.perfWrapHi 0, Reg.linkCfg 0, Reg.linkRtF 0,
    Reg.linkAsymEffLo 0, Reg.linkAsymEffHi 0, Reg.slotStatus 0] s (State.syncDone s x1 x2) := by
  unfold State.syncDone; repeat' first
      | (extract_lets +onlyGivenNames v; apply Writes.gen (v := v); subst v; rotate_left; clear_value v; intro h; rotate_right)
      | with_reducible assumption | with_reducible exact Writes.refl | with_reducible apply Writes.ite
      | with_reducible apply Writes.kept State.modSess_kept | with_reducible apply Writes.step State.exchange_writes | (show _ = _; rfl) | split

theorem State.rxFollowUp_writes {s : State} {x1 x2} :
    Writes [Reg.ringStatus 0, Reg.ringDevIdx 0, Reg.ringLoss 0, Reg.msixPba 0, Reg.perfWrapLo 0, Reg.perfWrapHi 0, Reg.linkCfg 0, Reg.linkRtF 0,
    Reg.linkAsymEffLo 0, Reg.linkAsymEffHi 0, Reg.slotStatus 0] s (State.rxFollowUp s x1 x2) := by
  unfold State.rxFollowUp; repeat' first
      | with_reducible exact Writes.refl | with_reducible apply Writes.kept State.modSess_kept
      | with_reducible apply Writes.step State.syncDone_writes | (show _ = _; rfl) | split

theorem State.sessApply_writes {s : State} {x1} :
    Writes [Reg.ringStatus 0, Reg.ringDevIdx 0, Reg.ringLoss 0, Reg.msixPba 0, Reg.perfWrapLo 0, Reg.perfWrapHi 0,
    Reg.slotStatus 0] s (State.sessApply s x1) := by
  unfold State.sessApply; repeat' first
      | (extract_lets +onlyGivenNames v; apply Writes.gen (v := v); subst v; rotate_left; clear_value v; intro h; rotate_right)
      | with_reducible assumption | with_reducible exact Writes.refl | with_reducible apply Writes.ite
      | with_reducible apply Writes.step State.goSess_writes | with_reducible apply Writes.kept State.modSess_kept
      | with_reducible apply Writes.step State.slotUnfed_writes | with_reducible apply Writes.kept State.dropSamples_kept
      | with_reducible apply Writes.step State.showReady_writes | (show _ = _; rfl) | split

theorem State.sessGone_writes {s : State} :
    Writes [Reg.ringStatus 0, Reg.ringDevIdx 0, Reg.ringLoss 0, Reg.msixPba 0, Reg.perfWrapLo 0, Reg.perfWrapHi 0,
    Reg.slotStatus 0] s (State.sessGone s) := by
  unfold State.sessGone; repeat' first
      | intro _ | (extract_lets +onlyGivenNames v; apply Writes.gen (v := v); subst v; rotate_left; clear_value v; intro h; rotate_right)
      | with_reducible assumption | with_reducible exact Writes.refl | with_reducible apply Writes.step State.goSess_writes
      | with_reducible apply Writes.kept State.modSess_kept | with_reducible apply Writes.kept State.dropSamples_kept
      | with_reducible apply State.each_writes | (show _ = _; rfl)

theorem State.slotConfig_writes {s : State} {x1 x2 x3} :
    Writes [Reg.ringStatus 0, Reg.ringDevIdx 0, Reg.ringLoss 0, Reg.msixPba 0, Reg.perfWrapLo 0, Reg.perfWrapHi 0,
    Reg.slotStatus 0] s (State.slotConfig s x1 x2 x3) := by
  unfold State.slotConfig; repeat' first
      | (extract_lets +onlyGivenNames v; apply Writes.gen (v := v); subst v; rotate_left; clear_value v; intro h; rotate_right)
      | with_reducible assumption | with_reducible exact Writes.refl | with_reducible apply Writes.setF
      | with_reducible apply Writes.kept State.modSlot_kept | with_reducible apply Writes.step State.goSlot_writes
      | with_reducible apply Reg.slotStatus_at | dsimp only [F.slotStatus_MAY_STEP] | (show _ = _; rfl) | split

theorem State.slotCoefs_writes {s : State} {x1} : Writes [Reg.slotCfg 0] s (State.slotCoefs s x1) := by
  unfold State.slotCoefs; repeat' first
      | with_reducible exact Writes.refl | with_reducible apply Writes.setF | with_reducible apply Writes.kept State.modSlot_kept
      | with_reducible apply Reg.slotCfg_at | dsimp only [F.slotCfg_UPD] | (show _ = _; rfl)

theorem State.slotWritten_writes {s : State} {x1 x2} :
    Writes [Reg.ringStatus 0, Reg.ringDevIdx 0, Reg.ringLoss 0, Reg.msixPba 0, Reg.perfWrapLo 0, Reg.perfWrapHi 0,
    Reg.slotStatus 0] s (State.slotWritten s x1 x2) := by
  unfold State.slotWritten; repeat' first
      | intro _ | (extract_lets +onlyGivenNames v; apply Writes.gen (v := v); subst v; rotate_left; clear_value v; intro h; rotate_right)
      | with_reducible assumption | with_reducible exact Writes.refl | with_reducible apply Writes.setF
      | with_reducible apply Writes.kept State.modSlot_kept | with_reducible apply State.each_writes
      | with_reducible apply Writes.step State.goSlot_writes | with_reducible apply Reg.slotStatus_at | dsimp only [F.slotStatus_MAY_STEP]
      | (show _ = _; rfl) | split

theorem State.slotTrack_writes {s : State} {x1 x2 x3} :
    Writes [Reg.ringStatus 0, Reg.ringDevIdx 0, Reg.ringLoss 0, Reg.msixPba 0, Reg.perfWrapLo 0, Reg.perfWrapHi 0, Reg.tbClamp, Reg.tbIncrLo 0,
    Reg.tbIncrHi 0, Reg.slotStatus 0] s (State.slotTrack s x1 x2 x3) := by
  unfold State.slotTrack; repeat' first
      | (extract_lets +onlyGivenNames v; apply Writes.gen (v := v); subst v; rotate_left; clear_value v; intro h; rotate_right)
      | with_reducible assumption | with_reducible exact Writes.refl | with_reducible apply Writes.ite
      | with_reducible apply Writes.kept State.candSample_kept | with_reducible apply Writes.setF
      | with_reducible apply Writes.kept State.addVal_kept | with_reducible apply Writes.kept State.modSlot_kept
      | with_reducible apply Writes.step State.slotLoop_writes | with_reducible apply Writes.step State.goSlot_writes
      | with_reducible apply Reg.slotStatus_at | dsimp only [F.slotStatus_MAY_STEP] | (show _ = _; rfl)

theorem State.showOffset_writes {s : State} {x1 x2 x3 x4} :
    Writes [Reg.slotStatus 0, Reg.slotOfsLo 0, Reg.slotOfsHi 0] s (State.showOffset s x1 x2 x3 x4) := by
  unfold State.showOffset; repeat' first
      | (extract_lets +onlyGivenNames v; apply Writes.gen (v := v); subst v; rotate_left; clear_value v; intro h; rotate_right)
      | with_reducible assumption | with_reducible exact Writes.refl | with_reducible apply Writes.setReg | with_reducible apply Writes.setF
      | with_reducible apply Writes.kept State.modSlot_kept | with_reducible apply Reg.slotOfsHi_at | with_reducible apply Reg.slotOfsLo_at
      | with_reducible apply Reg.slotStatus_at | dsimp only [F.slotStatus_SAMPLES] | (show _ = _; rfl)

theorem State.slotPull_writes {s : State} {x1 x2} :
    Writes [Reg.ringStatus 0, Reg.ringDevIdx 0, Reg.ringLoss 0, Reg.msixPba 0, Reg.perfWrapLo 0, Reg.perfWrapHi 0, Reg.tbClamp, Reg.tbIncrLo 0,
    Reg.tbIncrHi 0] s (State.slotPull s x1 x2) := by
  unfold State.slotPull; repeat' first
      | with_reducible exact Writes.refl | with_reducible apply Writes.step State.setIncr_writes | (show _ = _; rfl)

theorem State.slotUpdate_writes {s : State} {x1 x2 x3 x4} :
    Writes [Reg.ringStatus 0, Reg.ringDevIdx 0, Reg.ringLoss 0, Reg.msixPba 0, Reg.perfWrapLo 0, Reg.perfWrapHi 0, Reg.tbClamp, Reg.tbIncrLo 0,
    Reg.tbIncrHi 0, Reg.slotOutlier 0, Reg.slotStatus 0, Reg.slotOfsLo 0, Reg.slotOfsHi 0] s (State.slotUpdate s x1 x2 x3 x4) := by
  unfold State.slotUpdate; repeat' first
      | intro _ | (extract_lets +onlyGivenNames v; apply Writes.gen (v := v); subst v; rotate_left; clear_value v; intro h; rotate_right)
      | with_reducible assumption | with_reducible exact Writes.refl | with_reducible apply Writes.step State.slotTrack_writes
      | with_reducible apply Writes.step State.showOffset_writes | with_reducible apply Writes.kept State.candSample_kept
      | with_reducible apply Writes.bump | with_reducible apply Writes.step State.loseSlot_writes
      | with_reducible apply Writes.step State.setIncr_writes | with_reducible apply Writes.kept State.modSlot_kept
      | with_reducible apply Writes.step State.slotPull_writes | with_reducible apply Writes.step State.showReady_writes
      | with_reducible apply Writes.step State.goSlot_writes | with_reducible apply State.when_writes | with_reducible apply Reg.slotOutlier_at
      | dsimp only [F.slotOutlier_COUNT] | (show _ = _; rfl) | split

theorem State.slotSwitch_writes {s : State} {x1} :
    Writes [Reg.ringStatus 0, Reg.ringDevIdx 0, Reg.ringLoss 0, Reg.msixPba 0, Reg.perfWrapLo 0, Reg.perfWrapHi 0, Reg.tbClamp, Reg.tbIncrLo 0,
    Reg.tbIncrHi 0, Reg.slotStatus 0] s (State.slotSwitch s x1) := by
  unfold State.slotSwitch; repeat' first
      | (extract_lets +onlyGivenNames v; apply Writes.gen (v := v); subst v; rotate_left; clear_value v; intro h; rotate_right)
      | with_reducible assumption | with_reducible exact Writes.refl | with_reducible apply Writes.step State.setIncr_writes
      | with_reducible apply Writes.kept State.modSlot_kept | with_reducible apply Writes.step State.raise_writes
      | with_reducible apply Writes.step State.slotPull_writes | with_reducible apply Writes.step State.goSlot_writes
      | with_reducible apply State.when_writes | (show _ = _; rfl) | split

theorem State.showServo_writes {s : State} : Writes [Reg.servoStatus] s (State.showServo s) := by
  unfold State.showServo; repeat' first
      | with_reducible exact Writes.refl | with_reducible apply Writes.setF | with_reducible apply Reg.servoStatus_at
      | dsimp only [F.servoStatus_DUE, F.servoStatus_SERVED] | (show _ = _; rfl)

theorem State.rxSync_writes {s : State} {x1 x2} :
    Writes [Reg.ringStatus 0, Reg.ringDevIdx 0, Reg.ringLoss 0, Reg.msixPba 0, Reg.perfWrapLo 0, Reg.perfWrapHi 0, Reg.linkCfg 0, Reg.linkRtF 0,
    Reg.linkAsymEffLo 0, Reg.linkAsymEffHi 0, Reg.slotStatus 0] s (State.rxSync s x1 x2) := by
  unfold State.rxSync; repeat' first
      | (extract_lets +onlyGivenNames v; apply Writes.gen (v := v); subst v; rotate_left; clear_value v; intro h; rotate_right)
      | with_reducible assumption | with_reducible exact Writes.refl | with_reducible apply Writes.ite
      | with_reducible apply Writes.kept State.modSess_kept | with_reducible apply Writes.step State.syncDone_writes
      | with_reducible apply Writes.kept State.localStamp_kept | with_reducible apply Writes.kept State.excuse_kept | (show _ = _; rfl)
      | (with_reducible apply Writes.fst (by assumption)) | split

theorem State.newMpd_writes {s : State} {x1 x2 x3} :
    Writes [Reg.ringStatus 0, Reg.ringDevIdx 0, Reg.ringLoss 0, Reg.msixPba 0, Reg.perfWrapLo 0, Reg.perfWrapHi 0,
    Reg.slotStatus 0] s (State.newMpd s x1 x2 x3) := by
  unfold State.newMpd; repeat' first
      | (extract_lets +onlyGivenNames v; apply Writes.gen (v := v); subst v; rotate_left; clear_value v; intro h; rotate_right)
      | with_reducible assumption | with_reducible exact Writes.refl | with_reducible apply Writes.step State.goSess_writes
      | with_reducible apply Writes.kept State.modSess_kept | (show _ = _; rfl) | split

theorem State.rxDelayResp_writes {s : State} {x1 x2} :
    Writes [Reg.ringStatus 0, Reg.ringDevIdx 0, Reg.ringLoss 0, Reg.msixPba 0, Reg.perfWrapLo 0, Reg.perfWrapHi 0,
    Reg.slotStatus 0] s (State.rxDelayResp s x1 x2) := by
  unfold State.rxDelayResp; repeat' first
      | (extract_lets +onlyGivenNames v; apply Writes.gen (v := v); subst v; rotate_left; clear_value v; intro h; rotate_right)
      | with_reducible assumption | with_reducible exact Writes.refl | with_reducible apply Writes.step State.newMpd_writes
      | with_reducible apply Writes.kept State.closeReq_kept | with_reducible apply Writes.kept State.countResp_kept | (show _ = _; rfl) | split

theorem State.slotDeadline_writes {s : State} :
    Writes [Reg.globalLateFlags, Reg.globalLateCnt 0, Reg.ringStatus 0, Reg.ringDevIdx 0, Reg.ringLoss 0, Reg.msixPba 0, Reg.perfWrapLo 0,
    Reg.perfWrapHi 0, Reg.slotLate 0] s (State.slotDeadline s) := by
  unfold State.slotDeadline; repeat' first
      | intro _ | (extract_lets +onlyGivenNames v; apply Writes.gen (v := v); subst v; rotate_left; clear_value v; intro h; rotate_right)
      | with_reducible assumption | with_reducible exact Writes.refl | with_reducible apply Writes.bump
      | with_reducible apply Writes.kept State.modSess_kept | with_reducible apply Writes.step State.late_writes
      | with_reducible apply Writes.kept State.modSlot_kept | with_reducible apply State.each_writes | with_reducible apply Reg.slotLate_at
      | dsimp only [F.slotLate_COUNT] | (show _ = _; rfl) | split

theorem State.pdelayDone_writes {s : State} {x1 x2 x3 x4 x5 x6 x7} :
    Writes [Reg.ringStatus 0, Reg.ringDevIdx 0, Reg.ringLoss 0, Reg.msixPba 0, Reg.perfWrapLo 0, Reg.perfWrapHi 0,
    Reg.slotStatus 0] s (State.pdelayDone s x1 x2 x3 x4 x5 x6 x7) := by
  unfold State.pdelayDone; repeat' first
      | (extract_lets +onlyGivenNames v; apply Writes.gen (v := v); subst v; rotate_left; clear_value v; intro h; rotate_right)
      | with_reducible assumption | with_reducible exact Writes.refl | with_reducible apply Writes.step State.newMpd_writes
      | with_reducible apply Writes.kept State.modSess_kept | (show _ = _; rfl)

theorem State.rxPdelayResp_writes {s : State} {x1 x2} :
    Writes [Reg.ringStatus 0, Reg.ringDevIdx 0, Reg.ringLoss 0, Reg.msixPba 0, Reg.perfWrapLo 0, Reg.perfWrapHi 0,
    Reg.slotStatus 0] s (State.rxPdelayResp s x1 x2) := by
  unfold State.rxPdelayResp; repeat' first
      | with_reducible exact Writes.refl | with_reducible apply Writes.step State.pdelayDone_writes
      | with_reducible apply Writes.kept State.modSess_kept | with_reducible apply Writes.kept State.closeReq_kept
      | with_reducible apply Writes.kept State.localStamp_kept | with_reducible apply Writes.kept State.countResp_kept | (show _ = _; rfl)
      | (with_reducible apply Writes.fst (by assumption)) | split

theorem State.masterRank_writes {s : State} {x1 x2 x3} :
    Writes [Reg.perfWrapLo 0, Reg.perfWrapHi 0, Reg.redundCnt 0] s (State.masterRank s x1 x2 x3) := by
  unfold State.masterRank; repeat' first
      | (extract_lets +onlyGivenNames v; clear_value v) | with_reducible exact Writes.refl
      | with_reducible apply Writes.step State.pairWrite_writes | (show _ = _; rfl) | split

theorem State.rxPdelayFu_writes {s : State} {x1 x2} :
    Writes [Reg.ringStatus 0, Reg.ringDevIdx 0, Reg.ringLoss 0, Reg.msixPba 0, Reg.perfWrapLo 0, Reg.perfWrapHi 0,
    Reg.slotStatus 0] s (State.rxPdelayFu s x1 x2) := by
  unfold State.rxPdelayFu; repeat' first
      | with_reducible exact Writes.refl | with_reducible apply Writes.step State.pdelayDone_writes
      | with_reducible apply Writes.kept State.closeReq_kept | (show _ = _; rfl) | split

theorem State.sessRx_writes {s : State} {x1 x2 x3 x4} :
    Writes [Reg.ringStatus 0, Reg.ringDevIdx 0, Reg.ringLoss 0, Reg.msixPba 0, Reg.perfWrapLo 0, Reg.perfWrapHi 0, Reg.linkCfg 0, Reg.linkRtF 0,
    Reg.linkAsymEffLo 0, Reg.linkAsymEffHi 0, Reg.slotStatus 0] s (State.sessRx s x1 x2 x3 x4) := by
  unfold State.sessRx
  refine Writes.ite Writes.refl ?_
  have h : Writes [Reg.ringStatus 0, Reg.ringDevIdx 0, Reg.ringLoss 0, Reg.msixPba 0, Reg.perfWrapLo 0, Reg.perfWrapHi 0, Reg.linkCfg 0,
      Reg.linkRtF 0, Reg.linkAsymEffLo 0, Reg.linkAsymEffHi 0,
      Reg.slotStatus 0] s (s.verified x1 x2 x3 x4).1 := Writes.kept State.verified_kept rfl Writes.refl
  revert h
  generalize s.verified x1 x2 x3 x4 = p
  obtain ⟨u, b⟩ := p
  intro h
  cases b
  · exact h
  · dsimp only
    split
    · exact Writes.ite (Writes.step State.rxSync_writes rfl h) h
    · exact Writes.ite (Writes.step State.rxFollowUp_writes rfl h) h
    · exact Writes.ite (Writes.step State.rxDelayResp_writes rfl h) (Writes.kept State.countResp_kept rfl h)
    · exact Writes.ite (Writes.step State.rxPdelayResp_writes rfl h) (Writes.kept State.countResp_kept rfl h)
    · exact Writes.ite (Writes.step State.rxPdelayFu_writes rfl h) h
    · exact Writes.kept State.rxRequest_kept rfl h

theorem State.ptpRx_writes {s : State} {x1 x2 x3 x4} :
    Writes [Reg.ringStatus 0, Reg.ringDevIdx 0, Reg.ringLoss 0, Reg.msixPba 0, Reg.perfWrapLo 0, Reg.perfWrapHi 0, Reg.linkCfg 0, Reg.linkRtF 0,
    Reg.linkAsymEffLo 0, Reg.linkAsymEffHi 0, Reg.slotStatus 0, Reg.redundCnt 0] s (State.ptpRx s x1 x2 x3 x4) := by
  unfold State.ptpRx; repeat' first
      | with_reducible exact Writes.refl | with_reducible apply Writes.kept State.modSess_kept
      | with_reducible apply Writes.step State.sessRx_writes | with_reducible apply Writes.kept State.toPair_kept
      | with_reducible apply Writes.step State.masterRank_writes | with_reducible apply State.when_writes | (show _ = _; rfl) | split

end Sys2Proof.Machine
end

