-- ==== Sys2Proof/Laws/WritesRefs.lean ====
section
/-!
SUPPORT. Sys2Proof/Laws/WritesRefs.lean: which registers each operation of Machine/Refs.lean may change.
-/
namespace Sys2Proof.Machine
open Sys2Proof

theorem State.showHist_writes {s : State} {x1} : Writes [Reg.dpllStatus 0, Reg.dpllHistIncrLo 0, Reg.dpllHistIncrHi 0] s (State.showHist s x1) := by
  unfold State.showHist; repeat' first
      | (extract_lets +onlyGivenNames v; apply Writes.gen (v := v); subst v; rotate_left; clear_value v; intro h; rotate_right)
      | with_reducible assumption | with_reducible exact Writes.refl | with_reducible apply Writes.setReg | with_reducible apply Writes.setF
      | with_reducible apply Writes.kept State.modDpll_kept | with_reducible apply Reg.dpllHistIncrHi_at
      | with_reducible apply Reg.dpllHistIncrLo_at | with_reducible apply Reg.dpllStatus_at | dsimp only [F.dpllStatus_HIST_VALID]
      | (show _ = _; rfl) | split

theorem State.holdEvent_writes {s : State} {x1 x2} :
    Writes [Reg.ringStatus 0, Reg.ringDevIdx 0, Reg.ringLoss 0, Reg.msixPba 0, Reg.perfWrapLo 0, Reg.perfWrapHi 0] s (State.holdEvent s x1 x2) := by
  unfold State.holdEvent; repeat' first | with_reducible exact Writes.refl | with_reducible apply Writes.step State.raise_writes | (show _ = _; rfl)

theorem State.goDpll_writes {s : State} {x1 x2 x3 x4 x5 x6} :
    Writes [Reg.ringStatus 0, Reg.ringDevIdx 0, Reg.ringLoss 0, Reg.msixPba 0, Reg.perfWrapLo 0, Reg.perfWrapHi 0, Reg.dpllStatus 0,
    Reg.dpllHoTts 0, Reg.dpllHistIncrLo 0, Reg.dpllHistIncrHi 0] s (State.goDpll s x1 x2 x3 x4 x5 x6) := by
  unfold State.goDpll; repeat' first
      | (extract_lets +onlyGivenNames v; apply Writes.gen (v := v); subst v; rotate_left; clear_value v; intro h; rotate_right)
      | with_reducible assumption | with_reducible exact Writes.refl | with_reducible apply Writes.step State.showHist_writes
      | with_reducible apply Writes.setReg | with_reducible apply Writes.setF | with_reducible apply Writes.step State.holdEvent_writes
      | with_reducible apply Writes.step State.raise_writes | with_reducible apply State.when_writes
      | with_reducible apply Writes.kept State.modDpll_kept | with_reducible apply Reg.dpllHoTts_at | with_reducible apply Reg.dpllStatus_at
      | dsimp only [F.dpllStatus_HO_SPEC_EXCEEDED, F.dpllStatus_STATE] | (show _ = _; rfl) | split

theorem State.dpllStop_writes {s : State} {x1} :
    Writes [Reg.ringStatus 0, Reg.ringDevIdx 0, Reg.ringLoss 0, Reg.msixPba 0, Reg.perfWrapLo 0, Reg.perfWrapHi 0, Reg.dpllStatus 0,
    Reg.dpllHoTts 0, Reg.dpllHistIncrLo 0, Reg.dpllHistIncrHi 0] s (State.dpllStop s x1) := by
  unfold State.dpllStop; repeat' first
      | (extract_lets +onlyGivenNames v; apply Writes.gen (v := v); subst v; rotate_left; clear_value v; intro h; rotate_right)
      | with_reducible assumption | with_reducible exact Writes.refl | with_reducible apply Writes.step State.goDpll_writes
      | with_reducible apply Writes.setF | with_reducible apply Writes.kept State.modDpll_kept | with_reducible apply Reg.dpllStatus_at
      | dsimp only [F.dpllStatus_DISPUTED, F.dpllStatus_FORCE, F.dpllStatus_QUEUED, F.dpllStatus_SELECTED, F.dpllStatus_SEL_VALID]
      | (show _ = _; rfl) | split

theorem State.showPhase_writes {s : State} {x1 x2} : Writes [Reg.dpllPhaseLo 0, Reg.dpllPhaseHi 0] s (State.showPhase s x1 x2) := by
  unfold State.showPhase; repeat' first
      | with_reducible exact Writes.refl | with_reducible apply Writes.setReg | with_reducible apply Reg.dpllPhaseHi_at
      | with_reducible apply Reg.dpllPhaseLo_at | (show _ = _; rfl)

theorem State.dpllClose_writes {s : State} {x1 x2 x3} :
    Writes [Reg.ringStatus 0, Reg.ringDevIdx 0, Reg.ringLoss 0, Reg.msixPba 0, Reg.perfWrapLo 0, Reg.perfWrapHi 0, Reg.dpllStatus 0,
    Reg.dpllPhaseLo 0, Reg.dpllPhaseHi 0, Reg.dpllHoTts 0, Reg.dpllHistIncrLo 0, Reg.dpllHistIncrHi 0] s (State.dpllClose s x1 x2 x3) := by
  unfold State.dpllClose; repeat' first
      | (extract_lets +onlyGivenNames v; apply Writes.gen (v := v); subst v; rotate_left; clear_value v; intro h; rotate_right)
      | with_reducible assumption | with_reducible exact Writes.refl | with_reducible apply Writes.step State.goDpll_writes
      | with_reducible apply Writes.step State.showPhase_writes | with_reducible apply Writes.kept State.modDpll_kept | (show _ = _; rfl) | split

theorem State.markSel_writes {s : State} {x1 x2 x3} : Writes [Reg.candStatus 0] s (State.markSel s x1 x2 x3) := by
  unfold State.markSel; repeat' first
      | with_reducible exact Writes.refl | with_reducible apply Writes.setF | with_reducible apply Reg.candStatus_at
      | dsimp only [F.candStatus_SELECTED] | (show _ = _; rfl) | split

theorem State.dpllSelect_writes {s : State} {x1 x2 x3} :
    Writes [Reg.ringStatus 0, Reg.ringDevIdx 0, Reg.ringLoss 0, Reg.msixPba 0, Reg.perfWrapLo 0, Reg.perfWrapHi 0, Reg.candStatus 0,
    Reg.dpllStatus 0, Reg.dpllPhaseLo 0, Reg.dpllPhaseHi 0, Reg.dpllHoTts 0, Reg.dpllHistIncrLo 0,
    Reg.dpllHistIncrHi 0] s (State.dpllSelect s x1 x2 x3) := by
  unfold State.dpllSelect; repeat' first
      | (extract_lets +onlyGivenNames v; apply Writes.gen (v := v); subst v; rotate_left; clear_value v; intro h; rotate_right)
      | with_reducible assumption | with_reducible exact Writes.refl | with_reducible apply Writes.step State.goDpll_writes
      | with_reducible apply Writes.setF | with_reducible apply Writes.step State.dpllClose_writes
      | with_reducible apply Writes.step State.markSel_writes | with_reducible apply Writes.kept State.modDpll_kept
      | with_reducible apply Reg.dpllStatus_at | dsimp only [F.dpllStatus_SELECTED, F.dpllStatus_SEL_VALID] | (show _ = _; rfl) | split

theorem State.synEvent_writes {s : State} {x1 x2 x3} :
    Writes [Reg.ringStatus 0, Reg.ringDevIdx 0, Reg.ringLoss 0, Reg.msixPba 0, Reg.perfWrapLo 0,
    Reg.perfWrapHi 0] s (State.synEvent s x1 x2 x3) := by
  unfold State.synEvent; repeat' first | with_reducible exact Writes.refl | with_reducible apply Writes.step State.raise_writes | (show _ = _; rfl)

theorem State.synSearch_writes {s : State} {x1} :
    Writes [Reg.ringStatus 0, Reg.ringDevIdx 0, Reg.ringLoss 0, Reg.msixPba 0, Reg.perfWrapLo 0, Reg.perfWrapHi 0,
    Reg.synStatus 0] s (State.synSearch s x1) := by
  unfold State.synSearch; repeat' first
      | (extract_lets +onlyGivenNames v; apply Writes.gen (v := v); subst v; rotate_left; clear_value v; intro h; rotate_right)
      | with_reducible assumption | with_reducible exact Writes.refl | with_reducible apply Writes.setF
      | with_reducible apply Writes.step State.synEvent_writes | with_reducible apply Writes.kept State.modSyn_kept
      | with_reducible apply State.when_writes | with_reducible apply Reg.synStatus_at
      | dsimp only [F.synStatus_HELD, F.synStatus_LOCK, F.synStatus_SEARCH] | (show _ = _; rfl)

theorem State.synLoad_writes {s : State} {x1} :
    Writes [Reg.ringStatus 0, Reg.ringDevIdx 0, Reg.ringLoss 0, Reg.msixPba 0, Reg.perfWrapLo 0, Reg.perfWrapHi 0,
    Reg.synStatus 0] s (State.synLoad s x1) := by
  unfold State.synLoad; repeat' first
      | intro _ | (extract_lets +onlyGivenNames v; apply Writes.gen (v := v); subst v; rotate_left; clear_value v; intro h; rotate_right)
      | with_reducible assumption | with_reducible exact Writes.refl | with_reducible apply Writes.setF
      | with_reducible apply Writes.kept State.modClk_kept | with_reducible apply Writes.step State.synSearch_writes
      | with_reducible apply State.each_writes | with_reducible apply Writes.kept State.modSyn_kept | with_reducible apply Reg.synStatus_at
      | dsimp only [F.synStatus_CFG_ERR] | (show _ = _; rfl) | split

theorem State.dpllTake_writes {s : State} {x1} :
    Writes [Reg.hostifCnt 0, Reg.ringStatus 0, Reg.ringDevIdx 0, Reg.ringLoss 0, Reg.msixPba 0, Reg.perfWrapLo 0, Reg.perfWrapHi 0,
    Reg.candStatus 0, Reg.dpllStatus 0, Reg.dpllPhaseLo 0, Reg.dpllPhaseHi 0, Reg.dpllHoTts 0, Reg.dpllHistIncrLo 0,
    Reg.dpllHistIncrHi 0] s (State.dpllTake s x1) := by
  unfold State.dpllTake; repeat' first
      | intro _ | (extract_lets +onlyGivenNames v; apply Writes.gen (v := v); subst v; rotate_left; clear_value v; intro h; rotate_right)
      | with_reducible assumption | with_reducible exact Writes.refl | with_reducible apply Writes.ite
      | with_reducible apply Writes.step State.dpllSelect_writes | with_reducible apply State.each_writes
      | with_reducible apply Writes.step State.finish_writes | with_reducible apply Writes.kept State.modDpll_kept | (show _ = _; rfl) | split

theorem State.goCand_writes {s : State} {x1 x2 x3} :
    Writes [Reg.ringStatus 0, Reg.ringDevIdx 0, Reg.ringLoss 0, Reg.msixPba 0, Reg.perfWrapLo 0, Reg.perfWrapHi 0,
    Reg.candStatus 0] s (State.goCand s x1 x2 x3) := by
  unfold State.goCand; repeat' first
      | (extract_lets +onlyGivenNames v; apply Writes.gen (v := v); subst v; rotate_left; clear_value v; intro h; rotate_right)
      | with_reducible assumption | with_reducible exact Writes.refl | with_reducible apply Writes.kept State.modCand_kept
      | with_reducible apply Writes.setF | with_reducible apply Writes.step State.raise_writes | with_reducible apply Reg.candStatus_at
      | dsimp only [F.candStatus_STATE] | (show _ = _; rfl) | split

theorem State.candStart_writes {s : State} {x1 x2} :
    Writes [Reg.ringStatus 0, Reg.ringDevIdx 0, Reg.ringLoss 0, Reg.msixPba 0, Reg.perfWrapLo 0, Reg.perfWrapHi 0, Reg.candStatus 0,
    Reg.candFreq 0] s (State.candStart s x1 x2) := by
  unfold State.candStart; repeat' first
      | (extract_lets +onlyGivenNames v; apply Writes.gen (v := v); subst v; rotate_left; clear_value v; intro h; rotate_right)
      | with_reducible assumption | with_reducible exact Writes.refl | with_reducible apply Writes.setReg
      | with_reducible apply Writes.kept State.modCand_kept | with_reducible apply Writes.setF
      | with_reducible apply Writes.step State.goCand_writes | with_reducible apply Reg.candFreq_at | with_reducible apply Reg.candStatus_at
      | dsimp only [F.candStatus_LOA, F.candStatus_OUT_WINDOW, F.candStatus_TIMER_S] | (show _ = _; rfl)

theorem State.dpllDecide_writes {s : State} {x1} : Writes [Reg.dpllStatus 0] s (State.dpllDecide s x1) := by
  unfold State.dpllDecide; repeat' first
      | (extract_lets +onlyGivenNames v; apply Writes.gen (v := v); subst v; rotate_left; clear_value v; intro h; rotate_right)
      | with_reducible assumption | with_reducible exact Writes.refl | with_reducible apply Writes.setF
      | with_reducible apply Writes.kept State.modDpll_kept | with_reducible apply Reg.dpllStatus_at | dsimp only [F.dpllStatus_QUEUED]
      | (show _ = _; rfl) | split

theorem State.candNext_writes {s : State} {x1 x2} :
    Writes [Reg.ringStatus 0, Reg.ringDevIdx 0, Reg.ringLoss 0, Reg.msixPba 0, Reg.perfWrapLo 0, Reg.perfWrapHi 0,
    Reg.candStatus 0] s (State.candNext s x1 x2) := by
  unfold State.candNext; repeat' first
      | (extract_lets +onlyGivenNames v; have q : State → _ → State := v; clear q; subst v) | with_reducible exact Writes.refl
      | with_reducible apply Writes.kept State.modCand_kept | with_reducible apply Writes.setF
      | with_reducible apply Writes.step State.goCand_writes | with_reducible apply Reg.candStatus_at | dsimp only [F.candStatus_TIMER_S]
      | (show _ = _; rfl) | split

theorem State.candStop_writes {s : State} {x1} :
    Writes [Reg.ringStatus 0, Reg.ringDevIdx 0, Reg.ringLoss 0, Reg.msixPba 0, Reg.perfWrapLo 0, Reg.perfWrapHi 0,
    Reg.candStatus 0] s (State.candStop s x1) := by
  unfold State.candStop; repeat' first
      | with_reducible exact Writes.refl | with_reducible apply Writes.kept State.modCand_kept | with_reducible apply Writes.setF
      | with_reducible apply Writes.step State.goCand_writes | with_reducible apply Reg.candStatus_at | dsimp only [F.candStatus_TIMER_S]
      | (show _ = _; rfl)

theorem State.candEval_writes {s : State} {x1} :
    Writes [Reg.ringStatus 0, Reg.ringDevIdx 0, Reg.ringLoss 0, Reg.msixPba 0, Reg.perfWrapLo 0, Reg.perfWrapHi 0, Reg.candStatus 0,
    Reg.candFreq 0] s (State.candEval s x1) := by
  unfold State.candEval; repeat' first
      | (extract_lets +onlyGivenNames v; apply Writes.gen (v := v); subst v; rotate_left; clear_value v; intro h; rotate_right)
      | with_reducible assumption | with_reducible exact Writes.refl | with_reducible apply Writes.ite | with_reducible apply Writes.setReg
      | with_reducible apply Writes.kept State.modCand_kept | with_reducible apply Writes.setF
      | with_reducible apply Writes.step State.candStart_writes | with_reducible apply State.when_writes
      | with_reducible apply Writes.step State.candNext_writes | with_reducible apply Writes.step State.candStop_writes
      | with_reducible apply Reg.candFreq_at | with_reducible apply Reg.candStatus_at
      | dsimp only [F.candStatus_CFG_ERR, F.candStatus_LOA, F.candStatus_OUT_WINDOW] | (show _ = _; rfl) | split

theorem State.showDisputed_writes {s : State} {x1} : Writes [Reg.dpllStatus 0] s (State.showDisputed s x1) := by
  unfold State.showDisputed; repeat' first
      | with_reducible exact Writes.refl | with_reducible apply Writes.setF | with_reducible apply Reg.dpllStatus_at
      | dsimp only [F.dpllStatus_DISPUTED] | (show _ = _; rfl)

theorem State.disputeEvent_writes {s : State} {x1 x2 x3 x4 x5 x6} :
    Writes [Reg.ringStatus 0, Reg.ringDevIdx 0, Reg.ringLoss 0, Reg.msixPba 0, Reg.perfWrapLo 0,
    Reg.perfWrapHi 0] s (State.disputeEvent s x1 x2 x3 x4 x5 x6) := by
  unfold State.disputeEvent; repeat' first
      | with_reducible exact Writes.refl | with_reducible apply Writes.step State.raise_writes | (show _ = _; rfl)

theorem State.disputePair_writes {s : State} {x1 x2 x3} :
    Writes [Reg.ringStatus 0, Reg.ringDevIdx 0, Reg.ringLoss 0, Reg.msixPba 0, Reg.perfWrapLo 0, Reg.perfWrapHi 0,
    Reg.dpllStatus 0] s (State.disputePair s x1 x2 x3) := by
  unfold State.disputePair; repeat' first
      | (extract_lets +onlyGivenNames v; apply Writes.gen (v := v); subst v; rotate_left; clear_value v; intro h; rotate_right)
      | (extract_lets +onlyGivenNames v; have q : State → _ → State := v; clear q; subst v) | with_reducible assumption
      | with_reducible exact Writes.refl | with_reducible apply Writes.step State.showDisputed_writes
      | with_reducible apply Writes.step State.disputeEvent_writes | (show _ = _; rfl) | split | with_reducible apply Writes.put_refs

theorem State.disputes_writes {s : State} {x1} :
    Writes [Reg.ringStatus 0, Reg.ringDevIdx 0, Reg.ringLoss 0, Reg.msixPba 0, Reg.perfWrapLo 0, Reg.perfWrapHi 0,
    Reg.dpllStatus 0] s (State.disputes s x1) := by
  unfold State.disputes; repeat' first
      | intro _ | with_reducible assumption | with_reducible exact Writes.refl | with_reducible apply Writes.step State.disputePair_writes
      | with_reducible apply State.each_writes | (show _ = _; rfl) | split

theorem State.countTts_writes {s : State} {x1} : Writes [Reg.dpllHoTts 0] s (State.countTts s x1) := by
  unfold State.countTts; repeat' first
      | with_reducible exact Writes.refl | with_reducible apply Writes.ite | with_reducible apply Writes.setReg
      | with_reducible apply Reg.dpllHoTts_at | (show _ = _; rfl)

theorem State.keepHist_writes {s : State} {x1} : Writes [Reg.dpllStatus 0, Reg.dpllHistIncrLo 0, Reg.dpllHistIncrHi 0] s (State.keepHist s x1) := by
  unfold State.keepHist; repeat' first
      | with_reducible exact Writes.refl | with_reducible apply Writes.step State.showHist_writes
      | with_reducible apply Writes.kept State.modDpll_kept | (show _ = _; rfl)

theorem State.dpllHold_writes {s : State} {x1} :
    Writes [Reg.dpllStatus 0, Reg.dpllHoTts 0, Reg.dpllHistIncrLo 0, Reg.dpllHistIncrHi 0] s (State.dpllHold s x1) := by
  unfold State.dpllHold; repeat' first
      | with_reducible exact Writes.refl | with_reducible apply Writes.step State.countTts_writes
      | with_reducible apply Writes.step State.keepHist_writes | (show _ = _; rfl) | split

theorem State.dpllIncr_writes {s : State} {x1 x2} :
    Writes [Reg.ringStatus 0, Reg.ringDevIdx 0, Reg.ringLoss 0, Reg.msixPba 0, Reg.perfWrapLo 0, Reg.perfWrapHi 0, Reg.tbClamp, Reg.tbIncrLo 0,
    Reg.tbIncrHi 0, Reg.dpllStatus 0] s (State.dpllIncr s x1 x2) := by
  unfold State.dpllIncr; repeat' first
      | with_reducible exact Writes.refl | with_reducible apply Writes.setF | with_reducible apply Writes.step State.setIncr_writes
      | with_reducible apply Reg.dpllStatus_at | dsimp only [F.dpllStatus_CLAMPED] | (show _ = _; rfl)

theorem State.dpllLoop_writes {s : State} {x1 x2} :
    Writes [Reg.ringStatus 0, Reg.ringDevIdx 0, Reg.ringLoss 0, Reg.msixPba 0, Reg.perfWrapLo 0, Reg.perfWrapHi 0, Reg.tbClamp, Reg.tbIncrLo 0,
    Reg.tbIncrHi 0, Reg.dpllStatus 0, Reg.dpllPhaseLo 0, Reg.dpllPhaseHi 0, Reg.dpllHoTts 0, Reg.dpllHistIncrLo 0,
    Reg.dpllHistIncrHi 0] s (State.dpllLoop s x1 x2) := by
  unfold State.dpllLoop; repeat' first
      | (extract_lets +onlyGivenNames v; apply Writes.gen (v := v); subst v; rotate_left; clear_value v; intro h; rotate_right)
      | with_reducible assumption | with_reducible exact Writes.refl | with_reducible apply Writes.ite
      | with_reducible apply Writes.step State.goDpll_writes | with_reducible apply Writes.setF
      | with_reducible apply Writes.step State.showPhase_writes | with_reducible apply Writes.step State.dpllIncr_writes
      | with_reducible apply Writes.step State.keepHist_writes | with_reducible apply Writes.kept State.modDpll_kept
      | with_reducible apply Writes.kept State.firstLock_kept | with_reducible apply Reg.dpllStatus_at | dsimp only [F.dpllStatus_BW_LIMITED]
      | (show _ = _; rfl)

theorem State.dpllRun_writes {s : State} {x1} :
    Writes [Reg.ringStatus 0, Reg.ringDevIdx 0, Reg.ringLoss 0, Reg.msixPba 0, Reg.perfWrapLo 0, Reg.perfWrapHi 0, Reg.tbClamp, Reg.tbIncrLo 0,
    Reg.tbIncrHi 0, Reg.dpllStatus 0, Reg.dpllPhaseLo 0, Reg.dpllPhaseHi 0, Reg.dpllHoTts 0, Reg.dpllSwMiss 0, Reg.dpllHistIncrLo 0,
    Reg.dpllHistIncrHi 0] s (State.dpllRun s x1) := by
  unfold State.dpllRun; repeat' first
      | (extract_lets +onlyGivenNames v; apply Writes.gen (v := v); subst v; rotate_left; clear_value v; intro h; rotate_right)
      | with_reducible assumption | with_reducible exact Writes.refl | with_reducible apply Writes.bump
      | with_reducible apply Writes.step State.countTts_writes | with_reducible apply Writes.step State.showPhase_writes
      | with_reducible apply Writes.step State.dpllLoop_writes | with_reducible apply Writes.step State.dpllIncr_writes
      | with_reducible apply Writes.step State.dpllClose_writes | with_reducible apply Writes.kept State.modDpll_kept
      | with_reducible apply Reg.dpllSwMiss_at | dsimp only [F.dpllSwMiss_COUNT] | (show _ = _; rfl) | split

theorem State.dpllReport_writes {s : State} {x1} :
    Writes [Reg.ringStatus 0, Reg.ringDevIdx 0, Reg.ringLoss 0, Reg.msixPba 0, Reg.perfWrapLo 0, Reg.perfWrapHi 0] s (State.dpllReport s x1) := by
  unfold State.dpllReport; repeat' first
      | (extract_lets +onlyGivenNames v; apply Writes.gen (v := v); subst v; rotate_left; clear_value v; intro h; rotate_right)
      | with_reducible assumption | with_reducible exact Writes.refl | with_reducible apply Writes.step State.holdEvent_writes
      | with_reducible apply Writes.step State.raise_writes | with_reducible apply State.when_writes
      | with_reducible apply Writes.kept State.modDpll_kept | (show _ = _; rfl) | split

theorem State.synGate_writes {s : State} {x1 x2 x3} :
    Writes [Reg.ringStatus 0, Reg.ringDevIdx 0, Reg.ringLoss 0, Reg.msixPba 0, Reg.perfWrapLo 0, Reg.perfWrapHi 0,
    Reg.synStatus 0] s (State.synGate s x1 x2 x3) := by
  unfold State.synGate; repeat' first
      | intro _ | (extract_lets +onlyGivenNames v; apply Writes.gen (v := v); subst v; rotate_left; clear_value v; intro h; rotate_right)
      | with_reducible assumption | with_reducible exact Writes.refl | with_reducible apply Writes.ite | with_reducible apply Writes.setF
      | with_reducible apply Writes.step State.synEvent_writes | with_reducible apply Writes.step State.synSearch_writes
      | with_reducible apply State.each_writes | with_reducible apply Writes.kept State.clkAlign_kept
      | with_reducible apply Writes.kept State.modSyn_kept | with_reducible apply Reg.synStatus_at
      | dsimp only [F.synStatus_BAND, F.synStatus_HELD, F.synStatus_LOCK, F.synStatus_SEARCH] | (show _ = _; rfl)

end Sys2Proof.Machine
end

