-- ==== Sys2Proof/Laws/WritesMeas.lean ====
section
/-!
SUPPORT. Sys2Proof/Laws/WritesMeas.lean: which registers each operation of Machine/Meas.lean may change.
-/
namespace Sys2Proof.Machine
open Sys2Proof

theorem State.showFm_writes {s : State} {x1} : Writes [Reg.fmStatus 0] s (State.showFm s x1) := by
  unfold State.showFm; repeat' first
      | with_reducible exact Writes.refl | with_reducible apply Writes.setF | with_reducible apply Reg.fmStatus_at
      | dsimp only [F.fmStatus_LONG, F.fmStatus_RUNNING] | (show _ = _; rfl)

theorem State.fmRelease_writes {s : State} {x1} : Writes [Reg.fmStatus 0] s (State.fmRelease s x1) := by
  unfold State.fmRelease; repeat' first
      | with_reducible exact Writes.refl | with_reducible apply Writes.step State.showFm_writes
      | with_reducible apply Writes.kept State.modFm_kept | (show _ = _; rfl)

theorem State.showIm_writes {s : State} {x1} : Writes [Reg.iuStatus 0] s (State.showIm s x1) := by
  unfold State.showIm; repeat' first
      | with_reducible exact Writes.refl | with_reducible apply Writes.setF | with_reducible apply Reg.iuStatus_at
      | dsimp only [F.iuStatus_PENDING, F.iuStatus_WINDOW_OPEN] | (show _ = _; rfl)

theorem State.imEnd_writes {s : State} {x1} : Writes [Reg.iuOrphans 0, Reg.iuStatus 0] s (State.imEnd s x1) := by
  unfold State.imEnd; repeat' first
      | with_reducible exact Writes.refl | with_reducible apply Writes.bump | with_reducible apply Writes.kept State.modIm_kept
      | with_reducible apply Writes.step State.showIm_writes | with_reducible apply Writes.kept State.measDone_kept
      | with_reducible apply Reg.iuOrphans_at | dsimp only [F.iuOrphans_ORPHANS] | (show _ = _; rfl) | split

theorem State.imConfig_writes {s : State} {x1} : Writes [Reg.iuOrphans 0, Reg.iuStatus 0] s (State.imConfig s x1) := by
  unfold State.imConfig; repeat' first
      | with_reducible exact Writes.refl | with_reducible apply Writes.kept State.modIm_kept
      | with_reducible apply Writes.step State.imEnd_writes | with_reducible apply Writes.step State.showIm_writes | (show _ = _; rfl)

theorem State.fmConfig_writes {s : State} {x1} : Writes [Reg.fmStatus 0, Reg.fmAbandoned 0] s (State.fmConfig s x1) := by
  unfold State.fmConfig; repeat' first
      | (extract_lets +onlyGivenNames v; apply Writes.gen (v := v); subst v; rotate_left; clear_value v; intro h; rotate_right)
      | with_reducible assumption | with_reducible exact Writes.refl | with_reducible apply Writes.step State.fmStart_writes
      | with_reducible apply Writes.bump | with_reducible apply Writes.step State.showFm_writes
      | with_reducible apply Writes.kept State.modFm_kept | with_reducible apply State.when_writes | with_reducible apply Reg.fmAbandoned_at
      | dsimp only [F.fmAbandoned_COUNT] | (show _ = _; rfl) | split

theorem State.evoutSkip_writes {s : State} {x1 x2 x3} :
    Writes [Reg.ringStatus 0, Reg.ringDevIdx 0, Reg.ringLoss 0, Reg.msixPba 0, Reg.perfWrapLo 0, Reg.perfWrapHi 0,
    Reg.evoutSkipped 0] s (State.evoutSkip s x1 x2 x3) := by
  unfold State.evoutSkip; repeat' first
      | with_reducible exact Writes.refl | with_reducible apply Writes.bump | with_reducible apply Writes.step State.raise_writes
      | with_reducible apply Reg.evoutSkipped_at | dsimp only [F.evoutSkipped_COUNT] | (show _ = _; rfl) | split

theorem State.showEvout_writes {s : State} {x1} : Writes [Reg.evoutStatus 0] s (State.showEvout s x1) := by
  unfold State.showEvout; repeat' first
      | with_reducible exact Writes.refl | with_reducible apply Writes.setF | with_reducible apply Reg.evoutStatus_at
      | dsimp only [F.evoutStatus_ACTIVE] | (show _ = _; rfl)

theorem State.evoutStep_writes {s : State} {x1} :
    Writes [Reg.ringStatus 0, Reg.ringDevIdx 0, Reg.ringLoss 0, Reg.msixPba 0, Reg.perfWrapLo 0, Reg.perfWrapHi 0, Reg.evoutStatus 0,
    Reg.evoutSkipped 0] s (State.evoutStep s x1) := by
  unfold State.evoutStep; repeat' first
      | intro _ | (extract_lets +onlyGivenNames v; apply Writes.gen (v := v); subst v; rotate_left; clear_value v; intro h; rotate_right)
      | with_reducible assumption | with_reducible exact Writes.refl | with_reducible apply Writes.ite
      | with_reducible apply Writes.step State.evoutSkip_writes | with_reducible apply Writes.kept State.modEvout_kept
      | with_reducible apply State.each_writes | with_reducible apply Writes.step State.showEvout_writes
      | with_reducible apply State.when_writes | (show _ = _; rfl)

theorem State.fmEnd_writes {s : State} {x1} :
    Writes [Reg.hostifCnt 0, Reg.ringStatus 0, Reg.ringDevIdx 0, Reg.msixPba 0, Reg.perfWrapLo 0, Reg.perfWrapHi 0,
    Reg.fmStatus 0] s (State.fmEnd s x1) := by
  unfold State.fmEnd; repeat' first
      | (extract_lets +onlyGivenNames v; apply Writes.gen (v := v); subst v; rotate_left; clear_value v; intro h; rotate_right)
      | (extract_lets +onlyGivenNames v; clear_value v) | with_reducible assumption | with_reducible exact Writes.refl
      | with_reducible apply Writes.kept State.modMeas_kept | with_reducible apply Writes.kept State.bufWrite_kept
      | with_reducible apply Writes.step State.showFm_writes | with_reducible apply Writes.kept State.modFm_kept
      | with_reducible apply Writes.step State.endLong_writes | (show _ = _; rfl) | split

theorem State.fmPass_writes {s : State} {x1} : Writes [Reg.fmStatus 0] s (State.fmPass s x1) := by
  unfold State.fmPass; repeat' first
      | with_reducible exact Writes.refl | with_reducible apply Writes.step State.showFm_writes
      | with_reducible apply Writes.kept State.modFm_kept | (show _ = _; rfl) | split

theorem State.measBegin_writes {s : State} :
    Writes [Reg.hostifCnt 0, Reg.ringStatus 0, Reg.ringDevIdx 0, Reg.msixPba 0, Reg.perfWrapLo 0, Reg.perfWrapHi 0,
    Reg.fmStatus 0] s (State.measBegin s) := by
  unfold State.measBegin; repeat' first
      | intro _ | (extract_lets +onlyGivenNames v; apply Writes.gen (v := v); subst v; rotate_left; clear_value v; intro h; rotate_right)
      | with_reducible assumption | with_reducible exact Writes.refl | with_reducible apply Writes.step State.fmEnd_writes
      | with_reducible apply Writes.kept State.modMeas_kept | with_reducible apply State.each_writes
      | with_reducible apply Writes.kept State.imOrphans_kept | with_reducible apply Writes.step State.fmPass_writes | (show _ = _; rfl)

theorem State.evoutApply_writes {s : State} {x1 x2 x3} :
    Writes [Reg.globalLateFlags, Reg.globalLateCnt 0, Reg.ringStatus 0, Reg.ringDevIdx 0, Reg.ringLoss 0, Reg.msixPba 0, Reg.perfWrapLo 0,
    Reg.perfWrapHi 0, Reg.evoutStatus 0, Reg.evoutSkipped 0] s (State.evoutApply s x1 x2 x3) := by
  unfold State.evoutApply; repeat' first
      | (extract_lets +onlyGivenNames v; apply Writes.gen (v := v); subst v; rotate_left; clear_value v; intro h; rotate_right)
      | with_reducible assumption | with_reducible exact Writes.refl | with_reducible apply Writes.step State.evoutSkip_writes
      | with_reducible apply Writes.setF | with_reducible apply Writes.kept State.modEvout_kept
      | with_reducible apply Writes.step State.late_writes | with_reducible apply Writes.step State.showEvout_writes
      | with_reducible apply Reg.evoutStatus_at | dsimp only [F.evoutStatus_CFG_ERR] | (show _ = _; rfl) | split

theorem State.evoutLoads_writes {s : State} {x1} :
    Writes [Reg.globalLateFlags, Reg.globalLateCnt 0, Reg.hostifCnt 0, Reg.ringStatus 0, Reg.ringDevIdx 0, Reg.ringLoss 0, Reg.msixPba 0,
    Reg.perfWrapLo 0, Reg.perfWrapHi 0, Reg.evoutCfg 0, Reg.evoutStatus 0, Reg.evoutSkipped 0] s (State.evoutLoads s x1) := by
  unfold State.evoutLoads; repeat' first
      | intro _ | (extract_lets +onlyGivenNames v; apply Writes.gen (v := v); subst v; rotate_left; clear_value v; intro h; rotate_right)
      | with_reducible assumption | with_reducible exact Writes.refl | with_reducible apply Writes.ite
      | with_reducible apply Writes.step State.evoutApply_writes | with_reducible apply Writes.setF
      | with_reducible apply Writes.kept State.modEvout_kept | with_reducible apply Writes.step State.late_writes
      | with_reducible apply State.each_writes | with_reducible apply Writes.step State.finish_writes | with_reducible apply State.when_writes
      | with_reducible apply Reg.evoutCfg_at | dsimp only [F.evoutCfg_LOAD] | (show _ = _; rfl)

theorem State.measLose_writes {s : State} {x1} :
    Writes [Reg.globalLateFlags, Reg.globalLateCnt 0, Reg.ringStatus 0, Reg.ringDevIdx 0, Reg.ringLoss 0, Reg.msixPba 0, Reg.perfWrapLo 0,
    Reg.perfWrapHi 0, Reg.measLost 0] s (State.measLose s x1) := by
  unfold State.measLose; repeat' first
      | with_reducible exact Writes.refl | with_reducible apply Writes.bump | with_reducible apply Writes.step State.late_writes
      | with_reducible apply Reg.measLost_at | dsimp only [F.measLost_COUNT] | (show _ = _; rfl)

theorem State.measBoundary_writes {s : State} :
    Writes [Reg.globalLateFlags, Reg.globalLateCnt 0, Reg.ringStatus 0, Reg.ringDevIdx 0, Reg.ringLoss 0, Reg.msixPba 0, Reg.perfWrapLo 0,
    Reg.perfWrapHi 0, Reg.measLost 0] s (State.measBoundary s) := by
  unfold State.measBoundary; repeat' first
      | intro _ | (extract_lets +onlyGivenNames v; apply Writes.gen (v := v); subst v; rotate_left; clear_value v; intro h; rotate_right)
      | with_reducible assumption | with_reducible exact Writes.refl | with_reducible apply Writes.kept State.modMeas_kept
      | with_reducible apply State.each_writes | with_reducible apply Writes.kept State.imOrphans_kept
      | with_reducible apply Writes.step State.measLose_writes | (show _ = _; rfl)

theorem State.fmOpen_writes {s : State} {x1 x2 x3 x4 x5} : Writes [Reg.fmStatus 0] s (State.fmOpen s x1 x2 x3 x4 x5) := by
  unfold State.fmOpen; repeat' first
      | with_reducible exact Writes.refl | with_reducible apply Writes.step State.showFm_writes
      | with_reducible apply Writes.kept State.modFm_kept | (show _ = _; rfl)

theorem State.fmStart_writes {s : State} {x1} : Writes [Reg.fmStatus 0] s (State.fmStart s x1) := by
  unfold State.fmStart; repeat' first
      | with_reducible exact Writes.refl | with_reducible apply Writes.step State.fmOpen_writes | (show _ = _; rfl) | split

theorem State.fmEdge_writes {s : State} {x1 x2 x3 x4 x5} : Writes [Reg.fmSkipped 0] s (State.fmEdge s x1 x2 x3 x4 x5) := by
  unfold State.fmEdge; repeat' first
      | with_reducible exact Writes.refl | with_reducible apply Writes.bump | with_reducible apply Writes.kept State.modFm_kept
      | with_reducible apply Reg.fmSkipped_at | dsimp only [F.fmSkipped_COUNT] | (show _ = _; rfl) | split

theorem State.imOrphan_writes {s : State} {x1 x2 x3} : Writes [Reg.iuOrphans 0] s (State.imOrphan s x1 x2 x3) := by
  unfold State.imOrphan; repeat' first
      | with_reducible exact Writes.refl | with_reducible apply Writes.bump | with_reducible apply Writes.kept State.modIm_kept
      | with_reducible apply Reg.iuOrphans_at | dsimp only [F.iuOrphans_ORPHANS] | (show _ = _; rfl)

theorem State.imEdge_writes {s : State} {x1 x2 x3 x4} : Writes [Reg.iuOrphans 0, Reg.iuStatus 0] s (State.imEdge s x1 x2 x3 x4) := by
  unfold State.imEdge; repeat' first
      | (extract_lets +onlyGivenNames v; apply Writes.gen (v := v); subst v; rotate_left; clear_value v; intro h; rotate_right)
      | (extract_lets +onlyGivenNames v; clear_value v) | with_reducible assumption | with_reducible exact Writes.refl
      | with_reducible apply Writes.kept State.modIm_kept | with_reducible apply Writes.step State.imEnd_writes
      | with_reducible apply Writes.step State.showIm_writes | with_reducible apply Writes.step State.imOrphan_writes | (show _ = _; rfl) | split

theorem State.unitEdge_writes {s : State} {x1 x2} :
    Writes [Reg.iuEdges 0, Reg.iuMerged 0, Reg.iuOrphans 0, Reg.iuStatus 0, Reg.fmSkipped 0] s (State.unitEdge s x1 x2) := by
  unfold State.unitEdge; repeat' first
      | intro _ | (extract_lets +onlyGivenNames v; apply Writes.gen (v := v); subst v; rotate_left; clear_value v; intro h; rotate_right)
      | with_reducible assumption | with_reducible exact Writes.refl | with_reducible apply Writes.bump
      | with_reducible apply Writes.step State.fmEdge_writes | with_reducible apply Writes.kept State.modMeas_kept
      | with_reducible apply State.each_writes | with_reducible apply Writes.step State.imEdge_writes
      | with_reducible apply Writes.kept State.imMerge_kept | with_reducible apply Reg.iuEdges_at | with_reducible apply Reg.iuMerged_at
      | dsimp only [F.iuEdges_EDGES, F.iuMerged_MERGED] | (show _ = _; rfl) | split

theorem State.evoutEdge_writes {s : State} {x1 x2} :
    Writes [Reg.ringStatus 0, Reg.ringDevIdx 0, Reg.ringLoss 0, Reg.msixPba 0, Reg.perfWrapLo 0, Reg.perfWrapHi 0, Reg.evoutStatus 0,
    Reg.evoutSkipped 0] s (State.evoutEdge s x1 x2) := by
  unfold State.evoutEdge; repeat' first
      | with_reducible exact Writes.refl | with_reducible apply Writes.ite | with_reducible apply Writes.step State.evoutSkip_writes
      | with_reducible apply Writes.kept State.modEvout_kept | with_reducible apply Writes.step State.showEvout_writes
      | with_reducible apply Writes.kept State.evoutPlace_kept | (show _ = _; rfl)

theorem State.imExpire_writes {s : State} {x1 x2} : Writes [Reg.iuOrphans 0, Reg.iuStatus 0] s (State.imExpire s x1 x2) := by
  unfold State.imExpire; repeat' first
      | with_reducible exact Writes.refl | with_reducible apply Writes.kept State.modIm_kept
      | with_reducible apply Writes.step State.showIm_writes | with_reducible apply Writes.step State.imOrphan_writes | (show _ = _; rfl) | split

theorem State.measPost_writes {s : State} :
    Writes [Reg.globalLateFlags, Reg.globalLateCnt 0, Reg.ringStatus 0, Reg.ringDevIdx 0, Reg.ringLoss 0, Reg.msixPba 0, Reg.perfWrapLo 0,
    Reg.perfWrapHi 0, Reg.measLost 0] s (State.measPost s) := by
  unfold State.measPost; repeat' first
      | intro _ | (extract_lets +onlyGivenNames v; apply Writes.gen (v := v); subst v; rotate_left; clear_value v; intro h; rotate_right)
      | with_reducible assumption | with_reducible exact Writes.refl | with_reducible apply Writes.bump
      | with_reducible apply Writes.kept State.modMeas_kept | with_reducible apply State.each_writes
      | with_reducible apply Writes.step State.writeEntry_writes | with_reducible apply Writes.step State.measLose_writes
      | with_reducible apply Reg.ringLoss_at | dsimp only [F.ringLoss_COUNT] | (show _ = _; rfl) | split

theorem State.evoutBoot_writes {s : State} :
    Writes [Reg.globalLateFlags, Reg.globalLateCnt 0, Reg.ringStatus 0, Reg.ringDevIdx 0, Reg.ringLoss 0, Reg.msixPba 0, Reg.perfWrapLo 0,
    Reg.perfWrapHi 0, Reg.evoutStatus 0, Reg.evoutSkipped 0] s (State.evoutBoot s) := by
  unfold State.evoutBoot; repeat' first
      | intro _ | with_reducible assumption | with_reducible exact Writes.refl | with_reducible apply Writes.step State.evoutApply_writes
      | with_reducible apply State.each_writes | (show _ = _; rfl) | split

end Sys2Proof.Machine
end

