-- ==== Sys2Proof/Laws/WritesCal.lean ====
section
/-!
SUPPORT. Sys2Proof/Laws/WritesCal.lean: which registers each operation of Machine/Cal.lean may change.
-/
namespace Sys2Proof.Machine
open Sys2Proof

theorem State.showCal_writes {s : State} {x1} : Writes [Reg.laneCalStatus 0, Reg.iucalState 0] s (State.showCal s x1) := by
  unfold State.showCal; repeat' first
      | (extract_lets +onlyGivenNames v; apply Writes.gen (v := v); subst v; rotate_left; clear_value v; intro h; rotate_right)
      | with_reducible assumption | with_reducible exact Writes.refl | with_reducible apply Writes.setF
      | with_reducible apply Reg.iucalState_at | with_reducible apply Reg.laneCalStatus_at
      | dsimp only [F.iucalState_CHUNKS, F.iucalState_STATE, F.laneCalStatus_OVERDUE, F.laneCalStatus_POST_TRAIN, F.laneCalStatus_STATE]
      | (show _ = _; rfl) | split

theorem State.chunkDrop_writes {s : State} {x1} : Writes [Reg.laneCalStatus 0, Reg.iucalState 0] s (State.chunkDrop s x1) := by
  unfold State.chunkDrop; repeat' first
      | with_reducible exact Writes.refl | with_reducible apply Writes.step State.showCal_writes
      | with_reducible apply Writes.kept State.modInterp_kept | (show _ = _; rfl) | split

theorem State.pathDrop_writes {s : State} {x1} : Writes [Reg.laneCalStatus 0, Reg.iucalState 0] s (State.pathDrop s x1) := by
  unfold State.pathDrop; repeat' first
      | (extract_lets +onlyGivenNames v; apply Writes.gen (v := v); subst v; rotate_left; clear_value v; intro h; rotate_right)
      | with_reducible assumption | with_reducible exact Writes.refl | with_reducible apply Writes.ite
      | with_reducible apply Writes.step State.showCal_writes | with_reducible apply Writes.kept State.modCal_kept
      | with_reducible apply Writes.kept State.modPath_kept | with_reducible apply State.when_writes | (show _ = _; rfl)

theorem State.calLate_writes {s : State} :
    Writes [Reg.globalLateFlags, Reg.globalLateCnt 0, Reg.ringStatus 0, Reg.ringDevIdx 0, Reg.ringLoss 0, Reg.msixPba 0, Reg.perfWrapLo 0,
    Reg.perfWrapHi 0, Reg.laneCalStatus 0, Reg.iucalState 0] s (State.calLate s) := by
  unfold State.calLate; repeat' first
      | intro _ | with_reducible assumption | with_reducible exact Writes.refl | with_reducible apply Writes.step State.chunkDrop_writes
      | with_reducible apply Writes.step State.late_writes | with_reducible apply State.each_writes
      | with_reducible apply Writes.step State.pathDrop_writes | (show _ = _; rfl)

theorem State.linkWrite_writes {s : State} {x1 x2} : Writes [Reg.linkCfg 0] s (State.linkWrite s x1 x2) := by
  unfold State.linkWrite; repeat' first
      | (extract_lets +onlyGivenNames v; apply Writes.gen (v := v); subst v; rotate_left; clear_value v; intro h; rotate_right)
      | with_reducible assumption | with_reducible exact Writes.refl | with_reducible apply Writes.ite | with_reducible apply Writes.setF
      | with_reducible apply State.when_writes | with_reducible apply Reg.linkCfg_at
      | dsimp only [F.linkCfg_MODE, F.linkCfg_NEG_RT, F.linkCfg_UPD] | (show _ = _; rfl) | with_reducible apply Writes.put_servo

theorem State.sweepCancel_writes {s : State} : Writes [Reg.laneCalStatus 0, Reg.iucalState 0] s (State.sweepCancel s) := by
  unfold State.sweepCancel; repeat' first
      | intro _ | (extract_lets +onlyGivenNames v; apply Writes.gen (v := v); subst v; rotate_left; clear_value v; intro h; rotate_right)
      | with_reducible assumption | with_reducible exact Writes.refl | with_reducible apply Writes.step State.showCal_writes
      | with_reducible apply Writes.kept State.modInterp_kept | with_reducible apply State.each_writes
      | with_reducible apply Writes.kept State.modPath_kept | (show _ = _; rfl)

theorem State.sweepEnd_writes {s : State} :
    Writes [Reg.hostifCnt 0, Reg.ringStatus 0, Reg.ringDevIdx 0, Reg.msixPba 0, Reg.perfWrapLo 0, Reg.perfWrapHi 0] s (State.sweepEnd s) := by
  unfold State.sweepEnd; repeat' first
      | with_reducible exact Writes.refl | with_reducible apply Writes.step State.endLong_writes | (show _ = _; rfl) | split

theorem State.calDip_writes {s : State} : Writes [Reg.laneCalStatus 0, Reg.iucalState 0] s (State.calDip s) := by
  unfold State.calDip; repeat' first
      | intro _ | (extract_lets +onlyGivenNames v; apply Writes.gen (v := v); subst v; rotate_left; clear_value v; intro h; rotate_right)
      | with_reducible assumption | with_reducible exact Writes.refl | with_reducible apply Writes.step State.chunkDrop_writes
      | with_reducible apply State.each_writes | with_reducible apply Writes.step State.pathDrop_writes | (show _ = _; rfl)

theorem State.showTime_writes {R : List Nat} {s t : State} {f n l h x} (a : AtReg R f.addr) (b : AtReg R n.addr) (c : AtReg R l.addr)
    (d : AtReg R h.addr) (k : Writes R s t) : Writes R s (t.showTime f n l h x) :=
  Writes.setF d (Writes.setF c (Writes.setF b (Writes.setF a k)))

theorem State.calEvent_writes {s : State} {x1 x2 x3 x4 x5 x6} :
    Writes [Reg.ringStatus 0, Reg.ringDevIdx 0, Reg.ringLoss 0, Reg.msixPba 0, Reg.perfWrapLo 0,
    Reg.perfWrapHi 0] s (State.calEvent s x1 x2 x3 x4 x5 x6) := by
  unfold State.calEvent; repeat' first
      | with_reducible exact Writes.refl | with_reducible apply Writes.step State.raise_writes | (show _ = _; rfl) | split

theorem State.interpApply_writes {s : State} {x1} :
    Writes [Reg.ringStatus 0, Reg.ringDevIdx 0, Reg.ringLoss 0, Reg.msixPba 0, Reg.perfWrapLo 0, Reg.perfWrapHi 0, Reg.laneCalStatus 0,
    Reg.iucalState 0, Reg.iucalCount 0, Reg.iucalTimeFrac 0, Reg.iucalTimeNs 0, Reg.iucalTimeSecLo 0, Reg.iucalTimeSecHi 0, Reg.iucalSeg01 0,
    Reg.iucalSeg23 0] s (State.interpApply s x1) := by
  unfold State.interpApply; repeat' first
      | intro _ | (extract_lets +onlyGivenNames v; apply Writes.gen (v := v); subst v; rotate_left; clear_value v; intro h; rotate_right)
      | with_reducible assumption | with_reducible exact Writes.refl | with_reducible apply Writes.kept State.sweepRun_kept
      | with_reducible apply Writes.setReg | with_reducible apply Writes.step State.showCal_writes
      | with_reducible apply Writes.kept State.modInterp_kept | with_reducible apply Writes.setF | with_reducible apply State.showTime_writes
      | with_reducible apply Writes.kept State.fmTable_kept | with_reducible apply Writes.kept State.modCal_kept
      | with_reducible apply Writes.kept State.imTable_kept | with_reducible apply State.when_writes
      | with_reducible apply Writes.step State.calEvent_writes | with_reducible apply Reg.iucalCount_at
      | with_reducible apply Reg.iucalSeg01_at | with_reducible apply Reg.iucalSeg23_at | with_reducible apply Reg.iucalState_at
      | with_reducible apply Reg.iucalTimeFrac_at | with_reducible apply Reg.iucalTimeNs_at | with_reducible apply Reg.iucalTimeSecHi_at
      | with_reducible apply Reg.iucalTimeSecLo_at
      | dsimp only [F.iucalSeg01_SEG0, F.iucalSeg01_SEG1, F.iucalSeg23_SEG2, F.iucalSeg23_SEG3, F.iucalState_FACTORY, F.iucalTimeFrac_FRAC,
      F.iucalTimeNs_NS, F.iucalTimeSecHi_SEC_HI, F.iucalTimeSecLo_SEC_LO] | (show _ = _; rfl) | split

theorem State.interpDue_writes {s : State} {x1 x2 x3} : Writes [Reg.laneCalStatus 0, Reg.iucalState 0] s (State.interpDue s x1 x2 x3) := by
  unfold State.interpDue; repeat' first
      | with_reducible exact Writes.refl | with_reducible apply Writes.step State.showCal_writes
      | with_reducible apply Writes.kept State.modInterp_kept | (show _ = _; rfl)

theorem State.pathApply_writes {s : State} {x1} :
    Writes [Reg.ringStatus 0, Reg.ringDevIdx 0, Reg.ringLoss 0, Reg.msixPba 0, Reg.perfWrapLo 0, Reg.perfWrapHi 0, Reg.laneCalStatus 0,
    Reg.laneCalCount 0, Reg.laneCalTimeFrac 0, Reg.laneCalTimeNs 0, Reg.laneCalTimeSecLo 0, Reg.laneCalTimeSecHi 0, Reg.laneCalCodes 0,
    Reg.laneCalTxDelay 0, Reg.laneCalRxDelay 0, Reg.tbLcompRx 0, Reg.tbLcompTx 0, Reg.iucalState 0] s (State.pathApply s x1) := by
  unfold State.pathApply; repeat' first
      | with_reducible exact Writes.refl | with_reducible apply Writes.kept State.sweepRun_kept | with_reducible apply Writes.setReg
      | with_reducible apply Writes.step State.showCal_writes | with_reducible apply Writes.setF
      | with_reducible apply Writes.step State.showComp_writes | with_reducible apply State.showTime_writes
      | with_reducible apply Writes.kept State.modPath_kept | with_reducible apply State.when_writes
      | with_reducible apply Writes.step State.calEvent_writes | with_reducible apply Reg.laneCalCodes_at
      | with_reducible apply Reg.laneCalCount_at | with_reducible apply Reg.laneCalRxDelay_at | with_reducible apply Reg.laneCalStatus_at
      | with_reducible apply Reg.laneCalTimeFrac_at | with_reducible apply Reg.laneCalTimeNs_at | with_reducible apply Reg.laneCalTimeSecHi_at
      | with_reducible apply Reg.laneCalTimeSecLo_at | with_reducible apply Reg.laneCalTxDelay_at
      | dsimp only [F.laneCalCodes_RX_ELEM, F.laneCalCodes_TX_ELEM, F.laneCalStatus_FACTORY, F.laneCalTimeFrac_FRAC, F.laneCalTimeNs_NS,
      F.laneCalTimeSecHi_SEC_HI, F.laneCalTimeSecLo_SEC_LO] | (show _ = _; rfl) | split

theorem State.calBoundary_writes {s : State} :
    Writes ([Reg.globalLateFlags, Reg.globalLateCnt 0, Reg.hostifCnt 0, Reg.ringStatus 0, Reg.ringDevIdx 0, Reg.ringLoss 0, Reg.msixPba 0,
    Reg.perfWrapLo 0, Reg.perfWrapHi 0, Reg.laneCalStatus 0, Reg.laneCalCount 0, Reg.laneCalTimeFrac 0, Reg.laneCalTimeNs 0,
    Reg.laneCalTimeSecLo 0, Reg.laneCalTimeSecHi 0, Reg.laneCalCodes 0] ++ [Reg.laneCalTxDelay 0, Reg.laneCalRxDelay 0, Reg.tbLcompRx 0,
    Reg.tbLcompTx 0, Reg.iucalState 0, Reg.iucalCount 0, Reg.iucalTimeFrac 0, Reg.iucalTimeNs 0, Reg.iucalTimeSecLo 0, Reg.iucalTimeSecHi 0,
    Reg.iucalSeg01 0, Reg.iucalSeg23 0]) s (State.calBoundary s) := by
  unfold State.calBoundary; repeat' first
      | intro _ | (extract_lets +onlyGivenNames v; apply Writes.gen (v := v); subst v; rotate_left; clear_value v; intro h; rotate_right)
      | with_reducible assumption | with_reducible exact Writes.refl | with_reducible apply Writes.ite
      | with_reducible apply Writes.step State.interpApply_writes | with_reducible apply State.each_writes
      | with_reducible apply Writes.step State.interpDue_writes | with_reducible apply Writes.step State.pathApply_writes
      | with_reducible apply Writes.step State.sweepEnd_writes | with_reducible apply Writes.step State.calLate_writes | (show _ = _; rfl)

theorem State.linkLoad_writes {s : State} {x1} : Writes [Reg.linkCfg 0] s (State.linkLoad s x1) := by
  unfold State.linkLoad; repeat' first
      | (extract_lets +onlyGivenNames v; apply Writes.gen (v := v); subst v; rotate_left; clear_value v; intro h; rotate_right)
      | with_reducible assumption | with_reducible exact Writes.refl | with_reducible apply Writes.setF | with_reducible apply Reg.linkCfg_at
      | dsimp only [F.linkCfg_UPD] | (show _ = _; rfl) | with_reducible apply Writes.put_servo

theorem State.linkBoundary_writes {s : State} : Writes [Reg.linkCfg 0] s (State.linkBoundary s) := by
  unfold State.linkBoundary; repeat' first
      | intro _ | (extract_lets +onlyGivenNames v; apply Writes.gen (v := v); subst v; rotate_left; clear_value v; intro h; rotate_right)
      | with_reducible assumption | with_reducible exact Writes.refl | with_reducible apply State.each_writes
      | with_reducible apply Writes.step State.linkLoad_writes | (show _ = _; rfl) | split | with_reducible apply Writes.put_servo

theorem State.pathDue_writes {s : State} {x1 x2} : Writes [Reg.laneCalStatus 0, Reg.iucalState 0] s (State.pathDue s x1 x2) := by
  unfold State.pathDue; repeat' first
      | with_reducible exact Writes.refl | with_reducible apply Writes.step State.showCal_writes
      | with_reducible apply Writes.kept State.modPath_kept | (show _ = _; rfl)

theorem State.sweepStart_writes {s : State} {x1} : Writes [Reg.laneCalStatus 0, Reg.iucalState 0] s (State.sweepStart s x1) := by
  unfold State.sweepStart; repeat' first
      | intro _ | (extract_lets +onlyGivenNames v; apply Writes.gen (v := v); subst v; rotate_left; clear_value v; intro h; rotate_right)
      | with_reducible assumption | with_reducible exact Writes.refl | with_reducible apply Writes.step State.pathDue_writes
      | with_reducible apply State.each_writes | with_reducible apply Writes.step State.interpDue_writes
      | with_reducible apply Writes.kept State.modCal_kept | with_reducible apply State.when_writes | (show _ = _; rfl)

theorem State.laneDue_writes {s : State} {x1 x2} : Writes [Reg.laneCalStatus 0, Reg.iucalState 0] s (State.laneDue s x1 x2) := by
  unfold State.laneDue; repeat' first
      | with_reducible exact Writes.refl | with_reducible apply Writes.step State.pathDue_writes
      | with_reducible apply Writes.step State.interpDue_writes | (show _ = _; rfl)

theorem State.laneTrigger_writes {s : State} {x1} : Writes [Reg.laneCalStatus 0, Reg.iucalState 0] s (State.laneTrigger s x1) := by
  unfold State.laneTrigger; repeat' first
      | with_reducible exact Writes.refl | with_reducible apply Writes.ite | with_reducible apply Writes.step State.laneDue_writes
      | (show _ = _; rfl)

theorem State.unitTrigger_writes {s : State} {x1} : Writes [Reg.laneCalStatus 0, Reg.iucalState 0] s (State.unitTrigger s x1) := by
  unfold State.unitTrigger; repeat' first
      | with_reducible exact Writes.refl | with_reducible apply Writes.ite | with_reducible apply Writes.step State.interpDue_writes
      | (show _ = _; rfl)

theorem execCalTempCheck_writes {s : State} {x0 x1} {t} (h : execCalTempCheck x0 x1 s = .next t) :
    Writes [Reg.laneCalStatus 0, Reg.iucalState 0] s t := by
  unfold execCalTempCheck at h; injection h with h; subst h; repeat' first
      | intro _ | (extract_lets +onlyGivenNames v; apply Writes.gen (v := v); subst v; rotate_left; clear_value v; intro h; rotate_right)
      | with_reducible assumption | with_reducible exact Writes.refl | with_reducible apply Writes.step State.laneTrigger_writes
      | with_reducible apply Writes.step State.unitTrigger_writes | with_reducible apply State.each_writes
      | with_reducible apply Writes.kept State.modCal_kept | with_reducible apply Writes.kept State.modPath_kept | (show _ = _; rfl) | split
      | with_reducible apply Writes.put_power

theorem execCalChunkDone_writes {s : State} {x0 x1 x2} {t} (h : execCalChunkDone x0 x1 x2 s = .next t) :
    Writes [Reg.laneCalStatus 0, Reg.iucalState 0] s t := by
  unfold execCalChunkDone at h; injection h with h; subst h; repeat' first
      | with_reducible exact Writes.refl | with_reducible apply Writes.step State.showCal_writes
      | with_reducible apply Writes.kept State.modInterp_kept | (show _ = _; rfl) | split

theorem State.calJoin_writes {s : State} : Writes [Reg.laneCalStatus 0, Reg.iucalState 0] s (State.calJoin s) := by
  unfold State.calJoin; repeat' first
      | intro _ | (extract_lets +onlyGivenNames v; apply Writes.gen (v := v); subst v; rotate_left; clear_value v; intro h; rotate_right)
      | with_reducible assumption | with_reducible exact Writes.refl | with_reducible apply State.each_writes
      | with_reducible apply Writes.step State.interpDue_writes | with_reducible apply Writes.step State.laneDue_writes | (show _ = _; rfl)

theorem State.calSlots_writes {s : State} : Writes [Reg.laneCalStatus 0, Reg.iucalState 0] s (State.calSlots s) := by
  unfold State.calSlots; repeat' first
      | intro _ | (extract_lets +onlyGivenNames v; apply Writes.gen (v := v); subst v; rotate_left; clear_value v; intro h; rotate_right)
      | with_reducible assumption | with_reducible exact Writes.refl | with_reducible apply Writes.step State.showCal_writes
      | with_reducible apply Writes.kept State.modInterp_kept | with_reducible apply Writes.setF | with_reducible apply State.each_writes
      | with_reducible apply Writes.kept State.modPath_kept | with_reducible apply Writes.kept State.markGaps_kept
      | with_reducible apply Reg.iucalState_at | with_reducible apply Reg.laneCalStatus_at
      | dsimp only [F.iucalState_TEMP_LAST, F.laneCalStatus_TEMP_LAST] | (show _ = _; rfl) | split

theorem execCalPeriodDue_writes {s : State} {x0} {t} (h : execCalPeriodDue x0 s = .next t) :
    Writes [Reg.laneCalStatus 0, Reg.iucalState 0] s t := by
  unfold execCalPeriodDue at h; injection h with h; subst h; repeat' first
      | with_reducible exact Writes.refl | with_reducible apply Writes.step State.laneDue_writes | (show _ = _; rfl) | split

theorem State.calTrained_writes {s : State} {x1} : Writes [Reg.laneCalStatus 0, Reg.iucalState 0] s (State.calTrained s x1) := by
  unfold State.calTrained; repeat' first
      | with_reducible exact Writes.refl | with_reducible apply Writes.step State.laneDue_writes | (show _ = _; rfl)

theorem execCalOverdue_writes {s : State} {x0 x1 x2 x3} {t} (h : execCalOverdue x0 x1 x2 x3 s = .next t) :
    Writes [Reg.ringStatus 0, Reg.ringDevIdx 0, Reg.ringLoss 0, Reg.msixPba 0, Reg.perfWrapLo 0, Reg.perfWrapHi 0, Reg.laneCalStatus 0,
    Reg.iucalState 0] s t := by
  unfold execCalOverdue at h; injection h with h; subst h; repeat' first
      | (extract_lets +onlyGivenNames v; apply Writes.gen (v := v); subst v; rotate_left; clear_value v; intro h; rotate_right)
      | with_reducible assumption | with_reducible exact Writes.refl | with_reducible apply Writes.step State.showCal_writes
      | with_reducible apply Writes.kept State.modInterp_kept | with_reducible apply Writes.step State.raise_writes
      | with_reducible apply Writes.kept State.modPath_kept | (show _ = _; rfl) | split

theorem execPathRunDone_writes {s : State} {x0 x1} {t} (h : execPathRunDone x0 x1 s = .next t) :
    Writes [Reg.laneCalStatus 0, Reg.iucalState 0] s t := by
  unfold execPathRunDone at h; injection h with h; subst h; repeat' first
      | with_reducible exact Writes.refl | with_reducible apply Writes.step State.showCal_writes
      | with_reducible apply Writes.kept State.modPath_kept | (show _ = _; rfl) | split

theorem execCalHold_writes {s : State} {x0} {t} (h : execCalHold x0 s = .next t) :
    Writes [Reg.hostifCnt 0, Reg.ringStatus 0, Reg.ringDevIdx 0, Reg.msixPba 0, Reg.perfWrapLo 0, Reg.perfWrapHi 0, Reg.laneCalCfg 0,
    Reg.laneCalStatus 0, Reg.iucalState 0] s t := by
  unfold execCalHold at h; injection h with h; subst h; repeat' first
      | intro _ | (extract_lets +onlyGivenNames v; apply Writes.gen (v := v); subst v; rotate_left; clear_value v; intro h; rotate_right)
      | with_reducible assumption | with_reducible exact Writes.refl | with_reducible apply Writes.step State.showCal_writes
      | with_reducible apply State.start_writes | with_reducible apply Writes.setF | with_reducible apply Writes.step State.complete_writes
      | with_reducible apply State.each_writes | with_reducible apply Writes.kept State.modCal_kept | with_reducible apply Reg.laneCalCfg_at
      | dsimp only [F.laneCalCfg_HOLD] | (show _ = _; rfl)

theorem execLinkUpd_writes {s : State} {x0 x1 x2} {t} (h : execLinkUpd x0 x1 x2 s = .next t) : Writes [Reg.linkCfg 0] s t := by
  unfold execLinkUpd at h; injection h with h; subst h; repeat' first
      | with_reducible exact Writes.refl | with_reducible apply Writes.step State.linkWrite_writes | (show _ = _; rfl) | split

theorem execCalSlotStart_writes {s : State} {t} (h : execCalSlotStart s = .next t) :
    Writes [Reg.laneCalStatus 0, Reg.tbSnapCtrl, Reg.tbIncrLo 0, Reg.tbIncrHi 0, Reg.tbSnapFrac 0, Reg.tbSnapNs 0, Reg.tbSnapSecLo 0,
    Reg.tbSnapSecHi 0, Reg.iucalState 0] s t := by
  unfold execCalSlotStart at h; injection h with h; subst h; repeat' first
      | with_reducible exact Writes.refl | with_reducible apply Writes.step State.calSlots_writes
      | with_reducible apply Writes.step State.toTick_writes | (show _ = _; rfl) | split

theorem execCalSweep_writes {s : State} {x0} {t} (h : execCalSweep x0 s = .next t) :
    Writes [Reg.hostifCnt 0, Reg.ringStatus 0, Reg.ringDevIdx 0, Reg.msixPba 0, Reg.perfWrapLo 0, Reg.perfWrapHi 0, Reg.laneCalStatus 0,
    Reg.iucalState 0] s t := by
  unfold execCalSweep at h; injection h with h; subst h; repeat' first
      | intro _ | with_reducible assumption | with_reducible exact Writes.refl | with_reducible apply Writes.ite
      | with_reducible apply State.start_writes | with_reducible apply Writes.step State.sweepStart_writes
      | with_reducible apply Writes.step State.complete_writes | with_reducible apply State.startLong_writes | (show _ = _; rfl)

end Sys2Proof.Machine
end

