-- ==== Sys2Proof/Laws/WritesTables.lean ====
section
/-!
SUPPORT. Sys2Proof/Laws/WritesTables.lean: which registers each operation of Machine/Tables.lean may change.
-/
namespace Sys2Proof.Machine
open Sys2Proof

theorem State.showMac_writes {s : State} {x1} : Writes [Reg.pipeMacUsed 0] s (State.showMac s x1) := by
  unfold State.showMac; repeat' first
      | with_reducible exact Writes.refl | with_reducible apply Writes.setF | with_reducible apply Reg.pipeMacUsed_at
      | dsimp only [F.pipeMacUsed_STASH, F.pipeMacUsed_USED] | (show _ = _; rfl)

theorem State.learnQueue_writes {s : State} {x1 x2} : Writes [Reg.pipeLearnStatus 0] s (State.learnQueue s x1 x2) := by
  unfold State.learnQueue; repeat' first
      | (extract_lets +onlyGivenNames v; apply Writes.gen (v := v); subst v; rotate_left; clear_value v; intro h; rotate_right)
      | with_reducible assumption | with_reducible exact Writes.refl | with_reducible apply Writes.kept State.modFwd_kept
      | with_reducible apply Writes.setF | with_reducible apply Writes.kept State.countFwd_kept | with_reducible apply Reg.pipeLearnStatus_at
      | dsimp only [F.pipeLearnStatus_QUEUED] | (show _ = _; rfl) | split

theorem State.moved_writes {s : State} {x1 x2} : Writes [Reg.pipeMoveEpoch 0] s (State.moved s x1 x2) := by
  unfold State.moved; repeat' first
      | with_reducible exact Writes.refl | with_reducible apply Writes.setReg | with_reducible apply Reg.pipeMoveEpoch_at | (show _ = _; rfl)

theorem State.showLpm_writes {s : State} {x1} : Writes [Reg.pipeLpmUsed 0] s (State.showLpm s x1) := by
  unfold State.showLpm; repeat' first
      | with_reducible exact Writes.refl | with_reducible apply Writes.setF | with_reducible apply Reg.pipeLpmUsed_at
      | dsimp only [F.pipeLpmUsed_SLOTS] | (show _ = _; rfl)

theorem State.macAdd_writes {s : State} {x1 x2} : Writes [Reg.pipeMoveEpoch 0, Reg.pipeMacUsed 0] s (State.macAdd s x1 x2).1 := by
  unfold State.macAdd; repeat' first
      | with_reducible exact Writes.refl | with_reducible apply Writes.kept State.modFwd_kept
      | with_reducible apply Writes.step State.showMac_writes | with_reducible apply Writes.step State.moved_writes | (show _ = _; rfl) | split

theorem State.twinWrite_writes {s : State} {x1 x2 x3 x4} :
    Writes [Reg.pipeMoveEpoch 0, Reg.pipeMacUsed 0, Reg.pipeLpmUsed 0] s (State.twinWrite s x1 x2 x3 x4).1 := by
  unfold State.twinWrite; repeat' first
      | (extract_lets +onlyGivenNames v; clear_value v) | with_reducible exact Writes.refl | with_reducible apply Writes.kept State.modFwd_kept
      | with_reducible apply Writes.step State.moved_writes | with_reducible apply Writes.step State.showLpm_writes
      | with_reducible apply Writes.step State.macAdd_writes | (show _ = _; rfl) | split

theorem State.portCount_writes {s : State} {x1 x2 x3} : Writes [Reg.pipeLearnLimit 0 0] s (State.portCount s x1 x2 x3) := by
  unfold State.portCount; repeat' first
      | (extract_lets +onlyGivenNames v; have q : Fld := v; clear q; subst v) | with_reducible exact Writes.refl
      | with_reducible apply Writes.kept State.limitArm_kept | with_reducible apply Writes.setF | with_reducible apply Reg.pipeLearnLimit_at
      | dsimp only [F.pipeLearnLimit_COUNT] | (show _ = _; rfl) | split

theorem State.macRemove_writes {s : State} {x1 x2} : Writes [Reg.pipeMacUsed 0, Reg.pipeLearnLimit 0 0] s (State.macRemove s x1 x2) := by
  unfold State.macRemove; repeat' first
      | (extract_lets +onlyGivenNames v; apply Writes.gen (v := v); subst v; rotate_left; clear_value v; intro h; rotate_right)
      | with_reducible assumption | with_reducible exact Writes.refl | with_reducible apply Writes.kept State.modFwd_kept
      | with_reducible apply Writes.step State.portCount_writes | with_reducible apply Writes.step State.showMac_writes | (show _ = _; rfl) | split

theorem State.twinRemove_writes {s : State} {x1 x2 x3 x4} :
    Writes [Reg.pipeMacUsed 0, Reg.pipeLpmUsed 0, Reg.pipeLearnLimit 0 0] s (State.twinRemove s x1 x2 x3 x4).1 := by
  unfold State.twinRemove; repeat' first
      | (extract_lets +onlyGivenNames v; clear_value v) | with_reducible exact Writes.refl | with_reducible apply Writes.kept State.modFwd_kept
      | with_reducible apply Writes.kept State.macMod_kept | with_reducible apply Writes.step State.showLpm_writes
      | with_reducible apply Writes.step State.macRemove_writes | (show _ = _; rfl) | split

theorem State.portJoin_writes {s : State} {x1 x2} :
    Writes [Reg.ringStatus 0, Reg.ringDevIdx 0, Reg.ringLoss 0, Reg.msixPba 0, Reg.perfWrapLo 0, Reg.perfWrapHi 0,
    Reg.pipeLearnLimit 0 0] s (State.portJoin s x1 x2) := by
  unfold State.portJoin; repeat' first
      | (extract_lets +onlyGivenNames v; apply Writes.gen (v := v); subst v; rotate_left; clear_value v; intro h; rotate_right)
      | with_reducible assumption | with_reducible exact Writes.refl | with_reducible apply Writes.ite
      | with_reducible apply Writes.kept State.modFwd_kept | with_reducible apply Writes.step State.portCount_writes
      | with_reducible apply Writes.step State.raise_writes | (show _ = _; rfl)

theorem State.learn_writes {s : State} {x1 x2} :
    Writes [Reg.ringStatus 0, Reg.ringDevIdx 0, Reg.ringLoss 0, Reg.msixPba 0, Reg.perfWrapLo 0, Reg.perfWrapHi 0, Reg.pipeMoveEpoch 0,
    Reg.pipeMacUsed 0, Reg.pipeLearnLimit 0 0] s (State.learn s x1 x2) := by
  unfold State.learn; repeat' first
      | (extract_lets +onlyGivenNames v; apply Writes.gen (v := v); subst v; rotate_left; clear_value v; intro h; rotate_right)
      | with_reducible assumption | with_reducible exact Writes.refl | with_reducible apply Writes.ite
      | with_reducible apply Writes.kept State.modFwd_kept | with_reducible apply Writes.kept State.flap_kept
      | with_reducible apply Writes.step State.portJoin_writes | with_reducible apply Writes.step State.portCount_writes
      | with_reducible apply Writes.step State.raise_writes | with_reducible apply Writes.kept State.macMod_kept
      | with_reducible apply Writes.kept State.countFwd_kept | with_reducible apply Writes.step State.macAdd_writes | (show _ = _; rfl) | split

theorem State.serve_writes {s : State} {x1} :
    Writes [Reg.ringStatus 0, Reg.ringDevIdx 0, Reg.ringLoss 0, Reg.msixPba 0, Reg.perfWrapLo 0, Reg.perfWrapHi 0, Reg.pipeLearnStatus 0,
    Reg.pipeMoveEpoch 0, Reg.pipeMacUsed 0, Reg.pipeLearnLimit 0 0] s (State.serve s x1) := by
  unfold State.serve; repeat' first
      | with_reducible exact Writes.refl | with_reducible apply Writes.kept State.modFwd_kept | with_reducible apply Writes.setF
      | with_reducible apply Writes.step State.learn_writes | with_reducible apply Reg.pipeLearnStatus_at
      | dsimp only [F.pipeLearnStatus_QUEUED] | (show _ = _; rfl) | split

end Sys2Proof.Machine
end

