-- ==== Sys2Proof/Laws/WritesFabric.lean ====
section
/-!
SUPPORT. Sys2Proof/Laws/WritesFabric.lean: which registers each operation of Machine/Fabric.lean may change.
-/
namespace Sys2Proof.Machine
open Sys2Proof

theorem State.showDeep_writes {s : State} : Writes [Reg.deepFree] s (State.showDeep s) := by
  unfold State.showDeep; repeat' first
      | with_reducible exact Writes.refl | with_reducible apply Writes.setF | with_reducible apply Reg.deepFree_at
      | dsimp only [F.deepFree_FREE] | (show _ = _; rfl)

theorem State.headroomCheck_writes {R : List Nat} {s t u : State} (m : R.contains Reg.fabricStatus = true) (k : Writes R s u) (h : Writes R s t) :
    Writes R s (State.headroomCheck u t) := by
  unfold State.headroomCheck; split
  · exact h
  · exact Writes.setF (Reg.fabricStatus_at m) k

theorem State.spillState_writes {s : State} {x1 x2} : Writes [Reg.eqDepth 0] s (State.spillState s x1 x2) := by
  unfold State.spillState; repeat' first
      | with_reducible exact Writes.refl | with_reducible apply Writes.ite | with_reducible apply Writes.setF
      | with_reducible apply Reg.eqDepth_at | dsimp only [F.eqDepth_SPILLING] | (show _ = _; rfl)

theorem State.pressure_writes {s : State} : Writes [Reg.eqDepth 0] s (State.pressure s) := by
  unfold State.pressure; repeat' first
      | intro _ | with_reducible assumption | with_reducible exact Writes.refl | with_reducible apply Writes.step State.spillState_writes
      | with_reducible apply State.each_writes | (show _ = _; rfl)

theorem State.acctXoff_writes {s : State} {x1 x2} : Writes [Reg.portPauseStatus 0, Reg.iaDepth 0, Reg.iuEdges 0] s (State.acctXoff s x1 x2) := by
  unfold State.acctXoff; repeat' first
      | (extract_lets +onlyGivenNames v; apply Writes.gen (v := v); subst v; rotate_left; clear_value v; intro h; rotate_right)
      | with_reducible assumption | with_reducible exact Writes.refl | with_reducible apply Writes.setF
      | with_reducible apply Writes.step State.askXoff_writes | with_reducible apply Writes.kept State.modFabric_kept
      | with_reducible apply Reg.iaDepth_at | dsimp only [F.iaDepth_XOFF] | (show _ = _; rfl) | split

theorem State.poolXoff_writes {s : State} : Writes [Reg.portPauseStatus 0, Reg.iaDepth 0, Reg.iuEdges 0] s (State.poolXoff s) := by
  unfold State.poolXoff; repeat' first
      | intro _ | with_reducible assumption | with_reducible exact Writes.refl | with_reducible apply Writes.step State.acctXoff_writes
      | with_reducible apply State.each_writes | (show _ = _; rfl)

theorem State.showFree_writes {s : State} :
    Writes [Reg.ringStatus 0, Reg.ringDevIdx 0, Reg.ringLoss 0, Reg.msixPba 0, Reg.perfWrapLo 0, Reg.perfWrapHi 0, Reg.portPauseStatus 0,
    Reg.fabricStatus, Reg.eqDepth 0, Reg.iaDepth 0, Reg.deepFree, Reg.iuEdges 0] s (State.showFree s) := by
  unfold State.showFree; repeat' first
      | (extract_lets +onlyGivenNames v; apply Writes.gen (v := v); subst v; rotate_left; clear_value v; intro h; rotate_right)
      | with_reducible assumption | with_reducible exact Writes.refl | with_reducible apply Writes.setF
      | with_reducible apply Writes.step State.showDeep_writes | with_reducible apply Writes.step State.raise_writes
      | with_reducible apply Writes.kept State.modFabric_kept | with_reducible apply Writes.step State.pressure_writes
      | with_reducible apply Writes.step State.poolXoff_writes | with_reducible apply Reg.fabricStatus_at | dsimp only [F.fabricStatus_FREE]
      | (show _ = _; rfl) | split

theorem State.showIa_writes {s : State} {x1 x2} : Writes [Reg.portPauseStatus 0, Reg.iaDepth 0, Reg.iuEdges 0] s (State.showIa s x1 x2) := by
  unfold State.showIa; repeat' first
      | with_reducible exact Writes.refl | with_reducible apply Writes.setF | with_reducible apply Writes.step State.acctXoff_writes
      | with_reducible apply Reg.iaDepth_at | dsimp only [F.iaDepth_DEPTH] | (show _ = _; rfl) | split

theorem State.showEq_writes {s : State} {x1 x2} : Writes [Reg.eqDepth 0, Reg.eqOndie 0, Reg.eqHwm 0] s (State.showEq s x1 x2) := by
  unfold State.showEq; repeat' first
      | (extract_lets +onlyGivenNames v; apply Writes.gen (v := v); subst v; rotate_left; clear_value v; intro h; rotate_right)
      | with_reducible assumption | with_reducible exact Writes.refl | with_reducible apply Writes.ite | with_reducible apply Writes.setF
      | with_reducible apply Writes.step State.spillState_writes | with_reducible apply Reg.eqDepth_at | with_reducible apply Reg.eqHwm_at
      | with_reducible apply Reg.eqOndie_at | dsimp only [F.eqDepth_TOTAL, F.eqHwm_HWM, F.eqOndie_ONDIE] | (show _ = _; rfl)

theorem State.txPop_writes {s : State} {x1} : Writes [Reg.ringStatus 0, Reg.ringDevIdx 0, Reg.msixPba 0] s (State.txPop s x1) := by
  unfold State.txPop; repeat' first
      | with_reducible exact Writes.refl | with_reducible apply Writes.step State.signalSoon_writes
      | with_reducible apply Writes.step State.advance_writes | (show _ = _; rfl) | split | with_reducible apply Writes.put_host

theorem State.txDone_writes {s : State} {x1 x2 x3} : Writes [Reg.ringStatus 0, Reg.ringDevIdx 0, Reg.msixPba 0] s (State.txDone s x1 x2 x3) := by
  unfold State.txDone; repeat' first
      | (extract_lets +onlyGivenNames v; apply Writes.gen (v := v); subst v; rotate_left; clear_value v; intro h; rotate_right)
      | with_reducible assumption | with_reducible exact Writes.refl | with_reducible apply Writes.kept State.post_kept
      | with_reducible apply Writes.step State.txPop_writes | (show _ = _; rfl) | split | with_reducible apply Writes.put_host

theorem State.endFrame_writes {s : State} {x1} :
    Writes [Reg.ringStatus 0, Reg.ringDevIdx 0, Reg.ringLoss 0, Reg.msixPba 0, Reg.perfWrapLo 0, Reg.perfWrapHi 0, Reg.portPauseStatus 0,
    Reg.fabricStatus, Reg.eqDepth 0, Reg.iaDepth 0, Reg.deepFree, Reg.iuEdges 0] s (State.endFrame s x1) := by
  unfold State.endFrame; repeat' first
      | with_reducible exact Writes.refl | with_reducible apply Writes.step State.showFree_writes
      | with_reducible apply Writes.kept State.modFabric_kept | (show _ = _; rfl)

theorem State.ringRecord_writes {s : State} {x1 x2} :
    Writes [Reg.ringStatus 0, Reg.ringDevIdx 0, Reg.ringLoss 0, Reg.msixPba 0] s (State.ringRecord s x1 x2) := by
  unfold State.ringRecord; repeat' first
      | with_reducible exact Writes.refl | with_reducible apply Writes.bump | with_reducible apply Writes.step State.writeEntry_writes
      | with_reducible apply Reg.ringLoss_at | dsimp only [F.ringLoss_COUNT] | (show _ = _; rfl) | split

theorem State.capture_writes {s : State} {x1 x2 x3 x4} :
    Writes [Reg.ringStatus 0, Reg.ringDevIdx 0, Reg.ringLoss 0, Reg.msixPba 0] s (State.capture s x1 x2 x3 x4) := by
  unfold State.capture; repeat' first
      | with_reducible exact Writes.refl | with_reducible apply Writes.kept State.countFab_kept
      | with_reducible apply Writes.step State.ringRecord_writes | with_reducible apply Writes.kept State.modFabric_kept | (show _ = _; rfl) | split

theorem State.release_writes {s : State} {x1 x2} :
    Writes [Reg.ringStatus 0, Reg.ringDevIdx 0, Reg.ringLoss 0, Reg.msixPba 0, Reg.perfWrapLo 0, Reg.perfWrapHi 0, Reg.portPauseStatus 0,
    Reg.fabricStatus, Reg.eqDepth 0, Reg.eqOndie 0, Reg.eqHwm 0, Reg.iaDepth 0, Reg.deepFree, Reg.iuEdges 0] s (State.release s x1 x2) := by
  unfold State.release; repeat' first
      | intro _ | (extract_lets +onlyGivenNames v; apply Writes.gen (v := v); subst v; rotate_left; clear_value v; intro h; rotate_right)
      | with_reducible assumption | with_reducible exact Writes.refl | with_reducible apply Writes.step State.flushCtrl_writes
      | with_reducible apply Writes.step State.showFree_writes | with_reducible apply Writes.kept State.modFrame_kept
      | with_reducible apply Writes.step State.showIa_writes | with_reducible apply Writes.step State.showEq_writes
      | with_reducible apply Writes.kept State.modFabric_kept | with_reducible apply Writes.step State.txDone_writes
      | with_reducible apply Writes.step State.endFrame_writes | with_reducible apply State.when_writes
      | with_reducible apply Writes.step State.capture_writes | (show _ = _; rfl) | split

theorem State.flush_writes {s : State} {x1 x2 x3} :
    Writes [Reg.ringStatus 0, Reg.ringDevIdx 0, Reg.ringLoss 0, Reg.msixPba 0, Reg.perfWrapLo 0, Reg.perfWrapHi 0, Reg.portPauseStatus 0,
    Reg.fabricStatus, Reg.eqDepth 0, Reg.eqOndie 0, Reg.eqHwm 0, Reg.iaDepth 0, Reg.deepFree, Reg.iuEdges 0] s (State.flush s x1 x2 x3).1 := by
  unfold State.flush; repeat' first
      | intro _ | (extract_lets +onlyGivenNames v; apply Writes.gen (v := v); subst v; rotate_left; clear_value v; intro h; rotate_right)
      | with_reducible assumption | with_reducible exact Writes.refl | with_reducible apply Writes.kept State.countFab_kept
      | with_reducible apply State.each_writes | with_reducible apply Writes.kept State.modFabric_kept
      | with_reducible apply Writes.step State.release_writes | (show _ = _; rfl)

theorem State.portDown_writes {s : State} {x1} :
    Writes [Reg.ringStatus 0, Reg.ringDevIdx 0, Reg.ringLoss 0, Reg.msixPba 0, Reg.perfWrapLo 0, Reg.perfWrapHi 0, Reg.portPauseStatus 0,
    Reg.fabricStatus, Reg.fabricPort 0, Reg.eqDepth 0, Reg.eqOndie 0, Reg.eqHwm 0, Reg.iaDepth 0, Reg.deepFree,
    Reg.iuEdges 0] s (State.portDown s x1) := by
  unfold State.portDown; repeat' first
      | (extract_lets +onlyGivenNames v; apply Writes.gen (v := v); subst v; rotate_left; clear_value v; intro h; rotate_right)
      | with_reducible assumption | with_reducible exact Writes.refl | with_reducible apply Writes.setF
      | with_reducible apply Writes.kept State.countFab_kept | with_reducible apply Writes.step State.clearPause_writes
      | with_reducible apply Writes.kept State.unsend_kept | with_reducible apply Writes.kept State.modFabric_kept
      | with_reducible apply Writes.step State.flush_writes | with_reducible apply Writes.kept State.modMac_kept
      | with_reducible apply Reg.fabricPort_at | dsimp only [F.fabricPort_HOLD_STATE] | (show _ = _; rfl) | split

theorem State.portBack_writes {s : State} {x1} : Writes [Reg.portPauseStatus 0, Reg.fabricPort 0] s (State.portBack s x1) := by
  unfold State.portBack; repeat' first
      | (extract_lets +onlyGivenNames v; apply Writes.gen (v := v); subst v; rotate_left; clear_value v; intro h; rotate_right)
      | with_reducible assumption | with_reducible exact Writes.refl | with_reducible apply Writes.ite | with_reducible apply Writes.setF
      | with_reducible apply Writes.kept State.countFab_kept | with_reducible apply Writes.step State.clearPause_writes
      | with_reducible apply Writes.kept State.modFabric_kept | with_reducible apply Reg.fabricPort_at | dsimp only [F.fabricPort_HOLD_STATE]
      | (show _ = _; rfl)

theorem State.admitCell_writes {s : State} {x1 x2 x3} :
    Writes [Reg.ringStatus 0, Reg.ringDevIdx 0, Reg.ringLoss 0, Reg.msixPba 0, Reg.perfWrapLo 0, Reg.perfWrapHi 0, Reg.portPauseStatus 0,
    Reg.fabricStatus, Reg.eqDepth 0, Reg.eqOndie 0, Reg.eqHwm 0, Reg.iaDepth 0, Reg.deepFree, Reg.iuEdges 0] s (State.admitCell s x1 x2 x3) := by
  unfold State.admitCell; repeat' first
      | intro _ | with_reducible exact Writes.refl | with_reducible apply Writes.kept State.setCell_kept
      | with_reducible apply Writes.step State.showFree_writes | with_reducible apply Writes.step State.showIa_writes
      | with_reducible apply Writes.step State.showEq_writes | with_reducible apply Writes.kept State.modFabric_kept
      | with_reducible apply Writes.kept State.spillCell_kept | with_reducible apply State.when_writes | (show _ = _; rfl) | split

theorem State.hostCells_writes {s : State} :
    Writes [Reg.ringStatus 0, Reg.ringDevIdx 0, Reg.ringLoss 0, Reg.msixPba 0, Reg.perfWrapLo 0, Reg.perfWrapHi 0, Reg.portPauseStatus 0,
    Reg.fabricStatus, Reg.eqDepth 0, Reg.eqOndie 0, Reg.eqHwm 0, Reg.iaDepth 0, Reg.deepFree, Reg.iuEdges 0] s (State.hostCells s) := by
  unfold State.hostCells; repeat' first
      | intro _ | with_reducible assumption | with_reducible exact Writes.refl | with_reducible apply State.each_writes
      | with_reducible apply Writes.step State.admitCell_writes | (show _ = _; rfl) | split

theorem State.discard_writes {s : State} {x1 x2 x3 x4} :
    Writes [Reg.ringStatus 0, Reg.ringDevIdx 0, Reg.ringLoss 0, Reg.msixPba 0, Reg.perfWrapLo 0, Reg.perfWrapHi 0, Reg.portPauseStatus 0,
    Reg.fabricStatus, Reg.eqDepth 0, Reg.iaDepth 0, Reg.deepFree, Reg.iuEdges 0] s (State.discard s x1 x2 x3 x4) := by
  unfold State.discard; repeat' first
      | with_reducible exact Writes.refl | with_reducible apply Writes.step State.txDone_writes
      | with_reducible apply Writes.step State.endFrame_writes | with_reducible apply Writes.step State.capture_writes | (show _ = _; rfl)

theorem State.dropAged_writes {s : State} {x1 x2} :
    Writes [Reg.ringStatus 0, Reg.ringDevIdx 0, Reg.ringLoss 0, Reg.msixPba 0, Reg.perfWrapLo 0, Reg.perfWrapHi 0, Reg.portPauseStatus 0,
    Reg.fabricStatus, Reg.eqDepth 0, Reg.eqOndie 0, Reg.eqHwm 0, Reg.iaDepth 0, Reg.deepFree, Reg.iuEdges 0] s (State.dropAged s x1 x2) := by
  induction x2 generalizing s with
  | zero => exact Writes.refl
  | succ n ih => unfold State.dropAged; repeat' first
      | with_reducible apply Writes.step ih | with_reducible exact Writes.refl | with_reducible apply Writes.kept State.countFab_kept
      | with_reducible apply Writes.kept State.modFabric_kept | with_reducible apply Writes.step State.release_writes | (show _ = _; rfl) | split

theorem State.showFrames_writes {s : State} {x1} : Writes [Reg.eqDepth 0, Reg.eqOndie 0, Reg.eqHwm 0] s (State.showFrames s x1) := by
  unfold State.showFrames; repeat' first
      | intro _ | with_reducible assumption | with_reducible exact Writes.refl | with_reducible apply State.each_writes
      | with_reducible apply Writes.step State.showEq_writes | (show _ = _; rfl)

theorem State.lastCells_writes {s : State} {x1 x2} :
    Writes [Reg.ringStatus 0, Reg.ringDevIdx 0, Reg.ringLoss 0, Reg.msixPba 0, Reg.perfWrapLo 0, Reg.perfWrapHi 0, Reg.portPauseStatus 0,
    Reg.fabricStatus, Reg.eqDepth 0, Reg.eqOndie 0, Reg.eqHwm 0, Reg.iaDepth 0, Reg.deepFree, Reg.iuEdges 0] s (State.lastCells s x1 x2).1 := by
  unfold State.lastCells; repeat' first
      | intro _ | with_reducible assumption | with_reducible exact Writes.refl | with_reducible apply Writes.foldlFst
      | with_reducible apply Writes.step State.admitCell_writes | (show _ = _; rfl) | split

theorem State.sorrelIter_writes {s : State} {x1 x2 x3} :
    Writes [Reg.ringStatus 0, Reg.ringDevIdx 0, Reg.ringLoss 0, Reg.msixPba 0, Reg.perfWrapLo 0, Reg.perfWrapHi 0, Reg.portPauseStatus 0,
    Reg.fabricStatus, Reg.eqDepth 0, Reg.eqOndie 0, Reg.eqHwm 0, Reg.iaDepth 0, Reg.deepFree, Reg.iuEdges 0] s (State.sorrelIter s x1 x2 x3).1 := by
  unfold State.sorrelIter; repeat' first
      | intro _ | (extract_lets +onlyGivenNames v; apply Writes.gen (v := v); subst v; rotate_left; clear_value v; intro h; rotate_right)
      | with_reducible assumption | with_reducible exact Writes.refl | with_reducible apply State.each_writes
      | with_reducible apply Writes.kept State.modFabric_kept | with_reducible apply Writes.step State.admitCell_writes | (show _ = _; rfl) | split

theorem State.sorrel_writes {s : State} :
    Writes [Reg.ringStatus 0, Reg.ringDevIdx 0, Reg.ringLoss 0, Reg.msixPba 0, Reg.perfWrapLo 0, Reg.perfWrapHi 0, Reg.portPauseStatus 0,
    Reg.fabricStatus, Reg.eqDepth 0, Reg.eqOndie 0, Reg.eqHwm 0, Reg.iaDepth 0, Reg.deepFree, Reg.iuEdges 0] s (State.sorrel s) := by
  unfold State.sorrel; repeat' first
      | with_reducible exact Writes.refl | with_reducible apply Writes.step State.hostCells_writes
      | with_reducible apply Writes.step State.lastCells_writes | with_reducible apply Writes.step State.sorrelIter_writes
      | with_reducible apply Writes.kept State.mcTimers_kept | (show _ = _; rfl)

theorem State.flushMac_writes {s : State} {x1 x2} : Writes [Reg.pipeMacUsed 0, Reg.pipeLearnLimit 0 0] s (State.flushMac s x1 x2).1 := by
  unfold State.flushMac; repeat' first
      | intro _ | with_reducible assumption | with_reducible exact Writes.refl | with_reducible apply State.each_writes
      | with_reducible apply Writes.step State.macRemove_writes | (show _ = _; rfl)

end Sys2Proof.Machine
end

