-- ==== Sys2Proof/Laws/WritesLane.lean ====
section
/-!
SUPPORT. Sys2Proof/Laws/WritesLane.lean: which registers each operation of Machine/Lane.lean may change.
-/
namespace Sys2Proof.Machine
open Sys2Proof

theorem State.showPll_writes {s : State} {x1} : Writes [Reg.laneGrp 0] s (State.showPll s x1) := by
  unfold State.showPll; repeat' first
      | with_reducible exact Writes.refl | with_reducible apply Writes.setF | with_reducible apply Reg.laneGrp_at
      | dsimp only [F.laneGrp_PLL_LOCK] | (show _ = _; rfl)

theorem State.linkFresh_writes {s : State} {x1} : Writes [Reg.laneStatus 0] s (State.linkFresh s x1) := by
  unfold State.linkFresh; repeat' first
      | with_reducible exact Writes.refl | with_reducible apply Writes.setF | with_reducible apply Writes.kept State.modLane_kept
      | with_reducible apply Reg.laneStatus_at | dsimp only [F.laneStatus_ATTEMPT] | (show _ = _; rfl)

theorem State.showLock_writes {s : State} {x1 x2 x3} : Writes [Reg.laneStatus 0] s (State.showLock s x1 x2 x3) := by
  unfold State.showLock; repeat' first
      | (extract_lets +onlyGivenNames v; apply Writes.gen (v := v); subst v; rotate_left; clear_value v; intro h; rotate_right)
      | with_reducible assumption | with_reducible exact Writes.refl | with_reducible apply Writes.setF
      | with_reducible apply Reg.laneStatus_at | dsimp only [F.laneStatus_ALIGNED, F.laneStatus_CDR_LOCK] | (show _ = _; rfl) | split

theorem State.goLink_writes {s : State} {x1 x2 x3 x4} :
    Writes [Reg.ringStatus 0, Reg.ringDevIdx 0, Reg.ringLoss 0, Reg.msixPba 0, Reg.perfWrapLo 0, Reg.perfWrapHi 0, Reg.laneStatus 0,
    Reg.laneCalStatus 0, Reg.laneGrp 0, Reg.portPauseStatus 0, Reg.fabricStatus, Reg.fabricPort 0, Reg.eqDepth 0, Reg.eqOndie 0, Reg.eqHwm 0,
    Reg.iaDepth 0, Reg.deepFree, Reg.iuEdges 0, Reg.iucalState 0] s (State.goLink s x1 x2 x3 x4) := by
  unfold State.goLink; repeat' first
      | intro _ | (extract_lets +onlyGivenNames v; apply Writes.gen (v := v); subst v; rotate_left; clear_value v; intro h; rotate_right)
      | with_reducible assumption | with_reducible exact Writes.refl | with_reducible apply Writes.setF
      | with_reducible apply Writes.step State.portDown_writes | with_reducible apply Writes.kept State.modLane_kept
      | with_reducible apply Writes.step State.showPll_writes | with_reducible apply State.each_writes
      | with_reducible apply Writes.step State.pathDrop_writes | with_reducible apply Writes.step State.raise_writes
      | with_reducible apply Writes.step State.linkFresh_writes | with_reducible apply State.when_writes
      | with_reducible apply Writes.step State.showLock_writes | with_reducible apply Writes.step State.portBack_writes
      | with_reducible apply Reg.laneStatus_at
      | dsimp only [F.laneStatus_ATTEMPT, F.laneStatus_BACKOFF_S, F.laneStatus_LAST_CAUSE, F.laneStatus_RECOVERING, F.laneStatus_STATE]
      | (show _ = _; rfl) | split

theorem State.clearLane_writes {s : State} {x1} : Writes [Reg.laneStatus 0] s (State.clearLane s x1) := by
  unfold State.clearLane; repeat' first
      | (extract_lets +onlyGivenNames v; apply Writes.gen (v := v); subst v; rotate_left; clear_value v; intro h; rotate_right)
      | with_reducible assumption | with_reducible exact Writes.refl | with_reducible apply Writes.setF
      | with_reducible apply Reg.laneStatus_at
      | dsimp only [F.laneStatus_ALIGNED, F.laneStatus_ATTEMPT, F.laneStatus_CDR_LOCK, F.laneStatus_RECOVERING, F.laneStatus_STATE]
      | (show _ = _; rfl)

theorem State.linkRestart_writes {s : State} {x1 x2 x3} :
    Writes [Reg.ringStatus 0, Reg.ringDevIdx 0, Reg.ringLoss 0, Reg.msixPba 0, Reg.perfWrapLo 0, Reg.perfWrapHi 0, Reg.laneStatus 0,
    Reg.laneCalStatus 0, Reg.laneGrp 0, Reg.portPauseStatus 0, Reg.fabricStatus, Reg.fabricPort 0, Reg.eqDepth 0, Reg.eqOndie 0, Reg.eqHwm 0,
    Reg.iaDepth 0, Reg.deepFree, Reg.iuEdges 0, Reg.iucalState 0] s (State.linkRestart s x1 x2 x3) := by
  unfold State.linkRestart; repeat' first
      | intro _ | (extract_lets +onlyGivenNames v; apply Writes.gen (v := v); subst v; rotate_left; clear_value v; intro h; rotate_right)
      | with_reducible assumption | with_reducible exact Writes.refl | with_reducible apply Writes.step State.goLink_writes
      | with_reducible apply Writes.setF | with_reducible apply Writes.kept State.modLane_kept | with_reducible apply State.each_writes
      | with_reducible apply Writes.step State.linkFresh_writes | with_reducible apply Reg.laneStatus_at
      | dsimp only [F.laneStatus_QUAR, F.laneStatus_RECOVERING] | (show _ = _; rfl) | split

theorem State.showCfgErr_writes {s : State} {x1} : Writes [Reg.laneStatus 0] s (State.showCfgErr s x1) := by
  unfold State.showCfgErr; repeat' first
      | with_reducible exact Writes.refl | with_reducible apply Writes.setF | with_reducible apply Reg.laneStatus_at
      | dsimp only [F.laneStatus_CFG_ERR] | (show _ = _; rfl)

theorem State.linkStart_writes {s : State} {x1} :
    Writes [Reg.ringStatus 0, Reg.ringDevIdx 0, Reg.ringLoss 0, Reg.msixPba 0, Reg.perfWrapLo 0, Reg.perfWrapHi 0, Reg.laneStatus 0,
    Reg.laneCalStatus 0, Reg.laneGrp 0, Reg.portPauseStatus 0, Reg.fabricStatus, Reg.fabricPort 0, Reg.eqDepth 0, Reg.eqOndie 0, Reg.eqHwm 0,
    Reg.iaDepth 0, Reg.deepFree, Reg.iuEdges 0, Reg.iucalState 0] s (State.linkStart s x1) := by
  unfold State.linkStart; repeat' first
      | with_reducible exact Writes.refl | with_reducible apply Writes.step State.goLink_writes
      | with_reducible apply Writes.step State.linkFresh_writes | (show _ = _; rfl) | split

theorem State.mirror_writes {s : State} {x1} : Writes [Reg.laneStatus 0] s (State.mirror s x1) := by
  unfold State.mirror; repeat' first
      | intro _ | with_reducible assumption | with_reducible exact Writes.refl | with_reducible apply Writes.setF
      | with_reducible apply State.each_writes | with_reducible apply Reg.laneStatus_at | dsimp only [F.laneStatus_STATE] | (show _ = _; rfl)

theorem State.lanesChange_writes {R : List Nat} {s t : State} {x1 x2 x3} (g : ∀ v, Writes R s v → Writes R s (x2 v)) (hs : [Reg.ringStatus 0, Reg.ringDevIdx 0, Reg.ringLoss 0, Reg.msixPba 0, Reg.perfWrapLo 0, Reg.perfWrapHi 0, Reg.laneStatus 0, Reg.laneCalStatus 0, Reg.laneGrp 0, Reg.portPauseStatus 0, Reg.fabricStatus, Reg.fabricPort 0, Reg.eqDepth 0, Reg.eqOndie 0, Reg.eqHwm 0, Reg.iaDepth 0, Reg.deepFree, Reg.tbLcompRx 0, Reg.tbLcompTx 0, Reg.iuEdges 0, Reg.iucalState 0].all R.contains = true) (h :
    Writes R s t) :
    Writes R s (State.lanesChange t x1 x2 x3) := by
  unfold State.lanesChange; repeat' first
      | intro _ | (extract_lets +onlyGivenNames v; apply Writes.gen (v := v); subst v; rotate_left; clear_value v; intro h; rotate_right)
      | with_reducible apply Writes.step State.clearLane_writes | with_reducible apply Writes.step State.goLink_writes
      | with_reducible apply Writes.step State.showComp_writes | with_reducible apply Writes.step State.linkRestart_writes
      | with_reducible apply State.each_writes | with_reducible apply Writes.step State.showCfgErr_writes
      | with_reducible apply Writes.step State.linkStart_writes | with_reducible apply Writes.step State.mirror_writes
      | with_reducible assumption | exact List.all_trans (by decide) hs | with_reducible apply g

theorem State.grpWrite_writes {s : State} {x1 x2} :
    Writes [Reg.ringStatus 0, Reg.ringDevIdx 0, Reg.ringLoss 0, Reg.msixPba 0, Reg.perfWrapLo 0, Reg.perfWrapHi 0, Reg.laneStatus 0,
    Reg.laneCalStatus 0, Reg.laneGrp 0, Reg.portPauseStatus 0, Reg.fabricStatus, Reg.fabricPort 0, Reg.eqDepth 0, Reg.eqOndie 0, Reg.eqHwm 0,
    Reg.iaDepth 0, Reg.deepFree, Reg.tbLcompRx 0, Reg.tbLcompTx 0, Reg.iuEdges 0, Reg.iucalState 0] s (State.grpWrite s x1 x2) := by
  unfold State.grpWrite; repeat' first
      | intro _ | (extract_lets +onlyGivenNames v; have q : Nat := v; clear q; subst v) | with_reducible assumption
      | with_reducible exact Writes.refl | with_reducible apply Writes.setReg | with_reducible apply State.lanesChange_writes
      | with_reducible apply Reg.laneGrp_at | (show _ = _; rfl)

theorem State.nestErr_writes {s : State} {x1} : Writes [Reg.laneStatus 0] s (State.nestErr s x1) := by
  unfold State.nestErr; repeat' first
      | with_reducible exact Writes.refl | with_reducible apply Writes.setF | with_reducible apply Reg.laneStatus_at
      | dsimp only [F.laneStatus_CFG_ERR] | (show _ = _; rfl)

theorem State.laneCfgSet_writes {s : State} {x1 x2} :
    Writes [Reg.ringStatus 0, Reg.ringDevIdx 0, Reg.ringLoss 0, Reg.msixPba 0, Reg.perfWrapLo 0, Reg.perfWrapHi 0, Reg.laneCfg 0,
    Reg.laneStatus 0, Reg.laneCalStatus 0, Reg.laneGrp 0, Reg.portPauseStatus 0, Reg.fabricStatus, Reg.fabricPort 0, Reg.eqDepth 0,
    Reg.eqOndie 0, Reg.eqHwm 0, Reg.iaDepth 0, Reg.deepFree, Reg.tbLcompRx 0, Reg.tbLcompTx 0, Reg.iuEdges 0,
    Reg.iucalState 0] s (State.laneCfgSet s x1 x2) := by
  unfold State.laneCfgSet; repeat' first
      | intro _ | (extract_lets +onlyGivenNames v; apply Writes.gen (v := v); subst v; rotate_left; clear_value v; intro h; rotate_right)
      | (extract_lets +onlyGivenNames v; have q : Nat := v; clear q; subst v) | (extract_lets +onlyGivenNames v; clear_value v)
      | with_reducible assumption | with_reducible exact Writes.refl | with_reducible apply Writes.setReg
      | with_reducible apply State.lanesChange_writes | with_reducible apply Writes.step State.linkFresh_writes
      | with_reducible apply Reg.laneCfg_at | (show _ = _; rfl) | split

theorem State.laneWrite_writes {s : State} {x1 x2 x3} :
    Writes [Reg.ringStatus 0, Reg.ringDevIdx 0, Reg.ringLoss 0, Reg.msixPba 0, Reg.perfWrapLo 0, Reg.perfWrapHi 0, Reg.laneCfg 0,
    Reg.laneTrain 0, Reg.laneRelock 0, Reg.laneStatus 0, Reg.laneCalStatus 0, Reg.laneGrp 0, Reg.portPauseStatus 0, Reg.fabricStatus,
    Reg.fabricPort 0, Reg.eqDepth 0, Reg.eqOndie 0, Reg.eqHwm 0, Reg.iaDepth 0, Reg.deepFree, Reg.tbLcompRx 0, Reg.tbLcompTx 0, Reg.iuEdges 0,
    Reg.iucalState 0] s (State.laneWrite s x1 x2 x3) := by
  unfold State.laneWrite; repeat' first
      | (extract_lets +onlyGivenNames v; apply Writes.gen (v := v); subst v; rotate_left; clear_value v; intro h; rotate_right)
      | (extract_lets +onlyGivenNames v; clear_value v) | with_reducible assumption | with_reducible exact Writes.refl
      | with_reducible apply Writes.setReg | with_reducible apply Writes.step State.showDeep_writes
      | with_reducible apply State.headroomCheck_writes | with_reducible apply Writes.step State.showCfgErr_writes
      | with_reducible apply Writes.step State.linkFresh_writes | with_reducible apply Writes.step State.nestErr_writes
      | with_reducible apply Writes.step State.laneCfgSet_writes | with_reducible apply Reg.laneRelock_at
      | with_reducible apply Reg.laneTrain_at | (show _ = _; rfl) | split

theorem State.loopWrite_writes {s : State} {x1 x2} :
    Writes [Reg.ringStatus 0, Reg.ringDevIdx 0, Reg.ringLoss 0, Reg.msixPba 0, Reg.perfWrapLo 0, Reg.perfWrapHi 0, Reg.laneStatus 0,
    Reg.laneLoop 0, Reg.laneCalStatus 0, Reg.laneGrp 0, Reg.portPauseStatus 0, Reg.fabricStatus, Reg.fabricPort 0, Reg.eqDepth 0, Reg.eqOndie 0,
    Reg.eqHwm 0, Reg.iaDepth 0, Reg.deepFree, Reg.iuEdges 0, Reg.iucalState 0] s (State.loopWrite s x1 x2) := by
  unfold State.loopWrite; repeat' first
      | (extract_lets +onlyGivenNames v; apply Writes.gen (v := v); subst v; rotate_left; clear_value v; intro h; rotate_right)
      | with_reducible assumption | with_reducible exact Writes.refl | with_reducible apply Writes.ite | with_reducible apply Writes.setReg
      | with_reducible apply Writes.step State.goLink_writes | with_reducible apply Writes.kept State.modLane_kept
      | with_reducible apply Writes.step State.linkFresh_writes | with_reducible apply Reg.laneLoop_at | (show _ = _; rfl) | split

theorem State.checkPattern_writes {s : State} {x1 x2} : Writes [Reg.laneErrCnt 0 0] s (State.checkPattern s x1 x2) := by
  unfold State.checkPattern; repeat' first
      | with_reducible exact Writes.refl | with_reducible apply Writes.bump | with_reducible apply Writes.kept State.modLane_kept
      | with_reducible apply Reg.laneErrCnt_at | dsimp only [F.laneErrCnt_COUNT] | (show _ = _; rfl) | split

theorem State.patterns_writes {s : State} {x1 x2} : Writes [Reg.laneErrCnt 0 0] s (State.patterns s x1 x2) := by
  unfold State.patterns; repeat' first
      | (extract_lets +onlyGivenNames v; apply Writes.gen (v := v); subst v; rotate_left; clear_value v; intro h; rotate_right)
      | with_reducible assumption | with_reducible exact Writes.refl | with_reducible apply Writes.ite
      | with_reducible apply Writes.kept State.modLane_kept | with_reducible apply Writes.kept State.out_kept
      | with_reducible apply Writes.step State.checkPattern_writes | (show _ = _; rfl)

theorem State.lineErrs_writes {s : State} {x1 x2} : Writes [Reg.laneErrCnt 0 0] s (State.lineErrs s x1 x2) := by
  unfold State.lineErrs; repeat' first
      | intro _ | (extract_lets +onlyGivenNames v; apply Writes.gen (v := v); subst v; rotate_left; clear_value v; intro h; rotate_right)
      | with_reducible assumption | with_reducible exact Writes.refl | with_reducible apply Writes.bump
      | with_reducible apply State.each_writes | with_reducible apply Writes.step State.patterns_writes
      | with_reducible apply State.when_writes | with_reducible apply Reg.laneErrCnt_at | dsimp only [F.laneErrCnt_COUNT] | (show _ = _; rfl)

theorem State.ucodeBegin_writes {s : State} {x1} :
    Writes [Reg.ringStatus 0, Reg.ringDevIdx 0, Reg.ringLoss 0, Reg.msixPba 0, Reg.perfWrapLo 0, Reg.perfWrapHi 0, Reg.laneStatus 0,
    Reg.laneCalStatus 0, Reg.laneGrp 0, Reg.portPauseStatus 0, Reg.fabricStatus, Reg.fabricPort 0, Reg.eqDepth 0, Reg.eqOndie 0, Reg.eqHwm 0,
    Reg.iaDepth 0, Reg.deepFree, Reg.iuEdges 0, Reg.iucalState 0] s (State.ucodeBegin s x1) := by
  unfold State.ucodeBegin; repeat' first
      | intro _ | with_reducible assumption | with_reducible exact Writes.refl | with_reducible apply Writes.step State.goLink_writes
      | with_reducible apply State.each_writes | (show _ = _; rfl)

theorem State.showBackoff_writes {s : State} : Writes [Reg.laneStatus 0] s (State.showBackoff s) := by
  unfold State.showBackoff; repeat' first
      | intro _ | with_reducible assumption | with_reducible exact Writes.refl | with_reducible apply Writes.setF
      | with_reducible apply State.each_writes | with_reducible apply Reg.laneStatus_at | dsimp only [F.laneStatus_BACKOFF_S]
      | (show _ = _; rfl) | split

theorem State.quarRelease_writes {s : State} {x1 x2} :
    Writes [Reg.ringStatus 0, Reg.ringDevIdx 0, Reg.ringLoss 0, Reg.msixPba 0, Reg.perfWrapLo 0, Reg.perfWrapHi 0, Reg.laneStatus 0,
    Reg.laneCalStatus 0, Reg.laneGrp 0, Reg.portPauseStatus 0, Reg.fabricStatus, Reg.fabricPort 0, Reg.eqDepth 0, Reg.eqOndie 0, Reg.eqHwm 0,
    Reg.iaDepth 0, Reg.deepFree, Reg.tbLcompRx 0, Reg.tbLcompTx 0, Reg.iuEdges 0, Reg.iucalState 0] s (State.quarRelease s x1 x2) := by
  unfold State.quarRelease; repeat' first
      | intro _ | (extract_lets +onlyGivenNames v; apply Writes.gen (v := v); subst v; rotate_left; clear_value v; intro h; rotate_right)
      | with_reducible assumption | with_reducible exact Writes.refl | with_reducible apply Writes.kept State.freeze_kept
      | with_reducible apply Writes.step State.clearLane_writes | with_reducible apply Writes.step State.goLink_writes
      | with_reducible apply State.lanesChange_writes | with_reducible apply Writes.setF | with_reducible apply Writes.kept State.modLane_kept
      | with_reducible apply State.each_writes | with_reducible apply Writes.step State.showCfgErr_writes
      | with_reducible apply Writes.step State.linkFresh_writes | with_reducible apply State.when_writes
      | with_reducible apply Writes.step State.linkStart_writes | with_reducible apply Reg.laneStatus_at | dsimp only [F.laneStatus_QUAR]
      | (show _ = _; rfl)

theorem State.countLanes_writes {s : State} {x1 x2} : Writes [Reg.laneErrCnt 0 0] s (State.countLanes s x1 x2) := by
  unfold State.countLanes; repeat' first
      | intro _ | with_reducible assumption | with_reducible exact Writes.refl | with_reducible apply Writes.bump
      | with_reducible apply State.each_writes | with_reducible apply Reg.laneErrCnt_at | dsimp only [F.laneErrCnt_COUNT] | (show _ = _; rfl)

theorem State.loseLock_writes {s : State} {x1 x2 x3} :
    Writes [Reg.ringStatus 0, Reg.ringDevIdx 0, Reg.ringLoss 0, Reg.msixPba 0, Reg.perfWrapLo 0, Reg.perfWrapHi 0, Reg.laneStatus 0,
    Reg.laneErrCnt 0 0, Reg.laneCalStatus 0, Reg.laneGrp 0, Reg.portPauseStatus 0, Reg.fabricStatus, Reg.fabricPort 0, Reg.eqDepth 0,
    Reg.eqOndie 0, Reg.eqHwm 0, Reg.iaDepth 0, Reg.deepFree, Reg.iuEdges 0, Reg.iucalState 0] s (State.loseLock s x1 x2 x3) := by
  unfold State.loseLock; repeat' first
      | (extract_lets +onlyGivenNames v; apply Writes.gen (v := v); subst v; rotate_left; clear_value v; intro h; rotate_right)
      | with_reducible assumption | with_reducible exact Writes.refl | with_reducible apply Writes.step State.goLink_writes
      | with_reducible apply Writes.setF | with_reducible apply Writes.step State.countLanes_writes
      | with_reducible apply Writes.kept State.modLane_kept | with_reducible apply Reg.laneStatus_at | dsimp only [F.laneStatus_RECOVERING]
      | (show _ = _; rfl) | split

theorem State.setFom_writes {s : State} {x1 x2} : Writes [Reg.laneFom 0] s (State.setFom s x1 x2) := by
  unfold State.setFom; repeat' first
      | (extract_lets +onlyGivenNames v; apply Writes.gen (v := v); subst v; rotate_left; clear_value v; intro h; rotate_right)
      | with_reducible assumption | with_reducible exact Writes.refl | with_reducible apply Writes.setF
      | with_reducible apply Writes.kept State.modLane_kept | with_reducible apply Reg.laneFom_at | dsimp only [F.laneFom_CODE]
      | (show _ = _; rfl) | split

theorem execAdaptBurst_writes {s : State} {x0 x1} {t} (h : execAdaptBurst x0 x1 s = .next t) :
    Writes [Reg.ringStatus 0, Reg.ringDevIdx 0, Reg.ringLoss 0, Reg.msixPba 0, Reg.perfWrapLo 0, Reg.perfWrapHi 0, Reg.laneFom 0,
    Reg.laneCalStatus 0, Reg.iucalState 0] s t := by
  unfold execAdaptBurst at h; injection h with h; subst h; repeat' first
      | (extract_lets +onlyGivenNames v; apply Writes.gen (v := v); subst v; rotate_left; clear_value v; intro h; rotate_right)
      | with_reducible assumption | with_reducible exact Writes.refl | with_reducible apply Writes.kept State.modLane_kept
      | with_reducible apply Writes.step State.pathDrop_writes | with_reducible apply Writes.step State.raise_writes
      | with_reducible apply Writes.step State.setFom_writes | with_reducible apply Writes.kept State.modCal_kept | (show _ = _; rfl) | split

theorem State.klMark_writes {s : State} {x1 x2 x3} :
    Writes [Reg.ringStatus 0, Reg.ringDevIdx 0, Reg.ringLoss 0, Reg.msixPba 0, Reg.perfWrapLo 0, Reg.perfWrapHi 0, Reg.laneStatus 0,
    Reg.laneErrCnt 0 0, Reg.laneCalStatus 0, Reg.laneGrp 0, Reg.portPauseStatus 0, Reg.fabricStatus, Reg.fabricPort 0, Reg.eqDepth 0,
    Reg.eqOndie 0, Reg.eqHwm 0, Reg.iaDepth 0, Reg.deepFree, Reg.iuEdges 0, Reg.iucalState 0] s (State.klMark s x1 x2 x3) := by
  unfold State.klMark; repeat' first
      | (extract_lets +onlyGivenNames v; apply Writes.gen (v := v); subst v; rotate_left; clear_value v; intro h; rotate_right)
      | with_reducible assumption | with_reducible exact Writes.refl | with_reducible apply Writes.bump | with_reducible apply Writes.setF
      | with_reducible apply Writes.kept State.modLane_kept | with_reducible apply Writes.kept State.klEngine_kept
      | with_reducible apply Writes.step State.countStamp_writes | with_reducible apply State.when_writes
      | with_reducible apply Writes.step State.loseLock_writes | with_reducible apply Reg.laneErrCnt_at
      | with_reducible apply Reg.laneStatus_at | dsimp only [F.laneErrCnt_COUNT, F.laneStatus_ALIGNED] | (show _ = _; rfl) | split

theorem execLanePower_writes {s : State} {x0} {t} (h : execLanePower x0 s = .next t) :
    Writes [Reg.hostifCnt 0, Reg.ringStatus 0, Reg.ringDevIdx 0, Reg.ringLoss 0, Reg.msixPba 0, Reg.perfWrapLo 0, Reg.perfWrapHi 0,
    Reg.laneStatus 0, Reg.laneCalStatus 0, Reg.laneGrp 0, Reg.portPauseStatus 0, Reg.fabricStatus, Reg.fabricPort 0, Reg.eqDepth 0,
    Reg.eqOndie 0, Reg.eqHwm 0, Reg.iaDepth 0, Reg.deepFree, Reg.iuEdges 0, Reg.iucalState 0] s t := by
  unfold execLanePower at h; injection h with h; subst h; repeat' first
      | intro _ | with_reducible assumption | with_reducible exact Writes.refl | with_reducible apply Writes.ite
      | with_reducible apply Writes.step State.goLink_writes | with_reducible apply State.start_writes
      | with_reducible apply Writes.step State.complete_writes | with_reducible apply Writes.kept State.modLane_kept | (show _ = _; rfl)

theorem execSignalDetect_writes {s : State} {x0} {t} (h : execSignalDetect x0 s = .next t) :
    Writes [Reg.ringStatus 0, Reg.ringDevIdx 0, Reg.ringLoss 0, Reg.msixPba 0, Reg.perfWrapLo 0, Reg.perfWrapHi 0, Reg.laneStatus 0,
    Reg.laneErrCnt 0 0, Reg.laneCalStatus 0, Reg.laneGrp 0, Reg.portPauseStatus 0, Reg.fabricStatus, Reg.fabricPort 0, Reg.eqDepth 0,
    Reg.eqOndie 0, Reg.eqHwm 0, Reg.iaDepth 0, Reg.deepFree, Reg.iuEdges 0, Reg.iucalState 0] s t := by
  unfold execSignalDetect at h; injection h with h; subst h; repeat' first
      | intro _ | (extract_lets +onlyGivenNames v; apply Writes.gen (v := v); subst v; rotate_left; clear_value v; intro h; rotate_right)
      | with_reducible assumption | with_reducible exact Writes.refl | with_reducible apply Writes.bump
      | with_reducible apply Writes.step State.goLink_writes | with_reducible apply Writes.setF
      | with_reducible apply Writes.step State.countLanes_writes | with_reducible apply Writes.kept State.modLane_kept
      | with_reducible apply State.each_writes | with_reducible apply Reg.laneStatus_at
      | dsimp only [F.laneStatus_ATTEMPT, F.laneStatus_SIGNAL] | (show _ = _; rfl) | split

theorem execLaneEyeScan_writes {s : State} {x0} {t} (h : execLaneEyeScan x0 s = .next t) :
    Writes [Reg.hostifCnt 0, Reg.ringStatus 0, Reg.ringDevIdx 0, Reg.msixPba 0, Reg.perfWrapLo 0, Reg.perfWrapHi 0, Reg.laneCalStatus 0,
    Reg.iucalState 0] s t := by
  unfold execLaneEyeScan at h; injection h with h; subst h; repeat' first
      | intro _ | with_reducible assumption | with_reducible exact Writes.refl | with_reducible apply Writes.ite
      | with_reducible apply State.start_writes | with_reducible apply Writes.step State.complete_writes
      | with_reducible apply Writes.step State.pathDrop_writes | with_reducible apply State.startLong_writes
      | with_reducible apply Writes.kept State.modCal_kept | (show _ = _; rfl)

theorem execLaneQuarantine_writes {s : State} {x0} {t} (h : execLaneQuarantine x0 s = .next t) :
    Writes [Reg.hostifCnt 0, Reg.ringStatus 0, Reg.ringDevIdx 0, Reg.ringLoss 0, Reg.msixPba 0, Reg.perfWrapLo 0, Reg.perfWrapHi 0,
    Reg.laneStatus 0, Reg.laneCalStatus 0, Reg.laneGrp 0, Reg.portPauseStatus 0, Reg.fabricStatus, Reg.fabricPort 0, Reg.eqDepth 0,
    Reg.eqOndie 0, Reg.eqHwm 0, Reg.iaDepth 0, Reg.deepFree, Reg.tbLcompRx 0, Reg.tbLcompTx 0, Reg.iuEdges 0, Reg.iucalState 0] s t := by
  unfold execLaneQuarantine at h; injection h with h; subst h; repeat' first
      | intro _ | with_reducible assumption | with_reducible exact Writes.refl | with_reducible apply Writes.kept State.freeze_kept
      | with_reducible apply Writes.step State.goLink_writes | with_reducible apply State.start_writes | with_reducible apply Writes.setF
      | with_reducible apply Writes.step State.complete_writes | with_reducible apply Writes.kept State.modLane_kept
      | with_reducible apply Writes.step State.quarRelease_writes | with_reducible apply Reg.laneStatus_at | dsimp only [F.laneStatus_QUAR]
      | (show _ = _; rfl) | split

theorem execLockLost_writes {s : State} {x0 x1} {t} (h : execLockLost x0 x1 s = .next t) :
    Writes [Reg.ringStatus 0, Reg.ringDevIdx 0, Reg.ringLoss 0, Reg.msixPba 0, Reg.perfWrapLo 0, Reg.perfWrapHi 0, Reg.laneStatus 0,
    Reg.laneErrCnt 0 0, Reg.laneCalStatus 0, Reg.laneGrp 0, Reg.portPauseStatus 0, Reg.fabricStatus, Reg.fabricPort 0, Reg.eqDepth 0,
    Reg.eqOndie 0, Reg.eqHwm 0, Reg.iaDepth 0, Reg.deepFree, Reg.iuEdges 0, Reg.iucalState 0] s t := by
  unfold execLockLost at h; injection h with h; subst h; repeat' first
      | with_reducible exact Writes.refl | with_reducible apply Writes.step State.loseLock_writes | (show _ = _; rfl) | split

theorem execAnDone_writes {s : State} {x0} {t} (h : execAnDone x0 s = .next t) :
    Writes [Reg.ringStatus 0, Reg.ringDevIdx 0, Reg.ringLoss 0, Reg.msixPba 0, Reg.perfWrapLo 0, Reg.perfWrapHi 0, Reg.laneStatus 0,
    Reg.laneCalStatus 0, Reg.laneGrp 0, Reg.portPauseStatus 0, Reg.fabricStatus, Reg.fabricPort 0, Reg.eqDepth 0, Reg.eqOndie 0, Reg.eqHwm 0,
    Reg.iaDepth 0, Reg.deepFree, Reg.iuEdges 0, Reg.iucalState 0] s t := by
  unfold execAnDone at h; injection h with h; subst h; repeat' first
      | with_reducible exact Writes.refl | with_reducible apply Writes.step State.goLink_writes | (show _ = _; rfl) | split

theorem execBackoffDone_writes {s : State} {x0} {t} (h : execBackoffDone x0 s = .next t) :
    Writes [Reg.ringStatus 0, Reg.ringDevIdx 0, Reg.ringLoss 0, Reg.msixPba 0, Reg.perfWrapLo 0, Reg.perfWrapHi 0, Reg.laneStatus 0,
    Reg.laneCalStatus 0, Reg.laneGrp 0, Reg.portPauseStatus 0, Reg.fabricStatus, Reg.fabricPort 0, Reg.eqDepth 0, Reg.eqOndie 0, Reg.eqHwm 0,
    Reg.iaDepth 0, Reg.deepFree, Reg.iuEdges 0, Reg.iucalState 0] s t := by
  unfold execBackoffDone at h; injection h with h; subst h; repeat' first
      | with_reducible exact Writes.refl | with_reducible apply Writes.step State.goLink_writes | (show _ = _; rfl) | split

theorem execUcodeLoadDone_writes {s : State} {x0 x1} {t} (h : execUcodeLoadDone x0 x1 s = .next t) :
    Writes [Reg.hostifCnt 0, Reg.ringStatus 0, Reg.ringDevIdx 0, Reg.ringLoss 0, Reg.msixPba 0, Reg.perfWrapLo 0, Reg.perfWrapHi 0,
    Reg.updStatus, Reg.updCompRun 0, Reg.laneStatus 0, Reg.laneCalStatus 0, Reg.laneGrp 0, Reg.portPauseStatus 0, Reg.fabricStatus,
    Reg.fabricPort 0, Reg.eqDepth 0, Reg.eqOndie 0, Reg.eqHwm 0, Reg.iaDepth 0, Reg.deepFree, Reg.iuEdges 0, Reg.iucalState 0] s t := by
  unfold execUcodeLoadDone at h; injection h with h; subst h; repeat' first
      | intro _ | with_reducible assumption | with_reducible exact Writes.refl | with_reducible apply Writes.setReg
      | with_reducible apply Writes.step State.ucodeBegin_writes | with_reducible apply Writes.setF
      | with_reducible apply Writes.kept State.modLane_kept | with_reducible apply State.each_writes
      | with_reducible apply Writes.step State.raise_writes | with_reducible apply State.when_writes
      | with_reducible apply Writes.kept State.modLong_kept | with_reducible apply Writes.step State.endLong_writes
      | with_reducible apply Reg.laneGrp_at | with_reducible apply Reg.updCompRun_at | with_reducible apply Reg.updStatus_at
      | dsimp only [F.laneGrp_UCODE_VER, F.updStatus_INSTALLED] | (show _ = _; rfl) | split | with_reducible apply Writes.put_sec

theorem State.lanesBoot_writes {s : State} :
    Writes [Reg.ringStatus 0, Reg.ringDevIdx 0, Reg.ringLoss 0, Reg.msixPba 0, Reg.perfWrapLo 0, Reg.perfWrapHi 0, Reg.laneStatus 0,
    Reg.laneCalStatus 0, Reg.laneGrp 0, Reg.portPauseStatus 0, Reg.fabricStatus, Reg.fabricPort 0, Reg.eqDepth 0, Reg.eqOndie 0, Reg.eqHwm 0,
    Reg.iaDepth 0, Reg.deepFree, Reg.tbLcompRx 0, Reg.tbLcompTx 0, Reg.iuEdges 0, Reg.iucalState 0] s (State.lanesBoot s) := by
  unfold State.lanesBoot; repeat' first
      | intro _ | (extract_lets +onlyGivenNames v; apply Writes.gen (v := v); subst v; rotate_left; clear_value v; intro h; rotate_right)
      | with_reducible assumption | with_reducible exact Writes.refl | with_reducible apply Writes.step State.showComp_writes
      | with_reducible apply State.each_writes | with_reducible apply Writes.step State.showCfgErr_writes
      | with_reducible apply Writes.step State.linkStart_writes | (show _ = _; rfl)

theorem State.failAttempt_writes {s : State} {x1 x2 x3} :
    Writes [Reg.ringStatus 0, Reg.ringDevIdx 0, Reg.ringLoss 0, Reg.msixPba 0, Reg.perfWrapLo 0, Reg.perfWrapHi 0, Reg.laneStatus 0,
    Reg.laneCalStatus 0, Reg.laneGrp 0, Reg.portPauseStatus 0, Reg.fabricStatus, Reg.fabricPort 0, Reg.eqDepth 0, Reg.eqOndie 0, Reg.eqHwm 0,
    Reg.iaDepth 0, Reg.deepFree, Reg.iuEdges 0, Reg.iucalState 0] s (State.failAttempt s x1 x2 x3) := by
  unfold State.failAttempt; repeat' first
      | with_reducible exact Writes.refl | with_reducible apply Writes.step State.goLink_writes | (show _ = _; rfl) | split

theorem execSignalLoss_writes {s : State} {x0 x1} {t} (h : execSignalLoss x0 x1 s = .next t) :
    Writes [Reg.ringStatus 0, Reg.ringDevIdx 0, Reg.ringLoss 0, Reg.msixPba 0, Reg.perfWrapLo 0, Reg.perfWrapHi 0, Reg.laneStatus 0,
    Reg.laneErrCnt 0 0, Reg.laneCalStatus 0, Reg.laneGrp 0, Reg.portPauseStatus 0, Reg.fabricStatus, Reg.fabricPort 0, Reg.eqDepth 0,
    Reg.eqOndie 0, Reg.eqHwm 0, Reg.iaDepth 0, Reg.deepFree, Reg.iuEdges 0, Reg.iucalState 0] s t := by
  unfold execSignalLoss at h; injection h with h; subst h; repeat' first
      | intro _ | (extract_lets +onlyGivenNames v; apply Writes.gen (v := v); subst v; rotate_left; clear_value v; intro h; rotate_right)
      | with_reducible assumption | with_reducible exact Writes.refl | with_reducible apply Writes.setF
      | with_reducible apply Writes.step State.countLanes_writes | with_reducible apply Writes.step State.failAttempt_writes
      | with_reducible apply Writes.kept State.modLane_kept | with_reducible apply State.each_writes
      | with_reducible apply Writes.step State.loseLock_writes | with_reducible apply Reg.laneStatus_at | dsimp only [F.laneStatus_SIGNAL]
      | (show _ = _; rfl) | split

theorem execL2ExitDone_writes {s : State} {x0} {t} (h : execL2ExitDone x0 s = .next t) :
    Writes [Reg.ringStatus 0, Reg.ringDevIdx 0, Reg.ringLoss 0, Reg.msixPba 0, Reg.perfWrapLo 0, Reg.perfWrapHi 0, Reg.laneStatus 0,
    Reg.laneCalStatus 0, Reg.laneGrp 0, Reg.portPauseStatus 0, Reg.fabricStatus, Reg.fabricPort 0, Reg.eqDepth 0, Reg.eqOndie 0, Reg.eqHwm 0,
    Reg.iaDepth 0, Reg.deepFree, Reg.iuEdges 0, Reg.iucalState 0] s t := by
  unfold execL2ExitDone at h; injection h with h; subst h; repeat' first
      | with_reducible exact Writes.refl | with_reducible apply Writes.step State.goLink_writes | (show _ = _; rfl) | split

theorem execLaneRetrain_writes {s : State} {x0} {t} (h : execLaneRetrain x0 s = .next t) :
    Writes [Reg.hostifCnt 0, Reg.ringStatus 0, Reg.ringDevIdx 0, Reg.ringLoss 0, Reg.msixPba 0, Reg.perfWrapLo 0, Reg.perfWrapHi 0,
    Reg.laneStatus 0, Reg.laneCalStatus 0, Reg.laneGrp 0, Reg.portPauseStatus 0, Reg.fabricStatus, Reg.fabricPort 0, Reg.eqDepth 0,
    Reg.eqOndie 0, Reg.eqHwm 0, Reg.iaDepth 0, Reg.deepFree, Reg.iuEdges 0, Reg.iucalState 0] s t := by
  unfold execLaneRetrain at h; injection h with h; subst h; repeat' first
      | intro _ | with_reducible assumption | with_reducible exact Writes.refl | with_reducible apply Writes.ite
      | with_reducible apply State.start_writes | with_reducible apply Writes.step State.linkRestart_writes
      | with_reducible apply Writes.step State.complete_writes | (show _ = _; rfl)

theorem execL1ExitDone_writes {s : State} {x0} {t} (h : execL1ExitDone x0 s = .next t) :
    Writes [Reg.ringStatus 0, Reg.ringDevIdx 0, Reg.ringLoss 0, Reg.msixPba 0, Reg.perfWrapLo 0, Reg.perfWrapHi 0, Reg.laneStatus 0,
    Reg.laneCalStatus 0, Reg.laneGrp 0, Reg.portPauseStatus 0, Reg.fabricStatus, Reg.fabricPort 0, Reg.eqDepth 0, Reg.eqOndie 0, Reg.eqHwm 0,
    Reg.iaDepth 0, Reg.deepFree, Reg.iuEdges 0, Reg.iucalState 0] s t := by
  unfold execL1ExitDone at h; injection h with h; subst h; repeat' first
      | with_reducible exact Writes.refl | with_reducible apply Writes.step State.goLink_writes | (show _ = _; rfl) | split

theorem execAlignDone_writes {s : State} {x0} {t} (h : execAlignDone x0 s = .next t) :
    Writes [Reg.ringStatus 0, Reg.ringDevIdx 0, Reg.ringLoss 0, Reg.msixPba 0, Reg.perfWrapLo 0, Reg.perfWrapHi 0, Reg.laneStatus 0,
    Reg.laneCalStatus 0, Reg.laneGrp 0, Reg.portPauseStatus 0, Reg.fabricStatus, Reg.fabricPort 0, Reg.eqDepth 0, Reg.eqOndie 0, Reg.eqHwm 0,
    Reg.iaDepth 0, Reg.deepFree, Reg.iuEdges 0, Reg.iucalState 0] s t := by
  unfold execAlignDone at h; injection h with h; subst h; repeat' first
      | intro _ | (extract_lets +onlyGivenNames v; apply Writes.gen (v := v); subst v; rotate_left; clear_value v; intro h; rotate_right)
      | with_reducible assumption | with_reducible exact Writes.refl | with_reducible apply Writes.step State.goLink_writes
      | with_reducible apply State.each_writes | with_reducible apply Writes.step State.calTrained_writes | (show _ = _; rfl) | split

theorem State.klPayload_writes {s : State} {x1 x2} : Writes [Reg.laneErrCnt 0 0] s (State.klPayload s x1 x2) := by
  unfold State.klPayload; repeat' first
      | with_reducible exact Writes.refl | with_reducible apply Writes.bump | with_reducible apply Writes.kept State.modLane_kept
      | with_reducible apply Writes.kept State.countPort_kept | with_reducible apply State.when_writes | with_reducible apply Reg.laneErrCnt_at
      | dsimp only [F.laneErrCnt_COUNT] | (show _ = _; rfl) | split

theorem execLoopSet_writes {s : State} {x0 x1 x2} {t} (h : execLoopSet x0 x1 x2 s = .next t) :
    Writes [Reg.ringStatus 0, Reg.ringDevIdx 0, Reg.ringLoss 0, Reg.msixPba 0, Reg.perfWrapLo 0, Reg.perfWrapHi 0, Reg.laneStatus 0,
    Reg.laneLoop 0, Reg.laneCalStatus 0, Reg.laneGrp 0, Reg.portPauseStatus 0, Reg.fabricStatus, Reg.fabricPort 0, Reg.eqDepth 0, Reg.eqOndie 0,
    Reg.eqHwm 0, Reg.iaDepth 0, Reg.deepFree, Reg.iuEdges 0, Reg.iucalState 0] s t := by
  unfold execLoopSet at h; injection h with h; subst h; repeat' first
      | with_reducible exact Writes.refl | with_reducible apply Writes.step State.loopWrite_writes | (show _ = _; rfl) | split

theorem execRelockTryEnd_writes {s : State} {x0 x1 x2} {t} (h : execRelockTryEnd x0 x1 x2 s = .next t) :
    Writes [Reg.ringStatus 0, Reg.ringDevIdx 0, Reg.ringLoss 0, Reg.msixPba 0, Reg.perfWrapLo 0, Reg.perfWrapHi 0, Reg.laneStatus 0,
    Reg.laneErrCnt 0 0, Reg.laneCalStatus 0, Reg.laneGrp 0, Reg.portPauseStatus 0, Reg.fabricStatus, Reg.fabricPort 0, Reg.eqDepth 0,
    Reg.eqOndie 0, Reg.eqHwm 0, Reg.iaDepth 0, Reg.deepFree, Reg.iuEdges 0, Reg.iucalState 0] s t := by
  unfold execRelockTryEnd at h; injection h with h; subst h; repeat' first
      | intro _ | with_reducible assumption | with_reducible exact Writes.refl | with_reducible apply Writes.step State.goLink_writes
      | with_reducible apply Writes.setF | with_reducible apply Writes.step State.countLanes_writes
      | with_reducible apply Writes.kept State.modLane_kept | with_reducible apply State.each_writes | with_reducible apply Reg.laneStatus_at
      | dsimp only [F.laneStatus_SIGNAL] | (show _ = _; rfl) | split

theorem execLaneUcodeLoad_writes {s : State} {x0} {t} (h : execLaneUcodeLoad x0 s = .next t) :
    Writes [Reg.hostifCnt 0, Reg.ringStatus 0, Reg.ringDevIdx 0, Reg.ringLoss 0, Reg.msixPba 0, Reg.perfWrapLo 0, Reg.perfWrapHi 0,
    Reg.laneStatus 0, Reg.laneCalStatus 0, Reg.laneGrp 0, Reg.portPauseStatus 0, Reg.fabricStatus, Reg.fabricPort 0, Reg.eqDepth 0,
    Reg.eqOndie 0, Reg.eqHwm 0, Reg.iaDepth 0, Reg.deepFree, Reg.iuEdges 0, Reg.iucalState 0] s t := by
  unfold execLaneUcodeLoad at h; injection h with h; subst h; repeat' first
      | intro _ | with_reducible assumption | with_reducible exact Writes.refl | with_reducible apply Writes.step State.ucodeBegin_writes
      | with_reducible apply State.start_writes | with_reducible apply Writes.step State.complete_writes
      | with_reducible apply State.startLong_writes | (show _ = _; rfl) | split

theorem execAttemptTimeout_writes {s : State} {x0} {t} (h : execAttemptTimeout x0 s = .next t) :
    Writes [Reg.ringStatus 0, Reg.ringDevIdx 0, Reg.ringLoss 0, Reg.msixPba 0, Reg.perfWrapLo 0, Reg.perfWrapHi 0, Reg.laneStatus 0,
    Reg.laneCalStatus 0, Reg.laneGrp 0, Reg.portPauseStatus 0, Reg.fabricStatus, Reg.fabricPort 0, Reg.eqDepth 0, Reg.eqOndie 0, Reg.eqHwm 0,
    Reg.iaDepth 0, Reg.deepFree, Reg.iuEdges 0, Reg.iucalState 0] s t := by
  unfold execAttemptTimeout at h; injection h with h; subst h; repeat' first
      | with_reducible exact Writes.refl | with_reducible apply Writes.step State.failAttempt_writes | (show _ = _; rfl) | split

theorem execLaneGrpWrite_writes {s : State} {x0 x1 x2} {t} (h : execLaneGrpWrite x0 x1 x2 s = .next t) :
    Writes [Reg.ringStatus 0, Reg.ringDevIdx 0, Reg.ringLoss 0, Reg.msixPba 0, Reg.perfWrapLo 0, Reg.perfWrapHi 0, Reg.laneStatus 0,
    Reg.laneCalStatus 0, Reg.laneGrp 0, Reg.portPauseStatus 0, Reg.fabricStatus, Reg.fabricPort 0, Reg.eqDepth 0, Reg.eqOndie 0, Reg.eqHwm 0,
    Reg.iaDepth 0, Reg.deepFree, Reg.tbLcompRx 0, Reg.tbLcompTx 0, Reg.iuEdges 0, Reg.iucalState 0] s t := by
  unfold execLaneGrpWrite at h; injection h with h; subst h; repeat' first
      | with_reducible exact Writes.refl | with_reducible apply Writes.step State.grpWrite_writes | (show _ = _; rfl) | split

theorem execTrainDone_writes {s : State} {x0 x1 x2} {t} (h : execTrainDone x0 x1 x2 s = .next t) :
    Writes [Reg.ringStatus 0, Reg.ringDevIdx 0, Reg.ringLoss 0, Reg.msixPba 0, Reg.perfWrapLo 0, Reg.perfWrapHi 0, Reg.laneStatus 0,
    Reg.laneFom 0, Reg.laneCalStatus 0, Reg.laneGrp 0, Reg.portPauseStatus 0, Reg.fabricStatus, Reg.fabricPort 0, Reg.eqDepth 0, Reg.eqOndie 0,
    Reg.eqHwm 0, Reg.iaDepth 0, Reg.deepFree, Reg.iuEdges 0, Reg.iucalState 0] s t := by
  unfold execTrainDone at h; injection h with h; subst h; repeat' first
      | intro _ | (extract_lets +onlyGivenNames v; apply Writes.gen (v := v); subst v; rotate_left; clear_value v; intro h; rotate_right)
      | with_reducible assumption | with_reducible exact Writes.refl | with_reducible apply Writes.ite
      | with_reducible apply Writes.step State.goLink_writes | with_reducible apply Writes.step State.failAttempt_writes
      | with_reducible apply Writes.kept State.modLane_kept | with_reducible apply State.each_writes
      | with_reducible apply Writes.step State.setFom_writes | (show _ = _; rfl)

theorem execKlMarkerRx_writes {s : State} {x0 x1 x2} {t} (h : execKlMarkerRx x0 x1 x2 s = .next t) :
    Writes [Reg.ringStatus 0, Reg.ringDevIdx 0, Reg.ringLoss 0, Reg.msixPba 0, Reg.perfWrapLo 0, Reg.perfWrapHi 0, Reg.laneStatus 0,
    Reg.laneErrCnt 0 0, Reg.laneCalStatus 0, Reg.laneGrp 0, Reg.portPauseStatus 0, Reg.fabricStatus, Reg.fabricPort 0, Reg.eqDepth 0,
    Reg.eqOndie 0, Reg.eqHwm 0, Reg.iaDepth 0, Reg.deepFree, Reg.iuEdges 0, Reg.iucalState 0] s t := by
  unfold execKlMarkerRx at h; injection h with h; subst h; repeat' first
      | (extract_lets +onlyGivenNames v; apply Writes.gen (v := v); subst v; rotate_left; clear_value v; intro h; rotate_right)
      | with_reducible assumption | with_reducible exact Writes.refl | with_reducible apply Writes.bump
      | with_reducible apply Writes.kept State.modLane_kept | with_reducible apply Writes.step State.lineErrs_writes
      | with_reducible apply Writes.kept State.out_kept | with_reducible apply Writes.step State.klMark_writes
      | with_reducible apply Writes.step State.klPayload_writes | with_reducible apply State.when_writes
      | with_reducible apply Reg.laneErrCnt_at | dsimp only [F.laneErrCnt_COUNT] | (show _ = _; rfl) | split

theorem execKlMarkerTx_writes {s : State} {x0 x1} {t} (h : execKlMarkerTx x0 x1 s = .next t) :
    Writes [Reg.ringStatus 0, Reg.ringDevIdx 0, Reg.ringLoss 0, Reg.msixPba 0, Reg.perfWrapLo 0, Reg.perfWrapHi 0, Reg.laneStatus 0,
    Reg.laneCalStatus 0, Reg.laneGrp 0, Reg.portPauseStatus 0, Reg.fabricStatus, Reg.fabricPort 0, Reg.eqDepth 0, Reg.eqOndie 0, Reg.eqHwm 0,
    Reg.iaDepth 0, Reg.deepFree, Reg.iuEdges 0, Reg.iucalState 0] s t := by
  unfold execKlMarkerTx at h; injection h with h; subst h; repeat' first
      | (extract_lets +onlyGivenNames v; apply Writes.gen (v := v); subst v; rotate_left; clear_value v; intro h; rotate_right)
      | with_reducible assumption | with_reducible exact Writes.refl | with_reducible apply Writes.ite
      | with_reducible apply Writes.step State.goLink_writes | with_reducible apply Writes.kept State.modLane_kept
      | with_reducible apply Writes.kept State.out_kept | with_reducible apply Writes.step State.countStamp_writes
      | with_reducible apply State.when_writes | (show _ = _; rfl)

theorem execLaneCfgWrite_writes {s : State} {x0 x1 x2 x3} {t} (h : execLaneCfgWrite x0 x1 x2 x3 s = .next t) :
    Writes [Reg.ringStatus 0, Reg.ringDevIdx 0, Reg.ringLoss 0, Reg.msixPba 0, Reg.perfWrapLo 0, Reg.perfWrapHi 0, Reg.laneCfg 0,
    Reg.laneTrain 0, Reg.laneRelock 0, Reg.laneStatus 0, Reg.laneCalStatus 0, Reg.laneGrp 0, Reg.portPauseStatus 0, Reg.fabricStatus,
    Reg.fabricPort 0, Reg.eqDepth 0, Reg.eqOndie 0, Reg.eqHwm 0, Reg.iaDepth 0, Reg.deepFree, Reg.tbLcompRx 0, Reg.tbLcompTx 0, Reg.iuEdges 0,
    Reg.iucalState 0] s t := by
  unfold execLaneCfgWrite at h; injection h with h; subst h; repeat' first
      | with_reducible exact Writes.refl | with_reducible apply Writes.step State.laneWrite_writes | (show _ = _; rfl) | split

end Sys2Proof.Machine
end

