-- ==== Sys2Proof/Laws/WritesPortRows.lean ====
section
/-!
SUPPORT. Sys2Proof/Laws/WritesPortRows.lean: which registers each operation of Machine/PortRows.lean may change.
-/
namespace Sys2Proof.Machine
open Sys2Proof

theorem State.snapBoundary_writes {s : State} :
    Writes [Reg.globalLateFlags, Reg.globalLateCnt 0, Reg.hostifCnt 0, Reg.ringStatus 0, Reg.ringDevIdx 0, Reg.ringLoss 0, Reg.msixPba 0,
    Reg.perfWrapLo 0, Reg.perfWrapHi 0] s (State.snapBoundary s) := by
  unfold State.snapBoundary; repeat' first
      | intro _ | (extract_lets +onlyGivenNames v; apply Writes.gen (v := v); subst v; rotate_left; clear_value v; intro h; rotate_right)
      | with_reducible assumption | with_reducible exact Writes.refl | with_reducible apply Writes.kept State.modParked_kept
      | with_reducible apply Writes.step State.late_writes | with_reducible apply State.each_writes
      | with_reducible apply Writes.step State.finish_writes | with_reducible apply Writes.kept State.flushPaused_kept | (show _ = _; rfl)
      | split | with_reducible apply Writes.put_ctrPorts

theorem State.modAccess_writes {s : State} {x1 x2 x3} :
    Writes [Reg.hostifCnt 0, Reg.ringStatus 0, Reg.ringDevIdx 0, Reg.msixPba 0, Reg.perfWrapLo 0,
    Reg.perfWrapHi 0] s (State.modAccess s x1 x2 x3) := by
  unfold State.modAccess; repeat' first
      | with_reducible exact Writes.refl | with_reducible apply Writes.ite | with_reducible apply Writes.kept State.parkId_kept
      | with_reducible apply Writes.step State.complete_writes | with_reducible apply Writes.kept State.busStart_kept
      | with_reducible apply Writes.kept State.modBus_kept | (show _ = _; rfl)

theorem execModRead_writes {s : State} {x0} {t} (h : execModRead x0 s = .next t) :
    Writes [Reg.hostifCnt 0, Reg.ringStatus 0, Reg.ringDevIdx 0, Reg.msixPba 0, Reg.perfWrapLo 0, Reg.perfWrapHi 0] s t := by
  unfold execModRead at h; injection h with h; subst h; repeat' first
      | intro _ | with_reducible assumption | with_reducible exact Writes.refl | with_reducible apply State.start_writes
      | with_reducible apply Writes.step State.modAccess_writes | (show _ = _; rfl)

theorem execPauseExpire_writes {s : State} {x0 x1} {t} (h : execPauseExpire x0 x1 s = .next t) : Writes [Reg.portPauseStatus 0] s t := by
  unfold execPauseExpire at h; injection h with h; subst h; repeat' first
      | with_reducible exact Writes.refl | with_reducible apply Writes.step State.showPause_writes
      | with_reducible apply Writes.step State.endPause_writes | (show _ = _; rfl) | split

theorem State.pauseIn_writes {s : State} {x1 x2} : Writes [Reg.portPauseStatus 0] s (State.pauseIn s x1 x2) := by
  unfold State.pauseIn; repeat' first
      | intro _ | (extract_lets +onlyGivenNames v; apply Writes.gen (v := v); subst v; rotate_left; clear_value v; intro h; rotate_right)
      | with_reducible assumption | with_reducible exact Writes.refl | with_reducible apply Writes.step State.showPause_writes
      | with_reducible apply Writes.step State.rxPause_writes | with_reducible apply Writes.kept State.countPort_kept
      | with_reducible apply State.each_writes | with_reducible apply State.when_writes | (show _ = _; rfl) | split

theorem execModSideband_writes {s : State} {x0} {t} (h : execModSideband x0 s = .next t) :
    Writes [Reg.hostifCnt 0, Reg.ringStatus 0, Reg.ringDevIdx 0, Reg.msixPba 0, Reg.perfWrapLo 0, Reg.perfWrapHi 0, Reg.portMod 0] s t := by
  unfold execModSideband at h; injection h with h; subst h; repeat' first
      | intro _ | (extract_lets +onlyGivenNames v; apply Writes.gen (v := v); subst v; rotate_left; clear_value v; intro h; rotate_right)
      | with_reducible assumption | with_reducible exact Writes.refl | with_reducible apply State.start_writes
      | with_reducible apply Writes.setF | with_reducible apply Writes.step State.complete_writes | with_reducible apply Reg.portMod_at
      | dsimp only [F.portMod_GP_OUT, F.portMod_LPMODE, F.portMod_RESET_L] | (show _ = _; rfl)

theorem execPauseStorm_writes {s : State} {x0 x1} {t} (h : execPauseStorm x0 x1 s = .next t) :
    Writes [Reg.ringStatus 0, Reg.ringDevIdx 0, Reg.ringLoss 0, Reg.msixPba 0, Reg.perfWrapLo 0, Reg.perfWrapHi 0, Reg.portPauseStatus 0] s t := by
  unfold execPauseStorm at h; injection h with h; subst h; repeat' first
      | (extract_lets +onlyGivenNames v; apply Writes.gen (v := v); subst v; rotate_left; clear_value v; intro h; rotate_right)
      | with_reducible assumption | with_reducible exact Writes.refl | with_reducible apply Writes.ite
      | with_reducible apply Writes.step State.showPause_writes | with_reducible apply Writes.setF
      | with_reducible apply Writes.kept State.countPort_kept | with_reducible apply Writes.step State.raise_writes
      | with_reducible apply Writes.kept State.modMac_kept | with_reducible apply Reg.portPauseStatus_at | dsimp only [F.portPauseStatus_STORM]
      | (show _ = _; rfl)

theorem execStatsSnapshot_writes {s : State} {x0} {t} (h : execStatsSnapshot x0 s = .next t) :
    Writes [Reg.hostifCnt 0, Reg.ringStatus 0, Reg.ringDevIdx 0, Reg.msixPba 0, Reg.perfWrapLo 0, Reg.perfWrapHi 0] s t := by
  unfold execStatsSnapshot at h; injection h with h; subst h; repeat' first
      | intro _ | with_reducible assumption | with_reducible exact Writes.refl | with_reducible apply Writes.kept State.parkId_kept
      | with_reducible apply State.start_writes | with_reducible apply Writes.step State.complete_writes | (show _ = _; rfl)
      | (with_reducible apply Writes.fst (by assumption)) | split | with_reducible apply Writes.put_ports

theorem State.scanSlot_writes {s : State} {x1 x2} :
    Writes [Reg.ringStatus 0, Reg.ringDevIdx 0, Reg.ringLoss 0, Reg.msixPba 0, Reg.perfWrapLo 0, Reg.perfWrapHi 0,
    Reg.portMod 0] s (State.scanSlot s x1 x2) := by
  unfold State.scanSlot; repeat' first
      | (extract_lets +onlyGivenNames v; apply Writes.gen (v := v); subst v; rotate_left; clear_value v; intro h; rotate_right)
      | with_reducible assumption | with_reducible exact Writes.refl | with_reducible apply Writes.kept State.modSlotIo_kept
      | with_reducible apply Writes.setF | with_reducible apply Writes.step State.raise_writes | with_reducible apply State.when_writes
      | with_reducible apply Reg.portMod_at | dsimp only [F.portMod_INT] | (show _ = _; rfl) | split

theorem execSaCommit_writes {s : State} {x0 x1 x2} {t} (h : execSaCommit x0 x1 x2 s = .next t) : Writes [Reg.portSaHi 0] s t := by
  unfold execSaCommit at h; injection h with h; subst h; repeat' first
      | with_reducible exact Writes.refl | with_reducible apply Writes.step State.saWrite_writes | (show _ = _; rfl) | split

theorem execModPresent_writes {s : State} {x0 x1} {t} (h : execModPresent x0 x1 s = .next t) :
    Writes [Reg.ringStatus 0, Reg.ringDevIdx 0, Reg.ringLoss 0, Reg.msixPba 0, Reg.perfWrapLo 0, Reg.perfWrapHi 0, Reg.portMod 0] s t := by
  unfold execModPresent at h; injection h with h; subst h; repeat' first
      | (extract_lets +onlyGivenNames v; apply Writes.gen (v := v); subst v; rotate_left; clear_value v; intro h; rotate_right)
      | with_reducible assumption | with_reducible exact Writes.refl | with_reducible apply Writes.ite | with_reducible apply Writes.setF
      | with_reducible apply Writes.step State.raise_writes | with_reducible apply Writes.kept State.modBus_kept
      | with_reducible apply Reg.portMod_at | dsimp only [F.portMod_PRESENT] | (show _ = _; rfl)

theorem execPauseStormEnd_writes {s : State} {x0 x1} {t} (h : execPauseStormEnd x0 x1 s = .next t) : Writes [Reg.portPauseStatus 0] s t := by
  unfold execPauseStormEnd at h; injection h with h; subst h; repeat' first
      | with_reducible exact Writes.refl | with_reducible apply Writes.step State.endPause_writes
      | with_reducible apply Writes.kept State.modMac_kept | (show _ = _; rfl) | split

theorem execXoffRefresh_writes {s : State} {x0} {t} (h : execXoffRefresh x0 s = .next t) : Writes [Reg.iuEdges 0] s t := by
  unfold execXoffRefresh at h; injection h with h; subst h; repeat' first
      | with_reducible exact Writes.refl | with_reducible apply Writes.step State.sendPause_writes | (show _ = _; rfl)

theorem execSgpioScan_writes {s : State} {x0} {t} (h : execSgpioScan x0 s = .next t) :
    Writes [Reg.ringStatus 0, Reg.ringDevIdx 0, Reg.ringLoss 0, Reg.msixPba 0, Reg.perfWrapLo 0, Reg.perfWrapHi 0, Reg.portMod 0] s t := by
  unfold execSgpioScan at h; injection h with h; subst h; repeat' first
      | intro _ | with_reducible assumption | with_reducible exact Writes.refl | with_reducible apply Writes.step State.scanSlot_writes
      | with_reducible apply State.each_writes | (show _ = _; rfl) | split

theorem execI2cTransferEnd_writes {s : State} {x0 x1 x2 x3} {t} (h : execI2cTransferEnd x0 x1 x2 x3 s = .next t) :
    Writes [Reg.hostifCnt 0, Reg.ringStatus 0, Reg.ringDevIdx 0, Reg.msixPba 0, Reg.perfWrapLo 0, Reg.perfWrapHi 0, Reg.portI2c 0] s t := by
  unfold execI2cTransferEnd at h; injection h with h; subst h; repeat' first
      | (extract_lets +onlyGivenNames v; apply Writes.gen (v := v); subst v; rotate_left; clear_value v; intro h; rotate_right)
      | with_reducible assumption | with_reducible exact Writes.refl | with_reducible apply Writes.kept State.modParked_kept
      | with_reducible apply Writes.kept State.bufWrite_kept | with_reducible apply Writes.setF
      | with_reducible apply Writes.kept State.unselect_kept | with_reducible apply Writes.step State.finish_writes
      | with_reducible apply Writes.kept State.busStart_kept | with_reducible apply Writes.kept State.modBus_kept
      | with_reducible apply State.when_writes | with_reducible apply Reg.portI2c_at | dsimp only [F.portI2c_STUCK] | (show _ = _; rfl) | split

theorem execSnapshotXferDone_writes {s : State} {t} (h : execSnapshotXferDone s = .next t) :
    Writes [Reg.hostifCnt 0, Reg.ringStatus 0, Reg.ringDevIdx 0, Reg.msixPba 0, Reg.perfWrapLo 0, Reg.perfWrapHi 0] s t := by
  unfold execSnapshotXferDone at h; injection h with h; subst h; repeat' first
      | with_reducible exact Writes.refl | with_reducible apply Writes.kept State.bufWrite_kept
      | with_reducible apply Writes.step State.finish_writes | (show _ = _; rfl) | split | with_reducible apply Writes.put_ports

theorem execPauseRx_writes {s : State} {x0 x1} {t} (h : execPauseRx x0 x1 s = .next t) : Writes [Reg.portPauseStatus 0, Reg.iuEdges 0] s t := by
  unfold execPauseRx at h; injection h with h; subst h; repeat' first
      | with_reducible exact Writes.refl | with_reducible apply Writes.step State.pauseIn_writes
      | with_reducible apply Writes.step State.countStamp_writes | with_reducible apply Writes.kept State.countGood_kept | (show _ = _; rfl) | split

theorem execModWrite_writes {s : State} {x0} {t} (h : execModWrite x0 s = .next t) :
    Writes [Reg.hostifCnt 0, Reg.ringStatus 0, Reg.ringDevIdx 0, Reg.msixPba 0, Reg.perfWrapLo 0, Reg.perfWrapHi 0] s t := by
  unfold execModWrite at h; injection h with h; subst h; repeat' first
      | intro _ | with_reducible assumption | with_reducible exact Writes.refl | with_reducible apply State.start_writes
      | with_reducible apply Writes.step State.modAccess_writes | (show _ = _; rfl)

end Sys2Proof.Machine
end

