-- ==== Sys2Proof/Laws/WritesParserRows.lean ====
section
/-!
SUPPORT. Sys2Proof/Laws/WritesParserRows.lean: which registers each operation of Machine/ParserRows.lean may change.
-/
namespace Sys2Proof.Machine
open Sys2Proof

theorem State.showGen_writes {s : State} {x1} :
    Writes [Reg.pipeProgVer 0, Reg.pipeWinStatus 0, Reg.pipeMacUsed 0, Reg.pipeTwinStatus 0] s (State.showGen s x1) := by
  unfold State.showGen; repeat' first
      | (extract_lets +onlyGivenNames v; apply Writes.gen (v := v); subst v; rotate_left; clear_value v; intro h; rotate_right)
      | with_reducible assumption | with_reducible exact Writes.refl | with_reducible apply Writes.setReg | with_reducible apply Writes.setF
      | with_reducible apply Writes.step State.showMac_writes | with_reducible apply Reg.pipeProgVer_at
      | with_reducible apply Reg.pipeTwinStatus_at | with_reducible apply Reg.pipeWinStatus_at
      | dsimp only [F.pipeTwinStatus_BUSY, F.pipeWinStatus_BUSY] | (show _ = _; rfl)

theorem State.setWin_writes {s : State} {x1 x2 x3} : Writes [Reg.pipeWinData 0 0] s (State.setWin s x1 x2 x3) := by
  unfold State.setWin; repeat' first
      | intro _ | with_reducible assumption | with_reducible exact Writes.refl | with_reducible apply Writes.setReg
      | with_reducible apply State.each_writes | with_reducible apply Reg.pipeWinData_at | (show _ = _; rfl)

theorem State.winErr_writes {s : State} {x1 x2} : Writes [Reg.pipeWinStatus 0] s (State.winErr s x1 x2) := by
  unfold State.winErr; repeat' first
      | with_reducible exact Writes.refl | with_reducible apply Writes.setF | with_reducible apply Reg.pipeWinStatus_at
      | dsimp only [F.pipeWinStatus_ERR] | (show _ = _; rfl)

theorem State.winRead_writes {s : State} {x1 x2 x3 x4} : Writes [Reg.pipeWinStatus 0, Reg.pipeWinData 0 0] s (State.winRead s x1 x2 x3 x4) := by
  unfold State.winRead; repeat' first
      | intro _ | (extract_lets +onlyGivenNames v; clear_value v) | with_reducible assumption | with_reducible exact Writes.refl
      | with_reducible apply Writes.setReg | with_reducible apply Writes.step State.setWin_writes
      | with_reducible apply Writes.kept State.fresh_kept | with_reducible apply Writes.kept State.modParser_kept
      | with_reducible apply Writes.step State.winErr_writes | with_reducible apply State.each_writes | with_reducible apply Reg.pipeWinData_at
      | (show _ = _; rfl) | split

theorem State.winWrite_writes {s : State} {x1 x2 x3} : Writes [Reg.pipeWinStatus 0] s (State.winWrite s x1 x2 x3) := by
  unfold State.winWrite; repeat' first
      | with_reducible exact Writes.refl | with_reducible apply Writes.ite | with_reducible apply Writes.kept State.modParser_kept
      | with_reducible apply Writes.step State.winErr_writes | (show _ = _; rfl) | split

theorem State.winRemove_writes {s : State} {x1 x2 x3} : Writes [Reg.pipeWinStatus 0] s (State.winRemove s x1 x2 x3) := by
  unfold State.winRemove; repeat' first
      | with_reducible exact Writes.refl | with_reducible apply Writes.ite | with_reducible apply Writes.kept State.modParser_kept
      | with_reducible apply Writes.step State.winErr_writes | (show _ = _; rfl) | split

theorem State.winCtrl_writes {s : State} {x1 x2 x3} :
    Writes [Reg.pipeWinCtrl 0, Reg.pipeWinStatus 0, Reg.pipeWinData 0 0] s (State.winCtrl s x1 x2 x3) := by
  unfold State.winCtrl; repeat' first
      | (extract_lets +onlyGivenNames v; apply Writes.gen (v := v); subst v; rotate_left; clear_value v; intro h; rotate_right)
      | with_reducible assumption | with_reducible exact Writes.refl | with_reducible apply Writes.step State.winRead_writes
      | with_reducible apply Writes.step State.winWrite_writes | with_reducible apply Writes.putRw
      | with_reducible apply Writes.step State.winRemove_writes | with_reducible apply Reg.pipeWinCtrl_at | (show _ = _; rfl) | split

theorem State.showFrag_writes {s : State} {x1} : Writes [Reg.pipeFragStatus 0] s (State.showFrag s x1) := by
  unfold State.showFrag; repeat' first
      | (extract_lets +onlyGivenNames v; apply Writes.gen (v := v); subst v; rotate_left; clear_value v; intro h; rotate_right)
      | with_reducible assumption | with_reducible exact Writes.refl | with_reducible apply Writes.setF
      | with_reducible apply Writes.kept State.modParser_kept | with_reducible apply Reg.pipeFragStatus_at | dsimp only [F.pipeFragStatus_USED]
      | (show _ = _; rfl) | split

theorem State.commitPipe_writes {s : State} {x1 x2} :
    Writes [Reg.ringStatus 0, Reg.ringDevIdx 0, Reg.ringLoss 0, Reg.msixPba 0, Reg.perfWrapLo 0, Reg.perfWrapHi 0, Reg.pipeGenStatus 0,
    Reg.pipeGenDrain 0, Reg.pipeProgVer 0, Reg.pipeWinStatus 0, Reg.pipeMacUsed 0, Reg.pipeTwinStatus 0] s (State.commitPipe s x1 x2) := by
  unfold State.commitPipe; repeat' first
      | (extract_lets +onlyGivenNames v; apply Writes.gen (v := v); subst v; rotate_left; clear_value v; intro h; rotate_right)
      | with_reducible assumption | with_reducible exact Writes.refl | with_reducible apply Writes.kept State.modPipe_kept
      | with_reducible apply Writes.setF | with_reducible apply Writes.kept State.countParse_kept
      | with_reducible apply Writes.step State.showGen_writes | with_reducible apply Writes.kept State.modParser_kept
      | with_reducible apply Writes.step State.raise_writes | with_reducible apply Reg.pipeGenDrain_at
      | with_reducible apply Reg.pipeGenStatus_at
      | dsimp only [F.pipeGenDrain_COUNT, F.pipeGenStatus_ACTIVE, F.pipeGenStatus_COMMIT_WAIT, F.pipeGenStatus_DRAINING,
      F.pipeGenStatus_DRN_VALID, F.pipeGenStatus_PENDING, F.pipeGenStatus_PEND_OPEN] | (show _ = _; rfl)

theorem State.commitOver_writes {s : State} {x1 x2} :
    Writes [Reg.hostifCnt 0, Reg.ringStatus 0, Reg.ringDevIdx 0, Reg.msixPba 0, Reg.perfWrapLo 0, Reg.perfWrapHi 0,
    Reg.pipeGenStatus 0] s (State.commitOver s x1 x2) := by
  unfold State.commitOver; repeat' first
      | intro _ | with_reducible assumption | with_reducible exact Writes.refl | with_reducible apply Writes.setF
      | with_reducible apply State.each_writes | with_reducible apply Writes.step State.finish_writes
      | with_reducible apply Reg.pipeGenStatus_at | dsimp only [F.pipeGenStatus_COMMIT_WAIT] | (show _ = _; rfl)

theorem State.commitStep_writes {s : State} {x1 x2} :
    Writes [Reg.globalLateFlags, Reg.globalLateCnt 0, Reg.hostifCnt 0, Reg.ringStatus 0, Reg.ringDevIdx 0, Reg.ringLoss 0, Reg.msixPba 0,
    Reg.perfWrapLo 0, Reg.perfWrapHi 0, Reg.pipeGenStatus 0, Reg.pipeGenDrain 0, Reg.pipeProgVer 0, Reg.pipeWinStatus 0, Reg.pipeMacUsed 0,
    Reg.pipeTwinStatus 0] s (State.commitStep s x1 x2).1 := by
  unfold State.commitStep; repeat' first
      | intro _ | (extract_lets +onlyGivenNames v; apply Writes.gen (v := v); subst v; rotate_left; clear_value v; intro h; rotate_right)
      | (extract_lets +onlyGivenNames v; clear_value v) | with_reducible assumption | with_reducible exact Writes.refl
      | with_reducible apply Writes.kept State.modParked_kept | with_reducible apply Writes.kept State.countParse_kept
      | with_reducible apply Writes.step State.commitPipe_writes | with_reducible apply Writes.step State.late_writes
      | with_reducible apply State.each_writes | with_reducible apply State.when_writes
      | with_reducible apply Writes.step State.commitOver_writes | (show _ = _; rfl) | split

theorem State.commitBoundary_writes {s : State} {x1} :
    Writes [Reg.globalLateFlags, Reg.globalLateCnt 0, Reg.hostifCnt 0, Reg.ringStatus 0, Reg.ringDevIdx 0, Reg.ringLoss 0, Reg.msixPba 0,
    Reg.perfWrapLo 0, Reg.perfWrapHi 0, Reg.pipeGenStatus 0, Reg.pipeGenDrain 0, Reg.pipeProgVer 0, Reg.pipeWinStatus 0, Reg.pipeMacUsed 0,
    Reg.pipeTwinStatus 0] s (State.commitBoundary s x1) := by
  unfold State.commitBoundary; repeat' first
      | intro _ | (extract_lets +onlyGivenNames v; apply Writes.gen (v := v); subst v; rotate_left; clear_value v; intro h; rotate_right)
      | (extract_lets +onlyGivenNames v; apply Writes.gen (v := v.1); subst v; rotate_left; clear_value v; intro h; rotate_right)
      | with_reducible assumption | with_reducible exact Writes.refl | with_reducible apply Writes.foldlFst
      | with_reducible apply Writes.step State.commitStep_writes | (show _ = _; rfl) | with_reducible apply Writes.put_pipes

theorem execWinRead_writes {s : State} {x0 x1} {t} (h : execWinRead x0 x1 s = .next t) :
    Writes [Reg.pipeWinCtrl 0, Reg.pipeWinStatus 0, Reg.pipeWinData 0 0] s t := by
  unfold execWinRead at h; injection h with h; subst h; repeat' first
      | with_reducible exact Writes.refl | with_reducible apply Writes.step State.winCtrl_writes | (show _ = _; rfl) | split

theorem execGenCommit_writes {s : State} {x0} {t} (h : execGenCommit x0 s = .next t) :
    Writes [Reg.hostifCnt 0, Reg.ringStatus 0, Reg.ringDevIdx 0, Reg.msixPba 0, Reg.perfWrapLo 0, Reg.perfWrapHi 0, Reg.pipeGenStatus 0] s t := by
  unfold execGenCommit at h; injection h with h; subst h; repeat' first
      | intro _ | with_reducible assumption | with_reducible exact Writes.refl | with_reducible apply Writes.ite
      | with_reducible apply Writes.kept State.parkId_kept | with_reducible apply State.start_writes | with_reducible apply Writes.setF
      | with_reducible apply Writes.step State.complete_writes | with_reducible apply State.each_writes
      | with_reducible apply Reg.pipeGenStatus_at | dsimp only [F.pipeGenStatus_COMMIT_WAIT] | (show _ = _; rfl)
      | with_reducible apply Writes.put_pipes

theorem execFragExpire_writes {s : State} {x0 x1} {t} (h : execFragExpire x0 x1 s = .next t) : Writes [Reg.pipeFragStatus 0] s t := by
  unfold execFragExpire at h; injection h with h; subst h; repeat' first
      | with_reducible exact Writes.refl | with_reducible apply Writes.step State.showFrag_writes
      | with_reducible apply Writes.kept State.countParse_kept | with_reducible apply Writes.kept State.modParser_kept | (show _ = _; rfl) | split

theorem execFragFlush_writes {s : State} {x0} {t} (h : execFragFlush x0 s = .next t) :
    Writes [Reg.hostifCnt 0, Reg.ringStatus 0, Reg.ringDevIdx 0, Reg.msixPba 0, Reg.perfWrapLo 0, Reg.perfWrapHi 0, Reg.pipeFragStatus 0] s t := by
  unfold execFragFlush at h; injection h with h; subst h; repeat' first
      | intro _ | with_reducible assumption | with_reducible exact Writes.refl | with_reducible apply Writes.step State.showFrag_writes
      | with_reducible apply State.start_writes | with_reducible apply Writes.kept State.modParser_kept
      | with_reducible apply Writes.step State.complete_writes | with_reducible apply State.each_writes | (show _ = _; rfl)

theorem execWinRemove_writes {s : State} {x0 x1} {t} (h : execWinRemove x0 x1 s = .next t) :
    Writes [Reg.pipeWinCtrl 0, Reg.pipeWinStatus 0, Reg.pipeWinData 0 0] s t := by
  unfold execWinRemove at h; injection h with h; subst h; repeat' first
      | with_reducible exact Writes.refl | with_reducible apply Writes.step State.winCtrl_writes | (show _ = _; rfl) | split

theorem State.discardPipe_writes {s : State} {x1} :
    Writes [Reg.pipeProgVer 0, Reg.pipeWinStatus 0, Reg.pipeMacUsed 0, Reg.pipeLpmUsed 0, Reg.pipeTwinStatus 0] s (State.discardPipe s x1) := by
  unfold State.discardPipe; repeat' first
      | (extract_lets +onlyGivenNames v; apply Writes.gen (v := v); subst v; rotate_left; clear_value v; intro h; rotate_right)
      | with_reducible assumption | with_reducible exact Writes.refl | with_reducible apply Writes.kept State.modPipe_kept
      | with_reducible apply Writes.step State.showGen_writes | with_reducible apply Writes.kept State.modParser_kept
      | with_reducible apply Writes.step State.showLpm_writes | (show _ = _; rfl)

theorem execGenDiscard_writes {s : State} {x0} {t} (h : execGenDiscard x0 s = .next t) :
    Writes [Reg.hostifCnt 0, Reg.ringStatus 0, Reg.ringDevIdx 0, Reg.msixPba 0, Reg.perfWrapLo 0, Reg.perfWrapHi 0, Reg.pipeProgVer 0,
    Reg.pipeWinStatus 0, Reg.pipeMacUsed 0, Reg.pipeLpmUsed 0, Reg.pipeTwinStatus 0] s t := by
  unfold execGenDiscard at h; injection h with h; subst h; repeat' first
      | intro _ | with_reducible assumption | with_reducible exact Writes.refl | with_reducible apply Writes.ite
      | with_reducible apply State.start_writes | with_reducible apply Writes.step State.complete_writes
      | with_reducible apply Writes.step State.discardPipe_writes | with_reducible apply State.each_writes | (show _ = _; rfl)

theorem execParseLoad_writes {s : State} {x0 x1 x2} {t} (h : execParseLoad x0 x1 x2 s = .next t) :
    Writes [Reg.hostifCnt 0, Reg.ringStatus 0, Reg.ringDevIdx 0, Reg.msixPba 0, Reg.perfWrapLo 0, Reg.perfWrapHi 0] s t := by
  unfold execParseLoad at h; injection h with h; subst h; repeat' first
      | intro _ | with_reducible assumption | with_reducible exact Writes.refl | with_reducible apply Writes.ite
      | with_reducible apply State.start_writes | with_reducible apply Writes.kept State.modParser_kept
      | with_reducible apply Writes.step State.complete_writes | with_reducible apply State.each_writes | (show _ = _; rfl)

theorem State.dropShadowed_writes {s : State} {x1} : Writes [Reg.pipeMacUsed 0, Reg.pipeLearnLimit 0 0] s (State.dropShadowed s x1) := by
  unfold State.dropShadowed; repeat' first
      | intro _ | with_reducible assumption | with_reducible exact Writes.refl | with_reducible apply State.each_writes
      | with_reducible apply Writes.step State.macRemove_writes | (show _ = _; rfl)

theorem execGenDrained_writes {s : State} {x0} {t} (h : execGenDrained x0 s = .next t) :
    Writes [Reg.ringStatus 0, Reg.ringDevIdx 0, Reg.ringLoss 0, Reg.msixPba 0, Reg.perfWrapLo 0, Reg.perfWrapHi 0, Reg.pipeGenStatus 0,
    Reg.pipeProgVer 0, Reg.pipeWinStatus 0, Reg.pipeMacUsed 0, Reg.pipeLpmUsed 0, Reg.pipeLearnLimit 0 0, Reg.pipeTwinStatus 0] s t := by
  unfold execGenDrained at h; injection h with h; subst h; repeat' first
      | (extract_lets +onlyGivenNames v; apply Writes.gen (v := v); subst v; rotate_left; clear_value v; intro h; rotate_right)
      | with_reducible assumption | with_reducible exact Writes.refl | with_reducible apply Writes.kept State.modPipe_kept
      | with_reducible apply Writes.setF | with_reducible apply Writes.step State.showGen_writes
      | with_reducible apply Writes.kept State.modParser_kept | with_reducible apply Writes.step State.dropShadowed_writes
      | with_reducible apply Writes.step State.raise_writes | with_reducible apply Writes.step State.showLpm_writes
      | with_reducible apply Reg.pipeGenStatus_at | dsimp only [F.pipeGenStatus_DRN_VALID, F.pipeGenStatus_PEND_OPEN] | (show _ = _; rfl) | split

theorem execWinWrite_writes {s : State} {x0 x1} {t} (h : execWinWrite x0 x1 s = .next t) :
    Writes [Reg.pipeWinCtrl 0, Reg.pipeWinStatus 0, Reg.pipeWinData 0 0] s t := by
  unfold execWinWrite at h; injection h with h; subst h; repeat' first
      | with_reducible exact Writes.refl | with_reducible apply Writes.step State.winCtrl_writes | (show _ = _; rfl) | split

end Sys2Proof.Machine
end

