-- ==== Sys2Proof/Laws/WritesTableRows.lean ====
section
/-!
SUPPORT. Sys2Proof/Laws/WritesTableRows.lean: which registers each operation of Machine/TableRows.lean may change.
-/
namespace Sys2Proof.Machine
open Sys2Proof

theorem State.twinCtrl_writes {R : List Nat} {s t : State} {x1 x2 x3} (g : ∀ v a0 a1 a2, Writes R s v → Writes R s (x3 v a0 a1 a2)) (hs : [Reg.pipeTwinCtrl 0].all R.contains = true) (h :
    Writes R s t) :
    Writes R s (State.twinCtrl t x1 x2 x3) := by
  unfold State.twinCtrl; repeat' first
      | (extract_lets +onlyGivenNames v; apply Writes.gen (v := v); subst v; rotate_left; clear_value v; intro h; rotate_right)
      | with_reducible apply Writes.putRw | with_reducible apply Reg.pipeTwinCtrl_at | with_reducible assumption | exact AtReg.of_all hs rfl
      | with_reducible apply g | split

theorem State.twinErr_writes {s : State} {x1 x2} : Writes [Reg.pipeTwinStatus 0] s (State.twinErr s x1 x2) := by
  unfold State.twinErr; repeat' first
      | with_reducible exact Writes.refl | with_reducible apply Writes.setF | with_reducible apply Reg.pipeTwinStatus_at
      | dsimp only [F.pipeTwinStatus_ERR] | (show _ = _; rfl)

theorem State.twinInjectOp_writes {s : State} {x1 x2} :
    Writes [Reg.pipeLearnStatus 0, Reg.pipeTwinCtrl 0, Reg.pipeTwinStatus 0] s (State.twinInjectOp s x1 x2) := by
  unfold State.twinInjectOp; repeat' first
      | intro _ | with_reducible assumption | with_reducible exact Writes.refl | with_reducible apply State.twinCtrl_writes
      | with_reducible apply Writes.step State.twinErr_writes | with_reducible apply Writes.step State.learnQueue_writes | (show _ = _; rfl) | split

theorem State.twinLookupOp_writes {s : State} {x1 x2} :
    Writes [Reg.pipeTwinCtrl 0, Reg.pipeTwinStatus 0, Reg.pipeTwinData 0 0] s (State.twinLookupOp s x1 x2) := by
  unfold State.twinLookupOp; repeat' first
      | intro _ | with_reducible assumption | with_reducible exact Writes.refl | with_reducible apply Writes.setReg
      | with_reducible apply State.twinCtrl_writes | with_reducible apply Writes.step State.twinErr_writes
      | with_reducible apply Reg.pipeTwinData_at | (show _ = _; rfl) | split

theorem State.twinWriteOp_writes {s : State} {x1 x2} :
    Writes [Reg.pipeMoveEpoch 0, Reg.pipeMacUsed 0, Reg.pipeLpmUsed 0, Reg.pipeTwinCtrl 0, Reg.pipeTwinStatus 0] s (State.twinWriteOp s x1 x2) := by
  unfold State.twinWriteOp; repeat' first
      | intro _ | (extract_lets +onlyGivenNames v; apply Writes.gen (v := v.1); subst v; rotate_left; clear_value v; intro h; rotate_right)
      | with_reducible assumption | with_reducible exact Writes.refl | with_reducible apply Writes.step State.twinWrite_writes
      | with_reducible apply State.twinCtrl_writes | with_reducible apply Writes.step State.twinErr_writes | (show _ = _; rfl) | split

theorem State.showRec_writes {s : State} {x1 x2} : Writes [Reg.pipeTwinData 0 0] s (State.showRec s x1 x2) := by
  unfold State.showRec; repeat' first
      | intro _ | with_reducible assumption | with_reducible exact Writes.refl | with_reducible apply Writes.setReg
      | with_reducible apply Writes.setF | with_reducible apply State.each_writes | with_reducible apply Reg.pipeTwinData_at | (show _ = _; rfl)

theorem State.twinReadOp_writes {s : State} {x1 x2} :
    Writes [Reg.pipeTwinCtrl 0, Reg.pipeTwinStatus 0, Reg.pipeTwinData 0 0] s (State.twinReadOp s x1 x2) := by
  unfold State.twinReadOp; repeat' first
      | intro _ | with_reducible assumption | with_reducible exact Writes.refl | with_reducible apply Writes.step State.showRec_writes
      | with_reducible apply State.twinCtrl_writes | with_reducible apply Writes.step State.twinErr_writes | (show _ = _; rfl) | split

theorem State.twinRemoveOp_writes {s : State} {x1 x2} :
    Writes [Reg.pipeMacUsed 0, Reg.pipeLpmUsed 0, Reg.pipeLearnLimit 0 0, Reg.pipeTwinCtrl 0,
    Reg.pipeTwinStatus 0] s (State.twinRemoveOp s x1 x2) := by
  unfold State.twinRemoveOp; repeat' first
      | intro _ | (extract_lets +onlyGivenNames v; apply Writes.gen (v := v.1); subst v; rotate_left; clear_value v; intro h; rotate_right)
      | with_reducible assumption | with_reducible exact Writes.refl | with_reducible apply State.twinCtrl_writes
      | with_reducible apply Writes.step State.twinErr_writes | with_reducible apply Writes.step State.twinRemove_writes | (show _ = _; rfl) | split

theorem State.twinOp_writes {s : State} {x1 x2} :
    Writes [Reg.pipeLearnStatus 0, Reg.pipeMoveEpoch 0, Reg.pipeMacUsed 0, Reg.pipeLpmUsed 0, Reg.pipeLearnLimit 0 0, Reg.pipeTwinCtrl 0,
    Reg.pipeTwinStatus 0, Reg.pipeTwinData 0 0] s (State.twinOp s x1 x2) := by
  unfold State.twinOp; repeat' first
      | intro _ | with_reducible assumption | with_reducible exact Writes.refl | with_reducible apply Writes.step State.twinInjectOp_writes
      | with_reducible apply Writes.step State.twinLookupOp_writes | with_reducible apply Writes.step State.twinWriteOp_writes
      | with_reducible apply State.twinCtrl_writes | with_reducible apply Writes.step State.twinReadOp_writes
      | with_reducible apply Writes.step State.twinRemoveOp_writes | (show _ = _; rfl) | split

theorem State.bulkOne_writes {s : State} {x1 x2 x3} :
    Writes [Reg.pipeLearnStatus 0, Reg.pipeMoveEpoch 0, Reg.pipeMacUsed 0, Reg.pipeLpmUsed 0,
    Reg.pipeLearnLimit 0 0] s (State.bulkOne s x1 x2 x3).1 := by
  unfold State.bulkOne; repeat' first
      | (extract_lets +onlyGivenNames v; apply Writes.gen (v := v.1); subst v; rotate_left; clear_value v; intro h; rotate_right)
      | with_reducible assumption | with_reducible exact Writes.refl | with_reducible apply Writes.step State.twinWrite_writes
      | with_reducible apply Writes.step State.twinRemove_writes | with_reducible apply Writes.step State.learnQueue_writes | (show _ = _; rfl)
      | split

theorem State.bulkRecord_writes {s : State} {x1 x2 x3} :
    Writes [Reg.pipeLearnStatus 0, Reg.pipeMoveEpoch 0, Reg.pipeMacUsed 0, Reg.pipeLpmUsed 0,
    Reg.pipeLearnLimit 0 0] s (State.bulkRecord s x1 x2 x3).1 := by
  unfold State.bulkRecord; repeat' first
      | intro _ | (extract_lets +onlyGivenNames v; apply Writes.gen (v := v.1); subst v; rotate_left; clear_value v; intro h; rotate_right)
      | with_reducible assumption | with_reducible exact Writes.refl | with_reducible apply Writes.foldlFst
      | with_reducible apply Writes.step State.bulkOne_writes | (show _ = _; rfl)

theorem State.bulkStep_writes {s : State} {x1} :
    Writes [Reg.pipeLearnStatus 0, Reg.pipeMoveEpoch 0, Reg.pipeMacUsed 0, Reg.pipeLpmUsed 0, Reg.pipeLearnLimit 0 0] s (State.bulkStep s x1) := by
  unfold State.bulkStep; repeat' first
      | (extract_lets +onlyGivenNames v; apply Writes.gen (v := v.1); subst v; rotate_left; clear_value v; intro h; rotate_right)
      | with_reducible assumption | with_reducible exact Writes.refl | with_reducible apply Writes.kept State.bufWrite_kept
      | with_reducible apply Writes.step State.bulkRecord_writes | with_reducible apply Writes.kept State.bulkCount_kept
      | with_reducible apply Writes.kept State.setBulk_kept | (show _ = _; rfl) | split

theorem State.flapBoundary_writes {s : State} :
    Writes [Reg.ringStatus 0, Reg.ringDevIdx 0, Reg.ringLoss 0, Reg.msixPba 0, Reg.perfWrapLo 0, Reg.perfWrapHi 0] s (State.flapBoundary s) := by
  unfold State.flapBoundary; repeat' first
      | intro _ | with_reducible assumption | with_reducible exact Writes.refl | with_reducible apply Writes.kept State.modFwd_kept
      | with_reducible apply State.each_writes | with_reducible apply Writes.step State.raise_writes | (show _ = _; rfl) | split

theorem execTwinWrite_writes {s : State} {x0 x1} {t} (h : execTwinWrite x0 x1 s = .next t) :
    Writes [Reg.pipeMoveEpoch 0, Reg.pipeMacUsed 0, Reg.pipeLpmUsed 0, Reg.pipeTwinCtrl 0, Reg.pipeTwinStatus 0] s t := by
  unfold execTwinWrite at h; injection h with h; subst h; repeat' first
      | with_reducible exact Writes.refl | with_reducible apply Writes.step State.twinWriteOp_writes | (show _ = _; rfl)

theorem State.bulkAll_writes {s : State} {x1 x2 x3} :
    Writes [Reg.ringStatus 0, Reg.ringDevIdx 0, Reg.ringLoss 0, Reg.msixPba 0, Reg.perfWrapLo 0, Reg.perfWrapHi 0, Reg.pipeLearnStatus 0,
    Reg.pipeMoveEpoch 0, Reg.pipeMacUsed 0, Reg.pipeLpmUsed 0, Reg.pipeLearnLimit 0 0] s (State.bulkAll s x1 x2 x3) := by
  induction x3 generalizing s with
  | zero => exact Writes.refl
  | succ n ih => unfold State.bulkAll; repeat' first
      | intro _ | with_reducible apply Writes.step ih | with_reducible assumption | with_reducible exact Writes.refl
      | with_reducible apply Writes.step State.serve_writes | with_reducible apply State.each_writes
      | with_reducible apply Writes.step State.bulkStep_writes | (show _ = _; rfl) | split

theorem State.bulkEnd_writes {s : State} {x1} :
    Writes [Reg.ringStatus 0, Reg.ringDevIdx 0, Reg.ringLoss 0, Reg.msixPba 0, Reg.perfWrapLo 0, Reg.perfWrapHi 0, Reg.pipeLearnStatus 0,
    Reg.pipeMoveEpoch 0, Reg.pipeMacUsed 0, Reg.pipeLpmUsed 0, Reg.pipeLearnLimit 0 0] s (State.bulkEnd s x1) := by
  unfold State.bulkEnd; repeat' first
      | with_reducible exact Writes.refl | with_reducible apply Writes.step State.bulkAll_writes
      | with_reducible apply Writes.kept State.modBulk_kept | (show _ = _; rfl)

theorem execTwinRead_writes {s : State} {x0 x1} {t} (h : execTwinRead x0 x1 s = .next t) :
    Writes [Reg.pipeTwinCtrl 0, Reg.pipeTwinStatus 0, Reg.pipeTwinData 0 0] s t := by
  unfold execTwinRead at h; injection h with h; subst h; repeat' first
      | with_reducible exact Writes.refl | with_reducible apply Writes.step State.twinReadOp_writes | (show _ = _; rfl)

theorem execTwinLookup_writes {s : State} {x0 x1} {t} (h : execTwinLookup x0 x1 s = .next t) :
    Writes [Reg.pipeTwinCtrl 0, Reg.pipeTwinStatus 0, Reg.pipeTwinData 0 0] s t := by
  unfold execTwinLookup at h; injection h with h; subst h; repeat' first
      | with_reducible exact Writes.refl | with_reducible apply Writes.step State.twinLookupOp_writes | (show _ = _; rfl)

theorem execTableBulk_writes {s : State} {x0 x1} {t} (h : execTableBulk x0 x1 s = .next t) :
    Writes [Reg.hostifCnt 0, Reg.ringStatus 0, Reg.ringDevIdx 0, Reg.msixPba 0, Reg.perfWrapLo 0, Reg.perfWrapHi 0] s t := by
  unfold execTableBulk at h; injection h with h; subst h; repeat' first
      | intro _ | (extract_lets +onlyGivenNames v; apply Writes.gen (v := v); subst v; rotate_left; clear_value v; intro h; rotate_right)
      | (extract_lets +onlyGivenNames v; clear_value v) | with_reducible assumption | with_reducible exact Writes.refl
      | with_reducible apply State.start_writes | with_reducible apply State.startLong_writes
      | with_reducible apply Writes.kept State.bulkBegin_kept | with_reducible apply Writes.kept State.modBulk_kept | (show _ = _; rfl) | split

theorem execMacFlushScanEnd_writes {s : State} {t} (h : execMacFlushScanEnd s = .next t) :
    Writes [Reg.hostifCnt 0, Reg.ringStatus 0, Reg.ringDevIdx 0, Reg.msixPba 0, Reg.perfWrapLo 0, Reg.perfWrapHi 0] s t := by
  unfold execMacFlushScanEnd at h; injection h with h; subst h; repeat' first
      | with_reducible exact Writes.refl | with_reducible apply Writes.step State.finish_writes | (show _ = _; rfl) | split
      | with_reducible apply Writes.put_pipes

theorem execAgeRemove_writes {s : State} {x0 x1} {t} (h : execAgeRemove x0 x1 s = .next t) :
    Writes [Reg.pipeMacUsed 0, Reg.pipeLearnLimit 0 0] s t := by
  unfold execAgeRemove at h; injection h with h; subst h; repeat' first
      | with_reducible exact Writes.refl | with_reducible apply Writes.kept State.countFwd_kept
      | with_reducible apply Writes.step State.macRemove_writes | (show _ = _; rfl) | split

theorem execMacFlush_writes {s : State} {x0} {t} (h : execMacFlush x0 s = .next t) :
    Writes [Reg.hostifCnt 0, Reg.ringStatus 0, Reg.ringDevIdx 0, Reg.msixPba 0, Reg.perfWrapLo 0, Reg.perfWrapHi 0, Reg.pipeMacUsed 0,
    Reg.pipeLearnLimit 0 0] s t := by
  unfold execMacFlush at h; injection h with h; subst h; repeat' first
      | intro _ | (extract_lets +onlyGivenNames v; apply Writes.gen (v := v); subst v; rotate_left; clear_value v; intro h; rotate_right)
      | (extract_lets +onlyGivenNames v; apply Writes.gen (v := v.1); subst v; rotate_left; clear_value v; intro h; rotate_right)
      | with_reducible assumption | with_reducible exact Writes.refl | with_reducible apply Writes.foldlFst
      | with_reducible apply Writes.kept State.modParked_kept | with_reducible apply Writes.kept State.parkId_kept
      | with_reducible apply State.start_writes | with_reducible apply Writes.step State.flushMac_writes
      | with_reducible apply State.when_writes | (show _ = _; rfl) | (with_reducible apply Writes.fst (by assumption))
      | with_reducible apply Writes.put_pipes

theorem execLearnServe_writes {s : State} {x0} {t} (h : execLearnServe x0 s = .next t) :
    Writes [Reg.ringStatus 0, Reg.ringDevIdx 0, Reg.ringLoss 0, Reg.msixPba 0, Reg.perfWrapLo 0, Reg.perfWrapHi 0, Reg.pipeLearnStatus 0,
    Reg.pipeMoveEpoch 0, Reg.pipeMacUsed 0, Reg.pipeLearnLimit 0 0] s t := by
  unfold execLearnServe at h; injection h with h; subst h; repeat' first
      | with_reducible exact Writes.refl | with_reducible apply Writes.step State.serve_writes | (show _ = _; rfl) | split

theorem execTwinRemove_writes {s : State} {x0 x1} {t} (h : execTwinRemove x0 x1 s = .next t) :
    Writes [Reg.pipeMacUsed 0, Reg.pipeLpmUsed 0, Reg.pipeLearnLimit 0 0, Reg.pipeTwinCtrl 0, Reg.pipeTwinStatus 0] s t := by
  unfold execTwinRemove at h; injection h with h; subst h; repeat' first
      | with_reducible exact Writes.refl | with_reducible apply Writes.step State.twinRemoveOp_writes | (show _ = _; rfl)

theorem execTwinInject_writes {s : State} {x0 x1} {t} (h : execTwinInject x0 x1 s = .next t) :
    Writes [Reg.pipeLearnStatus 0, Reg.pipeTwinCtrl 0, Reg.pipeTwinStatus 0] s t := by
  unfold execTwinInject at h; injection h with h; subst h; repeat' first
      | with_reducible exact Writes.refl | with_reducible apply Writes.step State.twinInjectOp_writes | (show _ = _; rfl)

end Sys2Proof.Machine
end

