-- ==== Sys2Proof/Laws/WritesFrameRows.lean ====
section
/-!
SUPPORT. Sys2Proof/Laws/WritesFrameRows.lean: which registers each operation of Machine/FrameRows.lean may change.
-/
namespace Sys2Proof.Machine
open Sys2Proof

theorem State.request_writes {s : State} {x1 x2 x3} : Writes [Reg.pipeLearnStatus 0] s (State.request s x1 x2 x3) := by
  unfold State.request; repeat' first
      | intro _ | (extract_lets +onlyGivenNames v; apply Writes.gen (v := v); subst v; rotate_left; clear_value v; intro h; rotate_right)
      | with_reducible assumption | with_reducible exact Writes.refl | with_reducible apply State.each_writes
      | with_reducible apply Writes.step State.learnQueue_writes | (show _ = _; rfl) | split

theorem State.source_writes {s : State} {x1 x2 x3 x4 x5} : Writes [Reg.pipeLearnStatus 0] s (State.source s x1 x2 x3 x4 x5) := by
  unfold State.source; repeat' first
      | (extract_lets +onlyGivenNames v; apply Writes.gen (v := v); subst v; rotate_left; clear_value v; intro h; rotate_right)
      | (extract_lets +onlyGivenNames v; clear_value v) | with_reducible assumption | with_reducible exact Writes.refl
      | with_reducible apply Writes.kept State.macMod_kept | with_reducible apply Writes.step State.request_writes | (show _ = _; rfl) | split

theorem State.overrunAt_writes {s : State} {x1 x2} :
    Writes [Reg.ringStatus 0, Reg.ringDevIdx 0, Reg.ringLoss 0, Reg.msixPba 0, Reg.perfWrapLo 0, Reg.perfWrapHi 0,
    Reg.iaDepth 0] s (State.overrunAt s x1 x2) := by
  unfold State.overrunAt; repeat' first
      | (extract_lets +onlyGivenNames v; apply Writes.gen (v := v); subst v; rotate_left; clear_value v; intro h; rotate_right)
      | with_reducible assumption | with_reducible exact Writes.refl | with_reducible apply Writes.setF
      | with_reducible apply Writes.step State.raise_writes | with_reducible apply Writes.kept State.modFabric_kept
      | with_reducible apply Reg.iaDepth_at | dsimp only [F.iaDepth_OVERRUN] | (show _ = _; rfl) | split

theorem State.refuse_writes {s : State} {x1 x2 x3 x4} :
    Writes [Reg.ringStatus 0, Reg.ringDevIdx 0, Reg.ringLoss 0, Reg.msixPba 0, Reg.perfWrapLo 0, Reg.perfWrapHi 0, Reg.portPauseStatus 0,
    Reg.fabricStatus, Reg.eqDepth 0, Reg.iaDepth 0, Reg.deepFree, Reg.iuEdges 0] s (State.refuse s x1 x2 x3 x4) := by
  unfold State.refuse; repeat' first
      | (extract_lets +onlyGivenNames v; apply Writes.gen (v := v); subst v; rotate_left; clear_value v; intro h; rotate_right)
      | with_reducible assumption | with_reducible exact Writes.refl | with_reducible apply Writes.kept State.countFab_kept
      | with_reducible apply Writes.step State.discard_writes | with_reducible apply Writes.step State.overrunAt_writes | (show _ = _; rfl) | split

theorem State.link'_writes {s : State} {x1 x2 x3 x4} :
    Writes [Reg.portPauseStatus 0, Reg.iaDepth 0, Reg.iuEdges 0] s (State.link' s x1 x2 x3 x4) := by
  unfold State.link'; repeat' first
      | intro _ | (extract_lets +onlyGivenNames v; apply Writes.gen (v := v); subst v; rotate_left; clear_value v; intro h; rotate_right)
      | with_reducible assumption | with_reducible exact Writes.refl | with_reducible apply Writes.kept State.countFab_kept
      | with_reducible apply Writes.kept State.modFrame_kept | with_reducible apply Writes.step State.showIa_writes
      | with_reducible apply Writes.kept State.headroomIn_kept | with_reducible apply Writes.kept State.modFabric_kept
      | with_reducible apply State.when_writes | (show _ = _; rfl)

theorem State.linkGroup_writes {s : State} {x1 x2 x3} :
    Writes [Reg.ringStatus 0, Reg.ringDevIdx 0, Reg.ringLoss 0, Reg.msixPba 0, Reg.perfWrapLo 0, Reg.perfWrapHi 0, Reg.portPauseStatus 0,
    Reg.fabricStatus, Reg.eqDepth 0, Reg.iaDepth 0, Reg.deepFree, Reg.iuEdges 0] s (State.linkGroup s x1 x2 x3) := by
  unfold State.linkGroup; repeat' first
      | intro _ | (extract_lets +onlyGivenNames v; apply Writes.gen (v := v); subst v; rotate_left; clear_value v; intro h; rotate_right)
      | (extract_lets +onlyGivenNames v; clear_value v) | with_reducible assumption | with_reducible exact Writes.refl
      | with_reducible apply Writes.kept State.countFab_kept | with_reducible apply Writes.step State.refuse_writes
      | with_reducible apply State.each_writes | with_reducible apply Writes.step State.discard_writes
      | with_reducible apply Writes.step State.link'_writes | (show _ = _; rfl) | split

theorem State.linkUnicast_writes {s : State} {x1 x2} :
    Writes [Reg.ringStatus 0, Reg.ringDevIdx 0, Reg.ringLoss 0, Reg.msixPba 0, Reg.perfWrapLo 0, Reg.perfWrapHi 0, Reg.portPauseStatus 0,
    Reg.fabricStatus, Reg.eqDepth 0, Reg.iaDepth 0, Reg.deepFree, Reg.iuEdges 0] s (State.linkUnicast s x1 x2) := by
  unfold State.linkUnicast; repeat' first
      | with_reducible exact Writes.refl | with_reducible apply Writes.kept State.countFab_kept
      | with_reducible apply Writes.step State.refuse_writes | with_reducible apply Writes.step State.discard_writes
      | with_reducible apply Writes.step State.link'_writes | (show _ = _; rfl) | split

theorem State.outcome_writes {s : State} {x1 x2 x3} :
    Writes [Reg.ringStatus 0, Reg.ringDevIdx 0, Reg.ringLoss 0, Reg.msixPba 0, Reg.perfWrapLo 0, Reg.perfWrapHi 0, Reg.portPauseStatus 0,
    Reg.fabricStatus, Reg.eqDepth 0, Reg.iaDepth 0, Reg.deepFree, Reg.iuEdges 0] s (State.outcome s x1 x2 x3) := by
  unfold State.outcome; repeat' first
      | with_reducible exact Writes.refl | with_reducible apply Writes.step State.linkGroup_writes
      | with_reducible apply Writes.kept State.toRing_kept | with_reducible apply Writes.step State.discard_writes
      | with_reducible apply Writes.step State.linkUnicast_writes | (show _ = _; rfl) | split

theorem State.byTables_writes {s : State} {x1 x2} :
    Writes [Reg.ringStatus 0, Reg.ringDevIdx 0, Reg.ringLoss 0, Reg.msixPba 0, Reg.perfWrapLo 0, Reg.perfWrapHi 0, Reg.portPauseStatus 0,
    Reg.pipeLearnStatus 0, Reg.fabricStatus, Reg.eqDepth 0, Reg.iaDepth 0, Reg.deepFree, Reg.iuEdges 0] s (State.byTables s x1 x2) := by
  unfold State.byTables; repeat' first
      | intro _ | (extract_lets +onlyGivenNames v; apply Writes.gen (v := v); subst v; rotate_left; clear_value v; intro h; rotate_right)
      | with_reducible assumption | with_reducible exact Writes.refl | with_reducible apply Writes.ite
      | with_reducible apply Writes.kept State.modFrame_kept | with_reducible apply State.each_writes
      | with_reducible apply Writes.step State.discard_writes | with_reducible apply Writes.step State.outcome_writes
      | with_reducible apply Writes.kept State.countFwd_kept | with_reducible apply Writes.step State.source_writes
      | with_reducible apply State.when_writes | (show _ = _; rfl) | split

theorem State.byAction_writes {s : State} {x1 x2} :
    Writes [Reg.ringStatus 0, Reg.ringDevIdx 0, Reg.ringLoss 0, Reg.msixPba 0, Reg.perfWrapLo 0, Reg.perfWrapHi 0, Reg.portPauseStatus 0,
    Reg.pipeLearnStatus 0, Reg.fabricStatus, Reg.eqDepth 0, Reg.iaDepth 0, Reg.deepFree, Reg.iuEdges 0] s (State.byAction s x1 x2) := by
  unfold State.byAction; repeat' first
      | (extract_lets +onlyGivenNames v; apply Writes.gen (v := v); subst v; rotate_left; clear_value v; intro h; rotate_right)
      | with_reducible assumption | with_reducible exact Writes.refl | with_reducible apply Writes.ite
      | with_reducible apply Writes.kept State.toRing_kept | with_reducible apply Writes.step State.discard_writes
      | with_reducible apply Writes.step State.outcome_writes | with_reducible apply State.when_writes
      | with_reducible apply Writes.step State.byTables_writes | (show _ = _; rfl)

theorem State.frameIn_writes {s : State} {x1} :
    Writes [Reg.ringStatus 0, Reg.ringDevIdx 0, Reg.ringLoss 0, Reg.msixPba 0, Reg.perfWrapLo 0, Reg.perfWrapHi 0, Reg.portPauseStatus 0,
    Reg.fabricStatus, Reg.eqDepth 0, Reg.iaDepth 0, Reg.deepFree, Reg.iuEdges 0] s (State.frameIn s x1) := by
  unfold State.frameIn; repeat' first
      | with_reducible exact Writes.refl | with_reducible apply Writes.step State.showFree_writes
      | with_reducible apply Writes.kept State.modFabric_kept | (show _ = _; rfl)

theorem State.decideBad_writes {s : State} {x1 x2} :
    Writes [Reg.ringStatus 0, Reg.ringDevIdx 0, Reg.ringLoss 0, Reg.msixPba 0, Reg.perfWrapLo 0, Reg.perfWrapHi 0, Reg.portPauseStatus 0,
    Reg.fabricStatus, Reg.eqDepth 0, Reg.iaDepth 0, Reg.deepFree, Reg.iuEdges 0] s (State.decideBad s x1 x2) := by
  unfold State.decideBad; repeat' first
      | with_reducible exact Writes.refl | with_reducible apply Writes.kept State.badFrame_kept
      | with_reducible apply Writes.step State.discard_writes | with_reducible apply Writes.step State.link'_writes | (show _ = _; rfl) | split

theorem State.macControl_writes {s : State} {x1 x2 x3} : Writes [Reg.portPauseStatus 0] s (State.macControl s x1 x2 x3) := by
  unfold State.macControl; repeat' first
      | (extract_lets +onlyGivenNames v; apply Writes.gen (v := v); subst v; rotate_left; clear_value v; intro h; rotate_right)
      | with_reducible assumption | with_reducible exact Writes.refl | with_reducible apply Writes.ite
      | with_reducible apply Writes.kept State.countRx_kept | with_reducible apply Writes.step State.pauseIn_writes
      | with_reducible apply Writes.kept State.countPort_kept | (show _ = _; rfl)

theorem State.macRx_writes {s : State} {x1 x2 x3 x4} :
    Writes [Reg.ringStatus 0, Reg.ringDevIdx 0, Reg.ringLoss 0, Reg.msixPba 0, Reg.perfWrapLo 0, Reg.perfWrapHi 0, Reg.portPauseStatus 0,
    Reg.fabricStatus, Reg.eqDepth 0, Reg.iaDepth 0, Reg.deepFree, Reg.iuEdges 0] s (State.macRx s x1 x2 x3 x4) := by
  unfold State.macRx; repeat' first
      | (extract_lets +onlyGivenNames v; apply Writes.gen (v := v); subst v; rotate_left; clear_value v; intro h; rotate_right)
      | with_reducible assumption | with_reducible exact Writes.refl | with_reducible apply Writes.ite
      | with_reducible apply Writes.kept State.countRx_kept | with_reducible apply Writes.kept State.sample_kept
      | with_reducible apply Writes.step State.frameIn_writes | with_reducible apply Writes.kept State.countPort_kept
      | with_reducible apply Writes.step State.macControl_writes | with_reducible apply Writes.kept State.countDiscarded_kept
      | with_reducible apply Writes.step State.capture_writes | (show _ = _; rfl) | split

theorem execFrameRx_writes {s : State} {x0 x1} {t} (h : execFrameRx x0 x1 s = .next t) :
    Writes [Reg.ringStatus 0, Reg.ringDevIdx 0, Reg.ringLoss 0, Reg.msixPba 0, Reg.perfWrapLo 0, Reg.perfWrapHi 0, Reg.laneErrCnt 0 0,
    Reg.portPauseStatus 0, Reg.fabricStatus, Reg.eqDepth 0, Reg.iaDepth 0, Reg.deepFree, Reg.iuEdges 0] s t := by
  unfold execFrameRx at h; injection h with h; subst h; repeat' first
      | (extract_lets +onlyGivenNames v; apply Writes.gen (v := v); subst v; rotate_left; clear_value v; intro h; rotate_right)
      | with_reducible assumption | with_reducible exact Writes.refl | with_reducible apply Writes.step State.lineErrs_writes
      | with_reducible apply Writes.kept State.frameTaken_kept | with_reducible apply Writes.kept State.out_kept
      | with_reducible apply Writes.kept State.countPort_kept | with_reducible apply Writes.step State.countStamp_writes
      | with_reducible apply State.when_writes | with_reducible apply Writes.step State.macRx_writes | (show _ = _; rfl) | split

theorem State.classified_writes {s : State} {x1 x2} :
    Writes [Reg.ringStatus 0, Reg.ringDevIdx 0, Reg.ringLoss 0, Reg.msixPba 0, Reg.perfWrapLo 0, Reg.perfWrapHi 0,
    Reg.pipeFragStatus 0] s (State.classified s x1 x2) := by
  unfold State.classified; repeat' first
      | intro _ | (extract_lets +onlyGivenNames v; apply Writes.gen (v := v); subst v; rotate_left; clear_value v; intro h; rotate_right)
      | (extract_lets +onlyGivenNames v; clear_value v) | with_reducible assumption | with_reducible exact Writes.refl
      | with_reducible apply Writes.step State.showFrag_writes | with_reducible apply Writes.kept State.countParse_kept
      | with_reducible apply Writes.kept State.modParser_kept | with_reducible apply Writes.kept State.countPort_kept
      | with_reducible apply Writes.step State.raise_writes | with_reducible apply State.when_writes | (show _ = _; rfl) | split

theorem State.decide'_writes {s : State} {x1} :
    Writes [Reg.ringStatus 0, Reg.ringDevIdx 0, Reg.ringLoss 0, Reg.msixPba 0, Reg.perfWrapLo 0, Reg.perfWrapHi 0, Reg.portPauseStatus 0,
    Reg.pipeGenDrain 0, Reg.pipeFragStatus 0, Reg.pipeLearnStatus 0, Reg.fabricStatus, Reg.eqDepth 0, Reg.iaDepth 0, Reg.deepFree,
    Reg.iuEdges 0] s (State.decide' s x1) := by
  unfold State.decide'; repeat' first
      | (extract_lets +onlyGivenNames v; apply Writes.gen (v := v); subst v; rotate_left; clear_value v; intro h; rotate_right)
      | with_reducible assumption | with_reducible exact Writes.refl | with_reducible apply Writes.step State.decideBad_writes
      | with_reducible apply Writes.setF | with_reducible apply Writes.kept State.countParse_kept
      | with_reducible apply Writes.kept State.modFrame_kept | with_reducible apply Writes.kept State.toEngine_kept
      | with_reducible apply Writes.step State.classified_writes | with_reducible apply Writes.step State.discard_writes
      | with_reducible apply Writes.kept State.copyOut_kept | with_reducible apply Writes.step State.outcome_writes
      | with_reducible apply Writes.step State.byAction_writes | with_reducible apply Writes.kept State.countDiscarded_kept
      | with_reducible apply Reg.pipeGenDrain_at | dsimp only [F.pipeGenDrain_COUNT] | (show _ = _; rfl) | split

theorem execPipeDecision_writes {s : State} {x0} {t} (h : execPipeDecision x0 s = .next t) :
    Writes [Reg.ringStatus 0, Reg.ringDevIdx 0, Reg.ringLoss 0, Reg.msixPba 0, Reg.perfWrapLo 0, Reg.perfWrapHi 0, Reg.portPauseStatus 0,
    Reg.pipeGenDrain 0, Reg.pipeFragStatus 0, Reg.pipeLearnStatus 0, Reg.fabricStatus, Reg.eqDepth 0, Reg.iaDepth 0, Reg.deepFree,
    Reg.iuEdges 0] s t := by
  unfold execPipeDecision at h; injection h with h; subst h; repeat' first
      | with_reducible exact Writes.refl | with_reducible apply Writes.step State.decide'_writes | (show _ = _; rfl) | split

theorem execFcsCheckDone_writes {s : State} {x0} {t} (h : execFcsCheckDone x0 s = .next t) :
    Writes [Reg.ringStatus 0, Reg.ringDevIdx 0, Reg.ringLoss 0, Reg.msixPba 0, Reg.perfWrapLo 0, Reg.perfWrapHi 0, Reg.portPauseStatus 0,
    Reg.fabricStatus, Reg.eqDepth 0, Reg.eqOndie 0, Reg.eqHwm 0, Reg.iaDepth 0, Reg.deepFree, Reg.iuEdges 0] s t := by
  unfold execFcsCheckDone at h; injection h with h; subst h; repeat' first
      | (extract_lets +onlyGivenNames v; apply Writes.gen (v := v); subst v; rotate_left; clear_value v; intro h; rotate_right)
      | with_reducible assumption | with_reducible exact Writes.refl | with_reducible apply Writes.kept State.badFrame_kept
      | with_reducible apply Writes.kept State.modFrame_kept | with_reducible apply Writes.kept State.out_kept
      | with_reducible apply Writes.kept State.countPort_kept | with_reducible apply Writes.kept State.modFabric_kept
      | with_reducible apply Writes.step State.endFrame_writes | with_reducible apply Writes.step State.release_writes | (show _ = _; rfl) | split

end Sys2Proof.Machine
end

