-- ==== Sys2Proof/Laws/WritesEgressRows.lean ====
section
/-!
SUPPORT. Sys2Proof/Laws/WritesEgressRows.lean: which registers each operation of Machine/EgressRows.lean may change.
-/
namespace Sys2Proof.Machine
open Sys2Proof

theorem State.tcAdd_writes {s : State} {x1 x2 x3} :
    Writes [Reg.linkCfg 0, Reg.linkRtF 0, Reg.linkAsymEffLo 0, Reg.linkAsymEffHi 0] s (State.tcAdd s x1 x2 x3).1 := by
  unfold State.tcAdd; repeat' first
      | with_reducible exact Writes.refl | with_reducible apply Writes.step State.peerDelay_writes | (show _ = _; rfl)
      | (with_reducible apply Writes.fst (by assumption)) | split | with_reducible apply Writes.put_servo

theorem State.egressBytes_writes {s : State} {x1 x2 x3} :
    Writes [Reg.linkCfg 0, Reg.linkRtF 0, Reg.linkAsymEffLo 0, Reg.linkAsymEffHi 0] s (State.egressBytes s x1 x2 x3).1 := by
  unfold State.egressBytes; repeat' first
      | with_reducible exact Writes.refl | with_reducible apply Writes.step State.tcAdd_writes | (show _ = _; rfl)
      | (with_reducible apply Writes.fst (by assumption)) | split

theorem State.sent_writes {s : State} {x1 x2 x3 x4} :
    Writes [Reg.ringStatus 0, Reg.ringDevIdx 0, Reg.ringLoss 0, Reg.msixPba 0, Reg.perfWrapLo 0, Reg.perfWrapHi 0, Reg.linkCfg 0, Reg.linkRtF 0,
    Reg.linkAsymEffLo 0, Reg.linkAsymEffHi 0, Reg.portPauseStatus 0, Reg.fabricStatus, Reg.eqDepth 0, Reg.eqOndie 0, Reg.eqHwm 0, Reg.iaDepth 0,
    Reg.deepFree, Reg.iuEdges 0] s (State.sent s x1 x2 x3 x4) := by
  unfold State.sent; repeat' first
      | (extract_lets +onlyGivenNames v; apply Writes.gen (v := v); subst v; rotate_left; clear_value v; intro h; rotate_right)
      | (extract_lets +onlyGivenNames v; apply Writes.gen (v := v.1); subst v; rotate_left; clear_value v; intro h; rotate_right)
      | with_reducible assumption | with_reducible exact Writes.refl | with_reducible apply Writes.step State.egressBytes_writes
      | with_reducible apply Writes.kept State.countPort_kept | with_reducible apply Writes.step State.countStamp_writes
      | with_reducible apply Writes.kept State.modFabric_kept | with_reducible apply Writes.step State.txDone_writes
      | with_reducible apply State.when_writes | with_reducible apply Writes.kept State.send_kept
      | with_reducible apply Writes.step State.release_writes | with_reducible apply Writes.step State.capture_writes | (show _ = _; rfl)

theorem execFrameTx_writes {s : State} {x0 x1} {t} (h : execFrameTx x0 x1 s = .next t) :
    Writes [Reg.ringStatus 0, Reg.ringDevIdx 0, Reg.ringLoss 0, Reg.msixPba 0, Reg.perfWrapLo 0, Reg.perfWrapHi 0, Reg.linkCfg 0, Reg.linkRtF 0,
    Reg.linkAsymEffLo 0, Reg.linkAsymEffHi 0, Reg.portPauseStatus 0, Reg.fabricStatus, Reg.eqDepth 0, Reg.eqOndie 0, Reg.eqHwm 0, Reg.iaDepth 0,
    Reg.deepFree, Reg.iuEdges 0, Reg.slotStatus 0] s t := by
  unfold execFrameTx at h; injection h with h; subst h; repeat' first
      | with_reducible exact Writes.refl | with_reducible apply Writes.step State.flushCtrl_writes
      | with_reducible apply Writes.step State.sent_writes | with_reducible apply Writes.step State.countStamp_writes
      | with_reducible apply Writes.kept State.modFabric_kept | with_reducible apply Writes.step State.ownSent_writes
      | with_reducible apply Writes.kept State.modMac_kept | (show _ = _; rfl) | split

theorem State.mapOut_writes {s : State} {x1} : Writes [Reg.deepStatus, Reg.deepFree] s (State.mapOut s x1) := by
  unfold State.mapOut; repeat' first
      | (extract_lets +onlyGivenNames v; apply Writes.gen (v := v); subst v; rotate_left; clear_value v; intro h; rotate_right)
      | with_reducible assumption | with_reducible exact Writes.refl | with_reducible apply Writes.setF
      | with_reducible apply Writes.step State.showDeep_writes | with_reducible apply Writes.kept State.modOp_kept
      | with_reducible apply Writes.kept State.modFabric_kept | with_reducible apply Reg.deepStatus_at
      | dsimp only [F.deepStatus_EVAC, F.deepStatus_MAPPED, F.deepStatus_READY] | (show _ = _; rfl)

theorem execDeepbufMapout_writes {s : State} {x0} {t} (h : execDeepbufMapout x0 s = .next t) :
    Writes [Reg.hostifCnt 0, Reg.ringStatus 0, Reg.ringDevIdx 0, Reg.msixPba 0, Reg.perfWrapLo 0, Reg.perfWrapHi 0, Reg.deepStatus,
    Reg.deepFree] s t := by
  unfold execDeepbufMapout at h; injection h with h; subst h; repeat' first
      | intro _ | (extract_lets +onlyGivenNames v; apply Writes.gen (v := v); subst v; rotate_left; clear_value v; intro h; rotate_right)
      | with_reducible assumption | with_reducible exact Writes.refl | with_reducible apply Writes.ite
      | with_reducible apply Writes.step State.mapOut_writes | with_reducible apply State.start_writes | with_reducible apply Writes.setF
      | with_reducible apply Writes.step State.showDeep_writes | with_reducible apply Writes.step State.complete_writes
      | with_reducible apply State.startLong_writes | with_reducible apply Writes.kept State.modFabric_kept
      | with_reducible apply Reg.deepStatus_at | dsimp only [F.deepStatus_MAPPED, F.deepStatus_READY] | (show _ = _; rfl)

theorem State.stackFault_writes {s : State} {x1 x2 x3} :
    Writes [Reg.ringStatus 0, Reg.ringDevIdx 0, Reg.ringLoss 0, Reg.msixPba 0, Reg.perfWrapLo 0,
    Reg.perfWrapHi 0] s (State.stackFault s x1 x2 x3) := by
  unfold State.stackFault; repeat' first
      | with_reducible exact Writes.refl | with_reducible apply Writes.step State.raise_writes
      | with_reducible apply Writes.kept State.modFabric_kept | (show _ = _; rfl)

theorem State.milletBoundary_writes {s : State} :
    Writes [Reg.ringStatus 0, Reg.ringDevIdx 0, Reg.ringLoss 0, Reg.msixPba 0, Reg.perfWrapLo 0, Reg.perfWrapHi 0, Reg.portPauseStatus 0,
    Reg.fabricStatus, Reg.eqDepth 0, Reg.iaDepth 0, Reg.deepFree, Reg.deepBw, Reg.iuEdges 0] s (State.milletBoundary s) := by
  unfold State.milletBoundary; repeat' first
      | (extract_lets +onlyGivenNames v; apply Writes.gen (v := v); subst v; rotate_left; clear_value v; intro h; rotate_right)
      | with_reducible assumption | with_reducible exact Writes.refl | with_reducible apply Writes.step State.stackFault_writes
      | with_reducible apply Writes.step State.showFree_writes | with_reducible apply Writes.setF
      | with_reducible apply Writes.kept State.modFabric_kept | with_reducible apply Writes.kept State.evacReads_kept
      | with_reducible apply Writes.step State.pressure_writes | with_reducible apply Reg.deepBw_at
      | dsimp only [F.deepBw_READ, F.deepBw_WRITE] | (show _ = _; rfl) | split

theorem State.dropCopy_writes {s : State} {x1} :
    Writes [Reg.ringStatus 0, Reg.ringDevIdx 0, Reg.ringLoss 0, Reg.msixPba 0, Reg.perfWrapLo 0, Reg.perfWrapHi 0, Reg.portPauseStatus 0,
    Reg.fabricStatus, Reg.eqDepth 0, Reg.eqOndie 0, Reg.eqHwm 0, Reg.iaDepth 0, Reg.deepFree, Reg.iuEdges 0] s (State.dropCopy s x1) := by
  unfold State.dropCopy; repeat' first
      | with_reducible exact Writes.refl | with_reducible apply Writes.kept State.countFab_kept
      | with_reducible apply Writes.kept State.modFabric_kept | with_reducible apply Writes.step State.release_writes | (show _ = _; rfl)

theorem State.dropCells_writes {s : State} {x1} :
    Writes [Reg.ringStatus 0, Reg.ringDevIdx 0, Reg.ringLoss 0, Reg.msixPba 0, Reg.perfWrapLo 0, Reg.perfWrapHi 0, Reg.portPauseStatus 0,
    Reg.fabricStatus, Reg.eqDepth 0, Reg.eqOndie 0, Reg.eqHwm 0, Reg.iaDepth 0, Reg.deepFree, Reg.iuEdges 0] s (State.dropCells s x1).1 := by
  unfold State.dropCells; repeat' first
      | intro _ | with_reducible assumption | with_reducible exact Writes.refl | with_reducible apply State.each_writes
      | with_reducible apply Writes.step State.dropCopy_writes | (show _ = _; rfl)

theorem State.evacDrop_writes {s : State} {x1 x2} :
    Writes [Reg.ringStatus 0, Reg.ringDevIdx 0, Reg.ringLoss 0, Reg.msixPba 0, Reg.perfWrapLo 0, Reg.perfWrapHi 0, Reg.portPauseStatus 0,
    Reg.fabricStatus, Reg.eqDepth 0, Reg.eqOndie 0, Reg.eqHwm 0, Reg.iaDepth 0, Reg.deepFree, Reg.iuEdges 0] s (State.evacDrop s x1 x2) := by
  induction x2 generalizing s with
  | zero => exact Writes.refl
  | succ n ih => unfold State.evacDrop; repeat' first
      | with_reducible apply Writes.step ih | (extract_lets +onlyGivenNames v; clear_value v) | with_reducible exact Writes.refl
      | with_reducible apply Writes.step State.dropCopy_writes | (show _ = _; rfl) | split

theorem execMapoutDone_writes {s : State} {x0 x1 x2} {t} (h : execMapoutDone x0 x1 x2 s = .next t) :
    Writes [Reg.hostifCnt 0, Reg.ringStatus 0, Reg.ringDevIdx 0, Reg.ringLoss 0, Reg.msixPba 0, Reg.perfWrapLo 0, Reg.perfWrapHi 0,
    Reg.portPauseStatus 0, Reg.fabricStatus, Reg.eqDepth 0, Reg.eqOndie 0, Reg.eqHwm 0, Reg.iaDepth 0, Reg.deepStatus, Reg.deepFree,
    Reg.deepEccCorr 0, Reg.iuEdges 0] s t := by
  unfold execMapoutDone at h; injection h with h; subst h; repeat' first
      | with_reducible exact Writes.refl | with_reducible apply Writes.bump | with_reducible apply Writes.step State.dropCells_writes
      | with_reducible apply Writes.setF | with_reducible apply Writes.step State.raise_writes
      | with_reducible apply Writes.kept State.modFabric_kept | with_reducible apply Writes.step State.evacDrop_writes
      | with_reducible apply Writes.kept State.evacuate_kept | with_reducible apply Writes.step State.endLong_writes
      | with_reducible apply Reg.deepEccCorr_at | with_reducible apply Reg.deepStatus_at | dsimp only [F.deepEccCorr_COUNT, F.deepStatus_EVAC]
      | (show _ = _; rfl) | split

theorem execMcAbandon_writes {s : State} {x0 x1} {t} (h : execMcAbandon x0 x1 s = .next t) :
    Writes [Reg.ringStatus 0, Reg.ringDevIdx 0, Reg.ringLoss 0, Reg.msixPba 0, Reg.perfWrapLo 0, Reg.perfWrapHi 0, Reg.portPauseStatus 0,
    Reg.fabricStatus, Reg.eqDepth 0, Reg.eqOndie 0, Reg.eqHwm 0, Reg.iaDepth 0, Reg.deepFree, Reg.iuEdges 0] s t := by
  unfold execMcAbandon at h; injection h with h; subst h; repeat' first
      | with_reducible exact Writes.refl | with_reducible apply Writes.ite | with_reducible apply Writes.kept State.countFab_kept
      | with_reducible apply Writes.kept State.modFabric_kept | with_reducible apply Writes.step State.release_writes | (show _ = _; rfl) | split

theorem execSorrelEpoch_writes {s : State} {t} (h : execSorrelEpoch s = .next t) :
    Writes [Reg.ringStatus 0, Reg.ringDevIdx 0, Reg.ringLoss 0, Reg.msixPba 0, Reg.perfWrapLo 0, Reg.perfWrapHi 0, Reg.portPauseStatus 0,
    Reg.fabricStatus, Reg.eqDepth 0, Reg.eqOndie 0, Reg.eqHwm 0, Reg.iaDepth 0, Reg.deepFree, Reg.iuEdges 0] s t := by
  unfold execSorrelEpoch at h; injection h with h; subst h; repeat' first
      | with_reducible exact Writes.refl | with_reducible apply Writes.step State.sorrel_writes | (show _ = _; rfl) | split

theorem State.stackError_writes {s : State} {x1 x2} :
    Writes [Reg.ringStatus 0, Reg.ringDevIdx 0, Reg.ringLoss 0, Reg.msixPba 0, Reg.perfWrapLo 0, Reg.perfWrapHi 0, Reg.deepStatus, Reg.deepFree,
    Reg.deepEccUncorr 0] s (State.stackError s x1 x2) := by
  unfold State.stackError; repeat' first
      | (extract_lets +onlyGivenNames v; apply Writes.gen (v := v); subst v; rotate_left; clear_value v; intro h; rotate_right)
      | with_reducible assumption | with_reducible exact Writes.refl | with_reducible apply Writes.step State.stackFault_writes
      | with_reducible apply Writes.bump | with_reducible apply Writes.step State.mapOut_writes
      | with_reducible apply Writes.kept State.modFabric_kept | with_reducible apply State.when_writes
      | with_reducible apply Reg.deepEccUncorr_at | dsimp only [F.deepEccUncorr_COUNT] | (show _ = _; rfl) | split

theorem execRefillDone_writes {s : State} {x0 x1 x2 x3} {t} (h : execRefillDone x0 x1 x2 x3 s = .next t) :
    Writes [Reg.ringStatus 0, Reg.ringDevIdx 0, Reg.ringLoss 0, Reg.msixPba 0, Reg.perfWrapLo 0, Reg.perfWrapHi 0, Reg.portPauseStatus 0,
    Reg.fabricStatus, Reg.eqDepth 0, Reg.eqOndie 0, Reg.eqHwm 0, Reg.iaDepth 0, Reg.deepStatus, Reg.deepFree, Reg.deepEccCorr 0,
    Reg.deepEccUncorr 0, Reg.iuEdges 0] s t := by
  unfold execRefillDone at h; injection h with h; subst h; repeat' first
      | intro _ | (extract_lets +onlyGivenNames v; apply Writes.gen (v := v); subst v; rotate_left; clear_value v; intro h; rotate_right)
      | (extract_lets +onlyGivenNames v; apply Writes.gen (v := v.1); subst v; rotate_left; clear_value v; intro h; rotate_right)
      | with_reducible assumption | with_reducible exact Writes.refl | with_reducible apply Writes.kept State.setCell_kept
      | with_reducible apply Writes.bump | with_reducible apply Writes.step State.showFree_writes
      | with_reducible apply Writes.step State.dropCells_writes | with_reducible apply Writes.step State.showFrames_writes
      | with_reducible apply Writes.kept State.countFab_kept | with_reducible apply Writes.step State.stackError_writes
      | with_reducible apply State.each_writes | with_reducible apply Writes.step State.showEq_writes
      | with_reducible apply Writes.kept State.modFabric_kept | with_reducible apply Reg.deepEccCorr_at | dsimp only [F.deepEccCorr_COUNT]
      | (show _ = _; rfl) | split

theorem execPortHoldExpired_writes {s : State} {x0} {t} (h : execPortHoldExpired x0 s = .next t) :
    Writes [Reg.ringStatus 0, Reg.ringDevIdx 0, Reg.ringLoss 0, Reg.msixPba 0, Reg.perfWrapLo 0, Reg.perfWrapHi 0, Reg.portPauseStatus 0,
    Reg.pipeMacUsed 0, Reg.pipeLearnLimit 0 0, Reg.fabricStatus, Reg.fabricPort 0, Reg.eqDepth 0, Reg.eqOndie 0, Reg.eqHwm 0, Reg.iaDepth 0,
    Reg.deepFree, Reg.iuEdges 0] s t := by
  unfold execPortHoldExpired at h; injection h with h; subst h; repeat' first
      | intro _ | with_reducible assumption | with_reducible exact Writes.refl | with_reducible apply Writes.ite
      | with_reducible apply Writes.setF | with_reducible apply Writes.step State.flushMac_writes | with_reducible apply State.each_writes
      | with_reducible apply Writes.step State.raise_writes | with_reducible apply Writes.step State.flush_writes
      | with_reducible apply Reg.fabricPort_at | dsimp only [F.fabricPort_HOLD_STATE] | (show _ = _; rfl)

theorem State.writeUnit_writes {s : State} {x1 x2} :
    Writes [Reg.ringStatus 0, Reg.ringDevIdx 0, Reg.ringLoss 0, Reg.msixPba 0, Reg.perfWrapLo 0, Reg.perfWrapHi 0, Reg.portPauseStatus 0,
    Reg.fabricStatus, Reg.eqDepth 0, Reg.eqOndie 0, Reg.eqHwm 0, Reg.iaDepth 0, Reg.deepFree, Reg.iuEdges 0] s (State.writeUnit s x1 x2).1 := by
  unfold State.writeUnit; repeat' first
      | intro _ | (extract_lets +onlyGivenNames v; apply Writes.gen (v := v); subst v; rotate_left; clear_value v; intro h; rotate_right)
      | with_reducible assumption | with_reducible exact Writes.refl | with_reducible apply Writes.kept State.setCell_kept
      | with_reducible apply Writes.step State.showFree_writes | with_reducible apply Writes.step State.showFrames_writes
      | with_reducible apply State.each_writes | with_reducible apply Writes.kept State.modFabric_kept | (show _ = _; rfl) | split

theorem execSpillWriteDone_writes {s : State} {x0 x1} {t} (h : execSpillWriteDone x0 x1 s = .next t) :
    Writes [Reg.ringStatus 0, Reg.ringDevIdx 0, Reg.ringLoss 0, Reg.msixPba 0, Reg.perfWrapLo 0, Reg.perfWrapHi 0, Reg.portPauseStatus 0,
    Reg.fabricStatus, Reg.eqDepth 0, Reg.eqOndie 0, Reg.eqHwm 0, Reg.iaDepth 0, Reg.deepFree, Reg.iuEdges 0] s t := by
  unfold execSpillWriteDone at h; injection h with h; subst h; repeat' first
      | (extract_lets +onlyGivenNames v; apply Writes.gen (v := v.1); subst v; rotate_left; clear_value v; intro h; rotate_right)
      | with_reducible assumption | with_reducible exact Writes.refl | with_reducible apply Writes.step State.writeUnit_writes
      | with_reducible apply Writes.kept State.countFab_kept | with_reducible apply Writes.kept State.modFabric_kept | (show _ = _; rfl) | split

theorem execDeepbufScrub_writes {s : State} {x0} {t} (h : execDeepbufScrub x0 s = .next t) :
    Writes [Reg.hostifCnt 0, Reg.ringStatus 0, Reg.ringDevIdx 0, Reg.msixPba 0, Reg.perfWrapLo 0, Reg.perfWrapHi 0] s t := by
  unfold execDeepbufScrub at h; injection h with h; subst h; repeat' first
      | intro _ | with_reducible assumption | with_reducible exact Writes.refl | with_reducible apply State.start_writes
      | with_reducible apply Writes.step State.complete_writes | with_reducible apply State.startLong_writes | (show _ = _; rfl) | split

theorem execEgressSelect_writes {s : State} {x0} {t} (h : execEgressSelect x0 s = .next t) :
    Writes [Reg.ringStatus 0, Reg.ringDevIdx 0, Reg.ringLoss 0, Reg.msixPba 0, Reg.perfWrapLo 0, Reg.perfWrapHi 0, Reg.portPauseStatus 0,
    Reg.fabricStatus, Reg.eqDepth 0, Reg.eqOndie 0, Reg.eqHwm 0, Reg.iaDepth 0, Reg.deepFree, Reg.iuEdges 0] s t := by
  unfold execEgressSelect at h; injection h with h; subst h; repeat' first
      | (extract_lets +onlyGivenNames v; apply Writes.gen (v := v); subst v; rotate_left; clear_value v; intro h; rotate_right)
      | (extract_lets +onlyGivenNames v; apply Writes.gen (v := v.1); subst v; rotate_left; clear_value v; intro h; rotate_right)
      | with_reducible assumption | with_reducible exact Writes.refl | with_reducible apply Writes.step State.dropAged_writes
      | with_reducible apply Writes.kept State.selectQueue_kept | with_reducible apply Writes.kept State.beginOwn_kept
      | with_reducible apply Writes.kept State.beginTx_kept | (show _ = _; rfl) | split

end Sys2Proof.Machine
end

