-- ==== Sys2Proof/Laws/WritesMeasRows.lean ====
section
/-!
SUPPORT. Sys2Proof/Laws/WritesMeasRows.lean: which registers each operation of Machine/MeasRows.lean may change.
-/
namespace Sys2Proof.Machine
open Sys2Proof

theorem State.later_writes {s : State} {x1 x2 x3} : Writes [Reg.perfWrapLo 0, Reg.perfWrapHi 0, Reg.redundCnt 0] s (State.later s x1 x2 x3) := by
  unfold State.later; repeat' first
      | intro _ | with_reducible assumption | with_reducible exact Writes.refl | with_reducible apply State.byWriter_writes
      | with_reducible apply Writes.kept State.wait_kept | with_reducible apply Writes.kept State.took_kept | (show _ = _; rfl) | split

theorem State.fmWrite_writes {s : State} {x1 x2 x3 x4} :
    Writes [Reg.perfWrapLo 0, Reg.perfWrapHi 0, Reg.redundCnt 0] s (State.fmWrite s x1 x2 x3 x4) := by
  unfold State.fmWrite; repeat' first
      | with_reducible exact Writes.refl | with_reducible apply Writes.step State.later_writes | (show _ = _; rfl) | split

theorem execFreqLong_writes {s : State} {x0} {t} (h : execFreqLong x0 s = .next t) :
    Writes [Reg.hostifCnt 0, Reg.ringStatus 0, Reg.ringDevIdx 0, Reg.msixPba 0, Reg.perfWrapLo 0, Reg.perfWrapHi 0, Reg.fmStatus 0] s t := by
  unfold execFreqLong at h; injection h with h; subst h; repeat' first
      | intro _ | with_reducible assumption | with_reducible exact Writes.refl | with_reducible apply State.start_writes
      | with_reducible apply Writes.step State.complete_writes | with_reducible apply State.startLong_writes
      | with_reducible apply Writes.step State.showFm_writes | with_reducible apply Writes.kept State.modFm_kept | (show _ = _; rfl) | split

theorem execFmCfgWrite_writes {s : State} {x0 x1 x2 x3} {t} (h : execFmCfgWrite x0 x1 x2 x3 s = .next t) :
    Writes [Reg.perfWrapLo 0, Reg.perfWrapHi 0, Reg.redundCnt 0] s t := by
  unfold execFmCfgWrite at h; injection h with h; subst h; repeat' first
      | with_reducible exact Writes.refl | with_reducible apply Writes.step State.fmWrite_writes | (show _ = _; rfl)

theorem State.fmBoundary_writes {s : State} {x1} :
    Writes [Reg.globalLateFlags, Reg.globalLateCnt 0, Reg.hostifCnt 0, Reg.ringStatus 0, Reg.ringDevIdx 0, Reg.ringLoss 0, Reg.msixPba 0,
    Reg.perfWrapLo 0, Reg.perfWrapHi 0, Reg.fmStatus 0] s (State.fmBoundary s x1) := by
  unfold State.fmBoundary; repeat' first
      | (extract_lets +onlyGivenNames v; apply Writes.gen (v := v); subst v; rotate_left; clear_value v; intro h; rotate_right)
      | (extract_lets +onlyGivenNames v; clear_value v) | with_reducible assumption | with_reducible exact Writes.refl
      | with_reducible apply Writes.step State.fmStart_writes | with_reducible apply Writes.step State.late_writes
      | with_reducible apply Writes.kept State.modFm_kept | with_reducible apply Writes.step State.fmOpen_writes
      | with_reducible apply Writes.step State.fmRelease_writes | with_reducible apply Writes.step State.endLong_writes | (show _ = _; rfl) | split

theorem State.refinEdge_writes {s : State} {x1 x2 x3} :
    Writes [Reg.iuEdges 0, Reg.iuMerged 0, Reg.iuOrphans 0, Reg.iuStatus 0, Reg.fmSkipped 0] s (State.refinEdge s x1 x2 x3) := by
  unfold State.refinEdge; repeat' first
      | (extract_lets +onlyGivenNames v; apply Writes.gen (v := v); subst v; rotate_left; clear_value v; intro h; rotate_right)
      | with_reducible assumption | with_reducible exact Writes.refl | with_reducible apply Writes.ite
      | with_reducible apply Writes.step State.unitEdge_writes | with_reducible apply Writes.kept State.candEdge_kept | (show _ = _; rfl)

theorem execRefinEdge_writes {s : State} {x0 x1 x2} {t} (h : execRefinEdge x0 x1 x2 s = .next t) :
    Writes [Reg.iuEdges 0, Reg.iuMerged 0, Reg.iuOrphans 0, Reg.iuStatus 0, Reg.fmSkipped 0] s t := by
  unfold execRefinEdge at h; injection h with h; subst h; repeat' first
      | with_reducible exact Writes.refl | with_reducible apply Writes.step State.refinEdge_writes | (show _ = _; rfl) | split

theorem State.evinEdge_writes {s : State} {x1 x2 x3} :
    Writes [Reg.iuEdges 0, Reg.iuMerged 0, Reg.iuOrphans 0, Reg.iuStatus 0, Reg.evinHoldoff 0, Reg.fmSkipped 0] s (State.evinEdge s x1 x2 x3) := by
  unfold State.evinEdge; repeat' first
      | with_reducible exact Writes.refl | with_reducible apply Writes.step State.unitEdge_writes | with_reducible apply Writes.bump
      | with_reducible apply Writes.kept State.modMeas_kept | with_reducible apply Reg.evinHoldoff_at | dsimp only [F.evinHoldoff_COUNT]
      | (show _ = _; rfl) | split

theorem execEvinEdge_writes {s : State} {x0 x1 x2} {t} (h : execEvinEdge x0 x1 x2 s = .next t) :
    Writes [Reg.iuEdges 0, Reg.iuMerged 0, Reg.iuOrphans 0, Reg.iuStatus 0, Reg.evinHoldoff 0, Reg.fmSkipped 0] s t := by
  unfold execEvinEdge at h; injection h with h; subst h; repeat' first
      | with_reducible exact Writes.refl | with_reducible apply Writes.step State.evinEdge_writes | (show _ = _; rfl) | split

theorem execPulseLoad_writes {s : State} {x0} {t} (h : execPulseLoad x0 s = .next t) :
    Writes [Reg.hostifCnt 0, Reg.ringStatus 0, Reg.ringDevIdx 0, Reg.msixPba 0, Reg.perfWrapLo 0, Reg.perfWrapHi 0] s t := by
  unfold execPulseLoad at h; injection h with h; subst h; repeat' first
      | intro _ | with_reducible assumption | with_reducible exact Writes.refl | with_reducible apply Writes.kept State.parkId_kept
      | with_reducible apply State.start_writes | with_reducible apply Writes.kept State.modEvout_kept
      | with_reducible apply Writes.step State.complete_writes | (show _ = _; rfl) | split

theorem execImCfgWrite_writes {s : State} {x0 x1 x2 x3} {t} (h : execImCfgWrite x0 x1 x2 x3 s = .next t) :
    Writes [Reg.perfWrapLo 0, Reg.perfWrapHi 0, Reg.redundCnt 0] s t := by
  unfold execImCfgWrite at h; injection h with h; subst h; repeat' first
      | with_reducible exact Writes.refl | with_reducible apply Writes.step State.later_writes | (show _ = _; rfl)

theorem execEvoutPulse_writes {s : State} {x0 x1} {t} (h : execEvoutPulse x0 x1 s = .next t) :
    Writes [Reg.ringStatus 0, Reg.ringDevIdx 0, Reg.ringLoss 0, Reg.msixPba 0, Reg.perfWrapLo 0, Reg.perfWrapHi 0, Reg.evoutStatus 0,
    Reg.evoutSkipped 0] s t := by
  unfold execEvoutPulse at h; injection h with h; subst h; repeat' first
      | with_reducible exact Writes.refl | with_reducible apply Writes.step State.evoutEdge_writes | (show _ = _; rfl) | split

theorem execMeasPost_writes {s : State} {t} (h : execMeasPost s = .next t) :
    Writes [Reg.globalLateFlags, Reg.globalLateCnt 0, Reg.ringStatus 0, Reg.ringDevIdx 0, Reg.ringLoss 0, Reg.msixPba 0, Reg.perfWrapLo 0,
    Reg.perfWrapHi 0, Reg.measLost 0] s t := by
  unfold execMeasPost at h; injection h with h; subst h; repeat' first
      | with_reducible exact Writes.refl | with_reducible apply Writes.step State.measPost_writes | (show _ = _; rfl) | split

theorem execPendingStopExpire_writes {s : State} {x0 x1} {t} (h : execPendingStopExpire x0 x1 s = .next t) :
    Writes [Reg.iuOrphans 0, Reg.iuStatus 0] s t := by
  unfold execPendingStopExpire at h; injection h with h; subst h; repeat' first
      | with_reducible exact Writes.refl | with_reducible apply Writes.step State.imExpire_writes | (show _ = _; rfl) | split

theorem execFmGateEnd_writes {s : State} {x0} {t} (h : execFmGateEnd x0 s = .next t) :
    Writes [Reg.hostifCnt 0, Reg.ringStatus 0, Reg.ringDevIdx 0, Reg.msixPba 0, Reg.perfWrapLo 0, Reg.perfWrapHi 0, Reg.fmStatus 0] s t := by
  unfold execFmGateEnd at h; injection h with h; subst h; repeat' first
      | with_reducible exact Writes.refl | with_reducible apply Writes.step State.fmEnd_writes | (show _ = _; rfl) | split

theorem execBoardIntlkSample_writes {s : State} {x0} {t} (h : execBoardIntlkSample x0 s = .next t) :
    Writes [Reg.ringStatus 0, Reg.ringDevIdx 0, Reg.ringLoss 0, Reg.msixPba 0, Reg.perfWrapLo 0, Reg.perfWrapHi 0, Reg.redundStatus] s t := by
  unfold execBoardIntlkSample at h; injection h with h; subst h; repeat' first
      | (extract_lets +onlyGivenNames v; apply Writes.gen (v := v); subst v; rotate_left; clear_value v; intro h; rotate_right)
      | with_reducible assumption | with_reducible exact Writes.refl | with_reducible apply Writes.step State.boardEvent_writes
      | with_reducible apply Writes.setF | with_reducible apply Writes.kept State.modRedund_kept
      | with_reducible apply Writes.kept State.sharedOn_kept | with_reducible apply Reg.redundStatus_at
      | dsimp only [F.redundStatus_BOARD_HOLD, F.redundStatus_PEER] | (show _ = _; rfl) | split

theorem execMeasWindowEnd_writes {s : State} {x0} {t} (h : execMeasWindowEnd x0 s = .next t) : Writes [Reg.iuOrphans 0, Reg.iuStatus 0] s t := by
  unfold execMeasWindowEnd at h; injection h with h; subst h; repeat' first
      | with_reducible exact Writes.refl | with_reducible apply Writes.step State.imEnd_writes | (show _ = _; rfl) | split

end Sys2Proof.Machine
end

