-- ==== Sys2Proof/Laws/WritesHostIf.lean ====
section
/-!
SUPPORT. Sys2Proof/Laws/WritesHostIf.lean: which registers each operation of Machine/HostIf.lean may change.
-/
namespace Sys2Proof.Machine
open Sys2Proof

theorem State.issueKick_writes {s : State} : Writes [Reg.hostifCnt 0] s (State.issueKick s) := by
  unfold State.issueKick; repeat' first
      | with_reducible exact Writes.refl | with_reducible apply Writes.bump | with_reducible apply Writes.kept State.issueFetch_kept
      | with_reducible apply Writes.kept State.modHost_kept | with_reducible apply Reg.hostifCnt_at | dsimp only [F.hostifCnt_COUNT]
      | (show _ = _; rfl) | split

theorem State.kicked_writes {s : State} : Writes [Reg.hostifCnt 0] s (State.kicked s) := by
  unfold State.kicked; repeat' first
      | with_reducible exact Writes.refl | with_reducible apply Writes.step State.issueKick_writes
      | with_reducible apply Writes.kept State.modHost_kept | (show _ = _; rfl) | split

theorem State.showFetchNow_writes {s : State} : Writes [Reg.hostifEmerg] s (State.showFetchNow s) := by
  unfold State.showFetchNow; repeat' first
      | with_reducible exact Writes.refl | with_reducible apply Writes.ite | with_reducible apply Writes.setF
      | with_reducible apply Reg.hostifEmerg_at | dsimp only [F.hostifEmerg_FETCH_NOW] | (show _ = _; rfl)

theorem State.fetchNow_writes {s : State} : Writes [Reg.hostifEmerg, Reg.hostifCnt 0] s (State.fetchNow s) := by
  unfold State.fetchNow; repeat' first
      | with_reducible exact Writes.refl | with_reducible apply Writes.setF | with_reducible apply Writes.step State.kicked_writes
      | with_reducible apply Writes.step State.showFetchNow_writes | with_reducible apply Reg.hostifEmerg_at
      | dsimp only [F.hostifEmerg_FETCH_NOW] | (show _ = _; rfl) | split

theorem State.nextFetch_writes {s : State} : Writes [Reg.hostifCnt 0] s (State.nextFetch s) := by
  unfold State.nextFetch; repeat' first
      | with_reducible exact Writes.refl | with_reducible apply Writes.step State.issueKick_writes
      | with_reducible apply Writes.kept State.issueFetch_kept | with_reducible apply Writes.kept State.modHost_kept | (show _ = _; rfl) | split

theorem State.hostCmdWrite_writes {s : State} {x1} : Writes [Reg.hostifCmd, Reg.hostifStatus] s (State.hostCmdWrite s x1) := by
  unfold State.hostCmdWrite; repeat' first
      | with_reducible exact Writes.refl | with_reducible apply Writes.setF | with_reducible apply Writes.putRw
      | with_reducible apply Reg.hostifCmd_at | with_reducible apply Reg.hostifStatus_at | dsimp only [F.hostifStatus_CFG_ERR]
      | (show _ = _; rfl) | split

theorem State.hostDmaWrite_writes {s : State} {x1} : Writes [Reg.hostifDma, Reg.hostifStatus] s (State.hostDmaWrite s x1) := by
  unfold State.hostDmaWrite; repeat' first
      | with_reducible exact Writes.refl | with_reducible apply Writes.setF | with_reducible apply Writes.putRw
      | with_reducible apply Reg.hostifDma_at | with_reducible apply Reg.hostifStatus_at | dsimp only [F.hostifStatus_CFG_ERR]
      | (show _ = _; rfl) | split

theorem State.dropHeld_writes {s : State} {x1} : Writes [Reg.ringLoss 0] s (State.dropHeld s x1) := by
  unfold State.dropHeld; repeat' first
      | with_reducible exact Writes.refl | with_reducible apply Writes.bump | with_reducible apply Writes.kept State.modHost_kept
      | with_reducible apply Reg.ringLoss_at | dsimp only [F.ringLoss_COUNT] | (show _ = _; rfl)

theorem State.ringOpen_writes {s : State} {x1} :
    Writes [Reg.ringStatus 0, Reg.ringDevIdx 0, Reg.ringHostIdx 0, Reg.ringLoss 0, Reg.msixPba 0, Reg.perfWrapLo 0,
    Reg.perfWrapHi 0] s (State.ringOpen s x1) := by
  unfold State.ringOpen; repeat' first
      | (extract_lets +onlyGivenNames v; apply Writes.gen (v := v); subst v; rotate_left; clear_value v; intro h; rotate_right)
      | with_reducible assumption | with_reducible exact Writes.refl | with_reducible apply Writes.step State.showFull_writes
      | with_reducible apply Writes.setReg | with_reducible apply Writes.setF | with_reducible apply Writes.step State.dropHeld_writes
      | with_reducible apply Writes.step State.flushCpl_writes | with_reducible apply Writes.kept State.modHost_kept
      | with_reducible apply Writes.step State.reportLost_writes | with_reducible apply Reg.ringDevIdx_at
      | with_reducible apply Reg.ringHostIdx_at | with_reducible apply Reg.ringStatus_at | dsimp only [F.ringStatus_ERR, F.ringStatus_ERR_CODE]
      | (show _ = _; rfl) | split

theorem State.ringCfgWrite_writes {s : State} {x1 x2} :
    Writes [Reg.ringCfg 0, Reg.ringStatus 0, Reg.ringDevIdx 0, Reg.ringHostIdx 0, Reg.ringLoss 0, Reg.msixPba 0, Reg.perfWrapLo 0,
    Reg.perfWrapHi 0] s (State.ringCfgWrite s x1 x2) := by
  unfold State.ringCfgWrite; repeat' first
      | (extract_lets +onlyGivenNames v; apply Writes.gen (v := v); subst v; rotate_left; clear_value v; intro h; rotate_right)
      | with_reducible assumption | with_reducible exact Writes.refl | with_reducible apply Writes.ite
      | with_reducible apply Writes.step State.ringOpen_writes | with_reducible apply Writes.setF
      | with_reducible apply Writes.step State.dropHeld_writes | with_reducible apply Writes.putRw
      | with_reducible apply Writes.kept State.modHost_kept | with_reducible apply Reg.ringCfg_at | dsimp only [F.ringCfg_EN] | (show _ = _; rfl)

theorem State.useCto_writes {s : State} {x1} : Writes [Reg.hostifStatus] s (State.useCto s x1) := by
  unfold State.useCto; repeat' first
      | with_reducible exact Writes.refl | with_reducible apply Writes.setF | with_reducible apply Reg.hostifStatus_at
      | dsimp only [F.hostifStatus_CFG_ERR, F.hostifStatus_CTO_MS] | (show _ = _; rfl) | split

theorem State.beatFetch_writes {s : State} : Writes [Reg.hostifEmerg] s (State.beatFetch s) := by
  unfold State.beatFetch; repeat' first
      | (extract_lets +onlyGivenNames v; apply Writes.gen (v := v); subst v; rotate_left; clear_value v; intro h; rotate_right)
      | with_reducible assumption | with_reducible exact Writes.refl | with_reducible apply Writes.kept State.statBlock_kept
      | with_reducible apply Writes.kept State.issueFetch_kept | with_reducible apply Writes.kept State.modHost_kept
      | with_reducible apply Writes.step State.showFetchNow_writes | (show _ = _; rfl) | split

theorem State.ringFail_writes {s : State} {x1 x2 x3} :
    Writes [Reg.ringStatus 0, Reg.ringDevIdx 0, Reg.ringLoss 0, Reg.msixPba 0, Reg.perfWrapLo 0,
    Reg.perfWrapHi 0] s (State.ringFail s x1 x2 x3) := by
  unfold State.ringFail; repeat' first
      | (extract_lets +onlyGivenNames v; apply Writes.gen (v := v); subst v; rotate_left; clear_value v; intro h; rotate_right)
      | with_reducible assumption | with_reducible exact Writes.refl | with_reducible apply Writes.setF
      | with_reducible apply Writes.step State.raise_writes | with_reducible apply Writes.kept State.modHost_kept
      | with_reducible apply Reg.ringStatus_at | dsimp only [F.ringStatus_ERR, F.ringStatus_ERR_CODE] | (show _ = _; rfl)

theorem State.ringIndex_writes {s : State} {x1 x2} :
    Writes [Reg.ringStatus 0, Reg.ringDevIdx 0, Reg.ringHostIdx 0, Reg.ringLoss 0, Reg.msixPba 0, Reg.perfWrapLo 0,
    Reg.perfWrapHi 0] s (State.ringIndex s x1 x2) := by
  unfold State.ringIndex; repeat' first
      | with_reducible exact Writes.refl | with_reducible apply Writes.ite | with_reducible apply Writes.step State.showFull_writes
      | with_reducible apply Writes.setReg | with_reducible apply Writes.step State.ringFail_writes | with_reducible apply Reg.ringHostIdx_at
      | (show _ = _; rfl)

theorem State.fetchLate_writes {s : State} :
    Writes [Reg.globalLateFlags, Reg.globalLateCnt 0, Reg.hostifEmerg, Reg.hostifCnt 0, Reg.ringStatus 0, Reg.ringDevIdx 0, Reg.ringLoss 0,
    Reg.msixPba 0, Reg.perfWrapLo 0, Reg.perfWrapHi 0] s (State.fetchLate s) := by
  unfold State.fetchLate; repeat' first
      | (extract_lets +onlyGivenNames v; apply Writes.gen (v := v); subst v; rotate_left; clear_value v; intro h; rotate_right)
      | with_reducible assumption | with_reducible exact Writes.refl | with_reducible apply Writes.step State.late_writes
      | with_reducible apply Writes.step State.nextFetch_writes | with_reducible apply State.when_writes
      | with_reducible apply Writes.kept State.modHost_kept | with_reducible apply Writes.step State.showFetchNow_writes | (show _ = _; rfl)

theorem State.pcieEvent_writes {s : State} {x1 x2} :
    Writes [Reg.ringStatus 0, Reg.ringDevIdx 0, Reg.ringLoss 0, Reg.msixPba 0, Reg.perfWrapLo 0, Reg.perfWrapHi 0] s (State.pcieEvent s x1 x2) := by
  unfold State.pcieEvent; repeat' first | with_reducible exact Writes.refl | with_reducible apply Writes.step State.raise_writes | (show _ = _; rfl)

theorem State.showRecovering_writes {s : State} : Writes [Reg.hostifStatus] s (State.showRecovering s) := by
  unfold State.showRecovering; repeat' first
      | with_reducible exact Writes.refl | with_reducible apply Writes.setF | with_reducible apply Reg.hostifStatus_at
      | dsimp only [F.hostifStatus_RECOVERING] | (show _ = _; rfl)

end Sys2Proof.Machine
end

