-- ==== Sys2Proof/Laws/WritesHostRows.lean ====
section
/-!
SUPPORT. Sys2Proof/Laws/WritesHostRows.lean: which registers each operation of Machine/HostRows.lean may change.
-/
namespace Sys2Proof.Machine
open Sys2Proof

theorem State.dmaOffWrite_writes {s : State} {x1} :
    Writes [Reg.hostifEmerg, Reg.hostifCnt 0, Reg.ringStatus 0, Reg.ringDevIdx 0, Reg.msixPba 0] s (State.dmaOffWrite s x1) := by
  unfold State.dmaOffWrite; repeat' first
      | intro _ | (extract_lets +onlyGivenNames v; apply Writes.gen (v := v); subst v; rotate_left; clear_value v; intro h; rotate_right)
      | with_reducible assumption | with_reducible exact Writes.refl | with_reducible apply Writes.step State.txPop_writes
      | with_reducible apply Writes.setF | with_reducible apply State.each_writes | with_reducible apply Writes.step State.nextFetch_writes
      | with_reducible apply Writes.step State.writeEntry_writes | with_reducible apply Writes.step State.flushCpl_writes
      | with_reducible apply Writes.kept State.modHost_kept | with_reducible apply Reg.hostifEmerg_at | dsimp only [F.hostifEmerg_DMA_OFF]
      | (show _ = _; rfl) | split

theorem execKick_writes {s : State} {t} (h : execKick s = .next t) : Writes [Reg.hostifCnt 0] s t := by
  unfold execKick at h; injection h with h; subst h; repeat' first
      | with_reducible exact Writes.refl | with_reducible apply Writes.step State.kicked_writes | (show _ = _; rfl)

theorem State.admitHost_writes {s : State} {x1 x2 x3} :
    Writes [Reg.ringStatus 0, Reg.ringDevIdx 0, Reg.ringLoss 0, Reg.msixPba 0, Reg.perfWrapLo 0, Reg.perfWrapHi 0, Reg.portPauseStatus 0,
    Reg.fabricStatus, Reg.eqDepth 0, Reg.eqOndie 0, Reg.eqHwm 0, Reg.iaDepth 0, Reg.deepFree, Reg.iuEdges 0] s (State.admitHost s x1 x2 x3) := by
  induction x3 generalizing s with
  | zero => exact Writes.refl
  | succ n ih => unfold State.admitHost; repeat' first
      | with_reducible apply Writes.step ih | with_reducible exact Writes.refl | with_reducible apply Writes.step State.admitCell_writes
      | (show _ = _; rfl) | split

theorem State.txAdmit_writes {s : State} {x1 x2 x3} :
    Writes [Reg.ringStatus 0, Reg.ringDevIdx 0, Reg.ringLoss 0, Reg.msixPba 0, Reg.perfWrapLo 0, Reg.perfWrapHi 0, Reg.portPauseStatus 0,
    Reg.fabricStatus, Reg.eqDepth 0, Reg.eqOndie 0, Reg.eqHwm 0, Reg.iaDepth 0, Reg.deepFree, Reg.iuEdges 0] s (State.txAdmit s x1 x2 x3) := by
  unfold State.txAdmit; repeat' first
      | (extract_lets +onlyGivenNames v; apply Writes.gen (v := v); subst v; rotate_left; clear_value v; intro h; rotate_right)
      | with_reducible assumption | with_reducible exact Writes.refl | with_reducible apply Writes.step State.admitHost_writes
      | with_reducible apply Writes.step State.frameIn_writes | with_reducible apply Writes.kept State.modFabric_kept | (show _ = _; rfl)

theorem execFetchNow_writes {s : State} {t} (h : execFetchNow s = .next t) : Writes [Reg.hostifEmerg, Reg.hostifCnt 0] s t := by
  unfold execFetchNow at h; injection h with h; subst h; repeat' first
      | with_reducible exact Writes.refl | with_reducible apply Writes.step State.fetchNow_writes | (show _ = _; rfl)

theorem execMsixSignal_writes {s : State} {x0} {t} (h : execMsixSignal x0 s = .next t) :
    Writes [Reg.msixPba 0, Reg.tbSnapCtrl, Reg.tbIncrLo 0, Reg.tbIncrHi 0, Reg.tbSnapFrac 0, Reg.tbSnapNs 0, Reg.tbSnapSecLo 0,
    Reg.tbSnapSecHi 0] s t := by
  unfold execMsixSignal at h; injection h with h; subst h; repeat' first
      | (extract_lets +onlyGivenNames v; apply Writes.gen (v := v); subst v; rotate_left; clear_value v; intro h; rotate_right)
      | with_reducible assumption | with_reducible exact Writes.refl | with_reducible apply Writes.step State.reachTick_writes
      | with_reducible apply Writes.step State.signal_writes | (show _ = _; rfl) | split

theorem execUnassignedOpcode_writes {s : State} {x0 x1} {t} (h : execUnassignedOpcode x0 x1 s = .next t) :
    Writes [Reg.hostifCnt 0, Reg.ringStatus 0, Reg.ringDevIdx 0, Reg.msixPba 0, Reg.perfWrapLo 0, Reg.perfWrapHi 0] s t := by
  unfold execUnassignedOpcode at h; injection h with h; subst h; repeat' first
      | with_reducible exact Writes.refl | with_reducible apply Writes.step State.fetched_writes
      | with_reducible apply Writes.step State.complete_writes | with_reducible apply Writes.kept State.cmdWaits_kept | (show _ = _; rfl) | split

theorem execDoorbellData_writes {s : State} {x0} {t} (h : execDoorbellData x0 s = .next t) :
    Writes [Reg.globalLateFlags, Reg.globalLateCnt 0, Reg.hostifEmerg, Reg.hostifCnt 0, Reg.ringStatus 0, Reg.ringDevIdx 0, Reg.ringHostIdx 0,
    Reg.ringLoss 0, Reg.msixPba 0, Reg.perfWrapLo 0, Reg.perfWrapHi 0] s t := by
  unfold execDoorbellData at h; injection h with h; subst h; repeat' first
      | intro _ | (extract_lets +onlyGivenNames v; apply Writes.gen (v := v); subst v; rotate_left; clear_value v; intro h; rotate_right)
      | with_reducible assumption | with_reducible exact Writes.refl | with_reducible apply Writes.step State.ringIndex_writes
      | with_reducible apply State.each_writes | with_reducible apply Writes.step State.nextFetch_writes
      | with_reducible apply Writes.step State.fetchLate_writes | with_reducible apply Writes.kept State.userCopy_kept
      | with_reducible apply Writes.kept State.modHost_kept | with_reducible apply Writes.step State.showFetchNow_writes | (show _ = _; rfl) | split

theorem State.dropWait_writes {s : State} {x1} : Writes [Reg.globalPwrState, Reg.pipeGenStatus 0] s (State.dropWait s x1) := by
  unfold State.dropWait; repeat' first
      | intro _ | (extract_lets +onlyGivenNames v; apply Writes.gen (v := v); subst v; rotate_left; clear_value v; intro h; rotate_right)
      | with_reducible assumption | with_reducible exact Writes.refl | with_reducible apply Writes.setF
      | with_reducible apply Writes.kept State.modEvout_kept | with_reducible apply State.each_writes
      | with_reducible apply Writes.kept State.busStart_kept | with_reducible apply Writes.kept State.modRedund_kept
      | with_reducible apply Writes.kept State.modBus_kept | with_reducible apply Writes.kept State.modHost_kept
      | with_reducible apply Reg.globalPwrState_at | with_reducible apply Reg.pipeGenStatus_at
      | dsimp only [F.globalPwrState_BUSY, F.pipeGenStatus_COMMIT_WAIT] | (show _ = _; rfl) | split | with_reducible apply Writes.put_pipesTime
      | with_reducible apply Writes.put_ports | with_reducible apply Writes.put_power

theorem execRxWriteback_writes {s : State} {x0} {t} (h : execRxWriteback x0 s = .next t) :
    Writes [Reg.ringStatus 0, Reg.ringDevIdx 0, Reg.ringLoss 0, Reg.msixPba 0] s t := by
  unfold execRxWriteback at h; injection h with h; subst h; repeat' first
      | with_reducible exact Writes.refl | with_reducible apply Writes.bump | with_reducible apply Writes.kept State.rxFill_kept
      | with_reducible apply Writes.step State.signalSoon_writes | with_reducible apply Writes.kept State.modFabric_kept
      | with_reducible apply Writes.step State.advance_writes | with_reducible apply Reg.ringLoss_at | dsimp only [F.ringLoss_COUNT]
      | (show _ = _; rfl) | split

theorem execCmdTimeout_writes {s : State} {x0} {t} (h : execCmdTimeout x0 s = .next t) :
    Writes [Reg.globalPwrState, Reg.hostifCnt 0, Reg.ringStatus 0, Reg.ringDevIdx 0, Reg.msixPba 0, Reg.perfWrapLo 0, Reg.perfWrapHi 0,
    Reg.pipeGenStatus 0] s t := by
  unfold execCmdTimeout at h; injection h with h; subst h; repeat' first
      | with_reducible exact Writes.refl | with_reducible apply Writes.bump | with_reducible apply Writes.step State.dropWait_writes
      | with_reducible apply Writes.step State.endParked_writes | with_reducible apply Reg.hostifCnt_at | dsimp only [F.hostifCnt_COUNT]
      | (show _ = _; rfl) | split

theorem execCtoConfigWrite_writes {s : State} {x0} {t} (h : execCtoConfigWrite x0 s = .next t) : Writes [Reg.hostifStatus] s t := by
  unfold execCtoConfigWrite at h; injection h with h; subst h; repeat' first
      | with_reducible exact Writes.refl | with_reducible apply Writes.step State.useCto_writes
      | with_reducible apply Writes.kept State.modHost_kept | (show _ = _; rfl) | split

theorem execPcieLinkRecovery_writes {s : State} {x0} {t} (h : execPcieLinkRecovery x0 s = .next t) :
    Writes [Reg.hostifStatus, Reg.hostifCnt 0, Reg.ringStatus 0, Reg.ringDevIdx 0, Reg.ringLoss 0, Reg.msixPba 0, Reg.perfWrapLo 0,
    Reg.perfWrapHi 0] s t := by
  unfold execPcieLinkRecovery at h; injection h with h; subst h; repeat' first
      | (extract_lets +onlyGivenNames v; apply Writes.gen (v := v); subst v; rotate_left; clear_value v; intro h; rotate_right)
      | with_reducible assumption | with_reducible exact Writes.refl | with_reducible apply Writes.bump
      | with_reducible apply Writes.step State.pcieEvent_writes | with_reducible apply Writes.step State.showRecovering_writes
      | with_reducible apply Writes.kept State.modHost_kept | with_reducible apply Reg.hostifCnt_at | dsimp only [F.hostifCnt_COUNT]
      | (show _ = _; rfl) | split

theorem execTxDescriptor_writes {s : State} {x0 x1 x2} {t} (h : execTxDescriptor x0 x1 x2 s = .next t) :
    Writes [Reg.ringStatus 0, Reg.ringDevIdx 0, Reg.ringLoss 0, Reg.msixPba 0, Reg.perfWrapLo 0, Reg.perfWrapHi 0, Reg.portPauseStatus 0,
    Reg.fabricStatus, Reg.eqDepth 0, Reg.eqOndie 0, Reg.eqHwm 0, Reg.iaDepth 0, Reg.deepFree, Reg.iuEdges 0] s t := by
  unfold execTxDescriptor at h; injection h with h; subst h; repeat' first
      | (extract_lets +onlyGivenNames v; apply Writes.gen (v := v); subst v; rotate_left; clear_value v; intro h; rotate_right)
      | with_reducible assumption | with_reducible exact Writes.refl | with_reducible apply Writes.ite
      | with_reducible apply Writes.step State.txAdmit_writes | with_reducible apply Writes.kept State.sample_kept
      | with_reducible apply Writes.step State.frameIn_writes | with_reducible apply Writes.kept State.countDiscarded_kept
      | with_reducible apply Writes.step State.txDone_writes | with_reducible apply Writes.kept State.modHost_kept | (show _ = _; rfl) | split

theorem execNop_writes {s : State} {x0} {t} (h : execNop x0 s = .next t) :
    Writes [Reg.hostifCnt 0, Reg.ringStatus 0, Reg.ringDevIdx 0, Reg.msixPba 0, Reg.perfWrapLo 0, Reg.perfWrapHi 0] s t := by
  unfold execNop at h; injection h with h; subst h; repeat' first
      | intro _ | with_reducible assumption | with_reducible exact Writes.refl | with_reducible apply State.start_writes
      | with_reducible apply Writes.step State.complete_writes | (show _ = _; rfl)

theorem execRingEnable_writes {s : State} {x0 x1} {t} (h : execRingEnable x0 x1 s = .next t) :
    Writes [Reg.ringCfg 0, Reg.ringStatus 0, Reg.ringDevIdx 0, Reg.ringHostIdx 0, Reg.ringLoss 0, Reg.msixPba 0, Reg.perfWrapLo 0,
    Reg.perfWrapHi 0] s t := by
  unfold execRingEnable at h; injection h with h; subst h; repeat' first
      | with_reducible exact Writes.refl | with_reducible apply Writes.step State.ringCfgWrite_writes | (show _ = _; rfl) | split

theorem execTxStop_writes {s : State} {x0} {t} (h : execTxStop x0 s = .next t) : Writes [Reg.hostifEmerg] s t := by
  unfold execTxStop at h; injection h with h; subst h; repeat' first
      | with_reducible exact Writes.refl | with_reducible apply Writes.setF | with_reducible apply Reg.hostifEmerg_at
      | dsimp only [F.hostifEmerg_TX_STOP] | (show _ = _; rfl) | split

theorem execCompletionWrite_writes {s : State} {t} (h : execCompletionWrite s = .next t) :
    Writes [Reg.ringStatus 0, Reg.ringDevIdx 0, Reg.msixPba 0] s t := by
  unfold execCompletionWrite at h; injection h with h; subst h; repeat' first
      | with_reducible exact Writes.refl | with_reducible apply Writes.step State.flushCpl_writes | (show _ = _; rfl)

theorem execEventLost_writes {s : State} {t} (h : execEventLost s = .next t) :
    Writes [Reg.ringStatus 0, Reg.ringDevIdx 0, Reg.msixPba 0, Reg.perfWrapLo 0, Reg.perfWrapHi 0] s t := by
  unfold execEventLost at h; injection h with h; subst h; repeat' first
      | with_reducible exact Writes.refl | with_reducible apply Writes.step State.reportLost_writes | (show _ = _; rfl)

theorem execRingDisable_writes {s : State} {x0 x1} {t} (h : execRingDisable x0 x1 s = .next t) :
    Writes [Reg.ringCfg 0, Reg.ringStatus 0, Reg.ringDevIdx 0, Reg.ringHostIdx 0, Reg.ringLoss 0, Reg.msixPba 0, Reg.perfWrapLo 0,
    Reg.perfWrapHi 0] s t := by
  unfold execRingDisable at h; injection h with h; subst h; repeat' first
      | with_reducible exact Writes.refl | with_reducible apply Writes.step State.ringCfgWrite_writes | (show _ = _; rfl) | split

theorem execPcieLinkUp_writes {s : State} {x0 x1} {t} (h : execPcieLinkUp x0 x1 s = .next t) : Writes [Reg.hostifStatus] s t := by
  unfold execPcieLinkUp at h; injection h with h; subst h; repeat' first
      | with_reducible exact Writes.refl | with_reducible apply Writes.setF | with_reducible apply Reg.hostifStatus_at
      | dsimp only [F.hostifStatus_LINK_UP, F.hostifStatus_SPEED, F.hostifStatus_WIDTH] | (show _ = _; rfl) | split

theorem execDmaOff_writes {s : State} {x0} {t} (h : execDmaOff x0 s = .next t) :
    Writes [Reg.hostifEmerg, Reg.hostifCnt 0, Reg.ringStatus 0, Reg.ringDevIdx 0, Reg.msixPba 0] s t := by
  unfold execDmaOff at h; injection h with h; subst h; repeat' first
      | with_reducible exact Writes.refl | with_reducible apply Writes.step State.dmaOffWrite_writes | (show _ = _; rfl) | split

theorem execDoorbellDeadline_writes {s : State} {t} (h : execDoorbellDeadline s = .next t) :
    Writes [Reg.globalLateFlags, Reg.globalLateCnt 0, Reg.hostifEmerg, Reg.hostifCnt 0, Reg.ringStatus 0, Reg.ringDevIdx 0, Reg.ringLoss 0,
    Reg.msixPba 0, Reg.perfWrapLo 0, Reg.perfWrapHi 0, Reg.tbSnapCtrl, Reg.tbIncrLo 0, Reg.tbIncrHi 0, Reg.tbSnapFrac 0, Reg.tbSnapNs 0,
    Reg.tbSnapSecLo 0, Reg.tbSnapSecHi 0] s t := by
  unfold execDoorbellDeadline at h; injection h with h; subst h; repeat' first
      | (extract_lets +onlyGivenNames v; apply Writes.gen (v := v); subst v; rotate_left; clear_value v; intro h; rotate_right)
      | with_reducible assumption | with_reducible exact Writes.refl | with_reducible apply Writes.step State.reachTick_writes
      | with_reducible apply Writes.step State.fetchLate_writes | (show _ = _; rfl) | split

theorem execHostReadCompletion_writes {s : State} {x0} {t} (h : execHostReadCompletion x0 s = .next t) :
    Writes [Reg.hostifStatus, Reg.hostifCnt 0, Reg.ringStatus 0, Reg.ringDevIdx 0, Reg.ringLoss 0, Reg.msixPba 0, Reg.perfWrapLo 0,
    Reg.perfWrapHi 0] s t := by
  unfold execHostReadCompletion at h; injection h with h; subst h; repeat' first
      | (extract_lets +onlyGivenNames v; apply Writes.gen (v := v); subst v; rotate_left; clear_value v; intro h; rotate_right)
      | with_reducible assumption | with_reducible exact Writes.refl | with_reducible apply Writes.bump
      | with_reducible apply Writes.step State.pcieEvent_writes | with_reducible apply Writes.kept State.readRecovered_kept
      | with_reducible apply Writes.step State.showRecovering_writes | with_reducible apply Writes.kept State.modHost_kept
      | with_reducible apply Reg.hostifCnt_at | dsimp only [F.hostifCnt_COUNT] | (show _ = _; rfl) | split

end Sys2Proof.Machine
end

