-- ==== Sys2Proof/Laws/WritesTimeRows.lean ====
section
/-!
SUPPORT. Sys2Proof/Laws/WritesTimeRows.lean: which registers each operation of Machine/TimeRows.lean may change.
-/
namespace Sys2Proof.Machine
open Sys2Proof

theorem State.snapCtrlWrite_writes {s : State} {x1 x2} :
    Writes [Reg.perfWrapLo 0, Reg.perfWrapHi 0, Reg.tbSnapCtrl, Reg.redundCnt 0] s (State.snapCtrlWrite s x1 x2) := by
  unfold State.snapCtrlWrite; repeat' first
      | intro _ | (extract_lets +onlyGivenNames v; apply Writes.gen (v := v); subst v; rotate_left; clear_value v; intro h; rotate_right)
      | with_reducible assumption | with_reducible exact Writes.refl | with_reducible apply Writes.ite | with_reducible apply Writes.setF
      | with_reducible apply State.byWriter_writes | with_reducible apply Writes.putRw | with_reducible apply Writes.kept State.modTimeAny_kept
      | with_reducible apply Reg.tbSnapCtrl_at | dsimp only [F.tbSnapCtrl_GO] | (show _ = _; rfl)

theorem State.tcnt0Stepped_writes {s : State} {x1} :
    Writes [Reg.globalBeat, Reg.ringStatus 0, Reg.ringDevIdx 0, Reg.ringLoss 0, Reg.msixPba 0, Reg.perfWrapLo 0,
    Reg.perfWrapHi 0] s (State.tcnt0Stepped s x1) := by
  unfold State.tcnt0Stepped; repeat' first
      | (extract_lets +onlyGivenNames v; apply Writes.gen (v := v); subst v; rotate_left; clear_value v; intro h; rotate_right)
      | with_reducible assumption | with_reducible exact Writes.refl | with_reducible apply Writes.kept State.dipMove_kept
      | with_reducible apply Writes.step State.showBeat_writes | with_reducible apply Writes.step State.raise_writes
      | with_reducible apply Writes.kept State.modFabric_kept | with_reducible apply Writes.kept State.modTimeAny_kept | (show _ = _; rfl)

theorem State.cntWrite_writes {s : State} {x1 x2} :
    Writes [Reg.globalBeat, Reg.hostifCnt 0, Reg.ringStatus 0, Reg.ringDevIdx 0, Reg.ringLoss 0, Reg.msixPba 0, Reg.perfWrapLo 0,
    Reg.perfWrapHi 0, Reg.tbStepFrac 0, Reg.tbStepNs 0, Reg.tbStepSecLo 0, Reg.tbStepSecHi 0, Reg.tbIncrLo 0, Reg.tbIncrHi 0, Reg.slotStatus 0,
    Reg.evoutStatus 0, Reg.evoutSkipped 0] s (State.cntWrite s x1 x2).1 := by
  unfold State.cntWrite; repeat' first
      | (extract_lets +onlyGivenNames v; apply Writes.gen (v := v); subst v; rotate_left; clear_value v; intro h; rotate_right)
      | (extract_lets +onlyGivenNames v; clear_value v) | with_reducible assumption | with_reducible exact Writes.refl
      | with_reducible apply Writes.step State.recordStep_writes | with_reducible apply Writes.kept State.addVal_kept
      | with_reducible apply Writes.step State.tcnt0Stepped_writes | with_reducible apply Writes.step State.slotWritten_writes
      | with_reducible apply Writes.kept State.setVal_kept | with_reducible apply Writes.step State.finish_writes
      | with_reducible apply Writes.kept State.modCnt_kept | with_reducible apply Writes.step State.evoutStep_writes
      | with_reducible apply Writes.step State.showIncr_writes | (show _ = _; rfl) | split

theorem State.dropSkipped_writes {s : State} :
    Writes [Reg.globalLateFlags, Reg.globalLateCnt 0, Reg.hostifCnt 0, Reg.ringStatus 0, Reg.ringDevIdx 0, Reg.ringLoss 0, Reg.msixPba 0,
    Reg.perfWrapLo 0, Reg.perfWrapHi 0] s (State.dropSkipped s) := by
  unfold State.dropSkipped; repeat' first
      | intro _ | with_reducible assumption | with_reducible exact Writes.refl | with_reducible apply Writes.step State.late_writes
      | with_reducible apply State.each_writes | with_reducible apply Writes.step State.finish_writes
      | with_reducible apply Writes.kept State.modTimeAny_kept | (show _ = _; rfl)

theorem execSnapGo_writes {s : State} {x0 x1} {t} (h : execSnapGo x0 x1 s = .next t) :
    Writes [Reg.perfWrapLo 0, Reg.perfWrapHi 0, Reg.tbSnapCtrl, Reg.redundCnt 0] s t := by
  unfold execSnapGo at h; injection h with h; subst h; repeat' first
      | with_reducible exact Writes.refl | with_reducible apply Writes.step State.snapCtrlWrite_writes | (show _ = _; rfl)

theorem execTcntWrite_writes {s : State} {x0} {t} (h : execTcntWrite x0 s = .next t) :
    Writes [Reg.hostifCnt 0, Reg.ringStatus 0, Reg.ringDevIdx 0, Reg.msixPba 0, Reg.perfWrapLo 0, Reg.perfWrapHi 0] s t := by
  unfold execTcntWrite at h; injection h with h; subst h; repeat' first
      | intro _ | with_reducible assumption | with_reducible exact Writes.refl | with_reducible apply Writes.kept State.parkId_kept
      | with_reducible apply State.start_writes | with_reducible apply Writes.step State.complete_writes
      | with_reducible apply Writes.kept State.modTimeAny_kept | (show _ = _; rfl) | split

end Sys2Proof.Machine
end

