-- ==== Sys2Proof/Laws/WritesRefRows.lean ====
section
/-!
SUPPORT. Sys2Proof/Laws/WritesRefRows.lean: which registers each operation of Machine/RefRows.lean may change.
-/
namespace Sys2Proof.Machine
open Sys2Proof

theorem State.candWrite_writes {s : State} {x1 x2 x3 x4} :
    Writes [Reg.perfWrapLo 0, Reg.perfWrapHi 0, Reg.candStatus 0, Reg.redundCnt 0] s (State.candWrite s x1 x2 x3 x4) := by
  unfold State.candWrite; repeat' first
      | intro _ | (extract_lets +onlyGivenNames v; apply Writes.gen (v := v); subst v; rotate_left; clear_value v; intro h; rotate_right)
      | (extract_lets +onlyGivenNames v; apply Writes.gen (v := v.1); subst v; rotate_left; clear_value v; intro h; rotate_right)
      | (extract_lets +onlyGivenNames v; have q : _ → State := v; clear q; subst v)
      | (extract_lets +onlyGivenNames v; have q : State → _ → State := v; clear q; subst v)
      | (extract_lets +onlyGivenNames v; have q : Nat := v; clear q; subst v)
      | (extract_lets +onlyGivenNames v; have q : Fld := v; clear q; subst v) | (extract_lets +onlyGivenNames v; clear_value v)
      | with_reducible assumption | with_reducible exact Writes.refl | with_reducible apply Writes.ite | with_reducible apply Writes.foldlFst
      | with_reducible apply Writes.setF | with_reducible apply State.byWriter_writes | with_reducible apply Writes.kept State.wait_kept
      | with_reducible apply Writes.kept State.took_kept | with_reducible apply Reg.candStatus_at | dsimp only [F.candStatus_CFG_ERR]
      | (show _ = _; rfl) | (with_reducible apply Writes.fst (by assumption)) | split

theorem State.clkoutWrite_writes {s : State} {x1 x2 x3} :
    Writes [Reg.perfWrapLo 0, Reg.perfWrapHi 0, Reg.clkout 0, Reg.redundCnt 0] s (State.clkoutWrite s x1 x2 x3) := by
  unfold State.clkoutWrite; repeat' first
      | intro _ | (extract_lets +onlyGivenNames v; apply Writes.gen (v := v); subst v; rotate_left; clear_value v; intro h; rotate_right)
      | with_reducible assumption | with_reducible exact Writes.refl | with_reducible apply Writes.ite
      | with_reducible apply State.byWriter_writes | with_reducible apply Writes.kept State.clkHold_kept
      | with_reducible apply Writes.kept State.clkAlign_kept | with_reducible apply Writes.putRw | with_reducible apply State.when_writes
      | with_reducible apply Reg.clkout_at | (show _ = _; rfl)

theorem State.dpllOpened_writes {s : State} {x1 x2} :
    Writes [Reg.ringStatus 0, Reg.ringDevIdx 0, Reg.ringLoss 0, Reg.msixPba 0, Reg.perfWrapLo 0, Reg.perfWrapHi 0, Reg.dpllStatus 0,
    Reg.dpllHoTts 0, Reg.dpllSwrateLo 0, Reg.dpllSwrateHi 0, Reg.dpllHistIncrLo 0, Reg.dpllHistIncrHi 0] s (State.dpllOpened s x1 x2) := by
  unfold State.dpllOpened; repeat' first
      | (extract_lets +onlyGivenNames v; apply Writes.gen (v := v); subst v; rotate_left; clear_value v; intro h; rotate_right)
      | with_reducible assumption | with_reducible exact Writes.refl | with_reducible apply Writes.step State.goDpll_writes
      | with_reducible apply Writes.setReg | with_reducible apply Writes.setF | with_reducible apply Writes.kept State.modDpll_kept
      | with_reducible apply Reg.dpllSwrateHi_at | with_reducible apply Reg.dpllSwrateLo_at | dsimp only [F.dpllSwrateHi_HI] | (show _ = _; rfl)

theorem State.dpllCfgWrite_writes {s : State} {x1 x2 x3} :
    Writes [Reg.ringStatus 0, Reg.ringDevIdx 0, Reg.ringLoss 0, Reg.msixPba 0, Reg.perfWrapLo 0, Reg.perfWrapHi 0, Reg.candStatus 0,
    Reg.dpllCfg 0, Reg.dpllStatus 0, Reg.dpllPhaseLo 0, Reg.dpllPhaseHi 0, Reg.dpllHoTts 0, Reg.dpllSwrateLo 0, Reg.dpllSwrateHi 0,
    Reg.dpllHistIncrLo 0, Reg.dpllHistIncrHi 0, Reg.redundCnt 0] s (State.dpllCfgWrite s x1 x2 x3) := by
  unfold State.dpllCfgWrite; repeat' first
      | intro _ | (extract_lets +onlyGivenNames v; apply Writes.gen (v := v); subst v; rotate_left; clear_value v; intro h; rotate_right)
      | with_reducible assumption | with_reducible exact Writes.refl | with_reducible apply Writes.ite
      | with_reducible apply Writes.step State.goDpll_writes | with_reducible apply State.byWriter_writes
      | with_reducible apply Writes.step State.dpllSelect_writes | with_reducible apply Writes.putRw
      | with_reducible apply Writes.step State.dpllClose_writes | with_reducible apply Writes.step State.dpllOpened_writes
      | with_reducible apply Writes.kept State.modDpll_kept | with_reducible apply Reg.dpllCfg_at | (show _ = _; rfl) | split

theorem State.swrateWrite_writes {s : State} {x1 x2 x3 x4} :
    Writes [Reg.perfWrapLo 0, Reg.perfWrapHi 0, Reg.dpllSwrateLo 0, Reg.dpllSwrateHi 0, Reg.redundCnt 0] s (State.swrateWrite s x1 x2 x3 x4) := by
  unfold State.swrateWrite; repeat' first
      | intro _ | (extract_lets +onlyGivenNames v; apply Writes.gen (v := v); subst v; rotate_left; clear_value v; intro h; rotate_right)
      | (extract_lets +onlyGivenNames v; have q : Nat := v; clear q; subst v) | with_reducible assumption | with_reducible exact Writes.refl
      | with_reducible apply State.byWriter_writes | with_reducible apply Writes.putRw | with_reducible apply Writes.kept State.modDpll_kept
      | with_reducible apply Reg.dpllSwrateHi_at | with_reducible apply Reg.dpllSwrateLo_at | (show _ = _; rfl) | split

theorem State.synEnable_writes {s : State} {x1 x2} :
    Writes [Reg.ringStatus 0, Reg.ringDevIdx 0, Reg.ringLoss 0, Reg.msixPba 0, Reg.perfWrapLo 0, Reg.perfWrapHi 0,
    Reg.synStatus 0] s (State.synEnable s x1 x2) := by
  unfold State.synEnable; repeat' first
      | with_reducible exact Writes.refl | with_reducible apply Writes.setF | with_reducible apply Writes.step State.synEvent_writes
      | with_reducible apply Writes.step State.synSearch_writes | with_reducible apply State.when_writes
      | with_reducible apply Reg.synStatus_at | dsimp only [F.synStatus_HELD, F.synStatus_LOCK, F.synStatus_SEARCH] | (show _ = _; rfl) | split

theorem State.synCfgWrite_writes {s : State} {x1 x2 x3} :
    Writes [Reg.ringStatus 0, Reg.ringDevIdx 0, Reg.ringLoss 0, Reg.msixPba 0, Reg.perfWrapLo 0, Reg.perfWrapHi 0, Reg.synCfg 0, Reg.synStatus 0,
    Reg.redundCnt 0] s (State.synCfgWrite s x1 x2 x3) := by
  unfold State.synCfgWrite; repeat' first
      | intro _ | (extract_lets +onlyGivenNames v; apply Writes.gen (v := v); subst v; rotate_left; clear_value v; intro h; rotate_right)
      | with_reducible assumption | with_reducible exact Writes.refl | with_reducible apply State.byWriter_writes
      | with_reducible apply Writes.step State.synLoad_writes | with_reducible apply Writes.putRw
      | with_reducible apply Writes.step State.synEnable_writes | with_reducible apply Reg.synCfg_at | (show _ = _; rfl) | split

theorem State.forceTake_writes {s : State} {x1} :
    Writes [Reg.hostifCnt 0, Reg.ringStatus 0, Reg.ringDevIdx 0, Reg.ringLoss 0, Reg.msixPba 0, Reg.perfWrapLo 0, Reg.perfWrapHi 0,
    Reg.candStatus 0, Reg.dpllStatus 0, Reg.dpllPhaseLo 0, Reg.dpllPhaseHi 0, Reg.dpllHoTts 0, Reg.dpllHistIncrLo 0,
    Reg.dpllHistIncrHi 0] s (State.forceTake s x1) := by
  unfold State.forceTake; repeat' first
      | (extract_lets +onlyGivenNames v; apply Writes.gen (v := v); subst v; rotate_left; clear_value v; intro h; rotate_right)
      | with_reducible assumption | with_reducible exact Writes.refl | with_reducible apply Writes.kept State.modParked_kept
      | with_reducible apply Writes.setF | with_reducible apply Writes.step State.dpllSelect_writes
      | with_reducible apply Writes.step State.finish_writes | with_reducible apply Writes.kept State.modDpll_kept
      | with_reducible apply Reg.dpllStatus_at | dsimp only [F.dpllStatus_FORCE] | (show _ = _; rfl) | split

theorem State.candConfig_writes {s : State} {x1 x2} :
    Writes [Reg.ringStatus 0, Reg.ringDevIdx 0, Reg.ringLoss 0, Reg.msixPba 0, Reg.perfWrapLo 0, Reg.perfWrapHi 0, Reg.candStatus 0,
    Reg.candFreq 0, Reg.dpllStatus 0, Reg.dpllPhaseLo 0, Reg.dpllPhaseHi 0, Reg.dpllHoTts 0, Reg.dpllHistIncrLo 0,
    Reg.dpllHistIncrHi 0] s (State.candConfig s x1 x2) := by
  unfold State.candConfig; repeat' first
      | intro _ | (extract_lets +onlyGivenNames v; apply Writes.gen (v := v); subst v; rotate_left; clear_value v; intro h; rotate_right)
      | with_reducible assumption | with_reducible exact Writes.refl | with_reducible apply Writes.step State.dpllSelect_writes
      | with_reducible apply Writes.step State.candStart_writes | with_reducible apply State.each_writes
      | with_reducible apply State.when_writes | (show _ = _; rfl) | split

theorem State.firstStep_writes {s : State} {x1} :
    Writes [Reg.globalBeat, Reg.ringStatus 0, Reg.ringDevIdx 0, Reg.ringLoss 0, Reg.msixPba 0, Reg.perfWrapLo 0, Reg.perfWrapHi 0, Reg.tbStatus,
    Reg.tbStepFrac 0, Reg.tbStepNs 0, Reg.tbStepSecLo 0, Reg.tbStepSecHi 0, Reg.dpllStatus 0, Reg.dpllHoTts 0, Reg.dpllHistIncrLo 0,
    Reg.dpllHistIncrHi 0, Reg.evoutStatus 0, Reg.evoutSkipped 0] s (State.firstStep s x1) := by
  unfold State.firstStep; repeat' first
      | intro _ | (extract_lets +onlyGivenNames v; apply Writes.gen (v := v); subst v; rotate_left; clear_value v; intro h; rotate_right)
      | with_reducible assumption | with_reducible exact Writes.refl | with_reducible apply Writes.step State.goDpll_writes
      | with_reducible apply Writes.step State.recordStep_writes | with_reducible apply Writes.kept State.addVal_kept
      | with_reducible apply Writes.step State.tcnt0Stepped_writes | with_reducible apply Writes.step State.setLocked_writes
      | with_reducible apply State.each_writes | with_reducible apply Writes.kept State.phasesMove_kept
      | with_reducible apply Writes.kept State.clkAlign_kept | with_reducible apply Writes.step State.evoutStep_writes
      | with_reducible apply Writes.kept State.modDpll_kept | (show _ = _; rfl) | split

theorem State.forceBoundary_writes {s : State} :
    Writes [Reg.hostifCnt 0, Reg.ringStatus 0, Reg.ringDevIdx 0, Reg.ringLoss 0, Reg.msixPba 0, Reg.perfWrapLo 0, Reg.perfWrapHi 0,
    Reg.candStatus 0, Reg.dpllStatus 0, Reg.dpllPhaseLo 0, Reg.dpllPhaseHi 0, Reg.dpllHoTts 0, Reg.dpllHistIncrLo 0,
    Reg.dpllHistIncrHi 0] s (State.forceBoundary s) := by
  unfold State.forceBoundary; repeat' first
      | intro _ | with_reducible assumption | with_reducible exact Writes.refl | with_reducible apply Writes.step State.forceTake_writes
      | with_reducible apply State.each_writes | (show _ = _; rfl)

theorem State.esmcSend_writes {s : State} {x1 x2 x3} :
    Writes [Reg.perfWrapLo 0, Reg.perfWrapHi 0, Reg.redundCnt 0] s (State.esmcSend s x1 x2 x3) := by
  unfold State.esmcSend; repeat' first
      | (extract_lets +onlyGivenNames v; apply Writes.gen (v := v); subst v; rotate_left; clear_value v; intro h; rotate_right)
      | with_reducible assumption | with_reducible exact Writes.refl | with_reducible apply Writes.step State.pairSend_writes
      | (show _ = _; rfl) | with_reducible apply Writes.put_refs

theorem State.esmcBoundary_writes {s : State} : Writes [Reg.perfWrapLo 0, Reg.perfWrapHi 0, Reg.redundCnt 0] s (State.esmcBoundary s) := by
  unfold State.esmcBoundary; repeat' first
      | intro _ | with_reducible assumption | with_reducible exact Writes.refl | with_reducible apply Writes.ite
      | with_reducible apply State.each_writes | with_reducible apply Writes.step State.esmcSend_writes | (show _ = _; rfl) | split

theorem execDpllOpen_writes {s : State} {x0 x1 x2} {t} (h : execDpllOpen x0 x1 x2 s = .next t) :
    Writes [Reg.ringStatus 0, Reg.ringDevIdx 0, Reg.ringLoss 0, Reg.msixPba 0, Reg.perfWrapLo 0, Reg.perfWrapHi 0, Reg.candStatus 0,
    Reg.dpllCfg 0, Reg.dpllStatus 0, Reg.dpllPhaseLo 0, Reg.dpllPhaseHi 0, Reg.dpllHoTts 0, Reg.dpllSwrateLo 0, Reg.dpllSwrateHi 0,
    Reg.dpllHistIncrLo 0, Reg.dpllHistIncrHi 0, Reg.redundCnt 0] s t := by
  unfold execDpllOpen at h; injection h with h; subst h; repeat' first
      | with_reducible exact Writes.refl | with_reducible apply Writes.step State.dpllCfgWrite_writes | (show _ = _; rfl)

theorem execSwrateCommit_writes {s : State} {x0 x1 x2} {t} (h : execSwrateCommit x0 x1 x2 s = .next t) :
    Writes [Reg.perfWrapLo 0, Reg.perfWrapHi 0, Reg.dpllSwrateLo 0, Reg.dpllSwrateHi 0, Reg.redundCnt 0] s t := by
  unfold execSwrateCommit at h; injection h with h; subst h; repeat' first
      | with_reducible exact Writes.refl | with_reducible apply Writes.step State.swrateWrite_writes | (show _ = _; rfl)

theorem State.learnFinal_writes {s : State} {x1 x2} :
    Writes [Reg.hostifCnt 0, Reg.ringStatus 0, Reg.ringDevIdx 0, Reg.msixPba 0, Reg.perfWrapLo 0,
    Reg.perfWrapHi 0] s (State.learnFinal s x1 x2) := by
  unfold State.learnFinal; repeat' first
      | (extract_lets +onlyGivenNames v; apply Writes.gen (v := v); subst v; rotate_left; clear_value v; intro h; rotate_right)
      | with_reducible assumption | with_reducible exact Writes.refl | with_reducible apply Writes.ite
      | with_reducible apply Writes.kept State.wait_kept | with_reducible apply Writes.step State.endLong_writes | (show _ = _; rfl)

theorem execSynGate_writes {s : State} {x0 x1 x2} {t} (h : execSynGate x0 x1 x2 s = .next t) :
    Writes [Reg.ringStatus 0, Reg.ringDevIdx 0, Reg.ringLoss 0, Reg.msixPba 0, Reg.perfWrapLo 0, Reg.perfWrapHi 0, Reg.synStatus 0] s t := by
  unfold execSynGate at h; injection h with h; subst h; repeat' first
      | with_reducible exact Writes.refl | with_reducible apply Writes.step State.synGate_writes | (show _ = _; rfl) | split

theorem State.laneRank_writes {s : State} {x1 x2} : Writes [Reg.perfWrapLo 0, Reg.perfWrapHi 0, Reg.redundCnt 0] s (State.laneRank s x1 x2) := by
  unfold State.laneRank; repeat' first
      | intro _ | with_reducible assumption | with_reducible exact Writes.refl | with_reducible apply Writes.ite
      | with_reducible apply Writes.step State.pairWrite_writes | with_reducible apply State.each_writes | (show _ = _; rfl)

theorem execEsmcRx_writes {s : State} {x0 x1} {t} (h : execEsmcRx x0 x1 s = .next t) :
    Writes [Reg.perfWrapLo 0, Reg.perfWrapHi 0, Reg.redundCnt 0] s t := by
  unfold execEsmcRx at h; injection h with h; subst h; repeat' first
      | with_reducible exact Writes.refl | with_reducible apply Writes.step State.laneRank_writes | (show _ = _; rfl) | split
      | with_reducible apply Writes.put_refs

theorem execEsmcTimeout_writes {s : State} {x0} {t} (h : execEsmcTimeout x0 s = .next t) :
    Writes [Reg.perfWrapLo 0, Reg.perfWrapHi 0, Reg.redundCnt 0] s t := by
  unfold execEsmcTimeout at h; injection h with h; subst h; repeat' first
      | with_reducible exact Writes.refl | with_reducible apply Writes.step State.laneRank_writes | (show _ = _; rfl) | split
      | with_reducible apply Writes.put_refs

theorem execHoTtsExpire_writes {s : State} {x0} {t} (h : execHoTtsExpire x0 s = .next t) :
    Writes [Reg.ringStatus 0, Reg.ringDevIdx 0, Reg.ringLoss 0, Reg.msixPba 0, Reg.perfWrapLo 0, Reg.perfWrapHi 0, Reg.dpllStatus 0] s t := by
  unfold execHoTtsExpire at h; injection h with h; subst h; repeat' first
      | (extract_lets +onlyGivenNames v; apply Writes.gen (v := v); subst v; rotate_left; clear_value v; intro h; rotate_right)
      | with_reducible assumption | with_reducible exact Writes.refl | with_reducible apply Writes.ite | with_reducible apply Writes.setF
      | with_reducible apply Writes.step State.holdEvent_writes | with_reducible apply Writes.kept State.modDpll_kept
      | with_reducible apply Reg.dpllStatus_at | dsimp only [F.dpllStatus_HO_SPEC_EXCEEDED] | (show _ = _; rfl)

theorem execCandCfgWrite_writes {s : State} {x0 x1 x2 x3} {t} (h : execCandCfgWrite x0 x1 x2 x3 s = .next t) :
    Writes [Reg.perfWrapLo 0, Reg.perfWrapHi 0, Reg.candStatus 0, Reg.redundCnt 0] s t := by
  unfold execCandCfgWrite at h; injection h with h; subst h; repeat' first
      | with_reducible exact Writes.refl | with_reducible apply Writes.step State.candWrite_writes | (show _ = _; rfl)

theorem execHoldoverLearn_writes {s : State} {x0} {t} (h : execHoldoverLearn x0 s = .next t) :
    Writes [Reg.hostifCnt 0, Reg.ringStatus 0, Reg.ringDevIdx 0, Reg.msixPba 0, Reg.perfWrapLo 0, Reg.perfWrapHi 0] s t := by
  unfold execHoldoverLearn at h; injection h with h; subst h; repeat' first
      | intro _ | with_reducible assumption | with_reducible exact Writes.refl | with_reducible apply State.start_writes
      | with_reducible apply State.startLong_writes | (show _ = _; rfl)

theorem execSynUpd_writes {s : State} {x0 x1 x2} {t} (h : execSynUpd x0 x1 x2 s = .next t) :
    Writes [Reg.ringStatus 0, Reg.ringDevIdx 0, Reg.ringLoss 0, Reg.msixPba 0, Reg.perfWrapLo 0, Reg.perfWrapHi 0, Reg.synCfg 0, Reg.synStatus 0,
    Reg.redundCnt 0] s t := by
  unfold execSynUpd at h; injection h with h; subst h; repeat' first
      | with_reducible exact Writes.refl | with_reducible apply Writes.step State.synCfgWrite_writes | (show _ = _; rfl)

theorem execDpllHistReset_writes {s : State} {x0} {t} (h : execDpllHistReset x0 s = .next t) :
    Writes [Reg.hostifCnt 0, Reg.ringStatus 0, Reg.ringDevIdx 0, Reg.msixPba 0, Reg.perfWrapLo 0, Reg.perfWrapHi 0, Reg.dpllStatus 0,
    Reg.dpllHistIncrLo 0, Reg.dpllHistIncrHi 0] s t := by
  unfold execDpllHistReset at h; injection h with h; subst h; repeat' first
      | intro _ | (extract_lets +onlyGivenNames v; apply Writes.gen (v := v); subst v; rotate_left; clear_value v; intro h; rotate_right)
      | with_reducible assumption | with_reducible exact Writes.refl | with_reducible apply Writes.setReg
      | with_reducible apply State.start_writes | with_reducible apply Writes.setF | with_reducible apply Writes.step State.complete_writes
      | with_reducible apply Writes.kept State.modDpll_kept | with_reducible apply Reg.dpllHistIncrHi_at
      | with_reducible apply Reg.dpllHistIncrLo_at | with_reducible apply Reg.dpllStatus_at | dsimp only [F.dpllStatus_HIST_VALID]
      | (show _ = _; rfl) | split

theorem execRefForce_writes {s : State} {x0} {t} (h : execRefForce x0 s = .next t) :
    Writes [Reg.hostifCnt 0, Reg.ringStatus 0, Reg.ringDevIdx 0, Reg.msixPba 0, Reg.perfWrapLo 0, Reg.perfWrapHi 0] s t := by
  unfold execRefForce at h; injection h with h; subst h; repeat' first
      | intro _ | with_reducible assumption | with_reducible exact Writes.refl | with_reducible apply State.start_writes
      | with_reducible apply Writes.step State.complete_writes | with_reducible apply Writes.kept State.park_kept | (show _ = _; rfl) | split

end Sys2Proof.Machine
end

