-- ==== Sys2Proof/Laws/WritesSec.lean ====
section
/-!
SUPPORT. Sys2Proof/Laws/WritesSec.lean: which registers each operation of Machine/Sec.lean may change.
-/
namespace Sys2Proof.Machine
open Sys2Proof

theorem State.tamperCfgWrite_writes {s : State} {x1 x2} : Writes [Reg.secStatus, Reg.secTamperCfg 0] s (State.tamperCfgWrite s x1 x2) := by
  unfold State.tamperCfgWrite; repeat' first
      | with_reducible exact Writes.refl | with_reducible apply Writes.setF | with_reducible apply Writes.putRw
      | with_reducible apply Reg.secStatus_at | with_reducible apply Reg.secTamperCfg_at | dsimp only [F.secStatus_CFG_ERR] | (show _ = _; rfl)
      | split

theorem State.tamperLockWrite_writes {s : State} {x1} : Writes [Reg.secTamperLock] s (State.tamperLockWrite s x1) := by
  unfold State.tamperLockWrite; repeat' first
      | with_reducible exact Writes.refl | with_reducible apply Writes.ite | with_reducible apply Writes.setF
      | with_reducible apply Reg.secTamperLock_at | dsimp only [F.secTamperLock_LOCK] | (show _ = _; rfl)

theorem State.stageEmpty_writes {s : State} : Writes [Reg.updStatus, Reg.updCompStaged 0] s (State.stageEmpty s) := by
  unfold State.stageEmpty; repeat' first
      | intro _ | (extract_lets +onlyGivenNames v; apply Writes.gen (v := v); subst v; rotate_left; clear_value v; intro h; rotate_right)
      | with_reducible assumption | with_reducible exact Writes.refl | with_reducible apply Writes.setReg | with_reducible apply Writes.setF
      | with_reducible apply Writes.kept State.modSecKeys_kept | with_reducible apply State.each_writes
      | with_reducible apply Reg.updCompStaged_at | with_reducible apply Reg.updStatus_at | dsimp only [F.updStatus_STAGE_VALID] | (show _ = _; rfl)

theorem State.stageDone_writes {s : State} {x1} : Writes [Reg.updStatus, Reg.updCompStaged 0] s (State.stageDone s x1) := by
  unfold State.stageDone; repeat' first
      | intro _ | (extract_lets +onlyGivenNames v; apply Writes.gen (v := v); subst v; rotate_left; clear_value v; intro h; rotate_right)
      | with_reducible assumption | with_reducible exact Writes.refl | with_reducible apply Writes.setReg | with_reducible apply Writes.setF
      | with_reducible apply Writes.kept State.modSecKeys_kept | with_reducible apply State.each_writes
      | with_reducible apply Reg.updCompStaged_at | with_reducible apply Reg.updStatus_at | dsimp only [F.updStatus_STAGE_VALID] | (show _ = _; rfl)

theorem State.fuseRun_writes {s : State} {x1 x2 x3} : Writes [Reg.updKeys] s (State.fuseRun s x1 x2 x3).1 := by
  unfold State.fuseRun; repeat' first
      | with_reducible exact Writes.refl | with_reducible apply Writes.setF | with_reducible apply Writes.kept State.modSecKeys_kept
      | with_reducible apply Reg.updKeys_at | dsimp only [F.updKeys_CUST_PROG, F.updKeys_CUST_REVOKED] | (show _ = _; rfl) | split

theorem State.runImage_writes {s : State} {x1} : Writes [Reg.updCompRun 0] s (State.runImage s x1) := by
  unfold State.runImage; repeat' first
      | with_reducible exact Writes.refl | with_reducible apply Writes.setReg | with_reducible apply Writes.kept State.modSecKeys_kept
      | with_reducible apply Reg.updCompRun_at | (show _ = _; rfl)

theorem State.showVsec_writes {s : State} : Writes [Reg.secVsec] s (State.showVsec s) := by
  unfold State.showVsec; repeat' first
      | with_reducible exact Writes.refl | with_reducible apply Writes.setReg | with_reducible apply Reg.secVsec_at | (show _ = _; rfl)

theorem State.migrate_writes {s : State} :
    Writes [Reg.ringStatus 0, Reg.ringDevIdx 0, Reg.ringLoss 0, Reg.msixPba 0, Reg.perfWrapLo 0, Reg.perfWrapHi 0,
    Reg.updStatus] s (State.migrate s) := by
  unfold State.migrate; repeat' first
      | with_reducible exact Writes.refl | with_reducible apply Writes.setF | with_reducible apply Writes.kept State.modSecKeys_kept
      | with_reducible apply Writes.step State.raise_writes | with_reducible apply Reg.updStatus_at | dsimp only [F.updStatus_MIG_PENDING]
      | (show _ = _; rfl) | split

theorem State.commitRun_writes {s : State} {x1} :
    Writes [Reg.updSvn 0, Reg.updKeys, Reg.updStatus, Reg.updCompStaged 0] s (State.commitRun s x1).1 := by
  unfold State.commitRun; repeat' first
      | intro _ | (extract_lets +onlyGivenNames v; apply Writes.gen (v := v); subst v; rotate_left; clear_value v; intro h; rotate_right)
      | with_reducible assumption | with_reducible exact Writes.refl | with_reducible apply Writes.setF
      | with_reducible apply Writes.kept State.modSecKeys_kept | with_reducible apply Writes.step State.stageEmpty_writes
      | with_reducible apply State.each_writes | with_reducible apply Reg.updKeys_at | with_reducible apply Reg.updStatus_at
      | with_reducible apply Reg.updSvn_at | dsimp only [F.updKeys_REVOKED, F.updStatus_INSTALLED, F.updStatus_SLOT, F.updSvn_COUNT]
      | (show _ = _; rfl) | split

theorem State.discardRun_writes {s : State} : Writes [Reg.updStatus, Reg.updCompStaged 0] s (State.discardRun s).1 := by
  unfold State.discardRun; repeat' first
      | with_reducible exact Writes.refl | with_reducible apply Writes.step State.stageEmpty_writes | (show _ = _; rfl) | split

theorem State.fuseCmd_writes {s : State} {x1 x2} :
    Writes [Reg.updSvn 0, Reg.updKeys, Reg.updStatus, Reg.updCompStaged 0] s (State.fuseCmd s x1 x2).1 := by
  unfold State.fuseCmd; repeat' first
      | with_reducible exact Writes.refl | with_reducible apply Writes.step State.fuseRun_writes
      | with_reducible apply Writes.step State.commitRun_writes | with_reducible apply Writes.step State.discardRun_writes | (show _ = _; rfl)
      | split

theorem State.fuseResume_writes {s : State} :
    Writes [Reg.hostifCnt 0, Reg.ringStatus 0, Reg.ringDevIdx 0, Reg.msixPba 0, Reg.perfWrapLo 0, Reg.perfWrapHi 0, Reg.updSvn 0, Reg.updKeys,
    Reg.updStatus, Reg.updCompStaged 0] s (State.fuseResume s) := by
  unfold State.fuseResume; repeat' first
      | intro _ | (extract_lets +onlyGivenNames v; apply Writes.gen (v := v.1); subst v; rotate_left; clear_value v; intro h; rotate_right)
      | with_reducible assumption | with_reducible exact Writes.refl | with_reducible apply State.each_writes
      | with_reducible apply Writes.step State.finish_writes | with_reducible apply Writes.step State.fuseCmd_writes | (show _ = _; rfl)

theorem State.markInstalled_writes {s : State} {x1} : Writes [Reg.updStatus] s (State.markInstalled s x1) := by
  unfold State.markInstalled; repeat' first
      | with_reducible exact Writes.refl | with_reducible apply Writes.setF | with_reducible apply Reg.updStatus_at
      | dsimp only [F.updStatus_INSTALLED] | (show _ = _; rfl)

theorem State.tamperEvent_writes {s : State} {x1} :
    Writes [Reg.ringStatus 0, Reg.ringDevIdx 0, Reg.ringLoss 0, Reg.msixPba 0, Reg.perfWrapLo 0, Reg.perfWrapHi 0] s (State.tamperEvent s x1) := by
  unfold State.tamperEvent; repeat' first
      | with_reducible exact Writes.refl | with_reducible apply Writes.step State.raise_writes | (show _ = _; rfl)

theorem State.eraseKeys_writes {s : State} : Writes [Reg.secStatus] s (State.eraseKeys s) := by
  unfold State.eraseKeys; repeat' first
      | with_reducible exact Writes.refl | with_reducible apply Writes.setF | with_reducible apply Writes.kept State.modSecKeys_kept
      | with_reducible apply Reg.secStatus_at | dsimp only [F.secStatus_ERASED] | (show _ = _; rfl)

theorem State.vaultTime_writes {s : State} : Writes [Reg.secVsec] s (State.vaultTime s) := by
  unfold State.vaultTime; repeat' first
      | with_reducible exact Writes.refl | with_reducible apply Writes.kept State.fresh_kept
      | with_reducible apply Writes.kept State.modSecKeys_kept | with_reducible apply Writes.step State.showVsec_writes | (show _ = _; rfl) | split

theorem State.tamper_writes {s : State} {x1 x2} :
    Writes [Reg.ringStatus 0, Reg.ringDevIdx 0, Reg.ringLoss 0, Reg.msixPba 0, Reg.perfWrapLo 0, Reg.perfWrapHi 0, Reg.secStatus,
    Reg.secVsec] s (State.tamper s x1 x2) := by
  unfold State.tamper; repeat' first
      | (extract_lets +onlyGivenNames v; apply Writes.gen (v := v); subst v; rotate_left; clear_value v; intro h; rotate_right)
      | with_reducible assumption | with_reducible exact Writes.refl | with_reducible apply Writes.setF
      | with_reducible apply Writes.kept State.modSecKeys_kept | with_reducible apply Writes.step State.vaultTime_writes
      | with_reducible apply Writes.step State.tamperEvent_writes | with_reducible apply Writes.step State.eraseKeys_writes
      | with_reducible apply Reg.secStatus_at | dsimp only [F.secStatus_LATCHED] | (show _ = _; rfl) | split

end Sys2Proof.Machine
end

