-- ==== Sys2Proof/Laws/WritesPower.lean ====
section
/-!
SUPPORT. Sys2Proof/Laws/WritesPower.lean: which registers each operation of Machine/Power.lean may change.
-/
namespace Sys2Proof.Machine
open Sys2Proof

theorem State.showDip_writes {s : State} : Writes [Reg.globalDipStatus] s (State.showDip s) := by
  unfold State.showDip; repeat' first
      | with_reducible exact Writes.refl | with_reducible apply Writes.setF | with_reducible apply Reg.globalDipStatus_at
      | dsimp only [F.globalDipStatus_ACTIVE, F.globalDipStatus_RAILS] | (show _ = _; rfl) | split

theorem State.resetCtrlWrite_writes {s : State} {x1} : Writes [Reg.globalResetCtrl] s (State.resetCtrlWrite s x1) := by
  unfold State.resetCtrlWrite; repeat' first
      | with_reducible exact Writes.refl | with_reducible apply Writes.ite | with_reducible apply Writes.setF
      | with_reducible apply Writes.kept State.modPower_kept | with_reducible apply Reg.globalResetCtrl_at
      | dsimp only [F.globalResetCtrl_CHIP] | (show _ = _; rfl)

theorem State.wdtCtrlWrite_writes {s : State} {x1} : Writes [Reg.globalWdtCtrl] s (State.wdtCtrlWrite s x1) := by
  unfold State.wdtCtrlWrite; repeat' first
      | (extract_lets +onlyGivenNames v; apply Writes.gen (v := v); subst v; rotate_left; clear_value v; intro h; rotate_right)
      | with_reducible assumption | with_reducible exact Writes.refl | with_reducible apply Writes.putW1c | with_reducible apply Writes.setF
      | with_reducible apply Writes.putRw | with_reducible apply Writes.kept State.modPower_kept | with_reducible apply Reg.globalWdtCtrl_at
      | dsimp only [F.globalWdtCtrl_CFG_ERR] | (show _ = _; rfl) | split

theorem State.dipBegin_writes {s : State} {x1} :
    Writes [Reg.globalDipStatus, Reg.ringStatus 0, Reg.ringDevIdx 0, Reg.ringLoss 0, Reg.msixPba 0, Reg.perfWrapLo 0, Reg.perfWrapHi 0,
    Reg.laneCalStatus 0, Reg.iucalState 0] s (State.dipBegin s x1) := by
  unfold State.dipBegin; repeat' first
      | (extract_lets +onlyGivenNames v; apply Writes.gen (v := v); subst v; rotate_left; clear_value v; intro h; rotate_right)
      | with_reducible assumption | with_reducible exact Writes.refl | with_reducible apply Writes.bump
      | with_reducible apply Writes.kept State.fmDip_kept | with_reducible apply Writes.step State.calDip_writes
      | with_reducible apply Writes.step State.raise_writes | with_reducible apply Writes.kept State.dogMark_kept
      | with_reducible apply Writes.step State.showDip_writes | with_reducible apply Writes.kept State.modPower_kept
      | with_reducible apply Writes.kept State.dipInts_kept | with_reducible apply Reg.globalDipStatus_at
      | dsimp only [F.globalDipStatus_COUNT] | (show _ = _; rfl) | split

theorem State.showCause_writes {s : State} {x1} : Writes [Reg.globalResetCause] s (State.showCause s x1) := by
  unfold State.showCause; repeat' first
      | with_reducible exact Writes.refl | with_reducible apply Writes.setF | with_reducible apply Reg.globalResetCause_at
      | dsimp only [F.globalResetCause_LAST] | (show _ = _; rfl)

theorem State.dipEnd_writes {s : State} {x1 x2} :
    Writes [Reg.globalDipStatus, Reg.hostifCnt 0, Reg.ringStatus 0, Reg.ringDevIdx 0, Reg.ringLoss 0, Reg.msixPba 0, Reg.perfWrapLo 0,
    Reg.perfWrapHi 0, Reg.updSvn 0, Reg.updKeys, Reg.updStatus, Reg.updCompStaged 0] s (State.dipEnd s x1 x2) := by
  unfold State.dipEnd; repeat' first
      | (extract_lets +onlyGivenNames v; apply Writes.gen (v := v); subst v; rotate_left; clear_value v; intro h; rotate_right)
      | with_reducible assumption | with_reducible exact Writes.refl | with_reducible apply Writes.step State.raise_writes
      | with_reducible apply Writes.kept State.dogMark_kept | with_reducible apply Writes.step State.showDip_writes
      | with_reducible apply Writes.step State.fuseResume_writes | with_reducible apply Writes.kept State.modPower_kept
      | with_reducible apply Writes.kept State.dipInts_kept | (show _ = _; rfl) | split | with_reducible apply Writes.put_servo

end Sys2Proof.Machine
end

