-- ==== Sys2Proof/Laws/WritesProfGen.lean ====
section
/-!
SUPPORT. Sys2Proof/Laws/WritesProfGen.lean: which registers each operation of Machine/ProfGen.lean may change.
-/
namespace Sys2Proof.Machine
open Sys2Proof

theorem State.genRec_writes {s : State} {x1 x2} :
    Writes [Reg.pipeMoveEpoch 0, Reg.pipeMacUsed 0, Reg.pipeLpmUsed 0] s (State.genRec s x1 x2).1 := by
  unfold State.genRec; repeat' first
      | (extract_lets +onlyGivenNames v; apply Writes.gen (v := v.1); subst v; rotate_left; clear_value v; intro h; rotate_right)
      | with_reducible assumption | with_reducible exact Writes.refl | with_reducible apply Writes.step State.twinWrite_writes
      | (show _ = _; rfl) | split

theorem State.genWrite_writes {s : State} {x1 x2} :
    Writes [Reg.pipeMoveEpoch 0, Reg.pipeMacUsed 0, Reg.pipeLpmUsed 0] s (State.genWrite s x1 x2).1 := by
  unfold State.genWrite; repeat' first
      | intro _ | (extract_lets +onlyGivenNames v; apply Writes.gen (v := v); subst v; rotate_left; clear_value v; intro h; rotate_right)
      | (extract_lets +onlyGivenNames v; apply Writes.gen (v := v.1); subst v; rotate_left; clear_value v; intro h; rotate_right)
      | with_reducible assumption | with_reducible exact Writes.refl | with_reducible apply Writes.foldlFst
      | with_reducible apply Writes.kept State.genPat_kept | with_reducible apply Writes.kept State.modPipe_kept
      | with_reducible apply Writes.step State.showMac_writes | with_reducible apply Writes.step State.showLpm_writes
      | with_reducible apply Writes.step State.genRec_writes | with_reducible apply Writes.kept State.genTcam_kept | (show _ = _; rfl)

theorem State.genBoot_writes {s : State} {x1 x2} :
    Writes [Reg.pipeProgVer 0, Reg.pipeWinStatus 0, Reg.pipeMoveEpoch 0, Reg.pipeMacUsed 0, Reg.pipeLpmUsed 0,
    Reg.pipeTwinStatus 0] s (State.genBoot s x1 x2) := by
  unfold State.genBoot; repeat' first
      | (extract_lets +onlyGivenNames v; apply Writes.gen (v := v); subst v; rotate_left; clear_value v; intro h; rotate_right)
      | with_reducible assumption | with_reducible exact Writes.refl | with_reducible apply Writes.kept State.modPipe_kept
      | with_reducible apply Writes.step State.showGen_writes | with_reducible apply Writes.kept State.modParser_kept
      | with_reducible apply Writes.step State.genWrite_writes | with_reducible apply Writes.step State.showLpm_writes | (show _ = _; rfl) | split

theorem State.genStep_writes {s : State} {x1 x2} :
    Writes [Reg.globalLateFlags, Reg.globalLateCnt 0, Reg.ringStatus 0, Reg.ringDevIdx 0, Reg.ringLoss 0, Reg.msixPba 0, Reg.perfWrapLo 0,
    Reg.perfWrapHi 0, Reg.pipeGenStatus 0, Reg.pipeGenDrain 0, Reg.pipeProgVer 0, Reg.pipeWinStatus 0, Reg.pipeMoveEpoch 0, Reg.pipeMacUsed 0,
    Reg.pipeLpmUsed 0, Reg.pipeTwinStatus 0] s (State.genStep s x1 x2).1 := by
  unfold State.genStep; repeat' first
      | with_reducible exact Writes.refl | with_reducible apply Writes.kept State.countParse_kept
      | with_reducible apply Writes.step State.commitPipe_writes | with_reducible apply Writes.step State.late_writes
      | with_reducible apply Writes.step State.genWrite_writes | (show _ = _; rfl) | split

theorem State.genBoundary_writes {s : State} {x1} :
    Writes [Reg.globalLateFlags, Reg.globalLateCnt 0, Reg.ringStatus 0, Reg.ringDevIdx 0, Reg.ringLoss 0, Reg.msixPba 0, Reg.perfWrapLo 0,
    Reg.perfWrapHi 0, Reg.pipeGenStatus 0, Reg.pipeGenDrain 0, Reg.pipeProgVer 0, Reg.pipeWinStatus 0, Reg.pipeMoveEpoch 0, Reg.pipeMacUsed 0,
    Reg.pipeLpmUsed 0, Reg.pipeTwinStatus 0] s (State.genBoundary s x1) := by
  unfold State.genBoundary; repeat' first
      | intro _ | (extract_lets +onlyGivenNames v; apply Writes.gen (v := v.1); subst v; rotate_left; clear_value v; intro h; rotate_right)
      | with_reducible assumption | with_reducible exact Writes.refl | with_reducible apply Writes.foldlFst
      | with_reducible apply Writes.step State.genStep_writes | with_reducible apply Writes.kept State.modPower_kept | (show _ = _; rfl)

end Sys2Proof.Machine
end

