-- ==== Sys2Proof/Laws/WritesPowerRows.lean ====
section
/-!
SUPPORT. Sys2Proof/Laws/WritesPowerRows.lean: which registers each operation of Machine/PowerRows.lean may change.
-/
namespace Sys2Proof.Machine
open Sys2Proof

theorem execOscLoss_writes {s : State} {t} (h : execOscLoss s = .next t) : Writes [Reg.globalSeq] s t := by
  unfold execOscLoss at h; injection h with h; subst h; repeat' first
      | with_reducible exact Writes.refl | with_reducible apply Writes.setF | with_reducible apply Writes.kept State.modPower_kept
      | with_reducible apply Reg.globalSeq_at | dsimp only [F.globalSeq_OSC_LOST] | (show _ = _; rfl) | split

theorem execResetCtrlChip_writes {s : State} {x0 x1} {t} (h : execResetCtrlChip x0 x1 s = .next t) : Writes [Reg.globalResetCtrl] s t := by
  unfold execResetCtrlChip at h; injection h with h; subst h; repeat' first
      | with_reducible exact Writes.refl | with_reducible apply Writes.step State.resetCtrlWrite_writes | (show _ = _; rfl) | split

theorem execDipLong_writes {s : State} {x0} {t} (h : execDipLong x0 s = .next t) :
    Writes [Reg.ringStatus 0, Reg.ringDevIdx 0, Reg.ringLoss 0, Reg.msixPba 0, Reg.perfWrapLo 0, Reg.perfWrapHi 0] s t := by
  unfold execDipLong at h; injection h with h; subst h; repeat' first
      | (extract_lets +onlyGivenNames v; apply Writes.gen (v := v); subst v; rotate_left; clear_value v; intro h; rotate_right)
      | (extract_lets +onlyGivenNames v; clear_value v) | with_reducible assumption | with_reducible exact Writes.refl
      | with_reducible apply Writes.step State.raise_writes | with_reducible apply Writes.kept State.modPower_kept | (show _ = _; rfl) | split

theorem execWdtCtrlWrite_writes {s : State} {x0 x1} {t} (h : execWdtCtrlWrite x0 x1 s = .next t) : Writes [Reg.globalWdtCtrl] s t := by
  unfold execWdtCtrlWrite at h; injection h with h; subst h; repeat' first
      | with_reducible exact Writes.refl | with_reducible apply Writes.step State.wdtCtrlWrite_writes | (show _ = _; rfl) | split

theorem execSeqOrderViolation_writes {s : State} {x0 t} (h : execSeqOrderViolation x0 s = .next t) : Writes [Reg.globalSeq] s t := by
  unfold execSeqOrderViolation at h; split at h
  · injection h with h; subst h; repeat' first
      | (extract_lets +onlyGivenNames v; apply Writes.gen (v := v); subst v; rotate_left; clear_value v; intro h; rotate_right)
      | with_reducible assumption | with_reducible exact Writes.refl | with_reducible apply Writes.ite | with_reducible apply Writes.setF
      | with_reducible apply Reg.globalSeq_at | dsimp only [F.globalSeq_EARLY_STEP, F.globalSeq_ORDER] | (show _ = _; rfl) | split
  · cases h

theorem execTickPllLock_writes {s : State} {t} (h : execTickPllLock s = .next t) : Writes [Reg.globalBeat, Reg.tbIncrLo 0, Reg.tbIncrHi 0] s t := by
  unfold execTickPllLock at h; injection h with h; subst h; repeat' first
      | with_reducible exact Writes.refl | with_reducible apply Writes.kept State.planBeat_kept
      | with_reducible apply Writes.step State.showBeat_writes | with_reducible apply Writes.step State.showIncr_writes
      | with_reducible apply Writes.kept State.modPower_kept | (show _ = _; rfl) | split | with_reducible apply Writes.put_time

theorem execPowerupTimeout_writes {s : State} {x0 t} (h : execPowerupTimeout x0 s = .next t) : Writes [Reg.globalSeq] s t := by
  unfold execPowerupTimeout at h; split at h
  · injection h with h; subst h; repeat' first
      | (extract_lets +onlyGivenNames v; apply Writes.gen (v := v); subst v; rotate_left; clear_value v; intro h; rotate_right)
      | with_reducible assumption | with_reducible exact Writes.refl | with_reducible apply Writes.ite | with_reducible apply Writes.setF
      | with_reducible apply Writes.kept State.modPower_kept | with_reducible apply Reg.globalSeq_at
      | dsimp only [F.globalSeq_ATTEMPTS, F.globalSeq_GIVEN_UP, F.globalSeq_STUCK_STEP, F.globalSeq_TIMEOUT] | (show _ = _; rfl) | split
  · cases h

theorem execDipEnter_writes {s : State} {x0} {t} (h : execDipEnter x0 s = .next t) :
    Writes [Reg.globalDipStatus, Reg.ringStatus 0, Reg.ringDevIdx 0, Reg.ringLoss 0, Reg.msixPba 0, Reg.perfWrapLo 0, Reg.perfWrapHi 0,
    Reg.laneCalStatus 0, Reg.iucalState 0] s t := by
  unfold execDipEnter at h; injection h with h; subst h; repeat' first
      | with_reducible exact Writes.refl | with_reducible apply Writes.step State.dipBegin_writes | (show _ = _; rfl) | split

theorem execChipReset_writes {s : State} {x0} {t} (h : execChipReset x0 s = .next t) :
    Writes [Reg.hostifCnt 0, Reg.ringStatus 0, Reg.ringDevIdx 0, Reg.msixPba 0, Reg.perfWrapLo 0, Reg.perfWrapHi 0] s t := by
  unfold execChipReset at h; injection h with h; subst h; repeat' first
      | intro _ | with_reducible assumption | with_reducible exact Writes.refl | with_reducible apply State.start_writes
      | with_reducible apply Writes.step State.complete_writes | with_reducible apply Writes.kept State.modPower_kept | (show _ = _; rfl)

theorem execDipExit_writes {s : State} {x0} {t} (h : execDipExit x0 s = .next t) :
    Writes [Reg.globalDipStatus, Reg.hostifCnt 0, Reg.ringStatus 0, Reg.ringDevIdx 0, Reg.ringLoss 0, Reg.msixPba 0, Reg.perfWrapLo 0,
    Reg.perfWrapHi 0, Reg.updSvn 0, Reg.updKeys, Reg.updStatus, Reg.updCompStaged 0] s t := by
  unfold execDipExit at h; injection h with h; subst h; repeat' first
      | (extract_lets +onlyGivenNames v; clear_value v) | with_reducible exact Writes.refl
      | with_reducible apply Writes.step State.dipEnd_writes | (show _ = _; rfl) | split

theorem execWdtWarn_writes {s : State} {t} (h : execWdtWarn s = .next t) :
    Writes [Reg.ringStatus 0, Reg.ringDevIdx 0, Reg.ringLoss 0, Reg.msixPba 0, Reg.perfWrapLo 0, Reg.perfWrapHi 0] s t := by
  unfold execWdtWarn at h; injection h with h; subst h; repeat' first
      | with_reducible exact Writes.refl | with_reducible apply Writes.step State.raise_writes | (show _ = _; rfl) | split

theorem execResetNLong_writes {s : State} {x0} {t} (h : execResetNLong x0 s = .next t) : Writes [Reg.globalSeq] s t := by
  unfold execResetNLong at h; injection h with h; subst h; repeat' first
      | (extract_lets +onlyGivenNames v; apply Writes.gen (v := v); subst v; rotate_left; clear_value v; intro h; rotate_right)
      | with_reducible assumption | with_reducible exact Writes.refl | with_reducible apply Writes.setF
      | with_reducible apply Writes.kept State.modPower_kept | with_reducible apply Writes.kept State.powerUp_kept
      | with_reducible apply Reg.globalSeq_at | dsimp only [F.globalSeq_ATTEMPTS, F.globalSeq_GIVEN_UP] | (show _ = _; rfl) | split

end Sys2Proof.Machine
end

