-- ==== Sys2Proof/Laws/WritesSecRows.lean ====
section
/-!
SUPPORT. Sys2Proof/Laws/WritesSecRows.lean: which registers each operation of Machine/SecRows.lean may change.
-/
namespace Sys2Proof.Machine
open Sys2Proof

theorem State.installBegin_writes {s : State} {x1} :
    Writes [Reg.ringStatus 0, Reg.ringDevIdx 0, Reg.ringLoss 0, Reg.msixPba 0, Reg.coreStatus 0, Reg.perfWrapLo 0, Reg.perfWrapHi 0,
    Reg.laneStatus 0, Reg.laneCalStatus 0, Reg.laneGrp 0, Reg.portPauseStatus 0, Reg.fabricStatus, Reg.fabricPort 0, Reg.eqDepth 0,
    Reg.eqOndie 0, Reg.eqHwm 0, Reg.iaDepth 0, Reg.deepFree, Reg.iuEdges 0, Reg.iucalState 0, Reg.redundStatus] s (State.installBegin s x1) := by
  unfold State.installBegin; repeat' first
      | with_reducible exact Writes.refl | with_reducible apply Writes.step State.ucodeBegin_writes
      | with_reducible apply Writes.step State.setCoreState_writes | with_reducible apply Writes.kept State.awake_kept
      | with_reducible apply Writes.step State.setPair_writes | (show _ = _; rfl) | split

theorem execVbatCheck_writes {s : State} {x0} {t} (h : execVbatCheck x0 s = .next t) :
    Writes [Reg.ringStatus 0, Reg.ringDevIdx 0, Reg.ringLoss 0, Reg.msixPba 0, Reg.perfWrapLo 0, Reg.perfWrapHi 0, Reg.secStatus,
    Reg.secVsec] s t := by
  unfold execVbatCheck at h; injection h with h; subst h; repeat' first
      | (extract_lets +onlyGivenNames v; apply Writes.gen (v := v); subst v; rotate_left; clear_value v; intro h; rotate_right)
      | with_reducible assumption | with_reducible exact Writes.refl | with_reducible apply Writes.ite | with_reducible apply Writes.setF
      | with_reducible apply Writes.kept State.modSecKeys_kept | with_reducible apply Writes.step State.showVsec_writes
      | with_reducible apply Writes.step State.raise_writes | with_reducible apply Reg.secStatus_at | dsimp only [F.secStatus_VBAT_LOW]
      | (show _ = _; rfl)

theorem execTamperCfgWrite_writes {s : State} {x0 x1 x2} {t} (h : execTamperCfgWrite x0 x1 x2 s = .next t) :
    Writes [Reg.secStatus, Reg.secTamperCfg 0, Reg.secTamperLock] s t := by
  unfold execTamperCfgWrite at h; injection h with h; subst h; repeat' first
      | with_reducible exact Writes.refl | with_reducible apply Writes.step State.tamperLockWrite_writes
      | with_reducible apply Writes.step State.tamperCfgWrite_writes | (show _ = _; rfl) | split

theorem execUpdInstall_writes {s : State} {x0} {t} (h : execUpdInstall x0 s = .next t) :
    Writes [Reg.hostifCnt 0, Reg.ringStatus 0, Reg.ringDevIdx 0, Reg.ringLoss 0, Reg.msixPba 0, Reg.coreStatus 0, Reg.perfWrapLo 0,
    Reg.perfWrapHi 0, Reg.updStatus, Reg.laneStatus 0, Reg.laneCalStatus 0, Reg.laneGrp 0, Reg.portPauseStatus 0, Reg.fabricStatus,
    Reg.fabricPort 0, Reg.eqDepth 0, Reg.eqOndie 0, Reg.eqHwm 0, Reg.iaDepth 0, Reg.deepFree, Reg.iuEdges 0, Reg.iucalState 0,
    Reg.redundStatus] s t := by
  unfold execUpdInstall at h; injection h with h; subst h; repeat' first
      | intro _ | with_reducible assumption | with_reducible exact Writes.refl | with_reducible apply Writes.step State.markInstalled_writes
      | with_reducible apply State.start_writes | with_reducible apply Writes.kept State.modSecKeys_kept
      | with_reducible apply Writes.step State.complete_writes | with_reducible apply State.startLong_writes
      | with_reducible apply Writes.step State.installBegin_writes | (show _ = _; rfl) | split

theorem execKeyHmac_writes {s : State} {x0 x1} {t} (h : execKeyHmac x0 x1 s = .next t) :
    Writes [Reg.hostifCnt 0, Reg.ringStatus 0, Reg.ringDevIdx 0, Reg.msixPba 0, Reg.perfWrapLo 0, Reg.perfWrapHi 0] s t := by
  unfold execKeyHmac at h; injection h with h; subst h; repeat' first
      | intro _ | with_reducible assumption | with_reducible exact Writes.refl | with_reducible apply State.start_writes
      | with_reducible apply Writes.kept State.bufWrite_kept | with_reducible apply Writes.step State.complete_writes | (show _ = _; rfl) | split

theorem execFuseCust_writes {s : State} {x0} {t} (h : execFuseCust x0 s = .next t) :
    Writes [Reg.hostifCnt 0, Reg.ringStatus 0, Reg.ringDevIdx 0, Reg.msixPba 0, Reg.perfWrapLo 0, Reg.perfWrapHi 0, Reg.updSvn 0, Reg.updKeys,
    Reg.updStatus, Reg.updCompStaged 0] s t := by
  unfold execFuseCust at h; injection h with h; subst h; repeat' first
      | intro _ | (extract_lets +onlyGivenNames v; apply Writes.gen (v := v.1); subst v; rotate_left; clear_value v; intro h; rotate_right)
      | with_reducible assumption | with_reducible exact Writes.refl | with_reducible apply State.start_writes
      | with_reducible apply Writes.step State.complete_writes | with_reducible apply Writes.step State.fuseCmd_writes
      | with_reducible apply Writes.kept State.park_kept | (show _ = _; rfl) | split

theorem execTamperDetect_writes {s : State} {x0 x1} {t} (h : execTamperDetect x0 x1 s = .next t) :
    Writes [Reg.ringStatus 0, Reg.ringDevIdx 0, Reg.ringLoss 0, Reg.msixPba 0, Reg.perfWrapLo 0, Reg.perfWrapHi 0, Reg.secStatus,
    Reg.secVsec] s t := by
  unfold execTamperDetect at h; injection h with h; subst h; repeat' first
      | with_reducible exact Writes.refl | with_reducible apply Writes.step State.tamper_writes | (show _ = _; rfl) | split

theorem execUpdCommit_writes {s : State} {x0} {t} (h : execUpdCommit x0 s = .next t) :
    Writes [Reg.hostifCnt 0, Reg.ringStatus 0, Reg.ringDevIdx 0, Reg.msixPba 0, Reg.perfWrapLo 0, Reg.perfWrapHi 0, Reg.updSvn 0, Reg.updKeys,
    Reg.updStatus, Reg.updCompStaged 0] s t := by
  unfold execUpdCommit at h; injection h with h; subst h; repeat' first
      | intro _ | (extract_lets +onlyGivenNames v; apply Writes.gen (v := v.1); subst v; rotate_left; clear_value v; intro h; rotate_right)
      | with_reducible assumption | with_reducible exact Writes.refl | with_reducible apply State.start_writes
      | with_reducible apply Writes.step State.complete_writes | with_reducible apply Writes.step State.fuseCmd_writes
      | with_reducible apply Writes.kept State.park_kept | (show _ = _; rfl) | split

theorem execKeyWrite_writes {s : State} {x0} {t} (h : execKeyWrite x0 s = .next t) :
    Writes [Reg.hostifCnt 0, Reg.ringStatus 0, Reg.ringDevIdx 0, Reg.msixPba 0, Reg.perfWrapLo 0, Reg.perfWrapHi 0] s t := by
  unfold execKeyWrite at h; injection h with h; subst h; repeat' first
      | intro _ | with_reducible assumption | with_reducible exact Writes.refl | with_reducible apply State.start_writes
      | with_reducible apply Writes.kept State.modSecKeys_kept | with_reducible apply Writes.step State.complete_writes | (show _ = _; rfl) | split

theorem execUpdDiscard_writes {s : State} {x0} {t} (h : execUpdDiscard x0 s = .next t) :
    Writes [Reg.hostifCnt 0, Reg.ringStatus 0, Reg.ringDevIdx 0, Reg.msixPba 0, Reg.perfWrapLo 0, Reg.perfWrapHi 0, Reg.updSvn 0, Reg.updKeys,
    Reg.updStatus, Reg.updCompStaged 0] s t := by
  unfold execUpdDiscard at h; injection h with h; subst h; repeat' first
      | intro _ | (extract_lets +onlyGivenNames v; apply Writes.gen (v := v.1); subst v; rotate_left; clear_value v; intro h; rotate_right)
      | with_reducible assumption | with_reducible exact Writes.refl | with_reducible apply State.start_writes
      | with_reducible apply Writes.step State.complete_writes | with_reducible apply Writes.step State.fuseCmd_writes
      | with_reducible apply Writes.kept State.park_kept | (show _ = _; rfl) | split

theorem execUpdStage_writes {s : State} {x0 x1} {t} (h : execUpdStage x0 x1 s = .next t) :
    Writes [Reg.hostifCnt 0, Reg.ringStatus 0, Reg.ringDevIdx 0, Reg.msixPba 0, Reg.perfWrapLo 0, Reg.perfWrapHi 0, Reg.updStatus,
    Reg.updCompStaged 0] s t := by
  unfold execUpdStage at h; injection h with h; subst h; repeat' first
      | intro _ | (extract_lets +onlyGivenNames v; apply Writes.gen (v := v); subst v; rotate_left; clear_value v; intro h; rotate_right)
      | (extract_lets +onlyGivenNames v; clear_value v) | with_reducible assumption | with_reducible exact Writes.refl
      | with_reducible apply State.start_writes | with_reducible apply Writes.kept State.modSecKeys_kept
      | with_reducible apply Writes.step State.complete_writes | with_reducible apply Writes.step State.stageEmpty_writes
      | with_reducible apply State.startLong_writes | (show _ = _; rfl) | split

theorem execTamperClear_writes {s : State} {x0} {t} (h : execTamperClear x0 s = .next t) :
    Writes [Reg.hostifCnt 0, Reg.ringStatus 0, Reg.ringDevIdx 0, Reg.msixPba 0, Reg.perfWrapLo 0, Reg.perfWrapHi 0, Reg.secStatus] s t := by
  unfold execTamperClear at h; injection h with h; subst h; repeat' first
      | intro _ | (extract_lets +onlyGivenNames v; apply Writes.gen (v := v); subst v; rotate_left; clear_value v; intro h; rotate_right)
      | with_reducible assumption | with_reducible exact Writes.refl | with_reducible apply Writes.kept State.fresh_kept
      | with_reducible apply State.start_writes | with_reducible apply Writes.setF | with_reducible apply Writes.kept State.modSecKeys_kept
      | with_reducible apply Writes.step State.complete_writes | with_reducible apply Reg.secStatus_at | dsimp only [F.secStatus_LATCHED]
      | (show _ = _; rfl) | split

end Sys2Proof.Machine
end

