-- ==== Sys2Proof/Laws/WritesServoRows.lean ====
section
/-!
SUPPORT. Sys2Proof/Laws/WritesServoRows.lean: which registers each operation of Machine/ServoRows.lean may change.
-/
namespace Sys2Proof.Machine
open Sys2Proof

theorem State.slotWrite_writes {s : State} {x1 x2 x3 x4} :
    Writes [Reg.perfWrapLo 0, Reg.perfWrapHi 0, Reg.servoStatus, Reg.slotCfg 0, Reg.redundCnt 0] s (State.slotWrite s x1 x2 x3 x4) := by
  unfold State.slotWrite; repeat' first
      | intro _ | (extract_lets +onlyGivenNames v; apply Writes.gen (v := v); subst v; rotate_left; clear_value v; intro h; rotate_right)
      | (extract_lets +onlyGivenNames v; apply Writes.gen (v := v.1); subst v; rotate_left; clear_value v; intro h; rotate_right)
      | (extract_lets +onlyGivenNames v; have q : _ → State := v; clear q; subst v)
      | (extract_lets +onlyGivenNames v; have q : State → _ → State := v; clear q; subst v)
      | (extract_lets +onlyGivenNames v; have q : Nat := v; clear q; subst v)
      | (extract_lets +onlyGivenNames v; have q : Fld := v; clear q; subst v) | (extract_lets +onlyGivenNames v; clear_value v)
      | with_reducible assumption | with_reducible exact Writes.refl | with_reducible apply Writes.ite | with_reducible apply Writes.foldlFst
      | with_reducible apply Writes.setF | with_reducible apply State.byWriter_writes | with_reducible apply Writes.kept State.wait_kept
      | with_reducible apply Writes.kept State.took_kept | with_reducible apply Reg.servoStatus_at | with_reducible apply Reg.slotCfg_at
      | dsimp only [F.servoStatus_CFG_ERR, F.slotCfg_UPD] | (show _ = _; rfl) | (with_reducible apply Writes.fst (by assumption)) | split

theorem execSessionRead_writes {s : State} {x0} {t} (h : execSessionRead x0 s = .next t) :
    Writes [Reg.hostifCnt 0, Reg.ringStatus 0, Reg.ringDevIdx 0, Reg.msixPba 0, Reg.perfWrapLo 0, Reg.perfWrapHi 0] s t := by
  unfold execSessionRead at h; injection h with h; subst h; repeat' first
      | intro _ | (extract_lets +onlyGivenNames v; apply Writes.gen (v := v); subst v; rotate_left; clear_value v; intro h; rotate_right)
      | with_reducible assumption | with_reducible exact Writes.refl | with_reducible apply Writes.kept State.modSess_kept
      | with_reducible apply State.start_writes | with_reducible apply Writes.kept State.bufWrite_kept
      | with_reducible apply Writes.step State.complete_writes | with_reducible apply State.each_writes | (show _ = _; rfl)

theorem State.sessBoundary_writes {s : State} :
    Writes [Reg.hostifCnt 0, Reg.ringStatus 0, Reg.ringDevIdx 0, Reg.ringLoss 0, Reg.msixPba 0, Reg.perfWrapLo 0, Reg.perfWrapHi 0,
    Reg.slotStatus 0] s (State.sessBoundary s) := by
  unfold State.sessBoundary; repeat' first
      | intro _ | with_reducible assumption | with_reducible exact Writes.refl | with_reducible apply Writes.step State.sessApply_writes
      | with_reducible apply State.each_writes | with_reducible apply Writes.step State.finish_writes | (show _ = _; rfl) | split

theorem State.coefBoundary_writes {s : State} : Writes [Reg.slotCfg 0] s (State.coefBoundary s) := by
  unfold State.coefBoundary; repeat' first
      | intro _ | with_reducible assumption | with_reducible exact Writes.refl | with_reducible apply State.each_writes
      | with_reducible apply Writes.step State.slotCoefs_writes | (show _ = _; rfl) | split

theorem State.acceptStep_writes {s : State} {x1} :
    Writes [Reg.hostifCnt 0, Reg.ringStatus 0, Reg.ringDevIdx 0, Reg.ringLoss 0, Reg.msixPba 0, Reg.perfWrapLo 0, Reg.perfWrapHi 0,
    Reg.slotStatus 0] s (State.acceptStep s x1) := by
  unfold State.acceptStep; repeat' first
      | (extract_lets +onlyGivenNames v; apply Writes.gen (v := v); subst v; rotate_left; clear_value v; intro h; rotate_right)
      | with_reducible assumption | with_reducible exact Writes.refl | with_reducible apply Writes.setF
      | with_reducible apply Writes.kept State.addVal_kept | with_reducible apply Writes.kept State.modSlot_kept
      | with_reducible apply Writes.step State.finish_writes | with_reducible apply Writes.step State.goSlot_writes
      | with_reducible apply Reg.slotStatus_at | dsimp only [F.slotStatus_MAY_STEP] | (show _ = _; rfl) | split

theorem State.slotResults_writes {s : State} {x1} :
    Writes [Reg.hostifCnt 0, Reg.ringStatus 0, Reg.ringDevIdx 0, Reg.ringLoss 0, Reg.msixPba 0, Reg.perfWrapLo 0, Reg.perfWrapHi 0, Reg.tbClamp,
    Reg.tbIncrLo 0, Reg.tbIncrHi 0, Reg.slotOutlier 0, Reg.slotStatus 0, Reg.slotOfsLo 0, Reg.slotOfsHi 0] s (State.slotResults s x1) := by
  unfold State.slotResults; repeat' first
      | intro _ | (extract_lets +onlyGivenNames v; apply Writes.gen (v := v); subst v; rotate_left; clear_value v; intro h; rotate_right)
      | with_reducible assumption | with_reducible exact Writes.refl | with_reducible apply Writes.step State.slotUpdate_writes
      | with_reducible apply Writes.kept State.modSlot_kept | with_reducible apply Writes.step State.slotSwitch_writes
      | with_reducible apply State.each_writes | with_reducible apply Writes.step State.acceptStep_writes | (show _ = _; rfl) | split

theorem State.unitEnd_writes {s : State} {x1} :
    Writes [Reg.ringStatus 0, Reg.ringDevIdx 0, Reg.ringLoss 0, Reg.msixPba 0, Reg.perfWrapLo 0, Reg.perfWrapHi 0,
    Reg.slotStatus 0] s (State.unitEnd s x1) := by
  unfold State.unitEnd; repeat' first
      | (extract_lets +onlyGivenNames v; apply Writes.gen (v := v); subst v; rotate_left; clear_value v; intro h; rotate_right)
      | with_reducible assumption | with_reducible exact Writes.refl | with_reducible apply Writes.ite
      | with_reducible apply Writes.step State.goSess_writes | with_reducible apply Writes.kept State.modSess_kept | (show _ = _; rfl)

theorem execServoCompute_writes {s : State} {t} (h : execServoCompute s = .next t) :
    Writes [Reg.tbSnapCtrl, Reg.tbIncrLo 0, Reg.tbIncrHi 0, Reg.tbSnapFrac 0, Reg.tbSnapNs 0, Reg.tbSnapSecLo 0, Reg.tbSnapSecHi 0] s t := by
  unfold execServoCompute at h; injection h with h; subst h; repeat' first
      | with_reducible exact Writes.refl | with_reducible apply Writes.step State.toTick_writes
      | with_reducible apply Writes.kept State.computeSlots_kept | (show _ = _; rfl) | split

theorem execSlotUpd_writes {s : State} {x0 x1 x2} {t} (h : execSlotUpd x0 x1 x2 s = .next t) :
    Writes [Reg.perfWrapLo 0, Reg.perfWrapHi 0, Reg.servoStatus, Reg.slotCfg 0, Reg.redundCnt 0] s t := by
  unfold execSlotUpd at h; injection h with h; subst h; repeat' first
      | with_reducible exact Writes.refl | with_reducible apply Writes.step State.slotWrite_writes | (show _ = _; rfl)

theorem execKlWindowEnd_writes {s : State} {x0} {t} (h : execKlWindowEnd x0 s = .next t) :
    Writes [Reg.ringStatus 0, Reg.ringDevIdx 0, Reg.ringLoss 0, Reg.msixPba 0, Reg.perfWrapLo 0, Reg.perfWrapHi 0, Reg.linkCfg 0, Reg.linkRtF 0,
    Reg.linkAsymEffLo 0, Reg.linkAsymEffHi 0, Reg.slotStatus 0] s t := by
  unfold execKlWindowEnd at h; injection h with h; subst h; repeat' first
      | with_reducible exact Writes.refl | with_reducible apply Writes.step State.klWindow_writes | (show _ = _; rfl) | split

theorem execSlotInputTimeout_writes {s : State} {x0} {t} (h : execSlotInputTimeout x0 s = .next t) :
    Writes [Reg.ringStatus 0, Reg.ringDevIdx 0, Reg.ringLoss 0, Reg.msixPba 0, Reg.perfWrapLo 0, Reg.perfWrapHi 0, Reg.slotStatus 0] s t := by
  unfold execSlotInputTimeout at h; injection h with h; subst h; repeat' first
      | with_reducible exact Writes.refl | with_reducible apply Writes.step State.loseSlot_writes | (show _ = _; rfl) | split

theorem State.klUnitEnd_writes {s : State} {x1} :
    Writes [Reg.ringStatus 0, Reg.ringDevIdx 0, Reg.ringLoss 0, Reg.msixPba 0, Reg.perfWrapLo 0, Reg.perfWrapHi 0,
    Reg.slotStatus 0] s (State.klUnitEnd s x1) := by
  unfold State.klUnitEnd; repeat' first
      | with_reducible exact Writes.refl | with_reducible apply Writes.ite | with_reducible apply Writes.step State.unitEnd_writes
      | with_reducible apply Writes.kept State.modKl_kept | (show _ = _; rfl)

theorem execSessionUnitEnd_writes {s : State} {x0} {t} (h : execSessionUnitEnd x0 s = .next t) :
    Writes [Reg.ringStatus 0, Reg.ringDevIdx 0, Reg.ringLoss 0, Reg.msixPba 0, Reg.perfWrapLo 0, Reg.perfWrapHi 0, Reg.slotStatus 0] s t := by
  unfold execSessionUnitEnd at h; injection h with h; subst h; repeat' first
      | with_reducible exact Writes.refl | with_reducible apply Writes.kept State.modSess_kept
      | with_reducible apply Writes.step State.klUnitEnd_writes | with_reducible apply Writes.step State.unitEnd_writes | (show _ = _; rfl) | split

theorem execServoDeadline_writes {s : State} {t} (h : execServoDeadline s = .next t) :
    Writes [Reg.globalLateFlags, Reg.globalLateCnt 0, Reg.ringStatus 0, Reg.ringDevIdx 0, Reg.ringLoss 0, Reg.msixPba 0, Reg.perfWrapLo 0,
    Reg.perfWrapHi 0, Reg.tbSnapCtrl, Reg.tbIncrLo 0, Reg.tbIncrHi 0, Reg.tbSnapFrac 0, Reg.tbSnapNs 0, Reg.tbSnapSecLo 0, Reg.tbSnapSecHi 0,
    Reg.slotLate 0] s t := by
  unfold execServoDeadline at h; injection h with h; subst h; repeat' first
      | with_reducible exact Writes.refl | with_reducible apply Writes.step State.toTick_writes
      | with_reducible apply Writes.step State.slotDeadline_writes | (show _ = _; rfl) | split

theorem execPtpRx_writes {s : State} {x0 x1} {t} (h : execPtpRx x0 x1 s = .next t) :
    Writes [Reg.ringStatus 0, Reg.ringDevIdx 0, Reg.ringLoss 0, Reg.msixPba 0, Reg.perfWrapLo 0, Reg.perfWrapHi 0, Reg.linkCfg 0, Reg.linkRtF 0,
    Reg.linkAsymEffLo 0, Reg.linkAsymEffHi 0, Reg.slotStatus 0, Reg.redundCnt 0] s t := by
  unfold execPtpRx at h; injection h with h; subst h; repeat' first
      | with_reducible exact Writes.refl | with_reducible apply Writes.kept State.takeUp_kept
      | with_reducible apply Writes.step State.ptpRx_writes | (show _ = _; rfl) | split

theorem execSessionSet_writes {s : State} {x0} {t} (h : execSessionSet x0 s = .next t) :
    Writes [Reg.hostifCnt 0, Reg.ringStatus 0, Reg.ringDevIdx 0, Reg.msixPba 0, Reg.perfWrapLo 0, Reg.perfWrapHi 0] s t := by
  unfold execSessionSet at h; injection h with h; subst h; repeat' first
      | intro _ | with_reducible assumption | with_reducible exact Writes.refl | with_reducible apply Writes.ite
      | with_reducible apply State.start_writes | with_reducible apply Writes.step State.complete_writes
      | with_reducible apply Writes.kept State.park_kept | (show _ = _; rfl)

theorem execSlotAccept_writes {s : State} {x0} {t} (h : execSlotAccept x0 s = .next t) :
    Writes [Reg.hostifCnt 0, Reg.ringStatus 0, Reg.ringDevIdx 0, Reg.ringLoss 0, Reg.msixPba 0, Reg.perfWrapLo 0, Reg.perfWrapHi 0,
    Reg.slotStatus 0] s t := by
  unfold execSlotAccept at h; injection h with h; subst h; repeat' first
      | intro _ | (extract_lets +onlyGivenNames v; apply Writes.gen (v := v); subst v; rotate_left; clear_value v; intro h; rotate_right)
      | with_reducible assumption | with_reducible exact Writes.refl | with_reducible apply State.start_writes
      | with_reducible apply Writes.step State.complete_writes | with_reducible apply Writes.kept State.modSlot_kept
      | with_reducible apply Writes.step State.goSlot_writes | with_reducible apply Writes.kept State.park_kept | (show _ = _; rfl) | split

end Sys2Proof.Machine
end

