-- ==== Sys2Proof/Laws/WritesRegs.lean ====
section
/-!
SUPPORT. Sys2Proof/Laws/WritesRegs.lean: which registers each operation of Machine/Regs.lean may change.
-/
namespace Sys2Proof.Machine
open Sys2Proof

theorem State.fabricCfgWrite_writes {s : State} {x1} : Writes [Reg.fabricCfg, Reg.fabricStatus, Reg.deepFree] s (State.fabricCfgWrite s x1) := by
  unfold State.fabricCfgWrite; repeat' first
      | with_reducible exact Writes.refl | with_reducible apply Writes.setF | with_reducible apply Writes.step State.showDeep_writes
      | with_reducible apply State.headroomCheck_writes | with_reducible apply Writes.putRw | with_reducible apply Reg.fabricCfg_at
      | with_reducible apply Reg.fabricStatus_at | dsimp only [F.fabricStatus_QUIET_ERR] | (show _ = _; rfl) | split

theorem State.badAccess_writes {s : State} : Writes [Reg.hostifCnt 0] s (State.badAccess s) := by
  unfold State.badAccess; repeat' first
      | with_reducible exact Writes.refl | with_reducible apply Writes.bump | with_reducible apply Reg.hostifCnt_at
      | dsimp only [F.hostifCnt_COUNT] | (show _ = _; rfl)

theorem State.deepCfgWrite_writes {s : State} {x1} : Writes [Reg.fabricStatus, Reg.deepCfg] s (State.deepCfgWrite s x1) := by
  unfold State.deepCfgWrite; repeat' first
      | (extract_lets +onlyGivenNames v; apply Writes.gen (v := v); subst v; rotate_left; clear_value v; intro h; rotate_right)
      | with_reducible assumption | with_reducible exact Writes.refl | with_reducible apply Writes.setF
      | with_reducible apply State.headroomCheck_writes | with_reducible apply Writes.putRw | with_reducible apply Reg.deepCfg_at
      | with_reducible apply Reg.fabricStatus_at | dsimp only [F.fabricStatus_QUIET_ERR] | (show _ = _; rfl) | split

theorem State.emergWrite_writes {s : State} {x1} :
    Writes [Reg.hostifEmerg, Reg.hostifCnt 0, Reg.ringStatus 0, Reg.ringDevIdx 0, Reg.msixPba 0] s (State.emergWrite s x1) := by
  unfold State.emergWrite; repeat' first
      | (extract_lets +onlyGivenNames v; apply Writes.gen (v := v); subst v; rotate_left; clear_value v; intro h; rotate_right)
      | with_reducible assumption | with_reducible exact Writes.refl | with_reducible apply Writes.setF
      | with_reducible apply Writes.step State.fetchNow_writes | with_reducible apply Writes.step State.dmaOffWrite_writes
      | with_reducible apply Reg.hostifEmerg_at | dsimp only [F.hostifEmerg_TX_STOP] | (show _ = _; rfl) | split

theorem State.fabricPortWrite_writes {s : State} {x1 x2} : Writes [Reg.fabricStatus, Reg.fabricPort 0] s (State.fabricPortWrite s x1 x2) := by
  unfold State.fabricPortWrite; repeat' first
      | with_reducible exact Writes.refl | with_reducible apply Writes.setF | with_reducible apply Writes.putRw
      | with_reducible apply Reg.fabricPort_at | with_reducible apply Reg.fabricStatus_at | dsimp only [F.fabricStatus_CFG_ERR]
      | (show _ = _; rfl) | split

theorem State.fomWrite_writes {s : State} {x1 x2} : Writes [Reg.laneStatus 0, Reg.laneFom 0] s (State.fomWrite s x1 x2) := by
  unfold State.fomWrite; repeat' first
      | (extract_lets +onlyGivenNames v; apply Writes.gen (v := v); subst v; rotate_left; clear_value v; intro h; rotate_right)
      | with_reducible assumption | with_reducible exact Writes.refl | with_reducible apply Writes.putRw
      | with_reducible apply Writes.step State.linkFresh_writes | with_reducible apply Reg.laneFom_at | (show _ = _; rfl) | split

theorem State.i2cWrite_writes {s : State} {x1 x2} : Writes [Reg.portI2c 0] s (State.i2cWrite s x1 x2) := by
  unfold State.i2cWrite; repeat' first
      | (extract_lets +onlyGivenNames v; apply Writes.gen (v := v); subst v; rotate_left; clear_value v; intro h; rotate_right)
      | with_reducible assumption | with_reducible exact Writes.refl | with_reducible apply Writes.putW1c | with_reducible apply Writes.putRw
      | with_reducible apply Reg.portI2c_at | (show _ = _; rfl) | split

theorem State.iaThWrite_writes {s : State} {x1 x2 x3} :
    Writes [Reg.perfWrapLo 0, Reg.perfWrapHi 0, Reg.fabricStatus, Reg.redundCnt 0] s (State.iaThWrite s x1 x2 x3) := by
  unfold State.iaThWrite; repeat' first
      | with_reducible exact Writes.refl | with_reducible apply Writes.setF | with_reducible apply Writes.step State.later_writes
      | with_reducible apply Reg.fabricStatus_at | dsimp only [F.fabricStatus_CFG_ERR] | (show _ = _; rfl) | split

theorem State.linkWordWrite_writes {R : List Nat} {s t : State} {n a v} (m : AtReg R a) (k : Writes R s t) :
    Writes R s (t.linkWordWrite n a v) := Writes.ite (Writes.putRw m k) k

theorem State.msixWrite_writes {s : State} {x1 x2} : Writes [Reg.msixCtrl 0, Reg.msixPba 0] s (State.msixWrite s x1 x2) := by
  unfold State.msixWrite; repeat' first
      | (extract_lets +onlyGivenNames v; apply Writes.gen (v := v); subst v; rotate_left; clear_value v; intro h; rotate_right)
      | with_reducible assumption | with_reducible exact Writes.refl | with_reducible apply Writes.ite
      | with_reducible apply Writes.kept State.post_kept | with_reducible apply Writes.setReg | with_reducible apply Writes.putRw
      | with_reducible apply Reg.msixCtrl_at | with_reducible apply Reg.msixPba_at | (show _ = _; rfl)

theorem State.portCfgWrite_writes {s : State} {x1 x2} :
    Writes [Reg.portCfg 0, Reg.portPauseStatus 0, Reg.iuEdges 0] s (State.portCfgWrite s x1 x2) := by
  unfold State.portCfgWrite; repeat' first
      | (extract_lets +onlyGivenNames v; apply Writes.gen (v := v); subst v; rotate_left; clear_value v; intro h; rotate_right)
      | with_reducible assumption | with_reducible exact Writes.refl | with_reducible apply Writes.ite
      | with_reducible apply Writes.step State.showXoff_writes | with_reducible apply Writes.step State.clearPause_writes
      | with_reducible apply Writes.putRw | with_reducible apply Reg.portCfg_at | (show _ = _; rfl)

theorem State.seqWrite_writes {s : State} {x1} : Writes [Reg.globalSeq] s (State.seqWrite s x1) := by
  unfold State.seqWrite; repeat' first
      | (extract_lets +onlyGivenNames v; apply Writes.gen (v := v); subst v; rotate_left; clear_value v; intro h; rotate_right)
      | with_reducible assumption | with_reducible exact Writes.refl | with_reducible apply Writes.putW1c | with_reducible apply Writes.setF
      | with_reducible apply Reg.globalSeq_at | dsimp only [F.globalSeq_EARLY_STEP] | (show _ = _; rfl) | split

theorem State.winDataWrite_writes {R : List Nat} {s t : State} {a w v} (m : AtReg R a) (k : Writes R s t) :
    Writes R s (t.winDataWrite a w v) := Writes.setReg m k

theorem execBadAccess_writes {s : State} {x0 x1} {t} (h : execBadAccess x0 x1 s = .next t) : Writes [Reg.hostifCnt 0] s t := by
  unfold execBadAccess at h; injection h with h; subst h; repeat' first
      | (extract_lets +onlyGivenNames v; apply Writes.gen (v := v); subst v; rotate_left; clear_value v; intro h; rotate_right)
      | with_reducible assumption | with_reducible exact Writes.refl | with_reducible apply Writes.step State.badAccess_writes
      | (show _ = _; rfl) | split | with_reducible apply Writes.put_rdata

end Sys2Proof.Machine
end

