-- ==== Sys2Proof/Laws/WritesProfile.lean ====
section
/-!
SUPPORT. Sys2Proof/Laws/WritesProfile.lean: which registers each operation of Machine/Profile.lean may change.
-/
namespace Sys2Proof.Machine
open Sys2Proof

theorem State.profDone_writes {s : State} {x1 x2} :
    Writes [Reg.globalProfile, Reg.hostifCnt 0, Reg.ringStatus 0, Reg.ringDevIdx 0, Reg.msixPba 0, Reg.perfWrapLo 0,
    Reg.perfWrapHi 0] s (State.profDone s x1 x2) := by
  unfold State.profDone; repeat' first
      | (extract_lets +onlyGivenNames v; apply Writes.gen (v := v); subst v; rotate_left; clear_value v; intro h; rotate_right)
      | with_reducible assumption | with_reducible exact Writes.refl | with_reducible apply Writes.setF
      | with_reducible apply Writes.kept State.modPower_kept | with_reducible apply Writes.step State.endLong_writes
      | with_reducible apply Reg.globalProfile_at | dsimp only [F.globalProfile_ACTIVE] | (show _ = _; rfl)

theorem State.runProfiles_writes {s : State} : Writes [Reg.updCompRun 0] s (State.runProfiles s) := by
  unfold State.runProfiles; repeat' first
      | (extract_lets +onlyGivenNames v; clear_value v) | with_reducible exact Writes.refl
      | with_reducible apply Writes.step State.runImage_writes | (show _ = _; rfl) | split

theorem State.profLoads_writes {s : State} {x1} :
    Writes [Reg.ringStatus 0, Reg.ringDevIdx 0, Reg.ringLoss 0, Reg.msixPba 0, Reg.perfWrapLo 0, Reg.perfWrapHi 0, Reg.linkCfg 0, Reg.portSaHi 0,
    Reg.slotCfg 0, Reg.synStatus 0, Reg.evoutCfg 0] s (State.profLoads s x1) := by
  unfold State.profLoads; repeat' first
      | intro _ | with_reducible assumption | with_reducible exact Writes.refl | with_reducible apply Writes.setF
      | with_reducible apply State.each_writes | with_reducible apply Writes.step State.synLoad_writes
      | with_reducible apply Writes.step State.saWrite_writes | with_reducible apply Reg.evoutCfg_at | with_reducible apply Reg.linkCfg_at
      | with_reducible apply Reg.slotCfg_at | dsimp only [F.evoutCfg_LOAD, F.linkCfg_UPD, F.slotCfg_UPD] | (show _ = _; rfl) | split
      | with_reducible apply Writes.put_servo

theorem State.profCommits_writes {s : State} {x1} :
    Writes [Reg.globalLateFlags, Reg.globalLateCnt 0, Reg.globalProfile, Reg.hostifCnt 0, Reg.ringStatus 0, Reg.ringDevIdx 0, Reg.ringLoss 0,
    Reg.msixPba 0, Reg.perfWrapLo 0, Reg.perfWrapHi 0, Reg.pipeGenStatus 0, Reg.pipeGenDrain 0, Reg.pipeProgVer 0, Reg.pipeWinStatus 0,
    Reg.pipeMoveEpoch 0, Reg.pipeMacUsed 0, Reg.pipeLpmUsed 0, Reg.pipeTwinStatus 0] s (State.profCommits s x1) := by
  unfold State.profCommits; repeat' first
      | intro _ | (extract_lets +onlyGivenNames v; apply Writes.gen (v := v); subst v; rotate_left; clear_value v; intro h; rotate_right)
      | with_reducible assumption | with_reducible exact Writes.refl | with_reducible apply Writes.step State.genBoundary_writes
      | with_reducible apply Writes.step State.profDone_writes | with_reducible apply State.each_writes | (show _ = _; rfl) | split

theorem State.profFinal_writes {s : State} {x1 x2} :
    Writes [Reg.hostifCnt 0, Reg.ringStatus 0, Reg.ringDevIdx 0, Reg.msixPba 0, Reg.perfWrapLo 0,
    Reg.perfWrapHi 0] s (State.profFinal s x1 x2) := by
  unfold State.profFinal; repeat' first
      | with_reducible exact Writes.refl | with_reducible apply Writes.kept State.modLong_kept
      | with_reducible apply Writes.kept State.modPower_kept | with_reducible apply Writes.step State.endLong_writes | (show _ = _; rfl) | split

theorem execProfileApply_writes {s : State} {x0 x1} {t} (h : execProfileApply x0 x1 s = .next t) :
    Writes [Reg.hostifCnt 0, Reg.ringStatus 0, Reg.ringDevIdx 0, Reg.msixPba 0, Reg.perfWrapLo 0, Reg.perfWrapHi 0] s t := by
  unfold execProfileApply at h; injection h with h; subst h; repeat' first
      | intro _ | (extract_lets +onlyGivenNames v; apply Writes.gen (v := v); subst v; rotate_left; clear_value v; intro h; rotate_right)
      | (extract_lets +onlyGivenNames v; clear_value v) | with_reducible assumption | with_reducible exact Writes.refl
      | with_reducible apply State.start_writes | with_reducible apply Writes.step State.complete_writes
      | with_reducible apply State.startLong_writes | with_reducible apply Writes.kept State.modPower_kept | (show _ = _; rfl) | split

end Sys2Proof.Machine
end

