-- ==== Sys2Proof/Laws/WritesLong.lean ====
section
/-!
SUPPORT. Sys2Proof/Laws/WritesLong.lean: which registers each operation of Machine/Long.lean may change.
-/
namespace Sys2Proof.Machine
open Sys2Proof

theorem State.scrubFinal_writes {s : State} {x1 x2} :
    Writes [Reg.hostifCnt 0, Reg.ringStatus 0, Reg.ringDevIdx 0, Reg.msixPba 0, Reg.perfWrapLo 0, Reg.perfWrapHi 0,
    Reg.deepEccCorr 0] s (State.scrubFinal s x1 x2) := by
  unfold State.scrubFinal; repeat' first
      | intro _ | (extract_lets +onlyGivenNames v; apply Writes.gen (v := v); subst v; rotate_left; clear_value v; intro h; rotate_right)
      | with_reducible assumption | with_reducible exact Writes.refl | with_reducible apply Writes.bump
      | with_reducible apply State.each_writes | with_reducible apply Writes.kept State.modFabric_kept
      | with_reducible apply Writes.step State.endLong_writes | with_reducible apply Reg.deepEccCorr_at | dsimp only [F.deepEccCorr_COUNT]
      | (show _ = _; rfl) | split

theorem State.longUndo_writes {s : State} {x1} :
    Writes [Reg.coreStatus 0, Reg.updStatus, Reg.updCompStaged 0, Reg.laneCalStatus 0, Reg.iucalState 0, Reg.fmStatus 0,
    Reg.redundStatus] s (State.longUndo s x1) := by
  unfold State.longUndo; repeat' first
      | with_reducible exact Writes.refl | with_reducible apply Writes.ite | with_reducible apply Writes.step State.sweepCancel_writes
      | with_reducible apply Writes.kept State.modSecKeys_kept | with_reducible apply Writes.step State.stageEmpty_writes
      | with_reducible apply Writes.step State.coreStart_writes | with_reducible apply Writes.kept State.modCal_kept
      | with_reducible apply Writes.kept State.eyeOff_kept | with_reducible apply Writes.kept State.modBulk_kept
      | with_reducible apply Writes.step State.setPair_writes | with_reducible apply Writes.kept State.modPower_kept
      | with_reducible apply Writes.step State.fmRelease_writes | (show _ = _; rfl) | split

theorem State.cancelLong_writes {s : State} {x1} :
    Writes [Reg.hostifCnt 0, Reg.ringStatus 0, Reg.ringDevIdx 0, Reg.msixPba 0, Reg.coreStatus 0, Reg.perfWrapLo 0, Reg.perfWrapHi 0,
    Reg.updStatus, Reg.updCompStaged 0, Reg.laneCalStatus 0, Reg.iucalState 0, Reg.fmStatus 0, Reg.redundStatus] s (State.cancelLong s x1) := by
  unfold State.cancelLong; repeat' first
      | with_reducible exact Writes.refl | with_reducible apply Writes.step State.longUndo_writes
      | with_reducible apply Writes.step State.endLong_writes | (show _ = _; rfl)

theorem State.sweepFinal_writes {s : State} {x1 x2} :
    Writes [Reg.hostifCnt 0, Reg.ringStatus 0, Reg.ringDevIdx 0, Reg.msixPba 0, Reg.perfWrapLo 0, Reg.perfWrapHi 0, Reg.laneCalStatus 0,
    Reg.iucalState 0] s (State.sweepFinal s x1 x2) := by
  unfold State.sweepFinal; repeat' first
      | with_reducible exact Writes.refl | with_reducible apply Writes.step State.sweepCancel_writes
      | with_reducible apply Writes.step State.sweepEnd_writes | with_reducible apply Writes.step State.endLong_writes | (show _ = _; rfl) | split

theorem State.longSuspend_writes {s : State} {x1} :
    Writes [Reg.hostifCnt 0, Reg.ringStatus 0, Reg.ringDevIdx 0, Reg.ringLoss 0, Reg.msixPba 0, Reg.perfWrapLo 0,
    Reg.perfWrapHi 0] s (State.longSuspend s x1) := by
  unfold State.longSuspend; repeat' first
      | (extract_lets +onlyGivenNames v; apply Writes.gen (v := v); subst v; rotate_left; clear_value v; intro h; rotate_right)
      | with_reducible assumption | with_reducible exact Writes.refl | with_reducible apply Writes.kept State.fmSuspend_kept
      | with_reducible apply Writes.step State.finish_writes | with_reducible apply Writes.step State.setLong_writes
      | with_reducible apply Writes.kept State.modCal_kept | with_reducible apply Writes.kept State.eyeOff_kept
      | with_reducible apply Writes.kept State.modLong_kept | (show _ = _; rfl) | split

theorem State.showMixed_writes {s : State} : Writes [Reg.redundStatus] s (State.showMixed s) := by
  unfold State.showMixed; repeat' first
      | with_reducible exact Writes.refl | with_reducible apply Writes.setF | with_reducible apply Reg.redundStatus_at
      | dsimp only [F.redundStatus_VER_MIXED] | (show _ = _; rfl)

theorem State.pairRuns_writes {s : State} {x1 x2} : Writes [Reg.updStatus, Reg.updCompRun 0, Reg.redundStatus] s (State.pairRuns s x1 x2) := by
  unfold State.pairRuns; repeat' first
      | (extract_lets +onlyGivenNames v; apply Writes.gen (v := v); subst v; rotate_left; clear_value v; intro h; rotate_right)
      | with_reducible assumption | with_reducible exact Writes.refl | with_reducible apply Writes.step State.markInstalled_writes
      | with_reducible apply Writes.kept State.modRedund_kept | with_reducible apply Writes.step State.showMixed_writes
      | with_reducible apply Writes.step State.runImage_writes | (show _ = _; rfl) | split

theorem State.pairInstalled_writes {s : State} {x1 x2} :
    Writes [Reg.hostifCnt 0, Reg.ringStatus 0, Reg.ringDevIdx 0, Reg.msixPba 0, Reg.coreStatus 0, Reg.perfWrapLo 0, Reg.perfWrapHi 0,
    Reg.updStatus, Reg.updCompRun 0, Reg.redundStatus] s (State.pairInstalled s x1 x2) := by
  unfold State.pairInstalled; repeat' first
      | with_reducible exact Writes.refl | with_reducible apply Writes.ite | with_reducible apply Writes.step State.pairRuns_writes
      | with_reducible apply Writes.kept State.swapSoon_kept | with_reducible apply Writes.step State.coreStart_writes
      | with_reducible apply Writes.step State.setPair_writes | with_reducible apply Writes.kept State.modLong_kept
      | with_reducible apply Writes.step State.endLong_writes | with_reducible apply Writes.step State.joinCopy_writes | (show _ = _; rfl)

theorem State.stageFinal_writes {s : State} {x1 x2} :
    Writes [Reg.hostifCnt 0, Reg.ringStatus 0, Reg.ringDevIdx 0, Reg.msixPba 0, Reg.perfWrapLo 0, Reg.perfWrapHi 0, Reg.updStatus,
    Reg.updCompStaged 0] s (State.stageFinal s x1 x2) := by
  unfold State.stageFinal; repeat' first
      | (extract_lets +onlyGivenNames v; apply Writes.gen (v := v); subst v; rotate_left; clear_value v; intro h; rotate_right)
      | with_reducible assumption | with_reducible exact Writes.refl | with_reducible apply Writes.ite
      | with_reducible apply Writes.step State.stageDone_writes | with_reducible apply Writes.kept State.modSecKeys_kept
      | with_reducible apply Writes.step State.stageEmpty_writes | with_reducible apply Writes.step State.endLong_writes | (show _ = _; rfl) | split

theorem State.gateFault_writes {s : State} {x1 x2} :
    Writes [Reg.hostifCnt 0, Reg.ringStatus 0, Reg.ringDevIdx 0, Reg.ringLoss 0, Reg.msixPba 0, Reg.bankEcc 0, Reg.perfWrapLo 0,
    Reg.perfWrapHi 0, Reg.fmStatus 0] s (State.gateFault s x1 x2) := by
  unfold State.gateFault; repeat' first
      | (extract_lets +onlyGivenNames v; apply Writes.gen (v := v.1); subst v; rotate_left; clear_value v; intro h; rotate_right)
      | with_reducible assumption | with_reducible exact Writes.refl | with_reducible apply Writes.ite
      | with_reducible apply Writes.step State.eccBank_writes | with_reducible apply Writes.step State.fmRelease_writes
      | with_reducible apply Writes.step State.endLong_writes | (show _ = _; rfl)

theorem State.eyeFinal_writes {s : State} {x1 x2} :
    Writes [Reg.hostifCnt 0, Reg.ringStatus 0, Reg.ringDevIdx 0, Reg.msixPba 0, Reg.perfWrapLo 0, Reg.perfWrapHi 0] s (State.eyeFinal s x1 x2) := by
  unfold State.eyeFinal; repeat' first
      | (extract_lets +onlyGivenNames v; apply Writes.gen (v := v); subst v; rotate_left; clear_value v; intro h; rotate_right)
      | with_reducible assumption | with_reducible exact Writes.refl | with_reducible apply Writes.kept State.bufWrite_kept
      | with_reducible apply Writes.kept State.eyeOff_kept | with_reducible apply Writes.step State.endLong_writes | (show _ = _; rfl) | split

theorem State.bulkFinal_writes {s : State} {x1 x2} :
    Writes [Reg.hostifCnt 0, Reg.ringStatus 0, Reg.ringDevIdx 0, Reg.ringLoss 0, Reg.msixPba 0, Reg.perfWrapLo 0, Reg.perfWrapHi 0,
    Reg.pipeLearnStatus 0, Reg.pipeMoveEpoch 0, Reg.pipeMacUsed 0, Reg.pipeLpmUsed 0, Reg.pipeLearnLimit 0 0] s (State.bulkFinal s x1 x2) := by
  unfold State.bulkFinal; repeat' first
      | (extract_lets +onlyGivenNames v; apply Writes.gen (v := v); subst v; rotate_left; clear_value v; intro h; rotate_right)
      | with_reducible assumption | with_reducible exact Writes.refl | with_reducible apply Writes.step State.bulkEnd_writes
      | with_reducible apply Writes.kept State.modBulk_kept | with_reducible apply Writes.step State.endLong_writes | (show _ = _; rfl) | split

theorem State.rejoinTake_writes {s : State} {x1} : Writes [Reg.coreStatus 0, Reg.redundStatus] s (State.rejoinTake s x1) := by
  unfold State.rejoinTake; repeat' first
      | (extract_lets +onlyGivenNames v; apply Writes.gen (v := v); subst v; rotate_left; clear_value v; intro h; rotate_right)
      | with_reducible assumption | with_reducible exact Writes.refl | with_reducible apply Writes.ite | with_reducible apply Writes.setF
      | with_reducible apply Writes.kept State.raiseInt_kept | with_reducible apply Writes.step State.coreStart_writes
      | with_reducible apply State.when_writes | with_reducible apply Writes.step State.setPair_writes
      | with_reducible apply Reg.redundStatus_at | dsimp only [F.redundStatus_HOLDER, F.redundStatus_UNATTENDED] | (show _ = _; rfl)

theorem State.rejoinFinal_writes {s : State} {x1 x2} :
    Writes [Reg.hostifCnt 0, Reg.ringStatus 0, Reg.ringDevIdx 0, Reg.msixPba 0, Reg.coreStatus 0, Reg.perfWrapLo 0, Reg.perfWrapHi 0,
    Reg.updStatus, Reg.updCompRun 0, Reg.redundStatus] s (State.rejoinFinal s x1 x2) := by
  unfold State.rejoinFinal; repeat' first
      | intro _ | (extract_lets +onlyGivenNames v; apply Writes.gen (v := v); subst v; rotate_left; clear_value v; intro h; rotate_right)
      | with_reducible assumption | with_reducible exact Writes.refl | with_reducible apply Writes.ite
      | with_reducible apply Writes.step State.pairRuns_writes | with_reducible apply Writes.step State.coreStart_writes
      | with_reducible apply State.when_writes | with_reducible apply Writes.step State.setPair_writes
      | with_reducible apply Writes.step State.rejoinTake_writes | with_reducible apply Writes.step State.endLong_writes
      | with_reducible apply Writes.step State.joinCopy_writes | (show _ = _; rfl)

theorem State.longStep_writes {s : State} {x1} :
    Writes [Reg.pipeLearnStatus 0, Reg.pipeMoveEpoch 0, Reg.pipeMacUsed 0, Reg.pipeLpmUsed 0, Reg.pipeLearnLimit 0 0] s (State.longStep s x1) := by
  unfold State.longStep; repeat' first
      | with_reducible exact Writes.refl | with_reducible apply Writes.step State.bulkStep_writes
      | with_reducible apply Writes.kept State.modLong_kept | (show _ = _; rfl) | split

theorem execLongQuery_writes {s : State} {x0} {t} (h : execLongQuery x0 s = .next t) :
    Writes [Reg.hostifCnt 0, Reg.ringStatus 0, Reg.ringDevIdx 0, Reg.msixPba 0, Reg.perfWrapLo 0, Reg.perfWrapHi 0] s t := by
  unfold execLongQuery at h; injection h with h; subst h; repeat' first
      | intro _ | with_reducible assumption | with_reducible exact Writes.refl | with_reducible apply State.start_writes
      | with_reducible apply Writes.step State.complete_writes | (show _ = _; rfl) | split

end Sys2Proof.Machine
end

