-- ==== Sys2Proof/Laws/WritesPowerSet.lean ====
section
/-!
SUPPORT. Sys2Proof/Laws/WritesPowerSet.lean: which registers each operation of Machine/PowerSet.lean may change.
-/
namespace Sys2Proof.Machine
open Sys2Proof

theorem State.powerDone_writes {s : State} {x1} :
    Writes [Reg.globalPwrState, Reg.hostifCnt 0, Reg.ringStatus 0, Reg.ringDevIdx 0, Reg.ringLoss 0, Reg.msixPba 0, Reg.perfWrapLo 0,
    Reg.perfWrapHi 0] s (State.powerDone s x1) := by
  unfold State.powerDone; repeat' first
      | (extract_lets +onlyGivenNames v; apply Writes.gen (v := v); subst v; rotate_left; clear_value v; intro h; rotate_right)
      | with_reducible assumption | with_reducible exact Writes.refl | with_reducible apply Writes.setF
      | with_reducible apply Writes.step State.finish_writes | with_reducible apply Writes.step State.raise_writes
      | with_reducible apply Writes.kept State.modPower_kept | with_reducible apply Reg.globalPwrState_at
      | dsimp only [F.globalPwrState_BUSY, F.globalPwrState_STATE] | (show _ = _; rfl)

theorem State.flushAll_writes {s : State} {x1} :
    Writes [Reg.ringStatus 0, Reg.ringDevIdx 0, Reg.ringLoss 0, Reg.msixPba 0, Reg.perfWrapLo 0, Reg.perfWrapHi 0, Reg.portPauseStatus 0,
    Reg.fabricStatus, Reg.eqDepth 0, Reg.eqOndie 0, Reg.eqHwm 0, Reg.iaDepth 0, Reg.deepFree, Reg.iuEdges 0] s (State.flushAll s x1) := by
  unfold State.flushAll; repeat' first
      | intro _ | (extract_lets +onlyGivenNames v; apply Writes.gen (v := v); subst v; rotate_left; clear_value v; intro h; rotate_right)
      | with_reducible assumption | with_reducible exact Writes.refl | with_reducible apply State.each_writes
      | with_reducible apply Writes.kept State.modFabric_kept | with_reducible apply Writes.step State.release_writes | (show _ = _; rfl)

theorem State.portsToL2_writes {s : State} {x1} :
    Writes [Reg.ringStatus 0, Reg.ringDevIdx 0, Reg.ringLoss 0, Reg.msixPba 0, Reg.perfWrapLo 0, Reg.perfWrapHi 0, Reg.laneStatus 0,
    Reg.laneCalStatus 0, Reg.laneGrp 0, Reg.portPauseStatus 0, Reg.fabricStatus, Reg.fabricPort 0, Reg.eqDepth 0, Reg.eqOndie 0, Reg.eqHwm 0,
    Reg.iaDepth 0, Reg.deepFree, Reg.iuEdges 0, Reg.iucalState 0] s (State.portsToL2 s x1) := by
  unfold State.portsToL2; repeat' first
      | intro _ | with_reducible assumption | with_reducible exact Writes.refl | with_reducible apply Writes.step State.goLink_writes
      | with_reducible apply State.each_writes | with_reducible apply Writes.kept State.modFabric_kept | (show _ = _; rfl)

theorem State.saRestore_writes {s : State} {x1} : Writes [Reg.portSaHi 0] s (State.saRestore s x1) := by
  unfold State.saRestore; repeat' first
      | (extract_lets +onlyGivenNames v; apply Writes.gen (v := v); subst v; rotate_left; clear_value v; intro h; rotate_right)
      | with_reducible assumption | with_reducible exact Writes.refl | with_reducible apply Writes.step State.saWrite_writes
      | (show _ = _; rfl) | split | with_reducible apply Writes.put_ports

theorem State.portFresh_writes {s : State} {x1} :
    Writes [Reg.ringStatus 0, Reg.ringDevIdx 0, Reg.ringLoss 0, Reg.msixPba 0, Reg.perfWrapLo 0, Reg.perfWrapHi 0, Reg.laneStatus 0,
    Reg.laneLoop 0, Reg.laneCalStatus 0, Reg.laneGrp 0, Reg.portPauseStatus 0, Reg.fabricStatus, Reg.fabricPort 0, Reg.eqDepth 0, Reg.eqOndie 0,
    Reg.eqHwm 0, Reg.iaDepth 0, Reg.deepFree, Reg.tbLcompRx 0, Reg.tbLcompTx 0, Reg.iuEdges 0, Reg.iucalState 0] s (State.portFresh s x1) := by
  unfold State.portFresh; repeat' first
      | intro _ | with_reducible assumption | with_reducible exact Writes.refl | with_reducible apply Writes.setReg
      | with_reducible apply Writes.step State.goLink_writes | with_reducible apply Writes.step State.linkRestart_writes
      | with_reducible apply State.each_writes | with_reducible apply Writes.step State.quarRelease_writes
      | with_reducible apply Writes.step State.linkFresh_writes | with_reducible apply Reg.laneLoop_at | (show _ = _; rfl) | split

theorem State.deepInit_writes {s : State} : Writes [Reg.deepStatus, Reg.deepFree] s (State.deepInit s) := by
  unfold State.deepInit; repeat' first
      | (extract_lets +onlyGivenNames v; apply Writes.gen (v := v); subst v; rotate_left; clear_value v; intro h; rotate_right)
      | with_reducible assumption | with_reducible exact Writes.refl | with_reducible apply Writes.setF
      | with_reducible apply Writes.step State.showDeep_writes | with_reducible apply Reg.deepStatus_at
      | dsimp only [F.deepStatus_MAPPED, F.deepStatus_READY] | (show _ = _; rfl)

end Sys2Proof.Machine
end

