-- ==== Sys2Proof/Laws/WritesBoot.lean ====
section
/-!
SUPPORT. Sys2Proof/Laws/WritesBoot.lean: which registers each operation of Machine/Boot.lean may change.
-/
namespace Sys2Proof.Machine
open Sys2Proof

theorem State.bootImages_writes {s : State} {x1 x2 x3 x4} :
    Writes [Reg.globalBoot, Reg.updStatus, Reg.updCompRun 0, Reg.laneGrp 0] s (State.bootImages s x1 x2 x3 x4) := by
  unfold State.bootImages; repeat' first
      | intro _ | (extract_lets +onlyGivenNames v; apply Writes.gen (v := v); subst v; rotate_left; clear_value v; intro h; rotate_right)
      | with_reducible assumption | with_reducible exact Writes.refl | with_reducible apply Writes.setReg | with_reducible apply Writes.setF
      | with_reducible apply Writes.kept State.modSecKeys_kept | with_reducible apply State.each_writes
      | with_reducible apply Reg.globalBoot_at | with_reducible apply Reg.laneGrp_at | with_reducible apply Reg.updCompRun_at
      | with_reducible apply Reg.updStatus_at | dsimp only [F.globalBoot_SLOT, F.laneGrp_UCODE_VER, F.updStatus_MIG_PENDING, F.updStatus_SLOT]
      | (show _ = _; rfl) | split

theorem State.bootPair_writes {s : State} : Writes [Reg.redundStatus] s (State.bootPair s) := by
  unfold State.bootPair; repeat' first
      | with_reducible exact Writes.refl | with_reducible apply Writes.setF | with_reducible apply Writes.step State.setPair_writes
      | with_reducible apply Reg.redundStatus_at | dsimp only [F.redundStatus_HOLDER] | (show _ = _; rfl)

theorem State.bootBanks_writes {s : State} : Writes [Reg.bankCtrl 0, Reg.quad 0] s (State.bootBanks s) := by
  unfold State.bootBanks; repeat' first
      | intro _ | (extract_lets +onlyGivenNames v; apply Writes.gen (v := v); subst v; rotate_left; clear_value v; intro h; rotate_right)
      | with_reducible assumption | with_reducible exact Writes.refl | with_reducible apply Writes.setF
      | with_reducible apply State.each_writes | with_reducible apply Writes.step State.showIlv_writes | with_reducible apply Reg.bankCtrl_at
      | dsimp only [F.bankCtrl_OWNER, F.bankCtrl_POWER_STATE] | (show _ = _; rfl)

theorem State.bootDone_writes {s : State} :
    Writes [Reg.globalBoot, Reg.ringStatus 0, Reg.ringDevIdx 0, Reg.ringLoss 0, Reg.msixPba 0, Reg.perfWrapLo 0,
    Reg.perfWrapHi 0] s (State.bootDone s) := by
  unfold State.bootDone; repeat' first
      | (extract_lets +onlyGivenNames v; apply Writes.gen (v := v); subst v; rotate_left; clear_value v; intro h; rotate_right)
      | with_reducible assumption | with_reducible exact Writes.refl | with_reducible apply Writes.setF
      | with_reducible apply Writes.step State.raise_writes | with_reducible apply Reg.globalBoot_at
      | dsimp only [F.globalBoot_BOOT_MS, F.globalBoot_DONE, F.globalBoot_STAGE] | (show _ = _; rfl)

theorem State.recover_writes {s : State} : Writes [Reg.globalBoot, Reg.coreStatus 0] s (State.recover s) := by
  unfold State.recover; repeat' first
      | with_reducible exact Writes.refl | with_reducible apply Writes.setF | with_reducible apply Writes.step State.coreStart_writes
      | with_reducible apply Writes.kept State.modPower_kept | with_reducible apply Reg.globalBoot_at | dsimp only [F.globalBoot_STAGE]
      | (show _ = _; rfl)

theorem State.owedEvents_writes {s : State} :
    Writes [Reg.ringStatus 0, Reg.ringDevIdx 0, Reg.ringLoss 0, Reg.msixPba 0, Reg.perfWrapLo 0, Reg.perfWrapHi 0] s (State.owedEvents s) := by
  unfold State.owedEvents; repeat' first
      | intro _ | (extract_lets +onlyGivenNames v; apply Writes.gen (v := v); subst v; rotate_left; clear_value v; intro h; rotate_right)
      | with_reducible assumption | with_reducible exact Writes.refl | with_reducible apply Writes.kept State.fresh_kept
      | with_reducible apply Writes.kept State.modSecKeys_kept | with_reducible apply State.each_writes
      | with_reducible apply Writes.step State.raise_writes | with_reducible apply Writes.step State.tamperEvent_writes | (show _ = _; rfl) | split

theorem State.joinBlocks_writes {s : State} :
    Writes ([Reg.globalLateFlags, Reg.globalLateCnt 0, Reg.ringStatus 0, Reg.ringDevIdx 0, Reg.ringLoss 0, Reg.msixPba 0, Reg.perfWrapLo 0,
    Reg.perfWrapHi 0, Reg.laneStatus 0, Reg.laneCalStatus 0, Reg.linkCfg 0, Reg.laneGrp 0, Reg.portPauseStatus 0, Reg.fabricStatus,
    Reg.fabricPort 0, Reg.eqDepth 0] ++ [Reg.eqOndie 0, Reg.eqHwm 0, Reg.iaDepth 0, Reg.deepStatus, Reg.deepFree, Reg.tbLcompRx 0,
    Reg.tbLcompTx 0, Reg.iuEdges 0, Reg.iucalState 0, Reg.slotCfg 0, Reg.slotStatus 0, Reg.candStatus 0, Reg.candFreq 0, Reg.dpllStatus 0,
    Reg.dpllHoTts 0, Reg.dpllSwrateLo 0] ++ [Reg.dpllSwrateHi 0, Reg.dpllHistIncrLo 0, Reg.dpllHistIncrHi 0, Reg.synStatus 0, Reg.evoutStatus 0,
    Reg.evoutSkipped 0]) s (State.joinBlocks s) := by
  unfold State.joinBlocks; repeat' first
      | intro _ | (extract_lets +onlyGivenNames v; apply Writes.gen (v := v); subst v; rotate_left; clear_value v; intro h; rotate_right)
      | with_reducible assumption | with_reducible exact Writes.refl | with_reducible apply Writes.step State.slotConfig_writes
      | with_reducible apply Writes.step State.deepInit_writes | with_reducible apply Writes.step State.sessApply_writes
      | with_reducible apply Writes.step State.candStart_writes | with_reducible apply State.each_writes
      | with_reducible apply Writes.step State.lanesBoot_writes | with_reducible apply Writes.step State.linkLoad_writes
      | with_reducible apply Writes.step State.evoutBoot_writes | with_reducible apply Writes.step State.synLoad_writes
      | with_reducible apply Writes.step State.calJoin_writes | with_reducible apply Writes.step State.slotCoefs_writes
      | with_reducible apply Writes.step State.synEnable_writes | with_reducible apply Writes.step State.dpllOpened_writes | (show _ = _; rfl)

theorem execJoinBeat_writes {s : State} {t} (h : execJoinBeat s = .next t) :
    Writes ([Reg.globalLateFlags, Reg.globalLateCnt 0, Reg.globalBoot, Reg.hostifEmerg, Reg.ringStatus 0, Reg.ringDevIdx 0, Reg.ringLoss 0,
    Reg.msixPba 0, Reg.coreSkipped 0, Reg.perfWrapLo 0, Reg.perfWrapHi 0, Reg.laneStatus 0, Reg.laneCalStatus 0, Reg.linkCfg 0, Reg.laneGrp 0,
    Reg.portPauseStatus 0] ++ [Reg.fabricStatus, Reg.fabricPort 0, Reg.eqDepth 0, Reg.eqOndie 0, Reg.eqHwm 0, Reg.iaDepth 0, Reg.deepStatus,
    Reg.deepFree, Reg.tbLcompRx 0, Reg.tbLcompTx 0, Reg.iuEdges 0, Reg.iucalState 0, Reg.slotCfg 0, Reg.slotStatus 0, Reg.candStatus 0,
    Reg.candFreq 0] ++ [Reg.dpllStatus 0, Reg.dpllHoTts 0, Reg.dpllSwrateLo 0, Reg.dpllSwrateHi 0, Reg.dpllHistIncrLo 0, Reg.dpllHistIncrHi 0,
    Reg.synStatus 0, Reg.evoutStatus 0, Reg.evoutSkipped 0]) s t := by
  unfold execJoinBeat at h; injection h with h; subst h; repeat' first
      | intro _ | (extract_lets +onlyGivenNames v; apply Writes.gen (v := v); subst v; rotate_left; clear_value v; intro h; rotate_right)
      | with_reducible assumption | with_reducible exact Writes.refl | with_reducible apply Writes.step State.owedEvents_writes
      | with_reducible apply State.each_writes | with_reducible apply Writes.step State.beatFetch_writes
      | with_reducible apply Writes.step State.joinBlocks_writes | with_reducible apply Writes.kept State.modTimeAny_kept
      | with_reducible apply Writes.kept State.modPower_kept | with_reducible apply Writes.step State.bootDone_writes
      | with_reducible apply Writes.step State.beatInt_writes | (show _ = _; rfl) | split

end Sys2Proof.Machine
end

