-- ==== Sys2Proof/Laws/WritesBoundary.lean ====
section
/-!
SUPPORT. Sys2Proof/Laws/WritesBoundary.lean: which registers each operation of Machine/Boundary.lean may change.
-/
namespace Sys2Proof.Machine
open Sys2Proof

theorem State.pairBoundary_writes {s : State} : Writes [Reg.redundStatus] s (State.pairBoundary s) := by
  unfold State.pairBoundary; repeat' first
      | with_reducible exact Writes.refl | with_reducible apply Writes.step State.boardPin_writes
      | with_reducible apply Writes.kept State.modRedund_kept | with_reducible apply Writes.kept State.modHost_kept | (show _ = _; rfl)

theorem State.counterWrites_writes {s : State} {x1} :
    Writes [Reg.globalBeat, Reg.hostifCnt 0, Reg.ringStatus 0, Reg.ringDevIdx 0, Reg.ringLoss 0, Reg.msixPba 0, Reg.perfWrapLo 0,
    Reg.perfWrapHi 0, Reg.tbStepFrac 0, Reg.tbStepNs 0, Reg.tbStepSecLo 0, Reg.tbStepSecHi 0, Reg.tbIncrLo 0, Reg.tbIncrHi 0, Reg.slotStatus 0,
    Reg.evoutStatus 0, Reg.evoutSkipped 0] s (State.counterWrites s x1).1 := by
  unfold State.counterWrites; repeat' first
      | intro _ | (extract_lets +onlyGivenNames v; apply Writes.gen (v := v); subst v; rotate_left; clear_value v; intro h; rotate_right)
      | (extract_lets +onlyGivenNames v; apply Writes.gen (v := v.1); subst v; rotate_left; clear_value v; intro h; rotate_right)
      | with_reducible assumption | with_reducible exact Writes.refl | with_reducible apply Writes.foldlFst
      | with_reducible apply Writes.step State.cntWrite_writes | with_reducible apply Writes.kept State.modTimeAny_kept | (show _ = _; rfl)

theorem State.order2_writes {s : State} :
    Writes [Reg.globalBeat, Reg.globalLateFlags, Reg.globalLateCnt 0, Reg.hostifCnt 0, Reg.ringStatus 0, Reg.ringDevIdx 0, Reg.ringLoss 0,
    Reg.msixPba 0, Reg.perfWrapLo 0, Reg.perfWrapHi 0, Reg.tbStatus, Reg.tbStepFrac 0, Reg.tbStepNs 0, Reg.tbStepSecLo 0, Reg.tbStepSecHi 0,
    Reg.tbIncrLo 0, Reg.tbIncrHi 0, Reg.slotStatus 0, Reg.dpllStatus 0, Reg.dpllHoTts 0, Reg.dpllHistIncrLo 0, Reg.dpllHistIncrHi 0,
    Reg.evoutStatus 0, Reg.evoutSkipped 0] s (State.order2 s).1 := by
  unfold State.order2; repeat' first
      | intro _ | (extract_lets +onlyGivenNames v; apply Writes.gen (v := v); subst v; rotate_left; clear_value v; intro h; rotate_right)
      | (extract_lets +onlyGivenNames v; clear_value v) | with_reducible assumption | with_reducible exact Writes.refl
      | with_reducible apply State.each_writes | with_reducible apply Writes.step State.firstStep_writes
      | with_reducible apply Writes.step State.counterWrites_writes | with_reducible apply Writes.step State.dropSkipped_writes
      | (show _ = _; rfl) | (with_reducible apply Writes.fst (by assumption)) | split

theorem State.order8_writes {s : State} {x1} :
    Writes [Reg.ringStatus 0, Reg.ringDevIdx 0, Reg.ringLoss 0, Reg.msixPba 0, Reg.perfWrapLo 0, Reg.perfWrapHi 0, Reg.candStatus 0,
    Reg.candFreq 0, Reg.dpllStatus 0] s (State.order8 s x1) := by
  unfold State.order8; repeat' first
      | intro _ | (extract_lets +onlyGivenNames v; apply Writes.gen (v := v); subst v; rotate_left; clear_value v; intro h; rotate_right)
      | with_reducible assumption | with_reducible exact Writes.refl | with_reducible apply Writes.step State.dpllDecide_writes
      | with_reducible apply Writes.step State.candEval_writes | with_reducible apply State.each_writes
      | with_reducible apply Writes.step State.disputes_writes | (show _ = _; rfl) | split

theorem State.order7_writes {s : State} :
    Writes [Reg.globalLateFlags, Reg.globalLateCnt 0, Reg.hostifCnt 0, Reg.ringStatus 0, Reg.ringDevIdx 0, Reg.ringLoss 0, Reg.msixPba 0,
    Reg.perfWrapLo 0, Reg.perfWrapHi 0, Reg.evoutCfg 0, Reg.evoutStatus 0, Reg.evoutSkipped 0] s (State.order7 s) := by
  unfold State.order7; repeat' first
      | intro _ | with_reducible assumption | with_reducible exact Writes.refl | with_reducible apply Writes.kept State.evoutDefer_kept
      | with_reducible apply State.each_writes | with_reducible apply Writes.step State.evoutLoads_writes | (show _ = _; rfl) | split

theorem State.order3_writes {s : State} :
    Writes [Reg.hostifCnt 0, Reg.ringStatus 0, Reg.ringDevIdx 0, Reg.ringLoss 0, Reg.msixPba 0, Reg.perfWrapLo 0, Reg.perfWrapHi 0, Reg.tbClamp,
    Reg.tbIncrLo 0, Reg.tbIncrHi 0, Reg.slotOutlier 0, Reg.slotStatus 0, Reg.slotOfsLo 0, Reg.slotOfsHi 0, Reg.candStatus 0, Reg.dpllStatus 0,
    Reg.dpllPhaseLo 0, Reg.dpllPhaseHi 0, Reg.dpllHoTts 0, Reg.dpllSwMiss 0, Reg.dpllHistIncrLo 0, Reg.dpllHistIncrHi 0] s (State.order3 s) := by
  unfold State.order3; repeat' first
      | intro _ | (extract_lets +onlyGivenNames v; apply Writes.gen (v := v); subst v; rotate_left; clear_value v; intro h; rotate_right)
      | with_reducible assumption | with_reducible exact Writes.refl | with_reducible apply Writes.ite
      | with_reducible apply Writes.step State.slotResults_writes | with_reducible apply Writes.step State.dpllHold_writes
      | with_reducible apply Writes.step State.dpllRun_writes | with_reducible apply State.each_writes
      | with_reducible apply Writes.step State.forceBoundary_writes | with_reducible apply Writes.step State.dpllTake_writes
      | with_reducible apply Writes.kept State.modDpll_kept | (show _ = _; rfl)

theorem State.boundaryEnd_writes {s : State} :
    Writes [Reg.globalLateFlags, Reg.globalLateCnt 0, Reg.hostifCnt 0, Reg.ringStatus 0, Reg.ringDevIdx 0, Reg.ringLoss 0, Reg.msixPba 0,
    Reg.perfWrapLo 0, Reg.perfWrapHi 0, Reg.laneStatus 0, Reg.portPauseStatus 0, Reg.fabricStatus, Reg.eqDepth 0, Reg.iaDepth 0, Reg.deepFree,
    Reg.deepBw, Reg.iuEdges 0, Reg.servoStatus, Reg.fmStatus 0, Reg.measLost 0, Reg.redundCnt 0] s (State.boundaryEnd s) := by
  unfold State.boundaryEnd; repeat' first
      | intro _ | (extract_lets +onlyGivenNames v; apply Writes.gen (v := v); subst v; rotate_left; clear_value v; intro h; rotate_right)
      | with_reducible assumption | with_reducible exact Writes.refl | with_reducible apply Writes.step State.measBoundary_writes
      | with_reducible apply Writes.step State.esmcBoundary_writes | with_reducible apply Writes.step State.fmBoundary_writes
      | with_reducible apply Writes.kept State.clkSecond_kept | with_reducible apply Writes.step State.milletBoundary_writes
      | with_reducible apply Writes.kept State.record_kept | with_reducible apply State.each_writes
      | with_reducible apply Writes.kept State.slotCountdown_kept | with_reducible apply Writes.step State.showBackoff_writes
      | with_reducible apply Writes.step State.showServo_writes | with_reducible apply Writes.step State.flapBoundary_writes
      | with_reducible apply Writes.kept State.showStale_kept | (show _ = _; rfl)

theorem State.order9_writes {s : State} :
    Writes [Reg.globalLateFlags, Reg.globalLateCnt 0, Reg.hostifEmerg, Reg.ringStatus 0, Reg.ringDevIdx 0, Reg.ringLoss 0, Reg.msixPba 0,
    Reg.coreSkipped 0, Reg.perfWrapLo 0, Reg.perfWrapHi 0] s (State.order9 s) := by
  unfold State.order9; repeat' first
      | intro _ | with_reducible assumption | with_reducible exact Writes.refl | with_reducible apply State.each_writes
      | with_reducible apply Writes.step State.beatFetch_writes | with_reducible apply Writes.step State.beatInt_writes | (show _ = _; rfl)

theorem State.snapLatch_writes {s : State} :
    Writes [Reg.tbSnapCtrl, Reg.tbIncrLo 0, Reg.tbIncrHi 0, Reg.tbSnapFrac 0, Reg.tbSnapNs 0, Reg.tbSnapSecLo 0,
    Reg.tbSnapSecHi 0] s (State.snapLatch s) := by
  unfold State.snapLatch; repeat' first
      | with_reducible exact Writes.refl | with_reducible apply Writes.step State.latchCounters_writes | (show _ = _; rfl) | split

theorem State.toBoundary_writes {s : State} :
    Writes [Reg.globalBeat, Reg.globalBeatLen, Reg.tbSnapCtrl, Reg.tbIncrLo 0, Reg.tbIncrHi 0, Reg.tbSnapFrac 0, Reg.tbSnapNs 0,
    Reg.tbSnapSecLo 0, Reg.tbSnapSecHi 0] s (State.toBoundary s) := by
  unfold State.toBoundary; repeat' first
      | (extract_lets +onlyGivenNames v; apply Writes.gen (v := v); subst v; rotate_left; clear_value v; intro h; rotate_right)
      | with_reducible assumption | with_reducible exact Writes.refl | with_reducible apply Writes.setF
      | with_reducible apply Writes.step State.pass_writes | with_reducible apply Writes.kept State.ticks_kept
      | with_reducible apply Writes.step State.latchCounters_writes | with_reducible apply Writes.step State.showBeat_writes
      | with_reducible apply Writes.kept State.modTimeAny_kept | with_reducible apply Reg.globalBeatLen_at
      | dsimp only [F.globalBeatLen_LAST_TICKS] | (show _ = _; rfl) | split

theorem State.islandBoundary_writes {s : State} :
    Writes [Reg.globalLateFlags, Reg.globalLateCnt 0, Reg.hostifCnt 0, Reg.ringStatus 0, Reg.ringDevIdx 0, Reg.ringLoss 0, Reg.msixPba 0,
    Reg.perfWrapLo 0, Reg.perfWrapHi 0, Reg.tbClamp, Reg.tbIncrLo 0, Reg.tbIncrHi 0, Reg.dpllStatus 0, Reg.dpllPhaseLo 0, Reg.dpllPhaseHi 0,
    Reg.dpllHoTts 0, Reg.dpllSwMiss 0, Reg.dpllHistIncrLo 0, Reg.dpllHistIncrHi 0, Reg.evoutCfg 0, Reg.evoutStatus 0,
    Reg.evoutSkipped 0] s (State.islandBoundary s) := by
  unfold State.islandBoundary; repeat' first
      | with_reducible exact Writes.refl | with_reducible apply Writes.step State.dpllHold_writes
      | with_reducible apply Writes.step State.dpllRun_writes | with_reducible apply Writes.kept State.record_kept
      | with_reducible apply Writes.step State.evoutLoads_writes | (show _ = _; rfl) | split

end Sys2Proof.Machine
end

