-- ==== Sys2Proof/Laws/WritesRiscv.lean ====
section
/-!
SUPPORT. Sys2Proof/Laws/WritesRiscv.lean: which registers each operation of Machine/Riscv.lean may change.
-/
namespace Sys2Proof.Machine
open Sys2Proof

theorem State.eccCheck_writes {s : State} {x1 x2 x3 x4} :
    Writes [Reg.ringStatus 0, Reg.ringDevIdx 0, Reg.ringLoss 0, Reg.msixPba 0, Reg.bankEcc 0, Reg.perfWrapLo 0,
    Reg.perfWrapHi 0] s (State.eccCheck s x1 x2 x3 x4).1 := by
  unfold State.eccCheck; repeat' first
      | (extract_lets +onlyGivenNames v; apply Writes.gen (v := v.1); subst v; rotate_left; clear_value v; intro h; rotate_right)
      | with_reducible assumption | with_reducible exact Writes.refl | with_reducible apply Writes.step State.eccBank_writes | (show _ = _; rfl)

theorem State.localStore_writes {s : State} {x1 x2 x3 x4} : Writes [Reg.perfWrapLo 0, Reg.perfWrapHi 0] s (State.localStore s x1 x2 x3 x4) := by
  unfold State.localStore; repeat' first
      | intro _ | (extract_lets +onlyGivenNames v; apply Writes.gen (v := v); subst v; rotate_left; clear_value v; intro h; rotate_right)
      | with_reducible assumption | with_reducible exact Writes.refl | with_reducible apply Writes.ite
      | with_reducible apply Writes.kept State.mbByte_kept | with_reducible apply State.each_writes
      | with_reducible apply Writes.step State.localWrite_writes | (show _ = _; rfl)

theorem State.splitBank_writes {s : State} {x1 x2 x3} : Writes [Reg.perfWrapLo 0, Reg.perfWrapHi 0] s (State.splitBank s x1 x2 x3) := by
  unfold State.splitBank; repeat' first
      | with_reducible exact Writes.refl | with_reducible apply Writes.step State.perf_writes | (show _ = _; rfl) | split

theorem State.retire_writes {s : State} {x1 x2 x3 x4 x5} :
    Writes [Reg.perfWrapLo 0, Reg.perfWrapHi 0, Reg.perfTagStatus 0, Reg.perfTagRec 0 0] s (State.retire s x1 x2 x3 x4 x5) := by
  unfold State.retire; repeat' first
      | (extract_lets +onlyGivenNames v; apply Writes.gen (v := v); subst v; rotate_left; clear_value v; intro h; rotate_right)
      | with_reducible assumption | with_reducible exact Writes.refl | with_reducible apply Writes.step State.useSlot_writes
      | with_reducible apply Writes.step State.perf_writes | with_reducible apply Writes.kept State.setPc_kept
      | with_reducible apply Writes.step State.tagDone_writes | (show _ = _; rfl) | split

theorem State.mispredict_writes {s : State} {x1 x2} :
    Writes [Reg.perfWrapLo 0, Reg.perfWrapHi 0, Reg.perfTagStatus 0, Reg.perfTagRec 0 0] s (State.mispredict s x1 x2) := by
  unfold State.mispredict; repeat' first
      | (extract_lets +onlyGivenNames v; apply Writes.gen (v := v); subst v; rotate_left; clear_value v; intro h; rotate_right)
      | with_reducible assumption | with_reducible exact Writes.refl | with_reducible apply Writes.ite
      | with_reducible apply Writes.step State.tagEnter_writes | with_reducible apply Writes.kept State.fresh_kept
      | with_reducible apply Writes.step State.perf_writes | with_reducible apply Writes.step State.tagDone_writes | (show _ = _; rfl)

theorem State.pcnt_writes {s : State} {x1 x2 x3} : Writes [Reg.perfWrapLo 0, Reg.perfWrapHi 0] s (State.pcnt s x1 x2 x3) := by
  unfold State.pcnt; repeat' first
      | (extract_lets +onlyGivenNames v; apply Writes.gen (v := v); subst v; rotate_left; clear_value v; intro h; rotate_right)
      | with_reducible assumption | with_reducible exact Writes.refl | with_reducible apply Writes.ite
      | with_reducible apply Writes.kept State.setX_kept | with_reducible apply Writes.kept State.modCore_kept
      | with_reducible apply Writes.step State.chargeSlots_writes | (show _ = _; rfl)

theorem State.sleepStart_writes {s : State} {x1 x2} :
    Writes [Reg.coreStatus 0, Reg.perfWrapLo 0, Reg.perfWrapHi 0] s (State.sleepStart s x1 x2) := by
  unfold State.sleepStart; repeat' first
      | with_reducible exact Writes.refl | with_reducible apply Writes.step State.setCoreState_writes
      | with_reducible apply Writes.kept State.modCore_kept | with_reducible apply Writes.step State.chargeSlots_writes | (show _ = _; rfl)

theorem State.ksExec_writes {s : State} {x1 x2 x3 x4 x5 x6} :
    Writes [Reg.coreStatus 0, Reg.perfWrapLo 0, Reg.perfWrapHi 0, Reg.perfTagStatus 0,
    Reg.perfTagRec 0 0] s (State.ksExec s x1 x2 x3 x4 x5 x6) := by
  unfold State.ksExec; repeat' first
      | (extract_lets +onlyGivenNames v; apply Writes.gen (v := v); subst v; rotate_left; clear_value v; intro h; rotate_right)
      | (extract_lets +onlyGivenNames v; have q : _ → State := v; clear q; subst v) | with_reducible assumption
      | with_reducible exact Writes.refl | with_reducible apply Writes.ite | with_reducible apply Writes.kept State.tsnap_kept
      | with_reducible apply Writes.step State.retire_writes | with_reducible apply Writes.kept State.setX_kept
      | with_reducible apply Writes.kept State.modCore_kept | with_reducible apply Writes.step State.pcnt_writes
      | with_reducible apply Writes.step State.perf_writes | with_reducible apply Writes.step State.sleepStart_writes
      | with_reducible apply Writes.kept State.sleepEnd_kept | (show _ = _; rfl) | split

theorem State.ksRow_writes {s : State} {x1 x2 x3 x4 x5} :
    Writes [Reg.coreStatus 0, Reg.perfWrapLo 0, Reg.perfWrapHi 0, Reg.perfTagStatus 0, Reg.perfTagRec 0 0, Reg.tbSnapCtrl, Reg.tbIncrLo 0,
    Reg.tbIncrHi 0, Reg.tbSnapFrac 0, Reg.tbSnapNs 0, Reg.tbSnapSecLo 0, Reg.tbSnapSecHi 0] s (State.ksRow s x1 x2 x3 x4 x5) := by
  unfold State.ksRow; repeat' first
      | intro _ | with_reducible assumption | with_reducible exact Writes.refl | with_reducible apply State.issue_writes
      | with_reducible apply Writes.step State.ksExec_writes | (show _ = _; rfl)

theorem execKsWfb_writes {s : State} {x0 x1} {t} (h : execKsWfb x0 x1 s = .next t) :
    Writes [Reg.coreStatus 0, Reg.perfWrapLo 0, Reg.perfWrapHi 0, Reg.perfTagStatus 0, Reg.perfTagRec 0 0, Reg.tbSnapCtrl, Reg.tbIncrLo 0,
    Reg.tbIncrHi 0, Reg.tbSnapFrac 0, Reg.tbSnapNs 0, Reg.tbSnapSecLo 0, Reg.tbSnapSecHi 0] s t := by
  unfold execKsWfb at h; injection h with h; subst h; repeat' first
      | with_reducible exact Writes.refl | with_reducible apply Writes.step State.ksRow_writes | (show _ = _; rfl)

theorem execCoreWake_writes {s : State} {x0} {t} (h : execCoreWake x0 s = .next t) :
    Writes [Reg.coreStatus 0, Reg.perfWrapLo 0, Reg.perfWrapHi 0, Reg.perfTagStatus 0, Reg.perfTagRec 0 0, Reg.tbSnapCtrl, Reg.tbIncrLo 0,
    Reg.tbIncrHi 0, Reg.tbSnapFrac 0, Reg.tbSnapNs 0, Reg.tbSnapSecLo 0, Reg.tbSnapSecHi 0] s t := by
  unfold execCoreWake at h; injection h with h; subst h; repeat' first
      | (extract_lets +onlyGivenNames v; apply Writes.gen (v := v); subst v; rotate_left; clear_value v; intro h; rotate_right)
      | with_reducible assumption | with_reducible exact Writes.refl | with_reducible apply Writes.step State.retire_writes
      | with_reducible apply Writes.step State.setCoreState_writes | with_reducible apply Writes.step State.slotFor_writes
      | with_reducible apply Writes.kept State.awake_kept | with_reducible apply Writes.kept State.sleepEnd_kept | (show _ = _; rfl) | split

theorem execKsTret_writes {s : State} {x0} {t} (h : execKsTret x0 s = .next t) :
    Writes [Reg.coreStatus 0, Reg.perfWrapLo 0, Reg.perfWrapHi 0, Reg.perfTagStatus 0, Reg.perfTagRec 0 0, Reg.tbSnapCtrl, Reg.tbIncrLo 0,
    Reg.tbIncrHi 0, Reg.tbSnapFrac 0, Reg.tbSnapNs 0, Reg.tbSnapSecLo 0, Reg.tbSnapSecHi 0] s t := by
  unfold execKsTret at h; injection h with h; subst h; repeat' first
      | with_reducible exact Writes.refl | with_reducible apply Writes.step State.ksRow_writes | (show _ = _; rfl)

theorem execKsTsnap_writes {s : State} {x0 x1 x2} {t} (h : execKsTsnap x0 x1 x2 s = .next t) :
    Writes [Reg.coreStatus 0, Reg.perfWrapLo 0, Reg.perfWrapHi 0, Reg.perfTagStatus 0, Reg.perfTagRec 0 0, Reg.tbSnapCtrl, Reg.tbIncrLo 0,
    Reg.tbIncrHi 0, Reg.tbSnapFrac 0, Reg.tbSnapNs 0, Reg.tbSnapSecLo 0, Reg.tbSnapSecHi 0] s t := by
  unfold execKsTsnap at h; injection h with h; subst h; repeat' first
      | with_reducible exact Writes.refl | with_reducible apply Writes.step State.ksRow_writes | (show _ = _; rfl)

theorem execInterruptTaken_writes {s : State} {x0} {t} (h : execInterruptTaken x0 s = .next t) :
    Writes [Reg.coreStatus 0, Reg.coreTrapPc 0, Reg.perfWrapLo 0, Reg.perfWrapHi 0, Reg.perfTagStatus 0, Reg.perfTagRec 0 0, Reg.tbSnapCtrl,
    Reg.tbIncrLo 0, Reg.tbIncrHi 0, Reg.tbSnapFrac 0, Reg.tbSnapNs 0, Reg.tbSnapSecLo 0, Reg.tbSnapSecHi 0] s t := by
  unfold execInterruptTaken at h; injection h with h; subst h; repeat' first
      | intro _ | (extract_lets +onlyGivenNames v; apply Writes.gen (v := v); subst v; rotate_left; clear_value v; intro h; rotate_right)
      | (extract_lets +onlyGivenNames v; apply Writes.gen (v := v.1); subst v; rotate_left; clear_value v; intro h; rotate_right)
      | (extract_lets +onlyGivenNames v; have q : _ → State := v; clear q; subst v)
      | (extract_lets +onlyGivenNames v; have q : State → _ → State := v; clear q; subst v)
      | (extract_lets +onlyGivenNames v; have q : Nat := v; clear q; subst v)
      | (extract_lets +onlyGivenNames v; have q : Fld := v; clear q; subst v) | (extract_lets +onlyGivenNames v; clear_value v)
      | with_reducible assumption | with_reducible exact Writes.refl | with_reducible apply Writes.ite | with_reducible apply Writes.foldlFst
      | with_reducible apply Writes.step State.takeInt_writes | with_reducible apply State.issue_writes
      | with_reducible apply Writes.step State.squash_writes | (show _ = _; rfl) | (with_reducible apply Writes.fst (by assumption)) | split

theorem execKsWfe_writes {s : State} {x0 x1} {t} (h : execKsWfe x0 x1 s = .next t) :
    Writes [Reg.coreStatus 0, Reg.perfWrapLo 0, Reg.perfWrapHi 0, Reg.perfTagStatus 0, Reg.perfTagRec 0 0, Reg.tbSnapCtrl, Reg.tbIncrLo 0,
    Reg.tbIncrHi 0, Reg.tbSnapFrac 0, Reg.tbSnapNs 0, Reg.tbSnapSecLo 0, Reg.tbSnapSecHi 0] s t := by
  unfold execKsWfe at h; injection h with h; subst h; repeat' first
      | with_reducible exact Writes.refl | with_reducible apply Writes.step State.ksRow_writes | (show _ = _; rfl)

theorem execKsCrc_writes {s : State} {x0 x1 x2 x3 x4} {t} (h : execKsCrc x0 x1 x2 x3 x4 s = .next t) :
    Writes [Reg.coreStatus 0, Reg.perfWrapLo 0, Reg.perfWrapHi 0, Reg.perfTagStatus 0, Reg.perfTagRec 0 0, Reg.tbSnapCtrl, Reg.tbIncrLo 0,
    Reg.tbIncrHi 0, Reg.tbSnapFrac 0, Reg.tbSnapNs 0, Reg.tbSnapSecLo 0, Reg.tbSnapSecHi 0] s t := by
  unfold execKsCrc at h; injection h with h; subst h; repeat' first
      | with_reducible exact Writes.refl | with_reducible apply Writes.step State.ksRow_writes | (show _ = _; rfl)

theorem execKsPcnt_writes {s : State} {x0 x1 x2} {t} (h : execKsPcnt x0 x1 x2 s = .next t) :
    Writes [Reg.coreStatus 0, Reg.perfWrapLo 0, Reg.perfWrapHi 0, Reg.perfTagStatus 0, Reg.perfTagRec 0 0, Reg.tbSnapCtrl, Reg.tbIncrLo 0,
    Reg.tbIncrHi 0, Reg.tbSnapFrac 0, Reg.tbSnapNs 0, Reg.tbSnapSecLo 0, Reg.tbSnapSecHi 0] s t := by
  unfold execKsPcnt at h; injection h with h; subst h; repeat' first
      | with_reducible exact Writes.refl | with_reducible apply Writes.step State.ksRow_writes | (show _ = _; rfl)

theorem execKsTget_writes {s : State} {x0 x1 x2} {t} (h : execKsTget x0 x1 x2 s = .next t) :
    Writes [Reg.coreStatus 0, Reg.perfWrapLo 0, Reg.perfWrapHi 0, Reg.perfTagStatus 0, Reg.perfTagRec 0 0, Reg.tbSnapCtrl, Reg.tbIncrLo 0,
    Reg.tbIncrHi 0, Reg.tbSnapFrac 0, Reg.tbSnapNs 0, Reg.tbSnapSecLo 0, Reg.tbSnapSecHi 0] s t := by
  unfold execKsTget at h; injection h with h; subst h; repeat' first
      | with_reducible exact Writes.refl | with_reducible apply Writes.step State.ksRow_writes | (show _ = _; rfl)

end Sys2Proof.Machine
end

