-- ==== Sys2Proof/Tests/Slice0.lean ====
section
/-!
SUPPORT. Sys2Proof/Tests/Slice0.lean: the model's own tests: checks of well-formedness, the spec's worked examples, and, for every statement of
Certificates/Slice0/Obligations.lean, operands that meet the hypotheses of each of its clauses together.
-/
namespace Sys2Proof.Tests
open Sys2Proof Sys2Proof.Machine
set_option Elab.async false

/-! ### Well-formedness -/

theorem test_wf_refuses_step_1 : (Instr.seqOrderViolation 1).wf = false := by decide
theorem test_wf_refuses_step_8 : (Instr.powerupTimeout 8).wf = false := by decide
theorem test_wf_refuses_rail_8 : (Instr.supplyReset 8).wf = false := by decide

/-- The table gives no row any bits: no word spells a command. -/
theorem test_no_word_spells_a_command : decodeTableWord 32 0xDEADBEEF = none := by decide

/-! ### States and operands -/

/-- A running device with these registers: the tick PLL locked, the rails up, the main domain joined to the beat, CORE4 running, one command in the host's ring; then the fields of `l`. -/
def devOf (r : Tab Word) (l : List (Fld × Nat)) : State :=
  ([(F.coreStatus_STATE 4, 1), (F.ringCfg_EN 64, 1), (⟨Reg.ringHostIdx 64, 0, 32⟩, 1)] ++ l).foldl (fun (s : State) (p : Fld × Nat) => s.setF p.1 p.2)
    { regs := r, power := { pllLocked := true, mainPwrEn := true, mainReset := false, joined := true, firstBoot := false } }

/-- A running device with these fields. -/
def dev (l : List (Fld × Nat) := []) : State := devOf [] l

/-- A running device whose last lane group holds `grp`, with these fields. -/
def laneDev (grp : Word) (l : List (Fld × Nat)) : State := devOf [(Reg.laneGrp 31, grp)] l

/-- A command of the host with these payload fields (first byte, bytes, value). -/
def hostCmd (l : List (Nat × Nat × Nat)) : Cmd := { src := .host, flags := 0, resv := 0, tag := 7, payload := packLE 896 l }

/-- A register word with these fields. -/
def wordOf (l : List (Fld × Nat)) : Word := BitVec.ofNat 32 (l.foldl (fun a p => a ||| (p.2 <<< p.1.lo)) 0)

/-- CORE7 runs, and bank 0 is its own. -/
def codeDev : State := dev [(F.coreStatus_STATE 7, 1), (F.bankCtrl_OWNER 0, 7), (F.bankCtrl_POWER_STATE 0, 2), (F.quad_ILV_ACTIVE 0, 0)]

/-- A broadcast frame of 64 bytes with a good FCS. -/
def goodFrame : List Byte := List.replicate 12 0xFF ++ [0x88, 0xB5] ++ List.replicate 46 0 ++ [0x53, 0xA6, 0x38, 0xA9]

/-- A KL marker with the L1 flag and a good CHECK. -/
def klWord : BitVec 64 := 0xF4C2018000000053

/-- A two-step Sync over Ethernet: an empty MAC header, flagField at byte 20, sourcePortIdentity at byte 34. -/
def ptpFrame : List Byte := List.replicate 20 0 ++ [2] ++ List.replicate 13 0 ++ [9] ++ List.replicate 29 0

/-- A KL report with LOG2 4. -/
def klReportFrame : List Byte := List.replicate 14 0 ++ [1, 1, 0, 0, 4] ++ List.replicate 45 0

/-- The symbols of a KL marker on an NRZ line. -/
def klSyms (w : BitVec 64) : List (Fin 4) := (stuff (0, 0) (mapBits false (msbBits 64 w.toNat))).1

/-! ### The spec's worked examples -/

/-- spec/18, Layout: addresses of registers of port 37, and what `FABRIC_EQ_SPILL[598]` reads after reset. -/
theorem test_addresses : Reg.laneFom 37 = 0x084A024 ∧ Reg.portCfg 37 = 0x0C25000 ∧ Reg.pipePortL2 1 5 = 0x1401114 ∧ Reg.eqSpill 598 = 0x2014AC4 ∧
    State.reset.reg (Reg.eqSpill 598) = 0x86001000#32 := by decide +kernel

/-- spec/15, after R482: with 50 ms and one retry, TIMEOUT_MS can be no lower than 149. -/
theorem test_timeout_149 : pcieNested (ctoUs 0) 1 149 = true ∧ pcieNested (ctoUs 0) 1 148 = false ∧ pcieNested (ctoUs 0) 1 100 = false := by decide

/-- spec/16, after R507: banks and offsets of the bytes of a word in an interleaved and in a linear quad. -/
theorem test_interleave : State.reset.bankAt 0x10012346 = some (1, 0x48D2) ∧ State.reset.bankAt 0x10012349 = some (2, 0x48D1) ∧
    State.reset.bankAt 0x10102346 = some (8, 0x2346) := by decide +kernel

/-- spec/12, after R397: how long a holdover may last. -/
theorem test_hold_seconds : holdSeconds 32768 10000 1157 1000 = some 33812 := by decide +kernel

/-- spec/09, after R312: the ingress stamp, in whole nanoseconds and picoseconds, with D_rx = 92.800 + 2.560 - 0.080 ns; and its fixed part. -/
theorem test_ingress_stamp :
    let s : State := { dev [] with time := { cnt := { val := 812000040000 * 2 ^ 44 } :: List.replicate 31 {} } }
    s.stampBy { code := 2867 } (-95280 * 65536) 1000 / 65536 = 812000039904 ∧ s.stampBy { code := 2867 } (-95280 * 65536) 1000 % 65536 * 1000 / 65536 = 282 ∧
    (latencies false 4 0 1).2 = 928 := by decide +kernel

/-- spec/12, after R401: the feedback of SYN0 at reset is 34.375. -/
theorem test_synthesizer_reset : State.reset.synShadow 0 * 1000 = 34375 * 2 ^ 32 := by decide +kernel

/-- spec/16 R493: KS.CRC x5, x6, x7 over four bytes is custom-0 with funct7 0x02 and funct3 100; funct7 0x03 there is illegal. -/
theorem test_ks_crc_word : decode32 0b00000100011100110100001010001011#32 = some (.ks (.crc 4) 5 6 7) ∧
    decode32 0b00000110011100110100001010001011#32 = none := by decide

/-! ### Operands that meet the hypotheses of the statements -/

theorem witness_PowerUp :
    (∃ (s : State), s.power.aon = true ∧ s.power.pllLocked = false) ∧
    (∃ (s : State), s.mayRaise = true) ∧
    (∃ (s : State) (n : Nat), 2 ≤ n ∧ n ≤ 7 ∧ s.power.aon = true) ∧
    (∃ (s : State) (n : Nat), 2 ≤ n ∧ n ≤ 7 ∧ s.power.aon = true ∧ s.power.mainPwrEn = true ∧ s.power.mainReset = true) ∧
    (∃ (s : State), s.mayRaise = true ∧ s.power.retryDue = true) ∧
    (∃ (s : State), s.power.aon = true) :=
  ⟨⟨(dev []).modPower fun x => { x with pllLocked := false }, by decide +kernel⟩,
    ⟨dev [], by decide +kernel⟩,
    ⟨dev [], 7, by decide +kernel⟩,
    ⟨(dev []).modPower fun x => { x with mainReset := true }, 2, by decide +kernel⟩,
    ⟨(dev []).modPower fun x => { x with retryDue := true }, by decide +kernel⟩,
    ⟨dev [], by decide +kernel⟩⟩

theorem witness_MainResets :
    (∃ (s : State), regsCanon s = true ∧ s.power.aon = true ∧ s.power.mainPwrEn = true ∧ s.power.mainReset = true ∧ s.power.armed = false ∧ s.power.pstate ≠ .standby) ∧
    (∃ (s : State) (rail : Nat), regsCanon s = true ∧ rail ≤ 7 ∧ s.power.aon = true ∧ s.power.mainPwrEn = true ∧ s.power.mainReset = false ∧ s.power.pstate ≠ .standby) ∧
    (∃ (s : State), regsCanon s = true ∧ s.power.aon = true ∧ s.power.mainReset = false ∧ s.power.pstate ≠ .standby) ∧
    (∃ (s : State), regsCanon s = true ∧ s.power.aon = true ∧ s.power.pstate = .standby) ∧
    (∃ (s : State), regsCanon s = true ∧ s.wdtRuns = true ∧ 1600000 * wdtMs (s.fld F.globalWdtCtrl_TIMEOUT_MS) ≤ s.dogRan s.power.dog true) ∧
    (∃ (s : State), regsCanon s = true ∧ s.power.aon = true ∧ s.power.mainPwrEn = true) ∧
    (∃ (s : State), regsCanon s = true ∧ s.power.aon = true ∧ s.power.pstate = .standby ∧ s.power.wakePassed = false ∧ (∃ w, s.power.wake = some w ∧ w ≤ s.now)) ∧
    (∃ (s : State), s.power.pstate = .standby ∧ s.power.railsOff = true) :=
  ⟨⟨(dev []).modPower fun x => { x with mainReset := true }, by decide +kernel⟩,
    ⟨dev [], 7, by decide +kernel⟩,
    ⟨dev [], by decide +kernel⟩,
    ⟨(dev []).modPower fun x => { x with pstate := .standby }, by decide +kernel⟩,
    ⟨{ dev [(F.globalWdtCtrl_EN, 1)] with time := { tick := 10 ^ 12 } }, by decide +kernel⟩,
    ⟨dev [], by decide +kernel⟩,
    ⟨(dev []).modPower fun x => { x with pstate := .standby, wake := some 0 }, by decide +kernel⟩,
    ⟨(dev []).modPower fun x => { x with pstate := .standby, railsOff := true }, by decide +kernel⟩⟩

theorem witness_MainResetRegisters :
    ∃ (s : State) (a : Nat) (h : RegHit), regsCanon s = true ∧ RegMap.find a = some h ∧ (¬AtReg [Reg.globalResetCause, Reg.globalBeat, Reg.globalDipStatus, Reg.tbIncrLo 0, Reg.tbIncrHi 0, Reg.dpllStatus 0, Reg.dpllHoTts 0, Reg.dpllHistIncrLo 0, Reg.dpllHistIncrHi 0] a) ∧ (¬AtReg reportRegs a) :=
  ⟨dev [(F.laneCfg_EN 127, 1)], Reg.laneCfg 127, _, by decide +kernel, rfl, isApart_at (by decide +kernel), isApart_at (by decide +kernel)⟩

theorem witness_IslandReset :
    (∃ (s : State), regsCanon s = true ∧ s.power.aon = true) ∧
    (∃ (s : State), regsCanon s = true ∧ s.power.aon = true) :=
  ⟨⟨dev [], by decide +kernel⟩,
    ⟨dev [], by decide +kernel⟩⟩

theorem witness_DipAndOscillator :
    (∃ (s : State) (rails : BitVec 9), s.power.aon = true ∧ s.power.mainPwrEn = true ∧ rails ≠ 0 ∧ s.power.dip = none) ∧
    (∃ (s : State) (lows : List RailLow) (d : Dip) (w : Nat × Nat), s.power.dip = some d ∧ (d.sampled lows).worst = some w) ∧
    (∃ (s : State) (lows : List RailLow) (d : Dip) (w : Nat × Nat), s.power.dip = some d ∧ (d.sampled lows).worst = some w ∧ d.long = false ∧ d.startTick + 1600000 * s.dipMax < s.time.tick) ∧
    (∃ (s : State), s.power.aon = true ∧ s.power.pllLocked = true) ∧
    (∃ (s : State), s.power.oscHeld = true) :=
  ⟨⟨dev [], 0x100, by decide +kernel⟩,
    ⟨(dev []).modPower fun x => { x with dip := some { rails := 0x1FF, below := 0x100, lows := [], start := 0, since := 0, startTick := 0 } }, [⟨8, 900⟩], { rails := 0x1FF, below := 0x100, lows := [], start := 0, since := 0, startTick := 0 }, (8, 900), by decide +kernel⟩,
    ⟨{ ((dev []).modPower fun x => { x with dip := some { rails := 0x1FF, below := 0x100, lows := [], start := 0, since := 0, startTick := 0 } }) with time := { tick := 10 ^ 12 } }, [⟨8, 900⟩], { rails := 0x1FF, below := 0x100, lows := [], start := 0, since := 0, startTick := 0 }, (8, 900), by decide +kernel⟩,
    ⟨dev [], by decide +kernel⟩,
    ⟨(dev []).modPower fun x => { x with oscHeld := true }, by decide +kernel⟩⟩

theorem witness_WatchdogAndChipReset :
    (∃ (s : State), s.wdtRuns = true ∧ 1200000 * wdtMs (s.fld F.globalWdtCtrl_TIMEOUT_MS) ≤ s.dogRan s.power.dog true) ∧
    (∃ (s : State), s.up = true) ∧
    (∃ (s : State) (src : WrSrc) (n : Nat), s.up = true ∧ s.power.kick = some (src, n) ∧ s.wdtSource src = true ∧ s.time.tick ≤ n + 1600000) ∧
    (∃ (s : State) (v : Word), s.up = true ∧ s.wdtOver (F.globalWdtCtrl_EN.of v == 1) (F.globalWdtCtrl_TIMEOUT_MS.of v) = true) ∧
    (∃ (s : State) (v : Word), s.up = true ∧ s.wdtOver (F.globalWdtCtrl_EN.of v == 1) (F.globalWdtCtrl_TIMEOUT_MS.of v) = false) ∧
    (∃ (s : State) (v : Word), s.up = true ∧ F.globalResetCtrl_CHIP.of v = 1 ∧ F.globalResetCtrl_KEY.of v = 0xC4A7) ∧
    (∃ (s : State) (c : Cmd), s.takes c 0x0103 = true ∧ c.ok 2 = true ∧ c.fld 0 2 = 0xC4A7) :=
  ⟨⟨{ dev [(F.globalWdtCtrl_EN, 1)] with time := { tick := 10 ^ 12 } }, by decide +kernel⟩,
    ⟨dev [], by decide +kernel⟩,
    ⟨(dev [(F.globalWdtCtrl_SRC_HOST, 1)]).modPower fun x => { x with kick := some (.host, 0) }, .host, 0, by decide +kernel⟩,
    ⟨dev [], wordOf [(F.globalWdtCtrl_EN, 1), (F.globalWdtCtrl_TIMEOUT_MS, 1000)], by decide +kernel⟩,
    ⟨dev [(F.coreWdt_EN 7, 1), (F.coreWdt_TIMEOUT_MS 7, 1000)], wordOf [(F.globalWdtCtrl_EN, 1), (F.globalWdtCtrl_TIMEOUT_MS, 1000)], by decide +kernel⟩,
    ⟨dev [], wordOf [(F.globalResetCtrl_CHIP, 1), (F.globalResetCtrl_KEY, 0xC4A7)], by decide +kernel⟩,
    ⟨dev [], hostCmd [(0, 2, 0xC4A7)], by decide +kernel⟩⟩

theorem witness_LinkComesUp :
    (∃ (s : State) (p : Fin 128), s.up = true ∧ s.validPort p = true ∧ s.link p = 1) ∧
    (∃ (s : State) (p : Fin 128), s.up = true ∧ s.validPort p = true ∧ s.link p = 2) ∧
    (∃ (s : State) (p : Fin 128) (foms : List (BitVec 8)), s.up = true ∧ s.validPort p = true ∧ s.link p = 3 ∧ (∀ m ∈ s.portLanes p, s.fld (F.laneFom_MIN m) ≤ (foms.getD (m - p) 0).toNat) ∧ (∀ m ∈ s.portLanes p, m < 128)) ∧
    (∃ (s : State) (p : Fin 128), s.up = true ∧ s.validPort p = true ∧ s.link p = 4 ∧ s.aligned p = true) ∧
    (∃ (s : State) (p : Fin 128), s.up = true ∧ s.validPort p = true ∧ s.link p = 7 ∧ (s.lane p).enterTick + 1600000000 * (s.lane p).wait ≤ s.time.tick) :=
  ⟨⟨laneDev 0 [(F.laneCfg_EN 127, 1), (F.laneCfg_WIDTH 127, 0), (F.laneCfg_FEC 127, 0), (F.laneStatus_STATE 127, 1)], 127, by decide +kernel⟩,
    ⟨laneDev 0 [(F.laneCfg_EN 127, 1), (F.laneCfg_WIDTH 127, 0), (F.laneCfg_FEC 127, 0), (F.laneStatus_STATE 127, 2)], 127, by decide +kernel⟩,
    ⟨laneDev 0 [(F.laneCfg_EN 127, 1), (F.laneCfg_WIDTH 127, 0), (F.laneCfg_FEC 127, 0), (F.laneStatus_STATE 127, 3)], 127, [255], by decide +kernel⟩,
    ⟨laneDev 0 [(F.laneCfg_EN 127, 1), (F.laneCfg_WIDTH 127, 0), (F.laneCfg_FEC 127, 0), (F.laneStatus_STATE 127, 4)], 127, by decide +kernel⟩,
    ⟨laneDev 0 [(F.laneCfg_EN 127, 1), (F.laneCfg_WIDTH 127, 0), (F.laneCfg_FEC 127, 0), (F.laneStatus_STATE 127, 7)], 127, by decide +kernel⟩⟩

theorem witness_LinkFailsAndRecovers :
    (∃ (s : State) (p : Fin 128), s.up = true ∧ s.validPort p = true ∧ s.attempting p = true ∧ (s.lane p).attemptTick + 1600000 * s.attemptMs p ≤ s.time.tick) ∧
    (∃ (s : State) (p : Fin 128), s.up = true ∧ s.validPort p = true ∧ s.attempting p = true) ∧
    (∃ (s : State) (p : Fin 128) (mask : BitVec 8) (c : Instr), c ∈ [Instr.lockLost p mask, .signalLoss p mask] ∧ s.up = true ∧ s.validPort p = true ∧ s.link p = 5 ∧ (s.lane p).partnerL1 = false) ∧
    (∃ (s : State) (p : Fin 128) (mask : BitVec 8) (c : Instr), c ∈ [Instr.lockLost p mask, .signalLoss p mask] ∧ s.up = true ∧ s.validPort p = true ∧ s.link p = 5 ∧ (s.lane p).partnerL1 = true) ∧
    (∃ (s : State) (p : Fin 128), s.up = true ∧ s.validPort p = true ∧ s.link p = 6) ∧
    (∃ (s : State) (p : Fin 128), s.up = true ∧ s.validPort p = true ∧ s.link p = 6 ∧ s.fld (F.laneRelock_TRIES p) ≤ (s.lane p).tries) ∧
    (∃ (s : State) (p : Fin 128), s.up = true ∧ s.validPort p = true ∧ (s.lane p).exiting = true ∧ (s.link p = 11 ∨ s.link p = 12)) ∧
    (∃ (s : State) (p : Fin 128), s.up = true ∧ s.validPort p = true ∧ (s.lane p).exiting = true ∧ s.link p = 10) ∧
    (∃ (s : State) (m : Fin 128), s.up = true ∧ (s.owner m).any s.portUp = true ∧ bitAt s.cal.eye.toNat m = false ∧ s.burstDue m = true) :=
  ⟨⟨{ laneDev 0 [(F.laneCfg_EN 127, 1), (F.laneCfg_WIDTH 127, 0), (F.laneCfg_FEC 127, 0), (F.laneStatus_STATE 127, 2)] with time := { tick := 10 ^ 12 } }, 127, by decide +kernel⟩,
    ⟨laneDev 0 [(F.laneCfg_EN 127, 1), (F.laneCfg_WIDTH 127, 0), (F.laneCfg_FEC 127, 0), (F.laneStatus_STATE 127, 4)], 127, by decide +kernel⟩,
    ⟨laneDev 0 [(F.laneCfg_EN 127, 1), (F.laneCfg_WIDTH 127, 0), (F.laneCfg_FEC 127, 0), (F.laneStatus_STATE 127, 5)], 127, 1, .signalLoss 127 1, by decide +kernel⟩,
    ⟨{ laneDev 0 [(F.laneCfg_EN 127, 1), (F.laneCfg_WIDTH 127, 0), (F.laneCfg_FEC 127, 0), (F.laneStatus_STATE 127, 5)] with lanes := [(127, { partnerL1 := true })] }, 127, 1, .signalLoss 127 1, by decide +kernel⟩,
    ⟨laneDev 0 [(F.laneCfg_EN 127, 1), (F.laneCfg_WIDTH 127, 0), (F.laneCfg_FEC 127, 0), (F.laneStatus_STATE 127, 6)], 127, by decide +kernel⟩,
    ⟨{ laneDev 0 [(F.laneCfg_EN 127, 1), (F.laneCfg_WIDTH 127, 0), (F.laneCfg_FEC 127, 0), (F.laneStatus_STATE 127, 6)] with lanes := [(127, { tries := 15 })] }, 127, by decide +kernel⟩,
    ⟨{ laneDev 0 [(F.laneCfg_EN 127, 1), (F.laneCfg_WIDTH 127, 0), (F.laneCfg_FEC 127, 0), (F.laneStatus_STATE 127, 11)] with lanes := [(127, { exiting := true })] }, 127, by decide +kernel⟩,
    ⟨{ laneDev 0 [(F.laneCfg_EN 127, 1), (F.laneCfg_WIDTH 127, 0), (F.laneCfg_FEC 127, 0), (F.laneStatus_STATE 127, 10)] with lanes := [(127, { exiting := true })] }, 127, by decide +kernel⟩,
    ⟨laneDev 0 [(F.laneCfg_EN 127, 1), (F.laneCfg_WIDTH 127, 0), (F.laneCfg_FEC 127, 0), (F.laneStatus_STATE 127, 5)], 127, by decide +kernel⟩⟩

theorem witness_LaneWrites :
    (∃ (s : State) (n : Fin 128) (v : Word), s.up = true ∧ (s.laneCfgSet n v).headroomOk = true) ∧
    (∃ (s : State) (n : Fin 128) (v : Word), s.up = true ∧ (s.laneCfgSet n v).headroomOk = false) ∧
    (∃ (s : State), s.up = true) ∧
    (∃ (s : State) (n : Fin 128) (v : Word), s.up = true ∧ relockOk (v &&& rwMask (Reg.laneRelock n)) (s.fld (F.fabricPort_PORT_DOWN_HOLD_MS n)) = true) ∧
    (∃ (s : State) (n : Fin 128) (v : Word), s.up = true ∧ relockOk (v &&& rwMask (Reg.laneRelock n)) (s.fld (F.fabricPort_PORT_DOWN_HOLD_MS n)) = false) ∧
    (∃ (s : State), s.up = true) ∧
    (∃ (s : State), s.up = true) :=
  ⟨⟨dev [], 127, 0, by decide +kernel⟩,
    ⟨laneDev 0 [(F.laneCfg_EN 127, 1), (F.laneCfg_WIDTH 127, 0), (F.laneCfg_FEC 127, 0), (F.laneStatus_STATE 127, 5), (F.iaHr_HEADROOM 2047, 262143), (F.fabricCfg_LOSSLESS_MASK, 32768), (F.deepCfg_EN, 0)], 0, 0, by decide +kernel⟩,
    ⟨dev [], by decide +kernel⟩,
    ⟨dev [], 127, 0, by decide +kernel⟩,
    ⟨dev [], 127, 0xFFFFFFFF, by decide +kernel⟩,
    ⟨dev [], by decide +kernel⟩,
    ⟨dev [], by decide +kernel⟩⟩

theorem witness_LaneCommands :
    (∃ (s : State) (c : Cmd), s.takes c 0x0201 = true ∧ c.ok 2 = true ∧ s.portExists (c.fld 0 2) = true ∧ (¬(s.fetched c).link (c.fld 0 2) ∈ [0, 8, 9, 12])) ∧
    (∃ (s : State) (c : Cmd) (n : Nat), s.takes c 0x0202 = true ∧ c.ok 4 = true ∧ c.fld 2 1 = 1 ∧ c.fld 3 1 < 2 ∧ (s.fetched c).quarHead (c.fld 0 2) = none ∧ (s.fetched c).portOf (c.fld 0 2) = some n ∧ n < 128 ∧ (¬(s.fetched c).link n ∈ [0, 9, 12])) ∧
    (∃ (s : State) (c : Cmd), s.takes c 0x0203 = true ∧ c.ok 3 = true ∧ c.fld 2 1 = 2 ∧ s.portExists (c.fld 0 2) = true ∧ (s.fetched c).link (c.fld 0 2) = 5 ∨ (s.fetched c).link (c.fld 0 2) = 10) ∧
    (∃ (s : State) (c : Cmd) (i : Image), s.takes c 0x0204 = true ∧ c.ok 8 [(1, 3)] = true ∧ c.fld 0 1 < 32 ∧ (s.fetched c).stagedImage (c.fld 4 4) = some i ∧ i.component = 5 ∧ (s.fetched c).host.longOps.any LongOp.loadsUcode = false) ∧
    (∃ (s : State) (g : Fin 32) (o : LongOp), s.host.longOps.find? (fun o => o.loadsUcode && o.ucodeGroup == g.val) = some o ∧ o.op = 0x0204) ∧
    (∃ (s : State) (c : Cmd), s.takes c 0x0205 = true ∧ c.ok 16 [(4, 4)] = true ∧ 1 ≤ c.fld 2 1 ∧ c.fld 2 1 ≤ 128 ∧ 1 ≤ c.fld 3 1 ∧ c.fld 3 1 ≤ 128 ∧ c.fld 8 8 % 4 = 0 ∧ s.bufOk c.src (c.fld 8 8) (4 * c.fld 2 1 * c.fld 3 1) = true ∧ (s.fetched c).portExists (c.fld 0 2) = true) :=
  ⟨⟨laneDev 0 [(F.laneCfg_EN 127, 1), (F.laneCfg_WIDTH 127, 0), (F.laneCfg_FEC 127, 0), (F.laneStatus_STATE 127, 1)], hostCmd [(0, 2, 127)], by decide +kernel⟩,
    ⟨laneDev 0 [(F.laneCfg_EN 127, 1), (F.laneCfg_WIDTH 127, 0), (F.laneCfg_FEC 127, 0), (F.laneStatus_STATE 127, 5)], hostCmd [(0, 2, 127), (2, 1, 1)], 127, by decide +kernel⟩,
    ⟨laneDev 0 [(F.laneCfg_EN 127, 1), (F.laneCfg_WIDTH 127, 0), (F.laneCfg_FEC 127, 0), (F.laneStatus_STATE 127, 5)], hostCmd [(0, 2, 127), (2, 1, 2)], by decide +kernel⟩,
    ⟨{ dev [] with sec := { staged := [{ component := 5, version := 1 }] } }, hostCmd [(0, 1, 31), (4, 4, 0x5000000)], { component := 5, version := 1 }, by decide +kernel⟩,
    ⟨{ dev [] with host := { longOps := [{ handle := 16, op := 0x0204, res := 0x0204, tick := 0, state := .running, cmd := hostCmd [(0, 1, 31)], args := [31] }] } }, 31, { handle := 16, op := 0x0204, res := 0x0204, tick := 0, state := .running, cmd := hostCmd [(0, 1, 31)], args := [31] }, by decide +kernel⟩,
    ⟨laneDev 0 [(F.laneCfg_EN 127, 1), (F.laneCfg_WIDTH 127, 0), (F.laneCfg_FEC 127, 0), (F.laneStatus_STATE 127, 5)], hostCmd [(0, 2, 127), (2, 1, 128), (3, 1, 128), (8, 8, 0x1000)], by decide +kernel⟩⟩

theorem witness_KlMarkers :
    (∃ (s : State) (p : Fin 128) (m : KlMarker) (l : List (Fin 4)) (r : Run × Nat × List Bool × BitVec 64), s.up = true ∧ s.klRuns p = true ∧ s.klSymbols p m.symbols = some l ∧ klReceive (s.pam4 p) (s.lane p).rx.run l = r ∧ markerOk r.2.2.2 = false ∧ (s.portUp p = false ∨ (s.lane p).partnerL1 = true ∨ (s.lane p).rx.bad < 3)) ∧
    (∃ (s : State) (p : Fin 128) (m : KlMarker) (l : List (Fin 4)) (r : Run × Nat × List Bool × BitVec 64), s.up = true ∧ s.klRuns p = true ∧ s.klSymbols p m.symbols = some l ∧ klReceive (s.pam4 p) (s.lane p).rx.run l = r ∧ markerOk r.2.2.2 = false ∧ s.portUp p = true ∧ (s.lane p).partnerL1 = false ∧ 3 ≤ (s.lane p).rx.bad) ∧
    (∃ (s : State) (p : Fin 128) (m : KlMarker) (l : List (Fin 4)) (r : Run × Nat × List Bool × BitVec 64), s.up = true ∧ s.klRuns p = true ∧ s.klSymbols p m.symbols = some l ∧ klReceive (s.pam4 p) (s.lane p).rx.run l = r ∧ markerOk r.2.2.2 = true ∧ r.2.2.2.extractLsb' 40 8 = 1) ∧
    (∃ (s : State) (p : Fin 128) (m : KlMarker), s.up = true ∧ s.klRuns p = true ∧ s.klSymbols p m.symbols = none) ∧
    (∃ (s : State) (p : Fin 128) (st : StampIn) (t0 : Stamp) (y : KlTx × BitVec 64 × List (Fin 4)), s.up = true ∧ s.klRuns p = true ∧ (s.lane p).l1Due = false ∧ s.markerStamp p (s.captured p 1 st) false = t0 ∧ s.klNext p t0 = y) ∧
    (∃ (s : State) (p : Fin 128), s.up = true ∧ s.klRuns p = true ∧ (s.lane p).l1Due = true) ∧
    (∃ (x : KlTx), x.idx < 256) ∧
    (∃ (r : Run), r.2 < 24) ∧
    (∃ (l : List Bool), l.length % 2 = 0) :=
  ⟨⟨laneDev 512 [(F.laneCfg_EN 127, 1), (F.laneCfg_MODE 127, 1), (F.laneCfg_WIDTH 127, 0), (F.laneCfg_FEC 127, 0), (F.laneStatus_STATE 127, 4)], 127, { symbols := klSyms 0 }, klSyms 0, klReceive false (0, 0) (klSyms 0), by decide +kernel⟩,
    ⟨{ laneDev 512 [(F.laneCfg_EN 127, 1), (F.laneCfg_MODE 127, 1), (F.laneCfg_WIDTH 127, 0), (F.laneCfg_FEC 127, 0), (F.laneStatus_STATE 127, 5)] with lanes := [(127, { rx := { bad := 3 } })] }, 127, { symbols := klSyms 0 }, klSyms 0, klReceive false (0, 0) (klSyms 0), by decide +kernel⟩,
    ⟨laneDev 512 [(F.laneCfg_EN 127, 1), (F.laneCfg_MODE 127, 1), (F.laneCfg_WIDTH 127, 0), (F.laneCfg_FEC 127, 0), (F.laneStatus_STATE 127, 5)], 127, { symbols := klSyms klWord }, klSyms klWord, klReceive false (0, 0) (klSyms klWord), by decide +kernel⟩,
    ⟨laneDev 512 [(F.laneCfg_EN 127, 1), (F.laneCfg_MODE 127, 1), (F.laneCfg_WIDTH 127, 0), (F.laneCfg_FEC 127, 0), (F.laneStatus_STATE 127, 9), (F.laneLoop_MODE 127, 1)], 127, { symbols := klSyms 0 }, by decide +kernel⟩,
    ⟨laneDev 512 [(F.laneCfg_EN 127, 1), (F.laneCfg_MODE 127, 1), (F.laneCfg_WIDTH 127, 0), (F.laneCfg_FEC 127, 0), (F.laneStatus_STATE 127, 5)], 127, {}, _, _, by decide +kernel, by decide +kernel, by decide +kernel, rfl, rfl⟩,
    ⟨{ laneDev 512 [(F.laneCfg_EN 127, 1), (F.laneCfg_MODE 127, 1), (F.laneCfg_WIDTH 127, 0), (F.laneCfg_FEC 127, 0), (F.laneStatus_STATE 127, 5)] with lanes := [(127, { l1Announce := true, l1Sent := true })] }, 127, by decide +kernel⟩,
    ⟨{ idx := 255 }, by decide +kernel⟩,
    ⟨(3, 23), by decide +kernel⟩,
    ⟨[true, false], by decide +kernel⟩⟩

theorem witness_PauseRules :
    (∃ (s : State) (n : Fin 128) (p : PauseIn), s.up = true ∧ s.portUp n = true ∧ p.pfc = false ∧ s.quiet = false ∧ s.pauseMode n = 1 ∧ bitAt (s.mac n).ignore.toNat 0 = false ∧ (p.quanta.getD 0 0).toNat ≠ 0) ∧
    (∃ (s : State) (n : Fin 128) (p : Fin 8), Tab.get (s.mac n).pauseEnd 0 p ≠ 0 ∧ Tab.get (s.mac n).pauseEnd 0 p ≤ s.time.tick) ∧
    (∃ (s : State) (n : Fin 128) (pris : BitVec 8) (m : Nat), s.up = true ∧ s.fld (F.portStorm_MS n) ≠ 0 ∧ m = idxMask ((maskIdx 8 pris.toNat).filter fun p => !bitAt (s.fld (F.portPauseStatus_STORM n)) p && (Tab.find p (s.mac n).stopTick).any fun t => decide (t + s.stormTicks n ≤ s.time.tick)) ∧ m ≠ 0) ∧
    (∃ (s : State) (n : Fin 128) (p : Fin 8), bitAt (s.mac n).ignore.toNat p = true ∧ Tab.get (s.mac n).pauseTick 0 p + s.stormTicks n ≤ s.time.tick) ∧
    (∃ (s : State) (n : Fin 128) (l : List (BitVec 8)), s.refreshDue n ≠ 0 ∧ s.pauseMode n ≠ 0 ∧ s.quiet = false ∧ s.portUp n = true ∧ l = s.pauseFrame n (s.refreshDue n) (fun p => if bitAt (s.refreshDue n) p then s.fld (F.portPause_TX_QUANTA n) else 0)) ∧
    (∃ (s : State) (v : Word), s.up = true ∧ v.getLsbD 8 = false) :=
  ⟨⟨laneDev 0 [(F.laneCfg_EN 127, 1), (F.laneCfg_WIDTH 127, 0), (F.laneCfg_FEC 127, 0), (F.laneStatus_STATE 127, 5), (F.portCfg_PAUSE_MODE 127, 1)], 127, { pfc := false, quanta := [0xFFFF] }, by decide +kernel⟩,
    ⟨{ dev [] with ports := { mac := [(127, { pauseEnd := [(7, 9)] })] }, time := { tick := 9 } }, 127, 7, by decide +kernel⟩,
    ⟨{ dev [(F.portStorm_MS 127, 1)] with ports := { mac := [(127, { pauseEnd := [(7, 10 ^ 9)], stopTick := [(7, 0)] })] }, time := { tick := 1600000 } }, 127, 0x80, 0x80, by decide +kernel⟩,
    ⟨{ dev [] with ports := { mac := [(127, { pauseEnd := [(7, 9)], ignore := 0x80 })] } }, 127, 7, by decide +kernel⟩,
    ⟨{ laneDev 0 [(F.laneCfg_EN 127, 1), (F.laneCfg_WIDTH 127, 0), (F.laneCfg_FEC 127, 0), (F.laneStatus_STATE 127, 5), (F.portCfg_PAUSE_MODE 127, 1), (F.portPauseStatus_TX_XOFF 127, 1)] with time := { tick := 10 ^ 9 } }, 127, _, by decide +kernel, by decide +kernel, by decide +kernel, by decide +kernel, rfl⟩,
    ⟨dev [], 1, by decide +kernel⟩⟩

theorem witness_SnapshotsAndModules :
    (∃ (s : State) (c : Cmd), s.takes c 0x0301 = true ∧ c.ok 40 [(26, 6)] = true ∧ c.fld 22 4 < 100000 ∧ c.fld 32 8 % 64 = 0 ∧ s.bufOk c.src (c.fld 32 8) (64 + 576 * (s.ports'.filter (bitAt (c.fld 0 16))).length) = true ∧ s.nameOk (c.fld 22 4) (boundaryName (c.fld 16 6) (c.fld 22 4)) = true ∧ (s.fetched c).ports.snap = none) ∧
    (∃ (s : State) (x : SnapXfer) (p : Parked), s.ports.xfer = some x ∧ x.src = .host ∧ s.parkedAt x.id = some p ∧ p.lost = false) ∧
    (∃ (s : State) (c : Cmd), s.takes c 0x0302 = true ∧ c.ok 16 [(5, 3)] = true ∧ c.fld 0 1 < 64 ∧ modRangeOk (c.fld 3 1) (c.fld 4 1) 128 = true ∧ s.bufOk c.src (c.fld 8 8) (c.fld 4 1) = true) ∧
    (∃ (s : State) (c : Cmd), s.takes c 0x0303 = true ∧ c.ok 16 [(5, 3)] = true ∧ c.fld 0 1 < 64 ∧ modRangeOk (c.fld 3 1) (c.fld 4 1) 8 = true) ∧
    (∃ (s : State) (c : Cmd), s.takes c 0x0304 = true ∧ c.ok 2 = true ∧ c.fld 0 1 < 64 ∧ c.fld 1 1 < 8) ∧
    (∃ (s : State) (b : Fin 16) (x : I2cXfer) (rest : List I2cXfer) (p : Parked), (s.bus b).xfers = x :: rest ∧ x.retryAt = none ∧ x.src = .host ∧ x.nacks = 0 ∧ s.parkedAt x.id = some p ∧ p.lost = false) ∧
    (∃ (s : State) (b : Fin 16) (x : I2cXfer) (rest : List I2cXfer), (s.bus b).xfers = x :: rest ∧ x.retryAt = none ∧ x.nacks < s.fld (F.portI2c_RETRIES b)) ∧
    (∃ (s : State) (b : Fin 16) (x : I2cXfer) (rest : List I2cXfer) (w : Nat), (s.bus b).xfers = x :: rest ∧ x.retryAt = some w ∧ w ≤ s.time.tick) ∧
    (∃ (s : State), s.up = true) ∧
    (∃ (s : State) (m : Fin 64) (present : Bool), s.up = true ∧ s.flag (F.portMod_PRESENT m) ≠ present) :=
  ⟨⟨dev [], hostCmd [(32, 8, 0x1000)], by decide +kernel⟩,
    ⟨{ dev [] with ports := { xfer := some { id := 3, src := .host, addr := 0x1000, len := 64, data := 1 } }, host := { parked := [{ id := 3, cmd := hostCmd [], op := 0x0103 }] } }, { id := 3, src := .host, addr := 0x1000, len := 64, data := 1 }, { id := 3, cmd := hostCmd [], op := 0x0103 }, by decide +kernel⟩,
    ⟨dev [(F.portMod_PRESENT 63, 1)], hostCmd [(0, 1, 63), (3, 1, 128), (4, 1, 128)], by decide +kernel⟩,
    ⟨dev [(F.portMod_PRESENT 63, 0)], hostCmd [(0, 1, 63), (3, 1, 120), (4, 1, 8)], by decide +kernel⟩,
    ⟨dev [], hostCmd [(0, 1, 63), (1, 1, 7)], by decide +kernel⟩,
    ⟨{ dev [] with ports := { bus := [(15, { xfers := [{ id := 3, src := .host, slot := 63, write := false, bank := 0, page := 0, offset := 0, len := 2, addr := 0x1000, data := 0 }] })] }, host := { parked := [{ id := 3, cmd := hostCmd [], op := 0x0103 }] } }, 15, { id := 3, src := .host, slot := 63, write := false, bank := 0, page := 0, offset := 0, len := 2, addr := 0x1000, data := 0 }, [], { id := 3, cmd := hostCmd [], op := 0x0103 }, by decide +kernel⟩,
    ⟨{ dev [(F.portI2c_RETRIES 15, 2)] with ports := { bus := [(15, { xfers := [{ id := 3, src := .host, slot := 63, write := false, bank := 0, page := 0, offset := 0, len := 2, addr := 0x1000, data := 0 }] })] }, host := { parked := [{ id := 3, cmd := hostCmd [], op := 0x0103 }] } }, 15, { id := 3, src := .host, slot := 63, write := false, bank := 0, page := 0, offset := 0, len := 2, addr := 0x1000, data := 0 }, [], by decide +kernel⟩,
    ⟨{ dev [] with ports := { bus := [(15, { xfers := [{ id := 3, src := .host, slot := 63, write := false, bank := 0, page := 0, offset := 0, len := 2, addr := 0x1000, data := 0, retryAt := some 0 }] })] }, host := { parked := [{ id := 3, cmd := hostCmd [], op := 0x0103 }] } }, 15, { id := 3, src := .host, slot := 63, write := false, bank := 0, page := 0, offset := 0, len := 2, addr := 0x1000, data := 0, retryAt := some 0 }, [], 0, by decide +kernel⟩,
    ⟨dev [], by decide +kernel⟩,
    ⟨dev [(F.portMod_PRESENT 63, 0)], 63, true, by decide +kernel⟩⟩

theorem witness_Generations :
    (∃ (s : State) (c : Cmd), s.takes c 0x0401 = true ∧ c.ok 16 [(2, 2), (14, 2)] = true ∧ c.fld 0 1 < 16 ∧ c.fld 1 1 < 2 ∧ s.nameOk (c.fld 10 4) (boundaryName (c.fld 4 6) (c.fld 10 4)) = true ∧ (∀ p ∈ maskIdx 4 (c.fld 0 1), (s.fetched c).flag (F.pipeGenStatus_COMMIT_WAIT p) = false)) ∧
    (∃ (s : State) (p : Fin 4), s.drnValid p = true ∧ s.fld (F.pipeGenDrain_COUNT p) = 0) ∧
    (∃ (s : State) (c : Cmd), s.takes c 0x0402 = true ∧ c.ok 1 = true ∧ c.fld 0 1 < 16 ∧ (∀ p ∈ maskIdx 4 (c.fld 0 1), (s.fetched c).pendOpen p = true)) ∧
    (∃ (s : State) (c : Cmd) (prog : ParseProg) (crcOk : Bool), s.takes c 0x0403 = true ∧ c.ok 16 [(1, 3)] = true ∧ c.fld 0 1 < 16 ∧ 64 ≤ c.fld 4 4 ∧ c.fld 4 4 ≤ 16448 ∧ s.bufOk c.src (c.fld 8 8) (c.fld 4 4) = true ∧ prog.valid crcOk = true ∧ (∀ p ∈ maskIdx 4 (c.fld 0 1), (s.fetched c).pendOpen p = true)) ∧
    (∃ (s : State) (c : Cmd), s.takes c 0x0404 = true ∧ c.ok 1 = true ∧ c.fld 0 1 < 16) ∧
    (∃ (s : State) (p : Fin 4) (i : Fin 1024), (Tab.find i (s.pipe p).parser.frags).any (s.fragOver p) = true) :=
  ⟨⟨dev [], hostCmd [(0, 1, 15)], by decide +kernel⟩,
    ⟨dev [(F.pipeGenStatus_DRN_VALID 3, 1)], 3, by decide +kernel⟩,
    ⟨dev [(F.pipeGenStatus_PEND_OPEN 0, 1), (F.pipeGenStatus_PEND_OPEN 1, 1), (F.pipeGenStatus_PEND_OPEN 2, 1), (F.pipeGenStatus_PEND_OPEN 3, 1)], hostCmd [(0, 1, 15)], by decide +kernel⟩,
    ⟨dev [(F.pipeGenStatus_PEND_OPEN 0, 1), (F.pipeGenStatus_PEND_OPEN 1, 1), (F.pipeGenStatus_PEND_OPEN 2, 1), (F.pipeGenStatus_PEND_OPEN 3, 1)], hostCmd [(0, 1, 15), (4, 4, 64), (8, 8, 0x1000)], { format := 1, version := 1, start := 0, keyInner := false, nodes := [{ kind := 1 }] }, true, by decide +kernel⟩,
    ⟨dev [], hostCmd [(0, 1, 15)], by decide +kernel⟩,
    ⟨{ dev [(F.pipeFragStatus_USED 3, 1)] with pipes := { pipe := [(3, { parser := { frags := [(1023, { key := 1, action := 0, cls := 0, meas := false })] } })] }, time := { tick := 10 ^ 9 } }, 3, 1023, by decide +kernel⟩⟩

theorem witness_ParserWindow :
    (∃ (s : State) (p : Fin 4) (w : Word) (e : TcamEntry), s.up = true ∧ (F.pipeWinCtrl_GO p).of w = 1 ∧ (F.pipeWinCtrl_TARGET p).of w = 0 ∧ Tab.find ((F.pipeWinCtrl_INDEX p).of w) (s.pipe p).parser.tcam = some e ∧ inView e.view ((F.pipeWinCtrl_VIEW p).of w) = true) ∧
    (∃ (s : State) (p : Fin 4) (w : Word), s.up = true ∧ (F.pipeWinCtrl_GO p).of w = 1 ∧ (F.pipeWinCtrl_TARGET p).of w = 0 ∧ Tab.find ((F.pipeWinCtrl_INDEX p).of w) (s.pipe p).parser.tcam = none) ∧
    (∃ (s : State) (p : Fin 4) (w : Word), s.up = true ∧ (F.pipeWinCtrl_GO p).of w = 1 ∧ (F.pipeWinCtrl_TARGET p).of w = 0 ∧ s.pendOpen p = true ∧ Tab.find ((F.pipeWinCtrl_INDEX p).of w) (s.pipe p).parser.tcam = none) ∧
    (∃ (s : State) (p : Fin 4) (w : Word) (e : TcamEntry), s.up = true ∧ (F.pipeWinCtrl_GO p).of w = 1 ∧ (F.pipeWinCtrl_TARGET p).of w = 0 ∧ s.pendOpen p = true ∧ Tab.find ((F.pipeWinCtrl_INDEX p).of w) (s.pipe p).parser.tcam = some e ∧ e.view = 1) :=
  ⟨⟨{ dev [(F.pipeGenStatus_PEND_OPEN 0, 1), (F.pipeGenStatus_PEND_OPEN 1, 1), (F.pipeGenStatus_PEND_OPEN 2, 1), (F.pipeGenStatus_PEND_OPEN 3, 1)] with pipes := { pipe := [(3, { parser := { tcam := [(7, { value := 5, view := 1 })] } })] } }, 3, wordOf [(F.pipeWinCtrl_GO 3, 1), (F.pipeWinCtrl_INDEX 3, 7)], { value := 5, view := 1 }, by decide +kernel⟩,
    ⟨dev [(F.pipeGenStatus_PEND_OPEN 0, 1), (F.pipeGenStatus_PEND_OPEN 1, 1), (F.pipeGenStatus_PEND_OPEN 2, 1), (F.pipeGenStatus_PEND_OPEN 3, 1)], 3, wordOf [(F.pipeWinCtrl_GO 3, 1), (F.pipeWinCtrl_INDEX 3, 7)], by decide +kernel⟩,
    ⟨dev [(F.pipeGenStatus_PEND_OPEN 0, 1), (F.pipeGenStatus_PEND_OPEN 1, 1), (F.pipeGenStatus_PEND_OPEN 2, 1), (F.pipeGenStatus_PEND_OPEN 3, 1)], 3, wordOf [(F.pipeWinCtrl_GO 3, 1), (F.pipeWinCtrl_INDEX 3, 7)], by decide +kernel⟩,
    ⟨{ dev [(F.pipeGenStatus_PEND_OPEN 0, 1), (F.pipeGenStatus_PEND_OPEN 1, 1), (F.pipeGenStatus_PEND_OPEN 2, 1), (F.pipeGenStatus_PEND_OPEN 3, 1)] with pipes := { pipe := [(3, { parser := { tcam := [(7, { value := 5, view := 1 })] } })] } }, 3, wordOf [(F.pipeWinCtrl_GO 3, 1), (F.pipeWinCtrl_INDEX 3, 7)], { value := 5, view := 1 }, by decide +kernel⟩⟩

theorem witness_TableWindow :
    (∃ (s : State) (p : Fin 4) (w : Word) (r : BitVec 192 × BitVec 3), s.up = true ∧ (F.pipeTwinCtrl_GO p).of w = 1 ∧ (F.pipeTwinCtrl_INDEX p).of w < twinRange ((F.pipeTwinCtrl_TARGET p).of w) ∧ twinRead (s.pipe p).fwd ((F.pipeTwinCtrl_TARGET p).of w) ((F.pipeTwinCtrl_VIEW p).of w) ((F.pipeTwinCtrl_INDEX p).of w) = some r) ∧
    (∃ (s : State) (p : Fin 4) (w : Word) (k : Nat), s.up = true ∧ (F.pipeTwinCtrl_GO p).of w = 1 ∧ (F.pipeTwinCtrl_TARGET p).of w = 0 ∧ s.pendOpen p = true ∧ (F.pipeTwinCtrl_INDEX p).of w < 65536 ∧ ((genSlots 0 ((F.pipeTwinCtrl_INDEX p).of w)).any fun k => (Tab.find k (s.pipe p).fwd.em).any fun r => inView r.view 0) = false ∧ ((genSlots 0 ((F.pipeTwinCtrl_INDEX p).of w)).find? fun k => (Tab.find k (s.pipe p).fwd.em).isNone) = some k) ∧
    (∃ (s : State) (p : Fin 4) (w : Word) (k : Nat), s.up = true ∧ (F.pipeTwinCtrl_GO p).of w = 1 ∧ (F.pipeTwinCtrl_TARGET p).of w = 0 ∧ s.pendOpen p = true ∧ (F.pipeTwinCtrl_INDEX p).of w < 65536 ∧ ((genSlots 0 ((F.pipeTwinCtrl_INDEX p).of w)).find? fun k => (Tab.find k (s.pipe p).fwd.em).any fun r => inView r.view 0) = some k) ∧
    (∃ (s : State) (p : Fin 4) (w : Word) (i : Nat), s.up = true ∧ (F.pipeTwinCtrl_GO p).of w = 1 ∧ twinFind (s.pipe p).fwd ((F.pipeTwinCtrl_TARGET p).of w) ((F.pipeTwinCtrl_VIEW p).of w) (s.twinWords p) = some i) ∧
    (∃ (s : State) (p : Fin 4) (w : Word), s.up = true ∧ (F.pipeTwinCtrl_GO p).of w = 1 ∧ (F.pipeTwinCtrl_TARGET p).of w = 2 ∧ (s.pipe p).fwd.queue.length < 1024) :=
  ⟨⟨{ dev [(F.pipeGenStatus_PEND_OPEN 0, 1), (F.pipeGenStatus_PEND_OPEN 1, 1), (F.pipeGenStatus_PEND_OPEN 2, 1), (F.pipeGenStatus_PEND_OPEN 3, 1)] with pipes := { pipe := [(3, { fwd := { em := [(14, { words := 9, view := 1 })] } })] } }, 3, wordOf [(F.pipeTwinCtrl_GO 3, 1), (F.pipeTwinCtrl_INDEX 3, 7)], (9, 1), by decide +kernel⟩,
    ⟨dev [(F.pipeGenStatus_PEND_OPEN 0, 1), (F.pipeGenStatus_PEND_OPEN 1, 1), (F.pipeGenStatus_PEND_OPEN 2, 1), (F.pipeGenStatus_PEND_OPEN 3, 1)], 3, wordOf [(F.pipeTwinCtrl_GO 3, 1), (F.pipeTwinCtrl_INDEX 3, 7)], 14, by decide +kernel⟩,
    ⟨{ dev [(F.pipeGenStatus_PEND_OPEN 0, 1), (F.pipeGenStatus_PEND_OPEN 1, 1), (F.pipeGenStatus_PEND_OPEN 2, 1), (F.pipeGenStatus_PEND_OPEN 3, 1)] with pipes := { pipe := [(3, { fwd := { em := [(14, { words := 9, view := 1 })] } })] } }, 3, wordOf [(F.pipeTwinCtrl_GO 3, 1), (F.pipeTwinCtrl_INDEX 3, 7)], 14, by decide +kernel⟩,
    ⟨{ dev [(F.pipeGenStatus_PEND_OPEN 0, 1), (F.pipeGenStatus_PEND_OPEN 1, 1), (F.pipeGenStatus_PEND_OPEN 2, 1), (F.pipeGenStatus_PEND_OPEN 3, 1)] with pipes := { pipe := [(3, { fwd := { mac := [(5, { mac := 0, bd := 0 })] } })] } }, 3, wordOf [(F.pipeTwinCtrl_GO 3, 1), (F.pipeTwinCtrl_TARGET 3, 2)], 5, by decide +kernel⟩,
    ⟨dev [], 3, wordOf [(F.pipeTwinCtrl_GO 3, 1), (F.pipeTwinCtrl_TARGET 3, 2)], by decide +kernel⟩⟩

theorem witness_LearningAndAgeing :
    (∃ (s : State) (p : Fin 4) (q : LearnReq) (rest : List LearnReq), s.up = true ∧ (s.pipe p).fwd.queue = q :: rest ∧ (s.pipe p).fwd.busyTo ≤ s.time.tick) ∧
    (∃ (s : State) (p : Fin 4) (i : Nat) (e : MacEntry), Tab.find i (s.pipe p).fwd.mac = some e ∧ e.view = 0 ∧ s.inDip = false ∧ s.fld (F.coreStatus_STATE 3) = 1 ∧ s.ageing p = true) ∧
    (∃ (s : State) (p : Fin 4) (i : Nat) (e : MacEntry), Tab.find i (s.pipe p).fwd.mac = some e ∧ e.view = 0 ∧ e.age = 3 ∧ e.hit = false ∧ s.ageing p = true) ∧
    (∃ (s : State) (c : Cmd), s.takes c 0x0406 = true ∧ c.ok 6 [(3, 1)] = true ∧ c.fld 0 1 < 16 ∧ c.fld 1 1 = 1 ∧ c.fld 2 1 < 128) ∧
    (∃ (s : State) (j : FlushJob) (rest : List FlushJob) (q : Parked), s.pipes.flush = j :: rest ∧ s.parkedAt j.id = some q ∧ q.lost = false) ∧
    (∃ (s : State) (c : Cmd), s.takes c 0x0405 = true ∧ c.ok 16 [(3, 1)] = true ∧ c.fld 0 1 < 16 ∧ c.fld 1 1 < 7 ∧ c.fld 2 1 = 0 ∧ c.fld 8 8 % 64 = 0 ∧ s.bufOk c.src (c.fld 8 8) (32 * c.fld 4 4) = true ∧ (s.fetched c).longBarred = false ∧ (s.fetched c).freeLong.isSome = true) :=
  ⟨⟨{ dev [] with pipes := { pipe := [(3, { fwd := { queue := [{ mac := 2, bd := 1, dest := 5 }] } })] } }, 3, { mac := 2, bd := 1, dest := 5 }, [], by decide +kernel⟩,
    ⟨{ dev [(F.pipeFwdCfg_AGE_S 3, 1), (F.coreStatus_STATE 3, 1)] with pipes := { pipe := [(3, { fwd := { mac := [(5, { mac := 2, age := 3 })] } })] } }, 3, 5, { mac := 2, age := 3 }, by decide +kernel⟩,
    ⟨{ dev [(F.pipeFwdCfg_AGE_S 3, 1), (F.coreStatus_STATE 3, 1)] with pipes := { pipe := [(3, { fwd := { mac := [(5, { mac := 2, age := 3 })] } })] } }, 3, 5, { mac := 2, age := 3 }, by decide +kernel⟩,
    ⟨dev [], hostCmd [(0, 1, 15), (1, 1, 1), (2, 1, 127)], by decide +kernel⟩,
    ⟨{ dev [] with pipes := { flush := [⟨3, 4⟩] }, host := { parked := [{ id := 3, cmd := hostCmd [], op := 0x0103 }] } }, ⟨3, 4⟩, [], { id := 3, cmd := hostCmd [], op := 0x0103 }, by decide +kernel⟩,
    ⟨dev [], hostCmd [(0, 1, 15), (1, 1, 6), (4, 4, 1)], by decide +kernel⟩⟩

theorem witness_FrameIngress :
    (∃ (s : State) (n : Fin 128) (f : RxFrame) (g : RxFrame) (l : List Byte), s.up = true ∧ s.portUp n = true ∧ s.framed n f = some g ∧ l = g.bytes ∧ s.macFlags n g = 0 ∧ 64 ≤ l.length ∧ l.length ≤ s.maxFrame n ∧ fb2 l 12 ≠ 0x8808 ∧ s.passes n (fbN l 0 6) (bitAt (fb l 0) 0) = true ∧ s.quiet = false ∧ s.fld (F.fabricSample_N n) = 0) ∧
    (∃ (s : State) (n : Fin 128) (f : RxFrame), s.up = true ∧ s.portUp n = true ∧ s.framed n f = none) ∧
    (∃ (s : State) (n : Fin 128) (f : RxFrame) (g : RxFrame) (l : List Byte), s.up = true ∧ s.portUp n = true ∧ s.framed n f = some g ∧ l = g.bytes ∧ 14 ≤ l.length ∧ fb2 l 12 ≠ 0x8808 ∧ s.passes n (fbN l 0 6) (bitAt (fb l 0) 0) = false) ∧
    (∃ (s : State) (i : Nat) (f : Frame), s.frame i = some f ∧ f.decided = false) ∧
    (∃ (s : State) (i : Nat) (f : Frame), s.frame i = some f ∧ f.checked = false) :=
  ⟨⟨laneDev 0 [(F.laneCfg_EN 127, 1), (F.laneCfg_WIDTH 127, 0), (F.laneCfg_FEC 127, 0), (F.laneStatus_STATE 127, 5), (F.portCfg_PROMISC 127, 1), (F.fabricStatus_FREE, 1)], 127, { bytes := goodFrame }, { bytes := goodFrame }, goodFrame, by decide +kernel⟩,
    ⟨laneDev 0 [(F.laneCfg_EN 127, 1), (F.laneCfg_WIDTH 127, 0), (F.laneCfg_FEC 127, 0), (F.laneStatus_STATE 127, 5), (F.portCfg_PROMISC 127, 1), (F.fabricStatus_FREE, 1)], 127, { lead := [], bytes := goodFrame }, by decide +kernel⟩,
    ⟨laneDev 0 [(F.laneCfg_EN 127, 1), (F.laneCfg_WIDTH 127, 0), (F.laneCfg_FEC 127, 0), (F.laneStatus_STATE 127, 5), (F.portCfg_PROMISC 127, 0)], 127, { bytes := List.replicate 64 2 }, { bytes := List.replicate 64 2 }, List.replicate 64 2, by decide +kernel⟩,
    ⟨{ dev [] with fabric := { frames := [{ id := 5, port := 127, bytes := goodFrame, len := 64, stamp := 0, beat := 0, gen := 0, flags := 0 }] } }, 5, { id := 5, port := 127, bytes := goodFrame, len := 64, stamp := 0, beat := 0, gen := 0, flags := 0 }, by decide +kernel⟩,
    ⟨{ dev [] with fabric := { frames := [{ id := 5, port := 127, bytes := goodFrame, len := 64, stamp := 0, beat := 0, gen := 0, flags := 0 }] } }, 5, { id := 5, port := 127, bytes := goodFrame, len := 64, stamp := 0, beat := 0, gen := 0, flags := 0 }, by decide +kernel⟩⟩

theorem witness_FrameEgress :
    (∃ (s : State), s.up = true) ∧
    (∃ (s : State) (q : Fin 128) (k : Nat) (x : Copy), s.up = true ∧ s.portUp q = true ∧ s.sendingAt q = false ∧ Tab.get s.fabric.staged none q = none ∧ s.ownReady q = false ∧ (∀ j < 16, s.fld (F.eqSched_MAX_AGE_MS (16 * q.val + j)) = 0) ∧ k < 16 ∧ bitAt (s.fld (F.fabricSp_SP_MASK q)) k = true ∧ s.eligibleEq q k = true ∧ (∀ j < 16, k < j → bitAt (s.fld (F.fabricSp_SP_MASK q)) j = true → s.eligibleEq q j = false) ∧ s.eqHead q k = some x) ∧
    (∃ (s : State) (q : Fin 128) (st : StampIn) (c : Copy) (f : Frame) (g : Frame), Tab.get s.fabric.tx none q = some c ∧ s.frame c.frame = some f ∧ g = (if s.dipAt (s.txStamp q (s.captured q 1 st)) then { f with flags := f.flags ||| 0x800 } else f)) ∧
    (∃ (s : State) (i : Nat) (q : Fin 128) (x : Copy), (s.fabric.voq.find? fun x => x.frame == i && x.q == q.val && x.mc) = some x ∧ s.waitOver x = true) ∧
    (∃ (s : State) (q : Fin 128), s.fld (F.fabricPort_HOLD_STATE q) = 1 ∧ s.portUp q = false ∧ Tab.get s.fabric.holdTick 0 q + 1600000 * max 1 (s.fld (F.fabricPort_PORT_DOWN_HOLD_MS q)) ≤ s.time.tick) :=
  ⟨⟨dev [], by decide +kernel⟩,
    ⟨{ laneDev 0 [(F.laneCfg_EN 127, 1), (F.laneCfg_WIDTH 127, 0), (F.laneCfg_FEC 127, 0), (F.laneStatus_STATE 127, 5), (F.fabricSp_SP_MASK 127, 0x8000)] with fabric := { eq := [{ frame := 5, port := 127, q := 127, cls := 15, cells := 1, adm := 1 }], frames := [{ id := 5, port := 127, bytes := goodFrame, len := 64, stamp := 0, beat := 0, gen := 0, flags := 0 }] } }, 127, 15, { frame := 5, port := 127, q := 127, cls := 15, cells := 1, adm := 1 }, by decide +kernel⟩,
    ⟨{ laneDev 0 [(F.laneCfg_EN 127, 1), (F.laneCfg_WIDTH 127, 0), (F.laneCfg_FEC 127, 0), (F.laneStatus_STATE 127, 5)] with fabric := { eq := [{ frame := 5, port := 127, q := 127, cls := 15, cells := 1, adm := 1 }], frames := [{ id := 5, port := 127, bytes := goodFrame, len := 64, stamp := 0, beat := 0, gen := 0, flags := 0, refs := 1, checked := true, decided := true }], tx := [(127, some { frame := 5, port := 127, q := 127, cls := 15, cells := 1, adm := 1 })] } }, 127, {}, { frame := 5, port := 127, q := 127, cls := 15, cells := 1, adm := 1 }, { id := 5, port := 127, bytes := goodFrame, len := 64, stamp := 0, beat := 0, gen := 0, flags := 0, refs := 1, checked := true, decided := true }, { id := 5, port := 127, bytes := goodFrame, len := 64, stamp := 0, beat := 0, gen := 0, flags := 0, refs := 1, checked := true, decided := true }, by decide +kernel⟩,
    ⟨{ dev [(F.eqLim_E_LIMIT (16 * 127 + 15), 0)] with fabric := { voq := [{ frame := 5, port := 127, q := 127, cls := 15, cells := 1, mc := true, since := some 0 }], frames := [{ id := 5, port := 127, bytes := goodFrame, len := 64, stamp := 0, beat := 0, gen := 0, flags := 0, refs := 1, checked := true, decided := true }] }, time := { tick := 10 ^ 12 } }, 5, 127, { frame := 5, port := 127, q := 127, cls := 15, cells := 1, mc := true, since := some 0 }, by decide +kernel⟩,
    ⟨{ dev [(F.fabricPort_HOLD_STATE 127, 1)] with time := { tick := 10 ^ 12 } }, 127, by decide +kernel⟩⟩

theorem witness_DeepBuffer :
    (∃ (s : State) (i : Fin 2048), Tab.get s.fabric.spillOpen [] i ≠ []) ∧
    (∃ (s : State) (i : Fin 2048), Tab.get s.fabric.hrOpen [] i ≠ []) ∧
    (∃ (s : State) (i : Fin 2048) (hr : Bool), Tab.get (if hr then s.fabric.hrOpen else s.fabric.spillOpen) [] i = []) ∧
    (∃ (s : State) (i : Fin 2048) (k : Nat) (u : List CellRef) (rest : List (List CellRef)), Tab.get s.fabric.hrUnits [] i = u :: rest ∧ s.milletRoom 1 u.length = true ∧ s.nextStack = some k) ∧
    (∃ (s : State) (i : Fin 2048) (k : Nat) (u : List CellRef) (rest : List (List CellRef)), s.inDip = false ∧ Tab.get s.fabric.spillUnits [] i = u :: rest ∧ s.milletRoom 3 u.length = true ∧ u.length ≤ s.deepFree ∧ s.nextStack = some k) ∧
    (∃ (s : State) (i : Fin 2048) (k : Fin 4) (run : List (CellRef × Loc)), run = s.refillRun (i.val / 16) (i.val % 16) ∧ (∃ p ∈ run, p.2 = .deep k false ∨ p.2 = .deep k true) ∧ s.onDieHead (i.val / 16) (i.val % 16) < s.fld (F.eqSpill_REFILL i) ∧ s.milletRoom (if s.onDieHead (i.val / 16) (i.val % 16) < s.fld (F.eqSpill_REFILL i) / 2 then 2 else 4) run.length = true) ∧
    (∃ (s : State) (c : Cmd), s.takes c 0x0501 = true ∧ c.ok 2 = true ∧ c.fld 0 1 < 4 ∧ c.fld 1 1 = 1 ∧ (s.fetched c).fld F.deepStatus_MAPPED = 0 ∧ bitAt ((s.fetched c).fld F.deepStatus_READY) (c.fld 0 1) = true ∧ (s.fetched c).longReady 0x0501 = true) ∧
    (∃ (s : State) (c : Cmd), s.takes c 0x0501 = true ∧ c.ok 2 = true ∧ c.fld 0 1 < 4 ∧ c.fld 1 1 = 0 ∧ bitAt ((s.fetched c).fld F.deepStatus_MAPPED) (c.fld 0 1) = true ∧ (s.fetched c).fabric.evac = none ∧ bitAt (s.fetched c).fabric.tested.toNat (c.fld 0 1) = true) ∧
    (∃ (s : State) (k : Fin 4) (t0 : Nat) (done : Nat), s.fabric.evac = some (k.val, t0, done)) ∧
    (∃ (s : State) (c : Cmd), s.takes c 0x0502 = true ∧ c.ok 2 = true ∧ c.fld 0 1 < 16 ∧ c.fld 1 1 = 0 ∧ (s.fetched c).longBarred = false ∧ (s.fetched c).freeLong.isSome = true) :=
  ⟨⟨{ dev [] with fabric := { spillOpen := [(2047, [{ frame := 5, cell := 0 }])] } }, 2047, by decide +kernel⟩,
    ⟨{ dev [] with fabric := { hrOpen := [(2047, [{ frame := 5, cell := 0 }])] } }, 2047, by decide +kernel⟩,
    ⟨dev [], 2047, true, by decide +kernel⟩,
    ⟨{ dev [(F.deepStatus_READY, 15)] with fabric := { hrUnits := [(2047, [[{ frame := 5, cell := 0 }]])], frames := [{ id := 5, port := 127, bytes := goodFrame, len := 64, stamp := 0, beat := 0, gen := 0, flags := 0, refs := 1, checked := true, decided := true, loc := [.wait true] }], voq := [{ frame := 5, port := 127, q := 127, cls := 15, cells := 1, adm := 0 }] } }, 2047, 0, [{ frame := 5, cell := 0 }], [], by decide +kernel⟩,
    ⟨{ dev [(F.deepStatus_READY, 15)] with fabric := { spillUnits := [(2047, [[{ frame := 5, cell := 0 }]])], frames := [{ id := 5, port := 127, bytes := goodFrame, len := 64, stamp := 0, beat := 0, gen := 0, flags := 0, refs := 1, checked := true, decided := true, loc := [.wait false] }], eq := [{ frame := 5, port := 127, q := 127, cls := 15, cells := 1, adm := 1 }] } }, 2047, 0, [{ frame := 5, cell := 0 }], [], by decide +kernel⟩,
    ⟨{ dev [(F.deepStatus_READY, 15), (F.eqSpill_REFILL 2047, 4)] with fabric := { frames := [{ id := 5, port := 127, bytes := goodFrame, len := 64, stamp := 0, beat := 0, gen := 0, flags := 0, refs := 1, checked := true, decided := true, loc := [.deep 3 false] }], eq := [{ frame := 5, port := 127, q := 127, cls := 15, cells := 1, adm := 1 }] } }, 2047, 3, [({ frame := 5, cell := 0 }, .deep 3 false)], by decide +kernel⟩,
    ⟨dev [(F.deepStatus_READY, 15), (F.deepStatus_MAPPED, 0)], hostCmd [(0, 1, 3), (1, 1, 1)], by decide +kernel⟩,
    ⟨{ dev [(F.deepStatus_MAPPED, 8)] with fabric := { tested := 8 } }, hostCmd [(0, 1, 3)], by decide +kernel⟩,
    ⟨{ dev [] with fabric := { evac := some (3, 0, 5) } }, 3, 0, 5, by decide +kernel⟩,
    ⟨dev [], hostCmd [(0, 1, 15)], by decide +kernel⟩⟩

theorem witness_PcieLink :
    (∃ (s : State) (w : Nat) (g : Nat), s.up = true ∧ w ∈ [1, 2, 4, 8] ∧ 1 ≤ g ∧ g ≤ 5) ∧
    (∃ (s : State), s.up = true ∧ s.flag F.hostifStatus_LINK_UP = true ∧ s.host.recovery = none) ∧
    (∃ (s : State) (t0 : Nat), s.host.recovery = some t0 ∧ s.host.reads = []) ∧
    (∃ (s : State) (i : Nat), s.up = true ∧ Tab.find i s.host.reads = none ∧ s.fld F.hostifDma_RETRIES ≠ 0) ∧
    (∃ (s : State) (i : Nat) (r : CtoRead) (p : Parked) (tag : BitVec 32), s.up = true ∧ Tab.find i s.host.reads = some r ∧ s.fld F.hostifDma_RETRIES ≤ r.tries ∧ r.what = .cmd tag ∧ s.parkedTag tag = some p ∧ p.lost = false) ∧
    (∃ (s : State) (i : Nat) (r : CtoRead) (k : Fin 69), s.up = true ∧ Tab.find i s.host.reads = some r ∧ s.fld F.hostifDma_RETRIES ≤ r.tries ∧ r.what = .ring k ∧ hostFills k = true ∧ s.ringOn k = true) ∧
    (∃ (s : State) (i : Nat) (r : CtoRead), Tab.find i s.host.reads = some r) ∧
    (∃ (s : State) (c : Instr), c ∈ [Instr.perstN, .functionLevelReset, .dlDown] ∧ s.up = true ∧ regsCanon s = true) ∧
    (∃ (s : State) (e : BitVec 4), s.up = true ∧ pcieNested (ctoUs e.toNat) (s.fld F.hostifDma_RETRIES) (s.fld F.hostifCmd_TIMEOUT_MS) = true) :=
  ⟨⟨dev [], 8, 5, by decide +kernel⟩,
    ⟨dev [(F.hostifStatus_LINK_UP, 1)], by decide +kernel⟩,
    ⟨{ dev [] with host := { recovery := some 5 } }, 5, by decide +kernel⟩,
    ⟨dev [(F.hostifDma_RETRIES, 1)], 0, by decide +kernel⟩,
    ⟨{ dev [(F.hostifDma_RETRIES, 1)] with host := { parked := [{ id := 3, cmd := hostCmd [], op := 0x0103 }], reads := [(0, ⟨1, .cmd 7⟩)] } }, 0, ⟨1, .cmd 7⟩, { id := 3, cmd := hostCmd [], op := 0x0103 }, 7, by decide +kernel⟩,
    ⟨{ dev [(F.hostifDma_RETRIES, 1), (F.ringCfg_EN 63, 1)] with host := { reads := [(0, ⟨1, .ring 63⟩)] } }, 0, ⟨1, .ring 63⟩, 63, by decide +kernel⟩,
    ⟨{ dev [] with host := { reads := [(0, ⟨1, .cmd 7⟩)] } }, 0, ⟨1, .cmd 7⟩, by decide +kernel⟩,
    ⟨dev [], .perstN, by decide +kernel⟩,
    ⟨dev [], 0, by decide +kernel⟩⟩

theorem witness_DoorbellsAndRings :
    (∃ (s : State) (d : DoorbellData) (f : Fetch), s.host.fetch = some f ∧ d.fetch = f.seq ∧ s.time.tick ≤ f.due ∧ (∀ r < 69, s.ringOn r = false) ∧ s.host.kickQueued = false ∧ s.host.beatFetchOwed = none) ∧
    (∃ (s : State) (d : DoorbellData) (f : Fetch) (r : Fin 69), s.host.fetch = some f ∧ d.fetch = f.seq ∧ s.time.tick ≤ f.due ∧ s.ringOn r = true ∧ (∀ k < 69, k ≠ r.val → s.ringOn k = false) ∧ (if hostFills r then (d.idx.getD r 0 - BitVec.ofNat 32 (s.devIdx r)).toNat else (BitVec.ofNat 32 (s.devIdx r) - d.idx.getD r 0).toNat) ≤ s.ringSize r) ∧
    (∃ (s : State) (d : DoorbellData) (f : Fetch), s.host.fetch = some f ∧ d.fetch ≠ f.seq) ∧
    (∃ (s : State) (f : Fetch), s.joinedBeat = true ∧ s.host.fetch = some f ∧ s.host.kickQueued = false ∧ s.host.beatFetchOwed = none ∧ f.due ≤ (s.reachTick f.due).time.tick) ∧
    (∃ (s : State) (c : Instr), c ∈ [Instr.kick, .fetchNow] ∧ s.dbOn = true ∧ s.host.fetch = none ∧ s.flag F.hostifEmerg_DMA_OFF = false ∧ s.host.kicksThisBeat < 32) ∧
    (∃ (s : State) (c : Instr) (f : Fetch), c ∈ [Instr.kick, .fetchNow] ∧ s.dbOn = true ∧ s.host.fetch = some f) ∧
    (∃ (s : State), s.up = true) ∧
    (∃ (s : State), s.up = true) ∧
    (∃ (s : State) (r : Fin 69) (v : Word), s.up = true ∧ s.flag (F.ringCfg_EN r) = false ∧ (F.ringCfg_EN r).of v = 1) ∧
    (∃ (s : State) (r : Fin 69) (v : Word), s.up = true ∧ s.flag (F.ringCfg_EN r) = true ∧ (F.ringCfg_EN r).of v = 0) ∧
    (∃ (s : State) (w : Cpl) (rest : List Cpl), s.host.waitCpl = w :: rest ∧ s.ringFree 65 ≠ 0 ∧ s.flag F.hostifEmerg_DMA_OFF = false) ∧
    (∃ (s : State) (l : LossRec), s.host.lost = some l ∧ s.ringFree 66 ≠ 0) ∧
    (∃ (s : State) (r : Fin 69), Tab.get s.host.sigDue false r = true ∧ s.signalFrom r ≤ (s.reachTick (s.signalFrom r)).time.tick ∧ (s.flag F.hostifEmerg_DMA_OFF = false ∨ s.flag (F.msixCtrl_MASK (s.fld (F.ringCfg_VECTOR r))) = true)) :=
  ⟨⟨{ dev [(F.ringCfg_EN 64, 0)] with host := { fetch := some ⟨false, 10, 3⟩ } }, { fetch := 3, idx := [] }, ⟨false, 10, 3⟩, by decide +kernel⟩,
    ⟨{ dev [(F.ringCfg_EN 64, 0), (F.ringCfg_EN 68, 1)] with host := { fetch := some ⟨false, 10, 3⟩ } }, { fetch := 3, idx := [] }, ⟨false, 10, 3⟩, 68, by decide +kernel⟩,
    ⟨{ dev [] with host := { fetch := some ⟨true, 10, 3⟩ } }, { fetch := 2, idx := [] }, ⟨true, 10, 3⟩, by decide +kernel⟩,
    ⟨{ dev [] with host := { fetch := some ⟨true, 10, 3⟩ }, time := { tick := 10 } }, ⟨true, 10, 3⟩, by decide +kernel⟩,
    ⟨dev [(F.hostifCfg_DB_EN, 1)], .kick, by decide +kernel⟩,
    ⟨{ dev [(F.hostifCfg_DB_EN, 1)] with host := { fetch := some ⟨true, 10, 3⟩ } }, .fetchNow, ⟨true, 10, 3⟩, by decide +kernel⟩,
    ⟨dev [], by decide +kernel⟩,
    ⟨dev [], by decide +kernel⟩,
    ⟨dev [], 68, wordOf [(F.ringCfg_EN 68, 1)], by decide +kernel⟩,
    ⟨dev [(F.ringCfg_EN 68, 1)], 68, 0, by decide +kernel⟩,
    ⟨{ dev [(F.ringCfg_EN 65, 1)] with host := { waitCpl := [{ record := 1, noIrq := false, final := false }] } }, { record := 1, noIrq := false, final := false }, [], by decide +kernel⟩,
    ⟨{ dev [(F.ringCfg_EN 66, 1)] with host := { lost := some ⟨1, 2, 2, 3⟩ } }, ⟨1, 2, 2, 3⟩, by decide +kernel⟩,
    ⟨{ dev [] with host := { sigDue := [(68, true)] } }, 68, by decide +kernel⟩⟩

theorem witness_PacketRings :
    (∃ (s : State) (q : Fin 32) (d : TxDesc) (data : List (BitVec 8)), s.up = true ∧ s.ringOn q = true ∧ s.flag F.hostifEmerg_TX_STOP = false ∧ s.flag F.hostifEmerg_DMA_OFF = false ∧ 1 ≤ s.txAvail q ∧ TxDesc.bad d = false ∧ d.flags = 0x0C ∧ data.length = d.len.toNat ∧ d.len.toNat ≤ s.maxFrame d.port.toNat ∧ s.portExists d.port.toNat = true ∧ s.quiet = false ∧ s.fld (F.fabricSample_N d.port.toNat) = 0 ∧ s.txHeld q = false) ∧
    (∃ (s : State) (q : Fin 32) (x : RxItem), (s.fabric.rxq.find? fun x => x.ring == q.val) = some x ∧ s.flag F.hostifEmerg_DMA_OFF = false ∧ s.ringOn (32 + q.val) = false) ∧
    (∃ (s : State) (q : Fin 32) (x : RxItem), (s.fabric.rxq.find? fun x => x.ring == q.val) = some x ∧ s.flag F.hostifEmerg_DMA_OFF = false ∧ s.ringOn (32 + q.val) = true ∧ x.bytes.length ≤ 256 * (s.fld (F.ringCfg_BUF_SIZE (32 + q.val)) + 1) ∧ s.hostIdx (32 + q.val) = s.devIdx (32 + q.val) + 1) ∧
    (∃ (s : State) (c : Cmd), s.takes c 0x0C03 = true ∧ c.ok 0 = true) ∧
    (∃ (s : State) (c : Cmd) (op : BitVec 16), s.mayStart c op.toNat = true ∧ op.toNat ∉ opcodes) ∧
    (∃ (s : State) (i : Nat) (p : Parked), s.parkedAt i = some p ∧ p.lost = false) :=
  ⟨⟨laneDev 0 [(F.laneCfg_EN 127, 1), (F.laneCfg_WIDTH 127, 0), (F.laneCfg_FEC 127, 0), (F.laneStatus_STATE 127, 5), (F.ringCfg_EN 31, 1), (⟨Reg.ringHostIdx 31, 0, 32⟩, 1), (F.fabricStatus_FREE, 1)], 31, { addr := 0, len := 64, flags := 0x0C, tc := 0, port := 127 }, goodFrame, by decide +kernel⟩,
    ⟨{ dev [] with fabric := { rxq := [{ ring := 31, bytes := goodFrame, len := 64, flags := 0, port := 0, cls := 0, reason := 0, stamp := 0, gen := 0 }] } }, 31, { ring := 31, bytes := goodFrame, len := 64, flags := 0, port := 0, cls := 0, reason := 0, stamp := 0, gen := 0 }, by decide +kernel⟩,
    ⟨{ dev [(F.ringCfg_EN 63, 1), (⟨Reg.ringHostIdx 63, 0, 32⟩, 1)] with fabric := { rxq := [{ ring := 31, bytes := goodFrame, len := 64, flags := 0, port := 0, cls := 0, reason := 0, stamp := 0, gen := 0 }] } }, 31, { ring := 31, bytes := goodFrame, len := 64, flags := 0, port := 0, cls := 0, reason := 0, stamp := 0, gen := 0 }, by decide +kernel⟩,
    ⟨dev [], hostCmd [], by decide +kernel⟩,
    ⟨dev [], hostCmd [], 0xFFFF, by decide +kernel⟩,
    ⟨{ dev [] with host := { parked := [{ id := 3, cmd := hostCmd [], op := 0x0103 }] } }, 3, { id := 3, cmd := hostCmd [], op := 0x0103 }, by decide +kernel⟩⟩

theorem witness_TimeCommands :
    (∃ (s : State) (v : Word), s.up = true ∧ F.tbSnapCtrl_GO.of v = 1) ∧
    (∃ (s : State) (c : Cmd), s.takes c 0x0601 = true ∧ c.ok 28 [(2, 2), (14, 2)] = true ∧ 4 ≤ c.fld 0 1 ∧ c.fld 0 1 < 32 ∧ c.fld 1 1 = 0 ∧ c.fld 22 4 < 1000000000 ∧ s.nameOk (c.fld 10 4) (boundaryName (c.fld 4 6) (c.fld 10 4)) = true ∧ (s.time.writes.any fun w => w.counter == c.fld 0 1 && s.boundNo w.name == s.boundNo (boundaryName (c.fld 4 6) (c.fld 10 4))) = false) ∧
    (∃ (s : State), s.power.aon = true ∧ s.power.pllLocked = true ∧ s.up = false ∧ s.power.pstate ≠ .standby ∧ s.time.beatTicks ≤ s.time.beatLen) :=
  ⟨⟨dev [], wordOf [(F.tbSnapCtrl_GO, 1)], by decide +kernel⟩,
    ⟨dev [], hostCmd [(0, 1, 31), (4, 6, 5), (10, 4, 99999), (22, 4, 999999999)], by decide +kernel⟩,
    ⟨(dev []).modPower fun x => { x with mainReset := true }, by decide +kernel⟩⟩

theorem witness_BeatBoundaries :
    ∃ (s : State), s.power.aon = true ∧ s.power.pllLocked = true :=
  ⟨dev [], by decide +kernel⟩

theorem witness_Boot :
    (∃ (s : State), s.power.aon = true ∧ s.power.pllLocked = true ∧ s.power.mainReset = true ∧ s.power.armed = true ∧ s.power.mainPwrEn = true ∧ s.power.therm = false) ∧
    (∃ (s : State), s.up = true ∧ s.power.joined = false ∧ s.fld F.globalBoot_STAGE = 5) :=
  ⟨⟨(dev []).modPower fun x => { x with mainReset := true, armed := true }, by decide +kernel⟩,
    ⟨(dev [(F.globalBoot_STAGE, 5)]).modPower fun x => { x with joined := false }, by decide +kernel⟩⟩

theorem witness_PowerStatesAndDomains :
    (∃ (s : State) (c : Cmd), s.takes c 0x0102 = true ∧ c.ok 30 = true ∧ c.fld 0 1 = 1 ∧ c.fld 1 1 < 4 ∧ c.fld 26 4 < 1000000000 ∧ s.power.trans = none ∧ s.power.pstate = .normal ∧ s.host.longOps = []) ∧
    (∃ (s : State) (x : Trans), s.up = true ∧ s.power.trans = some x ∧ x.phase = .drain ∧ x.target = .quiet ∧ x.since + 1600000 * x.drainMs ≤ s.time.tick) ∧
    (∃ (s : State) (c : Cmd), s.takes c 0x0104 = true ∧ c.ok 4 [(1, 1)] = true ∧ c.fld 0 1 = 2 ∧ c.fld 2 2 < 4 ∧ s.power.pstate = .quiet) ∧
    (∃ (s : State) (c : Cmd), s.takes c 0x0104 = true ∧ c.ok 4 [(1, 1)] = true ∧ c.fld 0 1 = 4 ∧ c.fld 2 2 = 0) ∧
    (∃ (s : State) (c : Cmd), s.takes c 0x0104 = true ∧ c.ok 4 [(1, 1)] = true ∧ c.fld 0 1 = 5 ∧ c.fld 2 2 = 0 ∧ s.power.pstate = .quiet) ∧
    (∃ (s : State) (c : Cmd), s.takes c 0x0104 = true ∧ c.ok 4 [(1, 1)] = true ∧ (c.fld 0 1 = 2 ∨ c.fld 0 1 = 5) ∧ (if c.fld 0 1 = 2 then c.fld 2 2 < 4 else c.fld 2 2 = 0) ∧ s.power.pstate ≠ .quiet) ∧
    (∃ (s : State) (c : Cmd) (p : Profile), s.takes c 0x0101 = true ∧ c.ok 2 = true ∧ c.fld 0 1 < 4 ∧ c.fld 1 1 < 4 ∧ (s.fetched c).profStatus p (bitAt (c.fld 1 1) 0) (bitAt (c.fld 1 1) 1) = 0 ∧ (s.fetched c).longBarred = false ∧ (s.fetched c).freeLong.isSome = true) :=
  ⟨⟨dev [], hostCmd [(0, 1, 1), (1, 1, 3), (26, 4, 999999999)], by decide +kernel⟩,
    ⟨{ ((dev []).modPower fun x => { x with trans := some { cmd := 3, old := .normal, target := .quiet, railsOff := false, drainMs := 0, keep := 0, wake := none, phase := .drain } }) with host := { parked := [{ id := 3, cmd := hostCmd [], op := 0x0103 }] } }, { cmd := 3, old := .normal, target := .quiet, railsOff := false, drainMs := 0, keep := 0, wake := none, phase := .drain }, by decide +kernel⟩,
    ⟨(dev []).modPower fun x => { x with pstate := .quiet }, hostCmd [(0, 1, 2), (2, 2, 3)], by decide +kernel⟩,
    ⟨dev [], hostCmd [(0, 1, 4)], by decide +kernel⟩,
    ⟨(dev []).modPower fun x => { x with pstate := .quiet }, hostCmd [(0, 1, 5)], by decide +kernel⟩,
    ⟨dev [], hostCmd [(0, 1, 5)], by decide +kernel⟩,
    ⟨dev [], hostCmd [(0, 1, 3), (1, 1, 3)], { format := 1 }, by decide +kernel⟩⟩

theorem witness_ServoSlots :
    (∃ (s : State) (k : Nat) (kl : Bool), s.joinedBeat = true ∧ s.inDip = false ∧ s.dueSlots = [k] ∧ (s.slot k).samples ≠ [] ∧ kl = ((s.feeder k).any fun i => ss.delay (s.sess i).cfg == 2)) ∧
    (∃ (s : State) (k : Nat), s.joinedBeat = true ∧ s.inDip = true ∧ s.dueSlots = [k]) ∧
    (∃ (s : State), s.joinedBeat = true) ∧
    (∃ (s : State) (k : Nat) (x : SlotSt), s.joinedBeat = true ∧ s.inDip = false ∧ s.servo.slot = [(k, x)] ∧ k < 256 ∧ x.due = .unserved) ∧
    (∃ (s : State) (k : Fin 256), s.up = true ∧ runningSlot (s.slotState k) = true ∧ s.slotIdle k = true ∧ s.inDip = false ∧ (s.slot k).switch = none ∧ s.flag (F.slotCfg_LOSS_ACT k) = false) ∧
    (∃ (s : State) (k : Fin 256) (p : Nat), s.up = true ∧ runningSlot (s.slotState k) = true ∧ s.slotIdle k = true ∧ s.inDip = false ∧ (s.slot k).switch = none ∧ s.flag (F.slotCfg_LOSS_ACT k) = true ∧ s.readyPartner k = some p) ∧
    (∃ (s : State) (c : Cmd), s.takes c 0x0703 = true ∧ c.ok 2 = true ∧ c.fld 1 1 = 0 ∧ s.slotState (c.fld 0 1) = 3 ∧ (s.slot (c.fld 0 1)).jumped = true ∧ (s.slot (c.fld 0 1)).switch = none ∧ s.slotKind (c.fld 0 1) = 0) ∧
    (∃ (s : State) (c : Cmd), s.takes c 0x0703 = true ∧ c.ok 2 = true ∧ c.fld 1 1 = 1 ∧ s.slotState (c.fld 0 1) = 3 ∧ (s.slot (c.fld 0 1)).jumped = true ∧ (s.slot (c.fld 0 1)).switch = none) ∧
    (∃ (s : State) (k : Fin 256) (v : Word), s.up = true ∧ s.beaten .host (Reg.slotCfg k) = false ∧ (F.slotCfg_UPD k).of v = 1 ∧ s.slotOk k ((s.regW (Reg.slotCfg k) &&& ~~~(rwMask (Reg.slotCfg k))) ||| (v &&& rwMask (Reg.slotCfg k))) (s.regW (Reg.slotTimeout k)) = true) ∧
    (∃ (s : State) (k : Fin 256) (v : Word), s.up = true ∧ s.beaten .host (Reg.slotCfg k) = false ∧ s.slotOk k ((s.regW (Reg.slotCfg k) &&& ~~~(rwMask (Reg.slotCfg k))) ||| (v &&& rwMask (Reg.slotCfg k))) (s.regW (Reg.slotTimeout k)) = false) :=
  ⟨⟨{ dev [(F.slotStatus_STATE 255, 1)] with servo := { slot := [(255, { samples := [⟨5, 5⟩], due := .due })] } }, 255, false, by decide +kernel⟩,
    ⟨{ (dev []).modPower fun x => { x with dip := some { rails := 0x1FF, below := 0x100, lows := [], start := 0, since := 0, startTick := 0 } } with servo := { slot := [(255, { samples := [⟨5, 5⟩], due := .due })] } }, 255, by decide +kernel⟩,
    ⟨dev [], by decide +kernel⟩,
    ⟨{ dev [] with servo := { slot := [(255, { due := .unserved })] } }, 255, { due := .unserved }, by decide +kernel⟩,
    ⟨{ dev [(F.slotStatus_STATE 255, 2)] with servo := { slot := [(255, { idle := some 100000 })] } }, 255, by decide +kernel⟩,
    ⟨{ dev [(F.slotStatus_STATE 255, 2), (F.slotCfg_LOSS_ACT 255, 1), (F.slotCfg_PARTNER 255, 254), (F.slotStatus_STATE 254, 5)] with servo := { slot := [(254, { hist := List.replicate 8 (0, 0, 1) }), (255, { idle := some 100000 })], sess := [(4095, { cfg := packLE 768 [(3, 1, 1), (16, 2, 254)], state := 2 })] } }, 255, 254, by decide +kernel⟩,
    ⟨{ dev [(F.slotStatus_STATE 255, 3)] with servo := { slot := [(255, { jumped := true })] } }, hostCmd [(0, 1, 255)], by decide +kernel⟩,
    ⟨{ dev [(F.slotStatus_STATE 255, 3)] with servo := { slot := [(255, { jumped := true })] } }, hostCmd [(0, 1, 255), (1, 1, 1)], by decide +kernel⟩,
    ⟨dev [], 255, wordOf [(F.slotCfg_UPD 255, 1)], by decide +kernel⟩,
    ⟨dev [], 255, wordOf [(F.slotCfg_EN 255, 1)], by decide +kernel⟩⟩

theorem witness_Sessions :
    (∃ (s : State) (c : Cmd), s.takes c 0x0701 = true ∧ c.ok 96 = true ∧ (s.fetched c).sessCheck (sessPayload c) = st.ok) ∧
    (∃ (s : State) (c : Cmd), s.takes c 0x0702 = true ∧ c.ok 16 [(4, 4)] = true ∧ 0 < c.fld 2 2 ∧ c.fld 0 2 + c.fld 2 2 ≤ 4096 ∧ c.fld 8 8 % 64 = 0 ∧ s.bufOk c.src (c.fld 8 8) (64 * c.fld 2 2) = true) ∧
    (∃ (s : State) (i : Fin 4096) (y : Fin 3) (k : Nat), s.up = true ∧ (s.sess i).state ≠ 0 ∧ sends (s.sess i).cfg y = true ∧ s.portUp (ss.port (s.sess i).cfg) = true ∧ s.dueNow (s.sess i) (if y = 0 then ss.logSync (s.sess i).cfg else ss.logDelay (s.sess i).cfg) = some k ∧ (if y = 2 then (s.sess i).pdNext else (s.sess i).txNext) ≤ k) ∧
    (∃ (s : State) (i : Fin 4096) (keep : List MsgWait), s.up = true ∧ keep = ((s.sess i).sync.filter fun w => decide ((s.time.tick - w.tick) * 128 < 1600000000 * logScaled (ss.logSync (s.sess i).cfg)))) ∧
    (∃ (s : State) (id : Nat) (f : EngineFrame) (p : Nat × Nat) (m : PtpMsg) (i : Nat) (v : Nat), (s.servo.inbox.find? fun x => x.id = id) = some f ∧ f.ptp = some p ∧ m = ptpMsg f.bytes p.1 p.2 f.stamp ∧ m.whole = true ∧ m.mtype = 0 ∧ m.twoStep = true ∧ s.sessOf f.port m = some i ∧ ss.auth (s.sess i).cfg = false ∧ ss.delay (s.sess i).cfg ≠ 2 ∧ ss.role (s.sess i).cfg = 1 ∧ (s.sess i).lastSeq = none ∧ s.dipAt m.stamp = false ∧ s.toCounter (ss.counter (s.sess i).cfg) m.stamp = some v) ∧
    (∃ (s : State) (id : Nat) (f : EngineFrame) (p : Nat × Nat) (m : PtpMsg) (i : Nat), (s.servo.inbox.find? fun x => x.id = id) = some f ∧ f.ptp = some p ∧ m = ptpMsg f.bytes p.1 p.2 f.stamp ∧ s.sessOf f.port m = none ∧ s.matching f.port m = some i) ∧
    (∃ (s : State) (i : Fin 4096) (k : Nat), s.up = true ∧ ss.delay (s.sess i).cfg ≠ 2 ∧ s.dueNow (s.sess i) (ss.logSync (s.sess i).cfg) = some k ∧ (s.sess i).unitNext < k ∧ (s.sess i).state = 2 ∧ ss.role (s.sess i).cfg = 1 ∧ (s.sess i).hit = false ∧ s.portUp (ss.port (s.sess i).cfg) = true ∧ (s.sess i).misses + 1 < ss.missMax (s.sess i).cfg ∧ (s.sess i).misses < 255) ∧
    (∃ (s : State) (i : Fin 4096) (k : Nat), s.up = true ∧ ss.delay (s.sess i).cfg ≠ 2 ∧ s.dueNow (s.sess i) (ss.logSync (s.sess i).cfg) = some k ∧ (s.sess i).unitNext < k ∧ (s.sess i).state ≠ 0 ∧ ss.role (s.sess i).cfg = 1 ∧ (s.sess i).hit = true) ∧
    (∃ (s : State) (i : Fin 4096), s.up = true ∧ (s.sess i).state ≠ 0 ∧ ss.delay (s.sess i).cfg = 2 ∧ ss.role (s.sess i).cfg ∈ [1, 4] ∧ (s.sess i).kl.closed = [] ∧ 0 < (s.sess i).kl.units ∧ (s.sess i).hit = true) ∧
    (∃ (s : State) (i : Fin 4096) (w : Nat), s.up = true ∧ (s.sess i).state ≠ 0 ∧ ss.delay (s.sess i).cfg = 2 ∧ ss.role (s.sess i).cfg ∈ [1, 4] ∧ (s.sess i).kl.closed = [] ∧ (s.sess i).kl.units = 0 ∧ w = s.klTicks (s.sess i).cfg ∧ (s.sess i).hit = true) ∧
    (∃ (s : State) (i : Fin 4096) (w : KlWin) (rest : List KlWin), s.up = true ∧ (s.sess i).state ≠ 0 ∧ ss.delay (s.sess i).cfg = 2 ∧ (s.sess i).kl.closed = w :: rest) ∧
    (∃ (s : State) (i : Fin 4096), (s.sess i).kl.closed = []) ∧
    (∃ (s : State) (n : Fin 128) (id : Nat) (f : EngineFrame) (r : KlReport) (i : Nat), (s.servo.inbox.find? fun x => x.id = id) = some f ∧ f.ptp = none ∧ s.klSess f.port = some i ∧ klReportOf f.bytes = some r ∧ r.log2.toNat = ss.klLog2 (s.sess i).cfg ∧ f.port = n.val) :=
  ⟨⟨dev [], hostCmd [(0, 2, 4095)], by decide +kernel⟩,
    ⟨dev [], hostCmd [(0, 2, 4095), (2, 2, 1), (8, 8, 0x1000)], by decide +kernel⟩,
    ⟨{ laneDev 0 [(F.laneCfg_EN 127, 1), (F.laneCfg_WIDTH 127, 0), (F.laneCfg_FEC 127, 0), (F.laneStatus_STATE 127, 5)] with servo := { sess := [(4095, { cfg := packLE 768 [(2, 1, 127), (3, 1, 2)], state := 2 })] }, cal := { path := [(127, { trimmed := true })] }, time := { recs := [List.replicate 32 {}] } }, 4095, 0, 0, by decide +kernel⟩,
    ⟨{ dev [] with servo := { sess := [(4095, { cfg := packLE 768 [], state := 2, sync := [⟨0, 0, 0, 0, 0, false⟩] })] }, time := { recs := [List.replicate 32 {}] } }, 4095, [⟨0, 0, 0, 0, 0, false⟩], by decide +kernel⟩,
    ⟨{ laneDev 0 [(F.laneCfg_EN 127, 1), (F.laneCfg_WIDTH 127, 0), (F.laneCfg_FEC 127, 0), (F.laneStatus_STATE 127, 5)] with servo := { inbox := [{ id := 9, port := 127, bytes := ptpFrame, stamp := 65536, ptp := some (14, 0) }], sess := [(4095, { cfg := packLE 768 [(2, 1, 127), (3, 1, 1), (20, 10, 9)], state := 2 })] }, time := { recs := [List.replicate 32 {}] } }, 9, { id := 9, port := 127, bytes := ptpFrame, stamp := 65536, ptp := some (14, 0) }, (14, 0), (ptpMsg ptpFrame 14 0 65536), 4095, 65536, by decide +kernel⟩,
    ⟨{ laneDev 0 [(F.laneCfg_EN 127, 1), (F.laneCfg_WIDTH 127, 0), (F.laneCfg_FEC 127, 0), (F.laneStatus_STATE 127, 5)] with servo := { inbox := [{ id := 9, port := 127, bytes := ptpFrame, stamp := 65536, ptp := some (14, 0) }], sess := [(4095, { cfg := packLE 768 [(2, 1, 127), (3, 1, 1)], state := 2 })] }, time := { recs := [List.replicate 32 {}] } }, 9, { id := 9, port := 127, bytes := ptpFrame, stamp := 65536, ptp := some (14, 0) }, (14, 0), (ptpMsg ptpFrame 14 0 65536), 4095, by decide +kernel⟩,
    ⟨{ laneDev 0 [(F.laneCfg_EN 127, 1), (F.laneCfg_WIDTH 127, 0), (F.laneCfg_FEC 127, 0), (F.laneStatus_STATE 127, 5)] with servo := { sess := [(4095, { cfg := packLE 768 [(2, 1, 127), (3, 1, 1), (11, 1, 3)], state := 2, unitNext := 0 })] }, time := { bounds := 100000 } }, 4095, 1, by decide +kernel⟩,
    ⟨{ dev [] with servo := { sess := [(4095, { cfg := packLE 768 [(2, 1, 127), (3, 1, 1), (11, 1, 3)], state := 2, hit := true })] }, time := { bounds := 100000 } }, 4095, 1, by decide +kernel⟩,
    ⟨{ laneDev 0 [(F.laneCfg_EN 127, 1), (F.laneCfg_WIDTH 127, 0), (F.laneCfg_FEC 127, 0), (F.laneStatus_STATE 127, 5)] with servo := { sess := [(4095, { cfg := packLE 768 [(2, 1, 127), (3, 1, 1), (4, 1, 2), (14, 1, 4)], state := 2, hit := true, kl := { units := 1 } })] } }, 4095, by decide +kernel⟩,
    ⟨{ laneDev 0 [(F.laneCfg_EN 127, 1), (F.laneCfg_WIDTH 127, 0), (F.laneCfg_FEC 127, 0), (F.laneStatus_STATE 127, 5)] with servo := { sess := [(4095, { cfg := packLE 768 [(2, 1, 127), (3, 1, 1), (4, 1, 2), (14, 1, 4)], state := 2, hit := true, kl := { units := 0 } })] } }, 4095, _, by decide +kernel, by decide +kernel, by decide +kernel, by decide +kernel, by decide +kernel, by decide +kernel, rfl, by decide +kernel⟩,
    ⟨{ laneDev 0 [(F.laneCfg_EN 127, 1), (F.laneCfg_WIDTH 127, 0), (F.laneCfg_FEC 127, 0), (F.laneStatus_STATE 127, 5)] with servo := { sess := [(4095, { cfg := packLE 768 [(2, 1, 127), (3, 1, 1), (4, 1, 2), (14, 1, 4)], state := 2, hit := true, kl := { closed := [⟨0, 1, 0, 0⟩] } })] } }, 4095, ⟨0, 1, 0, 0⟩, [], by decide +kernel⟩,
    ⟨dev [], 4095, by decide +kernel⟩,
    ⟨{ laneDev 0 [(F.laneCfg_EN 127, 1), (F.laneCfg_WIDTH 127, 0), (F.laneCfg_FEC 127, 0), (F.laneStatus_STATE 127, 5)] with servo := { inbox := [{ id := 9, port := 127, bytes := klReportFrame, stamp := 0, ptp := none }], sess := [(4095, { cfg := packLE 768 [(2, 1, 127), (4, 1, 2), (14, 1, 4)], state := 2 })] } }, 127, 9, { id := 9, port := 127, bytes := klReportFrame, stamp := 0, ptp := none }, ⟨0, 4, 0, 0, 0⟩, 4095, by decide +kernel⟩⟩

theorem witness_References :
    (∃ (s : State) (n : Fin 128) (k : Fin 16), s.attended = true ∧ s.pairState s.holder ∈ [3, 4] ∧ s.portUp n = true ∧ (F.candCfg_TYPE k).of (s.regW (Reg.candCfg k)) = 2 ∧ s.portOf ((F.candCfg_LANE k).of (s.regW (Reg.candCfg k))) = some n.val ∧ (F.candCfg_FORCE_QL k).of (s.regW (Reg.candCfg k)) = 0) ∧
    (∃ (s : State) (n : Fin 128) (k : Fin 16), s.attended = true ∧ s.pairState s.holder ∈ [3, 4] ∧ s.esmcSilent n = true ∧ (F.candCfg_TYPE k).of (s.regW (Reg.candCfg k)) = 2 ∧ s.portOf ((F.candCfg_LANE k).of (s.regW (Reg.candCfg k))) = some n.val ∧ (F.candCfg_FORCE_QL k).of (s.regW (Reg.candCfg k)) = 0) ∧
    (∃ (s : State) (d : Fin 4), s.dpllState d = 3 ∧ s.fld (F.dpllHoTts_TTS d) = 0 ∧ s.flag (F.dpllStatus_HO_SPEC_EXCEEDED d) = false ∧ s.joinedBeat = true) ∧
    (∃ (s : State) (c : Cmd), s.takes c 0x0902 = true ∧ c.ok 8 [(2, 2)] = true ∧ c.fld 0 1 < 4 ∧ c.fld 1 1 < 2 ∧ 3600 ≤ c.fld 4 4 ∧ c.fld 4 4 ≤ 2592000 ∧ (s.fetched c).longBarred = false ∧ (s.fetched c).freeLong.isSome = true) ∧
    (∃ (s : State) (d : Fin 4) (o : LongOp), (s.host.longOps.find? fun o => o.op == 0x0902 && o.cmd.fld 0 1 == d.val && o.state == .running) = some o ∧ s.dpllState d = 2 ∧ (s.dpll d).hist ≠ []) ∧
    (∃ (s : State) (c : Cmd), s.takes c 0x0903 = true ∧ c.ok 1 = true ∧ c.fld 0 1 < 4 ∧ s.dpllState (c.fld 0 1) ≠ 3) ∧
    (∃ (s : State) (c : Cmd), s.takes c 0x0901 = true ∧ c.ok 3 = true ∧ c.fld 0 1 < 4 ∧ c.fld 1 1 = 1 ∧ c.fld 2 1 < 16) ∧
    (∃ (s : State) (k : Fin 16) (w : Fin 3), s.up = true ∧ s.beaten .host (Reg.candCfg k + 4 * w.val) = false ∧ w ≠ 0) ∧
    (∃ (s : State) (d : Fin 4) (v : Word), s.up = true ∧ s.flag (F.dpllCfg_OPEN d) = false ∧ (F.dpllCfg_OPEN d).of v = 1 ∧ (F.dpllCfg_EN d).of v = 1) ∧
    (∃ (s : State) (d : Fin 4), s.up = true ∧ s.flag (F.dpllCfg_SW_SRC d) = true ∧ s.dpllState d = 5) ∧
    (∃ (s : State) (y : Fin 2) (err : Nat), s.up = true ∧ s.flag (F.synCfg_EN y) = true ∧ s.flag (F.synStatus_SEARCH y) = true ∧ err ≤ 100 ∧ 3 ≤ (s.syn y).good) ∧
    (∃ (s : State) (y : Fin 2) (err : Nat), s.up = true ∧ s.flag (F.synCfg_EN y) = true ∧ s.flag (F.synStatus_SEARCH y) = true ∧ 100 < err) ∧
    (∃ (s : State) (y : Fin 2) (v : Word), s.up = true ∧ (F.synCfg_UPD y).of v = 1 ∧ (F.synCfg_EN y).of v = 0 ∧ s.flag (F.synCfg_EN y) = false ∧ 32 * 2 ^ 32 ≤ (s.putRw (Reg.synCfg y) v).synShadow y ∧ (s.putRw (Reg.synCfg y) v).synShadow y ≤ 36 * 2 ^ 32 ∧ (s.putRw (Reg.synCfg y) v).clksOf y = []) :=
  ⟨⟨laneDev 0 [(F.laneCfg_EN 127, 1), (F.laneCfg_WIDTH 127, 0), (F.laneCfg_FEC 127, 0), (F.laneStatus_STATE 127, 5), (F.candCfg_TYPE 15, 2), (F.candCfg_LANE 15, 127)], 127, 15, by decide +kernel⟩,
    ⟨{ laneDev 0 [(F.laneCfg_EN 127, 1), (F.laneCfg_WIDTH 127, 0), (F.laneCfg_FEC 127, 0), (F.laneStatus_STATE 127, 5), (F.candCfg_TYPE 15, 2), (F.candCfg_LANE 15, 127), (pairField 0, 4)] with time := { tick := 10 ^ 10 } }, 127, 15, by decide +kernel⟩,
    ⟨dev [(F.dpllStatus_STATE 3, 3), (F.dpllHoTts_TTS 3, 0)], 3, by decide +kernel⟩,
    ⟨dev [], hostCmd [(0, 1, 3), (1, 1, 1), (4, 4, 2592000)], by decide +kernel⟩,
    ⟨{ dev [(F.dpllStatus_STATE 3, 2)] with host := { longOps := [{ handle := 16, op := 0x0902, res := 0x0902, tick := 0, state := .running, cmd := hostCmd [(0, 1, 3)], args := [3, 0, 3600] }] }, refs := { dpll := [(3, { hist := [(1, 2)] })] } }, 3, { handle := 16, op := 0x0902, res := 0x0902, tick := 0, state := .running, cmd := hostCmd [(0, 1, 3)], args := [3, 0, 3600] }, by decide +kernel⟩,
    ⟨dev [], hostCmd [(0, 1, 3)], by decide +kernel⟩,
    ⟨dev [], hostCmd [(0, 1, 3), (1, 1, 1), (2, 1, 15)], by decide +kernel⟩,
    ⟨dev [], 15, 2, by decide +kernel⟩,
    ⟨dev [], 3, wordOf [(F.dpllCfg_EN 3, 1), (F.dpllCfg_OPEN 3, 1)], by decide +kernel⟩,
    ⟨dev [(F.dpllCfg_SW_SRC 3, 1), (F.dpllStatus_STATE 3, 5)], 3, by decide +kernel⟩,
    ⟨{ dev [(F.synCfg_EN 1, 1), (F.synStatus_SEARCH 1, 1)] with refs := { syn := [(1, { good := 3 })] } }, 1, 100, by decide +kernel⟩,
    ⟨{ dev [(F.synCfg_EN 1, 1), (F.synStatus_SEARCH 1, 1)] with refs := { syn := [(1, { good := 3 })] } }, 1, 101, by decide +kernel⟩,
    ⟨dev [(F.synCfg_EN 1, 0)], 1, wordOf [(F.synCfg_UPD 1, 1), (F.synCfg_FB_INT 1, 34)], by decide +kernel⟩⟩

theorem witness_Measurement :
    (∃ (s : State) (n : Fin 16) (e : Bool) (raw : BitVec 12) (code : BitVec 12), s.up = true ∧ s.linear (128 + n.val) 0 raw = code ∧ s.flag (F.evinCfg_EN n) = true ∧ bitAt s.meas.mute.toNat n = false ∧ Tab.get s.meas.holdEnd 0 n ≤ s.edgeTime code ∧ e = s.flag (F.evinCfg_EDGE n)) ∧
    (∃ (s : State) (n : Fin 16) (raw : BitVec 12), s.up = true ∧ s.flag (F.evinCfg_EN n) = true ∧ bitAt s.meas.mute.toNat n = false ∧ s.edgeTime (s.linear (128 + n.val) 0 raw) < Tab.get s.meas.holdEnd 0 n) ∧
    (∃ (s : State), s.up = true) ∧
    (∃ (s : State) (m : Fin 32) (w : Window), s.up = true ∧ (s.im m).win = some w) ∧
    (∃ (s : State) (m : Fin 32) (i : Fin 8), s.up = true ∧ (Tab.find i (s.im m).pend).isSome = true) ∧
    (∃ (s : State), s.up = true) ∧
    (∃ (s : State) (f : Fin 16) (g : Gate), s.up = true ∧ (s.fm f).ended = some g ∧ (s.fm f).owner = none) ∧
    (∃ (s : State) (c : Cmd), s.takes c 0x0A01 = true ∧ c.ok 32 [(18, 6)] = true ∧ c.fld 0 1 < 16 ∧ 128 ≤ c.fld 1 1 ∧ c.fld 1 1 < 160 ∧ c.fld 2 1 < 4 ∧ c.fld 3 1 ≤ 24 ∧ 1000 ≤ c.fld 4 4 ∧ c.fld 4 4 ≤ 1000000 ∧ s.nameOk (c.fld 14 4) (boundaryName (c.fld 8 6) (c.fld 14 4)) = true ∧ c.fld 24 8 % 64 = 0 ∧ s.bufOk c.src (c.fld 24 8) 128 = true ∧ s.flag (F.fmCfg_EN (c.fld 0 1)) = false ∧ (s.fm (c.fld 0 1)).owner = none ∧ (s.fetched c).longReady (0xA0100 + c.fld 0 1) = true) ∧
    (∃ (s : State) (k : Fin 16), (if k = 0 then s.power.aon && s.power.pllLocked else s.up) = true ∧ (s.evout k).high = true ∧ s.evoutDue (s.evout k).tb (s.evoutLaunch k (s.evout k).adv (s.evout k).fall) = true) ∧
    (∃ (s : State) (k : Fin 16) (at' : Stamp), (if k = 0 then s.power.aon && s.power.pllLocked else s.up) = true ∧ (s.evout k).sched.has (s.evout k).next = true ∧ (s.evout k).high = false ∧ ((s.evout k).trail = 0 ∨ (s.evout k).trail + 128 ≤ s.evoutPos (s.evout k).sched.tb (s.evoutLaunch k (s.evout k).sched.adv at') + 1) ∧ at' = (s.evout k).sched.start + (s.evout k).next * (s.evout k).sched.period ∧ s.evoutDue (s.evout k).sched.tb (s.evoutLaunch k (s.evout k).sched.adv at') = true) ∧
    (∃ (s : State) (c : Cmd), s.takes c 0x0A02 = true ∧ c.ok 48 [(3, 1), (22, 2), (42, 6)] = true ∧ (c.fld 0 1 ≠ 0 ∨ c.fld 2 1 = 0) ∧ c.fld 0 1 < 16 ∧ c.fld 1 1 < 8 ∧ c.fld 2 1 < 4 ∧ c.fld 10 4 < 1000000000 ∧ s.nameOk (c.fld 38 4) (boundaryName (c.fld 32 6) (c.fld 38 4)) = true ∧ (pulseSched c).ok = true ∧ (s.evout (c.fld 0 1)).loads = [] ∧ (s.flag (F.evoutCfg_LOAD (c.fld 0 1)) && s.boundNo (boundaryName (c.fld 32 6) (c.fld 38 4)) == s.boundNo none) = false) ∧
    (∃ (s : State) (k : Fin 16) (v : Word), s.up = true ∧ (F.evoutCfg_LOAD k).of v = 1) ∧
    (∃ (s : State) (m : Fin 32) (w : Fin 4), s.up = true ∧ s.beaten .host (Reg.imCfg m + 4 * w.val) = false) ∧
    (∃ (s : State) (m : Fin 32) (w : Fin 4), s.beaten .host (Reg.imCfg m + 4 * w.val) = true) ∧
    (∃ (s : State) (f : Fin 16) (w : Fin 2), s.up = true ∧ s.beaten .host (Reg.fmCfg f + 4 * w.val) = false ∧ (s.fm f).owner = none) :=
  ⟨⟨{ dev [(F.evinCfg_EN 15, 1), (F.evinCfg_EDGE 15, 1)] with cal := { tables := [(572, [])] } }, 15, true, 0, 0, by decide +kernel⟩,
    ⟨{ dev [(F.evinCfg_EN 15, 1), (F.evinCfg_EDGE 15, 1)] with cal := { tables := [(572, [])] }, meas := { holdEnd := [(15, 5)] } }, 15, 0, by decide +kernel⟩,
    ⟨dev [], by decide +kernel⟩,
    ⟨{ dev [] with meas := { im := [(31, { win := some { stamp := 0, tick := 0 } })] } }, 31, { stamp := 0, tick := 0 }, by decide +kernel⟩,
    ⟨{ dev [] with meas := { im := [(31, { pend := [(7, { stamp := 0, tick := 0 })] })] } }, 31, 7, by decide +kernel⟩,
    ⟨dev [], by decide +kernel⟩,
    ⟨{ dev [] with meas := { fm := [(15, { ended := some { src := 128, tb := 0, pre := 0, start := 0, startTick := 0, left := 0 } })] } }, 15, { src := 128, tb := 0, pre := 0, start := 0, startTick := 0, left := 0 }, by decide +kernel⟩,
    ⟨dev [], hostCmd [(0, 1, 15), (1, 1, 159), (2, 1, 3), (3, 1, 24), (4, 4, 1000000), (8, 6, 5), (24, 8, 0x1000)], by decide +kernel⟩,
    ⟨{ dev [] with meas := { evout := [(15, { high := true })] }, time := { tick := 100, cnt := { val := 10 ^ 30, incr := 0xA0000000000 } :: List.replicate 31 {} } }, 15, by decide +kernel⟩,
    ⟨{ dev [] with meas := { evout := [(15, { sched := { en := true, period := 1000000, width := 2 } })] }, time := { tick := 100, cnt := { val := 10 ^ 30, incr := 0xA0000000000 } :: List.replicate 31 {} } }, 15, 0, by decide +kernel⟩,
    ⟨dev [], hostCmd [(0, 1, 15), (1, 1, 7), (2, 1, 3), (10, 4, 999999999), (16, 4, 1000), (24, 4, 2), (32, 6, 5)], by decide +kernel⟩,
    ⟨dev [], 15, wordOf [(F.evoutCfg_LOAD 15, 1)], by decide +kernel⟩,
    ⟨dev [], 31, 3, by decide +kernel⟩,
    ⟨{ dev [] with written := ⟨1, [(Reg.imCfg 31 + 12, 1)]⟩ }, 31, 3, by decide +kernel⟩,
    ⟨dev [], 15, 1, by decide +kernel⟩⟩

theorem witness_Calibration :
    (∃ (s : State) (n : Fin 145), s.up = true ∧ n.val < 128) ∧
    (∃ (s : State) (n : Fin 145), s.up = true ∧ 128 ≤ n.val ∧ n.val < 144) ∧
    (∃ (s : State) (n : Fin 128), s.joinedBeat = true ∧ s.flag (F.laneCalCfg_AUTO n) = true ∧ s.periodOver n = true ∧ (s.pathCal n).periodFired = false ∧ (s.pathCal n).why = none ∧ (s.interpCal n).why = none) ∧
    (∃ (s : State) (a : Nat) (b : Nat) (u : Nat), s.joinedBeat = true ∧ s.inDip = false ∧ s.replaced 2 = false ∧ (s.toTick 16).calWork = [(a, b, u, true)]) ∧
    (∃ (s : State) (n : Fin 128), (s.pathCal n).running = true) ∧
    (∃ (s : State) (u : Fin 160) (p : Fin 4), (s.interpCal u).running = true ∧ (s.interpCal u).path = p.val) ∧
    (∃ (s : State) (u : Fin 160) (p : Fin 4), (s.interpCal u).path ≠ p.val) ∧
    (∃ (x : InterpCal), x.segs < 12) ∧
    (∃ (x : InterpCal) (l : List (BitVec 12 × Nat)), 12 ≤ x.segs ∧ (l.map (·.2)).foldl (· + ·) 0 = 4096) ∧
    (∃ (s : State) (u : Fin 160), (s.interpCal u).why.isSome = true ∧ (s.interpCal u).overdue = false ∧ (s.interpCal u).dueTick + s.maxWait u ≤ s.time.tick) ∧
    (∃ (s : State) (u : Fin 160), u.val < 128 ∧ (s.pathCal u).why.isSome = true ∧ (s.pathCal u).overdue = false ∧ (s.pathCal u).dueTick + s.maxWait u ≤ s.time.tick) ∧
    (∃ (s : State) (c : Cmd), s.takes c 0x0801 = true ∧ c.ok 24 [(21, 3)] = true ∧ c.fld 20 1 < 4 ∧ ((maskIdx 128 (c.fld 0 16)).any (s.fetched c).calHeld) = false ∧ ((maskIdx 32 (c.fld 16 4)).any fun k => (s.fetched c).calHeld (128 + k)) = false ∧ (s.fetched c).longReady 0x0801 = true) ∧
    (∃ (s : State) (c : Cmd), s.takes c 0x0802 = true ∧ c.ok 24 [(21, 3)] = true ∧ c.fld 20 1 < 2) ∧
    (∃ (s : State) (n : Fin 128) (v : Word), s.up = true ∧ s.portExists n = true ∧ (F.linkCfg_UPD n).of v = 1) :=
  ⟨⟨dev [], 127, by decide +kernel⟩,
    ⟨dev [], 143, by decide +kernel⟩,
    ⟨{ laneDev 0 [(F.laneCfg_EN 127, 1), (F.laneCfg_WIDTH 127, 0), (F.laneCfg_FEC 127, 0), (F.laneStatus_STATE 127, 5), (F.laneCalCfg_AUTO 127, 1), (F.laneCalPeriod_MAX_S 127, 1)] with time := { tick := 2 * 10 ^ 9 } }, 127, by decide +kernel⟩,
    ⟨{ laneDev 0 [(F.laneCfg_EN 127, 1), (F.laneCfg_WIDTH 127, 0), (F.laneCfg_FEC 127, 0), (F.laneStatus_STATE 127, 5)] with cal := { path := [(127, { why := some .postTrain })] } }, 1, 0, 127, by decide +kernel⟩,
    ⟨{ dev [] with cal := { path := [(127, { running := true })] } }, 127, by decide +kernel⟩,
    ⟨{ dev [] with cal := { interp := [(159, { why := some .temp, running := true, path := 3, started := true })] } }, 159, 3, by decide +kernel⟩,
    ⟨dev [], 159, 3, by decide +kernel⟩,
    ⟨{ segs := 11 }, by decide +kernel⟩,
    ⟨{ segs := 12 }, [(5, 4096)], by decide +kernel⟩,
    ⟨{ dev [] with cal := { interp := [(159, { why := some .temp })] }, time := { tick := 10 ^ 10 } }, 159, by decide +kernel⟩,
    ⟨{ dev [] with cal := { path := [(127, { why := some .temp })] }, time := { tick := 10 ^ 12 } }, 127, by decide +kernel⟩,
    ⟨dev [(F.laneCalCfg_HOLD 127, 0)], hostCmd [(0, 16, 2 ^ 127), (16, 4, 2 ^ 31), (20, 1, 3)], by decide +kernel⟩,
    ⟨dev [], hostCmd [(0, 16, 2 ^ 127), (20, 1, 1)], by decide +kernel⟩,
    ⟨laneDev 0 [(F.laneCfg_EN 127, 1), (F.laneCfg_WIDTH 127, 0), (F.laneCfg_FEC 127, 0), (F.laneStatus_STATE 127, 5)], 127, wordOf [(F.linkCfg_UPD 127, 1)], by decide +kernel⟩⟩

theorem witness_CoreInstructions :
    (∃ (s : State) (c : Fin 8) (len : Nat) (op : AluOp) (rd : Nat) (rs1 : Nat) (v : Word) (e : EccSeen), e.fetch.any (·.bad) = false ∧ s.mayIssue c = true ∧ s.atPc c (.aluImm op rd rs1 v) len) ∧
    (∃ (s : State) (c : Fin 8) (len : Nat) (op : AluOp) (rd : Nat) (rs1 : Nat) (rs2 : Nat) (e : EccSeen), e.fetch.any (·.bad) = false ∧ s.mayIssue c = true ∧ s.atPc c (.alu op rd rs1 rs2) len) ∧
    (∃ (s : State) (c : Fin 8) (len : Nat) (rd : Nat) (off : Word) (e : EccSeen), e.fetch.any (·.bad) = false ∧ s.mayIssue c = true ∧ s.atPc c (.jal rd off) len) ∧
    (∃ (s : State) (c : Fin 8) (len : Nat) (k : BrCond) (rs1 : Nat) (rs2 : Nat) (off : Word) (e : EccSeen), e.fetch.any (·.bad) = false ∧ s.mayIssue c = true ∧ s.atPc c (.branch k rs1 rs2 off) len) ∧
    (∃ (s : State) (c : Fin 8) (len : Nat) (n : Nat) (rd : Nat) (rs1 : Nat) (signed : Bool) (off : Word) (e : EccSeen), e.fetch.any (·.bad) = false ∧ s.mayIssue c = true ∧ (¬(c = 5 ∧ inRegion (s.getX c rs1 + off).toNat n 0 0x10000 = true)) ∧ s.atPc c (.load n signed rd rs1 off) len ∧ s.rangeOpen c (s.getX c rs1 + off).toNat n = true ∧ e.data.any (·.bad) = false) ∧
    (∃ (s : State) (c : Fin 8) (len : Nat) (n : Nat) (rs1 : Nat) (rs2 : Nat) (off : Word) (e : EccSeen), e.fetch.any (·.bad) = false ∧ s.mayIssue c = true ∧ s.atPc c (.store n rs1 rs2 off) len ∧ s.rangeOpen c (s.getX c rs1 + off).toNat n = true ∧ e.data.any (·.bad) = false) ∧
    (∃ (s : State) (c : Fin 8) (len : Nat) (e : EccSeen), e.fetch.any (·.bad) = false ∧ s.mayIssue c = true ∧ s.atPc c .ecall len ∧ (s.core c).active = false) ∧
    (∃ (s : State) (c : Fin 8) (e : EccSeen) (lo : Nat), s.mayIssue c = true ∧ s.fetchHalf c (s.core c).pc.toNat = some lo ∧ lo % 4 ≠ 3 ∧ (e.fetch.any fun x => x.bad && x.word == 0) = true ∧ (s.bankAt ((s.core c).pc.toNat / 4 * 4)).isSome = true ∧ (s.core c).active = false) ∧
    (∃ (s : State) (c : Fin 8), s.mayIssue c = false) ∧
    (∃ (s : State) (c : Fin 8) (len : Nat) (rd : Nat) (v : Word) (e : EccSeen), e.fetch.any (·.bad) = false ∧ s.mayIssue c = true ∧ s.atPc c (.lui rd v) len) ∧
    (∃ (s : State) (c : Fin 8) (len : Nat) (rd : Nat) (v : Word) (e : EccSeen), e.fetch.any (·.bad) = false ∧ s.mayIssue c = true ∧ s.atPc c (.auipc rd v) len) ∧
    (∃ (s : State) (c : Fin 8) (len : Nat) (rd : Nat) (rs1 : Nat) (off : Word) (e : EccSeen), e.fetch.any (·.bad) = false ∧ s.mayIssue c = true ∧ s.atPc c (.jalr rd rs1 off) len) ∧
    (∃ (s : State) (c : Fin 8) (len : Nat) (e : EccSeen), e.fetch.any (·.bad) = false ∧ s.mayIssue c = true ∧ s.atPc c .fence len) ∧
    (∃ (s : State) (c : Fin 8) (len : Nat) (e : EccSeen), e.fetch.any (·.bad) = false ∧ s.mayIssue c = true ∧ s.atPc c .ebreak len ∧ (s.core c).active = false) ∧
    (∃ (s : State) (c : Fin 8) (w : Word) (e : EccSeen), e.fetch.any (·.bad) = false ∧ s.mayIssue c = true ∧ s.noInsn c w ∧ (s.core c).active = false) ∧
    (∃ (s : State) (c : Fin 8), s.mayIssue c = true ∧ s.fetchHalf c (s.core c).pc.toNat = none ∧ (s.core c).active = false) ∧
    (∃ (s : State) (c : Fin 8) (len : Nat) (n : Nat) (rd : Nat) (rs1 : Nat) (signed : Bool) (off : Word) (e : EccSeen), e.fetch.any (·.bad) = false ∧ s.mayIssue c = true ∧ s.atPc c (.load n signed rd rs1 off) len ∧ s.noAccess c (s.getX c rs1 + off).toNat n ∧ (s.core c).active = false) ∧
    (∃ (s : State) (c : Fin 8) (len : Nat) (n : Nat) (rs1 : Nat) (rs2 : Nat) (off : Word) (e : EccSeen), e.fetch.any (·.bad) = false ∧ s.mayIssue c = true ∧ s.atPc c (.store n rs1 rs2 off) len ∧ s.rangeOpen c (s.getX c rs1 + off).toNat n = false ∧ inRegion (s.getX c rs1 + off).toNat n 0x20000000 0x2000 = false ∧ inRegion (s.getX c rs1 + off).toNat 1 0x30000000 0x4000000 = false ∧ (s.core c).active = false) :=
  ⟨⟨{ codeDev with cores := { core := [(7, { pc := 0x10000000 })], mem := [(0, 147), (1, 143), (2, 240), (3, 255)] } }, 7, 4, .add, 31, 1, 0xFFFFFFFF, {}, by decide +kernel, by decide +kernel, Or.inl ⟨rfl, 36755, 65520, by decide +kernel, by decide +kernel, by decide +kernel, by decide +kernel⟩⟩,
    ⟨{ codeDev with cores := { core := [(7, { pc := 0x10000000 })], mem := [(0, 179), (1, 143), (2, 32), (3, 2)] } }, 7, 4, .mul, 31, 1, 2, {}, by decide +kernel, by decide +kernel, Or.inl ⟨rfl, 36787, 544, by decide +kernel, by decide +kernel, by decide +kernel, by decide +kernel⟩⟩,
    ⟨{ codeDev with cores := { core := [(7, { pc := 0x10000000 })], mem := [(0, 239), (1, 15), (2, 128)] } }, 7, 4, 31, 8, {}, by decide +kernel, by decide +kernel, Or.inl ⟨rfl, 4079, 128, by decide +kernel, by decide +kernel, by decide +kernel, by decide +kernel⟩⟩,
    ⟨{ codeDev with cores := { core := [(7, { pc := 0x10000000 })], mem := [(0, 99), (1, 132), (2, 32)] } }, 7, 4, .eq, 1, 2, 8, {}, by decide +kernel, by decide +kernel, Or.inl ⟨rfl, 33891, 32, by decide +kernel, by decide +kernel, by decide +kernel, by decide +kernel⟩⟩,
    ⟨{ codeDev with cores := { core := [(7, { pc := 0x10000000, x := [(1, 0x10000000)] })], mem := [(0, 131), (1, 175)] } }, 7, 4, 4, 31, 1, true, 0, {}, by decide +kernel, by decide +kernel, by decide +kernel, Or.inl ⟨rfl, 44931, 0, by decide +kernel, by decide +kernel, by decide +kernel, by decide +kernel⟩, by decide +kernel⟩,
    ⟨{ codeDev with cores := { core := [(7, { pc := 0x10000000, x := [(1, 0x10000000)] })], mem := [(0, 35), (1, 160), (2, 32)] } }, 7, 4, 4, 1, 2, 0, {}, by decide +kernel, by decide +kernel, Or.inl ⟨rfl, 40995, 32, by decide +kernel, by decide +kernel, by decide +kernel, by decide +kernel⟩, by decide +kernel⟩,
    ⟨{ codeDev with cores := { core := [(7, { pc := 0x10000000 })], mem := [(0, 115)] } }, 7, 4, {}, by decide +kernel, by decide +kernel, Or.inl ⟨rfl, 115, 0, by decide +kernel, by decide +kernel, by decide +kernel, by decide +kernel⟩, by decide +kernel⟩,
    ⟨{ codeDev with cores := { core := [(7, { pc := 0x10000000 })], mem := [(0, 1)] } }, 7, { fetch := [⟨0, true⟩] }, 1, by decide +kernel⟩,
    ⟨dev [], 7, by decide +kernel⟩,
    ⟨{ codeDev with cores := { core := [(7, { pc := 0x10000000 })], mem := [(0, 133), (1, 111)] } }, 7, 2, 31, 0x1000, {}, by decide +kernel, by decide +kernel, Or.inr ⟨rfl, 28549, by decide +kernel, by decide +kernel, by decide +kernel⟩⟩,
    ⟨{ codeDev with cores := { core := [(7, { pc := 0x10000000 })], mem := [(0, 151), (1, 31)] } }, 7, 4, 31, 0x1000, {}, by decide +kernel, by decide +kernel, Or.inl ⟨rfl, 8087, 0, by decide +kernel, by decide +kernel, by decide +kernel, by decide +kernel⟩⟩,
    ⟨{ codeDev with cores := { core := [(7, { pc := 0x10000000 })], mem := [(0, 130), (1, 144)] } }, 7, 2, 1, 1, 0, {}, by decide +kernel, by decide +kernel, Or.inr ⟨rfl, 36994, by decide +kernel, by decide +kernel, by decide +kernel⟩⟩,
    ⟨{ codeDev with cores := { core := [(7, { pc := 0x10000000 })], mem := [(0, 15)] } }, 7, 4, {}, by decide +kernel, by decide +kernel, Or.inl ⟨rfl, 15, 0, by decide +kernel, by decide +kernel, by decide +kernel, by decide +kernel⟩⟩,
    ⟨{ codeDev with cores := { core := [(7, { pc := 0x10000000 })], mem := [(0, 2), (1, 144)] } }, 7, 2, {}, by decide +kernel, by decide +kernel, Or.inr ⟨rfl, 36866, by decide +kernel, by decide +kernel, by decide +kernel⟩, by decide +kernel⟩,
    ⟨{ codeDev with cores := { core := [(7, { pc := 0x10000000 })], mem := [] } }, 7, 0, {}, by decide +kernel, by decide +kernel, Or.inr ⟨0, by decide +kernel, by decide +kernel, rfl, by decide +kernel⟩, by decide +kernel⟩,
    ⟨{ codeDev with cores := { core := [(7, { pc := 2 })], mem := [] } }, 7, by decide +kernel⟩,
    ⟨{ codeDev with cores := { core := [(7, { pc := 0x10000000 })], mem := [(0, 131), (1, 175)] } }, 7, 4, 4, 31, 1, true, 0, {}, by decide +kernel, by decide +kernel, Or.inl ⟨rfl, 44931, 0, by decide +kernel, by decide +kernel, by decide +kernel, by decide +kernel⟩, ⟨by decide +kernel, by decide +kernel, by decide +kernel, by decide +kernel, by decide +kernel⟩, by decide +kernel⟩,
    ⟨{ codeDev with cores := { core := [(7, { pc := 0x10000000 })], mem := [(0, 35), (1, 160), (2, 32)] } }, 7, 4, 4, 1, 2, 0, {}, by decide +kernel, by decide +kernel, Or.inl ⟨rfl, 40995, 32, by decide +kernel, by decide +kernel, by decide +kernel, by decide +kernel⟩, by decide +kernel, by decide +kernel, by decide +kernel, by decide +kernel⟩⟩

theorem witness_CustomInstructions :
    (∃ (s : State) (c : Fin 8), s.mayIssue c = true) ∧
    (∃ (s : State) (c : Fin 8), s.mayIssue c = true) ∧
    (∃ (s : State) (c : Fin 8), s.mayIssue c = true) ∧
    (∃ (s : State) (c : Fin 8) (rs1 : Fin 32), s.mayIssue c = true ∧ (s.getX c rs1).toNat < 40 ∧ 15 < (s.getX c rs1).toNat ∧ (s.getX c rs1).toNat ∉ [25, 38, 39]) ∧
    (∃ (s : State) (c : Fin 8), s.mayIssue c = true ∧ (s.core c).intPend.getLsbD 2 = true) ∧
    (∃ (s : State) (c : Fin 8), s.mayIssue c = true ∧ (s.core c).intPend.getLsbD 2 = false) ∧
    (∃ (s : State) (c : Fin 8), s.mayIssue c = true ∧ s.intDue c ≠ 0 ∧ (∀ e < 40, Tab.get (s.core c).cnt 0 e + 1 < 2 ^ 48)) ∧
    (∃ (s : State) (c : Fin 8), s.mayIssue c = true ∧ s.intDue c = 0 ∧ (∀ e < 40, Tab.get (s.core c).cnt 0 e + 1 < 2 ^ 48)) ∧
    (∃ (s : State) (c : Fin 8), s.mayIssue c = true) ∧
    (∃ (s : State) (c : Fin 8) (rd : Fin 32), s.up = true ∧ s.coreState c = 2 ∧ (s.core c).sleep = some (.wfb rd) ∧ (s.core c).intPend.getLsbD 2 = true ∧ (((s.setCoreState c 1).awake c).slotFor c).openSlots c ≠ 0) ∧
    (∃ (s : State) (c : Fin 8) (rs1 : Fin 32), s.mayIssue c = true ∧ 39 < (s.getX c rs1).toNat % 64) ∧
    (∃ (s : State) (c : Fin 8) (rs1 : Fin 32), s.mayIssue c = true ∧ (s.getX c rs1).toNat % 64 < 40 ∧ bitAt (s.getX c rs1).toNat 6 = true) ∧
    (∃ (s : State) (c : Fin 8) (rs1 : Fin 32), s.mayIssue c = true ∧ (s.getX c rs1).toNat % 64 < 40 ∧ bitAt (s.getX c rs1).toNat 6 = false) ∧
    (∃ (s : State) (u : State) (c : Fin 8) (rd : Fin 32), s.up = true ∧ s.coreState c = 2 ∧ (s.core c).sleep = some (.wfe rd) ∧ s.intDue c ≠ 0 ∧ u = ((s.setCoreState c 1).awake c).slotFor c ∧ u.openSlots c ≠ 0) :=
  ⟨⟨codeDev, 7, by decide +kernel⟩,
    ⟨codeDev, 7, by decide +kernel⟩,
    ⟨codeDev, 7, by decide +kernel⟩,
    ⟨{ codeDev with cores := { core := [(7, { x := [(31, 37)] })] } }, 7, 31, by decide +kernel⟩,
    ⟨{ codeDev with cores := { core := [(7, { intPend := 4 })] } }, 7, by decide +kernel⟩,
    ⟨codeDev, 7, by decide +kernel⟩,
    ⟨{ codeDev with cores := { core := [(7, { intPend := 0x80, intEn := 0x80 })] } }, 7, by decide +kernel⟩,
    ⟨codeDev, 7, by decide +kernel⟩,
    ⟨codeDev, 7, by decide +kernel⟩,
    ⟨{ dev [(F.coreStatus_STATE 7, 2)] with cores := { core := [(7, { sleep := some (.wfb 31), intPend := 4 })] } }, 7, 31, by decide +kernel⟩,
    ⟨{ codeDev with cores := { core := [(7, { x := [(31, 63)] })] } }, 7, 31, by decide +kernel⟩,
    ⟨{ codeDev with cores := { core := [(7, { x := [(31, 103)] })] } }, 7, 31, by decide +kernel⟩,
    ⟨{ codeDev with cores := { core := [(7, { x := [(31, 39)] })] } }, 7, 31, by decide +kernel⟩,
    ⟨{ dev [(F.coreStatus_STATE 7, 2)] with cores := { core := [(7, { sleep := some (.wfe 31), intPend := 4, intEn := 4 })] } }, ((({ dev [(F.coreStatus_STATE 7, 2)] with cores := { core := [(7, { sleep := some (.wfe 31), intPend := 4, intEn := 4 })] } } : State).setCoreState 7 1).awake 7).slotFor 7, 7, 31, by decide +kernel, by decide +kernel, by decide +kernel, by decide +kernel, rfl, by decide +kernel⟩⟩

theorem witness_CoreEvents :
    (∃ (s : State) (c : Fin 8) (cause : BitVec 8), s.mayIssue c = true ∧ 1 ≤ cause.toNat ∧ cause.toNat ≤ 7 ∧ (s.core c).active = false) ∧
    (∃ (s : State) (c : Fin 8) (cause : BitVec 8), s.mayIssue c = true ∧ 1 ≤ cause.toNat ∧ cause.toNat ≤ 7 ∧ (s.core c).active = true ∧ (c.val < 2 ∨ 6 ≤ c.val)) ∧
    (∃ (s : State) (c : Fin 8) (cause : BitVec 8), s.mayIssue c = true ∧ 1 ≤ cause.toNat ∧ cause.toNat ≤ 7 ∧ (s.core c).active = true ∧ 2 ≤ c.val ∧ c.val < 6) ∧
    (∃ (s : State) (c : Fin 8) (i : Nat), s.mayIssue c = true ∧ (s.core c).active = false ∧ (maskIdx 8 (s.intDue c).toNat).head? = some i) ∧
    (∃ (s : State) (c : Fin 8) (v : Word), s.up = true ∧ 6 ≤ c.val ∧ (s.core c).mbBusy.getLsbD (v.toNat % 8) = false) ∧
    (∃ (s : State) (v : Word), s.up = true ∧ v.getLsbD 31 = true) ∧
    (∃ (s : State), s.up = true) ∧
    (∃ (s : State) (c : Fin 8) (v : Word), s.up = true ∧ v.getLsbD 31 = true ∧ (s.core c).fifoN ≠ 0) ∧
    (∃ (s : State) (c : Fin 8), s.coreWdtAt c 3 = true) ∧
    (∃ (s : State) (c : Fin 8), s.coreWdtAt c 4 = true ∧ c.val < 2) ∧
    (∃ (s : State) (c : Fin 8), s.coreWdtAt c 4 = true ∧ 2 ≤ c.val ∧ s.hasImage c = true) ∧
    (∃ (s : State) (c : Fin 8) (e : Fin 40), s.up = true ∧ e.val ≤ 2 ∧ Tab.get (s.core c).wraps 0 e < (if e.val = 0 then s.cycles c else if e.val = 1 then s.sleepCycles c else s.issueSlots c) / 2 ^ 48) ∧
    (∃ (e : Fin 40), 2 < e.val) ∧
    (∃ (s : State) (c : Fin 8), s.running c = true ∧ s.tagK c ≠ 0 ∧ (s.core c).countdown = 0 ∧ (s.core c).tagDue = false ∧ (s.core c).tagged = none ∧ s.fld (F.perfTagStatus_COUNT c) ≠ 64) ∧
    (∃ (s : State) (c : Fin 8), s.running c = true ∧ s.tagK c ≠ 0 ∧ (s.core c).countdown = 0 ∧ s.fld (F.perfTagStatus_COUNT c) = 64) ∧
    (∃ (s : State) (c : Fin 8), s.up = true ∧ s.fld (F.perfTagStatus_COUNT c) ≠ 0) :=
  ⟨⟨codeDev, 7, 7, by decide +kernel⟩,
    ⟨{ codeDev with cores := { core := [(7, { active := true })] } }, 7, 1, by decide +kernel⟩,
    ⟨{ dev [(F.coreStatus_STATE 5, 1)] with cores := { core := [(5, { active := true })] } }, 5, 7, by decide +kernel⟩,
    ⟨{ codeDev with cores := { core := [(7, { intPend := 0x80, intEn := 0x80 })] } }, 7, 7, by decide +kernel⟩,
    ⟨codeDev, 7, 7, by decide +kernel⟩,
    ⟨codeDev, 0x80000000, by decide +kernel⟩,
    ⟨codeDev, by decide +kernel⟩,
    ⟨{ codeDev with cores := { core := [(7, { fifoN := 1 })] } }, 7, 0x80000000, by decide +kernel⟩,
    ⟨{ dev [(F.coreWdt_EN 7, 1), (F.coreStatus_STATE 7, 1)] with time := { tick := 10 ^ 13 } }, 7, by decide +kernel⟩,
    ⟨{ dev [(F.coreWdt_EN 1, 1), (F.coreStatus_STATE 1, 1)] with time := { tick := 10 ^ 13 } }, 1, by decide +kernel⟩,
    ⟨{ dev [(F.coreWdt_EN 2, 1), (F.coreStatus_STATE 2, 1)] with time := { tick := 10 ^ 13 } }, 2, by decide +kernel⟩,
    ⟨{ dev [] with time := { tick := 2 ^ 50 } }, 7, 0, by decide +kernel⟩,
    ⟨39, by decide +kernel⟩,
    ⟨dev [(F.coreStatus_STATE 7, 1), (F.perfTagCfg_K 7, 20)], 7, by decide +kernel⟩,
    ⟨dev [(F.coreStatus_STATE 7, 1), (F.perfTagCfg_K 7, 20), (F.perfTagStatus_COUNT 7, 64)], 7, by decide +kernel⟩,
    ⟨dev [(F.perfTagStatus_COUNT 7, 64)], 7, by decide +kernel⟩⟩

theorem witness_Banks :
    (∃ (s : State) (b : Fin 32) (v : Word), s.up = true ∧ s.flag (F.bankCtrl_PENDING b) = false ∧ ownerCode ((F.bankCtrl_NEXT b).of v) ≠ s.bankOwner b ∧ s.mayHand .host b (ownerCode ((F.bankCtrl_NEXT b).of v)) = true ∧ s.flag (F.quad_ILV_ACTIVE (b.val / 4)) = false ∧ (F.bankCtrl_POWER b).of v = s.fld (F.bankCtrl_POWER b)) ∧
    (∃ (s : State) (b : Fin 32) (v : Word), s.up = true ∧ s.flag (F.bankCtrl_PENDING b) = false ∧ ownerCode ((F.bankCtrl_NEXT b).of v) = s.bankOwner b) ∧
    (∃ (s : State) (src : WrSrc) (q : Fin 8) (v : Word), s.up = true ∧ ownerCode ((F.quad_NEXT q).of v) ≠ 15 ∧ s.bankOwner (4 * q.val) ≠ ownerCode ((F.quad_NEXT q).of v) ∧ (∀ b ∈ quadBanks q, s.flag (F.bankCtrl_PENDING b) = false ∧ s.mayHand src b (ownerCode ((F.quad_NEXT q).of v)) = true)) ∧
    (∃ (s : State) (b : Fin 32), s.up = true ∧ s.flag (F.bankCtrl_PENDING b) = true) ∧
    (∃ (s : State), s.up = true) ∧
    (∃ (s : State) (c : Cmd), s.takes c 0x0D01 = true ∧ c.ok 24 [(5, 3), (12, 4)] = true ∧ c.fld 0 4 % 4 = 0 ∧ c.fld 4 1 = 0 ∧ 4 ≤ c.fld 8 4 ∧ c.fld 8 4 ≤ 131072 ∧ c.fld 8 4 % 4 = 0 ∧ 0x10000000 ≤ c.fld 0 4 ∧ c.fld 0 4 + c.fld 8 4 ≤ 0x10400000 ∧ s.bufOk c.src (c.fld 16 8) (c.fld 8 4) = true ∧ c.src = .host ∧ s.rangeOpen 8 (c.fld 0 4) (c.fld 8 4) = true) ∧
    (∃ (a : Nat), 0x10000000 ≤ a ∧ a < 0x10400000 ∧ a % 4 = 0) :=
  ⟨⟨dev [(F.bankCtrl_OWNER 31, 8), (F.bankCtrl_LOCK 31, 0), (F.quad_ILV_ACTIVE 7, 0), (F.bankCtrl_POWER 31, 2)], 31, wordOf [(F.bankCtrl_NEXT 31, 7), (F.bankCtrl_POWER 31, 2)], by decide +kernel⟩,
    ⟨dev [(F.bankCtrl_OWNER 31, 8)], 31, wordOf [(F.bankCtrl_NEXT 31, 8)], by decide +kernel⟩,
    ⟨dev [(F.bankCtrl_OWNER 28, 8), (F.bankCtrl_OWNER 29, 8), (F.bankCtrl_OWNER 30, 8), (F.bankCtrl_OWNER 31, 8)], .host, 7, wordOf [(F.quad_NEXT 7, 7)], by decide +kernel⟩,
    ⟨dev [(F.bankCtrl_PENDING 31, 1)], 31, by decide +kernel⟩,
    ⟨dev [], by decide +kernel⟩,
    ⟨dev [(F.quad_ILV_ACTIVE 0, 0), (F.bankCtrl_OWNER 0, 8), (F.bankCtrl_POWER_STATE 0, 2)], hostCmd [(0, 4, 0x10000000), (8, 4, 4), (16, 8, 0x1000)], by decide +kernel⟩,
    ⟨0x103FFFFC, by decide +kernel⟩⟩

theorem witness_Vault :
    (∃ (s : State) (k : Fin 8) (d : Word), s.power.aon = true ∧ s.tamperCond k d = true ∧ s.resp k = 3) ∧
    (∃ (s : State) (k : Fin 8) (d : Word), s.power.aon = true ∧ s.tamperCond k d = true ∧ s.resp k = 1) ∧
    (∃ (s : State), s.power.aon = true) ∧
    (∃ (s : State), s.power.aon = false) ∧
    (∃ (s : State) (v : Word), s.up = true ∧ (F.secTamperLock_LOCK).of v = 1) ∧
    (∃ (s : State), s.up = true ∧ s.flag F.secTamperLock_LOCK = false) ∧
    (∃ (s : State) (k : Fin 8) (v : Word), s.up = true ∧ s.flag F.secTamperLock_LOCK = true ∧ (F.secTamperCfg_RESP k).of v < s.resp k) ∧
    (∃ (s : State) (c : Cmd), s.takes c 0x0E07 = true ∧ c.ok 4 [(2, 2)] = true ∧ c.fld 1 1 < 2) ∧
    (∃ (s : State) (c : Cmd), s.takes c 0x0E05 = true ∧ c.ok 40 [(2, 6)] = true ∧ ((c.fld 0 1 = 0 ∧ c.fld 1 1 < 64) ∨ (c.fld 0 1 = 1 ∧ c.fld 1 1 = 0) ∨ (c.fld 0 1 = 2 ∧ c.fld 1 1 < 16)) ∧ s.eraseLatched = false) ∧
    (∃ (s : State) (c : Cmd) (k : BitVec 256), s.takes c 0x0E06 = true ∧ c.ok 24 [(1, 3)] = true ∧ c.fld 0 1 < 16 ∧ 1 ≤ c.fld 4 4 ∧ c.fld 4 4 ≤ 65536 ∧ s.bufOk c.src (c.fld 8 8) (c.fld 4 4) = true ∧ s.bufOk c.src (c.fld 16 8) 48 = true ∧ c.src = .host ∧ Tab.find (65 + c.fld 0 1) s.sec.keys = some k) :=
  ⟨⟨dev [(F.secTamperCfg_RESP 7, 3)], 7, 1, by decide +kernel⟩,
    ⟨dev [(F.secTamperCfg_RESP 7, 1)], 7, 1, by decide +kernel⟩,
    ⟨dev [], by decide +kernel⟩,
    ⟨(dev []).modPower fun x => { x with aon := false }, by decide +kernel⟩,
    ⟨dev [], 1, by decide +kernel⟩,
    ⟨dev [], by decide +kernel⟩,
    ⟨dev [(F.secTamperLock_LOCK, 1), (F.secTamperCfg_RESP 7, 3)], 7, 2, by decide +kernel⟩,
    ⟨dev [], hostCmd [(0, 1, 255), (1, 1, 1)], by decide +kernel⟩,
    ⟨dev [], hostCmd [(1, 1, 63), (8, 32, 5)], by decide +kernel⟩,
    ⟨{ dev [] with sec := { keys := [(80, 5)] } }, hostCmd [(0, 1, 15), (4, 4, 4), (8, 8, 0x1000), (16, 8, 0x2000)], 5, by decide +kernel⟩⟩

theorem witness_Updates :
    (∃ (s : State) (c : Cmd), s.takes c 0x0E08 = true ∧ c.ok 56 [(2, 6)] = true ∧ c.fld 0 1 = 4 ∧ c.fld 1 1 = 0 ∧ s.inDip = false ∧ bitAt (s.fld F.updKeys_CUST_PROG) 0 = false) ∧
    (∃ (s : State) (c : Cmd), s.takes c 0x0E08 = true ∧ c.ok 56 [(2, 6)] = true ∧ c.fld 0 1 = 4 ∧ c.fld 1 1 < 2 ∧ s.inDip = true) ∧
    (∃ (s : State) (c : Cmd), s.takes c 0x0E01 = true ∧ c.ok 16 [(12, 4)] = true ∧ 64 ≤ c.fld 8 4 ∧ c.fld 8 4 ≤ 25165824 ∧ s.fld F.updStatus_INSTALLED = 0 ∧ (s.fetched c).longBarred = false ∧ (s.fetched c).freeLong.isSome = true) ∧
    (∃ (s : State) (c : Cmd) (i : Image), s.takes c 0x0E02 = true ∧ c.ok 4 [(2, 2)] = true ∧ 2 ≤ c.fld 0 1 ∧ c.fld 0 1 ≤ 4 ∧ c.fld 1 1 = 0 ∧ s.flag F.updStatus_STAGE_VALID = true ∧ imageOf s.sec.staged (c.fld 0 1) = some i ∧ s.sec.running.contains i = false ∧ (i.requires.all fun r => meets s.sec.running r) = true ∧ (s.fetched c).longReady 0x0E02 = true) ∧
    (∃ (s : State) (c : Cmd) (i : Image), s.takes c 0x0E02 = true ∧ c.ok 4 [(2, 2)] = true ∧ c.fld 0 1 < 10 ∧ c.fld 1 1 = 1 ∧ s.flag F.updStatus_STAGE_VALID = true ∧ imageOf s.sec.staged (c.fld 0 1) = some i ∧ s.sec.running.contains i = false ∧ (i.requires.all fun r => meets s.sec.running r) = true) ∧
    (∃ (s : State) (c : Cmd), s.takes c 0x0E03 = true ∧ c.ok 4 [(1, 3)] = true ∧ c.fld 0 1 = 1 ∧ s.inDip = false ∧ s.flag F.updStatus_STAGE_VALID = true) ∧
    (∃ (s : State) (c : Cmd), s.takes c 0x0E04 = true ∧ c.ok 0 = true ∧ s.inDip = false ∧ s.fld F.updStatus_INSTALLED = 0 ∧ (s.host.longOps.any fun o => o.op == 0x0E01) = false) ∧
    (∃ (s : State) (c : Cmd), s.takes c 0x0E04 = true ∧ c.ok 0 = true ∧ s.inDip = false ∧ s.fld F.updStatus_INSTALLED ≠ 0) ∧
    (∃ (s : State) (c : Cmd), s.takes c 0x0E04 = true ∧ c.ok 0 = true ∧ s.inDip = true) ∧
    (∃ (s : State), s.sec.erasing = true ∧ s.inDip = false ∧ s.host.longOps = []) :=
  ⟨⟨devOf [(Reg.updKeys, 0)] [], hostCmd [(0, 1, 4), (8, 48, 5)], by decide +kernel⟩,
    ⟨(dev []).modPower fun x => { x with dip := some { rails := 0x1FF, below := 0x100, lows := [], start := 0, since := 0, startTick := 0 } }, hostCmd [(0, 1, 4), (1, 1, 1)], by decide +kernel⟩,
    ⟨dev [], hostCmd [(0, 8, 0x1000), (8, 4, 25165824)], by decide +kernel⟩,
    ⟨{ dev [(F.updStatus_STAGE_VALID, 1)] with sec := { staged := [{ component := 4, version := 2 }] } }, hostCmd [(0, 1, 4)], { component := 4, version := 2 }, by decide +kernel⟩,
    ⟨{ dev [(F.updStatus_STAGE_VALID, 1)] with sec := { staged := [{ component := 4, version := 2 }] } }, hostCmd [(0, 1, 4), (1, 1, 1)], { component := 4, version := 2 }, by decide +kernel⟩,
    ⟨{ dev [(F.updStatus_STAGE_VALID, 1)] with sec := { staged := [{ component := 4, version := 2 }] } }, hostCmd [(0, 1, 1)], by decide +kernel⟩,
    ⟨dev [], hostCmd [], by decide +kernel⟩,
    ⟨dev [(F.updStatus_INSTALLED, 1)], hostCmd [], by decide +kernel⟩,
    ⟨(dev []).modPower fun x => { x with dip := some { rails := 0x1FF, below := 0x100, lows := [], start := 0, since := 0, startTick := 0 } }, hostCmd [], by decide +kernel⟩,
    ⟨{ dev [] with sec := { erasing := true } }, by decide +kernel⟩⟩

theorem witness_TimingPair :
    (∃ (s : State) (c : Fin 2), s.up = true ∧ s.fld (F.coreStatus_STATE c) ∈ [1, 2]) ∧
    (∃ (s : State) (c : Fin 2), s.up = true ∧ s.fld (F.coreStatus_STATE c) ∈ [1, 2]) ∧
    (∃ (s : State) (n : Nat), s.up = true ∧ n ≠ s.beat) ∧
    (∃ (s : State) (c : Fin 2), s.fld (F.coreStatus_STATE c) ∉ [1, 2]) ∧
    (∃ (s : State) (c : Cmd), s.takes c 0x0B02 = true ∧ c.ok 10 = true ∧ s.nameOk (c.fld 6 4) (boundaryName (c.fld 0 6) (c.fld 6 4)) = true ∧ s.pairState (1 - s.holder) = 3 ∧ s.flag F.redundStatus_UNATTENDED = false ∧ s.redund.swap = none) ∧
    (∃ (s : State) (c : Cmd), s.takes c 0x0B01 = true ∧ c.ok 8 [(2, 2)] = true ∧ c.fld 0 1 < 2 ∧ c.fld 1 1 = 0 ∧ c.fld 0 1 ≠ s.holder ∧ (s.fetched c).longReady 0x0B01 = true) ∧
    (∃ (s : State), s.up = true ∧ s.boardOk = true ∧ max 1 (s.fld F.redundCfg_BOARD_WAIT) ≤ s.redund.low ∧ s.flag F.redundStatus_BOARD_HOLD = false) ∧
    (∃ (s : State), s.redund.low < max 1 (s.fld F.redundCfg_BOARD_WAIT)) ∧
    (∃ (s : State), s.redund.taking = true) :=
  ⟨⟨dev [(F.coreStatus_STATE 1, 1)], 1, by decide +kernel⟩,
    ⟨dev [(F.coreStatus_STATE 1, 1)], 1, by decide +kernel⟩,
    ⟨dev [], 1, by decide +kernel⟩,
    ⟨dev [], 1, by decide +kernel⟩,
    ⟨dev [(F.redundStatus_HOLDER, 0), (pairField 1, 3)], hostCmd [(0, 6, 5)], by decide +kernel⟩,
    ⟨dev [(F.redundStatus_HOLDER, 0)], hostCmd [(0, 1, 1)], by decide +kernel⟩,
    ⟨{ dev [(F.redundCfg_BOARD_EN, 1)] with redund := { low := 255 } }, by decide +kernel⟩,
    ⟨dev [], by decide +kernel⟩,
    ⟨{ dev [] with redund := { taking := true } }, by decide +kernel⟩⟩

theorem witness_LongOperations :
    (∃ (s : State) (c : Cmd) (o : LongOp), s.takes c 0x0C01 = true ∧ c.ok 5 = true ∧ c.fld 4 1 = 0 ∧ s.longAt (BitVec.ofNat 32 (c.fld 0 4)) = some o ∧ c.user = none ∧ o.state ≠ .suspended ∧ o.suspendable = true ∧ o.suspend = none) ∧
    (∃ (s : State) (c : Cmd) (o : LongOp), s.takes c 0x0C01 = true ∧ c.ok 5 = true ∧ c.fld 4 1 = 2 ∧ s.longAt (BitVec.ofNat 32 (c.fld 0 4)) = some o ∧ c.user = none ∧ o.op = 0x0902 ∧ s.host.longOps = [o]) ∧
    (∃ (s : State) (c : Cmd), s.takes c 0x0C01 = true ∧ c.ok 5 = true ∧ c.fld 4 1 < 3 ∧ s.longAt (BitVec.ofNat 32 (c.fld 0 4)) = none) ∧
    (∃ (s : State) (c : Cmd) (o : LongOp), s.takes c 0x0C02 = true ∧ c.ok 4 = true ∧ s.longHandle (BitVec.ofNat 32 (c.fld 0 4)) = some o ∧ c.user = none) ∧
    (∃ (s : State) (c : Cmd), s.takes c 0x0C02 = true ∧ c.ok 4 = true ∧ s.longHandle (BitVec.ofNat 32 (c.fld 0 4)) = none) ∧
    (∃ (s : State) (h : BitVec 32) (o : LongOp) (i : Nat), s.longAt h = some o ∧ s.host.longOps = [o] ∧ o.suspend = some i) ∧
    (∃ (s : State) (h : BitVec 32) (o : LongOp), s.longAt h = some o ∧ s.host.longOps = [o] ∧ o.suspend = none ∧ o.state = .running ∧ (o.op = 0x0205 ∨ o.op = 0x0502)) ∧
    (∃ (s : State) (h : BitVec 32) (o : LongOp), s.longAt h = some o ∧ o.state = .running ∧ o.op = 0x0502 ∧ o.suspend = none ∧ s.host.longOps = [o]) :=
  ⟨⟨{ dev [] with host := { longOps := [{ handle := 16, op := 0x0902, res := 0x0902, tick := 0, state := .running, cmd := hostCmd [] }] } }, hostCmd [(0, 4, 0x10)], { handle := 16, op := 0x0902, res := 0x0902, tick := 0, state := .running, cmd := hostCmd [] }, by decide +kernel⟩,
    ⟨{ dev [] with host := { longOps := [{ handle := 16, op := 0x0902, res := 0x0902, tick := 0, state := .running, cmd := hostCmd [] }] } }, hostCmd [(0, 4, 0x10), (4, 1, 2)], { handle := 16, op := 0x0902, res := 0x0902, tick := 0, state := .running, cmd := hostCmd [] }, by decide +kernel⟩,
    ⟨dev [], hostCmd [(0, 4, 0x10), (4, 1, 2)], by decide +kernel⟩,
    ⟨{ dev [] with host := { longOps := [{ handle := 16, op := 0x0902, res := 0x0902, tick := 0, state := .running, cmd := hostCmd [] }] } }, hostCmd [(0, 4, 0x10)], { handle := 16, op := 0x0902, res := 0x0902, tick := 0, state := .running, cmd := hostCmd [] }, by decide +kernel⟩,
    ⟨dev [], hostCmd [(0, 4, 0x10)], by decide +kernel⟩,
    ⟨{ dev [] with host := { longOps := [{ handle := 16, op := 0x0902, res := 0x0902, tick := 0, state := .running, cmd := hostCmd [], suspend := some 3 }], parked := [{ id := 3, cmd := hostCmd [], op := 0x0103 }] } }, 0x10, { handle := 16, op := 0x0902, res := 0x0902, tick := 0, state := .running, cmd := hostCmd [], suspend := some 3 }, 3, by decide +kernel⟩,
    ⟨{ dev [] with host := { longOps := [{ handle := 16, op := 0x0502, res := 0x0502, tick := 0, state := .running, cmd := hostCmd [] }] } }, 0x10, { handle := 16, op := 0x0502, res := 0x0502, tick := 0, state := .running, cmd := hostCmd [] }, by decide +kernel⟩,
    ⟨{ dev [] with host := { longOps := [{ handle := 16, op := 0x0502, res := 0x0502, tick := 0, state := .running, cmd := hostCmd [] }] } }, 0x10, { handle := 16, op := 0x0502, res := 0x0502, tick := 0, state := .running, cmd := hostCmd [] }, by decide +kernel⟩⟩

theorem witness_Registers :
    (∃ (s : State), s.up = true) ∧
    (∃ (s : State) (k : Nat), s.up = true ∧ k < 48 ∧ k ≠ 36) ∧
    (∃ (s : State), s.up = true) ∧
    (∃ (s : State) (a : Nat) (h : RegHit), s.up = true ∧ a % 4 = 0 ∧ RegMap.find a = some h ∧ counterRows.contains h.row.base = false ∧ h.row.base ≠ Reg.perfCntLo 0 0 ∧ h.row.base ≠ Reg.secLog 0 ∧ linkRows.contains h.row.base = false ∧ h.row.base ≠ Reg.eqHwm 0) ∧
    (∃ (s : State), s.up = true) ∧
    (∃ (s : State) (src : WrSrc) (a : Nat) (h : RegHit), s.up = true ∧ a % 4 = 0 ∧ RegMap.find a = some h ∧ writeOp h.row.base = none ∧ (∀ c, src = .core c → c.val < 2 → gatedReg a = false)) ∧
    (∃ (s : State) (src : WrSrc) (a : Nat) (h : RegHit), s.up = true ∧ a % 4 = 0 ∧ RegMap.find a = some h ∧ writeOp h.row.base = none ∧ (∀ c, src = .core c → c.val < 2 → gatedReg a = false)) :=
  ⟨⟨dev [], by decide +kernel⟩,
    ⟨{ dev [] with ctr := [(Reg.portCntLo 127 47, 2 ^ 40 + 5)] }, 47, by decide +kernel⟩,
    ⟨dev [(⟨Reg.slotLate 255, 0, 32⟩, 5)], by decide +kernel⟩,
    ⟨dev [(⟨Reg.globalLateCnt 8, 0, 32⟩, 5)], Reg.globalLateCnt 8, _, by decide +kernel, by decide +kernel, rfl, by decide +kernel, by decide +kernel, by decide +kernel, by decide +kernel, by decide +kernel⟩,
    ⟨{ dev [(F.eqHwm_HWM 2047, 7)] with fabric := { eq := [{ frame := 5, port := 127, q := 127, cls := 15, cells := 1, adm := 1 }] } }, by decide +kernel⟩,
    ⟨dev [(F.secStatus_ERASED, 1)], .host, Reg.secStatus, _, by decide +kernel, by decide +kernel, rfl, rfl, fun _ h => nomatch h⟩,
    ⟨dev [], .host, Reg.globalLateEvmask, _, by decide +kernel, by decide +kernel, rfl, rfl, fun _ h => nomatch h⟩⟩

theorem witness_IdleTick :
    ∃ (s : State), s.pending = [] :=
  ⟨dev [], by decide +kernel⟩

theorem witness_QueueIsWorkedOff :
    ∃ (s : State) (c : Instr) (l : List Instr), s.pending = c :: l ∧ c.wf = true :=
  ⟨{ dev [] with pending := [.standbyWake] }, .standbyWake, [], by decide +kernel⟩

theorem witness_CommandAcceptance :
    (∃ (s : State) (c : Cmd) (op : Nat), s.takes c op = true) ∧
    (∃ (s : State) (c : Cmd) (op : Nat) (k : Nat) (i : Nat), s.mayStart c op = true ∧ c.user = some (k, i) ∧ op ≠ 0x0C03 ∧ bitAt ((s.fetched c).fld (F.coreMb_ALLOW (k - 6))) (op / 256) = false) ∧
    (∃ (s : State) (c : Cmd) (op : Nat), s.mayStart c op = true ∧ c.user = none ∧ s.fld F.globalBoot_STAGE = 15 ∧ op ∉ [0x0C03, 0x0E01, 0x0103, 0x0E03]) ∧
    (∃ (s : State) (c : Cmd), (s.serving = false ∨ s.turn ≠ c.source ∨ 256 ≤ s.host.parked.length + s.host.waitCpl.length)) ∧
    (∃ (s : State) (c : Cmd) (op : Nat), s.takesCmd c op = true ∧ op / 256 = 0x0E ∧ s.replaced 5 = true) ∧
    (∃ (s : State) (c : Cmd) (op : Nat), s.takesCmd c op = true ∧ bitAt c.flags.toNat 0 = true ∧ Tab.find c.source s.host.fenceAt = none ∧ (∃ p ∈ s.host.parked, p.id < s.host.nextId)) ∧
    (∃ (s : State), s.longBarred = false ∧ s.freeLong.isSome = true) ∧
    (∃ (s : State), s.longBarred = false ∧ s.freeLong = none) ∧
    (∃ (i : Instr) (s : State) (c : Cmd) (op : Nat), i.cmd = some (c, op) ∧ s.takes c op = true ∧ i.argsOk s = false) ∧
    (∃ (i : Instr) (s : State) (c : Cmd) (op : Nat) (e : Nat), i.cmd = some (c, op) ∧ s.takes c op = true ∧ i.argsOk s = true ∧ i.turnedAway (s.fetched c) = some e) ∧
    (∃ (i : Instr) (s : State), i.idle s = true) :=
  ⟨⟨dev [], hostCmd [], 0x0C03, by decide +kernel⟩,
    ⟨{ dev [] with cores := { core := [(7, { mbBusy := 0x80, mbReq := [(7, ({ hostCmd [] with src := .mbox 1 7 } : Cmd).descriptor 0x0101)] })] }, host := { turn := 2 } }, { hostCmd [] with src := .mbox 1 7 }, 0x0101, 7, 7, by decide +kernel⟩,
    ⟨dev [(F.globalBoot_STAGE, 15)], hostCmd [], 0x0101, by decide +kernel⟩,
    ⟨State.reset, hostCmd [], by decide +kernel⟩,
    ⟨dev [(F.coreStatus_STATE 5, 4)], hostCmd [], 0x0E01, by decide +kernel⟩,
    ⟨{ dev [] with host := { parked := [{ id := 3, cmd := hostCmd [], op := 0x0103 }], nextId := 4 } }, { hostCmd [] with flags := 1 }, 0x0101, by decide +kernel⟩,
    ⟨dev [], by decide +kernel⟩,
    ⟨{ dev [] with host := { longOps := (List.range 64).map fun k => { handle := BitVec.ofNat 32 k, op := 0x0502, res := 0x0502, tick := 0, state := .running, cmd := hostCmd [] } } }, by decide +kernel⟩,
    ⟨.laneRetrain (hostCmd [(2, 1, 1)]), dev [], hostCmd [(2, 1, 1)], 0x0201, by decide +kernel⟩,
    ⟨.laneRetrain (hostCmd []), dev [(F.laneStatus_STATE 0, 8), (F.laneCfg_EN 0, 1)], hostCmd [], 0x0201, st.badState, by decide +kernel⟩,
    ⟨.nop (hostCmd []), State.reset, by decide +kernel⟩⟩

theorem witness_EventRecords :
    (∃ (s : State), s.host.lost = none ∧ 2 ≤ s.ringFree 66 ∧ s.flag F.hostifEmerg_DMA_OFF = false) ∧
    (∃ (s : State), s.host.lost = none ∧ s.ringFree 66 = 0) :=
  ⟨⟨dev [(F.ringCfg_EN 66, 1)], by decide +kernel⟩,
    ⟨dev [], by decide +kernel⟩⟩

theorem witness_UnassignedOpcodes :
    (∃ (s : State) (c : Cmd) (op : BitVec 16), op.toNat ∉ opcodes ∧ s.mayStart c op.toNat = true) ∧
    (∃ (op : BitVec 16), (op.toNat / 256 = 0 ∨ 0x0F ≤ op.toNat / 256)) :=
  ⟨⟨dev [], hostCmd [], 0xFFFF, by decide +kernel⟩,
    ⟨0xFF00, by decide +kernel⟩⟩

theorem witness_LateCounters :
    (∃ (k : Fin 9) (j : Fin 9), j ≠ k) ∧
    (∃ (s : State), s.up = true) ∧
    (∃ (s : State), regsCanon s = true) :=
  ⟨⟨8, 7, by decide +kernel⟩,
    ⟨dev [(F.globalLateCnt_COUNT 8, 5)], by decide +kernel⟩,
    ⟨dev [(F.globalLateCnt_COUNT 8, 5)], by decide +kernel⟩⟩

theorem witness_TamperLock :
    (∃ (s : State) (k : Fin 8) (v : Word), s.up = true ∧ s.flag F.secTamperLock_LOCK = true ∧ (F.secTamperCfg_RESP k).of v < s.resp k ∨ (F.secTamperCfg_EXPECT k).of v ≠ s.fld (F.secTamperCfg_EXPECT k)) ∧
    (∃ (s : State) (k : Fin 8) (v : Word), s.up = true ∧ s.flag F.secTamperLock_LOCK = true ∧ s.resp k ≤ (F.secTamperCfg_RESP k).of v ∧ (F.secTamperCfg_EXPECT k).of v = s.fld (F.secTamperCfg_EXPECT k)) ∧
    (∃ (s : State), s.up = true ∧ s.flag F.secTamperLock_LOCK = true) ∧
    (∃ (s : State), regsCanon s = true ∧ s.flag F.secTamperLock_LOCK = true) ∧
    (∃ (s : State), regsCanon s = true ∧ s.flag F.secTamperLock_LOCK = true) ∧
    (∃ (s : State), s.power.aon = false) :=
  ⟨⟨dev [(F.secTamperLock_LOCK, 1), (F.secTamperCfg_RESP 7, 2)], 7, 1, by decide +kernel⟩,
    ⟨dev [(F.secTamperLock_LOCK, 1), (F.secTamperCfg_RESP 7, 2)], 7, 3, by decide +kernel⟩,
    ⟨dev [(F.secTamperLock_LOCK, 1), (F.secTamperCfg_RESP 7, 2)], by decide +kernel⟩,
    ⟨dev [(F.secTamperLock_LOCK, 1), (F.secTamperCfg_RESP 7, 2)], by decide +kernel⟩,
    ⟨dev [(F.secTamperLock_LOCK, 1), (F.secTamperCfg_RESP 7, 2)], by decide +kernel⟩,
    ⟨(dev []).modPower fun x => { x with aon := false }, by decide +kernel⟩⟩

theorem witness_EveryStepKeepsCanonicalForm : regsCanon State.reset = true ∧ Memory.wf State.reset.cores.mem = true ∧ ∃ t, step State.reset = .next t :=
  ⟨by decide +kernel, by decide +kernel, _, rfl⟩

theorem witness_WhoChangesKeysAndCounters : ∃ t, exec .beatBoundary (dev []) = .next t := ⟨_, rfl⟩

theorem witness_BankStores (c : Cmd) (data : List (BitVec 8)) (l : List BulkRec) (b : Fin 16) (ecc : List EccErr) (n : Nat) (w : ReadFor) (s : State) (a k : Bool) :
    (∃ t, exec (.memCopy c data ecc) s = .next t) ∧ (∃ t, exec (.keyHmac c data) s = .next t) ∧ (∃ t, exec (.sessionRead c) s = .next t) ∧
    (∃ t, exec (.tableBulk c l) s = .next t) ∧ (∃ t, exec (.i2cTransferEnd b a data k) s = .next t) ∧ (∃ t, exec .snapshotXferDone s = .next t) ∧
    (∃ t, exec (.fmGateEnd b) s = .next t) ∧ (∃ t, exec (.pcieCto n w) s = .next t) ∧ (∃ t, exec (.bankPowerReached 31) s = .next t) ∧
    (∃ (s : State) (x : I2cXfer), (s.bus 15).xfers = x :: []) ∧ (∃ (s : State) (x : SnapXfer), s.ports.xfer = some x) ∧
    (∃ (s : State) (o : LongOp), (s.fm 15).owner.bind s.longAt = some o) ∧
    (∃ (s : State) (o : LongOp), s.longAt 0x10 = some o ∧ o.op = 0x0405 ∧ (∃ t, exec (.longOpFinal 0x10 {}) s = .next t)) ∧
    (∃ (s : State) (o : LongOp), s.longAt 0x10 = some o ∧ o.op = 0x0205 ∧ (∃ t, exec (.longOpFinal 0x10 { nums := [] }) s = .next t) ∧
      ∃ t, exec (.longOpSafePoint 0x10) s = .next t) :=
  ⟨⟨_, rfl⟩, ⟨_, rfl⟩, ⟨_, rfl⟩, ⟨_, rfl⟩, ⟨_, rfl⟩, ⟨_, rfl⟩, ⟨_, rfl⟩, ⟨_, rfl⟩, ⟨_, rfl⟩, ⟨{ dev [] with ports := { bus := [(15, { xfers := [{ id := 3, src := .host, slot := 63, write := false, bank := 0, page := 0, offset := 0, len := 2, addr := 0x1000, data := 0 }] })] }, host := { parked := [{ id := 3, cmd := hostCmd [], op := 0x0103 }] } }, { id := 3, src := .host, slot := 63, write := false, bank := 0, page := 0, offset := 0, len := 2, addr := 0x1000, data := 0 }, rfl⟩, ⟨{ dev [] with ports := { xfer := some { id := 3, src := .host, addr := 0x1000, len := 64, data := 1 } }, host := { parked := [{ id := 3, cmd := hostCmd [], op := 0x0103 }] } }, { id := 3, src := .host, addr := 0x1000, len := 64, data := 1 }, rfl⟩, ⟨{ dev [] with meas := { fm := [(15, { owner := some 0x10 })] }, host := { longOps := [{ handle := 16, op := 0x0A01, res := 0x0A01, tick := 0, state := .running, cmd := hostCmd [] }] } }, { handle := 16, op := 0x0A01, res := 0x0A01, tick := 0, state := .running, cmd := hostCmd [] }, by decide +kernel⟩,
    ⟨{ dev [] with host := { longOps := [{ handle := 16, op := 0x0405, res := 0x0405, tick := 0, state := .running, cmd := hostCmd [] }] } }, { handle := 16, op := 0x0405, res := 0x0405, tick := 0, state := .running, cmd := hostCmd [] }, by decide +kernel, rfl, _, rfl⟩,
    ⟨{ dev [] with host := { longOps := [{ handle := 16, op := 0x0205, res := 0x0205, tick := 0, state := .running, cmd := hostCmd [] }] } }, { handle := 16, op := 0x0205, res := 0x0205, tick := 0, state := .running, cmd := hostCmd [] }, by decide +kernel, rfl, ⟨_, rfl⟩, _, rfl⟩⟩

theorem witness_LaneAndPortFrames :
    (∀ x0 x1 x2, ∃ t, exec (.klMarkerRx x0 x1 x2) State.reset = .next t) ∧ (∀ x0, ∃ t, exec (.signalDetect x0) State.reset = .next t) ∧
    (∀ x0 x1, ∃ t, exec (.signalLoss x0 x1) State.reset = .next t) ∧ (∀ x0, ∃ t, exec (.anDone x0) State.reset = .next t) ∧
    (∀ x0 x1 x2, ∃ t, exec (.trainDone x0 x1 x2) State.reset = .next t) ∧ (∀ x0, ∃ t, exec (.alignDone x0) State.reset = .next t) ∧
    (∀ x0, ∃ t, exec (.attemptTimeout x0) State.reset = .next t) ∧ (∀ x0, ∃ t, exec (.backoffDone x0) State.reset = .next t) ∧
    (∀ x0 x1, ∃ t, exec (.lockLost x0 x1) State.reset = .next t) ∧ (∀ x0 x1 x2, ∃ t, exec (.relockTryEnd x0 x1 x2) State.reset = .next t) ∧
    (∀ x0, ∃ t, exec (.l2ExitDone x0) State.reset = .next t) ∧ (∀ x0 x1, ∃ t, exec (.adaptBurst x0 x1) State.reset = .next t) ∧
    (∀ x0 x1, ∃ t, exec (.ucodeLoadDone x0 x1) State.reset = .next t) ∧ (∀ x0 x1, ∃ t, exec (.pauseRx x0 x1) State.reset = .next t) ∧
    (∀ x0 x1, ∃ t, exec (.pauseExpire x0 x1) State.reset = .next t) ∧ (∀ x0 x1, ∃ t, exec (.pauseStorm x0 x1) State.reset = .next t) ∧
    (∀ x0, ∃ t, exec (.xoffRefresh x0) State.reset = .next t) ∧ (∃ t, exec .snapshotXferDone State.reset = .next t) ∧
    (∀ x0, ∃ t, exec (.laneRetrain x0) State.reset = .next t) ∧ (∀ x0, ∃ t, exec (.laneQuarantine x0) State.reset = .next t) ∧
    (∀ x0, ∃ t, exec (.lanePower x0) State.reset = .next t) ∧ (∀ x0, ∃ t, exec (.laneUcodeLoad x0) State.reset = .next t) ∧
    (∀ x0, ∃ t, exec (.laneEyeScan x0) State.reset = .next t) ∧ (∀ x0, ∃ t, exec (.statsSnapshot x0) State.reset = .next t) ∧
    (∀ x0, ∃ t, exec (.modRead x0) State.reset = .next t) ∧ (∀ x0, ∃ t, exec (.modWrite x0) State.reset = .next t) ∧
    (∀ x0, ∃ t, exec (.modSideband x0) State.reset = .next t) ∧ (∀ x0, ∃ t, exec (.i2cRetry x0) State.reset = .next t) ∧
    (∀ x0, ∃ t, exec (.sgpioScan x0) State.reset = .next t) ∧ (∀ x0 x1, ∃ t, exec (.modPresent x0 x1) State.reset = .next t) ∧
    (∀ x0 x1 x2, ∃ t, exec (.saCommit x0 x1 x2) State.reset = .next t) ∧
    (∀ x0 x1 x2, ∃ t, exec (.laneGrpWrite x0 x1 x2) State.reset = .next t) ∧
    (∀ x0 x1 x2 x3, ∃ t, exec (.laneCfgWrite x0 x1 x2 x3) State.reset = .next t) ∧
    (∀ x0 x1 x2, ∃ t, exec (.loopSet x0 x1 x2) State.reset = .next t) ∧ (∀ x0, ∃ t, exec (.l1ExitDone x0) State.reset = .next t) ∧
    (∀ x0 x1, ∃ t, exec (.pauseStormEnd x0 x1) State.reset = .next t) ∧ (∀ x0 x1, ∃ t, exec (.klMarkerTx x0 x1) State.reset = .next t) ∧
    (∀ x0 x1 x2 x3, ∃ t, exec (.i2cTransferEnd x0 x1 x2 x3) State.reset = .next t) :=
  ⟨fun _ _ _ => ⟨_, rfl⟩, fun _ => ⟨_, rfl⟩, fun _ _ => ⟨_, rfl⟩, fun _ => ⟨_, rfl⟩, fun _ _ _ => ⟨_, rfl⟩, fun _ => ⟨_, rfl⟩,
    fun _ => ⟨_, rfl⟩, fun _ => ⟨_, rfl⟩, fun _ _ => ⟨_, rfl⟩, fun _ _ _ => ⟨_, rfl⟩, fun _ => ⟨_, rfl⟩, fun _ _ => ⟨_, rfl⟩,
    fun _ _ => ⟨_, rfl⟩, fun _ _ => ⟨_, rfl⟩, fun _ _ => ⟨_, rfl⟩, fun _ _ => ⟨_, rfl⟩, fun _ => ⟨_, rfl⟩, ⟨_, rfl⟩, fun _ => ⟨_, rfl⟩,
    fun _ => ⟨_, rfl⟩, fun _ => ⟨_, rfl⟩, fun _ => ⟨_, rfl⟩, fun _ => ⟨_, rfl⟩, fun _ => ⟨_, rfl⟩, fun _ => ⟨_, rfl⟩, fun _ => ⟨_, rfl⟩,
    fun _ => ⟨_, rfl⟩, fun _ => ⟨_, rfl⟩, fun _ => ⟨_, rfl⟩, fun _ _ => ⟨_, rfl⟩, fun _ _ _ => ⟨_, rfl⟩, fun _ _ _ => ⟨_, rfl⟩,
    fun _ _ _ _ => ⟨_, rfl⟩, fun _ _ _ => ⟨_, rfl⟩, fun _ => ⟨_, rfl⟩, fun _ _ => ⟨_, rfl⟩, fun _ _ => ⟨_, rfl⟩, fun _ _ _ _ => ⟨_, rfl⟩⟩

theorem witness_PipelineAndFabricFrames :
    (∀ x0 x1, ∃ t, exec (.frameRx x0 x1) State.reset = .next t) ∧ (∀ x0, ∃ t, exec (.pipeDecision x0) State.reset = .next t) ∧
    (∀ x0, ∃ t, exec (.fcsCheckDone x0) State.reset = .next t) ∧ (∀ x0, ∃ t, exec (.learnServe x0) State.reset = .next t) ∧
    (∀ x0 x1, ∃ t, exec (.ageVisit x0 x1) State.reset = .next t) ∧ (∀ x0 x1, ∃ t, exec (.ageRemove x0 x1) State.reset = .next t) ∧
    (∀ x0 x1, ∃ t, exec (.fragExpire x0 x1) State.reset = .next t) ∧ (∀ x0, ∃ t, exec (.genDrained x0) State.reset = .next t) ∧
    (∃ t, exec .sorrelEpoch State.reset = .next t) ∧ (∀ x0, ∃ t, exec (.egressSelect x0) State.reset = .next t) ∧
    (∀ x0 x1, ∃ t, exec (.frameTx x0 x1) State.reset = .next t) ∧ (∀ x0 x1, ∃ t, exec (.spillPartialFlush x0 x1) State.reset = .next t) ∧
    (∀ x0 x1 x2 x3, ∃ t, exec (.refillDone x0 x1 x2 x3) State.reset = .next t) ∧
    (∀ x0 x1 x2, ∃ t, exec (.mapoutDone x0 x1 x2) State.reset = .next t) ∧ (∀ x0 x1, ∃ t, exec (.mcAbandon x0 x1) State.reset = .next t) ∧
    (∀ x0, ∃ t, exec (.portHoldExpired x0) State.reset = .next t) ∧ (∀ x0, ∃ t, exec (.genCommit x0) State.reset = .next t) ∧
    (∀ x0, ∃ t, exec (.genDiscard x0) State.reset = .next t) ∧ (∀ x0 x1 x2, ∃ t, exec (.parseLoad x0 x1 x2) State.reset = .next t) ∧
    (∀ x0, ∃ t, exec (.fragFlush x0) State.reset = .next t) ∧ (∀ x0 x1, ∃ t, exec (.tableBulk x0 x1) State.reset = .next t) ∧
    (∀ x0, ∃ t, exec (.macFlush x0) State.reset = .next t) ∧ (∀ x0, ∃ t, exec (.deepbufMapout x0) State.reset = .next t) ∧
    (∀ x0, ∃ t, exec (.deepbufScrub x0) State.reset = .next t) ∧ (∀ x0 x1, ∃ t, exec (.winRead x0 x1) State.reset = .next t) ∧
    (∀ x0 x1, ∃ t, exec (.winWrite x0 x1) State.reset = .next t) ∧ (∀ x0 x1, ∃ t, exec (.winRemove x0 x1) State.reset = .next t) ∧
    (∀ x0 x1, ∃ t, exec (.twinRead x0 x1) State.reset = .next t) ∧ (∀ x0 x1, ∃ t, exec (.twinWrite x0 x1) State.reset = .next t) ∧
    (∀ x0 x1, ∃ t, exec (.twinRemove x0 x1) State.reset = .next t) ∧ (∀ x0 x1, ∃ t, exec (.twinLookup x0 x1) State.reset = .next t) ∧
    (∀ x0 x1, ∃ t, exec (.twinInject x0 x1) State.reset = .next t) ∧ (∀ x0 x1, ∃ t, exec (.spillWriteDone x0 x1) State.reset = .next t) ∧
    (∃ t, exec .macFlushScanEnd State.reset = .next t) :=
  ⟨fun _ _ => ⟨_, rfl⟩, fun _ => ⟨_, rfl⟩, fun _ => ⟨_, rfl⟩, fun _ => ⟨_, rfl⟩, fun _ _ => ⟨_, rfl⟩, fun _ _ => ⟨_, rfl⟩,
    fun _ _ => ⟨_, rfl⟩, fun _ => ⟨_, rfl⟩, ⟨_, rfl⟩, fun _ => ⟨_, rfl⟩, fun _ _ => ⟨_, rfl⟩, fun _ _ => ⟨_, rfl⟩, fun _ _ _ _ => ⟨_, rfl⟩,
    fun _ _ _ => ⟨_, rfl⟩, fun _ _ => ⟨_, rfl⟩, fun _ => ⟨_, rfl⟩, fun _ => ⟨_, rfl⟩, fun _ => ⟨_, rfl⟩, fun _ _ _ => ⟨_, rfl⟩,
    fun _ => ⟨_, rfl⟩, fun _ _ => ⟨_, rfl⟩, fun _ => ⟨_, rfl⟩, fun _ => ⟨_, rfl⟩, fun _ => ⟨_, rfl⟩, fun _ _ => ⟨_, rfl⟩,
    fun _ _ => ⟨_, rfl⟩, fun _ _ => ⟨_, rfl⟩, fun _ _ => ⟨_, rfl⟩, fun _ _ => ⟨_, rfl⟩, fun _ _ => ⟨_, rfl⟩, fun _ _ => ⟨_, rfl⟩,
    fun _ _ => ⟨_, rfl⟩, fun _ _ => ⟨_, rfl⟩, ⟨_, rfl⟩⟩

theorem witness_TimeAndMeasurementFrames :
    (∃ t, exec .servoCompute State.reset = .next t) ∧ (∃ t, exec .servoDeadline State.reset = .next t) ∧
    (∀ x0, ∃ t, exec (.slotInputTimeout x0) State.reset = .next t) ∧ (∀ x0, ∃ t, exec (.sessionUnitEnd x0) State.reset = .next t) ∧
    (∀ x0 x1 x2, ∃ t, exec (.sessionTx x0 x1 x2) State.reset = .next t) ∧ (∀ x0, ∃ t, exec (.fuTimeout x0) State.reset = .next t) ∧
    (∀ x0 x1, ∃ t, exec (.ptpRx x0 x1) State.reset = .next t) ∧ (∀ x0, ∃ t, exec (.klWindowEnd x0) State.reset = .next t) ∧
    (∀ x0 x1, ∃ t, exec (.klReportRx x0 x1) State.reset = .next t) ∧ (∀ x0 x1, ∃ t, exec (.esmcRx x0 x1) State.reset = .next t) ∧
    (∀ x0, ∃ t, exec (.esmcTimeout x0) State.reset = .next t) ∧ (∀ x0, ∃ t, exec (.hoTtsExpire x0) State.reset = .next t) ∧
    (∀ x0, ∃ t, exec (.holdoverLearnSample x0) State.reset = .next t) ∧ (∀ x0 x1 x2, ∃ t, exec (.synGate x0 x1 x2) State.reset = .next t) ∧
    (∀ x0 x1 x2, ∃ t, exec (.evinEdge x0 x1 x2) State.reset = .next t) ∧
    (∀ x0 x1 x2, ∃ t, exec (.refinEdge x0 x1 x2) State.reset = .next t) ∧ (∀ x0, ∃ t, exec (.measWindowEnd x0) State.reset = .next t) ∧
    (∀ x0 x1, ∃ t, exec (.pendingStopExpire x0 x1) State.reset = .next t) ∧ (∃ t, exec .measPost State.reset = .next t) ∧
    (∀ x0, ∃ t, exec (.fmGateEnd x0) State.reset = .next t) ∧ (∀ x0 x1, ∃ t, exec (.evoutPulse x0 x1) State.reset = .next t) ∧
    (∀ x0 x1, ∃ t, exec (.calTempCheck x0 x1) State.reset = .next t) ∧ (∀ x0, ∃ t, exec (.calPeriodDue x0) State.reset = .next t) ∧
    (∃ t, exec .calSlotStart State.reset = .next t) ∧ (∀ x0 x1, ∃ t, exec (.pathRunDone x0 x1) State.reset = .next t) ∧
    (∀ x0 x1 x2, ∃ t, exec (.calChunkDone x0 x1 x2) State.reset = .next t) ∧
    (∀ x0 x1 x2 x3, ∃ t, exec (.calOverdue x0 x1 x2 x3) State.reset = .next t) ∧ (∀ x0, ∃ t, exec (.tcntWrite x0) State.reset = .next t) ∧
    (∀ x0, ∃ t, exec (.sessionSet x0) State.reset = .next t) ∧ (∀ x0, ∃ t, exec (.sessionRead x0) State.reset = .next t) ∧
    (∀ x0, ∃ t, exec (.slotAccept x0) State.reset = .next t) ∧ (∀ x0, ∃ t, exec (.calSweep x0) State.reset = .next t) ∧
    (∀ x0, ∃ t, exec (.calHold x0) State.reset = .next t) ∧ (∀ x0, ∃ t, exec (.refForce x0) State.reset = .next t) ∧
    (∀ x0, ∃ t, exec (.holdoverLearn x0) State.reset = .next t) ∧ (∀ x0, ∃ t, exec (.dpllHistReset x0) State.reset = .next t) ∧
    (∀ x0, ∃ t, exec (.freqLong x0) State.reset = .next t) ∧ (∀ x0, ∃ t, exec (.pulseLoad x0) State.reset = .next t) ∧
    (∀ x0 x1, ∃ t, exec (.snapGo x0 x1) State.reset = .next t) ∧ (∀ x0 x1 x2, ∃ t, exec (.slotUpd x0 x1 x2) State.reset = .next t) ∧
    (∀ x0 x1 x2, ∃ t, exec (.linkUpd x0 x1 x2) State.reset = .next t) ∧ (∀ x0 x1 x2, ∃ t, exec (.synUpd x0 x1 x2) State.reset = .next t) ∧
    (∀ x0 x1 x2, ∃ t, exec (.evoutLoad x0 x1 x2) State.reset = .next t) ∧
    (∀ x0 x1 x2, ∃ t, exec (.swrateCommit x0 x1 x2) State.reset = .next t) ∧
    (∀ x0 x1 x2, ∃ t, exec (.dpllOpen x0 x1 x2) State.reset = .next t) ∧
    (∀ x0 x1 x2 x3, ∃ t, exec (.candCfgWrite x0 x1 x2 x3) State.reset = .next t) ∧
    (∀ x0 x1 x2 x3, ∃ t, exec (.imCfgWrite x0 x1 x2 x3) State.reset = .next t) ∧
    (∀ x0 x1 x2 x3, ∃ t, exec (.fmCfgWrite x0 x1 x2 x3) State.reset = .next t) :=
  ⟨⟨_, rfl⟩, ⟨_, rfl⟩, fun _ => ⟨_, rfl⟩, fun _ => ⟨_, rfl⟩, fun _ _ _ => ⟨_, rfl⟩, fun _ => ⟨_, rfl⟩, fun _ _ => ⟨_, rfl⟩,
    fun _ => ⟨_, rfl⟩, fun _ _ => ⟨_, rfl⟩, fun _ _ => ⟨_, rfl⟩, fun _ => ⟨_, rfl⟩, fun _ => ⟨_, rfl⟩, fun _ => ⟨_, rfl⟩,
    fun _ _ _ => ⟨_, rfl⟩, fun _ _ _ => ⟨_, rfl⟩, fun _ _ _ => ⟨_, rfl⟩, fun _ => ⟨_, rfl⟩, fun _ _ => ⟨_, rfl⟩, ⟨_, rfl⟩,
    fun _ => ⟨_, rfl⟩, fun _ _ => ⟨_, rfl⟩, fun _ _ => ⟨_, rfl⟩, fun _ => ⟨_, rfl⟩, ⟨_, rfl⟩, fun _ _ => ⟨_, rfl⟩, fun _ _ _ => ⟨_, rfl⟩,
    fun _ _ _ _ => ⟨_, rfl⟩, fun _ => ⟨_, rfl⟩, fun _ => ⟨_, rfl⟩, fun _ => ⟨_, rfl⟩, fun _ => ⟨_, rfl⟩, fun _ => ⟨_, rfl⟩,
    fun _ => ⟨_, rfl⟩, fun _ => ⟨_, rfl⟩, fun _ => ⟨_, rfl⟩, fun _ => ⟨_, rfl⟩, fun _ => ⟨_, rfl⟩, fun _ => ⟨_, rfl⟩, fun _ _ => ⟨_, rfl⟩,
    fun _ _ _ => ⟨_, rfl⟩, fun _ _ _ => ⟨_, rfl⟩, fun _ _ _ => ⟨_, rfl⟩, fun _ _ _ => ⟨_, rfl⟩, fun _ _ _ => ⟨_, rfl⟩,
    fun _ _ _ => ⟨_, rfl⟩, fun _ _ _ _ => ⟨_, rfl⟩, fun _ _ _ _ => ⟨_, rfl⟩, fun _ _ _ _ => ⟨_, rfl⟩⟩

theorem witness_HostAndCoreFrames :
    (∀ x0 x1 x2, ∃ t, exec (.heartbeat x0 x1 x2) State.reset = .next t) ∧ (∃ t, exec .boardIntlkTake State.reset = .next t) ∧
    (∀ x0, ∃ t, exec (.boardIntlkSample x0) State.reset = .next t) ∧ (∀ x0, ∃ t, exec (.coreWdtWarn x0) State.reset = .next t) ∧
    (∀ x0, ∃ t, exec (.coreWdt x0) State.reset = .next t) ∧ (∃ t, exec .perstN State.reset = .next t) ∧
    (∃ t, exec .functionLevelReset State.reset = .next t) ∧ (∃ t, exec .dlDown State.reset = .next t) ∧
    (∀ x0, ∃ t, exec (.pcieLinkRecovery x0) State.reset = .next t) ∧ (∀ x0 x1, ∃ t, exec (.pcieCto x0 x1) State.reset = .next t) ∧
    (∀ x0, ∃ t, exec (.doorbellData x0) State.reset = .next t) ∧ (∃ t, exec .doorbellDeadline State.reset = .next t) ∧
    (∃ t, exec .kick State.reset = .next t) ∧ (∀ x0 x1 x2, ∃ t, exec (.txDescriptor x0 x1 x2) State.reset = .next t) ∧
    (∀ x0, ∃ t, exec (.rxWriteback x0) State.reset = .next t) ∧ (∃ t, exec .completionWrite State.reset = .next t) ∧
    (∃ t, exec .eventLost State.reset = .next t) ∧ (∀ x0, ∃ t, exec (.msixSignal x0) State.reset = .next t) ∧
    (∀ x0, ∃ t, exec (.cmdTimeout x0) State.reset = .next t) ∧ (∀ x0 x1, ∃ t, exec (.unassignedOpcode x0 x1) State.reset = .next t) ∧
    (∀ x0, ∃ t, exec (.pairRejoin x0) State.reset = .next t) ∧ (∀ x0, ∃ t, exec (.pairSwap x0) State.reset = .next t) ∧
    (∀ x0, ∃ t, exec (.longCtrl x0) State.reset = .next t) ∧ (∀ x0, ∃ t, exec (.longQuery x0) State.reset = .next t) ∧
    (∀ x0 x1, ∃ t, exec (.longOpFinal x0 x1) State.reset = .next t) ∧ (∀ x0, ∃ t, exec (.nop x0) State.reset = .next t) ∧
    (∀ x0 x1 x2, ∃ t, exec (.memCopy x0 x1 x2) State.reset = .next t) ∧ (∃ t, exec .profileEraseDone State.reset = .next t) ∧
    (∀ x0 x1, ∃ t, exec (.mbPost x0 x1) State.reset = .next t) ∧ (∀ x0 x1 x2, ∃ t, exec (.bankHandover x0 x1 x2) State.reset = .next t) ∧
    (∀ x0 x1 x2, ∃ t, exec (.quadHandover x0 x1 x2) State.reset = .next t) ∧
    (∀ x0, ∃ t, exec (.bankHandoverDone x0) State.reset = .next t) ∧ (∀ x0 x1 x2, ∃ t, exec (.bankPower x0 x1 x2) State.reset = .next t) ∧
    (∀ x0, ∃ t, exec (.tagPop x0) State.reset = .next t) ∧ (∃ t, exec .fetchNow State.reset = .next t) ∧
    (∀ x0, ∃ t, exec (.dmaOff x0) State.reset = .next t) ∧ (∀ x0, ∃ t, exec (.txStop x0) State.reset = .next t) ∧
    (∀ x0 x1, ∃ t, exec (.ringEnable x0 x1) State.reset = .next t) ∧ (∀ x0 x1, ∃ t, exec (.ringDisable x0 x1) State.reset = .next t) ∧
    (∀ x0, ∃ t, exec (.ctoConfigWrite x0) State.reset = .next t) ∧ (∀ x0 x1, ∃ t, exec (.badAccess x0 x1) State.reset = .next t) ∧
    (∀ x0, ∃ t, exec (.counterRead x0) State.reset = .next t) ∧ (∀ x0, ∃ t, exec (.rcRead x0) State.reset = .next t) ∧
    (∀ x0 x1 x2, ∃ t, exec (.w1cWrite x0 x1 x2) State.reset = .next t) ∧
    (∀ x0 x1 x2, ∃ t, exec (.registerWrite x0 x1 x2) State.reset = .next t) ∧ (∀ x0 x1, ∃ t, exec (.beatAck x0 x1) State.reset = .next t) ∧
    (∀ x0 x1, ∃ t, exec (.coreWdtKick x0 x1) State.reset = .next t) ∧ (∀ x0 x1, ∃ t, exec (.evtRelease x0 x1) State.reset = .next t) ∧
    (∀ x0 x1, ∃ t, exec (.rv32imcInstruction x0 x1) State.reset = .next t) ∧
    (∀ x0 x1 x2, ∃ t, exec (.ksTsnap x0 x1 x2) State.reset = .next t) ∧ (∀ x0 x1 x2, ∃ t, exec (.ksTget x0 x1 x2) State.reset = .next t) ∧
    (∀ x0 x1, ∃ t, exec (.ksWfb x0 x1) State.reset = .next t) ∧ (∀ x0 x1, ∃ t, exec (.ksWfe x0 x1) State.reset = .next t) ∧
    (∀ x0, ∃ t, exec (.coreWake x0) State.reset = .next t) ∧ (∀ x0 x1 x2 x3 x4, ∃ t, exec (.ksCrc x0 x1 x2 x3 x4) State.reset = .next t) ∧
    (∀ x0 x1 x2, ∃ t, exec (.ksPcnt x0 x1 x2) State.reset = .next t) ∧ (∀ x0, ∃ t, exec (.ksTret x0) State.reset = .next t) ∧
    (∀ x0 x1 x2, ∃ t, exec (.trap x0 x1 x2) State.reset = .next t) ∧ (∀ x0, ∃ t, exec (.interruptTaken x0) State.reset = .next t) ∧
    (∀ x0 x1, ∃ t, exec (.perfWrap x0 x1) State.reset = .next t) ∧ (∀ x0, ∃ t, exec (.tagCountdown x0) State.reset = .next t) ∧
    (∀ x0 x1, ∃ t, exec (.pcieLinkUp x0 x1) State.reset = .next t) ∧ (∀ x0, ∃ t, exec (.hostReadCompletion x0) State.reset = .next t) ∧
    (∀ x0, ∃ t, exec (.bankPowerReached x0) State.reset = .next t) ∧ (∀ x0, ∃ t, exec (.longOpSafePoint x0) State.reset = .next t) :=
  ⟨fun _ _ _ => ⟨_, rfl⟩, ⟨_, rfl⟩, fun _ => ⟨_, rfl⟩, fun _ => ⟨_, rfl⟩, fun _ => ⟨_, rfl⟩, ⟨_, rfl⟩, ⟨_, rfl⟩, ⟨_, rfl⟩,
    fun _ => ⟨_, rfl⟩, fun _ _ => ⟨_, rfl⟩, fun _ => ⟨_, rfl⟩, ⟨_, rfl⟩, ⟨_, rfl⟩, fun _ _ _ => ⟨_, rfl⟩, fun _ => ⟨_, rfl⟩, ⟨_, rfl⟩,
    ⟨_, rfl⟩, fun _ => ⟨_, rfl⟩, fun _ => ⟨_, rfl⟩, fun _ _ => ⟨_, rfl⟩, fun _ => ⟨_, rfl⟩, fun _ => ⟨_, rfl⟩, fun _ => ⟨_, rfl⟩,
    fun _ => ⟨_, rfl⟩, fun _ _ => ⟨_, rfl⟩, fun _ => ⟨_, rfl⟩, fun _ _ _ => ⟨_, rfl⟩, ⟨_, rfl⟩, fun _ _ => ⟨_, rfl⟩, fun _ _ _ => ⟨_, rfl⟩,
    fun _ _ _ => ⟨_, rfl⟩, fun _ => ⟨_, rfl⟩, fun _ _ _ => ⟨_, rfl⟩, fun _ => ⟨_, rfl⟩, ⟨_, rfl⟩, fun _ => ⟨_, rfl⟩, fun _ => ⟨_, rfl⟩,
    fun _ _ => ⟨_, rfl⟩, fun _ _ => ⟨_, rfl⟩, fun _ => ⟨_, rfl⟩, fun _ _ => ⟨_, rfl⟩, fun _ => ⟨_, rfl⟩, fun _ => ⟨_, rfl⟩,
    fun _ _ _ => ⟨_, rfl⟩, fun _ _ _ => ⟨_, rfl⟩, fun _ _ => ⟨_, rfl⟩, fun _ _ => ⟨_, rfl⟩, fun _ _ => ⟨_, rfl⟩, fun _ _ => ⟨_, rfl⟩,
    fun _ _ _ => ⟨_, rfl⟩, fun _ _ _ => ⟨_, rfl⟩, fun _ _ => ⟨_, rfl⟩, fun _ _ => ⟨_, rfl⟩, fun _ => ⟨_, rfl⟩, fun _ _ _ _ _ => ⟨_, rfl⟩,
    fun _ _ _ => ⟨_, rfl⟩, fun _ => ⟨_, rfl⟩, fun _ _ _ => ⟨_, rfl⟩, fun _ => ⟨_, rfl⟩, fun _ _ => ⟨_, rfl⟩, fun _ => ⟨_, rfl⟩,
    fun _ _ => ⟨_, rfl⟩, fun _ => ⟨_, rfl⟩, fun _ => ⟨_, rfl⟩, fun _ => ⟨_, rfl⟩⟩

theorem witness_PowerAndSecurityFrames :
    (∃ t, exec .islandReset State.reset = .next t) ∧ (∃ t, exec .vaultOnlyEntry State.reset = .next t) ∧
    (∃ t, exec .tickPllLock State.reset = .next t) ∧ (∃ t, exec .mainPwrEnHigh State.reset = .next t) ∧
    (∃ t, exec (.seqOrderViolation 2) State.reset = .next t) ∧ (∃ t, exec (.powerupTimeout 2) State.reset = .next t) ∧
    (∃ t, exec .powerupRetry State.reset = .next t) ∧ (∃ t, exec .mainPor State.reset = .next t) ∧
    (∃ t, exec (.supplyReset 0) State.reset = .next t) ∧ (∃ t, exec .pinReset State.reset = .next t) ∧
    (∀ x0, ∃ t, exec (.resetNLong x0) State.reset = .next t) ∧ (∃ t, exec .thermtrip State.reset = .next t) ∧
    (∀ x0, ∃ t, exec (.mainResetRelease x0) State.reset = .next t) ∧ (∃ t, exec .joinBeat State.reset = .next t) ∧
    (∀ x0, ∃ t, exec (.dipEnter x0) State.reset = .next t) ∧ (∀ x0, ∃ t, exec (.dipExit x0) State.reset = .next t) ∧
    (∀ x0, ∃ t, exec (.dipLong x0) State.reset = .next t) ∧ (∃ t, exec .oscLoss State.reset = .next t) ∧
    (∃ t, exec .oscReturn State.reset = .next t) ∧ (∃ t, exec .standbyWake State.reset = .next t) ∧
    (∃ t, exec .quietDrainEnd State.reset = .next t) ∧ (∃ t, exec .standbyRailsOff State.reset = .next t) ∧
    (∃ t, exec .beatBoundary State.reset = .next t) ∧ (∀ x0 x1, ∃ t, exec (.tamperDetect x0 x1) State.reset = .next t) ∧
    (∀ x0, ∃ t, exec (.vbatCheck x0) State.reset = .next t) ∧ (∃ t, exec .wdtWarn State.reset = .next t) ∧
    (∃ t, exec .wdtReset State.reset = .next t) ∧ (∀ x0 x1, ∃ t, exec (.profileApply x0 x1) State.reset = .next t) ∧
    (∀ x0, ∃ t, exec (.powerStateSet x0) State.reset = .next t) ∧ (∀ x0, ∃ t, exec (.chipReset x0) State.reset = .next t) ∧
    (∀ x0, ∃ t, exec (.domainReset x0) State.reset = .next t) ∧ (∀ x0 x1, ∃ t, exec (.updStage x0 x1) State.reset = .next t) ∧
    (∀ x0, ∃ t, exec (.updInstall x0) State.reset = .next t) ∧ (∀ x0, ∃ t, exec (.updCommit x0) State.reset = .next t) ∧
    (∀ x0, ∃ t, exec (.updDiscard x0) State.reset = .next t) ∧ (∀ x0, ∃ t, exec (.keyWrite x0) State.reset = .next t) ∧
    (∀ x0 x1, ∃ t, exec (.keyHmac x0 x1) State.reset = .next t) ∧ (∀ x0, ∃ t, exec (.tamperClear x0) State.reset = .next t) ∧
    (∀ x0, ∃ t, exec (.fuseCust x0) State.reset = .next t) ∧ (∀ x0 x1, ∃ t, exec (.resetCtrlChip x0 x1) State.reset = .next t) ∧
    (∀ x0 x1, ∃ t, exec (.wdtKick x0 x1) State.reset = .next t) ∧ (∀ x0 x1, ∃ t, exec (.wdtCtrlWrite x0 x1) State.reset = .next t) ∧
    (∀ x0 x1 x2, ∃ t, exec (.tamperCfgWrite x0 x1 x2) State.reset = .next t) ∧ (∃ t, exec .vbatLoss State.reset = .next t) :=
  ⟨⟨_, rfl⟩, ⟨_, rfl⟩, ⟨_, rfl⟩, ⟨_, rfl⟩, ⟨_, rfl⟩, ⟨_, rfl⟩, ⟨_, rfl⟩, ⟨_, rfl⟩, ⟨_, rfl⟩, ⟨_, rfl⟩, fun _ => ⟨_, rfl⟩, ⟨_, rfl⟩,
    fun _ => ⟨_, rfl⟩, ⟨_, rfl⟩, fun _ => ⟨_, rfl⟩, fun _ => ⟨_, rfl⟩, fun _ => ⟨_, rfl⟩, ⟨_, rfl⟩, ⟨_, rfl⟩, ⟨_, rfl⟩, ⟨_, rfl⟩, ⟨_, rfl⟩,
    ⟨_, rfl⟩, fun _ _ => ⟨_, rfl⟩, fun _ => ⟨_, rfl⟩, ⟨_, rfl⟩, ⟨_, rfl⟩, fun _ _ => ⟨_, rfl⟩, fun _ => ⟨_, rfl⟩, fun _ => ⟨_, rfl⟩,
    fun _ => ⟨_, rfl⟩, fun _ _ => ⟨_, rfl⟩, fun _ => ⟨_, rfl⟩, fun _ => ⟨_, rfl⟩, fun _ => ⟨_, rfl⟩, fun _ => ⟨_, rfl⟩, fun _ _ => ⟨_, rfl⟩,
    fun _ => ⟨_, rfl⟩, fun _ => ⟨_, rfl⟩, fun _ _ => ⟨_, rfl⟩, fun _ _ => ⟨_, rfl⟩, fun _ _ => ⟨_, rfl⟩, fun _ _ _ => ⟨_, rfl⟩, ⟨_, rfl⟩⟩

theorem witness_InstanceFrames :
    (∀ x0, ∃ t, exec (.txStop x0) State.reset = .next t) ∧ (∀ x0, ∃ t, exec (.tagPop x0) State.reset = .next t) ∧
    (∀ x0, ∃ t, exec (.bankHandoverDone x0) State.reset = .next t) ∧ (∀ x0, ∃ t, exec (.bankPowerReached x0) State.reset = .next t) ∧
    (∀ x0 x1 x2, ∃ t, exec (.tamperCfgWrite x0 x1 x2) State.reset = .next t) ∧
    (∀ x0 x1 x2, ∃ t, exec (.linkUpd x0 x1 x2) State.reset = .next t) ∧ (∀ x0 x1, ∃ t, exec (.pathRunDone x0 x1) State.reset = .next t) ∧
    (∀ x0 x1 x2, ∃ t, exec (.ksTsnap x0 x1 x2) State.reset = .next t) ∧ (∀ x0 x1, ∃ t, exec (.beatAck x0 x1) State.reset = .next t) ∧
    (∀ x0, ∃ t, exec (.fuTimeout x0) State.reset = .next t) ∧ (∀ x0 x1, ∃ t, exec (.winWrite x0 x1) State.reset = .next t) :=
  ⟨fun _ => ⟨_, rfl⟩, fun _ => ⟨_, rfl⟩, fun _ => ⟨_, rfl⟩, fun _ => ⟨_, rfl⟩, fun _ _ _ => ⟨_, rfl⟩, fun _ _ _ => ⟨_, rfl⟩,
    fun _ _ => ⟨_, rfl⟩, fun _ _ _ => ⟨_, rfl⟩, fun _ _ => ⟨_, rfl⟩, fun _ => ⟨_, rfl⟩, fun _ _ => ⟨_, rfl⟩⟩

end Sys2Proof.Tests
end

section
/-!
The scope of the model: a step on an empty queue, and an opcode that the table does not assign. The laws of passing ticks come first.
-/
namespace Sys2Proof.Machine
open Sys2Proof

/-! ### Ticks of a counter (spec/00 R13) -/

theorem Counter.tick_tick (m n : Nat) (c : Counter) : (c.tick m).tick n = c.tick (m + n) := by
  simp only [Counter.tick, Nat.mod_add_mod, Nat.add_mul, Nat.add_assoc]

theorem State.ticks_time (s : State) (n : Nat) : (s.ticks n).time =
    { s.time with tick := s.time.tick + n, beatTicks := s.time.beatTicks + n, cnt := s.time.cnt.map (Counter.tick n) } := rfl

theorem State.cnt_of_map_tick {s t : State} {n k : Nat} (h : t.time.cnt = s.time.cnt.map (Counter.tick n)) (hk : k < s.time.cnt.length) :
    t.cnt k = (s.cnt k).tick n := by
  simp [State.cnt, h, hk]

/-! ### A latch of the counters leaves them, and the number of ticks passed, as they were (spec/09 R291) -/

theorem State.each_time {α : Type} {f : State → α → State} (h : ∀ s a, (f s a).time = s.time) (l : List α) (s : State) :
    (s.each l f).time = s.time := by
  induction l generalizing s with
  | nil => rfl
  | cons a l ih => exact (ih (f s a)).trans (h s a)

theorem State.latchCounters_time (s : State) : s.latchCounters.time = { s.time with snap := false, latched := true } := by
  unfold State.latchCounters
  simp only [State.setF_time, State.modTime_time]
  rw [State.each_time]
  intro t k
  rfl

/-! ### `State.pass`: with or without a latch on the first tick, the time goes on by as many ticks as pass -/

theorem State.pass_cases (s : State) (n : Nat) :
    (0 < n ∧ s.pass n = (s.ticks 1).latchCounters.ticks (n - 1)) ∨ s.pass n = s.ticks n := by
  unfold State.pass
  split
  case isTrue h =>
    simp only [Bool.and_eq_true, decide_eq_true_eq] at h
    exact .inl ⟨h.2, rfl⟩
  case isFalse => exact .inr rfl

theorem State.pass_tick (s : State) (n : Nat) : (s.pass n).time.tick = s.time.tick + n := by
  obtain ⟨hn, h⟩ | h := s.pass_cases n
  · simp only [h, State.ticks_time, State.latchCounters_time]
    omega
  · rw [h, State.ticks_time]

theorem State.pass_beatTicks (s : State) (n : Nat) : (s.pass n).time.beatTicks = s.time.beatTicks + n := by
  obtain ⟨hn, h⟩ | h := s.pass_cases n
  · simp only [h, State.ticks_time, State.latchCounters_time]
    omega
  · rw [h, State.ticks_time]

theorem State.pass_cnt (s : State) (n : Nat) : (s.pass n).time.cnt = s.time.cnt.map (Counter.tick n) := by
  obtain ⟨hn, h⟩ | h := s.pass_cases n
  · have hc : Counter.tick (n - 1) ∘ Counter.tick 1 = Counter.tick n := by
      funext c
      rw [Function.comp_apply, Counter.tick_tick, Nat.add_sub_cancel' hn]
    simp only [h, State.ticks_time, State.latchCounters_time, List.map_map, hc]
  · rw [h, State.ticks_time]

/-! ### A step on an empty queue (log entry 1) -/

theorem step_of_pending_nil {s : State} (h : s.pending = []) : step s = .next s.idle := by
  simp only [step, h]

theorem State.idle_of_no_tick {s : State}
    (h : (s.power.aon && s.power.pllLocked && decide (s.time.beatTicks + 1 < s.time.beatLen)) = false) : s.idle = s := by
  simp only [State.idle, h, Bool.false_eq_true, if_false]

theorem State.idle_of_tick {s : State}
    (h : (s.power.aon && s.power.pllLocked && decide (s.time.beatTicks + 1 < s.time.beatLen)) = true) : s.idle = s.pass 1 := by
  simp only [State.idle, h, if_true]

/-- Settles O43: an idle step is `State.pass 1` or nothing, and a latch taken on that tick changes no counter. -/
theorem idleTick : Obligations.IdleTick := by
  intro s hs
  refine ⟨s.idle, step_of_pending_nil hs, State.idle_of_no_tick, fun hrun => ?_⟩
  rw [State.idle_of_tick hrun]
  refine ⟨s.pass_tick 1, s.pass_beatTicks 1, fun k hk => ?_⟩
  have hc : (s.pass 1).cnt k = (s.cnt k).tick 1 := State.cnt_of_map_tick (s.pass_cnt 1) hk
  simp [hc, Counter.tick]

/-! ### An opcode that is not assigned (spec/00 R20) -/

theorem opcodes_high_byte : ∀ o ∈ opcodes, 1 ≤ o / 256 ∧ o / 256 < 0x0F := by decide

theorem exec_unassignedOpcode (c : Cmd) (op : BitVec 16) (s : State) :
    exec (.unassignedOpcode c op) s = execUnassignedOpcode c op s := rfl

theorem execUnassignedOpcode_of_mayStart {s : State} {c : Cmd} {op : BitVec 16} (hop : op.toNat ∉ opcodes)
    (hs : s.mayStart c op.toNat = true) :
    execUnassignedOpcode c op s = .next ((s.fetched c).complete c op.toNat st.badArg) := by
  simp only [State.mayStart, Bool.and_eq_true, Bool.not_eq_true'] at hs
  obtain ⟨htakes, hheld⟩ := hs
  have hc : opcodes.contains op.toNat = false := by simpa using hop
  simp only [execUnassignedOpcode, hc, htakes, hheld, Bool.not_true, Bool.or_false, Bool.false_eq_true, if_false]

/-- Settles O58: the row's own two guards fall away, and every assigned opcode has a high byte from 0x01 to 0x0E. -/
theorem unassignedOpcodes : Obligations.UnassignedOpcodes := by
  refine ⟨fun s c op hop hs => ⟨_, ?_, rfl⟩, fun op hhigh hmem => ?_⟩
  · rw [exec_unassignedOpcode, execUnassignedOpcode_of_mayStart hop hs]
  · have := opcodes_high_byte _ hmem
    omega

end Sys2Proof.Machine
end

section
/-!
The late counters: what a late case, a read and a main reset leave in `GLOBAL_LATE_CNT` (spec/01 R39). The laws of counting fields, of
reads that clear and of a main reset come first.
-/
namespace Sys2Proof.Machine
open Sys2Proof

/-! ### Counting fields -/

theorem sat_eq_min (cap v : Nat) : sat cap v = min cap v := by
  unfold sat
  split <;> omega

theorem Fld.of_lt (f : Fld) (w : Word) : f.of w < 2 ^ f.len := BitVec.isLt _

theorem State.fld_bump (s : State) {f : Fld} (n : Nat) (h : f.lo + f.len ≤ 32) :
    (s.bump f n).fld f = min (2 ^ f.len - 1) (s.fld f + n) := by
  have hlt : min (2 ^ f.len - 1) (s.fld f + n) < 2 ^ f.len := by
    have := Nat.two_pow_pos f.len
    omega
  simp only [State.bump, sat_eq_min, State.fld_setF s f _ h, Nat.mod_eq_of_lt hlt]

theorem State.fld_bump_reg (s : State) {f g : Fld} (n : Nat) (h : g.addr ≠ f.addr) : (s.bump f n).fld g = s.fld g :=
  State.fld_setF_reg s _ h

/-! ### A late case (spec/01 R38, R39) -/

theorem State.late_zero (s : State) (k : Nat) : s.late k 0 = s := rfl

/-- Besides the counter and the flag, late cases change only what raising an event changes. -/
theorem State.late_fld (s : State) {k n : Nat} (hn : n ≠ 0) {f : Fld} (hf : ¬AtReg reportRegs f.addr) :
    (s.late k n).fld f = ((s.bump (F.globalLateCnt_COUNT k) n).setF ⟨Reg.globalLateFlags, k, 1⟩ 1).fld f := by
  simp only [State.late, if_neg hn]
  split
  · exact Writes.fld (State.raise_writes.step rfl .refl) hf
  · rfl

/-- The row of the map that holds the late counters. -/
def lateCntRow : RegRow := { base := 0x110, n1 := 9, s1 := 4, rc := 0xFFFFFFFF }

theorem globalLateCnt_addr (k : Fin 9) : Reg.globalLateCnt k = 0x110 + 4 * k.val := if_pos k.isLt

theorem globalLateCnt_find (k : Fin 9) : RegMap.find (Reg.globalLateCnt k) = some ⟨lateCntRow, k, 0⟩ :=
  match k with
  | 0 | 1 | 2 | 3 | 4 | 5 | 6 | 7 | 8 => rfl

theorem globalLateCnt_reset (k : Fin 9) : RegMap.reset (Reg.globalLateCnt k) = 0#32 := by
  simp only [RegMap.reset, globalLateCnt_find, lateCntRow]

theorem globalLateCnt_apart {R : List Nat} (h : rowsApart R 0x110 9 4 = true) (k : Fin 9) : ¬AtReg R (Reg.globalLateCnt k) :=
  rowsApart_at h k.isLt rfl

theorem globalLateCnt_ne_flags (k : Fin 9) : Reg.globalLateCnt k ≠ Reg.globalLateFlags := by
  simp only [globalLateCnt_addr, Reg.globalLateFlags]
  omega

theorem globalLateCnt_ne {j k : Fin 9} (h : j ≠ k) : Reg.globalLateCnt j ≠ Reg.globalLateCnt k := by
  simp only [globalLateCnt_addr]
  omega

theorem State.late_count (s : State) (k : Fin 9) (n : Nat) :
    (s.late k n).fld (F.globalLateCnt_COUNT k) = min 0xFFFFFFFF (s.fld (F.globalLateCnt_COUNT k) + n) := by
  by_cases hn : n = 0
  · have hlt : s.fld (F.globalLateCnt_COUNT k) < 2 ^ 32 := Fld.of_lt _ _
    rw [hn, State.late_zero]
    omega
  · rw [s.late_fld hn (globalLateCnt_apart rfl k), State.fld_setF_reg _ _ (globalLateCnt_ne_flags k)]
    exact s.fld_bump n (Nat.le_refl 32)

theorem State.late_count_other (s : State) {k j : Fin 9} (h : j ≠ k) (n : Nat) :
    (s.late k n).fld (F.globalLateCnt_COUNT j) = s.fld (F.globalLateCnt_COUNT j) := by
  by_cases hn : n = 0
  · rw [hn, State.late_zero]
  · rw [s.late_fld hn (globalLateCnt_apart rfl j), State.fld_setF_reg _ _ (globalLateCnt_ne_flags j)]
    exact s.fld_bump_reg n (globalLateCnt_ne h)

/-! ### Reads that clear (spec/00 R16, spec/15 R460) -/

/-- Rows whose reads do more than clear their RC bits. -/
def readsSpecially (b : Nat) : Bool :=
  counterRows.contains b || b == Reg.perfCntLo 0 0 || b == Reg.secLog 0 || linkRows.contains b || b == Reg.eqHwm 0

theorem State.regValue_of_find (s : State) {a : Nat} {h : RegHit} (hf : RegMap.find a = some h) (hb : readsSpecially h.row.base = false) :
    s.regValue a = (if h.row.rc = 0 then s else s.setReg a (s.reg a &&& ~~~(BitVec.ofNat 32 h.row.rc)), s.reg a) := by
  simp only [readsSpecially, Bool.or_eq_false_iff] at hb
  obtain ⟨⟨⟨⟨hcounter, hperf⟩, hlog⟩, hlink⟩, hhwm⟩ := hb
  simp only [State.regValue, hf, hcounter, hperf, hlog, hlink, hhwm, Bool.false_and, Bool.false_eq_true, if_false]
  split <;> rfl

theorem exec_rcRead (a : Nat) (s : State) : exec (.rcRead a) s = .next (s.regRead a) := rfl

theorem State.regRead_of_find {s : State} {a : Nat} {h : RegHit} (hup : s.up = true) (ha : a % 4 = 0) (hf : RegMap.find a = some h)
    (hb : readsSpecially h.row.base = false) :
    (s.regRead a).rdata = s.reg a ∧ (s.regRead a).reg a = s.reg a &&& ~~~(BitVec.ofNat 32 h.row.rc) := by
  simp only [State.regRead, hup, ha, s.regValue_of_find hf hb, Bool.not_true, Bool.false_eq_true, if_false, ne_eq, not_true_eq_false,
    true_and]
  split
  case isTrue hrc =>
    rw [hrc]
    exact BitVec.and_allOnes.symm
  case isFalse => exact State.reg_setReg_same s a _

/-! ### Registers over a main reset (spec/03 R113) -/

/-- Rows that a main reset writes besides giving every register its reset value: the cause, the dip, the beat, the increment of TCNT0,
and what DPLL0 shows as it goes into holdover (spec/01 R42, R43; spec/03 R95). -/
def mainResetRegs : List Nat :=
  [Reg.globalResetCause, Reg.globalDipStatus, Reg.globalBeat, Reg.tbIncrLo 0, Reg.tbIncrHi 0, Reg.ringStatus 0, Reg.ringDevIdx 0,
    Reg.ringLoss 0, Reg.msixPba 0, Reg.perfWrapLo 0, Reg.perfWrapHi 0, Reg.dpllStatus 0, Reg.dpllHoTts 0, Reg.dpllHistIncrLo 0,
    Reg.dpllHistIncrHi 0]

theorem State.mainStop_reg (s : State) {a : Nat} {h : RegHit} (hc : regsCanon s = true) (ha : ¬AtReg mainResetRegs a)
    (hf : RegMap.find a = some h) :
    s.mainStop.reg a = (s.reg a &&& BitVec.ofNat 32 h.maskKept) ||| (RegMap.reset a &&& ~~~BitVec.ofNat 32 h.maskKept) := by
  have hshow (t : State) : ((t.showDip.showIncr 0).showBeat).reg a = t.reg a :=
    Writes.same (R := mainResetRegs) (.step State.showBeat_writes rfl (.step State.showIncr_writes rfl (.step State.showDip_writes rfl .refl)))
      a ha
  have hstop : (s.dpllStop 0).reg a = s.reg a := Writes.same (R := mainResetRegs) (.step State.dpllStop_writes rfl .refl) a ha
  have hcanon : regsCanon (s.dpllStop 0) = true := State.dpllStop_kept.regs hc
  have hreset := (s.dpllStop 0).regsReset_reg (fun _ => true) a hcanon
  simp only [hf, if_true, hstop] at hreset
  exact (hshow _).trans hreset

theorem State.mainReset_reg (s : State) (n : Nat) (arm : Bool) {a : Nat} {h : RegHit} (hc : regsCanon s = true)
    (ha : ¬AtReg mainResetRegs a) (hf : RegMap.find a = some h) :
    (s.mainReset n arm).reg a = (s.reg a &&& BitVec.ofNat 32 h.maskKept) ||| (RegMap.reset a &&& ~~~BitVec.ofNat 32 h.maskKept) := by
  have hcause : (s.showCause n).reg a = s.reg a := Writes.same (R := mainResetRegs) (.step State.showCause_writes rfl .refl) a ha
  have hcanon : regsCanon (s.showCause n) = true := State.showCause_kept.regs hc
  exact ((s.showCause n).mainStop_reg hcanon ha hf).trans (by rw [hcause])

/-! ### The five statements -/

theorem State.reset_reg (a : Nat) : State.reset.reg a = RegMap.reset a := rfl

theorem State.fld_globalLateCnt_of_reg {s : State} {k : Fin 9} (h : s.reg (Reg.globalLateCnt k) = 0#32) :
    s.fld (F.globalLateCnt_COUNT k) = 0 := by
  simp [State.fld, F.globalLateCnt_COUNT, h, Fld.of]

theorem State.regRead_globalLateCnt {s : State} (hup : s.up = true) (k : Fin 9) :
    (s.regRead (Reg.globalLateCnt k)).rdata = s.reg (Reg.globalLateCnt k) ∧
      (s.regRead (Reg.globalLateCnt k)).fld (F.globalLateCnt_COUNT k) = 0 := by
  have halign : Reg.globalLateCnt k % 4 = 0 := by
    rw [globalLateCnt_addr]
    omega
  obtain ⟨hdata, hreg⟩ := State.regRead_of_find hup halign (globalLateCnt_find k) rfl
  refine ⟨hdata, State.fld_globalLateCnt_of_reg (hreg.trans ?_)⟩
  simp [lateCntRow]

theorem State.mainReset_globalLateCnt (s : State) (n : Nat) (arm : Bool) (k : Fin 9) (hc : regsCanon s = true) :
    (s.mainReset n arm).fld (F.globalLateCnt_COUNT k) = 0 := by
  apply State.fld_globalLateCnt_of_reg
  rw [s.mainReset_reg n arm hc (globalLateCnt_apart rfl k) (globalLateCnt_find k), globalLateCnt_reset]
  simp [RegHit.maskKept, RegHit.maskA, lateCntRow]

/-- Settles O59: a late case bumps one counter, a read clears the row's RC bits, and no bit of the row survives a main reset. -/
theorem lateCounters : Obligations.LateCounters :=
  ⟨fun k => ⟨globalLateCnt_addr k, (State.reset_reg _).trans (globalLateCnt_reset k)⟩,
    State.late_count,
    fun s _ _ n h => s.late_count_other h n,
    fun _ k hup => ⟨_, exec_rcRead _ _, State.regRead_globalLateCnt hup k⟩,
    fun s n arm k hc => s.mainReset_globalLateCnt n arm k hc⟩

end Sys2Proof.Machine
end

section
/-!
Beat boundaries and the commands of device time (spec/01 R27, R28, R36, R37; spec/09 R291, R292). Every action of a boundary leaves the number
of boundaries and the ticks of the beat as the boundary tick has set them: those whose frame holds no device time by their lemma of
Laws/Frame*.lean, the others by a lemma here.
-/
namespace Sys2Proof.Machine
open Sys2Proof

/-- The boundaries counted and the ticks of the present beat are as before. -/
structure SameBeat (s t : State) : Prop where
  bounds : t.time.bounds = s.time.bounds
  beatTicks : t.time.beatTicks = s.time.beatTicks

namespace SameBeat
variable {s t u : State} {L : List Part}

theorem refl : SameBeat s s := ⟨rfl, rfl⟩

theorem trans (h : SameBeat s t) (k : SameBeat t u) : SameBeat s u :=
  ⟨k.bounds.trans h.bounds, k.beatTicks.trans h.beatTicks⟩

/-- An operation whose frame leaves the time alone. -/
theorem kept (k : Kept L t u) (n : L.contains .time = false) (h : SameBeat s t) : SameBeat s u :=
  have e : Same .time t u := k.same .time n
  h.trans ⟨(congrArg TimeSt.bounds e :), (congrArg TimeSt.beatTicks e :)⟩

theorem ite {c : Prop} [Decidable c] {a b : State} (h : SameBeat s a) (k : SameBeat s b) : SameBeat s (if c then a else b) := by
  split <;> assumption

theorem each {α : Type} {f : State → α → State} (g : ∀ v a, SameBeat v (f v a)) {l : List α} (h : SameBeat s t) :
    SameBeat s (t.each l f) := by
  induction l generalizing t with
  | nil => exact h
  | cons a l ih => exact ih (h.trans (g t a))

theorem foldlFst {α β : Type} {f : State × β → α → State × β} (g : ∀ p a, SameBeat p.1 (f p a).1) {l : List α} {p : State × β}
    (h : SameBeat s p.1) : SameBeat s (l.foldl f p).1 := by
  induction l generalizing p with
  | nil => exact h
  | cons a l ih => exact ih (h.trans (g p a))

end SameBeat

/-! ### Order 2: counter writes and first-lock steps (spec/01 R29; spec/09 R292) -/

theorem State.recordStep_sameBeat {s : State} {a d k} : SameBeat s (s.recordStep a d k) := ⟨rfl, rfl⟩

theorem State.tcnt0Stepped_sameBeat {s : State} {k} : SameBeat s (s.tcnt0Stepped k) :=
  .kept State.raise_kept rfl ⟨rfl, rfl⟩

theorem State.cntWrite_sameBeat (s : State) (w : CntWrite) (refuse : Bool) : SameBeat s (s.cntWrite w refuse).1 := by
  unfold State.cntWrite
  split
  case isTrue => exact .kept State.finish_kept rfl .refl
  extract_lets k old anchor v u d r q
  split
  · exact .kept State.finish_kept rfl (.kept State.slotWritten_kept rfl (.kept State.showIncr_kept rfl (.kept State.modCnt_kept rfl .refl)))
  split
  · split
    · exact .kept State.finish_kept rfl .refl
    · exact .kept State.finish_kept rfl (.kept State.slotWritten_kept rfl (.kept State.addVal_kept rfl .refl))
  have hu : SameBeat s u := .kept State.setVal_kept rfl .refl
  split
  · exact .kept State.finish_kept rfl (.kept State.slotWritten_kept rfl hu)
  · have hr : SameBeat s r := hu.trans State.recordStep_sameBeat
    exact .kept State.finish_kept rfl (.kept State.evoutStep_kept rfl (.ite (hr.trans State.tcnt0Stepped_sameBeat) hr))

theorem State.dropSkipped_sameBeat {s : State} : SameBeat s s.dropSkipped := by
  unfold State.dropSkipped
  refine .each (fun u w => ?_) .refl
  exact .kept State.late_kept rfl (.kept State.finish_kept rfl ⟨rfl, rfl⟩)

theorem State.counterWrites_sameBeat {s : State} {refuse} : SameBeat s (s.counterWrites refuse).1 := by
  unfold State.counterWrites
  extract_lets due u
  refine .foldlFst (fun p w => ?_) ⟨rfl, rfl⟩
  exact p.1.cntWrite_sameBeat w refuse

theorem State.firstStep_sameBeat {s : State} {d} : SameBeat s (s.firstStep d) := by
  unfold State.firstStep
  split
  · exact .refl
  extract_lets u r q w
  have hu : SameBeat s u := .kept State.modDpll_kept rfl .refl
  split
  · exact hu
  have hr : SameBeat s r :=
    .kept State.phasesMove_kept rfl (.kept State.setLocked_kept rfl (.trans (.kept State.addVal_kept rfl hu) State.recordStep_sameBeat))
  exact .each (fun _ _ => .kept State.clkAlign_kept rfl .refl)
    (.kept State.evoutStep_kept rfl (.kept State.goDpll_kept rfl (.ite (hr.trans State.tcnt0Stepped_sameBeat) hr)))

theorem State.order2_sameBeat {s : State} : SameBeat s s.order2.1 := by
  unfold State.order2
  extract_lets held
  split
  rename_i a st1 ha
  have hw : SameBeat s a := by
    have := s.counterWrites_sameBeat (refuse := held)
    rwa [ha] at this
  extract_lets st2 b
  have hb : SameBeat s b := .ite hw (.each (fun _ _ => State.firstStep_sameBeat) hw)
  split
  · exact (hb.trans State.counterWrites_sameBeat).trans State.dropSkipped_sameBeat
  · exact hb.trans State.dropSkipped_sameBeat

/-! ### Register writes: only TIMEBASE_SNAP_CTRL has to do with device time -/

theorem State.gated_sameBeat {s : State} {c l} {f : State → State} (g : ∀ u, SameBeat u (f u)) : SameBeat s (s.gated c l f) := by
  unfold State.gated
  extract_lets u
  have hu : SameBeat s u := .kept State.sign_kept rfl .refl
  exact .ite (hu.trans (g u)) (.kept State.perf_kept rfl (.kept State.bump_kept rfl hu))

theorem State.staging_sameBeat {s : State} {f : State → State} (g : ∀ u, SameBeat u (f u)) : SameBeat s (s.staging f) :=
  ⟨(g s).bounds, (g s).beatTicks⟩

theorem State.byWriter_sameBeat {s : State} {src a w} {f : State → State} (g : ∀ u, SameBeat u (f u)) :
    SameBeat s (s.byWriter src a w f) := by
  unfold State.byWriter
  split
  · exact .refl
  split
  · exact g s
  · exact .ite (State.gated_sameBeat fun _ => State.staging_sameBeat g) (g s)

theorem State.snapCtrlWrite_sameBeat {s : State} {src v} : SameBeat s (s.snapCtrlWrite src v) := by
  unfold State.snapCtrlWrite
  refine State.byWriter_sameBeat fun u => ?_
  exact .ite (.kept State.putRw_kept rfl .refl) ⟨rfl, rfl⟩

theorem writeOps1_sameBeat (s : State) (src : WrSrc) (a i j : Nat) (v : Word) : ∀ p ∈ writeOps1, SameBeat s (p.2 s src a i j v) := by
  simp only [writeOps1, List.forall_mem_cons]
  exact ⟨.kept State.seqWrite_kept rfl .refl, .kept State.resetCtrlWrite_kept rfl .refl, .kept State.wdtCtrlWrite_kept rfl .refl,
    .kept State.wdtKickWrite_kept rfl .refl, .kept State.hostCmdWrite_kept rfl .refl, .kept State.hostDmaWrite_kept rfl .refl,
    .kept State.emergWrite_kept rfl .refl, .kept State.ringCfgWrite_kept rfl .refl, .kept State.msixWrite_kept rfl .refl,
    .kept State.coreWdtWrite_kept rfl .refl, .kept State.bankCtrlWrite_kept rfl .refl, .kept State.quadWrite_kept rfl .refl,
    .kept State.tagLoad_kept rfl (.kept State.putRw_kept rfl .refl), .ite (.kept State.tagPop_kept rfl .refl) .refl,
    .kept State.tamperCfgWrite_kept rfl .refl, .kept State.tamperLockWrite_kept rfl .refl, List.forall_mem_nil _⟩

theorem writeOps2_sameBeat (s : State) (src : WrSrc) (a i j : Nat) (v : Word) : ∀ p ∈ writeOps2, SameBeat s (p.2 s src a i j v) := by
  have hlane (n r : Nat) : SameBeat s (s.laneWrite n r v) := .kept State.laneWrite_kept rfl .refl
  have hlink (n b : Nat) : SameBeat s (s.linkWordWrite n b v) := .kept State.linkWordWrite_kept rfl .refl
  simp only [writeOps2, List.forall_mem_cons]
  exact ⟨hlane _ _, hlane _ _, hlane _ _, .kept State.fomWrite_kept rfl .refl, .kept State.loopWrite_kept rfl .refl,
    .kept State.grpWrite_kept rfl .refl,
    .kept State.linkWrite_kept rfl .refl, hlink _ _, hlink _ _, hlink _ _, hlink _ _, hlink _ _, hlink _ _, .kept State.portCfgWrite_kept rfl .refl,
    .kept State.showPause_kept rfl (.kept State.putRw_kept rfl .refl), .kept State.showXoff_kept rfl (.kept State.putRw_kept rfl .refl),
    .kept State.saWrite_kept rfl .refl, .kept State.i2cWrite_kept rfl .refl, List.forall_mem_nil _⟩

theorem State.later_sameBeat {s : State} {src a v} : SameBeat s (s.later src a v) := .kept State.later_kept rfl .refl

theorem State.headroomCheck_sameBeat {s t : State} (h : SameBeat s t) : SameBeat s (s.headroomCheck t) := by
  unfold State.headroomCheck
  exact .ite h (.kept State.setF_kept rfl .refl)

theorem writeOps3_sameBeat (s : State) (src : WrSrc) (a i j : Nat) (v : Word) : ∀ p ∈ writeOps3, SameBeat s (p.2 s src a i j v) := by
  have hlater : SameBeat s (s.later src a v) := State.later_sameBeat
  have hdata (viewed : Bool) : SameBeat s (s.winDataWrite a viewed v) := .kept State.winDataWrite_kept rfl .refl
  simp only [writeOps3, List.forall_mem_cons]
  exact ⟨.kept State.winCtrl_kept rfl .refl, .kept State.twinOp_kept rfl .refl, hdata _, hdata _, hlater, hlater, hlater,
    .kept State.limitArm_kept rfl (.kept State.putRw_kept rfl .refl), hlater, .kept State.fabricCfgWrite_kept rfl .refl,
    State.headroomCheck_sameBeat hlater, .kept State.fabricPortWrite_kept rfl .refl, hlater, hlater, .kept State.iaThWrite_kept rfl .refl,
    State.headroomCheck_sameBeat hlater, hlater, .kept State.deepCfgWrite_kept rfl .refl, List.forall_mem_nil _⟩

theorem writeOps4_sameBeat (s : State) (src : WrSrc) (a i j : Nat) (v : Word) : ∀ p ∈ writeOps4, SameBeat s (p.2 s src a i j v) := by
  have hlater : SameBeat s (s.later src a v) := State.later_sameBeat
  have hslot (k r : Nat) : SameBeat s (s.slotWrite src k r v) := .kept State.slotWrite_kept rfl .refl
  have hcand (c r : Nat) : SameBeat s (s.candWrite src c r v) := .kept State.candWrite_kept rfl .refl
  have hrate (d : Nat) (hi : Bool) : SameBeat s (s.swrateWrite src d hi v) := .kept State.swrateWrite_kept rfl .refl
  have hfm (f r : Nat) : SameBeat s (s.fmWrite src f r v) := .kept State.fmWrite_kept rfl .refl
  have hevout (k r : Nat) : SameBeat s (s.evoutWrite src k r v) := .kept State.evoutWrite_kept rfl .refl
  simp only [writeOps4, List.forall_mem_cons]
  exact ⟨State.snapCtrlWrite_sameBeat, hslot _ _, hslot _ _, hslot _ _, hcand _ _, hcand _ _, hcand _ _, hlater, hlater, hlater,
    .kept State.dpllCfgWrite_kept rfl .refl, hrate _ _, hrate _ _, .kept State.synCfgWrite_kept rfl .refl, .kept State.clkoutWrite_kept rfl .refl,
    hlater, hlater, hlater, hlater, hlater, hfm _ _, hfm _ _, hevout _ _, hevout _ _, hevout _ _, hevout _ _, hevout _ _, hevout _ _,
    hevout _ _, hevout _ _, hevout _ _, List.forall_mem_nil _⟩

theorem writeOp_sameBeat {b : Nat} {f : WriteOp} (h : writeOp b = some f) (s : State) (src : WrSrc) (a i j : Nat) (v : Word) :
    SameBeat s (f s src a i j v) := by
  unfold writeOp at h
  obtain ⟨p, hp, rfl⟩ := Option.map_eq_some_iff.1 h
  have hm := List.mem_of_find?_eq_some hp
  split at hm
  · exact writeOps1_sameBeat s src a i j v p hm
  split at hm
  · exact writeOps2_sameBeat s src a i j v p hm
  split at hm
  · exact writeOps3_sameBeat s src a i j v p hm
  · exact writeOps4_sameBeat s src a i j v p hm

theorem State.regWrite_sameBeat {s : State} {src a v} : SameBeat s (s.regWrite src a v) := by
  unfold State.regWrite
  split
  · exact .refl
  split
  · exact .refl
  split
  · exact writeOp_sameBeat (by assumption) s src a _ _ v
  · exact .kept State.plainWrite_kept rfl .refl

/-! ### Order 4: a PROFILE_APPLY writes registers (spec/03 R90) -/

theorem State.profWrites_sameBeat {s : State} {l a} : SameBeat s (s.profWrites l a) := by
  unfold State.profWrites
  refine .each (fun u t => ?_) .refl
  unfold State.profWrite
  exact .ite State.regWrite_sameBeat .refl

theorem State.profApply_sameBeat {s : State} {o p} : SameBeat s (s.profApply o p) := by
  unfold State.profApply
  extract_lets a e l ses gens skips u v w
  split
  · exact .kept State.endLong_kept rfl (.kept State.modPower_kept rfl .refl)
  have hu : SameBeat s u :=
    .kept State.profLoads_kept rfl
      (.trans (.trans (.kept State.runProfiles_kept rfl .refl) State.profWrites_sameBeat) State.profWrites_sameBeat)
  have hv : SameBeat s v := .each (fun _ _ => .kept State.sessApply_kept rfl .refl) hu
  exact .kept State.modLong_kept rfl (.kept State.modPower_kept rfl hv)

theorem State.profBoundary_sameBeat {s : State} : SameBeat s s.profBoundary := by
  unfold State.profBoundary
  refine .each (fun u o => ?_) .refl
  split
  · exact .refl
  · exact State.profApply_sameBeat

theorem State.order4_sameBeat {s : State} : SameBeat s s.order4 := by
  unfold State.order4
  extract_lets u v
  have hu : SameBeat s u := .kept State.applyWaiting_kept rfl State.profBoundary_sameBeat
  have hv : SameBeat s v := .ite hu (.kept State.coefBoundary_kept rfl hu)
  exact .kept State.linkBoundary_kept rfl (.kept State.calBoundary_kept rfl (.kept State.sessGone_kept rfl (.kept State.sessBoundary_kept rfl hv)))

/-! ### The main domain stops (spec/01 R42, R43): the island keeps the beat -/

theorem State.mainStop_sameBeat {s : State} : SameBeat s s.mainStop := by
  unfold State.mainStop
  extract_lets u power v
  have hu : SameBeat s u := .kept State.regsReset_kept rfl (.kept State.dpllStop_kept rfl .refl)
  have hv : SameBeat u v := ⟨rfl, rfl⟩
  exact .kept State.showBeat_kept rfl (.kept State.showIncr_kept rfl (.kept State.showDip_kept rfl (hu.trans hv)))

theorem State.mainReset_sameBeat {s : State} {n arm} : SameBeat s (s.mainReset n arm) := by
  unfold State.mainReset
  exact .kept State.modPower_kept rfl (.trans (.kept State.showCause_kept rfl .refl) State.mainStop_sameBeat)

theorem State.drainEnd_sameBeat {s : State} {t} : SameBeat s (s.drainEnd t) := by
  unfold State.drainEnd State.standbyEnter
  extract_lets n u v
  have hv : SameBeat s v := .kept State.powerDone_kept rfl
    (.kept State.portsToL2_kept rfl (.kept State.modFabric_kept rfl (.kept State.flushAll_kept rfl .refl)))
  exact .ite (.kept State.modPower_kept rfl (hv.trans State.mainStop_sameBeat)) hv

theorem State.powerBegin_sameBeat {s : State} {t} : SameBeat s (s.powerBegin t) := by
  have hpause (u : State) : SameBeat u (u.each u.ports' fun s n => (s.clearPause n).showXoff n) :=
    .each (fun _ _ => .kept State.showXoff_kept rfl (.kept State.clearPause_kept rfl .refl)) .refl
  unfold State.powerBegin
  split
  · extract_lets u v
    have hu : SameBeat s u := .kept State.modFabric_kept rfl (.kept State.modPower_kept rfl .refl)
    have hv : SameBeat s v := .each (fun _ _ => .kept State.modLane_kept rfl .refl) hu
    exact .kept State.powerDone_kept rfl (hv.trans (hpause v))
  · extract_lets u v
    have hu : SameBeat s u := .kept State.modPower_kept rfl .refl
    have hv : SameBeat s v := .kept State.modParked_kept rfl (hu.trans (hpause u))
    exact .ite (hv.trans State.drainEnd_sameBeat) hv

theorem State.powerBoundary_sameBeat {s : State} : SameBeat s s.powerBoundary := by
  unfold State.powerBoundary
  split
  · exact .refl
  split
  · exact .ite State.powerBegin_sameBeat .refl
  · exact State.powerBegin_sameBeat
  · exact .ite State.drainEnd_sameBeat .refl

/-! ### The boundary -/

theorem State.record_sameBeat {s : State} : SameBeat s s.record := ⟨rfl, rfl⟩

theorem State.boundaryEnd_sameBeat {s : State} : SameBeat s s.boundaryEnd := by
  unfold State.boundaryEnd
  extract_lets u v w
  have hu : SameBeat s u := .each (fun _ _ => .kept State.clkSecond_kept rfl .refl) .refl
  have hv : SameBeat s v := .kept State.measBoundary_kept rfl (.each (fun _ _ => .kept State.fmBoundary_kept rfl .refl) hu)
  have hw : SameBeat s w := .kept State.esmcBoundary_kept rfl (.kept State.showStale_kept rfl (.kept State.showBackoff_kept rfl
    (.kept State.milletBoundary_kept rfl (.kept State.flapBoundary_kept rfl hv))))
  have hlast : SameBeat s (w.showServo.slotCountdown) := .kept State.slotCountdown_kept rfl (.kept State.showServo_kept rfl hw)
  exact hlast.trans State.record_sameBeat

theorem State.mainBoundary_sameBeat {s : State} : SameBeat s s.mainBoundary.1 := by
  unfold State.mainBoundary
  extract_lets skip u v w
  have hw : SameBeat s w := .kept State.order1_kept rfl (.trans
    (.kept State.dpllReport_kept rfl (.kept State.laneBeat_kept rfl (.kept State.measBegin_kept rfl .refl))) ⟨rfl, rfl⟩)
  split
  rename_i x stepped hx
  have h2 : SameBeat s x := by
    have := hw.trans State.order2_sameBeat
    rwa [hx] at this
  extract_lets x3 x5 x6 x7
  have h3 : SameBeat s x3 := .trans
    (.kept State.scaleRates_kept rfl (.kept State.order3_kept rfl (.kept State.swapStepped_kept rfl h2))) State.order4_sameBeat
  have h6 : SameBeat s x6 := .kept State.profCommits_kept rfl (.kept State.commitBoundary_kept rfl h3)
  have h7 : SameBeat s x7 := .trans
    (.kept State.order8_kept rfl (.kept State.order7_kept rfl (.kept State.snapBoundary_kept rfl h6))) State.boundaryEnd_sameBeat
  exact .trans (.kept State.startQueued_kept rfl (.kept State.order9_kept rfl h7)) State.powerBoundary_sameBeat

theorem State.islandBoundary_sameBeat {s : State} : SameBeat s s.islandBoundary := by
  unfold State.islandBoundary
  have hloop : SameBeat s (if s.inDip then s.dpllHold 0 else s.dpllRun 0) :=
    .ite (.kept State.dpllHold_kept rfl .refl) (.kept State.dpllRun_kept rfl .refl)
  exact .trans (.kept State.evoutLoads_kept rfl hloop) State.record_sameBeat

theorem State.boundary_sameBeat {s : State} : SameBeat s s.boundary.1 := by
  unfold State.boundary
  extract_lets u
  have hu : SameBeat s u := .ite State.mainReset_sameBeat .refl
  split
  · exact hu.trans State.mainBoundary_sameBeat
  · exact .ite (.trans (.kept State.applyWaiting_kept rfl (.kept State.measBegin_kept rfl (.kept State.pairBoundary_kept rfl hu)))
      State.islandBoundary_sameBeat) (hu.trans State.islandBoundary_sameBeat)

theorem State.latchCounters_sameBeat {s : State} : SameBeat s s.latchCounters :=
  ⟨by rw [State.latchCounters_time], by rw [State.latchCounters_time]⟩

theorem State.snapLatch_sameBeat {s : State} : SameBeat s s.snapLatch := by
  unfold State.snapLatch
  exact .ite State.latchCounters_sameBeat .refl

theorem State.wakeBoundary_sameBeat {s : State} {due} : SameBeat s (s.wakeBoundary due) := by
  unfold State.wakeBoundary State.when State.standbyExit
  exact .ite (.kept State.modPower_kept rfl State.mainReset_sameBeat) .refl

theorem State.planBeat_sameBeat {s : State} {stepped} : SameBeat s (s.planBeat stepped) := ⟨rfl, rfl⟩

/-! ### The boundary tick (spec/01 R28, R36, R37) -/

theorem State.pass_bounds (s : State) (n : Nat) : (s.pass n).time.bounds = s.time.bounds := by
  obtain ⟨-, h⟩ | h := s.pass_cases n
  · rw [h, State.ticks_time, State.latchCounters_time, State.ticks_time]
  · rw [h, State.ticks_time]

theorem globalBeatLen_apart {R : List Nat} (h : rowsApart R 0x104 1 4 = true) : ¬AtReg R Reg.globalBeatLen :=
  rowsApart_at (i := 0) h Nat.one_pos rfl

/-- The boundary counts, the beat starts anew, and the length of the beat that ends is shown. -/
theorem State.toBoundary_beat (s : State) :
    s.toBoundary.time.bounds = s.time.bounds + 1 ∧ s.toBoundary.time.beatTicks = 0 ∧
      s.toBoundary.fld F.globalBeatLen_LAST_TICKS = min 65535 (s.time.beatTicks + (s.time.beatLen - s.time.beatTicks)) := by
  unfold State.toBoundary
  extract_lets k here u n v w
  have hbounds : u.time.bounds = s.time.bounds := by
    show (if here then s.ticks k else s.pass k).time.bounds = _
    split
    · rfl
    · exact s.pass_bounds k
  have hn : n = s.time.beatTicks + k := by
    show (if here then s.ticks k else s.pass k).time.beatTicks = _
    split
    · rfl
    · exact s.pass_beatTicks k
  have hcount : w.time.bounds = s.time.bounds + 1 := congrArg (· + 1) hbounds
  have hstart : w.time.beatTicks = 0 := rfl
  have hlen : w.fld F.globalBeatLen_LAST_TICKS = min 65535 (s.time.beatTicks + k) := by
    have hshown : w.fld F.globalBeatLen_LAST_TICKS = min 65535 n % 2 ^ 16 :=
      (Writes.fld State.showBeat_writes (globalBeatLen_apart rfl)).trans (State.fld_setF _ _ _ (by decide))
    omega
  split
  · have hsame : SameBeat w w.latchCounters := State.latchCounters_sameBeat
    exact ⟨hsame.bounds.trans hcount, hsame.beatTicks.trans hstart,
      (Writes.fld State.latchCounters_writes (globalBeatLen_apart rfl)).trans hlen⟩
  · exact ⟨hcount, hstart, hlen⟩

/-! ### BEAT_BOUNDARY -/

/-- What BEAT_BOUNDARY leaves while the tick runs. -/
def State.afterBeat (s : State) : State :=
  (s.toBoundary.boundary.1.dipBoundary.snapLatch.wakeBoundary s.wakeDue).planBeat s.toBoundary.boundary.2

theorem exec_beatBoundary {s : State} (haon : s.power.aon = true) (hpll : s.power.pllLocked = true) :
    exec .beatBoundary s = .next s.afterBeat := by
  show execBeatBoundary s = _
  simp only [execBeatBoundary, haon, hpll, Bool.and_self, if_true]
  rfl

theorem State.afterBeat_sameBeat {s : State} : SameBeat s.toBoundary s.afterBeat :=
  .trans (.trans (.trans (.kept State.dipBoundary_kept rfl State.boundary_sameBeat) State.snapLatch_sameBeat) State.wakeBoundary_sameBeat)
    State.planBeat_sameBeat

theorem State.afterBeat_starts_beat (s : State) : s.afterBeat.time.bounds = s.time.bounds + 1 ∧ s.afterBeat.time.beatTicks = 0 := by
  obtain ⟨hbounds, hticks, -⟩ := s.toBoundary_beat
  exact ⟨State.afterBeat_sameBeat.bounds.trans hbounds, State.afterBeat_sameBeat.beatTicks.trans hticks⟩

/-- Settles O25: the boundary tick starts the beat and counts it, and no action of the boundary touches either. -/
theorem beatBoundaries : Obligations.BeatBoundaries :=
  fun s haon hpll => ⟨s.afterBeat, exec_beatBoundary haon hpll, s.afterBeat_starts_beat⟩

/-! ### The commands of device time (spec/09 R291, R292) -/

theorem exec_snapGo (src : WrSrc) (v : Word) (s : State) : exec (.snapGo src v) s = .next (s.snapCtrlWrite src v) := rfl

theorem State.snapCtrlWrite_host_of_go {s : State} {v : Word} (hup : s.up = true) (hgo : F.tbSnapCtrl_GO.of v = 1) :
    s.snapCtrlWrite .host v = ((s.putRw Reg.tbSnapCtrl v).setF F.tbSnapCtrl_GO 1).modTime fun x => { x with snap := true } := by
  simp [State.snapCtrlWrite, State.byWriter, hup, hgo]

/-! A counter write: what CORE4's fetch of the command leaves alone comes first. -/

theorem Kept.time_eq {L : List Part} {s t : State} (k : Kept L s t) (ht : L.contains .time = false) (hc : L.contains .cnt = false) :
    t.time = s.time := by
  have h : { t.time with cnt := [] } = { s.time with cnt := [] } := k.same .time ht
  have hcnt : t.time.cnt = s.time.cnt := k.same .cnt hc
  calc t.time = { ({ t.time with cnt := [] } : TimeSt) with cnt := t.time.cnt } := rfl
    _ = { ({ s.time with cnt := [] } : TimeSt) with cnt := s.time.cnt } := by rw [h, hcnt]

theorem State.fetched_time (s : State) (c : Cmd) : (s.fetched c).time = s.time := State.fetched_kept.time_eq rfl rfl

theorem State.post_nextId (s : State) (p : Post) : (s.post p).host.nextId = s.host.nextId := by
  unfold State.post
  split <;> rfl

theorem State.advance_nextId (s : State) (r n : Nat) : (s.advance r n).host.nextId = s.host.nextId := by
  unfold State.advance
  extract_lets u
  split
  · exact u.post_nextId _
  · rfl

theorem State.fetched_nextId (s : State) (c : Cmd) : (s.fetched c).host.nextId = s.host.nextId := by
  unfold State.fetched
  extract_lets u host v
  split
  · exact v.advance_nextId _ _
  · rfl

theorem exec_tcntWrite (c : Cmd) (s : State) : exec (.tcntWrite c) s = execTcntWrite c s := rfl

/-- The counter write that a SET asks for, as it waits for its boundary. -/
def setWrite (c : Cmd) (id : Nat) : CntWrite :=
  { id := id, counter := c.fld 0 1, op := 0, name := boundaryName (c.fld 4 6) (c.fld 10 4), value := stampAt c.payload 16 }

/-- A SET of a counter that is no anchor, for a boundary at which that counter has no other write, waits for it. -/
theorem execTcntWrite_of_set {s : State} {c : Cmd} (htakes : s.takes c 0x0601 = true) (hok : c.ok 28 [(2, 2), (14, 2)] = true)
    (hk : 4 ≤ c.fld 0 1) (hk' : c.fld 0 1 < 32) (hop : c.fld 1 1 = 0) (hns : c.fld 22 4 < 1000000000)
    (hname : s.nameOk (c.fld 10 4) (boundaryName (c.fld 4 6) (c.fld 10 4)) = true)
    (hfree : (s.time.writes.any fun w => w.counter == c.fld 0 1 &&
      s.boundNo w.name == s.boundNo (boundaryName (c.fld 4 6) (c.fld 10 4))) = false) :
    execTcntWrite c s = .next (((s.fetched c).park c 0x0601).modTime fun x =>
      { x with writes := x.writes ++ [setWrite c (s.fetched c).host.nextId] }) := by
  have hallowed : (s.fetched c).cntAllowed (c.fld 0 1) 0 = true := by
    simp only [State.cntAllowed, if_neg (Nat.not_lt.2 hk)]
  have hfree' : ((s.fetched c).time.writes.any fun w => w.counter == c.fld 0 1 &&
      (s.fetched c).boundNo w.name == (s.fetched c).boundNo (boundaryName (c.fld 4 6) (c.fld 10 4))) = false := by
    simpa only [State.boundNo, s.fetched_time] using hfree
  unfold execTcntWrite
  rw [hop]
  extract_lets k op name form
  have hform : (c.ok 28 [(2, 2), (14, 2)] && decide (k < 32) && decide (op < 3) && form && s.nameOk (c.fld 10 4) name) = true := by
    simp [k, op, name, form, hok, hk', hns, hname]
  rw [start_takes htakes hform]
  simp only [k, op, name, hallowed, hfree', Bool.not_true, Bool.false_eq_true, if_false]
  rfl

/-! A boundary with the main domain down (spec/01 R42, R43) -/

theorem State.boundary_of_down {s : State} (h : s.up = false) : s.boundary = (s.islandBoundary, false) := by
  have hjoined : s.joinedBeat = false := by
    have hreset : s.power.mainReset = true := by simpa [State.up] using h
    simp [State.joinedBeat, hreset]
  simp [State.boundary, h, hjoined]

/-- With the main domain down, and not in STANDBY, only the island acts at the boundary. -/
theorem State.afterBeat_of_down {s : State} (hup : s.up = false) (hp : s.power.pstate ≠ .standby) :
    s.afterBeat = s.toBoundary.islandBoundary.dipBoundary.planBeat false := by
  have hdown : s.toBoundary.up = false := by
    have hpower : s.toBoundary.power = s.power := State.toBoundary_kept.same .power rfl
    simpa only [State.up, hpower] using hup
  have hdown' : s.toBoundary.islandBoundary.dipBoundary.up = false := by
    have hpower : s.toBoundary.islandBoundary.power = s.toBoundary.power := State.islandBoundary_kept.same .power rfl
    simpa only [State.up, State.dipBoundary, State.modPower, hpower] using hdown
  have hwake : s.wakeDue = false := by simp [State.wakeDue, hp]
  simp only [State.afterBeat, State.boundary_of_down hdown, State.snapLatch, hdown', hwake, State.wakeBoundary, State.when, Bool.false_and,
    Bool.false_eq_true, if_false]

theorem State.record_head (s : State) : s.record.time.recs.head? = some s.record.time.cnt := rfl

theorem State.islandBoundary_head (s : State) : s.islandBoundary.time.recs.head? = some s.islandBoundary.time.cnt := by
  unfold State.islandBoundary
  exact State.record_head _

theorem State.dipBoundary_planBeat_fld (s : State) (b : Bool) (f : Fld) : (s.dipBoundary.planBeat b).fld f = s.fld f := rfl
theorem State.dipBoundary_planBeat_recs (s : State) (b : Bool) : (s.dipBoundary.planBeat b).time.recs = s.time.recs := rfl
theorem State.dipBoundary_planBeat_cnt (s : State) (b : Bool) : (s.dipBoundary.planBeat b).time.cnt = s.time.cnt := rfl

theorem State.afterBeat_of_down_shows {s : State} (hup : s.up = false) (hp : s.power.pstate ≠ .standby)
    (hlen : s.time.beatTicks ≤ s.time.beatLen) :
    s.afterBeat.fld F.globalBeatLen_LAST_TICKS = min 65535 s.time.beatLen ∧ s.afterBeat.time.recs.head? = some s.afterBeat.time.cnt := by
  obtain ⟨-, -, hshown⟩ := s.toBoundary_beat
  rw [Nat.add_sub_cancel' hlen] at hshown
  rw [State.afterBeat_of_down hup hp, State.dipBoundary_planBeat_fld, State.dipBoundary_planBeat_recs, State.dipBoundary_planBeat_cnt]
  exact ⟨(Writes.fld State.islandBoundary_writes (globalBeatLen_apart rfl)).trans hshown, State.islandBoundary_head _⟩

/-- Settles O24: a GO and an accepted SET leave what waits for the boundary; with the main domain down the boundary's last action is the
beat record. -/
theorem timeCommands : Obligations.TimeCommands := by
  refine ⟨?snap, ?write, ?beat⟩
  case snap =>
    intro s v hup hgo
    refine ⟨_, exec_snapGo _ _ _, ?_⟩
    rw [State.snapCtrlWrite_host_of_go hup hgo]
    exact ⟨rfl, State.fld_setF _ _ _ (by decide)⟩
  case write =>
    intro s c htakes hok hk hk' hop hns hname hfree
    refine ⟨_, (exec_tcntWrite c s).trans (execTcntWrite_of_set htakes hok hk hk' hop hns hname hfree), ?_⟩
    rw [s.fetched_nextId]
    exact ⟨congrArg (fun x : TimeSt => x.writes ++ [setWrite c s.host.nextId]) (s.fetched_time c), congrArg (· + 1) (s.fetched_nextId c)⟩
  case beat =>
    intro s haon hpll hup hp hlen
    obtain ⟨hbounds, hticks⟩ := s.afterBeat_starts_beat
    exact ⟨_, exec_beatBoundary haon hpll, hbounds, hticks, State.afterBeat_of_down_shows hup hp hlen⟩

end Sys2Proof.Machine
end

section
/-!
The power-up sequence (spec/02 R60 to R63, R76; spec/03 R81): the lock of the tick PLL, the rise of MAIN_PWR_EN, and what GLOBAL_SEQ keeps of
the attempts. For each event: the state it leaves where its guard holds, and what that state shows.
-/
namespace Sys2Proof.Machine
open Sys2Proof

/-! ### A field that is set to a value that fits -/

theorem State.fld_setF_of_lt (s : State) {f : Fld} {v : Nat} (h : f.lo + f.len ≤ 32) (hv : v < 2 ^ f.len) : (s.setF f v).fld f = v :=
  (s.fld_setF f v h).trans (Nat.mod_eq_of_lt hv)

/-! ### The lock of the tick PLL (spec/03 R81): showing the beat and the increment leaves the time and the power -/

@[simp] theorem State.showBeat_time (s : State) : s.showBeat.time = s.time := State.showBeat_kept.time_eq rfl rfl
@[simp] theorem State.showBeat_power (s : State) : s.showBeat.power = s.power := State.showBeat_kept.same .power rfl
@[simp] theorem State.showIncr_time (s : State) (k : Nat) : (s.showIncr k).time = s.time := State.showIncr_kept.time_eq rfl rfl
@[simp] theorem State.showIncr_power (s : State) (k : Nat) : (s.showIncr k).power = s.power := State.showIncr_kept.same .power rfl

theorem State.showBeat_beat (s : State) : s.showBeat.fld F.globalBeat_BEAT = s.time.idx % 100000 := by
  have hfits : s.time.idx % 100000 < 2 ^ 17 := by omega
  exact (State.fld_setF_sep _ _ rfl).trans (s.fld_setF_of_lt (by decide) hfits)

/-- What TICK_PLL_LOCK leaves while the tick PLL has not locked. -/
def State.afterLock (s : State) : State :=
  ((({ s with time := {} }.modPower fun x => { x with pllLocked := true }).planBeat false).showIncr 0).showBeat

theorem exec_tickPllLock {s : State} (haon : s.power.aon = true) (hpll : s.power.pllLocked = false) :
    exec .tickPllLock s = .next s.afterLock := by
  show execTickPllLock s = _
  simp only [execTickPllLock, haon, hpll, Bool.not_false, Bool.and_self, if_true]
  rfl

/-- At the nominal increment from 0, the first beat is 16,000 ticks long (spec/01 R28). -/
theorem State.planBeat_time_of_fresh {s : State} (h : s.time = {}) : (s.planBeat false).time = { beatLen := 16000 } := by
  have hlen : max 1 (ticksFor beatUnits 0xA0000000000) = 16000 := by decide
  have hplan : (s.planBeat false).time = { s.time with beatLen := max 1 (ticksFor beatUnits 0xA0000000000) } := by
    simp [State.planBeat, State.cnt, h]
  rw [hplan, h, hlen]

theorem State.afterLock_time (s : State) : s.afterLock.time = { beatLen := 16000 } := by
  rw [State.afterLock, State.showBeat_time, State.showIncr_time, State.planBeat_time_of_fresh rfl]

theorem State.afterLock_power (s : State) : s.afterLock.power = { s.power with pllLocked := true } := by
  rw [State.afterLock, State.showBeat_power, State.showIncr_power]
  rfl

theorem State.afterLock_beat (s : State) : s.afterLock.fld F.globalBeat_BEAT = 0 := by
  rw [State.afterLock, State.showBeat_beat, State.showIncr_time, State.planBeat_time_of_fresh rfl]
  rfl

/-! ### MAIN_PWR_EN rises (spec/02 R60, R61) -/

@[simp] theorem State.powerUp_power (s : State) : s.powerUp.power = { s.power with mainPwrEn := true, retryDue := false } := rfl
@[simp] theorem State.powerUp_fld (s : State) (f : Fld) : s.powerUp.fld f = s.fld f := rfl

theorem exec_mainPwrEnHigh {s : State} (h : s.mayRaise = true) : exec .mainPwrEnHigh s = .next s.powerUp := by
  show execMainPwrEnHigh s = _
  simp only [execMainPwrEnHigh, h, if_true]

theorem exec_powerupRetry {s : State} (h : s.mayRaise = true) (hdue : s.power.retryDue = true) :
    exec .powerupRetry s = .next s.powerUp := by
  show execPowerupRetry s = _
  simp only [execPowerupRetry, h, hdue, Bool.and_self, if_true]

/-! ### A step out of order (spec/02 R61, R63) -/

/-- GLOBAL_SEQ with the first early step named. -/
def State.namedEarly (s : State) (step : Nat) : State :=
  if s.fld F.globalSeq_EARLY_STEP = 0 then s.setF F.globalSeq_EARLY_STEP step else s

theorem exec_seqOrderViolation {s : State} {n : Nat} (hlow : 2 ≤ n) (hhigh : n ≤ 7) (haon : s.power.aon = true) :
    exec (.seqOrderViolation n) s = .next ((s.namedEarly n).setF F.globalSeq_ORDER 1) := by
  show execSeqOrderViolation n s = _
  simp only [execSeqOrderViolation, hlow, hhigh, haon, and_self, if_true, Bool.not_true, Bool.false_eq_true, if_false]
  rfl

theorem State.namedEarly_step (s : State) {n : Nat} (h : n ≤ 7) :
    (s.namedEarly n).fld F.globalSeq_EARLY_STEP = if s.fld F.globalSeq_EARLY_STEP = 0 then n else s.fld F.globalSeq_EARLY_STEP := by
  unfold State.namedEarly
  split
  · exact s.fld_setF_of_lt (by decide) (Nat.lt_succ_of_le h)
  · rfl

/-! ### An attempt that times out (spec/02 R61, R63) -/

/-- MAIN_PWR_EN falls, and GLOBAL_SEQ shows the step that was stuck and one failed attempt more. -/
def State.timedOut (s : State) (stuckStep : Nat) : State :=
  (((s.modPower fun x => { x with mainPwrEn := false, armed := false, retryDue := decide (s.fld F.globalSeq_ATTEMPTS < 2) }).setF
    F.globalSeq_TIMEOUT 1).setF F.globalSeq_STUCK_STEP stuckStep).setF F.globalSeq_ATTEMPTS (min 3 (s.fld F.globalSeq_ATTEMPTS + 1))

/-- The third failed attempt is the last. -/
theorem exec_powerupTimeout {s : State} {n : Nat} (hlow : 2 ≤ n) (hhigh : n ≤ 7) (haon : s.power.aon = true)
    (hen : s.power.mainPwrEn = true) (hreset : s.power.mainReset = true) :
    exec (.powerupTimeout n) s =
      .next (if 2 ≤ s.fld F.globalSeq_ATTEMPTS then (s.timedOut n).setF F.globalSeq_GIVEN_UP 1 else s.timedOut n) := by
  have hlast : min 3 (s.fld F.globalSeq_ATTEMPTS + 1) = 3 ↔ 2 ≤ s.fld F.globalSeq_ATTEMPTS := by omega
  have hagain : min 3 (s.fld F.globalSeq_ATTEMPTS + 1) < 3 ↔ s.fld F.globalSeq_ATTEMPTS < 2 := by omega
  show execPowerupTimeout n s = _
  simp only [execPowerupTimeout, hlow, hhigh, haon, hen, hreset, and_self, Bool.and_self, if_true, hlast, hagain]
  rfl

theorem State.timedOut_power (s : State) (n : Nat) : (s.timedOut n).power =
    { s.power with mainPwrEn := false, armed := false, retryDue := decide (s.fld F.globalSeq_ATTEMPTS < 2) } := rfl

theorem State.timedOut_seq (s : State) {n : Nat} (h : n ≤ 7) :
    (s.timedOut n).fld F.globalSeq_TIMEOUT = 1 ∧ (s.timedOut n).fld F.globalSeq_STUCK_STEP = n ∧
      (s.timedOut n).fld F.globalSeq_ATTEMPTS = min 3 (s.fld F.globalSeq_ATTEMPTS + 1) := by
  unfold State.timedOut
  refine ⟨?timeout, ?stuck, ?attempts⟩
  case timeout => rw [State.fld_setF_sep _ _ rfl, State.fld_setF_sep _ _ rfl, State.fld_setF_of_lt _ (by decide) (by decide)]
  case stuck => rw [State.fld_setF_sep _ _ rfl, State.fld_setF_of_lt _ (by decide) (Nat.lt_succ_of_le h)]
  case attempts => exact State.fld_setF_of_lt _ (by decide) (Nat.lt_succ_of_le (Nat.min_le_left _ _))

/-! ### RESET_N held low for 1 ms or more (spec/02 R61, R63, R76) -/

/-- The attempts are cleared, and the thermal latch where the island is below 100 °C. -/
def State.seqCleared (s : State) (below : Bool) : State :=
  ((s.setF F.globalSeq_ATTEMPTS 0).setF F.globalSeq_GIVEN_UP 0).modPower fun x => { x with therm := x.therm && !below }

/-- The power-up starts again where the latch or the third attempt had stopped it and nothing else does. -/
theorem exec_resetNLong {s : State} (haon : s.power.aon = true) (below : Bool) :
    exec (.resetNLong below) s =
      .next (if ((s.power.therm && below) || s.flag F.globalSeq_GIVEN_UP) && (s.seqCleared below).mayRaise then (s.seqCleared below).powerUp
        else s.seqCleared below) := by
  show execResetNLong below s = _
  simp only [execResetNLong, haon, Bool.not_true, Bool.false_eq_true, if_false]
  rfl

theorem State.seqCleared_shows (s : State) (below : Bool) :
    (s.seqCleared below).fld F.globalSeq_ATTEMPTS = 0 ∧ (s.seqCleared below).fld F.globalSeq_GIVEN_UP = 0 ∧
      (s.seqCleared below).power.therm = (s.power.therm && !below) := by
  refine ⟨?attempts, ?givenUp, rfl⟩ <;> rw [State.seqCleared, State.modPower_fld]
  case attempts => rw [State.fld_setF_sep _ _ rfl, State.fld_setF_of_lt _ (by decide) (by decide)]
  case givenUp => exact State.fld_setF_of_lt _ (by decide) (by decide)

/-- Settles O1: each clause is the state that its event leaves, and what that state shows of the power, the time and GLOBAL_SEQ. -/
theorem powerUp : Obligations.PowerUp := by
  refine ⟨?lock, ?raise, ?order, ?timeout, ?retry, ?resetN⟩
  case lock =>
    intro s haon hpll
    refine ⟨s.afterLock, exec_tickPllLock haon hpll, s.afterLock_power, ?_⟩
    rw [State.cnt, s.afterLock_time]
    exact ⟨rfl, rfl, rfl, rfl, s.afterLock_beat⟩
  case raise => exact fun s h => ⟨s.powerUp, exec_mainPwrEnHigh h, s.powerUp_power⟩
  case order =>
    intro s n hlow hhigh haon
    refine ⟨_, exec_seqOrderViolation hlow hhigh haon, State.fld_setF_of_lt _ (by decide) (by decide), ?_⟩
    rw [State.fld_setF_sep _ _ rfl, s.namedEarly_step hhigh]
  case timeout =>
    intro s n hlow hhigh haon hen hreset
    refine ⟨_, exec_powerupTimeout hlow hhigh haon hen hreset, ?_⟩
    obtain ⟨htimeout, hstuck, hattempts⟩ := s.timedOut_seq hhigh
    split
    case isTrue =>
      have hkeep {f : Fld} (h : F.globalSeq_GIVEN_UP.sep f = true) :
          ((s.timedOut n).setF F.globalSeq_GIVEN_UP 1).fld f = (s.timedOut n).fld f := State.fld_setF_sep _ _ h
      exact ⟨(State.setF_power _ _ _).trans (s.timedOut_power n), (hkeep rfl).trans htimeout, (hkeep rfl).trans hstuck, (hkeep rfl).trans hattempts,
        fun _ => State.fld_setF_of_lt _ (by decide) (by decide)⟩
    case isFalse hmore => exact ⟨s.timedOut_power n, htimeout, hstuck, hattempts, fun hlast => absurd hlast hmore⟩
  case retry => exact fun s h hdue => ⟨s.powerUp, exec_powerupRetry h hdue, s.powerUp_power⟩
  case resetN =>
    intro s below haon
    refine ⟨_, exec_resetNLong haon below, ?_⟩
    split
    case isTrue =>
      rw [State.powerUp_fld, State.powerUp_fld, State.powerUp_power]
      exact s.seqCleared_shows below
    case isFalse => exact s.seqCleared_shows below

end Sys2Proof.Machine
end

section
/-!
Main resets and the island's own (spec/03 R80, R91, R92, R95, R98, R103, R113; spec/02 R59, R76). What `State.mainStop` and
`State.islandStop` leave of each part of the state is said once; each cause of a reset is then the state that it leaves where its guard
holds.
-/
namespace Sys2Proof.Machine
open Sys2Proof

/-! ### What a frame without a part says of that part -/

theorem Kept.power_eq {L : List Part} {s t : State} (k : Kept L s t) (h : L.contains .power = false) : t.power = s.power := k.same .power h

theorem Kept.cores_eq {L : List Part} {s t : State} (k : Kept L s t) (hc : L.contains .cores = false) (hm : L.contains .mem = false) :
    t.cores = s.cores := by
  have h : { t.cores with mem := [] } = { s.cores with mem := [] } := k.same .cores hc
  have hmem : t.cores.mem = s.cores.mem := k.same .mem hm
  calc t.cores = { ({ t.cores with mem := [] } : CoresSt) with mem := t.cores.mem } := rfl
    _ = { ({ s.cores with mem := [] } : CoresSt) with mem := s.cores.mem } := by rw [h, hmem]

theorem Kept.sec_eq {L : List Part} {s t : State} (k : Kept L s t) (hs : L.contains .sec = false) (hk : L.contains .keys = false) :
    t.sec = s.sec := by
  have h : { t.sec with keys := [] } = { s.sec with keys := [] } := k.same .sec hs
  have hkeys : t.sec.keys = s.sec.keys := k.same .keys hk
  calc t.sec = { ({ t.sec with keys := [] } : SecSt) with keys := t.sec.keys } := rfl
    _ = { ({ s.sec with keys := [] } : SecSt) with keys := s.sec.keys } := by rw [h, hkeys]

/-! ### The main domain stops (spec/03 R91, R92, R113) -/

/-- What the island's registers show after the stop is all that the last three operations of `State.mainStop` write. -/
theorem State.showIsland_kept (s : State) : Kept [.regs] s (s.showDip.showIncr 0).showBeat :=
  .step State.showBeat_kept rfl (.step State.showIncr_kept rfl (.step State.showDip_kept rfl .refl))

/-- The stop of the main domain before its registers are lost: DPLL0 goes on without a reference, and the island keeps all else. -/
theorem State.dpllStop_regsReset_kept (s : State) :
    Kept [.regs, .host, .cores, .refs, .waiting] s ((s.dpllStop 0).regsReset fun _ => true) :=
  .step State.regsReset_kept rfl (.step State.dpllStop_kept rfl .refl)

theorem State.mainStop_power (s : State) : s.mainStop.power = { s.power with
    mainReset := true, joined := false, active := {}, mainSet := [], applyProf := [], profGens := []
    alarmBoot := false, softPending := false, pstate := .normal
    keep := 0, wake := none, railsOff := false, wakePassed := false, trans := none, kick := none } := by
  rw [← s.dpllStop_regsReset_kept.power_eq rfl]
  exact (State.showIsland_kept _).power_eq rfl

theorem State.mainStop_time (s : State) : s.mainStop.time = s.time.island := by
  rw [← s.dpllStop_regsReset_kept.time_eq rfl rfl]
  exact (State.showIsland_kept _).time_eq rfl rfl

theorem State.mainStop_sec (s : State) : s.mainStop.sec = s.sec.kept := by
  rw [← s.dpllStop_regsReset_kept.sec_eq rfl rfl]
  exact (State.showIsland_kept _).sec_eq rfl rfl

/-- What no part of the island holds is gone; of the host interface, only what has left the device stays. -/
theorem State.mainStop_forgets (s : State) : (∃ posts, s.mainStop.host = { posts := posts }) ∧ s.mainStop.waiting = [] ∧
    s.mainStop.cores = {} ∧ s.mainStop.lanes = [] ∧ s.mainStop.pipes = {} ∧ s.mainStop.fabric = {} ∧ s.mainStop.servo = {} ∧ s.mainStop.cal = {} := by
  unfold State.mainStop
  extract_lets u power v
  have k := v.showIsland_kept
  exact ⟨⟨_, k.same .host rfl⟩, k.same .waiting rfl, k.cores_eq rfl rfl, k.same .lanes rfl, k.same .pipes rfl, k.same .fabric rfl,
    k.same .servo rfl, k.same .cal rfl⟩

/-- A field lies in bits that outlive a main reset. -/
def Fld.outlivesReset (f : Fld) : Bool := (RegMap.find f.addr).any fun h => f.mask &&& BitVec.ofNat 32 h.maskKept == f.mask

/-- A field of class A, V or F outlives the stop, but for the rows in which the island's own state shows. -/
theorem State.mainStop_fld (s : State) (hc : regsCanon s = true) {f : Fld} (hlen : f.lo + f.len ≤ 32) (hkept : f.outlivesReset = true)
    (hapart : isApart (mainResetRegs.erase Reg.globalResetCause) f.addr = true) : s.mainStop.fld f = s.fld f := by
  have ha : ¬AtReg (mainResetRegs.erase Reg.globalResetCause) f.addr := isApart_at hapart
  have hshow (t : State) : ((t.showDip.showIncr 0).showBeat).fld f = t.fld f :=
    Writes.fld (.step State.showBeat_writes rfl (.step State.showIncr_writes rfl (.step State.showDip_writes rfl .refl))) ha
  have hstop : (s.dpllStop 0).fld f = s.fld f := Writes.fld (.step State.dpllStop_writes rfl .refl) ha
  have hreset := regsReset_keep (s.dpllStop 0) (State.dpllStop_kept.regs hc) f hkept hlen
  exact (hshow _).trans (hreset.trans hstop)

/-! ### GLOBAL_RESET_CAUSE (spec/03 R95): LAST, the bit of the cause, and the rail are of class A -/

theorem causeBit_range (n : Nat) : 4 ≤ causeBit n ∧ causeBit n ≤ 11 := by
  unfold causeBit
  generalize n - 1 = k
  match k with
  | 0 | 1 | 2 | 3 | 4 | 5 | 6 | 7 => decide
  | k + 8 => exact ⟨by simp, by simp⟩

/-- The bit of GLOBAL_RESET_CAUSE that cause `n` sets, as a field. -/
abbrev causeFld (n : Nat) : Fld := ⟨Reg.globalResetCause, causeBit n, 1⟩

theorem causeFld_outlivesReset (n : Nat) : (causeFld n).outlivesReset = true := by
  have hall : ∀ b ≤ 11, 4 ≤ b → Fld.outlivesReset ⟨Reg.globalResetCause, b, 1⟩ = true := by decide
  obtain ⟨hlow, hhigh⟩ := causeBit_range n
  exact hall _ hhigh hlow

theorem State.mainReset_last (s : State) {n : Nat} (arm : Bool) (hc : regsCanon s = true) (hn : n < 16) :
    (s.mainReset n arm).fld F.globalResetCause_LAST = n :=
  ((s.showCause n).mainStop_fld (State.showCause_kept.regs hc) (by decide) (by decide) rfl).trans (State.fld_setF_of_lt _ (by decide) hn)

theorem State.mainReset_causeFld (s : State) (n : Nat) (arm : Bool) (hc : regsCanon s = true) : (s.mainReset n arm).fld (causeFld n) = 1 := by
  obtain ⟨hlow, hhigh⟩ := causeBit_range n
  have hfits : causeBit n + 1 ≤ 32 := by omega
  calc (s.mainReset n arm).fld (causeFld n)
    _ = (s.showCause n).fld (causeFld n) :=
      (s.showCause n).mainStop_fld (State.showCause_kept.regs hc) hfits (causeFld_outlivesReset n) rfl
    _ = (s.setF (causeFld n) 1).fld (causeFld n) := State.fld_setF_other (f := F.globalResetCause_LAST) (g := causeFld n) _ n (.inl hlow)
    _ = 1 := s.fld_setF_of_lt hfits (Nat.lt_succ_self 1)

theorem State.mainReset_rail (s : State) (n : Nat) (arm : Bool) (hc : regsCanon s = true) :
    (s.mainReset n arm).fld F.globalResetCause_RAIL = s.fld F.globalResetCause_RAIL := by
  obtain ⟨-, hhigh⟩ := causeBit_range n
  refine ((s.showCause n).mainStop_fld (State.showCause_kept.regs hc) (by decide) (by decide) rfl).trans ?_
  refine (State.fld_setF_sep _ n rfl).trans (State.fld_setF_other _ 1 (.inl ?_))
  show causeBit n + 1 ≤ 28
  omega

/-! ### A main reset (spec/03 R91, R92, R95) -/

theorem State.mainReset_power (s : State) (n : Nat) (arm : Bool) : (s.mainReset n arm).power =
    { (s.mainStop.power) with armed := arm || s.power.armed || !s.power.mainReset } := by
  have h : (s.showCause n).mainStop.power = s.mainStop.power := by
    rw [State.mainStop_power, State.mainStop_power, State.showCause_kept.power_eq rfl]
  unfold State.mainReset
  extract_lets on
  rw [State.modPower_power, h]

theorem State.mainReset_isMainReset (s : State) {n : Nat} (arm : Bool) (hc : regsCanon s = true) (hn : n < 16) :
    MainReset n s (s.mainReset n arm) := by
  obtain ⟨⟨posts, hhost⟩, hwaiting, hcores, hlanes, hpipes, hfabric, hservo, hcal⟩ := (s.showCause n).mainStop_forgets
  have htime : (s.mainReset n arm).time = s.time.island := (s.showCause n).mainStop_time
  have hsec : (s.mainReset n arm).sec = s.sec.kept := (s.showCause n).mainStop_sec
  have hcnt : (s.mainReset n arm).cnt 0 = s.cnt 0 := by
    rw [State.cnt, htime, State.cnt]
    cases h : s.time.cnt <;> simp [TimeSt.island, h]
  refine ⟨?reset, ?joined, s.mainReset_last arm hc hn, s.mainReset_causeFld n arm hc, hcnt, (congrArg TimeSt.idx htime).trans rfl,
    (congrArg SecSt.keys hsec).trans rfl,
    congrArg HostSt.parked hhost, congrArg HostSt.longOps hhost, hwaiting, hcores, hlanes, hpipes, hfabric, hservo, hcal⟩ <;>
  rw [State.mainReset_power, State.mainStop_power]

/-- What the power sequence changes afterwards does not undo a main reset. -/
theorem MainReset.modPower {n : Nat} {s t : State} {f : PowerSt → PowerSt} (h : MainReset n s t) (hr : (f t.power).mainReset = true)
    (hj : (f t.power).joined = false) : MainReset n s (t.modPower f) := by
  obtain ⟨-, -, hrest⟩ := h
  exact ⟨hr, hj, hrest⟩

/-- A main reset that finds the main domain running is released. -/
theorem State.mainReset_armed {s : State} (n : Nat) {arm : Bool} (h : arm = true ∨ s.power.mainReset = false) :
    (s.mainReset n arm).power.armed = true := by
  rw [State.mainReset_power]
  obtain rfl | h := h
  · rfl
  · simp [h]

theorem State.standbyExit_isMainReset (s : State) (hc : regsCanon s = true) :
    MainReset 8 s s.standbyExit ∧ s.standbyExit.power.mainPwrEn = true ∧ s.standbyExit.power.armed = true := by
  have h := s.mainReset_isMainReset (n := 8) true hc (by decide)
  have ⟨hreset, hjoined, _⟩ := h
  exact ⟨h.modPower hreset hjoined, rfl, s.mainReset_armed 8 (.inl rfl)⟩

/-! ### The causes -/

theorem exec_mainPor {s : State} (haon : s.power.aon = true) (hen : s.power.mainPwrEn = true) (hreset : s.power.mainReset = true)
    (harmed : s.power.armed = false) (hp : s.power.pstate ≠ .standby) : exec .mainPor s = .next (s.mainReset 2 true) := by
  show execMainPor s = _
  simp [execMainPor, haon, hen, hreset, harmed, hp]

/-- The rail that has fallen is named, and the dip is over. -/
def State.railFallen (s : State) (rail : Nat) : State :=
  (s.setF F.globalResetCause_RAIL rail).modPower fun x => { x with dip := none, alarmDip := false }

theorem exec_supplyReset {s : State} {rail : Nat} (hrail : rail ≤ 7) (haon : s.power.aon = true) (hen : s.power.mainPwrEn = true)
    (hreset : s.power.mainReset = false) (hp : s.power.pstate ≠ .standby) :
    exec (.supplyReset rail) s = .next ((s.railFallen rail).mainReset 3 true) := by
  show execSupplyReset rail s = _
  simp [execSupplyReset, State.railFallen, hrail, haon, hen, hreset, hp]

theorem State.railFallen_mainReset_dip (s : State) (rail : Nat) : ((s.railFallen rail).mainReset 3 true).power.dip = none := by
  rw [State.mainReset_power, State.mainStop_power]
  rfl

theorem State.railFallen_mainReset_rail {s : State} {rail : Nat} (hc : regsCanon s = true) (hrail : rail ≤ 7) :
    ((s.railFallen rail).mainReset 3 true).fld F.globalResetCause_RAIL = rail := by
  have hcanon : regsCanon (s.railFallen rail) = true := State.setF_kept.regs hc
  rw [State.mainReset_rail _ _ _ hcanon, State.railFallen, State.modPower_fld]
  exact s.fld_setF_of_lt (by decide) (Nat.lt_of_le_of_lt hrail (by decide))

theorem exec_pinReset {s : State} (haon : s.power.aon = true) :
    exec .pinReset s = .next (if s.power.pstate = .standby then s.standbyExit else s.mainReset 4 false) := by
  show execPinReset s = _
  simp [execPinReset, haon]

theorem exec_wdtReset {s : State} (hruns : s.wdtRuns = true)
    (hdue : 1600000 * wdtMs (s.fld F.globalWdtCtrl_TIMEOUT_MS) ≤ s.dogRan s.power.dog true) : exec .wdtReset s = .next (s.mainReset 5 false) := by
  show execWdtReset s = _
  simp [execWdtReset, hruns, hdue]

theorem exec_thermtrip {s : State} (haon : s.power.aon = true) (hen : s.power.mainPwrEn = true) : exec .thermtrip s =
    .next ((s.mainReset 7 false).modPower fun x => { x with therm := true, mainPwrEn := false, armed := false }) := by
  show execThermtrip s = _
  simp [execThermtrip, haon, hen]

theorem exec_standbyWake {s : State} (haon : s.power.aon = true) (hp : s.power.pstate = .standby) (hpassed : s.power.wakePassed = false)
    {w : Stamp} (hw : s.power.wake = some w) (hdue : w ≤ s.now) : exec .standbyWake s = .next s.standbyExit := by
  show execStandbyWake s = _
  simp [execStandbyWake, haon, hp, hpassed, hw, hdue]

theorem exec_standbyRailsOff {s : State} (hp : s.power.pstate = .standby) (hoff : s.power.railsOff = true) :
    exec .standbyRailsOff s = .next (s.modPower fun x => { x with mainPwrEn := false }) := by
  show execStandbyRailsOff s = _
  simp [execStandbyRailsOff, hp, hoff]

/-- Settles O2: each cause is `State.mainReset` with its code, and what the power sequence adds to it. -/
theorem mainResets : Obligations.MainResets := by
  refine ⟨?por, ?supply, ?pin, ?pinStandby, ?wdt, ?therm, ?wake, ?rails⟩
  case por =>
    intro s hc haon hen hreset harmed hp
    exact ⟨_, exec_mainPor haon hen hreset harmed hp, s.mainReset_isMainReset true hc (by decide), s.mainReset_armed 2 (.inl rfl)⟩
  case supply =>
    intro s rail hc hrail haon hen hreset hp
    have hcanon : regsCanon (s.railFallen rail) = true := State.setF_kept.regs hc
    exact ⟨_, exec_supplyReset hrail haon hen hreset hp, (s.railFallen rail).mainReset_isMainReset true hcanon (by decide),
      State.railFallen_mainReset_rail hc hrail, s.railFallen_mainReset_dip rail, State.mainReset_armed 3 (.inl rfl)⟩
  case pin =>
    intro s hc haon hreset hp
    exact ⟨_, (exec_pinReset haon).trans (by rw [if_neg hp]), s.mainReset_isMainReset false hc (by decide), s.mainReset_armed 4 (.inr hreset)⟩
  case pinStandby =>
    intro s hc haon hp
    exact ⟨_, (exec_pinReset haon).trans (by rw [if_pos hp]), s.standbyExit_isMainReset hc⟩
  case wdt =>
    intro s hc hruns hdue
    exact ⟨_, exec_wdtReset hruns hdue, s.mainReset_isMainReset false hc (by decide)⟩
  case therm =>
    intro s hc haon hen
    have h := s.mainReset_isMainReset (n := 7) false hc (by decide)
    have ⟨hreset, hjoined, _⟩ := h
    exact ⟨_, exec_thermtrip haon hen, h.modPower hreset hjoined, rfl, rfl, rfl⟩
  case wake =>
    rintro s hc haon hp hpassed ⟨w, hw, hdue⟩
    exact ⟨_, exec_standbyWake haon hp hpassed hw hdue, s.standbyExit_isMainReset hc⟩
  case rails => exact fun s hp hoff => ⟨_, exec_standbyRailsOff hp hoff, rfl⟩

/-! ### What a main reset leaves of the registers (spec/03 R113) -/

/-- The rows that a main reset writes are those in which the island's own state shows and those of the device's reports. -/
theorem atReg_of_mainResetRegs {a : Nat} (h : AtReg mainResetRegs a) : AtReg [Reg.globalResetCause, Reg.globalBeat, Reg.globalDipStatus,
    Reg.tbIncrLo 0, Reg.tbIncrHi 0, Reg.dpllStatus 0, Reg.dpllHoTts 0, Reg.dpllHistIncrLo 0, Reg.dpllHistIncrHi 0] a ∨ AtReg reportRegs a := by
  obtain ⟨b, hb, hinst⟩ := h
  have hsplit : mainResetRegs ⊆ [Reg.globalResetCause, Reg.globalBeat, Reg.globalDipStatus, Reg.tbIncrLo 0, Reg.tbIncrHi 0, Reg.dpllStatus 0,
      Reg.dpllHoTts 0, Reg.dpllHistIncrLo 0, Reg.dpllHistIncrHi 0] ++ reportRegs := by decide
  exact (List.mem_append.1 (hsplit hb)).imp (⟨b, ·, hinst⟩) (⟨b, ·, hinst⟩)

/-- Settles O3: outside the rows that it writes, a main reset is `State.regsReset` of every register. -/
theorem mainResetRegisters : Obligations.MainResetRegisters :=
  fun s n arm _ _ hc hf hisland hreport =>
    s.mainReset_reg n arm hc (fun h => (atReg_of_mainResetRegs h).elim hisland hreport) hf

/-! ### The island's own reset (spec/03 R80, R113) and VAULT-ONLY (spec/02 R59) -/

theorem and_or_and_not_self (w m : Word) : (w &&& m) ||| (w &&& ~~~m) = w := by
  rw [← BitVec.and_or_distrib_left, BitVec.or_not_self, BitVec.and_allOnes]

/-- What outlives the island's stop besides the registers' bits of classes V and F. -/
def State.vaultKept (s : State) : State :=
  { rdata := s.rdata, line := s.line, freeCtr := s.freeCtr, pending := s.pending, host := { posts := s.host.posts }, sec := s.sec.kept }

/-- The word that register `a`, which holds `v`, takes when the island stops. -/
def vaultWord (a : Nat) (v : Word) : Option Word :=
  (RegMap.find a).map fun h => (v &&& h.maskVault) ||| (RegMap.reset a &&& ~~~h.maskVault)

theorem State.islandStop_reg (s : State) (hc : regsCanon s = true) {a : Nat} {h : RegHit} (hf : RegMap.find a = some h) :
    s.islandStop.reg a = (s.reg a &&& h.maskVault) ||| (RegMap.reset a &&& ~~~h.maskVault) := by
  obtain ⟨hsorted, -⟩ := (Tab.canon_iff _ _).1 hc
  have hreg := State.each_regs vaultWord a s.regs s.vaultKept hsorted
  have hfresh : s.vaultKept.reg a = RegMap.reset a := rfl
  unfold State.islandStop
  refine Eq.trans (Eq.trans ?step hreg) ?word
  case step =>
    simp only [State.each]
    congr 2
    funext t p
    unfold vaultWord
    cases RegMap.find p.1 <;> rfl
  case word =>
    cases hv : Tab.find a s.regs with
    | none =>
      have hreset : s.reg a = RegMap.reset a := by simp [State.reg, hv]
      rw [hreset, and_or_and_not_self]
      exact hfresh
    | some v => simp [State.reg, hv, vaultWord, hf]

theorem State.islandStop_of_vaultKept (s : State) : Kept [.regs] s.vaultKept s.islandStop := by
  unfold State.islandStop
  refine State.each_kept (fun u p k => ?_) .refl
  split
  · exact k
  · exact .step State.setReg_kept rfl k

theorem State.islandStop_leaves (s : State) : s.islandStop.sec = s.sec.kept ∧ s.islandStop.time = {} ∧ s.islandStop.power = {} ∧
    s.islandStop.cores = {} ∧ s.islandStop.pipes = {} ∧ s.islandStop.fabric = {} ∧ s.islandStop.refs = {} ∧ s.islandStop.waiting = [] := by
  have k := s.islandStop_of_vaultKept
  exact ⟨k.sec_eq rfl rfl, k.time_eq rfl rfl, k.power_eq rfl, k.cores_eq rfl rfl, k.same .pipes rfl, k.same .fabric rfl, k.same .refs rfl,
    k.same .waiting rfl⟩

theorem exec_islandReset {s : State} (haon : s.power.aon = true) : exec .islandReset s = .next s.islandStop := by
  show execIslandReset s = _
  simp only [execIslandReset, State.vaultTime, haon, if_true]

theorem exec_vaultOnlyEntry {s : State} (haon : s.power.aon = true) : exec .vaultOnlyEntry s =
    .next ((s.islandStop.modPower fun x => { x with aon := false }).setF F.secStatus_ON_VBAT 1) := by
  show execVaultOnlyEntry s = _
  simp only [execVaultOnlyEntry, haon, if_true]

/-- Settles O4: both are `State.islandStop`; in VAULT-ONLY the supply is gone and ON_VBAT shows. -/
theorem islandReset : Obligations.IslandReset := by
  refine ⟨fun s hc haon => ?reset, fun s _ haon => ?vaultOnly⟩ <;>
    obtain ⟨hsec, htime, hpower, hcores, hpipes, hfabric, hrefs, hwaiting⟩ := s.islandStop_leaves
  case reset =>
    exact ⟨_, exec_islandReset haon, fun _ _ hf => s.islandStop_reg hc hf, (congrArg SecSt.keys hsec).trans rfl,
      (congrArg SecSt.log hsec).trans rfl, htime, hpower, hcores, hpipes, hfabric, hrefs, hwaiting⟩
  case vaultOnly =>
    exact ⟨_, exec_vaultOnlyEntry haon, congrArg (fun x : PowerSt => { x with aon := false }) hpower,
      State.fld_setF_of_lt _ (by decide) (by decide), (congrArg SecSt.keys hsec).trans rfl, (congrArg SecSt.log hsec).trans rfl, htime,
      hcores, hpipes, hfabric⟩

end Sys2Proof.Machine
end

section
/-!
The system watchdog and the soft chip reset (spec/03 R93, R94, R98, R99, R111): for each write, the state that it leaves where its guard
holds.
-/
namespace Sys2Proof.Machine
open Sys2Proof

theorem exec_wdtWarn {s : State} (hruns : s.wdtRuns = true)
    (hdue : 1200000 * wdtMs (s.fld F.globalWdtCtrl_TIMEOUT_MS) ≤ s.dogRan s.power.dog true) : exec .wdtWarn s =
    .next (s.raise 0x0104 16 [(0, 4, wdtMs (s.fld F.globalWdtCtrl_TIMEOUT_MS)), (4, 4, ticksMs (s.time.tick - s.power.wdtTick)),
      (8, 1, s.fld F.globalWdtCtrl_SRC_CORE4 + 2 * s.fld F.globalWdtCtrl_SRC_HOST), (12, 4, s.beat)]) := by
  show execWdtWarn s = _
  simp [execWdtWarn, hruns, hdue]

/-! ### The two writes of a kick (spec/03 R98) -/

theorem exec_wdtKick {s : State} (hup : s.up = true) (src : WrSrc) (v : Word) : exec (.wdtKick src v) s = .next (s.wdtKickWrite src v) := by
  show execWdtKick src v s = _
  simp only [execWdtKick, hup, if_true]

theorem State.wdtKickWrite_first (s : State) (src : WrSrc) :
    (s.wdtKickWrite src 0xA5C3#32).power = { s.power with kick := some (src, s.time.tick) } := rfl

/-- The second write is accepted from the source of the first, where it may kick, within 1 ms: 1,600,000 ticks. -/
theorem State.wdtKickWrite_second {s : State} {src : WrSrc} {n : Nat} (hkick : s.power.kick = some (src, n))
    (hsrc : s.wdtSource src = true) (hsoon : s.time.tick ≤ n + 1600000) :
    (s.wdtKickWrite src 0x5A3C#32).power = { s.power with kick := none, wdtTick := s.time.tick, dog := ⟨0, s.time.tick⟩ } := by
  have hkey : F.globalWdtKick_KEY.of 0x5A3C#32 = 0x5A3C := by decide
  simp [State.wdtKickWrite, hkey, hkick, hsrc, hsoon]

/-! ### A write of GLOBAL_WDT_CTRL (spec/03 R99) -/

theorem exec_wdtCtrlWrite {s : State} (hup : s.up = true) (src : WrSrc) (v : Word) :
    exec (.wdtCtrlWrite src v) s = .next (s.wdtCtrlWrite v) := by
  show execWdtCtrlWrite src v s = _
  simp only [execWdtCtrlWrite, hup, if_true]

/-- A field all of whose bits are of type RW, none of type W1C. -/
abbrev Fld.plainRw (f : Fld) : Prop :=
  f.lo + f.len ≤ 32 ∧ f.mask &&& rwMask f.addr = f.mask ∧
    ((RegMap.find f.addr).all fun h => f.mask &&& BitVec.ofNat 32 h.row.w1c == 0) = true

/-- Where the nesting holds, the RW fields take what is written. -/
theorem State.wdtCtrlWrite_fld {s : State} {v : Word}
    (hnest : s.wdtOver (F.globalWdtCtrl_EN.of v == 1) (F.globalWdtCtrl_TIMEOUT_MS.of v) = true) {f : Fld} (haddr : f.addr = Reg.globalWdtCtrl)
    (hf : f.plainRw) : (s.wdtCtrlWrite v).fld f = f.of v := by
  obtain ⟨hlen, hrw, hw1c⟩ := hf
  have hput : ((s.putRw Reg.globalWdtCtrl v).putW1c Reg.globalWdtCtrl v).fld f = f.of v := by
    rw [← haddr, State.fld_putW1c _ f v hw1c hlen, State.fld_putRw s f v hrw hlen]
  simp only [State.wdtCtrlWrite, hnest, if_true]
  split <;> exact hput

theorem State.wdtCtrlWrite_of_breaks {s : State} {v : Word}
    (hnest : s.wdtOver (F.globalWdtCtrl_EN.of v == 1) (F.globalWdtCtrl_TIMEOUT_MS.of v) = false) :
    s.wdtCtrlWrite v = s.setF F.globalWdtCtrl_CFG_ERR 1 := by
  simp only [State.wdtCtrlWrite, hnest, Bool.false_eq_true, if_false]

/-! ### The soft chip reset (spec/03 R93, R94) -/

theorem exec_resetCtrlChip {s : State} (hup : s.up = true) (src : WrSrc) {v : Word} (hchip : F.globalResetCtrl_CHIP.of v = 1)
    (hkey : F.globalResetCtrl_KEY.of v = 0xC4A7) : exec (.resetCtrlChip src v) s =
    .next ((s.setF F.globalResetCtrl_CHIP 1).modPower fun x => { x with softPending := true }) := by
  show execResetCtrlChip src v s = _
  simp only [execResetCtrlChip, State.resetCtrlWrite, hup, hchip, hkey, and_self, if_true]

theorem exec_chipReset {s : State} {c : Cmd} (htakes : s.takes c 0x0103 = true) (hok : c.ok 2 = true) (hkey : c.fld 0 2 = 0xC4A7) :
    exec (.chipReset c) s =
      .next (((s.fetched c).complete c 0x0103 st.ok).modPower fun x => { x with softPending := true }) := by
  show execChipReset c s = _
  rw [execChipReset, start_takes htakes (by simp [hok, hkey])]

/-- Settles O6: each write is accepted, and its fields and what it leaves in the power sequence's state are read off. -/
theorem watchdogAndChipReset : Obligations.WatchdogAndChipReset := by
  refine ⟨?warn, ?first, ?second, ?nests, ?breaks, ?chip, ?command⟩
  case warn => exact fun s hruns hdue => ⟨_, exec_wdtWarn hruns hdue, s, rfl⟩
  case first => exact fun s src hup => ⟨_, exec_wdtKick hup src _, s.wdtKickWrite_first src⟩
  case second =>
    exact fun s src n hup hkick hsrc hsoon => ⟨_, exec_wdtKick hup src _, State.wdtKickWrite_second hkick hsrc hsoon⟩
  case nests =>
    intro s src v hup hnest
    have hfld {f : Fld} (haddr : f.addr = Reg.globalWdtCtrl) (hf : f.plainRw) := State.wdtCtrlWrite_fld hnest haddr hf
    exact ⟨_, exec_wdtCtrlWrite hup src v, hfld rfl (by decide), hfld rfl (by decide), hfld rfl (by decide), hfld rfl (by decide)⟩
  case breaks =>
    intro s src v hup hnest
    refine ⟨_, exec_wdtCtrlWrite hup src v, ?_⟩
    rw [State.wdtCtrlWrite_of_breaks hnest]
    exact ⟨State.fld_setF_of_lt _ (by decide) (by decide), State.fld_setF_sep _ _ rfl, State.fld_setF_sep _ _ rfl⟩
  case chip =>
    exact fun s src v hup hchip hkey => ⟨_, exec_resetCtrlChip hup src hchip hkey, State.fld_setF_of_lt s (by decide) (by decide), rfl⟩
  case command =>
    intro s c htakes hok hkey
    exact ⟨_, exec_chipReset htakes hok hkey, rfl, _, ⟨s.fetched c, 0, 0, 0, 0, rfl, trivial⟩, rfl⟩

end Sys2Proof.Machine
end

section
/-!
Supply dips (spec/03 R106 to R108): DIP_LONG where the rails have gone off since the dip began, as after a thermal trip.
-/
namespace Sys2Proof.Machine
open Sys2Proof

/-- ALARM_N is an output of VDD_IO (spec/02 R55): without the main rails it is not asserted, whatever holds it. -/
theorem State.mainPwrEn_of_alarm {s : State} (h : s.alarm = true) : s.power.mainPwrEn = true := by
  simp only [State.alarm, State.mainPower, Bool.and_eq_true] at h
  obtain ⟨⟨⟨-, hen⟩, -⟩, -⟩ := h
  exact hen

theorem exec_dipLong_mainPwrEn {s t : State} {lows : List RailLow} (h : exec (.dipLong lows) s = .next t) :
    t.power.mainPwrEn = s.power.mainPwrEn := by
  change execDipLong lows s = _ at h
  unfold execDipLong at h
  injection h with h
  subst h
  split
  · rfl
  extract_lets d u
  split
  · rfl
  split
  · rfl
  split
  · rfl
  · rw [(State.raise_kept (s := u)).power_eq rfl]
    rfl

/-- A dip of VDD_AON that began at tick 0. -/
def lastingDip : Dip := { rails := 0x100, below := 0x100, lows := [], start := 0, since := 0, startTick := 0 }

/-- A thermal trip has taken MAIN_PWR_EN low in that dip, which has lasted longer than MAX_MS by now. -/
def dipWithoutRails : State :=
  { power := { pllLocked := true, therm := true, dip := some lastingDip }, time := { tick := 10 ^ 12 } }

/-- Refutes O5: its clause on DIP_LONG concludes ALARM_N and does not ask that the main rails be up; `dipWithoutRails` meets its hypotheses,
and its MAIN_PWR_EN is low before and after. -/
theorem not_dipAndOscillator : ¬Obligations.DipAndOscillator := by
  rintro ⟨-, -, hlong, -⟩
  obtain ⟨t, hexec, -, -, halarm, -⟩ :=
    hlong dipWithoutRails [⟨8, 900⟩] lastingDip (8, 900) rfl (by decide) rfl (by decide)
  have hoff : t.power.mainPwrEn = false := exec_dipLong_mainPwrEn hexec
  rw [State.mainPwrEn_of_alarm halarm] at hoff
  cases hoff

end Sys2Proof.Machine
end

section
/-!
The drain of POWER_STATE_SET (spec/03 R102; spec/08 R271): a copy that a port is sending is in no queue, so that the flush does not reach
it, and goes back into its egress queue when the port leaves ACTIVE for L2.
-/
namespace Sys2Proof.Machine
open Sys2Proof

theorem exec_quietDrainEnd {s : State} {x : Trans} (hup : s.up = true) (htrans : s.power.trans = some x) (hphase : x.phase = .drain)
    (hdue : x.since + 1600000 * x.drainMs ≤ s.time.tick) : exec .quietDrainEnd s = .next (s.drainEnd x) := by
  show execQuietDrainEnd s = _
  simp [execQuietDrainEnd, htrans, hup, hphase, hdue]

/-- The queues are flushed and the stacks are in self-refresh: the state in which a drain that ends takes the ports into L2. -/
def State.flushedForL2 (s : State) : State := (s.flushAll fun _ => true).modFabric fun x => { x with selfRefresh := true }

/-- Nothing of the fabric changes in QUIET once the ports have gone into L2. -/
theorem State.drainEnd_fabric {s : State} {x : Trans} (h : x.target = .quiet) :
    (s.drainEnd x).fabric = (s.flushedForL2.portsToL2 x.keep).fabric := by
  unfold State.drainEnd
  extract_lets n u v
  rw [if_neg (by rw [h]; decide)]
  exact State.powerDone_kept.same .fabric rfl

/-- The drain of a transition into QUIET, with nothing left of DRAIN_MS. -/
def endingDrain : Trans :=
  { cmd := 3, old := .normal, target := .quiet, railsOff := false, drainMs := 0, keep := 0, wake := none, phase := .drain }

/-- A copy of class 0 to port 127. -/
def sentCopy : Copy := { frame := 0, port := 0, q := 127, cls := 0, cells := 1 }

/-- Port 127, one lane wide, is ACTIVE and sends that copy as the drain ends. -/
def sendingAtDrainEnd : State :=
  ((({ regs := [(Reg.laneGrp 31, 0)]
       power := { pllLocked := true, mainPwrEn := true, mainReset := false, joined := true, firstBoot := false, pstate := .quiet, trans := some endingDrain }
       fabric := { tx := [(127, some sentCopy)] } } : State).setF
    (F.laneCfg_EN 127) 1).setF (F.laneCfg_WIDTH 127) 0).setF (F.laneStatus_STATE 127) 5

theorem sendingAtDrainEnd_ports : (sendingAtDrainEnd.flushedForL2.ports'.filter fun n =>
    !bitAt endingDrain.keep.toNat n && !([0, 8, 9, 11, 12].contains (sendingAtDrainEnd.flushedForL2.link n))) = [127] := by
  have hactive : ∀ n ∈ List.range 128, (!bitAt endingDrain.keep.toNat n &&
      !([0, 8, 9, 11, 12].contains (sendingAtDrainEnd.flushedForL2.link n)) && sendingAtDrainEnd.flushedForL2.portExists n) = (n == 127) := by
    decide +kernel
  unfold State.ports'
  rw [List.filter_filter, List.filter_congr hactive]
  decide

theorem sendingAtDrainEnd_unsent : (sendingAtDrainEnd.flushedForL2.portsToL2 endingDrain.keep).fabric.eq = [sentCopy] := by
  rw [State.portsToL2, sendingAtDrainEnd_ports]
  decide +kernel

/-- Refutes O27: its clause on QUIET_DRAIN_END concludes that the egress queues are empty; at `sendingAtDrainEnd` the copy being sent is back in
one. -/
theorem not_powerStatesAndDomains : ¬Obligations.PowerStatesAndDomains := by
  rintro ⟨-, hdrain, -⟩
  obtain ⟨t, hexec, -, hempty, -⟩ := hdrain sendingAtDrainEnd endingDrain rfl rfl rfl rfl (Nat.zero_le _)
  rw [exec_quietDrainEnd (x := endingDrain) rfl rfl rfl (Nat.zero_le _)] at hexec
  injection hexec with ht
  have hback : t.fabric.eq = [sentCopy] := by rw [← ht, State.drainEnd_fabric rfl]; exact sendingAtDrainEnd_unsent
  rw [hempty] at hback
  cases hback

end Sys2Proof.Machine
end

section
/-!
The boot of the main domain (spec/03 R82 to R84). After the images of the slot that boots have been installed, the later steps of stages 3 to 5
leave what shows of that slot, and the release, alone: `BootKeeps`, with one lemma for each step. At stage 5 the domain joins the beat.
-/
namespace Sys2Proof.Machine
open Sys2Proof

/-! ### What a boot keeps once its images are installed -/

/-- `t` shows the release, the running images and their slot as `s` does. -/
structure BootKeeps (s t : State) : Prop where
  mainReset : t.power.mainReset = s.power.mainReset
  releaseTick : t.power.releaseTick = s.power.releaseTick
  running : t.sec.running = s.sec.running
  slotB : t.sec.slotB = s.sec.slotB
  fallback : t.fld F.globalBoot_SLOT_FALLBACK = s.fld F.globalBoot_SLOT_FALLBACK

namespace BootKeeps

variable {s t u : State}

theorem refl : BootKeeps s s := ⟨rfl, rfl, rfl, rfl, rfl⟩

theorem trans (h : BootKeeps s t) (k : BootKeeps t u) : BootKeeps s u :=
  ⟨k.mainReset.trans h.mainReset, k.releaseTick.trans h.releaseTick, k.running.trans h.running, k.slotB.trans h.slotB,
    k.fallback.trans h.fallback⟩

/-- An operation whose frame holds neither the power sequence's state nor the boot flash's. -/
theorem kept {L : List Part} (k : Kept L t u) (hp : L.contains .power = false) (hs : L.contains .sec = false) (hk : L.contains .keys = false)
    (hf : u.fld F.globalBoot_SLOT_FALLBACK = t.fld F.globalBoot_SLOT_FALLBACK) (h : BootKeeps s t) : BootKeeps s u :=
  h.trans ⟨by rw [k.power_eq hp], by rw [k.power_eq hp], by rw [k.sec_eq hs hk], by rw [k.sec_eq hs hk], hf⟩

/-- An operation that also leaves GLOBAL_BOOT out of the registers it writes. -/
theorem of_frame {L : List Part} {R : List Nat} (k : Kept L s t) (w : Writes R s t) (hp : L.contains .power = false)
    (hs : L.contains .sec = false) (hk : L.contains .keys = false) (hr : isApart R Reg.globalBoot = true) : BootKeeps s t :=
  .kept k hp hs hk (w.fld (isApart_at hr)) .refl

theorem setF {f : Fld} {v : Nat} (hf : f.sep F.globalBoot_SLOT_FALLBACK = true) (h : BootKeeps s t) : BootKeeps s (t.setF f v) :=
  .kept State.setF_kept rfl rfl rfl (State.fld_setF_sep _ _ hf) h

theorem modPower {f : PowerSt → PowerSt} (hr : (f t.power).mainReset = t.power.mainReset)
    (ht : (f t.power).releaseTick = t.power.releaseTick) (h : BootKeeps s t) : BootKeeps s (t.modPower f) :=
  h.trans ⟨hr, ht, rfl, rfl, rfl⟩

theorem each {α : Type} {f : State → α → State} (g : ∀ v a, BootKeeps v (f v a)) {l : List α} (h : BootKeeps s t) :
    BootKeeps s (t.each l f) := by
  induction l generalizing t with
  | nil => exact h
  | cons a l ih => exact ih (h.trans (g t a))

theorem when {c : Bool} {f : State → State} (g : ∀ v, BootKeeps v (f v)) (h : BootKeeps s t) : BootKeeps s (t.when c f) := by
  unfold State.when
  split
  · exact h.trans (g t)
  · exact h

end BootKeeps

/-- No setting of a profile reaches GLOBAL_BOOT, which has no bit of type RW. -/
theorem Setting.reach_globalBoot {t : Setting} (h : t.addr = Reg.globalBoot) (a b : Bool) : t.reach a b = 0#32 := by
  have hrw : rwMask Reg.globalBoot = 0#32 := by decide
  unfold Setting.reach
  split
  · rfl
  · rw [h, hrw, BitVec.and_zero, BitVec.zero_and]

theorem State.settle_globalBoot (s : State) (sel : Nat → Bool) (l : List Setting) (a b : Bool) {f : Fld} (hf : f.addr = Reg.globalBoot) :
    (s.settle sel l a b).fld f = s.fld f := by
  refine State.each_fld (fun u t => ?_) _ _
  by_cases h : t.addr = Reg.globalBoot
  · rw [State.fld, hf, ← h, State.reg_setReg_same, State.settingWord, Setting.reach_globalBoot h, State.fld, hf, h,
      BitVec.and_zero, BitVec.or_zero, BitVec.not_zero, BitVec.and_allOnes]
  · rw [State.fld, hf, State.reg_setReg_other _ _ (Ne.symm h), State.fld, hf]

theorem State.saRestore_bootKeeps {s : State} (n : Nat) : BootKeeps s (s.saRestore n) :=
  .of_frame State.saRestore_kept State.saRestore_writes rfl rfl rfl rfl

theorem State.genBoot_bootKeeps {s : State} (k : Nat) (l : List ProfGen) : BootKeeps s (s.genBoot k l) :=
  .of_frame State.genBoot_kept State.genBoot_writes rfl rfl rfl rfl

theorem State.bootSettings_bootKeeps {s : State} (idx : Nat) (p : Option Profile) : BootKeeps s (s.bootSettings idx p) := by
  unfold State.bootSettings
  split
  · exact .modPower rfl rfl (.setF rfl .refl)
  · extract_lets a u v w x e y
    have hu : BootKeeps s u := .kept State.settle_kept rfl rfl rfl (s.settle_globalBoot _ _ _ _ rfl) .refl
    have hv : BootKeeps s v := .each (fun _ k => State.genBoot_bootKeeps k _) hu
    have hw : BootKeeps s w := .setF rfl (.modPower rfl rfl hv)
    have hx : BootKeeps s x := .when (fun _ => .setF rfl .refl) hw
    have hy : BootKeeps s y := .when (fun _ => .setF rfl .refl) hx
    exact .each (fun _ n => State.saRestore_bootKeeps n) hy

theorem State.migrate_bootKeeps {s : State} : BootKeeps s s.migrate := by
  have hpower : s.migrate.power = s.power := State.migrate_kept.power_eq rfl
  have hsec : s.migrate.sec.running = s.sec.running ∧ s.migrate.sec.slotB = s.sec.slotB := by
    unfold State.migrate
    split
    · split
      · extract_lets u
        rw [State.raise_kept.sec_eq rfl rfl]
        exact ⟨rfl, rfl⟩
      · exact ⟨rfl, rfl⟩
    · exact ⟨rfl, rfl⟩
  obtain ⟨hrunning, hslot⟩ := hsec
  exact ⟨by rw [hpower], by rw [hpower], hrunning, hslot, State.migrate_writes.fld (isApart_at rfl)⟩

/-- Of the power sequence's state, a mark of the watchdogs changes the system watchdog's. -/
theorem State.dogMark_power (s : State) : ∃ dog, s.dogMark.power = { s.power with dog := dog } :=
  ⟨_, (State.each_kept (L := [.cores]) (fun _ _ k => .step State.modCore_kept rfl k) .refl).power_eq rfl⟩

theorem State.setCoreState_bootKeeps {s : State} (c v : Nat) : BootKeeps s (s.setCoreState c v) := by
  obtain ⟨dog, hdog⟩ := s.dogMark_power
  have hpower : (s.setCoreState c v).power = { s.power with dog := dog } := (State.setF_power _ _ _).trans hdog
  have hsec : (s.setCoreState c v).sec = s.sec := State.setCoreState_kept.sec_eq rfl rfl
  exact ⟨by rw [hpower], by rw [hpower], by rw [hsec], by rw [hsec], State.setCoreState_writes.fld (isApart_at rfl)⟩

theorem State.modCore_bootKeeps {s : State} {c : Nat} {f : CoreSt → CoreSt} : BootKeeps s (s.modCore c f) :=
  .kept State.modCore_kept rfl rfl rfl rfl .refl

theorem State.coreStart_bootKeeps {s : State} (c : Nat) : BootKeeps s (s.coreStart c) := by
  unfold State.coreStart
  split
  · exact (State.setCoreState_bootKeeps c 1).trans State.modCore_bootKeeps
  · exact State.setCoreState_bootKeeps c 0

theorem State.bootBanks_bootKeeps {s : State} : BootKeeps s s.bootBanks :=
  .of_frame State.bootBanks_kept State.bootBanks_writes rfl rfl rfl rfl

theorem State.bootPair_bootKeeps {s : State} : BootKeeps s s.bootPair :=
  .of_frame State.bootPair_kept State.bootPair_writes rfl rfl rfl rfl

/-! ### Stages 3 to 5 and stage 15 -/

theorem State.bootImages_power {s : State} {d : Directory} {x : Bool} {l : List Image} {ps : List Profile} :
    (s.bootImages d x l ps).power = s.power := State.bootImages_kept.power_eq rfl

theorem State.bootImages_sec {s : State} {d : Directory} {x : Bool} {l : List Image} {ps : List Profile} :
    (s.bootImages d x l ps).sec =
      { s.sec with running := l, active := l, slotB := x, area := d.area, dirSeq := d.seq, profiles := ps } := by
  unfold State.bootImages
  extract_lets u v w y
  have hv : Kept [.regs] u v := State.each_kept (fun _ _ k => .step State.setReg_kept rfl k) .refl
  have hw : Kept [.regs] u w := by
    unfold w
    split
    · exact State.each_kept (fun _ _ k => .step State.setF_kept rfl k) hv
    · exact hv
  have hy : Kept [.regs] u y := .step State.setF_kept rfl (.step State.setF_kept rfl hw)
  exact (Kept.step State.setF_kept rfl hy).sec_eq rfl rfl

theorem State.bootImages_fallback {s : State} {d : Directory} {x : Bool} {l : List Image} {ps : List Profile} :
    (s.bootImages d x l ps).fld F.globalBoot_SLOT_FALLBACK = s.fld F.globalBoot_SLOT_FALLBACK := by
  unfold State.bootImages
  extract_lets u v w y
  have hv : v.fld F.globalBoot_SLOT_FALLBACK = u.fld F.globalBoot_SLOT_FALLBACK :=
    State.each_fld (fun _ _ => Writes.fld (R := [Reg.updCompRun 0]) (.setReg (Reg.updCompRun_at rfl) .refl) (isApart_at rfl)) _ _
  have hw : w.fld F.globalBoot_SLOT_FALLBACK = v.fld F.globalBoot_SLOT_FALLBACK := by
    unfold w
    split
    · exact State.each_fld (fun _ _ => Writes.fld (R := [Reg.laneGrp 0]) (.setF (Reg.laneGrp_at rfl) .refl) (isApart_at rfl)) _ _
    · rfl
  have hy : y.fld F.globalBoot_SLOT_FALLBACK = w.fld F.globalBoot_SLOT_FALLBACK :=
    (State.fld_setF_sep _ _ rfl).trans (State.fld_setF_sep _ _ rfl)
  exact (State.fld_setF_sep _ _ rfl).trans (hy.trans (hw.trans hv))

theorem State.bootRun_bootKeeps {s : State} (b : BootInput) (d : Directory) (x : Bool) (idx : Nat) :
    BootKeeps (s.bootImages d x (s.slotImages b x) b.profiles) (s.bootRun b d x idx) := by
  unfold State.bootRun
  extract_lets u p v w y
  have hv : BootKeeps u v := .when (fun _ => State.migrate_bootKeeps) .refl
  have hw : BootKeeps u w := .modPower rfl rfl (hv.trans (State.bootSettings_bootKeeps idx p))
  have hy : BootKeeps u y := .each (fun _ c => State.coreStart_bootKeeps c)
    (hw.trans (State.bootBanks_bootKeeps.trans State.bootPair_bootKeeps))
  exact .setF rfl hy

theorem State.bootRun_stage {s : State} {b : BootInput} {d : Directory} {x : Bool} {idx : Nat} :
    (s.bootRun b d x idx).fld F.globalBoot_STAGE = 5 := State.fld_setF_of_lt _ (by decide) (by decide)

theorem State.recover_bootKeeps {s : State} : BootKeeps s s.recover :=
  have hstage : BootKeeps s (s.setF F.globalBoot_STAGE 15) := .setF rfl .refl
  .modPower rfl rfl (hstage.trans (State.coreStart_bootKeeps 5))

theorem State.recover_stage {s : State} : s.recover.fld F.globalBoot_STAGE = 15 := by
  rw [State.recover, State.modPower_fld, State.coreStart_writes.fld (isApart_at rfl)]
  exact State.fld_setF_of_lt _ (by decide) (by decide)

/-! ### The release of the main reset -/

theorem State.slotImages_congr {s t : State} (h : t.sec = s.sec) (b : BootInput) (x : Bool) : t.slotImages b x = s.slotImages b x := by
  have hread : t.imageRead = s.imageRead := by
    funext l
    simp only [State.imageRead, State.keyHash, h]
  rw [State.slotImages, hread, State.slotImages]

/-- Which slot boots rests on the boot flash's state and the registers of keys and security versions. -/
theorem State.bootSlot_congr {s t : State} (hsec : t.sec = s.sec) (hkeys : t.reg Reg.updKeys = s.reg Reg.updKeys)
    (hsvn : ∀ k, t.reg (Reg.updSvn k) = s.reg (Reg.updSvn k)) (d : Directory) (b : BootInput) : t.bootSlot d b = s.bootSlot d b := by
  have hauth : t.authentic = s.authentic := by
    funext i
    simp only [State.authentic, State.fld, F.updKeys_REVOKED, F.updKeys_CUST_PROG, F.updKeys_CUST_REVOKED, hkeys]
  have hroll : t.rollback = s.rollback := by
    funext i
    have hcount : t.fld (F.updSvn_COUNT i.comp) = s.fld (F.updSvn_COUNT i.comp) := congrArg (F.updSvn_COUNT i.comp).of (hsvn i.comp)
    rw [State.rollback, hcount, hsec, State.rollback]
  have hslot : t.slotOk' = s.slotOk' := by
    funext l
    rw [State.slotOk', hauth, hroll, State.slotOk']
  simp only [State.bootSlot, hslot, State.slotImages_congr hsec]

/-- The main domain is out of reset and the ROM begins: the pins of the profile have been taken, the override is spent. -/
def State.released (s : State) (b : BootInput) : State :=
  ((s.modPower fun x => { x with
    mainReset := false, armed := false, releaseTick := s.time.tick, causeAtBoot := s.reg Reg.globalResetCause }).coresFrom.setF
      F.globalProfile_PINS b.sel.val).setF F.globalProfile_OVR_EN 0

/-- The ROM has noted in SLOT_FALLBACK how it chose the slot. -/
def State.chosen (s : State) (b : BootInput) (fallback : Nat) : State := (s.released b).setF F.globalBoot_SLOT_FALLBACK fallback

/-- MAIN_RESET_RELEASE ends at stage 15 without a directory or a slot that passes, else with the slot that boots. -/
theorem exec_mainResetRelease {s : State} {b : BootInput} (haon : s.power.aon = true) (hlock : s.power.pllLocked = true)
    (hreset : s.power.mainReset = true) (harmed : s.power.armed = true) (hen : s.power.mainPwrEn = true) (htherm : s.power.therm = false) :
    ∃ t, exec (.mainResetRelease b) s = .next t ∧
      (bootDir b = none → t = (s.released b).recover) ∧
      ∀ d, bootDir b = some d →
        ((s.released b).bootSlot d b = none → t = (s.chosen b 1).recover) ∧
        ∀ x, (s.released b).bootSlot d b = some x →
          ∃ idx, t = (s.chosen b (bit (x != d.slotB))).bootRun b d x idx := by
  have hguard : (s.power.aon && s.power.pllLocked && s.power.mainReset && s.power.armed && s.power.mainPwrEn && !s.power.therm) = true := by
    simp [haon, hlock, hreset, harmed, hen, htherm]
  show ∃ t, execMainResetRelease b s = .next t ∧ _
  unfold execMainResetRelease
  rw [if_pos hguard]
  extract_lets u v idx w
  split
  case h_1 hdir => exact ⟨_, rfl, fun _ => rfl, fun d hd => absurd (hdir.symm.trans hd) nofun⟩
  case h_2 d hdir =>
    refine ⟨_, rfl, fun hnone => absurd (hdir.symm.trans hnone) nofun, fun d' hd' => ?_⟩
    obtain rfl : d = d' := Option.some.inj (hdir.symm.trans hd')
    split
    case h_1 hslot => exact ⟨fun _ => rfl, fun x hx => absurd (hslot.symm.trans hx) nofun⟩
    case h_2 x hslot =>
      refine ⟨fun hnone => absurd (hslot.symm.trans hnone) nofun, fun y hy => ⟨idx, ?_⟩⟩
      obtain rfl : x = y := Option.some.inj (hslot.symm.trans hy)
      rfl

theorem State.released_power {s : State} {b : BootInput} : (s.released b).power = { s.power with
    mainReset := false, armed := false, releaseTick := s.time.tick, causeAtBoot := s.reg Reg.globalResetCause } := by
  rw [State.released, State.setF_power, State.setF_power, State.coresFrom_kept.power_eq rfl, State.modPower_power]

theorem State.released_sec {s : State} {b : BootInput} : (s.released b).sec = s.sec := by
  rw [State.released, State.setF_kept.sec_eq rfl rfl, State.setF_kept.sec_eq rfl rfl, State.coresFrom_kept.sec_eq rfl rfl,
    State.modPower_kept.sec_eq rfl rfl]

theorem State.released_reg {s : State} {b : BootInput} {a : Nat} (h : a ≠ Reg.globalProfile) : (s.released b).reg a = s.reg a := by
  rw [State.released, State.reg_setF_other _ _ h, State.reg_setF_other _ _ h]
  exact (Writes.kept (R := []) State.coresFrom_kept rfl .refl).same a nofun

theorem Reg.updSvn_ne_globalProfile (k : Nat) : Reg.updSvn k ≠ Reg.globalProfile := by
  unfold Reg.updSvn RegMap.at1 RegMap.nowhere Reg.globalProfile
  split <;> omega

/-- The slot that boots, and its images, are those that the state before the release names. -/
theorem State.released_bootSlot {s : State} {b : BootInput} (d : Directory) : (s.released b).bootSlot d b = s.bootSlot d b :=
  State.bootSlot_congr State.released_sec (State.released_reg (by decide))
    (fun k => State.released_reg (Reg.updSvn_ne_globalProfile k)) d b

/-- What keeps the release shows the domain out of reset, from this tick on. -/
theorem BootKeeps.shows_release {s u t : State} {b : BootInput} (h : BootKeeps u t) (hu : u.power = (s.released b).power) :
    t.power.mainReset = false ∧ t.power.releaseTick = s.time.tick :=
  ⟨by rw [h.mainReset, hu, State.released_power], by rw [h.releaseTick, hu, State.released_power]⟩

theorem State.chosen_power {s : State} {b : BootInput} {n : Nat} : (s.chosen b n).power = (s.released b).power := State.setF_power _ _ _

theorem State.chosen_sec {s : State} {b : BootInput} {n : Nat} : (s.chosen b n).sec = s.sec :=
  (State.setF_kept.sec_eq rfl rfl).trans State.released_sec

theorem State.chosen_fallback {s : State} {b : BootInput} {n : Nat} (h : n < 2) : (s.chosen b n).fld F.globalBoot_SLOT_FALLBACK = n :=
  State.fld_setF_of_lt _ (by decide) h

theorem bit_lt_two (c : Bool) : bit c < 2 := by cases c <;> decide

/-- What shows where a slot boots. -/
theorem State.bootRun_shows (s : State) (b : BootInput) (d : Directory) (x : Bool) (idx : Nat) :
    (s.bootRun b d x idx).sec.running = s.slotImages b x ∧ (s.bootRun b d x idx).sec.slotB = x ∧
      (s.bootRun b d x idx).fld F.globalBoot_SLOT_FALLBACK = s.fld F.globalBoot_SLOT_FALLBACK := by
  have h : BootKeeps (s.bootImages d x (s.slotImages b x) b.profiles) (s.bootRun b d x idx) := State.bootRun_bootKeeps b d x idx
  exact ⟨by rw [h.running, State.bootImages_sec], by rw [h.slotB, State.bootImages_sec], h.fallback.trans State.bootImages_fallback⟩

/-! ### Stage 6 -/

/-- What the boot shows once the domain has joined the beat. -/
theorem State.bootDone_shows (s : State) : s.bootDone.fld F.globalBoot_STAGE = 6 ∧ s.bootDone.fld F.globalBoot_DONE = 1 ∧
    s.bootDone.fld F.globalBoot_BOOT_MS = min 32767 (ticksMs (s.time.tick - s.power.releaseTick)) := by
  unfold State.bootDone
  extract_lets n bad u
  have hraise {f : Fld} (hf : f.addr = Reg.globalBoot) {c m : Nat} {l : List (Nat × Nat × Nat)} : (u.raise c m l).fld f = u.fld f :=
    State.raise_writes.fld (hf ▸ isApart_at rfl)
  rw [hraise rfl, hraise rfl, hraise rfl]
  refine ⟨?stage, ?done, ?ms⟩
  case stage =>
    rw [State.fld_setF_sep _ _ rfl, State.fld_setF_sep _ _ rfl]
    exact State.fld_setF_of_lt _ (by decide) (by decide)
  case done =>
    rw [State.fld_setF_sep _ _ rfl]
    exact State.fld_setF_of_lt _ (by decide) (by decide)
  case ms =>
    have hfits : sat 32767 (ticksMs n) < 2 ^ 15 := by rw [sat_eq_min]; omega
    exact (State.fld_setF_of_lt _ (by decide) hfits).trans (sat_eq_min _ _)

/-- What follows BOOT_DONE at the boundary writes neither GLOBAL_BOOT nor the power sequence's state. -/
theorem State.afterBootDone_power (s : State) : (s.owedEvents.beatFetch.each (List.range 8) State.beatInt).power = s.power :=
  (State.each_kept (L := [.regs, .host, .cores, .sec, .freeCtr]) (fun _ _ k => .step State.beatInt_kept rfl k)
    (.step State.beatFetch_kept rfl State.owedEvents_kept)).power_eq rfl

theorem State.afterBootDone_fld (s : State) {f : Fld} (hf : f.addr = Reg.globalBoot) :
    (s.owedEvents.beatFetch.each (List.range 8) State.beatInt).fld f = s.fld f := by
  have hint : ∀ (u : State) (c : Nat), (u.beatInt c).fld f = u.fld f := fun _ _ => State.beatInt_writes.fld (hf ▸ isApart_at rfl)
  rw [State.each_fld hint, State.beatFetch_writes.fld (hf ▸ isApart_at rfl), State.owedEvents_writes.fld (hf ▸ isApart_at rfl)]

/-- The beat count starts anew as the main domain joins the beat, and its blocks take up their configuration. -/
def State.joinedBlocks (s : State) : State :=
  ((s.modPower fun x => { x with joined := true }).modTime fun x => { x with beatCount := 0 }).joinBlocks

theorem exec_joinBeat {s : State} (hup : s.up = true) (hjoined : s.power.joined = false) (hstage : s.fld F.globalBoot_STAGE = 5) :
    exec .joinBeat s = .next (s.joinedBlocks.bootDone.owedEvents.beatFetch.each (List.range 8) State.beatInt) := by
  show execJoinBeat s = _
  simp only [execJoinBeat, hup, hjoined, hstage, Bool.not_false, Bool.and_self, BEq.rfl, if_true]
  rfl

theorem State.joinedBlocks_power (s : State) : s.joinedBlocks.power = { s.power with joined := true } :=
  State.joinBlocks_kept.power_eq rfl

theorem State.joinedBlocks_tick (s : State) : s.joinedBlocks.time.tick = s.time.tick := by
  rw [State.joinedBlocks, State.joinBlocks_kept.time_eq rfl rfl]
  rfl

/-- Settles O26: each step after the images of the slot leaves what shows of it, `BootKeeps`; at the boundary what follows BOOT_DONE leaves
GLOBAL_BOOT. -/
theorem boot : Obligations.Boot := by
  refine ⟨fun s b haon hlock hreset harmed hen htherm => ?release, fun s hup hjoined hstage => ?join⟩
  case release =>
    obtain ⟨t, hexec, hnodir, hdir⟩ := exec_mainResetRelease (b := b) haon hlock hreset harmed hen htherm
    refine ⟨t, hexec, ?_⟩
    cases hd : bootDir b with
    | none =>
      obtain rfl := hnodir hd
      obtain ⟨hout, htick⟩ := (State.recover_bootKeeps (s := s.released b)).shows_release rfl
      exact ⟨hout, htick, fun _ => State.recover_stage, nofun⟩
    | some d =>
      obtain ⟨hnoslot, hslot⟩ := hdir d hd
      rw [State.released_bootSlot] at hnoslot hslot
      cases hx : s.bootSlot d b with
      | none =>
        obtain rfl := hnoslot hx
        have hkeep : BootKeeps (s.chosen b 1) (s.chosen b 1).recover := State.recover_bootKeeps
        obtain ⟨hout, htick⟩ := hkeep.shows_release State.chosen_power
        refine ⟨hout, htick, nofun, fun e he => ?_⟩
        obtain rfl := Option.some.inj he
        rw [hx]
        exact ⟨State.recover_stage, hkeep.fallback.trans (State.chosen_fallback (by decide))⟩
      | some x =>
        obtain ⟨idx, rfl⟩ := hslot x hx
        have hkeep := State.bootRun_bootKeeps (s := s.chosen b (bit (x != d.slotB))) b d x idx
        obtain ⟨hout, htick⟩ := hkeep.shows_release (State.bootImages_power.trans State.chosen_power)
        obtain ⟨hrun, hside, hfallback⟩ := (s.chosen b (bit (x != d.slotB))).bootRun_shows b d x idx
        refine ⟨hout, htick, nofun, fun e he => ?_⟩
        obtain rfl := Option.some.inj he
        rw [hx]
        exact ⟨State.bootRun_stage, hrun.trans (State.slotImages_congr State.chosen_sec b x), hside,
          hfallback.trans (State.chosen_fallback (bit_lt_two _))⟩
  case join =>
    refine ⟨_, exec_joinBeat hup hjoined hstage, ?_⟩
    obtain ⟨hsix, hdone, hms⟩ := s.joinedBlocks.bootDone_shows
    rw [State.afterBootDone_fld _ rfl, State.afterBootDone_fld _ rfl, State.afterBootDone_fld _ rfl, State.afterBootDone_power,
      State.bootDone_kept.power_eq rfl, hsix, hdone, hms, State.joinedBlocks_power, State.joinedBlocks_tick]
    exact ⟨rfl, rfl, rfl, rfl⟩

end Sys2Proof.Machine
end

section
/-!
Ports (spec/05 R153 to R165): the counters of a port, what counting leaves alone, and received and sent pause.
-/
namespace Sys2Proof.Machine
open Sys2Proof

/-! ### Counters of a port (spec/05 R165) -/

theorem portCntLo_ne (n : Fin 128) {k : Nat} (hk : k < 64) {m j : Nat} (h : k ≠ j) : Reg.portCntLo n k ≠ Reg.portCntLo m j := by
  have hn := n.isLt
  unfold Reg.portCntLo RegMap.at2 RegMap.nowhere
  split <;> split <;> omega

@[simp] theorem State.portCnt_countPort_same (s : State) (n k d : Nat) : (s.countPort n k d).portCnt n k = (s.portCnt n k + d) % 2 ^ 64 :=
  Tab.get_put_same ..

theorem State.portCnt_countPort_other (s : State) (n : Fin 128) {k : Nat} (hk : k < 64) {m j : Nat} (h : k ≠ j) (d : Nat) :
    (s.countPort m j d).portCnt n k = s.portCnt n k := Tab.get_put_other _ _ _ (portCntLo_ne n hk h)

theorem State.portCnt_of_ctr {s t : State} (h : t.ctr = s.ctr) (n k : Nat) : t.portCnt n k = s.portCnt n k := by
  simp only [State.portCnt, h]

theorem Kept.portCnt {L : List Part} {s t : State} (k : Kept L s t) (h : L.contains .ctr = false) (n j : Nat) :
    t.portCnt n j = s.portCnt n j := State.portCnt_of_ctr (k.same .ctr h) n j

theorem Kept.mac {L : List Part} {s t : State} (k : Kept L s t) (h : L.contains .ports = false) (n : Nat) : t.mac n = s.mac n := by
  have hports : t.ports = s.ports := k.same .ports h
  simp only [State.mac, hports]

@[simp] theorem State.countStamp_portCnt (s : State) (m dir n k : Nat) : (s.countStamp m dir).portCnt n k = s.portCnt n k := rfl
@[simp] theorem State.countPort_fld (s : State) (m j d : Nat) (f : Fld) : (s.countPort m j d).fld f = s.fld f := rfl
@[simp] theorem State.countPort_line (s : State) (m j d : Nat) : (s.countPort m j d).line = s.line := rfl

theorem State.countGood_portCnt (s : State) (n : Fin 128) (len cast : Nat) :
    (s.countGood n len cast).portCnt n 0 = (s.portCnt n 0 + len) % 2 ^ 64 ∧ (s.countGood n len cast).portCnt n 1 = (s.portCnt n 1 + 1) % 2 ^ 64 := by
  constructor <;> simp (disch := omega) only [State.countGood, State.portCnt_countPort_other, State.portCnt_countPort_same]

/-! ### What counting leaves alone -/

/-- On the way from `s` to `t` errors, frames and stamps of lanes have been counted, and nothing else that decides how a frame is received. -/
structure Counted (s t : State) : Prop where
  regs : Writes [Reg.laneErrCnt 0 0, Reg.iuEdges 0] s t
  quar : ∀ m, (t.lane m).quarCfg = (s.lane m).quarCfg
  path : t.cal.path = s.cal.path
  time : t.time = s.time
  power : t.power = s.power
  ports : t.ports = s.ports
  fabric : t.fabric = s.fabric

namespace Counted

variable {s t u : State}

theorem refl : Counted s s := ⟨.refl, fun _ => rfl, rfl, rfl, rfl, rfl, rfl⟩

theorem trans (h : Counted s t) (k : Counted t u) : Counted s u :=
  ⟨h.regs.trans k.regs, fun m => (k.quar m).trans (h.quar m), k.path.trans h.path, k.time.trans h.time, k.power.trans h.power,
    k.ports.trans h.ports, k.fabric.trans h.fabric⟩

theorem countPort (h : Counted s t) (n k d : Nat) : Counted s (t.countPort n k d) :=
  ⟨h.regs.kept State.countPort_kept rfl, h.quar, h.path, h.time, h.power, h.ports, h.fabric⟩

theorem countStamp (h : Counted s t) (n dir : Nat) : Counted s (t.countStamp n dir) :=
  ⟨h.regs.trans (State.countStamp_writes.step rfl .refl), h.quar, h.path, h.time, h.power, h.ports, h.fabric⟩

theorem countGood (h : Counted s t) (n len cast : Nat) : Counted s (t.countGood n len cast) :=
  ((((h.countPort _ _ _).countPort _ _ _).countPort _ _ _).countPort _ _ _).countPort _ _ _

/-- The counting registers of lanes stand at 0x40 to 0x60 of their lane's 0x2000 bytes, those of the stamp units in another block. -/
theorem reg_range {a : Nat} (h : AtReg [Reg.laneErrCnt 0 0, Reg.iuEdges 0] a) :
    (0x800000 ≤ a ∧ a < 0x900000 ∧ 0x40 ≤ a % 0x2000 ∧ a % 0x2000 ≤ 0x60) ∨ 0x3002000 ≤ a := by
  obtain ⟨b, hb, i, j, rfl⟩ := h
  have hrow : b = Reg.laneErrCnt 0 0 ∨ b = Reg.iuEdges 0 := by simpa using hb
  rcases hrow with rfl | rfl
  · have haddr : RegMap.addr (Reg.laneErrCnt 0 0) i j = RegMap.at2 0x800040 128 0x2000 9 0x4 i j := rfl
    rw [haddr, RegMap.at2, RegMap.nowhere]
    split <;> omega
  · have haddr : RegMap.addr (Reg.iuEdges 0) i j = RegMap.at1 0x3002000 160 0x10 i := rfl
    rw [haddr, RegMap.at1, RegMap.nowhere]
    split <;> omega

/-- A register of the ports' block is not one that counts. -/
theorem portReg (h : Counted s t) {a : Nat} (hlo : 0xC00000 ≤ a) (hhi : a < 0x1000000) : t.reg a = s.reg a :=
  h.regs.same a fun hat => by
    have := reg_range hat
    omega

theorem cfgWord (h : Counted s t) (n : Fin 128) : t.cfgWord n = s.cfgWord n := by
  have hreg : t.reg (Reg.laneCfg n) = s.reg (Reg.laneCfg n) := h.regs.same _ (rowsApart_at rfl n.isLt rfl)
  simp only [State.cfgWord, h.quar, hreg]

theorem grpWord (h : Counted s t) (n : Fin 128) : t.grpWord n = s.grpWord n := by
  have haddr : Reg.laneGrp (n.val / 4) = 0x801000 + 0x8000 * (n.val / 4) := if_pos (by omega)
  have hreg : t.reg (Reg.laneGrp (n.val / 4)) = s.reg (Reg.laneGrp (n.val / 4)) := h.regs.same _ fun hat => by
    have := reg_range hat
    omega
  simp only [State.grpWord, h.quar, hreg]

theorem isKl (h : Counted s t) (n : Fin 128) : t.isKl n = s.isKl n := by simp only [State.isKl, h.cfgWord]
theorem width (h : Counted s t) (n : Fin 128) : t.width n = s.width n := by simp only [State.width, h.cfgWord]
theorem fec (h : Counted s t) (n : Fin 128) : t.fec n = s.fec n := by simp only [State.fec, h.cfgWord]
theorem rateCode (h : Counted s t) (n : Fin 128) : t.rateCode n = s.rateCode n := by simp only [State.rateCode, h.grpWord]
theorem macRate (h : Counted s t) (n : Fin 128) : t.macRate n = s.macRate n := by simp only [State.macRate, h.rateCode, h.width]

theorem link (h : Counted s t) (n : Fin 128) : t.link n = s.link n := h.regs.fld (rowsApart_at rfl n.isLt rfl)
theorem portUp (h : Counted s t) (n : Fin 128) : t.portUp n = s.portUp n := by simp only [State.portUp, h.link]
theorem quiet (h : Counted s t) : t.quiet = s.quiet := by simp only [State.quiet, h.power]
theorem mac (h : Counted s t) (n : Nat) : t.mac n = s.mac n := by simp only [State.mac, h.ports]

theorem portCfg_fld (h : Counted s t) (n : Fin 128) {f : Fld} (hf : f.addr = Reg.portCfg n) : t.fld f = s.fld f :=
  h.regs.fld (hf ▸ rowsApart_at rfl n.isLt rfl)

theorem pauseMode (h : Counted s t) (n : Fin 128) : t.pauseMode n = s.pauseMode n := congrArg (· % 3) (h.portCfg_fld n rfl)

end Counted

/-! ### What shows of received pause (spec/05 R161, R177) -/

/-- Showing what is stopped keeps the pause of every priority. -/
theorem State.showPause_mac (s : State) (n : Nat) : ∃ x, (s.showPause n).mac n = { s.mac n with stopFrom := x } := by
  unfold State.showPause
  extract_lets m act cls u
  split
  · exact ⟨_, State.mac_modMac ..⟩
  · split
    · exact ⟨_, State.mac_modMac ..⟩
    · exact ⟨m.stopFrom, rfl⟩

@[simp] theorem State.showPause_pauseEnd (s : State) (n : Nat) : ((s.showPause n).mac n).pauseEnd = (s.mac n).pauseEnd := by
  obtain ⟨x, h⟩ := s.showPause_mac n
  rw [h]

@[simp] theorem State.showPause_ignore (s : State) (n : Nat) : ((s.showPause n).mac n).ignore = (s.mac n).ignore := by
  obtain ⟨x, h⟩ := s.showPause_mac n
  rw [h]

theorem State.showPause_portCnt (s : State) (m : Nat) (n : Fin 128) {k : Nat} (hk : k < 64) (h : k ≠ 36) :
    (s.showPause m).portCnt n k = s.portCnt n k := by
  unfold State.showPause
  extract_lets x act cls u
  split
  · rfl
  · split
    · exact u.portCnt_countPort_other n hk h _
    · rfl

theorem State.showPause_fld (s : State) (n : Nat) {f : Fld} (h : (F.portPauseStatus_RX_PAUSED n).sep f = true) :
    (s.showPause n).fld f = s.fld f := by
  unfold State.showPause
  extract_lets x act cls u
  have hu : u.fld f = s.fld f := s.fld_setF_sep _ h
  split
  · exact hu
  · split <;> exact hu

/-! ### The end of a pause (spec/05 R161, R164) -/

theorem State.endPause_mac (s : State) (n p : Nat) : (s.endPause n p).mac n =
    { s.mac n with pauseEnd := Tab.put (s.mac n).pauseEnd 0 p 0, stopTick := Tab.del p (s.mac n).stopTick } := by
  unfold State.endPause
  extract_lets u
  have hu : u.mac n = { s.mac n with pauseEnd := Tab.put (s.mac n).pauseEnd 0 p 0, stopTick := Tab.del p (s.mac n).stopTick } :=
    State.mac_modMac ..
  split
  · exact hu
  · exact hu

/-! ### A PAUSE frame is received (spec/05 R160, R161) -/

theorem State.pauseIn_of_pause {s : State} {n : Nat} {p : PauseIn} (hpfc : p.pfc = false) (hquiet : s.quiet = false) (hmode : s.pauseMode n = 1) :
    s.pauseIn n p = ((s.countPort n 5).rxPause n 0 (p.quanta.getD 0 0).toNat).showPause n := by
  have hquiet' : (s.countPort n 5).quiet = false := hquiet
  have hmode' : (s.countPort n 5).pauseMode n = 1 := hmode
  simp only [State.pauseIn, State.when, hpfc, hquiet', hmode', Bool.false_eq_true, if_false, if_true]

theorem State.rxPause_of_quanta {s : State} {n p q : Nat} (hheed : bitAt (s.mac n).ignore.toNat p = false) (hq : q ≠ 0) :
    s.rxPause n p q = s.modMac n fun m => { m with
      pauseEnd := Tab.put m.pauseEnd 0 p (s.time.tick + quantaTicks q (s.macRate n))
      stopTick := Tab.ins p (Tab.get m.stopTick s.time.tick p) m.stopTick } := by
  simp only [State.rxPause, hheed, hq, Bool.false_eq_true, if_false]

theorem exec_pauseRx {s : State} {n : Fin 128} (p : PauseIn) (hup : s.up = true) (hport : s.portUp n = true) :
    exec (.pauseRx n p) s = .next (((s.countStamp n 0).countGood n 64 1).pauseIn n p) := by
  show execPauseRx n p s = _
  simp only [execPauseRx, hup, hport, Bool.and_self, if_true]

/-- A PAUSE frame is received: its stamp and its 64 bytes are counted, and the frame by its kind. -/
def State.pauseCounted (s : State) (n : Nat) : State := ((s.countStamp n 0).countGood n 64 1).countPort n 5

theorem State.pauseCounted_portCnt (s : State) (n : Fin 128) : (s.pauseCounted n).portCnt n 5 = (s.portCnt n 5 + 1) % 2 ^ 64 ∧
    (s.pauseCounted n).portCnt n 1 = (s.portCnt n 1 + 1) % 2 ^ 64 ∧ (s.pauseCounted n).portCnt n 19 = (s.portCnt n 19 + 64) % 2 ^ 64 := by
  have hbin : lenBin 64 = 0 := rfl
  refine ⟨?_, ?_, ?_⟩ <;> simp (disch := omega) only [State.pauseCounted, State.countGood, hbin, State.portCnt_countPort_other,
    State.portCnt_countPort_same, State.countStamp_portCnt]

/-- What a PAUSE frame that the port heeds leaves of its timer and counters. -/
theorem State.pauseIn_shows {s : State} {n : Fin 128} {p : PauseIn} (hpfc : p.pfc = false) (hquiet : s.quiet = false) (hmode : s.pauseMode n = 1)
    (hheed : bitAt (s.mac n).ignore.toNat 0 = false) (hq : (p.quanta.getD 0 0).toNat ≠ 0) :
    Tab.get ((s.pauseIn n p).mac n).pauseEnd 0 0 = s.time.tick + quantaTicks (p.quanta.getD 0 0).toNat (s.macRate n) ∧
      ∀ k, k < 64 → k ≠ 36 → (s.pauseIn n p).portCnt n k = (s.countPort n 5).portCnt n k := by
  have hin := State.pauseIn_of_pause hpfc hquiet hmode
  rw [State.rxPause_of_quanta (s := s.countPort n 5) hheed hq] at hin
  rw [hin, State.showPause_pauseEnd, State.mac_modMac]
  exact ⟨Tab.get_put_same .., fun k hk h => State.showPause_portCnt _ n n hk h⟩

/-! ### The time runs out (spec/05 R161) -/

theorem exec_pauseExpire {s : State} {n : Fin 128} {p : Fin 8} (hruns : Tab.get (s.mac n).pauseEnd 0 p ≠ 0)
    (hover : Tab.get (s.mac n).pauseEnd 0 p ≤ s.time.tick) : exec (.pauseExpire n p) s = .next ((s.endPause n p).showPause n) := by
  show execPauseExpire n p s = _
  simp only [execPauseExpire, hruns, Nat.not_lt.2 hover, or_self, if_false]

/-! ### Storms (spec/05 R164, R173) -/

theorem idxMask_lt {n : Nat} {l : List Nat} (h : ∀ k ∈ l, k < n) : idxMask l < 2 ^ n := by
  have hfold : ∀ (l : List Nat) (a : Nat), a < 2 ^ n → (∀ k ∈ l, k < n) → l.foldl (fun a k => a ||| 2 ^ k) a < 2 ^ n := by
    intro l
    induction l with
    | nil => exact fun a ha _ => ha
    | cons k l ih =>
      intro a ha hl
      obtain ⟨hk, hl⟩ := List.forall_mem_cons.1 hl
      exact ih _ (Nat.or_lt_two_pow ha (Nat.pow_lt_pow_right (by decide) hk)) hl
  exact hfold l 0 (Nat.two_pow_pos n) h

theorem maskIdx_lt {n m k : Nat} (h : k ∈ maskIdx n m) : k < n := by
  obtain ⟨hk, -⟩ := List.mem_filter.1 h
  exact List.mem_range.1 hk

/-- The priorities of `pris` that have been stopped for the storm time and are not yet marked. -/
def State.stormHit (s : State) (n : Nat) (pris : BitVec 8) : List Nat :=
  (maskIdx 8 pris.toNat).filter fun p => !bitAt (s.fld (F.portPauseStatus_STORM n)) p &&
    (Tab.find p (s.mac n).stopTick).any fun t => decide (t + s.stormTicks n ≤ s.time.tick)

theorem State.stormHit_lt (s : State) (n : Nat) (pris : BitVec 8) : idxMask (s.stormHit n pris) < 2 ^ 8 :=
  idxMask_lt fun _ h => maskIdx_lt (List.mem_filter.1 h).1

/-- A storm of the priorities `m` has been marked, counted and reported. -/
def State.stormMarked (s : State) (n m : Nat) : State :=
  ((s.setF (F.portPauseStatus_STORM n) (s.fld (F.portPauseStatus_STORM n) ||| m)).countPort n 47).raise 0x0303 16
    ([(0, 2, n), (2, 1, m)] ++ Stamp.fields s.now 4)

/-- The received pause of the priorities `hit` is ignored from now on. -/
def State.stormIgnored (s : State) (n : Nat) (hit : List Nat) : State :=
  (s.modMac n fun x => { x with
    ignore := x.ignore ||| BitVec.ofNat 8 (idxMask hit)
    pauseEnd := hit.foldl (fun t p => Tab.put t 0 p 0) x.pauseEnd
    stopTick := hit.foldl (fun t p => Tab.del p t) x.stopTick
    pauseTick := hit.foldl (fun t p => Tab.ins p s.time.tick t) x.pauseTick }).showPause n

theorem State.stormMarked_act (s : State) (n : Fin 128) (m : Nat) : (s.stormMarked n m).flag (F.portStorm_ACT n) = s.flag (F.portStorm_ACT n) := by
  have hset : (s.setF (F.portPauseStatus_STORM n) (s.fld (F.portPauseStatus_STORM n) ||| m)).fld (F.portStorm_ACT n) =
    s.fld (F.portStorm_ACT n) := s.fld_setF_sep _ rfl
  exact (State.raise_writes.flag (rowsApart_at rfl n.isLt rfl)).trans (congrArg (· != 0) hset)

theorem State.stormMarked_mac (s : State) (n m : Nat) : (s.stormMarked n m).mac n = s.mac n := State.raise_kept.mac rfl n

theorem State.stormMarked_storm (s : State) (n : Fin 128) {m : Nat} (hm : m < 2 ^ 8) :
    (s.stormMarked n m).fld (F.portPauseStatus_STORM n) = s.fld (F.portPauseStatus_STORM n) ||| m := by
  have hold : s.fld (F.portPauseStatus_STORM n) < 2 ^ 8 := Fld.of_lt _ _
  exact (State.raise_writes.fld (rowsApart_at rfl n.isLt rfl)).trans (s.fld_setF_of_lt (show 0 + 8 ≤ 32 by decide) (Nat.or_lt_two_pow hold hm))

theorem State.stormMarked_count (s : State) (n m : Nat) : (s.stormMarked n m).portCnt n 47 = (s.portCnt n 47 + 1) % 2 ^ 64 :=
  (State.raise_kept.portCnt rfl n 47).trans (State.portCnt_countPort_same ..)

theorem exec_pauseStorm {s : State} {n : Fin 128} {pris : BitVec 8} (hup : s.up = true) (hms : s.fld (F.portStorm_MS n) ≠ 0)
    (hhit : idxMask (s.stormHit n pris) ≠ 0) : exec (.pauseStorm n pris) s =
      .next (if s.flag (F.portStorm_ACT n) then (s.stormMarked n (idxMask (s.stormHit n pris))).stormIgnored n (s.stormHit n pris)
        else s.stormMarked n (idxMask (s.stormHit n pris))) := by
  have hne : (s.stormHit n pris).isEmpty = false := by
    cases h : s.stormHit n pris with
    | nil => exact absurd (congrArg idxMask h) hhit
    | cons => rfl
  have hguard : (!s.up || s.fld (F.portStorm_MS n) == 0 || (s.stormHit n pris).isEmpty) = false := by simp [hup, hms, hne]
  rw [← s.stormMarked_act n (idxMask (s.stormHit n pris))]
  exact congrArg Host.Outcome.next (if_neg (Bool.eq_false_iff.1 hguard))

theorem exec_pauseStormEnd {s : State} {n : Fin 128} {p : Fin 8} (hignored : bitAt (s.mac n).ignore.toNat p = true)
    (hover : Tab.get (s.mac n).pauseTick 0 p + s.stormTicks n ≤ s.time.tick) : exec (.pauseStormEnd n p) s =
      .next ((s.modMac n fun x => { x with ignore := x.ignore &&& ~~~(BitVec.ofNat 8 (2 ^ p.val)) }).endPause n p) := by
  show execPauseStormEnd n p s = _
  simp only [execPauseStormEnd, hignored, hover, decide_true, Bool.and_self, if_true]

theorem bitAt_clear (v : BitVec 8) (p : Fin 8) : bitAt (v &&& ~~~(BitVec.ofNat 8 (2 ^ p.val))).toNat p = false := by
  simp only [bitAt, BitVec.testBit_toNat, BitVec.getLsbD_and, BitVec.getLsbD_not, BitVec.getLsbD_ofNat, p.isLt, Nat.testBit_two_pow_self,
    decide_true, Bool.and_self, Bool.not_true, Bool.and_false]

/-! ### Sent pause (spec/05 R162) -/

/-- A frame sent counts itself in counter 29, and in none below 28. -/
theorem State.send_portCnt (s : State) (m : Nat) (l : List Byte) (n : Fin 128) :
    (s.send n l).portCnt n 29 = (s.portCnt n 29 + 1) % 2 ^ 64 ∧ ∀ k < 28, (s.send m l).portCnt n k = s.portCnt n k := by
  have hlane (u : State) (c : Bool) (j : Nat) (f : LaneSt → LaneSt) (i : Nat) : (u.when c fun s => s.modLane j f).portCnt n i = u.portCnt n i :=
    (State.when_kept (L := [.lanes]) (.step State.modLane_kept rfl) .refl).portCnt rfl n i
  constructor
  · simp (disch := omega) only [State.send, State.portCnt_countPort_other, State.portCnt_countPort_same, hlane]
    rfl
  · intro k hk
    simp (disch := omega) only [State.send, State.portCnt_countPort_other, hlane]
    rfl

theorem State.send_line (s : State) (n : Nat) (l : List Byte) :
    (s.send n l).line = .frame n (s.lead n l) l (if s.isKl n then 0 else 12) :: s.line := by
  have hlane (u : State) (c : Bool) (f : LaneSt → LaneSt) : (u.when c fun s => s.modLane n f).line = u.line :=
    (State.when_kept (L := [.lanes]) (.step State.modLane_kept rfl) .refl).same .line rfl
  simp only [State.send, State.countPort_line, hlane]
  rfl

theorem State.sendCtrl_line (s : State) (n : Fin 128) (l : List Byte) :
    (s.sendCtrl n l).line = .frame n (s.lead n l) l (if s.isKl n then 0 else 12) :: s.line := by
  have hkl : (s.countStamp n 1).isKl n = s.isKl n := (Counted.refl.countStamp n 1).isKl n
  rw [State.sendCtrl, State.countPort_line, State.send_line, State.lead, State.lead, hkl]
  rfl

theorem State.sendCtrl_portCnt (s : State) (m : Nat) (l : List Byte) (n : Fin 128) :
    (s.sendCtrl n l).portCnt n 29 = (s.portCnt n 29 + 1) % 2 ^ 64 ∧ ∀ k < 28, (s.sendCtrl m l).portCnt n k = s.portCnt n k := by
  constructor
  · rw [State.sendCtrl, State.portCnt_countPort_other _ _ (by decide) (by split <;> decide)]
    exact ((s.countStamp n 1).send_portCnt m l n).1
  · intro k hk
    rw [State.sendCtrl, State.portCnt_countPort_other _ _ (by omega) (by split <;> omega)]
    exact ((s.countStamp m 1).send_portCnt m l n).2 k hk

/-- The XOFF frames of the priorities `enable` of port `n` leave at the present tick. -/
def State.xoffNoted (s : State) (n enable : Nat) : State :=
  s.modMac n fun m => { m with xoffTick := (maskIdx 8 enable).foldl (fun t p => Tab.put t 0 p s.time.tick) m.xoffTick }

theorem State.xoffNoted_txBusy (s : State) (n enable : Nat) : (s.xoffNoted n enable).txBusy n = s.txBusy n := by
  simp only [State.txBusy, State.sendingAt, State.xoffNoted, State.mac_modMac, State.modMac_fabric]

/-- A pause frame leaves at once, or waits for the end of the frame in progress. -/
theorem State.sendPause_of_on {s : State} {n enable : Nat} {quanta : Nat → Nat} (henable : enable ≠ 0) (hmode : s.pauseMode n ≠ 0)
    (hquiet : s.quiet = false) (hport : s.portUp n = true) : s.sendPause n enable quanta =
      if s.txBusy n then (s.xoffNoted n enable).modMac n fun m => { m with ctrl := m.ctrl ++ [s.pauseFrame n enable quanta] }
      else (s.xoffNoted n enable).sendCtrl n (s.pauseFrame n enable quanta) := by
  rw [← s.xoffNoted_txBusy n enable]
  simp only [State.sendPause, henable, hmode, hquiet, hport, Bool.not_true, Bool.false_eq_true, or_self, if_false]
  rfl

theorem exec_xoffRefresh (n : Fin 128) (s : State) : exec (.xoffRefresh n) s = .next (s.sendPause n (s.refreshDue n) fun p =>
    if bitAt (s.refreshDue n) p then s.fld (F.portPause_TX_QUANTA n) else 0) := rfl

/-! ### The station address (spec/05 R179) -/

theorem portSaHi_rw (n : Fin 128) : (F.portSaHi_ADDR_HI n).mask &&& rwMask (F.portSaHi_ADDR_HI n).addr = (F.portSaHi_ADDR_HI n).mask := by
  revert n
  decide +kernel

theorem exec_saCommit {s : State} (src : WrSrc) (n : Fin 128) (v : Word) (hup : s.up = true) : exec (.saCommit src n v) s = .next (s.saWrite n v) := by
  show execSaCommit src n v s = _
  simp only [execSaCommit, hup, if_true]

theorem State.station_saWrite {s : State} {n : Fin 128} {v : Word} (hgroup : v.getLsbD 8 = false) :
    (s.saWrite n v).station n = (F.portSaHi_ADDR_HI n).of v * 2 ^ 32 + (s.reg (Reg.portSaLo n)).toNat := by
  have hne : Reg.portSaLo n ≠ Reg.portSaHi n := by
    have hn := n.isLt
    simp only [Reg.portSaLo, Reg.portSaHi, RegMap.at1, hn, if_true]
    omega
  have hhi : (s.putRw (Reg.portSaHi n) v).fld (F.portSaHi_ADDR_HI n) = (F.portSaHi_ADDR_HI n).of v :=
    s.fld_putRw (F.portSaHi_ADDR_HI n) v (portSaHi_rw n) (by decide : (0 + 16 : Nat) ≤ 32)
  have hlo : (s.putRw (Reg.portSaHi n) v).reg (Reg.portSaLo n) = s.reg (Reg.portSaLo n) := s.reg_setReg_other _ hne
  simp only [State.station, State.saWrite, hgroup, Bool.false_eq_true, if_false, Tab.find_ins_same, hhi, hlo]

/-- Settles O12: each event does what the rule says of the timers, and no counter of the frame meets another. -/
theorem pauseRules : Obligations.PauseRules := by
  refine ⟨?receive, ?expire, ?storm, ?stormEnd, ?refresh, ?station⟩
  case receive =>
    intro s n p hup hport hpfc hquiet hmode hheed hq
    have hc : Counted s ((s.countStamp n 0).countGood n 64 1) := (Counted.refl.countStamp _ _).countGood _ _ _
    obtain ⟨hend, hcnt⟩ := State.pauseIn_shows (s := (s.countStamp n 0).countGood n 64 1) (n := n) (p := p) hpfc (hc.quiet.trans hquiet)
      ((hc.pauseMode n).trans hmode) (by rw [hc.mac]; exact hheed) hq
    rw [hc.time, hc.macRate] at hend
    obtain ⟨hpause, hgood, hbytes⟩ := s.pauseCounted_portCnt n
    exact ⟨_, exec_pauseRx p hup hport, hend, (hcnt 5 (by decide) (by decide)).trans hpause, (hcnt 1 (by decide) (by decide)).trans hgood,
      (hcnt 19 (by decide) (by decide)).trans hbytes⟩
  case expire =>
    intro s n p hruns hover
    refine ⟨_, exec_pauseExpire hruns hover, ?_⟩
    simp only [State.showPause_pauseEnd, State.endPause_mac, Tab.get_put_same]
  case storm =>
    intro s n pris m hup hms hm hne
    obtain rfl : m = idxMask (s.stormHit n pris) := hm
    refine ⟨_, exec_pauseStorm hup hms hne, ?_⟩
    have hstorm := s.stormMarked_storm n (s.stormHit_lt n pris)
    cases hact : s.flag (F.portStorm_ACT n) with
    | false => exact ⟨hstorm, fun _ => ⟨s.stormMarked_count n _, _, rfl⟩, nofun⟩
    | true =>
      refine ⟨(State.showPause_fld _ _ rfl).trans hstorm, nofun, fun _ => ?_⟩
      rw [if_pos rfl, State.stormIgnored, State.showPause_ignore, State.mac_modMac, State.stormMarked_mac]
  case stormEnd =>
    intro s n p hignored hover
    refine ⟨_, exec_pauseStormEnd hignored hover, ?_⟩
    simp only [State.endPause_mac, State.mac_modMac, bitAt_clear, Tab.get_put_same, and_self]
  case refresh =>
    intro s n l hdue hmode hquiet hport hl
    subst hl
    refine ⟨_, exec_xoffRefresh n s, ?_⟩
    rw [State.sendPause_of_on hdue hmode hquiet hport]
    cases s.txBusy n with
    | false => exact ⟨fun _ => ⟨State.sendCtrl_line _ n _, (State.sendCtrl_portCnt _ n _ n).1⟩, nofun⟩
    | true =>
      refine ⟨nofun, fun _ => ⟨rfl, ?_⟩⟩
      rw [if_pos rfl, State.mac_modMac, State.xoffNoted, State.mac_modMac]
  case station =>
    intro s src n v hup hgroup
    exact ⟨_, exec_saCommit src n v hup, State.station_saWrite hgroup⟩

end Sys2Proof.Machine
end

section
/-!
Snapshots and modules (spec/05 R167 to R173): what ends a command that waits, what a module bus holds, and the slots of the chain.
-/
namespace Sys2Proof.Machine
open Sys2Proof

/-! ### The end of a command that waits (spec/15 R470, R471) -/

theorem State.parkedAt_id {s : State} {i : Nat} {p : Parked} (h : s.parkedAt i = some p) : p.id = i := by
  have hid := List.find?_some h
  simpa using hid

theorem State.parkedAt_unpark (s : State) (i : Nat) : (s.unpark i).parkedAt i = none := by
  simp [State.parkedAt, State.unpark, List.find?_eq_none]

theorem State.modParked_self (s : State) (i : Nat) : (s.modParked i fun p => p) = s := by
  simp [State.modParked]

theorem State.bufWrite_parkedAt (s : State) (a len v i : Nat) : (s.bufWrite .host a len v).parkedAt i = s.parkedAt i := by
  have hparked : (s.post (.mem a len v)).host.parked = s.host.parked := by
    unfold State.post
    split <;> rfl
  exact congrArg (List.find? _) hparked

/-- A command that still waits, and is not lost, completes in the state in which it waits no more. -/
theorem State.finish_completed {s : State} {i status : Nat} {p : Parked} {P : State → Prop} (hp : s.parkedAt i = some p) (hlost : p.lost = false)
    (hP : P (s.unpark i)) : Completed p.cmd p.op status P (s.finish i status) := by
  refine ⟨s.unpark i, 0, 0 + (if p.recovered then 8 else 0), 0, p.lower, ?_, hP⟩
  simp only [State.finish, hp, State.endParked, hlost, State.parkedAt_id hp, Bool.false_eq_true, if_false]

/-! ### Snapshots (spec/05 R167, R168) -/

/-- The snapshot that command `c` asks for, as it waits under id `i` for its boundary. -/
def snapWaitOf (c : Cmd) (i : Nat) : SnapWait :=
  { id := i, ports := BitVec.ofNat 128 (c.fld 0 16), name := boundaryName (c.fld 16 6) (c.fld 22 4), addr := c.fld 32 8 }

/-- Command `c` is parked until its snapshot's boundary. -/
def State.snapParked (s : State) (c : Cmd) : State :=
  { s.park c 0x0301 with ports := { s.ports with snap := some (snapWaitOf c s.host.nextId) } }

theorem exec_statsSnapshot {s : State} {c : Cmd} (htakes : s.takes c 0x0301 = true) (hok : c.ok 40 [(26, 6)] = true) (hbeat : c.fld 22 4 < 100000)
    (halign : c.fld 32 8 % 64 = 0) (hbuf : s.bufOk c.src (c.fld 32 8) (64 + 576 * (s.ports'.filter (bitAt (c.fld 0 16))).length) = true)
    (hname : s.nameOk (c.fld 22 4) (boundaryName (c.fld 16 6) (c.fld 22 4)) = true) (hfree : (s.fetched c).ports.snap = none) :
    exec (.statsSnapshot c) s = .next ((s.fetched c).snapParked c) := by
  have hname' : (s.fetched c).nameOk (c.fld 22 4) (boundaryName (c.fld 16 6) (c.fld 22 4)) = true := by
    simpa only [State.nameOk, s.fetched_time] using hname
  show execStatsSnapshot c s = _
  rw [execStatsSnapshot, start_takes htakes (by simp [hok, hbeat, halign, hbuf])]
  simp only [hfree, hname', Option.isSome_none, Bool.not_true, Bool.false_eq_true, if_false]
  rfl

theorem exec_snapshotXferDone {s : State} {x : SnapXfer} (hxfer : s.ports.xfer = some x) : exec .snapshotXferDone s =
    .next (({ s with ports := { s.ports with xfer := none } }.bufWrite x.src x.addr x.len x.data).finish x.id st.ok) := by
  show execSnapshotXferDone s = _
  simp only [execSnapshotXferDone, hxfer]

/-! ### The bus of a module (spec/05 R169, R170) -/

@[simp] theorem State.modSlotIo_bus (s : State) (m : Nat) (f : SlotIo → SlotIo) (b : Nat) : (s.modSlotIo m f).bus b = s.bus b := rfl
@[simp] theorem State.modParked_bus (s : State) (i : Nat) (f : Parked → Parked) (b : Nat) : (s.modParked i f).bus b = s.bus b := rfl

/-- An access that begins stays the bus's first one; the bus selects its slot. -/
theorem State.busStart_bus {s : State} {b : Nat} {x : I2cXfer} {rest : List I2cXfer} (h : (s.bus b).xfers = x :: rest) :
    ((s.busStart b).bus b).xfers = x :: rest ∧ ((s.busStart b).bus b).sel = some x.slot := by
  have hbus : (s.busStart b).bus b = { s.bus b with sel := some x.slot, msgs := (s.i2cMsgs x).reverse ++ (s.bus b).msgs } := by
    simp only [State.busStart, h, State.modSlotIo_bus, State.bus_modBus]
  rw [hbus]
  exact ⟨h, rfl⟩

theorem State.busStart_xfers (s : State) (b : Nat) : ((s.busStart b).bus b).xfers = (s.bus b).xfers := by
  cases h : (s.bus b).xfers with
  | nil => simp only [State.busStart, h]
  | cons x rest => exact (State.busStart_bus h).1

theorem Kept.bus {L : List Part} {s t : State} (k : Kept L s t) (h : L.contains .ports = false) (b : Nat) : t.bus b = s.bus b := by
  have hports : t.ports = s.ports := k.same .ports h
  simp only [State.bus, hports]

/-- The access joins the bus of a present module; an absent one's ends with BAD_STATE. -/
theorem State.modAccess_shows (s : State) (c : Cmd) (op : Nat) (write : Bool) :
    (s.flag (F.portMod_PRESENT (c.fld 0 1)) = true → ((s.modAccess c op write).bus (c.fld 0 1 % 16)).xfers =
      (s.bus (c.fld 0 1 % 16)).xfers ++ [modAccessOf c s.host.nextId write]) ∧
    (s.flag (F.portMod_PRESENT (c.fld 0 1)) = false → Completed c op st.badState (fun _ => True) (s.modAccess c op write)) := by
  constructor
  · intro hpresent
    simp only [State.modAccess, hpresent, if_true]
    split
    · rw [State.busStart_xfers, State.bus_modBus]
      rfl
    · rw [State.bus_modBus]
      rfl
  · intro habsent
    simp only [State.modAccess, habsent, Bool.false_eq_true, if_false]
    exact ⟨_, _, _, _, _, rfl, trivial⟩

theorem State.fetched_present (s : State) (c : Cmd) {m : Nat} (hm : m < 64) :
    (s.fetched c).flag (F.portMod_PRESENT m) = s.flag (F.portMod_PRESENT m) := State.fetched_writes.flag (rowsApart_at rfl hm rfl)

/-- What an access to module memory leaves, with the slot's presence as it was before the command was fetched. -/
theorem State.modAccess_fetched (s : State) (c : Cmd) (op : Nat) (write : Bool) (hm : c.fld 0 1 < 64) :
    (s.flag (F.portMod_PRESENT (c.fld 0 1)) = true → (((s.fetched c).modAccess c op write).bus (c.fld 0 1 % 16)).xfers =
      ((s.fetched c).bus (c.fld 0 1 % 16)).xfers ++ [modAccessOf c (s.fetched c).host.nextId write]) ∧
    (s.flag (F.portMod_PRESENT (c.fld 0 1)) = false →
      Completed c op st.badState (fun _ => True) ((s.fetched c).modAccess c op write)) := by
  rw [← s.fetched_present c hm]
  exact (s.fetched c).modAccess_shows c op write

theorem exec_modRead {s : State} {c : Cmd} (htakes : s.takes c 0x0302 = true) (hok : c.ok 16 [(5, 3)] = true) (hm : c.fld 0 1 < 64)
    (hrange : modRangeOk (c.fld 3 1) (c.fld 4 1) 128 = true) (hbuf : s.bufOk c.src (c.fld 8 8) (c.fld 4 1) = true) :
    exec (.modRead c) s = .next ((s.fetched c).modAccess c 0x0302 false) := by
  show execModRead c s = _
  rw [execModRead, start_takes htakes (by simp [hok, hm, hrange, hbuf])]

theorem exec_modWrite {s : State} {c : Cmd} (htakes : s.takes c 0x0303 = true) (hok : c.ok 16 [(5, 3)] = true) (hm : c.fld 0 1 < 64)
    (hrange : modRangeOk (c.fld 3 1) (c.fld 4 1) 8 = true) : exec (.modWrite c) s = .next ((s.fetched c).modAccess c 0x0303 true) := by
  show execModWrite c s = _
  rw [execModWrite, start_takes htakes (by simp [hok, hm, hrange])]

/-! ### The outputs of a slot (spec/05 R171, R181) -/

/-- The outputs of slot `m` are set to the three bits of `v`. -/
def State.sidebandSet (s : State) (m v : Nat) : State :=
  ((s.setF (F.portMod_RESET_L m) (v % 2)).setF (F.portMod_LPMODE m) (v / 2 % 2)).setF (F.portMod_GP_OUT m) (v / 4)

theorem exec_modSideband {s : State} {c : Cmd} (htakes : s.takes c 0x0304 = true) (hok : c.ok 2 = true) (hm : c.fld 0 1 < 64) (hv : c.fld 1 1 < 8) :
    exec (.modSideband c) s = .next (((s.fetched c).sidebandSet (c.fld 0 1) (c.fld 1 1)).complete c 0x0304 st.ok) := by
  show execModSideband c s = _
  rw [execModSideband, start_takes htakes (by simp [hok, hm, hv])]
  rfl

theorem State.sidebandSet_shows (s : State) (m : Nat) {v : Nat} (hv : v < 8) :
    (s.sidebandSet m v).fld (F.portMod_RESET_L m) = v % 2 ∧ (s.sidebandSet m v).fld (F.portMod_LPMODE m) = v / 2 % 2 ∧
      (s.sidebandSet m v).fld (F.portMod_GP_OUT m) = v / 4 := by
  refine ⟨?reset, ?lpmode, ?gpOut⟩
  case reset =>
    rw [State.sidebandSet, State.fld_setF_sep _ _ rfl, State.fld_setF_sep _ _ rfl]
    exact State.fld_setF_of_lt _ (show 0 + 1 ≤ 32 by decide) (Nat.mod_lt _ (by decide))
  case lpmode =>
    rw [State.sidebandSet, State.fld_setF_sep _ _ rfl]
    exact State.fld_setF_of_lt _ (show 1 + 1 ≤ 32 by decide) (Nat.mod_lt _ (by decide))
  case gpOut => exact State.fld_setF_of_lt _ (show 2 + 1 ≤ 32 by decide) (show v / 4 < 2 by omega)

/-! ### A transfer ends (spec/05 R170, R171) -/

/-- The bus goes on with the accesses `rest`, and the data of an access that read are in their buffer. -/
def State.i2cEnded (s : State) (b : Nat) (x : I2cXfer) (rest : List I2cXfer) (data : List (BitVec 8)) : State :=
  ((s.modBus b fun y => { y with xfers := rest }).busStart b).when
    (!x.write && (((s.modBus b fun y => { y with xfers := rest }).busStart b).parkedAt x.id).isSome) fun s =>
      s.bufWrite x.src x.addr x.len (bytesNat (data.take x.len))

theorem State.i2cEnded_xfers (s : State) (b : Nat) (x : I2cXfer) (rest : List I2cXfer) (data : List (BitVec 8)) :
    ((s.i2cEnded b x rest data).bus b).xfers = rest := by
  have hk : Kept [.host, .mem] ((s.modBus b fun y => { y with xfers := rest }).busStart b) (s.i2cEnded b x rest data) :=
    State.when_kept (.step State.bufWrite_kept rfl) .refl
  rw [hk.bus rfl, State.busStart_xfers, State.bus_modBus]

theorem State.i2cEnded_parkedAt {s : State} {x : I2cXfer} (hsrc : x.src = .host) (b : Nat) (rest : List I2cXfer) (data : List (BitVec 8)) (i : Nat) :
    (s.i2cEnded b x rest data).parkedAt i = s.parkedAt i := by
  have hhost : ((s.modBus b fun y => { y with xfers := rest }).busStart b).host = s.host := State.busStart_kept.same .host rfl
  have hparked : ((s.modBus b fun y => { y with xfers := rest }).busStart b).parkedAt i = s.parkedAt i := by
    simp only [State.parkedAt, hhost]
  unfold State.i2cEnded State.when
  split
  · rw [hsrc, State.bufWrite_parkedAt, hparked]
  · exact hparked

theorem exec_i2cTransferEnd_ack {s : State} {b : Fin 16} {x : I2cXfer} {rest : List I2cXfer} (data : List (BitVec 8))
    (hfirst : (s.bus b).xfers = x :: rest) (hwait : x.retryAt = none) (hnacks : x.nacks = 0) :
    exec (.i2cTransferEnd b true data false) s = .next ((s.i2cEnded b x rest data).finish x.id st.ok) := by
  show execI2cTransferEnd b true data false s = _
  simp only [execI2cTransferEnd, State.when, Bool.and_false, Bool.false_eq_true, if_false, if_true, hfirst, hwait, hnacks, Option.isSome_none,
    State.modParked_self]
  rfl

theorem exec_i2cTransferEnd_nack {s : State} {b : Fin 16} {x : I2cXfer} {rest : List I2cXfer} (data : List (BitVec 8))
    (hfirst : (s.bus b).xfers = x :: rest) (hwait : x.retryAt = none) (hnacks : x.nacks < s.fld (F.portI2c_RETRIES b)) :
    exec (.i2cTransferEnd b false data false) s = .next (((s.unselect x.slot).modBus b fun y => { y with xfers :=
      { x with nacks := x.nacks + 1, retryAt := some (s.time.tick + 1600000 * max 1 (s.fld (F.portI2c_RETRY_MS b))) } :: rest }).modParked
        x.id fun p => { p with lower := 3 }) := by
  show execI2cTransferEnd b false data false s = _
  simp only [execI2cTransferEnd, State.when, Bool.and_false, Bool.false_eq_true, if_false, hfirst, hwait, Nat.not_le.2 hnacks, Option.isSome_none]

theorem exec_i2cRetry {s : State} {b : Fin 16} {x : I2cXfer} {rest : List I2cXfer} {w : Nat} (hfirst : (s.bus b).xfers = x :: rest)
    (hwait : x.retryAt = some w) (hover : w ≤ s.time.tick) :
    exec (.i2cRetry b) s = .next ((s.modBus b fun y => { y with xfers := { x with retryAt := none } :: rest }).busStart b) := by
  show execI2cRetry b s = _
  simp only [execI2cRetry, hfirst, hwait, Option.any_some, hover, decide_true, if_true]

/-! ### The chain (spec/05 R172) -/

theorem State.slotIo_of_ports {s t : State} (h : t.ports = s.ports) (m : Nat) : t.slotIo m = s.slotIo m := by simp only [State.slotIo, h]

theorem State.slotIo_modSlotIo (s : State) (m : Nat) (f : SlotIo → SlotIo) : (s.modSlotIo m f).slotIo m = f (s.slotIo m) := Tab.get_put_same ..

theorem State.slotIo_modSlotIo_other (s : State) {m k : Nat} (f : SlotIo → SlotIo) (h : k ≠ m) : (s.modSlotIo m f).slotIo k = s.slotIo k :=
  Tab.get_put_other _ _ _ h

/-- A scan of slot `m` reads its inputs, and touches no other slot. -/
theorem State.scanSlot_slotIo (s : State) (m : Nat) (inp : BitVec 4) :
    ((s.scanSlot m inp).slotIo m).inp = inp ∧ ∀ k ≠ m, (s.scanSlot m inp).slotIo k = s.slotIo k := by
  unfold State.scanSlot
  extract_lets sel out y low n u v
  have hv : v.ports = u.ports := (State.when_kept (L := [.regs]) (.step State.setF_kept rfl) .refl).same .ports rfl
  have hinp : (v.slotIo m).inp = inp := by rw [State.slotIo_of_ports hv, State.slotIo_modSlotIo]
  have hother : ∀ k ≠ m, v.slotIo k = s.slotIo k := fun k hk => (State.slotIo_of_ports hv k).trans (s.slotIo_modSlotIo_other _ hk)
  split
  · have hraise (l : List (Nat × Nat × Nat)) : ((v.setF (F.portMod_INT m) 1).raise 0x0302 16 l).ports = v.ports := State.raise_kept.same .ports rfl
    exact ⟨by rw [State.slotIo_of_ports (hraise _), hinp], fun k hk => (State.slotIo_of_ports (hraise _) k).trans (hother k hk)⟩
  · exact ⟨hinp, hother⟩

/-- A scan of the first `n` slots reads the inputs of each. -/
theorem State.scan_inp (s : State) (inputs : List (BitVec 4)) (n : Nat) :
    ∀ m < n, ((s.each (List.range n) fun s m => s.scanSlot m (inputs.getD m 0xF#4)).slotIo m).inp = inputs.getD m 0xF#4 := by
  induction n with
  | zero => exact nofun
  | succ n ih =>
    intro m hm
    obtain ⟨hlast, hother⟩ := (s.each (List.range n) fun s m => s.scanSlot m (inputs.getD m 0xF#4)).scanSlot_slotIo n (inputs.getD n 0xF#4)
    have hstep : (s.each (List.range (n + 1)) fun s m => s.scanSlot m (inputs.getD m 0xF#4)) =
        (s.each (List.range n) fun s m => s.scanSlot m (inputs.getD m 0xF#4)).scanSlot n (inputs.getD n 0xF#4) := by
      simp only [State.each, List.range_succ, List.foldl_append, List.foldl_cons, List.foldl_nil]
    rw [hstep]
    rcases Nat.lt_succ_iff_lt_or_eq.1 hm with hlt | rfl
    · rw [hother m (Nat.ne_of_lt hlt)]
      exact ih m hlt
    · exact hlast

theorem exec_sgpioScan {s : State} (hup : s.up = true) (inputs : List (BitVec 4)) : exec (.sgpioScan inputs) s =
    .next (s.each (List.range s.chainSlots) fun s m => s.scanSlot m (inputs.getD m 0xF#4)) := by
  show execSgpioScan inputs s = _
  simp only [execSgpioScan, hup, if_true]

/-! ### Presence (spec/05 R172, R173) -/

/-- The slot's presence has been accepted: it shows, and ModSelL of the slot is high. -/
def State.presenceSet (s : State) (m : Nat) (present : Bool) : State :=
  (s.setF (F.portMod_PRESENT m) (bit present)).modBus (m % 16) fun y => if y.sel = some m then { y with sel := none } else y

theorem exec_modPresent {s : State} {m : Fin 64} {present : Bool} (hup : s.up = true) (hnew : s.flag (F.portMod_PRESENT m) ≠ present) :
    exec (.modPresent m present) s = .next ((s.presenceSet m present).raise 0x0301 16
      ([(0, 2, m.val), (2, 1, bit present)] ++ Stamp.fields s.now 4)) := by
  have hguard : (s.up && s.flag (F.portMod_PRESENT m) != present) = true := by simp [hup, hnew]
  exact congrArg Host.Outcome.next (if_pos hguard)

theorem State.presenceSet_flag (s : State) (m : Nat) (present : Bool) : (s.presenceSet m present).flag (F.portMod_PRESENT m) = present := by
  have hset : (s.setF (F.portMod_PRESENT m) (bit present)).fld (F.portMod_PRESENT m) = bit present :=
    s.fld_setF_of_lt (show 3 + 1 ≤ 32 by decide) (bit_lt_two present)
  have hflag : (s.presenceSet m present).flag (F.portMod_PRESENT m) = (bit present != 0) := congrArg (· != 0) hset
  rw [hflag]
  cases present <;> rfl

/-- Settles O13: a command that waits ends by `State.finish_completed`; of the buses and slots each event changes its own. -/
theorem snapshotsAndModules : Obligations.SnapshotsAndModules := by
  refine ⟨?snapshot, ?done, ?read, ?write, ?sideband, ?ack, ?nack, ?retry, ?scan, ?present⟩
  case snapshot =>
    intro s c htakes hok hbeat halign hbuf hname hfree
    exact ⟨_, exec_statsSnapshot htakes hok hbeat halign hbuf hname hfree, rfl, rfl⟩
  case done =>
    intro s x p hxfer hsrc hparked hlost
    refine ⟨_, exec_snapshotXferDone hxfer, ?_⟩
    rw [hsrc]
    refine State.finish_completed ((State.bufWrite_parkedAt _ _ _ _ _).trans hparked) hlost ⟨?_, State.parkedAt_unpark _ _⟩
    exact congrArg PortsSt.xfer (State.bufWrite_kept.same .ports rfl)
  case read =>
    intro s c htakes hok hm hrange hbuf
    exact ⟨_, exec_modRead htakes hok hm hrange hbuf, s.modAccess_fetched c _ _ hm⟩
  case write =>
    intro s c htakes hok hm hrange
    exact ⟨_, exec_modWrite htakes hok hm hrange, s.modAccess_fetched c _ _ hm⟩
  case sideband =>
    intro s c htakes hok hm hv
    exact ⟨_, exec_modSideband htakes hok hm hv, _, _, _, _, _, rfl, State.sidebandSet_shows _ _ hv⟩
  case ack =>
    intro s b data x rest p hfirst hwait hsrc hnacks hparked hlost
    refine ⟨_, exec_i2cTransferEnd_ack data hfirst hwait hnacks, ?_⟩
    exact State.finish_completed ((State.i2cEnded_parkedAt hsrc _ _ _ _).trans hparked) hlost
      ⟨s.i2cEnded_xfers b x rest data, State.parkedAt_unpark _ _⟩
  case nack =>
    intro s b data x rest hfirst hwait hnacks
    refine ⟨_, exec_i2cTransferEnd_nack data hfirst hwait hnacks, ?_⟩
    simp only [State.modParked_bus, State.bus_modBus]
  case retry =>
    intro s b x rest w hfirst hwait hover
    exact ⟨_, exec_i2cRetry hfirst hwait hover, State.busStart_bus (congrArg BusSt.xfers (State.bus_modBus ..))⟩
  case scan =>
    intro s inputs hup
    exact ⟨_, exec_sgpioScan hup inputs, s.scan_inp inputs s.chainSlots⟩
  case present =>
    intro s m present hup hnew
    refine ⟨_, exec_modPresent hup hnew, ?_, _, rfl⟩
    exact (State.raise_writes.flag (rowsApart_at rfl m.isLt rfl)).trans (s.presenceSet_flag m present)

end Sys2Proof.Machine
end

section
/-!
A frame comes in (spec/05 R154 to R158, R165; spec/06 R196; spec/08 R241, R249, R251): what the line's errors leave alone, what the accounts of
the buffer leave alone, the MAC, and how a decision and a check leave the frame.
-/
namespace Sys2Proof.Machine
open Sys2Proof

/-! ### The errors of the line (spec/04 R140, R150) -/

/-- The receivers, and the settings that a quarantine keeps, are as they were. -/
def SameLanes (s t : State) : Prop := ∀ k, (t.lane k).rx = (s.lane k).rx ∧ (t.lane k).quarCfg = (s.lane k).quarCfg

namespace SameLanes

variable {s t u : State}

theorem refl : SameLanes s s := fun _ => ⟨rfl, rfl⟩

theorem trans (h : SameLanes s t) (k : SameLanes t u) : SameLanes s u := fun j => ⟨(k j).1.trans (h j).1, (k j).2.trans (h j).2⟩

theorem modLane {f : LaneSt → LaneSt} (hf : ∀ x, (f x).rx = x.rx ∧ (f x).quarCfg = x.quarCfg) (m : Nat) : SameLanes s (s.modLane m f) := by
  intro k
  by_cases hk : k = m
  · rw [hk, State.lane_modLane]
    exact hf _
  · rw [State.lane_modLane_other s f hk]
    exact ⟨rfl, rfl⟩

theorem each {α : Type} {f : State → α → State} (hf : ∀ v a, SameLanes v (f v a)) (l : List α) (s : State) : SameLanes s (s.each l f) := by
  induction l generalizing s with
  | nil => exact refl
  | cons a l ih => exact (hf s a).trans (ih (f s a))

end SameLanes

theorem State.checkPattern_sameLanes (s : State) (m : Nat) (bits : List Bool) : SameLanes s (s.checkPattern m bits) := by
  unfold State.checkPattern
  split
  · have hchk : SameLanes s (s.modLane m fun x => { x with chk := (prbsCheck (s.fld (F.laneLoop_PATTERN m)) (s.lane m).chk bits).2 }) :=
      .modLane (by exact fun _ => ⟨rfl, rfl⟩) m
    exact hchk
  · exact .refl

theorem State.patterns_sameLanes (s : State) (m : Nat) (bits : List Bool) : SameLanes s (s.patterns m bits) := by
  unfold State.patterns
  split
  · extract_lets g u
    have hgen : SameLanes s u := .modLane (by exact fun _ => ⟨rfl, rfl⟩) m
    split
    · exact hgen.trans (u.checkPattern_sameLanes m _)
    · exact hgen.trans ((u.out _).checkPattern_sameLanes m _)
  · exact s.checkPattern_sameLanes m _

theorem State.lineErrs_sameLanes (s : State) (n : Nat) (l : List LineErr) : SameLanes s (s.lineErrs n l) := by
  refine .each (fun v e => ?_) _ _
  extract_lets m u
  have hcount : SameLanes v u := by
    unfold u State.when
    split <;> exact .refl
  exact hcount.trans (u.patterns_sameLanes m e.pattern)

/-- The receivers' errors and what the receiver has lost are counted (spec/04 R124, R150). -/
def State.lineCounted (s : State) (n : Nat) (f : RxFrame) : State := (s.lineErrs n f.errs).countPort n 16 f.klLost

theorem State.lineCounted_counted (s : State) (n : Nat) (f : RxFrame) : Counted s (s.lineCounted n f) := by
  have hkept : Kept [.regs, .lanes, .line] s (s.lineErrs n f.errs) := State.lineErrs_kept
  have hcal : (s.lineErrs n f.errs).cal = s.cal := hkept.same .cal rfl
  have herrs : Counted s (s.lineErrs n f.errs) :=
    ⟨State.lineErrs_writes.step rfl .refl, fun m => (s.lineErrs_sameLanes n f.errs m).2, congrArg CalSt.path hcal, hkept.time_eq rfl rfl,
      hkept.power_eq rfl, hkept.same .ports rfl, hkept.same .fabric rfl⟩
  exact herrs.countPort n 16 f.klLost

theorem State.lineCounted_cal (s : State) (n : Nat) (f : RxFrame) : (s.lineCounted n f).cal = s.cal :=
  State.lineErrs_kept.same .cal rfl

theorem State.lineCounted_portCnt (s : State) (m : Nat) (f : RxFrame) (n : Fin 128) {k : Nat} (hk : k < 64) (h : k ≠ 16) :
    (s.lineCounted m f).portCnt n k = s.portCnt n k :=
  (State.portCnt_countPort_other _ n hk h _).trans (State.lineErrs_kept.portCnt rfl n k)

theorem State.lineCounted_framed (s : State) (n : Fin 128) (f : RxFrame) : (s.lineCounted n f).framed n f = s.framed n f := by
  have hrx : ((s.lineCounted n f).lane n).rx = (s.lane n).rx := (s.lineErrs_sameLanes n f.errs n).1
  simp only [State.framed, (s.lineCounted_counted n f).isKl, hrx]

theorem State.lineCounted_captured (s : State) (n dir : Nat) (f : RxFrame) (st : StampIn) :
    (s.lineCounted n f).captured n dir st = s.captured n dir st := by
  simp only [State.captured, State.linear, s.lineCounted_cal]

theorem Counted.frameTaken {s t : State} (h : Counted s t) (n : Nat) : Counted s (t.frameTaken n) := by
  have hkept : Kept [.lanes] t (t.frameTaken n) := State.when_kept (.step State.modLane_kept rfl) .refl
  refine h.trans ⟨Writes.refl.kept hkept rfl, fun m => ?_, congrArg CalSt.path (hkept.same .cal rfl), hkept.time_eq rfl rfl, hkept.power_eq rfl,
    hkept.same .ports rfl, hkept.same .fabric rfl⟩
  unfold State.frameTaken State.when
  split
  · by_cases hm : m = n
    · rw [hm, State.lane_modLane]
    · rw [State.lane_modLane_other t _ hm]
  · rfl

theorem State.frameTaken_portCnt (s : State) (m n k : Nat) : (s.frameTaken m).portCnt n k = s.portCnt n k :=
  (State.when_kept (L := [.lanes]) (.step State.modLane_kept rfl) .refl).portCnt rfl n k

/-! ### What the MAC reads of a port (spec/05 R154 to R157) -/

theorem Counted.maxFrame {s t : State} (h : Counted s t) (n : Fin 128) : t.maxFrame n = s.maxFrame n := by
  have hfld : t.fld (F.portCfg_MAX_FRAME n) = s.fld (F.portCfg_MAX_FRAME n) := h.portCfg_fld n rfl
  simp only [State.maxFrame, hfld]

theorem Counted.macFlags {s t : State} (h : Counted s t) (n : Fin 128) (f : RxFrame) : t.macFlags n f = s.macFlags n f := by
  have hcheck : t.flag (F.portCfg_LEN_CHECK n) = s.flag (F.portCfg_LEN_CHECK n) := congrArg (· != 0) (h.portCfg_fld n rfl)
  simp only [State.macFlags, h.maxFrame, h.isKl, hcheck]

theorem portDa_addr (n : Fin 128) {k : Nat} (hk : k < 16) :
    Reg.portDaLo n k = 0xC00100 + 0x1000 * n.val + 0x8 * k ∧ Reg.portDaHi n k = 0xC00104 + 0x1000 * n.val + 0x8 * k :=
  ⟨if_pos ⟨n.isLt, hk⟩, if_pos ⟨n.isLt, hk⟩⟩

theorem Counted.passes {s t : State} (h : Counted s t) (n : Fin 128) (da : Nat) (group : Bool) : t.passes n da group = s.passes n da group := by
  have hpromisc : t.flag (F.portCfg_PROMISC n) = s.flag (F.portCfg_PROMISC n) := congrArg (· != 0) (h.portCfg_fld n rfl)
  have hgroups : t.flag (F.portCfg_PASS_ALL_GROUPS n) = s.flag (F.portCfg_PASS_ALL_GROUPS n) := congrArg (· != 0) (h.portCfg_fld n rfl)
  have hentry : ∀ k ∈ List.range 16, (t.flag (F.portDaHi_VALID n k) &&
      t.fld (F.portDaHi_ADDR_HI n k) * 2 ^ 32 + (t.reg (Reg.portDaLo n k)).toNat == da) = (s.flag (F.portDaHi_VALID n k) &&
      s.fld (F.portDaHi_ADDR_HI n k) * 2 ^ 32 + (s.reg (Reg.portDaLo n k)).toNat == da) := by
    intro k hk
    obtain ⟨hlo, hhi⟩ := portDa_addr n (List.mem_range.1 hk)
    have hk' := List.mem_range.1 hk
    have hreglo : t.reg (Reg.portDaLo n k) = s.reg (Reg.portDaLo n k) := h.portReg (by omega) (by omega)
    have hreghi : t.reg (Reg.portDaHi n k) = s.reg (Reg.portDaHi n k) := h.portReg (by omega) (by omega)
    simp only [State.flag, State.fld, F.portDaHi_VALID, F.portDaHi_ADDR_HI, hreglo, hreghi]
  have hany : ((List.range 16).any fun k => t.flag (F.portDaHi_VALID n k) &&
      t.fld (F.portDaHi_ADDR_HI n k) * 2 ^ 32 + (t.reg (Reg.portDaLo n k)).toNat == da) = (List.range 16).any fun k =>
        s.flag (F.portDaHi_VALID n k) && s.fld (F.portDaHi_ADDR_HI n k) * 2 ^ 32 + (s.reg (Reg.portDaLo n k)).toNat == da := by
    rw [List.any_eq, List.any_eq]
    exact decide_eq_decide.2 (exists_congr fun k => and_congr_right fun hk => by rw [hentry k hk])
  simp only [State.passes, hpromisc, hgroups, hany]

/-! ### The stamp of a frame (spec/09 R293, R295) -/

theorem Counted.rxStamp {s t : State} (h : Counted s t) (n : Fin 128) (st : StampIn) : t.rxStamp n st = s.rxStamp n st := by
  have htrims : t.trims n = s.trims n := by simp only [State.trims, h.path]
  have hcomp : t.comp n st.var.toNat = s.comp n st.var.toNat := by
    simp only [State.comp, State.pathDelays, htrims, h.isKl, h.rateCode, h.fec, h.width, h.macRate]
  simp only [State.rxStamp, State.stampBy, State.cnt, hcomp, h.time]

/-! ### FRAME_RX (spec/05 R155 to R158) -/

/-- Port `n` has been handed a frame: the line's counts are up to date, the frame is off its receiver, and its stamp is counted. -/
def State.macReached (s : State) (n : Nat) (f : RxFrame) : State := ((s.lineCounted n f).frameTaken n).countStamp n 0

theorem State.macReached_counted (s : State) (n : Nat) (f : RxFrame) : Counted s (s.macReached n f) :=
  ((s.lineCounted_counted n f).frameTaken n).countStamp n 0

theorem State.macReached_portCnt (s : State) (f : RxFrame) (n : Fin 128) {k : Nat} (hk : k < 16) :
    (s.macReached n f).portCnt n k = s.portCnt n k :=
  (State.frameTaken_portCnt _ n n k).trans (s.lineCounted_portCnt n f n (by omega) (by omega))

theorem State.lineErrs_portUp {s : State} {n : Fin 128} (f : RxFrame) (hport : s.portUp n = true) :
    (s.lineErrs n f.errs).portUp n = true ∧ (s.lineErrs n f.errs).link n ≠ 9 := by
  have hlink : (s.lineErrs n f.errs).link n = 5 := by
    have hfive : s.link n = 5 := by simpa [State.portUp] using hport
    exact ((s.lineCounted_counted n f).link n).trans hfive
  exact ⟨by simp [State.portUp, hlink], by omega⟩

theorem exec_frameRx_none {s : State} {n : Fin 128} {f : RxFrame} (hup : s.up = true) (hport : s.portUp n = true) (hframed : s.framed n f = none) :
    exec (.frameRx n f) s = .next (s.lineCounted n f) := by
  obtain ⟨hstill, hlink⟩ := State.lineErrs_portUp f hport
  refine congrArg Host.Outcome.next ((if_neg (by simp [hup])).trans ((if_neg hlink).trans ((if_neg (by simp [hstill])).trans ?_)))
  dsimp only
  split
  case h_1 => rfl
  case h_2 g hg => exact absurd (hg.symm.trans ((s.lineCounted_framed n f).trans hframed)) nofun

theorem exec_frameRx_some {s : State} {n : Fin 128} {f g : RxFrame} (hup : s.up = true) (hport : s.portUp n = true)
    (hframed : s.framed n f = some g) : exec (.frameRx n f) s =
      .next ((s.macReached n f).macRx n g.bytes (s.macFlags n g) (s.captured n 0 g.st)) := by
  obtain ⟨hstill, hlink⟩ := State.lineErrs_portUp f hport
  refine congrArg Host.Outcome.next ((if_neg (by simp [hup])).trans ((if_neg hlink).trans ((if_neg (by simp [hstill])).trans ?_)))
  dsimp only
  split
  case h_1 hg => exact absurd (hg.symm.trans ((s.lineCounted_framed n f).trans hframed)) nofun
  case h_2 k hk =>
    obtain rfl : k = g := Option.some.inj (hk.symm.trans ((s.lineCounted_framed n f).trans hframed))
    rw [← (s.lineCounted_counted n f).macFlags n k, ← s.lineCounted_captured n 0 f k.st]
    rfl

@[simp] theorem State.countGood_fld (s : State) (n len cast : Nat) (f : Fld) : (s.countGood n len cast).fld f = s.fld f := by
  simp only [State.countGood, State.countPort_fld]

/-- A good frame that passes the filter is counted and enters the buffer. -/
theorem State.macRx_of_good {s : State} {n : Nat} {l : List Byte} {st : StampIn} (hlen : 64 ≤ l.length) (hctrl : fb2 l 12 ≠ 0x8808)
    (hpass : s.passes n (fbN l 0 6) (bitAt (fb l 0) 0) = true) (hquiet : s.quiet = false) (hsample : s.fld (F.fabricSample_N n) = 0) :
    s.macRx n l 0 st = (s.countGood n l.length (castOf l)).frameIn ((s.countGood n l.length (castOf l)).rxFrame n l 0 st false) := by
  have hnone : (s.countGood n l.length (castOf l)).sample n = (s.countGood n l.length (castOf l), false) := by
    simp only [State.sample, State.countGood_fld, hsample, if_true]
  have hquiet' : (s.countGood n l.length (castOf l)).quiet = false := (Counted.refl.countGood n _ _).quiet.trans hquiet
  have h14 : 14 ≤ l.length := by omega
  have h18 : ¬l.length < 18 := by omega
  simp only [State.macRx, State.countRx, hctrl, hpass, h14, h18, hnone, hquiet', and_false, Bool.not_true, Bool.not_false, Bool.false_eq_true,
    if_false, if_true]

/-- A frame that does not pass the filter is counted, and that is all. -/
theorem State.macRx_of_filtered {s : State} {n : Nat} {l : List Byte} {flags : Nat} {st : StampIn} (hlen : 14 ≤ l.length)
    (hctrl : fb2 l 12 ≠ 0x8808) (hpass : s.passes n (fbN l 0 6) (bitAt (fb l 0) 0) = false) :
    s.macRx n l flags st = (s.countPort n 8).countPort n 19 l.length := by
  simp only [State.macRx, hctrl, hpass, hlen, and_false, Bool.not_false, true_and, if_false, if_true]

/-! ### The accounts of the buffer leave its frames (spec/08 R241, R255, R257) -/

/-- No frame has come, gone or changed, and no port has counted below counter 28. -/
structure Steady (s t : State) : Prop where
  frames : t.fabric.frames = s.fabric.frames
  low : ∀ (n : Fin 128) (k : Nat), k < 28 → t.portCnt n k = s.portCnt n k

namespace Steady

variable {s t u : State}

theorem refl : Steady s s := ⟨rfl, fun _ _ _ => rfl⟩

theorem trans (h : Steady s t) (k : Steady t u) : Steady s u :=
  ⟨k.frames.trans h.frames, fun n j hj => (k.low n j hj).trans (h.low n j hj)⟩

theorem kept {L : List Part} (k : Kept L s t) (hf : L.contains .fabric = false) (hc : L.contains .ctr = false) : Steady s t :=
  ⟨congrArg FabricSt.frames (k.same .fabric hf), fun n j _ => k.portCnt hc n j⟩

theorem modFabric {f : FabricSt → FabricSt} (hf : (f s.fabric).frames = s.fabric.frames) : Steady s (s.modFabric f) := ⟨hf, fun _ _ _ => rfl⟩

theorem countPort (s : State) (m : Nat) {j : Nat} (hj : 28 ≤ j) (d : Nat) : Steady s (s.countPort m j d) :=
  ⟨rfl, fun n k hk => s.portCnt_countPort_other n (by omega) (by omega) d⟩

theorem each {α : Type} {f : State → α → State} (hf : ∀ v a, Steady v (f v a)) (l : List α) (s : State) : Steady s (s.each l f) := by
  induction l generalizing s with
  | nil => exact refl
  | cons a l ih => exact (hf s a).trans (ih (f s a))

end Steady

theorem State.sendCtrl_steady (s : State) (n : Nat) (l : List Byte) : Steady s (s.sendCtrl n l) :=
  ⟨congrArg FabricSt.frames (State.sendCtrl_kept.same .fabric rfl), fun m k hk => (s.sendCtrl_portCnt n l m).2 k hk⟩

theorem State.sendPause_steady (s : State) (n e : Nat) (q : Nat → Nat) : Steady s (s.sendPause n e q) := by
  unfold State.sendPause
  split
  · exact .refl
  · extract_lets l u
    have hu : Steady s u := .kept State.modMac_kept rfl rfl
    split
    · exact hu.trans (.kept State.modMac_kept rfl rfl)
    · exact hu.trans (u.sendCtrl_steady n l)

theorem State.showXoff_steady (s : State) (n : Nat) : Steady s (s.showXoff n) := by
  unfold State.showXoff
  extract_lets old new u entered v
  split
  · exact .refl
  · have hu : Steady s u := .kept State.setF_kept rfl rfl
    have hv : Steady u v := .each (fun w p => .countPort w n (by omega) 1) _ _
    exact (hu.trans hv).trans (v.sendPause_steady n _ _)

theorem State.askXoff_steady (s : State) (n c : Nat) (on : Bool) : Steady s (s.askXoff n c on) :=
  .trans (.kept State.modMac_kept rfl rfl) (State.showXoff_steady _ n)

theorem State.acctXoff_steady (s : State) (p c : Nat) : Steady s (s.acctXoff p c) := by
  unfold State.acctXoff
  extract_lets j d on u
  split
  · exact .refl
  · have hu : Steady s u := by
      unfold u
      split
      · exact .modFabric rfl
      · exact .refl
    have hset (v : Nat) (b : Bool) : Steady u ((u.setF (F.iaDepth_XOFF j) v).askXoff p c b) :=
      .trans (.kept State.setF_kept rfl rfl) (State.askXoff_steady _ p c b)
    split
    · exact hu.trans (hset 1 true)
    · split
      · exact hu.trans (hset 0 false)
      · exact hu

theorem State.poolXoff_steady (s : State) : Steady s s.poolXoff :=
  .each (fun v p => .each (fun w c => w.acctXoff_steady p c) _ v) _ s

theorem State.showIa_steady (s : State) (p c : Nat) : Steady s (s.showIa p c) := by
  unfold State.showIa
  split
  · exact .refl
  · exact .trans (.kept State.setF_kept rfl rfl) (State.acctXoff_steady _ p c)

theorem State.showFree_steady (s : State) : Steady s s.showFree := by
  unfold State.showFree
  extract_lets u v
  have hu : Steady s u := .trans (.kept State.setF_kept rfl rfl) (.kept State.setF_kept rfl rfl)
  have hv : Steady s v := by
    unfold v
    split
    · exact hu.trans (.kept State.pressure_kept rfl rfl)
    · exact hu
  split
  · exact hv.trans (.trans (.modFabric rfl) (.trans (State.poolXoff_steady _) (.kept State.raise_kept rfl rfl)))
  · split
    · exact hv.trans (.trans (.modFabric rfl) (State.poolXoff_steady _))
    · exact hv

/-- The frame that enters is the buffer's last; the counters below 28 are as they were. -/
theorem State.frameIn_shows (s : State) (f : Frame) :
    (s.frameIn f).fabric.frames = s.fabric.frames ++ [{ f with id := s.fabric.nextFrame, loc := List.replicate f.cells .die }] ∧
      ∀ (n : Fin 128) (k : Nat), k < 28 → (s.frameIn f).portCnt n k = s.portCnt n k := by
  unfold State.frameIn
  extract_lets id
  obtain ⟨hframes, hlow⟩ := State.showFree_steady (s.modFabric fun x => { x with
    frames := x.frames ++ [{ f with id := id, loc := List.replicate f.cells .die }], nextFrame := id + 1 })
  exact ⟨hframes, hlow⟩

/-! ### A property of all frames that rests on their marks -/

/-- Which frame it is, and how far it has come. -/
def Frame.mark (f : Frame) : Nat × Bool × Bool := (f.id, f.decided, f.checked)

theorem Frame.mark_eq_iff {x y : Frame} : x.mark = y.mark ↔ x.id = y.id ∧ x.decided = y.decided ∧ x.checked = y.checked := by
  simp only [Frame.mark, Prod.mk.injEq]

/-- `P` holds of every frame in the buffer. -/
def State.AllFrames (P : Frame → Prop) (s : State) : Prop := ∀ x ∈ s.fabric.frames, P x

section AllFrames

variable {P : Frame → Prop} {s t : State}

theorem State.AllFrames.of_eq (h : s.AllFrames P) (e : t.fabric.frames = s.fabric.frames) : t.AllFrames P := fun x hx => h x (e ▸ hx)

theorem State.AllFrames.kept {L : List Part} (h : s.AllFrames P) (k : Kept L s t) (hf : L.contains .fabric = false) : t.AllFrames P :=
  h.of_eq (congrArg FabricSt.frames (k.same .fabric hf))

theorem State.AllFrames.modFabric {f : FabricSt → FabricSt} (h : s.AllFrames P) (hf : (f s.fabric).frames = s.fabric.frames) :
    (s.modFabric f).AllFrames P := h.of_eq hf

theorem State.AllFrames.steady (h : s.AllFrames P) (k : Steady s t) : t.AllFrames P := h.of_eq k.frames

theorem State.AllFrames.when {c : Bool} {f : State → State} (h : s.AllFrames P) (hf : (f s).AllFrames P) : (s.when c f).AllFrames P := by
  unfold State.when
  split
  · exact hf
  · exact h

theorem State.AllFrames.modFrame {i : Nat} {f : Frame → Frame} (h : s.AllFrames P) (hf : ∀ x, P x → P (f x)) : (s.modFrame i f).AllFrames P := by
  intro y hy
  obtain ⟨x, hx, rfl⟩ := List.mem_map.1 hy
  split
  · exact hf x (h x hx)
  · exact h x hx

theorem State.AllFrames.endFrame (h : s.AllFrames P) (i : Nat) : (s.endFrame i).AllFrames P := by
  have hleft : (s.modFabric fun x => { x with frames := x.frames.filter (·.id ≠ i) }).AllFrames P :=
    fun x hx => h x (List.mem_filter.1 hx).1
  exact hleft.steady (State.showFree_steady _)

theorem State.AllFrames.toRing (h : s.AllFrames P) (f : Frame) (ring reason : Nat) : (s.toRing f ring reason).AllFrames P := h.of_eq rfl

theorem State.AllFrames.capture (h : s.AllFrames P) (f : Frame) (c : Option Copy) (out : Option Stamp) (fate : Nat) :
    (s.capture f c out fate).AllFrames P := by
  unfold State.capture
  split
  · exact h
  · extract_lets data seq r
    have hseq : (s.modFabric fun x => { x with capSeq := seq + 1 }).AllFrames P := h.of_eq rfl
    exact (hseq.kept State.ringRecord_kept rfl).kept State.countFab_kept rfl

theorem State.AllFrames.discard (h : s.AllFrames P) (f : Frame) (fate status : Nat) (q : Option Nat) : (s.discard f fate status q).AllFrames P :=
  ((h.capture f _ none fate).kept State.txDone_kept rfl).endFrame f.id

theorem State.AllFrames.badFrame (h : s.AllFrames P) (f : Frame) (meas conflict : Bool) : (s.badFrame f meas conflict).AllFrames P := by
  unfold State.badFrame
  extract_lets p deliver u v
  have hu : u.AllFrames P := h.kept (State.when_kept (L := [.ctr]) (.step State.countParse_kept rfl) .refl) rfl
  have hv : v.AllFrames P := hu.kept (State.when_kept (L := [.ctr]) (.step State.countPort_kept rfl) .refl) rfl
  exact hv.when (hv.toRing f _ _)

theorem State.AllFrames.refuse (h : s.AllFrames P) (f : Frame) (k fate : Nat) (q : Option Nat) : (s.refuse f k fate q).AllFrames P := by
  unfold State.refuse
  extract_lets u v
  have hu : u.AllFrames P := h.kept State.countFab_kept rfl
  have hv : v.AllFrames P := by
    unfold v State.overrunAt
    split
    · extract_lets j w
      have hw : w.AllFrames P := hu.kept State.setF_kept rfl
      split
      · exact hw
      · exact (hw.modFabric rfl).kept State.raise_kept rfl
    · exact hu
  exact hv.discard f fate 4 q

variable (hP : ∀ x y : Frame, x.mark = y.mark → P x → P y)
include hP

theorem State.AllFrames.headroomIn (h : s.AllFrames P) (f : Frame) : (s.headroomIn f).AllFrames P := by
  unfold State.headroomIn
  extract_lets j n own u
  split
  · exact h
  · have hu : u.AllFrames P := h.modFrame fun x hx => hP x _ rfl hx
    refine hu.of_eq ?_
    refine List.foldlRecOn (motive := fun x : FabricSt => x.frames = u.fabric.frames) own _ rfl fun x hx i _ => ?_
    dsimp only
    split <;> exact hx

theorem State.AllFrames.link' (h : s.AllFrames P) (f : Frame) (mc : Bool) (qs : List (Nat × Option Nat)) (early : Bool) :
    (s.link' f mc qs early).AllFrames P := by
  unfold State.link'
  extract_lets u v w q
  have hu : u.AllFrames P := h.modFrame fun x hx => hP x _ rfl hx
  have hv : v.AllFrames P := hu.of_eq rfl
  have hw : w.AllFrames P := (hv.steady (State.showIa_steady _ _ _)).headroomIn hP f
  have hcount : (w.countFab q 12).AllFrames P := hw.kept State.countFab_kept rfl
  exact hw.when (hcount.when (hcount.of_eq rfl))

theorem State.AllFrames.linkUnicast (h : s.AllFrames P) (f : Frame) (q : Nat) : (s.linkUnicast f q).AllFrames P := by
  have hcount (k : Nat) : (s.countFab q k).AllFrames P := h.kept State.countFab_kept rfl
  unfold State.linkUnicast
  split
  · exact h.discard f 11 4 none
  · split
    · exact (hcount 0).discard f 6 4 (some q)
    · split
      · exact (hcount 2).discard f 4 4 (some q)
      · split
        · exact h.refuse f _ _ (some q)
        · exact h.link' hP f false _ _

theorem State.AllFrames.linkGroup (h : s.AllFrames P) (f : Frame) (view g : Nat) : (s.linkGroup f view g).AllFrames P := by
  unfold State.linkGroup
  extract_lets all u
  have hu : u.AllFrames P := h.kept (State.each_kept (L := [.ctr]) (fun _ _ k => .step State.countFab_kept rfl k) .refl) rfl
  split
  · exact hu.discard f 11 4 none
  · split
    · exact hu.refuse f _ _ none
    · exact hu.link' hP f true _ false

theorem State.AllFrames.outcome (h : s.AllFrames P) (f : Frame) (view : Nat) (o : Out) : (s.outcome f view o).AllFrames P := by
  unfold State.outcome
  split
  · exact h.discard f 11 4 none
  · exact (h.toRing f _ _).discard f 11 4 none
  · exact h.linkGroup hP f view _
  · exact h.linkUnicast hP f _

theorem State.AllFrames.byTables (h : s.AllFrames P) {f : Frame} (hf : P f) (c : Verdict) : (s.byTables f c).AllFrames P := by
  unfold State.byTables
  extract_lets p r u overdue v w g x
  have hu : u.AllFrames P := h.kept (State.each_kept (L := [.ctr]) (fun _ _ k => .step State.countFwd_kept rfl k) .refl) rfl
  have hv : v.AllFrames P := hu.kept (State.when_kept (L := [.ctr]) (.step State.countFwd_kept rfl) .refl) rfl
  have hw : w.AllFrames P := by
    unfold w
    split
    · exact hv.kept State.source_kept rfl
    · exact hv
  have hx : x.AllFrames P := hw.modFrame fun _ _ => hP f g rfl hf
  split
  · exact hx.discard g 11 4 none
  · exact hx.outcome hP g c.view r.out

theorem State.AllFrames.byAction (h : s.AllFrames P) {f : Frame} (hf : P f) (c : Verdict) : (s.byAction f c).AllFrames P := by
  unfold State.byAction
  extract_lets op u
  have hu : u.AllFrames P := h.when (h.toRing f _ _)
  split
  · exact h.discard f 11 4 none
  · split
    · exact h.outcome hP f c.view _
    · split
      · exact h.outcome hP f c.view _
      · exact hu.byTables hP hf c

theorem State.AllFrames.decideBad (h : s.AllFrames P) (f : Frame) (c : Verdict) : (s.decideBad f c).AllFrames P := by
  have hbad : ((s.badFrame f c.meas c.parsed.conflict).discard f 11 4).AllFrames P := (h.badFrame f _ _).discard f 11 4 none
  unfold State.decideBad
  split
  · split
    · exact h.link' hP f false _ true
    · exact hbad
  · exact hbad

theorem State.AllFrames.release (h : s.AllFrames P) (c : Copy) (fate : Option Nat) : (s.release c fate).AllFrames P := by
  unfold State.release
  split
  · exact h
  · next f hf =>
    extract_lets g u v w x
    have hu : u.AllFrames P := h.modFrame fun _ _ => hP f g rfl (h f (List.mem_of_find?_eq_some hf))
    have hended : ((u.modFabric fun x => { x with staged := Tab.put x.staged none c.q none }).flushCtrl c.q).AllFrames P :=
      (hu.modFabric rfl).kept State.flushCtrl_kept rfl
    have hv : v.AllFrames P := hu.when hended
    have hw : w.AllFrames P := by
      unfold w
      split
      · split
        · exact (hv.capture g _ none _).kept State.txDone_kept rfl
        · exact hv
      · exact hv
    have hfreed : (w.modFrame g.id fun f => { f with loc := [] }).AllFrames P := hw.modFrame fun y hy => hP y _ rfl hy
    have hx : x.AllFrames P := by
      unfold x
      split
      · split
        · exact hw.endFrame g.id
        · exact hfreed.steady (State.showFree_steady _)
      · exact hv.steady (State.showFree_steady _)
    exact (hx.kept State.showEq_kept rfl).steady (State.showIa_steady _ _ _)

end AllFrames

/-! ### The decision (spec/06 R196) -/

/-- Frame `i` has been decided, or checked, as far as it is in the buffer. -/
theorem State.AllFrames.frame {done : Frame → Prop} {s : State} {i : Nat} (h : s.AllFrames fun x => x.id = i → done x) :
    ∀ x, s.frame i = some x → done x := by
  intro x hx
  have hid : x.id = i := by simpa using List.find?_some hx
  exact h x (List.mem_of_find?_eq_some hx) hid

theorem State.frame_id {s : State} {i : Nat} {f : Frame} (h : s.frame i = some f) : f.id = i := by simpa using List.find?_some h

/-- What puts a frame in the place of frame `i` leaves it as far as the new one has come. -/
theorem State.modFrame_allFrames (s : State) {i : Nat} {done : Frame → Prop} {f : Frame → Frame} (hf : ∀ x, done (f x)) :
    (s.modFrame i f).AllFrames fun x => x.id = i → done x := by
  intro y hy
  obtain ⟨x, -, rfl⟩ := List.mem_map.1 hy
  split
  · exact fun _ => hf x
  · exact fun hid => absurd hid ‹_›

theorem State.decide'_allFrames (s : State) (f : Frame) : (s.decide' f).AllFrames fun x => x.id = f.id → x.decided = true := by
  have hP : ∀ x y : Frame, x.mark = y.mark → (x.id = f.id → x.decided = true) → (y.id = f.id → y.decided = true) := by
    intro x y hxy hx hy
    obtain ⟨hid, hdecided, -⟩ := Frame.mark_eq_iff.1 hxy
    exact hdecided ▸ hx (hid.trans hy)
  unfold State.decide'
  extract_lets p c u v g w x
  have hg : g.id = f.id → g.decided = true := fun _ => rfl
  have hw : w.AllFrames fun x => x.id = f.id → x.decided = true := v.modFrame_allFrames fun _ => rfl
  have hx : x.AllFrames fun x => x.id = f.id → x.decided = true := hw.kept State.toEngine_kept rfl
  split
  · exact hw.decideBad hP g c
  · split
    · have hcopy : ((w.toEngine g).copyOut g).AllFrames fun x => x.id = f.id → x.decided = true := by
        unfold State.copyOut
        extract_lets op
        split
        · exact hx.toRing g _ _
        · split
          · exact hx.toRing g _ _
          · exact hx
      exact hcopy.discard g 11 4 none
    · split
      · exact State.AllFrames.discard (s := x.countDiscarded 1) hx g 11 4 none
      · split
        · refine State.AllFrames.outcome hP ?_ g c.view _
          split
          · exact hx.kept State.countParse_kept rfl
          · exact hx
        · exact hx.byAction hP hg c

theorem exec_pipeDecision {s : State} {i : Nat} {f : Frame} (hframe : s.frame i = some f) (hnew : f.decided = false) :
    exec (.pipeDecision i) s = .next (s.decide' f) := by
  show execPipeDecision i s = _
  simp only [execPipeDecision, hframe, hnew, Bool.false_eq_true, if_false]

/-! ### The check (spec/08 R249, R251) -/

theorem exec_fcsCheckDone_checked {s : State} {i : Nat} {f : Frame} (hframe : s.frame i = some f) (hnew : f.checked = false) :
    ∃ t, exec (.fcsCheckDone i) s = .next t ∧ t.AllFrames fun x => x.id = i → x.checked = true := by
  have hP : ∀ x y : Frame, x.mark = y.mark → (x.id = i → x.checked = true) → (y.id = i → y.checked = true) := by
    intro x y hxy hx hy
    obtain ⟨hid, -, hchecked⟩ := Frame.mark_eq_iff.1 hxy
    exact hchecked ▸ hx (hid.trans hy)
  refine ⟨_, rfl, ?_⟩
  simp only [hframe, hnew, Bool.false_eq_true, if_false]
  have hmarked : (s.modFrame i fun f => { f with checked := true }).AllFrames fun x => x.id = i → x.checked = true :=
    s.modFrame_allFrames fun _ => rfl
  have hbad := hmarked.badFrame f f.meas false
  split
  · exact hmarked
  · split
    · exact hbad.endFrame f.id
    · split
      · exact (((hbad.modFabric rfl).kept State.countPort_kept rfl).kept State.out_kept rfl).release hP _ _
      · exact (hbad.modFabric rfl).release hP _ _

/-- Settles O18: the line's errors leave what the MAC reads, the accounts of the buffer leave its frames, and what follows a decision or a check
keeps the marks of every frame that stays. -/
theorem frameIngress : Obligations.FrameIngress := by
  refine ⟨?good, ?undelimited, ?filtered, ?decision, ?check⟩
  case good =>
    intro s n f g l hup hport hframed hl hflags hlen hmax hctrl hpass hquiet hsample
    subst hl
    have hc : Counted s (s.macReached n f) := s.macReached_counted n f
    have hcg : Counted s ((s.macReached n f).countGood n g.bytes.length (castOf g.bytes)) := hc.countGood n _ _
    have hrx := State.macRx_of_good (st := s.captured n 0 g.st) hlen hctrl ((hc.passes n _ _).trans hpass) (hc.quiet.trans hquiet)
      ((hc.regs.fld (rowsApart_at rfl n.isLt rfl)).trans hsample)
    refine ⟨_, exec_frameRx_some hup hport hframed, ?_⟩
    simp only [hflags, hrx]
    obtain ⟨hbytes, hone⟩ := (s.macReached n f).countGood_portCnt n g.bytes.length (castOf g.bytes)
    obtain ⟨hframes, hlow⟩ := ((s.macReached n f).countGood n g.bytes.length (castOf g.bytes)).frameIn_shows
      (((s.macReached n f).countGood n g.bytes.length (castOf g.bytes)).rxFrame n g.bytes 0 (s.captured n 0 g.st) false)
    rw [hcg.fabric] at hframes
    refine ⟨⟨_, hframes, rfl, rfl, ?bytes, hcg.rxStamp n _, rfl, rfl⟩, ?countBytes, ?countFrame⟩
    case bytes => exact List.take_of_length_le ((hcg.maxFrame n).symm ▸ hmax)
    case countBytes => rw [hlow n 0 (by decide), hbytes, s.macReached_portCnt f n (by decide)]
    case countFrame => rw [hlow n 1 (by decide), hone, s.macReached_portCnt f n (by decide)]
  case undelimited =>
    intro s n f hup hport hframed
    exact ⟨_, exec_frameRx_none hup hport hframed, rfl⟩
  case filtered =>
    intro s n f g l hup hport hframed hl hlen hctrl hpass
    subst hl
    have hc : Counted s (s.macReached n f) := s.macReached_counted n f
    refine ⟨_, exec_frameRx_some hup hport hframed, ?_⟩
    simp only [State.macRx_of_filtered hlen hctrl ((hc.passes n _ _).trans hpass)]
    refine ⟨hc.fabric, ?_⟩
    rw [State.portCnt_countPort_other _ _ (by decide) (by decide), State.portCnt_countPort_same, s.macReached_portCnt f n (by decide)]
  case decision =>
    intro s i f hframe hnew
    have hall := s.decide'_allFrames f
    rw [State.frame_id hframe] at hall
    exact ⟨_, exec_pipeDecision hframe hnew, hall.frame⟩
  case check =>
    intro s i f hframe hnew
    obtain ⟨t, hexec, hall⟩ := exec_fcsCheckDone_checked hframe hnew
    exact ⟨t, hexec, hall.frame⟩

end Sys2Proof.Machine
end

section
/-!
Generations and fragments (spec/06 R186, R201 to R209): what a walk over the pipelines of a mask does in each of them, commits that wait,
PENDING as a copy of ACTIVE, and fragment records.
-/
namespace Sys2Proof.Machine
open Sys2Proof

/-! ### The pipelines of a mask -/

theorem maskIdx_nodup (n m : Nat) : (maskIdx n m).Nodup := List.nodup_range.filter _

theorem at1_ne {b n s p q : Nat} (hp : p < n) (hs : 0 < s) (hb : b + s * n ≤ RegMap.nowhere) (h : p ≠ q) :
    RegMap.at1 b n s p ≠ RegMap.at1 b n s q := by
  have hfits : s * (p + 1) ≤ s * n := Nat.mul_le_mul_left s hp
  rw [Nat.mul_succ] at hfits
  unfold RegMap.at1
  rw [if_pos hp]
  split
  · intro heq
    exact h (Nat.eq_of_mul_eq_mul_left hs (Nat.add_left_cancel heq))
  · omega

section each

variable {α β : Type} {f : State → α → State}

theorem State.each_unchanged {view : State → β} {l : List α} (h : ∀ v, ∀ a ∈ l, view (f v a) = view v) (s : State) :
    view (s.each l f) = view s := by
  induction l generalizing s with
  | nil => rfl
  | cons a l ih =>
    calc view ((f s a).each l f) = view (f s a) := ih (fun v b hb => h v b (List.mem_cons_of_mem a hb)) (f s a)
      _ = view s := h s a List.mem_cons_self

/-- In a walk over distinct elements, where the step of an element leaves the others' views alone, each view changes as its element's own step
changes it. -/
theorem State.each_own {view : State → α → β} {P : α → β → β → Prop} {l : List α} (hdistinct : l.Nodup)
    (hown : ∀ v, ∀ a ∈ l, P a (view v a) (view (f v a) a))
    (hother : ∀ v, ∀ a ∈ l, ∀ b ∈ l, a ≠ b → view (f v b) a = view v a) (s : State) : ∀ a ∈ l, P a (view s a) (view (s.each l f) a) := by
  induction l generalizing s with
  | nil => exact nofun
  | cons b l ih =>
    obtain ⟨hnew, hrest⟩ := List.nodup_cons.1 hdistinct
    intro a ha
    show P a (view s a) (view ((f s b).each l f) a)
    rcases List.mem_cons.1 ha with rfl | ha
    · have hlater : view ((f s a).each l f) a = view (f s a) a :=
        State.each_unchanged (view := fun v => view v a) (fun v b hb => hother v a List.mem_cons_self b (List.mem_cons_of_mem a hb)
          fun e => hnew (e ▸ hb)) _
      rw [hlater]
      exact hown s a List.mem_cons_self
    · have hbefore : view (f s b) a = view s a :=
        hother s a (List.mem_cons_of_mem b ha) b List.mem_cons_self fun e => hnew (e ▸ ha)
      rw [← hbefore]
      exact ih hrest (fun v c hc => hown v c (List.mem_cons_of_mem b hc))
        (fun v c hc d hd => hother v c (List.mem_cons_of_mem b hc) d (List.mem_cons_of_mem b hd)) (f s b) a ha

end each

/-! ### The parser's part of a pipeline -/

@[simp] theorem State.modParser_parser (s : State) (p : Nat) (f : ParserSt → ParserSt) :
    ((s.modParser p f).pipe p).parser = f (s.pipe p).parser := congrArg PipeSt.parser (State.pipe_modPipe ..)

theorem State.modParser_pipe_other (s : State) {p q : Nat} (f : ParserSt → ParserSt) (h : q ≠ p) : (s.modParser p f).pipe q = s.pipe q :=
  State.pipe_modPipe_other _ _ h

theorem Kept.pipe {L : List Part} {s t : State} (k : Kept L s t) (h : L.contains .pipes = false) (p : Nat) : t.pipe p = s.pipe p := by
  have hpipes : t.pipes = s.pipes := k.same .pipes h
  simp only [State.pipe, hpipes]

@[simp] theorem State.setF_pipe (s : State) (f : Fld) (v p : Nat) : (s.setF f v).pipe p = s.pipe p := State.setF_kept.pipe rfl p

theorem State.fetched_pipe (s : State) (c : Cmd) (p : Nat) : (s.fetched c).pipe p = s.pipe p := State.fetched_kept.pipe rfl p

/-- The forwarding tables are no part of the parser's state. -/
theorem State.modFwd_parser (s : State) (p q : Nat) (f : FwdSt → FwdSt) : ((s.modFwd p f).pipe q).parser = (s.pipe q).parser := by
  by_cases h : q = p
  · subst h
    simp only [State.modFwd, State.pipe_modPipe]
  · simp only [State.modFwd, State.pipe_modPipe_other _ _ h]

/-! ### A commit that waits (spec/06 R201) -/

/-- The commit that command `c` asks for, as it waits under id `i`. -/
def commitWaitOf (c : Cmd) (i : Nat) : CommitWait :=
  { id := i, pipes := maskIdx 4 (c.fld 0 1), name := boundaryName (c.fld 4 6) (c.fld 10 4), allOrNone := c.fld 1 1 == 1 }

/-- The pipelines of a list show that a commit waits. -/
def State.showWaits (s : State) (ps : List Nat) : State := s.each ps fun s p => s.setF (F.pipeGenStatus_COMMIT_WAIT p) 1

/-- Command `c` is parked until the boundary of its commit. -/
def State.commitParked (s : State) (c : Cmd) : State :=
  let u := (s.park c 0x0401).showWaits (maskIdx 4 (c.fld 0 1))
  { u with pipes := { u.pipes with commits := u.pipes.commits ++ [commitWaitOf c s.host.nextId] } }

theorem exec_genCommit {s : State} {c : Cmd} (htakes : s.takes c 0x0401 = true) (hok : c.ok 16 [(2, 2), (14, 2)] = true) (hmask : c.fld 0 1 < 16)
    (hmode : c.fld 1 1 < 2) (hname : s.nameOk (c.fld 10 4) (boundaryName (c.fld 4 6) (c.fld 10 4)) = true)
    (hfree : ∀ p ∈ maskIdx 4 (c.fld 0 1), (s.fetched c).flag (F.pipeGenStatus_COMMIT_WAIT p) = false) :
    exec (.genCommit c) s = .next ((s.fetched c).commitParked c) := by
  have hnone : ((maskIdx 4 (c.fld 0 1)).any fun p => (s.fetched c).flag (F.pipeGenStatus_COMMIT_WAIT p)) = false :=
    List.any_eq_false.2 fun p hp => by rw [hfree p hp]; exact Bool.false_ne_true
  show execGenCommit c s = _
  rw [execGenCommit, start_takes htakes (by simp [hok, hmask, hmode, hname])]
  simp only [hnone, Bool.false_eq_true, if_false]
  rfl

theorem State.commitParked_commits (s : State) (c : Cmd) :
    (s.commitParked c).pipes.commits = s.pipes.commits ++ [commitWaitOf c s.host.nextId] := by
  have hpipes : ((s.park c 0x0401).showWaits (maskIdx 4 (c.fld 0 1))).pipes = s.pipes :=
    State.each_unchanged (view := State.pipes) (fun v p _ => v.setF_pipes (F.pipeGenStatus_COMMIT_WAIT p) 1) (s.park c 0x0401)
  exact congrArg (fun x : PipesSt => x.commits ++ _) hpipes

theorem State.showWaits_flag (s : State) {ps : List Nat} (hdistinct : ps.Nodup) (hpipes : ∀ p ∈ ps, p < 4) :
    ∀ p ∈ ps, (s.showWaits ps).flag (F.pipeGenStatus_COMMIT_WAIT p) = true := by
  have hset : ∀ p ∈ ps, (s.showWaits ps).fld (F.pipeGenStatus_COMMIT_WAIT p) = 1 :=
    State.each_own (view := fun v p => v.fld (F.pipeGenStatus_COMMIT_WAIT p)) (P := fun _ _ y => y = 1) hdistinct
      (fun v p _ => v.fld_setF_of_lt (show 5 + 1 ≤ 32 by decide) (show 1 < 2 ^ 1 by decide))
      (fun v p hp q _ hne => v.fld_setF_reg _ (at1_ne (hpipes p hp) (by decide) (by decide) hne)) s
  exact fun p hp => congrArg (· != 0) (hset p hp)

/-! ### PENDING as a copy of ACTIVE (spec/06 R202, R205) -/

/-- Of default action and parse program, `y` holds in PENDING what `x` holds in ACTIVE. -/
def ParserSt.PendingCopies (x y : ParserSt) : Prop := y.defPend = x.defAct ∧ y.progPend = x.progAct

theorem State.showGen_pipe (s : State) (p q : Nat) : (s.showGen p).pipe q = s.pipe q := State.showGen_kept.pipe rfl q
theorem State.showLpm_pipe (s : State) (p q : Nat) : (s.showLpm p).pipe q = s.pipe q := State.showLpm_kept.pipe rfl q

theorem State.discardPipe_copies (s : State) (p : Nat) :
    ParserSt.PendingCopies (s.pipe p).parser ((s.discardPipe p).pipe p).parser := by
  simp only [State.discardPipe, State.showLpm_pipe, State.showGen_pipe, State.modParser_parser, State.pipe_modPipe]
  exact ⟨rfl, rfl⟩

theorem State.discardPipe_pipe_other (s : State) {p q : Nat} (h : q ≠ p) : (s.discardPipe p).pipe q = s.pipe q := by
  simp only [State.discardPipe, State.showLpm_pipe, State.showGen_pipe, State.modParser_pipe_other _ _ h,
    State.pipe_modPipe_other _ _ h]

theorem exec_genDiscard {s : State} {c : Cmd} (htakes : s.takes c 0x0402 = true) (hok : c.ok 1 = true) (hmask : c.fld 0 1 < 16)
    (hopen : ∀ p ∈ maskIdx 4 (c.fld 0 1), (s.fetched c).pendOpen p = true) :
    exec (.genDiscard c) s = .next (((s.fetched c).each (maskIdx 4 (c.fld 0 1)) State.discardPipe).complete c 0x0402 st.ok) := by
  show execGenDiscard c s = _
  rw [execGenDiscard, start_takes htakes (by simp [hok, hmask])]
  simp only [List.all_eq_true.2 hopen, if_true]

/-! ### The end of DRAINING (spec/06 R202) -/

/-- DRAINING of pipeline `p` is cleared and PENDING opens as a copy of ACTIVE. -/
def State.drainOpened (s : State) (p : Nat) : State :=
  (((s.modPipe p fun x => x.review drainView).modParser p fun x =>
    { x with defPend := x.defAct, progPend := x.progAct, defDrain := 0, progDrain := none }).setF (F.pipeGenStatus_DRN_VALID p) 0).setF
      (F.pipeGenStatus_PEND_OPEN p) 1

/-- What shows of the opened generation, without the learned entries that static ones replace. -/
def State.genDrained (s : State) (p : Nat) : State := (((s.drainOpened p).showGen p).dropShadowed p).showLpm p

theorem exec_genDrained {s : State} {p : Fin 4} (hvalid : s.drnValid p = true) (hcount : s.fld (F.pipeGenDrain_COUNT p) = 0) :
    exec (.genDrained p) s = .next ((s.genDrained p).raise 0x0402 16 [(0, 1, p.val), (1, 1, (s.genDrained p).fld (F.pipeGenStatus_DRAINING p)),
      (4, 4, ((s.genDrained p).time.tick - ((s.genDrained p).pipe p).parser.commitTick) * 5 / 8)]) := by
  have hguard : (s.drnValid p && s.fld (F.pipeGenDrain_COUNT p) == 0) = true := by simp [hvalid, hcount]
  exact congrArg Host.Outcome.next (if_pos hguard)

theorem State.drainOpened_parser (s : State) (p : Nat) :
    ParserSt.PendingCopies (s.pipe p).parser ((s.drainOpened p).pipe p).parser ∧ ((s.drainOpened p).pipe p).parser.progDrain = none := by
  simp only [State.drainOpened, State.setF_pipe, State.modParser_parser, State.pipe_modPipe]
  exact ⟨⟨rfl, rfl⟩, trivial⟩

theorem State.drainOpened_status (s : State) (p : Nat) :
    (s.drainOpened p).drnValid p = false ∧ (s.drainOpened p).pendOpen p = true := by
  constructor
  · have hcleared : (s.drainOpened p).fld (F.pipeGenStatus_DRN_VALID p) = 0 :=
      (State.fld_setF_sep _ _ rfl).trans (State.fld_setF_of_lt _ (show 7 + 1 ≤ 32 by decide) (show 0 < 2 ^ 1 by decide))
    exact congrArg (· != 0) hcleared
  · have hset : (s.drainOpened p).fld (F.pipeGenStatus_PEND_OPEN p) = 1 :=
      State.fld_setF_of_lt _ (show 6 + 1 ≤ 32 by decide) (show 1 < 2 ^ 1 by decide)
    exact congrArg (· != 0) hset

theorem State.limitArm_parser (s : State) (p i q : Nat) : ((s.limitArm p i).pipe q).parser = (s.pipe q).parser := by
  unfold State.limitArm State.when
  split
  · exact s.modFwd_parser _ _ _
  · rfl

theorem State.portCount_parser (s : State) (p port : Nat) (up : Bool) (q : Nat) : ((s.portCount p port up).pipe q).parser = (s.pipe q).parser := by
  unfold State.portCount
  split
  · rfl
  · exact State.limitArm_parser _ _ _ _

theorem State.macRemove_parser (s : State) (p i q : Nat) : ((s.macRemove p i).pipe q).parser = (s.pipe q).parser := by
  unfold State.macRemove
  split
  · rfl
  · extract_lets u v
    have hcount : (v.pipe q).parser = (u.pipe q).parser := by
      unfold v
      split
      · exact u.portCount_parser _ _ _ _
      · rfl
    exact (congrArg PipeSt.parser (State.showMac_kept.pipe rfl q)).trans (hcount.trans (s.modFwd_parser _ _ _))

theorem State.dropShadowed_parser (s : State) (p q : Nat) : ((s.dropShadowed p).pipe q).parser = (s.pipe q).parser :=
  State.each_unchanged (view := fun v => (v.pipe q).parser) (fun v _ _ => v.macRemove_parser _ _ _) s

theorem State.genDrained_parser (s : State) (p : Nat) : ((s.genDrained p).pipe p).parser = ((s.drainOpened p).pipe p).parser := by
  simp only [State.genDrained, State.showLpm_pipe, State.dropShadowed_parser, State.showGen_pipe]

theorem State.genDrained_writes (s : State) (p : Nat) :
    Writes [Reg.pipeProgVer 0, Reg.pipeWinStatus 0, Reg.pipeMacUsed 0, Reg.pipeLpmUsed 0, Reg.pipeLearnLimit 0 0, Reg.pipeTwinStatus 0]
      (s.drainOpened p) (s.genDrained p) :=
  .step State.showLpm_writes rfl (.step State.dropShadowed_writes rfl (.step State.showGen_writes rfl .refl))

theorem State.genDrained_status (s : State) (p : Fin 4) : (s.genDrained p).drnValid p = false ∧ (s.genDrained p).pendOpen p = true := by
  obtain ⟨hdraining, hpending⟩ := s.drainOpened_status p
  exact ⟨((s.genDrained_writes p).flag (rowsApart_at rfl p.isLt rfl)).trans hdraining,
    ((s.genDrained_writes p).flag (rowsApart_at rfl p.isLt rfl)).trans hpending⟩

/-! ### Parse programs (spec/06 R186) -/

theorem exec_parseLoad {s : State} {c : Cmd} {prog : ParseProg} {crcOk : Bool} (htakes : s.takes c 0x0403 = true) (hok : c.ok 16 [(1, 3)] = true)
    (hmask : c.fld 0 1 < 16) (hmin : 64 ≤ c.fld 4 4) (hmax : c.fld 4 4 ≤ 16448) (hbuf : s.bufOk c.src (c.fld 8 8) (c.fld 4 4) = true)
    (hvalid : prog.valid crcOk = true) (hopen : ∀ p ∈ maskIdx 4 (c.fld 0 1), (s.fetched c).pendOpen p = true) :
    exec (.parseLoad c prog crcOk) s = .next (((s.fetched c).each (maskIdx 4 (c.fld 0 1)) fun s p =>
      s.modParser p fun x => { x with progPend := some prog }).complete c 0x0403 st.ok) := by
  show execParseLoad c prog crcOk s = _
  rw [execParseLoad, start_takes htakes (by simp [hok, hmask, hmin, hmax, hbuf, hvalid])]
  simp only [List.all_eq_true.2 hopen, if_true]

/-! ### Fragment records (spec/06 R203 to R205, R209) -/

theorem State.showFrag_frags (s : State) (p q : Nat) : ((s.showFrag p).pipe q).parser.frags = (s.pipe q).parser.frags := by
  unfold State.showFrag
  extract_lets n fell u
  split
  · by_cases h : q = p
    · subst h
      rw [State.modParser_parser]
      rfl
    · rw [State.modParser_pipe_other _ _ h]
      rfl
  · rfl

theorem State.showFrag_used (s : State) {p : Nat} (h : (s.pipe p).parser.frags.length < 2048) :
    (s.showFrag p).fld (F.pipeFragStatus_USED p) = (s.pipe p).parser.frags.length := by
  have hset := s.fld_setF_of_lt (f := F.pipeFragStatus_USED p) (show 0 + 11 ≤ 32 by decide) h
  unfold State.showFrag
  extract_lets n fell u
  split <;> exact hset

theorem State.showFrag_used_other (s : State) {p q : Nat} (hq : q < 4) (h : q ≠ p) :
    (s.showFrag p).fld (F.pipeFragStatus_USED q) = s.fld (F.pipeFragStatus_USED q) := by
  have hset := s.fld_setF_reg (f := F.pipeFragStatus_USED p) (g := F.pipeFragStatus_USED q) (s.pipe p).parser.frags.length
    (at1_ne hq (by decide) (by decide) h)
  unfold State.showFrag
  extract_lets n fell u
  split <;> exact hset

/-- Pipeline `p` holds no fragment record. -/
def State.flushFrags (s : State) (p : Nat) : State := (s.modParser p fun x => { x with frags := [] }).showFrag p

theorem State.flushFrags_shows (s : State) (p : Nat) :
    ((s.flushFrags p).pipe p).parser.frags = [] ∧ (s.flushFrags p).fld (F.pipeFragStatus_USED p) = 0 := by
  have hnone : ((s.modParser p fun x => { x with frags := [] }).pipe p).parser.frags = [] := by rw [State.modParser_parser]
  have hlen := congrArg List.length hnone
  refine ⟨(State.showFrag_frags _ _ _).trans hnone, ?_⟩
  exact (State.showFrag_used _ (by rw [hlen]; decide)).trans hlen

theorem State.flushFrags_other (s : State) {p q : Nat} (hq : q < 4) (h : q ≠ p) :
    ((s.flushFrags p).pipe q).parser.frags = (s.pipe q).parser.frags ∧
      (s.flushFrags p).fld (F.pipeFragStatus_USED q) = s.fld (F.pipeFragStatus_USED q) := by
  refine ⟨?_, State.showFrag_used_other _ hq h⟩
  rw [State.flushFrags, State.showFrag_frags, State.modParser_pipe_other _ _ h]

theorem exec_fragFlush {s : State} {c : Cmd} (htakes : s.takes c 0x0404 = true) (hok : c.ok 1 = true) (hmask : c.fld 0 1 < 16) :
    exec (.fragFlush c) s = .next (((s.fetched c).each (maskIdx 4 (c.fld 0 1)) State.flushFrags).complete c 0x0404 st.ok) := by
  show execFragFlush c s = _
  rw [execFragFlush, start_takes htakes (by simp [hok, hmask])]
  rfl

theorem exec_fragExpire {s : State} {p : Fin 4} {i : Fin 1024} (hover : (Tab.find i (s.pipe p).parser.frags).any (s.fragOver p) = true) :
    exec (.fragExpire p i) s = .next (((s.modParser p fun x => { x with frags := Tab.del i x.frags }).showFrag p).countParse p 12) :=
  congrArg Host.Outcome.next (if_pos hover)

/-- Settles O14: a command acts in each pipeline of its mask as if on that one alone (`State.each_own`), and what follows the end of DRAINING
leaves the parser and GEN_STATUS as they were opened. -/
theorem generations : Obligations.Generations := by
  refine ⟨?commit, ?drained, ?discard, ?load, ?flush, ?expire⟩
  case commit =>
    intro s c htakes hok hmask hmode hname hfree
    exact ⟨_, exec_genCommit htakes hok hmask hmode hname hfree, State.commitParked_commits _ _,
      State.showWaits_flag _ (maskIdx_nodup _ _) fun _ => maskIdx_lt⟩
  case drained =>
    intro s p hvalid hcount
    obtain ⟨hdraining, hpending⟩ := s.genDrained_status p
    obtain ⟨⟨hdefault, hprogram⟩, hnone⟩ := s.drainOpened_parser p
    refine ⟨_, exec_genDrained hvalid hcount, (State.raise_writes.flag (rowsApart_at rfl p.isLt rfl)).trans hdraining,
      (State.raise_writes.flag (rowsApart_at rfl p.isLt rfl)).trans hpending, ?_⟩
    rw [State.raise_kept.pipe rfl, s.genDrained_parser p]
    exact ⟨hdefault, hprogram, hnone⟩
  case discard =>
    intro s c htakes hok hmask hopen
    refine ⟨_, exec_genDiscard htakes hok hmask hopen, _, _, _, _, _, rfl, ?_⟩
    have hcopies := State.each_own (view := fun v p => (v.pipe p).parser) (P := fun _ => ParserSt.PendingCopies) (f := State.discardPipe)
      (maskIdx_nodup 4 (c.fld 0 1)) (fun v p _ => v.discardPipe_copies p)
      (fun v p _ q _ hne => congrArg PipeSt.parser (v.discardPipe_pipe_other hne)) (s.fetched c)
    intro p hp
    rw [← s.fetched_pipe c p]
    exact hcopies p hp
  case load =>
    intro s c prog crcOk htakes hok hmask hmin hmax hbuf hvalid hopen
    refine ⟨_, exec_parseLoad htakes hok hmask hmin hmax hbuf hvalid hopen, _, _, _, _, _, rfl, ?_⟩
    exact State.each_own (view := fun v p => (v.pipe p).parser) (P := fun _ _ y => y.progPend = some prog) (maskIdx_nodup 4 (c.fld 0 1))
      (fun v p _ => congrArg ParserSt.progPend (v.modParser_parser p _))
      (fun v p _ q _ hne => congrArg PipeSt.parser (v.modParser_pipe_other _ hne)) (s.fetched c)
  case flush =>
    intro s c htakes hok hmask
    refine ⟨_, exec_fragFlush htakes hok hmask, _, _, _, _, _, rfl, ?_⟩
    exact State.each_own (view := fun v p => ((v.pipe p).parser.frags, v.fld (F.pipeFragStatus_USED p))) (P := fun _ _ y => y.1 = [] ∧ y.2 = 0)
      (maskIdx_nodup 4 (c.fld 0 1)) (fun v p _ => v.flushFrags_shows p)
      (fun v p hp q _ hne => Prod.ext_iff.2 (v.flushFrags_other (maskIdx_lt hp) hne)) (s.fetched c)
  case expire =>
    intro s p i hover
    refine ⟨_, exec_fragExpire hover, ?_⟩
    have hfrags : (((s.modParser p fun x => { x with frags := Tab.del i x.frags }).showFrag p).pipe p).parser.frags =
        Tab.del i (s.pipe p).parser.frags := by
      rw [State.showFrag_frags, State.modParser_parser]
    exact (congrArg (fun x : PipeSt => x.parser.frags) (State.countParse_kept.pipe rfl p)).trans hfrags

end Sys2Proof.Machine
end

section
/-!
The parser's window on the TCAM (spec/06 R200, R210): an access stores WIN_CTRL, which no data word shares, and what the operation shows and changes.
-/
namespace Sys2Proof.Machine
open Sys2Proof

/-! ### The window's registers -/

theorem pipeWinData_ne {p i : Nat} (hp : p < 4) (hi : i < 64) {j : Nat} (h : i ≠ j) : Reg.pipeWinData p i ≠ Reg.pipeWinData p j := by
  unfold Reg.pipeWinData RegMap.at2 RegMap.nowhere
  split <;> split <;> omega

theorem pipeWinData_ne_pipeWinCtrl {p i : Nat} (hp : p < 4) (hi : i < 64) : Reg.pipeWinData p i ≠ Reg.pipeWinCtrl p := by
  simp only [Reg.pipeWinData, Reg.pipeWinCtrl, RegMap.at1, RegMap.at2, hp, hi, and_self, if_true]
  omega

theorem pipeWinData_ne_pipeWinStatus {p i : Nat} (hp : p < 4) (hi : i < 64) : Reg.pipeWinData p i ≠ Reg.pipeWinStatus p := by
  simp only [Reg.pipeWinData, Reg.pipeWinStatus, RegMap.at1, RegMap.at2, hp, hi, and_self, if_true]
  omega

theorem pipeGenStatus_ne_pipeWinCtrl {p : Nat} (hp : p < 4) : Reg.pipeGenStatus p ≠ Reg.pipeWinCtrl p := by
  simp only [Reg.pipeGenStatus, Reg.pipeWinCtrl, RegMap.at1, hp, if_true]
  omega

/-! ### Data words and result -/

theorem State.setWin_data (s : State) {p n : Nat} (hp : p < 4) (hn : n ≤ 64) (v : Nat) :
    ∀ i < n, (s.setWin p n v).reg (Reg.pipeWinData p i) = BitVec.ofNat 32 (v / 2 ^ (32 * i)) := by
  have hwords := State.each_own (view := fun u i => u.reg (Reg.pipeWinData p i)) (P := fun i _ y => y = BitVec.ofNat 32 (v / 2 ^ (32 * i)))
    (f := fun u i => u.setReg (Reg.pipeWinData p i) (BitVec.ofNat 32 (v / 2 ^ (32 * i)))) (List.nodup_range (n := n))
    (fun u i _ => u.reg_setReg_same _ _)
    (fun u i hi j _ hne => u.reg_setReg_other _ (pipeWinData_ne hp (Nat.lt_of_lt_of_le (List.mem_range.1 hi) hn) hne)) s
  exact fun i hi => hwords i (List.mem_range.2 hi)

theorem State.winErr_err (s : State) (p : Nat) {e : Nat} (he : e < 4) : (s.winErr p e).fld (F.pipeWinStatus_ERR p) = e :=
  s.fld_setF_of_lt (show 1 + 2 ≤ 32 by decide) he

theorem State.winErr_data (s : State) {p i : Nat} (hp : p < 4) (hi : i < 64) (e : Nat) :
    (s.winErr p e).reg (Reg.pipeWinData p i) = s.reg (Reg.pipeWinData p i) := s.reg_setF_other _ (pipeWinData_ne_pipeWinStatus hp hi)

/-! ### An operation starts: WIN_CTRL is stored -/

/-- WIN_CTRL of pipeline `p` has been stored. -/
def State.winStored (s : State) (p : Nat) (w : Word) : State := s.putRw (Reg.pipeWinCtrl p) w

theorem State.winStored_pipe (s : State) (p : Nat) (w : Word) (q : Nat) : (s.winStored p w).pipe q = s.pipe q := State.putRw_kept.pipe rfl q

theorem State.winStored_pendOpen (s : State) {p : Nat} (hp : p < 4) (w : Word) : (s.winStored p w).pendOpen p = s.pendOpen p :=
  congrArg (· != 0) (s.fld_putRw_other _ w (pipeGenStatus_ne_pipeWinCtrl hp))

theorem State.winStored_winWords (s : State) {p : Nat} (hp : p < 4) (w : Word) : (s.winStored p w).winWords p = s.winWords p := by
  have hword : ∀ i ∈ List.range 44, (s.winStored p w).reg (Reg.pipeWinData p i) = s.reg (Reg.pipeWinData p i) := fun i hi =>
    s.reg_setReg_other _ (pipeWinData_ne_pipeWinCtrl hp (Nat.lt_trans (List.mem_range.1 hi) (by decide)))
  exact List.foldl_rel (r := Eq) rfl fun i hi _ _ hsum => by rw [hsum, hword i hi]

section

variable {s : State} {p : Fin 4} {w : Word} (hup : s.up = true) (hgo : (F.pipeWinCtrl_GO p).of w = 1)
include hup hgo

theorem exec_winRead : exec (.winRead p w) s =
    .next ((s.winStored p w).winRead p ((F.pipeWinCtrl_TARGET p).of w) ((F.pipeWinCtrl_VIEW p).of w) ((F.pipeWinCtrl_INDEX p).of w)) := by
  show execWinRead p w s = _
  simp only [execWinRead, hup, if_true, State.winCtrl, hgo, Nat.one_ne_zero, if_false, State.winStored]

theorem exec_winWrite : exec (.winWrite p w) s =
    .next ((s.winStored p w).winWrite p ((F.pipeWinCtrl_TARGET p).of w) ((F.pipeWinCtrl_INDEX p).of w)) := by
  show execWinWrite p w s = _
  simp only [execWinWrite, hup, if_true, State.winCtrl, hgo, Nat.one_ne_zero, if_false, State.winStored]

theorem exec_winRemove : exec (.winRemove p w) s =
    .next ((s.winStored p w).winRemove p ((F.pipeWinCtrl_TARGET p).of w) ((F.pipeWinCtrl_INDEX p).of w)) := by
  show execWinRemove p w s = _
  simp only [execWinRemove, hup, if_true, State.winCtrl, hgo, Nat.one_ne_zero, if_false, State.winStored]

end

/-! ### The operations on the TCAM, which is target 0 -/

theorem State.winRead_tcam {s : State} {p i v : Nat} {e : TcamEntry} (hentry : Tab.find i (s.pipe p).parser.tcam = some e)
    (hview : inView e.view v = true) : s.winRead p 0 v i = (s.setWin p 43 (wordsOfTcam e)).winErr p 0 := by
  simp only [State.winRead, hentry, hview, if_true]

theorem State.winRead_tcam_none {s : State} {p i : Nat} (hfree : Tab.find i (s.pipe p).parser.tcam = none) (v : Nat) :
    s.winRead p 0 v i = s.winErr p 3 := by
  simp only [State.winRead, hfree]

theorem State.winWrite_tcam {s : State} {p i : Nat} (hopen : s.pendOpen p = true) (hfree : Tab.find i (s.pipe p).parser.tcam = none) :
    s.winWrite p 0 i = (s.modParser p fun x => { x with tcam := Tab.ins i (tcamOfWords (s.winWords p)) x.tcam }).winErr p 0 := by
  simp only [State.winWrite, hopen, hfree, Bool.not_true, Bool.false_eq_true, if_false, Option.isSome_none]

/-- An entry that only PENDING holds leaves the table. -/
theorem State.winRemove_tcam {s : State} {p i : Nat} {e : TcamEntry} (hopen : s.pendOpen p = true)
    (hentry : Tab.find i (s.pipe p).parser.tcam = some e) (hview : e.view = 1) :
    s.winRemove p 0 i = (s.modParser p fun x => { x with tcam := Tab.del i (s.pipe p).parser.tcam }).winErr p 0 := by
  have hpending : inView e.view 0 = true := by rw [hview]; decide
  have honly : e.view &&& 6 = 0 := by rw [hview]; decide
  simp only [State.winRemove, hopen, hentry, hpending, honly, Bool.not_true, Bool.false_eq_true, if_false, if_true]

/-- Settles O15: the operation finds the pipeline, PENDING and the data words as they were before WIN_CTRL was stored. -/
theorem parserWindow : Obligations.ParserWindow := by
  refine ⟨?read, ?readNone, ?write, ?remove⟩
  case read =>
    intro s p w e hup hgo htarget hentry hview
    have hread := State.winRead_tcam (s := s.winStored p w) hentry hview
    refine ⟨_, exec_winRead hup hgo, ?_⟩
    rw [htarget, hread]
    refine ⟨State.winErr_err _ _ (by decide), fun i hi => ?_⟩
    rw [State.winErr_data _ p.isLt (Nat.lt_trans hi (by decide)), State.setWin_data _ p.isLt (by decide) _ i hi]
  case readNone =>
    intro s p w hup hgo htarget hfree
    have hread := State.winRead_tcam_none (s := s.winStored p w) hfree ((F.pipeWinCtrl_VIEW p).of w)
    refine ⟨_, exec_winRead hup hgo, ?_⟩
    rw [htarget, hread]
    exact State.winErr_err _ _ (by decide)
  case write =>
    intro s p w hup hgo htarget hopen hfree
    have hwrite := State.winWrite_tcam (s := s.winStored p w) ((s.winStored_pendOpen p.isLt w).trans hopen) hfree
    refine ⟨_, exec_winWrite hup hgo, ?_⟩
    rw [htarget, hwrite, s.winStored_winWords p.isLt]
    refine ⟨?_, State.winErr_err _ _ (by decide)⟩
    rw [State.winErr_kept.pipe rfl, State.modParser_parser, State.winStored_pipe]
  case remove =>
    intro s p w e hup hgo htarget hopen hentry hview
    have hremove := State.winRemove_tcam (s := s.winStored p w) ((s.winStored_pendOpen p.isLt w).trans hopen) hentry hview
    refine ⟨_, exec_winRemove hup hgo, ?_⟩
    rw [htarget, hremove]
    refine ⟨?_, State.winErr_err _ _ (by decide)⟩
    rw [State.winErr_kept.pipe rfl, State.modParser_parser, State.winStored_pipe]

end Sys2Proof.Machine
end

section
/-!
The table window (spec/07 R238, R239): an access stores TWIN_CTRL, which leaves the tables, PENDING and the data words as they were; then what
each operation shows and changes.
-/
namespace Sys2Proof.Machine
open Sys2Proof

/-! ### The window's registers -/

theorem at1_ne_of_base {b b' n s i : Nat} (hi : i < n) (h : b ≠ b') : RegMap.at1 b n s i ≠ RegMap.at1 b' n s i := by
  simp only [RegMap.at1, hi, if_true]
  omega

theorem at2_ne_at1_of_base {b b' n s m r i j : Nat} (hi : i < n) (hj : j < m) (h : b + r * j ≠ b') :
    RegMap.at2 b n s m r i j ≠ RegMap.at1 b' n s i := by
  simp only [RegMap.at1, RegMap.at2, hi, hj, and_self, if_true]
  omega

theorem pipeTwinData_ne {p i : Nat} (hp : p < 4) (hi : i < 8) {j : Nat} (h : i ≠ j) : Reg.pipeTwinData p i ≠ Reg.pipeTwinData p j := by
  unfold Reg.pipeTwinData RegMap.at2 RegMap.nowhere
  split <;> split <;> omega

theorem pipeTwinData_ne_pipeTwinCtrl {p i : Nat} (hp : p < 4) (hi : i < 8) : Reg.pipeTwinData p i ≠ Reg.pipeTwinCtrl p :=
  at2_ne_at1_of_base hp hi (by omega)

theorem pipeTwinData_ne_pipeTwinStatus {p i : Nat} (hp : p < 4) (hi : i < 8) : Reg.pipeTwinData p i ≠ Reg.pipeTwinStatus p :=
  at2_ne_at1_of_base hp hi (by omega)

/-! ### Data words and result -/

theorem State.twinErr_err (s : State) (p : Nat) {e : Nat} (he : e < 4) : (s.twinErr p e).fld (F.pipeTwinStatus_ERR p) = e :=
  s.fld_setF_of_lt (show 1 + 2 ≤ 32 by decide) he

theorem State.twinErr_data (s : State) {p i : Nat} (hp : p < 4) (hi : i < 8) (e : Nat) :
    (s.twinErr p e).reg (Reg.pipeTwinData p i) = s.reg (Reg.pipeTwinData p i) :=
  s.reg_setF_other _ (pipeTwinData_ne_pipeTwinStatus hp hi)

theorem State.twinErr_pipe (s : State) (p e q : Nat) : (s.twinErr p e).pipe q = s.pipe q := State.twinErr_kept.pipe rfl q

theorem State.showRec_data (s : State) {p : Nat} (hp : p < 4) (r : BitVec 192 × BitVec 3) :
    ∀ i < 6, (s.showRec p r).reg (Reg.pipeTwinData p i) = BitVec.ofNat 32 (r.1.toNat / 2 ^ (32 * i)) := by
  have hwords := State.each_own (view := fun u i => u.reg (Reg.pipeTwinData p i)) (P := fun i _ y => y = BitVec.ofNat 32 (r.1.toNat / 2 ^ (32 * i)))
    (f := fun u i => u.setReg (Reg.pipeTwinData p i) (BitVec.ofNat 32 (r.1.toNat / 2 ^ (32 * i)))) (List.nodup_range (n := 6))
    (fun u i _ => u.reg_setReg_same _ _)
    (fun u i hi j _ hne => u.reg_setReg_other _ (pipeTwinData_ne hp (Nat.lt_trans (List.mem_range.1 hi) (by decide)) hne)) s
  intro i hi
  have hview : Reg.pipeTwinData p i ≠ Reg.pipeTwinData p 7 := pipeTwinData_ne hp (by omega) (by omega)
  exact (State.reg_setF_other _ _ hview).trans (hwords i (List.mem_range.2 hi))

/-! ### An operation starts: TWIN_CTRL is stored -/

/-- TWIN_CTRL of pipeline `p` has been stored. -/
def State.twinStored (s : State) (p : Nat) (w : Word) : State := s.putRw (Reg.pipeTwinCtrl p) w

theorem State.twinStored_pipe (s : State) (p : Nat) (w : Word) (q : Nat) : (s.twinStored p w).pipe q = s.pipe q := State.putRw_kept.pipe rfl q

theorem State.twinStored_pendOpen (s : State) {p : Nat} (hp : p < 4) (w : Word) : (s.twinStored p w).pendOpen p = s.pendOpen p :=
  congrArg (· != 0) (s.fld_putRw_other _ w (at1_ne_of_base hp (by decide)))

theorem State.twinStored_twinWords (s : State) {p : Nat} (hp : p < 4) (w : Word) : (s.twinStored p w).twinWords p = s.twinWords p := by
  have hword : ∀ i ∈ List.range 6, (s.twinStored p w).reg (Reg.pipeTwinData p i) = s.reg (Reg.pipeTwinData p i) := fun i hi =>
    s.reg_setReg_other _ (pipeTwinData_ne_pipeTwinCtrl hp (Nat.lt_trans (List.mem_range.1 hi) (by decide)))
  exact congrArg (BitVec.ofNat 192) (List.foldl_rel (r := Eq) rfl fun i hi _ _ hsum => by rw [hsum, hword i hi])

theorem State.twinCtrl_go {s : State} {p : Nat} {w : Word} (hup : s.up = true) (hgo : (F.pipeTwinCtrl_GO p).of w = 1)
    (f : State → Nat → Nat → Nat → State) :
    s.twinCtrl p w f = f (s.twinStored p w) ((F.pipeTwinCtrl_TARGET p).of w) ((F.pipeTwinCtrl_VIEW p).of w) ((F.pipeTwinCtrl_INDEX p).of w) := by
  simp only [State.twinCtrl, hup, hgo, Bool.not_true, Bool.false_eq_true, Nat.one_ne_zero, if_false, State.twinStored]

/-! ### Records of the exact-match table, which is target 0 -/

@[simp] theorem State.modFwd_fwd (s : State) (p : Nat) (f : FwdSt → FwdSt) : ((s.modFwd p f).pipe p).fwd = f (s.pipe p).fwd :=
  congrArg PipeSt.fwd (State.pipe_modPipe ..)

/-- Slot `k` is free, and no slot of the index holds a record of PENDING. -/
theorem State.twinWrite_em {s : State} {p i k : Nat} (hi : i < 65536)
    (hnone : ((genSlots 0 i).any fun k => (Tab.find k (s.pipe p).fwd.em).any fun r => inView r.view 0) = false)
    (hslot : ((genSlots 0 i).find? fun k => (Tab.find k (s.pipe p).fwd.em).isNone) = some k) (w : BitVec 192) :
    s.twinWrite p 0 i w = (s.modFwd p fun x => { x with em := Tab.ins k ⟨w, 1⟩ x.em }, 0) := by
  have hrange : ¬(twinRange 0 ≤ i ∧ (0 : Nat) ≠ 1 ∧ (0 : Nat) ≠ 2) := fun h => Nat.not_le.2 hi h.1
  have htab : genTab (s.pipe p).fwd 0 = (s.pipe p).fwd.em := rfl
  rw [State.twinWrite, if_neg hrange, if_neg (by decide), if_neg (by decide), htab]
  simp only [hnone, hslot, Bool.false_eq_true, if_false]
  rfl

/-- Slot `k` of the index holds its record of PENDING. -/
theorem State.twinRemove_em {s : State} {p i k : Nat} (hi : i < 65536)
    (hslot : ((genSlots 0 i).find? fun k => (Tab.find k (s.pipe p).fwd.em).any fun r => inView r.view 0) = some k) (w : BitVec 192) :
    s.twinRemove p 0 i w = (s.modFwd p fun x => { x with em := clearPending x.em k }, 0) := by
  have hrange : ¬twinRange 0 ≤ i := Nat.not_le.2 hi
  have htab : genTab (s.pipe p).fwd 0 = (s.pipe p).fwd.em := rfl
  rw [State.twinRemove, if_neg (by decide), if_neg (by decide), if_neg hrange, htab, hslot]
  rfl

/-! ### A request joins the queue of the learn unit (spec/07 R226) -/

/-- The queue with request `q` behind the requests that are due no later than it. -/
def joinQueue (l : List LearnReq) (q : LearnReq) : List LearnReq :=
  (l.filter fun y => decide (y.due ≤ q.due)) ++ [q] ++ l.filter fun y => decide (q.due < y.due)

theorem joinQueue_length (l : List LearnReq) (q : LearnReq) : (joinQueue l q).length = l.length + 1 := by
  have hsplit := (List.filter_append_perm (fun y : LearnReq => decide (y.due ≤ q.due)) l).length_eq
  simp only [← decide_not, Nat.not_le, List.length_append] at hsplit
  simp only [joinQueue, List.length_append, List.length_singleton]
  omega

/-- Request `q` has joined the queue of pipeline `p`. -/
def State.queueJoined (s : State) (p : Nat) (q : LearnReq) : State := s.modFwd p fun x => { x with queue := joinQueue x.queue q }

theorem State.queueJoined_queue (s : State) (p : Nat) (q : LearnReq) :
    ((s.queueJoined p q).pipe p).fwd.queue = joinQueue (s.pipe p).fwd.queue q := by rw [State.queueJoined, State.modFwd_fwd]

theorem State.learnQueue_of_room {s : State} {p : Nat} (hroom : (s.pipe p).fwd.queue.length < 1024) (q : LearnReq) :
    s.learnQueue p q = (s.queueJoined p q).setF (F.pipeLearnStatus_QUEUED p) ((s.pipe p).fwd.queue.length + 1) := by
  have hlength : ((s.queueJoined p q).pipe p).fwd.queue.length = (s.pipe p).fwd.queue.length + 1 := by
    rw [State.queueJoined_queue, joinQueue_length]
  rw [← hlength]
  exact if_pos hroom

theorem State.learnQueue_shows {s : State} {p : Nat} (hroom : (s.pipe p).fwd.queue.length < 1024) (q : LearnReq) :
    ((s.learnQueue p q).pipe p).fwd.queue = joinQueue (s.pipe p).fwd.queue q ∧
      (s.learnQueue p q).fld (F.pipeLearnStatus_QUEUED p) = (s.pipe p).fwd.queue.length + 1 := by
  rw [State.learnQueue_of_room hroom, State.setF_pipe, State.queueJoined_queue]
  exact ⟨rfl, State.fld_setF_of_lt _ (show 0 + 11 ≤ 32 by decide) (show _ < 2048 by omega)⟩

/-! ### The operations -/

section

variable {s : State} {p : Fin 4} {w : Word} (hup : s.up = true) (hgo : (F.pipeTwinCtrl_GO p).of w = 1)
include hup hgo

theorem exec_twinRead {r : BitVec 192 × BitVec 3} (hrange : (F.pipeTwinCtrl_INDEX p).of w < twinRange ((F.pipeTwinCtrl_TARGET p).of w))
    (hrec : twinRead (s.pipe p).fwd ((F.pipeTwinCtrl_TARGET p).of w) ((F.pipeTwinCtrl_VIEW p).of w) ((F.pipeTwinCtrl_INDEX p).of w) = some r) :
    exec (.twinRead p w) s = .next (((s.twinStored p w).showRec p r).twinErr p 0) := by
  show Host.Outcome.next (s.twinReadOp p w) = _
  rw [State.twinReadOp, State.twinCtrl_go hup hgo, if_neg (Nat.not_le.2 hrange), s.twinStored_pipe, hrec]

theorem exec_twinWrite (hopen : s.pendOpen p = true) : exec (.twinWrite p w) s = .next
    (((s.twinStored p w).twinWrite p ((F.pipeTwinCtrl_TARGET p).of w) ((F.pipeTwinCtrl_INDEX p).of w) (s.twinWords p)).1.twinErr p
      ((s.twinStored p w).twinWrite p ((F.pipeTwinCtrl_TARGET p).of w) ((F.pipeTwinCtrl_INDEX p).of w) (s.twinWords p)).2) := by
  show Host.Outcome.next (s.twinWriteOp p w) = _
  rw [State.twinWriteOp, State.twinCtrl_go hup hgo, s.twinStored_pendOpen p.isLt, hopen, s.twinStored_twinWords p.isLt]
  rfl

theorem exec_twinRemove (hopen : s.pendOpen p = true) : exec (.twinRemove p w) s = .next
    (((s.twinStored p w).twinRemove p ((F.pipeTwinCtrl_TARGET p).of w) ((F.pipeTwinCtrl_INDEX p).of w) (s.twinWords p)).1.twinErr p
      ((s.twinStored p w).twinRemove p ((F.pipeTwinCtrl_TARGET p).of w) ((F.pipeTwinCtrl_INDEX p).of w) (s.twinWords p)).2) := by
  show Host.Outcome.next (s.twinRemoveOp p w) = _
  rw [State.twinRemoveOp, State.twinCtrl_go hup hgo, s.twinStored_pendOpen p.isLt, hopen, s.twinStored_twinWords p.isLt]
  rfl

theorem exec_twinLookup {i : Nat}
    (hfind : twinFind (s.pipe p).fwd ((F.pipeTwinCtrl_TARGET p).of w) ((F.pipeTwinCtrl_VIEW p).of w) (s.twinWords p) = some i) :
    exec (.twinLookup p w) s = .next (((s.twinStored p w).setReg (Reg.pipeTwinData p 6) (BitVec.ofNat 32 i)).twinErr p 0) := by
  show Host.Outcome.next (s.twinLookupOp p w) = _
  rw [State.twinLookupOp, State.twinCtrl_go hup hgo, s.twinStored_pipe, s.twinStored_twinWords p.isLt, hfind]

theorem exec_twinInject (htarget : (F.pipeTwinCtrl_TARGET p).of w = 2) :
    exec (.twinInject p w) s = .next (((s.twinStored p w).learnQueue p (s.reqOfWords (s.twinWords p))).twinErr p 0) := by
  have hreq : (s.twinStored p w).reqOfWords (s.twinWords p) = s.reqOfWords (s.twinWords p) := rfl
  show Host.Outcome.next (s.twinInjectOp p w) = _
  rw [State.twinInjectOp, State.twinCtrl_go hup hgo, if_pos htarget, s.twinStored_twinWords p.isLt, hreq]

end

/-- Settles O16: the operation finds the tables, PENDING and the data words as they were before TWIN_CTRL was stored; an injected request
is due at the present tick, and takes its place by that. -/
theorem tableWindow : Obligations.TableWindow := by
  refine ⟨?read, ?write, ?remove, ?lookup, ?inject⟩
  case read =>
    intro s p w r hup hgo hrange hrec
    refine ⟨_, exec_twinRead hup hgo hrange hrec, State.twinErr_err _ _ (by decide), fun i hi => ?_⟩
    rw [State.twinErr_data _ p.isLt (Nat.lt_trans hi (by decide)), State.showRec_data _ p.isLt r i hi]
  case write =>
    intro s p w k hup hgo htarget hopen hindex hnone hslot
    have hpipe := s.twinStored_pipe p w p
    have hwrite := State.twinWrite_em (s := s.twinStored p w) hindex (hpipe ▸ hnone) (hpipe ▸ hslot) (s.twinWords p)
    refine ⟨_, exec_twinWrite hup hgo hopen, ?_⟩
    rw [htarget, hwrite]
    refine ⟨?_, State.twinErr_err _ _ (show 0 < 4 by decide)⟩
    rw [State.twinErr_pipe, State.modFwd_fwd, hpipe]
  case remove =>
    intro s p w k hup hgo htarget hopen hindex hslot
    have hpipe := s.twinStored_pipe p w p
    have hremove := State.twinRemove_em (s := s.twinStored p w) hindex (hpipe ▸ hslot) (s.twinWords p)
    refine ⟨_, exec_twinRemove hup hgo hopen, ?_⟩
    rw [htarget, hremove]
    refine ⟨?_, State.twinErr_err _ _ (show 0 < 4 by decide)⟩
    rw [State.twinErr_pipe, State.modFwd_fwd, hpipe]
  case lookup =>
    intro s p w i hup hgo hfind
    refine ⟨_, exec_twinLookup hup hgo hfind, ?_, State.twinErr_err _ _ (by decide)⟩
    rw [State.twinErr_data _ p.isLt (by decide), State.reg_setReg_same]
  case inject =>
    intro s p w hup hgo htarget hroom
    have hpipe := s.twinStored_pipe p w p
    obtain ⟨hqueue, hqueued⟩ := State.learnQueue_shows (s := s.twinStored p w) (hpipe ▸ hroom) (s.reqOfWords (s.twinWords p))
    refine ⟨_, exec_twinInject hup hgo htarget, ?_, ?_⟩
    · rw [State.twinErr_pipe, hqueue, hpipe]
      rfl
    · exact (State.twinErr_writes.fld (rowsApart_at rfl p.isLt rfl)).trans (hpipe ▸ hqueued)

end Sys2Proof.Machine
end

section
/-!
Learning, ageing and flushing (spec/07 R226 to R231): what each step of the learn unit leaves of its queue, and what a removal leaves of the
MAC table.
-/
namespace Sys2Proof.Machine
open Sys2Proof

/-! ### The count of a port touches no more of the tables than the mark of its limit (spec/07 R227) -/

/-- Of the forwarding state of pipeline `p`, `t` differs from `s` at most in which limits have been raised. -/
def SameButLimits (p : Nat) (s t : State) : Prop := ∃ l, (t.pipe p).fwd = { (s.pipe p).fwd with limitRaised := l }

section

variable {p : Nat} {s t u : State}

theorem SameButLimits.refl : SameButLimits p s s := ⟨_, rfl⟩

theorem SameButLimits.trans (h : SameButLimits p s t) (k : SameButLimits p t u) : SameButLimits p s u := by
  obtain ⟨l, hl⟩ := h
  obtain ⟨m, hm⟩ := k
  exact ⟨m, by rw [hm, hl]⟩

theorem SameButLimits.of_kept {L : List Part} (k : Kept L s t) (h : L.contains .pipes = false) : SameButLimits p s t :=
  ⟨(s.pipe p).fwd.limitRaised, congrArg PipeSt.fwd (k.pipe h p)⟩

theorem SameButLimits.queue (h : SameButLimits p s t) : (t.pipe p).fwd.queue = (s.pipe p).fwd.queue := by
  obtain ⟨l, hl⟩ := h
  rw [hl]

theorem SameButLimits.mac (h : SameButLimits p s t) : (t.pipe p).fwd.mac = (s.pipe p).fwd.mac := by
  obtain ⟨l, hl⟩ := h
  rw [hl]

end

theorem State.limitArm_sameButLimits (s : State) (p i : Nat) : SameButLimits p s (s.limitArm p i) := by
  unfold State.limitArm State.when
  split
  · exact ⟨_, s.modFwd_fwd p _⟩
  · exact .refl

theorem State.portCount_sameButLimits (s : State) (p port : Nat) (up : Bool) : SameButLimits p s (s.portCount p port up) := by
  unfold State.portCount
  split
  · exact .refl
  · exact (SameButLimits.of_kept State.setF_kept rfl).trans (State.limitArm_sameButLimits _ _ _)

theorem State.portJoin_sameButLimits (s : State) (p port : Nat) : SameButLimits p s (s.portJoin p port) := by
  have hcount := s.portCount_sameButLimits p port true
  unfold State.portJoin
  extract_lets u lim
  split
  · exact hcount.trans (.trans ⟨_, u.modFwd_fwd p _⟩ (.of_kept State.raise_kept rfl))
  · exact hcount

/-! ### The queue of the learn unit (spec/07 R226) -/

/-- The queue of the learn unit of pipeline `p`. -/
def State.learnWaits (s : State) (p : Nat) : List LearnReq := (s.pipe p).fwd.queue

theorem State.learnWaits_modFwd (s : State) {p : Nat} {f : FwdSt → FwdSt} (h : ∀ x, (f x).queue = x.queue) :
    (s.modFwd p f).learnWaits p = s.learnWaits p := (congrArg FwdSt.queue (s.modFwd_fwd p f)).trans (h _)

theorem Kept.learnWaits {L : List Part} {s t : State} (k : Kept L s t) (h : L.contains .pipes = false) (p : Nat) :
    t.learnWaits p = s.learnWaits p := congrArg (fun x : PipeSt => x.fwd.queue) (k.pipe h p)

@[simp] theorem State.learnWaits_countFwd (s : State) (p q k n : Nat) : (s.countFwd q k n).learnWaits p = s.learnWaits p :=
  State.countFwd_kept.learnWaits rfl p

@[simp] theorem State.learnWaits_portCount (s : State) (p port : Nat) (up : Bool) : (s.portCount p port up).learnWaits p = s.learnWaits p :=
  (s.portCount_sameButLimits p port up).queue

@[simp] theorem State.learnWaits_portJoin (s : State) (p port : Nat) : (s.portJoin p port).learnWaits p = s.learnWaits p :=
  (s.portJoin_sameButLimits p port).queue

@[simp] theorem State.learnWaits_macMod (s : State) (p i : Nat) (f : MacEntry → MacEntry) : (s.macMod p i f).learnWaits p = s.learnWaits p :=
  State.learnWaits_modFwd _ fun x => by split <;> rfl

@[simp] theorem State.learnWaits_flap (s : State) (p : Nat) (e : MacEntry) (q : LearnReq) : (s.flap p e q).learnWaits p = s.learnWaits p :=
  (State.learnWaits_countFwd _ _ _ _ _).trans (State.learnWaits_modFwd _ fun _ => rfl)

@[simp] theorem State.learnWaits_macAdd (s : State) (p : Nat) (e : MacEntry) : (s.macAdd p e).1.learnWaits p = s.learnWaits p := by
  unfold State.macAdd
  split
  · rfl
  · exact (State.showMac_kept.learnWaits rfl p).trans ((State.moved_kept.learnWaits rfl p).trans (State.learnWaits_modFwd _ fun _ => rfl))

/-- MAC_TABLE_FULL is raised unless it has been since the last removal. -/
theorem State.learnWaits_full (s : State) (p code len : Nat) (fields : List (Nat × Nat × Nat)) :
    ((s.modFwd p fun x => { x with fullRaised := true }).raise code len fields).learnWaits p = s.learnWaits p :=
  (State.raise_kept.learnWaits rfl p).trans (State.learnWaits_modFwd _ fun _ => rfl)

/-- Serving a request queues none. -/
theorem State.learnWaits_learn (s : State) (p : Nat) (q : LearnReq) : (s.learn p q).learnWaits p = s.learnWaits p := by
  unfold State.learn
  extract_lets t now port damp
  split
  case isTrue hstatic => simp
  case isFalse hdynamic =>
    split
    next i e hlearned =>
      split
      case isTrue hsame => simp
      case isFalse hmoved =>
        extract_lets inside u v
        have hu : u.learnWaits p = s.learnWaits p := s.learnWaits_macMod p i _
        have hv : v.learnWaits p = s.learnWaits p := by
          unfold v
          split <;> simp [hu]
        split
        case isTrue hdamped => simp
        case isFalse hfree =>
          split
          case isTrue hlimit => rfl
          case isFalse hbelow => split <;> simp [hv]
    next hunknown =>
      split
      case isTrue hlimit => rfl
      case isFalse hbelow =>
        split
        next u added hadd =>
          have hu : u.learnWaits p = s.learnWaits p :=
            (congrArg (fun r : State × Bool => r.1.learnWaits p) hadd).symm.trans (s.learnWaits_macAdd p _)
          split
          case isTrue hadded => split <;> simp [hu]
          case isFalse hfull =>
            extract_lets v
            have hv : v.learnWaits p = s.learnWaits p := (u.learnWaits_countFwd p p 13 1).trans hu
            split
            case isTrue hraised => exact hv
            case isFalse hfirst => exact (v.learnWaits_full p _ _ _).trans hv

theorem State.serve_learnWaits {s : State} {p : Nat} {q : LearnReq} {rest : List LearnReq} (h : (s.pipe p).fwd.queue = q :: rest) :
    (s.serve p).learnWaits p = rest := by
  unfold State.serve
  split
  next q' rest' hcons =>
    extract_lets u t n
    obtain ⟨rfl, rfl⟩ := List.cons.inj (hcons.symm.trans h)
    have htaken : u.learnWaits p = rest' := congrArg FwdSt.queue (s.modFwd_fwd p _)
    have hserved : t.learnWaits p = rest' := by
      rw [show t = (u.setF (F.pipeLearnStatus_QUEUED p) rest'.length).learn p q' from rfl, State.learnWaits_learn,
        State.setF_kept.learnWaits rfl p, htaken]
    clear_value t
    rw [State.learnWaits_modFwd, hserved]
    exact fun _ => rfl
  next hnil => cases hnil.symm.trans h

theorem exec_learnServe {s : State} {p : Fin 4} (hup : s.up = true) (hfree : (s.pipe p).fwd.busyTo ≤ s.time.tick) :
    exec (.learnServe p) s = .next (s.serve p) := by
  have hguard : (s.up && decide ((s.pipe p).fwd.busyTo ≤ s.time.tick)) = true := by simp [hup, hfree]
  exact congrArg Host.Outcome.next (if_pos hguard)

/-! ### A visit of an entry (spec/07 R230) -/

/-- A learned entry after a visit at beat count `now`, with ageing on: its beat counts are kept in range; HIT is cleared and the age starts
anew where the entry was hit, else the age is one more. -/
def MacEntry.visited (e : MacEntry) (now : BitVec 32) : MacEntry :=
  { e with
    learnBeat := raiseBeat now e.learnBeat, confBeat := raiseBeat now e.confBeat, hit := false,
    age := if e.hit then 0 else min 3 (e.age + 1) }

theorem State.ageing_iff (s : State) (p : Nat) : s.ageing p = true ↔
    s.up = true ∧ s.quiet = false ∧ s.inDip = false ∧ s.replaced 3 = false ∧ s.fld (F.pipeFwdCfg_AGE_S p) ≠ 0 := by
  simp [State.ageing, and_assoc]

theorem exec_ageVisit {s : State} {p : Fin 4} {i : Nat} {e : MacEntry} (hentry : Tab.find i (s.pipe p).fwd.mac = some e) (hlearned : e.view = 0)
    (hageing : s.ageing p = true) : exec (.ageVisit p i) s = .next (s.macMod p i fun _ => e.visited s.time.beatCount) := by
  obtain ⟨hup, -, hdip, hcore, -⟩ := (s.ageing_iff p).1 hageing
  show execAgeVisit p i s = _
  simp only [execAgeVisit, hentry, hlearned, hup, hdip, hcore, hageing, ne_eq, not_true_eq_false, Bool.not_true, Bool.false_eq_true, or_self,
    if_false]
  cases hhit : e.hit <;> simp [MacEntry.visited, hlearned, hhit]

theorem State.macMod_mac {s : State} {p i : Nat} {e : MacEntry} (hentry : Tab.find i (s.pipe p).fwd.mac = some e) (f : MacEntry → MacEntry) :
    ((s.macMod p i f).pipe p).fwd.mac = Tab.ins i (f e) (s.pipe p).fwd.mac := by
  rw [State.macMod, State.modFwd_fwd, hentry]

/-! ### Removals (spec/07 R230, R231) -/

theorem Tab.del_of_find_none {α : Type} {k : Nat} {t : Tab α} (h : Tab.find k t = none) : Tab.del k t = t := by
  induction t with
  | nil => rfl
  | cons e t ih =>
    obtain ⟨a, v⟩ := e
    rw [Tab.find] at h
    split at h
    case isTrue hsame => cases h
    case isFalse hother =>
      have hrest := ih h
      simp only [Tab.del] at hrest ⊢
      rw [List.filter_cons_of_pos (by simpa using hother), hrest]

theorem State.macRemove_mac (s : State) (p i : Nat) : ((s.macRemove p i).pipe p).fwd.mac = Tab.del i (s.pipe p).fwd.mac := by
  unfold State.macRemove
  split
  next hnone => exact (Tab.del_of_find_none hnone).symm
  next e hentry =>
    extract_lets u v
    have hremoved : (u.pipe p).fwd.mac = Tab.del i (s.pipe p).fwd.mac := congrArg FwdSt.mac (s.modFwd_fwd p _)
    have hcount : SameButLimits p u v := by
      unfold v
      split
      · exact u.portCount_sameButLimits _ _ _
      · exact .refl
    exact (congrArg (fun x : PipeSt => x.fwd.mac) (State.showMac_kept.pipe rfl p)).trans (hcount.mac.trans hremoved)

theorem exec_ageRemove {s : State} {p : Fin 4} {i : Nat} {e : MacEntry} (hentry : Tab.find i (s.pipe p).fwd.mac = some e) (hlearned : e.view = 0)
    (hage : e.age = 3) (hhit : e.hit = false) (hageing : s.ageing p = true) :
    exec (.ageRemove p i) s = .next ((s.macRemove p i).countFwd p 12) := by
  show execAgeRemove p i s = _
  simp only [execAgeRemove, hentry, hlearned, hage, hhit, hageing, Bool.not_false, and_self, if_true]

/-- Of the pipelines' state, `t` differs from `s` at most in pipeline `p`. -/
structure OnlyPipe (p : Nat) (s t : State) : Prop where
  pipe : ∀ q, q ≠ p → t.pipe q = s.pipe q
  flush : t.pipes.flush = s.pipes.flush

section

variable {p : Nat} {s t u : State}

theorem OnlyPipe.refl : OnlyPipe p s s := ⟨fun _ _ => rfl, rfl⟩

theorem OnlyPipe.trans (h : OnlyPipe p s t) (k : OnlyPipe p t u) : OnlyPipe p s u :=
  ⟨fun q hq => (k.pipe q hq).trans (h.pipe q hq), k.flush.trans h.flush⟩

theorem OnlyPipe.of_kept {L : List Part} (k : Kept L s t) (h : L.contains .pipes = false) : OnlyPipe p s t :=
  ⟨fun q _ => k.pipe h q, congrArg PipesSt.flush (k.same .pipes h)⟩

theorem OnlyPipe.modFwd (s : State) (p : Nat) (f : FwdSt → FwdSt) : OnlyPipe p s (s.modFwd p f) :=
  ⟨fun _ hq => s.pipe_modPipe_other _ hq, rfl⟩

theorem OnlyPipe.each {α : Type} {f : State → α → State} (l : List α) (h : ∀ v a, OnlyPipe p v (f v a)) (s : State) :
    OnlyPipe p s (s.each l f) :=
  ⟨fun q hq => State.each_unchanged (view := fun v => v.pipe q) (fun v a _ => (h v a).pipe q hq) s,
    State.each_unchanged (view := fun v => v.pipes.flush) (fun v a _ => (h v a).flush) s⟩

end

theorem State.limitArm_onlyPipe (s : State) (p i : Nat) : OnlyPipe p s (s.limitArm p i) := by
  unfold State.limitArm State.when
  split
  · exact .modFwd _ _ _
  · exact .refl

theorem State.portCount_onlyPipe (s : State) (p port : Nat) (up : Bool) : OnlyPipe p s (s.portCount p port up) := by
  unfold State.portCount
  split
  · exact .refl
  · exact (OnlyPipe.of_kept State.setF_kept rfl).trans (State.limitArm_onlyPipe _ _ _)

theorem State.macRemove_onlyPipe (s : State) (p i : Nat) : OnlyPipe p s (s.macRemove p i) := by
  unfold State.macRemove
  split
  next hnone => exact .refl
  next e hentry =>
    extract_lets u v
    have hcount : OnlyPipe p u v := by
      unfold v
      split
      · exact u.portCount_onlyPipe _ _ _
      · exact .refl
    exact (OnlyPipe.modFwd s p _).trans (hcount.trans (.of_kept State.showMac_kept rfl))

theorem State.flushMac_onlyPipe (s : State) (p : Nat) (sel : MacEntry → Bool) : OnlyPipe p s (s.flushMac p sel).1 :=
  OnlyPipe.each (f := fun v (e : Nat × MacEntry) => v.macRemove p e.1) _ (fun v e => v.macRemove_onlyPipe p e.1) s

theorem State.mem_mac_of_each_macRemove {s : State} {p : Nat} {l : List (Nat × MacEntry)} {e : Nat × MacEntry}
    (h : e ∈ ((s.each l fun s x => s.macRemove p x.1).pipe p).fwd.mac) : e ∈ (s.pipe p).fwd.mac ∧ ∀ x ∈ l, e.1 ≠ x.1 := by
  induction l generalizing s with
  | nil => exact ⟨h, nofun⟩
  | cons x l ih =>
    obtain ⟨hmem, hrest⟩ := ih (s := s.macRemove p x.1) h
    rw [State.macRemove_mac] at hmem
    obtain ⟨hold, hkey⟩ := List.mem_filter.1 hmem
    exact ⟨hold, List.forall_mem_cons.2 ⟨by simpa using hkey, hrest⟩⟩

/-- What a flush selects is gone. -/
theorem State.flushMac_mac (s : State) (p : Nat) (sel : MacEntry → Bool) :
    ∀ e ∈ ((s.flushMac p sel).1.pipe p).fwd.mac, ¬(e.2.view = 0 ∧ sel e.2 = true) := by
  rintro e he ⟨hlearned, hsel⟩
  obtain ⟨hold, hkey⟩ := State.mem_mac_of_each_macRemove he
  exact hkey e (List.mem_filter.2 ⟨hold, by simp [hlearned, hsel]⟩) rfl

/-! ### MAC_FLUSH (spec/07 R231) -/

/-- The scans of the pipelines `ps` have removed what `sel` selects; with the number removed. -/
def State.flushPipes (s : State) (ps : List Nat) (sel : MacEntry → Bool) : State × Nat :=
  ps.foldl (fun a p => let b := a.1.flushMac p sel; (b.1, a.2 + b.2)) (s, 0)

theorem State.flushPipes_each (s : State) (ps : List Nat) (sel : MacEntry → Bool) :
    (s.flushPipes ps sel).1 = s.each ps fun s p => (s.flushMac p sel).1 :=
  (List.foldl_hom Prod.fst fun _ _ => rfl).symm

theorem State.flushPipes_flush (s : State) (ps : List Nat) (sel : MacEntry → Bool) :
    (s.flushPipes ps sel).1.pipes.flush = s.pipes.flush := by
  rw [State.flushPipes_each]
  exact State.each_unchanged (view := fun v => v.pipes.flush) (fun v p _ => (v.flushMac_onlyPipe p sel).flush) s

theorem State.flushPipes_host (s : State) (ps : List Nat) (sel : MacEntry → Bool) : (s.flushPipes ps sel).1.host = s.host := by
  rw [State.flushPipes_each]
  exact State.each_unchanged (view := State.host) (fun v p _ => State.flushMac_kept.same .host rfl) s

theorem State.flushPipes_mac (s : State) {ps : List Nat} (hdistinct : ps.Nodup) (sel : MacEntry → Bool) :
    ∀ p ∈ ps, ∀ e ∈ ((s.flushPipes ps sel).1.pipe p).fwd.mac, ¬(e.2.view = 0 ∧ sel e.2 = true) := by
  rw [State.flushPipes_each]
  exact State.each_own (view := fun v p => (v.pipe p).fwd.mac) (P := fun _ _ y => ∀ e ∈ y, ¬(e.2.view = 0 ∧ sel e.2 = true)) hdistinct
    (fun v p _ => v.flushMac_mac p sel)
    (fun v p _ q _ hne => congrArg (fun x : PipeSt => x.fwd.mac) ((v.flushMac_onlyPipe q sel).pipe p hne)) s

/-- Command `c` waits under id `i` for the end of its scans, which have removed `n` entries. -/
def State.flushWaits (s : State) (c : Cmd) (i n : Nat) : State :=
  let u := (s.park c 0x0406 true).when (n != 0) fun s => s.modParked i fun p => { p with partly := true }
  { u with pipes := { u.pipes with flush := u.pipes.flush ++ [⟨i, n⟩] } }

theorem State.flushWaits_pipe (s : State) (c : Cmd) (i n p : Nat) : (s.flushWaits c i n).pipe p = s.pipe p := by
  unfold State.flushWaits State.when
  split <;> rfl

theorem State.flushWaits_flush (s : State) (c : Cmd) (i n : Nat) : (s.flushWaits c i n).pipes.flush = s.pipes.flush ++ [⟨i, n⟩] := by
  unfold State.flushWaits State.when
  split <;> rfl

/-- The entry is for the one port `n`. -/
def MacEntry.onPort (n : Nat) (e : MacEntry) : Bool := !e.mc && e.dest.toNat == n

theorem exec_macFlush_port {s : State} {c : Cmd} (htakes : s.takes c 0x0406 = true) (hok : c.ok 6 [(3, 1)] = true) (hmask : c.fld 0 1 < 16)
    (hmode : c.fld 1 1 = 1) (hport : c.fld 2 1 < 128) : exec (.macFlush c) s =
      .next (((s.fetched c).flushPipes (maskIdx 4 (c.fld 0 1)) (MacEntry.onPort (c.fld 2 1))).1.flushWaits c (s.fetched c).host.nextId
        ((s.fetched c).flushPipes (maskIdx 4 (c.fld 0 1)) (MacEntry.onPort (c.fld 2 1))).2) := by
  have hbyPort : bitAt 1 0 = true := by decide
  have hbyBd : bitAt 1 1 = false := by decide
  have hsel : (fun e : MacEntry => (!bitAt (c.fld 1 1) 0 || (!e.mc && e.dest.toNat == c.fld 2 1)) &&
      (!bitAt (c.fld 1 1) 1 || e.bd.toNat == c.fld 4 2)) = MacEntry.onPort (c.fld 2 1) := by
    funext e
    simp [MacEntry.onPort, hmode, hbyPort, hbyBd]
  have hid := congrArg HostSt.nextId ((s.fetched c).flushPipes_host (maskIdx 4 (c.fld 0 1)) (MacEntry.onPort (c.fld 2 1)))
  show execMacFlush c s = _
  rw [execMacFlush, start_takes htakes (by simp [hok, hmask, hmode, hport, hbyBd]), hsel, ← hid]
  rfl

/-! ### The end of the scans -/

/-- As `State.finish_completed`, for a completion with data. -/
theorem State.finish_completed_data {s : State} {i status : Nat} {p : Parked} {P : State → Prop} (data : BitVec 256) (hp : s.parkedAt i = some p)
    (hlost : p.lost = false) (hP : P (s.unpark i)) : Completed p.cmd p.op status P (s.finish i status data) := by
  refine ⟨s.unpark i, data, 0 + (if p.recovered then 8 else 0), 0, p.lower, ?_, hP⟩
  simp only [State.finish, hp, State.endParked, hlost, State.parkedAt_id hp, Bool.false_eq_true, if_false]

theorem exec_macFlushScanEnd {s : State} {j : FlushJob} {rest : List FlushJob} (h : s.pipes.flush = j :: rest) :
    exec .macFlushScanEnd s = .next ({ s with pipes := { s.pipes with flush := rest } }.finish j.id st.ok (packLE 256 [(0, 4, j.removed)])) := by
  show execMacFlushScanEnd s = _
  simp only [execMacFlushScanEnd, h]

end Sys2Proof.Machine
end

section
/-!
Long operations as they are accepted (spec/15 R475), and TABLE_BULK (spec/07 R232): no completion touches the operations that are in progress.
-/
namespace Sys2Proof.Machine
open Sys2Proof

/-! ### What leaves the operations in progress alone -/

theorem Kept.longOps {L : List Part} {s t : State} (k : Kept L s t) (h : L.contains .host = false) : t.host.longOps = s.host.longOps :=
  congrArg HostSt.longOps (k.same .host h)

@[simp] theorem State.post_longOps (s : State) (p : Post) : (s.post p).host.longOps = s.host.longOps := by
  unfold State.post
  split <;> rfl

@[simp] theorem State.signal_longOps (s : State) (r : Nat) : (s.signal r).host.longOps = s.host.longOps := by
  unfold State.signal
  extract_lets v masked host u
  split
  · rfl
  · split
    · rfl
    · exact u.post_longOps _

@[simp] theorem State.signalSoon_longOps (s : State) (r : Nat) : (s.signalSoon r).host.longOps = s.host.longOps := by
  unfold State.signalSoon
  split
  · exact s.signal_longOps r
  · rfl

@[simp] theorem State.advance_longOps (s : State) (r n : Nat) : (s.advance r n).host.longOps = s.host.longOps := by
  unfold State.advance
  extract_lets u
  split
  · exact u.post_longOps _
  · rfl

@[simp] theorem State.writeEntry_longOps (s : State) (r data : Nat) (irq : Bool) : (s.writeEntry r data irq).host.longOps = s.host.longOps := by
  unfold State.writeEntry
  split
  · rfl
  · extract_lets u
    have hu : u.host.longOps = s.host.longOps := (State.advance_longOps _ _ _).trans (s.post_longOps _)
    split
    · exact (u.signalSoon_longOps r).trans hu
    · exact hu

theorem State.when_handleGone_longOps (s : State) (b : Bool) (rec : BitVec 512) :
    (s.when b fun s => s.handleGone rec).host.longOps = s.host.longOps := by
  unfold State.when
  split <;> rfl

@[simp] theorem State.flushCpl_longOps (s : State) (n : Nat) : (s.flushCpl n).host.longOps = s.host.longOps := by
  induction n generalizing s with
  | zero => rfl
  | succ n ih =>
    unfold State.flushCpl
    split
    · rfl
    · split
      · rfl
      · rw [ih, State.when_handleGone_longOps, State.writeEntry_longOps]

@[simp] theorem State.deliver_longOps (s : State) (c : Cmd) (rec : BitVec 512) (flags : Nat) :
    (s.deliver c rec flags).host.longOps = s.host.longOps := by
  unfold State.deliver
  split
  case h_1 hhost =>
    extract_lets k host u
    split
    · split
      · rfl
      · exact State.when_handleGone_longOps _ _ _
    · exact u.flushCpl_longOps _
  case h_2 core slot hmailbox =>
    extract_lets m u
    have hu : u.host.longOps = s.host.longOps := by
      refine (State.when_handleGone_longOps _ _ _).trans ?_
      split <;> rfl
    split
    · split
      · exact hu
      · exact hu
    · have hdone : Kept [.regs, .cores] u (((u.modCore core fun x => { x with mbCpl := Tab.ins slot rec x.mbCpl, mbDone := x.mbDone ||| m }).perf
          core 30).raiseInt core 3) :=
        .step State.raiseInt_kept rfl (.step State.perf_kept rfl (.step State.modCore_kept rfl .refl))
      exact (hdone.longOps rfl).trans hu

@[simp] theorem State.complete_longOps (s : State) (c : Cmd) (op status : Nat) (data : BitVec 256) (flags handle lower : Nat) :
    (s.complete c op status data flags handle lower).host.longOps = s.host.longOps := State.deliver_longOps _ _ _ _

/-! ### What an operation is -/

/-- Of a long operation, what never changes: the command that started it, its opcode, its total. -/
def LongOp.what (o : LongOp) : Cmd × Nat × Nat := (o.cmd, o.op, o.total)

/-- What the operations in progress are, in order of their acceptance. -/
def State.longWhats (s : State) : List (Cmd × Nat × Nat) := s.host.longOps.map LongOp.what

theorem State.longWhats_modLong (s : State) (h : BitVec 32) {f : LongOp → LongOp} (hf : ∀ o, (f o).what = o.what) :
    (s.modLong h f).longWhats = s.longWhats := by
  simp only [State.longWhats, State.modLong, List.map_map]
  refine List.map_congr_left fun o _ => ?_
  simp only [Function.comp_apply]
  split
  · exact hf o
  · rfl

/-- An accepted operation joins those in progress, whether it starts or waits. -/
theorem State.longWhats_startLong {s : State} (c : Cmd) (op res total : Nat) (args : List Nat) {onStart : State → BitVec 32 → State} (hold : Bool)
    (hbar : s.longBarred = false) (hfree : s.freeLong.isSome = true) (hstart : ∀ v h, (onStart v h).longWhats = v.longWhats) :
    (s.startLong c op res total args onStart hold).longWhats = s.longWhats ++ [(c, op, total)] := by
  unfold State.startLong
  rw [if_neg (by rw [hbar]; decide)]
  split
  case h_1 hnone => rw [hnone] at hfree; cases hfree
  case h_2 k hk =>
    extract_lets q h busy o host u v
    have hv : v.longWhats = s.longWhats ++ [(c, op, total)] := by
      simp only [v, u, host, State.longWhats, State.complete_longOps, List.map_append, List.map_singleton]
      rfl
    split
    case isTrue hbusy => exact hv
    case isFalse hidle =>
      rw [hstart, State.longWhats_modLong, hv]
      exact fun _ => rfl

/-! ### TABLE_BULK (spec/07 R232) -/

theorem State.longWhats_bulkBegin (s : State) (o : LongOp) : (s.bulkBegin o).longWhats = s.longWhats :=
  State.longWhats_modLong _ _ fun _ => rfl

/-- What starting a TABLE_BULK does: the operation of the handle begins to run. -/
def State.bulkStart (s : State) (h : BitVec 32) : State := match s.longAt h with | some o => s.bulkBegin o | none => s

theorem State.longWhats_bulkStart (s : State) (h : BitVec 32) : (s.bulkStart h).longWhats = s.longWhats := by
  unfold State.bulkStart
  split
  · exact s.longWhats_bulkBegin _
  · rfl

/-- The operation in place `n` has the records of command `c` to load. -/
def State.loadRecords (s : State) (n : Nat) (c : Cmd) (records : List BulkRec) : State :=
  match s.host.longOps[n]? with
  | some o => s.modBulk fun l => l ++ [{ handle := o.handle, records := records.take (c.fld 4 4) }]
  | none => s

theorem State.longWhats_loadRecords (s : State) (n : Nat) (c : Cmd) (records : List BulkRec) : (s.loadRecords n c records).longWhats = s.longWhats := by
  unfold State.loadRecords
  split <;> rfl

theorem exec_tableBulk_load {s : State} {c : Cmd} (records : List BulkRec) (htakes : s.takes c 0x0405 = true) (hok : c.ok 16 [(3, 1)] = true)
    (hmask : c.fld 0 1 < 16) (htable : c.fld 1 1 < 7) (hload : c.fld 2 1 = 0) (halign : c.fld 8 8 % 64 = 0)
    (hbuf : s.bufOk c.src (c.fld 8 8) (32 * c.fld 4 4) = true) :
    exec (.tableBulk c records) s = .next (((s.fetched c).startLong c 0x0405 0x0405 (min (c.fld 4 4) records.length) [0, 0, 0xFFFFFFFF, 0, 0]
      State.bulkStart).loadRecords (s.fetched c).host.longOps.length c records) := by
  have htable' : c.fld 1 1 < 8 := Nat.lt_succ_of_lt htable
  have hrules : c.fld 1 1 ≠ 7 := Nat.ne_of_lt htable
  show execTableBulk c records s = _
  rw [execTableBulk, start_takes htakes (by simp [hok, hmask, htable', hrules, hload, halign, hbuf])]
  simp only [hload, beq_self_eq_true, if_true]
  rfl

/-- Settles O17: serving a request queues none; a removal takes its key's entries out of the table, so that a scan over what it selects leaves
none of them; an operation in progress stays the one that was accepted. -/
theorem learningAndAgeing : Obligations.LearningAndAgeing := by
  refine ⟨?serve, ?visit, ?remove, ?flush, ?scanEnd, ?bulk⟩
  case serve =>
    intro s p q rest hup hqueue hfree
    exact ⟨_, exec_learnServe hup hfree, State.serve_learnWaits hqueue⟩
  case visit =>
    intro s p i e hentry hlearned _ _ hageing
    refine ⟨_, exec_ageVisit hentry hlearned hageing, e.visited s.time.beatCount, ?_, rfl, rfl, rfl, rfl, rfl, hlearned⟩
    rw [State.macMod_mac hentry, Tab.find_ins_same]
  case remove =>
    intro s p i e hentry hlearned hage hhit hageing
    refine ⟨_, exec_ageRemove hentry hlearned hage hhit hageing, ?_⟩
    exact (congrArg (fun x : PipeSt => x.fwd.mac) (State.countFwd_kept.pipe rfl p)).trans (s.macRemove_mac p i)
  case flush =>
    intro s c htakes hok hmask hmode hport
    refine ⟨_, exec_macFlush_port htakes hok hmask hmode hport,
      ⟨_, (State.flushWaits_flush _ _ _ _).trans (congrArg (· ++ [_]) (State.flushPipes_flush _ _ _))⟩, ?_⟩
    intro p hp e he ⟨hlearned, hmc, hdest⟩
    rw [State.flushWaits_pipe] at he
    exact State.flushPipes_mac _ (maskIdx_nodup _ _) _ p hp e he ⟨hlearned, by simp [MacEntry.onPort, hmc, hdest]⟩
  case scanEnd =>
    intro s j rest q hflush hparked hlost
    exact ⟨_, exec_macFlushScanEnd hflush, State.finish_completed_data _ hparked hlost rfl⟩
  case bulk =>
    intro s c records htakes hok hmask htable hload halign hbuf hbar hfree
    refine ⟨_, exec_tableBulk_load records htakes hok hmask htable hload halign hbuf, ?_⟩
    have hwhats := State.longWhats_startLong c 0x0405 0x0405 (min (c.fld 4 4) records.length) [0, 0, 0xFFFFFFFF, 0, 0] false hbar hfree
      State.longWhats_bulkStart
    rw [← State.longWhats_loadRecords _ (s.fetched c).host.longOps.length c records] at hwhats
    obtain ⟨o, ho, hwhat⟩ := List.mem_map.1 (hwhats ▸ List.mem_concat_self)
    obtain ⟨hcmd, hop, htotal⟩ := by simpa [LongOp.what] using hwhat
    exact ⟨o, ho, hcmd, hop, htotal⟩

end Sys2Proof.Machine
end

section
/-!
Millet (spec/08 R262 to R267): the place of a cell when it is moved, what the accounts of the buffer leave alone, and what the drop of a copy
leaves of the beat's traffic.
-/
namespace Sys2Proof.Machine
open Sys2Proof

/-! ### The place of a cell (spec/08 R241, R262, R268) -/

theorem State.frame_modFrame (s : State) (i j : Nat) {f : Frame → Frame} (hf : ∀ x, (f x).id = x.id) :
    (s.modFrame i f).frame j = (s.frame j).map fun x => if x.id = i then f x else x := by
  have hid : ((fun x : Frame => x.id == j) ∘ fun x => if x.id = i then f x else x) = fun x => x.id == j := by
    funext x
    simp only [Function.comp_apply, apply_ite Frame.id, hf, ite_self]
  simp only [State.frame, State.modFrame, State.modFabric, List.find?_map, hid]

/-- Copy `n` of frame `i`, if it exists. -/
def State.copyOf (s : State) (i n : Nat) : Option Copy := s.copies.find? fun c => c.frame == i && c.n == n

theorem State.copyOf_is {s : State} {i n : Nat} {c : Copy} (h : s.copyOf i n = some c) : c.frame = i ∧ c.n = n := by
  simpa using List.find?_some h

theorem State.copyOf_modCopy (s : State) (i n j m : Nat) {f : Copy → Copy} (hf : ∀ c, (f c).frame = c.frame ∧ (f c).n = c.n) :
    (s.modCopy i n f).copyOf j m = (s.copyOf j m).map fun c => if c.frame = i ∧ c.n = n then f c else c := by
  have hcopies : (s.modCopy i n f).copies = s.copies.map fun c => if c.frame = i ∧ c.n = n then f c else c := by
    simp only [State.copies, State.modCopy, State.modFabric, List.map_append, List.filterMap_map, List.map_filterMap]
    rfl
  have hsame : ((fun c : Copy => c.frame == j && c.n == m) ∘ fun c => if c.frame = i ∧ c.n = n then f c else c) =
      fun c => c.frame == j && c.n == m := by
    funext c
    simp only [Function.comp_apply, apply_ite Copy.frame, apply_ite Copy.n, hf, ite_self]
  simp only [State.copyOf, hcopies, List.find?_map, hsame]

theorem State.cellAt_frame (s : State) (i k : Nat) : s.cellAt ⟨i, none, k⟩ = (s.frame i).bind fun f => f.loc[k]? := rfl
theorem State.cellAt_copy (s : State) (i n k : Nat) : s.cellAt ⟨i, some n, k⟩ = (s.copyOf i n).bind fun c => Tab.find k c.own := rfl

theorem State.frame_setCell (s : State) (i k j : Nat) (l : Loc) :
    (s.setCell ⟨i, none, k⟩ l).frame j = (s.frame j).map fun f => if f.id = i then { f with loc := f.loc.set k l } else f :=
  s.frame_modFrame i j (by exact fun _ => rfl)

theorem State.copyOf_setCell (s : State) (i n k j m : Nat) (l : Loc) :
    (s.setCell ⟨i, some n, k⟩ l).copyOf j m =
      (s.copyOf j m).map fun c => if c.frame = i ∧ c.n = n then { c with own := Tab.ins k l c.own } else c :=
  s.copyOf_modCopy i n j m (by exact fun _ => ⟨rfl, rfl⟩)

/-- A cell that exists is where it has been put. -/
theorem State.cellAt_setCell_same {s : State} {r : CellRef} {l : Loc} (l' : Loc) (h : s.cellAt r = some l) : (s.setCell r l').cellAt r = some l' := by
  obtain ⟨i, _ | n, k⟩ := r
  case none =>
    obtain ⟨f, hf, hl⟩ := Option.bind_eq_some_iff.1 h
    have hk : k < f.loc.length := (List.getElem?_eq_some_iff.1 hl).1
    rw [State.cellAt_frame, State.frame_setCell, hf, Option.map_some, if_pos (State.frame_id hf)]
    exact List.getElem?_set_self hk
  case some =>
    obtain ⟨c, hc, -⟩ := Option.bind_eq_some_iff.1 h
    rw [State.cellAt_copy, State.copyOf_setCell, State.copyOf, hc, Option.map_some, if_pos (State.copyOf_is hc)]
    exact Tab.find_ins_same k l' c.own

theorem State.cellAt_setCell_other (s : State) {r q : CellRef} (l : Loc) (h : r ≠ q) : (s.setCell q l).cellAt r = s.cellAt r := by
  obtain ⟨i, _ | n, k⟩ := q <;> obtain ⟨j, _ | m, b⟩ := r
  case none.none =>
    rw [State.cellAt_frame, State.cellAt_frame, State.frame_setCell, Option.bind_map]
    refine Option.bind_congr fun f hf => ?_
    simp only [Function.comp_apply]
    split
    · have hcell : k ≠ b := fun e => h (by rw [← State.frame_id hf, ‹f.id = i›, e])
      exact List.getElem?_set_ne hcell
    · rfl
  case none.some => rfl
  case some.none => rfl
  case some.some =>
    rw [State.cellAt_copy, State.cellAt_copy, State.copyOf_setCell, Option.bind_map]
    refine Option.bind_congr fun c hc => ?_
    simp only [Function.comp_apply]
    split
    · next hin =>
      obtain ⟨hframe, hn⟩ := State.copyOf_is hc
      have hcell : b ≠ k := fun e => h (by rw [← hframe, ← hn, hin.1, hin.2, e])
      exact Tab.find_ins_other hcell l c.own
    · rfl

/-- Cells are moved one after another to the same place: each of them that exists is there. -/
theorem State.cellAt_each_setCell {α : Type} (ref : α → CellRef) (l' : Loc) (xs : List α) {s : State} {r : CellRef} {l : Loc}
    (h : s.cellAt r = some l) (hr : r ∈ xs.map ref ∨ l = l') : (s.each xs fun s a => s.setCell (ref a) l').cellAt r = some l' := by
  induction xs generalizing s l with
  | nil =>
    obtain hr | rfl := hr
    · cases hr
    · exact h
  | cons a xs ih =>
    by_cases e : r = ref a
    · subst e
      exact ih (State.cellAt_setCell_same l' h) (.inr rfl)
    · refine ih ((s.cellAt_setCell_other l' e).trans h) (hr.imp_left fun hin => ?_)
      exact (List.mem_cons.1 hin).resolve_left e

/-! ### The accounts of the buffer leave its cells and Millet's units (spec/08 R243, R255, R257, R263) -/

/-- The fabric's state without the marks of a low pool and of overruns. -/
def FabricSt.unmarked (x : FabricSt) : FabricSt := { x with poolLow := false, overrun := [] }

/-- Of the fabric, at most the marks of a low pool and of overruns have changed. -/
def SameBuffer (s t : State) : Prop := t.fabric.unmarked = s.fabric.unmarked

namespace SameBuffer

variable {s t u : State}

theorem refl : SameBuffer s s := rfl

theorem trans (h : SameBuffer s t) (k : SameBuffer t u) : SameBuffer s u := Eq.trans k h

theorem kept {L : List Part} (k : Kept L s t) (hf : L.contains .fabric = false) : SameBuffer s t :=
  congrArg FabricSt.unmarked (k.same .fabric hf)

theorem each {α : Type} {f : State → α → State} (hf : ∀ v a, SameBuffer v (f v a)) (l : List α) (s : State) : SameBuffer s (s.each l f) := by
  induction l generalizing s with
  | nil => exact refl
  | cons a l ih => exact (hf s a).trans (ih (f s a))

/-- What does not look at the marks is as it was. -/
theorem view {α : Type} (h : SameBuffer s t) (f : FabricSt → α) (hf : ∀ x, f x.unmarked = f x) : f t.fabric = f s.fabric := by
  rw [← hf t.fabric, ← hf s.fabric, show t.fabric.unmarked = s.fabric.unmarked from h]

theorem cellAt (h : SameBuffer s t) (r : CellRef) : t.cellAt r = s.cellAt r :=
  h.view (fun x => State.cellAt { s with fabric := x } r) fun _ => rfl

theorem acctXoff (s : State) (p c : Nat) : SameBuffer s (s.acctXoff p c) := by
  unfold State.acctXoff
  extract_lets j d on u
  split
  · exact .refl
  · have hu : SameBuffer s u := by
      unfold u
      split
      · exact rfl
      · exact .refl
    have hset (v : Nat) (b : Bool) : SameBuffer u ((u.setF (F.iaDepth_XOFF j) v).askXoff p c b) :=
      .trans (.kept State.setF_kept rfl) (.kept State.askXoff_kept rfl)
    split
    · exact hu.trans (hset 1 true)
    · split
      · exact hu.trans (hset 0 false)
      · exact hu

theorem poolXoff (s : State) : SameBuffer s s.poolXoff :=
  .each (fun v p => .each (fun w c => acctXoff w p c) _ v) _ s

theorem showIa (s : State) (p c : Nat) : SameBuffer s (s.showIa p c) := by
  unfold State.showIa
  split
  · exact .refl
  · exact .trans (.kept State.setF_kept rfl) (acctXoff _ p c)

theorem showFree (s : State) : SameBuffer s s.showFree := by
  unfold State.showFree
  extract_lets u v
  have hu : SameBuffer s u := .trans (.kept State.setF_kept rfl) (.kept State.showDeep_kept rfl)
  have hv : SameBuffer s v := by
    unfold v
    split
    · exact hu.trans (.kept State.pressure_kept rfl)
    · exact hu
  have hpool (b : Bool) : SameBuffer v (v.modFabric fun x => { x with poolLow := b }).poolXoff :=
    .trans (t := v.modFabric fun x => { x with poolLow := b }) rfl (poolXoff _)
  split
  · exact (hv.trans (hpool true)).trans (.kept State.raise_kept rfl)
  · split
    · exact hv.trans (hpool false)
    · exact hv

end SameBuffer

/-! ### The end of a copy leaves the beat's traffic (spec/08 R265, R266) -/

/-- The cells moved in this beat are as many as before. -/
structure SameTraffic (s t : State) : Prop where
  written : t.fabric.written = s.fabric.written
  read : t.fabric.read = s.fabric.read

namespace SameTraffic

variable {s t u : State}

theorem refl : SameTraffic s s := ⟨rfl, rfl⟩

theorem trans (h : SameTraffic s t) (k : SameTraffic t u) : SameTraffic s u := ⟨k.written.trans h.written, k.read.trans h.read⟩

theorem of_sameBuffer (h : SameBuffer s t) : SameTraffic s t := ⟨h.view FabricSt.written fun _ => rfl, h.view FabricSt.read fun _ => rfl⟩

theorem kept {L : List Part} (k : Kept L s t) (hf : L.contains .fabric = false) : SameTraffic s t := .of_sameBuffer (.kept k hf)

theorem when (c : Bool) {f : State → State} (h : SameTraffic s (f s)) : SameTraffic s (s.when c f) := by
  unfold State.when
  split
  · exact h
  · exact .refl

theorem each {α : Type} {f : State → α → State} (hf : ∀ v a, SameTraffic v (f v a)) (l : List α) (s : State) :
    SameTraffic s (s.each l f) := by
  induction l generalizing s with
  | nil => exact refl
  | cons a l ih => exact (hf s a).trans (ih (f s a))

theorem modFrame (s : State) (i : Nat) (f : Frame → Frame) : SameTraffic s (s.modFrame i f) := ⟨rfl, rfl⟩

theorem setCell (s : State) (r : CellRef) (l : Loc) : SameTraffic s (s.setCell r l) := by
  unfold State.setCell
  split
  · exact ⟨rfl, rfl⟩
  · exact ⟨rfl, rfl⟩

theorem capture (s : State) (f : Frame) (c : Option Copy) (out : Option Stamp) (fate : Nat) : SameTraffic s (s.capture f c out fate) := by
  unfold State.capture
  split
  · exact .refl
  · extract_lets data seq r
    have hseq : SameTraffic s (s.modFabric fun x => { x with capSeq := seq + 1 }) := ⟨rfl, rfl⟩
    exact (hseq.trans (.kept State.ringRecord_kept rfl)).trans (.kept State.countFab_kept rfl)

theorem endFrame (s : State) (i : Nat) : SameTraffic s (s.endFrame i) :=
  .trans (t := s.modFabric fun x => { x with frames := x.frames.filter (·.id ≠ i) }) ⟨rfl, rfl⟩ (.of_sameBuffer (.showFree _))

theorem release (s : State) (c : Copy) (fate : Option Nat) : SameTraffic s (s.release c fate) := by
  unfold State.release
  split
  · exact .refl
  · extract_lets g u v w x
    have hu : SameTraffic s u := .modFrame s g.id fun _ => g
    have hunstaged : SameTraffic u (u.modFabric fun x => { x with staged := Tab.put x.staged none c.q none }) := ⟨rfl, rfl⟩
    have hv : SameTraffic u v := .when _ (hunstaged.trans (.kept State.flushCtrl_kept rfl))
    have hw : SameTraffic v w := by
      unfold w
      split
      · split
        · exact (capture v g _ none _).trans (.kept State.txDone_kept rfl)
        · exact .refl
      · exact .refl
    have hx : SameTraffic v x := by
      unfold x
      split
      · refine hw.trans ?_
        split
        · exact .endFrame w g.id
        · exact (modFrame w g.id _).trans (.of_sameBuffer (.showFree _))
      · exact .of_sameBuffer (.showFree _)
    exact ((hu.trans hv).trans hx).trans ((kept State.showEq_kept rfl).trans (.of_sameBuffer (.showIa _ _ _)))

theorem dropCopy (s : State) (x : Copy) : SameTraffic s (s.dropCopy x) :=
  .trans (t := s.modFabric fun y => { y with eq := y.eq.erase x, voq := y.voq.erase x }) ⟨rfl, rfl⟩
    ((kept State.countFab_kept rfl).trans (.release _ x _))

theorem dropCells (s : State) (l : List CellRef) : SameTraffic s (s.dropCells l).1 := .each dropCopy _ s

theorem mapOut (s : State) (k : Nat) : SameTraffic s (s.mapOut k) := ⟨rfl, rfl⟩

theorem stackFault (s : State) (k kind n : Nat) : SameTraffic s (s.stackFault k kind n) :=
  .trans (t := s.modFabric fun x => { x with faulted := Tab.put x.faulted false k true }) ⟨rfl, rfl⟩ (.kept State.raise_kept rfl)

theorem stackError (s : State) (k n : Nat) : SameTraffic s (s.stackError k n) := by
  unfold State.stackError
  split
  · exact .refl
  · extract_lets l u go told v
    have hu : SameTraffic s u := ⟨rfl, rfl⟩
    have hv : SameTraffic u v := by
      unfold v
      split
      · exact .when go ⟨rfl, rfl⟩
      · exact .stackFault u k _ _
    exact (hu.trans hv).trans (.when go (.mapOut v k))

theorem evacDrop (s : State) (k n : Nat) : SameTraffic s (s.evacDrop k n) := by
  induction n generalizing s with
  | zero => exact .refl
  | succ n ih =>
    unfold State.evacDrop
    extract_lets l
    split
    · exact .refl
    · split
      · exact .refl
      · exact (dropCopy s _).trans (ih _)

theorem evacuate (s : State) (k : Nat) : SameTraffic s (s.evacuate k) := by
  refine .each (fun v i => ?_) _ s
  split
  · exact .refl
  · extract_lets u
    have hu : SameTraffic v u := .each (fun w p => .setCell w _ _) _ v
    exact hu.trans ⟨rfl, rfl⟩

end SameTraffic

end Sys2Proof.Machine
end

section
/-!
Units written, cells read back, and what is left of the error counters of the stacks (spec/08 R262 to R266).
-/
namespace Sys2Proof.Machine
open Sys2Proof

/-! ### A unit is closed (spec/08 R262) -/

theorem exec_spillPartialFlush_spill {s : State} {i : Fin 2048} (hopen : Tab.get s.fabric.spillOpen [] i ≠ []) :
    exec (.spillPartialFlush i false) s = .next (s.modFabric fun x => { x with
      spillOpen := Tab.put x.spillOpen [] i []
      spillUnits := Tab.put x.spillUnits [] i (Tab.get x.spillUnits [] i ++ [Tab.get x.spillOpen [] i]) }) := by
  show execSpillPartialFlush i false s = _
  simp only [execSpillPartialFlush, State.modFabric, List.isEmpty_iff, hopen, Bool.false_eq_true, if_false]

theorem exec_spillPartialFlush_headroom {s : State} {i : Fin 2048} (hopen : Tab.get s.fabric.hrOpen [] i ≠ []) :
    exec (.spillPartialFlush i true) s = .next (s.modFabric fun x => { x with
      hrOpen := Tab.put x.hrOpen [] i []
      hrUnits := Tab.put x.hrUnits [] i (Tab.get x.hrUnits [] i ++ [Tab.get x.hrOpen [] i]) }) := by
  show execSpillPartialFlush i true s = _
  simp only [execSpillPartialFlush, State.modFabric, List.isEmpty_iff, hopen, if_true, if_false]

theorem exec_spillPartialFlush_empty {s : State} {i : Fin 2048} {hr : Bool}
    (hopen : Tab.get (if hr then s.fabric.hrOpen else s.fabric.spillOpen) [] i = []) : exec (.spillPartialFlush i hr) s = .next s := by
  show execSpillPartialFlush i hr s = _
  cases hr
  case false =>
    replace hopen : Tab.get s.fabric.spillOpen [] i = [] := hopen
    simp only [execSpillPartialFlush, State.modFabric, hopen, List.isEmpty_nil, Bool.false_eq_true, if_false, if_true]
  case true =>
    replace hopen : Tab.get s.fabric.hrOpen [] i = [] := hopen
    simp only [execSpillPartialFlush, State.modFabric, hopen, List.isEmpty_nil, if_true]

/-! ### A unit is written (spec/08 R262, R263) -/

/-- The units that wait to be written, for headroom and for spills, and the cells written in this beat. -/
def FabricSt.writes (x : FabricSt) : Tab (List (List CellRef)) × Tab (List (List CellRef)) × Nat := (x.hrUnits, x.spillUnits, x.written)

theorem State.setCell_fabricWrites (s : State) (r : CellRef) (l : Loc) : (s.setCell r l).fabric.writes = s.fabric.writes := by
  unfold State.setCell
  split <;> rfl

/-- The cells of unit `u` that still wait. -/
def State.stillWait (s : State) (hr : Bool) (u : List CellRef) : List CellRef := u.filter fun r => s.cellAt r == some (.wait hr)

/-- Cells `l` have been written to stack `k`. -/
def State.intoStack (s : State) (hr : Bool) (k : Nat) (l : List CellRef) : State :=
  (s.each l fun s r => s.setCell r (.deep k hr)).modFabric fun x => { x with stripe := k, written := x.written + l.length }

/-- What the accounts show after a write leaves the buffer as the write has left it. -/
theorem State.writeUnit_sameBuffer {s : State} {k : Nat} (hr : Bool) (u : List CellRef) (hnext : s.nextStack = some k) :
    SameBuffer (s.intoStack hr k (s.stillWait hr u)) (s.writeUnit hr u).1 := by
  simp only [State.writeUnit, hnext]
  exact .trans (.kept State.showFrames_kept rfl) (.showFree _)

/-- The unit's cells that still wait are in the next stack in turn; the queues of the units that wait are as they were. -/
theorem State.writeUnit_shows {s : State} {k : Nat} (hr : Bool) (u : List CellRef) (hnext : s.nextStack = some k) :
    (s.writeUnit hr u).1.fabric.writes = (s.fabric.hrUnits, s.fabric.spillUnits, s.fabric.written + (s.stillWait hr u).length) ∧
    (s.writeUnit hr u).1.fabric.stripe = k ∧
    ∀ r ∈ u, s.cellAt r = some (.wait hr) → (s.writeUnit hr u).1.cellAt r = some (.deep k hr) := by
  have hbuffer := State.writeUnit_sameBuffer hr u hnext
  refine ⟨?_, hbuffer.view FabricSt.stripe fun _ => rfl, ?_⟩
  · have hmoved : (s.each (s.stillWait hr u) fun s r => s.setCell r (.deep k hr)).fabric.writes = s.fabric.writes :=
      State.each_unchanged (view := fun v => v.fabric.writes) (fun v r _ => v.setCell_fabricWrites r _) s
    calc (s.writeUnit hr u).1.fabric.writes
      _ = (s.intoStack hr k (s.stillWait hr u)).fabric.writes := hbuffer.view FabricSt.writes fun _ => rfl
      _ = _ := congrArg (fun x => (x.1, x.2.1, x.2.2 + (s.stillWait hr u).length)) hmoved
  · intro r hin hwait
    rw [hbuffer.cellAt]
    refine State.cellAt_each_setCell id (.deep k hr) _ hwait (.inl ?_)
    simp [State.stillWait, hin, hwait]

/-- Of the headroom writes of account `i` the units `rest` are left. -/
def State.headroomLeft (s : State) (i : Nat) (rest : List (List CellRef)) : State :=
  s.modFabric fun x => { x with hrUnits := Tab.put x.hrUnits [] i rest }

/-- Of the spill writes of queue `i` the units `rest` are left. -/
def State.spillLeft (s : State) (i : Nat) (rest : List (List CellRef)) : State :=
  s.modFabric fun x => { x with spillUnits := Tab.put x.spillUnits [] i rest }

theorem exec_spillWriteDone_headroom {s : State} {i : Fin 2048} {u : List CellRef} {rest : List (List CellRef)}
    (hunits : Tab.get s.fabric.hrUnits [] i = u :: rest) (hroom : s.milletRoom 1 u.length = true) :
    exec (.spillWriteDone i true) s = .next ((s.headroomLeft i rest).writeUnit true u).1 := by
  show execSpillWriteDone i true s = _
  simp only [execSpillWriteDone, hunits, hroom, Bool.not_true, Bool.false_eq_true, if_true, if_false]
  rfl

theorem exec_spillWriteDone_spill {s : State} {i : Fin 2048} {u : List CellRef} {rest : List (List CellRef)} (hdip : s.inDip = false)
    (hunits : Tab.get s.fabric.spillUnits [] i = u :: rest) (hroom : s.milletRoom 3 u.length = true) (hfree : u.length ≤ s.deepFree) :
    exec (.spillWriteDone i false) s =
      .next (((s.spillLeft i rest).writeUnit false u).1.countFab (i / 16) 10 ((s.spillLeft i rest).writeUnit false u).2) := by
  show execSpillWriteDone i false s = _
  simp only [execSpillWriteDone, hunits, hdip, hroom, Nat.not_lt.2 hfree, Bool.not_true, Bool.false_or, decide_false,
    Bool.false_eq_true, if_false]
  rfl

/-! ### Cells are read back (spec/08 R264 to R266) -/

/-- Registers in which the end of copies shows, and what the accounts of the buffer show. -/
def copyRows : List Nat :=
  [Reg.ringStatus 0, Reg.ringDevIdx 0, Reg.ringLoss 0, Reg.msixPba 0, Reg.perfWrapLo 0, Reg.perfWrapHi 0, Reg.portPauseStatus 0,
    Reg.fabricStatus, Reg.eqDepth 0, Reg.eqOndie 0, Reg.eqHwm 0, Reg.iaDepth 0, Reg.deepFree, Reg.iuEdges 0]

/-- What a refill reads of stack `k` is counted: `n` errors corrected, and the cells moved in this beat. -/
def State.refillRead (s : State) (k n : Nat) (run : List (CellRef × Loc)) : State :=
  (s.bump (F.deepEccCorr_COUNT k) n).modFabric fun x => { x with read := x.read + run.length }

/-- The cells of a refill that are in error. -/
def refillBad (run : List (CellRef × Loc)) (bad : List (Fin 8)) : List CellRef := (bad.filterMap fun j => run[j.val]?).map (·.1)

/-- Frames with a cell in error are dropped, and each counts as an error of stack `k`. -/
def State.refillErrors (s : State) (k : Nat) (l : List CellRef) : State := (s.dropCells l).1.stackError k (s.dropCells l).2

/-- The cells of a refill of E(q, c) that are where they were come back on die. -/
def State.bringBack (s : State) (q c : Nat) (run : List (CellRef × Loc)) : State :=
  let go := run.filter fun p => s.cellAt p.1 == some p.2
  let s := (s.each go fun s p => s.setCell p.1 .die).countFab q 11 go.length
  ((s.showFrames (go.map (·.1.frame))).showEq q c).showFree

theorem exec_refillDone {s : State} {i : Fin 2048} {k : Fin 4} (n : Nat) (bad : List (Fin 8)) {run : List (CellRef × Loc)}
    (hrun : run = s.refillRun (i.val / 16) (i.val % 16)) (hstack : ∃ p ∈ run, p.2 = .deep k false ∨ p.2 = .deep k true)
    (hhead : s.onDieHead (i.val / 16) (i.val % 16) < s.fld (F.eqSpill_REFILL i))
    (hroom : s.milletRoom (if s.onDieHead (i.val / 16) (i.val % 16) < s.fld (F.eqSpill_REFILL i) / 2 then 2 else 4) run.length = true) :
    exec (.refillDone i k n bad) s =
      .next (((s.refillRead k n run).refillErrors k (refillBad run bad)).bringBack (i.val / 16) (i.val % 16) run) := by
  have hany : (run.any fun p => p.2 == .deep k.val false || p.2 == .deep k.val true) = true := by simpa using hstack
  subst hrun
  show execRefillDone i k n bad s = _
  simp only [execRefillDone, hany, hroom, Nat.not_le.2 hhead, Bool.not_true, decide_false, Bool.or_false, Bool.false_eq_true, if_false]
  rfl

theorem State.bringBack_writes (s : State) (q c : Nat) (run : List (CellRef × Loc)) : Writes copyRows s (s.bringBack q c run) := by
  unfold State.bringBack
  extract_lets go u
  have hu : Writes copyRows s u :=
    .kept State.countFab_kept rfl (State.each_writes (fun v p h => .kept State.setCell_kept rfl h) .refl)
  exact State.showFree_writes.step rfl (State.showEq_writes.step rfl (State.showFrames_writes.step rfl hu))

/-- What the accounts show after a refill leaves the buffer as the moves of the cells have left it. -/
theorem State.bringBack_sameBuffer (s : State) (q c : Nat) (run : List (CellRef × Loc)) :
    SameBuffer (s.each (run.filter fun p => s.cellAt p.1 == some p.2) fun s p => s.setCell p.1 .die) (s.bringBack q c run) :=
  .trans (.kept State.countFab_kept rfl) (.trans (.kept State.showFrames_kept rfl) (.trans (.kept State.showEq_kept rfl) (.showFree _)))

theorem State.bringBack_sameTraffic (s : State) (q c : Nat) (run : List (CellRef × Loc)) : SameTraffic s (s.bringBack q c run) :=
  .trans (.each (fun v (p : CellRef × Loc) => .setCell v p.1 .die) _ s) (.of_sameBuffer (s.bringBack_sameBuffer q c run))

theorem State.bringBack_cellAt (s : State) (q c : Nat) {run : List (CellRef × Loc)} {p : CellRef × Loc} (hp : p ∈ run)
    (hplace : s.cellAt p.1 = some p.2) : (s.bringBack q c run).cellAt p.1 = some .die := by
  rw [(s.bringBack_sameBuffer q c run).cellAt]
  refine State.cellAt_each_setCell Prod.fst .die _ hplace (.inl (List.mem_map_of_mem ?_))
  simp [hp, hplace]

theorem State.refillErrors_sameTraffic (s : State) (k : Nat) (l : List CellRef) : SameTraffic s (s.refillErrors k l) :=
  .trans (.dropCells s l) (.stackError _ k _)

theorem State.dropCells_nil (s : State) : s.dropCells [] = (s, 0) := by
  have hnone : ((s.fabric.eq ++ s.fabric.voq).filter fun x => ([] : List CellRef).any x.holds) = [] :=
    List.filter_eq_nil_iff.2 fun _ _ => Bool.false_ne_true
  exact congrArg (fun go : List Copy => (s.each go State.dropCopy, (go.map (·.frame)).eraseDups.length)) hnone

theorem State.refillErrors_nil (s : State) (k : Nat) : s.refillErrors k [] = s :=
  congrArg (fun r : State × Nat => r.1.stackError k r.2) s.dropCells_nil

/-! ### The error counters of a stack (spec/08 R266, R285) -/

theorem Writes.fld_deepEccCorr {R : List Nat} {s t : State} (h : Writes R s t) (hrows : rowsApart R 0x2800010 4 0x8 = true) (k : Fin 4) :
    t.fld (F.deepEccCorr_COUNT k) = s.fld (F.deepEccCorr_COUNT k) := h.fld (rowsApart_at hrows k.isLt rfl)

theorem Writes.fld_deepEccUncorr {R : List Nat} {s t : State} (h : Writes R s t) (hrows : rowsApart R 0x2800014 4 0x8 = true) (k : Fin 4) :
    t.fld (F.deepEccUncorr_COUNT k) = s.fld (F.deepEccUncorr_COUNT k) := h.fld (rowsApart_at hrows k.isLt rfl)

/-- Errors of a stack are counted; the fault that is raised and the map-out leave the counter. -/
theorem State.stackError_deepEccUncorr (s : State) (k : Fin 4) (n : Nat) :
    (s.stackError k n).fld (F.deepEccUncorr_COUNT k) = min (2 ^ 32 - 1) (s.fld (F.deepEccUncorr_COUNT k) + n) := by
  unfold State.stackError
  split
  · next hn =>
    have hlt : s.fld (F.deepEccUncorr_COUNT k) < 2 ^ 32 := Fld.of_lt _ _
    omega
  · extract_lets l u go told v
    have hu : u.fld (F.deepEccUncorr_COUNT k) = min (2 ^ 32 - 1) (s.fld (F.deepEccUncorr_COUNT k) + n) := s.fld_bump n (Nat.le_refl 32)
    have hv : Writes copyRows u v := by
      unfold v
      split
      · exact State.when_writes (fun h => .kept State.modFabric_kept rfl h) .refl
      · exact State.stackFault_writes.step rfl .refl
    have hw : Writes (Reg.deepStatus :: copyRows) u (v.when go fun s => s.mapOut k) :=
      State.when_writes (fun h => State.mapOut_writes.step rfl h) (hv.step rfl .refl)
    exact (Writes.fld_deepEccUncorr hw rfl k).trans hu

theorem State.refillErrors_deepEccUncorr (s : State) (k : Fin 4) (l : List CellRef) :
    (s.refillErrors k l).fld (F.deepEccUncorr_COUNT k) =
      min (2 ^ 32 - 1) (s.fld (F.deepEccUncorr_COUNT k) + (s.dropCells l).2) := by
  have hdrop : Writes copyRows s (s.dropCells l).1 := State.dropCells_writes.step rfl .refl
  rw [State.refillErrors, State.stackError_deepEccUncorr, Writes.fld_deepEccUncorr hdrop rfl]

theorem State.refillErrors_deepEccCorr (s : State) (k j : Fin 4) (l : List CellRef) :
    (s.refillErrors k l).fld (F.deepEccCorr_COUNT j) = s.fld (F.deepEccCorr_COUNT j) := by
  have hdrop : Writes copyRows s (s.dropCells l).1 := State.dropCells_writes.step rfl .refl
  rw [State.refillErrors, Writes.fld_deepEccCorr State.stackError_writes rfl, Writes.fld_deepEccCorr hdrop rfl]

end Sys2Proof.Machine
end

section
/-!
Stacks go out of use and come back, and scrubs (spec/08 R266, R267, R277; spec/15 R475).
-/
namespace Sys2Proof.Machine
open Sys2Proof

/-! ### What a command asked for stays with its operation (spec/15 R475) -/

theorem StartsLong.of_last {c : Cmd} {op : Nat} {args : List Nat} {t : State} {l : List LongOp} {o : LongOp} (ht : t.host.longOps = l ++ [o])
    (ho : o.cmd = c ∧ o.op = op ∧ o.args = args ∧ o.suspend = none) : StartsLong c op args t := ⟨o, ht ▸ List.mem_concat_self, ho⟩

/-- An update of the operations that leaves what was asked for leaves the operation started. -/
theorem StartsLong.map {c : Cmd} {op : Nat} {args : List Nat} {s t : State} {f : LongOp → LongOp} (h : StartsLong c op args s)
    (ht : t.host.longOps = s.host.longOps.map f)
    (hf : ∀ o, (f o).cmd = o.cmd ∧ (f o).op = o.op ∧ (f o).args = o.args ∧ (f o).suspend = o.suspend) : StartsLong c op args t := by
  obtain ⟨o, hin, hcmd, hop, hargs, hsuspend⟩ := h
  obtain ⟨fcmd, fop, fargs, fsuspend⟩ := hf o
  exact ⟨f o, ht ▸ List.mem_map_of_mem hin, fcmd.trans hcmd, fop.trans hop, fargs.trans hargs, fsuspend.trans hsuspend⟩

/-- The operation of handle `h` is marked as one that has begun to run. -/
def State.markStarted (s : State) (h : BitVec 32) : State := s.modLong h fun o => { o with started := true }

theorem StartsLong.markStarted {c : Cmd} {op : Nat} {args : List Nat} {s : State} (h : StartsLong c op args s) (hd : BitVec 32) :
    StartsLong c op args (s.markStarted hd) := by
  refine h.map rfl fun o => ?_
  split <;> exact ⟨rfl, rfl, rfl, rfl⟩

/-- A long operation is accepted: its first completion goes out, and it starts unless something keeps it waiting. -/
theorem State.startLong_accepts {s : State} (c : Cmd) (op res total : Nat) (args : List Nat) (onStart : State → BitVec 32 → State)
    (hbar : s.longBarred = false) (hfree : s.freeLong.isSome = true) :
    ∃ u hd, Kept [.regs, .host, .cores] s u ∧ Writes reportRegs s u ∧ StartsLong c op args u ∧
      s.startLong c op res total args onStart =
        if s.host.longOps.any fun o => o.res == res && o.state != .suspended then u else onStart (u.markStarted hd) hd := by
  obtain ⟨k, hk⟩ := Option.isSome_iff_exists.1 hfree
  simp only [State.startLong, hbar, hk, Bool.false_eq_true, if_false, Bool.false_or]
  refine ⟨_, _, ?_, ?_, ?_, rfl⟩
  · exact .step State.complete_kept rfl (.put_host .refl rfl)
  · exact State.complete_writes.step rfl (.put_host .refl)
  · exact .of_last (State.complete_longOps ..) ⟨rfl, rfl, rfl, rfl⟩

/-! ### A stack goes out of use (spec/08 R267) -/

@[simp] theorem State.showDeep_fabric (s : State) : s.showDeep.fabric = s.fabric := rfl
@[simp] theorem State.showDeep_host (s : State) : s.showDeep.host = s.host := rfl

theorem State.showDeep_fld_deepStatus (s : State) {f : Fld} (hf : f.addr = Reg.deepStatus) : s.showDeep.fld f = s.fld f :=
  State.fld_setF_reg s _ (by rw [hf]; decide)

theorem stackBit_cleared {k : Nat} (v : Nat) (hk : k < 4) : bitAt ((v &&& (15 - 2 ^ k)) % 2 ^ 4) k = false := by
  have hmask : ∀ j < 4, (15 - 2 ^ j).testBit j = false := by decide
  simp only [bitAt, Nat.testBit_mod_two_pow, Nat.testBit_and, hmask k hk, Bool.and_false]

theorem stackBit_set {k : Nat} (v : Nat) (hk : k < 4) : bitAt ((v ||| 2 ^ k) % 2 ^ 4) k = true := by
  simp only [bitAt, Nat.testBit_mod_two_pow, Nat.testBit_or, Nat.testBit_two_pow_self, hk, decide_true, Bool.or_true, Bool.and_true]

/-- The map-out of stack `k` marks it, takes it out of use, and begins its evacuation. -/
theorem State.mapOut_shows (s : State) (k : Nat) :
    (s.mapOut k).fabric.evac = some (k, s.time.tick, 0) ∧ (s.mapOut k).fld F.deepStatus_EVAC = 1 ∧
    (s.mapOut k).fld F.deepStatus_MAPPED = (s.fld F.deepStatus_MAPPED ||| 2 ^ k) % 2 ^ 4 ∧
    ∃ v, (s.mapOut k).fld F.deepStatus_READY = (v &&& (15 - 2 ^ k)) % 2 ^ 4 := by
  unfold State.mapOut
  extract_lets counted mapped unready begun
  have hmapped : mapped.fld F.deepStatus_MAPPED = (counted.fld F.deepStatus_MAPPED ||| 2 ^ k) % 2 ^ 4 := State.fld_setF _ _ _ (by decide)
  have hready : unready.fld F.deepStatus_READY = (mapped.fld F.deepStatus_READY &&& (15 - 2 ^ k)) % 2 ^ 4 := State.fld_setF _ _ _ (by decide)
  refine ⟨rfl, ?_, ?_, mapped.fld F.deepStatus_READY, ?_⟩
  · rw [State.showDeep_fld_deepStatus _ rfl]
    exact State.fld_setF _ _ _ (by decide)
  · rw [State.showDeep_fld_deepStatus _ rfl, State.fld_setF_sep _ _ rfl, State.modFabric_fld, State.fld_setF_sep _ _ rfl]
    exact hmapped
  · rw [State.showDeep_fld_deepStatus _ rfl, State.fld_setF_sep _ _ rfl, State.modFabric_fld]
    exact hready

theorem StartsLong.mapOut {c : Cmd} {op : Nat} {args : List Nat} {s : State} (h : StartsLong c op args s) (k : Nat) :
    StartsLong c op args (s.mapOut k) := by
  refine h.map rfl fun o => ?_
  split <;> exact ⟨rfl, rfl, rfl, rfl⟩

/-- A map-out that is taken and need not wait begins, in a state that holds its operation and shows the stacks as before. -/
theorem exec_deepbufMapout_begins {s : State} {c : Cmd} (htakes : s.takes c 0x0501 = true) (hok : c.ok 2 = true) (hk : c.fld 0 1 < 4)
    (hmode : c.fld 1 1 = 1) (hmapped : (s.fetched c).fld F.deepStatus_MAPPED = 0)
    (hready : bitAt ((s.fetched c).fld F.deepStatus_READY) (c.fld 0 1) = true) (hlong : (s.fetched c).longReady 0x0501 = true) :
    ∃ u, exec (.deepbufMapout c) s = .next (u.mapOut (c.fld 0 1)) ∧ StartsLong c 0x0501 [c.fld 0 1] u ∧ u.time = s.time ∧
      u.fld F.deepStatus_MAPPED = 0 := by
  obtain ⟨⟨hbar, hfree⟩, hidle⟩ : ((s.fetched c).longBarred = false ∧ (s.fetched c).freeLong.isSome = true) ∧
      ((s.fetched c).host.longOps.any fun o => o.res == 0x0501 && o.state != .suspended) = false := by
    simpa only [State.longReady, Bool.and_eq_true, Bool.not_eq_true'] using hlong
  obtain ⟨u, hd, hkept, hwrites, hstarts, hstart⟩ := State.startLong_accepts c 0x0501 0x0501 0 [c.fld 0 1]
    (fun s _ => s.mapOut (c.fld 0 1)) hbar hfree
  refine ⟨u.markStarted hd, ?_, hstarts.markStarted hd, ?_, ?_⟩
  · show execDeepbufMapout c s = _
    rw [execDeepbufMapout, start_takes htakes (by simp [hok, hk, hmode])]
    simp only [hmode, hmapped, hready, hstart, hidle, ne_eq, not_true_eq_false, Bool.not_true, Bool.false_eq_true, or_self, if_true, if_false]
  · exact (hkept.time_eq rfl rfl).trans (s.fetched_time c)
  · exact (hwrites.fld (quietAddr_at rfl)).trans hmapped

/-! ### A stack comes back (spec/08 R267) -/

/-- Stack `k` is in use again; a further map-in of it wants a new test. -/
def State.mapIn (s : State) (k : Nat) : State :=
  (((s.setF F.deepStatus_MAPPED (s.fld F.deepStatus_MAPPED &&& (15 - 2 ^ k))).setF F.deepStatus_READY
    ((s.setF F.deepStatus_MAPPED (s.fld F.deepStatus_MAPPED &&& (15 - 2 ^ k))).fld F.deepStatus_READY ||| 2 ^ k)).modFabric fun x =>
      { x with tested := x.tested &&& ~~~(BitVec.ofNat 4 (2 ^ k)) }).showDeep

theorem State.mapIn_shows (s : State) {k : Nat} (hk : k < 4) :
    bitAt ((s.mapIn k).fld F.deepStatus_MAPPED) k = false ∧ bitAt ((s.mapIn k).fld F.deepStatus_READY) k = true := by
  unfold State.mapIn
  constructor
  · rw [State.showDeep_fld_deepStatus _ rfl, State.modFabric_fld, State.fld_setF_sep _ _ rfl, State.fld_setF _ _ _ (by decide)]
    exact stackBit_cleared _ hk
  · rw [State.showDeep_fld_deepStatus _ rfl, State.modFabric_fld, State.fld_setF _ _ _ (by decide)]
    exact stackBit_set _ hk

theorem exec_deepbufMapout_returns {s : State} {c : Cmd} (htakes : s.takes c 0x0501 = true) (hok : c.ok 2 = true) (hk : c.fld 0 1 < 4)
    (hmode : c.fld 1 1 = 0) (hmapped : bitAt ((s.fetched c).fld F.deepStatus_MAPPED) (c.fld 0 1) = true)
    (hevac : (s.fetched c).fabric.evac = none) (htested : bitAt (s.fetched c).fabric.tested.toNat (c.fld 0 1) = true) :
    exec (.deepbufMapout c) s = .next (((s.fetched c).mapIn (c.fld 0 1)).complete c 0x0501 st.ok) := by
  show execDeepbufMapout c s = _
  rw [execDeepbufMapout, start_takes htakes (by simp [hok, hk, hmode])]
  simp only [hmode, hmapped, hevac, htested, Option.isSome_none, Bool.not_true, Bool.or_self, Bool.false_eq_true, Nat.zero_ne_one, if_false]
  rfl

/-! ### The evacuation ends (spec/08 R266, R267) -/

/-- The cells of stack `k` have been read, `n` errors corrected; frames with cells of `lost`, or without room in the other stacks, are
dropped. -/
def State.evacRead (s : State) (k n : Nat) (lost : List CellRef) : State :=
  let s := s.bump (F.deepEccCorr_COUNT k) n
  let r := s.dropCells (lost.filter fun r => (s.stackCells k).any fun p => p.1 == r)
  r.1.evacDrop k (s.fabric.eq.length + s.fabric.voq.length)

/-- No evacuation runs any more; `d` cells more have been read in this beat. -/
def State.evacOver (s : State) (d : Nat) : State :=
  (s.modFabric fun x => { x with evac := none, read := x.read + d }).setF F.deepStatus_EVAC 0

/-- The event of an evacuation that began at tick `t0`, and the final completion of its operation. -/
def State.evacReport (s : State) (k moved dropped t0 : Nat) : State :=
  let s := s.raise 0x0504 16 [(0, 1, k), (4, 4, moved), (8, 4, dropped), (12, 4, (s.time.tick - t0) / 1600)]
  match s.host.longOps.find? fun o => o.op == 0x0501 && o.state == .running with
  | some o => s.endLong o.handle st.ok (packLE 256 [(0, 4, moved), (4, 4, dropped)])
  | none => s

theorem State.evacReport_fabric (s : State) (k moved dropped t0 : Nat) : (s.evacReport k moved dropped t0).fabric = s.fabric := by
  unfold State.evacReport
  extract_lets u
  have hu : u.fabric = s.fabric := State.raise_kept.same .fabric rfl
  split
  · exact (show (u.endLong _ _ _).fabric = u.fabric from State.endLong_kept.same .fabric rfl).trans hu
  · exact hu

theorem State.evacReport_writes (s : State) (k moved dropped t0 : Nat) : Writes reportRegs s (s.evacReport k moved dropped t0) := by
  unfold State.evacReport
  extract_lets u
  have hu : Writes reportRegs s u := State.raise_writes.step rfl .refl
  split
  · exact State.endLong_writes.step rfl hu
  · exact hu

theorem exec_mapoutDone {s : State} {k : Fin 4} {t0 done : Nat} (n : Nat) (lost : List CellRef) (hevac : s.fabric.evac = some (k.val, t0, done)) :
    exec (.mapoutDone k n lost) s = .next ((((s.evacRead k n lost).evacuate k).evacOver ((s.stackCells k).length - done)).evacReport k
      ((s.evacRead k n lost).stackCells k).length ((s.stackCells k).length - ((s.evacRead k n lost).stackCells k).length) t0) := by
  show execMapoutDone k n lost s = _
  simp only [execMapoutDone, hevac, ne_eq, not_true_eq_false, if_false]
  rfl

theorem State.evacRead_written (s : State) (k n : Nat) (lost : List CellRef) : (s.evacRead k n lost).fabric.written = s.fabric.written := by
  unfold State.evacRead
  extract_lets u r
  have hdrop : SameTraffic u r.1 := .dropCells u _
  exact (hdrop.trans (.evacDrop r.1 k _)).written

theorem State.evacRead_deepEccCorr (s : State) (k : Fin 4) (n : Nat) (lost : List CellRef) :
    (s.evacRead k n lost).fld (F.deepEccCorr_COUNT k) = min (2 ^ 32 - 1) (s.fld (F.deepEccCorr_COUNT k) + n) := by
  unfold State.evacRead
  extract_lets u r
  have hdrop : Writes copyRows u (r.1.evacDrop k (u.fabric.eq.length + u.fabric.voq.length)) :=
    State.evacDrop_writes.step rfl (State.dropCells_writes.step rfl .refl)
  exact (Writes.fld_deepEccCorr hdrop rfl k).trans (s.fld_bump n (Nat.le_refl 32))

/-! ### A scrub (spec/08 R277; spec/15 R475) -/

theorem exec_deepbufScrub_begins {s : State} {c : Cmd} (htakes : s.takes c 0x0502 = true) (hok : c.ok 2 = true) (hmask : c.fld 0 1 < 16)
    (hmode : c.fld 1 1 = 0) (hbar : (s.fetched c).longBarred = false) (hfree : (s.fetched c).freeLong.isSome = true) :
    ∃ t, exec (.deepbufScrub c) s = .next t ∧ StartsLong c 0x0502 [c.fld 0 1, 0] t := by
  obtain ⟨u, hd, -, -, hstarts, hstart⟩ := State.startLong_accepts c 0x0502 0x0501 (maskIdx 4 (c.fld 0 1)).length [c.fld 0 1, 0]
    (fun s _ => s) hbar hfree
  refine ⟨if (s.fetched c).host.longOps.any fun o => o.res == 0x0501 && o.state != .suspended then u else u.markStarted hd, ?_, ?_⟩
  · show execDeepbufScrub c s = _
    rw [execDeepbufScrub, start_takes htakes (by simp [hok, hmask, hmode])]
    simp only [hmode, hstart, Nat.zero_ne_one, false_and, if_false]
  · split
    · exact hstarts
    · exact hstarts.markStarted hd

/-! ### The statement -/

/-- Settles O20: a cell that is moved is where it has been put (`State.cellAt_setCell_same`), and what the accounts show afterwards changes at most
the marks of the pool (`SameBuffer`); dropped copies leave the beat's traffic and the error counters. The choice of the stack, the stripe
and the room in the beat are as log entry 25 has them. -/
theorem deepBuffer : Obligations.DeepBuffer := by
  refine ⟨?closeSpill, ?closeHeadroom, ?closeEmpty, ?writeHeadroom, ?writeSpill, ?refill, ?mapOut, ?mapIn, ?mapoutDone, ?scrub⟩
  case closeSpill =>
    intro s i hopen
    exact ⟨_, exec_spillPartialFlush_spill hopen, Tab.get_put_same .., Tab.get_put_same s.fabric.spillOpen [] [] i, rfl, rfl⟩
  case closeHeadroom =>
    intro s i hopen
    exact ⟨_, exec_spillPartialFlush_headroom hopen, Tab.get_put_same .., Tab.get_put_same s.fabric.hrOpen [] [] i, rfl, rfl⟩
  case closeEmpty =>
    intro s i hr hopen
    exact ⟨s, exec_spillPartialFlush_empty hopen, rfl⟩
  case writeHeadroom =>
    intro s i k u rest hunits hroom hnext
    obtain ⟨hwrites, hstripe, hcells⟩ := State.writeUnit_shows (s := s.headroomLeft i rest) true u hnext
    obtain ⟨hqueue, -, hwritten⟩ := by simpa [FabricSt.writes] using hwrites
    exact ⟨_, exec_spillWriteDone_headroom hunits hroom, hqueue ▸ Tab.get_put_same .., hstripe, hwritten, hcells⟩
  case writeSpill =>
    intro s i k u rest hdip hunits hroom hfree hnext
    obtain ⟨hwrites, hstripe, hcells⟩ := State.writeUnit_shows (s := s.spillLeft i rest) false u hnext
    obtain ⟨-, hqueue, hwritten⟩ := by simpa [FabricSt.writes] using hwrites
    exact ⟨_, exec_spillWriteDone_spill hdip hunits hroom hfree, hqueue ▸ Tab.get_put_same .., hstripe, hwritten, hcells⟩
  case refill =>
    intro s i k n bad run hrun hstack hhead hroom
    have hback := ((s.refillRead k n run).refillErrors k (refillBad run bad)).bringBack_writes (i.val / 16) (i.val % 16) run
    refine ⟨_, exec_refillDone n bad hrun hstack hhead hroom, ?read, ?corrected, ?uncorrected, ?cells⟩
    case read => exact ((State.refillErrors_sameTraffic _ k _).trans (State.bringBack_sameTraffic _ _ _ run)).read
    case corrected =>
      rw [Writes.fld_deepEccCorr hback rfl, State.refillErrors_deepEccCorr]
      exact s.fld_bump n (Nat.le_refl 32)
    case uncorrected =>
      have hread : (s.refillRead k n run).fld (F.deepEccUncorr_COUNT k) = s.fld (F.deepEccUncorr_COUNT k) :=
        Writes.fld_deepEccUncorr (R := [Reg.deepEccCorr 0]) (.bump (Reg.deepEccCorr_at rfl) .refl) rfl k
      rw [Writes.fld_deepEccUncorr hback rfl, State.refillErrors_deepEccUncorr, hread]
      rfl
    case cells =>
      rintro rfl p hp hplace
      refine State.bringBack_cellAt _ _ _ hp ?_
      rw [show refillBad run [] = [] from rfl, State.refillErrors_nil]
      exact hplace
  case mapOut =>
    intro s c htakes hok hk hmode hmapped hready hlong
    obtain ⟨u, hexec, hstarts, htime, hnone⟩ := exec_deepbufMapout_begins htakes hok hk hmode hmapped hready hlong
    obtain ⟨hevac, hflag, hmark, v, huse⟩ := u.mapOut_shows (c.fld 0 1)
    refine ⟨_, hexec, hstarts.mapOut _, by rw [hevac, htime], ?_, ?_, hflag⟩
    · rw [hmark, hnone, Nat.zero_or, Nat.mod_eq_of_lt (Nat.pow_lt_pow_right Nat.one_lt_two hk)]
    · rw [huse]
      exact stackBit_cleared v hk
  case mapIn =>
    intro s c htakes hok hk hmode hmapped hevac htested
    exact ⟨_, exec_deepbufMapout_returns htakes hok hk hmode hmapped hevac htested, _, _, _, _, _, rfl, State.mapIn_shows _ hk⟩
  case mapoutDone =>
    intro s k t0 done n lost hevac
    refine ⟨_, exec_mapoutDone n lost hevac, congrArg FabricSt.evac (State.evacReport_fabric ..), ?flag, ?written, ?corrected⟩
    case flag => exact ((State.evacReport_writes ..).fld (quietAddr_at rfl)).trans (State.fld_setF _ _ _ (by decide))
    case written =>
      have hmoved : ((s.evacRead k n lost).evacuate k).fabric.written = s.fabric.written :=
        (SameTraffic.evacuate _ k).written.trans (s.evacRead_written k n lost)
      exact (congrArg FabricSt.written (State.evacReport_fabric ..)).trans hmoved
    case corrected =>
      have hover : Writes [Reg.deepStatus] (s.evacRead k n lost) (((s.evacRead k n lost).evacuate k).evacOver ((s.stackCells k).length - done)) :=
        .setF (Reg.deepStatus_at rfl) (.put_fabric (.kept State.evacuate_kept rfl .refl))
      rw [Writes.fld_deepEccCorr (State.evacReport_writes ..) rfl, Writes.fld_deepEccCorr hover rfl, State.evacRead_deepEccCorr]
  case scrub =>
    intro s c htakes hok hmask hmode hbar hfree
    exact exec_deepbufScrub_begins htakes hok hmask hmode hbar hfree

end Sys2Proof.Machine
end

section
/-!
Servo slots (spec/10 R336 to R350; spec/01 R32, R34; spec/03 R106): what core ticks leave of the servo, how a slot enters a state, and what the
rows of a beat, the loss of an input, SLOT_ACCEPT and a write of `SLOT[k]_CFG` do.
-/
namespace Sys2Proof.Machine
open Sys2Proof

/-! ### Operations that leave the servo or the dip alone -/

theorem Kept.servo {L : List Part} {s t : State} (k : Kept L s t) (h : L.contains .servo = false) : t.servo = s.servo := k.same .servo h

theorem Kept.slot {L : List Part} {s t : State} (k : Kept L s t) (h : L.contains .servo = false) (i : Nat) : t.slot i = s.slot i := by
  simp only [State.slot, k.servo h]

theorem Kept.sess {L : List Part} {s t : State} (k : Kept L s t) (h : L.contains .servo = false) (i : Nat) : t.sess i = s.sess i := by
  simp only [State.sess, k.servo h]

theorem Kept.feeder {L : List Part} {s t : State} (k : Kept L s t) (h : L.contains .servo = false) (i : Nat) : t.feeder i = s.feeder i := by
  simp only [State.feeder, k.servo h]

theorem Kept.inDip {L : List Part} {s t : State} (k : Kept L s t) (h : L.contains .power = false) : t.inDip = s.inDip := by
  simp only [State.inDip, k.power_eq h]

/-! ### CORE4's fetch of a command leaves the waiting commands and the slots' registers alone -/

theorem State.post_parked (s : State) (p : Post) : (s.post p).host.parked = s.host.parked := by
  unfold State.post
  split <;> rfl

theorem State.advance_parked (s : State) (r n : Nat) : (s.advance r n).host.parked = s.host.parked := by
  unfold State.advance
  extract_lets u
  split
  · exact u.post_parked _
  · rfl

theorem State.fetched_parked (s : State) (c : Cmd) : (s.fetched c).host.parked = s.host.parked := by
  unfold State.fetched
  extract_lets u host v
  split
  · exact v.advance_parked _ _
  · rfl

/-- A command that is parked once fetched waits behind those that waited before, under the next id. -/
theorem State.park_fetched_parked (s : State) (c : Cmd) (op : Nat) :
    ((s.fetched c).park c op).host.parked = s.host.parked ++ [{ id := s.host.nextId, cmd := c, op := op, issued := false }] := by
  simp only [State.park, s.fetched_parked c, s.fetched_nextId c]

theorem State.fetched_slotState (s : State) (c : Cmd) {k : Nat} (hk : k < 256) : (s.fetched c).slotState k = s.slotState k :=
  State.fetched_writes.fld (rowsApart_at rfl hk rfl)

theorem State.fetched_slotKind (s : State) (c : Cmd) {k : Nat} (hk : k < 256) : (s.fetched c).slotKind k = s.slotKind k :=
  State.fetched_writes.fld (rowsApart_at rfl hk rfl)

theorem State.fetched_slotTarget (s : State) (c : Cmd) {k : Nat} (hk : k < 256) : (s.fetched c).slotTarget k = s.slotTarget k :=
  State.fetched_writes.fld (rowsApart_at rfl hk rfl)

theorem State.fetched_cnt (s : State) (c : Cmd) (k : Nat) : (s.fetched c).cnt k = s.cnt k := by
  simp only [State.cnt, s.fetched_time]

theorem cmdByte_lt (c : Cmd) (off : Nat) : c.fld off 1 < 256 := Nat.mod_lt _ (by decide)

/-! ### Core ticks write registers of TIMEBASE alone, which end below `0x3001000` (spec/09 R291) -/

theorem at1_ne_of_ge {b n s k a : Nat} (hk : k < n) (hs : 0 < s) (h : b + s * n ≤ a) : a ≠ RegMap.at1 b n s k := by
  rw [RegMap.at1, if_pos hk]
  have hlt : s * k < s * n := Nat.mul_lt_mul_of_pos_left hk hs
  omega

theorem State.latchCounters_reg (s : State) {a : Nat} (ha : 0x3001000 ≤ a) : s.latchCounters.reg a = s.reg a := by
  have hctrl : a ≠ Reg.tbSnapCtrl := by
    unfold Reg.tbSnapCtrl
    omega
  unfold State.latchCounters
  rw [State.reg_setF_other _ _ hctrl, State.reg_setF_other _ _ hctrl, State.modTime_reg]
  refine State.each_unchanged (view := fun v => v.reg a) (fun v k hk => ?_) s
  have hk : k < 32 := List.mem_range.1 hk
  have hincr : a ≠ Reg.tbIncrLo k ∧ a ≠ Reg.tbIncrHi k := ⟨at1_ne_of_ge hk (by decide) (by omega), at1_ne_of_ge hk (by decide) (by omega)⟩
  have hsub : a ≠ Reg.tbSnapFrac k ∧ a ≠ Reg.tbSnapNs k := ⟨at1_ne_of_ge hk (by decide) (by omega), at1_ne_of_ge hk (by decide) (by omega)⟩
  have hsec : a ≠ Reg.tbSnapSecLo k ∧ a ≠ Reg.tbSnapSecHi k := ⟨at1_ne_of_ge hk (by decide) (by omega), at1_ne_of_ge hk (by decide) (by omega)⟩
  simp only [State.setF, F.tbSnapNs_NS, F.tbSnapSecHi_SEC_HI, State.reg_setReg, if_neg hincr.1, if_neg hincr.2, if_neg hsub.1, if_neg hsub.2,
    if_neg hsec.1, if_neg hsec.2]

theorem State.toTick_reg (s : State) (n : Nat) {a : Nat} (ha : 0x3001000 ≤ a) : (s.toTick n).reg a = s.reg a := by
  unfold State.toTick
  split
  · rcases s.pass_cases (min n (s.time.beatLen - 1) - s.time.beatTicks) with ⟨-, h⟩ | h
    · rw [h, State.ticks_reg, State.latchCounters_reg _ ha, State.ticks_reg]
    · rw [h, State.ticks_reg]
  · rfl

theorem slotRow_ge {b : Nat} (hb : 0x3001000 ≤ b) (k : Nat) : 0x3001000 ≤ RegMap.at1 b 256 0x40 k := by
  unfold RegMap.at1 RegMap.nowhere
  split <;> omega

theorem State.toTick_filter (s : State) (n k : Nat) : (s.toTick n).fld (F.slotCfg_FILTER k) = s.fld (F.slotCfg_FILTER k) :=
  congrArg (Fld.of _) (s.toTick_reg n (slotRow_ge (by decide) k))

theorem State.toTick_late (s : State) (n k : Nat) : (s.toTick n).fld (F.slotLate_COUNT k) = s.fld (F.slotLate_COUNT k) :=
  congrArg (Fld.of _) (s.toTick_reg n (slotRow_ge (by decide) k))

theorem State.toTick_dueSlots (s : State) (n : Nat) : (s.toTick n).dueSlots = s.dueSlots := by
  have hprio (k : Nat) : (s.toTick n).fld (F.slotCfg_PRIO k) = s.fld (F.slotCfg_PRIO k) :=
    congrArg (Fld.of _) (s.toTick_reg n (slotRow_ge (by decide) k))
  simp only [State.dueSlots, hprio, (State.toTick_kept (s := s) (x1 := n)).servo rfl]

/-! ### SERVO_COMPUTE (spec/10 R336, R338; spec/03 R106) -/

theorem exec_servoCompute {s : State} (h : s.joinedBeat = true) : exec .servoCompute s = .next (s.toTick 16).computeSlots := by
  show execServoCompute s = _
  rw [execServoCompute, if_pos h]

/-- The update that a slot with this FILTER makes of its samples, newest first. -/
def updateOf (filter : Nat) (kl : Bool) (l : List Sample) : Int × Nat × Nat := ((filterSamples filter kl l).1, (filterSamples filter kl l).2, l.length)

/-- A KL session feeds slot `k`. -/
def State.klFed (s : State) (k : Nat) : Bool := match s.feeder k with | some i => ss.delay (s.sess i).cfg == 2 | none => false

theorem State.klFed_eq (s : State) (k : Nat) : s.klFed k = (s.feeder k).any fun i => ss.delay (s.sess i).cfg == 2 := by
  unfold State.klFed
  cases s.feeder k <;> rfl

/-- Slot `k` is due in this beat: the slots `served` compute their update, another gives up its samples. -/
def State.slotComputed (served : List Nat) (s : State) (k : Nat) : State :=
  s.modSlot k fun x =>
    if served.contains k then { x with due := .done, samples := [], upd := some (updateOf (s.fld (F.slotCfg_FILTER k)) (s.klFed k) x.samples) }
    else { x with due := if x.samples.isEmpty then .done else .unserved, samples := [] }

/-- Slots that are served in this beat: at most 64, and none without samples. -/
def State.servedSlots (s : State) : List Nat := (s.dueSlots.filter fun k => !(s.slot k).samples.isEmpty).take 64

theorem State.computeSlots_slots {s : State} (hdip : s.inDip = false) (k : Nat) :
    s.computeSlots.slot k = (s.each s.dueSlots (State.slotComputed s.servedSlots)).slot k := by
  unfold State.computeSlots
  rw [hdip]
  rfl

theorem State.slotComputed_served {s : State} {k : Nat} {served : List Nat} {kl : Bool} (hserved : served.contains k = true)
    (hkl : kl = (s.feeder k).any fun i => ss.delay (s.sess i).cfg == 2) : (s.slotComputed served k).slot k =
      { s.slot k with due := .done, samples := [], upd := some (updateOf (s.fld (F.slotCfg_FILTER k)) kl (s.slot k).samples) } := by
  simp only [State.slotComputed, State.slot_modSlot, hserved, hkl, s.klFed_eq, if_true]

theorem State.computeSlots_of_inDip {s : State} (hdip : s.inDip = true) :
    s.computeSlots = s.each s.dueSlots fun s k => s.modSlot k fun x => { x with due := .done, samples := [] } := if_pos hdip

theorem State.each_singleton {α : Type} (s : State) (a : α) (f : State → α → State) : s.each [a] f = f s a := rfl

/-- The one due slot computes its update from its samples. -/
theorem State.computeSlots_one {s : State} {k : Nat} {kl : Bool} (hdip : s.inDip = false) (hdue : s.dueSlots = [k]) (hsamples : (s.slot k).samples ≠ [])
    (hkl : kl = (s.feeder k).any fun i => ss.delay (s.sess i).cfg == 2) : s.computeSlots.slot k =
      { s.slot k with due := .done, samples := [], upd := some (updateOf (s.fld (F.slotCfg_FILTER k)) kl (s.slot k).samples) } := by
  have hserved : s.servedSlots.contains k = true := by simp [State.servedSlots, hdue, hsamples]
  rw [State.computeSlots_slots hdip, hdue, State.each_singleton, State.slotComputed_served hserved hkl]

/-- In a dip the one due slot gives up its samples, and computes nothing. -/
theorem State.computeSlots_one_inDip {s : State} {k : Nat} (hdip : s.inDip = true) (hdue : s.dueSlots = [k]) :
    s.computeSlots.slot k = { s.slot k with due := .done, samples := [] } := by
  rw [State.computeSlots_of_inDip hdip, hdue, State.each_singleton, State.slot_modSlot]

/-! ### SERVO_DEADLINE (spec/01 R32, R34; spec/10 R338, R350) -/

theorem exec_servoDeadline {s : State} (h : s.joinedBeat = true) : exec .servoDeadline s = .next (s.toTick 12800).slotDeadline := by
  show execServoDeadline s = _
  rw [execServoDeadline, if_pos h]

/-- The deadline closes slot `k`: it is due no more, and the unverified exchanges of its session are discarded. -/
def State.slotClosed (s : State) (k : Nat) : State :=
  let s := match s.feeder k with
    | some i => s.modSess i fun x => { x with authLate := sat 0xFFFF (x.authLate + x.unverified), unverified := 0 }
    | none => s
  s.modSlot k fun x => { x with due := .no, samples := if x.due = .due then [] else x.samples }

/-- Slots that the deadline finds due, served or not. -/
def State.deadlineSlots (s : State) : List Nat := (s.servo.slot.filter fun p => p.2.due != .no).map (·.1)

/-- Those of them whose update is late. -/
def State.lateSlots (s : State) : List Nat :=
  if s.inDip then [] else s.deadlineSlots.filter fun k => (s.slot k).due == .unserved || ((s.slot k).due == .due && !(s.slot k).samples.isEmpty)

theorem State.slotDeadline_eq (s : State) : s.slotDeadline =
    ((s.each s.lateSlots fun s k => s.bump (F.slotLate_COUNT k)).each s.deadlineSlots State.slotClosed).late 0 s.lateSlots.length := rfl

theorem State.slotClosed_due (s : State) (k : Nat) : ((s.slotClosed k).slot k).due = .no := by
  simp only [State.slotClosed, State.slot_modSlot]

theorem State.slotClosed_other (s : State) {k j : Nat} (h : j ≠ k) : (s.slotClosed k).slot j = s.slot j := by
  rw [State.slotClosed, State.slot_modSlot_other _ _ h]
  split <;> rfl

theorem State.slotClosed_regs (s : State) (k : Nat) : (s.slotClosed k).regs = s.regs := by
  rw [State.slotClosed, State.modSlot_regs]
  split <;> rfl

/-- After the slots of `l` have been closed, a slot that is due no more unless it is one of `l` is due no more. -/
theorem State.each_slotClosed_due {l : List Nat} {k : Nat} {s : State} (h : (s.slot k).due ≠ .no → k ∈ l) :
    ((s.each l State.slotClosed).slot k).due = .no := by
  induction l generalizing s with
  | nil => exact Decidable.byContradiction fun hdue => List.not_mem_nil (h hdue)
  | cons j l ih =>
    refine ih (s := s.slotClosed j) fun hdue => ?_
    have hne : k ≠ j := by
      rintro rfl
      exact hdue (s.slotClosed_due k)
    rw [s.slotClosed_other hne] at hdue
    exact (List.mem_cons.1 (h hdue)).resolve_left hne

theorem Tab.mem_of_find {α : Type} {k : Nat} {v : α} {t : Tab α} (h : Tab.find k t = some v) : (k, v) ∈ t := by
  induction t with
  | nil => cases h
  | cons p t ih =>
    obtain ⟨a, w⟩ := p
    unfold Tab.find at h
    split at h
    case isTrue e =>
      cases h
      exact e ▸ List.mem_cons_self
    case isFalse => exact List.mem_cons_of_mem _ (ih h)

theorem State.mem_deadlineSlots {s : State} {k : Nat} (h : (s.slot k).due ≠ .no) : k ∈ s.deadlineSlots := by
  cases hfind : Tab.find k s.servo.slot with
  | none => exact absurd (by simp only [State.slot, Tab.get, hfind, Option.getD_none]) h
  | some x =>
    have hx : s.slot k = x := by simp only [State.slot, Tab.get, hfind, Option.getD_some]
    exact List.mem_map.2 ⟨(k, x), List.mem_filter.2 ⟨Tab.mem_of_find hfind, by simpa [← hx] using h⟩, rfl⟩

theorem State.slotDeadline_due (s : State) (k : Nat) : (s.slotDeadline.slot k).due = .no := by
  rw [s.slotDeadline_eq, State.late_kept.slot rfl]
  refine State.each_slotClosed_due fun hdue => State.mem_deadlineSlots ?_
  rwa [State.each_unchanged (view := fun v => v.slot k) (f := fun v j => v.bump (F.slotLate_COUNT j)) (fun _ _ _ => rfl)] at hdue

/-- With one open slot, which was not served, the deadline counts its late update, and one late case of category 0. -/
theorem State.slotDeadline_unserved {s : State} {k : Nat} {x : SlotSt} (hdip : s.inDip = false) (hslot : s.servo.slot = [(k, x)]) (hk : k < 256)
    (hdue : x.due = .unserved) : s.slotDeadline.fld (F.slotLate_COUNT k) = min (2 ^ 32 - 1) (s.fld (F.slotLate_COUNT k) + 1) ∧
      s.slotDeadline.fld (F.globalLateCnt_COUNT 0) = min (2 ^ 32 - 1) (s.fld (F.globalLateCnt_COUNT 0) + 1) := by
  have hopen : s.deadlineSlots = [k] := by simp [State.deadlineSlots, hslot, hdue]
  have hget : s.slot k = x := by simp [State.slot, Tab.get, Tab.find, hslot]
  have hlate : s.lateSlots = [k] := by simp [State.lateSlots, hdip, hopen, hget, hdue]
  have heq : s.slotDeadline = ((s.bump (F.slotLate_COUNT k)).slotClosed k).late 0 1 := by
    rw [s.slotDeadline_eq, hlate, hopen]
    rfl
  have hclosed (f : Fld) : ((s.bump (F.slotLate_COUNT k)).slotClosed k).fld f = (s.bump (F.slotLate_COUNT k)).fld f := by
    simp only [State.fld, State.reg, State.slotClosed_regs]
  have hne : Reg.slotLate k ≠ Reg.globalLateCnt 0 ∧ Reg.slotLate k ≠ Reg.globalLateFlags := by
    rw [show Reg.slotLate k = 0x3410034 + 0x40 * k from if_pos hk]
    exact ⟨Nat.ne_of_gt (show 0x110 < _ by omega), Nat.ne_of_gt (show 0x108 < _ by omega)⟩
  rw [heq]
  refine ⟨?slot, ?global⟩
  case slot =>
    rw [State.late_fld _ Nat.one_ne_zero (rowsApart_at rfl hk rfl), State.fld_setF_reg _ _ hne.2, State.fld_bump_reg _ _ hne.1, hclosed]
    exact s.fld_bump 1 (Nat.le_refl 32)
  case global =>
    refine (State.late_count _ 0 1).trans ?_
    rw [hclosed, State.fld_bump_reg _ _ hne.1.symm]
    rfl

/-! ### A slot enters a state (spec/10 R345) -/

/-- Slot `k` shows the state `new` and its cause. -/
def State.slotShown (s : State) (k new cause : Nat) : State :=
  ((((s.setF (F.slotStatus_STATE k) new).setF (F.slotStatus_CAUSE k) cause).modSlot k fun x => { x with jumped := x.jumped && new == 3 }).when
    (new != 1) fun s => s.setF (F.slotStatus_MAY_STEP k) 0).showReady k

/-- A slot that enters a state shows it, and at most raises an event. -/
theorem State.goSlot_cases (s : State) (k new cause : Nat) (force : Bool) :
    s.goSlot k new cause force = s.slotShown k new cause ∨ ∃ fields, s.goSlot k new cause force = (s.slotShown k new cause).raise 0x0702 32 fields := by
  unfold State.goSlot
  extract_lets old u v w f
  split
  · exact .inl rfl
  · exact .inr ⟨_, rfl⟩

theorem State.slotShown_servo (s : State) (k new cause : Nat) :
    (s.slotShown k new cause).servo = (s.modSlot k fun x => { x with jumped := x.jumped && new == 3 }).servo := by
  unfold State.slotShown State.when
  split <;> rfl

theorem State.goSlot_servo (s : State) (k new cause : Nat) (force : Bool) :
    (s.goSlot k new cause force).servo = (s.modSlot k fun x => { x with jumped := x.jumped && new == 3 }).servo := by
  rw [← s.slotShown_servo k new cause]
  rcases s.goSlot_cases k new cause force with h | ⟨fields, h⟩
  · rw [h]
  · rw [h]
    exact State.raise_kept.servo rfl

theorem State.goSlot_slot (s : State) (k new cause : Nat) (force : Bool) :
    (s.goSlot k new cause force).slot k = { s.slot k with jumped := (s.slot k).jumped && new == 3 } :=
  (congrArg (fun x : ServoSt => Tab.get x.slot {} k) (s.goSlot_servo k new cause force)).trans (State.slot_modSlot ..)

/-- Of `SLOT[k]_STATUS`, what a slot shows besides its state and the cause lies in fields of its own. -/
theorem State.slotShown_fld (s : State) {k new cause : Nat} {f : Fld} (hf : f ∈ [F.slotStatus_STATE k, F.slotStatus_CAUSE k]) :
    (s.slotShown k new cause).fld f = ((s.setF (F.slotStatus_STATE k) new).setF (F.slotStatus_CAUSE k) cause).fld f := by
  have hsep : (F.slotStatus_RECOVERING k).sep f = true ∧ (F.slotStatus_READY k).sep f = true ∧ (F.slotStatus_MAY_STEP k).sep f = true := by
    rcases List.mem_cons.1 hf with rfl | hf
    · exact ⟨rfl, rfl, rfl⟩
    · rw [List.mem_singleton.1 hf]
      exact ⟨rfl, rfl, rfl⟩
  obtain ⟨hrecovering, hready, hstep⟩ := hsep
  rw [State.slotShown, State.showReady, State.fld_setF_sep _ _ hrecovering, State.fld_setF_sep _ _ hready]
  unfold State.when
  split
  · rw [State.fld_setF_sep _ _ hstep, State.modSlot_fld]
  · rw [State.modSlot_fld]

/-- A slot that enters a state shows it and its cause. -/
theorem State.goSlot_shows (s : State) {k new cause : Nat} (hk : k < 256) (hnew : new < 16) (hcause : cause < 16) (force : Bool) :
    (s.goSlot k new cause force).slotState k = new ∧ (s.goSlot k new cause force).fld (F.slotStatus_CAUSE k) = cause := by
  have hgo {f : Fld} (hf : f.addr = Reg.slotStatus k) : (s.goSlot k new cause force).fld f = (s.slotShown k new cause).fld f := by
    rcases s.goSlot_cases k new cause force with h | ⟨fields, h⟩
    · rw [h]
    · rw [h]
      exact State.raise_writes.fld (hf ▸ rowsApart_at rfl hk rfl)
  constructor
  · rw [State.slotState, hgo rfl, s.slotShown_fld List.mem_cons_self, State.fld_setF_sep _ _ rfl]
    exact State.fld_setF_of_lt _ (show 28 + 4 ≤ 32 by decide) hnew
  · rw [hgo rfl, s.slotShown_fld (List.mem_cons_of_mem _ List.mem_cons_self)]
    exact State.fld_setF_of_lt _ (show 24 + 4 ≤ 32 by decide) hcause

/-! ### SLOT_INPUT_TIMEOUT (spec/10 R345, R347) -/

theorem exec_slotInputTimeout {s : State} {k : Fin 256} (hup : s.up = true) (hrun : runningSlot (s.slotState k) = true) (hidle : s.slotIdle k = true)
    (hdip : s.inDip = false) : exec (.slotInputTimeout k) s = .next (s.loseSlot k 3) := by
  show execSlotInputTimeout k s = _
  rw [execSlotInputTimeout, hup, hrun, hidle, hdip]
  rfl

theorem State.loseSlot_holds {s : State} {k : Nat} (cause : Nat) (hswitch : (s.slot k).switch = none) (hact : s.flag (F.slotCfg_LOSS_ACT k) = false) :
    s.loseSlot k cause = s.goSlot k 3 cause := by
  simp only [State.loseSlot, hswitch, hact, Option.isSome_none, Bool.false_eq_true, if_false]

theorem State.loseSlot_switches {s : State} {k p : Nat} (cause : Nat) (hswitch : (s.slot k).switch = none) (hact : s.flag (F.slotCfg_LOSS_ACT k) = true)
    (hpartner : s.readyPartner k = some p) : s.loseSlot k cause = s.modSlot k fun x => { x with switch := some cause } := by
  simp only [State.loseSlot, hswitch, hact, hpartner, Option.isSome_none, Bool.false_eq_true, if_false, if_true]

/-! ### SLOT_ACCEPT (spec/10 R348, R351) -/

/-- SLOT_ACCEPT may act on slot `k`: it holds for a jump, and no switch waits. -/
def State.mayAccept (s : State) (k : Nat) : Prop := s.slotState k = 3 ∧ (s.slot k).jumped = true ∧ (s.slot k).switch = none

theorem exec_slotAccept_step {s : State} {c : Cmd} (htakes : s.takes c 0x0703 = true) (hok : c.ok 2 = true) (haction : c.fld 1 1 = 0)
    (hmay : (s.fetched c).mayAccept (c.fld 0 1)) (hkind : (s.fetched c).slotKind (c.fld 0 1) = 0) :
    exec (.slotAccept c) s = .next ((s.fetched c).park c 0x0703) := by
  obtain ⟨hstate, hjumped, hswitch⟩ := hmay
  show execSlotAccept c s = _
  rw [execSlotAccept, start_takes htakes (by simp [hok, haction])]
  simp [hstate, hjumped, hswitch, haction, hkind]

/-- Slot `k` begins to pull: from the increment that its counter has at present (log entry 28). -/
def State.pullFrom (s : State) (k : Nat) : State :=
  (s.modSlot k fun x => { x with base := (s.cnt (s.slotTarget k)).incr.toNat, lockRun := 0, farRun := 0 }).goSlot k 4 11

theorem exec_slotAccept_pull {s : State} {c : Cmd} (htakes : s.takes c 0x0703 = true) (hok : c.ok 2 = true) (haction : c.fld 1 1 = 1)
    (hmay : (s.fetched c).mayAccept (c.fld 0 1)) :
    exec (.slotAccept c) s = .next (((s.fetched c).pullFrom (c.fld 0 1)).complete c 0x0703 st.ok) := by
  obtain ⟨hstate, hjumped, hswitch⟩ := hmay
  show execSlotAccept c s = _
  rw [execSlotAccept, start_takes htakes (by simp [hok, haction])]
  simp [hstate, hjumped, hswitch, haction, State.pullFrom]

theorem State.pullFrom_shows (s : State) {k : Nat} (hk : k < 256) :
    (s.pullFrom k).slotState k = 4 ∧ ((s.pullFrom k).slot k).base = (s.cnt (s.slotTarget k)).incr.toNat :=
  ⟨(State.goSlot_shows _ hk (by decide) (by decide) false).1, by rw [State.pullFrom, State.goSlot_slot, State.slot_modSlot]⟩

theorem State.fetched_mayAccept {s : State} {c : Cmd} {k : Nat} (hk : k < 256) (hstate : s.slotState k = 3) (hjumped : (s.slot k).jumped = true)
    (hswitch : (s.slot k).switch = none) : (s.fetched c).mayAccept k := by
  rw [State.mayAccept, s.fetched_slotState c hk, State.fetched_kept.slot rfl]
  exact ⟨hstate, hjumped, hswitch⟩

/-! ### A write of `SLOT[k]_CFG` (spec/10 R339, R340, R349) -/

/-- The word that register `a` holds from the next boundary on, with the RW bits of `w` written. -/
def State.rwNext (s : State) (a : Nat) (w : Word) : Word := (s.regW a &&& ~~~(rwMask a)) ||| (w &&& rwMask a)

theorem exec_slotUpd_waits {s : State} {k : Fin 256} {v : Word} (hup : s.up = true) (hbeaten : s.beaten .host (Reg.slotCfg k) = false)
    (hupd : (F.slotCfg_UPD k).of v = 1) (hok : s.slotOk k (s.rwNext (Reg.slotCfg k) v) (s.regW (Reg.slotTimeout k)) = true) :
    exec (.slotUpd .host k v) s = .next (((s.wait (Reg.slotCfg k) (s.rwNext (Reg.slotCfg k) v)).took .host (Reg.slotCfg k)).setF (F.slotCfg_UPD k) 1) := by
  unfold State.rwNext at hok
  show execSlotUpd .host k v s = _
  simp [execSlotUpd, State.slotWrite, State.byWriter, hup, hbeaten, hupd, hok, State.rwNext]

theorem exec_slotUpd_refused {s : State} {k : Fin 256} {v : Word} (hup : s.up = true) (hbeaten : s.beaten .host (Reg.slotCfg k) = false)
    (hbad : s.slotOk k (s.rwNext (Reg.slotCfg k) v) (s.regW (Reg.slotTimeout k)) = false) :
    exec (.slotUpd .host k v) s = .next (s.setF F.servoStatus_CFG_ERR 1) := by
  unfold State.rwNext at hbad
  show execSlotUpd .host k v s = _
  simp [execSlotUpd, State.slotWrite, State.byWriter, hup, hbeaten, hbad]

/-- Settles O28: the ticks that pass before a row of the beat leave the slots as they were, and no state is entered but through `State.goSlot`,
which shows it before it raises its event. -/
theorem servoSlots : Obligations.ServoSlots := by
  refine ⟨?compute, ?computeDip, ?due, ?late, ?hold, ?handOver, ?step, ?pull, ?write, ?refused⟩
  case compute =>
    intro s k kl hjoined hdip hdue hsamples hkl
    have hticks : Kept [.regs, .cnt, .time] s (s.toTick 16) := State.toTick_kept
    have hdue' : (s.toTick 16).dueSlots = [k] := (s.toTick_dueSlots 16).trans hdue
    have hkl' : kl = ((s.toTick 16).feeder k).any fun i => ss.delay ((s.toTick 16).sess i).cfg == 2 := by
      simpa only [hticks.feeder rfl, hticks.sess rfl] using hkl
    have hslot := State.computeSlots_one ((hticks.inDip rfl).trans hdip) hdue' (by rwa [hticks.slot rfl]) hkl'
    refine ⟨_, exec_servoCompute hjoined, ?_⟩
    dsimp only
    rw [hslot, s.toTick_filter, hticks.slot rfl]
    exact ⟨rfl, rfl, rfl⟩
  case computeDip =>
    intro s k hjoined hdip hdue
    have hticks : Kept [.regs, .cnt, .time] s (s.toTick 16) := State.toTick_kept
    have hslot := State.computeSlots_one_inDip ((hticks.inDip rfl).trans hdip) ((s.toTick_dueSlots 16).trans hdue)
    refine ⟨_, exec_servoCompute hjoined, ?_⟩
    dsimp only
    rw [hslot, hticks.slot rfl]
    exact ⟨rfl, rfl, rfl⟩
  case due =>
    intro s hjoined
    exact ⟨_, exec_servoDeadline hjoined, State.slotDeadline_due _⟩
  case late =>
    intro s k x hjoined hdip hslot hk hdue
    have hticks : Kept [.regs, .cnt, .time] s (s.toTick 12800) := State.toTick_kept
    have hglobal : (s.toTick 12800).fld (F.globalLateCnt_COUNT 0) = s.fld (F.globalLateCnt_COUNT 0) :=
      State.toTick_writes.fld (globalLateCnt_apart rfl 0)
    rw [← s.toTick_late 12800, ← hglobal]
    exact ⟨_, exec_servoDeadline hjoined,
      State.slotDeadline_unserved ((hticks.inDip rfl).trans hdip) ((congrArg ServoSt.slot (hticks.servo rfl)).trans hslot) hk hdue⟩
  case hold =>
    intro s k hup hrun hidle hdip hswitch hact
    refine ⟨_, exec_slotInputTimeout hup hrun hidle hdip, ?_⟩
    rw [State.loseSlot_holds 3 hswitch hact]
    exact s.goSlot_shows k.isLt (by decide) (by decide) false
  case handOver =>
    intro s k p hup hrun hidle hdip hswitch hact hpartner
    refine ⟨_, exec_slotInputTimeout hup hrun hidle hdip, ?_⟩
    rw [State.loseSlot_switches 3 hswitch hact hpartner]
    exact ⟨congrArg SlotSt.switch (State.slot_modSlot ..), rfl⟩
  case step =>
    intro s c htakes hok haction hstate hjumped hswitch hkind
    have hk := cmdByte_lt c 0
    exact ⟨_, exec_slotAccept_step htakes hok haction (State.fetched_mayAccept hk hstate hjumped hswitch) ((s.fetched_slotKind c hk).trans hkind),
      s.park_fetched_parked c _⟩
  case pull =>
    intro s c htakes hok haction hstate hjumped hswitch
    have hk := cmdByte_lt c 0
    refine ⟨_, exec_slotAccept_pull htakes hok haction (State.fetched_mayAccept hk hstate hjumped hswitch), _, _, _, _, _, rfl, ?_⟩
    rw [← s.fetched_slotTarget c hk, ← s.fetched_cnt c]
    exact State.pullFrom_shows _ hk
  case write =>
    intro s k v hup hbeaten hupd hok
    exact ⟨_, exec_slotUpd_waits hup hbeaten hupd hok, rfl, State.fld_setF _ _ _ (show 30 + 1 ≤ 32 by decide)⟩
  case refused =>
    intro s k v hup hbeaten hbad
    exact ⟨_, exec_slotUpd_refused hup hbeaten hbad, rfl, State.fld_setF _ _ _ (show 31 + 1 ≤ 32 by decide)⟩

end Sys2Proof.Machine
end

section
/-!
Partner sessions (spec/10 R323 to R334, R351): how a session enters a state, what the rows of its messages, units and windows make of it, and what
SESSION_SET and SESSION_READ do.
-/
namespace Sys2Proof.Machine
open Sys2Proof

/-! ### What slots do leaves the sessions alone (spec/10 R345) -/

theorem State.modSlot_sess (s : State) (k : Nat) (f : SlotSt → SlotSt) (i : Nat) : (s.modSlot k f).sess i = s.sess i := rfl

theorem State.goSlot_sess (s : State) (k new cause : Nat) (force : Bool) (i : Nat) : (s.goSlot k new cause force).sess i = s.sess i :=
  (congrArg (fun x : ServoSt => Tab.get x.sess {} i) (s.goSlot_servo k new cause force)).trans rfl

theorem State.loseSlot_sess (s : State) (k cause i : Nat) : (s.loseSlot k cause).sess i = s.sess i := by
  unfold State.loseSlot
  split
  · rfl
  split
  · split
    · rfl
    · exact s.goSlot_sess ..
  · exact s.goSlot_sess ..

theorem State.slotUnfed_sess (s : State) (k i : Nat) : (s.slotUnfed k).sess i = s.sess i := by
  unfold State.slotUnfed
  split
  · exact s.loseSlot_sess ..
  · exact State.showReady_kept.sess rfl i

/-! ### A session enters a state (spec/10 R324) -/

theorem State.goSess_sess (s : State) (i new cause : Nat) : (s.goSess i new cause).sess i = { s.sess i with state := new } := by
  unfold State.goSess
  extract_lets x fed u v
  split
  case isTrue h => rw [← h]
  case isFalse =>
    have hv : v.sess i = { s.sess i with state := new } := (State.raise_kept.sess rfl i).trans (State.sess_modSess ..)
    split
    · split
      · exact (v.slotUnfed_sess ..).trans hv
      · exact (State.showReady_kept.sess rfl i).trans hv
    · exact hv

/-! ### SESSION_SET and SESSION_READ (spec/10 R323, R351) -/

theorem exec_sessionSet {s : State} {c : Cmd} (htakes : s.takes c 0x0701 = true) (hok : c.ok 96 = true)
    (hcheck : (s.fetched c).sessCheck (sessPayload c) = st.ok) : exec (.sessionSet c) s = .next ((s.fetched c).park c 0x0701) := by
  show execSessionSet c s = _
  rw [execSessionSet, start_takes htakes hok]
  exact congrArg _ (if_pos hcheck)

/-- The counts of a session begin again. -/
def SessSt.recount (x : SessSt) : SessSt :=
  { x with dup := 0, fuMiss := 0, respMiss := 0, stale := 0, sfBad := 0, foreign := 0, authFail := 0, authLate := 0 }

/-- The record of session `i` is written at `a`, and its counts begin again. -/
def State.sessShown (src : Src) (s : State) (i a : Nat) : State := (s.bufWrite src a 64 (s.sessRec i).toNat).modSess i SessSt.recount

theorem exec_sessionRead {s : State} {c : Cmd} (htakes : s.takes c 0x0702 = true) (hok : c.ok 16 [(4, 4)] = true) (hn : 0 < c.fld 2 2)
    (hrange : c.fld 0 2 + c.fld 2 2 ≤ 4096) (halign : c.fld 8 8 % 64 = 0) (hbuf : s.bufOk c.src (c.fld 8 8) (64 * c.fld 2 2) = true) :
    exec (.sessionRead c) s = .next (((s.fetched c).each (List.range (c.fld 2 2)) fun s j =>
      s.sessShown c.src (c.fld 0 2 + j) (c.fld 8 8 + 64 * j)).complete c 0x0702 st.ok) := by
  show execSessionRead c s = _
  unfold execSessionRead
  extract_lets first n a
  rw [start_takes htakes (by simp [first, n, a, hok, hn, hrange, halign, hbuf])]
  rfl

theorem State.sessShown_sess (s : State) (src : Src) (i a : Nat) : (s.sessShown src i a).sess i = (s.sess i).recount := by
  rw [State.sessShown, State.sess_modSess, State.bufWrite_kept.sess rfl]

theorem State.sessShown_sess_other (s : State) (src : Src) {i j : Nat} (a : Nat) (h : j ≠ i) : (s.sessShown src i a).sess j = s.sess j := by
  rw [State.sessShown, State.sess_modSess_other _ _ h, State.bufWrite_kept.sess rfl]

/-- Each session that is read begins its counts again. -/
theorem State.each_sessShown_sess (s : State) (src : Src) (first a n : Nat) : ∀ j ∈ List.range n,
    (s.each (List.range n) fun s j => s.sessShown src (first + j) (a + 64 * j)).sess (first + j) = (s.sess (first + j)).recount :=
  State.each_own (view := fun v j => v.sess (first + j)) (P := fun _ x y => y = x.recount) List.nodup_range
    (fun v j _ => v.sessShown_sess ..) (fun v j _ k _ h => v.sessShown_sess_other src _ (by omega)) s

/-! ### SESSION_TX (spec/10 R328, R329) -/

theorem exec_sessionTx {s : State} {i : Fin 4096} {y : Fin 3} {k : Nat} (hup : s.up = true) (hstate : (s.sess i).state ≠ 0)
    (hsends : sends (s.sess i).cfg y = true) (hport : s.portUp (ss.port (s.sess i).cfg) = true)
    (hdue : s.dueNow (s.sess i) (if y = 0 then ss.logSync (s.sess i).cfg else ss.logDelay (s.sess i).cfg) = some k)
    (hnext : (if y = 2 then (s.sess i).pdNext else (s.sess i).txNext) ≤ k) : exec (.sessionTx i y k) s = .next (s.sessSend i y k) := by
  show execSessionTx i y k s = _
  simp only [execSessionTx, hup, hsends, hport, hdue, hnext, bne_iff_ne.2 hstate, beq_self_eq_true, decide_true, Bool.and_true, if_true]

/-- A message of a session joins the queue of its port; the session is as its numbers have been set. -/
theorem State.queuePtp_shows (s : State) (i mtype : Nat) (q : BitVec 16) (time corr sg : Int) (who : List Byte) :
    (∃ m n, ((s.queuePtp i mtype q time corr sg who).mac (ss.port (s.sess i).cfg)).own = (s.mac (ss.port (s.sess i).cfg)).own ++ [m] ∧
      m.note = some n ∧ n.sess = i ∧ n.mtype = mtype ∧ n.seq = q) ∧
    ∀ j, (s.queuePtp i mtype q time corr sg who).sess j = s.sess j :=
  ⟨⟨_, _, congrArg MacSt.own (State.mac_modMac ..), rfl, rfl, rfl, rfl⟩, fun _ => rfl⟩

/-- The numbers of a session once it has sent its message `k` of this type. -/
def SessSt.sent (x : SessSt) (mtype k : Nat) : SessSt :=
  if mtype = 2 then { x with pdSeq := x.pdSeq + 1, pdNext := k + 1 } else { x with txSeq := x.txSeq + 1, txNext := k + 1 }

theorem SessSt.sent_cfg (x : SessSt) (mtype k : Nat) : (x.sent mtype k).cfg = x.cfg := by
  unfold SessSt.sent
  split <;> rfl

theorem State.sessSend_eq (s : State) (i mtype k : Nat) : s.sessSend i mtype k = (s.modSess i fun x => x.sent mtype k).queuePtp i mtype
    (if mtype = 2 then (s.sess i).pdSeq else (s.sess i).txSeq) 0 0 0 [] := by
  unfold State.sessSend State.modSess SessSt.sent
  split <;> rfl

theorem State.sessSend_shows (s : State) (i mtype k : Nat) :
    (∃ m n, ((s.sessSend i mtype k).mac (ss.port (s.sess i).cfg)).own = (s.mac (ss.port (s.sess i).cfg)).own ++ [m] ∧ m.note = some n ∧
      n.sess = i ∧ n.mtype = mtype ∧ n.seq = if mtype = 2 then (s.sess i).pdSeq else (s.sess i).txSeq) ∧
    (s.sessSend i mtype k).sess i = (s.sess i).sent mtype k := by
  obtain ⟨hown, hsess⟩ := (s.modSess i fun x => x.sent mtype k).queuePtp_shows i mtype (if mtype = 2 then (s.sess i).pdSeq else (s.sess i).txSeq) 0 0 0 []
  rw [State.sess_modSess, SessSt.sent_cfg] at hown
  rw [State.sessSend_eq]
  exact ⟨hown, (hsess i).trans (State.sess_modSess ..)⟩

/-! ### FU_TIMEOUT (spec/10 R327) -/

theorem exec_fuTimeout {s : State} {i : Fin 4096} (hup : s.up = true) : exec (.fuTimeout i) s = .next (s.countFu i) := by
  show execFuTimeout i s = _
  rw [execFuTimeout, if_pos hup]

/-- Syncs of a session that have not yet waited one interval for their Follow_Up. -/
def State.syncsKept (s : State) (x : SessSt) : List MsgWait :=
  x.sync.filter fun w => decide ((s.time.tick - w.tick) * 128 < 1600000000 * logScaled (ss.logSync x.cfg))

theorem State.countFu_sess (s : State) (i : Nat) : (s.countFu i).sess i = { s.sess i with
    fuMiss := min 0xFFFF ((s.sess i).fuMiss + ((s.sess i).sync.length - (s.syncsKept (s.sess i)).length)), sync := s.syncsKept (s.sess i) } := by
  rw [State.countFu, State.sess_modSess, ← sat_eq_min]
  rfl

/-! ### PTP_RX (spec/10 R325 to R327) -/

theorem exec_ptpRx {s : State} {id : Nat} {f : EngineFrame} {p : Nat × Nat} (icv : Icv) (hfind : (s.servo.inbox.find? fun x => x.id = id) = some f)
    (hptp : f.ptp = some p) : exec (.ptpRx id icv) s =
      .next ((s.takeUp f).ptpRx f (ptpMsg f.bytes p.1 p.2 f.stamp) icv (!s.flag F.redundStatus_UNATTENDED)) := by
  show execPtpRx id icv s = _
  simp only [execPtpRx, hfind, hptp]

theorem State.ptpRx_owned (s : State) {f : EngineFrame} {m : PtpMsg} {i : Nat} (icv : Icv) (attended : Bool) (howner : s.sessOf f.port m = some i)
    (hengine : enginePtp m = true) : s.ptpRx f m icv attended = s.sessRx i m icv attended := by
  simp only [State.ptpRx, howner, hengine, if_true]

theorem State.ptpRx_foreign (s : State) {f : EngineFrame} {m : PtpMsg} {i : Nat} (icv : Icv) (attended : Bool) (howner : s.sessOf f.port m = none)
    (hmatch : s.matching f.port m = some i) : s.ptpRx f m icv attended =
      (s.modSess i fun x => { x with foreign := sat 0xFFFF (x.foreign + 1) }).toPair f := by
  simp only [State.ptpRx, howner, hmatch]

theorem State.toPair_sess (s : State) (f : EngineFrame) (i : Nat) : (s.toPair f).sess i = s.sess i := rfl

theorem State.sessRx_sync (s : State) {i : Nat} {m : PtpMsg} (icv : Icv) (attended : Bool) (hauth : ss.auth (s.sess i).cfg = false)
    (hdelay : ss.delay (s.sess i).cfg ≠ 2) (hrole : ss.role (s.sess i).cfg = 1) (hsync : m.mtype = 0) :
    s.sessRx i m icv attended = s.rxSync i m := by
  have hverified : s.verified i m icv attended = (s, true) := by simp only [State.verified, hauth, Bool.not_false, if_true]
  simp only [State.sessRx, hdelay, hverified, hsync, hrole, true_or, if_true, if_false]

/-- The first Sync of a session, two-step and stamped in no dip, is accepted and waits for its Follow_Up. -/
theorem State.rxSync_twoStep (s : State) {i v : Nat} {m : PtpMsg} (hfirst : (s.sess i).lastSeq = none) (hdip : s.dipAt m.stamp = false)
    (hstamp : s.toCounter (ss.counter (s.sess i).cfg) m.stamp = some v) (htwo : m.twoStep = true) : (s.rxSync i m) =
      (s.modSess i fun x => { x with lastSeq := some m.seq }).modSess i fun x =>
        { x with sync := { seq := m.seq, time := 0, stamp := v, corr := m.corr, tick := s.time.tick } :: x.sync } := by
  have hlocal : (s.modSess i fun x => { x with lastSeq := some m.seq }).localStamp i m.stamp =
      (s.modSess i fun x => { x with lastSeq := some m.seq }, some (v : Int)) := by
    have hstamp' : (s.modSess i fun x => { x with lastSeq := some m.seq }).toCounter (ss.counter (s.sess i).cfg) m.stamp = some v := hstamp
    simp only [State.localStamp, State.sess_modSess, hstamp']
  have hdip' : (s.modSess i fun x => { x with lastSeq := some m.seq }).dipAt m.stamp = false := hdip
  simp only [State.rxSync, hfirst, hdip', hlocal, htwo, Bool.not_true, Bool.false_eq_true, if_false, if_true]
  rfl

/-! ### SESSION_UNIT_END (spec/10 R329, R334) -/

theorem State.unitEnd_of_hit (s : State) {i : Nat} (hstate : (s.sess i).state ≠ 0) (htimed : ss.role (s.sess i).cfg ∈ [1, 4])
    (hhit : (s.sess i).hit = true) : (s.unitEnd i).sess i = { s.sess i with hit := false } := by
  have htimed' : (ss.role (s.sess i).cfg == 1 || ss.role (s.sess i).cfg == 4) = true := by simpa using htimed
  simp only [State.unitEnd, hstate, htimed', hhit, Bool.not_true, Bool.false_eq_true, or_self, if_false, if_true, State.sess_modSess]

/-- A missed unit of a LOCKED session whose port is up, short of the last miss that is allowed: the session recovers. -/
theorem State.unitEnd_of_miss (s : State) {i : Nat} (hstate : (s.sess i).state = 2) (htimed : ss.role (s.sess i).cfg ∈ [1, 4]) (hhit : (s.sess i).hit = false)
    (hport : s.portUp (ss.port (s.sess i).cfg) = true) (hmax : (s.sess i).misses + 1 < ss.missMax (s.sess i).cfg) (hcap : (s.sess i).misses < 255) :
    (s.unitEnd i).sess i = { s.sess i with misses := (s.sess i).misses + 1, state := 3 } := by
  have htimed' : (ss.role (s.sess i).cfg == 1 || ss.role (s.sess i).cfg == 4) = true := by simpa using htimed
  have hsat : sat 255 ((s.sess i).misses + 1) = (s.sess i).misses + 1 := if_pos hcap
  have hport' (n : Nat) : (s.modSess i fun x => { x with misses := n }).portUp (ss.port (s.sess i).cfg) = true := hport
  have hgo : s.unitEnd i = (s.modSess i fun x => { x with misses := (s.sess i).misses + 1 }).goSess i 3 2 := by
    simp only [State.unitEnd, hstate, htimed', hhit, hsat, hport', Nat.not_le.2 hmax, show (2 : Nat) ≠ 0 by decide, Bool.not_true, Bool.false_eq_true,
      or_self, true_or, if_false, if_true]
  rw [hgo, State.goSess_sess, State.sess_modSess]

theorem exec_sessionUnitEnd_ethernet {s : State} {i : Fin 4096} {k : Nat} (hup : s.up = true) (hdelay : ss.delay (s.sess i).cfg ≠ 2)
    (hdue : s.dueNow (s.sess i) (ss.logSync (s.sess i).cfg) = some k) (hnext : (s.sess i).unitNext < k) :
    exec (.sessionUnitEnd i) s = .next ((s.modSess i fun x => { x with unitNext := k }).unitEnd i) := by
  show execSessionUnitEnd i s = _
  simp only [execSessionUnitEnd, hup, hdelay, hdue, hnext, Bool.not_true, Bool.false_eq_true, if_false, if_true]

theorem exec_sessionUnitEnd_kl {s : State} {i : Fin 4096} (hup : s.up = true) (hstate : (s.sess i).state ≠ 0) (hdelay : ss.delay (s.sess i).cfg = 2) :
    exec (.sessionUnitEnd i) s = .next (s.klUnitEnd i) := by
  show execSessionUnitEnd i s = _
  simp only [execSessionUnitEnd, hup, hdelay, hstate, Bool.not_true, Bool.false_eq_true, if_false, if_true]

@[simp] theorem State.sess_modKl (s : State) (i : Nat) (f : KlRxSt → KlRxSt) : (s.modKl i f).sess i = { s.sess i with kl := f (s.sess i).kl } :=
  State.sess_modSess ..

theorem State.klUnitEnd_of_units {s : State} {i : Nat} (hclosed : (s.sess i).kl.closed = []) (hunits : 0 < (s.sess i).kl.units) :
    s.klUnitEnd i = (s.modKl i fun k => { k with units := k.units - 1 }).unitEnd i := by
  simp only [State.klUnitEnd, hclosed, hunits, List.isEmpty_nil, Bool.not_true, Bool.false_eq_true, if_false, if_true]

theorem State.klUnitEnd_of_time {s : State} {i : Nat} (hclosed : (s.sess i).kl.closed = []) (hunits : (s.sess i).kl.units = 0) : s.klUnitEnd i =
    if (s.sess i).kl.unitTick + s.klTicks (s.sess i).cfg + s.klTicks (s.sess i).cfg / 2 ^ ss.klLog2 (s.sess i).cfg ≤ s.time.tick then
      (s.modKl i fun k => { k with unitTick := k.unitTick + s.klTicks (s.sess i).cfg }).unitEnd i
    else s := by
  simp only [State.klUnitEnd, hclosed, hunits, List.isEmpty_nil, Bool.not_true, Bool.false_eq_true, Nat.lt_irrefl, if_false]

/-! ### KL_WINDOW_END and KL_REPORT_RX (spec/10 R331 to R333) -/

theorem State.exchange_kl (s : State) (i : Nat) (n : Int) (d : Nat) (mpd : Int × Nat) (key : Int) :
    ((s.exchange i n d mpd key).sess i).kl = (s.sess i).kl := by
  unfold State.exchange
  extract_lets c a u theta v w
  have hu : u.sess i = s.sess i := State.asymEff_kept.sess rfl i
  have hw : (w.sess i).kl = (s.sess i).kl := by rw [v.goSess_sess, State.sess_modSess, hu]
  split
  · split
    · exact hw
    · rw [State.modSlot_sess, hw]
  · exact hw

theorem exec_klWindowEnd {s : State} {i : Fin 4096} (hup : s.up = true) (hstate : (s.sess i).state ≠ 0) (hdelay : ss.delay (s.sess i).cfg = 2) :
    exec (.klWindowEnd i) s = .next (s.klWindow i) := by
  show execKlWindowEnd i s = _
  simp only [execKlWindowEnd, hup, hdelay, bne_iff_ne.2 hstate, beq_self_eq_true, Bool.and_self, if_true]

theorem State.klWindow_none {s : State} {i : Nat} (hclosed : (s.sess i).kl.closed = []) : s.klWindow i = s := by
  simp only [State.klWindow, hclosed]

theorem exec_klWindowEnd_none {s : State} {i : Fin 4096} (hclosed : (s.sess i).kl.closed = []) : exec (.klWindowEnd i) s = .next s := by
  show execKlWindowEnd i s = _
  rw [execKlWindowEnd, State.klWindow_none hclosed, ite_self]

theorem State.klWindow_closed {s : State} {i : Nat} {w : KlWin} {rest : List KlWin} (hclosed : (s.sess i).kl.closed = w :: rest) :
    ((s.klWindow i).sess i).kl.closed = rest := by
  unfold State.klWindow
  extract_lets c
  split
  case h_1 hnone => exact absurd (hclosed.symm.trans hnone) (List.cons_ne_nil _ _)
  case h_2 k l hsome =>
    obtain ⟨rfl, rfl⟩ := List.cons.inj (hclosed.symm.trans hsome)
    extract_lets u v win
    have hv : (v.sess i).kl.closed = rest := by
      have hu : (u.sess i).kl.closed = rest := congrArg (·.kl.closed) (State.sess_modKl ..)
      simp only [v]
      split
      · rw [State.queueOwn_kept.sess rfl, hu]
      · exact hu
    split
    · exact hv
    · rw [State.exchange_kl, State.sess_modSess]
      exact hv

theorem exec_klReportRx {s : State} {n : Fin 128} {id i : Nat} {f : EngineFrame} {r : KlReport}
    (hfind : (s.servo.inbox.find? fun x => x.id = id) = some f) (hptp : f.ptp = none) (hport : f.port = n.val) (hsess : s.klSess f.port = some i)
    (hreport : klReportOf f.bytes = some r) : exec (.klReportRx n id) s = .next ((s.takeUp f).klReportRx i r) := by
  show execKlReportRx n id s = _
  rw [hport] at hsess
  simp [execKlReportRx, hfind, hptp, hport, hsess, hreport]

theorem State.klReportRx_of_log2 (s : State) {i : Nat} {r : KlReport} (hlog : r.log2.toNat = ss.klLog2 (s.sess i).cfg) :
    s.klReportRx i r = s.modKl i fun k => { k with reports := (r :: k.reports).take 2 } := if_neg (not_not_intro hlog)

/-- Settles O29: each row and command comes down to one operation on its session, and what the session's slot and the host's reports make of it
leaves the session as that operation has set it. -/
theorem sessions : Obligations.Sessions := by
  refine ⟨?set, ?read, ?tx, ?followUp, ?sync, ?foreign, ?miss, ?hit, ?klUnits, ?klTime, ?window, ?noWindow, ?report⟩
  case set =>
    intro s c htakes hok hcheck
    exact ⟨_, exec_sessionSet htakes hok hcheck, s.park_fetched_parked c _⟩
  case read =>
    intro s c htakes hok hn hrange halign hbuf
    refine ⟨_, exec_sessionRead htakes hok hn hrange halign hbuf, _, _, _, _, _, rfl, fun j hj => ?_⟩
    rw [State.each_sessShown_sess _ _ _ _ _ j (List.mem_range.2 hj), State.fetched_kept.sess rfl]
    exact ⟨rfl, rfl, rfl, rfl⟩
  case tx =>
    intro s i y k hup hstate hsends hport hdue hnext
    obtain ⟨hown, hsess⟩ := s.sessSend_shows i y k
    have hy : y.val = 2 ↔ y = 2 := by omega
    simp only [SessSt.sent, hy] at hown hsess
    refine ⟨_, exec_sessionTx hup hstate hsends hport hdue hnext, hown, fun hne => ?_, fun he => ?_⟩
    · rw [hsess, if_neg hne]
      exact ⟨rfl, rfl⟩
    · rw [hsess, if_pos he]
      exact ⟨rfl, rfl⟩
  case followUp =>
    intro s i keep hup hkeep
    have hkept : keep = s.syncsKept (s.sess i) := hkeep
    refine ⟨_, exec_fuTimeout hup, ?_⟩
    dsimp only
    rw [hkept, s.countFu_sess]
    exact ⟨rfl, rfl⟩
  case sync =>
    rintro s id f p m i v hfind hptp rfl hwhole hsync htwo howner hauth hdelay hrole hfirst hdip hstamp icv
    have hengine : enginePtp (ptpMsg f.bytes p.1 p.2 f.stamp) = true := by simp [enginePtp, hwhole, hsync]
    have hrx := (((s.takeUp f).ptpRx_owned icv (!s.flag F.redundStatus_UNATTENDED) howner hengine).trans
      ((s.takeUp f).sessRx_sync icv _ hauth hdelay hrole hsync)).trans ((s.takeUp f).rxSync_twoStep hfirst hdip hstamp htwo)
    refine ⟨_, (exec_ptpRx icv hfind hptp).trans (congrArg _ hrx), ?_⟩
    dsimp only
    rw [State.sess_modSess, State.sess_modSess]
    exact ⟨rfl, rfl, rfl⟩
  case foreign =>
    rintro s id f p m i hfind hptp rfl howner hmatch icv
    have hrx := (s.takeUp f).ptpRx_foreign icv (!s.flag F.redundStatus_UNATTENDED) howner hmatch
    refine ⟨_, (exec_ptpRx icv hfind hptp).trans (congrArg _ hrx), ?_⟩
    dsimp only
    rw [State.toPair_sess, State.sess_modSess, ← sat_eq_min]
    exact ⟨rfl, rfl⟩
  case miss =>
    intro s i k hup hdelay hdue hnext hstate hrole hhit hport hmax hcap
    refine ⟨_, exec_sessionUnitEnd_ethernet hup hdelay hdue hnext, ?_⟩
    dsimp only
    rw [State.unitEnd_of_miss _ (by rwa [State.sess_modSess]) (by rw [State.sess_modSess]; exact List.mem_cons.2 (.inl hrole))
      (by rwa [State.sess_modSess]) (by rw [State.sess_modSess]; exact hport) (by rwa [State.sess_modSess]) (by rwa [State.sess_modSess]),
      State.sess_modSess]
    exact ⟨rfl, rfl, rfl⟩
  case hit =>
    intro s i k hup hdelay hdue hnext hstate hrole hhit
    refine ⟨_, exec_sessionUnitEnd_ethernet hup hdelay hdue hnext, ?_⟩
    dsimp only
    rw [State.unitEnd_of_hit _ (by rwa [State.sess_modSess]) (by rw [State.sess_modSess]; exact List.mem_cons.2 (.inl hrole))
      (by rwa [State.sess_modSess]), State.sess_modSess]
  case klUnits =>
    intro s i hup hstate hdelay hrole hclosed hunits hhit
    refine ⟨_, exec_sessionUnitEnd_kl hup hstate hdelay, ?_⟩
    dsimp only
    rw [State.klUnitEnd_of_units hclosed hunits, State.unitEnd_of_hit _ (by rwa [State.sess_modKl]) (by rwa [State.sess_modKl]) (by rwa [State.sess_modKl]),
      State.sess_modKl]
  case klTime =>
    rintro s i w hup hstate hdelay hrole hclosed hunits rfl hhit
    refine ⟨_, exec_sessionUnitEnd_kl hup hstate hdelay, ?_⟩
    dsimp only
    rw [State.klUnitEnd_of_time hclosed hunits]
    split
    · rw [State.unitEnd_of_hit _ (by rwa [State.sess_modKl]) (by rwa [State.sess_modKl]) (by rwa [State.sess_modKl]), State.sess_modKl]
    · rfl
  case window =>
    intro s i w rest hup hstate hdelay hclosed
    exact ⟨_, exec_klWindowEnd hup hstate hdelay, State.klWindow_closed hclosed⟩
  case noWindow =>
    intro s i hclosed
    exact ⟨s, exec_klWindowEnd_none hclosed, rfl⟩
  case report =>
    intro s n id f r i hfind hptp hsess hreport hlog hport
    have hrx := (s.takeUp f).klReportRx_of_log2 hlog
    exact ⟨_, (exec_klReportRx hfind hptp hport hsess hreport).trans (congrArg _ hrx), congrArg (·.kl.reports) (State.sess_modKl ..), rfl⟩

end Sys2Proof.Machine
end

section
/-!
Calibration (spec/11 R355 to R373): what triggers, the slots of a beat, results, CAL_SWEEP and CAL_HOLD make of the runs of a lane and of an
interval unit, and how the link figures of a port are asked for.
-/
namespace Sys2Proof.Machine
open Sys2Proof

/-! ### What leaves the runs alone -/

theorem Kept.cal {L : List Part} {s t : State} (k : Kept L s t) (h : L.contains .cal = false) : t.cal = s.cal := k.same .cal h

theorem Kept.pathCal {L : List Part} {s t : State} (k : Kept L s t) (h : L.contains .cal = false) (n : Nat) : t.pathCal n = s.pathCal n :=
  congrArg (fun c : CalSt => Tab.get c.path {} n) (k.cal h)

theorem Kept.interpCal {L : List Part} {s t : State} (k : Kept L s t) (h : L.contains .cal = false) (u : Nat) : t.interpCal u = s.interpCal u :=
  congrArg (fun c : CalSt => Tab.get c.interp {} u) (k.cal h)

@[simp] theorem State.showCal_pathCal (s : State) (u n : Nat) : (s.showCal u).pathCal n = s.pathCal n := State.showCal_kept.pathCal rfl n
@[simp] theorem State.showCal_interpCal (s : State) (u n : Nat) : (s.showCal u).interpCal n = s.interpCal n := State.showCal_kept.interpCal rfl n
@[simp] theorem State.modPath_interpCal (s : State) (n : Nat) (f : PathCal → PathCal) (u : Nat) : (s.modPath n f).interpCal u = s.interpCal u := rfl
@[simp] theorem State.modInterp_pathCal (s : State) (u : Nat) (f : InterpCal → InterpCal) (n : Nat) : (s.modInterp u f).pathCal n = s.pathCal n := rfl

/-! ### Runs become due (spec/11 R360, R361) -/

/-- The path calibration `x` once a run for `w` has become due on tick `now`. -/
def PathCal.due (x : PathCal) (w : CalWhy) (now : Nat) : PathCal :=
  { x with
    why := some (strongWhy x.why w), dueTick := if x.why.isSome then x.dueTick else now, sweep := x.sweep || w == .sweep
    tempFired := x.tempFired || w == .temp, periodFired := x.periodFired || w == .period }

theorem State.pathDue_pathCal (s : State) (n : Nat) (w : CalWhy) : (s.pathDue n w).pathCal n = (s.pathCal n).due w s.time.tick := by
  rw [State.pathDue, State.showCal_pathCal, State.pathCal_modPath, PathCal.due]

theorem State.pathDue_pathCal_other (s : State) {n m : Nat} (w : CalWhy) (h : m ≠ n) : (s.pathDue n w).pathCal m = s.pathCal m := by
  rw [State.pathDue, State.showCal_pathCal, State.pathCal_modPath_other _ _ h]

theorem State.pathDue_interpCal (s : State) (n : Nat) (w : CalWhy) (u : Nat) : (s.pathDue n w).interpCal u = s.interpCal u := by
  rw [State.pathDue, State.showCal_interpCal, State.modPath_interpCal]

theorem State.interpDue_pathCal (s : State) (u : Nat) (w : CalWhy) (again : Bool) (n : Nat) : (s.interpDue u w again).pathCal n = s.pathCal n := by
  rw [State.interpDue, State.showCal_pathCal, State.modInterp_pathCal]

theorem State.interpDue_why (s : State) (u : Nat) (w : CalWhy) (again : Bool) :
    ((s.interpDue u w again).interpCal u).why = some (strongWhy (s.interpCal u).why w) := by
  rw [State.interpDue, State.showCal_interpCal, State.interpCal_modInterp]
  cases again <;> rfl

/-- A trigger of a lane that has no run due makes its path run and its interpolator calibration due for the reason it gives. -/
theorem State.laneDue_why {s : State} {n : Nat} (w : CalWhy) (hpath : (s.pathCal n).why = none) (hinterp : (s.interpCal n).why = none) :
    ((s.laneDue n w).pathCal n).why = some w ∧ ((s.laneDue n w).interpCal n).why = some w := by
  constructor
  · rw [State.laneDue, State.interpDue_pathCal, State.pathDue_pathCal, PathCal.due, hpath]
    rfl
  · rw [State.laneDue, State.interpDue_why, State.pathDue_interpCal, hinterp]
    rfl

theorem State.laneDue_temp (s : State) (n : Nat) (w : CalWhy) : ((s.laneDue n w).pathCal n).temp = (s.pathCal n).temp := by
  rw [State.laneDue, State.interpDue_pathCal, State.pathDue_pathCal, PathCal.due]

/-! ### CAL_TEMP_CHECK and CAL_PERIOD_DUE (spec/11 R360; spec/02 R75) -/

theorem State.laneTrigger_temp (s : State) (n : Nat) : ((s.laneTrigger n).pathCal n).temp = (s.pathCal n).temp := by
  unfold State.laneTrigger
  extract_lets moved
  split
  · exact s.laneDue_temp n .temp
  · rfl

theorem State.laneTrigger_fires {s : State} {n : Nat} (hauto : s.flag (F.laneCalCfg_AUTO n) = true) (hjoined : s.joinedBeat = true)
    (hfired : (s.pathCal n).tempFired = false)
    (hmoved : max 1 (s.fld (F.laneCalCfg_TRIG n)) < (tempMoved (s.pathCal n).temp (s.fld (F.laneCalStatus_TEMP_LAST n))).natAbs) :
    s.laneTrigger n = s.laneDue n .temp := by
  simp only [State.laneTrigger, hauto, hjoined, hfired, hmoved, decide_true, Bool.not_false, Bool.and_self, if_true]

theorem State.interpDue_temps (s : State) (u : Nat) (w : CalWhy) (again : Bool) : (s.interpDue u w again).cal.temps = s.cal.temps :=
  (congrArg CalSt.temps (State.showCal_kept.cal rfl)).trans rfl

theorem State.unitTrigger_temps (s : State) (u : Nat) : (s.unitTrigger u).cal.temps = s.cal.temps := by
  unfold State.unitTrigger
  extract_lets moved x
  split
  · exact s.interpDue_temps ..
  · rfl

/-- The sensor of lane `n` has read `temp`. -/
def State.senseLane (s : State) (n : Nat) (temp : BitVec 16) : State := s.modPath n fun x => { x with temp := temp }

theorem State.senseLane_pathCal (s : State) (n : Nat) (temp : BitVec 16) : (s.senseLane n temp).pathCal n = { s.pathCal n with temp := temp } :=
  State.pathCal_modPath ..

/-- Fabric sensor `k` has read `temp`. -/
def State.senseFabric (s : State) (k : Nat) (temp : BitVec 16) : State := s.modCal fun x => { x with temps := Tab.put x.temps 0 k temp }

theorem exec_calTempCheck_lane {s : State} {n : Fin 145} (temp : BitVec 16) (hup : s.up = true) (hn : n.val < 128) :
    exec (.calTempCheck n temp) s = .next ((s.senseLane n temp).laneTrigger n) := by
  show execCalTempCheck n temp s = _
  have hisland : n.val ≠ 144 := by omega
  simp only [execCalTempCheck, State.senseLane, hup, hn, hisland, Bool.not_true, Bool.false_eq_true, if_false, if_true]

/-- The reading of fabric sensor 12 lets the triggers of units 128 to 159 fire. -/
theorem exec_calTempCheck_fabric {s : State} {n : Fin 145} (temp : BitVec 16) (hup : s.up = true) (hlo : 128 ≤ n.val) (hhi : n.val < 144) :
    exec (.calTempCheck n temp) s = .next (if n.val = 140 then (s.senseFabric (n - 128) temp).each ((List.range 32).map (128 + ·)) State.unitTrigger
      else s.senseFabric (n - 128) temp) := by
  show execCalTempCheck n temp s = _
  simp only [execCalTempCheck, State.senseFabric, hup, Nat.ne_of_lt hhi, Nat.not_lt.2 hlo, Bool.not_true, Bool.false_eq_true, if_false]

theorem exec_calPeriodDue_fires {s : State} {n : Fin 128} (hjoined : s.joinedBeat = true) (hauto : s.flag (F.laneCalCfg_AUTO n) = true)
    (hover : s.periodOver n = true) (hfired : (s.pathCal n).periodFired = false) : exec (.calPeriodDue n) s = .next (s.laneDue n .period) := by
  show execCalPeriodDue n s = _
  simp only [execCalPeriodDue, hjoined, hauto, hover, hfired, Bool.not_false, Bool.and_self, if_true]

/-! ### CAL_SLOT_START (spec/11 R361) -/

theorem Tab.find_map {α β : Type} (f : Nat → α → β) (k : Nat) : ∀ t : Tab α, Tab.find k (t.map fun p => (p.1, f p.1 p.2)) = (Tab.find k t).map (f k)
  | [] => rfl
  | (a, v) :: t => by
    simp only [List.map_cons, Tab.find, Tab.find_map f k t]
    split
    case isTrue h => rw [h, Option.map_some]
    case isFalse => rfl

/-- A path run that is due notes whether its lane is without a gap in this beat (spec/11 R373). -/
def PathCal.noteGap (x : PathCal) (gapless : Bool) : PathCal := if x.why.isSome then { x with noGap := gapless } else x

theorem PathCal.noteGap_temp (x : PathCal) (gapless : Bool) : (x.noteGap gapless).temp = x.temp := by
  unfold PathCal.noteGap
  split <;> rfl

theorem State.markGaps_temp (s : State) (n : Nat) : (s.markGaps.pathCal n).temp = (s.pathCal n).temp := by
  have hfind : Tab.find n s.markGaps.cal.path = (Tab.find n s.cal.path).map fun x => x.noteGap (s.noGap n) :=
    Tab.find_map (fun k (x : PathCal) => x.noteGap (s.noGap k)) n s.cal.path
  simp only [State.pathCal, Tab.get, hfind]
  cases Tab.find n s.cal.path with
  | none => rfl
  | some x => exact x.noteGap_temp _

/-- A slot starts the path run of lane `u`. -/
def State.pathStart (s : State) (u : Nat) : State :=
  ((s.modPath u fun x => { x with running := true, startTemp := x.temp, tempFired := false }).setF (F.laneCalStatus_TEMP_LAST u)
    (s.pathCal u).temp.toNat).showCal u

theorem State.pathStart_pathCal (s : State) (u : Nat) :
    (s.pathStart u).pathCal u = { s.pathCal u with running := true, startTemp := (s.pathCal u).temp, tempFired := false } := by
  rw [State.pathStart, State.showCal_pathCal, State.setF_kept.pathCal rfl, State.pathCal_modPath]

/-- Where a path run is the only work, it starts. -/
theorem State.calSlots_one_path {s : State} {a b u : Nat} (hdip : s.inDip = false) (hserved : s.replaced 2 = false)
    (hwork : s.calWork = [(a, b, u, true)]) : s.calSlots = s.markGaps.pathStart u := by
  simp only [State.calSlots, hdip, hserved, hwork, Bool.or_self, Bool.false_eq_true, if_false]
  rfl

theorem exec_calSlotStart {s : State} (hjoined : s.joinedBeat = true) : exec .calSlotStart s = .next (s.toTick 16).calSlots := by
  show execCalSlotStart s = _
  rw [execCalSlotStart, if_pos hjoined]

theorem State.toTick_replaced (s : State) (n : Nat) {c : Nat} (hc : c < 8) : (s.toTick n).replaced c = s.replaced c :=
  congrArg (· == 4) (State.toTick_writes.fld (rowsApart_at (a := 0x200000) rfl hc rfl))

/-! ### PATH_RUN_DONE and CAL_CHUNK_DONE (spec/11 R356, R357, R364, R365) -/

theorem exec_pathRunDone {s : State} {n : Fin 128} (r : PathRun) (hrun : (s.pathCal n).running = true) :
    exec (.pathRunDone n r) s = .next ((s.modPath n fun x => { x with running := false, done := some r }).showCal n) := by
  show execPathRunDone n r s = _
  rw [execPathRunDone, if_pos hrun]

theorem exec_calChunkDone {s : State} {u : Fin 160} {p : Fin 4} (r : ChunkRes) (hrun : (s.interpCal u).running = true)
    (hpath : (s.interpCal u).path = p.val) :
    exec (.calChunkDone u p r) s = .next ((s.modInterp u fun x => x.chunk (iuPaths u) r).showCal u) := by
  show execCalChunkDone u p r s = _
  rw [execCalChunkDone, if_pos (by rw [hrun, hpath, beq_self_eq_true, Bool.and_self])]

theorem exec_calChunkDone_otherPath {s : State} {u : Fin 160} {p : Fin 4} (r : ChunkRes) (hpath : (s.interpCal u).path ≠ p.val) :
    exec (.calChunkDone u p r) s = .next s := by
  show execCalChunkDone u p r s = _
  rw [execCalChunkDone, if_neg (by simp only [beq_eq_false_iff_ne.2 hpath, Bool.and_false, Bool.false_eq_true, not_false_eq_true])]

theorem InterpCal.chunk_segment {x : InterpCal} (n : Nat) (span : BitVec 12) (h : x.segs < 12) :
    x.chunk n (.segment span) = { x with
      running := false, segs := x.segs + 1, spans := x.spans ++ [span]
      masks := if x.segs = 11 then Tab.ins x.path (segSelect (x.spans ++ [span])) x.masks else x.masks } := if_pos h

/-- The edges that the histogram of the path in progress has counted once a chunk has brought those of `l`. -/
def InterpCal.edgesWith (x : InterpCal) (l : List (BitVec 12 × Nat)) : Tab Nat :=
  l.foldl (fun t p => Tab.put t 0 p.1.toNat (Tab.get t 0 p.1.toNat + p.2)) x.edges

/-- The calibration once its last chunk has completed the histogram of the path in progress. -/
def InterpCal.pathDone (x : InterpCal) (l : List (BitVec 12 × Nat)) : InterpCal :=
  { x with running := false, edges := [], spans := [], tables := Tab.ins x.path (x.edgesWith l) x.tables }

theorem InterpCal.chunk_edges {x : InterpCal} (n : Nat) {l : List (BitVec 12 × Nat)} (hsegs : 12 ≤ x.segs)
    (hwhole : (l.map (·.2)).foldl (· + ·) 0 = 4096) : x.chunk n (.edges l) =
      if x.hist < 255 then { x with running := false, hist := x.hist + 1, edges := x.edgesWith l }
      else if x.path + 1 < n then { x.pathDone l with path := x.path + 1, segs := 0, hist := 0 }
      else { x.pathDone l with hist := 256, ready := true } :=
  if_neg (not_or.2 ⟨Nat.not_lt.2 hsegs, not_not_intro hwhole⟩)

theorem InterpCal.chunk_edges_running {x : InterpCal} (n : Nat) {l : List (BitVec 12 × Nat)} (hsegs : 12 ≤ x.segs)
    (hwhole : (l.map (·.2)).foldl (· + ·) 0 = 4096) : (x.chunk n (.edges l)).running = false := by
  rw [x.chunk_edges n hsegs hwhole]
  split
  · rfl
  · split <;> rfl

/-! ### CAL_OVERDUE (spec/11 R363, R373) -/

theorem exec_calOverdue_interp {s : State} {u : Fin 160} (noGap : Bool) (hdue : (s.interpCal u).why.isSome = true)
    (hfirst : (s.interpCal u).overdue = false) (hwait : (s.interpCal u).dueTick + s.maxWait u ≤ s.time.tick) :
    exec (.calOverdue u true noGap (s.interpCal u).dueTick) s = .next (((s.modInterp u fun x => { x with overdue := true }).showCal u).raise 0x0802 16
      [(0, 2, u.val), (2, 1, 1), (3, 1, s.overdueWhy u true), (4, 4, ticksMs (s.time.tick - (s.interpCal u).dueTick)),
        (8, 2, twos 16 (tempMoved (s.unitTemp u) (s.fld (F.iucalState_TEMP_LAST u))))]) := by
  show execCalOverdue u true noGap _ s = _
  simp only [execCalOverdue, hdue, hfirst, hwait, if_true, Bool.not_false, beq_self_eq_true, decide_true, Bool.and_self]
  rfl

/-- The reason and the temperature that CAL_OVERDUE reports of a path run do not depend on whether it has been reported. -/
theorem State.overdue_reports (s : State) (u : Nat) :
    (s.modPath u fun x => { x with overdue := true }).overdueWhy u false = s.overdueWhy u false ∧
      (s.modPath u fun x => { x with overdue := true }).unitTemp u = s.unitTemp u := by
  constructor
  · rw [State.overdueWhy, State.pathCal_modPath]
    rfl
  · rw [State.unitTemp, State.pathCal_modPath]
    rfl

theorem exec_calOverdue_path {s : State} {u : Fin 160} (noGap : Bool) (hu : u.val < 128) (hdue : (s.pathCal u).why.isSome = true)
    (hfirst : (s.pathCal u).overdue = false) (hwait : (s.pathCal u).dueTick + s.maxWait u ≤ s.time.tick) :
    exec (.calOverdue u false noGap (s.pathCal u).dueTick) s = .next (((s.modPath u fun x => { x with overdue := true }).showCal u).raise 0x0802 16
      [(0, 2, u.val), (2, 1, 0), (3, 1, s.overdueWhy u false), (4, 4, ticksMs (s.time.tick - (s.pathCal u).dueTick)),
        (8, 2, twos 16 (tempMoved (s.unitTemp u) (s.fld (F.laneCalStatus_TEMP_LAST u))))]) := by
  obtain ⟨hwhy, htemp⟩ := s.overdue_reports u
  show execCalOverdue u false noGap _ s = _
  simp only [execCalOverdue, hu, hdue, hfirst, hwait, hwhy, htemp, Bool.false_eq_true, if_false, if_true, Bool.not_false, beq_self_eq_true, decide_true,
    Bool.and_self]
  rfl

/-! ### CAL_SWEEP (spec/11 R372) -/

/-- What leaves the long operations alone leaves one that has been started. -/
theorem StartsLong.kept {L : List Part} {c : Cmd} {op : Nat} {args : List Nat} {s t : State} (h : StartsLong c op args s) (k : Kept L s t)
    (hl : L.contains .host = false) : StartsLong c op args t := h.map (f := id) ((k.longOps hl).trans (List.map_id _).symm) fun _ => ⟨rfl, rfl, rfl, rfl⟩

/-- In a sweep of path runs, every lane named has one asked for. -/
theorem State.each_pathDue_sweep (s : State) (lanes : Nat) :
    ∀ n ∈ maskIdx 128 lanes, ((s.each (maskIdx 128 lanes) fun s n => s.pathDue n .sweep).pathCal n).sweep = true :=
  State.each_own (view := fun v n => v.pathCal n) (P := fun _ _ y => y.sweep = true) (maskIdx_nodup ..)
    (fun v n _ => (congrArg PathCal.sweep (v.pathDue_pathCal n .sweep)).trans (Bool.or_true _)) (fun v _ _ _ _ h => v.pathDue_pathCal_other .sweep h) s

theorem State.sweepStart_sweep (s : State) (lanes units : Nat) {kinds : Nat} (hkind : bitAt kinds 0 = true) :
    ∀ n ∈ maskIdx 128 lanes, ((s.sweepStart [lanes, units, kinds]).pathCal n).sweep = true := by
  intro n hn
  unfold State.sweepStart State.when
  extract_lets all ks begun paths
  have hpaths : (paths.pathCal n).sweep = true := by
    simp only [paths, ks, List.getD_cons_succ, List.getD_cons_zero, hkind, if_true]
    exact begun.each_pathDue_sweep lanes n hn
  split
  · have hunits (v : State) (l : List Nat) : (v.each l fun s k => s.interpDue (128 + k) .sweep false).pathCal n = v.pathCal n :=
      State.each_unchanged (view := fun v => v.pathCal n) (fun v k _ => v.interpDue_pathCal ..) v
    have hlanes (v : State) (l : List Nat) : (v.each l fun s k => s.interpDue k .sweep false).pathCal n = v.pathCal n :=
      State.each_unchanged (view := fun v => v.pathCal n) (fun v k _ => v.interpDue_pathCal ..) v
    rw [hunits, hlanes]
    exact hpaths
  · exact hpaths

/-- A sweep that is taken and need not wait starts, in a state that holds its operation. -/
theorem exec_calSweep_starts {s : State} {c : Cmd} (htakes : s.takes c 0x0801 = true) (hok : c.ok 24 [(21, 3)] = true) (hkinds : c.fld 20 1 < 4)
    (hlanes : (maskIdx 128 (c.fld 0 16)).any (s.fetched c).calHeld = false)
    (hunits : ((maskIdx 32 (c.fld 16 4)).any fun k => (s.fetched c).calHeld (128 + k)) = false) (hlong : (s.fetched c).longReady 0x0801 = true) :
    ∃ u, exec (.calSweep c) s = .next (u.sweepStart [c.fld 0 16, c.fld 16 4, c.fld 20 1]) ∧
      StartsLong c 0x0801 [c.fld 0 16, c.fld 16 4, c.fld 20 1] u := by
  obtain ⟨⟨hbar, hfree⟩, hidle⟩ : ((s.fetched c).longBarred = false ∧ (s.fetched c).freeLong.isSome = true) ∧
      ((s.fetched c).host.longOps.any fun o => o.res == 0x0801 && o.state != .suspended) = false := by
    simpa only [State.longReady, Bool.and_eq_true, Bool.not_eq_true'] using hlong
  obtain ⟨u, hd, -, -, hstarts, hstart⟩ := State.startLong_accepts c 0x0801 0x0801 (sweepRuns [c.fld 0 16, c.fld 16 4, c.fld 20 1])
    [c.fld 0 16, c.fld 16 4, c.fld 20 1] (fun s _ => s.sweepStart [c.fld 0 16, c.fld 16 4, c.fld 20 1]) hbar hfree
  refine ⟨u.markStarted hd, ?_, hstarts.markStarted hd⟩
  show execCalSweep c s = _
  rw [execCalSweep, start_takes htakes (by simp [hok, hkinds])]
  simp only [hlanes, hunits, hstart, hidle, Bool.or_self, Bool.false_eq_true, if_false]

/-! ### CAL_HOLD (spec/11 R372) -/

theorem laneCalCfg_apart {n : Nat} (hn : n < 128) : ¬AtReg [Reg.laneCalStatus 0, Reg.iucalState 0] (Reg.laneCalCfg n) := rowsApart_at rfl hn rfl

theorem State.showCal_hold (s : State) (u : Nat) {n : Nat} (hn : n < 128) : (s.showCal u).fld (F.laneCalCfg_HOLD n) = s.fld (F.laneCalCfg_HOLD n) :=
  State.showCal_writes.fld (laneCalCfg_apart hn)

/-- The runs of the lanes of a mask are held, or released. -/
def State.holdLanes (s : State) (lanes a : Nat) : State := s.each (maskIdx 128 lanes) fun s n => (s.setF (F.laneCalCfg_HOLD n) a).showCal n

/-- The calibrations of the units of a mask, of 128 to 159, are held, or released. -/
def State.holdUnits (s : State) (units a : Nat) : State :=
  (s.modCal fun x => { x with hold := if a = 1 then x.hold ||| BitVec.ofNat 32 units else x.hold &&& ~~~(BitVec.ofNat 32 units) }).each (maskIdx 32 units)
    fun s k => s.showCal (128 + k)

theorem State.holdLanes_hold (s : State) (lanes : Nat) {a : Nat} (ha : a < 2) :
    ∀ n ∈ maskIdx 128 lanes, (s.holdLanes lanes a).fld (F.laneCalCfg_HOLD n) = a :=
  State.each_own (view := fun v n => v.fld (F.laneCalCfg_HOLD n)) (P := fun _ _ y => y = a) (maskIdx_nodup ..)
    (fun v n hn => (State.showCal_hold _ n (maskIdx_lt hn)).trans (v.fld_setF_of_lt (show 30 + 1 ≤ 32 by decide) ha))
    (fun v n hn m _ h => (State.showCal_hold _ m (maskIdx_lt hn)).trans (v.fld_setF_reg a (at1_ne (maskIdx_lt hn) (by decide) (by decide) h))) s

theorem State.holdUnits_hold (s : State) (units a : Nat) {n : Nat} (hn : n < 128) :
    (s.holdUnits units a).fld (F.laneCalCfg_HOLD n) = s.fld (F.laneCalCfg_HOLD n) :=
  State.each_fld (fun v k => v.showCal_hold (128 + k) hn) _ _

theorem exec_calHold_completes {s : State} {c : Cmd} (htakes : s.takes c 0x0802 = true) (hok : c.ok 24 [(21, 3)] = true) (haction : c.fld 20 1 < 2) :
    exec (.calHold c) s =
      .next ((((s.fetched c).holdLanes (c.fld 0 16) (c.fld 20 1)).holdUnits (c.fld 16 4) (c.fld 20 1)).complete c 0x0802 st.ok) := by
  show execCalHold c s = _
  rw [execCalHold, start_takes htakes (by simp [hok, haction])]
  rfl

/-! ### LINK_UPD (spec/11 R369, R376) -/

theorem exec_linkUpd {s : State} (src : WrSrc) {n : Fin 128} (v : Word) (hup : s.up = true) : exec (.linkUpd src n v) s = .next (s.linkWrite n v) := by
  show execLinkUpd src n v s = _
  rw [execLinkUpd, if_pos hup]

theorem State.linkWrite_upd {s : State} {n : Nat} {v : Word} (hport : s.portExists n = true) (hupd : (F.linkCfg_UPD n).of v = 1) :
    (s.linkWrite n v).fld (F.linkCfg_MODE n) = (F.linkCfg_MODE n).of v ∧ (s.linkWrite n v).fld (F.linkCfg_UPD n) = 1 := by
  have hhere : s.linkHere n = true := hport
  simp only [State.linkWrite, hhere, hupd, Bool.not_true, Bool.false_eq_true, if_false, if_true]
  constructor
  · refine (State.fld_setF_other _ 1 (.inl (show 29 + 1 ≤ 30 by decide))).trans ?_
    unfold State.when
    split
    · exact (State.fld_setF_other _ 0 (.inl (show 0 + 1 ≤ 30 by decide))).trans (s.fld_setF_of_lt (show 30 + 2 ≤ 32 by decide) (Fld.of_lt _ v))
    · exact s.fld_setF_of_lt (show 30 + 2 ≤ 32 by decide) (Fld.of_lt _ v)
  · exact State.fld_setF_of_lt _ (show 29 + 1 ≤ 32 by decide) (show 1 < 2 ^ 1 by decide)

/-- Settles O32: each row comes down to one operation on the runs of its lane or unit; showing the runs in their registers, the events and the
completions leave them as that operation has set them. -/
theorem calibration : Obligations.Calibration := by
  refine ⟨?laneTemp, ?fabricTemp, ?islandTemp, ?period, ?slot, ?pathDone, ?chunk, ?otherPath, ?segment, ?edges, ?interpOverdue, ?pathOverdue, ?sweep,
    ?hold, ?link⟩
  case laneTemp =>
    intro s n temp hup hn
    have hsensed := s.senseLane_pathCal n temp
    refine ⟨_, exec_calTempCheck_lane temp hup hn, (State.laneTrigger_temp ..).trans (congrArg PathCal.temp hsensed),
      fun hauto hjoined hfired hpath hinterp hmoved => ?_⟩
    have hfires : (s.senseLane n temp).laneTrigger n = (s.senseLane n temp).laneDue n .temp :=
      State.laneTrigger_fires hauto hjoined (by rwa [hsensed]) (by rwa [hsensed])
    rw [hfires]
    exact State.laneDue_why .temp (by rwa [hsensed]) hinterp
  case fabricTemp =>
    intro s n temp hup hlo hhi
    have hsensed : Tab.get (s.senseFabric (n - 128) temp).cal.temps 0 (n - 128) = temp := Tab.get_put_same ..
    refine ⟨_, exec_calTempCheck_fabric temp hup hlo hhi, ?_⟩
    dsimp only
    split
    · rw [State.each_unchanged (view := fun v => v.cal.temps) (fun v u _ => v.unitTrigger_temps u), hsensed]
    · exact hsensed
  case islandTemp => exact fun s temp => ⟨_, rfl, rfl⟩
  case period =>
    intro s n hjoined hauto hover hfired hpath hinterp
    exact ⟨_, exec_calPeriodDue_fires hjoined hauto hover hfired, State.laneDue_why .period hpath hinterp⟩
  case slot =>
    intro s a b u hjoined hdip hserved hwork
    have hticks : Kept [.regs, .cnt, .time] s (s.toTick 16) := State.toTick_kept
    have hslots := State.calSlots_one_path ((hticks.inDip rfl).trans hdip) ((s.toTick_replaced 16 (by decide)).trans hserved) hwork
    refine ⟨_, exec_calSlotStart hjoined, ?_⟩
    dsimp only
    rw [hslots, State.pathStart_pathCal, State.markGaps_temp, hticks.pathCal rfl]
    exact ⟨rfl, rfl⟩
  case pathDone =>
    intro s n r hrun
    refine ⟨_, exec_pathRunDone r hrun, ?_⟩
    dsimp only
    rw [State.showCal_pathCal, State.pathCal_modPath]
  case chunk =>
    intro s u p r hrun hpath
    refine ⟨_, exec_calChunkDone r hrun hpath, ?_⟩
    dsimp only
    rw [State.showCal_interpCal, State.interpCal_modInterp]
  case otherPath => exact fun s u p r hpath => ⟨s, exec_calChunkDone_otherPath r hpath, rfl⟩
  case segment =>
    intro x n span hsegs
    rw [x.chunk_segment n span hsegs]
    refine ⟨rfl, rfl, fun hlast => ?_⟩
    dsimp only
    rw [if_pos hlast, Tab.find_ins_same]
  case edges =>
    intro x n l hsegs hwhole
    refine ⟨x.chunk_edges_running n hsegs hwhole, ?_⟩
    rw [x.chunk_edges n hsegs hwhole]
    refine ⟨fun hmore => ?_, fun hfull hnext => ?_, fun hfull hlast => ?_⟩
    · rw [if_pos hmore]
    · rw [if_neg (Nat.not_lt.2 hfull), if_pos hnext]
      exact ⟨rfl, rfl⟩
    · rw [if_neg (Nat.not_lt.2 hfull), if_neg (Nat.not_lt.2 hlast)]
  case interpOverdue =>
    intro s u noGap hdue hfirst hwait
    refine ⟨_, exec_calOverdue_interp noGap hdue hfirst hwait, ?_, _, rfl⟩
    rw [State.raise_kept.interpCal rfl, State.showCal_interpCal, State.interpCal_modInterp]
  case pathOverdue =>
    intro s u noGap hu hdue hfirst hwait
    refine ⟨_, exec_calOverdue_path noGap hu hdue hfirst hwait, ?_, _, rfl⟩
    rw [State.raise_kept.pathCal rfl, State.showCal_pathCal, State.pathCal_modPath]
  case sweep =>
    intro s c htakes hok hkinds hlanes hunits hlong
    obtain ⟨u, hexec, hstarts⟩ := exec_calSweep_starts htakes hok hkinds hlanes hunits hlong
    exact ⟨_, hexec, hstarts.kept State.sweepStart_kept rfl, fun hkind => u.sweepStart_sweep _ _ hkind⟩
  case hold =>
    intro s c htakes hok haction
    refine ⟨_, exec_calHold_completes htakes hok haction, _, _, _, _, _, rfl, fun n hn => ?_⟩
    rw [State.holdUnits_hold _ _ _ (maskIdx_lt hn)]
    exact State.holdLanes_hold _ _ haction n hn
  case link =>
    intro s src n v hup hport hupd
    exact ⟨_, exec_linkUpd src v hup, State.linkWrite_upd hport hupd⟩

end Sys2Proof.Machine
end

section
/-!
What each command may change and when a step stops (spec/15 R470; spec/18 R545; spec/16 R501): the parts of the state that each command may
change, once for all commands; what follows of the canonical forms, the queue, the keys and the counters.
-/
namespace Sys2Proof
open Sys2Proof.Machine

/-! ### The parts that a command may change -/

/-- The parts of the state that a command may change. -/
def Instr.parts : Instr → List Part
  | .islandReset =>
    [.regs, .ctr, .cnt, .time, .power, .host, .cores, .mem, .lanes, .ports, .pipes, .fabric, .servo, .cal, .refs, .meas, .redund, .sec, .waiting,
      .written, .freeCtr]
  | .vaultOnlyEntry | .mainPor | .supplyReset _ | .pinReset | .thermtrip | .standbyWake | .wdtReset =>
    [.regs, .ctr, .cnt, .time, .power, .host, .cores, .mem, .lanes, .ports, .pipes, .fabric, .servo, .cal, .refs, .meas, .redund, .sec, .waiting,
      .written]
  | .tickPllLock => [.regs, .cnt, .time, .power]
  | .mainPwrEnHigh | .powerupRetry | .standbyRailsOff | .wdtKick _ _ => [.power]
  | .seqOrderViolation _ | .twinRead _ _ | .twinLookup _ _ | .bankHandover _ _ _ | .bankPower _ _ _ | .tagPop _ | .txStop _
  | .tamperCfgWrite _ _ _ | .pcieLinkUp _ _ => [.regs]
  | .powerupTimeout _ | .resetNLong _ | .oscLoss | .resetCtrlChip _ _ | .wdtCtrlWrite _ _ => [.regs, .power]
  | .mainResetRelease _ => [.regs, .power, .host, .cores, .ports, .pipes, .sec]
  | .joinBeat => [.regs, .ctr, .time, .power, .host, .cores, .lanes, .ports, .fabric, .servo, .cal, .refs, .meas, .sec, .line, .freeCtr]
  | .dipEnter _ => [.regs, .power, .host, .cores, .cal, .meas]
  | .dipExit _ => [.regs, .power, .host, .cores, .servo, .sec]
  | .dipLong _ | .profileApply _ _ | .chipReset _ => [.regs, .power, .host, .cores]
  | .oscReturn => [.power, .refs]
  | .quietDrainEnd =>
    [.regs, .ctr, .cnt, .time, .power, .host, .cores, .mem, .lanes, .ports, .pipes, .fabric, .servo, .cal, .refs, .meas, .redund, .sec, .waiting,
      .written, .line]
  | .beatBoundary =>
    [.regs, .ctr, .cnt, .time, .power, .host, .cores, .mem, .lanes, .ports, .pipes, .fabric, .servo, .cal, .refs, .meas, .redund, .sec, .waiting,
      .written, .line, .freeCtr]
  | .servoCompute => [.regs, .cnt, .time, .servo]
  | .servoDeadline => [.regs, .cnt, .time, .host, .cores, .servo]
  | .slotInputTimeout _ | .sessionUnitEnd _ | .slotAccept _ => [.regs, .host, .cores, .servo]
  | .sessionTx _ _ _ => [.ports, .servo]
  | .fuTimeout _ | .klReportRx _ _ => [.servo]
  | .ptpRx _ _ => [.regs, .host, .cores, .ports, .servo, .redund, .waiting]
  | .klMarkerRx _ _ _ | .frameTx _ _ => [.regs, .ctr, .host, .cores, .lanes, .ports, .fabric, .servo, .cal, .line]
  | .klWindowEnd _ => [.regs, .host, .cores, .ports, .servo]
  | .esmcRx _ _ | .esmcTimeout _ | .swrateCommit _ _ _ => [.regs, .cores, .refs, .redund, .waiting]
  | .hoTtsExpire _ | .synGate _ _ _ | .dpllHistReset _ => [.regs, .host, .cores, .refs]
  | .holdoverLearnSample _ => [.host]
  | .heartbeat _ _ _ => [.redund]
  | .boardIntlkTake => [.regs, .redund]
  | .boardIntlkSample _ => [.regs, .host, .cores, .refs, .redund]
  | .signalDetect _ | .signalLoss _ _ | .anDone _ | .trainDone _ _ _ | .alignDone _ | .attemptTimeout _ | .backoffDone _ | .lockLost _ _
  | .relockTryEnd _ _ _ | .l2ExitDone _ | .fcsCheckDone _ | .sorrelEpoch | .egressSelect _ | .refillDone _ _ _ _ | .mapoutDone _ _ _
  | .mcAbandon _ _ | .laneRetrain _ | .laneQuarantine _ | .lanePower _ | .laneUcodeLoad _ | .laneGrpWrite _ _ _ | .laneCfgWrite _ _ _ _
  | .loopSet _ _ _ | .l1ExitDone _ | .klMarkerTx _ _ | .spillWriteDone _ _ => [.regs, .ctr, .host, .cores, .lanes, .ports, .fabric, .cal, .line]
  | .adaptBurst _ _ => [.regs, .host, .cores, .lanes, .cal]
  | .ucodeLoadDone _ _ => [.regs, .ctr, .host, .cores, .lanes, .ports, .fabric, .cal, .sec, .line]
  | .frameRx _ _ | .txDescriptor _ _ _ => [.regs, .ctr, .power, .host, .cores, .lanes, .ports, .fabric, .cal, .line]
  | .pauseRx _ _ => [.regs, .ctr, .ports, .cal]
  | .pauseExpire _ _ => [.regs, .ctr, .ports]
  | .pauseStorm _ _ => [.regs, .ctr, .host, .cores, .ports]
  | .xoffRefresh _ => [.regs, .ctr, .lanes, .ports, .cal, .line]
  | .pipeDecision _ => [.regs, .ctr, .power, .host, .cores, .lanes, .ports, .pipes, .fabric, .servo, .cal, .line]
  | .learnServe _ => [.regs, .ctr, .host, .cores, .pipes]
  | .ageVisit _ _ => [.pipes]
  | .ageRemove _ _ | .fragExpire _ _ | .twinInject _ _ => [.regs, .ctr, .pipes]
  | .genDrained _ | .genCommit _ | .genDiscard _ | .parseLoad _ _ _ | .fragFlush _ | .tableBulk _ _ | .macFlush _ | .macFlushScanEnd =>
    [.regs, .host, .cores, .pipes]
  | .spillPartialFlush _ _ => [.fabric]
  | .portHoldExpired _ => [.regs, .ctr, .host, .cores, .lanes, .ports, .pipes, .fabric, .cal, .line]
  | .snapshotXferDone | .i2cTransferEnd _ _ _ _ => [.regs, .host, .cores, .mem, .ports]
  | .evinEdge _ _ _ | .measWindowEnd _ | .pendingStopExpire _ _ => [.regs, .meas]
  | .refinEdge _ _ _ => [.regs, .refs, .meas]
  | .measPost | .evoutPulse _ _ | .freqLong _ | .pulseLoad _ => [.regs, .host, .cores, .meas]
  | .fmGateEnd _ => [.regs, .host, .cores, .mem, .meas]
  | .calTempCheck _ _ => [.regs, .power, .cal]
  | .calPeriodDue _ | .pathRunDone _ _ | .calChunkDone _ _ _ => [.regs, .cal]
  | .calSlotStart => [.regs, .cnt, .time, .cal]
  | .calOverdue _ _ _ _ | .laneEyeScan _ | .calSweep _ | .calHold _ => [.regs, .host, .cores, .cal]
  | .tamperDetect _ _ => [.regs, .host, .cores, .keys, .sec, .freeCtr]
  | .vbatCheck _ | .updStage _ _ | .updCommit _ | .updDiscard _ | .fuseCust _ => [.regs, .host, .cores, .sec]
  | .wdtWarn | .pcieLinkRecovery _ | .doorbellData _ | .eventLost | .unassignedOpcode _ _ | .modSideband _ | .deepbufScrub _
  | .sessionSet _ | .refForce _ | .holdoverLearn _ | .longQuery _ | .nop _ | .ringEnable _ _ | .ringDisable _ _ | .hostReadCompletion _ =>
    [.regs, .host, .cores]
  | .coreWdtWarn _ | .beatAck _ _ | .coreWdtKick _ _ | .evtRelease _ _ => [.cores]
  | .coreWdt _ | .pairRejoin _ => [.regs, .power, .host, .cores, .waiting]
  | .perstN | .functionLevelReset | .dlDown => [.regs, .host, .waiting]
  | .pcieCto _ _ | .longOpFinal _ _ =>
    [.regs, .ctr, .power, .host, .cores, .mem, .lanes, .ports, .pipes, .fabric, .cal, .meas, .redund, .sec, .waiting, .line]
  | .doorbellDeadline => [.regs, .cnt, .time, .host, .cores]
  | .kick | .completionWrite | .fetchNow | .dmaOff _ | .ctoConfigWrite _ => [.regs, .host]
  | .rxWriteback _ => [.regs, .host, .fabric, .freeCtr]
  | .msixSignal _ => [.regs, .cnt, .time, .host]
  | .cmdTimeout _ => [.regs, .time, .power, .host, .cores, .ports, .pipes, .meas, .redund]
  | .powerStateSet _ | .longCtrl _ => [.regs, .ctr, .power, .host, .cores, .lanes, .ports, .pipes, .fabric, .cal, .meas, .sec, .waiting, .line]
  | .domainReset _ => [.regs, .ctr, .power, .host, .cores, .lanes, .ports, .pipes, .fabric, .cal, .waiting, .line]
  | .statsSnapshot _ | .modRead _ | .modWrite _ | .sgpioScan _ | .modPresent _ _ => [.regs, .host, .cores, .ports]
  | .i2cRetry _ => [.ports]
  | .deepbufMapout _ => [.regs, .host, .cores, .fabric]
  | .tcntWrite _ => [.regs, .time, .host, .cores]
  | .sessionRead _ => [.regs, .host, .cores, .mem, .servo]
  | .pairSwap _ => [.regs, .host, .cores, .redund]
  | .memCopy _ _ _ | .keyHmac _ _ => [.regs, .host, .cores, .mem]
  | .updInstall _ => [.regs, .ctr, .power, .host, .cores, .lanes, .ports, .fabric, .cal, .sec, .line]
  | .profileEraseDone => [.regs, .ctr, .power, .host, .cores, .lanes, .ports, .fabric, .cal, .meas, .sec, .waiting, .line]
  | .keyWrite _ => [.regs, .host, .cores, .keys, .sec]
  | .tamperClear _ => [.regs, .host, .cores, .sec, .freeCtr]
  | .mbPost _ _ | .quadHandover _ _ _ | .bankHandoverDone _ | .perfWrap _ _ | .tagCountdown _ => [.regs, .cores]
  | .snapGo _ _ => [.regs, .time, .cores, .redund, .waiting]
  | .slotUpd _ _ _ | .candCfgWrite _ _ _ _ | .imCfgWrite _ _ _ _ | .fmCfgWrite _ _ _ _ => [.regs, .cores, .redund, .waiting, .written]
  | .linkUpd _ _ _ => [.regs, .servo]
  | .synUpd _ _ _ | .dpllOpen _ _ _ => [.regs, .host, .cores, .refs, .redund, .waiting]
  | .evoutLoad _ _ _ => [.regs, .cores, .redund, .waiting]
  | .saCommit _ _ _ | .pauseStormEnd _ _ => [.regs, .ports]
  | .winRead _ _ | .winWrite _ _ | .winRemove _ _ => [.regs, .pipes, .freeCtr]
  | .twinWrite _ _ | .twinRemove _ _ => [.regs, .pipes]
  | .badAccess _ _ => [.regs, .rdata]
  | .counterRead _ | .rcRead _ => [.regs, .ctr, .rdata, .cores, .ports, .freeCtr]
  | .w1cWrite _ _ _ | .registerWrite _ _ _ =>
    [.regs, .ctr, .time, .power, .host, .cores, .lanes, .ports, .pipes, .fabric, .servo, .cal, .refs, .redund, .waiting, .written, .line,
      .freeCtr]
  | .rv32imcInstruction _ _ =>
    [.regs, .ctr, .cnt, .time, .power, .host, .cores, .mem, .lanes, .ports, .pipes, .fabric, .servo, .cal, .refs, .redund, .waiting, .written,
      .line, .freeCtr]
  | .ksTsnap _ _ _ | .ksTget _ _ _ | .ksWfb _ _ | .ksWfe _ _ | .coreWake _ | .ksCrc _ _ _ _ _ | .ksPcnt _ _ _ | .ksTret _ =>
    [.regs, .cnt, .time, .power, .cores, .freeCtr]
  | .trap _ _ _ => [.regs, .cnt, .time, .power, .host, .cores, .waiting, .freeCtr]
  | .interruptTaken _ => [.regs, .cnt, .time, .cores, .freeCtr]
  | .vbatLoss => [.regs, .keys, .sec]
  | .bankPowerReached _ => [.regs, .mem]
  | .longOpSafePoint _ => [.regs, .ctr, .power, .host, .cores, .mem, .lanes, .ports, .pipes, .fabric, .cal, .meas, .sec, .waiting, .line]

theorem Instr.parts_pending (c : Instr) : c.parts.contains .pending = false := by cases c <;> rfl

theorem Instr.of_parts_keys {c : Instr} (h : c.parts.contains .keys = true) : (∃ k d, c = .tamperDetect k d) ∨ c = .vbatLoss ∨ ∃ k, c = .keyWrite k := by
  cases c with
  | tamperDetect k d => exact .inl ⟨k, d, rfl⟩
  | vbatLoss => exact .inr (.inl rfl)
  | keyWrite k => exact .inr (.inr ⟨k, rfl⟩)
  | _ => cases h

/-- A command that may change the counters resets, or lets ticks pass. -/
theorem Instr.of_parts_cnt {c : Instr} (h : c.parts.contains .cnt = true) :
    c ∈ [Instr.beatBoundary, .servoCompute, .servoDeadline, .calSlotStart, .tickPllLock, .islandReset, .vaultOnlyEntry, .mainPor, .pinReset, .wdtReset,
        .thermtrip, .standbyWake, .quietDrainEnd] ∨
      (∃ r, c = .supplyReset r) ∨ c = .doorbellDeadline ∨ (∃ v, c = .msixSignal v) ∨ (∃ k e, c = .rv32imcInstruction k e) ∨ (∃ k e v, c = .trap k e v) ∨
      (∃ k, c = .interruptTaken k) ∨ (∃ k, c = .coreWake k) ∨ (∃ k d a, c = .ksTsnap k d a ∨ c = .ksTget k d a ∨ c = .ksPcnt k d a) ∨
      (∃ k d, c = .ksWfb k d ∨ c = .ksWfe k d) ∨ (∃ k d a b x, c = .ksCrc k d a b x) ∨ ∃ k, c = .ksTret k := by
  cases c with
  | beatBoundary | servoCompute | servoDeadline | calSlotStart | tickPllLock | islandReset | vaultOnlyEntry | mainPor | pinReset | wdtReset | thermtrip
  | standbyWake | quietDrainEnd => exact .inl (by simp)
  | supplyReset r => simp
  | doorbellDeadline | msixSignal | rv32imcInstruction | trap | interruptTaken | coreWake | ksTsnap | ksTget | ksPcnt | ksWfb | ksWfe | ksCrc | ksTret =>
    simp
  | _ => cases h

end Sys2Proof

namespace Sys2Proof.Machine
open Sys2Proof

/-- A command whose operands are well formed answers a next state, and changes none but its parts. -/
theorem exec_next {c : Instr} (hwf : c.wf = true) (s : State) : ∃ t, exec c s = .next t ∧ Kept c.parts s t := by
  cases c with
  | islandReset => exact execIslandReset_next
  | vaultOnlyEntry => exact execVaultOnlyEntry_next
  | tickPllLock => exact execTickPllLock_next
  | mainPwrEnHigh => exact execMainPwrEnHigh_next
  | seqOrderViolation step => exact execSeqOrderViolation_next (by simpa [Instr.wf] using hwf)
  | powerupTimeout stuckStep => exact execPowerupTimeout_next (by simpa [Instr.wf] using hwf)
  | powerupRetry => exact execPowerupRetry_next
  | mainPor => exact execMainPor_next
  | supplyReset rail => exact execSupplyReset_next (by simpa [Instr.wf] using hwf)
  | pinReset => exact execPinReset_next
  | resetNLong => exact execResetNLong_next
  | thermtrip => exact execThermtrip_next
  | mainResetRelease => exact execMainResetRelease_next
  | joinBeat => exact execJoinBeat_next
  | dipEnter => exact execDipEnter_next
  | dipExit => exact execDipExit_next
  | dipLong => exact execDipLong_next
  | oscLoss => exact execOscLoss_next
  | oscReturn => exact execOscReturn_next
  | standbyWake => exact execStandbyWake_next
  | quietDrainEnd => exact execQuietDrainEnd_next
  | standbyRailsOff => exact execStandbyRailsOff_next
  | beatBoundary => exact execBeatBoundary_next
  | servoCompute => exact execServoCompute_next
  | servoDeadline => exact execServoDeadline_next
  | slotInputTimeout => exact execSlotInputTimeout_next
  | sessionUnitEnd => exact execSessionUnitEnd_next
  | sessionTx => exact execSessionTx_next
  | fuTimeout => exact execFuTimeout_next
  | ptpRx => exact execPtpRx_next
  | klMarkerRx => exact execKlMarkerRx_next
  | klWindowEnd => exact execKlWindowEnd_next
  | klReportRx => exact execKlReportRx_next
  | esmcRx => exact execEsmcRx_next
  | esmcTimeout => exact execEsmcTimeout_next
  | hoTtsExpire => exact execHoTtsExpire_next
  | holdoverLearnSample => exact execHoldoverLearnSample_next
  | synGate => exact execSynGate_next
  | heartbeat => exact execHeartbeat_next
  | boardIntlkTake => exact execBoardIntlkTake_next
  | boardIntlkSample => exact execBoardIntlkSample_next
  | signalDetect => exact execSignalDetect_next
  | signalLoss => exact execSignalLoss_next
  | anDone => exact execAnDone_next
  | trainDone => exact execTrainDone_next
  | alignDone => exact execAlignDone_next
  | attemptTimeout => exact execAttemptTimeout_next
  | backoffDone => exact execBackoffDone_next
  | lockLost => exact execLockLost_next
  | relockTryEnd => exact execRelockTryEnd_next
  | l2ExitDone => exact execL2ExitDone_next
  | adaptBurst => exact execAdaptBurst_next
  | ucodeLoadDone => exact execUcodeLoadDone_next
  | frameRx => exact execFrameRx_next
  | pauseRx => exact execPauseRx_next
  | pauseExpire => exact execPauseExpire_next
  | pauseStorm => exact execPauseStorm_next
  | xoffRefresh => exact execXoffRefresh_next
  | pipeDecision => exact execPipeDecision_next
  | fcsCheckDone => exact execFcsCheckDone_next
  | learnServe => exact execLearnServe_next
  | ageVisit => exact execAgeVisit_next
  | ageRemove => exact execAgeRemove_next
  | fragExpire => exact execFragExpire_next
  | genDrained => exact execGenDrained_next
  | sorrelEpoch => exact execSorrelEpoch_next
  | egressSelect => exact execEgressSelect_next
  | frameTx => exact execFrameTx_next
  | spillPartialFlush => exact execSpillPartialFlush_next
  | refillDone => exact execRefillDone_next
  | mapoutDone => exact execMapoutDone_next
  | mcAbandon => exact execMcAbandon_next
  | portHoldExpired => exact execPortHoldExpired_next
  | snapshotXferDone => exact execSnapshotXferDone_next
  | evinEdge => exact execEvinEdge_next
  | refinEdge => exact execRefinEdge_next
  | measWindowEnd => exact execMeasWindowEnd_next
  | pendingStopExpire => exact execPendingStopExpire_next
  | measPost => exact execMeasPost_next
  | fmGateEnd => exact execFmGateEnd_next
  | evoutPulse => exact execEvoutPulse_next
  | calTempCheck => exact execCalTempCheck_next
  | calPeriodDue => exact execCalPeriodDue_next
  | calSlotStart => exact execCalSlotStart_next
  | pathRunDone => exact execPathRunDone_next
  | calChunkDone => exact execCalChunkDone_next
  | calOverdue iu interp noGap => exact execCalOverdue_next (x2 := noGap)
  | tamperDetect => exact execTamperDetect_next
  | vbatCheck => exact execVbatCheck_next
  | wdtWarn => exact execWdtWarn_next
  | wdtReset => exact execWdtReset_next
  | coreWdtWarn => exact execCoreWdtWarn_next
  | coreWdt => exact execCoreWdt_next
  | perstN => exact execPerstN_next
  | functionLevelReset => exact execFunctionLevelReset_next
  | dlDown => exact execDlDown_next
  | pcieLinkRecovery => exact execPcieLinkRecovery_next
  | pcieCto => exact execPcieCto_next
  | doorbellData => exact execDoorbellData_next
  | doorbellDeadline => exact execDoorbellDeadline_next
  | kick => exact execKick_next
  | txDescriptor => exact execTxDescriptor_next
  | rxWriteback => exact execRxWriteback_next
  | completionWrite => exact execCompletionWrite_next
  | eventLost => exact execEventLost_next
  | msixSignal => exact execMsixSignal_next
  | cmdTimeout => exact execCmdTimeout_next
  | unassignedOpcode => exact execUnassignedOpcode_next
  | profileApply => exact execProfileApply_next
  | powerStateSet => exact execPowerStateSet_next
  | chipReset => exact execChipReset_next
  | domainReset => exact execDomainReset_next
  | laneRetrain => exact execLaneRetrain_next
  | laneQuarantine => exact execLaneQuarantine_next
  | lanePower => exact execLanePower_next
  | laneUcodeLoad => exact execLaneUcodeLoad_next
  | laneEyeScan => exact execLaneEyeScan_next
  | statsSnapshot => exact execStatsSnapshot_next
  | modRead => exact execModRead_next
  | modWrite => exact execModWrite_next
  | modSideband => exact execModSideband_next
  | i2cRetry => exact execI2cRetry_next
  | sgpioScan => exact execSgpioScan_next
  | modPresent => exact execModPresent_next
  | genCommit => exact execGenCommit_next
  | genDiscard => exact execGenDiscard_next
  | parseLoad => exact execParseLoad_next
  | fragFlush => exact execFragFlush_next
  | tableBulk => exact execTableBulk_next
  | macFlush => exact execMacFlush_next
  | deepbufMapout => exact execDeepbufMapout_next
  | deepbufScrub => exact execDeepbufScrub_next
  | tcntWrite => exact execTcntWrite_next
  | sessionSet => exact execSessionSet_next
  | sessionRead => exact execSessionRead_next
  | slotAccept => exact execSlotAccept_next
  | calSweep => exact execCalSweep_next
  | calHold => exact execCalHold_next
  | refForce => exact execRefForce_next
  | holdoverLearn => exact execHoldoverLearn_next
  | dpllHistReset => exact execDpllHistReset_next
  | freqLong => exact execFreqLong_next
  | pulseLoad => exact execPulseLoad_next
  | pairRejoin => exact execPairRejoin_next
  | pairSwap => exact execPairSwap_next
  | longCtrl => exact execLongCtrl_next
  | longQuery => exact execLongQuery_next
  | longOpFinal => exact execLongOpFinal_next
  | nop => exact execNop_next
  | memCopy => exact execMemCopy_next
  | updStage => exact execUpdStage_next
  | updInstall => exact execUpdInstall_next
  | updCommit => exact execUpdCommit_next
  | profileEraseDone => exact execProfileEraseDone_next
  | updDiscard => exact execUpdDiscard_next
  | keyWrite => exact execKeyWrite_next
  | keyHmac => exact execKeyHmac_next
  | tamperClear => exact execTamperClear_next
  | fuseCust => exact execFuseCust_next
  | mbPost => exact execMbPost_next
  | resetCtrlChip src => exact execResetCtrlChip_next (x0 := src)
  | wdtKick => exact execWdtKick_next
  | wdtCtrlWrite src => exact execWdtCtrlWrite_next (x0 := src)
  | snapGo => exact execSnapGo_next
  | slotUpd => exact execSlotUpd_next
  | linkUpd src => exact execLinkUpd_next (x0 := src)
  | synUpd => exact execSynUpd_next
  | evoutLoad => exact execEvoutLoad_next
  | swrateCommit => exact execSwrateCommit_next
  | dpllOpen => exact execDpllOpen_next
  | saCommit src => exact execSaCommit_next (x0 := src)
  | candCfgWrite => exact execCandCfgWrite_next
  | laneGrpWrite src => exact execLaneGrpWrite_next (x0 := src)
  | laneCfgWrite src => exact execLaneCfgWrite_next (x0 := src)
  | loopSet src => exact execLoopSet_next (x0 := src)
  | imCfgWrite => exact execImCfgWrite_next
  | fmCfgWrite => exact execFmCfgWrite_next
  | winRead => exact execWinRead_next
  | winWrite => exact execWinWrite_next
  | winRemove => exact execWinRemove_next
  | twinRead => exact execTwinRead_next
  | twinWrite => exact execTwinWrite_next
  | twinRemove => exact execTwinRemove_next
  | twinLookup => exact execTwinLookup_next
  | twinInject => exact execTwinInject_next
  | bankHandover => exact execBankHandover_next
  | quadHandover => exact execQuadHandover_next
  | bankHandoverDone => exact execBankHandoverDone_next
  | bankPower => exact execBankPower_next
  | tagPop => exact execTagPop_next
  | fetchNow => exact execFetchNow_next
  | dmaOff => exact execDmaOff_next
  | txStop => exact execTxStop_next
  | ringEnable => exact execRingEnable_next
  | ringDisable => exact execRingDisable_next
  | ctoConfigWrite => exact execCtoConfigWrite_next
  | tamperCfgWrite => exact execTamperCfgWrite_next
  | badAccess write addr => exact execBadAccess_next (x1 := addr)
  | counterRead => exact execCounterRead_next
  | rcRead => exact execRcRead_next
  | w1cWrite => exact execW1cWrite_next
  | registerWrite => exact execRegisterWrite_next
  | beatAck => exact execBeatAck_next
  | coreWdtKick core value => exact execCoreWdtKick_next (x1 := value)
  | evtRelease => exact execEvtRelease_next
  | rv32imcInstruction => exact execRv32imcInstruction_next
  | ksTsnap => exact execKsTsnap_next
  | ksTget => exact execKsTget_next
  | ksWfb => exact execKsWfb_next
  | ksWfe => exact execKsWfe_next
  | coreWake => exact execCoreWake_next
  | ksCrc => exact execKsCrc_next
  | ksPcnt => exact execKsPcnt_next
  | ksTret => exact execKsTret_next
  | trap => exact execTrap_next
  | interruptTaken => exact execInterruptTaken_next
  | perfWrap => exact execPerfWrap_next
  | tagCountdown => exact execTagCountdown_next
  | vbatLoss => exact execVbatLoss_next
  | l1ExitDone => exact execL1ExitDone_next
  | pauseStormEnd => exact execPauseStormEnd_next
  | klMarkerTx => exact execKlMarkerTx_next
  | spillWriteDone => exact execSpillWriteDone_next
  | pcieLinkUp => exact execPcieLinkUp_next
  | hostReadCompletion => exact execHostReadCompletion_next
  | i2cTransferEnd => exact execI2cTransferEnd_next
  | macFlushScanEnd => exact execMacFlushScanEnd_next
  | bankPowerReached => exact execBankPowerReached_next
  | longOpSafePoint => exact execLongOpSafePoint_next

theorem execSeqOrderViolation_fault {k : Nat} (h : ¬(2 ≤ k ∧ k ≤ 7)) (s : State) : execSeqOrderViolation k s = .fault .illFormed := if_neg h

theorem execPowerupTimeout_fault {k : Nat} (h : ¬(2 ≤ k ∧ k ≤ 7)) (s : State) : execPowerupTimeout k s = .fault .illFormed := if_neg h

theorem execSupplyReset_fault {k : Nat} (h : ¬k ≤ 7) (s : State) : execSupplyReset k s = .fault .illFormed := if_neg h

theorem exec_fault {c : Instr} (hwf : c.wf = false) (s : State) : exec c s = .fault .illFormed := by
  cases c with
  | seqOrderViolation k => exact execSeqOrderViolation_fault (by simpa [Instr.wf] using hwf) s
  | powerupTimeout k => exact execPowerupTimeout_fault (by simpa [Instr.wf] using hwf) s
  | supplyReset k => exact execSupplyReset_fault (by simpa [Instr.wf] using hwf) s
  | _ => cases hwf

/-- What has answered a next state was well formed, and has changed none but its parts. -/
theorem Kept.of_exec {c : Instr} {s t : State} (h : exec c s = .next t) : Kept c.parts s t := by
  cases hwf : c.wf with
  | false => cases (exec_fault hwf s).symm.trans h
  | true =>
    obtain ⟨u, hu, hkept⟩ := exec_next hwf s
    cases hu.symm.trans h
    exact hkept

/-- Settles O42: `step` is defined by the front of the queue. -/
theorem stepRunsFront : Obligations.StepRunsFront := fun _ _ _ => rfl

theorem step_of_pending_cons {s : State} {c : Instr} {l : List Instr} (h : s.pending = c :: l) : step s = exec c { s with pending := l } := by
  unfold step
  rw [h]

/-- Settles O44: no table of the state after reset lists anything, and a register that no table lists reads its reset value. -/
theorem resetState : Obligations.ResetState :=
  ⟨rfl, State.reset_reg, rfl, rfl, rfl, rfl, rfl, rfl, rfl, rfl, by decide⟩

/-- Settles O46: a well-formed command answers a next state, and the queue is among the parts of none. -/
theorem queueIsWorkedOff : Obligations.QueueIsWorkedOff := by
  intro s c l hqueue hwf
  obtain ⟨t, hnext, hkept⟩ := exec_next hwf { s with pending := l }
  exact ⟨t, (step_of_pending_cons hqueue).trans hnext, hkept.same .pending c.parts_pending⟩

/-- Settles O47: only the three commands whose operands have a range can fault, and they do so outside it. -/
theorem stopsOnlyOnIllFormedOperands : Obligations.StopsOnlyOnIllFormedOperands := by
  intro c s
  cases hwf : c.wf with
  | false => simp [exec_fault hwf s]
  | true =>
    obtain ⟨t, hnext, -⟩ := exec_next hwf s
    simp [hnext]

/-- Settles O45: an idle step passes a tick, which touches neither table; each command keeps both forms (`Kept.of_exec`). -/
theorem everyStepKeepsCanonicalForm : Obligations.EveryStepKeepsCanonicalForm := by
  intro s t hregs hmem hstep
  cases hqueue : s.pending with
  | nil =>
    have hidle : Kept _ s s.idle := State.idle_kept
    cases (step_of_pending_nil hqueue).symm.trans hstep
    exact ⟨hidle.regs hregs, hidle.mem hmem⟩
  | cons c l =>
    have hkept := Kept.of_exec ((step_of_pending_cons hqueue).symm.trans hstep)
    exact ⟨hkept.regs hregs, hkept.mem hmem⟩

/-- Settles O48: a part that has changed is one that the command may change, and the keys, and the counters, are parts of these commands only. -/
theorem whoChangesKeysAndCounters : Obligations.WhoChangesKeysAndCounters := by
  intro c s t hnext
  have hkept := Kept.of_exec hnext
  refine ⟨fun hkeys => Instr.of_parts_keys ?_, fun hcnt => Instr.of_parts_cnt ?_⟩
  · exact eq_true_of_ne_false fun hnone => hkeys (hkept.same .keys hnone)
  · exact eq_true_of_ne_false fun hnone => hcnt (hkept.same .cnt hnone)

end Sys2Proof.Machine
end

section
/-!
Frames (spec/02 to spec/18): the parts of the state that a command may change (`Instr.parts`) and the register rows that its meaning writes, held
against what the statements name for it.
-/
namespace Sys2Proof.Machine
open Sys2Proof

theorem Spares.of_parts {L : List Part} {c : Instr} (hparts : subParts c.parts L = true) : Spares L c :=
  fun _ _ hnext => (Kept.mono hparts (Kept.of_exec hnext)).same

/-- A frame from the rows that the command's meaning writes. -/
theorem Framed.of_writes {R Q : List Nat} {L : List Part} {c : Instr} (hwrites : ∀ s t, exec c s = .next t → Writes Q s t)
    (hparts : subParts c.parts L = true) (hrows : Q.all R.contains = true) : Framed R L c :=
  fun s t hnext => ⟨Spares.of_parts hparts s t hnext, ((hwrites s t hnext).step hrows .refl).same⟩

/-- A command among whose parts the registers are not writes none. -/
theorem Framed.of_noRegs {R : List Nat} {L : List Part} {c : Instr} (hparts : subParts c.parts L = true) (hregs : c.parts.contains .regs = false) :
    Framed R L c :=
  .of_writes (Q := []) (fun _ _ hnext => Writes.kept (Kept.of_exec hnext) hregs .refl) hparts rfl

/-- Settles O52: the commands of lanes, ports and modules, by their parts and, where these hold the registers, by the rows that a meaning writes. -/
theorem laneAndPortFrames : Obligations.LaneAndPortFrames :=
  ⟨fun _ _ _ => .of_writes (fun _ _ => execKlMarkerRx_writes) rfl rfl,
    fun _ => .of_writes (fun _ _ => execSignalDetect_writes) rfl rfl,
    fun _ _ => .of_writes (fun _ _ => execSignalLoss_writes) rfl rfl,
    fun _ => .of_writes (fun _ _ => execAnDone_writes) rfl rfl,
    fun _ _ _ => .of_writes (fun _ _ => execTrainDone_writes) rfl rfl,
    fun _ => .of_writes (fun _ _ => execAlignDone_writes) rfl rfl,
    fun _ => .of_writes (fun _ _ => execAttemptTimeout_writes) rfl rfl,
    fun _ => .of_writes (fun _ _ => execBackoffDone_writes) rfl rfl,
    fun _ _ => .of_writes (fun _ _ => execLockLost_writes) rfl rfl,
    fun _ _ _ => .of_writes (fun _ _ => execRelockTryEnd_writes) rfl rfl,
    fun _ => .of_writes (fun _ _ => execL2ExitDone_writes) rfl rfl,
    fun _ _ => .of_writes (fun _ _ => execAdaptBurst_writes) rfl rfl,
    fun _ _ => .of_writes (fun _ _ => execUcodeLoadDone_writes) rfl rfl,
    fun _ _ => .of_writes (fun _ _ => execPauseRx_writes) rfl rfl,
    fun _ _ => .of_writes (fun _ _ => execPauseExpire_writes) rfl rfl,
    fun _ _ => .of_writes (fun _ _ => execPauseStorm_writes) rfl rfl,
    fun _ => .of_writes (fun _ _ => execXoffRefresh_writes) rfl rfl,
    .of_writes (fun _ _ => execSnapshotXferDone_writes) rfl rfl,
    fun _ => .of_writes (fun _ _ => execLaneRetrain_writes) rfl rfl,
    fun _ => .of_writes (fun _ _ => execLaneQuarantine_writes) rfl rfl,
    fun _ => .of_writes (fun _ _ => execLanePower_writes) rfl rfl,
    fun _ => .of_writes (fun _ _ => execLaneUcodeLoad_writes) rfl rfl,
    fun _ => .of_writes (fun _ _ => execLaneEyeScan_writes) rfl rfl,
    fun _ => .of_writes (fun _ _ => execStatsSnapshot_writes) rfl rfl,
    fun _ => .of_writes (fun _ _ => execModRead_writes) rfl rfl,
    fun _ => .of_writes (fun _ _ => execModWrite_writes) rfl rfl,
    fun _ => .of_writes (fun _ _ => execModSideband_writes) rfl rfl,
    fun _ => .of_noRegs rfl rfl,
    fun _ => .of_writes (fun _ _ => execSgpioScan_writes) rfl rfl,
    fun _ _ => .of_writes (fun _ _ => execModPresent_writes) rfl rfl,
    fun src _ _ => .of_writes (fun _ _ => execSaCommit_writes (x0 := src)) rfl rfl,
    fun src _ _ => .of_writes (fun _ _ => execLaneGrpWrite_writes (x0 := src)) rfl rfl,
    fun src _ _ _ => .of_writes (fun _ _ => execLaneCfgWrite_writes (x0 := src)) rfl rfl,
    fun src _ _ => .of_writes (fun _ _ => execLoopSet_writes (x0 := src)) rfl rfl,
    fun _ => .of_writes (fun _ _ => execL1ExitDone_writes) rfl rfl,
    fun _ _ => .of_writes (fun _ _ => execPauseStormEnd_writes) rfl rfl,
    fun _ _ => .of_writes (fun _ _ => execKlMarkerTx_writes) rfl rfl,
    fun _ _ _ _ => .of_writes (fun _ _ => execI2cTransferEnd_writes) rfl rfl⟩

/-- Settles O53: the commands of pipelines, tables, frames and the fabric, by their parts and, where these hold the registers, by the rows that a meaning writes. -/
theorem pipelineAndFabricFrames : Obligations.PipelineAndFabricFrames :=
  ⟨fun _ _ => .of_writes (fun _ _ => execFrameRx_writes) rfl rfl,
    fun _ => .of_writes (fun _ _ => execPipeDecision_writes) rfl rfl,
    fun _ => .of_writes (fun _ _ => execFcsCheckDone_writes) rfl rfl,
    fun _ => .of_writes (fun _ _ => execLearnServe_writes) rfl rfl,
    fun _ _ => .of_noRegs rfl rfl,
    fun _ _ => .of_writes (fun _ _ => execAgeRemove_writes) rfl rfl,
    fun _ _ => .of_writes (fun _ _ => execFragExpire_writes) rfl rfl,
    fun _ => .of_writes (fun _ _ => execGenDrained_writes) rfl rfl,
    .of_writes (fun _ _ => execSorrelEpoch_writes) rfl rfl,
    fun _ => .of_writes (fun _ _ => execEgressSelect_writes) rfl rfl,
    fun _ _ => .of_writes (fun _ _ => execFrameTx_writes) rfl rfl,
    fun _ _ => .of_noRegs rfl rfl,
    fun _ _ _ _ => .of_writes (fun _ _ => execRefillDone_writes) rfl rfl,
    fun _ _ _ => .of_writes (fun _ _ => execMapoutDone_writes) rfl rfl,
    fun _ _ => .of_writes (fun _ _ => execMcAbandon_writes) rfl rfl,
    fun _ => .of_writes (fun _ _ => execPortHoldExpired_writes) rfl rfl,
    fun _ => .of_writes (fun _ _ => execGenCommit_writes) rfl rfl,
    fun _ => .of_writes (fun _ _ => execGenDiscard_writes) rfl rfl,
    fun _ _ _ => .of_writes (fun _ _ => execParseLoad_writes) rfl rfl,
    fun _ => .of_writes (fun _ _ => execFragFlush_writes) rfl rfl,
    fun _ _ => .of_writes (fun _ _ => execTableBulk_writes) rfl rfl,
    fun _ => .of_writes (fun _ _ => execMacFlush_writes) rfl rfl,
    fun _ => .of_writes (fun _ _ => execDeepbufMapout_writes) rfl rfl,
    fun _ => .of_writes (fun _ _ => execDeepbufScrub_writes) rfl rfl,
    fun _ _ => .of_writes (fun _ _ => execWinRead_writes) rfl rfl,
    fun _ _ => .of_writes (fun _ _ => execWinWrite_writes) rfl rfl,
    fun _ _ => .of_writes (fun _ _ => execWinRemove_writes) rfl rfl,
    fun _ _ => .of_writes (fun _ _ => execTwinRead_writes) rfl rfl,
    fun _ _ => .of_writes (fun _ _ => execTwinWrite_writes) rfl rfl,
    fun _ _ => .of_writes (fun _ _ => execTwinRemove_writes) rfl rfl,
    fun _ _ => .of_writes (fun _ _ => execTwinLookup_writes) rfl rfl,
    fun _ _ => .of_writes (fun _ _ => execTwinInject_writes) rfl rfl,
    fun _ _ => .of_writes (fun _ _ => execSpillWriteDone_writes) rfl rfl,
    .of_writes (fun _ _ => execMacFlushScanEnd_writes) rfl rfl⟩

/-- Settles O54: the commands of time, servo, references, measurement and calibration, by their parts and, where these hold the registers, by the rows that a meaning writes. -/
theorem timeAndMeasurementFrames : Obligations.TimeAndMeasurementFrames :=
  ⟨.of_writes (fun _ _ => execServoCompute_writes) rfl rfl,
    .of_writes (fun _ _ => execServoDeadline_writes) rfl rfl,
    fun _ => .of_writes (fun _ _ => execSlotInputTimeout_writes) rfl rfl,
    fun _ => .of_writes (fun _ _ => execSessionUnitEnd_writes) rfl rfl,
    fun _ _ _ => .of_noRegs rfl rfl,
    fun _ => .of_noRegs rfl rfl,
    fun _ _ => .of_writes (fun _ _ => execPtpRx_writes) rfl rfl,
    fun _ => .of_writes (fun _ _ => execKlWindowEnd_writes) rfl rfl,
    fun _ _ => .of_noRegs rfl rfl,
    fun _ _ => .of_writes (fun _ _ => execEsmcRx_writes) rfl rfl,
    fun _ => .of_writes (fun _ _ => execEsmcTimeout_writes) rfl rfl,
    fun _ => .of_writes (fun _ _ => execHoTtsExpire_writes) rfl rfl,
    fun _ => .of_noRegs rfl rfl,
    fun _ _ _ => .of_writes (fun _ _ => execSynGate_writes) rfl rfl,
    fun _ _ _ => .of_writes (fun _ _ => execEvinEdge_writes) rfl rfl,
    fun _ _ _ => .of_writes (fun _ _ => execRefinEdge_writes) rfl rfl,
    fun _ => .of_writes (fun _ _ => execMeasWindowEnd_writes) rfl rfl,
    fun _ _ => .of_writes (fun _ _ => execPendingStopExpire_writes) rfl rfl,
    .of_writes (fun _ _ => execMeasPost_writes) rfl rfl,
    fun _ => .of_writes (fun _ _ => execFmGateEnd_writes) rfl rfl,
    fun _ _ => .of_writes (fun _ _ => execEvoutPulse_writes) rfl rfl,
    fun _ _ => .of_writes (fun _ _ => execCalTempCheck_writes) rfl rfl,
    fun _ => .of_writes (fun _ _ => execCalPeriodDue_writes) rfl rfl,
    .of_writes (fun _ _ => execCalSlotStart_writes) rfl rfl,
    fun _ _ => .of_writes (fun _ _ => execPathRunDone_writes) rfl rfl,
    fun _ _ _ => .of_writes (fun _ _ => execCalChunkDone_writes) rfl rfl,
    fun _ _ noGap _ => .of_writes (fun _ _ => execCalOverdue_writes (x2 := noGap)) rfl rfl,
    fun _ => .of_writes (fun _ _ => execTcntWrite_writes) rfl rfl,
    fun _ => .of_writes (fun _ _ => execSessionSet_writes) rfl rfl,
    fun _ => .of_writes (fun _ _ => execSessionRead_writes) rfl rfl,
    fun _ => .of_writes (fun _ _ => execSlotAccept_writes) rfl rfl,
    fun _ => .of_writes (fun _ _ => execCalSweep_writes) rfl rfl,
    fun _ => .of_writes (fun _ _ => execCalHold_writes) rfl rfl,
    fun _ => .of_writes (fun _ _ => execRefForce_writes) rfl rfl,
    fun _ => .of_writes (fun _ _ => execHoldoverLearn_writes) rfl rfl,
    fun _ => .of_writes (fun _ _ => execDpllHistReset_writes) rfl rfl,
    fun _ => .of_writes (fun _ _ => execFreqLong_writes) rfl rfl,
    fun _ => .of_writes (fun _ _ => execPulseLoad_writes) rfl rfl,
    fun _ _ => .of_writes (fun _ _ => execSnapGo_writes) rfl rfl,
    fun _ _ _ => .of_writes (fun _ _ => execSlotUpd_writes) rfl rfl,
    fun src _ _ => .of_writes (fun _ _ => execLinkUpd_writes (x0 := src)) rfl rfl,
    fun _ _ _ => .of_writes (fun _ _ => execSynUpd_writes) rfl rfl,
    fun _ _ _ => .of_parts rfl,
    fun _ _ _ => .of_writes (fun _ _ => execSwrateCommit_writes) rfl rfl,
    fun _ _ _ => .of_writes (fun _ _ => execDpllOpen_writes) rfl rfl,
    fun _ _ _ _ => .of_writes (fun _ _ => execCandCfgWrite_writes) rfl rfl,
    fun _ _ _ _ => .of_writes (fun _ _ => execImCfgWrite_writes) rfl rfl,
    fun _ _ _ _ => .of_writes (fun _ _ => execFmCfgWrite_writes) rfl rfl⟩

/-- Settles O55: the commands of the host interface, the cores and the register accesses, by their parts and, where these hold the registers, by the rows that a meaning writes. -/
theorem hostAndCoreFrames : Obligations.HostAndCoreFrames :=
  ⟨fun _ _ _ => .of_noRegs rfl rfl,
    .of_writes (fun _ _ => execBoardIntlkTake_writes) rfl rfl,
    fun _ => .of_writes (fun _ _ => execBoardIntlkSample_writes) rfl rfl,
    fun _ => .of_noRegs rfl rfl,
    fun _ => .of_parts rfl,
    .of_parts rfl,
    .of_parts rfl,
    .of_parts rfl,
    fun _ => .of_writes (fun _ _ => execPcieLinkRecovery_writes) rfl rfl,
    fun _ _ => .of_parts rfl,
    fun _ => .of_writes (fun _ _ => execDoorbellData_writes) rfl rfl,
    .of_writes (fun _ _ => execDoorbellDeadline_writes) rfl rfl,
    .of_writes (fun _ _ => execKick_writes) rfl rfl,
    fun _ _ _ => .of_writes (fun _ _ => execTxDescriptor_writes) rfl rfl,
    fun _ => .of_writes (fun _ _ => execRxWriteback_writes) rfl rfl,
    .of_writes (fun _ _ => execCompletionWrite_writes) rfl rfl,
    .of_writes (fun _ _ => execEventLost_writes) rfl rfl,
    fun _ => .of_writes (fun _ _ => execMsixSignal_writes) rfl rfl,
    fun _ => .of_writes (fun _ _ => execCmdTimeout_writes) rfl rfl,
    fun _ _ => .of_writes (fun _ _ => execUnassignedOpcode_writes) rfl rfl,
    fun _ => .of_parts rfl,
    fun _ => .of_writes (fun _ _ => execPairSwap_writes) rfl rfl,
    fun _ => .of_parts rfl,
    fun _ => .of_writes (fun _ _ => execLongQuery_writes) rfl rfl,
    fun _ _ => .of_parts rfl,
    fun _ => .of_writes (fun _ _ => execNop_writes) rfl rfl,
    fun _ _ _ => .of_writes (fun _ _ => execMemCopy_writes) rfl rfl,
    .of_parts rfl,
    fun _ _ => .of_writes (fun _ _ => execMbPost_writes) rfl rfl,
    fun _ _ _ => .of_writes (fun _ _ => execBankHandover_writes) rfl rfl,
    fun _ _ _ => .of_writes (fun _ _ => execQuadHandover_writes) rfl rfl,
    fun _ => .of_writes (fun _ _ => execBankHandoverDone_writes) rfl rfl,
    fun _ _ _ => .of_writes (fun _ _ => execBankPower_writes) rfl rfl,
    fun _ => .of_writes (fun _ _ => execTagPop_writes) rfl rfl,
    .of_writes (fun _ _ => execFetchNow_writes) rfl rfl,
    fun _ => .of_writes (fun _ _ => execDmaOff_writes) rfl rfl,
    fun _ => .of_writes (fun _ _ => execTxStop_writes) rfl rfl,
    fun _ _ => .of_writes (fun _ _ => execRingEnable_writes) rfl rfl,
    fun _ _ => .of_writes (fun _ _ => execRingDisable_writes) rfl rfl,
    fun _ => .of_writes (fun _ _ => execCtoConfigWrite_writes) rfl rfl,
    fun _ addr => .of_writes (fun _ _ => execBadAccess_writes (x1 := addr)) rfl rfl,
    fun _ => .of_parts rfl,
    fun _ => .of_parts rfl,
    fun _ _ _ => .of_parts rfl,
    fun _ _ _ => .of_parts rfl,
    fun _ _ => .of_noRegs rfl rfl,
    fun _ _ => .of_noRegs rfl rfl,
    fun _ _ => .of_noRegs rfl rfl,
    fun _ _ => .of_parts rfl,
    fun _ _ _ => .of_writes (fun _ _ => execKsTsnap_writes) rfl rfl,
    fun _ _ _ => .of_writes (fun _ _ => execKsTget_writes) rfl rfl,
    fun _ _ => .of_writes (fun _ _ => execKsWfb_writes) rfl rfl,
    fun _ _ => .of_writes (fun _ _ => execKsWfe_writes) rfl rfl,
    fun _ => .of_writes (fun _ _ => execCoreWake_writes) rfl rfl,
    fun _ _ _ _ _ => .of_writes (fun _ _ => execKsCrc_writes) rfl rfl,
    fun _ _ _ => .of_writes (fun _ _ => execKsPcnt_writes) rfl rfl,
    fun _ => .of_writes (fun _ _ => execKsTret_writes) rfl rfl,
    fun _ _ _ => .of_parts rfl,
    fun _ => .of_writes (fun _ _ => execInterruptTaken_writes) rfl rfl,
    fun _ _ => .of_writes (fun _ _ => execPerfWrap_writes) rfl rfl,
    fun _ => .of_writes (fun _ _ => execTagCountdown_writes) rfl rfl,
    fun _ _ => .of_writes (fun _ _ => execPcieLinkUp_writes) rfl rfl,
    fun _ => .of_writes (fun _ _ => execHostReadCompletion_writes) rfl rfl,
    fun _ => .of_writes (fun _ _ => execBankPowerReached_writes) rfl rfl,
    fun _ => .of_parts rfl⟩

/-- Settles O56: the commands of power, boot, vault and update, by their parts and, where these hold the registers, by the rows that a meaning writes. -/
theorem powerAndSecurityFrames : Obligations.PowerAndSecurityFrames :=
  ⟨.of_parts rfl,
    .of_parts rfl,
    .of_writes (fun _ _ => execTickPllLock_writes) rfl rfl,
    .of_noRegs rfl rfl,
    fun _ => .of_writes (fun _ _ => execSeqOrderViolation_writes) rfl rfl,
    fun _ => .of_writes (fun _ _ => execPowerupTimeout_writes) rfl rfl,
    .of_noRegs rfl rfl,
    .of_parts rfl,
    fun _ => .of_parts rfl,
    .of_parts rfl,
    fun _ => .of_writes (fun _ _ => execResetNLong_writes) rfl rfl,
    .of_parts rfl,
    fun _ => .of_parts rfl,
    .of_writes (fun _ _ => execJoinBeat_writes) rfl rfl,
    fun _ => .of_writes (fun _ _ => execDipEnter_writes) rfl rfl,
    fun _ => .of_writes (fun _ _ => execDipExit_writes) rfl rfl,
    fun _ => .of_writes (fun _ _ => execDipLong_writes) rfl rfl,
    .of_writes (fun _ _ => execOscLoss_writes) rfl rfl,
    .of_noRegs rfl rfl,
    .of_parts rfl,
    .of_parts rfl,
    .of_noRegs rfl rfl,
    .of_parts rfl,
    fun _ _ => .of_writes (fun _ _ => execTamperDetect_writes) rfl rfl,
    fun _ => .of_writes (fun _ _ => execVbatCheck_writes) rfl rfl,
    .of_writes (fun _ _ => execWdtWarn_writes) rfl rfl,
    .of_parts rfl,
    fun _ _ => .of_writes (fun _ _ => execProfileApply_writes) rfl rfl,
    fun _ => .of_parts rfl,
    fun _ => .of_writes (fun _ _ => execChipReset_writes) rfl rfl,
    fun _ => .of_parts rfl,
    fun _ _ => .of_writes (fun _ _ => execUpdStage_writes) rfl rfl,
    fun _ => .of_writes (fun _ _ => execUpdInstall_writes) rfl rfl,
    fun _ => .of_writes (fun _ _ => execUpdCommit_writes) rfl rfl,
    fun _ => .of_writes (fun _ _ => execUpdDiscard_writes) rfl rfl,
    fun _ => .of_writes (fun _ _ => execKeyWrite_writes) rfl rfl,
    fun _ _ => .of_writes (fun _ _ => execKeyHmac_writes) rfl rfl,
    fun _ => .of_writes (fun _ _ => execTamperClear_writes) rfl rfl,
    fun _ => .of_writes (fun _ _ => execFuseCust_writes) rfl rfl,
    fun src _ => .of_writes (fun _ _ => execResetCtrlChip_writes (x0 := src)) rfl rfl,
    fun _ _ => .of_noRegs rfl rfl,
    fun src _ => .of_writes (fun _ _ => execWdtCtrlWrite_writes (x0 := src)) rfl rfl,
    fun _ _ _ => .of_writes (fun _ _ => execTamperCfgWrite_writes) rfl rfl,
    .of_parts rfl⟩

end Sys2Proof.Machine
end

section
/-!
Reports (spec/15 R466, R471, R478): what the host has asked for stays as it is while entries, events and completions are written; the event ring.
-/
namespace Sys2Proof.Machine
open Sys2Proof

/-! ### What the host has asked for -/

/-- The state of the host interface without what is on its way to the host: events, posts, signals and completions. -/
def HostSt.asked (h : HostSt) : HostSt :=
  { h with
    evSeq := 0, lost := none, posts := [], held := [], heldEntries := [], lastSignal := [], sigDue := [], waitCpl := [], keptFinal := []
    ended := [], readOk := [] }

@[simp] theorem State.post_asked (s : State) (p : Post) : (s.post p).host.asked = s.host.asked := by
  unfold State.post
  split <;> rfl

@[simp] theorem State.signal_asked (s : State) (r : Nat) : (s.signal r).host.asked = s.host.asked := by
  unfold State.signal
  extract_lets v masked host u
  split
  · rfl
  · split
    · rfl
    · exact u.post_asked _

@[simp] theorem State.signalSoon_asked (s : State) (r : Nat) : (s.signalSoon r).host.asked = s.host.asked := by
  unfold State.signalSoon
  split
  · exact s.signal_asked r
  · rfl

@[simp] theorem State.showFull_host (s : State) (r : Nat) : (s.showFull r).host = s.host := rfl

@[simp] theorem State.advance_asked (s : State) (r n : Nat) : (s.advance r n).host.asked = s.host.asked := by
  unfold State.advance
  extract_lets u
  split
  · exact u.post_asked _
  · rfl

@[simp] theorem State.writeEntry_asked (s : State) (r data : Nat) (irq : Bool) : (s.writeEntry r data irq).host.asked = s.host.asked := by
  unfold State.writeEntry
  split
  · rfl
  · extract_lets u
    have hu : u.host.asked = s.host.asked := by simp only [u, State.advance_asked, State.post_asked]
    split
    · rw [State.signalSoon_asked, hu]
    · exact hu

@[simp] theorem State.fifoCopy_host (s : State) (code : Nat) (r : BitVec 512) (c : Nat) : (s.fifoCopy code r c).host = s.host :=
  State.fifoCopy_kept.same .host rfl

@[simp] theorem State.reportLost_asked (s : State) : s.reportLost.host.asked = s.host.asked := by
  unfold State.reportLost
  split
  · rfl
  · split
    · rfl
    · simp only [State.fifoCopy_host, State.writeEntry_asked]
      rfl

@[simp] theorem State.loseEvent_asked (s : State) (code : Nat) (seq : BitVec 32) : (s.loseEvent code seq).host.asked = s.host.asked := rfl

@[simp] theorem State.raise_asked (s : State) (code len : Nat) (fields : List (Nat × Nat × Nat)) :
    (s.raise code len fields).host.asked = s.host.asked := by
  unfold State.raise
  extract_lets u seq r v
  have hv : v.host.asked = s.host.asked := by
    simp only [v, State.fifoCopy_host]
    exact s.reportLost_asked
  split
  · rw [State.writeEntry_asked, hv]
  · rw [State.reportLost_asked, State.loseEvent_asked, hv]

@[simp] theorem State.handleGone_asked (s : State) (r : BitVec 512) : (s.handleGone r).host.asked = s.host.asked := rfl

@[simp] theorem State.flushCpl_asked (n : Nat) (s : State) : (s.flushCpl n).host.asked = s.host.asked := by
  induction n generalizing s with
  | zero => rfl
  | succ n ih =>
    unfold State.flushCpl
    split
    · rfl
    · split
      · rfl
      · extract_lets u
        rw [ih]
        unfold State.when
        split <;> simp only [State.handleGone_asked, State.writeEntry_asked] <;> rfl

@[simp] theorem State.perf_host (s : State) (c e n : Nat) : (s.perf c e n).host = s.host := State.perf_kept.same .host rfl

@[simp] theorem State.deliver_asked (s : State) (c : Cmd) (r : BitVec 512) (flags : Nat) : (s.deliver c r flags).host.asked = s.host.asked := by
  unfold State.deliver
  split
  · extract_lets k u
    split
    · split
      · rfl
      · unfold State.when
        split <;> rfl
    · exact State.flushCpl_asked ..
  · extract_lets m u
    have hu : u.host.asked = s.host.asked := by
      unfold u State.when
      split <;> split <;> rfl
    split
    · split <;> exact hu
    · exact (congrArg HostSt.asked (State.perf_host ..)).trans hu

@[simp] theorem State.complete_asked (s : State) (c : Cmd) (op status : Nat) (data : BitVec 256) (flags handle lower : Nat) :
    (s.complete c op status data flags handle lower).host.asked = s.host.asked := by
  unfold State.complete
  extract_lets w fl lo host u
  exact u.deliver_asked ..

@[simp] theorem State.late_asked (s : State) (k n : Nat) : (s.late k n).host.asked = s.host.asked := by
  unfold State.late
  split
  · rfl
  · extract_lets f first u
    split
    · exact State.raise_asked ..
    · rfl

/-! ### Entries of a ring (spec/15 R463, R466) -/

theorem State.post_evSeq (s : State) (p : Post) : (s.post p).host.evSeq = s.host.evSeq := by
  unfold State.post
  split <;> rfl

theorem State.advance_evSeq (s : State) (r n : Nat) : (s.advance r n).host.evSeq = s.host.evSeq := by
  unfold State.advance
  extract_lets u
  split
  · exact u.post_evSeq _
  · rfl

theorem State.signal_evSeq (s : State) (r : Nat) : (s.signal r).host.evSeq = s.host.evSeq := by
  unfold State.signal
  extract_lets v masked host u
  split
  · rfl
  · split
    · rfl
    · exact u.post_evSeq _

theorem State.signalSoon_evSeq (s : State) (r : Nat) : (s.signalSoon r).host.evSeq = s.host.evSeq := by
  unfold State.signalSoon
  split
  · exact s.signal_evSeq r
  · rfl

theorem State.post_posts (s : State) (p : Post) :
    (s.post p).host.posts = if s.flag F.hostifEmerg_DMA_OFF then s.host.posts else p :: s.host.posts := by
  unfold State.post
  split <;> rfl

theorem State.posts_subset_post (s : State) (p : Post) : s.host.posts ⊆ (s.post p).host.posts := by
  rw [State.post_posts]
  split
  · exact List.Subset.refl _
  · exact List.subset_cons_self ..

theorem State.posts_subset_advance (s : State) (r n : Nat) : s.host.posts ⊆ (s.advance r n).host.posts := by
  unfold State.advance
  extract_lets u
  split
  · exact u.posts_subset_post _
  · exact List.Subset.refl _

theorem State.posts_subset_signal (s : State) (r : Nat) : s.host.posts ⊆ (s.signal r).host.posts := by
  unfold State.signal
  extract_lets v masked host u
  split
  · exact List.Subset.refl _
  · split
    · exact List.Subset.refl _
    · exact u.posts_subset_post _

theorem State.posts_subset_signalSoon (s : State) (r : Nat) : s.host.posts ⊆ (s.signalSoon r).host.posts := by
  unfold State.signalSoon
  split
  · exact s.posts_subset_signal r
  · exact List.Subset.refl _

/-- DEV_IDX of a ring after an advance. -/
theorem State.advance_devIdx (s : State) {r : Nat} (hr : r < 69) (n : Nat) : (s.advance r n).devIdx r = (s.devIdx r + n) % 2 ^ 32 := by
  have hne : Reg.ringDevIdx r ≠ Reg.ringStatus r := by
    simp only [Reg.ringDevIdx, Reg.ringStatus, RegMap.at1, if_pos hr]
    omega
  have hset (u : State) (hu : u.reg (Reg.ringDevIdx r) = BitVec.ofNat 32 (s.devIdx r + n)) : u.devIdx r = (s.devIdx r + n) % 2 ^ 32 := by
    simp only [State.devIdx, hu, BitVec.toNat_ofNat]
  unfold State.advance
  extract_lets u
  have hu : u.reg (Reg.ringDevIdx r) = BitVec.ofNat 32 (s.devIdx r + n) := by
    simp only [u, State.showFull, State.reg_setF_other _ (f := F.ringStatus_FULL r) _ hne, State.reg_setReg_same]
  split
  · refine hset _ ?_
    simp only [State.post_reg, hu]
  · exact hset _ hu

/-- Ring `r` has the same settings, indices and stop in both states. -/
structure SameRing (r : Nat) (s t : State) : Prop where
  cfg : t.reg (Reg.ringCfg r) = s.reg (Reg.ringCfg r)
  dev : t.reg (Reg.ringDevIdx r) = s.reg (Reg.ringDevIdx r)
  taken : t.reg (Reg.ringHostIdx r) = s.reg (Reg.ringHostIdx r)
  stopped : t.host.stopped = s.host.stopped

namespace SameRing

variable {r : Nat} {s t : State}

theorem of_writes {R : List Nat} (h : Writes R s t) (hstopped : t.host.stopped = s.host.stopped)
    (hrows : (rowsApart R 0x101008 69 0x20 && rowsApart R 0x101010 69 0x20 && rowsApart R 0x101014 69 0x20) = true) (hr : r < 69) : SameRing r s t := by
  simp only [Bool.and_eq_true] at hrows
  obtain ⟨⟨hcfg, hdev⟩, htaken⟩ := hrows
  exact ⟨h.same _ (rowsApart_at hcfg hr rfl), h.same _ (rowsApart_at hdev hr rfl), h.same _ (rowsApart_at htaken hr rfl), hstopped⟩

theorem ringSize (h : SameRing r s t) : t.ringSize r = s.ringSize r := by
  simp only [State.ringSize, State.fld, F.ringCfg_SIZE_LOG2, h.cfg]

theorem ringOn (h : SameRing r s t) : t.ringOn r = s.ringOn r := by
  simp only [State.ringOn, State.flag, State.fld, F.ringCfg_EN, h.cfg, h.stopped]

theorem devIdx (h : SameRing r s t) : t.devIdx r = s.devIdx r := by simp only [State.devIdx, h.dev]

theorem hostIdx (h : SameRing r s t) : t.hostIdx r = s.hostIdx r := by simp only [State.hostIdx, h.taken]

theorem ringFree (h : SameRing r s t) (hheld : t.host.heldEntries = s.host.heldEntries) : t.ringFree r = s.ringFree r := by
  simp only [State.ringFree, State.ringUsed, h.ringOn, h.ringSize, h.devIdx, h.hostIdx, hheld]

end SameRing

theorem stopped_of_asked {s t : State} (h : t.host.asked = s.host.asked) : t.host.stopped = s.host.stopped :=
  congrArg (·.stopped) h

/-- An entry that may leave is written into the slot of DEV_IDX, which goes on by one; what has been posted stays. -/
theorem State.writeEntry_written (s : State) {r : Nat} (hr : r < 69) (data : Nat) (irq : Bool) (hdma : s.flag F.hostifEmerg_DMA_OFF = false) :
    (s.writeEntry r data irq).devIdx r = (s.devIdx r + 1) % 2 ^ 32 ∧
      .mem (s.slotAddr r (s.devIdx r)) (ringEntry r) data ∈ (s.writeEntry r data irq).host.posts ∧
      (s.writeEntry r data irq).host.evSeq = s.host.evSeq := by
  unfold State.writeEntry
  rw [hdma, if_neg Bool.false_ne_true]
  extract_lets u
  have hdev : u.devIdx r = (s.devIdx r + 1) % 2 ^ 32 := by
    simp only [u, State.advance_devIdx _ hr]
    simp only [State.devIdx, State.post_reg]
  have hposts : Post.mem (s.slotAddr r (s.devIdx r)) (ringEntry r) data ∈ u.host.posts := by
    refine State.posts_subset_advance _ _ _ ?_
    rw [State.post_posts, hdma, if_neg Bool.false_ne_true]
    exact List.mem_cons_self
  have hseq : u.host.evSeq = s.host.evSeq := by
    simp only [u, State.advance_evSeq, State.post_evSeq]
  split
  · refine ⟨?_, State.posts_subset_signalSoon _ _ hposts, (State.signalSoon_evSeq ..).trans hseq⟩
    rw [SameRing.devIdx (.of_writes State.signalSoon_writes (stopped_of_asked (State.signalSoon_asked ..)) rfl hr), hdev]
  · exact ⟨hdev, hposts, hseq⟩

/-! ### Events (spec/15 R478) -/

theorem State.reportLost_of_none {s : State} (h : s.host.lost = none) : s.reportLost = s := by
  simp only [State.reportLost, h]

theorem State.reportLost_of_full {s : State} (h : s.ringFree 66 = 0) : s.reportLost = s := by
  unfold State.reportLost
  split
  · rfl
  · rw [if_pos h]

/-- The event has its SEQ and the user cores have their copies. -/
def State.copied (s : State) (code : Nat) (rec : BitVec 512) : State := (s.nextSeq.fifoCopy code rec 6).fifoCopy code rec 7

theorem State.copied_host (s : State) (code : Nat) (rec : BitVec 512) : (s.copied code rec).host = { s.host with evSeq := s.host.evSeq + 1 } := by
  simp only [State.copied, State.fifoCopy_host]
  rfl

theorem State.copied_writes (s : State) (code : Nat) (rec : BitVec 512) : Writes [Reg.perfWrapLo 0, Reg.perfWrapHi 0] s (s.copied code rec) :=
  State.fifoCopy_writes.step rfl (State.fifoCopy_writes.step rfl (.kept State.nextSeq_kept rfl .refl))

theorem State.copied_sameRing (s : State) (code : Nat) (rec : BitVec 512) {r : Nat} (hr : r < 69) : SameRing r s (s.copied code rec) :=
  .of_writes (s.copied_writes code rec) (by rw [State.copied_host]) rfl hr

theorem State.copied_ringFree (s : State) (code : Nat) (rec : BitVec 512) {r : Nat} (hr : r < 69) : (s.copied code rec).ringFree r = s.ringFree r :=
  (s.copied_sameRing code rec hr).ringFree (by rw [State.copied_host])

/-- The record of the event that is raised next. -/
def State.nextRec (s : State) (code len : Nat) (fields : List (Nat × Nat × Nat)) : BitVec 512 :=
  eventRec code len s.host.evSeq s.now (packLE 256 fields)

theorem State.raise_of_none_lost {s : State} (code len : Nat) (fields : List (Nat × Nat × Nat)) (hlost : s.host.lost = none) :
    s.raise code len fields =
      if (s.copied code (s.nextRec code len fields)).host.lost.isNone && decide (2 ≤ (s.copied code (s.nextRec code len fields)).ringFree 66) then
        (s.copied code (s.nextRec code len fields)).writeEntry 66 (s.nextRec code len fields).toNat
      else ((s.copied code (s.nextRec code len fields)).loseEvent code s.host.evSeq).reportLost := by
  unfold State.raise
  rw [State.reportLost_of_none hlost]
  rfl

theorem State.raise_of_room {s : State} (code len : Nat) (fields : List (Nat × Nat × Nat)) (hlost : s.host.lost = none) (hroom : 2 ≤ s.ringFree 66) :
    s.raise code len fields = (s.copied code (s.nextRec code len fields)).writeEntry 66 (s.nextRec code len fields).toNat := by
  rw [State.raise_of_none_lost code len fields hlost, if_pos]
  simp [State.copied_host, hlost, State.copied_ringFree s code _ (show 66 < 69 by decide), hroom]

theorem State.raise_of_full {s : State} (code len : Nat) (fields : List (Nat × Nat × Nat)) (hlost : s.host.lost = none) (hfull : s.ringFree 66 = 0) :
    s.raise code len fields = (s.copied code (s.nextRec code len fields)).loseEvent code s.host.evSeq := by
  have hfree : (s.copied code (s.nextRec code len fields)).ringFree 66 = 0 := (s.copied_ringFree code _ (by decide)).trans hfull
  rw [State.raise_of_none_lost code len fields hlost, if_neg (by simp [hfree])]
  exact State.reportLost_of_full ((SameRing.ringFree (.of_writes State.loseEvent_writes rfl rfl (by decide)) rfl).trans hfree)

/-- Settles O50: with room the event is `State.writeEntry` of its record, and without any it is `State.loseEvent` of its SEQ; the copies for the user
cores leave the ring as it was. -/
theorem eventRecords : Obligations.EventRecords := by
  refine ⟨?written, ?lost⟩
  case written =>
    intro s code len fields hlost hroom hdma
    have hring : SameRing 66 s _ := s.copied_sameRing code (s.nextRec code len fields) (by decide)
    obtain ⟨hdev, hpost, hseq⟩ := (s.copied code (s.nextRec code len fields)).writeEntry_written (show 66 < 69 by decide)
      (s.nextRec code len fields).toNat true ((Writes.flag (s.copied_writes code _) (isApart_at rfl)).trans hdma)
    have haddr : (s.copied code (s.nextRec code len fields)).slotAddr 66 (s.devIdx 66) = s.slotAddr 66 (s.devIdx 66) := by
      simp only [State.slotAddr, hring.ringSize, State.copied_host]
    rw [hring.devIdx] at hdev hpost
    rw [haddr] at hpost
    rw [State.raise_of_room code len fields hlost hroom]
    exact ⟨hseq.trans (by rw [State.copied_host]), hdev, hpost⟩
  case lost =>
    intro s code len fields hlost hfull
    rw [State.raise_of_full code len fields hlost hfull]
    refine ⟨congrArg (·.posts) (s.copied_host code (s.nextRec code len fields)), ⟨1, BitVec.ofNat 16 code, BitVec.ofNat 16 code, s.host.evSeq⟩, ?_, rfl, rfl⟩
    simp only [State.loseEvent, State.copied_host, hlost]
    rfl

end Sys2Proof.Machine
end

section
/-!
The PCIe link (spec/15 R461, R481 to R486; spec/03 R97): link state, recovery, reads that time out, link resets.
-/
namespace Sys2Proof.Machine
open Sys2Proof

/-! ### What stops a ring shows while events are raised (spec/15 R463, R489) -/

section RingErr

variable {k : Nat} (hk : k < 69) {g : Fld} (haddr : g.addr = Reg.ringStatus k) (hsep : ∀ r, (F.ringStatus_FULL r).sep g = true)

include hsep in
theorem State.showFull_fld (s : State) (r : Nat) : (s.showFull r).fld g = s.fld g :=
  State.fld_setF_sep _ _ (hsep r)

include hk haddr in
theorem ringStatus_fld_of_writes {R : List Nat} {s t : State} (h : Writes R s t) (hrows : rowsApart R 0x10100C 69 0x20 = true) : t.fld g = s.fld g :=
  h.fld (haddr ▸ rowsApart_at hrows hk rfl)

include hk haddr hsep

theorem State.advance_fld (s : State) (r n : Nat) : (s.advance r n).fld g = s.fld g := by
  have hne : g.addr ≠ Reg.ringDevIdx r := fun e =>
    rowsApart_at (R := [Reg.ringDevIdx 0]) rfl hk rfl (haddr ▸ e ▸ Reg.ringDevIdx_at rfl)
  unfold State.advance
  extract_lets u
  have hu : u.fld g = s.fld g := by
    simp only [u, State.showFull_fld hsep]
    simp only [State.fld, State.reg_setReg_other _ _ hne]
  split
  · exact (u.post_fld _ g).trans hu
  · exact hu

theorem State.writeEntry_fld (s : State) (r data : Nat) (irq : Bool) : (s.writeEntry r data irq).fld g = s.fld g := by
  unfold State.writeEntry
  split
  · rfl
  · extract_lets u
    have hu : u.fld g = s.fld g := by
      simp only [u, State.advance_fld hk haddr hsep, State.post_fld]
    split
    · exact (ringStatus_fld_of_writes hk haddr State.signalSoon_writes rfl).trans hu
    · exact hu

theorem State.reportLost_fld (s : State) : s.reportLost.fld g = s.fld g := by
  unfold State.reportLost
  split
  · rfl
  · split
    · rfl
    · simp only [ringStatus_fld_of_writes hk haddr State.fifoCopy_writes rfl, State.writeEntry_fld hk haddr hsep]
      rfl

theorem State.raise_ringErr_fld (s : State) (code len : Nat) (fields : List (Nat × Nat × Nat)) : (s.raise code len fields).fld g = s.fld g := by
  unfold State.raise
  extract_lets u seq r v
  have hv : v.fld g = s.fld g := by
    simp only [v, ringStatus_fld_of_writes hk haddr State.fifoCopy_writes rfl]
    exact s.reportLost_fld hk haddr hsep
  split
  · exact (State.writeEntry_fld hk haddr hsep ..).trans hv
  · rw [State.reportLost_fld hk haddr hsep, ringStatus_fld_of_writes hk haddr State.loseEvent_writes rfl, hv]

end RingErr

/-- A ring that fails shows why. -/
theorem State.ringFail_shows (s : State) {r code : Nat} (hr : r < 69) (hcode : code < 256) (idx : Nat) :
    (s.ringFail r code idx).flag (F.ringStatus_ERR r) = true ∧ (s.ringFail r code idx).fld (F.ringStatus_ERR_CODE r) = code := by
  unfold State.ringFail
  extract_lets u v
  have herr : v.fld (F.ringStatus_ERR r) = 1 := by
    rw [State.fld_setF_sep _ _ (by rfl)]
    exact State.fld_setF_of_lt _ (by decide : 31 + 1 ≤ 32) (by decide : 1 < 2 ^ 1)
  refine ⟨?_, ?_⟩
  · rw [State.flag, State.raise_ringErr_fld hr rfl (fun _ => rfl), herr]
    rfl
  · rw [State.raise_ringErr_fld hr rfl (fun _ => rfl)]
    exact State.fld_setF_of_lt _ (by decide : 0 + 8 ≤ 32) (show code < 2 ^ 8 from hcode)

/-! ### RECOVERING and the link's events -/

theorem State.pcieEvent_asked (s : State) (kind us : Nat) : (s.pcieEvent kind us).host.asked = s.host.asked := s.raise_asked ..

theorem State.pcieEvent_fld (s : State) (kind us : Nat) {f : Fld} (h : ¬AtReg reportRegs f.addr) : (s.pcieEvent kind us).fld f = s.fld f :=
  State.raise_writes.fld (mt (AtReg.mono (by decide)) h)

theorem State.showRecovering_flag (s : State) :
    s.showRecovering.flag F.hostifStatus_RECOVERING = (s.host.recovery.isSome || !s.host.reads.isEmpty) := by
  rw [State.flag, State.showRecovering, State.fld_setF _ _ _ (by decide)]
  cases (s.host.recovery.isSome || !s.host.reads.isEmpty) <;> rfl

/-! ### Link resets (spec/03 R97, spec/15 R483, R484) -/

section

variable {a : Nat} {x : RegHit} (hx : RegMap.find a = some x)
include hx

/-- A register that no profile sets keeps its word while settings are applied. -/
theorem State.settle_reg_of_class (hb : x.maskB = 0) (s : State) (sel : Nat → Bool) (l : List Setting) :
    (s.settle sel l false true).reg a = s.reg a := by
  have hstep (u : State) (t : Setting) : (u.setReg t.addr (u.settingWord t false true)).reg a = u.reg a := by
    by_cases e : t.addr = a
    · have hreach : t.reach false true = 0#32 := by
        simp only [Setting.reach, e, hx, hb, if_neg Bool.false_ne_true]
        simp
      rw [← e, State.reg_setReg_same, State.settingWord, hreach, BitVec.and_zero, BitVec.or_zero, BitVec.not_zero, BitVec.and_allOnes]
    · exact u.reg_setReg_other _ (Ne.symm e)
  unfold State.settle State.each
  induction l.filter _ generalizing s with
  | nil => rfl
  | cons t l ih => exact (ih _).trans (hstep s t)

/-- A register of class L holds its reset word after a reset. -/
theorem State.regsRestore_reg_of_class (hb : x.maskB = 0) (hkept : x.maskKept = 0) {s : State} (hcanon : regsCanon s = true) {sel : Nat → Bool}
    (hsel : sel a = true) : (s.regsRestore sel).reg a = RegMap.reset a := by
  rw [State.regsRestore, State.settle_reg_of_class hx hb, State.regsReset_reg s sel a hcanon, if_pos hsel]
  simp only [hx, hkept]
  rw [BitVec.and_zero, BitVec.zero_or, BitVec.not_zero, BitVec.and_allOnes]

end

/-- `HOSTIF_RING[r]_CFG` is of class L. -/
theorem ringCfg_class (r : Fin 69) : (RegMap.find (Reg.ringCfg r)).any (fun x => x.maskB == 0 && x.maskKept == 0) = true := by
  revert r
  decide +kernel

theorem ringCfg_EN_reset (r : Fin 69) : (F.ringCfg_EN r).of (RegMap.reset (Reg.ringCfg r)) = 0 := by
  revert r
  decide +kernel

theorem inHostif_ringCfg (r : Fin 69) : inHostif (Reg.ringCfg r) = true := by
  revert r
  decide +kernel

theorem State.regsRestore_ringCfg_EN {s : State} (hcanon : regsCanon s = true) (r : Fin 69) :
    (s.regsRestore inHostif).flag (F.ringCfg_EN r) = false := by
  obtain ⟨x, hx, hclass⟩ := (Option.any_eq_true ..).1 (ringCfg_class r)
  simp only [Bool.and_eq_true, beq_iff_eq] at hclass
  have hreg := State.regsRestore_reg_of_class hx hclass.1 hclass.2 hcanon (inHostif_ringCfg r)
  simp only [State.flag, State.fld]
  show ((F.ringCfg_EN r).of ((s.regsRestore inHostif).reg (Reg.ringCfg r)) != 0) = false
  rw [hreg, ringCfg_EN_reset]
  rfl

@[simp] theorem State.useCto_host (s : State) (e : Nat) : (s.useCto e).host = s.host := State.useCto_kept.same .host rfl

theorem State.handleGone_each_asked (s : State) (l : List Cpl) : (s.each l fun s k => s.handleGone k.record).host.asked = s.host.asked := by
  unfold State.each
  induction l generalizing s with
  | nil => rfl
  | cons k l ih => exact ih _

/-- A reset of the host interface empties it; the host's commands in progress are lost, its long operations stay. -/
structure HostEmptied (s t : State) : Prop where
  fetch : t.host.fetch = none
  recovery : t.host.recovery = none
  reads : t.host.reads = []
  waitCpl : t.host.waitCpl = []
  ringsReset : t.host.ringsReset = true
  parked : t.host.parked = s.host.parked.map fun p => if p.cmd.user.isNone then { p with lost := true } else p
  pm : t.host.pm = .d0
  longOps : t.host.longOps = s.host.longOps
  rings : ∀ r : Fin 69, t.flag (F.ringCfg_EN r) = false

theorem HostEmptied.of_writes {s t u : State} (h : HostEmptied s t) {R : List Nat} (hw : Writes R t u) (hhost : u.host = t.host)
    (hrows : rowsApart R 0x101008 69 0x20 = true) : HostEmptied s u where
  fetch := hhost ▸ h.fetch
  recovery := hhost ▸ h.recovery
  reads := hhost ▸ h.reads
  waitCpl := hhost ▸ h.waitCpl
  ringsReset := hhost ▸ h.ringsReset
  parked := hhost ▸ h.parked
  pm := hhost ▸ h.pm
  longOps := hhost ▸ h.longOps
  rings r := (hw.flag (rowsApart_at hrows r.isLt rfl)).trans (h.rings r)

theorem State.hostReset_emptied {s : State} (hcanon : regsCanon s = true) (link : Bool) : HostEmptied s (s.hostReset link) := by
  unfold State.hostReset
  extract_lets st fin lost u v w
  have hu : u.host.asked = s.host.asked := s.handleGone_each_asked _
  have hucanon : regsCanon u = true :=
    Kept.regs (State.each_kept (fun _ _ h => h.trans State.handleGone_kept) .refl : Kept [.host] s u) hcanon
  have hrestore : (u.regsRestore inHostif).host.asked = s.host.asked :=
    (congrArg HostSt.asked (State.regsRestore_kept.same .host rfl)).trans hu
  have hv : HostEmptied s v :=
    { fetch := rfl, recovery := rfl, reads := rfl, waitCpl := rfl, ringsReset := rfl, pm := rfl
      parked := congrArg (fun h => h.parked.map fun p => if p.cmd.user.isNone then { p with lost := true } else p) hrestore
      longOps := congrArg (·.longOps) hrestore
      rings := State.regsRestore_ringCfg_EN hucanon }
  have hw : HostEmptied s w := by
    refine hv.of_writes (R := [Reg.hostifStatus, Reg.hostifCnt 0]) ?_ (State.useCto_host ..) rfl
    exact State.useCto_writes.step rfl (.bump (show AtReg _ (Reg.hostifCnt 6) from Reg.hostifCnt_at rfl) .refl)
  split
  · exact hw.of_writes (R := [Reg.hostifStatus]) (.setReg (Reg.hostifStatus_at rfl) .refl) rfl rfl
  · exact hw

/-! ### Reads that time out (spec/15 R461, R482) -/

theorem Tab.ins_ne_nil {α : Type} (k : Nat) (v : α) (t : Tab α) : Tab.ins k v t ≠ [] := by
  intro h
  have := Tab.find_ins_same k v t
  rw [h] at this
  exact absurd this (by simp [Tab.find])

/-- A completion timeout has been counted and its event raised. -/
def State.readTimedOut (s : State) : State := (s.bump (F.hostifCnt_COUNT 2)).pcieEvent 2 0

theorem State.readTimedOut_asked (s : State) : s.readTimedOut.host.asked = s.host.asked := (s.bump (F.hostifCnt_COUNT 2)).pcieEvent_asked 2 0

theorem State.readTimedOut_fld (s : State) {f : Fld} (h : ¬AtReg reportRegs f.addr) : s.readTimedOut.fld f = s.fld f :=
  ((s.bump (F.hostifCnt_COUNT 2)).pcieEvent_fld 2 0 h).trans
    (Writes.fld (.bump (show AtReg reportRegs (Reg.hostifCnt 2) from Reg.hostifCnt_at rfl) .refl) h)

/-- The read is given up. -/
def State.readDropped (s : State) (i : Nat) : State :=
  ((s.readTimedOut.modHost fun h => { h with reads := Tab.del i h.reads }).showRecovering).pcieEvent 4 0

theorem State.readDropped_asked (s : State) (i : Nat) : (s.readDropped i).host.asked = { s.host.asked with reads := Tab.del i s.host.reads } := by
  unfold State.readDropped
  rw [State.pcieEvent_asked]
  exact congrArg (fun h => { h with reads := Tab.del i h.reads }) s.readTimedOut_asked

theorem exec_pcieCto_reissued {s : State} {i : Nat} {w : ReadFor} (hup : s.up = true) (hnew : Tab.find i s.host.reads = none)
    (hretries : s.fld F.hostifDma_RETRIES ≠ 0) :
    exec (.pcieCto i w) s = .next (s.readTimedOut.modHost fun h => { h with reads := Tab.ins i ⟨1, w⟩ h.reads }).showRecovering := by
  have hreads : s.readTimedOut.host.reads = s.host.reads := congrArg (·.reads) s.readTimedOut_asked
  have hfld : s.readTimedOut.fld F.hostifDma_RETRIES = s.fld F.hostifDma_RETRIES := s.readTimedOut_fld (isApart_at rfl)
  show execPcieCto i w s = _
  simp only [execPcieCto, hup, Bool.not_true, Bool.false_eq_true, if_false]
  show Host.Outcome.next (ite (((Tab.find i s.readTimedOut.host.reads).getD ⟨0, w⟩).tries < s.readTimedOut.fld F.hostifDma_RETRIES) _ _) = _
  rw [if_pos (by rw [hreads, hnew, hfld]; exact Nat.pos_of_ne_zero hretries)]
  show Host.Outcome.next ((s.readTimedOut.modHost fun h => { h with
    reads := Tab.ins i { (Tab.find i s.readTimedOut.host.reads).getD ⟨0, w⟩ with tries := ((Tab.find i s.readTimedOut.host.reads).getD ⟨0, w⟩).tries + 1 } h.reads }).showRecovering) = _
  rw [hreads, hnew]
  rfl

theorem exec_pcieCto_givenUp {s : State} {i : Nat} {r : CtoRead} (w : ReadFor) (hup : s.up = true) (hread : Tab.find i s.host.reads = some r)
    (hretries : s.fld F.hostifDma_RETRIES ≤ r.tries) : exec (.pcieCto i w) s = .next ((s.readDropped i).readGaveUp r.what) := by
  have hreads : s.readTimedOut.host.reads = s.host.reads := congrArg (·.reads) s.readTimedOut_asked
  have hfld : s.readTimedOut.fld F.hostifDma_RETRIES = s.fld F.hostifDma_RETRIES := s.readTimedOut_fld (isApart_at rfl)
  show execPcieCto i w s = _
  simp only [execPcieCto, hup, Bool.not_true, Bool.false_eq_true, if_false]
  show Host.Outcome.next (ite (((Tab.find i s.readTimedOut.host.reads).getD ⟨0, w⟩).tries < s.readTimedOut.fld F.hostifDma_RETRIES) _
    ((s.readDropped i).readGaveUp ((Tab.find i s.readTimedOut.host.reads).getD ⟨0, w⟩).what)) = _
  rw [if_neg (by rw [hreads, hread, hfld]; exact Nat.not_lt.2 hretries), hreads, hread]
  rfl

theorem State.readGaveUp_cmd {s : State} {tag : BitVec 32} {p : Parked} (hparked : s.parkedTag tag = some p) :
    s.readGaveUp (.cmd tag) = s.endParked p st.hwFault 0 0 4 := by
  simp only [State.readGaveUp, hparked]

theorem State.readGaveUp_ring {s : State} {r : Fin 69} (hfills : hostFills r = true) (hon : s.ringOn r = true) :
    s.readGaveUp (.ring r) = s.ringFail r 2 (s.hostIdx r) := by
  simp only [State.readGaveUp, hfills, hon, Bool.and_self, if_true]

theorem State.endParked_completed {s : State} {p : Parked} {P : State → Prop} (status : Nat) (data : BitVec 256) (flags lower : Nat)
    (hlost : p.lost = false) (hP : P (s.unpark p.id)) : Completed p.cmd p.op status P (s.endParked p status data flags lower) :=
  ⟨s.unpark p.id, data, _, 0, lower, by rw [State.endParked, hlost, if_neg Bool.false_ne_true], hP⟩

theorem State.readDropped_ringOn (s : State) (i : Nat) (k : Fin 69) : (s.readDropped i).ringOn k = s.ringOn k := by
  have hstop : (s.readDropped i).host.stopped = s.host.stopped := congrArg (·.stopped) (s.readDropped_asked i)
  have hen : (s.readDropped i).fld (F.ringCfg_EN k) = s.fld (F.ringCfg_EN k) := by
    have hrows : ¬AtReg (Reg.hostifStatus :: reportRegs) (F.ringCfg_EN k).addr := rowsApart_at rfl k.isLt rfl
    have hrep : ¬AtReg reportRegs (F.ringCfg_EN k).addr := rowsApart_at rfl k.isLt rfl
    unfold State.readDropped
    rw [State.pcieEvent_fld _ _ _ hrep]
    exact (Writes.fld (R := Reg.hostifStatus :: reportRegs) (.setF (Reg.hostifStatus_at rfl) .refl) hrows).trans (s.readTimedOut_fld hrep)
  simp only [State.ringOn, State.flag, hen, hstop]

theorem State.readRecovered_reads (s : State) (w : ReadFor) : (s.readRecovered w).host.reads = s.host.reads := by
  unfold State.readRecovered
  split
  · rfl
  · split <;> rfl

/-! ### The completion timeout (spec/15 R481) -/

theorem ctoUs_le (e : Nat) : ctoUs e ≤ 3500000 := by
  unfold ctoUs
  repeat' split
  all_goals omega

theorem State.useCto_nested {s : State} {e : Nat}
    (h : pcieNested (ctoUs e) (s.fld F.hostifDma_RETRIES) (s.fld F.hostifCmd_TIMEOUT_MS) = true) :
    s.useCto e = s.setF F.hostifStatus_CTO_MS (ctoUs e / 1000) := by
  simp only [State.useCto, h, if_true]

/-- Settles O21: the state of the link, of its recovery and of the reads that await a completion is what each row sets; events, counts and
completions after it leave what the host has asked for, and the fields that show the link, alone. -/
theorem pcieLink : Obligations.PcieLink := by
  refine ⟨?linkUp, ?recovery, ?recovered, ?reissued, ?gaveUpCmd, ?gaveUpRing, ?completed, ?reset, ?cto⟩
  case linkUp =>
    intro s w g hup hw hg1 hg5
    have hw' : w < 16 := by
      simp only [List.mem_cons, List.not_mem_nil, or_false] at hw
      omega
    refine ⟨((s.setF F.hostifStatus_LINK_UP 1).setF F.hostifStatus_WIDTH w).setF F.hostifStatus_SPEED g, ?_, ?_, ?_, ?_⟩
    · show execPcieLinkUp w g s = _
      simp [execPcieLinkUp, hup, hg1, hg5] at hw ⊢
      intro h
      omega
    · rw [State.fld_setF_sep _ _ rfl, State.fld_setF_sep _ _ rfl, State.fld_setF_of_lt _ (by decide) (by decide)]
    · rw [State.fld_setF_sep _ _ rfl, State.fld_setF_of_lt _ (by decide) hw']
    · exact State.fld_setF_of_lt _ (by decide) (show g < 2 ^ 4 by omega)
  case recovery =>
    intro s hup hlink hnone
    show ∃ t, execPcieLinkRecovery true s = .next t ∧ _
    simp only [execPcieLinkRecovery, hup, hlink, hnone, Bool.and_self, if_true]
    refine ⟨_, rfl, ?_, ?_, ⟨_, rfl⟩⟩
    · exact congrArg (·.recovery) (State.pcieEvent_asked ..)
    · rw [State.flag, State.pcieEvent_fld _ _ _ (isApart_at rfl), State.fld_bump_reg _ _ (by decide)]
      exact (State.showRecovering_flag _).trans rfl
  case recovered =>
    intro s t0 hrec hreads
    show ∃ t, execPcieLinkRecovery false s = .next t ∧ _
    simp only [execPcieLinkRecovery, hrec]
    refine ⟨_, rfl, ?_, ?_, ⟨_, rfl⟩⟩
    · exact congrArg (·.recovery) (State.pcieEvent_asked ..)
    · rw [State.flag, State.pcieEvent_fld _ _ _ (isApart_at rfl)]
      refine (State.showRecovering_flag _).trans ?_
      simp only [State.modHost, hreads]
      rfl
  case reissued =>
    intro s i w hup hnew hretries
    have hreads : s.readTimedOut.host.reads = s.host.reads := congrArg (·.reads) s.readTimedOut_asked
    refine ⟨_, exec_pcieCto_reissued hup hnew hretries, Tab.find_ins_same .., ?_⟩
    rw [State.showRecovering_flag]
    simp [State.modHost, Tab.ins_ne_nil]
  case gaveUpCmd =>
    intro s i r p hup hread hretries tag w hwhat hparked hlost
    have hasked := s.readDropped_asked i
    have hparked' : (s.readDropped i).parkedTag tag = some p := by
      have hsame : (s.readDropped i).host.parked = s.host.parked := congrArg (·.parked) hasked
      rwa [State.parkedTag, hsame]
    refine ⟨_, exec_pcieCto_givenUp w hup hread hretries, ?_⟩
    rw [hwhat, State.readGaveUp_cmd hparked']
    exact State.endParked_completed st.hwFault 0 0 4 hlost ⟨State.parkedAt_unpark _ _, congrArg (·.reads) hasked⟩
  case gaveUpRing =>
    intro s i r k w hup hread hretries hwhat hfills hon
    refine ⟨_, exec_pcieCto_givenUp w hup hread hretries, ?_⟩
    rw [hwhat, State.readGaveUp_ring hfills ((s.readDropped_ringOn i k).trans hon)]
    exact State.ringFail_shows _ k.isLt (by decide) _
  case completed =>
    intro s i r hread
    show ∃ t, execHostReadCompletion i s = .next t ∧ _
    simp only [execHostReadCompletion, hread]
    exact ⟨_, rfl, (State.readRecovered_reads ..).trans (congrArg (·.reads) (State.pcieEvent_asked ..))⟩
  case reset =>
    intro s c hc hup hcanon
    obtain ⟨link, hexec⟩ : ∃ link, exec c s = .next (s.hostReset link) := by
      simp only [List.mem_cons, List.not_mem_nil, or_false] at hc
      rcases hc with rfl | rfl | rfl
      · exact ⟨false, congrArg Host.Outcome.next (if_pos hup)⟩
      · exact ⟨true, congrArg Host.Outcome.next (if_pos hup)⟩
      · exact ⟨false, congrArg Host.Outcome.next (if_pos hup)⟩
    have h := State.hostReset_emptied hcanon link
    exact ⟨_, hexec, h.fetch, h.recovery, h.reads, h.waitCpl, h.ringsReset, h.parked, h.pm, h.longOps, h.rings⟩
  case cto =>
    intro s e hup hnested
    refine ⟨_, congrArg Host.Outcome.next (if_pos hup), (congrArg HostSt.cto (State.useCto_host ..)).trans rfl, ?_⟩
    refine (congrArg (State.fld · _) (State.useCto_nested (s := s.modHost _) hnested)).trans ?_
    exact State.fld_setF_of_lt _ (by decide) (show ctoUs e.toNat / 1000 < 2 ^ 16 by have := ctoUs_le e.toNat; omega)

end Sys2Proof.Machine
end

section
/-!
Doorbells, rings and emergency controls (spec/15 R463 to R466, R471, R478, R487, R489).
-/
namespace Sys2Proof.Machine
open Sys2Proof

/-! ### What a post leaves alone -/

/-- The state of the host interface without what is posted, kept back or signalled. -/
def HostSt.unposted (h : HostSt) : HostSt := { h with posts := [], held := [], heldEntries := [], lastSignal := [], sigDue := [] }

@[simp] theorem State.post_unposted (s : State) (p : Post) : (s.post p).host.unposted = s.host.unposted := by
  unfold State.post
  split <;> rfl

@[simp] theorem State.signal_unposted (s : State) (r : Nat) : (s.signal r).host.unposted = s.host.unposted := by
  unfold State.signal
  extract_lets v masked host u
  split
  · rfl
  · split
    · rfl
    · exact u.post_unposted _

@[simp] theorem State.signalSoon_unposted (s : State) (r : Nat) : (s.signalSoon r).host.unposted = s.host.unposted := by
  unfold State.signalSoon
  split
  · exact s.signal_unposted r
  · rfl

@[simp] theorem State.advance_unposted (s : State) (r n : Nat) : (s.advance r n).host.unposted = s.host.unposted := by
  unfold State.advance
  extract_lets u
  split
  · exact u.post_unposted _
  · rfl

@[simp] theorem State.writeEntry_unposted (s : State) (r data : Nat) (irq : Bool) : (s.writeEntry r data irq).host.unposted = s.host.unposted := by
  unfold State.writeEntry
  split
  · rfl
  · extract_lets u
    have hu : u.host.unposted = s.host.unposted := by simp only [u, State.advance_unposted, State.post_unposted]
    split
    · rw [State.signalSoon_unposted, hu]
    · exact hu

/-- A command that answers `t`, of which `P` holds, runs. -/
theorem Runs.of_next {c : Instr} {s t : State} {P : State → Prop} (h : exec c s = .next t) (hP : P t) : Runs c s P := ⟨t, h, hP⟩

/-! ### Walks in which one element acts -/

theorem State.each_fixed {α : Type} {f : State → α → State} {s : State} {l : List α} (h : ∀ a ∈ l, f s a = s) : s.each l f = s := by
  induction l with
  | nil => rfl
  | cons a l ih =>
    show (f s a).each l f = s
    rw [h a List.mem_cons_self]
    exact ih fun b hb => h b (List.mem_cons_of_mem a hb)

/-- In a walk over distinct elements of which one alone acts, before and after it has acted, the walk is that one's step. -/
theorem State.each_only {α : Type} {f : State → α → State} {s : State} {l : List α} {r : α} (hmem : r ∈ l) (hdistinct : l.Nodup)
    (hbefore : ∀ a ∈ l, a ≠ r → f s a = s) (hafter : ∀ a ∈ l, a ≠ r → f (f s r) a = f s r) : s.each l f = f s r := by
  obtain ⟨l1, l2, rfl⟩ := List.append_of_mem hmem
  have hl1 : ∀ a ∈ l1, a ≠ r := fun a ha e => (List.disjoint_of_nodup_append hdistinct) ha (e ▸ List.mem_cons_self)
  have hl2 : ∀ a ∈ l2, a ≠ r := fun a ha e => (List.nodup_cons.1 hdistinct.of_append_right).1 (e ▸ ha)
  calc s.each (l1 ++ r :: l2) f = (f (s.each l1 f) r).each l2 f := List.foldl_append
    _ = (f s r).each l2 f := by rw [State.each_fixed fun a ha => hbefore a (List.mem_append_left _ ha) (hl1 a ha)]
    _ = f s r := State.each_fixed fun a ha => hafter a (List.mem_append_right _ (List.mem_cons_of_mem _ ha)) (hl2 a ha)

/-! ### Doorbell fetches (spec/15 R463 to R465) -/

theorem State.ringIndex_off {s : State} {r : Nat} (h : s.ringOn r = false) (idx : Word) : s.ringIndex r idx = s := by
  simp only [State.ringIndex, h, Bool.not_false, if_true]

theorem State.ringIndex_inRange {s : State} {r : Nat} {idx : Word} (hon : s.ringOn r = true)
    (hrange : (if hostFills r then (idx - BitVec.ofNat 32 (s.devIdx r)).toNat else (BitVec.ofNat 32 (s.devIdx r) - idx).toNat) ≤ s.ringSize r) :
    s.ringIndex r idx = (s.setReg (Reg.ringHostIdx r) idx).showFull r := by
  simp only [State.ringIndex, hon, Bool.not_true, Bool.false_eq_true, if_false, hrange, if_true]

theorem State.nextFetch_idle {s : State} (hqueued : s.host.kickQueued = false) (howed : s.host.beatFetchOwed = none) : s.nextFetch = s := by
  unfold State.nextFetch
  split
  · rfl
  · simp only [howed, hqueued, Bool.false_eq_true, if_false]

@[simp] theorem State.showFetchNow_host (s : State) : s.showFetchNow.host = s.host := State.showFetchNow_kept.same .host rfl

theorem State.userCopy_host (s : State) (u : BitVec 24576) : (s.userCopy u).host = { s.host with userSeq := s.host.userSeq + 2, userArea := u } := by
  unfold State.userCopy
  extract_lets v
  split
  case isTrue h => rw [h]; rfl
  case isFalse =>
    exact Kept.same (L := [.cores]) (State.each_kept (fun _ _ h => h.trans State.raiseInt_kept) .refl) .host rfl

/-- The outstanding fetch ends. -/
def State.fetchEnds (s : State) : State := s.modHost fun h => { h with fetch := none }

/-- The outstanding fetch ends: its data moves the host indices. -/
def State.fetchedIdx (s : State) (d : DoorbellData) : State :=
  s.fetchEnds.each (List.range 69) fun s r => s.ringIndex r (d.idx.getD r 0#32)

/-- The fetch's data is taken, its user area copied. -/
def State.fetchTaken (s : State) (d : DoorbellData) (kick : Bool) : State := if kick then s.fetchedIdx d else (s.fetchedIdx d).userCopy d.user

theorem exec_doorbellData {s : State} {d : DoorbellData} {f : Fetch} (hfetch : s.host.fetch = some f) (hseq : d.fetch = f.seq)
    (hdue : s.time.tick ≤ f.due) : exec (.doorbellData d) s = .next (s.fetchTaken d f.kick).nextFetch.showFetchNow := by
  show execDoorbellData d s = _
  simp only [execDoorbellData, hfetch, hseq, ne_eq, not_true_eq_false, if_false, Nat.not_lt.2 hdue]
  rfl

theorem State.fetchTaken_reg (s : State) (d : DoorbellData) (kick : Bool) (a : Nat) : (s.fetchTaken d kick).reg a = (s.fetchedIdx d).reg a := by
  unfold State.fetchTaken
  split
  · rfl
  · have e : ((s.fetchedIdx d).userCopy d.user).regs = (s.fetchedIdx d).regs := State.userCopy_kept.same .regs rfl
    simp only [State.reg, e]

/-- A kick fetch is issued. -/
theorem State.kicked_idle {s : State} (hon : s.dbOn = true) (hnone : s.host.fetch = none) (hdma : s.flag F.hostifEmerg_DMA_OFF = false)
    (hbeat : s.host.kicksThisBeat < 32) : s.kicked.host =
      { s.host with fetch := some ⟨true, s.time.tick + 8000, s.host.fetchSeq⟩, fetchSeq := s.host.fetchSeq + 1, kicksThisBeat := s.host.kicksThisBeat + 1 } := by
  simp only [State.kicked, hon, hnone, hdma, Bool.not_true, Bool.false_eq_true, Option.isSome_none, Bool.or_self, if_false, State.issueKick, hbeat, if_true]
  rfl

/-- A kick waits behind the outstanding fetch. -/
theorem State.kicked_queued {s : State} {f : Fetch} (hon : s.dbOn = true) (hfetch : s.host.fetch = some f) :
    s.kicked.host = { s.host with kickQueued := true } := by
  have h : s.kicked = s.modHost fun h => { h with kickQueued := true } := by
    simp only [State.kicked, hon, hfetch, Bool.not_true, Bool.false_eq_true, Option.isSome_some, Bool.true_or, if_false, if_true]
  exact congrArg State.host h

/-- KICK and FETCH_NOW kick; what FETCH_NOW shows besides is not what a kick depends on. -/
theorem exec_kicks {s : State} {c : Instr} (hc : c ∈ [Instr.kick, .fetchNow]) (hon : s.dbOn = true) : ∃ t u : State, exec c s = .next t ∧ t.host = u.kicked.host ∧
    u.dbOn = true ∧ u.host = s.host ∧ u.time = s.time ∧ u.flag F.hostifEmerg_DMA_OFF = s.flag F.hostifEmerg_DMA_OFF := by
  simp only [List.mem_cons, List.not_mem_nil, or_false] at hc
  rcases hc with rfl | rfl
  · exact ⟨_, s, rfl, rfl, hon, rfl, rfl, rfl⟩
  · refine ⟨_, s.setF F.hostifEmerg_FETCH_NOW 1, congrArg Host.Outcome.next (if_pos hon), State.showFetchNow_host _, ?_, rfl, rfl, ?_⟩
    · have hen : (s.setF F.hostifEmerg_FETCH_NOW 1).flag F.hostifCfg_DB_EN = s.flag F.hostifCfg_DB_EN := by
        simp only [State.flag, State.fld_setF_sep _ _ (show F.hostifEmerg_FETCH_NOW.sep F.hostifCfg_DB_EN = true by rfl)]
      rw [← hon]
      simp only [State.dbOn, hen]
      rfl
    · simp only [State.flag, State.fld_setF_sep _ _ (show F.hostifEmerg_FETCH_NOW.sep F.hostifEmerg_DMA_OFF = true by rfl)]

/-! ### What leaves once DMA_OFF is clear (spec/15 R487) -/

/-- DMA_OFF is clear, nothing is kept back, and what had been posted before (`l`) stays posted, in order. -/
structure Flowing (l : List Post) (s : State) : Prop where
  dma : s.flag F.hostifEmerg_DMA_OFF = false
  held : s.host.held = []
  entries : s.host.heldEntries = []
  posts : l <:+ s.host.posts

namespace Flowing

variable {l : List Post} {s t : State} (h : Flowing l s)
include h

/-- An operation that leaves HOSTIF_EMERG, what is kept back and what is posted. -/
theorem of_writes {R : List Nat} (hw : Writes R s t) (hrows : isApart R Reg.hostifEmerg = true) (hheld : t.host.held = s.host.held)
    (hentries : t.host.heldEntries = s.host.heldEntries) (hposts : t.host.posts = s.host.posts) : Flowing l t :=
  ⟨(hw.flag (f := F.hostifEmerg_DMA_OFF) (isApart_at hrows)).trans h.dma, hheld.trans h.held, hentries.trans h.entries, hposts ▸ h.posts⟩

/-- An operation on the host interface that leaves what is kept back and what is posted. -/
theorem of_host (hregs : t.regs = s.regs) (hheld : t.host.held = s.host.held) (hentries : t.host.heldEntries = s.host.heldEntries)
    (hposts : t.host.posts = s.host.posts) : Flowing l t :=
  h.of_writes (R := []) ⟨fun a _ => by simp only [State.reg, hregs]⟩ rfl hheld hentries hposts

theorem post (p : Post) : Flowing l (s.post p) := by
  refine ⟨(s.post_flag p _).trans h.dma, ?_, ?_, ?_⟩ <;> simp only [State.post, h.dma, Bool.false_eq_true, if_false]
  · exact h.held
  · exact h.entries
  · exact h.posts.trans (List.suffix_cons ..)

theorem advance (r n : Nat) : Flowing l (s.advance r n) := by
  unfold State.advance
  extract_lets u
  have hu : Flowing l u := h.of_writes (R := [Reg.ringStatus 0, Reg.ringDevIdx 0])
    (State.showFull_writes.step rfl (.setReg (Reg.ringDevIdx_at rfl) .refl)) rfl rfl rfl rfl
  split
  · exact hu.post _
  · exact hu

theorem signal (r : Nat) : Flowing l (s.signal r) := by
  have hmasked {c : Bool} : (s.flag F.hostifEmerg_DMA_OFF && c) = false := by rw [h.dma, Bool.false_and]
  unfold State.signal
  extract_lets v masked host u
  rw [if_neg (by simp [hmasked])]
  have hu : Flowing l u := ⟨h.dma, h.held, h.entries, h.posts⟩
  split
  · exact hu.of_writes (R := [Reg.msixPba 0]) (.setReg (Reg.msixPba_at rfl) .refl) rfl rfl rfl rfl
  · exact hu.post _

theorem signalSoon (r : Nat) : Flowing l (s.signalSoon r) := by
  unfold State.signalSoon
  split
  · exact h.signal r
  · exact ⟨h.dma, h.held, h.entries, h.posts⟩

theorem writeEntry (r data : Nat) (irq : Bool) : Flowing l (s.writeEntry r data irq) := by
  unfold State.writeEntry
  rw [if_neg (by simp [h.dma])]
  extract_lets u
  have hu : Flowing l u := (h.post _).advance _ _
  split
  · exact hu.signalSoon _
  · exact hu

theorem txPop (r : Nat) : Flowing l (s.txPop r) := by
  unfold State.txPop
  extract_lets q
  split
  · exact h
  · refine (Flowing.advance ?_ r _).signalSoon r
    exact h.of_host rfl rfl rfl rfl

theorem each {α : Type} {f : State → α → State} (hf : ∀ u a, Flowing l u → Flowing l (f u a)) (xs : List α) : Flowing l (s.each xs f) := by
  unfold State.each
  induction xs generalizing s with
  | nil => exact h
  | cons a xs ih => exact ih (hf s a h)

theorem flushCpl (n : Nat) : Flowing l (s.flushCpl n) := by
  induction n generalizing s with
  | zero => exact h
  | succ n ih =>
    unfold State.flushCpl
    split
    · exact h
    · next c rest _ =>
      split
      · exact h
      · extract_lets host u
        have hu : Flowing l u := h.of_host rfl rfl rfl rfl
        have hw : Flowing l (u.writeEntry 65 c.record.toNat (!c.noIrq)) := hu.writeEntry _ _ _
        refine ih ?_
        unfold State.when
        split
        · exact hw.of_host rfl rfl rfl rfl
        · exact hw

theorem nextFetch : Flowing l s.nextFetch := by
  have hissue (u : State) (hu : Flowing l u) : Flowing l u.issueKick := by
    obtain ⟨hheld, hentries, hposts⟩ : u.issueKick.host.held = u.host.held ∧ u.issueKick.host.heldEntries = u.host.heldEntries ∧ u.issueKick.host.posts = u.host.posts := by
      unfold State.issueKick
      split <;> exact ⟨rfl, rfl, rfl⟩
    exact hu.of_writes State.issueKick_writes rfl hheld hentries hposts
  unfold State.nextFetch
  split
  · exact h
  · split
    · exact h.of_host rfl rfl rfl rfl
    · split
      · exact hissue _ (h.of_host rfl rfl rfl rfl)
      · exact h

end Flowing

theorem State.dmaOffWrite_flowing (s : State) : Flowing (s.host.held ++ s.host.posts) (s.dmaOffWrite false) := by
  unfold State.dmaOffWrite
  rw [if_neg Bool.false_ne_true]
  have hoff : (s.setF F.hostifEmerg_DMA_OFF (bit false)).flag F.hostifEmerg_DMA_OFF = false := by
    rw [State.flag, State.fld_setF_of_lt s (by decide) (by decide)]
    rfl
  extract_lets l v w x
  have hv : Flowing (s.host.held ++ s.host.posts) v := ⟨hoff, rfl, rfl, List.suffix_refl _⟩
  have hw : Flowing _ w := hv.each (fun _ _ h => h.writeEntry _ _ _) _
  have hx : Flowing _ x := hw.each (fun _ _ h => h.txPop _) _
  exact (hx.flushCpl _).nextFetch

/-! ### Rings (spec/15 R463, R489) -/

theorem State.flushCpl_fld {k : Nat} (hk : k < 69) {g : Fld} (haddr : g.addr = Reg.ringStatus k) (hsep : ∀ r, (F.ringStatus_FULL r).sep g = true)
    (n : Nat) (s : State) : (s.flushCpl n).fld g = s.fld g := by
  induction n generalizing s with
  | zero => rfl
  | succ n ih =>
    unfold State.flushCpl
    split
    · rfl
    · split
      · rfl
      · extract_lets host u
        rw [ih]
        unfold State.when
        split <;> exact State.writeEntry_fld hk haddr hsep ..

/-- Ring `r` shows no error and has host index 0. -/
def State.ringFresh (s : State) (r : Nat) : Prop := s.fld (F.ringStatus_ERR r) = 0 ∧ s.reg (Reg.ringHostIdx r) = 0

theorem State.ringFresh_congr {s t : State} {r : Nat} (h : s.ringFresh r) (hfld : t.fld (F.ringStatus_ERR r) = s.fld (F.ringStatus_ERR r))
    (hreg : t.reg (Reg.ringHostIdx r) = s.reg (Reg.ringHostIdx r)) : t.ringFresh r :=
  ⟨hfld.trans h.1, hreg.trans h.2⟩

theorem State.ringFresh_cleared (s : State) (r : Fin 69) :
    ((((s.setReg (Reg.ringDevIdx r) 0).setReg (Reg.ringHostIdx r) 0).setF (F.ringStatus_ERR r) 0).setF (F.ringStatus_ERR_CODE r) 0).ringFresh r := by
  have hne : Reg.ringHostIdx r ≠ Reg.ringStatus r := at1_ne_of_base r.isLt (by decide)
  refine ⟨?_, ?_⟩
  · rw [State.fld_setF_sep _ _ rfl, State.fld_setF_of_lt _ (by decide : 31 + 1 ≤ 32) (Nat.two_pow_pos _)]
  · rw [State.reg_setF_other _ (f := F.ringStatus_ERR_CODE r) _ hne, State.reg_setF_other _ (f := F.ringStatus_ERR r) _ hne, State.reg_setReg_same]

theorem State.ringFresh_dropHeld {s : State} {r : Fin 69} (h : s.ringFresh r) : ((s.dropHeld r).showFull r).ringFresh r := by
  have hw : Writes [Reg.ringStatus 0, Reg.ringLoss 0] s ((s.dropHeld r).showFull r) := State.showFull_writes.step rfl (State.dropHeld_writes.step rfl .refl)
  have hdrop : Writes [Reg.ringLoss 0] s (s.dropHeld r) := State.dropHeld_writes
  exact State.ringFresh_congr h ((State.showFull_fld (fun _ => rfl) _ _).trans (hdrop.fld (rowsApart_at rfl r.isLt rfl)))
    (hw.same _ (rowsApart_at rfl r.isLt rfl))

theorem State.ringFresh_reportLost {s : State} {r : Fin 69} (h : s.ringFresh r) : s.reportLost.ringFresh r :=
  State.ringFresh_congr h (State.reportLost_fld r.isLt rfl (fun _ => rfl) s) (State.reportLost_writes.same _ (rowsApart_at rfl r.isLt rfl))

theorem State.ringFresh_flushCpl {s : State} {r : Fin 69} (h : s.ringFresh r) (n : Nat) : (s.flushCpl n).ringFresh r :=
  State.ringFresh_congr h (State.flushCpl_fld r.isLt rfl (fun _ => rfl) n s) (State.flushCpl_writes.same _ (rowsApart_at rfl r.isLt rfl))

/-- A ring that is enabled has no error and its indices are 0. -/
theorem State.ringFresh_ringOpen (s : State) (r : Fin 69) : (s.ringOpen r).ringFresh r := by
  unfold State.ringOpen
  extract_lets b u v w x
  have hw : w.ringFresh r := State.ringFresh_dropHeld (u.ringFresh_cleared r)
  clear_value w
  have hx : x.ringFresh r := by
    unfold x
    split
    · exact State.ringFresh_congr hw (State.modHost_fld ..) (State.modHost_reg ..)
    · exact hw
  clear_value x
  split
  · exact State.ringFresh_reportLost hx
  · split
    · exact State.ringFresh_flushCpl hx _
    · exact hx

theorem ringCfg_EN_rw (r : Fin 69) : (F.ringCfg_EN r).mask &&& rwMask (F.ringCfg_EN r).addr = (F.ringCfg_EN r).mask := by
  revert r
  decide +kernel

theorem State.ringCfgWrite_enable {s : State} {r : Fin 69} {v : Word} (hoff : s.flag (F.ringCfg_EN r) = false) (hv : (F.ringCfg_EN r).of v = 1) :
    (s.putRw (Reg.ringCfg r) v).flag (F.ringCfg_EN r) = true ∧ s.ringCfgWrite r v = (s.putRw (Reg.ringCfg r) v).ringOpen r := by
  have hen : (s.putRw (Reg.ringCfg r) v).flag (F.ringCfg_EN r) = true := by
    have := s.fld_putRw (F.ringCfg_EN r) v (ringCfg_EN_rw r) (by decide : 31 + 1 ≤ 32)
    rw [hv] at this
    exact bne_iff_ne.2 (this ▸ Nat.one_ne_zero)
  refine ⟨hen, ?_⟩
  simp only [State.ringCfgWrite, hoff, Bool.false_eq_true, if_false, hen, if_true]

theorem State.ringCfgWrite_disable {s : State} {r : Fin 69} {v : Word} (hon : s.flag (F.ringCfg_EN r) = true) (hv : (F.ringCfg_EN r).of v = 0) :
    (s.ringCfgWrite r v).flag (F.ringCfg_EN r) = false ∧ Tab.get (s.ringCfgWrite r v).host.txq [] r = [] := by
  have hdropped : ((s.setF (F.ringCfg_EN r) 0).dropHeld r).fld (F.ringCfg_EN r) = 0 := by
    rw [State.dropHeld_writes.fld (rowsApart_at rfl r.isLt rfl), State.fld_setF_of_lt _ (by decide : 31 + 1 ≤ 32) (Nat.two_pow_pos _)]
  have hwrite : s.ringCfgWrite r v = ((s.setF (F.ringCfg_EN r) 0).dropHeld r).modHost fun h => { h with txq := Tab.put h.txq [] r [] } := by
    simp only [State.ringCfgWrite, hon, if_true, hv, Nat.zero_ne_one, if_false]
  have hfld : (s.ringCfgWrite r v).fld (F.ringCfg_EN r) = 0 := (congrArg (State.fld · _) hwrite).trans ((State.modHost_fld ..).trans hdropped)
  refine ⟨?_, ?_⟩
  · rw [State.flag, hfld, bne_self_eq_false]
  · rw [hwrite]
    exact Tab.get_put_same ((s.setF (F.ringCfg_EN r) 0).dropHeld r).host.txq [] [] r

/-! ### What waits for a ring (spec/15 R466, R471, R478) -/

theorem State.flushCpl_one {s : State} {w : Cpl} {rest : List Cpl} (hwait : s.host.waitCpl = w :: rest) (hfree : s.ringFree 65 ≠ 0)
    (hdma : s.flag F.hostifEmerg_DMA_OFF = false) : (s.flushCpl 1).host.waitCpl = rest := by
  have hwritten (u : State) : (u.writeEntry 65 w.record.toNat (!w.noIrq)).host.waitCpl = u.host.waitCpl :=
    congrArg (·.waitCpl) (u.writeEntry_unposted ..)
  simp only [State.flushCpl, hwait, hfree, hdma, Bool.false_eq_true, or_self, if_false, State.when]
  split <;> exact hwritten _

theorem State.reportLost_done {s : State} {l : LossRec} (hlost : s.host.lost = some l) (hfree : s.ringFree 66 ≠ 0) : s.reportLost.host.lost = none := by
  have hwritten (u : State) (d : Nat) : (u.writeEntry 66 d).host.lost = u.host.lost := congrArg (·.lost) (u.writeEntry_unposted ..)
  simp only [State.reportLost, hlost, hfree, if_false, State.fifoCopy_host]
  exact hwritten _ _

theorem State.post_sigDue (s : State) (p : Post) : (s.post p).host.sigDue = s.host.sigDue := by
  unfold State.post
  split <;> rfl

/-- A ring whose signal may leave, or is masked, is due no longer. -/
theorem State.signal_notDue {s : State} {r : Nat} (h : (s.flag F.hostifEmerg_DMA_OFF && !s.flag (F.msixCtrl_MASK (s.fld (F.ringCfg_VECTOR r)))) = false) :
    Tab.get (s.signal r).host.sigDue false r = false := by
  unfold State.signal
  extract_lets v masked host u
  rw [if_neg (by simp only [masked, v, h, Bool.false_eq_true, not_false_eq_true])]
  have hu : Tab.get u.host.sigDue false r = false := by simp only [u, Tab.get_put_same]
  split
  · exact hu
  · rw [State.post_sigDue]
    exact hu

theorem exec_msixSignal {s : State} {r : Fin 69} (hdue : Tab.get s.host.sigDue false r = true) (htick : s.signalFrom r ≤ (s.reachTick (s.signalFrom r)).time.tick) :
    exec (.msixSignal r) s = .next ((s.reachTick (s.signalFrom r)).signal r) := by
  show execMsixSignal r s = _
  simp only [execMsixSignal, hdue, if_true, htick]

theorem exec_doorbellDeadline {s : State} {f : Fetch} (hfetch : s.host.fetch = some f) (htick : f.due ≤ (s.reachTick f.due).time.tick) :
    exec .doorbellDeadline s = .next (s.reachTick f.due).fetchLate := by
  show execDoorbellDeadline s = _
  simp only [execDoorbellDeadline, hfetch, htick, if_true]

theorem State.fetchLate_counts {s : State} (hjoined : s.joinedBeat = true) (hqueued : s.host.kickQueued = false) (howed : s.host.beatFetchOwed = none) :
    s.fetchLate.host.fetch = none ∧ s.fetchLate.fld (F.globalLateCnt_COUNT 3) = min (2 ^ 32 - 1) (s.fld (F.globalLateCnt_COUNT 3) + 1) := by
  unfold State.fetchLate State.when
  extract_lets u
  rw [if_pos (show u.joinedBeat = true from hjoined)]
  have hasked : (u.late 3).host.asked = u.host.asked := u.late_asked 3 1
  have hidle : (u.late 3).nextFetch = u.late 3 :=
    State.nextFetch_idle ((congrArg (·.kickQueued) hasked).trans hqueued) ((congrArg (·.beatFetchOwed) hasked).trans howed)
  rw [hidle]
  refine ⟨?_, ?_⟩
  · rw [State.showFetchNow_host]
    exact congrArg (·.fetch) hasked
  · rw [State.showFetchNow_writes.fld (globalLateCnt_apart rfl 3)]
    exact u.late_count 3 1

/-! ### Doorbells and rings -/

theorem State.fetchEnds_ringOn (s : State) (k : Nat) : s.fetchEnds.ringOn k = s.ringOn k := rfl

theorem State.fetchedIdx_idle {s : State} (d : DoorbellData) (hoff : ∀ r < 69, s.ringOn r = false) : s.fetchedIdx d = s.fetchEnds :=
  State.each_fixed fun r hr => State.ringIndex_off ((s.fetchEnds_ringOn r).trans (hoff r (List.mem_range.1 hr))) _

/-- Ring `r`'s host index moves to `v`. -/
def State.indexed (s : State) (r : Nat) (v : Word) : State := (s.setReg (Reg.ringHostIdx r) v).showFull r

theorem State.indexed_ringOn (s : State) (r : Nat) (v : Word) {k : Nat} (hk : k < 69) : (s.indexed r v).ringOn k = s.ringOn k := by
  have hw : Writes [Reg.ringHostIdx 0, Reg.ringStatus 0] s (s.indexed r v) := State.showFull_writes.step rfl (.setReg (Reg.ringHostIdx_at rfl) .refl)
  have hhost : (s.indexed r v).host = s.host := rfl
  simp only [State.ringOn, hw.flag (f := F.ringCfg_EN k) (rowsApart_at rfl hk rfl), hhost]

/-- With one ring on, the fetch's data moves that ring's host index. -/
theorem State.fetchedIdx_one {s : State} {d : DoorbellData} {r : Fin 69} (hon : s.ringOn r = true) (hoff : ∀ k < 69, k ≠ r.val → s.ringOn k = false)
    (hrange : (if hostFills r then (d.idx.getD r 0 - BitVec.ofNat 32 (s.devIdx r)).toNat else (BitVec.ofNat 32 (s.devIdx r) - d.idx.getD r 0).toNat) ≤ s.ringSize r) :
    (s.fetchedIdx d).reg (Reg.ringHostIdx r) = d.idx.getD r 0 := by
  have hoffs (k : Nat) (hk : k ∈ List.range 69) (hne : k ≠ r.val) : s.fetchEnds.ringOn k = false := hoff k (List.mem_range.1 hk) hne
  have hstep : s.fetchEnds.ringIndex r (d.idx.getD r 0#32) = s.fetchEnds.indexed r (d.idx.getD r 0#32) :=
    State.ringIndex_inRange (s := s.fetchEnds) hon hrange
  have hwalk : s.fetchedIdx d = s.fetchEnds.ringIndex r (d.idx.getD r 0#32) := by
    refine State.each_only (f := fun s r => s.ringIndex r (d.idx.getD r 0#32)) (List.mem_range.2 r.isLt) List.nodup_range
      (fun k hk hne => State.ringIndex_off (hoffs k hk hne) _) (fun k hk hne => State.ringIndex_off ?_ _)
    rw [hstep, State.indexed_ringOn _ _ _ (List.mem_range.1 hk)]
    exact hoffs k hk hne
  rw [hwalk, hstep]
  exact (State.showFull_writes.same _ (rowsApart_at rfl r.isLt rfl)).trans (State.reg_setReg_same ..)

/-- Settles O22: each row is the operation of its kind (a fetch taken or late, a kick, an emergency control, a ring opened or closed, a completion,
loss or signal delivered), of which the lemmas above say what shows. -/
theorem doorbellsAndRings : Obligations.DoorbellsAndRings := by
  refine ⟨?idle, ?index, ?stale, ?late, ?kick, ?queued, ?dmaOff, ?txStop, ?enable, ?disable, ?completion, ?lost, ?signal⟩
  case idle =>
    intro s d f hfetch hseq hdue hoff hqueued howed
    have hidx := State.fetchedIdx_idle d hoff
    obtain ⟨hnone, hqueued', howed', huser⟩ : (s.fetchTaken d f.kick).host.fetch = none ∧ (s.fetchTaken d f.kick).host.kickQueued = false ∧
        (s.fetchTaken d f.kick).host.beatFetchOwed = none ∧ (f.kick = false → (s.fetchTaken d f.kick).host.userArea = d.user) := by
      unfold State.fetchTaken
      rw [hidx]
      cases f.kick
      · rw [if_neg Bool.false_ne_true, State.userCopy_host]
        exact ⟨rfl, hqueued, howed, fun _ => rfl⟩
      · exact ⟨rfl, hqueued, howed, nofun⟩
    refine Runs.of_next (exec_doorbellData hfetch hseq hdue) ?_
    rw [State.nextFetch_idle hqueued' howed', State.showFetchNow_host]
    exact ⟨hnone, huser⟩
  case index =>
    intro s d f r hfetch hseq hdue hon hoff hrange
    refine Runs.of_next (exec_doorbellData hfetch hseq hdue) ?_
    rw [State.showFetchNow_writes.same (Reg.ringHostIdx r) (rowsApart_at rfl r.isLt rfl), State.nextFetch_writes.same (Reg.ringHostIdx r) (rowsApart_at rfl r.isLt rfl),
      State.fetchTaken_reg, State.fetchedIdx_one hon hoff hrange]
  case stale =>
    intro s d f hfetch hseq
    refine ⟨s, ?_, rfl⟩
    show execDoorbellData d s = _
    simp only [execDoorbellData, hfetch, ne_eq, hseq, not_false_eq_true, if_true]
  case late =>
    intro s f hjoined hfetch hqueued howed htick
    have hkept : Kept [.regs, .cnt, .time] s (s.reachTick f.due) := State.reachTick_kept
    have hhost : (s.reachTick f.due).host = s.host := hkept.same .host rfl
    have hpower : (s.reachTick f.due).power = s.power := hkept.same .power rfl
    obtain ⟨hnone, hcount⟩ := State.fetchLate_counts (s := s.reachTick f.due)
      (by rwa [State.joinedBeat, hpower]) (by rwa [hhost]) (by rwa [hhost])
    refine ⟨_, exec_doorbellDeadline hfetch htick, hnone, ?_⟩
    rw [hcount, State.reachTick_writes.fld (globalLateCnt_apart rfl 3)]
  case kick =>
    intro s c hc hon hnone hdma hbeat
    obtain ⟨t, u, hexec, ht, hon', hhost, htime, hdma'⟩ := exec_kicks hc hon
    have hkick := State.kicked_idle hon' (hhost ▸ hnone) (hdma'.trans hdma) (hhost ▸ hbeat)
    refine Runs.of_next hexec ?_
    rw [ht, hkick, hhost, htime]
    exact ⟨rfl, rfl⟩
  case queued =>
    intro s c f hc hon hfetch
    obtain ⟨t, u, hexec, ht, hon', hhost, -, -⟩ := exec_kicks hc hon
    refine Runs.of_next hexec ?_
    rw [ht, State.kicked_queued (f := f) hon' (hhost ▸ hfetch), hhost]
    exact ⟨hfetch, rfl⟩
  case dmaOff =>
    intro s on hup
    refine Runs.of_next (congrArg Host.Outcome.next (if_pos hup)) ?_
    cases on
    · obtain ⟨hdma, hheld, hentries, l, hposts⟩ := s.dmaOffWrite_flowing
      exact ⟨hdma, fun _ => ⟨⟨l, hposts.symm⟩, hheld, hentries⟩⟩
    · refine ⟨?_, nofun⟩
      show (s.setF F.hostifEmerg_DMA_OFF 1).flag _ = true
      rw [State.flag, State.fld_setF_of_lt s (by decide) (by decide)]
      rfl
  case txStop =>
    intro s on hup
    refine Runs.of_next (congrArg Host.Outcome.next (if_pos hup)) ?_
    rw [State.flag, State.fld_setF s _ _ (by decide)]
    cases on <;> rfl
  case enable =>
    intro s r v hup hoff hv
    obtain ⟨hen, hwrite⟩ := State.ringCfgWrite_enable hoff hv
    refine Runs.of_next (t := s.ringCfgWrite r v) (congrArg Host.Outcome.next (if_pos hup)) ?_
    rw [hwrite]
    obtain ⟨herr, hidx⟩ := State.ringFresh_ringOpen (s.putRw (Reg.ringCfg r) v) r
    exact ⟨(State.ringOpen_writes.flag (rowsApart_at rfl r.isLt rfl)).trans hen, by simp only [State.flag, herr, bne_self_eq_false], hidx⟩
  case disable =>
    intro s r v hup hon hv
    exact ⟨s.ringCfgWrite r v, congrArg Host.Outcome.next (if_pos hup), State.ringCfgWrite_disable hon hv⟩
  case completion =>
    intro s w rest hwait hfree hdma
    exact ⟨_, rfl, State.flushCpl_one hwait hfree hdma⟩
  case lost =>
    intro s l hlost hfree
    exact ⟨_, rfl, State.reportLost_done hlost hfree⟩
  case signal =>
    intro s r hdue htick hmay
    have hw : Writes [Reg.tbSnapCtrl, Reg.tbIncrLo 0, Reg.tbIncrHi 0, Reg.tbSnapFrac 0, Reg.tbSnapNs 0, Reg.tbSnapSecLo 0, Reg.tbSnapSecHi 0] s
      (s.reachTick (s.signalFrom r)) := State.reachTick_writes
    have hvector : (s.reachTick (s.signalFrom r)).fld (F.ringCfg_VECTOR r) = s.fld (F.ringCfg_VECTOR r) := hw.fld (rowsApart_at rfl r.isLt rfl)
    have hlt : s.fld (F.ringCfg_VECTOR r) < 256 := Fld.of_lt _ _
    have hmask : (s.reachTick (s.signalFrom r)).flag (F.msixCtrl_MASK (s.fld (F.ringCfg_VECTOR r))) = s.flag (F.msixCtrl_MASK (s.fld (F.ringCfg_VECTOR r))) :=
      hw.flag (rowsApart_at rfl hlt rfl)
    have hdma : (s.reachTick (s.signalFrom r)).flag F.hostifEmerg_DMA_OFF = s.flag F.hostifEmerg_DMA_OFF := hw.flag (isApart_at rfl)
    refine ⟨_, exec_msixSignal hdue htick, State.signal_notDue ?_⟩
    rw [hvector, hmask, hdma]
    rcases hmay with h | h <;> simp [h]

end Sys2Proof.Machine
end

section
/-!
Packet rings and the host interface's own commands (spec/15 R467, R468, R470, R474, R477).
-/
namespace Sys2Proof.Machine
open Sys2Proof

/-! ### A frame that the host injects (spec/15 R467) -/

theorem txFrame_single {d : TxDesc} (hmore : d.flags.getLsbD 0 = false) (rest : List TxDesc) : txFrame (d :: rest) = [d] := by
  simp only [txFrame, hmore, Bool.not_false, if_true]

/-- The frame that one descriptor injects into its port's pipeline. -/
def State.txInjected (s : State) (r : Nat) (d : TxDesc) (data : List (BitVec 8)) : Frame :=
  { id := s.fabric.nextFrame, port := d.port.toNat, bytes := data, len := data.length, stamp := s.now,
    beat := s.time.beatCount, gen := BitVec.ofNat 8 (s.fld (F.pipeGenStatus_ACTIVE (d.port.toNat / 32))), cfg := s.parserCfg (d.port.toNat / 32),
    txRing := some (r, d.flags.getLsbD 1), checked := true, sampled := false,
    flags := BitVec.ofNat 16 (s.macFlags d.port.toNat { bytes := data } + 2 ^ 11 * bit s.inDip) }

/-- TX ring `r` awaits the fate of the frame that its descriptor `d` injects. -/
def State.txQueued (s : State) (r : Nat) : State :=
  s.modHost fun h => { h with
    txq := Tab.put h.txq [] r (Tab.get s.host.txq [] r ++
      [{ frame := s.fabric.nextFrame, start := s.devIdx r + ((Tab.get s.host.txq [] r).map (·.descs)).foldl (· + ·) 0, descs := 1 }]) }

theorem State.sample_none {s : State} {p : Nat} (h : s.fld (F.fabricSample_N p) = 0) : s.sample p = (s, false) := by
  simp only [State.sample, h, if_true]

theorem exec_txDescriptor_inject {s : State} {q : Fin 32} {d : TxDesc} {data : List (BitVec 8)} (rest : List TxDesc) (hup : s.up = true)
    (hon : s.ringOn q = true) (hstop : s.flag F.hostifEmerg_TX_STOP = false) (hdma : s.flag F.hostifEmerg_DMA_OFF = false) (havail : 1 ≤ s.txAvail q)
    (hgood : TxDesc.bad d = false) (hflags : d.flags = 0x0C) (hlen : data.length = d.len.toNat) (hmax : d.len.toNat ≤ s.maxFrame d.port.toNat)
    (hport : s.portExists d.port.toNat = true) (hquiet : s.quiet = false) (hsample : s.fld (F.fabricSample_N d.port.toNat) = 0) (hheld : s.txHeld q = false) :
    exec (.txDescriptor q (d :: rest) data) s = .next ((s.txQueued q).frameIn (s.txInjected q d data)) := by
  have hmore : d.flags.getLsbD 0 = false := by rw [hflags]; rfl
  have hvia : d.flags.getLsbD 2 = true := by rw [hflags]; rfl
  have hfcs : d.flags.getLsbD 3 = true := by rw [hflags]; rfl
  have htake : data.take d.len.toNat = data := hlen ▸ List.take_length
  have hshort : ¬data.length < d.len.toNat := by omega
  have hport' (f : HostSt → HostSt) : (s.modHost f).portExists d.port.toNat = true := hport
  have hlong (f : HostSt → HostSt) : ¬(s.modHost f).maxFrame d.port.toNat < data.length := hlen ▸ Nat.not_lt.2 hmax
  have hquiet' (f : HostSt → HostSt) : (s.modHost f).quiet = false := hquiet
  have hsample' (f : HostSt → HostSt) : (s.modHost f).sample d.port.toNat = (s.modHost f, false) := State.sample_none (s := s.modHost f) hsample
  show execTxDescriptor q (d :: rest) data s = _
  simp only [execTxDescriptor, txFrame_single hmore, hup, hon, hstop, hdma, hheld, List.length_singleton, Nat.not_lt.2 havail, hvia, hfcs,
    List.map_cons, List.map_nil, List.foldl_cons, List.foldl_nil, Nat.zero_add, htake, List.any_cons, List.any_nil, hgood, if_true, Bool.not_true, Bool.or_self,
    decide_false, Bool.false_eq_true, if_false, Bool.false_and, hshort, Nat.reduceLT, hport', hlong, hquiet', hsample']
  rfl

/-! ### A frame for the host (spec/15 R468) -/

theorem State.rxFill_devIdx (s : State) (r size : Nat) (x : RxItem) (n k : Nat) : (s.rxFill r size x n k).devIdx r = s.devIdx r := by
  have hregs : (s.rxFill r size x n k).regs = s.regs := State.rxFill_kept.same .regs rfl
  simp only [State.devIdx, State.reg, hregs]

/-- The oldest frame for RX ring `q` is taken. -/
def State.rxTaken (s : State) (x : RxItem) : State := s.modFabric fun y => { y with rxq := y.rxq.erase x }

theorem exec_rxWriteback_lost {s : State} {q : Fin 32} {x : RxItem} (hfirst : (s.fabric.rxq.find? fun x => x.ring == q.val) = some x)
    (hdma : s.flag F.hostifEmerg_DMA_OFF = false) (hoff : s.ringOn (32 + q.val) = false) :
    exec (.rxWriteback q) s = .next ((s.rxTaken x).bump (F.ringLoss_COUNT (32 + q.val))) := by
  show execRxWriteback q s = _
  simp only [execRxWriteback, hfirst, hdma, Bool.false_eq_true, if_false]
  exact congrArg Host.Outcome.next (if_pos (by rw [show (s.modFabric _).ringOn (32 + q.val) = false from hoff]; rfl))

/-- A frame that fits into one buffer, of which one is posted. -/
theorem exec_rxWriteback_one {s : State} {q : Fin 32} {x : RxItem} (hfirst : (s.fabric.rxq.find? fun x => x.ring == q.val) = some x)
    (hdma : s.flag F.hostifEmerg_DMA_OFF = false) (hon : s.ringOn (32 + q.val) = true)
    (hfits : x.bytes.length ≤ 256 * (s.fld (F.ringCfg_BUF_SIZE (32 + q.val)) + 1)) (hposted : s.hostIdx (32 + q.val) = s.devIdx (32 + q.val) + 1) :
    exec (.rxWriteback q) s = .next ((((s.rxTaken x).rxFill (32 + q.val) (256 * (s.fld (F.ringCfg_BUF_SIZE (32 + q.val)) + 1)) x 1 0).advance (32 + q.val) 1).signalSoon
      (32 + q.val)) := by
  have hn : max 1 ((x.bytes.length + 256 * (s.fld (F.ringCfg_BUF_SIZE (32 + q.val)) + 1) - 1) / (256 * (s.fld (F.ringCfg_BUF_SIZE (32 + q.val)) + 1))) = 1 := by
    generalize s.fld (F.ringCfg_BUF_SIZE (32 + q.val)) = b at hfits
    have : (x.bytes.length + 256 * (b + 1) - 1) / (256 * (b + 1)) < 2 := Nat.div_lt_of_lt_mul (by omega)
    omega
  have hone : (BitVec.ofNat 32 (s.hostIdx (32 + q.val)) - BitVec.ofNat 32 (s.devIdx (32 + q.val))).toNat = 1 := by
    have hlt : s.hostIdx (32 + q.val) < 2 ^ 32 := BitVec.isLt _
    rw [hposted] at hlt ⊢
    generalize s.devIdx (32 + q.val) = i at hlt
    bv_omega
  have hon' (f : FabricSt → FabricSt) : (s.modFabric f).ringOn (32 + q.val) = true := hon
  have hhost (f : FabricSt → FabricSt) : (s.modFabric f).hostIdx (32 + q.val) = s.hostIdx (32 + q.val) := rfl
  have hdev (f : FabricSt → FabricSt) : (s.modFabric f).devIdx (32 + q.val) = s.devIdx (32 + q.val) := rfl
  show execRxWriteback q s = _
  simp only [execRxWriteback, hfirst, hdma, Bool.false_eq_true, if_false, hon', State.modFabric_fld, hn, hhost, hdev, hone, Nat.lt_irrefl, decide_false, Bool.not_true,
    Bool.or_self]
  rfl

theorem State.rxWriteback_one_shows (s : State) (q : Fin 32) (x : RxItem) (size : Nat) (hposted : s.hostIdx (32 + q.val) = s.devIdx (32 + q.val) + 1) :
    ((((s.rxTaken x).rxFill (32 + q.val) size x 1 0).advance (32 + q.val) 1).signalSoon (32 + q.val)).fabric.rxq = s.fabric.rxq.erase x ∧
      ((((s.rxTaken x).rxFill (32 + q.val) size x 1 0).advance (32 + q.val) 1).signalSoon (32 + q.val)).devIdx (32 + q.val) = s.hostIdx (32 + q.val) := by
  have hr : 32 + q.val < 69 := by omega
  have hkept : Kept [.regs, .host, .freeCtr] (s.rxTaken x) ((((s.rxTaken x).rxFill (32 + q.val) size x 1 0).advance (32 + q.val) 1).signalSoon (32 + q.val)) :=
    State.signalSoon_kept.step rfl (State.advance_kept.step rfl (State.rxFill_kept.step rfl .refl))
  refine ⟨congrArg FabricSt.rxq (hkept.same .fabric rfl), ?_⟩
  rw [SameRing.devIdx (.of_writes State.signalSoon_writes (stopped_of_asked (State.signalSoon_asked ..)) rfl hr), State.advance_devIdx _ hr, State.rxFill_devIdx]
  have hdev : (s.rxTaken x).devIdx (32 + q.val) = s.devIdx (32 + q.val) := rfl
  have hlt : s.hostIdx (32 + q.val) < 2 ^ 32 := BitVec.isLt _
  rw [hdev, ← hposted, Nat.mod_eq_of_lt hlt]

/-- Settles O23: one descriptor injects a frame into the buffer; the oldest frame for a ring is taken, with a count where no buffer is posted; the
commands complete with what their rows say. -/
theorem packetRings : Obligations.PacketRings := by
  refine ⟨?inject, ?lost, ?written, ?nop, ?unassigned, ?timeout⟩
  case inject =>
    intro s q d rest data hup hon hstop hdma havail hgood hflags hlen hmax hport hquiet hsample hheld
    obtain ⟨hframes, -⟩ := (s.txQueued q).frameIn_shows (s.txInjected q d data)
    exact Runs.of_next (exec_txDescriptor_inject rest hup hon hstop hdma havail hgood hflags hlen hmax hport hquiet hsample hheld)
      ⟨_, hframes, rfl, rfl, rfl, rfl, rfl⟩
  case lost =>
    intro s q x hfirst hdma hoff
    exact Runs.of_next (exec_rxWriteback_lost hfirst hdma hoff) ⟨rfl, State.fld_bump (s.rxTaken x) 1 (by decide : 0 + 32 ≤ 32)⟩
  case written =>
    intro s q x hfirst hdma hon hfits hposted
    exact Runs.of_next (exec_rxWriteback_one hfirst hdma hon hfits hposted) (s.rxWriteback_one_shows q x _ hposted)
  case nop =>
    intro s c htakes hok
    exact Runs.of_next (congrArg Host.Outcome.next (start_takes htakes hok)) ⟨_, _, _, _, _, rfl, trivial⟩
  case unassigned =>
    intro s c op hmay hop
    exact Runs.of_next ((exec_unassignedOpcode c op s).trans (execUnassignedOpcode_of_mayStart hop hmay)) ⟨_, _, _, _, _, rfl, trivial⟩
  case timeout =>
    intro s i p hp hlost
    have hid : p.id = i := State.parkedAt_id hp
    show ∃ t, execCmdTimeout i s = .next t ∧ _
    simp only [execCmdTimeout, hp]
    exact ⟨_, rfl, State.endParked_completed _ _ _ _ hlost (hid ▸ State.parkedAt_unpark _ _)⟩

end Sys2Proof.Machine
end

section
/-!
Long operations: their control, their safe points and their ends (spec/15 R475 to R477).
-/
namespace Sys2Proof.Machine
open Sys2Proof

/-! ### The operation of a handle -/

@[simp] theorem State.fetched_longOps (s : State) (c : Cmd) : (s.fetched c).host.longOps = s.host.longOps := by
  unfold State.fetched
  extract_lets u host v
  split
  · exact v.advance_longOps 64 1
  · rfl

theorem State.fetched_ended (s : State) (c : Cmd) : (s.fetched c).host.ended = s.host.ended := by
  unfold State.fetched
  extract_lets u host v
  split
  · exact (congrArg (·.ended) (v.advance_unposted 64 1) : (v.advance 64).host.ended = v.host.ended)
  · rfl

theorem State.longAt_congr {s t : State} (h : t.host.longOps = s.host.longOps) (k : BitVec 32) : t.longAt k = s.longAt k := by
  simp only [State.longAt, h]

theorem longAt_handle {s : State} {h : BitVec 32} {o : LongOp} (hat : s.longAt h = some o) : o.handle = h := by
  simpa using List.find?_some hat

theorem longAt_mem {s : State} {h : BitVec 32} {o : LongOp} (hat : s.longAt h = some o) : o ∈ s.host.longOps := List.mem_of_find?_eq_some hat

theorem State.fetched_longAt (s : State) (c : Cmd) (h : BitVec 32) : (s.fetched c).longAt h = s.longAt h := State.longAt_congr (s.fetched_longOps c) h

theorem State.fetched_longHandle (s : State) (c : Cmd) (h : BitVec 32) : (s.fetched c).longHandle h = s.longHandle h := by
  simp only [State.longHandle, s.fetched_longAt, s.fetched_ended]

/-- The host may name any handle. -/
theorem filter_mayName_host {c : Cmd} (hhost : c.user = none) (o : Option LongOp) : o.filter (mayName c) = o := by
  cases o
  · rfl
  · simp [Option.filter, mayName, hhost]

/-! ### Operations that end or start -/

/-- The operation of handle `h` is over; its handle stays valid until its final completion has been written. -/
def State.longEnded (s : State) (h : BitVec 32) (o : LongOp) (status : Nat) : State :=
  { s with host := { s.host with
      longOps := s.host.longOps.filter (·.handle ≠ h)
      ended := s.host.ended ++ [{ o with state := if status = st.ok then .done else if status = st.cancelled then .cancelled else .failed }] } }

theorem State.endLong_completed {s : State} {h : BitVec 32} {o : LongOp} {P : State → Prop} (status : Nat) (data : BitVec 256) (hat : s.longAt h = some o)
    (hsuspend : o.suspend = none) (hP : P (s.longEnded h o status)) : Completed o.cmd o.op status P (s.endLong h status data) := by
  refine ⟨s.longEnded h o status, data, 2 + (if o.recovered then 8 else 0), h.toNat, o.lower, ?_, hP⟩
  simp only [State.endLong, hat, hsuspend, State.longEnded]

@[simp] theorem State.endParked_longOps (s : State) (p : Parked) (status : Nat) (data : BitVec 256) (flags lower : Nat) :
    (s.endParked p status data flags lower).host.longOps = s.host.longOps := by
  unfold State.endParked
  extract_lets u
  split
  · rfl
  · exact State.complete_longOps ..

@[simp] theorem State.finish_longOps (s : State) (i status : Nat) (data : BitVec 256) : (s.finish i status data).host.longOps = s.host.longOps := by
  unfold State.finish
  split
  · rfl
  · exact State.endParked_longOps ..

theorem State.endLong_longOps {s : State} {h : BitVec 32} {o : LongOp} (status : Nat) (data : BitVec 256) (hat : s.longAt h = some o) :
    (s.endLong h status data).host.longOps = s.host.longOps.filter (·.handle ≠ h) := by
  simp only [State.endLong, hat]
  split
  · rw [State.finish_longOps, State.complete_longOps]
  · rw [State.complete_longOps]

theorem filter_handle_singleton {s : State} {h : BitVec 32} {o : LongOp} (hat : s.longAt h = some o) (hone : s.host.longOps = [o]) :
    s.host.longOps.filter (·.handle ≠ h) = [] := by
  simp [hone, longAt_handle hat]

/-- Nothing starts where no operation is queued. -/
theorem State.startQueued_none {s : State} (h : ∀ o ∈ s.host.longOps, o.state ≠ .queued) : s.startQueued = s := by
  have hnone : s.host.longOps.filter (fun o => o.state == .queued) = [] := List.filter_eq_nil_iff.2 fun o ho => by simpa using h o ho
  simp only [State.startQueued, hnone]
  rfl

theorem State.startQueued_empty {s : State} (h : s.host.longOps = []) : s.startQueued = s :=
  State.startQueued_none (by rw [h]; exact List.forall_mem_nil _)

/-! ### LONG_CTRL and LONG_QUERY (spec/15 R476, R477) -/

theorem exec_longCtrl_unknown {s : State} {c : Cmd} (htakes : s.takes c 0x0C01 = true) (hok : c.ok 5 = true) (hact : c.fld 4 1 < 3)
    (hat : s.longAt (BitVec.ofNat 32 (c.fld 0 4)) = none) : exec (.longCtrl c) s = .next ((s.fetched c).complete c 0x0C01 st.badArg) := by
  show execLongCtrl c s = _
  simp only [execLongCtrl]
  rw [start_takes htakes (by simp [hok, hact])]
  simp only [s.fetched_longAt, hat, Option.filter_none]

theorem exec_longCtrl_suspend {s : State} {c : Cmd} {o : LongOp} (htakes : s.takes c 0x0C01 = true) (hok : c.ok 5 = true) (hact : c.fld 4 1 = 0)
    (hat : s.longAt (BitVec.ofNat 32 (c.fld 0 4)) = some o) (hhost : c.user = none) (hstate : o.state ≠ .suspended) (hmay : o.suspendable = true)
    (hfree : o.suspend = none) : exec (.longCtrl c) s =
      .next (((s.fetched c).park c 0x0C01).modLong o.handle fun o => { o with suspend := some s.host.nextId }) := by
  show execLongCtrl c s = _
  simp only [execLongCtrl]
  rw [start_takes htakes (by simp [hok, hact])]
  simp only [s.fetched_longAt, hat, filter_mayName_host hhost, hact, hstate, hmay, hfree, if_false, Bool.not_true, Bool.false_eq_true, Option.isSome_none, State.parkId,
    s.fetched_nextId]

theorem exec_longCtrl_cancel {s : State} {c : Cmd} {o : LongOp} (htakes : s.takes c 0x0C01 = true) (hok : c.ok 5 = true) (hact : c.fld 4 1 = 2)
    (hat : s.longAt (BitVec.ofNat 32 (c.fld 0 4)) = some o) (hhost : c.user = none) (hmay : o.cancelable = true) : exec (.longCtrl c) s =
      .next (((s.fetched c).cancelLong o).complete c 0x0C01 st.ok).startQueued := by
  show execLongCtrl c s = _
  simp only [execLongCtrl]
  rw [start_takes htakes (by simp [hok, hact])]
  simp only [s.fetched_longAt, hat, filter_mayName_host hhost, hact, hmay, Bool.not_true, Bool.false_eq_true, if_false]

theorem exec_longQuery_none {s : State} {c : Cmd} (htakes : s.takes c 0x0C02 = true) (hok : c.ok 4 = true)
    (hat : s.longHandle (BitVec.ofNat 32 (c.fld 0 4)) = none) : exec (.longQuery c) s = .next ((s.fetched c).complete c 0x0C02 st.badArg) := by
  show execLongQuery c s = _
  simp only [execLongQuery]
  rw [start_takes htakes hok]
  simp only [s.fetched_longHandle, hat, Option.filter_none]

theorem exec_longQuery_some {s : State} {c : Cmd} {o : LongOp} (htakes : s.takes c 0x0C02 = true) (hok : c.ok 4 = true)
    (hat : s.longHandle (BitVec.ofNat 32 (c.fld 0 4)) = some o) (hhost : c.user = none) : exec (.longQuery c) s =
      .next ((s.fetched c).complete c 0x0C02 st.ok (packLE 256 [(0, 1, longCode o.state), (2, 2, o.op), (4, 4, o.progress), (8, 4, o.total),
        (12, 4, ticksMs (s.time.tick - o.tick))])) := by
  show execLongQuery c s = _
  simp only [execLongQuery]
  rw [start_takes htakes hok]
  simp only [s.fetched_longHandle, hat, filter_mayName_host hhost, s.fetched_time]

/-! ### Safe points (spec/15 R476, R477) -/

/-- An operation that reaches a safe point it was asked for is suspended, and asked no longer. -/
theorem State.setLong_longOps {s : State} {h : BitVec 32} {o : LongOp} (st : LongState) (hat : s.longAt h = some o) (hone : s.host.longOps = [o]) :
    (s.setLong h st).host.longOps = [{ o with state := st }] := by
  unfold State.setLong
  rw [hat]
  dsimp only
  split
  next hsame => rw [hone, ← hsame]
  next =>
    refine (congrArg (·.longOps) (State.raise_asked ..)).trans ?_
    simp only [HostSt.asked, State.modLong, hone, List.map_cons, longAt_handle hat, if_true, List.map_nil]

theorem State.longSuspend_longOps {s : State} {h : BitVec 32} {o : LongOp} (hat : s.longAt h = some o) (hone : s.host.longOps = [o]) :
    (s.longSuspend o).host.longOps = [{ o with state := .suspended, suspend := none }] := by
  unfold State.longSuspend
  extract_lets u v
  have hu : u.host.longOps = [{ o with state := .suspended, suspend := none }] := by
    simp only [u, State.modLong, State.setLong_longOps .suspended (longAt_handle hat ▸ hat : s.longAt o.handle = some o) hone, List.map_cons, if_true, List.map_nil]
  have hv : v.host.longOps = [{ o with state := .suspended, suspend := none }] := by
    unfold v
    repeat' split
    · exact hu
    · exact (congrArg HostSt.longOps (State.eyeOff_kept.same .host rfl)).trans hu
    · exact (congrArg HostSt.longOps (State.modCal_kept.same .host rfl)).trans hu
    · exact hu
  split
  · exact (State.finish_longOps ..).trans hv
  · exact hv

/-! ### LONG_OP_FINAL of a scrub (spec/08 R277) -/

/-- The counts of a scrub's stacks go on. -/
def State.scrubCounted (s : State) (o : LongOp) (r : LongResult) : State :=
  s.each (maskIdx 4 (o.args.getD 0 0)) fun s k => s.bump (F.deepEccCorr_COUNT k) (r.nums.getD k 0)

theorem State.scrubCounted_host (s : State) (o : LongOp) (r : LongResult) : (s.scrubCounted o r).host = s.host :=
  Kept.same (L := [.regs]) (State.each_kept (fun _ _ h => h.trans State.bump_kept) .refl) .host rfl

/-- A scrub ends with its counts, or in a fault. -/
theorem State.scrubFinal_ends (s : State) (o : LongOp) (r : LongResult) : ∃ (u : State) (data : BitVec 256), u.host = s.host ∧
    s.scrubFinal o r = u.endLong o.handle (if r.fault then st.hwFault else st.ok) data := by
  have hhost := s.scrubCounted_host o r
  unfold State.scrubFinal
  cases r.fault
  · rw [if_neg Bool.false_ne_true, if_neg Bool.false_ne_true]
    refine ⟨_, _, ?_, rfl⟩
    split <;> exact hhost
  · exact ⟨_, _, hhost, rfl⟩

theorem exec_longOpFinal_scrub {s : State} {h : BitVec 32} {o : LongOp} (r : LongResult) (hat : s.longAt h = some o) (hstate : o.state = .running) (hop : o.op = 0x0502) :
    exec (.longOpFinal h r) s = .next (s.scrubFinal o { r with fault := r.fault || o.lower == 4 }).startQueued := by
  have hflash : s.flashHeld o = false := by simp [State.flashHeld, hop]
  have hdma : s.dmaHeld o = false := by simp [State.dmaHeld, hop]
  show execLongOpFinal h r s = _
  simp only [execLongOpFinal, hat, hstate, hflash, hdma, State.longFinal, hop]
  rfl

/-- Settles O40: control, query, safe point and end find their operation by its handle; what they do to it is all that changes of the operations in
progress, as completions and events leave them alone. -/
theorem longOperations : Obligations.LongOperations := by
  refine ⟨?suspend, ?cancel, ?unknown, ?query, ?noHandle, ?safePoint, ?progress, ?final⟩
  case suspend =>
    intro s c o htakes hok hact hat hhost hstate hmay hfree
    refine Runs.of_next (exec_longCtrl_suspend htakes hok hact hat hhost hstate hmay hfree) ⟨_, ?_, rfl⟩
    refine List.mem_map.2 ⟨o, ?_, by rw [if_pos rfl]⟩
    show o ∈ (s.fetched c).host.longOps
    rw [s.fetched_longOps]
    exact longAt_mem hat
  case cancel =>
    intro s c o htakes hok hact hat hhost hop hone
    have hmay : o.cancelable = true := by simp [LongOp.cancelable, hop]
    have hat' : (s.fetched c).longAt o.handle = some o := by rw [s.fetched_longAt, longAt_handle hat]; exact hat
    have hgone : ((s.fetched c).cancelLong o).host.longOps = [] := by
      have hundo : (s.fetched c).longUndo o = s.fetched c := by simp only [State.longUndo, hop]
      rw [State.cancelLong, hundo, State.endLong_longOps _ _ hat']
      exact filter_handle_singleton hat' ((s.fetched_longOps c).trans hone)
    refine Runs.of_next (exec_longCtrl_cancel htakes hok hact hat hhost hmay) ?_
    rw [State.startQueued_empty ((State.complete_longOps ..).trans hgone)]
    exact ⟨_, _, _, _, _, rfl, hgone⟩
  case unknown =>
    intro s c htakes hok hact hat
    exact Runs.of_next (exec_longCtrl_unknown htakes hok hact hat) ⟨_, _, _, _, _, rfl, trivial⟩
  case query =>
    intro s c o htakes hok hat hhost
    exact Runs.of_next (exec_longQuery_some htakes hok hat hhost) rfl
  case noHandle =>
    intro s c htakes hok hat
    exact Runs.of_next (exec_longQuery_none htakes hok hat) rfl
  case safePoint =>
    intro s h o i hat hone hsuspend
    have hops := State.longSuspend_longOps hat hone
    have hexec : exec (.longOpSafePoint h) s = .next (s.longSuspend o).startQueued := by
      show execLongOpSafePoint h s = _
      simp only [execLongOpSafePoint, hat, hsuspend, Option.isSome_some, if_true]
    refine Runs.of_next hexec ?_
    rw [State.startQueued_none (by rw [hops]; simp)]
    exact ⟨_, hops, rfl, rfl, rfl⟩
  case progress =>
    intro s h o hat hone hsuspend hstate hop
    have hdma : s.dmaHeld o = false := by rcases hop with hop | hop <;> simp [State.dmaHeld, hop]
    have hexec : exec (.longOpSafePoint h) s = .next (s.modLong o.handle fun o => { o with progress := min o.total (o.progress + 1) }) := by
      show execLongOpSafePoint h s = _
      rcases hop with hop | hop <;> simp [execLongOpSafePoint, hat, hsuspend, hstate, hdma, State.longStep, hop]
    refine Runs.of_next hexec ?_
    simp only [State.modLong, hone, List.map_cons, if_true, List.map_nil]
  case final =>
    intro s h o r hat hstate hop hsuspend hone
    obtain ⟨u, data, hhost, hends⟩ := s.scrubFinal_ends o { r with fault := r.fault || o.lower == 4 }
    have hat' : u.longAt o.handle = some o := by
      rw [State.longAt_congr (congrArg HostSt.longOps hhost), longAt_handle hat]
      exact hat
    have hgone : (u.longEnded o.handle o (if r.fault || o.lower == 4 then st.hwFault else st.ok)).host.longOps = [] :=
      filter_handle_singleton hat' (hhost ▸ hone)
    refine Runs.of_next (exec_longOpFinal_scrub r hat hstate hop) ?_
    rw [hends, State.startQueued_empty ((State.endLong_longOps _ data hat').trans hgone), ← hop]
    refine State.endLong_completed _ data hat' hsuspend ⟨hgone, ?_⟩
    show u.host.ended ++ _ = _
    rw [hhost]
    cases r.fault || o.lower == 4 <;> rfl

end Sys2Proof.Machine
end

section
/-!
Register accesses (spec/15 R460; spec/18 R545 to R548; spec/05 R166).
-/
namespace Sys2Proof.Machine
open Sys2Proof

/-! ### Where registers of two families lie in the map -/

/-- The row of the egress queues' high-water marks (spec/08 R281). -/
def hwmRow : RegRow := { base := 0x2010014, n1 := 2048, s1 := 0x20, rc := 0x1FFFFFF }

theorem eqHwm_addr (i : Fin 2048) : Reg.eqHwm i = 0x2010014 + 0x20 * i.val := if_pos i.isLt

theorem eqHwm_find (i : Fin 2048) : RegMap.find (Reg.eqHwm i) = some ⟨hwmRow, i, 0⟩ := by
  rw [eqHwm_addr]
  obtain ⟨i, hi⟩ := i
  dsimp only
  have hblock : (0x2010014 + 0x20 * i) / 0x100000 = 32 := by omega
  have hrows : RegMap.rowsAt (0x2010014 + 0x20 * i) = RegMap.rowsFabric := by
    simp only [RegMap.rowsAt, hblock]
    rfl
  have hindex : (0x2010014 + 0x20 * i - 0x2010014) / 0x20 = i := by omega
  rw [RegMap.find, hrows]
  simp (disch := omega) only [RegMap.rowsFabric, List.cons_append, List.nil_append, RegMap.search, RegRow.hit, if_neg, if_pos, if_true, hindex]
  rfl

/-- The row of the ports' counters (spec/05 R180). -/
def portCntRow : RegRow := { base := 0xC00400, n1 := 128, s1 := 0x1000, n2 := 64, s2 := 0x8, rc := 0xFFFFFFFF }

theorem portCntLo_addr (n : Fin 128) {k : Nat} (hk : k < 64) : Reg.portCntLo n k = 0xC00400 + 0x1000 * n.val + 8 * k :=
  if_pos ⟨n.isLt, hk⟩

theorem portCntLo_find (n : Fin 128) {k : Nat} (hk : k < 64) : RegMap.find (Reg.portCntLo n k) = some ⟨portCntRow, n, k⟩ := by
  rw [portCntLo_addr n hk]
  obtain ⟨n, hn⟩ := n
  dsimp only
  have hrows : RegMap.rowsAt (0xC00400 + 0x1000 * n + 8 * k) = RegMap.rowsPort := by
    have hblock : 12 ≤ (0xC00400 + 0x1000 * n + 8 * k) / 0x100000 ∧ (0xC00400 + 0x1000 * n + 8 * k) / 0x100000 < 16 := by omega
    simp (disch := omega) only [RegMap.rowsAt, if_neg, if_pos]
  have houter : (0xC00400 + 0x1000 * n + 8 * k - 0xC00400) / 0x1000 = n := by omega
  have hinner : (0xC00400 + 0x1000 * n + 8 * k - 0xC00400 - n * 0x1000) / 8 = k := by omega
  rw [RegMap.find, hrows]
  simp (disch := omega) only [RegMap.rowsPort, RegMap.search, RegRow.hit, if_neg, if_pos, houter, hinner]
  rfl

/-- The row of the slots' late counters (spec/10 R354). -/
def slotLateRow : RegRow := { base := 0x3410034, n1 := 256, s1 := 0x40, rc := 0xFFFFFFFF }

theorem slotLate_addr (k : Fin 256) : Reg.slotLate k = 0x3410034 + 0x40 * k.val := if_pos k.isLt

theorem slotLate_find (k : Fin 256) : RegMap.find (Reg.slotLate k) = some ⟨slotLateRow, k, 0⟩ := by
  rw [slotLate_addr]
  obtain ⟨k, hk⟩ := k
  dsimp only
  have hblock : (0x3410034 + 0x40 * k) / 0x100000 = 52 := by omega
  have hrows : RegMap.rowsAt (0x3410034 + 0x40 * k) = RegMap.rowsServo := by
    simp only [RegMap.rowsAt, hblock]
    rfl
  have hindex : (0x3410034 + 0x40 * k - 0x3410034) / 0x40 = k := by omega
  rw [RegMap.find, hrows]
  simp (disch := omega) only [RegMap.rowsServo, List.cons_append, List.nil_append, RegMap.search, RegRow.hit, if_neg, if_pos, if_true, hindex]
  rfl

/-! ### Reads that clear (spec/05 R166, spec/15 R460) -/

theorem State.regRead_of_align {s : State} {a : Nat} (hup : s.up = true) (halign : a % 4 = 0) :
    s.regRead a = { (s.regValue a).1 with rdata := (s.regValue a).2 } := by
  simp only [State.regRead, hup, halign, Bool.not_true, Bool.false_eq_true, if_false, ne_eq, not_true_eq_false]

/-- A read of a port's counter clears it and leaves its high word in the second address. -/
theorem State.regValue_portCnt (s : State) (n : Fin 128) {k : Nat} (hk : k < 48) (hpause : k ≠ 36) :
    s.regValue (Reg.portCntLo n k) =
      ({ s with ctr := Tab.del (Reg.portCntLo n k) s.ctr }.setReg (Reg.portCntLo n k + 4) (BitVec.ofNat 32 (s.portCnt n k / 2 ^ 32)),
        BitVec.ofNat 32 (s.portCnt n k)) := by
  have hrow : counterRows.contains portCntRow.base = true := by decide
  have hflush : (portCntRow.base == Reg.portCntLo 0 0 && k == 36) = false := by simp [hpause]
  simp only [State.regValue, portCntLo_find n (show k < 64 by omega), hrow, if_true, hflush, Bool.false_eq_true, if_false]
  rfl

theorem Tab.get_del_same {α : Type} (t : Tab α) (d : α) (k : Nat) : Tab.get (Tab.del k t) d k = d := by
  simp only [Tab.get, Tab.find_del_same, Option.getD_none]

/-- A read changes no register but the one it reads, where its row reads plainly. -/
theorem State.regRead_other {s : State} {a b : Nat} {h : RegHit} (hup : s.up = true) (halign : a % 4 = 0) (hf : RegMap.find a = some h)
    (hb : readsSpecially h.row.base = false) (hne : b ≠ a) : (s.regRead a).reg b = s.reg b := by
  rw [State.regRead_of_align hup halign, s.regValue_of_find hf hb]
  dsimp only
  split
  · rfl
  · exact s.reg_setReg_other _ hne

theorem State.regValue_eqHwm (s : State) (i : Fin 2048) :
    s.regValue (Reg.eqHwm i) = (s.setF (F.eqHwm_HWM i) (s.fld (F.eqDepth_TOTAL i)), s.reg (Reg.eqHwm i)) := by
  have hcounter : counterRows.contains hwmRow.base = false := by decide
  have hperf : (hwmRow.base == Reg.perfCntLo 0 0) = false := by decide
  have hlog : (hwmRow.base == Reg.secLog 0) = false := by decide
  have hlink : linkRows.contains hwmRow.base = false := by decide
  have hhwm : (hwmRow.base == Reg.eqHwm 0) = true := by decide
  simp only [State.regValue, eqHwm_find, hcounter, hperf, hlog, hlink, hhwm, Bool.false_and, Bool.false_eq_true, if_false, if_true]

/-! ### Plain writes (spec/18 R545 to R548) -/

/-- The word that a plain register holds after a write. -/
def State.plainWord (s : State) (src : WrSrc) (a : Nat) (v : Word) (h : RegHit) : Word :=
  (if s.beaten src a then s.reg a else (s.reg a &&& ~~~(rwMask a)) ||| (v &&& rwMask a)) &&& ~~~(v &&& BitVec.ofNat 32 h.row.w1c)

/-- A writer whose writes of register `a` are not gated writes as the host does. -/
theorem State.byWriter_open {s : State} {src : WrSrc} {a : Nat} {v : Word} {f : State → State} (hup : s.up = true)
    (hopen : ∀ c, src = .core c → c.val < 2 → gatedReg a = false) : s.byWriter src a v f = f s := by
  cases src with
  | host => simp only [State.byWriter, hup, Bool.not_true, Bool.false_eq_true, if_false]
  | core c =>
    have hgate : ¬(c.val < 2 ∧ gatedReg a = true) := fun ⟨hc, hg⟩ => by
      rw [hopen c rfl hc] at hg
      exact Bool.false_ne_true hg
    simp only [State.byWriter, hup, Bool.not_true, Bool.false_eq_true, if_false, hgate]

theorem State.regWrite_plain {s : State} {src : WrSrc} {a : Nat} {v : Word} {h : RegHit} (hup : s.up = true) (hf : RegMap.find a = some h)
    (hplain : writeOp h.row.base = none) (hopen : ∀ c, src = .core c → c.val < 2 → gatedReg a = false) :
    s.regWrite src a v = ((if s.beaten src a then s else s.putRw a v).putW1c a v).took src a := by
  simp only [State.regWrite, hup, hf, hplain, Bool.not_true, Bool.false_eq_true, if_false]
  exact State.byWriter_open hup hopen

theorem State.took_reg (s : State) (src : WrSrc) (a b : Nat) : (s.took src a).reg b = s.reg b := rfl

/-- Who has written a register on this tick beats every writer that comes before. -/
theorem State.took_beaten (s : State) (src : WrSrc) (a : Nat) {w : WrSrc} (h : busPlace w < busPlace src) : (s.took src a).beaten w a = true := by
  have hplace : busPlace w < max (busPlace src) (Tab.get (if s.written.tick = s.time.tick + 1 then s.written.regs else []) 0 a) :=
    Nat.lt_of_lt_of_le h (Nat.le_max_left ..)
  simp only [State.beaten, beq_self_eq_true, Bool.true_and, State.took, Tab.find_ins_same, Option.any_some, decide_eq_true hplace]

theorem State.regWrite_plain_reg {s : State} {src : WrSrc} {a : Nat} {v : Word} {h : RegHit} (hup : s.up = true) (hf : RegMap.find a = some h)
    (hplain : writeOp h.row.base = none) (hopen : ∀ c, src = .core c → c.val < 2 → gatedReg a = false) :
    (s.regWrite src a v).reg a = s.plainWord src a v h := by
  rw [State.regWrite_plain hup hf hplain hopen, State.took_reg, State.putW1c, hf]
  dsimp only
  rw [State.reg_setReg_same, State.plainWord]
  split
  · rfl
  · rw [State.putRw, State.reg_setReg_same]

theorem State.regWrite_plain_other {s : State} {src : WrSrc} {a b : Nat} {v : Word} {h : RegHit} (hup : s.up = true) (hf : RegMap.find a = some h)
    (hplain : writeOp h.row.base = none) (hopen : ∀ c, src = .core c → c.val < 2 → gatedReg a = false) (hne : b ≠ a) :
    (s.regWrite src a v).reg b = s.reg b := by
  rw [State.regWrite_plain hup hf hplain hopen, State.took_reg, State.putW1c, hf]
  dsimp only
  rw [State.reg_setReg_other _ _ hne]
  split
  · rfl
  · exact s.reg_setReg_other _ hne

/-- REGISTER_WRITE and W1C_WRITE of an aligned word are the register's write. -/
theorem exec_registerWrite {s : State} {a : Nat} (src : WrSrc) (v : Word) (halign : a % 4 = 0) : exec (.registerWrite src a v) s = .next (s.regWrite src a v) := by
  show execRegisterWrite src a v s = _
  simp only [execRegisterWrite, halign, bne_self_eq_false, Bool.and_false, Bool.false_eq_true, if_false]

theorem exec_w1cWrite {s : State} {a : Nat} (src : WrSrc) (v : Word) (halign : a % 4 = 0) : exec (.w1cWrite src a v) s = .next (s.regWrite src a v) :=
  exec_registerWrite src v halign

theorem exec_badAccess {s : State} (w : Bool) (a : Nat) (hup : s.up = true) :
    exec (.badAccess w a) s = .next (if w then s.badAccess else { s.badAccess with rdata := 0xFFFFFFFF#32 }) := by
  show execBadAccess w a s = _
  simp only [execBadAccess, hup, Bool.not_true, Bool.false_eq_true, if_false]

/-- Settles O41: a row of the map is found by its address, and a read or write is what that row says; other registers lie at other addresses. -/
theorem registers : Obligations.Registers := by
  refine ⟨?bad, ?counter, ?late, ?clears, ?mark, ?w1c, ?plain⟩
  case bad =>
    intro s w a hup
    have hcount : s.badAccess.fld (F.hostifCnt_COUNT 7) = min (2 ^ 32 - 1) (s.fld (F.hostifCnt_COUNT 7) + 1) := s.fld_bump 1 (by decide)
    have hother (b : Nat) (hb : b ≠ Reg.hostifCnt 7) : s.badAccess.reg b = s.reg b := s.reg_setF_other (f := F.hostifCnt_COUNT 7) _ hb
    refine Runs.of_next (exec_badAccess w a hup) ?_
    cases w
    · exact ⟨hcount, fun _ => rfl, hother⟩
    · exact ⟨hcount, nofun, hother⟩
  case counter =>
    intro s n k hup hk hpause
    have halign : Reg.portCntLo n k % 4 = 0 := by
      rw [portCntLo_addr n (by omega)]
      omega
    refine Runs.of_next (congrArg Host.Outcome.next (State.regRead_of_align hup halign)) ?_
    rw [s.regValue_portCnt n hk hpause]
    exact ⟨rfl, Tab.get_del_same .., State.reg_setReg_same ..⟩
  case late =>
    intro s k hup
    have halign : Reg.slotLate k % 4 = 0 := by
      rw [slotLate_addr]
      omega
    exact Runs.of_next (exec_rcRead _ _) ⟨(State.regRead_of_find hup halign (slotLate_find k) rfl).1,
      fun b hb => State.regRead_other hup halign (slotLate_find k) rfl hb⟩
  case clears =>
    intro s a h hup halign hf hcounter hperf hlog hlink hhwm
    refine Runs.of_next (exec_rcRead _ _) (State.regRead_of_find hup halign hf ?_)
    simp only [readsSpecially, hcounter, hlink, beq_false_of_ne hperf, beq_false_of_ne hlog, beq_false_of_ne hhwm, Bool.or_self]
  case mark =>
    intro s i hup
    have halign : Reg.eqHwm i % 4 = 0 := by
      rw [eqHwm_addr]
      omega
    refine Runs.of_next ((exec_rcRead _ _).trans (congrArg Host.Outcome.next (State.regRead_of_align hup halign))) ?_
    rw [s.regValue_eqHwm]
    exact ⟨rfl, State.fld_setF_of_lt s (f := F.eqHwm_HWM i) (by decide : 0 + 25 ≤ 32) (Fld.of_lt (F.eqDepth_TOTAL i) _)⟩
  case w1c =>
    intro s src a v h hup halign hf hplain hopen
    exact Runs.of_next (exec_w1cWrite src v halign) (State.regWrite_plain_reg hup hf hplain hopen)
  case plain =>
    intro s src a v h hup halign hf hplain hopen
    refine Runs.of_next (exec_registerWrite src v halign)
      ⟨State.regWrite_plain_reg hup hf hplain hopen, fun b hb => State.regWrite_plain_other hup hf hplain hopen hb, fun w hw => ?_⟩
    rw [State.regWrite_plain hup hf hplain hopen]
    exact State.took_beaten _ src a hw

end Sys2Proof.Machine
end

section
/-!
How every command starts (O49): a row that finds nothing to act on, and a command that CORE4 does not come to, leave the state as it was.
-/
namespace Sys2Proof.Machine
open Sys2Proof

/-! ### The shapes of a row that finds nothing -/

theorem next_of_closed {G : Bool} {u s : State} (h : (!G) = true) :
    (.next (if G then u else s) : Host.Outcome State Fault Refusal) = .next s := by
  rw [if_neg (by simpa using h)]

theorem next_of_barred {G : Bool} {u s : State} (h : G = true) :
    (.next (if G then s else u) : Host.Outcome State Fault Refusal) = .next s := by
  rw [if_pos h]

theorem State.start_untaken {s : State} {c : Cmd} {op : Nat} (ok : Bool) (body : State → State) (h : s.takesCmd c op = false) :
    s.start c op ok body = s := by
  rw [State.start, h]; rfl

theorem State.kicked_off {s : State} (h : s.dbOn = false) : s.kicked = s := by
  rw [State.kicked, h]; rfl

theorem State.fetchNow_off {s : State} (h : s.dbOn = false) : s.fetchNow = s := by
  rw [State.fetchNow, h]; rfl

theorem State.sendPause_none {s : State} {n enable : Nat} (quanta : Nat → Nat)
    (h : (enable == 0 || s.pauseMode n == 0 || s.quiet || !s.portUp n) = true) : s.sendPause n enable quanta = s := by
  rw [State.sendPause, if_pos]
  simpa [or_assoc] using h

theorem State.issue_none {s : State} {k : Nat} (f : State → State) (h : (!s.mayIssue k) = true) : s.issue k f = s := by
  unfold State.issue
  split
  next => rfl
  next hruns =>
    have hslots : (s.slotFor k).openSlots k = 0 := by simpa [State.mayIssue, hruns] using h
    exact if_pos hslots

theorem State.flushCpl_one_none {s : State} (h : (s.host.waitCpl.isEmpty || s.ringFree 65 == 0 || s.flag F.hostifEmerg_DMA_OFF) = true) :
    s.flushCpl 1 = s := by
  unfold State.flushCpl
  split
  next => rfl
  next c rest hwait => rw [if_pos (by simpa [hwait] using h)]

theorem State.reportLost_none {s : State} (h : (s.host.lost.isNone || s.ringFree 66 == 0) = true) : s.reportLost = s := by
  unfold State.reportLost
  split
  next => rfl
  next l hlost => rw [if_pos (by simpa [hlost] using h)]

theorem State.regRead_off {s : State} {a : Nat} (h : (!s.up) = true) : s.regRead a = s := by
  rw [State.regRead, if_pos h]

theorem State.regWrite_off {s : State} {src : WrSrc} {a : Nat} {v : Word} (h : (!s.up) = true) : s.regWrite src a v = s := by
  rw [State.regWrite, if_pos h]

/-! ### The rows one by one -/

theorem execUnassignedOpcode_idle {s : State} {c : Cmd} {opcode : BitVec 16} (h : (!s.takesCmd c opcode.toNat) = true) :
    execUnassignedOpcode c opcode s = .next s := by
  rw [execUnassignedOpcode, h, Bool.or_true, if_pos rfl]

theorem execSpillPartialFlush_idle {s : State} {queue : Fin 2048} {headroom : Bool}
    (h : (if headroom then Tab.get s.fabric.hrOpen [] queue else Tab.get s.fabric.spillOpen [] queue).isEmpty = true) :
    execSpillPartialFlush queue headroom s = .next s := by
  cases headroom with
  | false => exact congrArg (fun x => Host.Outcome.next (s.modFabric fun _ => x)) (if_pos h)
  | true => exact congrArg (fun x => Host.Outcome.next (s.modFabric fun _ => x)) (if_pos h)

theorem execCalOverdue_idle {s : State} {iu : Fin 160} {interp noGap : Bool} {dueTick : Nat}
    (h : (if interp then (s.interpCal iu).why.isNone || (s.interpCal iu).overdue
      else decide (128 ≤ iu.val) || (s.pathCal iu).why.isNone || (s.pathCal iu).overdue) = true) :
    execCalOverdue iu interp noGap dueTick s = .next s := by
  unfold execCalOverdue
  extract_lets u last due since
  have hdue : due = false := by
    cases interp with
    | false => grind [Option.not_isNone]
    | true => grind [Option.not_isNone]
  rw [hdue]; rfl

theorem execWrite_idle {s : State} {src : WrSrc} {addr : Nat} {value : BitVec 32} (h : (!s.up) = true) :
    (.next (if s.up && addr % 4 != 0 then s.badAccess else s.regWrite src addr value) : Host.Outcome State Fault Refusal) = .next s := by
  rw [State.regWrite_off h, if_neg]
  simpa using fun hup => absurd hup (by simpa using h)

theorem execTrap_idle {s : State} {core : Fin 8} {cause : BitVec 8} {val : BitVec 32}
    (h : (cause == 0 || decide (7 < cause.toNat) || !s.mayIssue core) = true) : execTrap core cause val s = .next s := by
  unfold execTrap
  extract_lets c
  split
  next hcause =>
    rw [State.issue_none]
    have hpos : (cause == 0) = false := beq_eq_false_iff_ne.2 (by rintro rfl; simp at hcause)
    have hle : decide (7 < cause.toNat) = false := by simp at hcause ⊢; omega
    rwa [hpos, hle] at h
  next => rfl

theorem execInterruptTaken_idle {s : State} {core : Fin 8}
    (h : ((maskIdx 8 (s.intDue core).toNat).isEmpty || (s.core core).active || !s.mayIssue core) = true) :
    execInterruptTaken core s = .next s := by
  unfold execInterruptTaken
  extract_lets c
  split
  next => rfl
  next i hdue =>
    have hdue : (maskIdx 8 (s.intDue core).toNat).isEmpty = false := by
      cases hl : maskIdx 8 (s.intDue core).toNat with
      | nil => simp [c, hl] at hdue
      | cons => rfl
    split
    next => rfl
    next hact =>
      rw [State.issue_none]
      simpa [hdue, show (s.core core).active = false by simpa using hact] using h

theorem execI2cTransferEnd_idle {s : State} {bus : Fin 16} {ack : Bool} {data : List (BitVec 8)} {stuck : Bool}
    (h : ((s.bus bus).xfers.isEmpty && !stuck) = true) : execI2cTransferEnd bus ack data stuck s = .next s := by
  obtain ⟨hnone, hfree⟩ := (Bool.and_eq_true ..).mp h
  have hempty : (s.bus bus).xfers = [] := List.isEmpty_iff.1 hnone
  obtain rfl : stuck = false := by simpa using hfree
  simp [execI2cTransferEnd, State.when, hempty]

theorem execLongOpSafePoint_idle {s : State} {handle : BitVec 32}
    (h : ((s.longAt handle).all fun o => o.suspend.isNone && (o.state != .running || s.dmaHeld o)) = true) :
    execLongOpSafePoint handle s = .next s := by
  unfold execLongOpSafePoint
  split
  next => rfl
  next o hat =>
    obtain ⟨hsuspend, hstill⟩ : o.suspend.isNone = true ∧ (o.state != .running || s.dmaHeld o) = true := by
      simpa only [hat, Option.all_some, Bool.and_eq_true] using h
    rw [if_neg (by simpa using hsuspend), if_neg]
    intro hrun
    simp at hrun hstill
    simp [hrun] at hstill

theorem execTickPllLock_idle {s : State} (h : (!s.power.aon || s.power.pllLocked) = true) :
    execTickPllLock s = .next s := by
  grind [execTickPllLock]

theorem execMainPor_idle {s : State}
    (h : (!(s.power.aon && s.power.mainPwrEn && s.power.mainReset) || s.power.armed || s.power.pstate == .standby) = true) :
    execMainPor s = .next s := by
  grind [execMainPor]

theorem execMainResetRelease_idle {s : State} {boot : BootInput}
    (h : (!(s.power.aon && s.power.pllLocked && s.power.mainReset && s.power.armed && s.power.mainPwrEn) || s.power.therm) = true) :
    execMainResetRelease boot s = .next s := by
  grind [execMainResetRelease]

theorem execJoinBeat_idle {s : State} (h : (!s.up || s.power.joined || s.fld F.globalBoot_STAGE != 5) = true) :
    execJoinBeat s = .next s := by
  grind [execJoinBeat]

theorem execDipExit_idle {s : State} {lows : List RailLow} (h : (s.power.dip.isNone) = true) :
    execDipExit lows s = .next s := by
  grind [execDipExit]

theorem execDipLong_idle {s : State} {lows : List RailLow} (h : (s.power.dip.isNone) = true) :
    execDipLong lows s = .next s := by
  grind [execDipLong]

theorem execStandbyWake_idle {s : State}
    (h : (!(s.power.aon && s.power.pstate == .standby) || s.power.wakePassed || !s.power.wake.any (fun t => decide (t ≤ s.now))) = true) :
    execStandbyWake s = .next s := by
  grind [execStandbyWake]

theorem execQuietDrainEnd_idle {s : State}
    (h : (!(s.up && s.power.trans.any fun t => t.phase == .drain && decide (t.since + 1600000 * t.drainMs ≤ s.time.tick))) = true) :
    execQuietDrainEnd s = .next s := by
  grind [execQuietDrainEnd]

theorem execSlotInputTimeout_idle {s : State} {slot : Fin 256}
    (h : (!(s.up && runningSlot (s.slotState slot) && s.slotIdle slot) || s.inDip) = true) :
    execSlotInputTimeout slot s = .next s := by
  grind [execSlotInputTimeout]

theorem execSessionUnitEnd_idle {s : State} {sess : Fin 4096} (h : (!s.up || ss.delay (s.sess sess).cfg == 2 && (s.sess sess).state == 0) = true) :
    execSessionUnitEnd sess s = .next s := by
  grind [execSessionUnitEnd]

theorem execSessionTx_idle {s : State} {sess : Fin 4096} {mtype : Fin 3} {k : Nat}
    (h : (!s.up || (s.sess sess).state == 0 || !s.portUp (ss.port (s.sess sess).cfg)) = true) :
    execSessionTx sess mtype k s = .next s := by
  grind [execSessionTx]

theorem execPtpRx_idle {s : State} {frame : Nat} {icv : Icv} (h : ((s.servo.inbox.find? (·.id = frame)).all (·.ptp.isNone)) = true) :
    execPtpRx frame icv s = .next s := by
  grind [execPtpRx]

theorem execKlWindowEnd_idle {s : State} {sess : Fin 4096} (h : (!s.up || (s.sess sess).state == 0 || ss.delay (s.sess sess).cfg != 2) = true) :
    execKlWindowEnd sess s = .next s := by
  grind [execKlWindowEnd]

theorem execKlReportRx_idle {s : State} {lane : Fin 128} {frame : Nat}
    (h : ((s.servo.inbox.find? (·.id = frame)).all fun x => x.ptp.isSome || x.port != lane.val) = true) :
    execKlReportRx lane frame s = .next s := by
  grind [execKlReportRx]

theorem execHoTtsExpire_idle {s : State} {d : Fin 4}
    (h : (s.dpllState d != 3 || s.fld (F.dpllHoTts_TTS d) != 0 || s.flag (F.dpllStatus_HO_SPEC_EXCEEDED d)) = true) :
    execHoTtsExpire d s = .next s := by
  grind [execHoTtsExpire]

theorem execHoldoverLearnSample_idle {s : State} {d : Fin 4}
    (h : ((s.host.longOps.find? fun o => o.op == 0x0902 && o.cmd.fld 0 1 == d.val && o.state == .running).isNone || s.dpllState d != 2) = true) :
    execHoldoverLearnSample d s = .next s := by
  grind [execHoldoverLearnSample]

theorem execHeartbeat_idle {s : State} {core : Fin 2} {wire : Bool} {beatNo : Nat}
    (h : (!s.up || !(s.fld (F.coreStatus_STATE core) == 1 || s.fld (F.coreStatus_STATE core) == 2) || (!wire && beatNo != s.beat)) = true) :
    execHeartbeat core wire beatNo s = .next s := by
  grind [execHeartbeat]

theorem execBoardIntlkTake_idle {s : State} (h : (!(s.up && s.boardOk && s.boardFree) || s.flag F.redundStatus_BOARD_HOLD) = true) :
    execBoardIntlkTake s = .next s := by
  grind [execBoardIntlkTake]

theorem execSignalLoss_idle {s : State} {port : Fin 128} {mask : BitVec 8} (h : (!(s.up && s.validPort port) || s.heldL1 port) = true) :
    execSignalLoss port mask s = .next s := by
  grind [execSignalLoss]

theorem execLockLost_idle {s : State} {port : Fin 128} {mask : BitVec 8}
    (h : (!(s.up && s.validPort port && s.link port == 5) || (s.lane port).partnerL1) = true) :
    execLockLost port mask s = .next s := by
  grind [execLockLost]

theorem execAdaptBurst_idle {s : State} {lane : Fin 128} {code : BitVec 8}
    (h : (!(s.up && (s.owner lane).any s.portUp && s.burstDue lane) || bitAt s.cal.eye.toNat lane) = true) :
    execAdaptBurst lane code s = .next s := by
  grind [execAdaptBurst]

theorem execUcodeLoadDone_idle {s : State} {group : Fin 32} {result : Fin 3}
    (h : ((s.host.longOps.find? fun o => o.loadsUcode && o.ucodeGroup == group.val).isNone) = true) :
    execUcodeLoadDone group result s = .next s := by
  grind [execUcodeLoadDone]

theorem execPauseExpire_idle {s : State} {port : Fin 128} {pri : Fin 8}
    (h : (Tab.get (s.mac port).pauseEnd 0 pri == 0 || decide (s.time.tick < Tab.get (s.mac port).pauseEnd 0 pri)) = true) :
    execPauseExpire port pri s = .next s := by
  grind [execPauseExpire]

theorem execPauseStorm_idle {s : State} {port : Fin 128} {pris : BitVec 8} (h : (!s.up || s.fld (F.portStorm_MS port) == 0) = true) :
    execPauseStorm port pris s = .next s := by
  grind [execPauseStorm]

theorem execPipeDecision_idle {s : State} {frame : Nat} (h : ((s.frame frame).all (·.decided)) = true) :
    execPipeDecision frame s = .next s := by
  grind [execPipeDecision]

theorem execFcsCheckDone_idle {s : State} {frame : Nat} (h : ((s.frame frame).all (·.checked)) = true) :
    execFcsCheckDone frame s = .next s := by
  grind [execFcsCheckDone]

theorem execAgeVisit_idle {s : State} {pipe : Fin 4} {index : Nat}
    (h : ((Tab.find index (s.pipe pipe).fwd.mac).all fun e => e.view != 0 || !s.up || s.inDip || s.replaced 3) = true) :
    execAgeVisit pipe index s = .next s := by
  grind [execAgeVisit]

theorem execAgeRemove_idle {s : State} {pipe : Fin 4} {index : Nat}
    (h : ((Tab.find index (s.pipe pipe).fwd.mac).all fun e => !(e.view == 0 && e.age == 3 && !e.hit && s.ageing pipe)) = true) :
    execAgeRemove pipe index s = .next s := by
  grind [execAgeRemove]

theorem execFrameTx_idle {s : State} {port : Fin 128} {st : StampIn}
    (h : ((Tab.get s.fabric.tx none port).isNone && (s.mac port).sending.isNone) = true) :
    execFrameTx port st s = .next s := by
  grind [execFrameTx]

theorem execRefillDone_idle {s : State} {queue : Fin 2048} {stack : Fin 4} {corrected : Nat} {bad : List (Fin 8)}
    (h : ((s.refillRun (queue.val / 16) (queue.val % 16)).isEmpty ||
      decide (s.fld (F.eqSpill_REFILL queue) ≤ s.onDieHead (queue.val / 16) (queue.val % 16))) = true) :
    execRefillDone queue stack corrected bad s = .next s := by
  grind [execRefillDone]

theorem execMapoutDone_idle {s : State} {stack : Fin 4} {corrected : Nat} {lost : List CellRef}
    (h : (s.fabric.evac.all fun e => e.1 != stack.val) = true) :
    execMapoutDone stack corrected lost s = .next s := by
  grind [execMapoutDone]

theorem execMcAbandon_idle {s : State} {frame : Nat} {egress : Fin 128}
    (h : ((s.fabric.voq.find? fun x => x.frame == frame && x.q == egress.val && x.mc).all fun x => !s.waitOver x) = true) :
    execMcAbandon frame egress s = .next s := by
  grind [execMcAbandon]

theorem execPortHoldExpired_idle {s : State} {port : Fin 128}
    (h : (s.fld (F.fabricPort_HOLD_STATE port) != 1 || s.portUp port ||
      decide (s.time.tick < Tab.get s.fabric.holdTick 0 port + 1600000 * max 1 (s.fld (F.fabricPort_PORT_DOWN_HOLD_MS port)))) = true) :
    execPortHoldExpired port s = .next s := by
  grind [execPortHoldExpired]

theorem execSnapshotXferDone_idle {s : State} (h : (s.ports.xfer.isNone) = true) :
    execSnapshotXferDone s = .next s := by
  grind [execSnapshotXferDone]

theorem execEvoutPulse_idle {s : State} {evout : Fin 16} {trailing : Bool}
    (h : (if evout.val = 0 then !(s.power.aon && s.power.pllLocked) else !s.up) = true) :
    execEvoutPulse evout trailing s = .next s := by
  grind [execEvoutPulse]

theorem execCalTempCheck_idle {s : State} {sensor : Fin 145} {temp : BitVec 16} (h : (sensor.val != 144 && !s.up) = true) :
    execCalTempCheck sensor temp s = .next s := by
  grind [execCalTempCheck]

theorem execCalPeriodDue_idle {s : State} {lane : Fin 128}
    (h : (!(s.joinedBeat && s.flag (F.laneCalCfg_AUTO lane) && s.periodOver lane) || (s.pathCal lane).periodFired) = true) :
    execCalPeriodDue lane s = .next s := by
  grind [execCalPeriodDue]

theorem execCalChunkDone_idle {s : State} {iu : Fin 160} {path : Fin 4} {r : ChunkRes}
    (h : (!(s.interpCal iu).running || (s.interpCal iu).path != path.val) = true) :
    execCalChunkDone iu path r s = .next s := by
  grind [execCalChunkDone]

theorem execPcieLinkRecovery_idle {s : State} {entered : Bool}
    (h : (if entered then s.host.recovery.isSome || !s.up || !s.flag F.hostifStatus_LINK_UP else s.host.recovery.isNone) = true) :
    execPcieLinkRecovery entered s = .next s := by
  simp only [execPcieLinkRecovery]
  grind

theorem execDoorbellData_idle {s : State} {d : DoorbellData} (h : (s.host.fetch.all fun f => d.fetch != f.seq) = true) :
    execDoorbellData d s = .next s := by
  grind [execDoorbellData]

theorem execDoorbellDeadline_idle {s : State} (h : (s.host.fetch.isNone) = true) :
    execDoorbellDeadline s = .next s := by
  grind [execDoorbellDeadline]

theorem execTxDescriptor_idle {s : State} {q : Fin 32} {descs : List TxDesc} {data : List (BitVec 8)}
    (h : ((txFrame descs).isEmpty || !s.up || !s.ringOn q || s.flag F.hostifEmerg_TX_STOP || s.flag F.hostifEmerg_DMA_OFF) = true) :
    execTxDescriptor q descs data s = .next s := by
  grind [execTxDescriptor]

theorem execRxWriteback_idle {s : State} {q : Fin 32}
    (h : ((s.fabric.rxq.find? fun x => x.ring == q.val).isNone || s.flag F.hostifEmerg_DMA_OFF) = true) :
    execRxWriteback q s = .next s := by
  grind [execRxWriteback]

theorem execCmdTimeout_idle {s : State} {cmd : Nat} (h : ((s.parkedAt cmd).isNone) = true) :
    execCmdTimeout cmd s = .next s := by
  grind [execCmdTimeout]

theorem execI2cRetry_idle {s : State} {bus : Fin 16}
    (h : (!(s.bus bus).xfers.head?.any fun x => x.retryAt.any fun t => decide (t ≤ s.time.tick)) = true) :
    execI2cRetry bus s = .next s := by
  grind [execI2cRetry]

theorem execLongOpFinal_idle {s : State} {handle : BitVec 32} {r : LongResult}
    (h : ((s.longAt handle).all fun o => o.state != .running || s.flashHeld o || s.dmaHeld o) = true) :
    execLongOpFinal handle r s = .next s := by
  grind [execLongOpFinal]

theorem execProfileEraseDone_idle {s : State} (h : (!s.sec.erasing || s.inDip) = true) :
    execProfileEraseDone s = .next s := by
  grind [execProfileEraseDone]

theorem execCoreWake_idle {s : State} {core : Fin 8}
    (h : ((s.core core).sleep.all fun w => !(s.up && s.coreState core == 2 && s.awaited core w)) = true) :
    execCoreWake core s = .next s := by
  grind [execCoreWake]

theorem execTagCountdown_idle {s : State} {core : Fin 8} (h : (!s.running core || s.tagK core == 0 || (s.core core).countdown != 0) = true) :
    execTagCountdown core s = .next s := by
  grind [execTagCountdown]

theorem execSpillWriteDone_idle {s : State} {queue : Fin 2048} {headroom : Bool}
    (h : ((if headroom then Tab.get s.fabric.hrUnits [] queue else Tab.get s.fabric.spillUnits [] queue).isEmpty || (s.inDip && !headroom)) = true) :
    execSpillWriteDone queue headroom s = .next s := by
  grind [execSpillWriteDone]

theorem execHostReadCompletion_idle {s : State} {readId : Nat} (h : ((Tab.find readId s.host.reads).isNone) = true) :
    execHostReadCompletion readId s = .next s := by
  grind [execHostReadCompletion]

theorem execMacFlushScanEnd_idle {s : State} (h : (s.pipes.flush.isEmpty) = true) :
    execMacFlushScanEnd s = .next s := by
  grind [execMacFlushScanEnd]

/-- A row that finds nothing to act on, and a command that CORE4 does not come to, leave the state as it was. -/
theorem exec_idle {i : Instr} {s : State} (h : i.idle s = true) : exec i s = .next s := by
  cases i with
  | islandReset => exact absurd h Bool.false_ne_true
  | vaultOnlyEntry => exact next_of_closed h
  | tickPllLock => exact execTickPllLock_idle h
  | mainPwrEnHigh => exact next_of_closed h
  | seqOrderViolation _ => exact absurd h Bool.false_ne_true
  | powerupTimeout _ => exact absurd h Bool.false_ne_true
  | powerupRetry => exact next_of_closed h
  | mainPor => exact execMainPor_idle h
  | supplyReset _ => exact absurd h Bool.false_ne_true
  | pinReset => exact next_of_barred h
  | resetNLong _ => exact next_of_barred h
  | thermtrip => exact next_of_closed h
  | mainResetRelease _ => exact execMainResetRelease_idle h
  | joinBeat => exact execJoinBeat_idle h
  | dipEnter _ => exact next_of_closed h
  | dipExit _ => exact execDipExit_idle h
  | dipLong _ => exact execDipLong_idle h
  | oscLoss => exact next_of_closed h
  | oscReturn => exact next_of_closed h
  | standbyWake => exact execStandbyWake_idle h
  | quietDrainEnd => exact execQuietDrainEnd_idle h
  | standbyRailsOff => exact next_of_closed h
  | beatBoundary => exact next_of_closed h
  | servoCompute => exact next_of_closed h
  | servoDeadline => exact next_of_closed h
  | slotInputTimeout _ => exact execSlotInputTimeout_idle h
  | sessionUnitEnd _ => exact execSessionUnitEnd_idle h
  | sessionTx _ _ _ => exact execSessionTx_idle h
  | fuTimeout _ => exact next_of_closed h
  | ptpRx _ _ => exact execPtpRx_idle h
  | klMarkerRx _ _ _ => exact next_of_barred h
  | klWindowEnd _ => exact execKlWindowEnd_idle h
  | klReportRx _ _ => exact execKlReportRx_idle h
  | esmcRx _ _ => exact next_of_closed h
  | esmcTimeout _ => exact next_of_closed h
  | hoTtsExpire _ => exact execHoTtsExpire_idle h
  | holdoverLearnSample _ => exact execHoldoverLearnSample_idle h
  | synGate _ _ _ => exact next_of_closed h
  | heartbeat _ _ _ => exact execHeartbeat_idle h
  | boardIntlkTake => exact execBoardIntlkTake_idle h
  | boardIntlkSample _ => exact next_of_barred h
  | signalDetect _ => exact next_of_closed h
  | signalLoss _ _ => exact execSignalLoss_idle h
  | anDone _ => exact next_of_closed h
  | trainDone _ _ _ => exact next_of_closed h
  | alignDone _ => exact next_of_closed h
  | attemptTimeout _ => exact next_of_closed h
  | backoffDone _ => exact next_of_closed h
  | lockLost _ _ => exact execLockLost_idle h
  | relockTryEnd _ _ _ => exact next_of_closed h
  | l2ExitDone _ => exact next_of_closed h
  | adaptBurst _ _ => exact execAdaptBurst_idle h
  | ucodeLoadDone _ _ => exact execUcodeLoadDone_idle h
  | frameRx _ _ => exact next_of_barred h
  | pauseRx _ _ => exact next_of_closed h
  | pauseExpire _ _ => exact execPauseExpire_idle h
  | pauseStorm _ _ => exact execPauseStorm_idle h
  | xoffRefresh _ => exact congrArg _ (State.sendPause_none _ h)
  | pipeDecision _ => exact execPipeDecision_idle h
  | fcsCheckDone _ => exact execFcsCheckDone_idle h
  | learnServe _ => exact next_of_closed h
  | ageVisit _ _ => exact execAgeVisit_idle h
  | ageRemove _ _ => exact execAgeRemove_idle h
  | fragExpire _ _ => exact next_of_closed h
  | genDrained _ => exact next_of_closed h
  | sorrelEpoch => exact next_of_closed h
  | egressSelect _ => exact next_of_barred h
  | frameTx _ _ => exact execFrameTx_idle h
  | spillPartialFlush _ _ => exact execSpillPartialFlush_idle h
  | refillDone _ _ _ _ => exact execRefillDone_idle h
  | mapoutDone _ _ _ => exact execMapoutDone_idle h
  | mcAbandon _ _ => exact execMcAbandon_idle h
  | portHoldExpired _ => exact execPortHoldExpired_idle h
  | snapshotXferDone => exact execSnapshotXferDone_idle h
  | evinEdge _ _ _ => exact next_of_closed h
  | refinEdge _ _ _ => exact next_of_closed h
  | measWindowEnd _ => exact next_of_closed h
  | pendingStopExpire _ _ => exact next_of_closed h
  | measPost => exact next_of_closed h
  | fmGateEnd _ => exact next_of_closed h
  | evoutPulse _ _ => exact execEvoutPulse_idle h
  | calTempCheck _ _ => exact execCalTempCheck_idle h
  | calPeriodDue _ => exact execCalPeriodDue_idle h
  | calSlotStart => exact next_of_closed h
  | pathRunDone _ _ => exact next_of_closed h
  | calChunkDone _ _ _ => exact execCalChunkDone_idle h
  | calOverdue _ _ noGap _ => exact execCalOverdue_idle (noGap := noGap) h
  | tamperDetect _ _ => exact next_of_closed h
  | vbatCheck _ => exact next_of_barred h
  | wdtWarn => exact next_of_closed h
  | wdtReset => exact next_of_closed h
  | coreWdtWarn _ => exact next_of_closed h
  | coreWdt _ => exact next_of_closed h
  | perstN => exact next_of_closed h
  | functionLevelReset => exact next_of_closed h
  | dlDown => exact next_of_closed h
  | pcieLinkRecovery _ => exact execPcieLinkRecovery_idle h
  | pcieCto _ _ => exact next_of_barred h
  | doorbellData _ => exact execDoorbellData_idle h
  | doorbellDeadline => exact execDoorbellDeadline_idle h
  | kick => exact congrArg _ (State.kicked_off (Bool.not_eq_eq_eq_not.1 h))
  | txDescriptor _ _ _ => exact execTxDescriptor_idle h
  | rxWriteback _ => exact execRxWriteback_idle h
  | completionWrite => exact congrArg _ (State.flushCpl_one_none h)
  | eventLost => exact congrArg _ (State.reportLost_none h)
  | msixSignal _ => exact next_of_closed h
  | cmdTimeout _ => exact execCmdTimeout_idle h
  | unassignedOpcode _ _ => exact execUnassignedOpcode_idle h
  | profileApply _ _ => exact next_of_barred h
  | powerStateSet _ => exact next_of_barred h
  | chipReset _ => exact next_of_barred h
  | domainReset _ => exact next_of_barred h
  | laneRetrain _ => exact next_of_barred h
  | laneQuarantine _ => exact next_of_barred h
  | lanePower _ => exact next_of_barred h
  | laneUcodeLoad _ => exact next_of_barred h
  | laneEyeScan _ => exact next_of_barred h
  | statsSnapshot _ => exact next_of_barred h
  | modRead _ => exact next_of_barred h
  | modWrite _ => exact next_of_barred h
  | modSideband _ => exact next_of_barred h
  | i2cRetry _ => exact execI2cRetry_idle h
  | sgpioScan _ => exact next_of_closed h
  | modPresent _ _ => exact next_of_closed h
  | genCommit _ => exact next_of_barred h
  | genDiscard _ => exact next_of_barred h
  | parseLoad _ _ _ => exact next_of_barred h
  | fragFlush _ => exact next_of_barred h
  | tableBulk _ _ => exact next_of_barred h
  | macFlush _ => exact next_of_barred h
  | deepbufMapout _ => exact next_of_barred h
  | deepbufScrub _ => exact next_of_barred h
  | tcntWrite _ => exact next_of_barred h
  | sessionSet _ => exact next_of_barred h
  | sessionRead _ => exact next_of_barred h
  | slotAccept _ => exact next_of_barred h
  | calSweep _ => exact next_of_barred h
  | calHold _ => exact next_of_barred h
  | refForce _ => exact next_of_barred h
  | holdoverLearn _ => exact next_of_barred h
  | dpllHistReset _ => exact next_of_barred h
  | freqLong _ => exact next_of_barred h
  | pulseLoad _ => exact next_of_barred h
  | pairRejoin _ => exact next_of_barred h
  | pairSwap _ => exact next_of_barred h
  | longCtrl _ => exact next_of_barred h
  | longQuery _ => exact next_of_barred h
  | longOpFinal _ _ => exact execLongOpFinal_idle h
  | nop _ => exact next_of_barred h
  | memCopy _ _ _ => exact next_of_barred h
  | updStage _ _ => exact next_of_barred h
  | updInstall _ => exact next_of_barred h
  | updCommit _ => exact next_of_barred h
  | profileEraseDone => exact execProfileEraseDone_idle h
  | updDiscard _ => exact next_of_barred h
  | keyWrite _ => exact next_of_barred h
  | keyHmac _ _ => exact next_of_barred h
  | tamperClear _ => exact next_of_barred h
  | fuseCust _ => exact next_of_barred h
  | mbPost _ _ => exact next_of_closed h
  | resetCtrlChip _ _ => exact next_of_closed h
  | wdtKick _ _ => exact next_of_closed h
  | wdtCtrlWrite _ _ => exact next_of_closed h
  | snapGo _ _ => exact absurd h Bool.false_ne_true
  | slotUpd _ _ _ => exact absurd h Bool.false_ne_true
  | linkUpd _ _ _ => exact next_of_closed h
  | synUpd _ _ _ => exact absurd h Bool.false_ne_true
  | evoutLoad _ _ _ => exact absurd h Bool.false_ne_true
  | swrateCommit _ _ _ => exact absurd h Bool.false_ne_true
  | dpllOpen _ _ _ => exact absurd h Bool.false_ne_true
  | saCommit _ _ _ => exact next_of_closed h
  | candCfgWrite _ _ _ _ => exact absurd h Bool.false_ne_true
  | laneGrpWrite _ _ _ => exact next_of_closed h
  | laneCfgWrite _ _ _ _ => exact next_of_closed h
  | loopSet _ _ _ => exact next_of_closed h
  | imCfgWrite _ _ _ _ => exact absurd h Bool.false_ne_true
  | fmCfgWrite _ _ _ _ => exact absurd h Bool.false_ne_true
  | winRead _ _ => exact next_of_closed h
  | winWrite _ _ => exact next_of_closed h
  | winRemove _ _ => exact next_of_closed h
  | twinRead _ _ => exact absurd h Bool.false_ne_true
  | twinWrite _ _ => exact absurd h Bool.false_ne_true
  | twinRemove _ _ => exact absurd h Bool.false_ne_true
  | twinLookup _ _ => exact absurd h Bool.false_ne_true
  | twinInject _ _ => exact absurd h Bool.false_ne_true
  | bankHandover _ _ _ => exact next_of_closed h
  | quadHandover _ _ _ => exact next_of_closed h
  | bankHandoverDone _ => exact next_of_closed h
  | bankPower _ _ _ => exact next_of_closed h
  | tagPop _ => exact next_of_closed h
  | fetchNow => exact congrArg _ (State.fetchNow_off (Bool.not_eq_eq_eq_not.1 h))
  | dmaOff _ => exact next_of_closed h
  | txStop _ => exact next_of_closed h
  | ringEnable _ _ => exact next_of_closed h
  | ringDisable _ _ => exact next_of_closed h
  | ctoConfigWrite _ => exact next_of_closed h
  | tamperCfgWrite _ _ _ => exact next_of_barred h
  | badAccess _ _ => exact next_of_barred h
  | counterRead _ => exact congrArg _ (State.regRead_off h)
  | rcRead _ => exact congrArg _ (State.regRead_off h)
  | w1cWrite _ _ _ => exact execWrite_idle h
  | registerWrite _ _ _ => exact execWrite_idle h
  | beatAck _ _ => exact next_of_closed h
  | coreWdtKick _ _ => exact next_of_closed h
  | evtRelease _ _ => exact next_of_closed h
  | rv32imcInstruction _ _ => exact congrArg _ (State.issue_none _ h)
  | ksTsnap _ _ _ => exact congrArg _ (State.issue_none _ h)
  | ksTget _ _ _ => exact congrArg _ (State.issue_none _ h)
  | ksWfb _ _ => exact congrArg _ (State.issue_none _ h)
  | ksWfe _ _ => exact congrArg _ (State.issue_none _ h)
  | coreWake _ => exact execCoreWake_idle h
  | ksCrc _ _ _ _ _ => exact congrArg _ (State.issue_none _ h)
  | ksPcnt _ _ _ => exact congrArg _ (State.issue_none _ h)
  | ksTret _ => exact congrArg _ (State.issue_none _ h)
  | trap _ _ _ => exact execTrap_idle h
  | interruptTaken _ => exact execInterruptTaken_idle h
  | perfWrap _ _ => exact next_of_closed h
  | tagCountdown _ => exact execTagCountdown_idle h
  | vbatLoss => exact next_of_barred h
  | l1ExitDone _ => exact next_of_closed h
  | pauseStormEnd _ _ => exact next_of_closed h
  | klMarkerTx _ _ => exact next_of_barred h
  | spillWriteDone _ _ => exact execSpillWriteDone_idle h
  | pcieLinkUp _ _ => exact next_of_closed h
  | hostReadCompletion _ => exact execHostReadCompletion_idle h
  | i2cTransferEnd _ _ _ _ => exact execI2cTransferEnd_idle h
  | macFlushScanEnd => exact execMacFlushScanEnd_idle h
  | bankPowerReached _ => exact next_of_closed h
  | longOpSafePoint _ => exact execLongOpSafePoint_idle h

end Sys2Proof.Machine
end

section
/-!
How every command starts (O49): the refusals that CORE4 makes for all commands alike, long operations, and the arguments and states that a
command's own rule turns away.
-/
namespace Sys2Proof.Machine
open Sys2Proof

/-! ### CORE4 comes to a command, holds it, or refuses it -/

theorem State.fetched_bootStage (s : State) (c : Cmd) : (s.fetched c).fld F.globalBoot_STAGE = s.fld F.globalBoot_STAGE :=
  State.fetched_writes.fld (isApart_at rfl)

theorem State.start_held {s : State} {c : Cmd} {op : Nat} (ok : Bool) (body : State → State) (h : s.takesCmd c op = true)
    (hheld : s.cmdHeld c op = true) : s.start c op ok body = s.cmdWaits c := by
  rw [State.start, h, hheld]; rfl

theorem State.mayStart_iff {s : State} {c : Cmd} {op : Nat} : s.mayStart c op = true ↔ s.takesCmd c op = true ∧ s.cmdHeld c op = false := by
  rw [State.mayStart, Bool.and_eq_true, Bool.not_eq_true']

theorem State.start_barred {s : State} {c : Cmd} {op k i : Nat} (ok : Bool) (body : State → State) (h : s.mayStart c op = true)
    (huser : c.user = some (k, i)) (hop : op ≠ 0x0C03) (hbar : bitAt ((s.fetched c).fld (F.coreMb_ALLOW (k - 6))) (op / 256) = false) :
    s.start c op ok body = (s.fetched c).complete c op st.badState := by
  obtain ⟨htakes, hheld⟩ := State.mayStart_iff.1 h
  simp [State.start, htakes, hheld, huser, hop, hbar]

theorem State.start_recovery {s : State} {c : Cmd} {op : Nat} (ok : Bool) (body : State → State) (h : s.mayStart c op = true)
    (huser : c.user = none) (hstage : s.fld F.globalBoot_STAGE = 15) (hop : op ∉ [0x0C03, 0x0E01, 0x0103, 0x0E03]) :
    s.start c op ok body = (s.fetched c).complete c op st.badState := by
  obtain ⟨htakes, hheld⟩ := State.mayStart_iff.1 h
  have hstage' := (s.fetched_bootStage c).trans hstage
  simp only [List.mem_cons, List.not_mem_nil, or_false, not_or] at hop
  simp [State.start, htakes, hheld, huser, hstage', hop]

theorem State.takesCmd_none {s : State} {c : Cmd} {op : Nat}
    (h : s.serving = false ∨ s.turn ≠ c.source ∨ 256 ≤ s.host.parked.length + s.host.waitCpl.length) : s.takesCmd c op = false := by
  rw [State.takesCmd, State.inProgress]
  obtain hoff | hturn | hfull := h
  · simp [hoff]
  · simp [hturn]
  · simp [Nat.not_lt.2 hfull]

/-- A command that has to wait passes the turn on, and is not in progress. -/
theorem State.cmdWaits_shows (s : State) (c : Cmd) :
    (s.cmdWaits c).host.turn = (c.source + 1) % 3 ∧ (s.cmdWaits c).host.parked = s.host.parked ∧
    (s.cmdWaits c).host.waitCpl = s.host.waitCpl ∧ (s.cmdWaits c).regs = s.regs := by
  unfold State.cmdWaits
  extract_lets passed
  split
  · exact ⟨rfl, rfl, rfl, rfl⟩
  · exact ⟨rfl, rfl, rfl, rfl⟩

theorem State.fenced_of_earlier {s : State} {c : Cmd} (hfence : bitAt c.flags.toNat 0 = true)
    (hnone : Tab.find c.source s.host.fenceAt = none) (hearlier : ∃ p ∈ s.host.parked, p.id < s.host.nextId) : s.fenced c = true := by
  obtain ⟨p, hp, hid⟩ := hearlier
  rw [State.fenced, hfence, hnone, Bool.true_and, List.any_eq_true]
  exact ⟨p, hp, decide_eq_true hid⟩

theorem State.cmdWaits_fenceAt {s : State} {c : Cmd} (hfenced : s.fenced c = true) (hnone : Tab.find c.source s.host.fenceAt = none) :
    Tab.find c.source (s.cmdWaits c).host.fenceAt = some s.host.nextId := by
  have hfenced' : (s.turnPasses c).fenced c = true := hfenced
  have hnone' : Tab.find c.source (s.turnPasses c).host.fenceAt = none := hnone
  rw [State.cmdWaits, if_pos hfenced', hnone']
  exact Tab.find_ins_same ..

/-! ### A long operation is accepted (spec/15 R475) -/

/-- Its slot is free: no operation in the list has the handle that the next one gets. -/
theorem State.handle_fresh {s : State} {k : Nat} (hk : s.freeLong = some k) (q : BitVec 16) {o : LongOp} (ho : o ∈ s.host.longOps) :
    o.handle ≠ BitVec.ofNat 32 (q.toNat * 2 ^ 16 + k) := by
  have hfree := List.find?_some hk
  have hslot : k < 64 := List.mem_range.1 (List.mem_of_find?_eq_some hk)
  have hne : o.handle.toNat % 64 ≠ k := of_decide_eq_true (List.all_eq_true.1 hfree o ho)
  rintro heq
  rw [heq, BitVec.toNat_ofNat] at hne
  have := q.isLt
  omega

/-- Marking the newest operation as started changes no other. -/
theorem longOps_started {l : List LongOp} {o : LongOp} (hfresh : ∀ x ∈ l, x.handle ≠ o.handle) :
    ((l ++ [o]).map fun x => if x.handle = o.handle then { x with started := true } else x) = l ++ [{ o with started := true }] := by
  rw [List.map_append, List.map_singleton, if_pos rfl, List.map_congr_left fun x hx => if_neg (hfresh x hx), List.map_id']

theorem State.startLong_appends {s : State} (c : Cmd) (op res total : Nat) (args : List Nat) (hbar : s.longBarred = false)
    (hfree : s.freeLong.isSome = true) :
    ∃ o, (s.startLong c op res total args).host.longOps = s.host.longOps ++ [o] ∧ o.cmd = c ∧ o.op = op ∧ o.res = res ∧ o.total = total ∧
      o.args = args ∧ o.state = if (s.host.longOps.any fun x => x.res == res && x.state != .suspended) then .queued else .running := by
  generalize hr : s.startLong c op res total args = r
  rw [State.startLong, hbar, if_neg Bool.false_ne_true] at hr
  split at hr
  next hk => exact absurd hfree (by simp [hk])
  next k hk =>
    extract_lets q h busy o host queued accepted at hr
    have haccepted : accepted.host.longOps = s.host.longOps ++ [o] := State.complete_longOps ..
    have hstate : o.state = if (s.host.longOps.any fun x => x.res == res && x.state != .suspended) then .queued else .running := rfl
    split at hr
    next => exact ⟨o, hr ▸ haccepted, rfl, rfl, rfl, rfl, rfl, hstate⟩
    next =>
      refine ⟨{ o with started := true }, ?_, rfl, rfl, rfl, rfl, rfl, hstate⟩
      rw [← hr, State.modLong, haccepted]
      exact longOps_started (o := o) fun x hx => State.handle_fresh hk _ hx

theorem State.startLong_full {s : State} (c : Cmd) (op res total : Nat) (args : List Nat) (hbar : s.longBarred = false)
    (hfree : s.freeLong = none) : s.startLong c op res total args = s.complete c op st.noResource := by
  rw [State.startLong, hbar, hfree]; rfl

/-! ### The arguments and the state that a command's own rule turns away -/

/-- Outcome `r` is command `c` of opcode `op`, begun with arguments that are `ok` or not, whose rule turns it away with the status `turned` says. -/
def Begins (c : Cmd) (op : Nat) (s : State) (ok : Bool) (turned : Option Nat) (r : Host.Outcome State Fault Refusal) : Prop :=
  ∃ body : State → State, r = .next (s.start c op ok body) ∧ ∀ e, turned = some e → body (s.fetched c) = (s.fetched c).complete c op e

theorem Begins.same {c : Cmd} {op : Nat} {s : State} {ok ok' : Bool} {turned : Option Nat} {r : Host.Outcome State Fault Refusal}
    (hok : ok = ok') (h : Begins c op s ok turned r) : Begins c op s ok' turned r := hok ▸ h

/-- A command whose rule turns it away in no state. -/
theorem Begins.never {c : Cmd} {op : Nat} {s : State} {ok : Bool} (body : State → State) :
    Begins c op s ok none (.next (s.start c op ok body)) := ⟨body, rfl, nofun⟩

/-- A command whose rule turns it away with status `e` where `P` holds. -/
theorem Begins.unless {c : Cmd} {op : Nat} {s : State} {ok : Bool} {P : Prop} [Decidable P] (e : Nat) (body : State → State)
    (h : P → body (s.fetched c) = (s.fetched c).complete c op e) :
    Begins c op s ok (if P then some e else none) (.next (s.start c op ok body)) := by
  refine ⟨body, rfl, fun e' he => ?_⟩
  split at he
  next hP => exact Option.some.inj he ▸ h hP
  next => exact nomatch he

/-! #### Arguments whose form the command writes in another way -/

theorem domainReset_argsOk (c : Cmd) (s : State) :
    (c.ok 4 [(1, 1)] && match c.fld 0 1 with
      | 0 => decide (c.fld 2 2 < 32)
      | 2 => decide (c.fld 2 2 < 4)
      | 3 => decide (2 ≤ c.fld 2 2) && decide (c.fld 2 2 < 8)
      | 4 | 5 => c.fld 2 2 == 0
      | 1 => s.portExists (c.fld 2 2)
      | _ => false) = (Instr.domainReset c).argsOk s := by
  unfold Instr.argsOk
  congr 1
  split
  case h_7 => grind
  all_goals simp [*]

theorem tableBulk_argsOk (c : Cmd) (records : List BulkRec) (s : State) :
    (c.ok 16 [(3, 1)] && decide (c.fld 0 1 < 16) && decide (c.fld 1 1 < 8) && decide (c.fld 2 1 < 2) && c.fld 8 8 % 64 == 0 &&
      !(c.fld 2 1 == 0 && c.fld 1 1 == 7) && !(!(c.fld 2 1 == 0) && c.fld 1 1 == 6) &&
      (c.fld 2 1 == 0 || (maskIdx 4 (c.fld 0 1)).length == 1) && s.bufOk c.src (c.fld 8 8) (32 * c.fld 4 4)) =
    (Instr.tableBulk c records).argsOk s := by
  unfold Instr.argsOk
  rw [Bool.eq_iff_iff]
  simp
  grind

theorem tcntWrite_argsOk (c : Cmd) (s : State) :
    (c.ok 28 [(2, 2), (14, 2)] && decide (c.fld 0 1 < 32) && decide (c.fld 1 1 < 3) &&
      (if c.fld 1 1 = 0 then decide (c.fld 22 4 < 1000000000) else if c.fld 1 1 = 1 then c.fld 24 4 == 0
        else c.fld 22 6 == 0 && decide (incrMin (c.fld 0 1) ≤ c.fld 16 6) && decide (c.fld 16 6 ≤ incrMax (c.fld 0 1))) &&
      s.nameOk (c.fld 10 4) (boundaryName (c.fld 4 6) (c.fld 10 4))) = (Instr.tcntWrite c).argsOk s := by
  unfold Instr.argsOk
  rw [Bool.eq_iff_iff]
  simp
  grind

theorem mode_is_three {m : Nat} (h : m < 4) : (!(bitAt m 0 && bitAt m 1)) = (m != 3) := by
  have hall : ∀ j < 4, (!(bitAt j 0 && bitAt j 1)) = (j != 3) := by decide
  exact hall m h

theorem pairRejoin_argsOk (c : Cmd) (s : State) :
    (c.ok 8 [(2, 2)] && decide (c.fld 0 1 < 2) && decide (c.fld 1 1 < 4) &&
      (!(bitAt (c.fld 1 1) 0 && bitAt (c.fld 1 1) 1) || (s.stagedImage (c.fld 4 4)).any fun i => i.component == 1)) =
    (Instr.pairRejoin c).argsOk s := by
  unfold Instr.argsOk
  by_cases hmode : c.fld 1 1 < 4
  · rw [mode_is_three hmode]
  · simp [hmode]

/-! #### States that a command's rule turns away in more than one way -/

theorem execLaneRetrain_begins (c : Cmd) (s : State) :
    Begins c 0x0201 s ((Instr.laneRetrain c).argsOk s) ((Instr.laneRetrain c).turnedAway (s.fetched c)) (execLaneRetrain c s) := by
  refine ⟨_, rfl, fun e he => ?_⟩
  unfold Instr.turnedAway at he
  dsimp only at he
  grind

theorem execLaneQuarantine_begins (c : Cmd) (s : State) :
    Begins c 0x0202 s ((Instr.laneQuarantine c).argsOk s) ((Instr.laneQuarantine c).turnedAway (s.fetched c)) (execLaneQuarantine c s) := by
  refine ⟨_, rfl, fun e he => ?_⟩
  unfold Instr.turnedAway at he
  dsimp only at he
  grind

theorem execLanePower_begins (c : Cmd) (s : State) :
    Begins c 0x0203 s ((Instr.lanePower c).argsOk s) ((Instr.lanePower c).turnedAway (s.fetched c)) (execLanePower c s) := by
  refine ⟨_, rfl, fun e he => ?_⟩
  unfold Instr.turnedAway at he
  dsimp only at he
  grind

theorem execLaneUcodeLoad_begins (c : Cmd) (s : State) :
    Begins c 0x0204 s ((Instr.laneUcodeLoad c).argsOk s) ((Instr.laneUcodeLoad c).turnedAway (s.fetched c)) (execLaneUcodeLoad c s) := by
  refine ⟨_, rfl, fun e he => ?_⟩
  unfold Instr.turnedAway at he
  dsimp only at he
  grind

theorem execStatsSnapshot_begins (c : Cmd) (s : State) :
    Begins c 0x0301 s ((Instr.statsSnapshot c).argsOk s) ((Instr.statsSnapshot c).turnedAway (s.fetched c)) (execStatsSnapshot c s) := by
  refine ⟨_, rfl, fun e he => ?_⟩
  unfold Instr.turnedAway at he
  dsimp only at he
  grind

theorem State.modAccess_absent {s : State} {c : Cmd} (op : Nat) (write : Bool) {e : Nat}
    (h : (if !s.flag (F.portMod_PRESENT (c.fld 0 1)) then some st.badState else none) = some e) :
    s.modAccess c op write = s.complete c op e := by
  unfold State.modAccess
  grind

theorem execGenDiscard_begins (c : Cmd) (s : State) :
    Begins c 0x0402 s ((Instr.genDiscard c).argsOk s) ((Instr.genDiscard c).turnedAway (s.fetched c)) (execGenDiscard c s) := by
  refine ⟨_, rfl, fun e he => ?_⟩
  unfold Instr.turnedAway at he
  dsimp only at he
  grind

theorem execParseLoad_begins (c : Cmd) (prog : ParseProg) (crcOk : Bool) (s : State) :
    Begins c 0x0403 s ((Instr.parseLoad c prog crcOk).argsOk s) ((Instr.parseLoad c prog crcOk).turnedAway (s.fetched c))
      (execParseLoad c prog crcOk s) := by
  refine ⟨_, rfl, fun e he => ?_⟩
  unfold Instr.turnedAway at he
  dsimp only at he
  grind

theorem execDeepbufMapout_begins (c : Cmd) (s : State) :
    Begins c 0x0501 s ((Instr.deepbufMapout c).argsOk s) ((Instr.deepbufMapout c).turnedAway (s.fetched c)) (execDeepbufMapout c s) := by
  refine ⟨_, rfl, fun e he => ?_⟩
  unfold Instr.turnedAway at he
  dsimp only at he
  grind

theorem execTcntWrite_begins (c : Cmd) (s : State) :
    Begins c 0x0601 s ((Instr.tcntWrite c).argsOk s) ((Instr.tcntWrite c).turnedAway (s.fetched c)) (execTcntWrite c s) := by
  refine .same (tcntWrite_argsOk c s) ⟨_, rfl, fun e he => ?_⟩
  unfold Instr.turnedAway at he
  dsimp only at he
  grind

theorem execSessionSet_begins (c : Cmd) (s : State) :
    Begins c 0x0701 s ((Instr.sessionSet c).argsOk s) ((Instr.sessionSet c).turnedAway (s.fetched c)) (execSessionSet c s) := by
  refine ⟨_, rfl, fun e he => ?_⟩
  unfold Instr.turnedAway at he
  dsimp only at he
  grind

theorem execSlotAccept_begins (c : Cmd) (s : State) :
    Begins c 0x0703 s ((Instr.slotAccept c).argsOk s) ((Instr.slotAccept c).turnedAway (s.fetched c)) (execSlotAccept c s) := by
  refine ⟨_, rfl, fun e he => ?_⟩
  unfold Instr.turnedAway at he
  dsimp only at he
  grind

theorem execPairSwap_begins (c : Cmd) (s : State) :
    Begins c 0x0B02 s ((Instr.pairSwap c).argsOk s) ((Instr.pairSwap c).turnedAway (s.fetched c)) (execPairSwap c s) := by
  refine ⟨_, rfl, fun e he => ?_⟩
  unfold Instr.turnedAway at he
  dsimp only at he
  grind

theorem execLongCtrl_begins (c : Cmd) (s : State) :
    Begins c 0x0C01 s ((Instr.longCtrl c).argsOk s) ((Instr.longCtrl c).turnedAway (s.fetched c)) (execLongCtrl c s) := by
  refine ⟨_, rfl, fun e he => ?_⟩
  unfold Instr.turnedAway at he
  dsimp only at he
  grind

theorem execLongQuery_begins (c : Cmd) (s : State) :
    Begins c 0x0C02 s ((Instr.longQuery c).argsOk s) ((Instr.longQuery c).turnedAway (s.fetched c)) (execLongQuery c s) := by
  refine ⟨_, rfl, fun e he => ?_⟩
  unfold Instr.turnedAway at he
  dsimp only at he
  grind

theorem execUpdInstall_begins (c : Cmd) (s : State) :
    Begins c 0x0E02 s ((Instr.updInstall c).argsOk s) ((Instr.updInstall c).turnedAway (s.fetched c)) (execUpdInstall c s) := by
  refine ⟨_, rfl, fun e he => ?_⟩
  unfold Instr.turnedAway at he
  dsimp only at he
  grind

theorem execKeyHmac_begins (c : Cmd) (data : List (BitVec 8)) (s : State) :
    Begins c 0x0E06 s ((Instr.keyHmac c data).argsOk s) ((Instr.keyHmac c data).turnedAway (s.fetched c)) (execKeyHmac c data s) := by
  refine ⟨_, rfl, fun e he => ?_⟩
  unfold Instr.turnedAway at he
  dsimp only at he
  grind

/-- Every command begins with the arguments that its rule asks for, and is turned away where its rule says. -/
theorem exec_begins {i : Instr} {s : State} {c : Cmd} {op : Nat} (h : i.cmd = some (c, op)) :
    Begins c op s (i.argsOk s) (i.turnedAway (s.fetched c)) (exec i s) := by
  cases i with
  | profileApply _ _ => obtain ⟨rfl, rfl⟩ := Prod.mk.inj (Option.some.inj h); exact .never _
  | powerStateSet _ => obtain ⟨rfl, rfl⟩ := Prod.mk.inj (Option.some.inj h); exact .unless _ _ fun hturned => if_pos hturned
  | chipReset _ => obtain ⟨rfl, rfl⟩ := Prod.mk.inj (Option.some.inj h); exact .never _
  | domainReset _ => obtain ⟨rfl, rfl⟩ := Prod.mk.inj (Option.some.inj h); exact .same (domainReset_argsOk ..) (.unless _ _ fun hturned => if_pos hturned)
  | laneRetrain _ => obtain ⟨rfl, rfl⟩ := Prod.mk.inj (Option.some.inj h); exact execLaneRetrain_begins ..
  | laneQuarantine _ => obtain ⟨rfl, rfl⟩ := Prod.mk.inj (Option.some.inj h); exact execLaneQuarantine_begins ..
  | lanePower _ => obtain ⟨rfl, rfl⟩ := Prod.mk.inj (Option.some.inj h); exact execLanePower_begins ..
  | laneUcodeLoad _ => obtain ⟨rfl, rfl⟩ := Prod.mk.inj (Option.some.inj h); exact execLaneUcodeLoad_begins ..
  | laneEyeScan _ => obtain ⟨rfl, rfl⟩ := Prod.mk.inj (Option.some.inj h); exact .unless _ _ fun hturned => if_pos hturned
  | statsSnapshot _ => obtain ⟨rfl, rfl⟩ := Prod.mk.inj (Option.some.inj h); exact execStatsSnapshot_begins ..
  | modRead _ => obtain ⟨rfl, rfl⟩ := Prod.mk.inj (Option.some.inj h); exact ⟨_, rfl, fun _ hturned => State.modAccess_absent _ _ hturned⟩
  | modWrite _ => obtain ⟨rfl, rfl⟩ := Prod.mk.inj (Option.some.inj h); exact ⟨_, rfl, fun _ hturned => State.modAccess_absent _ _ hturned⟩
  | modSideband _ => obtain ⟨rfl, rfl⟩ := Prod.mk.inj (Option.some.inj h); exact .never _
  | genCommit _ => obtain ⟨rfl, rfl⟩ := Prod.mk.inj (Option.some.inj h); exact .unless _ _ fun hturned => if_pos hturned
  | genDiscard _ => obtain ⟨rfl, rfl⟩ := Prod.mk.inj (Option.some.inj h); exact execGenDiscard_begins ..
  | parseLoad _ _ _ => obtain ⟨rfl, rfl⟩ := Prod.mk.inj (Option.some.inj h); exact execParseLoad_begins ..
  | fragFlush _ => obtain ⟨rfl, rfl⟩ := Prod.mk.inj (Option.some.inj h); exact .never _
  | tableBulk _ _ => obtain ⟨rfl, rfl⟩ := Prod.mk.inj (Option.some.inj h); exact .same (tableBulk_argsOk ..) (.never _)
  | macFlush _ => obtain ⟨rfl, rfl⟩ := Prod.mk.inj (Option.some.inj h); exact .never _
  | deepbufMapout _ => obtain ⟨rfl, rfl⟩ := Prod.mk.inj (Option.some.inj h); exact execDeepbufMapout_begins ..
  | deepbufScrub _ => obtain ⟨rfl, rfl⟩ := Prod.mk.inj (Option.some.inj h); exact .unless _ _ fun hturned => if_pos hturned
  | tcntWrite _ => obtain ⟨rfl, rfl⟩ := Prod.mk.inj (Option.some.inj h); exact execTcntWrite_begins ..
  | sessionSet _ => obtain ⟨rfl, rfl⟩ := Prod.mk.inj (Option.some.inj h); exact execSessionSet_begins ..
  | sessionRead _ => obtain ⟨rfl, rfl⟩ := Prod.mk.inj (Option.some.inj h); exact .never _
  | slotAccept _ => obtain ⟨rfl, rfl⟩ := Prod.mk.inj (Option.some.inj h); exact execSlotAccept_begins ..
  | calSweep _ => obtain ⟨rfl, rfl⟩ := Prod.mk.inj (Option.some.inj h); exact .unless _ _ fun hturned => if_pos hturned
  | calHold _ => obtain ⟨rfl, rfl⟩ := Prod.mk.inj (Option.some.inj h); exact .never _
  | refForce _ => obtain ⟨rfl, rfl⟩ := Prod.mk.inj (Option.some.inj h); exact .unless _ _ fun hturned => if_pos hturned
  | holdoverLearn _ => obtain ⟨rfl, rfl⟩ := Prod.mk.inj (Option.some.inj h); exact .never _
  | dpllHistReset _ => obtain ⟨rfl, rfl⟩ := Prod.mk.inj (Option.some.inj h); exact .unless _ _ fun hturned => if_pos hturned
  | freqLong _ => obtain ⟨rfl, rfl⟩ := Prod.mk.inj (Option.some.inj h); exact .unless _ _ fun hturned => if_pos hturned
  | pulseLoad _ => obtain ⟨rfl, rfl⟩ := Prod.mk.inj (Option.some.inj h); exact .unless _ _ fun hturned => if_pos hturned
  | pairRejoin _ => obtain ⟨rfl, rfl⟩ := Prod.mk.inj (Option.some.inj h); exact .same (pairRejoin_argsOk ..) (.unless _ _ fun hturned => if_pos hturned)
  | pairSwap _ => obtain ⟨rfl, rfl⟩ := Prod.mk.inj (Option.some.inj h); exact execPairSwap_begins ..
  | longCtrl _ => obtain ⟨rfl, rfl⟩ := Prod.mk.inj (Option.some.inj h); exact execLongCtrl_begins ..
  | longQuery _ => obtain ⟨rfl, rfl⟩ := Prod.mk.inj (Option.some.inj h); exact execLongQuery_begins ..
  | nop _ => obtain ⟨rfl, rfl⟩ := Prod.mk.inj (Option.some.inj h); exact .never _
  | memCopy _ _ _ => obtain ⟨rfl, rfl⟩ := Prod.mk.inj (Option.some.inj h); exact .unless _ _ fun hturned => if_pos hturned
  | updStage _ _ => obtain ⟨rfl, rfl⟩ := Prod.mk.inj (Option.some.inj h); exact .unless _ _ fun hturned => if_pos hturned
  | updInstall _ => obtain ⟨rfl, rfl⟩ := Prod.mk.inj (Option.some.inj h); exact execUpdInstall_begins ..
  | updCommit _ => obtain ⟨rfl, rfl⟩ := Prod.mk.inj (Option.some.inj h); exact .never _
  | updDiscard _ => obtain ⟨rfl, rfl⟩ := Prod.mk.inj (Option.some.inj h); exact .never _
  | keyWrite _ => obtain ⟨rfl, rfl⟩ := Prod.mk.inj (Option.some.inj h); exact .unless _ _ fun hturned => if_pos hturned
  | keyHmac _ _ => obtain ⟨rfl, rfl⟩ := Prod.mk.inj (Option.some.inj h); exact execKeyHmac_begins ..
  | tamperClear _ => obtain ⟨rfl, rfl⟩ := Prod.mk.inj (Option.some.inj h); exact .never _
  | fuseCust _ => obtain ⟨rfl, rfl⟩ := Prod.mk.inj (Option.some.inj h); exact .never _
  | _ => exact nomatch h

theorem exec_badArgs {i : Instr} {s : State} {c : Cmd} {op : Nat} (h : i.cmd = some (c, op)) (htakes : s.takes c op = true)
    (hargs : i.argsOk s = false) : exec i s = .next ((s.fetched c).complete c op st.badArg) := by
  obtain ⟨body, hexec, -⟩ := exec_begins (s := s) h
  rw [hexec, hargs, start_bad htakes]

theorem exec_turnedAway {i : Instr} {s : State} {c : Cmd} {op e : Nat} (h : i.cmd = some (c, op)) (htakes : s.takes c op = true)
    (hargs : i.argsOk s = true) (hturned : i.turnedAway (s.fetched c) = some e) : exec i s = .next ((s.fetched c).complete c op e) := by
  obtain ⟨body, hexec, hbody⟩ := exec_begins (s := s) h
  rw [hexec, start_takes htakes hargs, hbody e hturned]

/-- Settles O49: what `State.start` does before a command's own effect, what `State.startLong` does, and, command by command, that it begins
with `argsOk` and is turned away as `turnedAway` says (`exec_begins`); a row that is `idle` changes nothing (`exec_idle`). -/
theorem commandAcceptance : Obligations.CommandAcceptance := by
  refine ⟨fun s c op body h => start_bad h, fun s c op k i ok body h huser hop hbar => State.start_barred ok body h huser hop hbar,
    fun s c op ok body h huser hstage hop => State.start_recovery ok body h huser hstage hop,
    fun s c op ok body h => State.start_untaken ok body (State.takesCmd_none h), fun s c op ok body h hgroup hreplaced => ?_,
    fun s c op ok body h hfence hnone hearlier => ?_, fun s c op res total args hbar hfree => State.startLong_appends c op res total args hbar hfree,
    fun s c op res total args hbar hfree => State.startLong_full c op res total args hbar hfree,
    fun i s c op h htakes hargs => ⟨_, exec_badArgs h htakes hargs, rfl⟩,
    fun i s c op e h htakes hargs hturned => ⟨_, exec_turnedAway h htakes hargs hturned, rfl⟩, fun i s h => ⟨s, exec_idle h, rfl⟩⟩
  · have hheld : s.cmdHeld c op = true := by rw [State.cmdHeld, hgroup, hreplaced]; exact Bool.or_true _
    rw [State.start_held ok body h hheld]
    obtain ⟨hturn, hparked, hwait, -⟩ := s.cmdWaits_shows c
    exact ⟨hturn, hparked, hwait⟩
  · have hfenced := State.fenced_of_earlier hfence hnone hearlier
    rw [State.start_held ok body h (by rw [State.cmdHeld, hfenced]; exact Bool.true_or _)]
    obtain ⟨hturn, hparked, -, hregs⟩ := s.cmdWaits_shows c
    exact ⟨hturn, State.cmdWaits_fenceAt hfenced hnone, hparked, hregs⟩

end Sys2Proof.Machine
end

section
/-!
The tamper lock (spec/17 R539).
-/
namespace Sys2Proof.Machine
open Sys2Proof

/-! ### The two rows of the map -/

/-- The row of the tamper sources' settings (spec/17 R542). -/
def tamperCfgRow : RegRow :=
  { base := 0x400100, n1 := 8, s1 := 0x4, rw := 0x7, cv := 0x7, reset := fun i _ => if i < 4 then 0#32 else if i = 6 then 1#32 else 2#32 }

/-- The row of the lock (spec/17 R542). -/
def tamperLockRow : RegRow := { base := 0x400120, rw := 0x1, cv := 0x1 }

theorem secTamperCfg_find (k : Fin 8) : RegMap.find (Reg.secTamperCfg k) = some ⟨tamperCfgRow, k, 0⟩ :=
  match k with
  | 0 | 1 | 2 | 3 | 4 | 5 | 6 | 7 => rfl

theorem secTamperLock_find : RegMap.find Reg.secTamperLock = some ⟨tamperLockRow, 0, 0⟩ := rfl

theorem secTamperCfg_addr (k : Fin 8) : Reg.secTamperCfg k = 0x400100 + 4 * k.val := if_pos k.isLt

theorem secTamperCfg_rwMask (k : Fin 8) : rwMask (Reg.secTamperCfg k) = 0x7#32 := by
  revert k; decide

theorem secTamperCfg_maskKept (k : Fin 8) : BitVec.ofNat 32 (RegHit.mk tamperCfgRow k 0).maskKept = 7#32 := by
  revert k; decide

theorem secTamperCfg_maskVault (k : Fin 8) : (RegHit.mk tamperCfgRow k 0).maskVault = 7#32 := by
  revert k; decide

/-- The bits of RESP and of EXPECT are among the row's. -/
theorem secTamperCfg_masks (k : Fin 8) : (F.secTamperCfg_RESP k).mask &&& 7#32 = (F.secTamperCfg_RESP k).mask ∧
    (F.secTamperCfg_EXPECT k).mask &&& 7#32 = (F.secTamperCfg_EXPECT k).mask := by
  revert k; decide

theorem secTamperCfg_ne_lock (k : Fin 8) : Reg.secTamperCfg k ≠ Reg.secTamperLock := by
  rw [secTamperCfg_addr]; simp only [Reg.secTamperLock]; omega

theorem secTamperCfg_ne_status (k : Fin 8) : Reg.secTamperCfg k ≠ Reg.secStatus := by
  rw [secTamperCfg_addr]; simp only [Reg.secStatus]; omega

/-! ### A field whose bits a reset keeps -/

theorem Fld.of_kept {f : Fld} (hlen : f.lo + f.len ≤ 32) {v r m : Word} (h : f.mask &&& m = f.mask) : f.of ((v &&& m) ||| (r &&& ~~~m)) = f.of v := by
  rw [BitVec.or_comm]
  exact Fld.of_mix f hlen r v m h

/-- What keeps the fields' bits of the two rows keeps the lock, the response and the expected level. -/
theorem State.tamperSet_kept {s t : State} {k : Fin 8} {m m' : Word}
    (hcfg : t.reg (Reg.secTamperCfg k) = (s.reg (Reg.secTamperCfg k) &&& m) ||| (RegMap.reset (Reg.secTamperCfg k) &&& ~~~m)) (hm : m = 7#32)
    (hlock : t.reg Reg.secTamperLock = (s.reg Reg.secTamperLock &&& m') ||| (RegMap.reset Reg.secTamperLock &&& ~~~m')) (hm' : m' = 1#32)
    (hset : s.flag F.secTamperLock_LOCK = true) :
    t.flag F.secTamperLock_LOCK = true ∧ t.resp k = s.resp k ∧ t.fld (F.secTamperCfg_EXPECT k) = s.fld (F.secTamperCfg_EXPECT k) := by
  subst hm hm'
  obtain ⟨hresp, hexpect⟩ := secTamperCfg_masks k
  refine ⟨?_, (congrArg _ hcfg).trans (Fld.of_kept (f := F.secTamperCfg_RESP k) (show 2 ≤ 32 by decide) hresp),
    (congrArg _ hcfg).trans (Fld.of_kept (f := F.secTamperCfg_EXPECT k) (show 3 ≤ 32 by decide) hexpect)⟩
  have hfld : t.fld F.secTamperLock_LOCK = s.fld F.secTamperLock_LOCK :=
    (congrArg _ hlock).trans (Fld.of_kept (f := F.secTamperLock_LOCK) (by decide) rfl)
  rwa [State.flag, hfld]

/-! ### Writes of the two registers -/

theorem exec_tamperCfgWrite {s : State} (hup : s.up = true) (k : Fin 8) (v : Word) :
    exec (.tamperCfgWrite false k v) s = .next (s.tamperCfgWrite k v) := by
  show execTamperCfgWrite false k v s = _
  simp [execTamperCfgWrite, hup]

theorem exec_tamperLockWrite {s : State} (hup : s.up = true) (k : Fin 8) (v : Word) :
    exec (.tamperCfgWrite true k v) s = .next (s.tamperLockWrite v) := by
  show execTamperCfgWrite true k v s = _
  simp [execTamperCfgWrite, hup]

theorem State.tamperCfgWrite_barred {s : State} {k : Fin 8} {v : Word} (hlock : s.flag F.secTamperLock_LOCK = true)
    (hbar : (F.secTamperCfg_RESP k).of v < s.resp k ∨ (F.secTamperCfg_EXPECT k).of v ≠ s.fld (F.secTamperCfg_EXPECT k)) :
    s.tamperCfgWrite k v = s.setF F.secStatus_CFG_ERR 1 := by
  rw [State.tamperCfgWrite, if_neg]
  simp only [hlock, Bool.not_true, Bool.false_or, Bool.and_eq_true, decide_eq_true_eq, beq_iff_eq, not_and]
  obtain hlower | hexpect := hbar
  · exact fun hraise => absurd hraise (by omega)
  · exact fun _ heq => hexpect heq.symm

theorem State.tamperCfgWrite_raises {s : State} {k : Fin 8} {v : Word} (hresp : s.resp k ≤ (F.secTamperCfg_RESP k).of v)
    (hexpect : (F.secTamperCfg_EXPECT k).of v = s.fld (F.secTamperCfg_EXPECT k)) :
    s.tamperCfgWrite k v = s.putRw (Reg.secTamperCfg k) v := by
  rw [State.tamperCfgWrite, if_pos]
  simp [hresp, hexpect]

theorem State.putRw_tamperCfg (s : State) (k : Fin 8) (v : Word) : (s.putRw (Reg.secTamperCfg k) v).resp k = (F.secTamperCfg_RESP k).of v ∧
    (s.putRw (Reg.secTamperCfg k) v).fld (F.secTamperCfg_EXPECT k) = (F.secTamperCfg_EXPECT k).of v ∧
    (s.putRw (Reg.secTamperCfg k) v).flag F.secTamperLock_LOCK = s.flag F.secTamperLock_LOCK := by
  obtain ⟨hresp, hexpect⟩ := secTamperCfg_masks k
  rw [← secTamperCfg_rwMask k] at hresp hexpect
  refine ⟨s.fld_putRw (F.secTamperCfg_RESP k) v hresp (show 2 ≤ 32 by decide),
    s.fld_putRw (F.secTamperCfg_EXPECT k) v hexpect (show 3 ≤ 32 by decide), ?_⟩
  rw [State.flag, State.fld_putRw_other _ _ _ (secTamperCfg_ne_lock k).symm, State.flag]

theorem State.tamperLockWrite_keeps {s : State} (v : Word) (hlock : s.flag F.secTamperLock_LOCK = true) :
    (s.tamperLockWrite v).flag F.secTamperLock_LOCK = true := by
  unfold State.tamperLockWrite
  split
  next =>
    rw [State.flag, State.fld_setF_of_lt _ (by decide) (by decide)]
    rfl
  next => exact hlock

/-- A write of either register through the register map is that register's own write. -/
theorem exec_registerWrite_own {s : State} {src : WrSrc} {a : Nat} {v : Word} {h : RegHit} {f : State → WrSrc → Nat → Nat → Nat → Word → State}
    (halign : a % 4 = 0) (hfind : RegMap.find a = some h) (hop : writeOp h.row.base = some f) :
    exec (.registerWrite src a v) s = .next (if !s.up then s else f s src a h.i h.j v) := by
  show execRegisterWrite src a v s = _
  have halign' : (a % 4 != 0) = false := by simp [halign]
  simp only [execRegisterWrite, halign', Bool.and_false, Bool.false_eq_true, if_false, State.regWrite, hfind, hop]

theorem State.vaultLoss_unlocked (s : State) : s.vaultLoss.flag F.secTamperLock_LOCK = false := by
  have hreg : s.vaultLoss.reg Reg.secTamperLock = 0#32 := by
    have hgone : Tab.find Reg.secTamperLock (s.regs.filter fun p => !(decide (0x400000 ≤ p.1) && decide (p.1 < 0x401000))) = none :=
      Tab.find_filter (fun a => !(decide (0x400000 ≤ a) && decide (a < 0x401000))) Reg.secTamperLock s.regs
    show (Tab.find Reg.secTamperLock (s.regs.filter fun p => !(decide (0x400000 ≤ p.1) && decide (p.1 < 0x401000)))).getD _ = _
    rw [hgone]
    rfl
  rw [State.flag, State.fld, show F.secTamperLock_LOCK.addr = Reg.secTamperLock from rfl, hreg]
  rfl

/-- Settles O60: the lock's write and the settings' write are taken apart, and a reset keeps the bits of class V. -/
theorem tamperLock : Obligations.TamperLock := by
  refine ⟨fun s k v hup hlock hbar => ⟨_, exec_tamperCfgWrite hup k v, ?barred⟩, fun s k v hup hlock hresp hexpect => ⟨_, exec_tamperCfgWrite hup k v, ?raised⟩,
    fun s k v hup hlock => ⟨_, exec_tamperLockWrite hup k v, State.tamperLockWrite_keeps v hlock⟩, fun s src k v => ⟨?cfg, ?lock⟩,
    fun s n arm k hc hlock => State.tamperSet_kept (s.mainReset_reg n arm hc (rowsApart_at rfl k.isLt rfl) (secTamperCfg_find k)) (secTamperCfg_maskKept k)
      (s.mainReset_reg n arm hc (isApart_at rfl) secTamperLock_find) rfl hlock,
    fun s k hc hlock => ?island, fun s haon => ⟨s.vaultLoss, ?loss, s.vaultLoss_unlocked⟩⟩
  case barred =>
    rw [State.tamperCfgWrite_barred hlock hbar]
    refine ⟨fun j hj => State.reg_setF_other _ _ (secTamperCfg_ne_status ⟨j, hj⟩), ?_, State.fld_setF_of_lt _ (by decide) (by decide)⟩
    rwa [State.flag, State.fld_setF_other _ _ (by decide)]
  case raised =>
    rw [State.tamperCfgWrite_raises hresp hexpect]
    obtain ⟨hresp', hexpect', hlock'⟩ := s.putRw_tamperCfg k v
    exact ⟨hresp', hexpect'.trans hexpect, hlock'.trans hlock⟩
  case cfg =>
    have halign : Reg.secTamperCfg k % 4 = 0 := by rw [secTamperCfg_addr]; omega
    exact exec_registerWrite_own halign (secTamperCfg_find k) rfl
  case lock => exact exec_registerWrite_own rfl secTamperLock_find rfl
  case island =>
    have hcanon : regsCanon s.vaultTime = true := State.vaultTime_kept.regs hc
    have hsame {a : Nat} (ha : ¬AtReg [Reg.secVsec] a) : s.vaultTime.reg a = s.reg a := State.vaultTime_writes.same a ha
    have hcfg := s.vaultTime.islandStop_reg hcanon (secTamperCfg_find k)
    have hlocked := s.vaultTime.islandStop_reg hcanon secTamperLock_find
    rw [hsame (a := Reg.secTamperCfg k) (rowsApart_at rfl k.isLt rfl)] at hcfg
    rw [hsame (a := Reg.secTamperLock) (isApart_at rfl)] at hlocked
    exact ⟨_, rfl, State.tamperSet_kept hcfg (secTamperCfg_maskVault k) hlocked rfl hlock⟩
  case loss =>
    show execVbatLoss s = _
    simp [execVbatLoss, haon]

end Sys2Proof.Machine
end

section
/-!
What the bookkeeping of a core leaves of it (spec/16 R509 to R512): performance counters, issue slots, tags, event copies and completions
change no architectural field of any core, no byte of a bank, and no register but those of their own rows.
-/
namespace Sys2Proof.Machine
open Sys2Proof

/-- A core without what its counters, its tag unit, its mailbox and FIFO, its watchdog, and the interrupts but the beat's hold. -/
def CoreSt.arch (x : CoreSt) : CoreSt :=
  { x with
    intPend := x.intPend &&& 4#8, mbCpl := [], mbDone := 0, mbBusy := 0, mbTaken := 0, mbDrop := 0, fifo := [], fifoN := 0, fifoHead := 0
    cnt := [], wraps := [], slotsUsed := 0, lfsr := 0, countdown := 0, tagDue := false, tagged := none, dog := {} }

/-- The rows of the registers in which the bookkeeping shows. -/
def quietRows : List Nat :=
  reportRegs ++ [Reg.perfTagStatus 0, Reg.perfTagRec 0 0, Reg.bankEcc 0, Reg.tbSnapCtrl, Reg.tbIncrLo 0, Reg.tbIncrHi 0, Reg.tbSnapFrac 0,
    Reg.tbSnapNs 0, Reg.tbSnapSecLo 0, Reg.tbSnapSecHi 0]

/-- From `s` to `t` there has been bookkeeping only. -/
structure Quiet (s t : State) : Prop where
  arch : ∀ d, (t.core d).arch = (s.core d).arch
  mem : t.cores.mem = s.cores.mem
  regs : Writes quietRows s t

namespace Quiet
variable {s t u : State} {L : List Part} {R : List Nat}

theorem refl : Quiet s s := ⟨fun _ => rfl, rfl, .refl⟩

theorem trans (h : Quiet s t) (k : Quiet t u) : Quiet s u :=
  ⟨fun d => (k.arch d).trans (h.arch d), k.mem.trans h.mem, h.regs.trans k.regs⟩

theorem each {β : Type} {l : List β} {f : State → β → State} (h : ∀ v, ∀ b ∈ l, Quiet v (f v b)) : Quiet s (s.each l f) := by
  induction l generalizing s with
  | nil => exact refl
  | cons b l ih => exact (h s b List.mem_cons_self).trans (ih fun v b' hb' => h v b' (List.mem_cons_of_mem b hb'))

/-- An operation that leaves the cores alone. -/
theorem of_kept (k : Kept L s t) (w : Writes R s t) (hL : (L.contains .cores || L.contains .mem) = false) (hR : R ⊆ quietRows) : Quiet s t := by
  obtain ⟨hcores, hmem⟩ := Bool.or_eq_false_iff.1 hL
  have heq : t.cores = s.cores := k.cores_eq hcores hmem
  exact ⟨fun d => by simp only [State.core, heq], congrArg CoresSt.mem heq, ⟨fun a ha => w.same a fun ⟨b, hb, hinst⟩ => ha ⟨b, hR hb, hinst⟩⟩⟩

theorem pc (h : Quiet s t) (c : Nat) : (t.core c).pc = (s.core c).pc := (congrArg CoreSt.pc (h.arch c) :)
theorem x (h : Quiet s t) (c : Nat) : (t.core c).x = (s.core c).x := (congrArg CoreSt.x (h.arch c) :)
theorem getX (h : Quiet s t) (c r : Nat) : t.getX c r = s.getX c r := by simp only [State.getX, h.x]
theorem active (h : Quiet s t) (c : Nat) : (t.core c).active = (s.core c).active := (congrArg CoreSt.active (h.arch c) :)
theorem trapVec (h : Quiet s t) (c : Nat) : (t.core c).trapVec = (s.core c).trapVec := (congrArg CoreSt.trapVec (h.arch c) :)
theorem trapEpc (h : Quiet s t) (c : Nat) : (t.core c).trapEpc = (s.core c).trapEpc := (congrArg CoreSt.trapEpc (h.arch c) :)
theorem trapCause (h : Quiet s t) (c : Nat) : (t.core c).trapCause = (s.core c).trapCause := (congrArg CoreSt.trapCause (h.arch c) :)
theorem trapVal (h : Quiet s t) (c : Nat) : (t.core c).trapVal = (s.core c).trapVal := (congrArg CoreSt.trapVal (h.arch c) :)
theorem sleep (h : Quiet s t) (c : Nat) : (t.core c).sleep = (s.core c).sleep := (congrArg CoreSt.sleep (h.arch c) :)
theorem intEn (h : Quiet s t) (c : Nat) : (t.core c).intEn = (s.core c).intEn := (congrArg CoreSt.intEn (h.arch c) :)

/-- A field of a register outside the rows of the bookkeeping. -/
theorem fld (h : Quiet s t) {f : Fld} (hf : ¬AtReg quietRows f.addr) : t.fld f = s.fld f := h.regs.fld hf

end Quiet

/-- Setting bits 3, 4 and 6 of INT_PEND: what the bookkeeping may raise. -/
theorem intPend_arch (w : BitVec 8) {i : Nat} (hi : i = 3 ∨ i = 4 ∨ i = 6) : (w ||| BitVec.ofNat 8 (2 ^ i)) &&& 4#8 = w &&& 4#8 := by
  have hbit : BitVec.ofNat 8 (2 ^ i) &&& 4#8 = 0#8 := by obtain rfl | rfl | rfl := hi <;> rfl
  rw [BitVec.and_comm, BitVec.and_or_distrib_left, BitVec.and_comm 4#8 (BitVec.ofNat 8 (2 ^ i)), hbit, BitVec.or_zero, BitVec.and_comm]

theorem State.modCore_quiet (s : State) (c : Nat) {f : CoreSt → CoreSt} (h : ∀ x, (f x).arch = x.arch) :
    Quiet s (s.modCore c f) := by
  refine ⟨fun d => ?_, rfl, ⟨fun _ _ => rfl⟩⟩
  by_cases hd : d = c
  · rw [hd, State.core_modCore, h]
  · rw [State.core_modCore_other s f hd]

theorem State.raiseInt_quiet (s : State) (c : Nat) {i : Nat} (hi : i = 3 ∨ i = 4 ∨ i = 6) : Quiet s (s.raiseInt c i) := by
  refine s.modCore_quiet c fun x => ?_
  simp only [CoreSt.arch, intPend_arch _ hi]

theorem State.fresh_quiet (s : State) : Quiet s s.fresh := ⟨fun _ => rfl, rfl, ⟨fun _ _ => rfl⟩⟩

theorem State.setF_quiet (s : State) {f : Fld} (v : Nat) (hf : AtReg quietRows f.addr) : Quiet s (s.setF f v) :=
  ⟨fun _ => rfl, rfl, Writes.setF hf .refl⟩

theorem State.setReg_quiet (s : State) {a : Nat} (w : Word) (ha : AtReg quietRows a) : Quiet s (s.setReg a w) :=
  ⟨fun _ => rfl, rfl, Writes.setReg ha .refl⟩

theorem State.perf_quiet (s : State) (c e n : Nat) : Quiet s (s.perf c e n) := by
  unfold State.perf
  extract_lets v counted a
  have hcounted : Quiet s counted := s.modCore_quiet c (by intro _; rfl)
  have ha : AtReg quietRows a := by
    unfold a
    split
    · exact Reg.perfWrapLo_at rfl
    · exact Reg.perfWrapHi_at rfl
  split
  · exact hcounted
  · exact hcounted.trans ((counted.setReg_quiet _ ha).trans (State.raiseInt_quiet _ c (.inr (.inr rfl))))

theorem State.chargeSlots_quiet (s : State) (c keep : Nat) : Quiet s (s.chargeSlots c keep) := by
  unfold State.chargeSlots
  extract_lets n charged
  have hcharged : Quiet s charged := .each fun v p _ => v.perf_quiet c p.1 p.2
  split
  · exact .refl
  · exact hcharged.trans ((charged.modCore_quiet c (by intro _; rfl)).trans (State.fresh_quiet _))

theorem State.useSlot_quiet (s : State) (c e : Nat) : Quiet s (s.useSlot c e) :=
  (s.chargeSlots_quiet c 1).trans ((State.perf_quiet ..).trans (State.modCore_quiet _ c (by intro _; rfl)))

theorem State.tagLoad_quiet (s : State) (c : Nat) : Quiet s (s.tagLoad c) := by
  unfold State.tagLoad
  split
  · exact .refl
  · exact s.modCore_quiet c (by intro _; rfl)

theorem State.tagExpire_quiet (s : State) (c : Nat) : Quiet s (s.tagExpire c) := by
  unfold State.tagExpire
  extract_lets x counted
  have hcounted : Quiet s counted := by
    unfold counted
    split
    · exact State.perf_quiet ..
    · exact (s.modCore_quiet c (by intro _; rfl)).trans (State.perf_quiet ..)
  exact hcounted.trans (State.tagLoad_quiet ..)

theorem State.tagEnter_quiet (s : State) (c : Nat) : Quiet s (s.tagEnter c) := by
  unfold State.tagEnter
  extract_lets counted
  have hcounted : Quiet s counted := by
    unfold counted
    split
    · exact .refl
    · split
      · exact (s.tagExpire_quiet c).trans (State.modCore_quiet _ c (by intro _; rfl))
      · exact s.modCore_quiet c (by intro _; rfl)
  split
  · exact hcounted.trans (State.modCore_quiet _ c (by intro _; rfl))
  · exact hcounted

theorem State.tagDone_quiet (s : State) (c : Nat) (pc insn : Word) (outcome : Nat) (daddr : Word) : Quiet s (s.tagDone c pc insn outcome daddr) := by
  unfold State.tagDone
  split
  · exact .refl
  next =>
    extract_lets n i v k ws sampled recorded
    have hsampled : Quiet s sampled := s.fresh_quiet.trans (s.fresh.modCore_quiet c (by intro _; rfl))
    have hrecorded : Quiet sampled recorded := .each fun v _ _ => v.setReg_quiet _ (Reg.perfTagRec_at rfl)
    exact hsampled.trans (hrecorded.trans (State.setF_quiet _ _ (Reg.perfTagStatus_at rfl)))

theorem State.squash_quiet (s : State) (c : Nat) (insn daddr : Word) (outcome : Nat) : Quiet s (s.squash c insn daddr outcome) :=
  (s.useSlot_quiet c 4).trans (State.tagDone_quiet ..)

theorem State.slotFor_quiet (s : State) (c : Nat) : Quiet s (s.slotFor c) := .of_kept State.slotFor_kept State.slotFor_writes rfl (by decide)

theorem State.splitBank_quiet (s : State) (c a n : Nat) : Quiet s (s.splitBank c a n) := by
  unfold State.splitBank
  split
  · exact s.perf_quiet ..
  · exact .refl

/-! ### Events and completions -/

theorem State.fifoCopy_quiet (s : State) (code : Nat) (r : BitVec 512) (c : Nat) : Quiet s (s.fifoCopy code r c) := by
  unfold State.fifoCopy
  split
  · split
    · exact (s.modCore_quiet c (by intro _; rfl)).trans ((State.perf_quiet ..).trans (State.raiseInt_quiet _ c (.inr (.inl rfl))))
    · exact s.perf_quiet ..
  · exact .refl

theorem State.writeEntry_quiet (s : State) (r data : Nat) (irq : Bool) : Quiet s (s.writeEntry r data irq) :=
  .of_kept State.writeEntry_kept State.writeEntry_writes rfl (by decide)

theorem State.nextSeq_quiet (s : State) : Quiet s s.nextSeq := ⟨fun _ => rfl, rfl, ⟨fun _ _ => rfl⟩⟩

theorem State.reportLost_quiet (s : State) : Quiet s s.reportLost := by
  unfold State.reportLost
  split
  · exact .refl
  split
  · exact .refl
  · extract_lets p r host u
    have hu : Quiet s u := ⟨fun _ => rfl, rfl, ⟨fun _ _ => rfl⟩⟩
    exact hu.trans (u.nextSeq_quiet.trans ((State.writeEntry_quiet ..).trans ((State.fifoCopy_quiet ..).trans (State.fifoCopy_quiet ..))))

theorem State.loseEvent_quiet (s : State) (code : Nat) (seq : BitVec 32) : Quiet s (s.loseEvent code seq) :=
  .of_kept State.loseEvent_kept State.loseEvent_writes rfl (by decide)

theorem State.raise_quiet (s : State) (code len : Nat) (fields : List (Nat × Nat × Nat)) : Quiet s (s.raise code len fields) := by
  unfold State.raise
  extract_lets reported seq r copied
  have hcopied : Quiet s copied :=
    s.reportLost_quiet.trans (reported.nextSeq_quiet.trans ((State.fifoCopy_quiet ..).trans (State.fifoCopy_quiet ..)))
  split
  · exact hcopied.trans (State.writeEntry_quiet ..)
  · exact hcopied.trans ((State.loseEvent_quiet ..).trans (State.reportLost_quiet _))

theorem State.uncorrected_quiet (s : State) (b m o : Nat) : Quiet s (s.uncorrected b m o) :=
  (s.setF_quiet _ (Reg.bankEcc_at rfl)).trans (State.raise_quiet ..)

theorem State.eccBank_quiet (s : State) (m a n : Nat) (es : List EccErr) : Quiet s (s.eccBank m a n es).1 := by
  unfold State.eccBank
  refine .each fun v e _ => ?_
  split
  next p _ =>
    split
    · exact v.uncorrected_quiet ..
    · unfold State.when
      have hbump : Quiet v (v.bump (F.bankEcc_CORR p.1)) := v.setF_quiet _ (Reg.bankEcc_at rfl)
      split
      · exact hbump.trans (State.perf_quiet ..)
      · exact hbump
  · exact .refl

theorem State.handleGone_quiet (s : State) (r : BitVec 512) : Quiet s (s.handleGone r) := ⟨fun _ => rfl, rfl, ⟨fun _ _ => rfl⟩⟩

theorem State.deliver_quiet (s : State) (c : Cmd) (r : BitVec 512) (flags : Nat) : Quiet s (s.deliver c r flags) := by
  unfold State.deliver
  split
  next =>
    extract_lets k host waiting
    have hwaiting : Quiet s waiting := ⟨fun _ => rfl, rfl, ⟨fun _ _ => rfl⟩⟩
    have hbump : Quiet s (s.bump (F.hostifCnt_COUNT 6)) := s.setF_quiet _ (show AtReg _ (Reg.hostifCnt 6) from Reg.hostifCnt_at rfl)
    split
    · split
      · exact ⟨fun _ => rfl, rfl, ⟨fun _ _ => rfl⟩⟩
      · unfold State.when
        split
        · exact hbump.trans (State.handleGone_quiet ..)
        · exact hbump
    · exact hwaiting.trans (.of_kept State.flushCpl_kept State.flushCpl_writes rfl (by decide))
  next u i _ =>
    extract_lets m freed
    have hfreed : Quiet s freed := by
      unfold freed State.when
      split
      · split
        · exact s.handleGone_quiet r
        · exact (s.modCore_quiet u (by intro _; rfl)).trans (State.handleGone_quiet ..)
      · split
        · exact .refl
        · exact s.modCore_quiet u (by intro _; rfl)
    split
    · split
      · exact hfreed
      · exact hfreed.trans (freed.modCore_quiet u (by intro _; rfl))
    · exact hfreed.trans ((freed.modCore_quiet u (by intro _; rfl)).trans ((State.perf_quiet ..).trans (State.raiseInt_quiet _ u (.inl rfl))))

theorem State.complete_quiet (s : State) (c : Cmd) (op status : Nat) (data : BitVec 256) (flags handle lower : Nat) :
    Quiet s (s.complete c op status data flags handle lower) := by
  unfold State.complete
  extract_lets w fl lo host u
  have hu : Quiet s u := ⟨fun _ => rfl, rfl, ⟨fun _ _ => rfl⟩⟩
  exact hu.trans (u.deliver_quiet ..)

theorem State.endParked_quiet (s : State) (p : Parked) (status : Nat) (data : BitVec 256) (flags lower : Nat) :
    Quiet s (s.endParked p status data flags lower) := by
  unfold State.endParked
  extract_lets u
  have hu : Quiet s u := ⟨fun _ => rfl, rfl, ⟨fun _ _ => rfl⟩⟩
  split
  · exact hu.trans (u.setF_quiet _ (show AtReg _ (Reg.hostifCnt 6) from Reg.hostifCnt_at rfl))
  · exact hu.trans (u.complete_quiet ..)

theorem State.failParked_quiet (s : State) : Quiet s s.failParked :=
  .each fun v _ _ => v.endParked_quiet ..

/-! ### An instruction is issued (spec/16 R511, R512) -/

/-- Core `c` has an issue slot and its next instruction has entered F. -/
def State.entered (s : State) (c : Nat) : State := (s.slotFor c).tagEnter c

theorem State.entered_quiet (s : State) (c : Nat) : Quiet s (s.entered c) := (s.slotFor_quiet c).trans (State.tagEnter_quiet ..)

theorem State.issue_of_mayIssue {s : State} {c : Nat} (h : s.mayIssue c = true) (f : State → State) : s.issue c f = f (s.entered c) := by
  obtain ⟨hruns, hslots⟩ := (Bool.and_eq_true ..).mp h
  rw [State.issue, hruns, Bool.not_true, if_neg Bool.false_ne_true]
  exact if_neg (bne_iff_ne.1 hslots)

end Sys2Proof.Machine
end

section
/-!
The custom instructions (spec/16 R493).
-/
namespace Sys2Proof.Machine
open Sys2Proof

/-! ### Registers and the pc of a core -/

theorem State.getX_setX (s : State) (c r : Nat) (v : Word) : (s.setX c r v).getX c r = if r = 0 then 0 else v := by
  unfold State.setX State.getX
  split
  · rfl
  · rw [State.core_modCore, Tab.get_put_same]

theorem State.setX_core (s : State) (c r : Nat) (v : Word) : ∃ x, (s.setX c r v).core c = { s.core c with x := x } := by
  unfold State.setX
  split
  · exact ⟨_, rfl⟩
  · exact ⟨_, State.core_modCore ..⟩

theorem State.core_setPc (s : State) (c : Nat) (v : Word) : (s.setPc c v).core c = { s.core c with pc := v } := State.core_modCore ..

/-- An instruction that retires: the bookkeeping, then the pc goes on. -/
theorem State.retire_eq (s : State) (c len : Nat) (insn daddr next : Word) :
    ∃ u, Quiet s u ∧ s.retire c len insn daddr next = u.setPc c next := by
  unfold State.retire
  extract_lets pc used counted
  have hcounted : Quiet s counted := by
    refine (s.useSlot_quiet c 3).trans ?_
    unfold counted
    split
    · exact used.perf_quiet ..
    · exact .refl
  exact ⟨_, hcounted.trans (State.tagDone_quiet ..), rfl⟩

theorem State.retire_wrote {s : State} {c rd : Nat} {v : Word} (h : s.getX c rd = if rd = 0 then 0 else v) (len : Nat) (insn daddr next : Word) :
    (s.retire c len insn daddr next).wrote c rd v next := by
  obtain ⟨u, hu, heq⟩ := s.retire_eq c len insn daddr next
  rw [heq]
  refine ⟨by rw [State.core_setPc], ?_⟩
  have hx : (u.setPc c next).getX c rd = u.getX c rd := by simp only [State.getX, State.core_setPc]
  rw [hx, hu.getX, h]

/-- A field of the core that the pc's going on and the bookkeeping leave. -/
theorem State.retire_core {α : Type} (s : State) (c len : Nat) (insn daddr next : Word) {view : CoreSt → α}
    (hpc : ∀ x : CoreSt, view { x with pc := next } = view x) (harch : ∀ x : CoreSt, view x.arch = view x) :
    view ((s.retire c len insn daddr next).core c) = view (s.core c) := by
  obtain ⟨u, hu, heq⟩ := s.retire_eq c len insn daddr next
  rw [heq, State.core_setPc, hpc, ← harch, hu.arch, harch]

theorem Quiet.beatSkipped {s t : State} (h : Quiet s t) (c : Nat) : (t.core c).beatSkipped = (s.core c).beatSkipped :=
  (congrArg CoreSt.beatSkipped (h.arch c) :)

theorem Quiet.cntHi {s t : State} (h : Quiet s t) (c : Nat) : (t.core c).cntHi = (s.core c).cntHi := (congrArg CoreSt.cntHi (h.arch c) :)

/-- Bit 2 of INT_PEND, the beat interrupt, is left by the bookkeeping. -/
theorem Quiet.beatPend {s t : State} (h : Quiet s t) (c : Nat) : (t.core c).intPend.getLsbD 2 = (s.core c).intPend.getLsbD 2 := by
  have hmask : (t.core c).intPend &&& 4#8 = (s.core c).intPend &&& 4#8 := (congrArg CoreSt.intPend (h.arch c) :)
  have hbit := congrArg (·.getLsbD 2) hmask
  simpa using hbit

/-! ### What single counts leave -/

theorem State.perf_cnt_other (s : State) (c n : Nat) {e k : Nat} (h : k ≠ e) :
    Tab.get ((s.perf c e n).core c).cnt 0 k = Tab.get (s.core c).cnt 0 k := by
  unfold State.perf
  extract_lets v counted a
  have hcounted : Tab.get (counted.core c).cnt 0 k = Tab.get (s.core c).cnt 0 k := by
    rw [State.core_modCore]
    exact Tab.get_put_other _ _ _ h
  split
  · exact hcounted
  · rw [State.raiseInt, State.core_modCore]
    exact hcounted

theorem State.perf_intPend (s : State) {c e n : Nat} (h : Tab.get (s.core c).cnt 0 e + n < 2 ^ 48) :
    ((s.perf c e n).core c).intPend = (s.core c).intPend := by
  unfold State.perf
  extract_lets v counted a
  rw [if_pos h, State.core_modCore]

theorem State.tagExpire_cnt_other (s : State) (c : Nat) {k : Nat} (h38 : k ≠ 38) (h39 : k ≠ 39) :
    Tab.get ((s.tagExpire c).core c).cnt 0 k = Tab.get (s.core c).cnt 0 k := by
  have hload (u : State) : ((u.tagLoad c).core c).cnt = (u.core c).cnt := by
    unfold State.tagLoad
    split
    · rfl
    · rw [State.core_modCore]
  unfold State.tagExpire
  extract_lets x counted
  rw [hload]
  unfold counted
  split
  · exact s.perf_cnt_other c 1 h39
  · rw [State.perf_cnt_other _ c 1 h38, State.core_modCore]

theorem State.tagExpire_intPend (s : State) {c : Nat} (h : ∀ e < 40, Tab.get (s.core c).cnt 0 e + 1 < 2 ^ 48) :
    ((s.tagExpire c).core c).intPend = (s.core c).intPend := by
  have hload (u : State) : ((u.tagLoad c).core c).intPend = (u.core c).intPend := by
    unfold State.tagLoad
    split
    · rfl
    · rw [State.core_modCore]
  unfold State.tagExpire
  extract_lets x counted
  rw [hload]
  unfold counted
  split
  · exact s.perf_intPend (h 39 (by decide))
  · rw [State.perf_intPend, State.core_modCore]
    rw [State.core_modCore]
    exact h 38 (by decide)

/-- What `State.tagEnter` leaves of the core, given what the end of a countdown leaves. -/
theorem State.tagEnter_core {α : Type} (s : State) (c : Nat) (view : CoreSt → α)
    (hcount : ∀ (x : CoreSt) (n : Nat), view { x with countdown := n } = view x)
    (htag : ∀ (x : CoreSt) (o : Option (Nat × Nat)), view { x with tagDue := false, tagged := o } = view x)
    (hexpire : view ((s.tagExpire c).core c) = view (s.core c)) : view ((s.tagEnter c).core c) = view (s.core c) := by
  unfold State.tagEnter
  extract_lets counted
  have hcounted : view (counted.core c) = view (s.core c) := by
    unfold counted
    split
    · rfl
    · rw [State.core_modCore, hcount]
      split
      · exact hexpire
      · rfl
  split
  · rw [State.core_modCore, htag, hcounted]
  · exact hcounted

theorem State.slotFor_core (s : State) (c d : Nat) : (s.slotFor c).core d = s.core d := by
  have hcores : (s.slotFor c).cores = s.cores := State.slotFor_kept.cores_eq rfl rfl
  simp only [State.core, hcores]

theorem State.entered_cnt_other (s : State) (c : Nat) {k : Nat} (h38 : k ≠ 38) (h39 : k ≠ 39) :
    Tab.get ((s.entered c).core c).cnt 0 k = Tab.get (s.core c).cnt 0 k := by
  rw [← s.slotFor_core c c]
  exact State.tagEnter_core _ c (fun x => Tab.get x.cnt 0 k) (fun _ _ => rfl) (fun _ _ => rfl) (State.tagExpire_cnt_other _ c h38 h39)

theorem State.entered_intPend {s : State} {c : Nat} (h : ∀ e < 40, Tab.get (s.core c).cnt 0 e + 1 < 2 ^ 48) :
    ((s.entered c).core c).intPend = (s.core c).intPend := by
  rw [← s.slotFor_core c c] at h ⊢
  exact State.tagEnter_core _ c CoreSt.intPend (fun _ _ => rfl) (fun _ _ => rfl) (State.tagExpire_intPend _ h)

theorem State.fresh_core (s : State) (c : Nat) : s.fresh.core c = s.core c := rfl

/-- The events that slots are charged to are 4 to 14. -/
theorem State.chargeSlots_cnt_other (s : State) (c keep : Nat) {k : Nat} (h : 15 < k) :
    Tab.get ((s.chargeSlots c keep).core c).cnt 0 k = Tab.get (s.core c).cnt 0 k := by
  unfold State.chargeSlots
  extract_lets n charged
  have hevents : ∀ p ∈ s.slotParts n, p.1 ≤ 14 := by
    unfold State.slotParts
    simp only [List.forall_mem_cons, Nat.reduceLeDiff, true_and]
    exact List.forall_mem_nil _
  have hcharged (l : List (Nat × Nat)) (hl : ∀ p ∈ l, p.1 ≤ 14) (u : State) :
      Tab.get ((u.each l fun v p => v.perf c p.1 p.2).core c).cnt 0 k = Tab.get (u.core c).cnt 0 k := by
    induction l generalizing u with
    | nil => rfl
    | cons p l ih =>
      have hp : k ≠ p.1 := by have := hl p List.mem_cons_self; omega
      exact (ih (fun q hq => hl q (List.mem_cons_of_mem p hq)) _).trans (u.perf_cnt_other c p.2 hp)
  split
  · rfl
  · rw [State.fresh_core, State.core_modCore]
    exact hcharged _ hevents s

/-! ### The custom instructions one by one -/

/-- Core `c` has entered a custom instruction: event 25 has been counted. -/
def State.ksEntered (s : State) (c : Nat) : State := (s.entered c).perf c 25

theorem State.ksEntered_quiet (s : State) (c : Nat) : Quiet s (s.ksEntered c) := (s.entered_quiet c).trans (State.perf_quiet ..)

theorem State.ksRow_of_mayIssue {s : State} {c : Fin 8} (h : s.mayIssue c = true) (op : KsOp) (rd rs1 rs2 : Nat) :
    s.ksRow c op rd rs1 rs2 = (s.entered c).ksExec c op rd rs1 rs2 (ksWord op rd rs1 rs2) := State.issue_of_mayIssue h _

theorem State.ksEntered_time (s : State) (c : Nat) : (s.ksEntered c).time = (s.slotFor c).time :=
  (State.perf_kept.time_eq rfl rfl).trans (State.tagEnter_kept.time_eq rfl rfl)

theorem State.ksEntered_beat (s : State) (c : Nat) : (s.ksEntered c).beat = s.beat := (s.ksEntered_quiet c).fld (isApart_at rfl)

/-- KS.TSNAP writes nanoseconds of the counter and holds the rest. -/
theorem State.tsnap_shows (s : State) (c rd : Nat) (v : Word) :
    (s.tsnap c rd v).getX c rd = (if rd = 0 then 0 else BitVec.ofNat 32 (Stamp.ns (s.cnt (v.toNat % 32)).stamp)) ∧
    ((s.tsnap c rd v).core c).holdTime = (s.cnt (v.toNat % 32)).stamp ∧ ((s.tsnap c rd v).core c).holdBeat = s.beat := by
  unfold State.tsnap
  extract_lets t held
  have hheld : held.core c = { s.core c with holdTime := t, holdCount := s.time.beatCount, holdBeat := s.beat } := State.core_modCore ..
  obtain ⟨x, hx⟩ := held.setX_core c rd (BitVec.ofNat 32 (Stamp.ns t))
  exact ⟨held.getX_setX .., by rw [hx, hheld], by rw [hx, hheld]⟩

theorem State.ksEntered_cnt (s : State) (c k : Nat) : (s.ksEntered c).cnt k = (s.slotFor c).cnt k :=
  congrArg (fun x : TimeSt => x.cnt.getD k {}) (s.ksEntered_time c)

/-- A custom instruction ends: `u`, in which it has written its register, retires. -/
def State.ksDone (s u : State) (c : Nat) (insn : Word) : State := u.retire c 4 insn 0 ((s.core c).pc + 4)

theorem exec_ksTsnap {s : State} {c : Fin 8} (rd rs1 : Fin 32) (h : s.mayIssue c = true) : exec (.ksTsnap c rd rs1) s =
    .next (s.ksDone ((s.ksEntered c).tsnap c rd (s.getX c rs1)) c (ksWord .tsnap rd rs1 0)) := by
  show Host.Outcome.next (s.ksRow c .tsnap rd rs1 0) = _
  rw [State.ksRow_of_mayIssue h, State.ksDone, ← (s.ksEntered_quiet c).getX, ← (s.ksEntered_quiet c).pc]
  rfl

theorem exec_ksTget {s : State} {c : Fin 8} (rd rs1 : Fin 32) (h : s.mayIssue c = true) : exec (.ksTget c rd rs1) s =
    .next (s.ksDone ((s.ksEntered c).setX c rd (((s.ksEntered c).core c).heldPart (s.getX c rs1))) c (ksWord .tget rd rs1 0)) := by
  show Host.Outcome.next (s.ksRow c .tget rd rs1 0) = _
  rw [State.ksRow_of_mayIssue h, State.ksDone, ← (s.ksEntered_quiet c).getX, ← (s.ksEntered_quiet c).pc]
  rfl

theorem exec_ksCrc {s : State} {c : Fin 8} (w : Fin 3) (rd rs1 rs2 : Fin 32) (h : s.mayIssue c = true) : exec (.ksCrc c w rd rs1 rs2) s =
    .next (s.ksDone ((s.ksEntered c).setX c rd ((natBytes (2 ^ w.val) (s.getX c rs2).toNat).foldl crcByte (s.getX c rs1))) c
      (ksWord (.crc (2 ^ w.val)) rd rs1 rs2)) := by
  show Host.Outcome.next (s.ksRow c (.crc (2 ^ w.val)) rd rs1 rs2) = _
  rw [State.ksRow_of_mayIssue h, State.ksDone, ← (s.ksEntered_quiet c).getX, ← (s.ksEntered_quiet c).getX, ← (s.ksEntered_quiet c).pc]
  rfl

theorem exec_ksPcnt {s : State} {c : Fin 8} (rd rs1 : Fin 32) (h : s.mayIssue c = true) : exec (.ksPcnt c rd rs1) s =
    .next (s.ksDone ((s.ksEntered c).pcnt c rd (s.getX c rs1)) c (ksWord .pcnt rd rs1 0)) := by
  show Host.Outcome.next (s.ksRow c .pcnt rd rs1 0) = _
  rw [State.ksRow_of_mayIssue h, State.ksDone, ← (s.ksEntered_quiet c).getX, ← (s.ksEntered_quiet c).pc]
  rfl

theorem exec_ksTret {s : State} {c : Fin 8} (h : s.mayIssue c = true) : exec (.ksTret c) s =
    .next (((s.ksEntered c).modCore c fun x => { x with active := false }).retire c 4 (ksWord .tret 0 0 0) 0 (s.core c).trapEpc) := by
  show Host.Outcome.next (s.ksRow c .tret 0 0 0) = _
  rw [State.ksRow_of_mayIssue h, ← (s.ksEntered_quiet c).trapEpc]
  rfl

/-- A custom instruction that waits: it ends where `w` has come, and else the core falls asleep. -/
def State.ksWaits (s : State) (c : Nat) (w : Sleep) (insn : Word) : State :=
  if (s.ksEntered c).awaited c w then s.ksDone ((s.ksEntered c).sleepEnd c w) c insn else (s.ksEntered c).sleepStart c w

/-- What the two waiting instructions do, by the sleep that they name. -/
theorem State.ksExec_waits (s : State) (c : Nat) (rd : Fin 32) (insn : Word) :
    s.ksExec c .wfb rd 0 0 insn = (if (s.perf c 25).awaited c (.wfb rd) then
      ((s.perf c 25).sleepEnd c (.wfb rd)).retire c 4 insn 0 (((s.perf c 25).core c).pc + 4) else (s.perf c 25).sleepStart c (.wfb rd)) ∧
    s.ksExec c .wfe rd 0 0 insn = (if (s.perf c 25).awaited c (.wfe rd) then
      ((s.perf c 25).sleepEnd c (.wfe rd)).retire c 4 insn 0 (((s.perf c 25).core c).pc + 4) else (s.perf c 25).sleepStart c (.wfe rd)) := by
  have hrd : Fin.ofNat 32 rd.val = rd := Fin.ext (Nat.mod_eq_of_lt rd.isLt)
  unfold State.ksExec
  simp only [hrd]
  exact ⟨trivial, trivial⟩

theorem exec_ksWfb {s : State} {c : Fin 8} (rd : Fin 32) (h : s.mayIssue c = true) :
    exec (.ksWfb c rd) s = .next (s.ksWaits c (.wfb rd) (ksWord .wfb rd 0 0)) := by
  obtain ⟨hwaits, -⟩ := (s.entered c).ksExec_waits c rd (ksWord .wfb rd 0 0)
  show Host.Outcome.next (s.ksRow c .wfb rd 0 0) = _
  rw [State.ksRow_of_mayIssue h, State.ksWaits, State.ksDone, ← (s.ksEntered_quiet c).pc, hwaits, State.ksEntered]

theorem exec_ksWfe {s : State} {c : Fin 8} (rd : Fin 32) (h : s.mayIssue c = true) :
    exec (.ksWfe c rd) s = .next (s.ksWaits c (.wfe rd) (ksWord .wfe rd 0 0)) := by
  obtain ⟨-, hwaits⟩ := (s.entered c).ksExec_waits c rd (ksWord .wfe rd 0 0)
  show Host.Outcome.next (s.ksRow c .wfe rd 0 0) = _
  rw [State.ksRow_of_mayIssue h, State.ksWaits, State.ksDone, ← (s.ksEntered_quiet c).pc, hwaits, State.ksEntered]

theorem State.ksDone_wrote {s u : State} {c rd : Nat} {v : Word} (h : u.getX c rd = if rd = 0 then 0 else v) (insn : Word) :
    (s.ksDone u c insn).wrote c rd v ((s.core c).pc + 4) := State.retire_wrote h ..

/-- A field of the core after a custom instruction that has ended. -/
theorem State.ksDone_core {α : Type} (s u : State) (c : Nat) (insn : Word) (view : CoreSt → α)
    (hpc : ∀ (x : CoreSt) (pc : Word), view { x with pc := pc } = view x) (harch : ∀ x : CoreSt, view x.arch = view x) :
    view ((s.ksDone u c insn).core c) = view (u.core c) := u.retire_core c 4 insn 0 _ (fun x => hpc x _) harch

theorem State.ksDone_beatPend (s u : State) (c : Nat) (insn : Word) :
    ((s.ksDone u c insn).core c).intPend.getLsbD 2 = (u.core c).intPend.getLsbD 2 := by
  obtain ⟨v, hv, heq⟩ := u.retire_eq c 4 insn 0 ((s.core c).pc + 4)
  rw [State.ksDone, heq, State.core_setPc]
  exact hv.beatPend c

/-! ### KS.PCNT -/

theorem State.perfRead_event (s : State) (c : Nat) {e : Nat} (h : 2 < e) : s.perfRead c e = Tab.get (s.core c).cnt 0 e := by
  rw [State.perfRead, if_neg (by omega), if_neg (by omega), if_neg (by omega)]

/-- The low half: the counter once the open slots are charged, whose high half is latched. -/
theorem State.pcnt_low (s : State) (c rd : Nat) {v : Word} (hevent : v.toNat % 64 < 40) (hlow : bitAt v.toNat 6 = false) :
    (s.pcnt c rd v).getX c rd = (if rd = 0 then 0 else BitVec.ofNat 32 ((s.chargeSlots c 1).perfRead c (v.toNat % 64))) ∧
    ((s.pcnt c rd v).core c).cntHi = (s.chargeSlots c 1).perfRead c (v.toNat % 64) / 2 ^ 32 := by
  unfold State.pcnt
  extract_lets e charged read
  rw [if_neg (show ¬39 < e by omega), hlow, if_neg Bool.false_ne_true]
  generalize hu : (charged.modCore c fun x => { x with cntHi := read / 2 ^ 32 }) = u
  obtain ⟨x, hx⟩ := u.setX_core c rd (BitVec.ofNat 32 read)
  refine ⟨u.getX_setX .., ?_⟩
  rw [hx, ← hu, State.core_modCore]

theorem State.pcnt_high (s : State) (c rd : Nat) {v : Word} (hevent : v.toNat % 64 < 40) (hhigh : bitAt v.toNat 6 = true) :
    s.pcnt c rd v = s.setX c rd (BitVec.ofNat 32 (s.core c).cntHi) := by
  rw [State.pcnt, if_neg (show ¬39 < v.toNat % 64 by omega), hhigh, if_pos rfl]

theorem State.pcnt_none (s : State) (c rd : Nat) {v : Word} (hevent : 39 < v.toNat % 64) : s.pcnt c rd v = s.setX c rd 0 := if_pos hevent

/-- A counter of events that neither the custom instruction itself nor a tag counts. -/
theorem State.ksEntered_charged_cnt (s : State) (c : Nat) {k : Nat} (hk : 15 < k) (h25 : k ≠ 25) (h38 : k ≠ 38) (h39 : k ≠ 39) :
    Tab.get (((s.ksEntered c).chargeSlots c 1).core c).cnt 0 k = Tab.get (s.core c).cnt 0 k :=
  (State.chargeSlots_cnt_other _ c 1 hk).trans ((State.perf_cnt_other _ c 1 h25).trans (s.entered_cnt_other c h38 h39))

/-! ### KS.WFB, KS.WFE and the core's waking -/

theorem State.ksEntered_beatPend (s : State) (c : Nat) : ((s.ksEntered c).core c).intPend.getLsbD 2 = (s.core c).intPend.getLsbD 2 :=
  (s.ksEntered_quiet c).beatPend c

theorem State.ksEntered_intPend {s : State} {c : Nat} (h : ∀ e < 40, Tab.get (s.core c).cnt 0 e + 1 < 2 ^ 48) :
    ((s.ksEntered c).core c).intPend = (s.core c).intPend := by
  have h25 : Tab.get ((s.entered c).core c).cnt 0 25 = Tab.get (s.core c).cnt 0 25 := s.entered_cnt_other c (by decide) (by decide)
  rw [State.ksEntered, State.perf_intPend _ (by rw [h25]; exact h 25 (by decide)), State.entered_intPend h]

theorem State.ksEntered_intDue {s : State} {c : Nat} (h : ∀ e < 40, Tab.get (s.core c).cnt 0 e + 1 < 2 ^ 48) :
    (s.ksEntered c).intDue c = s.intDue c := by
  rw [State.intDue, State.ksEntered_intPend h, (s.ksEntered_quiet c).intEn, State.intDue]

/-- KS.WFB ends: the beat interrupt is acknowledged. -/
theorem State.sleepEnd_wfb (s : State) (c : Nat) (rd : Fin 32) :
    (s.sleepEnd c (.wfb rd)).getX c rd = (if rd.val = 0 then 0 else BitVec.ofNat 32 (s.core c).beatSkipped) ∧
    ((s.sleepEnd c (.wfb rd)).core c).beatOpen = false ∧ ((s.sleepEnd c (.wfb rd)).core c).intPend.getLsbD 2 = false := by
  have hack : (s.beatAck c).core c = { s.core c with beatOpen := false, beatSkipped := 0, intPend := (s.core c).intPend &&& 0xFB#8 } :=
    State.core_modCore ..
  obtain ⟨x, hx⟩ := (s.beatAck c).setX_core c rd (BitVec.ofNat 32 (s.core c).beatSkipped)
  have hcore : (s.sleepEnd c (.wfb rd)).core c = _ := hx.trans (by rw [hack])
  refine ⟨State.getX_setX .., by rw [hcore], ?_⟩
  rw [hcore]
  simp

theorem State.setCoreState_coreState (s : State) (c : Nat) {v : Nat} (hv : v < 16) : (s.setCoreState c v).coreState c = v :=
  State.fld_setF_of_lt (f := F.coreStatus_STATE c) _ (show 28 + 4 ≤ 32 by decide) hv

theorem State.modCore_coreState (s : State) (c d : Nat) (f : CoreSt → CoreSt) : (s.modCore c f).coreState d = s.coreState d := rfl

/-- Settling the watchdogs changes nothing else of any core. -/
theorem State.dogMark_arch (s : State) (d : Nat) : (s.dogMark.core d).arch = (s.core d).arch := by
  unfold State.dogMark
  extract_lets power marked
  have hmarked : Quiet s marked := ⟨fun _ => rfl, rfl, ⟨fun _ _ => rfl⟩⟩
  have heach : Quiet marked (marked.each (List.range 8) fun v c => v.modCore c fun x => { x with dog := ⟨s.dogRan x.dog (s.coreWdtRuns c), s.time.tick⟩ }) :=
    .each fun v c _ => v.modCore_quiet c (by intro _; rfl)
  exact (hmarked.trans heach).arch d

theorem State.setCoreState_arch (s : State) (c v d : Nat) : ((s.setCoreState c v).core d).arch = (s.core d).arch := s.dogMark_arch d

/-- A core falls asleep at its pc. -/
theorem State.sleepStart_shows (s : State) (c : Nat) (w : Sleep) :
    (s.sleepStart c w).coreState c = 2 ∧ ((s.sleepStart c w).core c).sleep = some w ∧ ((s.sleepStart c w).core c).pc = (s.core c).pc := by
  unfold State.sleepStart
  rw [State.modCore_coreState, State.setCoreState_coreState _ _ (by decide), State.core_modCore]
  refine ⟨rfl, rfl, ?_⟩
  have harch := ((s.chargeSlots c 0).setCoreState_arch c 2 c).trans ((s.chargeSlots_quiet c 0).arch c)
  exact (congrArg CoreSt.pc harch :)

theorem coreStatus_apart (c : Fin 8) : ¬AtReg quietRows (F.coreStatus_STATE c).addr := rowsApart_at (a := 0x200000) rfl c.isLt rfl

theorem Quiet.coreState {s t : State} (h : Quiet s t) (c : Fin 8) : t.coreState c = s.coreState c := h.fld (coreStatus_apart c)

theorem State.retire_coreState (s : State) (c : Fin 8) (len : Nat) (insn daddr next : Word) :
    (s.retire c len insn daddr next).coreState c = s.coreState c := by
  obtain ⟨u, hu, heq⟩ := s.retire_eq c len insn daddr next
  rw [heq]
  exact hu.coreState c

theorem State.setX_coreState (s : State) (c r d : Nat) (v : Word) : (s.setX c r v).coreState d = s.coreState d := by
  unfold State.setX
  split
  · rfl
  · rfl

theorem State.sleepEnd_coreState (s : State) (c d : Nat) (w : Sleep) : (s.sleepEnd c w).coreState d = s.coreState d := by
  cases w with
  | wfb rd => exact State.setX_coreState ..
  | wfe rd => exact State.setX_coreState ..

theorem State.sleepEnd_sleep (s : State) (c : Nat) (w : Sleep) : ((s.sleepEnd c w).core c).sleep = (s.core c).sleep := by
  have hset (u : State) (r : Nat) (v : Word) : ((u.setX c r v).core c).sleep = (u.core c).sleep := by
    obtain ⟨x, hx⟩ := u.setX_core c r v
    rw [hx]
  cases w with
  | wfb rd => rw [State.sleepEnd, hset, State.beatAck, State.core_modCore]
  | wfe rd => rw [State.sleepEnd, hset]

theorem State.awake_coreState (s : State) (c d : Nat) : (s.awake c).coreState d = s.coreState d := rfl

/-- A core that what it waits for has woken, with its issue slot. -/
def State.woken (s : State) (c : Nat) : State := ((s.setCoreState c 1).awake c).slotFor c

theorem State.woken_coreState (s : State) (c : Fin 8) : (s.woken c).coreState c = 1 :=
  ((State.slotFor_quiet _ c).coreState c).trans ((State.awake_coreState ..).trans (s.setCoreState_coreState c (by decide)))

theorem State.awake_core (s : State) (c : Nat) :
    (s.awake c).core c = { s.core c with sleep := none, sleepAt := none, slept := s.sleepCycles c } := State.core_modCore ..

theorem State.woken_core (s : State) (c : Nat) : ((s.woken c).core c).sleep = none ∧ ((s.woken c).core c).pc = (s.core c).pc ∧
    ((s.woken c).core c).beatSkipped = (s.core c).beatSkipped := by
  have hawake : (s.woken c).core c = ((s.setCoreState c 1).awake c).core c := State.slotFor_core ..
  have harch := s.setCoreState_arch c 1 c
  rw [hawake, State.awake_core]
  exact ⟨rfl, (congrArg CoreSt.pc harch :), (congrArg CoreSt.beatSkipped harch :)⟩

theorem exec_coreWake {s : State} {c : Fin 8} {w : Sleep} (hup : s.up = true) (hstate : s.coreState c = 2) (hsleep : (s.core c).sleep = some w)
    (hcome : s.awaited c w = true) (hslots : (s.woken c).openSlots c ≠ 0) :
    ∃ insn, exec (.coreWake c) s = .next (((s.woken c).sleepEnd c w).retire c 4 insn 0 ((s.core c).pc + 4)) := by
  obtain ⟨-, hpc, -⟩ := s.woken_core c
  rw [← hpc]
  have hguard : (s.up && s.coreState c == 2 && s.awaited c w) = true := by rw [hup, hstate, hcome]; rfl
  have hopen : ((((s.setCoreState c 1).awake c).slotFor c).openSlots c = 0) = False := eq_false hslots
  have hexec : ∃ insn, execCoreWake c s = .next (((s.woken c).sleepEnd c w).retire c 4 insn 0 (((s.woken c).core c).pc + 4)) := by
    unfold execCoreWake
    simp only [hsleep, hguard, if_true, hopen, if_false]
    exact ⟨_, rfl⟩
  exact hexec

theorem CoreSt.heldPart_arch (x : CoreSt) (k : Word) : x.arch.heldPart k = x.heldPart k := by
  unfold CoreSt.heldPart
  rfl

/-- Settles O34: after the issue, which is bookkeeping (`Quiet`), each instruction writes its register and retires, or sleeps. -/
theorem customInstructions : Obligations.CustomInstructions := by
  refine ⟨fun s c rd rs1 h => Runs.of_next (exec_ksTsnap rd rs1 h) ?tsnap,
    fun s c rd rs1 h => Runs.of_next (exec_ksTget rd rs1 h) (State.ksDone_wrote ?tget _),
    fun s c w rd rs1 rs2 h => Runs.of_next (exec_ksCrc w rd rs1 rs2 h) (State.ksDone_wrote (State.getX_setX ..) _),
    fun s c rd rs1 h hlt hgt hmem => Runs.of_next (exec_ksPcnt rd rs1 h) ?event,
    fun s c rd h hpend => Runs.of_next (exec_ksWfb rd h) ?beatCome, fun s c rd h hpend => Runs.of_next (exec_ksWfb rd h) ?beatAwaited,
    fun s c rd h hdue hcnt => Runs.of_next (exec_ksWfe rd h) ?intCome, fun s c rd h hdue hcnt => Runs.of_next (exec_ksWfe rd h) ?intAwaited,
    fun s c h => Runs.of_next (exec_ksTret h) ?tret, fun s c rd hup hstate hsleep hpend hslots => ?wakeBeat,
    fun s c rd rs1 h hevent => Runs.of_next (exec_ksPcnt rd rs1 h) (State.ksDone_wrote ?none _),
    fun s c rd rs1 h hevent hhigh => Runs.of_next (exec_ksPcnt rd rs1 h) (State.ksDone_wrote ?high _),
    fun s c rd rs1 h hevent hlow => Runs.of_next (exec_ksPcnt rd rs1 h) ?low, fun s u c rd hup hstate hsleep hdue hu hslots => ?wakeInt⟩
  case tsnap =>
    obtain ⟨hx, htime, hbeat⟩ := (s.ksEntered c).tsnap_shows c rd (s.getX c rs1)
    rw [s.ksEntered_cnt] at hx htime
    rw [s.ksEntered_beat] at hbeat
    exact ⟨State.ksDone_wrote hx _, (s.ksDone_core _ c _ CoreSt.holdTime (fun _ _ => rfl) fun _ => rfl).trans htime,
      (s.ksDone_core _ c _ CoreSt.holdBeat (fun _ _ => rfl) fun _ => rfl).trans hbeat⟩
  case tget =>
    have hheld : ((s.ksEntered c).core c).heldPart (s.getX c rs1) = (s.core c).heldPart (s.getX c rs1) := by
      rw [← CoreSt.heldPart_arch, (s.ksEntered_quiet c).arch, CoreSt.heldPart_arch]
    rw [hheld]
    exact State.getX_setX ..
  case event =>
    have hmod : (s.getX c rs1).toNat % 64 = (s.getX c rs1).toNat := Nat.mod_eq_of_lt (by omega)
    have hlow : bitAt (s.getX c rs1).toNat 6 = false := Nat.testBit_lt_two_pow (by omega)
    obtain ⟨hx, hhi⟩ := (s.ksEntered c).pcnt_low c rd (by omega) hlow
    simp only [List.mem_cons, List.not_mem_nil, or_false, not_or] at hmem
    obtain ⟨h25, h38, h39⟩ := hmem
    rw [hmod, State.perfRead_event _ c (by omega), s.ksEntered_charged_cnt c hgt h25 h38 h39] at hx hhi
    exact ⟨State.ksDone_wrote hx _, (s.ksDone_core _ c _ CoreSt.cntHi (fun _ _ => rfl) fun _ => rfl).trans hhi⟩
  case beatCome =>
    rw [State.ksWaits, State.awaited, if_pos ((s.ksEntered_beatPend c).trans hpend)]
    obtain ⟨hx, hopen, hpend'⟩ := (s.ksEntered c).sleepEnd_wfb c rd
    rw [(s.ksEntered_quiet c).beatSkipped] at hx
    exact ⟨State.ksDone_wrote hx _, (s.ksDone_core _ c _ CoreSt.beatOpen (fun _ _ => rfl) fun _ => rfl).trans hopen,
      (s.ksDone_beatPend ..).trans hpend'⟩
  case beatAwaited =>
    rw [State.ksWaits, State.awaited, if_neg (by rw [s.ksEntered_beatPend c, hpend]; exact Bool.false_ne_true)]
    obtain ⟨hcore, hsleep, hpc⟩ := (s.ksEntered c).sleepStart_shows c (.wfb rd)
    exact ⟨hcore, hsleep, hpc.trans ((s.ksEntered_quiet c).pc c)⟩
  case intCome =>
    rw [State.ksWaits, State.awaited, if_pos (bne_iff_ne.2 (by rwa [State.ksEntered_intDue hcnt]))]
    refine State.ksDone_wrote ?_ _
    rw [← State.ksEntered_intPend hcnt]
    exact State.getX_setX ..
  case intAwaited =>
    rw [State.ksWaits, State.awaited, State.ksEntered_intDue hcnt, hdue, if_neg (by decide)]
    obtain ⟨hcore, hsleep, -⟩ := (s.ksEntered c).sleepStart_shows c (.wfe rd)
    exact ⟨hcore, hsleep⟩
  case tret =>
    obtain ⟨u, hu, heq⟩ := ((s.ksEntered c).modCore c fun x => { x with active := false }).retire_eq c 4 (ksWord .tret 0 0 0) 0 (s.core c).trapEpc
    rw [heq, State.core_setPc]
    refine ⟨(hu.active c).trans ?_, rfl⟩
    rw [State.core_modCore]
  case wakeBeat =>
    obtain ⟨insn, hexec⟩ := exec_coreWake (w := .wfb rd) hup hstate hsleep hpend hslots
    obtain ⟨hnone, -, hskipped⟩ := s.woken_core c
    obtain ⟨hx, -, -⟩ := (s.woken c).sleepEnd_wfb c rd
    rw [hskipped] at hx
    refine Runs.of_next hexec ⟨?_, ?_, State.retire_wrote hx ..⟩
    · rw [State.retire_coreState, State.sleepEnd_coreState, State.woken_coreState]
    · exact (State.retire_core _ c 4 insn 0 _ (view := CoreSt.sleep) (fun _ => rfl) fun _ => rfl).trans
        ((State.sleepEnd_sleep ..).trans hnone)
  case none =>
    rw [State.pcnt_none _ c rd hevent]
    exact State.getX_setX ..
  case high =>
    rw [State.pcnt_high _ c rd hevent hhigh, (s.ksEntered_quiet c).cntHi]
    exact State.getX_setX ..
  case low =>
    obtain ⟨hx, hhi⟩ := (s.ksEntered c).pcnt_low c rd hevent hlow
    exact ⟨_, State.ksDone_wrote hx _, (s.ksDone_core _ c _ CoreSt.cntHi (fun _ _ => rfl) fun _ => rfl).trans hhi⟩
  case wakeInt =>
    have hwoken : u = s.woken c := hu
    rw [hwoken] at hslots ⊢
    obtain ⟨insn, hexec⟩ := exec_coreWake (w := .wfe rd) hup hstate hsleep (bne_iff_ne.2 hdue) hslots
    obtain ⟨hnone, -, -⟩ := s.woken_core c
    refine Runs.of_next hexec ⟨?_, ?_, State.retire_wrote (State.getX_setX ..) ..⟩
    · rw [State.retire_coreState, State.sleepEnd_coreState, State.woken_coreState]
    · exact (State.retire_core _ c 4 insn 0 _ (view := CoreSt.sleep) (fun _ => rfl) fun _ => rfl).trans
        ((State.sleepEnd_sleep ..).trans hnone)

end Sys2Proof.Machine
end

section
/-!
Frames over the instances of a unit (spec/18 R545): a core that goes to sleep touches the other cores.
-/
namespace Sys2Proof.Machine
open Sys2Proof

/-- A change of a core's state settles the watchdogs of all cores: what each has run is added up, and it counts on from the present tick. -/
theorem State.setCoreState_dogSince (s : State) (c v : Nat) {d : Nat} (hd : d < 8) : ((s.setCoreState c v).core d).dog.since = s.time.tick := by
  have hset (u : State) : (u.setF (F.coreStatus_STATE c) v).core d = u.core d := rfl
  unfold State.setCoreState State.dogMark
  extract_lets power marked
  rw [hset]
  refine State.each_own (view := State.core) (P := fun _ _ y => y.dog.since = s.time.tick) List.nodup_range (fun v a _ => ?own)
    (fun v a _ b _ hab => ?other) marked d (List.mem_range.2 hd)
  case own => rw [State.core_modCore]
  case other => exact State.core_modCore_other v _ hab

theorem State.sleepStart_dogSince (s : State) {c d : Nat} (hd : d < 8) (hne : d ≠ c) (w : Sleep) :
    ((s.sleepStart c w).core d).dog.since = s.time.tick := by
  unfold State.sleepStart
  rw [State.core_modCore_other _ _ hne, State.setCoreState_dogSince _ _ _ hd, State.chargeSlots_kept.time_eq rfl rfl]

/-- KS.WFB without a beat interrupt, where an issue slot is open at once. -/
theorem ksWfb_dogSince {s : State} {c d : Fin 8} (rd : Fin 32) (hissue : s.mayIssue c = true) (hslots : s.openSlots c ≠ 0)
    (hpend : (s.core c).intPend.getLsbD 2 = false) (hne : d.val ≠ c.val) :
    ∃ t, exec (.ksWfb c rd) s = .next t ∧ (t.core d).dog.since = s.time.tick := by
  have hslot : s.slotFor c = s := if_neg hslots
  refine ⟨_, exec_ksWfb rd hissue, ?_⟩
  rw [State.ksWaits, State.awaited, if_neg (by rw [s.ksEntered_beatPend, hpend]; exact Bool.false_ne_true),
    State.sleepStart_dogSince _ d.isLt hne, s.ksEntered_time, hslot]

/-- CORE7 runs, ten ticks into device time. -/
def codeDevLater : State := { Tests.codeDev with time := { Tests.codeDev.time with tick := 10 } }

/-- In that state CORE7 has an issue slot, no beat interrupt, and the watchdog of CORE0 has counted from tick 0. -/
theorem codeDevLater_shows : codeDevLater.mayIssue (7 : Fin 8) = true ∧ codeDevLater.openSlots (7 : Fin 8) ≠ 0 ∧
    (codeDevLater.core (7 : Fin 8)).intPend.getLsbD 2 = false ∧ codeDevLater.time.tick = 10 ∧ (codeDevLater.core (0 : Fin 8)).dog.since = 0 := by
  decide +kernel

/-- Refutes O57: where CORE7 executes KS.WFB at tick 10 and finds no beat interrupt, it goes to sleep, and the change of its state settles the
watchdogs of all cores (`State.dogMark`): the watchdog of CORE0 counts from tick 10 where it counted from 0. -/
theorem not_instanceFrames : ¬ Obligations.InstanceFrames := by
  unfold Obligations.InstanceFrames
  rintro ⟨-, -, -, -, -, -, -, hcores, -⟩
  obtain ⟨hissue, hslots, hpend, htick, hbefore⟩ := codeDevLater_shows
  obtain ⟨t, hexec, hafter⟩ := ksWfb_dogSince (d := 0) 0 hissue hslots hpend (by decide)
  have hsame : t.core (0 : Fin 8) = codeDevLater.core (0 : Fin 8) :=
    hcores codeDevLater t 7 0 0 0 (.inr (.inr (.inr (.inl hexec)))) (by decide)
  rw [hsame, hbefore, htick] at hafter
  exact absurd hafter (by decide)

end Sys2Proof.Machine
end

section
/-!
Traps, interrupts, the local block, watchdogs and counters of a core (spec/16 R494 to R500, R508 to R512).
-/
namespace Sys2Proof.Machine
open Sys2Proof

/-! ### Traps and interrupts (spec/16 R495) -/

theorem coreTrapPc_apart (c : Fin 8) : ¬AtReg quietRows (Reg.coreTrapPc c) := rowsApart_at (a := 0x20000C) rfl c.isLt rfl

theorem State.storeTrap_core (s : State) (c cause : Nat) (val epc : Word) :
    (s.storeTrap c cause val epc).core c = { s.core c with trapEpc := epc, trapCause := BitVec.ofNat 8 cause, trapVal := val } := by
  have hregs (u : State) : ((u.setF (F.coreStatus_CAUSE c) cause).setReg (Reg.coreTrapPc c) epc).core c = u.core c := rfl
  rw [State.storeTrap, hregs, State.core_modCore]

theorem State.storeTrap_regs (s : State) (c : Fin 8) {cause : Nat} (val epc : Word) (hcause : cause < 256) :
    (s.storeTrap c cause val epc).fld (F.coreStatus_CAUSE c) = cause ∧ (s.storeTrap c cause val epc).reg (Reg.coreTrapPc c) = epc := by
  unfold State.storeTrap
  extract_lets stored
  have hne : (F.coreStatus_CAUSE c).addr ≠ Reg.coreTrapPc c := at1_ne_of_base (b := 0x200000) (b' := 0x20000C) c.isLt (by decide)
  have hother (u : State) : (u.setReg (Reg.coreTrapPc c) epc).fld (F.coreStatus_CAUSE c) = u.fld (F.coreStatus_CAUSE c) := by
    rw [State.fld, State.reg_setReg_other _ _ hne, State.fld]
  refine ⟨?_, State.reg_setReg_same ..⟩
  rw [hother]
  exact State.fld_setF_of_lt (f := F.coreStatus_CAUSE c) _ (show 20 + 8 ≤ 32 by decide) hcause

/-- A core that has stored a trap or an interrupt, counted event `e`, and gone to its vector. -/
def State.atVector (s : State) (c cause : Nat) (val epc : Word) (e : Nat) : State :=
  ((s.storeTrap c cause val epc).perf c e).modCore c fun x => { x with active := true, pc := x.trapVec }

theorem State.atVector_trapped {s u : State} (h : Quiet s u) (c : Fin 8) {cause : Nat} (hcause : cause < 256) (val epc : Word) (e : Nat) :
    s.trapped (u.atVector c cause val epc e) c cause epc ∧ ((u.atVector c cause val epc e).core c).trapVal = val ∧
    (u.atVector c cause val epc e).cores.mem = s.cores.mem := by
  have hperf : Quiet (u.storeTrap c cause val epc) ((u.storeTrap c cause val epc).perf c e) := State.perf_quiet ..
  have hstored := u.storeTrap_core c cause val epc
  have hmem : (u.storeTrap c cause val epc).cores.mem = u.cores.mem := State.storeTrap_kept.same .mem rfl
  obtain ⟨hfld, hreg⟩ := u.storeTrap_regs c val epc hcause
  have hfld' : ((u.storeTrap c cause val epc).perf c e).fld (F.coreStatus_CAUSE c) = cause :=
    (hperf.fld (rowsApart_at (a := 0x200000) rfl c.isLt rfl)).trans hfld
  have hreg' : ((u.storeTrap c cause val epc).perf c e).reg (Reg.coreTrapPc c) = epc := (hperf.regs.same _ (coreTrapPc_apart c)).trans hreg
  unfold State.atVector
  refine ⟨⟨?_, ?_, ?_, ?_, (State.modCore_fld ..).trans hfld', (State.modCore_reg ..).trans hreg'⟩, ?_, hperf.mem.trans (hmem.trans h.mem)⟩
  all_goals rw [State.core_modCore]
  · exact (hperf.trapVec c).trans (by rw [hstored, h.trapVec])
  · exact (hperf.trapEpc c).trans (by rw [hstored])
  · exact (congrArg BitVec.toNat (hperf.trapCause c)).trans (by rw [hstored, BitVec.toNat_ofNat]; exact Nat.mod_eq_of_lt hcause)
  · exact (hperf.trapVal c).trans (by rw [hstored])

theorem State.trap_atVector {s : State} {c : Nat} (hact : (s.core c).active = false) (cause : Nat) (val : Word) :
    s.trap c cause val = s.atVector c cause val (s.core c).pc 34 := by
  simp only [State.trap, hact, Bool.false_eq_true, if_false]
  rfl

theorem State.trap_trapped {s u : State} (h : Quiet s u) (c : Fin 8) {cause : Nat} (hcause : cause < 256) (val : Word)
    (hact : (s.core c).active = false) : s.trapped (u.trap c cause val) c cause (s.core c).pc ∧ ((u.trap c cause val).core c).trapVal = val ∧
    (u.trap c cause val).cores.mem = s.cores.mem := by
  rw [State.trap_atVector ((h.active c).trans hact), h.pc]
  exact State.atVector_trapped h c hcause ..

/-- A trap of an instruction: it is squashed, and an access fault is counted besides. -/
theorem State.rvTrap_eq (s : State) (c cause : Nat) (insn daddr val : Word) : ∃ u, Quiet s u ∧ s.rvTrap c cause insn daddr val = u.trap c cause val := by
  unfold State.rvTrap
  extract_lets squashed
  have hsquashed : Quiet s squashed := s.squash_quiet ..
  split
  · exact ⟨squashed.perf c 37, hsquashed.trans (State.perf_quiet ..), rfl⟩
  · exact ⟨squashed, hsquashed, rfl⟩

theorem State.rvTrap_trapped {s u : State} (h : Quiet s u) (c : Fin 8) {cause : Nat} (hcause : cause < 256) (insn daddr val : Word)
    (hact : (s.core c).active = false) : s.trapped (u.rvTrap c cause insn daddr val) c cause (s.core c).pc ∧
    ((u.rvTrap c cause insn daddr val).core c).trapVal = val ∧ (u.rvTrap c cause insn daddr val).cores.mem = s.cores.mem := by
  obtain ⟨v, hv, heq⟩ := u.rvTrap_eq c cause insn daddr val
  rw [heq]
  exact State.trap_trapped (h.trans hv) c hcause val hact

/-- TRAP: once the instruction has entered, and an uncorrectable error has been reported, it traps. -/
theorem exec_trap {s : State} {c : Fin 8} {cause : BitVec 8} (val : Word) (hissue : s.mayIssue c = true) (hlo : 1 ≤ cause.toNat)
    (hhi : cause.toNat ≤ 7) : ∃ u, Quiet s u ∧ exec (.trap c cause val) s = .next (u.trap c cause.toNat val) := by
  have hguard : (decide (1 ≤ cause.toNat) && decide (cause.toNat ≤ 7)) = true := by simp [hlo, hhi]
  suffices ∃ v insn daddr, Quiet s v ∧ exec (.trap c cause val) s = .next (v.rvTrap c cause.toNat insn daddr val) by
    obtain ⟨v, insn, daddr, hv, hexec⟩ := this
    obtain ⟨u, hu, heq⟩ := v.rvTrap_eq c cause.toNat insn daddr val
    exact ⟨u, hv.trans hu, hexec.trans (congrArg _ heq)⟩
  show ∃ v insn daddr, Quiet s v ∧ execTrap c cause val s = .next (v.rvTrap c cause.toNat insn daddr val)
  simp only [execTrap, hguard, if_true, State.issue_of_mayIssue hissue]
  refine ⟨_, _, _, (s.entered_quiet c).trans ?_, rfl⟩
  split
  · exact State.uncorrected_quiet ..
  · exact .refl

theorem State.takeInt_atVector (s : State) (c i : Nat) :
    ∃ val, s.takeInt c i = s.fresh.atVector c (0x80 + i) val (s.core c).pc 33 := ⟨_, rfl⟩

theorem exec_interruptTaken {s : State} {c : Fin 8} {i : Nat} (hissue : s.mayIssue c = true) (hact : (s.core c).active = false)
    (hdue : (maskIdx 8 (s.intDue c).toNat).head? = some i) :
    ∃ u val, Quiet s u ∧ exec (.interruptTaken c) s = .next (u.atVector c (0x80 + i) val (s.core c).pc 33) := by
  let squashed := (s.entered c).squash c ((s.entered c).insnAt c ((s.entered c).core c).pc) 0 3
  have hsquashed : Quiet s squashed := (s.entered_quiet c).trans (State.squash_quiet ..)
  obtain ⟨val, htaken⟩ := squashed.takeInt_atVector c i
  refine ⟨squashed.fresh, val, hsquashed.trans squashed.fresh_quiet, ?_⟩
  show execInterruptTaken c s = _
  rw [← hsquashed.pc, ← htaken]
  simp only [execInterruptTaken, hdue, hact, Bool.false_eq_true, if_false, State.issue_of_mayIssue hissue]
  rfl

/-! ### A second trap: the core halts or restarts (spec/16 R491, R495) -/

theorem State.trap_halts {s : State} {c : Nat} (hact : (s.core c).active = true) (cause : Nat) (val : Word) :
    s.trap c cause val = ((s.storeTrap c cause val (s.core c).pc).perf c 34).coreHalt c cause := by
  simp only [State.trap, hact, if_true]

theorem CoreSt.trapVal_of_arch {x y : CoreSt} (h : x.arch = y.arch) : x.trapVal = y.trapVal := (congrArg CoreSt.trapVal h :)

/-- A core whose state has been set keeps it, and its trap value, over bookkeeping. -/
theorem Quiet.halted {s u : State} {c : Fin 8} (h : Quiet (s.setCoreState c 3) u) :
    u.coreState c = 3 ∧ (u.core c).trapVal = (s.core c).trapVal := by
  have hset : ((s.setCoreState c 3).core c).trapVal = (s.core c).trapVal := CoreSt.trapVal_of_arch (s.setCoreState_arch c 3 c)
  exact ⟨(h.coreState c).trans (s.setCoreState_coreState c (by decide)), (h.trapVal c).trans hset⟩

/-- CORE0, CORE1 and the user cores stay halted. -/
theorem State.coreHalt_halted (s : State) {c : Fin 8} (hc : c.val < 2 ∨ 6 ≤ c.val) (cause : Nat) :
    (s.coreHalt c cause).coreState c = 3 ∧ ((s.coreHalt c cause).core c).trapVal = (s.core c).trapVal := by
  generalize hu : s.coreHalt c cause = u
  unfold State.coreHalt at hu
  extract_lets x action halted at hu
  have haction : action ≠ 0 := by
    unfold action
    split
    · decide
    · rw [if_neg (by omega)]; decide
  have hhalted : Quiet (s.setCoreState c 3) halted := State.raise_quiet ..
  rw [if_neg haction] at hu
  rw [← hu]
  exact Quiet.halted (hhalted.trans (halted.modCore_quiet c (by intro _; rfl)))

theorem State.hasImage_kept {L : List Part} {s t : State} (k : Kept L s t) (hk : L.contains .keys = false) (hs : L.contains .sec = false) (c : Nat) :
    t.hasImage c = s.hasImage c := by
  rw [State.hasImage, k.sec_eq hs hk, State.hasImage]

/-- A core with an image restarts at its entry. -/
theorem State.coreRestart_shows {s : State} {c : Fin 8} (himage : s.hasImage c = true) :
    (s.coreRestart c).coreState c = 1 ∧ ((s.coreRestart c).core c).pc = Config.entryPc c ∧ ((s.coreRestart c).core c).active = false := by
  have himage' : (s.coreReset c).hasImage c = true := (State.hasImage_kept State.coreReset_kept rfl rfl c).trans himage
  unfold State.coreRestart
  extract_lets started
  have hstarted : started = ((s.coreReset c).setCoreState c 1).modCore c fun x => { x with pc := Config.entryPc c, dog := ⟨0, (s.coreReset c).time.tick⟩ } :=
    if_pos himage'
  have hshown : started.coreState c = 1 ∧ (started.core c).pc = Config.entryPc c ∧ (started.core c).active = false := by
    rw [hstarted, State.modCore_coreState, State.core_modCore]
    refine ⟨(s.coreReset c).setCoreState_coreState c (by decide), rfl, ?_⟩
    refine (congrArg CoreSt.active ((s.coreReset c).setCoreState_arch c 1 c) : _).trans ?_
    show ((s.coreReset c).core c).active = false
    rw [State.coreReset, State.core_modCore]
  obtain ⟨hstate, hpc, hact⟩ := hshown
  split
  · have hquiet := started.failParked_quiet
    exact ⟨(hquiet.coreState c).trans hstate, (hquiet.pc c).trans hpc, (hquiet.active c).trans hact⟩
  · exact ⟨hstate, hpc, hact⟩

theorem State.coreHalt_restarts (s : State) {c : Fin 8} (hlo : 2 ≤ c.val) (hhi : c.val < 6) (cause : Nat) :
    ∃ u : State, s.coreHalt c cause = u.coreRestart c ∧ u.hasImage c = true := by
  generalize hu : s.coreHalt c cause = u
  unfold State.coreHalt at hu
  extract_lets x action halted at hu
  have haction : action = 0 := by
    unfold action
    rw [if_neg (by omega), if_pos hhi]
  rw [if_pos haction] at hu
  refine ⟨halted, hu.symm, ?_⟩
  simp [State.hasImage, hhi]

theorem State.trap_stored (s : State) (c cause : Nat) (val epc : Word) (e : Nat) :
    (((s.storeTrap c cause val epc).perf c e).core c).trapVal = val :=
  ((State.perf_quiet ..).trapVal c).trans (by rw [State.storeTrap_core])

theorem getLsbD_setBit (w : BitVec 8) {i : Nat} (hi : i < 8) : (w ||| BitVec.ofNat 8 (2 ^ i)).getLsbD i = true := by
  rw [BitVec.getLsbD_or, BitVec.getLsbD_ofNat, decide_eq_true hi, Nat.testBit_two_pow_self]
  exact Bool.or_true _

/-! ### The local block and the watchdogs (spec/16 R496, R498, R500, R508) -/

theorem exec_mbPost {s : State} {c : Fin 8} (v : Word) (hup : s.up = true) (huser : 6 ≤ c.val) :
    exec (.mbPost c v) s = .next (s.mbPost c (v.toNat % 8)) := by
  show execMbPost c v s = _
  simp [execMbPost, hup, huser]

theorem State.mbPost_busy {s : State} {c i : Nat} (hi : i < 8) (hfree : (s.core c).mbBusy.getLsbD i = false) :
    ((s.mbPost c i).core c).mbBusy.getLsbD i = true := by
  have hperf (u : State) : ((u.perf c 29).core c).mbBusy = (u.core c).mbBusy := by
    unfold State.perf
    extract_lets n counted a
    have hcounted : (counted.core c).mbBusy = (u.core c).mbBusy := by rw [State.core_modCore]
    split
    · exact hcounted
    · rw [State.raiseInt, State.core_modCore]
      exact hcounted
  rw [State.mbPost, hfree, if_neg Bool.false_ne_true, hperf, State.core_modCore]
  exact getLsbD_setBit _ hi

theorem exec_beatAck {s : State} {c : Fin 8} {v : Word} (hup : s.up = true) (hbit : v.getLsbD 31 = true) :
    exec (.beatAck c v) s = .next (s.beatAck c) := by
  show execBeatAck c v s = _
  rw [execBeatAck, hup, hbit]
  rfl

theorem exec_coreWdtKick {s : State} {c : Fin 8} (v : Word) (hup : s.up = true) : exec (.coreWdtKick c v) s = .next (s.coreKick c) := by
  show execCoreWdtKick c v s = _
  rw [execCoreWdtKick, if_pos hup]

theorem exec_evtRelease {s : State} {c : Fin 8} {v : Word} (hup : s.up = true) (hbit : v.getLsbD 31 = true) :
    exec (.evtRelease c v) s = .next (s.evtRelease c) := by
  show execEvtRelease c v s = _
  rw [execEvtRelease, hup, hbit]
  rfl

theorem exec_coreWdtWarn {s : State} {c : Fin 8} (hat : s.coreWdtAt c 3 = true) : exec (.coreWdtWarn c) s = .next (s.raiseInt c 5) := by
  show execCoreWdtWarn c s = _
  rw [execCoreWdtWarn, if_pos hat]

theorem State.raiseInt_pend (s : State) (c : Nat) {i : Nat} (hi : i < 8) : ((s.raiseInt c i).core c).intPend.getLsbD i = true := by
  rw [State.raiseInt, State.core_modCore]
  exact getLsbD_setBit _ hi

/-- CORE_WDT: the event, then the core's own end. -/
theorem exec_coreWdt {s : State} {c : Fin 8} (hat : s.coreWdtAt c 4 = true) : ∃ u, Quiet s u ∧ u.hasImage c = s.hasImage c ∧
    exec (.coreWdt c) s = .next (if c.val < 2 then ((u.setCoreState c 0).awake c).modCore c fun x => { x with active := false }
      else u.coreRestart c) := by
  refine ⟨s.raise 0x0D02 16 [(0, 1, c), (4, 4, wdtMs (s.fld (F.coreWdt_TIMEOUT_MS c))), (8, 4, s.beat)], State.raise_quiet ..,
    State.hasImage_kept State.raise_kept rfl rfl c, ?_⟩
  show execCoreWdt c s = _
  simp only [execCoreWdt, hat, if_true]

/-! ### Counters and tags (spec/16 R509, R512) -/

theorem exec_perfWrap {s : State} {c : Fin 8} (e : Fin 40) (hup : s.up = true) : exec (.perfWrap c e) s = .next (s.timeWrap c e) := by
  show execPerfWrap c e s = _
  rw [execPerfWrap, if_pos hup]

/-- A counter that counts time has wrapped: its sticky bit is set, and interrupt 6 is pending. -/
theorem State.timeWrap_shows {s : State} {c e : Nat} (he : e ≤ 2)
    (hwrap : Tab.get (s.core c).wraps 0 e < (if e = 0 then s.cycles c else if e = 1 then s.sleepCycles c else s.issueSlots c) / 2 ^ 48) :
    ((s.timeWrap c e).core c).intPend.getLsbD 6 = true ∧ bitAt ((s.timeWrap c e).reg (Reg.perfWrapLo c)).toNat (e % 32) = true := by
  unfold State.timeWrap
  extract_lets n counted
  rw [if_neg (show ¬(2 < e ∨ n ≤ Tab.get (s.core c).wraps 0 e) by omega)]
  refine ⟨State.raiseInt_pend _ c (by decide), ?_⟩
  have hreg (u : State) : (u.raiseInt c 6).reg (Reg.perfWrapLo c) = u.reg (Reg.perfWrapLo c) := rfl
  have hmod : e % 32 = e := Nat.mod_eq_of_lt (by omega)
  rw [hreg, State.reg_setReg_same, hmod, bitAt, BitVec.toNat_or, Nat.testBit_or, BitVec.toNat_ofNat, Nat.testBit_mod_two_pow,
    Nat.testBit_two_pow_self, decide_eq_true (show e < 32 by omega)]
  exact Bool.or_true _

theorem State.timeWrap_none (s : State) (c : Nat) {e : Nat} (he : 2 < e) : s.timeWrap c e = s := if_pos (.inl he)

theorem exec_tagCountdown {s : State} {c : Fin 8} (hruns : s.running c = true) (hk : s.tagK c ≠ 0) (hzero : (s.core c).countdown = 0) :
    exec (.tagCountdown c) s = .next (s.tagExpire c) := by
  show execTagCountdown c s = _
  rw [execTagCountdown, hruns, hzero, bne_iff_ne.2 hk]
  rfl

theorem State.tagK_congr {s t : State} {c : Nat} (h : t.fld (F.perfTagCfg_K c) = s.fld (F.perfTagCfg_K c)) : t.tagK c = s.tagK c := by
  rw [State.tagK, h, State.tagK]

/-- What a count leaves of the tag unit. -/
theorem State.perf_tag (s : State) (c : Fin 8) (e : Nat) : (s.perf c e).tagK c = s.tagK c ∧ ((s.perf c e).core c).lfsr = (s.core c).lfsr ∧
    ((s.perf c e).core c).tagDue = (s.core c).tagDue := by
  refine ⟨State.tagK_congr ((s.perf_quiet c e 1).fld (rowsApart_at (a := 0x220210) rfl c.isLt rfl)), ?_⟩
  unfold State.perf
  extract_lets n counted a
  have hcounted : (counted.core c).lfsr = (s.core c).lfsr ∧ (counted.core c).tagDue = (s.core c).tagDue := by
    rw [State.core_modCore]
    exact ⟨rfl, rfl⟩
  split
  · exact hcounted
  · rw [State.raiseInt, State.core_modCore]
    exact hcounted

theorem State.tagLoad_core {s : State} {c : Nat} (hk : s.tagK c ≠ 0) : (s.tagLoad c).core c =
    { s.core c with lfsr := (tagNext c (s.tagK c) 25 (s.core c).lfsr).1, countdown := (tagNext c (s.tagK c) 25 (s.core c).lfsr).2 } := by
  rw [State.tagLoad, if_neg hk]
  exact State.core_modCore ..

/-- A countdown ends with room for a tag: the next instruction is tagged, and the countdown is loaded. -/
theorem State.tagExpire_tags {s : State} {c : Fin 8} (hk : s.tagK c ≠ 0) (hdue : (s.core c).tagDue = false) (hflight : (s.core c).tagged = none)
    (hroom : s.fld (F.perfTagStatus_COUNT c) ≠ 64) : ((s.tagExpire c).core c).tagDue = true ∧
    ((s.tagExpire c).core c).countdown = (tagNext c (s.tagK c) 25 (s.core c).lfsr).2 := by
  have hguard : ((s.core c).tagDue || (s.core c).tagged.isSome || s.fld (F.perfTagStatus_COUNT c) == 64) = false := by
    rw [hdue, hflight, beq_eq_false_iff_ne.2 hroom]
    rfl
  have hmark : (s.modCore c fun x => { x with tagDue := true }).tagK c = s.tagK c := rfl
  obtain ⟨htagK, hlfsr, htagDue⟩ := (s.modCore c fun x => { x with tagDue := true }).perf_tag c 38
  simp only [State.tagExpire, hguard, Bool.false_eq_true, if_false]
  rw [State.tagLoad_core (by rwa [htagK, hmark]), htagK, hmark, hlfsr, htagDue, State.core_modCore]
  exact ⟨rfl, rfl⟩

/-- A countdown ends with the buffer full: the tag is lost, which event 39 counts. -/
theorem State.tagExpire_full {s : State} {c : Fin 8} (hk : s.tagK c ≠ 0) (hfull : s.fld (F.perfTagStatus_COUNT c) = 64) :
    Tab.get ((s.tagExpire c).core c).cnt 0 39 = (Tab.get (s.core c).cnt 0 39 + 1) % 2 ^ 48 ∧
    ((s.tagExpire c).core c).tagDue = (s.core c).tagDue := by
  have hguard : ((s.core c).tagDue || (s.core c).tagged.isSome || s.fld (F.perfTagStatus_COUNT c) == 64) = true := by
    rw [hfull, beq_self_eq_true, Bool.or_true]
  have hcount : Tab.get ((s.perf c 39).core c).cnt 0 39 = (Tab.get (s.core c).cnt 0 39 + 1) % 2 ^ 48 := by
    unfold State.perf
    extract_lets n counted a
    have hcounted : Tab.get (counted.core c).cnt 0 39 = (Tab.get (s.core c).cnt 0 39 + 1) % 2 ^ 48 := by
      rw [State.core_modCore, Tab.get_put_same]
    split
    · exact hcounted
    · rw [State.raiseInt, State.core_modCore]
      exact hcounted
  obtain ⟨htagK, -, htagDue⟩ := s.perf_tag c 39
  simp only [State.tagExpire, hguard, if_true]
  rw [State.tagLoad_core (by rwa [htagK])]
  exact ⟨hcount, htagDue⟩

theorem exec_tagPop {s : State} {c : Fin 8} (hup : s.up = true) : exec (.tagPop c) s = .next (s.tagPop c) := by
  show execTagPop c s = _
  rw [execTagPop, if_pos hup]

theorem State.tagPop_shows {s : State} {c : Fin 8} (hsome : s.fld (F.perfTagStatus_COUNT c) ≠ 0) :
    (s.tagPop c).fld (F.perfTagStatus_COUNT c) = s.fld (F.perfTagStatus_COUNT c) - 1 ∧
    (s.tagPop c).fld (F.perfTagStatus_OLDEST c) = (s.fld (F.perfTagStatus_OLDEST c) + 1) % 64 := by
  have hlt : s.fld (F.perfTagStatus_COUNT c) < 2 ^ 7 := Nat.mod_lt _ (show 0 < 2 ^ 7 by decide)
  rw [State.tagPop, if_neg hsome]
  refine ⟨?_, State.fld_setF_of_lt (f := F.perfTagStatus_OLDEST c) _ (show 8 + 6 ≤ 32 by decide) (Nat.mod_lt _ (by decide))⟩
  rw [State.fld_setF_sep _ _ rfl]
  exact State.fld_setF_of_lt (f := F.perfTagStatus_COUNT c) _ (show 0 + 7 ≤ 32 by decide) (by show _ < 2 ^ 7; omega)

/-- Settles O35: a trap and an interrupt end in `State.atVector`, a second trap in `State.coreHalt`; the rest row by row. -/
theorem coreEvents : Obligations.CoreEvents := by
  refine ⟨fun s c cause val hissue hlo hhi hact => ?first, fun s c cause val hissue hlo hhi hact hcore => ?halts,
    fun s c cause val hissue hlo hhi hact h2 h6 => ?restarts, fun s c i hissue hact hdue => ?interrupt,
    fun s c v hup huser hfree => Runs.of_next (exec_mbPost v hup huser) (State.mbPost_busy (Nat.mod_lt _ (by decide)) hfree),
    fun s c v hup hbit => Runs.of_next (exec_beatAck hup hbit) ?ack, fun s c v hup => Runs.of_next (exec_coreWdtKick v hup) ?kick,
    fun s c v hup hbit hsome => Runs.of_next (exec_evtRelease hup hbit) ?release,
    fun s c hat => Runs.of_next (exec_coreWdtWarn hat) (s.raiseInt_pend c (by decide)), fun s c hat hpair => ?held,
    fun s c hat h2 himage => ?restart, fun s c e hup he hwrap => Runs.of_next (exec_perfWrap e hup) ?wrap, fun s c e he => ?none,
    fun s c hruns hk hzero hdue hflight hroom => Runs.of_next (exec_tagCountdown hruns hk hzero) (State.tagExpire_tags hk hdue hflight hroom),
    fun s c hruns hk hzero hfull => Runs.of_next (exec_tagCountdown hruns hk hzero) (State.tagExpire_full hk hfull),
    fun s c hup hsome => Runs.of_next (exec_tagPop hup) (State.tagPop_shows hsome)⟩
  case first =>
    obtain ⟨u, hu, hexec⟩ := exec_trap val hissue hlo hhi
    obtain ⟨htrapped, hval, -⟩ := State.trap_trapped hu c (show cause.toNat < 256 from cause.isLt) val hact
    exact Runs.of_next hexec ⟨htrapped, hval⟩
  case halts =>
    obtain ⟨u, hu, hexec⟩ := exec_trap val hissue hlo hhi
    rw [State.trap_halts ((hu.active c).trans hact)] at hexec
    obtain ⟨hstate, hval⟩ := ((u.storeTrap c cause.toNat val (u.core c).pc).perf c 34).coreHalt_halted hcore cause.toNat
    exact Runs.of_next hexec ⟨hstate, hval.trans (State.trap_stored ..)⟩
  case restarts =>
    obtain ⟨u, hu, hexec⟩ := exec_trap val hissue hlo hhi
    obtain ⟨v, hv, himage⟩ := ((u.storeTrap c cause.toNat val (u.core c).pc).perf c 34).coreHalt_restarts h2 h6 cause.toNat
    rw [State.trap_halts ((hu.active c).trans hact), hv] at hexec
    exact Runs.of_next hexec (State.coreRestart_shows himage)
  case interrupt =>
    obtain ⟨u, val, hu, hexec⟩ := exec_interruptTaken hissue hact hdue
    have hi : i < 8 := maskIdx_lt (List.mem_of_mem_head? hdue)
    obtain ⟨htrapped, -⟩ := State.atVector_trapped hu c (show 0x80 + i < 256 by omega) val (s.core c).pc 33
    exact Runs.of_next hexec htrapped
  case ack =>
    rw [State.beatAck, State.core_modCore]
    exact ⟨rfl, rfl, by simp⟩
  case kick => rw [State.coreKick, State.core_modCore]
  case release =>
    rw [State.evtRelease, if_neg hsome, State.core_modCore]
    exact ⟨rfl, rfl⟩
  case held =>
    obtain ⟨u, -, -, hexec⟩ := exec_coreWdt hat
    rw [if_pos hpair] at hexec
    refine Runs.of_next hexec ⟨?_, ?_⟩
    · rw [State.modCore_coreState, State.awake_coreState, State.setCoreState_coreState _ _ (by decide)]
    · rw [State.core_modCore, State.awake_core]
  case restart =>
    obtain ⟨u, -, himage', hexec⟩ := exec_coreWdt hat
    rw [if_neg (by omega)] at hexec
    obtain ⟨hstate, hpc, -⟩ := State.coreRestart_shows (himage'.trans himage)
    exact Runs.of_next hexec ⟨hstate, hpc⟩
  case wrap =>
    rw [if_pos (show e.val < 32 by omega)]
    exact State.timeWrap_shows he hwrap
  case none =>
    refine ⟨s, ?_, rfl⟩
    show execPerfWrap c e s = _
    rw [execPerfWrap, State.timeWrap_none s c he, ite_self]

end Sys2Proof.Machine
end

section
/-!
The instructions of a core (spec/16 R492, R495, R497, R505, R506): from the words at the pc to what the core writes, or to its trap.
-/
namespace Sys2Proof.Machine
open Sys2Proof

/-! ### What bookkeeping leaves of the banks (spec/16 R497, R501 to R504) -/

theorem State.bankAt_lt {s : State} {a : Nat} {p : Nat × Nat} (h : s.bankAt a = some p) : p.1 < 32 ∧ p.2 < 131072 := by
  unfold State.bankAt at h
  split at h
  next hwindow =>
    extract_lets q o at h
    have hq : q < 8 := by unfold q; omega
    have ho : o < 0x80000 := Nat.mod_lt _ (by decide)
    split at h <;> obtain rfl := Option.some.inj h
    · exact ⟨by show 4 * q + o / 4 % 4 < 32; omega, by show o / 16 * 4 + o % 4 < 131072; omega⟩
    · exact ⟨by show 4 * q + o / 0x20000 < 32; omega, by show o % 0x20000 < 131072; omega⟩
  next => exact nomatch h

theorem Quiet.bankAt {s t : State} (h : Quiet s t) (a : Nat) : t.bankAt a = s.bankAt a := by
  unfold State.bankAt
  split
  next hwindow =>
    have hq : (a - 0x10000000) / 0x80000 < 8 := by omega
    have hilv : t.flag (F.quad_ILV_ACTIVE ((a - 0x10000000) / 0x80000)) = s.flag (F.quad_ILV_ACTIVE ((a - 0x10000000) / 0x80000)) := by
      rw [State.flag, h.fld (rowsApart_at (a := 0x210400) rfl hq rfl), State.flag]
    simp only [hilv]
  next => rfl

theorem Quiet.bankOpen {s t : State} (h : Quiet s t) (m : Nat) {b : Nat} (hb : b < 32) : t.bankOpen m b = s.bankOpen m b := by
  have hfld {f : Fld} (hf : f.addr = Reg.bankCtrl b) : t.fld f = s.fld f := h.fld (hf ▸ rowsApart_at (a := 0x210000) rfl hb rfl)
  rw [State.bankOpen, State.bankOwner, State.flag, hfld rfl, hfld rfl, hfld rfl, State.bankOpen, State.bankOwner, State.flag]

theorem Quiet.rangeOpen {s t : State} (h : Quiet s t) (m a len : Nat) : t.rangeOpen m a len = s.rangeOpen m a len := by
  unfold State.rangeOpen
  congr 1
  funext i
  rw [h.bankAt]
  cases hp : s.bankAt (a + i) with
  | none => rfl
  | some p => exact h.bankOpen m (State.bankAt_lt hp).1

theorem Quiet.memRead {s t : State} (h : Quiet s t) (a len : Nat) : t.memRead a len = s.memRead a len := by
  unfold State.memRead State.bankByte
  simp only [h.bankAt, h.mem]

theorem Quiet.fetchHalf {s t : State} (h : Quiet s t) (c a : Nat) : t.fetchHalf c a = s.fetchHalf c a := by
  unfold State.fetchHalf
  rw [h.rangeOpen, h.memRead]

/-! ### The check bits (spec/16 R506) -/

theorem State.eccCheck_quiet (s : State) (c a n : Nat) (es : List EccErr) : Quiet s (s.eccCheck c a n es).1 := s.eccBank_quiet c a n es

theorem State.eccCheck_clean (s : State) (c a n : Nat) {es : List EccErr} (h : es.any (·.bad) = false) : (s.eccCheck c a n es).2 = none := by
  have hbank : (s.eccBank c a n es).2 = false := by
    rw [State.eccBank, List.any_filter]
    refine List.any_eq_false.2 fun e he => ?_
    have hgood := List.any_eq_false.1 h e he
    simp [Bool.eq_false_iff.2 hgood]
  rw [State.eccCheck, hbank]
  rfl

/-- An uncorrectable error in the first word of an access to a bank. -/
theorem State.eccCheck_bad {s : State} {c a n : Nat} {es : List EccErr} (hbad : (es.any fun e => e.bad && e.word == 0) = true) (hn : 0 < n)
    (hbank : (s.bankAt (a / 4 * 4)).isSome = true) : (s.eccCheck c a n es).2 = some 7 := by
  have hseen : (s.eccBank c a n es).2 = true := by
    obtain ⟨e, he, hword⟩ := List.any_eq_true.1 hbad
    obtain ⟨hbad, hzero⟩ := (Bool.and_eq_true ..).mp hword
    rw [State.eccBank, List.any_filter]
    refine List.any_eq_true.2 ⟨e, he, ?_⟩
    rw [beq_iff_eq.1 hzero, hbad, Nat.mul_zero, Nat.add_zero, hbank, decide_eq_true (show 0 < a % 4 + n by omega)]
    rfl
  rw [State.eccCheck, hseen]
  rfl

/-! ### From the words at the pc to the instruction -/

/-- The words at the pc of core `c` are `w`, of `len` bytes, and encode `r`. -/
def State.decoded (s : State) (c : Nat) (w : Word) (len : Nat) (r : Option Rv) : Prop :=
  (len = 4 ∧ ∃ lo hi, s.fetchHalf c (s.core c).pc.toNat = some lo ∧ lo % 4 = 3 ∧ s.fetchHalf c ((s.core c).pc + 2).toNat = some hi ∧
    w = BitVec.ofNat 32 (lo + 65536 * hi) ∧ decode32 w = r) ∨
  (len = 2 ∧ ∃ lo, s.fetchHalf c (s.core c).pc.toNat = some lo ∧ lo % 4 ≠ 3 ∧ w = BitVec.ofNat 32 lo ∧ decode16 w = r)

theorem State.atPc.decoded {s : State} {c len : Nat} {i : Rv} (h : s.atPc c i len) : ∃ w, s.decoded c w len (some i) := by
  obtain ⟨hlen, lo, hi, hlo, hwide, hhi, hdec⟩ | ⟨hlen, lo, hlo, hnarrow, hdec⟩ := h
  · exact ⟨_, .inl ⟨hlen, lo, hi, hlo, hwide, hhi, rfl, hdec⟩⟩
  · exact ⟨_, .inr ⟨hlen, lo, hlo, hnarrow, rfl, hdec⟩⟩

theorem State.noInsn.decoded {s : State} {c : Nat} {w : Word} (h : s.noInsn c w) : ∃ len, s.decoded c w len none := by
  obtain hwide | hnarrow := h
  · exact ⟨4, .inl ⟨rfl, hwide⟩⟩
  · exact ⟨2, .inr ⟨rfl, hnarrow⟩⟩

theorem Quiet.decoded {s t : State} (h : Quiet s t) {c len : Nat} {w : Word} {r : Option Rv} (hd : s.decoded c w len r) : t.decoded c w len r := by
  unfold State.decoded
  rw [h.pc, h.fetchHalf, h.fetchHalf]
  exact hd

/-- The words at the pc without an uncorrectable error: the instruction runs, and where they encode none there is a trap. -/
theorem State.rvStep_decoded {s : State} {c : Fin 8} {len : Nat} {w : Word} {r : Option Rv} {e : EccSeen} (hclean : e.fetch.any (·.bad) = false)
    (h : s.decoded c w len r) : s.rvStep c e = r.elim ((s.eccCheck c (s.core c).pc.toNat len e.fetch).1.rvTrap c 2 w 0 w)
      fun i => (s.eccCheck c (s.core c).pc.toNat len e.fetch).1.rvExec c i len w e.data := by
  have hecc := s.eccCheck_clean c (s.core c).pc.toNat len hclean
  obtain ⟨rfl, lo, hi, hlo, hwide, hhi, rfl, rfl⟩ | ⟨rfl, lo, hlo, hnarrow, rfl, rfl⟩ := h
  · simp only [State.rvStep, hlo, hwide, hhi, decide_true, if_true, hecc]
    cases decode32 (BitVec.ofNat 32 (lo + 65536 * hi)) with
    | none => simp only [Option.elim_none]
    | some i => simp only [Option.elim_some]
  · simp only [State.rvStep, hlo, hnarrow, decide_false, Bool.false_eq_true, if_false, hecc, Nat.mul_zero, Nat.add_zero]
    cases decode16 (BitVec.ofNat 32 lo) with
    | none => simp only [Option.elim_none]
    | some i => simp only [Option.elim_some]

theorem State.rvStep_unfetched {s : State} {c : Fin 8} (e : EccSeen) (h : s.fetchHalf c (s.core c).pc.toNat = none) :
    s.rvStep c e = s.rvTrap c 1 0 0 (s.core c).pc := by
  simp only [State.rvStep, h]

/-- An uncorrectable error in the word of an instruction of 2 bytes. -/
theorem State.rvStep_bad {s : State} {c : Fin 8} {e : EccSeen} {lo : Nat} (hlo : s.fetchHalf c (s.core c).pc.toNat = some lo) (hnarrow : lo % 4 ≠ 3)
    (hbad : (e.fetch.any fun x => x.bad && x.word == 0) = true) (hbank : (s.bankAt ((s.core c).pc.toNat / 4 * 4)).isSome = true) :
    ∃ u w, Quiet s u ∧ s.rvStep c e = u.rvTrap c 7 w 0 (s.core c).pc := by
  have hecc := State.eccCheck_bad (c := c) (n := 2) hbad (by decide) hbank
  refine ⟨_, BitVec.ofNat 32 lo, s.eccCheck_quiet c (s.core c).pc.toNat 2 e.fetch, ?_⟩
  simp only [State.rvStep, hlo, hnarrow, decide_false, Bool.false_eq_true, if_false, hecc, Nat.mul_zero, Nat.add_zero]

/-! ### RV32IMC_INSTRUCTION -/

theorem exec_rvIssued {s : State} {c : Fin 8} (e : EccSeen) (h : s.mayIssue c = true) :
    exec (.rv32imcInstruction c e) s = .next ((s.entered c).rvStep c e) :=
  congrArg Host.Outcome.next (State.issue_of_mayIssue h _)

/-- The instruction at the pc runs on a state to which there has been bookkeeping only. -/
theorem exec_atPc {s : State} {c : Fin 8} {len : Nat} {i : Rv} {e : EccSeen} (hclean : e.fetch.any (·.bad) = false) (hissue : s.mayIssue c = true)
    (hat : s.atPc c i len) : ∃ u w, Quiet s u ∧ exec (.rv32imcInstruction c e) s = .next (u.rvExec c i len w e.data) := by
  obtain ⟨w, hw⟩ := hat.decoded
  rw [exec_rvIssued e hissue, State.rvStep_decoded hclean ((s.entered_quiet c).decoded hw), Option.elim_some]
  exact ⟨_, w, (s.entered_quiet c).trans (State.eccCheck_quiet ..), rfl⟩

theorem exec_noInsn {s : State} {c : Fin 8} {w : Word} {e : EccSeen} (hclean : e.fetch.any (·.bad) = false) (hissue : s.mayIssue c = true)
    (hnone : s.noInsn c w) : ∃ u, Quiet s u ∧ exec (.rv32imcInstruction c e) s = .next (u.rvTrap c 2 w 0 w) := by
  obtain ⟨len, hw⟩ := hnone.decoded
  rw [exec_rvIssued e hissue, State.rvStep_decoded hclean ((s.entered_quiet c).decoded hw), Option.elim_none]
  exact ⟨_, (s.entered_quiet c).trans (State.eccCheck_quiet ..), rfl⟩

/-! ### Instructions one by one -/

/-- Registers that are written after bookkeeping, then the instruction retires. -/
theorem State.retire_setX (u : State) (c rd len : Nat) (v insn daddr next : Word) :
    ((u.setX c rd v).retire c len insn daddr next).wrote c rd v next := State.retire_wrote (u.getX_setX ..) ..

theorem State.retire_pc (s : State) (c len : Nat) (insn daddr next : Word) : ((s.retire c len insn daddr next).core c).pc = next := by
  obtain ⟨u, -, heq⟩ := s.retire_eq c len insn daddr next
  rw [heq, State.core_setPc]

theorem State.retire_mem (s : State) (c len : Nat) (insn daddr next : Word) : (s.retire c len insn daddr next).cores.mem = s.cores.mem := by
  obtain ⟨u, hu, heq⟩ := s.retire_eq c len insn daddr next
  rw [heq]
  exact hu.mem

/-- One byte of a store of `v` at `a`. -/
def State.writeByte (s : State) (a v i : Nat) : State :=
  match s.bankAt (a + i) with
  | some p => { s with cores := { s.cores with mem := Tab.put s.cores.mem 0 (131072 * p.1 + p.2) (BitVec.ofNat 8 (v / 2 ^ (8 * i))) } }
  | none => s

theorem State.memWrite_bytes (s : State) (a n v : Nat) : s.memWrite a n v = s.each (List.range n) fun u i => u.writeByte a v i := rfl

theorem Quiet.writeByte {s t : State} (h : Quiet s t) (a v i : Nat) : Quiet (s.writeByte a v i) (t.writeByte a v i) := by
  simp only [State.writeByte, h.bankAt]
  cases s.bankAt (a + i) with
  | none => exact h
  | some p => exact ⟨h.arch, congrArg (Tab.put · 0 _ _) h.mem, ⟨h.regs.same⟩⟩

theorem Quiet.memWrite {s t : State} (h : Quiet s t) (a n v : Nat) : Quiet (s.memWrite a n v) (t.memWrite a n v) := by
  simp only [State.memWrite_bytes]
  induction List.range n generalizing s t with
  | nil => exact h
  | cons i l ih => exact ih (h.writeByte a v i)

/-- A load from a bank to which the core has access. -/
theorem State.coreLoad_bank {s : State} {c a n : Nat} {ecc : List EccErr} (hrom : ¬(c = 5 ∧ inRegion a n 0 0x10000 = true))
    (hopen : s.rangeOpen c a n = true) (hclean : ecc.any (·.bad) = false) :
    ∃ u, Quiet s u ∧ s.coreLoad c a n ecc = (u, none, s.memRead a n) := by
  refine ⟨_, (s.splitBank_quiet c a n).trans (State.eccCheck_quiet _ c a n ecc), ?_⟩
  simp only [State.coreLoad, if_neg hrom, hopen, if_true, State.eccCheck_clean _ c a n hclean]

theorem State.coreLoad_noAccess {s : State} {c a n : Nat} (ecc : List EccErr) (h : s.noAccess c a n) : s.coreLoad c a n ecc = (s, some 4, 0) := by
  obtain ⟨hbank, hrom, hlocal, hregs, huser⟩ := h
  simp only [State.coreLoad, if_neg hrom, hbank, hlocal, hregs, huser, Bool.false_eq_true, false_and, and_false, if_false]

theorem State.coreStore_bank {s : State} {c : Fin 8} {a n : Nat} (v : Word) {ecc : List EccErr} (hopen : s.rangeOpen c a n = true)
    (hclean : ecc.any (·.bad) = false) : ∃ u, Quiet s u ∧ s.coreStore c a n v ecc = (u.memWrite a n v.toNat, none) := by
  have hes : ((if n = 4 ∧ a % 4 = 0 then [] else ecc).any (·.bad)) = false := by
    split
    · rfl
    · exact hclean
  refine ⟨_, (s.splitBank_quiet c a n).trans (State.eccCheck_quiet _ c a n (if n = 4 ∧ a % 4 = 0 then [] else ecc)), ?_⟩
  simp only [State.coreStore, hopen, if_true, State.eccCheck_clean _ c a n hes, Option.isSome_none, Bool.false_eq_true, if_false]

theorem State.coreStore_noAccess {s : State} {c : Fin 8} {a n : Nat} (v : Word) (ecc : List EccErr) (hbank : s.rangeOpen c a n = false)
    (hlocal : inRegion a n 0x20000000 0x2000 = false) (hregs : inRegion a 1 0x30000000 0x4000000 = false) :
    s.coreStore c a n v ecc = (s, some 5) := by
  simp only [State.coreStore, hbank, hlocal, hregs, Bool.false_eq_true, false_and, and_false, if_false]

theorem Quiet.noAccess {s t : State} (h : Quiet s t) {c a n : Nat} (hn : s.noAccess c a n) : t.noAccess c a n := by
  unfold State.noAccess
  rw [h.rangeOpen]
  exact hn

section
variable (u : State) (c : Fin 8) (len : Nat) (w : Word) (es : List EccErr)

/-- An instruction that writes a register and goes on or jumps. -/
theorem State.rvExec_lui (rd : Nat) (v : Word) : (u.rvExec c (.lui rd v) len w es).wrote c rd v ((u.core c).pc + BitVec.ofNat 32 len) :=
  State.retire_setX ..

theorem State.rvExec_auipc (rd : Nat) (v : Word) :
    (u.rvExec c (.auipc rd v) len w es).wrote c rd ((u.core c).pc + v) ((u.core c).pc + BitVec.ofNat 32 len) := State.retire_setX ..

theorem State.rvExec_jal (rd : Nat) (off : Word) :
    (u.rvExec c (.jal rd off) len w es).wrote c rd ((u.core c).pc + BitVec.ofNat 32 len) ((u.core c).pc + off) := State.retire_setX ..

theorem State.rvExec_jalr (rd rs1 : Nat) (off : Word) : (u.rvExec c (.jalr rd rs1 off) len w es).wrote c rd ((u.core c).pc + BitVec.ofNat 32 len)
    ((u.getX c rs1 + off) &&& 0xFFFFFFFE#32) := State.retire_setX ..

theorem State.rvExec_aluImm (op : AluOp) (rd rs1 : Nat) (v : Word) : (u.rvExec c (.aluImm op rd rs1 v) len w es).wrote c rd
    (op.run (u.getX c rs1) v) ((u.core c).pc + BitVec.ofNat 32 len) := State.retire_setX ..

theorem State.rvExec_alu (op : AluOp) (rd rs1 rs2 : Nat) : (u.rvExec c (.alu op rd rs1 rs2) len w es).wrote c rd
    (op.run (u.getX c rs1) (u.getX c rs2)) ((u.core c).pc + BitVec.ofNat 32 len) := State.retire_setX ..

theorem State.rvExec_branch (k : BrCond) (rs1 rs2 : Nat) (off : Word) : ((u.rvExec c (.branch k rs1 rs2 off) len w es).core c).pc =
    (u.core c).pc + if k.holds (u.getX c rs1) (u.getX c rs2) then off else BitVec.ofNat 32 len := by
  unfold State.rvExec
  dsimp only
  split
  · exact State.retire_pc ..
  · exact State.retire_pc ..

theorem State.rvExec_load {n rd rs1 : Nat} {signed : Bool} {off : Word} (hrom : ¬(c = 5 ∧ inRegion (u.getX c rs1 + off).toNat n 0 0x10000 = true))
    (hopen : u.rangeOpen c (u.getX c rs1 + off).toNat n = true) (hclean : es.any (·.bad) = false) :
    (u.rvExec c (.load n signed rd rs1 off) len w es).wrote c rd (if signed then sext (8 * n) (u.memRead (u.getX c rs1 + off).toNat n) else
      BitVec.ofNat 32 (u.memRead (u.getX c rs1 + off).toNat n)) ((u.core c).pc + BitVec.ofNat 32 len) := by
  have hcore : ¬(c.val = 5 ∧ inRegion (u.getX c rs1 + off).toNat n 0 0x10000 = true) := fun h => hrom ⟨Fin.ext h.1, h.2⟩
  obtain ⟨v, -, hload⟩ := State.coreLoad_bank hcore hopen hclean
  unfold State.rvExec
  simp only [hload]
  exact State.retire_setX ..

theorem State.rvExec_store {n rs1 rs2 : Nat} {off : Word} (hopen : u.rangeOpen c (u.getX c rs1 + off).toNat n = true)
    (hclean : es.any (·.bad) = false) : ((u.rvExec c (.store n rs1 rs2 off) len w es).core c).pc = (u.core c).pc + BitVec.ofNat 32 len ∧
    (u.rvExec c (.store n rs1 rs2 off) len w es).cores.mem = (u.memWrite (u.getX c rs1 + off).toNat n (u.getX c rs2).toNat).cores.mem := by
  obtain ⟨v, hv, hstore⟩ := State.coreStore_bank (u.getX c rs2) hopen hclean
  unfold State.rvExec
  simp only [hstore]
  refine ⟨State.retire_pc .., ?_⟩
  rw [State.retire_mem, (State.perf_quiet ..).mem, (hv.memWrite ..).mem]

theorem State.rvExec_fence : ((u.rvExec c .fence len w es).core c).pc = (u.core c).pc + BitVec.ofNat 32 len ∧
    (u.rvExec c .fence len w es).cores.mem = u.cores.mem := ⟨State.retire_pc .., State.retire_mem ..⟩

theorem State.rvExec_load_fault {n rd rs1 : Nat} {signed : Bool} {off : Word} (h : u.noAccess c (u.getX c rs1 + off).toNat n) :
    u.rvExec c (.load n signed rd rs1 off) len w es = u.rvTrap c 4 w (u.getX c rs1 + off) (u.getX c rs1 + off) := by
  unfold State.rvExec
  simp only [State.coreLoad_noAccess es h]

theorem State.rvExec_store_fault {n rs1 rs2 : Nat} {off : Word} (hbank : u.rangeOpen c (u.getX c rs1 + off).toNat n = false)
    (hlocal : inRegion (u.getX c rs1 + off).toNat n 0x20000000 0x2000 = false)
    (hregs : inRegion (u.getX c rs1 + off).toNat 1 0x30000000 0x4000000 = false) :
    u.rvExec c (.store n rs1 rs2 off) len w es = u.rvTrap c 5 w (u.getX c rs1 + off) (u.getX c rs1 + off) := by
  unfold State.rvExec
  simp only [State.coreStore_noAccess (u.getX c rs2) es hbank hlocal hregs]

end

/-- ECALL and EBREAK: the instruction is squashed, and TRAP_VAL is free. -/
theorem State.squash_trapFree {s u : State} (h : Quiet s u) (c : Fin 8) {cause : Nat} (hcause : cause < 256) (insn : Word)
    (hact : (s.core c).active = false) : s.trapped ((u.squash c insn 0 2).trapFree c cause) c cause (s.core c).pc := by
  have hfresh : Quiet s (u.squash c insn 0 2).fresh := h.trans ((u.squash_quiet ..).trans (State.fresh_quiet _))
  obtain ⟨htrapped, -⟩ := State.trap_trapped hfresh c hcause (Config.trapVal (u.squash c insn 0 2).freeCtr) hact
  exact htrapped

/-- Settles O33: the words at the pc are decoded once (`State.rvStep_decoded`), then each instruction by its own rule, and each fault
as a trap after bookkeeping. -/
theorem coreInstructions : Obligations.CoreInstructions := by
  refine ⟨fun s c len op rd rs1 v e hclean hissue hat => ?aluImm, fun s c len op rd rs1 rs2 e hclean hissue hat => ?alu,
    fun s c len rd off e hclean hissue hat => ?jal, fun s c len k rs1 rs2 off e hclean hissue hat => ?branch,
    fun s c len n rd rs1 signed off e hclean hissue hrom hat hopen hdata => ?load,
    fun s c len n rs1 rs2 off e hclean hissue hat hopen hdata => ?store, fun s c len e hclean hissue hat hact => ?ecall,
    fun s c e lo hissue hlo hnarrow hbad hbank hact => ?eccError,
    fun s c e hissue => ⟨s, congrArg Host.Outcome.next (State.issue_none _ (by rw [hissue]; rfl)), rfl⟩,
    fun s c len rd v e hclean hissue hat => ?lui, fun s c len rd v e hclean hissue hat => ?auipc,
    fun s c len rd rs1 off e hclean hissue hat => ?jalr, fun s c len e hclean hissue hat => ?fence,
    fun s c len e hclean hissue hat hact => ?ebreak, fun s c w e hclean hissue hnone hact => ?noInsn,
    fun s c e hissue hnone hact => ?unfetched, fun s c len n rd rs1 signed off e hclean hissue hat hno hact => ?loadFault,
    fun s c len n rs1 rs2 off e hclean hissue hat hbank hlocal hregs hact => ?storeFault⟩
  case noInsn =>
    obtain ⟨u, hu, hexec⟩ := exec_noInsn hclean hissue hnone
    obtain ⟨htrapped, hval, -⟩ := State.rvTrap_trapped hu c (show 2 < 256 by decide) w 0 w hact
    exact Runs.of_next hexec ⟨htrapped, hval⟩
  case eccError =>
    have hu := s.entered_quiet c
    obtain ⟨v, w, hv, hstep⟩ := State.rvStep_bad (e := e) (by rw [hu.fetchHalf, hu.pc, hlo]) hnarrow hbad (by rw [hu.bankAt, hu.pc, hbank])
    obtain ⟨htrapped, -⟩ := State.rvTrap_trapped (hu.trans hv) c (show 7 < 256 by decide) w 0 ((s.entered c).core c).pc hact
    exact Runs.of_next (by rw [exec_rvIssued e hissue, hstep]) htrapped
  case unfetched =>
    have hu := s.entered_quiet c
    have hstep := State.rvStep_unfetched e (s := s.entered c) (c := c) (by rw [hu.fetchHalf, hu.pc, hnone])
    obtain ⟨htrapped, hval, -⟩ := State.rvTrap_trapped hu c (show 1 < 256 by decide) 0 0 ((s.entered c).core c).pc hact
    exact Runs.of_next (by rw [exec_rvIssued e hissue, hstep]) ⟨htrapped, hval.trans (hu.pc c)⟩
  all_goals obtain ⟨u, w, hu, hexec⟩ := exec_atPc hclean hissue hat
  case ecall => exact Runs.of_next hexec (State.squash_trapFree hu c (show 6 < 256 by decide) w hact)
  case ebreak => exact Runs.of_next hexec (State.squash_trapFree hu c (show 3 < 256 by decide) w hact)
  case loadFault =>
    rw [← hu.getX] at hno
    rw [State.rvExec_load_fault u c len w e.data (hu.noAccess hno), hu.getX] at hexec
    obtain ⟨htrapped, hval, -⟩ := State.rvTrap_trapped hu c (show 4 < 256 by decide) w (s.getX c rs1 + off) (s.getX c rs1 + off) hact
    exact Runs.of_next hexec ⟨htrapped, hval⟩
  case storeFault =>
    rw [State.rvExec_store_fault u c len w e.data (by rw [hu.rangeOpen, hu.getX, hbank]) (by rw [hu.getX, hlocal]) (by rw [hu.getX, hregs]), hu.getX] at hexec
    exact Runs.of_next hexec (State.rvTrap_trapped hu c (show 5 < 256 by decide) w (s.getX c rs1 + off) (s.getX c rs1 + off) hact)
  all_goals refine Runs.of_next hexec ?_
  case store =>
    obtain ⟨hpc, hmem⟩ := State.rvExec_store u c len w e.data (rs2 := rs2) (by rw [hu.rangeOpen, hu.getX, hopen]) hdata
    exact ⟨hpc.trans (by rw [hu.pc]), hmem.trans (by rw [hu.getX, hu.getX, (hu.memWrite ..).mem])⟩
  case fence =>
    obtain ⟨hpc, hmem⟩ := u.rvExec_fence c len w e.data
    exact ⟨hpc.trans (by rw [hu.pc]), hmem.trans hu.mem⟩
  case load =>
    rw [← hu.getX] at hrom hopen ⊢
    rw [← hu.rangeOpen] at hopen
    rw [← hu.pc, ← hu.memRead]
    exact State.rvExec_load u c len w e.data hrom hopen hdata
  all_goals simp only [← hu.pc, ← hu.getX]
  case aluImm => exact State.rvExec_aluImm ..
  case alu => exact State.rvExec_alu ..
  case jal => exact State.rvExec_jal ..
  case branch => exact State.rvExec_branch ..
  case lui => exact State.rvExec_lui ..
  case auipc => exact State.rvExec_auipc ..
  case jalr => exact State.rvExec_jalr ..

end Sys2Proof.Machine
end

section
/-!
The memory banks (spec/16 R501 to R504, R513): handovers, power, and MEM_COPY.
-/
namespace Sys2Proof.Machine
open Sys2Proof

/-! ### The address map is one to one (spec/16 R497, R503) -/

theorem State.bankAt_isSome (s : State) {a : Nat} (h : 0x10000000 ≤ a ∧ a < 0x10400000) : (s.bankAt a).isSome = true := by
  rw [State.bankAt, if_pos h]
  extract_lets q o
  split <;> rfl

/-- The address of byte `p.2` of bank `p.1`. -/
def State.addrOf (s : State) (p : Nat × Nat) : Nat :=
  0x10000000 + 0x80000 * (p.1 / 4) +
    if s.flag (F.quad_ILV_ACTIVE (p.1 / 4)) then p.2 / 4 * 16 + p.1 % 4 * 4 + p.2 % 4 else p.1 % 4 * 0x20000 + p.2

theorem State.addrOf_bankAt {s : State} {a : Nat} {p : Nat × Nat} (h : s.bankAt a = some p) : s.addrOf p = a := by
  unfold State.bankAt at h
  split at h
  next hwindow =>
    extract_lets q o at h
    have ha : a = 0x10000000 + 0x80000 * q + o := by unfold q o; omega
    have ho : o < 0x80000 := Nat.mod_lt _ (by decide)
    split at h
    next hilv =>
      obtain rfl := Option.some.inj h
      have hquad : (4 * q + o / 4 % 4) / 4 = q := by omega
      rw [State.addrOf, hquad, if_pos hilv]
      show 0x10000000 + 0x80000 * q + ((o / 16 * 4 + o % 4) / 4 * 16 + (4 * q + o / 4 % 4) % 4 * 4 + (o / 16 * 4 + o % 4) % 4) = a
      omega
    next hilv =>
      obtain rfl := Option.some.inj h
      have hquad : (4 * q + o / 0x20000) / 4 = q := by omega
      rw [State.addrOf, hquad, if_neg hilv]
      show 0x10000000 + 0x80000 * q + ((4 * q + o / 0x20000) % 4 * 0x20000 + o % 0x20000) = a
      omega
  next => exact nomatch h

theorem State.bankAt_inj {s : State} {a b : Nat} {p : Nat × Nat} (ha : s.bankAt a = some p) (hb : s.bankAt b = some p) : a = b :=
  (State.addrOf_bankAt ha).symm.trans (State.addrOf_bankAt hb)

/-- Two bytes of the banks stand under two keys of the table. -/
theorem bankKey_inj {p q : Nat × Nat} (hp : p.2 < 131072) (hq : q.2 < 131072) (h : 131072 * p.1 + p.2 = 131072 * q.1 + q.2) : p = q :=
  Prod.ext (by omega) (by omega)

/-! ### A byte written, and the bytes read -/

/-- The byte at an address of the bank window. -/
def State.byteAt (s : State) (a : Nat) : Nat := ((s.bankAt a).map fun p => (s.bankByte p).toNat).getD 0

theorem State.writeByte_bankAt (s : State) (a v i b : Nat) : (s.writeByte a v i).bankAt b = s.bankAt b := by
  unfold State.writeByte
  split <;> rfl

theorem State.writeByte_bankByte (s : State) {a i : Nat} (v : Nat) {p : Nat × Nat} (h : s.bankAt (a + i) = some p) :
    (s.writeByte a v i).bankByte p = BitVec.ofNat 8 (v / 2 ^ (8 * i)) := by
  rw [State.writeByte, h]
  exact Tab.get_put_same ..

theorem State.writeByte_bankByte_other (s : State) {a i : Nat} (v : Nat) {p : Nat × Nat} (hp : p.2 < 131072) (h : s.bankAt (a + i) ≠ some p) :
    (s.writeByte a v i).bankByte p = s.bankByte p := by
  unfold State.writeByte
  split
  next q hq =>
    have hkey : 131072 * p.1 + p.2 ≠ 131072 * q.1 + q.2 := fun e => h (by rw [hq, bankKey_inj hp (State.bankAt_lt hq).2 e])
    exact Tab.get_put_other _ _ _ hkey
  next => rfl

theorem State.writeByte_byteAt (s : State) (a v : Nat) {i j : Nat} (h : 0x10000000 ≤ a + j ∧ a + j < 0x10400000) :
    (s.writeByte a v i).byteAt (a + j) = if j = i then v / 2 ^ (8 * i) % 256 else s.byteAt (a + j) := by
  obtain ⟨p, hp⟩ := Option.isSome_iff_exists.1 (s.bankAt_isSome h)
  have hbyte (t : State) (ht : t.bankAt (a + j) = some p) : t.byteAt (a + j) = (t.bankByte p).toNat := by rw [State.byteAt, ht]; rfl
  rw [hbyte _ (by rw [State.writeByte_bankAt, hp])]
  split
  next hij => rw [s.writeByte_bankByte v (hij ▸ hp), BitVec.toNat_ofNat]
  next hij =>
    rw [hbyte s hp, s.writeByte_bankByte_other v (State.bankAt_lt hp).2]
    exact fun hi => hij (by have := State.bankAt_inj hi hp; omega)

theorem State.memRead_memWrite_word (s : State) {a : Nat} (v : Nat) (hlo : 0x10000000 ≤ a) (hhi : a < 0x10400000) (halign : a % 4 = 0) :
    (s.memWrite a 4 v).memRead a 4 = v % 2 ^ 32 := by
  have hwindow {j : Nat} (hj : j < 4) : 0x10000000 ≤ a + j ∧ a + j < 0x10400000 := by omega
  have hwrite : s.memWrite a 4 v = (((s.writeByte a v 0).writeByte a v 1).writeByte a v 2).writeByte a v 3 := rfl
  have hread (t : State) : t.memRead a 4 =
      256 * (256 * (256 * (256 * 0 + t.byteAt (a + 3)) + t.byteAt (a + 2)) + t.byteAt (a + 1)) + t.byteAt (a + 0) := rfl
  rw [hread, hwrite]
  simp only [State.writeByte_byteAt _ a v (hwindow (show 0 < 4 by decide)), State.writeByte_byteAt _ a v (hwindow (show 1 < 4 by decide)),
    State.writeByte_byteAt _ a v (hwindow (show 2 < 4 by decide)), State.writeByte_byteAt _ a v (hwindow (show 3 < 4 by decide))]
  simp only [reduceIte, Nat.reduceEqDiff, OfNat.ofNat_ne_zero, zero_ne_one, one_ne_zero]
  omega

/-! ### The control registers of banks and quads -/

section
variable {s : State} {b : Nat} {f : Fld}

theorem State.showIlv_bankCtrl (s : State) (q : Nat) (hb : b < 32) (hf : f.addr = Reg.bankCtrl b) : (s.showIlv q).fld f = s.fld f :=
  State.showIlv_writes.fld (hf ▸ rowsApart_at (a := 0x210000) rfl hb rfl)

theorem State.setQuad_bankCtrl (s : State) {g : Fld} {q : Nat} (v : Nat) (hb : b < 32) (hf : f.addr = Reg.bankCtrl b) (hg : g.addr = Reg.quad q) :
    (s.setF g v).fld f = s.fld f := by
  have hw : Writes [Reg.quad 0] s (s.setF g v) := Writes.setF (hg ▸ Reg.quad_at rfl) .refl
  exact hw.fld (hf ▸ rowsApart_at (a := 0x210000) rfl hb rfl)

end

theorem ownerCode_lt {n : Nat} : ownerCode n < 2 ^ 4 := by
  unfold ownerCode
  split <;> omega

/-- A handover is asked for: PENDING and NEXT show it. -/
def State.asked (s : State) (b n : Nat) : State := (s.setF (F.bankCtrl_NEXT b) n).setF (F.bankCtrl_PENDING b) 1

theorem State.asked_shows (s : State) (b : Nat) {n : Nat} (hn : n < 2 ^ 4) : (s.asked b n).flag (F.bankCtrl_PENDING b) = true ∧
    (s.asked b n).fld (F.bankCtrl_NEXT b) = n := by
  refine ⟨?_, ?_⟩
  · rw [State.flag, State.asked, State.fld_setF_of_lt (f := F.bankCtrl_PENDING b) _ (show 23 + 1 ≤ 32 by decide) (show 1 < 2 ^ 1 by decide)]
    rfl
  · rw [State.asked, State.fld_setF_sep _ _ rfl]
    exact State.fld_setF_of_lt (f := F.bankCtrl_NEXT b) _ (show 24 + 4 ≤ 32 by decide) hn

theorem State.asked_other (s : State) {b d : Nat} (n : Nat) {f : Fld} (hb : b < 32) (h : d ≠ b) (hf : f.addr = Reg.bankCtrl d) :
    (s.asked b n).fld f = s.fld f := by
  have hne : f.addr ≠ Reg.bankCtrl b := hf ▸ (at1_ne hb (by decide) (by decide) h.symm).symm
  rw [State.asked, State.fld_setF_reg _ _ hne, State.fld_setF_reg _ _ hne]

/-- A handover of a bank that is not in an interleaved quad, with POWER as it is. -/
theorem State.bankCtrlWrite_hands {s : State} {src : WrSrc} {b : Nat} {v : Word} (hb : b < 32) (hidle : s.flag (F.bankCtrl_PENDING b) = false)
    (hnew : ownerCode ((F.bankCtrl_NEXT b).of v) ≠ s.bankOwner b) (hmay : s.mayHand src b (ownerCode ((F.bankCtrl_NEXT b).of v)) = true)
    (hilv : s.flag (F.quad_ILV_ACTIVE (b / 4)) = false) (hpower : (F.bankCtrl_POWER b).of v = s.fld (F.bankCtrl_POWER b)) :
    s.bankCtrlWrite src b v = (s.asked b (ownerCode ((F.bankCtrl_NEXT b).of v))).showIlv (b / 4) := by
  have hkept : ((s.asked b (ownerCode ((F.bankCtrl_NEXT b).of v))).showIlv (b / 4)).fld (F.bankCtrl_POWER b) = s.fld (F.bankCtrl_POWER b) := by
    rw [State.showIlv_bankCtrl _ _ hb rfl, State.asked, State.fld_setF_sep _ _ rfl, State.fld_setF_sep _ _ rfl]
  simp only [State.bankCtrlWrite, hidle, hmay, hilv, Bool.not_true, Bool.or_false, Bool.and_false, Bool.false_eq_true, if_false, if_neg hnew]
  exact if_pos (hpower.trans hkept.symm)

/-- A change of POWER alone. -/
theorem State.bankCtrlWrite_power {s : State} (src : WrSrc) {b : Nat} {v : Word} (hidle : s.flag (F.bankCtrl_PENDING b) = false)
    (hsame : ownerCode ((F.bankCtrl_NEXT b).of v) = s.bankOwner b) :
    (s.bankCtrlWrite src b v).fld (F.bankCtrl_POWER b) = (F.bankCtrl_POWER b).of v ∧
    (s.bankCtrlWrite src b v).fld (F.bankCtrl_OWNER b) = s.fld (F.bankCtrl_OWNER b) := by
  have hwrite : s.bankCtrlWrite src b v =
      if (F.bankCtrl_POWER b).of v = s.fld (F.bankCtrl_POWER b) then s else s.setF (F.bankCtrl_POWER b) ((F.bankCtrl_POWER b).of v) := by
    simp only [State.bankCtrlWrite, hidle, hsame, bne_self_eq_false, Bool.false_and, Bool.or_false, Bool.false_eq_true, if_false, if_true]
  rw [hwrite]
  split
  next heq => exact ⟨heq.symm, rfl⟩
  next => exact ⟨State.fld_setF_of_lt _ (show 20 + 2 ≤ 32 by decide) (Fld.of_lt ..), State.fld_setF_sep _ _ rfl⟩

/-- A handover of a whole quad. -/
theorem State.quadWrite_hands {s : State} {src : WrSrc} {q : Nat} {v : Word} (hquad : ownerCode ((F.quad_NEXT q).of v) ≠ 15)
    (hnew : s.bankOwner (4 * q) ≠ ownerCode ((F.quad_NEXT q).of v))
    (hfree : ∀ b ∈ quadBanks q, s.flag (F.bankCtrl_PENDING b) = false ∧ s.mayHand src b (ownerCode ((F.quad_NEXT q).of v)) = true) :
    ∃ u : State, s.quadWrite src q v = u.each (quadBanks q) fun s b => s.asked b (ownerCode ((F.quad_NEXT q).of v)) := by
  have hasks : (ownerCode ((F.quad_NEXT q).of v) != 15 &&
      !((quadBanks q).all fun b => s.bankOwner b == ownerCode ((F.quad_NEXT q).of v) && !s.flag (F.bankCtrl_PENDING b))) = true := by
    rw [bne_iff_ne.2 hquad, Bool.true_and, quadBanks, List.all_cons, beq_eq_false_iff_ne.2 hnew]
    rfl
  have hnone : ((quadBanks q).any fun b => s.flag (F.bankCtrl_PENDING b) || !s.mayHand src b (ownerCode ((F.quad_NEXT q).of v))) = false := by
    refine List.any_eq_false.2 fun b hb => ?_
    obtain ⟨hidle, hmay⟩ := hfree b hb
    rw [hidle, hmay]
    decide
  simp only [State.quadWrite, hasks, hnone, Bool.and_false, Bool.false_eq_true, if_false, Bool.not_true]
  exact ⟨_, rfl⟩

theorem mem_quadBanks {q b : Nat} (h : b ∈ quadBanks q) : 4 * q ≤ b ∧ b < 4 * q + 4 := by
  simp only [quadBanks, List.mem_cons, List.not_mem_nil, or_false] at h
  omega

theorem quadBanks_nodup (q : Nat) : (quadBanks q).Nodup := by
  simp [quadBanks]

theorem State.each_asked {q n : Nat} (hq : q < 8) (hn : n < 2 ^ 4) (s : State) : ∀ b ∈ quadBanks q,
    (s.each (quadBanks q) fun s b => s.asked b n).flag (F.bankCtrl_PENDING b) = true ∧
    (s.each (quadBanks q) fun s b => s.asked b n).fld (F.bankCtrl_NEXT b) = n := by
  refine State.each_own (view := fun v b => (v.flag (F.bankCtrl_PENDING b), v.fld (F.bankCtrl_NEXT b)))
    (P := fun _ _ y => y.1 = true ∧ y.2 = n) (quadBanks_nodup q) (fun v b _ => v.asked_shows b hn) (fun v a _ b hb h => ?_) s
  have hlt : b < 32 := by have := mem_quadBanks hb; omega
  simp only [State.flag]
  rw [v.asked_other n hlt h (f := F.bankCtrl_PENDING a) rfl, v.asked_other n hlt h (f := F.bankCtrl_NEXT a) rfl]

theorem State.fld_putCores (s : State) (x : CoresSt) (f : Fld) : { s with cores := x }.fld f = s.fld f := rfl

/-- A handover is done: the bank has its owner. -/
theorem State.handed_shows {s : State} {b : Nat} (hb : b < 32) (hpending : s.flag (F.bankCtrl_PENDING b) = true) :
    (s.handed b).flag (F.bankCtrl_PENDING b) = false ∧ (s.handed b).fld (F.bankCtrl_OWNER b) = s.fld (F.bankCtrl_NEXT b) := by
  have hshown (f : Fld) (hf : f.addr = Reg.bankCtrl b) : (s.handed b).fld f =
      ((s.setF (F.bankCtrl_OWNER b) (s.fld (F.bankCtrl_NEXT b))).setF (F.bankCtrl_PENDING b) 0).fld f := by
    rw [State.handed, hpending, Bool.not_true, if_neg Bool.false_ne_true]
    rw [State.showIlv_bankCtrl _ _ hb hf]
    split
    · rw [State.setQuad_bankCtrl _ (q := b / 4) _ hb hf rfl, State.fld_putCores]
    · rfl
  refine ⟨?_, ?_⟩
  · rw [State.flag, hshown _ rfl, State.fld_setF_of_lt (f := F.bankCtrl_PENDING b) _ (show 23 + 1 ≤ 32 by decide) (show 0 < 2 ^ 1 by decide)]
    rfl
  · rw [hshown _ rfl, State.fld_setF_sep _ _ rfl]
    exact State.fld_setF_of_lt (f := F.bankCtrl_OWNER b) _ (show 28 + 4 ≤ 32 by decide) (Fld.of_lt ..)

/-- The bytes that a bank which is off has lost. -/
def bankKeeps (b k : Nat) : Bool := !(decide (131072 * b ≤ k) && decide (k < 131072 * (b + 1)))

theorem State.powered_mem (s : State) (b : Nat) : (s.powered b).cores.mem =
    if min 2 (s.fld (F.bankCtrl_POWER b)) = 0 then s.cores.mem.filter fun e => bankKeeps b e.1 else s.cores.mem := by
  unfold State.powered
  extract_lets p cores lost
  show lost.cores.mem = _
  unfold lost
  split <;> rfl

theorem State.powered_state (s : State) (b : Nat) : (s.powered b).fld (F.bankCtrl_POWER_STATE b) = min 2 (s.fld (F.bankCtrl_POWER b)) :=
  State.fld_setF_of_lt (f := F.bankCtrl_POWER_STATE b) _ (show 18 + 2 ≤ 32 by decide) (by show _ < 4; omega)

/-! ### MEM_COPY (spec/16 R513) -/

theorem State.fetched_quiet (s : State) (c : Cmd) : Quiet s (s.fetched c) := by
  have hturn : Quiet s (s.turnPasses c) := ⟨fun _ => rfl, rfl, ⟨fun _ _ => rfl⟩⟩
  unfold State.fetched
  extract_lets turned host unfenced
  have hunfenced : Quiet s unfenced := hturn.trans ⟨fun _ => rfl, rfl, ⟨fun _ _ => rfl⟩⟩
  split
  · exact hunfenced.trans (.of_kept State.advance_kept State.advance_writes rfl (by decide))
  next u i _ => exact hunfenced.trans (unfenced.modCore_quiet u (by intro _; rfl))

/-- A copy from host memory. -/
theorem exec_memCopy_host {s : State} {c : Cmd} (data : List (BitVec 8)) (ecc : List EccErr) (htakes : s.takes c 0x0D01 = true)
    (hok : c.ok 24 [(5, 3), (12, 4)] = true) (halign : c.fld 0 4 % 4 = 0) (hdir : c.fld 4 1 = 0) (hmin : 4 ≤ c.fld 8 4)
    (hmax : c.fld 8 4 ≤ 131072) (hwords : c.fld 8 4 % 4 = 0) (hlo : 0x10000000 ≤ c.fld 0 4) (hhi : c.fld 0 4 + c.fld 8 4 ≤ 0x10400000)
    (hbuf : s.bufOk c.src (c.fld 16 8) (c.fld 8 4) = true) (hsrc : c.src = .host) (hopen : s.rangeOpen 8 (c.fld 0 4) (c.fld 8 4) = true) :
    exec (.memCopy c data ecc) s = .next (State.complete
      ((s.fetched c).memWrite (c.fld 0 4) (c.fld 8 4) (bytesNat (data.take (c.fld 8 4)))) c 0x0D01 st.ok) := by
  show execMemCopy c data ecc s = _
  have hopen' : (s.fetched c).rangeOpen 8 (c.fld 0 4) (c.fld 8 4) = true := (s.fetched_quiet c).rangeOpen .. ▸ hopen
  simp only [execMemCopy]
  rw [start_takes htakes]
  · simp only [hopen', Bool.not_true, Bool.false_eq_true, if_false, hdir, if_true, hsrc]
  · simp only [hok, halign, hdir, hmin, hmax, hwords, hlo, hhi, hbuf, decide_true, Bool.and_true]
    decide

/-- Settles O36: each row through the fields of the control registers, the address map being one to one. -/
theorem banks : Obligations.Banks := by
  refine ⟨fun s b v hup hidle hnew hmay hilv hpower => ?handover, fun s src b v hup hidle hsame => ?power,
    fun s src q v hup hquad hnew hfree => ?quad, fun s b hup hpending => ?done, fun s b hup => ?reached,
    fun s c data ecc htakes hok halign hdir hmin hmax hwords hlo hhi hbuf hsrc hopen => ?copy,
    fun s a v hlo hhi halign => s.memRead_memWrite_word v hlo hhi halign⟩
  case handover =>
    have hexec : exec (.bankHandover .host b v) s = .next (s.bankCtrlWrite .host b v) := congrArg Host.Outcome.next (if_pos hup)
    rw [State.bankCtrlWrite_hands b.isLt hidle hnew hmay hilv hpower] at hexec
    obtain ⟨hpending, hnext⟩ := s.asked_shows b (n := ownerCode ((F.bankCtrl_NEXT b).of v)) ownerCode_lt
    refine Runs.of_next hexec ⟨?_, ?_⟩
    · rw [State.flag, State.showIlv_bankCtrl _ _ b.isLt rfl]
      exact hpending
    · rw [State.showIlv_bankCtrl _ _ b.isLt rfl, hnext]
  case power => exact Runs.of_next (congrArg Host.Outcome.next (if_pos hup)) (State.bankCtrlWrite_power src hidle hsame)
  case quad =>
    have hexec : exec (.quadHandover src q v) s = .next (s.quadWrite src q v) := congrArg Host.Outcome.next (if_pos hup)
    obtain ⟨u, hu⟩ := State.quadWrite_hands hquad hnew hfree
    rw [hu] at hexec
    exact Runs.of_next hexec (u.each_asked q.isLt ownerCode_lt)
  case done => exact Runs.of_next (congrArg Host.Outcome.next (if_pos hup)) (State.handed_shows b.isLt hpending)
  case reached =>
    refine Runs.of_next (congrArg Host.Outcome.next (if_pos hup)) ⟨s.powered_state b, fun hoff o ho => ?_, fun hon => ?_⟩
    · have hkeeps : bankKeeps b (131072 * b.val + o) = false := by
        rw [bankKeeps, decide_eq_true (show 131072 * b.val ≤ 131072 * b.val + o by omega),
          decide_eq_true (show 131072 * b.val + o < 131072 * (b.val + 1) by omega)]
        rfl
      rw [State.powered_mem, hoff, if_pos (by decide), Tab.get, Tab.find_filter (bankKeeps b), hkeeps]
      rfl
    · rw [State.powered_mem, if_neg (by omega)]
  case copy =>
    refine Runs.of_next (exec_memCopy_host data ecc htakes hok halign hdir hmin hmax hwords hlo hhi hbuf hsrc hopen) ⟨_, _, _, _, _, rfl, ?_⟩
    exact ((s.fetched_quiet c).memWrite ..).mem

end Sys2Proof.Machine
end

section
/-!
Stores into banks through the buffers of commands and long operations (spec/16 R499, R501, R513; spec/07 R232).
-/
namespace Sys2Proof.Machine
open Sys2Proof

/-! ### Steps that store into given bytes only -/

theorem Kept.mem_eq {L : List Part} {s t : State} (k : Kept L s t) (h : L.contains .mem = false) : t.cores.mem = s.cores.mem := k.same .mem h

theorem State.bankAt_congr {s t : State} (h : ∀ q < 8, t.flag (F.quad_ILV_ACTIVE q) = s.flag (F.quad_ILV_ACTIVE q)) (a : Nat) :
    t.bankAt a = s.bankAt a := by
  unfold State.bankAt
  split
  next hwindow => simp only [h _ (show (a - 0x10000000) / 0x80000 < 8 by omega)]
  next => rfl

/-- From `s` to `t` the address map stays as it is, and no byte of a bank changes but the `n` bytes at `a`. -/
structure Stores (a n : Nat) (s t : State) : Prop where
  map : ∀ b, t.bankAt b = s.bankAt b
  bytes : Untouched a n s t

theorem Untouched.of_mem {a n : Nat} {s t : State} (h : t.cores.mem = s.cores.mem) : Untouched a n s t := fun p _ _ => by
  rw [State.bankByte, h, State.bankByte]

namespace Stores
variable {a n : Nat} {s t u : State}

theorem of_map (hmap : ∀ b, t.bankAt b = s.bankAt b) (hmem : t.cores.mem = s.cores.mem) : Stores a n s t := ⟨hmap, .of_mem hmem⟩

theorem refl : Stores a n s s := .of_map (fun _ => rfl) rfl

theorem trans (h : Stores a n s u) (k : Stores a n u t) : Stores a n s t :=
  ⟨fun b => (k.map b).trans (h.map b), fun p hp hout => (k.bytes p hp fun i hi => h.map _ ▸ hout i hi).trans (h.bytes p hp hout)⟩

theorem of_quiet (h : Quiet s t) : Stores a n s t := .of_map h.bankAt h.mem

/-- An operation that writes no register of a quad and no byte of a bank. -/
theorem of_writes {L : List Part} {R : List Nat} (k : Kept L s t) (w : Writes R s t) (hL : L.contains .mem = false)
    (hR : rowsApart R 0x210400 8 4 = true) : Stores a n s t := by
  refine .of_map (State.bankAt_congr fun q hq => ?_) (k.mem_eq hL)
  rw [State.flag, w.fld (rowsApart_at hR hq rfl), State.flag]

/-- An operation that leaves registers and banks alone. -/
theorem of_kept {L : List Part} (k : Kept L s t) (hL : (L.contains .regs || L.contains .mem) = false) : Stores a n s t := by
  obtain ⟨hregs, hmem⟩ := Bool.or_eq_false_iff.1 hL
  have heq : t.regs = s.regs := k.same .regs hregs
  refine .of_map (State.bankAt_congr fun q _ => ?_) (k.mem_eq hmem)
  simp only [State.flag, State.fld, State.reg, heq]

/-- Bytes within a wider range. -/
theorem mono {b m : Nat} (h : Stores b m s t) (hlo : a ≤ b) (hhi : b + m ≤ a + n) : Stores a n s t := by
  refine ⟨h.map, fun p hp hout => h.bytes p hp fun i hi => ?_⟩
  have hin := hout (b - a + i) (by omega)
  rwa [show a + (b - a + i) = b + i by omega] at hin

theorem none (h : Stores a 0 s t) {b m : Nat} : Stores b m s t := ⟨h.map, fun p hp _ => h.bytes p hp fun _ hi => absurd hi (Nat.not_lt_zero _)⟩

theorem each {β : Type} {l : List β} {f : State → β → State} (h : ∀ v, ∀ b ∈ l, Stores a n v (f v b)) : Stores a n s (s.each l f) := by
  induction l generalizing s with
  | nil => exact refl
  | cons b l ih => exact (h s b List.mem_cons_self).trans (ih fun v b' hb' => h v b' (List.mem_cons_of_mem b hb'))

end Stores

theorem Untouched.after {a n : Nat} {s t u : State} (h : Untouched a n s u) (k : t.cores.mem = u.cores.mem) : Untouched a n s t :=
  fun p hp hout => by
    rw [State.bankByte, k]
    exact h p hp hout

theorem State.memWrite_stores (s : State) (a n v : Nat) : Stores a n s (s.memWrite a n v) := by
  rw [State.memWrite_bytes]
  refine Stores.each fun u i hi => ⟨u.writeByte_bankAt a v i, fun p hp hout => u.writeByte_bankByte_other v hp (hout i (List.mem_range.1 hi))⟩

theorem State.bufWrite_stores (s : State) (src : Src) (a n v : Nat) : Stores a n s (s.bufWrite src a n v) := by
  unfold State.bufWrite
  split
  · exact .of_kept State.post_kept rfl
  · exact s.memWrite_stores a n v

/-! ### Commands -/

theorem State.putHost_quiet (s : State) (x : HostSt) : Quiet s { s with host := x } := ⟨fun _ => rfl, rfl, ⟨fun _ _ => rfl⟩⟩

/-- A command is turned away with bookkeeping only, or its body runs. -/
theorem State.start_cases (s : State) (c : Cmd) (op : Nat) (okay : Bool) (body : State → State) :
    Quiet s (s.start c op okay body) ∨ s.start c op okay body = body (s.fetched c) := by
  have hwaits : Quiet s (s.cmdWaits c) := by
    unfold State.cmdWaits
    extract_lets turned
    have hturned : Quiet s turned := ⟨fun _ => rfl, rfl, ⟨fun _ _ => rfl⟩⟩
    split
    · exact hturned.trans ⟨fun _ => rfl, rfl, ⟨fun _ _ => rfl⟩⟩
    · exact hturned
  have hfetched := s.fetched_quiet c
  unfold State.start
  split
  · exact .inl .refl
  split
  · exact .inl hwaits
  extract_lets fetched
  split
  · exact .inl (hfetched.trans (State.complete_quiet ..))
  split
  · exact .inl (hfetched.trans (State.complete_quiet ..))
  split
  · exact .inl (hfetched.trans (State.complete_quiet ..))
  split
  · exact .inl (hfetched.trans ((fetched.putHost_quiet _).trans (State.complete_quiet ..)))
  · exact .inr rfl

/-- A command whose body stores into `n` bytes at `a`. -/
theorem State.start_stores {s : State} {c : Cmd} {op a n : Nat} {okay : Bool} {body : State → State}
    (h : Stores a n (s.fetched c) (body (s.fetched c))) : Stores a n s (s.start c op okay body) := by
  obtain hquiet | hbody := s.start_cases c op okay body
  · exact .of_quiet hquiet
  · rw [hbody]
    exact (Stores.of_quiet (s.fetched_quiet c)).trans h

theorem memCopy_stores (c : Cmd) (data : List (BitVec 8)) (ecc : List EccErr) {s t : State} (h : execMemCopy c data ecc s = .next t) :
    Stores (if c.fld 4 1 = 0 then c.fld 0 4 else c.fld 16 8) (c.fld 8 4) s t := by
  obtain rfl : _ = t := Host.Outcome.next.inj h
  refine State.start_stores ?_
  by_cases hdir : c.fld 4 1 = 0
  · simp only [if_pos hdir]
    split
    · exact .of_quiet (State.complete_quiet ..)
    · exact (State.memWrite_stores ..).trans (.of_quiet (State.complete_quiet ..))
  · simp only [if_neg hdir]
    have hread := (s.fetched c).eccBank_quiet 8 (c.fld 0 4) (c.fld 8 4) ecc
    split
    · exact .of_quiet (State.complete_quiet ..)
    split
    · exact .of_quiet (hread.trans (State.complete_quiet ..))
    · exact (Stores.of_quiet hread).trans ((State.bufWrite_stores ..).trans (.of_quiet (State.complete_quiet ..)))

theorem keyHmac_stores (c : Cmd) (data : List (BitVec 8)) {s t : State} (h : execKeyHmac c data s = .next t) : Stores (c.fld 16 8) 48 s t := by
  obtain rfl : _ = t := Host.Outcome.next.inj h
  refine State.start_stores ?_
  split
  · exact .of_quiet (State.complete_quiet ..)
  · exact (State.bufWrite_stores ..).trans (.of_quiet (State.complete_quiet ..))

theorem sessionRead_stores (c : Cmd) {s t : State} (h : execSessionRead c s = .next t) : Stores (c.fld 8 8) (64 * c.fld 2 2) s t := by
  obtain rfl : _ = t := Host.Outcome.next.inj h
  refine State.start_stores ((Stores.each fun v j hj => ?_).trans (.of_quiet (State.complete_quiet ..)))
  have hj : j < c.fld 2 2 := List.mem_range.1 hj
  exact ((State.bufWrite_stores ..).mono (by omega) (by omega)).trans (.of_kept State.modSess_kept rfl)

/-! ### Long operations -/

/-- The command of the long operation with handle `h`. -/
def State.longCmd (s : State) (h : BitVec 32) : Option Cmd := (s.longAt h).map (·.cmd)

theorem State.longCmd_congr {s t : State} (h : t.host.longOps = s.host.longOps) (k : BitVec 32) : t.longCmd k = s.longCmd k := by
  rw [State.longCmd, State.longAt_congr h, State.longCmd]

theorem State.modLong_longCmd (s : State) (h k : BitVec 32) {f : LongOp → LongOp} (hhandle : ∀ o, (f o).handle = o.handle)
    (hcmd : ∀ o, (f o).cmd = o.cmd) : (s.modLong h f).longCmd k = s.longCmd k := by
  have hpred : ((fun o : LongOp => o.handle == k) ∘ fun o => if o.handle = h then f o else o) = fun o => o.handle == k := by
    funext o
    show ((if o.handle = h then f o else o).handle == k) = _
    split
    · rw [hhandle]
    · rfl
  show (List.find? (fun o : LongOp => o.handle == k) (s.host.longOps.map fun o => if o.handle = h then f o else o)).map LongOp.cmd = _
  rw [List.find?_map, hpred, Option.map_map, State.longCmd, State.longAt]
  congr 1
  funext o
  show (if o.handle = h then f o else o).cmd = o.cmd
  split
  · exact hcmd o
  · rfl

theorem State.raise_longOps (s : State) (code len : Nat) (fields : List (Nat × Nat × Nat)) :
    (s.raise code len fields).host.longOps = s.host.longOps := (congrArg HostSt.longOps (s.raise_asked code len fields) :)

theorem State.bufWrite_longOps (s : State) (src : Src) (a n v : Nat) : (s.bufWrite src a n v).host.longOps = s.host.longOps := by
  unfold State.bufWrite
  split
  · exact s.post_longOps _
  · exact State.memWrite_kept.longOps rfl

theorem State.portJoin_longOps (s : State) (p port : Nat) : (s.portJoin p port).host.longOps = s.host.longOps := by
  unfold State.portJoin
  extract_lets joined lim
  have hjoined : joined.host.longOps = s.host.longOps := State.portCount_kept.longOps rfl
  split
  · rw [State.raise_longOps, State.modFwd_kept.longOps rfl, hjoined]
  · exact hjoined

theorem State.learn_longOps (s : State) (p : Nat) (q : LearnReq) : (s.learn p q).host.longOps = s.host.longOps := by
  have hjoin (u : State) (mc : Bool) (port : Nat) : (if mc then u else u.portJoin p port).host.longOps = u.host.longOps := by
    split
    · rfl
    · exact u.portJoin_longOps p port
  have hleave (u : State) (mc : Bool) (port : Nat) : (if mc then u else u.portCount p port false).host.longOps = u.host.longOps := by
    split
    · rfl
    · exact State.portCount_kept.longOps rfl
  unfold State.learn
  extract_lets t now port
  split
  · exact State.countFwd_kept.longOps rfl
  split
  · split
    · exact State.macMod_kept.longOps rfl
    extract_lets damp inside
    split
    · exact State.flap_kept.longOps rfl
    split
    · rfl
    · rw [State.countFwd_kept.longOps rfl, hjoin, hleave, State.macMod_kept.longOps rfl]
  · split
    · rfl
    split
    next u ok hadd =>
      have hadded : u.host.longOps = s.host.longOps := by
        have hu := congrArg Prod.fst hadd
        rw [← show _ = u from hu]
        exact State.macAdd_kept.longOps rfl
      split
      · rw [State.countFwd_kept.longOps rfl, hjoin, hadded]
      · dsimp only
        split
        · rw [State.countFwd_kept.longOps rfl, hadded]
        · rw [State.raise_longOps, State.modFwd_kept.longOps rfl, State.countFwd_kept.longOps rfl, hadded]

theorem State.serve_longOps (s : State) (p : Nat) : (s.serve p).host.longOps = s.host.longOps := by
  unfold State.serve
  split
  next q rest _ =>
    extract_lets taken t n
    show t.host.longOps = _
    rw [show t = _ from rfl, State.learn_longOps, State.setF_kept.longOps rfl]
    rfl
  · rfl

/-- One record of TABLE_BULK: a dump fills the next 32 bytes of the buffer, within its size. -/
theorem State.bulkStep_stores {s : State} {h : BitVec 32} {o : LongOp} (hat : s.longAt h = some o) :
    ∃ n, Stores (o.cmd.fld 8 8 + 32 * o.progress) n s (s.bulkStep h) ∧ (n = 0 ∨ n = 32 ∧ o.progress < o.cmd.fld 4 4) := by
  unfold State.bulkStep
  rw [hat]
  cases hjob : s.bulkJob h with
  | none => exact ⟨0, .refl, .inl rfl⟩
  | some j =>
    dsimp only
    split
    · refine ⟨0, ?_, .inl rfl⟩
      split
      · exact .refl
      · exact (Stores.of_kept State.setBulk_kept rfl).trans ((Stores.of_writes State.bulkRecord_kept State.bulkRecord_writes rfl rfl).trans
          (.of_kept State.bulkCount_kept rfl))
    · split
      · exact ⟨0, .refl, .inl rfl⟩
      next r rest hrest =>
        refine ⟨32, (Stores.of_kept State.setBulk_kept rfl).trans ((State.bufWrite_stores ..).trans (.of_kept State.bulkCount_kept rfl)), .inr ⟨rfl, ?_⟩⟩
        have hlen := congrArg List.length hrest
        rw [State.bulkRest, List.length_take, List.length_cons] at hlen
        omega

theorem State.bulkStep_longCmd (s : State) (h k : BitVec 32) : (s.bulkStep h).longCmd k = s.longCmd k := by
  have hcount (u : State) (bad : Bool) : (u.bulkCount h bad).longCmd k = u.longCmd k := u.modLong_longCmd h k (fun _ => rfl) (fun _ => rfl)
  unfold State.bulkStep
  split
  · split
    · split
      · rfl
      · rw [hcount, State.longCmd_congr (State.bulkRecord_kept.longOps rfl), State.longCmd_congr (State.setBulk_kept.longOps rfl)]
    · split
      · rfl
      · rw [hcount, State.longCmd_congr (State.bufWrite_longOps ..), State.longCmd_congr (State.setBulk_kept.longOps rfl)]
  · rfl

/-- The records that are left of a TABLE_BULK. -/
theorem State.bulkAll_stores {h : BitVec 32} {c : Cmd} (table n : Nat) {s : State} (hcmd : s.longCmd h = some c) :
    Stores (c.fld 8 8) (32 * c.fld 4 4) s (s.bulkAll h table n) := by
  induction n generalizing s with
  | zero => exact .refl
  | succ n ih =>
    unfold State.bulkAll
    extract_lets served
    have hserved : Stores (c.fld 8 8) (32 * c.fld 4 4) s served ∧ served.longCmd h = some c := by
      unfold served
      split
      · refine ⟨.each fun v p _ => ?_, ?_⟩
        · split
          · exact .refl
          · exact .of_writes State.serve_kept State.serve_writes rfl rfl
        · rw [← hcmd]
          refine State.each_unchanged (view := fun v : State => v.longCmd h) (fun v p _ => ?_) s
          split
          · rfl
          · exact State.longCmd_congr (v.serve_longOps p) h
      · exact ⟨.refl, hcmd⟩
    obtain ⟨hstores, hserved⟩ := hserved
    obtain ⟨o, ho, rfl⟩ := Option.map_eq_some_iff.1 hserved
    obtain ⟨m, hstep, hm⟩ := State.bulkStep_stores ho
    refine hstores.trans (Stores.trans ?_ (ih ((served.bulkStep_longCmd h h).trans hserved)))
    obtain rfl | ⟨rfl, hlt⟩ := hm
    · exact hstep.none
    · exact hstep.mono (by omega) (by omega)

theorem State.bulkFinal_untouched {s : State} {o : LongOp} (fault : Bool) (hat : s.longAt o.handle = some o) :
    Untouched (o.cmd.fld 8 8) (32 * o.cmd.fld 4 4) s (s.bulkFinal o fault) := by
  have hcmd : s.longCmd o.handle = some o.cmd := by rw [State.longCmd, hat]; rfl
  unfold State.bulkFinal
  extract_lets ended
  have hended : Untouched (o.cmd.fld 8 8) (32 * o.cmd.fld 4 4) s ended := by
    unfold ended
    split
    · exact .of_mem rfl
    · exact (State.bulkAll_stores _ _ hcmd).bytes.after rfl
  exact hended.after (State.endLong_kept.mem_eq rfl)

theorem State.eyeFinal_untouched (s : State) (o : LongOp) (r : LongResult) : Untouched (o.args.getD 1 0) (4 * o.total) s (s.eyeFinal o r) := by
  unfold State.eyeFinal
  extract_lets off
  have hoff : Stores (o.args.getD 1 0) (4 * o.total) s off := .of_kept State.eyeOff_kept rfl
  split
  · exact hoff.bytes.after (State.endLong_kept.mem_eq rfl)
  · exact (hoff.trans (off.bufWrite_stores ..)).bytes.after (State.endLong_kept.mem_eq rfl)

/-- The end of a long operation stores what `State.longFinal` stores. -/
theorem longOpFinal_untouched {s t : State} {h : BitVec 32} {r : LongResult} {o : LongOp} {a n : Nat} (hat : s.longAt h = some o)
    (hfinal : ∀ r, Untouched a n s (s.longFinal o r)) (hexec : exec (.longOpFinal h r) s = .next t) : Untouched a n s t := by
  have hnext : execLongOpFinal h r s = .next t := hexec
  rw [execLongOpFinal, hat] at hnext
  obtain rfl : _ = t := Host.Outcome.next.inj hnext
  dsimp only
  split
  · exact (hfinal _).after (State.startQueued_kept.mem_eq rfl)
  · exact .of_mem rfl

theorem longOpSafePoint_untouched {s t : State} {h : BitVec 32} {o : LongOp} (hat : s.longAt h = some o)
    (hexec : exec (.longOpSafePoint h) s = .next t) : Untouched (o.cmd.fld 8 8 + 32 * o.progress) 32 s t := by
  have hnext : execLongOpSafePoint h s = .next t := hexec
  rw [execLongOpSafePoint, hat] at hnext
  obtain rfl : _ = t := Host.Outcome.next.inj hnext
  dsimp only
  split
  · exact .of_mem ((State.startQueued_kept.mem_eq rfl).trans (State.longSuspend_kept.mem_eq rfl))
  split
  · unfold State.longStep
    split
    · obtain ⟨m, hstep, hm⟩ := State.bulkStep_stores hat
      rw [longAt_handle hat]
      obtain rfl | ⟨rfl, -⟩ := hm
      · exact hstep.none.bytes
      · exact hstep.bytes
    split
    · exact .of_mem rfl
    · exact .of_mem rfl
  · exact .of_mem rfl

/-- A read that gives up ends a long operation without a store. -/
theorem State.readGaveUp_mem (s : State) (w : ReadFor) : (s.readGaveUp w).cores.mem = s.cores.mem := by
  have hfail (u : State) (o : LongOp) (hop : o.op = 0x0101 ∨ o.op = 0x0405 ∨ o.op = 0x0E01) :
      (u.longFinal o { fault := true }).cores.mem = u.cores.mem := by
    obtain hop | hop | hop := hop <;> rw [State.longFinal, hop]
    · exact State.profFinal_kept.mem_eq rfl
    · exact State.endLong_kept.mem_eq rfl
    · exact State.stageFinal_kept.mem_eq rfl
  unfold State.readGaveUp
  split
  next r =>
    split
    · exact State.ringFail_kept.mem_eq rfl
    · rfl
  next tag =>
    split
    next p _ _ => exact State.endParked_kept.mem_eq rfl
    next o _ hlong =>
      have hop : o.op = 0x0101 ∨ o.op = 0x0405 ∨ o.op = 0x0E01 := by
        have hfound := List.find?_some hlong
        simp only [Bool.and_eq_true] at hfound
        obtain ⟨⟨-, hops⟩, -⟩ := hfound
        simpa using hops
      extract_lets lower
      split
      · rfl
      · exact (State.startQueued_kept.mem_eq rfl).trans (hfail lower o hop)
    · rfl

theorem pcieCto_mem {s t : State} {i : Nat} {w : ReadFor} (hexec : exec (.pcieCto i w) s = .next t) : t.cores.mem = s.cores.mem := by
  obtain rfl : _ = t := Host.Outcome.next.inj (show execPcieCto i w s = .next t from hexec)
  have hevent : ((s.bump (F.hostifCnt_COUNT 2)).pcieEvent 2 0).cores.mem = s.cores.mem := State.pcieEvent_kept.mem_eq rfl
  split
  · rfl
  dsimp only
  split
  · exact (State.showRecovering_kept.mem_eq rfl).trans hevent
  · rw [State.readGaveUp_mem]
    exact (State.pcieEvent_kept.mem_eq rfl).trans ((State.showRecovering_kept.mem_eq rfl).trans hevent)

/-! ### Transfers -/

theorem i2cTransferEnd_untouched {s t : State} {b : Fin 16} {ack stuck : Bool} {data : List (BitVec 8)} {x : I2cXfer} {rest : List I2cXfer}
    (hxfers : (s.bus b).xfers = x :: rest) (hexec : exec (.i2cTransferEnd b ack data stuck) s = .next t) : Untouched x.addr x.len s t := by
  have hnext : execI2cTransferEnd b ack data stuck s = .next t := hexec
  unfold execI2cTransferEnd at hnext
  extract_lets b' shown at hnext
  obtain rfl : _ = t := Host.Outcome.next.inj hnext
  have hshown : Stores x.addr x.len s shown ∧ shown.bus b = s.bus b := by
    unfold shown State.when
    split
    · exact ⟨.of_writes State.setF_kept (Writes.setF (Reg.portI2c_at (R := [Reg.portI2c 0]) rfl) .refl) rfl rfl, rfl⟩
    · exact ⟨.refl, rfl⟩
  obtain ⟨hstores, hbus⟩ := hshown
  have hx : (shown.bus b').xfers = x :: rest := hbus ▸ hxfers
  rw [hx]
  dsimp only
  split
  · exact hstores.bytes
  split
  next =>
    have hstart : Stores x.addr x.len s ((shown.modBus b' fun y => { y with xfers := rest }).busStart b') :=
      hstores.trans (.of_kept (State.busStart_kept.step rfl State.modBus_kept) rfl)
    refine Untouched.after ?_ ((State.finish_kept.mem_eq rfl).trans (State.modParked_kept.mem_eq rfl))
    unfold State.when
    split
    · exact (hstart.trans (State.bufWrite_stores ..)).bytes
    · exact hstart.bytes
  split
  · exact hstores.bytes.after ((State.finish_kept.mem_eq rfl).trans (State.busStart_kept.mem_eq rfl))
  · exact hstores.bytes.after (State.modParked_kept.mem_eq rfl)

theorem snapshotXferDone_untouched {s t : State} {x : SnapXfer} (hxfer : s.ports.xfer = some x) (hexec : exec .snapshotXferDone s = .next t) :
    Untouched x.addr x.len s t := by
  have hnext : execSnapshotXferDone s = .next t := hexec
  rw [execSnapshotXferDone, hxfer] at hnext
  obtain rfl : _ = t := Host.Outcome.next.inj hnext
  have hcleared : Stores x.addr x.len s { s with ports := { s.ports with xfer := none } } := .of_map (fun _ => rfl) rfl
  exact (hcleared.trans (State.bufWrite_stores ..)).bytes.after (State.finish_kept.mem_eq rfl)

theorem State.fmEnd_untouched {s : State} {f : Nat} {o : LongOp} (howner : (s.fm f).owner.bind s.longAt = some o) :
    Untouched (o.args.getD 5 0) 128 s (s.fmEnd f) := by
  unfold State.fmEnd
  split
  · exact .of_mem rfl
  next g _ =>
    extract_lets r seq own stored posted shown
    have hstored : Untouched (o.args.getD 5 0) 128 s stored := by
      unfold stored own
      rw [howner]
      exact (s.bufWrite_stores ..).bytes
    have hshown : Untouched (o.args.getD 5 0) 128 s shown := hstored.after (State.showFm_kept.mem_eq rfl)
    unfold own
    split
    · exact hshown.after (State.endLong_kept.mem_eq rfl)
    · exact hshown

/-- A bank that reaches its power state loses its own bytes only. -/
theorem State.powered_bankByte (s : State) {b : Nat} {p : Nat × Nat} (hp : p.2 < 131072) (hother : p.1 ≠ b) :
    (s.powered b).bankByte p = s.bankByte p := by
  rw [State.bankByte, State.powered_mem]
  split
  · have hkeeps : bankKeeps b (131072 * p.1 + p.2) = true := by
      rw [bankKeeps, ← Bool.decide_and, Bool.not_eq_true', decide_eq_false_iff_not]
      omega
    rw [Tab.get, Tab.find_filter (bankKeeps b), hkeeps]
    rfl
  · rfl

/-- Settles O51: what stores into a buffer is `State.bufWrite`, and what stands around it leaves the banks and their addresses alone. -/
theorem bankStores : Obligations.BankStores := by
  refine ⟨fun s a n v => (s.memWrite_stores a n v).bytes, fun s t c data ecc h => (memCopy_stores c data ecc h).bytes,
    fun s t c data h => (keyHmac_stores c data h).bytes, fun s t c h => (sessionRead_stores c h).bytes,
    fun s t c l h => .of_mem ((Kept.of_exec h).mem_eq rfl), fun s t h o hat hexec => longOpSafePoint_untouched hat hexec,
    fun s t h r o hat hop => longOpFinal_untouched hat fun r => ?eye, fun s t h r o hat hop => longOpFinal_untouched hat fun r => ?bulk,
    fun s t i w h => pcieCto_mem h, fun s t b ack stuck data x rest hxfers h => i2cTransferEnd_untouched hxfers h,
    fun s t x hxfer h => snapshotXferDone_untouched hxfer h, fun s t f o howner h => ?gate, fun s t b h p hp hother => ?power⟩
  case eye =>
    rw [State.longFinal, hop]
    exact s.eyeFinal_untouched o r
  case bulk =>
    rw [State.longFinal, hop]
    exact State.bulkFinal_untouched r.fault (longAt_handle hat ▸ hat)
  case gate =>
    obtain rfl : _ = t := Host.Outcome.next.inj (show execFmGateEnd f s = .next t from h)
    split
    · exact State.fmEnd_untouched howner
    · exact .of_mem rfl
  case power =>
    obtain rfl : _ = t := Host.Outcome.next.inj (show execBankPowerReached b s = .next t from h)
    split
    · exact s.powered_bankByte hp hother
    · rfl

end Sys2Proof.Machine
end

section
/-!
The timing pair and the board interlock (spec/14 R444, R449, R450, R453; spec/16 R491).
-/
namespace Sys2Proof.Machine
open Sys2Proof

/-! ### What a fetched command leaves -/

theorem Kept.redund {L : List Part} {s t : State} (k : Kept L s t) (h : L.contains .redund = false) : t.redund = s.redund := k.same .redund h

theorem State.fetched_fld (s : State) (c : Cmd) {f : Fld} (h : ¬AtReg quietRows f.addr) : (s.fetched c).fld f = s.fld f := (s.fetched_quiet c).fld h

theorem State.fetched_flag (s : State) (c : Cmd) {f : Fld} (h : ¬AtReg quietRows f.addr) : (s.fetched c).flag f = s.flag f := by
  rw [State.flag, s.fetched_fld c h, State.flag]

theorem redundStatus_apart : ¬AtReg quietRows Reg.redundStatus := isApart_at rfl

theorem State.fetched_holder (s : State) (c : Cmd) : (s.fetched c).holder = s.holder := s.fetched_fld c redundStatus_apart

theorem pairField_addr (k : Nat) : (pairField k).addr = Reg.redundStatus := by
  unfold pairField
  split <;> rfl

theorem State.fetched_pairState (s : State) (c : Cmd) (k : Nat) : (s.fetched c).pairState k = s.pairState k :=
  s.fetched_fld c (pairField_addr k ▸ redundStatus_apart)

/-! ### Heartbeats (spec/14 R444) -/

theorem exec_heartbeat (s : State) (c : Fin 2) (wire : Bool) (n : Nat) : exec (.heartbeat c wire n) s = .next
    (if s.up = true ∧ s.fld (F.coreStatus_STATE c) ∈ [1, 2] then
      if wire then s.modRedund fun x => { x with seen := x.seen ||| BitVec.ofNat 4 (2 ^ (2 * c.val + 1)) }
      else if n = s.beat then s.modRedund fun x => { x with seen := x.seen ||| BitVec.ofNat 4 (2 ^ (2 * c.val)) } else s
    else s) := by
  have hguard : (!s.up || !(s.fld (F.coreStatus_STATE c) == 1 || s.fld (F.coreStatus_STATE c) == 2)) =
      !decide (s.up = true ∧ s.fld (F.coreStatus_STATE c) ∈ [1, 2]) := by
    simp [beq_eq_decide]
  show execHeartbeat c wire n s = _
  simp only [execHeartbeat, hguard]
  by_cases h : s.up = true ∧ s.fld (F.coreStatus_STATE c) ∈ [1, 2]
  · rw [decide_eq_true h, if_pos h, Bool.not_true, if_neg Bool.false_ne_true]
  · rw [decide_eq_false h, if_neg h, Bool.not_false, if_pos rfl]

/-! ### Commands of the pair (spec/14 R449, R450) -/

theorem exec_pairSwap {s : State} {c : Cmd} (htakes : s.takes c 0x0B02 = true) (hok : c.ok 10 = true)
    (hname : s.nameOk (c.fld 6 4) (boundaryName (c.fld 0 6) (c.fld 6 4)) = true) (hpair : s.pairState (1 - s.holder) = 3)
    (hheld : s.flag F.redundStatus_UNATTENDED = false) (hfree : s.redund.swap = none) : exec (.pairSwap c) s =
    .next ((State.park (s.fetched c) c 0x0B02).modRedund fun x =>
      { x with swap := some (s.host.nextId, boundaryName (c.fld 0 6) (c.fld 6 4)) }) := by
  have hpair' : (s.fetched c).pairState (1 - (s.fetched c).holder) = 3 := by rw [s.fetched_holder, s.fetched_pairState, hpair]
  have hheld' : (s.fetched c).flag F.redundStatus_UNATTENDED = false := (s.fetched_flag c redundStatus_apart).trans hheld
  have hredund : (s.fetched c).redund = s.redund := State.fetched_kept.redund rfl
  show execPairSwap c s = _
  rw [execPairSwap, start_takes htakes (by rw [hok, hname]; rfl)]
  simp only [hpair', hheld', hredund, hfree, ne_eq, not_true_eq_false, Bool.false_eq_true, or_self, if_false, Option.isSome_none, State.parkId,
    s.fetched_nextId c]

/-- A rejoin of the core that is not the holder, without a restart. -/
theorem exec_pairRejoin {s : State} {c : Cmd} (htakes : s.takes c 0x0B01 = true) (hok : c.ok 8 [(2, 2)] = true) (hcore : c.fld 0 1 < 2)
    (hplain : c.fld 1 1 = 0) (hother : c.fld 0 1 ≠ s.holder) (hready : (s.fetched c).longReady 0x0B01 = true) :
    ∃ u : State, StartsLong c 0x0B01 [c.fld 0 1, 0, c.fld 4 4] u ∧ exec (.pairRejoin c) s = .next (u.setPair (c.fld 0 1) 2) := by
  have hother' : c.fld 0 1 ≠ (s.fetched c).holder := s.fetched_holder c ▸ hother
  have hbit (i : Nat) : bitAt 0 i = false := Nat.zero_testBit i
  simp only [State.longReady, Bool.and_eq_true, Bool.not_eq_true'] at hready
  obtain ⟨⟨hbar, hfree⟩, hnone⟩ := hready
  have haccepts := State.startLong_accepts (s := s.fetched c) c 0x0B01 0x0B01 quadBytes [c.fld 0 1, 0, c.fld 4 4]
    (fun s _ => s.rejoinStart (c.fld 0 1) false false) hbar hfree
  rw [hnone] at haccepts
  obtain ⟨u, hd, -, -, hstarts, heq⟩ := haccepts
  refine ⟨u.markStarted hd, hstarts.markStarted hd, ?_⟩
  show execPairRejoin c s = _
  simp only [execPairRejoin]
  rw [start_takes htakes (by rw [hok, hplain, hbit, decide_eq_true hcore]; rfl)]
  simp only [hother', false_and, if_false, hplain, hbit, heq, Bool.false_eq_true]
  rfl

theorem State.setPair_pairState (s : State) (k : Nat) {v : Nat} (hv : v < 16) : (s.setPair k v).pairState k = v := by
  have hlen : (pairField k).lo + (pairField k).len ≤ 32 ∧ v < 2 ^ (pairField k).len := by
    unfold pairField
    split
    · exact ⟨by decide, hv⟩
    · exact ⟨by decide, hv⟩
  exact State.fld_setF_of_lt _ hlen.1 hlen.2

/-! ### The board interlock (spec/14 R453) -/

theorem State.boardTaken_shows (s : State) : ((s.setF F.redundStatus_PEER 0).setF F.redundStatus_BOARD_HOLD 1).flag F.redundStatus_BOARD_HOLD = true ∧
    ((s.setF F.redundStatus_PEER 0).setF F.redundStatus_BOARD_HOLD 1).flag F.redundStatus_PEER = false := by
  refine ⟨?_, ?_⟩
  · rw [State.flag, State.fld_setF_of_lt (f := F.redundStatus_BOARD_HOLD) _ (by decide) (by decide)]
    rfl
  · rw [State.flag, State.fld_setF_sep _ _ rfl, State.fld_setF_of_lt (f := F.redundStatus_PEER) _ (by decide) (by decide)]
    rfl

/-- The level of the peer has been sampled, and the interlock is given up to a peer unless the device is primary. -/
def State.sampled (s : State) (level : Bool) : State :=
  let u := (s.modRedund fun x => { x with taking := false }).setF F.redundStatus_PEER (bit level)
  if level && !s.flag F.redundCfg_BOARD_PRIMARY then u.setF F.redundStatus_BOARD_HOLD 0 else u

theorem State.sampled_shows (s : State) (level : Bool) : (s.sampled level).flag F.redundStatus_PEER = level ∧
    (s.sampled level).redund.taking = false ∧ (s.sampled level).flag F.redundStatus_BOARD_HOLD =
      if level && !s.flag F.redundCfg_BOARD_PRIMARY then false else s.flag F.redundStatus_BOARD_HOLD := by
  have hpeer : ((s.modRedund fun x => { x with taking := false }).setF F.redundStatus_PEER (bit level)).flag F.redundStatus_PEER = level := by
    rw [State.flag, State.fld_setF_of_lt (f := F.redundStatus_PEER) _ (by decide) (by cases level <;> decide)]
    cases level <;> rfl
  unfold State.sampled
  extract_lets u
  split
  · refine ⟨?_, rfl, ?_⟩
    · rw [State.flag, State.fld_setF_sep _ _ rfl]
      exact hpeer
    · rw [State.flag, State.fld_setF_of_lt (f := F.redundStatus_BOARD_HOLD) _ (by decide) (by decide)]
      rfl
  · refine ⟨hpeer, rfl, ?_⟩
    rw [State.flag, State.fld_setF_sep _ _ rfl]
    rfl

theorem exec_boardIntlkSample {s : State} (level : Bool) (htaking : s.redund.taking = true) :
    ∃ t, Writes reportRegs (s.sampled level) t ∧ t.redund = (s.sampled level).redund ∧ exec (.boardIntlkSample level) s = .next t := by
  have hprimary : ((s.modRedund fun x => { x with taking := false }).setF F.redundStatus_PEER (bit level)).flag F.redundCfg_BOARD_PRIMARY =
      s.flag F.redundCfg_BOARD_PRIMARY := by
    rw [State.flag, State.fld_setF_sep _ _ rfl]
    rfl
  refine ⟨_, ?_, ?_, rfl⟩
  all_goals
    rw [htaking, Bool.not_true, if_neg Bool.false_ne_true, State.sampled]
    dsimp only
    rw [hprimary]
    split
  · exact Writes.step State.boardEvent_writes rfl .refl
  · exact Writes.kept State.sharedOn_kept rfl (Writes.step State.boardEvent_writes rfl .refl)
  · exact State.boardEvent_kept.redund rfl
  · exact (State.sharedOn_kept.redund rfl).trans (State.boardEvent_kept.redund rfl)

/-- Settles O39: heartbeats and commands by what they show, the interlock by the register in which it shows. -/
theorem timingPair : Obligations.TimingPair := by
  refine ⟨fun s c n hup hstate => Runs.of_next (exec_heartbeat ..) ?wire, fun s c hup hstate => Runs.of_next (exec_heartbeat ..) ?beat,
    fun s c n hup hother => Runs.of_next (exec_heartbeat ..) ?late, fun s c wire n hstate => Runs.of_next (exec_heartbeat ..) ?stopped,
    fun s c htakes hok hname hpair hheld hfree => Runs.of_next (exec_pairSwap htakes hok hname hpair hheld hfree) rfl,
    fun s c htakes hok hcore hplain hother hready => ?rejoin, fun s hup hok hlow hhold => ?take, fun s hlow => ?wait,
    fun s level htaking => ?sample⟩
  case wire => rw [if_pos ⟨hup, hstate⟩]; rfl
  case beat => rw [if_pos ⟨hup, hstate⟩, if_neg Bool.false_ne_true, if_pos rfl]; rfl
  case late =>
    rw [if_neg Bool.false_ne_true, if_neg hother]
    split <;> rfl
  case stopped => exact if_neg fun h => hstate h.2
  case rejoin =>
    obtain ⟨u, hstarts, hexec⟩ := exec_pairRejoin htakes hok hcore hplain hother hready
    exact Runs.of_next hexec ⟨hstarts.kept State.setPair_kept rfl, u.setPair_pairState _ (by decide)⟩
  case take =>
    refine Runs.of_next (congrArg Host.Outcome.next (if_pos ?_)) s.boardTaken_shows
    rw [hup, hok, hhold, State.boardFree, decide_eq_true hlow]
    rfl
  case wait =>
    refine Runs.of_next (congrArg Host.Outcome.next (if_neg ?_)) rfl
    rw [State.boardFree, decide_eq_false (by omega)]
    simp
  case sample =>
    obtain ⟨t, hregs, hredund, hexec⟩ := exec_boardIntlkSample level htaking
    obtain ⟨hpeer, htaken, hhold⟩ := s.sampled_shows level
    exact Runs.of_next hexec ⟨(hregs.flag (isApart_at rfl)).trans hpeer, (congrArg RedundSt.taking hredund).trans htaken,
      (hregs.flag (isApart_at rfl)).trans hhold⟩

end Sys2Proof.Machine
end

section
/-!
The vault and the tamper response (spec/17 R533 to R540; spec/02 R59).
-/
namespace Sys2Proof.Machine
open Sys2Proof

theorem secStatus_apart : ¬AtReg quietRows Reg.secStatus := isApart_at rfl

theorem State.raise_sec (s : State) (code len : Nat) (fields : List (Nat × Nat × Nat)) : (s.raise code len fields).sec = s.sec :=
  State.raise_kept.sec_eq rfl rfl

theorem State.fetched_sec (s : State) (c : Cmd) : (s.fetched c).sec = s.sec := State.fetched_kept.sec_eq rfl rfl

/-! ### A detection (spec/17 R536, R538) -/

/-- The detection of source `k` is logged as entry `e`, and latched. -/
def State.logged (s : State) (k : Nat) (e : BitVec 256) : State :=
  (s.modSec fun x => { x with logSeq := x.logSeq + 1, log := (x.log ++ [e]).drop (x.log.length - 15) }).setF F.secStatus_LATCHED
    (s.fld F.secStatus_LATCHED ||| 2 ^ k)

theorem State.logged_latched (s : State) {k : Nat} (hk : k < 8) (e : BitVec 256) : (s.logged k e).latched k = true := by
  have hlt : s.fld F.secStatus_LATCHED ||| 2 ^ k < 2 ^ 8 := Nat.or_lt_two_pow (Fld.of_lt F.secStatus_LATCHED _) (Nat.pow_lt_pow_right (by decide) hk)
  rw [State.latched, State.logged, State.fld_setF_of_lt (f := F.secStatus_LATCHED) _ (by decide) hlt, bitAt, Nat.testBit_or, Nat.testBit_two_pow_self,
    Bool.or_true]

theorem State.logged_erased (s : State) (k : Nat) (e : BitVec 256) : (s.logged k e).fld F.secStatus_ERASED = s.fld F.secStatus_ERASED := by
  rw [State.logged, State.fld_setF_sep _ _ rfl]
  rfl

theorem State.eraseKeys_erased (s : State) : s.eraseKeys.fld F.secStatus_ERASED = 1 :=
  State.fld_setF_of_lt (f := F.secStatus_ERASED) _ (by decide) (by decide)

theorem State.vaultTime_powered {s : State} (h : s.power.aon = true) : s.vaultTime = s := if_pos h

/-- A detection with RESP 1 is latched and logged. -/
theorem exec_tamperDetect_log {s : State} {k : Fin 8} {d : Word} (haon : s.power.aon = true) (hcond : s.tamperCond k d = true) (hresp : s.resp k = 1) :
    exec (.tamperDetect k d) s = .next (s.logged k (s.tamperEntry k 1 d)) := by
  refine (congrArg Host.Outcome.next (if_pos hcond) : exec (.tamperDetect k d) s = _).trans ?_
  simp only [State.tamper, State.vaultTime_powered haon, hresp, OfNat.one_ne_ofNat, one_ne_zero, if_false, if_true]
  rfl

/-- A detection with RESP 3 erases the keys besides, and is reported. -/
theorem exec_tamperDetect_erase {s : State} {k : Fin 8} {d : Word} (haon : s.power.aon = true) (hcond : s.tamperCond k d = true) (hresp : s.resp k = 3) :
    ∃ e t, Writes reportRegs (s.eraseKeys.logged k e) t ∧ t.sec.keys = [] ∧ t.sec.logSeq = s.sec.logSeq + 1 ∧ exec (.tamperDetect k d) s = .next t := by
  refine ⟨s.eraseKeys.tamperEntry k 3 d, _, ?_, ?_, ?_, (congrArg Host.Outcome.next (if_pos hcond) : exec (.tamperDetect k d) s = _)⟩
  all_goals
    simp only [State.tamper, State.vaultTime_powered haon, hresp, OfNat.ofNat_ne_zero, OfNat.ofNat_ne_one, if_false, if_true]
    split
  · exact Writes.step State.raise_writes rfl .refl
  · exact ⟨fun _ _ => rfl⟩
  · rw [State.tamperEvent, State.raise_sec]; rfl
  · rfl
  · rw [State.tamperEvent, State.raise_sec]; rfl
  · rfl

/-! ### The cell (spec/17 R534) -/

/-- A second has been counted. -/
def State.secondOn (s : State) : State := (s.modSec fun x => { x with vsec := x.vsec + 1 }).showVsec

theorem State.secondOn_vsec (s : State) : s.secondOn.sec.vsec = s.sec.vsec + 1 ∧ s.secondOn.reg Reg.secVsec = s.sec.vsec + 1 :=
  ⟨rfl, State.reg_setReg_same ..⟩

theorem State.setVbatLow (s : State) {v : Nat} (hv : v < 2) : (s.setF F.secStatus_VBAT_LOW v).flag F.secStatus_VBAT_LOW = (v != 0) := by
  rw [State.flag, State.fld_setF_of_lt (f := F.secStatus_VBAT_LOW) _ (by decide) hv]

/-- VBAT_LOW follows the cell's voltage. -/
def State.cellShown (s : State) (mv : Nat) : State :=
  if mv < 2200 ∧ !s.flag F.secStatus_VBAT_LOW then
    if s.up then (s.setF F.secStatus_VBAT_LOW 1).raise 0x0E04 16 [(0, 2, mv)] else s.setF F.secStatus_VBAT_LOW 1
  else if 2300 < mv then s.setF F.secStatus_VBAT_LOW 0
  else s

theorem exec_vbatCheck {s : State} (mv : Nat) (haon : s.power.aon = true) : exec (.vbatCheck mv) s = .next (s.secondOn.cellShown mv) := by
  show execVbatCheck mv s = _
  rw [execVbatCheck, haon, Bool.not_true, if_neg Bool.false_ne_true]
  rfl

theorem State.cellShown_shows (s : State) (mv : Nat) : (s.cellShown mv).sec = s.sec ∧ (s.cellShown mv).reg Reg.secVsec = s.reg Reg.secVsec ∧
    (mv < 2200 → (s.cellShown mv).flag F.secStatus_VBAT_LOW = true) ∧ (2300 < mv → (s.cellShown mv).flag F.secStatus_VBAT_LOW = false) := by
  have hset (v : Nat) : (s.setF F.secStatus_VBAT_LOW v).reg Reg.secVsec = s.reg Reg.secVsec := State.reg_setF_other _ _ (by decide)
  unfold State.cellShown
  split
  next hlow =>
    obtain ⟨hmv, -⟩ := hlow
    have hlowered := s.setVbatLow (v := 1) (by decide)
    split
    · have hraise := (s.setF F.secStatus_VBAT_LOW 1).raise_quiet 0x0E04 16 [(0, 2, mv)]
      exact ⟨State.raise_sec .., (hraise.regs.same _ (isApart_at rfl)).trans (hset 1),
        fun _ => (hraise.regs.flag secStatus_apart).trans hlowered, fun h => absurd h (by omega)⟩
    · exact ⟨rfl, hset 1, fun _ => hlowered, fun h => absurd h (by omega)⟩
  next hlow =>
    split
    next hhigh => exact ⟨rfl, hset 0, fun h => absurd h (by omega), fun _ => s.setVbatLow (by decide)⟩
    next hmiddle => exact ⟨rfl, rfl, fun h => by simpa [h] using hlow, fun h => absurd h hmiddle⟩

/-! ### Commands of the vault -/

theorem testBit_idxMask (l : List Nat) (k : Nat) : (idxMask l).testBit k = decide (k ∈ l) := by
  have hfold (a : Nat) : (l.foldl (fun a k => a ||| 2 ^ k) a).testBit k = (a.testBit k || decide (k ∈ l)) := by
    induction l generalizing a with
    | nil => simp
    | cons j l ih =>
      rw [List.foldl_cons, ih, Nat.testBit_or, Nat.testBit_two_pow, Bool.or_assoc, ← Bool.decide_or]
      simp only [List.mem_cons, eq_comm]
  rw [idxMask, hfold, Nat.zero_testBit, Bool.false_or]

/-- The sources that a TAMPER_CLEAR leaves latched. -/
def State.stillLatched (s : State) (sources : Nat) : List Nat :=
  (List.range 8).filter fun k => s.latched k && !(bitAt sources k && Config.tamperAbsent s.freeCtr k)

/-- TAMPER_CLEAR has acted. -/
def State.tamperCleared (s : State) (c : Cmd) : State :=
  let u := s.fresh.setF F.secStatus_LATCHED (idxMask (s.stillLatched (c.fld 0 1)))
  if c.fld 1 1 = 1 then u.modSec fun x => { x with log := [] } else u

theorem exec_tamperClear {s : State} {c : Cmd} (htakes : s.takes c 0x0E07 = true) (hok : c.ok 4 [(2, 2)] = true) (hlog : c.fld 1 1 < 2) :
    ∃ data, exec (.tamperClear c) s = .next (((s.fetched c).tamperCleared c).complete c 0x0E07 st.ok data) := by
  refine ⟨packLE 256 [(0, 1, idxMask ((s.fetched c).stillLatched (c.fld 0 1)))], ?_⟩
  show execTamperClear c s = _
  rw [execTamperClear, start_takes htakes (by rw [hok, decide_eq_true hlog]; rfl)]
  rfl

theorem State.tamperCleared_log (s : State) {c : Cmd} (h : c.fld 1 1 = 1) : (s.tamperCleared c).sec.log = [] := by
  rw [State.tamperCleared, if_pos h]
  rfl

theorem State.tamperCleared_latched (s : State) (c : Cmd) (k : Nat) :
    (s.tamperCleared c).latched k = decide (k ∈ s.stillLatched (c.fld 0 1)) := by
  have hlt : idxMask (s.stillLatched (c.fld 0 1)) < 2 ^ 8 := idxMask_lt fun k hk => List.mem_range.1 (List.mem_filter.1 hk).1
  have hset : (s.fresh.setF F.secStatus_LATCHED (idxMask (s.stillLatched (c.fld 0 1)))).latched k = decide (k ∈ s.stillLatched (c.fld 0 1)) := by
    rw [State.latched, State.fld_setF_of_lt (f := F.secStatus_LATCHED) _ (by decide) hlt, bitAt, testBit_idxMask]
  unfold State.tamperCleared
  extract_lets u
  split
  · exact hset
  · exact hset

theorem State.fetched_latched (s : State) (c : Cmd) (k : Nat) : (s.fetched c).latched k = s.latched k := by
  rw [State.latched, s.fetched_fld c secStatus_apart, State.latched]

theorem State.fetched_resp (s : State) (c : Cmd) {k : Nat} (hk : k < 8) : (s.fetched c).resp k = s.resp k :=
  s.fetched_fld c (rowsApart_at (a := 0x400100) rfl hk rfl)

theorem State.fetched_eraseLatched (s : State) (c : Cmd) : (s.fetched c).eraseLatched = s.eraseLatched := by
  unfold State.eraseLatched
  refine Bool.eq_iff_iff.2 ?_
  simp only [List.any_eq_true, List.mem_range]
  exact exists_congr fun k => and_congr_right fun hk => by rw [s.fetched_latched, s.fetched_resp c hk]

/-- Where KEY_WRITE puts a key: the place of its class and index. -/
def keyPlace (c : Cmd) : Nat := if c.fld 0 1 = 0 then c.fld 1 1 else if c.fld 0 1 = 1 then 64 else 65 + c.fld 1 1

theorem exec_keyWrite {s : State} {c : Cmd} (htakes : s.takes c 0x0E05 = true) (hok : c.ok 40 [(2, 6)] = true)
    (hplace : (c.fld 0 1 = 0 ∧ c.fld 1 1 < 64) ∨ (c.fld 0 1 = 1 ∧ c.fld 1 1 = 0) ∨ (c.fld 0 1 = 2 ∧ c.fld 1 1 < 16)) (hnone : s.eraseLatched = false) :
    exec (.keyWrite c) s = .next (((s.fetched c).modSec fun x =>
      { x with keys := Tab.put x.keys 0 (keyPlace c) (BitVec.ofNat 256 (c.fld 8 32)) }).complete c 0x0E05 st.ok) := by
  have hargs : (c.ok 40 [(2, 6)] && ((c.fld 0 1 == 0 && decide (c.fld 1 1 < 64)) || (c.fld 0 1 == 1 && c.fld 1 1 == 0) ||
      (c.fld 0 1 == 2 && decide (c.fld 1 1 < 16)))) = true := by
    rw [hok]
    obtain ⟨hclass, hindex⟩ | ⟨hclass, hindex⟩ | ⟨hclass, hindex⟩ := hplace <;> simp [hclass, hindex]
  show execKeyWrite c s = _
  simp only [execKeyWrite]
  rw [start_takes htakes hargs]
  simp only [s.fetched_eraseLatched, hnone, Bool.false_eq_true, if_false]
  rfl

theorem exec_keyHmac_host {s : State} {c : Cmd} (data : List (BitVec 8)) {k : BitVec 256} (htakes : s.takes c 0x0E06 = true)
    (hok : c.ok 24 [(1, 3)] = true) (hkey : c.fld 0 1 < 16) (hmin : 1 ≤ c.fld 4 4) (hmax : c.fld 4 4 ≤ 65536)
    (hin : s.bufOk c.src (c.fld 8 8) (c.fld 4 4) = true) (hout : s.bufOk c.src (c.fld 16 8) 48 = true) (hsrc : c.src = .host)
    (hfind : Tab.find (65 + c.fld 0 1) s.sec.keys = some k) : exec (.keyHmac c data) s =
    .next (((s.fetched c).bufWrite .host (c.fld 16 8) 48 (Config.hmac384 k (data.take (c.fld 4 4))).toNat).complete c 0x0E06 st.ok) := by
  have hfind' : Tab.find (65 + c.fld 0 1) (s.fetched c).sec.keys = some k := s.fetched_sec c ▸ hfind
  show execKeyHmac c data s = _
  simp only [execKeyHmac]
  rw [start_takes htakes (by simp only [hok, hkey, hmin, hmax, hin, hout, decide_true, Bool.and_self])]
  simp only [hfind', hsrc]

/-- Settles O37: each row by what it leaves in the vault's registers and state; events and completions leave both alone. -/
theorem vault : Obligations.Vault := by
  refine ⟨fun s k d haon hcond hresp => ?erase, fun s k d haon hcond hresp => Runs.of_next (exec_tamperDetect_log haon hcond hresp) ?log,
    fun s mv haon => Runs.of_next (exec_vbatCheck mv haon) ?cell, fun s haon => Runs.of_next (congrArg Host.Outcome.next (if_neg ?off)) ⟨rfl, rfl, rfl⟩,
    fun s k v hup hlock => Runs.of_next (exec_tamperLockWrite hup k v) ?lock, fun s k v hup hlock => Runs.of_next (exec_tamperCfgWrite hup k v) ?unlocked,
    fun s k v hup hlock hlower => Runs.of_next (exec_tamperCfgWrite hup k v) ?barred, fun s c htakes hok hlog => ?clear,
    fun s c htakes hok hplace hnone => Runs.of_next (exec_keyWrite htakes hok hplace hnone) ⟨_, _, _, _, _, rfl, Tab.get_put_same ..⟩,
    fun s c data k htakes hok hkey hmin hmax hin hout hsrc hfind =>
      Runs.of_next (exec_keyHmac_host data htakes hok hkey hmin hmax hin hout hsrc hfind) ⟨_, _, _, _, _, rfl, _, rfl⟩⟩
  case erase =>
    obtain ⟨e, t, hregs, hkeys, hseq, hexec⟩ := exec_tamperDetect_erase haon hcond hresp
    refine Runs.of_next hexec ⟨hkeys, ?_, ?_, hseq⟩
    · rw [hregs.fld (isApart_at rfl), State.logged_erased, State.eraseKeys_erased]
    · rw [State.latched, hregs.fld (isApart_at rfl)]
      exact s.eraseKeys.logged_latched k.isLt e
  case log => exact ⟨rfl, s.logged_latched k.isLt _, rfl⟩
  case cell =>
    obtain ⟨hvsec, hreg⟩ := s.secondOn_vsec
    obtain ⟨hsec, hsame, hlow, hhigh⟩ := s.secondOn.cellShown_shows mv
    exact ⟨(congrArg SecSt.vsec hsec).trans hvsec, hsame.trans hreg, hlow, hhigh⟩
  case off => rw [haon]; exact Bool.false_ne_true
  case lock =>
    rw [State.tamperLockWrite, if_pos hlock]
    exact State.fld_setF_of_lt (f := F.secTamperLock_LOCK) _ (by decide) (by decide)
  case unlocked =>
    obtain ⟨hshown, -⟩ := s.putRw_tamperCfg k v
    rw [State.tamperCfgWrite, hlock]
    exact hshown
  case barred =>
    rw [State.tamperCfgWrite_barred hlock (.inl hlower)]
    exact ⟨State.fld_setF_reg _ _ (secTamperCfg_ne_status k), State.fld_setF_of_lt (f := F.secStatus_CFG_ERR) _ (by decide) (by decide)⟩
  case clear =>
    obtain ⟨data, hexec⟩ := exec_tamperClear htakes hok hlog
    refine Runs.of_next hexec ⟨_, _, _, _, _, rfl, (s.fetched c).tamperCleared_log, fun k hk => ⟨fun h => ?_, fun hlatched hnamed => ?_⟩⟩
    · rw [State.tamperCleared_latched, decide_eq_true_eq, State.stillLatched, List.mem_filter, Bool.and_eq_true] at h
      exact (s.fetched_latched c k).symm.trans h.2.1
    · rw [State.tamperCleared_latched, decide_eq_true_eq, State.stillLatched, List.mem_filter]
      refine ⟨List.mem_range.2 hk, ?_⟩
      rw [s.fetched_latched, hlatched, hnamed]
      rfl

end Sys2Proof.Machine
end

section
/-!
Fuses and updates (spec/17 R521, R525 to R531).
-/
namespace Sys2Proof.Machine
open Sys2Proof

/-! ### What a fetched command leaves -/

theorem updStatus_apart : ¬AtReg quietRows Reg.updStatus := isApart_at rfl

theorem State.fetched_inDip (s : State) (c : Cmd) : (s.fetched c).inDip = s.inDip := by
  rw [State.inDip, State.fetched_kept.power_eq rfl, State.inDip]

/-! ### Fuses (spec/17 R540) -/

/-- A command that writes fuses or flash during DIP is kept back. -/
theorem exec_fuse_held {i : Instr} {s : State} {c : Cmd} {op : Nat} {okay : Bool} (htakes : s.takes c op = true) (hok : okay = true)
    (hdip : s.inDip = true) (hexec : exec i s = .next (s.start c op okay fun s =>
      if s.inDip then s.park c op else (s.fuseCmd c op).1.complete c op (s.fuseCmd c op).2)) :
    exec i s = .next ((s.fetched c).park c op) := by
  rw [hexec, start_takes htakes hok, s.fetched_inDip, hdip, if_pos rfl]

/-- Without a dip it acts, and completes with the status of what it did. -/
theorem exec_fuse_acts {i : Instr} {s u : State} {c : Cmd} {op status : Nat} {okay : Bool} (htakes : s.takes c op = true) (hok : okay = true)
    (hdip : s.inDip = false) (hacts : (s.fetched c).fuseCmd c op = (u, status)) (hexec : exec i s = .next (s.start c op okay fun s =>
      if s.inDip then s.park c op else (s.fuseCmd c op).1.complete c op (s.fuseCmd c op).2)) :
    exec i s = .next (u.complete c op status) := by
  rw [hexec, start_takes htakes hok, s.fetched_inDip, hdip, if_neg Bool.false_ne_true, hacts]

theorem State.fetched_park_sec (s : State) (c : Cmd) (op : Nat) : ((s.fetched c).park c op).sec = s.sec := s.fetched_sec c

/-- A customer key is programmed. -/
def State.keyFused (s : State) (k : Nat) (hash : BitVec 384) : State :=
  (s.setF F.updKeys_CUST_PROG (s.fld F.updKeys_CUST_PROG ||| 2 ^ k)).modSec fun x => { x with custHash := Tab.ins (4 + k) hash x.custHash }

theorem State.fuseCmd_key {s : State} {c : Cmd} (hslot : c.fld 0 1 = 4) (haction : c.fld 1 1 = 0) (hfree : bitAt (s.fld F.updKeys_CUST_PROG) 0 = false) :
    s.fuseCmd c 0x0E08 = (s.keyFused 0 (BitVec.ofNat 384 (c.fld 8 48)), st.ok) := by
  show s.fuseRun (c.fld 0 1) (c.fld 1 1) (BitVec.ofNat 384 (c.fld 8 48)) = _
  simp only [State.fuseRun, hslot, haction, Nat.sub_self, hfree, Bool.false_eq_true, and_false, zero_ne_one, false_and, or_self, if_false, if_true]
  rfl

theorem State.keyFused_shows (s : State) (hash : BitVec 384) : bitAt ((s.keyFused 0 hash).fld F.updKeys_CUST_PROG) 0 = true ∧
    Tab.find 4 (s.keyFused 0 hash).sec.custHash = some hash := by
  have hlt : s.fld F.updKeys_CUST_PROG ||| 2 ^ 0 < 2 ^ 2 := Nat.or_lt_two_pow (Fld.of_lt F.updKeys_CUST_PROG _) (by decide)
  refine ⟨?_, Tab.find_ins_same ..⟩
  have hshown : (s.keyFused 0 hash).fld F.updKeys_CUST_PROG = s.fld F.updKeys_CUST_PROG ||| 2 ^ 0 :=
    State.fld_setF_of_lt (f := F.updKeys_CUST_PROG) _ (by decide) hlt
  rw [hshown, bitAt, Nat.testBit_or, Nat.testBit_two_pow_self, Bool.or_true]

/-! ### The inactive slot (spec/17 R529, R530) -/

theorem State.stageEmpty_sec (s : State) : s.stageEmpty.sec = { s.sec with staged := [], bundle := 0, atReset := 0 } := by
  have hregs : (s.each (List.range 16) fun s k => s.setReg (Reg.updCompStaged k) 0).sec = s.sec :=
    State.each_unchanged (view := State.sec) (fun v k _ => State.setReg_sec v (Reg.updCompStaged k) 0) s
  rw [State.stageEmpty, State.setF_kept.sec_eq rfl rfl, State.modSec, hregs]

theorem State.stageEmpty_valid (s : State) : s.stageEmpty.fld F.updStatus_STAGE_VALID = 0 :=
  State.fld_setF_of_lt (f := F.updStatus_STAGE_VALID) _ (by decide) (by decide)

theorem State.fuseCmd_discard {s : State} (c : Cmd) (hclean : s.fld F.updStatus_INSTALLED = 0)
    (hidle : (s.host.longOps.any fun o => o.op == 0x0E01) = false) : s.fuseCmd c 0x0E04 = (s.stageEmpty, st.ok) := by
  show s.discardRun = _
  rw [State.discardRun, hclean, hidle]
  rfl

theorem State.fuseCmd_discard_installed {s : State} (c : Cmd) (hinstalled : s.fld F.updStatus_INSTALLED ≠ 0) :
    s.fuseCmd c 0x0E04 = (s, st.badState) := by
  show s.discardRun = _
  rw [State.discardRun, decide_eq_true hinstalled]
  rfl

/-- A commit that is forced, of a valid staging. -/
theorem State.fuseCmd_commit {s : State} {c : Cmd} (hforce : c.fld 0 1 = 1) (hvalid : s.flag F.updStatus_STAGE_VALID = true) :
    ∃ u, s.fuseCmd c 0x0E03 = (u, st.ok) ∧ u.sec.active = s.sec.staged ∧ u.sec.dirSeq = s.sec.dirSeq + 1 ∧ u.sec.staged = [] ∧
      u.fld F.updStatus_STAGE_VALID = 0 := by
  have hcmd : s.fuseCmd c 0x0E03 = s.commitRun (c.fld 0 1 = 1) := rfl
  rw [hcmd, hforce]
  generalize hr : s.commitRun (decide (1 = 1)) = r
  unfold State.commitRun at hr
  rw [hvalid] at hr
  extract_lets left fused slot mig set advanced at hr
  rw [if_neg (by simp)] at hr
  have hfused : fused.sec = s.sec := by
    refine State.each_unchanged (view := fun v : State => v.sec) (fun v i _ => ?_) s
    dsimp only
    split <;> rfl
  have hsec : advanced.stageEmpty.sec.active = s.sec.staged ∧ advanced.stageEmpty.sec.dirSeq = s.sec.dirSeq + 1 ∧
      advanced.stageEmpty.sec.staged = [] := by
    rw [State.stageEmpty_sec]
    exact ⟨congrArg SecSt.staged hfused, congrArg (fun x : SecSt => x.dirSeq + 1) hfused, rfl⟩
  obtain ⟨hactive, hseq, hstaged⟩ := hsec
  refine ⟨_, hr.symm, hactive, hseq, hstaged, ?_⟩
  rw [State.fld_setF_sep _ _ rfl, State.fld_setF_sep _ _ rfl, State.stageEmpty_valid]

/-! ### Staging and installation (spec/17 R525, R527, R528) -/

/-- A long operation is accepted at the end of the list. -/
theorem State.startLong_lists {s : State} (c : Cmd) (op res total : Nat) (args : List Nat) (onStart : State → BitVec 32 → State) (hold : Bool)
    (hbar : s.longBarred = false) (hfree : s.freeLong.isSome = true) :
    ∃ u o, Kept [.regs, .host, .cores] s u ∧ u.host.longOps = s.host.longOps ++ [o] ∧ (o.cmd = c ∧ o.op = op ∧ o.args = args ∧ o.suspend = none) ∧
      (s.startLong c op res total args onStart hold = u ∨ s.startLong c op res total args onStart hold = onStart (u.markStarted o.handle) o.handle) := by
  generalize hr : s.startLong c op res total args onStart hold = r
  rw [State.startLong, hbar, if_neg Bool.false_ne_true] at hr
  split at hr
  next hnone => exact absurd hfree (by simp [hnone])
  next k _ =>
    extract_lets q h busy o host queued accepted at hr
    refine ⟨accepted, o, .step State.complete_kept rfl (.put_host .refl rfl), State.complete_longOps .., ⟨rfl, rfl, rfl, rfl⟩, ?_⟩
    split at hr
    · exact .inl hr.symm
    · exact .inr hr.symm

/-- The bytes of a staging are kept for the operation at place `n` of the list. -/
def State.stageKept (t : State) (n : Nat) (bytes : List Byte) : State :=
  match t.host.longOps[n]? with
  | some o => t.modSec fun x => { x with stage := x.stage ++ [(o.handle, bytes)] }
  | none => t

theorem State.stageKept_last {t : State} {l : List LongOp} {o : LongOp} (bytes : List Byte) (h : t.host.longOps = l ++ [o]) :
    (t.stageKept l.length bytes).host.longOps = l ++ [o] ∧ (t.stageKept l.length bytes).sec.stage = t.sec.stage ++ [(o.handle, bytes)] := by
  rw [State.stageKept, h, List.getElem?_concat_length]
  exact ⟨h, rfl⟩

theorem exec_updStage_eq {s : State} {c : Cmd} (bytes : List Byte) (htakes : s.takes c 0x0E01 = true) (hok : c.ok 16 [(12, 4)] = true)
    (hmin : 64 ≤ c.fld 8 4) (hmax : c.fld 8 4 ≤ 25165824) (hclean : s.fld F.updStatus_INSTALLED = 0) :
    exec (.updStage c bytes) s = .next (((s.fetched c).startLong c 0x0E01 0x0E01 (c.fld 8 4) [] (fun s _ => s.stageEmpty)
      (s.fetched c).sec.erasing).stageKept (s.fetched c).host.longOps.length (bytes.take (c.fld 8 4))) := by
  have hclean' : (s.fetched c).fld F.updStatus_INSTALLED = 0 := (s.fetched_fld c updStatus_apart).trans hclean
  show execUpdStage c bytes s = _
  simp only [execUpdStage]
  rw [start_takes htakes (by simp only [hok, hmin, hmax, decide_true, Bool.and_self]), if_neg (not_not.2 hclean')]
  rfl

/-- A staging is a long operation whose bytes are kept. -/
theorem exec_updStage {s : State} {c : Cmd} (bytes : List Byte) (htakes : s.takes c 0x0E01 = true) (hok : c.ok 16 [(12, 4)] = true)
    (hmin : 64 ≤ c.fld 8 4) (hmax : c.fld 8 4 ≤ 25165824) (hclean : s.fld F.updStatus_INSTALLED = 0) (hbar : (s.fetched c).longBarred = false)
    (hfree : (s.fetched c).freeLong.isSome = true) : ∃ t, exec (.updStage c bytes) s = .next t ∧ StartsLong c 0x0E01 [] t ∧
      ∃ h, t.sec.stage = s.sec.stage ++ [(h, bytes.take (c.fld 8 4))] := by
  obtain ⟨u, o, hkept, hops, hasked, hstart⟩ := State.startLong_lists c 0x0E01 0x0E01 (c.fld 8 4) [] (fun s _ => s.stageEmpty)
    (s.fetched c).sec.erasing hbar hfree
  have hsec : u.sec.stage = s.sec.stage := congrArg SecSt.stage ((hkept.sec_eq rfl rfl).trans (s.fetched_sec c))
  rw [exec_updStage_eq bytes htakes hok hmin hmax hclean]
  refine ⟨_, rfl, ?_⟩
  obtain hwaits | hstarts := hstart
  · rw [hwaits]
    obtain ⟨hlist, hstage⟩ := State.stageKept_last (bytes.take (c.fld 8 4)) hops
    exact ⟨.of_last hlist hasked, o.handle, hstage.trans (congrArg (· ++ _) hsec)⟩
  · rw [hstarts]
    have hmarked : (u.markStarted o.handle).host.longOps =
        ((s.fetched c).host.longOps.map fun x => if x.handle = o.handle then { x with started := true } else x) ++ [{ o with started := true }] := by
      rw [State.markStarted, State.modLong, hops, List.map_append, List.map_singleton, if_pos rfl]
    have hemptied : (u.markStarted o.handle).stageEmpty.host.longOps = (u.markStarted o.handle).host.longOps := State.stageEmpty_kept.longOps rfl
    have hsec' : (u.markStarted o.handle).stageEmpty.sec.stage = s.sec.stage :=
      (congrArg SecSt.stage (u.markStarted o.handle).stageEmpty_sec).trans hsec
    obtain ⟨hlist, hstage⟩ := State.stageKept_last (bytes.take (c.fld 8 4)) (hemptied.trans hmarked)
    rw [List.length_map] at hlist hstage
    exact ⟨.of_last hlist hasked, o.handle, hstage.trans (congrArg (· ++ _) hsec')⟩

/-- An installation that the state allows, up to how it begins. -/
theorem exec_updInstall {s : State} {c : Cmd} {i : Image} (htakes : s.takes c 0x0E02 = true) (hok : c.ok 4 [(2, 2)] = true)
    (hcomp : c.fld 0 1 < 10) (hmode : c.fld 1 1 < 2) (hvalid : s.flag F.updStatus_STAGE_VALID = true)
    (himage : imageOf s.sec.staged (c.fld 0 1) = some i) (hnew : s.sec.running.contains i = false)
    (hmeets : (i.requires.all fun r => meets s.sec.running r) = true) : exec (.updInstall c) s = .next
      (if c.fld 1 1 = 1 then
        (((s.fetched c).markInstalled (c.fld 0 1)).modSec fun x => { x with atReset := x.atReset ||| BitVec.ofNat 16 (2 ^ c.fld 0 1) }).complete c
          0x0E02 st.ok
      else if c.fld 0 1 = 1 ∧ (s.fetched c).pairState (1 - (s.fetched c).holder) ≠ 3 then (s.fetched c).complete c 0x0E02 st.badState
      else if c.fld 0 1 = 5 ∧ (s.fetched c).host.longOps.any LongOp.loadsUcode then (s.fetched c).complete c 0x0E02 st.badState
      else (s.fetched c).startLong c 0x0E02 0x0E02 (if c.fld 0 1 = 5 then 32 else if c.fld 0 1 = 1 then 4 else 1) [c.fld 0 1, i.version.toNat]
        fun s _ => s.installBegin (c.fld 0 1)) := by
  have hvalid' : (s.fetched c).flag F.updStatus_STAGE_VALID = true := (s.fetched_flag c updStatus_apart).trans hvalid
  show execUpdInstall c s = _
  simp only [execUpdInstall]
  rw [start_takes htakes (by rw [hok, decide_eq_true hcomp, decide_eq_true hmode]; rfl)]
  simp only [hvalid', s.fetched_sec c, himage, hnew, hmeets, if_true, Bool.not_true, Bool.false_eq_true, if_false]

theorem State.installBegin_core (s : State) {k : Nat} (hlo : 2 ≤ k) (hhi : k ≤ 4) : s.installBegin k = (s.setCoreState k 4).awake k := by
  have hrestarts : restarts k = some k := by
    rw [restarts, if_neg (by omega), if_pos ⟨hlo, hhi⟩]
  rw [State.installBegin, hrestarts]

theorem State.markInstalled_shows (s : State) {k : Nat} (hk : k < 16) : bitAt ((s.markInstalled k).fld F.updStatus_INSTALLED) k = true := by
  have hlt : s.fld F.updStatus_INSTALLED ||| 2 ^ k < 2 ^ 16 := Nat.or_lt_two_pow (Fld.of_lt F.updStatus_INSTALLED _) (Nat.pow_lt_pow_right (by decide) hk)
  rw [State.markInstalled, State.fld_setF_of_lt (f := F.updStatus_INSTALLED) _ (by decide) hlt, bitAt, Nat.testBit_or, Nat.testBit_two_pow_self,
    Bool.or_true]

/-- Settles O38: fuses, commit and discard act or are kept back by one rule, staging and installation are long operations. -/
theorem updates : Obligations.Updates := by
  refine ⟨fun s c htakes hok hslot haction hdip hfree => ?key, fun s c htakes hok hslot haction hdip => ?keyHeld,
    fun s c b htakes hok hmin hmax hclean hbar hfree => ?stage, fun s c i htakes hok hlo hhi hmode hvalid himage hnew hmeets hready => ?install,
    fun s c i htakes hok hcomp hmode hvalid himage hnew hmeets => ?atReset, fun s c htakes hok hforce hdip hvalid => ?commit,
    fun s c htakes hok hdip hclean hidle => ?discard, fun s c htakes hok hdip hinstalled => ?installed, fun s c htakes hok hdip => ?discardHeld,
    fun s herasing hdip hnone => ?erased⟩
  case key =>
    have hfree' : bitAt ((s.fetched c).fld F.updKeys_CUST_PROG) 0 = false := s.fetched_fld c (f := F.updKeys_CUST_PROG) (isApart_at rfl) ▸ hfree
    obtain ⟨hprog, hhash⟩ := (s.fetched c).keyFused_shows (BitVec.ofNat 384 (c.fld 8 48))
    exact Runs.of_next (exec_fuse_acts htakes (by rw [hok, hslot, haction]; rfl) hdip (State.fuseCmd_key hslot haction hfree') rfl)
      ⟨_, _, _, _, _, rfl, hprog, hhash⟩
  case keyHeld =>
    exact Runs.of_next (exec_fuse_held htakes (by rw [hok, hslot, decide_eq_true haction]; rfl) hdip rfl)
      ⟨s.park_fetched_parked c 0x0E08, congrArg SecSt.custHash (s.fetched_park_sec c 0x0E08)⟩
  case stage =>
    obtain ⟨t, hexec, hshown⟩ := exec_updStage b htakes hok hmin hmax hclean hbar hfree
    exact Runs.of_next hexec hshown
  case install =>
    have hexec := exec_updInstall htakes hok (by omega) (by omega) hvalid himage hnew hmeets
    simp only [State.longReady, Bool.and_eq_true, Bool.not_eq_true'] at hready
    obtain ⟨⟨hbar, hfree⟩, hidle⟩ := hready
    obtain ⟨u, hd, -, -, hstarts, heq⟩ := State.startLong_accepts (s := s.fetched c) c 0x0E02 0x0E02
      (if c.fld 0 1 = 5 then 32 else if c.fld 0 1 = 1 then 4 else 1) [c.fld 0 1, i.version.toNat] (fun s _ => s.installBegin (c.fld 0 1)) hbar hfree
    rw [if_neg (by omega), if_neg (by omega), if_neg (by omega), heq, hidle, if_neg Bool.false_ne_true, State.installBegin_core _ hlo hhi] at hexec
    refine Runs.of_next hexec ⟨((hstarts.markStarted hd).kept State.setCoreState_kept rfl).kept State.awake_kept rfl, ?_⟩
    rw [State.awake_coreState, State.setCoreState_coreState _ _ (by decide)]
  case atReset =>
    have hexec := exec_updInstall htakes hok hcomp (by omega) hvalid himage hnew hmeets
    rw [if_pos hmode] at hexec
    exact Runs.of_next hexec ⟨_, _, _, _, _, rfl, State.markInstalled_shows _ (by omega)⟩
  case commit =>
    have hvalid' : (s.fetched c).flag F.updStatus_STAGE_VALID = true := (s.fetched_flag c updStatus_apart).trans hvalid
    obtain ⟨u, hacts, hactive, hseq, hstaged, hempty⟩ := State.fuseCmd_commit hforce hvalid'
    rw [s.fetched_sec] at hactive hseq
    exact Runs.of_next (exec_fuse_acts htakes (by rw [hok, hforce]; rfl) hdip hacts rfl) ⟨_, _, _, _, _, rfl, hactive, hseq, hstaged, hempty⟩
  case discard =>
    have hclean' : (s.fetched c).fld F.updStatus_INSTALLED = 0 := (s.fetched_fld c updStatus_apart).trans hclean
    have hidle' : ((s.fetched c).host.longOps.any fun o => o.op == 0x0E01) = false := s.fetched_longOps c ▸ hidle
    exact Runs.of_next (exec_fuse_acts htakes hok hdip (State.fuseCmd_discard c hclean' hidle') rfl)
      ⟨_, _, _, _, _, rfl, congrArg SecSt.staged (s.fetched c).stageEmpty_sec, (s.fetched c).stageEmpty_valid⟩
  case installed =>
    have hinstalled' : (s.fetched c).fld F.updStatus_INSTALLED ≠ 0 := s.fetched_fld c (f := F.updStatus_INSTALLED) updStatus_apart ▸ hinstalled
    exact Runs.of_next (exec_fuse_acts htakes hok hdip (State.fuseCmd_discard_installed c hinstalled') rfl)
      ⟨_, _, _, _, _, rfl, congrArg SecSt.staged (s.fetched_sec c)⟩
  case discardHeld =>
    exact Runs.of_next (exec_fuse_held htakes hok hdip rfl) ⟨s.park_fetched_parked c 0x0E04, congrArg SecSt.staged (s.fetched_park_sec c 0x0E04)⟩
  case erased =>
    generalize hu : (s.modSec fun x => { x with erasing := false }).setF F.updStatus_MIG_PENDING 0 = u
    have hexec : exec .profileEraseDone s = .next u.startQueued := by
      rw [← hu]
      exact congrArg Host.Outcome.next (if_pos (by rw [herasing, hdip]; rfl))
    rw [State.startQueued_empty (hu ▸ hnone : u.host.longOps = [])] at hexec
    refine Runs.of_next hexec ?_
    rw [← hu]
    exact ⟨rfl, State.fld_setF_of_lt (f := F.updStatus_MIG_PENDING) _ (by decide) (by decide)⟩

end Sys2Proof.Machine
end

section
/-!
References, DPLLs and synthesizers (spec/12 R378 to R401, R410).
-/
namespace Sys2Proof.Machine
open Sys2Proof

/-! ### Ranks that the timing pair writes (spec/12 R386, spec/14 R442, R446) -/

/-- The rows in which writes of the timing pair are counted. -/
def pairRows : List Nat := [Reg.perfWrapLo 0, Reg.perfWrapHi 0, Reg.redundCnt 0]

theorem redundCnt_counted : AtReg pairRows (F.redundCnt_COUNT 4).addr := Reg.redundCnt_at (i := 4) rfl

/-- The register word `w` for `a` is staged for the next boundary. -/
def State.stageWord (s : State) (a : Nat) (w : Word) : State := s.staging fun s => s.wait a w

theorem State.stageWord_waiting (s : State) (a : Nat) (w : Word) :
    (s.stageWord a w).waiting = s.waiting ++ [{ addr := a, word := w, pair := true }] := by
  show (s.waiting ++ [_]).take s.waiting.length ++ ((s.waiting ++ [_]).drop s.waiting.length).map _ = _
  rw [List.take_left, List.drop_left]
  rfl

theorem State.stageWord_kept {s : State} {a : Nat} {w : Word} : Kept [.waiting] s (s.stageWord a w) :=
  State.staging_kept (fun _ h => .step State.wait_kept rfl h) rfl .refl

/-- What the registers will hold is what waits last, else what they hold. -/
theorem State.regW_appended {s t : State} {b : Nat} {x : Waiting} (hwaiting : t.waiting = s.waiting ++ [x]) (hreg : t.reg b = s.reg b) :
    t.regW b = if x.addr = b then x.word else s.regW b := by
  rw [State.regW, hwaiting, List.reverse_append, List.reverse_singleton, List.singleton_append, List.find?_cons, hreg, State.regW]
  by_cases h : x.addr = b
  · rw [if_pos h, beq_iff_eq.2 h]
    rfl
  · rw [if_neg h, beq_eq_false_iff_ne.2 h]

/-- Nothing more than a staged write of register `a` lies between `s` and `t`. -/
structure Stages (a : Nat) (s t : State) : Prop where
  kept : Kept [.regs, .cores, .redund, .waiting] s t
  regs : Writes pairRows s t
  others : ∀ b, b ≠ a → ¬AtReg pairRows b → t.regW b = s.regW b

namespace Stages
variable {a : Nat} {s t u : State}

theorem refl : Stages a s s := ⟨.refl, .refl, fun _ _ _ => rfl⟩

theorem trans (h : Stages a s t) (k : Stages a t u) : Stages a s u :=
  ⟨h.kept.trans k.kept, h.regs.trans k.regs, fun b hb hfree => (k.others b hb hfree).trans (h.others b hb hfree)⟩

/-- Bookkeeping of the pair: nothing waits anew. -/
theorem of_kept (k : Kept [.regs, .cores, .redund] s t) (w : Writes pairRows s t) : Stages a s t := by
  refine ⟨.step k rfl .refl, w, fun b _ hfree => ?_⟩
  have hwaiting : t.waiting = s.waiting := k.same .waiting rfl
  rw [State.regW, hwaiting, w.same b hfree, State.regW]

theorem staged {w : Word} : Stages a s (s.stageWord a w) := by
  refine ⟨.step State.stageWord_kept rfl .refl, .kept State.stageWord_kept rfl .refl, fun b hb hfree => ?_⟩
  rw [State.regW_appended (s.stageWord_waiting a w) rfl, if_neg (Ne.symm hb)]

end Stages

theorem State.gated_holder {s : State} {c : Nat} {l : List Byte} {f : State → State} (hholder : s.holder = c)
    (hheld : s.flag F.redundStatus_UNATTENDED = false) : s.gated c l f = f (s.sign c l) := by
  have hopen : (s.sign c l).holder = c ∧ (!(s.sign c l).flag F.redundStatus_UNATTENDED) = true := by
    have hregs : (s.sign c l).regs = s.regs := State.sign_kept.same .regs rfl
    simp only [State.holder, State.flag, State.fld, State.reg, hregs] at hholder hheld ⊢
    exact ⟨hholder, by rw [hheld]; rfl⟩
  exact if_pos hopen

/-- The write of the core without the interlock is discarded and counted. -/
theorem State.gated_other {s : State} {c : Nat} {l : List Byte} {f : State → State} (hholder : s.holder ≠ c) :
    Kept [.regs, .cores, .redund] s (s.gated c l f) ∧ Writes pairRows s (s.gated c l f) := by
  have hregs : (s.sign c l).regs = s.regs := State.sign_kept.same .regs rfl
  have hshut : ¬((s.sign c l).holder = c ∧ (!(s.sign c l).flag F.redundStatus_UNATTENDED) = true) := by
    simp only [State.holder, State.fld, State.reg, hregs] at hholder ⊢
    exact fun h => hholder h.1
  rw [State.gated, if_neg hshut]
  exact ⟨.step State.perf_kept rfl (.step State.bump_kept rfl (.step State.sign_kept rfl .refl)),
    .step State.perf_writes rfl (.bump redundCnt_counted (.kept State.sign_kept rfl .refl))⟩

/-- A register word that core `c` writes with the interlock checked. -/
def State.gatedWord (s : State) (c a : Nat) (w : Word) : State := s.gated c (natBytes 4 a ++ natBytes 4 w.toNat) fun s => s.stageWord a w

theorem State.gatedWord_stages (s : State) (c a : Nat) (w : Word) : Stages a s (s.gatedWord c a w) := by
  by_cases h : s.holder = c
  case neg => exact .of_kept (State.gated_other h).1 (State.gated_other h).2
  case pos =>
    have hsign (l : List Byte) : Stages a s (s.sign c l) := .of_kept (.step State.sign_kept rfl .refl) (.kept State.sign_kept rfl .refl)
    rw [State.gatedWord, State.gated]
    split
    · exact (hsign _).trans .staged
    · exact (hsign _).trans (.of_kept (.step State.perf_kept rfl (.step State.bump_kept rfl .refl))
        (.step State.perf_writes rfl (.bump redundCnt_counted .refl)))

/-- The word written last for `a`, by the pair, waits. -/
def Staged (a : Nat) (w : Word) (t : State) : Prop := ∃ l, t.waiting = l ++ [{ addr := a, word := w, pair := true }]

theorem Staged.regW {a : Nat} {w : Word} {t : State} (h : Staged a w t) : t.regW a = w := by
  obtain ⟨l, hl⟩ := h
  rw [State.regW, hl, List.reverse_append, List.reverse_singleton, List.singleton_append, List.find?_cons, beq_self_eq_true]
  rfl

theorem State.gatedWord_staged {s : State} {c : Nat} (a : Nat) (w : Word) (hholder : s.holder = c)
    (hheld : s.flag F.redundStatus_UNATTENDED = false) : Staged a w (s.gatedWord c a w) := by
  rw [State.gatedWord, State.gated_holder hholder hheld]
  exact ⟨_, State.stageWord_waiting ..⟩

theorem State.gatedWord_waiting {s : State} {c : Nat} (a : Nat) (w : Word) (hholder : s.holder ≠ c) :
    (s.gatedWord c a w).waiting = s.waiting := (State.gated_other hholder).1.same .waiting rfl

/-- The core that holds the interlock runs the pair's firmware, and the pair serves its protocols. -/
def State.pairServes (s : State) : Prop := s.pairState s.holder ∈ [3, 4] ∧ s.flag F.redundStatus_UNATTENDED = false

theorem pairRows_apart_redundStatus : ¬AtReg pairRows Reg.redundStatus := isApart_at rfl

theorem Stages.holder {a : Nat} {s t : State} (h : Stages a s t) : t.holder = s.holder := h.regs.fld pairRows_apart_redundStatus

theorem Stages.held {a : Nat} {s t : State} (h : Stages a s t) : t.flag F.redundStatus_UNATTENDED = s.flag F.redundStatus_UNATTENDED :=
  h.regs.flag pairRows_apart_redundStatus

theorem Stages.pairState {a : Nat} {s t : State} (h : Stages a s t) (c : Nat) : t.pairState c = s.pairState c :=
  h.regs.fld (pairField_addr c ▸ pairRows_apart_redundStatus)

theorem Stages.pairServes {a : Nat} {s t : State} (h : Stages a s t) : t.pairServes ↔ s.pairServes := by
  rw [State.pairServes, h.holder, h.pairState, h.held, State.pairServes]

theorem State.when_stages {a : Nat} {s : State} {b : Bool} {f : State → State} (h : Stages a s (f s)) : Stages a s (s.when b f) := by
  cases b
  · exact .refl
  · exact h

/-- Core `c` runs the pair's firmware. -/
def State.runsPair (s : State) (c : Nat) : Bool := s.pairState c == 3 || s.pairState c == 4

theorem State.pairWrite_eq (s : State) (a : Nat) (w : Word) : s.pairWrite a w =
    (s.when (s.runsPair 0) fun s => s.gatedWord 0 a w).when (s.runsPair 1) fun s => s.gatedWord 1 a w := rfl

theorem State.pairWrite_stages (s : State) (a : Nat) (w : Word) : Stages a s (s.pairWrite a w) := by
  rw [s.pairWrite_eq]
  exact (State.when_stages (s.gatedWord_stages 0 a w)).trans (State.when_stages (State.gatedWord_stages _ 1 a w))

theorem State.holder_cases (s : State) : s.holder = 0 ∨ s.holder = 1 := by
  have hlt : s.holder < 2 ^ 1 := Fld.of_lt F.redundStatus_HOLDER _
  omega

/-- A write of the pair that runs waits for the boundary. -/
theorem State.pairWrite_staged {s : State} (a : Nat) (w : Word) (hserves : s.pairServes) : Staged a w (s.pairWrite a w) := by
  obtain ⟨hstate, hheld⟩ := hserves
  have hruns : s.runsPair s.holder = true := by simpa [State.runsPair] using hstate
  rw [s.pairWrite_eq]
  rcases s.holder_cases with h | h
  · rw [h] at hruns
    rw [hruns]
    have hother : (s.gatedWord 0 a w).holder ≠ 1 := by rw [(s.gatedWord_stages 0 a w).holder, h]; decide
    cases s.runsPair 1
    case false => exact State.gatedWord_staged a w h hheld
    case true =>
      obtain ⟨l, hl⟩ := State.gatedWord_staged a w h hheld
      exact ⟨l, (State.gatedWord_waiting a w hother).trans hl⟩
  · rw [h] at hruns
    rw [hruns]
    have hkeeps : Stages a s (s.when (s.runsPair 0) fun s => s.gatedWord 0 a w) := State.when_stages (s.gatedWord_stages 0 a w)
    exact State.gatedWord_staged a w (hkeeps.holder.trans h) (hkeeps.held.trans hheld)

theorem candCfg_apart {k : Nat} (hk : k < 16) : ¬AtReg pairRows (Reg.candCfg k) := rowsApart_at (a := 0x3800000) rfl hk rfl

theorem Stages.portOf {a : Nat} {s t : State} (h : Stages a s t) {m : Nat} (hm : m < 128) : t.portOf m = s.portOf m := by
  have hlanes : t.lanes = s.lanes := h.kept.same .lanes rfl
  have hword {n : Nat} (hn : n < 128) : t.cfgWord n = s.cfgWord n := by
    simp only [State.cfgWord, State.lane, hlanes, h.regs.same (Reg.laneCfg n) (rowsApart_at rfl hn rfl)]
  refine List.find?_congr fun n hn => ?_
  have hn : n < 128 := by
    simp only [List.mem_cons, List.mem_nil_iff, or_false] at hn
    omega
  rw [State.heads, State.laneEn, State.width, hword hn, State.heads, State.laneEn, State.width]

/-- Candidate `c` takes its rank from what comes in at `port`: it recovers the clock of one of its lanes, and no rank is forced. -/
def ranksFrom (portOf : Fin 128 → Option Nat) (port c : Nat) (w : Word) : Prop :=
  (F.candCfg_TYPE c).of w = 2 ∧ portOf ⟨(F.candCfg_LANE c).of w, Fld.of_lt (F.candCfg_LANE c) w⟩ = some port ∧ (F.candCfg_FORCE_QL c).of w = 0

/-- The step of a walk over the candidates of a port. -/
def State.rankStep (port rank : Nat) (s : State) (c : Nat) : State :=
  let w := s.regW (Reg.candCfg c)
  if (F.candCfg_TYPE c).of w = 2 ∧ s.portOf ((F.candCfg_LANE c).of w) = some port ∧ (F.candCfg_FORCE_QL c).of w = 0 then
    s.pairWrite (Reg.candCfg c) ((F.candCfg_RANK c).upd w rank)
  else s

theorem State.laneRank_eq (s : State) (port rank : Nat) : s.laneRank port rank = s.each (List.range 16) (State.rankStep port rank) := rfl

theorem State.rankStep_stages (port rank : Nat) (s : State) (c : Nat) : Stages (Reg.candCfg c) s (s.rankStep port rank c) := by
  unfold State.rankStep
  extract_lets w
  split
  · exact s.pairWrite_stages ..
  · exact .refl

/-- What a candidate's rank depends on: its word, whether the pair serves, and the ports. -/
def State.rankView (s : State) (c : Nat) : Word × Prop × (Fin 128 → Option Nat) := (s.regW (Reg.candCfg c), s.pairServes, fun m => s.portOf m)

theorem State.rankStep_rankView (port rank : Nat) (s : State) {b c : Nat} (hb : b < 16) (h : b ≠ c) :
    (s.rankStep port rank c).rankView b = s.rankView b := by
  have hstep := s.rankStep_stages port rank c
  have hne : Reg.candCfg b ≠ Reg.candCfg c := at1_ne hb (by decide) (by decide) h
  exact Prod.ext (hstep.others _ hne (candCfg_apart hb)) (Prod.ext (propext hstep.pairServes) (funext fun m => hstep.portOf m.isLt))

/-- Each candidate that takes its rank from the port has it waiting. -/
theorem State.laneRank_rank {s : State} {port rank k : Nat} (hk : k < 16) (hrank : rank < 256) (hserves : s.pairServes)
    (hfrom : ranksFrom (fun m => s.portOf m) port k (s.regW (Reg.candCfg k))) :
    (F.candCfg_RANK k).of ((s.laneRank port rank).regW (Reg.candCfg k)) = rank := by
  rw [s.laneRank_eq]
  refine State.each_own (view := State.rankView) (l := List.range 16) (f := State.rankStep port rank)
    (P := fun c x y => x.2.1 → ranksFrom x.2.2 port c x.1 → (F.candCfg_RANK c).of y.1 = rank) List.nodup_range
    (fun v c _ hserves hfrom => ?_) (fun v b hb c _ hne => v.rankStep_rankView port rank (List.mem_range.1 hb) hne) s k
    (List.mem_range.2 hk) hserves hfrom
  have htaken : v.rankStep port rank c = v.pairWrite (Reg.candCfg c) ((F.candCfg_RANK c).upd (v.regW (Reg.candCfg c)) rank) := if_pos hfrom
  show (F.candCfg_RANK c).of ((v.rankStep port rank c).regW _) = rank
  rw [htaken, (State.pairWrite_staged _ _ hserves).regW, Fld.of_upd (F.candCfg_RANK c) _ _ (show 16 + 8 ≤ 32 by decide)]
  exact Nat.mod_eq_of_lt hrank

theorem Kept.refs {L : List Part} {s t : State} (k : Kept L s t) (h : L.contains .refs = false) : t.refs = s.refs := k.same .refs h

theorem State.attended_serves {s : State} (hattended : s.attended = true) (hstate : s.pairState s.holder ∈ [3, 4]) : s.pairServes := by
  simp only [State.attended, Bool.and_eq_true, Bool.not_eq_true'] at hattended
  exact ⟨hstate, hattended.2⟩

/-- The ranks of a port's candidates after the tables of ESMC PDUs have become `esmc`. -/
def State.esmcRanked (s : State) (esmc : Tab Nat) (port rank : Nat) : State :=
  State.laneRank { s with refs := { s.refs with esmc := esmc } } port rank

theorem State.esmcRanked_shows {s : State} (esmc : Tab Nat) {port rank k : Nat} (hk : k < 16) (hrank : rank < 256) (hserves : s.pairServes)
    (hfrom : ranksFrom (fun m => s.portOf m) port k (s.regW (Reg.candCfg k))) :
    (F.candCfg_RANK k).of ((s.esmcRanked esmc port rank).regW (Reg.candCfg k)) = rank ∧ (s.esmcRanked esmc port rank).refs.esmc = esmc :=
  ⟨State.laneRank_rank hk hrank hserves hfrom, congrArg RefSt.esmc (State.laneRank_kept.refs rfl)⟩

theorem exec_esmcRx {s : State} {n : Fin 128} (r : BitVec 8) (hattended : s.attended = true) (hup : s.portUp n = true) :
    exec (.esmcRx n r) s = .next (s.esmcRanked (Tab.ins n (s.time.bounds + 1) s.refs.esmc) n r.toNat) := by
  show execEsmcRx n r s = _
  rw [execEsmcRx, hattended, hup]
  rfl

theorem exec_esmcTimeout {s : State} {n : Fin 128} (hattended : s.attended = true) (hsilent : s.esmcSilent n = true) :
    exec (.esmcTimeout n) s = .next (s.esmcRanked (Tab.del n s.refs.esmc) n 255) := by
  show execEsmcTimeout n s = _
  rw [execEsmcTimeout, hattended, hsilent]
  rfl

/-! ### Holdover (spec/12 R395 to R398) -/

theorem exec_hoTtsExpire {s : State} {d : Fin 4} (hstate : s.dpllState d = 3) (htts : s.fld (F.dpllHoTts_TTS d) = 0)
    (hunreported : s.flag (F.dpllStatus_HO_SPEC_EXCEEDED d) = false) (hjoined : s.joinedBeat = true) :
    exec (.hoTtsExpire d) s = .next ((s.setF (F.dpllStatus_HO_SPEC_EXCEEDED d) 1).holdEvent d 1) := by
  have hdue : s.dpllState d = 3 ∧ s.fld (F.dpllHoTts_TTS d) = 0 ∧ (!s.flag (F.dpllStatus_HO_SPEC_EXCEEDED d)) = true :=
    ⟨hstate, htts, by rw [hunreported]; rfl⟩
  show execHoTtsExpire d s = _
  rw [execHoTtsExpire, if_pos hdue]
  exact congrArg Host.Outcome.next (if_pos hjoined)

/-- The end of the time to specification shows, and is reported. -/
theorem State.hoExceeded_shows {s : State} {d : Fin 4} (htts : s.fld (F.dpllHoTts_TTS d) = 0) :
    ((s.setF (F.dpllStatus_HO_SPEC_EXCEEDED d) 1).holdEvent d 1).flag (F.dpllStatus_HO_SPEC_EXCEEDED d) = true ∧
    Raised 0x0904 16 [(0, 1, d.val), (1, 1, 1), (2, 1, s.fld (F.dpllStatus_HIST_VALID d)), (4, 4, 0),
      (8, 4, (s.time.bounds - (s.dpll d).holdFrom) / 100000)] ((s.setF (F.dpllStatus_HO_SPEC_EXCEEDED d) 1).holdEvent d 1) := by
  have hset : (s.setF (F.dpllStatus_HO_SPEC_EXCEEDED d) 1).flag (F.dpllStatus_HO_SPEC_EXCEEDED d) = true := by
    rw [State.flag, State.fld_setF_of_lt (f := F.dpllStatus_HO_SPEC_EXCEEDED d) _ (show 21 + 1 ≤ 32 by decide) (show 1 < 2 ^ 1 by decide)]
    rfl
  have hvalid : (s.setF (F.dpllStatus_HO_SPEC_EXCEEDED d) 1).fld (F.dpllStatus_HIST_VALID d) = s.fld (F.dpllStatus_HIST_VALID d) :=
    State.fld_setF_sep _ _ rfl
  have htime : (s.setF (F.dpllStatus_HO_SPEC_EXCEEDED d) 1).fld (F.dpllHoTts_TTS d) = 0 :=
    (State.fld_setF_reg _ _ (at1_ne_of_base d.isLt (by decide))).trans htts
  refine ⟨(State.raise_writes.flag (rowsApart_at rfl d.isLt rfl)).trans hset, s.setF (F.dpllStatus_HO_SPEC_EXCEEDED d) 1, ?_⟩
  rw [State.holdEvent, hvalid, htime]
  rfl

theorem exec_holdoverLearn {s : State} {c : Cmd} (htakes : s.takes c 0x0902 = true) (hok : c.ok 8 [(2, 2)] = true) (hdpll : c.fld 0 1 < 4)
    (happly : c.fld 1 1 < 2) (hmin : 3600 ≤ c.fld 4 4) (hmax : c.fld 4 4 ≤ 2592000) :
    exec (.holdoverLearn c) s = .next ((s.fetched c).startLong c 0x0902 (0x90200 + c.fld 0 1) (c.fld 4 4)) := by
  show execHoldoverLearn c s = _
  simp only [execHoldoverLearn]
  rw [start_takes htakes (by simp only [hok, hdpll, happly, hmin, hmax, decide_true, Bool.and_self])]

/-- An accepted operation that does nothing at its start is a long operation. -/
theorem State.startLong_startsLong {s : State} (c : Cmd) (op res total : Nat) (hbar : s.longBarred = false) (hfree : s.freeLong.isSome = true) :
    StartsLong c op [] (s.startLong c op res total) := by
  obtain ⟨u, hd, -, -, hstarts, heq⟩ := State.startLong_accepts c op res total [] (fun s _ => s) hbar hfree
  rw [heq]
  split
  · exact hstarts
  · exact hstarts.markStarted hd

/-- The beats of LOCKED whose mean a sample of HOLDOVER_LEARN takes. -/
def State.learnBeats (s : State) (d : Nat) : List (Nat × Nat) := (s.dpll d).hist.take 10000000

/-- A sample: the mean time of the beats and their mean increment. -/
def learnSample (l : List (Nat × Nat)) : List Nat := [l.foldl (fun a p => a + p.1) 0 / l.length, l.foldl (fun a p => a + p.2) 0 * 65536 / l.length]

theorem exec_holdoverLearnSample {s : State} {d : Fin 4} {o : LongOp}
    (hop : (s.host.longOps.find? fun o => o.op == 0x0902 && o.cmd.fld 0 1 == d.val && o.state == .running) = some o)
    (hstate : s.dpllState d = 2) (hhist : (s.dpll d).hist ≠ []) : exec (.holdoverLearnSample d) s =
    .next (s.modLong o.handle fun o => { o with args := o.args ++ learnSample (s.learnBeats d), progress := o.progress + 100 }) := by
  have hbeats : ((s.dpll d).hist.take 10000000).isEmpty = false := by
    rw [List.isEmpty_eq_false_iff, Ne, List.take_eq_nil_iff]
    exact fun h => h.elim (by decide) hhist
  have hgoes : ¬(s.dpllState d ≠ 2 ∨ ((s.dpll d).hist.take 10000000).isEmpty = true) := by
    rw [hbeats]
    exact fun h => h.elim (fun h => h hstate) Bool.false_ne_true
  show execHoldoverLearnSample d s = _
  rw [execHoldoverLearnSample, hop]
  exact congrArg Host.Outcome.next (if_neg hgoes)

theorem State.modLong_mem {s : State} {o : LongOp} (ho : o ∈ s.host.longOps) (f : LongOp → LongOp) :
    f o ∈ (s.modLong o.handle f).host.longOps :=
  List.mem_map.2 ⟨o, ho, if_pos rfl⟩

theorem dpllStatus_quiet {d : Nat} (hd : d < 4) : ¬AtReg quietRows (Reg.dpllStatus d) := rowsApart_at (a := 0x3801030) rfl hd rfl

/-- The history of DPLL `d` is dropped, and its increment shows its reset value. -/
def State.histCleared (s : State) (d : Nat) : State :=
  (((s.modDpll d fun x => { x with hist := [], histLen := 0, histSum := 0 }).setF (F.dpllStatus_HIST_VALID d) 0).setReg (Reg.dpllHistIncrLo d)
    (RegMap.reset (Reg.dpllHistIncrLo d))).setReg (Reg.dpllHistIncrHi d) (RegMap.reset (Reg.dpllHistIncrHi d))

theorem exec_dpllHistReset {s : State} {c : Cmd} (htakes : s.takes c 0x0903 = true) (hok : c.ok 1 = true) (hdpll : c.fld 0 1 < 4)
    (hstate : s.dpllState (c.fld 0 1) ≠ 3) : exec (.dpllHistReset c) s =
    .next (((s.fetched c).histCleared (c.fld 0 1)).complete c 0x0903 st.ok) := by
  have hstate' : (s.fetched c).dpllState (c.fld 0 1) ≠ 3 := fun h => hstate ((s.fetched_fld c (dpllStatus_quiet hdpll)).symm.trans h)
  show execDpllHistReset c s = _
  simp only [execDpllHistReset]
  rw [start_takes htakes (by simp only [hok, hdpll, decide_true, Bool.and_self]), if_neg hstate']
  rfl

theorem State.histCleared_shows (s : State) {d : Nat} (hd : d < 4) : ((s.histCleared d).dpll d).hist = [] ∧
    (s.histCleared d).fld (F.dpllStatus_HIST_VALID d) = 0 ∧
    (s.histCleared d).reg (Reg.dpllHistIncrLo d) = RegMap.reset (Reg.dpllHistIncrLo d) := by
  have hlo : (F.dpllStatus_HIST_VALID d).addr ≠ Reg.dpllHistIncrLo d := at1_ne_of_base hd (by decide)
  have hhi : (F.dpllStatus_HIST_VALID d).addr ≠ Reg.dpllHistIncrHi d := at1_ne_of_base hd (by decide)
  have hlohi : Reg.dpllHistIncrLo d ≠ Reg.dpllHistIncrHi d := at1_ne_of_base hd (by decide)
  refine ⟨?_, ?_, ?_⟩
  · have hkept : (s.histCleared d).dpll d = (s.modDpll d fun x => { x with hist := [], histLen := 0, histSum := 0 }).dpll d := rfl
    rw [hkept, State.dpll_modDpll]
  · rw [State.histCleared, State.fld, State.reg_setReg_other _ _ hhi, State.reg_setReg_other _ _ hlo]
    exact State.fld_setF_of_lt (f := F.dpllStatus_HIST_VALID d) _ (show 22 + 1 ≤ 32 by decide) (show 0 < 2 ^ 1 by decide)
  · rw [State.histCleared, State.reg_setReg_other _ _ hlohi, State.reg_setReg_same]

/-! ### Forced selection (spec/12 R385, R410) -/

/-- CORE4's fetch of a command writes its ring's registers alone, which end below `0x102000`. -/
theorem State.fetched_reg (s : State) (c : Cmd) {a : Nat} (ha : 0x102000 ≤ a) : (s.fetched c).reg a = s.reg a := by
  have hidx : a ≠ Reg.ringDevIdx 64 := at1_ne_of_ge (by decide) (by decide) (by omega)
  have hstatus : a ≠ Reg.ringStatus 64 := at1_ne_of_ge (by decide) (by decide) (by omega)
  have hadvance (t : State) : (t.advance 64).reg a = t.reg a := by
    have hregs : ((t.setReg (Reg.ringDevIdx 64) (BitVec.ofNat 32 (t.devIdx 64 + 1))).showFull 64).reg a = t.reg a := by
      rw [State.showFull, State.reg_setF_other _ _ hstatus, State.reg_setReg_other _ _ hidx]
    unfold State.advance
    extract_lets u
    split
    · have hpost (v : State) (p : Post) : (v.post p).reg a = v.reg a := by
        unfold State.post
        split <;> rfl
      exact (hpost ..).trans hregs
    · exact hregs
  unfold State.fetched
  extract_lets u host v
  split
  · exact hadvance v
  · rfl

theorem State.fetched_candAnchor (s : State) (c : Cmd) (n : Nat) : (s.fetched c).candAnchor n = s.candAnchor n := by
  have hservo : (s.fetched c).servo = s.servo := State.fetched_kept.servo rfl
  have hcfg (k : Nat) : (s.fetched c).reg (Reg.slotCfg k) = s.reg (Reg.slotCfg k) :=
    s.fetched_reg c (Nat.le_trans (by decide) (slotRow_ge (b := 0x3410000) (by decide) k))
  have hstatus (k : Nat) : (s.fetched c).reg (Reg.slotStatus k) = s.reg (Reg.slotStatus k) :=
    s.fetched_reg c (Nat.le_trans (by decide) (slotRow_ge (b := 0x3410030) (by decide) k))
  have hkind (k : Nat) : (s.fetched c).slotKind k = s.slotKind k := congrArg (Fld.of _) (hcfg k)
  have htarget (k : Nat) : (s.fetched c).slotTarget k = s.slotTarget k := congrArg (Fld.of _) (hcfg k)
  have hstate (k : Nat) : (s.fetched c).slotState k = s.slotState k := congrArg (Fld.of _) (hstatus k)
  simp only [State.candAnchor, State.candSlot, State.feeder, State.sess, hservo, hkind, htarget, hstate]

theorem State.fetched_qualified (s : State) (c : Cmd) (d : Nat) {n : Nat} (hn : n < 16) : (s.fetched c).qualified d n = s.qualified d n := by
  have hstate : (s.fetched c).candState n = s.candState n := s.fetched_fld c (rowsApart_at rfl hn rfl)
  have htype : (s.fetched c).candType n = s.candType n := s.fetched_fld c (rowsApart_at rfl hn rfl)
  simp only [State.qualified, hstate, htype, s.fetched_candAnchor c]

theorem exec_refForce {s : State} {c : Cmd} (htakes : s.takes c 0x0901 = true) (hok : c.ok 3 = true) (hdpll : c.fld 0 1 < 4)
    (hforce : c.fld 1 1 = 1) (hcand : c.fld 2 1 < 16) : exec (.refForce c) s =
    .next (if s.qualified (c.fld 0 1) (c.fld 2 1) then (s.fetched c).park c 0x0901 else (s.fetched c).complete c 0x0901 st.badState) := by
  show execRefForce c s = _
  simp only [execRefForce, hforce]
  rw [start_takes htakes (by simp only [hok, hdpll, hcand, decide_true]; rfl), s.fetched_qualified c _ hcand]
  cases s.qualified (c.fld 0 1) (c.fld 2 1) <;> rfl

/-! ### Words that wait for the boundary (spec/18 R546) -/

/-- The word that a register takes at the boundary from a write of `v`. -/
def State.laterWord (s : State) (a : Nat) (v : Word) : Word := (s.regW a &&& ~~~(rwMask a)) ||| (v &&& rwMask a)

theorem exec_candCfgWrite {s : State} {k : Fin 16} {w : Fin 3} (v : Word) (hup : s.up = true)
    (hfirst : s.beaten .host (Reg.candCfg k + 4 * w.val) = false) (hword : w ≠ 0) : exec (.candCfgWrite .host k w v) s =
    .next ((s.wait (Reg.candCfg k + 4 * w.val) (s.laterWord (Reg.candCfg k + 4 * w.val) v)).took .host (Reg.candCfg k + 4 * w.val)) := by
  have hword : w.val ≠ 0 := fun h => hword (Fin.ext h)
  show execCandCfgWrite .host k w v s = _
  rw [execCandCfgWrite, State.candWrite]
  simp only [State.byWriter, hup, hfirst, hword, Bool.not_true, Bool.false_eq_true, if_false, false_and]
  rfl

/-! ### The loop of a DPLL opens (spec/12 R389, R394) -/

/-- A DPLL that enters a state other than HOLDOVER shows it, and keeps the rate committed. -/
theorem State.goDpll_enters (s : State) {d new : Nat} (cause : Nat) (old : Option Nat) (hd : d < 4) (hnew : new < 16) (hactive : new ≠ 3) :
    (s.goDpll d new cause old).dpllState d = new ∧ ((s.goDpll d new cause old).dpll d).sw = (s.dpll d).sw := by
  unfold State.goDpll
  extract_lets left ev shown entered reported ended t begun
  have hshown : shown = s := by
    show s.when (new == 3 && left != 3) _ = s
    rw [beq_false_of_ne hactive, Bool.false_and]
    rfl
  have hentered : entered.dpllState d = new ∧ (entered.dpll d).sw = (s.dpll d).sw := by
    refine ⟨State.fld_setF_of_lt (f := F.dpllStatus_STATE d) _ (show 28 + 4 ≤ 32 by decide) hnew, ?_⟩
    show (State.dpll (State.modDpll (shown.setF _ _) d _) d).sw = _
    rw [State.dpll_modDpll, hshown]
    rfl
  have hraised {u v : State} (hkept : Kept [.regs, .host, .cores] u v) (hregs : Writes reportRegs u v)
      (h : u.dpllState d = new ∧ (u.dpll d).sw = (s.dpll d).sw) : v.dpllState d = new ∧ (v.dpll d).sw = (s.dpll d).sw := by
    have hrefs : v.refs = u.refs := hkept.refs rfl
    refine ⟨(hregs.fld (rowsApart_at rfl hd rfl)).trans h.1, ?_⟩
    rw [State.dpll, hrefs]
    exact h.2
  have hreported : reported.dpllState d = new ∧ (reported.dpll d).sw = (s.dpll d).sw := by
    refine hraised (State.when_kept (fun h => .step State.raise_kept rfl h) .refl)
      (State.when_writes (fun h => .step State.raise_writes rfl h) .refl) hentered
  split
  case isTrue h =>
    have hended : ended.dpllState d = new ∧ (ended.dpll d).sw = (s.dpll d).sw :=
      hraised (State.when_kept (fun h => .step State.holdEvent_kept rfl h) .refl)
        (State.when_writes (fun h => .step State.holdEvent_writes rfl h) .refl) hreported
    refine ⟨?_, hended.2⟩
    have hother : (F.dpllStatus_STATE d).addr ≠ Reg.dpllHoTts d := at1_ne_of_base hd (by decide)
    show State.fld _ _ = _
    rw [State.fld_setF_sep _ _ rfl, State.fld, State.reg_setReg_other _ _ hother]
    exact hended.1
  case isFalse h =>
    rw [if_neg fun h => hactive h.2]
    exact hreported

/-- SWRATE holds the increment `v`, and no rate is committed. -/
def State.swLoaded (s : State) (d v : Nat) : State :=
  ((s.setReg (Reg.dpllSwrateLo d) (BitVec.ofNat 32 v)).setF (F.dpllSwrateHi_HI d) (v / 2 ^ 32)).modDpll d fun x => { x with sw := none }

theorem State.dpllOpened_eq (s : State) (d cause : Nat) :
    s.dpllOpened d cause = (s.swLoaded d (s.cnt d).incr.toNat).goDpll d 5 cause ((s.swLoaded d (s.cnt d).incr.toNat).selCand d) := rfl

theorem State.swLoaded_shows (s : State) {d v : Nat} (hd : d < 4) (hv : v < 2 ^ 48) : (s.swLoaded d v).reg (Reg.dpllSwrateLo d) = BitVec.ofNat 32 v ∧
    (s.swLoaded d v).fld (F.dpllSwrateHi_HI d) = v / 2 ^ 32 ∧ ((s.swLoaded d v).dpll d).sw = none := by
  have hother : Reg.dpllSwrateLo d ≠ (F.dpllSwrateHi_HI d).addr := at1_ne_of_base hd (by decide)
  refine ⟨?_, ?_, ?_⟩
  · rw [State.swLoaded, State.modDpll_reg, State.reg_setF_other _ _ hother, State.reg_setReg_same]
  · rw [State.swLoaded, State.modDpll_fld, State.fld_setF_of_lt (f := F.dpllSwrateHi_HI d) _ (show 0 + 16 ≤ 32 by decide)]
    exact Nat.div_lt_of_lt_mul hv
  · rw [State.swLoaded, State.dpll_modDpll]

/-- The loop that opens runs on with the present increment. -/
theorem State.dpllOpened_shows (s : State) {d : Nat} (cause : Nat) (hd : d < 4) : (s.dpllOpened d cause).dpllState d = 5 ∧
    (s.dpllOpened d cause).reg (Reg.dpllSwrateLo d) = BitVec.ofNat 32 (s.cnt d).incr.toNat ∧
    (s.dpllOpened d cause).fld (F.dpllSwrateHi_HI d) = (s.cnt d).incr.toNat / 2 ^ 32 ∧ ((s.dpllOpened d cause).dpll d).sw = none := by
  obtain ⟨hlo, hhi, hsw⟩ := s.swLoaded_shows hd (s.cnt d).incr.isLt
  rw [s.dpllOpened_eq]
  obtain ⟨hstate, hkeeps⟩ := (s.swLoaded d (s.cnt d).incr.toNat).goDpll_enters cause
    ((s.swLoaded d (s.cnt d).incr.toNat).selCand d) hd (show 5 < 16 by decide) (by decide)
  exact ⟨hstate, (State.goDpll_writes.same _ (rowsApart_at rfl hd rfl)).trans hlo,
    (State.goDpll_writes.fld (rowsApart_at rfl hd rfl)).trans hhi, hkeeps.trans hsw⟩

theorem dpllCfg_rw (d : Fin 4) : (F.dpllCfg_EN d).mask &&& rwMask (F.dpllCfg_EN d).addr = (F.dpllCfg_EN d).mask ∧
    (F.dpllCfg_OPEN d).mask &&& rwMask (F.dpllCfg_OPEN d).addr = (F.dpllCfg_OPEN d).mask := by
  revert d
  decide +kernel

theorem State.dpllCfg_opens (s : State) (d : Fin 4) {v : Word} (hopen : (F.dpllCfg_OPEN d).of v = 1) (hen : (F.dpllCfg_EN d).of v = 1) :
    (s.putRw (Reg.dpllCfg d) v).flag (F.dpllCfg_EN d) = true ∧ (s.putRw (Reg.dpllCfg d) v).dpllOpen d = true := by
  have hen' : (s.putRw (Reg.dpllCfg d) v).flag (F.dpllCfg_EN d) = true := by
    have := s.fld_putRw (F.dpllCfg_EN d) v (dpllCfg_rw d).1 (show 31 + 1 ≤ 32 by decide)
    exact bne_iff_ne.2 ((this.trans hen) ▸ Nat.one_ne_zero)
  have hopen' : (s.putRw (Reg.dpllCfg d) v).flag (F.dpllCfg_OPEN d) = true := by
    have := s.fld_putRw (F.dpllCfg_OPEN d) v (dpllCfg_rw d).2 (show 30 + 1 ≤ 32 by decide)
    exact bne_iff_ne.2 ((this.trans hopen) ▸ Nat.one_ne_zero)
  exact ⟨hen', by rw [State.dpllOpen, hen', hopen']; rfl⟩

theorem State.byWriter_host {s : State} {a : Nat} {w : Word} {f : State → State} (hup : s.up = true) : s.byWriter .host a w f = f s := by
  rw [State.byWriter, hup]
  rfl

theorem exec_dpllOpen {s : State} {d : Fin 4} {v : Word} (hup : s.up = true) (hclosed : s.flag (F.dpllCfg_OPEN d) = false)
    (hopen : (F.dpllCfg_OPEN d).of v = 1) (hen : (F.dpllCfg_EN d).of v = 1) :
    ∃ (u : State) (cause : Nat), u.time = s.time ∧ exec (.dpllOpen .host d v) s = .next (u.dpllOpened d cause) := by
  obtain ⟨hen', hopen'⟩ := s.dpllCfg_opens d hopen hen
  have hwas : s.dpllOpen d = false := by rw [State.dpllOpen, hclosed, Bool.and_false]
  show ∃ u cause, _ ∧ execDpllOpen .host d v s = _
  rw [execDpllOpen, State.dpllCfgWrite, State.byWriter_host hup]
  dsimp only
  rw [hen', hwas, hopen', Bool.not_true, Bool.false_and, if_neg Bool.false_ne_true, Bool.not_false, Bool.and_self, if_pos rfl]
  refine ⟨_, _, ?_, rfl⟩
  split <;> rfl

/-! ### The rate of an open loop (spec/12 R394) -/

theorem dpllSwrateHi_rw (d : Fin 4) : (F.dpllSwrateHi_HI d).mask &&& rwMask (F.dpllSwrateHi_HI d).addr = (F.dpllSwrateHi_HI d).mask := by
  revert d
  decide +kernel

theorem exec_swrateCommit {s : State} {d : Fin 4} (v : Word) (hup : s.up = true) (hwriter : s.flag (F.dpllCfg_SW_SRC d) = true)
    (hopen : s.dpllState d = 5) : exec (.swrateCommit .host d v) s = .next ((s.putRw (Reg.dpllSwrateHi d) v).modDpll d fun x =>
      { x with sw := some ((F.dpllSwrateHi_HI d).of v * 2 ^ 32 + (s.reg (Reg.dpllSwrateLo d)).toNat) }) := by
  have hstate : (s.putRw (Reg.dpllSwrateHi d) v).dpllState d = 5 :=
    (State.fld_putRw_other _ _ _ (at1_ne_of_base d.isLt (by decide))).trans hopen
  have hhi : (s.putRw (Reg.dpllSwrateHi d) v).fld (F.dpllSwrateHi_HI d) = (F.dpllSwrateHi_HI d).of v :=
    s.fld_putRw (F.dpllSwrateHi_HI d) v (dpllSwrateHi_rw d) (show 0 + 16 ≤ 32 by decide)
  have hne : Reg.dpllSwrateLo d ≠ Reg.dpllSwrateHi d := at1_ne_of_base d.isLt (by decide)
  have hlo : (s.putRw (Reg.dpllSwrateHi d) v).reg (Reg.dpllSwrateLo d) = s.reg (Reg.dpllSwrateLo d) := State.reg_setReg_other _ _ hne
  show execSwrateCommit .host d v s = _
  rw [execSwrateCommit, State.swrateWrite]
  dsimp only
  rw [if_pos rfl, State.byWriter_host hup, State.swWriter, hwriter, Bool.not_true, if_neg Bool.false_ne_true, hstate, hhi, hlo]
  rfl

/-! ### Synthesizers (spec/12 R400, R401) -/

/-- Synthesizer `y` is locked at `band`. -/
def State.synLocked (s : State) (y band good : Nat) : State :=
  let t := (((s.modSyn y fun x => { x with good := good }).setF (F.synStatus_SEARCH y) 0).setF (F.synStatus_LOCK y) 1).setF (F.synStatus_HELD y) 0
  (t.setF (F.synStatus_BAND y) band).modSyn y fun x => { x with lockFb := x.fb, bad := 0 }

theorem State.synLocked_shows (s : State) (y good : Nat) {band : Nat} (hband : band < 64) : (s.synLocked y band good).flag (F.synStatus_LOCK y) = true ∧
    (s.synLocked y band good).flag (F.synStatus_SEARCH y) = false ∧ (s.synLocked y band good).fld (F.synStatus_BAND y) = band := by
  unfold State.synLocked
  extract_lets t
  refine ⟨?_, ?_, ?_⟩
  · rw [State.modSyn_flag, State.flag, State.fld_setF_sep _ _ rfl, State.fld_setF_sep _ _ rfl,
      State.fld_setF_of_lt (f := F.synStatus_LOCK y) _ (show 31 + 1 ≤ 32 by decide) (show 1 < 2 ^ 1 by decide)]
    rfl
  · rw [State.modSyn_flag, State.flag, State.fld_setF_sep _ _ rfl, State.fld_setF_sep _ _ rfl, State.fld_setF_sep _ _ rfl,
      State.fld_setF_of_lt (f := F.synStatus_SEARCH y) _ (show 30 + 1 ≤ 32 by decide) (show 0 < 2 ^ 1 by decide)]
    rfl
  · rw [State.modSyn_fld, State.fld_setF_of_lt (f := F.synStatus_BAND y) _ (show 22 + 6 ≤ 32 by decide) hband]

/-- The fourth good gate of a search locks the synthesizer, aligns its outputs and is reported. -/
theorem exec_synGate_locks {s : State} {y : Fin 2} {err : Nat} {band : Fin 64} (hup : s.up = true) (hen : s.flag (F.synCfg_EN y) = true)
    (hsearch : s.flag (F.synStatus_SEARCH y) = true) (hgood : err ≤ 100) (hrun : 3 ≤ (s.syn y).good) :
    ∃ t, Writes reportRegs (s.synLocked y band ((s.syn y).good + 1)) t ∧ exec (.synGate y err band) s = .next t := by
  have hfour : ¬(s.syn y).good + 1 < 4 := by omega
  show ∃ t, _ ∧ execSynGate y err band s = _
  rw [execSynGate, if_pos hup, State.synGate, hen, hsearch, Bool.not_true, if_neg Bool.false_ne_true, if_pos rfl, if_pos hgood]
  dsimp only
  rw [if_neg hfour]
  refine ⟨_, ?_, rfl⟩
  exact Writes.step State.raise_writes rfl (State.each_writes (fun v k h => .kept State.clkAlign_kept rfl h) .refl)

theorem exec_synGate_restarts {s : State} {y : Fin 2} {err : Nat} {band : Fin 64} (hup : s.up = true) (hen : s.flag (F.synCfg_EN y) = true)
    (hsearch : s.flag (F.synStatus_SEARCH y) = true) (hbad : 100 < err) :
    exec (.synGate y err band) s = .next (s.modSyn y fun x => { x with good := 0 }) := by
  show execSynGate y err band s = _
  rw [execSynGate, if_pos hup, State.synGate, hen, hsearch, Bool.not_true, if_neg Bool.false_ne_true, if_pos rfl, if_neg (Nat.not_le.2 hbad)]
  rfl

theorem synCfg_rw (y : Fin 2) : (F.synCfg_EN y).mask &&& rwMask (F.synCfg_EN y).addr = (F.synCfg_EN y).mask := by
  revert y
  decide +kernel

/-- A feedback in range is loaded into a synthesizer without outputs. -/
theorem State.synLoad_loads {s : State} {y : Nat} (hlo : 32 * 2 ^ 32 ≤ s.synShadow y) (hhi : s.synShadow y ≤ 36 * 2 ^ 32)
    (houtputs : s.clksOf y = []) (hoff : s.flag (F.synCfg_EN y) = false) :
    s.synLoad y = s.modSyn y fun x => { x with fb := s.synShadow y } := by
  generalize hr : s.synLoad y = r
  unfold State.synLoad at hr
  rw [houtputs] at hr
  extract_lets fb ks moved near loaded divided at hr
  clear_value moved near
  have hstill : loaded.flag (F.synCfg_EN y) = false := (State.modSyn_flag s y _ _).trans hoff
  have hdivided : divided = loaded := rfl
  rw [decide_eq_true hlo, decide_eq_true hhi, if_neg (by exact Bool.false_ne_true), hdivided, hstill] at hr
  exact hr.symm

theorem exec_synUpd {s : State} {y : Fin 2} {v : Word} (hup : s.up = true) (hupd : (F.synCfg_UPD y).of v = 1) (hen : (F.synCfg_EN y).of v = 0)
    (hoff : s.flag (F.synCfg_EN y) = false) (hlo : 32 * 2 ^ 32 ≤ (s.putRw (Reg.synCfg y) v).synShadow y)
    (hhi : (s.putRw (Reg.synCfg y) v).synShadow y ≤ 36 * 2 ^ 32) (houtputs : (s.putRw (Reg.synCfg y) v).clksOf y = []) :
    exec (.synUpd .host y v) s = .next ((s.putRw (Reg.synCfg y) v).modSyn y fun x =>
      { x with fb := (s.putRw (Reg.synCfg y) v).synShadow y }) := by
  have hstays : (s.putRw (Reg.synCfg y) v).flag (F.synCfg_EN y) = false := by
    have := s.fld_putRw (F.synCfg_EN y) v (synCfg_rw y) (show 31 + 1 ≤ 32 by decide)
    rw [State.flag]
    exact bne_eq_false_iff_eq.2 (this.trans hen)
  show execSynUpd .host y v s = _
  rw [execSynUpd, State.synCfgWrite, State.byWriter_host hup]
  dsimp only
  rw [if_pos hupd, State.synLoad_loads hlo hhi houtputs hstays, hoff]
  rw [State.synEnable, State.modSyn_flag, hstays]
  dsimp only
  rw [Bool.false_and, if_neg Bool.false_ne_true, if_neg Bool.false_ne_true]

/-- Settles O30: ranks by the writes of the timing pair, the others by the state that each command or event answers. -/
theorem references : Obligations.References := by
  refine ⟨fun s n r k hattended hstate hport htype hlane hfree => ?rank, fun s n k hattended hstate hsilent htype hlane hfree => ?failed,
    fun s d hstate htts hunreported hjoined => Runs.of_next (exec_hoTtsExpire hstate htts hunreported hjoined) (State.hoExceeded_shows htts),
    fun s c htakes hok hdpll happly hmin hmax hbar hlong => Runs.of_next (exec_holdoverLearn htakes hok hdpll happly hmin hmax)
      (State.startLong_startsLong c _ _ _ hbar hlong),
    fun s d o hop hstate hhist => Runs.of_next (exec_holdoverLearnSample hop hstate hhist)
      ⟨_, State.modLong_mem (List.mem_of_find?_eq_some hop) _, rfl, rfl, rfl⟩,
    fun s c htakes hok hdpll hstate => Runs.of_next (exec_dpllHistReset htakes hok hdpll hstate) ?history,
    fun s c htakes hok hdpll hforce hcand => Runs.of_next (exec_refForce htakes hok hdpll hforce hcand) ⟨fun hqualified => ?parked, fun hnot => ?refused⟩,
    fun s k w v hup hfirst hword => Runs.of_next (exec_candCfgWrite v hup hfirst hword) rfl, fun s d v hup hclosed hopen hen => ?loop,
    fun s d v hup hwriter hopen => Runs.of_next (exec_swrateCommit v hup hwriter hopen) ?rate,
    fun s y err band hup hen hsearch hgood hrun => ?lock, fun s y err band hup hen hsearch hbad => Runs.of_next (exec_synGate_restarts hup hen hsearch hbad) ?again,
    fun s y v hup hupd hen hoff hlo hhi houtputs => Runs.of_next (exec_synUpd hup hupd hen hoff hlo hhi houtputs) ?load⟩
  case rank =>
    obtain ⟨hrank, hesmc⟩ := State.esmcRanked_shows (Tab.ins n (s.time.bounds + 1) s.refs.esmc) k.isLt r.isLt
      (State.attended_serves hattended hstate) ⟨htype, hlane, hfree⟩
    exact Runs.of_next (exec_esmcRx r hattended hport) ⟨hrank, by rw [hesmc, Tab.find_ins_same]⟩
  case failed =>
    obtain ⟨hrank, hesmc⟩ := State.esmcRanked_shows (Tab.del n s.refs.esmc) k.isLt (show 255 < 256 by decide)
      (State.attended_serves hattended hstate) ⟨htype, hlane, hfree⟩
    exact Runs.of_next (exec_esmcTimeout hattended hsilent) ⟨hrank, by rw [hesmc, Tab.find_del_same]⟩
  case history => exact ⟨_, 0, 0, 0, 0, rfl, State.histCleared_shows _ hdpll⟩
  case parked => rw [if_pos hqualified, s.park_fetched_parked]
  case refused => exact ⟨s.fetched c, 0, 0, 0, 0, by rw [hnot, if_neg Bool.false_ne_true], trivial⟩
  case loop =>
    obtain ⟨u, cause, htime, hexec⟩ := exec_dpllOpen hup hclosed hopen hen
    have hcnt : u.cnt d = s.cnt d := by rw [State.cnt, htime, State.cnt]
    exact Runs.of_next hexec (hcnt ▸ u.dpllOpened_shows cause d.isLt)
  case rate => rw [State.dpll_modDpll]
  case lock =>
    obtain ⟨t, hregs, hexec⟩ := exec_synGate_locks (band := band) hup hen hsearch hgood hrun
    obtain ⟨hlock, hover, hband⟩ := s.synLocked_shows y ((s.syn y).good + 1) band.isLt
    have hfree : ¬AtReg reportRegs (Reg.synStatus y) := rowsApart_at (a := 0x3802008) rfl y.isLt rfl
    exact Runs.of_next hexec ⟨(hregs.flag hfree).trans hlock, (hregs.flag hfree).trans hover, (hregs.fld hfree).trans hband⟩
  case again => exact ⟨by rw [State.syn_modSyn], (State.modSyn_flag ..).trans hsearch⟩
  case load => rw [State.syn_modSyn]

end Sys2Proof.Machine
end

section
/-!
Measurement (spec/13 R415 to R434; spec/09 R298, R304, R305).
-/
namespace Sys2Proof.Machine
open Sys2Proof

/-! ### What an edge leaves of the counts (spec/13 R416, R417) -/

/-- The edges that each unit has counted, and the end of each input's hold-off. -/
def State.edgeCounts (s : State) : Tab Nat × Tab Nat := (s.meas.edges, s.meas.holdEnd)

theorem Kept.meas {L : List Part} {s t : State} (k : Kept L s t) (h : L.contains .meas = false) : t.meas = s.meas := k.same .meas h

theorem Kept.edgeCounts {L : List Part} {s t : State} (k : Kept L s t) (h : L.contains .meas = false) : t.edgeCounts = s.edgeCounts := by
  rw [State.edgeCounts, k.meas h, State.edgeCounts]

theorem State.modIm_edgeCounts (s : State) (m : Nat) (f : ImSt → ImSt) : (s.modIm m f).edgeCounts = s.edgeCounts := rfl

theorem State.bump_edgeCounts (s : State) (f : Fld) (n : Nat) : (s.bump f n).edgeCounts = s.edgeCounts := State.bump_kept.edgeCounts rfl

theorem State.imMerge_edgeCounts (s : State) (m u t : Nat) : (s.imMerge m u t).edgeCounts = s.edgeCounts := by
  unfold State.imMerge
  split <;> rfl

theorem State.showIm_edgeCounts (s : State) (m : Nat) : (s.showIm m).edgeCounts = s.edgeCounts := State.showIm_kept.edgeCounts rfl

theorem State.imOrphan_edgeCounts (s : State) (m u : Nat) (p : StopFill) : (s.imOrphan m u p).edgeCounts = s.edgeCounts := by
  rw [State.imOrphan, State.bump_edgeCounts, State.modIm_edgeCounts]

theorem State.imEnd_edgeCounts (s : State) (m : Nat) : (s.imEnd m).edgeCounts = s.edgeCounts := by
  unfold State.imEnd
  split
  next => rfl
  next w _ =>
    extract_lets done shown
    have hshown : shown.edgeCounts = s.edgeCounts := (State.showIm_edgeCounts ..).trans (State.modIm_edgeCounts done ..)
    split
    · exact (State.bump_edgeCounts ..).trans hshown
    · exact hshown

theorem State.imEdge_edgeCounts (s : State) (m u : Nat) (st : Stamp) (code : BitVec 12) : (s.imEdge m u st code).edgeCounts = s.edgeCounts := by
  unfold State.imEdge
  split
  case isTrue => rfl
  case isFalse =>
    extract_lets x tb t f starts slots w opened
    split
    next w _ =>
      split
      next i _ =>
        extract_lets filled taken
        split
        · exact (State.imEnd_edgeCounts ..).trans (s.modIm_edgeCounts ..)
        · exact s.modIm_edgeCounts ..
      next =>
        split
        · exact s.modIm_edgeCounts ..
        · rfl
    next =>
      split
      next =>
        have hopened : opened.edgeCounts = s.edgeCounts := (State.showIm_edgeCounts ..).trans (s.modIm_edgeCounts ..)
        split
        · exact (State.imEnd_edgeCounts ..).trans hopened
        · exact hopened
      next =>
        split
        case isFalse => rfl
        case isTrue =>
          clear_value slots
          cases slots with
          | nil => rfl
          | cons i rest =>
            dsimp only
            split
            · exact s.imOrphan_edgeCounts ..
            · rw [State.showIm_edgeCounts, State.modIm_edgeCounts]
              split
              · exact s.imOrphan_edgeCounts ..
              · rfl

theorem State.fmEdge_edgeCounts (s : State) (f u n : Nat) (st : Stamp) (at' : Nat) : (s.fmEdge f u n st at').edgeCounts = s.edgeCounts := by
  unfold State.fmEdge
  split
  next => rfl
  next g _ =>
    split
    · rfl
    · split
      · exact State.bump_edgeCounts ..
      · rfl

/-- An edge adds one to its unit's count, and leaves the hold-offs. -/
theorem State.unitEdge_edgeCounts (s : State) (u : Nat) (code : BitVec 12) :
    (s.unitEdge u code).edgeCounts = (Tab.put s.meas.edges 0 u ((Tab.get s.meas.edges 0 u + 1) % 2 ^ 64), s.meas.holdEnd) := by
  unfold State.unitEdge
  extract_lets n t counted merged st captured offered
  have hcounted : counted.edgeCounts = (Tab.put s.meas.edges 0 u n, s.meas.holdEnd) := rfl
  clear_value counted
  split
  · have hmerged : merged.edgeCounts = counted.edgeCounts := by
      rw [← State.bump_edgeCounts counted (F.iuMerged_MERGED (128 + u)) 1]
      exact State.each_unchanged (view := State.edgeCounts) (fun v m _ => v.imMerge_edgeCounts m u t) _
    clear_value merged
    exact Eq.trans (by rfl) (hmerged.trans hcounted)
  · have hcaptured : captured.edgeCounts = counted.edgeCounts := State.bump_edgeCounts ..
    have hoffered : offered.edgeCounts = captured.edgeCounts :=
      State.each_unchanged (view := State.edgeCounts) (fun v m _ => v.imEdge_edgeCounts m u st code) _
    rw [← hcounted, ← hcaptured, ← hoffered]
    exact State.each_unchanged (view := State.edgeCounts) (fun v f _ => v.fmEdge_edgeCounts ..) offered

/-! ### Edges at the pins (spec/13 R415, R416; spec/09 R298) -/

/-- The hold-off of EVIN `n` runs to the end of that which its edge starts. -/
def State.heldOff (s : State) (n : Nat) (code : BitVec 12) : State :=
  s.modMeas fun x => { x with holdEnd := Tab.put x.holdEnd 0 n (s.holdTill n code) }

theorem exec_evinEdge {s : State} {n : Fin 16} {raw : BitVec 12} (e : Bool) (hup : s.up = true) (hen : s.flag (F.evinCfg_EN n) = true)
    (hmute : bitAt s.meas.mute.toNat n = false) : exec (.evinEdge n e raw) s =
    .next (if s.edgeTime (s.linear (128 + n.val) 0 raw) < Tab.get s.meas.holdEnd 0 n then s.bump (F.evinHoldoff_COUNT n)
      else if e ≠ s.flag (F.evinCfg_EDGE n) then s
      else (s.heldOff n (s.linear (128 + n.val) 0 raw)).unitEdge n (s.linear (128 + n.val) 0 raw)) := by
  show execEvinEdge n e raw s = _
  rw [execEvinEdge, if_pos hup, State.evinEdge, hen, hmute, Bool.not_true, Bool.or_self, if_neg Bool.false_ne_true]
  rfl

theorem exec_refinEdge {s : State} (m : Fin 8) (e : Bool) (raw : BitVec 12) (hup : s.up = true) : ∃ (code : BitVec 12) (t : State),
    t.meas = (s.unitEdge (16 + 2 * m.val + bit e) code).meas ∧ exec (.refinEdge m e raw) s = .next t := by
  show ∃ code t, _ ∧ execRefinEdge m e raw s = _
  rw [execRefinEdge, if_pos hup]
  refine ⟨s.linear (144 + 2 * m.val + bit e) 0 raw, _, ?_, rfl⟩
  unfold State.refinEdge
  extract_lets u merged st counted
  split
  · rfl
  · exact State.candEdge_kept.meas rfl

/-! ### Windows and pending stops (spec/09 R304, R305) -/

theorem State.im_of_meas {s t : State} (h : t.meas = s.meas) (m : Nat) : t.im m = s.im m := by rw [State.im, h, State.im]

theorem State.imEnd_shows {s : State} {m : Nat} {w : Window} (hwin : (s.im m).win = some w) : ((s.imEnd m).im m).win = none ∧
    ((s.imEnd m).im m).seq = (s.im m).seq + 1 ∧ (s.imEnd m).meas.done = MeasRec.place { s.imRecord m w with tick := s.time.tick } s.meas.done := by
  unfold State.imEnd
  rw [hwin]
  dsimp only
  have hdone : (s.measDone (s.imRecord m w)).im m = s.im m := rfl
  have hended {t : State} (hmeas : t.meas = ((s.measDone (s.imRecord m w)).modIm m fun x =>
      { x with win := none, seq := x.seq + 1, tables := if x.pend.isEmpty then [] else x.tables }).meas) :
      (t.im m).win = none ∧ (t.im m).seq = (s.im m).seq + 1 ∧
      t.meas.done = MeasRec.place { s.imRecord m w with tick := s.time.tick } s.meas.done := by
    rw [State.im_of_meas hmeas, State.im_modIm, hmeas, hdone]
    exact ⟨rfl, rfl, rfl⟩
  split
  · exact hended ((State.bump_kept.meas rfl).trans (State.showIm_kept.meas rfl))
  · exact hended (State.showIm_kept.meas rfl)

theorem State.imExpire_shows {s : State} {m i : Nat} (hpend : (Tab.find i (s.im m).pend).isSome = true) :
    Tab.find i ((s.imExpire m i).im m).pend = none := by
  obtain ⟨p, hp⟩ := Option.isSome_iff_exists.1 hpend
  unfold State.imExpire
  rw [hp]
  dsimp only
  rw [State.im_of_meas (State.showIm_kept.meas rfl), State.im_modIm, Tab.find_del_same]

/-! ### Posting and gates (spec/13 R421, R423, R425) -/

theorem State.measPost_due (s : State) : s.measPost.meas.due = [] := by
  have hlose (v : State) (r : MeasRec) : (v.measLose r).meas = v.meas := State.measLose_kept.meas rfl
  unfold State.measPost
  extract_lets l n emptied posted
  have hposted : posted.meas = emptied.meas := by
    refine State.each_unchanged (view := State.meas) (fun v r _ => ?_) _
    split
    · exact (hlose ..).trans (State.bump_kept.meas rfl)
    · exact State.writeEntry_kept.meas rfl
  have hall : (posted.each (l.drop n) State.measLose).meas = posted.meas :=
    State.each_unchanged (view := State.meas) (fun v r _ => hlose v r) _
  rw [hall, hposted]
  rfl

theorem State.fm_of_meas {s t : State} (h : t.meas = s.meas) (f : Nat) : t.fm f = s.fm f := by rw [State.fm, h, State.fm]

/-- A gate's end gives its record, which is due. -/
theorem State.fmEnd_shows {s : State} {f : Nat} {g : Gate} (hended : (s.fm f).ended = some g) (hfree : (s.fm f).owner = none) :
    ((s.fmEnd f).fm f).ended = none ∧ ((s.fmEnd f).fm f).seq = (s.fm f).seq + 1 ∧
    (s.fmEnd f).meas.due = MeasRec.place { unit := g.src, data := s.fmRecord f g, tick := g.endTick, key := 64 + f } s.meas.due := by
  unfold State.fmEnd
  rw [hended, hfree]
  dsimp only [Option.bind_none]
  rw [State.showFm_kept.meas rfl, State.fm_of_meas (State.showFm_kept.meas rfl), State.fm_modFm]
  exact ⟨rfl, rfl, rfl⟩

/-! ### FREQ_LONG (spec/13 R428) -/

/-- FM `f` is owned by the long operation `h`, whose gate begins at the boundary `name`. -/
def State.fmOwned (s : State) (f : Nat) (h : BitVec 32) (name : Option Nat) : State :=
  (s.modFm f fun x => { x with owner := some h, begins := some name }).showFm f

theorem State.fmOwned_fm (s : State) (f : Nat) (h : BitVec 32) (name : Option Nat) :
    (s.fmOwned f h name).fm f = { s.fm f with owner := some h, begins := some name } := by
  rw [State.fmOwned, State.fm_of_meas (State.showFm_kept.meas rfl), State.fm_modFm]

theorem State.fmOwned_kept {s : State} {f : Nat} {h : BitVec 32} {name : Option Nat} : Kept [.regs, .meas] s (s.fmOwned f h name) :=
  .step State.showFm_kept rfl (.step State.modFm_kept rfl .refl)

theorem exec_freqLong {s : State} {c : Cmd} (htakes : s.takes c 0x0A01 = true) (hok : c.ok 32 [(18, 6)] = true) (hfm : c.fld 0 1 < 16)
    (hlo : 128 ≤ c.fld 1 1) (hhi : c.fld 1 1 < 160) (hbase : c.fld 2 1 < 4) (hpre : c.fld 3 1 ≤ 24) (hmin : 1000 ≤ c.fld 4 4)
    (hmax : c.fld 4 4 ≤ 1000000) (hname : s.nameOk (c.fld 14 4) (boundaryName (c.fld 8 6) (c.fld 14 4)) = true) (haligned : c.fld 24 8 % 64 = 0)
    (hbuf : s.bufOk c.src (c.fld 24 8) 128 = true) (hen : s.flag (F.fmCfg_EN (c.fld 0 1)) = false) (hfree : (s.fm (c.fld 0 1)).owner = none) :
    exec (.freqLong c) s = .next ((s.fetched c).startLong c 0x0A01 (0xA0100 + c.fld 0 1) (c.fld 4 4)
      [c.fld 0 1, c.fld 1 1 - 128, c.fld 2 1, c.fld 3 1, c.fld 4 4, c.fld 24 8] fun s h =>
        s.fmOwned (c.fld 0 1) h (boundaryName (c.fld 8 6) (c.fld 14 4))) := by
  have hen' : (s.fetched c).flag (F.fmCfg_EN (c.fld 0 1)) = false := (s.fetched_flag c (rowsApart_at rfl hfm rfl)).trans hen
  have hfree' : ((s.fetched c).fm (c.fld 0 1)).owner = none := by rw [State.fm_of_meas (State.fetched_kept.meas rfl), hfree]
  show execFreqLong c s = _
  simp only [execFreqLong]
  rw [start_takes htakes (by simp only [hok, hfm, hlo, hhi, hbase, hpre, hmin, hmax, hname, haligned, hbuf, decide_true, beq_self_eq_true, Bool.and_self])]
  rw [if_neg (by rw [hen', hfree']; simp)]
  rfl

/-- A long operation whose resource is free runs at once. -/
theorem State.startLong_ready {s : State} (c : Cmd) (op res total : Nat) (args : List Nat) (onStart : State → BitVec 32 → State)
    (hready : s.longReady res = true) : ∃ u hd, StartsLong c op args u ∧ s.startLong c op res total args onStart = onStart u hd := by
  simp only [State.longReady, Bool.and_eq_true, Bool.not_eq_true'] at hready
  obtain ⟨⟨hbar, hfree⟩, hnone⟩ := hready
  obtain ⟨u, hd, -, -, hstarts, heq⟩ := State.startLong_accepts c op res total args onStart hbar hfree
  rw [hnone, if_neg Bool.false_ne_true] at heq
  exact ⟨u.markStarted hd, hd, hstarts.markStarted hd, heq⟩

/-! ### Pulses (spec/13 R429 to R434) -/

theorem State.evout_of_meas {s t : State} (h : t.meas = s.meas) (k : Nat) : t.evout k = s.evout k := by rw [State.evout, h, State.evout]

theorem State.evoutPlace_evout (s : State) (k a : Nat) (l : Int) : ∃ fine cross, (s.evoutPlace k a l).evout k = { s.evout k with fine := fine, cross := cross } :=
  ⟨_, _, State.evout_modEvout ..⟩

theorem State.showEvout_evout (s : State) (k j : Nat) : (s.showEvout k).evout j = s.evout j := State.evout_of_meas (State.showEvout_kept.meas rfl) j

theorem State.evoutEdge_falls {s : State} {k : Nat} (hhigh : (s.evout k).high = true)
    (hdue : s.evoutDue (s.evout k).tb (s.evoutLaunch k (s.evout k).adv (s.evout k).fall) = true) :
    ((s.evoutEdge k true).evout k).high = false ∧
    ((s.evoutEdge k true).evout k).trail = s.evoutPos (s.evout k).tb (s.evoutLaunch k (s.evout k).adv (s.evout k).fall) + 1 := by
  unfold State.evoutEdge
  dsimp only
  simp only [if_true]
  rw [hdue, hhigh, Bool.not_true, if_neg Bool.false_ne_true, if_pos rfl, State.showEvout_evout, State.evout_modEvout]
  exact ⟨rfl, rfl⟩

theorem State.evoutEdge_rises {s : State} {k : Nat} {at' : Stamp} (hhas : (s.evout k).sched.has (s.evout k).next = true)
    (hlow : (s.evout k).high = false)
    (hapart : (s.evout k).trail = 0 ∨ (s.evout k).trail + 128 ≤ s.evoutPos (s.evout k).sched.tb (s.evoutLaunch k (s.evout k).sched.adv at') + 1)
    (hat : at' = (s.evout k).sched.start + (s.evout k).next * (s.evout k).sched.period)
    (hdue : s.evoutDue (s.evout k).sched.tb (s.evoutLaunch k (s.evout k).sched.adv at') = true) :
    ((s.evoutEdge k false).evout k).high = true ∧ ((s.evoutEdge k false).evout k).next = (s.evout k).next + 1 ∧
    ((s.evoutEdge k false).evout k).fall = at' + (s.evout k).sched.width * 65536 := by
  subst hat
  have hgoes : ¬((s.evout k).high = true ∨ ((s.evout k).trail ≠ 0 ∧ s.evoutPos (s.evout k).sched.tb (s.evoutLaunch k (s.evout k).sched.adv
      ((s.evout k).sched.start + (s.evout k).next * (s.evout k).sched.period)) + 1 < (s.evout k).trail + 128)) := by
    rw [hlow]
    rintro (h | ⟨hne, hlt⟩)
    · exact Bool.false_ne_true h
    · rcases hapart with h | h
      · exact hne h
      · omega
  unfold State.evoutEdge
  dsimp only
  simp only [Bool.false_eq_true, if_false]
  rw [hdue, hhas, Bool.not_true, if_neg Bool.false_ne_true, if_neg Bool.false_ne_true, if_neg hgoes,
    State.showEvout_evout, State.evout_modEvout]
  obtain ⟨fine, cross, hplaced⟩ := s.evoutPlace_evout k (s.evout k).sched.tb (s.evoutLaunch k (s.evout k).sched.adv
    ((s.evout k).sched.start + (s.evout k).next * (s.evout k).sched.period))
  rw [hplaced]
  exact ⟨rfl, rfl, rfl⟩

theorem exec_evoutPulse {s : State} {k : Fin 16} (trailing : Bool) (hruns : (if k = 0 then s.power.aon && s.power.pllLocked else s.up) = true) :
    exec (.evoutPulse k trailing) s = .next (s.evoutEdge k trailing) := by
  have hsame : (if k.val = 0 then s.power.aon && s.power.pllLocked else s.up) = true := by
    rw [← hruns]
    exact if_congr (Fin.ext_iff (b := 0)).symm rfl rfl
  exact congrArg Host.Outcome.next (if_pos hsame)

theorem exec_pulseLoad {s : State} {c : Cmd} (htakes : s.takes c 0x0A02 = true) (hok : c.ok 48 [(3, 1), (22, 2), (42, 6)] = true)
    (hbase0 : c.fld 0 1 ≠ 0 ∨ c.fld 2 1 = 0) (hevout : c.fld 0 1 < 16) (hflags : c.fld 1 1 < 8) (hbase : c.fld 2 1 < 4) (hns : c.fld 10 4 < 1000000000)
    (hname : s.nameOk (c.fld 38 4) (boundaryName (c.fld 32 6) (c.fld 38 4)) = true) (hsched : (pulseSched c).ok = true)
    (hnone : (s.evout (c.fld 0 1)).loads = [])
    (hfree : (s.flag (F.evoutCfg_LOAD (c.fld 0 1)) && s.boundNo (boundaryName (c.fld 32 6) (c.fld 38 4)) == s.boundNo none) = false) :
    exec (.pulseLoad c) s = .next (((s.fetched c).park c 0x0A02).modEvout (c.fld 0 1) fun x =>
      { x with loads := x.loads ++ [(s.host.nextId, boundaryName (c.fld 32 6) (c.fld 38 4), pulseSched c)] }) := by
  have hbase0' : (c.fld 0 1 != 0 || c.fld 2 1 == 0) = true := by simpa using hbase0
  have hflag : (s.fetched c).flag (F.evoutCfg_LOAD (c.fld 0 1)) = s.flag (F.evoutCfg_LOAD (c.fld 0 1)) :=
    s.fetched_flag c (rowsApart_at rfl hevout rfl)
  have hbound (name : Option Nat) : (s.fetched c).boundNo name = s.boundNo name := by rw [State.boundNo, s.fetched_time, State.boundNo]
  have hloads : ((s.fetched c).evout (c.fld 0 1)).loads = [] := by rw [State.evout_of_meas (State.fetched_kept.meas rfl), hnone]
  show execPulseLoad c s = _
  simp only [execPulseLoad]
  rw [start_takes htakes (by simp only [hok, hbase0', hevout, hflags, hbase, hns, hname, hsched, decide_true, Bool.and_self])]
  rw [hloads, hflag, hbound, hbound, hfree, List.any_nil, Bool.or_self, if_neg Bool.false_ne_true, State.parkId, s.fetched_nextId]

theorem exec_evoutLoad {s : State} (k : Fin 16) {v : Word} (hup : s.up = true) (hload : (F.evoutCfg_LOAD k).of v = 1) :
    exec (.evoutLoad .host k v) s = .next ((s.putRw (Reg.evoutCfg k + 4 * 0) v).setF (F.evoutCfg_LOAD k) 1) := by
  show execEvoutLoad .host k v s = _
  rw [execEvoutLoad, State.evoutWrite]
  dsimp only
  rw [State.byWriter_host hup, if_neg Bool.false_ne_true, if_pos ⟨rfl, hload⟩]

/-! ### Settings that wait for their boundary (spec/13 R419, R423; spec/18 R546) -/

theorem State.later_waits {s : State} {a : Nat} (v : Word) (hup : s.up = true) (hfirst : s.beaten .host a = false) :
    s.later .host a v = (s.wait a (s.laterWord a v)).took .host a := by
  rw [State.later, State.byWriter_host hup, hfirst, if_neg Bool.false_ne_true]
  rfl

theorem State.later_beaten {s : State} {a : Nat} (v : Word) (hbeaten : s.beaten .host a = true) : s.later .host a v = s := by
  rw [State.later]
  cases hup : s.up
  · rw [State.byWriter, hup]
    rfl
  · rw [State.byWriter_host hup, hbeaten, if_pos rfl]

theorem State.fmWrite_waits {s : State} {f w : Nat} (v : Word) (hup : s.up = true) (hfirst : s.beaten .host (Reg.fmCfg f + 4 * w) = false)
    (hfree : (s.fm f).owner = none) : s.fmWrite .host f w v =
    (s.wait (Reg.fmCfg f + 4 * w) (s.laterWord (Reg.fmCfg f + 4 * w) v)).took .host (Reg.fmCfg f + 4 * w) := by
  rw [State.fmWrite, hfree, Option.isSome_none, if_neg Bool.false_ne_true, State.later_waits v hup hfirst]

/-- Settles O31: edges by what they leave of the counts, the others by the state that each command or event answers. -/
theorem measurement : Obligations.Measurement := by
  refine ⟨fun s n e raw code hup hcode hen hmute hover hedge => Runs.of_next (exec_evinEdge e hup hen hmute) ?counted,
    fun s n e raw hup hen hmute hheld => Runs.of_next (exec_evinEdge e hup hen hmute) ?ignored, fun s m e raw hup => ?refin,
    fun s m w hup hwin => Runs.of_next (congrArg Host.Outcome.next (if_pos hup)) (State.imEnd_shows hwin),
    fun s m i hup hpend => Runs.of_next (congrArg Host.Outcome.next (if_pos hup)) (State.imExpire_shows hpend),
    fun s hup => Runs.of_next (congrArg Host.Outcome.next (if_pos hup)) s.measPost_due,
    fun s f g hup hended hfree => Runs.of_next (congrArg Host.Outcome.next (if_pos hup)) (State.fmEnd_shows hended hfree),
    fun s c htakes hok hfm hlo hhi hbase hpre hmin hmax hname haligned hbuf hen hfree hready =>
      Runs.of_next (exec_freqLong htakes hok hfm hlo hhi hbase hpre hmin hmax hname haligned hbuf hen hfree) ?long,
    fun s k hruns hhigh hdue => Runs.of_next (exec_evoutPulse true hruns) (State.evoutEdge_falls hhigh hdue),
    fun s k at' hruns hhas hlow hapart hat hdue => Runs.of_next (exec_evoutPulse false hruns) (State.evoutEdge_rises hhas hlow hapart hat hdue),
    fun s c htakes hok hbase0 hevout hflags hbase hns hname hsched hnone hfree =>
      Runs.of_next (exec_pulseLoad htakes hok hbase0 hevout hflags hbase hns hname hsched hnone hfree) ?load,
    fun s k v hup hload => Runs.of_next (exec_evoutLoad k hup hload) ?shows,
    fun s m w v hup hfirst => Runs.of_next (congrArg Host.Outcome.next (State.later_waits v hup hfirst)) rfl,
    fun s m w v hbeaten => Runs.of_next (congrArg Host.Outcome.next (State.later_beaten v hbeaten)) rfl,
    fun s f w v hup hfirst hfree => Runs.of_next (congrArg Host.Outcome.next (State.fmWrite_waits v hup hfirst hfree)) rfl⟩
  case counted =>
    subst hcode
    rw [if_neg (Nat.not_lt.2 hover), if_neg (not_not.2 hedge)]
    have hcounts := (s.heldOff n (s.linear (128 + n.val) 0 raw)).unitEdge_edgeCounts n (s.linear (128 + n.val) 0 raw)
    obtain ⟨hedges, hheld⟩ := Prod.ext_iff.1 hcounts
    refine ⟨?_, ?_⟩
    · exact (congrArg (Tab.get · 0 n.val) hedges).trans (Tab.get_put_same ..)
    · exact (congrArg (Tab.get · 0 n.val) hheld).trans (Tab.get_put_same ..)
  case ignored =>
    rw [if_pos hheld, State.fld_bump _ _ (show 0 + 32 ≤ 32 by decide)]
    exact ⟨rfl, State.bump_kept.meas rfl⟩
  case refin =>
    obtain ⟨code, t, hmeas, hexec⟩ := exec_refinEdge m e raw hup
    have hcounts := congrArg Prod.fst (s.unitEdge_edgeCounts (16 + 2 * m.val + bit e) code)
    refine Runs.of_next hexec ?_
    rw [hmeas]
    exact (congrArg (Tab.get · 0 (16 + 2 * m.val + bit e)) hcounts).trans (Tab.get_put_same ..)
  case long =>
    obtain ⟨u, hd, hstarts, heq⟩ := State.startLong_ready c 0x0A01 (0xA0100 + c.fld 0 1) (c.fld 4 4)
      [c.fld 0 1, c.fld 1 1 - 128, c.fld 2 1, c.fld 3 1, c.fld 4 4, c.fld 24 8]
      (fun s h => s.fmOwned (c.fld 0 1) h (boundaryName (c.fld 8 6) (c.fld 14 4))) hready
    rw [heq]
    refine ⟨hstarts.kept State.fmOwned_kept rfl, ?_, ?_⟩
    · rw [State.fmOwned_fm]
      rfl
    · rw [State.fmOwned_fm]
  case load =>
    have hloads : (((s.fetched c).park c 0x0A02).evout (c.fld 0 1)).loads = [] := by
      rw [State.evout_of_meas (State.park_kept.meas rfl), State.evout_of_meas (State.fetched_kept.meas rfl), hnone]
    rw [State.evout_modEvout, hloads, List.nil_append]
  case shows => exact State.fld_setF_of_lt (f := F.evoutCfg_LOAD k) _ (show 25 + 1 ≤ 32 by decide) (show 1 < 2 ^ 1 by decide)

end Sys2Proof.Machine
end
